-- ==== Sys2Proof/Word.lean ====
section
/-! DEFINITION. The word types of the block: bytes and 32-bit register words (file 02, R4, R53). -/

namespace Sys2Proof

/-- A byte of memory or of a frame. -/
abbrev Byte := BitVec 8

/-- A 32-bit register word, bit 31 the most significant (R4). -/
abbrev Word := BitVec 32

end Sys2Proof
end

