-- ==== Sys2Proof/Syntax.lean ====
section
/-! DEFINITION. The commands of the block: one constructor per row of the spec's table of operations and events. An
operand carries what comes from outside the block: who asks and with what value, a received frame or field, a
measurement, or which item a timer or detector speaks for. -/

namespace Sys2Proof

/-- A bus-matrix master, in the order of Table OHQ-13 (file 10; file 02, R55). -/
inductive Master where
  | host | sm | en0 | en1 | dma | dbg | cbb | sdp
  deriving DecidableEq, Repr

/-- The master's place in that order. -/
def Master.code : Master → Nat
  | .host => 0 | .sm => 1 | .en0 => 2 | .en1 => 3 | .dma => 4 | .dbg => 5 | .cbb => 6 | .sdp => 7

/-- Who makes an access: the master, for a host access the box of the requesting function (file 02, R71), and whether it comes
through the proxy of that box's BOX page (file 13, R451). -/
structure Who where
  master : Master
  box : Nat
  proxy : Bool
  deriving DecidableEq, Repr

/-- A register access on a page: page index a[27:12], byte offset within the page, the four byte enables. -/
structure RegAcc where
  who : Who
  page : Nat
  off : Nat
  be : Nat
  deriving DecidableEq, Repr

/-- A register write: the access, the value, and what an operation that the write starts meets: the temperatures that an UPDATE of a
region uses, the temperature that a re-band uses (in 1/16 °C), and the staged rows that fail their SRAM protection check when a cue
reads them (page, table code, row index). -/
structure RegWrite where
  acc : RegAcc
  value : Nat
  temps : List Int
  t16 : Int
  bad : List (Nat × Nat × Nat)
  deriving DecidableEq, Repr

/-- What disturbed one copy (0 to 2) of a voted field, or of an entry of a voted table, before the scrub (file 02, R61, R62). -/
inductive Upset where
  | field (page off lo copy value : Nat)
  | entry (page code e copy value : Nat)
  deriving DecidableEq, Repr

/-- The rows that take effect together (file 02, R78): those that belong to no ODU, with every row of an immediate cue, or those of
the ODU of the context at a slot. -/
inductive AdoptRef where
  | free
  | odu (B dir e : Nat)
  deriving DecidableEq, Repr

/-- A serial lane: line lane n, or lane k of Fybry link m. -/
inductive LaneRef where
  | line (n : Nat)
  | fybry (m k : Nat)
  deriving DecidableEq, Repr

/-- A codeword as it arrives on a line lane (file 03, R89, R90, R107): its instance, and the PAM4 levels at the receive
balls over the symbols that hold it, from the first symbol of instance 0 on. -/
structure CwRx where
  inst : Nat
  levels : List Nat
  deriving DecidableEq, Repr

/-- What the members of an OTUCn send a frame from (file 04, R150 to R153): the BIP-8 over each member's frame, and for each
instance of its lanes, in order, 514 FEC symbols of scrambled FlexO content (file 03, R107). -/
structure OtucTx where
  computed : List Nat
  words : List (List Nat)
  deriving DecidableEq, Repr

/-- A received FlexO frame of one instance (file 04, R128, R129): whether the OMFI multiframe is found, and the PID, GID
and STAT.RPF read. -/
structure FlexoFrame where
  omfi : Bool
  pid : Nat
  gid : Nat
  rpf : Bool
  deriving DecidableEq, Repr

/-- A received OTUC frame as the framer meets it (file 04, Table OTU-5): the six FAS bytes at the position judged, MFAS,
the SM TTI byte, the SM BIP-8 byte, the BIP-8 that the slice computes over the frame, byte 10 of row 1, the two GCC0
bytes, and where the frame starts, in bytes of slice stream after deskew. -/
structure OtucFrame where
  fas : List Nat
  mfas : Nat
  tti : Nat
  bip : Nat
  computed : Nat
  byte10 : Nat
  gcc0 : List Nat
  start : Nat
  deriving DecidableEq, Repr

/-- The PM or TCM field of one ODU frame (file 05, R172, Table ODU-10): STAT, the TTI byte, the BIP-8 byte, the BEI/BIAE
nibble and BDI. -/
structure LayerOh where
  stat : Nat
  tti : Nat
  bip : Nat
  bei : Nat
  bdi : Bool
  deriving DecidableEq, Repr

/-- One position of an ODUCn frame, or the whole of another ODU's frame: the BIP-8 computed over its OPU, and the fields of
PM and TCM1 to TCM6. -/
structure OduPos where
  computed : Nat
  layers : List LayerOh
  deriving DecidableEq, Repr

/-- An ODU frame as a context meets it (file 05, R176): whether its FAS is correct, its MFAS, its OMFI byte, its positions, the PSI
byte of the frame, the MSI entry it completes, if any (slot, and 0 for unallocated or tpn + 1), the GCC1 and GCC2 bytes, the
four APS/PCC bytes with the level they are carried for, and the OPU's payload bytes, row by row, with NJO before and PJO in them, as
a BMP demapper takes them (file 06, R210). -/
structure OduFrame where
  fasOk : Bool
  mfas : Nat
  omfi : Nat := 0
  pos : List OduPos
  psi : Nat
  msi : Option (Nat × Nat)
  gcc1 : List Nat
  gcc2 : List Nat
  aps : List Nat
  opu : List Nat := []
  deriving DecidableEq, Repr

/-- What an egress context forms a frame from (file 05, R172; file 09, R324): the frame that reaches it from the fabric, if any, with
its EXP bytes and whether its flow is stamped, and the BIP-8 over the OPU of each position that the context forms itself. -/
structure OduTx where
  rx : Option OduFrame
  exp : Nat × Nat
  stamped : Bool
  computed : List Nat
  deriving DecidableEq, Repr

/-- Where a client is handled: a context (direction 0 ingress, 1 egress) at a block slot, or the line client of a lead
lane. -/
inductive CliRef where
  | ctx (B dir e : Nat)
  | line (n : Nat)
  deriving DecidableEq, Repr

/-- A received GMP server period (file 06, R204, R206): JC1 to JC6, the bytes of its words, and the offset of the server's frame
rate from its nominal rate against CORE_REF, in 2^-7 ppm. -/
structure GmpRx where
  jc : List Nat
  words : List Nat
  serverOff : Int
  deriving DecidableEq, Repr

/-- A block period of an idle-adapting buffer (file 06, R211 to R213): the bits that arrive from the OPUflex payload at an ingress
context (elsewhere blocks arrive with the segments of the flow), and whether the output takes a block. -/
structure ImpPeriod where
  arrive : List Bool
  read : Bool
  deriving DecidableEq, Repr

/-- A four-frame stamp group as received (file 08, R272): whether its frames came in frame and without input SSF, the MFAS
of its first frame, the format byte and the four EXP2 bytes. -/
structure StampGroup where
  inFrame : Bool
  mfas : Nat
  format : Nat
  exp2 : List Nat
  deriving DecidableEq, Repr

/-- What the HBM stacks did (file 08, R292 to R295): how many transactions of the wings arbiter they completed since its last access;
and of a read, whether its data returns later than its playout time, and its ECC error (0 none, 1 corrected, 2 uncorrectable). -/
structure HbmUse where
  done : Nat
  late : Bool
  err : Nat
  deriving DecidableEq, Repr

/-- A Fybry segment (file 09, Tables FYB-4, FYB-5): its header fields, the CRC-16 as received, its payload. -/
structure Seg where
  typ : Nat
  leg : Nat
  off : Bool
  cls : Nat
  flow : Nat
  seq : Nat
  stamp : Nat
  snap : Nat
  ccls : Nat
  lstate : Nat
  rxFail : Nat
  credit : Nat
  crc : Nat
  payload : List Byte
  deriving DecidableEq, Repr

/-- A segment as a link receiver finds it (file 09, R319, R330): the segment, whether a byte of it lay in an uncorrectable
codeword, whether its payload is a client's replacement signal (file 07, R233), and what became of the ring access that its
release may make (file 08). -/
structure SegRx where
  seg : Seg
  uncorr : Bool
  repl : Bool
  use : HbmUse
  deriving DecidableEq, Repr

/-- What completes a transmit segment (file 09, R325; file 08, R274 to R276): of an ODU flow the bytes of the source's stream from the
segment's first byte on (fewer than a payload where the frame sequence breaks within it), the MFAS of the frame that holds the first
byte and its place in that frame; of a line client the offset of its PCS block rate over 1 ms (R201). A client flow is cut from the
blocks and bits that the device has recovered itself. -/
structure SegDone where
  payload : List Nat
  mfas : Nat
  first : Nat
  lineOff : Nat
  deriving DecidableEq, Repr

/-- The alignment marker that completes a lane's marker lock (file 09, R313, R314): the PAM4 levels at the receive balls from the
start of its codeword on, and the lane's lag behind the earliest lane in 0.5 ns steps. -/
structure Marker where
  levels : List Nat
  lag : Nat
  deriving DecidableEq, Repr

/-- The cause of a Fybry link failure (file 09, R337). -/
inductive FailCause where
  | los
  | cdr
  | fec
  | delin
  | marker
  | peer
  | clock
  deriving DecidableEq, Repr

/-- A PTP event message as a line client meets it (file 12, R434, R435): on receive or transmit, its messageType, domainNumber
and sequenceId, whether it comes in IPv6, and its correctionField. -/
structure LinePtp where
  tx : Bool
  msgType : Nat
  domain : Nat
  seqId : Nat
  ipv6 : Bool
  correction : Nat
  deriving DecidableEq, Repr

/-- A call board frame as received (file 11, R394): the bit times of the bus from the start bit of its preamble, when it started on
the AON clock in steps of 0.5 µs (one byte time), and whether a reply to it collides (R396). -/
structure CbbRx where
  line : List Bool
  start : Nat
  collides : Bool
  deriving DecidableEq, Repr

/-- What a host request asks: a read, a write of these 32-bit words, or an I/O, atomic or message request (file 13, Table HST-6). -/
inductive HostOp where
  | read
  | write (data : List Nat)
  | other
  deriving DecidableEq, Repr

/-- A host request (file 13, R461, R464): the function (0 the PF, k VF k), the BAR (0 BAR0, 1 BAR2, 2 VF BAR0, 3 VF BAR2) and the byte
offset in it, the PCIe tag, the byte enables of its first and last word, its length in words; what the matrix and the target met:
that it was held back (R460), that the data read has an uncorrectable error (`poison`), that a region replied after the request
had ended (`late`, R462); and what an operation that a write starts meets, as in RegWrite. -/
structure HostReq where
  fn : Nat
  bar : Nat
  offset : Nat
  op : HostOp
  tag : Nat
  firstBe : Nat
  lastBe : Nat
  len : Nat
  held : Bool
  poison : Bool
  late : Bool
  temps : List Int
  t16 : Int
  bad : List (Nat × Nat × Nat)
  deriving DecidableEq, Repr

/-- A PCIe configuration request (file 13, R441, R454): a read of a 32-bit word of a function's configuration space at a byte offset
(file 02, R84), VF Enable with that many VFs (0 clears it), a function's MSI-X enable and function mask, or another one. -/
inductive CfgReq where
  | read (fn off : Nat)
  | vfEnable (n : Nat)
  | msix (fn : Nat) (enable mask : Bool)
  | other
  deriving DecidableEq, Repr

/-- What a TRUST operation meets (file 14): the anti-rollback steps that verify once blown (R477), whether EN0 and EN1 report
ready within 200 ms of their restart, the time an update takes in ms (R491), and the core whose watchdog expires in its course with the
number of the step of R491 that was done last, if one does (R500). -/
structure TrustEnv where
  verified : Nat
  ready0 : Bool
  ready1 : Bool
  ms : Nat
  expiry : Option (Nat × Nat)
  deriving DecidableEq, Repr

/-- An image read from the boot flash (file 14, Table FWT-3): secondary or primary, and its bytes; none on a read error. -/
structure FlashImage where
  secondary : Bool
  bytes : Option (List Nat)
  deriving DecidableEq, Repr

/-- An error that a cell detects in its own item (file 01, R15; file 15, Table FLT-4): a corrected or an uncorrectable SRAM
error, a parity error, a failed self-check of a lane's circuit, a crossing FIFO whose domains drift apart or another datapath
self-check (file 01, R38), a committed row that fails its check outside a cue, a stored word of a queue that loses its parity
(file 10, R360), the built-in test of a region in CALL (file 16, Table MOD-4), a fuse read or verify error, a self-check of the
collector. A source is a Table FLT-2 value. -/
inductive ItemError where
  | sramCe (src : Nat)
  | sramUe (src : Nat)
  | parity (src : Nat)
  | lane (l : LaneRef)
  | datapath (src : Nat)
  | row (src : Nat)
  | queueWord (r dir i k : Nat)
  | selfTest (r : Nat)
  | fuse
  | collector
  deriving DecidableEq, Repr

/-- What step 5 of the CALL sequence finds (file 16, Table MOD-3; file 17, R575): VDD_CORE within its target ± 15 mV, the
regions, log banks and stacks that fail their built-in tests or training. -/
structure CallTests where
  avsMet : Bool
  regions : List Nat
  banks : List Nat
  hbmFails : List Nat
  deriving DecidableEq, Repr

/-- What the rail monitors show (file 17, R580): the rails below their thresholds, and those whose report has been armed again
since the last statement, by rail bit of CHIP_ID_VMON. -/
structure Rails where
  under : Nat
  rearmed : Nat
  deriving DecidableEq, Repr

/-- An instruction on the JTAG port (file 14, R485; file 17, R587). -/
inductive JtagInstr where
  | bypass | idcode | samplePreload | extest | extestPulse | extestTrain | priv
  deriving DecidableEq, Repr

/-- What the firmware of a personality chooses when it serves a message (file 14, R493 to R498), the spec leaving it open: the block slots
of a new connection in each direction; the handle of a carrier that becomes a parent; the fields that the message does not state of the
CTX entries (ingress, egress) and of the CLI_CFG, TXF_CFG, RXF_CFG, ESG_CFG or ISG_CFG, APS_CFG, BRG_CFG, ETH_CFG, OTU_IF, CAP_CFG and
INS_CFG entries; MP_CFG entries (direction, point, value); the argument of a SET_ALL; the stage door queue of an
answer; and the staged rows that fail their protection
check, with page, table code and row (file 02, R74). -/
structure PersEnv where
  slotIn : Nat
  slotEg : Nat
  handle : Nat
  ctxIn : Nat
  ctxEg : Nat
  cli : Nat
  txf : Nat
  rxf : Nat
  grp : Nat
  aps : Nat
  brg : Nat
  eth : Nat
  otu : Nat
  cap : Nat
  ins : Nat
  mp : List (Nat × Nat × Nat)
  arg : Nat
  queue : Nat
  bad : List (Nat × Nat × Nat)
  deriving DecidableEq, Repr

/-- The commands: one constructor per row of the table of operations and events. -/
inductive Instr where
  /-- REGISTER_WRITE (R53): A write to a register that has no row of its own: stored as its access type states,
  or ignored with ERR_STATUS.partial_write when byte enables are incomplete. -/
  | registerWrite (x : RegWrite)
  /-- PAGE_CTRL_WRITE (R56): A write of PAGE_CTRL.run or force_safe enables, disables or holds the page's item
  in its maintenance state, as the owning chapter states. -/
  | pageCtrlWrite (a : RegAcc) (v : Nat)
  /-- PAGE_OWNER_WRITE (R56): A write of PAGE_OWNER takes effect only from SM and outside BOX and FWM pages;
  other masters set ERR_STATUS.owner_write. -/
  | pageOwnerWrite (a : RegAcc) (v : Nat)
  /-- EVT_STATUS_READ (R58): A read of EVT_STATUS returns the event bits and latches the page sequence number
  into the reading master's EVT_SEQ shadow. -/
  | evtStatusRead (a : RegAcc)
  /-- EVT_ACK_WRITE (R59): A write of EVT_ACK clears each event and ERR_STATUS bit stamped at or before the
  value, or sets ack_ahead if the value is ahead. -/
  | evtAckWrite (a : RegAcc) (v : Nat)
  /-- EVT_FORCE_WRITE (R57): Writing 1 to an EVT_FORCE bit records that event kind as if the item had raised it. -/
  | evtForceWrite (a : RegAcc) (v : Nat)
  /-- VOTE_SCRUB (R62): The periodic scrub votes every RV field at least once per 1 ms, correcting a single
  mismatch and resolving a three-way mismatch. -/
  | voteScrub (u : List Upset)
  /-- LO_READ (R64): A read of a 64-bit _LO word returns the low word and copies the high word of the same
  instant into the master's shadow. -/
  | loRead (a : RegAcc)
  /-- LO_WRITE (R65): A write of a writable _LO word is held in the writing master's shadow. -/
  | loWrite (a : RegAcc) (v : Nat)
  /-- HI_WRITE (R65): A write of _HI writes both words of the pair in one cycle, using the held low word or 0. -/
  | hiWrite (a : RegAcc) (v : Nat)
  /-- IND_ADDR_WRITE (R66): A write of IND_ADDR fetches the addressed row into the master's IND_DATA0-3, or
  zeros with ind_range. -/
  | indAddrWrite (a : RegAcc) (v : Nat)
  /-- IND_DATA3_WRITE (R67): A write of IND_DATA3 writes the four held words to the addressed row, staged copy
  for staged tables, and advances the index under auto_inc. -/
  | indData3Write (a : RegAcc) (v : Nat)
  /-- IND_DATA3_READ (R68): A read of IND_DATA3 with auto_inc advances the index by stride and fetches the new
  row. -/
  | indData3Read (a : RegAcc)
  /-- CUE_GO (R74): Writing BOX_CUE_CTRL.go starts a cue, judging check 1 at once and then checks 2 to 10 over
  the issuer's dirty rows in scope. -/
  | cueGo (w : Who) (n : Nat) (bad : List (Nat × Nat × Nat))
  /-- CUE_REVERT (R73): Writing BOX_CUE_CTRL.revert copies committed rows over the issuer's dirty rows in scope
  and clears their marks. -/
  | cueRevert (w : Who) (n : Nat)
  /-- CUE_IMAGE_CRC (R75): When check unit 31 is free, the cue takes its turn and computes the CRC-32 of its
  dirty rows for comparison with BOX_CUE_EXPECT. -/
  | cueImageCrc (n : Nat)
  /-- CUE_CHECK_END (R596): At the end of checking, checks 2 and 3 are judged again and the cue is refused,
  passes its dry run, or is accepted with the next device cue generation. -/
  | cueCheckEnd (n : Nat)
  /-- CUE_ROW_ADOPT (R78): At the next multiframe boundary of an ODU, or in the DP cycle after acceptance, the
  datapath adopts the accepted rows; the last adoption makes the cue DONE. -/
  | cueRowAdopt (n : Nat) (x : AdoptRef)
  /-- BLOCK_RESTART (R17): On an uncorrectable block-state error or a collector order, the block forces AIS,
  clears its datapath state and defects, and reloads its committed tables. -/
  | blockRestart (B cls : Nat)
  /-- BLOCK_RESTART_RELEASE (R17): When every running member slice of an OTUCn is back in frame after a restart,
  the block releases that OTUCn's forced signals. -/
  | blockRestartRelease (lead : Nat)
  /-- BLOCK_RESTART_TIMEOUT (R17): An OTUCn whose running members are not all in frame 3 ms after the reload is
  released and left to aSSF and its consequent actions. -/
  | blockRestartTimeout (lead : Nat)
  /-- ADAPTATION_DONE (R97): Start-up adaptation completes, sets LLN_STATUS.trained and records event trained. -/
  | adaptationDone (n : Nat)
  /-- LLN_TX_FIR_WRITE (R95): A write of LLN_TX_FIR1 applies all transmit taps and swing at a 64-symbol
  boundary, or keeps the previous taps and sets fir_refused. -/
  | llnTxFirWrite (n v : Nat)
  /-- LLN_RX_EQ_WRITE (R106): A write of LLN_RX_EQ with freeze = 1 sets the receiver elements at the next
  64-symbol boundary; with freeze = 0 it is ignored. -/
  | llnRxEqWrite (n v : Nat)
  /-- TRIAL_START (R100): An eligible lane, served in rotation within its block, starts a trial step that
  changes one receiver element by one step. -/
  | trialStart (B elapsed : Nat)
  /-- TRIAL_DWELL_END (R101): After a dwell of 64 codewords the lane keeps the new setting or restores the
  previous one by comparing with the baseline. -/
  | trialDwellEnd (n : Nat)
  /-- CODEWORD_DECODE (R108): A completed RS(544,514) codeword is corrected and counted in FEC_CW and exactly
  one histogram bin or FEC_UNCORR_CW. -/
  | codewordDecode (n : Nat) (x : CwRx) (m : Option LinePtp)
  /-- FEC_SNAP (R109): Writing FEC_SNAP.snap copies every FEC counter and bin into the snapshot registers in one
  DP cycle and increments FEC_SNAP_SEQ. -/
  | fecSnap (n : Nat)
  /-- LOS (R93): Input below the assert level for 1 µs declares loss of signal and raises SUSPECT on the lane's
  contexts. -/
  | los (l : LaneRef)
  /-- SIGNAL_DETECT (R93): Input above the clear level for 10 µs sets sig_det. -/
  | signalDetect (l : LaneRef)
  /-- CDR_UNLOCK (R111): Loss of CDR lock on a lane records cdr_unlock. -/
  | cdrUnlock (n : Nat)
  /-- CW_LOCK (R112): The lane gains alignment-marker and codeword lock on all its instances. -/
  | cwLock (n : Nat)
  /-- CW_UNLOCK (R112): Loss of alignment-marker lock on any instance drops codeword lock, records cw_unlock,
  raises SUSPECT and sends the slices to SEARCH. -/
  | cwUnlock (n lost : Nat)
  /-- DESKEW_MEASURE (R113): The block deskews an interface's lanes from their markers, reports each lag, and
  refuses alignment beyond 360 ns with skew_exceeded. -/
  | deskewMeasure (n : Nat) (lags : List Nat)
  /-- PRBS_LOCK (R116): The checker locks after 64 consecutive error-free symbols and starts counting bit
  errors. -/
  | prbsLock (l : LaneRef) (levels : List Nat)
  /-- PRBS_LOCK_LOST (R116): 32 or more errored symbols within 1,024 unlock the checker and record
  prbs_lock_lost. -/
  | prbsLockLost (l : LaneRef) (levels : List Nat)
  /-- PRBS_INJECT (R116): Writing LLN_PRBS_CFG.inject inverts one bit of the generator output. -/
  | prbsInject (n : Nat)
  /-- FLEXO_FRAME (R129): Each received FlexO frame updates the instance conditions dGIDM, dPMM and dRPF and the
  held-in-SEARCH state. -/
  | flexoFrame (d : Nat) (f : FlexoFrame)
  /-- OTUC_FRAME (R132): Each expected FAS position is judged by the frame alignment machine, with MFAS, SM
  overhead and BIP-8 of the frame judged alongside. -/
  | otucFrame (d : Nat) (f : OtucFrame)
  /-- LOF_ON (R137): The LOF integrator reaches lof_ms of OOF time and declares dLOF. -/
  | lofOn (d : Nat)
  /-- LOF_OFF (R137): The slice in frame continuously for lof_ms returns the integrator to 0 and clears dLOF. -/
  | lofOff (d : Nat)
  /-- LOM_ON (R138): The LOM integrator reaches lom_ms of in-frame OOM time and declares dLOM. -/
  | lomOn (d : Nat)
  /-- LOM_OFF (R138): IM for lom_ms continuously returns the LOM integrator to 0 and clears dLOM. -/
  | lomOff (d : Nat)
  /-- DLOM_CN_ON (R140): The bond integrator reaches lom_ms of bond misalignment and declares dLOM_CN on the
  lead page. -/
  | dlomCnOn (lead : Nat)
  /-- DLOM_CN_OFF (R140): Members bond-aligned for lom_ms continuously clear dLOM_CN. -/
  | dlomCnOff (lead : Nat)
  /-- BOND_ENTER (R141): A bond-aligned member enters the bond at the first multiframe boundary. -/
  | bondEnter (d : Nat)
  /-- OTUC_TX_FRAME (R151): Each egress slice emits one frame per T with the OTUCn's common MFAS count, its SM
  overhead and back-reported BDI and BEI. -/
  | otucTxFrame (lead : Nat) (x : OtucTx)
  /-- CORRUPT_FAS (R152): Writing OTU_TX_FORCE.corrupt_fas inverts OA1 byte 3 and OA2 byte 4 of the next
  fas_count frames. -/
  | corruptFas (d : Nat)
  /-- ODU_FRAME_SINK (R176): Each ODU frame received by an ingress context is judged by all its points, giving
  defects, counts and consequent actions. -/
  | oduFrameSink (B e : Nat) (f : OduFrame)
  /-- DLOFLOM_ON (R176): The demultiplexed ODU out of frame or multiframe for 3 ms declares dLOFLOM. -/
  | dloflomOn (B e : Nat) (omfi : Bool)
  /-- DLOFLOM_OFF (R176): In frame and multiframe for 3 ms continuously clears dLOFLOM. -/
  | dloflomOff (B e : Nat) (omfi : Bool)
  /-- ODU_FRAME_SOURCE (R172): Each egress frame of a context is formed with its source points' fields, back-
  reported BDI and BEI, stamp, APS bytes and any replacement. -/
  | oduFrameSource (B e : Nat) (x : OduTx)
  /-- CONTEXT_FORCED_AIS (R185): An uncorrectable error in a context's own state marks it forced to AIS, sets
  CTX_STATUS.forced and reports SRAM_UE. -/
  | contextForcedAis (B dir e : Nat)
  /-- SECOND_BOUNDARY (R186): At each second boundary of the time base every point closes its per-second record
  and the dDEG seconds are judged. -/
  | secondBoundary
  /-- PM_SECOND (R188): When every record of a second is written to the PM store, WNG_PMS_LAST is set and
  pm_second is recorded. -/
  | pmSecond
  /-- EPISODE_CHANGE (R191): The tracker takes one queued defect change per CTL cycle, opening or closing an
  episode and writing its prompt book record. -/
  | episodeChange (r : Nat)
  /-- AGGREGATED_OFF (R194): With occupancy below 7,168 and the queue empty, the region leaves aggregation and
  opens late episodes. -/
  | aggregatedOff (r : Nat)
  /-- GMP_MAP_PERIOD (R205): Once per server period the egress mapper takes c8 from the rate generator and sends
  Cm and ΣC8D with its data and stuff words. -/
  | gmpMapPeriod (B e : Nat) (mux : Bool) (data : List Nat)
  /-- GMP_DEMAP_PERIOD (R207): Each server period the demapper decodes JC, judges Cm against its window and
  recovers c8. -/
  | gmpDemapPeriod (B e : Nat) (mux : Bool) (rx : GmpRx)
  /-- AMP_JUSTIFY (R208): Each ODTU period the multiplexer makes at most one justification from the child's
  buffer fill; `data` are the bytes of the child's frames from the period's first on. -/
  | ampJustify (B e : Nat) (data : List Nat)
  /-- AMP_DEMUX_PERIOD (R209): The demultiplexer takes the majority of the three JC copies, counting amp_vote on
  disagreement; `data` are the bytes from the period's first data place on, and `serverOff` is the offset of the carrier's
  frame rate as in GmpRx. -/
  | ampDemuxPeriod (B e : Nat) (jc data : List Nat) (serverOff : Int)
  /-- IMP_BLOCK (R213): Each block period an IMP mapper or PCS inserts or deletes idles against its fill limits,
  refuses packets on overflow and declares cRATE. -/
  | impBlock (c : CliRef) (p : ImpPeriod) (m : Option LinePtp)
  /-- CRATE_OFF (R219): Fill between 1/4 and 3/4 of the depth for 1 ms clears cRATE. -/
  | crateOff (c : CliRef)
  /-- RATE_HOLD (R218): Sixteen invalid snapshots, an absent or offline flow, or an SF leg put the rate
  generator into holdover. -/
  | rateHold (B e : Nat)
  /-- RATE_HOLD_END (R218): Sixteen consecutive valid snapshots end holdover and the generator filters from its
  frozen value. -/
  | rateHoldEnd (B e : Nat)
  /-- CLOS_ON (R219): Loss of PCS alignment, LOS or block lock for 10 µs declares cLOS. -/
  | closOn (c : CliRef)
  /-- CLOS_OFF (R219): Lock continuously for 1 ms clears cLOS. -/
  | closOff (c : CliRef)
  /-- CLF_CHANGE (R219): A local-fault condition held or absent for 100 µs declares or clears cLF. -/
  | clfChange (c : CliRef) (on : Bool)
  /-- CRF_CHANGE (R219): A remote-fault condition held or absent for 100 µs declares or clears cRF. -/
  | crfChange (c : CliRef) (on : Bool)
  /-- SUSPECT_HOLD_END (R234): RGN_SUSPECT.hold after the last raw trigger ends the SUSPECT leg status. -/
  | suspectHoldEnd (c : CliRef)
  /-- LEG_STATUS_CHANGE (R233): A leg's status changes at a selector, feeding hold-off, provisional switching,
  SF-P override end and the request logic. -/
  | legStatusChange (G leg : Nat)
  /-- HOLD_OFF_EXPIRY (R238): At hold-off expiry the leg's status is sampled; SF or SD enters the request logic,
  otherwise ho_drop counts. -/
  | holdOffExpiry (G leg : Nat)
  /-- WTR_EXPIRY (R239): The wait-to-restore timer expires, the request becomes NR and the selector returns to
  W. -/
  | wtrExpiry (G : Nat)
  /-- CONFIRMATION_EXPIRY (R252): The confirmation timer expiring with the departed leg not SUSPECT ends the
  provisional switch as the top request gives. -/
  | confirmationExpiry (G : Nat)
  /-- BRIDGE_CHANGE_APPLY (R232): A switched bridge change takes effect at the next frame start of the
  protection output. -/
  | bridgeChangeApply (r j : Nat)
  /-- CLR (R240): Removes the operator command in force and stops WTR; the group takes NR or DNR. -/
  | clr (w : Who) (G : Nat)
  /-- LO (R240): Lockout of protection, in force until CLR or a higher command. -/
  | lo (w : Who) (G : Nat)
  /-- FS (R240): Forced switch to P, in force until CLR or a higher command. -/
  | fs (w : Who) (G : Nat)
  /-- MS (R240): Manual switch to P, refused or withdrawn as SUPERSEDED by a higher request. -/
  | ms (w : Who) (G : Nat)
  /-- MS_W (R240): Manual switch to W, refused or withdrawn as SUPERSEDED by a higher request. -/
  | msW (w : Who) (G : Nat)
  /-- EXER (R240): Exercise sent in APS without changing the selector; refused on a group without APS. -/
  | exer (w : Who) (G : Nat)
  /-- SET_SEL (R244): Sets the selector of a software group to PRT_CMD_ARG.sel within 250 ns. -/
  | setSel (w : Who) (G : Nat)
  /-- SET_BRIDGE (R244): Sets the switched bridge of a software group to PRT_CMD_ARG.bridge. -/
  | setBridge (w : Who) (G : Nat)
  /-- SET_APS (R244): Sets the transmitted APS bytes 1-3 of a software group. -/
  | setAps (w : Who) (G : Nat)
  /-- SET_ALL (R244): Sets selector, bridge and APS bytes of a software group in one DP cycle. -/
  | setAll (w : Who) (G : Nat)
  /-- ACK_SFP (R247): Clears SFP_REC.valid of the group. -/
  | ackSfp (w : Who) (G : Nat)
  /-- PRT_NOTE_READ (R248): A read of PRT_NOTE_LO removes and returns the oldest notice, or valid = 0 when
  empty. -/
  | prtNoteRead (w : Who)
  /-- APS_MESSAGE_RECEIVE (R257): An extracted APS message is checked, counted and fed to acceptance, resetting
  the channel's age. -/
  | apsMessageReceive (a msg : Nat)
  /-- APS_AGE_SCAN (R259): The millisecond scan ages each channel and declares dFOP-TO at age_ms. -/
  | apsAgeScan
  /-- DFOP_NR (R260): Transmitted byte 2 differing from accepted byte 3 for 50 ms declares dFOP-NR. -/
  | dfopNr (a : Nat)
  /-- STAMP_INSTANCE (R272): Each four-frame stamp group is judged and moves the context's stamp lock. -/
  | stampInstance (B e : Nat) (g : StampGroup)
  /-- WINGS_GROUP_START (R279): A group-start segment arriving at stage 3 is timestamped and gives a delay
  sample, updating the delay and the group's state. -/
  | wingsGroupStart (w leg F : Nat)
  /-- PLAYOUT_ADVANCE (R280): Each segment period the playout point advances one key, re-centred by slewing or
  steps, issuing early-leg reads. -/
  | playoutAdvance (w : Nat) (u : HbmUse)
  /-- SLOT_GRANT (R285): When a slot frees, the head of the slot queue is granted and the group enters ACQUIRE. -/
  | slotGrant
  /-- OVER_RECOVER (R282): A delay within max delay less 100 µs for 1 s takes an OVER group to ACQUIRE. -/
  | overRecover (w : Nat)
  /-- HBM_RETRAIN_PC (R295): Every 1.5625 ms one pseudo-channel of a stack is retrained under live traffic. -/
  | hbmRetrainPc (k : Nat) (late : Bool)
  /-- STACK_FAIL (R296): An HBM_LINK fault or clock loss marks the stack FAILED within 1 µs and stops its
  accesses. -/
  | stackFail (k : Nat) (clock : Bool)
  /-- GROUP_FALLBACK (R296): At its turn, one group of a failed stack enters FALLBACK and writes its WFAIL
  record. -/
  | groupFallback (k : Nat)
  /-- HBM_RESTORE (R299): Writing HBM_CTRL.restore on a retrained FAILED stack takes each FALLBACK group to
  ACQUIRE. -/
  | hbmRestore (k : Nat)
  /-- ACK_FAIL (R297): Writing WNG_CMD.ack_fail clears WFAIL.valid of the group. -/
  | ackFail (w : Nat)
  /-- FYBRY_ADAPTATION_DONE (R310): Start-up adaptation of a Fybry link completes. -/
  | fybryAdaptationDone (m : Nat)
  /-- FYL_TX_EQ_WRITE (R308): A write of FYL_TX_EQk applies the Fybry taps at a 64-symbol boundary, or keeps
  them and sets fir_refused. -/
  | fylTxEqWrite (m k v : Nat)
  /-- MARKER_LOCK (R314): Two valid markers at the expected spacing give marker lock and the lane's logical
  number. -/
  | markerLock (m k : Nat) (x : Marker)
  /-- MARKER_LOCK_LOST (R314): Three marker positions without a valid marker lose marker lock and fail the link. -/
  | markerLockLost (m k : Nat)
  /-- SEGMENT_RECEIVE (R330): A received segment is delineated, its header judged, its credits and peer state
  taken, and it enters its flow's reorder window. -/
  | segmentReceive (m : Nat) (x : SegRx)
  /-- SEGMENT_SLOT (R327): In each slot a link sends the oldest eligible class 0, then class 1 segment, or an
  idle segment. -/
  | segmentSlot (m : Nat)
  /-- SEGMENT_COMPLETE (R325): A completed transmit segment takes its sequence number and is assigned to a
  distribution position, diverted or dropped. -/
  | segmentComplete (r j : Nat) (d : SegDone)
  /-- REORDER_TIMEOUT (R332): The reorder timer expires and releases missing numbers as lost up to the lowest
  held segment. -/
  | reorderTimeout (r j : Nat)
  /-- FLOW_ABSENT (R334): No segment for the absent time moves a RUN flow to ABSENT and records absent. -/
  | flowAbsent (r j : Nat)
  /-- LINK_FAIL (R337): A failure condition fails a Fybry link; the region signals rx_fail and the understudy
  link covers or the position leaves the list. -/
  | linkFail (m : Nat) (c : FailCause)
  /-- FYL_FAIL (R337): Writing FYL_CTRL.fail fails the link. -/
  | fylFail (m : Nat)
  /-- FYL_RESTORE (R340): Writing FYL_CTRL.restore returns a failed link that is aligned, in SYNC and reported
  STANDBY or ACTIVE by the peer. -/
  | fylRestore (m : Nat)
  /-- OHQ_RD_READ (R361): A read of OHQ_RD takes one word of the selected capture queue, or returns nv when no
  complete packet is there. -/
  | ohqRdRead (w : Who) (r : Nat)
  /-- OHQ_WR_WRITE (R364): A write of OHQ_WR adds a word to the selected insertion queue, committing, rewinding
  or discarding as its bits and owner give. -/
  | ohqWrWrite (w : Who) (r v : Nat)
  /-- FLUSH (R368): OHQ_CMD FLUSH discards the committed packets not begun, at the consumer's next packet
  boundary. -/
  | flush (w : Who) (r dir ch : Nat)
  /-- FLUSH_APPLY (R368): A pending FLUSH takes effect at the consumer's packet boundary. -/
  | flushApply (r dir ch : Nat)
  /-- DROP_REST (R368): OHQ_CMD DROP_REST discards the rest of the packet the consumer has begun. -/
  | dropRest (w : Who) (r dir ch : Nat)
  /-- CHK_START (R373): CHK_CTRL.start opens a stream on a check unit, loads init and makes the writer the
  holder. -/
  | chkStart (w : Who) (u : Nat)
  /-- CHK_DATA_WRITE (R374): A write of CHK_DATA feeds bits of the word to the open stream. -/
  | chkDataWrite (w : Who) (u v : Nat)
  /-- CHK_FINISH (R375): CHK_CTRL.finish forms the result, compares it, judges the alive counter and closes the
  stream. -/
  | chkFinish (w : Who) (u : Nat)
  /-- CHK_ABORT (R373): CHK_CTRL.abort closes the stream without result or counts. -/
  | chkAbort (w : Who) (u : Nat)
  /-- SDP_FRAME_RECEIVE (R384): A frame received on the stage door port is filtered, judged, queued,
  timestamped, or taken as pause or wake frame. -/
  | sdpFrameReceive (b : List Nat)
  /-- SDP_RX_DESC_READ (R386): A read of SDP_RX_DESC takes the next frame of the selected queue or returns nv. -/
  | sdpRxDescRead (w : Who)
  /-- SDP_RX_DATA_READ (R386): A read of SDP_RX_DATA returns the next four bytes of the frame taken. -/
  | sdpRxDataRead (w : Who)
  /-- SDP_TX_START (R387): SDP_TX_CMD START begins a frame in a transmit queue, freeing older frames or refusing
  on length or foreign writer. -/
  | sdpTxStart (w : Who) (q len : Nat)
  /-- SDP_TX_ABORT (R387): SDP_TX_CMD ABORT rewinds the frame being written. -/
  | sdpTxAbort (w : Who)
  /-- SDP_TX_DATA_WRITE (R387): A write of SDP_TX_DATA adds four bytes to the frame, committing it with its last
  word. -/
  | sdpTxDataWrite (w : Who) (v : Nat)
  /-- SDP_TRANSMIT (R388): At each transmit decision the port sends the oldest frame of the highest unpaused
  queue, dropping aged frames at the head. -/
  | sdpTransmit
  /-- SDP_AGE_SCAN (R388): Every 100 µs the port drops aged frames at the queue heads. -/
  | sdpAgeScan
  /-- PAUSE_EXPIRY (R389): A class's pause time runs out and its queue resumes. -/
  | pauseExpiry (c : Nat)
  /-- PAUSE_BREAK (R390): A class held for wd_ms is released by the watchdog and pause frames for it are ignored
  for ignore_ms. -/
  | pauseBreak (c : Nat)
  /-- SDP_STAT_HALF_READ (R391): A read of SDP_STAT_HALF_LO returns and clears the half-range bits and latches
  the high word. -/
  | sdpStatHalfRead (w : Who)
  /-- CBB_FRAME_RECEIVE (R395): A call board frame is checked and handled as POLL, DATA, TOKEN, BEACON, WAKE or
  NONE. -/
  | cbbFrameReceive (x : CbbRx)
  /-- CBB_TX_SEND (R396): CBB_TX_CMD SEND places a DATA or WAKE frame in the one-frame transmit buffer. -/
  | cbbTxSend (w : Who) (typ dst len : Nat)
  /-- CBB_TX_ABORT (R396): CBB_TX_CMD ABORT discards the frame being prepared. -/
  | cbbTxAbort (w : Who)
  /-- CBB_TX_TIMEOUT (R396): A frame that has waited 1 s is dropped and counts tx_dropped. -/
  | cbbTxTimeout
  /-- MASTER_LOST (R397): No POLL for master_to ms moves the bus to TOKEN or SILENT. -/
  | masterLost
  /-- TOKEN_REGEN (R398): Silence for 1 ms plus addr × 20 µs makes the station take the token. -/
  | tokenRegen (collides : Bool)
  /-- TOKEN_SUCCESSOR_TIMEOUT (R398): A successor starting no frame within 20 µs is removed from the ring and
  the token passes on. -/
  | tokenSuccessorTimeout
  /-- BEACON_SEND (R401): At its scheduled centre the leader sends its curtain-call beacon. -/
  | beaconSend (collides : Bool)
  /-- WINDOW_CLOSE (R402): A listen window closing without the mate's beacon counts a miss and, on the second,
  enters open house. -/
  | windowClose
  /-- PARTNER_LOST (R405): Open house for 3P without a beacon declares the partner lost and wakes the device. -/
  | partnerLost
  /-- CBB_WAKE_ACK (R400): Writing CBB_WAKE_ACK clears the wake causes and SDP_WAKE_STATUS and releases
  WAKE_OUT_N. -/
  | cbbWakeAck
  /-- DARK_WAKE (R562): A wake cause in DARK asserts WAKE_OUT_N and, once VDD_CORE is valid, runs the CALL
  sequence. -/
  | darkWake (strap : Nat)
  /-- REF_LOST (R417): A unit's reference without edges for 1 µs or beyond ±200 ppm gates its outputs and
  reports CLOCK_LOSS. -/
  | refLost (u : Nat) (ppm : Option Int)
  /-- REF_BACK (R417): A reference within ±150 ppm for 10 ms is back. -/
  | refBack (u : Nat) (ppm t16 : Int)
  /-- LOCK_LOST (R417): Output off by more than 20 ppm for 1 µs gates the unit and reports PLL_UNLOCK. -/
  | lockLost (u : Nat)
  /-- RELOCK (R419): 1 ms after the reference returns or lock is lost, and every 10 ms after, a non-core unit
  relocks in its band and ungates. -/
  | relock (u : Nat) (ok : Bool)
  /-- REBAND (R414): CSU_CMD.reband gates the unit, chooses a band, locks and ungates, or is refused or held
  PENDING. -/
  | reband (u : Nat) (w : Who) (t16 : Int)
  /-- REBAND_DONE (R414): A re-band completes and records reband_done. -/
  | rebandDone (u : Nat)
  /-- BAND_EDGE (R415): Margin falling below edge_pct sets band_edge and reports PLL_UNLOCK at RECORD. -/
  | bandEdge (u margin : Nat)
  /-- PPS_EDGE (R425): A PPS input edge is captured, qualified or accepted, and disciplines frequency and phase
  by slew or step. -/
  | ppsEdge (j ns : Nat)
  /-- PPS_LOST (R426): Three seconds without an accepted edge lose the input, possibly starting blackout. -/
  | ppsLost (j : Nat)
  /-- TOD_MESSAGE (R427): A ToD message on TOD_IN is judged valid for the next edge or counted in tod_err. -/
  | todMessage (line : List Bool) (ns : Nat)
  /-- SLEW_DONE (R429): The time base has moved by the remaining offset and σ returns to 0. -/
  | slewDone
  /-- HOLDOVER_EXPIRED (R430): holdover_h hours of HOLDOVER make the quality FREERUN. -/
  | holdoverExpired
  /-- TOD_OUT_SEND (R428): 500 ms after each second boundary TOD_OUT sends a message describing the next
  boundary. -/
  | todOutSend
  /-- TIM_NOW_READ (R424): A read of TIM_NOW0 returns seconds and latches the fraction, nanoseconds and quality
  for the master. -/
  | timNowRead (w : Who)
  /-- SET_SEC (R432): TIM_CMD.set_sec loads TIM_SET_SEC at the next second boundary while no input is qualified,
  or sets set_refused. -/
  | setSec (w : Who)
  /-- TIM_TS_READ (R436): A read of TIM_TS0 removes the oldest timestamp log entry and latches its other words. -/
  | timTsRead (w : Who)
  /-- HOST_LINK_DOWN (R463): The PCIe link drops; received writes apply, non-posted requests complete inside and
  DMA ends LINK_DOWN. -/
  | hostLinkDown
  /-- HOST_LINK_UP (R463): The link comes up with configuration space at reset and boxes kept. -/
  | hostLinkUp (width speed : Nat)
  /-- VF_FLR (R443): A VF FLR ends the box's proxy state and PM copy and clears its vectors, notices and
  requester state. -/
  | vfFlr (n : Nat)
  /-- HOST_REQUEST (R461): A host memory request is decoded through BAR0, windows or aperture, checked for
  ownership and completed with a status. -/
  | hostRequest (x : HostReq)
  /-- BUS_TIMEOUT (R461): A target not replying within 50 µs ends the request TIMEOUT and reports BUS at L1. -/
  | busTimeout (w : Who) (pg : Nat) (write : Bool) (late : Bool) (h : Option HostReq)
  /-- SET_PAGE (R444): The stage manager gives a page to a box, or refuses it as fixed or out of range. -/
  | setPage (box : Nat)
  /-- SET_OBJ (R447): The stage manager gives a run of OWN objects to a box whole, or refuses it as busy or out
  of range. -/
  | setObj (box : Nat)
  /-- SET_WIN (R448): The stage manager sets a window of a box's VF BAR0. -/
  | setWin (box : Nat)
  /-- PROXY_ACCESS (R451): An access at BOX offset 0x200 + x acts on the proxied page for box n as Table HST-4
  allows, else is denied. -/
  | proxyAccess (w : Who) (n off be : Nat) (v : Option Nat)
  /-- BOX_PX_PAGE_WRITE (R451): A write of BOX_PX_PAGE selects the proxy target and resets the box's proxy
  requester state. -/
  | boxPxPageWrite (n v : Nat)
  /-- BOX_NOTE_READ (R452): A read of BOX_NOTE_LO removes and returns the oldest notice of the box's queue. -/
  | boxNoteRead (w : Who) (n : Nat)
  /-- MSIX_SEND (R454): A pending unmasked vector past its holdoff sends its MSI-X message. -/
  | msixSend (n v : Nat)
  /-- DMA_GO (R456): HST_DMA_CTRL.go starts a channel copying HBM or LOG SRAM to host memory. -/
  | dmaGo (c : Nat)
  /-- DMA_DONE (R456): A DMA copy completes and records dma_done. -/
  | dmaDone (c : Nat) (bad : Option Nat)
  /-- PM_COPY_GO (R457): BOX_PM_CTRL.go starts copying the box's per-second records of second S, or is refused
  out of range. -/
  | pmCopyGo (n max : Nat)
  /-- PM_COPY_DONE (R457): A PM copy completes and records pm_done. -/
  | pmCopyDone (n : Nat) (bad : Bool)
  /-- FWM_RING (R479): FWM_MB_CTRL.ring submits the request to the server of its service, or is ignored while
  BUSY. -/
  | fwmRing (w : Who) (n : Nat)
  /-- MAILBOX_RESPONSE (R481): The server writes the whole response, sets DONE and records rsp_ready. -/
  | mailboxResponse (n : Nat) (t : TrustEnv) (x : PersEnv)
  /-- ATTEST (R484): Returns a signed attestation record with the nonce and current measurements. -/
  | attest (n : Nat)
  /-- GET_CERT (R483): Returns up to 496 bytes of the device or intermediate certificate. -/
  | getCert (n : Nat)
  /-- DEBUG_CHALLENGE (R486): Returns 32 random bytes as the one outstanding challenge. -/
  | debugChallenge
  /-- DEBUG_UNLOCK (R486): Consumes the challenge and unlocks the token's rights when it verifies. -/
  | debugUnlock
  /-- COMMIT_ROLLBACK (R477): Blows anti-rollback fuse steps one at a time up to v when both running images
  allow it. -/
  | commitRollback (x : TrustEnv)
  /-- REVOKE_SLOT (R478): Permanently revokes a fuse key slot unless an image in use names it. -/
  | revokeSlot
  /-- UPDATE_EN (R491): Moves services, restarts each ensemble core at the new slot in turn and returns
  services, or aborts to the old slot. -/
  | updateEn (x : TrustEnv)
  /-- BOOT_INFO (R482): Returns FWM_BOOT, FWM_ROLLBACK and each running image's flash source. -/
  | bootInfo
  /-- PUSH_START (R502): FWM_PUSH_CTRL START begins receiving an image push. -/
  | pushStart (kind len : Nat)
  /-- PUSH_DATA (R502): A write of FWM_PUSH_DATA adds four image bytes. -/
  | pushData (w : Who) (v : Nat)
  /-- PUSH_END (R476): FWM_PUSH_CTRL END submits the pushed image for the checks of Table FWT-5. -/
  | pushEnd
  /-- PUSH_ABORT (R502): FWM_PUSH_CTRL ABORT abandons the push. -/
  | pushAbort
  /-- IMAGE_VERIFIED (R476): Judging of an image completes, accepting it or recording the first failing reason. -/
  | imageVerified (kind : Nat) (flash : Option FlashImage) (x : CallTests)
  /-- FWM_WDOG_KICK (R487): A write by EN0 or EN1 restarts that core's own watchdog. -/
  | fwmWdogKick (w : Who)
  /-- EN_WDOG_EXPIRY (R487): An ensemble watchdog expires; the core is held, its services move to the other core
  and it restarts. -/
  | enWdogExpiry (core : Nat)
  /-- SM_WDOG_EXPIRY (R520): The stage manager watchdog or lockstep mismatch reports at L3 and the collector
  restarts the stage manager. -/
  | smWdogExpiry (lockstep : Bool)
  /-- DEV_IDENTITY (R498): Personality message returning part 0x0256, personality, revision, serial and cue
  generation. -/
  | devIdentity (p : Nat)
  /-- DEV_STATUS (R498): Personality message returning device state, region states and alarms. -/
  | devStatus (p : Nat)
  /-- DEV_RESET (R498): Personality message resetting its two regions with RESET or RESET_CLEAR. -/
  | devReset (p : Nat) (x : PersEnv)
  /-- LANE_SET (R498): Personality message setting a lane's type, rate and run through a cue. -/
  | laneSet (p : Nat) (x : PersEnv)
  /-- LANE_GET (R498): Personality message returning a lane's configuration and status. -/
  | laneGet (p : Nat)
  /-- IF_SET (R498): Personality message configuring or removing an OTUCn or Ethernet interface through a cue. -/
  | ifSet (p : Nat) (x : PersEnv)
  /-- LOOPBACK (R498): Personality message setting a line lane or Fybry link loopback. -/
  | loopback (p : Nat)
  /-- CONN_ADD (R498): Personality message adding an ODU connection through staged rows and a cue. -/
  | connAdd (p : Nat) (x : PersEnv)
  /-- CONN_MODIFY (R498): Personality message modifying an ODU connection through a cue. -/
  | connModify (p : Nat) (x : PersEnv)
  /-- CONN_DELETE (R498): Personality message deleting an ODU connection through a cue. -/
  | connDelete (p : Nat) (x : PersEnv)
  /-- CONN_GET (R498): Personality message returning a connection's configuration and status. -/
  | connGet (p : Nat)
  /-- PM_CURRENT (R498): Personality message returning the current 15-minute and 24-hour bins. -/
  | pmCurrent (p : Nat)
  /-- PM_HISTORY (R498): Personality message returning a past bin. -/
  | pmHistory (p : Nat)
  /-- PM_THRESH (R498): Personality message setting PM threshold-crossing levels. -/
  | pmThresh (p : Nat)
  /-- PG_ADD (R498): Personality message adding a protection group through a cue. -/
  | pgAdd (p : Nat) (x : PersEnv)
  /-- PG_DELETE (R498): Personality message deleting a protection group through a cue. -/
  | pgDelete (p : Nat) (x : PersEnv)
  /-- PG_COMMAND (R498): Personality message issuing an operator command to a protection group. -/
  | pgCommand (p : Nat) (x : PersEnv)
  /-- PG_STATUS (R498): Personality message returning a protection group's status. -/
  | pgStatus (p : Nat)
  /-- OH_OPEN (R498): Personality message opening an overhead channel through a cue. -/
  | ohOpen (p : Nat) (x : PersEnv)
  /-- OH_CLOSE (R498): Personality message closing an overhead channel through a cue. -/
  | ohClose (p : Nat) (x : PersEnv)
  /-- OH_SEND (R498): Personality message writing a packet into an insertion queue. -/
  | ohSend (p : Nat)
  /-- OH_RECEIVE (R498): Personality message returning one packet from a capture queue. -/
  | ohReceive (p : Nat)
  /-- ALM_LIST (R498): Personality message listing present alarms. -/
  | almList (p : Nat)
  /-- ALM_MASK (R498): Personality message masking or reporting alarms of an object. -/
  | almMask (p : Nat)
  /-- TIME_GET (R498): Personality message returning the time base and its quality. -/
  | timeGet (p : Nat)
  /-- TIME_SET (R494): Personality message always answered NOT_PERMITTED. -/
  | timeSet (p : Nat)
  /-- PERSONALITY_FRAME (R496): A stage door frame of the service EtherType carries a GV0256 message to
  personality p, answered by frame or discarded as sdp_bad. -/
  | personalityFrame (x : PersEnv)
  /-- PMBIN_STATUS (R499): PMBIN operation returning the last second binned and missing seconds. -/
  | pmbinStatus
  /-- PMBIN_GET (R499): PMBIN operation returning a bin of a point. -/
  | pmbinGet
  /-- HOUSEKEEPING_STATUS (R499): HOUSEKEEPING operation returning uptime, expiries, sdp_bad and image digest. -/
  | housekeepingStatus
  /-- REPORT_WORD (R516): An accepted report word is judged against its fault state, escalated and its level
  actions taken. -/
  | reportWord (link : Nat)
  /-- WIRE_BROKEN (R505): A rail pair equal for two FAB cycles breaks the link and raises WIRE at L2. -/
  | wireBroken (link : Nat)
  /-- REPORT_RESEND (R508): A word unacknowledged for 64 FAB cycles is resent, counting FLT_RETRY. -/
  | reportResend (link : Nat)
  /-- FLT_AGE_SCAN (R517): The millisecond scan closes slices and decrements quiet_left; at 0 the state leaves
  its fault state. -/
  | fltAgeScan
  /-- FLT_ACK (R518): A write of FLT_ACK clears unack of one state or of all. -/
  | fltAck (v : Nat)
  /-- FLT_INJECT (R538): A write of FLT_INJECT sends a test report on link 95 in REHEARSAL or AUDIT, else sets
  refused. -/
  | fltInject (v : Nat)
  /-- LOG_WRITE (R523): Every 16 FAB cycles the writer writes the next queued entry into the prompt book and its
  mirror. -/
  | logWrite (bad : Bool)
  /-- KEY_CLOSE (R524): A coalescing key closes 1 ms after its last report, queueing its REPEATED and FAULT
  entries. -/
  | keyClose (cls source : Nat)
  /-- BANK_FAIL (R528): An uncorrectable error or failed test fails a log bank, moving the writer to the other
  bank or the ghost light alone. -/
  | bankFail (k : Nat)
  /-- GHOST_CLEAR (R530): LOG_CMD.ghost_clear by box 0 or SM clears the ghost light. -/
  | ghostClear (w : Who)
  /-- PLAYBILL_GO (R532): PLB_CTRL.go captures the resynchronisation summary and writes it by DMA, or counts
  refused while BUSY. -/
  | playbillGo
  /-- PLAYBILL_DONE (R532): The playbill completes, PLB_SEQ increments and a PLAYBILL entry is written. -/
  | playbillDone
  /-- DIGEST_RECOMPUTE (R535): A configuration digest is recomputed after a cue or ownership change, reporting
  CONFIG_INTEGRITY on an unexplained change. -/
  | digestRecompute (j : Nat)
  /-- RESET_N_RELEASE (R548): Release of RESET_N samples the straps and starts the CALL sequence. -/
  | resetNRelease (strap : Nat)
  /-- CALL_DONE (R548): The CALL sequence completes; regions leave RESET and the chip enters REHEARSAL. -/
  | callDone
  /-- SERVICE (R545): Enters NATIVE or COMPAT, or INTERMISSION if a region is not ACTIVE. -/
  | service (w : Who) (arg : Nat)
  /-- REHEARSE (R546): Returns the chip to REHEARSAL and sets MODE.service to 0. -/
  | rehearse (w : Who)
  /-- AUDIT (R544): Takes the chip from REHEARSAL to AUDIT. -/
  | audit (w : Who)
  /-- ENTER_SAFE (R557): Takes the chip into SAFE and stops the datapath. -/
  | enterSafe (w : Who)
  /-- EXIT_SAFE (R558): Resets all regions, restarts the ensemble and enters REHEARSAL with every region
  OFFLINE. -/
  | exitSafe (w : Who)
  /-- ENTER_DARK (R560): Copies AON values, idles transmitters and the host link and gates all but the DARK
  domains. -/
  | enterDark (w : Who)
  /-- DRAIN (R551): Moves an ACTIVE region to DRAINING. -/
  | drain (w : Who) (r : Nat)
  /-- OFFLINE (R551): Moves a region to OFFLINE, sending offline markers. -/
  | offline (w : Who) (r : Nat)
  /-- RESUME (R551): Returns a DRAINING or OFFLINE region to ACTIVE. -/
  | resume (w : Who) (r : Nat)
  /-- RESET (R552): Resets a region keeping its committed tables. -/
  | reset (w : Who) (r : Nat)
  /-- RESET_CLEAR (R552): Resets a region and returns its tables to their reset values. -/
  | resetClear (w : Who) (r : Nat)
  /-- REGION_RESET_DONE (R553): A region reset completes; rows are adopted afresh and the region enters OFFLINE
  or ISOLATED. -/
  | regionResetDone (r : Nat)
  /-- UPDATE (R555): Re-bands an OFFLINE region's clock units and re-adapts its lanes and links. -/
  | update (w : Who) (r : Nat) (temps : List Int)
  /-- STACK_RETRAIN (R556): Retrains a FAILED HBM stack after its unit relocks. -/
  | stackRetrain (w : Who) (k : Nat)
  /-- REGION_SRAM (R563): AUDIT test of a region's SRAM, ending with RESET_CLEAR. -/
  | regionSram (target : Nat)
  /-- QUEUE_MEM (R563): AUDIT test of a region's queue memory. -/
  | queueMem (target : Nat)
  /-- HBM_ALIGN (R563): AUDIT test of a stack's alignment space. -/
  | hbmAlign (target : Nat)
  /-- LOG_BANK (R563): AUDIT test of a log bank. -/
  | logBank (target : Nat)
  /-- FUSE (R563): AUDIT test of the fuse array. -/
  | fuse (target : Nat)
  /-- AON_VOTE (R563): AUDIT test comparing the three copies of the ghost light and AON fields. -/
  | aonVote (target : Nat)
  /-- AUDIT_DONE (R563): An AUDIT test completes with PASS or FAIL and records audit_done. -/
  | auditDone (fail : Option Nat)
  /-- LIFE_COUNTER_TICK (R564): Each second outside DARK, AON advances the life counters from the highest sensor
  reading; `t16` is that reading in 1/16 °C while no sample is a command, the core domains standing still. -/
  | lifeCounterTick (t16 : Option Int)
  /-- SUPPLY_UNDERVOLTAGE (R580): A rail below its threshold for 2 µs reports POWER at its level with its
  further consequence. -/
  | supplyUndervoltage (rail : Nat) (v : Rails)
  /-- SUPPLY_OVERVOLTAGE (R580): A rail more than 5 % above nominal reports POWER at L2. -/
  | supplyOvervoltage (rail : Nat) (v : Rails)
  /-- CORE_VALID_RETURN (R580): Every core rail valid again for 10 ms sets core_valid. -/
  | coreValidReturn (v : Rails)
  /-- THERMAL_SAMPLE (R589): Each 1 ms sensor sample may send one THERMAL report at the highest armed threshold
  crossed. -/
  | thermalSample (k : Nat) (t16 : Int) (v : Rails)
  /-- I2C_ACCESS (R586): An I2C write sets the pointer and reads return the sideband map from it. -/
  | i2cAccess (addr : Nat) (ptr : Option Nat) (n : Nat)
  /-- CDR_LOCK (R121): A lane's CDR gains lock on the incoming signal and sets LLN_STATUS.cdr_lock. -/
  | cdrLock (n : Nat)
  /-- RESET_N_ASSERT (R581): RESET_N held low for 10 µs resets every domain except AON, drives push-pull outputs
  low and ends any debug unlock. -/
  | resetNAssert
  /-- AON_POWER_UP (R578): VDD_AON becomes valid, the crystal oscillates and AON leaves its power-on reset with
  its fields at reset value. -/
  | aonPowerUp
  /-- SDP_LINK_CHANGE (R407): The stage door port gains or loses block lock without fault, or sees local or
  remote fault, updating SDP_STATUS and recording event link. -/
  | sdpLinkChange (lock lf rf : Bool)
  /-- PUSH_TIMEOUT (R476): A PCIe push that has not started within 10 s of link-up ends with reason
  PUSH_TIMEOUT. -/
  | pushTimeout
  /-- PAUSE_IGNORE_END (R390): ignore_ms after a watchdog break the class again honours PAUSE and PFC frames and
  its wd_ignore bit clears. -/
  | pauseIgnoreEnd (c : Nat)
  /-- STACK_TRAINING_DONE (R556): JEDEC training of a FAILED stack ends, setting MODE_STACKS.retrained or
  train_fail bit s. -/
  | stackTrainingDone (k : Nat) (ok : Bool)
  /-- FYBRY_CODEWORD_DECODE (R312): A Fybry lane completes an RS(544,514) codeword, counted in the FYL FEC
  counters and in the fail_cnt window. -/
  | fybryCodewordDecode (m k : Nat) (levels : List Nat)
  /-- CONFIGURATION_REQUEST (R441): A PCIe configuration request, answered with retry status until CALL step 2
  ends, sets VF Enable and MSI-X enable and mask among others. -/
  | configurationRequest (x : CfgReq)
  /-- JTAG_INSTRUCTION (R485): An instruction shifted in on the JTAG port runs as boundary scan or IDCODE, as a
  private instruction after unlock, or as BYPASS. -/
  | jtagInstruction (x : JtagInstr)
  /-- ITEM_ERROR_DETECTED (R15): A cell detects an error in its own item, such as a corrected SRAM error, a
  parity error, a lane self-check failure or a crossing FIFO drift, corrects or marks it and reports upward. -/
  | itemErrorDetected (x : ItemError)
  deriving DecidableEq, Repr

end Sys2Proof
end

