-- ==== Sys2Proof/Config.lean ====
section
/-! DEFINITION. What the spec leaves open and what fuses and keys fix: opaque constants, of which nothing can be proved
but their types. -/

namespace Sys2Proof.Config

/-- The free values: the k-th value that the spec leaves open in a run. A use takes `Config.freeValue s.freeCtr` and
advances the counter, so that no two uses share a value. -/
opaque freeValue : Nat → Nat

/-- The serial number in the fuse array (file 02, CHIP_ID_SERIAL). -/
opaque fuseSerial : Nat

/-- The depth of the buffer of a client of code k (7: a line client), where the spec gives only a lower limit or none
(file 06, R211). -/
opaque bufDepth (k : Nat) : Nat

/-- Bit k of the SSPRQ test pattern, which the spec names without giving it (file 03, Table LAN-6). -/
opaque ssprq (k : Nat) : Bool

/-- The alignment markers of IEEE 802.3, which the spec names without giving them (file 06, R215): the place in the PCS lane order that
a received word of an Ethernet lane tells, and how many of its groups of 257 bits the marker takes; and the marker bits with which
codeword k of a lane in place j of a client of `lanes` lanes begins (none in most of them). -/
opaque ethMarkerRead (lanes : Nat) (word : List Nat) : Option (Nat × Nat)
opaque ethMarkerSent (lanes j k : Nat) : List Bool

/-- The fused AVS code, 0 to 30 (file 17, R575). -/
opaque fuseAvs : Nat

/-- The fuse array as made: anti-rollback steps blown, revoked key slots, and the SHA-384 of the key of each slot (file 14, R476
to R478). -/
opaque fuseRollback : Nat
opaque fuseRevoked : List Nat
opaque keySlot (slot : Nat) : List Nat

/-- The fuse array's bytes with a number of anti-rollback steps and the revoked slots (file 14, Table FWT-7; the spec does not
give their order). -/
opaque fuseBytes (steps : Nat) (revoked : List Nat) : List Nat

/-- The key store: the private identity key, the Tengatia debug public key, and the certificates, 0 device and 1 intermediate
(file 14, R482 to R486). -/
opaque identityKey : Nat
opaque debugKey : Nat × Nat
opaque certificate (index : Nat) : List Nat

end Sys2Proof.Config
end

