-- ==== Sys2Proof/Machine/Bits.lean ====
section
/-! DEFINITION. Bit fields of numbers, wrapping and saturating counts, and the CRC computations of the spec
(file 02 R75; file 10 R372; file 08 R269). -/

namespace Sys2Proof.Machine

/-- Bits [hi:lo] of a number. -/
def getBits (n hi lo : Nat) : Nat := n / 2 ^ lo % 2 ^ (hi - lo + 1)

/-- A number with bits [hi:lo] replaced by the low bits of `v`. -/
def putBits (n hi lo v : Nat) : Nat :=
  n % 2 ^ lo + (v % 2 ^ (hi - lo + 1)) * 2 ^ lo + n / 2 ^ (hi + 1) * 2 ^ (hi + 1)

/-- Bit `k` of a number. -/
def bit (n k : Nat) : Bool := n.testBit k

/-- 1 for true, 0 for false: how a condition stands in a one-bit field. -/
def b2n (b : Bool) : Nat := if b then 1 else 0

/-- A sum in a counter of `w` bits that wraps (R9). -/
def wrapAdd (w a b : Nat) : Nat := (a + b) % 2 ^ w

/-- A sum in a counter of `w` bits that saturates (R9). -/
def satAdd (w a b : Nat) : Nat := min (a + b) (2 ^ w - 1)

/-- The value of a `w`-bit two's complement field. -/
def toSigned (w v : Nat) : Int := if v % 2 ^ w < 2 ^ (w - 1) then (v % 2 ^ w : Nat) else ((v % 2 ^ w : Nat) : Int) - 2 ^ w

/-- The `w`-bit two's complement field that holds an integer. -/
def ofSigned (w : Nat) (i : Int) : Nat := (i % (2 ^ w : Int)).toNat

/-- A signed integer held within the range of a `w`-bit field, at the nearer end when outside. -/
def clampSigned (w : Nat) (i : Int) : Int := max (-(2 ^ (w - 1) : Int)) (min i (2 ^ (w - 1) - 1))

/-- The low `n` bits of a number in reverse order. -/
def reflect (n v : Nat) : Nat :=
  (List.range n).foldl (fun a i => a + (if v.testBit i then 2 ^ (n - 1 - i) else 0)) 0

/-- The number of 1 bits among the low `n` bits. -/
def popcount (n v : Nat) : Nat := (List.range n).foldl (fun a i => a + (if v.testBit i then 1 else 0)) 0

/-- One bit through a CRC register of width `w` and polynomial `poly`, most significant bit leading (R372). -/
def crcBit (w poly reg : Nat) (b : Bool) : Nat :=
  let top := reg.testBit (w - 1)
  let sh := (reg * 2) % 2 ^ w
  if top != b then sh ^^^ (poly % 2 ^ w) else sh

/-- A list of bits through a CRC register. -/
def crcBits (w poly reg : Nat) (bs : List Bool) : Nat := bs.foldl (crcBit w poly) reg

/-- The low `n` bits of a number, least significant first. -/
def bitsLsb (n v : Nat) : List Bool := (List.range n).map (fun i => v.testBit i)

/-- The low `n` bits of a number, most significant first. -/
def bitsMsb (n v : Nat) : List Bool := (bitsLsb n v).reverse

/-- CRC-32 with the parameters of the worked example of file 10 (reflected in and out, initial value and final XOR
0xFFFF_FFFF), over 32-bit words fed least-significant byte first (R75). -/
def crc32 (words : List Nat) : Nat :=
  reflect 32 (crcBits 32 0x04C11DB7 0xFFFFFFFF (words.flatMap (bitsLsb 32))) ^^^ 0xFFFFFFFF

/-- A number as `n` bytes, least significant first. -/
def bytesLe (n v : Nat) : List Byte := (List.range n).map (fun i => BitVec.ofNat 8 (v / 2 ^ (8 * i)))

/-- The number that bytes, least significant first, spell. -/
def ofBytesLe (bs : List Byte) : Nat := bs.foldr (fun b a => b.toNat + 256 * a) 0

end Sys2Proof.Machine
end

