-- ==== Sys2Proof/Machine/Regs.lean ====
section
/-! DEFINITION. The register fields and indirect tables of the spec, transcribed from the field tables of files 02 to 17
(bits, access type, reset value); a field is named REGISTER_field, a table field TABLE_field. -/

namespace Sys2Proof.Machine

/-- The access types of Table SCP-4 (file 00, R10). -/
inductive Access where
  | rw | ro | rv | ws | w1p | rl | rsh | wo
  deriving DecidableEq, Repr

/-- One field of a register: the offset of its register within a page, its bits, access type and reset value (R6, R10).
A field of a 64-bit pair is placed at the offset of the _LO word and may run to bit 63 (R64). `aon`: kept across RESET_N
(R7). `smOnly`: only the stage manager's writes have effect. `perMaster`: requester state, one value per master (R55). -/
structure Field where
  off : Nat
  hi : Nat
  lo : Nat
  acc : Access
  reset : Nat
  aon : Bool := false
  smOnly : Bool := false
  perMaster : Bool := false
  deriving DecidableEq, Repr

/-- The width of a field in bits. -/
def Field.width (f : Field) : Nat := f.hi - f.lo + 1

/-- The page types of Tables REG-2 to REG-4 (R50). -/
inductive PageType where
  | chipId | mode | flt | log | tim | csu | hst | bxm | sdp | cbb | chk | prt | plb | box | fwm | rgn | fyt | fyr | fyl | sel | ohq | epi | isl | lln | fec | otu | odi | ode | mpt | dmp | map | eth | wng | hbm
  deriving DecidableEq, Repr

/-- The page type code of Tables REG-2 to REG-4. -/
def PageType.code : PageType → Nat
  | .chipId => 0x01
  | .mode => 0x02
  | .flt => 0x03
  | .log => 0x04
  | .tim => 0x05
  | .csu => 0x06
  | .hst => 0x07
  | .bxm => 0x08
  | .sdp => 0x09
  | .cbb => 0x0A
  | .chk => 0x0B
  | .prt => 0x0C
  | .plb => 0x0D
  | .box => 0x0E
  | .fwm => 0x0F
  | .rgn => 0x20
  | .fyt => 0x21
  | .fyr => 0x22
  | .fyl => 0x23
  | .sel => 0x24
  | .ohq => 0x25
  | .epi => 0x26
  | .isl => 0x27
  | .lln => 0x30
  | .fec => 0x31
  | .otu => 0x32
  | .odi => 0x33
  | .ode => 0x34
  | .mpt => 0x35
  | .dmp => 0x36
  | .map => 0x37
  | .eth => 0x38
  | .wng => 0x40
  | .hbm => 0x41

def PAGE_CTRL_force_safe : Field := ⟨0x008, 1, 1, .rv, 0, false, false, false⟩
def PAGE_CTRL_run : Field := ⟨0x008, 0, 0, .rv, 0, false, false, false⟩
def PAGE_OWNER_box : Field := ⟨0x00C, 8, 0, .rv, 0, false, true, false⟩
def EVT_STATUS_page_error : Field := ⟨0x010, 31, 31, .ro, 0, false, false, false⟩
def EVT_STATUS_evt : Field := ⟨0x010, 30, 0, .ro, 0, false, false, false⟩
def EVT_SEQ_seq : Field := ⟨0x014, 31, 0, .rsh, 0x00000000, false, false, false⟩
def EVT_ACK_seq : Field := ⟨0x018, 31, 0, .ws, 0x00000000, false, false, false⟩
def EVT_MASK_mask : Field := ⟨0x01C, 31, 0, .rw, 0xFFFFFFFF, false, false, false⟩
def EVT_FORCE_force : Field := ⟨0x020, 30, 0, .w1p, 0, false, false, false⟩
def ERR_STATUS_vote_lost : Field := ⟨0x024, 6, 6, .ro, 0, false, false, false⟩
def ERR_STATUS_vote_corrected : Field := ⟨0x024, 5, 5, .ro, 0, false, false, false⟩
def ERR_STATUS_staged_locked : Field := ⟨0x024, 4, 4, .ro, 0, false, false, false⟩
def ERR_STATUS_partial_write : Field := ⟨0x024, 3, 3, .ro, 0, false, false, false⟩
def ERR_STATUS_ind_range : Field := ⟨0x024, 2, 2, .ro, 0, false, false, false⟩
def ERR_STATUS_ack_ahead : Field := ⟨0x024, 1, 1, .ro, 0, false, false, false⟩
def ERR_STATUS_owner_write : Field := ⟨0x024, 0, 0, .ro, 0, false, false, false⟩
def IND_ADDR_table : Field := ⟨0x028, 31, 24, .rw, 0x00, false, false, false⟩
def IND_ADDR_index : Field := ⟨0x028, 23, 0, .rw, 0x000000, false, false, false⟩
def IND_CTRL_view : Field := ⟨0x02C, 9, 9, .rw, 0, false, false, false⟩
def IND_CTRL_auto_inc : Field := ⟨0x02C, 8, 8, .rw, 0, false, false, false⟩
def IND_CTRL_stride : Field := ⟨0x02C, 7, 0, .rw, 0x01, false, false, false⟩
def IND_DATA_data (w : Nat) : Field := ⟨0x030 + 4 * (w % 4), 31, 0, .rw, 0, false, false, false⟩
def BOX_CUE_SCOPE_blocks : Field := ⟨0x040, 63, 0, .rw, 0, false, false, false⟩
def BOX_CUE_SCOPE_EXT_wng : Field := ⟨0x048, 9, 9, .rw, 0, false, false, false⟩
def BOX_CUE_SCOPE_EXT_prt : Field := ⟨0x048, 8, 8, .rw, 0, false, false, false⟩
def BOX_CUE_SCOPE_EXT_region : Field := ⟨0x048, 7, 0, .rw, 0x00, false, false, false⟩
def BOX_CUE_CTRL_check_en : Field := ⟨0x04C, 6, 6, .rw, 0, false, false, false⟩
def BOX_CUE_CTRL_dry_run : Field := ⟨0x04C, 5, 5, .rw, 0, false, false, false⟩
def BOX_CUE_CTRL_immediate : Field := ⟨0x04C, 4, 4, .rw, 0, false, false, false⟩
def BOX_CUE_CTRL_revert : Field := ⟨0x04C, 1, 1, .w1p, 0, false, false, false⟩
def BOX_CUE_CTRL_go : Field := ⟨0x04C, 0, 0, .w1p, 0, false, false, false⟩
def BOX_CUE_EXPECT_value : Field := ⟨0x050, 31, 0, .rw, 0x00000000, false, false, false⟩
def BOX_CUE_STATUS_state : Field := ⟨0x054, 10, 8, .ro, 0, false, false, false⟩
def BOX_CUE_STATUS_code : Field := ⟨0x054, 7, 0, .ro, 0x00, false, false, false⟩
def BOX_CUE_WHERE_typ : Field := ⟨0x058, 31, 24, .ro, 0xFF, false, false, false⟩
def BOX_CUE_WHERE_region : Field := ⟨0x058, 23, 16, .ro, 0xFF, false, false, false⟩
def BOX_CUE_WHERE_block : Field := ⟨0x058, 15, 8, .ro, 0xFF, false, false, false⟩
def BOX_CUE_WHERE_instance : Field := ⟨0x058, 7, 0, .ro, 0xFF, false, false, false⟩
def BOX_CUE_INDEX_table : Field := ⟨0x05C, 31, 24, .ro, 0xFF, false, false, false⟩
def BOX_CUE_INDEX_index : Field := ⟨0x05C, 23, 0, .ro, 0xFFFFFF, false, false, false⟩
def BOX_CUE_GEN_gen : Field := ⟨0x060, 31, 0, .ro, 0x00000000, false, false, false⟩
def RGN_CUE_GEN_gen (b : Nat) : Field := ⟨0x100 + 4 * (b % 8), 31, 0, .ro, 0x00000000, false, false, false⟩
def RGN_CUE_GEN_COM_gen : Field := ⟨0x120, 31, 0, .ro, 0x00000000, false, false, false⟩
def PRT_CUE_GEN_gen : Field := ⟨0x3FC, 31, 0, .ro, 0x00000000, false, false, false⟩
def WNG_CUE_GEN_gen : Field := ⟨0x3FC, 31, 0, .ro, 0x00000000, false, false, false⟩
def CHIP_ID_PART_vendor : Field := ⟨0x040, 31, 16, .ro, 0x7E47, false, false, false⟩
def CHIP_ID_PART_part : Field := ⟨0x040, 15, 0, .ro, 0x1024, false, false, false⟩
def CHIP_ID_REV_letter : Field := ⟨0x044, 15, 8, .ro, 0x42, false, false, false⟩
def CHIP_ID_REV_digit : Field := ⟨0x044, 7, 0, .ro, 0, false, false, false⟩
def CHIP_ID_SERIAL_serial : Field := ⟨0x048, 63, 0, .ro, 0, false, false, false⟩
def CHIP_ID_EVT_SUM_src (w : Nat) : Field := ⟨0x080 + 4 * w, 31, 0, .ro, 0, false, false, false⟩
def LLN_TX_EN_tx_en : Field := ⟨0x040, 0, 0, .rv, 0, false, false, false⟩
def LLN_POLSWAP_tx_phys (j : Nat) : Field := ⟨0x044, 9, 8, .rw, j, false, false, false⟩
def LLN_POLSWAP_rx_phys (j : Nat) : Field := ⟨0x044, 5, 4, .rw, j, false, false, false⟩
def LLN_POLSWAP_tx_inv : Field := ⟨0x044, 1, 1, .rw, 0, false, false, false⟩
def LLN_POLSWAP_rx_inv : Field := ⟨0x044, 0, 0, .rw, 0, false, false, false⟩
def LLN_TX_FIR0_c_m1 : Field := ⟨0x048, 23, 16, .rw, 0x00, false, false, false⟩
def LLN_TX_FIR0_c_m2 : Field := ⟨0x048, 15, 8, .rw, 0x00, false, false, false⟩
def LLN_TX_FIR0_c_m3 : Field := ⟨0x048, 7, 0, .rw, 0x00, false, false, false⟩
def LLN_TX_FIR1_swing : Field := ⟨0x04C, 27, 24, .rw, 0xA, false, false, false⟩
def LLN_TX_FIR1_c_p2 : Field := ⟨0x04C, 15, 8, .rw, 0x00, false, false, false⟩
def LLN_TX_FIR1_c_p1 : Field := ⟨0x04C, 7, 0, .rw, 0x00, false, false, false⟩
def LLN_LB_near_drive : Field := ⟨0x050, 4, 4, .rw, 0, false, false, false⟩
def LLN_LB_mode : Field := ⟨0x050, 1, 0, .rw, 0b00, false, false, false⟩
def LLN_PRBS_CFG_inject : Field := ⟨0x054, 8, 8, .w1p, 0, false, false, false⟩
def LLN_PRBS_CFG_chk_en : Field := ⟨0x054, 5, 5, .rw, 0, false, false, false⟩
def LLN_PRBS_CFG_gen_en : Field := ⟨0x054, 4, 4, .rw, 0, false, false, false⟩
def LLN_PRBS_CFG_pattern : Field := ⟨0x054, 3, 0, .rw, 0x5, false, false, false⟩
def LLN_PRBS_ERR_errors : Field := ⟨0x058, 63, 0, .ro, 0, false, false, false⟩
def LLN_ADAPT_CFG_kinds : Field := ⟨0x060, 31, 28, .rw, 0xF, false, false, false⟩
def LLN_ADAPT_CFG_interval : Field := ⟨0x060, 27, 16, .rw, 0x064, false, false, false⟩
def LLN_ADAPT_CFG_ceiling : Field := ⟨0x060, 11, 8, .rw, 0xA, false, false, false⟩
def LLN_ADAPT_CFG_floor : Field := ⟨0x060, 7, 4, .rw, 0x6, false, false, false⟩
def LLN_ADAPT_CFG_freeze : Field := ⟨0x060, 1, 1, .rw, 0, false, false, false⟩
def LLN_ADAPT_CFG_trial_en : Field := ⟨0x060, 0, 0, .rw, 1, false, false, false⟩
def LLN_ADAPT_STATUS_kind : Field := ⟨0x064, 9, 8, .ro, 0, false, false, false⟩
def LLN_ADAPT_STATUS_waiting : Field := ⟨0x064, 7, 7, .ro, 0, false, false, false⟩
def LLN_ADAPT_STATUS_trial_active : Field := ⟨0x064, 6, 6, .ro, 0, false, false, false⟩
def LLN_ADAPT_STATUS_margin : Field := ⟨0x064, 3, 0, .ro, 0, false, false, false⟩
def LLN_TRIAL_CNT_count (k : Nat) : Field := ⟨0x068 + 4 * (k % 5), 31, 0, .ro, 0, false, false, false⟩
def LLN_RX_EQ_mlse : Field := ⟨0x080, 24, 24, .rw, 0, false, false, false⟩
def LLN_RX_EQ_phase : Field := ⟨0x080, 21, 16, .rw, 0x00, false, false, false⟩
def LLN_RX_EQ_dfe : Field := ⟨0x080, 14, 8, .rw, 0x00, false, false, false⟩
def LLN_RX_EQ_ctle : Field := ⟨0x080, 3, 0, .rw, 0x0, false, false, false⟩
def LLN_STATUS_fir_refused : Field := ⟨0x084, 8, 8, .ro, 0, false, false, false⟩
def LLN_STATUS_test_refused : Field := ⟨0x084, 7, 7, .ro, 0, false, false, false⟩
def LLN_STATUS_lb_active : Field := ⟨0x084, 6, 6, .ro, 0, false, false, false⟩
def LLN_STATUS_prbs_lock : Field := ⟨0x084, 5, 5, .ro, 0, false, false, false⟩
def LLN_STATUS_swap_conflict : Field := ⟨0x084, 4, 4, .ro, 0, false, false, false⟩
def LLN_STATUS_trained : Field := ⟨0x084, 3, 3, .ro, 0, false, false, false⟩
def LLN_STATUS_cw_lock : Field := ⟨0x084, 2, 2, .ro, 0, false, false, false⟩
def LLN_STATUS_cdr_lock : Field := ⟨0x084, 1, 1, .ro, 0, false, false, false⟩
def LLN_STATUS_sig_det : Field := ⟨0x084, 0, 0, .ro, 0, false, false, false⟩
def LLN_SKEW_valid : Field := ⟨0x088, 31, 31, .ro, 0, false, false, false⟩
def LLN_SKEW_lag : Field := ⟨0x088, 10, 0, .ro, 0, false, false, false⟩
def FEC_BURST_CFG_trigger_en : Field := ⟨0x040, 16, 16, .rw, 1, false, false, false⟩
def FEC_BURST_CFG_window : Field := ⟨0x040, 15, 8, .rw, 0x01, false, false, false⟩
def FEC_BURST_CFG_count : Field := ⟨0x040, 3, 0, .rw, 0x1, false, false, false⟩
def FEC_SNAP_snap : Field := ⟨0x044, 0, 0, .w1p, 0, false, false, false⟩
def FEC_SNAP_SEQ_seq : Field := ⟨0x048, 31, 0, .ro, 0, false, false, false⟩
def FEC_CW : Field := ⟨0x050, 63, 0, .ro, 0, false, false, false⟩
def FEC_CORR_SYM : Field := ⟨0x058, 63, 0, .ro, 0, false, false, false⟩
def FEC_CORR_CW : Field := ⟨0x060, 63, 0, .ro, 0, false, false, false⟩
def FEC_UNCORR_CW : Field := ⟨0x068, 63, 0, .ro, 0, false, false, false⟩
def FEC_TRIAL_SYM : Field := ⟨0x070, 63, 0, .ro, 0, false, false, false⟩
def FEC_TRIAL_UNCORR : Field := ⟨0x078, 63, 0, .ro, 0, false, false, false⟩
def FEC_BURSTS : Field := ⟨0x080, 63, 0, .ro, 0, false, false, false⟩
def FEC_HIST (k : Nat) : Field := ⟨0x100 + 8 * (k % 16), 63, 0, .ro, 0, false, false, false⟩
def OTU_SM_CFG_tim_act_dis : Field := ⟨0x040, 2, 2, .rw, 0, false, false, false⟩
def OTU_SM_CFG_tim_mode : Field := ⟨0x040, 1, 0, .rw, 0b00, false, false, false⟩
def OTU_DEG_CFG_degm : Field := ⟨0x044, 31, 28, .rw, 0x7, false, false, false⟩
def OTU_DEG_CFG_degthr : Field := ⟨0x044, 19, 0, .rw, 0x02A00, false, false, false⟩
def OTU_TX_FORCE_fas : Field := ⟨0x048, 11, 8, .rw, 0x1, false, false, false⟩
def OTU_TX_FORCE_corrupt_fas : Field := ⟨0x048, 3, 3, .w1p, 0, false, false, false⟩
def OTU_TX_FORCE_inv_bip : Field := ⟨0x048, 2, 2, .rw, 0, false, false, false⟩
def OTU_TX_FORCE_force_iae : Field := ⟨0x048, 1, 1, .rw, 0, false, false, false⟩
def OTU_TX_FORCE_force_bdi : Field := ⟨0x048, 0, 0, .rw, 0, false, false, false⟩
def OTU_STATUS_position : Field := ⟨0x04C, 23, 20, .ro, 0x0, false, false, false⟩
def OTU_STATUS_member : Field := ⟨0x04C, 19, 19, .ro, 0, false, false, false⟩
def OTU_STATUS_bonded : Field := ⟨0x04C, 18, 18, .ro, 0, false, false, false⟩
def OTU_STATUS_ssd : Field := ⟨0x04C, 17, 17, .ro, 0, false, false, false⟩
def OTU_STATUS_ssf : Field := ⟨0x04C, 16, 16, .ro, 0, false, false, false⟩
def OTU_STATUS_dlom_cn : Field := ⟨0x04C, 15, 15, .ro, 0, false, false, false⟩
def OTU_STATUS_dbiae : Field := ⟨0x04C, 14, 14, .ro, 0, false, false, false⟩
def OTU_STATUS_diae : Field := ⟨0x04C, 13, 13, .ro, 0, false, false, false⟩
def OTU_STATUS_dbdi : Field := ⟨0x04C, 12, 12, .ro, 0, false, false, false⟩
def OTU_STATUS_ddeg : Field := ⟨0x04C, 11, 11, .ro, 0, false, false, false⟩
def OTU_STATUS_dtim : Field := ⟨0x04C, 10, 10, .ro, 0, false, false, false⟩
def OTU_STATUS_dlom : Field := ⟨0x04C, 9, 9, .ro, 0, false, false, false⟩
def OTU_STATUS_dlof : Field := ⟨0x04C, 8, 8, .ro, 0, false, false, false⟩
def OTU_STATUS_drpf : Field := ⟨0x04C, 7, 7, .ro, 0, false, false, false⟩
def OTU_STATUS_dpmm : Field := ⟨0x04C, 6, 6, .ro, 0, false, false, false⟩
def OTU_STATUS_dgidm : Field := ⟨0x04C, 5, 5, .ro, 0, false, false, false⟩
def OTU_STATUS_flexo_lock : Field := ⟨0x04C, 4, 4, .ro, 0, false, false, false⟩
def OTU_STATUS_fstate : Field := ⟨0x04C, 3, 2, .ro, 0b00, false, false, false⟩
def OTU_STATUS_im : Field := ⟨0x04C, 1, 1, .ro, 0, false, false, false⟩
def OTU_STATUS_in_frame : Field := ⟨0x04C, 0, 0, .ro, 0, false, false, false⟩
def OTU_LOF_INT_dp_cycles : Field := ⟨0x050, 23, 0, .ro, 0, false, false, false⟩
def OTU_GCC0_CFG_ins_en : Field := ⟨0x054, 31, 31, .rw, 0, false, false, false⟩
def OTU_GCC0_CFG_cap_en : Field := ⟨0x054, 30, 30, .rw, 0, false, false, false⟩
def OTU_GCC0_CFG_ins_ch : Field := ⟨0x054, 27, 16, .rw, 0x000, false, false, false⟩
def OTU_GCC0_CFG_cap_ch : Field := ⟨0x054, 11, 0, .rw, 0x000, false, false, false⟩
def WNG_PMS_BASE_base : Field := ⟨0x300, 63, 0, .rw, 0x0000002000000000, false, false, false⟩
def WNG_PMS_CFG_depth_m1 : Field := ⟨0x308, 15, 8, .rw, 0x3F, false, false, false⟩
def WNG_PMS_CFG_en : Field := ⟨0x308, 0, 0, .rw, 0, false, false, false⟩
def WNG_PMS_LAST_sec : Field := ⟨0x310, 47, 0, .ro, 0, false, false, false⟩
def WNG_PMS_STATUS_overrun : Field := ⟨0x318, 31, 0, .ro, 0, false, false, false⟩
def ODI_POOL_parents : Field := ⟨0x040, 22, 16, .ro, 0, false, false, false⟩
def ODI_POOL_used : Field := ⟨0x040, 10, 0, .ro, 0, false, false, false⟩
def ODE_POOL_parents : Field := ⟨0x040, 22, 16, .ro, 0, false, false, false⟩
def ODE_POOL_used : Field := ⟨0x040, 10, 0, .ro, 0, false, false, false⟩
def RGN_POOL_egress : Field := ⟨0x130, 28, 16, .ro, 0, false, false, false⟩
def RGN_POOL_ingress : Field := ⟨0x130, 12, 0, .ro, 0, false, false, false⟩
def MPT_SHP_USED_used : Field := ⟨0x040, 9, 0, .ro, 0, false, false, false⟩
def EPI_STATUS_aggregated : Field := ⟨0x040, 31, 31, .ro, 0, false, false, false⟩
def EPI_STATUS_tracked : Field := ⟨0x040, 29, 16, .ro, 0, false, false, false⟩
def EPI_OCC_occupancy : Field := ⟨0x044, 19, 0, .ro, 0, false, false, false⟩
def EPI_AGG_ENTRIES_count : Field := ⟨0x048, 31, 0, .ro, 0, false, false, false⟩
def EPI_NEXT_ID_id : Field := ⟨0x04C, 31, 0, .ro, 0, false, false, false⟩
def DMP_USED_used : Field := ⟨0x040, 10, 0, .ro, 0, false, false, false⟩
def MAP_USED_used : Field := ⟨0x040, 10, 0, .ro, 0, false, false, false⟩
def ETH_STATUS_leg : Field := ⟨0x040, 9, 8, .ro, 0b00, false, false, false⟩
def ETH_STATUS_gen_hold : Field := ⟨0x040, 7, 7, .ro, 0, false, false, false⟩
def ETH_STATUS_tx_lf : Field := ⟨0x040, 6, 6, .ro, 0, false, false, false⟩
def ETH_STATUS_replacing : Field := ⟨0x040, 5, 5, .ro, 0, false, false, false⟩
def ETH_STATUS_crate : Field := ⟨0x040, 4, 4, .ro, 0, false, false, false⟩
def ETH_STATUS_crf : Field := ⟨0x040, 3, 3, .ro, 0, false, false, false⟩
def ETH_STATUS_clf : Field := ⟨0x040, 2, 2, .ro, 0, false, false, false⟩
def ETH_STATUS_clos : Field := ⟨0x040, 1, 1, .ro, 0, false, false, false⟩
def ETH_STATUS_aligned : Field := ⟨0x040, 0, 0, .ro, 0, false, false, false⟩
def ETH_OFFSET_offset : Field := ⟨0x044, 15, 0, .ro, 0x8000, false, false, false⟩
def ETH_ERR_BLOCKS : Field := ⟨0x048, 31, 0, .ro, 0, false, false, false⟩
def ETH_IDLE_INS : Field := ⟨0x04C, 31, 0, .ro, 0, false, false, false⟩
def ETH_IDLE_DEL : Field := ⟨0x050, 31, 0, .ro, 0, false, false, false⟩
def ETH_PKT_DROP : Field := ⟨0x054, 31, 0, .ro, 0, false, false, false⟩
def ETH_REPL : Field := ⟨0x058, 31, 0, .ro, 0, false, false, false⟩
def ETH_LOST_UNITS : Field := ⟨0x05C, 31, 0, .ro, 0, false, false, false⟩
def RGN_SUSPECT_hold : Field := ⟨0x140, 7, 0, .rw, 0x14, false, false, false⟩
def ISL_USED_groups : Field := ⟨0x040, 10, 0, .ro, 0, false, false, false⟩
def SEL_USED_bridges : Field := ⟨0x040, 27, 16, .ro, 0, false, false, false⟩
def SEL_USED_groups : Field := ⟨0x040, 11, 0, .ro, 0, false, false, false⟩
def PRT_APS_CFG_chk_unit : Field := ⟨0x040, 4, 0, .rw, 0x1E, false, true, false⟩
def PRT_CMD_ARG_bridge : Field := ⟨0x044, 29, 29, .rw, 0, false, false, true⟩
def PRT_CMD_ARG_sel : Field := ⟨0x044, 28, 28, .rw, 0, false, false, true⟩
def PRT_CMD_ARG_aps : Field := ⟨0x044, 23, 0, .rw, 0x000000, false, false, true⟩
def PRT_CMD_op : Field := ⟨0x048, 31, 28, .wo, 0x0, false, false, false⟩
def PRT_CMD_grp : Field := ⟨0x048, 14, 0, .wo, 0x0000, false, false, false⟩
def PRT_CMD_STATUS_pending : Field := ⟨0x04C, 8, 8, .ro, 0, false, false, true⟩
def PRT_CMD_STATUS_code : Field := ⟨0x04C, 3, 0, .ro, 0x0, false, false, true⟩
def PRT_NOTE_quality : Field := ⟨0x050, 63, 62, .ro, 0, false, false, false⟩
def PRT_NOTE_ns : Field := ⟨0x050, 61, 32, .ro, 0, false, false, false⟩
def PRT_NOTE_valid : Field := ⟨0x050, 31, 31, .ro, 0, false, false, false⟩
def PRT_NOTE_data : Field := ⟨0x050, 27, 20, .ro, 0, false, false, false⟩
def PRT_NOTE_kind : Field := ⟨0x050, 19, 16, .ro, 0, false, false, false⟩
def PRT_NOTE_grp : Field := ⟨0x050, 14, 0, .ro, 0, false, false, false⟩
def PRT_NOTE_LOST_lost : Field := ⟨0x058, 31, 0, .ro, 0, false, false, false⟩
def WNG_CFG_exp_clear : Field := ⟨0x040, 16, 16, .rw, 0, false, false, false⟩
def WNG_CFG_band : Field := ⟨0x040, 11, 4, .rw, 0x32, false, false, false⟩
def WNG_CFG_slew_ppm : Field := ⟨0x040, 3, 0, .rw, 0x5, false, false, false⟩
def WNG_STATUS_queued : Field := ⟨0x044, 27, 16, .ro, 0, false, false, false⟩
def WNG_STATUS_slots : Field := ⟨0x044, 5, 0, .ro, 0, false, false, false⟩
def WNG_TRACK_peak : Field := ⟨0x048, 31, 16, .ro, 0, false, false, false⟩
def WNG_TRACK_now : Field := ⟨0x048, 14, 0, .ro, 0, false, false, false⟩
def WNG_TRACK_HELD_held : Field := ⟨0x04C, 31, 0, .ro, 0, false, false, false⟩
def WNG_CMD_ack_fail : Field := ⟨0x050, 31, 31, .w1p, 0, false, false, false⟩
def WNG_CMD_grp : Field := ⟨0x050, 11, 0, .w1p, 0, false, false, false⟩
def HBM_STATUS_groups : Field := ⟨0x040, 28, 16, .ro, 0, false, false, false⟩
def HBM_STATUS_retrain_pc : Field := ⟨0x040, 15, 8, .ro, 0, false, false, false⟩
def HBM_STATUS_state : Field := ⟨0x040, 1, 0, .ro, 0, false, false, false⟩
def HBM_CTRL_restore : Field := ⟨0x044, 0, 0, .w1p, 0, false, false, false⟩
def HBM_LOAD_mib : Field := ⟨0x048, 31, 16, .ro, 0, false, false, false⟩
def HBM_LOAD_gbps : Field := ⟨0x048, 15, 0, .ro, 0, false, false, false⟩
def HBM_CE : Field := ⟨0x050, 63, 0, .ro, 0, false, false, false⟩
def HBM_UE : Field := ⟨0x058, 63, 0, .ro, 0, false, false, false⟩
def HBM_RETRAIN_LATE : Field := ⟨0x060, 63, 0, .ro, 0, false, false, false⟩
def HBM_WBUF_DROP : Field := ⟨0x068, 63, 0, .ro, 0, false, false, false⟩
def FYT_STATUS_no_cover : Field := ⟨0x040, 12, 12, .ro, 0, false, false, false⟩
def FYT_STATUS_covering : Field := ⟨0x040, 11, 8, .ro, 0xF, false, false, false⟩
def FYT_STATUS_active : Field := ⟨0x040, 7, 4, .ro, 0, false, false, false⟩
def FYT_STATUS_working : Field := ⟨0x040, 3, 0, .ro, 0, false, false, false⟩
def FYT_DROP_dropped : Field := ⟨0x044, 31, 0, .ro, 0, false, false, false⟩
def FYR_CFG_absent_us : Field := ⟨0x040, 15, 8, .rw, 0x0A, false, false, false⟩
def FYR_CFG_reorder_to : Field := ⟨0x040, 7, 0, .rw, 0x0F, false, false, false⟩
def FYR_UNKNOWN_count : Field := ⟨0x048, 31, 0, .ro, 0, false, false, false⟩
def FYR_LAST_UNKNOWN_link : Field := ⟨0x04C, 19, 16, .ro, 0, false, false, false⟩
def FYR_LAST_UNKNOWN_flow : Field := ⟨0x04C, 15, 0, .ro, 0, false, false, false⟩
def FYL_STATUS_test_refused : Field := ⟨0x040, 26, 26, .ro, 0, false, false, false⟩
def FYL_STATUS_fir_refused : Field := ⟨0x040, 25, 25, .ro, 0, false, false, false⟩
def FYL_STATUS_credits_valid : Field := ⟨0x040, 24, 24, .ro, 0, false, false, false⟩
def FYL_STATUS_sig_det : Field := ⟨0x040, 23, 16, .ro, 0, false, false, false⟩
def FYL_STATUS_lane_lock : Field := ⟨0x040, 15, 8, .ro, 0, false, false, false⟩
def FYL_STATUS_id_mismatch : Field := ⟨0x040, 7, 7, .ro, 0, false, false, false⟩
def FYL_STATUS_peer_lstate : Field := ⟨0x040, 6, 5, .ro, 0, false, false, false⟩
def FYL_STATUS_peer_fail : Field := ⟨0x040, 4, 4, .ro, 0, false, false, false⟩
def FYL_STATUS_failed : Field := ⟨0x040, 3, 3, .ro, 0, false, false, false⟩
def FYL_STATUS_covered : Field := ⟨0x040, 2, 2, .ro, 0, false, false, false⟩
def FYL_STATUS_sync : Field := ⟨0x040, 1, 1, .ro, 0, false, false, false⟩
def FYL_STATUS_aligned : Field := ⟨0x040, 0, 0, .ro, 0, false, false, false⟩
def FYL_CTRL_fail : Field := ⟨0x044, 1, 1, .w1p, 0, false, false, false⟩
def FYL_CTRL_restore : Field := ⟨0x044, 0, 0, .w1p, 0, false, false, false⟩
def FYL_SKEW_valid : Field := ⟨0x048, 31, 31, .ro, 0, false, false, false⟩
def FYL_SKEW_skew : Field := ⟨0x048, 9, 0, .ro, 0, false, false, false⟩
def FYL_CREDIT_avail1 : Field := ⟨0x04C, 31, 16, .ro, 0, false, false, false⟩
def FYL_CREDIT_avail0 : Field := ⟨0x04C, 15, 0, .ro, 0, false, false, false⟩
def FYL_PEER_LIMIT_limit1 : Field := ⟨0x050, 31, 16, .ro, 0, false, false, false⟩
def FYL_PEER_LIMIT_limit0 : Field := ⟨0x050, 15, 0, .ro, 0, false, false, false⟩
def FYL_TX_EQ_tx_inv (k : Nat) : Field := ⟨0x060 + 4 * (k % 8), 31, 31, .rw, 0, false, false, false⟩
def FYL_TX_EQ_swing (k : Nat) : Field := ⟨0x060 + 4 * (k % 8), 28, 24, .rw, 0x0A, false, false, false⟩
def FYL_TX_EQ_c_p1 (k : Nat) : Field := ⟨0x060 + 4 * (k % 8), 15, 8, .rw, 0x00, false, false, false⟩
def FYL_TX_EQ_c_m1 (k : Nat) : Field := ⟨0x060 + 4 * (k % 8), 7, 0, .rw, 0x00, false, false, false⟩
def FYL_TEST_inject : Field := ⟨0x080, 16, 16, .w1p, 0, false, false, false⟩
def FYL_TEST_lanes : Field := ⟨0x080, 15, 8, .rw, 0xFF, false, false, false⟩
def FYL_TEST_lb : Field := ⟨0x080, 7, 6, .rw, 0b00, false, false, false⟩
def FYL_TEST_chk_en : Field := ⟨0x080, 5, 5, .rw, 0, false, false, false⟩
def FYL_TEST_gen_en : Field := ⟨0x080, 4, 4, .rw, 0, false, false, false⟩
def FYL_TEST_pattern : Field := ⟨0x080, 3, 0, .rw, 0x5, false, false, false⟩
def FYL_CW : Field := ⟨0x0C0, 63, 0, .ro, 0, false, false, false⟩
def FYL_CORR_SYM : Field := ⟨0x0C8, 63, 0, .ro, 0, false, false, false⟩
def FYL_UNCORR_CW : Field := ⟨0x0D0, 63, 0, .ro, 0, false, false, false⟩
def FYL_HDR_CRC : Field := ⟨0x0D8, 63, 0, .ro, 0, false, false, false⟩
def FYL_HUNT : Field := ⟨0x0E0, 63, 0, .ro, 0, false, false, false⟩
def FYL_RX_SEG : Field := ⟨0x0E8, 63, 0, .ro, 0, false, false, false⟩
def FYL_TX_SEG : Field := ⟨0x0F0, 63, 0, .ro, 0, false, false, false⟩
def FYL_TYPE_ERR : Field := ⟨0x0F8, 63, 0, .ro, 0, false, false, false⟩
def FYL_PRBS_ERR (k : Nat) : Field := ⟨0x100 + 8 * (k % 8), 63, 0, .ro, 0, false, false, false⟩
def OHQ_SEL_dir : Field := ⟨0x040, 31, 31, .rw, 0, false, false, true⟩
def OHQ_SEL_ch : Field := ⟨0x040, 8, 0, .rw, 0x000, false, false, true⟩
def OHQ_RD_word : Field := ⟨0x044, 31, 0, .ro, 0x80000000, false, false, false⟩
def OHQ_WR_word : Field := ⟨0x048, 31, 0, .wo, 0, false, false, false⟩
def OHQ_CMD_dir : Field := ⟨0x04C, 31, 31, .wo, 0, false, false, false⟩
def OHQ_CMD_op : Field := ⟨0x04C, 27, 24, .wo, 0x0, false, false, false⟩
def OHQ_CMD_ch : Field := ⟨0x04C, 8, 0, .wo, 0x000, false, false, false⟩
def OHQ_CMD_STATUS_code : Field := ⟨0x050, 2, 0, .ro, 0b000, false, false, true⟩
def OHQ_MEM_units : Field := ⟨0x054, 11, 0, .ro, 0, false, false, false⟩
def OHQ_LOST : Field := ⟨0x058, 31, 0, .ro, 0, false, false, false⟩
def OHQ_MISROUTE : Field := ⟨0x05C, 31, 0, .ro, 0, false, false, false⟩
def OHQ_READY_ready (w : Nat) : Field := ⟨0x080 + 4 * (w % 16), 31, 0, .ro, 0, false, false, false⟩
def CHK_CFG_lock : Field := ⟨0x040, 31, 31, .rw, 0, false, false, false⟩
def CHK_CFG_exp_en : Field := ⟨0x040, 10, 10, .rw, 0, false, false, false⟩
def CHK_CFG_refout : Field := ⟨0x040, 9, 9, .rw, 0, false, false, false⟩
def CHK_CFG_refin : Field := ⟨0x040, 8, 8, .rw, 0, false, false, false⟩
def CHK_CFG_width : Field := ⟨0x040, 6, 0, .rw, 0x20, false, false, false⟩
def CHK_POLY_value : Field := ⟨0x048, 63, 0, .rw, 0, false, false, false⟩
def CHK_INIT_value : Field := ⟨0x050, 63, 0, .rw, 0, false, false, false⟩
def CHK_XOR_value : Field := ⟨0x058, 63, 0, .rw, 0, false, false, false⟩
def CHK_EXPECT_value : Field := ⟨0x060, 63, 0, .rw, 0, false, false, false⟩
def CHK_ALIVE_CFG_mode : Field := ⟨0x068, 29, 28, .rw, 0b00, false, false, false⟩
def CHK_ALIVE_CFG_aw : Field := ⟨0x068, 20, 16, .rw, 0x04, false, false, false⟩
def CHK_ALIVE_CFG_aw_pos : Field := ⟨0x068, 15, 0, .rw, 0x0000, false, false, false⟩
def CHK_FEED_CFG_order : Field := ⟨0x06C, 8, 8, .rw, 0, false, false, false⟩
def CHK_FEED_CFG_bits : Field := ⟨0x06C, 5, 0, .rw, 0x20, false, false, false⟩
def CHK_CTRL_abort : Field := ⟨0x070, 2, 2, .w1p, 0, false, false, false⟩
def CHK_CTRL_finish : Field := ⟨0x070, 1, 1, .w1p, 0, false, false, false⟩
def CHK_CTRL_start : Field := ⟨0x070, 0, 0, .w1p, 0, false, false, false⟩
def CHK_DATA_data : Field := ⟨0x074, 31, 0, .wo, 0, false, false, false⟩
def CHK_RESULT_res : Field := ⟨0x078, 63, 0, .ro, 0, false, false, false⟩
def CHK_STATUS_holder : Field := ⟨0x080, 31, 28, .ro, 0xF, false, false, false⟩
def CHK_STATUS_open : Field := ⟨0x080, 27, 27, .ro, 0, false, false, false⟩
def CHK_STATUS_match : Field := ⟨0x080, 26, 26, .ro, 0, false, false, false⟩
def CHK_STATUS_compared : Field := ⟨0x080, 25, 25, .ro, 0, false, false, false⟩
def CHK_STATUS_alive_valid : Field := ⟨0x080, 24, 24, .ro, 0, false, false, false⟩
def CHK_STATUS_alive : Field := ⟨0x080, 15, 0, .ro, 0, false, false, false⟩
def CHK_ALIVE_NEXT_next : Field := ⟨0x084, 15, 0, .ro, 0, false, false, false⟩
def CHK_RUNS : Field := ⟨0x088, 31, 0, .ro, 0, false, false, false⟩
def CHK_MISMATCH : Field := ⟨0x08C, 31, 0, .ro, 0, false, false, false⟩
def CHK_REPEAT : Field := ⟨0x090, 31, 0, .ro, 0, false, false, false⟩
def CHK_GAP_MSGS : Field := ⟨0x094, 31, 0, .ro, 0, false, false, false⟩
def CHK_REFUSED : Field := ⟨0x098, 31, 0, .ro, 0, false, false, false⟩
def SDP_CFG_max_len : Field := ⟨0x040, 29, 16, .rw, 0x2400, false, false, false⟩
def SDP_CFG_pfc_en : Field := ⟨0x040, 7, 7, .rw, 0, false, false, false⟩
def SDP_CFG_pause_en : Field := ⟨0x040, 6, 6, .rw, 1, false, false, false⟩
def SDP_CFG_promisc : Field := ⟨0x040, 5, 5, .rw, 0, false, false, false⟩
def SDP_CFG_mc_en : Field := ⟨0x040, 4, 4, .rw, 1, false, false, false⟩
def SDP_CFG_speed : Field := ⟨0x040, 1, 0, .rw, 0b01, false, false, false⟩
def SDP_STATUS_wd_ignore : Field := ⟨0x044, 23, 16, .ro, 0, false, false, false⟩
def SDP_STATUS_paused : Field := ⟨0x044, 15, 8, .ro, 0, false, false, false⟩
def SDP_STATUS_cfg_err : Field := ⟨0x044, 3, 3, .ro, 0, false, false, false⟩
def SDP_STATUS_remote_fault : Field := ⟨0x044, 2, 2, .ro, 0, false, false, false⟩
def SDP_STATUS_local_fault : Field := ⟨0x044, 1, 1, .ro, 0, false, false, false⟩
def SDP_STATUS_link : Field := ⟨0x044, 0, 0, .ro, 0, false, false, false⟩
def SDP_MAC_addr : Field := ⟨0x048, 47, 0, .rw, 0, true, false, false⟩
def SDP_SVC_svc_en : Field := ⟨0x050, 16, 16, .rw, 0, false, false, false⟩
def SDP_SVC_ethertype : Field := ⟨0x050, 15, 0, .rw, 0x0000, false, false, false⟩
def SDP_PAUSE_WD_ignore_ms : Field := ⟨0x054, 31, 16, .rw, 0x0064, false, false, false⟩
def SDP_PAUSE_WD_wd_ms : Field := ⟨0x054, 15, 0, .rw, 0x0032, false, false, false⟩
def SDP_TXQ_CFG_age (q : Nat) : Field := ⟨0x060 + 4 * q, 31, 16, .rw, 0x0000, false, false, false⟩
def SDP_TXQ_CFG_size (q : Nat) : Field := ⟨0x060 + 4 * q, 13, 8, .rw, 0x08, false, false, false⟩
def SDP_TXQ_CFG_base (q : Nat) : Field := ⟨0x060 + 4 * q, 5, 0, .rw, 8 * q, false, false, false⟩
def SDP_TX_CMD_op : Field := ⟨0x080, 31, 28, .wo, 0x0, false, false, false⟩
def SDP_TX_CMD_q : Field := ⟨0x080, 26, 24, .wo, 0, false, false, false⟩
def SDP_TX_CMD_len : Field := ⟨0x080, 13, 0, .wo, 0, false, false, false⟩
def SDP_TX_DATA_data : Field := ⟨0x084, 31, 0, .wo, 0, false, false, false⟩
def SDP_RX_SEL_q : Field := ⟨0x088, 0, 0, .rw, 0, false, false, true⟩
def SDP_RX_DESC_nv : Field := ⟨0x08C, 31, 31, .ro, 1, false, false, true⟩
def SDP_RX_DESC_trunc : Field := ⟨0x08C, 30, 30, .ro, 0, false, false, true⟩
def SDP_RX_DESC_ts_valid : Field := ⟨0x08C, 29, 29, .ro, 0, false, false, true⟩
def SDP_RX_DESC_len : Field := ⟨0x08C, 13, 0, .ro, 0, false, false, true⟩
def SDP_RX_DATA_data : Field := ⟨0x090, 31, 0, .ro, 0, false, false, true⟩
def SDP_TX_STATUS_code : Field := ⟨0x094, 2, 0, .ro, 0b000, false, false, true⟩
def SDP_RX_TS_quality : Field := ⟨0x098, 63, 62, .ro, 0, false, false, true⟩
def SDP_RX_TS_ns : Field := ⟨0x098, 61, 32, .ro, 0, false, false, true⟩
def SDP_RX_TS_sec : Field := ⟨0x098, 31, 0, .ro, 0, false, false, true⟩
def SDP_STAT_HALF_half : Field := ⟨0x0A0, 63, 0, .ro, 0, false, false, false⟩
def SDP_WAKE_CFG_en (n : Nat) : Field := ⟨0x0C0 + 4 * n, 31, 31, .rw, 0, true, false, false⟩
def SDP_WAKE_CFG_crc (n : Nat) : Field := ⟨0x0C0 + 4 * n, 15, 0, .rw, 0x0000, true, false, false⟩
def SDP_WAKE_STATUS_dark_rx : Field := ⟨0x0E0, 31, 16, .ro, 0, true, false, false⟩
def SDP_WAKE_STATUS_matched : Field := ⟨0x0E0, 7, 0, .ro, 0, true, false, false⟩
def CBB_CFG_master_to : Field := ⟨0x040, 31, 24, .rw, 0x32, true, false, false⟩
def CBB_CFG_token_en : Field := ⟨0x040, 18, 18, .rw, 1, true, false, false⟩
def CBB_CFG_wake_en : Field := ⟨0x040, 17, 17, .rw, 0, true, false, false⟩
def CBB_CFG_cc_en : Field := ⟨0x040, 16, 16, .rw, 0, true, false, false⟩
def CBB_CFG_mate : Field := ⟨0x040, 13, 8, .rw, 0x00, true, false, false⟩
def CBB_CFG_addr : Field := ⟨0x040, 5, 0, .rw, 0x00, true, false, false⟩
def CBB_CC_CFG_guard : Field := ⟨0x044, 27, 16, .rw, 0x0C8, true, false, false⟩
def CBB_CC_CFG_period : Field := ⟨0x044, 12, 0, .rw, 0x0064, true, false, false⟩
def CBB_CC_STATUS_offset : Field := ⟨0x048, 31, 16, .ro, 0, true, false, false⟩
def CBB_CC_STATUS_misses : Field := ⟨0x048, 7, 4, .ro, 0, true, false, false⟩
def CBB_CC_STATUS_leader : Field := ⟨0x048, 3, 3, .ro, 0, true, false, false⟩
def CBB_CC_STATUS_state : Field := ⟨0x048, 2, 0, .ro, 0, true, false, false⟩
def CBB_TX_CMD_op : Field := ⟨0x04C, 31, 28, .wo, 0x0, false, false, false⟩
def CBB_TX_CMD_typ : Field := ⟨0x04C, 27, 20, .wo, 0x00, false, false, false⟩
def CBB_TX_CMD_dst : Field := ⟨0x04C, 18, 12, .wo, 0x00, false, false, false⟩
def CBB_TX_CMD_len : Field := ⟨0x04C, 8, 0, .wo, 0, false, false, false⟩
def CBB_TX_DATA_data : Field := ⟨0x050, 31, 0, .wo, 0, false, false, false⟩
def CBB_TX_STATUS_code : Field := ⟨0x054, 2, 0, .ro, 0b000, false, false, true⟩
def CBB_RX_DESC_nv : Field := ⟨0x058, 31, 31, .ro, 1, false, false, true⟩
def CBB_RX_DESC_src : Field := ⟨0x058, 30, 24, .ro, 0, false, false, true⟩
def CBB_RX_DESC_typ : Field := ⟨0x058, 23, 16, .ro, 0, false, false, true⟩
def CBB_RX_DESC_len : Field := ⟨0x058, 8, 0, .ro, 0, false, false, true⟩
def CBB_RX_DATA_data : Field := ⟨0x05C, 31, 0, .ro, 0, false, false, true⟩
def CBB_WAKE_CAUSE_filter : Field := ⟨0x060, 10, 8, .ro, 0, true, false, false⟩
def CBB_WAKE_CAUSE_partner_lost : Field := ⟨0x060, 3, 3, .ro, 0, true, false, false⟩
def CBB_WAKE_CAUSE_cbb_wake : Field := ⟨0x060, 2, 2, .ro, 0, true, false, false⟩
def CBB_WAKE_CAUSE_filter_match : Field := ⟨0x060, 1, 1, .ro, 0, true, false, false⟩
def CBB_WAKE_CAUSE_wake_out : Field := ⟨0x060, 0, 0, .ro, 0, true, false, false⟩
def CBB_WAKE_ACK_ack : Field := ⟨0x064, 0, 0, .w1p, 0, false, false, false⟩
def CBB_BUS_token_held : Field := ⟨0x068, 8, 8, .ro, 0, false, false, false⟩
def CBB_BUS_state : Field := ⟨0x068, 1, 0, .ro, 0b10, false, false, false⟩
def CBB_rx_frames : Field := ⟨0x080, 31, 0, .ro, 0, true, false, false⟩
def CBB_rx_bad : Field := ⟨0x084, 31, 0, .ro, 0, true, false, false⟩
def CBB_rx_lost : Field := ⟨0x088, 31, 0, .ro, 0, true, false, false⟩
def CBB_tx_frames : Field := ⟨0x08C, 31, 0, .ro, 0, true, false, false⟩
def CBB_tx_dropped : Field := ⟨0x090, 31, 0, .ro, 0, true, false, false⟩
def CBB_collisions : Field := ⟨0x094, 31, 0, .ro, 0, true, false, false⟩
def CBB_beacons_tx : Field := ⟨0x098, 31, 0, .ro, 0, true, false, false⟩
def CBB_beacons_rx : Field := ⟨0x09C, 31, 0, .ro, 0, true, false, false⟩
def CBB_misses : Field := ⟨0x0A0, 31, 0, .ro, 0, true, false, false⟩
def CBB_open_house : Field := ⟨0x0A4, 31, 0, .ro, 0, true, false, false⟩
def CBB_lost : Field := ⟨0x0A8, 31, 0, .ro, 0, true, false, false⟩
def CBB_token_regen : Field := ⟨0x0AC, 31, 0, .ro, 0, true, false, false⟩
def CSU_CFG_edge_pct : Field := ⟨0x040, 15, 8, .rw, 0x05, false, false, false⟩
def CSU_CFG_fw_ssc : Field := ⟨0x040, 3, 3, .rw, 0, false, false, false⟩
def CSU_CFG_ssc : Field := ⟨0x040, 2, 1, .rw, 0b00, false, false, false⟩
def CSU_CFG_ref_type : Field := ⟨0x040, 0, 0, .rw, 0, false, false, false⟩
def CSU_STATUS_margin : Field := ⟨0x044, 23, 16, .ro, 0, false, false, false⟩
def CSU_STATUS_band : Field := ⟨0x044, 13, 8, .ro, 0, false, false, false⟩
def CSU_STATUS_reband_busy : Field := ⟨0x044, 5, 5, .ro, 0, false, false, false⟩
def CSU_STATUS_band_edge : Field := ⟨0x044, 4, 4, .ro, 0, false, false, false⟩
def CSU_STATUS_no_band : Field := ⟨0x044, 3, 3, .ro, 0, false, false, false⟩
def CSU_STATUS_gated : Field := ⟨0x044, 2, 2, .ro, 1, false, false, false⟩
def CSU_STATUS_ref_ok : Field := ⟨0x044, 1, 1, .ro, 0, false, false, false⟩
def CSU_STATUS_locked : Field := ⟨0x044, 0, 0, .ro, 0, false, false, false⟩
def CSU_CMD_reband : Field := ⟨0x048, 0, 0, .w1p, 0, false, false, false⟩
def CSU_CMD_STATUS_code : Field := ⟨0x04C, 1, 0, .ro, 0b00, false, false, true⟩
def CSU_REF_PPM_ppm : Field := ⟨0x050, 15, 0, .ro, 0, false, false, false⟩
def CSU_lock_lost_count : Field := ⟨0x058, 31, 0, .ro, 0, false, false, false⟩
def CSU_ref_lost_count : Field := ⟨0x05C, 31, 0, .ro, 0, false, false, false⟩
def CSU_band_edge_cnt_count : Field := ⟨0x060, 31, 0, .ro, 0, false, false, false⟩
def TIM_CFG_step_allowed : Field := ⟨0x040, 31, 31, .rw, 0, false, false, false⟩
def TIM_CFG_bw : Field := ⟨0x040, 25, 24, .rw, 0b01, false, false, false⟩
def TIM_CFG_holdover_h : Field := ⟨0x040, 23, 16, .rw, 0x00, false, false, false⟩
def TIM_CFG_pps_win : Field := ⟨0x040, 15, 8, .rw, 0x0A, false, false, false⟩
def TIM_CFG_pps_sel : Field := ⟨0x040, 1, 0, .rw, 0b10, false, false, false⟩
def TIM_STEP_thresh : Field := ⟨0x044, 31, 0, .rw, 0x00002710, false, false, false⟩
def TIM_LOCK_slew_ppm : Field := ⟨0x048, 19, 16, .rw, 0xA, false, false, false⟩
def TIM_LOCK_lock_ns : Field := ⟨0x048, 15, 0, .rw, 0x0064, false, false, false⟩
def TIM_PPS_DELAY_delay (i : Nat) : Field := ⟨0x04C + 4 * i, 31, 0, .rw, 0, false, false, false⟩
def TIM_STATUS_set_refused : Field := ⟨0x054, 9, 9, .ro, 0, false, false, false⟩
def TIM_STATUS_time_set : Field := ⟨0x054, 8, 8, .ro, 0, false, false, false⟩
def TIM_STATUS_freq_limit : Field := ⟨0x054, 7, 7, .ro, 0, false, false, false⟩
def TIM_STATUS_slewing : Field := ⟨0x054, 6, 6, .ro, 0, false, false, false⟩
def TIM_STATUS_tod_ok : Field := ⟨0x054, 5, 5, .ro, 0, false, false, false⟩
def TIM_STATUS_active : Field := ⟨0x054, 4, 4, .ro, 0, false, false, false⟩
def TIM_STATUS_pps1_ok : Field := ⟨0x054, 3, 3, .ro, 0, false, false, false⟩
def TIM_STATUS_pps0_ok : Field := ⟨0x054, 2, 2, .ro, 0, false, false, false⟩
def TIM_STATUS_quality : Field := ⟨0x054, 1, 0, .ro, 0b10, false, false, false⟩
def TIM_OFFSET_value : Field := ⟨0x058, 31, 0, .ro, 0, false, false, false⟩
def TIM_FREQ_value : Field := ⟨0x05C, 31, 0, .ro, 0, false, false, false⟩
def TIM_FREQ_AVG_value : Field := ⟨0x060, 31, 0, .ro, 0, false, false, false⟩
def TIM_SET_SEC_sec : Field := ⟨0x070, 47, 0, .rw, 0, false, false, true⟩
def TIM_CMD_set_sec : Field := ⟨0x078, 0, 0, .w1p, 0, false, false, false⟩
def TIM_PPS_OUT_en (i : Nat) : Field := ⟨0x080 + 4 * i, 31, 31, .rw, 0, false, false, false⟩
def TIM_PPS_OUT_squelch_free (i : Nat) : Field := ⟨0x080 + 4 * i, 30, 30, .rw, 0, false, false, false⟩
def TIM_PPS_OUT_width (i : Nat) : Field := ⟨0x080 + 4 * i, 18, 0, .rw, 0x003E8, false, false, false⟩
def TIM_TOD_OUT_en : Field := ⟨0x088, 31, 31, .rw, 0, false, false, false⟩
def TIM_TOD_OUT_class : Field := ⟨0x088, 7, 0, .rw, 0xF8, false, false, false⟩
def TIM_RCLK_en (n : Nat) : Field := ⟨0x090 + 4 * n, 31, 31, .rw, 0, false, false, false⟩
def TIM_RCLK_squelch (n : Nat) : Field := ⟨0x090 + 4 * n, 30, 30, .rw, 1, false, false, false⟩
def TIM_RCLK_fmt (n : Nat) : Field := ⟨0x090 + 4 * n, 29, 28, .rw, 0b00, false, false, false⟩
def TIM_RCLK_swing (n : Nat) : Field := ⟨0x090 + 4 * n, 27, 24, .rw, 0x4, false, false, false⟩
def TIM_RCLK_div (n : Nat) : Field := ⟨0x090 + 4 * n, 10, 8, .rw, 0b000, false, false, false⟩
def TIM_RCLK_lane (n : Nat) : Field := ⟨0x090 + 4 * n, 7, 0, .rw, 0x00, false, false, false⟩
def TIM_REFOUT_en : Field := ⟨0x0B0, 31, 31, .rw, 0, false, false, false⟩
def TIM_REFOUT_fmt : Field := ⟨0x0B0, 29, 28, .rw, 0b00, false, false, false⟩
def TIM_REFOUT_swing : Field := ⟨0x0B0, 27, 24, .rw, 0x4, false, false, false⟩
def TIM_REFOUT_src : Field := ⟨0x0B0, 15, 14, .rw, 0b00, false, false, false⟩
def TIM_REFOUT_idx : Field := ⟨0x0B0, 12, 8, .rw, 0x00, false, false, false⟩
def TIM_REFOUT_div : Field := ⟨0x0B0, 2, 0, .rw, 0b000, false, false, false⟩
def TIM_TS_CFG_line : Field := ⟨0x0B4, 4, 3, .rw, 0b00, false, false, false⟩
def TIM_TS_CFG_sdp_rx_all : Field := ⟨0x0B4, 2, 2, .rw, 0, false, false, false⟩
def TIM_TS_CFG_sdp : Field := ⟨0x0B4, 1, 0, .rw, 0b00, false, false, false⟩
def TIM_TS_entry (w : Nat) : Field := ⟨0x0C0 + 4 * (w % 4), 31, 0, .ro, 0, false, false, true⟩
def TIM_pps_missed0 : Field := ⟨0x0E0, 31, 0, .ro, 0, false, false, false⟩
def TIM_pps_missed1 : Field := ⟨0x0E4, 31, 0, .ro, 0, false, false, false⟩
def TIM_tod_err : Field := ⟨0x0E8, 31, 0, .ro, 0, false, false, false⟩
def TIM_STEPS : Field := ⟨0x0EC, 31, 0, .ro, 0, false, false, false⟩
def TIM_TS_LOST : Field := ⟨0x0F0, 31, 0, .ro, 0, false, false, false⟩
def HST_APT_BASE_base : Field := ⟨0x040, 63, 0, .rw, 0, false, false, false⟩
def HST_APT_CFG_wr_en : Field := ⟨0x048, 1, 1, .rw, 0, false, false, false⟩
def HST_APT_CFG_en : Field := ⟨0x048, 0, 0, .rw, 0, false, false, false⟩
def HST_INT_EN_en (w : Nat) : Field := ⟨0x050 + 4 * w, 31, 0, .rw, 0, false, false, false⟩
def HST_MSIX_HOLDOFF_us : Field := ⟨0x078, 15, 0, .rw, 0, false, false, false⟩
def HST_LINK_drops : Field := ⟨0x07C, 31, 16, .ro, 0, false, false, false⟩
def HST_LINK_width : Field := ⟨0x07C, 11, 8, .ro, 0, false, false, false⟩
def HST_LINK_speed : Field := ⟨0x07C, 7, 4, .ro, 0, false, false, false⟩
def HST_LINK_up : Field := ⟨0x07C, 0, 0, .ro, 0, false, false, false⟩
def HST_DMA_SRC_addr (c : Nat) : Field := ⟨0x100 + 32 * c, 63, 0, .rw, 0, false, false, false⟩
def HST_DMA_DST_addr (c : Nat) : Field := ⟨0x108 + 32 * c, 63, 0, .rw, 0, false, false, false⟩
def BXM_REQ_ARG_arg (i : Nat) : Field := ⟨0x040 + 4 * i, 31, 0, .rw, 0, false, false, false⟩
def BXM_REQ_op : Field := ⟨0x048, 31, 28, .wo, 0, false, false, false⟩
def BXM_REQ_box : Field := ⟨0x048, 8, 0, .wo, 0, false, false, false⟩
def BXM_REQ_STATUS_pending : Field := ⟨0x04C, 31, 31, .ro, 0, false, false, false⟩
def BXM_REQ_STATUS_code : Field := ⟨0x04C, 3, 0, .ro, 0, false, false, false⟩
def BXM_QOS_qos : Field := ⟨0x050, 31, 0, .rv, 0xAA2466C8, false, true, false⟩
def BXM_ERR_CNT (k : Nat) : Field := ⟨0x060 + 4 * (k % 8), 31, 0, .ro, 0, false, false, false⟩
def BXM_LATE (r : Nat) : Field := ⟨0x080 + 4 * (r % 8), 31, 0, .ro, 0, false, false, false⟩
def BXM_HELD : Field := ⟨0x0A0, 31, 0, .ro, 0, false, false, false⟩
def BOX_INFO_box : Field := ⟨0x064, 8, 0, .ro, 0, false, false, false⟩
def BOX_EVT_SUM_src (w : Nat) : Field := ⟨0x068 + 4 * w, 31, 0, .ro, 0, false, false, false⟩
def BOX_MSIX_HOLDOFF_us : Field := ⟨0x090, 15, 0, .rw, 0, false, false, false⟩
def BOX_PX_PAGE_en : Field := ⟨0x0A0, 31, 31, .rw, 0, false, false, false⟩
def BOX_PX_PAGE_tpage : Field := ⟨0x0A0, 15, 0, .rw, 0, false, false, false⟩
def BOX_PX_STATUS_row_owner : Field := ⟨0x0A4, 1, 1, .ro, 0, false, false, false⟩
def BOX_PX_STATUS_denied : Field := ⟨0x0A4, 0, 0, .ro, 0, false, false, false⟩
def BOX_PM_SEC_value : Field := ⟨0x0A8, 63, 0, .rw, 0, false, false, false⟩
def BOX_PM_DST_value : Field := ⟨0x0B0, 63, 0, .rw, 0, false, false, false⟩
def BOX_PM_CTRL_go : Field := ⟨0x0B8, 31, 31, .w1p, 0, false, false, false⟩
def BOX_PM_CTRL_max_rec : Field := ⟨0x0B8, 19, 0, .rw, 0, false, false, false⟩
def BOX_PM_STATUS_state : Field := ⟨0x0BC, 31, 29, .ro, 0, false, false, false⟩
def BOX_PM_STATUS_stale : Field := ⟨0x0BC, 28, 20, .ro, 0, false, false, false⟩
def BOX_PM_STATUS_records : Field := ⟨0x0BC, 19, 0, .ro, 0, false, false, false⟩
def FWM_MB_CTRL_ring : Field := ⟨0x040, 0, 0, .w1p, 0, false, false, false⟩
def FWM_MB_STATUS_busy_refused : Field := ⟨0x044, 31, 16, .ro, 0, false, false, false⟩
def FWM_MB_STATUS_state : Field := ⟨0x044, 1, 0, .ro, 0b00, false, false, false⟩
def FWM_REQ_word (i : Nat) : Field := ⟨0x100 + 4 * i, 31, 0, .rw, 0, false, false, false⟩
def FWM_RSP_word (i : Nat) : Field := ⟨0x200 + 4 * (i % 128), 31, 0, .ro, 0, false, false, false⟩
def FWM_BOOT_sm_reason : Field := ⟨0x050, 31, 24, .ro, 0x00, false, false, false⟩
def FWM_BOOT_en_reason : Field := ⟨0x050, 23, 16, .ro, 0x00, false, false, false⟩
def FWM_BOOT_source : Field := ⟨0x050, 15, 8, .ro, 0x00, false, false, false⟩
def FWM_BOOT_state : Field := ⟨0x050, 7, 0, .ro, 0x00, false, false, false⟩
def FWM_ROLLBACK_en : Field := ⟨0x054, 22, 16, .ro, 0, false, false, false⟩
def FWM_ROLLBACK_sm : Field := ⟨0x054, 14, 8, .ro, 0, false, false, false⟩
def FWM_ROLLBACK_counter : Field := ⟨0x054, 6, 0, .ro, 0, false, false, false⟩
def FWM_PUSH_CTRL_op : Field := ⟨0x058, 31, 28, .wo, 0, false, false, false⟩
def FWM_PUSH_CTRL_kind : Field := ⟨0x058, 27, 26, .wo, 0, false, false, false⟩
def FWM_PUSH_CTRL_length : Field := ⟨0x058, 23, 0, .wo, 0, false, false, false⟩
def FWM_PUSH_DATA_data : Field := ⟨0x05C, 31, 0, .wo, 0, false, false, false⟩
def FWM_PUSH_STATUS_words : Field := ⟨0x060, 31, 16, .ro, 0, false, false, false⟩
def FWM_PUSH_STATUS_reason : Field := ⟨0x060, 15, 8, .ro, 0, false, false, false⟩
def FWM_PUSH_STATUS_state : Field := ⟨0x060, 2, 0, .ro, 0, false, false, false⟩
def FWM_EN_STATUS_held1 : Field := ⟨0x064, 25, 20, .ro, 0, false, false, false⟩
def FWM_EN_STATUS_held0 : Field := ⟨0x064, 19, 14, .ro, 0, false, false, false⟩
def FWM_EN_STATUS_expiries : Field := ⟨0x064, 11, 8, .ro, 0, false, false, false⟩
def FWM_EN_STATUS_slot1 : Field := ⟨0x064, 7, 6, .ro, 0, false, false, false⟩
def FWM_EN_STATUS_slot0 : Field := ⟨0x064, 5, 4, .ro, 0, false, false, false⟩
def FWM_EN_STATUS_run1 : Field := ⟨0x064, 3, 2, .ro, 0, false, false, false⟩
def FWM_EN_STATUS_run0 : Field := ⟨0x064, 1, 0, .ro, 0, false, false, false⟩
def FWM_WDOG_CFG_en (i : Nat) : Field := ⟨0x068 + 4 * i, 31, 31, .rw, 1, false, true, false⟩
def FWM_WDOG_CFG_ms (i : Nat) : Field := ⟨0x068 + 4 * i, 15, 0, .rw, 0x0064, false, true, false⟩
def FWM_WDOG_KICK_kick : Field := ⟨0x070, 0, 0, .w1p, 0, false, false, false⟩
def FLT_STATUS_isolated : Field := ⟨0x040, 23, 16, .ro, 0, false, false, false⟩
def FLT_STATUS_l3_regions : Field := ⟨0x040, 15, 8, .ro, 0, false, false, false⟩
def FLT_STATUS_safe : Field := ⟨0x040, 5, 5, .ro, 0, false, false, false⟩
def FLT_STATUS_fault_n : Field := ⟨0x040, 4, 4, .ro, 0, false, false, false⟩
def FLT_STATUS_max_level : Field := ⟨0x040, 2, 0, .ro, 0, false, false, false⟩
def FLT_ACK_all : Field := ⟨0x044, 31, 31, .wo, 0, false, false, false⟩
def FLT_ACK_scope : Field := ⟨0x044, 11, 8, .wo, 0, false, false, false⟩
def FLT_ACK_class : Field := ⟨0x044, 4, 0, .wo, 0, false, false, false⟩
def FLT_INJECT_SRC_source : Field := ⟨0x048, 31, 0, .rw, 0, false, false, false⟩
def FLT_INJECT_level : Field := ⟨0x04C, 7, 5, .wo, 0, false, false, false⟩
def FLT_INJECT_class : Field := ⟨0x04C, 4, 0, .wo, 0, false, false, false⟩
def FLT_INJECT_STATUS_refused : Field := ⟨0x050, 0, 0, .ro, 0, false, false, false⟩
def LOG_HEAD_seq : Field := ⟨0x040, 31, 0, .ro, 0, false, false, false⟩
def LOG_CFG_mirror_en : Field := ⟨0x044, 0, 0, .rw, 0, false, false, false⟩
def LOG_MIRROR_BASE_base : Field := ⟨0x048, 63, 0, .rw, 0x0000002100000000, false, false, false⟩
def LOG_MIRROR_HEAD_seq : Field := ⟨0x050, 31, 0, .ro, 0, false, false, false⟩
def LOG_STATUS_mirror_active : Field := ⟨0x054, 28, 28, .ro, 0, false, false, false⟩
def LOG_STATUS_ghost_only : Field := ⟨0x054, 27, 27, .ro, 0, false, false, false⟩
def LOG_STATUS_bank1_failed : Field := ⟨0x054, 26, 26, .ro, 0, false, false, false⟩
def LOG_STATUS_bank0_failed : Field := ⟨0x054, 25, 25, .ro, 0, false, false, false⟩
def LOG_STATUS_coalescing : Field := ⟨0x054, 24, 24, .ro, 0, false, false, false⟩
def LOG_STATUS_keys : Field := ⟨0x054, 22, 16, .ro, 0, false, false, false⟩
def LOG_STATUS_queue : Field := ⟨0x054, 8, 0, .ro, 0, false, false, false⟩
def LOG_COALESCED : Field := ⟨0x058, 31, 0, .ro, 0, false, false, false⟩
def LOG_SKIPPED : Field := ⟨0x05C, 31, 0, .ro, 0, false, false, false⟩
def LOG_MIRROR_DROP : Field := ⟨0x060, 31, 0, .ro, 0, false, false, false⟩
/-- The ghost light is held three times and voted (file 15, R530); the device alone writes it. -/
def LOG_GHOST_UNREC : Field := ⟨0x070, 31, 0, .rv, 0, true, false, false⟩
def LOG_GHOST_INFO_cause : Field := ⟨0x074, 5, 4, .rv, 0, true, false, false⟩
def LOG_GHOST_INFO_valid : Field := ⟨0x074, 2, 0, .rv, 0, true, false, false⟩
def LOG_CMD_ghost_clear : Field := ⟨0x078, 0, 0, .w1p, 0, false, false, false⟩
def PLB_DST_addr : Field := ⟨0x040, 63, 0, .rw, 0, false, false, false⟩
def PLB_CTRL_go : Field := ⟨0x048, 0, 0, .w1p, 0, false, false, false⟩
def PLB_STATUS_refused : Field := ⟨0x04C, 31, 16, .ro, 0, false, false, false⟩
def PLB_STATUS_state : Field := ⟨0x04C, 2, 0, .ro, 0, false, false, false⟩
def PLB_SEQ_value : Field := ⟨0x050, 31, 0, .ro, 0, false, false, false⟩
def PLB_LEN_value : Field := ⟨0x054, 31, 0, .ro, 0xBB80, false, false, false⟩
def PLB_CRC_value : Field := ⟨0x058, 31, 0, .ro, 0, false, false, false⟩
def MODE_model : Field := ⟨0x040, 8, 8, .rv, 0, false, false, false⟩
def MODE_service : Field := ⟨0x040, 7, 4, .rv, 0x0, false, false, false⟩
def MODE_current : Field := ⟨0x040, 3, 0, .rv, 0x1, false, false, false⟩
def MODE_CMD_op : Field := ⟨0x048, 31, 28, .wo, 0x0, false, false, false⟩
def MODE_CMD_arg : Field := ⟨0x048, 7, 0, .wo, 0x00, false, false, false⟩
def MODE_CMD_STATUS_op : Field := ⟨0x04C, 11, 8, .ro, 0x0, false, false, true⟩
def MODE_CMD_STATUS_code : Field := ⟨0x04C, 2, 0, .ro, 0b000, false, false, true⟩
def MODE_CALL_reason : Field := ⟨0x050, 11, 8, .ro, 0x0, false, false, false⟩
def MODE_CALL_step : Field := ⟨0x050, 3, 0, .ro, 0x1, false, false, false⟩
def MODE_STACKS_train_fail : Field := ⟨0x054, 13, 8, .ro, 0, false, false, false⟩
def MODE_STACKS_retrained : Field := ⟨0x054, 5, 0, .ro, 0, false, false, false⟩
def MODE_AUDIT_CTRL_test : Field := ⟨0x058, 31, 28, .wo, 0x0, false, false, false⟩
def MODE_AUDIT_CTRL_target : Field := ⟨0x058, 7, 0, .wo, 0x00, false, false, false⟩
def MODE_AUDIT_STATUS_state : Field := ⟨0x05C, 31, 29, .ro, 0b000, false, false, false⟩
def MODE_AUDIT_STATUS_test : Field := ⟨0x05C, 27, 24, .ro, 0x0, false, false, false⟩
def MODE_AUDIT_STATUS_target : Field := ⟨0x05C, 7, 0, .ro, 0x00, false, false, false⟩
def MODE_AUDIT_ADDR_addr : Field := ⟨0x060, 63, 0, .ro, 0, false, false, false⟩
def CHIP_ID_STRAP_strap : Field := ⟨0x0B0, 7, 0, .ro, 0, false, false, false⟩
def CHIP_ID_AVS_ready : Field := ⟨0x0B4, 31, 31, .ro, 0, false, false, false⟩
def CHIP_ID_AVS_met : Field := ⟨0x0B4, 30, 30, .ro, 0, false, false, false⟩
def CHIP_ID_AVS_code : Field := ⟨0x0B4, 4, 0, .ro, 0, false, false, false⟩
def CHIP_ID_VMON_core_valid : Field := ⟨0x0B8, 31, 31, .ro, 0, false, false, false⟩
def CHIP_ID_VMON_under : Field := ⟨0x0B8, 9, 0, .ro, 0, false, false, false⟩
def CHIP_ID_TEMP_valid (i : Nat) : Field := ⟨0x100 + 4 * (i % 22), 31, 31, .ro, 0, false, false, false⟩
def CHIP_ID_TEMP_temp (i : Nat) : Field := ⟨0x100 + 4 * (i % 22), 15, 0, .ro, 0, false, false, false⟩
def OTU_FAS_ERR : Field := ⟨0x058, 31, 0, .ro, 0, false, false, false⟩
def OTU_OOF_CNT : Field := ⟨0x05C, 31, 0, .ro, 0, false, false, false⟩
def OTU_MFAS_ERR : Field := ⟨0x060, 31, 0, .ro, 0, false, false, false⟩
def OTU_BEI_CLIP : Field := ⟨0x064, 31, 0, .ro, 0, false, false, false⟩
def OTU_BIP_BITS : Field := ⟨0x070, 63, 0, .ro, 0, false, false, false⟩
def OTU_BIP_BLK : Field := ⟨0x078, 63, 0, .ro, 0, false, false, false⟩
def OTU_BEI_BITS : Field := ⟨0x080, 63, 0, .ro, 0, false, false, false⟩
def OTU_BEI_BLK : Field := ⟨0x088, 63, 0, .ro, 0, false, false, false⟩
def BOX_NOTE : Field := ⟨0x094, 63, 0, .ro, 0, false, false, false⟩
def BOX_NOTE_LOST : Field := ⟨0x09C, 31, 0, .ro, 0, false, false, false⟩
def TIM_NOW (w : Nat) : Field := ⟨0x064 + 4 * w, 31, 0, .ro, 0, false, false, true⟩
def HST_DMA_LEN_len (c : Nat) : Field := ⟨0x110 + 32 * c, 25, 0, .rw, 0, false, false, false⟩
def HST_DMA_CTRL_go (c : Nat) : Field := ⟨0x114 + 32 * c, 0, 0, .w1p, 0, false, false, false⟩
def HST_DMA_STATUS_state (c : Nat) : Field := ⟨0x118 + 32 * (c % 4), 31, 29, .ro, 0, false, false, false⟩
def HST_DMA_STATUS_done (c : Nat) : Field := ⟨0x118 + 32 * (c % 4), 25, 0, .ro, 0, false, false, false⟩
def FLT_WORDS : Field := ⟨0x058, 63, 0, .ro, 0, false, false, false⟩
def FLT_RETRY : Field := ⟨0x060, 31, 0, .ro, 0, false, false, false⟩
def FLT_MASKED : Field := ⟨0x064, 31, 0, .ro, 0, false, false, false⟩
def MODE_LIFE_POWERED : Field := ⟨0x070, 31, 0, .ro, 0, true, false, false⟩
def MODE_LIFE_STRESS : Field := ⟨0x074, 31, 0, .ro, 0, true, false, false⟩
def MODE_LIFE_HOT : Field := ⟨0x078, 31, 0, .ro, 0, true, false, false⟩
def MODE_LIFE_TMAX : Field := ⟨0x07C, 7, 0, .ro, 0, true, false, false⟩
def MODE_REGIONS_state (r : Nat) : Field := ⟨0x044, 4*(r % 8)+2, 4*(r % 8), .ro, 2, false, false, false⟩
def BOX_WIN_en (w : Nat) : Field := ⟨0x0C0 + 8 * (w % 16), 31, 31, .rv, 0, false, true, false⟩
def BOX_WIN_count_m1 (w : Nat) : Field := ⟨0x0C0 + 8 * (w % 16), 23, 16, .rv, 0, false, true, false⟩
def BOX_WIN_slot (w : Nat) : Field := ⟨0x0C0 + 8 * (w % 16), 7, 0, .rv, 0, false, true, false⟩
def BOX_WIN_tpage (w : Nat) : Field := ⟨0x0C4 + 8 * (w % 16), 15, 0, .rv, 0, false, true, false⟩
def CHIP_ID_THERM_DIE_safe : Field := ⟨0x0C0, 23, 16, .rw, 0x76, false, true, false⟩
def CHIP_ID_THERM_HBM_safe : Field := ⟨0x0C4, 23, 16, .rw, 0x64, false, true, false⟩
def CHIP_ID_THERM_DIE_crit : Field := ⟨0x0C0, 15, 8, .rw, 0x6E, false, true, false⟩
def CHIP_ID_THERM_HBM_crit : Field := ⟨0x0C4, 15, 8, .rw, 0x5F, false, true, false⟩
def CHIP_ID_THERM_DIE_warn : Field := ⟨0x0C0, 7, 0, .rw, 0x64, false, true, false⟩
def CHIP_ID_THERM_HBM_warn : Field := ⟨0x0C4, 7, 0, .rw, 0x58, false, true, false⟩
def PAGE_ID_word : Field := ⟨0x000, 31, 0, .ro, 0, false, false, false⟩
def PAGE_CAPS_word : Field := ⟨0x004, 31, 0, .ro, 0, false, false, false⟩

/-- The fields of the page header that hold plain values (Table REG-5). The event, vote and indirect registers have their own operations. -/
def headerFields : List Field := [PAGE_CTRL_force_safe, PAGE_CTRL_run, PAGE_OWNER_box, EVT_MASK_mask]

/-- The fields of a page beyond its header, by page type; `inst` is the instance number within the type. -/
def typeFields (t : PageType) (inst : Nat) : List Field :=
  match t with
  | .chipId => [CHIP_ID_PART_vendor, CHIP_ID_PART_part, CHIP_ID_REV_letter, CHIP_ID_REV_digit, CHIP_ID_SERIAL_serial, CHIP_ID_STRAP_strap, CHIP_ID_AVS_ready, CHIP_ID_AVS_met]
    ++ [CHIP_ID_AVS_code, CHIP_ID_VMON_core_valid, CHIP_ID_VMON_under, CHIP_ID_THERM_DIE_safe, CHIP_ID_THERM_HBM_safe, CHIP_ID_THERM_DIE_crit, CHIP_ID_THERM_HBM_crit, CHIP_ID_THERM_DIE_warn]
    ++ [CHIP_ID_THERM_HBM_warn]
    ++ (List.range 10).flatMap (fun k => [CHIP_ID_EVT_SUM_src k])
    ++ (List.range 22).flatMap (fun k => [CHIP_ID_TEMP_valid k, CHIP_ID_TEMP_temp k])
  | .mode => [ MODE_model, MODE_service, MODE_current, MODE_CMD_op, MODE_CMD_arg, MODE_CMD_STATUS_op, MODE_CMD_STATUS_code, MODE_CALL_reason]
    ++ [ MODE_CALL_step, MODE_STACKS_train_fail, MODE_STACKS_retrained, MODE_AUDIT_CTRL_test, MODE_AUDIT_CTRL_target, MODE_AUDIT_STATUS_state, MODE_AUDIT_STATUS_test, MODE_AUDIT_STATUS_target]
    ++ [ MODE_AUDIT_ADDR_addr, MODE_LIFE_POWERED, MODE_LIFE_STRESS, MODE_LIFE_HOT, MODE_LIFE_TMAX]
    ++ (List.range 8).flatMap (fun k => [ MODE_REGIONS_state k])
  | .flt => [FLT_STATUS_isolated, FLT_STATUS_l3_regions, FLT_STATUS_safe, FLT_STATUS_fault_n, FLT_STATUS_max_level, FLT_ACK_all, FLT_ACK_scope, FLT_ACK_class]
    ++ [FLT_INJECT_SRC_source, FLT_INJECT_level, FLT_INJECT_class, FLT_INJECT_STATUS_refused, FLT_WORDS, FLT_RETRY, FLT_MASKED]
  | .log => [LOG_HEAD_seq, LOG_CFG_mirror_en, LOG_MIRROR_BASE_base, LOG_MIRROR_HEAD_seq, LOG_STATUS_mirror_active, LOG_STATUS_ghost_only, LOG_STATUS_bank1_failed, LOG_STATUS_bank0_failed]
    ++ [LOG_STATUS_coalescing, LOG_STATUS_keys, LOG_STATUS_queue, LOG_COALESCED, LOG_SKIPPED, LOG_MIRROR_DROP, LOG_GHOST_UNREC, LOG_GHOST_INFO_cause]
    ++ [LOG_GHOST_INFO_valid, LOG_CMD_ghost_clear]
  | .tim => [TIM_CFG_step_allowed, TIM_CFG_bw, TIM_CFG_holdover_h, TIM_CFG_pps_win, TIM_CFG_pps_sel, TIM_STEP_thresh, TIM_LOCK_slew_ppm, TIM_LOCK_lock_ns]
    ++ [TIM_STATUS_set_refused, TIM_STATUS_time_set, TIM_STATUS_freq_limit, TIM_STATUS_slewing, TIM_STATUS_tod_ok, TIM_STATUS_active, TIM_STATUS_pps1_ok, TIM_STATUS_pps0_ok]
    ++ [TIM_STATUS_quality, TIM_OFFSET_value, TIM_FREQ_value, TIM_FREQ_AVG_value, TIM_SET_SEC_sec, TIM_CMD_set_sec, TIM_TOD_OUT_en, TIM_TOD_OUT_class]
    ++ [TIM_REFOUT_en, TIM_REFOUT_fmt, TIM_REFOUT_swing, TIM_REFOUT_src, TIM_REFOUT_idx, TIM_REFOUT_div, TIM_TS_CFG_line, TIM_TS_CFG_sdp_rx_all]
    ++ [TIM_TS_CFG_sdp, TIM_pps_missed0, TIM_pps_missed1, TIM_tod_err, TIM_STEPS, TIM_TS_LOST]
    ++ (List.range 2).flatMap (fun k => [TIM_PPS_DELAY_delay k, TIM_PPS_OUT_en k, TIM_PPS_OUT_squelch_free k, TIM_PPS_OUT_width k])
    ++ (List.range 8).flatMap (fun k => [TIM_RCLK_en k, TIM_RCLK_squelch k, TIM_RCLK_fmt k, TIM_RCLK_swing k, TIM_RCLK_div k, TIM_RCLK_lane k])
    ++ (List.range 4).flatMap (fun k => [TIM_TS_entry k])
    ++ (List.range 3).flatMap (fun k => [TIM_NOW k])
  | .csu => [CSU_CFG_edge_pct, CSU_CFG_fw_ssc, CSU_CFG_ssc, CSU_CFG_ref_type, CSU_STATUS_margin, CSU_STATUS_band, CSU_STATUS_reband_busy, CSU_STATUS_band_edge]
    ++ [CSU_STATUS_no_band, CSU_STATUS_gated, CSU_STATUS_ref_ok, CSU_STATUS_locked, CSU_CMD_reband, CSU_CMD_STATUS_code, CSU_REF_PPM_ppm, CSU_lock_lost_count]
    ++ [CSU_ref_lost_count, CSU_band_edge_cnt_count]
  | .hst => [HST_APT_BASE_base, HST_APT_CFG_wr_en, HST_APT_CFG_en, HST_MSIX_HOLDOFF_us, HST_LINK_drops, HST_LINK_width, HST_LINK_speed, HST_LINK_up]
    ++ (List.range 10).flatMap (fun k => [HST_INT_EN_en k])
    ++ (List.range 4).flatMap (fun k => [HST_DMA_SRC_addr k, HST_DMA_DST_addr k, HST_DMA_LEN_len k, HST_DMA_CTRL_go k, HST_DMA_STATUS_state k, HST_DMA_STATUS_done k])
  | .bxm => [BXM_REQ_op, BXM_REQ_box, BXM_REQ_STATUS_pending, BXM_REQ_STATUS_code, BXM_QOS_qos, BXM_HELD]
    ++ (List.range 2).flatMap (fun k => [BXM_REQ_ARG_arg k])
    ++ (List.range 8).flatMap (fun k => [BXM_ERR_CNT k])
    ++ (List.range 8).flatMap (fun k => [BXM_LATE k])
  | .sdp => [SDP_CFG_max_len, SDP_CFG_pfc_en, SDP_CFG_pause_en, SDP_CFG_promisc, SDP_CFG_mc_en, SDP_CFG_speed, SDP_STATUS_wd_ignore, SDP_STATUS_paused]
    ++ [SDP_STATUS_cfg_err, SDP_STATUS_remote_fault, SDP_STATUS_local_fault, SDP_STATUS_link, SDP_MAC_addr, SDP_SVC_svc_en, SDP_SVC_ethertype, SDP_PAUSE_WD_ignore_ms]
    ++ [SDP_PAUSE_WD_wd_ms, SDP_TX_CMD_op, SDP_TX_CMD_q, SDP_TX_CMD_len, SDP_TX_DATA_data, SDP_RX_SEL_q, SDP_RX_DESC_nv, SDP_RX_DESC_trunc]
    ++ [SDP_RX_DESC_ts_valid, SDP_RX_DESC_len, SDP_RX_DATA_data, SDP_TX_STATUS_code, SDP_RX_TS_quality, SDP_RX_TS_ns, SDP_RX_TS_sec, SDP_STAT_HALF_half]
    ++ [SDP_WAKE_STATUS_dark_rx, SDP_WAKE_STATUS_matched]
    ++ (List.range 8).flatMap (fun k => [SDP_TXQ_CFG_age k, SDP_TXQ_CFG_size k, SDP_TXQ_CFG_base k])
    ++ (List.range 8).flatMap (fun k => [SDP_WAKE_CFG_en k, SDP_WAKE_CFG_crc k])
  | .cbb => [CBB_CFG_master_to, CBB_CFG_token_en, CBB_CFG_wake_en, CBB_CFG_cc_en, CBB_CFG_mate, CBB_CFG_addr, CBB_CC_CFG_guard, CBB_CC_CFG_period]
    ++ [CBB_CC_STATUS_offset, CBB_CC_STATUS_misses, CBB_CC_STATUS_leader, CBB_CC_STATUS_state, CBB_TX_CMD_op, CBB_TX_CMD_typ, CBB_TX_CMD_dst, CBB_TX_CMD_len]
    ++ [CBB_TX_DATA_data, CBB_TX_STATUS_code, CBB_RX_DESC_nv, CBB_RX_DESC_src, CBB_RX_DESC_typ, CBB_RX_DESC_len, CBB_RX_DATA_data, CBB_WAKE_CAUSE_filter]
    ++ [CBB_WAKE_CAUSE_partner_lost, CBB_WAKE_CAUSE_cbb_wake, CBB_WAKE_CAUSE_filter_match, CBB_WAKE_CAUSE_wake_out, CBB_WAKE_ACK_ack, CBB_BUS_token_held, CBB_BUS_state, CBB_rx_frames]
    ++ [CBB_rx_bad, CBB_rx_lost, CBB_tx_frames, CBB_tx_dropped, CBB_collisions, CBB_beacons_tx, CBB_beacons_rx, CBB_misses]
    ++ [CBB_open_house, CBB_lost, CBB_token_regen]
  | .chk => [CHK_CFG_lock, CHK_CFG_exp_en, CHK_CFG_refout, CHK_CFG_refin, CHK_CFG_width, CHK_POLY_value, CHK_INIT_value, CHK_XOR_value]
    ++ [CHK_EXPECT_value, CHK_ALIVE_CFG_mode, CHK_ALIVE_CFG_aw, CHK_ALIVE_CFG_aw_pos, CHK_FEED_CFG_order, CHK_FEED_CFG_bits, CHK_CTRL_abort, CHK_CTRL_finish]
    ++ [CHK_CTRL_start, CHK_DATA_data, CHK_RESULT_res, CHK_STATUS_holder, CHK_STATUS_open, CHK_STATUS_match, CHK_STATUS_compared, CHK_STATUS_alive_valid]
    ++ [CHK_STATUS_alive, CHK_ALIVE_NEXT_next, CHK_RUNS, CHK_MISMATCH, CHK_REPEAT, CHK_GAP_MSGS, CHK_REFUSED]
  | .prt => [PRT_CUE_GEN_gen, PRT_APS_CFG_chk_unit, PRT_CMD_ARG_bridge, PRT_CMD_ARG_sel, PRT_CMD_ARG_aps, PRT_CMD_op, PRT_CMD_grp, PRT_CMD_STATUS_pending]
    ++ [PRT_CMD_STATUS_code, PRT_NOTE_quality, PRT_NOTE_ns, PRT_NOTE_valid, PRT_NOTE_data, PRT_NOTE_kind, PRT_NOTE_grp, PRT_NOTE_LOST_lost]
  | .plb => [PLB_DST_addr, PLB_CTRL_go, PLB_STATUS_refused, PLB_STATUS_state, PLB_SEQ_value, PLB_LEN_value, PLB_CRC_value]
  | .box => [BOX_CUE_SCOPE_blocks, BOX_CUE_SCOPE_EXT_wng, BOX_CUE_SCOPE_EXT_prt, BOX_CUE_SCOPE_EXT_region, BOX_CUE_CTRL_check_en, BOX_CUE_CTRL_dry_run, BOX_CUE_CTRL_immediate, BOX_CUE_CTRL_revert]
    ++ [BOX_CUE_CTRL_go, BOX_CUE_EXPECT_value, BOX_CUE_STATUS_state, BOX_CUE_STATUS_code, BOX_CUE_WHERE_typ, BOX_CUE_WHERE_region, BOX_CUE_WHERE_block, BOX_CUE_WHERE_instance]
    ++ [BOX_CUE_INDEX_table, BOX_CUE_INDEX_index, BOX_CUE_GEN_gen, BOX_INFO_box, BOX_MSIX_HOLDOFF_us, BOX_PX_PAGE_en, BOX_PX_PAGE_tpage, BOX_PX_STATUS_row_owner]
    ++ [BOX_PX_STATUS_denied, BOX_PM_SEC_value, BOX_PM_DST_value, BOX_PM_CTRL_go, BOX_PM_CTRL_max_rec, BOX_PM_STATUS_state, BOX_PM_STATUS_stale, BOX_PM_STATUS_records]
    ++ [BOX_NOTE, BOX_NOTE_LOST]
    ++ (List.range 10).flatMap (fun k => [BOX_EVT_SUM_src k])
    ++ (List.range 16).flatMap (fun k => [BOX_WIN_en k, BOX_WIN_count_m1 k, BOX_WIN_slot k, BOX_WIN_tpage k])
  | .fwm => [FWM_MB_CTRL_ring, FWM_MB_STATUS_busy_refused, FWM_MB_STATUS_state, FWM_BOOT_sm_reason, FWM_BOOT_en_reason, FWM_BOOT_source, FWM_BOOT_state, FWM_ROLLBACK_en]
    ++ [FWM_ROLLBACK_sm, FWM_ROLLBACK_counter, FWM_PUSH_CTRL_op, FWM_PUSH_CTRL_kind, FWM_PUSH_CTRL_length, FWM_PUSH_DATA_data, FWM_PUSH_STATUS_words, FWM_PUSH_STATUS_reason]
    ++ [FWM_PUSH_STATUS_state, FWM_EN_STATUS_held1, FWM_EN_STATUS_held0, FWM_EN_STATUS_expiries, FWM_EN_STATUS_slot1, FWM_EN_STATUS_slot0, FWM_EN_STATUS_run1, FWM_EN_STATUS_run0]
    ++ [FWM_WDOG_KICK_kick]
    ++ (List.range 64).flatMap (fun k => [FWM_REQ_word k])
    ++ (List.range 128).flatMap (fun k => [FWM_RSP_word k])
    ++ (List.range 2).flatMap (fun k => [FWM_WDOG_CFG_en k, FWM_WDOG_CFG_ms k])
  | .rgn => [RGN_CUE_GEN_COM_gen, RGN_POOL_egress, RGN_POOL_ingress, RGN_SUSPECT_hold]
    ++ (List.range 8).flatMap (fun k => [RGN_CUE_GEN_gen k])
  | .fyt => [FYT_STATUS_no_cover, FYT_STATUS_covering, FYT_STATUS_active, FYT_STATUS_working, FYT_DROP_dropped]
  | .fyr => [FYR_CFG_absent_us, FYR_CFG_reorder_to, FYR_UNKNOWN_count, FYR_LAST_UNKNOWN_link, FYR_LAST_UNKNOWN_flow]
  | .fyl => [FYL_STATUS_test_refused, FYL_STATUS_fir_refused, FYL_STATUS_credits_valid, FYL_STATUS_sig_det, FYL_STATUS_lane_lock, FYL_STATUS_id_mismatch, FYL_STATUS_peer_lstate, FYL_STATUS_peer_fail]
    ++ [FYL_STATUS_failed, FYL_STATUS_covered, FYL_STATUS_sync, FYL_STATUS_aligned, FYL_CTRL_fail, FYL_CTRL_restore, FYL_SKEW_valid, FYL_SKEW_skew]
    ++ [FYL_CREDIT_avail1, FYL_CREDIT_avail0, FYL_PEER_LIMIT_limit1, FYL_PEER_LIMIT_limit0, FYL_TEST_inject, FYL_TEST_lanes, FYL_TEST_lb, FYL_TEST_chk_en]
    ++ [FYL_TEST_gen_en, FYL_TEST_pattern, FYL_CW, FYL_CORR_SYM, FYL_UNCORR_CW, FYL_HDR_CRC, FYL_HUNT, FYL_RX_SEG]
    ++ [FYL_TX_SEG, FYL_TYPE_ERR]
    ++ (List.range 8).flatMap (fun k => [FYL_TX_EQ_tx_inv k, FYL_TX_EQ_swing k, FYL_TX_EQ_c_p1 k, FYL_TX_EQ_c_m1 k, FYL_PRBS_ERR k])
  | .sel => [SEL_USED_bridges, SEL_USED_groups]
  | .ohq => [OHQ_SEL_dir, OHQ_SEL_ch, OHQ_RD_word, OHQ_WR_word, OHQ_CMD_dir, OHQ_CMD_op, OHQ_CMD_ch, OHQ_CMD_STATUS_code]
    ++ [OHQ_MEM_units, OHQ_LOST, OHQ_MISROUTE]
    ++ (List.range 16).flatMap (fun k => [OHQ_READY_ready k])
  | .epi => [EPI_STATUS_aggregated, EPI_STATUS_tracked, EPI_OCC_occupancy, EPI_AGG_ENTRIES_count, EPI_NEXT_ID_id]
  | .isl => [ISL_USED_groups]
  | .lln => [LLN_TX_EN_tx_en, LLN_POLSWAP_tx_phys inst, LLN_POLSWAP_rx_phys inst, LLN_POLSWAP_tx_inv, LLN_POLSWAP_rx_inv, LLN_TX_FIR0_c_m1, LLN_TX_FIR0_c_m2, LLN_TX_FIR0_c_m3]
    ++ [LLN_TX_FIR1_swing, LLN_TX_FIR1_c_p2, LLN_TX_FIR1_c_p1, LLN_LB_near_drive, LLN_LB_mode, LLN_PRBS_CFG_inject, LLN_PRBS_CFG_chk_en, LLN_PRBS_CFG_gen_en]
    ++ [LLN_PRBS_CFG_pattern, LLN_PRBS_ERR_errors, LLN_ADAPT_CFG_kinds, LLN_ADAPT_CFG_interval, LLN_ADAPT_CFG_ceiling, LLN_ADAPT_CFG_floor, LLN_ADAPT_CFG_freeze, LLN_ADAPT_CFG_trial_en]
    ++ [LLN_ADAPT_STATUS_kind, LLN_ADAPT_STATUS_waiting, LLN_ADAPT_STATUS_trial_active, LLN_ADAPT_STATUS_margin, LLN_RX_EQ_mlse, LLN_RX_EQ_phase, LLN_RX_EQ_dfe, LLN_RX_EQ_ctle]
    ++ [LLN_STATUS_fir_refused, LLN_STATUS_test_refused, LLN_STATUS_lb_active, LLN_STATUS_prbs_lock, LLN_STATUS_swap_conflict, LLN_STATUS_trained, LLN_STATUS_cw_lock, LLN_STATUS_cdr_lock]
    ++ [LLN_STATUS_sig_det, LLN_SKEW_valid, LLN_SKEW_lag]
    ++ (List.range 5).flatMap (fun k => [LLN_TRIAL_CNT_count k])
  | .fec => [FEC_BURST_CFG_trigger_en, FEC_BURST_CFG_window, FEC_BURST_CFG_count, FEC_SNAP_snap, FEC_SNAP_SEQ_seq, FEC_CW, FEC_CORR_SYM, FEC_CORR_CW]
    ++ [FEC_UNCORR_CW, FEC_TRIAL_SYM, FEC_TRIAL_UNCORR, FEC_BURSTS]
    ++ (List.range 16).flatMap (fun k => [FEC_HIST k])
  | .otu => [OTU_SM_CFG_tim_act_dis, OTU_SM_CFG_tim_mode, OTU_DEG_CFG_degm, OTU_DEG_CFG_degthr, OTU_TX_FORCE_fas, OTU_TX_FORCE_corrupt_fas, OTU_TX_FORCE_inv_bip, OTU_TX_FORCE_force_iae]
    ++ [OTU_TX_FORCE_force_bdi, OTU_STATUS_position, OTU_STATUS_member, OTU_STATUS_bonded, OTU_STATUS_ssd, OTU_STATUS_ssf, OTU_STATUS_dlom_cn, OTU_STATUS_dbiae]
    ++ [OTU_STATUS_diae, OTU_STATUS_dbdi, OTU_STATUS_ddeg, OTU_STATUS_dtim, OTU_STATUS_dlom, OTU_STATUS_dlof, OTU_STATUS_drpf, OTU_STATUS_dpmm]
    ++ [OTU_STATUS_dgidm, OTU_STATUS_flexo_lock, OTU_STATUS_fstate, OTU_STATUS_im, OTU_STATUS_in_frame, OTU_LOF_INT_dp_cycles, OTU_GCC0_CFG_ins_en, OTU_GCC0_CFG_cap_en]
    ++ [OTU_GCC0_CFG_ins_ch, OTU_GCC0_CFG_cap_ch, OTU_FAS_ERR, OTU_OOF_CNT, OTU_MFAS_ERR, OTU_BEI_CLIP, OTU_BIP_BITS, OTU_BIP_BLK]
    ++ [OTU_BEI_BITS, OTU_BEI_BLK]
  | .odi => [ODI_POOL_parents, ODI_POOL_used]
  | .ode => [ODE_POOL_parents, ODE_POOL_used]
  | .mpt => [MPT_SHP_USED_used]
  | .dmp => [DMP_USED_used]
  | .map => [MAP_USED_used]
  | .eth => [ETH_STATUS_leg, ETH_STATUS_gen_hold, ETH_STATUS_tx_lf, ETH_STATUS_replacing, ETH_STATUS_crate, ETH_STATUS_crf, ETH_STATUS_clf, ETH_STATUS_clos]
    ++ [ETH_STATUS_aligned, ETH_OFFSET_offset, ETH_ERR_BLOCKS, ETH_IDLE_INS, ETH_IDLE_DEL, ETH_PKT_DROP, ETH_REPL, ETH_LOST_UNITS]
  | .wng => [WNG_CUE_GEN_gen, WNG_PMS_BASE_base, WNG_PMS_CFG_depth_m1, WNG_PMS_CFG_en, WNG_PMS_LAST_sec, WNG_PMS_STATUS_overrun, WNG_CFG_exp_clear, WNG_CFG_band]
    ++ [WNG_CFG_slew_ppm, WNG_STATUS_queued, WNG_STATUS_slots, WNG_TRACK_peak, WNG_TRACK_now, WNG_TRACK_HELD_held, WNG_CMD_ack_fail, WNG_CMD_grp]
  | .hbm => [HBM_STATUS_groups, HBM_STATUS_retrain_pc, HBM_STATUS_state, HBM_CTRL_restore, HBM_LOAD_mib, HBM_LOAD_gbps, HBM_CE, HBM_UE]
    ++ [HBM_RETRAIN_LATE, HBM_WBUF_DROP]

/-- An indirect table of a page (R66 to R70): its code, rows per entry, entries, whether staged, read only, held three
times and voted, in the AON domain. `resets` lists the entries' values at reset, one value for every entry, or entry by
entry when `byEntry` holds (an unlisted entry is 0). An entry is held as one number: bit k of row j is bit 128j + k. -/
structure Tab where
  code : Nat
  rows : Nat
  entries : Nat
  staged : Bool
  ro : Bool
  resets : List Nat := []
  voted : Bool := false
  aon : Bool := false
  byEntry : Bool := false
  deriving DecidableEq, Repr

/-- A field of a table entry: bits [hi:lo] of the entry. -/
structure TField where
  hi : Nat
  lo : Nat
  deriving DecidableEq, Repr

/-- The value of entry `e` of a table at reset. -/
def Tab.resetEntry (t : Tab) (e : Nat) : Nat :=
  if t.byEntry then t.resets.getD e 0 else t.resets.getD 0 0

def T_LANE_CFG : Tab := ⟨0x01, 1, 1, true, false, [], false, false, false⟩
def LANE_CFG.typ : TField := ⟨0, 0⟩
def LANE_CFG.rate : TField := ⟨2, 1⟩
def T_OTU_IF : Tab := ⟨0x01, 1, 1, true, false, [0x100000135235200], false, false, false⟩
def OTU_IF.member : TField := ⟨0, 0⟩
def OTU_IF.n_m1 : TField := ⟨4, 1⟩
def OTU_IF.lane0 : TField := ⟨6, 5⟩
def OTU_IF.n_fas : TField := ⟨11, 8⟩
def OTU_IF.m_fas : TField := ⟨15, 12⟩
def OTU_IF.lof_ms : TField := ⟨18, 16⟩
def OTU_IF.n_mf : TField := ⟨23, 20⟩
def OTU_IF.m_mf : TField := ⟨27, 24⟩
def OTU_IF.lom_ms : TField := ⟨30, 28⟩
def OTU_IF.fas_bytes : TField := ⟨33, 32⟩
def OTU_IF.tti_all : TField := ⟨34, 34⟩
def OTU_IF.gcc0_concat : TField := ⟨35, 35⟩
def OTU_IF.gid : TField := ⟨55, 36⟩
def OTU_IF.gid_chk : TField := ⟨56, 56⟩
def T_OTU_TTI_EXP : Tab := ⟨0x02, 4, 1, true, false, [], false, false, false⟩
def T_OTU_TTI_TX : Tab := ⟨0x03, 4, 1, true, false, [], false, false, false⟩
def T_OTU_TTI_ACC : Tab := ⟨0x04, 4, 1, false, true, [], false, false, false⟩
def T_CTX : Tab := ⟨0x01, 2, 1024, true, false, [0x7000000000000000000000000000000], false, false, false⟩
def CTX.valid : TField := ⟨0, 0⟩
def CTX.ctx : TField := ⟨13, 2⟩
def CTX.odu_type : TField := ⟨17, 14⟩
def CTX.stage : TField := ⟨19, 18⟩
def CTX.parent : TField := ⟨29, 20⟩
def CTX.ho_handle : TField := ⟨37, 32⟩
def CTX.ho : TField := ⟨38, 38⟩
def CTX.n_ts : TField := ⟨48, 40⟩
def CTX.flex_kbps : TField := ⟨95, 64⟩
def CTX.mp_mode : TField := ⟨109, 96⟩
def CTX.aps_en : TField := ⟨111, 111⟩
def CTX.aps_level : TField := ⟨114, 112⟩
def CTX.stamp_en : TField := ⟨115, 115⟩
def CTX.force_ais : TField := ⟨116, 116⟩
def CTX.force_lck : TField := ⟨117, 117⟩
def CTX.force_oci : TField := ⟨118, 118⟩
def CTX.client : TField := ⟨119, 119⟩
def CTX.ls_level : TField := ⟨122, 120⟩
def CTX.flow : TField := ⟨143, 128⟩
def CTX.flow_en : TField := ⟨144, 144⟩
def CTX.src_sel : TField := ⟨145, 145⟩
def CTX.pair_ctx : TField := ⟨174, 160⟩
def CTX.pair_en : TField := ⟨175, 175⟩
def CTX.lead : TField := ⟨195, 192⟩
def T_TS1 : Tab := ⟨0x02, 1, 320, true, false, [], false, false, false⟩
def TS1.used : TField := ⟨0, 0⟩
def TS1.owner : TField := ⟨10, 1⟩
def TS1.tpn : TField := ⟨23, 12⟩
def T_TS2 : Tab := ⟨0x03, 1, 5120, true, false, [], false, false, false⟩
def T_CTX_STATUS : Tab := ⟨0x04, 1, 1024, false, true, [], false, false, false⟩
def CTX_STATUS.leg : TField := ⟨1, 0⟩
def CTX_STATUS.out_sf : TField := ⟨2, 2⟩
def CTX_STATUS.ssf_in : TField := ⟨3, 3⟩
def CTX_STATUS.replaced : TField := ⟨4, 4⟩
def CTX_STATUS.forced : TField := ⟨5, 5⟩
def CTX_STATUS.adopted : TField := ⟨6, 6⟩
def T_STAMP_RX : Tab := ⟨0x05, 1, 1024, false, true, [], false, false, false⟩
def STAMP_RX.locked : TField := ⟨0, 0⟩
def STAMP_RX.count : TField := ⟨31, 8⟩
def STAMP_RX.crc_err : TField := ⟨63, 32⟩
def STAMP_RX.fmt_err : TField := ⟨95, 64⟩
def STAMP_RX.jumps : TField := ⟨127, 96⟩
def T_MP_CFG : Tab := ⟨0x01, 1, 17408, true, false, [], false, false, false⟩
def MP_CFG.tim_mode : TField := ⟨1, 0⟩
def MP_CFG.tim_act_dis : TField := ⟨2, 2⟩
def MP_CFG.ltc_act_dis : TField := ⟨3, 3⟩
def MP_CFG.degm : TField := ⟨7, 4⟩
def MP_CFG.degthr : TField := ⟨27, 8⟩
def MP_CFG.exp_pt : TField := ⟨35, 28⟩
def MP_CFG.plm_en : TField := ⟨36, 36⟩
def MP_CFG.iae_tx : TField := ⟨37, 37⟩
def T_MP_TTI_EXP : Tab := ⟨0x02, 4, 17408, true, false, [], false, false, false⟩
def T_MP_TTI_TX : Tab := ⟨0x03, 4, 17408, true, false, [], false, false, false⟩
def T_MP_TTI_ACC : Tab := ⟨0x04, 4, 17408, false, true, [], false, false, false⟩
def T_MP_STATUS : Tab := ⟨0x05, 1, 17408, false, true, [], false, false, false⟩
def MP_STATUS.dais : TField := ⟨0, 0⟩
def MP_STATUS.doci : TField := ⟨1, 1⟩
def MP_STATUS.dlck : TField := ⟨2, 2⟩
def MP_STATUS.dltc : TField := ⟨3, 3⟩
def MP_STATUS.diae : TField := ⟨4, 4⟩
def MP_STATUS.dtim : TField := ⟨5, 5⟩
def MP_STATUS.dbdi : TField := ⟨6, 6⟩
def MP_STATUS.dbiae : TField := ⟨7, 7⟩
def MP_STATUS.ddeg : TField := ⟨8, 8⟩
def MP_STATUS.dplm : TField := ⟨9, 9⟩
def MP_STATUS.dcsf : TField := ⟨10, 10⟩
def MP_STATUS.dmsim : TField := ⟨11, 11⟩
def MP_STATUS.dloflom : TField := ⟨12, 12⟩
def MP_STATUS.dloomfi : TField := ⟨13, 13⟩
def MP_STATUS.atsf : TField := ⟨14, 14⟩
def MP_STATUS.atsd : TField := ⟨15, 15⟩
def MP_STATUS.ssf : TField := ⟨16, 16⟩
def MP_STATUS.pt : TField := ⟨24, 17⟩
def T_SHP : Tab := ⟨0x06, 1, 1024, true, false, [], false, false, false⟩
def SHP.valid : TField := ⟨0, 0⟩
def SHP.kind : TField := ⟨2, 1⟩
def SHP.dir : TField := ⟨3, 3⟩
def SHP.target : TField := ⟨13, 4⟩
def SHP.level : TField := ⟨16, 14⟩
def SHP.mode : TField := ⟨18, 17⟩
def SHP.tap : TField := ⟨19, 19⟩
def T_EPI_OPEN : Tab := ⟨0x01, 2, 8192, false, true, [], false, false, false⟩
def EPI_OPEN.id : TField := ⟨31, 0⟩
def EPI_OPEN.kind : TField := ⟨36, 32⟩
def EPI_OPEN.src_kind : TField := ⟨37, 37⟩
def EPI_OPEN.src : TField := ⟨56, 38⟩
def EPI_OPEN.late : TField := ⟨57, 57⟩
def EPI_OPEN.valid : TField := ⟨58, 58⟩
def EPI_OPEN.open_sec : TField := ⟨111, 64⟩
def EPI_OPEN.open_ns : TField := ⟨141, 112⟩
def EPI_OPEN.quality : TField := ⟨143, 142⟩
def T_EPI_AGG : Tab := ⟨0x02, 1, 32, false, true, [], false, false, false⟩
def EPI_AGG.opened : TField := ⟨31, 0⟩
def EPI_AGG.closed : TField := ⟨63, 32⟩
def EPI_AGG.present : TField := ⟨95, 64⟩
def T_ETH_CFG : Tab := ⟨0x01, 1, 1, true, false, [], false, false, false⟩
def ETH_CFG.en : TField := ⟨0, 0⟩
def ETH_CFG.client : TField := ⟨2, 1⟩
def ETH_CFG.tx_flow : TField := ⟨19, 4⟩
def ETH_CFG.tx_en : TField := ⟨20, 20⟩
def ETH_CFG.rx : TField := ⟨36, 21⟩
def ETH_CFG.rx_en : TField := ⟨37, 37⟩
def ETH_CFG.rx_sel : TField := ⟨38, 38⟩
def ETH_CFG.force_lf : TField := ⟨39, 39⟩
def T_CLI_CFG : Tab := ⟨0x01, 1, 1024, true, false, [0x19000000000000], false, false, false⟩
def CLI_CFG.en : TField := ⟨0, 0⟩
def CLI_CFG.client : TField := ⟨4, 1⟩
def CLI_CFG.pt : TField := ⟨15, 8⟩
def CLI_CFG.cbr_kbps : TField := ⟨47, 16⟩
def CLI_CFG.tol : TField := ⟨49, 48⟩
def CLI_CFG.bw : TField := ⟨51, 50⟩
def CLI_CFG.lf_csf : TField := ⟨52, 52⟩
def CLI_CFG.force_repl : TField := ⟨53, 53⟩
def CLI_CFG.force_csf : TField := ⟨54, 54⟩
def T_CLI_STATUS : Tab := ⟨0x02, 1, 1024, false, true, [], false, false, false⟩
def CLI_STATUS.clos : TField := ⟨0, 0⟩
def CLI_STATUS.clf : TField := ⟨1, 1⟩
def CLI_STATUS.crf : TField := ⟨2, 2⟩
def CLI_STATUS.cjc : TField := ⟨3, 3⟩
def CLI_STATUS.crate : TField := ⟨4, 4⟩
def CLI_STATUS.replacing : TField := ⟨5, 5⟩
def CLI_STATUS.csf_tx : TField := ⟨6, 6⟩
def CLI_STATUS.gen_hold : TField := ⟨7, 7⟩
def CLI_STATUS.offset : TField := ⟨23, 8⟩
def CLI_STATUS.fill : TField := ⟨39, 24⟩
def CLI_STATUS.cm : TField := ⟨53, 40⟩
def CLI_STATUS.c8d : TField := ⟨63, 54⟩
def T_CLI_CNT : Tab := ⟨0x03, 2, 1024, false, true, [], false, false, false⟩
def CLI_CNT.jc_crc : TField := ⟨31, 0⟩
def CLI_CNT.jc_range : TField := ⟨63, 32⟩
def CLI_CNT.idle_ins : TField := ⟨95, 64⟩
def CLI_CNT.idle_del : TField := ⟨127, 96⟩
def CLI_CNT.pkt_drop : TField := ⟨159, 128⟩
def CLI_CNT.repl : TField := ⟨191, 160⟩
def CLI_CNT.lost_units : TField := ⟨223, 192⟩
def CLI_CNT.err_blocks : TField := ⟨255, 224⟩
def T_DMX_CNT : Tab := ⟨0x04, 1, 1024, false, true, [], false, false, false⟩
def DMX_CNT.jc_crc : TField := ⟨31, 0⟩
def DMX_CNT.jc_range : TField := ⟨63, 32⟩
def DMX_CNT.amp_vote : TField := ⟨95, 64⟩
def T_ISG_CFG : Tab := ⟨0x01, 1, 1024, true, false, [0x294000000000000000048], false, false, false⟩
def ISG_CFG.valid : TField := ⟨0, 0⟩
def ISG_CFG.arch : TField := ⟨2, 1⟩
def ISG_CFG.revert : TField := ⟨3, 3⟩
def ISG_CFG.snc : TField := ⟨5, 4⟩
def ISG_CFG.sd_en : TField := ⟨6, 6⟩
def ISG_CFG.aps_en : TField := ⟨7, 7⟩
def ISG_CFG.aps_ch : TField := ⟨21, 8⟩
def ISG_CFG.w_ctx : TField := ⟨33, 22⟩
def ISG_CFG.p_ctx : TField := ⟨45, 34⟩
def ISG_CFG.out_flow : TField := ⟨61, 46⟩
def ISG_CFG.holdoff : TField := ⟨73, 64⟩
def ISG_CFG.wtr : TField := ⟨77, 74⟩
def ISG_CFG.conf : TField := ⟨85, 78⟩
def ISG_CFG.prov : TField := ⟨87, 86⟩
/-- The selector position of an entry is held three times and voted (file 07, R265). -/
def T_ISL_GRP_STATUS : Tab := ⟨0x02, 1, 1024, false, true, [], true, false, false⟩
def T_ISL_GRP_CNT : Tab := ⟨0x03, 2, 1024, false, true, [], false, false, false⟩
def T_ESG_CFG : Tab := ⟨0x01, 1, 2048, true, false, [0xa50000000000000048], false, false, false⟩
def ESG_CFG.valid : TField := ⟨0, 0⟩
def ESG_CFG.arch : TField := ⟨2, 1⟩
def ESG_CFG.revert : TField := ⟨3, 3⟩
def ESG_CFG.snc : TField := ⟨5, 4⟩
def ESG_CFG.sd_en : TField := ⟨6, 6⟩
def ESG_CFG.aps_en : TField := ⟨7, 7⟩
def ESG_CFG.aps_ch : TField := ⟨21, 8⟩
def ESG_CFG.w_flow : TField := ⟨37, 22⟩
def ESG_CFG.p_flow : TField := ⟨53, 38⟩
def ESG_CFG.holdoff : TField := ⟨63, 54⟩
def ESG_CFG.wtr : TField := ⟨67, 64⟩
def ESG_CFG.conf : TField := ⟨75, 68⟩
def ESG_CFG.prov : TField := ⟨77, 76⟩
def ESG_CFG.aligned : TField := ⟨78, 78⟩
def ESG_CFG.wgrp : TField := ⟨90, 79⟩
def T_BRG_CFG : Tab := ⟨0x02, 1, 2048, true, false, [], false, false, false⟩
def BRG_CFG.valid : TField := ⟨0, 0⟩
def BRG_CFG.kind : TField := ⟨1, 1⟩
def BRG_CFG.src_sel : TField := ⟨2, 2⟩
def BRG_CFG.src : TField := ⟨18, 3⟩
def BRG_CFG.w_blk : TField := ⟨21, 19⟩
def BRG_CFG.w_slot : TField := ⟨31, 22⟩
def BRG_CFG.p_blk : TField := ⟨34, 32⟩
def BRG_CFG.p_slot : TField := ⟨44, 35⟩
def BRG_CFG.grp : TField := ⟨59, 45⟩
/-- The selector position of an entry is held three times and voted (file 07, R265). -/
def T_SEL_GRP_STATUS : Tab := ⟨0x03, 1, 2048, false, true, [], true, false, false⟩
def T_SEL_GRP_CNT : Tab := ⟨0x04, 2, 2048, false, true, [], false, false, false⟩
def T_BRG_STATUS : Tab := ⟨0x05, 1, 2048, false, true, [], false, false, false⟩
def BRG_STATUS.bridged : TField := ⟨0, 0⟩
def T_APS_CFG : Tab := ⟨0x01, 1, 16384, true, false, [0x14000000000000], false, false, false⟩
def APS_CFG.valid : TField := ⟨0, 0⟩
def APS_CFG.grp : TField := ⟨15, 1⟩
def APS_CFG.rx_ctx : TField := ⟨30, 16⟩
def APS_CFG.tx_ctx : TField := ⟨46, 32⟩
def APS_CFG.guard : TField := ⟨47, 47⟩
def APS_CFG.age_ms : TField := ⟨55, 48⟩
def T_APS_RX : Tab := ⟨0x02, 1, 16384, false, true, [], false, false, false⟩
def APS_RX.accepted : TField := ⟨23, 0⟩
def APS_RX.acc_valid : TField := ⟨24, 24⟩
def APS_RX.alive : TField := ⟨28, 25⟩
def APS_RX.dfop_pm : TField := ⟨29, 29⟩
def APS_RX.dfop_nr : TField := ⟨30, 30⟩
def APS_RX.dfop_to : TField := ⟨31, 31⟩
def APS_RX.age : TField := ⟨39, 32⟩
def APS_RX.outstanding : TField := ⟨40, 40⟩
def T_APS_CNT : Tab := ⟨0x03, 2, 16384, false, true, [], false, false, false⟩
def APS_CNT.rx_ok : TField := ⟨31, 0⟩
def APS_CNT.chk_err : TField := ⟨63, 32⟩
def APS_CNT.repeat : TField := ⟨95, 64⟩
def APS_CNT.gap_msgs : TField := ⟨127, 96⟩
def APS_CNT.tx_msgs : TField := ⟨159, 128⟩
def APS_CNT.fop_pm : TField := ⟨191, 160⟩
def APS_CNT.fop_nr : TField := ⟨223, 192⟩
def APS_CNT.fop_to : TField := ⟨255, 224⟩
def T_SFP_REC : Tab := ⟨0x04, 1, 16384, false, true, [], false, false, false⟩
def SFP_REC.bytes : TField := ⟨23, 0⟩
def SFP_REC.valid : TField := ⟨24, 24⟩
def SFP_REC.sec : TField := ⟨63, 32⟩
def SFP_REC.ns : TField := ⟨93, 64⟩
def SFP_REC.quality : TField := ⟨95, 94⟩
def T_WGRP_CFG : Tab := ⟨0x01, 1, 4096, true, false, [0x14000], false, false, false⟩
def WGRP_CFG.valid : TField := ⟨0, 0⟩
def WGRP_CFG.stack : TField := ⟨3, 1⟩
def WGRP_CFG.step : TField := ⟨4, 4⟩
def WGRP_CFG.max_delay : TField := ⟨16, 8⟩
def WGRP_CFG.base : TField := ⟨38, 20⟩
def WGRP_CFG.rate_kbps : TField := ⟨95, 64⟩
def T_WGRP_STATUS : Tab := ⟨0x02, 1, 4096, false, true, [], false, false, false⟩
def WGRP_STATUS.state : TField := ⟨2, 0⟩
def WGRP_STATUS.early : TField := ⟨3, 3⟩
def WGRP_STATUS.w_stamped : TField := ⟨4, 4⟩
def WGRP_STATUS.p_stamped : TField := ⟨5, 5⟩
def WGRP_STATUS.covered : TField := ⟨6, 6⟩
def WGRP_STATUS.queued : TField := ⟨7, 7⟩
def WGRP_STATUS.delay : TField := ⟨33, 8⟩
def WGRP_STATUS.lag : TField := ⟨61, 36⟩
def WGRP_STATUS.blocks : TField := ⟨79, 64⟩
def T_WGRP_CNT : Tab := ⟨0x03, 2, 4096, false, true, [], false, false, false⟩
def WGRP_CNT.swaps : TField := ⟨31, 0⟩
def WGRP_CNT.swap_queued : TField := ⟨63, 32⟩
def WGRP_CNT.steps : TField := ⟨95, 64⟩
def WGRP_CNT.stamp_err : TField := ⟨127, 96⟩
def WGRP_CNT.rd_miss : TField := ⟨159, 128⟩
def WGRP_CNT.over : TField := ⟨191, 160⟩
def WGRP_CNT.fallbacks : TField := ⟨223, 192⟩
def WGRP_CNT.acquires : TField := ⟨255, 224⟩
def T_WFAIL : Tab := ⟨0x04, 2, 4096, false, true, [], false, false, false⟩
def WFAIL.valid : TField := ⟨0, 0⟩
def WFAIL.cause : TField := ⟨3, 1⟩
def WFAIL.first : TField := ⟨63, 32⟩
def WFAIL.last : TField := ⟨95, 64⟩
def WFAIL.lost : TField := ⟨127, 96⟩
def WFAIL.sec : TField := ⟨175, 128⟩
def WFAIL.ns : TField := ⟨205, 176⟩
def WFAIL.quality : TField := ⟨207, 206⟩
def T_LINK_CFG : Tab := ⟨0x01, 1, 1, true, false, [0x82000800000000000], false, false, false⟩
def LINK_CFG.role : TField := ⟨1, 0⟩
def LINK_CFG.link_id : TField := ⟨17, 2⟩
def LINK_CFG.expect_id : TField := ⟨33, 18⟩
def LINK_CFG.id_chk : TField := ⟨34, 34⟩
def LINK_CFG.units0 : TField := ⟨48, 35⟩
def LINK_CFG.units1 : TField := ⟨62, 49⟩
def LINK_CFG.fail_cnt : TField := ⟨67, 64⟩
def T_TXF_CFG : Tab := ⟨0x01, 1, 4096, true, false, [], false, false, false⟩
def TXF_CFG.valid : TField := ⟨0, 0⟩
def TXF_CFG.kind : TField := ⟨1, 1⟩
def TXF_CFG.client : TField := ⟨5, 2⟩
def TXF_CFG.short : TField := ⟨6, 6⟩
def TXF_CFG.cls : TField := ⟨7, 7⟩
def TXF_CFG.label : TField := ⟨23, 8⟩
def TXF_CFG.rate_kbps : TField := ⟨63, 32⟩
def T_TXF_CNT : Tab := ⟨0x02, 1, 4096, false, true, [], false, false, false⟩
def TXF_CNT.segs : TField := ⟨31, 0⟩
def TXF_CNT.diverted : TField := ⟨63, 32⟩
def TXF_CNT.dropped : TField := ⟨95, 64⟩
def T_RXF_CFG : Tab := ⟨0x01, 1, 8192, true, false, [], false, false, false⟩
def RXF_CFG.valid : TField := ⟨0, 0⟩
def RXF_CFG.kind : TField := ⟨1, 1⟩
def RXF_CFG.client : TField := ⟨5, 2⟩
def RXF_CFG.short : TField := ⟨6, 6⟩
def RXF_CFG.rate_kbps : TField := ⟨63, 32⟩
def T_RXF_STATUS : Tab := ⟨0x02, 1, 8192, false, true, [], false, false, false⟩
def RXF_STATUS.state : TField := ⟨1, 0⟩
def RXF_STATUS.leg : TField := ⟨3, 2⟩
def RXF_STATUS.e : TField := ⟨19, 4⟩
def RXF_STATUS.held : TField := ⟨25, 20⟩
def RXF_STATUS.gap_first : TField := ⟨47, 32⟩
def RXF_STATUS.gap_len : TField := ⟨63, 48⟩
def T_RXF_CNT : Tab := ⟨0x03, 2, 8192, false, true, [], false, false, false⟩
def RXF_CNT.segs : TField := ⟨31, 0⟩
def RXF_CNT.gap_segs : TField := ⟨63, 32⟩
def RXF_CNT.gaps : TField := ⟨95, 64⟩
def RXF_CNT.dup : TField := ⟨127, 96⟩
def RXF_CNT.timeouts : TField := ⟨159, 128⟩
def RXF_CNT.overrun : TField := ⟨191, 160⟩
def RXF_CNT.kind_err : TField := ⟨223, 192⟩
def RXF_CNT.offline : TField := ⟨255, 224⟩
def T_CAP_CFG : Tab := ⟨0x01, 1, 512, true, false, [0xfc64010400000], false, false, false⟩
def CHN.valid : TField := ⟨0, 0⟩
def CHN.src : TField := ⟨3, 1⟩
def CHN.blk : TField := ⟨6, 4⟩
def CHN.idx : TField := ⟨16, 7⟩
def CHN.level : TField := ⟨19, 17⟩
def CHN.mode : TField := ⟨21, 20⟩
def CHN.fcs : TField := ⟨23, 22⟩
def CHN.keep_fcs : TField := ⟨24, 24⟩
def CHN.deliver_bad : TField := ⟨25, 25⟩
def CHN.aps_all : TField := ⟨26, 26⟩
def CHN.cut : TField := ⟨27, 27⟩
def CHN.min_flags : TField := ⟨31, 28⟩
def CHN.max_len : TField := ⟨45, 32⟩
def CHN.raw_len_m1 : TField := ⟨53, 46⟩
def CHN.idle : TField := ⟨61, 54⟩
def CHN.base : TField := ⟨74, 64⟩
def CHN.size : TField := ⟨86, 75⟩
def T_INS_CFG : Tab := ⟨0x02, 1, 512, true, false, [0xfc64010400000], false, false, false⟩
def T_CAP_STATUS : Tab := ⟨0x03, 1, 512, false, true, [0x7800000000], false, false, false⟩
def CHST.used : TField := ⟨18, 0⟩
def CHST.packets : TField := ⟨31, 19⟩
def CHST.inside : TField := ⟨32, 32⟩
def CHST.writing : TField := ⟨33, 33⟩
def CHST.flush_pending : TField := ⟨34, 34⟩
def CHST.writer : TField := ⟨38, 35⟩
def T_INS_STATUS : Tab := ⟨0x04, 1, 512, false, true, [0x7800000000], false, false, false⟩
def T_CAP_CNT : Tab := ⟨0x05, 2, 512, false, true, [], false, false, false⟩
def CAP_CNT.pkts : TField := ⟨31, 0⟩
def CAP_CNT.lost : TField := ⟨63, 32⟩
def CAP_CNT.fcs_err : TField := ⟨95, 64⟩
def CAP_CNT.aborts : TField := ⟨127, 96⟩
def CAP_CNT.runts : TField := ⟨159, 128⟩
def CAP_CNT.trunc : TField := ⟨191, 160⟩
def CAP_CNT.cut : TField := ⟨223, 192⟩
def CAP_CNT.poison : TField := ⟨255, 224⟩
def T_INS_CNT : Tab := ⟨0x06, 2, 512, false, true, [], false, false, false⟩
def INS_CNT.pkts : TField := ⟨31, 0⟩
def INS_CNT.lost : TField := ⟨63, 32⟩
def INS_CNT.rewound : TField := ⟨95, 64⟩
def INS_CNT.cut : TField := ⟨127, 96⟩
def INS_CNT.poison : TField := ⟨159, 128⟩
def INS_CNT.bad_len : TField := ⟨191, 160⟩
def INS_CNT.aborts_sent : TField := ⟨223, 192⟩
def INS_CNT.foreign : TField := ⟨255, 224⟩
def T_SDP_STAT : Tab := ⟨0x01, 1, 64, false, true, [], false, false, false⟩
def SDP_STAT.count : TField := ⟨31, 0⟩
def T_WAKE_MASK : Tab := ⟨0x02, 1, 8, false, false, [], false, true, false⟩
def WAKE_MASK.mask : TField := ⟨127, 0⟩
def T_CSU_BAND : Tab := ⟨0x01, 1, 64, false, false, [], false, false, false⟩
def CSU_BAND.valid : TField := ⟨0, 0⟩
def CSU_BAND.ref_type : TField := ⟨1, 1⟩
def CSU_BAND.f_lo : TField := ⟨27, 8⟩
def CSU_BAND.f_hi : TField := ⟨47, 28⟩
def CSU_BAND.tc : TField := ⟨63, 48⟩
def CSU_BAND.trim : TField := ⟨79, 64⟩
def T_HST_VECMAP : Tab := ⟨0x01, 1, 320, false, false, [], false, false, false⟩
def HST_VECMAP.vector : TField := ⟨10, 0⟩
def HST_VECMAP.en : TField := ⟨15, 15⟩
def T_HST_TXN : Tab := ⟨0x02, 2, 64, false, true, [], false, false, false⟩
def HST_TXN.seq : TField := ⟨31, 0⟩
def HST_TXN.box : TField := ⟨40, 32⟩
def HST_TXN.kind : TField := ⟨42, 41⟩
def HST_TXN.tag : TField := ⟨52, 43⟩
def HST_TXN.bar : TField := ⟨54, 53⟩
def HST_TXN.offset : TField := ⟨91, 64⟩
def HST_TXN.be : TField := ⟨95, 92⟩
def HST_TXN.data : TField := ⟨127, 96⟩
def HST_TXN.status : TField := ⟨130, 128⟩
def HST_TXN.len : TField := ⟨145, 136⟩
def HST_TXN.sec : TField := ⟨223, 192⟩
def HST_TXN.ns : TField := ⟨253, 224⟩
def HST_TXN.quality : TField := ⟨255, 254⟩
def T_OWN : Tab := ⟨0x01, 1, 225280, false, false, [], true, false, false⟩
def OWN.box : TField := ⟨8, 0⟩
def T_BOX_VECMAP : Tab := ⟨0x01, 1, 320, false, false, [], false, false, false⟩
def BOX_VECMAP.vector : TField := ⟨2, 0⟩
def BOX_VECMAP.en : TField := ⟨15, 15⟩
def T_EN_GRANT : Tab := ⟨0x01, 1, 64, false, false, [], true, false, false⟩
def EN_GRANT.valid : TField := ⟨0, 0⟩
def EN_GRANT.kind : TField := ⟨1, 1⟩
def EN_GRANT.en0 : TField := ⟨2, 2⟩
def EN_GRANT.en1 : TField := ⟨3, 3⟩
def EN_GRANT.write : TField := ⟨4, 4⟩
def EN_GRANT.first : TField := ⟨23, 8⟩
def EN_GRANT.count_m1 : TField := ⟨39, 24⟩
def EN_GRANT.base : TField := ⟨95, 64⟩
def EN_GRANT.size : TField := ⟨127, 96⟩
def T_FLT_POLICY : Tab := ⟨0x01, 1, 32, false, false, [0x20000271000000400000003e8, 0x40000ea6000000004000003e8, 0x30000271000000010000003e8, 0x40000271000000010000003e8, 0x30000271000000004000003e8, 0x40000ea600000000400002710, 0x30000ea600000000400002710, 0x20000271000000010000003e8, 0x20000271000000010000003e8, 0x1000027100000ffff000003e8, 0x20000ea6000000010000003e8, 0x20000ea600000000400002710, 0x30000271000000040000003e8, 0x4000927c000000002000927c0, 0x2000927c000000003000927c0, 0x40000ea600000ffff000003e8, 0x40000ea6000000004000003e8, 0x30000ea600000000200002710, 0x30000ea6000000004000003e8, 0x10000271000000010000003e8, 0x271000000010000003e8, 0x2000027100000000c000003e8, 0x40000ea6000000004000003e8, 0x20000271000000040000003e8, 0x4000927c000000002000927c0, 0x20000271000000010000003e8, 0x10000271000000010000003e8, 0x40000ea6000000002000003e8, 0x40000ea6000000002000003e8], true, false, true⟩
def FLT_POLICY.window_ms : TField := ⟨31, 0⟩
def FLT_POLICY.thresh : TField := ⟨47, 32⟩
def FLT_POLICY.quiet_ms : TField := ⟨95, 64⟩
def FLT_POLICY.cap : TField := ⟨98, 96⟩
def T_FLT_STATE : Tab := ⟨0x02, 1, 288, false, true, [], false, false, false⟩
def FLT_STATE.level : TField := ⟨2, 0⟩
def FLT_STATE.active : TField := ⟨3, 3⟩
def FLT_STATE.unack : TField := ⟨4, 4⟩
def FLT_STATE.lasting : TField := ⟨5, 5⟩
def FLT_STATE.window : TField := ⟨23, 8⟩
def FLT_STATE.first_seq : TField := ⟨63, 32⟩
def FLT_STATE.last_seq : TField := ⟨95, 64⟩
def FLT_STATE.quiet_left : TField := ⟨111, 96⟩
def T_FLT_CNT : Tab := ⟨0x03, 1, 288, false, true, [], false, false, false⟩
def FLT_CNT.reports : TField := ⟨31, 0⟩
def FLT_CNT.recoveries : TField := ⟨47, 32⟩
def FLT_CNT.escalations : TField := ⟨63, 48⟩
def T_FLT_LINK : Tab := ⟨0x04, 1, 96, false, true, [], false, false, false⟩
def FLT_LINK.broken : TField := ⟨0, 0⟩
def FLT_LINK.masked : TField := ⟨1, 1⟩
def FLT_LINK.accepted : TField := ⟨63, 32⟩
def FLT_LINK.masked_words : TField := ⟨95, 64⟩
def T_LOG_ENTRY : Tab := ⟨0x01, 2, 65536, false, true, [], false, false, false⟩
def T_LOG_GHOST : Tab := ⟨0x02, 2, 4, false, true, [], true, true, false⟩
def GRP_STATUS.sel : TField := ⟨0, 0⟩
def GRP_STATUS.prov : TField := ⟨1, 1⟩
def GRP_STATUS.request : TField := ⟨5, 2⟩
def GRP_STATUS.w_leg : TField := ⟨7, 6⟩
def GRP_STATUS.p_leg : TField := ⟨9, 8⟩
def GRP_STATUS.ho_w : TField := ⟨10, 10⟩
def GRP_STATUS.ho_p : TField := ⟨11, 11⟩
def GRP_STATUS.wtr_run : TField := ⟨12, 12⟩
def GRP_STATUS.sfp_override : TField := ⟨13, 13⟩
def GRP_STATUS.model : TField := ⟨15, 14⟩
def GRP_STATUS.wtr_left : TField := ⟨25, 16⟩
def GRP_STATUS.cmd : TField := ⟨29, 26⟩
def GRP_CNT.sw : TField := ⟨31, 0⟩
def GRP_CNT.prov_sw : TField := ⟨63, 32⟩
def GRP_CNT.prov_rev : TField := ⟨95, 64⟩
def GRP_CNT.prov_conf : TField := ⟨127, 96⟩
def GRP_CNT.prov_hit : TField := ⟨159, 128⟩
def GRP_CNT.ho_drop : TField := ⟨191, 160⟩
def GRP_CNT.wtr_done : TField := ⟨223, 192⟩
def GRP_CNT.cmd_drop : TField := ⟨255, 224⟩

/-- The tables of a page type. On FWM pages EN_GRANT exists on page 0 only (R473). -/
def typeTabs (t : PageType) (inst : Nat) : List Tab :=
  match t with
  | .chipId => []
  | .mode => []
  | .flt => [T_FLT_POLICY, T_FLT_STATE, T_FLT_CNT, T_FLT_LINK]
  | .log => [T_LOG_ENTRY, T_LOG_GHOST]
  | .tim => []
  | .csu => [T_CSU_BAND]
  | .hst => [T_HST_VECMAP, T_HST_TXN]
  | .bxm => [T_OWN]
  | .sdp => [T_SDP_STAT, T_WAKE_MASK]
  | .cbb => []
  | .chk => []
  | .prt => [T_APS_CFG, T_APS_RX, T_APS_CNT, T_SFP_REC]
  | .plb => []
  | .box => [T_BOX_VECMAP]
  | .fwm => if inst = 0 then [T_EN_GRANT] else []
  | .rgn => []
  | .fyt => [T_TXF_CFG, T_TXF_CNT]
  | .fyr => [T_RXF_CFG, T_RXF_STATUS, T_RXF_CNT]
  | .fyl => [T_LINK_CFG]
  | .sel => [T_ESG_CFG, T_BRG_CFG, T_SEL_GRP_STATUS, T_SEL_GRP_CNT, T_BRG_STATUS]
  | .ohq => [T_CAP_CFG, T_INS_CFG, T_CAP_STATUS, T_INS_STATUS, T_CAP_CNT, T_INS_CNT]
  | .epi => [T_EPI_OPEN, T_EPI_AGG]
  | .isl => [T_ISG_CFG, T_ISL_GRP_STATUS, T_ISL_GRP_CNT]
  | .lln => [T_LANE_CFG]
  | .fec => []
  | .otu => [T_OTU_IF, T_OTU_TTI_EXP, T_OTU_TTI_TX, T_OTU_TTI_ACC]
  | .odi => [T_CTX, T_TS1, T_TS2, T_CTX_STATUS, T_STAMP_RX]
  | .ode => [T_CTX, T_TS1, T_TS2, T_CTX_STATUS]
  | .mpt => [T_MP_CFG, T_MP_TTI_EXP, T_MP_TTI_TX, T_MP_TTI_ACC, T_MP_STATUS, T_SHP]
  | .dmp => [T_CLI_CFG, T_CLI_STATUS, T_CLI_CNT, T_DMX_CNT]
  | .map => [T_CLI_CFG, T_CLI_STATUS, T_CLI_CNT]
  | .eth => [T_ETH_CFG]
  | .wng => [T_WGRP_CFG, T_WGRP_STATUS, T_WGRP_CNT, T_WFAIL]
  | .hbm => []

end Sys2Proof.Machine
end

