-- ==== Sys2Proof/Machine/Pages.lean ====
section
/-! DEFINITION. The page numbers of the address map: where each page lies, its type, instance and event source
(file 02, R45 to R50; numbering of items by file 01, R13). A page number is the page index a[27:12] of R46. -/

namespace Sys2Proof.Machine

/-- Page p of the chip services (Table REG-1). -/
def chipPg (p : Nat) : Nat := p
/-- Page p of region r: blocks below 0x800, region-common pages from 0x800 on (R46). -/
def rgnPg (r p : Nat) : Nat := 0x1000 * (r + 1) + p
/-- Page p of the block with device block number B = 8r + b (R46). -/
def blkPg (B p : Nat) : Nat := 0x1000 * (B / 8 + 1) + 0x100 * (B % 8) + p
/-- Page p of the wings tier. -/
def wngTier (p : Nat) : Nat := 0x9000 + p

def pgChipId : Nat := 0x000
def pgMode : Nat := 0x001
def pgFlt : Nat := 0x002
def pgLog : Nat := 0x003
def pgTim : Nat := 0x004
/-- The CSU page of unit u: 0 core, 1 to 32 LG0 to LG31, 33 to 48 FG0 to FG15, 49 to 54 HB0 to HB5 (Table REG-2). -/
def pgCsu (u : Nat) : Nat := 0x010 + u
def pgHst : Nat := 0x050
def pgBxm : Nat := 0x051
def pgSdp : Nat := 0x052
def pgCbb : Nat := 0x053
def pgChk (u : Nat) : Nat := 0x060 + u
def pgPrt : Nat := 0x080
def pgPlb : Nat := 0x090
def pgBox (n : Nat) : Nat := 0x200 + n
def pgFwm (n : Nat) : Nat := 0xA000 + n
def pgWng : Nat := 0x9000
def pgHbm (k : Nat) : Nat := 0x9001 + k
def pgRgn (r : Nat) : Nat := rgnPg r 0x800
def pgFyt (r : Nat) : Nat := rgnPg r 0x801
def pgFyr (r : Nat) : Nat := rgnPg r 0x802
/-- The FYL page of device link m = 12r + l (Table REG-3). -/
def pgFyl (m : Nat) : Nat := rgnPg (m / 12) (0x803 + m % 12)
def pgSel (r : Nat) : Nat := rgnPg r 0x80F
def pgOhq (r : Nat) : Nat := rgnPg r 0x810
def pgEpi (r : Nat) : Nat := rgnPg r 0x811
def pgIsl (r : Nat) : Nat := rgnPg r 0x812
/-- The LLN page of line lane n = 4B + j (Tables REG-4, ARC-2). -/
def pgLln (n : Nat) : Nat := blkPg (n / 4) (n % 4)
def pgFec (n : Nat) : Nat := blkPg (n / 4) (4 + n % 4)
/-- The OTU page of device slice d = 16B + k (Tables REG-4, ARC-2). -/
def pgOtu (d : Nat) : Nat := blkPg (d / 16) (8 + d % 16)
def pgOdi (B : Nat) : Nat := blkPg B 0x18
def pgOde (B : Nat) : Nat := blkPg B 0x19
def pgMpt (B : Nat) : Nat := blkPg B 0x1A
def pgDmp (B : Nat) : Nat := blkPg B 0x1B
def pgMap (B : Nat) : Nat := blkPg B 0x1C
def pgEth (n : Nat) : Nat := blkPg (n / 4) (0x1D + n % 4)

/-- What a page is: its type, its instance number within the type (PAGE_CAPS.instance), its region and block. -/
structure PageInfo where
  typ : PageType
  inst : Nat
  region : Option Nat
  block : Option Nat
  deriving DecidableEq, Repr

/-- The block page p of a block (Table REG-4). -/
def blockPageInfo (r b p : Nat) : Option PageInfo :=
  let mk (t : PageType) (i : Nat) : Option PageInfo := some ⟨t, i, some r, some b⟩
  if p < 4 then mk .lln p
  else if p < 8 then mk .fec (p - 4)
  else if p < 0x18 then mk .otu (p - 8)
  else if p = 0x18 then mk .odi 0
  else if p = 0x19 then mk .ode 0
  else if p = 0x1A then mk .mpt 0
  else if p = 0x1B then mk .dmp 0
  else if p = 0x1C then mk .map 0
  else if p < 0x21 then mk .eth (p - 0x1D)
  else none

/-- The region-common page p of a region (Table REG-3). -/
def regionPageInfo (r p : Nat) : Option PageInfo :=
  let mk (t : PageType) (i : Nat) : Option PageInfo := some ⟨t, i, some r, none⟩
  if p = 0x800 then mk .rgn 0
  else if p = 0x801 then mk .fyt 0
  else if p = 0x802 then mk .fyr 0
  else if 0x803 ≤ p ∧ p ≤ 0x80E then mk .fyl (p - 0x803)
  else if p = 0x80F then mk .sel 0
  else if p = 0x810 then mk .ohq 0
  else if p = 0x811 then mk .epi 0
  else if p = 0x812 then mk .isl 0
  else none

/-- The chip-service page p (Table REG-2). -/
def chipPageInfo (p : Nat) : Option PageInfo :=
  let mk (t : PageType) (i : Nat) : Option PageInfo := some ⟨t, i, none, none⟩
  if p = 0 then mk .chipId 0
  else if p = 1 then mk .mode 0
  else if p = 2 then mk .flt 0
  else if p = 3 then mk .log 0
  else if p = 4 then mk .tim 0
  else if 0x010 ≤ p ∧ p ≤ 0x046 then mk .csu (p - 0x010)
  else if p = 0x050 then mk .hst 0
  else if p = 0x051 then mk .bxm 0
  else if p = 0x052 then mk .sdp 0
  else if p = 0x053 then mk .cbb 0
  else if 0x060 ≤ p ∧ p ≤ 0x07F then mk .chk (p - 0x060)
  else if p = 0x080 then mk .prt 0
  else if p = 0x090 then mk .plb 0
  else if 0x200 ≤ p ∧ p ≤ 0x3FF then mk .box (p - 0x200)
  else none

/-- The page at page index a[27:12], or none where no page is assigned (R46, R47, R50). -/
def pageInfo (pg : Nat) : Option PageInfo :=
  let tier := pg / 0x1000
  let p := pg % 0x1000
  if tier = 0 then chipPageInfo p
  else if tier ≤ 8 then
    if p < 0x800 then blockPageInfo (tier - 1) (p / 0x100) (p % 0x100) else regionPageInfo (tier - 1) p
  else if tier = 9 then
    if p = 0 then some ⟨.wng, 0, none, none⟩
    else if p ≤ 6 then some ⟨.hbm, p - 1, none, none⟩
    else none
  else if tier = 0xA then
    if p ≤ 0x1FF then some ⟨.fwm, p, none, none⟩ else none
  else none

/-- The event source of a page (Tables REG-2 to REG-4). -/
def pageSource (i : PageInfo) : Nat :=
  match i.region, i.block with
  | some r, some b => 64 + 32 * r + b
  | some r, none =>
    64 + 32 * r + (match i.typ with
      | .rgn => 8 | .fyt => 9 | .fyr => 10 | .fyl => 11 | .sel => 12 | .ohq => 13 | .epi => 14 | _ => 15)
  | none, _ =>
    match i.typ with
    | .chipId => 0 | .mode => 1 | .flt => 2 | .log => 3 | .tim => 4 | .csu => 5 | .hst => 6 | .bxm => 7 | .sdp => 8
    | .cbb => 9 | .chk => 10 | .prt => 11 | .plb => 12 | .box => 13 | .fwm => 14 | .wng => 15 | _ => 16 + i.inst

/-- The region a page belongs to, if any. -/
def pageRegion (pg : Nat) : Option Nat := (pageInfo pg).bind (·.region)

/-- Every table of a page (Tables of the owning chapters). -/
def pageTabs (pg : Nat) : List Tab :=
  match pageInfo pg with
  | some i => typeTabs i.typ i.inst
  | none => []

/-- Every plain field of a page, header fields first. -/
def pageFields (pg : Nat) : List Field :=
  match pageInfo pg with
  | some i => headerFields ++ typeFields i.typ i.inst
  | none => []

/-- The table of a page with a given code. -/
def findTab (pg code : Nat) : Option Tab := (pageTabs pg).find? (fun t => t.code = code)

/-- The page of a register-field key. -/
def keyPage (key : Nat) : Nat := key / 8192 % 65536

/-- The page of a table-entry key. -/
def tabKeyPage (key : Nat) : Nat := key / (256 * 2 ^ 24)

end Sys2Proof.Machine
end

