-- ==== Sys2Proof/Machine/Line.lean ====
section
/-! DEFINITION. The bits on a line: PAM4 levels, the RS(544,514) code, the four-instance rotation, the test patterns, the
self-synchronous scrambler and the CRCs of the justification bytes (file 03, R89, R90, R107, R115; file 06, R206, R221;
file 09, R312). The polynomials that the spec takes from published standards without stating them are PRESUMED
(log 102). -/

namespace Sys2Proof.Machine

open Sys2Proof

/-! ### PAM4 (R90) -/

/-- The level of a pair of bits, the first one sent being the more significant: 00, 01, 11, 10 give levels 0 to 3. -/
def grayLevel (a b : Bool) : Nat := if a then (if b then 2 else 3) else b2n b

/-- The pair of bits that a level stands for. -/
def levelBits (l : Nat) : List Bool :=
  if l = 0 then [false, false] else if l = 1 then [false, true] else if l = 2 then [true, true] else [true, false]

/-- A bit stream as PAM4 levels, two bits at a time. -/
def pam4 : List Bool → List Nat
  | a :: b :: l => grayLevel a b :: pam4 l
  | _ => []

/-- The bits that received levels stand for. -/
def unPam4 (ls : List Nat) : List Bool := ls.flatMap levelBits

/-- An inverted pair of balls turns level l into 3 - l (R119). -/
def invertLevels (inv : Bool) (ls : List Nat) : List Nat := if inv then ls.map (3 - ·) else ls

/-- Numbers of `w` bits as a bit stream, most significant bit first (R5). -/
def streamBits (w : Nat) (xs : List Nat) : List Bool := xs.flatMap (bitsMsb w)

/-- A number from bits, most significant first. -/
def ofBitsMsb (bs : List Bool) : Nat := bs.foldl (fun a b => 2 * a + b2n b) 0

/-- A bit stream cut into numbers of `w` bits; a rest shorter than `w` is dropped. -/
def cutBits (w : Nat) : Nat → List Bool → List Nat
  | 0, _ => []
  | n + 1, bs => if bs.length < w then [] else ofBitsMsb (bs.take w) :: cutBits w n (bs.drop w)

/-- The levels of 10-bit FEC symbols, and the symbols of levels. -/
def symbolLevels (syms : List Nat) : List Nat := pam4 (streamBits 10 syms)
def levelSymbols (ls : List Nat) : List Nat := cutBits 10 (ls.length / 5) (unPam4 ls)

/-! ### The rotation of the four-instance lane (R89) -/

/-- Symbol s of the lane is symbol s / k of instance s mod k. -/
def rotate (k : Nat) (words : List (List Nat)) : List Nat :=
  (List.range (k * (words.headD []).length)).map (fun s => (words.getD (s % k) []).getD (s / k) 0)

/-- The symbols of instance i. -/
def unrotate (k i : Nat) (syms : List Nat) : List Nat :=
  ((List.range syms.length).filter (fun s => decide (s % k = i))).map (syms.getD · 0)

/-! ### RS(544,514) over 10-bit symbols (R107) -/

/-- Multiplication in GF(1024), reduced by x^10 + x^3 + 1. -/
def gfMul (a b : Nat) : Nat :=
  (List.range 10).reverse.foldl (fun r i =>
    let r := 2 * r
    let r := if r.testBit 10 then r ^^^ 0x409 else r
    if b.testBit i then r ^^^ a else r) 0

/-- Powers by repeated squaring over the ten bits of the exponent. -/
def gfPow (a n : Nat) : Nat :=
  (List.range 10).reverse.foldl (fun r i => let r := gfMul r r; if n.testBit i then gfMul r a else r) 1

def gfInv (a : Nat) : Nat := gfPow a 1022

/-- The value of a polynomial, highest coefficient first. -/
def gfEval (p : List Nat) (x : Nat) : Nat := p.foldl (fun r c => gfMul r x ^^^ c) 0

/-- Sum and scaling of polynomials, lowest coefficient first. -/
def gfAdd (p q : List Nat) : List Nat := (List.range (max p.length q.length)).map (fun i => p.getD i 0 ^^^ q.getD i 0)
def gfScale (c : Nat) (p : List Nat) : List Nat := p.map (gfMul c)

/-- Product of polynomials, lowest coefficient first. -/
def gfProd (p q : List Nat) : List Nat := p.foldr (fun c r => gfAdd (gfScale c q) (0 :: r)) []

/-- The generator polynomial: the product of (x - 2^j), j = 0 to 29, lowest coefficient first. -/
def rsGen : List Nat := (List.range 30).foldl (fun g j => gfProd g [gfPow 2 j, 1]) [1]

/-- The 30 parity symbols of 514 message symbols, first one sent first: the remainder of the message times x^30. -/
def rsParity (msg : List Nat) : List Nat :=
  let g := (rsGen.take 30).reverse
  msg.foldl (fun r m =>
    let f := m ^^^ r.headD 0
    (List.range 30).map (fun i => r.getD (i + 1) 0 ^^^ gfMul f (g.getD i 0))) (List.replicate 30 0)

/-- A codeword: the message, then its parity. -/
def rsEncode (msg : List Nat) : List Nat := msg ++ rsParity msg

/-- The 30 syndromes of a received word, its first symbol being the highest coefficient. -/
def rsSyndromes (w : List Nat) : List Nat := (List.range 30).map (fun j => gfEval w (gfPow 2 j))

/-- What the search for the error locator holds after some syndromes: the locator, the last one before a change of length, its
discrepancy, the shift since, and the number of errors. -/
structure RsSearch where
  loc : List Nat := [1]
  prev : List Nat := [1]
  disc : Nat := 1
  shift : Nat := 1
  errs : Nat := 0
  deriving DecidableEq, Repr

/-- One syndrome of the Berlekamp-Massey search. -/
def rsStep (syn : List Nat) (x : RsSearch) (n : Nat) : RsSearch :=
  let d := (List.range (x.errs + 1)).foldl (fun a i => a ^^^ gfMul (x.loc.getD i 0) (syn.getD (n - i) 0)) 0
  if d = 0 then { x with shift := x.shift + 1 }
  else
    let fix := gfAdd x.loc (gfScale (gfMul d (gfInv x.disc)) (List.replicate x.shift 0 ++ x.prev))
    if 2 * x.errs ≤ n then { loc := fix, prev := x.loc, disc := d, shift := 1, errs := n + 1 - x.errs }
    else { x with loc := fix, shift := x.shift + 1 }

/-- The error at exponent e of the word, by the locator and the evaluator. -/
def rsMagnitude (loc eval : List Nat) (e : Nat) : Nat :=
  let xi := gfInv (gfPow 2 e)
  let at_ (p : List Nat) : Nat := gfEval p.reverse xi
  let odd := (List.range loc.length).map (fun i => if i % 2 = 1 then loc.getD i 0 else 0)
  gfMul (at_ eval) (gfInv (at_ odd))

/-- Decoding of a received word: the word with up to 15 symbols corrected and how many they were; 16 with the word as it came
where it cannot be corrected (R107). -/
def rsDecode (w : List Nat) : List Nat × Nat :=
  let syn := rsSyndromes w
  if syn.all (· = 0) then (w, 0)
  else
    let x := (List.range 30).foldl (rsStep syn) {}
    let roots := (List.range 544).filter (fun e => decide (gfEval x.loc.reverse (gfInv (gfPow 2 e)) = 0))
    if 15 < x.errs ∨ roots.length ≠ x.errs then (w, 16)
    else
      let eval := (gfProd syn x.loc).take 30
      ((List.range w.length).map (fun i =>
        let e := 543 - i
        if roots.contains e then w.getD i 0 ^^^ rsMagnitude x.loc eval e else w.getD i 0), x.errs)

/-! ### Test patterns (Table LAN-6) -/

/-- The register length and the feedback taps of a PRBS code. -/
def prbsTaps (code : Nat) : Nat × List Nat :=
  if code = 0 then (7, [7, 6]) else if code = 1 then (9, [9, 5]) else if code = 2 then (13, [13, 12, 2, 1])
  else if code = 3 then (15, [15, 14]) else if code = 4 then (23, [23, 18]) else (31, [31, 28])

/-- The next bit of a pattern and its register, the newest bit lowest. SSPRQ, which the spec names without giving it, is an open
pattern by its place. -/
def prbsNext (code reg : Nat) : Bool × Nat :=
  if code = 6 then (Config.ssprq reg, (reg + 1) % 131070)
  else
    let (w, taps) := prbsTaps code
    let b := taps.foldl (fun a t => a != bit reg (t - 1)) false
    (b, (2 * reg + b2n b) % 2 ^ w)

/-- The next n bits of a pattern. -/
def prbsBits (code : Nat) : Nat → Nat → List Bool × Nat
  | 0, reg => ([], reg)
  | n + 1, reg =>
    let (b, reg) := prbsNext code reg
    let (l, reg) := prbsBits code n reg
    (b :: l, reg)

/-- Where a generator starts: a register of ones. -/
def prbsSeed (code : Nat) : Nat := if code = 6 then 0 else 2 ^ (prbsTaps code).1 - 1

/-- A checker: its register, its run of error-free symbols, locked or not, the errored symbols among the last 1,024, newest
first (R116). -/
structure PrbsChk where
  reg : Nat := 0
  run : Nat := 0
  locked : Bool := false
  win : List Bool := []
  deriving DecidableEq, Repr

/-- The register after a received bit, while unlocked. -/
def prbsLoad (code reg : Nat) (b : Bool) : Nat :=
  if code = 6 then (reg + 1) % 131070 else (2 * reg + b2n b) % 2 ^ (prbsTaps code).1

/-- One received symbol at a checker: the checker after it, the bit errors that it adds, and whether lock was lost (R116).
Unlocked, the register follows the received bits; locked, it runs by itself. -/
def prbsSymbol (code : Nat) (x : PrbsChk) (lev : Nat) : PrbsChk × Nat × Bool :=
  let rx := levelBits lev
  let (want, free) := prbsBits code 2 x.reg
  let errs := (rx.zip want).foldl (fun a p => a + b2n (p.1 != p.2)) 0
  if x.locked then
    let win := (decide (errs ≠ 0) :: x.win).take 1024
    if 32 ≤ (win.filter id).length then ({ x with reg := free, run := 0, locked := false, win := [] }, errs, true)
    else ({ x with reg := free, win := win }, errs, false)
  else
    let dead := decide (code ≠ 6 ∧ x.reg = 0)
    let run := if errs = 0 ∧ !dead then x.run + 1 else 0
    let reg := rx.foldl (prbsLoad code) x.reg
    if 64 ≤ run then ({ reg := reg, run := 0, locked := true, win := [] }, 0, false)
    else ({ x with reg := reg, run := run }, 0, false)

/-- Received symbols at a checker: the checker, the bit errors added, and whether lock was lost. -/
def prbsRun (code : Nat) (x : PrbsChk) (levels : List Nat) : PrbsChk × Nat × Bool :=
  levels.foldl (fun a l => let y := prbsSymbol code a.1 l; (y.1, a.2.1 + y.2.1, a.2.2 || y.2.2)) (x, 0, false)

/-! ### Scrambling and CRCs -/

/-- The self-synchronous scrambler x^58 + x^39 + 1: the scrambled bits and the register, the newest bit lowest. -/
def scramble : Nat → List Bool → List Bool × Nat
  | reg, [] => ([], reg)
  | reg, b :: l =>
    let y := (b != bit reg 57) != bit reg 38
    let (r, reg) := scramble ((2 * reg + b2n y) % 2 ^ 58) l
    (y :: r, reg)

/-- Its inverse. -/
def descramble : Nat → List Bool → List Bool × Nat
  | reg, [] => ([], reg)
  | reg, b :: l =>
    let y := (b != bit reg 57) != bit reg 38
    let (r, reg) := descramble ((2 * reg + b2n b) % 2 ^ 58) l
    (y :: r, reg)

/-- PN-11, x^11 + x^9 + 1: n bits from a register. -/
def pn11 : Nat → Nat → List Bool × Nat
  | 0, reg => ([], reg)
  | n + 1, reg =>
    let b := bit reg 10 != bit reg 8
    let (l, reg) := pn11 n ((2 * reg + b2n b) % 2 ^ 11)
    (b :: l, reg)

/-- CRC-8 over JC1 and JC2, x^8 + x^3 + x^2 + 1, and CRC-5 over the bits of ΣC8D, x^5 + x + 1 (file 06, R206). -/
def jcCrc8 (jc1 jc2 : Nat) : Nat := crcBits 8 0x0D 0 (streamBits 8 [jc1, jc2])
def jcCrc5 (c8d : Nat) : Nat := crcBits 5 0x03 0 (bitsMsb 19 c8d)

end Sys2Proof.Machine
end

