-- ==== Sys2Proof/Machine/Block.lean ====
section
/-! DEFINITION. The units of the path: 64b/66b blocks, their 65-bit form and their groups of 257 bits, block lock, GMP words and
justification bytes, AMP periods, BMP columns, generated ODU-AIS (file 05, R179, R184; file 06, R200 to R223). What the spec takes
from IEEE 802.3 and ITU-T G.709 without stating it is PRESUMED (log 106). -/

namespace Sys2Proof.Machine

open Sys2Proof

/-! ### 64b/66b blocks -/

/-- A block: its two sync bits as a number (1: data, 2: control) and its eight bytes, each sent least significant bit first. -/
structure B66 where
  hdr : Nat
  bytes : List Nat
  deriving DecidableEq, Repr

/-- The 64 bits of a block in transmission order, and a block of 64 bits. -/
def B66.bits (b : B66) : List Bool := b.bytes.flatMap (bitsLsb 8)
def ofBitsLsb (bs : List Bool) : Nat := bs.foldr (fun b a => b2n b + 2 * a) 0
def b66Of (hdr : Nat) (bs : List Bool) : B66 := ⟨hdr, (List.range 8).map (fun k => ofBitsLsb ((bs.drop (8 * k)).take 8))⟩

/-- Kinds of 64b/66b blocks that R212 tells apart: eight idles, a block that holds /S/, data, a block that holds /T/, /E/, a
sequence ordered set, any other. -/
inductive Blk where
  | idle
  | start
  | data
  | term
  | error
  | seqSet
  | other
  deriving DecidableEq, Repr

/-- The eight control characters of a block of type 0x1E. -/
def blkChars (b : B66) : List Nat := (List.range 8).map (fun k => ofBitsLsb ((b.bits.drop (8 + 7 * k)).take 7))

/-- The kind of a block, by its sync header and its block type. -/
def blkKind (b : B66) : Blk :=
  if b.hdr = 1 then .data
  else if b.hdr ≠ 2 then .error
  else
    let t := b.bytes.headD 0
    if t = 0x1E then (if (blkChars b).all (· = 0) then .idle else if (blkChars b).any (· = 0x1E) then .error else .other)
    else if [0x33, 0x66, 0x78].contains t then .start
    else if [0x87, 0x99, 0xAA, 0xB4, 0xCC, 0xD2, 0xE1, 0xFF].contains t then .term
    else if [0x2D, 0x4B, 0x55].contains t then .seqSet
    else .other

/-- The idle control block, the /E/ block, and the local-fault ordered set, as a 10GBASE-R block (code 0) and as any other. -/
def idleBlk : B66 := ⟨2, [0x1E, 0, 0, 0, 0, 0, 0, 0]⟩
def errBlk : B66 := b66Of 2 (bitsLsb 8 0x1E ++ (List.range 8).flatMap (fun _ => bitsLsb 7 0x1E))
def faultBlk (code : Nat) : B66 := if code = 0 then ⟨2, [0x55, 0, 0, 1, 0, 0, 0, 1]⟩ else ⟨2, [0x4B, 0, 0, 1, 0, 0, 0, 0]⟩

/-! ### The 65-bit form (R200) -/

/-- A block with a wrong sync header is written as /E/. -/
def goodBlk (b : B66) : B66 := if b.hdr = 1 ∨ b.hdr = 2 then b else errBlk

/-- The 65 bits of a block. -/
def bits65 (b : B66) : List Bool := decide ((goodBlk b).hdr = 2) :: (goodBlk b).bits

/-- Bits as bytes, the first bit the most significant (R5); zeros fill up to `n` bytes. -/
def packBits (n : Nat) (bs : List Bool) : List Nat := cutBits 8 n (bs ++ List.replicate (8 * n - bs.length) false)
def unpackBits (xs : List Nat) : List Bool := streamBits 8 xs

/-- The blocks in a payload of n bytes: 63 in a full one. -/
def blksIn (n : Nat) : Nat := 8 * n / 65

/-- A payload of n bytes from blocks, and the blocks of a payload. -/
def payloadOf (n : Nat) (bs : List B66) : List Nat := packBits n (bs.flatMap bits65)
def blksOf (payload : List Nat) : List B66 :=
  let bits := unpackBits payload
  (List.range (blksIn payload.length)).map (fun k => b66Of (1 + b2n (bits.getD (65 * k) false)) ((bits.drop (65 * k + 1)).take 64))

/-! ### A line of 66-bit blocks: scrambling and block lock (R211) -/

/-- Blocks as line bits: the sync header in the clear, the block scrambled. -/
def lineBits : Nat → List B66 → List Bool × Nat
  | reg, [] => ([], reg)
  | reg, b :: l =>
    let (y, reg) := scramble reg b.bits
    let (r, reg) := lineBits reg l
    (bitsMsb 2 b.hdr ++ y ++ r, reg)

/-- Block lock: locked or not, the headers tested in the running 64 and the wrong ones among them. -/
structure BlkSync where
  lock : Bool := false
  cnt : Nat := 0
  bad : Nat := 0
  deriving DecidableEq, Repr

/-- One sync header: the lock after it, and whether one bit is to be slipped. -/
def BlkSync.head (x : BlkSync) (ok : Bool) : BlkSync × Bool :=
  if x.lock then
    let bad := x.bad + b2n (!ok)
    if 16 ≤ bad then ({}, true) else if x.cnt + 1 = 64 then ({ lock := true }, false) else ({ x with cnt := x.cnt + 1, bad := bad }, false)
  else if ok then (if x.cnt + 1 = 64 then ({ lock := true }, false) else ({ x with cnt := x.cnt + 1 }, false))
  else ({}, true)

/-- What takes the blocks of a line: lock, the descrambler's register, the bits not yet used. -/
structure BlkRx where
  sync : BlkSync := {}
  reg : Nat := 0
  rest : List Bool := []
  deriving DecidableEq, Repr

/-- Blocks out of line bits, as far as they are locked; `fuel` bounds the headers looked at. -/
def BlkRx.take : Nat → BlkRx → BlkRx × List B66
  | 0, x => (x, [])
  | fuel + 1, x =>
    if x.rest.length < 66 then (x, [])
    else
      let hdr := ofBitsMsb (x.rest.take 2)
      let (sync, slip) := x.sync.head (decide (hdr = 1 ∨ hdr = 2))
      if slip then BlkRx.take fuel { x with sync := sync, rest := x.rest.drop 1 }
      else
        let (bits, reg) := descramble x.reg ((x.rest.drop 2).take 64)
        let (y, bs) := BlkRx.take fuel { sync := sync, reg := reg, rest := x.rest.drop 66 }
        (y, if sync.lock then b66Of hdr bits :: bs else bs)

/-- Line bits arrive. -/
def BlkRx.push (x : BlkRx) (bits : List Bool) : BlkRx × List B66 :=
  let x := { x with rest := x.rest ++ bits }
  BlkRx.take x.rest.length x

/-! ### Groups of 257 bits on an Ethernet lane (R215) -/

/-- Four blocks as 257 bits. All data: a 1 and their 256 bits; otherwise a 0, for each block whether it is data, and their bits but the
second four of the first control block's type. -/
def group257 (bs : List B66) : List Bool :=
  if bs.all (fun b => decide (b.hdr = 1)) then true :: bs.flatMap B66.bits
  else
    let pre := (bs.takeWhile (fun b => decide (b.hdr = 1))).flatMap B66.bits
    let all := bs.flatMap B66.bits
    false :: bs.map (fun b => decide (b.hdr = 1)) ++ all.take (pre.length + 4) ++ all.drop (pre.length + 8)

/-- The block types by their first four bits. -/
def blkTypes : List Nat := [0x1E, 0x2D, 0x33, 0x4B, 0x55, 0x66, 0x78, 0x87, 0x99, 0xAA, 0xB4, 0xCC, 0xD2, 0xE1, 0xFF]

/-- The four blocks of 257 bits; a type that is none makes /E/. -/
def ungroup257 (bits : List Bool) : List B66 :=
  let blk (hdr : Nat) (l : List Bool) (k : Nat) : B66 := b66Of hdr ((l.drop (64 * k)).take 64)
  if bits.headD false then (List.range 4).map (blk 1 (bits.drop 1))
  else
    let data := (bits.drop 1).take 4
    let k := (data.takeWhile id).length
    let body := bits.drop 5
    let nib := ofBitsLsb ((body.drop (64 * k)).take 4)
    match blkTypes.find? (fun t => decide (t % 16 = nib)) with
    | some t =>
      let l := body.take (64 * k + 4) ++ bitsLsb 4 (t / 16) ++ body.drop (64 * k + 4)
      (List.range 4).map (fun j => blk (if data.getD j false then 1 else 2) l j)
    | none => List.replicate 4 errBlk

/-! ### GMP (R204, R206) -/

/-- Word j of a period of pm words carries data when cm words are sent. -/
def gmpData (pm cm j : Nat) : Bool := decide (j * cm % pm < cm)

/-- The words of a period: the data in order, w bytes a word, and stuff words of zeros. -/
def gmpFill (w pm cm : Nat) : Nat → List Nat → List Nat
  | 0, _ => []
  | n + 1, data =>
    if gmpData pm cm (pm - n) then data.take w ++ gmpFill w pm cm n (data.drop w) else List.replicate w 0 ++ gmpFill w pm cm n data

/-- The data of a period's words. -/
def gmpTake (w pm cm : Nat) : Nat → List Nat → List Nat
  | 0, _ => []
  | n + 1, ws => (if gmpData pm cm (pm - n) then ws.take w else []) ++ gmpTake w pm cm n (ws.drop w)

/-- The bits that tell a change of Cm by one or two: which of C1 to C14 are inverted. -/
def jcMask (d : Int) : Nat := if d = 1 then 0x2AAA else if d = -1 then 0x1555 else if d = 2 then 0x1999 else 0x2666

/-- JC1 to JC3 for Cm after the last Cm sent. -/
def jcCm (prev : Option Nat) (cm : Nat) : List Nat :=
  let word (c ii di : Nat) : List Nat := let a := c / 64 % 256; let b := c % 64 * 4 + 2 * ii + di; [a, b, jcCrc8 a b]
  match prev with
  | some p =>
    let d : Int := (cm : Int) - p
    if d = 0 then word cm 0 0 else if d = 1 ∨ d = 2 then word (p ^^^ jcMask d) 1 0
    else if d = -1 ∨ d = -2 then word (p ^^^ jcMask d) 0 1 else word cm 1 1
  | none => word cm 1 1

/-- JC4 to JC6 for ΣC8D: ten bits in the lower fives of JC4 and JC5, further bits above them, the CRC-5 in JC6. -/
def jcC8d (v : Nat) : List Nat :=
  let lo := v % 1024
  let hi := v / 1024
  [hi / 64 % 8 * 32 + lo / 32, hi / 8 % 8 * 32 + lo % 32, hi % 8 * 32 + jcCrc5 (v % 2 ^ 19)]

/-- Cm as JC1 to JC3 give it after the last Cm used; none where the CRC-8 fails or the change indicated does not fit. -/
def readCm (prev : Option Nat) (jc : List Nat) : Option Nat :=
  let a := jc.getD 0 0
  let b := jc.getD 1 0
  let c := a * 64 + b / 4
  let ii := bit b 1
  let di := bit b 0
  if jc.getD 2 0 ≠ jcCrc8 a b then none
  else if ii = di then some c
  else match prev with
    | some p =>
      if ii then (if c ^^^ jcMask 1 = p then some (p + 1) else if c ^^^ jcMask 2 = p then some (p + 2) else none)
      else if c ^^^ jcMask (-1) = p then some (p - 1) else if c ^^^ jcMask (-2) = p then some (p - 2) else none
    | none => none

/-- ΣC8D as JC4 to JC6 give it; none where the CRC-5 fails. -/
def readC8d (jc : List Nat) : Option Nat :=
  let a := jc.getD 3 0
  let b := jc.getD 4 0
  let c := jc.getD 5 0
  let v := a % 32 * 32 + b % 32 + (a / 32 % 8 * 64 + b / 32 % 8 * 8 + c / 32 % 8) * 1024
  if c % 32 = jcCrc5 v then some v else none

/-! ### AMP (R208, R209) -/

/-- The child bytes of an ODTU period with code 0b00, and the frames of the carrier in the period: ODTU12, ODTU13, ODTU23. -/
def ampPeriod (child carrier : Nat) : Nat × Nat :=
  if child = 1 ∧ carrier = 2 then (15232, 4) else if child = 1 then (15168, 16) else (15232, 4)

/-- What a code adds to them: NJO data, or PJO a justification byte. -/
def ampAdjust (code : Nat) : Int := if code = 1 then 1 else if code = 3 then -1 else 0

/-! ### BMP (R210) -/

/-- The columns of an OPU2e row: 1,888 of data, 16 of fixed stuff, 1,904 of data. -/
def bmpFill : Nat → List Nat → List Nat
  | 0, _ => []
  | n + 1, d => d.take 1888 ++ List.replicate 16 0 ++ (d.drop 1888).take 1904 ++ bmpFill n (d.drop 3792)
def bmpTake : Nat → List Nat → List Nat
  | 0, _ => []
  | n + 1, p => p.take 1888 ++ (p.drop 1904).take 1904 ++ bmpTake n (p.drop 3808)

/-! ### Generated ODU-AIS (file 05, R179, R181, R184) -/

/-- A byte of generated ODU-AIS by its place in the frame: the FAS, MFAS, zeros for the OTU overhead, ones. -/
def aisByte (mfas k : Nat) : Nat :=
  if k < 6 then [0xF6, 0xF6, 0xF6, 0x28, 0x28, 0x28].getD k 0 else if k = 6 then mfas % 256 else if k < 14 then 0 else 0xFF

/-- `n` bytes of an ODU's output from byte `k` of the frame `mfas` on; the n positions of an ODUCn go byte by byte in turn. -/
def aisBytes (pos mfas k n : Nat) : List Nat :=
  (List.range n).map (fun i => aisByte (mfas + (k + i) / (pos * 15296)) ((k + i) % (pos * 15296) / pos))

end Sys2Proof.Machine
end

