-- ==== Sys2Proof/Machine/SMap.lean ====
section
/-! DEFINITION. Sparse maps as plain data: a list of (key, value) pairs in strictly rising key order, holding no entry
equal to what an unlisted key reads as. -/

namespace Sys2Proof.Machine

/-- A sparse map from numbers to values. What an unlisted key reads as is given at each access. -/
abbrev SMap (α : Type) := List (Nat × α)

/-- The value at key `k`, or `d` when the key is not listed. -/
def SMap.get {α : Type} (d : α) : SMap α → Nat → α
  | [], _ => d
  | (k', v) :: m, k => if k' = k then v else SMap.get d m k

/-- The map without key `k`. -/
def SMap.erase {α : Type} (m : SMap α) (k : Nat) : SMap α :=
  m.filter (fun e => decide (e.1 ≠ k))

/-- Insert an entry in key order, before the first larger key. -/
def SMap.insert {α : Type} (k : Nat) (v : α) : SMap α → SMap α
  | [] => [(k, v)]
  | (k', v') :: m => if k < k' then (k, v) :: (k', v') :: m else (k', v') :: SMap.insert k v m

/-- Write `v` at key `k`; writing what an unlisted key reads as removes the entry. -/
def SMap.set {α : Type} [DecidableEq α] (d : α) (m : SMap α) (k : Nat) (v : α) : SMap α :=
  if v = d then m.erase k else SMap.insert k v (m.erase k)

/-- Change the value at key `k` by `f`. -/
def SMap.upd {α : Type} [DecidableEq α] (d : α) (m : SMap α) (k : Nat) (f : α → α) : SMap α :=
  m.set d k (f (m.get d k))

/-- Drop every entry whose key meets `p`: those keys read as their reset value again. -/
def SMap.dropWhere {α : Type} (m : SMap α) (p : Nat → Bool) : SMap α :=
  m.filter (fun e => !(p e.1))

/-- The keys stand in strictly rising order. -/
def SMap.sorted {α : Type} : SMap α → Bool
  | [] => true
  | e :: m => m.all (fun e' => decide (e.1 < e'.1)) && SMap.sorted m

/-- The canonical form of a map whose unlisted keys read as `d k`: rising keys, no entry equal to that value. -/
def SMap.canonical {α : Type} [DecidableEq α] (d : Nat → α) (m : SMap α) : Bool :=
  m.sorted && m.all (fun e => decide (e.2 ≠ d e.1))

end Sys2Proof.Machine
end

