-- ==== Sys2Proof/Machine/State.lean ====
section
/-! DEFINITION. The state of the block: registers, tables, events, queues, engines, memory and the queue of waiting
commands, as plain data; the faults and refusals of a step; the state after reset. -/

namespace Sys2Proof.Machine

open Sys2Proof

/-- The event state of one page (file 02, R57 to R59): the sequence number, and for each set event bit and each set
ERR_STATUS bit the bit number with the stamp of its latest recording. -/
structure PageEvt where
  seq : Nat := 0
  evts : List (Nat × Nat) := []
  errs : List (Nat × Nat) := []
  deriving DecidableEq, Repr

/-- A reading of the time base (file 12, R424): seconds, nanoseconds, quality of Table TIM-7. -/
structure Stamp where
  sec : Nat := 0
  ns : Nat := 0
  quality : Nat := 0
  deriving DecidableEq, Repr

/-- A report waiting in a unit's slot of one class (file 15, R507); `n` = 0 is an empty slot. -/
structure Slot where
  n : Nat := 0
  level : Nat := 0
  source : Nat := 0
  mixed : Bool := false
  resends : Nat := 0
  deriving DecidableEq, Repr

/-- The sliding window of one fault state (file 15, R515): the current slice first, then the 15 before it; and the
quiet time left in ms in full (FLT_STATE.quiet_left saturates). -/
structure FltWin where
  slices : List Nat := []
  quiet : Nat := 0
  deriving DecidableEq, Repr

/-- A prompt book entry before it takes its sequence number (file 15, Table FLT-7); `payload` is bytes 20 to 31. -/
structure LogRec where
  time : Stamp := {}
  typ : Nat := 0
  cls : Nat := 0
  source : Nat := 0
  payload : Nat := 0
  deriving DecidableEq, Repr

/-- An open key of the coalescing table (file 15, R524), least recently reported first in the list, with the DP cycle of its last
report. -/
structure CoalKey where
  cls : Nat
  source : Nat
  n : Nat := 0
  level : Nat := 0
  held : Option LogRec := none
  last : Nat := 0
  deriving DecidableEq, Repr

/-- The fault collector and the log writer beyond their tables (file 15): the milliseconds of the age scan since the release of RESET_N
(R515), the report words of this cycle that are accepted and not judged yet, each with its link (R516, R537), and with a FAB cycle's
number + 1: what each write of the ghost light in it stood for, newest first (R530), the entry that the writer wrote in it, as its slot,
its value and what it stands for, and the bank (+ 1) whose failure meets the entry being written in it (R537). -/
structure Col where
  ms : Nat := 0
  words : List (Nat × Nat) := []
  ghost : Nat × List Nat := (0, [])
  wrote : Nat × Nat × Nat × Nat := (0, 0, 0, 0)
  bankDue : Nat × Nat := (0, 0)
  deriving DecidableEq, Repr

/-- A notice of the protection engine (file 07, R248), as the 64-bit PRT_NOTE value. -/
abbrev Notice := Nat

/-- An MSI-X vector of a function (file 13, R453, R454), with the DP cycle of its last message. -/
structure Vec where
  pending : Bool := false
  masked : Bool := true
  sent : Option Nat := none
  deriving DecidableEq, Repr

/-- A PCIe function: VF Enable is a field of the PF; the MSI-X enable and function mask of each function (file 13, R454). -/
structure Fn where
  msixEn : Bool := false
  msixMask : Bool := false
  deriving DecidableEq, Repr

/-- The MODE command that is PENDING (file 16, R543). -/
structure ModeCmd where
  op : Nat
  arg : Nat
  master : Master
  deriving DecidableEq, Repr

/-- The time base accumulator (file 12, R423): seconds, nanoseconds and the fraction of a nanosecond in units of 2^-48 ns. -/
structure TimeBase where
  sec : Nat := 0
  ns : Nat := 0
  frac : Nat := 0
  deriving DecidableEq, Repr

/-- A block's own state: the lead slices of the OTUCn whose forced signals a restart has
not released yet (file 01, R17; a restart runs while there is one), and the lane whose trial started last (file 03, R100). -/
structure Block where
  forcedLeads : List Nat := []
  trialLast : Nat := 3
  deriving DecidableEq, Repr

/-- What a line lane cell holds beyond its registers (file 03): the transmit taps and swing in use (R95), the physical
lanes and inversions latched at the last start (R119; none: never started), the corrected symbols of the last codewords
since codeword lock, newest first, 16 for an uncorrectable one (R99, R101, R110), the codewords for which the burst
trigger stays quiet (R110), the trial's saved settings, progress and turn (R100, R101), the test settings in effect
(R118), the instances with marker lock (R112), and whether the interface's last deskew went beyond the limit (R114); the
gain, the last ADC sample, the CDR's setting and the FFE's 31 side taps in 1/1,024 of the main tap (R96, R98); whether the
transmitter is idle until the lane has adapted to a changed type or rate (R88); on a four-instance lane the stream that is
instance 0 (R128); the levels last sent while in near loopback (R117); the last codeword passed to the layers above,
with the mark that it could not be corrected (R107); and of an Ethernet lane its place in the PCS lane order and the codewords that
wait for those of the client's other lanes (file 06, R215). -/
structure Lane where
  tapM3 : Int := 0
  tapM2 : Int := 0
  tapM1 : Int := 0
  tapP1 : Int := 0
  tapP2 : Int := 0
  swing : Nat := 10
  rxPhys : Option Nat := none
  txPhys : Option Nat := none
  rxInv : Bool := false
  txInv : Bool := false
  recent : List Nat := []
  burstHold : Nat := 0
  baseline : Nat := 0
  dwellCw : Nat := 0
  dwellSyms : Nat := 0
  savedCtle : Nat := 0
  savedDfe : Nat := 0
  savedPhase : Nat := 0
  savedMlse : Nat := 0
  kindNext : Nat := 0
  stepDown : Bool := false
  lbEff : Nat := 0
  genEff : Bool := false
  chkEff : Bool := false
  patEff : Nat := 0
  instLock : Nat := 0
  skewBad : Bool := false
  vga : Nat := 0
  adc : Nat := 0
  cdr : Nat := 0
  ffe : List Int := []
  retrain : Bool := false
  rot : Nat := 0
  loop : List Nat := []
  word : List Nat := []
  wordBad : Bool := false
  pcs : Nat := 0
  words : List (List Nat × Bool) := []
  deriving DecidableEq, Repr

/-- The test pattern circuits of a lane: the generator's register and the checker (file 03, R115, R116; file 09, R344). -/
structure Prbs where
  gen : Nat := 0
  chk : PrbsChk := {}
  deriving DecidableEq, Repr

/-- A defect change waiting at a region's episode tracker (file 05, R191): its DP-cycle stamp, its source (a slice, or a
point), its kind (Table ODU-14), declared or cleared, whether the clearing is an adoption boundary's (R168), and the time of the
change. -/
structure EpiChange where
  stamp : Nat
  point : Bool
  src : Nat
  kind : Nat
  on : Bool
  deconf : Bool := false
  time : Stamp := {}
  deriving DecidableEq, Repr

/-- A region's episode tracker beyond its tables: the queue of changes and the defects present without an episode
(file 05, R192, R193). -/
structure Epi where
  queue : List EpiChange := []
  loose : List EpiChange := []
  deriving DecidableEq, Repr

/-- A slice framer beyond its registers (file 04): the counts c and e of Table OTU-4, the multiframe machine's c, f and
expected (R136), runs of FlexO frames against the state of dGIDM, dPMM, dRPF (R129), the LOM and bond integrators
(R138, R140), whether a member is bond-aligned and its frame phase (R140: where its multiframe starts, in bytes of
slice stream), on the lead slice whether bond misalignment is present, and on transmit the OTUCn's frame count (kept on
the lead slice), the frames left to corrupt (R151, R152), the BIP values of the last two frames and the TTI being
sent, and the GCC0 bytes of the frame being collected from the members of a concatenated channel (R155). Of the integrators
also: the DP cycles of in-frame, in-multiframe and bond-aligned time in a row, the DP cycle (+ 1) in which OOF, OOM and
misalignment last ended and in which the OTU_IF row last changed, and when dLOF, dLOM and dLOM_CN were last declared, with
whether the event bit already stood (R137 to R140). -/
structure Slice where
  c : Nat := 0
  e : Nat := 0
  mfC : Nat := 0
  mfF : Nat := 0
  mfExp : Nat := 0
  mfFirst : Bool := true
  gidRun : Nat := 0
  pmmRun : Nat := 0
  pmmOwn : Bool := false
  rpfRun : Nat := 0
  lomInt : Nat := 0
  bondInt : Nat := 0
  aligned : Bool := false
  misaligned : Bool := false
  phase : Nat := 0
  txMfas : Nat := 0
  corruptLeft : Nat := 0
  txBip : List Nat := []
  ttiTx : Nat := 0
  gcc : List (Nat × List Nat) := []
  ifRun : Nat := 0
  imRun : Nat := 0
  alRun : Nat := 0
  oofEnd : Nat := 0
  oomEnd : Nat := 0
  misEnd : Nat := 0
  chgAt : Nat := 0
  lofAt : Option (Nat × Bool) := none
  lomAt : Option (Nat × Bool) := none
  bondAt : Option (Nat × Bool) := none
  deriving DecidableEq, Repr

/-- Persistence of the STAT defects of one position (Table ODU-10): each defect and its run of frames against it. -/
structure Stat where
  ais : Bool := false
  oci : Bool := false
  lck : Bool := false
  ltc : Bool := false
  iae : Bool := false
  rAis : Nat := 0
  rOci : Nat := 0
  rLck : Nat := 0
  rLtc : Nat := 0
  rIae : Nat := 0
  deriving DecidableEq, Repr

/-- A maintenance point beyond its tables (file 05): STAT persistence by position, BDI and BIAE runs, the TTI being
collected, the last one collected and how often in a row it came, the computed BIP-8 values of the last two frames, the
violations to report back, the dDEG runs, the counts and flags of the running second (Table ODU-13), the second count at
adoption, the generation of the last cue that added or changed the point, and the DP cycle (+ 1) of its last adoption (R168). -/
structure Point where
  adopted : Bool := false
  stats : List Stat := []
  bdiRun : Nat := 0
  iaeRun : Nat := 0
  biaeRun : Nat := 0
  ttiBuf : List Nat := []
  ttiPrev : List Nat := []
  ttiRun : Nat := 0
  ttiSet : Bool := false
  bips : List (Option (List Nat)) := []
  beiPend : Nat := 0
  degBad : Nat := 0
  degGood : Nat := 0
  neutral : Bool := false
  neEb : Nat := 0
  feEb : Nat := 0
  neBip : Nat := 0
  feBei : Nat := 0
  biCnt : Nat := 0
  flags : Nat := 0
  seqBase : Nat := 0
  gen : Nat := 0
  bornAt : Nat := 0
  deriving DecidableEq, Repr

/-- An integrator under R137: the DP cycles counted toward a defect, and the DP cycles without a break toward its clearing. -/
structure Integ where
  n : Nat := 0
  ok : Nat := 0
  deriving DecidableEq, Repr

/-- A multiframe machine of R136: in multiframe, its counts c and f, the number expected, and whether the next frame is its
first. -/
structure Mf where
  im : Bool := false
  c : Nat := 0
  f : Nat := 0
  exp : Nat := 0
  first : Bool := true
  deriving DecidableEq, Repr

/-- A context beyond its tables (file 05): the SUSPECT hold of a raw trigger (file 07, R234), the all-ones replacement
(R179), the frame and multiframe machines of the demultiplexed ODU (Table ODU-10), on egress the frame machine of the reassembled
stream (file 09, R324), the payload type being accepted, the
CSF run, the MSI entries being accepted (value and run) and accepted (value + 1), and on egress the count of the next frame and the
BIP values of the last two frames sent, each position's (R172); of the alignment stamp (file 08, R271, R272) the runs of agreeing and
of failing instances, the F expected of the next instance, and on egress the F of the last frame by the context's own counter; on
ingress the worst leg status since the last segment of its flow was cut (file 09, R321); the machine of OMFI and the integrators of
dLOFLOM and dLOOMFI (Table ODU-10), and on egress the OMFI of the next frame (G.709: 0 to 79); and whether the context's output is
ODU-AIS since the frame that began last, and whether it was in the frame before (R181). -/
structure Ctx where
  trig : Bool := false
  fill : Bool := false
  fst : Nat := 0
  fc : Nat := 0
  fe : Nat := 0
  mfIm : Bool := false
  mfC : Nat := 0
  mfF : Nat := 0
  mfExp : Nat := 0
  mfFirst : Bool := true
  ptCand : Nat := 0
  ptRun : Nat := 0
  ptAcc : Option Nat := none
  csfRun : Nat := 0
  msiCand : SMap Nat := []
  msiRun : SMap Nat := []
  msiAcc : SMap Nat := []
  txMfas : Nat := 0
  txBip : List Nat := []
  stRun : Nat := 0
  stBad : Nat := 0
  stNext : Nat := 0
  stTx : Option Nat := none
  worst : Nat := 0
  omfi : Mf := {}
  lo : Integ := {}
  om : Integ := {}
  txOmfi : Nat := 0
  ais : Bool := false
  aisOld : Bool := false
  deriving DecidableEq, Repr

/-- A closed second waiting for the PM store (R186 to R188). -/
structure PmFrame where
  sec : Nat
  quality : Nat
  count : Nat
  stepped : Bool
  resetRegions : List Nat
  recs : List (Nat × Nat)
  deriving DecidableEq, Repr

/-- An ODU frame as an egress context sends it (file 05, R172, R184; file 07, R232, R255; file 08, R271), as far as the spec's rules
state it: its MFAS, what its OPU carries (0 the received OPU, 1 AIS, 2 LCK, 3 OCI, 4 null, 5 a client, 6 multiplexed ODUs), the PM and
TCM fields of each position, its PSI byte, at the start of a multiframe the MSI entry of each slot of a carrier (0 unallocated,
tpn + 1 otherwise), on an ODU4 carrier OMFI, the EXP bytes, GCC1, GCC2 and APS/PCC, and where the device forms the payload of the OPU
itself its 4 × 3,808 bytes with the justification control bytes before them (file 06, R210). -/
structure OduSent where
  mfas : Nat
  opu : Nat
  layers : List (List (Option LayerOh))
  psi : Option Nat
  msi : List Nat
  exp : Option (Nat × Nat)
  gcc1 : Option (List Nat)
  gcc2 : Option (List Nat)
  aps : Option (List Nat)
  omfi : Option Nat := none
  payload : List Nat := []
  jc : List Nat := []
  deriving DecidableEq, Repr

/-- A client's mapper, demapper or line client, or an egress context's input, beyond its tables (file 06): the buffer, as bytes of a
bit stream or of an ODU (`bytes`) or as blocks (`buf`), the blocks recovered on ingress and not yet cut into segments (`rx`), the
blocks a line client's PCS has not sent yet (`tx`), the scrambler's register, line bits that fill no byte yet, the receiver of the
blocks (block lock and descrambler), the register of PN-11, a packet being refused and the next one to be refused (R213), whether the
last block sent was idle or held /T/ (R212), how much the last segment brought (file 07, R231), runs of server periods that used the
previous and the received Cm (R207), o_snap, o_fill and the last valid snapshot in units of 2^-7 ppm, runs of segments with and
without a valid snapshot (R217, R218), the periods measured of a line client (R201), and on a line client the SUSPECT hold (R220)
and the worst leg status since the last segment of its flow was cut (file 09, R321), and the codewords sent (R215). -/
structure Cli where
  bytes : List Nat := []
  buf : List B66 := []
  rx : List B66 := []
  tx : List B66 := []
  scr : Nat := 0
  part : List Bool := []
  recv : BlkRx := {}
  pn : Nat := 2047
  refusing : Bool := false
  full : Bool := false
  lastSep : Bool := false
  lastIn : Nat := 0
  prevRun : Nat := 0
  recvRun : Nat := 0
  oSnap : Int := 0
  oFill : Int := 0
  snap : Int := 0
  goodRun : Nat := 0
  badRun : Nat := 0
  periods : Nat := 0
  trig : Bool := false
  worst : Nat := 0
  cws : Nat := 0
  deriving DecidableEq, Repr

/-- One GMP process of a context (file 06): the rate generator's fraction in 2^-40 byte, the residue, the previous Cm and
ΣC8D, the client byte counts of the last 1,024 periods, newest first, the offset measured (R201; 0x8000 if none), and the bytes of the
ODU that the last period brought, as they go to its framer. An AMP process keeps its last JC code in cPrev, and in `dev` by how many
bytes the child's buffer is fuller than its centre (R208). -/
structure Gmp where
  frac : Nat := 0
  res : Nat := 0
  cPrev : Option Nat := none
  c8d : Nat := 0
  hist : List Nat := []
  offset : Nat := 0x8000
  data : List Nat := []
  dev : Int := 0
  deriving DecidableEq, Repr

/-- What the events of a DP cycle found in a group (file 07, R31, R261): the leg conditions before them, whether the selected leg has just
become SUSPECT, whether wait-to-restore has run out, and whether the selected leg's status changed. -/
structure GrpWas where
  w : Nat
  p : Nat
  susp : Bool
  wtrEnd : Bool
  moved : Bool
  deriving DecidableEq, Repr

/-- A selector group beyond its status entry (file 07): the leg conditions in the request logic (0 none, 1 SD, 2 SF; R238),
the selector position apart from a provisional switch, whether the confirmation timer has run out (R252), the bytes that a
software group transmits (none: NR with its type bits), and whether its switched bridge is commanded bridged (R232). Of the DP cycle
under way (R261): whether an event of the group waits for its evaluation, the legs whose hold-off has run out (bit 0 W, bit 1 P),
whether wait-to-restore has, what the events found, the cycle + 1 of its adoption, and the bytes sent before a SET_APS with the
cycle + 1 of that command. -/
structure Grp where
  wCond : Nat := 0
  pCond : Nat := 0
  base : Nat := 0
  confEnd : Bool := false
  apsTx : Option Nat := none
  bridge : Bool := false
  due : Bool := false
  hoEnd : Nat := 0
  wtrEnd : Bool := false
  was : Option GrpWas := none
  bornAt : Nat := 0
  apsOld : Option Nat := none
  apsAt : Nat := 0
  deriving DecidableEq, Repr

/-- An APS channel beyond its tables (file 07): the message being accepted and how often in a row it came, whether a
message has been accepted since adoption (R245), whether the next message is taken without a δ judgement (R257), and the
alive counter to send (R256), and the DP cycle + 1 of the last valid message (R259). -/
structure Aps where
  cand : Nat := 0
  run : Nat := 0
  accEver : Bool := false
  first : Bool := true
  aliveTx : Nat := 0
  hitAt : Nat := 0
  deriving DecidableEq, Repr

/-- A command in the protection engine's queue (file 07, R243). -/
structure PrtReq where
  who : Who
  op : Nat
  grp : Nat
  arg : Nat
  deriving DecidableEq, Repr

/-- A segment held in a reorder window (file 09, R330, R331), its leg as judged on arrival; `repl` says that its payload is
the replacement signal of a client (file 07, R233). -/
structure RxHeld where
  seg : Seg
  repl : Bool
  use : HbmUse
  deriving DecidableEq, Repr

/-- A receive flow beyond its tables: a lost placeholder was released last (file 09, R333), the last segment's payload was
the replacement signal of a client with snapshot 0x8000 (file 07, R233), and the segments held in the window (R331). -/
structure FlowOut where
  lost : Bool := false
  repl : Bool := false
  held : List RxHeld := []
  deriving DecidableEq, Repr

/-- The key tracking of one leg of a wings group (file 08, R277): the group start's F and the segment index, while known. -/
structure LegKey where
  known : Bool := false
  fg : Nat := 0
  i : Nat := 0
  deriving DecidableEq, Repr

/-- A segment of a leg at stage 3 that the playout point has not passed (file 08, R282): its key, the DP cycle of its arrival, its leg
status, whether it is present, its snapshot, and its payload where the staging buffer holds it. -/
structure Wseg where
  key : Nat
  at_ : Nat
  leg : Nat
  ok : Bool
  snap : Nat
  payload : List Byte
  deriving DecidableEq, Repr

/-- A wings group beyond its tables (file 08): the selector group it was adopted for, the key tracking of W and P, the unread segments
of each leg, group starts waiting for the other leg (key and cycle), the last 16 delay samples in DP cycles and how many since ACQUIRE,
the playout point, the last key of each leg, the status of each leg's last data at stage 4, the roles with which the ring is written
(0 W early), the hole list (R293), the first key missed since the stack failed, whether SWAP_WAIT plays live (R286), the direction of a
re-centring slew (-1 slow, 1 fast) and what it has moved beyond whole ns (R281), what each leg had at the last playout point (snapshot
and payload; file 07, R231), and of the DP cycle under way whether the group asks for a slot (R300), the cycle + 1 of its adoption, and
that of the last ack_fail. -/
structure Wgrp where
  grp : Option Nat := none
  keyW : LegKey := {}
  keyP : LegKey := {}
  haveW : List Wseg := []
  haveP : List Wseg := []
  seenW : List (Nat × Nat) := []
  seenP : List (Nat × Nat) := []
  samples : List Int := []
  nSamples : Nat := 0
  playout : Option Nat := none
  topW : Option Nat := none
  topP : Option Nat := none
  stW : Nat := 0
  stP : Nat := 0
  wrRole : Nat := 0
  holes : List (Nat × Nat) := []
  missFrom : Option Nat := none
  live : Bool := false
  slew : Int := 0
  slewAcc : Nat := 0
  outW : Option (Nat × List Byte) := none
  outP : Option (Nat × List Byte) := none
  ask : Bool := false
  bornAt : Nat := 0
  ackAt : Nat := 0
  deriving DecidableEq, Repr

/-- A write that the wings arbiter holds (file 08, R292, R293): group, key, leg status, snapshot, whether present, payload. -/
structure HbmWr where
  w : Nat
  key : Nat
  leg : Nat
  snap : Nat
  ok : Bool
  payload : List Byte
  deriving DecidableEq, Repr

/-- The wings arbiter (file 08, R292): transactions outstanding, and the reads (group, key) and writes held, oldest first. -/
structure Hbm where
  now : Nat := 0
  reads : List (Nat × Nat) := []
  writes : List HbmWr := []
  deriving DecidableEq, Repr

/-- The stamp counter of a bridge (file 08, R271): the F of its source's last frame, and the frames that one output (0 working, 1
protection) has sent and the other has not yet. -/
structure BrgCnt where
  f : Option Nat := none
  ahead : Nat := 0
  todo : List Nat := []
  deriving DecidableEq, Repr

/-- The transmitter settings in use on a Fybry lane (file 09, R308). -/
structure FyTap where
  m1 : Int := 0
  p1 : Int := 0
  swing : Nat := 10
  inv : Bool := false
  deriving DecidableEq, Repr

/-- The coding of a Fybry lane on transmit (file 09, R312, R313): the bits of the codeword being formed, the codewords sent modulo
4,096, and the scrambler. -/
structure FyTx where
  bits : List Bool := []
  cw : Nat := 0
  scr : Nat := 0
  deriving DecidableEq, Repr

/-- A Fybry lane on receive (file 09, R310, R312, R314): whether it arrives inverted, the codewords since its marker modulo 4,096, the
descrambler, the data blocks of the last codeword with their header bits and the mark that it could not be corrected, and the receiver
chain: CTLE and DFE as start-up set them, gain, CDR, last ADC sample, the 15 side taps of the FFE in 1/1,024 of the main tap. -/
structure FyRx where
  inv : Bool := false
  cw : Nat := 0
  scr : Nat := 0
  blocks : List (Bool × List Nat) := []
  bad : Bool := false
  ctle : Nat := 0
  dfe : Nat := 0
  vga : Nat := 0
  cdr : Nat := 0
  adc : Nat := 0
  ffe : List Int := []
  deriving DecidableEq, Repr

/-- A Fybry link beyond its registers (file 09): start-up adaptation complete (R310), the taps of each lane (R308), the
logical number (+ 1) and the arrival lag in 0.5 ns steps of each lane with marker lock (R314, R315), the last codewords of
each lane, newest first, true for an uncorrectable one (R337), its transmit queues per class with the transmit flow of each
segment (R326), the units sent, returned and freed per class and the limits received (R328, R329), the class whose count
the next header carries, whether its position has left the distribution list (R339), the test settings in effect with
the lanes whose checker has lock (R344, R345), the offline markers still to be sent (R335), the coding of each lane in both
directions, the bytes of the segment stream not yet in a block, each with whether a header begins there, the lane of the next data
block (R315), the levels last sent on each lane in near loopback, and the DP cycle (+ 1) of its last failure condition (R341). -/
structure Fyl where
  trained : Bool := false
  taps : SMap FyTap := []
  logical : SMap Nat := []
  lags : SMap Nat := []
  recent : SMap (List Bool) := []
  q0 : List (Nat × Seg) := []
  q1 : List (Nat × Seg) := []
  sent0 : Nat := 0
  sent1 : Nat := 0
  ret0 : Nat := 0
  ret1 : Nat := 0
  lim0 : Nat := 0
  lim1 : Nat := 0
  freed0 : Nat := 0
  freed1 : Nat := 0
  ccls : Nat := 0
  left : Bool := false
  lbEff : Nat := 0
  genEff : Nat := 0
  chkEff : Nat := 0
  patEff : Nat := 5
  prbsLock : Nat := 0
  off : List (Nat × Seg) := []
  tx : SMap FyTx := []
  rx : SMap FyRx := []
  rest : List (Nat × Bool) := []
  nextLane : Nat := 0
  loop : SMap (List Nat) := []
  failAt : Nat := 0
  unalignAt : Nat := 0
  deriving DecidableEq, Repr

/-- A transmit flow (file 09, R323; file 08, R274): its next sequence number, and whether a stamped flow is on the grid of
eight-frame groups, and there the index of its next segment and the MFAS of its group's first frame. -/
structure TxFlow where
  next : Nat := 0
  onGrid : Bool := false
  idx : Nat := 0
  mf0 : Nat := 0
  deriving DecidableEq, Repr

/-- A complete packet of a capture queue (file 10, R361, R362): its header's flags and length, whether the header word has a
parity error, and its data words with theirs. -/
structure Pkt where
  hdr : Nat
  hdrBad : Bool := false
  words : List (Nat × Bool)
  deriving DecidableEq, Repr

/-- A capture channel (file 10): the complete packets not yet entered, the words left of the packet the reader is in,
whether packets were lost since the last one delivered, the packet being captured (its bytes after destuffing), whether a
flag has been seen, an escape is open, the rest is being discarded (R366) and how many raw bytes of it, the last APS message
captured, a pending FLUSH with how many packets it covers and whose statuses it ends (R368), and the DP cycle (+ 1) of the last FLUSH. -/
structure CapQ where
  done : List Pkt := []
  cur : List (Nat × Bool) := []
  inside : Bool := false
  lostBefore : Bool := false
  buf : List Nat := []
  sync : Bool := false
  esc : Bool := false
  drop : Bool := false
  skip : Nat := 0
  last : Option (List Nat) := none
  flush : Option (Nat × List Nat) := none
  flushAt : Nat := 0
  deriving DecidableEq, Repr

/-- An insertion channel (file 10): the committed packets not begun, the words left of the packet begun, the packet being
written with its bytes and its writer's code, whether its rest is discarded (R365), the bytes ready to send, the frame check
sequence so far and whether the FCS is still to come, the flags due before the next frame (R358), the APS message being sent,
a pending FLUSH, and the DP cycle (+ 1) of the last FLUSH. -/
structure InsQ where
  done : List (List (Nat × Bool)) := []
  cur : List (Nat × Bool) := []
  inside : Bool := false
  wr : List (Nat × Bool) := []
  wrBytes : Nat := 0
  writer : Option Nat := none
  skip : Bool := false
  ready : List Nat := []
  fcs : Nat := 0
  body : Bool := false
  flags : Nat := 1
  msg : List Nat := [0, 0, 0, 0]
  flush : Option (Nat × List Nat) := none
  flushAt : Nat := 0
  deriving DecidableEq, Repr

/-- The open stream of a check unit (file 10, R372 to R376): the register, the bits presented, the alive bits among them,
and whether the next alive value is taken without judging. -/
structure ChkUnit where
  reg : Nat := 0
  n : Nat := 0
  alive : Nat := 0
  first : Bool := true
  deriving DecidableEq, Repr

/-- A frame in a receive queue of the stage door port (file 11, R386): its bytes, whether it was cut, its timestamp. -/
structure RxFrame where
  bytes : List Nat
  trunc : Bool
  stamp : Option Nat
  deriving DecidableEq, Repr

/-- The frame that a master is reading: the bytes left. -/
abbrev RxCur := List Nat

/-- A committed frame of a transmit queue (R387, R388): its bytes, the DP cycle of its commit, its writer's status page and
the number of its START. -/
structure TxFrame where
  bytes : List Nat
  commit : Nat
  who : Nat
  id : Nat
  deriving DecidableEq, Repr

/-- The frame that a master is writing (R387): its queue, its length, the bytes written, the number of its START. -/
structure TxWrite where
  active : Bool := false
  q : Nat := 0
  len : Nat := 0
  bytes : List Nat := []
  id : Nat := 0
  deriving DecidableEq, Repr

/-- The call board's one-frame transmit buffer (R396): type, destination, length, payload written, the writer's status page. -/
structure CbbTx where
  typ : Nat
  dst : Nat
  len : Nat
  bytes : List Nat
  who : Nat
  deriving DecidableEq, Repr

/-- A frame in the call board's receive queue (R396). -/
structure CbbFrame where
  src : Nat
  typ : Nat
  payload : List Nat
  deriving DecidableEq, Repr

/-- A PPS input (file 12, R426): edges in a row 1 s apart, the time base reading of the last edge and of the last accepted
edge, in ns (moved with each step of the time base). -/
structure PpsIn where
  runs : Nat := 0
  last : Option Int := none
  lastAcc : Option Int := none
  deriving DecidableEq, Repr

/-- What a differential clock output carries (file 12, R420 to R422): its source (a line lane, or a clock unit whose reference it copies),
that clock's frequency in Hz, the divider k, the format and the amplitude of Table TIM-5. -/
structure ClkPin where
  src : Nat
  hz : Nat
  k : Nat
  fmt : Nat
  amp : Nat
  deriving DecidableEq, Repr

/-- The discipline of the time base beyond its registers (file 12): the seconds a set_sec waits to load, the second that the
next PPS edge marks and bytes 10 to 12 of the last valid ToD message, accepted edges in a row without one, the remaining
offset ρ in ns and the slew σ in ppm, φ at the last 60 accepted edges (newest first, 2^-16 ppm), the last offset while it
stands, accepted edges in a row within the lock limit (at most 2), whether the quality has been LOCKED, whether the holdover
limit has passed, how far the slew in progress has moved (in 2^-48 × 10^-6 ns), a step due in the next DP cycle (R429), the DP cycle
(+ 1) of the last accepted edge of the active input, and what the clock output pins carry (R420 to R422). -/
structure Tim where
  setSec : Option Nat := none
  todNext : Option Nat := none
  todLast : List Nat := [0, 0, 0]
  todMiss : Nat := 0
  rho : Int := 0
  sigma : Int := 0
  phis : List Int := []
  theta : Option Int := none
  lockRun : Nat := 0
  everLocked : Bool := false
  expired : Bool := false
  moved : Nat := 0
  stepDue : Option Int := none
  accAt : Nat := 0
  rclk : List (Option ClkPin) := []
  refPin : Option ClkPin := none
  deriving DecidableEq, Repr

/-- A re-band (file 12, R414): none, held for the reference, or running. -/
inductive Reband where
  | none | held | running
  deriving DecidableEq, Repr

/-- A clock unit beyond its registers (file 12): the reference type, spread and firmware spread of its last completed re-band
(R411, R416), whether it has a band, its re-band, the reference type that one has chosen a band for, and the status pages of
its requesters (R414); whether its reference has no edges (R417). -/
structure Csu where
  refType : Nat := 0
  ssc : Nat := 0
  fwSsc : Nat := 0
  banded : Bool := false
  reband : Reband := .none
  selType : Nat := 0
  waiting : List Nat := []
  dead : Bool := true
  deriving DecidableEq, Repr

/-- What a PENDING UPDATE waits for (file 16, R555): the lanes and links it re-adapts, and the links that had failed before it. -/
structure Upd where
  lanes : List Nat := []
  links : List Nat := []
  failed : List Nat := []
  deriving DecidableEq, Repr

/-- A firmware image (file 14, R476): its bytes, header included, and the source it was read from: 0 primary, 1 secondary,
2 push. -/
structure Image where
  bytes : List Nat
  source : Nat
  deriving DecidableEq, Repr

/-- An image push (file 14, R502): its kind, its stated length, the bytes received. -/
structure Push where
  kind : Nat
  len : Nat
  bytes : List Nat := []
  deriving DecidableEq, Repr

/-- Which domains run: all; only AON, while RESET_N is low (file 17, R581), after the core unit was gated (file 12,
Table TIM-4) or in DARK (file 16, R560). -/
inductive Dom where
  | run | reset | stopped | dark
  deriving DecidableEq, Repr

/-- A configuration digest (file 15, R535): its 48 bytes, the device cue generation it covers; none computed: no bytes. -/
structure Digest where
  hash : List Nat := []
  gen : Nat := 0
  deriving DecidableEq, Repr

/-- A running cue (file 02, R72 to R80): its issuing requester, its turn for the image check value and whether it still waits for
it, and the accepted rows not in effect yet, each with whether its content changed. -/
structure Cue where
  who : Nat := 0
  turn : Nat := 0
  crc : Bool := false
  rows : List (Nat × Bool) := []
  deriving DecidableEq, Repr

/-- The counts of one direction of a PM bin (file 14, Table FWT-16). -/
structure PmCnt where
  es : Nat := 0
  ses : Nat := 0
  bbe : Nat := 0
  uas : Nat := 0
  deriving DecidableEq, Repr

/-- A PM bin: its first second, near-end and far-end counts, its flags. -/
structure PmBin where
  start : Nat := 0
  near : PmCnt := {}
  far : PmCnt := {}
  part : Bool := false
  susp : Bool := false
  deriving DecidableEq, Repr

/-- Unavailable time of one direction (file 14, R499): whether it runs, and the last seconds that may still end or begin it, newest
first, each with its errored blocks. -/
structure PmAvail where
  ua : Bool := false
  pend : List (Nat × Nat) := []
  deriving DecidableEq, Repr

/-- The bins of a point: the running 15-minute and 24-hour bins, the past ones newest first, availability; `on` once a second has
been binned. -/
structure PmBins where
  on : Bool := false
  cur15 : PmBin := {}
  past15 : List PmBin := []
  cur24 : PmBin := {}
  past24 : List PmBin := []
  near : PmAvail := {}
  far : PmAvail := {}
  deriving DecidableEq, Repr

/-- A personality reset that a message asked for (file 14, Table FWT-16): how far it is (1: region 2p is to
be asked for, 2: it resets, 3 and 4: region 2p + 1 likewise), whether it clears, and the frame that asked for it: its sender's address and its tag; none for the mailbox. -/
structure PersReset where
  phase : Nat := 0
  clear : Bool := false
  frame : Option (List Nat × Nat) := none
  deriving DecidableEq, Repr


/-- What a read or request was answered: a status (Table HST-6 for a bus request, the service's own code elsewhere) and
the words returned. The model's own record of the last answer. -/
structure Reply where
  status : Nat := 0
  data : List Nat := []
  deriving DecidableEq, Repr

/-- What the device sends to the outside. -/
inductive Out where
  /-- An MSI-X message of a function's vector (file 13, R454). -/
  | msix (box vector addr data : Nat)
  /-- Bytes written to host memory with a function's requester ID (file 13, R456, R457; file 15, R532). -/
  | hostWrite (box addr : Nat) (bytes : List Byte)
  /-- PAM4 levels on the transmit balls LN_TX_P/N of a number (file 03, R90, R119). -/
  | line (ball : Nat) (levels : List Nat)
  /-- One bit of a lane's test pattern generator inverted (file 03, R116). -/
  | prbsBitInverted (lane : Nat)
  /-- An instance sent by an egress slice: PID, GID and STAT.RPF of its FlexO overhead, row 1, columns 1 to 14, of its OTUC
  frame, and whether the rest of the frame is ODUCn-AIS (file 04, R128, R130, R151, R152, R154). -/
  | otucFrame (slice pid gid : Nat) (rpf : Bool) (row1 : List Nat) (ais : Bool)
  /-- An unused instance sent, or the content of one in place of a slice's frame: PID, GID, STAT.RPF and an all-zero OTUC
  payload (file 04, R125, R128, R130, R154). -/
  | unusedInstance (slice pid gid : Nat) (rpf : Bool)
  /-- An ODU frame sent by an egress context. -/
  | oduFrame (block slot : Nat) (x : OduSent)
  /-- A GMP server period sent by an egress context: Cm and ΣC8D, JC1 to JC6, and the words (file 06, R204 to R206); `mux` for the ODU
  in its carrier. -/
  | gmpPeriod (block slot : Nat) (mux : Bool) (cm c8d : Nat) (jc words : List Nat)
  /-- An AMP period sent for a child: the three JC copies and the child's bytes in it (file 06, R208). -/
  | ampJc (block slot : Nat) (jc data : List Nat)
  /-- A block, scrambled, that an IMP mapper puts into its OPUflex payload (file 06, R211). -/
  | impBlock (block slot : Nat) (bits : List Bool)
  /-- A segment sent on a Fybry link (file 09, R316, R327). -/
  | segment (link : Nat) (seg : Seg)
  /-- PAM4 levels on the transmit balls of lane k of a Fybry link (file 09, R311). -/
  | fybryLine (link lane : Nat) (levels : List Nat)
  /-- One bit of a Fybry lane's test pattern generator inverted (file 09, R344). -/
  | fybryBitInverted (link lane : Nat)
  /-- A frame sent by the stage door port, padded, with its FCS (file 11, R387, R388). -/
  | sdpFrame (bytes : List Nat)
  /-- The bit times that the device drives on the call board bus, CBB_DE high (file 11, R394). -/
  | cbbFrame (line : List Bool)
  /-- The correctionField that a line client's event message leaves with (file 12, R435). -/
  | ptpCorrection (lane : Nat) (tx : Bool) (value : Nat)
  /-- A rising edge of a PPS output, with its width in µs (file 12, R428). -/
  | ppsOut (j width : Nat)
  /-- A message on TOD_OUT (file 12, Table TIM-6). -/
  | todOut (line : List Bool)
  deriving DecidableEq, Repr

/-- The copies of SDP_CFG.speed, SDP_MAC, mc_en and promisc that AON takes at the entry to DARK (file 11, R399). -/
structure SdpAon where
  speed : Nat := 1
  addr : Nat := 0
  mcEn : Bool := true
  promisc : Bool := false
  deriving DecidableEq, Repr

/-- The call board's schedule (file 11, R401): one of its own centres C_k on the AON clock in 0.5 µs, whether a beacon of the same
cycle as a window's close still belongs to that window (R402), whether a beacon waits to be retried (R396), and whether a POLL was heard
since the device last idled (R406). The stage door port's: what AON took of its registers at the entry to DARK (R399), the half-range
bits that rose in a DP cycle (its number + 1, the bits; R391), and the wake filter that matched since the device last idled (R406). -/
structure Door where
  centre : Nat := 0
  shut : Bool := false
  retry : Bool := false
  polled : Bool := false
  aon : SdpAon := {}
  halfAt : Nat × Nat := (0, 0)
  wakeNow : Option Nat := none
  deriving DecidableEq, Repr

/-- The host interface and the bus matrix beyond their registers (file 13): the host memory requests so far (HST_TXN.seq), whether
INT_N is low (R455), and with a FAB cycle's number + 1: what owners, windows and vector map entries changed in it held before, each under
its table or register key (R447, R465), the functions whose requests it carried, each with whether one was a write (R460), and the
mailbox rings it refused as busy: page, ringing master, and whether busy_refused stood before (file 14, R500), the master code of the MODE
command taken in it (file 16, R543), and the cycle of the last release of RESET_N (R565). -/
structure Hst where
  seq : Nat := 0
  intLow : Bool := false
  was : Nat × List ((Bool × Nat) × Nat) := (0, [])
  ids : Nat × List (Nat × Bool) := (0, [])
  rings : Nat × List (Nat × Nat × Bool) := (0, [])
  modeBy : Nat × Nat := (0, 0)
  released : Nat := 0
  deriving DecidableEq, Repr

/-- The life counters beyond their registers (file 16, R564), in AON: the 8-bit fraction of MODE_LIFE_STRESS, and the highest reading of
this second in 1/16 °C. -/
structure Life where
  frac : Nat := 0
  top : Option Int := none
  deriving DecidableEq, Repr

/-- The state of the device. -/
structure State where
  /-- The commands that are waiting, first in, first out. -/
  pending : List Instr := []
  /-- What the device sent to the outside in the last command (the model's own record). -/
  out : List Out := []
  /-- What the last read, request or message was answered (the model's own record). -/
  reply : Option Reply := none
  /-- How many free values have been taken (the model's own counter: see Config.freeValue). -/
  freeCtr : Nat := 0
  /-- DP cycles since the release of RESET_N, advanced by a step on an empty queue. -/
  dpCycle : Nat := 0
  /-- Register fields, by page, offset and lowest bit; an unlisted field holds its reset value. -/
  regs : SMap Nat := []
  /-- The second and third copies of the RV fields (file 02, R61). -/
  regsB : SMap Nat := []
  regsC : SMap Nat := []
  /-- Table entries: the committed copy of a staged table, the only copy of another. -/
  tabs : SMap Nat := []
  /-- The second and third copies of the voted tables OWN, EN_GRANT and FLT_POLICY. -/
  tabsB : SMap Nat := []
  tabsC : SMap Nat := []
  /-- The staged copies of the staged tables (file 02, R67). -/
  staged : SMap Nat := []
  /-- Dirty marks: a staged row's key holds the code of the requester that wrote it plus 1 (file 02, R71). -/
  dirty : SMap Nat := []
  /-- The event state of each page. -/
  events : SMap PageEvt := []
  /-- The device cue generation (file 02, R77). -/
  devGen : Nat := 0
  /-- HBM content: an unlisted address reads 0. -/
  mem : List Host.Cell := []
  /-- Report slots, at 32 × link + class (file 15, R507). -/
  slots : SMap Slot := []
  /-- Windows and full quiet times of the 288 fault states. -/
  fltWin : SMap FltWin := []
  /-- The collector and the log writer beyond their tables. -/
  col : Col := {}
  /-- The log writer's input queue, and records their producers hold while it is full (file 15, R523). -/
  logQ : List LogRec := []
  logHeld : List LogRec := []
  /-- The coalescing table and the skip count of each class (file 15, R524, R525). -/
  coalKeys : List CoalKey := []
  skips : SMap Nat := []
  /-- PCIe functions, whether VFs are enabled and how many, and MSI-X vectors at 2,048 × box + vector. -/
  fns : SMap Fn := []
  numVfs : Nat := 0
  vecs : SMap Vec := []
  /-- Notice queues: the PRT queue at key 512, box n's at key n (file 07 R248, file 13 R452). -/
  notices : SMap (List Notice) := []
  /-- The PENDING command of the MODE page (file 16, R543). -/
  modeCmd : Option ModeCmd := none
  /-- Regions in RESET whose L3 action is deferred (file 16, R554). -/
  deferredIso : List Nat := []
  /-- The time base. -/
  tb : TimeBase := {}
  /-- The 64 blocks, by device block number. -/
  blk : SMap Block := []
  /-- The rows in effect: what the datapath has adopted of the committed copies (file 02, R78). -/
  live : SMap Nat := []
  /-- The 256 line lane cells, and the test pattern circuits: of line lane n at n, of lane k of Fybry link m at 256 + 8m + k. -/
  lanes : SMap Lane := []
  prbs : SMap Prbs := []
  /-- The eight episode trackers. -/
  epi : SMap Epi := []
  /-- The 1,024 slice framers, by device slice number. -/
  slices : SMap Slice := []
  /-- The maintenance points, by point number. -/
  points : SMap Point := []
  /-- The contexts, at 1,024 × (2 × block + direction) + block slot. -/
  ctxs : SMap Ctx := []
  /-- Seconds closed since reset, from which the record numbers count (Table ODU-13). -/
  secCount : Nat := 0
  /-- Seconds closed whose records are not all in the PM store, oldest first: the second, its time quality, and the records
  (as 256-bit values) of the points that have any state (R186, R188). -/
  pmPend : List PmFrame := []
  /-- The time base stepped within the running second (R189). -/
  tbStepped : Bool := false
  /-- Clients: of a context at its context key, of a line client at 131,072 + lead lane. -/
  clis : SMap Cli := []
  /-- GMP and AMP processes, at 2 × context key, + 1 for that of the ODU in its carrier. -/
  gmps : SMap Gmp := []
  /-- Selector groups by device group number G, APS channels, and the protection engine's command queue. -/
  grps : SMap Grp := []
  apss : SMap Aps := []
  prtQ : List PrtReq := []
  /-- Overrides that overwrote a valid SFP_REC entry (file 07, R247: sfp_overwrite). -/
  sfpOverwrite : Nat := 0
  /-- Receive flows by device number 8,192 r + i. -/
  flowOuts : SMap FlowOut := []
  /-- Wings groups, the slot queue, the arbiter (file 08, R285, R292), the groups of each failed stack whose turn has not
  come (R296), and the pseudo-channel that each stack retrains next (R295). -/
  wgrps : SMap Wgrp := []
  slotQ : List Nat := []
  hbm : Hbm := {}
  fallQ : SMap (List Nat) := []
  nextPc : SMap Nat := []
  /-- The stamp counters that run on the sources of bridges (file 08, R271), by device bridge number. -/
  brgStamp : SMap BrgCnt := []
  /-- Fybry links by device link number, and transmit flows by device number 4,096 r + i. -/
  fyls : SMap Fyl := []
  txFlows : SMap TxFlow := []
  /-- From which link on the next header of each region looks for one to report failed (file 09, R338). -/
  rxFailTurn : SMap Nat := []
  /-- The DP cycle (+ 1) in which the understudy of each region took the position it covers (file 09, R341). -/
  coverAt : SMap Nat := []
  /-- The working position (+ 1) that the understudy of each region covers (file 09, R338). -/
  covers : SMap Nat := []
  /-- Capture and insertion channels by device channel number 512 r + i, and check units. -/
  caps : SMap CapQ := []
  inss : SMap InsQ := []
  chks : SMap ChkUnit := []
  /-- The stage door port (file 11): receive queues 0 and 1, the frame each requester reads, the transmit queues, the frame
  each requester writes, the START each requester's status speaks of and how many there were, the queue rows latched when the
  port last started (base, size, age; none: never), its speed, and the quanta last received for each class. -/
  sdpRx0 : List RxFrame := []
  sdpRx1 : List RxFrame := []
  sdpCur : SMap RxCur := []
  sdpTx : SMap (List TxFrame) := []
  sdpWr : SMap TxWrite := []
  sdpLast : SMap Nat := []
  sdpStarts : Nat := 0
  sdpRows : List (Nat × Nat × Nat) := []
  sdpSpeed : Nat := 1
  sdpQuanta : SMap Nat := []
  /-- The call board engine: its transmit buffer, its receive queue and what each requester reads, the stations heard with
  the DP cycle, the successor the token went to, the next beacon's number, and whether the mate was heard in the window. -/
  cbbTx : Option CbbTx := none
  cbbRx : List CbbFrame := []
  cbbCur : SMap RxCur := []
  cbbRing : List (Nat × Nat) := []
  cbbNext : Option Nat := none
  cbbSeq : Nat := 0
  cbbHeard : Bool := false
  door : Door := {}
  /-- The timestamp log, oldest first, as 128-bit entries (file 12, R436). -/
  tsLog : List Nat := []
  /-- Time inputs, discipline, and the time base reading of the last rising edge of each PPS output, in ns (moved with each
  step). -/
  pps : SMap PpsIn := []
  tim : Tim := {}
  ppsOutLast : SMap (Option Int) := []
  /-- The clock units: 0 core, 1 to 32 LG, 33 to 48 FG, 49 to 54 HB. -/
  csus : SMap Csu := []
  upd : Upd := {}
  /-- MSI-X table words of the functions beyond the mask bits, at 8,192 × box + dword (file 13, Table HST-1). -/
  msixTab : SMap Nat := []
  hst : Hst := {}
  /-- The stage manager is held in reset (file 15, R520), and the ownership requests that wait for it, oldest first: op, box,
  ARG0, ARG1 (file 13, Table HST-9). -/
  smHeld : Bool := false
  reqQ : List (Nat × Nat × Nat × Nat) := []
  /-- The running stage manager image, and the accepted images in ensemble slots A and B (file 14, R475, R489). -/
  smImg : Option Image := none
  slotA : Option Image := none
  slotB : Option Image := none
  /-- The image push being received or judged. -/
  push : Option Push := none
  /-- Fuses blown by the device itself: anti-rollback steps and revoked key slots (file 14, R477, R478). -/
  rbSteps : Nat := 0
  revoked : List Nat := []
  /-- Debug rights unlocked, and the outstanding challenge (file 14, R485, R486). -/
  rights : Nat := 0
  challenge : Option (List Nat) := none
  /-- DP cycles of the watchdog expiries of EN0 and EN1, newest first (file 14, R487), and the second in which the running
  ensemble image started (Table FWT-17). -/
  wdogTimes : SMap (List Nat) := []
  enStart : Nat := 0
  /-- The DP cycle of each ensemble core's last watchdog kick (file 14, R487), and the code of the master that rang each mailbox
  page last (R482). -/
  kickAt : SMap Nat := []
  mbWho : SMap Nat := []
  /-- Which domains run. -/
  dom : Dom := .run
  /-- The CALL sequence was stopped (file 16, R560, R600). -/
  callStop : Bool := false
  /-- Rails whose undervoltage report is not armed (file 17, R580), by rail bit. -/
  supplyOff : Nat := 0
  /-- The disarmed thresholds of each thermal sensor (bit 0 warn, 1 crit, 2 safe), and the die sensors whose last sample was at
  or above 125 °C (file 17, R589, R590). -/
  thermOff : SMap Nat := []
  thermHot : List Nat := []
  /-- What the life counters hold beside their registers. -/
  life : Life := {}
  /-- The pointer of the I2C sideband (file 17, R586). -/
  i2cPtr : Nat := 0
  /-- The playbill being written (file 15, R532), the configuration digests, and those whose inputs a cue or an ownership change
  has touched since (R535). -/
  plb : List Nat := []
  digs : SMap Digest := []
  digDue : List Nat := []
  /-- The cues that run, by box, and how many have started. -/
  cues : SMap Cue := []
  cueTurn : Nat := 0
  /-- Ensemble firmware (file 14, R493 to R499): the bins of each point, those of a point of each region that has never had state,
  the last second binned and the seconds missed, the thresholds at 2 × point + kind, the threshold alarms with the second they
  opened in (+ 1), the masked defects of each object, the messages discarded, and the personality resets under way. -/
  pmBins : SMap PmBins := []
  pmBase : SMap PmBins := []
  pmLastBin : Option Nat := none
  pmMissing : Nat := 0
  pmThr : SMap (List Nat) := []
  tca : SMap Nat := []
  almMask : SMap Nat := []
  sdpBad : Nat := 0
  persReset : SMap PersReset := []
  deriving DecidableEq, Repr

/-- Why a step stops with a fault. -/
inductive Fault where
  /-- A private JTAG instruction after a debug unlock: the spec gives the debug unit's instructions no effect
  (file 14, R485). Raised by execJtagInstruction; safe: the model stops where the hardware goes on. -/
  | jtagPrivate
  deriving DecidableEq, Repr

/-- Why a step refuses a command. -/
inductive Refusal where
  /-- No meaning written yet. Raised by exec's arms only; safe: the model stops. -/
  | notModelled (mnemonic : String)
  deriving DecidableEq, Repr

/-- The device right after reset: every register field and table entry at its reset value, nothing queued. -/
def State.reset : State := {}

end Sys2Proof.Machine
end

