-- ==== Sys2Proof/Machine/Ops.lean ====
section
/-! DEFINITION. The named operations over registers, tables, events, reports, records and memory that every command
uses (file 02, R6 to R10 and R51 to R71; file 15, R504 to R509 and R523). -/

namespace Sys2Proof.Machine

open Sys2Proof

/-- The state in which a command takes effect: the outputs and the reply of the command before it are gone. -/
def State.fresh (s : State) : State := { s with out := [], reply := none }

/-- What a command leaves: its effect is on everything but the queue. -/
def State.done (s t : State) : Host.Outcome State Fault Refusal := .next { t with pending := s.pending }

/-- How a command's effect becomes an outcome. While only AON runs, a command of any other domain finds nothing that takes it
(file 12, Table TIM-4; file 16, R560; file 17, R581). -/
def run (f : State → State) (s : State) : Host.Outcome State Fault Refusal := s.done (if s.dom = .run then f s.fresh else s.fresh)

/-- A command that AON takes: it has its effect whatever runs. -/
def runAon (f : State → State) (s : State) : Host.Outcome State Fault Refusal := s.done (f s.fresh)

/-- A command that is taken in DARK as well as while everything runs (file 11, R399). -/
def runDark (f : State → State) (s : State) : Host.Outcome State Fault Refusal :=
  s.done (if s.dom = .run ∨ s.dom = .dark then f s.fresh else s.fresh)

/-- Apply an effect where a condition holds; a command whose condition does not hold has no effect. -/
def State.when (s : State) (c : Bool) (f : State → State) : State := if c then f s else s

/-- Apply an effect for each item in turn. -/
def State.each {α : Type} (s : State) (l : List α) (f : State → α → State) : State := l.foldl f s

/-- Record an output. -/
def State.emit (s : State) (o : Out) : State := { s with out := s.out ++ [o] }

/-- Record an answer. -/
def State.answer (s : State) (status : Nat) (data : List Nat) : State := { s with reply := some ⟨status, data⟩ }

/-! ### Register fields -/

/-- The key of a field of a page in the register store. -/
def fkey (pg : Nat) (f : Field) : Nat := pg * 8192 + f.off * 8 + f.lo

/-- The vote of three copies (file 02, R61, R63): what two copies hold, else the reset value. -/
def vote (reset a b c : Nat) : Nat := if a = b ∨ a = c then a else if b = c then b else reset

/-- The value of a field, voted where it is held three times (R61, R62). -/
def State.rd (s : State) (pg : Nat) (f : Field) : Nat :=
  if f.acc = .rv then
    vote f.reset (s.regs.get f.reset (fkey pg f)) (s.regsB.get f.reset (fkey pg f)) (s.regsC.get f.reset (fkey pg f))
  else s.regs.get f.reset (fkey pg f)

/-- A one-bit field as a condition. -/
def State.rdb (s : State) (pg : Nat) (f : Field) : Bool := decide (s.rd pg f ≠ 0)

/-- Put a value into a field; all three copies of an RV field in one cycle (R61). -/
def State.wr (s : State) (pg : Nat) (f : Field) (v : Nat) : State :=
  let v' := v % 2 ^ f.width
  if f.acc = .rv then
    { s with regs := s.regs.set f.reset (fkey pg f) v', regsB := s.regsB.set f.reset (fkey pg f) v'
             regsC := s.regsC.set f.reset (fkey pg f) v' }
  else { s with regs := s.regs.set f.reset (fkey pg f) v' }

/-- Put a condition into a one-bit field. -/
def State.wrb (s : State) (pg : Nat) (f : Field) (b : Bool) : State := s.wr pg f (b2n b)

/-- Count in a counter that wraps (R9). -/
def State.count (s : State) (pg : Nat) (f : Field) (n : Nat := 1) : State := s.wr pg f (s.rd pg f + n)

/-- Count in a counter that saturates (R9). -/
def State.countSat (s : State) (pg : Nat) (f : Field) (n : Nat := 1) : State := s.wr pg f (satAdd f.width (s.rd pg f) n)

/-- The page under which a master's requester state of a page is kept (R55); the proxy of a box keeps its own (file 13,
R451). -/
def rqPage (pg : Nat) (m : Master) : Nat := pg + 65536 * (1 + m.code)
def pxPage (pg box : Nat) : Nat := pg + 65536 * (16 + box)

/-- The 64-bit shadow of a requester's page (R64, R65): what the last read of a _LO left for its _HI, at the offset of the
_HI, and a low word held for a write, at the offset of the _LO. They stand at bit 31 of that offset, where no field of a pair
begins. -/
def shadowF (off : Nat) : Field := ⟨4 * (off / 4 % 256), 62, 31, .rw, 0, false, false, false⟩
def State.latchHi (s : State) (rq loOff hi : Nat) : State := s.wr rq (shadowF (loOff + 4)) hi

/-! ### Table entries -/

/-- The key of an entry of a table of a page. -/
def tkey (pg : Nat) (t : Tab) (e : Nat) : Nat := (pg * 256 + t.code) * 2 ^ 24 + e % 2 ^ 24

/-- The committed or only copy of an entry, voted where the table is held three times. -/
def State.entry (s : State) (pg : Nat) (t : Tab) (e : Nat) : Nat :=
  if t.voted then
    vote (t.resetEntry e) (s.tabs.get (t.resetEntry e) (tkey pg t e)) (s.tabsB.get (t.resetEntry e) (tkey pg t e))
      (s.tabsC.get (t.resetEntry e) (tkey pg t e))
  else s.tabs.get (t.resetEntry e) (tkey pg t e)

/-- Put an entry into the committed or only copy. -/
def State.setEntry (s : State) (pg : Nat) (t : Tab) (e v : Nat) : State :=
  let v' := v % 2 ^ (128 * t.rows)
  if t.voted then
    { s with tabs := s.tabs.set (t.resetEntry e) (tkey pg t e) v', tabsB := s.tabsB.set (t.resetEntry e) (tkey pg t e) v'
             tabsC := s.tabsC.set (t.resetEntry e) (tkey pg t e) v' }
  else { s with tabs := s.tabs.set (t.resetEntry e) (tkey pg t e) v' }

/-- The staged copy of an entry. -/
def State.stagedEntry (s : State) (pg : Nat) (t : Tab) (e : Nat) : Nat := s.staged.get (t.resetEntry e) (tkey pg t e)

/-- Put an entry into the staged copy. -/
def State.setStaged (s : State) (pg : Nat) (t : Tab) (e v : Nat) : State :=
  { s with staged := s.staged.set (t.resetEntry e) (tkey pg t e) (v % 2 ^ (128 * t.rows)) }

/-- A field of a committed or only entry. -/
def State.tget (s : State) (pg : Nat) (t : Tab) (e : Nat) (f : TField) : Nat := getBits (s.entry pg t e) f.hi f.lo

/-- A one-bit field of an entry as a condition. -/
def State.tgetb (s : State) (pg : Nat) (t : Tab) (e : Nat) (f : TField) : Bool := decide (s.tget pg t e f ≠ 0)

/-- Put a value into a field of a committed or only entry. -/
def State.tput (s : State) (pg : Nat) (t : Tab) (e : Nat) (f : TField) (v : Nat) : State :=
  s.setEntry pg t e (putBits (s.entry pg t e) f.hi f.lo v)

/-- Put a condition into a one-bit field of an entry. -/
def State.tputb (s : State) (pg : Nat) (t : Tab) (e : Nat) (f : TField) (b : Bool) : State := s.tput pg t e f (b2n b)

/-- Count in a table counter that wraps. -/
def State.tcount (s : State) (pg : Nat) (t : Tab) (e : Nat) (f : TField) (n : Nat := 1) : State :=
  s.tput pg t e f (s.tget pg t e f + n)

/-- Count in a table counter that saturates. -/
def State.tcountSat (s : State) (pg : Nat) (t : Tab) (e : Nat) (f : TField) (n : Nat := 1) : State :=
  s.tput pg t e f (satAdd (f.hi - f.lo + 1) (s.tget pg t e f) n)

/-- A field of an entry value that is not stored (a staged row, a row of a cue's image). -/
def efield (v : Nat) (f : TField) : Nat := getBits v f.hi f.lo
def efieldb (v : Nat) (f : TField) : Bool := decide (efield v f ≠ 0)

/-! ### The time base -/

/-- The time base's reading now (file 12, R424). -/
def State.now (s : State) : Stamp := { sec := s.tb.sec % 2 ^ 48, ns := s.tb.ns, quality := s.rd pgTim TIM_STATUS_quality }

/-- A reading packed as the records pack it: [31:0] seconds, [61:32] nanoseconds, [63:62] quality. -/
def Stamp.packed (t : Stamp) : Nat := t.sec % 2 ^ 32 + (t.ns % 2 ^ 30) * 2 ^ 32 + (t.quality % 4) * 2 ^ 62

/-! ### Free values -/

/-- Take a free value: something the spec leaves open, of `w` bits (Config.freeValue). -/
def State.free (s : State) (w : Nat) : Nat × State :=
  (Config.freeValue s.freeCtr % 2 ^ w, { s with freeCtr := s.freeCtr + 1 })

/-- A quotient whose rounding the spec does not state: either neighbouring whole number when it is not exact. -/
def State.divFree (s : State) (a : Int) (b : Nat) : Int × State :=
  if a % b = 0 then (a / b, s)
  else
    let (u, s) := s.free 1
    (a / b + u, s)

/-! ### Owners, events -/

/-- The FAB cycle's number + 1: four DP cycles (file 01, R38). -/
def State.fab (s : State) : Nat := s.dpCycle / 4 + 1

/-- What a register field or a table entry, under its key, held before the changes of this FAB cycle, if it changed in it: by that value
an owner, a window and a vector map entry are judged until the cycle ends (file 13, R447, R465). -/
def State.wasVal (s : State) (tab : Bool) (k : Nat) : Option Nat :=
  if s.hst.was.1 = s.fab then (s.hst.was.2.find? (fun x => decide (x.1 = (tab, k)))).map (·.2) else none

/-- Before a change: the value that the cycle began with is kept. -/
def State.keepWas (s : State) (tab : Bool) (k v : Nat) : State :=
  if (s.wasVal tab k).isSome then s
  else { s with hst := { s.hst with was := (s.fab, ((tab, k), v) :: (if s.hst.was.1 = s.fab then s.hst.was.2 else [])) } }

/-- The box that owns a page (R56): BOX page n and FWM page n belong to box n; another page as PAGE_OWNER says, a change of it from the
next FAB cycle on (file 13, R447). -/
def State.pageOwner (s : State) (pg : Nat) : Nat :=
  match pageInfo pg with
  | some ⟨.box, n, _, _⟩ => n
  | some ⟨.fwm, n, _, _⟩ => n
  | _ => (s.wasVal false (fkey pg PAGE_OWNER_box)).getD (s.rd pg PAGE_OWNER_box)

/-- An entry of a vector map or of the grant table: a change applies from the next FAB cycle on (file 13, R465; file 14, R473). -/
def State.mapEntry (s : State) (pg : Nat) (t : Tab) (e : Nat) : Nat := (s.wasVal true (tkey pg t e)).getD (s.entry pg t e)

/-- The key of a vector of a box's function. -/
def vecKey (box v : Nat) : Nat := 2048 * box + v

/-- The pending flag that a recording on a page sets, if its owner's vector map enables one (file 13, R453). -/
def State.setPending (s : State) (pg : Nat) : State :=
  match pageInfo pg with
  | none => s
  | some i =>
    let n := s.pageOwner pg
    let src := pageSource i
    let x := if n = 0 then s.mapEntry pgHst T_HST_VECMAP src else s.mapEntry (pgBox n) T_BOX_VECMAP src
    let en := getBits x (if n = 0 then HST_VECMAP.en.hi else BOX_VECMAP.en.hi) (if n = 0 then HST_VECMAP.en.lo else BOX_VECMAP.en.lo) ≠ 0
    let v := getBits x (if n = 0 then HST_VECMAP.vector.hi else BOX_VECMAP.vector.hi) (if n = 0 then HST_VECMAP.vector.lo else BOX_VECMAP.vector.lo)
    if en then { s with vecs := s.vecs.upd {} (vecKey n v) (fun x => { x with pending := true }) } else s

/-- Put a bit with its latest stamp into a list of recordings. -/
def stampBit (l : List (Nat × Nat)) (k n : Nat) : List (Nat × Nat) := (k, n) :: l.filter (fun e => decide (e.1 ≠ k))

/-- Record event kind `k` on a page (R57): the sequence number rises by 1, the bit takes it as its stamp, and an unmasked
bit sets its vector's pending flag. A page whose item records no events (R51) is the caller's condition. -/
def State.record (s : State) (pg k : Nat) : State :=
  let e := s.events.get {} pg
  let n := (e.seq + 1) % 2 ^ 32
  let s := { s with events := s.events.set {} pg { e with seq := n, evts := stampBit e.evts k n } }
  if bit (s.rd pg EVT_MASK_mask) k then s else s.setPending pg

/-- An event that was recorded in error stands no more; the page sequence number goes on. -/
def State.unrecord (s : State) (pg k : Nat) : State :=
  { s with events := s.events.upd {} pg (fun e => { e with evts := e.evts.filter (fun x => decide (x.1 ≠ k)) }) }

/-- Set an ERR_STATUS bit (R57): the bit takes a stamp and page_error, event bit 31, stands with it. -/
def State.setErr (s : State) (pg k : Nat) : State :=
  let e := s.events.get {} pg
  let n := (e.seq + 1) % 2 ^ 32
  let s := { s with events := s.events.set {} pg { e with seq := n, errs := stampBit e.errs k n } }
  if bit (s.rd pg EVT_MASK_mask) 31 then s else s.setPending pg

/-- ERR_STATUS bits (file 02). -/
def errOwnerWrite : Nat := 0
def errAckAhead : Nat := 1
def errIndRange : Nat := 2
def errPartialWrite : Nat := 3
def errStagedLocked : Nat := 4
def errVoteCorrected : Nat := 5
def errVoteLost : Nat := 6

/-- The bits of a recording list as a number. -/
def bitsOf (l : List (Nat × Nat)) : Nat := l.foldl (fun a e => a ||| 2 ^ e.1) 0

/-- EVT_STATUS of a page: the event bits, and bit 31 while any ERR_STATUS bit is set. -/
def State.evtStatus (s : State) (pg : Nat) : Nat :=
  let e := s.events.get {} pg
  bitsOf e.evts + (if e.errs = [] then 0 else 2 ^ 31)

/-- Whether an event bit of a page is set. -/
def State.hasEvt (s : State) (pg k : Nat) : Bool := (s.events.get {} pg).evts.any (fun e => decide (e.1 = k))

/-- Whether an ERR_STATUS bit of a page is set. -/
def State.hasErr (s : State) (pg k : Nat) : Bool := (s.events.get {} pg).errs.any (fun e => decide (e.1 = k))

/-! ### Sources, reports and records -/

/-- Item kinds of Table FLT-3 and chip services v of kind 19. -/
def kindSelf : Nat := 0
def kindLane : Nat := 1
def kindSlice : Nat := 2
def kindCtxIn : Nat := 3
def kindCtxEg : Nat := 4
def kindPoint : Nat := 5
def kindCap : Nat := 6
def kindIns : Nat := 7
def kindLink : Nat := 8
def kindTxf : Nat := 9
def kindRxf : Nat := 10
def kindGroup : Nat := 11
def kindBridge : Nat := 12
def kindAps : Nat := 13
def kindWings : Nat := 14
def kindHbm : Nat := 15
def kindCsu : Nat := 16
def kindChk : Nat := 17
def kindRepLink : Nat := 18
def kindService : Nat := 19
def kindBox : Nat := 20
def kindBank : Nat := 21
def kindSensor : Nat := 22

/-- A source field (file 15, Table FLT-2). -/
def source (hier region block kind inst : Nat) : Nat :=
  inst % 2 ^ 19 + (kind % 32) * 2 ^ 19 + (block % 8) * 2 ^ 24 + (region % 8) * 2 ^ 27 + (hier % 4) * 2 ^ 30

/-- A cell of block B = 8r + b. -/
def srcCell (B kind inst : Nat) : Nat := source 0 (B / 8) (B % 8) kind inst
/-- A cell of a region-common unit of region r. -/
def srcRgnCell (r kind inst : Nat) : Nat := source 0 r 0 kind inst
def srcBlock (B : Nat) : Nat := source 1 (B / 8) (B % 8) 0 0
def srcRegion (r : Nat) : Nat := source 2 r 0 0 0
/-- A chip service or a chip item. -/
def srcChip (kind inst : Nat) : Nat := source 3 0 0 kind inst
def srcService (v : Nat) : Nat := srcChip kindService v

def srcHier (x : Nat) : Nat := getBits x 31 30
def srcRgn (x : Nat) : Nat := getBits x 29 27
def srcBlk (x : Nat) : Nat := getBits x 26 24
def srcKind (x : Nat) : Nat := getBits x 23 19
def srcInst (x : Nat) : Nat := getBits x 18 0

/-- The report link on which a report of a source travels (file 15, R504, R599). -/
def reportLink (x : Nat) : Nat :=
  let k := srcKind x
  if srcHier x = 3 then
    if k = kindService then 72 + srcInst x
    else if k = kindHbm ∨ k = kindWings then 74
    else if k = kindAps then 75
    else if k = kindBox then 77
    else if k = kindBank then 84
    else if k = kindRepLink then 72
    else if k = kindSensor then 87
    else if k = kindCsu then 88
    else if k = kindChk then 89
    else 72
  else if k = kindSensor then 87
  else if srcHier x = 2 ∨ (srcHier x = 0 ∧ (k = kindCap ∨ k = kindIns ∨ k = kindLink ∨ k = kindTxf ∨ k = kindRxf ∨ k = kindGroup ∨ k = kindBridge)) then
    64 + srcRgn x
  else 8 * srcRgn x + srcBlk x

/-- Fault classes of Table FLT-4. -/
def clsSramCe : Nat := 0
def clsSramUe : Nat := 1
def clsParity : Nat := 2
def clsVote : Nat := 3
def clsWire : Nat := 4
def clsClockLoss : Nat := 5
def clsPllUnlock : Nat := 6
def clsSerdesLine : Nat := 7
def clsSerdesFybry : Nat := 8
def clsHbmCe : Nat := 9
def clsHbmUe : Nat := 10
def clsHbmLink : Nat := 11
def clsBus : Nat := 12
def clsWdogSm : Nat := 13
def clsWdogEn : Nat := 14
def clsThermal : Nat := 15
def clsPower : Nat := 16
def clsLogMemory : Nat := 17
def clsConfig : Nat := 18
def clsSecurity : Nat := 19
def clsTime : Nat := 20
def clsFybryLink : Nat := 21
def clsInvariant : Nat := 22
def clsPoison : Nat := 23
def clsLockstep : Nat := 24
def clsDma : Nat := 25
def clsHostLink : Nat := 26
def clsFuse : Nat := 27
def clsCollector : Nat := 28

/-- A report enters its class's slot of its unit (file 15, R507). -/
def State.reportOn (s : State) (link cls level src : Nat) : State :=
  { s with slots := s.slots.upd {} (32 * link + cls) (fun x =>
      if x.n = 0 then { n := 1, level := level, source := src, mixed := false, resends := 0 }
      else { x with n := min (x.n + 1) 32767, level := max x.level level, mixed := x.mixed || decide (x.source ≠ src) }) }

/-- A unit reports class `cls` at `level` from `src` on the link of R504 and R599. A cell of a block that is restarting
raises no report of its own (file 01, R18). -/
def State.report (s : State) (cls level src : Nat) : State :=
  if srcHier src = 0 ∧ reportLink src < 64 ∧ decide ((s.blk.get {} (reportLink src)).forcedLeads ≠ []) then s
  else s.reportOn (reportLink src) cls level src

/-- The log's input queue has changed: its occupancy shows, and at 192 entries coalescing starts (file 15, R524). -/
def State.logShow (s : State) : State :=
  let s := s.wr pgLog LOG_STATUS_queue s.logQ.length
  if 192 ≤ s.logQ.length ∧ s.rd pgLog LOG_STATUS_coalescing = 0 then (s.wrb pgLog LOG_STATUS_coalescing true).record pgLog 0 else s

/-- A record for the prompt book takes a place in the input queue; with the queue full its producer holds it (file 15,
R523). -/
def State.logRec (s : State) (typ cls src payload : Nat) : State :=
  let r : LogRec := { time := s.now, typ := typ, cls := cls, source := src, payload := payload }
  if s.logQ.length < 256 ∧ s.logHeld = [] then ({ s with logQ := s.logQ ++ [r] }).logShow else { s with logHeld := s.logHeld ++ [r] }

/-! ### Memory -/

/-- The byte of HBM at an address; an unlisted address reads 0. -/
def memRead (m : List Host.Cell) (a : Nat) : Byte :=
  match m with
  | [] => 0
  | (a', b) :: m' => if a' = a then b else memRead m' a

/-- Insert a cell in address order. -/
def memInsert (a : Nat) (b : Byte) : List Host.Cell → List Host.Cell
  | [] => [(a, b)]
  | (a', b') :: m => if a < a' then (a, b) :: (a', b') :: m else (a', b') :: memInsert a b m

/-- Write a byte of HBM, keeping the canonical form. -/
def memWrite (m : List Host.Cell) (a : Nat) (b : Byte) : List Host.Cell :=
  let m' := m.filter (fun c => decide (c.1 ≠ a))
  if b = 0 then m' else memInsert a b m'

/-- Write bytes at rising addresses. -/
def memWriteBytes (m : List Host.Cell) (a : Nat) : List Byte → List Host.Cell
  | [] => m
  | b :: bs => memWriteBytes (memWrite m a b) (a + 1) bs

/-- Read `n` bytes at rising addresses. -/
def memReadBytes (m : List Host.Cell) (a n : Nat) : List Byte := (List.range n).map (fun i => memRead m (a + i))

/-- The canonical form of memory: addresses strictly rising, no cell equal to what an unlisted address reads as. -/
def Memory.wf (m : List Host.Cell) : Bool :=
  SMap.canonical (fun _ => (0 : Byte)) m

/-- The size of HBM: 144 GiB (file 00, R2). -/
def hbmSize : Nat := 144 * 2 ^ 30

/-! ### Chip mode and region states -/

/-- Chip mode codes of Table ARC-10. -/
def modeDark : Nat := 0
def modeCall : Nat := 1
def modeRehearsal : Nat := 2
def modeNative : Nat := 3
def modeCompat : Nat := 4
def modeIntermission : Nat := 5
def modeSafe : Nat := 6
def modeAudit : Nat := 7

/-- Region state codes of Table MOD-5. -/
def rgnActive : Nat := 0
def rgnDraining : Nat := 1
def rgnReset : Nat := 2
def rgnOffline : Nat := 3
def rgnIsolated : Nat := 4

def State.mode (s : State) : Nat := s.rd pgMode MODE_current
def State.region (s : State) (r : Nat) : Nat := s.rd pgMode (MODE_REGIONS_state r)

/-- Whether the datapath of a region runs (Tables ARC-10, MOD-5): not in DARK, CALL or SAFE, nor in RESET or ISOLATED. -/
def State.datapath (s : State) (r : Nat) : Bool :=
  decide (s.mode ≠ modeDark ∧ s.mode ≠ modeCall ∧ s.mode ≠ modeSafe ∧ s.region r ≠ rgnReset ∧ s.region r ≠ rgnIsolated)

/-- Whether a region may record events on its pages: an isolated region sends none (file 01, R20), and no stage runs in
RESET. -/
def State.regionSpeaks (s : State) (r : Nat) : Bool := decide (s.region r ≠ rgnReset ∧ s.region r ≠ rgnIsolated)

end Sys2Proof.Machine
end

