-- ==== Sys2Proof/Machine/Access.lean ====
section
/-! DEFINITION. Which request the bus matrix carries to a page (file 13, R449, R458, R461, R462; file 14, R472, R473, R485). -/

namespace Sys2Proof.Machine

open Sys2Proof

/-- Request status (Table HST-6). -/
def bsOk : Nat := 0
def bsUnmapped : Nat := 1
def bsOwner : Nat := 2
def bsResetting : Nat := 3
def bsTimeout : Nat := 4
def bsPoison : Nat := 5
def bsDiscarded : Nat := 6
def bsUnsupported : Nat := 7

/-- A grant row gives a core a page; a change of it applies from the next FAB cycle on (R473, R500). -/
def State.enGranted (s : State) (i pg : Nat) (write : Bool) : Bool :=
  (List.range 64).any (fun e =>
    let v := s.mapEntry (pgFwm 0) T_EN_GRANT e
    let first := efield v EN_GRANT.first
    efieldb v EN_GRANT.valid && !efieldb v EN_GRANT.kind && (if i = 0 then efieldb v EN_GRANT.en0 else efieldb v EN_GRANT.en1) &&
      (efieldb v EN_GRANT.write || !write) && decide (first ≤ pg ∧ pg ≤ first + efield v EN_GRANT.count_m1))

/-- A mailbox page, which lies in FW SRAM (Table FWT-1). -/
def isMailbox (pg : Nat) : Bool :=
  match pageInfo pg with
  | some i => decide (i.typ = .fwm)
  | none => false

/-- A path of Table HST-5 leads from a master to a page. -/
def State.busPath (s : State) (w : Who) (pg : Nat) (write : Bool) : Bool :=
  match w.master with
  | .host => true
  | .sm => true
  | .en0 => isMailbox pg || s.enGranted 0 pg write
  | .en1 => isMailbox pg || s.enGranted 1 pg write
  | .dma => !write
  | .dbg => bit s.rights 1
  | .cbb => isMailbox pg || (decide (pg = pgMode) && !write)
  | .sdp => isMailbox pg

/-- The status with which a request to a page ends, as far as the matrix decides it. An access through a box's proxy is judged
there (R451). -/
def State.admitCode (s : State) (w : Who) (pg : Nat) (write : Bool) : Nat :=
  if (pageInfo pg).isNone || !s.busPath w pg write then bsUnmapped
  else if w.master = .host ∧ !w.proxy ∧ s.pageOwner pg ≠ w.box then bsOwner
  else
    match pageRegion pg with
    | some r => if s.region r = rgnReset then bsResetting else bsOk
    | none => bsOk

/-- A request that does not end OK counts under its status (R461); one of the ensemble outside its grants is reported as SECURITY
(file 15, Table FLT-4). -/
def State.busError (s : State) (w : Who) (code : Nat) : State :=
  let s := s.count pgBxm (BXM_ERR_CNT code)
  if code = bsUnmapped ∧ (w.master = .en0 ∨ w.master = .en1) then
    s.report clsSecurity 0 (srcService (if w.master = .en0 then 9 else 10))
  else s

/-- An access of a master to a page: carried out, or ended by the matrix without effect on the page. -/
def State.via (s : State) (w : Who) (pg : Nat) (write : Bool) (f : State → State) : State :=
  let code := s.admitCode w pg write
  if code = bsOk then f s else (s.busError w code).answer code []

/-- A command that is an access to a page. -/
def runBus (w : Who) (pg : Nat) (write : Bool) (f : State → State) (s : State) : Host.Outcome State Fault Refusal :=
  run (fun s => s.via w pg write f) s

end Sys2Proof.Machine
end

