-- ==== Sys2Proof/Machine/Items.lean ====
section
/-! DEFINITION. The items of the datapath and what the rows in effect say of them: lanes, interfaces, slices, contexts
and tributary slots (file 01, R12, R13; file 03, R85 to R91; file 04, R124; file 05, R158 to R163), and the queue of
defect changes of a region (file 05, R190, R191). -/

namespace Sys2Proof.Machine

open Sys2Proof

/-! ### The rows in effect -/

/-- The entry that the datapath uses: of a staged table the adopted row (R78), of another table its only copy. -/
def State.eff (s : State) (pg : Nat) (t : Tab) (e : Nat) : Nat :=
  if t.staged then s.live.get (t.resetEntry e) (tkey pg t e) else s.entry pg t e

def State.effF (s : State) (pg : Nat) (t : Tab) (e : Nat) (f : TField) : Nat := getBits (s.eff pg t e) f.hi f.lo
def State.effB (s : State) (pg : Nat) (t : Tab) (e : Nat) (f : TField) : Bool := decide (s.effF pg t e f ≠ 0)

/-- Bring an entry of a staged table into effect. -/
def State.adoptEntry (s : State) (pg : Nat) (t : Tab) (e : Nat) : State :=
  { s with live := s.live.set (t.resetEntry e) (tkey pg t e) (s.entry pg t e) }

/-- The listed entries of a table in a store: numbers and values. Every table searched this way has entries that reset
to "not valid", so an unlisted entry is never found. -/
def listed (m : SMap Nat) (pg : Nat) (t : Tab) : List (Nat × Nat) :=
  (m.filter (fun e => decide (e.1 / 2 ^ 24 = pg * 256 + t.code))).map (fun e => (e.1 % 2 ^ 24, e.2))

def State.effRows (s : State) (pg : Nat) (t : Tab) : List (Nat × Nat) := listed s.live pg t

/-! ### Events and reports of datapath items -/

/-- Record an event of an item: a region in RESET or ISOLATED sends none (file 01, R20). -/
def State.ev (s : State) (pg k : Nat) : State :=
  match pageRegion pg with
  | some r => if s.regionSpeaks r then s.record pg k else s
  | none => s.record pg k

def State.evWhen (s : State) (c : Bool) (pg k : Nat) : State := if c then s.ev pg k else s

/-- Put a condition into a one-bit status field and record an event when it changes. -/
def State.wrbEv (s : State) (pg : Nat) (f : Field) (b : Bool) (k : Nat) : State :=
  if s.rdb pg f = b then s else (s.wrb pg f b).ev pg k

/-! ### The ensemble's cores and the alarms of the personalities (file 14, R480, R498) -/

def enRunF (i : Nat) : Field := if i = 0 then FWM_EN_STATUS_run0 else FWM_EN_STATUS_run1
def enSlotF (i : Nat) : Field := if i = 0 then FWM_EN_STATUS_slot0 else FWM_EN_STATUS_slot1
def enHeldF (i : Nat) : Field := if i = 0 then FWM_EN_STATUS_held0 else FWM_EN_STATUS_held1
def State.enRuns (s : State) (i : Nat) : Bool := decide (s.rd (pgFwm 0) (enRunF i) = 2)
def State.slotImg (s : State) (k : Nat) : Option Image := if k = 0 then s.slotA else s.slotB
def State.enImg (s : State) (i : Nat) : Option Image := s.slotImg (s.rd (pgFwm 0) (enSlotF i))

/-- The image's compat flag (Table FWT-4). -/
def Image.compat (x : Image) : Bool := bit (x.bytes.getD 10 0) 1

/-- A core runs a COMPAT image. -/
def State.enCompat (s : State) (i : Nat) : Bool :=
  s.enRuns i && match s.enImg i with
    | some x => x.compat
    | none => false

/-- The ensemble core that holds a service, by its bit, if it runs (R480, R487). -/
def State.holder (s : State) (b : Nat) : Option Nat :=
  if bit (s.rd (pgFwm 0) FWM_EN_STATUS_held0) b && s.enRuns 0 then some 0
  else if bit (s.rd (pgFwm 0) FWM_EN_STATUS_held1) b && s.enRuns 1 then some 1
  else none

/-- Personality p is presented: a core holds it and its image has the compat flag (R480, R493). -/
def State.persUp (s : State) (p : Nat) : Bool :=
  match s.holder p with
  | some i => s.enCompat i
  | none => false

/-- Alarm masks are kept by personality, object kind and GV0256 object number. -/
def almKey (p kind obj : Nat) : Nat := (p * 256 + kind) * 2 ^ 32 + obj

/-- ALM_MASK masks defect kind k of an object. -/
def State.almMasked (s : State) (p kind obj k : Nat) : Bool := bit (s.almMask.get 0 (almKey p kind obj)) k

/-- The GV0256 number of an alarm's object: a slice within its personality, or a maintenance point. -/
def almObj (point : Bool) (src : Nat) : Nat :=
  if !point then src % 256
  else if src < 458752 then src / 7 / 32768 * 57344 + 7 * (src / 7 % 8192) + src % 7
  else 114688 + (src - 458752) % 16384

/-- An alarm of personality p begins or ends: event alarm unless it is masked (R498). -/
def State.alarmMoved (s : State) (p : Nat) (point : Bool) (src k : Nat) : State :=
  if s.persUp p && !s.almMasked p (if point then kindPoint else kindSlice) (almObj point src) k then s.ev (pgFwm (p + 1)) 6 else s

/-! ### Line lanes -/

def laneRegion (n : Nat) : Nat := n / 32
def laneBlock (n : Nat) : Nat := n / 4

/-- A lane's type in effect: 0 OTN, 1 Ethernet. -/
def State.laneType (s : State) (n : Nat) : Nat := s.effF (pgLln n) T_LANE_CFG 0 LANE_CFG.typ
def State.laneRate (s : State) (n : Nat) : Nat := s.effF (pgLln n) T_LANE_CFG 0 LANE_CFG.rate

/-- FlexO instances per lane at an OTN rate code (Table LAN-1). -/
def instOfRate (rate : Nat) : Nat := if rate = 0 then 1 else if rate = 1 then 2 else 4

def State.laneInst (s : State) (n : Nat) : Nat := if s.laneType n = 0 then instOfRate (s.laneRate n) else 1

/-- Lanes of an Ethernet client at a rate code (Table LAN-3): 100GbE, 200GbE, 400GbE, 800GbE; 0 where not supported. -/
def ethLanes (client rate : Nat) : Nat :=
  if rate = 0 then (if client = 0 then 1 else if client = 1 then 2 else if client = 2 then 4 else 0)
  else (if client = 1 then 1 else if client = 2 then 2 else if client = 3 then 4 else 0)

/-! ### Slices and OTUCn interfaces -/

def sliceBlock (d : Nat) : Nat := d / 16
def sliceRegion (d : Nat) : Nat := d / 128
/-- The line lane that carries device slice d (Table ARC-2). -/
def sliceLane (d : Nat) : Nat := 4 * (d / 16) + d % 16 / 4

/-- Whether a slice exists at its lane's rate (file 01, R13; file 02, R51). -/
def State.sliceExists (s : State) (d : Nat) : Bool :=
  decide (s.laneType (sliceLane d) = 0 ∧ d % 4 < s.laneInst (sliceLane d))

def State.ifF (s : State) (d : Nat) (f : TField) : Nat := s.effF (pgOtu d) T_OTU_IF 0 f

def State.sliceMember (s : State) (d : Nat) : Bool := decide (s.ifF d OTU_IF.member ≠ 0)

/-- The lead slice of the interface that a slice's row names (R124). -/
def State.sliceLead (s : State) (d : Nat) : Nat := 16 * (d / 16) + 4 * s.ifF d OTU_IF.lane0

/-- The slice at position p (counted from 0) of the interface whose lead slice is `lead` and whose lanes carry i
instances each (R124). -/
def slotSlice (lead i p : Nat) : Nat := lead + 4 * (p / i) + p % i

/-- The member slices of the OTUCn led by `lead`, in position order. -/
def State.otucMembers (s : State) (lead : Nat) : List Nat :=
  let i := s.laneInst (sliceLane lead)
  (List.range (s.ifF lead OTU_IF.n_m1 + 1)).map (slotSlice lead i)

/-- The position of a slice in its OTUCn, counted from 0 (0 when not a member). -/
def State.slicePos (s : State) (d : Nat) : Nat :=
  if s.sliceMember d then
    let i := s.laneInst (sliceLane d)
    (d % 16 / 4 - s.ifF d OTU_IF.lane0) * i + d % 4
  else 0

/-- The lanes of the OTUCn led by `lead` (R124). -/
def State.otucLanes (s : State) (lead : Nat) : List Nat :=
  let i := s.laneInst (sliceLane lead)
  (List.range ((s.ifF lead OTU_IF.n_m1 + 1 + i - 1) / i)).map (sliceLane lead + ·)

/-- The lead slices of the OTUCn configured in block B. -/
def State.blockLeads (s : State) (B : Nat) : List Nat :=
  ((List.range 4).map (fun j => 16 * B + 4 * j)).filter (fun d => s.sliceMember d && decide (s.sliceLead d = d))

/-- The lanes of the Ethernet interface whose first lane is n (file 03, R91). -/
def State.ethIfLanes (s : State) (n : Nat) : List Nat :=
  (List.range (ethLanes (s.effF (pgEth n) T_ETH_CFG 0 ETH_CFG.client) (s.laneRate n))).map (n + ·)

def State.ethEn (s : State) (n : Nat) : Bool := s.effB (pgEth n) T_ETH_CFG 0 ETH_CFG.en

/-- The lanes of the line interface that a lane belongs to: of an OTUCn, or of an Ethernet client; none where it belongs
to no committed interface. -/
def State.laneIf (s : State) (n : Nat) : List Nat :=
  let B := n / 4
  ((s.blockLeads B).map s.otucLanes ++ (((List.range 4).map (4 * B + ·)).filter s.ethEn).map s.ethIfLanes).filter
    (fun l => l.contains n) |>.headD []

/-- The slices that a lane carries. -/
def State.laneSlices (s : State) (n : Nat) : List Nat :=
  if s.laneType n = 0 then (List.range (s.laneInst n)).map (fun i => 16 * (n / 4) + 4 * (n % 4) + i) else []

/-! ### Contexts -/

/-- The page of a block's contexts in direction d: 0 ODI, 1 ODE. -/
def pgOd (B d : Nat) : Nat := if d = 0 then pgOdi B else pgOde B

def State.ctxF (s : State) (B d e : Nat) (f : TField) : Nat := s.effF (pgOd B d) T_CTX e f
def State.ctxB (s : State) (B d e : Nat) (f : TField) : Bool := decide (s.ctxF B d e f ≠ 0)

/-- The block slots that hold a context in effect. -/
def State.ctxSlots (s : State) (B d : Nat) : List Nat :=
  ((s.effRows (pgOd B d) T_CTX).filter (fun e => efieldb e.2 CTX.valid)).map (·.1)

/-- The context group number g = 32,768 d + c of a block slot (R159). -/
def State.ctxGroup (s : State) (B d e : Nat) : Nat := 32768 * d + 4096 * (B / 8) + s.ctxF B d e CTX.ctx

/-- The place (block, slot) of context number c in direction d, if one is in effect. -/
def State.ctxPlace (s : State) (d c : Nat) : Option (Nat × Nat) :=
  let r := c / 4096
  ((List.range 8).flatMap (fun b => (s.ctxSlots (8 * r + b) d).map (fun e => (8 * r + b, e)))).find?
    (fun p => decide (s.ctxF p.1 d p.2 CTX.ctx = c % 4096))

/-- The stage-zero slot of the OTUCn led by slice `lead` of block B, if configured. -/
def State.stageZero (s : State) (B d lead : Nat) : Option Nat :=
  (s.ctxSlots B d).find? (fun e => decide (s.ctxF B d e CTX.stage = 0 ∧ 16 * B + s.ctxF B d e CTX.lead = lead))

/-- The 5G slots (entries of TS1) that a stage-one context owns. -/
def State.ts1Of (s : State) (B d e : Nat) : List Nat :=
  ((s.effRows (pgOd B d) T_TS1).filter (fun x => efieldb x.2 TS1.used && decide (efield x.2 TS1.owner = e))).map (·.1)

/-- The 1.25G slots (entries of TS2) that a stage-two context owns. -/
def State.ts2Of (s : State) (B d e : Nat) : List Nat :=
  ((s.effRows (pgOd B d) T_TS2).filter (fun x => efieldb x.2 TS1.used && decide (efield x.2 TS1.owner = e))).map (·.1)

/-- The slices whose OTUCn carries a context: for stage one those that hold its slots, for stage two those of its
parent, for stage zero every member. -/
def State.ctxSlices (s : State) (B d e : Nat) : List Nat :=
  let stage := s.ctxF B d e CTX.stage
  if stage = 0 then s.otucMembers (16 * B + s.ctxF B d e CTX.lead)
  else
    let owner := if stage = 1 then e else s.ctxF B d e CTX.parent
    ((s.ts1Of B d owner).map (fun x => 16 * B + x / 20)).eraseDups

/-- The ingress contexts carried in a slice (file 04, R133): the stage-zero context of its OTUCn, the stage-one contexts
with a slot in it, and their stage-two contexts. -/
def State.carriedIn (s : State) (d : Nat) : List Nat :=
  let B := d / 16
  (s.ctxSlots B 0).filter (fun e => (s.ctxSlices B 0 e).contains d)

/-- Dedicated point m = 7 g + t (R169), and its entry on the MPT page of the block. -/
def dedPoint (g t : Nat) : Nat := 7 * g + t
def dedEntry (d e t : Nat) : Nat := 8 * (1024 * d + e) + t
/-- Shared point m of entry q of block B. -/
def shPoint (B q : Nat) : Nat := 458752 + 1024 * B + q
def shEntry (q : Nat) : Nat := 16384 + q

/-- The section point of a slice: shared entry k of its block (file 05, R174). -/
def secPoint (d : Nat) : Nat := shPoint (d / 16) (d % 16)

/-- The mode of slot t of a context (Table ODU-6). -/
def modeOfSlot (mp t : Nat) : Nat := mp / 4 ^ t % 4
def State.slotMode (s : State) (B d e t : Nat) : Nat := modeOfSlot (s.ctxF B d e CTX.mp_mode) t

/-! ### Defect changes and episodes -/

/-- The number by which the tracker orders changes of one stamp (R191): slices before points, ascending source, ascending
kind. -/
def epiOrder (c : EpiChange) : Nat := (b2n c.point * 2 ^ 19 + c.src) * 32 + c.kind

/-- Put a change into the tracker's queue behind every change that comes before it. -/
def epiInsert (c : EpiChange) : List EpiChange → List EpiChange
  | [] => [c]
  | x :: l => if c.stamp < x.stamp ∨ (c.stamp = x.stamp ∧ epiOrder c < epiOrder x) then c :: x :: l else x :: epiInsert c l

/-- The defect of a change, as one number. -/
def epiKey (c : EpiChange) : Nat := epiOrder c

/-- Occupancy of a region's tracker (R192): open episodes plus defects present without one. -/
def State.epiOcc (s : State) (r : Nat) : Nat :=
  s.rd (pgEpi r) EPI_STATUS_tracked + (s.epi.get {} r).loose.length

/-- Bring the occupancy register up to date. -/
def State.epiShow (s : State) (r : Nat) : State := s.wr (pgEpi r) EPI_OCC_occupancy (min (s.epiOcc r) 0xFFFFF)

/-- The entry of EPI_OPEN that holds the episode of a defect, if one is open. -/
def State.epiFind (s : State) (r : Nat) (c : EpiChange) : Option Nat :=
  ((listed s.tabs (pgEpi r) T_EPI_OPEN).find? (fun e => efieldb e.2 EPI_OPEN.valid &&
      decide (efield e.2 EPI_OPEN.kind = c.kind ∧ efield e.2 EPI_OPEN.src_kind = b2n c.point ∧ efield e.2 EPI_OPEN.src = c.src))).map
    (·.1)

/-- The lowest entry of EPI_OPEN that holds no open episode. -/
def State.epiFree (s : State) (r : Nat) : Nat :=
  let used := (listed s.tabs (pgEpi r) T_EPI_OPEN).map (·.1)
  ((List.range (used.length + 1)).find? (fun e => !used.contains e)).getD 0

/-- Open an episode (R191): it takes the next region episode number and the stamp of its opening. -/
def State.epiOpen (s : State) (r : Nat) (c : EpiChange) (t : Stamp) (late : Bool) : State :=
  let pg := pgEpi r
  let id := s.rd pg EPI_NEXT_ID_id
  let v := id + c.kind * 2 ^ 32 + b2n c.point * 2 ^ 37 + c.src % 2 ^ 19 * 2 ^ 38 + b2n late * 2 ^ 57 + 2 ^ 58
    + t.sec % 2 ^ 48 * 2 ^ 64 + t.ns % 2 ^ 30 * 2 ^ 112 + t.quality % 4 * 2 ^ 142
  let s := s.setEntry pg T_EPI_OPEN (s.epiFree r) v
  let s := s.wr pg EPI_NEXT_ID_id (id + 1)
  s.wr pg EPI_STATUS_tracked (s.rd pg EPI_STATUS_tracked + 1)

/-- The source of an episode in the prompt book: its slice, or its point (file 15, R509). A point's block is that of its
context, or the region's first block once the context is gone. -/
def State.epiSource (s : State) (r : Nat) (point : Bool) (src : Nat) : Nat :=
  if !point then srcCell (src / 16) kindSlice src
  else if 458752 ≤ src then srcCell ((src - 458752) / 1024) kindPoint src
  else srcCell (((s.ctxPlace (src / 7 / 32768) (src / 7 % 32768)).map (·.1)).getD (8 * r)) kindPoint src

/-- Close an open episode with its prompt book record, Table FLT-8 type 0x05. -/
def State.epiClose (s : State) (r e : Nat) (t : Stamp) (deconf : Bool) : State :=
  let pg := pgEpi r
  let v := s.entry pg T_EPI_OPEN e
  let dur := ((t.sec : Int) - efield v EPI_OPEN.open_sec) * 1000 + ((t.ns : Int) - efield v EPI_OPEN.open_ns) / 1000000
  let s := s.logRec 0x05 0 (s.epiSource r (efieldb v EPI_OPEN.src_kind) (efield v EPI_OPEN.src)) (efield v EPI_OPEN.id + (efield v EPI_OPEN.kind + efield v EPI_OPEN.src_kind * 32
    + efield v EPI_OPEN.late * 64 + efield v EPI_OPEN.src * 128 + b2n deconf * 2 ^ 26) * 2 ^ 32 + min dur.toNat (2 ^ 32 - 1) * 2 ^ 64)
  let s := s.setEntry pg T_EPI_OPEN e 0
  s.wr pg EPI_STATUS_tracked (s.rd pg EPI_STATUS_tracked - 1)

/-- A defect present without an episode is counted in EPI_AGG (R193). -/
def State.epiLooseOn (s : State) (r : Nat) (c : EpiChange) : State :=
  let pg := pgEpi r
  let s := s.tcount pg T_EPI_AGG c.kind EPI_AGG.opened
  let s := s.tcount pg T_EPI_AGG c.kind EPI_AGG.present
  { s with epi := s.epi.upd {} r (fun x => { x with loose := x.loose ++ [c] }) }

def State.epiLooseOff (s : State) (r : Nat) (c : EpiChange) : State :=
  let pg := pgEpi r
  let s := s.tput pg T_EPI_AGG c.kind EPI_AGG.present (s.tget pg T_EPI_AGG c.kind EPI_AGG.present - 1)
  let s := s.tcount pg T_EPI_AGG c.kind EPI_AGG.closed
  { s with epi := s.epi.upd {} r (fun x => { x with loose := x.loose.filter (fun y => decide (epiKey y ≠ epiKey c)) }) }

/-- Enter aggregation (R192). -/
def State.epiAggOn (s : State) (r : Nat) : State :=
  let pg := pgEpi r
  let s := s.wrb pg EPI_STATUS_aggregated true
  let s := s.count pg EPI_AGG_ENTRIES_count
  let s := s.ev pg 2
  s.logRec 0x06 1 (srcRegion r) (s.epiOcc r)

/-- Apply one defect change to the tracked state (R191, R192, R193): an episode opens and closes at the time of the change; an alarm of the region's personality has changed with it. -/
def State.epiApply (s : State) (r : Nat) (c : EpiChange) : State :=
  let pg := pgEpi r
  let isLoose := (s.epi.get {} r).loose.any (fun y => decide (epiKey y = epiKey c))
  let moved (s : State) : State := s.alarmMoved (r / 2) c.point c.src c.kind
  let s :=
    if c.on then
      if (s.epiFind r c).isSome ∨ isLoose then s
      else if s.rdb pg EPI_STATUS_aggregated then moved (s.epiLooseOn r c)
      else if s.epiOcc r + 1 ≥ 8193 then moved ((s.epiAggOn r).epiLooseOn r c)
      else moved ((s.epiOpen r c c.time false).ev pg 0)
    else
      match s.epiFind r c with
      | some e => moved ((s.epiClose r e c.time c.deconf).ev pg 1)
      | none => if isLoose then moved (s.epiLooseOff r c) else s
  s.epiShow r

/-- Changes that units have sent in this very DP cycle and that meet a condition are discarded (R139, R168). -/
def State.epiDiscard (s : State) (r : Nat) (p : EpiChange → Bool) : State :=
  { s with epi := s.epi.upd {} r (fun x => { x with queue := x.queue.filter (fun y => !(decide (y.stamp = s.dpCycle) && p y)) }) }

/-- At an adoption boundary a change of this DP cycle is discarded (R168): a declaration goes, and a clearing stands as the closing
of the boundary itself. -/
def State.epiBoundary (s : State) (r : Nat) (p : EpiChange → Bool) : State :=
  let s := s.epiDiscard r (fun y => p y && y.on)
  { s with epi := s.epi.upd {} r (fun x => { x with queue := x.queue.map (fun y =>
      if decide (y.stamp = s.dpCycle) && p y then { y with deconf := true } else y) }) }

/-- A unit sends a defect change to its region's tracker (R190, R191); with the queue full the change enters aggregation
and is applied at once, and the waiting changes of the same defect are discarded (R192, R193). -/
def State.epiPush (s : State) (r : Nat) (point : Bool) (src kind : Nat) (on deconf : Bool := false) : State :=
  if s.regionSpeaks r then
    let c : EpiChange := { stamp := s.dpCycle, point := point, src := src, kind := kind, on := on, deconf := deconf, time := s.now }
    let q := (s.epi.get {} r).queue
    if q.length < 16384 then { s with epi := s.epi.upd {} r (fun x => { x with queue := epiInsert c x.queue }) }
    else
      let s := if s.rdb (pgEpi r) EPI_STATUS_aggregated then s else s.epiAggOn r
      let s := { s with epi := s.epi.upd {} r (fun x => { x with queue := x.queue.filter (fun y => decide (epiKey y ≠ epiKey c)) }) }
      s.epiApply r c
  else s

end Sys2Proof.Machine
end

