-- ==== Sys2Proof/Machine/Legs.lean ====
section
/-! DEFINITION. Server-layer signals, point defects, consequent actions and leg status (file 04, R129, R148; file 05,
R170 to R185; file 06, R219 to R221; file 07, R234). -/

namespace Sys2Proof.Machine

open Sys2Proof

/-! ### Records -/

def State.slice (s : State) (d : Nat) : Slice := s.slices.get {} d
def State.setSlice (s : State) (d : Nat) (f : Slice → Slice) : State := { s with slices := s.slices.upd {} d f }
def State.point (s : State) (m : Nat) : Point := s.points.get {} m
def State.setPoint (s : State) (m : Nat) (f : Point → Point) : State := { s with points := s.points.upd {} m f }
def ckey (B d e : Nat) : Nat := 1024 * (2 * B + d) + e
def State.ctx (s : State) (B d e : Nat) : Ctx := s.ctxs.get {} (ckey B d e)
def State.setCtx (s : State) (B d e : Nat) (f : Ctx → Ctx) : State := { s with ctxs := s.ctxs.upd {} (ckey B d e) f }

/-! ### Slices -/

/-- Event bits of an OTU page (R156). -/
def otuOof : Nat := 0
def otuInFrame : Nat := 1
def otuRealign : Nat := 2
def otuLofOn : Nat := 3
def otuLofOff : Nat := 4
def otuLomOn : Nat := 5
def otuLomOff : Nat := 6
def otuMf : Nat := 7
def otuBond : Nat := 8
def otuSsf : Nat := 9
def otuTim : Nat := 10
def otuDeg : Nat := 11
def otuBdi : Nat := 12
def otuIae : Nat := 13
def otuBiae : Nat := 14
def otuTtiNew : Nat := 15
def otuFlexo : Nat := 16

/-- Frame states of Table OTU-4. -/
def fSearch : Nat := 0
def fPresync : Nat := 1
def fSync : Nat := 2

/-- The slice is an unused instance: its lane belongs to an OTUCn of which it is no member (R125). -/
def State.sliceUnused (s : State) (d : Nat) : Bool :=
  !s.sliceMember d && (s.blockLeads (d / 16)).any (fun l => (s.otucLanes l).contains (sliceLane d))

/-- Whether the ingress framer of a slice runs (R51, R125, R154). -/
def State.sliceRuns (s : State) (d : Nat) : Bool := s.sliceExists d && s.rdb (pgOtu d) PAGE_CTRL_run && !s.sliceUnused d

/-- The slice is held in SEARCH by a condition of Table OTU-3. -/
def State.sliceHeld (s : State) (d : Nat) : Bool :=
  !s.rdb (pgOtu d) OTU_STATUS_flexo_lock || s.rdb (pgOtu d) OTU_STATUS_dgidm || s.rdb (pgOtu d) OTU_STATUS_dpmm

/-- The slice's position delivers the all-ones fill to stage 6 (R133, R141, R154). -/
def State.sliceFill (s : State) (d : Nat) : Bool :=
  !s.rdb (pgOtu d) OTU_STATUS_bonded || !s.rdb (pgOtu d) OTU_STATUS_in_frame || !s.rdb (pgOtu d) PAGE_CTRL_run ||
  s.rdb (pgOtu d) PAGE_CTRL_force_safe

/-- Flags of a section point's second that hold now (Table ODU-13): aSSF, dBDI, dTIM, dIAE or dBIAE, dDEG, dLOF or dLOM. -/
def State.sectionFlags (s : State) (d : Nat) : Nat :=
  let b (f : Field) : Bool := s.rdb (pgOtu d) f
  b2n (b OTU_STATUS_ssf) + 2 * b2n (b OTU_STATUS_dbdi) + 128 * b2n (b OTU_STATUS_dtim) +
  256 * b2n (b OTU_STATUS_diae || b OTU_STATUS_dbiae) + 512 * b2n (b OTU_STATUS_ddeg) +
  1024 * b2n (b OTU_STATUS_dlof || b OTU_STATUS_dlom)

/-- What holds now counts in the running second of a slice's section point. -/
def State.sectionSeen (s : State) (d : Nat) : State :=
  s.setPoint (secPoint d) (fun p => { p with flags := p.flags ||| s.sectionFlags d })

/-- Set a defect of a slice: its status bit, its event and its episode (R149, R156, R190). -/
def State.sliceDef (s : State) (d : Nat) (f : Field) (ev kind : Nat) (on : Bool) (deconf : Bool := false) : State :=
  if s.rdb (pgOtu d) f = on then s
  else (((s.wrb (pgOtu d) f on).sectionSeen d).ev (pgOtu d) ev).epiPush (sliceRegion d) false d kind on deconf

/-- The OTUCn's dTIM (R143): of position 1, or under tti_all of any position. -/
def State.otucTim (s : State) (lead : Nat) : Bool :=
  if s.ifF lead OTU_IF.tti_all = 0 then s.rdb (pgOtu lead) OTU_STATUS_dtim
  else (s.otucMembers lead).any (fun d => s.rdb (pgOtu d) OTU_STATUS_dtim)

/-- aSSF of the OTUCn led by `lead` (R148). -/
def State.otucSsf (s : State) (lead : Nat) : Bool :=
  (s.otucMembers lead).any (fun d =>
      s.rdb (pgOtu d) OTU_STATUS_dlof || s.rdb (pgOtu d) OTU_STATUS_dlom || s.sliceHeld d || !s.rdb (pgOtu d) PAGE_CTRL_run) ||
  s.rdb (pgOtu lead) OTU_STATUS_dlom_cn || (s.otucTim lead && !s.rdb (pgOtu lead) OTU_SM_CFG_tim_act_dis)

/-- aSSD of the OTUCn (R148). -/
def State.otucSsd (s : State) (lead : Nat) : Bool := (s.otucMembers lead).any (fun d => s.rdb (pgOtu d) OTU_STATUS_ddeg)

/-- Bring the OTUCn's aSSF and aSSD up to date on every member's page; a change records ssf on the lead page (R148,
R149). -/
def State.refreshOtuc (s : State) (lead : Nat) : State :=
  let ssf := s.otucSsf lead
  let ssd := s.otucSsd lead
  let changed := s.rdb (pgOtu lead) OTU_STATUS_ssf != ssf || s.rdb (pgOtu lead) OTU_STATUS_ssd != ssd
  let s := s.each (s.otucMembers lead) (fun s d => ((s.wrb (pgOtu d) OTU_STATUS_ssf ssf).wrb (pgOtu d) OTU_STATUS_ssd ssd).sectionSeen d)
  s.evWhen changed (pgOtu lead) otuSsf

/-! ### Point defects -/

/-- Bits of an MP_STATUS entry (Table ODU-10). -/
def mpAis : TField := MP_STATUS.dais

/-- The episode kind of each defect bit of MP_STATUS (Table ODU-14). -/
def mpKind (b : Nat) : Nat := [11, 12, 13, 14, 18, 15, 17, 19, 16, 20, 21, 22, 23, 24].getD b 0

/-- The flag of Table ODU-13 that a defect bit of MP_STATUS raises. -/
def mpFlag (b : Nat) : Nat := [8, 16, 32, 64, 256, 128, 2, 256, 512, 1024, 1024, 1024, 1024, 1024].getD b 0

/-- A flag counts in the running second of a point. -/
def State.pointSeen (s : State) (m flags : Nat) : State := s.setPoint m (fun p => { p with flags := p.flags ||| flags })

/-- Set a defect of a point of block B: bit b of its MP_STATUS entry e, the page event, the flag of its second, the episode of point
m (R176, R186, R190, R196); a context defect records ctx_defect on the context's page too (R195). A change in the DP cycle of the
point's adoption is discarded (R168). -/
def State.pointDef (s : State) (B dir m e b : Nat) (on : Bool) (deconf : Bool := false) : State :=
  let f : TField := ⟨b, b⟩
  if s.tgetb (pgMpt B) T_MP_STATUS e f = on ∨ (s.point m).bornAt = s.dpCycle + 1 then s
  else
    let s := (s.tputb (pgMpt B) T_MP_STATUS e f on).ev (pgMpt B) 0
    let s := if on then s.pointSeen m (mpFlag b) else s
    let s := s.evWhen (decide (9 ≤ b)) (pgOd B dir) 3
    s.epiPush (B / 8) true m (mpKind b) on deconf

def State.mpBit (s : State) (B e : Nat) (f : TField) : Bool := s.tgetb (pgMpt B) T_MP_STATUS e f

/-- A point's settings in effect. -/
def State.mpCfg (s : State) (B e : Nat) (f : TField) : Nat := s.effF (pgMpt B) T_MP_CFG e f
def State.mpCfgB (s : State) (B e : Nat) (f : TField) : Bool := decide (s.mpCfg B e f ≠ 0)

/-- dAIS, dOCI, dLCK, dLTC or input SSF: the conditions under which R177 silences a point. -/
def State.pointSilent (s : State) (B e : Nat) : Bool :=
  s.mpBit B e MP_STATUS.ssf || s.mpBit B e MP_STATUS.dais || s.mpBit B e MP_STATUS.doci || s.mpBit B e MP_STATUS.dlck ||
  s.mpBit B e MP_STATUS.dltc

/-- aTSF of a point (Table ODU-11); `plm` is dPLM on the PM point of a context with client = 1. -/
def State.pointTsf (s : State) (B e : Nat) (plm : Bool) : Bool :=
  s.mpBit B e MP_STATUS.ssf || s.mpBit B e MP_STATUS.dais || s.mpBit B e MP_STATUS.doci || s.mpBit B e MP_STATUS.dlck ||
  (s.mpBit B e MP_STATUS.dltc && !s.mpCfgB B e MP_CFG.ltc_act_dis) ||
  (s.mpBit B e MP_STATUS.dtim && !s.mpCfgB B e MP_CFG.tim_act_dis) || plm

/-- aAIS of an operational ingress point (Table ODU-11): the rows of aTSF but dAIS. -/
def State.pointAis (s : State) (B e : Nat) (plm : Bool) : Bool :=
  s.mpBit B e MP_STATUS.ssf || s.mpBit B e MP_STATUS.doci || s.mpBit B e MP_STATUS.dlck ||
  (s.mpBit B e MP_STATUS.dltc && !s.mpCfgB B e MP_CFG.ltc_act_dis) ||
  (s.mpBit B e MP_STATUS.dtim && !s.mpCfgB B e MP_CFG.tim_act_dis) || plm

/-- aBDI of an operational ingress point (Table ODU-11): dLTC and dTIM give it whatever their settings. -/
def State.pointBdi (s : State) (B e : Nat) : Bool :=
  s.mpBit B e MP_STATUS.ssf || s.mpBit B e MP_STATUS.dais || s.mpBit B e MP_STATUS.doci || s.mpBit B e MP_STATUS.dlck ||
  s.mpBit B e MP_STATUS.dltc || s.mpBit B e MP_STATUS.dtim

/-- The flags of Table ODU-13 that hold now at a point: ne_ds, fe_ds, ssf_in, the defects, ctx_def, suspect, replaced. -/
def State.pointFlags (s : State) (B e : Nat) (isPm : Bool) (suspect replaced : Bool) : Nat :=
  let v := s.entry (pgMpt B) T_MP_STATUS e
  let b (i : Nat) : Bool := bit v i
  b2n (b 14) + 2 * b2n (b 6) + 4 * b2n (b 16) + 8 * b2n (b 0) + 16 * b2n (b 1) + 32 * b2n (b 2) + 64 * b2n (b 3) +
  128 * b2n (b 5) + 256 * b2n (b 4 || b 7) + 512 * b2n (b 8) + 1024 * b2n (isPm && decide (getBits v 13 9 ≠ 0)) +
  2048 * b2n suspect + 4096 * b2n replaced

/-- Bring a point's derived state up to date: input SSF, the silencing of R177, aTSF and aTSD (R180, event bit 2 of the
MPT page), and the flags of its second. DESIGN CHOICE (log 63): the runs of dIAE, dBDI and dBIAE start again at 0 while a point is
silenced. -/
def State.refreshPoint (s : State) (B dir m e : Nat) (ssf plm : Bool) : State :=
  let pg := pgMpt B
  let s := s.tputb pg T_MP_STATUS e MP_STATUS.ssf ssf
  let s := if s.pointSilent B e then
      let s := (((s.pointDef B dir m e 5 false).pointDef B dir m e 6 false).pointDef B dir m e 7 false).pointDef B dir m e 4 false
      s.setPoint m (fun p => { p with neutral := true, bdiRun := 0, biaeRun := 0
                                      stats := p.stats.map (fun x => { x with iae := false, rIae := 0 }) })
    else s
  let tsf := s.pointTsf B e plm
  let tsd := s.mpBit B e MP_STATUS.ddeg
  let changed := s.mpBit B e MP_STATUS.atsf != tsf || s.mpBit B e MP_STATUS.atsd != tsd
  let s := (s.tputb pg T_MP_STATUS e MP_STATUS.atsf tsf).tputb pg T_MP_STATUS e MP_STATUS.atsd tsd
  (s.pointSeen m (b2n tsf + 4 * b2n ssf)).evWhen changed pg 2

/-- A point shows nothing any more; the end of its aTSF or aTSD is a change (R196). -/
def State.pointHide (s : State) (B e : Nat) : State :=
  let s := s.evWhen (s.mpBit B e MP_STATUS.atsf || s.mpBit B e MP_STATUS.atsd) (pgMpt B) 2
  (s.setEntry (pgMpt B) T_MP_STATUS e 0).setEntry (pgMpt B) T_MP_TTI_ACC e 0

/-! ### Contexts -/

/-- The shared points of a block that watch a context in one direction: ODUCn points (kind 1) and spotlights (kind 2). -/
def State.sharedOn (s : State) (B dir e : Nat) : List Nat :=
  ((s.effRows (pgMpt B) T_SHP).filter (fun x => efieldb x.2 SHP.valid && decide (efield x.2 SHP.dir = dir ∧ efield x.2 SHP.target = e))).map
    (·.1)

/-- The mode of a shared point: an ODUCn point's own, a spotlight's always monitor (Table ODU-9). -/
def State.sharedMode (s : State) (B q : Nat) : Nat :=
  if s.effF (pgMpt B) T_SHP q SHP.kind = 1 then s.effF (pgMpt B) T_SHP q SHP.mode else 2

/-- The points of a context that judge its frames: (point number, MPT entry, level, mode), dedicated slots first. -/
def State.ctxPoints (s : State) (B dir e : Nat) : List (Nat × Nat × Nat × Nat) :=
  ((List.range 7).map (fun t => (dedPoint (s.ctxGroup B dir e) t, dedEntry dir e t, t, s.slotMode B dir e t))).filter
    (fun p => decide (p.2.2.2 ≠ 0)) ++
  (s.sharedOn B dir e).map (fun q => (shPoint B q, shEntry q, s.effF (pgMpt B) T_SHP q SHP.level, s.sharedMode B q))

def State.ctxStatus (s : State) (B dir e : Nat) (f : TField) : Nat := s.tget (pgOd B dir) T_CTX_STATUS e f
def State.ctxStatusB (s : State) (B dir e : Nat) (f : TField) : Bool := s.tgetb (pgOd B dir) T_CTX_STATUS e f

/-- The slots of a carrier whose accepted MSI entry differs from its TS row (dMSIM, Table ODU-10). An entry is kept as 0
for unallocated, tpn + 1 otherwise. -/
def State.msiBad (s : State) (B e : Nat) : List Nat :=
  let stage0 := s.ctxF B 0 e CTX.stage = 0
  let h := s.ctxF B 0 e CTX.ho_handle
  ((s.ctx B 0 e).msiAcc.filter (fun x =>
    let v := if stage0 then s.eff (pgOdi B) T_TS1 x.1 else s.eff (pgOdi B) T_TS2 (80 * h + x.1)
    let want := if efieldb v TS1.used then efield v TS1.tpn + 1 else 0
    decide (x.2 ≠ want + 1))).map (·.1)

/-- Input SSF of an ingress context (R178). -/
def State.ctxSsf (s : State) (B e : Nat) : Bool :=
  let stage := s.ctxF B 0 e CTX.stage
  let own := s.mpBit B (dedEntry 0 e 0) MP_STATUS.dloflom
  if stage = 0 then s.rdb (pgOtu (16 * B + s.ctxF B 0 e CTX.lead)) OTU_STATUS_ssf
  else
    let p := s.ctxF B 0 e CTX.parent
    let up := s.ctxStatusB B 0 p CTX_STATUS.ssf_in || s.ctxStatusB B 0 p CTX_STATUS.out_sf
    let bad := s.msiBad B p
    if stage = 1 then up || own || (s.ts1Of B 0 e).any bad.contains
    else up || own || s.mpBit B (dedEntry 0 p 0) MP_STATUS.dplm || s.mpBit B (dedEntry 0 p 0) MP_STATUS.dloomfi ||
      (s.ts2Of B 0 e).any (fun x => bad.contains (x % 80))

/-- The block's restart still forces ODU-AIS on an ingress context (file 01, R17). -/
def State.blkForced (s : State) (B e : Nat) : Bool :=
  decide ((s.blk.get {} B).forcedLeads ≠ []) && (s.ctxSlices B 0 e).any (fun d => (s.blk.get {} B).forcedLeads.contains (s.sliceLead d))

/-- Whether any slot of a stage-one or stage-two context carries the all-ones fill (R179), or a restart forces it. -/
def State.ctxFill (s : State) (B e : Nat) : Bool :=
  (decide (s.ctxF B 0 e CTX.stage ≠ 0) && (s.ctxSlices B 0 e).any s.sliceFill) || s.blkForced B e

/-- dPLM of a PM point as Table ODU-11 uses it: on a context with client = 1. -/
def State.ctxPlm (s : State) (B e : Nat) : Bool := s.ctxB B 0 e CTX.client && s.mpBit B (dedEntry 0 e 0) MP_STATUS.dplm

/-- The context itself is to send ODU-AIS toward stages 11 to 13 (R179, R181, R185): the all-ones replacement, force_ais, its mark, a
restart of its block, or aAIS of an operational point. -/
def State.ctxOwnAis (s : State) (B e : Nat) : Bool :=
  (s.ctx B 0 e).fill || s.blkForced B e || s.ctxB B 0 e CTX.force_ais || s.ctxStatusB B 0 e CTX_STATUS.forced ||
  (s.ctxPoints B 0 e).any (fun p => decide (p.2.2.2 = 1) && s.pointAis B p.2.1 (decide (p.2.2.1 = 0) && s.ctxPlm B e))

/-- ODU-AIS in place of a context's output: its own, or that of the parent of a stage-two context. -/
def State.ctxAis (s : State) (B e : Nat) : Bool :=
  s.ctxOwnAis B e || (decide (s.ctxF B 0 e CTX.stage = 2) && s.ctxOwnAis B (s.ctxF B 0 e CTX.parent))

/-- A frame begins at a context's output (R181). -/
def State.aisFrame (s : State) (B e : Nat) : State := s.setCtx B 0 e (fun c => { c with ais := s.ctxAis B e, aisOld := c.ais })

/-- The leg status codes of CTX_STATUS. -/
def legOk : Nat := 0
def legSd : Nat := 1
def legSf : Nat := 2
def legSuspect : Nat := 3

/-- The worse of two leg statuses: SF, then SD, then SUSPECT, then OK. -/
def worseLeg (a b : Nat) : Nat :=
  if a = legSf ∨ b = legSf then legSf else if a = legSd ∨ b = legSd then legSd else max a b

/-! ### Clients -/

/-- The page of a block's clients in direction d: 0 DMP, 1 MAP. -/
def pgCli (B d : Nat) : Nat := if d = 0 then pgDmp B else pgMap B
/-- The record of the line client led by lane n. -/
def lineKey (n : Nat) : Nat := 131072 + n
def State.cli (s : State) (k : Nat) : Cli := s.clis.get {} k
def State.setCli (s : State) (k : Nat) (f : Cli → Cli) : State := { s with clis := s.clis.upd {} k f }
def State.cliF (s : State) (B d e : Nat) (f : TField) : Nat := s.effF (pgCli B d) T_CLI_CFG e f
def State.cliCode (s : State) (B d e : Nat) : Nat := s.cliF B d e CLI_CFG.client
def State.cliB (s : State) (B d e : Nat) (f : TField) : Bool := s.tgetb (pgCli B d) T_CLI_STATUS e f
/-- The context terminates a client (R225). -/
def State.isClient (s : State) (B d e : Nat) : Bool := s.ctxB B d e CTX.valid && s.ctxB B d e CTX.client

/-- A defect that makes an ingress client context SF (R220). -/
def State.cliSf (s : State) (B e : Nat) : Bool :=
  s.isClient B 0 e && (s.cliB B 0 e CLI_STATUS.clos || s.cliB B 0 e CLI_STATUS.cjc || s.cliB B 0 e CLI_STATUS.crate ||
    s.mpBit B (dedEntry 0 e 0) MP_STATUS.dcsf)

/-- Set the replacement of a client: a start counts in repl; both record repl (R221, R227). -/
def State.setRepl (s : State) (B d e : Nat) (on : Bool) : State :=
  if s.cliB B d e CLI_STATUS.replacing = on then s
  else
    let s := (s.tputb (pgCli B d) T_CLI_STATUS e CLI_STATUS.replacing on).ev (pgCli B d) 1
    if on then s.tcount (pgCli B d) T_CLI_CNT e CLI_CNT.repl else s

/-- Bring the replacement of an ingress client context up to date (R221): a PN-11 replacement ends at the next server
period, any other at once. -/
def State.refreshCliIn (s : State) (B e : Nat) : State :=
  let on := s.isClient B 0 e &&
    (s.cliSf B e || decide (s.ctxStatus B 0 e CTX_STATUS.leg = 2) || decide (s.cliF B 0 e CLI_CFG.force_repl ≠ 0))
  if on then s.setRepl B 0 e true
  else if s.cliCode B 0 e = 6 ∧ s.isClient B 0 e then s else s.setRepl B 0 e false

/-- The lanes' PCS alignment as the line client's lead lane shows it (R215). -/
def State.ethAligned (s : State) (n : Nat) : Bool :=
  (s.ethIfLanes n).all (fun k => s.rdb (pgLln k) LLN_STATUS_cw_lock && s.rdb (pgLln k) LLN_SKEW_valid && !(s.lanes.get {} k).skewBad)

/-- Leg status of a line client (R220): force_lf meets the receive side while a loopback is active on a lane of the
client. -/
def State.ethLeg (s : State) (n : Nat) : Nat :=
  let pg := pgEth n
  if s.rdb pg ETH_STATUS_clos || s.rdb pg ETH_STATUS_crate ||
    (s.effB pg T_ETH_CFG 0 ETH_CFG.force_lf && (s.ethIfLanes n).any (fun k => s.rdb (pgLln k) LLN_STATUS_lb_active)) then 2
  else if (s.cli (lineKey n)).trig then 3
  else 0

/-- Bring a line client's status up to date (R220, R221); the page of a lane that leads no client shows nothing (R228). -/
def State.refreshEth (s : State) (n : Nat) : State :=
  let pg := pgEth n
  if s.ethEn n then
    let s := (s.wrb pg ETH_STATUS_aligned (s.ethAligned n)).wr pg ETH_STATUS_leg (s.ethLeg n)
    let s := s.setCli (lineKey n) (fun c => { c with worst := worseLeg c.worst (s.ethLeg n) })
    let on := decide (s.ethLeg n = 2)
    if s.rdb pg ETH_STATUS_replacing = on then s
    else
      let s := (s.wrb pg ETH_STATUS_replacing on).ev pg 4
      if on then s.count pg ETH_REPL else s
  else s

/-- The lead lane of the Ethernet client that a lane belongs to. -/
def State.ethLead (s : State) (n : Nat) : Option Nat :=
  ((List.range 4).map (fun j => 4 * (n / 4) + j)).find? (fun k => s.ethEn k && (s.ethIfLanes k).contains n)

/-- Bring the line client of a lane up to date. -/
def State.refreshLine (s : State) (n : Nat) : State :=
  match s.ethLead n with
  | some k => s.refreshEth k
  | none => s

/-- A trigger of R111 on a lane of a line client (R220). -/
def State.suspectLine (s : State) (n : Nat) : State :=
  match s.ethLead n with
  | some k => (s.setCli (lineKey k) (fun c => { c with trig := true })).refreshEth k
  | none => s

/-- Leg status of an ingress context (R183). -/
def State.ctxLeg (s : State) (B e : Nat) : Nat :=
  let l := s.ctxF B 0 e CTX.ls_level
  let server := decide (l = 7) || decide (s.slotMode B 0 e l = 0)
  let sf := if server then s.ctxStatusB B 0 e CTX_STATUS.ssf_in else s.mpBit B (dedEntry 0 e l) MP_STATUS.atsf
  let sd := !server && s.mpBit B (dedEntry 0 e l) MP_STATUS.atsd
  if sf || s.cliSf B e || s.ctxB B 0 e CTX.force_ais || s.ctxStatusB B 0 e CTX_STATUS.forced ||
      s.blkForced B e then legSf
  else if sd then legSd
  else if (s.ctx B 0 e).trig || (s.ctx B 0 e).fill then legSuspect
  else legOk

/-- A context loses its stamp lock (file 08, R272, R303). -/
def State.stampUnlock (s : State) (B e : Nat) : State :=
  let s := s.setCtx B 0 e (fun c => { c with stRun := 0, stBad := 0 })
  if s.tgetb (pgOdi B) T_STAMP_RX e STAMP_RX.locked then (s.tputb (pgOdi B) T_STAMP_RX e STAMP_RX.locked false).ev (pgOdi B) 5 else s

/-- Bring an ingress context's derived state up to date, its points first (R177 to R183). The end of an all-ones
replacement starts the SUSPECT hold (R234). -/
def State.refreshCtx (s : State) (B e : Nat) : State :=
  let ssf := s.ctxSsf B e
  let fill := s.ctxFill B e
  let s := s.setCtx B 0 e (fun c => { c with
    trig := c.trig || (c.fill && !fill), fill := fill, ais := c.ais || fill, aisOld := c.aisOld || fill })
  let s := s.tputb (pgOdi B) T_CTX_STATUS e CTX_STATUS.ssf_in ssf
  let s := s.tputb (pgOdi B) T_CTX_STATUS e CTX_STATUS.replaced fill
  let pts := s.ctxPoints B 0 e
  let s := s.each pts (fun s p => s.refreshPoint B 0 p.1 p.2.1 ssf (decide (p.2.2.1 = 0) && s.ctxPlm B e))
  let s := s.each ((List.range 7).filter (fun t => decide (s.slotMode B 0 e t = 0))) (fun s t =>
    (s.tputb (pgMpt B) T_MP_STATUS (dedEntry 0 e t) MP_STATUS.ssf ssf).pointSeen (dedPoint (s.ctxGroup B 0 e) t) (4 * b2n ssf))
  let sf := pts.any (fun p => decide (p.2.2.2 = 1) && s.mpBit B p.2.1 MP_STATUS.atsf)
  let sfOld := s.ctxStatusB B 0 e CTX_STATUS.out_sf
  let s := (s.tputb (pgOdi B) T_CTX_STATUS e CTX_STATUS.out_sf sf).evWhen (sf != sfOld) (pgOdi B) 0
  let leg := s.ctxLeg B e
  let legOld := s.ctxStatus B 0 e CTX_STATUS.leg
  let s := (s.tput (pgOdi B) T_CTX_STATUS e CTX_STATUS.leg leg).evWhen (decide (leg ≠ legOld)) (pgOdi B) 1
  let s := s.setCtx B 0 e (fun c => { c with worst := worseLeg c.worst leg })
  let s := s.refreshCliIn B e
  let s := if ssf || fill || s.mpBit B (dedEntry 0 e 0) MP_STATUS.dloflom then s.stampUnlock B e else s
  let seen := 2048 * b2n (decide (leg = legSuspect)) + 4096 * b2n fill
  s.each ((List.range 7).map (dedPoint (s.ctxGroup B 0 e)) ++ (s.sharedOn B 0 e).map (shPoint B)) (fun s m => s.pointSeen m seen)

/-- Bring every ingress context of a block up to date, carriers before what they carry. -/
def State.refreshCtxs (s : State) (B : Nat) : State :=
  let es := s.ctxSlots B 0
  let of (k : Nat) := es.filter (fun e => decide (s.ctxF B 0 e CTX.stage = k))
  s.each (of 0 ++ of 1 ++ of 2) (fun s e => s.refreshCtx B e)

/-- Bring the OTUCn signals and the contexts of a block up to date. -/
def State.refreshBlock (s : State) (B : Nat) : State := (s.each (s.blockLeads B) State.refreshOtuc).refreshCtxs B

/-! ### SUSPECT -/

/-- Raise SUSPECT for every context carried in a slice (R111, R133, R234). -/
def State.raiseSuspect (s : State) (d : Nat) : State :=
  let B := d / 16
  (s.each (s.carriedIn d) (fun s e => s.setCtx B 0 e (fun c => { c with trig := true }))).refreshCtxs B

/-- Whether a lasting trigger of a context holds (R234): loss of signal or of codeword lock on a lane that carries it, or
the replacement. -/
def State.lastingTrigger (s : State) (B e : Nat) : Bool :=
  (s.ctx B 0 e).fill || (s.ctxSlices B 0 e).any (fun d =>
    let n := sliceLane d
    s.rdb (pgLln n) LLN_STATUS_trained && (!s.rdb (pgLln n) LLN_STATUS_sig_det || !s.rdb (pgLln n) LLN_STATUS_cw_lock))

end Sys2Proof.Machine
end

