-- ==== Sys2Proof/Machine/ModeOps.lean ====
section
/-! DEFINITION. Chip mode, region state and the MODE command in progress (file 16, R541 to R551; file 01, R40 to R42). -/

namespace Sys2Proof.Machine

open Sys2Proof

/-- MODE_CMD_STATUS codes. -/
def mcDone : Nat := 0
def mcPending : Nat := 1
def mcMode : Nat := 2
def mcState : Nat := 3
def mcFault : Nat := 4
def mcOwner : Nat := 5
def mcBusy : Nat := 6
def mcRange : Nat := 7

/-- MODE operations (Table MOD-1). -/
def opService : Nat := 0x1
def opRehearse : Nat := 0x2
def opAudit : Nat := 0x3
def opEnterSafe : Nat := 0x4
def opExitSafe : Nat := 0x5
def opEnterDark : Nat := 0x6
def opDrain : Nat := 0x8
def opOffline : Nat := 0x9
def opResume : Nat := 0xA
def opReset : Nat := 0xB
def opResetClear : Nat := 0xC
def opUpdate : Nat := 0xD
def opStackRetrain : Nat := 0xE

/-- The status of a master's own last MODE command (R543). -/
def State.modeStatus (s : State) (m : Master) (op code : Nat) : State :=
  (s.wr (rqPage pgMode m) MODE_CMD_STATUS_op op).wr (rqPage pgMode m) MODE_CMD_STATUS_code code

/-- A MODE command completes with a code and records cmd_done (R543). -/
def State.modeFinish (s : State) (m : Master) (op code : Nat) : State := (s.modeStatus m op code).ev pgMode 2

/-- The PENDING command completes. -/
def State.modeEnd (s : State) (code : Nat) : State :=
  match s.modeCmd with
  | some c => { (s.modeFinish c.master c.op code) with modeCmd := none }
  | none => s

/-- A command becomes PENDING. -/
def State.modePend (s : State) (m : Master) (op arg : Nat) : State :=
  { (s.modeStatus m op mcPending) with modeCmd := some { op := op, arg := arg, master := m } }

/-- An UPDATE of region r is PENDING (R555). -/
def State.updating (s : State) (r : Nat) : Bool :=
  match s.modeCmd with
  | some c => decide (c.op = opUpdate ∧ c.arg = r)
  | none => false

/-- Change MODE.current with its event and prompt book entry (R544); `old` is the old mode named in the entry. -/
def State.setModeFrom (s : State) (old new : Nat) : State :=
  let s := s.wr pgMode MODE_current new
  (s.ev pgMode 0).logRec 0x07 new (srcChip kindSelf 0) (old + 256 * s.rd pgMode MODE_model)

def State.setMode (s : State) (new : Nat) : State := if s.mode = new then s else s.setModeFrom s.mode new

/-- Every region is ACTIVE. -/
def State.allActive (s : State) : Bool := (List.range 8).all (fun r => decide (s.region r = rgnActive))

/-- Tie the chip mode to the region states (R41): a service mode becomes INTERMISSION when a region leaves ACTIVE and
returns when all are ACTIVE again. -/
def State.tieMode (s : State) : State :=
  if s.mode = modeNative ∨ s.mode = modeCompat then (if s.allActive then s else s.setMode modeIntermission)
  else if s.mode = modeIntermission then (if s.allActive then s.setMode (s.rd pgMode MODE_service) else s)
  else s

/-- Change a region's state with its event and prompt book entry (R551); `cause` is 0 for a command, 1 for the
collector. -/
def State.moveRegion (s : State) (r new cause : Nat) : State :=
  if s.region r = new then s
  else ((s.wr pgMode (MODE_REGIONS_state r) new).ev pgMode 1).logRec 0x08 new (srcRegion r) (s.region r + 256 * cause)

/-- Change a region's state; the chip mode follows. -/
def State.setRegion (s : State) (r new cause : Nat) : State := if s.region r = new then s else (s.moveRegion r new cause).tieMode

/-- The region modes of Table MOD-1. -/
def isRegionMode (m : Nat) : Bool :=
  decide (m = modeRehearsal ∨ m = modeNative ∨ m = modeCompat ∨ m = modeIntermission ∨ m = modeAudit)

/-- The service modes in which the tests of R118 and R345 are bound to lanes without a committed interface. -/
def isServiceMode (m : Nat) : Bool := decide (m = modeNative ∨ m = modeCompat ∨ m = modeIntermission)

end Sys2Proof.Machine
end

