-- ==== Sys2Proof/Machine/Lanes.lean ====
section
/-! DEFINITION. Line lanes: equalisers, adaptation and trial steps, codeword counting, locks, deskew, PRBS and loopbacks
(file 03, R85 to R122). -/

namespace Sys2Proof.Machine

open Sys2Proof

def State.lane (s : State) (n : Nat) : Lane := s.lanes.get {} n
def State.setLane (s : State) (n : Nat) (f : Lane → Lane) : State := { s with lanes := s.lanes.upd {} n f }

/-- The live FEC counters stand on a page of their own; the FEC page's registers hold the last snapshot (R109). -/
def fecLive (n : Nat) : Nat := pgFec n + 65536 * 1000

/-- Event bits of an LLN page (R121). -/
def llnLos : Nat := 0
def llnCdrUnlock : Nat := 1
def llnCwUnlock : Nat := 2
def llnTrained : Nat := 3
def llnTrialCeiling : Nat := 4
def llnMarginLow : Nat := 5
def llnSkewExceeded : Nat := 6
def llnPrbsLockLost : Nat := 7

/-- The lane cell runs: enabled, its block's region not in RESET, no physical lane claimed twice (R119). -/
def State.laneRuns (s : State) (n : Nat) : Bool :=
  s.rdb (pgLln n) PAGE_CTRL_run && !s.rdb (pgLln n) LLN_STATUS_swap_conflict && decide (s.region (laneRegion n) ≠ rgnReset) &&
  decide (s.mode ≠ modeDark)

/-- The clock unit of a lane's group: LGt on CSU page 1 + t. -/
def laneCsu (n : Nat) : Nat := pgCsu (1 + n / 8)

/-- Unit LGt is locked and ungated (R97, R120). -/
def State.laneClock (s : State) (n : Nat) : Bool := s.rdb (laneCsu n) CSU_STATUS_locked && !s.rdb (laneCsu n) CSU_STATUS_gated

/-- The lane's committed type equals the reference type of its group (R97; file 12, R411). -/
def State.laneTypeOk (s : State) (n : Nat) : Bool := decide (s.laneType n = (s.csus.get {} (1 + n / 8)).refType)

/-- The transmitter is on (R120); otherwise it is in electrical idle, as it is from a change of type or rate until the lane has
adapted again (R88). -/
def State.laneTransmits (s : State) (n : Nat) : Bool :=
  s.laneRuns n && s.rdb (pgLln n) LLN_TX_EN_tx_en && s.laneClock n && !(s.lane n).retrain

/-! ### Balls, loopbacks and test patterns -/

/-- The physical lanes that a running lane uses in one direction. -/
def State.lanePhys (s : State) (n : Nat) : Nat × Nat :=
  (((s.lane n).rxPhys).getD (n % 4), ((s.lane n).txPhys).getD (n % 4))

/-- The balls of a lane, receive and transmit: 32 r + 4 b + p (R119). -/
def State.laneBalls (s : State) (n : Nat) : Nat × Nat := (n / 4 * 4 + (s.lanePhys n).1 % 4, n / 4 * 4 + (s.lanePhys n).2 % 4)

/-- Levels leave on a lane's transmit balls, unless its transmitter is idle (R119, R120). -/
def State.putLevels (s : State) (n : Nat) (levels : List Nat) : State :=
  if s.laneTransmits n then s.emit (.line (s.laneBalls n).2 (invertLevels (s.lane n).txInv levels)) else s

def State.prbsOf (s : State) (k : Nat) : Prbs := s.prbs.get {} k
def State.setPrbs (s : State) (k : Nat) (f : Prbs → Prbs) : State := { s with prbs := s.prbs.upd {} k f }

/-- The next n levels of a generator (R115); it starts from a register of ones (DESIGN CHOICE, log 102). -/
def State.genLevels (s : State) (key code n : Nat) : List Nat × State :=
  let reg := (s.prbsOf key).gen
  let (bs, reg) := prbsBits code (2 * n) (if reg = 0 then prbsSeed code else reg)
  (pam4 bs, s.setPrbs key (fun x => { x with gen := reg }))

/-- What a lane's transmitter makes of its own data (R115, R117): the generator replaces all of it; near loopback returns it to
the lane's receiver and drives the balls only with near_drive = 1; far loopback discards it. -/
def State.sendLane (s : State) (n : Nat) (own : List Nat) : State :=
  let l := s.lane n
  let (data, s) := if l.genEff then s.genLevels n l.patEff own.length else (own, s)
  if l.lbEff = 1 then
    let s := s.setLane n (fun l => { l with loop := data })
    if s.rdb (pgLln n) LLN_LB_near_drive then s.putLevels n data else s
  else if l.lbEff = 2 then s
  else s.putLevels n data

/-- The levels that reach a lane's receiver (R117, R119): its own in near loopback, otherwise those at its balls. -/
def State.laneReceived (s : State) (n : Nat) (levels : List Nat) : List Nat :=
  let l := s.lane n
  if l.lbEff = 1 then l.loop else invertLevels l.rxInv levels

/-- Far loopback sends the recovered data (R117). -/
def State.farLoop (s : State) (n : Nat) (rx : List Nat) : State := if (s.lane n).lbEff = 2 then s.putLevels n rx else s

/-! ### Transmit taps -/

def clampInt (lo hi x : Int) : Int := max lo (min hi x)

/-- Apply the taps and swing of LLN_TX_FIR0 and LLN_TX_FIR1 together (R95): each tap clamped to its range; a set that
leaves the main tap below 64/128 keeps the previous set. -/
def State.applyFir (s : State) (n : Nat) : State :=
  let pg := pgLln n
  let m3 := clampInt (-16) 0 (toSigned 8 (s.rd pg LLN_TX_FIR0_c_m3))
  let m2 := clampInt 0 32 (toSigned 8 (s.rd pg LLN_TX_FIR0_c_m2))
  let m1 := clampInt (-64) 0 (toSigned 8 (s.rd pg LLN_TX_FIR0_c_m1))
  let p1 := clampInt (-48) 0 (toSigned 8 (s.rd pg LLN_TX_FIR1_c_p1))
  let p2 := clampInt 0 16 (toSigned 8 (s.rd pg LLN_TX_FIR1_c_p2))
  if 128 - (m3.natAbs + m2.natAbs + m1.natAbs + p1.natAbs + p2.natAbs : Int) < 64 then s.wrb pg LLN_STATUS_fir_refused true
  else
    (s.wrb pg LLN_STATUS_fir_refused false).setLane n (fun l => { l with
      tapM3 := m3, tapM2 := m2, tapM1 := m1, tapP1 := p1, tapP2 := p2, swing := s.rd pg LLN_TX_FIR1_swing })

/-- A write of LLN_TX_FIR1 (R95): the register takes the value, then all taps and swing are applied. -/
def State.writeFir1 (s : State) (n v : Nat) : State :=
  let pg := pgLln n
  (((s.wr pg LLN_TX_FIR1_swing (getBits v 27 24)).wr pg LLN_TX_FIR1_c_p2 (getBits v 15 8)).wr pg LLN_TX_FIR1_c_p1
    (getBits v 7 0)).applyFir n

/-! ### Receiver settings and trials -/

/-- Put receiver settings in use; LLN_RX_EQ shows them (R106). -/
def State.setEq (s : State) (n ctle dfe phase mlse : Nat) : State :=
  let pg := pgLln n
  (((s.wr pg LLN_RX_EQ_ctle ctle).wr pg LLN_RX_EQ_dfe dfe).wr pg LLN_RX_EQ_phase phase).wr pg LLN_RX_EQ_mlse mlse

/-- A write of LLN_RX_EQ (R106): with freeze = 1 the settings take effect, with freeze = 0 the write is ignored. A DFE
value above 63, for which R96 gives no setting, leaves the tap at a free value of its range. -/
def State.writeRxEq (s : State) (n v : Nat) : State :=
  if s.rdb (pgLln n) LLN_ADAPT_CFG_freeze then
    let dfe := getBits v 14 8
    let (fv, s) := if dfe ≤ 63 then (dfe, s) else s.free 6
    s.setEq n (getBits v 3 0) fv (getBits v 21 16) (getBits v 24 24)
  else s

/-- How a trial ends (R105): the index of the counter it adds to. -/
def trialKept : Nat := 1
def trialRate : Nat := 2
def trialCeiling : Nat := 3
def trialAbort : Nat := 4

/-- End a running trial; unless the new setting is kept the previous one is restored (R101 to R103). No lane of the
block then waits for it. -/
def State.endTrial (s : State) (n how : Nat) : State :=
  if s.rdb (pgLln n) LLN_ADAPT_STATUS_trial_active then
    let l := s.lane n
    let s := (s.wrb (pgLln n) LLN_ADAPT_STATUS_trial_active false).count (pgLln n) (LLN_TRIAL_CNT_count how)
    let s := if how = trialKept then s else s.setEq n l.savedCtle l.savedDfe l.savedPhase l.savedMlse
    s.each ((List.range 4).map (4 * (n / 4) + ·)) (fun s k => s.wrb (pgLln k) LLN_ADAPT_STATUS_waiting false)
  else s

/-- A trial is aborted (R103). -/
def State.abortTrial (s : State) (n : Nat) : State := s.endTrial n trialAbort

/-- The elements that LLN_ADAPT_CFG.kinds allows, from `k` on in turn. -/
def nextKind (kinds k : Nat) : Option Nat :=
  ((List.range 4).map (fun i => (k + i) % 4)).find? (fun x => bit kinds x)

/-- A lane may start a trial but for its turn in the block (R100); `elapsed` says that its interval has passed. -/
def State.trialReady (s : State) (n : Nat) (elapsed : Bool) : Bool :=
  let pg := pgLln n
  elapsed && s.laneRuns n && s.rdb pg LLN_ADAPT_CFG_trial_en && !s.rdb pg LLN_ADAPT_CFG_freeze &&
  s.rdb pg LLN_STATUS_trained && s.rdb pg LLN_STATUS_cw_lock &&
  decide (s.rd pg LLN_ADAPT_CFG_floor < s.rd pg LLN_ADAPT_STATUS_margin) && decide ((s.lane n).lbEff = 0) &&
  !(s.lane n).genEff && !(s.lane n).chkEff && !s.rdb pg LLN_ADAPT_STATUS_trial_active &&
  (nextKind (s.rd pg LLN_ADAPT_CFG_kinds) (s.lane n).kindNext).isSome

/-- Step one receiver element by one step up or down (R100); a step beyond the element's range, for which the spec gives
no setting, leaves the element at a free value of its range. -/
def State.stepEq (s : State) (n kind : Nat) (down : Bool) : State :=
  let pg := pgLln n
  let ctle := s.rd pg LLN_RX_EQ_ctle
  let dfe := s.rd pg LLN_RX_EQ_dfe
  let ph := toSigned 6 (s.rd pg LLN_RX_EQ_phase)
  let mlse := s.rd pg LLN_RX_EQ_mlse
  let off (x : Int) : Int := if down then x - 1 else x + 1
  if kind = 0 then
    let x := off ctle
    if 0 ≤ x ∧ x ≤ 15 then s.wr pg LLN_RX_EQ_ctle x.toNat else let (v, s) := s.free 4; s.wr pg LLN_RX_EQ_ctle v
  else if kind = 1 then
    let x := off dfe
    if 0 ≤ x ∧ x ≤ 63 then s.wr pg LLN_RX_EQ_dfe x.toNat else let (v, s) := s.free 6; s.wr pg LLN_RX_EQ_dfe v
  else if kind = 2 then
    let x := off ph
    if -32 ≤ x ∧ x ≤ 31 then s.wr pg LLN_RX_EQ_phase (ofSigned 6 x) else let (v, s) := s.free 6; s.wr pg LLN_RX_EQ_phase v
  else s.wr pg LLN_RX_EQ_mlse (1 - mlse)

/-- Corrected symbols in the last k codewords. -/
def symsOf (recent : List Nat) (k : Nat) : Nat := ((recent.take k).filter (fun x => decide (x < 16))).sum

/-- A lane that waits for its turn stops waiting once it is not eligible any more (R100, R121). -/
def State.judgeWaiting (s : State) (n : Nat) : State :=
  if s.rdb (pgLln n) LLN_ADAPT_STATUS_waiting && !s.trialReady n true then s.wrb (pgLln n) LLN_ADAPT_STATUS_waiting false else s

/-- Start a trial on a lane (R100, R101). DESIGN CHOICE (log 103): the direction alternates from trial to trial of the lane,
whatever element each trial steps. -/
def State.beginTrial (s : State) (n : Nat) : State :=
  let pg := pgLln n
  let l := s.lane n
  let kind := (nextKind (s.rd pg LLN_ADAPT_CFG_kinds) l.kindNext).getD 0
  let s := s.setLane n (fun l => { l with
    savedCtle := s.rd pg LLN_RX_EQ_ctle, savedDfe := s.rd pg LLN_RX_EQ_dfe, savedPhase := s.rd pg LLN_RX_EQ_phase
    savedMlse := s.rd pg LLN_RX_EQ_mlse, baseline := symsOf l.recent 1024, dwellCw := 0, dwellSyms := 0
    kindNext := (kind + 1) % 4, stepDown := !l.stepDown })
  let s := s.stepEq n kind l.stepDown
  let s := (s.wrb pg LLN_ADAPT_STATUS_trial_active true).wr pg LLN_ADAPT_STATUS_kind kind
  let s := (s.wrb pg LLN_ADAPT_STATUS_waiting false).count pg (LLN_TRIAL_CNT_count 0)
  { s with blk := s.blk.upd {} (n / 4) (fun b => { b with trialLast := n % 4 }) }

/-- TRIAL_START on block B (R100): among the lanes that are ready the next in rotation starts, the others wait; while a
lane of the block is in a trial all that are ready wait. `elapsed` has bit j set when lane j's interval has passed. -/
def State.trialStart (s : State) (B elapsed : Nat) : State :=
  let lanes := (List.range 4).map (4 * B + ·)
  let ready := lanes.filter (fun n => s.trialReady n (bit elapsed (n % 4)))
  let busy := lanes.any (fun n => s.rdb (pgLln n) LLN_ADAPT_STATUS_trial_active)
  let s := s.each lanes (fun s n => s.wrb (pgLln n) LLN_ADAPT_STATUS_waiting (ready.contains n))
  if busy then s
  else
    let last := (s.blk.get {} B).trialLast
    match ((List.range 4).map (fun i => 4 * B + (last + 1 + i) % 4)).find? ready.contains with
    | some n => s.beginTrial n
    | none => s

/-- The new setting of a trial whose dwell is over stays (R101). -/
def Lane.trialGood (l : Lane) : Bool := decide (16 * l.dwellSyms ≤ l.baseline)

/-- TRIAL_DWELL_END (R101): after 64 codewords the new setting stays if 16 times the dwell's corrected symbols are at most
the baseline. -/
def State.trialDwellEnd (s : State) (n : Nat) : State :=
  let l := s.lane n
  if l.dwellCw ≠ 64 then s
  else s.endTrial n (if l.trialGood then trialKept else trialRate)

/-! ### Margin -/

/-- The FEC margin (R99). -/
def marginOf (lock : Bool) (recent : List Nat) : Nat :=
  if !lock ∨ recent.length < 4096 then 0
  else
    let worst := recent.foldl max 0
    if worst ≥ 16 then 0 else 15 - worst

/-- Show the margin; falling to floor or below records margin_low (R121). -/
def State.showMargin (s : State) (n : Nat) : State :=
  let pg := pgLln n
  let old := s.rd pg LLN_ADAPT_STATUS_margin
  let new := marginOf (s.rdb pg LLN_STATUS_cw_lock) (s.lane n).recent
  let fl := s.rd pg LLN_ADAPT_CFG_floor
  ((s.wr pg LLN_ADAPT_STATUS_margin new).evWhen (decide (fl < old ∧ new ≤ fl)) pg llnMarginLow).judgeWaiting n

/-! ### Codewords -/

/-- The uncorrectable codewords within the trigger's window reach its count (R110); the count is limited to the window,
0 acts as 1. -/
def State.burstReached (s : State) (n : Nat) : Bool :=
  let w := max 1 (s.rd (pgFec n) FEC_BURST_CFG_window)
  let c := min w (max 1 (s.rd (pgFec n) FEC_BURST_CFG_count))
  decide (c ≤ (((s.lane n).recent.take w).filter (fun x => decide (x = 16))).length)

/-- Raise SUSPECT on every context of a lane's slices, and on the Ethernet client of a lane (R111; file 06, R220). -/
def State.laneSuspect (s : State) (n : Nat) : State := (s.each (s.laneSlices n) State.raiseSuspect).suspectLine n

/-- One codeword of a lane with codeword lock (R99 to R111): `k` corrected symbols, 16 for an uncorrectable one. A trial's dwell
is its first 64 codewords (R101); until a setting that failed is restored, later ones still count as the trial's (R104). -/
def State.codeword (s : State) (n k : Nat) : State :=
  let pg := pgLln n
  let fp := pgFec n
  let lp := fecLive n
  let s := s.count lp FEC_CW
  let s := if k = 16 then (s.count lp FEC_UNCORR_CW).ev fp 1
    else ((s.count lp (FEC_HIST k)).count lp FEC_CORR_SYM k).count lp FEC_CORR_CW (if k = 0 then 0 else 1)
  let s := s.setLane n (fun l => { l with recent := (k :: l.recent).take 4096, burstHold := l.burstHold - 1 })
  let trial := s.rdb pg LLN_ADAPT_STATUS_trial_active
  let dwell := decide ((s.lane n).dwellCw < 64)
  let s :=
    if trial && (dwell || !(s.lane n).trialGood) then
      let s := if k = 16 then (s.count lp FEC_TRIAL_UNCORR).ev fp 2 else s.count lp FEC_TRIAL_SYM k
      if dwell then
        let s := s.setLane n (fun l => { l with dwellCw := l.dwellCw + 1, dwellSyms := l.dwellSyms + (if k = 16 then 0 else k) })
        if k = 16 ∨ s.rd pg LLN_ADAPT_CFG_ceiling < k then (s.endTrial n trialCeiling).ev pg llnTrialCeiling else s
      else s
    else s
  let s := s.showMargin n
  if k = 16 ∧ (s.lane n).burstHold = 0 ∧ s.rdb fp FEC_BURST_CFG_trigger_en ∧ s.burstReached n then
    (((s.count lp FEC_BURSTS).ev fp 0).setLane n (fun l => { l with burstHold := 65 })).laneSuspect n
  else s

/-- Every FEC counter of a lane (R122). -/
def fecCounters : List Field :=
  [FEC_CW, FEC_CORR_SYM, FEC_CORR_CW, FEC_UNCORR_CW, FEC_TRIAL_SYM, FEC_TRIAL_UNCORR, FEC_BURSTS] ++ (List.range 16).map FEC_HIST

/-- FEC_SNAP (R109). -/
def State.fecSnap (s : State) (n : Nat) : State :=
  (s.each fecCounters (fun s f => s.wr (pgFec n) f (s.rd (fecLive n) f))).count (pgFec n) FEC_SNAP_SEQ_seq

/-! ### Bonding -/

/-- Bytes in a multiframe of 256 OTUC frames. -/
def mfBytes : Nat := 15296 * 256

/-- Distance between two phases around a multiframe. -/
def phaseDist (a b : Nat) : Nat := min ((a + mfBytes - b) % mfBytes) ((b + mfBytes - a) % mfBytes)

/-- Judge the bond alignment of the compared members of an OTUCn (R140): frame starts within 256 bytes and equal MFAS,
which is that the multiframes start within 256 bytes of each other. -/
def State.judgeBond (s : State) (lead : Nat) : State :=
  let cmp := (s.otucMembers lead).filter (fun d => s.rdb (pgOtu d) OTU_STATUS_in_frame && s.rdb (pgOtu d) OTU_STATUS_im)
  let inBond := cmp.filter (fun d => s.rdb (pgOtu d) OTU_STATUS_bonded)
  let ph (d : Nat) : Nat := (s.slice d).phase
  let all := if inBond.isEmpty then cmp else inBond
  let ok (d : Nat) : Bool :=
    inBond.contains d || (d :: all).all (fun a => (d :: all).all (fun b => decide (phaseDist (ph a) (ph b) ≤ 256)))
  let bad := cmp.any (fun d => !ok d)
  let s := s.each (s.otucMembers lead) (fun s d => s.setSlice d (fun x => { x with aligned := cmp.contains d && ok d }))
  s.setSlice lead (fun x => { x with
    misaligned := bad, alRun := if bad || cmp.isEmpty then 0 else x.alRun, misEnd := if x.misaligned && !bad then s.dpCycle + 1 else x.misEnd })

/-! ### Realignment of slices -/

/-- A slice's frame machine enters SEARCH (R132, R136): counted and recorded as oof when it was not there; the
multiframe machine stops, the slice leaves its bond (R140, R141), and its second is neither bad nor good (R147). -/
def State.enterSearch (s : State) (d : Nat) : State :=
  let pg := pgOtu d
  let was := s.rd pg OTU_STATUS_fstate
  let oom := s.rdb pg OTU_STATUS_in_frame && !s.rdb pg OTU_STATUS_im
  let s := (s.setSlice d (fun x => { x with
    c := 0, e := 0, mfC := 0, mfF := 0, mfFirst := true, ifRun := 0, imRun := 0, oomEnd := if oom then s.dpCycle + 1 else x.oomEnd }))
  let s := s.setPoint (secPoint d) (fun p => { p with neutral := true })
  let s := ((s.wr pg OTU_STATUS_fstate fSearch).wrb pg OTU_STATUS_in_frame false).wrb pg OTU_STATUS_im false
  let s := s.wrb pg OTU_STATUS_bonded false
  let s := if s.sliceMember d then s.judgeBond (s.sliceLead d) else s
  if was = fSearch then s else (s.count pg OTU_OOF_CNT).ev pg otuOof

/-- A new deskew or a loss of marker lock sends the slice to SEARCH and records realign (R134). -/
def State.realignSlice (s : State) (d : Nat) : State :=
  if s.sliceRuns d then (s.enterSearch d).ev (pgOtu d) otuRealign else s

/-- Set the FlexO lock of a slice; a change records flexo (R129). -/
def State.setFlexoLock (s : State) (d : Nat) (b : Bool) : State :=
  if s.sliceRuns d then s.wrbEv (pgOtu d) OTU_STATUS_flexo_lock b otuFlexo else s

/-! ### Signal and locks -/

/-- Loss of signal on a line lane (R93, R103, R111). In near loopback the balls are ignored: their state is shown, and nothing
of the lane's data is touched (R117). -/
def State.lineLos (s : State) (n : Nat) : State :=
  if s.laneRuns n && s.rdb (pgLln n) LLN_STATUS_sig_det then
    let s := ((s.wrb (pgLln n) LLN_STATUS_sig_det false).ev (pgLln n) llnLos).abortTrial n
    if s.rdb (pgLln n) LLN_STATUS_trained && decide ((s.lane n).lbEff ≠ 1) then s.laneSuspect n else s
  else s

def State.lineSignal (s : State) (n : Nat) : State :=
  if s.laneRuns n then s.wrb (pgLln n) LLN_STATUS_sig_det true else s

def State.lineCdrLock (s : State) (n : Nat) : State :=
  if s.laneRuns n then s.wrb (pgLln n) LLN_STATUS_cdr_lock true else s

/-- Loss of CDR lock (R103, R121). -/
def State.lineCdrUnlock (s : State) (n : Nat) : State :=
  if s.laneRuns n && s.rdb (pgLln n) LLN_STATUS_cdr_lock then
    ((s.wrb (pgLln n) LLN_STATUS_cdr_lock false).ev (pgLln n) llnCdrUnlock).abortTrial n
  else s

/-- Skew of the lane's interface is to be measured again (R114). -/
def State.skewStale (s : State) (n : Nat) : State := s.each (s.laneIf n) (fun s k => s.wrb (pgLln k) LLN_SKEW_valid false)

/-- The lane, once trained (R97), gains codeword lock on all its instances (R112): its margin starts afresh (R99). -/
def State.cwLock (s : State) (n : Nat) : State :=
  if s.laneRuns n && s.rdb (pgLln n) LLN_STATUS_trained && !s.rdb (pgLln n) LLN_STATUS_cw_lock then
    let s := s.wrb (pgLln n) LLN_STATUS_cw_lock true
    let s := s.setLane n (fun l => { l with recent := [], instLock := 2 ^ s.laneInst n - 1 })
    ((s.showMargin n).skewStale n).refreshLine n
  else s

/-- Loss of marker lock on the instances of a mask (R111, R112, R134). -/
def State.cwUnlock (s : State) (n lost : Nat) : State :=
  let hit := (List.range 4).any (fun i => bit lost i && bit (s.lane n).instLock i)
  if s.laneRuns n && hit then
    let s := ((s.wrb (pgLln n) LLN_STATUS_cw_lock false).ev (pgLln n) llnCwUnlock).abortTrial n
    let ds := (s.laneSlices n).filter (fun d => bit lost (d % 4) && bit (s.lane n).instLock (d % 4))
    let s := s.setLane n (fun l => { l with instLock := l.instLock &&& (15 - lost % 16) })
    let s := s.showMargin n
    let s := s.each ds (fun s d => (s.setFlexoLock d false).realignSlice d)
    let s := (s.refreshBlock (n / 4)).refreshLine n
    if s.rdb (pgLln n) LLN_STATUS_trained then s.laneSuspect n else s
  else s

/-! ### Deskew -/

/-- The deskew limit: 360 ns in steps of 0.5 ns (R113). -/
def skewLimit : Nat := 720

/-- DESKEW_MEASURE of the interface whose first lane is n (R113, R114): each lane reports its lag; a lag beyond the limit
leaves the interface unaligned; every slice of the interface realigns (R134). -/
def State.deskew (s : State) (n : Nat) (lags : List Nat) : State :=
  let lanes := s.laneIf n
  if lanes.headD 256 = n ∧ lags.length = lanes.length ∧ lanes.all (fun k => s.laneRuns k && s.rdb (pgLln k) LLN_STATUS_cw_lock) then
    let bad := lags.any (fun l => decide (skewLimit < l))
    let s := s.each (lanes.zip lags) (fun s x =>
      let s := (s.wr (pgLln x.1) LLN_SKEW_lag (min x.2 2047)).wrb (pgLln x.1) LLN_SKEW_valid true
      (s.setLane x.1 (fun l => { l with skewBad := bad })).evWhen (decide (skewLimit < x.2)) (pgLln x.1) llnSkewExceeded)
    ((s.each (lanes.flatMap s.laneSlices) State.realignSlice).refreshBlock (n / 4)).refreshLine n
  else s

/-! ### Tests -/

/-- Tests may take effect on a lane (R118). -/
def State.laneTestOk (s : State) (n : Nat) : Bool :=
  decide (s.mode = modeRehearsal ∨ s.mode = modeAudit) || (isServiceMode s.mode && (s.laneIf n).isEmpty)

/-- Bring a lane's test settings into effect where it is eligible (R115 to R118); a change ends a running trial (R103). -/
def State.applyTest (s : State) (n : Nat) : State :=
  let pg := pgLln n
  let m := s.rd pg LLN_LB_mode
  let lb := if m = 1 ∨ m = 2 then m else 0
  let pat := s.rd pg LLN_PRBS_CFG_pattern
  let gen := s.rdb pg LLN_PRBS_CFG_gen_en && decide (pat ≤ 6)
  let chk := s.rdb pg LLN_PRBS_CFG_chk_en && decide (pat ≤ 6)
  let wants := decide (lb ≠ 0) || gen || chk
  let ok := s.laneTestOk n
  let l := s.lane n
  let (lb', gen', chk') := if ok then (lb, gen, chk) else (0, false, false)
  let changed := decide (l.lbEff ≠ lb') || (l.genEff != gen') || (l.chkEff != chk') || ((gen' || chk') && decide (l.patEff ≠ pat))
  let s := if changed then s.abortTrial n else s
  let s := if chk' && (!changed || l.chkEff) && decide (l.patEff = pat) then s
    else (s.wrb pg LLN_STATUS_prbs_lock false).setPrbs n (fun x => { x with chk := {} })
  let s := if gen' && l.genEff && decide (l.patEff = pat) then s else s.setPrbs n (fun x => { x with gen := 0 })
  let s := s.setLane n (fun l => { l with
    lbEff := lb', genEff := gen', chkEff := chk', patEff := pat, loop := if lb' = 1 then l.loop else [] })
  let s := (s.wrb pg LLN_STATUS_lb_active (decide (lb' ≠ 0))).wrb pg LLN_STATUS_test_refused (wants && !ok)
  (s.judgeWaiting n).refreshLine n

/-- Re-judge the tests of every lane: the mode or an interface has changed (R118). -/
def State.applyTests (s : State) : State := s.each (List.range 256) State.applyTest

/-- A write of LLN_LB. -/
def State.writeLb (s : State) (n v : Nat) : State :=
  ((s.wr (pgLln n) LLN_LB_near_drive (getBits v 4 4)).wr (pgLln n) LLN_LB_mode (getBits v 1 0)).applyTest n

/-- Levels with their first bit inverted. -/
def injectBit : List Nat → List Nat
  | [] => []
  | l :: r => pam4 ((levelBits l).mapIdx (fun i b => if i = 0 then !b else b)) ++ r

/-- Invert one bit of the generator output (R116): the next 64 symbols of the pattern leave with it. -/
def State.prbsInject (s : State) (n : Nat) : State :=
  let l := s.lane n
  if l.genEff then
    let (data, s) := s.genLevels n l.patEff 64
    let s := s.emit (.prbsBitInverted n)
    let bad := injectBit data
    if l.lbEff = 1 then s.setLane n (fun l => { l with loop := bad }) else if l.lbEff = 2 then s else s.putLevels n bad
  else s

/-- A write of LLN_PRBS_CFG: the settings, the error count cleared when chk_en rises, then the injection (R116). -/
def State.writePrbs (s : State) (n v : Nat) : State :=
  let pg := pgLln n
  let rise := bit v 5 && !s.rdb pg LLN_PRBS_CFG_chk_en
  let s := ((s.wr pg LLN_PRBS_CFG_chk_en (getBits v 5 5)).wr pg LLN_PRBS_CFG_gen_en (getBits v 4 4)).wr pg LLN_PRBS_CFG_pattern
    (getBits v 3 0)
  let s := if rise then s.wr pg LLN_PRBS_ERR_errors 0 else s
  let s := s.applyTest n
  if bit v 8 then s.prbsInject n else s

/-- What a lane's checker makes of the levels that reach its receiver. -/
def State.laneCheck (s : State) (n : Nat) (levels : List Nat) : PrbsChk × Nat × Bool :=
  prbsRun (s.lane n).patEff (s.prbsOf n).chk (s.laneReceived n levels)

/-- Symbols of a test pattern at a lane's checker (R115, R116): it locks after 64 error-free symbols, counts bit errors while
locked, and a loss of lock is recorded. PRBS_LOCK and PRBS_LOCK_LOST bring the symbols that make it lock or lose lock. -/
def State.linePrbs (s : State) (n : Nat) (levels : List Nat) : State :=
  if s.laneRuns n && (s.lane n).chkEff then
    let y := s.laneCheck n levels
    let s := s.farLoop n (s.laneReceived n levels)
    let s := s.setPrbs n (fun x => { x with chk := y.1 })
    ((s.wrb (pgLln n) LLN_STATUS_prbs_lock y.1.locked).count (pgLln n) LLN_PRBS_ERR_errors y.2.1).evWhen y.2.2 (pgLln n) llnPrbsLockLost
  else s

/-! ### Enabling a lane -/

/-- Judge the physical lanes of a block's running lanes (R119): two that name one physical lane in one direction do not
start, and both show swap_conflict. DESIGN CHOICE (log 103): a lane that already runs when another starts on its physical
lane stops too; it keeps its lock and trained bits and goes on when the conflict ends. -/
def State.judgeSwap (s : State) (B : Nat) : State :=
  let lanes := ((List.range 4).map (4 * B + ·)).filter (fun n => s.rdb (pgLln n) PAGE_CTRL_run)
  s.each ((List.range 4).map (4 * B + ·)) (fun s n =>
    let clash := lanes.contains n && lanes.any (fun k => decide (k ≠ n) &&
      (decide ((s.lanePhys k).1 = (s.lanePhys n).1) || decide ((s.lanePhys k).2 = (s.lanePhys n).2)))
    s.wrb (pgLln n) LLN_STATUS_swap_conflict clash)

/-- A lane stops passing data: untrained, without lock, each loss recorded (R112, R121), its slices realigning (R88, R97,
R103). -/
def State.laneStop (s : State) (n : Nat) : State :=
  let pg := pgLln n
  let s := s.abortTrial n
  let s := s.evWhen (s.rdb pg LLN_STATUS_cw_lock) pg llnCwUnlock
  let s := s.evWhen (s.rdb pg LLN_STATUS_cdr_lock) pg llnCdrUnlock
  let s := ((((s.wrb pg LLN_STATUS_trained false).wrb pg LLN_STATUS_cw_lock false).wrb pg LLN_STATUS_cdr_lock false).wrb pg
    LLN_STATUS_prbs_lock false).setPrbs n (fun x => { x with chk := {} })
  let s := s.setLane n (fun l => { l with recent := [], instLock := 0, skewBad := false, word := [], wordBad := false })
  let s := (s.showMargin n).wrb pg LLN_SKEW_valid false
  let s := s.each (s.laneSlices n) (fun s d => (s.setFlexoLock d false).realignSlice d)
  (s.refreshBlock (n / 4)).refreshLine n

/-- PAGE_CTRL.run of a lane changes (R97, R103, R119): on a start the polarity and swap settings are latched. -/
def State.laneRunChange (s : State) (n : Nat) (on : Bool) : State :=
  let pg := pgLln n
  if on then
    let s := s.setLane n (fun l => { l with
      rxPhys := some (s.rd pg (LLN_POLSWAP_rx_phys (n % 4))), txPhys := some (s.rd pg (LLN_POLSWAP_tx_phys (n % 4)))
      rxInv := s.rdb pg LLN_POLSWAP_rx_inv, txInv := s.rdb pg LLN_POLSWAP_tx_inv })
    s.judgeSwap (n / 4)
  else ((s.laneStop n).wrb pg LLN_STATUS_sig_det false).judgeSwap (n / 4)

/-- Start-up adaptation may complete (R97). -/
def State.adaptReady (s : State) (n : Nat) : Bool :=
  s.laneRuns n && (s.rdb (pgLln n) LLN_STATUS_sig_det || decide ((s.lane n).lbEff = 1)) && s.laneClock n && s.laneTypeOk n && !s.rdb (pgLln n) LLN_STATUS_trained

/-- The gain, the CDR and the ADC's latest sample move, by amounts the spec does not give (R96, R98). -/
def State.frontEnd (s : State) (n : Nat) : State :=
  let (g, s) := s.free 16
  let (a, s) := s.free 7
  let (c, s) := s.free 16
  s.setLane n (fun l => { l with vga := g, adc := a, cdr := c })

/-- Each FFE side tap from a free number: anywhere within ±1.0 of the main tap (R96). -/
def ffeSet (v : Nat) : List Int := (List.range 31).map (fun i => ((v / 2049 ^ i % 2049 : Nat) : Int) - 1024)

/-- An LMS step of each side tap: at most 1/1,024 of the main tap, within ±1.0 (R96, R98). -/
def ffeStep (taps : List Int) (v : Nat) : List Int :=
  (List.range 31).map (fun i => clampInt (-1024) 1024 (taps.getD i 0 + ((v / 3 ^ i % 3 : Nat) : Int) - 1))

/-- One turn of the loops that adapt continuously from trained onward (R98): the CDR, the gain, the FFE taps. -/
def State.adaptLoops (s : State) (n : Nat) : State :=
  let s := s.frontEnd n
  let (v, s) := s.free 64
  s.setLane n (fun l => { l with ffe := ffeStep l.ffe v })

/-- Start-up adaptation completes (R97): every receiver element is set from the incoming signal, to values the spec does
not give. -/
def State.adaptDone (s : State) (n : Nat) : State :=
  if s.adaptReady n then
    let (a, s) := s.free 4
    let (b, s) := s.free 6
    let (c, s) := s.free 6
    let (d, s) := s.free 1
    let (e, s) := (s.frontEnd n).free 372
    let s := s.setLane n (fun l => { l with ffe := ffeSet e, retrain := false })
    ((s.setEq n a b c d).wrb (pgLln n) LLN_STATUS_trained true).ev (pgLln n) llnTrained
  else s

/-- A write of LLN_ADAPT_CFG: freeze = 1 or trial_en = 0 ends a running trial (R103). -/
def State.writeAdaptCfg (s : State) (n v : Nat) : State :=
  let pg := pgLln n
  let s := ((((((s.wr pg LLN_ADAPT_CFG_kinds (getBits v 31 28)).wr pg LLN_ADAPT_CFG_interval (getBits v 27 16)).wr pg
    LLN_ADAPT_CFG_ceiling (getBits v 11 8)).wr pg LLN_ADAPT_CFG_floor (getBits v 7 4)).wr pg LLN_ADAPT_CFG_freeze
    (getBits v 1 1)).wr pg LLN_ADAPT_CFG_trial_en (getBits v 0 0))
  (if bit v 1 ∨ !bit v 0 then s.abortTrial n else s).judgeWaiting n

/-- The committed type or rate of a lane changes (R88, R103). -/
def State.laneCfgChange (s : State) (n : Nat) : State :=
  let s := s.abortTrial n
  if s.rdb (pgLln n) PAGE_CTRL_run then (s.laneStop n).setLane n (fun l => { l with retrain := true }) else s

/-! ### The commands -/

def execLlnTxFirWrite (n v : Nat) := run (fun s => s.writeFir1 n v)
def execLlnRxEqWrite (n v : Nat) := run (fun s => s.writeRxEq n v)
def execTrialStart (B elapsed : Nat) := run (fun s => s.trialStart B elapsed)
def execTrialDwellEnd (n : Nat) := run (fun s => s.trialDwellEnd n)
def execFecSnap (n : Nat) := run (fun s => s.fecSnap n)
def execCdrLock (n : Nat) := run (fun s => s.lineCdrLock n)
def execCdrUnlock (n : Nat) := run (fun s => s.lineCdrUnlock n)
def execCwLock (n : Nat) := run (fun s => s.cwLock n)
def execCwUnlock (n lost : Nat) := run (fun s => s.cwUnlock n lost)
def execDeskewMeasure (n : Nat) (lags : List Nat) := run (fun s => s.deskew n lags)
def execPrbsInject (n : Nat) := run (fun s => s.prbsInject n)

end Sys2Proof.Machine
end

