-- ==== Sys2Proof/Machine/Otu.lean ====
section
/-! DEFINITION. FlexO instances, OTUC frame and multiframe alignment, LOF, LOM and bonding, section overhead in both
directions (file 04, R124 to R156). -/

namespace Sys2Proof.Machine

open Sys2Proof

/-! ### Persistence -/

/-- One frame against a defect that is declared and cleared after `n` consecutive frames: the run of frames against the
present state, and the state (R129, R145, R146). -/
def persist (n : Nat) (on seen : Bool) (r : Nat) : Bool × Nat :=
  if seen = on then (on, 0) else if n ≤ r + 1 then (!on, 0) else (on, r + 1)

/-! ### FlexO instances -/

/-- A slice lies on a four-instance lane. -/
def State.fourInst (s : State) (d : Nat) : Bool := decide (s.laneInst (sliceLane d) = 4)

/-- The slices of the four-instance lane of a slice, or the slice alone (R128, R129). -/
def State.pmmGroup (s : State) (d : Nat) : List Nat := if s.fourInst d then s.laneSlices (sliceLane d) else [d]

/-- A slice held in SEARCH by Table OTU-3 leaves SYNC and PRESYNC. -/
def State.holdSlice (s : State) (d : Nat) : State := if s.sliceRuns d && s.sliceHeld d then s.enterSearch d else s

/-- The lead slice of the interface whose lanes carry a slice's lane. -/
def State.laneLead (s : State) (d : Nat) : Option Nat := (s.blockLeads (d / 16)).find? (fun l => (s.otucLanes l).contains (sliceLane d))

/-- The PID that an instance carries: its position, 0 beyond n (R125, R128). -/
def State.instPid (s : State) (d : Nat) : Nat :=
  match s.laneLead d with
  | some l =>
    let p := (sliceLane d - sliceLane l) * s.laneInst (sliceLane d) + d % 4 + 1
    if p ≤ s.ifF l OTU_IF.n_m1 + 1 then p else 0
  | none => 0

/-- The slice that a received stream belongs to (R89, R128): on a four-instance lane the streams stand in rotation from the one
that is instance 0. -/
def State.streamSlice (s : State) (d : Nat) : Nat :=
  if s.fourInst d then 4 * (d / 4) + (d + 4 - (s.lane (sliceLane d)).rot % 4) % 4 else d

/-- The stream with the PID of the lane's first position is instance 0 (R128). -/
def State.findInst (s : State) (d : Nat) (f : FlexoFrame) : State :=
  if s.fourInst d && f.omfi && decide (s.instPid (4 * (d / 4)) ≠ 0 ∧ f.pid = s.instPid (4 * (d / 4))) then
    s.setLane (sliceLane d) (fun l => { l with rot := d % 4 })
  else s

/-- PID, GID and STAT of a frame of the instance of slice d against the conditions of Table OTU-3. -/
def State.judgeFlexo (s : State) (d : Nat) (f : FlexoFrame) : State :=
  let pg := pgOtu d
  let x := s.slice d
  let (gidm, gr) := persist 3 (s.rdb pg OTU_STATUS_dgidm)
    (decide (s.ifF d OTU_IF.gid_chk = 1) && decide (f.gid ≠ s.ifF d OTU_IF.gid)) x.gidRun
  let (own, pr) := persist 3 x.pmmOwn ((s.laneLead d).isSome && decide (f.pid ≠ s.instPid d)) x.pmmRun
  let (rpf, rr) := persist 3 (s.rdb pg OTU_STATUS_drpf) f.rpf x.rpfRun
  let s := s.setSlice d (fun x => { x with gidRun := gr, pmmRun := pr, pmmOwn := own, rpfRun := rr })
  if s.sliceRuns d then (s.sliceDef d OTU_STATUS_dgidm otuFlexo 8 gidm).sliceDef d OTU_STATUS_drpf otuFlexo 10 rpf else s

/-- FLEXO_FRAME (R128, R129): a frame of stream d, numbered as the slices of its lane: the instance it belongs to, the lock, and
with the multiframe found the conditions of Table OTU-3. The unused instances of a four-instance lane are judged too, for
PID = 0. A frame without lock breaks no run and adds to none (DEDUCED, log 104). -/
def State.flexoFrame (s : State) (d : Nat) (f : FlexoFrame) : State :=
  let s' := s.findInst d f
  let k := s'.streamSlice d
  if (s'.sliceRuns k || (s'.fourInst k && s'.sliceUnused k)) && s'.datapath (sliceRegion k) then
    let lock := f.omfi && bit (s'.lane (sliceLane k)).instLock (k % 4)
    let s := s'.setFlexoLock k lock
    let s := if lock then s.judgeFlexo k f else s
    let g := s.pmmGroup k
    let pmm := g.any (fun k => (s.slice k).pmmOwn)
    let s := s.each (g.filter s.sliceRuns) (fun s k => s.sliceDef k OTU_STATUS_dpmm otuFlexo 9 pmm)
    (s.each (k :: g) State.holdSlice).refreshBlock (k / 16)
  else s

/-- RPF sent in every instance of an interface while any slice of it is held (R130). -/
def State.otucRpf (s : State) (lead : Nat) : Bool := (s.otucMembers lead).any s.sliceHeld

/-! ### Frame alignment -/

/-- The FAS is correct in the bytes that fas_bytes selects: 0 bytes 3–4, 1 bytes 2–5, 2 bytes 1–6 (R131). -/
def fasCorrect (sel : Nat) (fas : List Nat) : Bool :=
  let want := [0xF6, 0xF6, 0xF6, 0x28, 0x28, 0x28]
  let (a, n) := if sel = 0 then (2, 2) else if sel = 1 then (1, 4) else (0, 6)
  decide ((fas.drop a).take n = (want.drop a).take n)

/-- The slice's lane is beyond the deskew limit: no data passes stage 3 (file 03, R114). -/
def State.sliceBlocked (s : State) (d : Nat) : Bool := (s.lane (sliceLane d)).skewBad

/-- Entry to SYNC (R132, R136). -/
def State.enterSync (s : State) (d : Nat) : State :=
  let pg := pgOtu d
  ((((s.setSlice d (fun x => { x with
    e := 0, mfFirst := true, mfC := 0, mfF := 0, ifRun := 0, imRun := 0, oofEnd := s.dpCycle + 1 })).wr pg OTU_STATUS_fstate fSync).wrb pg
    OTU_STATUS_in_frame true).wrb pg OTU_STATUS_im false).ev pg otuInFrame

/-- One FAS against the frame alignment machine (Table OTU-4). -/
def State.judgeFas (s : State) (d : Nat) (ok : Bool) : State :=
  let pg := pgOtu d
  let st := s.rd pg OTU_STATUS_fstate
  let nf := s.ifF d OTU_IF.n_fas
  if st = fSearch then
    if s.sliceHeld d || s.sliceBlocked d || !ok then s
    else
      let s := s.setSlice d (fun x => { x with c := 1 })
      if nf ≤ 1 then s.enterSync d else s.wr pg OTU_STATUS_fstate fPresync
  else if st = fPresync then
    if ok then
      let s := s.setSlice d (fun x => { x with c := x.c + 1 })
      if nf ≤ (s.slice d).c then s.enterSync d else s
    else (s.setSlice d (fun x => { x with c := 0 })).enterSearch d
  else if ok then s.setSlice d (fun x => { x with e := 0 })
  else
    let e := (s.slice d).e + 1
    let s := (s.setSlice d (fun x => { x with e := e })).count pg OTU_FAS_ERR
    let s := if e = 1 then s.raiseSuspect d else s
    if s.ifF d OTU_IF.m_fas ≤ e then s.enterSearch d else s

/-- One frame of a slice in SYNC against the multiframe machine (R136). -/
def State.judgeMfas (s : State) (d mfas : Nat) : State :=
  let pg := pgOtu d
  let x := s.slice d
  if s.rdb pg OTU_STATUS_im then
    if mfas = x.mfExp then s.setSlice d (fun x => { x with mfF := 0, mfExp := (x.mfExp + 1) % 256 })
    else
      let s := (s.setSlice d (fun x => { x with mfF := x.mfF + 1, mfExp := (x.mfExp + 1) % 256 })).count pg OTU_MFAS_ERR
      if s.ifF d OTU_IF.m_mf ≤ x.mfF + 1 then
        (((s.setSlice d (fun x => { x with mfFirst := true, mfC := 0, mfF := 0 })).wrb pg OTU_STATUS_im false).wrb pg
          OTU_STATUS_bonded false).ev pg otuMf
      else s
  else if x.mfFirst ∨ mfas ≠ x.mfExp then
    s.setSlice d (fun x => { x with mfFirst := false, mfC := 0, mfExp := (mfas + 1) % 256 })
  else
    let s := s.setSlice d (fun x => { x with mfC := x.mfC + 1, mfExp := (mfas + 1) % 256 })
    if s.ifF d OTU_IF.n_mf ≤ x.mfC + 1 then
      ((s.setSlice d (fun x => { x with imRun := 0, oomEnd := s.dpCycle + 1 })).wrb pg OTU_STATUS_im true).ev pg otuMf
    else s

/-! ### Section overhead, receive -/

/-- The bytes of a TTI that tim_mode selects differ (R143): SAPI is bytes 0–15, DAPI bytes 16–31 of a 64-byte value. -/
def ttiDiffers (mode acc exp : Nat) : Bool :=
  (bit mode 0 && decide (getBits acc 127 0 ≠ getBits exp 127 0)) || (bit mode 1 && decide (getBits acc 255 128 ≠ getBits exp 255 128))

/-- Evaluate dTIM of a slice (R143). -/
def State.evalTim (s : State) (d : Nat) : State :=
  let pg := pgOtu d
  let judged := s.ifF d OTU_IF.tti_all = 1 ∨ s.slicePos d = 0
  let differs := ttiDiffers (s.rd pg OTU_SM_CFG_tim_mode) (s.entry pg T_OTU_TTI_ACC 0) (s.eff pg T_OTU_TTI_EXP 0)
  if s.sliceRuns d && (s.point (secPoint d)).ttiSet then s.sliceDef d OTU_STATUS_dtim otuTim 3 (decide judged && differs) else s

/-- A 64-byte TTI as a table entry, byte m in bits [8m+7:8m] (Table OTU-7). -/
def ttiEntry (bytes : List Nat) : Nat := bytes.foldr (fun b a => b % 256 + 256 * a) 0

/-- One TTI byte of a point's sequence (R143): the new collection state, and the TTI accepted, if this byte completes the
third equal one in a row. -/
def ttiStep (p : Point) (pos byte : Nat) : Point × Option (List Nat) :=
  let buf := if pos = 0 then [byte] else if p.ttiBuf.length = pos then p.ttiBuf ++ [byte] else []
  if pos = 63 ∧ buf.length = 64 then
    let run := if buf = p.ttiPrev then p.ttiRun + 1 else 1
    ({ p with ttiBuf := [], ttiPrev := buf, ttiRun := run, ttiSet := p.ttiSet || decide (3 ≤ run) },
      if 3 ≤ run then some buf else none)
  else if pos = 63 then ({ p with ttiBuf := [], ttiPrev := [], ttiRun := 0 }, none)
  else ({ p with ttiBuf := buf }, none)

/-- Forget a TTI being collected: the sequence is broken. -/
def ttiBreak (p : Point) : Point := { p with ttiBuf := [], ttiPrev := [], ttiRun := 0 }

/-- One TTI byte of a slice in multiframe (R143). -/
def State.sliceTti (s : State) (d pos byte : Nat) : State :=
  let m := secPoint d
  let (p, acc) := ttiStep (s.point m) pos byte
  let s := s.setPoint m (fun _ => p)
  match acc with
  | some b =>
    let v := ttiEntry b
    let isNew := decide (s.entry (pgOtu d) T_OTU_TTI_ACC 0 ≠ v)
    ((s.setEntry (pgOtu d) T_OTU_TTI_ACC 0 v).evWhen isNew (pgOtu d) otuTtiNew).evalTim d
  | none => s

/-- BIP violations of frame i: its BIP bytes against the values computed over frame i - 2 (R144). `hist` holds those of frames
i - 1 and i - 2. -/
def bipViolations (hist : List (Option (List Nat))) (rx : List Nat) : Nat :=
  match hist with
  | _ :: some c :: _ => ((c.zip rx).map (fun x => popcount 8 (x.1 ^^^ x.2))).sum
  | _ => 0

/-- Near-end errors of a point: counted in its running second and kept for back-reporting. -/
def Point.addNear (p : Point) (v : Nat) : Point :=
  { p with neEb := satAdd 32 p.neEb (if v = 0 then 0 else 1), neBip := satAdd 32 p.neBip v, beiPend := p.beiPend + v }

/-- Far-end errors of a point. -/
def Point.addFar (p : Point) (v : Nat) : Point :=
  { p with feEb := satAdd 32 p.feEb (if v = 0 then 0 else 1), feBei := satAdd 32 p.feBei v }

/-- The SM overhead of a frame received in SYNC (R142 to R146). DESIGN CHOICE (log 104): runs of BDI, IAE and BIAE frames go on
after frames out of SYNC, which are not judged. -/
def State.judgeSm (s : State) (d : Nat) (f : OtucFrame) : State :=
  let pg := pgOtu d
  let m := secPoint d
  let v := bipViolations (s.point m).bips [f.bip]
  let s := (s.count pg OTU_BIP_BITS v).count pg OTU_BIP_BLK (if v = 0 then 0 else 1)
  let s := s.setPoint m (fun p => (p.addNear v))
  let s := s.setPoint m (fun p => { p with bips := (some [f.computed] :: p.bips).take 2 })
  let nib := getBits f.byte10 7 4
  let p := s.point m
  let (biae, rb) := persist 3 (s.rdb pg OTU_STATUS_dbiae) (decide (nib = 11)) p.biaeRun
  let (bdi, rd) := persist 5 (s.rdb pg OTU_STATUS_dbdi) (bit f.byte10 3) p.bdiRun
  let (iae, ri) := persist 5 (s.rdb pg OTU_STATUS_diae) (bit f.byte10 2) p.iaeRun
  let s := s.setPoint m (fun p => { p with biaeRun := rb, bdiRun := rd, iaeRun := ri,
                                            biCnt := satAdd 32 p.biCnt (b2n (bit f.byte10 3)) })
  let s := s.sliceDef d OTU_STATUS_dbdi otuBdi 5 bdi
  let s := s.sliceDef d OTU_STATUS_diae otuIae 6 iae
  let s := s.sliceDef d OTU_STATUS_dbiae otuBiae 7 biae
  let bei := if nib ≤ 8 ∧ !biae then nib else 0
  let s := (s.count pg OTU_BEI_BITS bei).count pg OTU_BEI_BLK (if bei = 0 then 0 else 1)
  s.setPoint m (fun p => p.addFar bei)

/-! ### One frame -/

/-- What a received frame does to the framer, the multiframe machine, the section overhead and the bond (R131 to R148);
the GCC0 capture stands outside. -/
def State.otucFrameIn (s : State) (d : Nat) (f : OtucFrame) : State :=
  let pg := pgOtu d
  let s := s.judgeFas d (fasCorrect (s.ifF d OTU_IF.fas_bytes) f.fas)
  let s :=
    if s.rd pg OTU_STATUS_fstate = fSync then
      let pos := if s.rdb pg OTU_STATUS_im then (s.slice d).mfExp else f.mfas
      let s := s.judgeMfas d f.mfas
      let s := s.judgeSm d f
      let s := s.setSlice d (fun x => { x with phase := (f.start + mfBytes - 15296 * (pos % 256)) % mfBytes })
      if s.rdb pg OTU_STATUS_im then s.sliceTti d (pos % 64) f.tti else s.setPoint (secPoint d) ttiBreak
    else s.setPoint (secPoint d) (fun p => { ttiBreak p with bips := [], neutral := true })
  let s := if s.sliceMember d then s.judgeBond (s.sliceLead d) else s
  s.refreshBlock (d / 16)

/-! ### Integrators -/

/-- The end of an integrator of `ms` milliseconds, in DP cycles (R137). -/
def intEnd (ms : Nat) : Nat := ms * 1750000

/-- An integrator may act: the slice runs and its OTU_IF row has not changed in this DP cycle (R139). -/
def State.intRuns (s : State) (d : Nat) : Bool := s.sliceRuns d && decide ((s.slice d).chgAt ≠ s.dpCycle + 1)

/-- A condition held in this DP cycle: it holds now, or ended in this cycle (R139). -/
def State.heldNow (s : State) (now : Bool) (ended : Nat) : Bool := now || decide (ended = s.dpCycle + 1)

def State.lofNow (s : State) (d : Nat) : Bool := s.heldNow (!s.rdb (pgOtu d) OTU_STATUS_in_frame) (s.slice d).oofEnd
def State.lomNow (s : State) (d : Nat) : Bool :=
  s.heldNow (s.rdb (pgOtu d) OTU_STATUS_in_frame && !s.rdb (pgOtu d) OTU_STATUS_im) (s.slice d).oomEnd
def State.bondNow (s : State) (lead : Nat) : Bool := s.heldNow (s.slice lead).misaligned (s.slice lead).misEnd

def State.lofLimit (s : State) (d : Nat) : Nat := intEnd (s.ifF d OTU_IF.lof_ms)
def State.lomLimit (s : State) (d : Nat) : Nat := intEnd (s.ifF d OTU_IF.lom_ms)

/-- Whether an event bit stands, as a mark of this DP cycle (R139). -/
def State.declMark (s : State) (pg k : Nat) : Option (Nat × Bool) := some (s.dpCycle, bit (s.evtStatus pg) k)

/-- LOF_ON (R137): the integrator reaches its end in a cycle in which the slice is out of frame. -/
def State.lofOn (s : State) (d : Nat) : State :=
  if s.intRuns d && s.lofNow d && decide (s.lofLimit d ≤ s.rd (pgOtu d) OTU_LOF_INT_dp_cycles + 1) then
    let s := s.setSlice d (fun x => { x with lofAt := if s.rdb (pgOtu d) OTU_STATUS_dlof then x.lofAt else s.declMark (pgOtu d) otuLofOn })
    ((s.wr (pgOtu d) OTU_LOF_INT_dp_cycles (s.lofLimit d)).sliceDef d OTU_STATUS_dlof otuLofOn 0 true).refreshBlock (d / 16)
  else s

/-- LOF_OFF (R137): the slice has been in frame without a break for lof_ms. -/
def State.lofOff (s : State) (d : Nat) : State :=
  if s.intRuns d && s.rdb (pgOtu d) OTU_STATUS_in_frame && decide (s.lofLimit d ≤ (s.slice d).ifRun + 1) then
    (((s.setSlice d (fun x => { x with ifRun := s.lofLimit d })).wr (pgOtu d) OTU_LOF_INT_dp_cycles 0).sliceDef d OTU_STATUS_dlof
      otuLofOff 0 false).refreshBlock (d / 16)
  else s

/-- LOM_ON (R138). -/
def State.lomOn (s : State) (d : Nat) : State :=
  if s.intRuns d && s.lomNow d && decide (s.lomLimit d ≤ (s.slice d).lomInt + 1) then
    let s := s.setSlice d (fun x => { x with
      lomInt := s.lomLimit d, lomAt := if s.rdb (pgOtu d) OTU_STATUS_dlom then x.lomAt else s.declMark (pgOtu d) otuLomOn })
    (s.sliceDef d OTU_STATUS_dlom otuLomOn 1 true).refreshBlock (d / 16)
  else s

/-- LOM_OFF (R138): the slice has been in multiframe without a break for lom_ms. -/
def State.lomOff (s : State) (d : Nat) : State :=
  if s.intRuns d && s.rdb (pgOtu d) OTU_STATUS_im && decide (s.lomLimit d ≤ (s.slice d).imRun + 1) then
    ((s.setSlice d (fun x => { x with lomInt := 0, imRun := s.lomLimit d })).sliceDef d OTU_STATUS_dlom otuLomOff 1 false).refreshBlock
      (d / 16)
  else s

/-- The slice leads its OTUCn. -/
def State.isLead (s : State) (d : Nat) : Bool := s.sliceMember d && decide (s.sliceLead d = d)

/-- DLOM_CN_ON on a lead slice (R140). -/
def State.dlomCnOn (s : State) (lead : Nat) : State :=
  if s.intRuns lead && s.isLead lead && s.bondNow lead && decide (s.lomLimit lead ≤ (s.slice lead).bondInt + 1) then
    let s := s.setSlice lead (fun x => { x with
      bondInt := s.lomLimit lead, bondAt := if s.rdb (pgOtu lead) OTU_STATUS_dlom_cn then x.bondAt else s.declMark (pgOtu lead) otuBond })
    (s.sliceDef lead OTU_STATUS_dlom_cn otuBond 2 true).refreshBlock (lead / 16)
  else s

/-- DLOM_CN_OFF (R140): the members have been bond-aligned without a break for lom_ms. -/
def State.dlomCnOff (s : State) (lead : Nat) : State :=
  if s.intRuns lead && s.isLead lead && !(s.slice lead).misaligned && decide (s.lomLimit lead ≤ (s.slice lead).alRun + 1) then
    ((s.setSlice lead (fun x => { x with bondInt := 0, alRun := s.lomLimit lead })).sliceDef lead OTU_STATUS_dlom_cn otuBond 2
      false).refreshBlock (lead / 16)
  else s

/-- BOND_ENTER (R141): a bond-aligned member enters the bond at a multiframe boundary. -/
def State.bondEnter (s : State) (d : Nat) : State :=
  if s.sliceRuns d && s.sliceMember d && s.rdb (pgOtu d) OTU_STATUS_im && (s.slice d).aligned && !s.rdb (pgOtu d) OTU_STATUS_bonded then
    ((s.wrb (pgOtu d) OTU_STATUS_bonded true).judgeBond (s.sliceLead d)).refreshBlock (d / 16)
  else s

/-- The end of a DP cycle at a slice's LOF integrator (R137). -/
def State.lofTick (s : State) (d : Nat) : State :=
  let e := s.lofLimit d
  let n := s.rd (pgOtu d) OTU_LOF_INT_dp_cycles
  let s := if s.lofNow d then (if n + 1 < e then s.wr (pgOtu d) OTU_LOF_INT_dp_cycles (n + 1) else if n < e then s.lofOn d else s) else s
  let k := (s.slice d).ifRun
  if s.rdb (pgOtu d) OTU_STATUS_in_frame then
    if k + 1 < e then s.setSlice d (fun x => { x with ifRun := k + 1 }) else if k < e then s.lofOff d else s
  else s

/-- The end of a DP cycle at a slice's LOM integrator (R138). -/
def State.lomTick (s : State) (d : Nat) : State :=
  let e := s.lomLimit d
  let n := (s.slice d).lomInt
  let s := if s.lomNow d then (if n + 1 < e then s.setSlice d (fun x => { x with lomInt := n + 1 }) else if n < e then s.lomOn d else s) else s
  let k := (s.slice d).imRun
  if s.rdb (pgOtu d) OTU_STATUS_im then
    if k + 1 < e then s.setSlice d (fun x => { x with imRun := k + 1 }) else if k < e then s.lomOff d else s
  else s

/-- The end of a DP cycle at a lead slice's bond integrator (R140). -/
def State.bondTick (s : State) (d : Nat) : State :=
  let e := s.lomLimit d
  let n := (s.slice d).bondInt
  let s := if s.bondNow d then (if n + 1 < e then s.setSlice d (fun x => { x with bondInt := n + 1 }) else if n < e then s.dlomCnOn d else s)
    else s
  let k := (s.slice d).alRun
  if !(s.slice d).misaligned && (s.otucMembers d).any (fun m => s.rdb (pgOtu m) OTU_STATUS_im) then
    if k + 1 < e then s.setSlice d (fun x => { x with alRun := k + 1 }) else if k < e then s.dlomCnOff d else s
  else s

/-- The end of a DP cycle at a slice's integrators; one that reaches its end declares its defect in that cycle. -/
def State.sliceTick (s : State) (d : Nat) : State :=
  if s.intRuns d then
    let s := (s.lofTick d).lomTick d
    if s.isLead d then s.bondTick d else s
  else s

/-! ### Clearing a slice -/

/-- Every defect of a slice: its status bit, its clearing event, its episode kind. -/
def sliceDefects : List (Field × Nat × Nat) :=
  [(OTU_STATUS_dlof, otuLofOff, 0), (OTU_STATUS_dlom, otuLomOff, 1), (OTU_STATUS_dlom_cn, otuBond, 2), (OTU_STATUS_dtim, otuTim, 3),
   (OTU_STATUS_ddeg, otuDeg, 4), (OTU_STATUS_dbdi, otuBdi, 5), (OTU_STATUS_diae, otuIae, 6), (OTU_STATUS_dbiae, otuBiae, 7),
   (OTU_STATUS_dgidm, otuFlexo, 8), (OTU_STATUS_dpmm, otuFlexo, 9), (OTU_STATUS_drpf, otuFlexo, 10)]

/-- A defect that was declared in this very DP cycle is not declared after all (R139): its bit, its waiting change and, unless it
stood before, its event bit go. -/
def State.undeclare (s : State) (d : Nat) (f : Field) (ev kind : Nat) (at_ : Option (Nat × Bool)) : State :=
  match at_ with
  | some (c, had) =>
    if c = s.dpCycle && s.rdb (pgOtu d) f then
      let s := (s.wrb (pgOtu d) f false).epiDiscard (sliceRegion d) (fun y => decide (y.point = false ∧ y.src = d ∧ y.kind = kind))
      if had then s else s.unrecord (pgOtu d) ev
    else s
  | none => s

/-- The declarations of this DP cycle by a slice's integrators are undone (R139). -/
def State.undeclareInts (s : State) (d : Nat) : State :=
  let x := s.slice d
  ((s.undeclare d OTU_STATUS_dlof otuLofOn 0 x.lofAt).undeclare d OTU_STATUS_dlom otuLomOn 1 x.lomAt).undeclare d OTU_STATUS_dlom_cn
    otuBond 2 x.bondAt

/-- Return a slice to SEARCH with its integrators at 0 and its defects clear, each with its event and its episode closed
(file 01, R17; R127). What it sends goes on. -/
def State.clearSlice (s : State) (d : Nat) : State :=
  let s := (s.undeclareInts d).enterSearch d
  let s := s.each sliceDefects (fun s x => s.sliceDef d x.1 x.2.1 x.2.2 false)
  let s := s.setSlice d (fun x => { txMfas := x.txMfas, corruptLeft := x.corruptLeft, txBip := x.txBip, ttiTx := x.ttiTx, chgAt := s.dpCycle + 1 })
  let s := s.wr (pgOtu d) OTU_LOF_INT_dp_cycles 0
  s.setPoint (secPoint d) (fun p => { ttiBreak p with
    bips := [], bdiRun := 0, iaeRun := 0, biaeRun := 0, beiPend := 0, degBad := 0, degGood := 0 })

/-- Show a slice's membership and position (OTU_STATUS). -/
def State.showMember (s : State) (d : Nat) : State :=
  (s.wrb (pgOtu d) OTU_STATUS_member (s.sliceMember d)).wr (pgOtu d) OTU_STATUS_position (s.slicePos d)

/-- A changed OTU_IF row takes effect on its slice (R127). -/
def State.otuIfChange (s : State) (d : Nat) : State := (s.clearSlice d).showMember d

/-- PAGE_CTRL.run of a slice changes (R151, R154). DESIGN CHOICE (log 104): an OTUCn that a cue forms of slices that run already
goes on from the count its lead slice holds, for no run changes. -/
def State.otuRunChange (s : State) (d : Nat) (on : Bool) : State :=
  if on then
    let lead := s.sliceLead d
    let s := if s.sliceMember d && (s.otucMembers lead).all (fun k => k = d || !s.rdb (pgOtu k) PAGE_CTRL_run) then
        s.setSlice lead (fun x => { x with txMfas := 0 }) else s
    s.refreshBlock (d / 16)
  else
    let pg := pgOtu d
    let s := s.each sliceDefects (fun s x =>
      if s.rdb pg x.1 then (s.wrb pg x.1 false).epiPush (sliceRegion d) false d x.2.2 false else s)
    let s := ((s.wr pg OTU_STATUS_fstate fSearch).wrb pg OTU_STATUS_in_frame false).wrb pg OTU_STATUS_im false
    let s := ((s.wrb pg OTU_STATUS_bonded false).wrb pg OTU_STATUS_flexo_lock false).wr pg OTU_LOF_INT_dp_cycles 0
    let s := s.setSlice d (fun x => { txMfas := x.txMfas, txBip := x.txBip, ttiTx := x.ttiTx })
    let s := s.setPoint (secPoint d) (fun p => { p with neutral := true })
    (if s.sliceMember d then s.judgeBond (s.sliceLead d) else s).refreshBlock (d / 16)

/-! ### Transmit -/

/-- Row 1, columns 1 to 14, that an egress slice sends (Table OTU-5, R150, R152). `computed` is the BIP-8 of the frame now
formed, `gcc0` its two GCC0 bytes. DESIGN CHOICE (log 104): the BIP-8 byte of the first two frames, before which there is no frame
i - 2, is 0. -/
def State.otucRow1 (s : State) (d mfas : Nat) (gcc0 : List Nat) : List Nat :=
  let pg := pgOtu d
  let x := s.slice d
  let bad := x.corruptLeft ≠ 0
  let tti := if mfas % 64 = 0 then s.eff pg T_OTU_TTI_TX 0 else x.ttiTx
  let bip := x.txBip.getD 1 0
  let bip := if s.rdb pg OTU_TX_FORCE_inv_bip then 255 - bip else bip
  let bei := if s.rdb pg OTU_STATUS_diae then 11 else min 8 (s.point (secPoint d)).beiPend
  let bdi := s.rdb pg OTU_STATUS_ssf || s.rdb pg OTU_TX_FORCE_force_bdi
  let iae := s.rdb pg OTU_TX_FORCE_force_iae
  [0xF6, 0xF6, if bad then 0x09 else 0xF6, if bad then 0xD7 else 0x28, 0x28, 0x28, mfas, getBits tti (8 * (mfas % 64) + 7) (8 * (mfas % 64)),
   bip, 16 * bei + 8 * b2n bdi + 4 * b2n iae, gcc0.getD 0 0, gcc0.getD 1 0, 0, 0]

/-- The rest of a slice's frame is ODUCn-AIS: held by force_safe (R154), by a block restart (file 01, R17), or replaced by
the block's maintenance generator (file 03, R120; file 16, Table MOD-5, R557). -/
def State.otucAis (s : State) (d : Nat) : Bool :=
  let B := d / 16
  s.rdb (pgOtu d) PAGE_CTRL_force_safe || s.rdb (pgLln (sliceLane d)) PAGE_CTRL_force_safe ||
  (s.blk.get {} B).forcedLeads.contains (s.sliceLead d) || decide (s.region (d / 128) = rgnOffline ∨ s.region (d / 128) = rgnIsolated) ||
  decide (s.mode = modeSafe)

/-- One member's frame of an OTUCn with count `mfas` (R150 to R154), in its FlexO instance (R125, R128, R130). DESIGN CHOICE
(log 104): violations that wait while 0b1011 is sent are dropped uncounted. -/
def State.otucSend (s : State) (d mfas : Nat) (gcc0 : List Nat) (computed : Nat) (rpf : Bool) : State :=
  let pg := pgOtu d
  if s.rdb pg PAGE_CTRL_run then
    let row := s.otucRow1 d mfas gcc0
    let pend := (s.point (secPoint d)).beiPend
    let s := s.count pg OTU_BEI_CLIP (if s.rdb pg OTU_STATUS_diae then 0 else pend - 8)
    let s := s.setPoint (secPoint d) (fun p => { p with beiPend := 0 })
    let tti := s.eff pg T_OTU_TTI_TX 0
    let s := s.setSlice d (fun x => { x with
      corruptLeft := x.corruptLeft - 1, txBip := (computed :: x.txBip).take 2, ttiTx := if mfas % 64 = 0 then tti else x.ttiTx })
    s.emit (.otucFrame d (s.slicePos d + 1) (s.ifF d OTU_IF.gid) rpf row (s.otucAis d))
  else s.emit (.unusedInstance d (s.slicePos d + 1) (s.ifF d OTU_IF.gid) rpf)

/-- The instances of an OTUCn's lanes beyond position n (R125). -/
def State.otucUnused (s : State) (lead : Nat) : List Nat :=
  let i := s.laneInst (sliceLane lead)
  ((List.range ((s.otucLanes lead).length * i)).map (slotSlice lead i)).drop (s.otucMembers lead).length

/-- The lanes of an OTUCn send the codewords of their instances (file 03, R89, R90, R107); a word of another length than 514
symbols is none. -/
def State.otucLine (s : State) (lead : Nat) (words : List (List Nat)) : State :=
  let i := s.laneInst (sliceLane lead)
  let lanes := s.otucLanes lead
  s.each ((List.range lanes.length).zip lanes) (fun s x =>
    let ws := (words.drop (i * x.1)).take i
    if ws.length = i ∧ ws.all (fun w => decide (w.length = 514)) then s.sendLane x.2 (symbolLevels (rotate i (ws.map rsEncode))) else s)

/-- CORRUPT_FAS (R152). -/
def State.corruptFas (s : State) (d : Nat) : State :=
  s.setSlice d (fun x => { x with corruptLeft := max 1 (s.rd (pgOtu d) OTU_TX_FORCE_fas) })

/-- A write of OTU_TX_FORCE. -/
def State.writeTxForce (s : State) (d v : Nat) : State :=
  let pg := pgOtu d
  let s := (((s.wr pg OTU_TX_FORCE_fas (getBits v 11 8)).wr pg OTU_TX_FORCE_inv_bip (getBits v 2 2)).wr pg OTU_TX_FORCE_force_iae
    (getBits v 1 1)).wr pg OTU_TX_FORCE_force_bdi (getBits v 0 0)
  if bit v 3 then s.corruptFas d else s

/-! ### The commands -/

def execFlexoFrame (d : Nat) (f : FlexoFrame) := run (fun s => s.flexoFrame d f)
def execLofOn (d : Nat) := run (fun s => s.lofOn d)
def execLofOff (d : Nat) := run (fun s => s.lofOff d)
def execLomOn (d : Nat) := run (fun s => s.lomOn d)
def execLomOff (d : Nat) := run (fun s => s.lomOff d)
def execDlomCnOn (lead : Nat) := run (fun s => s.dlomCnOn lead)
def execDlomCnOff (lead : Nat) := run (fun s => s.dlomCnOff lead)
def execBondEnter (d : Nat) := run (fun s => s.bondEnter d)
def execCorruptFas (d : Nat) := run (fun s => s.corruptFas d)

end Sys2Proof.Machine
end

