-- ==== Sys2Proof/Machine/Odu.lean ====
section
/-! DEFINITION. ODU contexts: frames judged by their points, context defects, forced AIS, adoption, per-second records and
the episode tracker's commands (file 05, R158 to R197). -/

namespace Sys2Proof.Machine

open Sys2Proof

/-! ### One point, one frame -/

/-- One frame's STAT at one position of a point (Table ODU-10): `tcm` admits dLTC and dIAE. -/
def statStep (x : Stat) (tcm : Bool) (stat : Nat) : Stat :=
  let (a, ra) := persist 3 x.ais (decide (stat = 7)) x.rAis
  let (o, ro) := persist 3 x.oci (decide (stat = 6)) x.rOci
  let (l, rl) := persist 3 x.lck (decide (stat = 5)) x.rLck
  let (t, rt) := persist 3 x.ltc (tcm && decide (stat = 0)) x.rLtc
  let (i, ri) := persist 3 x.iae (tcm && decide (stat = 2)) x.rIae
  { ais := a, oci := o, lck := l, ltc := t, iae := i, rAis := ra, rOci := ro, rLck := rl, rLtc := rt, rIae := ri }

/-- The field of a level at a position; absent: all zeros. -/
def layerAt (p : OduPos) (level : Nat) : LayerOh := p.layers.getD level ⟨0, 0, 0, 0, false⟩

/-- The value that a BEI nibble counts: 0 to 8, else 0 (R145). -/
def beiCount (n : Nat) : Nat := if n ≤ 8 then n else 0

/-- Evaluate dTIM of a point (R143 under Table ODU-10). -/
def State.evalPointTim (s : State) (B dir m e : Nat) : State :=
  let differs := ttiDiffers (s.mpCfg B e MP_CFG.tim_mode) (s.entry (pgMpt B) T_MP_TTI_ACC e) (s.eff (pgMpt B) T_MP_TTI_EXP e)
  if (s.point m).ttiSet then s.pointDef B dir m e 5 (differs && !s.pointSilent B e) else s

/-- The STAT defects of a point over all its positions. -/
def State.judgeStat (s : State) (B dir m e level : Nat) (f : OduFrame) : State :=
  let old := (s.point m).stats
  let new := (List.range f.pos.length).map (fun i =>
    statStep (old.getD i {}) (decide (level ≠ 0)) (layerAt (f.pos.getD i ⟨0, []⟩) level).stat)
  let s := s.setPoint m (fun p => { p with stats := new })
  let s := s.pointDef B dir m e 0 (new.any (·.ais))
  let s := s.pointDef B dir m e 1 (new.any (·.oci))
  let s := s.pointDef B dir m e 2 (new.any (·.lck))
  let s := s.pointDef B dir m e 3 (new.any (·.ltc))
  s.pointDef B dir m e 4 (new.any (·.iae))

/-- BDI, BEI/BIAE, BIP and TTI of a point that R177 does not silence. DESIGN CHOICE (log 62): an ODUCn point takes BDI and BIAE from
any position and sums BEI over the positions. -/
def State.judgeField (s : State) (B dir m e level : Nat) (f : OduFrame) (inMf : Bool) : State :=
  let ls := f.pos.map (layerAt · level)
  let p := s.point m
  let bdiSeen := ls.any (·.bdi)
  let (bdi, rd) := persist 5 (s.mpBit B e MP_STATUS.dbdi) bdiSeen p.bdiRun
  let (biae, rb) := persist 3 (s.mpBit B e MP_STATUS.dbiae) (decide (level ≠ 0) && ls.any (fun l => decide (l.bei = 11))) p.biaeRun
  let v := bipViolations p.bips (ls.map (·.bip))
  let bei := if biae then 0 else (ls.map (fun l => beiCount l.bei)).sum
  let s := s.setPoint m (fun p => { ((p.addNear v).addFar bei) with
    bdiRun := rd, biaeRun := rb, biCnt := satAdd 32 p.biCnt (b2n bdiSeen) })
  let s := (s.pointDef B dir m e 6 bdi).pointDef B dir m e 7 biae
  if inMf then
    let (p, acc) := ttiStep (s.point m) (f.mfas % 64) (ls.headD ⟨0, 0, 0, 0, false⟩).tti
    let s := s.setPoint m (fun _ => p)
    match acc with
    | some b =>
      let v := ttiEntry b
      let isNew := decide (s.entry (pgMpt B) T_MP_TTI_ACC e ≠ v)
      ((s.setEntry (pgMpt B) T_MP_TTI_ACC e v).evWhen isNew (pgMpt B) 1).evalPointTim B dir m e
    | none => s
  else s.setPoint m ttiBreak

/-- One frame at one point (R171, R176, R177). -/
def State.judgePoint (s : State) (B dir : Nat) (p : Nat × Nat × Nat × Nat) (f : OduFrame) (inMf : Bool) : State :=
  let (m, e, level, _) := p
  let s := s.judgeStat B dir m e level f
  let s := if s.pointSilent B e then s.setPoint m ttiBreak else s.judgeField B dir m e level f inMf
  s.setPoint m (fun q => { q with bips := (some (f.pos.map (·.computed)) :: q.bips).take 2 })

/-! ### Context defects -/

/-- The frame and multiframe machines of a demultiplexed ODU (dLOFLOM of Table ODU-10): Table OTU-4 and R136 with n = 2 and
m = 5. -/
def oduFrameStep (c : Ctx) (ok : Bool) (mfas : Nat) : Ctx :=
  let c1 : Ctx :=
    if c.fst = 0 then (if ok then { c with fst := 1, fc := 1 } else c)
    else if c.fst = 1 then (if ok then { c with fst := 2, fc := 2, fe := 0, mfIm := false, mfFirst := true } else { c with fst := 0, fc := 0 })
    else if ok then { c with fe := 0 }
    else if 5 ≤ c.fe + 1 then { c with fst := 0, fc := 0, fe := 0, mfIm := false, mfFirst := true } else { c with fe := c.fe + 1 }
  if c1.fst ≠ 2 then c1
  else if c1.mfIm then
    if mfas = c1.mfExp then { c1 with mfF := 0, mfExp := (c1.mfExp + 1) % 256 }
    else if 5 ≤ c1.mfF + 1 then { c1 with mfIm := false, mfFirst := true, mfF := 0 }
    else { c1 with mfF := c1.mfF + 1, mfExp := (c1.mfExp + 1) % 256 }
  else if c1.mfFirst ∨ mfas ≠ c1.mfExp then { c1 with mfFirst := false, mfC := 0, mfExp := (mfas + 1) % 256 }
  else if 2 ≤ c1.mfC + 1 then { c1 with mfIm := true, mfC := 2, mfF := 0, mfExp := (mfas + 1) % 256 }
  else { c1 with mfC := c1.mfC + 1, mfExp := (mfas + 1) % 256 }

/-- A multiframe machine of R136 with n = 2 and m = 5 whose numbers run modulo `k`. -/
def Mf.step (k : Nat) (x : Mf) (v : Nat) : Mf :=
  if x.im then
    if v = x.exp then { x with f := 0, exp := (x.exp + 1) % k }
    else if 5 ≤ x.f + 1 then { im := false } else { x with f := x.f + 1, exp := (x.exp + 1) % k }
  else if x.first ∨ v ≠ x.exp then { first := false, exp := (v + 1) % k }
  else if 2 ≤ x.c + 1 then { im := true, c := 2, exp := (v + 1) % k, first := false }
  else { x with c := x.c + 1, exp := (v + 1) % k }

/-- OMFI of a parent ODU4 counts 0 to 79 (G.709); its machine runs while the ODU is in frame (dLOOMFI, Table ODU-10). -/
def Ctx.omfiStep (c : Ctx) (inF : Bool) (v : Nat) : Ctx := { c with omfi := if inF then Mf.step 80 c.omfi v else {} }

/-- The PM point of a context: point number and MPT entry. -/
def State.pmOf (s : State) (B dir e : Nat) : Nat × Nat := (dedPoint (s.ctxGroup B dir e) 0, dedEntry dir e 0)

/-- The accepted payload type (dPLM, Table ODU-10) of a context in direction `dir`: the byte of MFAS 0, accepted on three equal in a
row. -/
def State.judgePt (s : State) (B dir e m pe : Nat) (c : Ctx) (f : OduFrame) : State :=
  if f.mfas = 0 then
    let run := if c.ptRun ≠ 0 ∧ c.ptCand = f.psi then c.ptRun + 1 else 1
    let s := s.setCtx B dir e (fun c => { c with ptCand := f.psi, ptRun := run, ptAcc := if 3 ≤ run then some f.psi else c.ptAcc })
    let s := if 3 ≤ run then s.tput (pgMpt B) T_MP_STATUS pe MP_STATUS.pt f.psi else s
    match (s.ctx B dir e).ptAcc with
    | some pt => s.pointDef B dir m pe 9 (s.mpCfgB B pe MP_CFG.plm_en && decide (pt ≠ s.mpCfg B pe MP_CFG.exp_pt))
    | none => s
  else s

/-- Client signal fail (dCSF, Table ODU-10): the bit of PSI[2] of a context with a client. -/
def State.judgeCsf (s : State) (B e m pe : Nat) (c : Ctx) (f : OduFrame) : State :=
  if f.mfas = 2 ∧ s.ctxB B 0 e CTX.client then
    let p := persist 3 (s.mpBit B pe MP_STATUS.dcsf) (bit f.psi 7) c.csfRun
    (s.setCtx B 0 e (fun c => { c with csfRun := p.2 })).pointDef B 0 m pe 10 p.1
  else s

/-- The multiplex structure identifier (dMSIM, Table ODU-10) of a context that carries ODUs. -/
def State.judgeMsi (s : State) (B e m pe : Nat) (c : Ctx) (f : OduFrame) : State :=
  match f.msi with
  | some (slot, v) =>
    if s.ctxF B 0 e CTX.stage = 0 ∨ s.ctxB B 0 e CTX.ho then
      let run := if c.msiRun.get 0 slot ≠ 0 ∧ c.msiCand.get 0 slot = v then c.msiRun.get 0 slot + 1 else 1
      let s := s.setCtx B 0 e (fun c => { c with
        msiCand := c.msiCand.set 0 slot v, msiRun := c.msiRun.set 0 slot run
        msiAcc := if 3 ≤ run then c.msiAcc.set 0 slot (v + 1) else c.msiAcc })
      s.pointDef B 0 m pe 11 (!(s.msiBad B e).isEmpty)
    else s
  | none => s

/-- Payload type, client signal fail and MSI of a frame in multiframe (Table ODU-10). -/
def State.judgePayload (s : State) (B e : Nat) (f : OduFrame) : State :=
  let m := s.pmOf B 0 e
  let c := s.ctx B 0 e
  ((s.judgePt B 0 e m.1 m.2 c f).judgeCsf B e m.1 m.2 c f).judgeMsi B e m.1 m.2 c f

/-! ### One frame of an ingress context -/

/-- The context is a parent ODU4, whose OMFI is judged. -/
def State.omfiOn (s : State) (B e : Nat) : Bool := decide (s.ctxF B 0 e CTX.odu_type = 5) && s.ctxB B 0 e CTX.ho

/-- The demultiplexed ODU is in frame and in multiframe; OMFI is in multiframe. -/
def State.ctxInMf (s : State) (B e : Nat) : Bool := decide ((s.ctx B 0 e).fst = 2) && (s.ctx B 0 e).mfIm
def State.omfiIn (s : State) (B e : Nat) : Bool := (s.ctx B 0 e).omfi.im

/-- A context's frames are replaced by generated ODU-AIS (R179). -/
def State.ctxReplacedNow (s : State) (B e : Nat) : Bool := (s.ctx B 0 e).fill

/-- A frame of an ingress context as its points and its context defects judge it (R171, R176 to R183). While the all-ones
replacement lasts the detectors hold, and each replaced frame counts as an errored block of 8 violations at every sink
point unless the input has SSF (R177, R179). -/
def State.oduFrameIn (s : State) (B e : Nat) (f : OduFrame) : State :=
  let pts := s.ctxPoints B 0 e
  let s := s.aisFrame B e
  let s :=
    if s.ctxReplacedNow B e then
      s.each pts (fun s p => if s.pointSilent B p.2.1 then s else s.setPoint p.1 (fun q => q.addNear 8))
    else
      let stage0 := decide (s.ctxF B 0 e CTX.stage = 0)
      let s := if stage0 then s else s.setCtx B 0 e (fun c => oduFrameStep c f.fasOk f.mfas)
      let inF := stage0 || decide ((s.ctx B 0 e).fst = 2)
      let s := if s.omfiOn B e then s.setCtx B 0 e (fun c => c.omfiStep inF f.omfi) else s
      let inMf := stage0 || (inF && (s.ctx B 0 e).mfIm)
      let s := if inF then s.each pts (fun s p => s.judgePoint B 0 p f inMf) else s
      if inMf then s.judgePayload B e f else s
  s.refreshCtxs B

/-- The end of the integrators of dLOFLOM and dLOOMFI: 3 ms in DP cycles (Table ODU-10, R137). -/
def ctxIntEnd : Nat := intEnd 3

/-- The integrators of a context run: it is multiplexed, and not replaced (R179). -/
def State.ctxIntRuns (s : State) (B e : Nat) : Bool :=
  s.ctxB B 0 e CTX.valid && decide (s.ctxF B 0 e CTX.stage ≠ 0) && !(s.ctx B 0 e).fill

/-- A DP cycle at an integrator that counts a condition: its count, or its time without the condition, which ends it. -/
def Integ.step (x : Integ) (bad : Bool) : Integ :=
  if bad then { n := min ctxIntEnd (x.n + 1), ok := 0 }
  else if ctxIntEnd ≤ x.ok + 1 then { n := 0, ok := ctxIntEnd } else { x with ok := x.ok + 1 }

/-- DLOFLOM_ON of an ingress context (Table ODU-10): its integrator reaches its end; `omfi` names dLOOMFI of an ODU4 parent. -/
def State.dloflomOn (s : State) (B e : Nat) (omfi : Bool) : State :=
  let (m, pe) := s.pmOf B 0 e
  let c := s.ctx B 0 e
  if !s.ctxIntRuns B e then s
  else if omfi then
    if s.omfiOn B e && !s.omfiIn B e && decide (ctxIntEnd ≤ c.om.n + 1) then
      ((s.setCtx B 0 e (fun c => { c with om := c.om.step true })).pointDef B 0 m pe 13 true).refreshCtxs B
    else s
  else if !s.ctxInMf B e && decide (ctxIntEnd ≤ c.lo.n + 1) then
    ((s.setCtx B 0 e (fun c => { c with lo := c.lo.step true })).pointDef B 0 m pe 12 true).refreshCtxs B
  else s

/-- DLOFLOM_OFF: in frame and in multiframe without a break for 3 ms. -/
def State.dloflomOff (s : State) (B e : Nat) (omfi : Bool) : State :=
  let (m, pe) := s.pmOf B 0 e
  let c := s.ctx B 0 e
  if !s.ctxIntRuns B e then s
  else if omfi then
    if s.omfiIn B e && decide (ctxIntEnd ≤ c.om.ok + 1) then
      ((s.setCtx B 0 e (fun c => { c with om := c.om.step false })).pointDef B 0 m pe 13 false).refreshCtxs B
    else s
  else if s.ctxInMf B e && decide (ctxIntEnd ≤ c.lo.ok + 1) then
    ((s.setCtx B 0 e (fun c => { c with lo := c.lo.step false })).pointDef B 0 m pe 12 false).refreshCtxs B
  else s

/-- The end of a DP cycle at one of a context's two integrators: `x` as it stands, whether its condition holds, and the steps at
its end. -/
def State.integTick (s : State) (x : Integ) (bad : Bool) (put : Integ → State → State) (on off : State → State) : State :=
  if bad then (if x.n + 1 < ctxIntEnd then put (x.step true) s else if x.n < ctxIntEnd then on s else put { x with ok := 0 } s)
  else if x.ok + 1 < ctxIntEnd then put (x.step false) s
  else if x.ok < ctxIntEnd then off s else s

/-- The end of a DP cycle at a context's integrators. -/
def State.ctxTick (s : State) (B e : Nat) : State :=
  if s.ctxIntRuns B e then
    let s := s.integTick (s.ctx B 0 e).lo (!s.ctxInMf B e) (fun x s => s.setCtx B 0 e (fun c => { c with lo := x }))
      (fun s => s.dloflomOn B e false) (fun s => s.dloflomOff B e false)
    if s.omfiOn B e then
      s.integTick (s.ctx B 0 e).om (!s.omfiIn B e) (fun x s => s.setCtx B 0 e (fun c => { c with om := x }))
        (fun s => s.dloflomOn B e true) (fun s => s.dloflomOff B e true)
    else s
  else s

/-- CONTEXT_FORCED_AIS (R185). -/
def State.forcedAis (s : State) (B dir e : Nat) : State :=
  if s.ctxB B dir e CTX.valid && !s.ctxStatusB B dir e CTX_STATUS.forced then
    let c := s.ctxGroup B dir e % 32768
    let s := (s.tputb (pgOd B dir) T_CTX_STATUS e CTX_STATUS.forced true).ev (pgOd B dir) 2
    let s := s.report clsSramUe 2 (srcCell B (if dir = 0 then kindCtxIn else kindCtxEg) c)
    if dir = 0 then s.refreshCtxs B else s
  else s

/-! ### Back-reporting -/

/-- The ingress context whose back-reporting an egress context receives (R182). -/
def State.pairedSink (s : State) (c : Nat) : Option (Nat × Nat) :=
  ((List.range 64).flatMap (fun B => (s.ctxSlots B 0).map (fun e => (B, e)))).find?
    (fun p => s.ctxB p.1 0 p.2 CTX.pair_en && decide (s.ctxF p.1 0 p.2 CTX.pair_ctx = c))

/-- The BEI/BIAE value that a sink point sends back: the first applicable row of Table ODU-11. -/
def State.pointBei (s : State) (B e m : Nat) : Nat :=
  let b (f : TField) : Bool := s.mpBit B e f
  if b MP_STATUS.ssf || b MP_STATUS.dais || b MP_STATUS.doci || b MP_STATUS.dlck || b MP_STATUS.dltc then 0
  else if b MP_STATUS.dtim && !s.mpCfgB B e MP_CFG.tim_act_dis then 0
  else if b MP_STATUS.dtim || b MP_STATUS.ddeg then min 8 (s.point m).beiPend
  else if b MP_STATUS.diae then 11
  else min 8 (s.point m).beiPend

/-- BDI and BEI/BIAE for slot t of an egress context, taken from its paired sink; the sink's count is then sent (R180,
R182). -/
def State.takeBack (s : State) (B e t : Nat) : (Nat × Nat) × State :=
  match s.pairedSink (s.ctxGroup B 1 e % 32768) with
  | some (B', e') =>
    if s.slotMode B' 0 e' t = 1 then
      let m := dedPoint (s.ctxGroup B' 0 e') t
      let pe := dedEntry 0 e' t
      ((b2n (s.pointBdi B' pe), s.pointBei B' pe m), s.setPoint m (fun p => { p with beiPend := 0 }))
    else ((0, 0), s)
  | none => ((0, 0), s)

/-! ### Adoption -/

/-- The points of a context, dedicated and shared: point number and MPT entry. -/
def State.ctxAllPoints (s : State) (B dir e : Nat) : List (Nat × Nat) :=
  (List.range 7).map (fun t => (dedPoint (s.ctxGroup B dir e) t, dedEntry dir e t)) ++
  (s.sharedOn B dir e).map (fun q => (shPoint B q, shEntry q))

/-- Close everything a context has open, marked deconfigured at an adoption boundary (R168): its points' and its context defects.
A change of the same DP cycle is discarded there. -/
def State.ctxClose (s : State) (B dir e : Nat) (deconf : Bool) : State :=
  let pts := s.ctxAllPoints B dir e
  let s := if deconf then s.epiBoundary (B / 8) (fun y => y.point && (pts.map (·.1)).contains y.src) else s
  s.each pts (fun s p => s.each (List.range 14) (fun s b => s.pointDef B dir p.1 p.2 b false deconf))

/-- The points of a context start afresh (R168): all integrators and counts 0, accepted TTI unset, the next record
partial with number 0, the generation of the cue that did it. -/
def State.pointStart (s : State) (B m e gen : Nat) : State :=
  let s := s.pointHide B e
  s.setPoint m (fun _ => { adopted := true, flags := 16384, seqBase := s.secCount, gen := gen % 256, bornAt := s.dpCycle + 1 })

/-- A point that no context or row has any more: its next record is partial, and its records go on with their numbers and the
generation of the cue that last added or changed it (R168, R186; DESIGN CHOICE, log 63). -/
def Point.gone (p : Point) : Point := { gen := p.gen, seqBase := p.seqBase, flags := 16384 }

def State.pointStop (s : State) (B m e : Nat) : State := (s.pointHide B e).setPoint m Point.gone

/-- A context added or changed starts at its boundary (R168, R195). Its mark of R185 stays unless the CTX row itself has changed
(`own`), and its own stamp counter runs on while its row has stood (file 08, R271). -/
def State.ctxStart (s : State) (B dir e gen : Nat) (own : Bool) : State :=
  let forced := !own && s.ctxStatusB B dir e CTX_STATUS.forced
  let s := { s with ctxs := s.ctxs.set {} (ckey B dir e) { stTx := (s.ctx B dir e).stTx } }
  let s := s.setEntry (pgOd B dir) T_CTX_STATUS e (2 ^ 6 + 2 ^ 5 * b2n forced)
  s.each (s.ctxAllPoints B dir e) (fun s p => s.pointStart B p.1 p.2 gen)

/-- A context removed stops (R168). -/
def State.ctxStop (s : State) (B dir e : Nat) : State :=
  let g := s.ctxGroup B dir e
  let s := s.ctxClose B dir e true
  let s := { s with ctxs := s.ctxs.erase (ckey B dir e) }
  let s := s.setEntry (pgOd B dir) T_CTX_STATUS e 0
  s.each (List.range 7) (fun s t => s.pointStop B (dedPoint g t) (dedEntry dir e t))

/-! ### Per-second records -/

/-- degm within 2 to 10 (file 04, OTU_DEG_CFG; Table ODU-8). -/
def clampDegm (n : Nat) : Nat := max 2 (min 10 n)

/-- One second of a point's dDEG (R147, R177): the new runs and state. -/
def degStep (p : Point) (on bad : Bool) (degm : Nat) : Bool × Nat × Nat :=
  if p.neutral then (on, p.degBad, p.degGood)
  else if bad then
    let n := p.degBad + 1
    (on || decide (degm ≤ n), min n 10, 0)
  else
    let n := p.degGood + 1
    (on && !decide (degm ≤ n), 0, min n 10)

/-- The record of a point as a 256-bit value (Table ODU-13). -/
def pmRecord (sec mode quality : Nat) (spot srcOnly : Bool) (seq m : Nat) (p : Point) (partly : Bool) : Nat :=
  let z (n : Nat) : Nat := if srcOnly then 0 else n % 2 ^ 32
  let flags := (p.flags % 2 ^ 16) ||| (if partly then 16384 else 0)
  sec % 2 ^ 32 + z p.neEb * 2 ^ 32 + z p.feEb * 2 ^ 64 + z p.neBip * 2 ^ 96 + z p.feBei * 2 ^ 128 + z p.biCnt * 2 ^ 160 +
  flags * 2 ^ 192 + (mode % 4 + quality % 4 * 4 + b2n spot * 16 + b2n srcOnly * 32) * 2 ^ 208 + seq % 256 * 2 ^ 216 +
  (m % 2 ^ 19) * 2 ^ 224 + p.gen % 256 * 2 ^ 248

/-- The region a point belongs to (R169). -/
def pointRegion (m : Nat) : Nat := if m < 458752 then m / 7 % 32768 / 4096 else (m - 458752) / 8192

/-- Start a point's next second: counts at 0, the flags and the neutrality that hold now. -/
def Point.nextSecond (p : Point) (flags : Nat) (neutral : Bool) : Point :=
  { p with neEb := 0, feEb := 0, neBip := 0, feBei := 0, biCnt := 0, flags := flags, neutral := neutral }

/-- Close the second of one point of a context: its record, its dDEG, its next second. -/
def State.closePoint (s : State) (f : PmFrame) (B dir e : Nat) (m pe level mode : Nat) (spot : Bool) : State × Nat :=
  let p := s.point m
  let r := pmRecord f.sec mode f.quality spot (decide (dir = 1 ∧ mode = 1)) (s.secCount - p.seqBase) m p f.stepped
  let sink := decide (mode ≠ 0) && !decide (dir = 1 ∧ mode = 1)
  let thr := s.mpCfg B pe MP_CFG.degthr
  let (on, b, g) := degStep p (s.mpBit B pe MP_STATUS.ddeg) (decide (thr ≠ 0) && decide (thr ≤ p.neEb)) (clampDegm (s.mpCfg B pe MP_CFG.degm))
  let s := if sink && (decide (thr ≠ 0) || s.mpBit B pe MP_STATUS.ddeg) then s.pointDef B dir m pe 8 on else s
  let s := s.setPoint m (fun p => { p with degBad := b, degGood := g })
  let flags := s.pointFlags B pe (decide (level = 0)) (decide (dir = 0) && decide (s.ctxStatus B 0 e CTX_STATUS.leg = legSuspect))
    (decide (dir = 0) && (s.ctx B 0 e).fill)
  (s.setPoint m (fun p => p.nextSecond flags (s.pointSilent B pe)), r)

/-- Close the second of every point of a context: its seven slots and the shared points that watch it. -/
def State.closeCtx (s : State) (f : PmFrame) (B dir e : Nat) : State × List (Nat × Nat) :=
  let g := s.ctxGroup B dir e
  let ded := (List.range 7).map (fun t => (dedPoint g t, dedEntry dir e t, t, s.slotMode B dir e t, false))
  let sh := (s.sharedOn B dir e).map (fun q =>
    (shPoint B q, shEntry q, s.effF (pgMpt B) T_SHP q SHP.level, s.sharedMode B q, decide (s.effF (pgMpt B) T_SHP q SHP.kind = 2)))
  (ded ++ sh).foldl (fun a p =>
    let (s', r) := a.1.closePoint f B dir e p.1 p.2.1 p.2.2.1 p.2.2.2.1 p.2.2.2.2
    (s', a.2 ++ [(p.1, r)])) (s, [])

/-- Close the second of a section point and, while its slice runs, judge the slice's dDEG (R147, R174). -/
def State.closeSection (s : State) (f : PmFrame) (d : Nat) : State × (Nat × Nat) :=
  let m := secPoint d
  let p := s.point m
  let r := pmRecord f.sec 1 f.quality false false (s.secCount - p.seqBase) m p f.stepped
  let thr := min 860177 (max 1 (s.rd (pgOtu d) OTU_DEG_CFG_degthr))
  let (on, b, g) := degStep p (s.rdb (pgOtu d) OTU_STATUS_ddeg) (decide (thr ≤ p.neEb)) (clampDegm (s.rd (pgOtu d) OTU_DEG_CFG_degm))
  let s := if s.sliceRuns d then
      (s.sliceDef d OTU_STATUS_ddeg otuDeg 4 on).setPoint m (fun p => { p with degBad := b, degGood := g })
    else s
  (s.setPoint m (fun p => p.nextSecond (s.sectionFlags d) (!s.rdb (pgOtu d) OTU_STATUS_in_frame)), (m, r))

/-- Close the second of a point that no context, row or slice has: its region is in RESET (R553), or it was removed. -/
def State.closeRest (s : State) (f : PmFrame) (m : Nat) : State × (Nat × Nat) :=
  let p := s.point m
  let mode := if 458752 ≤ m ∧ (m - 458752) % 1024 < 16 then 1 else 0
  let idle := f.resetRegions.contains (pointRegion m)
  let r := pmRecord f.sec mode f.quality false false (s.secCount - p.seqBase) m (if idle then { gen := p.gen, flags := 1 } else p)
    (idle || f.stepped)
  (s.setPoint m (fun p => p.nextSecond 0 true), (m, r))

/-- Every context in effect: block, direction, slot. -/
def State.allCtxs (s : State) : List (Nat × Nat × Nat) :=
  (List.range 64).flatMap (fun B => (List.range 2).flatMap (fun d => (s.ctxSlots B d).map (fun e => (B, d, e))))

/-- Run a closing over a list, collecting the records. -/
def State.closeAll {α : Type} (s : State) (recs : List (Nat × Nat)) (l : List α) (f : State → α → State × List (Nat × Nat)) :
    State × List (Nat × Nat) :=
  l.foldl (fun a x => let (s', r) := f a.1 x; (s', a.2 ++ r)) (s, recs)

/-- The slices whose section points have anything to record: those that run or are members, and those with a state of their own. -/
def State.secSlices (s : State) (up : Nat → Bool) : List Nat :=
  (List.range 1024).filter (fun d => up (sliceRegion d) &&
    (s.sliceRuns d || s.sliceMember d || (s.points.map (·.1)).contains (secPoint d)))

/-- Every point closes its record of the second just ended, and the dDEG seconds are judged (R147, R186). A second that
ends while the one before is not fully written counts as overrun (R188). -/
def State.closeSecond (s : State) (sec quality : Nat) : State :=
  let f : PmFrame := { sec := sec, quality := quality, count := s.secCount, stepped := s.tbStepped
                       resetRegions := (List.range 8).filter (fun r => decide (s.region r = rgnReset)), recs := [] }
  let up (r : Nat) : Bool := !f.resetRegions.contains r
  let (s, recs) := s.closeAll [] (s.allCtxs.filter (fun x => up (x.1 / 8))) (fun s x => s.closeCtx f x.1 x.2.1 x.2.2)
  let (s, recs) := s.closeAll recs (s.secSlices up) (fun s d => let (s, r) := s.closeSection f d; (s, [r]))
  let (s, recs) := s.closeAll recs ((s.points.map (·.1)).filter (fun m => !(recs.map (·.1)).contains m))
    (fun s m => let (s, r) := s.closeRest f m; (s, [r]))
  let s := s.each (List.range 64) State.refreshBlock
  let s := { s with secCount := s.secCount + 1, tbStepped := false }
  if s.rdb pgWng WNG_PMS_CFG_en then
    let s := if s.pmPend.isEmpty then s else (s.countSat pgWng WNG_PMS_STATUS_overrun).ev pgWng 25
    { s with pmPend := s.pmPend ++ [{ f with recs := recs }] }
  else s

/-- The record of any point in a closed second: the one taken, or that of a point without state (R170, R174); in a region in
RESET zero counts with ne_ds and partial (R553). -/
def pmRecordOf (f : PmFrame) (m : Nat) : Nat :=
  let mode := if 458752 ≤ m ∧ (m - 458752) % 1024 < 16 then 1 else 0
  match f.recs.find? (fun x => decide (x.1 = m)) with
  | some x => x.2
  | none =>
    if f.resetRegions.contains (pointRegion m) then pmRecord f.sec mode f.quality false false f.count m { flags := 1 } true
    else pmRecord f.sec mode f.quality false false f.count m {} f.stepped

/-- Write the records of a closed second into the PM store (R187). -/
def State.pmWrite (s : State) (f : PmFrame) : State :=
  let base := s.rd pgWng WNG_PMS_BASE_base / 2 ^ 24 * 2 ^ 24 + f.sec % (s.rd pgWng WNG_PMS_CFG_depth_m1 + 1) * 0x1000000
  { s with mem := (List.range 524288).foldl (fun mem m => memWriteBytes mem (base + 32 * m) (bytesLe 32 (pmRecordOf f m))) s.mem }

/-! ### The episode tracker -/

/-- EPISODE_CHANGE (R191): the tracker takes the change at the front of its queue. -/
def State.episodeChange (s : State) (r : Nat) : State :=
  match (s.epi.get {} r).queue with
  | c :: q => ({ s with epi := s.epi.upd {} r (fun x => { x with queue := q }) }).epiApply r c
  | [] => s

/-- AGGREGATED_OFF (R194). -/
def State.aggregatedOff (s : State) (r : Nat) : State :=
  let pg := pgEpi r
  if s.rdb pg EPI_STATUS_aggregated && decide (s.epiOcc r < 7168) && (s.epi.get {} r).queue.isEmpty then
    let t := s.now
    let loose := (s.epi.get {} r).loose
    let s := s.each loose (fun s c =>
      (s.tput pg T_EPI_AGG c.kind EPI_AGG.present (s.tget pg T_EPI_AGG c.kind EPI_AGG.present - 1)).epiOpen r c t true)
    let s := { s with epi := s.epi.upd {} r (fun x => { x with loose := [] }) }
    let s := s.evWhen (!loose.isEmpty) pg 4
    let s := ((s.wrb pg EPI_STATUS_aggregated false).ev pg 3).epiShow r
    s.logRec 0x06 0 (srcRegion r) (s.epiOcc r)
  else s

/-! ### The commands -/

def execDloflomOn (B e : Nat) (omfi : Bool) := run (fun s => s.dloflomOn B e omfi)
def execDloflomOff (B e : Nat) (omfi : Bool) := run (fun s => s.dloflomOff B e omfi)
def execContextForcedAis (B dir e : Nat) := run (fun s => s.forcedAis B dir e)
def execEpisodeChange (r : Nat) := run (fun s => s.episodeChange r)
def execAggregatedOff (r : Nat) := run (fun s => s.aggregatedOff r)

end Sys2Proof.Machine
end

