-- ==== Sys2Proof/Machine/Mapping.lean ====
section
/-! DEFINITION. Client mapping: GMP, AMP, IMP and the rate generator, client defects and replacement (file 06, R199 to
R228). -/

namespace Sys2Proof.Machine

open Sys2Proof

/-! ### Rates and GMP servers -/

/-- The nominal rate of an ODU in kbit/s, as a fraction (Table ODU-2); `n` is the slices of an ODUCn. -/
def oduRate (typ n flex : Nat) : Nat × Nat :=
  if typ = 0 then (1244160, 1)
  else if typ = 1 then (239 * 2488320, 238)
  else if typ = 2 then (239 * 9953280, 237)
  else if typ = 3 then (239 * 10312500, 237)
  else if typ = 4 then (239 * 39813120, 236)
  else if typ = 5 then (239 * 99532800, 227)
  else if typ = 6 then (flex, 1)
  else if typ = 8 then (n * 239 * 99532800, 226)
  else (0, 1)

def State.ctxRate (s : State) (B d e : Nat) : Nat × Nat :=
  oduRate (s.ctxF B d e CTX.odu_type) (s.ifF (16 * B + s.ctxF B d e CTX.lead) OTU_IF.n_m1 + 1) (s.ctxF B d e CTX.flex_kbps)

/-- The number of positions of a context's frame. -/
def State.ctxPositions (s : State) (B d e : Nat) : Nat :=
  if s.ctxF B d e CTX.stage = 0 then max 1 (s.otucMembers (16 * B + s.ctxF B d e CTX.lead)).length else 1

/-- The nominal rate of a client in kbit/s (Table MAP-1). -/
def clientRate (code cbr : Nat) : Nat :=
  if code = 6 then cbr else [10312500, 103125000, 103125000, 206250000, 412500000, 825000000].getD code 0

/-- The rate of a client's flow on Fybry in kbit/s (Table MAP-1). -/
def flowRate (code cbr : Nat) : Nat :=
  if code = 6 then cbr else [10312500, 101562500, 101562500, 203125000, 406250000, 812500000].getD code 0

/-- A client's tolerance in ppm (Table MAP-1). -/
def clientTol (code tol : Nat) : Nat := if code = 6 ∧ tol = 0 then 20 else 100

/-- A GMP mapping: bytes per word, words per period, capacity and client rate as fractions of kbit/s, and the tolerance τ
in ppm (Table MAP-2, R207). -/
structure GmpMap where
  w : Nat
  pm : Nat
  cap : Nat × Nat
  rate : Nat × Nat
  tau : Nat
  deriving DecidableEq, Repr

/-- The OPU payload that serves a client, by ODU type (Table MAP-2). -/
def opuServer (typ : Nat) : Option (Nat × Nat × Nat) :=
  [some (1, 15232, 1238954), some (2, 7616, 2488320), some (8, 1904, 9995277), none, some (32, 476, 40150519),
   some (16, 950, 104136740)].getD typ none

/-- The ODTU that serves an ODU in a carrier of an ODU type, `ts` slots (Table MAP-2): bytes per word, words, and frames of
the carrier per period. -/
def odtuServer (typ ts : Nat) : Option (Nat × Nat × Nat) :=
  if typ = 2 then some (ts, 15232, 8) else if typ = 4 then some (ts, 15232, 32) else if typ = 5 then some (ts, 15200, 80) else none

/-- Whether an ODU is multiplexed by AMP (Table ODU-4): ODU1 in ODU2 or ODU3, ODU2 in ODU3. -/
def isAmp (child carrier : Nat) : Bool := decide ((child = 1 ∧ (carrier = 2 ∨ carrier = 4)) ∨ (child = 2 ∧ carrier = 4))

/-- The tolerance of an ODU as a GMP client: 100 ppm for ODU2e and ODUflex, 20 ppm otherwise. -/
def oduTol (typ : Nat) : Nat := if typ = 3 ∨ typ = 6 then 100 else 20

/-- The GMP mapping of a context's client into its OPU, or (`mux`) of the context's ODU into its carrier. -/
def State.gmpMap (s : State) (B d e : Nat) (mux : Bool) : Option GmpMap :=
  if !s.ctxB B d e CTX.valid then none
  else
    let typ := s.ctxF B d e CTX.odu_type
    if mux then
      let ts := s.ctxF B d e CTX.n_ts
      let p := s.ctxF B d e CTX.parent
      let stage := s.ctxF B d e CTX.stage
      if stage = 1 then some { w := 16 * ts, pm := 952, cap := (ts * 5240886, 1), rate := s.ctxRate B d e, tau := oduTol typ + 20 }
      else if stage = 2 then
        let pt := s.ctxF B d p CTX.odu_type
        if isAmp typ pt then none
        else (odtuServer pt ts).map (fun x =>
          let r := s.ctxRate B d p
          { w := x.1, pm := x.2.1, cap := (x.1 * x.2.1 * 8 * r.1, r.2 * 122368 * x.2.2), rate := s.ctxRate B d e, tau := oduTol typ + 20 })
      else none
    else
      let code := s.cliCode B d e
      if s.isClient B d e ∧ (code = 1 ∨ code = 6) then
        (opuServer typ).map (fun x =>
          { w := x.1, pm := x.2.1, cap := (x.2.2, 1), rate := (clientRate code (s.cliF B d e CLI_CFG.cbr_kbps), 1)
            tau := clientTol code (s.cliF B d e CLI_CFG.tol) + 20 })
      else none

/-- Cm_nom as a fraction (R207). -/
def GmpMap.nom (g : GmpMap) : Nat × Nat := (g.pm * g.rate.1 * g.cap.2, g.rate.2 * g.cap.1)

/-- cm_lo and cm_hi (R207). -/
def GmpMap.lo (g : GmpMap) : Nat := g.nom.1 * (1000000 - g.tau) / (g.nom.2 * 1000000) - 1
def GmpMap.hi (g : GmpMap) : Nat :=
  let d := g.nom.2 * 1000000
  (g.nom.1 * (1000000 + g.tau) + d - 1) / d + 1

/-- The client bytes of a period at offset `o` (units of 2^-7 ppm) in units of 2^-40 byte. -/
def GmpMap.bytesQ (g : GmpMap) (o : Int) : Nat :=
  g.w * g.nom.1 * (128000000 + o).toNat * 2 ^ 40 / (g.nom.2 * 128000000)

def gmpKey (B d e : Nat) (mux : Bool) : Nat := 2 * ckey B d e + b2n mux
def State.gmp (s : State) (k : Nat) : Gmp := s.gmps.get {} k
def State.setGmp (s : State) (k : Nat) (f : Gmp → Gmp) : State := { s with gmps := s.gmps.upd {} k f }

/-! ### Buffers -/

/-- A client whose buffer counts blocks: IMP, and the line client (code 7 here). -/
def isImp (code : Nat) : Bool := decide (2 ≤ code ∧ code ≠ 6)

/-- The depth of a client's buffer: of an IMP mapper at least two ODUflex frames or 8 segments of blocks (R211); of any other, which
the spec bounds nowhere, at least four server periods (DESIGN CHOICE, log 71). -/
def cliDepth (code : Nat) : Nat := if isImp code then max 3709 (Config.bufDepth code) else max 60928 (Config.bufDepth code)

def refKey : CliRef → Nat
  | .ctx B d e => ckey B d e
  | .line n => lineKey n

def State.refCode (s : State) : CliRef → Nat
  | .ctx B d e => s.cliCode B d e
  | .line _ => 7

/-- The code whose block form a client has: a line client's by its Ethernet rate (Table MAP-6). -/
def State.formCode (s : State) : CliRef → Nat
  | .ctx B d e => s.cliCode B d e
  | .line n => [1, 3, 4, 5].getD (s.effF (pgEth n) T_ETH_CFG 0 ETH_CFG.client) 1

/-- The client is configured. -/
def State.refOn (s : State) : CliRef → Bool
  | .ctx B d e => s.isClient B d e
  | .line n => s.ethEn n

def State.refRegion : CliRef → Nat
  | .ctx B _ _ => B / 8
  | .line n => n / 32

/-- The fill of a client's buffer: blocks of an IMP or line client, bytes of any other. -/
def Cli.level (x : Cli) (code : Nat) : Nat :=
  if isImp code then x.buf.length else x.bytes.length + (x.buf.length + x.rx.length) * 66 / 8

def State.cliLevel (s : State) (c : CliRef) : Nat := (s.cli (refKey c)).level (s.refCode c)

/-- Show a buffer's fill in units of 16 bytes (Table MAP-13); a block takes 66 bits. -/
def State.showLevel (s : State) (c : CliRef) : State :=
  match c with
  | .ctx B d e =>
    let fill := s.cliLevel c
    s.tput (pgCli B d) T_CLI_STATUS e CLI_STATUS.fill (min 0xFFFF (if isImp (s.cliCode B d e) then fill * 66 / 128 else fill / 16))
  | .line _ => s

/-- n bytes, and n blocks, that the spec leaves open: free values. -/
def State.openBytes (s : State) (n : Nat) : List Nat × State :=
  let (v, s) := s.free (8 * n)
  ((List.range n).map (fun k => v / 2 ^ (8 * k) % 256), s)
def State.openBlks (s : State) (n : Nat) : List B66 × State :=
  let (v, s) := s.free (65 * n)
  ((List.range n).map (fun k => b66Of (1 + v / 2 ^ (65 * k) % 2) (bitsLsb 64 (v / 2 ^ (65 * k + 1)))), s)

/-! ### Client defects -/

/-- Client defects by kind (Table MAP-7): 25 cLOS, 26 cLF, 27 cRF, 28 cJC, 29 cRATE. -/
def cliField (kind : Nat) : TField :=
  [CLI_STATUS.clos, CLI_STATUS.clf, CLI_STATUS.crf, CLI_STATUS.cjc, CLI_STATUS.crate].getD (kind - 25) CLI_STATUS.clos

/-- The status bit and the event of a line client's defect (R228); a line client has no cJC. -/
def ethField (kind : Nat) : Option (Field × Nat) :=
  [some (ETH_STATUS_clos, 0), some (ETH_STATUS_clf, 1), some (ETH_STATUS_crf, 2), none, some (ETH_STATUS_crate, 3)].getD (kind - 25) none

/-- Declare or clear a client defect with its event and its episode (R219), then what follows from it (R220, R221). -/
def State.cliDef (s : State) (c : CliRef) (kind : Nat) (on : Bool) (deconf : Bool := false) : State :=
  match c with
  | .ctx B d e =>
    if s.cliB B d e (cliField kind) = on then s
    else
      let s := (s.tputb (pgCli B d) T_CLI_STATUS e (cliField kind) on).ev (pgCli B d) 0
      let s := s.epiPush (B / 8) true (dedPoint (s.ctxGroup B d e) 0) kind on deconf
      if d = 0 then s.refreshCtxs B else s
  | .line n =>
    match ethField kind with
    | some (f, k) =>
      if s.rdb (pgEth n) f = on then s
      else
        let s := (s.wrb (pgEth n) f on).ev (pgEth n) k
        (s.epiPush (n / 32) false (16 * (n / 4) + 4 * (n % 4)) kind on deconf).refreshEth n
    | none => s

/-- The client has a defect. -/
def State.cliHas (s : State) (c : CliRef) (kind : Nat) : Bool :=
  match c with
  | .ctx B d e => s.cliB B d e (cliField kind)
  | .line n => match ethField kind with
    | some (f, _) => s.rdb (pgEth n) f
    | none => false

/-- cRATE when a buffer's fill is its depth or 0 (R213). -/
def State.judgeFill (s : State) (c : CliRef) : State :=
  let f := s.cliLevel c
  if f = 0 ∨ cliDepth (s.refCode c) ≤ f then s.cliDef c 29 true else s

/-- Whether a client of code 0 to 5, or a line client, has fault signalling and block lock (Table MAP-7). -/
def State.refBlocks (s : State) (c : CliRef) : Bool := s.refOn c && decide (s.refCode c ≠ 6)

/-- The client's region runs its datapath. -/
def State.refRuns (s : State) (c : CliRef) : Bool := s.datapath (State.refRegion c)

/-- CLOS_ON (Table MAP-7): of a line client while the PCS is not aligned or a lane has no signal; of an ingress context
while block lock is lost, for 10 µs. -/
def State.closOn (s : State) (c : CliRef) : State :=
  if s.refBlocks c && s.refRuns c then
    match c with
    | .ctx _ d _ => if d = 0 ∧ (s.cli (refKey c)).recv.sync.lock = false then s.cliDef c 25 true else s
    | .line n =>
      if !s.ethAligned n || (s.ethIfLanes n).any (fun k => !s.rdb (pgLln k) LLN_STATUS_sig_det) then s.cliDef c 25 true else s
  else s

/-- CLOS_OFF. -/
def State.closOff (s : State) (c : CliRef) : State :=
  if s.refBlocks c && s.refRuns c then
    match c with
    | .ctx _ d _ => if d = 0 ∧ (s.cli (refKey c)).recv.sync.lock then s.cliDef c 25 false else s
    | .line n =>
      if s.ethAligned n && (s.ethIfLanes n).all (fun k => s.rdb (pgLln k) LLN_STATUS_sig_det) then s.cliDef c 25 false else s
  else s

/-- CLF_CHANGE and CRF_CHANGE: the condition held (`on`) or absent for 100 µs. -/
def State.clfChange (s : State) (c : CliRef) (on : Bool) : State :=
  if s.refBlocks c && s.refRuns c then s.cliDef c 26 on else s

def State.crfChange (s : State) (c : CliRef) (on : Bool) : State :=
  if s.refBlocks c && s.refRuns c then s.cliDef c 27 on else s

/-- CRATE_OFF: the fill has stood between 1/4 and 3/4 of the depth for 1 ms. -/
def State.crateOff (s : State) (c : CliRef) : State :=
  let f := s.cliLevel c
  let d := cliDepth (s.refCode c)
  if s.refOn c && decide (d ≤ 4 * f ∧ 4 * f ≤ 3 * d) then s.cliDef c 29 false else s

/-! ### The rate generator -/

/-- What the generator of an egress context sets (Table MAP-8): nothing, its client (false) or the ODU in its carrier
(true). -/
def State.genRole (s : State) (B e : Nat) : Option Bool :=
  if s.isClient B 1 e then
    let code := s.cliCode B 1 e
    if code = 0 then some true else if code = 1 ∨ code = 6 then some false else none
  else if s.ctxB B 1 e CTX.flow_en then some true else none

/-- Move from `a` toward `b` as a filter of the loop bandwidth does: the spec does not give its shape, so any value between
them. -/
def State.toward (s : State) (a b : Int) : Int × State :=
  if a = b then (a, s)
  else
    let (v, s) := s.free 20
    let k : Int := (v % ((b - a).natAbs + 1) : Nat)
    (if a < b then a + k else a - k, s)

/-- The limit of o_snap + o_fill of a context in units of 2^-7 ppm (R217). -/
def State.genLimit (s : State) (B e : Nat) : Int :=
  let cli := s.isClient B 1 e
  let code := s.cliCode B 1 e
  let tol := if cli then clientTol code (s.cliF B 1 e CLI_CFG.tol) else oduTol (s.ctxF B 1 e CTX.odu_type)
  128 * (tol + 20 : Nat)

/-- The part of the offset that the fill gives: none at half the depth, else of the sign of the fill's deviation and at most
50 ppm; it stands while held. -/
def State.fillStep (s : State) (x : Cli) (fill depth : Nat) (hold : Bool) : Int × State :=
  let dev : Int := (2 * fill : Int) - depth
  if hold then (x.oFill, s) else if dev = 0 then (0, s) else
    let (v, s) := s.free 13
    let m : Int := (v % 6401 : Nat)
    (if 0 < dev then m else -m, s)

/-- One step of a running generator (R217, R218): o_snap follows the valid snapshots unless in holdover, o_fill follows the
fill's deviation from half the depth within ±50 ppm. The answer is the offset in use. -/
def State.genStep (s : State) (B e : Nat) : Int × State :=
  let k := ckey B 1 e
  let x := s.cli k
  let hold := s.cliB B 1 e CLI_STATUS.gen_hold
  let (a, s) := if hold then (x.oSnap, s) else s.toward x.oSnap x.snap
  let (b, s) := s.fillStep x (x.level (s.cliCode B 1 e)) (cliDepth (s.cliCode B 1 e)) hold
  let s := s.setCli k (fun x => { x with oSnap := a, oFill := b })
  let o := clampInt (-(s.genLimit B e)) (s.genLimit B e) (a + b)
  let s := if s.isClient B 1 e then s.tput (pgMap B) T_CLI_STATUS e CLI_STATUS.offset (ofSigned 16 o) else s
  (o, s)

/-! ### What a mapper takes and gives -/

/-- n bytes of a client's replacement signal (R221): PN-11, or local-fault blocks as line bits. -/
def Cli.replBytes (x : Cli) (code n : Nat) : List Nat × Cli :=
  if code = 6 then
    let (b, pn) := pn11 (8 * n) x.pn
    (packBits n b, { x with pn := pn })
  else
    let (b, scr) := lineBits x.scr (List.replicate ((8 * n + 65 - x.part.length) / 66) (faultBlk code))
    let all := x.part ++ b
    (packBits n (all.take (8 * n)), { x with scr := scr, part := all.drop (8 * n) })

/-- n bytes for the OPU of a GMP or BMP mapper (R204, R210): of its buffer, or of the replacement, which also stands in for what the
buffer does not hold (R221, R222). Blocks of code 1 go as line bits. -/
def Cli.giveBytes (x : Cli) (code n : Nat) (repl : Bool) : List Nat × Cli :=
  if code = 1 then
    let k := (8 * n + 65 - x.part.length) / 66
    let src := if repl then [] else x.buf.take k
    let (b, scr) := lineBits x.scr (src ++ List.replicate (k - src.length) (faultBlk 1))
    let all := x.part ++ b
    (packBits n (all.take (8 * n)), { x with scr := scr, part := all.drop (8 * n), buf := x.buf.drop k })
  else
    let src := if repl then [] else x.bytes.take n
    let (more, y) := x.replBytes code (n - src.length)
    (src ++ more, { y with bytes := x.bytes.drop n })

/-- An egress client gives n bytes of its stream. -/
def State.giveClient (s : State) (B e n : Nat) : List Nat × State :=
  let c := CliRef.ctx B 1 e
  let (bs, x) := (s.cli (refKey c)).giveBytes (s.cliCode B 1 e) n (s.cliB B 1 e CLI_STATUS.replacing)
  (bs, ((s.setCli (refKey c) (fun _ => x)).showLevel c).judgeFill c)

/-- An ingress client takes bytes that its demapper recovered: the blocks of code 1 once they are in block lock (R211 for their
line), whose lock code 0 watches too (Table MAP-7). -/
def State.takeClient (s : State) (B e : Nat) (bs : List Nat) : State :=
  let c := CliRef.ctx B 0 e
  let code := s.cliCode B 0 e
  let x := s.cli (refKey c)
  let (recv, blks) := if code = 6 then (x.recv, []) else x.recv.push (unpackBits bs)
  let x := if code = 1 then { x with recv := recv, rx := x.rx ++ blks } else { x with recv := recv, bytes := x.bytes ++ bs }
  ((s.setCli (refKey c) (fun _ => x)).showLevel c).judgeFill c

/-! ### GMP -/

/-- GMP_MAP_PERIOD (R204 to R206): one server period of an egress context's client, or (`mux`) of its ODU in its carrier, whose next
bytes are `data`. -/
def State.gmpMapPeriod (s : State) (B e : Nat) (mux : Bool) (data : List Nat) : State :=
  match s.gmpMap B 1 e mux with
  | some g =>
    if s.datapath (B / 8) then
      let k := gmpKey B 1 e mux
      let gen := decide (s.genRole B e = some mux)
      let (o, s) := if gen then s.genStep B e else (0, s)
      let x := s.gmp k
      let due := x.frac + g.bytesQ o
      let acc := x.res + due / 2 ^ 40
      let cm := acc / g.w
      let res := acc - g.w * cm
      let s := s.setGmp k (fun x => { x with frac := due % 2 ^ 40, res := res, cPrev := some cm, c8d := res })
      let (bytes, s) := if mux then (data.take (g.w * cm), s) else s.giveClient B e (g.w * cm)
      let s := if mux then s
        else (s.tput (pgMap B) T_CLI_STATUS e CLI_STATUS.cm cm).tput (pgMap B) T_CLI_STATUS e CLI_STATUS.c8d res
      s.emit (.gmpPeriod B e mux cm res (jcCm x.cPrev cm ++ jcC8d res) (gmpFill g.w g.pm cm g.pm bytes))
    else s
  | none => s

/-- The offset measured over 1,024 periods of a nominal num/den bytes each (R201), none while the server's own is not measured; the
last unit of a quotient that is not whole is a free value. -/
def State.offsetOf (s : State) (num den : Nat) (hist : List Nat) (serverOff : Option Int) : Nat × State :=
  match serverOff with
  | none => (0x8000, s)
  | some o =>
    if hist.length < 1024 then (0x8000, s)
    else
      let nom := 1024 * num
      let dev : Int := ((hist.sum * den : Nat) : Int) - nom
      let (q, s) := s.divFree (dev * 128000000) nom
      (ofSigned 16 (clampInt (-32767) 32767 (q + o)), s)

/-- A measured offset as a number. -/
def readOffset (v : Nat) : Option Int := if v = 0x8000 then none else some (toSigned 16 v)

/-- The offset of the server of an ingress context's client, or of its ODU (R201): of the ODU itself, of its parent, or of the OTUC
frames, which `otuc` tells. -/
def State.serverOff (s : State) (B e : Nat) (mux : Bool) (otuc : Int) : Option Int :=
  if !mux then readOffset (s.gmp (gmpKey B 0 e true)).offset
  else if s.ctxF B 0 e CTX.stage = 2 then readOffset (s.gmp (gmpKey B 0 (s.ctxF B 0 e CTX.parent) true)).offset
  else some otuc

/-- The offset of a multiplexed ODU is that of its BMP or IMP client (R201, R227). -/
def State.showMuxOffset (s : State) (B e off : Nat) : State :=
  if s.isClient B 0 e ∧ s.cliCode B 0 e ≠ 1 ∧ s.cliCode B 0 e ≠ 6 then s.tput (pgDmp B) T_CLI_STATUS e CLI_STATUS.offset off else s

/-- Which Cm a period uses (R207): 0 the received one; the previous one where 1 JC1 to JC3 do not give it, or 2 it lies outside the
window. -/
def cmChoice (g : GmpMap) (cm : Option Nat) : Nat :=
  match cm with
  | none => 1
  | some c => if c < g.lo ∨ g.hi < c then 2 else 0

/-- Runs of periods for cJC and its declaration or clearing after five (R207, Table MAP-7). -/
def State.judgeCjc (s : State) (B e : Nat) (usedPrev : Bool) : State :=
  let k := ckey B 0 e
  let x := s.cli k
  let p := if usedPrev then min 5 (x.prevRun + 1) else 0
  let r := if usedPrev then 0 else min 5 (x.recvRun + 1)
  let s := s.setCli k (fun x => { x with prevRun := p, recvRun := r })
  if p = 5 then s.cliDef (.ctx B 0 e) 28 true else if r = 5 then s.cliDef (.ctx B 0 e) 28 false else s

/-- What a client's period shows and does beyond its measurement: counts, cJC, its data; and a PN-11 replacement ends with it if none
of its conditions holds (R221). -/
def State.gmpClient (s : State) (B e ch cm c8d off : Nat) (data : List Nat) : State :=
  let pg := pgDmp B
  let s := if ch = 1 then s.tcount pg T_CLI_CNT e CLI_CNT.jc_crc else if ch = 2 then s.tcount pg T_CLI_CNT e CLI_CNT.jc_range else s
  let s := ((s.tput pg T_CLI_STATUS e CLI_STATUS.cm cm).tput pg T_CLI_STATUS e CLI_STATUS.c8d c8d).tput pg T_CLI_STATUS e
    CLI_STATUS.offset off
  let s := (s.takeClient B e data).judgeCjc B e (decide (ch ≠ 0))
  if s.cliSf B e || decide (s.ctxStatus B 0 e CTX_STATUS.leg = 2) || decide (s.cliF B 0 e CLI_CFG.force_repl ≠ 0) then s
  else s.setRepl B 0 e false

/-- GMP_DEMAP_PERIOD (R204, R206, R207): one server period of an ingress context's client, or (`mux`) of its ODU in its
carrier. -/
def State.gmpDemapPeriod (s : State) (B e : Nat) (mux : Bool) (rx : GmpRx) : State :=
  match s.gmpMap B 0 e mux with
  | some g =>
    if s.datapath (B / 8) then
      let k := gmpKey B 0 e mux
      let x := s.gmp k
      let got := readCm x.cPrev rx.jc
      let ch := cmChoice g got
      let (prev, s) := match x.cPrev with
        | some c => (c, s)
        | none => if ch = 0 then (0, s) else s.free 14
      let cm := if ch = 0 then got.getD prev else prev
      let c8d := (readC8d rx.jc).getD x.c8d
      let c8 := ((g.w * cm : Nat) + (c8d : Int) - x.c8d).toNat
      let hist := (c8 :: x.hist).take 1024
      let data := gmpTake g.w g.pm cm g.pm rx.words
      let (off, s) := s.offsetOf (g.w * g.nom.1) g.nom.2 hist (s.serverOff B e mux rx.serverOff)
      let s := s.setGmp k (fun x => { x with
        cPrev := some cm, c8d := c8d, hist := hist, offset := off, data := if mux then data else [] })
      if mux then
        let s := if ch = 1 then s.tcount (pgDmp B) T_DMX_CNT e DMX_CNT.jc_crc
          else if ch = 2 then s.tcount (pgDmp B) T_DMX_CNT e DMX_CNT.jc_range else s
        s.showMuxOffset B e off
      else s.gmpClient B e ch cm c8d off data
    else s
  | none => s

/-! ### AMP -/

/-- The context's ODU is multiplexed by AMP. -/
def State.ctxAmp (s : State) (B d e : Nat) : Bool :=
  s.ctxB B d e CTX.valid && decide (s.ctxF B d e CTX.stage = 2) &&
  isAmp (s.ctxF B d e CTX.odu_type) (s.ctxF B d (s.ctxF B d e CTX.parent) CTX.odu_type)

/-- The JC code of an ODTU period (R208, Table MAP-5) for a child's fill, in bytes from its centre. -/
def ampCode (dev : Int) : Nat := if dev < -1 then 3 else if 1 < dev then 1 else 0

/-- The child bytes of code 0b00 in a period, and the nominal bytes due in it as a fraction. -/
def State.ampRate (s : State) (B d e : Nat) : Nat × Nat × Nat :=
  let p := s.ctxF B d e CTX.parent
  let (n, frames) := ampPeriod (s.ctxF B d e CTX.odu_type) (s.ctxF B d p CTX.odu_type)
  let r := s.ctxRate B d e
  let c := s.ctxRate B d p
  (n, r.1 * frames * 15296 * c.2, r.2 * c.1)

/-- AMP_JUSTIFY (R208, R216): the generator's bytes of a period come into the child's buffer, the period's go out of it, and what
is left decides the justification, and so how many of the child's bytes the period carries. -/
def State.ampJustify (s : State) (B e : Nat) (data : List Nat) : State :=
  if s.ctxAmp B 1 e && s.datapath (B / 8) then
    let k := gmpKey B 1 e true
    let (o, s) := if s.genRole B e = some true then s.genStep B e else (0, s)
    let (n, num, den) := s.ampRate B 1 e
    let x := s.gmp k
    let due := x.frac + num * (128000000 + o).toNat * 2 ^ 40 / (den * 128000000)
    let dev : Int := x.dev + (due / 2 ^ 40 : Nat) - n
    let code := ampCode dev
    (s.setGmp k (fun x => { x with frac := due % 2 ^ 40, dev := dev - ampAdjust code, cPrev := some code })).emit
      (.ampJc B e [code, code, code] (data.take ((n : Int) + ampAdjust code).toNat))
  else s

/-- The majority of three JC copies, bit by bit; 0b10 reads as 0b00 (R209, Table MAP-5). -/
def ampMajority (a b c : Nat) : Nat :=
  let m := ((a &&& b) ||| (a &&& c) ||| (b &&& c)) % 4
  if m = 2 then 0 else m

/-- AMP_DEMUX_PERIOD (R209): the child's bytes of the period are those of its code; they measure its rate (R201). -/
def State.ampDemux (s : State) (B e : Nat) (jc data : List Nat) (serverOff : Int) : State :=
  if s.ctxAmp B 0 e && s.datapath (B / 8) then
    let k := gmpKey B 0 e true
    let (a, b, c) := (jc.getD 0 0 % 4, jc.getD 1 0 % 4, jc.getD 2 0 % 4)
    let code := ampMajority a b c
    let (n, num, den) := s.ampRate B 0 e
    let n := ((n : Int) + ampAdjust code).toNat
    let hist := (n :: (s.gmp k).hist).take 1024
    let (off, s) := s.offsetOf num den hist (s.serverOff B e true serverOff)
    let s := s.setGmp k (fun x => { x with cPrev := some code, hist := hist, offset := off, data := data.take n })
    if a = b ∧ b = c then s else s.tcount (pgDmp B) T_DMX_CNT e DMX_CNT.amp_vote
  else s

/-! ### IMP and idles -/

/-- Count an idle inserted, a block deleted, a packet refused. -/
def State.countIns (s : State) : CliRef → State
  | .ctx B d e => s.tcount (pgCli B d) T_CLI_CNT e CLI_CNT.idle_ins
  | .line n => s.count (pgEth n) ETH_IDLE_INS
def State.countDel (s : State) : CliRef → State
  | .ctx B d e => s.tcount (pgCli B d) T_CLI_CNT e CLI_CNT.idle_del
  | .line n => s.count (pgEth n) ETH_IDLE_DEL
def State.countDrop (s : State) : CliRef → State
  | .ctx B d e => s.tcount (pgCli B d) T_CLI_CNT e CLI_CNT.pkt_drop
  | .line n => s.count (pgEth n) ETH_PKT_DROP

/-- The place of the last idle block of a buffer behind its last block with /S/, if there is one (R212, rule 2). -/
def lastIdle (buf : List B66) : Option Nat :=
  let back := buf.reverse.takeWhile (fun b => decide (blkKind b ≠ .start))
  (back.findIdx? (fun b => decide (blkKind b = .idle))).map (fun k => buf.length - 1 - k)

/-- What an arriving block lets the buffer delete (R212): an idle block that has this idle or this /T/ between it and the next /S/;
this block itself, being the second of two identical sequence ordered sets. The answer is the buffer with the block, and whether one
was deleted. -/
def bufDelete (buf : List B66) (b : B66) : List B66 × Bool :=
  let k := blkKind b
  if k = .seqSet ∧ buf.getLast? = some b then (buf, true)
  else if k = .idle ∨ k = .term then
    match lastIdle buf with
    | some i => (buf.eraseIdx i ++ [b], true)
    | none => (buf ++ [b], false)
  else (buf ++ [b], false)

/-- A block arrives at the buffer (R212, R213): the buffer after it, whether it counts as a deletion, and as a packet refused. A
packet is refused whole once the fill has reached the depth; what arrives before its /S/ is still taken (DESIGN CHOICE, log 106). -/
def impArrive (x : Cli) (depth : Nat) (b : B66) : Cli × Bool × Bool :=
  let k := blkKind b
  let mark (x : Cli) : Cli := { x with full := x.full || decide (depth ≤ x.buf.length) }
  if x.refusing then (mark { x with refusing := decide (k ≠ .term) }, true, false)
  else if x.full ∧ k = .start then ({ x with refusing := true, full := false }, true, true)
  else if 5 * depth < 8 * x.buf.length then
    let (buf, del) := bufDelete x.buf b
    (mark { x with buf := buf }, del, false)
  else (mark { x with buf := x.buf ++ [b] }, false, false)

/-- The output takes a block (R212, R213): the block, the buffer after it, and whether it was an idle inserted. -/
def impRead (x : Cli) (depth : Nat) : B66 × Cli × Bool :=
  let ins := (idleBlk, { x with lastSep := true }, true)
  if 8 * x.buf.length < 3 * depth ∧ x.lastSep then ins
  else match x.buf with
    | b :: l => (b, { x with buf := l, lastSep := decide (blkKind b = .idle ∨ blkKind b = .term) }, false)
    | [] => ins

/-- A block comes into a client's buffer; deletions and drops are counted. -/
def State.impTake (s : State) (c : CliRef) (b : B66) : State :=
  let (x, del, drop) := impArrive (s.cli (refKey c)) (cliDepth (s.refCode c)) b
  let s := if del then s.countDel c else s
  let s := if drop then s.countDrop c else s
  (s.setCli (refKey c) (fun _ => x)).judgeFill c

/-- A block leaves the buffer; insertions are counted. -/
def State.impGive (s : State) (c : CliRef) : B66 × State :=
  let (b, x, ins) := impRead (s.cli (refKey c)) (cliDepth (s.refCode c))
  let s := if ins then s.countIns c else s
  (b, s.setCli (refKey c) (fun _ => x))

/-! ### The PCS of a line client (R215) -/

/-- A lane's place in the PCS order of its client. -/
def State.pcsOrder (s : State) (l : Nat) : List Nat :=
  let ls := s.ethIfLanes l
  (List.range ls.length).map (fun j => (ls.find? (fun k => decide ((s.lane k).pcs = j))).getD (ls.getD j 0))

/-- The line client receives blocks: one codeword of each of its lanes, group by group in the order of the PCS lanes, descrambled and
taken out of their groups. -/
def State.pcsBlocks (s : State) (l : Nat) : State :=
  let order := s.pcsOrder l
  if order.all (fun k => !(s.lane k).words.isEmpty) && s.ethAligned l then
    let words := order.map (fun k => let w := (s.lane k).words.headD ([], true); (streamBits 10 w.1, w.2))
    let groups := (List.range 20).flatMap (fun g => words.map (fun w => ((w.1.drop (257 * g)).take 257, w.2)))
    let whole := groups.filter (fun g => decide (g.1.length = 257))
    let (bits, reg) := descramble (s.cli (lineKey l)).recv.reg (whole.flatMap (·.1))
    let blks := (List.range whole.length).flatMap (fun g =>
      if (whole.getD g ([], true)).2 then List.replicate 4 errBlk else ungroup257 ((bits.drop (257 * g)).take 257))
    let s := s.each order (fun s k => s.setLane k (fun x => { x with words := x.words.drop 1 }))
    s.setCli (lineKey l) (fun x => { x with rx := x.rx ++ blks, recv := { x.recv with reg := reg }, periods := min 1024 (x.periods + 1) })
  else s

/-- A codeword of an Ethernet lane has been decoded: its alignment marker, if it begins with one, tells the lane's place and is taken
out, and the rest waits for the other lanes of the client. Words of a lane that leads or belongs to no client go nowhere; of one that
could not be corrected (`bad`) the blocks are /E/. -/
def State.pcsReceive (s : State) (n : Nat) (word : List Nat) (bad : Bool) : State :=
  match s.ethLead n with
  | some l =>
    let msg := word.take 514
    let (place, skip) := match Config.ethMarkerRead (s.ethIfLanes l).length msg with
      | some (j, m) => (j, m)
      | none => ((s.lane n).pcs, 0)
    let data := cutBits 10 514 ((streamBits 10 msg).drop (257 * skip))
    (s.setLane n (fun x => { x with pcs := place, words := x.words ++ [(data, bad)] })).pcsBlocks l
  | none => s

/-- The codewords that the transmit PCS of a line client makes of the blocks it holds, one for each lane, once there are enough: four
blocks to a group, scrambled, behind the lane's marker where one is due. -/
def State.pcsSend (s : State) (l : Nat) : State :=
  let ls := s.ethIfLanes l
  let x := s.cli (lineKey l)
  let marks := (List.range ls.length).map (fun j => Config.ethMarkerSent ls.length j x.cws)
  let room := marks.map (fun m => 20 - m.length / 257)
  let need := 4 * room.sum
  if ls ≠ [] ∧ need ≤ x.tx.length then
    let groups := (List.range room.sum).map (fun g => group257 (((x.tx.drop (4 * g)).take 4).map goodBlk))
    let (bits, scr) := scramble x.scr groups.flatten
    let s := s.setCli (lineKey l) (fun x => { x with tx := x.tx.drop need, scr := scr, cws := x.cws + 1 })
    s.each (List.range ls.length) (fun s j =>
      let before := (room.take j).sum
      let msg := (marks.getD j []).take (257 * (20 - room.getD j 0)) ++ (bits.drop (257 * before)).take (257 * room.getD j 0)
      s.sendLane (ls.getD j 0) (symbolLevels (rsEncode (cutBits 10 514 msg))))
  else s

/-- The local-fault sequence goes out in place of a line client's blocks (R222): its own condition, or force_safe on one of its lanes
(file 03, R120). -/
def State.lineFault (s : State) (n : Nat) : Bool :=
  s.rdb (pgEth n) ETH_STATUS_tx_lf || (s.ethIfLanes n).any (fun k => s.rdb (pgLln k) PAGE_CTRL_force_safe)

/-- A block leaves a client's buffer (R212): to the segments of an ingress context, scrambled to the OPUflex of an egress one, to the
PCS of a line client; replaced where R221 and R222 say so. -/
def State.impOut (s : State) (c : CliRef) : State :=
  let (b, s) := s.impGive c
  match c with
  | .ctx B d e =>
    if d = 0 then s.setCli (refKey c) (fun x => { x with rx := x.rx ++ [b] })
    else
      let b := if s.cliB B 1 e CLI_STATUS.replacing then faultBlk (s.cliCode B 1 e) else b
      let (bits, scr) := lineBits (s.cli (refKey c)).scr [b]
      (s.setCli (refKey c) (fun x => { x with scr := scr })).emit (.impBlock B e bits)
  | .line n =>
    let b := if s.lineFault n then faultBlk 1 else b
    (s.setCli (refKey c) (fun x => { x with tx := x.tx ++ [b] })).pcsSend n

/-- IMP_BLOCK (R211 to R213): a block period of an IMP mapper or demapper, or of the transmit PCS of a line client. -/
def State.impBlock (s : State) (c : CliRef) (p : ImpPeriod) : State :=
  if s.refOn c && s.refRuns c && isImp (s.refCode c) then
    let s := match c with
      | .ctx _ 0 _ =>
        let (recv, blks) := (s.cli (refKey c)).recv.push p.arrive
        (s.setCli (refKey c) (fun x => { x with recv := recv })).each blks (fun s b => s.impTake c b)
      | _ => s
    let s := if p.read then s.impOut c else s
    (s.showLevel c).judgeFill c
  else s

/-! ### What a flow brings to a client -/

/-- Blocks and bytes of a segment reach an egress client, or an ODU's input (R200, R211; file 07, R231). -/
def State.clientIn (s : State) (c : CliRef) (blks : List B66) (bytes : List Nat) : State :=
  let code := s.refCode c
  let s :=
    if s.refOn c && isImp code then
      (s.each blks (fun s b => s.impTake c b)).setCli (refKey c) (fun x => { x with lastIn := blks.length })
    else if s.refOn c && decide (code = 1) then
      s.setCli (refKey c) (fun x => { x with buf := x.buf ++ blks, lastIn := blks.length })
    else s.setCli (refKey c) (fun x => { x with bytes := x.bytes ++ bytes, lastIn := bytes.length })
  if s.refOn c then (s.showLevel c).judgeFill c else s

/-- What the last segment brought is taken back (file 07, R231: its leg status caused a change of leg). -/
def State.clientBack (s : State) (c : CliRef) : State :=
  s.setCli (refKey c) (fun x => { x with
    lastIn := 0
    buf := if x.bytes = [] then x.buf.take (x.buf.length - x.lastIn) else x.buf
    bytes := x.bytes.take (x.bytes.length - x.lastIn) })

/-- What stands for a lost segment of n payload bytes at an egress client (R223): /E/ blocks, or PN-11 bits. An ODU gets all-ones
(R184). -/
def State.clientGap (s : State) (c : CliRef) (n : Nat) : State :=
  if !s.refOn c then s.clientIn c [] (List.replicate n 0xFF)
  else if s.refCode c = 0 ∨ s.refCode c = 6 then
    let (b, pn) := pn11 (8 * n) (s.cli (refKey c)).pn
    (s.setCli (refKey c) (fun x => { x with pn := pn })).clientIn c [] (packBits n b)
  else s.clientIn c (List.replicate (blksIn n) errBlk) []

/-! ### Adoption -/

/-- Close a client's defects, marked deconfigured where an adoption does it (R168, R224). -/
def State.cliClose (s : State) (c : CliRef) (deconf : Bool) : State :=
  s.each [25, 26, 27, 28, 29] (fun s k => s.cliDef c k false deconf)

/-- A buffer at half fill (R224): what stands in it then the spec does not say. -/
def State.halfFill (s : State) (c : CliRef) : State :=
  let d := cliDepth (s.refCode c)
  if isImp (s.refCode c) then
    let (b, s) := s.openBlks (d / 2)
    s.setCli (refKey c) (fun x => { x with buf := b })
  else if s.refCode c = 1 then
    let (b, s) := s.openBlks (d / 2 * 8 / 66)
    s.setCli (refKey c) (fun x => match c with
      | .ctx _ 0 _ => { x with rx := b }
      | _ => { x with buf := b })
  else
    let (b, s) := s.openBytes (d / 2)
    s.setCli (refKey c) (fun x => { x with bytes := b })

/-- A client starts clear: its buffer at half fill, its generator at o_snap = 0, its measurement afresh (R201, R224). -/
def State.cliStart (s : State) (c : CliRef) : State :=
  match c with
  | .ctx B d e =>
    let s := { s with clis := s.clis.erase (refKey c), gmps := (s.gmps.erase (gmpKey B d e false)).erase (gmpKey B d e true) }
    let s := s.setEntry (pgCli B d) T_CLI_STATUS e 0
    if s.isClient B d e then
      ((s.tput (pgCli B d) T_CLI_STATUS e CLI_STATUS.offset 0x8000).halfFill c).showLevel c
    else s
  | .line n =>
    let s := { s with clis := s.clis.erase (refKey c) }
    let pg := pgEth n
    let s := s.each [ETH_STATUS_aligned, ETH_STATUS_clos, ETH_STATUS_clf, ETH_STATUS_crf, ETH_STATUS_crate, ETH_STATUS_replacing,
      ETH_STATUS_tx_lf, ETH_STATUS_leg] (fun s f => s.wr pg f 0)
    let s := s.wr pg ETH_OFFSET_offset 0x8000
    if s.ethEn n then (s.halfFill c).refreshEth n
    else s.each [ETH_ERR_BLOCKS, ETH_IDLE_INS, ETH_IDLE_DEL, ETH_PKT_DROP, ETH_REPL, ETH_LOST_UNITS] (fun s f => s.wr pg f 0)

/-- Committed CLI_CFG rows with en = 1 (DMP_USED, MAP_USED). -/
def State.showUsed (s : State) (B : Nat) : State :=
  let n (pg : Nat) : Nat := ((listed s.tabs pg T_CLI_CFG).filter (fun x => efieldb x.2 CLI_CFG.en)).length
  (s.wr (pgDmp B) DMP_USED_used (n (pgDmp B))).wr (pgMap B) MAP_USED_used (n (pgMap B))

/-! ### The commands -/

def execGmpMapPeriod (B e : Nat) (mux : Bool) (data : List Nat) := run (fun s => s.gmpMapPeriod B e mux data)
def execGmpDemapPeriod (B e : Nat) (mux : Bool) (rx : GmpRx) := run (fun s => s.gmpDemapPeriod B e mux rx)
def execAmpJustify (B e : Nat) (data : List Nat) := run (fun s => s.ampJustify B e data)
def execAmpDemuxPeriod (B e : Nat) (jc data : List Nat) (serverOff : Int) :=
  run (fun s => s.ampDemux B e jc data serverOff)
def execCrateOff (c : CliRef) := run (fun s => s.crateOff c)
def execClosOn (c : CliRef) := run (fun s => s.closOn c)
def execClosOff (c : CliRef) := run (fun s => s.closOff c)
def execClfChange (c : CliRef) (on : Bool) := run (fun s => s.clfChange c on)
def execCrfChange (c : CliRef) (on : Bool) := run (fun s => s.crfChange c on)

end Sys2Proof.Machine
end

