-- ==== Sys2Proof/Machine/Prt.lean ====
section
/-! DEFINITION. Selectors, bridges, the request logic of hardware groups, software groups, notices and APS channels
(file 07, R230 to R266). -/

namespace Sys2Proof.Machine

open Sys2Proof

/-! ### Groups -/

def grpEgress (G : Nat) : Bool := decide (G < 16384)
def grpRegion (G : Nat) : Nat := if G < 16384 then G / 2048 else (G - 16384) / 1024
def grpIndex (G : Nat) : Nat := if G < 16384 then G % 2048 else (G - 16384) % 1024
def grpPage (G : Nat) : Nat := if G < 16384 then pgSel (grpRegion G) else pgIsl (grpRegion G)
def grpStat (G : Nat) : Tab := if G < 16384 then T_SEL_GRP_STATUS else T_ISL_GRP_STATUS
def grpCntT (G : Nat) : Tab := if G < 16384 then T_SEL_GRP_CNT else T_ISL_GRP_CNT

def State.grp (s : State) (G : Nat) : Grp := s.grps.get {} G
def State.setGrp (s : State) (G : Nat) (f : Grp → Grp) : State := { s with grps := s.grps.upd {} G f }

/-- A field of a group's row in effect: of ESG_CFG, or of ISG_CFG. -/
def State.gF (s : State) (G : Nat) (e i : TField) : Nat :=
  if G < 16384 then s.effF (pgSel (grpRegion G)) T_ESG_CFG (grpIndex G) e else s.effF (pgIsl (grpRegion G)) T_ISG_CFG (grpIndex G) i
def State.gValid (s : State) (G : Nat) : Bool := decide (G < 24576 ∧ s.gF G ESG_CFG.valid ISG_CFG.valid ≠ 0)
def State.gArch (s : State) (G : Nat) : Nat := s.gF G ESG_CFG.arch ISG_CFG.arch
def State.gRevert (s : State) (G : Nat) : Bool := decide (s.gF G ESG_CFG.revert ISG_CFG.revert ≠ 0)
def State.gSdEn (s : State) (G : Nat) : Bool := decide (s.gF G ESG_CFG.sd_en ISG_CFG.sd_en ≠ 0)
def State.gApsEn (s : State) (G : Nat) : Bool := decide (s.gF G ESG_CFG.aps_en ISG_CFG.aps_en ≠ 0)
def State.gApsCh (s : State) (G : Nat) : Nat := s.gF G ESG_CFG.aps_ch ISG_CFG.aps_ch
def State.gHoldoff (s : State) (G : Nat) : Nat := s.gF G ESG_CFG.holdoff ISG_CFG.holdoff
/-- The wings group that aligns an egress group, if any. -/
def State.gWings (s : State) (G : Nat) : Option Nat :=
  if G < 16384 ∧ s.effB (pgSel (grpRegion G)) T_ESG_CFG (grpIndex G) ESG_CFG.aligned then
    some (s.effF (pgSel (grpRegion G)) T_ESG_CFG (grpIndex G) ESG_CFG.wgrp)
  else none
/-- The group is aligned while its wings group covers the playout point on both legs (file 08, R282). -/
def State.gAligned (s : State) (G : Nat) : Bool :=
  match s.gWings G with
  | some w => s.tgetb pgWng T_WGRP_STATUS w WGRP_STATUS.covered
  | none => false

/-- A field of a group's status entry. -/
def State.gSt (s : State) (G : Nat) (f : TField) : Nat := s.tget (grpPage G) (grpStat G) (grpIndex G) f
def State.gStB (s : State) (G : Nat) (f : TField) : Bool := decide (s.gSt G f ≠ 0)
def State.gPut (s : State) (G : Nat) (f : TField) (v : Nat) : State := s.tput (grpPage G) (grpStat G) (grpIndex G) f v
def State.gPutB (s : State) (G : Nat) (f : TField) (b : Bool) : State := s.gPut G f (b2n b)
def State.gCount (s : State) (G : Nat) (f : TField) : State := s.tcount (grpPage G) (grpCntT G) (grpIndex G) f

/-- Event bits of the ISL and SEL pages (R265). -/
def selSwitch : Nat := 0
def selProv : Nat := 1
def selLeg : Nat := 2
def selBridge : Nat := 3

/-- The COMPAT model decides software groups (R236): in COMPAT, or in INTERMISSION entered from it. -/
def State.compatModel (s : State) : Bool :=
  decide (s.mode = modeCompat ∨ (s.mode = modeIntermission ∧ s.rd pgMode MODE_service = modeCompat))

/-- Who decides a group: 0 hardware, 1 software, 2 firmware (Table PRT-2). -/
def State.gModel (s : State) (G : Nat) : Nat := if s.gArch G = 0 then 0 else if s.compatModel then 2 else 1

/-! ### Ownership and notices -/

/-- The box that OWN gives an object (file 13, R445). -/
def State.ownBox (s : State) (idx : Nat) : Nat :=
  getBits ((s.wasVal true (tkey pgBxm T_OWN idx)).getD (s.entry pgBxm T_OWN idx)) OWN.box.hi OWN.box.lo
def ownGroup (G : Nat) : Nat := 0x10000 + G
def ownBridge (B : Nat) : Nat := 0x16000 + B
def ownAps (a : Nat) : Nat := 0x1A000 + a

/-- Put a notice into a queue of `cap` entries; the oldest is overwritten when it is full. -/
def pushNotice (cap : Nat) (q : List Notice) (n : Notice) : List Notice := if cap ≤ q.length then q.drop 1 ++ [n] else q ++ [n]

/-- Post a notice (R248): to the PRT queue, or to the queue of the box that owns the group (file 13, R452). -/
def State.notice (s : State) (G kind data : Nat) : State :=
  let t := s.now
  let n : Notice := G % 2 ^ 15 + kind % 16 * 2 ^ 16 + data % 256 * 2 ^ 20 + 2 ^ 31 + t.ns % 2 ^ 30 * 2 ^ 32 + t.quality % 4 * 2 ^ 62
  let box := s.ownBox (ownGroup G)
  if box = 0 then
    let q := s.notices.get [] 512
    let s := { s with notices := s.notices.set [] 512 (pushNotice 4096 q n) }
    let s := s.evWhen q.isEmpty pgPrt 0
    if 4096 ≤ q.length then (s.count pgPrt PRT_NOTE_LOST_lost).ev pgPrt 1 else s
  else
    let q := s.notices.get [] box
    let s := { s with notices := s.notices.set [] box (pushNotice 64 q n) }
    let s := s.evWhen q.isEmpty (pgBox box) 2
    if 64 ≤ q.length then s.count (pgBox box) BOX_NOTE_LOST else s

/-! ### Leg status at the selector -/

/-- The leg status of a receive flow as egress sees it (R233): SF while absent, offline or lost, or while its segments
carry the replacement of a client; else the status of the last segment released. A flow that no segment has reached since
its adoption is absent. -/
def State.flowLeg (s : State) (r i : Nat) : Nat :=
  let st := s.tget (pgFyr r) T_RXF_STATUS i RXF_STATUS.state
  let o := s.flowOuts.get {} (8192 * r + i)
  if st ≠ 1 ∨ o.lost ∨ o.repl then 2 else s.tget (pgFyr r) T_RXF_STATUS i RXF_STATUS.leg

/-- The receive flow of a leg of an egress group: 0 W, 1 P. -/
def State.legFlow (s : State) (G leg : Nat) : Nat :=
  s.effF (pgSel (grpRegion G)) T_ESG_CFG (grpIndex G) (if leg = 0 then ESG_CFG.w_flow else ESG_CFG.p_flow)

/-- The region context index of a leg of an ingress group. -/
def State.legCtx (s : State) (G leg : Nat) : Nat :=
  s.effF (pgIsl (grpRegion G)) T_ISG_CFG (grpIndex G) (if leg = 0 then ISG_CFG.w_ctx else ISG_CFG.p_ctx)

/-- Whether the data of a group comes to stage 4 at a playout point (file 08, R280): ENGAGING, ALIGNED or TRANSITION. -/
def State.gPlayed (s : State) (G : Nat) : Option Nat :=
  match s.gWings G with
  | some w =>
    let st := s.tget pgWng T_WGRP_STATUS w WGRP_STATUS.state
    if 2 ≤ st ∧ st ≤ 4 then some w else none
  | none => none

/-- SWAP_WAIT plays a group's selected leg from the ring, which is written with that leg (file 08, R286). -/
def State.ringPlays (s : State) (w sel : Nat) : Bool :=
  decide (s.tget pgWng T_WGRP_STATUS w WGRP_STATUS.state = 5 ∧ (s.wgrps.get {} w).wrRole = sel) && !(s.wgrps.get {} w).live

/-- The wings group whose playout point gives a leg's data. -/
def State.legPlayed (s : State) (G leg : Nat) : Option Nat :=
  match s.gPlayed G, s.gWings G with
  | some w, _ => some w
  | none, some w => if s.gSt G GRP_STATUS.sel = leg ∧ s.ringPlays w leg then some w else none
  | none, none => none

/-- The status of a leg now (R233). -/
def State.legNow (s : State) (G leg : Nat) : Nat :=
  if G < 16384 then
    match s.legPlayed G leg with
    | some w => if leg = 0 then (s.wgrps.get {} w).stW else (s.wgrps.get {} w).stP
    | none => s.flowLeg (grpRegion G) (s.legFlow G leg)
  else match s.ctxPlace 0 (4096 * grpRegion G + s.legCtx G leg) with
    | some (B, e) => s.ctxStatus B 0 e CTX_STATUS.leg
    | none => 2

/-- The leg status of what feeds an egress item of region r (R233; file 05, R184): a receive flow, or the selected leg of an egress
group. -/
def State.inputLeg (s : State) (r i : Nat) (group : Bool) : Nat :=
  if group then s.legNow (2048 * r + i % 2048) (s.gSt (2048 * r + i % 2048) GRP_STATUS.sel) else s.flowLeg r i

/-- The leg's status that the group shows. -/
def legField (leg : Nat) : TField := if leg = 0 then GRP_STATUS.w_leg else GRP_STATUS.p_leg
def State.legShown (s : State) (G leg : Nat) : Nat := s.gSt G (legField leg)

/-- The condition that a status gives the request logic: SD only under sd_en (R235). -/
def State.condOf (s : State) (G st : Nat) : Nat := if st = 2 then 2 else if st = 1 ∧ s.gSdEn G then 1 else 0

/-! ### What an input feeds -/

/-- The egress contexts of region r whose input is a receive flow, or (`group`) an egress selector group of it. -/
def State.inCtxs (s : State) (r : Nat) (group : Bool) (i : Nat) : List (Nat × Nat) :=
  (List.range 8).flatMap (fun b => ((s.ctxSlots (8 * r + b) 1).filter (fun e => s.ctxB (8 * r + b) 1 e CTX.flow_en &&
    decide (s.ctxB (8 * r + b) 1 e CTX.src_sel = group ∧ s.ctxF (8 * r + b) 1 e CTX.flow = i))).map (fun e => (8 * r + b, e)))

/-- The egress line clients of region r with that input. -/
def State.inLines (s : State) (r : Nat) (group : Bool) (i : Nat) : List Nat :=
  ((List.range 32).map (32 * r + ·)).filter (fun n => s.ethEn n && s.effB (pgEth n) T_ETH_CFG 0 ETH_CFG.rx_en &&
    decide (s.effB (pgEth n) T_ETH_CFG 0 ETH_CFG.rx_sel = group ∧ s.effF (pgEth n) T_ETH_CFG 0 ETH_CFG.rx = i))

/-- A run of snapshots, limited as far as it is used (R218). -/
def runUp (n : Nat) : Nat := min 16 (n + 1)

/-- A snapshot reaches the generator of a context (file 06, R217, R218). -/
def Cli.takeSnap (c : Cli) (snap : Nat) : Cli :=
  if snap = 0x8000 then { c with badRun := runUp c.badRun, goodRun := 0 }
  else { c with goodRun := runUp c.goodRun, badRun := 0, snap := toSigned 16 snap }

/-- Whether a flow's segments carry 65-bit blocks (file 06, R200). -/
def blockForm (kind client : Nat) : Bool := decide (kind = 1 ∧ 1 ≤ client ∧ client ≤ 5)

/-- Units of a client flow's segment that are replaced one by one (file 06, R223): 65-bit blocks, or 64 bits of a bit stream. -/
def lostUnits (client : Nat) (short : Bool) : Nat :=
  if 1 ≤ client ∧ client ≤ 5 then (if short then 15 else 63) else (if short then 16 else 64)

/-- A segment of an input goes on to what takes it (R231; file 06, R200, R217): its snapshot and its payload. -/
def State.feed (s : State) (r : Nat) (group : Bool) (i kind client snap : Nat) (payload : List Byte) : State :=
  let bytes := payload.map (·.toNat)
  let blks := if blockForm kind client then blksOf bytes else []
  let s := s.each (s.inCtxs r group i) (fun s p =>
    (s.setCli (ckey p.1 1 p.2) (fun c => c.takeSnap snap)).clientIn (.ctx p.1 1 p.2) blks bytes)
  s.each (s.inLines r group i) (fun s n => s.clientIn (.line n) blks bytes)

/-- A lost segment of an input: what stands for it (file 06, R223; file 09, R333). -/
def State.feedGap (s : State) (r : Nat) (group : Bool) (i kind client : Nat) (short : Bool) : State :=
  let n := if short then 128 else 512
  let u := if kind = 1 then lostUnits client short else 0
  let s := s.each (s.inCtxs r group i) (fun s p =>
    (if kind = 1 then s.tcount (pgMap p.1) T_CLI_CNT p.2 CLI_CNT.lost_units u else s).clientGap (.ctx p.1 1 p.2) n)
  s.each (s.inLines r group i) (fun s k => (if kind = 1 then s.count (pgEth k) ETH_LOST_UNITS u else s).clientGap (.line k) n)

/-- What a group's input last gave is taken back: the segment whose leg status caused a change of leg (R231). Where the wings play both
legs, the new leg gives its data of the same place. -/
def State.groupBack (s : State) (G : Nat) : State :=
  let r := grpRegion G
  let i := grpIndex G
  let s := s.each (s.inCtxs r true i) (fun s p => s.clientBack (.ctx p.1 1 p.2))
  let s := s.each (s.inLines r true i) (fun s n => s.clientBack (.line n))
  match s.gPlayed G with
  | some w =>
    let x := s.wgrps.get {} w
    (match if s.gSt G GRP_STATUS.sel = 0 then x.outW else x.outP with
      | some (snap, p) => s.feed r true i 0 0 snap p
      | none => s)
  | none => s

/-! ### Commands and requests -/

def opClr : Nat := 1
def opLo : Nat := 2
def opFs : Nat := 3
def opMs : Nat := 4
def opMsW : Nat := 5
def opExer : Nat := 6
def opSetSel : Nat := 8
def opSetBridge : Nat := 9
def opSetAps : Nat := 0xA
def opSetAll : Nat := 0xB
def opAckSfp : Nat := 0xC

/-- The rank of an operator command (Table PRT-3). -/
def cmdRank (op : Nat) : Nat := if op = opLo then 1 else if op = opFs then 3 else if op = opMs ∨ op = opMsW then 6 else if op = opExer then 8 else 11

/-- The inputs of the request logic of a hardware group. -/
structure ReqIn where
  cmd : Nat
  wCond : Nat
  pCond : Nat
  wtr : Bool
  revert : Bool
  base : Nat
  deriving DecidableEq, Repr

/-- The top request of Table PRT-3: rank, code, and the leg it selects. -/
def topRequest (x : ReqIn) : Nat × Nat × Nat :=
  if x.cmd = opLo then (1, 0xF, 0)
  else if x.pCond = 2 then (2, 0xE, 0)
  else if x.cmd = opFs then (3, 0xD, 1)
  else if x.wCond = 2 then (4, 0xB, 1)
  else if x.wCond = 1 ∧ x.pCond = 1 then (5, 0x9, x.base)
  else if x.wCond = 1 then (5, 0x9, 1)
  else if x.pCond = 1 then (5, 0x9, 0)
  else if x.cmd = opMs then (6, 0x7, 1)
  else if x.cmd = opMsW then (6, 0x7, 0)
  else if x.wtr then (7, 0x5, 1)
  else if x.cmd = opExer then (8, 0x4, x.base)
  else if !x.revert ∧ x.base = 1 then (9, 0x1, 1)
  else (10, 0x0, 0)

def State.reqIn (s : State) (G : Nat) : ReqIn :=
  { cmd := s.gSt G GRP_STATUS.cmd, wCond := (s.grp G).wCond, pCond := (s.grp G).pCond, wtr := s.gStB G GRP_STATUS.wtr_run
    revert := s.gRevert G, base := (s.grp G).base }

/-! ### APS bytes and defects -/

/-- The A, B, D and R bits of a group (Table PRT-7). -/
def State.typeBits (s : State) (G : Nat) : Nat :=
  let arch := s.gArch G
  8 * b2n (s.gApsEn G) + 4 * b2n (decide (2 ≤ arch)) + 2 * b2n (decide (arch = 1 ∨ arch = 3)) + b2n (s.gRevert G)

/-- Bytes 1 to 3 that a group transmits (R255). -/
def State.apsOf (s : State) (G : Nat) : Nat :=
  if s.gArch G = 0 then
    (16 * s.gSt G GRP_STATUS.request + s.typeBits G) * 65536 + 256 * b2n (decide ((s.grp G).base = 1)) + 1
  else ((s.grp G).apsTx).getD (s.typeBits G * 65536)

/-- The bytes that go out in this DP cycle: after a SET_APS of it still those before (R261). -/
def State.apsSent (s : State) (G : Nat) : Nat :=
  if (s.grp G).apsAt = s.dpCycle + 1 then ((s.grp G).apsOld).getD (s.apsOf G) else s.apsOf G

def State.apsF (s : State) (a : Nat) (f : TField) : Nat := s.effF pgPrt T_APS_CFG a f
def State.apsValid (s : State) (a : Nat) : Bool := decide (s.apsF a APS_CFG.valid ≠ 0)
def State.aps (s : State) (a : Nat) : Aps := s.apss.get {} a
def State.setAps (s : State) (a : Nat) (f : Aps → Aps) : State := { s with apss := s.apss.upd {} a f }
def State.apsRx (s : State) (a : Nat) (f : TField) : Nat := s.tget pgPrt T_APS_RX a f
def State.apsRxB (s : State) (a : Nat) (f : TField) : Bool := decide (s.apsRx a f ≠ 0)

/-- The channel's request is outstanding (R245). -/
def State.apsOutstanding (s : State) (a : Nat) : Bool :=
  !(s.aps a).accEver || decide (getBits (s.apsOf (s.apsF a APS_CFG.grp)) 15 8 ≠ getBits (s.apsRx a APS_RX.accepted) 7 0)

/-- The group is bidirectional. -/
def State.gBidir (s : State) (G : Nat) : Bool := decide (s.gArch G = 1 ∨ s.gArch G = 3)

/-- Set a protocol defect of a channel: status, count of declarations, notice of kind 2 or 3, event fop (R260). -/
def State.setFop (s : State) (a : Nat) (f cnt : TField) (on : Bool) : State :=
  if s.apsRxB a f = on then s
  else
    let s := s.tputb pgPrt T_APS_RX a f on
    let s := if on then s.tcount pgPrt T_APS_CNT a cnt else s
    let s := if f = APS_RX.dfop_to then s.notice (s.apsF a APS_CFG.grp) 3 (b2n on)
      else s.notice (s.apsF a APS_CFG.grp) 2 (b2n (s.apsRxB a APS_RX.dfop_pm) + 2 * b2n (s.apsRxB a APS_RX.dfop_nr))
    s.ev pgPrt 3

/-- dFOP-NR clears once transmitted byte 2 equals accepted byte 3 (R260). -/
def State.apsNrDiffers (s : State) (a : Nat) : Bool :=
  s.gBidir (s.apsF a APS_CFG.grp) && (s.aps a).accEver &&
  decide (getBits (s.apsOf (s.apsF a APS_CFG.grp)) 15 8 ≠ getBits (s.apsRx a APS_RX.accepted) 7 0)

/-- Bring a channel's derived state up to date. -/
def State.apsRefresh (s : State) (a : Nat) : State :=
  if s.apsValid a then
    let s := s.tputb pgPrt T_APS_RX a APS_RX.outstanding (s.apsOutstanding a)
    if s.apsNrDiffers a then s else s.setFop a APS_RX.dfop_nr APS_CNT.fop_nr false
  else s

/-- The channel that serves a group, if it uses one. -/
def State.gChannel (s : State) (G : Nat) : Option Nat :=
  if s.gApsEn G ∧ s.apsValid (s.gApsCh G) then some (s.gApsCh G) else none

def State.gApsRefresh (s : State) (G : Nat) : State :=
  match s.gChannel G with
  | some a => s.apsRefresh a
  | none => s

/-! ### Selector and bridge -/

/-- Move the selector other than provisionally. -/
def State.setSel (s : State) (G leg : Nat) : State :=
  let s := s.setGrp G (fun x => { x with base := leg })
  if s.gSt G GRP_STATUS.sel = leg then s
  else ((s.gPut G GRP_STATUS.sel leg).gCount G GRP_CNT.sw).ev (grpPage G) selSwitch

/-- The switched bridges that a group commands. -/
def State.gBridges (s : State) (G : Nat) : List Nat :=
  ((s.effRows (pgSel (grpRegion G)) T_BRG_CFG).filter (fun x => efieldb x.2 BRG_CFG.valid && efieldb x.2 BRG_CFG.kind &&
    decide (efield x.2 BRG_CFG.grp = G))).map (·.1)

/-- Command a group's switched bridge; the change takes effect at the next frame start of the protection output (R232). -/
def State.setBridge (s : State) (G : Nat) (on : Bool) : State := s.setGrp G (fun x => { x with bridge := on })

/-- BRIDGE_CHANGE_APPLY (R232): bridge i of region r takes its commanded position. -/
def State.bridgeApply (s : State) (r i : Nat) : State :=
  let pg := pgSel r
  if s.effB pg T_BRG_CFG i BRG_CFG.valid && s.effB pg T_BRG_CFG i BRG_CFG.kind then
    let want := (s.grp (s.effF pg T_BRG_CFG i BRG_CFG.grp)).bridge
    if s.tgetb pg T_BRG_STATUS i BRG_STATUS.bridged = want then s
    else (s.tputb pg T_BRG_STATUS i BRG_STATUS.bridged want).ev pg selBridge
  else s

/-! ### Provisional switching -/

/-- Provisional switching is allowed on the group (R249). -/
def State.provOk (s : State) (G : Nat) : Bool :=
  let p := s.gF G ESG_CFG.prov ISG_CFG.prov
  decide (s.gArch G = 0) && (decide (p = 2) || (decide (p = 0) && s.gAligned G))

/-- A provisional switch ends: the selector takes the leg of the top request (R252, R253). -/
def State.provEnd (s : State) (G leg : Nat) : State :=
  let stays := decide (s.gSt G GRP_STATUS.sel = leg)
  let s := (s.gPutB G GRP_STATUS.prov false).setGrp G (fun x => { x with base := leg, confEnd := false })
  let s := if stays then (s.gCount G GRP_CNT.prov_conf).notice G 6 3
    else
      let s := ((s.gPut G GRP_STATUS.sel leg).gCount G GRP_CNT.prov_rev).notice G 6 2
      if s.gAligned G then s else s.gCount G GRP_CNT.prov_hit
  s.ev (grpPage G) selProv

/-- A provisional switch in force ends if an event of R252 has come: the departed leg's condition gives the new leg, a
request above WTR, the new leg no longer OK, or the confirmation timer run out with the departed leg not SUSPECT. A leg at SD is not OK
here whatever sd_en says, the status being the one shown: the model's choice (log 107); R235 speaks of the request logic only. -/
def State.provJudge (s : State) (G rank leg : Nat) : State :=
  let new := s.gSt G GRP_STATUS.sel
  let dep := 1 - new
  let depCond := if dep = 0 then (s.grp G).wCond else (s.grp G).pCond
  if (depCond ≠ 0 ∧ leg = new) ∨ rank < 7 ∨ s.legShown G new ≠ 0 ∨ ((s.grp G).confEnd ∧ s.legShown G dep ≠ 3) then s.provEnd G leg else s

/-- A provisional switch starts (R250). -/
def State.provStart (s : State) (G : Nat) : State :=
  let leg := 1 - s.gSt G GRP_STATUS.sel
  let s := ((s.gPut G GRP_STATUS.sel leg).gPutB G GRP_STATUS.prov true).setGrp G (fun x => { x with confEnd := false })
  ((s.gCount G GRP_CNT.prov_sw).notice G 6 1).ev (grpPage G) selProv

/-! ### Request logic of a hardware group -/

/-- Stop or start wait-to-restore (R239). -/
def State.setWtr (s : State) (G : Nat) (on : Bool) : State :=
  (s.gPutB G GRP_STATUS.wtr_run on).gPut G GRP_STATUS.wtr_left (if on then 60 * s.gF G ESG_CFG.wtr ISG_CFG.wtr else 0)

/-- Withdraw MS, MS_W or EXER when a request above it has arisen (R240). -/
def State.withdraw (s : State) (G : Nat) : State :=
  let cmd := s.gSt G GRP_STATUS.cmd
  let (rank, _, _) := topRequest { s.reqIn G with cmd := 0 }
  if (cmd = opMs ∨ cmd = opMsW ∨ cmd = opExer) ∧ rank < cmdRank cmd then
    ((s.gPut G GRP_STATUS.cmd 0).gCount G GRP_CNT.cmd_drop).notice G 8 cmd
  else s

/-- One evaluation of Table PRT-3 (R237, R239, R241): `cleared` says that SF or SD on W has just left the request logic,
`susp` that the selected leg has just become SUSPECT. -/
def State.evalHw (s : State) (G : Nat) (cleared susp : Bool) : State :=
  let s := s.withdraw G
  let (above, _, _) := topRequest { s.reqIn G with wtr := false }
  let x := s.grp G
  let s :=
    if x.wCond ≠ 0 ∨ above < 7 then (if s.gStB G GRP_STATUS.wtr_run then s.setWtr G false else s)
    else if cleared ∧ s.gRevert G ∧ x.base = 1 ∧ !s.gStB G GRP_STATUS.wtr_run then s.setWtr G true
    else s
  let s := s.withdraw G
  let (rank, code, leg) := topRequest (s.reqIn G)
  let s := if s.gSt G GRP_STATUS.request = code then s else (s.gPut G GRP_STATUS.request code).notice G 7 code
  let s :=
    if s.gStB G GRP_STATUS.prov then (s.setGrp G (fun x => { x with base := leg })).provJudge G rank leg
    else
      let s := s.setSel G leg
      if susp ∧ s.provOk G ∧ 7 ≤ rank ∧ s.legShown G (s.gSt G GRP_STATUS.sel) = 3 ∧ s.legShown G (1 - s.gSt G GRP_STATUS.sel) = 0 then
        s.provStart G
      else s
  s.gApsRefresh G

/-! ### Software groups -/

/-- SF-P override starts (R246). -/
def State.overrideOn (s : State) (G : Nat) : State :=
  let t := s.now
  let s := ((s.setSel G 0).setBridge G false).gPutB G GRP_STATUS.sfp_override true
  let old := s.apsOf G
  let out := match s.gChannel G with
    | some a => s.apsOutstanding a
    | none => false
  let s :=
    match s.gChannel G with
    | some a =>
      if out then
        let s := if s.tgetb pgPrt T_SFP_REC a SFP_REC.valid then { s with sfpOverwrite := s.sfpOverwrite + 1 } else s
        let v := old % 2 ^ 24 + 2 ^ 24 + t.sec % 2 ^ 32 * 2 ^ 32 + t.ns % 2 ^ 30 * 2 ^ 64 + t.quality % 4 * 2 ^ 94
        (s.setEntry pgPrt T_SFP_REC a v).logRec 0x09 1 (srcRgnCell (grpRegion G) kindGroup G)
          (getBits old 23 16 + 256 * getBits old 15 8 + 65536 * getBits old 7 0 + G * 2 ^ 32)
      else s
    | none => s
  let s := s.setGrp G (fun x => { x with apsTx := some ((0xE0 + s.typeBits G) * 65536), apsOld := none })
  ((s.notice G 4 (b2n out)).ev pgPrt 2).gApsRefresh G

/-- The override ends (R247). -/
def State.overrideOff (s : State) (G : Nat) : State :=
  let s := (s.gPutB G GRP_STATUS.sfp_override false).setGrp G (fun x => { x with apsTx := some (s.typeBits G * 65536) })
  ((s.notice G 5 0).ev pgPrt 2).gApsRefresh G

/-- A software group's conditions have changed: notice kind 0, then the override (R246 to R248). -/
def State.evalSw (s : State) (G oldW oldP : Nat) : State :=
  let x := s.grp G
  let s := if x.wCond = oldW ∧ x.pCond = oldP then s else s.notice G 0 (x.wCond + 4 * x.pCond)
  if x.pCond = 2 ∧ !s.gStB G GRP_STATUS.sfp_override then s.overrideOn G
  else if x.pCond ≠ 2 ∧ s.gStB G GRP_STATUS.sfp_override then s.overrideOff G
  else s

/-- Evaluate a group after its conditions changed from (oldW, oldP). -/
def State.evalGrp (s : State) (G oldW oldP : Nat) (susp : Bool) : State :=
  if s.gArch G = 0 then s.evalHw G (decide (oldW ≠ 0 ∧ (s.grp G).wCond = 0)) susp else s.evalSw G oldW oldP

/-! ### Leg status and hold-off -/

def hoField (leg : Nat) : TField := if leg = 0 then GRP_STATUS.ho_w else GRP_STATUS.ho_p
def Grp.cond (x : Grp) (leg : Nat) : Nat := if leg = 0 then x.wCond else x.pCond
def Grp.setCond (x : Grp) (leg c : Nat) : Grp := if leg = 0 then { x with wCond := c } else { x with pCond := c }

/-- The protection stages act on the group: its row is valid, its region is not in RESET, the chip not in SAFE. -/
def State.gActs (s : State) (G : Nat) : Bool :=
  s.gValid G && decide (s.region (grpRegion G) ≠ rgnReset ∧ s.mode ≠ modeSafe ∧ s.mode ≠ modeDark ∧ s.mode ≠ modeCall)

/-- A leg's status is taken (R233, R235, R238): a condition in the request logic leaves it when the status changes; SF or
SD starts the hold-off, or passes at once with a hold-off of 0. -/
def State.takeLeg (s : State) (G leg st : Nat) : State :=
  let old := s.legShown G leg
  let s := s.gPut G (legField leg) st
  let s := s.evWhen (decide (old ≠ st)) (grpPage G) selLeg
  let want := s.condOf G st
  let s := if (s.grp G).cond leg ≠ 0 ∧ (s.grp G).cond leg ≠ want then s.setGrp G (fun x => x.setCond leg 0) else s
  if want ≠ 0 ∧ (s.grp G).cond leg = 0 ∧ !s.gStB G (hoField leg) then
    if s.gHoldoff G = 0 then s.setGrp G (fun x => x.setCond leg want) else s.gPutB G (hoField leg) true
  else s

/-! ### The events of a DP cycle (R31, R261) -/

/-- A command of the protection engine waits in the same DP cycle: every command in the queue runs before the next cycle. -/
def State.prtAhead (s : State) : Bool :=
  s.pending.any (fun c => match c with
    | .legStatusChange _ _ => true
    | .holdOffExpiry _ _ => true
    | .wtrExpiry _ => true
    | .confirmationExpiry _ => true
    | .clr _ _ => true
    | .lo _ _ => true
    | .fs _ _ => true
    | .ms _ _ => true
    | .msW _ _ => true
    | .exer _ _ => true
    | .setSel _ _ => true
    | .setBridge _ _ => true
    | .setAps _ _ => true
    | .setAll _ _ => true
    | .ackSfp _ _ => true
    | _ => false)

/-- A group was adopted in this DP cycle: its other events are discarded (R261). -/
def State.gBornNow (s : State) (G : Nat) : Bool := decide ((s.grp G).bornAt = s.dpCycle + 1)

/-- An event of a group is noted; the last event of the DP cycle brings its evaluation. -/
def State.noteGrp (s : State) (G : Nat) (c : Bool) (f : Grp → Grp) : State :=
  if s.gActs G && c && !s.gBornNow G then s.setGrp G (fun x => { f x with due := true }) else s

/-- LEG_STATUS_CHANGE: the status of a leg has changed. -/
def State.legChange (s : State) (G leg : Nat) : State := s.noteGrp G (decide (s.legNow G (leg % 2) ≠ s.legShown G (leg % 2))) id

/-- HOLD_OFF_EXPIRY (R238): the leg's status will be sampled. -/
def State.holdOffExpiry (s : State) (G leg : Nat) : State :=
  s.noteGrp G (s.gStB G (hoField (leg % 2))) (fun x => { x with hoEnd := x.hoEnd ||| 2 ^ (leg % 2) })

/-- WTR_EXPIRY (R239). -/
def State.wtrExpiry (s : State) (G : Nat) : State := s.noteGrp G (s.gStB G GRP_STATUS.wtr_run) (fun x => { x with wtrEnd := true })

/-- CONFIRMATION_EXPIRY (R252). -/
def State.confirmExpiry (s : State) (G : Nat) : State := s.noteGrp G (s.gStB G GRP_STATUS.prov) (fun x => { x with confEnd := true })

/-- A leg's hold-off ends: the status of this DP cycle enters the request logic, or none does (R238). -/
def State.holdEnd (s : State) (G leg : Nat) : State :=
  let s := s.gPutB G (hoField leg) false
  let want := s.condOf G (s.legShown G leg)
  if want = 0 then (s.gCount G GRP_CNT.ho_drop).setGrp G (fun x => x.setCond leg 0) else s.setGrp G (fun x => x.setCond leg want)

/-- The status of a leg in this DP cycle, if it has changed. -/
def State.retakeLeg (s : State) (G leg : Nat) : State := if s.legNow G leg ≠ s.legShown G leg then s.takeLeg G leg (s.legNow G leg) else s

/-- The inputs of a group in this DP cycle come in together: both legs, and the hold-offs that have run out (R31). -/
def State.takeNotes (s : State) (G : Nat) : State :=
  let x := s.grp G
  let sel := s.gSt G GRP_STATUS.sel
  let old := s.legShown G sel
  let s := (s.retakeLeg G 0).retakeLeg G 1
  let s := s.each [0, 1] (fun s leg => if bit x.hoEnd leg && s.gStB G (hoField leg) then s.holdEnd G leg else s)
  let now := s.legShown G sel
  s.setGrp G (fun y => { y with
    due := false, hoEnd := 0, wtrEnd := false, was := some ⟨x.wCond, x.pCond, decide (old ≠ 3 ∧ now = 3), x.wtrEnd, decide (old ≠ now)⟩ })

/-- One evaluation of a group with all that came in (R31, R261): WTR that has run out ends unless SF or SD is on W; and of the segment
whose leg status makes the selector change legs no data is kept (R231). -/
def State.evalNow (s : State) (G : Nat) : State :=
  let x := s.grp G
  let e := x.was.getD ⟨x.wCond, x.pCond, false, false, false⟩
  let sel := s.gSt G GRP_STATUS.sel
  let s := s.setGrp G (fun y => { y with was := none })
  let s := if e.wtrEnd && s.gStB G GRP_STATUS.wtr_run && decide (x.wCond = 0) then (s.setWtr G false).gCount G GRP_CNT.wtr_done else s
  let s := s.evalGrp G e.w e.p e.susp
  if e.moved ∧ G < 16384 ∧ s.gSt G GRP_STATUS.sel ≠ sel then s.groupBack G else s

/-! ### Adoption -/

/-- A channel starts (R263): the alive counter, the acceptance and the age at 0. That any changed field of its own row starts it, the
age limit and the guard too, is the model's choice (log 107). -/
def State.apsStart (s : State) (a : Nat) : State :=
  let s := { s with apss := s.apss.erase a }
  let s := s.setEntry pgPrt T_APS_RX a 0
  if s.apsValid a then s.apsRefresh a else s

/-- A group shows who decides it and evaluates its legs (R263). -/
def State.grpBegin (s : State) (G : Nat) : State :=
  if s.gActs G then
    ((((s.gPut G GRP_STATUS.model (s.gModel G)).takeLeg G 0 (s.legNow G 0)).takeLeg G 1 (s.legNow G 1))).evalGrp G 0 0 false
  else s

/-- The valid groups of a region: egress, then ingress. -/
def State.regionGroups (s : State) (r : Nat) : List Nat :=
  ((s.effRows (pgSel r) T_ESG_CFG).filter (fun x => efieldb x.2 ESG_CFG.valid)).map (fun x => 2048 * r + x.1) ++
    ((s.effRows (pgIsl r) T_ISG_CFG).filter (fun x => efieldb x.2 ISG_CFG.valid)).map (fun x => 16384 + 1024 * r + x.1)

/-- Every group of the device, and what it shows of who decides it after a change of the model (R236). -/
def State.allGroups (s : State) : List Nat := (List.range 8).flatMap s.regionGroups
def State.showModels (s : State) : State := s.each s.allGroups (fun s G => if s.gActs G then s.gPut G GRP_STATUS.model (s.gModel G) else s)

/-- A group takes its adoption state and evaluates its legs at once (R263). -/
def State.grpStart (s : State) (G : Nat) : State :=
  let s := { s with grps := s.grps.set {} G { bornAt := s.dpCycle + 1 } }
  let s := s.setEntry (grpPage G) (grpStat G) (grpIndex G) 0
  let s := match s.gChannel G with
    | some a => (s.setEntry pgPrt T_SFP_REC a 0).apsStart a
    | none => s
  let s := s.each (s.gBridges G) (fun s i => s.tputb (pgSel (grpRegion G)) T_BRG_STATUS i BRG_STATUS.bridged false)
  s.grpBegin G

/-- A group that is adopted afresh leaves no SFP_REC entry in the channel that it used (R263). -/
def State.sfpForget (s : State) (en : Bool) (a : Nat) : State := if en then s.setEntry pgPrt T_SFP_REC a 0 else s

/-- A change of revert, sd_en or timers keeps the group's state (R263). -/
def State.grpKeep (s : State) (G : Nat) (sdOld revOld : Bool) : State :=
  let s := s.setGrp G (fun x => { x with due := false, hoEnd := 0, wtrEnd := false, bornAt := s.dpCycle + 1 })
  let x := s.grp G
  let s :=
    if sdOld && !s.gSdEn G then
      s.setGrp G (fun x => { x with wCond := if x.wCond = 1 then 0 else x.wCond, pCond := if x.pCond = 1 then 0 else x.pCond })
    else if !sdOld && s.gSdEn G then (s.takeLeg G 0 (s.legShown G 0)).takeLeg G 1 (s.legShown G 1)
    else s
  let s := if revOld && !s.gRevert G then s.setWtr G false else s
  let s := if !revOld && s.gRevert G && decide (s.gSt G GRP_STATUS.request = 1 ∧ s.legShown G 0 ≠ 1 ∧ s.legShown G 0 ≠ 2) then s.setWtr G true
    else s
  if s.gActs G then s.evalGrp G x.wCond x.pCond false else s

/-- A region enters RESET (R262): every group of it returns to its adoption state with notice kind 9. -/
def State.prtRegionReset (s : State) (r : Nat) : State :=
  s.each (s.regionGroups r) (fun s G => (s.grpStart G).notice G 9 0)

/-- A bridge starts: a permanent one always carries the source (R232). -/
def State.brgStart (s : State) (r i : Nat) : State :=
  let pg := pgSel r
  s.tputb pg T_BRG_STATUS i BRG_STATUS.bridged (s.effB pg T_BRG_CFG i BRG_CFG.valid && !s.effB pg T_BRG_CFG i BRG_CFG.kind)

/-! ### The command queue -/

/-- Status codes of Table PRT-5. -/
def prtDone : Nat := 0
def prtOwner : Nat := 1
def prtModel : Nat := 2
def prtRange : Nat := 3
def prtResetting : Nat := 4
def prtSuperseded : Nat := 5
def prtBusy : Nat := 6

/-- Where a requester's protection state stands: a box's proxy keeps its own (file 13, R451). -/
def prtRq (w : Who) : Nat := if w.master = .host ∧ w.proxy then pxPage pgPrt w.box else rqPage pgPrt w.master

/-- The master may command a software group (R244). Table PRT-5 names no code for one that may not: it is answered REFUSED_MODEL, the
model's choice (log 107). -/
def State.prtMasterOk (s : State) (G : Nat) (m : Master) : Bool :=
  if s.gModel G = 2 then decide (m = .en0 ∨ m = .en1 ∨ m = .sm) else decide (m = .host ∨ m = .sm)

/-- An operator command replaces the one in force; one that only stands while nothing above it is present is withdrawn by a higher
command (R240). -/
def State.replaceCmd (s : State) (G op : Nat) : State :=
  let cmd := s.gSt G GRP_STATUS.cmd
  let s := s.gPut G GRP_STATUS.cmd op
  if (cmd = opMs ∨ cmd = opMsW ∨ cmd = opExer) ∧ cmdRank op < cmdRank cmd then (s.gCount G GRP_CNT.cmd_drop).notice G 8 cmd else s

/-- An operator command of a hardware group (R240). -/
def State.operate (s : State) (G op : Nat) : State × Nat :=
  let cmd := s.gSt G GRP_STATUS.cmd
  let (rank, _, _) := topRequest (s.reqIn G)
  if op = opExer ∧ !s.gApsEn G then (s, prtRange)
  else if op = opClr then
    (((s.gPut G GRP_STATUS.cmd 0).setWtr G false).evalNow G, prtDone)
  else if cmd ≠ 0 ∧ cmdRank cmd < cmdRank op then (s, prtSuperseded)
  else if (op = opMs ∨ op = opMsW ∨ op = opExer) ∧ rank < cmdRank op then (s, prtSuperseded)
  else ((s.replaceCmd G op).evalNow G, prtDone)

/-- A SET operation of a software group (R244, R246). -/
def State.setOp (s : State) (G op arg : Nat) : State × Nat :=
  if s.gStB G GRP_STATUS.sfp_override then (s, prtSuperseded)
  else if (op = opSetBridge ∨ (op = opSetAll ∧ bit arg 29)) ∧ (s.gBridges G).isEmpty then (s, prtRange)
  else
    let s := if op = opSetSel ∨ op = opSetAll then s.setSel G (getBits arg 28 28) else s
    let s := if op = opSetBridge ∨ op = opSetAll then s.setBridge G (bit arg 29) else s
    let s := if op = opSetAps ∨ op = opSetAll then
      let old := s.apsSent G
      s.setGrp G (fun x => { x with apsTx := some (arg % 2 ^ 24), apsOld := some old, apsAt := s.dpCycle + 1 }) else s
    (s.gApsRefresh G, prtDone)

/-- Judge and execute one command (Table PRT-5); judged in the order range, resetting, owner, model. A command on a group that a cue
adopts in the same DP cycle is discarded (R261): it does nothing and its status is DONE, the model's choice (log 107). -/
def State.prtJudge (s : State) (q : PrtReq) : State × Nat :=
  let G := q.grp
  let oper := decide (1 ≤ q.op ∧ q.op ≤ 6)
  let set := decide (8 ≤ q.op ∧ q.op ≤ 0xB)
  if !(oper || set || decide (q.op = opAckSfp)) || !s.gValid G then (s, prtRange)
  else if s.region (grpRegion G) = rgnReset then (s, prtResetting)
  else if q.who.master = .host ∧ s.ownBox (ownGroup G) ≠ q.who.box then (s, prtOwner)
  else if s.gBornNow G then (s, prtDone)
  else if oper then (if s.gArch G = 0 then s.operate G q.op else (s, prtModel))
  else if s.gArch G = 0 ∨ !s.prtMasterOk G q.who.master then (s, prtModel)
  else if set then s.setOp G q.op q.arg
  else (match s.gChannel G with
    | some a => s.tputb pgPrt T_SFP_REC a SFP_REC.valid false
    | none => s, prtDone)

/-- The status of a requester's last command. -/
def State.prtStatus (s : State) (w : Who) (pend : Bool) (code : Nat) : State :=
  (s.wrb (prtRq w) PRT_CMD_STATUS_pending pend).wr (prtRq w) PRT_CMD_STATUS_code code

/-- A write of PRT_CMD places a command in the engine's queue of 64 (R243); op 0 is ignored. -/
def State.prtIssue (s : State) (w : Who) (op G : Nat) : State :=
  if op = 0 then s
  else if 64 ≤ s.prtQ.length then (s.prtStatus w false prtBusy).ev pgPrt 4
  else
    let pg := prtRq w
    let arg := s.rd pg PRT_CMD_ARG_bridge * 2 ^ 29 + s.rd pg PRT_CMD_ARG_sel * 2 ^ 28 + s.rd pg PRT_CMD_ARG_aps
    { (s.prtStatus w true prtDone) with prtQ := s.prtQ ++ [{ who := w, op := op, grp := G, arg := arg }] }

/-- The engine executes the command at the front of its queue (R243). -/
def State.prtExec1 (s : State) : State :=
  match s.prtQ with
  | q :: rest =>
    let (s', code) := ({ s with prtQ := rest }).prtJudge q
    (s'.prtStatus q.who false code).ev pgPrt 4
  | [] => s

/-- The engine executes its whole queue in arrival order. -/
def State.prtDrain (s : State) : State := s.each s.prtQ (fun s _ => s.prtExec1)

/-- The groups with an event that has come in and is not evaluated. -/
def State.waiting (s : State) : List Nat := (s.grps.filter (fun x => x.2.was.isSome)).map (·.1)

/-- The last event of a DP cycle (R31, R243, R261): the inputs of every group come in, software groups are evaluated, the engine
executes its queue, and the groups that no command has evaluated are. -/
def State.prtSettleNow (s : State) : State :=
  let s := s.each ((s.grps.filter (fun x => x.2.due)).map (·.1)) State.takeNotes
  let s := s.each (s.waiting.filter (fun G => decide (s.gArch G ≠ 0))) State.evalNow
  let s := s.prtDrain
  s.each s.waiting State.evalNow

def State.prtSettle (s : State) : State := if s.prtAhead then s else s.prtSettleNow

/-- A master writes PRT_CMD: the command waits in the engine's queue, which executes at the last event of the DP cycle. -/
def State.prtCommand (s : State) (w : Who) (op G : Nat) : State := (s.prtIssue w op (G % 2 ^ 15)).prtSettle

/-- A read of PRT_NOTE_LO, or of BOX_NOTE_LO of a box: the oldest notice of queue `q`, 0 when empty (R248; file 13,
R452). -/
def State.takeNotice (s : State) (q : Nat) : Notice × State :=
  match s.notices.get [] q with
  | n :: rest => (n, { s with notices := s.notices.set [] q rest })
  | [] => (0, s)

/-! ### APS messages -/

/-- The order in which bits of a stream are presented to a check unit (file 10, R372): bytes of 8 bits, bit 7 first as
fed, reversed with refin; a trailing group as fed. -/
def chkOrder (refin : Bool) : Nat → List Bool → List Bool
  | 0, bs => bs
  | k + 1, bs => if bs.length < 8 then bs else (if refin then (bs.take 8).reverse else bs.take 8) ++ chkOrder refin k (bs.drop 8)

/-- The result of a check unit over the bits presented (file 10, R372). -/
def chkRes (w xor : Nat) (refout : Bool) (reg : Nat) : Nat :=
  ((if refout then reflect w reg else reg) ^^^ xor % 2 ^ w) % 2 ^ w

/-- The check value of a message under the parameters of the unit that PRT_APS_CFG names (R256); a width other than 4, for
which no check value is stated, gives a free one. -/
def State.guardValue (s : State) (bytes alive : Nat) : Nat × State :=
  let u := pgChk (s.rd pgPrt PRT_APS_CFG_chk_unit)
  let w := s.rd u CHK_CFG_width
  if w = 4 then
    let bits := chkOrder (s.rdb u CHK_CFG_refin) 4 (bitsMsb 28 (bytes % 2 ^ 24 * 16 + alive % 16))
    let reg := crcBits 4 (s.rd u CHK_POLY_value % 16) (s.rd u CHK_INIT_value % 16) bits
    (chkRes 4 (s.rd u CHK_XOR_value) (s.rdb u CHK_CFG_refout) reg, s)
  else s.free 4

/-- Acceptance of bytes 1 to 3 (R258, R260). -/
def State.apsAccept (s : State) (a bytes : Nat) : State :=
  let G := s.apsF a APS_CFG.grp
  let isNew := !(s.aps a).accEver || decide (s.apsRx a APS_RX.accepted ≠ bytes)
  let s := (s.tput pgPrt T_APS_RX a APS_RX.accepted bytes).tputb pgPrt T_APS_RX a APS_RX.acc_valid true
  let s := s.setAps a (fun x => { x with accEver := true })
  let s := if isNew ∧ s.gArch G ≠ 0 then s.notice G 1 (getBits bytes 23 16) else s
  let arch := s.gArch G
  let b1 := getBits bytes 23 16
  let pm := !bit b1 3 || (bit b1 2 != decide (2 ≤ arch)) || (bit b1 1 != decide (arch = 1 ∨ arch = 3))
  (s.setFop a APS_RX.dfop_pm APS_CNT.fop_pm pm).apsRefresh a

/-- A valid message (R257, R258). -/
def State.apsValidMsg (s : State) (a bytes alive : Nat) : State :=
  let x := s.aps a
  let run := if x.run ≠ 0 ∧ x.cand = bytes then min 3 (x.run + 1) else 1
  let s := s.setAps a (fun x => { x with cand := bytes, run := run, first := false, hitAt := s.dpCycle + 1 })
  let s := (s.tcount pgPrt T_APS_CNT a APS_CNT.rx_ok).tput pgPrt T_APS_RX a APS_RX.age 0
  let s := s.tput pgPrt T_APS_RX a APS_RX.alive alive
  let s := s.setFop a APS_RX.dfop_to APS_CNT.fop_to false
  if run = 3 then s.apsAccept a bytes else s

/-- APS_MESSAGE_RECEIVE (R257): `msg` is the four bytes, byte 1 in bits [31:24]. -/
def State.apsReceive (s : State) (a msg : Nat) : State :=
  if s.apsValid a then
    let bytes := getBits msg 31 8
    if s.apsF a APS_CFG.guard = 0 then s.apsValidMsg a bytes (s.apsRx a APS_RX.alive)
    else
      let alive := getBits msg 7 4
      let (chk, s) := s.guardValue bytes alive
      if chk ≠ getBits msg 3 0 then (s.tcount pgPrt T_APS_CNT a APS_CNT.chk_err).setAps a (fun x => { x with run := 0 })
      else if (s.aps a).first then s.apsValidMsg a bytes alive
      else
        let δ := (alive + 16 - s.apsRx a APS_RX.alive) % 16
        if δ = 0 then s.tcount pgPrt T_APS_CNT a APS_CNT.repeat
        else (s.tcount pgPrt T_APS_CNT a APS_CNT.gap_msgs (δ - 1)).apsValidMsg a bytes alive
  else s

/-- The channel whose receive context is device context c. -/
def State.apsOfRx (s : State) (c : Nat) : Option Nat :=
  ((s.effRows pgPrt T_APS_CFG).find? (fun x => efieldb x.2 APS_CFG.valid && decide (efield x.2 APS_CFG.rx_ctx = c))).map (·.1)

/-- The channel whose transmit context is device context c. -/
def State.apsOfTx (s : State) (c : Nat) : Option Nat :=
  ((s.effRows pgPrt T_APS_CFG).find? (fun x => efieldb x.2 APS_CFG.valid && decide (efield x.2 APS_CFG.tx_ctx = c))).map (·.1)

/-- The four bytes that a channel sends in a frame (R254 to R256). -/
def State.apsSend (s : State) (a : Nat) : Nat × State :=
  let bytes := s.apsSent (s.apsF a APS_CFG.grp)
  let alive := (s.aps a).aliveTx
  let (b4, s) := if s.apsF a APS_CFG.guard = 0 then (0, s)
    else
      let (c, s) := s.guardValue bytes alive
      (16 * alive + c, s)
  (256 * bytes + b4, (s.tcount pgPrt T_APS_CNT a APS_CNT.tx_msgs).setAps a (fun x => { x with aliveTx := (x.aliveTx + 1) % 16 }))

/-- Whether a message would be valid now (R257). -/
def State.apsMsgOk (s : State) (a msg : Nat) : Bool :=
  let alive := getBits msg 7 4
  decide (s.apsF a APS_CFG.guard = 0) ||
  (decide ((s.guardValue (getBits msg 31 8) alive).1 = getBits msg 3 0) &&
    ((s.aps a).first || decide ((alive + 16 - s.apsRx a APS_RX.alive) % 16 ≠ 0)))

/-- A valid message of the channel completes in this DP cycle: it has come, or it waits. -/
def State.apsHit (s : State) (a : Nat) : Bool :=
  decide ((s.aps a).hitAt = s.dpCycle + 1) ||
  s.pending.any (fun c => match c with
    | .apsMessageReceive k msg => decide (k = a) && s.apsMsgOk a msg
    | _ => false)

/-- One visit of the age scan (R259): a channel is not aged in the cycle in which it is hit. -/
def State.apsAge (s : State) (a : Nat) : State :=
  if s.apsHit a then s else
  let age := min 255 (s.apsRx a APS_RX.age + 1)
  let s := s.tput pgPrt T_APS_RX a APS_RX.age age
  if s.apsF a APS_CFG.age_ms ≤ age ∧ !s.apsRxB a APS_RX.dfop_to then
    ((s.setFop a APS_RX.dfop_to APS_CNT.fop_to true).tputb pgPrt T_APS_RX a APS_RX.acc_valid false).setAps a (fun x => { x with
      first := true })
  else s

/-- APS_AGE_SCAN (R259): the scan visits every channel. -/
def State.apsAgeScan (s : State) : State :=
  s.each (((s.effRows pgPrt T_APS_CFG).filter (fun x => efieldb x.2 APS_CFG.valid)).map (·.1)) (fun s a => s.apsAge a)

/-- DFOP_NR (R260): the bytes have differed for 50 ms. -/
def State.dfopNr (s : State) (a : Nat) : State :=
  if s.apsValid a && s.apsNrDiffers a then s.setFop a APS_RX.dfop_nr APS_CNT.fop_nr true else s

/-- The SUSPECT hold of an ingress context, or of a line client, ends (R234; file 06, R220): nothing lasting still holds. -/
def State.suspectHoldEnd (s : State) (c : CliRef) : State :=
  match c with
  | .ctx B d e =>
    if d = 0 ∧ !s.lastingTrigger B e then (s.setCtx B 0 e (fun x => { x with trig := false })).refreshCtxs B else s
  | .line n =>
    if (s.ethIfLanes n).any (fun k => s.rdb (pgLln k) LLN_STATUS_trained &&
      (!s.rdb (pgLln k) LLN_STATUS_sig_det || !s.rdb (pgLln k) LLN_STATUS_cw_lock)) then s
    else (s.setCli (lineKey n) (fun x => { x with trig := false })).refreshEth n

/-- A protection command reaches the PRT page over the bus matrix. -/
def State.prtOp (s : State) (w : Who) (op G : Nat) : State := (s.via w pgPrt true (fun s => s.prtIssue w op (G % 2 ^ 15))).prtSettle

/-! ### The commands -/

def execSuspectHoldEnd (c : CliRef) := run (fun s => s.suspectHoldEnd c)
def execLegStatusChange (G leg : Nat) := run (fun s => (s.legChange G leg).prtSettle)
def execHoldOffExpiry (G leg : Nat) := run (fun s => (s.holdOffExpiry G leg).prtSettle)
def execWtrExpiry (G : Nat) := run (fun s => (s.wtrExpiry G).prtSettle)
def execConfirmationExpiry (G : Nat) := run (fun s => (s.confirmExpiry G).prtSettle)
def execBridgeChangeApply (r i : Nat) := run (fun s => s.bridgeApply r i)
def execClr (w : Who) (G : Nat) := run (fun s => s.prtOp w opClr G)
def execLo (w : Who) (G : Nat) := run (fun s => s.prtOp w opLo G)
def execFs (w : Who) (G : Nat) := run (fun s => s.prtOp w opFs G)
def execMs (w : Who) (G : Nat) := run (fun s => s.prtOp w opMs G)
def execMsW (w : Who) (G : Nat) := run (fun s => s.prtOp w opMsW G)
def execExer (w : Who) (G : Nat) := run (fun s => s.prtOp w opExer G)
def execSetSel (w : Who) (G : Nat) := run (fun s => s.prtOp w opSetSel G)
def execSetBridge (w : Who) (G : Nat) := run (fun s => s.prtOp w opSetBridge G)
def execSetAps (w : Who) (G : Nat) := run (fun s => s.prtOp w opSetAps G)
def execSetAll (w : Who) (G : Nat) := run (fun s => s.prtOp w opSetAll G)
def execAckSfp (w : Who) (G : Nat) := run (fun s => s.prtOp w opAckSfp G)
def execPrtNoteRead (w : Who) := runBus w pgPrt false (fun s =>
  let (n, s) := s.takeNotice (if w.proxy then w.box else 512)
  (s.latchHi (prtRq w) 0x050 (n / 2 ^ 32)).answer 0 [n % 2 ^ 32])
def execApsMessageReceive (a msg : Nat) := run (fun s => s.apsReceive a msg)
def execApsAgeScan := run State.apsAgeScan
def execDfopNr (a : Nat) := run (fun s => s.dfopNr a)

end Sys2Proof.Machine
end

