-- ==== Sys2Proof/Machine/Wings.lean ====
section
/-! DEFINITION. The alignment stamp, wings groups, the ring in HBM, transition slots and stack failure (file 08, R268 to
R303). -/

namespace Sys2Proof.Machine

open Sys2Proof

/-! ### The stamp -/

/-- The CRC-8 of a stamp (R269): polynomial 0x07, over the format byte and the count, most significant bit first. -/
def stampCrc (format count : Nat) : Nat := crcBits 8 0x07 0 (bitsMsb 8 format ++ bitsMsb 24 count)

/-- The format byte sent (Table WNG-1). -/
def stampFormat : Nat := 0x10

/-- EXP1 and EXP2 of the frame with a given MFAS (Table WNG-1). -/
def stampBytes (count mfas : Nat) : Nat × Nat :=
  let q := mfas % 4
  if q = 0 then (stampFormat, getBits count 23 16)
  else if q = 1 then (0, getBits count 15 8)
  else if q = 2 then (0, getBits count 7 0)
  else (0, stampCrc stampFormat (count % 2 ^ 24))

/-- The stamp of the instance before, four frames on. -/
def stampNext (f : Nat) : Nat := (f + 4) % 2 ^ 32

/-- STAMP_INSTANCE (R272): a four-frame group moves the stamp lock of ingress context e of block B. -/
def State.stampInstance (s : State) (B e : Nat) (g : StampGroup) : State :=
  let pg := pgOdi B
  if s.ctxB B 0 e CTX.valid && s.ctxB B 0 e CTX.stamp_en && s.datapath (B / 8) then
    let count := g.exp2.getD 0 0 % 256 * 65536 + g.exp2.getD 1 0 % 256 * 256 + g.exp2.getD 2 0 % 256
    let inFrame := g.inFrame && !s.ctxStatusB B 0 e CTX_STATUS.ssf_in
    let fmtOk := decide (getBits g.format 7 4 = 1)
    let crcOk := decide (stampCrc (g.format % 256) count = g.exp2.getD 3 0 % 256)
    let s := if inFrame ∧ !fmtOk then s.tcount pg T_STAMP_RX e STAMP_RX.fmt_err else s
    let s := if inFrame ∧ !crcOk then s.tcount pg T_STAMP_RX e STAMP_RX.crc_err else s
    let valid := inFrame && fmtOk && crcOk
    let f := 256 * count + g.mfas % 256
    let c := s.ctx B 0 e
    if s.tgetb pg T_STAMP_RX e STAMP_RX.locked then
      let agrees := valid && decide (f = c.stNext)
      let s := s.setCtx B 0 e (fun c => { c with stNext := stampNext c.stNext, stBad := if agrees then 0 else c.stBad + 1 })
      let s := s.tput pg T_STAMP_RX e STAMP_RX.count (c.stNext / 256)
      let s := if valid ∧ !agrees then s.tcount pg T_STAMP_RX e STAMP_RX.jumps else s
      if 3 ≤ (s.ctx B 0 e).stBad then s.stampUnlock B e else s
    else if valid then
      let run := if c.stRun ≠ 0 ∧ f = c.stNext then c.stRun + 1 else 1
      let s := s.setCtx B 0 e (fun c => { c with stRun := run, stNext := stampNext f, stBad := 0 })
      if 3 ≤ run then
        (((s.tputb pg T_STAMP_RX e STAMP_RX.locked true).tput pg T_STAMP_RX e STAMP_RX.count count).setCtx B 0 e (fun c => { c with
          stRun := 0 })).ev pg 5
      else s
    else s.setCtx B 0 e (fun c => { c with stRun := 0 })
  else s

/-! ### Groups -/

/-- Group states of Table WNG-3. -/
def wgOff : Nat := 0
def wgAcquire : Nat := 1
def wgEngaging : Nat := 2
def wgAligned : Nat := 3
def wgTransition : Nat := 4
def wgSwapWait : Nat := 5
def wgOver : Nat := 6
def wgFallback : Nat := 7

def State.wg (s : State) (w : Nat) : Wgrp := s.wgrps.get {} w
def State.setWg (s : State) (w : Nat) (f : Wgrp → Wgrp) : State := { s with wgrps := s.wgrps.upd {} w f }
def State.wgF (s : State) (w : Nat) (f : TField) : Nat := s.effF pgWng T_WGRP_CFG w f
def State.wgSt (s : State) (w : Nat) (f : TField) : Nat := s.tget pgWng T_WGRP_STATUS w f
def State.wgState (s : State) (w : Nat) : Nat := s.wgSt w WGRP_STATUS.state
def State.wgPut (s : State) (w : Nat) (f : TField) (v : Nat) : State := s.tput pgWng T_WGRP_STATUS w f v
def State.wgCount (s : State) (w : Nat) (f : TField) : State := s.tcount pgWng T_WGRP_CNT w f
def State.wgStack (s : State) (w : Nat) : Nat := s.wgF w WGRP_CFG.stack

/-- The delay in ns, and the lag (R279, R280). -/
def State.wgDelay (s : State) (w : Nat) : Int := toSigned 26 (s.wgSt w WGRP_STATUS.delay)
def State.wgLag (s : State) (w : Nat) : Int := toSigned 26 (s.wgSt w WGRP_STATUS.lag)
def clampNs (x : Int) : Nat := ofSigned 26 (clampInt (-33554431) 33554431 x)

/-- The early leg: 0 W, 1 P. -/
def State.wgEarly (s : State) (w : Nat) : Nat := s.wgSt w WGRP_STATUS.early

/-- The egress selector group that a wings group aligns (R278). -/
def State.wgGroup (s : State) (w : Nat) : Option Nat :=
  ((List.range 8).flatMap (fun r => ((s.effRows (pgSel r) T_ESG_CFG).filter (fun x => efieldb x.2 ESG_CFG.valid &&
    efieldb x.2 ESG_CFG.aligned && decide (efield x.2 ESG_CFG.wgrp = w))).map (fun x => 2048 * r + x.1))).head?

/-- The selector group that the wings group was adopted for. -/
def State.wgFor (s : State) (w : Nat) : Option Nat := (s.wg w).grp.orElse (fun _ => s.wgGroup w)

/-- The leg selected by the group's selector. -/
def State.wgSelected (s : State) (w : Nat) : Nat :=
  match s.wgFor w with
  | some G => s.gSt G GRP_STATUS.sel
  | none => 0

/-- N_g, the blocks of the ring, for a rate and a maximum delay (R289). -/
def ringBlocks (rate maxDelay : Nat) : Nat := (maxDelay * rate + 9789439) / 9789440 + 2
def State.wgBlocks (s : State) (w : Nat) : Nat := ringBlocks (s.wgF w WGRP_CFG.rate_kbps) (s.wgF w WGRP_CFG.max_delay)

/-- Bytes of a ring block (Table WNG-4) and of an alignment space (R287). -/
def blockBytes : Nat := 122624
def alignBytes : Nat := 0x555500000

/-- The address of ring block of group start F in HBM (R287, R288). -/
def State.wgBlock (s : State) (w fg : Nat) : Nat :=
  s.wgStack w * alignBytes + s.wgF w WGRP_CFG.base * 65536 + fg / 8 % s.wgBlocks w * blockBytes

/-- Stack states of HBM_STATUS. -/
def hbmTraining : Nat := 0
def hbmService : Nat := 1
def hbmFailed : Nat := 2
def State.hbmUp (s : State) (k : Nat) : Bool := decide (s.rd (pgHbm k) HBM_STATUS_state = hbmService)

/-- Keys wrap with F (R270, R277): the key after one, and whether one comes before another. -/
def keyMod : Nat := 239 * 2 ^ 29
def keyNext (K : Nat) : Nat := (K + 1) % keyMod
def keyBefore (a b : Nat) : Bool :=
  let d := (b + keyMod - a % keyMod) % keyMod
  decide (0 < d ∧ 2 * d < keyMod)

/-- What the playout point has not passed once it has left key K. -/
def unread (l : List Wseg) (K : Nat) : List Wseg := l.filter (fun e => keyBefore K e.key)

/-- The F of the frame that holds byte `b` of the segment of key K (R274, R277). -/
def keyFrame (K b : Nat) : Nat := (8 * (K / 239) + (512 * (K % 239) + b) / 15296) % 2 ^ 32

/-! ### What leaves stage 3 -/

/-- The leg whose data comes from the ring: in SWAP_WAIT the one last known to be early (R286). -/
def State.ringLeg (s : State) (w : Nat) : Nat := if s.wgState w = wgSwapWait then (s.wg w).wrRole else s.wgEarly w

/-- A segment, or what stands for a missing one, leaves stage 3 to what the selector feeds (R280, R288, R294). -/
def State.wgPlay (s : State) (w : Nat) (x : Option (Nat × List Byte)) : State :=
  match s.wgFor w, x with
  | some G, some (snap, p) => s.feed (grpRegion G) true (grpIndex G) 0 0 snap p
  | some G, none => s.feedGap (grpRegion G) true (grpIndex G) 0 0 false
  | none, _ => s

/-- What the staging buffer holds of the late leg goes out before the output goes live (R296). -/
def State.flushStaged (s : State) (w : Nat) : State :=
  let x := s.wg w
  let sel := s.wgSelected w
  if sel = s.wgEarly w then s
  else
    let l := if sel = 0 then x.haveW else x.haveP
    let s := s.each l (fun s e => s.wgPlay w (if e.ok then some (e.snap, e.payload) else none))
    match l.getLast? with
    | some e => s.setWg w (fun x => { x with playout := some (keyNext e.key), haveW := unread x.haveW e.key, haveP := unread x.haveP e.key })
    | none => s

/-! ### Slots and states -/

/-- Bring the slot counts up to date. -/
def State.showSlots (s : State) : State :=
  let n := ((listed s.tabs pgWng T_WGRP_STATUS).filter (fun x => decide (efield x.2 WGRP_STATUS.state = wgTransition))).length
  (s.wr pgWng WNG_STATUS_slots n).wr pgWng WNG_STATUS_queued s.slotQ.length

/-- A slot may be granted to a group (R285): fewer than 40 in use, and the rates of the stack's transitions within
1.6 Tbit/s. -/
def State.slotFree (s : State) (w : Nat) : Bool :=
  let tr := ((listed s.tabs pgWng T_WGRP_STATUS).filter (fun x => decide (efield x.2 WGRP_STATUS.state = wgTransition))).map (·.1)
  let sum := ((tr.filter (fun v => decide (s.wgStack v = s.wgStack w))).map (fun v => s.wgF v WGRP_CFG.rate_kbps)).sum
  decide (tr.length < 40 ∧ sum + s.wgF w WGRP_CFG.rate_kbps ≤ 1600000000)

/-- A group leaves the slot queue. -/
def State.unqueue (s : State) (w : Nat) : State :=
  ({ s with slotQ := s.slotQ.filter (fun v => decide (v ≠ w)) }).wgPut w WGRP_STATUS.queued 0

/-- A group changes state, with the counts and events of the change (Table WNG-12, R301). -/
def State.wgEnter (s : State) (w st : Nat) : State :=
  let old := s.wgState w
  if old = st then s
  else
    let inPlay (k : Nat) : Bool := decide (2 ≤ k ∧ k ≤ 4)
    let ring := decide (s.wgSelected w = (s.wg w).wrRole)
    let s := if inPlay old && !inPlay st && !(decide (st = wgSwapWait) && ring) then s.flushStaged w else s
    let s := (s.wgPut w WGRP_STATUS.state st).ev pgWng 0
    let s := s.evWhen (decide (old = wgTransition ∨ st = wgTransition)) pgWng 1
    let s := if old = wgSwapWait then s.unqueue w else s
    let s :=
      if st = wgAcquire then
        (s.wgCount w WGRP_CNT.acquires).setWg w (fun x => { x with
          nSamples := 0, samples := [], live := false, slew := 0, slewAcc := 0 })
      else if st = wgTransition then s.wgCount w WGRP_CNT.swaps
      else if st = wgSwapWait then
        ((({ s with slotQ := s.slotQ ++ [w] }).wgCount w WGRP_CNT.swap_queued).wgPut w WGRP_STATUS.queued 1).setWg w (fun x => { x with
          live := !ring })
      else if st = wgOver then (s.wgCount w WGRP_CNT.over).ev pgWng 3
      else if st = wgFallback then s.wgCount w WGRP_CNT.fallbacks
      else s
    let s := if 2 ≤ st ∧ st ≤ 4 then s else s.wgPut w WGRP_STATUS.covered 0
    s.showSlots

/-- Write a group's WFAIL record (R297): the frames from the first to the last not delivered; `none` when nothing is. An ack_fail of the
same DP cycle clears it after the write (R300). -/
def State.wfail (s : State) (w cause : Nat) (keys : Option (Nat × Nat)) : State :=
  let (first, last, lost) := match keys with
    | some (a, b) => (keyFrame a 0, keyFrame b 511, (keyFrame b 511 + 2 ^ 32 - keyFrame a 0) % 2 ^ 32 + 1)
    | none => (0, 0, 0)
  let t := s.now
  let v := b2n (decide ((s.wg w).ackAt ≠ s.dpCycle + 1)) + 2 * cause + first * 2 ^ 32 + last * 2 ^ 64 + min lost (2 ^ 32 - 1) * 2 ^ 96 +
    t.sec % 2 ^ 48 * 2 ^ 128 + t.ns % 2 ^ 30 * 2 ^ 176 + t.quality % 4 * 2 ^ 206
  let s := (s.setEntry pgWng T_WFAIL w v).ev pgWng 2
  s.logRec 0x0A cause (srcChip kindWings w) (first + last * 2 ^ 32 + min lost (2 ^ 32 - 1) * 2 ^ 64)

/-- The group plays its selected leg from the ring. -/
def State.wgFromRing (s : State) (w : Nat) : Bool :=
  decide (s.wgSelected w = s.ringLeg w ∧ 2 ≤ s.wgState w ∧ s.wgState w ≤ 5) && !(decide (s.wgState w = wgSwapWait) && (s.wg w).live)

/-- The keys that a group leaving the ring does not deliver: from the playout point, or the first key missed since the
stack failed, to the last key of the leg in the ring; nothing when the output is not played from it. -/
def State.undelivered (s : State) (w : Nat) : Option (Nat × Nat) :=
  let x := s.wg w
  if s.wgFromRing w then
    match x.missFrom.orElse (fun _ => x.playout), if s.ringLeg w = 0 then x.topW else x.topP with
    | some k, some top => if k = top ∨ keyBefore k top then some (k, top) else none
    | _, _ => none
  else none

/-- |delay| + 4 µs goes beyond the configured maximum by more than `slack` ns (R284, Table WNG-3). -/
def State.wgBeyond (s : State) (w : Nat) (slack : Int) : Bool :=
  decide (((s.wgDelay w).natAbs : Int) + 4000 > (s.wgF w WGRP_CFG.max_delay : Int) * 100000 - slack)

/-- OVER (R298). -/
def State.wgGoOver (s : State) (w : Nat) : State :=
  let keys := s.undelivered w
  let ring := s.wgFromRing w
  let s := s.wgEnter w wgOver
  if ring then s.wfail w 3 keys else s

/-- The band of R285 in ns. -/
def State.wgBand (s : State) : Nat := 1000 * max 10 (s.rd pgWng WNG_CFG_band)

/-- A group in ALIGNED needs both legs written (R285). -/
def State.swapNeeded (s : State) (w : Nat) : Bool :=
  let d := s.wgDelay w
  decide (d.natAbs < s.wgBand) || decide ((0 < d ∧ (s.wg w).wrRole = 1) ∨ (d < 0 ∧ (s.wg w).wrRole = 0)) || decide (4000 < s.wgLag w)

/-- A group asks for a transition slot (R285): its DP cycle decides among those that ask in it (R300). -/
def State.askSlot (s : State) (w : Nat) : State := s.setWg w (fun x => { x with ask := true })

/-- A command in the same DP cycle fails the stack, or has: no swap of its groups any more (R300). -/
def State.stackGone (s : State) (k : Nat) : Bool :=
  !s.hbmUp k || s.pending.any (fun c => match c with
    | .stackFail j _ => decide (j = k)
    | _ => false)

/-- A group that asked is granted a slot when the queue is empty and one is free, else it waits (R285). -/
def State.slotAnswer (s : State) (w : Nat) : State :=
  let s := s.setWg w (fun x => { x with ask := false })
  if s.wgState w ≠ wgAligned ∨ s.stackGone (s.wgStack w) then s
  else if s.slotQ.isEmpty ∧ s.slotFree w then s.wgEnter w wgTransition else s.wgEnter w wgSwapWait

/-- A command that may make a group ask waits in the same DP cycle. -/
def State.wingsAhead (s : State) : Bool :=
  s.pending.any (fun c => match c with
    | .playoutAdvance _ _ => true
    | .wingsGroupStart _ _ _ => true
    | _ => false)

/-- The groups that asked in this DP cycle are answered, in ascending number (R285, R300). -/
def State.wingsSettle (s : State) : State :=
  if s.wingsAhead then s else s.each ((s.wgrps.filter (fun x => x.2.ask)).map (·.1)) State.slotAnswer

/-- The target and limits of the lag in ns (R281). -/
def lagOff (x : Int) : Nat := (x - 2000).natAbs

/-- A leg's entries, its last key, and whether it covers the playout point K (R282): its segment is there unread, or it is the late leg
and leaves as it arrives (R283: λ from 0 up). -/
def State.wgHave (s : State) (w leg : Nat) : List Wseg := if leg = 0 then (s.wg w).haveW else (s.wg w).haveP
def State.wgTop (s : State) (w leg : Nat) : Option Nat := if leg = 0 then (s.wg w).topW else (s.wg w).topP
def State.legCovers (s : State) (w leg K : Nat) : Bool :=
  (s.wgHave w leg).any (fun e => decide (e.key = K) && e.ok) ||
  (decide (leg ≠ s.wgEarly w ∧ 0 ≤ s.wgLag w) && decide ((s.wgTop w leg).map keyNext = some K))

/-- Both legs cover the playout point (R282). -/
def State.showCovered (s : State) (w : Nat) : State :=
  if 2 ≤ s.wgState w ∧ s.wgState w ≤ 4 then
    match (s.wg w).playout with
    | some K => s.wgPut w WGRP_STATUS.covered (b2n (s.legCovers w 0 K && s.legCovers w 1 K && s.hbmUp (s.wgStack w)))
    | none => s.wgPut w WGRP_STATUS.covered 0
  else s

/-- A group engages (R283): λ is 0 with the late leg selected, and the group covered at once; -|delay| with the early one. -/
def State.wgEngage (s : State) (w : Nat) : State :=
  let sel := s.wgSelected w
  let late := decide (sel ≠ s.wgEarly w)
  let s := s.wgPut w WGRP_STATUS.lag (clampNs (if late then 0 else -((s.wgDelay w).natAbs : Int)))
  let s := s.setWg w (fun x => { x with wrRole := s.wgEarly w, playout := (s.wgTop w sel).map keyNext })
  (s.wgEnter w wgEngaging).wgPut w WGRP_STATUS.covered (b2n late)

/-- Judge a group's state after its delay or lag changed (Table WNG-3, R284 to R286). A group leaves for OVER from every state in which
it plays or waits, before the early leg's wait would exceed its ring (R284, R298). -/
def State.wgJudge (s : State) (w : Nat) : State :=
  let st := s.wgState w
  if st = wgAcquire then
    if 16 ≤ (s.wg w).nSamples then (if s.wgBeyond w 0 then s.wgGoOver w else s.wgEngage w) else s
  else if 2 ≤ st ∧ st ≤ 5 ∧ s.wgBeyond w 0 then s.wgGoOver w
  else if st = wgEngaging then (if lagOff (s.wgLag w) ≤ 500 then s.wgEnter w wgAligned else s)
  else if st = wgAligned then (if s.swapNeeded w then s.askSlot w else s)
  else if st = wgTransition then
    if s.wgBand ≤ (s.wgDelay w).natAbs ∧ lagOff (s.wgLag w) ≤ 500 then
      (s.setWg w (fun x => { x with wrRole := s.wgEarly w })).wgEnter w wgAligned
    else s
  else s

/-- The group was adopted in this DP cycle: its other events are discarded (R300). -/
def State.wgBornNow (s : State) (w : Nat) : Bool := decide ((s.wg w).bornAt = s.dpCycle + 1)

/-- WINGS_GROUP_START (R279): a group-start segment with stamp F arrives on a leg; when the key has been seen on the other
leg it gives a sample. -/
def State.wingsGroupStart (s : State) (w leg F : Nat) : State :=
  if s.wgState w ≠ wgOff ∧ s.wgF w WGRP_CFG.valid ≠ 0 ∧ !s.wgBornNow w then
    let K := 239 * (F / 8) % keyMod
    let now := s.dpCycle
    let x := s.wg w
    let other := if leg = 0 then x.seenP else x.seenW
    match other.find? (fun e => decide (e.1 = K)) with
    | some (_, t) =>
      let d : Int := if leg = 0 then (t : Int) - now else (now : Int) - t
      let smp := (d :: x.samples).take 16
      let s := s.setWg w (fun x => { x with
        samples := smp, nSamples := x.nSamples + 1
        seenW := x.seenW.filter (fun e => keyBefore K e.1), seenP := x.seenP.filter (fun e => keyBefore K e.1) })
      let (ns, s) := s.divFree (smp.sum * 4) (7 * smp.length)
      let s := s.wgPut w WGRP_STATUS.delay (clampNs ns)
      let s := if 0 < ns then s.wgPut w WGRP_STATUS.early 0 else if ns < 0 then s.wgPut w WGRP_STATUS.early 1 else s
      s.wgJudge w
    | none =>
      s.setWg w (fun x => if leg = 0 then { x with seenW := x.seenW ++ [(K, now)] } else { x with seenP := x.seenP ++ [(K, now)] })
  else s

/-! ### The ring -/

/-- Put down the arbiter's occupancy (R301). -/
def State.showTrack (s : State) : State :=
  (s.wr pgWng WNG_TRACK_now s.hbm.now).wr pgWng WNG_TRACK_peak (max s.hbm.now (s.rd pgWng WNG_TRACK_peak))

/-- A read of WNG_TRACK: the peak starts again from the occupancy (R301). -/
def State.trackRead (s : State) : State := s.wr pgWng WNG_TRACK_peak s.hbm.now

/-- Transactions that the tracker holds (R292), and those of a segment's access: with the last segment of a block, or the first one read
of it, goes the block's tail. -/
def trackDepth : Nat := 16384
def wrTrans (K : Nat) : Nat := if K % 239 = 238 then 2 else 1
def rdTrans (K : Nat) : Nat := if K % 239 = 0 then 2 else 1

/-- The requests at the front of a queue that fit into the room, those left, and the room left. -/
def serve {α : Type} (cost : α → Nat) : Nat → List α → List α × List α × Nat
  | room, [] => ([], [], room)
  | room, x :: l =>
    if cost x ≤ room then
      let (a, b, k) := serve cost (room - cost x) l
      (x :: a, b, k)
    else ([], x :: l, room)

/-- Put a key into a hole list of 8 ranges; none when the list is full (R293). -/
def holeAdd (l : List (Nat × Nat)) (K : Nat) : Option (List (Nat × Nat)) :=
  if l.any (fun h => decide (h.1 ≤ K ∧ K ≤ h.2)) then some l
  else if l.any (fun h => decide (h.2 + 1 = K)) then some (l.map (fun h => if h.2 + 1 = K then (h.1, K) else h))
  else if l.length < 8 then some (l ++ [(K, K)])
  else none

/-- Write the segment of key K into its ring block (R288, Table WNG-4). With the first segment of a new group in the block its tail starts
from zeros, so that what is not written is not present. -/
def State.ringWrite (s : State) (x : HbmWr) : State :=
  let a := s.wgBlock x.w (8 * (x.key / 239))
  let i := x.key % 239
  let fg := 8 * (x.key / 239) % 2 ^ 32
  let m := s.mem
  let m := if ofBytesLe (memReadBytes m (a + 0x1DEF0) 4) = fg then m else memWriteBytes m (a + 0x1DE00) (List.replicate 256 0)
  let m := memWriteBytes m (a + 512 * i) (if x.ok then x.payload.take 512 else [])
  let m := memWrite m (a + 0x1DE00 + i) (BitVec.ofNat 8 (x.leg % 4 + 4 * b2n x.ok))
  let m := memWriteBytes m (a + 0x1DEF0) (bytesLe 4 fg)
  let m := if i = 0 then memWriteBytes m (a + 0x1DEF4) (bytesLe 2 x.snap) else m
  { s with mem := m }

/-- The stacks have completed transactions: held reads are served before held writes, each oldest first (R292). -/
def State.hbmDone (s : State) (n : Nat) : State :=
  let h := s.hbm
  let (_, rd, room) := serve (fun x : Nat × Nat => rdTrans x.2) (trackDepth - (h.now - n)) h.reads
  let (go, wr, room) := serve (fun x : HbmWr => wrTrans x.key) room h.writes
  let s := { s with hbm := { now := trackDepth - room, reads := rd, writes := wr } }
  s.each go State.ringWrite

/-- A request is held (R292). -/
def State.hbmHeld (s : State) : State := (s.count pgWng WNG_TRACK_HELD_held).ev pgWng 4

/-- A read of key K goes to the arbiter (R292): what holds it is absorbed by its lead (R294), or `late` says otherwise. -/
def State.hbmRead (s : State) (w K : Nat) (u : HbmUse) : State :=
  let s := s.hbmDone u.done
  let h := s.hbm
  let s := if h.now + rdTrans K ≤ trackDepth then { s with hbm := { h with now := h.now + rdTrans K } }
    else { s with hbm := { h with reads := h.reads ++ [(w, K)] } }.hbmHeld
  s.showTrack

/-- The write buffer of a stack in bytes: 4 µs of its admitted write rate (R293). -/
def State.wbufBytes (s : State) (k : Nat) : Nat :=
  ((((s.effRows pgWng T_WGRP_CFG).filter (fun x => efieldb x.2 WGRP_CFG.valid && decide (efield x.2 WGRP_CFG.stack = k))).map
    (fun x => efield x.2 WGRP_CFG.rate_kbps)).sum) / 2000

/-- A write goes to the arbiter (R292, R293); the answer says whether it was dropped, its stack's write buffer being full. -/
def State.hbmWrite (s : State) (x : HbmWr) (u : HbmUse) : State × Bool :=
  let s := s.hbmDone u.done
  let h := s.hbm
  let k := s.wgStack x.w
  if h.writes.isEmpty ∧ h.now + wrTrans x.key ≤ trackDepth then
    ((({ s with hbm := { h with now := h.now + wrTrans x.key } }).ringWrite x).showTrack, false)
  else if s.wbufBytes k < 512 * ((h.writes.filter (fun y => decide (s.wgStack y.w = k))).length + 1) then (s.showTrack, true)
  else (({ s with hbm := { h with writes := h.writes ++ [x] } }).hbmHeld.showTrack, false)

/-- The key tracking of a leg with its next segment or placeholder (R277): a group start anchors it; every other number goes on by one;
and whether the segment's stamp differs from its key's frame, which leaves the key unknown until the next group start. -/
def LegKey.step (k : LegKey) (typ stamp : Nat) (present : Bool) : LegKey × Bool :=
  if present ∧ typ = 2 then ({ known := true, fg := stamp, i := 0 }, false)
  else
    let k := { k with i := k.i + 1 }
    let off := present && decide (typ = 3) && k.known && decide ((k.fg + 512 * k.i / 15296) % 2 ^ 32 ≠ stamp)
    (if off || (present && decide (typ = 1)) then { k with known := false } else k, off)

/-- A write was dropped (R293): counted, its key a hole; a hole list that is full takes the group to ACQUIRE. -/
def State.wgHole (s : State) (w K : Nat) : State :=
  let s := (s.count (pgHbm (s.wgStack w)) HBM_WBUF_DROP).ev pgWng 5
  match holeAdd (s.wg w).holes K with
  | some l => s.setWg w (fun x => { x with holes := l })
  | none => (s.setWg w (fun x => { x with holes := [] })).wgEnter w wgAcquire

/-- Whether a leg's segments are written to the ring (Table WNG-3). -/
def State.wgWrites (s : State) (w leg : Nat) : Bool :=
  let st := s.wgState w
  decide (st = wgTransition ∨ (st = wgAcquire ∧ leg = s.wgEarly w) ∨
    ((st = wgEngaging ∨ st = wgAligned ∨ st = wgSwapWait) ∧ leg = (s.wg w).wrRole)) && s.hbmUp (s.wgStack w)

/-- The leg's segment of key K is at stage 3: noted, with its payload where it is staged. -/
def State.wgArrive (s : State) (w leg : Nat) (e : Wseg) : State :=
  let live := !(decide (2 ≤ s.wgState w ∧ s.wgState w ≤ 4)) && !s.ringPlays w leg
  s.setWg w (fun x =>
    if leg = 0 then { x with topW := some e.key, haveW := x.haveW ++ [e], stW := if live then e.leg else x.stW }
    else { x with topP := some e.key, haveP := x.haveP ++ [e], stP := if live then e.leg else x.stP })

/-- Where the output follows the selected leg (R280): the playout point stands behind its last segment. In SWAP_WAIT a live output goes
back to the ring as soon as the leg's data at the playout point is there (R286). -/
def State.wgFollow (s : State) (w leg K : Nat) (inRing : Bool) : State :=
  let x := s.wg w
  if (2 ≤ s.wgState w ∧ s.wgState w ≤ 4) ∨ leg ≠ s.wgSelected w ∨ s.ringPlays w leg then s
  else if s.wgState w = wgSwapWait ∧ leg = x.wrRole ∧ inRing then (s.wgCount w WGRP_CNT.steps).setWg w (fun x => { x with live := false })
  else s.setWg w (fun x => { x with playout := some (keyNext K), haveW := unread x.haveW K, haveP := unread x.haveP K })

/-- The data of key K as the ring gives it (R288, R293 to R295): its leg status, the block's snapshot and its payload; none when
missing. -/
def State.ringRead (s : State) (w K : Nat) (u : HbmUse) : Option (Nat × Nat × List Byte) :=
  let a := s.wgBlock w (8 * (K / 239))
  let stored := ofBytesLe (memReadBytes s.mem (a + 0x1DEF0) 4)
  let st := (memRead s.mem (a + 0x1DE00 + K % 239)).toNat
  if !s.hbmUp (s.wgStack w) ∨ u.late ∨ u.err = 2 ∨ stored ≠ 8 * (K / 239) % 2 ^ 32 ∨ !bit st 2 ∨
    (s.wg w).holes.any (fun h => decide (h.1 ≤ K ∧ K ≤ h.2)) then none
  else some (st % 4, ofBytesLe (memReadBytes s.mem (a + 0x1DEF4) 2), memReadBytes s.mem (a + 512 * (K % 239)) 512)

/-- A segment, or a lost placeholder (`present` false), of a leg reaches stage 3 (R277, R280, R282, R288, R293). -/
def State.wingsSegment (s : State) (w leg typ stamp status snap : Nat) (present : Bool) (payload : List Byte) (u : HbmUse) : State :=
  if s.wgState w = wgOff ∨ s.wgF w WGRP_CFG.valid = 0 ∨ s.wgBornNow w then s
  else
    let x := s.wg w
    let (k, off) := (if leg = 0 then x.keyW else x.keyP).step typ stamp present
    let s := if off then s.wgCount w WGRP_CNT.stamp_err else s
    let s := if present then s.wgPut w (if leg = 0 then WGRP_STATUS.w_stamped else WGRP_STATUS.p_stamped) (b2n (decide (typ = 2 ∨ typ = 3))) else s
    let s := s.setWg w (fun x => if leg = 0 then { x with keyW := k } else { x with keyP := k })
    if !k.known then s
    else
      let K := (239 * (k.fg / 8) + k.i) % keyMod
      let writes := s.wgWrites w leg
      let staged := !writes || decide (s.wgState w = wgTransition)
      let (s, dropped) := if writes then s.hbmWrite ⟨w, K, status, snap, present, payload⟩ u else (s, false)
      let s := s.wgArrive w leg ⟨K, s.dpCycle, status, present && (staged || !dropped), snap, if staged then payload else []⟩
      let inRing := match (s.wg w).playout with
        | some p => decide (p ≠ K) && (s.ringRead w p u).isSome
        | none => false
      let s := s.wgFollow w leg K inRing
      (if dropped then s.wgHole w K else s).showCovered w

/-- Errors of an HBM read (R295). -/
def State.hbmErrors (s : State) (k : Nat) (u : HbmUse) : State :=
  if u.err = 1 then (s.count (pgHbm k) HBM_CE).report clsHbmCe 1 (srcChip kindHbm k)
  else if u.err = 2 then ((s.count (pgHbm k) HBM_UE).ev (pgHbm k) 2).report clsHbmUe 2 (srcChip kindHbm k)
  else s

/-- The slew rate in ppm (R301): 0 acts as 1, more than 10 as 10. -/
def State.wngSlew (s : State) : Nat := max 1 (min 10 (s.rd pgWng WNG_CFG_slew_ppm))

/-- A playout point that runs slow or fast moves λ by the slew rate's part of a segment period (R281, R283). -/
def State.slewLag (s : State) (w : Nat) : State :=
  let x := s.wg w
  let rate := max 1 (s.wgF w WGRP_CFG.rate_kbps)
  let acc := x.slewAcc + 4096 * s.wngSlew
  if x.slew = 0 then s
  else (s.setWg w (fun x => { x with slewAcc := acc % rate })).wgPut w WGRP_STATUS.lag (clampNs (s.wgLag w - x.slew * (acc / rate : Nat)))

/-- Re-centre the lag (R281). -/
def State.recentre (s : State) (w : Nat) : State :=
  let lag := s.wgLag w
  if s.wgF w WGRP_CFG.step = 0 then
    let x := s.wg w
    if lagOff lag ≤ 100 then s.setWg w (fun x => { x with slew := 0 })
    else if 500 < lagOff lag ∨ x.slew ≠ 0 then s.setWg w (fun x => { x with slew := if lag < 2000 then -1 else 1 })
    else s
  else if 500 < lagOff lag then
    -- whole segments of 4,096 bits at the group's rate
    let rate := max 1 (s.wgF w WGRP_CFG.rate_kbps)
    let (n, s) := s.divFree ((lag - 2000) * rate) 4096000000
    let s := s.setWg w (fun x => { x with playout := x.playout.map (fun k => (((k : Int) + n) % keyMod).toNat) })
    let s := s.wgPut w WGRP_STATUS.lag (clampNs (lag - n * 4096000000 / rate))
    s.wgCount w WGRP_CNT.steps
  else s

/-- Put down what each leg had at the playout point, and leave it. -/
def State.wgPass (s : State) (w K : Nat) (e l : Option (Nat × Nat × List Byte)) (lSt : Nat) : State :=
  let eSt := (e.map (·.1)).getD 2
  let early := s.wgEarly w
  let out (x : Option (Nat × Nat × List Byte)) : Option (Nat × List Byte) := x.map (·.2)
  s.setWg w (fun x => { x with
    stW := if early = 0 then eSt else lSt, stP := if early = 0 then lSt else eSt
    outW := out (if early = 0 then e else l), outP := out (if early = 0 then l else e), playout := some (keyNext K)
    haveW := unread x.haveW K, haveP := unread x.haveP K, holes := x.holes.filter (fun h => keyBefore K h.2) })

/-- The playout point advances in ENGAGING, ALIGNED or TRANSITION: the early leg's segment is read from the ring, the late leg's is in the
staging buffer, and the selected one leaves. With the late leg selected nothing leaves before it arrives. -/
def State.playBoth (s : State) (w K : Nat) (u : HbmUse) : State :=
  let early := s.wgEarly w
  let sel := s.wgSelected w
  let k := s.wgStack w
  let late := (s.wgHave w (1 - early)).find? (fun e => decide (e.key = K))
  let come := match s.wgTop w (1 - early) with
    | some top => decide (top = K) || keyBefore K top
    | none => false
  if sel ≠ early ∧ !come then s
  else
    let s := (s.hbmRead w K u).hbmErrors k u
    let rd := s.ringRead w K u
    let s := match rd with
      | some _ => s
      | none =>
        let s := s.wgCount w WGRP_CNT.rd_miss
        if s.hbmUp k then s else s.setWg w (fun x => { x with missFrom := some (x.missFrom.getD K) })
    let lOut := match late with
      | some e => if !e.ok then none else if e.payload.isEmpty then s.ringRead w K ⟨0, false, 0⟩ else some (e.leg, e.snap, e.payload)
      | none => none
    let lSt := match late with
      | some e => if e.ok then e.leg else 2
      | none => if early = 0 then (s.wg w).stP else (s.wg w).stW
    let s := (s.wgPass w K rd lOut lSt).wgPlay w ((if sel = early then rd else lOut).map (·.2))
    let s := match late with
      | some e =>
        let (ns, s) := s.divFree (((s.dpCycle : Int) - e.at_) * 4) 7
        s.wgPut w WGRP_STATUS.lag (clampNs ns)
      | none => s.slewLag w
    ((s.recentre w).showCovered w).wgJudge w

/-- In SWAP_WAIT the selected leg is played from the ring while its data is there, live otherwise; a move counts in steps (R286). -/
def State.playRing (s : State) (w K : Nat) (u : HbmUse) : State :=
  let x := s.wg w
  let s := (s.hbmRead w K u).hbmErrors (s.wgStack w) u
  match s.ringRead w K u with
  | some (st, out) =>
    let s := if x.live then s.wgCount w WGRP_CNT.steps else s
    let s := s.setWg w (fun x => { x with
      live := false, stW := if x.wrRole = 0 then st else x.stW, stP := if x.wrRole = 0 then x.stP else st
      playout := some (keyNext K), haveW := unread x.haveW K, haveP := unread x.haveP K, holes := x.holes.filter (fun h => keyBefore K h.2) })
    (s.wgPlay w (some out)).wgJudge w
  | none => if x.live then s else (s.wgCount w WGRP_CNT.steps).setWg w (fun x => { x with live := true })

/-- PLAYOUT_ADVANCE (R280 to R286, R294): the playout point of a group advances one key. -/
def State.playoutAdvance (s : State) (w : Nat) (u : HbmUse) : State :=
  let st := s.wgState w
  match (s.wg w).playout with
  | none => s
  | some K =>
    if s.wgBornNow w then s
    else if 2 ≤ st ∧ st ≤ 4 then s.playBoth w K u
    else if st = wgSwapWait ∧ s.wgSelected w = (s.wg w).wrRole then s.playRing w K u
    else s

/-! ### Slots, OVER, adoption -/

/-- SLOT_GRANT (R285): the head of the queue is granted and enters ACQUIRE. -/
def State.slotGrant (s : State) : State :=
  match s.slotQ with
  | w :: _ => if s.slotFree w ∧ !s.stackGone (s.wgStack w) ∧ !s.wgBornNow w then s.wgEnter w wgAcquire else s
  | [] => s

/-- OVER_RECOVER (Table WNG-3): the delay has stood within the maximum less 100 µs for 1 s. -/
def State.overRecover (s : State) (w : Nat) : State :=
  if s.wgState w = wgOver ∧ !s.wgBeyond w 100000 ∧ !s.wgBornNow w then s.wgEnter w wgAcquire else s

/-- The committed groups of a stack, and its load (R302). -/
def State.showHbm (s : State) : State :=
  let rows := (listed s.tabs pgWng T_WGRP_CFG).filter (fun x => efieldb x.2 WGRP_CFG.valid)
  s.each (List.range 6) (fun s k =>
    let mine := rows.filter (fun x => decide (efield x.2 WGRP_CFG.stack = k))
    let bytes := (mine.map (fun x => blockBytes * ringBlocks (efield x.2 WGRP_CFG.rate_kbps) (efield x.2 WGRP_CFG.max_delay))).sum
    let kb := (mine.map (fun x => efield x.2 WGRP_CFG.rate_kbps)).sum
    ((s.wr (pgHbm k) HBM_STATUS_groups mine.length).wr (pgHbm k) HBM_LOAD_mib ((bytes + 2 ^ 20 - 1) / 2 ^ 20)).wr (pgHbm k) HBM_LOAD_gbps
      ((kb + 999999) / 1000000))

/-- What a ring held is discarded. -/
def memClear (m : List Host.Cell) (a n : Nat) : List Host.Cell := m.filter (fun c => decide (c.1 < a ∨ a + n ≤ c.1))

/-- The group's selector group lies in a region in RESET (Table WNG-3: OFF). -/
def State.wgInReset (s : State) (w : Nat) : Bool :=
  match s.wgGroup w with
  | some G => decide (s.region (grpRegion G) = rgnReset)
  | none => false

/-- A group is adopted into ACQUIRE (R291), or goes OFF when its row is not valid. What it wrote before is discarded; a
group whose output was played from the ring writes a record with cause RECONFIG. -/
def State.wgStart (s : State) (w : Nat) : State :=
  let keys := s.undelivered w
  let s := if s.wgFromRing w then s.wfail w 4 keys else s
  let s := s.wgEnter w wgOff
  let on := decide (s.wgF w WGRP_CFG.valid ≠ 0)
  let s := { s with
    wgrps := s.wgrps.set {} w { grp := s.wgGroup w, bornAt := s.dpCycle + 1, ackAt := (s.wg w).ackAt }
    slotQ := s.slotQ.filter (fun v => decide (v ≠ w))
    hbm := { s.hbm with reads := s.hbm.reads.filter (fun x => decide (x.1 ≠ w)), writes := s.hbm.writes.filter (fun x => decide (x.w ≠ w)) }
    mem := if on then memClear s.mem (s.wgBlock w 0) (s.wgBlocks w * blockBytes) else s.mem }
  let s := s.setEntry pgWng T_WGRP_STATUS w 0
  let s := if !on then s
    else
      let s := s.wgPut w WGRP_STATUS.blocks (s.wgBlocks w)
      if s.wgInReset w then s else s.wgEnter w wgAcquire
  s.showSlots

/-- Groups whose egress selector group lies in a region entering RESET go OFF (Table WNG-3). -/
def State.wingsRegionReset (s : State) (r : Nat) : State :=
  let ws := ((s.effRows (pgSel r) T_ESG_CFG).filter (fun x => efieldb x.2 ESG_CFG.valid && efieldb x.2 ESG_CFG.aligned)).map
    (fun x => efield x.2 ESG_CFG.wgrp)
  s.each ws (fun s w => (({ s with wgrps := s.wgrps.erase w }).wgEnter w wgOff).showSlots)

/-! ### Stack failure -/

/-- STACK_FAIL (R296): an HBM_LINK fault (`clock` false) or a loss of lock or reference of unit HBs. -/
def State.stackFail (s : State) (k : Nat) (clock : Bool) : State :=
  if k < 6 ∧ s.rd (pgHbm k) HBM_STATUS_state ≠ hbmFailed then
    let s := if clock then s else s.report clsHbmLink 2 (srcChip kindHbm k)
    let s := (s.wr (pgHbm k) HBM_STATUS_state hbmFailed).ev (pgHbm k) 0
    let ws := ((s.effRows pgWng T_WGRP_CFG).filter (fun x => efieldb x.2 WGRP_CFG.valid && decide (efield x.2 WGRP_CFG.stack = k) &&
      decide (s.wgState x.1 ≠ wgOff))).map (fun x => x.1 + 4096 * b2n clock)
    { s with
      fallQ := s.fallQ.set [] k ws
      hbm := { s.hbm with reads := s.hbm.reads.filter (fun x => decide (s.wgStack x.1 ≠ k))
                          writes := s.hbm.writes.filter (fun x => decide (s.wgStack x.w ≠ k)) } }
  else s

/-- GROUP_FALLBACK (R296, R297): the next group of a failed stack, in ascending number, enters FALLBACK and writes its
record. -/
def State.groupFallback (s : State) (k : Nat) : State :=
  match s.fallQ.get [] k with
  | v :: rest =>
    let w := v % 4096
    let s := { s with fallQ := s.fallQ.set [] k rest }
    if s.wgState w = wgOff then s
    else
      let keys := s.undelivered w
      let s := (s.wgEnter w wgFallback).wfail w (if v < 4096 then 1 else 2) keys
      s.setWg w (fun x => { x with missFrom := none, haveW := [], haveP := [], holes := [] })
  | [] => s

/-- HBM_RESTORE (R299): a FAILED stack that has been retrained returns, each of its FALLBACK groups to ACQUIRE. -/
def State.hbmRestore (s : State) (k : Nat) : State :=
  if s.rd (pgHbm k) HBM_STATUS_state = hbmFailed ∧ bit (s.rd pgMode MODE_STACKS_retrained) k then
    let s := (s.wr (pgHbm k) HBM_STATUS_state hbmService).ev (pgHbm k) 1
    let s := s.wr pgMode MODE_STACKS_retrained (s.rd pgMode MODE_STACKS_retrained &&& (63 - 2 ^ k))
    let ws := ((listed s.tabs pgWng T_WGRP_STATUS).filter (fun x => decide (efield x.2 WGRP_STATUS.state = wgFallback ∧
      s.wgStack x.1 = k))).map (·.1)
    s.each ws (fun s w => s.wgEnter w wgAcquire)
  else s

/-- HBM_RETRAIN_PC (R295, R302): the next pseudo-channel of a stack is retrained, and shown until the DP cycle ends (DESIGN CHOICE,
log 74); `late` says that it takes more than 1.5 µs. -/
def State.retrainPc (s : State) (k : Nat) (late : Bool) : State :=
  if s.hbmUp k then
    let pc := s.nextPc.get 0 k
    let s := ({ s with nextPc := s.nextPc.set 0 k ((pc + 1) % 64) }).wr (pgHbm k) HBM_STATUS_retrain_pc pc
    if late then (s.count (pgHbm k) HBM_RETRAIN_LATE).ev (pgHbm k) 3 else s
  else s

/-- No pseudo-channel is being retrained any more. -/
def State.retrainEnd (s : State) : State :=
  s.each (List.range 6) (fun s k => if s.hbmUp k ∧ s.rd (pgHbm k) HBM_STATUS_retrain_pc ≠ 0xFF then s.wr (pgHbm k) HBM_STATUS_retrain_pc 0xFF else s)

/-- ACK_FAIL (R297, R300) of a group. -/
def State.ackFail (s : State) (w : Nat) : State :=
  (s.tputb pgWng T_WFAIL (w % 4096) WFAIL.valid false).setWg (w % 4096) (fun x => { x with ackAt := s.dpCycle + 1 })

/-! ### The commands -/

def execStampInstance (B e : Nat) (g : StampGroup) := run (fun s => s.stampInstance B e g)
def execWingsGroupStart (w leg F : Nat) := run (fun s => (s.wingsGroupStart w leg F).wingsSettle)
def execPlayoutAdvance (w : Nat) (u : HbmUse) := run (fun s => (s.playoutAdvance w u).wingsSettle)
def execSlotGrant := run State.slotGrant
def execOverRecover (w : Nat) := run (fun s => s.overRecover w)
def execHbmRetrainPc (k : Nat) (late : Bool) := run (fun s => s.retrainPc k late)
def execStackFail (k : Nat) (clock : Bool) := run (fun s => s.stackFail k clock)
def execGroupFallback (k : Nat) := run (fun s => s.groupFallback k)
def execHbmRestore (k : Nat) := run (fun s => s.hbmRestore k)
def execAckFail (w : Nat) := run (fun s => s.ackFail w)

end Sys2Proof.Machine
end

