-- ==== Sys2Proof/Machine/Fybry.lean ====
section
/-! DEFINITION. The Fybry system interface: links and their failover, segments, distribution, queues and credits, reorder,
offline markers and tests (file 09, R305 to R349, R598). -/

namespace Sys2Proof.Machine

open Sys2Proof

/-! ### Links -/

def State.fyl (s : State) (m : Nat) : Fyl := s.fyls.get {} m
def State.setFyl (s : State) (m : Nat) (f : Fyl → Fyl) : State := { s with fyls := s.fyls.upd {} m f }
def fylRegion (m : Nat) : Nat := m / 12
def fylIndex (m : Nat) : Nat := m % 12

/-- Event bits of the FYL page (R348). -/
def fylLos : Nat := 0
def fylAligned : Nat := 1
def fylDelinLost : Nat := 2
def fylLinkFail : Nat := 3
def fylRestored : Nat := 4
def fylPeerFail : Nat := 5
def fylIdMismatch : Nat := 6
def fylSkew : Nat := 7
def fylPrbsLost : Nat := 8

/-- Roles of LINK_CFG (R306): 0 unused, 1 working, 2 understudy. -/
def roleWorking : Nat := 1
def roleUnderstudy : Nat := 2
def State.linkF (s : State) (m : Nat) (f : TField) : Nat := s.effF (pgFyl m) T_LINK_CFG 0 f
def State.linkRole (s : State) (m : Nat) : Nat := s.linkF m LINK_CFG.role

/-- Link states sent (R598). -/
def lsDown : Nat := 0
def lsStandby : Nat := 1
def lsActive : Nat := 2
def lsOffline : Nat := 3

/-- The links of a region, ascending. -/
def regionLinks (r : Nat) : List Nat := (List.range 12).map (12 * r + ·)

def State.linkFailed (s : State) (m : Nat) : Bool := s.rdb (pgFyl m) FYL_STATUS_failed
def State.linkAligned (s : State) (m : Nat) : Bool := s.rdb (pgFyl m) FYL_STATUS_aligned
def State.linkSync (s : State) (m : Nat) : Bool := s.rdb (pgFyl m) FYL_STATUS_sync

/-- The page of unit FGg that times a link (R311; file 12, Table ARC-9). -/
def fylCsu (m : Nat) : Nat := pgCsu (33 + m / 6)
def State.linkClock (s : State) (m : Nat) : Bool := s.rdb (fylCsu m) CSU_STATUS_locked && !s.rdb (fylCsu m) CSU_STATUS_gated

/-- The link's lanes run: enabled and the chip out of DARK. They run through a region reset (R336). -/
def State.linkRuns (s : State) (m : Nat) : Bool := s.rdb (pgFyl m) PAGE_CTRL_run && decide (s.mode ≠ modeDark)

/-- The region sends offline (R335, R336): in RESET, OFFLINE or ISOLATED, or the chip in SAFE. -/
def State.regionOff (s : State) (r : Nat) : Bool :=
  decide (s.region r = rgnReset ∨ s.region r = rgnOffline ∨ s.region r = rgnIsolated ∨ s.mode = modeSafe)

/-- The understudy link of a region, if it has one. -/
def State.understudy (s : State) (r : Nat) : Option Nat := (regionLinks r).find? (fun m => decide (s.linkRole m = roleUnderstudy))

/-- The index l that the understudy covers; 0xF none. -/
def State.covering (s : State) (r : Nat) : Nat := if s.covers.get 0 r = 0 then 0xF else s.covers.get 0 r - 1

/-- The understudy takes position c, or none (0xF); FYT_STATUS shows it. -/
def State.setCovering (s : State) (r c : Nat) : State :=
  { s with covers := s.covers.set 0 r (if c = 0xF then 0 else c + 1) }.wr (pgFyt r) FYT_STATUS_covering c

/-! ### The distribution list -/

/-- Flow segments go on links in segment loopback only (file 16, R547; Table ARC-10). -/
def State.loopOnly (s : State) : Bool := decide (s.mode = modeRehearsal ∨ s.mode = modeAudit)

/-- A link may carry flow segments in this mode: in REHEARSAL and AUDIT while it is in segment loopback. -/
def State.carriesFlows (s : State) (m : Nat) : Bool := !s.loopOnly || decide ((s.fyl m).lbEff = 3)

/-- The working links whose positions stand in the list, ascending (R325, R339; file 16, R547). -/
def State.positions (s : State) (r : Nat) : List Nat :=
  (regionLinks r).filter (fun m => decide (s.linkRole m = roleWorking) && !(s.fyl m).left && s.carriesFlows m)

/-- The link whose queue serves a position: the understudy while it covers it. -/
def State.posServer (s : State) (m : Nat) : Nat :=
  if s.covering (fylRegion m) = fylIndex m then (s.understudy (fylRegion m)).getD m else m

/-- Show W, W_a and no_cover (FYT_STATUS): a link has failed and no free understudy can take its position. -/
def State.showFyt (s : State) (r : Nat) : State :=
  let pg := pgFyt r
  let c := s.covering r
  let w := ((regionLinks r).filter (fun m => decide (s.linkRole m = roleWorking))).length
  let uncovered := (regionLinks r).any (fun m => decide (s.linkRole m = roleWorking) && s.linkFailed m && decide (fylIndex m ≠ c))
  let free := match s.understudy r with
    | some u => !s.linkFailed u && decide (c = 0xF)
    | none => false
  (((s.wr pg FYT_STATUS_covering c).wr pg FYT_STATUS_working w).wr pg FYT_STATUS_active (s.positions r).length).wrb pg FYT_STATUS_no_cover (uncovered && !free)

/-- The queue of a class. -/
def Fyl.queue (x : Fyl) (cls : Nat) : List (Nat × Seg) := if cls = 0 then x.q0 else x.q1
def Fyl.putQueue (x : Fyl) (cls : Nat) (q : List (Nat × Seg)) : Fyl := if cls = 0 then { x with q0 := q } else { x with q1 := q }

/-- Segments that a queue holds (R326). -/
def queueDepth : Nat := 32

def State.hasRoom (s : State) (m cls : Nat) : Bool := decide (((s.fyl m).queue cls).length < queueDepth)

def State.pushSeg (s : State) (m : Nat) (x : Nat × Seg) : State :=
  s.setFyl m (fun l => l.putQueue x.2.cls (l.queue x.2.cls ++ [x]))

/-- A segment of transmit flow i is dropped (R326). -/
def State.dropSeg (s : State) (r i : Nat) : State :=
  ((s.tcount (pgFyt r) T_TXF_CNT i TXF_CNT.dropped).count (pgFyt r) FYT_DROP_dropped).ev (pgFyt r) 1

/-- Put a segment into the first of the queues with room, counted as diverted; `none` has room: the answer says so. -/
def State.divertSeg (s : State) (r : Nat) (order : List Nat) (x : Nat × Seg) : Option State :=
  (order.find? (fun m => s.hasRoom m x.2.cls)).map (fun m => (s.tcount (pgFyt r) T_TXF_CNT x.1 TXF_CNT.diverted).pushSeg m x)

/-- Assign a completed segment of flow i to a position (R325, R326, R339). -/
def State.placeSeg (s : State) (r i : Nat) (seg : Seg) : State :=
  let q := (s.positions r).map s.posServer
  if q.isEmpty then s.dropSeg r i
  else
    let k := (i + seg.seq) % q.length
    let m := q.getD k 0
    if s.hasRoom m seg.cls then s.pushSeg m (i, seg)
    else match s.divertSeg r (q.drop (k + 1) ++ q.take k) (i, seg) with
      | some s' => s'
      | none =>
        let s := match (s.fyl m).queue seg.cls with
          | y :: rest => (s.dropSeg r y.1).setFyl m (fun l => l.putQueue seg.cls rest)
          | [] => s
        s.pushSeg m (i, seg)

/-- Segments that wait in the queue of a position that leaves the list are placed again in order (R339). -/
def State.replaceQueue (s : State) (r from_ l : Nat) : State :=
  let x := s.fyl from_
  let s := s.setFyl from_ (fun x => { x with q0 := [], q1 := [], off := [] })
  let ps := s.positions r
  let order := ((ps.filter (fun m => decide (l < fylIndex m))) ++ ps.filter (fun m => decide (fylIndex m < l))).map s.posServer
  let s := s.each (x.q0 ++ x.q1) (fun s y => match s.divertSeg r order y with
    | some s' => s'
    | none => s.dropSeg r y.1)
  match order with
  | m :: _ => s.setFyl m (fun y => { y with off := y.off ++ x.off })
  | [] => s.each x.off (fun s y => s.dropSeg r y.1)

/-- CRC-16 of Fybry (R318). -/
def crc16 (bytes : List Nat) : Nat := crcBits 16 0x1021 0xFFFF (bytes.flatMap (bitsMsb 8))

/-- Bytes 0 to 13 of a header (Table FYB-4). -/
def segHeader (g : Seg) : List Nat :=
  [g.typ % 16 * 16 + g.leg % 4 * 4 + 2 * b2n g.off + g.cls % 2, g.flow / 256 % 256, g.flow % 256, g.seq / 256 % 256, g.seq % 256,
   g.stamp / 2 ^ 24 % 256, g.stamp / 2 ^ 16 % 256, g.stamp / 256 % 256, g.stamp % 256, g.snap / 256 % 256, g.snap % 256,
   g.ccls % 2 * 128 + g.lstate % 4 * 32 + g.rxFail % 16, g.credit / 256 % 256, g.credit % 256]

/-! ### Failure and return -/

/-- The understudy takes a position: its queues go on with what waits there (R338). -/
def State.coverWith (s : State) (u m : Nat) : State :=
  let r := fylRegion m
  let x := s.fyl m
  let s := s.setFyl u (fun y => { y with q0 := y.q0 ++ x.q0, q1 := y.q1 ++ x.q1, off := y.off ++ x.off })
  let s := s.setFyl m (fun y => { y with q0 := [], q1 := [], off := [] })
  let s := { s with coverAt := s.coverAt.set 0 r (s.dpCycle + 1) }
  ((s.setCovering r (fylIndex m)).wrb (pgFyl m) FYL_STATUS_covered true).ev (pgFyt r) 0

/-- The position that the understudy covers leaves the list; what the understudy holds for it is placed again (R339). -/
def State.uncover (s : State) (r from_ : Nat) : State :=
  let w := 12 * r + s.covering r
  let s := ((s.setFyl w (fun x => { x with left := true })).wrb (pgFyl w) FYL_STATUS_covered false).setCovering r 0xF
  s.replaceQueue r from_ (fylIndex w)

/-- A cue that makes a link unused is adopted in this very cycle (R341). -/
def State.leavesUse (s : State) (m : Nat) : Bool :=
  s.pending.any (fun c => match c with
    | .cueRowAdopt _ .free => decide (getBits (s.entry (pgFyl m) T_LINK_CFG 0) LINK_CFG.role.hi LINK_CFG.role.lo = 0)
    | _ => false)

/-- A link fails (R337 to R339). A link that is unused or has failed already does not fail again. Of two working links that fail in
one DP cycle the understudy covers the lower (R341). -/
def State.failLink (s : State) (m : Nat) : State :=
  let r := fylRegion m
  let l := fylIndex m
  let role := s.linkRole m
  let s := s.setFyl m (fun x => { x with failAt := s.dpCycle + 1 })
  if role = 0 ∨ s.linkFailed m ∨ s.leavesUse m then s
  else
    let s := ((s.wrb (pgFyl m) FYL_STATUS_failed true).ev (pgFyl m) fylLinkFail).when (!s.updating r) (fun s =>
        s.report clsFybryLink 2 (srcRgnCell r kindLink m))
    let s :=
      if role = roleWorking then
        match s.understudy r with
        | some u =>
          if !s.linkFailed u ∧ s.covering r = 0xF then s.coverWith u m
          else if !s.linkFailed u ∧ l < s.covering r ∧ s.coverAt.get 0 r = s.dpCycle + 1 then (s.uncover r u).coverWith u m
          else (s.setFyl m (fun x => { x with left := true })).replaceQueue r m l
        | none => (s.setFyl m (fun x => { x with left := true })).replaceQueue r m l
      else if s.covering r ≠ 0xF then s.uncover r m
      else s
    s.showFyt r

/-- Bring segments from the understudy's queues back to a link, in order; beyond the queue's depth the oldest are dropped
(R326, R340). -/
def State.takeBackQueue (s : State) (r u m : Nat) : State :=
  let x := s.fyl u
  let s := s.setFyl u (fun y => { y with q0 := [], q1 := [], off := [] })
  let s := s.setFyl m (fun y => { y with off := y.off ++ x.off })
  s.each (x.q0 ++ x.q1) (fun s y =>
    if s.hasRoom m y.2.cls then s.pushSeg m y
    else match (s.fyl m).queue y.2.cls with
      | z :: rest => ((s.dropSeg r z.1).setFyl m (fun l => l.putQueue y.2.cls rest)).pushSeg m y
      | [] => s)

/-- A failed link is in service again: a covered position returns to it, or it rejoins the distribution (R339, R340). -/
def State.unfail (s : State) (m : Nat) : State :=
  let r := fylRegion m
  let s := s.wrb (pgFyl m) FYL_STATUS_failed false
  if s.linkRole m = roleWorking ∧ s.covering r = fylIndex m then
    let s := match s.understudy r with
      | some u => s.takeBackQueue r u m
      | none => s
    (s.setCovering r 0xF).wrb (pgFyl m) FYL_STATUS_covered false
  else s.setFyl m (fun x => { x with left := false })

/-- A command that fails a link waits in the same DP cycle: every command in the queue runs before the next cycle. -/
def State.failAhead (s : State) (m : Nat) : Bool :=
  s.pending.any (fun c => match c with
    | .fylFail k => decide (k = m)
    | .linkFail k _ => decide (k = m)
    | .markerLockLost k _ => decide (k = m)
    | .los (.fybry k _) => decide (k = m)
    | .segmentReceive k x => decide (x.seg.crc = crc16 (segHeader x.seg)) && s.linkAligned k &&
      (decide (k = m ∧ x.seg.lstate % 4 = lsDown) || decide (fylRegion k = fylRegion m ∧ x.seg.rxFail = fylIndex m))
    | .refLost u _ => decide (u = 33 + m / 6)
    | .lockLost u => decide (u = 33 + m / 6)
    | _ => false)

/-- FYL_RESTORE (R340, R341: a failure of the same DP cycle wins): a failed link returns when it is aligned, in SYNC and reported STANDBY or ACTIVE. -/
def State.restoreLink (s : State) (m : Nat) : State :=
  let r := fylRegion m
  let peer := s.rd (pgFyl m) FYL_STATUS_peer_lstate
  if s.linkFailed m && s.linkAligned m && s.linkSync m && decide (peer = lsStandby ∨ peer = lsActive) &&
      decide ((s.fyl m).failAt ≠ s.dpCycle + 1) && !s.failAhead m then
    ((s.unfail m).ev (pgFyl m) fylRestored).showFyt r
  else s

/-- A link's role changes (R307): a covered position whose link or understudy changes is no longer covered; segments already
queued are still sent. -/
def State.roleChange (s : State) (m oldRole : Nat) : State :=
  let r := fylRegion m
  if s.linkRole m = oldRole then s
  else
    let s := if oldRole = roleWorking ∧ s.covering r = fylIndex m then s.setCovering r 0xF else s
    let s := if oldRole = roleUnderstudy ∧ s.covering r ≠ 0xF then
        let w := 12 * r + s.covering r
        ((s.setFyl w (fun x => { x with left := true })).wrb (pgFyl w) FYL_STATUS_covered false).setCovering r 0xF
      else s
    let s := ((s.wrb (pgFyl m) FYL_STATUS_failed false).wrb (pgFyl m) FYL_STATUS_covered false).setFyl m (fun x => { x with left := false })
    s.showFyt r

/-! ### Credits -/

/-- Units that a segment costs (R328). -/
def segShort (typ : Nat) : Bool := decide (typ = 0 ∨ typ = 4 ∨ typ = 6 ∨ typ = 7 ∨ 12 ≤ typ)
def segCost (typ : Nat) : Nat := if typ = 0 then 0 else if segShort typ then 9 else 33
def segLen (typ : Nat) : Nat := if segShort typ then 128 else 512

/-- Units available for a class (R328): a 16-bit value, at least 0. -/
def unitsAvail (valid : Bool) (lim sent ret : Nat) : Nat :=
  if valid then min lim 32767 - (sent + 65536 - ret % 65536) % 65536 else 0

def State.avail (s : State) (m cls : Nat) : Nat :=
  let x := s.fyl m
  let v := s.rdb (pgFyl m) FYL_STATUS_credits_valid
  if cls = 0 then unitsAvail v x.lim0 x.sent0 x.ret0 else unitsAvail v x.lim1 x.sent1 x.ret1

/-- Show the credits of a link. -/
def State.showCredit (s : State) (m : Nat) : State :=
  let x := s.fyl m
  ((((s.wr (pgFyl m) FYL_CREDIT_avail0 (s.avail m 0)).wr (pgFyl m) FYL_CREDIT_avail1 (s.avail m 1)).wr (pgFyl m)
    FYL_PEER_LIMIT_limit0 x.lim0).wr (pgFyl m) FYL_PEER_LIMIT_limit1 x.lim1)

/-! ### Headers -/

/-- The link state sent (R598). -/
def State.lstateOf (s : State) (m : Nat) : Nat :=
  let role := s.linkRole m
  if s.regionOff (fylRegion m) then lsOffline
  else if s.linkFailed m ∨ role = 0 ∨ role = 3 then lsDown
  else if role = roleWorking then lsActive
  else if s.covering (fylRegion m) ≠ 0xF then lsActive
  else lsStandby

/-- The rx_fail field of the next header of a link, in rotation among the region's other failed links (R338). -/
def State.rxFailOf (s : State) (m : Nat) : Nat × State :=
  let r := fylRegion m
  let c := (regionLinks r).filter (fun k => decide (k ≠ m) && s.linkFailed k)
  if c.isEmpty then (0xF, s)
  else
    let k := (c.find? (fun k => decide (s.rxFailTurn.get 0 r ≤ fylIndex k))).getD (c.getD 0 0)
    (fylIndex k, { s with rxFailTurn := s.rxFailTurn.set 0 r ((fylIndex k + 1) % 12) })

/-- Two bytes, most significant first. -/
def be16 (n : Nat) : List Byte := [BitVec.ofNat 8 (n / 256), BitVec.ofNat 8 n]

/-- The payload of an idle segment (Table FYB-7). -/
def State.idlePayload (s : State) (m : Nat) : List Byte :=
  let x := s.fyl m
  be16 (s.linkF m LINK_CFG.link_id) ++ [BitVec.ofNat 8 (s.region (fylRegion m)), BitVec.ofNat 8 s.mode] ++
  be16 (s.linkF m LINK_CFG.units0) ++ be16 (s.linkF m LINK_CFG.units1) ++ be16 x.freed0 ++ be16 x.freed1 ++ List.replicate 116 0

/-! ### Lane coding -/

/-- A lane of a link. -/
def fyPrbs (m k : Nat) : Nat := 256 + 8 * m + k
def State.fyTx (s : State) (m k : Nat) : FyTx := (s.fyl m).tx.get {} k
def State.setFyTx (s : State) (m k : Nat) (f : FyTx → FyTx) : State := s.setFyl m (fun x => { x with tx := x.tx.upd {} k f })
def State.fyRx (s : State) (m k : Nat) : FyRx := (s.fyl m).rx.get {} k
def State.setFyRx (s : State) (m k : Nat) (f : FyRx → FyRx) : State := s.setFyl m (fun x => { x with rx := x.rx.upd {} k f })

/-- The levels that a lane's transmitter puts on its balls: its own, or its generator's (R311, R314, R344; file 03, R115, R117). Near
loopback drives the balls too: the link has no near_drive (DESIGN CHOICE, log 105). -/
def State.fylSend (s : State) (m k : Nat) (own : List Nat) : State :=
  let x := s.fyl m
  let (data, s) := if bit x.genEff k then s.genLevels (fyPrbs m k) x.patEff own.length else (own, s)
  if x.lbEff = 2 then s
  else
    let s := if x.lbEff = 1 then s.setFyl m (fun x => { x with loop := x.loop.set [] k data }) else s
    if s.linkRuns m && s.linkClock m then s.emit (.fybryLine m k (invertLevels (x.taps.get {} k).inv data)) else s

/-- The levels that reach a lane's receiver, turned if the lane arrives inverted (R314, R344). -/
def State.fylReceived (s : State) (m k : Nat) (levels : List Nat) : List Nat :=
  let x := s.fyl m
  if x.lbEff = 1 then x.loop.get [] k else invertLevels (s.fyRx m k).inv levels

/-- The bytes of an alignment marker (R313). PRESUMED (log 102): the seed's register gives the PRBS9 bits that its feedback makes. -/
def markerBytes (k linkId lstate : Nat) : List Nat :=
  let b := [0xC1, 0x6A, 0x3D, 0x94, 0x5B, 0xE2, k % 8, 255 - k % 8, linkId / 256 % 256, linkId % 256, lstate % 4, 0] ++
    cutBits 8 18 (prbsBits 1 144 511).1
  let c := crc16 b
  b ++ [c / 256, c % 256]

/-- A block's 257 bits: the header bit, then its bytes (R312). -/
def blockBits (h : Bool) (bytes : List Nat) : List Bool := h :: streamBits 8 bytes

/-- A lane's codeword is complete: 514 message symbols, encoded (R312). -/
def State.fylCodeword (s : State) (m k : Nat) : State :=
  let x := s.fyTx m k
  if x.bits.length < 5140 then s
  else
    let s := s.setFyTx m k (fun x => { x with bits := [], cw := (x.cw + 1) % 4096 })
    s.fylSend m k (symbolLevels (rsEncode (cutBits 10 514 x.bits)))

/-- A data block goes to lane k: in a codeword that begins with a marker, after the marker (R312, R313, R598). -/
def State.fylBlock (s : State) (m k : Nat) (h : Bool) (bytes : List Nat) : State :=
  let x := s.fyTx m k
  let lead := if x.bits.isEmpty && decide (x.cw = 0) then blockBits false (markerBytes k (s.linkF m LINK_CFG.link_id) (s.lstateOf m)) else x.bits
  let (data, scr) := scramble x.scr (streamBits 8 bytes)
  (s.setFyTx m k (fun x => { x with bits := lead ++ h :: data, scr := scr })).fylCodeword m k

/-- The blocks that the stream fills go to the lanes in turn (R315). -/
def State.fylBlocks (s : State) (m : Nat) : Nat → State
  | 0 => s
  | n + 1 =>
    let x := s.fyl m
    if x.rest.length < 32 then s
    else
      let b := x.rest.take 32
      let s := s.setFyl m (fun x => { x with rest := x.rest.drop 32, nextLane := (x.nextLane + 1) % 8 })
      (s.fylBlock m (x.nextLane % 8) ((b.headD (0, false)).2) (b.map (·.1))).fylBlocks m n

/-- The bytes of a segment join the link's stream (R316). -/
def State.fylStream (s : State) (m : Nat) (g : Seg) : State :=
  let bytes := segHeader g ++ [g.crc / 256 % 256, g.crc % 256] ++ g.payload.map (·.toNat)
  let s := s.setFyl m (fun x => { x with rest := x.rest ++ bytes.mapIdx (fun i b => (b, decide (i = 0))) })
  s.fylBlocks m 17

/-- Fill the header fields that belong to the link and send the segment (R316, R320, R329). -/
def State.sendSeg (s : State) (m : Nat) (g : Seg) : Seg × State :=
  let x := s.fyl m
  let (rf, s) := s.rxFailOf m
  let g := { g with ccls := x.ccls, lstate := s.lstateOf m, rxFail := rf, credit := if x.ccls = 0 then x.freed0 else x.freed1 }
  let g := { g with crc := crc16 (segHeader g) }
  let s := s.setFyl m (fun x => { x with ccls := 1 - x.ccls })
  (g, ((s.count (pgFyl m) FYL_TX_SEG).emit (.segment m g)).fylStream m g)

/-- An idle segment of a link (R320). -/
def State.idleSeg (s : State) (m : Nat) : Seg :=
  { typ := 0, leg := 0, off := s.regionOff (fylRegion m), cls := 0, flow := 0, seq := 0, stamp := 0, snap := 0, ccls := 0
    lstate := 0, rxFail := 0, credit := 0, crc := 0, payload := s.idlePayload m }

/-- The oldest segment of a class that the link may send (R327, R328). -/
def State.eligible (s : State) (m cls : Nat) : Option (Nat × Seg) :=
  match (s.fyl m).queue cls with
  | x :: _ => if segCost x.2.typ ≤ s.avail m cls then some x else none
  | [] => none

/-- The next offline marker of a link, once what waits before it in its class is sent (R327, R328, R335). -/
def State.offNext (s : State) (m : Nat) : Option (Nat × Seg) :=
  match (s.fyl m).off with
  | x :: _ => if ((s.fyl m).queue x.2.cls).isEmpty && decide (segCost x.2.typ ≤ s.avail m x.2.cls) then some x else none
  | [] => none

/-- What a link sends in its next slot (R320, R327, R338): the transmit flow and its segment, or none for an idle
segment. -/
def State.slotChoice (s : State) (m : Nat) : Option (Nat × Seg) :=
  if s.linkFailed m ∨ !s.carriesFlows m then none
  else (s.eligible m 0).orElse (fun _ => (s.eligible m 1).orElse (fun _ => s.offNext m))

/-- Send a queued segment: its units, its flow's count (R328, Table FYB-14). -/
def State.sendFlow (s : State) (m : Nat) (x : Nat × Seg) : Seg × State :=
  let c := segCost x.2.typ
  let s := s.setFyl m (fun l =>
    if (l.queue x.2.cls).isEmpty then { l with off := l.off.drop 1 } else l.putQueue x.2.cls ((l.queue x.2.cls).drop 1))
  let s := s.setFyl m (fun l => if x.2.cls = 0 then { l with sent0 := (l.sent0 + c) % 65536 } else { l with sent1 := (l.sent1 + c) % 65536 })
  let s := s.tcount (pgFyt (fylRegion m)) T_TXF_CNT x.1 TXF_CNT.segs
  let (g, s) := s.sendSeg m x.2
  (g, s.showCredit m)

/-! ### Sources of transmit flows -/

/-- What feeds a transmit flow (R322): an ingress context, an ingress selector group, a line client. -/
inductive FlowSrc where
  | ctx (B e : Nat)
  | group (G : Nat)
  | eth (n : Nat)
  deriving DecidableEq, Repr

/-- The sources in effect of transmit flow i of region r. -/
def State.flowSources (s : State) (r i : Nat) : List FlowSrc :=
  ((List.range 8).flatMap (fun b => ((s.ctxSlots (8 * r + b) 0).filter (fun e => s.ctxB (8 * r + b) 0 e CTX.flow_en &&
    decide (s.ctxF (8 * r + b) 0 e CTX.flow = i))).map (FlowSrc.ctx (8 * r + b)))) ++
  (((s.effRows (pgIsl r) T_ISG_CFG).filter (fun x => efieldb x.2 ISG_CFG.valid && decide (efield x.2 ISG_CFG.out_flow = i))).map
    (fun x => FlowSrc.group (16384 + 1024 * r + x.1))) ++
  (((List.range 32).map (32 * r + ·)).filter (fun n => s.ethEn n && s.effB (pgEth n) T_ETH_CFG 0 ETH_CFG.tx_en &&
    decide (s.effF (pgEth n) T_ETH_CFG 0 ETH_CFG.tx_flow = i))).map FlowSrc.eth

/-- The ingress context whose data a source carries: its own, or that of the selected leg. -/
def State.srcCtx (s : State) : FlowSrc → Option (Nat × Nat)
  | .ctx B e => some (B, e)
  | .group G => s.ctxPlace 0 (4096 * grpRegion G + s.legCtx G (s.gSt G GRP_STATUS.sel))
  | .eth _ => none

/-- The leg status of a segment's data: the worst status of its source since the last cut (R321). -/
def State.srcLeg (s : State) (x : FlowSrc) : Nat × State :=
  match x with
  | .eth n =>
    let w := worseLeg (s.cli (lineKey n)).worst (s.ethLeg n)
    (w, s.setCli (lineKey n) (fun c => { c with worst := s.ethLeg n }))
  | _ => match s.srcCtx x with
    | some (B, e) =>
      let now := s.ctxStatus B 0 e CTX_STATUS.leg
      (worseLeg (s.ctx B 0 e).worst now, s.setCtx B 0 e (fun c => { c with worst := now }))
    | none => (legSf, s)

/-- The justification snapshot of a flow (R201): 0x8000 while the source is replaced, its leg is SF or fewer than 1,024
periods are measured. A BMP or IMP client has its ODU's offset; of a line client the offset over 1 ms is told, and a period is a codeword
group of its PCS (DESIGN CHOICE, log 106). -/
def State.srcSnap (s : State) (x : FlowSrc) (leg lineOff : Nat) : Nat × State :=
  match x with
  | .eth n =>
    let off := if (s.cli (lineKey n)).periods < 1024 then 0x8000 else lineOff % 65536
    let s := s.wr (pgEth n) ETH_OFFSET_offset off
    (if leg = legSf ∨ s.rdb (pgEth n) ETH_STATUS_replacing then 0x8000 else off, s)
  | _ => match s.srcCtx x with
    | some (B, e) =>
      let client := s.isClient B 0 e
      let code := s.cliCode B 0 e
      let repl := (s.ctx B 0 e).fill || (client && s.cliB B 0 e CLI_STATUS.replacing)
      if leg = legSf ∨ repl then (0x8000, s)
      else if client ∧ (code = 1 ∨ code = 6) then ((s.gmp (gmpKey B 0 e false)).offset, s)
      else ((s.gmp (gmpKey B 0 e true)).offset, s)
    | none => (0x8000, s)

/-- Count the blocks of a client that arrived with a wrong sync header (R200). -/
def State.countErrBlocks (s : State) (c : CliRef) (n : Nat) : State :=
  match c with
  | .line k => s.count (pgEth k) ETH_ERR_BLOCKS n
  | .ctx B _ e => s.tcount (pgDmp B) T_CLI_CNT e CLI_CNT.err_blocks n

def txKey (r i : Nat) : Nat := 4096 * r + i
def State.txFlow (s : State) (r i : Nat) : TxFlow := s.txFlows.get {} (txKey r i)
def State.setTxFlow (s : State) (r i : Nat) (f : TxFlow → TxFlow) : State := { s with txFlows := s.txFlows.upd {} (txKey r i) f }
def State.txF (s : State) (r i : Nat) (f : TField) : Nat := s.effF (pgFyt r) T_TXF_CFG i f

/-- A stamped source (R274): an ingress context with stamp_en = 1. -/
def State.srcStamped (s : State) : FlowSrc → Bool
  | .ctx B e => s.ctxB B 0 e CTX.stamp_en
  | .group _ => false
  | .eth _ => false

/-- Where a stamped flow's segment begins: on the grid the next of its 239, elsewhere nowhere but at a group start (R274). -/
def TxFlow.fits (t : TxFlow) (d : SegDone) : Bool :=
  (t.onGrid && decide ((t.mf0 + 512 * t.idx / 15296) % 256 = d.mfas % 256 ∧ 512 * t.idx % 15296 = d.first)) ||
  decide (d.mfas % 8 = 0 ∧ d.first = 0)

/-- The index in its group that a segment takes, and the MFAS of the group's first frame. -/
def TxFlow.place (t : TxFlow) (d : SegDone) : Nat × Nat := if d.mfas % 8 = 0 ∧ d.first = 0 then (0, d.mfas % 256) else (t.idx, t.mf0)

/-- The flow behind a segment: on to the next, after the 239th to the next group's first; off the grid after a break (R276). -/
def TxFlow.after (t : TxFlow) (stamped brk : Bool) (d : SegDone) : TxFlow :=
  let (i, m) := t.place d
  let t := { t with next := (t.next + 1) % 65536, onGrid := stamped && !brk }
  if !stamped then t else if i = 238 then { t with idx := 0, mf0 := (m + 8) % 256 } else { t with idx := i + 1, mf0 := m }

/-- F of a frame with an MFAS, by the flywheel of an ingress context (R272): the nearest to the next stamp group. -/
def State.flywheelF (s : State) (B e mfas : Nat) : Nat :=
  let f := (s.ctx B 0 e).stNext
  (((f : Int) + toSigned 8 ((mfas + 256 - f % 256) % 256)) % 2 ^ 32).toNat

/-- The type and stamp of a segment (R275, R321; Table FYB-5). -/
def State.segType (s : State) (r i : Nat) (x : FlowSrc) (d : SegDone) : Nat × Nat :=
  let short := s.txF r i TXF_CFG.short ≠ 0
  if s.txF r i TXF_CFG.kind = 1 then (if short then 6 else 5, 0)
  else if short then (4, 0)
  else match x with
    | .ctx B e =>
      if s.srcStamped x ∧ s.tgetb (pgOdi B) T_STAMP_RX e STAMP_RX.locked then
        (if ((s.txFlow r i).place d).1 = 0 then 2 else 3, s.flywheelF B e d.mfas)
      else (1, 0)
    | _ => (1, 0)

/-- A payload brought to its length: after a break the rest is all ones (R276). -/
def segPayload (n : Nat) (p : List Nat) : List Byte := ((p.take n) ++ List.replicate (n - p.length) 0xFF).map (BitVec.ofNat 8)

/-- What of n bytes comes out of an ingress context without a gap: its stream, or where it is replaced generated ODU-AIS, in the frame
under way and in the one before (file 05, R179, R181). -/
def State.oduBytes (s : State) (B e n : Nat) (d : SegDone) : List Nat :=
  let c := s.ctx B 0 e
  let pos := s.ctxPositions B 0 e
  let frame := pos * 15296
  let byte (i : Nat) : Option Nat :=
    let k := d.first % frame + i
    if (if k < frame ∧ frame < d.first % frame + n then c.aisOld else c.ais) then some (aisByte (d.mfas + k / frame) (k % frame / pos))
    else d.payload[i]?
  (((List.range n).map byte).takeWhile Option.isSome).filterMap id

/-- The next n bytes that a client flow carries (R200): blocks in 65-bit form or the client's bits, or the replacement in their place
(R221); with the blocks among them that had a wrong sync header. None while the client has not brought enough. -/
def State.clientCut (s : State) (c : CliRef) (n : Nat) (repl : Bool) : Option (List Nat × Nat) × State :=
  let code := s.formCode c
  let x := s.cli (refKey c)
  if 1 ≤ code ∧ code ≤ 5 then
    let k := blksIn n
    let bs := x.rx.take k
    let gone := s.setCli (refKey c) (fun x => { x with rx := x.rx.drop k })
    if repl then (some (payloadOf n (List.replicate k (faultBlk code)), 0), gone)
    else if bs.length < k then (none, s)
    else (some (payloadOf n bs, (bs.filter (fun b => decide (b.hdr ≠ 1 ∧ b.hdr ≠ 2))).length), gone)
  else if repl then
    let y := (x.replBytes code n).2
    (some ((x.replBytes code n).1, 0), s.setCli (refKey c) (fun _ => { y with bytes := y.bytes.drop n }))
  else if x.bytes.length < n then (none, s)
  else (some (x.bytes.take n, 0), s.setCli (refKey c) (fun x => { x with bytes := x.bytes.drop n }))

/-- The client of a source that carries one, and whether its stream is replaced. -/
def State.srcClient (s : State) (x : FlowSrc) : Option (CliRef × Bool) :=
  match x with
  | .eth n => some (.line n, s.rdb (pgEth n) ETH_STATUS_replacing)
  | _ => match s.srcCtx x with
    | some (B, e) => if s.isClient B 0 e then some (.ctx B 0 e, s.cliB B 0 e CLI_STATUS.replacing) else none
    | none => none

/-- The bytes of a source's next segment; none while they are not all there. A stamped ODU flow whose frame sequence breaks gives what
came before the break (R276). -/
def State.srcBytes (s : State) (x : FlowSrc) (n : Nat) (stamped : Bool) (d : SegDone) : Option (List Nat) × State :=
  match s.srcClient x with
  | some (c, repl) =>
    let (o, s) := s.clientCut c n repl
    match o with
    | some (bs, bad) => (some bs, ((s.countErrBlocks c bad).showLevel c).judgeFill c)
    | none => (none, s)
  | none => match s.srcCtx x with
    | some (B, e) =>
      let bs := s.oduBytes B e n d
      (if bs.length < n ∧ !stamped then none else some bs, s)
    | none => (some (List.replicate n 0xFF), s)

/-- The transmit engine builds segments: in REHEARSAL and AUDIT only for working links in segment loopback (file 16, R547). -/
def State.mayBuild (s : State) (r : Nat) : Bool := !s.loopOnly || !(s.positions r).isEmpty

/-- The transmit engine may cut a segment of flow i from source x (R274, R323). -/
def State.mayCut (s : State) (r i : Nat) (x : FlowSrc) (d : SegDone) : Bool :=
  s.mayBuild r && decide (s.txF r i TXF_CFG.valid ≠ 0) && (!s.srcStamped x || (s.txFlow r i).fits d)

/-- The segment of flow i with these bytes, with the header fields of its source (R321, R323). -/
def State.cutSeg (s : State) (r i : Nat) (x : FlowSrc) (d : SegDone) (bs : List Nat) (brk : Bool) : Seg × State :=
  let (leg, s) := s.srcLeg x
  let leg := if brk then legSf else leg
  let (snap, s) := s.srcSnap x leg d.lineOff
  let (typ, stamp) := s.segType r i x d
  ({ typ := typ, leg := leg, off := false, cls := s.txF r i TXF_CFG.cls, flow := s.txF r i TXF_CFG.label
     seq := (s.txFlow r i).next, stamp := stamp, snap := snap, ccls := 0, lstate := 0, rxFail := 0, credit := 0, crc := 0
     payload := segPayload (segLen typ) bs }, s)

/-- The transmit engine cuts a segment from the stream that feeds flow i (R321, R323, R325). A stamped flow begins at a group start,
at adoption and after a break. -/
def State.cutFlow (s : State) (r i : Nat) (d : SegDone) : State :=
  match s.flowSources r i with
  | x :: _ =>
    let stamped := s.srcStamped x
    let n := if s.txF r i TXF_CFG.short ≠ 0 then 128 else 512
    if s.mayCut r i x d then
      let (o, s) := s.srcBytes x n stamped d
      match o with
      | some bs =>
        let brk := stamped && decide (bs.length < n)
        let (g, s) := s.cutSeg r i x d bs brk
        (s.setTxFlow r i (fun t => t.after stamped brk d)).placeSeg r i g
      | none => s
    else s.when (s.srcStamped x) (fun s => s.setTxFlow r i (fun t => if t.fits d then t else { t with onGrid := false }))
  | [] => s

/-- SEGMENT_COMPLETE: an offline region completes none (R335). -/
def State.segmentComplete (s : State) (r i : Nat) (d : SegDone) : State :=
  s.when (s.datapath r && !s.regionOff r) (fun s => s.cutFlow r i d)

/-- The segments that a region completes in the very cycle in which it enters RESET go before its offline markers (R341). -/
def State.lastSegments (s : State) (r : Nat) : State :=
  s.each s.pending (fun s c => match c with
    | .segmentComplete r' i d => if r' = r then s.segmentComplete r i d else s
    | _ => s)

/-- The valid transmit flows of a region, ascending. -/
def State.validTx (s : State) (r : Nat) : List Nat :=
  ((s.effRows (pgFyt r) T_TXF_CFG).filter (fun x => efieldb x.2 TXF_CFG.valid)).map (·.1)

/-- An offline marker waits at the link that serves its position (R325, R335); without a position it is dropped (R339). -/
def State.placeOff (s : State) (r i : Nat) (seg : Seg) : State :=
  let q := (s.positions r).map s.posServer
  if q.isEmpty then s.dropSeg r i
  else s.setFyl (q.getD ((i + seg.seq) % q.length) 0) (fun x => { x with off := x.off ++ [(i, seg)] })

/-- The offline markers of a region (R335): one for each valid transmit flow, in ascending order. -/
def State.sendOffline (s : State) (r : Nat) : State :=
  let s := s.each (if s.mayBuild r then s.validTx r else []) (fun s i =>
    let t := s.txFlow r i
    let g : Seg := { typ := 7, leg := legSf, off := true, cls := s.txF r i TXF_CFG.cls, flow := s.txF r i TXF_CFG.label, seq := t.next
                     stamp := 0, snap := 0x8000, ccls := 0, lstate := 0, rxFail := 0, credit := 0, crc := 0
                     payload := List.replicate 128 0 }
    (s.setTxFlow r i (fun t => { t with next := (t.next + 1) % 65536, onGrid := false })).placeOff r i g)
  s.ev (pgFyt r) 2

/-- A transmit flow is adopted (R323): its first segment takes 0. -/
def State.txStart (s : State) (r i : Nat) : State := { s with txFlows := s.txFlows.erase (txKey r i) }

/-! ### Receive flows -/

def rxKey (r i : Nat) : Nat := 8192 * r + i
def State.rxo (s : State) (r i : Nat) : FlowOut := s.flowOuts.get {} (rxKey r i)
def State.setRxo (s : State) (r i : Nat) (f : FlowOut → FlowOut) : State := { s with flowOuts := s.flowOuts.upd {} (rxKey r i) f }
def State.rxF (s : State) (r i : Nat) (f : TField) : Nat := s.effF (pgFyr r) T_RXF_CFG i f
def State.rxSt (s : State) (r i : Nat) (f : TField) : Nat := s.tget (pgFyr r) T_RXF_STATUS i f
def State.rxPut (s : State) (r i : Nat) (f : TField) (v : Nat) : State := s.tput (pgFyr r) T_RXF_STATUS i f v
def State.rxCount (s : State) (r i : Nat) (f : TField) (n : Nat := 1) : State := s.tcount (pgFyr r) T_RXF_CNT i f n

/-- States of a receive flow (Table FYB-15). -/
def rxIdle : Nat := 0
def rxRun : Nat := 1
def rxAbsent : Nat := 2
def rxOffline : Nat := 3

/-- The legs of egress selector groups that a receive flow feeds: group, leg. -/
def State.flowLegs (s : State) (r i : Nat) : List (Nat × Nat) :=
  ((s.effRows (pgSel r) T_ESG_CFG).filter (fun x => efieldb x.2 ESG_CFG.valid)).flatMap (fun x =>
    (if efield x.2 ESG_CFG.w_flow = i then [(2048 * r + x.1, 0)] else []) ++
    (if efield x.2 ESG_CFG.p_flow = i then [(2048 * r + x.1, 1)] else []))

/-- Bring the transmit replacement of the line client led by lane n up to date (file 06, R221, R222): local fault while its input is
SF, absent, offline or lost, while cRATE is present or forced. -/
def State.refreshTxLf (s : State) (n : Nat) : State :=
  let pg := pgEth n
  let f (x : TField) : Nat := s.effF pg T_ETH_CFG 0 x
  let on := s.ethEn n && (decide (f ETH_CFG.force_lf ≠ 0) || s.rdb pg ETH_STATUS_crate ||
    (decide (f ETH_CFG.rx_en ≠ 0) && decide (s.inputLeg (laneRegion n) (f ETH_CFG.rx) (decide (f ETH_CFG.rx_sel ≠ 0)) = legSf)))
  if s.rdb pg ETH_STATUS_tx_lf = on then s
  else
    let s := (s.wrb pg ETH_STATUS_tx_lf on).ev pg 4
    if on then s.count pg ETH_REPL else s

/-- The egress selector groups whose output a leg's arrival is at once: it is selected and the wings do not play it (file 08, R280). -/
def State.liveGroups (s : State) (r i : Nat) : List Nat :=
  ((s.flowLegs r i).filter (fun x => decide (s.gSt x.1 GRP_STATUS.sel = x.2) && (s.legPlayed x.1 x.2).isNone)).map (·.1)

/-- A released segment goes on to what takes its flow, itself or as the selected leg of a group (R333; file 07, R231). -/
def State.flowOn (s : State) (r i : Nat) (g : Seg) : State :=
  let kind := s.rxF r i RXF_CFG.kind
  let client := s.rxF r i RXF_CFG.client
  s.each (s.liveGroups r i) (fun s G => s.feed r true (grpIndex G) kind client g.snap g.payload) |>.feed r false i kind client g.snap g.payload

/-- A lost one likewise. -/
def State.flowGap (s : State) (r i : Nat) : State :=
  let kind := s.rxF r i RXF_CFG.kind
  let client := s.rxF r i RXF_CFG.client
  let short := decide (s.rxF r i RXF_CFG.short ≠ 0)
  s.each (s.liveGroups r i) (fun s G => s.feedGap r true (grpIndex G) kind client short) |>.feedGap r false i kind client short

/-- Hand a segment or a lost placeholder to the wings groups whose leg the flow is (R333; file 08, R277). -/
def State.feedWings (s : State) (r i typ stamp status snap : Nat) (present : Bool) (payload : List Byte) (u : HbmUse) : State :=
  s.each (s.flowLegs r i) (fun s x => match s.gWings x.1 with
    | some w => s.wingsSegment w x.2 typ stamp status snap present payload u
    | none => s)

/-- A number is released as lost (R333); `f` counts why. -/
def State.releaseLost (s : State) (r i q : Nat) (f : TField) : State :=
  let s := (s.rxCount r i f).rxCount r i RXF_CNT.gap_segs
  let s := if (s.rxo r i).lost then s.rxPut r i RXF_STATUS.gap_len (min 65535 (s.rxSt r i RXF_STATUS.gap_len + 1))
    else (((s.rxCount r i RXF_CNT.gaps).rxPut r i RXF_STATUS.gap_first q).rxPut r i RXF_STATUS.gap_len 1).ev (pgFyr r) 0
  let s := s.setRxo r i (fun o => { o with lost := true })
  (s.feedWings r i 0 0 legSf 0x8000 false [] ⟨0, false, 0⟩).flowGap r i

/-- A held segment is released (R331, R336): an offline marker makes its flow OFFLINE, the data behind it RUN again (R341). -/
def State.releaseSeg (s : State) (r i : Nat) (h : RxHeld) : State :=
  let g := h.seg
  let s := (s.rxCount r i RXF_CNT.segs).rxPut r i RXF_STATUS.leg g.leg
  let s := s.setRxo r i (fun o => { o with lost := false, repl := h.repl && decide (g.snap = 0x8000) })
  let s := s.when (!g.off && decide (s.rxSt r i RXF_STATUS.state = rxOffline)) (fun s => s.rxPut r i RXF_STATUS.state rxRun)
  let s := s.feedWings r i g.typ g.stamp g.leg g.snap (!g.off) g.payload h.use
  let s := if g.off then s else s.flowOn r i g
  if g.off then (s.rxPut r i RXF_STATUS.state rxOffline).ev (pgFyr r) 2 else s

def State.heldAt (s : State) (r i q : Nat) : Option RxHeld := (s.rxo r i).held.find? (fun h => decide (h.seg.seq = q))

/-- Release number e, held or lost, and advance e (R331). -/
def State.releaseNext (s : State) (r i : Nat) (f : TField) : State :=
  let e := s.rxSt r i RXF_STATUS.e
  let s := match s.heldAt r i e with
    | some h => (s.setRxo r i (fun o => { o with held := o.held.filter (fun x => decide (x.seg.seq ≠ e)) })).releaseSeg r i h
    | none => s.releaseLost r i e f
  s.rxPut r i RXF_STATUS.e ((e + 1) % 65536)

def State.releaseMany (s : State) (r i : Nat) (f : TField) : Nat → State
  | 0 => s
  | n + 1 => (s.releaseNext r i f).releaseMany r i f n

/-- Release while the expected number is held. -/
def State.releaseHeld (s : State) (r i : Nat) : Nat → State
  | 0 => s
  | n + 1 => if (s.heldAt r i (s.rxSt r i RXF_STATUS.e)).isSome then (s.releaseNext r i RXF_CNT.overrun).releaseHeld r i n else s

/-- Show how many segments the window holds. -/
def State.showHeld (s : State) (r i : Nat) : State := s.rxPut r i RXF_STATUS.held (min 63 (s.rxo r i).held.length)

/-- A segment enters its flow's reorder window (R331). -/
def State.enterWindow (s : State) (r i : Nat) (h : RxHeld) : State :=
  let q := h.seg.seq % 65536
  let st := s.rxSt r i RXF_STATUS.state
  if st = rxOffline ∧ h.seg.off then s
  else
    let s := if st = rxRun then s
      else ((s.rxPut r i RXF_STATUS.e q).rxPut r i RXF_STATUS.state rxRun).setRxo r i (fun o => { o with held := [] })
    let d := (q + 65536 - s.rxSt r i RXF_STATUS.e) % 65536
    if 32768 ≤ d ∨ (s.heldAt r i q).isSome then s.rxCount r i RXF_CNT.dup
    else
      let s := s.releaseMany r i RXF_CNT.overrun (d - 63)
      let s := s.setRxo r i (fun o => { o with held := o.held ++ [{ h with seg := { h.seg with seq := q } }] })
      (s.releaseHeld r i 65).showHeld r i

/-- An arrival for a flow waits in the same DP cycle, for which `p` holds (R341: arrival first). -/
def State.arrivalAhead (s : State) (r i : Nat) (p : Nat → Bool) : Bool :=
  s.pending.any (fun c => match c with
    | .segmentReceive m x => decide (fylRegion m = r ∧ x.seg.flow = i ∧ x.seg.crc = crc16 (segHeader x.seg)) && p x.seg.seq
    | _ => false)

/-- REORDER_TIMEOUT (R332; R341: not in the cycle in which segment e, or one beyond the window, arrives): the numbers from e up to the lowest held are released as lost, then what is held behind them. -/
def State.reorderTimeout (s : State) (r i : Nat) : State :=
  let e := s.rxSt r i RXF_STATUS.e
  let ds := (s.rxo r i).held.map (fun h => (h.seg.seq + 65536 - e) % 65536)
  match ds with
  | d :: rest =>
    if s.rxSt r i RXF_STATUS.state = rxRun ∧
        s.arrivalAhead r i (fun q => decide (q % 65536 = e ∨ (64 ≤ (q + 65536 - e) % 65536 ∧ (q + 65536 - e) % 65536 < 32768))) = false then
      ((s.releaseMany r i RXF_CNT.timeouts (rest.foldl min d)).releaseHeld r i 65).showHeld r i
    else s
  | [] => s

/-- FLOW_ABSENT (R334; R341: a segment of the same DP cycle arrives first). -/
def State.flowAbsent (s : State) (r i : Nat) : State :=
  if s.rxF r i RXF_CFG.valid ≠ 0 ∧ s.rxSt r i RXF_STATUS.state = rxRun ∧ s.arrivalAhead r i (fun _ => true) = false then
    ((((s.rxPut r i RXF_STATUS.state rxAbsent).setRxo r i (fun o => { o with held := [] })).showHeld r i).ev (pgFyr r) 1)
  else s

/-- A receive flow starts IDLE at adoption (R323). -/
def State.rxStart (s : State) (r i : Nat) : State :=
  ({ s with flowOuts := s.flowOuts.erase (rxKey r i) }).setEntry (pgFyr r) T_RXF_STATUS i 0

/-! ### Receiving segments -/

/-- The kind and length that a flow segment's type states; none for the offline marker. -/
def typeForm (typ : Nat) : Option (Nat × Nat) :=
  if typ ≤ 3 then some (0, 0) else if typ = 4 then some (0, 1) else if typ = 5 then some (1, 0) else if typ = 6 then some (1, 1)
  else none

/-- Free the units of a segment (R329). -/
def State.freeUnits (s : State) (m cls typ : Nat) : State :=
  s.setFyl m (fun x => if cls = 0 then { x with freed0 := (x.freed0 + segCost typ) % 65536 }
    else { x with freed1 := (x.freed1 + segCost typ) % 65536 })

/-- A flow segment that passed delineation (R317, R322, R330, R336). -/
def State.takeSegment (s : State) (m : Nat) (x : SegRx) : State :=
  let r := fylRegion m
  let g := x.seg
  let s := s.freeUnits m (g.cls % 2) g.typ
  if 8 ≤ g.typ then s.count (pgFyl m) FYL_TYPE_ERR
  else if s.regionOff r ∨ !s.datapath r ∨ !s.carriesFlows m then s
  else if 8192 ≤ g.flow ∨ s.rxF r g.flow RXF_CFG.valid = 0 then
    (((s.count (pgFyr r) FYR_UNKNOWN_count).wr (pgFyr r) FYR_LAST_UNKNOWN_link (fylIndex m)).wr (pgFyr r) FYR_LAST_UNKNOWN_flow g.flow).ev
      (pgFyr r) 3
  else
    let i := g.flow
    let want := (s.rxF r i RXF_CFG.kind, s.rxF r i RXF_CFG.short)
    if (typeForm g.typ).getD want ≠ want then (s.rxCount r i RXF_CNT.kind_err).ev (pgFyr r) 4
    else
      let s := if g.off then s.rxCount r i RXF_CNT.offline else s
      let leg := if x.uncorr ∧ g.leg = legOk then legSuspect else g.leg % 4
      s.enterWindow r i ⟨{ g with leg := leg }, x.repl, x.use⟩

/-- The identifier of the peer (R306; LINK_CFG). -/
def State.judgeId (s : State) (m id : Nat) : State :=
  let bad := decide (s.linkF m LINK_CFG.id_chk ≠ 0) && decide (id ≠ s.linkF m LINK_CFG.expect_id)
  let was := s.rdb (pgFyl m) FYL_STATUS_id_mismatch
  (s.wrb (pgFyl m) FYL_STATUS_id_mismatch bad).evWhen (bad && !was) (pgFyl m) fylIdMismatch

/-- The peer's state of a link, and what it reports failed (R337, item 5). -/
def State.peerState (s : State) (m lstate : Nat) : State :=
  let s := s.wr (pgFyl m) FYL_STATUS_peer_lstate lstate
  if lstate % 4 = lsDown then s.failLink m else s

def State.peerReport (s : State) (m rf : Nat) : State :=
  let r := fylRegion m
  if rf < 12 then
    let k := 12 * r + rf
    let was := s.rdb (pgFyl k) FYL_STATUS_peer_fail
    ((s.wrb (pgFyl k) FYL_STATUS_peer_fail true).evWhen (!was) (pgFyl k) fylPeerFail).failLink k
  else s.each (regionLinks r) (fun s k => s.wrb (pgFyl k) FYL_STATUS_peer_fail false)

/-- Two bytes of a payload, most significant first. -/
def pay16 (p : List Byte) (k : Nat) : Nat := (p.getD k 0).toNat * 256 + (p.getD (k + 1) 0).toNat

/-- The fields of an idle segment (Table FYB-7, R328). -/
def State.takeIdle (s : State) (m : Nat) (p : List Byte) : State :=
  let s := s.setFyl m (fun x => { x with lim0 := pay16 p 4, lim1 := pay16 p 6, ret0 := pay16 p 8, ret1 := pay16 p 10 })
  (s.wrb (pgFyl m) FYL_STATUS_credits_valid true).judgeId m (pay16 p 0)

/-- Segments reach the receive side: the link is aligned, or was until this very cycle (R341), or loops its own back above the lanes
(R344). -/
def State.linkBrings (s : State) (m : Nat) : Bool :=
  s.linkAligned m || decide ((s.fyl m).unalignAt = s.dpCycle + 1 ∨ (s.fyl m).lbEff = 3)

/-- SEGMENT_RECEIVE (R319, R328 to R331): what stands at the expected position, or begins a block with H = 1 in HUNT. A
segment whose header completes as the link fails is taken; later ones are not (R341). -/
def State.segmentReceive (s : State) (m : Nat) (x : SegRx) : State :=
  let pg := pgFyl m
  if s.linkRuns m && s.linkBrings m then
    let g := x.seg
    if g.crc ≠ crc16 (segHeader g) then
      if s.linkSync m then
        (((s.wrb pg FYL_STATUS_sync false).count pg FYL_HDR_CRC).count pg FYL_HUNT).ev pg fylDelinLost
      else s
    else
      let s := (s.wrb pg FYL_STATUS_sync (decide ((s.fyl m).unalignAt ≠ s.dpCycle + 1))).count pg FYL_RX_SEG
      let wasFailed := s.linkFailed m && decide ((s.fyl m).failAt ≠ s.dpCycle + 1)
      let s := s.setFyl m (fun l => if g.ccls = 0 then { l with ret0 := g.credit % 65536 } else { l with ret1 := g.credit % 65536 })
      let s := if g.typ = 0 then s.takeIdle m g.payload
        else if wasFailed then s.freeUnits m (g.cls % 2) g.typ
        else s.takeSegment m x
      ((s.peerState m g.lstate).peerReport m g.rxFail).showCredit m
  else s

/-- Credit fields that arrive in the same DP cycle count in it (R341): those of the segments that wait in the queue. -/
def State.creditAhead (s : State) (m : Nat) : State :=
  s.each s.pending (fun s c => match c with
    | .segmentReceive k x =>
      if k = m ∧ s.linkBrings m ∧ x.seg.crc = crc16 (segHeader x.seg) then
        s.setFyl m (fun l => if x.seg.ccls = 0 then { l with ret0 := x.seg.credit % 65536 } else { l with ret1 := x.seg.credit % 65536 })
      else s
    | _ => s)

/-- SEGMENT_SLOT (R327): one slot of a link. Under segment loopback the link's own receive side takes what is sent (R344);
whether a payload is a client's replacement signal is then left free where its snapshot admits it. -/
def State.segmentSlot (s : State) (m : Nat) : State :=
  if s.linkRuns m && s.linkClock m then
    let s := s.creditAhead m
    let (g, s) := match s.slotChoice m with
      | some x => s.sendFlow m x
      | none => s.sendSeg m (s.idleSeg m)
    if (s.fyl m).lbEff = 3 then
      let (b, s) := if g.snap = 0x8000 then s.free 1 else (0, s)
      s.segmentReceive m ⟨g, false, decide (b = 1), ⟨0, false, 0⟩⟩
    else s
  else s

/-! ### Lanes -/

/-- The transmitter of a lane takes its written set (R308). -/
def State.applyFyTap (s : State) (m k : Nat) : State :=
  let pg := pgFyl m
  let m1 := clampInt (-32) 0 (toSigned 8 (s.rd pg (FYL_TX_EQ_c_m1 k)))
  let p1 := clampInt (-24) 0 (toSigned 8 (s.rd pg (FYL_TX_EQ_c_p1 k)))
  if 128 - (m1.natAbs + p1.natAbs : Int) < 80 then s.wrb pg FYL_STATUS_fir_refused true
  else
    let t : FyTap := { m1 := m1, p1 := p1, swing := min 20 (s.rd pg (FYL_TX_EQ_swing k)), inv := s.rdb pg (FYL_TX_EQ_tx_inv k) }
    (s.wrb pg FYL_STATUS_fir_refused false).setFyl m (fun x => { x with taps := x.taps.set {} k t })

/-- A write of FYL_TX_EQk. -/
def State.writeFyTap (s : State) (m k v : Nat) : State :=
  let pg := pgFyl m
  ((((s.wr pg (FYL_TX_EQ_tx_inv k) (getBits v 31 31)).wr pg (FYL_TX_EQ_swing k) (getBits v 28 24)).wr pg (FYL_TX_EQ_c_p1 k)
    (getBits v 15 8)).wr pg (FYL_TX_EQ_c_m1 k) (getBits v 7 0)).applyFyTap m k

/-- Put bit k of an eight-bit lane field. -/
def State.laneBit (s : State) (m : Nat) (f : Field) (k : Nat) (b : Bool) : State :=
  let v := s.rd (pgFyl m) f
  s.wr (pgFyl m) f (if b then v ||| 2 ^ k else v &&& (255 - 2 ^ k))

/-- The gain, the CDR, the ADC's latest sample and the FFE of a lane move, by amounts the spec does not give (R310). -/
def State.fylFront (s : State) (m k : Nat) : State :=
  let (g, s) := s.free 16
  let (c, s) := s.free 16
  let (a, s) := s.free 7
  let (v, s) := s.free 32
  s.setFyRx m k (fun x => { x with vga := g, cdr := c, adc := a, ffe := (ffeStep x.ffe v).take 15 })

/-- Start-up adaptation of a lane sets its receiver chain (R310), to values the spec does not give. -/
def State.fylTrain (s : State) (m k : Nat) : State :=
  let (c, s) := s.free 4
  let (d, s) := s.free 8
  let (v, s) := s.free 180
  (s.setFyRx m k (fun x => { x with ctle := c, dfe := d, ffe := (ffeSet v).take 15 })).fylFront m k

/-- Start-up adaptation of a link completes (R310): every lane has signal and its unit runs. -/
def State.fylAdaptDone (s : State) (m : Nat) : State :=
  if s.linkRuns m && s.linkClock m && decide (s.rd (pgFyl m) FYL_STATUS_sig_det = 255) then
    (s.each (List.range 8) (fun s k => s.fylTrain m k)).setFyl m (fun x => { x with trained := true })
  else s

/-- Loss of signal on a Fybry lane (R309, R337). -/
def State.fybryLos (s : State) (m k : Nat) : State :=
  if s.linkRuns m && bit (s.rd (pgFyl m) FYL_STATUS_sig_det) k then
    ((s.laneBit m FYL_STATUS_sig_det k false).ev (pgFyl m) fylLos).failLink m
  else s

def State.fybrySignal (s : State) (m k : Nat) : State :=
  if s.linkRuns m then s.laneBit m FYL_STATUS_sig_det k true else s

/-- The largest skew tolerated: 120 ns in steps of 0.5 ns (R315). -/
def fylSkewLimit : Nat := 240

/-- The link leaves alignment. -/
def State.unalign (s : State) (m : Nat) : State :=
  let pg := pgFyl m
  if s.linkAligned m then
    ((((s.wrb pg FYL_STATUS_aligned false).wrb pg FYL_STATUS_sync false).wrb pg FYL_SKEW_valid false).setFyl m (fun x =>
      { x with unalignAt := s.dpCycle + 1 })).ev pg fylAligned
  else s

/-- The eight lanes all have marker lock on distinct logical lanes. -/
def State.lanesLocked (s : State) (m : Nat) : Bool :=
  let x := s.fyl m
  decide (s.rd (pgFyl m) FYL_STATUS_lane_lock = 255) &&
  (List.range 8).all (fun k => (List.range 8).any (fun j => decide (x.logical.get 0 j = k + 1)))

/-- Judge alignment when every lane has marker lock (R314, R315): an aligned link starts in HUNT without credits. -/
def State.judgeAlign (s : State) (m : Nat) : State :=
  let pg := pgFyl m
  if s.lanesLocked m then
    let lags := (List.range 8).map (fun k => (s.fyl m).lags.get 0 k)
    let skew := lags.foldl max 0 - lags.foldl min (lags.headD 0)
    if fylSkewLimit < skew then ((s.unalign m).ev pg fylSkew).failLink m
    else
      let s := (s.wr pg FYL_SKEW_skew (min 1023 skew)).wrb pg FYL_SKEW_valid true
      if s.linkAligned m then s
      else
        let s := ((s.wrb pg FYL_STATUS_aligned true).wrb pg FYL_STATUS_sync false).wrb pg FYL_STATUS_credits_valid false
        ((s.setFyl m (fun x => { x with lim0 := 0, lim1 := 0 })).showCredit m).ev pg fylAligned
  else s

/-- What a valid alignment marker says: logical lane, link_id, lstate. -/
structure MarkerFields where
  logical : Nat
  linkId : Nat
  lstate : Nat
  deriving DecidableEq, Repr

/-- A marker from its 257 bits; none when it is not valid (R313). -/
def readMarker (bits : List Bool) : Option MarkerFields :=
  let b := cutBits 8 32 (bits.drop 1)
  let x : MarkerFields := ⟨b.getD 6 0 % 8, b.getD 8 0 * 256 + b.getD 9 0, b.getD 10 0 % 4⟩
  if bits.headD true = false ∧ b = markerBytes x.logical x.linkId x.lstate then some x else none

/-- A received marker, as it is or inverted (R314): its fields and whether the lane arrives inverted. -/
def findMarker (levels : List Nat) : Option (MarkerFields × Bool) :=
  let read (inv : Bool) := readMarker ((unPam4 (invertLevels inv (levels.take 129))).take 257)
  match read false with
  | some x => some (x, false)
  | none => (read true).map (fun x => (x, true))

/-- What reaches the receiver while a marker is looked for: in near loopback the lane's own levels. -/
def State.fylSeen (s : State) (m k : Nat) (levels : List Nat) : List Nat :=
  if (s.fyl m).lbEff = 1 then (s.fyl m).loop.get [] k else levels

/-- MARKER_LOCK of physical lane k (R313 to R315): its second valid marker in a row; the marker's codeword is the first of 4,096. -/
def State.markerLock (s : State) (m k : Nat) (x : Marker) : State :=
  if s.linkRuns m && (s.fyl m).trained then
    match findMarker (s.fylSeen m k x.levels) with
    | some (f, inv) =>
      let s := (s.laneBit m FYL_STATUS_lane_lock k true).setFyl m (fun l => { l with
        logical := l.logical.set 0 k (f.logical + 1), lags := l.lags.set 0 k x.lag, recent := l.recent.set [] k [] })
      let s := s.setFyRx m k (fun y => { y with inv := inv, cw := 0, scr := 0, blocks := [], bad := false })
      ((s.judgeId m f.linkId).judgeAlign m).peerState m f.lstate
    | none => s
  else s

/-- A lane loses marker lock (R314, R337). -/
def State.markerLost (s : State) (m k : Nat) : State :=
  if bit (s.rd (pgFyl m) FYL_STATUS_lane_lock) k then
    (((s.laneBit m FYL_STATUS_lane_lock k false).setFyl m (fun l => { l with logical := l.logical.set 0 k 0 })).unalign m).failLink m
  else s

/-- Uncorrectable codewords that fail a link (R337). -/
def State.failCount (s : State) (m : Nat) : Nat := max 1 (s.linkF m LINK_CFG.fail_cnt)

/-- A lane of the link has reached fail_cnt uncorrectable codewords within its last 1,024. -/
def State.fecFailed (s : State) (m : Nat) : Bool :=
  (List.range 8).any (fun k => decide (s.failCount m ≤ (((s.fyl m).recent.get [] k).filter (·)).length))

/-- The blocks of a codeword's 5,140 message bits, the marker left out: header bits and descrambled bytes (R312, R313). -/
def readBlocks (scr : Nat) : Nat → List Bool → List (Bool × List Nat) × Nat
  | 0, _ => ([], scr)
  | n + 1, bits =>
    let (data, scr) := descramble scr ((bits.drop 1).take 256)
    let (l, scr) := readBlocks scr n (bits.drop 257)
    ((bits.headD false, cutBits 8 32 data) :: l, scr)

/-- What a lane's decoder makes of a received codeword (R312): the word and the symbols corrected, 16 if it could not be. -/
def State.fyDecode (s : State) (m k : Nat) (levels : List Nat) : List Nat × Nat := rsDecode (levelSymbols (s.fylReceived m k levels))

/-- The codeword's blocks go on to the link's stream; block 0 of every 4,096th is the marker (R313). -/
def State.fyPass (s : State) (m k : Nat) (word : List Nat) (bad : Bool) : State :=
  let x := s.fyRx m k
  let bits := streamBits 10 (word.take 514)
  let lead := if x.cw = 0 then 1 else 0
  let (bl, scr) := readBlocks x.scr (20 - lead) (bits.drop (257 * lead))
  (s.setFyRx m k (fun x => { x with cw := (x.cw + 1) % 4096, scr := scr, blocks := bl, bad := bad })).fylFront m k

/-- FYBRY_CODEWORD_DECODE (R312, R337, R348): a codeword of a lane with marker lock; far loopback sends it on (R344). -/
def State.fybryCodeword (s : State) (m k : Nat) (levels : List Nat) : State :=
  let pg := pgFyl m
  if s.linkRuns m && bit (s.rd pg FYL_STATUS_lane_lock) k && decide ((levelSymbols (s.fylReceived m k levels)).length = 544) then
    let y := s.fyDecode m k levels
    let n := y.2
    let s := if (s.fyl m).lbEff = 2 ∧ s.linkClock m then s.emit (.fybryLine m k levels) else s
    let s := s.fyPass m k y.1 (decide (n = 16))
    let s := s.count pg FYL_CW
    let s := if n = 16 then s.count pg FYL_UNCORR_CW else s.count pg FYL_CORR_SYM n
    let s := s.setFyl m (fun x => { x with recent := x.recent.upd [] k (fun l => (decide (n = 16) :: l).take 1024) })
    if n = 16 ∧ s.fecFailed m then s.failLink m else s
  else s

/-- LINK_FAIL (R337): a failure condition of a link holds. -/
def State.linkFail (s : State) (m : Nat) (c : FailCause) : State :=
  let pg := pgFyl m
  let holds := match c with
    | .los => decide (s.rd pg FYL_STATUS_sig_det ≠ 255)
    | .cdr => s.linkRuns m
    | .fec => s.fecFailed m
    | .delin => s.linkAligned m && !s.linkSync m
    | .marker => !s.linkAligned m
    | .peer => s.rdb pg FYL_STATUS_peer_fail || decide (s.rd pg FYL_STATUS_peer_lstate = lsDown)
    | .clock => !s.linkClock m
  if holds then s.failLink m else s

/-- Every link timed from unit FGg fails with it (R337, item 7). -/
def State.failClock (s : State) (g : Nat) : State := s.each ((List.range 6).map (6 * g + ·)) State.failLink

/-- PAGE_CTRL.run of a link changes (R310): stopped, its lanes lose lock and the link fails. -/
def State.fylRunChange (s : State) (m : Nat) (on : Bool) : State :=
  if on then s
  else
    let pg := pgFyl m
    let had := decide (s.rd pg FYL_STATUS_lane_lock ≠ 0)
    let s := (s.wr pg FYL_STATUS_lane_lock 0).wr pg FYL_STATUS_sig_det 0
    let s := (s.setFyl m (fun x => { x with trained := false, logical := [], lags := [], recent := [], prbsLock := 0 })).unalign m
    if had then s.failLink m else s

/-! ### Tests -/

/-- Tests may take effect on a link (R345). -/
def State.fylTestOk (s : State) (m : Nat) : Bool :=
  decide (s.mode = modeRehearsal ∨ s.mode = modeAudit) || (isServiceMode s.mode && decide (s.linkRole m = 0))

/-- Bring a link's test settings into effect where it is eligible (R344, R345). -/
def State.applyFylTest (s : State) (m : Nat) : State :=
  let pg := pgFyl m
  let lb := s.rd pg FYL_TEST_lb
  let pat := s.rd pg FYL_TEST_pattern
  let acts := decide (pat = 2 ∨ pat = 5 ∨ pat = 6)
  let lanes := s.rd pg FYL_TEST_lanes
  let gen := if acts ∧ s.rdb pg FYL_TEST_gen_en then lanes else 0
  let chk := if acts ∧ s.rdb pg FYL_TEST_chk_en then lanes else 0
  let ok := s.fylTestOk m
  let wants := decide (lb ≠ 0 ∨ gen ≠ 0 ∨ chk ≠ 0)
  let (lb', gen', chk') := if ok then (lb, gen, chk) else (0, 0, 0)
  let s := s.setFyl m (fun x => { x with
    lbEff := lb', genEff := gen', chkEff := chk', patEff := pat, prbsLock := if x.patEff = pat then x.prbsLock &&& chk' else 0 })
  let s := s.each (List.range 8) (fun s k => s.setPrbs (fyPrbs m k) (fun x =>
    { gen := if bit gen' k then x.gen else 0, chk := if bit (s.fyl m).prbsLock k then x.chk else {} }))
  (s.wrb pg FYL_STATUS_test_refused (wants && !ok)).showFyt (fylRegion m)

def State.applyFylTests (s : State) : State := s.each (List.range 96) State.applyFylTest

/-- A write of FYL_TEST: the settings, each lane's error count cleared when its checker is switched on, the injection. -/
def State.writeFylTest (s : State) (m v : Nat) : State :=
  let pg := pgFyl m
  let rise := bit v 5 && !s.rdb pg FYL_TEST_chk_en
  let s := ((((s.wr pg FYL_TEST_lanes (getBits v 15 8)).wr pg FYL_TEST_lb (getBits v 7 6)).wr pg FYL_TEST_chk_en (getBits v 5 5)).wr pg
    FYL_TEST_gen_en (getBits v 4 4)).wr pg FYL_TEST_pattern (getBits v 3 0)
  let s := if rise then s.each (List.range 8) (fun s k => s.wr pg (FYL_PRBS_ERR k) 0) else s
  let s := s.applyFylTest m
  if bit v 16 then
    s.each ((List.range 8).filter (fun k => bit (s.fyl m).genEff k)) (fun s k =>
      let (data, s) := s.genLevels (fyPrbs m k) (s.fyl m).patEff 64
      let s := s.emit (.fybryBitInverted m k)
      let bad := injectBit data
      let s := if (s.fyl m).lbEff = 1 then s.setFyl m (fun x => { x with loop := x.loop.set [] k bad }) else s
      if (s.fyl m).lbEff ≠ 2 ∧ s.linkRuns m ∧ s.linkClock m then
        s.emit (.fybryLine m k (invertLevels ((s.fyl m).taps.get {} k).inv bad)) else s)
  else s

/-- What the checker of a Fybry lane makes of the levels that reach its receiver. -/
def State.fybryCheck (s : State) (m k : Nat) (levels : List Nat) : PrbsChk × Nat × Bool :=
  prbsRun (s.fyl m).patEff (s.prbsOf (fyPrbs m k)).chk (s.fylReceived m k levels)

/-- Symbols of a test pattern at the checker of a Fybry lane (R116, R344). -/
def State.fybryPrbs (s : State) (m k : Nat) (levels : List Nat) : State :=
  if s.linkRuns m && bit (s.fyl m).chkEff k && decide (k < 8) then
    let y := s.fybryCheck m k levels
    let s := s.setPrbs (fyPrbs m k) (fun x => { x with chk := y.1 })
    let lock := (s.fyl m).prbsLock
    let s := s.setFyl m (fun x => { x with prbsLock := if y.1.locked then lock ||| 2 ^ k else lock &&& (255 - 2 ^ k) })
    (s.count (pgFyl m) (FYL_PRBS_ERR k) y.2.1).evWhen y.2.2 (pgFyl m) fylPrbsLost
  else s

/-! ### The commands -/

/-- LOS on a line or Fybry lane (R93, R309). -/
def execLos (l : LaneRef) := run (fun s => match l with
  | .line n => s.lineLos n
  | .fybry m k => s.fybryLos m k)
def execSignalDetect (l : LaneRef) := run (fun s => match l with
  | .line n => s.lineSignal n
  | .fybry m k => s.fybrySignal m k)
def execPrbsLock (l : LaneRef) (levels : List Nat) := run (fun s => match l with
  | .line n => s.linePrbs n levels
  | .fybry m k => s.fybryPrbs m k levels)
def execPrbsLockLost (l : LaneRef) (levels : List Nat) := run (fun s => match l with
  | .line n => s.linePrbs n levels
  | .fybry m k => s.fybryPrbs m k levels)
def execFylTxEqWrite (m k v : Nat) := run (fun s => s.writeFyTap m k v)
def execMarkerLockLost (m k : Nat) := run (fun s => s.markerLost m k)
def execSegmentReceive (m : Nat) (x : SegRx) := run (fun s => s.segmentReceive m x)
def execSegmentSlot (m : Nat) := run (fun s => s.segmentSlot m)
def execSegmentComplete (r i : Nat) (d : SegDone) := run (fun s => s.segmentComplete r i d)
def execReorderTimeout (r i : Nat) := run (fun s => s.reorderTimeout r i)
def execFlowAbsent (r i : Nat) := run (fun s => s.flowAbsent r i)
def execLinkFail (m : Nat) (c : FailCause) := run (fun s => s.linkFail m c)
def execFylFail (m : Nat) := run (fun s => s.failLink m)
def execFylRestore (m : Nat) := run (fun s => s.restoreLink m)
def execFybryCodewordDecode (m k : Nat) (levels : List Nat) := run (fun s => s.fybryCodeword m k levels)

end Sys2Proof.Machine
end

