-- ==== Sys2Proof/Machine/Ohq.lean ====
section
/-! DEFINITION. Overhead channels with their packet queues, and check units (file 10, R350 to R379). -/

namespace Sys2Proof.Machine

open Sys2Proof

/-- Where a requester's state of a page stands: a box that does not own the page comes through its proxy, which keeps its
own (file 13, R451). -/
def reqPage (pg : Nat) (w : Who) : Nat :=
  if w.master = .host ∧ w.proxy then pxPage pg w.box else rqPage pg w.master

/-! ### Channels -/

/-- Event bits of the OHQ page (R371). -/
def ohqReady : Nat := 0
def ohqInsEmpty : Nat := 1
def ohqLostEv : Nat := 2
def ohqPoison : Nat := 3
def ohqCmdDone : Nat := 4
def ohqMisroute : Nat := 5

/-- The row of channel i of region r: dir 0 capture, 1 insertion. -/
def State.chF (s : State) (r dir i : Nat) (f : TField) : Nat := s.effF (pgOhq r) (if dir = 0 then T_CAP_CFG else T_INS_CFG) i f
def State.chB (s : State) (r dir i : Nat) (f : TField) : Bool := decide (s.chF r dir i f ≠ 0)
def State.chValid (s : State) (r dir i : Nat) : Bool := decide (i < 512) && s.chB r dir i CHN.valid
def State.chMode (s : State) (r dir i : Nat) : Nat := s.chF r dir i CHN.mode
def mHdlc : Nat := 0
def mRaw : Nat := 1
def mAps : Nat := 2

def chKey (r i : Nat) : Nat := 512 * r + i
def State.cap (s : State) (r i : Nat) : CapQ := s.caps.get {} (chKey r i)
def State.setCap (s : State) (r i : Nat) (f : CapQ → CapQ) : State := { s with caps := s.caps.upd {} (chKey r i) f }
def State.ins (s : State) (r i : Nat) : InsQ := s.inss.get {} (chKey r i)
def State.setIns (s : State) (r i : Nat) (f : InsQ → InsQ) : State := { s with inss := s.inss.upd {} (chKey r i) f }
def State.capCount (s : State) (r i : Nat) (f : TField) (n : Nat := 1) : State := s.tcount (pgOhq r) T_CAP_CNT i f n
def State.insCount (s : State) (r i : Nat) (f : TField) (n : Nat := 1) : State := s.tcount (pgOhq r) T_INS_CNT i f n

/-- L, the longest packet (R354). -/
def State.chLen (s : State) (r dir i : Nat) : Nat :=
  let m := s.chMode r dir i
  if m = mHdlc then s.chF r dir i CHN.max_len else if m = mRaw then s.chF r dir i CHN.raw_len_m1 + 1 else 4

/-- Words of the ring (R360). -/
def State.chWords (s : State) (r dir i : Nat) : Nat := s.chF r dir i CHN.size * 256

/-- Bytes of an HDLC frame check sequence (R357). -/
def fcsLen (fcs : Nat) : Nat := if fcs = 0 then 2 else if fcs = 1 then 4 else 0

/-- The box that owns a channel (R352). -/
def State.chOwner (s : State) (r dir i : Nat) : Nat :=
  let B := 8 * r + s.chF r dir i CHN.blk
  if s.chF r dir i CHN.src = 0 then s.pageOwner (pgOtu (16 * B + s.chF r dir i CHN.idx))
  else s.ownBox (s.ctxGroup B dir (s.chF r dir i CHN.idx))

/-- A requester may use a channel (OHQ_RD, OHQ_WR). -/
def State.chOwned (s : State) (w : Who) (r dir i : Nat) : Bool := !decide (w.master = .host) || decide (s.chOwner r dir i = w.box)

/-! ### Words in use and status -/

/-- Words that the packet being captured holds: the header slot and its data so far (R362). -/
def partWords (lim : Nat) (x : CapQ) : Nat := if x.buf = [] ∨ x.drop then 0 else 1 + (min x.buf.length lim + 2) / 3

def capUsed (lim : Nat) (x : CapQ) : Nat := (x.done.map (fun p => 1 + p.words.length)).sum + x.cur.length + partWords lim x
def insUsed (x : InsQ) : Nat := (x.done.map List.length).sum + x.cur.length + x.wr.length

/-- Bytes of a packet being captured that take words: up to L, and the FCS where it is kept. -/
def State.capLim (s : State) (r i : Nat) : Nat :=
  s.chLen r 0 i + (if s.chB r 0 i CHN.keep_fcs ∧ s.chMode r 0 i = mHdlc then fcsLen (s.chF r 0 i CHN.fcs) else 0)

/-- An entry of Table OHQ-9. -/
def chStatus (used packets : Nat) (inside writing flush : Bool) (writer : Nat) : Nat :=
  used % 2 ^ 19 + min packets 8191 * 2 ^ 19 + b2n inside * 2 ^ 32 + b2n writing * 2 ^ 33 + b2n flush * 2 ^ 34 + writer % 16 * 2 ^ 35

/-- Bring a channel's status up to date (R371). -/
def State.showCap (s : State) (r i : Nat) : State :=
  let x := s.cap r i
  let pg := pgOhq r
  let s := s.setEntry pg T_CAP_STATUS i (chStatus (capUsed (s.capLim r i) x) x.done.length x.inside (decide (x.buf ≠ []) && !x.drop)
    x.flush.isSome 0xF)
  let f := OHQ_READY_ready (i / 32)
  let v := s.rd pg f
  let b := 2 ^ (i % 32)
  s.wr pg f (if x.done.isEmpty then v &&& (2 ^ 32 - 1 - b) else v ||| b)

def State.showIns (s : State) (r i : Nat) : State :=
  let x := s.ins r i
  s.setEntry (pgOhq r) T_INS_STATUS i (chStatus (insUsed x) x.done.length x.inside (x.writer.isSome && !x.skip) x.flush.isSome
    (x.writer.getD 0xF))

/-- A packet is lost for want of space (R366, R367). -/
def State.ohqLost (s : State) (r : Nat) : State := (s.count (pgOhq r) OHQ_LOST).ev (pgOhq r) ohqLostEv

/-- A poisoned word is met (R363). -/
def State.poisonMet (s : State) (r dir i : Nat) : State :=
  let s := if dir = 0 then s.capCount r i CAP_CNT.poison else s.insCount r i INS_CNT.poison
  (s.ev (pgOhq r) ohqPoison).report clsPoison 1 (srcRgnCell r (if dir = 0 then kindCap else kindIns) i)

/-- A flush covers one packet fewer when the oldest is freed. -/
def flushLess (f : Option (Nat × List Nat)) : Option (Nat × List Nat) := f.map (fun x => (x.1 - 1, x.2))

/-! ### Capture -/

/-- A read of a capture queue waits that comes in this very cycle (R370). -/
def State.readSoon (s : State) (r i : Nat) : Bool :=
  s.pending.any (fun c => match c with
    | .ohqRdRead w r' => decide (r' % 8 = r) && !s.rdb (reqPage (pgOhq r) w) OHQ_SEL_dir && decide (s.rd (reqPage (pgOhq r) w) OHQ_SEL_ch = i) &&
      s.chOwned w r 0 i
    | _ => false)

/-- The complete packets that the reader enters before anything else of this cycle (R370). -/
def State.enterSoon (s : State) (r i : Nat) : Nat := if !(s.cap r i).inside && s.readSoon r i then 1 else 0

/-- Take the k-th item out of a list. -/
def dropAt {α : Type} (k : Nat) (l : List α) : List α := l.take k ++ l.drop (k + 1)

/-- Free the oldest complete packet that the reader has not entered (R366), nor enters in this cycle (R370). -/
def State.freeCap (s : State) (r i : Nat) : State :=
  let k := s.enterSoon r i
  ((s.setCap r i (fun x => { x with done := dropAt k x.done, flush := flushLess x.flush, lostBefore := true })).capCount r i
    CAP_CNT.lost).ohqLost r

/-- Make room for the packet being captured, freeing the oldest; with nothing to free, discard it (R366). -/
def State.makeRoom (s : State) (r i : Nat) : Nat → State
  | 0 => s
  | n + 1 =>
    let x := s.cap r i
    if capUsed (s.capLim r i) x ≤ s.chWords r 0 i then s
    else if x.done.length ≤ s.enterSoon r i then
      let s := s.setCap r i (fun x => { x with
        drop := decide (s.chMode r 0 i ≠ mAps), skip := s.chLen r 0 i - x.buf.length, buf := [], lostBefore := true })
      (s.capCount r i CAP_CNT.lost).ohqLost r
    else (s.freeCap r i).makeRoom r i n

/-- Payload bytes as data words (Table OHQ-5). -/
def dataWords : List Nat → List (Nat × Bool)
  | a :: b :: c :: l => (3 * 2 ^ 24 + a % 256 * 65536 + b % 256 * 256 + c % 256, false) :: dataWords l
  | [a, b] => [(2 * 2 ^ 24 + a % 256 * 65536 + b % 256 * 256, false)]
  | [a] => [(2 ^ 24 + a % 256 * 65536, false)]
  | [] => []

/-- A packet just completed joins a FLUSH of the same cycle (R370): it is discarded with those that the FLUSH took, or the pending
FLUSH covers it too. -/
def State.flushJoinsCap (s : State) (r i : Nat) : State :=
  let x := s.cap r i
  if x.flushAt = s.dpCycle + 1 then
    match x.flush with
    | some (_, who) => s.setCap r i (fun x => { x with flush := some (x.done.length, who) })
    | none => (s.setCap r i (fun x => { x with done := x.done.dropLast })).capCount r i CAP_CNT.cut
  else s

/-- A packet is delivered to its queue (R362), its owner's BOX page told (file 13, R468); flags are bits 22 to 20 of the header word. -/
def State.deliver (s : State) (r i : Nat) (payload : List Nat) (trunc abort bad : Bool) : State :=
  let first := (s.cap r i).done.isEmpty
  let p : Pkt := { hdr := b2n trunc * 2 ^ 22 + b2n abort * 2 ^ 21 + b2n bad * 2 ^ 20 + payload.length % 2 ^ 14, words := dataWords payload }
  let s := s.setCap r i (fun x => { x with done := x.done ++ [p], buf := [] })
  let s := (s.capCount r i CAP_CNT.pkts).evWhen first (pgOhq r) ohqReady
  (s.evWhen (first && s.regionSpeaks r) (pgBox (s.chOwner r 0 i)) 3).flushJoinsCap r i

/-- The frame check sequence of a payload as it is sent (Table OHQ-4). -/
def fcsBytes (fcs : Nat) (reg : Nat) : List Nat :=
  if fcs = 0 then
    let v := reflect 16 reg ^^^ 0xFFFF
    [v % 256, v / 256]
  else if fcs = 1 then
    let v := reflect 32 reg ^^^ 0xFFFFFFFF
    [v % 256, v / 256 % 256, v / 65536 % 256, v / 16777216]
  else []

/-- The check register before any byte, and after bytes. -/
def fcsInit (fcs : Nat) : Nat := if fcs = 0 then 0xFFFF else 0xFFFFFFFF
def fcsFeed (fcs reg : Nat) (bytes : List Nat) : Nat :=
  if fcs = 0 then crcBits 16 0x1021 reg (bytes.flatMap (bitsLsb 8)) else crcBits 32 0x04C11DB7 reg (bytes.flatMap (bitsLsb 8))

/-- An HDLC frame ends at a flag, or aborted (R357). -/
def State.endFrame (s : State) (r i : Nat) (aborted : Bool) : State :=
  let b := (s.cap r i).buf
  let fcs := s.chF r 0 i CHN.fcs
  let fl := fcsLen fcs
  let max := s.chLen r 0 i
  let bad := s.chB r 0 i CHN.deliver_bad
  let s' := s.setCap r i (fun x => { x with buf := [] })
  if aborted then
    let s := s.capCount r i CAP_CNT.aborts
    let trunc := decide (max < b.length)
    if bad ∧ b ≠ [] then (s.when trunc (fun s => s.capCount r i CAP_CNT.trunc)).deliver r i (b.take max) trunc true false
    else s'.capCount r i CAP_CNT.aborts
  else if b.length < fl + 1 then s'.capCount r i CAP_CNT.runts
  else
    let pay := b.take (b.length - fl)
    let ok := decide (fl = 0) || decide (fcsBytes fcs (fcsFeed fcs (fcsInit fcs) pay) = b.drop (b.length - fl))
    let trunc := decide (max < pay.length)
    let s1 := if ok then s else s.capCount r i CAP_CNT.fcs_err
    if !ok ∧ !bad then s1.setCap r i (fun x => { x with buf := [] })
    else
      let s1 := if trunc then s1.capCount r i CAP_CNT.trunc else s1
      s1.deliver r i (if trunc then pay.take max else if s.chB r 0 i CHN.keep_fcs then b else pay) trunc false (!ok)

/-- A byte joins the packet being captured. -/
def State.capAppend (s : State) (r i b : Nat) : State :=
  (s.setCap r i (fun x => { x with buf := x.buf ++ [b % 256] })).makeRoom r i ((s.cap r i).done.length + 1)

/-- One byte of an HDLC channel (R357). -/
def State.capHdlc (s : State) (r i b : Nat) : State :=
  let x := s.cap r i
  if b = 0x7E then
    let s := if x.drop ∨ !x.sync then s
      else if x.esc then s.endFrame r i true
      else if x.buf = [] then s
      else s.endFrame r i false
    s.setCap r i (fun x => { x with sync := true, esc := false, drop := false, buf := [] })
  else if !x.sync ∨ x.drop then s
  else if b = 0x7D ∧ !x.esc then s.setCap r i (fun x => { x with esc := true })
  else
    let v := if x.esc then b ^^^ 0x20 else b
    (s.setCap r i (fun x => { x with esc := false })).capAppend r i v

/-- One byte of a raw channel (R359). -/
def State.capRaw (s : State) (r i b : Nat) : State :=
  let x := s.cap r i
  if x.drop then s.setCap r i (fun x => { x with skip := x.skip - 1, drop := decide (1 < x.skip) })
  else
    let s := s.capAppend r i b
    let x := s.cap r i
    if s.chLen r 0 i ≤ x.buf.length then s.deliver r i x.buf false false false
    else if x.drop ∧ x.skip = 0 then s.setCap r i (fun x => { x with drop := false })
    else s

/-- One APS message (R359). -/
def State.capAps (s : State) (r i : Nat) (msg : List Nat) : State :=
  if s.chB r 0 i CHN.aps_all ∨ (s.cap r i).last ≠ some msg then
    let s := s.setCap r i (fun x => { x with last := some msg, buf := msg })
    let s := s.makeRoom r i ((s.cap r i).done.length + 1)
    if (s.cap r i).buf = [] then s else s.deliver r i msg false false false
  else s

/-- Bytes of one frame reach a capture channel. -/
def State.capBytes (s : State) (r i : Nat) (bytes : List Nat) : State :=
  let m := s.chMode r 0 i
  let s := if m = mHdlc then s.each bytes (fun s b => s.capHdlc r i (b % 256))
    else if m = mRaw then s.each bytes (fun s b => s.capRaw r i (b % 256))
    else s.capAps r i (bytes.map (· % 256))
  s.showCap r i

/-- A frame outside the conditions of R355 ends the packet in progress. -/
def State.capBreak (s : State) (r i : Nat) : State :=
  let x := s.cap r i
  let m := s.chMode r 0 i
  let s := if m = mHdlc ∧ x.sync ∧ !x.drop ∧ (x.buf ≠ [] ∨ x.esc) then s.endFrame r i true
    else if m = mRaw ∧ x.buf ≠ [] then s.capCount r i CAP_CNT.aborts
    else s
  (s.setCap r i (fun x => { x with buf := [], sync := false, esc := false, drop := false, skip := 0 })).showCap r i

/-! ### FLUSH -/

/-- Completion of a flush: every waiting status becomes DONE (R368). -/
def State.flushDone (s : State) (r : Nat) (who : List Nat) : State :=
  (s.each who (fun s p => s.wr p OHQ_CMD_STATUS_code 0)).ev (pgOhq r) ohqCmdDone

/-- A pending FLUSH takes effect between packets (R368). -/
def State.applyFlush (s : State) (r dir i : Nat) : State :=
  if dir = 0 then
    let x := s.cap r i
    match x.flush with
    | some (n, who) =>
      if x.inside then s
      else (((s.setCap r i (fun x => { x with done := x.done.drop n, flush := none })).capCount r i CAP_CNT.cut (min n x.done.length)).flushDone
        r who).showCap r i
    | none => s
  else
    let x := s.ins r i
    match x.flush with
    | some (n, who) =>
      if x.inside then s
      else (((s.setIns r i (fun x => { x with done := x.done.drop n, flush := none })).insCount r i INS_CNT.cut (min n x.done.length)).flushDone
        r who).showIns r i
    | none => s

/-! ### Reading a capture queue -/

/-- What an empty read returns (R361). -/
def emptyWord : Nat := 0x80000000

/-- A read of OHQ_RD (R361 to R363): the word taken. -/
def State.ohqRead (s : State) (w : Who) (r : Nat) : Nat × State :=
  let rq := reqPage (pgOhq r) w
  let i := s.rd rq OHQ_SEL_ch
  if s.rdb rq OHQ_SEL_dir || !s.chValid r 0 i || !s.chOwned w r 0 i then (emptyWord, s)
  else
    let x := s.cap r i
    if x.inside then
      match x.cur with
      | (v, bad) :: rest =>
        let s := if bad then s.poisonMet r 0 i else s
        (v + b2n bad * 2 ^ 30, (s.setCap r i (fun x => { x with cur := rest, inside := decide (rest ≠ []) })).showCap r i)
      | [] => (emptyWord, s.setCap r i (fun x => { x with inside := false }))
    else
      let s := s.applyFlush r 0 i
      match (s.cap r i).done with
      | p :: rest =>
        let lb := (s.cap r i).lostBefore
        let s := if p.hdrBad then s.poisonMet r 0 i else s
        (2 ^ 28 + b2n p.hdrBad * 2 ^ 30 + b2n lb * 2 ^ 23 + p.hdr, (s.setCap r i (fun x => { x with
          done := rest, cur := p.words, inside := decide (p.words ≠ []), lostBefore := false })).showCap r i)
      | [] => (emptyWord, s)

/-! ### Commands -/

/-- OHQ_CMD_STATUS codes. -/
def ohqDone : Nat := 0
def ohqPending : Nat := 1
def ohqRefCut : Nat := 2
def ohqRefOwner : Nat := 3
def ohqRefRange : Nat := 4

/-- What refuses an OHQ_CMD operation (R368): a channel not valid, its owner, its cut field. -/
def State.ohqJudge (s : State) (w : Who) (r dir i cut : Nat) : Nat :=
  if !s.chValid r dir i then ohqRefRange
  else if !s.chOwned w r dir i then ohqRefOwner
  else if s.chF r dir i CHN.cut ≠ cut then ohqRefCut
  else ohqDone

def State.ohqStatus (s : State) (w : Who) (r code : Nat) : State := s.wr (reqPage (pgOhq r) w) OHQ_CMD_STATUS_code code

/-- FLUSH (R368): PENDING until the consumer is between packets. -/
def State.ohqFlush (s : State) (w : Who) (r dir i : Nat) : State :=
  let c := s.ohqJudge w r dir i 0
  if c ≠ ohqDone then s.ohqStatus w r c
  else
    let me := reqPage (pgOhq r) w
    let s := s.ohqStatus w r ohqPending
    let add (f : Option (Nat × List Nat)) (n : Nat) : Option (Nat × List Nat) :=
      some (n, match f with
        | some (_, l) => if l.contains me then l else l ++ [me]
        | none => [me])
    let s := if dir = 0 then (s.setCap r i (fun x => { x with flush := add x.flush x.done.length, flushAt := s.dpCycle + 1 })).showCap r i
      else (s.setIns r i (fun x => { x with flush := add x.flush x.done.length, flushAt := s.dpCycle + 1 })).showIns r i
    s.applyFlush r dir i

/-- DROP_REST (R368) on the packet that the consumer has begun; a read of the same cycle that takes its last word completes it (R370). -/
def State.dropRest (s : State) (w : Who) (r dir i : Nat) : State :=
  let c := s.ohqJudge w r dir i 1
  let s := s.ohqStatus w r c
  if c ≠ ohqDone then s
  else
    let m := s.chMode r dir i
    let s :=
      if m = mAps then s
      else if dir = 0 then
        if (s.cap r i).inside && !(s.readSoon r i && decide ((s.cap r i).cur.length ≤ 1)) then
          ((s.setCap r i (fun x => { x with cur := [], inside := false })).capCount r i CAP_CNT.cut).showCap r i
        else s
      else if (s.ins r i).inside then
        let s := (s.insCount r i INS_CNT.cut)
        if m = mHdlc then
          (((s.setIns r i (fun x => { x with
            cur := [], inside := false, body := false, ready := [0x7D, 0x7E], flags := max 1 (s.chF r 1 i CHN.min_flags) })).insCount r i
            INS_CNT.aborts_sent).showIns r i)
        else (s.setIns r i (fun x => { x with cur := [], inside := false, ready := [] })).showIns r i
      else s
    s.ev (pgOhq r) ohqCmdDone

/-! ### The transmitter -/

/-- The bytes of a stored word. -/
def wordBytes (v : Nat) : List Nat := ([getBits v 23 16, getBits v 15 8, getBits v 7 0]).take (getBits v 25 24)

/-- Byte stuffing (R358). -/
def stuff (l : List Nat) : List Nat := l.flatMap (fun b => if b = 0x7E then [0x7D, 0x5E] else if b = 0x7D then [0x7D, 0x5D] else [b])

/-- A packet has been sent. -/
def State.insSent (s : State) (r i : Nat) : State :=
  let s := s.setIns r i (fun x => { x with inside := false })
  (s.insCount r i INS_CNT.pkts).evWhen (s.ins r i).done.isEmpty (pgOhq r) ohqInsEmpty

/-- Begin the oldest committed packet, a pending FLUSH first. -/
def State.insBegin (s : State) (r i : Nat) : State :=
  let s := s.applyFlush r 1 i
  s.setIns r i (fun x => match x.done with
    | p :: rest => { x with done := rest, cur := p, inside := true, body := true, fcs := fcsInit (s.chF r 1 i CHN.fcs) }
    | [] => x)

/-- The next byte of an HDLC transmitter (R358, R363). -/
def State.hdlcByte (s : State) (r i : Nat) : Nat → Nat × State
  | 0 => (0x7E, s)
  | n + 1 =>
    let x := s.ins r i
    let fcs := s.chF r 1 i CHN.fcs
    let flags := max 1 (s.chF r 1 i CHN.min_flags)
    match x.ready with
    | b :: rest => (b, s.setIns r i (fun x => { x with ready := rest }))
    | [] =>
      if x.inside then
        match x.cur with
        | (v, bad) :: rest =>
          if bad then
            (((s.poisonMet r 1 i).setIns r i (fun x => { x with cur := [], inside := false, body := false, ready := [0x7D, 0x7E], flags := flags })).insCount
              r i INS_CNT.aborts_sent).hdlcByte r i n
          else
            let bs := wordBytes v
            (s.setIns r i (fun x => { x with cur := rest, ready := stuff bs, fcs := fcsFeed fcs x.fcs bs })).hdlcByte r i n
        | [] =>
          if x.body then (s.setIns r i (fun x => { x with body := false, ready := stuff (fcsBytes fcs x.fcs) })).hdlcByte r i n
          else ((s.insSent r i).setIns r i (fun x => { x with flags := flags })).hdlcByte r i n
      else if x.flags ≠ 0 then (0x7E, s.setIns r i (fun x => { x with flags := x.flags - 1 }))
      else
        let s := s.applyFlush r 1 i
        if (s.ins r i).done.isEmpty then (0x7E, s) else (s.insBegin r i).hdlcByte r i n

/-- The next byte of a raw transmitter (R359, R363). -/
def State.rawByte (s : State) (r i : Nat) : Nat → Nat × State
  | 0 => (s.chF r 1 i CHN.idle, s)
  | n + 1 =>
    let x := s.ins r i
    let idle := s.chF r 1 i CHN.idle
    match x.ready with
    | b :: rest =>
      let s := s.setIns r i (fun x => { x with ready := rest })
      (b, if rest = [] ∧ x.cur = [] ∧ x.inside then s.insSent r i else s)
    | [] =>
      if x.inside then
        match x.cur with
        | (v, bad) :: rest =>
          let s := if bad then s.poisonMet r 1 i else s
          (s.setIns r i (fun x => { x with
            cur := rest, ready := if bad then List.replicate (getBits v 25 24) idle else wordBytes v })).rawByte r i n
        | [] => (s.insSent r i).rawByte r i n
      else
        let s := s.applyFlush r 1 i
        if (s.ins r i).done.isEmpty then (idle, s) else (s.insBegin r i).rawByte r i n

/-- The APS position of a frame (R359, R363). -/
def State.apsBytes (s : State) (r i : Nat) : List Nat × State :=
  let s := s.applyFlush r 1 i
  match (s.ins r i).done with
  | p :: _ =>
    let s := s.setIns r i (fun x => { x with done := x.done.drop 1 })
    let bs := p.flatMap (fun x => wordBytes x.1)
    if p.any (·.2) then ((s.ins r i).msg, s.poisonMet r 1 i)
    else if bs.length ≠ 4 then ((s.ins r i).msg, s.insCount r i INS_CNT.bad_len)
    else (bs, (s.setIns r i (fun x => { x with msg := bs })).insSent r i)
  | [] => ((s.ins r i).msg, s)

/-- Steps that bound the search for a byte: every word left, and the changes between packets. -/
def insFuel (x : InsQ) : Nat := x.cur.length + (x.done.map List.length).sum + 3 * x.done.length + 6

/-- `n` bytes of an insertion channel, in order. -/
def State.takeBytes (s : State) (r i : Nat) : Nat → List Nat × State
  | 0 => ([], s)
  | n + 1 =>
    let (b, s) := if s.chMode r 1 i = mHdlc then s.hdlcByte r i (insFuel (s.ins r i)) else s.rawByte r i (insFuel (s.ins r i))
    let (l, s) := s.takeBytes r i n
    (b :: l, s)

/-- The bytes that an insertion channel gives a frame (R356). -/
def State.insBytes (s : State) (r i n : Nat) : List Nat × State :=
  let (l, s) := if s.chMode r 1 i = mAps then s.apsBytes r i else s.takeBytes r i n
  (l, s.showIns r i)

/-! ### Writing an insertion queue -/

/-- The packet being written vanishes; its rest is discarded unless this word ends it. -/
def State.dropWrite (s : State) (r i : Nat) (ended : Bool) : State :=
  s.setIns r i (fun x => { x with wr := [], wrBytes := 0, writer := if ended then none else x.writer, skip := !ended })

/-- Bytes that a frame of this very cycle takes from an insertion channel (R350), APS aside. -/
def State.frameSoon (s : State) (r i : Nat) : Nat :=
  let src := s.chF r 1 i CHN.src
  let B := 8 * r + s.chF r 1 i CHN.blk
  let e := s.chF r 1 i CHN.idx
  if s.pending.any (fun c => match c with
      | .otucTxFrame lead _ => decide (src = 0) && (s.otucMembers lead).contains (16 * B + e)
      | .oduFrameSource B' e' _ => decide (1 ≤ src ∧ src ≤ 3 ∧ B' = B ∧ e' = e)
      | _ => false) then (if src = 3 then 4 else 2)
  else 0

/-- The committed packets that the transmitter begins before anything else of this cycle (R370). -/
def State.beginSoon (s : State) (r i : Nat) : Nat :=
  let n := s.frameSoon r i
  if n = 0 then 0 else (s.ins r i).done.length - ((s.insBytes r i n).2.ins r i).done.length

/-- A word finds no free word (R367): the oldest committed packet not begun, nor beginning in this cycle (R370), is freed. -/
def State.freeIns (s : State) (r i : Nat) : State :=
  let k := s.beginSoon r i
  ((s.setIns r i (fun x => { x with done := dropAt k x.done, flush := flushLess x.flush })).insCount r i INS_CNT.lost).ohqLost r

/-- A packet just committed joins a FLUSH of the same cycle (R370). -/
def State.flushJoinsIns (s : State) (r i : Nat) : State :=
  let x := s.ins r i
  if x.flushAt = s.dpCycle + 1 then
    match x.flush with
    | some (_, who) => s.setIns r i (fun x => { x with flush := some (x.done.length, who) })
    | none => (s.setIns r i (fun x => { x with done := x.done.dropLast })).insCount r i INS_CNT.cut
  else s

/-- Store a word of the packet being written; with last it is committed (R364). -/
def State.storeWord (s : State) (r i v : Nat) : State :=
  let last := bit v 29
  let n := getBits v 25 24
  s.setIns r i (fun x =>
    let p := x.wr ++ [(n * 2 ^ 24 + v % 2 ^ 24, false)]
    if last then { x with done := x.done ++ [p], wr := [], wrBytes := 0, writer := none } else { x with wr := p, wrBytes := x.wrBytes + n })
  |>.when (bit v 29) (fun s => s.flushJoinsIns r i)

/-- A write of OHQ_WR (R364, R365, R367). -/
def State.ohqWrite (s : State) (w : Who) (r v : Nat) : State :=
  let rq := reqPage (pgOhq r) w
  let i := s.rd rq OHQ_SEL_ch
  if !s.rdb rq OHQ_SEL_dir || !s.chValid r 1 i || !s.chOwned w r 1 i || bit v 31 then s
  else
    let x := s.ins r i
    let me := w.master.code
    let bad := bit v 30
    let last := bit v 29
    let s :=
      if x.writer.isSome ∧ x.writer ≠ some me then s.insCount r i INS_CNT.foreign
      else if x.skip then (if bad ∨ last then s.dropWrite r i true else s)
      else if bad then (if x.writer.isSome then (s.dropWrite r i true).insCount r i INS_CNT.rewound else s)
      else
        let s := s.setIns r i (fun x => { x with writer := some me })
        if s.chLen r 1 i < x.wrBytes + getBits v 25 24 then (s.dropWrite r i last).insCount r i INS_CNT.rewound
        else if insUsed x < s.chWords r 1 i then s.storeWord r i v
        else if x.done.length ≤ s.beginSoon r i then ((s.dropWrite r i last).insCount r i INS_CNT.lost).ohqLost r
        else (s.freeIns r i).storeWord r i v
    s.showIns r i

/-! ### Sources -/

/-- The channel (region index) that connects to a slice's GCC0, if both sides name each other (R351); dir 0 capture. -/
def State.gccChannel (s : State) (d dir : Nat) : Option Nat :=
  let pg := pgOtu d
  let en := s.rdb pg (if dir = 0 then OTU_GCC0_CFG_cap_en else OTU_GCC0_CFG_ins_en)
  let c := s.rd pg (if dir = 0 then OTU_GCC0_CFG_cap_ch else OTU_GCC0_CFG_ins_ch)
  let r := d / 128
  let i := c % 512
  if en ∧ c / 512 = r ∧ s.chValid r dir i ∧ s.chF r dir i CHN.src = 0 ∧ s.chF r dir i CHN.blk = d / 16 % 8 ∧ s.chF r dir i CHN.idx = d % 16 then
    some i
  else none

/-- Give GCC0 bytes of an ingress slice to its capture channel; a channel that does not name the slice back is a misroute
(R351). -/
def State.gccCapture (s : State) (d : Nat) (bytes : List Nat) : State :=
  let r := d / 128
  match s.gccChannel d 0 with
  | some i => s.capBytes r i bytes
  | none => if s.rdb (pgOtu d) OTU_GCC0_CFG_cap_en then (s.count (pgOhq r) OHQ_MISROUTE bytes.length).ev (pgOhq r) ohqMisroute else s

/-- A frame of a slice outside SYNC (R355). -/
def State.gccBreak (s : State) (d : Nat) : State :=
  match s.gccChannel d 0 with
  | some i => s.capBreak (d / 128) i
  | none => s

/-- The slice's OTUCn has its GCC0 concatenated (R155). -/
def State.gccConcat (s : State) (d : Nat) : Bool := s.sliceMember d && decide (s.ifF d OTU_IF.gcc0_concat = 1)

/-- GCC0 of one received frame (R155): of a concatenated OTUCn the bytes of all positions go together. -/
def State.gccIn (s : State) (d : Nat) (bytes : List Nat) : State :=
  let inSync := decide (s.rd (pgOtu d) OTU_STATUS_fstate = fSync)
  if s.gccConcat d then
    let lead := s.sliceLead d
    if inSync then
      let s := s.setSlice lead (fun x => { x with gcc := x.gcc.filter (fun g => decide (g.1 ≠ d)) ++ [(d, bytes)] })
      let ms := s.otucMembers lead
      let got := (s.slice lead).gcc
      if ms.all (fun k => got.any (fun g => decide (g.1 = k))) then
        let all := ms.flatMap (fun k => ((got.find? (fun g => decide (g.1 = k))).map (·.2)).getD [])
        (s.setSlice lead (fun x => { x with gcc := [] })).gccCapture lead all
      else s
    else (s.setSlice lead (fun x => { x with gcc := [] })).gccBreak lead
  else if inSync then s.gccCapture d bytes
  else s.gccBreak d

/-- GCC0 that the members of an OTUCn transmit in one frame, in position order (R155, R351). Of a concatenated OTUCn the lead
slice's channel fills the lead's bytes, and the other members transmit 0x0000, as R155's last words on it say (DEDUCED, log 104:
R155 says too that the lead's channels carry the bytes of positions 1 to n). -/
def State.gccOut (s : State) (lead : Nat) : List (List Nat) × State :=
  let ms := s.otucMembers lead
  if s.gccConcat lead then
    match s.gccChannel lead 1 with
    | some i =>
      let (l, s) := s.insBytes (lead / 128) i 2
      (ms.map (fun d => if d = lead then l else [0, 0]), s)
    | none => (ms.map (fun _ => [0, 0]), s)
  else
    ms.foldl (fun a d => match a.2.gccChannel d 1 with
      | some i => let (l, s) := a.2.insBytes (d / 128) i 2; (a.1 ++ [l], s)
      | none => (a.1 ++ [[0, 0]], a.2)) ([], s)

/-- The valid channels of a region's direction that name a block slot (src 1 to 4). -/
def State.ctxChannels (s : State) (B dir e : Nat) : List Nat :=
  let r := B / 8
  ((s.effRows (pgOhq r) (if dir = 0 then T_CAP_CFG else T_INS_CFG)).filter (fun x => efieldb x.2 CHN.valid &&
    decide (efield x.2 CHN.src ≠ 0 ∧ efield x.2 CHN.blk = B % 8 ∧ efield x.2 CHN.idx = e))).map (·.1)

/-- Overhead bytes of a received ODU frame (R350, R355): `ok` is in frame, without input SSF, outside replacement. -/
def State.ohCapture (s : State) (B e : Nat) (f : OduFrame) (ok : Bool) : State :=
  let r := B / 8
  s.each (s.ctxChannels B 0 e) (fun s i =>
    if ok then
      let src := s.chF r 0 i CHN.src
      if src = 1 then s.capBytes r i (f.gcc1.take 2)
      else if src = 2 then s.capBytes r i (f.gcc2.take 2)
      else if src = 3 then s.capBytes r i (f.gcc1.take 2 ++ f.gcc2.take 2)
      else if f.mfas % 8 = s.chF r 0 i CHN.level then s.capBytes r i (f.aps.take 4)
      else s
    else s.capBreak r i)

/-- Overhead bytes that the channels of an egress context give a frame (R350, R356): GCC1, GCC2 and APS/PCC, none where no
channel gives them. -/
def State.ohInsert (s : State) (B e mfas : Nat) : (Option (List Nat) × Option (List Nat) × Option (List Nat)) × State :=
  let r := B / 8
  (s.ctxChannels B 1 e).foldl (fun a i =>
    let s := a.2
    let src := s.chF r 1 i CHN.src
    if src = 1 then let (l, s) := s.insBytes r i 2; ((some l, a.1.2.1, a.1.2.2), s)
    else if src = 2 then let (l, s) := s.insBytes r i 2; ((a.1.1, some l, a.1.2.2), s)
    else if src = 3 then let (l, s) := s.insBytes r i 4; ((some (l.take 2), some (l.drop 2), a.1.2.2), s)
    else if mfas % 8 = s.chF r 1 i CHN.level then let (l, s) := s.insBytes r i 4; ((a.1.1, a.1.2.1, some l), s)
    else a) ((none, none, none), s)

/-! ### Adoption and reset -/

/-- A channel's row takes effect (R353): the queue is emptied where the change says so, its packets lost. -/
def State.chAdopt (s : State) (r dir i : Nat) (empties : Bool) : State :=
  if empties then
    if dir = 0 then
      let x := s.cap r i
      let n := x.done.length + (if x.inside then 1 else 0)
      let s := match x.flush with
        | some (_, who) => s.flushDone r who
        | none => s
      ((s.capCount r i CAP_CNT.lost n).setCap r i (fun _ => {})).showCap r i
    else
      let x := s.ins r i
      let n := x.done.length + (if x.inside then 1 else 0)
      let s := match x.flush with
        | some (_, who) => s.flushDone r who
        | none => s
      ((s.insCount r i INS_CNT.lost n).setIns r i (fun _ => {})).showIns r i
  else s

/-- A change of a row that empties its queue (R353). -/
def chEmpties (old new : Nat) : Bool :=
  (efieldb new CHN.valid && !efieldb old CHN.valid) ||
    [CHN.src, CHN.blk, CHN.idx, CHN.level, CHN.mode, CHN.base, CHN.size].any (fun f => decide (efield old f ≠ efield new f))

/-- OHQ_MEM: units held by committed valid rows. -/
def State.showOhqMem (s : State) (r : Nat) : State :=
  let n (t : Tab) : Nat := (((listed s.tabs (pgOhq r) t).filter (fun x => efieldb x.2 CHN.valid)).map (fun x => efield x.2 CHN.size)).sum
  s.wr (pgOhq r) OHQ_MEM_units (n T_CAP_CFG + n T_INS_CFG)

/-- Region reset empties every queue of the region (R369). -/
def State.ohqRegionReset (s : State) (r : Nat) : State :=
  let mine (k : Nat) : Bool := decide (k / 512 = r)
  let cs := (s.caps.filter (fun x => mine x.1)).map (fun x => x.1 % 512)
  let is := (s.inss.filter (fun x => mine x.1)).map (fun x => x.1 % 512)
  let s := { s with caps := s.caps.dropWhere mine, inss := s.inss.dropWhere mine }
  s.each is (fun s i => s.showIns r i) |>.each cs (fun s i => s.showCap r i)

/-- A stored word of a queue loses its parity (R360, R363): the k-th word that the consumer will meet. -/
def State.poisonWord (s : State) (r dir i k : Nat) : State :=
  let mark (l : List (Nat × Bool)) : List (Nat × Bool) := (l.zipIdx).map (fun x => if x.2 = k then (x.1.1, true) else x.1)
  if dir = 0 then s.setCap r i (fun x =>
    if k < x.cur.length then { x with cur := mark x.cur }
    else match x.done with
      | p :: rest => { x with done := (if k = x.cur.length then { p with hdrBad := true } else
          { p with words := (p.words.zipIdx).map (fun y => if y.2 + x.cur.length + 1 = k then (y.1.1, true) else y.1) }) :: rest }
      | [] => x)
  else s.setIns r i (fun x =>
    if k < x.cur.length then { x with cur := mark x.cur }
    else match x.done with
      | p :: rest => { x with done := (p.zipIdx).map (fun y => if y.2 + x.cur.length = k then (y.1.1, true) else y.1) :: rest }
      | [] => x)

/-! ### Check units -/

/-- Event bits of a CHK page (R378). -/
def chkDone : Nat := 0
def chkMismatch : Nat := 1
def chkRepeat : Nat := 2
def chkGap : Nat := 3

/-- Holder codes (Table OHQ-13). -/
def holdCue : Nat := 8
def holdFlt : Nat := 9
def holdNone : Nat := 0xF

def State.chk (s : State) (u : Nat) : ChkUnit := s.chks.get {} u
def State.setChk (s : State) (u : Nat) (f : ChkUnit → ChkUnit) : State := { s with chks := s.chks.upd {} u f }

/-- The width in use (CHK_CFG). -/
def State.chkWidth (s : State) (u : Nat) : Nat := max 1 (min 64 (s.rd (pgChk u) CHK_CFG_width))
def State.chkOpen (s : State) (u : Nat) : Bool := s.rdb (pgChk u) CHK_STATUS_open

/-- A master's writes to the unit's registers have effect (R373). -/
def State.chkAllowed (s : State) (u : Nat) (m : Master) : Bool :=
  let h := s.rd (pgChk u) CHK_STATUS_holder
  !(decide (h ≠ holdNone ∧ h ≠ m.code) || (s.rdb (pgChk u) CHK_CFG_lock && decide (m ≠ .sm)))

/-- A write that the unit turns away (R373). -/
def State.chkRefuse (s : State) (u : Nat) : State := s.count (pgChk u) CHK_REFUSED

/-- Open a stream for a holder (R373). -/
def State.chkBegin (s : State) (u holder : Nat) : State :=
  let w := s.chkWidth u
  let s := s.setChk u (fun x => { x with reg := s.rd (pgChk u) CHK_INIT_value % 2 ^ w, n := 0, alive := 0 })
  (s.wr (pgChk u) CHK_STATUS_holder holder).wrb (pgChk u) CHK_STATUS_open true

/-- Close the stream: the unit is no longer held. -/
def State.chkClose (s : State) (u : Nat) : State :=
  (s.wr (pgChk u) CHK_STATUS_holder holdNone).wrb (pgChk u) CHK_STATUS_open false

/-- The alive width in use. -/
def State.chkAw (s : State) (u : Nat) : Nat := max 1 (min 16 (s.rd (pgChk u) CHK_ALIVE_CFG_aw))

/-- Present bits to the open stream (R372, R376). -/
def State.chkFeed (s : State) (u : Nat) (bits : List Bool) : State :=
  let w := s.chkWidth u
  let p := s.rd (pgChk u) CHK_ALIVE_CFG_aw_pos
  let aw := s.chkAw u
  s.setChk u (fun x => { x with
    reg := crcBits w (s.rd (pgChk u) CHK_POLY_value % 2 ^ w) x.reg bits
    n := x.n + bits.length
    alive := (bits.zipIdx).foldl (fun a b => if p ≤ x.n + b.2 ∧ x.n + b.2 < p + aw then 2 * a + b2n b.1 else a) x.alive })

/-- Bits of one CHK_DATA write in the order fed (R374). -/
def feedBits (order : Bool) (bits v : Nat) : List Bool :=
  let n := if bits = 0 ∨ 32 < bits then 32 else bits
  if order then (bitsMsb 32 (v % 2 ^ 32)).take n
  else (List.range (n / 8)).flatMap (fun k => bitsMsb 8 (v / 2 ^ (8 * k) % 256))

/-- A write of CHK_DATA. -/
def State.chkData (s : State) (u v : Nat) : State :=
  if s.chkOpen u then
    let fed := feedBits (s.rdb (pgChk u) CHK_FEED_CFG_order) (s.rd (pgChk u) CHK_FEED_CFG_bits) v
    s.chkFeed u (chkOrder (s.rdb (pgChk u) CHK_CFG_refin) 4 fed)
  else s

/-- The alive counter at finish (R376); `ok` is that no compare failed. -/
def State.chkAlive (s : State) (u : Nat) (ok : Bool) : State :=
  let pg := pgChk u
  let mode := s.rd pg CHK_ALIVE_CFG_mode
  let aw := s.chkAw u
  let x := s.chk u
  if mode = 3 then (s.wr pg CHK_ALIVE_NEXT_next ((s.rd pg CHK_ALIVE_NEXT_next + 1) % 2 ^ aw)).wrb pg CHK_STATUS_alive_valid false
  else if mode = 0 ∨ !ok ∨ x.n < s.rd pg CHK_ALIVE_CFG_aw_pos + aw then s.wrb pg CHK_STATUS_alive_valid false
  else
    let last := s.rd pg CHK_STATUS_alive
    let d := (x.alive + 2 ^ aw - last % 2 ^ aw) % 2 ^ aw
    let s := if x.first then s
      else if d = 0 then (s.count pg CHK_REPEAT).evWhen (decide (mode = 1)) pg chkRepeat
      else if 2 ≤ d then (s.count pg CHK_GAP_MSGS (d - 1)).ev pg chkGap
      else s
    ((s.setChk u (fun x => { x with first := false })).wr pg CHK_STATUS_alive x.alive).wrb pg CHK_STATUS_alive_valid true

/-- Finish the open stream (R375, R376). -/
def State.chkEnd (s : State) (u : Nat) : State :=
  let pg := pgChk u
  if s.chkOpen u then
    let w := s.chkWidth u
    let res := chkRes w (s.rd pg CHK_XOR_value) (s.rdb pg CHK_CFG_refout) (s.chk u).reg
    let s := ((s.wr pg CHK_RESULT_res res).count pg CHK_RUNS).ev pg chkDone
    let cmp := s.rdb pg CHK_CFG_exp_en
    let same := decide (res = s.rd pg CHK_EXPECT_value % 2 ^ w)
    let s := s.wrb pg CHK_STATUS_compared cmp
    let s := if cmp then s.wrb pg CHK_STATUS_match same else s
    let s := if cmp ∧ !same then (s.count pg CHK_MISMATCH).ev pg chkMismatch else s
    (s.chkAlive u (!cmp || same)).chkClose u
  else s

/-- What a write of a unit's register by a master does, where the unit admits it. -/
def State.chkBy (s : State) (u : Nat) (m : Master) (f : State → State) : State := if s.chkAllowed u m then f s else s.chkRefuse u

/-- A write of CHK_ALIVE_CFG: the next alive value is taken unjudged, and ALIVE_NEXT starts at 0 (R376). -/
def State.chkAliveWritten (s : State) (u : Nat) : State :=
  (s.setChk u (fun x => { x with first := true })).wr (pgChk u) CHK_ALIVE_NEXT_next 0

/-! ### The commands -/

def execOhqRdRead (w : Who) (r : Nat) := runBus w (pgOhq (r % 8)) false (fun s => let (v, s) := s.ohqRead w (r % 8); s.answer 0 [v])
def execOhqWrWrite (w : Who) (r v : Nat) := runBus w (pgOhq (r % 8)) true (fun s => s.ohqWrite w (r % 8) v)
def execFlush (w : Who) (r dir ch : Nat) := runBus w (pgOhq (r % 8)) true (fun s => s.ohqFlush w (r % 8) dir ch)
def execFlushApply (r dir ch : Nat) := run (fun s => s.applyFlush r dir ch)
def execDropRest (w : Who) (r dir ch : Nat) := runBus w (pgOhq (r % 8)) true (fun s => s.dropRest w (r % 8) dir ch)
def execChkStart (w : Who) (u : Nat) := runBus w (pgChk (u % 32)) true (fun s => s.chkBy (u % 32) w.master (fun s => s.chkBegin (u % 32) w.master.code))
def execChkDataWrite (w : Who) (u v : Nat) := runBus w (pgChk (u % 32)) true (fun s => s.chkBy (u % 32) w.master (fun s => s.chkData (u % 32) v))
def execChkFinish (w : Who) (u : Nat) := runBus w (pgChk (u % 32)) true (fun s => s.chkBy (u % 32) w.master (fun s => s.chkEnd (u % 32)))
def execChkAbort (w : Who) (u : Nat) := runBus w (pgChk (u % 32)) true (fun s => s.chkBy (u % 32) w.master (fun s => s.chkClose (u % 32)))

end Sys2Proof.Machine
end

