-- ==== Sys2Proof/Machine/Sdp.lean ====
section
/-! DEFINITION. The stage door port: receive and transmit queues, pause and its watchdog, statistics, wake filters (file 11,
R380 to R393), and the timestamps of its frames and of line clients (file 12, R433 to R436). -/

namespace Sys2Proof.Machine

open Sys2Proof

/-! ### Wake -/

/-- A wake cause is set and WAKE_OUT_N asserted (file 11, R400). -/
def State.setWake (s : State) (f : Field) : State := (s.wrb pgCbb f true).wrb pgCbb CBB_WAKE_CAUSE_wake_out true

/-- CBB_WAKE_ACK (R400): the causes and SDP_WAKE_STATUS clear, WAKE_OUT_N is released; a filter match of the
same cycle sets its cause again (R406). -/
def State.wakeAck (s : State) : State :=
  let s := s.each [(pgCbb, CBB_WAKE_CAUSE_filter), (pgCbb, CBB_WAKE_CAUSE_partner_lost), (pgCbb, CBB_WAKE_CAUSE_cbb_wake),
    (pgCbb, CBB_WAKE_CAUSE_filter_match), (pgCbb, CBB_WAKE_CAUSE_wake_out), (pgSdp, SDP_WAKE_STATUS_dark_rx),
    (pgSdp, SDP_WAKE_STATUS_matched)] (fun s x => s.wr x.1 x.2 0)
  match s.door.wakeNow with
  | some n => (s.wr pgCbb CBB_WAKE_CAUSE_filter n).setWake CBB_WAKE_CAUSE_filter_match
  | none => s

/-! ### The timestamp log -/

/-- An entry of the timestamp log (Table TIM-10), words TS0 to TS3 from bit 0 up. -/
def tsEntry (t : Stamp) (msgType : Nat) (tx : Bool) (port seqId domain : Nat) : Nat :=
  2 ^ 31 + msgType % 16 * 2 ^ 24 + b2n tx * 2 ^ 23 + t.quality % 4 * 2 ^ 21 + port % 512 +
  (seqId % 65536 * 2 ^ 16 + domain % 256 * 2 ^ 8) * 2 ^ 32 + t.ns % 2 ^ 30 * 2 ^ 64 + t.sec % 2 ^ 32 * 2 ^ 96

/-- A new entry; a full log overwrites its oldest (file 12, R436). -/
def State.tsPush (s : State) (e : Nat) : State :=
  let full := decide (1024 ≤ s.tsLog.length)
  let first := s.tsLog.isEmpty
  let s := { s with tsLog := (if full then s.tsLog.drop 1 else s.tsLog) ++ [e] }
  let s := if full then (s.count pgTim TIM_TS_LOST).ev pgTim 8 else s
  s.evWhen first pgTim 7

/-! ### Frames -/

def by16 (b : List Nat) (k : Nat) : Nat := b.getD k 0 % 256 * 256 + b.getD (k + 1) 0 % 256
def by32 (b : List Nat) (k : Nat) : Nat := by16 b k * 65536 + by16 b (k + 2)

/-- The station address of a frame's destination, first byte in [7:0] (SDP_MAC). -/
def dstAddr (b : List Nat) : Nat := (List.range 6).foldl (fun a k => a + b.getD k 0 % 256 * 256 ^ k) 0
def isBcast (b : List Nat) : Bool := decide (dstAddr b = 2 ^ 48 - 1)
def isMcast (b : List Nat) : Bool := bit (b.getD 0 0) 0 && !isBcast b

/-- The FCS of a frame is correct: FCS-32 over the bytes before it, least significant byte first. -/
def fcsOk (b : List Nat) : Bool :=
  let n := b.length - 4
  decide (4 ≤ b.length) && decide (fcsBytes 1 (fcsFeed 1 (fcsInit 1) (b.take n)) = b.drop n)

/-- Where a frame's EtherType stands past up to two VLAN tags (file 12, R434). -/
def etherAt (b : List Nat) : Nat :=
  let tag (k : Nat) : Bool := decide (by16 b k = 0x8100 ∨ by16 b k = 0x88A8)
  if tag 12 then (if tag 16 then 20 else 16) else 12

/-- A PTP event message in a frame (file 12, R434): where it starts, and where the IPv4 UDP checksum stands, if in IPv4. -/
def ptpAt (b : List Nat) : Option (Nat × Option Nat) :=
  let k := etherAt b
  let t := by16 b k
  let p := k + 2
  let ihl := 4 * (b.getD p 0 % 16)
  let at_ : Option (Nat × Option Nat) :=
    if t = 0x88F7 then some (p, none)
    else if t = 0x0800 ∧ b.getD p 0 / 16 = 4 ∧ b.getD (p + 9) 0 = 17 ∧ by16 b (p + ihl + 2) = 319 then some (p + ihl + 8, some (p + ihl + 6))
    else if t = 0x86DD ∧ b.getD p 0 / 16 = 6 ∧ b.getD (p + 6) 0 = 17 ∧ by16 b (p + 42) = 319 then some (p + 48, none)
    else none
  match at_ with
  | some (q, c) => if q < b.length ∧ b.getD q 0 % 16 ≤ 3 then some (q, c) else none
  | none => none

/-- A timestamp log entry for a message at byte q of a stage door frame. -/
def State.ptpEntry (s : State) (b : List Nat) (q : Nat) (tx : Bool) : Nat :=
  tsEntry s.now (b.getD q 0 % 16) tx 256 (by16 b (q + 30)) (b.getD (q + 4) 0)

/-- Replace the bytes at k. -/
def putBytes (b : List Nat) (k : Nat) (v : List Nat) : List Nat := b.take k ++ v ++ b.drop (k + v.length)

/-- `n` bytes of a number, most significant first. -/
def bytesBe (n v : Nat) : List Nat := (List.range n).map (fun i => v / 256 ^ (n - 1 - i) % 256)

/-- The treatment of a transmitted frame (file 12, R435): the frame as sent. -/
def State.stampTx (s : State) (b : List Nat) : List Nat × State :=
  let mode := s.rd pgTim TIM_TS_CFG_sdp
  match ptpAt b with
  | some (q, c) =>
    if mode = 2 ∧ b.getD q 0 % 16 = 0 then
      let t := s.now
      let b := putBytes b (q + 34) (bytesBe 6 (t.sec % 2 ^ 48) ++ bytesBe 4 (t.ns % 2 ^ 32))
      (match c with
        | some k => putBytes b k [0, 0]
        | none => b, s)
    else if mode = 1 ∨ mode = 2 then (b, s.tsPush (s.ptpEntry b q true))
    else (b, s)
  | none => (b, s)

/-- The timestamp of a received frame (file 12, R435). -/
def State.stampRx (s : State) (b : List Nat) : Option Nat :=
  let mode := s.rd pgTim TIM_TS_CFG_sdp
  if (mode = 1 ∨ mode = 2) ∧ ((ptpAt b).isSome ∨ s.rdb pgTim TIM_TS_CFG_sdp_rx_all) then some s.now.packed else none

/-- An event message on a line client (file 12, R435): logged, or in one-step its correctionField changed by the time
with its visible fraction. -/
def State.linePtp (s : State) (n : Nat) (p : LinePtp) : State :=
  let mode := s.rd pgTim TIM_TS_CFG_line
  if mode = 0 ∨ 3 < p.msgType then s
  else if mode = 1 ∨ p.ipv6 then s.tsPush (tsEntry s.now p.msgType p.tx n p.seqId p.domain)
  else if mode = 2 then
    let t : Int := ((s.tb.sec * 1000000000 + s.tb.ns) * 65536 + s.tb.frac / 2 ^ 32 : Nat)
    let c : Int := p.correction
    s.emit (.ptpCorrection n p.tx (ofSigned 64 (if p.tx then c + t else c - t)))
  else s

/-! ### Statistics -/

/-- Count in SDP_STAT; a counter whose bit 31 rises sets its half-range bit (R391). -/
def State.sdpStat (s : State) (i : Nat) : State :=
  let old := s.tget pgSdp T_SDP_STAT i SDP_STAT.count
  let s := s.tcount pgSdp T_SDP_STAT i SDP_STAT.count
  if old < 2 ^ 31 ∧ 2 ^ 31 ≤ s.tget pgSdp T_SDP_STAT i SDP_STAT.count then
    let now := if s.door.halfAt.1 = s.dpCycle + 1 then s.door.halfAt.2 else 0
    (({ s with door := { s.door with halfAt := (s.dpCycle + 1, now ||| 2 ^ i) } }).wr pgSdp SDP_STAT_HALF_half (s.rd pgSdp SDP_STAT_HALF_half ||| 2 ^ i)).ev pgSdp 5
  else s

/-- The size bin of a frame (Table SDP-1), FCS included. -/
def sizeBin (n : Nat) : Nat :=
  if n ≤ 64 then 0 else if n ≤ 127 then 1 else if n ≤ 255 then 2 else if n ≤ 511 then 3 else if n ≤ 1023 then 4 else if n ≤ 1518 then 5
  else if n ≤ 2047 then 6 else if n ≤ 4095 then 7 else 8

/-- ok, address kind and size of a good frame; `base` 0 receive, 32 transmit. -/
def State.sdpGood (s : State) (base : Nat) (b : List Nat) (n : Nat) : State :=
  ((s.sdpStat base).sdpStat (base + (if isBcast b then 3 else if isMcast b then 2 else 1))).sdpStat (base + 4 + sizeBin n)

/-- SDP_CFG.max_len as it acts. -/
def State.sdpMax (s : State) : Nat := max 1518 (min 9216 (s.rd pgSdp SDP_CFG_max_len))

/-! ### Receive -/

/-- The port runs (R387). -/
def State.sdpRuns (s : State) : Bool := s.rdb pgSdp PAGE_CTRL_run && !s.rdb pgSdp SDP_STATUS_cfg_err

/-- The modes in which the port carries frames (R382). -/
def State.sdpCarries (s : State) : Bool :=
  decide (s.mode = modeRehearsal ∨ s.mode = modeNative ∨ s.mode = modeCompat ∨ s.mode = modeIntermission ∨ s.mode = modeAudit)

/-- The address filter (R383), in DARK with AON's copies (R399). -/
def State.addrPass (s : State) (b : List Nat) : Bool :=
  let c : SdpAon := if s.mode = modeDark then s.door.aon
    else { addr := s.rd pgSdp SDP_MAC_addr, mcEn := s.rdb pgSdp SDP_CFG_mc_en, promisc := s.rdb pgSdp SDP_CFG_promisc }
  decide (dstAddr b = c.addr) || isBcast b || (isMcast b && c.mcEn) || c.promisc

/-- The bytes that a mask selects, in frame order (R392). -/
def maskBytes (mask : Nat) (b : List Nat) : List Nat := ((List.range 128).filter (fun j => bit mask j)).map (fun j => b.getD j 0 % 256)

/-- The wake filters that a frame matches (R392). -/
def State.wakeMatches (s : State) (b : List Nat) : List Nat :=
  (List.range 8).filter (fun n =>
    let mask := s.entry pgSdp T_WAKE_MASK n
    let top := ((List.range 128).filter (fun j => bit mask j)).foldl (fun a j => max a (j + 1)) 0
    s.rdb pgSdp (SDP_WAKE_CFG_en n) && s.addrPass b && decide (64 ≤ b.length) && fcsOk b && decide (top ≤ b.length) &&
    decide (crc16 (maskBytes mask b) = s.rd pgSdp (SDP_WAKE_CFG_crc n)))

/-- A frame in DARK (R393, R399). -/
def State.sdpDark (s : State) (b : List Nat) : State :=
  match s.wakeMatches b with
  | n :: rest =>
    let s := s.wr pgSdp SDP_WAKE_STATUS_matched ((n :: rest).foldl (fun a k => a ||| 2 ^ k) (s.rd pgSdp SDP_WAKE_STATUS_matched))
    (({ s with door := { s.door with wakeNow := some n } }).wr pgCbb CBB_WAKE_CAUSE_filter n).setWake CBB_WAKE_CAUSE_filter_match
  | [] => if s.addrPass b then s.countSat pgSdp SDP_WAKE_STATUS_dark_rx else s

/-- A class is held for a number of quanta, 0 ending its hold (R389, R390). -/
def State.hold (s : State) (c quanta : Nat) : State :=
  if bit (s.rd pgSdp SDP_STATUS_wd_ignore) c then s
  else
    let v := s.rd pgSdp SDP_STATUS_paused
    ({ s with sdpQuanta := s.sdpQuanta.set 0 c quanta }).wr pgSdp SDP_STATUS_paused (if quanta = 0 then v &&& (255 - 2 ^ c) else v ||| 2 ^ c)

/-- A MAC control frame (R389): counted, and honoured where it is enabled. -/
def State.macControl (s : State) (b : List Nat) : State :=
  let op := by16 b 14
  if op = 0x0001 then
    let s := s.sdpStat 18
    if s.rdb pgSdp SDP_CFG_pause_en then s.each (List.range 8) (fun s c => s.hold c (by16 b 16)) else s
  else if op = 0x0101 then
    let s := s.sdpStat 19
    if s.rdb pgSdp SDP_CFG_pfc_en then
      s.each ((List.range 8).filter (fun c => bit (by16 b 16) c)) (fun s c => s.hold c (by16 b (18 + 2 * c)))
    else s
  else s

/-- Bytes of the receive buffer in use: each frame with its descriptor (R385). -/
def State.sdpUsed (s : State) : Nat := ((s.sdpRx0 ++ s.sdpRx1).map (fun f => f.bytes.length + 16)).sum

/-- Deliver a frame to its queue (R384, R385). -/
def State.sdpDeliver (s : State) (b : List Nat) : State :=
  let mx := s.sdpMax
  let trunc := decide (mx < b.length)
  let f : RxFrame := { bytes := (b.take (min mx b.length)).take (min mx b.length - 4), trunc := trunc, stamp := s.stampRx b }
  let s := if trunc then s.sdpStat 13 else s.sdpGood 0 b b.length
  let svc := s.rdb pgSdp SDP_SVC_svc_en && decide (by16 b 12 = s.rd pgSdp SDP_SVC_ethertype)
  (if svc then { s with sdpRx1 := s.sdpRx1 ++ [f] } else { s with sdpRx0 := s.sdpRx0 ++ [f] }).ev pgSdp 1

/-- SDP_FRAME_RECEIVE (R382 to R385, R389, R393): the frame's bytes from its destination address to its FCS. -/
def State.sdpReceive (s : State) (b : List Nat) : State :=
  if s.mode = modeDark then s.sdpDark b
  else if !s.sdpRuns then s
  else
    let s := s.evWhen (!(s.wakeMatches b).isEmpty) pgSdp 7
    let ctl := decide (by16 b 12 = 0x8808)
    if !s.sdpCarries then s.sdpStat 20
    else if !ctl ∧ !s.addrPass b then s.sdpStat 17
    else if !ctl ∧ 262144 < s.sdpUsed + s.sdpMax + 16 then (s.sdpStat 16).ev pgSdp 6
    else if b.length < 64 then s.sdpStat 15
    else if !fcsOk b then s.sdpStat 14
    else if ctl then s.macControl b
    else s.sdpDeliver b

/-- The word that a read of four bytes returns, and what is left (R386). -/
def takeWord (c : RxCur) : Nat × RxCur := ((List.range 4).foldl (fun a k => a + c.getD k 0 % 256 * 256 ^ k) 0, c.drop 4)

/-- A read of SDP_RX_DESC (R386). -/
def State.sdpRxDesc (s : State) (w : Who) : Nat × State :=
  let rq := reqPage pgSdp w
  let q := s.rd rq SDP_RX_SEL_q
  match if q = 0 then s.sdpRx0 else s.sdpRx1 with
  | f :: rest =>
    let s := if q = 0 then { s with sdpRx0 := rest } else { s with sdpRx1 := rest }
    let s := { s with sdpCur := s.sdpCur.set [] rq f.bytes }
    let t := f.stamp.getD 0
    let s := ((s.wr rq SDP_RX_TS_quality (getBits t 63 62)).wr rq SDP_RX_TS_ns (getBits t 61 32)).wr rq SDP_RX_TS_sec (getBits t 31 0)
    (f.bytes.length + b2n f.stamp.isSome * 2 ^ 29 + b2n f.trunc * 2 ^ 30, s)
  | [] => (2 ^ 31, { s with sdpCur := s.sdpCur.erase rq })

/-- A read of SDP_RX_DATA (R386). -/
def State.sdpRxData (s : State) (w : Who) : Nat × State :=
  let rq := reqPage pgSdp w
  let (v, c) := takeWord (s.sdpCur.get [] rq)
  (v, { s with sdpCur := s.sdpCur.set [] rq c })

/-! ### Transmit -/

/-- SDP_TX_STATUS codes. -/
def txIdle : Nat := 0
def txWriting : Nat := 1
def txCommitted : Nat := 2
def txRefLen : Nat := 3
def txRefForeign : Nat := 4
def txLost : Nat := 5

/-- A queue's row as latched: base, size, age. -/
def State.sdpRow (s : State) (q : Nat) : Nat × Nat × Nat := s.sdpRows.getD q (8 * q, 8, 0)
def State.txq (s : State) (q : Nat) : List TxFrame := s.sdpTx.get [] q
def State.setTxq (s : State) (q : Nat) (l : List TxFrame) : State := { s with sdpTx := s.sdpTx.set [] q l }
def State.txStatus (s : State) (rq code : Nat) : State := s.wr rq SDP_TX_STATUS_code code

/-- The status of a START still speaks of it: the requester has begun no other since. -/
def State.txStatusOf (s : State) (rq id code : Nat) : State := if s.sdpLast.get 0 rq = id then s.txStatus rq code else s

/-- The queue that the next transmit decision serves: the highest-numbered with a committed frame that is not paused (R388). -/
def State.txChoice (s : State) : Option Nat :=
  (List.range 8).reverse.find? (fun q => !(s.txq q).isEmpty && !bit (s.rd pgSdp SDP_STATUS_paused) q)

/-- A transmit decision waits that begins the oldest frame of queue q in this very cycle (R406). -/
def State.txBegins (s : State) (q : Nat) : Bool :=
  s.pending.contains .sdpTransmit && s.sdpRuns && s.sdpCarries && decide (s.txChoice = some q)

/-- A committed frame is lost or aged: counted for its queue, with its event (R388). -/
def State.txFree (s : State) (q base k : Nat) : State :=
  match s.txq q with
  | f :: rest => (((s.setTxq q rest).txStatusOf f.who f.id txLost).sdpStat (base + q)).ev pgSdp k
  | [] => s

/-- Free the oldest committed frames of a queue until `need` bytes fit into `room` (R388). -/
def State.txMakeRoom (s : State) (q need room : Nat) : Nat → State
  | 0 => s
  | n + 1 =>
    if ((s.txq q).map (fun f => f.bytes.length)).sum + need ≤ room then s else (s.txFree q 56 3).txMakeRoom q need room n

/-- Rewind the frame a requester is writing (R387). -/
def State.txAbort (s : State) (rq : Nat) : State :=
  let x := s.sdpWr.get {} rq
  if x.active then ({ s with sdpWr := s.sdpWr.erase rq }).txStatusOf rq x.id txLost else s

/-- SDP_TX_CMD START (R387, R388): a frame that the transmitter begins in the same cycle is kept (R406). -/
def State.txStart_ (s : State) (w : Who) (q len : Nat) : State :=
  let rq := reqPage pgSdp w
  let s := s.txAbort rq
  let room := (s.sdpRow q).2.1 * 4096
  if len < 14 ∨ s.sdpMax - 4 < len ∨ room < len then s.txStatus rq txRefLen
  else if s.sdpWr.any (fun x => x.2.active && decide (x.2.q = q)) then s.txStatus rq txRefForeign
  else
    let begun := if s.txBegins q then (s.txq q).take 1 else []
    let s := (s.setTxq q ((s.txq q).drop begun.length)).txMakeRoom q len room (s.txq q).length
    let s := s.setTxq q (begun ++ s.txq q)
    let id := s.sdpStarts + 1
    ({ s with sdpStarts := id, sdpLast := s.sdpLast.set 0 rq id
              sdpWr := s.sdpWr.set {} rq { active := true, q := q, len := len, bytes := [], id := id } }).txStatus rq txWriting

/-- A write of SDP_TX_DATA (R387): with the last word the frame is committed. -/
def State.txData (s : State) (w : Who) (v : Nat) : State :=
  let rq := reqPage pgSdp w
  let x := s.sdpWr.get {} rq
  if x.active then
    let b := (x.bytes ++ (List.range 4).map (fun k => v / 256 ^ k % 256)).take x.len
    if b.length < x.len then { s with sdpWr := s.sdpWr.set {} rq { x with bytes := b } }
    else
      let f : TxFrame := { bytes := b, commit := s.dpCycle, who := rq, id := x.id }
      (({ s with sdpWr := s.sdpWr.erase rq }).setTxq x.q (s.txq x.q ++ [f])).txStatusOf rq x.id txCommitted
  else s

/-- A frame's age exceeds its queue's limit (R388), with `spare` by more than one DP cycle: 100 µs is 175,000 DP cycles. -/
def State.txAged (s : State) (q : Nat) (f : TxFrame) (spare : Bool) : Bool :=
  let a := (s.sdpRow q).2.2
  decide (a ≠ 0) && decide (a * 175000 + b2n spare < s.dpCycle - f.commit)

/-- Drop the aged frames at a queue's head (R388). -/
def State.ageHead (s : State) (q : Nat) (spare : Bool) : Nat → State
  | 0 => s
  | n + 1 => match s.txq q with
    | f :: _ => if s.txAged q f spare then (s.txFree q 48 2).ageHead q spare n else s
    | [] => s

/-- Every queue head is judged for its age; with `spare` a frame that comes of age in this cycle stays. -/
def State.ageHeads (s : State) (spare : Bool) : State := s.each (List.range 8) (fun s q => s.ageHead q spare (s.txq q).length)

/-- SDP_AGE_SCAN (R388): a frame that comes of age now is left for a transmit decision of this cycle to choose (R406). -/
def State.sdpAgeScan (s : State) : State := s.ageHeads (s.pending.contains .sdpTransmit)

/-- A frame padded to 60 bytes (R387). -/
def pad60 (b : List Nat) : List Nat := b ++ List.replicate (60 - b.length) 0

/-- A frame as the MAC sends it (R387): padded, with its FCS. -/
def macFrame (b : List Nat) : List Nat := pad60 b ++ fcsBytes 1 (fcsFeed 1 (fcsInit 1) (pad60 b))

/-- SDP_TRANSMIT (R388): the oldest frame of the highest-numbered queue that has one and is not paused, even where it comes of age in
this cycle (R406); the other heads are then judged. -/
def State.sdpTransmit (s : State) : State :=
  if s.sdpRuns && s.sdpCarries then
    let s := s.ageHeads true
    match s.txChoice with
    | some q => match s.txq q with
      | f :: rest =>
        let s := (s.setTxq q []).ageHeads false
        let s := s.setTxq q rest
        let (b, s) := s.stampTx f.bytes
        let b := macFrame b
        (s.sdpGood 32 b b.length).emit (.sdpFrame b)
      | [] => s
    | none => s.ageHeads false
  else s

/-- PAUSE_EXPIRY (R389). -/
def State.pauseExpiry (s : State) (c : Nat) : State :=
  ({ s with sdpQuanta := s.sdpQuanta.set 0 c 0 }).wr pgSdp SDP_STATUS_paused (s.rd pgSdp SDP_STATUS_paused &&& (255 - 2 ^ c))

/-- PAUSE_BREAK (R390). -/
def State.pauseBreak (s : State) (c : Nat) : State :=
  if c < 8 ∧ bit (s.rd pgSdp SDP_STATUS_paused) c then
    let s := ((s.pauseExpiry c).sdpStat 45).ev pgSdp 4
    s.wr pgSdp SDP_STATUS_wd_ignore (s.rd pgSdp SDP_STATUS_wd_ignore ||| 2 ^ c)
  else s

/-- PAUSE_IGNORE_END (R390). -/
def State.pauseIgnoreEnd (s : State) (c : Nat) : State :=
  s.wr pgSdp SDP_STATUS_wd_ignore (s.rd pgSdp SDP_STATUS_wd_ignore &&& (255 - 2 ^ c % 256))

/-- A read of SDP_STAT_HALF_LO (R391): every bit returned in either word clears; a counter that crossed half range in this DP cycle
sets its bit again (R406). -/
def State.halfRead (s : State) (w : Who) : Nat × State :=
  let v := s.rd pgSdp SDP_STAT_HALF_half
  (v % 2 ^ 32, (s.wr pgSdp SDP_STAT_HALF_half (if s.door.halfAt.1 = s.dpCycle + 1 then s.door.halfAt.2 else 0)).latchHi (reqPage pgSdp w) 0x0A0 (v / 2 ^ 32))

/-- SDP_LINK_CHANGE (R407). -/
def State.sdpLink (s : State) (lock local_ remote : Bool) : State :=
  if s.rdb pgSdp PAGE_CTRL_run ∧ s.mode ≠ modeDark then
    let link := lock && !local_ && !remote
    let same := decide (s.rdb pgSdp SDP_STATUS_link = link ∧ s.rdb pgSdp SDP_STATUS_local_fault = local_ ∧
      s.rdb pgSdp SDP_STATUS_remote_fault = remote)
    (((s.wrb pgSdp SDP_STATUS_link link).wrb pgSdp SDP_STATUS_local_fault local_).wrb pgSdp SDP_STATUS_remote_fault remote).evWhen (!same)
      pgSdp 0
  else s

/-- Queues that overlap, or run beyond unit 63 (R387). -/
def rowsBad (rows : List (Nat × Nat × Nat)) : Bool :=
  rows.any (fun a => decide (a.2.1 ≠ 0 ∧ 64 < a.1 + a.2.1)) ||
  rows.zipIdx.any (fun a => rows.zipIdx.any (fun b => decide (a.2 < b.2 ∧ a.1.2.1 ≠ 0 ∧ b.1.2.1 ≠ 0 ∧
    a.1.1 < b.1.1 + b.1.2.1 ∧ b.1.1 < a.1.1 + a.1.2.1)))

/-- PAGE_CTRL.run of the port changes (R380, R387): on a start the queue rows and the speed take effect. -/
def State.sdpRunChange (s : State) (on : Bool) : State :=
  if on then
    let rows := (List.range 8).map (fun q => (s.rd pgSdp (SDP_TXQ_CFG_base q), s.rd pgSdp (SDP_TXQ_CFG_size q), s.rd pgSdp (SDP_TXQ_CFG_age q)))
    ({ s with sdpRows := rows, sdpSpeed := s.rd pgSdp SDP_CFG_speed }).wrb pgSdp SDP_STATUS_cfg_err (rowsBad rows)
  else
    let was := s.rdb pgSdp SDP_STATUS_link
    (s.wrb pgSdp SDP_STATUS_link false).evWhen was pgSdp 0

/-- A write of WAKE_MASK takes effect only while its filter is disabled (R392). -/
def State.wakeMaskOk (s : State) (n : Nat) : Bool := !s.rdb pgSdp (SDP_WAKE_CFG_en n)

/-! ### The commands -/

/-- IMP_BLOCK (file 06, R212, R213), with a PTP event message that the block begins, if any (file 12, R435). -/
def execImpBlock (c : CliRef) (p : ImpPeriod) (m : Option LinePtp) := run (fun s =>
  let s := s.impBlock c p
  let s := match c with
    | .line n => if s.refRuns c then s.refreshTxLf n else s
    | .ctx _ _ _ => s
  match c, m with
  | .line n, some x => if s.ethEn n then s.linePtp n x else s
  | _, _ => s)
def execSdpFrameReceive (b : List Nat) := runDark (fun s => s.sdpReceive b)
def execSdpRxDescRead (w : Who) := runBus w pgSdp false (fun s => let (v, s) := s.sdpRxDesc w; s.answer 0 [v])
def execSdpRxDataRead (w : Who) := runBus w pgSdp false (fun s => let (v, s) := s.sdpRxData w; s.answer 0 [v])
def execSdpTxStart (w : Who) (q len : Nat) := runBus w pgSdp true (fun s => s.txStart_ w (q % 8) len)
def execSdpTxAbort (w : Who) := runBus w pgSdp true (fun s => s.txAbort (reqPage pgSdp w))
def execSdpTxDataWrite (w : Who) (v : Nat) := runBus w pgSdp true (fun s => s.txData w v)
def execSdpTransmit := run State.sdpTransmit
def execSdpAgeScan := run State.sdpAgeScan
def execPauseExpiry (c : Nat) := run (fun s => s.pauseExpiry c)
def execPauseBreak (c : Nat) := run (fun s => s.pauseBreak c)
def execPauseIgnoreEnd (c : Nat) := run (fun s => s.pauseIgnoreEnd c)
def execSdpStatHalfRead (w : Who) := runBus w pgSdp false (fun s => let (v, s) := s.halfRead w; s.answer 0 [v])
def execSdpLinkChange (lock lf rf : Bool) := run (fun s => s.sdpLink lock lf rf)
def execCbbWakeAck := run State.wakeAck

end Sys2Proof.Machine
end

