-- ==== Sys2Proof/Machine/Cbb.lean ====
section
/-! DEFINITION. The call board bus and the curtain calls (file 11, R394 to R406). -/

namespace Sys2Proof.Machine

open Sys2Proof

/-- Bus states (CBB_BUS) and curtain-call states (CBB_CC_STATUS). -/
def busMaster : Nat := 0
def busToken : Nat := 1
def busSilent : Nat := 2
def ccOff : Nat := 0
def ccScheduled : Nat := 1
def ccOpenHouse : Nat := 2
def ccLost : Nat := 3

/-- Frame types (Table SDP-3). -/
def cbPoll : Nat := 1
def cbNone : Nat := 2
def cbData : Nat := 3
def cbToken : Nat := 4
def cbBeacon : Nat := 5
def cbWake : Nat := 6

def State.cbbAddr (s : State) : Nat := s.rd pgCbb CBB_CFG_addr
def State.cbbMate (s : State) : Nat := s.rd pgCbb CBB_CFG_mate
def State.cbbState (s : State) : Nat := s.rd pgCbb CBB_BUS_state
def State.ccState (s : State) : Nat := s.rd pgCbb CBB_CC_STATUS_state
def State.ccLeader (s : State) : Bool := decide (s.cbbAddr < s.cbbMate)

/-- The bytes of a frame after the preamble (Table SDP-2, R395). -/
def cbbBytes (dst src typ : Nat) (payload : List Nat) : List Nat :=
  let b := [dst % 128, src % 128, typ, payload.length / 256, payload.length % 256] ++ payload
  b ++ fcsBytes 1 (fcsFeed 1 (fcsInit 1) b)

/-- A byte on the bus (R394) or on a ToD line (file 12, R427): a start bit 0, the 8 data bits least significant first, a stop bit 1. -/
def uartChar (b : Nat) : List Bool := false :: (List.range 8).map (bit b) ++ [true]

/-- The preamble of a frame (R394). -/
def cbbPreamble : List Nat := [0x55, 0x55, 0x55, 0xD5]

/-- A frame on the bus, CBB_DE high throughout (R394). -/
def cbbLine (b : List Nat) : List Bool := (cbbPreamble ++ b).flatMap uartChar

/-- The bytes of bit times in tens: none where a start or a stop bit is wrong. -/
def uartChars : Nat → List Bool → Option (List Nat)
  | 0, _ => some []
  | n + 1, l =>
    let c := l.take 10
    let b := (List.range 8).foldl (fun a k => a + b2n (c.getD (k + 1) false) * 2 ^ k) 0
    if c = uartChar b then (uartChars n (l.drop 10)).map (b :: ·) else none

/-- The bytes of a frame after its preamble, as the bus brings it (R394). -/
def cbbUnline (l : List Bool) : Option (List Nat) :=
  match uartChars ((l.length + 9) / 10) l with
  | some b => if b.take 4 = cbbPreamble then some (b.drop 4) else none
  | none => none

/-- A received frame is whole: its CRC, its length, its type (R395). -/
def cbbGood (b : List Nat) : Bool :=
  let len := by16 b 3
  decide (9 ≤ b.length) && decide (len ≤ 256) && decide (b.length = 9 + len) && decide (1 ≤ b.getD 2 0 ∧ b.getD 2 0 ≤ 6) &&
  decide (fcsBytes 1 (fcsFeed 1 (fcsInit 1) (b.take (5 + len))) = b.drop (5 + len))

/-- Drive a frame onto the bus; a collision stops it and is counted (R396). The answer says whether it went out. -/
def State.cbbDrive (s : State) (dst typ : Nat) (payload : List Nat) (collides : Bool) : Bool × State :=
  if collides then (false, s.count pgCbb CBB_collisions)
  else (true, (s.count pgCbb CBB_tx_frames).emit (.cbbFrame (cbbLine (cbbBytes dst s.cbbAddr typ payload))))

/-- The frame in the transmit buffer, once all of it is written. -/
def State.cbbReady (s : State) : Option CbbTx := s.cbbTx.bind (fun x => if x.len ≤ x.bytes.length then some x else none)

/-- Send the waiting frame, if there is one (R396). -/
def State.cbbSendWaiting (s : State) (collides : Bool) : State :=
  match s.cbbReady with
  | some x =>
    let (ok, s) := s.cbbDrive x.dst x.typ x.bytes collides
    if ok then ((({ s with cbbTx := none }).wr x.who CBB_TX_STATUS_code 0).ev pgCbb 1) else s
  | none => s

/-- The payload of a NONE reply (Table SDP-3). -/
def State.nonePayload (s : State) : List Nat :=
  [s.mode, b2n (decide (s.ccState = ccLost)) + 2 * b2n (decide (s.ccState = ccOpenHouse))]

/-- The reply to a POLL (R397); in DARK always NONE (R398). -/
def State.cbbReply (s : State) (src : Nat) (collides : Bool) : State :=
  if s.cbbReady.isSome ∧ s.mode ≠ modeDark then s.cbbSendWaiting collides
  else (s.cbbDrive src cbNone s.nonePayload collides).2

/-! ### The token -/

/-- Addresses heard in the last second (R398): 1 s is 1,750,000,000 DP cycles. -/
def State.ring (s : State) : List Nat := (s.cbbRing.filter (fun x => decide (s.dpCycle - x.2 ≤ 1750000000))).map (·.1)

/-- The next higher address of the ring, wrapping round; none when the station is alone. -/
def State.ringNext (s : State) (from_ : Nat) : Option Nat :=
  let l := (s.ring.filter (fun a => decide (a ≠ s.cbbAddr)))
  let up := l.filter (fun a => decide (from_ < a))
  let pick (l : List Nat) : Option Nat := l.foldl (fun m a => match m with
    | some x => some (min x a)
    | none => some a) none
  match pick up with
  | some a => some a
  | none => pick l

/-- Pass the token on; a station alone keeps it. -/
def State.passToken (s : State) (from_ : Nat) : State :=
  match s.ringNext from_ with
  | some a =>
    let (_, s) := s.cbbDrive a cbToken [] false
    ({ s with cbbNext := some a }).wrb pgCbb CBB_BUS_token_held false
  | none => ({ s with cbbNext := none }).wrb pgCbb CBB_BUS_token_held true

/-- The holder sends at most one DATA frame and then a TOKEN (R398). -/
def State.holdToken (s : State) (collides : Bool) : State :=
  ((s.wrb pgCbb CBB_BUS_token_held true).cbbSendWaiting collides).passToken s.cbbAddr

/-! ### Curtain calls -/

/-- A beacon's payload (Table SDP-4). -/
def State.beaconPayload (s : State) : List Nat :=
  let st := s.ccState
  [1, s.mode, b2n (decide (st = ccOpenHouse)) + 2 * b2n (decide (st = ccLost)) + 4 * b2n (s.rdb pgCbb CBB_WAKE_CAUSE_wake_out), 0] ++
  bytesBe 4 s.cbbSeq ++ bytesBe 8 Config.fuseSerial

/-- Send a beacon to the mate (R401); one that collides is owed a retry (R396). -/
def State.sendBeacon (s : State) (collides : Bool) : State :=
  let (ok, s) := s.cbbDrive s.cbbMate cbBeacon s.beaconPayload collides
  let s := { s with door := { s.door with retry := !ok } }
  if ok then ({ s with cbbSeq := (s.cbbSeq + 1) % 2 ^ 32 }).count pgCbb CBB_beacons_tx else s

/-- BEACON_SEND (R396, R401, R404): the leader at its scheduled centre, and either device where a beacon is retried. -/
def State.beaconSend (s : State) (collides : Bool) : State :=
  if s.rdb pgCbb CBB_CFG_cc_en && (s.ccLeader || s.door.retry) then s.sendBeacon collides else s

/-- The period P, the guard G and G_eff = max (G, P × 100 ppm + 50 µs), in 0.5 µs (R403). -/
def State.ccPeriod (s : State) : Nat := 20000 * max 1 (min 6000 (s.rd pgCbb CBB_CC_CFG_period))
def State.ccGuard (s : State) : Nat := 20 * max 1 (s.rd pgCbb CBB_CC_CFG_guard)
def State.ccGuardEff (s : State) : Nat := max s.ccGuard (s.ccPeriod / 10000 + 100)

/-- How far a time lies from the device's own nearest centre C_k (R401), in 0.5 µs. -/
def State.ccOffset (s : State) (t : Nat) : Int :=
  let p : Int := s.ccPeriod
  let r := ((t : Int) - s.door.centre) % p
  if 2 * r ≤ p then r else r - p

/-- A beacon of 29 bytes lies within the listen window, C_k − G_eff to C_k + G_eff, from its start to its end (R401 to R403). -/
def State.ccInWindow (s : State) (t : Nat) : Bool :=
  let d := s.ccOffset t
  decide (-(s.ccGuardEff : Int) ≤ d) && decide (d + 29 ≤ s.ccGuardEff)

/-- The frame is a beacon of the mate that the device hears: within its window, or in open house (R401, R404). -/
def State.ccHears (s : State) (x : CbbRx) : Bool :=
  match cbbUnline x.line with
  | some b => cbbGood b && decide (b.getD 2 0 = cbBeacon) && decide (b.getD 0 0 % 128 = s.cbbAddr) && decide (b.getD 1 0 % 128 = s.cbbMate) &&
    s.rdb pgCbb CBB_CFG_cc_en && (s.ccInWindow x.start || decide (s.ccState = ccOpenHouse))
  | none => false

/-- A beacon of the mate completes in this very cycle (R406). -/
def State.ccSoon (s : State) : Bool :=
  s.pending.any (fun c => match c with
    | .cbbFrameReceive x => s.ccHears x
    | _ => false)

/-- A POLL is heard in this very cycle (R406). -/
def State.pollSoon (s : State) : Bool :=
  s.door.polled || s.pending.any (fun c => match c with
    | .cbbFrameReceive x => (match cbbUnline x.line with
      | some b => cbbGood b && decide (b.getD 2 0 = cbPoll)
      | none => false)
    | _ => false)

/-- The mate's beacon is heard (R401, R402, R404, R405). -/
def State.beaconHeard (s : State) (x : CbbRx) : State :=
  let st := s.ccState
  let found := decide (st = ccOpenHouse ∨ st = ccLost)
  let d := s.ccOffset x.start
  let off : Int := (if s.ccLeader then d - 69 else d) / 2
  let c : Door := { s.door with centre := if s.ccLeader then s.door.centre else x.start, shut := false }
  let s := ({ s with cbbHeard := !s.door.shut, door := c }).count pgCbb CBB_beacons_rx
  let s := ((s.wr pgCbb CBB_CC_STATUS_misses 0).wr pgCbb CBB_CC_STATUS_offset (ofSigned 16 (clampInt (-32767) 32767 off))).wr pgCbb
    CBB_CC_STATUS_state ccScheduled
  let s := if s.ccLeader then s else s.sendBeacon x.collides
  s.evWhen found pgCbb 2

/-- WINDOW_CLOSE (R402, R404): a beacon that completes in the same cycle was heard. -/
def State.windowClose (s : State) : State :=
  let st := s.ccState
  let s := { s with door := { s.door with retry := false } }
  if st = ccScheduled ∨ st = ccLost then
    if s.cbbHeard ∨ s.ccSoon then { s with cbbHeard := false, door := { s.door with shut := s.ccSoon } }
    else
      let m := min 15 (s.rd pgCbb CBB_CC_STATUS_misses + 1)
      let s := (s.wr pgCbb CBB_CC_STATUS_misses m).count pgCbb CBB_misses
      if m = 2 then ((s.wr pgCbb CBB_CC_STATUS_state ccOpenHouse).count pgCbb CBB_open_house).ev pgCbb 3 else s
  else s

/-- PARTNER_LOST (R405): not where a beacon of the mate arrives in the same cycle. -/
def State.partnerLost (s : State) : State :=
  if s.ccState = ccOpenHouse ∧ !s.ccSoon then
    (((s.wr pgCbb CBB_CC_STATUS_state ccLost).count pgCbb CBB_lost).ev pgCbb 4).setWake CBB_WAKE_CAUSE_partner_lost
  else s

/-- CBB_CFG has been written: curtain calls start or stop, and the leader is judged (R401). -/
def State.ccConfig (s : State) : State :=
  let s := s.wrb pgCbb CBB_CC_STATUS_leader s.ccLeader
  if s.rdb pgCbb CBB_CFG_cc_en then (if s.ccState = ccOff then (s.wr pgCbb CBB_CC_STATUS_state ccScheduled).wr pgCbb CBB_CC_STATUS_misses 0 else s)
  else { (s.wr pgCbb CBB_CC_STATUS_state ccOff) with cbbHeard := false, door := { s.door with shut := false, retry := false } }

/-! ### Receiving -/

/-- A frame for the receive queue of 16 (R396). -/
def State.cbbQueue (s : State) (f : CbbFrame) : State :=
  let full := decide (16 ≤ s.cbbRx.length)
  let s := { s with cbbRx := (if full then s.cbbRx.drop 1 else s.cbbRx) ++ [f] }
  (if full then s.count pgCbb CBB_rx_lost else s).ev pgCbb 0

/-- The bus is in MASTER from a POLL on (R397, R398). -/
def State.heardPoll (s : State) : State :=
  let was := s.cbbState
  ((({ s with cbbNext := none, door := { s.door with polled := true } }).wr pgCbb CBB_BUS_state busMaster).wrb pgCbb CBB_BUS_token_held false).evWhen (decide (was ≠ busMaster)) pgCbb 6

/-- CBB_FRAME_RECEIVE (R395 to R401). -/
def State.cbbReceive (s : State) (x : CbbRx) : State :=
  let b := (cbbUnline x.line).getD []
  if !cbbGood b then s.count pgCbb CBB_rx_bad
  else
    let dst := b.getD 0 0 % 128
    let src := b.getD 1 0 % 128
    let typ := b.getD 2 0
    let pay := (b.drop 5).take (by16 b 3)
    let mine := decide (dst = s.cbbAddr)
    let s := s.count pgCbb CBB_rx_frames
    let s := { s with cbbRing := (src, s.dpCycle) :: s.cbbRing.filter (fun e => decide (e.1 ≠ src)), cbbNext := if s.cbbNext = some src then none else s.cbbNext }
    if typ = cbPoll then
      let s := s.heardPoll
      if mine then s.cbbReply src x.collides else s
    else if typ = cbData then
      if (mine || decide (dst = 0x7F)) && decide (s.mode ≠ modeDark) then s.cbbQueue ⟨src, typ, pay⟩ else s
    else if typ = cbToken then
      if mine && decide (s.cbbState = busToken) && decide (s.mode ≠ modeDark) then s.holdToken x.collides else s
    else if typ = cbBeacon then
      if s.ccHears x then s.beaconHeard x else s
    else if typ = cbWake then
      if mine && s.rdb pgCbb CBB_CFG_wake_en then s.setWake CBB_WAKE_CAUSE_cbb_wake else s
    else s

/-! ### Sending -/

/-- CBB_TX_CMD SEND (R396). -/
def State.cbbSend (s : State) (w : Who) (typ dst len : Nat) : State :=
  let rq := reqPage pgCbb w
  if (typ ≠ cbData ∧ typ ≠ cbWake) ∨ 256 < len ∨ (typ = cbWake ∧ len ≠ 0) then s.wr rq CBB_TX_STATUS_code 3
  else if s.cbbTx.isSome then s.wr rq CBB_TX_STATUS_code 2
  else ({ s with cbbTx := some { typ := typ, dst := dst % 128, len := len, bytes := [], who := rq } }).wr rq CBB_TX_STATUS_code 1

/-- A write of CBB_TX_DATA adds four payload bytes. -/
def State.cbbData (s : State) (w : Who) (v : Nat) : State :=
  let rq := reqPage pgCbb w
  match s.cbbTx with
  | some x =>
    if x.who = rq ∧ x.bytes.length < x.len then
      { s with cbbTx := some { x with bytes := (x.bytes ++ (List.range 4).map (fun k => v / 256 ^ k % 256)).take x.len } }
    else s
  | none => s

/-- CBB_TX_CMD ABORT: the frame being prepared is discarded. -/
def State.cbbAbort (s : State) (w : Who) : State :=
  let rq := reqPage pgCbb w
  match s.cbbTx with
  | some x => if x.who = rq ∧ x.bytes.length < x.len then ({ s with cbbTx := none }).wr rq CBB_TX_STATUS_code 0 else s
  | none => s

/-- CBB_TX_TIMEOUT (R396). -/
def State.cbbTimeout (s : State) : State :=
  match s.cbbTx with
  | some x => (({ s with cbbTx := none }).wr x.who CBB_TX_STATUS_code 4).count pgCbb CBB_tx_dropped
  | none => s

/-- A read of CBB_RX_DESC (R396). -/
def State.cbbRxDesc (s : State) (w : Who) : Nat × State :=
  let rq := reqPage pgCbb w
  match s.cbbRx with
  | f :: rest =>
    (f.src % 128 * 2 ^ 24 + f.typ % 256 * 2 ^ 16 + f.payload.length, { s with cbbRx := rest, cbbCur := s.cbbCur.set [] rq f.payload })
  | [] => (2 ^ 31, { s with cbbCur := s.cbbCur.erase rq })

/-- A read of CBB_RX_DATA. -/
def State.cbbRxData (s : State) (w : Who) : Nat × State :=
  let rq := reqPage pgCbb w
  let (v, c) := takeWord (s.cbbCur.get [] rq)
  (v, { s with cbbCur := s.cbbCur.set [] rq c })

/-! ### Timers -/

/-- MASTER_LOST (R397): not where a POLL is heard in the same cycle (R398). -/
def State.masterLost (s : State) : State :=
  if s.cbbState = busMaster ∧ !s.pollSoon then
    (s.wr pgCbb CBB_BUS_state (if s.rdb pgCbb CBB_CFG_token_en then busToken else busSilent)).ev pgCbb 5
  else s

/-- TOKEN_REGEN (R398): never in DARK. -/
def State.tokenRegen (s : State) (collides : Bool) : State :=
  if s.cbbState = busToken ∧ s.mode ≠ modeDark then (s.count pgCbb CBB_token_regen).holdToken collides else s

/-- TOKEN_SUCCESSOR_TIMEOUT (R398). -/
def State.successorLost (s : State) : State :=
  match s.cbbNext with
  | some a =>
    if s.cbbState = busToken then
      ({ s with cbbRing := s.cbbRing.filter (fun e => decide (e.1 ≠ a)), cbbNext := none }).passToken a
    else s
  | none => s

/-! ### The commands -/

def execCbbFrameReceive (x : CbbRx) := runAon (fun s => s.cbbReceive x)
def execCbbTxSend (w : Who) (typ dst len : Nat) := runBus w pgCbb true (fun s => s.cbbSend w typ dst len)
def execCbbTxAbort (w : Who) := runBus w pgCbb true (fun s => s.cbbAbort w)
def execCbbTxTimeout := runAon State.cbbTimeout
def execMasterLost := runAon State.masterLost
def execTokenRegen (collides : Bool) := runAon (fun s => s.tokenRegen collides)
def execTokenSuccessorTimeout := runAon State.successorLost
def execBeaconSend (collides : Bool) := runAon (fun s => s.beaconSend collides)
def execWindowClose := runAon State.windowClose
def execPartnerLost := runAon State.partnerLost

end Sys2Proof.Machine
end

