-- ==== Sys2Proof/Machine/Tim.lean ====
section
/-! DEFINITION. The time base, its inputs and outputs, its discipline, and the timestamp log (file 12, R420 to R436). -/

namespace Sys2Proof.Machine

open Sys2Proof

/-- Event bits of the TIM page (R439). -/
def timPpsLost : Nat := 0
def timPpsBack : Nat := 1
def timTodLost : Nat := 2
def timQuality : Nat := 3
def timStep : Nat := 4
def timFreqLimit : Nat := 5
def timExpired : Nat := 6

def secNs : Int := 1000000000

/-- The time base in nanoseconds. -/
def State.tbNs (s : State) : Int := s.tb.sec * secNs + s.tb.ns

/-- The time base moves on to a nanosecond of the running second: what a captured edge says of the time that has passed. -/
def State.tbTo (s : State) (ns : Nat) : State :=
  if s.tb.ns ≤ ns ∧ ns < 1000000000 then { s with tb := { s.tb with ns := ns } } else s

/-! ### Counting (R423) -/

/-- 4/7 ns in units of 2^-48 ns. -/
def incrNom : Nat := 0x924924924925

/-- What one DP cycle adds, in units of 2^-48 ns: φ is held in 2^-16 ppm, σ in ppm. The rounding of the product and the
momentary period under core spread are free, the latter within the spread in effect (R416). -/
def State.tbIncr (s : State) : Int × State :=
  let phi := toSigned 32 (s.rd pgTim TIM_FREQ_value)
  let (a, s) := s.divFree (incrNom * (1000000 * 65536 + phi + s.tim.sigma * 65536)) (1000000 * 65536)
  let ssc := (s.csus.get {} 0).ssc
  if ssc = 1 ∨ ssc = 2 then
    let (u, s) := s.free 48
    (a + u % (a.toNat / (if ssc = 1 then 399 else 199) + 1), s)
  else (a, s)

/-! ### Quality (Table TIM-7) -/

def State.ppsOk (s : State) (j : Nat) : Bool := s.rdb pgTim (if j = 0 then TIM_STATUS_pps0_ok else TIM_STATUS_pps1_ok)
def State.ppsAny (s : State) : Bool := s.ppsOk 0 || s.ppsOk 1

/-- The active input (R426). -/
def State.ppsActive (s : State) : Nat :=
  let sel := s.rd pgTim TIM_CFG_pps_sel
  if sel = 0 then 0 else if sel = 1 then 1 else if s.ppsOk 0 then 0 else 1

def State.timLocked (s : State) : Bool := s.ppsOk s.ppsActive && decide (2 ≤ s.tim.lockRun)

/-- The last offset is at or above the step threshold. -/
def State.overThresh (s : State) : Bool :=
  match s.tim.theta with
  | some t => decide (s.rd pgTim TIM_STEP_thresh ≤ t.natAbs)
  | none => false

/-- The quality without STEP_PENDING. -/
def State.baseQuality (s : State) : Nat :=
  if s.timLocked then 0 else if s.tim.everLocked && !s.tim.expired then 1 else 2

/-- Bring the active input and the quality up to date; a change of quality is recorded. -/
def State.timRefresh (s : State) : State :=
  let s := s.wr pgTim TIM_STATUS_active s.ppsActive
  let s := if s.timLocked then { s with tim := { s.tim with everLocked := true, expired := false } } else s
  let q := if s.overThresh && !s.rdb pgTim TIM_CFG_step_allowed then 3 else s.baseQuality
  if s.rd pgTim TIM_STATUS_quality = q then s else (s.wr pgTim TIM_STATUS_quality q).ev pgTim timQuality

/-! ### Discipline (R429) -/

/-- Set the slew. -/
def State.setSigma (s : State) (rho sigma : Int) : State :=
  ({ s with tim := { s.tim with rho := rho, sigma := sigma, moved := 0 } }).wrb pgTim TIM_STATUS_slewing (decide (sigma ≠ 0))

/-- Move the time base by a step, with the readings that were taken on it. -/
def State.shiftTime (s : State) (d : Int) : State :=
  let t := ((s.tbNs + d) % (2 ^ 48 * secNs)).toNat
  let mv (x : PpsIn) : PpsIn := { x with last := x.last.map (· + d), lastAcc := x.lastAcc.map (· + d) }
  let s := { s with tb := { s.tb with sec := t / 1000000000, ns := t % 1000000000 } }
  let s := { s with pps := (s.pps.upd ({} : PpsIn) 0 mv).upd ({} : PpsIn) 1 mv }
  { s with ppsOutLast := (s.ppsOutLast.upd none 0 (·.map (· + d))).upd none 1 (·.map (· + d)) }

/-- A step (R432): recorded, counted, the running second's records partial (R189). -/
def State.stepTime (s : State) (d : Int) : State :=
  let s := { s.shiftTime d with tbStepped := true }
  ((s.count pgTim TIM_STEPS).wrb pgTim TIM_STATUS_time_set true).ev pgTim timStep

/-- A step of this cycle waits for its end: a second boundary closes first (Table TIM-11). -/
def State.stepWaits (s : State) : Bool := s.pending.contains .secondBoundary || decide (s.tb.ns = 999999999)

/-- Step, or leave the step to the end of this cycle (R429). -/
def State.stepSoon (s : State) (d : Int) : State :=
  if s.stepWaits then { s with tim := { s.tim with stepDue := some d } } else s.stepTime d

/-- The step that is due. -/
def State.stepNow (s : State) : State :=
  match s.tim.stepDue with
  | some d => ({ s with tim := { s.tim with stepDue := none } }).stepTime d
  | none => s

/-- The slew of one DP cycle: once the time base has moved by ρ, σ is 0 (R429). -/
def State.slewTick (s : State) : State :=
  if s.tim.sigma = 0 then s
  else
    let m := s.tim.moved + incrNom * s.tim.sigma.natAbs
    if s.tim.rho.natAbs * (2 ^ 48 * 1000000) ≤ m then s.setSigma 0 0 else { s with tim := { s.tim with moved := m } }

/-- The limit of φ, 100 ppm, in 2^-16 ppm. -/
def phiMax : Int := 6553600

/-- The frequency law on an accepted edge. The gains of the loop are not stated: the new φ is free within ±100 ppm. -/
def State.newPhi (s : State) : State :=
  let (v, s) := s.free 32
  let phi := max (-phiMax) (min phiMax (toSigned 32 v))
  let limit := decide (phi.natAbs = phiMax.natAbs)
  let was := s.rdb pgTim TIM_STATUS_freq_limit
  let s := (s.wr pgTim TIM_FREQ_value (ofSigned 32 phi)).wrb pgTim TIM_STATUS_freq_limit limit
  let s := s.evWhen (limit && !was) pgTim timFreqLimit
  let l := (phi :: s.tim.phis).take 60
  let s := { s with tim := { s.tim with phis := l } }
  let (m, s) := s.divFree (l.foldl (· + ·) 0) l.length
  s.wr pgTim TIM_FREQ_AVG_value (ofSigned 32 m)

/-- The slew rate in ppm (TIM_LOCK). -/
def State.slewPpm (s : State) : Nat := max 1 (min 10 (s.rd pgTim TIM_LOCK_slew_ppm))

/-- An accepted edge of the active input with offset θ. -/
def State.discipline (s : State) (theta : Int) : State :=
  let s := s.wr pgTim TIM_OFFSET_value (ofSigned 32 (clampSigned 32 theta))
  let s := s.newPhi
  let run := if theta.natAbs ≤ s.rd pgTim TIM_LOCK_lock_ns then min 2 (s.tim.lockRun + 1) else 0
  let s := { s with tim := { s.tim with lockRun := run, theta := some theta } }
  let s :=
    if s.overThresh && (s.rdb pgTim TIM_CFG_step_allowed || !s.rdb pgTim TIM_STATUS_time_set) then
      let s := (s.setSigma 0 0).stepSoon theta
      { s with tim := { s.tim with theta := some 0 } }
    else s.setSigma theta (Int.sign theta * s.slewPpm)
  s.timRefresh

/-! ### Time inputs (R425 to R427) -/

/-- The whole number of seconds nearest to a reading. -/
def nearestSec (t : Int) : Int := (t + 500000000) / secNs

def ppsMissed (j : Nat) : Field := if j = 0 then TIM_pps_missed0 else TIM_pps_missed1
def ppsOkF (j : Nat) : Field := if j = 0 then TIM_STATUS_pps0_ok else TIM_STATUS_pps1_ok

/-- Accepted edges without a valid message lose the ToD input after three (R427). -/
def State.todEdge (s : State) : State :=
  let n := if s.tim.todNext.isSome then 0 else s.tim.todMiss + 1
  let s := { s with tim := { s.tim with todMiss := n } }
  if 3 ≤ n ∧ s.rdb pgTim TIM_STATUS_tod_ok then (s.wrb pgTim TIM_STATUS_tod_ok false).ev pgTim timTodLost else s

/-- The offset of an edge of input j captured at `te` (R425). -/
def State.ppsTheta (s : State) (j : Nat) (te : Int) : Int :=
  let sec : Int := match s.tim.todNext with
    | some v => v
    | none => nearestSec te
  sec * secNs + toSigned 32 (s.rd pgTim (TIM_PPS_DELAY_delay j)) - te

/-- The offset without its whole seconds lies in the acceptance window (R426). -/
def State.ppsInWindow (s : State) (theta : Int) : Bool :=
  decide ((Int.tmod theta secNs).natAbs ≤ 1000 * max 1 (s.rd pgTim TIM_CFG_pps_win))

/-- The edge comes 1 s ± 1 µs after the last one. -/
def PpsIn.spaced (x : PpsIn) (te : Int) : Bool :=
  match x.last with
  | some t => decide ((te - t - secNs).natAbs ≤ 1000)
  | none => false

/-- The seconds without an accepted edge between the last accepted one and this one. -/
def PpsIn.missed (x : PpsIn) (te : Int) : Nat :=
  match x.lastAcc with
  | some t => (nearestSec (te - t) - 1).toNat
  | none => 0

/-- Qualification (R426): the third edge in a row qualifies the input. -/
def State.ppsQualify (s : State) (j : Nat) (te : Int) : State :=
  let x := s.pps.get {} j
  let runs := if x.spaced te then min 3 (x.runs + 1) else 1
  let s := { s with pps := s.pps.set {} j { x with runs := runs, last := some te } }
  if !s.ppsOk j && decide (3 ≤ runs) then ((s.wrb pgTim (ppsOkF j) true).ev pgTim timPpsBack).timRefresh else s

/-- An accepted edge of an input. -/
def State.ppsTake (s : State) (j : Nat) (te : Int) : State :=
  let s := s.count pgTim (ppsMissed j) ((s.pps.get {} j).missed te)
  { s with pps := s.pps.upd {} j (fun y => { y with lastAcc := some te }) }

/-- An edge of the other input in this cycle makes input j qualified (Table TIM-11). -/
def State.qualifiesSoon (s : State) (p : Nat → Bool) : Bool :=
  s.pending.any (fun c => match c with
    | .ppsEdge j ns => p j && decide (j < 2) && ((s.tbTo ns).ppsQualify j (s.tbTo ns).tbNs).ppsOk j
    | _ => false)

/-- PPS_EDGE (R425, R426): an edge of input j captured when the time base reads `ns` in its second. Of edges of both inputs with
pps_sel = 2, input 0's is used (Table TIM-11). -/
def State.ppsEdge (s : State) (j ns : Nat) : State :=
  if 2 ≤ j then s
  else
    let s := s.tbTo ns
    let te := s.tbNs
    let s := s.ppsQualify j te
    let theta := s.ppsTheta j te
    let active := decide (s.ppsActive = j) && !(decide (j = 1 ∧ 2 ≤ s.rd pgTim TIM_CFG_pps_sel) && s.qualifiesSoon (fun k => decide (k = 0)))
    let accepted := s.ppsOk j && (decide (s.rd pgTim TIM_STATUS_quality ≠ 0) || s.ppsInWindow theta)
    let s := if accepted then s.ppsTake j te else s
    let s := if accepted && active then ({ s with tim := { s.tim with accAt := s.dpCycle + 1 } }).todEdge.discipline theta else s
    if active then { s with tim := { s.tim with todNext := none } } else s

/-- PPS_LOST (R426): three seconds without an accepted edge; with no input left, blackout begins (R430). -/
def State.ppsLose (s : State) (j : Nat) : State :=
  if decide (j < 2) && s.ppsOk j then
    let s := (s.wrb pgTim (ppsOkF j) false).count pgTim (ppsMissed j) 3
    let s := { s with pps := s.pps.set {} j {} }
    let s := s.ev pgTim timPpsLost
    let s := if s.ppsOk s.ppsActive then s else { s with tim := { s.tim with lockRun := 0 } }
    let s := if s.ppsAny then s else (s.wr pgTim TIM_FREQ_value (s.rd pgTim TIM_FREQ_AVG_value)).setSigma 0 0
    s.timRefresh
  else s

/-- A ToD message is whole (R427, Table TIM-6). -/
def todGood (b : List Nat) : Bool :=
  decide (b.length = 16 ∧ b.take 4 = [0xA5, 0x5A, 0x01, 0x0A]) && decide (crc16 ((b.drop 2).take 12) = by16 b 14)

/-- The time base stands after edge k of the active input and at least 10 ms before edge k + 1 (R427). -/
def State.todInTime (s : State) : Bool :=
  match (s.pps.get {} s.ppsActive).last with
  | some t => decide (0 < s.tbNs - t ∧ s.tbNs - t ≤ 990000000)
  | none => false

/-- TOD_MESSAGE (R427): the bit times of a message on TOD_IN, complete when the time base reads `ns` in its second. -/
def State.todMessage (s : State) (line : List Bool) (ns : Nat) : State :=
  let s := s.tbTo ns
  let b := (uartChars ((line.length + 9) / 10) line).getD []
  if todGood b && s.todInTime then
    let s := { s with tim := { s.tim with todNext := some (by16 b 4 * 2 ^ 32 + by32 b 6), todLast := (b.drop 10).take 3 } }
    s.wrb pgTim TIM_STATUS_tod_ok true
  else s.count pgTim TIM_tod_err

/-- SLEW_DONE (R429). -/
def State.slewDone (s : State) : State := if s.tim.sigma ≠ 0 then s.setSigma 0 0 else s

/-- An edge of the active input is accepted in this cycle. -/
def State.edgeNow (s : State) : Bool :=
  decide (s.tim.accAt = s.dpCycle + 1) || s.pending.any (fun c => match c with
    | .ppsEdge j ns => decide ((s.ppsEdge j ns).tim.accAt = s.dpCycle + 1)
    | _ => false)

/-- HOLDOVER_EXPIRED (R430): not in the cycle of a return (Table TIM-11). -/
def State.holdoverExpired (s : State) : State :=
  if s.rd pgTim TIM_CFG_holdover_h ≠ 0 ∧ s.baseQuality = 1 ∧ !s.edgeNow then
    (({ s with tim := { s.tim with expired := true } }).ev pgTim timExpired).timRefresh
  else s

/-! ### Outputs (R420 to R422, R428) -/

/-- The amplitude of a differential output by its format: mV, or mA for LVCMOS (Table TIM-5). -/
def outAmplitude (fmt swing : Nat) : Nat :=
  if fmt = 0 then 250 + 25 * min swing 7 else if fmt = 1 then 600 + 50 * min swing 7
  else if fmt = 2 then 400 + 50 * swing else 4 * (min swing 3 + 1)

/-- The reference of a unit in Hz (Table TIM-1): of an LG unit by the type of its last re-band. -/
def State.refHz (s : State) (u : Nat) : Nat :=
  if 1 ≤ u ∧ u ≤ 32 then (if (s.csus.get {} u).refType = 0 then 174703125 else 156250000)
  else if 33 ≤ u ∧ u ≤ 48 then 175000000 else 100000000

/-- A differential output of a clock with its format (R422): LVCMOS takes the divider as at least 1. -/
def clkPin (src hz k fmt swing : Nat) : ClkPin := ⟨src, hz, if fmt = 3 then max 1 k else k, fmt, outAmplitude fmt swing⟩

/-- What RCLK_OUT n carries, or nothing while it is squelched (R420). -/
def State.rclkOut (s : State) (n : Nat) : Option ClkPin :=
  let l := s.rd pgTim (TIM_RCLK_lane n)
  let locks := s.rdb (pgLln l) LLN_STATUS_sig_det && s.rdb (pgLln l) LLN_STATUS_cdr_lock && s.rdb (pgLln l) LLN_STATUS_cw_lock
  if s.rdb pgTim (TIM_RCLK_en n) && s.rdb (pgLln l) PAGE_CTRL_run && !s.rdb (laneCsu l) CSU_STATUS_gated &&
      (locks || !s.rdb pgTim (TIM_RCLK_squelch n)) then
    some (clkPin l (s.refHz (1 + l / 8)) (s.rd pgTim (TIM_RCLK_div n)) (s.rd pgTim (TIM_RCLK_fmt n)) (s.rd pgTim (TIM_RCLK_swing n)))
  else none

/-- What REF_OUT carries while it is enabled and the reference has edges (R421). -/
def State.refOut (s : State) : Option ClkPin :=
  let src := s.rd pgTim TIM_REFOUT_src
  let idx := s.rd pgTim TIM_REFOUT_idx
  let u := if src = 1 then 1 + idx else if src = 2 then 33 + idx % 16 else 0
  if s.rdb pgTim TIM_REFOUT_en && !(s.csus.get {} u).dead then
    some (clkPin u (s.refHz u) (s.rd pgTim TIM_REFOUT_div) (s.rd pgTim TIM_REFOUT_fmt) (s.rd pgTim TIM_REFOUT_swing))
  else none

/-- The clock outputs follow their settings and sources with the DP cycle (R420 to R422: within 1 µs and 10 µs). -/
def State.clockPins (s : State) : State :=
  { s with tim := { s.tim with rclk := (List.range 8).map s.rclkOut, refPin := s.refOut } }

/-- The rising edges of PPS_OUT at a second boundary (R428). -/
def State.ppsOutEdge (s : State) (j : Nat) : State :=
  let near := match s.ppsOutLast.get none j with
    | some t => decide (s.tbNs - t < 500000000)
    | none => false
  let mute := s.rdb pgTim (TIM_PPS_OUT_squelch_free j) && decide (s.rd pgTim TIM_STATUS_quality = 2)
  if s.rdb pgTim (TIM_PPS_OUT_en j) && !mute && !near then
    ({ s with ppsOutLast := s.ppsOutLast.set none j (some s.tbNs) }).emit
      (.ppsOut j (max 1 (min 500000 (s.rd pgTim (TIM_PPS_OUT_width j)))))
  else s

/-- TOD_OUT_SEND (R428): the message that describes the next second boundary. -/
def State.todOutSend (s : State) : State :=
  if s.rdb pgTim TIM_TOD_OUT_en then
    let n := (s.tb.sec + 1) % 2 ^ 48
    let body := [0x01, 0x0A] ++ (List.range 6).map (fun k => n / 256 ^ (5 - k) % 256) ++ s.tim.todLast ++ [s.rd pgTim TIM_TOD_OUT_class]
    let c := crc16 body
    s.emit (.todOut (([0xA5, 0x5A] ++ body ++ [c / 256, c % 256]).flatMap uartChar))
  else s

/-! ### The second boundary -/

/-- SET_SEC (R432): load the requester's seconds at the next second boundary, or refuse while an input is qualified, or qualifies in this
cycle (Table TIM-11). -/
def State.setSecCmd (s : State) (w : Who) : State :=
  if s.ppsAny || s.qualifiesSoon (fun _ => true) then s.wrb pgTim TIM_STATUS_set_refused true
  else
    ({ s with tim := { s.tim with setSec := some (s.rd (reqPage pgTim w) TIM_SET_SEC_sec) } }).wrb pgTim TIM_STATUS_set_refused false

/-- The groups of a status table whose WTR runs count down (file 07, GRP_STATUS). -/
def State.wtrTable (s : State) (pg : Nat) (t : Tab) : State :=
  s.each ((listed s.tabs pg t).filter (fun e => efieldb e.2 GRP_STATUS.wtr_run)) (fun s e =>
    s.tput pg t e.1 GRP_STATUS.wtr_left (s.tget pg t e.1 GRP_STATUS.wtr_left - 1))

def State.wtrSecond (s : State) : State :=
  s.each (List.range 8) (fun s r => (s.wtrTable (pgSel r) T_SEL_GRP_STATUS).wtrTable (pgIsl r) T_ISL_GRP_STATUS)

/-- What happens when the time base has reached a second boundary: the second closes with its records, then a set_sec that
waits applies as a step (Table TIM-11), and PPS_OUT rises. -/
def State.atSecond (s : State) (sec quality : Nat) : State :=
  let s := (s.closeSecond sec quality).wtrSecond
  let s := match s.tim.setSec with
    | some v => ({ s with tim := { s.tim with setSec := none } }).stepTime ((v : Int) * secNs - s.tbNs)
    | none => s
  (s.ppsOutEdge 0).ppsOutEdge 1

/-- SECOND_BOUNDARY (R186, R423): the nanoseconds reach 10^9; the fraction then is free, below one cycle's increment. -/
def State.secondBoundary (s : State) : State :=
  let (u, s) := s.free 48
  let sec := s.tb.sec
  let q := s.rd pgTim TIM_STATUS_quality
  (({ s with tb := { sec := (sec + 1) % 2 ^ 48, ns := 0, frac := u % incrNom } }).atSecond sec q).stepNow

/-- The time base advances by one DP cycle (R423). -/
def State.tbTick (s : State) : State :=
  let (a, s) := s.tbIncr
  let s := s.slewTick
  let f := s.tb.frac + a.toNat
  let ns := s.tb.ns + f / 2 ^ 48
  let q := s.rd pgTim TIM_STATUS_quality
  if ns < 1000000000 then { s with tb := { s.tb with ns := ns, frac := f % 2 ^ 48 } }.stepNow
  else
    let sec := s.tb.sec
    (({ s with tb := { sec := (sec + ns / 1000000000) % 2 ^ 48, ns := ns % 1000000000, frac := f % 2 ^ 48 } }).atSecond sec q).stepNow

/-! ### Reads -/

/-- TIM_NOW_READ (R424): the seconds, and the rest of the same cycle's reading for the reader. -/
def State.nowRead (s : State) (w : Who) : Nat × State :=
  let t := s.now
  let rq := reqPage pgTim w
  let s := s.wr rq (TIM_NOW 1) (s.tb.frac / 2 ^ 32 * 65536 + t.sec / 2 ^ 32 % 65536)
  let s := s.wr rq (TIM_NOW 2) (t.quality * 2 ^ 30 + t.ns)
  (t.sec % 2 ^ 32, s)

/-- TIM_TS_READ (R436): the oldest entry of the timestamp log, its other words for the reader. -/
def State.tsRead (s : State) (w : Who) : Nat × State :=
  let rq := reqPage pgTim w
  let e := s.tsLog.headD 0
  let s := { s with tsLog := s.tsLog.drop 1 }
  let s := s.each [1, 2, 3] (fun s k => s.wr rq (TIM_TS_entry k) (e / 2 ^ (32 * k) % 2 ^ 32))
  (e % 2 ^ 32, s)

/-! ### Meanings -/

def execPpsEdge (j ns : Nat) := run (fun s => s.ppsEdge j ns)
def execPpsLost (j : Nat) := run (fun s => s.ppsLose j)
def execTodMessage (line : List Bool) (ns : Nat) := run (fun s => s.todMessage line ns)
def execSlewDone := run State.slewDone
def execHoldoverExpired := run State.holdoverExpired
def execTodOutSend := run State.todOutSend
def execTimNowRead (w : Who) := runBus w pgTim false (fun s => let (v, s) := s.nowRead w; s.answer 0 [v])
def execSetSec (w : Who) := runBus w pgTim true (fun s => s.setSecCmd w)
def execTimTsRead (w : Who) := runBus w pgTim false (fun s => let (v, s) := s.tsRead w; s.answer 0 [v])
def execSecondBoundary := run State.secondBoundary

end Sys2Proof.Machine
end

