-- ==== Sys2Proof/Machine/Own.lean ====
section
/-! DEFINITION. Boxes: who owns pages, objects and rows, the ownership requests, windows, interrupt vectors, the host link and
PM copies (file 13, R441 to R457, R463). -/

namespace Sys2Proof.Machine

open Sys2Proof

/-! ### Rows and objects -/

/-- The key of a row of an indirect table: entry `row / rows` holds it. -/
def rowKey (pg : Nat) (t : Tab) (row : Nat) : Nat := (pg * 256 + t.code) * 2 ^ 24 + row

/-- A copy of the tables: the value of an entry. -/
abbrev Copy := Nat → Tab → Nat → Nat

def State.committed (s : State) : Copy := fun pg t e => s.entry pg t e
def State.stagedCopy (s : State) : Copy := fun pg t e => s.stagedEntry pg t e

def ownTxf (r i : Nat) : Nat := 0x1E000 + 4096 * r + i
def ownRxf (r i : Nat) : Nat := 0x26000 + 8192 * r + i
def ownWgrp (w : Nat) : Nat := 0x36000 + w
def ownCount : Nat := 0x37000

/-- The context group that a CTX row of a copy names, if the row is valid. -/
def ctxNamed (g : Copy) (B d e : Nat) : Option Nat :=
  let v := g (pgOd B d) T_CTX e
  if efieldb v CTX.valid then some (32768 * d + 4096 * (B / 8) + efield v CTX.ctx) else none

/-- The first copy decides where its row is valid, otherwise the second (Table HST-3). -/
def ctxObj (g1 g2 : Copy) (B d e : Nat) : Option Nat := (ctxNamed g1 B d e).orElse (fun _ => ctxNamed g2 B d e)

/-- The owner slot that a tributary-slot row names, if it is used. -/
def tsSlot (g : Copy) (pg : Nat) (t : Tab) (x : Nat) : Option Nat :=
  let v := g pg t x
  if efieldb v TS1.used then some (efield v TS1.owner) else none

/-- The target slot and direction of an SHP row, if it is valid. -/
def shpTarget (g : Copy) (pg q : Nat) : Option (Nat × Nat) :=
  let v := g pg T_SHP q
  if efieldb v SHP.valid then some (efield v SHP.dir, efield v SHP.target) else none

/-- The OWN object that entry `e` of a table concerns (Table HST-3), the first copy before the second; none where the row
follows its page. -/
def rowObj (g1 g2 : Copy) (pg : Nat) (t : Tab) (e : Nat) : Option Nat :=
  match pageInfo pg with
  | some ⟨typ, _, some r, some b⟩ =>
    let B := 8 * r + b
    let od (d : Nat) : Option Nat :=
      if t.code = T_TS1.code ∨ t.code = T_TS2.code then
        ((tsSlot g1 pg t e).orElse (fun _ => tsSlot g2 pg t e)).bind (ctxObj g1 g2 B d)
      else ctxObj g1 g2 B d e
    (match typ with
    | .odi => od 0
    | .ode => od 1
    | .dmp => ctxObj g1 g2 B 0 e
    | .map => ctxObj g1 g2 B 1 e
    | .mpt =>
      if t.code = T_SHP.code then
        ((shpTarget g1 pg e).orElse (fun _ => shpTarget g2 pg e)).bind (fun x => ctxObj g1 g2 B x.1 x.2)
      else if e < 16384 then ctxObj g1 g2 B (e / 8192) (e / 8 % 1024)
      else none
    | _ => none)
  | some ⟨typ, _, some r, none⟩ =>
    (match typ with
    | .sel => some (if t.code = T_BRG_CFG.code ∨ t.code = T_BRG_STATUS.code then ownBridge (2048 * r + e) else ownGroup (2048 * r + e))
    | .isl => some (ownGroup (16384 + 1024 * r + e))
    | .fyt => some (ownTxf r e)
    | .fyr => some (ownRxf r e)
    | _ => none)
  | some ⟨.prt, _, none, none⟩ => some (ownAps e)
  | some ⟨.wng, _, none, none⟩ => some (ownWgrp e)
  | _ => none

/-- The owner of a channel row (file 10, R352). -/
def State.chRowOwner (s : State) (g1 g2 : Copy) (r dir v : Nat) : Nat :=
  let B := 8 * r + efield v CHN.blk
  if efield v CHN.src = 0 then s.pageOwner (pgOtu (16 * B + efield v CHN.idx))
  else match ctxObj g1 g2 B dir (efield v CHN.idx) with
    | some g => s.ownBox g
    | none => s.pageOwner (pgOd B dir)

/-- The box that owns entry `e` of a table (R446), the first copy before the second. -/
def State.rowOwnerBy (s : State) (g1 g2 : Copy) (pg : Nat) (t : Tab) (e : Nat) : Nat :=
  match pageInfo pg with
  | some ⟨.ohq, _, some r, _⟩ =>
    let dir := if t.code = T_CAP_CFG.code ∨ t.code = T_CAP_STATUS.code ∨ t.code = T_CAP_CNT.code then 0 else 1
    let cfg := if dir = 0 then T_CAP_CFG else T_INS_CFG
    let v1 := g1 pg cfg e
    let v2 := g2 pg cfg e
    if efieldb v1 CHN.valid then s.chRowOwner g1 g2 r dir v1
    else if efieldb v2 CHN.valid then s.chRowOwner g1 g2 r dir v2
    else s.pageOwner pg
  | _ => match rowObj g1 g2 pg t e with
    | some i => s.ownBox i
    | none => s.pageOwner pg

/-- The owner of a row under Table HST-3. -/
def State.rowOwner (s : State) (pg : Nat) (t : Tab) (row : Nat) : Nat :=
  s.rowOwnerBy s.committed s.stagedCopy pg t (row / t.rows)

/-! ### Cues that run -/

def cueChecking : Nat := 1
def cuePending : Nat := 2

def State.cueRuns (s : State) (n : Nat) : Bool :=
  let v := s.rd (pgBox n) BOX_CUE_STATUS_state
  decide (v = cueChecking ∨ v = cuePending)

/-- Every row of box n's cue has taken effect: DONE (R76, R78). -/
def State.cueFinish (s : State) (n : Nat) : State :=
  (({ s with cues := s.cues.erase n }).wr (pgBox n) BOX_CUE_STATUS_state 3).ev (pgBox n) 0

/-- The committed rows of a region are gone: no cue waits for them any more (file 16, R552). -/
def State.cueForget (s : State) (r : Nat) : State :=
  s.each s.cues (fun s x =>
    let rest := x.2.rows.filter (fun k => decide (pageRegion (k.1 / 2 ^ 32) ≠ some r))
    if x.2.rows.length = rest.length then s
    else if rest = [] then s.cueFinish x.1
    else { s with cues := s.cues.set {} x.1 { x.2 with rows := rest } })

/-- The boxes whose cue is in CHECKING or PENDING. -/
def State.runningCues (s : State) : List Nat := (List.range 512).filter s.cueRuns

def State.scopeBlock (s : State) (n B : Nat) : Bool := bit (s.rd (pgBox n) BOX_CUE_SCOPE_blocks) B
def State.scopeRegion (s : State) (n r : Nat) : Bool := bit (s.rd (pgBox n) BOX_CUE_SCOPE_EXT_region) r
def State.scopePrt (s : State) (n : Nat) : Bool := s.rdb (pgBox n) BOX_CUE_SCOPE_EXT_prt
def State.scopeWng (s : State) (n : Nat) : Bool := s.rdb (pgBox n) BOX_CUE_SCOPE_EXT_wng

/-- The block slots of a region whose CTX row of a copy names context c in direction d. -/
def ctxNamers (m : SMap Nat) (d c : Nat) : List (Nat × Nat) :=
  (List.range 8).flatMap (fun b =>
    let B := 8 * (c / 4096) + b
    ((listed m (pgOd B d) T_CTX).filter (fun x => efieldb x.2 CTX.valid && decide (efield x.2 CTX.ctx = c % 4096))).map (fun x => (B, x.1)))

/-- A cue's scope contains an object (R447). -/
def State.scopeHas (s : State) (n i : Nat) : Bool :=
  if i < 0x10000 then
    (ctxNamers s.tabs (i / 32768) (i % 32768) ++ ctxNamers s.staged (i / 32768) (i % 32768)).any (fun x => s.scopeBlock n x.1)
  else if i < 0x14000 then s.scopeRegion n ((i - 0x10000) / 2048)
  else if i < 0x16000 then s.scopeRegion n ((i - 0x14000) / 1024)
  else if i < 0x1A000 then s.scopeRegion n ((i - 0x16000) / 2048)
  else if i < 0x1E000 then s.scopePrt n
  else if i < 0x26000 then s.scopeRegion n ((i - 0x1E000) / 4096)
  else if i < 0x36000 then s.scopeRegion n ((i - 0x26000) / 8192)
  else s.scopeWng n

/-! ### Changing owners -/

/-- A committed row of an object is valid (R447). -/
def State.objValid (s : State) (i : Nat) : Bool :=
  if i < 0x10000 then !(ctxNamers s.tabs (i / 32768) (i % 32768)).isEmpty
  else if i < 0x14000 then s.tgetb (pgSel ((i - 0x10000) / 2048)) T_ESG_CFG ((i - 0x10000) % 2048) ESG_CFG.valid
  else if i < 0x16000 then s.tgetb (pgIsl ((i - 0x14000) / 1024)) T_ISG_CFG ((i - 0x14000) % 1024) ISG_CFG.valid
  else if i < 0x1A000 then s.tgetb (pgSel ((i - 0x16000) / 2048)) T_BRG_CFG ((i - 0x16000) % 2048) BRG_CFG.valid
  else if i < 0x1E000 then s.tgetb pgPrt T_APS_CFG (i - 0x1A000) APS_CFG.valid
  else if i < 0x26000 then s.tgetb (pgFyt ((i - 0x1E000) / 4096)) T_TXF_CFG ((i - 0x1E000) % 4096) TXF_CFG.valid
  else if i < 0x36000 then s.tgetb (pgFyr ((i - 0x26000) / 8192)) T_RXF_CFG ((i - 0x26000) % 8192) RXF_CFG.valid
  else s.tgetb pgWng T_WGRP_CFG (i - 0x36000) WGRP_CFG.valid

/-- A dirty row's page, table and row. -/
def dirtyRow (k : Nat) : Option (Nat × Tab × Nat) := (findTab (k / 2 ^ 32) (k / 2 ^ 24 % 256)).map (fun t => (k / 2 ^ 32, t, k % 2 ^ 24))

/-- A staged row of an object is dirty for any requester (R447). -/
def State.objDirty (s : State) (i : Nat) : Bool :=
  s.dirty.any (fun x => match dirtyRow x.1 with
    | some (pg, t, row) => decide (rowObj s.committed s.stagedCopy pg t (row / t.rows) = some i ∨
        rowObj s.stagedCopy s.committed pg t (row / t.rows) = some i)
    | none => false)

/-- A change of an object's owner is refused (R447). -/
def State.objBusy (s : State) (i : Nat) : Bool :=
  s.objValid i || s.objDirty i || s.runningCues.any (fun n => s.scopeHas n i)

/-- A box gains or loses something (R447): event owner_change on its BOX page. -/
def State.ownerMoved (s : State) (old new : Nat) : State :=
  if old = new then s else (s.record (pgBox old) 5).record (pgBox new) 5

/-- Something a configuration digest covers is changed by a cue or an ownership change (file 15, R535). -/
def State.digTouch (s : State) (j : Nat) : State := if s.digDue.contains j then s else { s with digDue := s.digDue ++ [j] }

/-- A page's new owner: the change applies from the next FAB cycle on (R447). -/
def State.givePage (s : State) (pg box : Nat) : State :=
  let old := s.rd pg PAGE_OWNER_box
  ((((s.keepWas false (fkey pg PAGE_OWNER_box) old).wr pg PAGE_OWNER_box box)).ownerMoved old box).digTouch 74

/-- An object's new owner: the change applies from the next FAB cycle on (R447). -/
def State.giveObj (s : State) (i box : Nat) : State :=
  let old := s.tget pgBxm T_OWN i OWN.box
  ((((s.keepWas true (tkey pgBxm T_OWN i) (s.entry pgBxm T_OWN i)).tput pgBxm T_OWN i OWN.box box)).ownerMoved old box).digTouch 74

/-- BXM_REQ_STATUS codes. -/
def rqDone : Nat := 0
def rqRange : Nat := 1
def rqBusy : Nat := 2
def rqFixed : Nat := 3

/-- The page's owner is fixed by the address map (R444): chip-service and wings pages, BOX and FWM pages. -/
def pageFixed (pg : Nat) : Bool :=
  match pageInfo pg with
  | some ⟨_, _, some _, _⟩ => false
  | _ => true

/-- A served ownership request shows its code and records req_done. -/
def State.reqEnd (s : State) (code : Nat) : State :=
  ((s.wr pgBxm BXM_REQ_STATUS_code code).wrb pgBxm BXM_REQ_STATUS_pending false).record pgBxm 0

/-- SET_PAGE (Table HST-9, R444). -/
def State.setPage (s : State) (box a0 : Nat) : State :=
  let pg := a0 % 65536
  if (pageInfo pg).isNone then s.reqEnd rqRange
  else if pageFixed pg then s.reqEnd (if s.pageOwner pg = box then rqDone else rqFixed)
  else (s.givePage pg box).reqEnd rqDone

/-- SET_OBJ (Table HST-9, R447): whole or not at all. -/
def State.setObj (s : State) (box a0 a1 : Nat) : State :=
  let i := a0 % 2 ^ 24
  let n := a1 % 2 ^ 18
  if n = 0 ∨ ownCount < i + n then s.reqEnd rqRange
  else
    let l := (List.range n).map (i + ·)
    if l.any (fun k => decide (s.ownBox k ≠ box) && s.objBusy k) then s.reqEnd rqBusy
    else (s.each l (fun s k => s.giveObj k box)).reqEnd rqDone

/-- The register fields of window w of a box. -/
def winFields (w : Nat) : List Field := [BOX_WIN_en w, BOX_WIN_count_m1 w, BOX_WIN_slot w, BOX_WIN_tpage w]

/-- A window changes: VF accesses of the same FAB cycle still use what it was (R465). -/
def State.keepWin (s : State) (box w : Nat) : State :=
  s.each (winFields w) (fun s f => s.keepWas false (fkey (pgBox box) f) (s.rd (pgBox box) f))

/-- A field of a window as an access finds it. -/
def State.winRd (s : State) (n : Nat) (f : Field) : Nat := (s.wasVal false (fkey (pgBox n) f)).getD (s.rd (pgBox n) f)

/-- SET_WIN (Table HST-9). -/
def State.setWin (s : State) (box a0 a1 : Nat) : State :=
  let w := getBits a0 27 24
  let cnt := getBits a0 23 16
  let slot := getBits a0 7 0
  if slot < 2 ∨ 255 < slot + cnt then s.reqEnd rqRange
  else
    let pg := pgBox box
    let s := s.keepWin box w
    let s := ((s.wr pg (BOX_WIN_en w) (getBits a0 31 31)).wr pg (BOX_WIN_count_m1 w) cnt).wr pg (BOX_WIN_slot w) slot
    ((s.wr pg (BOX_WIN_tpage w) (a1 % 65536)).digTouch 74).reqEnd rqDone

/-- The stage manager serves one ownership request (Table HST-9). -/
def State.serveReq (s : State) (q : Nat × Nat × Nat × Nat) : State :=
  let (op, box, a0, a1) := q
  if op = 1 then s.setPage box a0
  else if op = 2 then s.setObj box a0 a1
  else if op = 3 then s.setWin box a0 a1
  else s.reqEnd rqRange

/-- A write of BXM_REQ: op 0 is ignored; while the stage manager is held the request waits (file 15, R520). -/
def State.ownReq (s : State) (op box : Nat) : State :=
  if op = 0 then s
  else
    let q := (op, box % 512, s.rd pgBxm (BXM_REQ_ARG_arg 0), s.rd pgBxm (BXM_REQ_ARG_arg 1))
    if s.smHeld then ({ s with reqQ := s.reqQ ++ [q] }).wrb pgBxm BXM_REQ_STATUS_pending true else s.serveReq q

/-- The stage manager runs again and serves what waited, in order. -/
def State.smResume (s : State) : State :=
  let q := s.reqQ
  ({ s with smHeld := false, reqQ := [] }).each q State.serveReq

/-! ### Windows (R448) -/

/-- The target page of slot `x` of box n's VF BAR0; none for the default target. -/
def State.vfTarget (s : State) (n x : Nat) : Option Nat :=
  if x = 0 then some (pgBox n)
  else if x = 1 then some (pgFwm n)
  else
    match (List.range 16).find? (fun w => decide (s.winRd n (BOX_WIN_en w) ≠ 0 ∧
        s.winRd n (BOX_WIN_slot w) ≤ x ∧ x ≤ s.winRd n (BOX_WIN_slot w) + s.winRd n (BOX_WIN_count_m1 w))) with
    | some w =>
      let t := s.winRd n (BOX_WIN_tpage w) + (x - s.winRd n (BOX_WIN_slot w))
      if t ≤ 0xAFFF ∧ (pageInfo t).isSome then some t else none
    | none => none

/-! ### Interrupts (R453 to R455) -/

/-- A function is enabled: the PF, or a VF that VF Enable covers. -/
def State.fnEnabled (s : State) (n : Nat) : Bool := decide (n = 0 ∨ (n ≤ s.numVfs ∧ n < 512))

/-- The message of a vector in the function's MSI-X table. -/
def State.msixWord (s : State) (n v k : Nat) : Nat := s.msixTab.get 0 (8192 * n + 4 * v + k)

/-- A function's holdoff in DP cycles (HST_MSIX_HOLDOFF, BOX_MSIX_HOLDOFF; file 01, R39: 1,750 DP cycles are 1 µs). -/
def State.holdoff (s : State) (n : Nat) : Nat :=
  1750 * (if n = 0 then s.rd pgHst HST_MSIX_HOLDOFF_us else s.rd (pgBox n) BOX_MSIX_HOLDOFF_us)

/-- The holdoff has passed since a vector's last message (R454). -/
def State.msixDue (s : State) (n v : Nat) : Bool :=
  match (s.vecs.get {} (vecKey n v)).sent with
  | some c => decide (c + s.holdoff n ≤ s.dpCycle)
  | none => true

/-- MSIX_SEND (R454). -/
def State.msixSend (s : State) (n v : Nat) : State :=
  let x := s.vecs.get {} (vecKey n v)
  let f := s.fns.get {} n
  if s.fnEnabled n && x.pending && !x.masked && f.msixEn && !f.msixMask && s.msixDue n v && s.rdb pgHst HST_LINK_up &&
      decide (v < if n = 0 then 2048 else 8) then
    ({ s with vecs := s.vecs.upd {} (vecKey n v) (fun y => { y with pending := false, sent := some s.dpCycle }) }).emit
      (.msix n v (s.msixWord n v 0 + 2 ^ 32 * s.msixWord n v 1) (s.msixWord n v 2))
  else s

/-- The summary of one event source over the pages of a list (file 02, R60). -/
def State.sourceBit (s : State) (pgs : List Nat) (src : Nat) : Bool :=
  pgs.any (fun pg => match pageInfo pg with
    | some i => decide (pageSource i = src) && decide (s.evtStatus pg &&& ((2 ^ 32 - 1) ^^^ s.rd pg EVT_MASK_mask) ≠ 0)
    | none => false)

/-- Pages that hold any recording. -/
def State.evtPages (s : State) : List Nat := (s.events.map (·.1)).filter (fun pg => (pageInfo pg).isSome)

/-- CHIP_ID_EVT_SUM word w (R60). -/
def State.evtSum (s : State) (w : Nat) : Nat :=
  (List.range 32).foldl (fun a k => a + (if s.sourceBit s.evtPages (32 * w + k) then 2 ^ k else 0)) 0

/-- BOX_EVT_SUM word w of box n (R455). -/
def State.boxEvtSum (s : State) (n w : Nat) : Nat :=
  (List.range 32).foldl (fun a k => a + (if s.sourceBit (s.evtPages.filter (fun pg => decide (s.pageOwner pg = n))) (32 * w + k) then 2 ^ k else 0)) 0

/-- INT_N is asserted (R455): some source has an unmasked event in CHIP_ID_EVT_SUM and its enable in HST_INT_EN. -/
def State.intN (s : State) : Bool :=
  s.evtPages.any (fun pg => match pageInfo pg with
    | some i => bit (s.rd pgHst (HST_INT_EN_en (pageSource i / 32))) (pageSource i % 32) &&
        decide (s.evtStatus pg &&& ((2 ^ 32 - 1) ^^^ s.rd pg EVT_MASK_mask) ≠ 0)
    | none => false)

/-- The INT_N pin follows at the end of each DP cycle. -/
def State.intPin (s : State) : State := { s with hst := { s.hst with intLow := s.intN } }

/-! ### PM copies (R457) -/

def pmIdle : Nat := 0
def pmBusy : Nat := 1
def pmDoneState : Nat := 2
def pmLinkDown : Nat := 3
def pmRange : Nat := 5

/-- A box owns a maintenance point. -/
def State.ownsPoint (s : State) (n m : Nat) : Bool :=
  if m < 458752 then decide (s.ownBox (m / 7) = n) else decide (s.pageOwner (pgMpt ((m - 458752) / 1024)) = n)

/-- PM_COPY_GO: `max` is the record limit written with the go. -/
def State.pmCopyGo (s : State) (n max : Nat) : State :=
  let pg := pgBox n
  if s.rd pg BOX_PM_STATUS_state = pmBusy then s
  else
    let s := s.wr pg BOX_PM_CTRL_max_rec max
    let s := (s.wr pg BOX_PM_STATUS_stale 0).wr pg BOX_PM_STATUS_records 0
    let sec := s.rd pg BOX_PM_SEC_value % 2 ^ 48
    let last := s.rd pgWng WNG_PMS_LAST_sec
    let d := s.rd pgWng WNG_PMS_CFG_depth_m1 + 1
    if last < sec + d ∧ sec ≤ last then s.wr pg BOX_PM_STATUS_state (if s.rdb pgHst HST_LINK_up then pmBusy else pmLinkDown)
    else s.wr pg BOX_PM_STATUS_state pmRange

/-- The records that a copy takes: those written and how many were stale, at most `max` written. -/
def pmTake (rec : Nat → List Byte) (sec max : Nat) : List Nat → List Byte × Nat × Nat → List Byte × Nat × Nat
  | [], a => a
  | m :: ms, (out, n, stale) =>
    if max ≤ n then (out, n, stale)
    else if ofBytesLe ((rec m).take 4) = sec then pmTake rec sec max ms (out ++ rec m, n + 1, stale)
    else pmTake rec sec max ms (out, n, stale + 1)

/-- The TLPs of a write to host memory: at most 512 bytes each (R456); cut at multiples of 512, so that none crosses a 4 KiB line
(PRESUMED: PCI Express allows no such TLP). -/
def tlps (a : Nat) (l : List Byte) : Nat → List (Nat × List Byte)
  | 0 => []
  | n + 1 => if l = [] then [] else (a, l.take (512 - a % 512)) :: tlps (a + (512 - a % 512)) (l.drop (512 - a % 512)) n

/-- Bytes written to host memory with the requester ID of a box's function. -/
def State.hostBytes (s : State) (box a : Nat) (l : List Byte) : State :=
  s.each (tlps a l (l.length / 512 + 2)) (fun s x => s.emit (.hostWrite box x.1 x.2))

/-- The points of a box, ascending. -/
def State.ownPoints (s : State) (n : Nat) : List Nat := (List.range 524288).filter (s.ownsPoint n)

/-- A PM copy of box n writes at most `max` records and shows what it did. -/
def State.pmCopy (s : State) (n max : Nat) : State :=
  let pg := pgBox n
  let sec := s.rd pg BOX_PM_SEC_value % 2 ^ 48
  let base := s.rd pgWng WNG_PMS_BASE_base / 2 ^ 24 * 2 ^ 24 + sec % (s.rd pgWng WNG_PMS_CFG_depth_m1 + 1) * 0x1000000
  let (bytes, k, stale) := pmTake (fun m => memReadBytes s.mem (base + 32 * m) 32) (sec % 2 ^ 32) max
    (s.ownPoints n) ([], 0, 0)
  let s := s.hostBytes n (s.rd pg BOX_PM_DST_value / 32 * 32) bytes
  (s.wr pg BOX_PM_STATUS_records k).wr pg BOX_PM_STATUS_stale (min stale 511)

def State.pmMax (s : State) (n : Nat) : Nat := min (s.rd (pgBox n) BOX_PM_CTRL_max_rec) 524288

/-- PM_COPY_DONE; `bad` says that the copy met an uncorrectable error in its source (file 15, class DMA). -/
def State.pmCopyDone (s : State) (n : Nat) (bad : Bool) : State :=
  let pg := pgBox n
  if s.rd pg BOX_PM_STATUS_state = pmBusy then
    let s := ((s.pmCopy n (s.pmMax n)).wr pg BOX_PM_STATUS_state pmDoneState).record pg 4
    if bad then s.report clsDma 1 (srcService 11) else s
  else s

/-- A PM copy in progress ends without being DONE; how far it had come is free. -/
def State.pmCut (s : State) (n state : Nat) : State :=
  let pg := pgBox n
  if s.rd pg BOX_PM_STATUS_state = pmBusy then
    let (u, s) := s.free 20
    (s.pmCopy n (u % (s.pmMax n + 1))).wr pg BOX_PM_STATUS_state state
  else s

/-! ### Functions and the link -/

/-- The requester state of a page copy is dropped. -/
def State.dropRq (s : State) (rq : Nat) : State :=
  let keep (m : SMap Nat) : SMap Nat := m.dropWhere (fun k => decide (k / 8192 = rq))
  { s with regs := keep s.regs, regsB := keep s.regsB, regsC := keep s.regsC }

/-- The proxy's requester state of a box is reset, whatever page it is of (R451). -/
def State.dropProxy (s : State) (n : Nat) : State :=
  let keep (m : SMap Nat) : SMap Nat := m.dropWhere (fun k => decide (k / 8192 / 65536 = 16 + n))
  { s with regs := keep s.regs, regsB := keep s.regsB, regsC := keep s.regsC }

/-- A function's configuration space takes its PCIe reset values: MSI-X off, every vector masked. -/
def State.fnReset (s : State) (n : Nat) (pending : Bool) : State :=
  let s := { s with fns := s.fns.erase n, msixTab := s.msixTab.dropWhere (fun k => decide (k / 8192 = n)) }
  { s with vecs := s.vecs.foldl (fun m x => if x.1 / 2048 = n then m.set ({} : Vec) x.1 { pending := x.2.pending && pending, sent := x.2.sent } else m) s.vecs }

/-- VF_FLR (R443). -/
def State.vfFlr (s : State) (n : Nat) : State :=
  if 1 ≤ n ∧ n < 512 then
    let s := ((s.dropProxy n).pmCut n pmIdle).fnReset n false
    let s := { s with notices := s.notices.set [] n [] }
    (s.dropRq (rqPage (pgBox n) .host)).dropRq (rqPage (pgFwm n) .host)
  else s

/-- Channels of the DMA master. -/
def dmaIdle : Nat := 0
def dmaBusy : Nat := 1
def dmaOk : Nat := 2
def dmaLinkDown : Nat := 3
def dmaSrcErr : Nat := 4
def dmaRange : Nat := 5

/-- The length of a channel's copy in bytes (HST_DMA_LEN). -/
def State.dmaLen (s : State) (c : Nat) : Nat :=
  let n := s.rd pgHst (HST_DMA_LEN_len c)
  if n = 0 then 2 ^ 26 else n

/-- A byte of LOG SRAM (file 15, R521: slot x lies at byte offset 32 x). -/
def State.logByte (s : State) (o : Nat) : Byte := BitVec.ofNat 8 (s.entry pgLog T_LOG_ENTRY (o / 32) / 256 ^ (o % 32))

/-- The first n bytes of a channel's source: HBM, or LOG SRAM where SRC[63] is 1. -/
def State.dmaRead (s : State) (c n : Nat) : List Byte :=
  let a := s.rd pgHst (HST_DMA_SRC_addr c)
  if bit a 63 then (List.range n).map (fun k => s.logByte (a % 2 ^ 63 + k)) else memReadBytes s.mem a n

/-- A channel writes the first n bytes of its copy to host memory. -/
def State.dmaWrite (s : State) (c n : Nat) : State :=
  (s.hostBytes 0 (s.rd pgHst (HST_DMA_DST_addr c)) (s.dmaRead c n)).wr pgHst (HST_DMA_STATUS_done c) n

/-- DMA_GO (R456): refused while busy; a copy outside its source's range or not of whole words is not started. -/
def State.dmaGo (s : State) (c : Nat) : State :=
  if 4 ≤ c ∨ s.rd pgHst (HST_DMA_STATUS_state c) = dmaBusy then s
  else
    let a := s.rd pgHst (HST_DMA_SRC_addr c)
    let n := s.dmaLen c
    let inside := if bit a 63 then decide (a % 2 ^ 63 + n ≤ 2 ^ 21) else decide (0x2000000000 ≤ a ∧ a + n ≤ hbmSize)
    let ok := inside && decide (n % 4 = 0 ∧ n ≤ 2 ^ 26 ∧ s.rd pgHst (HST_DMA_DST_addr c) % 4 = 0)
    let s := s.wr pgHst (HST_DMA_STATUS_done c) 0
    s.wr pgHst (HST_DMA_STATUS_state c) (if !ok then dmaRange else if s.rdb pgHst HST_LINK_up then dmaBusy else dmaLinkDown)

/-- DMA_DONE (R456): the copy completes, or ends at the first byte that meets an uncorrectable error (`bad`). -/
def State.dmaDone (s : State) (c : Nat) (bad : Option Nat) : State :=
  if c < 4 ∧ s.rd pgHst (HST_DMA_STATUS_state c) = dmaBusy then
    match bad with
    | some k => ((s.dmaWrite c (min k (s.dmaLen c))).wr pgHst (HST_DMA_STATUS_state c) dmaSrcErr).report clsDma 1 (srcService 11)
    | none => ((s.dmaWrite c (s.dmaLen c)).wr pgHst (HST_DMA_STATUS_state c) dmaOk).record pgHst (2 + c)
  else s

/-- A playbill that is being written when the link drops ends LINK_DOWN; how much of it was written is not stated. -/
def State.plbCut (s : State) : State :=
  if s.rd pgPlb PLB_STATUS_state = 1 then
    let (u, s) := s.free 16
    let s := s.hostBytes 0 (s.rd pgPlb PLB_DST_addr / 64 * 64) ((s.plb.take (u % (s.plb.length + 1))).map (BitVec.ofNat 8))
    (({ s with plb := [] }).wr pgPlb PLB_STATUS_state 3).wr (pgChk 29) CHK_STATUS_holder 0xF
  else s

/-- HOST_LINK_DOWN (R442, R463): copies end with what they have written, vectors keep their pending flags, and every
function's configuration space is at its reset values when the link returns. -/
def State.linkDown (s : State) : State :=
  if s.rdb pgHst HST_LINK_up then
    let s := ((s.wrb pgHst HST_LINK_up false).wr pgHst HST_LINK_width 0).wr pgHst HST_LINK_speed 0
    let s := (s.count pgHst HST_LINK_drops).record pgHst 0
    let s := s.each (List.range 4) (fun s c =>
      if s.rd pgHst (HST_DMA_STATUS_state c) = dmaBusy then
        let (u, s) := s.free 26
        (s.dmaWrite c (u % (s.dmaLen c + 1))).wr pgHst (HST_DMA_STATUS_state c) dmaLinkDown
      else s)
    let s := s.each (List.range 512) (fun s n => s.pmCut n pmLinkDown)
    let s := s.plbCut
    let s := s.each (List.range 512) (fun s n => s.fnReset n true)
    ({ s with numVfs := 0 }).report clsHostLink 0 (srcService 5)
  else s

/-- HOST_LINK_UP (R463). -/
def State.linkUp (s : State) (width speed : Nat) : State :=
  if s.rdb pgHst HST_LINK_up then s
  else (((s.wrb pgHst HST_LINK_up true).wr pgHst HST_LINK_width width).wr pgHst HST_LINK_speed speed).record pgHst 1

/-- BOX_NOTE_READ (R452). -/
def State.boxNote (s : State) (n rq : Nat) : Nat × State :=
  let (v, s) := s.takeNotice n
  (v % 2 ^ 32, s.latchHi rq 0x094 (v / 2 ^ 32))

/-- BOX_PX_PAGE_WRITE (R451): selects the target, resets the proxy's requester state and its status. -/
def State.pxPageWrite (s : State) (n v : Nat) : State :=
  let pg := pgBox n
  let s := (s.wr pg BOX_PX_PAGE_en (getBits v 31 31)).wr pg BOX_PX_PAGE_tpage (getBits v 15 0)
  ((s.dropProxy n).wrb pg BOX_PX_STATUS_denied false).wrb pg BOX_PX_STATUS_row_owner false

/-! ### Meanings -/

def execSetPage (box : Nat) := run (fun s => s.ownReq 1 box)
def execSetObj (box : Nat) := run (fun s => s.ownReq 2 box)
def execSetWin (box : Nat) := run (fun s => s.ownReq 3 box)
def execDmaGo (c : Nat) := run (fun s => s.dmaGo c)
def execDmaDone (c : Nat) (bad : Option Nat) := run (fun s => s.dmaDone c bad)
def execMsixSend (n v : Nat) := run (fun s => s.msixSend n v)
def execPmCopyDone (n : Nat) (bad : Bool) := run (fun s => s.pmCopyDone (n % 512) bad)
def execVfFlr (n : Nat) := run (fun s => s.vfFlr n)
def execHostLinkDown := run State.linkDown
def execHostLinkUp (width speed : Nat) := run (fun s => s.linkUp width speed)
def execBoxNoteRead (w : Who) (n : Nat) := runBus w (pgBox (n % 512)) false (fun s => let (v, s) := s.boxNote (n % 512) (rqPage (pgBox (n % 512)) w.master); s.answer 0 [v])
def execBoxPxPageWrite (n v : Nat) := run (fun s => s.pxPageWrite (n % 512) v)
def execPmCopyGo (n max : Nat) := run (fun s => s.pmCopyGo (n % 512) max)

end Sys2Proof.Machine
end

