-- ==== Sys2Proof/Machine/Log.lean ====
section
/-! DEFINITION. The prompt book: its queue, coalescing, banks, mirror, and the ghost light (file 15, R521 to R531). -/

namespace Sys2Proof.Machine

open Sys2Proof

/-! ### Entries -/

/-- The number of reports or records that an entry stands for (R526). -/
def LogRec.count (r : LogRec) : Nat :=
  if r.typ = 1 then r.payload % 65536 else if r.typ = 3 ∨ r.typ = 4 then r.payload % 2 ^ 32 else 1

/-- An entry as its 32 bytes (Table FLT-7). -/
def LogRec.value (r : LogRec) (seq : Nat) : Nat :=
  seq % 2 ^ 32 + r.time.sec % 2 ^ 48 * 2 ^ 32 + (r.time.ns % 2 ^ 30 + r.time.quality % 4 * 2 ^ 30) * 2 ^ 80 + r.typ % 256 * 2 ^ 112
    + r.cls % 256 * 2 ^ 120 + r.source % 2 ^ 32 * 2 ^ 128 + r.payload % 2 ^ 96 * 2 ^ 160

/-- Byte 15 of an entry of types 0x01 to 0x04. -/
def clsLevel (cls level : Nat) : Nat := cls % 32 + 32 * (level % 8)

/-! ### Report words (R506 to R508) -/

/-- The CRC-8 of bits [55:0] of a report word, fed bit 0 first. -/
def wordCrc (w : Nat) : Nat := crcBits 8 0x07 0 (bitsLsb 56 w)

/-- Bits [55:0] of the word that a slot of class c sends (Table FLT-1). -/
def reportBody (c : Nat) (x : Slot) : Nat :=
  c % 32 + x.level % 8 * 2 ^ 5 + x.source % 2 ^ 32 * 2 ^ 8 + x.n % 2 ^ 15 * 2 ^ 40 + b2n x.mixed * 2 ^ 55

/-- The report word. -/
def reportBits (c : Nat) (x : Slot) : Nat := reportBody c x + wordCrc (reportBody c x) * 2 ^ 56

/-- A word's CRC is correct (R508). -/
def wordOk (w : Nat) : Bool := decide (getBits w 63 56 = wordCrc w)

/-- The class under which the collector judges a word (R510), and its source. -/
def wordCls (w : Nat) : Nat := if 29 ≤ getBits w 4 0 then clsCollector else getBits w 4 0
def wordSrc (w : Nat) : Nat := getBits w 39 8

/-- The filled slot of a link that is sent next: ascending class order (R507). -/
def State.nextSlot (s : State) (link : Nat) : Option Nat := (List.range 32).find? (fun c => decide ((s.slots.get {} (32 * link + c)).n ≠ 0))

/-- The word that a link sends next. -/
def State.nextWord (s : State) (link : Nat) : Option Nat := (s.nextSlot link).map (fun c => reportBits c (s.slots.get {} (32 * link + c)))

/-- The link's words are masked (R514); one that comes in the cycle in which its region becomes ISOLATED is still judged (R537). -/
def State.linkMasked (s : State) (link : Nat) : Bool := efieldb (s.mapEntry pgFlt T_FLT_LINK link) FLT_LINK.masked

/-- The words of this cycle that the collector is still to judge: those accepted, and those of links that wait to be heard in it. -/
def State.soonWords (s : State) : List Nat :=
  s.col.words.map (·.2) ++ s.pending.filterMap (fun c => match c with
    | .reportWord l => if l < 96 ∧ !s.linkMasked l then s.nextWord l else none
    | _ => none)

/-- A host request writes into a page through BAR0. -/
def hostWrites (x : HostReq) (pg : Nat) : Bool :=
  decide (x.bar = 0 ∧ x.fn = 0 ∧ x.offset / 4096 = pg) && (match x.op with
    | .write _ => true
    | _ => false)

/-- Some waiting command of this cycle comes before the judging of its words: more words, an acknowledge, the age scan, a key's expiry,
the log writer (R537), or a command of the MODE page (file 16, R565). -/
def State.fltAhead (s : State) : Bool :=
  s.pending.any (fun c => match c with
    | .reportWord _ | .fltAck _ | .fltAgeScan | .keyClose _ _ | .logWrite _ => true
    | .drain _ _ | .offline _ _ | .resume _ _ | .reset _ _ | .resetClear _ _ | .service _ _ | .exitSafe _ => true
    | .registerWrite x => decide (x.acc.page = pgFlt ∨ x.acc.page = pgMode)
    | .hostRequest x => hostWrites x pgFlt || hostWrites x pgMode
    | _ => false)

/-! ### The ghost light (R530) -/

def ghostOne : Nat := 1
def ghostBoth : Nat := 2
def ghostCore : Nat := 3

/-- What the writes of the ghost light in this FAB cycle stood for, newest first. -/
def State.ghostNow (s : State) : List Nat := if s.col.ghost.1 = s.fab then s.col.ghost.2 else []

/-- Write an entry to the ghost light; `n` is what it stands for. -/
def State.ghostWrite (s : State) (v n cause : Nat) : State :=
  let e0 := s.entry pgLog T_LOG_GHOST 0
  let e1 := s.entry pgLog T_LOG_GHOST 1
  let e2 := s.entry pgLog T_LOG_GHOST 2
  let s := (((s.setEntry pgLog T_LOG_GHOST 3 e2).setEntry pgLog T_LOG_GHOST 2 e1).setEntry pgLog T_LOG_GHOST 1 e0).setEntry pgLog T_LOG_GHOST 0 v
  let s := s.countSat pgLog LOG_GHOST_UNREC n
  let s := s.wr pgLog LOG_GHOST_INFO_valid (min 4 (s.rd pgLog LOG_GHOST_INFO_valid + 1))
  let s := { s with col := { s.col with ghost := (s.fab, n :: s.ghostNow) } }
  (s.wr pgLog LOG_GHOST_INFO_cause cause).record pgLog 4

/-- GHOST_CLEAR (R530, LOG_CMD): box 0 and the stage manager only. What was written in this FAB cycle counts as written after it. -/
def State.ghostClear (s : State) (w : Who) : State :=
  if w.master = .sm ∨ (w.master = .host ∧ w.box = 0) then
    let l := s.ghostNow
    let s := s.each ([0, 1, 2, 3].drop l.length) (fun s k => s.setEntry pgLog T_LOG_GHOST k 0)
    let s := (s.wr pgLog LOG_GHOST_UNREC (min l.sum (2 ^ 32 - 1))).wr pgLog LOG_GHOST_INFO_valid (min 4 l.length)
    if l = [] then s.wr pgLog LOG_GHOST_INFO_cause 0 else s
  else s

/-! ### Banks and mirror -/

def State.bankFailed (s : State) (k : Nat) : Bool := s.rdb pgLog (if k = 0 then LOG_STATUS_bank0_failed else LOG_STATUS_bank1_failed)

/-- The bank that takes every entry while an AUDIT test has the other (file 16, Table MOD-8). -/
def State.bankTested (s : State) (k : Nat) : Bool :=
  decide (s.rd pgMode MODE_AUDIT_STATUS_state = 1 ∧ s.rd pgMode MODE_AUDIT_STATUS_test = 4 ∧ s.rd pgMode MODE_AUDIT_STATUS_target = k)

def State.bankUp (s : State) (k : Nat) : Bool := !s.bankFailed k && !s.bankTested k

/-- The slot of the entry with sequence number q (R521); none with no bank. -/
def State.logSlot (s : State) (q : Nat) : Option Nat :=
  if s.bankUp 0 && s.bankUp 1 then some (q % 65536)
  else if s.bankUp 0 then some (q % 32768)
  else if s.bankUp 1 then some (32768 + q % 32768)
  else none

/-- The stack that holds an HBM byte (file 08, R287). -/
def hbmStack (a : Nat) : Nat := if a < 0x2000000000 then a / 0x555500000 else (a - 0x2000000000) / 4096 % 6

/-- The writer's mirror (R527). -/
def State.mirrorWrite (s : State) (q v : Nat) : State :=
  if s.rdb pgLog LOG_CFG_mirror_en && !s.rdb pgLog LOG_STATUS_ghost_only then
    let a := s.rd pgLog LOG_MIRROR_BASE_base / 2 ^ 30 * 2 ^ 30 + 32 * (q % 2 ^ 25)
    let s := s.wr pgLog LOG_MIRROR_HEAD_seq (q + 1)
    if s.rd (pgHbm (hbmStack a)) HBM_STATUS_state = hbmFailed then (s.count pgLog LOG_MIRROR_DROP).record pgLog 5
    else { s with mem := memWriteBytes s.mem a (bytesLe 32 v) }
  else s

/-- Store an entry in the surviving memory: a bank and the mirror, or the ghost light alone (R521, R529). -/
def State.logStore (s : State) (q v n : Nat) : State :=
  match s.logSlot q with
  | some x => (s.setEntry pgLog T_LOG_ENTRY x v).mirrorWrite q v
  | none => s.ghostWrite v n ghostBoth

/-- The next entry takes the next sequence number (R521, R530). -/
def State.logPut (s : State) (r : LogRec) : State :=
  let q := s.rd pgLog LOG_HEAD_seq
  (s.logStore q (r.value q) r.count).wr pgLog LOG_HEAD_seq (q + 1)

/-- Whether the mirror is being written (LOG_STATUS). -/
def State.showMirror (s : State) : State :=
  s.wrb pgLog LOG_STATUS_mirror_active (s.rdb pgLog LOG_CFG_mirror_en && !s.rdb pgLog LOG_STATUS_ghost_only)

/-- A bank fails (R528): the entry whose access failed, as its value and what it stands for, or none. -/
def State.bankFail (s : State) (k : Nat) (entry : Option (Nat × Nat)) : State :=
  if k < 2 ∧ !s.bankFailed k then
    let s := s.wrb pgLog (if k = 0 then LOG_STATUS_bank0_failed else LOG_STATUS_bank1_failed) true
    let both := s.bankFailed 0 && s.bankFailed 1
    let cause := if both then ghostBoth else ghostOne
    let s := (s.wrb pgLog LOG_STATUS_ghost_only both).showMirror
    let bank : LogRec := { time := s.now, typ := 0x0C, cls := 0, source := srcChip kindBank k, payload := k }
    let s := match entry with
      | some (v, n) =>
        let s := s.ghostWrite v n cause
        (match s.logSlot (v % 2 ^ 32) with
        | some x => s.setEntry pgLog T_LOG_ENTRY x v
        | none => s)
      | none => if both then s else s.ghostWrite (bank.value (s.rd pgLog LOG_HEAD_seq)) 1 cause
    let s := (s.report clsLogMemory (if both then 3 else 2) (srcChip kindBank k)).logPut bank
    s.record pgLog 3
  else s

/-- The mirror and its ring as configured are allowed (R527). -/
def State.mirrorOk (s : State) : Bool :=
  let b := s.rd pgLog LOG_MIRROR_BASE_base / 2 ^ 30 * 2 ^ 30
  let p := s.rd pgWng WNG_PMS_BASE_base / 2 ^ 24 * 2 ^ 24
  let n := (s.rd pgWng WNG_PMS_CFG_depth_m1 + 1) * 0x1000000
  decide (0x2000000000 ≤ b ∧ b ≤ 0x23C0000000 ∧ (b + 2 ^ 30 ≤ p ∨ p + n ≤ b))

/-- LOG_CFG or LOG_MIRROR_BASE is written: a base that breaks R527 keeps the mirror off. -/
def State.mirrorCheck (s : State) : State :=
  let s := if s.rdb pgLog LOG_CFG_mirror_en && !s.mirrorOk then (s.wrb pgLog LOG_CFG_mirror_en false).setErr pgLog errIndRange else s
  s.showMirror

/-- WNG_PMS_CFG or WNG_PMS_BASE is written: a store that breaks file 05, R187, keeps the records off. -/
def State.pmsCheck (s : State) : State :=
  let p := s.rd pgWng WNG_PMS_BASE_base / 2 ^ 24 * 2 ^ 24
  if s.rdb pgWng WNG_PMS_CFG_en &&
      !decide (0x2000000000 ≤ p ∧ p + (s.rd pgWng WNG_PMS_CFG_depth_m1 + 1) * 0x1000000 ≤ 0x2400000000) then
    (s.wrb pgWng WNG_PMS_CFG_en false).setErr pgWng errIndRange
  else s

/-! ### The queue, skipping and coalescing (R523 to R525) -/

/-- A report without an entry counts in its class's skip count. -/
def State.skipReport (s : State) (cls n : Nat) : State :=
  let s := { s with skips := s.skips.set 0 cls (s.skips.get 0 cls + n) }
  (s.count pgLog LOG_SKIPPED n).record pgLog 2

/-- An entry of reports takes a queue place, or is skipped. -/
def State.queueReport (s : State) (r : LogRec) : State :=
  if s.logQ.length < 256 ∧ s.logHeld = [] then ({ s with logQ := s.logQ ++ [r] }).logShow else s.skipReport (r.cls % 32) r.count

/-- A key closes: its REPEATED entry, then the held last report (R524). -/
def State.closeKey (s : State) (k : CoalKey) : State :=
  let s := if k.n = 0 then s else s.queueReport
    { time := s.now, typ := 3, cls := clsLevel k.cls k.level, source := k.source, payload := k.n % 2 ^ 32 }
  match k.held with
  | some r => s.queueReport r
  | none => s

def State.showKeys (s : State) : State := s.wr pgLog LOG_STATUS_keys s.coalKeys.length

/-- A judged report comes to the log as its FAULT entry (R524). -/
def State.logReport (s : State) (r : LogRec) : State :=
  let cls := r.cls % 32
  if s.rdb pgLog LOG_STATUS_coalescing then
    match s.coalKeys.find? (fun k => decide (k.cls = cls ∧ k.source = r.source)) with
    | some k =>
      let gone := match k.held with
        | some h => h.count
        | none => 0
      let level := match k.held with
        | some h => max k.level (h.cls / 32)
        | none => k.level
      let rest := s.coalKeys.filter (fun x => decide (x.cls ≠ cls ∨ x.source ≠ r.source))
      ({ s with coalKeys := rest ++ [{ k with n := k.n + gone, level := level, held := some r, last := s.dpCycle }] }).count pgLog LOG_COALESCED gone
    | none =>
      let s := if s.coalKeys.length < 64 then s
        else match s.coalKeys with
          | k :: rest => ({ s with coalKeys := rest }).closeKey k
          | [] => s
      let s := s.queueReport r
      ({ s with coalKeys := s.coalKeys ++ [({ cls := cls, source := r.source, last := s.dpCycle } : CoalKey)] }).showKeys
  else s.queueReport r

/-- KEY_CLOSE (R524): 1 ms after the key's last report; one of the same cycle keeps the key open (R537). -/
def State.keyClose (s : State) (cls source : Nat) : State :=
  match s.coalKeys.find? (fun k => decide (k.cls = cls ∧ k.source = source)) with
  | some k =>
    if s.dpCycle < k.last + 1750000 ∨ s.soonWords.any (fun w => decide (wordCls w = cls ∧ wordSrc w = source)) then s
    else (({ s with coalKeys := s.coalKeys.filter (fun x => decide (x.cls ≠ cls ∨ x.source ≠ source)) }).showKeys).closeKey k
  | none => s

/-- Free places go to the records their producers hold, then to one SKIPPED entry of each class that has any, in ascending
order (R523, R525). -/
def State.fillPlaces (s : State) : State :=
  let n := 256 - s.logQ.length
  let s := { s with logQ := s.logQ ++ s.logHeld.take n, logHeld := s.logHeld.drop n }
  let l := s.skips.take (256 - s.logQ.length)
  let recs := l.map (fun x => ({ time := s.now, typ := 4, cls := x.1 % 32, source := srcService 12, payload := x.2 % 2 ^ 32 } : LogRec))
  ({ s with logQ := s.logQ ++ recs, skips := s.skips.drop l.length }).logShow

/-- Coalescing ends when the queue holds fewer than 64 entries: the open keys close, oldest first. -/
def State.coalEnd (s : State) : State :=
  if s.rdb pgLog LOG_STATUS_coalescing && decide (s.logQ.length < 64) then
    let keys := s.coalKeys
    let s := (({ s with coalKeys := [] }).showKeys).wrb pgLog LOG_STATUS_coalescing false
    (s.record pgLog 1).each keys State.closeKey
  else s

/-- The writer has written an entry in this FAB cycle. -/
def State.noteWritten (s : State) (slot : Option Nat) (v n : Nat) : State :=
  match slot with
  | some x => { s with col := { s.col with wrote := (s.fab, x, v, n) } }
  | none => s

/-- The bank of the slot fails in this FAB cycle (R537). -/
def State.bankDueAt (s : State) (slot : Nat) : Bool := decide (s.col.bankDue = (s.fab, slot / 32768 + 1))

/-- LOG_WRITE (R523): the writer writes the next queued entry; `bad` says that the write meets an uncorrectable error. -/
def State.logWrite (s : State) (bad : Bool) : State :=
  match s.logQ with
  | [] => s
  | r :: rest =>
    let q := s.rd pgLog LOG_HEAD_seq
    let s := { s with logQ := rest }
    let s :=
      match s.logSlot q with
      | some x =>
        if bad || s.bankDueAt x then
          let s := (s.wr pgLog LOG_HEAD_seq (q + 1)).mirrorWrite q (r.value q)
          s.bankFail (x / 32768) (some (r.value q, r.count))
        else (s.logPut r).noteWritten (some x) (r.value q) r.count
      | none => s.logPut r
    s.fillPlaces.coalEnd

/-! ### Meanings -/

def execGhostClear (w : Who) := runBus w pgLog true (fun s => s.ghostClear w)

end Sys2Proof.Machine
end

