-- ==== Sys2Proof/Machine/Region.lean ====
section
/-! DEFINITION. Block restart, region reset and isolation, entry to SAFE, and the FAULT_N condition (file 01, R17 to R20;
file 15, R513, R514; file 16, R550 to R558). -/

namespace Sys2Proof.Machine

open Sys2Proof

/-! ### The rows in effect are reloaded -/

/-- A table key names a staged table of a page that meets `p`. -/
def stagedKey (p : Nat → Bool) (k : Nat) : Bool :=
  p (tabKeyPage k) && match findTab (tabKeyPage k) (k / 2 ^ 24 % 256) with
    | some t => t.staged
    | none => false

/-- Copy the entries of `src` whose keys meet `p` over those of `dst`. -/
def copyWhere (p : Nat → Bool) (src dst : SMap Nat) : SMap Nat :=
  (src.filter (fun x => p x.1)).foldl (fun m x => SMap.insert x.1 x.2 m) (dst.dropWhere p)

/-- Put the committed rows of the pages that meet `p` into effect (R80). -/
def State.reload (s : State) (p : Nat → Bool) : State := { s with live := copyWhere (stagedKey p) s.tabs s.live }

/-! ### Block restart (R17) -/

/-- A point starts afresh under the generation of the cue that last touched it (R17, step 3; R553). -/
def State.pointRenew (s : State) (B m e : Nat) : State := s.pointStart B m e (s.point m).gen

/-- The section point of a slice returns to the state of R168 (R17, R174): its accepted TTI is unset. -/
def State.sectionRenew (s : State) (d : Nat) : State :=
  let s := s.setEntry (pgOtu d) T_OTU_TTI_ACC 0 0
  { s with points := s.points.upd {} (secPoint d) (fun p => { adopted := true, flags := 16384, seqBase := s.secCount, gen := p.gen, neutral := true }) }

/-- A context and its points return to the state of R168. -/
def State.ctxRenew (s : State) (B dir e : Nat) : State :=
  let g := s.ctxGroup B dir e
  let s := { s with ctxs := s.ctxs.set {} (ckey B dir e) {} }
  let s := s.setEntry (pgOd B dir) T_CTX_STATUS e (2 ^ 6)
  let s := s.each (List.range 7) (fun s t => s.pointRenew B (dedPoint g t) (dedEntry dir e t))
  s.each (s.sharedOn B dir e) (fun s q => s.pointRenew B (shPoint B q) (shEntry q))

/-- The line clients of a block. -/
def State.blockLines (s : State) (B : Nat) : List Nat := ((List.range 4).map (4 * B + ·)).filter s.ethEn

/-- The contexts of a block, both directions. -/
def State.blockCtxs (s : State) (B : Nat) : List (Nat × Nat) := (List.range 2).flatMap (fun d => (s.ctxSlots B d).map (fun e => (d, e)))

/-- The clients of a context or a lane start clear. -/
def State.blockClients (s : State) (B : Nat) : State :=
  let s := s.each (s.blockCtxs B) (fun s x => s.cliStart (.ctx B x.1 x.2))
  s.each (s.blockLines B) (fun s n => s.cliStart (.line n))

/-- Every defect of a block's slices, contexts, points and clients clears, with its event and its episode closed (R17, step 3). -/
def State.blockClear (s : State) (B : Nat) : State :=
  let s := s.each ((List.range 16).map (16 * B + ·)) State.clearSlice
  let s := s.each (s.blockCtxs B) (fun s x => (s.ctxClose B x.1 x.2 false).cliClose (.ctx B x.1 x.2) false)
  s.each (s.blockLines B) (fun s n => s.cliClose (.line n) false)

/-- The running members of the OTUCn led by a slice. -/
def State.runningMembers (s : State) (lead : Nat) : List Nat := (s.otucMembers lead).filter s.sliceRuns

/-- A page of block B. -/
def inBlock (B pg : Nat) : Bool := decide (pgLln (4 * B) ≤ pg ∧ pg < pgLln (4 * B) + 0x100)

/-- A register field that a block restart puts to its reset value (file 00, R6): a requester's own state of a page, its shadows
included (file 02, R64), and what software has set beside the tables. DEDUCED (log entry 86): PAGE_CTRL, PAGE_OWNER and the lane's own
page stay, for R17 waits for the running members to come back in frame; events, counts and status follow R17 and R18. -/
def blockResets (k : Nat) : Bool :=
  decide (65536 ≤ k / 8192) ||
    (match pageInfo (keyPage k) with
      | some i => decide (i.typ ≠ .lln) && (pageFields (keyPage k)).any (fun f => decide (fkey (keyPage k) f = k) && decide (f.acc = .rw))
      | none => false)

/-- The registers of a block's pages at a restart, and its staged copies, which are the committed ones again with no row dirty. -/
def State.blockRegs (s : State) (B : Nat) : State :=
  let s := { s with regs := s.regs.dropWhere (fun k => inBlock B (keyPage k) && blockResets k) }
  { s with staged := copyWhere (stagedKey (inBlock B)) s.tabs s.staged
           dirty := s.dirty.dropWhere (fun k => inBlock B (tabKeyPage k)) }

/-- Steps 1 to 4 of a block restart: what it sends is forced, its datapath state is cleared, its tables reloaded. No stage of a
region in RESET or ISOLATED runs, nor of a chip in SAFE. -/
def State.blockRestart (s : State) (B : Nat) : State :=
  if B < 64 ∧ s.datapath (B / 8) then
    let s := { s with blk := s.blk.upd {} B (fun b => { b with forcedLeads := s.blockLeads B }) }
    let s := ((s.blockClear B).blockRegs B).reload (inBlock B)
    let s := s.each ((List.range 16).map (16 * B + ·)) State.sectionRenew
    let s := s.each (s.blockCtxs B) (fun s x => s.ctxRenew B x.1 x.2)
    (s.blockClients B).refreshBlock B
  else s

/-- The forced signals of an OTUCn end (R17, step 5). -/
def State.restartRelease (s : State) (lead : Nat) : State :=
  let B := lead / 16
  ({ s with blk := s.blk.upd {} B (fun b => { b with forcedLeads := b.forcedLeads.filter (fun d => decide (d ≠ lead)) }) }).refreshBlock B

/-- BLOCK_RESTART_RELEASE (R17): every running member is back in frame. -/
def State.restartInFrame (s : State) (lead : Nat) : State :=
  if (s.blk.get {} (lead / 16)).forcedLeads.contains lead && (s.runningMembers lead).all (fun d => s.rdb (pgOtu d) OTU_STATUS_in_frame) then
    s.restartRelease lead
  else s

/-- BLOCK_RESTART_TIMEOUT (R17): 3 ms after the reload. -/
def State.restartTimeout (s : State) (lead : Nat) : State :=
  if (s.blk.get {} (lead / 16)).forcedLeads.contains lead then s.restartRelease lead else s

/-! ### What the registers show of committed rows -/

/-- The number of valid committed rows of a table. -/
def State.validRows (s : State) (pg : Nat) (t : Tab) (f : TField) : Nat := ((listed s.tabs pg t).filter (fun x => efieldb x.2 f)).length

/-- ODI_POOL, ODE_POOL, MPT_SHP_USED, DMP_USED and MAP_USED of a block, and the membership its slices show. -/
def State.showBlock (s : State) (B : Nat) : State :=
  let s := s.each [0, 1] (fun s d =>
    let used := (listed s.tabs (pgOd B d) T_CTX).filter (fun x => efieldb x.2 CTX.valid)
    (s.wr (pgOd B d) ODI_POOL_used used.length).wr (pgOd B d) ODI_POOL_parents (used.filter (fun x => efieldb x.2 CTX.ho)).length)
  let s := (s.wr (pgMpt B) MPT_SHP_USED_used (s.validRows (pgMpt B) T_SHP SHP.valid)).showUsed B
  s.each ((List.range 16).map (16 * B + ·)) State.showMember

/-- RGN_POOL, SEL_USED, ISL_USED, OHQ_MEM and FYT_STATUS of a region. -/
def State.showRegion (s : State) (r : Nat) : State :=
  let n (d : Nat) : Nat := ((List.range 8).map (fun b => s.rd (pgOd (8 * r + b) d) ODI_POOL_used)).sum
  let s := (s.wr (pgRgn r) RGN_POOL_ingress (n 0)).wr (pgRgn r) RGN_POOL_egress (n 1)
  let s := (s.wr (pgSel r) SEL_USED_groups (s.validRows (pgSel r) T_ESG_CFG ESG_CFG.valid)).wr (pgSel r) SEL_USED_bridges
    (s.validRows (pgSel r) T_BRG_CFG BRG_CFG.valid)
  ((s.wr (pgIsl r) ISL_USED_groups (s.validRows (pgIsl r) T_ISG_CFG ISG_CFG.valid)).showOhqMem r).showFyt r

/-! ### FAULT_N (R513) -/

/-- The highest level of any state, and whether a state of scope s stands at L3 or above. -/
def State.fltStates (s : State) : List (Nat × Nat) := (listed s.tabs pgFlt T_FLT_STATE).map (fun x => (x.1, efield x.2 FLT_STATE.level))
def State.maxLevel (s : State) : Nat := (s.fltStates.map (·.2)).foldl max 0
def State.scopeL3 (s : State) (sc : Nat) : Bool := s.fltStates.any (fun x => decide (x.1 / 32 = sc ∧ 3 ≤ x.2))

/-- Any of the conditions of R513 holds. -/
def State.faultN (s : State) : Bool :=
  decide (3 ≤ s.maxLevel ∨ s.mode = modeSafe ∨ s.dom = .stopped) || (List.range 8).any (fun r => decide (s.region r = rgnIsolated))

/-- Bring FLT_STATUS up to date. -/
def State.showFault (s : State) : State :=
  let l3 := (List.range 8).foldl (fun a r => a + (if s.scopeL3 r then 2 ^ r else 0)) 0
  ((s.wr pgFlt FLT_STATUS_max_level s.maxLevel).wr pgFlt FLT_STATUS_l3_regions l3).wrb pgFlt FLT_STATUS_fault_n s.faultN

/-! ### Isolation (R20, R514, R554) -/

/-- The report links of a region (R504). -/
def regionReportLinks (r : Nat) : List Nat := (List.range 8).map (8 * r + ·) ++ [64 + r]

def State.maskLinks (s : State) (r : Nat) (on : Bool) : State :=
  s.each (regionReportLinks r) (fun s l =>
    (s.when on (fun s => s.keepWas true (tkey pgFlt T_FLT_LINK l) (s.entry pgFlt T_FLT_LINK l))).tputb pgFlt T_FLT_LINK l FLT_LINK.masked on)

def State.isolatedBit (s : State) (r : Nat) (on : Bool) : State :=
  let v := s.rd pgFlt FLT_STATUS_isolated
  s.wr pgFlt FLT_STATUS_isolated (if on then v ||| 2 ^ r else v &&& (255 - 2 ^ r))

/-- The region goes ISOLATED now; `markers` says whether its offline markers are still to be sent. -/
def State.goIsolated (s : State) (r : Nat) (markers : Bool) : State :=
  let s := ((s.setRegion r rgnIsolated 1).isolatedBit r true).maskLinks r true
  (s.when markers (fun s => s.sendOffline r)).showFault

/-- An L3 action falls on a region (R512, R554). -/
def State.isolate (s : State) (r : Nat) : State :=
  if s.region r = rgnReset then (if s.deferredIso.contains r then s else { s with deferredIso := s.deferredIso ++ [r] })
  else if s.region r = rgnIsolated then s
  else s.goIsolated r true

/-! ### Region reset (R552) -/

def isFylPage (pg : Nat) : Bool :=
  match pageInfo pg with
  | some i => decide (i.typ = .fyl)
  | none => false

def inRegion (r pg : Nat) : Bool := decide (pageRegion pg = some r)

/-- A register field that a region reset keeps: PAGE_OWNER and, unless it clears, the region's cue generations. -/
def resetKeeps (clear : Bool) (r k : Nat) : Bool :=
  let off := k % 8192 / 8
  decide (off = 0x00C) || (!clear && decide (keyPage k = pgRgn r ∧ 0x100 ≤ off ∧ off ≤ 0x120))

/-- The region of what a datapath store holds at a key. -/
def ctxKeyRegion (k : Nat) : Nat := k / 16384
def cliKeyRegion (k : Nat) : Nat := if k < 131072 then k / 16384 else (k - 131072) / 32

/-- The registers and tables of a region and its blocks take their reset values, but for what R552 keeps. -/
def State.wipeRegs (s : State) (r : Nat) (clear : Bool) : State :=
  let gone (k : Nat) : Bool := inRegion r (keyPage k) && !isFylPage (keyPage k) && !resetKeeps clear r k
  let goneT (k : Nat) : Bool :=
    inRegion r (tabKeyPage k) && (if stagedKey (fun _ => true) k then clear else !isFylPage (tabKeyPage k))
  let s := { s with regs := s.regs.dropWhere gone, regsB := s.regsB.dropWhere gone, regsC := s.regsC.dropWhere gone
                    tabs := s.tabs.dropWhere goneT, tabsB := s.tabsB.dropWhere goneT, tabsC := s.tabsC.dropWhere goneT
                    events := s.events.dropWhere (fun pg => inRegion r pg && !isFylPage pg) }
  { s with staged := copyWhere (stagedKey (inRegion r)) s.tabs s.staged
           dirty := s.dirty.dropWhere (fun k => inRegion r (tabKeyPage k)) }

/-- The datapath state of a region is gone; a point keeps the generation of the cue that last touched it. -/
def State.wipeCells (s : State) (r : Nat) : State :=
  { s with
    lanes := s.lanes.dropWhere (fun n => decide (n / 32 = r)), prbs := s.prbs.dropWhere (fun n => decide (n / 32 = r)), slices := s.slices.dropWhere (fun d => decide (d / 128 = r))
    points := s.points.filterMap (fun x => if pointRegion x.1 = r then
        (if x.2.gen = 0 ∧ x.2.seqBase = 0 then none else some (x.1, { gen := x.2.gen, seqBase := x.2.seqBase }))
      else some x)
    ctxs := s.ctxs.dropWhere (fun k => decide (ctxKeyRegion k = r)), clis := s.clis.dropWhere (fun k => decide (cliKeyRegion k = r))
    gmps := s.gmps.dropWhere (fun k => decide (ctxKeyRegion (k / 2) = r)), epi := s.epi.dropWhere (fun k => decide (k = r))
    flowOuts := s.flowOuts.dropWhere (fun k => decide (k / 8192 = r)), txFlows := s.txFlows.dropWhere (fun k => decide (k / 4096 = r))
    brgStamp := s.brgStamp.dropWhere (fun k => decide (k / 2048 = r)), blk := s.blk.dropWhere (fun B => decide (B / 8 = r)) }

/-- RESET_CLEAR returns the links' rows to their reset values, and their roles with them. -/
def State.clearLinks (s : State) (r : Nat) : State :=
  s.each (regionLinks r) (fun s m =>
    let old := s.linkRole m
    (s.reload (fun pg => decide (pg = pgFyl m))).roleChange m old)

/-- What a region reset does to the region (R552). -/
def State.resetRegion (s : State) (r : Nat) (clear : Bool) : State :=
  let ws := s.wingsRegionReset r
  let s := ((ws.ohqRegionReset r).wipeRegs r clear).wipeCells r
  let s := s.when clear (fun s => (s.clearLinks r).cueForget r)
  s.prtRegionReset r

/-- A region enters RESET (R462, R551, R552): markers first, then the reset. Leaving ISOLATED, its links are heard again. -/
def State.enterReset (s : State) (r : Nat) (clear : Bool) : State :=
  let s := (s.lastSegments r).when (decide (s.region r = rgnIsolated)) (fun s => s.maskLinks r false)
  (((s.setRegion r rgnReset 0).sendOffline r).resetRegion r clear).showFault

/-- Every committed row of a region is adopted afresh (R553). -/
def State.adoptRegion (s : State) (r : Nat) : State :=
  let s := s.reload (inRegion r)
  let blocks := (List.range 8).map (8 * r + ·)
  let s := s.each blocks (fun s B => ((s.each (s.blockCtxs B) (fun s x => s.ctxRenew B x.1 x.2)).blockClients B).showBlock B)
  let s := s.each (s.validTx r) (fun s i => s.txStart r i)
  let s := s.each (((s.effRows (pgFyr r) T_RXF_CFG).filter (fun x => efieldb x.2 RXF_CFG.valid)).map (·.1)) (fun s i => s.rxStart r i)
  let s := s.each (((s.effRows (pgSel r) T_BRG_CFG).filter (fun x => efieldb x.2 BRG_CFG.valid)).map (·.1)) (fun s i => s.brgStart r i)
  let ws := ((s.effRows (pgSel r) T_ESG_CFG).filter (fun x => efieldb x.2 ESG_CFG.valid && efieldb x.2 ESG_CFG.aligned)).map
    (fun x => efield x.2 ESG_CFG.wgrp)
  let s := s.each ws State.wgStart
  (((s.each (s.regionGroups r) State.grpStart).each blocks State.refreshBlock).showRegion r)

/-- A region's reset is complete (R551, R553, R554): it leaves RESET as `to`, or as ISOLATED after a deferred isolation. -/
def State.leaveReset (s : State) (r dst : Nat) : State :=
  let iso := s.deferredIso.contains r
  let s := ({ s with deferredIso := s.deferredIso.filter (fun x => decide (x ≠ r)) }).isolatedBit r false
  let s := if iso then s.goIsolated r false else (s.setRegion r dst 0).showFault
  s.adoptRegion r

/-- REGION_RESET_DONE (R553). In CALL the regions leave RESET at step 7 only. -/
def State.regionResetDone (s : State) (r : Nat) : State :=
  if r < 8 ∧ s.region r = rgnReset ∧ s.mode ≠ modeCall then
    let s := s.leaveReset r rgnOffline
    match s.modeCmd with
    | some c => if (c.op = opReset ∨ c.op = opResetClear) ∧ c.arg = r then s.modeEnd mcDone else s
    | none => s
  else s

/-! ### The ensemble's cores -/

/-- EN0 and EN1 are held in reset (R557). -/
def State.holdEnsemble (s : State) : State := (s.wr (pgFwm 0) (enRunF 0) 0).wr (pgFwm 0) (enRunF 1) 0

/-- A core starts at its slot, if the slot holds an image; its watchdog starts with it. -/
def State.startCore (s : State) (i : Nat) : State :=
  if (s.enImg i).isSome then { (s.wr (pgFwm 0) (enRunF i) 2) with enStart := s.tb.sec, kickAt := s.kickAt.set 0 i s.dpCycle } else s

/-! ### SAFE (R557, R600) -/

/-- What entry to SAFE stops (R557). -/
def State.safeEffects (s : State) : State :=
  let s := ((s.each (List.range 8) State.sendOffline).holdEnsemble).showFault
  let s := match s.modeCmd with
    | some c => if c.op = opReset ∨ c.op = opResetClear then s else s.modeEnd mcMode
    | none => s
  s.applyTests.applyFylTests

/-- The chip enters SAFE: `fault` when the collector takes it there. -/
def State.enterSafe (s : State) (fault : Bool) : State :=
  if s.mode = modeDark ∨ s.mode = modeSafe then s
  else
    let s := { s with callStop := s.callStop || decide (s.mode = modeCall) }
    ((s.setMode modeSafe).when fault (fun s => s.wrb pgFlt FLT_STATUS_safe true)).safeEffects

/-- The MODE register has lost its vote (R559): the device is in SAFE. -/
def State.modeLost (s : State) : State :=
  let s := ((s.wr pgMode MODE_current modeSafe).wr pgMode MODE_service 0).wr pgMode MODE_model 0
  let s := (s.ev pgMode 0).logRec 0x07 modeSafe (srcChip kindSelf 0) 0xF
  (((s.setErr pgMode errVoteLost).report clsVote 4 (srcChip kindSelf 0)).wrb pgFlt FLT_STATUS_safe true).safeEffects

/-! ### Meanings -/

/-- BLOCK_RESTART: the block meets an error of class `cls` in its own state that no cell corrects; it reports at L2 (Table
FLT-5) and restarts itself. -/
def execBlockRestart (B cls : Nat) := run (fun s =>
  if B < 64 ∧ s.datapath (B / 8) then (s.report (cls % 32) 2 (srcBlock B)).blockRestart B else s)
def execBlockRestartRelease (lead : Nat) := run (fun s => s.restartInFrame lead)
def execBlockRestartTimeout (lead : Nat) := run (fun s => s.restartTimeout lead)
def execRegionResetDone (r : Nat) := run (fun s => s.regionResetDone r)

end Sys2Proof.Machine
end

