-- ==== Sys2Proof/Machine/Flt.lean ====
section
/-! DEFINITION. The fault collector: report words, fault states, levels and their actions, ageing, acknowledgement; the prompt
book's writer and its failing banks (file 15, R504 to R529). -/

namespace Sys2Proof.Machine

open Sys2Proof

/-! ### Policy and states -/

/-- FLT_POLICY of a class, with 0 and out-of-range values acting as Table FLT-12 states. -/
def State.policy (s : State) (c : Nat) (f : TField) : Nat := s.tget pgFlt T_FLT_POLICY c f
def State.thresh (s : State) (c : Nat) : Nat := max 1 (s.policy c FLT_POLICY.thresh)
def State.quietMs (s : State) (c : Nat) : Nat := max 1 (s.policy c FLT_POLICY.quiet_ms)
def State.cap_ (s : State) (c : Nat) : Nat := min 4 (s.policy c FLT_POLICY.cap)
/-- The length of a slice in ms (R515). -/
def State.sliceMs (s : State) (c : Nat) : Nat := (max 1 (s.policy c FLT_POLICY.window_ms) + 15) / 16

/-- The scope of a source: a region, or 8 (R511). -/
def scopeOf (src : Nat) : Nat :=
  if srcHier src = 3 then
    if srcKind src = kindRepLink ∧ srcInst src < 64 then srcInst src / 8
    else if srcKind src = kindRepLink ∧ srcInst src < 72 then srcInst src - 64
    else 8
  else srcRgn src

def fltSt (e : Nat) (f : TField) (s : State) : Nat := s.tget pgFlt T_FLT_STATE e f
def State.win (s : State) (e : Nat) : FltWin := s.fltWin.get {} e
def FltWin.count (w : FltWin) : Nat := (w.slices.take 16).sum

/-- Put reports into the current slice (R516). -/
def FltWin.add (w : FltWin) (n : Nat) : FltWin :=
  match w.slices with
  | [] => { w with slices := [min n 65535] }
  | x :: rest => { w with slices := min (x + n) 65535 :: rest }

/-- The window begins a new slice; the oldest closes (R515, R517). -/
def FltWin.nextSlice (w : FltWin) : FltWin :=
  if w.slices.all (fun x => decide (x = 0)) then { w with slices := [] } else { w with slices := (0 :: w.slices).take 16 }

/-- Show a state's window count and quiet time. -/
def State.showState (s : State) (e : Nat) : State :=
  (s.tput pgFlt T_FLT_STATE e FLT_STATE.window (min 65535 (s.win e).count)).tput pgFlt T_FLT_STATE e FLT_STATE.quiet_left
    (min 65535 (s.win e).quiet)

/-! ### Levels and actions (R512, Table FLT-5) -/

/-- A source is a cell of a block, or a block. -/
def blockSource (src : Nat) : Option Nat :=
  let k := srcKind src
  if srcHier src = 1 ∨ (srcHier src = 0 ∧ ¬ (k = kindCap ∨ k = kindIns ∨ k = kindLink ∨ k = kindTxf ∨ k = kindRxf ∨ k = kindGroup ∨
      k = kindBridge ∨ k = kindSensor)) then some (8 * srcRgn src + srcBlk src)
  else none

/-- The action of one level: at L2 a restart where escalation raised the report, at L3 isolation, at L4 SAFE. -/
def State.levelAction (s : State) (a sent src sc : Nat) : State :=
  if a = 2 then
    match blockSource src with
    | some B => if sent < 2 then s.blockRestart B else s
    | none => s
  else if a = 3 then (if sc < 8 then s.isolate sc else s)
  else if a = 4 then s.enterSafe true
  else s

/-- The LEVEL entry of a state: `cause` 0 first report, 1 escalation, 2 quiet. -/
def State.levelEntry (s : State) (e old new cause src : Nat) : State :=
  let rec_ := s.tget pgFlt T_FLT_CNT e FLT_CNT.recoveries
  let s := s.logRec 0x02 (clsLevel (e % 32) new) src (old + cause * 256 + e / 32 * 65536 + rec_ * 2 ^ 32)
  let s := s.ev pgFlt 0
  if 3 ≤ new then s.ev pgFlt 1 else s

/-- A state's level rises (R516). -/
def State.raiseLevel (s : State) (e new cause sent src : Nat) : State :=
  let old := fltSt e FLT_STATE.level s
  if old < new then
    let s := (s.tcountSat pgFlt T_FLT_CNT e FLT_CNT.escalations).levelEntry e old new cause src
    let s := s.tput pgFlt T_FLT_STATE e FLT_STATE.level new
    s.each ((List.range 5).filter (fun a => decide (old < a ∧ a ≤ new))) (fun s a => s.levelAction a sent src (e / 32))
  else s

/-- The collector holds the stage manager in reset (R520). -/
def State.smAction (s : State) (c : Nat) : State := if c = clsWdogSm ∨ c = clsLockstep then { s with smHeld := true } else s

/-- The collector judges a report word (R516): class, level, source, n, mixed. -/
def State.judge (s : State) (c0 l0 src n : Nat) (mixed : Bool) : State :=
  let c := if 29 ≤ c0 then clsCollector else c0
  let l := if 29 ≤ c0 then 2 else min 4 l0
  let e := 32 * scopeOf src + c
  let seq := s.rd pgLog LOG_HEAD_seq
  let s := s.tcount pgFlt T_FLT_CNT e FLT_CNT.reports n
  let s := { s with fltWin := s.fltWin.upd {} e (fun w => w.add n) }
  let lasting := decide (s.thresh c ≤ (s.win e).count)
  let repeat_ := fltSt e FLT_STATE.unack s ≠ 0
  let lv := max l (min (s.cap_ c) (l + b2n lasting + b2n repeat_))
  let first := fltSt e FLT_STATE.active s = 0
  let s := if first then (s.tputb pgFlt T_FLT_STATE e FLT_STATE.active true).tput pgFlt T_FLT_STATE e FLT_STATE.first_seq seq else s
  let s := (s.tputb pgFlt T_FLT_STATE e FLT_STATE.unack true).tput pgFlt T_FLT_STATE e FLT_STATE.last_seq seq
  let s := if lasting then s.tputb pgFlt T_FLT_STATE e FLT_STATE.lasting true else s
  let s := s.raiseLevel e lv (if first then 0 else 1) l src
  let s := s.logReport { time := s.now, typ := 1, cls := clsLevel c lv, source := src
                         payload := n + b2n mixed * 65536 + l0 % 8 * 2 ^ 24 + s.tget pgFlt T_FLT_CNT e FLT_CNT.reports * 2 ^ 32 }
  let s := { s with fltWin := s.fltWin.upd {} e (fun w => { w with quiet := s.quietMs c }) }
  ((s.showState e).smAction c).showFault

/-! ### Report links -/

/-- FLT_INJECT reports are judged in REHEARSAL and AUDIT only (R538). -/
def State.injectOk (s : State) : Bool := decide (s.mode = modeRehearsal ∨ s.mode = modeAudit)

/-- The collector judges a report word by its fields (Table FLT-1). -/
def State.judgeWord (s : State) (w : Nat) : State := s.judge (getBits w 4 0) (getBits w 7 5) (wordSrc w) (getBits w 54 40) (bit w 55)

/-- Words of one cycle in ascending link order, those of a link in the order in which they came. -/
def byLink (l : List (Nat × Nat)) : List (Nat × Nat) := (List.range 96).flatMap (fun k => l.filter (fun x => decide (x.1 = k)))

/-- The accepted words of the cycle are judged in ascending link order (R516). -/
def State.fltSettle (s : State) : State :=
  if s.col.words = [] then s
  else ({ s with col := { s.col with words := [] } }).each (byLink s.col.words) (fun s x => s.judgeWord x.2)

/-- They are judged after the last of the cycle's commands that come before them. -/
def State.fltEnd (s : State) : State := if s.fltAhead then s else s.fltSettle

/-- REPORT_WORD (R508, R514, R516): the collector accepts the link's next word; one without a correct CRC stays in its slot. -/
def State.reportWord (s : State) (link : Nat) : State :=
  match s.nextSlot link, s.nextWord link with
  | some c, some w =>
    if !wordOk w then s
    else
      let masked := s.linkMasked link
      let s := { s with slots := s.slots.erase (32 * link + c) }
      let s := (s.count pgFlt FLT_WORDS).tcount pgFlt T_FLT_LINK link FLT_LINK.accepted
      if masked then ((s.count pgFlt FLT_MASKED).tcount pgFlt T_FLT_LINK link FLT_LINK.masked_words).ev pgFlt 4
      else if link = 95 ∧ !s.injectOk then s.wrb pgFlt FLT_INJECT_STATUS_refused true
      else { s with col := { s.col with words := s.col.words ++ [(link, w)] } }
  | _, _ => s

/-- A link breaks (R505). -/
def State.breakLink (s : State) (link : Nat) : State :=
  if s.tgetb pgFlt T_FLT_LINK link FLT_LINK.broken then s
  else ((s.tputb pgFlt T_FLT_LINK link FLT_LINK.broken true).ev pgFlt 2).report clsWire 2 (srcChip kindRepLink link)

/-- REPORT_RESEND (R508): no acknowledge within 64 FAB cycles; after three resends the link is broken. -/
def State.reportResend (s : State) (link : Nat) : State :=
  match s.nextSlot link with
  | some c =>
    let k := 32 * link + c
    if (s.slots.get {} k).resends < 3 then
      ({ s with slots := s.slots.upd {} k (fun x => { x with resends := x.resends + 1 }) }).count pgFlt FLT_RETRY
    else s.breakLink link
  | none => s

/-! ### Ageing and acknowledgement -/

/-- A state leaves its fault state (R517). -/
def State.leaveFault (s : State) (e : Nat) : State :=
  let old := fltSt e FLT_STATE.level s
  let s := s.tcountSat pgFlt T_FLT_CNT e FLT_CNT.recoveries
  let s := s.each [FLT_STATE.level, FLT_STATE.active, FLT_STATE.unack, FLT_STATE.lasting] (fun s f => s.tput pgFlt T_FLT_STATE e f 0)
  (s.levelEntry e old 0 2 (if e / 32 < 8 then srcRegion (e / 32) else srcChip kindSelf 0)).ev pgFlt 3

/-- The state that a word is judged in (R511). -/
def wordState (w : Nat) : Nat := 32 * scopeOf (wordSrc w) + wordCls w

/-- The scan visits one state (R517); one that a report of the same cycle reaches does not age (R519). -/
def State.ageState (s : State) (e : Nat) : State :=
  let s := if s.col.ms % s.sliceMs (e % 32) = 0 then { s with fltWin := s.fltWin.upd {} e FltWin.nextSlice } else s
  let s :=
    if fltSt e FLT_STATE.active s ≠ 0 ∧ !(s.soonWords.any (fun w => decide (wordState w = e))) then
      let s := { s with fltWin := s.fltWin.upd {} e (fun w => { w with quiet := w.quiet - 1 }) }
      if (s.win e).quiet = 0 then s.leaveFault e else s
    else s
  s.showState e

/-- FLT_AGE_SCAN (R515, R517): the next millisecond. -/
def State.ageScan (s : State) : State :=
  (({ s with col := { s.col with ms := s.col.ms + 1 } }).each (List.range 288) State.ageState).showFault

/-- FLT_ACK (R518): the value written. -/
def State.fltAck (s : State) (v : Nat) : State :=
  let sc := getBits v 11 8
  if bit v 31 then s.each (List.range 288) (fun s e => s.tput pgFlt T_FLT_STATE e FLT_STATE.unack 0)
  else if sc ≤ 8 then s.tput pgFlt T_FLT_STATE (32 * sc + v % 32) FLT_STATE.unack 0
  else s

/-- FLT_INJECT (R538). -/
def State.fltInject (s : State) (v : Nat) : State :=
  if s.injectOk then
    (s.wrb pgFlt FLT_INJECT_STATUS_refused false).reportOn 95 (v % 32) (getBits v 7 5) (s.rd pgFlt FLT_INJECT_SRC_source)
  else s.wrb pgFlt FLT_INJECT_STATUS_refused true

/-! ### The prompt book's memory (R528, R529) -/

/-- With both banks failed the collector raises (LOG_MEMORY, 8) to L3 at once. -/
def State.bankRaise (s : State) (wasOnly : Bool) : State :=
  if s.rdb pgLog LOG_STATUS_ghost_only && !wasOnly then
    let e := 32 * 8 + clsLogMemory
    let first := fltSt e FLT_STATE.active s = 0
    let seq := s.rd pgLog LOG_HEAD_seq
    let s := if first then
        ((s.tputb pgFlt T_FLT_STATE e FLT_STATE.active true).tput pgFlt T_FLT_STATE e FLT_STATE.first_seq seq).tput pgFlt T_FLT_STATE e
          FLT_STATE.last_seq seq
      else s
    let s := s.raiseLevel e 3 (if first then 0 else 1) 3 (srcService 12)
    let s := { s with fltWin := s.fltWin.upd {} e (fun w => { w with quiet := max w.quiet (s.quietMs clsLogMemory) }) }
    (s.showState e).showFault
  else s

/-- LOG_WRITE (R523). -/
def State.logWriteStep (s : State) (bad : Bool) : State := (s.logWrite bad).bankRaise (s.rdb pgLog LOG_STATUS_ghost_only)

/-- A bank fails outside an entry access, or by a test (R528). -/
def State.bankFailStep (s : State) (k : Nat) : State := (s.bankFail k none).bankRaise (s.rdb pgLog LOG_STATUS_ghost_only)

/-- The writer is about to write an entry into bank k in this cycle. -/
def State.writeSoon (s : State) (k : Nat) : Bool :=
  decide (s.logQ ≠ []) && decide ((s.logSlot (s.rd pgLog LOG_HEAD_seq)).map (· / 32768) = some k) &&
    s.pending.any (fun c => match c with
      | .logWrite _ => true
      | _ => false)

/-- BANK_FAIL (R528): an uncorrectable error outside an entry access; one that falls into the FAB cycle in which an entry is written to the
bank makes that entry the failing one (R537). -/
def State.bankFailAt (s : State) (k : Nat) : State :=
  let (f, x, v, n) := s.col.wrote
  if f = s.fab ∧ x / 32768 = k then (s.bankFail k (some (v, n))).bankRaise (s.rdb pgLog LOG_STATUS_ghost_only)
  else if s.writeSoon k then { s with col := { s.col with bankDue := (s.fab, k + 1) } }
  else s.bankFailStep k

/-! ### Errors of items and of the stage manager -/

/-- ITEM_ERROR_DETECTED (R15, Table FLT-4). -/
def State.itemError (s : State) (x : ItemError) : State :=
  match x with
  | .sramCe src => s.report clsSramCe 1 src
  | .sramUe src => s.report clsSramUe 2 src
  | .parity src => s.report clsParity 1 src
  | .lane (.line n) => s.report clsSerdesLine 1 (srcCell (n / 4) kindLane n)
  | .lane (.fybry m _) => s.report clsSerdesFybry 1 (srcRgnCell (m / 12) kindLink m)
  | .datapath src => s.report clsInvariant 2 src
  | .row src => s.report clsConfig 2 src
  | .queueWord r dir i k => s.poisonWord r dir i k
  | .selfTest r => if s.mode = modeCall then s.report clsSramUe 3 (srcRegion r) else s
  | .fuse => s.report clsFuse 2 (srcService 13)
  | .collector => s.report clsCollector 2 (srcService 0)

/-- SM_WDOG_EXPIRY (R520): the stage manager's watchdog, or its lockstep comparator. -/
def State.smExpiry (s : State) (lockstep : Bool) : State :=
  s.report (if lockstep then clsLockstep else clsWdogSm) 3 (srcService 8)

/-! ### Meanings -/

def execReportWord (link : Nat) := run (fun s => if link < 96 then (s.reportWord link).fltEnd else s)
def execWireBroken (link : Nat) := run (fun s => if link < 96 then s.breakLink link else s)
def execReportResend (link : Nat) := run (fun s => if link < 96 then s.reportResend link else s)
def execFltAgeScan := run (fun s => s.ageScan.fltEnd)
def execFltAck (v : Nat) := run (fun s => (s.fltAck v).fltEnd)
def execFltInject (v : Nat) := run (fun s => s.fltInject v)
def execLogWrite (bad : Bool) := run (fun s => (s.logWriteStep bad).fltEnd)
def execKeyClose (cls source : Nat) := run (fun s => (s.keyClose cls source).fltEnd)
def execBankFail (k : Nat) := run (fun s => s.bankFailAt k)
def execItemErrorDetected (x : ItemError) := run (fun s => s.itemError x)
def execSmWdogExpiry (lockstep : Bool) := run (fun s => s.smExpiry lockstep)

end Sys2Proof.Machine
end

