-- ==== Sys2Proof/Machine/Csu.lean ====
section
/-! DEFINITION. The clock synthesis units: bands, re-bands, lost references and locks, and what gating does (file 12, R410 to
R419); the progress of the CALL sequence that hangs on them and of an UPDATE (file 16, R548, R555). -/

namespace Sys2Proof.Machine

open Sys2Proof

/-! ### Units: 0 core, 1 to 32 LG, 33 to 48 FG, 49 to 54 HB (Table TIM-1) -/

def csuUnits : Nat := 55
def csuLockLost : Nat := 0
def csuLocked : Nat := 1
def csuRefLost : Nat := 2
def csuRefBack : Nat := 3
def csuBandEdge : Nat := 4
def csuRebandDone : Nat := 5

def State.csu (s : State) (u : Nat) : Csu := s.csus.get {} u
def State.setCsu (s : State) (u : Nat) (f : Csu → Csu) : State := { s with csus := s.csus.upd {} u f }
def State.csuB (s : State) (u : Nat) (f : Field) : Bool := s.rdb (pgCsu u) f
def isLg (u : Nat) : Bool := decide (1 ≤ u ∧ u ≤ 32)
def isFg (u : Nat) : Bool := decide (33 ≤ u ∧ u ≤ 48)
def isHb (u : Nat) : Bool := decide (49 ≤ u ∧ u ≤ 54)

/-- The region of an LG or FG unit. -/
def csuRegion (u : Nat) : Nat := if isLg u then (u - 1) / 4 else (u - 33) / 2

/-- The target oscillator frequency in MHz, by reference type. -/
def csuTarget (u typ : Nat) : Nat :=
  if u = 0 then 7000 else if isLg u then (if typ = 0 then 55905 else 53125) else if isFg u then 56000 else 4000

/-! ### The core unit stops (Table TIM-4, R531, R590) -/

/-- AON's last entry: seconds of the time base, no nanoseconds, quality FREERUN. -/
def State.lastGasp (s : State) (cls src : Nat) : State :=
  let q := s.rd pgLog LOG_HEAD_seq
  let r : LogRec := { time := { sec := s.tb.sec, ns := 0, quality := 2 }, typ := 1, cls := clsLevel cls 4, source := src
                      payload := 1 + 4 * 2 ^ 24 }
  (s.ghostWrite (r.value q) 1 ghostCore).wr pgLog LOG_HEAD_seq (q + 1)

/-- Every domain except AON stops until RESET_N. -/
def State.coreStop (s : State) (cls src : Nat) : State :=
  let s := (s.lastGasp cls src).wrb pgHst HST_LINK_up false
  ({ s with dom := .stopped }).wrb pgFlt FLT_STATUS_fault_n true

/-! ### Gating (R418, Table TIM-4) -/

/-- A link's clock is gone: it fails, and starts anew. -/
def State.linkGated (s : State) (m : Nat) : State :=
  let s := (s.failLink m).wr (pgFyl m) FYL_STATUS_lane_lock 0
  (s.setFyl m (fun x => { x with trained := false, logical := [], lags := [], recent := [], prbsLock := 0 })).unalign m

def State.gateEffects (s : State) (u : Nat) : State :=
  if isLg u then s.each ((List.range 8).map (8 * (u - 1) + ·)) (fun s n => (s.lineLos n).laneStop n)
  else if isFg u then s.each ((List.range 6).map (6 * (u - 33) + ·)) State.linkGated
  else if isHb u then s.stackFail (u - 49) true
  else s

/-- The outputs of a unit other than the core unit are gated. -/
def State.gate (s : State) (u : Nat) : State :=
  let was := s.csuB u CSU_STATUS_gated
  let s := ((s.wrb (pgCsu u) CSU_STATUS_gated true).wrb (pgCsu u) CSU_STATUS_locked false).wr (pgCsu u) CSU_STATUS_margin 0
  s.when (!was) (fun s => s.gateEffects u)

/-- The unit has lock: outputs ungated; where in its band it runs is not stated. -/
def State.csuLock (s : State) (u : Nat) : State :=
  let (v, s) := s.free 6
  let pg := pgCsu u
  ((((s.wrb pg CSU_STATUS_gated false).wrb pg CSU_STATUS_locked true).wrb pg CSU_STATUS_band_edge false).wr pg CSU_STATUS_margin
    (v % 51)).ev pg csuLocked

/-! ### Choosing a band (R413) -/

/-- |tc| × max(T + 10, 105 − T), in units of 2^-12 ppm, for T in 1/16 °C. -/
def driftPpm (tc t16 : Int) : Nat := tc.natAbs * (max (t16 + 160) (1680 - t16)).toNat

/-- 10^6 in those units. -/
def driftOne : Nat := 4096 * 1000000

def bandFits (v typ f : Nat) (t16 : Int) : Bool :=
  let d := driftPpm (toSigned 16 (efield v CSU_BAND.tc)) t16
  efieldb v CSU_BAND.valid && decide (efield v CSU_BAND.ref_type = typ) && decide (efield v CSU_BAND.f_lo * driftOne + f * d ≤ f * driftOne)
    && decide (f * driftOne + f * d ≤ efield v CSU_BAND.f_hi * driftOne)

def State.chooseBand (s : State) (u typ : Nat) (t16 : Int) : Option Nat :=
  (List.range 64).find? (fun b => bandFits (s.entry (pgCsu u) T_CSU_BAND b) typ (csuTarget u typ) t16)

/-! ### An UPDATE in progress (R555) -/

/-- The six units of a region. -/
def updUnits (r : Nat) : List Nat := (List.range 4).map (1 + 4 * r + ·) ++ [33 + 2 * r, 34 + 2 * r]

/-- A unit takes part in a PENDING UPDATE, which reports no fault of it. -/
def State.csuUpdating (s : State) (u : Nat) : Bool := (isLg u || isFg u) && s.updating (csuRegion u)

def State.updDone (s : State) (r : Nat) : Bool :=
  (updUnits r).all (fun u => decide ((s.csu u).reband = .none)) &&
  s.upd.lanes.all (fun n => !s.laneRuns n || !s.laneClock n || !s.laneTypeOk n || s.rdb (pgLln n) LLN_STATUS_trained) &&
  s.upd.links.all (fun m => !s.linkRuns m || !s.linkClock m || ((s.fyl m).trained && s.linkAligned m))

/-- The UPDATE that has nothing left to wait for ends: link failures that arose in it are cleared. -/
def State.updCheck (s : State) (r : Nat) : State :=
  if s.updating r && s.updDone r then
    let ms := (regionLinks r).filter (fun m => s.linkFailed m && s.linkClock m && !s.upd.failed.contains m)
    let s := (s.each ms State.unfail).showFyt r
    { ((s.ev pgMode 3).modeEnd mcDone) with upd := {} }
  else s

/-! ### The CALL sequence (R548, Table MOD-3) -/

/-- Every unit but the core unit is locked, or stays gated without a band. -/
def State.unitsReady (s : State) : Bool :=
  (List.range 54).all (fun i => s.csuB (i + 1) CSU_STATUS_locked || s.csuB (i + 1) CSU_STATUS_no_band)

/-- Step 2 ends when the core unit has lock, and the AVS target is published (R575); step 4 when every other unit is ready. -/
def State.callClocks (s : State) : State :=
  if s.mode ≠ modeCall then s
  else
    let s := if s.rd pgMode MODE_CALL_step = 1 ∧ s.csuB 0 CSU_STATUS_locked then
        ((s.wr pgMode MODE_CALL_step 2).wrb pgChipId CHIP_ID_AVS_ready true) else s
    if s.rd pgMode MODE_CALL_step = 3 ∧ s.unitsReady then s.wr pgMode MODE_CALL_step 4 else s

/-! ### Re-band (R414) -/

/-- The status pages of the requesters read DONE. -/
def State.rebandAnswer (s : State) (u : Nat) : State :=
  let s := s.each (s.csu u).waiting (fun s p => s.wr p CSU_CMD_STATUS_code 0)
  (s.setCsu u (fun c => { c with waiting := [], reband := .none })).wrb (pgCsu u) CSU_STATUS_reband_busy false

/-- No entry holds the target: the unit stays gated. -/
def State.noBand (s : State) (u : Nat) : State :=
  let s := ((s.wrb (pgCsu u) CSU_STATUS_no_band true).setCsu u (fun c => { c with banded := false })).rebandAnswer u
  if u = 0 then s.coreStop clsClockLoss (srcChip kindCsu 0)
  else s.when (!s.csuUpdating u) (fun s => s.report clsPllUnlock 2 (srcChip kindCsu u))

/-- Steps 1 and 2: the outputs are gated and a band is chosen. -/
def State.rebandRun (s : State) (u : Nat) (t16 : Int) : State :=
  let s := s.gate u
  let typ := if isLg u then s.rd (pgCsu u) CSU_CFG_ref_type else 0
  match s.chooseBand u typ t16 with
  | none => s.noBand u
  | some b =>
    ((s.wr (pgCsu u) CSU_STATUS_band b).wrb (pgCsu u) CSU_STATUS_no_band false).setCsu u (fun c => { c with reband := .running, selType := typ })

/-- The reference of a unit is lost in this very cycle (Table TIM-11). -/
def State.refLostSoon (s : State) (u : Nat) : Bool :=
  s.pending.any (fun c => match c with
    | .refLost k _ => decide (k = u)
    | _ => false)

/-- A re-band that is due runs, or is held while the reference is lost, or is lost in this cycle. -/
def State.rebandStart (s : State) (u : Nat) (t16 : Int) : State :=
  let s := s.wrb (pgCsu u) CSU_STATUS_reband_busy true
  if s.csuB u CSU_STATUS_ref_ok && !s.refLostSoon u then s.rebandRun u t16 else s.setCsu u (fun c => { c with reband := .held })

/-- Steps 3 and 4: lock, and outputs ungated. -/
def State.rebandDone (s : State) (u : Nat) : State :=
  if (s.csu u).reband = .running then
    let ssc := if u = 0 then s.rd (pgCsu 0) CSU_CFG_ssc else 0
    let fw := if u = 0 then s.rd (pgCsu 0) CSU_CFG_fw_ssc else 0
    let s := s.setCsu u (fun c => { c with refType := c.selType, banded := true, ssc := ssc, fwSsc := fw })
    ((s.csuLock u).rebandAnswer u).ev (pgCsu u) csuRebandDone
  else s

/-- Where a re-band may be commanded (Table TIM-3). -/
def State.rebandAllowed (s : State) (u : Nat) (w : Who) : Bool :=
  if u = 0 then decide (s.mode = modeCall ∧ w.master = .sm)
  else
    decide (s.mode = modeCall ∨ s.mode = modeAudit) || (decide (s.mode = modeIntermission) &&
      (if isHb u then decide (s.rd (pgHbm (u - 49)) HBM_STATUS_state = hbmFailed) else decide (s.region (csuRegion u) ≠ rgnActive)))

/-- A write of CSU_CMD.reband. -/
def State.rebandCmd (s : State) (u : Nat) (w : Who) (t16 : Int) : State :=
  let p := rqPage (pgCsu u) w.master
  if s.rebandAllowed u w then
    let s := (s.wr p CSU_CMD_STATUS_code 1).setCsu u (fun c => { c with waiting := c.waiting ++ [p] })
    s.rebandStart u t16
  else s.wr p CSU_CMD_STATUS_code 2

/-- What waits for a unit's re-band goes on. -/
def State.csuProgress (s : State) (u : Nat) : State := if isLg u || isFg u then s.callClocks.updCheck (csuRegion u) else s.callClocks

/-! ### Losing a reference or a lock (R417, R419) -/

/-- A running re-band whose reference goes is held again. -/
def State.rebandHold (s : State) (u : Nat) : State :=
  s.setCsu u (fun c => { c with reband := if c.reband = .running then .held else c.reband })

/-- The shown offset of a reference against AON, in 0.1 ppm. -/
def State.showPpm (s : State) (u : Nat) (ppm : Int) : State := s.wr (pgCsu u) CSU_REF_PPM_ppm (ofSigned 16 (clampInt (-32767) 32767 ppm))

def State.refLost (s : State) (u : Nat) (ppm : Option Int) : State :=
  if s.csuB u CSU_STATUS_ref_ok then
    let s := ((s.wrb (pgCsu u) CSU_STATUS_ref_ok false).count (pgCsu u) CSU_ref_lost_count).ev (pgCsu u) csuRefLost
    let s := s.setCsu u (fun c => { c with dead := ppm.isNone })
    let s := match ppm with
      | some p => s.showPpm u p
      | none => s
    let s := ((s.rebandHold u).gate u)
    if u = 0 then s.coreStop clsClockLoss (srcChip kindCsu 0) else s.report clsClockLoss 2 (srcChip kindCsu u)
  else s

/-- The reference is back; a held re-band runs. -/
def State.refBack (s : State) (u : Nat) (ppm t16 : Int) : State :=
  if s.csuB u CSU_STATUS_ref_ok then s.showPpm u ppm
  else
    let s := (((s.wrb (pgCsu u) CSU_STATUS_ref_ok true).showPpm u ppm).ev (pgCsu u) csuRefBack).setCsu u (fun c => { c with dead := false })
    if (s.csu u).reband = .held then s.rebandRun u t16 else s

/-- Lock is lost (R417); with the reference lost in the same cycle that alone is reported (Table TIM-11). -/
def State.lockLost (s : State) (u : Nat) : State :=
  if s.csuB u CSU_STATUS_locked then
    let s := ((s.count (pgCsu u) CSU_lock_lost_count).ev (pgCsu u) csuLockLost).gate u
    if u = 0 then s.coreStop clsClockLoss (srcChip kindCsu 0)
    else s.when (!s.refLostSoon u) (fun s => s.report clsPllUnlock 2 (srcChip kindCsu u))
  else s

/-- A unit other than the core unit tries to relock in its band. -/
def State.relock (s : State) (u : Nat) (ok : Bool) : State :=
  if u ≠ 0 ∧ ok ∧ (s.csu u).banded ∧ (s.csu u).reband = .none ∧ s.csuB u CSU_STATUS_ref_ok ∧ ¬ s.csuB u CSU_STATUS_locked then s.csuLock u
  else s

/-- The margin of a locked unit, in percent of its band's width (R415). -/
def State.bandEdge (s : State) (u margin : Nat) : State :=
  if s.csuB u CSU_STATUS_locked then
    let s := s.wr (pgCsu u) CSU_STATUS_margin (min 255 margin)
    if margin < s.rd (pgCsu u) CSU_CFG_edge_pct ∧ ¬ s.csuB u CSU_STATUS_band_edge then
      (((s.wrb (pgCsu u) CSU_STATUS_band_edge true).count (pgCsu u) CSU_band_edge_cnt_count).ev (pgCsu u) csuBandEdge).report
        clsPllUnlock 0 (srcChip kindCsu u)
    else s
  else s

/-! ### Meanings -/

def execMarkerLock (m k : Nat) (x : Marker) := run (fun s => (s.markerLock m k x).updCheck (fylRegion m))
def execAdaptationDone (n : Nat) := run (fun s => (s.adaptDone n).updCheck (laneRegion n))
def execFybryAdaptationDone (m : Nat) := run (fun s => (s.fylAdaptDone m).updCheck (fylRegion m))
def execRefLost (u : Nat) (ppm : Option Int) := run (fun s => if u < csuUnits then (s.refLost u ppm).csuProgress u else s)
def execRefBack (u : Nat) (ppm t16 : Int) := run (fun s => if u < csuUnits then (s.refBack u ppm t16).csuProgress u else s)
def execLockLost (u : Nat) := run (fun s => if u < csuUnits then (s.lockLost u).csuProgress u else s)
def execRelock (u : Nat) (ok : Bool) := run (fun s => if u < csuUnits then (s.relock u ok).csuProgress u else s)
def execReband (u : Nat) (w : Who) (t16 : Int) := runBus w (pgCsu u) true (fun s => if u < csuUnits then (s.rebandCmd u w t16).csuProgress u else s)
def execRebandDone (u : Nat) := run (fun s => if u < csuUnits then (s.rebandDone u).csuProgress u else s)
def execBandEdge (u margin : Nat) := run (fun s => if u < csuUnits then s.bandEdge u margin else s)

end Sys2Proof.Machine
end

