-- ==== Sys2Proof/Machine/Modes.lean ====
section
/-! DEFINITION. The commands of the MODE page, the CALL sequence, RESET_N, DARK, the AUDIT tests and the life counters (file 16,
R542 to R565; file 17, R573, R578, R581). -/

namespace Sys2Proof.Machine

open Sys2Proof

/-! ### The reset of everything outside AON (R6, R7, R561, R581) -/

/-- A register key names an AON field, or what the supply monitors and the straps hold. -/
def aonReg (k : Nat) : Bool :=
  decide (k = fkey pgChipId CHIP_ID_STRAP_strap) || decide (k = fkey pgChipId CHIP_ID_VMON_core_valid) ||
  decide (k = fkey pgChipId CHIP_ID_VMON_under) ||
  match pageInfo (k / 8192) with
  | some i => (typeFields i.typ i.inst).any (fun f => f.aon && decide (fkey (k / 8192) f = k))
  | none => false

def aonTab (k : Nat) : Bool :=
  match findTab (tabKeyPage k) (k / 2 ^ 24 % 256) with
  | some t => t.aon
  | none => false

/-- Every domain but AON takes its reset state; fuses stay blown. -/
def State.domainReset (s : State) (d : Dom) : State :=
  { State.reset with
    dom := d, pending := s.pending, out := s.out, reply := s.reply, freeCtr := s.freeCtr, dpCycle := s.dpCycle
    regs := s.regs.filter (fun x => aonReg x.1), regsB := s.regsB.filter (fun x => aonReg x.1), regsC := s.regsC.filter (fun x => aonReg x.1)
    tabs := s.tabs.filter (fun x => aonTab x.1), tabsB := s.tabsB.filter (fun x => aonTab x.1), tabsC := s.tabsC.filter (fun x => aonTab x.1)
    cbbTx := s.cbbTx, cbbRx := s.cbbRx, cbbCur := s.cbbCur, cbbRing := s.cbbRing, cbbNext := s.cbbNext, cbbSeq := s.cbbSeq
    cbbHeard := s.cbbHeard, door := s.door, rbSteps := s.rbSteps, revoked := s.revoked, supplyOff := s.supplyOff, life := s.life
    i2cPtr := s.i2cPtr }

/-- RESET_N has been low for 10 µs (R581). -/
def State.resetAssert (s : State) : State := s.domainReset .reset

/-- RESET_N is released (R548, R573): the straps are sampled and the CALL sequence starts. -/
def State.resetRelease (s : State) (strap : Nat) : State :=
  if s.dom = .reset then
    ({ s with dom := .run, hst := { s.hst with released := s.fab } }).wr pgChipId CHIP_ID_STRAP_strap (strap % 256)
  else s

/-- VDD_AON is valid and the crystal oscillates for the first time (R7, R578). -/
def State.aonUp (s : State) : State :=
  { State.reset with
    dom := .reset, pending := s.pending, freeCtr := s.freeCtr, dpCycle := s.dpCycle, rbSteps := s.rbSteps, revoked := s.revoked }

/-- The device leaves DARK (R400, R562): everything but AON is reset, the straps are sampled, and the CALL sequence runs. -/
def State.darkWake (s : State) (strap : Nat) : State :=
  if s.dom = .dark ∧ s.rdb pgCbb CBB_WAKE_CAUSE_wake_out ∧ s.rdb pgChipId CHIP_ID_VMON_core_valid then
    let s := (s.domainReset .run).wr pgChipId CHIP_ID_STRAP_strap (strap % 256)
    let s := s.setModeFrom modeDark modeCall
    (s.ev pgCbb 7).evWhen (s.rdb pgCbb CBB_WAKE_CAUSE_partner_lost) pgCbb 4
  else s

/-! ### Issuing a command (R542, R543) -/

/-- The master may issue the operation. -/
def State.mayIssue (s : State) (w : Who) (op : Nat) : Bool :=
  let small := decide (opDrain ≤ op ∧ op ≤ opResetClear)
  match w.master with
  | .host => decide (w.box = 0)
  | .sm => true
  | .en0 => small && s.enGranted 0 pgMode true
  | .en1 => small && s.enGranted 1 pgMode true
  | _ => false

def knownOp (op : Nat) : Bool := decide ((1 ≤ op ∧ op ≤ 6) ∨ (8 ≤ op ∧ op ≤ 0xE))

/-- The argument lies in its range (Table MOD-1). -/
def argOk (op arg : Nat) : Bool :=
  if op = opService then decide (arg ≤ 1)
  else if op = opStackRetrain then decide (arg < 6)
  else if opDrain ≤ op then decide (arg < 8)
  else true

/-- The modes an operation is allowed in (Table MOD-1, Table MOD-2). -/
def State.opMode (s : State) (op : Nat) : Bool :=
  let m := s.mode
  if op = opService ∨ op = opAudit then decide (m = modeRehearsal)
  else if op = opRehearse then isServiceMode m || decide (m = modeAudit)
  else if op = opEnterSafe then decide (m ≠ modeDark ∧ m ≠ modeSafe)
  else if op = opExitSafe then decide (m = modeSafe)
  else if op = opEnterDark then
    decide (m = modeCall ∨ m = modeRehearsal ∨ m = modeAudit ∨ m = modeSafe) ||
      (decide (m = modeIntermission) && (List.range 8).all (fun r => decide (s.region r = rgnOffline)))
  else if op = opUpdate then decide (m = modeIntermission ∨ m = modeAudit)
  else isRegionMode m

/-- Why a command is refused before its own preconditions, if it is. -/
def State.modeRefusal (s : State) (w : Who) (op arg : Nat) : Option Nat :=
  if !knownOp op then some mcRange
  else if !s.mayIssue w op then some mcOwner
  else if s.mode = modeCall ∧ w.master ≠ .sm then some mcMode
  else if !argOk op arg then some mcRange
  else if !s.opMode op then some mcMode
  else if s.modeCmd.isSome then some mcBusy
  else none

/-- The length of a host request in words. -/
def reqWords (x : HostReq) : Nat := if x.len = 0 ∨ 1024 < x.len then 1024 else x.len

/-- The byte enables of its word k. -/
def reqBe (x : HostReq) (k : Nat) : Nat :=
  if k = 0 then x.firstBe % 16 else if k + 1 = reqWords x then x.lastBe % 16 else 15

/-- The register that an access at a page offset reaches (R52). -/
def regOff (off : Nat) : Nat := off % 1024 / 4 * 4

/-- A host request writes MODE_CMD, at offset 0x048 of its page, with an op. -/
def hostModeCmd (x : HostReq) : Bool :=
  let k := (0x048 - regOff x.offset) / 4
  hostWrites x pgMode && decide (regOff x.offset ≤ 0x048 ∧ k < reqWords x ∧ reqBe x k = 15) && (match x.op with
    | .write l => decide (getBits (l.getD k 0) 31 28 ≠ 0)
    | _ => false)

/-- Who writes MODE_CMD in a command, if it does. -/
def modeWriter : Instr → Option Who
  | .service w _ | .rehearse w | .audit w | .enterSafe w | .exitSafe w | .enterDark w | .drain w _ | .offline w _ | .resume w _ | .reset w _
  | .resetClear w _ | .update w _ _ | .stackRetrain w _ => some w
  | .registerWrite x =>
    if x.acc.page = pgMode ∧ regOff x.acc.off = 0x048 ∧ x.acc.be % 16 = 15 ∧ getBits x.value 31 28 ≠ 0 then some x.acc.who else none
  | .hostRequest x => if hostModeCmd x then some { master := .host, box := x.fn, proxy := false } else none
  | _ => none

/-- Another master's write of MODE_CMD in this FAB cycle is the one that the device takes (R543): it was taken already, or it waits and its
master has the lower code. -/
def State.modeBeaten (s : State) (w : Who) : Bool :=
  decide (s.hst.modeBy.1 = s.fab ∧ s.hst.modeBy.2 ≠ w.master.code) ||
  s.pending.any (fun c => match modeWriter c with
    | some v => decide (v.master.code < w.master.code ∧ s.admitCode v pgMode true = bsOk)
    | none => false)

/-- A write of MODE_CMD: lost in the cycle of a release of RESET_N (R565), refused, or its operation runs. -/
def State.modeIssue (s : State) (w : Who) (op arg : Nat) (f : State → State) : State :=
  if s.hst.released = s.fab then s
  else if s.modeBeaten w then s.modeFinish w.master op mcBusy
  else
    let s := { s with hst := { s.hst with modeBy := (s.fab, w.master.code) } }
    match s.modeRefusal w op arg with
    | some c => s.modeFinish w.master op c
    | none => f s

/-! ### Chip mode commands (R544 to R546, R557 to R560) -/

/-- The mode changes, with the tests of lanes and links judged anew (R118, R345); the protection engine starts where it stood still, and
groups show who decides them (file 07, R236, R263). -/
def State.enterMode (s : State) (m : Nat) : State :=
  let stood := decide (s.mode = modeSafe ∨ s.mode = modeCall)
  let s := (s.setMode m).applyTests.applyFylTests
  if stood then s.each s.allGroups State.grpBegin else s.showModels

/-- The OWN objects of a region. -/
def regionObjs (r : Nat) : List Nat :=
  (List.range 4096).map (4096 * r + ·) ++ (List.range 4096).map (32768 + 4096 * r + ·) ++ (List.range 2048).map (0x10000 + 2048 * r + ·) ++
  (List.range 1024).map (0x14000 + 1024 * r + ·) ++ (List.range 2048).map (0x16000 + 2048 * r + ·) ++ (List.range 4096).map (ownTxf r ·) ++
  (List.range 8192).map (ownRxf r ·)

/-- The pages of a region. -/
def regionPages (r : Nat) : List Nat := (List.range 4096).map (4096 * (r + 1) + ·) |>.filter (fun pg => inRegion r pg)

/-- The stage manager can give box p + 1 the objects of its two regions (R545). -/
def State.compatOk (s : State) : Bool :=
  s.enCompat 0 && s.enCompat 1 && !s.smHeld &&
  (List.range 8).all (fun r => (regionObjs r).all (fun i => decide (s.ownBox i = r / 2 + 1) || !s.objBusy i))

/-- The stage manager gives the pages and objects of regions 2p and 2p + 1 to box p + 1 (R493, R545). -/
def State.compatGive (s : State) : State :=
  s.each (List.range 8) (fun s r =>
    (s.each (regionPages r) (fun s pg => s.givePage pg (r / 2 + 1))).each (regionObjs r) (fun s i => s.giveObj i (r / 2 + 1)))

/-- The device once the collector has judged the words of this cycle. -/
def State.judged (s : State) : State := s.each s.soonWords State.judgeWord

/-- An L3 action of this cycle will make a region leave ACTIVE. -/
def State.leaveSoon (s : State) : Bool :=
  (List.range 8).any (fun r => decide (s.region r = rgnActive ∧ s.judged.region r ≠ rgnActive))

def State.opService_ (s : State) (w : Who) (arg : Nat) : State :=
  if arg = 1 ∧ ¬ s.compatOk then s.modeFinish w.master opService mcState
  else
    let s := s.when (decide (arg = 1)) State.compatGive
    let m := if arg = 1 then modeCompat else modeNative
    let s := (s.wr pgMode MODE_model arg).wr pgMode MODE_service m
    (s.enterMode (if s.allActive && !s.leaveSoon then m else modeIntermission)).modeFinish w.master opService mcDone

def State.opRehearse_ (s : State) (w : Who) : State :=
  ((s.wr pgMode MODE_service 0).enterMode modeRehearsal).modeFinish w.master opRehearse mcDone

def State.opAudit_ (s : State) (w : Who) : State := (s.enterMode modeAudit).modeFinish w.master opAudit mcDone

def State.opEnterSafe_ (s : State) (w : Who) : State := (s.enterSafe false).modeFinish w.master opEnterSafe mcDone

/-- An active fault state stands at L4. -/
def State.activeL4 (s : State) : Bool :=
  (listed s.tabs pgFlt T_FLT_STATE).any (fun x => efieldb x.2 FLT_STATE.active && decide (efield x.2 FLT_STATE.level = 4))

/-- An L4 action stands, or will in this cycle. -/
def State.l4Soon (s : State) : Bool := s.activeL4 || s.judged.activeL4

/-- EXIT_SAFE (R558, R600); an L4 action of the same cycle keeps the chip in SAFE (R565). -/
def State.opExitSafe_ (s : State) (w : Who) : State :=
  if s.l4Soon then s.modeFinish w.master opExitSafe mcFault
  else if s.callStop ∧ s.rd pgMode MODE_CALL_step < 6 then s.modeFinish w.master opExitSafe mcState
  else
    let s := s.each (List.range 8) (fun s r => s.enterReset r false)
    let s := s.each (List.range 8) (fun s r => s.leaveReset r rgnOffline)
    let s := ((s.startCore 0).startCore 1).wrb pgFlt FLT_STATUS_safe false
    let s := (({ s with callStop := false }).wr pgMode MODE_service 0).enterMode modeRehearsal
    s.showFault.modeFinish w.master opExitSafe mcDone

/-- AON takes the values that the receive path uses in DARK (R560 step 1; file 11, R399). -/
def State.aonCopies (s : State) : SdpAon :=
  { speed := s.sdpSpeed, addr := s.rd pgSdp SDP_MAC_addr, mcEn := s.rdb pgSdp SDP_CFG_mc_en, promisc := s.rdb pgSdp SDP_CFG_promisc }

/-- DARK (R560, R561): AON takes its copies, the host link goes down, the mode is DARK, and all but AON is lost. -/
def State.goDark (s : State) : State :=
  (({ s with door := { s.door with aon := s.aonCopies } }.linkDown.setMode modeDark).domainReset .dark).wr pgMode MODE_current modeDark

def State.opEnterDark_ (s : State) (w : Who) : State :=
  if s.mode ≠ modeCall ∧ ((List.range 8).any (fun r => decide (s.region r = rgnReset)) ∨
      (List.range 6).any (fun k => decide (s.rd (pgHbm k) HBM_STATUS_state = hbmTraining))) then
    s.modeFinish w.master opEnterDark mcState
  else s.goDark

/-! ### Region commands (R551, Table MOD-6) -/

def State.opDrain_ (s : State) (w : Who) (r : Nat) : State :=
  if s.region r = rgnActive then (s.setRegion r rgnDraining 0).modeFinish w.master opDrain mcDone
  else s.modeFinish w.master opDrain mcState

def State.opOffline_ (s : State) (w : Who) (r : Nat) : State :=
  if s.region r = rgnActive ∨ s.region r = rgnDraining then
    ((s.setRegion r rgnOffline 0).sendOffline r).modeFinish w.master opOffline mcDone
  else s.modeFinish w.master opOffline mcState

/-- An active fault state of scope r at L3 or L4. -/
def State.activeL3 (s : State) (r : Nat) : Bool :=
  (listed s.tabs pgFlt T_FLT_STATE).any (fun x => decide (x.1 / 32 = r ∧ 3 ≤ efield x.2 FLT_STATE.level) && efieldb x.2 FLT_STATE.active)

/-- A region returns to ACTIVE; INTERMISSION is kept while another leaves ACTIVE in the same cycle (R565). -/
def State.resumeRegion (s : State) (r : Nat) : State :=
  let s := s.moveRegion r rgnActive 0
  if s.leaveSoon then s else s.tieMode

def State.opResume_ (s : State) (w : Who) (r : Nat) : State :=
  if s.region r = rgnDraining then (s.resumeRegion r).modeFinish w.master opResume mcDone
  else if s.region r = rgnOffline then
    if s.activeL3 r then s.modeFinish w.master opResume mcFault
    else (s.resumeRegion r).modeFinish w.master opResume mcDone
  else s.modeFinish w.master opResume mcState

/-- RESET and RESET_CLEAR: accepted at once, complete when the region leaves RESET. -/
def State.opReset_ (s : State) (w : Who) (r : Nat) (clear : Bool) : State :=
  let op := if clear then opResetClear else opReset
  if s.region r = rgnReset then s.modeFinish w.master op mcState
  else (s.modePend w.master op r).enterReset r clear

/-! ### UPDATE and STACK_RETRAIN (R555, R556) -/

def State.opUpdate_ (s : State) (w : Who) (r : Nat) (temps : List Int) : State :=
  if s.region r ≠ rgnOffline then s.modeFinish w.master opUpdate mcState
  else
    let ms := regionLinks r
    let u : Upd := {
      lanes := ((List.range 32).map (32 * r + ·)).filter (fun n => s.laneRuns n && s.rdb (pgLln n) LLN_STATUS_trained)
      links := ms.filter (fun m => s.linkRuns m && s.linkAligned m), failed := ms.filter s.linkFailed }
    let s := { (s.modePend w.master opUpdate r) with upd := u }
    (s.each ((updUnits r).zip (List.range 6)) (fun s x => s.rebandStart x.1 (temps.getD x.2 0))).updCheck r

def State.opStackRetrain_ (s : State) (w : Who) (k : Nat) : State :=
  if s.rd (pgHbm k) HBM_STATUS_state = hbmFailed then s.modePend w.master opStackRetrain k
  else s.modeFinish w.master opStackRetrain mcState

/-- A stack that trains in CALL ends in SERVICE or FAILED (R549). -/
def State.callStack (s : State) (k : Nat) (ok : Bool) : State :=
  if s.rd (pgHbm k) HBM_STATUS_state = hbmTraining then
    if ok ∧ s.csuB (49 + k) CSU_STATUS_locked then s.wr (pgHbm k) HBM_STATUS_state hbmService else s.stackFail k false
  else s

/-- Training of a stack ends (R549, R556). -/
def State.stackTrained (s : State) (k : Nat) (ok : Bool) : State :=
  if s.mode = modeCall then s.callStack k ok
  else match s.modeCmd with
    | some c =>
      if c.op = opStackRetrain ∧ c.arg = k ∧ s.csuB (49 + k) CSU_STATUS_locked then
        let re := s.rd pgMode MODE_STACKS_retrained
        let tf := s.rd pgMode MODE_STACKS_train_fail
        let s := (s.wr pgMode MODE_STACKS_retrained (if ok then re ||| 2 ^ k else re)).wr pgMode MODE_STACKS_train_fail
          (if ok then tf &&& (63 - 2 ^ k) else tf ||| 2 ^ k)
        s.modeEnd mcDone
      else s
    | none => s

/-- A write of MODE_CMD as the register takes it: op 0 is ignored. -/
def State.writeModeCmd (s : State) (w : Who) (v : Nat) (temps : List Int) : State :=
  let op := getBits v 31 28
  let arg := getBits v 7 0
  if op = 0 then s
  else s.modeIssue w op arg (fun s =>
    if op = opService then s.opService_ w arg
    else if op = opRehearse then s.opRehearse_ w
    else if op = opAudit then s.opAudit_ w
    else if op = opEnterSafe then s.opEnterSafe_ w
    else if op = opExitSafe then s.opExitSafe_ w
    else if op = opEnterDark then s.opEnterDark_ w
    else if op = opDrain then s.opDrain_ w arg
    else if op = opOffline then s.opOffline_ w arg
    else if op = opResume then s.opResume_ w arg
    else if op = opReset then s.opReset_ w arg false
    else if op = opResetClear then s.opReset_ w arg true
    else if op = opUpdate then s.opUpdate_ w arg temps
    else s.opStackRetrain_ w arg)

/-! ### The CALL sequence (R548, R549) -/

/-- Step 5: built-in tests and training (R549), and the measurement of VDD_CORE (R575). -/
def State.callStep5 (s : State) (x : CallTests) : State :=
  if s.mode = modeCall ∧ s.rd pgMode MODE_CALL_step = 4 ∧ ¬ s.callStop then
    let s := s.each ((List.range 8).filter x.regions.contains) (fun s r => s.report clsSramUe 3 (srcRegion r))
    let s := s.each ((List.range 2).filter x.banks.contains) State.bankFailStep
    let s := s.each (List.range 6) (fun s k => s.callStack k (!x.hbmFails.contains k))
    let s := s.wrb pgChipId CHIP_ID_AVS_met x.avsMet
    let s := s.when (!x.avsMet) (fun s => (s.ev pgChipId 2).report clsPower 1 (srcService 15))
    s.wr pgMode MODE_CALL_step 5
  else s

/-- Step 7 (R548, R549): regions leave RESET and the chip enters REHEARSAL. -/
def State.callEnd (s : State) : State :=
  if s.mode = modeCall ∧ s.rd pgMode MODE_CALL_step = 6 ∧ ¬ s.callStop then
    let s := (s.wr pgMode MODE_CALL_step 7).each (List.range 8) (fun s r => s.leaveReset r rgnActive)
    (s.ev pgMode 5).enterMode modeRehearsal
  else s

/-! ### AUDIT tests (R563, Table MOD-8) -/

def auditBusy : Nat := 1
def auditPass : Nat := 2
def auditFail : Nat := 3
def auditRefused : Nat := 4

def State.auditState (s : State) : Nat := s.rd pgMode MODE_AUDIT_STATUS_state

/-- The condition of a test. -/
def State.auditOk (s : State) (test x : Nat) : Bool :=
  if test = 1 ∨ test = 2 then decide (x < 8 ∧ s.region x = rgnOffline)
  else if test = 3 then decide (x < 6 ∧ s.rd (pgHbm x) HBM_STATUS_groups = 0)
  else if test = 4 then decide (x < 2) && !s.bankFailed (1 - x)
  else true

/-- A write of MODE_AUDIT_CTRL. -/
def State.auditStart (s : State) (test x : Nat) : State :=
  if test = 0 ∨ 7 ≤ test ∨ s.auditState = auditBusy then s
  else
    let s := (s.wr pgMode MODE_AUDIT_STATUS_test test).wr pgMode MODE_AUDIT_STATUS_target (x % 256)
    s.wr pgMode MODE_AUDIT_STATUS_state (if s.mode = modeAudit ∧ s.auditOk test (x % 256) then auditBusy else auditRefused)

/-- The copies of the ghost light and of the AON fields differ. -/
def State.aonDiffer (s : State) : Bool :=
  let reg (m : SMap Nat) : SMap Nat := m.filter (fun x => aonReg x.1)
  let tab (m : SMap Nat) : SMap Nat := m.filter (fun x => tabKeyPage x.1 = pgLog ∧ x.1 / 2 ^ 24 % 256 = T_LOG_GHOST.code)
  let voted (m : SMap Nat) : SMap Nat := (reg m).filter (fun x => keyPage x.1 = pgLog)
  decide (voted s.regs ≠ voted s.regsB ∨ voted s.regs ≠ voted s.regsC ∨ tab s.tabs ≠ tab s.tabsB ∨ tab s.tabs ≠ tab s.tabsC)

/-- What a test destroys. -/
def State.auditDestroy (s : State) (test x : Nat) : State :=
  if test = 1 then s.enterReset x true
  else if test = 2 then s.ohqRegionReset x
  else if test = 3 then { s with mem := s.mem.filter (fun c => !decide (c.1 < 0x2000000000 ∧ hbmStack c.1 = x)) }
  else if test = 4 then s.each ((List.range 32768).map (32768 * x + ·)) (fun s e => s.setEntry pgLog T_LOG_ENTRY e 0)
  else s

/-- What a failing test brings. -/
def State.auditFailed (s : State) (test x : Nat) : State :=
  if test = 1 ∨ test = 2 then s.report clsSramUe 0 (srcRegion x)
  else if test = 3 then s.stackFail x false
  else if test = 4 then s.bankFailStep x
  else if test = 5 then s.report clsFuse 0 (srcService 13)
  else s.report clsVote 0 (srcService 12)

/-- A running test completes. -/
def State.auditEnd (s : State) (fail : Option Nat) : State :=
  if s.auditState = auditBusy then
    let test := s.rd pgMode MODE_AUDIT_STATUS_test
    let x := s.rd pgMode MODE_AUDIT_STATUS_target
    let bad := fail.isSome || (decide (test = 6) && s.aonDiffer)
    let (a, s) := match fail with
      | some a => (a, s)
      | none => if bad then s.free 64 else (0, s)
    let s := (s.auditDestroy test x).wr pgMode MODE_AUDIT_STATUS_state (if bad then auditFail else auditPass)
    let s := if bad then (s.wr pgMode MODE_AUDIT_ADDR_addr a).auditFailed test x else s
    s.ev pgMode 4
  else s

/-! ### Life counters (R564) -/

/-- The greatest n below 2^16 with n^160 ≤ m. -/
def root160 (m : Nat) : Nat := (List.range 16).foldl (fun n i => if (n + 2 ^ (15 - i)) ^ 160 ≤ m then n + 2 ^ (15 - i) else n) 0

/-- ⌊256 × 2^((T − 90)/10)⌋ for T in 1/16 °C. -/
def stressFloor (t16 : Int) : Nat := if t16 < 160 then 0 else root160 (2 ^ (t16 - 160).toNat)

/-- The second's increment; how its fraction is rounded is not stated. -/
def State.stressInc (s : State) (t16 : Int) : Nat × State :=
  if stressFloor t16 ^ 160 = 2 ^ (t16 - 160).toNat then (stressFloor t16, s)
  else
    let (u, s) := s.free 1
    (stressFloor t16 + u, s)

/-- What the second's highest reading, in 1/16 °C, adds. -/
def State.lifeHeat (s : State) (t16 : Int) : State :=
  let (inc, s) := s.stressInc t16
  let f := s.life.frac + inc
  let s := ({ s with life := { s.life with frac := f % 256 } }).countSat pgMode MODE_LIFE_STRESS (f / 256)
  let s := s.when (decide (1680 ≤ t16)) (fun s => s.countSat pgMode MODE_LIFE_HOT)
  let (t, s) := s.divFree t16 16
  s.wr pgMode MODE_LIFE_TMAX (ofSigned 8 (max (toSigned 8 (s.rd pgMode MODE_LIFE_TMAX)) (clampInt (-128) 127 t)))

/-- The highest reading of the second that ends: that of the samples taken, and while the core domains stand still, when no sample is a
command, the one told. -/
def State.lifeTop (s : State) (t16 : Option Int) : Option Int :=
  if s.dom = .run then s.life.top
  else match s.life.top, t16 with
    | some a, some b => some (max a b)
    | some a, none => some a
    | none, x => x

/-- One second of the life counters. A second without a reading adds no heat. -/
def State.lifeTick (s : State) (t16 : Option Int) : State :=
  if s.dom = .dark then s
  else
    let top := s.lifeTop t16
    let s := ({ s with life := { s.life with top := none } }).when (s.rdb pgChipId CHIP_ID_VMON_core_valid)
      (fun s => s.countSat pgMode MODE_LIFE_POWERED)
    match top with
    | some t16 => s.lifeHeat t16
    | none => s

/-! ### Meanings -/

def execResetNRelease (strap : Nat) := runAon (fun s => s.resetRelease strap)
def execResetNAssert := runAon State.resetAssert
def execAonPowerUp := runAon State.aonUp
def execDarkWake (strap : Nat) := runAon (fun s => s.darkWake strap)
def execCallDone := run State.callEnd
def execService (w : Who) (arg : Nat) := runBus w pgMode true (fun s => s.modeIssue w opService arg (fun s => s.opService_ w arg))
def execRehearse (w : Who) := runBus w pgMode true (fun s => s.modeIssue w opRehearse 0 (fun s => s.opRehearse_ w))
def execAudit (w : Who) := runBus w pgMode true (fun s => s.modeIssue w opAudit 0 (fun s => s.opAudit_ w))
def execEnterSafe (w : Who) := runBus w pgMode true (fun s => s.modeIssue w opEnterSafe 0 (fun s => s.opEnterSafe_ w))
def execExitSafe (w : Who) := runBus w pgMode true (fun s => s.modeIssue w opExitSafe 0 (fun s => s.opExitSafe_ w))
def execEnterDark (w : Who) := runBus w pgMode true (fun s => s.modeIssue w opEnterDark 0 (fun s => s.opEnterDark_ w))
def execDrain (w : Who) (r : Nat) := runBus w pgMode true (fun s => s.modeIssue w opDrain r (fun s => s.opDrain_ w r))
def execOffline (w : Who) (r : Nat) := runBus w pgMode true (fun s => s.modeIssue w opOffline r (fun s => s.opOffline_ w r))
def execResume (w : Who) (r : Nat) := runBus w pgMode true (fun s => s.modeIssue w opResume r (fun s => s.opResume_ w r))
def execReset (w : Who) (r : Nat) := runBus w pgMode true (fun s => s.modeIssue w opReset r (fun s => s.opReset_ w r false))
def execResetClear (w : Who) (r : Nat) := runBus w pgMode true (fun s => s.modeIssue w opResetClear r (fun s => s.opReset_ w r true))
def execUpdate (w : Who) (r : Nat) (temps : List Int) := runBus w pgMode true (fun s => s.modeIssue w opUpdate r (fun s => s.opUpdate_ w r temps))
def execStackRetrain (w : Who) (k : Nat) := runBus w pgMode true (fun s => s.modeIssue w opStackRetrain k (fun s => s.opStackRetrain_ w k))
def execStackTrainingDone (k : Nat) (ok : Bool) := run (fun s => if k < 6 then s.stackTrained k ok else s)
def execRegionSram (target : Nat) := run (fun s => s.auditStart 1 target)
def execQueueMem (target : Nat) := run (fun s => s.auditStart 2 target)
def execHbmAlign (target : Nat) := run (fun s => s.auditStart 3 target)
def execLogBank (target : Nat) := run (fun s => s.auditStart 4 target)
def execFuse (target : Nat) := run (fun s => s.auditStart 5 target)
def execAonVote (target : Nat) := run (fun s => s.auditStart 6 target)
def execAuditDone (fail : Option Nat) := run (fun s => s.auditEnd fail)
def execLifeCounterTick (t16 : Option Int) := runAon (fun s => s.lifeTick t16)

end Sys2Proof.Machine
end

