-- ==== Sys2Proof/Machine/Pkg.lean ====
section
/-! DEFINITION. Supply monitors, thermal sensors, the I2C sideband and the JTAG port (file 17, R575 to R590; file 14, R485). -/

namespace Sys2Proof.Machine

open Sys2Proof

/-! ### Supplies (R580, Table PKG-9) -/

/-- The monitors' readings. -/
def State.rails (s : State) (v : Rails) : State :=
  ({ s with supplyOff := s.supplyOff &&& (1023 - v.rearmed % 1024) }).wr pgChipId CHIP_ID_VMON_under (v.under % 1024)

/-- A POWER report of the supply monitors; nothing collects it while the core domains do not run. -/
def State.power (s : State) (level : Nat) : State :=
  if s.dom = .run then (s.ev pgChipId 1).report clsPower level (srcService 15) else s

def railLevel (rail : Nat) : Nat := if rail ≤ 1 then 4 else if rail ≤ 6 then 2 else 1

/-- What else an undervoltage brings. -/
def State.railEffect (s : State) (rail : Nat) : State :=
  if rail ≤ 1 then s.wrb pgChipId CHIP_ID_VMON_core_valid false
  else if s.dom ≠ .run then s
  else if rail = 2 then s.each (List.range 256) State.lineLos
  else if rail = 3 then s.each (List.range 96) State.failLink
  else if rail = 4 then s.linkDown
  else if rail = 5 then s.each (List.range 6) (fun s k => s.stackFail k false)
  else s

/-- A rail has been below its threshold for 2 µs. -/
def State.undervoltage (s : State) (rail : Nat) (v : Rails) : State :=
  let s := s.rails { v with under := v.under ||| 2 ^ rail }
  let armed := !bit s.supplyOff rail
  let s := s.when armed (fun s => ({ s with supplyOff := s.supplyOff ||| 2 ^ rail }).power (railLevel rail))
  s.railEffect rail

/-- The rails of the core group: bits 0 to 5. -/
def coreRails : Nat := 63

/-- Every core rail has been valid for 10 ms (R578, R580). -/
def State.coreValid (s : State) (v : Rails) : State :=
  (s.rails { v with under := v.under &&& (1023 - coreRails) }).wrb pgChipId CHIP_ID_VMON_core_valid true

/-! ### Temperature (R588 to R590) -/

/-- The thresholds of a sensor in °C, with their levels: warn, crit, safe. -/
def State.thermLimits (s : State) (i : Nat) : List (Nat × Nat) :=
  if i < 16 then [(s.rd pgChipId CHIP_ID_THERM_DIE_warn, 1), (s.rd pgChipId CHIP_ID_THERM_DIE_crit, 3), (s.rd pgChipId CHIP_ID_THERM_DIE_safe, 4)]
  else [(s.rd pgChipId CHIP_ID_THERM_HBM_warn, 1), (s.rd pgChipId CHIP_ID_THERM_HBM_crit, 3), (s.rd pgChipId CHIP_ID_THERM_HBM_safe, 4)]

/-- The source of a sensor's report. -/
def srcSensor (i : Nat) : Nat := if i < 16 then source 2 (i / 2) 0 kindSensor i else srcChip kindSensor i

/-- The sum of 2^k over the thresholds that a sample meets. -/
def thermMask (l : List (Nat × Nat)) (p : Nat → Bool) : Nat :=
  (List.range 3).foldl (fun a k => if p (l.getD k (0, 0)).1 then a + 2 ^ k else a) 0

/-- A write of a threshold register with warn < crit < safe ≤ 124 not holding has no effect. -/
def thermOk (warn crit safe : Nat) : Bool := decide (warn < crit ∧ crit < safe ∧ safe ≤ 124)

/-- A die sensor's second sample in a row at or above 125 °C trips the core unit. -/
def State.thermTrip (s : State) (i : Nat) (t16 : Int) : State :=
  if 16 ≤ i then s
  else if 2000 ≤ t16 then
    if s.thermHot.contains i then s.coreStop clsThermal (srcSensor i) else { s with thermHot := i :: s.thermHot }
  else { s with thermHot := s.thermHot.filter (fun x => decide (x ≠ i)) }

/-- One sample of a sensor, in 1/16 °C. -/
def State.thermal (s : State) (i : Nat) (t16 : Int) : State :=
  let s := (s.wrb pgChipId (CHIP_ID_TEMP_valid i) true).wr pgChipId (CHIP_ID_TEMP_temp i) (ofSigned 16 t16)
  let s := { s with life := { s.life with top := some (match s.life.top with
    | some x => max x t16
    | none => t16) } }
  let l := s.thermLimits i
  let off := s.thermOff.get 0 i
  let hit := thermMask l (fun x => decide ((16 * x : Int) ≤ t16)) &&& (7 - off)
  let back := thermMask l (fun x => decide (t16 ≤ 16 * (x : Int) - 80))
  let s := { s with thermOff := s.thermOff.set 0 i ((off ||| hit) &&& (7 - back)) }
  let s := if hit = 0 then s else (s.ev pgChipId 0).report clsThermal (if 4 ≤ hit then 4 else if 2 ≤ hit then 3 else 1) (srcSensor i)
  s.thermTrip i t16

/-! ### The I2C sideband (R586) -/

/-- A reading in 1/16 °C as a signed byte; how it is rounded is not stated. -/
def State.celsius (s : State) (t16 : Int) : Nat × State :=
  let (t, s) := s.divFree t16 16
  (ofSigned 8 t, s)

def State.tempOf (s : State) (i : Nat) : Int := toSigned 16 (s.rd pgChipId (CHIP_ID_TEMP_temp i))

/-- The valid sensors' readings. -/
def State.temps (s : State) : List Int := ((List.range 22).filter (fun i => s.rdb pgChipId (CHIP_ID_TEMP_valid i))).map s.tempOf

/-- A byte of the map (Table PKG-12). -/
def State.i2cByte (s : State) (p : Nat) : Nat × State :=
  if p = 0 then (0x10, s)
  else if p = 1 then (0x24, s)
  else if p = 2 then (s.rd pgChipId CHIP_ID_REV_letter, s)
  else if p = 3 then (s.mode, s)
  else if p = 4 then (min 30 Config.fuseAvs, s)
  else if p = 5 then
    (b2n s.faultN + 2 * b2n (s.rdb pgChipId CHIP_ID_VMON_core_valid) + 4 * b2n (s.rdb pgChipId CHIP_ID_AVS_ready)
      + 8 * b2n (s.rdb pgChipId CHIP_ID_AVS_met), s)
  else if s.dom ≠ .run then (0x80, s)
  else if p = 6 then
    match s.temps with
    | t :: l => s.celsius (l.foldl max t)
    | [] => (0x80, s)
  else if 0x10 ≤ p ∧ p < 0x26 ∧ s.rdb pgChipId (CHIP_ID_TEMP_valid (p - 0x10)) then s.celsius (s.tempOf (p - 0x10))
  else (0x80, s)

/-- Bytes from the pointer onward. -/
def State.i2cRead (s : State) : Nat → List Nat × State
  | 0 => ([], s)
  | n + 1 =>
    let (b, s) := s.i2cByte s.i2cPtr
    let (l, s) := State.i2cRead { s with i2cPtr := (s.i2cPtr + 1) % 256 } n
    (b :: l, s)

/-- An I2C transfer to a target address: a write of the pointer, then reads. -/
def State.i2c (s : State) (addr : Nat) (ptr : Option Nat) (n : Nat) : State :=
  if addr = 0x40 + getBits (s.rd pgChipId CHIP_ID_STRAP_strap) 4 2 then
    let s := match ptr with
      | some p => { s with i2cPtr := p % 256 }
      | none => s
    let (l, s) := s.i2cRead n
    s.answer 0 l
  else s

/-! ### JTAG (R485, R587) -/

/-- IDCODE of a B0 device. -/
def jtagIdcode : Nat := 0xB102447B

/-- The boundary-scan instructions act on the pins alone; a locked private instruction is BYPASS. -/
def State.jtag (s : State) (x : JtagInstr) : State :=
  match x with
  | .idcode => s.answer 0 [jtagIdcode]
  | _ => s

/-! ### Meanings -/

def execSupplyUndervoltage (rail : Nat) (v : Rails) := runAon (fun s => if rail < 10 then s.undervoltage rail v else s)
def execSupplyOvervoltage (rail : Nat) (v : Rails) := runAon (fun s => if rail < 10 then (s.rails v).power 2 else s)
def execCoreValidReturn (v : Rails) := runAon (fun s => s.coreValid v)
def execThermalSample (i : Nat) (t16 : Int) (v : Rails) := run (fun s => if i < 22 then (s.rails v).thermal i t16 else s)
def execI2cAccess (addr : Nat) (ptr : Option Nat) (n : Nat) := runAon (fun s => s.i2c addr ptr n)

/-- JTAG_INSTRUCTION: a private instruction after an unlock with right [0] acts on the debug unit, whose instructions the spec
does not give. -/
def execJtagInstruction (x : JtagInstr) (s : State) : Host.Outcome State Fault Refusal :=
  if x = .priv ∧ bit s.rights 0 then .fault .jtagPrivate else runAon (fun s => s.jtag x) s

end Sys2Proof.Machine
end

