-- ==== Sys2Proof/Machine/Sha.lean ====
section
/-! DEFINITION. SHA-384 and ECDSA over P-384 as the published standards that file 14, R503, names fix them (FIPS 180-4, FIPS
186-5). PRESUMED: the constants and steps are the standards', which the spec cites and does not repeat. -/

namespace Sys2Proof.Machine

open Sys2Proof

/-! ### SHA-384 -/

/-- Round constants. -/
def shaK : List Nat :=
  [0x428A2F98D728AE22, 0x7137449123EF65CD, 0xB5C0FBCFEC4D3B2F, 0xE9B5DBA58189DBBC] ++
  [0x3956C25BF348B538, 0x59F111F1B605D019, 0x923F82A4AF194F9B, 0xAB1C5ED5DA6D8118] ++
  [0xD807AA98A3030242, 0x12835B0145706FBE, 0x243185BE4EE4B28C, 0x550C7DC3D5FFB4E2] ++
  [0x72BE5D74F27B896F, 0x80DEB1FE3B1696B1, 0x9BDC06A725C71235, 0xC19BF174CF692694] ++
  [0xE49B69C19EF14AD2, 0xEFBE4786384F25E3, 0x0FC19DC68B8CD5B5, 0x240CA1CC77AC9C65] ++
  [0x2DE92C6F592B0275, 0x4A7484AA6EA6E483, 0x5CB0A9DCBD41FBD4, 0x76F988DA831153B5] ++
  [0x983E5152EE66DFAB, 0xA831C66D2DB43210, 0xB00327C898FB213F, 0xBF597FC7BEEF0EE4] ++
  [0xC6E00BF33DA88FC2, 0xD5A79147930AA725, 0x06CA6351E003826F, 0x142929670A0E6E70] ++
  [0x27B70A8546D22FFC, 0x2E1B21385C26C926, 0x4D2C6DFC5AC42AED, 0x53380D139D95B3DF] ++
  [0x650A73548BAF63DE, 0x766A0ABB3C77B2A8, 0x81C2C92E47EDAEE6, 0x92722C851482353B] ++
  [0xA2BFE8A14CF10364, 0xA81A664BBC423001, 0xC24B8B70D0F89791, 0xC76C51A30654BE30] ++
  [0xD192E819D6EF5218, 0xD69906245565A910, 0xF40E35855771202A, 0x106AA07032BBD1B8] ++
  [0x19A4C116B8D2D0C8, 0x1E376C085141AB53, 0x2748774CDF8EEB99, 0x34B0BCB5E19B48A8] ++
  [0x391C0CB3C5C95A63, 0x4ED8AA4AE3418ACB, 0x5B9CCA4F7763E373, 0x682E6FF3D6B2B8A3] ++
  [0x748F82EE5DEFB2FC, 0x78A5636F43172F60, 0x84C87814A1F0AB72, 0x8CC702081A6439EC] ++
  [0x90BEFFFA23631E28, 0xA4506CEBDE82BDE9, 0xBEF9A3F7B2C67915, 0xC67178F2E372532B] ++
  [0xCA273ECEEA26619C, 0xD186B8C721C0C207, 0xEADA7DD6CDE0EB1E, 0xF57D4F7FEE6ED178] ++
  [0x06F067AA72176FBA, 0x0A637DC5A2C898A6, 0x113F9804BEF90DAE, 0x1B710B35131C471B] ++
  [0x28DB77F523047D84, 0x32CAAB7B40C72493, 0x3C9EBE0A15C9BEBC, 0x431D67C49C100D4C] ++
  [0x4CC5D4BECB3E42B6, 0x597F299CFC657E2A, 0x5FCB6FAB3AD6FAEC, 0x6C44198C4A475817]

/-- The initial hash value. -/
def shaIv : List Nat :=
  [0xCBBB9D5DC1059ED8, 0x629A292A367CD507, 0x9159015A3070DD17, 0x152FECD8F70E5939] ++
  [0x67332667FFC00B31, 0x8EB44A8768581511, 0xDB0C2E0D64F98FA7, 0x47B5481DBEFA4FA4]

def add64 (a b : Nat) : Nat := (a + b) % 2 ^ 64
def rotr64 (x n : Nat) : Nat := x / 2 ^ n ||| x * 2 ^ (64 - n) % 2 ^ 64

/-- Bytes, most significant first, as a number, and back. -/
def beNat (l : List Nat) : Nat := l.foldl (fun a b => a * 256 + b % 256) 0
def beBytes (n v : Nat) : List Nat := (List.range n).map (fun i => v / 256 ^ (n - 1 - i) % 256)

/-- Message padding. -/
def shaPad (m : List Nat) : List Nat :=
  m ++ [0x80] ++ List.replicate ((111 + 128 - m.length % 128) % 128) 0 ++ beBytes 16 (8 * m.length)

/-- The message schedule, newest word first. -/
def shaSchedule (w : List Nat) : Nat → List Nat
  | 0 => w
  | n + 1 =>
    let a := w.getD 1 0
    let b := w.getD 14 0
    let s1 := Nat.xor (Nat.xor (rotr64 a 19) (rotr64 a 61)) (a / 2 ^ 6)
    let s0 := Nat.xor (Nat.xor (rotr64 b 1) (rotr64 b 8)) (b / 2 ^ 7)
    shaSchedule ((w.getD 15 0 + s0 + w.getD 6 0 + s1) % 2 ^ 64 :: w) n

/-- One round on the working variables a to h. -/
def shaRound (v : List Nat) (x : Nat × Nat) : List Nat :=
  match v with
  | [a, b, c, d, e, f, g, h] =>
    let s1 := Nat.xor (Nat.xor (rotr64 e 14) (rotr64 e 18)) (rotr64 e 41)
    let ch := Nat.xor (e &&& f) ((2 ^ 64 - 1 - e) &&& g)
    let t1 := h + s1 + ch + x.1 + x.2
    let s0 := Nat.xor (Nat.xor (rotr64 a 28) (rotr64 a 34)) (rotr64 a 39)
    let maj := Nat.xor (Nat.xor (a &&& b) (a &&& c)) (b &&& c)
    [(t1 + s0 + maj) % 2 ^ 64, a, b, c, add64 d t1, e, f, g]
  | _ => v

/-- One block of 128 bytes. -/
def shaBlock (h : List Nat) (block : List Nat) : List Nat :=
  let w0 := (List.range 16).map (fun i => beNat ((block.drop (8 * i)).take 8))
  let w := (shaSchedule w0.reverse 64).reverse
  (h.zip ((shaK.zip w).foldl shaRound h)).map (fun x => add64 x.1 x.2)

def shaBlocks (h : List Nat) (m : List Nat) : Nat → List Nat
  | 0 => h
  | n + 1 => shaBlocks (shaBlock h (m.take 128)) (m.drop 128) n

/-- SHA-384 of a byte string, as 48 bytes. -/
def sha384 (m : List Nat) : List Nat :=
  let p := shaPad m
  ((shaBlocks shaIv p (p.length / 128)).take 6).flatMap (beBytes 8)

/-! ### P-384 -/

def ecP : Nat := 2 ^ 384 - 2 ^ 128 - 2 ^ 96 + 2 ^ 32 - 1
def ecN : Nat := 0xffffffffffffffffffffffffffffffffffffffffffffffffc7634d81f4372ddf581a0db248b0a77aecec196accc52973
def ecB : Nat := 0xb3312fa7e23ee7e4988e056be3f82d19181d9c6efe8141120314088f5013875ac656398d8a2ed19d2a85c8edd3ec2aef
def ecG : Nat × Nat :=
  (0xaa87ca22be8b05378eb1c71ef320ad746e1d3b628ba79b9859f741e082542a385502f25dbf55296c3a545e3872760ab7,
   0x3617de4a96262c6f5d9e98bf9292dc29f8f41dbd289a147ce9da3113b5f0b8c00a60b1ce1d7e819d7a431d7c90ea0e5f)

def modPow (b e m : Nat) : Nat :=
  (List.range 384).foldl (fun a i => if e.testBit (383 - i) then a * a % m * b % m else a * a % m) 1
def modInv (a m : Nat) : Nat := modPow (a % m) (m - 2) m
def modSub (a b m : Nat) : Nat := (a % m + m - b % m) % m

/-- A point; none is the point at infinity. -/
abbrev EcPoint := Option (Nat × Nat)

/-- The sum through the chord or tangent of slope l. -/
def ecChord (l x1 y1 x2 : Nat) : EcPoint :=
  let x := modSub (l * l) (x1 + x2) ecP
  some (x, modSub (l * modSub x1 x ecP) y1 ecP)

def ecAdd (a b : EcPoint) : EcPoint :=
  match a, b with
  | none, q => q
  | p, none => p
  | some (x1, y1), some (x2, y2) =>
    if x1 = x2 then
      if (y1 + y2) % ecP = 0 then none
      else ecChord (modSub (3 * x1 * x1) 3 ecP * modInv (2 * y1) ecP % ecP) x1 y1 x2
    else ecChord (modSub y2 y1 ecP * modInv (modSub x2 x1 ecP) ecP % ecP) x1 y1 x2

def ecMul (k : Nat) (q : EcPoint) : EcPoint :=
  (List.range 384).foldl (fun a i => if k.testBit (383 - i) then ecAdd (ecAdd a a) q else ecAdd a a) none

/-- The point lies on the curve. -/
def ecOn (q : Nat × Nat) : Bool :=
  decide (q.1 < ecP ∧ q.2 < ecP ∧ q.2 * q.2 % ecP = (q.1 * q.1 * q.1 + modSub ecB (3 * q.1) ecP) % ecP)

/-- The signature (r, s) over a message verifies under a public key. -/
def ecdsaVerify (key : Nat × Nat) (m : List Nat) (r s : Nat) : Bool :=
  let w := modInv s ecN
  ecOn key && decide (0 < r ∧ r < ecN ∧ 0 < s ∧ s < ecN) &&
    match ecAdd (ecMul (beNat (sha384 m) * w % ecN) (some ecG)) (ecMul (r * w % ecN) (some key)) with
    | some q => decide (q.1 % ecN = r)
    | none => false

/-- The signature over a message by private key d with the per-message secret k, as 96 bytes. -/
def ecdsaSign (d k : Nat) (m : List Nat) : List Nat :=
  let r := match ecMul k (some ecG) with
    | some q => q.1 % ecN
    | none => 0
  beBytes 48 r ++ beBytes 48 (modInv k ecN * (beNat (sha384 m) + r * d) % ecN)

end Sys2Proof.Machine
end

