-- ==== Sys2Proof/Machine/Words.lean ====
section
/-! DEFINITION. Registers as 32-bit words and table rows as 128-bit words, as they read without side effects (file 02, R52 to R69,
R75). -/

namespace Sys2Proof.Machine

open Sys2Proof

/-! ### Header words (Table REG-5) -/

/-- PAGE_ID. -/
def pageIdWord (i : PageInfo) : Nat :=
  i.typ.code * 2 ^ 24 + (i.block.getD 0xFF) * 2 ^ 16 + (i.region.getD 0xFF) * 2 ^ 8 + 1

/-- The page holds RV fields beyond the header. -/
def pageVoted (i : PageInfo) : Bool :=
  (typeFields i.typ i.inst).any (fun f => decide (f.acc = .rv)) || (typeTabs i.typ i.inst).any (fun t => t.voted)

/-- PAGE_CAPS. -/
def pageCapsWord (i : PageInfo) : Nat :=
  let ts := typeTabs i.typ i.inst
  ts.length * 2 ^ 24 + b2n (pageVoted i) * 2 ^ 18 + b2n (ts.any (fun t => t.staged)) * 2 ^ 17 + b2n (!ts.isEmpty) * 2 ^ 16 + i.inst

def State.errWord (s : State) (pg : Nat) : Nat := bitsOf (s.events.get {} pg).errs

/-- The anti-rollback counter (file 14, R477). -/
def State.rollback (s : State) : Nat := min 64 (Config.fuseRollback + s.rbSteps)

/-! ### Field and word values -/

/-- What a register shows beyond its stored fields: fuses, and what is computed from other state. -/
def State.shownWord (s : State) (i : PageInfo) (off : Nat) : Nat :=
  match i.typ with
  | .chipId =>
    if off = 0x048 then Config.fuseSerial % 2 ^ 32
    else if off = 0x04C then Config.fuseSerial / 2 ^ 32 % 2 ^ 32
    else if off = 0x0B4 then min 30 Config.fuseAvs
    else if 0x080 ≤ off ∧ off < 0x0A8 then s.evtSum ((off - 0x080) / 4)
    else 0
  | .box =>
    if off = 0x064 then i.inst
    else if 0x068 ≤ off ∧ off < 0x090 then s.boxEvtSum i.inst ((off - 0x068) / 4)
    else 0
  | .fwm => if i.inst = 0 ∧ off = 0x054 then s.rollback else 0
  | _ => 0

/-- Write-only fields read 0 (R10). -/
def readable (f : Field) : Bool := !decide (f.acc = .wo ∨ f.acc = .w1p ∨ f.acc = .ws)

/-- The part of a field in the register at an offset. -/
def fieldPart (f : Field) (v off : Nat) : Nat :=
  if f.off = off then v * 2 ^ f.lo % 2 ^ 32 else if f.off + 4 = off ∧ 32 ≤ f.hi then v * 2 ^ f.lo / 2 ^ 32 else 0

/-- The stored fields of a register; `rq` holds the master's own state. -/
def State.storedWord (s : State) (rq pg off : Nat) : Nat :=
  (pageFields pg).foldl (fun a f => a + if readable f then fieldPart f (s.rd (if f.perMaster then rq else pg) f) off else 0) 0

/-- A register's value. -/
def State.word (s : State) (rq pg off : Nat) : Nat :=
  match pageInfo pg with
  | none => 0
  | some i =>
    if off = 0x000 then pageIdWord i
    else if off = 0x004 then pageCapsWord i
    else if off = 0x00C then s.pageOwner pg
    else if off = 0x010 then s.evtStatus pg
    else if off = 0x014 then s.rd rq EVT_SEQ_seq
    else if off = 0x024 then s.errWord pg
    else if 0x028 ≤ off ∧ off < 0x040 then
      if off = 0x028 then s.rd rq IND_ADDR_table * 2 ^ 24 + s.rd rq IND_ADDR_index
      else if off = 0x02C then s.rd rq IND_CTRL_view * 512 + s.rd rq IND_CTRL_auto_inc * 256 + s.rd rq IND_CTRL_stride
      else s.rd rq (IND_DATA_data ((off - 0x030) / 4))
    else (s.storedWord rq pg off + s.shownWord i off) % 2 ^ 32

/-- A register that no master's own state enters. -/
def State.plain (s : State) (pg off : Nat) : Nat := s.word pg pg off

/-! ### Table rows -/

def Tab.size (t : Tab) : Nat := t.rows * t.entries

/-- Row `row` of an entry value. -/
def rowOf (t : Tab) (v row : Nat) : Nat := v / 2 ^ (128 * (row % t.rows)) % 2 ^ 128

def State.committedRow (s : State) (pg : Nat) (t : Tab) (row : Nat) : Nat := rowOf t (s.entry pg t (row / t.rows)) row
def State.stagedRow (s : State) (pg : Nat) (t : Tab) (row : Nat) : Nat := rowOf t (s.stagedEntry pg t (row / t.rows)) row

/-- An entry with one row replaced. -/
def putRow (t : Tab) (v row x : Nat) : Nat :=
  let k := 2 ^ (128 * (row % t.rows))
  v - v / k % 2 ^ 128 * k + x % 2 ^ 128 * k

/-- The location word of a page (R75). -/
def placeWord (pg : Nat) : Nat :=
  match pageInfo pg with
  | some i => i.typ.code * 2 ^ 24 + i.region.getD 0xFF * 2 ^ 16 + i.block.getD 0xFF * 2 ^ 8 + i.inst % 256
  | none => 0

/-- A row as the six words of R75. -/
def rowWords (pg : Nat) (t : Tab) (row v : Nat) : List Nat :=
  [placeWord pg, t.code * 2 ^ 24 + row] ++ (List.range 4).map (fun k => v / 2 ^ (32 * k) % 2 ^ 32)

/-! ### Bytes -/

/-- A number as n bytes, least significant first. -/
def le (n v : Nat) : List Nat := (List.range n).map (fun i => v / 256 ^ i % 256)
def leNat (l : List Nat) : Nat := l.foldr (fun b a => b % 256 + 256 * a) 0

/-- FCS-32 of Table OHQ-4 over bytes. -/
def fcs32 (bytes : List Nat) : Nat := reflect 32 (crcBits 32 0x04C11DB7 0xFFFFFFFF (bytes.flatMap (bitsLsb 8))) ^^^ 0xFFFFFFFF

end Sys2Proof.Machine
end

