-- ==== Sys2Proof/Machine/Plb.lean ====
section
/-! DEFINITION. The playbill and the configuration digests (file 15, R532 to R536). -/

namespace Sys2Proof.Machine

open Sys2Proof

/-! ### Pages in the order of R534 -/

def chipPages : List Nat := (List.range 0x1000).filter (fun p => (pageInfo p).isSome)
def blockPages (r b : Nat) : List Nat := (List.range 33).map (0x1000 * (r + 1) + 0x100 * b + ·)
def commonPages (r : Nat) : List Nat := (List.range 19).map (0x1000 * (r + 1) + 0x800 + ·)
def allPages : List Nat :=
  chipPages ++ (List.range 512).map pgFwm ++ (pgWng :: (List.range 6).map pgHbm) ++
    (List.range 8).flatMap (fun r => (List.range 8).flatMap (blockPages r) ++ commonPages r)

/-! ### Configuration digests (R535) -/

/-- The staged tables of a page in code order. -/
def stagedTabs (pg : Nat) : List Tab := (List.range 256).flatMap (fun c => (pageTabs pg).filter (fun t => t.staged && decide (t.code = c)))

/-- The committed staged rows of a page, each as six words. -/
def State.pageRows (s : State) (pg : Nat) : List Nat :=
  (stagedTabs pg).flatMap (fun t => (List.range t.size).flatMap (fun row => rowWords pg t row (s.committedRow pg t row)))

/-- The ownership input, entry 74. -/
def State.ownWords (s : State) : List Nat :=
  allPages.map s.pageOwner ++ (List.range ownCount).map (fun i => s.entry pgBxm T_OWN i % 2 ^ 32) ++
  (List.range 512).flatMap (fun n => (List.range 16).flatMap (fun w => [s.plain (pgBox n) (0x0C0 + 8 * w), s.plain (pgBox n) (0x0C4 + 8 * w)])) ++
  (List.range 64).flatMap (fun e => (List.range 4).map (fun k => s.entry (pgFwm 0) T_EN_GRANT e / 2 ^ (32 * k) % 2 ^ 32)) ++
  [s.rd pgBxm BXM_QOS_qos]

/-- The words that entry j covers. -/
def State.digestWords (s : State) (j : Nat) : List Nat :=
  if j < 64 then (blockPages (j / 8) (j % 8)).flatMap s.pageRows
  else if j < 72 then (commonPages (j - 64)).flatMap s.pageRows
  else if j = 72 then s.pageRows pgPrt
  else if j = 73 then s.pageRows pgWng
  else s.ownWords

/-- The entry of a page's rows, if it is a page with staged tables. -/
def digestOf (pg : Nat) : Nat :=
  match pageInfo pg with
  | some i => match i.region, i.block with
    | some r, some b => 8 * r + b
    | some r, none => 64 + r
    | none, _ => if pg = pgPrt then 72 else if pg = pgWng then 73 else 74
  | none => 74

/-- A digest is recomputed. One found changed that no cue or ownership change touched is reported. -/
def State.digestRun (s : State) (j : Nat) : State :=
  let h := sha384 ((s.digestWords j).flatMap (le 4))
  let old := s.digs.get {} j
  let bad := decide (old.hash ≠ [] ∧ old.hash ≠ h) && !s.digDue.contains j
  let s := { s with digs := s.digs.set {} j { hash := h, gen := s.devGen }, digDue := s.digDue.filter (fun x => decide (x ≠ j)) }
  s.when bad (fun s => s.report clsConfig 2 (srcService 8))

/-- A digest's 48 bytes; zeros before it was computed. -/
def Digest.bytes (d : Digest) : List Nat := if d.hash = [] then List.replicate 48 0 else d.hash

/-- The configuration digest of attestation: SHA-384 over the 75 digests (file 14, R484). -/
def State.configDigest (s : State) : List Nat := sha384 ((List.range 75).flatMap (fun j => (s.digs.get {} j).bytes))

/-! ### Sections (Table FLT-9) -/

def zeros (n : Nat) : List Nat := List.replicate n 0
def Stamp.bytes10 (t : Stamp) : List Nat := le 6 t.sec ++ le 4 (t.ns % 2 ^ 30 + t.quality % 4 * 2 ^ 30)

def State.plbA (s : State) : List Nat :=
  [s.mode, s.rd pgMode MODE_model] ++ (List.range 8).map s.region ++
  le 2 ((List.range 6).foldl (fun a k => a + s.rd (pgHbm k) HBM_STATUS_state % 4 * 4 ^ k) 0) ++ zeros 52

def State.plbB (s : State) : List Nat :=
  (List.range 288).map (fun e => s.entry pgFlt T_FLT_STATE e % 64) ++
  (List.range 8).flatMap (fun r => le 4 (s.plain (pgEpi r) EPI_OCC_occupancy.off) ++ le 4 (s.plain (pgEpi r) 0x040)) ++
  le 4 (s.plain pgLog LOG_STATUS_keys.off) ++ le 4 (s.plain pgLog LOG_GHOST_INFO_valid.off) ++ le 4 (s.plain pgLog LOG_GHOST_UNREC.off) ++
  le 4 (s.plain pgFlt FLT_STATUS_safe.off) ++ zeros 16

def State.plbC (s : State) : List Nat := allPages.flatMap (fun pg => le 4 (s.events.get {} pg).seq) ++ zeros 60

/-- The nibble of a protection group. -/
def State.plbGroup (s : State) (G : Nat) : Nat :=
  let valid := if G < 16384 then s.tgetb (pgSel (G / 2048)) T_ESG_CFG (G % 2048) ESG_CFG.valid
    else s.tgetb (pgIsl ((G - 16384) / 1024)) T_ISG_CFG ((G - 16384) % 1024) ISG_CFG.valid
  b2n valid + 2 * s.gSt G GRP_STATUS.sel + 4 * s.gSt G GRP_STATUS.prov + 8 * s.gSt G GRP_STATUS.sfp_override

def State.plbD (s : State) : List Nat :=
  (List.range 12288).map (fun k => s.plbGroup (2 * k) + 16 * s.plbGroup (2 * k + 1)) ++
  (List.range 2048).map (fun k => (List.range 8).foldl (fun a b =>
    a + s.tget (pgSel (k / 256)) T_BRG_STATUS ((8 * k + b) % 2048) BRG_STATUS.bridged * 2 ^ b) 0)

def State.plbE (s : State) : List Nat :=
  (List.range 4096).map (fun w =>
    let v := s.entry pgWng T_WGRP_STATUS w
    efield v WGRP_STATUS.state + 8 * efield v WGRP_STATUS.covered + 16 * efield v WGRP_STATUS.early + 32 * s.tget pgWng T_WFAIL w WFAIL.valid)

def State.plbF (s : State) : List Nat :=
  s.now.bytes10 ++ zeros 2 ++ le 4 (s.plain pgTim TIM_STATUS_quality.off) ++ le 4 (s.plain pgTim TIM_OFFSET_value.off) ++
  le 4 (s.plain pgTim TIM_FREQ_AVG_value.off) ++ le 4 (s.plain pgTim TIM_STEPS.off) ++ zeros 36

def State.plbG (s : State) : List Nat :=
  (List.range 512).flatMap (fun n =>
    let w := (List.range 16).foldl (fun a k => a + s.rd (pgBox n) (BOX_WIN_en k) * 2 ^ k) 0
    let p := (allPages.filter (fun pg => decide (s.pageOwner pg = n))).length
    let o := ((List.range ownCount).filter (fun i => decide (s.ownBox i = n))).length
    le 8 (w + min p 65535 * 2 ^ 16 + o % 2 ^ 18 * 2 ^ 32 + b2n (s.fnEnabled n) * 2 ^ 50))

def State.plbH (s : State) : List Nat :=
  (List.range 512).flatMap (fun n => le 4 (s.plain (pgBox n) BOX_CUE_GEN_gen.off) ++ le 4 (s.plain (pgBox n) BOX_CUE_STATUS_code.off)) ++
  (List.range 8).flatMap (fun r => (List.range 9).flatMap (fun b => le 4 (s.plain (pgRgn r) (0x100 + 4 * b)))) ++
  le 4 (s.plain pgPrt 0x3FC) ++ le 4 (s.plain pgWng 0x3FC) ++ zeros 24

def State.plbI (s : State) : List Nat :=
  (List.range 75).flatMap (fun j =>
    let d := s.digs.get {} j
    d.bytes ++ le 4 d.gen ++ [b2n (decide (d.hash ≠ []))] ++ zeros 11)

def State.plbJ (s : State) : List Nat := (List.range 64).flatMap (fun e => le 32 (s.entry pgHst T_HST_TXN e))

/-- The header's bytes 16 to 63 (Table FLT-10); the capture takes one moment. -/
def State.plbHead (s : State) : List Nat :=
  le 4 (s.rd pgPlb PLB_SEQ_value + 1) ++ s.now.bytes10 ++ s.now.bytes10 ++ le 8 Config.fuseSerial ++ le 4 s.devGen ++
    le 4 (s.rd pgLog LOG_HEAD_seq) ++ zeros 8

/-- The playbill and its CRC-32 (R536). -/
def State.playbill (s : State) : List Nat × Nat :=
  let body := s.plbHead ++ s.plbA ++ s.plbB ++ s.plbC ++ s.plbD ++ s.plbE ++ s.plbF ++ s.plbG ++ s.plbH ++ s.plbI ++ s.plbJ
  let crc := fcs32 body
  (le 4 0x4A585042 ++ le 2 1 ++ zeros 2 ++ le 4 48000 ++ le 4 crc ++ body, crc)

def plbBusy : Nat := 1
def plbFinished : Nat := 2
def plbLinkDown : Nat := 3

/-- The holder code of the playbill on its check unit. -/
def holdPlaybill : Nat := 9

/-- A write of PLB_CTRL.go (R532). -/
def State.plbGo (s : State) : State :=
  if s.rd pgPlb PLB_STATUS_state = plbBusy then s.count pgPlb PLB_STATUS_refused
  else if s.rdb pgHst HST_LINK_up then
    let (b, crc) := s.playbill
    ((({ s with plb := b }).wr pgPlb PLB_STATUS_state plbBusy).wr pgPlb PLB_CRC_value crc).wr (pgChk 29) CHK_STATUS_holder holdPlaybill
  else s.wr pgPlb PLB_STATUS_state plbLinkDown

/-- The playbill is DONE (R532). -/
def State.plbDone (s : State) : State :=
  if s.rd pgPlb PLB_STATUS_state = plbBusy then
    let s := s.hostBytes 0 (s.rd pgPlb PLB_DST_addr / 64 * 64) (s.plb.map (BitVec.ofNat 8))
    let s := (((s.wr (pgChk 29) CHK_RESULT_res (s.rd pgPlb PLB_CRC_value)).count (pgChk 29) CHK_RUNS).ev (pgChk 29) chkDone)
    let s := (({ s with plb := [] }).wr (pgChk 29) CHK_STATUS_holder 0xF).wr pgPlb PLB_STATUS_state plbFinished
    let s := s.count pgPlb PLB_SEQ_value
    (s.logRec 0x0D 0 (srcChip kindSelf 0) (s.rd pgPlb PLB_SEQ_value)).ev pgPlb 0
  else s

def execPlaybillGo := run State.plbGo
def execPlaybillDone := run State.plbDone
def execDigestRecompute (j : Nat) := run (fun s => if j < 75 then s.digestRun j else s)

end Sys2Proof.Machine
end

