-- ==== Sys2Proof/Machine/Fwt.lean ====
section
/-! DEFINITION. Boot images, the mailbox and its TRUST operations, watchdogs and the ensemble update (file 14, R470 to R492,
R502; file 15, R520). -/

namespace Sys2Proof.Machine

open Sys2Proof

/-! ### Images (Tables FWT-4, FWT-5) -/

def Image.num (x : Image) (at_ n : Nat) : Nat := leNat ((x.bytes.drop at_).take n)
def Image.part (x : Image) (at_ n : Nat) : List Nat := (x.bytes.drop at_).take n
def Image.rollback (x : Image) : Nat := x.num 8 1
def Image.slot (x : Image) : Nat := x.num 9 1
def Image.payload (x : Image) : List Nat := x.part 512 (x.num 12 4)
def Image.digest (x : Image) : List Nat := sha384 x.bytes

def imgNone : Nat := 1
def imgTimeout : Nat := 0x0A

/-- The device revision, CHIP_ID_REV[15:0]. -/
def State.revision (s : State) : Nat := s.plain pgChipId CHIP_ID_REV_digit.off % 65536

def State.slotRevoked (s : State) (k : Nat) : Bool := Config.fuseRevoked.contains k || s.revoked.contains k

/-- The end of what an image may fill: 448 KiB of SM SRAM, or a slot of 3 MiB. -/
def imageRoom (kind : Nat) : Nat := if kind = 1 then 0x70000 else 0x300000

/-- The first failing check of Table FWT-5; 0 accepts the image. -/
def State.imageReason (s : State) (kind : Nat) (x : Image) : Nat :=
  let key := x.part 80 96
  let len := x.num 12 4
  if x.bytes = [] then imgNone
  else if x.bytes.length < 512 ∨ x.num 0 4 ≠ 0x4A58494D ∨ x.num 4 2 ≠ 1 ∨ x.num 6 2 ≠ kind then 2
  else if x.num 24 2 ≠ 0x1024 ∨ s.revision < x.num 26 2 then 3
  else if 4 ≤ x.slot ∨ sha384 key ≠ Config.keySlot x.slot ∨ s.slotRevoked x.slot then 4
  else if !ecdsaVerify (beNat (key.take 48), beNat (key.drop 48)) (x.part 0 416) (beNat (x.part 416 48)) (beNat (x.part 464 48)) then 5
  else if sha384 x.payload ≠ x.part 32 48 then 6
  else if x.rollback < s.rollback then 7
  else if imageRoom kind < x.num 16 4 + len ∨ len ≤ x.num 20 4 then 8
  else if bit (x.num 10 2) 0 ∧ ¬ bit s.rights 2 then 9
  else 0

/-! ### Boot (R475, R476, R548, R549) -/

/-- The stage manager locks check unit u with a set of parameters (R377). -/
def State.loadChk (s : State) (u width poly init xor : Nat) (refl : Bool) : State :=
  let pg := pgChk u
  let s := (((s.wrb pg CHK_CFG_lock true).wr pg CHK_CFG_width width).wrb pg CHK_CFG_refin refl).wrb pg CHK_CFG_refout refl
  ((s.wr pg CHK_POLY_value poly).wr pg CHK_INIT_value init).wr pg CHK_XOR_value xor

def State.loadFcs32 (s : State) (u : Nat) : State := s.loadChk u 32 0x04C11DB7 0xFFFFFFFF 0xFFFFFFFF true

/-- A rejected image (R476; SECURITY, Table FLT-4). -/
def State.imageRejected (s : State) (kind reason : Nat) : State :=
  let s := s.wr (pgFwm 0) (if kind = 1 then FWM_BOOT_sm_reason else FWM_BOOT_en_reason) reason
  (s.ev (pgFwm 0) 3).report clsSecurity 0 (srcService 8)

/-- The sequence waits for a push (R549). -/
def State.bootWait (s : State) (kind : Nat) : State :=
  (s.wr (pgFwm 0) FWM_BOOT_state 3).wr pgMode MODE_CALL_reason (if kind = 1 then 1 else 2)

/-- Where an image came from, in FWM_BOOT. -/
def State.bootSource (s : State) (kind src : Nat) : State :=
  let v := s.rd (pgFwm 0) FWM_BOOT_source
  s.wr (pgFwm 0) FWM_BOOT_source (if kind = 1 then v / 4 * 4 + src else v % 4 + 4 * src)

/-- A stage manager image runs: in CALL, steps 3 and, with every unit ready, 4 are done; a held stage manager resumes. -/
def State.smAccepted (s : State) (x : Image) : State :=
  let s := ({ s with smImg := some x }).bootSource 1 x.source
  let s := (s.wr (pgFwm 0) FWM_BOOT_sm_reason 0).wr (pgFwm 0) FWM_ROLLBACK_sm x.rollback
  if s.smHeld then s.smResume
  else
    let s := ((s.wr (pgFwm 0) FWM_BOOT_state 1).wr pgMode MODE_CALL_step 3).wr pgMode MODE_CALL_reason 0
    ((((s.loadFcs32 28).loadFcs32 29).loadChk 30 4 3 0 0 false).loadFcs32 31).callClocks

/-- Services as held after boot (R488): EN0 has personalities 0 and 1 and PM binning, EN1 the others. -/
def services0 : Nat := 0x13
def services1 : Nat := 0x2C

/-- An ensemble image fills both slots and both cores start at slot A (R475). -/
def State.enAccepted (s : State) (x : Image) : State :=
  let pg := pgFwm 0
  let s := ({ s with slotA := some x, slotB := some x }).bootSource 2 x.source
  let s := (s.wr pg FWM_BOOT_en_reason 0).wr pg FWM_ROLLBACK_en x.rollback
  let s := (((s.wr pg FWM_EN_STATUS_slot0 0).wr pg FWM_EN_STATUS_slot1 0).wr pg FWM_EN_STATUS_held0 services0).wr pg
    FWM_EN_STATUS_held1 services1
  let s := ((s.startCore 0).startCore 1).wr pg FWM_BOOT_state 2
  ((s.wr pgMode MODE_CALL_step 6).wr pgMode MODE_CALL_reason 0).ev pg 2

/-- The boot straps (R474): flash is read unless they select the push alone; a push replaces it unless they select flash alone. -/
def State.bootStrap (s : State) : Nat := s.rd pgChipId CHIP_ID_STRAP_strap % 4

/-- The chip is in CALL, past step k and not past k + 1 (or 2), and the image of a kind is due. -/
def State.bootDue (s : State) (kind : Nat) : Bool :=
  let step := s.rd pgMode MODE_CALL_step
  decide (s.mode = modeCall) && !s.callStop && (if kind = 1 then decide (step = 2) else decide (step = 4 ∨ step = 5))

/-- An image of the boot is judged (R475). -/
def State.bootJudge (s : State) (kind : Nat) (x : Image) : State :=
  let r := s.imageReason kind x
  if r = 0 then (if kind = 1 then s.smAccepted x else s.enAccepted x)
  else
    let s := s.imageRejected kind r
    if x.source = 0 then s else s.bootWait kind

/-- A stage manager that the collector restarted has its image read again (file 15, R520). -/
def State.smRejudge (s : State) (x : Image) : State :=
  let r := s.imageReason 1 x
  if r = 0 then s.smAccepted x
  else
    let s := s.imageRejected 1 r
    if x.source = 0 then s else s.report clsWdogSm 4 (srcService 8)

/-- The slot that neither core runs. -/
def State.idleSlot (s : State) : Nat := 1 - s.rd (pgFwm 0) FWM_EN_STATUS_slot0 % 2

def pushIdle : Nat := 0
def pushReceiving : Nat := 1
def pushVerifying : Nat := 2
def pushAccepted : Nat := 3
def pushRejected : Nat := 4

def State.pushState (s : State) : Nat := s.rd (pgFwm 0) FWM_PUSH_STATUS_state

/-- A push is judged (R476, R489). -/
def State.pushJudge (s : State) (p : Push) : State :=
  let x : Image := { bytes := p.bytes.take p.len, source := 2 }
  let r := s.imageReason p.kind x
  let s := ((({ s with push := none }).wr (pgFwm 0) FWM_PUSH_STATUS_state (if r = 0 then pushAccepted else pushRejected)).wr (pgFwm 0)
    FWM_PUSH_STATUS_reason r)
  if s.bootDue p.kind then s.bootJudge p.kind x
  else if r = 0 then
    if p.kind = 2 ∧ s.mode ≠ modeCall then (if s.idleSlot = 0 then { s with slotA := some x } else { s with slotB := some x }) else s
  else s.imageRejected p.kind r

/-- Judging of an image completes (R476): one of the flash, or the push. Before the ensemble's image come the tests of step 5. -/
def State.imageVerified (s : State) (kind : Nat) (flash : Option FlashImage) (t : CallTests) : State :=
  let s := if kind = 2 ∧ s.bootDue 2 then s.callStep5 t else s
  match flash with
  | some f =>
    let x : Image := { bytes := f.bytes.getD [], source := b2n f.secondary }
    let failed := decide (s.rd (pgFwm 0) (if kind = 1 then FWM_BOOT_sm_reason else FWM_BOOT_en_reason) ≠ 0)
    if s.smHeld ∧ kind = 1 then s.smRejudge x
    else if s.bootDue kind && decide (s.bootStrap ≠ 1) && decide (failed = f.secondary) then s.bootJudge kind x
    else s
  | none =>
    match s.push with
    | some p => if s.pushState = pushVerifying ∧ p.kind = kind then s.pushJudge p else s
    | none => s

/-! ### The push registers (R489, R502) -/

def State.pushStart (s : State) (kind len : Nat) : State :=
  if (s.pushState ≠ pushVerifying ∨ s.mode = modeCall) ∧ (kind = 2 ∨ (kind = 1 ∧ s.mode = modeCall)) then
    let s := { s with push := some { kind := kind, len := len % 2 ^ 24 } }
    ((s.wr (pgFwm 0) FWM_PUSH_STATUS_words 0).wr (pgFwm 0) FWM_PUSH_STATUS_reason 0).wr (pgFwm 0) FWM_PUSH_STATUS_state pushReceiving
  else s

def State.pushData (s : State) (w : Who) (v : Nat) : State :=
  match s.push with
  | some p =>
    if w.master = .host ∧ w.box = 0 ∧ s.pushState = pushReceiving then
      ({ s with push := some { p with bytes := p.bytes ++ le 4 v } }).count (pgFwm 0) FWM_PUSH_STATUS_words
    else s
  | none => s

def State.pushEnd (s : State) : State :=
  if s.pushState = pushReceiving then s.wr (pgFwm 0) FWM_PUSH_STATUS_state pushVerifying else s

def State.pushAbort (s : State) : State :=
  if s.push.isSome then ({ s with push := none }).wr (pgFwm 0) FWM_PUSH_STATUS_state pushIdle else s

/-- A write of FWM_PUSH_CTRL. -/
def State.writePushCtrl (s : State) (v : Nat) : State :=
  let op := getBits v 31 28
  if op = 1 then s.pushStart (getBits v 27 26) (getBits v 23 0)
  else if op = 2 then s.pushEnd
  else if op = 3 then s.pushAbort
  else s

/-- No push started within 10 s of link-up (R476). -/
def State.pushTimeout (s : State) : State :=
  let go (kind : Nat) : State :=
    ((s.imageRejected kind imgTimeout).bootWait kind).wr (pgFwm 0) FWM_PUSH_STATUS_reason imgTimeout
  if s.push.isSome ∨ (s.bootStrap ≠ 1 ∧ s.bootStrap ≠ 2) then s
  else if s.bootDue 1 then go 1
  else if s.bootDue 2 then go 2
  else s

/-! ### The mailbox (R479 to R482) -/

def mbIdle : Nat := 0
def mbBusy : Nat := 1
def mbDone : Nat := 2

def stOk : Nat := 0
def stBadOp : Nat := 1
def stBadLen : Nat := 2
def stDenied : Nat := 3
def stInvalid : Nat := 4
def stMode : Nat := 5
def stRollback : Nat := 6
def stInUse : Nat := 7
def stIncompatible : Nat := 8
def stNoService : Nat := 9
def stAborted : Nat := 0x0A

def State.mbState (s : State) (n : Nat) : Nat := s.rd (pgFwm n) FWM_MB_STATUS_state
def State.mbService (s : State) (n : Nat) : Nat := getBits (s.rd (pgFwm n) (FWM_REQ_word 0)) 31 24
def State.mbOp (s : State) (n : Nat) : Nat := getBits (s.rd (pgFwm n) (FWM_REQ_word 0)) 23 16
def State.mbLen (s : State) (n : Nat) : Nat := getBits (s.rd (pgFwm n) (FWM_REQ_word 0)) 7 0

/-- The request payload. -/
def State.mbPayload (s : State) (n : Nat) : List Nat :=
  ((List.range 62).flatMap (fun i => le 4 (s.rd (pgFwm n) (FWM_REQ_word (i + 2))))).take (s.mbLen n)

/-- A new request of page n is rung (R479). -/
def State.mbStart (s : State) (n who : Nat) : State := ({ s with mbWho := s.mbWho.set 0 n who }).wr (pgFwm n) FWM_MB_STATUS_state mbBusy

/-- The rings refused as busy in this FAB cycle. -/
def State.refusedRings (s : State) : List (Nat × Nat × Bool) := if s.hst.rings.1 = s.fab then s.hst.rings.2 else []

/-- A ring of page n (R480). One that finds the page BUSY is noted for its FAB cycle (R500). -/
def State.mbRing (s : State) (w : Who) (n : Nat) : State :=
  if s.mbState n = mbBusy then
    let stood := s.hasEvt (pgFwm n) 1
    let s := { s with hst := { s.hst with rings := (s.fab, s.refusedRings ++ [(n, w.master.code, stood)]) } }
    (s.count (pgFwm n) FWM_MB_STATUS_busy_refused).ev (pgFwm n) 1
  else s.mbStart n w.master.code

/-- A ring that was refused in the FAB cycle in which the server completes the previous request comes after it: it starts the new
request (R500). -/
def State.mbRingAgain (s : State) (n : Nat) : State :=
  match s.refusedRings.find? (fun x => decide (x.1 = n)) with
  | some (_, who, stood) =>
    let s := { s with hst := { s.hst with rings := (s.fab, s.refusedRings.filter (fun x => decide (x.1 ≠ n))) } }
    let s := s.wr (pgFwm n) FWM_MB_STATUS_busy_refused (s.rd (pgFwm n) FWM_MB_STATUS_busy_refused + 2 ^ 16 - 1)
    (s.when (!stood) (fun s => s.unrecord (pgFwm n) 1)).mbStart n who
  | none => s

/-- The server writes the whole response, then DONE (R481). -/
def State.mbRespond (s : State) (n status : Nat) (payload : List Nat) : State :=
  let pg := pgFwm n
  let p := payload.take 496
  let s := (s.wr pg (FWM_RSP_word 0) (s.mbService n * 2 ^ 24 + s.mbOp n * 2 ^ 16 + status * 2 ^ 8)).wr pg (FWM_RSP_word 1)
    (s.rd pg (FWM_REQ_word 1))
  let s := s.wr pg (FWM_RSP_word 2) p.length
  let s := s.each (List.range ((p.length + 3) / 4)) (fun s k => s.wr pg (FWM_RSP_word (k + 3)) (leNat ((p.drop (4 * k)).take 4)))
  ((s.wr pg FWM_MB_STATUS_state mbDone).ev pg 0).mbRingAgain n

/-! ### TRUST operations (Table FWT-6) -/

/-- The image of the running ensemble. -/
def State.enRunning (s : State) : Option Image :=
  if s.enRuns 0 then s.enImg 0 else if s.enRuns 1 then s.enImg 1 else none

def imgDigest (x : Option Image) : List Nat :=
  match x with
  | some x => x.digest
  | none => zeros 48

/-- n free bytes. -/
def State.freeBytes (s : State) : Nat → List Nat × State
  | 0 => ([], s)
  | n + 1 =>
    let (b, s) := s.free 8
    let (l, s) := s.freeBytes n
    (b :: l, s)

/-- Bytes 0 to 295 of the attestation record (Table FWT-7). -/
def State.attestBody (s : State) (nonce : List Nat) : List Nat :=
  let compat := match s.enRunning with
    | some x => x.compat
    | none => false
  nonce ++ le 8 Config.fuseSerial ++ [s.mode, b2n (decide (s.rights ≠ 0)) + 2 * b2n compat, s.rollback, 0] ++
  le 4 (s.plain pgChipId CHIP_ID_REV_digit.off) ++ imgDigest s.smImg ++ imgDigest s.slotA ++ imgDigest s.slotB ++
  sha384 (Config.fuseBytes s.rollback (Config.fuseRevoked ++ s.revoked)) ++ s.configDigest ++ le 4 s.devGen ++ zeros 4

/-- ATTEST (R484): the signature's per-message secret is random. -/
def State.trustAttest (s : State) (n : Nat) : State :=
  let body := s.attestBody ((s.mbPayload n).take 32)
  let (k, s) := s.freeBytes 48
  s.mbRespond n stOk (body ++ ecdsaSign Config.identityKey (beNat k % ecN) body)

/-- GET_CERT: up to 496 bytes of a certificate from an offset. -/
def State.trustCert (s : State) (n : Nat) : State :=
  let p := s.mbPayload n
  if 1 < p.getD 0 0 then s.mbRespond n stInvalid []
  else s.mbRespond n stOk (((Config.certificate (p.getD 0 0)).drop (leNat ((p.drop 2).take 2))).take 496)

def State.trustChallenge (s : State) : State :=
  let (c, s) := s.freeBytes 32
  ({ s with challenge := some c }).mbRespond 0 stOk c

/-- The token unlocks its rights (R486, Table FWT-8). -/
def State.tokenOk (s : State) (p : List Nat) : Bool :=
  decide (leNat (p.take 4) = 0x4A584454 ∧ leNat ((p.drop 8).take 8) = Config.fuseSerial ∧ s.challenge = some ((p.drop 16).take 32)) &&
    ecdsaVerify Config.debugKey (p.take 64) (beNat ((p.drop 64).take 48)) (beNat ((p.drop 112).take 48))

def State.trustUnlock (s : State) : State :=
  let p := s.mbPayload 0
  let ok := s.tokenOk p
  let s := { s with challenge := none }
  if ok then
    let r := leNat ((p.drop 4).take 4) % 8
    (({ s with rights := s.rights ||| r }).logRec 0x0B 0 (srcService 8) r).mbRespond 0 stOk []
  else (s.report clsSecurity 0 (srcService 8)).mbRespond 0 stInvalid []

/-- COMMIT_ROLLBACK (R477): steps are blown one at a time; those count that verify. -/
def State.trustCommit (s : State) (verified : Nat) : State :=
  let v := (s.mbPayload 0).getD 0 0
  match s.smImg, s.enRunning with
  | some a, some b =>
    if v ≤ a.rollback ∧ v ≤ b.rollback then
      let need := v - s.rollback
      let s := { s with rbSteps := s.rbSteps + min need verified }
      let s := s.when (decide (verified < need)) (fun s => s.report clsFuse 2 (srcService 13))
      s.mbRespond 0 stOk [s.rollback]
    else s.mbRespond 0 stRollback []
  | _, _ => s.mbRespond 0 stRollback []

/-- An image in use names the slot (R478). -/
def State.slotUsed (s : State) (k : Nat) : Bool :=
  [s.smImg, s.enRunning, s.slotA, s.slotB].any (fun x => match x with
    | some x => decide (x.slot = k)
    | none => false)

def State.trustRevoke (s : State) : State :=
  let k := (s.mbPayload 0).getD 0 0
  if 4 ≤ k then s.mbRespond 0 stInvalid []
  else if s.slotUsed k then s.mbRespond 0 stInUse []
  else ({ s with revoked := if s.revoked.contains k then s.revoked else s.revoked ++ [k] }).mbRespond 0 stOk []

def State.imgSource (x : Option Image) : Nat :=
  match x with
  | some x => x.source
  | none => 0

def State.trustInfo (s : State) : State :=
  s.mbRespond 0 stOk (le 4 (s.plain (pgFwm 0) 0x050) ++ le 4 (s.plain (pgFwm 0) 0x054) ++ [State.imgSource s.smImg, State.imgSource s.enRunning])

/-! ### The ensemble update (R490, R491) -/

def State.heldBy (s : State) (i : Nat) : Nat := s.rd (pgFwm 0) (enHeldF i)

/-- A handover of a set of services to core i (R488). -/
def State.handover (s : State) (i set : Nat) : State :=
  let s := s.wr (pgFwm 0) (enHeldF (1 - i)) (s.heldBy (1 - i) &&& (63 - set))
  (s.wr (pgFwm 0) (enHeldF i) (s.heldBy i ||| set)).ev (pgFwm 0) 5

/-- Core i restarts at a slot. -/
def State.restartAt (s : State) (i slot : Nat) : State := (s.wr (pgFwm 0) (enSlotF i) slot).startCore i

/-- Why UPDATE_EN is refused (R490), if it is. -/
def State.updateRefusal (s : State) : Option Nat :=
  if s.mode = modeCall ∨ s.mode = modeSafe ∨ s.mode = modeDark then some stMode
  else match s.slotImg s.idleSlot, s.enRunning with
    | some new, some old =>
      if old.num 28 2 < new.num 30 2 ∨ new.num 28 2 < old.num 30 2 then some stIncompatible
      else if s.enRuns 0 && s.enRuns 1 then none
      else some stNoService
    | _, _ => some stNoService

/-- Ten minutes in DP cycles. -/
def tenMinutes : Nat := 600 * 1750000000

/-- What the stage manager does at the expiry of core i's watchdog (R487): the core is held, its services go to the other core, and it
restarts at its slot unless this is its third expiry within ten minutes. -/
def State.wdogFire (s : State) (i : Nat) : State :=
  let s := ((s.wr (pgFwm 0) (enRunF i) 0).countSat (pgFwm 0) FWM_EN_STATUS_expiries).report clsWdogEn 2 (srcService (9 + i))
  let s := if s.enRuns (1 - i) && decide (s.heldBy i ≠ 0) then s.handover (1 - i) (s.heldBy i) else s
  let ts := s.dpCycle :: (s.wdogTimes.get [] i).filter (fun t => decide (s.dpCycle - t ≤ tenMinutes))
  let s := { s with wdogTimes := s.wdogTimes.set [] i (ts.take 3) }
  (s.when (decide (ts.length < 3)) (fun s => s.startCore i)).ev (pgFwm 0) 4

/-- Core i's watchdog expires in the course of an update (R500): R487 applies to it, the services h0 and h1 go back to the cores that held
them as far as these run, and the answer is ABORTED. -/
def State.updateExpired (s : State) (i h0 h1 : Nat) : State :=
  let s := s.wdogFire i
  let s := s.when (s.enRuns 0) (fun s => s.handover 0 h0)
  (s.when (s.enRuns 1) (fun s => s.handover 1 h1)).mbRespond 0 stAborted []

/-- The core whose watchdog expires after step k of an update, if one does. -/
def expiresAfter (x : TrustEnv) (k : Nat) : Option Nat :=
  match x.expiry with
  | some (i, n) => if n = k ∧ i < 2 then some i else none
  | none => none

/-- One step of an update after another, unless a watchdog has expired after step k. -/
def State.updateStep (s : State) (x : TrustEnv) (k h0 h1 : Nat) (f : State → State) : State :=
  match expiresAfter x k with
  | some i => s.updateExpired i h0 h1
  | none => f s

/-- An accepted UPDATE_EN (R491). -/
def State.updateRun (s : State) (x : TrustEnv) : State :=
  let new := s.idleSlot
  let old := 1 - new
  let h0 := s.heldBy 0
  let h1 := s.heldBy 1
  s.updateStep x 0 h0 h1 (fun s =>
  (s.handover 1 h0).updateStep x 1 h0 h1 (fun s =>
  if !x.ready0 then (((s.restartAt 0 old).handover 0 h0).mbRespond 0 stAborted [])
  else (s.restartAt 0 new).updateStep x 2 h0 h1 (fun s =>
  (s.handover 0 (h0 ||| h1)).updateStep x 3 h0 h1 (fun s =>
  if !x.ready1 then (((s.restartAt 1 old).handover 1 h1).mbRespond 0 stAborted [])
  else (s.restartAt 1 new).updateStep x 4 h0 h1 (fun s =>
    let s := s.handover 1 h1
    let s := match s.slotImg new with
      | some i => s.wr (pgFwm 0) FWM_ROLLBACK_en i.rollback
      | none => s
    s.mbRespond 0 stOk (le 4 x.ms))))))

def State.trustUpdate (s : State) (x : TrustEnv) : State :=
  match s.updateRefusal with
  | some c => s.mbRespond 0 c []
  | none => s.updateRun x

/-! ### Serving (R480, R482) -/

/-- The request payload lengths of Table FWT-6. -/
def trustLen (op : Nat) : Nat :=
  if op = 1 then 32 else if op = 2 then 4 else if op = 4 then 160 else if op = 5 ∨ op = 6 then 1 else 0

/-- The stage manager serves a TRUST request. -/
def State.serveTrust (s : State) (n : Nat) (x : TrustEnv) : State :=
  let op := s.mbOp n
  if s.mbWho.get 0 n ≠ Master.host.code then s.mbRespond n stDenied []
  else if op = 0 ∨ 8 < op then s.mbRespond n stBadOp []
  else if n ≠ 0 ∧ 2 < op then s.mbRespond n stDenied []
  else if s.mbLen n ≠ trustLen op then s.mbRespond n stBadLen []
  else if op = 1 then s.trustAttest n
  else if op = 2 then s.trustCert n
  else if op = 3 then s.trustChallenge
  else if op = 4 then s.trustUnlock
  else if op = 5 then s.trustCommit x.verified
  else if op = 6 then s.trustRevoke
  else if op = 7 then s.trustUpdate x
  else s.trustInfo

/-- A request for a service's operation waits on a page. -/
def State.mbWaits (s : State) (n service op : Nat) : Bool :=
  decide (n < 512 ∧ s.mbState n = mbBusy ∧ s.mbService n = service ∧ s.mbOp n = op)

/-- A TRUST request that waits is served, unless the stage manager is held (file 15, R520). -/
def State.trustOp (s : State) (n op : Nat) (x : TrustEnv) : State :=
  if s.mbWaits n 1 op && !s.smHeld then s.serveTrust n x else s

def noEnv : TrustEnv := ⟨0, false, false, 0, none⟩

/-! ### Watchdogs (R487) -/

def State.wdogKick (s : State) (w : Who) : State :=
  if w.master = .en0 then { s with kickAt := s.kickAt.set 0 0 s.dpCycle }
  else if w.master = .en1 then { s with kickAt := s.kickAt.set 0 1 s.dpCycle }
  else s

/-- FWM_WDOG_CFG.ms in DP cycles; 0 acts as 1. -/
def State.wdogTime (s : State) (i : Nat) : Nat := 1750000 * max 1 (s.rd (pgFwm 0) (FWM_WDOG_CFG_ms i))

/-- EN_WDOG_EXPIRY (R487): core i's watchdog runs and its time has passed since its last kick or its start. -/
def State.wdogExpire (s : State) (i : Nat) : State :=
  if i < 2 ∧ s.enRuns i ∧ s.rdb (pgFwm 0) (FWM_WDOG_CFG_en i) ∧ s.kickAt.get 0 i + s.wdogTime i ≤ s.dpCycle then s.wdogFire i else s

/-! ### Meanings -/

def execFwmRing (w : Who) (n : Nat) := runBus w (pgFwm (n % 512)) true (fun s => s.mbRing w (n % 512))
def execAttest (n : Nat) := run (fun s => s.trustOp n 1 noEnv)
def execGetCert (n : Nat) := run (fun s => s.trustOp n 2 noEnv)
def execDebugChallenge := run (fun s => s.trustOp 0 3 noEnv)
def execDebugUnlock := run (fun s => s.trustOp 0 4 noEnv)
def execCommitRollback (x : TrustEnv) := run (fun s => s.trustOp 0 5 x)
def execRevokeSlot := run (fun s => s.trustOp 0 6 noEnv)
def execUpdateEn (x : TrustEnv) := run (fun s => s.trustOp 0 7 x)
def execBootInfo := run (fun s => s.trustOp 0 8 noEnv)
def execPushStart (kind len : Nat) := run (fun s => s.pushStart kind len)
def execPushData (w : Who) (v : Nat) := runBus w (pgFwm 0) true (fun s => s.pushData w v)
def execPushEnd := run State.pushEnd
def execPushAbort := run State.pushAbort
def execPushTimeout := run State.pushTimeout
def execImageVerified (kind : Nat) (flash : Option FlashImage) (x : CallTests) := run (fun s =>
  if kind = 1 ∨ kind = 2 then s.imageVerified kind flash x else s)
def execFwmWdogKick (w : Who) := runBus w (pgFwm 0) true (fun s => s.wdogKick w)
def execEnWdogExpiry (i : Nat) := run (fun s => s.wdogExpire i)

end Sys2Proof.Machine
end

