-- ==== Sys2Proof/Machine/RegModel.lean ====
section
/-! DEFINITION. The register model: votes, the page header, 64-bit pairs and indirect tables (file 02, R51 to R71). -/

namespace Sys2Proof.Machine

open Sys2Proof

/-! ### What a page belongs to -/

/-- The item that a page's reports name (file 02; file 15, Tables FLT-2 and FLT-3). -/
def pageItem (pg : Nat) : Nat :=
  match pageInfo pg with
  | some ⟨typ, i, some r, some b⟩ =>
    let B := 8 * r + b
    (match typ with
    | .lln | .fec | .eth => srcCell B kindLane (4 * B + i)
    | .otu => srcCell B kindSlice (16 * B + i)
    | _ => srcBlock B)
  | some ⟨.fyl, i, some r, none⟩ => srcRgnCell r kindLink (12 * r + i)
  | some ⟨_, _, some r, none⟩ => srcRegion r
  | some ⟨typ, i, none, _⟩ =>
    (match typ with
    | .chipId => srcService 15
    | .flt => srcService 0
    | .bxm => srcService 1
    | .wng => srcService 2
    | .prt => srcService 3
    | .tim => srcService 4
    | .hst => srcService 5
    | .sdp => srcService 6
    | .cbb => srcService 7
    | .fwm | .plb => srcService 8
    | .log => srcService 12
    | .csu => srcChip kindCsu i
    | .chk => srcChip kindChk i
    | .box => srcChip kindBox i
    | .hbm => srcChip kindHbm i
    | _ => srcChip kindSelf 0)
  | none => srcChip kindSelf 0

/-! ### Votes (R61 to R63) -/

/-- Vote an RV field and put it right. -/
def State.voteField (s : State) (pg : Nat) (f : Field) : State :=
  let k := fkey pg f
  let a := s.regs.get f.reset k
  let b := s.regsB.get f.reset k
  let c := s.regsC.get f.reset k
  if f.acc ≠ .rv ∨ (a = b ∧ b = c) then s
  else if a = b ∨ a = c ∨ b = c then ((s.wr pg f (s.rd pg f)).setErr pg errVoteCorrected).report clsVote 1 (pageItem pg)
  else if pg = pgMode ∧ f.off = MODE_current.off then s.modeLost
  else ((s.wr pg f f.reset).setErr pg errVoteLost).report clsVote 3 (pageItem pg)

/-- Vote an entry of a voted table and put it right. -/
def State.voteEntry (s : State) (pg : Nat) (t : Tab) (e : Nat) : State :=
  let d := t.resetEntry e
  let k := tkey pg t e
  let a := s.tabs.get d k
  let b := s.tabsB.get d k
  let c := s.tabsC.get d k
  if !t.voted ∨ (a = b ∧ b = c) then s
  else if a = b ∨ a = c ∨ b = c then ((s.setEntry pg t e (s.entry pg t e)).setErr pg errVoteCorrected).report clsVote 1 (pageItem pg)
  else
    let s := (s.setEntry pg t e d).setErr pg errVoteLost
    if pg = pgFlt then s.report clsCollector 2 (pageItem pg) else s.report clsVote 3 (pageItem pg)

/-- The stored keys of the fields and entries that are held three times. -/
def State.votedKeys (s : State) : List (Nat × Field) :=
  (s.regs ++ s.regsB ++ s.regsC).filterMap (fun x =>
    let pg := x.1 / 8192
    ((pageFields pg).find? (fun f => decide (f.acc = .rv ∧ fkey pg f = x.1))).map (fun f => (pg, f)))
def State.votedRows (s : State) : List (Nat × Tab × Nat) :=
  (s.tabs ++ s.tabsB ++ s.tabsC).filterMap (fun x =>
    let pg := tabKeyPage x.1
    match findTab pg (x.1 / 2 ^ 24 % 256) with
    | some t => if t.voted then some (pg, t, x.1 % 2 ^ 24) else none
    | none => none)

/-- What an upset of one copy of an entry of a voted table can reach: of a group's status only the selector position is held three
times (file 07, R265); of the other tables the whole entry. -/
def upsetEntry (t : Tab) (old v : Nat) : Nat :=
  if t = T_SEL_GRP_STATUS ∨ t = T_ISL_GRP_STATUS then putBits old 0 0 v else v % 2 ^ (128 * t.rows)

/-- Put a disturbed copy in place. -/
def State.upset (s : State) : Upset → State
  | .field pg off lo copy v =>
    match (pageFields pg).find? (fun f => decide (f.acc = .rv ∧ f.off = off ∧ f.lo = lo)) with
    | some f =>
      let v := v % 2 ^ f.width
      if copy = 0 then { s with regs := s.regs.set f.reset (fkey pg f) v }
      else if copy = 1 then { s with regsB := s.regsB.set f.reset (fkey pg f) v }
      else { s with regsC := s.regsC.set f.reset (fkey pg f) v }
    | none => s
  | .entry pg code e copy v =>
    match findTab pg code with
    | some t =>
      let d := t.resetEntry e
      let k := tkey pg t e
      if !t.voted ∨ t.entries ≤ e then s
      else if copy = 0 then { s with tabs := s.tabs.set d k (upsetEntry t (s.tabs.get d k) v) }
      else if copy = 1 then { s with tabsB := s.tabsB.set d k (upsetEntry t (s.tabsB.get d k) v) }
      else { s with tabsC := s.tabsC.set d k (upsetEntry t (s.tabsC.get d k) v) }
    | none => s

/-- VOTE_SCRUB (R62): every RV field and voted entry is voted. -/
def State.scrub (s : State) (u : List Upset) : State :=
  let s := s.each u State.upset
  let s := s.each s.votedKeys (fun s x => s.voteField x.1 x.2)
  s.each s.votedRows (fun s x => s.voteEntry x.1 x.2.1 x.2.2)

/-- The RV fields of a register are voted when it is read (R62). -/
def State.voteAt (s : State) (pg off : Nat) : State :=
  s.each ((pageFields pg).filter (fun f => decide (f.off = off ∧ f.acc = .rv))) (fun s f => s.voteField pg f)

/-! ### The page header (R56 to R59) -/

/-- A read of EVT_STATUS: the bits, and the sequence number latched for the reader (R58). -/
def State.readEvents (s : State) (rq pg : Nat) : Nat × State := (s.evtStatus pg, s.wr rq EVT_SEQ_seq (s.events.get {} pg).seq)

/-- A stamp is at or before a written value (R59). -/
def acked (v n : Nat) : Bool := decide ((v + 2 ^ 32 - n % 2 ^ 32) % 2 ^ 32 < 2 ^ 31)

/-- A write of EVT_ACK (R59). -/
def State.ackEvents (s : State) (pg v : Nat) : State :=
  let e := s.events.get {} pg
  let ahead := (v + 2 ^ 32 - e.seq % 2 ^ 32) % 2 ^ 32
  if 1 ≤ ahead ∧ ahead < 2 ^ 31 then s.setErr pg errAckAhead
  else
    let keep (l : List (Nat × Nat)) := l.filter (fun x => !acked v x.2)
    { s with events := s.events.set {} pg { e with evts := keep e.evts, errs := keep e.errs } }

/-- A write of EVT_FORCE (R57). -/
def State.forceEvents (s : State) (pg v : Nat) : State := s.each ((List.range 31).filter (bit v)) (fun s k => s.ev pg k)

/-- A write of PAGE_OWNER (R56, R444). -/
def State.writeOwner (s : State) (w : Who) (pg v : Nat) : State :=
  if w.master ≠ .sm then s.setErr pg errOwnerWrite else if pageFixed pg then s else s.givePage pg (v % 512)

/-- What a change of PAGE_CTRL means to the page's item (file 03, R97, R120; file 04, R154; file 09, R310; file 11, R380). -/
def State.ctrlChange (s : State) (pg : Nat) (runChanged run : Bool) : State :=
  match pageInfo pg with
  | some ⟨.lln, i, some r, some b⟩ => let n := 4 * (8 * r + b) + i; if runChanged then s.laneRunChange n run else s
  | some ⟨.otu, i, some r, some b⟩ =>
    let d := 16 * (8 * r + b) + i
    if runChanged then s.otuRunChange d run else s.refreshBlock (d / 16)
  | some ⟨.fyl, i, some r, none⟩ => if runChanged then s.fylRunChange (12 * r + i) run else s
  | some ⟨.sdp, _, _, _⟩ => if runChanged then s.sdpRunChange run else s
  | _ => s

/-- A write of PAGE_CTRL (R56). -/
def State.writeCtrl (s : State) (pg v : Nat) : State :=
  let run := bit v 0
  let was := s.rdb pg PAGE_CTRL_run
  let safe := s.rdb pg PAGE_CTRL_force_safe
  let s := (s.wrb pg PAGE_CTRL_run run).wrb pg PAGE_CTRL_force_safe (bit v 1)
  if was = run ∧ safe = bit v 1 then s else s.ctrlChange pg (was != run) run

/-! ### 64-bit pairs (R64, R65) -/

/-- The fields of the pair whose _LO word stands at an offset. -/
def pairFields (pg off : Nat) : List Field :=
  let l := (pageFields pg).filter (fun f => decide (f.off = off))
  if l.any (fun f => decide (32 ≤ f.hi)) then l else []

/-- The pair at an offset may be written. -/
def pairWritable (pg off : Nat) : Bool := (pairFields pg off).any (fun f => decide (f.acc = .rw))

/-- A read of a _LO word: the low word, the high word of the same instant latched. -/
def State.readLo (s : State) (rq pg off : Nat) : Nat × State := (s.word rq pg off, s.latchHi rq off (s.word rq pg (off + 4)))

/-- A read of a _HI word at offset `off`. -/
def State.readHi (s : State) (rq off : Nat) : Nat := s.rd rq (shadowF off)

/-- The low bits of a base or address that read 0 (file 05, WNG_PMS_BASE; file 13, HST_APT_BASE; file 15, LOG_MIRROR_BASE, PLB_DST). -/
def baseLow (pg off : Nat) : Nat :=
  if pg = pgWng ∧ off = 0x300 then 24
  else if pg = pgHst ∧ off = 0x040 then 20
  else if pg = pgLog ∧ off = 0x048 then 30
  else if pg = pgPlb ∧ off = 0x040 then 6
  else 0

/-- A write of a _LO word is held. -/
def State.holdLo (s : State) (rq off v : Nat) : State := s.wr rq (shadowF off) v

/-- A write of a _HI word writes the pair whose _LO stands at `off`; the held low word is used up. -/
def State.putPair (s : State) (rq pg off v : Nat) : State :=
  let low := s.rd rq (shadowF off)
  let k := 2 ^ baseLow pg off
  let full := (v % 2 ^ 32 * 2 ^ 32 + low) / k * k
  let s := s.wr rq (shadowF off) 0
  s.each ((pairFields pg off).filter (fun f => decide (f.acc = .rw))) (fun s f => s.wr (if f.perMaster then rq else pg) f (getBits full f.hi f.lo))

/-! ### Requesters and the scope of cues (R71 to R73) -/

/-- The requester that a master writes for: the box, or 512 the ensemble and 513 on each other master; 1 is added. -/
def requester (w : Who) : Nat :=
  match w.master with
  | .host => w.box % 512 + 1
  | .en0 | .en1 => 513
  | .sm => 514
  | .dma => 515
  | .dbg => 516
  | .cbb => 517
  | .sdp => 518

/-- A page's staged tables lie in the scope of box n's cue. -/
def State.pageInScope (s : State) (n pg : Nat) : Bool :=
  match pageInfo pg with
  | some ⟨_, _, some r, some b⟩ => s.scopeBlock n (8 * r + b)
  | some ⟨_, _, some r, none⟩ => s.scopeRegion n r
  | some ⟨.prt, _, _, _⟩ => s.scopePrt n
  | some ⟨.wng, _, _, _⟩ => s.scopeWng n
  | _ => false

/-- A running cue holds the staged rows of a page (R73). -/
def State.stagedLocked (s : State) (pg : Nat) : Bool := s.runningCues.any (fun n => s.pageInScope n pg)

/-! ### Indirect tables (R66 to R70) -/

/-- The bits of an entry that the owning chapter assigns; the others are reserved (file 00, R8). Only tables that may be written
are listed. -/
def entryMask (t : PageType) (code : Nat) : Nat :=
  match t with
  | .lln =>
    if code = 1 then 0x7 else 0
  | .otu =>
    if code = 1 then 0x1ffffff7ff7ff7f
    else if code = 2 then 0xffffffffffffffffffffffffffffffffffffffffffffffffffffffffffffffffffffffffffffffffffffffffffffffffffffffffffffffffffffffffffffffff
    else if code = 3 then 0xffffffffffffffffffffffffffffffffffffffffffffffffffffffffffffffffffffffffffffffffffffffffffffffffffffffffffffffffffffffffffffffff else 0
  | .odi | .ode =>
    if code = 1 then 0xf0000ffff0003ffff07ffbfffffffffff0001ff7f3ffffffd
    else if code = 2 then 0xfff7ff
    else if code = 3 then 0xfff7ff else 0
  | .mpt =>
    if code = 1 then 0x3fffffffff
    else if code = 2 then 0xffffffffffffffffffffffffffffffffffffffffffffffffffffffffffffffffffffffffffffffffffffffffffffffffffffffffffffffffffffffffffffffff
    else if code = 3 then 0xffffffffffffffffffffffffffffffffffffffffffffffffffffffffffffffffffffffffffffffffffffffffffffffffffffffffffffffffffffffffffffffff
    else if code = 6 then 0xfffff else 0
  | .eth =>
    if code = 1 then 0xfffffffff7 else 0
  | .dmp | .map =>
    if code = 1 then 0x7fffffffffff1f else 0
  | .isl =>
    if code = 1 then 0xffffff3fffffffffffffff else 0
  | .sel =>
    if code = 1 then 0x7ffffffffffffffffffffff
    else if code = 2 then 0xfffffffffffffff else 0
  | .prt =>
    if code = 1 then 0xffffff7fffffff else 0
  | .wng =>
    if code = 1 then 0xffffffff0000007ffff1ff1f else 0
  | .fyl =>
    if code = 1 then 0xf7fffffffffffffff else 0
  | .fyt =>
    if code = 1 then 0xffffffff00ffffff else 0
  | .fyr =>
    if code = 1 then 0xffffffff0000007f else 0
  | .ohq =>
    if code = 1 then 0x7fffff3fffffffffffffff
    else if code = 2 then 0x7fffff3fffffffffffffff else 0
  | .sdp =>
    if code = 2 then 0xffffffffffffffffffffffffffffffff else 0
  | .csu =>
    if code = 1 then 0xffffffffffffffffff03 else 0
  | .hst =>
    if code = 1 then 0x87ff else 0
  | .bxm =>
    if code = 1 then 0x1ff else 0
  | .box =>
    if code = 1 then 0x8007 else 0
  | .fwm =>
    if code = 1 then 0xffffffffffffffff000000ffffffff1f else 0
  | .flt =>
    if code = 1 then 0x7ffffffff0000ffffffffffff else 0
  | _ => 0

/-- A row with its reserved bits 0. -/
def assigned (pg : Nat) (t : Tab) (row x : Nat) : Nat :=
  match pageInfo pg with
  | some i => x &&& rowOf t (entryMask i.typ t.code) row
  | none => 0

/-- A row that a requester may not see or write through its proxy (file 13, Table HST-4). -/
def State.rowDenied (s : State) (w : Who) (pg : Nat) (t : Tab) (row : Nat) : Bool := w.proxy && decide (s.rowOwner pg t row ≠ w.box)

/-- The proxy has met a row of another owner. -/
def State.rowOwnerErr (s : State) (w : Who) : State := s.wrb (pgBox w.box) BOX_PX_STATUS_row_owner true

/-- The addressed table, if the index lies within it. -/
def State.indTab (s : State) (rq pg : Nat) : Option Tab :=
  (findTab pg (s.rd rq IND_ADDR_table)).bind (fun t => if s.rd rq IND_ADDR_index < t.size then some t else none)

/-- Put a row into IND_DATA0–3. -/
def State.putData (s : State) (rq x : Nat) : State := s.each (List.range 4) (fun s k => s.wr rq (IND_DATA_data k) (x / 2 ^ (32 * k)))

/-- Fetch the addressed row (R66, R69); a slot of the prompt book in a failed bank reads as zeros with ind_range (file 15, R528). -/
def State.indFetch (s : State) (w : Who) (pg : Nat) : State :=
  let rq := reqPage pg w
  match s.indTab rq pg with
  | none => (s.putData rq 0).setErr pg errIndRange
  | some t =>
    let row := s.rd rq IND_ADDR_index
    if s.rowDenied w pg t row then (s.putData rq 0).rowOwnerErr w
    else if t = T_LOG_ENTRY ∧ s.bankFailed (row / t.rows / 32768) then (s.putData rq 0).setErr pg errIndRange
    else
      let s := s.voteEntry pg t (row / t.rows)
      s.putData rq (if t.staged && !s.rdb rq IND_CTRL_view then s.stagedRow pg t row else s.committedRow pg t row)

/-- A write of IND_ADDR. -/
def State.indAddr (s : State) (w : Who) (pg v : Nat) : State :=
  let rq := reqPage pg w
  ((s.wr rq IND_ADDR_table (v / 2 ^ 24)).wr rq IND_ADDR_index v).indFetch w pg

/-- The index advances by the stride; it does not wrap (R68, R69). -/
def State.indStep (s : State) (rq : Nat) : State :=
  if s.rdb rq IND_CTRL_auto_inc then s.wr rq IND_ADDR_index (min (s.rd rq IND_ADDR_index + s.rd rq IND_CTRL_stride) (2 ^ 24 - 1)) else s

/-- Only the stage manager writes a table (R412, R445, R473, R510). -/
def smTable (pg : Nat) (t : Tab) : Bool :=
  match pageInfo pg with
  | some i => decide ((i.typ = .bxm ∧ t.code = T_OWN.code) ∨ (i.typ = .fwm ∧ t.code = T_EN_GRANT.code) ∨
      (i.typ = .flt ∧ t.code = T_FLT_POLICY.code) ∨ (i.typ = .csu ∧ t.code = T_CSU_BAND.code))
  | none => false

/-- Write a row in place (R70). -/
def State.writeSingle (s : State) (w : Who) (pg : Nat) (t : Tab) (row x : Nat) : State :=
  let e := row / t.rows
  if t.ro ∨ (smTable pg t ∧ w.master ≠ .sm) then s
  else if pg = pgBxm then s.giveObj e (x % 512)
  else if pg = pgSdp ∧ !s.wakeMaskOk e then s
  else
    let s := s.when (!t.ro && decide (t = T_HST_VECMAP ∨ t = T_BOX_VECMAP ∨ t = T_EN_GRANT)) (fun s => s.keepWas true (tkey pg t e) (s.entry pg t e))
    let s := s.setEntry pg t e (putRow t (s.entry pg t e) row x)
    s.when (decide (pg = pgFwm 0)) (fun s => s.digTouch 74)

/-- Write a row of a staged table: into the staged copy, marked dirty for the writer (R67, R71, R73). -/
def State.writeStaged (s : State) (w : Who) (pg : Nat) (t : Tab) (row x : Nat) : State :=
  if s.stagedLocked pg then s.setErr pg errStagedLocked
  else
    let e := row / t.rows
    { (s.setStaged pg t e (putRow t (s.stagedEntry pg t e) row x)) with dirty := s.dirty.set 0 (rowKey pg t row) (requester w) }

/-- A write of IND_DATA3 (R67, R68): the four words are written to the addressed row. -/
def State.indStore (s : State) (w : Who) (pg v : Nat) : State :=
  let rq := reqPage pg w
  let s := s.wr rq (IND_DATA_data 3) v
  let x := (List.range 4).foldl (fun a k => a + s.rd rq (IND_DATA_data k) * 2 ^ (32 * k)) 0
  let row := s.rd rq IND_ADDR_index
  let s := match s.indTab rq pg with
    | none => s.setErr pg errIndRange
    | some t =>
      let x := assigned pg t row x
      if s.rowDenied w pg t row then s.rowOwnerErr w
      else if t.staged then s.writeStaged w pg t row x
      else s.writeSingle w pg t row x
  s.indStep rq

/-- A read of IND_DATA3 (R68): with auto_inc the next row is fetched. -/
def State.indRead (s : State) (w : Who) (pg : Nat) : Nat × State :=
  let rq := reqPage pg w
  let v := s.rd rq (IND_DATA_data 3)
  (v, if s.rdb rq IND_CTRL_auto_inc then (s.indStep rq).indFetch w pg else s)

/-! ### Reads of registers -/

/-- A read of a register that takes something (R53, R64). -/
def State.readReg (s : State) (w : Who) (pg off : Nat) : Nat × State :=
  let rq := reqPage pg w
  let s := s.voteAt pg off
  match pageInfo pg with
  | none => (0, s)
  | some i =>
    if off = 0x010 then s.readEvents rq pg
    else if off = 0x03C then s.indRead w pg
    else if i.typ = .ohq ∧ off = 0x044 then s.ohqRead w (i.region.getD 0)
    else if i.typ = .prt ∧ off = 0x050 then
      let (v, s) := s.takeNotice (if w.proxy then w.box else 512)
      (v % 2 ^ 32, s.latchHi rq 0x050 (v / 2 ^ 32))
    else if i.typ = .wng ∧ off = 0x048 then (s.word rq pg off, s.trackRead)
    else if i.typ = .box ∧ off = 0x094 then s.boxNote i.inst rq
    else if i.typ = .sdp ∧ off = 0x08C then s.sdpRxDesc w
    else if i.typ = .sdp ∧ off = 0x090 then s.sdpRxData w
    else if i.typ = .sdp ∧ off = 0x0A0 then s.halfRead w
    else if i.typ = .cbb ∧ off = 0x058 then s.cbbRxDesc w
    else if i.typ = .cbb ∧ off = 0x05C then s.cbbRxData w
    else if i.typ = .tim ∧ off = 0x064 then s.nowRead w
    else if i.typ = .tim ∧ off = 0x0C0 then s.tsRead w
    else if 0x040 ≤ off ∧ pairFields pg off ≠ [] then s.readLo rq pg off
    else if 0x044 ≤ off ∧ pairFields pg (off - 4) ≠ [] then (s.readHi rq off, s)
    else (s.word rq pg off, s)

/-- A read: with no byte enable set it is no register access (R53). -/
def State.busRead (s : State) (w : Who) (pg off be : Nat) : Nat × State := if be % 16 = 0 then (0, s) else s.readReg w pg (regOff off)

/-- A write's byte enables: a write that does not cover all four bytes is ignored with partial_write (R53). -/
def State.fullWrite (s : State) (pg be : Nat) (f : State → State) : State := if be % 16 = 15 then f s else s.setErr pg errPartialWrite

/-! ### Meanings -/

/-- A read command: the access is carried, and answered with what it returns. -/
def runRead (a : RegAcc) (f : State → Nat × State) (s : State) : Host.Outcome State Fault Refusal :=
  runBus a.who a.page false (fun s =>
    if a.be % 16 = 0 then s.answer bsOk [0] else let (v, s) := f s; s.answer bsOk [v]) s

/-- A write command of one register. -/
def runWrite (a : RegAcc) (f : State → State) (s : State) : Host.Outcome State Fault Refusal :=
  runBus a.who a.page true (fun s => s.fullWrite a.page a.be f) s

def execPageCtrlWrite (a : RegAcc) (v : Nat) := runWrite a (fun s => s.writeCtrl a.page v)
def execPageOwnerWrite (a : RegAcc) (v : Nat) := runWrite a (fun s => s.writeOwner a.who a.page v)
def execEvtStatusRead (a : RegAcc) := runRead a (fun s => s.readEvents (reqPage a.page a.who) a.page)
def execEvtAckWrite (a : RegAcc) (v : Nat) := runWrite a (fun s => s.ackEvents a.page (v % 2 ^ 32))
def execEvtForceWrite (a : RegAcc) (v : Nat) := runWrite a (fun s => s.forceEvents a.page v)
def execVoteScrub (u : List Upset) := run (fun s => s.scrub u)
def execIndAddrWrite (a : RegAcc) (v : Nat) := runWrite a (fun s => s.indAddr a.who a.page (v % 2 ^ 32))
def execIndData3Write (a : RegAcc) (v : Nat) := runWrite a (fun s => s.indStore a.who a.page v)
def execIndData3Read (a : RegAcc) := runRead a (fun s => s.indRead a.who a.page)

/-- LO_READ: of a 64-bit pair. A read of another register is as it stands (R53). -/
def execLoRead (a : RegAcc) := runRead a (fun s => s.readReg a.who a.page (regOff a.off))

end Sys2Proof.Machine
end

