-- ==== Sys2Proof/Machine/CueCheck.lean ====
section
/-! DEFINITION. The checks of a cue: the owner of each row and the contents of checks 6 to 10 for every table (file 02, Table REG-6,
R597; file 03, R87; file 04, R126; file 05, R163, R166, R173, R175; file 06, R202, R214, R226; file 07, R264; file 08, R273, R290;
file 09, R342; file 10, R354). A failing condition is the list of the rows that take part in it; a row is named by its rowKey. -/

namespace Sys2Proof.Machine

open Sys2Proof

/-! ### Rows in the order of R74 -/

/-- Block pages, then region-common pages, then PRT, then WNG. -/
def cueClass (pg : Nat) : Nat :=
  match pageInfo pg with
  | some ⟨_, _, some _, some _⟩ => 0
  | some ⟨_, _, some _, none⟩ => 1
  | some ⟨.prt, _, _, _⟩ => 2
  | _ => 3

def keyPg (k : Nat) : Nat := k / 2 ^ 32

/-- The dirty rows of a requester within the scope of box n's cue (R71, R74). -/
def State.cueRows (s : State) (n who : Nat) : List Nat :=
  let l := (s.dirty.filter (fun x => decide (x.2 = who) && s.pageInScope n (keyPg x.1))).map (·.1)
  (List.range 4).flatMap (fun c => l.filter (fun k => decide (cueClass (keyPg k) = c)))

/-- An entry of a stored copy of the tables. -/
def tabGet (m : SMap Nat) (pg : Nat) (t : Tab) (e : Nat) : Nat := m.get (t.resetEntry e) (tkey pg t e)

/-- The committed image with the rows of a cue applied (R74). -/
def State.cueImage (s : State) (rows : List Nat) : SMap Nat :=
  rows.foldl (fun m k =>
    match dirtyRow k with
    | some (pg, t, row) =>
      let e := row / t.rows
      m.set (t.resetEntry e) (tkey pg t e) (putRow t (tabGet m pg t e) row (s.stagedRow pg t row))
    | none => m) s.tabs

/-- What a check sees: the image, the committed copy, and the cue's rows in order. -/
structure CueView where
  m : SMap Nat
  old : SMap Nat
  rows : List Nat

/-- The first of the cue's rows that takes part in any of the failing conditions (R597). -/
def CueView.first (v : CueView) (rels : List (List Nat)) : Option Nat := v.rows.find? (fun k => rels.any (·.contains k))

/-- A running total (R597): items that no row of the cue changes count first, the others at their first row of the cue. The row at
which the total first exceeds the limit; where the unchanged items alone exceed it, the first row that sets the limit. -/
def overrun (rows : List Nat) (items : List (Nat × List Nat)) (limit : Nat) (setters : List Nat) : Option Nat :=
  let place (x : Nat × List Nat) : Option Nat := rows.find? (x.2.contains ·)
  let base := ((items.filter (fun x => (place x).isNone)).map (·.1)).sum
  if limit < base then rows.find? (setters.contains ·)
  else
    let at' (k : Nat) : Nat := ((items.filter (fun x => decide (place x = some k))).map (·.1)).sum
    (rows.foldl (fun (a : Nat × Option Nat) k => let n := a.1 + at' k; (n, if a.2.isNone && decide (limit < n) then some k else a.2)) (base, none)).2

/-- Pairs of different positions of a list. -/
def pairsOf {α : Type} : List α → List (α × α)
  | [] => []
  | x :: l => l.map (fun y => (x, y)) ++ pairsOf l

/-- The cue's rows of a table of a page whose committed entry met a condition. -/
def CueView.were (v : CueView) (pg : Nat) (t : Tab) (p : Nat → Nat → Bool) : List Nat :=
  v.rows.filter (fun k =>
    match dirtyRow k with
    | some (pg', t', row) => decide (pg' = pg ∧ t'.code = t.code) && p (row / t'.rows) (tabGet v.old pg t (row / t'.rows))
    | none => false)

/-! ### Reading the image -/

/-- The valid entries of a table whose valid bit is bit 0. -/
def CueView.valid (v : CueView) (pg : Nat) (t : Tab) : List (Nat × Nat) := (listed v.m pg t).filter (fun x => bit x.2 0)
def CueView.at (v : CueView) (pg : Nat) (t : Tab) (e : Nat) : Nat := tabGet v.m pg t e

/-- The rows of the CTX entry at a slot. -/
def ctxR0 (B d e : Nat) : Nat := rowKey (pgOd B d) T_CTX (2 * e)
def ctxR1 (B d e : Nat) : Nat := rowKey (pgOd B d) T_CTX (2 * e + 1)
def ctxR (B d e : Nat) : List Nat := [ctxR0 B d e, ctxR1 B d e]

def CueView.ctx (v : CueView) (B d e : Nat) : Nat := v.at (pgOd B d) T_CTX e
def CueView.ctxs (v : CueView) (B d : Nat) : List (Nat × Nat) := v.valid (pgOd B d) T_CTX
/-- The valid contexts of a region: block, slot, entry. -/
def CueView.rctxs (v : CueView) (r d : Nat) : List (Nat × Nat × Nat) :=
  (List.range 8).flatMap (fun b => (v.ctxs (8 * r + b) d).map (fun x => (8 * r + b, x)))
/-- The valid context with a region context index. -/
def CueView.findCtx (v : CueView) (r d x : Nat) : Option (Nat × Nat × Nat) := (v.rctxs r d).find? (fun c => decide (efield c.2.2 CTX.ctx = x))
/-- The rows of the contexts that have, or had, an index. -/
def CueView.ctxRowsOf (v : CueView) (r d x : Nat) : List Nat :=
  ((v.rctxs r d).filter (fun c => decide (efield c.2.2 CTX.ctx = x))).flatMap (fun c => ctxR c.1 d c.2.1) ++
  (List.range 8).flatMap (fun b => v.were (pgOd (8 * r + b) d) T_CTX (fun _ w => bit w 0 && decide (efield w CTX.ctx = x)))

def laneRow (n : Nat) : Nat := rowKey (pgLln n) T_LANE_CFG 0
def ifRow (d : Nat) : Nat := rowKey (pgOtu d) T_OTU_IF 0
def ethRow (n : Nat) : Nat := rowKey (pgEth n) T_ETH_CFG 0
def CueView.lane (v : CueView) (n : Nat) : Nat := v.at (pgLln n) T_LANE_CFG 0
def CueView.otuIf (v : CueView) (d : Nat) : Nat := v.at (pgOtu d) T_OTU_IF 0
def CueView.eth (v : CueView) (n : Nat) : Nat := v.at (pgEth n) T_ETH_CFG 0

/-- The first lane of the interface of a slice's row, and its slices in position order; none where n and lane0 break R124. -/
def CueView.ifLane0 (v : CueView) (d : Nat) : Nat := 4 * (d / 16) + efield (v.otuIf d) OTU_IF.lane0
def CueView.ifSlices (v : CueView) (d : Nat) : List Nat :=
  let w := v.otuIf d
  let l := v.lane (v.ifLane0 d)
  let i := instOfRate (efield l LANE_CFG.rate)
  let n := efield w OTU_IF.n_m1 + 1
  if efield l LANE_CFG.typ ≠ 0 ∨ efield l LANE_CFG.rate = 3 ∨ 4 < efield w OTU_IF.lane0 + (n + i - 1) / i then []
  else (List.range n).map (slotSlice (16 * (d / 16) + 4 * efield w OTU_IF.lane0) i)
/-- The lanes of that interface. -/
def CueView.ifLanes (v : CueView) (d : Nat) : List Nat := ((v.ifSlices d).map sliceLane).eraseDups
/-- The slices of the OTUCn that slice d leads, if it leads one. -/
def CueView.otuc (v : CueView) (d : Nat) : List Nat :=
  if efieldb (v.otuIf d) OTU_IF.member ∧ (v.ifSlices d).head? = some d then v.ifSlices d else []

/-! ### Tables ODU-2 and ODU-4 -/

def ceilDiv (a b : Nat) : Nat := (a + b - 1) / b

/-- 5G slots of an ODUflex: the smallest n with n × 5,240,886 ≥ flex_kbps × 1.0001. -/
def flexSlots5 (flex : Nat) : Nat := ceilDiv (flex * 10001) (5240886 * 10000)
/-- 1.25G slots of an ODUflex in a carrier, by the GMP capacity of one slot. -/
def flexSlots1 (carrier flex : Nat) : Nat :=
  match odtuServer carrier 1 with
  | some (w, pm, frames) => let r := oduRate carrier 0 0; ceilDiv (flex * 10001 * (r.2 * 122368 * frames)) (10000 * (w * pm * 8 * r.1))
  | none => 0

/-- Slots of a parent. -/
def parentSlots (typ : Nat) : Nat := if typ = 2 then 8 else if typ = 4 then 32 else if typ = 5 then 80 else 0

/-- n_ts of a stage-one context. -/
def stage1Slots (typ flex : Nat) : Option Nat :=
  [some 1, some 1, some 2, some 2, some 8, some 20, some (flexSlots5 flex)].getD typ none

/-- n_ts and the highest tpn of a stage-two context in a carrier. -/
def stage2Rule (typ carrier flex : Nat) : Option (Nat × Nat) :=
  let all := parentSlots carrier
  if all = 0 then none
  else if typ = 0 then some (1, all)
  else if typ = 1 then some (2, if carrier = 2 then 4 else if carrier = 4 then 16 else 80)
  else if typ = 2 then (if carrier = 4 then some (8, 4) else if carrier = 5 then some (8, 80) else none)
  else if typ = 3 then (if carrier = 4 then some (9, 32) else if carrier = 5 then some (8, 80) else none)
  else if typ = 4 then (if carrier = 5 then some (31, 80) else none)
  else if typ = 6 then some (flexSlots1 carrier flex, all)
  else none

/-- The type is allowed at the stage (Table ODU-2). -/
def stageOk (typ stage : Nat) : Bool :=
  if stage = 0 then decide (typ = 8) else if stage = 1 then decide (typ ≤ 6) else decide (stage = 2 ∧ typ ≤ 6 ∧ typ ≠ 5)

/-! ### Check 6: contexts and points -/

/-- Range conditions on the first row of a valid CTX entry (Table ODU-5). -/
def ctxRange0 (d w : Nat) : Bool :=
  let f (x : TField) : Nat := efield w x
  let b (x : TField) : Bool := efieldb w x
  let modes := (List.range 7).map (modeOfSlot (f CTX.mp_mode))
  !stageOk (f CTX.odu_type) (f CTX.stage) ||
  (b CTX.ho && !(decide (f CTX.stage = 1) && decide (parentSlots (f CTX.odu_type) ≠ 0))) ||
  decide (f CTX.odu_type = 6 ∧ f CTX.flex_kbps < 1000000) ||
  (decide (d = 0) && modes.contains 3) || (decide (f CTX.stage = 0) && decide (f CTX.mp_mode ≠ 0)) ||
  decide (2 ≤ b2n (b CTX.force_ais) + b2n (b CTX.force_lck) + b2n (b CTX.force_oci)) ||
  (decide (d = 0) && (b CTX.force_lck || b CTX.force_oci)) || (b CTX.stamp_en && decide (f CTX.stage = 0)) ||
  decide (f CTX.aps_level = 7) || (decide (d = 1) && b CTX.client && decide (modeOfSlot (f CTX.mp_mode) 0 = 0))

/-- Range conditions on the second row. -/
def ctxRange1 (d w : Nat) : Bool := (decide (d = 0) && efieldb w CTX.src_sel) || (decide (d = 1) && efieldb w CTX.pair_en)

/-- Range conditions of one valid context: its rows, its number of slots, and R273. -/
def CueView.ctxRange (v : CueView) (B d e w : Nat) : List (List Nat) :=
  let stage := efield w CTX.stage
  let typ := efield w CTX.odu_type
  let flex := efield w CTX.flex_kbps
  let p := v.ctx B d (efield w CTX.parent)
  (if ctxRange0 d w then [[ctxR0 B d e]] else []) ++ (if ctxRange1 d w then [[ctxR1 B d e]] else []) ++
  (if d = 0 ∧ efieldb w CTX.stamp_en ∧ !efieldb w CTX.flow_en then [ctxR B d e] else []) ++
  (if stage = 0 then (if efield w CTX.n_ts ≠ 0 then [[ctxR0 B d e]] else [])
   else if stage = 1 then (if stage1Slots typ flex ≠ some (efield w CTX.n_ts) then [[ctxR0 B d e]] else [])
   else if efieldb p CTX.valid ∧ efieldb p CTX.ho ∧ (stage2Rule typ (efield p CTX.odu_type) flex).map (·.1) ≠ some (efield w CTX.n_ts) then
    [[ctxR0 B d e, ctxR0 B d (efield w CTX.parent)]]
   else [])

/-- A used TS row whose tpn lies outside Table ODU-4. -/
def CueView.tpnRange (v : CueView) (B d : Nat) (t : Tab) (x w : Nat) : List (List Nat) :=
  let o := v.ctx B d (efield w TS1.owner)
  let p := v.ctx B d (efield o CTX.parent)
  let tpn := efield w TS1.tpn
  if !efieldb o CTX.valid then []
  else if efield o CTX.stage = 1 then
    let lead := 16 * B + efield p CTX.lead
    let n := (v.otuc lead).length
    if n ≠ 0 ∧ !decide (1 ≤ tpn ∧ tpn ≤ 20 * n) then
      [[rowKey (pgOd B d) t x, ctxR0 B d (efield w TS1.owner), ctxR1 B d (efield o CTX.parent), ifRow lead]]
    else []
  else if efield o CTX.stage = 2 then
    match stage2Rule (efield o CTX.odu_type) (efield p CTX.odu_type) (efield o CTX.flex_kbps) with
    | some (_, hi) =>
      if 1 ≤ tpn ∧ tpn ≤ hi then [] else [[rowKey (pgOd B d) t x, ctxR0 B d (efield w TS1.owner), ctxR0 B d (efield o CTX.parent)]]
    | none => []
  else []

/-! ### Check 6: the rows of one page -/

/-- Range conditions on the content of one row of the cue: of a table other than CTX and TS. -/
def CueView.rowRange (v : CueView) (k : Nat) : Bool :=
  match dirtyRow k with
  | none => false
  | some (pg, t, row) =>
    let e := row / t.rows
    let w := v.at pg t e
    let f (x : TField) : Nat := efield w x
    match pageInfo pg with
    | none => false
    | some i =>
      match i.typ with
      | .lln => if f LANE_CFG.typ = 0 then decide (f LANE_CFG.rate = 3) else decide (2 ≤ f LANE_CFG.rate)
      | .otu =>
        decide (t.code = T_OTU_IF.code) &&
        (decide (f OTU_IF.n_fas = 0 ∨ f OTU_IF.m_fas = 0 ∨ f OTU_IF.n_mf = 0 ∨ f OTU_IF.m_mf = 0 ∨ f OTU_IF.lof_ms = 0 ∨
          f OTU_IF.lom_ms = 0 ∨ f OTU_IF.fas_bytes = 3) ||
          (let d := 16 * (8 * i.region.getD 0 + i.block.getD 0) + i.inst
           let k := instOfRate (efield (v.lane (v.ifLane0 d)) LANE_CFG.rate)
           decide (4 < f OTU_IF.lane0 + (f OTU_IF.n_m1 + k) / k) || (efieldb w OTU_IF.member && (v.ifSlices d).isEmpty)))
      | .mpt =>
        if t.code = T_SHP.code then
          decide (e < 16) || (efieldb w SHP.valid && decide (f SHP.kind = 0 ∨ f SHP.kind = 3 ∨ f SHP.level = 7))
        else decide (e < 16384 ∧ e % 8 = 7 ∧ rowOf t w row ≠ 0)
      | .dmp | .map =>
        decide (2 ≤ f CLI_CFG.tol) ||
        (efieldb w CLI_CFG.en && decide (7 ≤ f CLI_CFG.client)) || decide (f CLI_CFG.client = 6 ∧ f CLI_CFG.cbr_kbps < 100000)
      | .sel =>
        decide (t.code = T_ESG_CFG.code) && efieldb w ESG_CFG.valid &&
        (let arch := f ESG_CFG.arch
         let prov := f ESG_CFG.prov
         let al := efieldb w ESG_CFG.aligned
         decide (f ESG_CFG.snc = 3 ∨ f ESG_CFG.wtr = 0 ∨ 13 ≤ f ESG_CFG.wtr ∨ 1000 < f ESG_CFG.holdoff ∨ f ESG_CFG.conf = 0 ∨ prov = 3) ||
         decide (prov = 2 ∧ arch ≠ 0) || (decide (arch = 0) && (decide (prov = 2) || (decide (prov = 0) && al)) &&
           decide (f ESG_CFG.conf ≤ f ESG_CFG.holdoff * 10)) ||
         (!efieldb w ESG_CFG.aps_en && decide (arch ≠ 0)) || (al && decide (arch ≠ 0)))
      | .isl =>
        efieldb w ISG_CFG.valid &&
        (let arch := f ISG_CFG.arch
         let prov := f ISG_CFG.prov
         decide (f ISG_CFG.snc = 3 ∨ f ISG_CFG.wtr = 0 ∨ 13 ≤ f ISG_CFG.wtr ∨ 1000 < f ISG_CFG.holdoff ∨ f ISG_CFG.conf = 0 ∨ prov = 3) ||
         decide (prov = 2 ∧ arch ≠ 0) || decide (arch = 0 ∧ prov = 2 ∧ f ISG_CFG.conf ≤ f ISG_CFG.holdoff * 10) ||
         (!efieldb w ISG_CFG.aps_en && decide (arch ≠ 0)))
      | .prt => efieldb w APS_CFG.valid && decide (f APS_CFG.age_ms < 5)
      | .wng =>
        efieldb w WGRP_CFG.valid && decide (5 < f WGRP_CFG.stack ∨ f WGRP_CFG.max_delay = 0 ∨ 320 < f WGRP_CFG.max_delay ∨
          f WGRP_CFG.rate_kbps < 1000000)
      | .fyl => decide (f LINK_CFG.role = 3 ∨ 8192 < f LINK_CFG.units0 + f LINK_CFG.units1)
      | .fyt | .fyr =>
        efieldb w TXF_CFG.valid && decide (f TXF_CFG.rate_kbps < 100000 ∨ (f TXF_CFG.kind = 1 ∧ 7 ≤ f TXF_CFG.client) ∨
          (f TXF_CFG.short = 1 ∧ 10000000 ≤ f TXF_CFG.rate_kbps))
      | .ohq =>
        efieldb w CHN.valid &&
        (let l := if f CHN.mode = 0 then f CHN.max_len else if f CHN.mode = 1 then f CHN.raw_len_m1 + 1 else 4
         decide (5 ≤ f CHN.src ∨ f CHN.mode = 3 ∨ f CHN.fcs = 3 ∨ f CHN.level = 7 ∨ f CHN.max_len < 16) ||
         (decide (f CHN.mode = 2) != decide (f CHN.src = 4)) || decide (f CHN.src = 0 ∧ 15 < f CHN.idx) ||
         decide (2048 < f CHN.base + f CHN.size ∨ f CHN.size * 256 < 2 * (ceilDiv l 3 + 1)))
      | _ => false

/-- Every failing condition of check 6. -/
def CueView.rangeRels (v : CueView) : List (List Nat) :=
  ((v.rows.filter v.rowRange).map ([·])) ++
  (List.range 64).flatMap (fun B => [0, 1].flatMap (fun d =>
    (v.ctxs B d).flatMap (fun x => v.ctxRange B d x.1 x.2) ++
    [T_TS1, T_TS2].flatMap (fun t => (v.valid (pgOd B d) t).flatMap (fun x => v.tpnRange B d t x.1 x.2))))

/-! ### Check 7 -/

/-- The running counts of a region's contexts, which name an entry by its first row (R166), and of a block's parents, which name the
dirty row (Table ODU-5, R597). -/
def CueView.pool (v : CueView) : Option Nat :=
  let ctxItems (r d : Nat) : List (Nat × List Nat) := (v.rctxs r d).map (fun c => (1, ctxR c.1 d c.2.1))
  let hoItems (B d : Nat) : List (Nat × List Nat) := ((v.ctxs B d).filter (fun x => efieldb x.2 CTX.ho)).map (fun x => (1, ctxR B d x.1))
  let pools := [0, 1].flatMap (fun d => (List.range 8).filterMap (fun r => overrun v.rows (ctxItems r d) 4096 []))
  let parents := [0, 1].flatMap (fun d => (List.range 64).filterMap (fun B => overrun v.rows (hoItems B d) 64 []))
  (v.rows.find? (fun k => pools.contains k || parents.contains k)).map (fun k => if pools.contains k then k / 2 * 2 else k)

/-! ### Check 8: lanes and interfaces -/

/-- The LANE_CFG conditions of R87 that join lanes. -/
def CueView.laneRels (v : CueView) (refType : Nat → Nat) : List (List Nat) :=
  let typ (n : Nat) : Nat := efield (v.lane n) LANE_CFG.typ
  ((List.range 256).filter (fun n => decide (typ n ≠ refType n))).map (fun n => [laneRow n]) ++
  (List.range 32).flatMap (fun g => ((pairsOf ((List.range 8).map (8 * g + ·))).filter (fun p => decide (typ p.1 ≠ typ p.2))).map (fun p =>
    [laneRow p.1, laneRow p.2]))

/-- The OTU_IF conditions of R126 in a block. -/
def CueView.otuRels (v : CueView) (B : Nat) : List (List Nat) :=
  let members := ((List.range 16).map (16 * B + ·)).filter (fun d => efieldb (v.otuIf d) OTU_IF.member)
  members.flatMap (fun d =>
    let ss := v.ifSlices d
    let l0 := v.ifLane0 d
    let lead := 16 * B + 4 * efield (v.otuIf d) OTU_IF.lane0
    if ss.isEmpty then [[laneRow l0, ifRow d]]
    else
      (if ss.contains d then [] else [[ifRow d, laneRow l0]]) ++ (if v.otuIf d = v.otuIf lead then [] else [[ifRow d, ifRow lead]]) ++
      (ss.filter (fun k => !efieldb (v.otuIf k) OTU_IF.member)).map (fun k => [ifRow d, ifRow k, laneRow l0]) ++
      ((v.ifLanes d).filter (fun n => decide (v.lane n ≠ v.lane l0))).map (fun n => [laneRow n, laneRow l0, ifRow d])) ++
  ((pairsOf members).filter (fun p => decide (v.ifLane0 p.1 ≠ v.ifLane0 p.2) && (v.ifLanes p.1).any ((v.ifLanes p.2).contains ·))).map (fun p =>
    [ifRow p.1, ifRow p.2, laneRow (v.ifLane0 p.1), laneRow (v.ifLane0 p.2)])

/-! ### Check 8: contexts and slots (Table ODU-5) -/

def CueView.ctxRels (v : CueView) (B d : Nat) : List (List Nat) :=
  let pg := pgOd B d
  let C := v.ctxs B d
  let stage (w : Nat) : Nat := efield w CTX.stage
  let lead (w : Nat) : Nat := 16 * B + efield w CTX.lead
  let ts1 := v.valid pg T_TS1
  let ts2 := v.valid pg T_TS2
  let own (t : Tab) (rows : List (Nat × Nat)) (e : Nat) : List (Nat × Nat) :=
    (rows.filter (fun x => decide (efield x.2 TS1.owner = e))).map (fun x => (rowKey pg t x.1, efield x.2 TS1.tpn))
  -- carriers, parents and stage-zero entries
  C.flatMap (fun x =>
    let p := v.ctx B d (efield x.2 CTX.parent)
    let rel := [ctxR0 B d x.1, ctxR0 B d (efield x.2 CTX.parent)]
    if stage x.2 = 0 then (if (v.otuc (lead x.2)).isEmpty then [ctxR B d x.1 ++ [ifRow (lead x.2)]] else [])
    else if stage x.2 = 1 then (if efieldb p CTX.valid ∧ stage p = 0 then [] else [rel])
    else if efieldb p CTX.valid ∧ efieldb p CTX.ho then [] else [rel]) ++
  ((pairsOf C).filter (fun p => (efieldb p.1.2 CTX.ho && efieldb p.2.2 CTX.ho && decide (efield p.1.2 CTX.ho_handle = efield p.2.2 CTX.ho_handle)))).map
    (fun p => [ctxR0 B d p.1.1, ctxR0 B d p.2.1]) ++
  ((pairsOf C).filter (fun p => decide (stage p.1.2 = 0 ∧ stage p.2.2 = 0 ∧ lead p.1.2 = lead p.2.2))).map
    (fun p => ctxR B d p.1.1 ++ ctxR B d p.2.1) ++
  -- used slots
  ts1.flatMap (fun x =>
    let o := v.ctx B d (efield x.2 TS1.owner)
    let z := v.ctx B d (efield o CTX.parent)
    if efieldb o CTX.valid ∧ stage o = 1 ∧ efieldb z CTX.valid ∧ stage z = 0 ∧ (v.otuc (lead z)).contains (16 * B + x.1 / 20) then []
    else [[rowKey pg T_TS1 x.1, ctxR0 B d (efield x.2 TS1.owner)] ++ ctxR B d (efield o CTX.parent) ++ [ifRow (16 * B + x.1 / 20)]]) ++
  ts2.flatMap (fun x =>
    let o := v.ctx B d (efield x.2 TS1.owner)
    let p := v.ctx B d (efield o CTX.parent)
    if efieldb o CTX.valid ∧ stage o = 2 ∧ efieldb p CTX.valid ∧ efieldb p CTX.ho ∧ efield p CTX.ho_handle = x.1 / 80 ∧
        x.1 % 80 < parentSlots (efield p CTX.odu_type) then []
    else [[rowKey pg T_TS2 x.1, ctxR0 B d (efield x.2 TS1.owner), ctxR0 B d (efield o CTX.parent)]]) ++
  C.flatMap (fun x =>
    if stage x.2 = 0 then []
    else
      let rows := own T_TS1 ts1 x.1 ++ own T_TS2 ts2 x.1
      let had (t : Tab) : List Nat := v.were pg t (fun _ w => efieldb w TS1.used && decide (efield w TS1.owner = x.1))
      if rows.length = efield x.2 CTX.n_ts ∧ rows.all (fun y => decide (some y.2 = (rows.head?).map (·.2))) then []
      else [[ctxR0 B d x.1] ++ rows.map (·.1) ++ had T_TS1 ++ had T_TS2]) ++
  ((pairsOf ts1).filter (fun p => decide (efield p.1.2 TS1.owner ≠ efield p.2.2 TS1.owner ∧ efield p.1.2 TS1.tpn = efield p.2.2 TS1.tpn ∧
      efield (v.ctx B d (efield p.1.2 TS1.owner)) CTX.parent = efield (v.ctx B d (efield p.2.2 TS1.owner)) CTX.parent))).map
    (fun p => [rowKey pg T_TS1 p.1.1, rowKey pg T_TS1 p.2.1]) ++
  ((pairsOf ts2).filter (fun p => decide (efield p.1.2 TS1.owner ≠ efield p.2.2 TS1.owner ∧ efield p.1.2 TS1.tpn = efield p.2.2 TS1.tpn ∧
      p.1.1 / 80 = p.2.1 / 80))).map (fun p => [rowKey pg T_TS2 p.1.1, rowKey pg T_TS2 p.2.1])

/-- Two contexts of one region and direction with one index. -/
def CueView.indexRels (v : CueView) (r d : Nat) : List (List Nat) :=
  ((pairsOf (v.rctxs r d)).filter (fun p => decide (efield p.1.2.2 CTX.ctx = efield p.2.2.2 CTX.ctx))).map (fun p =>
    [ctxR0 p.1.1 d p.1.2.1, ctxR0 p.2.1 d p.2.2.1])

/-- Two ingress contexts that name one pair_ctx (R182). -/
def CueView.pairRels (v : CueView) : List (List Nat) :=
  let l := ((List.range 8).flatMap (fun r => v.rctxs r 0)).filter (fun c => efieldb c.2.2 CTX.pair_en)
  ((pairsOf l).filter (fun p => decide (efield p.1.2.2 CTX.pair_ctx = efield p.2.2.2 CTX.pair_ctx))).map (fun p =>
    [ctxR1 p.1.1 0 p.1.2.1, ctxR1 p.2.1 0 p.2.2.1])

/-- The SHP rows of a block (R175). -/
def CueView.shpRels (v : CueView) (B : Nat) : List (List Nat) :=
  let row (q : Nat) : Nat := rowKey (pgMpt B) T_SHP q
  let S := v.valid (pgMpt B) T_SHP
  let f (x : Nat × Nat) (t : TField) : Nat := efield x.2 t
  S.flatMap (fun x =>
    let d := f x SHP.dir
    let w := v.ctx B d (f x SHP.target)
    if efieldb w CTX.valid ∧ !(decide (f x SHP.kind = 1 ∧ efield w CTX.stage ≠ 0)) then [] else [[row x.1, ctxR0 B d (f x SHP.target)]]) ++
  ((pairsOf S).filter (fun p => decide (f p.1 SHP.kind = 1 ∧ f p.2 SHP.kind = 1 ∧ f p.1 SHP.dir = f p.2 SHP.dir ∧ f p.1 SHP.target = f p.2 SHP.target ∧
      f p.1 SHP.level = f p.2 SHP.level))).map (fun p => [row p.1.1, row p.2.1])

/-! ### Check 8: clients -/

/-- The ODU type of a client's container (Table MAP-1). -/
def containerOk (code typ : Nat) : Bool :=
  if code = 0 then decide (typ = 3) else if code = 1 then decide (typ = 5) else if code ≤ 5 then decide (typ = 6)
  else decide (code = 6 ∧ typ ≤ 5 ∧ typ ≠ 3)

/-- flex_kbps of an IMP client's context (Table MAP-10). -/
def impFlex (code : Nat) : Option Nat := [none, none, some 103558298, some 207116597, some 414233193, some 828466387].getD code none

def rxRow (r i : Nat) : Nat := rowKey (pgFyr r) T_RXF_CFG i
def txRow (r i : Nat) : Nat := rowKey (pgFyt r) T_TXF_CFG i
def esgRow (r i : Nat) : Nat := rowKey (pgSel r) T_ESG_CFG i
def brgRow (r i : Nat) : Nat := rowKey (pgSel r) T_BRG_CFG i
def isgRow (r i : Nat) : Nat := rowKey (pgIsl r) T_ISG_CFG i
def CueView.rxf (v : CueView) (r i : Nat) : Nat := v.at (pgFyr r) T_RXF_CFG i
def CueView.txf (v : CueView) (r i : Nat) : Nat := v.at (pgFyt r) T_TXF_CFG i
def CueView.esg (v : CueView) (r i : Nat) : Nat := v.at (pgSel r) T_ESG_CFG i

/-- The receive flows behind a flow or group, and the rows that say so. -/
def CueView.feeds (v : CueView) (r : Nat) (sel : Bool) (i : Nat) : List Nat × List Nat :=
  if sel then
    let w := v.esg r i
    let l := [efield w ESG_CFG.w_flow, efield w ESG_CFG.p_flow]
    (l, esgRow r i :: l.map (rxRow r))
  else ([i], [rxRow r i])

/-- The flow or group is not a client flow of a code. -/
def CueView.notClient (v : CueView) (r : Nat) (sel : Bool) (i code : Nat) : Bool :=
  (sel && !efieldb (v.esg r i) ESG_CFG.valid) ||
  (v.feeds r sel i).1.any (fun k => !(efieldb (v.rxf r k) RXF_CFG.valid && decide (efield (v.rxf r k) RXF_CFG.kind = 1 ∧ efield (v.rxf r k) RXF_CFG.client = code)))

/-- CLI_CFG rows of a block's direction (Table MAP-11). -/
def CueView.cliRels (v : CueView) (B d : Nat) : List (List Nat) :=
  let row (e : Nat) : Nat := rowKey (pgCli B d) T_CLI_CFG e
  let cli (e : Nat) : Nat := v.at (pgCli B d) T_CLI_CFG e
  ((v.valid (pgCli B d) T_CLI_CFG).filter (fun x => let w := v.ctx B d x.1; !(efieldb w CTX.valid && efieldb w CTX.client))).map
    (fun x => [ctxR0 B d x.1, row x.1]) ++
  ((v.ctxs B d).filter (fun x => efieldb x.2 CTX.client)).flatMap (fun x =>
    let c := cli x.1
    let code := efield c CLI_CFG.client
    if !efieldb c CLI_CFG.en then [[ctxR0 B d x.1, row x.1]]
    else
      (if containerOk code (efield x.2 CTX.odu_type) then [] else [[ctxR0 B d x.1, row x.1]]) ++
      (match impFlex code with
        | some n => if efield x.2 CTX.flex_kbps = n then [] else [[ctxR0 B d x.1, row x.1]]
        | none => []) ++
      (if d = 1 ∧ efieldb x.2 CTX.flow_en ∧ v.notClient (B / 8) (efieldb x.2 CTX.src_sel) (efield x.2 CTX.flow) code then
        [ctxR B d x.1 ++ [row x.1] ++ (v.feeds (B / 8) (efieldb x.2 CTX.src_sel) (efield x.2 CTX.flow)).2]
       else []))

/-- The client code of a line client (Table MAP-6). -/
def lineCode (client : Nat) : Nat := if client = 0 then 1 else client + 2

/-- The lanes of the client that a lane leads. -/
def CueView.ethLanesOf (v : CueView) (n : Nat) : List Nat :=
  let l := ethLanes (efield (v.eth n) ETH_CFG.client) (efield (v.lane n) LANE_CFG.rate)
  (List.range l).map (n + ·)

/-- ETH_CFG rows of a block (R214), but for tx_flow. -/
def CueView.ethRels (v : CueView) (B : Nat) : List (List Nat) :=
  let leads := ((List.range 4).map (4 * B + ·)).filter (fun n => efieldb (v.eth n) ETH_CFG.en)
  leads.flatMap (fun n =>
    let w := v.eth n
    let ls := v.ethLanesOf n
    (if efield (v.lane n) LANE_CFG.typ ≠ 1 ∨ ls.isEmpty ∨ 4 < n % 4 + ls.length then [[laneRow n, ethRow n]] else []) ++
    (ls.filter (fun k => decide (k / 4 = B) && decide (v.lane k ≠ v.lane n))).map (fun k => [laneRow k, laneRow n, ethRow n]) ++
    (if efieldb w ETH_CFG.rx_en ∧ v.notClient (B / 8) (efieldb w ETH_CFG.rx_sel) (efield w ETH_CFG.rx) (lineCode (efield w ETH_CFG.client)) then
      [ethRow n :: (v.feeds (B / 8) (efieldb w ETH_CFG.rx_sel) (efield w ETH_CFG.rx)).2] else [])) ++
  ((pairsOf leads).filter (fun p => (v.ethLanesOf p.1).any ((v.ethLanesOf p.2).contains ·))).map (fun p =>
    [laneRow p.1, laneRow p.2, ethRow p.1, ethRow p.2])

/-! ### Check 8: transmit flows and their sources (Table FYB-12) -/

/-- A source's stream: kind and client code, nominal rate, stamped. -/
structure SrcForm where
  kind : Nat
  code : Nat
  rate : Nat
  stamped : Bool

/-- A context as a source: the flow rate of its client, or the rate of its ODU in whole kbit/s. -/
def CueView.formOf (v : CueView) (B e w : Nat) : SrcForm :=
  if efieldb w CTX.client then
    let c := v.at (pgDmp B) T_CLI_CFG e
    ⟨1, efield c CLI_CFG.client, flowRate (efield c CLI_CFG.client) (efield c CLI_CFG.cbr_kbps), efieldb w CTX.stamp_en⟩
  else
    let r := oduRate (efield w CTX.odu_type) (v.otuc (16 * B + efield w CTX.lead)).length (efield w CTX.flex_kbps)
    ⟨0, 0, (2 * r.1 + r.2) / (2 * r.2), efieldb w CTX.stamp_en⟩

/-- The sources of a region's transmit flows: the flow, the rows that make them so, and the streams. -/
def CueView.sources (v : CueView) (r : Nat) : List (Nat × List Nat × List SrcForm) :=
  ((v.rctxs r 0).filter (fun c => efieldb c.2.2 CTX.flow_en)).map (fun c =>
    (efield c.2.2 CTX.flow, ctxR c.1 0 c.2.1 ++ [rowKey (pgDmp c.1) T_CLI_CFG c.2.1], [v.formOf c.1 c.2.1 c.2.2])) ++
  (((List.range 32).map (32 * r + ·)).filter (fun n => efieldb (v.eth n) ETH_CFG.en && efieldb (v.eth n) ETH_CFG.tx_en)).map (fun n =>
    let code := lineCode (efield (v.eth n) ETH_CFG.client)
    (efield (v.eth n) ETH_CFG.tx_flow, [ethRow n], [⟨1, code, flowRate code 0, false⟩])) ++
  (v.valid (pgIsl r) T_ISG_CFG).map (fun x =>
    let legs := [efield x.2 ISG_CFG.w_ctx, efield x.2 ISG_CFG.p_ctx]
    (efield x.2 ISG_CFG.out_flow, isgRow r x.1 :: legs.flatMap (v.ctxRowsOf r 0),
      legs.filterMap (fun l => (v.findCtx r 0 l).map (fun c => v.formOf c.1 c.2.1 c.2.2))))

/-- The rows of the cue that fed a flow before. -/
def CueView.fed (v : CueView) (r i : Nat) : List Nat :=
  (List.range 8).flatMap (fun b => v.were (pgOdi (8 * r + b)) T_CTX (fun _ w => bit w 0 && efieldb w CTX.flow_en && decide (efield w CTX.flow = i))) ++
  (List.range 32).flatMap (fun n => v.were (pgEth (32 * r + n)) T_ETH_CFG (fun _ w => bit w 0 && efieldb w ETH_CFG.tx_en && decide (efield w ETH_CFG.tx_flow = i))) ++
  v.were (pgIsl r) T_ISG_CFG (fun _ w => bit w 0 && decide (efield w ISG_CFG.out_flow = i))

/-- Transmit flows of a region. -/
def CueView.txRels (v : CueView) (r : Nat) : List (List Nat) :=
  let S := v.sources r
  ((pairsOf S).filter (fun p => decide (p.1.1 = p.2.1))).map (fun p => txRow r p.1.1 :: (p.1.2.1 ++ p.2.2.1)) ++
  (v.valid (pgFyt r) T_TXF_CFG).flatMap (fun x =>
    let mine := S.filter (fun y => decide (y.1 = x.1))
    let rows := txRow r x.1 :: mine.flatMap (fun y => y.2.1)
    let bad (g : SrcForm) : Bool :=
      decide (g.kind ≠ efield x.2 TXF_CFG.kind ∨ g.rate ≠ efield x.2 TXF_CFG.rate_kbps ∨ (g.kind = 1 ∧ g.code ≠ efield x.2 TXF_CFG.client)) ||
      (g.stamped && efieldb x.2 TXF_CFG.short)
    if mine.isEmpty then [rows ++ v.fed r x.1] else if mine.any (fun y => y.2.2.any bad) then [rows] else [])

/-! ### Check 8: selectors, bridges, APS (Table PRT-13) -/

/-- The outputs of a bridge row as block and slot. -/
def brgOut (r w : Nat) : List (Nat × Nat) := [(8 * r + efield w BRG_CFG.w_blk, efield w BRG_CFG.w_slot), (8 * r + efield w BRG_CFG.p_blk, efield w BRG_CFG.p_slot)]

/-- Egress contexts of a region: what feeds them, and stamps behind a switched bridge (Table ODU-5, R273). -/
def CueView.egressRels (v : CueView) (r : Nat) : List (List Nat) :=
  let C := (v.rctxs r 1).filter (fun c => efieldb c.2.2 CTX.flow_en)
  let src (w : Nat) : Nat × Nat := (efield w CTX.src_sel, efield w CTX.flow)
  let bsrc (w : Nat) : Nat × Nat := (efield w BRG_CFG.src_sel, efield w BRG_CFG.src)
  let B := v.valid (pgSel r) T_BRG_CFG
  let joined (a b : Nat × Nat × Nat) : Bool := B.any (fun x => decide (bsrc x.2 = src a.2.2) &&
    (decide (brgOut r x.2 = [(a.1, a.2.1), (b.1, b.2.1)]) || decide (brgOut r x.2 = [(b.1, b.2.1), (a.1, a.2.1)])))
  ((pairsOf C).filter (fun p => decide (src p.1.2.2 = src p.2.2.2) && !joined p.1 p.2)).map (fun p =>
    [ctxR1 p.1.1 1 p.1.2.1, ctxR1 p.2.1 1 p.2.2.1] ++ (B.filter (fun x => decide (bsrc x.2 = src p.1.2.2))).map (fun x => brgRow r x.1) ++
      v.were (pgSel r) T_BRG_CFG (fun _ w => bit w 0 && decide (bsrc w = src p.1.2.2))) ++
  ((v.rctxs r 1).filter (fun c => efieldb c.2.2 CTX.stamp_en)).flatMap (fun c =>
    (B.filter (fun x => efieldb x.2 BRG_CFG.kind && (brgOut r x.2).contains (c.1, c.2.1))).map (fun x => [ctxR0 c.1 1 c.2.1, brgRow r x.1]))

def apsRow (a : Nat) : Nat := rowKey pgPrt T_APS_CFG a

/-- The channel of a group (Table PRT-13). -/
def CueView.apsOk (v : CueView) (G : Nat) (en : Bool) (ch : Nat) : Bool :=
  !en || (let w := v.at pgPrt T_APS_CFG ch; efieldb w APS_CFG.valid && decide (efield w APS_CFG.grp = G))

/-- Egress groups and bridges of a region. -/
def CueView.selRels (v : CueView) (r : Nat) : List (List Nat) :=
  let E := v.valid (pgSel r) T_ESG_CFG
  let B := v.valid (pgSel r) T_BRG_CFG
  let f (x : Nat × Nat) (t : TField) : Nat := efield x.2 t
  let legs (x : Nat × Nat) : List Nat := [f x ESG_CFG.w_flow, f x ESG_CFG.p_flow]
  let sw (x : Nat × Nat) (G : Nat) : Bool := efieldb x.2 BRG_CFG.kind && decide (f x BRG_CFG.grp = G)
  let softArch (G : Nat) : Bool :=
    if G < 16384 then let w := v.esg r (G % 2048); decide (G / 2048 = r) && efieldb w ESG_CFG.valid && decide (2 ≤ efield w ESG_CFG.arch)
    else let w := v.at (pgIsl r) T_ISG_CFG (G % 1024); decide (grpRegion G = r) && efieldb w ISG_CFG.valid && decide (2 ≤ efield w ISG_CFG.arch)
  E.flatMap (fun x =>
    let G := 2048 * r + x.1
    (if f x ESG_CFG.w_flow = f x ESG_CFG.p_flow then [[esgRow r x.1]] else []) ++
    ((legs x).filter (fun i => !efieldb (v.rxf r i) RXF_CFG.valid)).map (fun i => [rxRow r i, esgRow r x.1]) ++
    (if v.apsOk G (efieldb x.2 ESG_CFG.aps_en) (f x ESG_CFG.aps_ch) then [] else [[esgRow r x.1, apsRow (f x ESG_CFG.aps_ch)]]) ++
    (if 2 ≤ f x ESG_CFG.arch ∧ ((B.filter (fun y => sw y G)).length ≠ 1) then
      [esgRow r x.1 :: (B.filter (fun y => sw y G)).map (fun y => brgRow r y.1) ++ v.were (pgSel r) T_BRG_CFG (fun i w => bit w 0 && sw (i, w) G)]
     else []) ++
    (if efieldb x.2 ESG_CFG.aligned ∧ !efieldb (v.at pgWng T_WGRP_CFG (f x ESG_CFG.wgrp)) WGRP_CFG.valid then
      [[esgRow r x.1, rowKey pgWng T_WGRP_CFG (f x ESG_CFG.wgrp)]] else [])) ++
  ((pairsOf E).filter (fun p => (legs p.1).any ((legs p.2).contains ·))).map (fun p => [esgRow r p.1.1, esgRow r p.2.1]) ++
  B.flatMap (fun y =>
    let out := brgOut r y.2
    ((out.filter (fun o => !efieldb (v.ctx o.1 1 o.2) CTX.valid)).map (fun o => [ctxR0 o.1 1 o.2, brgRow r y.1])) ++
    (if out.head? = out.getLast? then [[brgRow r y.1]] else []) ++
    (if efieldb y.2 BRG_CFG.kind ∧ !softArch (f y BRG_CFG.grp) then
      [[brgRow r y.1, if f y BRG_CFG.grp < 16384 then esgRow r (f y BRG_CFG.grp % 2048) else isgRow r (f y BRG_CFG.grp % 1024)]] else []))

/-- The leg's status source agrees with snc. -/
def sncOk (snc w : Nat) : Bool :=
  let l := efield w CTX.ls_level
  let mode := modeOfSlot (efield w CTX.mp_mode) l
  if snc = 0 then decide (l = 7) else if snc = 1 then decide (l = 0 ∨ (1 ≤ l ∧ l ≤ 6 ∧ mode = 2)) else decide (1 ≤ l ∧ l ≤ 6 ∧ mode = 1)

/-- Ingress groups of a region. -/
def CueView.islRels (v : CueView) (r : Nat) : List (List Nat) :=
  let I := v.valid (pgIsl r) T_ISG_CFG
  let legs (x : Nat × Nat) : List Nat := [efield x.2 ISG_CFG.w_ctx, efield x.2 ISG_CFG.p_ctx]
  I.flatMap (fun x =>
    ((legs x).filter (fun l => match v.findCtx r 0 l with
      | some c => efieldb c.2.2 CTX.flow_en || !sncOk (efield x.2 ISG_CFG.snc) c.2.2
      | none => true)).map (fun l => isgRow r x.1 :: v.ctxRowsOf r 0 l) ++
    (if v.apsOk (16384 + 1024 * r + x.1) (efieldb x.2 ISG_CFG.aps_en) (efield x.2 ISG_CFG.aps_ch) then []
     else [[isgRow r x.1, apsRow (efield x.2 ISG_CFG.aps_ch)]])) ++
  ((pairsOf I).filter (fun p => (legs p.1).any ((legs p.2).contains ·))).map (fun p => [isgRow r p.1.1, isgRow r p.2.1])

/-- APS channels: one per group, on contexts that carry APS. -/
def CueView.apsRels (v : CueView) : List (List Nat) :=
  let A := v.valid pgPrt T_APS_CFG
  let carries (d c : Nat) : Bool := match v.findCtx (c / 4096) d (c % 4096) with
    | some x => efieldb x.2.2 CTX.aps_en
    | none => false
  let rel (d a c : Nat) : List (List Nat) := if carries d c then [] else [apsRow a :: v.ctxRowsOf (c / 4096) d (c % 4096)]
  A.flatMap (fun x => rel 0 x.1 (efield x.2 APS_CFG.rx_ctx) ++ rel 1 x.1 (efield x.2 APS_CFG.tx_ctx)) ++
  ((pairsOf A).filter (fun p => decide (efield p.1.2 APS_CFG.grp = efield p.2.2 APS_CFG.grp))).map (fun p => [apsRow p.1.1, apsRow p.2.1])

/-! ### Check 8: links, wings, channels -/

def linkRow (m : Nat) : Nat := rowKey (pgFyl m) T_LINK_CFG 0
def CueView.role (v : CueView) (m : Nat) : Nat := efield (v.at (pgFyl m) T_LINK_CFG 0) LINK_CFG.role

def CueView.linkRels (v : CueView) (r : Nat) : List (List Nat) :=
  (pairsOf ((regionLinks r).filter (fun m => decide (v.role m = roleUnderstudy)))).map (fun p => [linkRow p.1, linkRow p.2])

def wgRow (w : Nat) : Nat := rowKey pgWng T_WGRP_CFG w
/-- Bytes of a stack's alignment space: 21,845 MiB. -/
def stackBytes : Nat := 21845 * 2 ^ 20
/-- B_g of a WGRP_CFG row (R289). -/
def ringBytes (w : Nat) : Nat := blockBytes * ringBlocks (efield w WGRP_CFG.rate_kbps) (efield w WGRP_CFG.max_delay)

/-- Wings groups (Table WNG-5). -/
def CueView.wingRels (v : CueView) : List (List Nat) :=
  let W := v.valid pgWng T_WGRP_CFG
  let lo (w : Nat) : Nat := efield w WGRP_CFG.base * 65536
  let hi (w : Nat) : Nat := lo w + ringBytes w
  let named := (List.range 8).flatMap (fun r => ((v.valid (pgSel r) T_ESG_CFG).filter (fun x => efieldb x.2 ESG_CFG.aligned)).map (fun x => (r, x)))
  W.flatMap (fun x =>
    let mine := named.filter (fun y => decide (efield y.2.2 ESG_CFG.wgrp = x.1))
    let had := (List.range 8).flatMap (fun r => v.were (pgSel r) T_ESG_CFG (fun _ w => bit w 0 && efieldb w ESG_CFG.aligned && decide (efield w ESG_CFG.wgrp = x.1)))
    (if stackBytes < hi x.2 then [[wgRow x.1]] else []) ++
    (if mine.length ≠ 1 then [wgRow x.1 :: mine.map (fun y => esgRow y.1 y.2.1) ++ had] else []) ++
    mine.flatMap (fun y => ([efield y.2.2 ESG_CFG.w_flow, efield y.2.2 ESG_CFG.p_flow].filter (fun i =>
      let q := v.rxf y.1 i
      !(efieldb q RXF_CFG.valid && decide (efield q RXF_CFG.kind = 0 ∧ efield q RXF_CFG.short = 0 ∧ efield q RXF_CFG.rate_kbps = efield x.2 WGRP_CFG.rate_kbps)))).map
        (fun i => [rxRow y.1 i, esgRow y.1 y.2.1, wgRow x.1]))) ++
  ((pairsOf W).filter (fun p => decide (efield p.1.2 WGRP_CFG.stack = efield p.2.2 WGRP_CFG.stack ∧ lo p.1.2 < hi p.2.2 ∧ lo p.2.2 < hi p.1.2))).map (fun p =>
    [wgRow p.1.1, wgRow p.2.1])

/-- The bytes of a source that an insertion row writes (Table OHQ-1). -/
def chnBytes (w : Nat) : Nat := [1, 2, 4, 6, 8].getD (efield w CHN.src) 0

/-- Overhead channels of a region (Table OHQ-3). -/
def CueView.chnRels (v : CueView) (r : Nat) : List (List Nat) :=
  let pg := pgOhq r
  let rows := (v.valid pg T_CAP_CFG).map (fun x => (0, x)) ++ (v.valid pg T_INS_CFG).map (fun x => (1, x))
  let key (x : Nat × Nat × Nat) : Nat := rowKey pg (if x.1 = 0 then T_CAP_CFG else T_INS_CFG) x.2.1
  let f (x : Nat × Nat × Nat) (t : TField) : Nat := efield x.2.2 t
  let slot (x : Nat × Nat × Nat) : Nat × Nat := (8 * r + f x CHN.blk, f x CHN.idx)
  rows.flatMap (fun x =>
    if f x CHN.src = 0 then []
    else
      let c := v.ctx (slot x).1 x.1 (slot x).2
      if !efieldb c CTX.valid || decide (f x CHN.src = 4 ∧ efield c CTX.stage = 0) ||
          (decide (x.1 = 1 ∧ f x CHN.src = 4 ∧ efield c CTX.aps_level = f x CHN.level) && efieldb c CTX.aps_en) then
        [[ctxR0 (slot x).1 x.1 (slot x).2, key x]]
      else []) ++
  ((pairsOf rows).filter (fun p => decide (f p.1 CHN.base < f p.2 CHN.base + f p.2 CHN.size ∧ f p.2 CHN.base < f p.1 CHN.base + f p.1 CHN.size))).map (fun p =>
    [key p.1, key p.2]) ++
  ((pairsOf (rows.filter (fun x => decide (x.1 = 1)))).filter (fun p => decide (slot p.1 = slot p.2 ∧ chnBytes p.1.2.2 &&& chnBytes p.2.2.2 ≠ 0) &&
      (decide (f p.1 CHN.src ≠ 4) || decide (f p.1 CHN.level = f p.2 CHN.level)))).map (fun p => [key p.1, key p.2])

/-- Every failing condition of check 8. -/
def CueView.conflictRels (v : CueView) (refType : Nat → Nat) : List (List Nat) :=
  v.laneRels refType ++ (List.range 64).flatMap (fun B =>
    v.otuRels B ++ v.ctxRels B 0 ++ v.ctxRels B 1 ++ v.shpRels B ++ v.cliRels B 0 ++ v.cliRels B 1 ++ v.ethRels B) ++
  (List.range 8).flatMap (fun r =>
    v.indexRels r 0 ++ v.indexRels r 1 ++ v.txRels r ++ v.egressRels r ++ v.selRels r ++ v.islRels r ++ v.linkRels r ++ v.chnRels r) ++
  v.pairRels ++ v.apsRels ++ v.wingRels

/-! ### Checks 9 and 10 -/

/-- A flow's load in units of 1/110,000 kbit/s (R342). -/
def flowLoad (w : Nat) : Nat := efield w TXF_CFG.rate_kbps * 10002 * (if efieldb w TXF_CFG.short then 12 else 11)

def CueView.bandwidth (v : CueView) : Option Nat :=
  let flows (r : Nat) : List (Nat × Tab) := [(pgFyt r, T_TXF_CFG), (pgFyr r, T_RXF_CFG)]
  let cands := (List.range 8).flatMap (fun r =>
    let links := (regionLinks r).map linkRow
    let cap := ((regionLinks r).filter (fun m => decide (v.role m = roleWorking))).length * 1635500000 * 110000
    (flows r).flatMap (fun (pg, t) =>
      let F := v.valid pg t
      [overrun v.rows (F.map (fun x => (flowLoad x.2, [rowKey pg t x.1]))) cap links,
       overrun v.rows ((F.filter (fun x => efieldb x.2 TXF_CFG.short)).map (fun x => (efield x.2 TXF_CFG.rate_kbps, [rowKey pg t x.1]))) 1000000000 []])
      |>.filterMap id)
  let rels := (List.range 64).flatMap (fun B => [0, 1].flatMap (fun d => (v.ctxs B d).flatMap (fun x =>
    let c := v.at (pgCli B d) T_CLI_CFG x.1
    let flex := efield x.2 CTX.flex_kbps
    let p := v.ctx B d (efield x.2 CTX.parent)
    (if efieldb x.2 CTX.client ∧ efieldb c CLI_CFG.en ∧ efield c CLI_CFG.client = 6 then
      match opuServer (efield x.2 CTX.odu_type) with
      | some (_, _, cap) =>
        if efield c CLI_CFG.cbr_kbps * (1000000 + clientTol 6 (efield c CLI_CFG.tol)) ≤ cap * (1000000 - 20) then []
        else [[ctxR0 B d x.1, rowKey (pgCli B d) T_CLI_CFG x.1]]
      | none => []
     else []) ++
    (if efield x.2 CTX.odu_type = 6 ∧
        (if efield x.2 CTX.stage = 1 then decide (efield x.2 CTX.n_ts < flexSlots5 flex)
         else decide (efield x.2 CTX.n_ts < flexSlots1 (efield p CTX.odu_type) flex)) then
      [[ctxR0 B d x.1, ctxR0 B d (efield x.2 CTX.parent)]] else []))))
  v.first (cands.map ([·]) ++ rels)

def CueView.budget (v : CueView) : Option Nat :=
  let legs (r : Nat) : Option Nat :=
    overrun v.rows ((v.valid (pgSel r) T_ESG_CFG).map (fun x =>
      let i := efield x.2 ESG_CFG.p_flow
      (efield (v.rxf r i) RXF_CFG.rate_kbps, [rxRow r i, esgRow r x.1]))) 3354167264 []
  let W := v.valid pgWng T_WGRP_CFG
  let wings (L : List (Nat × Nat)) (bytes rate : Nat) : List (Option Nat) :=
    [overrun v.rows (L.map (fun x => (ringBytes x.2, [wgRow x.1]))) bytes [],
     overrun v.rows (L.map (fun x => (efield x.2 WGRP_CFG.rate_kbps, [wgRow x.1]))) rate []]
  let cands := (List.range 8).map legs ++
    (List.range 6).flatMap (fun k => wings (W.filter (fun x => decide (efield x.2 WGRP_CFG.stack = k))) stackBytes 6400000000) ++
    wings W (128 * 2 ^ 30) 25600000000
  v.first ((cands.filterMap id).map ([·]))

/-! ### Status codes of Table REG-7 -/

def cueAccepted : Nat := 0
def cuePool : Nat := 1
def cueBudget : Nat := 2
def cueBandwidth : Nat := 3
def cueOwner : Nat := 4
def cueMode : Nat := 5
def cueRange : Nat := 6
def cueConflict : Nat := 7
def cueBusy : Nat := 8
def cueIntegrity : Nat := 9
def cueResetting : Nat := 0xA

/-- Regions that box n's scope touches. -/
def State.scopeTouches (s : State) (n r : Nat) : Bool := s.scopeRegion n r || (List.range 8).any (fun b => s.scopeBlock n (8 * r + b))

/-- Checks 2 and 3. -/
def State.cueModeCheck (s : State) (n who : Nat) : Option Nat :=
  let rs := (List.range 8).filter (s.scopeTouches n)
  if ((s.mode = modeCall ∨ s.mode = modeSafe) ∧ who ≠ 514) ∨ rs.any (fun r => decide (s.region r = rgnIsolated)) then some cueMode
  else if rs.any (fun r => decide (s.region r = rgnReset)) then some cueResetting
  else none

/-- Check 4 on one row: what the row names, in the committed image and with the cue's rows, belongs to box n. -/
def State.cueOwns (s : State) (n : Nat) (m : SMap Nat) (k : Nat) : Bool :=
  match dirtyRow k with
  | some (pg, t, row) =>
    let e := row / t.rows
    decide (s.rowOwnerBy (tabGet m) s.committed pg t e = n ∧ s.rowOwnerBy s.committed (tabGet m) pg t e = n)
  | none => true

/-- Checks 4 and the SRAM part of 5: the code and the row named. -/
def State.cueEarly (s : State) (n : Nat) (rows bad : List Nat) : Option (Nat × Option Nat) :=
  let m := s.cueImage rows
  match rows.find? (fun k => !s.cueOwns n m k) with
  | some k => some (cueOwner, some k)
  | none => (rows.find? (bad.contains ·)).map (fun k => (cueIntegrity, some k))

/-- Checks 6 to 10. -/
def State.cueLate (s : State) (rows : List Nat) : Option (Nat × Option Nat) :=
  let v : CueView := { m := s.cueImage rows, old := s.tabs, rows := rows }
  if rows = [] then none
  else match v.first v.rangeRels with
  | some k => some (cueRange, some k)
  | none =>
    match v.pool with
    | some k => some (cuePool, some k)
    | none =>
      match v.first (v.conflictRels (fun n => (s.csus.get {} (1 + n / 8)).refType)) with
      | some k => some (cueConflict, some k)
      | none =>
        match v.bandwidth with
        | some k => some (cueBandwidth, some k)
        | none => v.budget.map (fun k => (cueBudget, some k))

end Sys2Proof.Machine
end

