-- ==== Sys2Proof/Machine/Cue.lean ====
section
/-! DEFINITION. Cues: go, revert, the image check value, acceptance, and the adoption of rows (file 02, R71 to R82, R596, R597;
file 03, R88; file 04, R127; file 05, R167, R168; file 06, R214, R225; file 07, R263; file 08, R291; file 09, R307; file 10, R353). -/

namespace Sys2Proof.Machine

open Sys2Proof

/-! ### Go and revert -/

def cueDoneState : Nat := 3
def cueRefusedState : Nat := 4
def cueChecked : Nat := 5

/-- Write BOX_CUE_STATUS. -/
def State.cueShow (s : State) (n state code : Nat) : State := (s.wr (pgBox n) BOX_CUE_STATUS_state state).wr (pgBox n) BOX_CUE_STATUS_code code

/-- The row named in BOX_CUE_WHERE and BOX_CUE_INDEX, or none. -/
def State.cueWhere (s : State) (n : Nat) (k : Option Nat) : State :=
  let pg := pgBox n
  let p := (k.map (fun k => placeWord (keyPg k))).getD (2 ^ 32 - 1)
  let x := (k.map (· % 2 ^ 32)).getD (2 ^ 32 - 1)
  (((((s.wr pg BOX_CUE_WHERE_typ (getBits p 31 24)).wr pg BOX_CUE_WHERE_region (getBits p 23 16)).wr pg BOX_CUE_WHERE_block (getBits p 15 8)).wr pg
    BOX_CUE_WHERE_instance (getBits p 7 0)).wr pg BOX_CUE_INDEX_table (getBits x 31 24)).wr pg BOX_CUE_INDEX_index (getBits x 23 0)

/-- A cue ends REFUSED (R76). -/
def State.cueRefuse (s : State) (n code : Nat) (k : Option Nat) : State :=
  let s := ({ s with cues := s.cues.erase n }).cueShow n cueRefusedState code
  (s.cueWhere n k).ev (pgBox n) 1

/-- What the judged checks say: the cue goes on, or is refused. -/
def State.cueJudge (s : State) (n : Nat) (x : Option (Nat × Option Nat)) : State :=
  match x with
  | some (code, k) => s.cueRefuse n code k
  | none => s

/-- Two scopes share a block, a region-common set, PRT or WNG. -/
def State.scopesMeet (s : State) (n m : Nat) : Bool :=
  (List.range 64).any (fun B => s.scopeBlock n B && s.scopeBlock m B) || (List.range 8).any (fun r => s.scopeRegion n r && s.scopeRegion m r) ||
    (s.scopePrt n && s.scopePrt m) || (s.scopeWng n && s.scopeWng m)

/-- Check 1: a running cue of another requester shares the scope. -/
def State.cueOthers (s : State) (n who : Nat) : Bool :=
  s.runningCues.any (fun m => decide (m ≠ n ∧ (s.cues.get {} m).who ≠ who) && s.scopesMeet n m)

/-- A write of go (R73, R74, R596): `bad` are the staged rows that fail their protection check. -/
def State.cueGo (s : State) (w : Who) (n : Nat) (bad : List (Nat × Nat × Nat)) : State :=
  let who := requester w
  if s.cueRuns n then s.setErr (pgBox n) errStagedLocked
  else
    let s := (s.cueShow n cueChecking cueAccepted).cueWhere n none
    if s.cueOthers n who then s.cueRefuse n cueBusy none
    else
      let rows := s.cueRows n who
      match s.cueModeCheck n who with
      | some code => s.cueRefuse n code none
      | none =>
        match s.cueEarly n rows (bad.map (fun x => (x.1 * 256 + x.2.1) * 2 ^ 24 + x.2.2)) with
        | some (code, k) => s.cueRefuse n code k
        | none =>
          let crc := s.rdb (pgBox n) BOX_CUE_CTRL_check_en
          let s := { s with cues := s.cues.set {} n { who := who, turn := s.cueTurn, crc := crc, rows := [] }, cueTurn := s.cueTurn + 1 }
          if crc then s else s.cueJudge n (s.cueLate rows)

/-- A write of revert (R73). -/
def State.cueRevert (s : State) (w : Who) (n : Nat) : State :=
  if s.cueRuns n then s.setErr (pgBox n) errStagedLocked
  else s.each (s.cueRows n (requester w)) (fun s k =>
    match dirtyRow k with
    | some (pg, t, row) =>
      let e := row / t.rows
      { (s.setStaged pg t e (putRow t (s.stagedEntry pg t e) row (s.committedRow pg t row))) with dirty := s.dirty.erase k }
    | none => s)

/-! ### The image check value (R75) -/

/-- The check unit that computes it. -/
def chkImage : Nat := 31

/-- Box n's cue is the one whose turn it is. -/
def State.cueTurnOf (s : State) (n : Nat) : Bool :=
  let c := s.cues.get {} n
  c.crc && s.cues.all (fun x => !x.2.crc || decide (c.turn ≤ x.2.turn))

/-- The words of the image: each row as six. -/
def State.cueWords (s : State) (rows : List Nat) : List Nat :=
  rows.flatMap (fun k => match dirtyRow k with
    | some (pg, t, row) => rowWords pg t row (s.stagedRow pg t row)
    | none => [])

/-- CUE_IMAGE_CRC: with the unit free and the turn come, the value is computed and compared; the checks go on. -/
def State.cueImageCrc (s : State) (n : Nat) : State :=
  if s.rd (pgBox n) BOX_CUE_STATUS_state = cueChecking ∧ s.cueTurnOf n ∧ s.rd (pgChk chkImage) CHK_STATUS_holder = holdNone then
    let c := s.cues.get {} n
    let rows := s.cueRows n c.who
    let refin := s.rdb (pgChk chkImage) CHK_CFG_refin
    let s := s.chkBegin chkImage holdCue
    let s := s.each (s.cueWords rows) (fun s v => s.chkFeed chkImage (chkOrder refin 4 (feedBits false 32 v)))
    let s := s.chkEnd chkImage
    let s := { s with cues := s.cues.set {} n { c with crc := false } }
    if s.rd (pgChk chkImage) CHK_RESULT_res % 2 ^ 32 = s.rd (pgBox n) BOX_CUE_EXPECT_value then s.cueJudge n (s.cueLate rows)
    else s.cueRefuse n cueIntegrity none
  else s

/-! ### Acceptance (R77) -/

/-- The place of a row: a block, a region's common set, PRT or WNG. -/
def rowPlace (k : Nat) : Nat := digestOf (keyPg k)

/-- The registers that count committed rows. -/
def State.showPlace (s : State) (j : Nat) : State :=
  if j < 64 then (s.showBlock j).showRegion (j / 8) else if j < 72 then s.showRegion (j - 64) else if j = 73 then s.showHbm else s

/-- A cue is accepted. -/
def State.cueAccept (s : State) (n : Nat) : State :=
  let c := s.cues.get {} n
  let rows := s.cueRows n c.who
  let marked := rows.map (fun k => match dirtyRow k with
    | some (pg, t, row) => (k, decide (s.committedRow pg t row ≠ s.stagedRow pg t row))
    | none => (k, false))
  let gen := (s.devGen + 1) % 2 ^ 32
  let s := { s with tabs := s.cueImage rows, dirty := rows.foldl (fun m k => m.erase k) s.dirty, devGen := gen
                    cues := s.cues.set {} n { c with rows := marked } }
  let s := (s.wr (pgBox n) BOX_CUE_GEN_gen gen).cueShow n cuePending cueAccepted
  let s := s.each (rows.map rowPlace).eraseDups (fun s j => (s.digTouch j).showPlace j)
  if rows = [] then s.cueFinish n else s

/-- CUE_CHECK_END (R596): checks 2 and 3 are judged again. -/
def State.cueCheckEnd (s : State) (n : Nat) : State :=
  let c := s.cues.get {} n
  if s.rd (pgBox n) BOX_CUE_STATUS_state = cueChecking ∧ !c.crc then
    match s.cueModeCheck n c.who with
    | some code => s.cueRefuse n code none
    | none =>
      if s.rdb (pgBox n) BOX_CUE_CTRL_dry_run then ((({ s with cues := s.cues.erase n }).cueShow n cueChecked cueAccepted)).ev (pgBox n) 0
      else s.cueAccept n
  else s

/-! ### Which ODU a row belongs to (R167, R173, R225) -/

def State.effCopy (s : State) : Copy := fun pg t e => s.eff pg t e

/-- The contexts whose content a row is part of, under a copy: block, direction, slot. -/
def rowCtxs (g : Copy) (k : Nat) : List (Nat × Nat × Nat) :=
  match dirtyRow k with
  | none => []
  | some (pg, t, row) =>
    let e := row / t.rows
    match pageInfo pg with
    | some ⟨typ, _, some r, some b⟩ =>
      let B := 8 * r + b
      let od (d : Nat) : List (Nat × Nat × Nat) :=
        if t.code = T_CTX.code then [(B, d, e)] else ((tsSlot g pg t e).map (fun o => (B, d, o))).toList
      (match typ with
      | .odi => od 0
      | .ode => od 1
      | .mpt => if t.code ≠ T_SHP.code ∧ e < 16384 then [(B, e / 8192, e / 8 % 1024)] else []
      | .dmp => [(B, 0, e)]
      | .map => [(B, 1, e)]
      | _ => [])
    | _ => []

/-- The shared point that a row of MPT configures: block and entry of SHP. -/
def rowShared (k : Nat) : Option (Nat × Nat) :=
  match dirtyRow k with
  | none => none
  | some (pg, t, row) =>
    let e := row / t.rows
    match pageInfo pg with
    | some ⟨.mpt, _, some r, some b⟩ =>
      let q := if t.code = T_SHP.code then e else e - 16384
      if (t.code = T_SHP.code ∨ 16384 ≤ e) ∧ 16 ≤ q then some (8 * r + b, q) else none
    | _ => none

/-- A row of the table that binds shared points. -/
def isShp (k : Nat) : Bool :=
  match dirtyRow k with
  | some (pg, t, _) => decide (t.code = T_SHP.code) && (match pageInfo pg with
    | some i => decide (i.typ = .mpt)
    | none => false)
  | none => false

/-- The slot of the carrier of a context under a copy. -/
def carrierOf (g : Copy) (B d e : Nat) : Option Nat :=
  let v := g (pgOd B d) T_CTX e
  if efieldb v CTX.valid then some (if efield v CTX.stage = 0 then e else efield v CTX.parent) else none

/-- The ODU that a row belongs to: by the committed rows, else by those still in effect. -/
def State.rowOdu (s : State) (k : Nat) : Option (Nat × Nat × Nat) :=
  let own (g : Copy) : List (Nat × Nat × Nat) :=
    match rowShared k with
    | some (B, q) => ((shpTarget g (pgMpt B) q).map (fun x => (B, x.1, x.2))).toList
    | none => rowCtxs g k
  ((own s.committed).head?.orElse (fun _ => (own s.effCopy).head?)).bind (fun x =>
    ((carrierOf s.committed x.1 x.2.1 x.2.2).orElse (fun _ => carrierOf s.effCopy x.1 x.2.1 x.2.2)).map (fun c => (x.1, x.2.1, c)))

/-! ### Adoption -/

/-- A row's content in effect differs from the committed one. -/
def State.rowDiffers (s : State) (k : Nat) : Bool :=
  match dirtyRow k with
  | some (pg, t, row) => decide (rowOf t (s.eff pg t (row / t.rows)) row ≠ s.committedRow pg t row)
  | none => false

/-- A committed row takes effect. -/
def State.rowLive (s : State) (k : Nat) : State :=
  match dirtyRow k with
  | some (pg, t, row) =>
    let e := row / t.rows
    { s with live := s.live.set (t.resetEntry e) (tkey pg t e) (putRow t (s.eff pg t e) row (s.committedRow pg t row)) }
  | none => s

/-- A context that the cue removes or changes stops under its old rows (R168). -/
def State.ctxLeave (s : State) (B d e : Nat) : State :=
  let old := s.eff (pgOd B d) T_CTX e
  let new := s.entry (pgOd B d) T_CTX e
  if efieldb old CTX.valid then
    let s := s.cliClose (.ctx B d e) true
    let s := s.when (decide (d = 0)) (fun s => s.stampUnlock B e)
    if efieldb new CTX.valid && decide (efield new CTX.ctx = efield old CTX.ctx) then s.ctxClose B d e true else s.ctxStop B d e
  else s

/-- A context that the cue adds or changes starts under its new rows (R168), `own` saying that its CTX row is among them; event
adopted. -/
def State.ctxEnter (s : State) (gen B d e : Nat) (own : Bool) : State :=
  let s := s.when (s.ctxB B d e CTX.valid) (fun s => s.ctxStart B d e gen own)
  (s.cliStart (.ctx B d e)).ev (pgOd B d) 4

/-- A shared point's target under the rows in effect: direction and slot. -/
def State.shpOf (s : State) (B q : Nat) : Option (Nat × Nat) := shpTarget s.effCopy (pgMpt B) q

/-- A shared point stops under its old row. -/
def State.shpLeave (s : State) (B q : Nat) : State :=
  match s.shpOf B q with
  | some (d, _) =>
    let s := s.epiBoundary (B / 8) (fun y => y.point && decide (y.src = shPoint B q))
    s.each (List.range 14) (fun s b => s.pointDef B d (shPoint B q) (shEntry q) b false true)
  | none => s

/-- A shared point starts under its new row, or is gone. -/
def State.shpEnter (s : State) (gen B q : Nat) : State :=
  if (s.shpOf B q).isSome then s.pointStart B (shPoint B q) (shEntry q) gen
  else s.pointStop B (shPoint B q) (shEntry q)

/-- A point is reconfigured: the generation, and its running second partial. -/
def State.pointMarked (s : State) (m gen : Nat) : State := s.setPoint m (fun p => { p with gen := gen % 256, flags := p.flags ||| 16384 })

/-- A shared point's own rows change. -/
def State.shpRows (s : State) (gen B q : Nat) : State :=
  match s.shpOf B q with
  | some (d, _) => (s.pointMarked (shPoint B q) gen).evalPointTim B d (shPoint B q) (shEntry q)
  | none => s

/-- Two entries differ in one of some fields. -/
def anyDiff (a b : Nat) (l : List TField) : Bool := l.any (fun f => decide (efield a f ≠ efield b f))

/-- The wings group of an ESG row, if it names one. -/
def wgOfRow (w : Nat) : List Nat := if efieldb w ESG_CFG.valid ∧ efieldb w ESG_CFG.aligned then [efield w ESG_CFG.wgrp] else []

/-- What an egress group's row changes (R263, R291). -/
def State.esgChange (s : State) (r i old new : Nat) : State :=
  let G := 2048 * r + i
  if anyDiff old new [ESG_CFG.valid, ESG_CFG.arch, ESG_CFG.w_flow, ESG_CFG.p_flow, ESG_CFG.aps_en, ESG_CFG.aps_ch, ESG_CFG.aligned, ESG_CFG.wgrp] then
    s.each (wgOfRow old ++ wgOfRow new).eraseDups State.wgStart |>.sfpForget (efieldb old ESG_CFG.aps_en) (efield old ESG_CFG.aps_ch) |>.grpStart G
  else s.grpKeep G (efieldb old ESG_CFG.sd_en) (efieldb old ESG_CFG.revert)

/-- What an ingress group's row changes (R263). -/
def State.isgChange (s : State) (r i old new : Nat) : State :=
  let G := 16384 + 1024 * r + i
  if anyDiff old new [ISG_CFG.valid, ISG_CFG.arch, ISG_CFG.w_ctx, ISG_CFG.p_ctx, ISG_CFG.out_flow, ISG_CFG.aps_en, ISG_CFG.aps_ch] then
    (s.sfpForget (efieldb old ISG_CFG.aps_en) (efield old ISG_CFG.aps_ch)).grpStart G
  else s.grpKeep G (efieldb old ISG_CFG.sd_en) (efieldb old ISG_CFG.revert)

/-- What a bridge's row changes (R232, R271). -/
def State.brgChange (s : State) (r i old new : Nat) : State :=
  let s := s.brgStart r i
  if efieldb old BRG_CFG.valid ∧ efieldb new BRG_CFG.valid then s else { s with brgStamp := s.brgStamp.erase (2048 * r + i) }

/-- What a wings group's row changes (R291). -/
def State.wgrpChange (s : State) (w old new : Nat) : State :=
  if anyDiff old new [WGRP_CFG.valid, WGRP_CFG.stack, WGRP_CFG.base, WGRP_CFG.max_delay, WGRP_CFG.rate_kbps] then s.wgStart w else s

/-- What a link's row changes (R307, R345). -/
def State.linkChange (s : State) (m old : Nat) : State := ((s.roleChange m (efield old LINK_CFG.role)).showFyt (m / 12)).applyFylTest m

/-- A changed row of anything but a context or a shared point has taken effect; `old` is its entry before. -/
def State.rowTaken (s : State) (gen k old : Nat) : State :=
  match dirtyRow k with
  | none => s
  | some (pg, t, row) =>
    let e := row / t.rows
    let new := s.eff pg t e
    match pageInfo pg with
    | some ⟨typ, i, some r, some b⟩ =>
      let B := 8 * r + b
      (match typ with
      | .lln => s.when (anyDiff old new [LANE_CFG.typ, LANE_CFG.rate]) (fun s => s.laneCfgChange (4 * B + i))
      | .otu =>
        let d := 16 * B + i
        let s := if t.code = T_OTU_IF.code then s.otuIfChange d else if t.code = T_OTU_TTI_EXP.code then s.evalTim d else s
        s.pointMarked (secPoint d) gen
      | .eth => s.cliStart (.line (4 * B + i))
      | .mpt => if isShp k then s else (match rowShared k with
        | some (_, q) => s.shpRows gen B q
        | none => s)
      | _ => s)
    | some ⟨typ, i, some r, none⟩ =>
      (match typ with
      | .sel => if t.code = T_BRG_CFG.code then s.brgChange r e old new else s.esgChange r e old new
      | .isl => s.isgChange r e old new
      | .fyl => s.linkChange (12 * r + i) old
      | .fyt => s.txStart r e
      | .fyr => s.rxStart r e
      | .ohq => s.chAdopt r (if t.code = T_CAP_CFG.code then 0 else 1) e (chEmpties old new)
      | _ => s)
    | some ⟨.prt, _, none, _⟩ => s.apsStart e
    | some ⟨.wng, _, none, _⟩ => s.wgrpChange e old new
    | _ => s

/-- The points that a changed row touches carry the generation of the cue, when a reload had put the row into effect already (R80). -/
def State.rowGen (s : State) (gen k : Nat) : State :=
  let set (s : State) (m : Nat) : State := s.setPoint m (fun p => { p with gen := gen % 256 })
  match rowShared k with
  | some (B, q) => if (s.shpOf B q).isSome then set s (shPoint B q) else s
  | none =>
    let s := s.each (rowCtxs s.effCopy k) (fun s x =>
      if s.ctxB x.1 x.2.1 x.2.2 CTX.valid then
        let g := s.ctxGroup x.1 x.2.1 x.2.2
        s.each ((List.range 7).map (dedPoint g) ++ (s.sharedOn x.1 x.2.1 x.2.2).map (shPoint x.1)) set
      else s)
    match pageInfo (keyPg k) with
    | some ⟨.otu, i, some r, some b⟩ => set s (secPoint (16 * (8 * r + b) + i))
    | _ => s

/-- The context whose own CTX row a row is. -/
def ctxOfRow (k : Nat) : Option (Nat × Nat × Nat) :=
  match dirtyRow k with
  | some (pg, t, row) => match pageInfo pg with
    | some ⟨.odi, _, some r, some b⟩ => if t.code = T_CTX.code then some (8 * r + b, 0, row / t.rows) else none
    | some ⟨.ode, _, some r, some b⟩ => if t.code = T_CTX.code then some (8 * r + b, 1, row / t.rows) else none
    | _ => none
  | none => none

/-- The line client of an ETH row. -/
def ethOfRow (k : Nat) : Option Nat :=
  match pageInfo (keyPg k) with
  | some ⟨.eth, i, some r, some b⟩ => some (4 * (8 * r + b) + i)
  | _ => none

/-- The conditions that a block derives from its rows, once they have changed. -/
def State.blockDerive (s : State) (B : Nat) : State :=
  let lanes := (List.range 4).map (4 * B + ·)
  (s.refreshBlock B).each lanes (fun s n => (s.refreshEth n).applyTest n)

/-- Rows of one cue take effect together (R78): each with whether the cue changed it. -/
def State.adoptRows (s : State) (gen : Nat) (l : List (Nat × Bool)) : State :=
  let diff := (l.map (·.1)).filter s.rowDiffers
  let old := s.effCopy
  let was (k : Nat) : Nat := match dirtyRow k with
    | some (pg, t, row) => old pg t (row / t.rows)
    | none => 0
  let ctxs := (diff.flatMap (fun k => rowCtxs old k ++ rowCtxs s.committed k)).eraseDups
  let shps := (diff.filter isShp).filterMap rowShared
  let eths := diff.filterMap ethOfRow
  let s := s.each ctxs (fun s x => s.ctxLeave x.1 x.2.1 x.2.2)
  let s := s.each shps (fun s x => s.shpLeave x.1 x.2)
  let s := s.each eths (fun s n => s.cliClose (.line n) true)
  let s := s.each diff State.rowLive
  let s := s.each ctxs (fun s x => s.ctxEnter gen x.1 x.2.1 x.2.2 (diff.any (fun k => decide (ctxOfRow k = some x))))
  let s := s.each shps (fun s x => s.shpEnter gen x.1 x.2)
  let s := s.each diff (fun s k => s.rowTaken gen k (was k))
  let s := s.each ((l.filter (·.2)).map (·.1)) (fun s k => s.rowGen gen k)
  s.each ((diff.map rowPlace).eraseDups.filter (· < 64)) (fun s B => (s.blockDerive B).each ((List.range 16).map (16 * B + ·)) State.showMember)

/-- The generation that a place reports (R81). -/
def State.placeGen (s : State) (j gen : Nat) : State :=
  if j < 64 then s.wr (pgRgn (j / 8)) (RGN_CUE_GEN_gen (j % 8)) gen
  else if j < 72 then s.wr (pgRgn (j - 64)) RGN_CUE_GEN_COM_gen gen
  else if j = 72 then s.wr pgPrt PRT_CUE_GEN_gen gen
  else s.wr pgWng WNG_CUE_GEN_gen gen

/-- No datapath of a row's region runs: the row waits (R80). -/
def State.rowWaits (s : State) (k : Nat) : Bool :=
  match pageRegion (keyPg k) with
  | some r => !s.regionSpeaks r
  | none => false

/-- The accepted rows that take effect at a boundary. -/
def State.rowsAt (s : State) (n : Nat) (x : AdoptRef) : List (Nat × Bool) :=
  let imm := s.rdb (pgBox n) BOX_CUE_CTRL_immediate
  (s.cues.get {} n).rows.filter (fun k => !s.rowWaits k.1 && (match x with
    | .free => imm || (s.rowOdu k.1).isNone
    | .odu B d e => decide (s.rowOdu k.1 = some (B, d, e))))

/-- CUE_ROW_ADOPT (R78). -/
def State.cueRowAdopt (s : State) (n : Nat) (x : AdoptRef) : State :=
  let c := s.cues.get {} n
  let take := s.rowsAt n x
  if s.rd (pgBox n) BOX_CUE_STATUS_state ≠ cuePending ∨ take = [] then s
  else
    let gen := s.rd (pgBox n) BOX_CUE_GEN_gen
    let rest := c.rows.filter (fun k => !take.contains k)
    let s := s.adoptRows gen take
    let left := rest.map (fun k => rowPlace k.1)
    let s := s.each ((take.map (fun k => rowPlace k.1)).eraseDups.filter (fun j => !left.contains j)) (fun s j => s.placeGen j gen)
    if rest = [] then s.cueFinish n else { s with cues := s.cues.set {} n { c with rows := rest } }

/-! ### Meanings -/

def execCueGo (w : Who) (n : Nat) (bad : List (Nat × Nat × Nat)) := runBus w (pgBox (n % 512)) true (fun s => s.cueGo w (n % 512) bad)
def execCueRevert (w : Who) (n : Nat) := runBus w (pgBox (n % 512)) true (fun s => s.cueRevert w (n % 512))
def execCueImageCrc (n : Nat) := run (fun s => s.cueImageCrc (n % 512))
def execCueCheckEnd (n : Nat) := run (fun s => s.cueCheckEnd (n % 512))
def execCueRowAdopt (n : Nat) (x : AdoptRef) := run (fun s => s.cueRowAdopt (n % 512) x)

end Sys2Proof.Machine
end

