-- ==== Sys2Proof/Machine/RegWrite.lean ====
section
/-! DEFINITION. Writes of registers: the access types, what the registers of each page type do when written, and the proxy of a BOX
page (file 00, R8, R10; file 02, R53, R56 to R69, R73; file 13, R451, Table HST-4). -/

namespace Sys2Proof.Machine

open Sys2Proof

/-! ### Access types (file 00, R10) -/

/-- A field that a write stores into. A vote held by the device alone (the mode, the ghost light) is not written. -/
def writable (pg : Nat) (f : Field) : Bool := decide (f.acc = .rw) || (decide (f.acc = .rv) && decide (pg ≠ pgMode ∧ pg ≠ pgLog))

/-- A write stores each field as its access type states; reserved bits and read-only fields ignore it (R8, R10). -/
def State.plainWrite (s : State) (w : Who) (pg off v : Nat) : State :=
  s.each ((pageFields pg).filter (fun f => decide (f.off = off ∧ f.hi < 32) && writable pg f && (!f.smOnly || decide (w.master = .sm))))
    (fun s f => s.wr (if f.perMaster then reqPage pg w else pg) f (getBits v f.hi f.lo))

/-! ### Cue registers (R73) -/

/-- A write of BOX_CUE_CTRL: the settings, then revert, then go. -/
def State.writeCueCtrl (s : State) (x : RegWrite) (n v : Nat) : State :=
  let w := x.acc.who
  if s.cueRuns n then s.setErr (pgBox n) errStagedLocked
  else
    let s := s.plainWrite w (pgBox n) 0x04C v
    let s := s.when (bit v 1) (fun s => s.cueRevert w n)
    s.when (bit v 0) (fun s => s.cueGo w n x.bad)

/-! ### Registers whose write does more than store -/

/-- BOX pages (files 02 and 13). -/
def State.writeBox (s : State) (x : RegWrite) (n off v : Nat) : State :=
  let w := x.acc.who
  let p := s.plainWrite w (pgBox n) off v
  if off = 0x04C then s.writeCueCtrl x n v
  else if off = 0x048 ∨ off = 0x050 then (if s.cueRuns n then s.setErr (pgBox n) errStagedLocked else p)
  else if off = 0x0A0 then s.pxPageWrite n v
  else if off = 0x0B8 then (if bit v 31 then s.pmCopyGo n (v % 2 ^ 20) else p)
  else if 0x0C0 ≤ off ∧ off < 0x140 then (if w.master = .sm then ((s.keepWin n ((off - 0x0C0) / 8)).plainWrite w (pgBox n) off v).digTouch 74 else s)
  else p

/-- LLN, FEC and OTU pages (files 03 and 04); `c` is the page's cell. -/
def State.writeLine (s : State) (x : RegWrite) (typ : PageType) (c off v : Nat) : State :=
  let p := s.plainWrite x.acc.who x.acc.page off v
  match typ with
  | .lln =>
    if off = 0x04C then s.writeFir1 c v
    else if off = 0x050 then s.writeLb c v
    else if off = 0x054 then s.writePrbs c v
    else if off = 0x060 then s.writeAdaptCfg c v
    else if off = 0x080 then s.writeRxEq c v
    else p
  | .fec => if off = 0x044 then s.when (bit v 0) (fun s => s.fecSnap c) else p
  | .otu => if off = 0x040 then p.refreshBlock (c / 16) else if off = 0x048 then s.writeTxForce c v else p
  | _ => p

/-- FYL pages (file 09). -/
def State.writeFyl (s : State) (x : RegWrite) (m off v : Nat) : State :=
  if off = 0x044 then (if bit v 1 then s.failLink m else if bit v 0 then s.restoreLink m else s)
  else if 0x060 ≤ off ∧ off < 0x080 then s.writeFyTap m ((off - 0x060) / 4) v
  else if off = 0x080 then s.writeFylTest m v
  else s.plainWrite x.acc.who x.acc.page off v

/-- OHQ pages (file 10). -/
def State.writeOhq (s : State) (x : RegWrite) (r off v : Nat) : State :=
  let w := x.acc.who
  if off = 0x048 then s.ohqWrite w r v
  else if off = 0x04C then
    let op := getBits v 27 24
    if op = 0 then s
    else if op = 1 then s.ohqFlush w r (getBits v 31 31) (getBits v 8 0)
    else if op = 2 then s.dropRest w r (getBits v 31 31) (getBits v 8 0)
    else s.ohqStatus w r ohqRefRange
  else s.plainWrite w x.acc.page off v

/-- CHK pages (file 10, R373): the lock is the stage manager's. -/
def State.writeChk (s : State) (x : RegWrite) (u off v : Nat) : State :=
  let w := x.acc.who
  let pg := pgChk u
  s.chkBy u w.master (fun s =>
    if off = 0x070 then
      if bit v 0 then s.chkBegin u w.master.code else if bit v 1 then s.chkEnd u else if bit v 2 then s.chkClose u else s
    else if off = 0x074 then s.chkData u v
    else
      let lock := s.rd pg CHK_CFG_lock
      let s := s.plainWrite w pg off v
      let s := s.when (decide (off = 0x040 ∧ w.master ≠ .sm)) (fun s => s.wr pg CHK_CFG_lock lock)
      s.when (decide (off = 0x068)) (fun s => s.chkAliveWritten u))

/-- Protection and wings pages (files 07 and 08). -/
def State.writePrtWng (s : State) (x : RegWrite) (typ : PageType) (i off v : Nat) : State :=
  let w := x.acc.who
  let p := s.plainWrite w x.acc.page off v
  match typ with
  | .prt => if off = 0x048 then s.prtCommand w (getBits v 31 28) (getBits v 14 0) else p
  | .wng =>
    if off = 0x050 then
      s.when (bit v 31 && (!w.proxy || decide (s.ownBox (ownWgrp (v % 4096)) = w.box))) (fun s => s.ackFail (v % 4096))
    else if off = 0x308 then p.pmsCheck
    else p
  | .hbm => if off = 0x044 then s.when (bit v 0) (fun s => s.hbmRestore i) else p
  | _ => p

/-- Stage door, call board, clock and time pages (files 11 and 12). -/
def State.writeTime (s : State) (x : RegWrite) (typ : PageType) (i off v : Nat) : State :=
  let w := x.acc.who
  let p := s.plainWrite w x.acc.page off v
  match typ with
  | .sdp =>
    if off = 0x080 then
      let op := getBits v 31 28
      if op = 1 then s.txStart_ w (getBits v 26 24) (getBits v 13 0) else if op = 2 then s.txAbort (reqPage pgSdp w) else s
    else if off = 0x084 then s.txData w v
    else p
  | .cbb =>
    if off = 0x040 then p.ccConfig
    else if off = 0x04C then
      let op := getBits v 31 28
      if op = 1 then s.cbbSend w (getBits v 27 20) (getBits v 18 12) (getBits v 8 0) else if op = 2 then s.cbbAbort w else s
    else if off = 0x050 then s.cbbData w v
    else if off = 0x064 then s.when (bit v 0) State.wakeAck
    else p
  | .csu => if off = 0x048 then s.when (bit v 0) (fun s => (s.rebandCmd i w x.t16).csuProgress i) else p
  | .tim =>
    if off = 0x040 ∨ off = 0x044 ∨ off = 0x048 then p.timRefresh
    else if off = 0x078 then s.when (bit v 0) (fun s => s.setSecCmd w)
    else p
  | _ => p

/-- The server of the request that waits on FWM page n writes its buffers (file 14, R481). -/
def State.mbServer (s : State) (n : Nat) (m : Master) : Bool :=
  let v := s.mbService n
  let core (i : Nat) : Bool := decide (s.holder (if v = 0x20 then 4 else if v = 0x21 then 5 else v - 16) = some i)
  if s.mbService n = 1 then decide (m = .sm) else decide (16 ≤ s.mbService n) && ((decide (m = .en0) && core 0) || (decide (m = .en1) && core 1))

/-- FWM pages (file 14). -/
def State.writeFwm (s : State) (x : RegWrite) (n off v : Nat) : State :=
  let w := x.acc.who
  let p := s.plainWrite w (pgFwm n) off v
  let busy := decide (s.mbState n = mbBusy)
  if off = 0x040 then s.when (bit v 0) (fun s => s.mbRing w n)
  else if 0x100 ≤ off ∧ off < 0x200 then (if busy && !s.mbServer n w.master then s else p)
  else if 0x200 ≤ off then (if busy && s.mbServer n w.master then s.wr (pgFwm n) (FWM_RSP_word ((off - 0x200) / 4)) v else s)
  else if n = 0 ∧ off = 0x058 then s.writePushCtrl v
  else if n = 0 ∧ off = 0x05C then s.pushData w v
  else if n = 0 ∧ off = 0x070 then s.when (bit v 0) (fun s => s.wdogKick w)
  else p

/-- Host, fault, log, playbill, mode and identification pages (files 13, 15, 16, 17). -/
def State.writeChip (s : State) (x : RegWrite) (typ : PageType) (off v : Nat) : State :=
  let w := x.acc.who
  let p := s.plainWrite w x.acc.page off v
  match typ with
  | .hst =>
    if 0x100 ≤ off ∧ off < 0x180 ∧ off % 32 = 0x14 then s.when (bit v 0) (fun s => s.dmaGo ((off - 0x100) / 32)) else p
  | .bxm =>
    if off = 0x048 then s.ownReq (getBits v 31 28) (getBits v 8 0)
    else if off = 0x050 then (if w.master = .sm then p.digTouch 74 else s)
    else p
  | .flt => if off = 0x044 then s.fltAck v else if off = 0x04C then s.fltInject v else p
  | .log => if off = 0x044 then p.mirrorCheck else if off = 0x078 then s.when (bit v 0) (fun s => s.ghostClear w) else p
  | .plb => if off = 0x048 then s.when (bit v 0) State.plbGo else p
  | .mode =>
    if off = 0x048 then s.writeModeCmd w v x.temps
    else if off = 0x058 then s.auditStart (getBits v 31 28) (getBits v 7 0)
    else p
  | .chipId =>
    if off = 0x0C0 ∨ off = 0x0C4 then (if thermOk (getBits v 7 0) (getBits v 15 8) (getBits v 23 16) then p else s) else p
  | _ => p

/-- A register beyond the header of a page. -/
def State.writeBody (s : State) (x : RegWrite) (i : PageInfo) (off v : Nat) : State :=
  let r := i.region.getD 0
  let B := 8 * r + i.block.getD 0
  match i.typ with
  | .box => s.writeBox x i.inst off v
  | .lln | .fec => s.writeLine x i.typ (4 * B + i.inst) off v
  | .otu => s.writeLine x i.typ (16 * B + i.inst) off v
  | .fyl => s.writeFyl x (12 * r + i.inst) off v
  | .ohq => s.writeOhq x r off v
  | .chk => s.writeChk x i.inst off v
  | .prt | .wng | .hbm => s.writePrtWng x i.typ i.inst off v
  | .sdp | .cbb | .csu | .tim => s.writeTime x i.typ i.inst off v
  | .fwm => s.writeFwm x i.inst off v
  | _ => s.writeChip x i.typ off v

/-! ### 64-bit pairs -/

/-- A write of the _LO word at `off`. -/
def State.writeLo (s : State) (w : Who) (pg off v : Nat) : State :=
  match pageInfo pg with
  | some ⟨.box, n, _, _⟩ => if off = 0x040 ∧ s.cueRuns n then s.setErr pg errStagedLocked else s.holdLo (reqPage pg w) off v
  | some ⟨.chk, u, _, _⟩ => s.chkBy u w.master (fun s => s.holdLo (reqPage pg w) off v)
  | _ => s.holdLo (reqPage pg w) off v

/-- A write of the _HI word of the pair whose _LO stands at `off`. -/
def State.writeHi (s : State) (w : Who) (pg off v : Nat) : State :=
  let put (s : State) : State := s.putPair (reqPage pg w) pg off v
  match pageInfo pg with
  | some ⟨.box, n, _, _⟩ => if off = 0x040 ∧ s.cueRuns n then s.setErr pg errStagedLocked else put s
  | some ⟨.chk, u, _, _⟩ => s.chkBy u w.master put
  | some ⟨.log, _, _, _⟩ => if off = 0x048 then (put s).mirrorCheck else put s
  | some ⟨.wng, _, _, _⟩ => if off = 0x300 then (put s).pmsCheck else put s
  | _ => put s

/-! ### One register write -/

/-- A write of a page's header (R56 to R59, R66 to R68). -/
def State.writeHeader (s : State) (w : Who) (pg off v : Nat) : State :=
  let rq := reqPage pg w
  if off = 0x008 then s.writeCtrl pg v
  else if off = 0x00C then s.writeOwner w pg v
  else if off = 0x018 then s.ackEvents pg v
  else if off = 0x020 then s.forceEvents pg v
  else if off = 0x028 then s.indAddr w pg v
  else if off = 0x02C then ((s.wr rq IND_CTRL_view (getBits v 9 9)).wr rq IND_CTRL_auto_inc (getBits v 8 8)).wr rq IND_CTRL_stride (getBits v 7 0)
  else if off = 0x03C then s.indStore w pg v
  else if 0x030 ≤ off ∧ off < 0x03C then s.wr rq (IND_DATA_data ((off - 0x030) / 4)) v
  else s.plainWrite w pg off v

/-- A write of all four bytes of one register. -/
def State.writeReg (s : State) (x : RegWrite) : State :=
  let pg := x.acc.page
  let off := regOff x.acc.off
  let v := x.value % 2 ^ 32
  match pageInfo pg with
  | none => s
  | some i =>
    if off < 0x040 then s.writeHeader x.acc.who pg off v
    else if pairWritable pg off then s.writeLo x.acc.who pg off v
    else if 0x044 ≤ off ∧ pairWritable pg (off - 4) then s.writeHi x.acc.who pg (off - 4) v
    else s.writeBody x i off v

/-! ### The proxy (R451, Table HST-4) -/

/-- What an access through box n's proxy does with register `off` of a page; none where the table does not allow it. -/
def proxyAllows (pg off : Nat) (write : Bool) : Bool :=
  match pageInfo pg with
  | none => false
  | some i =>
    ((off = 0x000 || off = 0x004) && !write) ||
    (!(typeTabs i.typ i.inst).isEmpty && (off = 0x028 || off = 0x02C || (decide (0x030 ≤ off) && decide (off ≤ 0x03C)))) ||
    (match i.typ with
      | .prt => off = 0x044 || off = 0x048 || off = 0x04C || ((off = 0x050 || off = 0x054 || off = 0x058) && !write)
      | .ohq => (decide (0x040 ≤ off) && decide (off ≤ 0x050)) || (decide (0x080 ≤ off) && decide (off < 0x0C0) && !write)
      | .wng => off = 0x050
      | _ => false)

/-- Through the proxy of box n. -/
def proxyWho (n : Nat) : Who := { master := .host, box := n, proxy := true }

/-- The page that the proxy of box n reaches, while it is on. -/
def State.proxyPage (s : State) (n : Nat) : Option Nat :=
  if s.rdb (pgBox n) BOX_PX_PAGE_en then some (s.rd (pgBox n) BOX_PX_PAGE_tpage) else none

/-- An access that the table does not allow. -/
def State.proxyDenied (s : State) (n : Nat) : State := (s.wrb (pgBox n) BOX_PX_STATUS_denied true).ev (pgBox n) 6

/-- The target page's region is in RESET (R462). -/
def State.pageInReset (s : State) (pg : Nat) : Bool :=
  match pageRegion pg with
  | some r => decide (s.region r = rgnReset)
  | none => false

/-- OHQ_READY of a region as box n sees it. -/
def State.proxyReady (s : State) (n pg w : Nat) : Nat :=
  let v := s.rd pg (OHQ_READY_ready w)
  (List.range 32).foldl (fun a k => if bit v k ∧ s.rowOwner pg T_CAP_CFG (32 * w + k) = n then a + 2 ^ k else a) 0

/-- A read at BOX offset 0x200 + x: the status, the value. -/
def State.proxyRead (s : State) (n x : Nat) : Nat × Nat × State :=
  match s.proxyPage n with
  | none => (bsOk, 0, s)
  | some pg =>
    if !proxyAllows pg x false then (bsOk, 0, s.proxyDenied n)
    else if s.pageInReset pg then (bsResetting, 0, s)
    else
      match pageInfo pg with
      | some ⟨.ohq, _, _, _⟩ =>
        if 0x080 ≤ x then (bsOk, s.proxyReady n pg ((x - 0x080) / 4), s)
        else let (v, s) := s.readReg (proxyWho n) pg x; (bsOk, v, s)
      | some ⟨.prt, _, _, _⟩ =>
        if x = 0x058 then (bsOk, s.rd (pgBox n) BOX_NOTE_LOST, s)
        else let (v, s) := s.readReg (proxyWho n) pg x; (bsOk, v, s)
      | _ => let (v, s) := s.readReg (proxyWho n) pg x; (bsOk, v, s)

/-- A write at BOX offset 0x200 + x. -/
def State.proxyWrite (s : State) (n x v : Nat) : Nat × State :=
  match s.proxyPage n with
  | none => (bsOk, s)
  | some pg =>
    if !proxyAllows pg x true then (bsOk, s.proxyDenied n)
    else if s.pageInReset pg then (bsResetting, s)
    else (bsOk, s.writeReg { acc := { who := proxyWho n, page := pg, off := x, be := 15 }, value := v, temps := [], t16 := 0, bad := [] })

/-! ### Register accesses with the proxy window -/

/-- The proxy window of a BOX page: its box and the offset in it. -/
def proxyAt (pg off : Nat) : Option (Nat × Nat) :=
  match pageInfo pg with
  | some ⟨.box, n, _, _⟩ => if 0x200 ≤ regOff off ∧ regOff off < 0x300 then some (n, regOff off - 0x200) else none
  | _ => none

/-- One 32-bit read of a page by a master that the matrix admits: status and value (R53). -/
def State.accessRead (s : State) (w : Who) (pg off be : Nat) : Nat × Nat × State :=
  if be % 16 = 0 then (bsOk, 0, s)
  else match proxyAt pg off with
    | some (n, x) => s.proxyRead n x
    | none => let (v, s) := s.readReg w pg (regOff off); (bsOk, v, s)

/-- One 32-bit write of a page by a master that the matrix admits (R53). -/
def State.accessWrite (s : State) (x : RegWrite) : Nat × State :=
  let pg := x.acc.page
  if x.acc.be % 16 ≠ 15 then (bsOk, s.setErr pg errPartialWrite)
  else match proxyAt pg x.acc.off with
    | some (n, o) => s.proxyWrite n o (x.value % 2 ^ 32)
    | none => (bsOk, s.writeReg x)

/-! ### Meanings -/

/-- A write of a register by a master. -/
def runReg (x : RegWrite) (s : State) : Host.Outcome State Fault Refusal :=
  runBus x.acc.who x.acc.page true (fun s => let (c, s) := s.accessWrite x; s.answer c []) s

/-- A write of a pair's word: nothing beyond the value enters it. -/
def pairWrite (a : RegAcc) (v : Nat) : RegWrite := { acc := a, value := v, temps := [], t16 := 0, bad := [] }

def execRegisterWrite (x : RegWrite) := runReg x
def execLoWrite (a : RegAcc) (v : Nat) := runReg (pairWrite a v)
def execHiWrite (a : RegAcc) (v : Nat) := runReg (pairWrite a v)

end Sys2Proof.Machine
end

