-- ==== Sys2Proof/Machine/HostIf.lean ====
section
/-! DEFINITION. Host requests: decoding, the aperture, MSI-X tables, the request log, bus timeouts, the proxy command and configuration
requests (file 02, R46 to R53; file 08, R287; file 13, R441, R448 to R451, R460 to R464; file 16, R548). -/

namespace Sys2Proof.Machine

open Sys2Proof

/-! ### What a request reaches -/

/-- The target of a host request. -/
inductive HostTarget where
  | page (pg : Nat)
  | aperture (a : Nat)
  | msix
  | none
  deriving DecidableEq, Repr

/-- R46, R448 and Table HST-1. -/
def State.hostTarget (s : State) (x : HostReq) : HostTarget :=
  let o := x.offset
  if x.bar = 0 ∧ x.fn = 0 ∧ o < 2 ^ 29 then (if bit o 28 then .aperture (s.rd pgHst HST_APT_BASE_base / 2 ^ 20 * 2 ^ 20 + o % 2 ^ 28) else .page (o / 4096))
  else if x.bar = 1 ∧ x.fn = 0 ∧ o < 2 ^ 16 then .msix
  else if x.bar = 2 ∧ x.fn ≠ 0 ∧ o < 2 ^ 20 then
    match s.vfTarget x.fn (o / 4096) with
    | some pg => .page pg
    | none => .none
  else if x.bar = 3 ∧ x.fn ≠ 0 ∧ o < 2 ^ 12 then .msix
  else .none

/-- The bytes of the alignment spaces and of the striped space (R287), and which of them an aperture access may reach (R450). -/
def State.apertureOk (s : State) (a : Nat) (write : Bool) : Bool :=
  s.rdb pgHst HST_APT_CFG_en && decide (a < hbmSize) && !decide (0x1FFFE00000 ≤ a ∧ a < 0x2000000000) &&
    (!write || (if a < 0x1FFFE00000 then decide (s.mode = modeAudit) else s.rdb pgHst HST_APT_CFG_wr_en))

/-- The host as the master of a request. -/
def reqWho (x : HostReq) : Who := { master := .host, box := x.fn, proxy := false }

/-- The request is a posted write. -/
def reqPosted (x : HostReq) : Bool :=
  match x.op with
  | .write _ => true
  | _ => false

/-! ### Words of memory -/

/-- A 32-bit word at a byte address of HBM. -/
def State.memWord (s : State) (a : Nat) : Nat := ofBytesLe (memReadBytes s.mem a 4)

/-- Write the enabled bytes of a word. -/
def State.putMemWord (s : State) (a be v : Nat) : State :=
  s.each ((List.range 4).filter (bit be)) (fun s k => { s with mem := memWrite s.mem (a + k) (BitVec.ofNat 8 (v / 256 ^ k)) })

/-! ### MSI-X tables (Table HST-1) -/

/-- Vectors of a function. -/
def vectors (n : Nat) : Nat := if n = 0 then 2048 else 8
/-- The PBA's offset in BAR2. -/
def pbaOffset (n : Nat) : Nat := if n = 0 then 0x8000 else 0x800

/-- A word of BAR2: table, PBA (R454), or reserved. -/
def State.msixRead (s : State) (n o : Nat) : Nat :=
  let v := o / 16
  if o < 16 * vectors n then (if o / 4 % 4 = 3 then b2n (s.vecs.get {} (vecKey n v)).masked else s.msixWord n v (o / 4 % 4))
  else if pbaOffset n ≤ o ∧ o < pbaOffset n + vectors n / 8 then
    (List.range 32).foldl (fun a k =>
      let v := 8 * (o - pbaOffset n) / 32 * 32 + k
      if v < vectors n ∧ (s.vecs.get {} (vecKey n v)).pending then a + 2 ^ k else a) 0
  else 0

/-- The enabled bytes of a word replaced. -/
def mergeWord (old be v : Nat) : Nat := (List.range 4).foldl (fun a k => a + (if bit be k then v else old) / 256 ^ k % 256 * 256 ^ k) 0

/-- A write of a word of the MSI-X table; the PBA ignores writes. -/
def State.msixWrite (s : State) (n o be v : Nat) : State :=
  let x := o / 16
  if o < 16 * vectors n then
    if o / 4 % 4 = 3 then (if bit be 0 then { s with vecs := s.vecs.upd {} (vecKey n x) (fun y => { y with masked := bit v 0 }) } else s)
    else
      let k := 8192 * n + 4 * x + o / 4 % 4
      { s with msixTab := s.msixTab.set 0 k (mergeWord (s.msixTab.get 0 k) be v) }
  else s

/-! ### Carrying a request out (R53, R461) -/

/-- The first status that is not OK. -/
def worse (a b : Nat) : Nat := if a = bsOk then b else a

/-- The words of a read, in order. -/
def State.hostReadWords (s : State) (x : HostReq) (t : HostTarget) : Nat × List Nat × State :=
  (List.range (reqWords x)).foldl (fun a k =>
    let (c, out, s) := a
    match t with
    | .page pg =>
      let (c', v, s) := s.accessRead (reqWho x) pg (x.offset / 4 * 4 + 4 * k) (reqBe x k)
      (worse c c', out ++ [v], s)
    | .aperture b => (c, out ++ [s.memWord (b / 4 * 4 + 4 * k)], s)
    | .msix => (c, out ++ [s.msixRead x.fn (x.offset / 4 * 4 + 4 * k)], s)
    | .none => (c, out ++ [0], s)) (bsOk, [], s)

/-- The words of a write, in order. -/
def State.hostWriteWords (s : State) (x : HostReq) (t : HostTarget) (data : List Nat) : Nat × State :=
  (List.range (reqWords x)).foldl (fun a k =>
    let (c, s) := a
    let v := data.getD k 0 % 2 ^ 32
    let o := x.offset / 4 * 4 + 4 * k
    match t with
    | .page pg =>
      let (c', s) := s.accessWrite { acc := { who := reqWho x, page := pg, off := o, be := reqBe x k }, value := v, temps := x.temps, t16 := x.t16, bad := x.bad }
      (worse c c', s)
    | .aperture b => (c, s.putMemWord (b / 4 * 4 + 4 * k) (reqBe x k) v)
    | .msix => (c, s.msixWrite x.fn o (reqBe x k) v)
    | .none => (c, s)) (bsOk, s)

/-- The status that the matrix decides before the target is reached. -/
def State.hostAdmit (s : State) (x : HostReq) (t : HostTarget) : Nat :=
  let write := reqPosted x
  if x.op = .other ∨ !s.fnEnabled x.fn then bsUnsupported
  else match t with
    | .page pg => s.admitCode (reqWho x) pg write
    | .aperture a => if s.apertureOk a write then bsOk else bsUnmapped
    | .msix => bsOk
    | .none => bsUnmapped

/-- The request log takes a request as its newest entry (R464). -/
def State.txnLog (s : State) (x : HostReq) (status data : Nat) : State :=
  let s := s.each (List.range 63).reverse (fun s k => s.setEntry pgHst T_HST_TXN (k + 1) (s.entry pgHst T_HST_TXN k))
  let (kind, tag) : Nat × Nat := match x.op with
    | .read => (0, x.tag)
    | .write _ => (1, 0)
    | .other => (2, x.tag)
  let s := { s with hst := { s.hst with seq := (s.hst.seq + 1) % 2 ^ 32 } }
  s.setEntry pgHst T_HST_TXN 0 (s.hst.seq + x.fn % 512 * 2 ^ 32 + kind * 2 ^ 41 + tag % 1024 * 2 ^ 43 + x.bar % 4 * 2 ^ 53 +
    x.offset % 2 ^ 28 * 2 ^ 64 + x.firstBe % 16 * 2 ^ 92 + data % 2 ^ 32 * 2 ^ 96 + status * 2 ^ 128 + reqWords x % 1024 * 2 ^ 136 + s.now.packed * 2 ^ 192)

/-- A reply of a region that comes after its request has ended (R462). -/
def State.lateReply (s : State) (pg : Nat) : State :=
  match pageRegion pg with
  | some r => (s.count pgBxm (BXM_LATE r)).ev pgBxm 1
  | none => s

/-- How a request ends: its status counts unless it is OK, the log takes it, and it is answered. -/
def State.hostEnd (s : State) (x : HostReq) (status : Nat) (data : List Nat) : State :=
  let first := match x.op with
    | .write l => l.headD 0
    | _ => data.headD 0
  let s := s.when (decide (status ≠ bsOk)) (fun s => s.busError (reqWho x) status)
  (s.txnLog x status first).answer status data

/-- The requests that the matrix has carried for functions in this FAB cycle. -/
def State.carried (s : State) : List (Nat × Bool) := if s.hst.ids.1 = s.fab then s.hst.ids.2 else []

/-- A request is held back (R460): it came in an earlier FAB cycle behind others (`held`), or another of the same function goes to its
target in the same cycle before it; a posted write waits for writes only. Each held request counts. -/
def State.heldBack (s : State) (x : HostReq) : Bool := x.held || s.carried.any (fun y => decide (y.1 = x.fn) && (y.2 || !reqPosted x))

/-- The matrix takes a host request. -/
def State.carry (s : State) (x : HostReq) : State :=
  let s := s.when (s.heldBack x) (fun s => s.count pgBxm BXM_HELD)
  { s with hst := { s.hst with ids := (s.fab, (x.fn, reqPosted x) :: s.carried) } }

/-- HOST_REQUEST (R461): what was received before a drop of the link completes inside the device (R463). -/
def State.hostRequest (s : State) (x : HostReq) : State :=
  if s.rd pgMode MODE_CALL_step < 2 then s
  else
    let up := s.rdb pgHst HST_LINK_up
    let s := s.carry x
    let t := s.hostTarget x
    let code := s.hostAdmit x t
    if code ≠ bsOk then
      let s := match t with
        | .page pg => s.when (x.late && decide (code = bsResetting)) (fun s => s.lateReply pg)
        | _ => s
      s.hostEnd x (if up || reqPosted x then code else bsDiscarded) []
    else match x.op with
      | .write data => let (c, s) := s.hostWriteWords x t data; s.hostEnd x c []
      | _ =>
        let (c, out, s) := s.hostReadWords x t
        s.hostEnd x (if !up then bsDiscarded else if c ≠ bsOk then c else if x.poison then bsPoison else bsOk) out

/-! ### Requests without a reply -/

/-- BUS_TIMEOUT (R461): a target has not replied within 50 µs to a request that the matrix had admitted; `h` is the host request,
if it was one. -/
def State.busTimeoutEnd (s : State) (w : Who) (pg : Nat) (write late : Bool) (h : Option HostReq) : State :=
  if s.admitCode w pg write ≠ bsOk then s
  else
    let s := (s.report clsBus 1 (srcService 1)).when late (fun s => s.lateReply pg)
    match h with
    | some x => s.hostEnd x bsTimeout []
    | none => (s.busError w bsTimeout).answer bsTimeout []

/-! ### The proxy command (R451) -/

/-- An access at BOX offset 0x200 + x of box n: a write of v, or a read. -/
def State.proxyStep (s : State) (n x be : Nat) (v : Option Nat) : State :=
  let o := x % 256 / 4 * 4
  match v with
  | some v =>
    if be % 16 = 15 then let (c, s) := s.proxyWrite n o (v % 2 ^ 32); s.answer c []
    else (s.setErr (pgBox n) errPartialWrite).answer bsOk []
  | none => if be % 16 = 0 then s.answer bsOk [0] else let (c, v, s) := s.proxyRead n o; s.answer c [v]

/-! ### Configuration requests (R441, R548) -/

/-- The reply of a configuration request that is to be tried again: no status of Table HST-6. -/
def cfgRetry : Nat := 8

/-- The identification of Table REG-8 (file 02, R84): the vendor; the device of the PF and of a VF; the class code; the Revision ID,
the code of the revision's letter in [7:4] and its digit in [3:0] (`A` is 0xA). -/
def cfgVendor : Nat := 0x1E9A
def cfgDevice (fn : Nat) : Nat := if fn = 0 then 0x1024 else 0x1025
def cfgClass : Nat := 0x028000
def State.cfgRevision (s : State) : Nat :=
  (s.rd pgChipId CHIP_ID_REV_letter + 256 - 0x41 + 0xA) % 16 * 16 + s.rd pgChipId CHIP_ID_REV_digit % 16

/-- A word of a function's configuration space. PRESUMED: where the identification stands is the PCI header's; the spec gives no other
word of it, so any other word reads as a free value. -/
def State.cfgWord (s : State) (fn off : Nat) : Nat × State :=
  if off % 4096 / 4 = 0 then (cfgVendor + cfgDevice fn * 2 ^ 16, s)
  else if off % 4096 / 4 = 2 then (s.cfgRevision + cfgClass * 2 ^ 8, s)
  else s.free 32

/-- CONFIGURATION_REQUEST. A function that VF Enable brings in, or takes away, holds its PCIe reset values. -/
def State.configuration (s : State) (x : CfgReq) : State :=
  if !s.rdb pgHst HST_LINK_up then s
  else if s.rd pgMode MODE_CALL_step < 2 then s.answer cfgRetry []
  else
    match x with
    | .read fn off => if s.fnEnabled fn then let (v, s) := s.cfgWord fn off; s.answer bsOk [v] else s.answer bsUnsupported []
    | .vfEnable n =>
      let n := min n 511
      let s := s.each ((List.range 512).filter (fun k => decide (min n s.numVfs < k ∧ k ≤ max n s.numVfs))) (fun s k => s.fnReset k true)
      ({ s with numVfs := n }).answer bsOk []
    | .msix n en m =>
      ((if s.fnEnabled n then { s with fns := s.fns.set {} n { msixEn := en, msixMask := m } } else s)).answer bsOk []
    | .other => s.answer bsOk []

/-! ### Meanings -/

def execHostRequest (x : HostReq) := run (fun s => s.hostRequest x)
def execBusTimeout (w : Who) (pg : Nat) (write late : Bool) (h : Option HostReq) := run (fun s => s.busTimeoutEnd w pg write late h)
def execProxyAccess (w : Who) (n off be : Nat) (v : Option Nat) :=
  runBus w (pgBox (n % 512)) v.isSome (fun s => s.proxyStep (n % 512) off be v)
def execConfigurationRequest (x : CfgReq) := run (fun s => s.configuration x)

end Sys2Proof.Machine
end

