-- ==== Sys2Proof/Machine/Frames.lean ====
section
/-! DEFINITION. Codewords and frames: a received codeword, OTUC frames received and sent, ODU frames at an ingress and at an egress
context, and the holdover of the rate generator (file 03, R108; file 04, R132, R151; file 05, R172, R176, R184; file 06, R218, R222;
file 07, R232, R254; file 08, R271). -/

namespace Sys2Proof.Machine

open Sys2Proof

/-! ### Lines -/

/-- The 544 symbols of a received codeword: those of its instance among the lane's (file 03, R89, R90, R107). The spec gives the
rotation for the four-instance lane; for two instances it is PRESUMED (log 102). -/
def State.cwWord (s : State) (n : Nat) (x : CwRx) : List Nat :=
  unrotate (s.laneInst n) (x.inst % s.laneInst n) (levelSymbols (s.laneReceived n x.levels))

/-- The lane decodes codewords: it runs, has adapted, and has codeword lock (R97, R108). -/
def State.laneDecodes (s : State) (n : Nat) : Bool :=
  decide (n < 256) && s.laneRuns n && s.rdb (pgLln n) LLN_STATUS_trained && s.rdb (pgLln n) LLN_STATUS_cw_lock

/-- A lane's decoder passes a word on (R107): corrected, or as it came with the mark that it could not be corrected; the loops
of R98 go on, and far loopback sends the recovered data (R117). -/
def State.passWord (s : State) (n : Nat) (x : CwRx) : State :=
  let y := rsDecode (s.cwWord n x)
  let s := s.setLane n (fun l => { l with word := y.1, wordBad := decide (y.2 = 16) })
  (s.farLoop n (s.laneReceived n x.levels)).adaptLoops n

/-- CODEWORD_DECODE (R107, R108): a complete codeword of a lane that decodes, with the PTP event message that it completes on a line
client (file 12, R435). -/
def State.codewordDecode (s : State) (n : Nat) (x : CwRx) (m : Option LinePtp) : State :=
  if s.laneDecodes n ∧ (s.cwWord n x).length = 544 then
    let y := rsDecode (s.cwWord n x)
    let s := ((s.passWord n x).codeword n y.2).pcsReceive n y.1 (decide (y.2 = 16))
    match s.ethLead n, m with
    | some l, some x => s.linePtp l x
    | _, _ => s
  else s

/-- OTUC_FRAME (R132): an expected frame position of a slice that runs. -/
def State.otucFrame (s : State) (d : Nat) (f : OtucFrame) : State :=
  if d < 1024 ∧ s.sliceRuns d ∧ s.datapath (sliceRegion d) then (s.otucFrameIn d f).gccIn d f.gcc0 else s

/-- OTUC_TX_FRAME (R151): the members of the OTUCn led by `lead` send their next frame, its unused instances theirs (R125), and its
lanes the codewords that these make. -/
def State.otucTxFrame (s : State) (lead : Nat) (x : OtucTx) : State :=
  let ms := s.otucMembers lead
  if lead < 1024 ∧ s.sliceMember lead ∧ s.sliceLead lead = lead ∧ s.region (sliceRegion lead) ≠ rgnReset ∧ s.mode ≠ modeCall ∧
      s.mode ≠ modeDark then
    let runs := ms.any (fun d => s.rdb (pgOtu d) PAGE_CTRL_run)
    let mfas := (s.slice lead).txMfas
    let (gcc, s) := if runs then s.gccOut lead else ([], s)
    let rpf := s.otucRpf lead
    let s := s.each ((List.range ms.length).zip ms) (fun s y =>
      s.otucSend y.2 mfas (gcc.getD y.1 [0, 0]) (x.computed.getD y.1 0 % 256) rpf)
    let s := s.each (s.otucUnused lead) (fun s d => s.emit (.unusedInstance d 0 (s.ifF lead OTU_IF.gid) rpf))
    let s := s.otucLine lead x.words
    if runs then s.setSlice lead (fun x => { x with txMfas := (x.txMfas + 1) % 256 }) else s
  else s

/-! ### ODU frames received -/

/-- The APS/PCC bytes of a received frame reach the channel of the context (R254). -/
def State.apsExtract (s : State) (B e : Nat) (f : OduFrame) : State :=
  if s.ctxB B 0 e CTX.aps_en ∧ f.mfas % 8 = s.ctxF B 0 e CTX.aps_level then
    match s.apsOfRx (s.ctxGroup B 0 e) with
    | some a => s.apsReceive a (f.aps.foldl (fun a b => 256 * a + b % 256) 0)
    | none => s
  else s

/-- ODU_FRAME_SINK (R176): one frame at an ingress context, with the APS bytes and the overhead channels that it carries. -/
def State.oduFrameSink (s : State) (B e : Nat) (f : OduFrame) : State :=
  if B < 64 ∧ s.ctxB B 0 e CTX.valid ∧ s.datapath (B / 8) then
    let s := s.oduFrameIn B e f
    let inF := decide (s.ctxF B 0 e CTX.stage = 0 ∨ (s.ctx B 0 e).fst = 2)
    let ok := inF && !s.ctxStatusB B 0 e CTX_STATUS.ssf_in && !(s.ctx B 0 e).fill
    let s := if ok then s.apsExtract B e f else s
    let s := if ok && s.isClient B 0 e && decide (s.cliCode B 0 e = 0) then s.takeClient B e (bmpTake 4 f.opu) else s
    s.ohCapture B e f ok
  else s

/-! ### ODU frames sent -/

/-- The bridge in effect that has a context as an output: its region index, its row, whether the context is the protection output
(R232). -/
def State.bridgeOf (s : State) (B e : Nat) : Option (Nat × Nat × Bool) :=
  ((s.effRows (pgSel (B / 8)) T_BRG_CFG).filter (fun x => efieldb x.2 BRG_CFG.valid)).findSome? (fun x =>
    if efield x.2 BRG_CFG.w_blk = B % 8 ∧ efield x.2 BRG_CFG.w_slot = e then some (x.1, x.2, false)
    else if efield x.2 BRG_CFG.p_blk = B % 8 ∧ efield x.2 BRG_CFG.p_slot = e then some (x.1, x.2, true)
    else none)

/-- The context sends the null signal: the protection output of a switched bridge that is not bridged (R232). -/
def State.sendsNull (s : State) (B e : Nat) : Bool :=
  match s.bridgeOf B e with
  | some (i, v, p) => p && efieldb v BRG_CFG.kind && !s.tgetb (pgSel (B / 8)) T_BRG_STATUS i BRG_STATUS.bridged
  | none => false

/-- The forced signal of a context: 1 AIS (or its mark of R185), 2 LCK, 3 OCI, 0 none. -/
def State.forcedKind (s : State) (B e : Nat) : Nat :=
  if s.ctxB B 1 e CTX.force_ais || s.ctxStatusB B 1 e CTX_STATUS.forced then 1
  else if s.ctxB B 1 e CTX.force_lck then 2
  else if s.ctxB B 1 e CTX.force_oci then 3
  else 0

/-- The byte that fills ODU-AIS, ODU-LCK and ODU-OCI, and the PM or TCM field that it makes (R184). -/
def maintByte (kind : Nat) : Nat := if kind = 1 then 0xFF else if kind = 2 then 0x55 else 0x66
def maintLayer (kind : Nat) : LayerOh :=
  let b := maintByte kind
  ⟨b % 8, b, b, b / 16, bit b 3⟩

/-- The sources of an egress context: level, MPT entry. Of a stage-zero context they are ODUCn points (R172). -/
def State.ctxSources (s : State) (B e : Nat) : List (Nat × Nat) :=
  let src (m : Nat) : Bool := decide (m = 1 ∨ m = 3)
  (((List.range 7).filter (fun t => src (s.slotMode B 1 e t))).map (fun t => (t, dedEntry 1 e t))) ++
  (((s.sharedOn B 1 e).filter (fun q => decide (s.effF (pgMpt B) T_SHP q SHP.kind = 1) && src (s.sharedMode B q))).map
    (fun q => (s.effF (pgMpt B) T_SHP q SHP.level, shEntry q)))

/-- What an ODUCn point sends back (R180, R182): its paired ingress context's operational point of the same layer. -/
def State.takeBackShared (s : State) (B e level : Nat) : (Nat × Nat) × State :=
  match s.pairedSink (s.ctxGroup B 1 e % 32768) with
  | some (B', e') =>
    match (s.sharedOn B' 0 e').find? (fun q => decide (s.effF (pgMpt B') T_SHP q SHP.kind = 1 ∧
        s.effF (pgMpt B') T_SHP q SHP.level = level ∧ s.sharedMode B' q = 1)) with
    | some q =>
      let m := shPoint B' q
      ((b2n (s.pointBdi B' (shEntry q)), s.pointBei B' (shEntry q) m), s.setPoint m (fun p => { p with beiPend := 0 }))
    | none => ((0, 0), s)
  | none => ((0, 0), s)

/-- BDI and BEI/BIAE of a source. -/
def State.sourceBack (s : State) (B e level pe : Nat) : (Nat × Nat) × State :=
  if pe < 16384 then s.takeBack B e level else s.takeBackShared B e level

/-- The fields that a context's sources insert into a frame (R172): per position and level. The whole count goes into position 1; BDI
and BIAE go into all. -/
def State.sourceFields (s : State) (B e mfas n : Nat) : List (Nat × List LayerOh) × State :=
  let hist := (s.ctx B 1 e).txBip
  (s.ctxSources B e).foldl (fun a x =>
    let (back, s) := a.2.sourceBack B e x.1 x.2
    let tti := s.eff (pgMpt B) T_MP_TTI_TX x.2
    let stat := if x.1 ≠ 0 ∧ s.mpCfgB B x.2 MP_CFG.iae_tx then 2 else 1
    let k := mfas % 64
    let fields := (List.range n).map (fun p => (⟨stat, getBits tti (8 * k + 7) (8 * k), hist.getD (n + p) 0,
      if p = 0 ∨ back.2 = 11 then back.2 else 0, decide (back.1 ≠ 0)⟩ : LayerOh))
    (a.1 ++ [(x.1, fields)], s)) ([], s)

/-- The fields of a frame, per position, before the sources: received, or of a replacement; none where the context forms the ODU itself.
An ODUCn without a PM point inserts a PM field of its own (R172). -/
def State.baseLayers (s : State) (B e n : Nat) (rx : Option OduFrame) (fill : Nat) : List (List (Option LayerOh)) :=
  let hist := (s.ctx B 1 e).txBip
  (List.range n).map (fun p => (List.range 7).map (fun t =>
    if fill ≠ 0 then some (maintLayer fill)
    else match rx with
      | some f => some (layerAt (f.pos.getD p ⟨0, []⟩) t)
      | none => if t = 0 ∧ s.ctxF B 1 e CTX.stage = 0 then some ⟨1, 0, hist.getD (n + p) 0, 0, false⟩ else none))

/-- Lay the sources' fields over the base. -/
def overLayers (base : List (List (Option LayerOh))) (src : List (Nat × List LayerOh)) : List (List (Option LayerOh)) :=
  (List.range base.length).map (fun p => (List.range 7).map (fun t =>
    match src.find? (fun x => decide (x.1 = t)) with
    | some x => x.2[p]?
    | none => (base.getD p []).getD t none))

/-- The number of tributary slots of a carrier and its TS entries, in slot order. -/
def State.carrierSlots (s : State) (B e : Nat) : List Nat :=
  if s.ctxF B 1 e CTX.stage = 0 then
    (s.otucMembers (16 * B + s.ctxF B 1 e CTX.lead)).flatMap (fun d => (List.range 20).map (fun t => s.eff (pgOde B) T_TS1 (20 * (d % 16) + t)))
  else
    let typ := s.ctxF B 1 e CTX.odu_type
    let n := if typ = 2 then 8 else if typ = 4 then 32 else 80
    (List.range n).map (fun t => s.eff (pgOde B) T_TS2 (80 * s.ctxF B 1 e CTX.ho_handle + t))

/-- The MSI of a carrier (R164): 0 for an unallocated slot, tpn + 1 otherwise. -/
def State.msiSent (s : State) (B e : Nat) : List Nat :=
  (s.carrierSlots B e).map (fun v => if efieldb v TS1.used then efield v TS1.tpn + 1 else 0)

/-- The context forms its own ODU from the ODUs in its slots. -/
def State.formsCarrier (s : State) (B e : Nat) : Bool :=
  decide (s.ctxF B 1 e CTX.stage = 0) || (s.ctxB B 1 e CTX.ho && !s.ctxB B 1 e CTX.flow_en)

/-- The leg status of a context's selected input (R184); OK for a context without one. -/
def State.ctxInput (s : State) (B e : Nat) : Nat :=
  if s.ctxB B 1 e CTX.flow_en then s.inputLeg (B / 8) (s.ctxF B 1 e CTX.flow) (s.ctxB B 1 e CTX.src_sel) else legOk

/-- The client signal fail that a mapper sends (R222). -/
def State.csfNow (s : State) (B e : Nat) : Bool :=
  let f (x : TField) : Bool := decide (s.cliF B 1 e x ≠ 0)
  decide (s.ctxInput B e = legSf) || s.cliB B 1 e CLI_STATUS.crate ||
  (f CLI_CFG.lf_csf && (s.cliB B 1 e CLI_STATUS.clf || s.cliB B 1 e CLI_STATUS.crf)) || f CLI_CFG.force_csf

/-- What R221 and R222 make a mapper send in place of its client. -/
def State.refreshCliOut (s : State) (B e : Nat) : State :=
  s.setRepl B 1 e (decide (s.ctxInput B e = legSf) || s.cliB B 1 e CLI_STATUS.crate || decide (s.cliF B 1 e CLI_CFG.force_repl ≠ 0))

/-- The frame stamp F of a frame with a given MFAS (R270): the count advances with each frame of MFAS 0 behind the first frame that it
counts (DEDUCED, log 66). -/
def nextF (f : Option Nat) (mfas : Nat) : Nat :=
  match f with
  | none => mfas % 256
  | some f => (if mfas % 256 = 0 then f / 256 + 1 else f / 256) % 2 ^ 24 * 256 + mfas % 256

/-- A frame of one output of a bridge: a frame that the other output has sent already has that one's F, any other the next. The frames
ahead are kept as far as eight. -/
def BrgCnt.frame (c : BrgCnt) (o mfas : Nat) : Nat × BrgCnt :=
  match if c.ahead ≠ o then c.todo.findIdx? (fun f => decide (f % 256 = mfas % 256)) else none with
  | some j => (c.todo.getD j 0, { c with todo := c.todo.drop (j + 1) })
  | none =>
    let f := nextF c.f mfas
    let q := (if c.ahead = o then c.todo else []) ++ [f]
    (f, { f := some f, ahead := o, todo := q.drop (q.length - 8) })

/-- The stamp's counter runs on (R271): that of the bridge on its source, or the context's own. The answer is the frame's F. -/
def State.stampCount (s : State) (B e mfas : Nat) : Nat × State :=
  match s.bridgeOf B e with
  | some (i, _, p) =>
    let k := 2048 * (B / 8) + i
    let c := s.brgStamp.get {} k
    if s.sendsNull B e then (c.f.getD 0 / 256 * 256 + mfas, s)
    else
      let (f, c) := c.frame (b2n p) mfas
      (f, { s with brgStamp := s.brgStamp.set {} k c })
  | none =>
    let f := nextF (s.ctx B 1 e).stTx mfas
    (f, s.setCtx B 1 e (fun c => { c with stTx := some f }))

/-- The EXP bytes of a frame (R271). -/
def State.expBytes (s : State) (B e mfas : Nat) (x : OduTx) (passes : Bool) : Option (Nat × Nat) × State :=
  if s.ctxB B 1 e CTX.stamp_en then let (f, s) := s.stampCount B e mfas; (some (stampBytes (f / 256) mfas), s)
  else if s.rdb pgWng WNG_CFG_exp_clear then (some (0, 0), s)
  else (if passes then some x.exp else none, s)

/-- The APS/PCC bytes that the protection engine inserts (R254), if the frame carries its message. -/
def State.apsInsert (s : State) (B e mfas : Nat) : Option (List Nat) × State :=
  if s.ctxB B 1 e CTX.aps_en ∧ mfas % 8 = s.ctxF B 1 e CTX.aps_level then
    match s.apsOfTx (s.ctxGroup B 1 e % 32768) with
    | some a => let (v, s) := s.apsSend a; (some (bytesBe 4 v), s)
    | none => (none, s)
  else (none, s)

/-- PSI of a frame (R164, R222, R232): `opu` as in OduSent. The spec gives no payload type for a carrier. -/
def State.psiSent (s : State) (B e mfas opu : Nat) (rx : Option OduFrame) : Option Nat × State :=
  if 1 ≤ opu ∧ opu ≤ 3 then (some (maintByte opu), s)
  else if opu = 4 then (if mfas = 0 then some 0xFD else none, s)
  else if opu = 5 then
    if mfas = 0 then (some (s.cliF B 1 e CLI_CFG.pt), s)
    else if mfas = 2 then
      let csf := s.csfNow B e
      let s := if s.cliB B 1 e CLI_STATUS.csf_tx = csf then s else (s.tputb (pgMap B) T_CLI_STATUS e CLI_STATUS.csf_tx csf).ev (pgMap B) 2
      (some (128 * b2n csf), s)
    else (none, s)
  else if opu = 6 then (none, s)
  else (rx.map (·.psi), s)

/-- The monitors of an egress context judge a frame: those that watch it as received (`sent` = false), or as transmitted. -/
def State.egressMonitors (s : State) (B e : Nat) (f : OduFrame) (sent inMf : Bool) : State :=
  let asSent (m : Nat) : Bool := decide (458752 ≤ m) && decide (s.effF (pgMpt B) T_SHP ((m - 458752) % 1024) SHP.kind = 2 ∧
    s.effF (pgMpt B) T_SHP ((m - 458752) % 1024) SHP.tap = 1)
  let pts := (s.ctxPoints B 1 e).filter (fun p => decide (2 ≤ p.2.2.2) && (asSent p.1 == sent))
  s.each pts (fun s p => (s.judgePoint B 1 p f inMf).refreshPoint B 1 p.1 p.2.1 false false)

/-- The frame as sent, for the spotlights that watch it; none where its rules leave a field open. -/
def sentFrame (f : OduSent) (computed : List Nat) : Option OduFrame :=
  if f.layers.all (fun l => l.all Option.isSome) then
    some { fasOk := true, mfas := f.mfas, psi := f.psi.getD 0, msi := none, gcc1 := [], gcc2 := [], aps := []
           pos := (List.range f.layers.length).map (fun p => ⟨computed.getD p 0, (f.layers.getD p []).filterMap id⟩) }
  else none

/-- The frame machine on the reassembled stream (file 09, R324). -/
def State.egressMachine (s : State) (B e : Nat) (x : OduTx) : State :=
  match x.rx with
  | some f => s.setCtx B 1 e (fun c => oduFrameStep c f.fasOk f.mfas)
  | none => s.setCtx B 1 e (fun c => { c with fst := 0, fc := 0, fe := 0, mfIm := false, mfFirst := true })

/-- The received frame, for the monitors that watch it; a PM monitor judges the payload type too (dPLM, Table ODU-10). -/
def State.egressSpot (s : State) (B e : Nat) (x : OduTx) (rx : Option OduFrame) : State :=
  match rx with
  | some f =>
    let inMf := x.stamped || (s.ctx B 1 e).mfIm
    let s := s.egressMonitors B e f false inMf
    if inMf ∧ 2 ≤ s.slotMode B 1 e 0 then
      let m := s.pmOf B 1 e
      s.judgePt B 1 e m.1 m.2 (s.ctx B 1 e) f
    else s
  | none => s

/-- The payload that the device itself gives a frame: a maintenance signal or the null signal (R184; file 07, R232), or a BMP client
between fixed stuff, with its justification control 0 (file 06, R210); and that a flow's frame takes its bytes out of the buffer. -/
def State.oduPayload (s : State) (B e opu : Nat) : List Nat × List Nat × State :=
  if 1 ≤ opu ∧ opu ≤ 3 then (List.replicate 15232 (maintByte opu), [], s)
  else if opu = 4 then (List.replicate 15232 0, [], s)
  else if opu = 5 ∧ s.cliCode B 1 e = 0 then
    let (bs, s) := s.giveClient B e 15168
    (bmpFill 4 bs, [0, 0, 0, 0], s)
  else if opu = 0 then ([], [], s.setCli (ckey B 1 e) (fun x => { x with bytes := x.bytes.drop (15296 * s.ctxPositions B 1 e) }))
  else ([], [], s)

/-- OMFI of a frame (R198): an ODU4 that carries ODUs counts it modulo 80. -/
def State.omfiSent (s : State) (B e opu : Nat) : Option Nat × State :=
  if opu = 6 ∧ s.ctxF B 1 e CTX.odu_type = 5 then
    (some (s.ctx B 1 e).txOmfi, s.setCtx B 1 e (fun c => { c with txOmfi := (c.txOmfi + 1) % 80 }))
  else (none, s)

/-- The overhead of the next frame, and what taking it leaves: its count, whose payload it carries, the ODU it passes. -/
def State.oduOverhead (s : State) (B e : Nat) (x : OduTx) (mfas opu : Nat) (held : Bool) (pass : Option OduFrame) : OduSent × State :=
  let n := s.ctxPositions B 1 e
  let forced := decide (1 ≤ opu ∧ opu ≤ 3 ∧ s.forcedKind B e ≠ 0)
  let src := s.sourceFields B e mfas n
  let s := src.2
  let base := s.baseLayers B e n pass (if 1 ≤ opu ∧ opu ≤ 3 then opu else 0)
  let exp := s.expBytes B e mfas x pass.isSome
  let aps := exp.2.apsInsert B e mfas
  let s := aps.2
  let fill := some (List.replicate 2 (maintByte opu))
  let ch := if held then ((none, none, none), s) else s.ohInsert B e mfas
  let oh := if held then (fill, fill, some (List.replicate 4 (maintByte opu)))
    else (ch.1.1.orElse (fun _ => pass.map (·.gcc1)), ch.1.2.1.orElse (fun _ => pass.map (·.gcc2)),
      ch.1.2.2.orElse (fun _ => pass.map (·.aps)))
  let psi := ch.2.psiSent B e mfas opu pass
  let om := psi.2.omfiSent B e opu
  let pay := om.2.oduPayload B e opu
  ({ omfi := om.1, payload := pay.1, jc := pay.2.1, mfas := mfas, opu := opu, layers := if forced then base else overLayers base src.1, psi := psi.1
     msi := if opu = 6 ∧ mfas = 0 then psi.2.msiSent B e else []
     exp := if forced then some (maintByte opu, maintByte opu) else exp.1
     gcc1 := oh.1, gcc2 := oh.2.1
     aps := if forced then oh.2.2 else aps.1.orElse (fun _ => oh.2.2) }, pay.2.2)

/-- The frame leaves: the counts of the context, the spotlights, the slots that carry it. -/
def State.oduSend (s : State) (B e : Nat) (x : OduTx) (f : OduSent) (pass : Option OduFrame) : State :=
  let n := s.ctxPositions B 1 e
  let computed := match pass with
    | some g => g.pos.map (·.computed)
    | none => if f.opu = 5 ∨ f.opu = 6 then x.computed.map (· % 256) else List.replicate n 0
  let s := s.setCtx B 1 e (fun c => { c with
    txMfas := (f.mfas + 1) % 256, txBip := (((List.range n).map (computed.getD · 0)) ++ c.txBip).take (2 * n) })
  let s := match sentFrame f computed with
    | some g => s.egressMonitors B e g true true
    | none => s
  s.emit (.oduFrame B e f)

/-- ODU_FRAME_SOURCE (R172): the next frame of an egress context; what replaces the ODU (R184) or the client (file 06, R222). -/
def State.oduFrameSource (s : State) (B e : Nat) (x : OduTx) : State :=
  if B < 64 ∧ s.ctxB B 1 e CTX.valid ∧ s.datapath (B / 8) then
    let null := s.sendsNull B e
    let client := s.isClient B 1 e
    let carrier := s.formsCarrier B e
    let s := s.egressMachine B e x
    let found := x.stamped || decide ((s.ctx B 1 e).fst = 2)
    let rx := if found && !client && !carrier then x.rx else none
    let s := s.egressSpot B e x rx
    let input := s.ctxInput B e
    let forced := s.forcedKind B e
    let ais := !client && !carrier && !null && (decide (input = legSf) || rx.isNone)
    let s := (s.tputb (pgOde B) T_CTX_STATUS e CTX_STATUS.replaced (ais || (client && decide (input = legSf))))
    let s := (s.tput (pgOde B) T_CTX_STATUS e CTX_STATUS.leg input).evWhen (decide (s.ctxStatus B 1 e CTX_STATUS.leg ≠ input)) (pgOde B) 1
    let s := if client then s.refreshCliOut B e else s
    let opu := if forced ≠ 0 then forced else if ais then 1 else if null then 4 else if client then 5 else if carrier then 6 else 0
    let pass := if null ∨ ais ∨ forced ≠ 0 then none else rx
    let mfas := match pass with
      | some f => f.mfas % 256
      | none => (s.ctx B 1 e).txMfas
    let f := s.oduOverhead B e x mfas opu (decide (forced ≠ 0) || ais) pass
    f.2.oduSend B e x f.1 pass
  else s

/-! ### Holdover of the rate generator (R218) -/

/-- A condition that puts the generator of an egress context into holdover. -/
def State.rateLost (s : State) (B e : Nat) : Bool := decide (16 ≤ (s.cli (ckey B 1 e)).badRun) || decide (s.ctxInput B e = legSf)

/-- RATE_HOLD. -/
def State.rateHold (s : State) (B e : Nat) : State :=
  if B < 64 ∧ s.datapath (B / 8) ∧ (s.genRole B e).isSome ∧ s.rateLost B e ∧ !s.cliB B 1 e CLI_STATUS.gen_hold then
    ((s.setCli (ckey B 1 e) (fun c => { c with goodRun := 0 })).tputb (pgMap B) T_CLI_STATUS e CLI_STATUS.gen_hold true).ev (pgMap B) 3
  else s

/-- RATE_HOLD_END. -/
def State.rateHoldEnd (s : State) (B e : Nat) : State :=
  if B < 64 ∧ s.datapath (B / 8) ∧ s.cliB B 1 e CLI_STATUS.gen_hold ∧ 16 ≤ (s.cli (ckey B 1 e)).goodRun then
    s.tputb (pgMap B) T_CLI_STATUS e CLI_STATUS.gen_hold false
  else s

/-! ### The commands -/

def execCodewordDecode (n : Nat) (x : CwRx) (m : Option LinePtp) := run (fun s => s.codewordDecode n x m)
def execOtucFrame (d : Nat) (f : OtucFrame) := run (fun s => s.otucFrame d f)
def execOtucTxFrame (lead : Nat) (x : OtucTx) := run (fun s => s.otucTxFrame lead x)
def execOduFrameSink (B e : Nat) (f : OduFrame) := run (fun s => s.oduFrameSink B e f)
def execOduFrameSource (B e : Nat) (x : OduTx) := run (fun s => s.oduFrameSource B e x)
def execRateHold (B e : Nat) := run (fun s => s.rateHold B e)
def execRateHoldEnd (B e : Nat) := run (fun s => s.rateHoldEnd B e)

end Sys2Proof.Machine
end

