-- ==== Sys2Proof/Machine/PmBins.lean ====
section
/-! DEFINITION. The PM store's second, and the bins that the ensemble's firmware forms of it (file 05, R187, R188; file 14, R499). -/

namespace Sys2Proof.Machine

open Sys2Proof

/-! ### One second of one direction -/

/-- A point's frames in a second, as a fraction: each ODU frame is 122,368 bits (file 05, Table ODU-1); of an ODUCn and an OTUCn
those of one slice. -/
def State.pointFrames (s : State) (m : Nat) : Nat × Nat :=
  let of (B d e : Nat) : Nat × Nat :=
    let t := s.ctxF B d e CTX.odu_type
    let r := oduRate t 1 (s.ctxF B d e CTX.flex_kbps)
    (r.1 * 1000, r.2 * 122368)
  if m < 458752 then
    match s.ctxPlace (m / 7 / 32768) (m / 7 % 32768) with
    | some (B, e) => of B (m / 7 / 32768) e
    | none => (0, 1)
  else
    let B := (m - 458752) / 1024
    let q := (m - 458752) % 1024
    if q < 16 then (239 * 99532800 * 1000, 226 * 122368)
    else match s.shpOf B q with
      | some (d, e) => of B d e
      | none => (0, 1)

/-- A severely errored second (R499): a defect, or errored blocks reaching 30 % of the frames. -/
def sesOf (frames : Nat × Nat) (eb : Nat) (ds : Bool) : Bool := ds || decide (0 < eb ∧ 3 * frames.1 ≤ 10 * eb * frames.2)

/-- A second in available time: errored, severely errored, background blocks. -/
def PmCnt.second (c : PmCnt) (eb : Nat) (ds ses : Bool) : PmCnt :=
  { c with es := c.es + b2n (ds || decide (0 < eb)), ses := c.ses + b2n ses, bbe := c.bbe + (if ses then 0 else eb) }

/-- A severely errored second turns out to be unavailable. -/
def PmCnt.toUas (c : PmCnt) : PmCnt := { c with es := c.es - 1, ses := c.ses - 1, uas := c.uas + 1 }

/-- An unavailable second with `eb` errored blocks turns out to be available. -/
def PmCnt.toAvail (c : PmCnt) (eb : Nat) : PmCnt := { c with es := c.es + b2n (decide (0 < eb)), bbe := c.bbe + eb, uas := c.uas - 1 }

/-- What one second does to the counts of a direction: its own effect and the seconds before it that change, with the new
availability (G.826: unavailable time begins with the first of 10 severely errored seconds and ends with the first of 10 others). -/
structure PmStep where
  avail : PmAvail
  now : PmCnt → PmCnt
  old : List Nat
  fix : Nat → PmCnt → PmCnt

def PmAvail.step (a : PmAvail) (sec eb : Nat) (ds ses : Bool) : PmStep :=
  let ebOf (t : Nat) : Nat := a.pend.foldl (fun r x => if x.1 = t then x.2 else r) 0
  let run := (sec, eb) :: a.pend
  let counts : PmCnt → PmCnt := if a.ua then fun c => { c with uas := c.uas + 1 } else fun c => c.second eb ds ses
  if a.ua = ses then { avail := { a with pend := [] }, now := counts, old := [], fix := fun _ c => c }
  else if run.length < 10 then { avail := { a with pend := run }, now := counts, old := [], fix := fun _ c => c }
  else if a.ua then
    { avail := {}, now := fun c => c.second eb ds ses, old := a.pend.map (·.1), fix := fun t c => c.toAvail (ebOf t) }
  else { avail := { ua := true }, now := fun c => { c with uas := c.uas + 1 }, old := a.pend.map (·.1), fix := fun _ c => c.toUas }

/-! ### Bins -/

/-- The bin that a second begins when it is the first of a bin: the running bin goes to the past ones, with an empty partial one
for each bin that was missed altogether. -/
def rollBins (period keep sec : Nat) (last : Option Nat) (cur : PmBin) (past : List PmBin) : PmBin × List PmBin :=
  let st := sec / period * period
  let fresh : PmBin := { start := st, part := decide (st < sec) }
  match last with
  | none => (fresh, past)
  | some l =>
    let cur' : PmBin := if st ≤ cur.start then cur else { cur with part := cur.part || decide (l + 1 < cur.start + period) }
    if cur.start = st then ({ cur with part := cur.part || decide (l + 1 < sec) }, past)
    else
      let k := min keep ((st - cur.start) / period - 1)
      let missed := (List.range k).map (fun i => ({ start := st - period * (i + 1), part := true } : PmBin))
      ({ fresh with part := decide (st < sec ∧ l + 1 ≠ sec) }, (missed ++ cur' :: past).take keep)

/-- Change the counts of the bin that holds second t. -/
def fixBin (near : Bool) (t : Nat) (f : PmCnt → PmCnt) (cur : PmBin) (past : List PmBin) : PmBin × List PmBin :=
  let go (b : PmBin) : PmBin := if near then { b with near := f b.near } else { b with far := f b.far }
  if cur.start ≤ t then (go cur, past)
  else match past with
    | p :: rest => (cur, go p :: rest)
    | [] => (cur, [])

def PmBins.fix (x : PmBins) (near : Bool) (t : Nat) (f : PmCnt → PmCnt) : PmBins :=
  let a := fixBin near t f x.cur15 x.past15
  let b := fixBin near t f x.cur24 x.past24
  { x with cur15 := a.1, past15 := a.2, cur24 := b.1, past24 := b.2 }

/-- One direction's second. -/
def PmBins.side (x : PmBins) (near : Bool) (sec : Nat) (p : PmStep) : PmBins :=
  let x := p.old.foldl (fun x t => x.fix near t (p.fix t)) x
  let x := x.fix near sec p.now
  if near then { x with near := p.avail } else { x with far := p.avail }

/-- A point's second: its record of Table ODU-13, with the second in full. -/
def PmBins.second (x : PmBins) (frames : Nat × Nat) (sec rec_ : Nat) (last : Option Nat) : PmBins :=
  let flags := getBits rec_ 207 192
  let a := rollBins 900 32 sec last x.cur15 x.past15
  let b := rollBins 86400 1 sec last x.cur24 x.past24
  let mark (c : PmBin) : PmBin := { c with part := c.part || bit flags 14, susp := c.susp || bit flags 11 }
  let cont := decide (last = some (sec - 1) ∧ 0 < sec)
  let x : PmBins := { x with on := true, cur15 := mark a.1, past15 := a.2, cur24 := mark b.1, past24 := b.2
                             near := if cont then x.near else { x.near with pend := [] }
                             far := if cont then x.far else { x.far with pend := [] } }
  let ne := getBits rec_ 63 32
  let fe := getBits rec_ 95 64
  let x := x.side true sec (x.near.step sec ne (bit flags 0) (sesOf frames ne (bit flags 0)))
  x.side false sec (x.far.step sec fe (bit flags 1) (sesOf frames fe (bit flags 1)))

/-! ### The binning of a second -/

/-- The bins of a point. -/
def State.binsOf (s : State) (m : Nat) : PmBins :=
  let x := s.pmBins.get {} m
  if x.on then x else s.pmBase.get {} (pointRegion m)

def PmCnt.list (c : PmCnt) : List Nat := [c.es, c.ses, c.bbe, c.uas]

/-- A near-end count of a running bin has reached its threshold (PM_THRESH). -/
def State.thrReached (s : State) (m : Nat) : Bool :=
  let x := s.binsOf m
  let crossed (kind : Nat) (b : PmBin) : Bool :=
    ((s.pmThr.get [] (2 * m + kind)).zip b.near.list).any (fun y => decide (y.1 ≠ 0 ∧ y.1 ≤ y.2))
  crossed 0 x.cur15 || crossed 1 x.cur24

/-- The alarm of a threshold, kind 32. -/
def tcaKind : Nat := 32

def State.tcaJudge (s : State) (m : Nat) : State :=
  let on := s.thrReached m
  let is := decide (s.tca.get 0 m ≠ 0)
  if on = is then s
  else ({ s with tca := s.tca.set 0 m (if on then s.tb.sec + 1 else 0) }).alarmMoved (pointRegion m / 2) true m tcaKind

/-- The service bits beyond the personalities (R488). -/
def svcPmBin : Nat := 4
def svcHouse : Nat := 5

/-- The holder of PM binning bins a second (R499). -/
def State.binSecond (s : State) (f : PmFrame) : State :=
  if (s.holder svcPmBin).isSome then
    let last := s.pmLastBin
    let base := s.pmBase
    let old (m : Nat) : PmBins :=
      let x := s.pmBins.get {} m
      if x.on then x else base.get {} (pointRegion m)
    let ms := ((s.pmBins.map (·.1)) ++ f.recs.map (·.1)).eraseDups
    let s := { s with
      pmBins := ms.foldl (fun b m => b.set {} m (PmBins.second (old m) (s.pointFrames m) f.sec (pmRecordOf f m) last)) s.pmBins
      pmBase := (List.range 8).foldl (fun b r => b.set {} r (PmBins.second (base.get {} r) (0, 1) f.sec
        (pmRecordOf { f with recs := [] } (7 * 4096 * r)) last)) base
      pmLastBin := some f.sec
      pmMissing := match last with
        | some l => satAdd 32 s.pmMissing (f.sec - l - 1)
        | none => s.pmMissing }
    s.each ((s.pmThr.map (fun (x : Nat × List Nat) => x.1 / 2) ++ s.tca.map (fun (x : Nat × Nat) => x.1)).eraseDups) State.tcaJudge
  else s

/-- PM_SECOND (R188): the oldest closed second is in the store. -/
def State.pmSecond (s : State) : State :=
  match s.pmPend with
  | f :: rest =>
    let s := { s with pmPend := rest }
    ((((s.pmWrite f).wr pgWng WNG_PMS_LAST_sec f.sec).ev pgWng 24)).binSecond f
  | [] => s

def execPmSecond := run State.pmSecond

end Sys2Proof.Machine
end

