-- ==== Sys2Proof/Machine/Pers.lean ====
section
/-! DEFINITION. The compatibility personalities: objects, cues and the device, line and ODU messages (file 14, R493 to R498). -/

namespace Sys2Proof.Machine

open Sys2Proof

/-! ### Statuses and answers (Table FWT-15, R497) -/

def gvOk : Nat := 0
def gvFailed : Nat := 1
def gvNotPermitted : Nat := 2
def gvBusy : Nat := 3
def gvBadObject : Nat := 4
def gvBadParam : Nat := 5
def gvUnknown : Nat := 7

/-- A request that the spec gives no status for: a free one. -/
def gvOpen : Nat := 256

/-- An answer: status, extension, body; none while the message is still being served. -/
abbrev PersAns := Option (Nat × Nat × List Nat)

/-- Answer without a cue. -/
def State.gv (s : State) (code : Nat) (body : List Nat := []) : PersAns × State :=
  if code = gvOpen then let (v, s) := s.free 8; (some (v, 0xFF, body), s) else (some (code, 0xFF, body), s)

/-- The core that serves personality p, as a master. -/
def State.persWho (s : State) (p : Nat) : Who := { master := if s.holder p = some 1 then .en1 else .en0, box := 0, proxy := false }

/-- A region in RESET (R495). -/
def State.inReset (s : State) (r : Nat) : Bool := decide (s.region r = rgnReset)

/-! ### Cues (R498) -/

/-- A staged entry that a message writes. -/
structure Edit where
  pg : Nat
  tab : Tab
  e : Nat
  v : Nat
  deriving DecidableEq, Repr

/-- Write the rows of an entry as the ensemble requester. -/
def State.stageEdit (s : State) (w : Who) (x : Edit) : State :=
  s.each (List.range x.tab.rows) (fun s i =>
    let row := x.tab.rows * x.e + i
    s.writeStaged w x.pg x.tab row (assigned x.pg x.tab row (x.v / 2 ^ (128 * i) % 2 ^ 128)))

/-- The scope of the rows of a list of pages: blocks, then regions, PRT and WNG as BOX_CUE_SCOPE_EXT has them. -/
def scopeBlocks (pgs : List Nat) : Nat := (List.range 64).foldl (fun a B => if pgs.any (fun pg => digestOf pg = B) then a + 2 ^ B else a) 0
def scopeRegions (pgs : List Nat) : Nat := (List.range 8).foldl (fun a r => if pgs.any (fun pg => digestOf pg = 64 + r) then a + 2 ^ r else a) 0

/-- Set the scope and the settings of box n's cue. -/
def State.setScope (s : State) (n : Nat) (pgs : List Nat) : State :=
  let b := pgBox n
  let s := (s.wr b BOX_CUE_SCOPE_blocks (scopeBlocks pgs)).wr b BOX_CUE_SCOPE_EXT_region (scopeRegions pgs)
  let s := (s.wrb b BOX_CUE_SCOPE_EXT_prt (pgs.contains pgPrt)).wrb b BOX_CUE_SCOPE_EXT_wng false
  ((s.wrb b BOX_CUE_CTRL_check_en false).wrb b BOX_CUE_CTRL_dry_run false).wrb b BOX_CUE_CTRL_immediate false

/-- Write the rows and issue one cue through BOX page p + 1; `after` is done once it is accepted. A refused cue leaves nothing
staged (R497). -/
def State.persCue (s : State) (x : PersEnv) (p : Nat) (es : List Edit) (after : State → State := fun s => s) : PersAns × State :=
  let n := p + 1
  if s.cueRuns n then s.gv gvBusy
  else if es.any (fun y => s.stagedLocked y.pg) then (some (gvFailed, cueBusy, []), s)
  else
    let w := s.persWho p
    let s := (s.each es (fun s y => s.stageEdit w y)).setScope n (es.map (·.pg))
    let s := (s.cueGo w n x.bad).cueCheckEnd n
    if s.rd (pgBox n) BOX_CUE_STATUS_state = cueRefusedState then
      (some (gvFailed, s.rd (pgBox n) BOX_CUE_STATUS_code, []), s.cueRevert w n)
    else (some (gvOk, cueAccepted, []), after s)

/-- Rows to write, or why there are none. -/
abbrev Edits := Except Nat (List Edit)

def State.cueOr (s : State) (x : PersEnv) (p : Nat) (es : Edits) (after : State → State := fun s => s) : PersAns × State :=
  match es with
  | .ok l => s.persCue x p l after
  | .error c => s.gv c

/-- The first of a list of objections, else the message is served. -/
def State.unless_ (s : State) (l : List (Bool × Nat)) (f : Unit → PersAns × State) : PersAns × State :=
  match l.find? (·.1) with
  | some (_, c) => s.gv c
  | none => f ()

/-- Put a value into a field of an entry. -/
def setF (v : Nat) (f : TField) (x : Nat) : Nat := putBits v f.hi f.lo x
def setB (v : Nat) (f : TField) (b : Bool) : Nat := setF v f (b2n b)

/-! ### Class 0x1: the device -/

/-- DEV_IDENTITY. -/
def State.devIdentity (s : State) (p : Nat) : PersAns × State :=
  s.gv gvOk (bytesBe 2 0x0256 ++ [p] ++ bytesBe 2 s.revision ++ bytesBe 8 Config.fuseSerial ++ bytesBe 4 s.devGen)

/-- An alarm of a personality: object kind, GV0256 number, defect kind, and the second it opened in, where it is known. -/
def State.alarms (s : State) (p : Nat) : List (Nat × Nat × Nat × Option Nat) :=
  let kind (b : Bool) : Nat := if b then kindPoint else kindSlice
  let rs := [2 * p, 2 * p + 1]
  rs.flatMap (fun r => ((listed s.tabs (pgEpi r) T_EPI_OPEN).filter (fun e => efieldb e.2 EPI_OPEN.valid)).map (fun e =>
    let b := efieldb e.2 EPI_OPEN.src_kind
    (kind b, almObj b (efield e.2 EPI_OPEN.src), efield e.2 EPI_OPEN.kind, some (efield e.2 EPI_OPEN.open_sec)))) ++
  rs.flatMap (fun r => (s.epi.get {} r).loose.map (fun c => (kind c.point, almObj c.point c.src, c.kind, none))) ++
  (s.tca.filter (fun x => decide (pointRegion x.1 / 2 = p))).map (fun x => (kindPoint, almObj true x.1, tcaKind, some (x.2 - 1)))

/-- Two bytes that saturate. -/
def sat16 (n : Nat) : List Nat := bytesBe 2 (min n 65535)

/-- DEV_STATUS. -/
def State.devStatus (s : State) (p : Nat) : PersAns × State :=
  let a := s.region (2 * p)
  let b := s.region (2 * p + 1)
  let st := if s.mode = modeSafe then 3 else if s.mode = modeRehearsal ∨ s.mode = modeAudit then 0
    else if a ≠ rgnActive ∨ b ≠ rgnActive then 2 else 1
  s.gv gvOk ([st, a, b] ++ sat16 (s.alarms p).length)

/-- A region of a personality reset is asked for: done, not taken yet, or refused. -/
def State.askReset (s : State) (p r : Nat) (clear : Bool) : State × Option Nat :=
  let w := s.persWho p
  let op := if clear then opResetClear else opReset
  match s.modeRefusal w op r with
  | some c => (s.modeFinish w.master op c, if c = mcBusy then none else some gvOpen)
  | none => (s.opReset_ w r clear, some gvOk)

def State.setPersReset (s : State) (p : Nat) (x : PersReset) : State := { s with persReset := s.persReset.set {} p x }

/-- The reset asks for region r: it stays at phase k until the command is taken, then goes on to k + 1. -/
def State.resetAsk (s : State) (p k r : Nat) (x : PersReset) : PersAns × State :=
  let (s, c) := s.askReset p r x.clear
  match c with
  | none => (none, s.setPersReset p { x with phase := k })
  | some c => if c = gvOk then (none, s.setPersReset p { x with phase := k + 1 }) else (s.setPersReset p {}).gv c

/-- A personality reset goes on: region 2p leaves RESET before region 2p + 1 is asked for (file 16, R543). -/
def State.resetStep (s : State) (p : Nat) : PersAns × State :=
  let r := 2 * p
  let x := s.persReset.get {} p
  if x.phase = 1 then s.resetAsk p 1 r x
  else if x.phase = 2 ∧ s.inReset r then (none, s)
  else if x.phase ≤ 3 then s.resetAsk p 3 (r + 1) x
  else if s.inReset r || s.inReset (r + 1) then (none, s)
  else (s.setPersReset p {}).gv gvOk

/-- DEV_RESET. -/
def State.devReset (s : State) (p : Nat) (body : List Nat) (frame : Option (List Nat × Nat)) : PersAns × State :=
  let x := s.persReset.get {} p
  if x.phase = 0 then
    s.unless_ [(s.inReset (2 * p) || s.inReset (2 * p + 1), gvBusy), (decide (body.length < 1 ∨ 1 < body.getD 0 0), gvBadParam)]
      (fun _ => (s.setPersReset p { phase := 1, clear := decide (body.getD 0 0 = 1), frame := frame }).resetStep p)
  else if frame.isSome then s.gv gvBusy
  else if x.frame.isSome then (none, s)
  else s.resetStep p

/-! ### Class 0x2: lines -/

/-- LANE_SET. -/
def State.laneSet (s : State) (x : PersEnv) (p : Nat) (b : List Nat) : PersAns × State :=
  let q := b.getD 0 0
  let n := 64 * p + q
  s.unless_ [(decide (63 < q), gvBadObject), (s.inReset (n / 32), gvBusy),
      (decide (b.length < 4 ∨ 1 < b.getD 1 0 ∨ 2 < b.getD 2 0), gvBadParam)] (fun _ =>
    s.persCue x p [⟨pgLln n, T_LANE_CFG, 0, b.getD 1 0 + 2 * b.getD 2 0⟩]
      (fun s => s.writeCtrl (pgLln n) (b.getD 3 0 % 2 + 2 * s.rd (pgLln n) PAGE_CTRL_force_safe)))

/-- LANE_GET. -/
def State.laneGet (s : State) (p : Nat) (b : List Nat) : PersAns × State :=
  let n := 64 * p + b.getD 0 0
  let pg := pgLln n
  s.unless_ [(decide (63 < b.getD 0 0), gvBadObject), (s.inReset (n / 32), gvBusy), (decide (b.length < 1), gvBadParam)] (fun _ =>
    s.gv gvOk ([s.laneType n, s.laneRate n, s.plain pg LLN_STATUS_sig_det.off % 256, s.rd pg LLN_ADAPT_STATUS_margin] ++
      bytesBe 2 (s.rd pg LLN_SKEW_lag)))

/-- FlexO instances per lane by the committed row. -/
def State.instAt (s : State) (n : Nat) : Nat := instOfRate (s.tget (pgLln n) T_LANE_CFG 0 LANE_CFG.rate)

/-- The slices of the OTUCn that lane n leads, by the committed rows, in position order. -/
def State.slicesAt (s : State) (n : Nat) : List Nat :=
  let lead := 4 * n
  (List.range (s.tget (pgOtu lead) T_OTU_IF 0 OTU_IF.n_m1 + 1)).map (slotSlice lead (s.instAt n))

/-- What IF_SET writes. -/
def State.ifEdits (s : State) (x : PersEnv) (n : Nat) (b : List Nat) : Edits :=
  let kind := b.getD 1 0
  let k := b.getD 2 0
  let f := b.getD 3 0
  let lead := 4 * n
  let off : List Edit :=
    (if s.tgetb (pgEth n) T_ETH_CFG 0 ETH_CFG.en then [⟨pgEth n, T_ETH_CFG, 0, 0⟩] else []) ++
    (if s.tgetb (pgOtu lead) T_OTU_IF 0 OTU_IF.member ∧ s.tget (pgOtu lead) T_OTU_IF 0 OTU_IF.lane0 = n % 4 then
      ((s.slicesAt n).filter (fun d => decide (d / 16 = n / 4))).map (fun d => ⟨pgOtu d, T_OTU_IF, 0, T_OTU_IF.resetEntry 0⟩) else [])
  if kind = 0 then
    if 15 < k then .error gvBadParam
    else
      let v := setB (setB (setF (setF (setB x.otu OTU_IF.member true) OTU_IF.n_m1 k) OTU_IF.lane0 (n % 4)) OTU_IF.tti_all (bit f 0))
        OTU_IF.gcc0_concat (bit f 1)
      let ds := ((List.range (k + 1)).map (slotSlice lead (s.instAt n))).filter (fun d => decide (d / 16 = n / 4))
      .ok (off ++ ds.map (fun d => ⟨pgOtu d, T_OTU_IF, 0, v⟩))
  else if kind = 1 then
    if 3 < k then .error gvBadParam else .ok (off ++ [⟨pgEth n, T_ETH_CFG, 0, setF (setB x.eth ETH_CFG.en true) ETH_CFG.client k⟩])
  else if kind = 0xFF then .ok off
  else .error gvBadParam

/-- IF_SET. -/
def State.ifSet (s : State) (x : PersEnv) (p : Nat) (b : List Nat) : PersAns × State :=
  let n := 64 * p + b.getD 0 0
  s.unless_ [(decide (63 < b.getD 0 0), gvBadObject), (s.inReset (n / 32), gvBusy), (decide (b.length < 4), gvBadParam)]
    (fun _ => s.cueOr x p (s.ifEdits x n b))

/-- LOOPBACK. -/
def State.loopback (s : State) (p : Nat) (b : List Nat) : PersAns × State :=
  let obj := b.getD 0 0
  let k := b.getD 1 0
  let m := b.getD 2 0
  let n := 64 * p + k
  let l := 24 * p + k
  let r := if obj = 0 then n / 32 else l / 12
  s.unless_ [(decide (b.length < 3 ∨ 1 < obj), gvBadParam), (decide ((obj = 0 ∧ 63 < k) ∨ (obj = 1 ∧ 23 < k)), gvBadObject),
      (s.inReset r, gvBusy), (decide (2 < m), gvBadParam)] (fun _ =>
    (if obj = 0 then s.writeLb n (m + 16 * s.rd (pgLln n) LLN_LB_near_drive)
      else
        let pg := pgFyl l
        s.writeFylTest l (s.rd pg FYL_TEST_lanes * 2 ^ 8 + m * 2 ^ 6 + s.rd pg FYL_TEST_chk_en * 2 ^ 5 + s.rd pg FYL_TEST_gen_en * 2 ^ 4 +
          s.rd pg FYL_TEST_pattern)).gv gvOk)

/-! ### Class 0x3: connections -/

/-- The fields of a connection (CONN_ADD, bytes 3 to 39). -/
structure Conn where
  typ : Nat
  car : Nat
  nts : Nat
  tpn : Nat
  slots : Nat
  flex : Nat
  client : Nat
  modes : Nat
  ls : Nat
  tx : Nat
  rx : Nat
  deriving DecidableEq, Repr

def connOf (b : List Nat) : Conn :=
  { typ := b.getD 3 0, car := by16 b 4, nts := b.getD 6 0, tpn := b.getD 7 0, slots := beNat ((b.drop 8).take 20), flex := by32 b 28
    client := b.getD 32 0, modes := by16 b 33, ls := b.getD 35 0, tx := by16 b 36, rx := by16 b 38 }

def Conn.bytes (c : Conn) : List Nat :=
  [c.typ] ++ bytesBe 2 c.car ++ [c.nts, c.tpn] ++ bytesBe 20 c.slots ++ bytesBe 4 c.flex ++ [c.client] ++ bytesBe 2 c.modes ++ [c.ls] ++
  bytesBe 2 c.tx ++ bytesBe 2 c.rx

/-- A CONN_MODIFY body over the connection as it is: 0xFF in every byte keeps a field. -/
def Conn.over (c n : Conn) : Conn :=
  { typ := if n.typ = 0xFF then c.typ else n.typ, car := if n.car = 0xFFFF then c.car else n.car, nts := if n.nts = 0xFF then c.nts else n.nts
    tpn := if n.tpn = 0xFF then c.tpn else n.tpn, slots := if n.slots = 2 ^ 160 - 1 then c.slots else n.slots
    flex := if n.flex = 2 ^ 32 - 1 then c.flex else n.flex, client := if n.client = 0xFF then c.client else n.client
    modes := if n.modes = 0xFFFF then c.modes else n.modes, ls := if n.ls = 0xFF then c.ls else n.ls
    tx := if n.tx = 0xFFFF then c.tx else n.tx, rx := if n.rx = 0xFFFF then c.rx else n.rx }

/-- The directions of a message. -/
def dirsOf (d : Nat) : List Nat := if d = 2 then [0, 1] else [d]

/-- The committed place of connection k of personality p. -/
def State.connAt (s : State) (p d k : Nat) : Option (Nat × Nat) := (ctxNamers s.tabs d (8192 * p + k)).head?

/-- A field of a committed CTX entry. -/
def State.cc (s : State) (B d e : Nat) (f : TField) : Nat := s.tget (pgOd B d) T_CTX e f
def State.ccb (s : State) (B d e : Nat) (f : TField) : Bool := decide (s.cc B d e f ≠ 0)

/-- The committed stage-zero slot of the OTUCn led by slice k of block B. -/
def State.zeroAt (s : State) (B d k : Nat) : Option Nat :=
  ((listed s.tabs (pgOd B d) T_CTX).find? (fun x => efieldb x.2 CTX.valid && decide (efield x.2 CTX.stage = 0 ∧ efield x.2 CTX.lead = k))).map (·.1)

/-- The carrier of a connection: its block, the stage of what it carries, the parent's slot, the lead slice, the tributary-slot table and
entry of each slot, and what makes a connection a parent. -/
structure Carrier where
  B : Nat
  stage : Nat
  parent : Nat
  lead : Nat
  tab : Tab
  entries : List Nat
  edits : List Edit

/-- A handle that no parent of a block has: the one chosen, if free. -/
def State.freeHandle (s : State) (B d want : Nat) : Option Nat :=
  let used := ((listed s.tabs (pgOd B d) T_CTX).filter (fun x => efieldb x.2 CTX.valid && efieldb x.2 CTX.ho)).map (fun x => efield x.2 CTX.ho_handle)
  ((want % 64) :: List.range 64).find? (fun h => !used.contains h)

/-- A block slot that holds no connection: the one chosen, if free. -/
def State.freeSlot (s : State) (B d want : Nat) : Option Nat :=
  ((want % 1024) :: List.range 1024).find? (fun e => !s.ccb B d e CTX.valid)

/-- The carrier that a message names, if it exists. -/
def State.carrier (s : State) (x : PersEnv) (p d typ car : Nat) : Option Carrier :=
  if 0x8000 ≤ car then
    let n := 64 * p + (car - 0x8000)
    let B := n / 4
    let k := 4 * (n % 4)
    if typ = 8 then some { B := B, stage := 0, parent := 0, lead := k, tab := T_TS1, entries := [], edits := [] }
    else (s.zeroAt B d k).map (fun e => { B := B, stage := 1, parent := e, lead := 0, tab := T_TS1, edits := []
                                          entries := (s.slicesAt n).flatMap (fun sl => (List.range 20).map (20 * (sl - 16 * B) + ·)) })
  else
    (s.connAt p d car).bind (fun c =>
      let v := s.entry (pgOd c.1 d) T_CTX c.2
      let ho := efieldb v CTX.ho
      (if ho then some (efield v CTX.ho_handle) else s.freeHandle c.1 d x.handle).map (fun h =>
        { B := c.1, stage := 2, parent := c.2, lead := 0, tab := T_TS2, entries := (List.range 80).map (80 * h + ·)
          edits := if ho then [] else [⟨pgOd c.1 d, T_CTX, c.2, setF (setB v CTX.ho true) CTX.ho_handle h⟩] }))

/-- The tributary-slot entries that a context owns, by the committed rows. -/
def State.ownedAt (s : State) (t : Tab) (B d e : Nat) : List (Nat × Nat) :=
  (listed s.tabs (pgOd B d) t).filter (fun x => efieldb x.2 TS1.used && decide (efield x.2 TS1.owner = e))

/-- A flow's nominal rate in whole kbit/s. -/
def Conn.rate (c : Conn) : Nat :=
  if c.client ≠ 0xFF then flowRate c.client c.flex
  else let r := oduRate c.typ 1 c.flex; (2 * r.1 + r.2) / (2 * r.2)

/-- A flow row as the connection states it. -/
def Conn.flowRow (c : Conn) (base : Nat) : Nat :=
  setF (setF (setB (setB base TXF_CFG.valid true) TXF_CFG.kind (decide (c.client ≠ 0xFF))) TXF_CFG.client (if c.client = 0xFF then 0 else c.client))
    TXF_CFG.rate_kbps c.rate

/-- The CTX entry of a connection over a base; `x` is its region context index. -/
def Conn.ctxRow (c : Conn) (k : Carrier) (base d x : Nat) : Nat :=
  let v := setF (setF (setB base CTX.valid true) CTX.ctx x) CTX.odu_type c.typ
  let v := setF (setF (setF v CTX.stage k.stage) CTX.parent k.parent) CTX.lead k.lead
  let v := setF (setF (setF v CTX.n_ts c.nts) CTX.flex_kbps (if c.typ = 6 then c.flex else 0)) CTX.mp_mode c.modes
  let v := setF (setB v CTX.client (decide (c.client ≠ 0xFF))) CTX.ls_level c.ls
  if d = 0 then setB (setF v CTX.flow (if c.tx = 0xFFFF then 0 else c.tx % 4096)) CTX.flow_en (decide (c.tx ≠ 0xFFFF))
  else if c.rx ≠ 0xFFFF then setB (setB (setF v CTX.flow (c.rx % 8192)) CTX.flow_en true) CTX.src_sel false
  else if efieldb v CTX.src_sel then v
  else setB (setF v CTX.flow 0) CTX.flow_en false

/-- The rows that add a connection in a direction: where `old` names its place and the block stays, there, over the old entry. -/
def State.connAdd (s : State) (x : PersEnv) (p d k : Nat) (c : Conn) (old : Option (Nat × Nat)) : Edits :=
  let r := 2 * p + k / 4096
  match s.carrier x p d c.typ c.car with
  | none => .error gvOpen
  | some car =>
    let B := car.B
    let stay := (old.filter (fun o => decide (o.1 = B))).map (·.2)
    let bits := (List.range 160).filter (bit c.slots)
    if B / 8 ≠ r ∨ bits.any (fun i => decide (car.entries.length ≤ i)) ∨ (d = 0 ∧ c.tx ≠ 0xFFFF ∧ 2 * p + c.tx / 4096 ≠ r) ∨
        (d = 1 ∧ c.rx ≠ 0xFFFF ∧ 2 * p + c.rx / 8192 ≠ r) then .error gvBadParam
    else
      match stay.orElse (fun _ => s.freeSlot B d (if d = 0 then x.slotIn else x.slotEg)) with
      | none => .error gvOpen
      | some e =>
        let base := if stay.isSome then s.entry (pgOd B d) T_CTX e else setB (if d = 0 then x.ctxIn else x.ctxEg) CTX.ho false
        let ts := bits.map (fun i => ({ pg := pgOd B d, tab := car.tab, e := car.entries.getD i 0
                                        v := setF (setF 1 TS1.owner e) TS1.tpn c.tpn } : Edit))
        let cli : Nat := if c.client = 0xFF then T_CLI_CFG.resetEntry e
          else setF (setF (setB x.cli CLI_CFG.en true) CLI_CFG.client c.client) CLI_CFG.cbr_kbps (if c.client = 6 then c.flex else efield x.cli CLI_CFG.cbr_kbps)
        let flow : List Edit :=
          if d = 0 then (if c.tx = 0xFFFF then [] else [⟨pgFyt r, T_TXF_CFG, c.tx % 4096, c.flowRow x.txf⟩])
          else if c.rx = 0xFFFF then [] else [⟨pgFyr r, T_RXF_CFG, c.rx % 8192, c.flowRow x.rxf⟩]
        .ok (car.edits ++ [⟨pgOd B d, T_CTX, e, c.ctxRow car base d (k % 4096)⟩] ++ ts ++ [⟨pgCli B d, T_CLI_CFG, e, cli⟩] ++
          ((x.mp.filter (fun y => decide (y.1 = d ∧ y.2.1 < 7))).map (fun y => ⟨pgMpt B, T_MP_CFG, dedEntry d e y.2.1, y.2.2⟩)) ++ flow)

/-- The rows that take a connection away; with `keep` its CTX and CLI_CFG entries stay to be written over. -/
def State.connDrop (s : State) (d : Nat) (o : Nat × Nat) (keep : Bool) : List Edit :=
  let B := o.1
  let e := o.2
  let r := B / 8
  let ts (t : Tab) : List Edit := (s.ownedAt t B d e).map (fun x => ⟨pgOd B d, t, x.1, 0⟩)
  let flow : List Edit :=
    if !s.ccb B d e CTX.flow_en then []
    else if d = 0 then [⟨pgFyt r, T_TXF_CFG, s.cc B d e CTX.flow, 0⟩]
    else if s.ccb B d e CTX.src_sel then [] else [⟨pgFyr r, T_RXF_CFG, s.cc B d e CTX.flow, 0⟩]
  (if keep then [] else [⟨pgOd B d, T_CTX, e, T_CTX.resetEntry e⟩, ⟨pgCli B d, T_CLI_CFG, e, T_CLI_CFG.resetEntry e⟩]) ++ ts T_TS1 ++ ts T_TS2 ++ flow

/-- A connection as its committed rows state it. -/
def State.connRead (s : State) (p d : Nat) (o : Nat × Nat) : Conn :=
  let B := o.1
  let e := o.2
  let stage := s.cc B d e CTX.stage
  let par := s.cc B d e CTX.parent
  let leadOf (e : Nat) : Nat := s.cc B d e CTX.lead
  let lane (k : Nat) : Nat := 4 * B + k / 4
  let ts := if stage = 1 then s.ownedAt T_TS1 B d e else if stage = 2 then s.ownedAt T_TS2 B d e else []
  let bitOf (x : Nat) : Nat :=
    if stage = 1 then ((s.slicesAt (lane (leadOf par))).findIdx (fun sl => decide (sl = 16 * B + x / 20))) * 20 + x % 20
    else x - 80 * s.cc B d par CTX.ho_handle
  let cli := s.entry (pgCli B d) T_CLI_CFG e
  let client := if s.ccb B d e CTX.client && efieldb cli CLI_CFG.en then efield cli CLI_CFG.client else 0xFF
  let en := s.ccb B d e CTX.flow_en
  let fl := s.cc B d e CTX.flow
  { typ := s.cc B d e CTX.odu_type
    car := if stage = 2 then 4096 * (B / 8) + s.cc B d par CTX.ctx - 8192 * p else 0x8000 + (lane (leadOf (if stage = 0 then e else par)) - 64 * p)
    nts := s.cc B d e CTX.n_ts, tpn := (ts.map (fun x => efield x.2 TS1.tpn)).headD 0
    slots := ts.foldl (fun a x => a ||| 2 ^ bitOf x.1) 0
    flex := if client = 6 then efield cli CLI_CFG.cbr_kbps else s.cc B d e CTX.flex_kbps, client := client
    modes := s.cc B d e CTX.mp_mode, ls := s.cc B d e CTX.ls_level
    tx := if d = 0 ∧ en then 4096 * (B / 8 - 2 * p) + fl else 0xFFFF
    rx := if d = 1 ∧ en ∧ ¬ s.ccb B d e CTX.src_sel then 8192 * (B / 8 - 2 * p) + fl else 0xFFFF }

/-- Object numbers of a connection outside Table FWT-10. -/
def Conn.badObject (c : Conn) : Bool :=
  decide ((8192 ≤ c.car ∧ c.car < 0x8000) ∨ 0x8040 ≤ c.car ∨ (8192 ≤ c.tx ∧ c.tx ≠ 0xFFFF) ∨ (16384 ≤ c.rx ∧ c.rx ≠ 0xFFFF))

/-- Fields of a connection outside what the message allows. -/
def Conn.badParam (c : Conn) : Bool :=
  decide (8 < c.typ ∨ c.typ = 7 ∨ (6 < c.client ∧ c.client ≠ 0xFF) ∨ 7 < c.ls)

/-- Put together the rows of each direction. -/
def editsAll : List Edits → Edits
  | [] => .ok []
  | .error c :: _ => .error c
  | .ok a :: l => match editsAll l with
    | .ok b => .ok (a ++ b)
    | .error c => .error c

/-- The objections common to the connection messages, in order. -/
def State.connObj (s : State) (p : Nat) (b : List Nat) (len maxDir : Nat) : List (Bool × Nat) :=
  [(decide (b.length < len), gvBadParam), (decide (8192 ≤ by16 b 0), gvBadObject), (s.inReset (2 * p + by16 b 0 / 4096), gvBusy),
   (decide (maxDir < b.getD 2 0), gvBadParam)]

/-- CONN_ADD. -/
def State.connAddMsg (s : State) (x : PersEnv) (p : Nat) (b : List Nat) : PersAns × State :=
  let c := connOf b
  s.unless_ (s.connObj p b 40 2 ++ [(c.badObject, gvBadObject), (c.badParam, gvBadParam)]) (fun _ =>
    s.cueOr x p (editsAll ((dirsOf (b.getD 2 0)).map (fun d => s.connAdd x p d (by16 b 0) c none))))

/-- The rows of CONN_MODIFY in a direction. -/
def State.connMod (s : State) (x : PersEnv) (p d k : Nat) (n : Conn) : Edits :=
  match s.connAt p d k with
  | none => .error gvOpen
  | some o =>
    let c := (s.connRead p d o).over n
    if c.badObject then .error gvBadObject
    else if c.badParam then .error gvBadParam
    else match s.connAdd x p d k c (some o) with
      | .ok l => .ok (s.connDrop d o (l.any (fun y => decide (y.pg = pgOd o.1 d ∧ y.tab.code = T_CTX.code ∧ y.e = o.2))) ++ l)
      | .error c => .error c

/-- CONN_MODIFY. -/
def State.connModMsg (s : State) (x : PersEnv) (p : Nat) (b : List Nat) : PersAns × State :=
  s.unless_ (s.connObj p b 40 2) (fun _ =>
    s.cueOr x p (editsAll ((dirsOf (b.getD 2 0)).map (fun d => s.connMod x p d (by16 b 0) (connOf b)))))

/-- CONN_DELETE. -/
def State.connDelMsg (s : State) (x : PersEnv) (p : Nat) (b : List Nat) : PersAns × State :=
  s.unless_ (s.connObj p b 3 2) (fun _ =>
    s.cueOr x p (editsAll ((dirsOf (b.getD 2 0)).map (fun d => match s.connAt p d (by16 b 0) with
      | some o => .ok (s.connDrop d o false)
      | none => .error gvOpen))))

/-- CONN_GET. -/
def State.connGetMsg (s : State) (p : Nat) (b : List Nat) : PersAns × State :=
  let d := b.getD 2 0
  s.unless_ (s.connObj p b 3 1) (fun _ =>
    match s.connAt p d (by16 b 0) with
    | none => s.gv gvOpen
    | some o =>
      let st (f : TField) : Nat := s.tget (pgOd o.1 d) T_CTX_STATUS o.2 f
      s.gv gvOk (bytesBe 2 (by16 b 0) ++ [d] ++ (s.connRead p d o).bytes ++ [st CTX_STATUS.leg, st CTX_STATUS.out_sf + 2 * st CTX_STATUS.ssf_in]))

end Sys2Proof.Machine
end

