-- ==== Sys2Proof/Machine/PersMsg.lean ====
section
/-! DEFINITION. The personality messages of performance, protection, overhead, alarms and time; how mailbox requests and stage door
frames are served; PM binning and housekeeping (file 14, R480, R494 to R499). -/

namespace Sys2Proof.Machine

open Sys2Proof

/-! ### Class 0x4: performance -/

/-- The counts of a bin as a message carries them, then its flags (Table FWT-16). -/
def PmBin.counts (b : PmBin) : List Nat := (b.near.list ++ b.far.list).flatMap (fun n => bytesBe 4 (n % 2 ^ 32))
def PmBin.flags (b : PmBin) : Nat := b2n b.part + 2 * b2n b.susp

/-- The point of a connection that a message names. -/
def msgPoint (p : Nat) (b : List Nat) : Nat := dedPoint (32768 * b.getD 2 0 + 8192 * p + by16 b 0) (b.getD 3 0)

def State.pmObj (s : State) (p : Nat) (b : List Nat) (len : Nat) : List (Bool × Nat) :=
  [(decide (b.length < len), gvBadParam), (decide (8192 ≤ by16 b 0 ∨ 6 < b.getD 3 0), gvBadObject), (s.inReset (2 * p + by16 b 0 / 4096), gvBusy),
   (decide (1 < b.getD 2 0), gvBadParam)]

/-- PM_CURRENT. -/
def State.pmCurrent (s : State) (p : Nat) (b : List Nat) : PersAns × State :=
  s.unless_ (s.pmObj p b 4) (fun _ =>
    let x := s.binsOf (msgPoint p b)
    s.gv gvOk (x.cur15.counts ++ [x.cur15.flags] ++ x.cur24.counts ++ [x.cur24.flags]))

/-- A bin counted back from the running one, 0. -/
def PmBins.back (x : PmBins) (kind index : Nat) : Option PmBin :=
  let l := if kind = 0 then x.cur15 :: x.past15 else x.cur24 :: x.past24
  if x.on then l[index]? else none

def PmBin.history (b : PmBin) : List Nat := bytesBe 4 (b.start % 2 ^ 32) ++ b.counts ++ [b.flags]

/-- The indexes that a kind of bin allows. -/
def binIndexOk (kind index : Nat) : Bool := decide ((kind = 0 ∧ index ≤ 32) ∨ (kind = 1 ∧ index ≤ 1))

/-- PM_HISTORY. -/
def State.pmHistory (s : State) (p : Nat) (b : List Nat) : PersAns × State :=
  s.unless_ (s.pmObj p b 6 ++ [(!binIndexOk (b.getD 4 0) (b.getD 5 0) || decide (b.getD 5 0 = 0), gvBadParam)]) (fun _ =>
    match (s.binsOf (msgPoint p b)).back (b.getD 4 0) (b.getD 5 0) with
    | some x => s.gv gvOk x.history
    | none => s.gv gvOpen)

/-- PM_THRESH. -/
def State.pmThresh (s : State) (p : Nat) (b : List Nat) : PersAns × State :=
  s.unless_ (s.pmObj p b 21 ++ [(decide (1 < b.getD 4 0), gvBadParam)]) (fun _ =>
    let l := [by32 b 5, by32 b 9, by32 b 13, by32 b 17]
    let k := 2 * msgPoint p b + b.getD 4 0
    ({ s with pmThr := s.pmThr.set [] k (if l.all (fun n => decide (n = 0)) then [] else l) }).gv gvOk)

/-! ### Class 0x5: protection -/

/-- The device number of group j on a side, and the objections to a group. -/
def msgGroup (p : Nat) (b : List Nat) : Nat := if b.getD 2 0 = 0 then 4096 * p + by16 b 0 else 16384 + 2048 * p + by16 b 0

def State.pgObj (s : State) (p : Nat) (b : List Nat) (len : Nat) : List (Bool × Nat) :=
  [(decide (b.length < len ∨ 1 < b.getD 2 0), gvBadParam), (decide ((if b.getD 2 0 = 0 then 4096 else 2048) ≤ by16 b 0), gvBadObject),
   (s.inReset (grpRegion (msgGroup p b)), gvBusy)]

/-- The committed row of a group, its page and table. -/
def grpTab (G : Nat) : Tab := if G < 16384 then T_ESG_CFG else T_ISG_CFG
def State.grpRow (s : State) (G : Nat) : Nat := s.entry (grpPage G) (grpTab G) (grpIndex G)

/-- Which receive flow or group the egress contexts that a bridge names are fed by. -/
def State.feedEdits (s : State) (r row : Nat) (group : Option Nat) : List Edit :=
  [(efield row BRG_CFG.w_blk, efield row BRG_CFG.w_slot), (efield row BRG_CFG.p_blk, efield row BRG_CFG.p_slot)].filterMap (fun x =>
    let pg := pgOde (8 * r + x.1)
    let v := s.entry pg T_CTX x.2
    if efieldb v CTX.valid then
      some ⟨pg, T_CTX, x.2, match group with
        | some i => setB (setB (setF v CTX.flow i) CTX.flow_en true) CTX.src_sel true
        | none => setB v CTX.flow_en false⟩
    else none)

/-- The rows of PG_ADD. -/
def State.pgEdits (s : State) (x : PersEnv) (p : Nat) (b : List Nat) : Edits :=
  let G := msgGroup p b
  let r := grpRegion G
  let eg := decide (b.getD 2 0 = 0)
  let w := by16 b 6
  let q := by16 b 8
  let o := by16 b 10
  let a := by16 b 15
  let f := b.getD 4 0
  let arch := b.getD 3 0
  let legs : Nat := if eg then 8192 else 4096
  let none16 (n : Nat) : Bool := decide (n = 0xFFFF)
  if 2 * p + w / legs ≠ r ∨ 2 * p + q / legs ≠ r ∨ (o ≠ 0xFFFF ∧ 2 * p + o / (if eg then 2048 else 4096) ≠ r) ∨ 1023 < by16 b 12 ∨
      15 < b.getD 14 0 ∨ 3 < arch ∨ 3 < b.getD 5 0 then .error gvBadParam
  else
    let v := setF (setB x.grp ESG_CFG.valid true) ESG_CFG.arch arch
    let v := setF (setB v ESG_CFG.revert (bit f 0)) ESG_CFG.snc (b.getD 5 0)
    let v := setB (setB v ESG_CFG.sd_en (bit f 1)) ESG_CFG.aps_en (!none16 a)
    let v := setF v ESG_CFG.aps_ch (if none16 a then 0 else 4096 * p + a)
    let v := if eg then
        setB (setF (setF (setF (setF v ESG_CFG.w_flow (w % 8192)) ESG_CFG.p_flow (q % 8192)) ESG_CFG.holdoff (by16 b 12)) ESG_CFG.wtr (b.getD 14 0))
          ESG_CFG.aligned false
      else
        let v := setF (setF (setF (setF v ISG_CFG.w_ctx (w % 4096)) ISG_CFG.p_ctx (q % 4096)) ISG_CFG.holdoff (by16 b 12)) ISG_CFG.wtr (b.getD 14 0)
        if none16 o then v else setF v ISG_CFG.out_flow (o % 4096)
    let brg : List Edit :=
      if eg && !none16 o then
        let y := setB (setB (setB x.brg BRG_CFG.valid true) BRG_CFG.kind (decide (2 ≤ arch))) BRG_CFG.src_sel true
        let y := setF (setF y BRG_CFG.src (grpIndex G)) BRG_CFG.grp G
        ⟨pgSel r, T_BRG_CFG, o % 2048, y⟩ :: s.feedEdits r y (some (grpIndex G))
      else []
    let aps : List Edit :=
      if none16 a then [] else [⟨pgPrt, T_APS_CFG, 4096 * p + a, setB (setF (setB x.aps APS_CFG.valid true) APS_CFG.grp G) APS_CFG.guard (bit f 2)⟩]
    .ok (⟨grpPage G, grpTab G, grpIndex G, v⟩ :: (brg ++ aps))

/-- PG_ADD. -/
def State.pgAdd (s : State) (x : PersEnv) (p : Nat) (b : List Nat) : PersAns × State :=
  let lim : Nat := if b.getD 2 0 = 0 then 16384 else 8192
  let out : Nat := if b.getD 2 0 = 0 then 4096 else 8192
  s.unless_ (s.pgObj p b 17 ++ [(decide (lim ≤ by16 b 6 ∨ lim ≤ by16 b 8 ∨ (out ≤ by16 b 10 ∧ by16 b 10 ≠ 0xFFFF) ∨
      (4096 ≤ by16 b 15 ∧ by16 b 15 ≠ 0xFFFF)), gvBadObject)]) (fun _ => s.cueOr x p (s.pgEdits x p b))

/-- PG_DELETE: the group, the bridges fed by it, and its APS channel. -/
def State.pgDelete (s : State) (x : PersEnv) (p : Nat) (b : List Nat) : PersAns × State :=
  let G := msgGroup p b
  let r := grpRegion G
  let v := s.grpRow G
  let brg : List Edit :=
    if G < 16384 then
      ((listed s.tabs (pgSel r) T_BRG_CFG).filter (fun y => efieldb y.2 BRG_CFG.valid && efieldb y.2 BRG_CFG.src_sel &&
        decide (efield y.2 BRG_CFG.src = grpIndex G))).flatMap (fun y => ⟨pgSel r, T_BRG_CFG, y.1, 0⟩ :: s.feedEdits r y.2 none)
    else []
  let aps : List Edit :=
    if efieldb v ESG_CFG.valid && efieldb v ESG_CFG.aps_en then
      [⟨pgPrt, T_APS_CFG, efield v ESG_CFG.aps_ch, T_APS_CFG.resetEntry (efield v ESG_CFG.aps_ch)⟩] else []
  s.unless_ (s.pgObj p b 3) (fun _ =>
    s.persCue x p (⟨grpPage G, grpTab G, grpIndex G, (grpTab G).resetEntry (grpIndex G)⟩ :: (brg ++ aps)))

/-- The status of a protection command as a message tells it. -/
def gvOfPrt (code : Nat) : Nat := if code = prtDone then gvOk else if code = prtRange then gvBadParam else if code = prtResetting then gvBusy else gvOpen

/-- PG_COMMAND: a hardware group takes the operator command, a software group what the firmware's state machine commands (R242). -/
def State.pgCommand (s : State) (x : PersEnv) (p : Nat) (b : List Nat) : PersAns × State :=
  let G := msgGroup p b
  let op := b.getD 3 0
  s.unless_ (s.pgObj p b 4 ++ [(decide (op = 0 ∨ 6 < op), gvBadParam)]) (fun _ =>
    let w := s.persWho p
    let s :=
      if s.gArch G = 0 ∨ !s.gValid G then (s.prtIssue w op (G % 2 ^ 15)).prtSettleNow
      else
        let rq := prtRq w
        ((((s.wr rq PRT_CMD_ARG_bridge (getBits x.arg 29 29)).wr rq PRT_CMD_ARG_sel (getBits x.arg 28 28)).wr rq PRT_CMD_ARG_aps x.arg).prtIssue w opSetAll
          (G % 2 ^ 15)).prtSettleNow
    s.gv (gvOfPrt (s.rd (prtRq w) PRT_CMD_STATUS_code)))

/-- PG_STATUS. -/
def State.pgStatus (s : State) (p : Nat) (b : List Nat) : PersAns × State :=
  let G := msgGroup p b
  s.unless_ (s.pgObj p b 3) (fun _ =>
    let ch := s.gChannel G
    let fop (f : TField) : Nat := match ch with
      | some a => s.apsRx a f
      | none => 0
    s.gv gvOk ([s.gSt G GRP_STATUS.sel, s.gSt G GRP_STATUS.request, s.gSt G GRP_STATUS.w_leg, s.gSt G GRP_STATUS.p_leg,
      s.gSt G GRP_STATUS.sfp_override + 2 * fop APS_RX.dfop_pm + 4 * fop APS_RX.dfop_nr + 8 * fop APS_RX.dfop_to] ++
      bytesBe 2 (s.gSt G GRP_STATUS.wtr_left)))

/-! ### Class 0x6: overhead -/

/-- The channel a message names: its region and its index there. -/
def ohRegion (p j : Nat) : Nat := 2 * p + j / 512

def State.ohObj (s : State) (p : Nat) (b : List Nat) (len : Nat) : List (Bool × Nat) :=
  [(decide (b.length < len), gvBadParam), (decide (1024 ≤ by16 b 0), gvBadObject), (s.inReset (ohRegion p (by16 b 0)), gvBusy)]

def ohTab (d : Nat) : Tab := if d = 0 then T_CAP_CFG else T_INS_CFG

/-- The row of OH_OPEN in a direction: the source's block and slice or slot. -/
def State.ohEdit (s : State) (x : PersEnv) (p : Nat) (b : List Nat) (d : Nat) : Edits :=
  let r := ohRegion p (by16 b 0)
  let src := b.getD 3 0
  let n := by16 b 4
  let at_ : Option (Nat × Nat) := if src = 0 then some ((256 * p + n) / 16, n % 16) else s.connAt p d n
  match at_ with
  | none => .error gvOpen
  | some (B, i) =>
    if B / 8 ≠ r then .error gvBadParam
    else
      let v := setF (setF (setF (setB (if d = 0 then x.cap else x.ins) CHN.valid true) CHN.src src) CHN.blk (B % 8)) CHN.idx i
      let v := setF (setF (setF v CHN.level (b.getD 6 0)) CHN.mode (b.getD 7 0)) CHN.fcs (b.getD 8 0)
      let v := if b.getD 7 0 = mRaw then setF v CHN.raw_len_m1 (by16 b 9 - 1) else setF v CHN.max_len (by16 b 9)
      .ok [⟨pgOhq r, ohTab d, by16 b 0 % 512, setF v CHN.size (by16 b 11)⟩]

/-- A slice's GCC0 names the channel, or none. -/
def State.gccName (s : State) (d dir : Nat) (ch : Option Nat) : State :=
  let pg := pgOtu d
  let en := if dir = 0 then OTU_GCC0_CFG_cap_en else OTU_GCC0_CFG_ins_en
  let f := if dir = 0 then OTU_GCC0_CFG_cap_ch else OTU_GCC0_CFG_ins_ch
  match ch with
  | some c => (s.wrb pg en true).wr pg f c
  | none => s.wrb pg en false

/-- OH_OPEN. -/
def State.ohOpen (s : State) (x : PersEnv) (p : Nat) (b : List Nat) : PersAns × State :=
  let j := by16 b 0
  let r := ohRegion p j
  let n := by16 b 4
  let gcc := decide (b.getD 3 0 = 0)
  s.unless_ (s.ohObj p b 13 ++ [(decide (2 < b.getD 2 0 ∨ 4 < b.getD 3 0), gvBadParam), (decide ((if gcc then 256 else 8192) ≤ n), gvBadObject),
      (decide (6 < b.getD 6 0 ∨ 2 < b.getD 7 0 ∨ 2 < b.getD 8 0 ∨ 2048 < by16 b 11 ∨ (b.getD 7 0 = mRaw ∧ (by16 b 9 = 0 ∨ 256 < by16 b 9)) ∨
        (b.getD 7 0 ≠ mRaw ∧ 16383 < by16 b 9)), gvBadParam)]) (fun _ =>
    s.cueOr x p (editsAll ((dirsOf (b.getD 2 0)).map (s.ohEdit x p b)))
      (fun s => if gcc then s.each (dirsOf (b.getD 2 0)) (fun s d => s.gccName (256 * p + n) d (some (512 * r + j % 512))) else s))

/-- OH_CLOSE. -/
def State.ohClose (s : State) (x : PersEnv) (p : Nat) (b : List Nat) : PersAns × State :=
  let j := by16 b 0
  let r := ohRegion p j
  let i := j % 512
  let row (d : Nat) : Nat := s.entry (pgOhq r) (ohTab d) i
  s.unless_ (s.ohObj p b 3 ++ [(decide (2 < b.getD 2 0), gvBadParam)]) (fun _ =>
    s.persCue x p ((dirsOf (b.getD 2 0)).map (fun d => ⟨pgOhq r, ohTab d, i, (ohTab d).resetEntry i⟩))
      (fun s => s.each (dirsOf (b.getD 2 0)) (fun s d =>
        if efieldb (row d) CHN.valid ∧ efield (row d) CHN.src = 0 then
          s.gccName (16 * (8 * r + efield (row d) CHN.blk) + efield (row d) CHN.idx) d none else s)))

/-- The words of a packet as they are written to OHQ_WR (R364). -/
def ohWords (bytes : List Nat) : List Nat :=
  let l := (dataWords bytes).map (·.1)
  l.zipIdx.map (fun x => x.1 + (if x.2 + 1 = l.length then 2 ^ 29 else 0))

/-- The core selects a channel's queue. -/
def State.ohSelect (s : State) (w : Who) (r dir i : Nat) : State :=
  let rq := reqPage (pgOhq r) w
  (s.wr rq OHQ_SEL_dir dir).wr rq OHQ_SEL_ch i

/-- OH_SEND. -/
def State.ohSend (s : State) (p : Nat) (b : List Nat) : PersAns × State :=
  let j := by16 b 0
  let r := ohRegion p j
  let n := by16 b 2
  s.unless_ (s.ohObj p b 4 ++ [(decide (n = 0 ∨ 240 < n ∨ b.length < 4 + n), gvBadParam), (!s.chValid r 1 (j % 512), gvOpen)]) (fun _ =>
    let w := s.persWho p
    ((s.ohSelect w r 1 (j % 512)).each (ohWords ((b.drop 4).take n)) (fun s v => s.ohqWrite w r v)).gv gvOk)

/-- Read on to the next header; 0 where there is none. -/
def State.ohHeader (s : State) (w : Who) (r : Nat) : Nat → Nat × State
  | 0 => (0, s)
  | n + 1 =>
    let (v, s) := s.ohqRead w r
    if bit v 28 then (v, s) else if bit v 31 then (0, s) else s.ohHeader w r n

/-- Read the data words of a packet. -/
def State.ohData (s : State) (w : Who) (r : Nat) : Nat → List Nat × State
  | 0 => ([], s)
  | n + 1 =>
    let (v, s) := s.ohqRead w r
    let (l, s) := s.ohData w r n
    (wordBytes v ++ l, s)

/-- OH_RECEIVE. -/
def State.ohReceive (s : State) (p : Nat) (b : List Nat) : PersAns × State :=
  let j := by16 b 0
  let r := ohRegion p j
  s.unless_ (s.ohObj p b 2 ++ [(!s.chValid r 0 (j % 512), gvOpen)]) (fun _ =>
    let w := s.persWho p
    let s := s.ohSelect w r 0 (j % 512)
    let (h, s) := s.ohHeader w r ((s.cap r (j % 512)).cur.length + 1)
    let n := getBits h 13 0
    let (l, s) := s.ohData w r ((n + 2) / 3)
    s.gv gvOk (bytesBe 2 n ++ [getBits h 23 20, 0] ++ l.take 488))

/-! ### Classes 0x7 and 0x8: alarms and time -/

/-- One entry of ALM_LIST; an opening time that nothing holds is a free value. -/
def State.almEntry (s : State) (x : Nat × Nat × Nat × Option Nat) : List Nat × State :=
  let (t, s) := match x.2.2.2 with
    | some t => (t, s)
    | none => s.free 48
  ([x.1] ++ bytesBe 4 x.2.1 ++ [x.2.2.1] ++ bytesBe 6 t, s)

/-- ALM_LIST. -/
def State.almList (s : State) (p : Nat) (b : List Nat) : PersAns × State :=
  let l := s.alarms p
  let w := (l.drop (by16 b 0)).take 40
  s.unless_ [(decide (b.length < 2), gvBadParam)] (fun _ =>
    let (e, s) := w.foldl (fun (a : List Nat × State) x => let (y, s) := a.2.almEntry x; (a.1 ++ y, s)) ([], s)
    s.gv gvOk (sat16 l.length ++ [w.length] ++ e))

/-- The defect kinds of an ALM_MASK. -/
def almBits (k : Nat) : Nat := if k = 0xFF then 2 ^ 33 - 1 else 2 ^ k

/-- ALM_MASK. -/
def State.almMaskSet (s : State) (p : Nat) (b : List Nat) : PersAns × State :=
  let kind := b.getD 0 0
  let d := b.getD 5 0
  s.unless_ [(decide (b.length < 7 ∨ (32 < d ∧ d ≠ 0xFF) ∨ 1 < b.getD 6 0) ||
      !([kindLane, kindSlice, kindCtxIn, kindCtxEg, kindPoint, kindLink, kindGroup].contains kind), gvBadParam)] (fun _ =>
    let k := almKey p kind (by32 b 1)
    let old := s.almMask.get 0 k
    let off := old &&& (2 ^ 33 - 1 - almBits d)
    ({ s with almMask := s.almMask.set 0 k (if b.getD 6 0 = 1 then old ||| almBits d else off) }).gv gvOk)

/-- TIME_GET. -/
def State.timeGet (s : State) : PersAns × State :=
  s.gv gvOk (bytesBe 6 s.now.sec ++ bytesBe 4 s.now.ns ++ [s.now.quality])

/-! ### Serving a message -/

/-- Serve a message of personality p (Table FWT-16). -/
def State.persServe (s : State) (x : PersEnv) (p code : Nat) (b : List Nat) (frame : Option (List Nat × Nat)) : PersAns × State :=
  match code with
  | 0x10 => s.devIdentity p
  | 0x11 => s.devStatus p
  | 0x12 => s.devReset p b frame
  | 0x20 => s.laneSet x p b
  | 0x21 => s.laneGet p b
  | 0x22 => s.ifSet x p b
  | 0x23 => s.loopback p b
  | 0x30 => s.connAddMsg x p b
  | 0x31 => s.connModMsg x p b
  | 0x32 => s.connDelMsg x p b
  | 0x33 => s.connGetMsg p b
  | 0x40 => s.pmCurrent p b
  | 0x41 => s.pmHistory p b
  | 0x42 => s.pmThresh p b
  | 0x50 => s.pgAdd x p b
  | 0x51 => s.pgDelete x p b
  | 0x52 => s.pgCommand x p b
  | 0x53 => s.pgStatus p b
  | 0x60 => s.ohOpen x p b
  | 0x61 => s.ohClose x p b
  | 0x62 => s.ohSend p b
  | 0x63 => s.ohReceive p b
  | 0x70 => s.almList p b
  | 0x71 => s.almMaskSet p b
  | 0x80 => s.timeGet
  | 0x81 => s.gv gvNotPermitted
  | _ => s.gv gvUnknown

/-- The answer of a mailbox request (R496). -/
def State.mailAnswer (s : State) (n : Nat) (a : PersAns) : State :=
  match a with
  | some (st, ext, body) =>
    let b := body.take 492
    s.mbRespond n stOk ([st, ext] ++ bytesBe 2 b.length ++ b)
  | none => s

/-- The frame that answers a sender (R496), sent by the serving core on queue q. -/
def State.frameAnswer (s : State) (q p code : Nat) (dst : List Nat × Nat) (a : PersAns) : State :=
  match a with
  | some (st, ext, body) =>
    let b := dst.1 ++ bytesBe 6 (s.rd pgSdp SDP_MAC_addr) ++ bytesBe 2 (s.rd pgSdp SDP_SVC_ethertype) ++ [p, code] ++ bytesBe 2 dst.2 ++ [st, ext] ++
      bytesBe 2 body.length ++ body
    let w := s.persWho p
    (s.txStart_ w q b.length).each (List.range ((b.length + 3) / 4)) (fun s k => s.txData w (leNat ((b.drop (4 * k)).take 4)))
  | none => s

/-- A personality request that waits on page p + 1 is served by the core that holds it. -/
def State.persMail (s : State) (x : PersEnv) (p code : Nat) : State :=
  if p < 4 && s.mbWaits (p + 1) (0x10 + p) code && s.persUp p then
    let (a, s) := s.persServe x p code (s.mbPayload (p + 1)) none
    s.mailAnswer (p + 1) a
  else s

/-- PERSONALITY_FRAME: the oldest service frame (R496). A frame of the least length may be padded. -/
def State.persFrame (s : State) (x : PersEnv) : State :=
  match s.sdpRx1 with
  | [] => s
  | f :: rest =>
    let b := f.bytes.drop 14
    let p := b.getD 0 0
    let code := b.getD 1 0
    let n := by16 b 4
    let s' := { s with sdpRx1 := rest }
    if f.trunc ∨ 3 < p ∨ b.length < 6 ∨ ¬ (b.length = 6 + n ∨ (b.length = 46 ∧ 6 + n < 46)) then
      { s' with sdpBad := (s.sdpBad + 1) % 2 ^ 32 }
    else if s.persUp p then
      let dest := ((f.bytes.drop 6).take 6, by16 b 2)
      let (a, s) := s'.persServe x p code ((b.drop 6).take n) (some dest)
      s.frameAnswer (x.queue % 8) p code dest a
    else s

/-- DEV_RESET goes on, for the mailbox or for the frame that asked. -/
def State.persResetGo (s : State) (x : PersEnv) (p : Nat) : State :=
  match (s.persReset.get {} p).frame with
  | some dest => if s.persUp p then let (a, s) := s.resetStep p; s.frameAnswer (x.queue % 8) p 0x12 dest a else s
  | none => s.persMail x p 0x12

/-! ### PM binning and housekeeping (Table FWT-17) -/

/-- PMBIN STATUS and GET. -/
def State.pmBinServe (s : State) (op : Nat) : State :=
  let b := s.mbPayload 0
  if op = 1 then s.mbRespond 0 stOk (bytesBe 6 (s.pmLastBin.getD 0) ++ bytesBe 4 s.pmMissing ++ [32])
  else if op = 2 then
    if b.length ≠ 5 then s.mbRespond 0 stBadLen []
    else
      let m := b.getD 0 0 * 65536 + by16 b 1
      match (if 524288 ≤ m ∨ !binIndexOk (b.getD 3 0) (b.getD 4 0) then none else (s.binsOf m).back (b.getD 3 0) (b.getD 4 0)) with
      | some x => s.mbRespond 0 stOk x.history
      | none => let (v, s) := s.free 8; s.mbRespond 0 v []
  else s.mbRespond 0 stBadOp []

/-- HOUSEKEEPING STATUS. -/
def State.houseServe (s : State) (op : Nat) : State :=
  if op = 1 then
    s.mbRespond 0 stOk (bytesBe 4 ((s.tb.sec - s.enStart) % 2 ^ 32) ++ [s.rd (pgFwm 0) FWM_EN_STATUS_expiries % 256] ++ bytesBe 4 s.sdpBad ++
      imgDigest s.enRunning)
  else s.mbRespond 0 stBadOp []

/-- A request of a service of page 0 is served by the core that holds it. -/
def State.pageZero (s : State) (service op bit : Nat) (f : State → State) : State :=
  if s.mbWaits 0 service op && (s.holder bit).isSome then f s else s

/-! ### Any waiting request (R479 to R482) -/

/-- The page a service is offered on; none for a service byte of no service. -/
def servicePage (v : Nat) : Option Nat := if v = 0x20 ∨ v = 0x21 then some 0 else if 0x10 ≤ v ∧ v < 0x14 then some (v - 0x10 + 1) else none

/-- MAILBOX_RESPONSE: whatever waits on page n is served; the stage manager answers what reaches no server (R480). -/
def State.mailServe (s : State) (n : Nat) (t : TrustEnv) (x : PersEnv) : State :=
  if s.mbState n ≠ mbBusy then s
  else
    let v := s.mbService n
    if v = 1 then (if s.smHeld then s else s.serveTrust n t)
    else
      let sm (code : Nat) : State := if s.smHeld then s else s.mbRespond n code []
      match servicePage v with
      | none => sm stBadOp
      | some q =>
        if q ≠ n then sm stDenied
        else if v = 0x20 then (if (s.holder svcPmBin).isSome then s.pmBinServe (s.mbOp 0) else sm stNoService)
        else if v = 0x21 then (if (s.holder svcHouse).isSome then s.houseServe (s.mbOp 0) else sm stNoService)
        else if s.persUp (v - 0x10) then s.persMail x (v - 0x10) (s.mbOp n)
        else sm stNoService

/-! ### Meanings -/

def noPers : PersEnv := ⟨0, 0, 0, 0, 0, 0, 0, 0, 0, 0, 0, 0, 0, 0, 0, [], 0, 0, []⟩

def execMailboxResponse (n : Nat) (t : TrustEnv) (x : PersEnv) := run (fun s => if n < 512 then s.mailServe n t x else s)
def execDevIdentity (p : Nat) := run (fun s => s.persMail noPers p 0x10)
def execDevStatus (p : Nat) := run (fun s => s.persMail noPers p 0x11)
def execDevReset (p : Nat) (x : PersEnv) := run (fun s => s.persResetGo x p)
def execLaneSet (p : Nat) (x : PersEnv) := run (fun s => s.persMail x p 0x20)
def execLaneGet (p : Nat) := run (fun s => s.persMail noPers p 0x21)
def execIfSet (p : Nat) (x : PersEnv) := run (fun s => s.persMail x p 0x22)
def execLoopback (p : Nat) := run (fun s => s.persMail noPers p 0x23)
def execConnAdd (p : Nat) (x : PersEnv) := run (fun s => s.persMail x p 0x30)
def execConnModify (p : Nat) (x : PersEnv) := run (fun s => s.persMail x p 0x31)
def execConnDelete (p : Nat) (x : PersEnv) := run (fun s => s.persMail x p 0x32)
def execConnGet (p : Nat) := run (fun s => s.persMail noPers p 0x33)
def execPmCurrent (p : Nat) := run (fun s => s.persMail noPers p 0x40)
def execPmHistory (p : Nat) := run (fun s => s.persMail noPers p 0x41)
def execPmThresh (p : Nat) := run (fun s => s.persMail noPers p 0x42)
def execPgAdd (p : Nat) (x : PersEnv) := run (fun s => s.persMail x p 0x50)
def execPgDelete (p : Nat) (x : PersEnv) := run (fun s => s.persMail x p 0x51)
def execPgCommand (p : Nat) (x : PersEnv) := run (fun s => s.persMail x p 0x52)
def execPgStatus (p : Nat) := run (fun s => s.persMail noPers p 0x53)
def execOhOpen (p : Nat) (x : PersEnv) := run (fun s => s.persMail x p 0x60)
def execOhClose (p : Nat) (x : PersEnv) := run (fun s => s.persMail x p 0x61)
def execOhSend (p : Nat) := run (fun s => s.persMail noPers p 0x62)
def execOhReceive (p : Nat) := run (fun s => s.persMail noPers p 0x63)
def execAlmList (p : Nat) := run (fun s => s.persMail noPers p 0x70)
def execAlmMask (p : Nat) := run (fun s => s.persMail noPers p 0x71)
def execTimeGet (p : Nat) := run (fun s => s.persMail noPers p 0x80)
def execTimeSet (p : Nat) := run (fun s => s.persMail noPers p 0x81)
def execPersonalityFrame (x : PersEnv) := run (fun s => s.persFrame x)
def execPmbinStatus := run (fun s => s.pageZero 0x20 1 svcPmBin (fun s => s.pmBinServe 1))
def execPmbinGet := run (fun s => s.pageZero 0x20 2 svcPmBin (fun s => s.pmBinServe 2))
def execHousekeepingStatus := run (fun s => s.pageZero 0x21 1 svcHouse (fun s => s.houseServe 1))

end Sys2Proof.Machine
end

