-- ==== Sys2Proof/Machine/Clock.lean ====
section
/-! DEFINITION. What one DP cycle does by itself, with no command waiting: the time base, the slices' and the contexts' integrators, what of
the cycle's protection and wings events is still to be answered (file 04, R137, R138, R140; file 07, R243; file 08, R285, R295; file 12,
R423). -/

namespace Sys2Proof.Machine

open Sys2Proof

/-- A DP cycle ends: the slices' and the contexts' integrators count it, the next one begins. -/
def State.tickRun (s : State) : State :=
  let s := s.each ((List.range 1024).filter s.sliceRuns) State.sliceTick
  let s := s.each (s.allCtxs.filter (fun x => decide (x.2.1 = 0))) (fun s x => s.ctxTick x.1 x.2.2)
  let s := s.fltSettle.prtSettle.wingsSettle.retrainEnd.clockPins.intPin
  ({ s with dpCycle := s.dpCycle + 1 }).tbTick

/-- AON's cycle ends too: a POLL or a filter match of it lies behind (file 11, R406). -/
def State.aonTick (s : State) : State := { s with door := { s.door with wakeNow := none, polled := false } }

/-- One DP cycle while the core domains run; AON alone keeps no DP cycle. -/
def State.tick (s : State) : State :=
  if s.dom = .run then { s.fresh.tickRun with pending := s.pending }.aonTick else s.fresh.aonTick

end Sys2Proof.Machine
end

