-- ==== Sys2Proof/Machine/Dispatch.lean ====
section
/-! DEFINITION. exec: one arm per command, each one call of its meaning. -/

namespace Sys2Proof.Machine

open Sys2Proof

/-- The effect of a command on everything but the queue. -/
def exec (i : Instr) (s : State) : Host.Outcome State Fault Refusal :=
  match i with
  | .registerWrite x => Sys2Proof.Machine.execRegisterWrite x s
  | .pageCtrlWrite a v => Sys2Proof.Machine.execPageCtrlWrite a v s
  | .pageOwnerWrite a v => Sys2Proof.Machine.execPageOwnerWrite a v s
  | .evtStatusRead a => Sys2Proof.Machine.execEvtStatusRead a s
  | .evtAckWrite a v => Sys2Proof.Machine.execEvtAckWrite a v s
  | .evtForceWrite a v => Sys2Proof.Machine.execEvtForceWrite a v s
  | .voteScrub u => Sys2Proof.Machine.execVoteScrub u s
  | .loRead a => Sys2Proof.Machine.execLoRead a s
  | .loWrite a v => Sys2Proof.Machine.execLoWrite a v s
  | .hiWrite a v => Sys2Proof.Machine.execHiWrite a v s
  | .indAddrWrite a v => Sys2Proof.Machine.execIndAddrWrite a v s
  | .indData3Write a v => Sys2Proof.Machine.execIndData3Write a v s
  | .indData3Read a => Sys2Proof.Machine.execIndData3Read a s
  | .cueGo w n bad => Sys2Proof.Machine.execCueGo w n bad s
  | .cueRevert w n => Sys2Proof.Machine.execCueRevert w n s
  | .cueImageCrc n => Sys2Proof.Machine.execCueImageCrc n s
  | .cueCheckEnd n => Sys2Proof.Machine.execCueCheckEnd n s
  | .cueRowAdopt n x => Sys2Proof.Machine.execCueRowAdopt n x s
  | .blockRestart B cls => Sys2Proof.Machine.execBlockRestart B cls s
  | .blockRestartRelease lead => Sys2Proof.Machine.execBlockRestartRelease lead s
  | .blockRestartTimeout lead => Sys2Proof.Machine.execBlockRestartTimeout lead s
  | .adaptationDone n => Sys2Proof.Machine.execAdaptationDone n s
  | .llnTxFirWrite n v => Sys2Proof.Machine.execLlnTxFirWrite n v s
  | .llnRxEqWrite n v => Sys2Proof.Machine.execLlnRxEqWrite n v s
  | .trialStart B elapsed => Sys2Proof.Machine.execTrialStart B elapsed s
  | .trialDwellEnd n => Sys2Proof.Machine.execTrialDwellEnd n s
  | .codewordDecode n x m => Sys2Proof.Machine.execCodewordDecode n x m s
  | .fecSnap n => Sys2Proof.Machine.execFecSnap n s
  | .los l => Sys2Proof.Machine.execLos l s
  | .signalDetect l => Sys2Proof.Machine.execSignalDetect l s
  | .cdrUnlock n => Sys2Proof.Machine.execCdrUnlock n s
  | .cwLock n => Sys2Proof.Machine.execCwLock n s
  | .cwUnlock n lost => Sys2Proof.Machine.execCwUnlock n lost s
  | .deskewMeasure n lags => Sys2Proof.Machine.execDeskewMeasure n lags s
  | .prbsLock l levels => Sys2Proof.Machine.execPrbsLock l levels s
  | .prbsLockLost l levels => Sys2Proof.Machine.execPrbsLockLost l levels s
  | .prbsInject n => Sys2Proof.Machine.execPrbsInject n s
  | .flexoFrame d f => Sys2Proof.Machine.execFlexoFrame d f s
  | .otucFrame d f => Sys2Proof.Machine.execOtucFrame d f s
  | .lofOn d => Sys2Proof.Machine.execLofOn d s
  | .lofOff d => Sys2Proof.Machine.execLofOff d s
  | .lomOn d => Sys2Proof.Machine.execLomOn d s
  | .lomOff d => Sys2Proof.Machine.execLomOff d s
  | .dlomCnOn lead => Sys2Proof.Machine.execDlomCnOn lead s
  | .dlomCnOff lead => Sys2Proof.Machine.execDlomCnOff lead s
  | .bondEnter d => Sys2Proof.Machine.execBondEnter d s
  | .otucTxFrame lead x => Sys2Proof.Machine.execOtucTxFrame lead x s
  | .corruptFas d => Sys2Proof.Machine.execCorruptFas d s
  | .oduFrameSink B e f => Sys2Proof.Machine.execOduFrameSink B e f s
  | .dloflomOn B e omfi => Sys2Proof.Machine.execDloflomOn B e omfi s
  | .dloflomOff B e omfi => Sys2Proof.Machine.execDloflomOff B e omfi s
  | .oduFrameSource B e x => Sys2Proof.Machine.execOduFrameSource B e x s
  | .contextForcedAis B dir e => Sys2Proof.Machine.execContextForcedAis B dir e s
  | .secondBoundary => Sys2Proof.Machine.execSecondBoundary s
  | .pmSecond => Sys2Proof.Machine.execPmSecond s
  | .episodeChange r => Sys2Proof.Machine.execEpisodeChange r s
  | .aggregatedOff r => Sys2Proof.Machine.execAggregatedOff r s
  | .gmpMapPeriod B e mux data => Sys2Proof.Machine.execGmpMapPeriod B e mux data s
  | .gmpDemapPeriod B e mux rx => Sys2Proof.Machine.execGmpDemapPeriod B e mux rx s
  | .ampJustify B e data => Sys2Proof.Machine.execAmpJustify B e data s
  | .ampDemuxPeriod B e jc data serverOff => Sys2Proof.Machine.execAmpDemuxPeriod B e jc data serverOff s
  | .impBlock c p m => Sys2Proof.Machine.execImpBlock c p m s
  | .crateOff c => Sys2Proof.Machine.execCrateOff c s
  | .rateHold B e => Sys2Proof.Machine.execRateHold B e s
  | .rateHoldEnd B e => Sys2Proof.Machine.execRateHoldEnd B e s
  | .closOn c => Sys2Proof.Machine.execClosOn c s
  | .closOff c => Sys2Proof.Machine.execClosOff c s
  | .clfChange c on => Sys2Proof.Machine.execClfChange c on s
  | .crfChange c on => Sys2Proof.Machine.execCrfChange c on s
  | .suspectHoldEnd c => Sys2Proof.Machine.execSuspectHoldEnd c s
  | .legStatusChange G leg => Sys2Proof.Machine.execLegStatusChange G leg s
  | .holdOffExpiry G leg => Sys2Proof.Machine.execHoldOffExpiry G leg s
  | .wtrExpiry G => Sys2Proof.Machine.execWtrExpiry G s
  | .confirmationExpiry G => Sys2Proof.Machine.execConfirmationExpiry G s
  | .bridgeChangeApply r j => Sys2Proof.Machine.execBridgeChangeApply r j s
  | .clr w G => Sys2Proof.Machine.execClr w G s
  | .lo w G => Sys2Proof.Machine.execLo w G s
  | .fs w G => Sys2Proof.Machine.execFs w G s
  | .ms w G => Sys2Proof.Machine.execMs w G s
  | .msW w G => Sys2Proof.Machine.execMsW w G s
  | .exer w G => Sys2Proof.Machine.execExer w G s
  | .setSel w G => Sys2Proof.Machine.execSetSel w G s
  | .setBridge w G => Sys2Proof.Machine.execSetBridge w G s
  | .setAps w G => Sys2Proof.Machine.execSetAps w G s
  | .setAll w G => Sys2Proof.Machine.execSetAll w G s
  | .ackSfp w G => Sys2Proof.Machine.execAckSfp w G s
  | .prtNoteRead w => Sys2Proof.Machine.execPrtNoteRead w s
  | .apsMessageReceive a msg => Sys2Proof.Machine.execApsMessageReceive a msg s
  | .apsAgeScan => Sys2Proof.Machine.execApsAgeScan s
  | .dfopNr a => Sys2Proof.Machine.execDfopNr a s
  | .stampInstance B e g => Sys2Proof.Machine.execStampInstance B e g s
  | .wingsGroupStart w leg F => Sys2Proof.Machine.execWingsGroupStart w leg F s
  | .playoutAdvance w u => Sys2Proof.Machine.execPlayoutAdvance w u s
  | .slotGrant => Sys2Proof.Machine.execSlotGrant s
  | .overRecover w => Sys2Proof.Machine.execOverRecover w s
  | .hbmRetrainPc k late => Sys2Proof.Machine.execHbmRetrainPc k late s
  | .stackFail k clock => Sys2Proof.Machine.execStackFail k clock s
  | .groupFallback k => Sys2Proof.Machine.execGroupFallback k s
  | .hbmRestore k => Sys2Proof.Machine.execHbmRestore k s
  | .ackFail w => Sys2Proof.Machine.execAckFail w s
  | .fybryAdaptationDone m => Sys2Proof.Machine.execFybryAdaptationDone m s
  | .fylTxEqWrite m k v => Sys2Proof.Machine.execFylTxEqWrite m k v s
  | .markerLock m k x => Sys2Proof.Machine.execMarkerLock m k x s
  | .markerLockLost m k => Sys2Proof.Machine.execMarkerLockLost m k s
  | .segmentReceive m x => Sys2Proof.Machine.execSegmentReceive m x s
  | .segmentSlot m => Sys2Proof.Machine.execSegmentSlot m s
  | .segmentComplete r j d => Sys2Proof.Machine.execSegmentComplete r j d s
  | .reorderTimeout r j => Sys2Proof.Machine.execReorderTimeout r j s
  | .flowAbsent r j => Sys2Proof.Machine.execFlowAbsent r j s
  | .linkFail m c => Sys2Proof.Machine.execLinkFail m c s
  | .fylFail m => Sys2Proof.Machine.execFylFail m s
  | .fylRestore m => Sys2Proof.Machine.execFylRestore m s
  | .ohqRdRead w r => Sys2Proof.Machine.execOhqRdRead w r s
  | .ohqWrWrite w r v => Sys2Proof.Machine.execOhqWrWrite w r v s
  | .flush w r dir ch => Sys2Proof.Machine.execFlush w r dir ch s
  | .flushApply r dir ch => Sys2Proof.Machine.execFlushApply r dir ch s
  | .dropRest w r dir ch => Sys2Proof.Machine.execDropRest w r dir ch s
  | .chkStart w u => Sys2Proof.Machine.execChkStart w u s
  | .chkDataWrite w u v => Sys2Proof.Machine.execChkDataWrite w u v s
  | .chkFinish w u => Sys2Proof.Machine.execChkFinish w u s
  | .chkAbort w u => Sys2Proof.Machine.execChkAbort w u s
  | .sdpFrameReceive b => Sys2Proof.Machine.execSdpFrameReceive b s
  | .sdpRxDescRead w => Sys2Proof.Machine.execSdpRxDescRead w s
  | .sdpRxDataRead w => Sys2Proof.Machine.execSdpRxDataRead w s
  | .sdpTxStart w q len => Sys2Proof.Machine.execSdpTxStart w q len s
  | .sdpTxAbort w => Sys2Proof.Machine.execSdpTxAbort w s
  | .sdpTxDataWrite w v => Sys2Proof.Machine.execSdpTxDataWrite w v s
  | .sdpTransmit => Sys2Proof.Machine.execSdpTransmit s
  | .sdpAgeScan => Sys2Proof.Machine.execSdpAgeScan s
  | .pauseExpiry c => Sys2Proof.Machine.execPauseExpiry c s
  | .pauseBreak c => Sys2Proof.Machine.execPauseBreak c s
  | .sdpStatHalfRead w => Sys2Proof.Machine.execSdpStatHalfRead w s
  | .cbbFrameReceive x => Sys2Proof.Machine.execCbbFrameReceive x s
  | .cbbTxSend w typ dst len => Sys2Proof.Machine.execCbbTxSend w typ dst len s
  | .cbbTxAbort w => Sys2Proof.Machine.execCbbTxAbort w s
  | .cbbTxTimeout => Sys2Proof.Machine.execCbbTxTimeout s
  | .masterLost => Sys2Proof.Machine.execMasterLost s
  | .tokenRegen collides => Sys2Proof.Machine.execTokenRegen collides s
  | .tokenSuccessorTimeout => Sys2Proof.Machine.execTokenSuccessorTimeout s
  | .beaconSend collides => Sys2Proof.Machine.execBeaconSend collides s
  | .windowClose => Sys2Proof.Machine.execWindowClose s
  | .partnerLost => Sys2Proof.Machine.execPartnerLost s
  | .cbbWakeAck => Sys2Proof.Machine.execCbbWakeAck s
  | .darkWake strap => Sys2Proof.Machine.execDarkWake strap s
  | .refLost u ppm => Sys2Proof.Machine.execRefLost u ppm s
  | .refBack u ppm t16 => Sys2Proof.Machine.execRefBack u ppm t16 s
  | .lockLost u => Sys2Proof.Machine.execLockLost u s
  | .relock u ok => Sys2Proof.Machine.execRelock u ok s
  | .reband u w t16 => Sys2Proof.Machine.execReband u w t16 s
  | .rebandDone u => Sys2Proof.Machine.execRebandDone u s
  | .bandEdge u margin => Sys2Proof.Machine.execBandEdge u margin s
  | .ppsEdge j ns => Sys2Proof.Machine.execPpsEdge j ns s
  | .ppsLost j => Sys2Proof.Machine.execPpsLost j s
  | .todMessage bytes inTime => Sys2Proof.Machine.execTodMessage bytes inTime s
  | .slewDone => Sys2Proof.Machine.execSlewDone s
  | .holdoverExpired => Sys2Proof.Machine.execHoldoverExpired s
  | .todOutSend => Sys2Proof.Machine.execTodOutSend s
  | .timNowRead w => Sys2Proof.Machine.execTimNowRead w s
  | .setSec w => Sys2Proof.Machine.execSetSec w s
  | .timTsRead w => Sys2Proof.Machine.execTimTsRead w s
  | .hostLinkDown => Sys2Proof.Machine.execHostLinkDown s
  | .hostLinkUp width speed => Sys2Proof.Machine.execHostLinkUp width speed s
  | .vfFlr n => Sys2Proof.Machine.execVfFlr n s
  | .hostRequest x => Sys2Proof.Machine.execHostRequest x s
  | .busTimeout w pg write late h => Sys2Proof.Machine.execBusTimeout w pg write late h s
  | .setPage box => Sys2Proof.Machine.execSetPage box s
  | .setObj box => Sys2Proof.Machine.execSetObj box s
  | .setWin box => Sys2Proof.Machine.execSetWin box s
  | .proxyAccess w n off be v => Sys2Proof.Machine.execProxyAccess w n off be v s
  | .boxPxPageWrite n v => Sys2Proof.Machine.execBoxPxPageWrite n v s
  | .boxNoteRead w n => Sys2Proof.Machine.execBoxNoteRead w n s
  | .msixSend n v => Sys2Proof.Machine.execMsixSend n v s
  | .dmaGo c => Sys2Proof.Machine.execDmaGo c s
  | .dmaDone c bad => Sys2Proof.Machine.execDmaDone c bad s
  | .pmCopyGo n max => Sys2Proof.Machine.execPmCopyGo n max s
  | .pmCopyDone n bad => Sys2Proof.Machine.execPmCopyDone n bad s
  | .fwmRing w n => Sys2Proof.Machine.execFwmRing w n s
  | .mailboxResponse n t x => Sys2Proof.Machine.execMailboxResponse n t x s
  | .attest n => Sys2Proof.Machine.execAttest n s
  | .getCert n => Sys2Proof.Machine.execGetCert n s
  | .debugChallenge => Sys2Proof.Machine.execDebugChallenge s
  | .debugUnlock => Sys2Proof.Machine.execDebugUnlock s
  | .commitRollback x => Sys2Proof.Machine.execCommitRollback x s
  | .revokeSlot => Sys2Proof.Machine.execRevokeSlot s
  | .updateEn x => Sys2Proof.Machine.execUpdateEn x s
  | .bootInfo => Sys2Proof.Machine.execBootInfo s
  | .pushStart kind len => Sys2Proof.Machine.execPushStart kind len s
  | .pushData w v => Sys2Proof.Machine.execPushData w v s
  | .pushEnd => Sys2Proof.Machine.execPushEnd s
  | .pushAbort => Sys2Proof.Machine.execPushAbort s
  | .imageVerified kind flash x => Sys2Proof.Machine.execImageVerified kind flash x s
  | .fwmWdogKick w => Sys2Proof.Machine.execFwmWdogKick w s
  | .enWdogExpiry core => Sys2Proof.Machine.execEnWdogExpiry core s
  | .smWdogExpiry lockstep => Sys2Proof.Machine.execSmWdogExpiry lockstep s
  | .devIdentity p => Sys2Proof.Machine.execDevIdentity p s
  | .devStatus p => Sys2Proof.Machine.execDevStatus p s
  | .devReset p x => Sys2Proof.Machine.execDevReset p x s
  | .laneSet p x => Sys2Proof.Machine.execLaneSet p x s
  | .laneGet p => Sys2Proof.Machine.execLaneGet p s
  | .ifSet p x => Sys2Proof.Machine.execIfSet p x s
  | .loopback p => Sys2Proof.Machine.execLoopback p s
  | .connAdd p x => Sys2Proof.Machine.execConnAdd p x s
  | .connModify p x => Sys2Proof.Machine.execConnModify p x s
  | .connDelete p x => Sys2Proof.Machine.execConnDelete p x s
  | .connGet p => Sys2Proof.Machine.execConnGet p s
  | .pmCurrent p => Sys2Proof.Machine.execPmCurrent p s
  | .pmHistory p => Sys2Proof.Machine.execPmHistory p s
  | .pmThresh p => Sys2Proof.Machine.execPmThresh p s
  | .pgAdd p x => Sys2Proof.Machine.execPgAdd p x s
  | .pgDelete p x => Sys2Proof.Machine.execPgDelete p x s
  | .pgCommand p x => Sys2Proof.Machine.execPgCommand p x s
  | .pgStatus p => Sys2Proof.Machine.execPgStatus p s
  | .ohOpen p x => Sys2Proof.Machine.execOhOpen p x s
  | .ohClose p x => Sys2Proof.Machine.execOhClose p x s
  | .ohSend p => Sys2Proof.Machine.execOhSend p s
  | .ohReceive p => Sys2Proof.Machine.execOhReceive p s
  | .almList p => Sys2Proof.Machine.execAlmList p s
  | .almMask p => Sys2Proof.Machine.execAlmMask p s
  | .timeGet p => Sys2Proof.Machine.execTimeGet p s
  | .timeSet p => Sys2Proof.Machine.execTimeSet p s
  | .personalityFrame x => Sys2Proof.Machine.execPersonalityFrame x s
  | .pmbinStatus => Sys2Proof.Machine.execPmbinStatus s
  | .pmbinGet => Sys2Proof.Machine.execPmbinGet s
  | .housekeepingStatus => Sys2Proof.Machine.execHousekeepingStatus s
  | .reportWord link => Sys2Proof.Machine.execReportWord link s
  | .wireBroken link => Sys2Proof.Machine.execWireBroken link s
  | .reportResend link => Sys2Proof.Machine.execReportResend link s
  | .fltAgeScan => Sys2Proof.Machine.execFltAgeScan s
  | .fltAck v => Sys2Proof.Machine.execFltAck v s
  | .fltInject v => Sys2Proof.Machine.execFltInject v s
  | .logWrite bad => Sys2Proof.Machine.execLogWrite bad s
  | .keyClose cls source => Sys2Proof.Machine.execKeyClose cls source s
  | .bankFail k => Sys2Proof.Machine.execBankFail k s
  | .ghostClear w => Sys2Proof.Machine.execGhostClear w s
  | .playbillGo => Sys2Proof.Machine.execPlaybillGo s
  | .playbillDone => Sys2Proof.Machine.execPlaybillDone s
  | .digestRecompute j => Sys2Proof.Machine.execDigestRecompute j s
  | .resetNRelease strap => Sys2Proof.Machine.execResetNRelease strap s
  | .callDone => Sys2Proof.Machine.execCallDone s
  | .service w arg => Sys2Proof.Machine.execService w arg s
  | .rehearse w => Sys2Proof.Machine.execRehearse w s
  | .audit w => Sys2Proof.Machine.execAudit w s
  | .enterSafe w => Sys2Proof.Machine.execEnterSafe w s
  | .exitSafe w => Sys2Proof.Machine.execExitSafe w s
  | .enterDark w => Sys2Proof.Machine.execEnterDark w s
  | .drain w r => Sys2Proof.Machine.execDrain w r s
  | .offline w r => Sys2Proof.Machine.execOffline w r s
  | .resume w r => Sys2Proof.Machine.execResume w r s
  | .reset w r => Sys2Proof.Machine.execReset w r s
  | .resetClear w r => Sys2Proof.Machine.execResetClear w r s
  | .regionResetDone r => Sys2Proof.Machine.execRegionResetDone r s
  | .update w r temps => Sys2Proof.Machine.execUpdate w r temps s
  | .stackRetrain w k => Sys2Proof.Machine.execStackRetrain w k s
  | .regionSram target => Sys2Proof.Machine.execRegionSram target s
  | .queueMem target => Sys2Proof.Machine.execQueueMem target s
  | .hbmAlign target => Sys2Proof.Machine.execHbmAlign target s
  | .logBank target => Sys2Proof.Machine.execLogBank target s
  | .fuse target => Sys2Proof.Machine.execFuse target s
  | .aonVote target => Sys2Proof.Machine.execAonVote target s
  | .auditDone fail => Sys2Proof.Machine.execAuditDone fail s
  | .lifeCounterTick t16 => Sys2Proof.Machine.execLifeCounterTick t16 s
  | .supplyUndervoltage rail v => Sys2Proof.Machine.execSupplyUndervoltage rail v s
  | .supplyOvervoltage rail v => Sys2Proof.Machine.execSupplyOvervoltage rail v s
  | .coreValidReturn v => Sys2Proof.Machine.execCoreValidReturn v s
  | .thermalSample k t16 v => Sys2Proof.Machine.execThermalSample k t16 v s
  | .i2cAccess addr ptr n => Sys2Proof.Machine.execI2cAccess addr ptr n s
  | .cdrLock n => Sys2Proof.Machine.execCdrLock n s
  | .resetNAssert => Sys2Proof.Machine.execResetNAssert s
  | .aonPowerUp => Sys2Proof.Machine.execAonPowerUp s
  | .sdpLinkChange lock lf rf => Sys2Proof.Machine.execSdpLinkChange lock lf rf s
  | .pushTimeout => Sys2Proof.Machine.execPushTimeout s
  | .pauseIgnoreEnd c => Sys2Proof.Machine.execPauseIgnoreEnd c s
  | .stackTrainingDone k ok => Sys2Proof.Machine.execStackTrainingDone k ok s
  | .fybryCodewordDecode m k levels => Sys2Proof.Machine.execFybryCodewordDecode m k levels s
  | .configurationRequest x => Sys2Proof.Machine.execConfigurationRequest x s
  | .jtagInstruction x => Sys2Proof.Machine.execJtagInstruction x s
  | .itemErrorDetected x => Sys2Proof.Machine.execItemErrorDetected x s

end Sys2Proof.Machine
end

