-- ==== Sys2Proof/Machine/Footprint.lean ====
section
/-! DEFINITION. The footprint of every command: the registers, tables and parts of the state that its effect may change. A
register stands for its place, the offset in a page and the lowest bit; a table for its code. What one command leaves alone is
everything outside its footprint. The footprints named after an operation are those of the operation. -/

namespace Sys2Proof.Machine

open Sys2Proof

/-- The parts of the state beside the registers, the tables, the queue and the two outputs of a command. -/
inductive Part where
  | freeCtr | dpCycle | staged | dirty | events | devGen | mem | slots | fltWin | col | logQ | logHeld | coalKeys
  | skips | fns | numVfs | vecs | notices | modeCmd | deferredIso | tb | blk | live | lanes | prbs | epi | slices
  | points | ctxs | secCount | pmPend | tbStepped | clis | gmps | grps | apss | prtQ | sfpOverwrite | flowOuts | wgrps
  | slotQ | hbm | fallQ | nextPc | brgStamp | fyls | txFlows | rxFailTurn | coverAt | covers | caps | inss | chks
  | sdpRx0 | sdpRx1 | sdpCur | sdpTx | sdpWr | sdpLast | sdpStarts | sdpRows | sdpSpeed | sdpQuanta | cbbTx | cbbRx
  | cbbCur | cbbRing | cbbNext | cbbSeq | cbbHeard | door | tsLog | pps | tim | ppsOutLast | csus | upd | msixTab | hst
  | smHeld | reqQ | smImg | slotA | slotB | push | rbSteps | revoked | rights | challenge | wdogTimes | enStart | kickAt
  | mbWho | dom | callStop | supplyOff | thermOff | thermHot | life | i2cPtr | plb | digs | digDue | cues | cueTurn
  | pmBins | pmBase | pmLastBin | pmMissing | pmThr | tca | almMask | sdpBad | persReset
  deriving DecidableEq, Repr

/-- Every part. -/
def Part.all : List Part :=
  [.freeCtr, .dpCycle, .staged, .dirty, .events, .devGen, .mem, .slots, .fltWin, .col, .logQ, .logHeld, .coalKeys, .skips, .fns,
    .numVfs, .vecs, .notices, .modeCmd, .deferredIso, .tb, .blk, .live, .lanes, .prbs, .epi, .slices, .points, .ctxs, .secCount,
    .pmPend, .tbStepped, .clis, .gmps, .grps, .apss, .prtQ, .sfpOverwrite, .flowOuts, .wgrps, .slotQ, .hbm, .fallQ, .nextPc,
    .brgStamp, .fyls, .txFlows, .rxFailTurn, .coverAt, .covers, .caps, .inss, .chks, .sdpRx0, .sdpRx1, .sdpCur, .sdpTx, .sdpWr,
    .sdpLast, .sdpStarts, .sdpRows, .sdpSpeed, .sdpQuanta, .cbbTx, .cbbRx, .cbbCur, .cbbRing, .cbbNext, .cbbSeq, .cbbHeard,
    .door, .tsLog, .pps, .tim, .ppsOutLast, .csus, .upd, .msixTab, .hst, .smHeld, .reqQ, .smImg, .slotA, .slotB, .push,
    .rbSteps, .revoked, .rights, .challenge, .wdogTimes, .enStart, .kickAt, .mbWho, .dom, .callStop, .supplyOff, .thermOff,
    .thermHot, .life, .i2cPtr, .plb, .digs, .digDue, .cues, .cueTurn, .pmBins, .pmBase, .pmLastBin, .pmMissing, .pmThr, .tca,
    .almMask, .sdpBad, .persReset]

/-- A part is the same in two states. -/
def Part.same (p : Part) (s t : State) : Prop :=
  match p with
  | .freeCtr => t.freeCtr = s.freeCtr
  | .dpCycle => t.dpCycle = s.dpCycle
  | .staged => t.staged = s.staged
  | .dirty => t.dirty = s.dirty
  | .events => t.events = s.events
  | .devGen => t.devGen = s.devGen
  | .mem => t.mem = s.mem
  | .slots => t.slots = s.slots
  | .fltWin => t.fltWin = s.fltWin
  | .col => t.col = s.col
  | .logQ => t.logQ = s.logQ
  | .logHeld => t.logHeld = s.logHeld
  | .coalKeys => t.coalKeys = s.coalKeys
  | .skips => t.skips = s.skips
  | .fns => t.fns = s.fns
  | .numVfs => t.numVfs = s.numVfs
  | .vecs => t.vecs = s.vecs
  | .notices => t.notices = s.notices
  | .modeCmd => t.modeCmd = s.modeCmd
  | .deferredIso => t.deferredIso = s.deferredIso
  | .tb => t.tb = s.tb
  | .blk => t.blk = s.blk
  | .live => t.live = s.live
  | .lanes => t.lanes = s.lanes
  | .prbs => t.prbs = s.prbs
  | .epi => t.epi = s.epi
  | .slices => t.slices = s.slices
  | .points => t.points = s.points
  | .ctxs => t.ctxs = s.ctxs
  | .secCount => t.secCount = s.secCount
  | .pmPend => t.pmPend = s.pmPend
  | .tbStepped => t.tbStepped = s.tbStepped
  | .clis => t.clis = s.clis
  | .gmps => t.gmps = s.gmps
  | .grps => t.grps = s.grps
  | .apss => t.apss = s.apss
  | .prtQ => t.prtQ = s.prtQ
  | .sfpOverwrite => t.sfpOverwrite = s.sfpOverwrite
  | .flowOuts => t.flowOuts = s.flowOuts
  | .wgrps => t.wgrps = s.wgrps
  | .slotQ => t.slotQ = s.slotQ
  | .hbm => t.hbm = s.hbm
  | .fallQ => t.fallQ = s.fallQ
  | .nextPc => t.nextPc = s.nextPc
  | .brgStamp => t.brgStamp = s.brgStamp
  | .fyls => t.fyls = s.fyls
  | .txFlows => t.txFlows = s.txFlows
  | .rxFailTurn => t.rxFailTurn = s.rxFailTurn
  | .coverAt => t.coverAt = s.coverAt
  | .covers => t.covers = s.covers
  | .caps => t.caps = s.caps
  | .inss => t.inss = s.inss
  | .chks => t.chks = s.chks
  | .sdpRx0 => t.sdpRx0 = s.sdpRx0
  | .sdpRx1 => t.sdpRx1 = s.sdpRx1
  | .sdpCur => t.sdpCur = s.sdpCur
  | .sdpTx => t.sdpTx = s.sdpTx
  | .sdpWr => t.sdpWr = s.sdpWr
  | .sdpLast => t.sdpLast = s.sdpLast
  | .sdpStarts => t.sdpStarts = s.sdpStarts
  | .sdpRows => t.sdpRows = s.sdpRows
  | .sdpSpeed => t.sdpSpeed = s.sdpSpeed
  | .sdpQuanta => t.sdpQuanta = s.sdpQuanta
  | .cbbTx => t.cbbTx = s.cbbTx
  | .cbbRx => t.cbbRx = s.cbbRx
  | .cbbCur => t.cbbCur = s.cbbCur
  | .cbbRing => t.cbbRing = s.cbbRing
  | .cbbNext => t.cbbNext = s.cbbNext
  | .cbbSeq => t.cbbSeq = s.cbbSeq
  | .cbbHeard => t.cbbHeard = s.cbbHeard
  | .door => t.door = s.door
  | .tsLog => t.tsLog = s.tsLog
  | .pps => t.pps = s.pps
  | .tim => t.tim = s.tim
  | .ppsOutLast => t.ppsOutLast = s.ppsOutLast
  | .csus => t.csus = s.csus
  | .upd => t.upd = s.upd
  | .msixTab => t.msixTab = s.msixTab
  | .hst => t.hst = s.hst
  | .smHeld => t.smHeld = s.smHeld
  | .reqQ => t.reqQ = s.reqQ
  | .smImg => t.smImg = s.smImg
  | .slotA => t.slotA = s.slotA
  | .slotB => t.slotB = s.slotB
  | .push => t.push = s.push
  | .rbSteps => t.rbSteps = s.rbSteps
  | .revoked => t.revoked = s.revoked
  | .rights => t.rights = s.rights
  | .challenge => t.challenge = s.challenge
  | .wdogTimes => t.wdogTimes = s.wdogTimes
  | .enStart => t.enStart = s.enStart
  | .kickAt => t.kickAt = s.kickAt
  | .mbWho => t.mbWho = s.mbWho
  | .dom => t.dom = s.dom
  | .callStop => t.callStop = s.callStop
  | .supplyOff => t.supplyOff = s.supplyOff
  | .thermOff => t.thermOff = s.thermOff
  | .thermHot => t.thermHot = s.thermHot
  | .life => t.life = s.life
  | .i2cPtr => t.i2cPtr = s.i2cPtr
  | .plb => t.plb = s.plb
  | .digs => t.digs = s.digs
  | .digDue => t.digDue = s.digDue
  | .cues => t.cues = s.cues
  | .cueTurn => t.cueTurn = s.cueTurn
  | .pmBins => t.pmBins = s.pmBins
  | .pmBase => t.pmBase = s.pmBase
  | .pmLastBin => t.pmLastBin = s.pmLastBin
  | .pmMissing => t.pmMissing = s.pmMissing
  | .pmThr => t.pmThr = s.pmThr
  | .tca => t.tca = s.tca
  | .almMask => t.almMask = s.almMask
  | .sdpBad => t.sdpBad = s.sdpBad
  | .persReset => t.persReset = s.persReset

/-- What an effect may change: any register or the listed ones, any table or the listed ones, and the listed parts. -/
structure Foot where
  anyReg : Bool := false
  regs : List Field := []
  anyTab : Bool := false
  tabs : List Tab := []
  parts : List Part := []

/-- Both footprints together. -/
def Foot.both (a b : Foot) : Foot :=
  { anyReg := a.anyReg || b.anyReg, regs := a.regs ++ b.regs, anyTab := a.anyTab || b.anyTab, tabs := a.tabs ++ b.tabs
    parts := a.parts ++ b.parts }

/-- Footprints together. -/
def Foot.join (l : List Foot) : Foot := l.foldl Foot.both {}

/-- The place of a register in its page: its offset and its lowest bit. -/
def Field.place (f : Field) : Nat := (f.off * 8 + f.lo) % 8192

/-- The footprint has the place of a register. -/
def Foot.hasReg (a : Foot) (f : Field) : Bool := a.anyReg || a.regs.any (fun g => decide (g.place = f.place))

/-- The footprint has a table of that code. -/
def Foot.hasTab (a : Foot) (x : Tab) : Bool := a.anyTab || a.tabs.any (fun y => decide (y.code % 256 = x.code % 256))

/-- What `ctxTick` may change. -/
def footCtxTick : Foot :=
  { regs := [EPI_AGG_ENTRIES_count, EPI_NEXT_ID_id, EPI_OCC_occupancy, EPI_STATUS_aggregated, EPI_STATUS_tracked,
    LOG_STATUS_coalescing, LOG_STATUS_queue], tabs := [T_CLI_CNT, T_CLI_STATUS, T_CTX_STATUS, T_EPI_AGG, T_EPI_OPEN,
    T_MP_STATUS, T_STAMP_RX], parts := [.ctxs, .epi, .events, .logHeld, .logQ, .points, .vecs] }
/-- What `persServe` may change. -/
def footPersServe : Foot :=
  { anyReg := true, anyTab := true, parts := [.almMask, .apss, .blk, .brgStamp, .caps, .clis, .coverAt, .covers, .ctxs,
    .cueTurn, .cues, .devGen, .digDue, .dirty, .epi, .events, .flowOuts, .freeCtr, .fyls, .gmps, .grps, .hst, .inss, .lanes,
    .live, .logHeld, .logQ, .modeCmd, .notices, .persReset, .pmThr, .points, .prbs, .prtQ, .sdpRows, .sdpSpeed, .sfpOverwrite,
    .slices, .slotQ, .slots, .staged, .txFlows, .vecs, .wgrps] }
/-- What `evalNow` may change. -/
def footEvalNow : Foot :=
  { regs := [BOX_NOTE_LOST, EPI_AGG_ENTRIES_count, EPI_NEXT_ID_id, EPI_OCC_occupancy, EPI_STATUS_aggregated, EPI_STATUS_tracked,
    ETH_IDLE_DEL, ETH_PKT_DROP, ETH_REPL, ETH_STATUS_aligned, ETH_STATUS_clf, ETH_STATUS_clos, ETH_STATUS_crate, ETH_STATUS_crf,
    ETH_STATUS_leg, ETH_STATUS_replacing, LOG_STATUS_coalescing, LOG_STATUS_queue, PRT_NOTE_LOST_lost], tabs := [T_APS_CNT,
    T_APS_RX, T_CLI_CNT, T_CLI_STATUS, T_CTX_STATUS, T_EPI_AGG, T_EPI_OPEN, T_ISL_GRP_CNT, T_ISL_GRP_STATUS, T_MP_STATUS,
    T_SEL_GRP_CNT, T_SEL_GRP_STATUS, T_SFP_REC, T_STAMP_RX], parts := [.clis, .ctxs, .epi, .events, .grps, .logHeld, .logQ,
    .notices, .points, .sfpOverwrite, .vecs] }
/-- What `bankRaise` may change. -/
def footBankRaise : Foot :=
  { anyReg := true, tabs := [T_CLI_CNT, T_CLI_STATUS, T_CTX_STATUS, T_EPI_AGG, T_EPI_OPEN, T_FLT_CNT, T_FLT_LINK, T_FLT_STATE,
    T_MP_STATUS, T_MP_TTI_ACC, T_OTU_TTI_ACC, T_STAMP_RX, T_TXF_CNT], parts := [.blk, .callStop, .clis, .ctxs, .deferredIso,
    .dirty, .epi, .events, .fltWin, .freeCtr, .fyls, .gmps, .hst, .lanes, .live, .logHeld, .logQ, .modeCmd, .points, .prbs,
    .slices, .staged, .txFlows, .vecs] }
/-- What `trustOp` may change. -/
def footTrustOp : Foot :=
  { regs := [FWM_RSP_word 0, FWM_RSP_word 1, FWM_RSP_word 2, FWM_EN_STATUS_expiries, FWM_EN_STATUS_held0, FWM_EN_STATUS_held1,
    FWM_EN_STATUS_run0, FWM_EN_STATUS_run1, FWM_EN_STATUS_slot0, FWM_EN_STATUS_slot1, FWM_MB_STATUS_busy_refused,
    FWM_MB_STATUS_state, FWM_ROLLBACK_en, LOG_STATUS_coalescing, LOG_STATUS_queue] ++ ((List.range 128).map FWM_RSP_word), parts
    := [.challenge, .enStart, .events, .freeCtr, .hst, .kickAt, .logHeld, .logQ, .mbWho, .rbSteps, .revoked, .rights, .slots,
    .vecs, .wdogTimes] }
/-- What `restoreLink` may change. -/
def footRestoreLink : Foot :=
  { regs := [FYL_STATUS_covered, FYL_STATUS_failed, FYT_DROP_dropped, FYT_STATUS_active, FYT_STATUS_covering,
    FYT_STATUS_no_cover, FYT_STATUS_working], tabs := [T_TXF_CNT], parts := [.covers, .events, .fyls, .vecs] }
/-- What `refreshEth` may change. -/
def footRefreshEth : Foot :=
  { regs := [ETH_REPL, ETH_STATUS_aligned, ETH_STATUS_leg, ETH_STATUS_replacing], parts := [.clis, .events, .vecs] }
/-- What `laneStop` may change. -/
def footLaneStop : Foot :=
  { regs := [EPI_AGG_ENTRIES_count, EPI_NEXT_ID_id, EPI_OCC_occupancy, EPI_STATUS_aggregated, EPI_STATUS_tracked, ETH_REPL,
    ETH_STATUS_aligned, ETH_STATUS_leg, ETH_STATUS_replacing, LLN_ADAPT_STATUS_margin, LLN_ADAPT_STATUS_trial_active,
    LLN_ADAPT_STATUS_waiting, LLN_RX_EQ_ctle, LLN_RX_EQ_dfe, LLN_RX_EQ_mlse, LLN_RX_EQ_phase, LLN_SKEW_valid,
    LLN_STATUS_cdr_lock, LLN_STATUS_cw_lock, LLN_STATUS_prbs_lock, LLN_STATUS_trained, LOG_STATUS_coalescing, LOG_STATUS_queue,
    OTU_OOF_CNT, OTU_STATUS_bonded, OTU_STATUS_flexo_lock, OTU_STATUS_fstate, OTU_STATUS_im, OTU_STATUS_in_frame,
    OTU_STATUS_ssd, OTU_STATUS_ssf] ++ ((List.range 5).map LLN_TRIAL_CNT_count), tabs := [T_CLI_CNT, T_CLI_STATUS, T_CTX_STATUS,
    T_EPI_AGG, T_EPI_OPEN, T_MP_STATUS, T_STAMP_RX], parts := [.clis, .ctxs, .epi, .events, .lanes, .logHeld, .logQ, .points,
    .prbs, .slices, .vecs] }
/-- What `enterReset` may change. -/
def footEnterReset : Foot :=
  { anyReg := true, anyTab := true, parts := [.apss, .blk, .brgStamp, .caps, .clis, .covers, .ctxs, .cues, .dirty, .epi,
    .events, .flowOuts, .fyls, .gmps, .grps, .hst, .inss, .lanes, .live, .logHeld, .logQ, .notices, .points, .prbs,
    .sfpOverwrite, .slices, .slotQ, .staged, .txFlows, .vecs, .wgrps] }
/-- What `wgEnter` may change. -/
def footWgEnter : Foot :=
  { regs := [EPI_AGG_ENTRIES_count, EPI_NEXT_ID_id, EPI_OCC_occupancy, EPI_STATUS_aggregated, EPI_STATUS_tracked, ETH_IDLE_DEL,
    ETH_LOST_UNITS, ETH_PKT_DROP, ETH_REPL, ETH_STATUS_aligned, ETH_STATUS_clf, ETH_STATUS_clos, ETH_STATUS_crate,
    ETH_STATUS_crf, ETH_STATUS_leg, ETH_STATUS_replacing, LOG_STATUS_coalescing, LOG_STATUS_queue, WNG_STATUS_queued,
    WNG_STATUS_slots], tabs := [T_CLI_CNT, T_CLI_STATUS, T_CTX_STATUS, T_EPI_AGG, T_EPI_OPEN, T_MP_STATUS, T_STAMP_RX,
    T_WGRP_CNT, T_WGRP_STATUS], parts := [.clis, .ctxs, .epi, .events, .logHeld, .logQ, .points, .slotQ, .vecs, .wgrps] }
/-- What `enterMode` may change. -/
def footEnterMode : Foot :=
  { regs := [BOX_NOTE_LOST, ETH_REPL, ETH_STATUS_aligned, ETH_STATUS_leg, ETH_STATUS_replacing, FYL_STATUS_test_refused,
    FYT_STATUS_active, FYT_STATUS_covering, FYT_STATUS_no_cover, FYT_STATUS_working, LLN_ADAPT_STATUS_trial_active,
    LLN_ADAPT_STATUS_waiting, LLN_RX_EQ_ctle, LLN_RX_EQ_dfe, LLN_RX_EQ_mlse, LLN_RX_EQ_phase, LLN_STATUS_lb_active,
    LLN_STATUS_prbs_lock, LLN_STATUS_test_refused, LOG_STATUS_coalescing, LOG_STATUS_queue, MODE_current, PRT_NOTE_LOST_lost] ++
    ((List.range 5).map LLN_TRIAL_CNT_count), tabs := [T_APS_CNT, T_APS_RX, T_ISL_GRP_CNT, T_ISL_GRP_STATUS, T_SEL_GRP_CNT,
    T_SEL_GRP_STATUS, T_SFP_REC], parts := [.clis, .events, .fyls, .grps, .lanes, .logHeld, .logQ, .notices, .prbs,
    .sfpOverwrite, .vecs] }
/-- What `busEvent` may change. -/
def footBusEvent : Foot :=
  { regs := ((List.range 8).map BXM_ERR_CNT), parts := [.events, .slots, .vecs] }
/-- What `chAdopt` may change. -/
def footChAdopt : Foot :=
  { regs := [OHQ_CMD_STATUS_code] ++ ((List.range 16).map OHQ_READY_ready), tabs := [T_CAP_CNT, T_CAP_STATUS, T_INS_CNT,
    T_INS_STATUS], parts := [.caps, .events, .inss, .vecs] }
/-- What `coreStop` may change. -/
def footCoreStop : Foot :=
  { regs := [FLT_STATUS_fault_n, HST_LINK_up, LOG_GHOST_INFO_cause, LOG_GHOST_INFO_valid, LOG_GHOST_UNREC, LOG_HEAD_seq], tabs
    := [T_LOG_GHOST], parts := [.col, .dom, .events, .vecs] }
/-- What `endTrial` may change. -/
def footEndTrial : Foot :=
  { regs := [LLN_ADAPT_STATUS_trial_active, LLN_ADAPT_STATUS_waiting, LLN_RX_EQ_ctle, LLN_RX_EQ_dfe, LLN_RX_EQ_mlse,
    LLN_RX_EQ_phase] ++ ((List.range 5).map LLN_TRIAL_CNT_count) }
/-- What `prtIssue` may change. -/
def footPrtIssue : Foot :=
  { regs := [PRT_CMD_STATUS_code, PRT_CMD_STATUS_pending], parts := [.events, .prtQ, .vecs] }
/-- What `modeEnd` may change. -/
def footModeEnd : Foot :=
  { regs := [ MODE_CMD_STATUS_code, MODE_CMD_STATUS_op], parts := [.events, .modeCmd, .vecs] }
/-- What `power` may change. -/
def footPower : Foot :=
  { parts := [.events, .slots, .vecs] }
/-- What `ownReq` may change. -/
def footOwnReq : Foot :=
  { regs := [BXM_REQ_STATUS_code, BXM_REQ_STATUS_pending, PAGE_OWNER_box] ++ ((List.range 16).map BOX_WIN_count_m1) ++
    ((List.range 16).map BOX_WIN_en) ++ ((List.range 16).map BOX_WIN_slot) ++ ((List.range 16).map BOX_WIN_tpage), tabs :=
    [T_OWN], parts := [.digDue, .events, .hst, .reqQ, .vecs] }
/-- What `logRec` may change. -/
def footLogRec : Foot :=
  { regs := [LOG_STATUS_coalescing, LOG_STATUS_queue], parts := [.events, .logHeld, .logQ, .vecs] }
/-- What `mbRespond` may change. -/
def footMbRespond : Foot :=
  { regs := [FWM_RSP_word 0, FWM_RSP_word 1, FWM_RSP_word 2, FWM_MB_STATUS_busy_refused, FWM_MB_STATUS_state] ++
    ((List.range 128).map FWM_RSP_word), parts := [.events, .hst, .mbWho, .vecs] }
/-- What `linkGated` may change. -/
def footLinkGated : Foot :=
  { regs := [FYL_SKEW_valid, FYL_STATUS_aligned, FYL_STATUS_covered, FYL_STATUS_failed, FYL_STATUS_lane_lock, FYL_STATUS_sync,
    FYT_DROP_dropped, FYT_STATUS_active, FYT_STATUS_covering, FYT_STATUS_no_cover, FYT_STATUS_working], tabs := [T_TXF_CNT],
    parts := [.coverAt, .covers, .events, .fyls, .slots, .vecs] }
/-- What `cueJudge` may change. -/
def footCueJudge : Foot :=
  { regs := [BOX_CUE_INDEX_index, BOX_CUE_INDEX_table, BOX_CUE_STATUS_code, BOX_CUE_STATUS_state, BOX_CUE_WHERE_block,
    BOX_CUE_WHERE_instance, BOX_CUE_WHERE_region, BOX_CUE_WHERE_typ], parts := [.cues, .events, .vecs] }
/-- What `setFop` may change. -/
def footSetFop : Foot :=
  { regs := [BOX_NOTE_LOST, PRT_NOTE_LOST_lost], tabs := [T_APS_CNT, T_APS_RX], parts := [.events, .notices, .vecs] }
/-- What `showRegion` may change. -/
def footShowRegion : Foot :=
  { regs := [FYT_STATUS_active, FYT_STATUS_covering, FYT_STATUS_no_cover, FYT_STATUS_working, ISL_USED_groups, OHQ_MEM_units,
    RGN_POOL_egress, RGN_POOL_ingress, SEL_USED_bridges, SEL_USED_groups] }
/-- What `sdpStat` may change. -/
def footSdpStat : Foot :=
  { regs := [SDP_STAT_HALF_half], tabs := [T_SDP_STAT], parts := [.door, .events, .vecs] }
/-- What `stackFail` may change. -/
def footStackFail : Foot :=
  { regs := [HBM_STATUS_state], parts := [.events, .fallQ, .hbm, .slots, .vecs] }
/-- What `refreshOtuc` may change. -/
def footRefreshOtuc : Foot :=
  { regs := [OTU_STATUS_ssd, OTU_STATUS_ssf], parts := [.events, .points, .vecs] }
/-- What `holdSlice` may change. -/
def footHoldSlice : Foot :=
  { regs := [OTU_OOF_CNT, OTU_STATUS_bonded, OTU_STATUS_fstate, OTU_STATUS_im, OTU_STATUS_in_frame], parts := [.events, .points,
    .slices, .vecs] }
/-- What `showBlock` may change. -/
def footShowBlock : Foot :=
  { regs := [DMP_USED_used, MAP_USED_used, MPT_SHP_USED_used, ODI_POOL_parents, ODI_POOL_used, OTU_STATUS_member,
    OTU_STATUS_position] }

/-! ### The commands -/

/-- REGISTER_WRITE -/
def Foot.registerWrite : Foot := { anyReg := true, anyTab := true, parts := Part.all }
/-- PAGE_CTRL_WRITE -/
def Foot.pageCtrlWrite : Foot :=
  .join [footCtxTick, footRestoreLink, footRefreshEth, footLaneStop, footBusEvent, footLinkGated,
    { regs := [FYL_STATUS_sig_det, LLN_STATUS_sig_det, LLN_STATUS_swap_conflict, OTU_LOF_INT_dp_cycles, PAGE_CTRL_force_safe,
      PAGE_CTRL_run, SDP_STATUS_cfg_err, SDP_STATUS_link] ++ (sliceDefects.map (fun x => x.1)), parts := [.sdpRows, .sdpSpeed]
      }]
/-- PAGE_OWNER_WRITE -/
def Foot.pageOwnerWrite : Foot := .join [footBusEvent, { regs := [PAGE_OWNER_box], parts := [.digDue, .hst] }]
/-- EVT_STATUS_READ -/
def Foot.evtStatusRead : Foot := { regs := [EVT_SEQ_seq] ++ ((List.range 8).map BXM_ERR_CNT), parts := [.slots] }
/-- EVT_ACK_WRITE -/
def Foot.evtAckWrite : Foot := footBusEvent
/-- EVT_FORCE_WRITE -/
def Foot.evtForceWrite : Foot := footBusEvent
/-- VOTE_SCRUB -/
def Foot.voteScrub : Foot :=
  .join [footPower,
    { anyReg := true, anyTab := true, parts := [.clis, .fyls, .lanes, .logHeld, .logQ, .modeCmd, .prbs, .txFlows] }]
/-- LO_READ -/
def Foot.loRead : Foot :=
  .join [footPower,
    { anyReg := true, anyTab := true, parts := [.caps, .cbbCur, .cbbRx, .clis, .fyls, .inss, .lanes, .logHeld, .logQ, .modeCmd,
      .notices, .prbs, .sdpCur, .sdpRx0, .sdpRx1, .tsLog, .txFlows] }]
/-- LO_WRITE -/
def Foot.loWrite : Foot := { anyReg := true, anyTab := true, parts := Part.all }
/-- HI_WRITE -/
def Foot.hiWrite : Foot := { anyReg := true, anyTab := true, parts := Part.all }
/-- IND_ADDR_WRITE -/
def Foot.indAddrWrite : Foot :=
  .join [footBusEvent,
    { regs := [BOX_PX_STATUS_row_owner, IND_ADDR_index, IND_ADDR_table] ++ ((List.range 4).map IND_DATA_data), anyTab := true }]
/-- IND_DATA3_WRITE -/
def Foot.indData3Write : Foot :=
  .join [footBusEvent,
    { regs := [IND_DATA_data 3, BOX_PX_STATUS_row_owner, IND_ADDR_index], anyTab := true, parts := [.digDue, .dirty, .hst,
      .staged] }]
/-- IND_DATA3_READ -/
def Foot.indData3Read : Foot :=
  .join [footBusEvent,
    { regs := [BOX_PX_STATUS_row_owner, IND_ADDR_index] ++ ((List.range 4).map IND_DATA_data), anyTab := true }]
/-- CUE_GO -/
def Foot.cueGo : Foot := .join [footBusEvent, footCueJudge, { parts := [.cueTurn] }]
/-- CUE_REVERT -/
def Foot.cueRevert : Foot := .join [footBusEvent, { anyTab := true, parts := [.dirty, .staged] }]
/-- CUE_IMAGE_CRC -/
def Foot.cueImageCrc : Foot :=
  .join [footCueJudge,
    { regs := [CHK_ALIVE_NEXT_next, CHK_GAP_MSGS, CHK_MISMATCH, CHK_REPEAT, CHK_RESULT_res, CHK_RUNS, CHK_STATUS_alive,
      CHK_STATUS_alive_valid, CHK_STATUS_compared, CHK_STATUS_holder, CHK_STATUS_match, CHK_STATUS_open], parts := [.chks] }]
/-- CUE_CHECK_END -/
def Foot.cueCheckEnd : Foot :=
  .join [footCueJudge, footShowRegion, footShowBlock,
    { regs := [BOX_CUE_GEN_gen, HBM_LOAD_gbps, HBM_LOAD_mib, HBM_STATUS_groups], anyTab := true, parts := [.devGen, .digDue,
      .dirty] }]
/-- CUE_ROW_ADOPT -/
def Foot.cueRowAdopt : Foot :=
  .join [footCtxTick, footEvalNow, footLaneStop, footWgEnter, footChAdopt,
    { regs := [BOX_CUE_STATUS_state, ETH_ERR_BLOCKS, ETH_IDLE_INS, ETH_OFFSET_offset, ETH_STATUS_tx_lf, FYL_STATUS_covered,
      FYL_STATUS_failed, FYL_STATUS_test_refused, FYT_STATUS_active, FYT_STATUS_covering, FYT_STATUS_no_cover,
      FYT_STATUS_working, LLN_STATUS_lb_active, LLN_STATUS_test_refused, OTU_LOF_INT_dp_cycles, OTU_STATUS_dlof,
      OTU_STATUS_dlom, OTU_STATUS_dlom_cn, OTU_STATUS_dtim, OTU_STATUS_member, OTU_STATUS_position, PRT_CUE_GEN_gen,
      RGN_CUE_GEN_COM_gen, WNG_CUE_GEN_gen] ++ (sliceDefects.map (fun x => x.1)) ++ ((List.range 8).map RGN_CUE_GEN_gen), tabs
      := [T_BRG_STATUS, T_MP_TTI_ACC, T_RXF_STATUS, T_WFAIL], parts := [.apss, .brgStamp, .covers, .cues, .flowOuts, .freeCtr,
      .fyls, .gmps, .hbm, .live, .mem, .txFlows] }]
/-- BLOCK_RESTART -/
def Foot.blockRestart : Foot :=
  .join [footPower,
    { anyReg := true, tabs := [T_CLI_CNT, T_CLI_STATUS, T_CTX_STATUS, T_EPI_AGG, T_EPI_OPEN, T_MP_STATUS, T_MP_TTI_ACC,
      T_OTU_TTI_ACC, T_STAMP_RX], parts := [.blk, .clis, .ctxs, .dirty, .epi, .freeCtr, .gmps, .live, .logHeld, .logQ, .points,
      .slices, .staged] }]
/-- BLOCK_RESTART_RELEASE -/
def Foot.blockRestartRelease : Foot := .join [footCtxTick, footRefreshOtuc, { parts := [.blk] }]
/-- BLOCK_RESTART_TIMEOUT -/
def Foot.blockRestartTimeout : Foot := .join [footCtxTick, footRefreshOtuc, { parts := [.blk] }]
/-- ADAPTATION_DONE -/
def Foot.adaptationDone : Foot :=
  .join [footRestoreLink, footModeEnd,
    { regs := [LLN_RX_EQ_ctle, LLN_RX_EQ_dfe, LLN_RX_EQ_mlse, LLN_RX_EQ_phase, LLN_STATUS_trained], parts := [.freeCtr, .lanes,
      .upd] }]
/-- LLN_TX_FIR_WRITE -/
def Foot.llnTxFirWrite : Foot :=
  { regs := [LLN_STATUS_fir_refused, LLN_TX_FIR1_c_p1, LLN_TX_FIR1_c_p2, LLN_TX_FIR1_swing], parts := [.lanes] }
/-- LLN_RX_EQ_WRITE -/
def Foot.llnRxEqWrite : Foot :=
  { regs := [LLN_RX_EQ_ctle, LLN_RX_EQ_dfe, LLN_RX_EQ_mlse, LLN_RX_EQ_phase], parts := [.freeCtr] }
/-- TRIAL_START -/
def Foot.trialStart : Foot :=
  { regs := [LLN_TRIAL_CNT_count 0, LLN_ADAPT_STATUS_kind, LLN_ADAPT_STATUS_trial_active, LLN_ADAPT_STATUS_waiting,
    LLN_RX_EQ_ctle, LLN_RX_EQ_dfe, LLN_RX_EQ_mlse, LLN_RX_EQ_phase], parts := [.blk, .freeCtr, .lanes] }
/-- TRIAL_DWELL_END -/
def Foot.trialDwellEnd : Foot := footEndTrial
/-- CODEWORD_DECODE -/
def Foot.codewordDecode : Foot :=
  .join [footCtxTick, footRefreshEth, footEndTrial,
    { regs := [FEC_BURSTS, FEC_CORR_CW, FEC_CORR_SYM, FEC_CW, FEC_TRIAL_SYM, FEC_TRIAL_UNCORR, FEC_UNCORR_CW,
      LLN_ADAPT_STATUS_margin, TIM_TS_LOST] ++ ((List.range 16).map FEC_HIST), parts := [.freeCtr, .lanes, .tsLog] }]
/-- FEC_SNAP -/
def Foot.fecSnap : Foot := { regs := [FEC_SNAP_SEQ_seq] ++ fecCounters }
/-- LOS -/
def Foot.los : Foot :=
  .join [footCtxTick, footRestoreLink, footRefreshEth, footEndTrial,
    { regs := [FYL_STATUS_sig_det, LLN_STATUS_sig_det], parts := [.coverAt, .slots] }]
/-- SIGNAL_DETECT -/
def Foot.signalDetect : Foot := { regs := [FYL_STATUS_sig_det, LLN_STATUS_sig_det] }
/-- CDR_UNLOCK -/
def Foot.cdrUnlock : Foot := .join [footEndTrial, { regs := [LLN_STATUS_cdr_lock], parts := [.events, .vecs] }]
/-- CW_LOCK -/
def Foot.cwLock : Foot :=
  .join [footRefreshEth,
    { regs := [LLN_ADAPT_STATUS_margin, LLN_ADAPT_STATUS_waiting, LLN_SKEW_valid, LLN_STATUS_cw_lock], parts := [.lanes] }]
/-- CW_UNLOCK -/
def Foot.cwUnlock : Foot :=
  .join [footCtxTick, footRefreshEth, footEndTrial, footRefreshOtuc, footHoldSlice,
    { regs := [LLN_ADAPT_STATUS_margin, LLN_STATUS_cw_lock, OTU_STATUS_flexo_lock], parts := [.lanes] }]
/-- DESKEW_MEASURE -/
def Foot.deskewMeasure : Foot :=
  .join [footCtxTick, footRefreshEth, footRefreshOtuc, footHoldSlice,
    { regs := [LLN_SKEW_lag, LLN_SKEW_valid], parts := [.lanes] }]
/-- PRBS_LOCK -/
def Foot.prbsLock : Foot :=
  { regs := [LLN_PRBS_ERR_errors, LLN_STATUS_prbs_lock] ++ ((List.range 8).map FYL_PRBS_ERR), parts := [.events, .fyls, .prbs,
    .vecs] }
/-- PRBS_LOCK_LOST -/
def Foot.prbsLockLost : Foot :=
  { regs := [LLN_PRBS_ERR_errors, LLN_STATUS_prbs_lock] ++ ((List.range 8).map FYL_PRBS_ERR), parts := [.events, .fyls, .prbs,
    .vecs] }
/-- PRBS_INJECT -/
def Foot.prbsInject : Foot := { parts := [.lanes, .prbs] }
/-- FLEXO_FRAME -/
def Foot.flexoFrame : Foot :=
  .join [footCtxTick, footRefreshOtuc, footHoldSlice,
    { regs := [OTU_STATUS_dgidm, OTU_STATUS_dpmm, OTU_STATUS_drpf, OTU_STATUS_flexo_lock], parts := [.lanes] }]
/-- OTUC_FRAME -/
def Foot.otucFrame : Foot :=
  .join [footCtxTick, footRefreshOtuc, footHoldSlice,
    { regs := [OHQ_LOST, OHQ_MISROUTE, OTU_BEI_BITS, OTU_BEI_BLK, OTU_BIP_BITS, OTU_BIP_BLK, OTU_FAS_ERR, OTU_MFAS_ERR,
      OTU_STATUS_dbdi, OTU_STATUS_dbiae, OTU_STATUS_diae, OTU_STATUS_dtim] ++ ((List.range 16).map OHQ_READY_ready), tabs :=
      [T_CAP_CNT, T_CAP_STATUS, T_OTU_TTI_ACC], parts := [.caps] }]
/-- LOF_ON -/
def Foot.lofOn : Foot :=
  .join [footCtxTick, footRefreshOtuc,
    { regs := [OTU_LOF_INT_dp_cycles, OTU_STATUS_dlof], parts := [.slices] }]
/-- LOF_OFF -/
def Foot.lofOff : Foot :=
  .join [footCtxTick, footRefreshOtuc,
    { regs := [OTU_LOF_INT_dp_cycles, OTU_STATUS_dlof], parts := [.slices] }]
/-- LOM_ON -/
def Foot.lomOn : Foot := .join [footCtxTick, footRefreshOtuc, { regs := [OTU_STATUS_dlom], parts := [.slices] }]
/-- LOM_OFF -/
def Foot.lomOff : Foot := .join [footCtxTick, footRefreshOtuc, { regs := [OTU_STATUS_dlom], parts := [.slices] }]
/-- DLOM_CN_ON -/
def Foot.dlomCnOn : Foot := .join [footCtxTick, footRefreshOtuc, { regs := [OTU_STATUS_dlom_cn], parts := [.slices] }]
/-- DLOM_CN_OFF -/
def Foot.dlomCnOff : Foot := .join [footCtxTick, footRefreshOtuc, { regs := [OTU_STATUS_dlom_cn], parts := [.slices] }]
/-- BOND_ENTER -/
def Foot.bondEnter : Foot := .join [footCtxTick, footRefreshOtuc, { regs := [OTU_STATUS_bonded], parts := [.slices] }]
/-- OTUC_TX_FRAME -/
def Foot.otucTxFrame : Foot :=
  .join [footChAdopt,
    { regs := [OTU_BEI_CLIP], parts := [.lanes, .points, .prbs, .slices, .slots] }]
/-- CORRUPT_FAS -/
def Foot.corruptFas : Foot := { parts := [.slices] }
/-- ODU_FRAME_SINK -/
def Foot.oduFrameSink : Foot :=
  .join [footCtxTick, footRefreshEth, footSetFop,
    { regs := [ETH_STATUS_clf, ETH_STATUS_clos, ETH_STATUS_crate, ETH_STATUS_crf, OHQ_LOST] ++
      ((List.range 16).map OHQ_READY_ready), tabs := [T_CAP_CNT, T_CAP_STATUS, T_MP_TTI_ACC], parts := [.apss, .caps, .freeCtr]
      }]
/-- DLOFLOM_ON -/
def Foot.dloflomOn : Foot := footCtxTick
/-- DLOFLOM_OFF -/
def Foot.dloflomOff : Foot := footCtxTick
/-- ODU_FRAME_SOURCE -/
def Foot.oduFrameSource : Foot :=
  .join [footCtxTick, footRefreshEth, footChAdopt,
    { regs := [ETH_STATUS_clf, ETH_STATUS_clos, ETH_STATUS_crate, ETH_STATUS_crf], tabs := [T_APS_CNT, T_MP_TTI_ACC], parts :=
      [.apss, .brgStamp, .freeCtr, .slots] }]
/-- CONTEXT_FORCED_AIS -/
def Foot.contextForcedAis : Foot := .join [footCtxTick, { parts := [.slots] }]
/-- SECOND_BOUNDARY -/
def Foot.secondBoundary : Foot :=
  .join [footCtxTick, footRefreshOtuc,
    { regs := [OTU_STATUS_ddeg, TIM_STATUS_time_set, TIM_STEPS, WNG_PMS_STATUS_overrun], tabs := [T_ISL_GRP_STATUS,
      T_SEL_GRP_STATUS], parts := [.freeCtr, .pmPend, .pps, .ppsOutLast, .secCount, .tb, .tbStepped, .tim] }]
/-- PM_SECOND -/
def Foot.pmSecond : Foot :=
  { regs := [WNG_PMS_LAST_sec], parts := [.events, .mem, .pmBase, .pmBins, .pmLastBin, .pmMissing, .pmPend, .tca, .vecs] }
/-- EPISODE_CHANGE -/
def Foot.episodeChange : Foot :=
  .join [footLogRec,
    { regs := [EPI_AGG_ENTRIES_count, EPI_NEXT_ID_id, EPI_OCC_occupancy, EPI_STATUS_aggregated, EPI_STATUS_tracked], tabs :=
      [T_EPI_AGG, T_EPI_OPEN], parts := [.epi] }]
/-- AGGREGATED_OFF -/
def Foot.aggregatedOff : Foot :=
  .join [footLogRec,
    { regs := [EPI_NEXT_ID_id, EPI_OCC_occupancy, EPI_STATUS_aggregated, EPI_STATUS_tracked], tabs := [T_EPI_AGG, T_EPI_OPEN],
      parts := [.epi] }]
/-- GMP_MAP_PERIOD -/
def Foot.gmpMapPeriod : Foot :=
  .join [footCtxTick, footRefreshEth,
    { regs := [ETH_STATUS_clf, ETH_STATUS_clos, ETH_STATUS_crate, ETH_STATUS_crf], parts := [.freeCtr, .gmps] }]
/-- GMP_DEMAP_PERIOD -/
def Foot.gmpDemapPeriod : Foot :=
  .join [footCtxTick, footRefreshEth,
    { regs := [ETH_STATUS_clf, ETH_STATUS_clos, ETH_STATUS_crate, ETH_STATUS_crf], tabs := [T_DMX_CNT], parts := [.freeCtr,
      .gmps] }]
/-- AMP_JUSTIFY -/
def Foot.ampJustify : Foot := { tabs := [T_CLI_STATUS], parts := [.clis, .freeCtr, .gmps] }
/-- AMP_DEMUX_PERIOD -/
def Foot.ampDemuxPeriod : Foot := { tabs := [T_DMX_CNT], parts := [.freeCtr, .gmps] }
/-- IMP_BLOCK -/
def Foot.impBlock : Foot :=
  .join [footCtxTick, footRefreshEth,
    { regs := [ETH_IDLE_DEL, ETH_IDLE_INS, ETH_PKT_DROP, ETH_STATUS_clf, ETH_STATUS_clos, ETH_STATUS_crate, ETH_STATUS_crf,
      ETH_STATUS_tx_lf, TIM_TS_LOST], parts := [.lanes, .prbs, .tsLog] }]
/-- CRATE_OFF -/
def Foot.crateOff : Foot :=
  .join [footCtxTick, footRefreshEth,
    { regs := [ETH_STATUS_clf, ETH_STATUS_clos, ETH_STATUS_crate, ETH_STATUS_crf] }]
/-- RATE_HOLD -/
def Foot.rateHold : Foot := { tabs := [T_CLI_STATUS], parts := [.clis, .events, .vecs] }
/-- RATE_HOLD_END -/
def Foot.rateHoldEnd : Foot := { tabs := [T_CLI_STATUS] }
/-- CLOS_ON -/
def Foot.closOn : Foot :=
  .join [footCtxTick, footRefreshEth,
    { regs := [ETH_STATUS_clf, ETH_STATUS_clos, ETH_STATUS_crate, ETH_STATUS_crf] }]
/-- CLOS_OFF -/
def Foot.closOff : Foot :=
  .join [footCtxTick, footRefreshEth,
    { regs := [ETH_STATUS_clf, ETH_STATUS_clos, ETH_STATUS_crate, ETH_STATUS_crf] }]
/-- CLF_CHANGE -/
def Foot.clfChange : Foot :=
  .join [footCtxTick, footRefreshEth,
    { regs := [ETH_STATUS_clf, ETH_STATUS_clos, ETH_STATUS_crate, ETH_STATUS_crf] }]
/-- CRF_CHANGE -/
def Foot.crfChange : Foot :=
  .join [footCtxTick, footRefreshEth,
    { regs := [ETH_STATUS_clf, ETH_STATUS_clos, ETH_STATUS_crate, ETH_STATUS_crf] }]
/-- SUSPECT_HOLD_END -/
def Foot.suspectHoldEnd : Foot := .join [footCtxTick, footRefreshEth]
/-- LEG_STATUS_CHANGE -/
def Foot.legStatusChange : Foot := .join [footCtxTick, footEvalNow, footPrtIssue]
/-- HOLD_OFF_EXPIRY -/
def Foot.holdOffExpiry : Foot := .join [footCtxTick, footEvalNow, footPrtIssue]
/-- WTR_EXPIRY -/
def Foot.wtrExpiry : Foot := .join [footCtxTick, footEvalNow, footPrtIssue]
/-- CONFIRMATION_EXPIRY -/
def Foot.confirmationExpiry : Foot := .join [footCtxTick, footEvalNow, footPrtIssue]
/-- BRIDGE_CHANGE_APPLY -/
def Foot.bridgeChangeApply : Foot := { tabs := [T_BRG_STATUS], parts := [.events, .vecs] }
/-- CLR -/
def Foot.clr : Foot := .join [footCtxTick, footEvalNow, footBusEvent, footPrtIssue]
/-- LO -/
def Foot.lo : Foot := .join [footCtxTick, footEvalNow, footBusEvent, footPrtIssue]
/-- FS -/
def Foot.fs : Foot := .join [footCtxTick, footEvalNow, footBusEvent, footPrtIssue]
/-- MS -/
def Foot.ms : Foot := .join [footCtxTick, footEvalNow, footBusEvent, footPrtIssue]
/-- MS_W -/
def Foot.msW : Foot := .join [footCtxTick, footEvalNow, footBusEvent, footPrtIssue]
/-- EXER -/
def Foot.exer : Foot := .join [footCtxTick, footEvalNow, footBusEvent, footPrtIssue]
/-- SET_SEL -/
def Foot.setSel : Foot := .join [footCtxTick, footEvalNow, footBusEvent, footPrtIssue]
/-- SET_BRIDGE -/
def Foot.setBridge : Foot := .join [footCtxTick, footEvalNow, footBusEvent, footPrtIssue]
/-- SET_APS -/
def Foot.setAps : Foot := .join [footCtxTick, footEvalNow, footBusEvent, footPrtIssue]
/-- SET_ALL -/
def Foot.setAll : Foot := .join [footCtxTick, footEvalNow, footBusEvent, footPrtIssue]
/-- ACK_SFP -/
def Foot.ackSfp : Foot := .join [footCtxTick, footEvalNow, footBusEvent, footPrtIssue]
/-- PRT_NOTE_READ -/
def Foot.prtNoteRead : Foot :=
  { regs := ((List.range 8).map BXM_ERR_CNT) ++ ((List.range 256).map (fun k => shadowF (4 * k))), parts := [.notices, .slots] }
/-- APS_MESSAGE_RECEIVE -/
def Foot.apsMessageReceive : Foot := .join [footSetFop, { parts := [.apss, .freeCtr] }]
/-- APS_AGE_SCAN -/
def Foot.apsAgeScan : Foot := .join [footSetFop, { parts := [.apss] }]
/-- DFOP_NR -/
def Foot.dfopNr : Foot := footSetFop
/-- STAMP_INSTANCE -/
def Foot.stampInstance : Foot := { tabs := [T_STAMP_RX], parts := [.ctxs, .events, .vecs] }
/-- WINGS_GROUP_START -/
def Foot.wingsGroupStart : Foot :=
  .join [footCtxTick, footRefreshEth, footWgEnter,
    { tabs := [T_WFAIL], parts := [.freeCtr] }]
/-- PLAYOUT_ADVANCE -/
def Foot.playoutAdvance : Foot :=
  .join [footCtxTick, footRefreshEth, footWgEnter,
    { regs := [HBM_CE, HBM_UE, WNG_TRACK_HELD_held, WNG_TRACK_now, WNG_TRACK_peak], tabs := [T_WFAIL], parts := [.freeCtr, .hbm,
      .mem, .slots] }]
/-- SLOT_GRANT -/
def Foot.slotGrant : Foot := .join [footCtxTick, footRefreshEth, footWgEnter]
/-- OVER_RECOVER -/
def Foot.overRecover : Foot := .join [footCtxTick, footRefreshEth, footWgEnter]
/-- HBM_RETRAIN_PC -/
def Foot.hbmRetrainPc : Foot := { regs := [HBM_RETRAIN_LATE, HBM_STATUS_retrain_pc], parts := [.events, .nextPc, .vecs] }
/-- STACK_FAIL -/
def Foot.stackFail : Foot := .join [footPower, footStackFail]
/-- GROUP_FALLBACK -/
def Foot.groupFallback : Foot := .join [footCtxTick, footRefreshEth, footWgEnter, { tabs := [T_WFAIL], parts := [.fallQ] }]
/-- HBM_RESTORE -/
def Foot.hbmRestore : Foot :=
  .join [footCtxTick, footRefreshEth, footWgEnter,
    { regs := [HBM_STATUS_state, MODE_STACKS_retrained] }]
/-- ACK_FAIL -/
def Foot.ackFail : Foot := { tabs := [T_WFAIL], parts := [.wgrps] }
/-- FYBRY_ADAPTATION_DONE -/
def Foot.fybryAdaptationDone : Foot := .join [footRestoreLink, footModeEnd, { parts := [.freeCtr, .upd] }]
/-- FYL_TX_EQ_WRITE -/
def Foot.fylTxEqWrite : Foot :=
  { regs := [FYL_STATUS_fir_refused] ++ ((List.range 8).map FYL_TX_EQ_c_m1) ++ ((List.range 8).map FYL_TX_EQ_c_p1) ++
    ((List.range 8).map FYL_TX_EQ_swing) ++ ((List.range 8).map FYL_TX_EQ_tx_inv), parts := [.fyls] }
/-- MARKER_LOCK -/
def Foot.markerLock : Foot :=
  .join [footRestoreLink, footModeEnd, footLinkGated,
    { regs := [FYL_CREDIT_avail0, FYL_CREDIT_avail1, FYL_PEER_LIMIT_limit0, FYL_PEER_LIMIT_limit1, FYL_SKEW_skew,
      FYL_STATUS_credits_valid, FYL_STATUS_id_mismatch, FYL_STATUS_peer_lstate], parts := [.upd] }]
/-- MARKER_LOCK_LOST -/
def Foot.markerLockLost : Foot := .join [footRestoreLink, footLinkGated]
/-- SEGMENT_RECEIVE -/
def Foot.segmentReceive : Foot :=
  .join [footCtxTick, footRestoreLink, footRefreshEth, footWgEnter,
    { regs := [FYL_CREDIT_avail0, FYL_CREDIT_avail1, FYL_HDR_CRC, FYL_HUNT, FYL_PEER_LIMIT_limit0, FYL_PEER_LIMIT_limit1,
      FYL_RX_SEG, FYL_STATUS_credits_valid, FYL_STATUS_id_mismatch, FYL_STATUS_peer_fail, FYL_STATUS_peer_lstate,
      FYL_STATUS_sync, FYL_TYPE_ERR, FYR_LAST_UNKNOWN_flow, FYR_LAST_UNKNOWN_link, FYR_UNKNOWN_count, HBM_WBUF_DROP,
      WNG_TRACK_HELD_held, WNG_TRACK_now, WNG_TRACK_peak], tabs := [T_RXF_CNT, T_RXF_STATUS], parts := [.coverAt, .flowOuts,
      .hbm, .mem, .slots] }]
/-- SEGMENT_SLOT -/
def Foot.segmentSlot : Foot :=
  .join [footCtxTick, footRestoreLink, footRefreshEth, footWgEnter,
    { regs := [FYL_CREDIT_avail0, FYL_CREDIT_avail1, FYL_HDR_CRC, FYL_HUNT, FYL_PEER_LIMIT_limit0, FYL_PEER_LIMIT_limit1,
      FYL_RX_SEG, FYL_STATUS_credits_valid, FYL_STATUS_id_mismatch, FYL_STATUS_peer_fail, FYL_STATUS_peer_lstate,
      FYL_STATUS_sync, FYL_TX_SEG, FYL_TYPE_ERR, FYR_LAST_UNKNOWN_flow, FYR_LAST_UNKNOWN_link, FYR_UNKNOWN_count, HBM_WBUF_DROP,
      WNG_TRACK_HELD_held, WNG_TRACK_now, WNG_TRACK_peak], tabs := [T_RXF_CNT, T_RXF_STATUS], parts := [.coverAt, .flowOuts,
      .freeCtr, .hbm, .mem, .prbs, .rxFailTurn, .slots] }]
/-- SEGMENT_COMPLETE -/
def Foot.segmentComplete : Foot :=
  .join [footCtxTick, footRefreshEth,
    { regs := [ETH_ERR_BLOCKS, ETH_OFFSET_offset, ETH_STATUS_clf, ETH_STATUS_clos, ETH_STATUS_crate, ETH_STATUS_crf,
      FYT_DROP_dropped], tabs := [T_TXF_CNT], parts := [.fyls, .txFlows] }]
/-- REORDER_TIMEOUT -/
def Foot.reorderTimeout : Foot :=
  .join [footCtxTick, footRefreshEth, footWgEnter,
    { regs := [HBM_WBUF_DROP, WNG_TRACK_HELD_held, WNG_TRACK_now, WNG_TRACK_peak], tabs := [T_RXF_CNT, T_RXF_STATUS], parts :=
      [.flowOuts, .hbm, .mem] }]
/-- FLOW_ABSENT -/
def Foot.flowAbsent : Foot := { tabs := [T_RXF_STATUS], parts := [.events, .flowOuts, .vecs] }
/-- LINK_FAIL -/
def Foot.linkFail : Foot := .join [footRestoreLink, { parts := [.coverAt, .slots] }]
/-- FYL_FAIL -/
def Foot.fylFail : Foot := .join [footRestoreLink, { parts := [.coverAt, .slots] }]
/-- FYL_RESTORE -/
def Foot.fylRestore : Foot := footRestoreLink
/-- OHQ_RD_READ -/
def Foot.ohqRdRead : Foot := .join [footBusEvent, footChAdopt]
/-- OHQ_WR_WRITE -/
def Foot.ohqWrWrite : Foot :=
  .join [footBusEvent,
    { regs := [OHQ_LOST], tabs := [T_INS_CNT, T_INS_STATUS], parts := [.inss] }]
/-- FLUSH -/
def Foot.flush : Foot := .join [footBusEvent, footChAdopt]
/-- FLUSH_APPLY -/
def Foot.flushApply : Foot := footChAdopt
/-- DROP_REST -/
def Foot.dropRest : Foot := .join [footBusEvent, footChAdopt]
/-- CHK_START -/
def Foot.chkStart : Foot :=
  { regs := [CHK_REFUSED, CHK_STATUS_holder, CHK_STATUS_open] ++ ((List.range 8).map BXM_ERR_CNT), parts := [.chks, .slots] }
/-- CHK_DATA_WRITE -/
def Foot.chkDataWrite : Foot := { regs := [CHK_REFUSED] ++ ((List.range 8).map BXM_ERR_CNT), parts := [.chks, .slots] }
/-- CHK_FINISH -/
def Foot.chkFinish : Foot :=
  .join [footBusEvent,
    { regs := [CHK_ALIVE_NEXT_next, CHK_GAP_MSGS, CHK_MISMATCH, CHK_REFUSED, CHK_REPEAT, CHK_RESULT_res, CHK_RUNS,
      CHK_STATUS_alive, CHK_STATUS_alive_valid, CHK_STATUS_compared, CHK_STATUS_holder, CHK_STATUS_match, CHK_STATUS_open],
      parts := [.chks] }]
/-- CHK_ABORT -/
def Foot.chkAbort : Foot :=
  { regs := [CHK_REFUSED, CHK_STATUS_holder, CHK_STATUS_open] ++ ((List.range 8).map BXM_ERR_CNT), parts := [.slots] }
/-- SDP_FRAME_RECEIVE -/
def Foot.sdpFrameReceive : Foot :=
  .join [footSdpStat,
    { regs := [CBB_WAKE_CAUSE_filter, CBB_WAKE_CAUSE_filter_match, CBB_WAKE_CAUSE_wake_out, SDP_STATUS_paused,
      SDP_WAKE_STATUS_dark_rx, SDP_WAKE_STATUS_matched], parts := [.sdpQuanta, .sdpRx0, .sdpRx1] }]
/-- SDP_RX_DESC_READ -/
def Foot.sdpRxDescRead : Foot :=
  { regs := [SDP_RX_TS_ns, SDP_RX_TS_quality, SDP_RX_TS_sec] ++ ((List.range 8).map BXM_ERR_CNT), parts := [.sdpCur, .sdpRx0,
    .sdpRx1, .slots] }
/-- SDP_RX_DATA_READ -/
def Foot.sdpRxDataRead : Foot := { regs := ((List.range 8).map BXM_ERR_CNT), parts := [.sdpCur, .slots] }
/-- SDP_TX_START -/
def Foot.sdpTxStart : Foot :=
  .join [footBusEvent, footSdpStat,
    { regs := [SDP_TX_STATUS_code], parts := [.sdpLast, .sdpStarts, .sdpTx, .sdpWr] }]
/-- SDP_TX_ABORT -/
def Foot.sdpTxAbort : Foot := { regs := [SDP_TX_STATUS_code] ++ ((List.range 8).map BXM_ERR_CNT), parts := [.sdpWr, .slots] }
/-- SDP_TX_DATA_WRITE -/
def Foot.sdpTxDataWrite : Foot :=
  { regs := [SDP_TX_STATUS_code] ++ ((List.range 8).map BXM_ERR_CNT), parts := [.sdpTx, .sdpWr, .slots] }
/-- SDP_TRANSMIT -/
def Foot.sdpTransmit : Foot := .join [footSdpStat, { regs := [SDP_TX_STATUS_code, TIM_TS_LOST], parts := [.sdpTx, .tsLog] }]
/-- SDP_AGE_SCAN -/
def Foot.sdpAgeScan : Foot := .join [footSdpStat, { regs := [SDP_TX_STATUS_code], parts := [.sdpTx] }]
/-- PAUSE_EXPIRY -/
def Foot.pauseExpiry : Foot := { regs := [SDP_STATUS_paused], parts := [.sdpQuanta] }
/-- PAUSE_BREAK -/
def Foot.pauseBreak : Foot :=
  .join [footSdpStat,
    { regs := [SDP_STATUS_paused, SDP_STATUS_wd_ignore], parts := [.sdpQuanta] }]
/-- SDP_STAT_HALF_READ -/
def Foot.sdpStatHalfRead : Foot :=
  { regs := [SDP_STAT_HALF_half] ++ ((List.range 8).map BXM_ERR_CNT) ++ ((List.range 256).map (fun k => shadowF (4 * k))), parts
    := [.slots] }
/-- CBB_FRAME_RECEIVE -/
def Foot.cbbFrameReceive : Foot :=
  { regs := [CBB_BUS_state, CBB_BUS_token_held, CBB_CC_STATUS_misses, CBB_CC_STATUS_offset, CBB_CC_STATUS_state,
    CBB_TX_STATUS_code, CBB_WAKE_CAUSE_cbb_wake, CBB_WAKE_CAUSE_wake_out, CBB_beacons_rx, CBB_beacons_tx, CBB_collisions,
    CBB_rx_bad, CBB_rx_frames, CBB_rx_lost, CBB_tx_frames], parts := [.cbbHeard, .cbbNext, .cbbRing, .cbbRx, .cbbSeq, .cbbTx,
    .door, .events, .vecs] }
/-- CBB_TX_SEND -/
def Foot.cbbTxSend : Foot := { regs := [CBB_TX_STATUS_code] ++ ((List.range 8).map BXM_ERR_CNT), parts := [.cbbTx, .slots] }
/-- CBB_TX_ABORT -/
def Foot.cbbTxAbort : Foot := { regs := [CBB_TX_STATUS_code] ++ ((List.range 8).map BXM_ERR_CNT), parts := [.cbbTx, .slots] }
/-- CBB_TX_TIMEOUT -/
def Foot.cbbTxTimeout : Foot := { regs := [CBB_TX_STATUS_code, CBB_tx_dropped], parts := [.cbbTx] }
/-- MASTER_LOST -/
def Foot.masterLost : Foot := { regs := [CBB_BUS_state], parts := [.events, .vecs] }
/-- TOKEN_REGEN -/
def Foot.tokenRegen : Foot :=
  { regs := [CBB_BUS_token_held, CBB_TX_STATUS_code, CBB_collisions, CBB_token_regen, CBB_tx_frames], parts := [.cbbNext,
    .cbbTx, .events, .vecs] }
/-- TOKEN_SUCCESSOR_TIMEOUT -/
def Foot.tokenSuccessorTimeout : Foot :=
  { regs := [CBB_BUS_token_held, CBB_collisions, CBB_tx_frames], parts := [.cbbNext, .cbbRing] }
/-- BEACON_SEND -/
def Foot.beaconSend : Foot := { regs := [CBB_beacons_tx, CBB_collisions, CBB_tx_frames], parts := [.cbbSeq, .door] }
/-- WINDOW_CLOSE -/
def Foot.windowClose : Foot :=
  { regs := [CBB_CC_STATUS_misses, CBB_CC_STATUS_state, CBB_misses, CBB_open_house], parts := [.cbbHeard, .door, .events, .vecs]
    }
/-- PARTNER_LOST -/
def Foot.partnerLost : Foot :=
  { regs := [CBB_CC_STATUS_state, CBB_WAKE_CAUSE_partner_lost, CBB_WAKE_CAUSE_wake_out, CBB_lost], parts := [.events, .vecs] }
/-- CBB_WAKE_ACK -/
def Foot.cbbWakeAck : Foot :=
  { regs := [CBB_WAKE_CAUSE_cbb_wake, CBB_WAKE_CAUSE_filter, CBB_WAKE_CAUSE_filter_match, CBB_WAKE_CAUSE_partner_lost,
    CBB_WAKE_CAUSE_wake_out, SDP_WAKE_STATUS_dark_rx, SDP_WAKE_STATUS_matched] }
/-- DARK_WAKE -/
def Foot.darkWake : Foot := { anyReg := true, anyTab := true, parts := Part.all }
/-- REF_LOST -/
def Foot.refLost : Foot :=
  .join [footCtxTick, footRestoreLink, footRefreshEth, footLaneStop, footCoreStop, footModeEnd, footLinkGated, footStackFail,
    { regs := [CHIP_ID_AVS_ready, CSU_REF_PPM_ppm, CSU_STATUS_gated, CSU_STATUS_locked, CSU_STATUS_margin, CSU_STATUS_ref_ok,
      CSU_ref_lost_count, LLN_STATUS_sig_det, MODE_CALL_step], parts := [.csus, .upd] }]
/-- REF_BACK -/
def Foot.refBack : Foot :=
  .join [footCtxTick, footRestoreLink, footRefreshEth, footLaneStop, footCoreStop, footModeEnd, footLinkGated, footStackFail,
    { regs := [CHIP_ID_AVS_ready, CSU_CMD_STATUS_code, CSU_REF_PPM_ppm, CSU_STATUS_band, CSU_STATUS_gated, CSU_STATUS_locked,
      CSU_STATUS_margin, CSU_STATUS_no_band, CSU_STATUS_reband_busy, CSU_STATUS_ref_ok, LLN_STATUS_sig_det, MODE_CALL_step],
      parts := [.csus, .upd] }]
/-- LOCK_LOST -/
def Foot.lockLost : Foot :=
  .join [footCtxTick, footRestoreLink, footRefreshEth, footLaneStop, footCoreStop, footModeEnd, footLinkGated, footStackFail,
    { regs := [CHIP_ID_AVS_ready, CSU_STATUS_gated, CSU_STATUS_locked, CSU_STATUS_margin, CSU_lock_lost_count,
      LLN_STATUS_sig_det, MODE_CALL_step], parts := [.upd] }]
/-- RELOCK -/
def Foot.relock : Foot :=
  .join [footRestoreLink, footModeEnd,
    { regs := [CHIP_ID_AVS_ready, CSU_STATUS_band_edge, CSU_STATUS_gated, CSU_STATUS_locked, CSU_STATUS_margin, MODE_CALL_step],
      parts := [.freeCtr, .upd] }]
/-- REBAND -/
def Foot.reband : Foot :=
  .join [footCtxTick, footRestoreLink, footRefreshEth, footLaneStop, footBusEvent, footCoreStop, footModeEnd, footLinkGated,
    footStackFail,
    { regs := [CHIP_ID_AVS_ready, CSU_CMD_STATUS_code, CSU_STATUS_band, CSU_STATUS_gated, CSU_STATUS_locked, CSU_STATUS_margin,
      CSU_STATUS_no_band, CSU_STATUS_reband_busy, LLN_STATUS_sig_det, MODE_CALL_step], parts := [.csus, .upd] }]
/-- REBAND_DONE -/
def Foot.rebandDone : Foot :=
  .join [footRestoreLink, footModeEnd,
    { regs := [CHIP_ID_AVS_ready, CSU_CMD_STATUS_code, CSU_STATUS_band_edge, CSU_STATUS_gated, CSU_STATUS_locked,
      CSU_STATUS_margin, CSU_STATUS_reband_busy, MODE_CALL_step], parts := [.csus, .freeCtr, .upd] }]
/-- BAND_EDGE -/
def Foot.bandEdge : Foot := .join [footPower, { regs := [CSU_STATUS_band_edge, CSU_STATUS_margin, CSU_band_edge_cnt_count] }]
/-- PPS_EDGE -/
def Foot.ppsEdge : Foot :=
  { regs := [TIM_FREQ_AVG_value, TIM_FREQ_value, TIM_OFFSET_value, TIM_STATUS_active, TIM_STATUS_freq_limit, TIM_STATUS_pps0_ok,
    TIM_STATUS_pps1_ok, TIM_STATUS_quality, TIM_STATUS_slewing, TIM_STATUS_time_set, TIM_STATUS_tod_ok, TIM_STEPS,
    TIM_pps_missed0, TIM_pps_missed1], parts := [.events, .freeCtr, .pps, .ppsOutLast, .tb, .tbStepped, .tim, .vecs] }
/-- PPS_LOST -/
def Foot.ppsLost : Foot :=
  { regs := [TIM_FREQ_value, TIM_STATUS_active, TIM_STATUS_pps0_ok, TIM_STATUS_pps1_ok, TIM_STATUS_quality, TIM_STATUS_slewing,
    TIM_pps_missed0, TIM_pps_missed1], parts := [.events, .pps, .tim, .vecs] }
/-- TOD_MESSAGE -/
def Foot.todMessage : Foot := { regs := [TIM_STATUS_tod_ok, TIM_tod_err], parts := [.tb, .tim] }
/-- SLEW_DONE -/
def Foot.slewDone : Foot := { regs := [TIM_STATUS_slewing], parts := [.tim] }
/-- HOLDOVER_EXPIRED -/
def Foot.holdoverExpired : Foot := { regs := [TIM_STATUS_active, TIM_STATUS_quality], parts := [.events, .tim, .vecs] }
/-- TOD_OUT_SEND -/
def Foot.todOutSend : Foot := {}
/-- TIM_NOW_READ -/
def Foot.timNowRead : Foot := { regs := [TIM_NOW 1, TIM_NOW 2] ++ ((List.range 8).map BXM_ERR_CNT), parts := [.slots] }
/-- SET_SEC -/
def Foot.setSec : Foot := { regs := [TIM_STATUS_set_refused] ++ ((List.range 8).map BXM_ERR_CNT), parts := [.slots, .tim] }
/-- TIM_TS_READ -/
def Foot.timTsRead : Foot :=
  { regs := ((List.range 8).map BXM_ERR_CNT) ++ ((List.range 4).map TIM_TS_entry), parts := [.slots, .tsLog] }
/-- HOST_LINK_DOWN -/
def Foot.hostLinkDown : Foot :=
  .join [footPower,
    { regs := [BOX_PM_STATUS_records, BOX_PM_STATUS_stale, BOX_PM_STATUS_state, CHK_STATUS_holder, HST_LINK_drops,
      HST_LINK_speed, HST_LINK_up, HST_LINK_width, PLB_STATUS_state] ++ ((List.range 4).map HST_DMA_STATUS_done) ++
      ((List.range 4).map HST_DMA_STATUS_state), parts := [.fns, .freeCtr, .msixTab, .numVfs, .plb] }]
/-- HOST_LINK_UP -/
def Foot.hostLinkUp : Foot := { regs := [HST_LINK_speed, HST_LINK_up, HST_LINK_width], parts := [.events, .vecs] }
/-- VF_FLR -/
def Foot.vfFlr : Foot := { anyReg := true, parts := [.fns, .freeCtr, .msixTab, .notices, .vecs] }
/-- HOST_REQUEST -/
def Foot.hostRequest : Foot := { anyReg := true, anyTab := true, parts := Part.all }
/-- BUS_TIMEOUT -/
def Foot.busTimeout : Foot :=
  .join [footBusEvent,
    { regs := ((List.range 8).map BXM_LATE), tabs := [T_HST_TXN], parts := [.hst] }]
/-- SET_PAGE -/
def Foot.setPage : Foot := footOwnReq
/-- SET_OBJ -/
def Foot.setObj : Foot := footOwnReq
/-- SET_WIN -/
def Foot.setWin : Foot := footOwnReq
/-- PROXY_ACCESS -/
def Foot.proxyAccess : Foot := { anyReg := true, anyTab := true, parts := Part.all }
/-- BOX_PX_PAGE_WRITE -/
def Foot.boxPxPageWrite : Foot := { anyReg := true }
/-- BOX_NOTE_READ -/
def Foot.boxNoteRead : Foot :=
  { regs := ((List.range 8).map BXM_ERR_CNT) ++ ((List.range 256).map (fun k => shadowF (4 * k))), parts := [.notices, .slots] }
/-- MSIX_SEND -/
def Foot.msixSend : Foot := { parts := [.vecs] }
/-- DMA_GO -/
def Foot.dmaGo : Foot := { regs := ((List.range 4).map HST_DMA_STATUS_done) ++ ((List.range 4).map HST_DMA_STATUS_state) }
/-- DMA_DONE -/
def Foot.dmaDone : Foot :=
  .join [footPower,
    { regs := ((List.range 4).map HST_DMA_STATUS_done) ++ ((List.range 4).map HST_DMA_STATUS_state) }]
/-- PM_COPY_GO -/
def Foot.pmCopyGo : Foot := { regs := [BOX_PM_CTRL_max_rec, BOX_PM_STATUS_records, BOX_PM_STATUS_stale, BOX_PM_STATUS_state] }
/-- PM_COPY_DONE -/
def Foot.pmCopyDone : Foot := .join [footPower, { regs := [BOX_PM_STATUS_records, BOX_PM_STATUS_stale, BOX_PM_STATUS_state] }]
/-- FWM_RING -/
def Foot.fwmRing : Foot :=
  .join [footBusEvent,
    { regs := [FWM_MB_STATUS_busy_refused, FWM_MB_STATUS_state], parts := [.hst, .mbWho] }]
/-- MAILBOX_RESPONSE -/
def Foot.mailboxResponse : Foot :=
  .join [footPersServe,
    { parts := [.challenge, .enStart, .kickAt, .mbWho, .rbSteps, .revoked, .rights, .wdogTimes] }]
/-- ATTEST -/
def Foot.attest : Foot := footTrustOp
/-- GET_CERT -/
def Foot.getCert : Foot := footTrustOp
/-- DEBUG_CHALLENGE -/
def Foot.debugChallenge : Foot := footTrustOp
/-- DEBUG_UNLOCK -/
def Foot.debugUnlock : Foot := footTrustOp
/-- COMMIT_ROLLBACK -/
def Foot.commitRollback : Foot := footTrustOp
/-- REVOKE_SLOT -/
def Foot.revokeSlot : Foot := footTrustOp
/-- UPDATE_EN -/
def Foot.updateEn : Foot := footTrustOp
/-- BOOT_INFO -/
def Foot.bootInfo : Foot := footTrustOp
/-- PUSH_START -/
def Foot.pushStart : Foot :=
  { regs := [FWM_PUSH_STATUS_reason, FWM_PUSH_STATUS_state, FWM_PUSH_STATUS_words], parts := [.push] }
/-- PUSH_DATA -/
def Foot.pushData : Foot := { regs := [FWM_PUSH_STATUS_words] ++ ((List.range 8).map BXM_ERR_CNT), parts := [.push, .slots] }
/-- PUSH_END -/
def Foot.pushEnd : Foot := { regs := [FWM_PUSH_STATUS_state] }
/-- PUSH_ABORT -/
def Foot.pushAbort : Foot := { regs := [FWM_PUSH_STATUS_state], parts := [.push] }
/-- IMAGE_VERIFIED -/
def Foot.imageVerified : Foot :=
  .join [footBankRaise,
    { tabs := [T_LOG_ENTRY, T_LOG_GHOST, T_OWN], parts := [.col, .digDue, .enStart, .fallQ, .hbm, .kickAt, .mem, .push, .reqQ,
      .slotA, .slotB, .slots, .smHeld, .smImg] }]
/-- FWM_WDOG_KICK -/
def Foot.fwmWdogKick : Foot := { regs := ((List.range 8).map BXM_ERR_CNT), parts := [.kickAt, .slots] }
/-- EN_WDOG_EXPIRY -/
def Foot.enWdogExpiry : Foot :=
  .join [footPower,
    { regs := [FWM_EN_STATUS_expiries, FWM_EN_STATUS_held0, FWM_EN_STATUS_held1, FWM_EN_STATUS_run0, FWM_EN_STATUS_run1], parts
      := [.enStart, .kickAt, .wdogTimes] }]
/-- SM_WDOG_EXPIRY -/
def Foot.smWdogExpiry : Foot := { parts := [.slots] }
/-- DEV_IDENTITY -/
def Foot.devIdentity : Foot := .join [footPersServe, { parts := [.mbWho] }]
/-- DEV_STATUS -/
def Foot.devStatus : Foot := .join [footPersServe, { parts := [.mbWho] }]
/-- DEV_RESET -/
def Foot.devReset : Foot := .join [footPersServe, { parts := [.door, .mbWho, .sdpLast, .sdpStarts, .sdpTx, .sdpWr] }]
/-- LANE_SET -/
def Foot.laneSet : Foot := .join [footPersServe, { parts := [.mbWho] }]
/-- LANE_GET -/
def Foot.laneGet : Foot := .join [footPersServe, { parts := [.mbWho] }]
/-- IF_SET -/
def Foot.ifSet : Foot := .join [footPersServe, { parts := [.mbWho] }]
/-- LOOPBACK -/
def Foot.loopback : Foot := .join [footPersServe, { parts := [.mbWho] }]
/-- CONN_ADD -/
def Foot.connAdd : Foot := .join [footPersServe, { parts := [.mbWho] }]
/-- CONN_MODIFY -/
def Foot.connModify : Foot := .join [footPersServe, { parts := [.mbWho] }]
/-- CONN_DELETE -/
def Foot.connDelete : Foot := .join [footPersServe, { parts := [.mbWho] }]
/-- CONN_GET -/
def Foot.connGet : Foot := .join [footPersServe, { parts := [.mbWho] }]
/-- PM_CURRENT -/
def Foot.pmCurrent : Foot := .join [footPersServe, { parts := [.mbWho] }]
/-- PM_HISTORY -/
def Foot.pmHistory : Foot := .join [footPersServe, { parts := [.mbWho] }]
/-- PM_THRESH -/
def Foot.pmThresh : Foot := .join [footPersServe, { parts := [.mbWho] }]
/-- PG_ADD -/
def Foot.pgAdd : Foot := .join [footPersServe, { parts := [.mbWho] }]
/-- PG_DELETE -/
def Foot.pgDelete : Foot := .join [footPersServe, { parts := [.mbWho] }]
/-- PG_COMMAND -/
def Foot.pgCommand : Foot := .join [footPersServe, { parts := [.mbWho] }]
/-- PG_STATUS -/
def Foot.pgStatus : Foot := .join [footPersServe, { parts := [.mbWho] }]
/-- OH_OPEN -/
def Foot.ohOpen : Foot := .join [footPersServe, { parts := [.mbWho] }]
/-- OH_CLOSE -/
def Foot.ohClose : Foot := .join [footPersServe, { parts := [.mbWho] }]
/-- OH_SEND -/
def Foot.ohSend : Foot := .join [footPersServe, { parts := [.mbWho] }]
/-- OH_RECEIVE -/
def Foot.ohReceive : Foot := .join [footPersServe, { parts := [.mbWho] }]
/-- ALM_LIST -/
def Foot.almList : Foot := .join [footPersServe, { parts := [.mbWho] }]
/-- ALM_MASK -/
def Foot.almMask : Foot := .join [footPersServe, { parts := [.mbWho] }]
/-- TIME_GET -/
def Foot.timeGet : Foot := .join [footPersServe, { parts := [.mbWho] }]
/-- TIME_SET -/
def Foot.timeSet : Foot := .join [footPersServe, { parts := [.mbWho] }]
/-- PERSONALITY_FRAME -/
def Foot.personalityFrame : Foot :=
  .join [footPersServe,
    { parts := [.door, .sdpBad, .sdpLast, .sdpRx1, .sdpStarts, .sdpTx, .sdpWr] }]
/-- PMBIN_STATUS -/
def Foot.pmbinStatus : Foot := .join [footMbRespond, { parts := [.freeCtr] }]
/-- PMBIN_GET -/
def Foot.pmbinGet : Foot := .join [footMbRespond, { parts := [.freeCtr] }]
/-- HOUSEKEEPING_STATUS -/
def Foot.housekeepingStatus : Foot := footMbRespond
/-- REPORT_WORD -/
def Foot.reportWord : Foot := .join [footBankRaise, { parts := [.coalKeys, .col, .skips, .slots, .smHeld] }]
/-- WIRE_BROKEN -/
def Foot.wireBroken : Foot := .join [footPower, { tabs := [T_FLT_LINK] }]
/-- REPORT_RESEND -/
def Foot.reportResend : Foot := .join [footPower, { regs := [FLT_RETRY], tabs := [T_FLT_LINK] }]
/-- FLT_AGE_SCAN -/
def Foot.fltAgeScan : Foot := .join [footBankRaise, { parts := [.coalKeys, .col, .skips, .smHeld] }]
/-- FLT_ACK -/
def Foot.fltAck : Foot := .join [footBankRaise, { parts := [.coalKeys, .col, .skips, .smHeld] }]
/-- FLT_INJECT -/
def Foot.fltInject : Foot := { regs := [FLT_INJECT_STATUS_refused], parts := [.slots] }
/-- LOG_WRITE -/
def Foot.logWrite : Foot :=
  .join [footBankRaise,
    { tabs := [T_LOG_ENTRY, T_LOG_GHOST], parts := [.coalKeys, .col, .mem, .skips, .slots, .smHeld] }]
/-- KEY_CLOSE -/
def Foot.keyClose : Foot := .join [footBankRaise, { parts := [.coalKeys, .col, .skips, .smHeld] }]
/-- BANK_FAIL -/
def Foot.bankFail : Foot := .join [footBankRaise, { tabs := [T_LOG_ENTRY, T_LOG_GHOST], parts := [.col, .mem, .slots] }]
/-- GHOST_CLEAR -/
def Foot.ghostClear : Foot :=
  { regs := [LOG_GHOST_INFO_cause, LOG_GHOST_INFO_valid, LOG_GHOST_UNREC] ++ ((List.range 8).map BXM_ERR_CNT), tabs :=
    [T_LOG_GHOST], parts := [.slots] }
/-- PLAYBILL_GO -/
def Foot.playbillGo : Foot :=
  { regs := [CHK_STATUS_holder, PLB_CRC_value, PLB_STATUS_refused, PLB_STATUS_state], parts := [.plb] }
/-- PLAYBILL_DONE -/
def Foot.playbillDone : Foot :=
  .join [footLogRec,
    { regs := [CHK_RESULT_res, CHK_RUNS, CHK_STATUS_holder, PLB_SEQ_value, PLB_STATUS_state], parts := [.plb] }]
/-- DIGEST_RECOMPUTE -/
def Foot.digestRecompute : Foot := { parts := [.digDue, .digs, .slots] }
/-- RESET_N_RELEASE -/
def Foot.resetNRelease : Foot := { regs := [CHIP_ID_STRAP_strap], parts := [.dom, .hst] }
/-- CALL_DONE -/
def Foot.callDone : Foot :=
  .join [footCtxTick, footEvalNow, footWgEnter, footEnterMode, footShowRegion, footRefreshOtuc, footShowBlock,
    { regs := [ETH_ERR_BLOCKS, ETH_IDLE_INS, ETH_OFFSET_offset, ETH_STATUS_tx_lf, FLT_STATUS_fault_n, FLT_STATUS_isolated,
      FLT_STATUS_l3_regions, FLT_STATUS_max_level, FYT_DROP_dropped, MODE_CALL_step] ++ ((List.range 8).map MODE_REGIONS_state),
      tabs := [T_BRG_STATUS, T_FLT_LINK, T_MP_TTI_ACC, T_RXF_STATUS, T_TXF_CNT, T_WFAIL], parts := [.apss, .deferredIso,
      .flowOuts, .freeCtr, .gmps, .hbm, .hst, .live, .mem, .txFlows] }]
/-- SERVICE -/
def Foot.service : Foot :=
  .join [footRefreshEth, footEnterMode, footBusEvent,
    { regs := [ MODE_CMD_STATUS_code, MODE_CMD_STATUS_op, MODE_model, MODE_service, PAGE_OWNER_box], tabs := [T_OWN], parts :=
      [.digDue, .hst] }]
/-- REHEARSE -/
def Foot.rehearse : Foot :=
  .join [footRefreshEth, footEnterMode, footBusEvent,
    { regs := [ MODE_CMD_STATUS_code, MODE_CMD_STATUS_op, MODE_service], parts := [.hst] }]
/-- AUDIT -/
def Foot.audit : Foot :=
  .join [footRefreshEth, footEnterMode, footBusEvent,
    { regs := [ MODE_CMD_STATUS_code, MODE_CMD_STATUS_op], parts := [.hst] }]
/-- ENTER_SAFE -/
def Foot.enterSafe : Foot :=
  .join [footRefreshEth, footBusEvent, footEndTrial, footModeEnd, footLogRec,
    { regs := [enRunF 0, enRunF 1, FLT_STATUS_fault_n, FLT_STATUS_l3_regions, FLT_STATUS_max_level, FLT_STATUS_safe,
      FYL_STATUS_test_refused, FYT_DROP_dropped, FYT_STATUS_active, FYT_STATUS_covering, FYT_STATUS_no_cover,
      FYT_STATUS_working, LLN_STATUS_lb_active, LLN_STATUS_prbs_lock, LLN_STATUS_test_refused, MODE_current], tabs :=
      [T_TXF_CNT], parts := [.callStop, .fyls, .hst, .lanes, .prbs, .txFlows] }]
/-- EXIT_SAFE -/
def Foot.exitSafe : Foot :=
  .join [footEnterReset,
    { parts := [.callStop, .deferredIso, .enStart, .freeCtr, .hbm, .kickAt, .mem, .slots] }]
/-- ENTER_DARK -/
def Foot.enterDark : Foot := { anyReg := true, anyTab := true, parts := Part.all }
/-- DRAIN -/
def Foot.drain : Foot :=
  .join [footBusEvent, footLogRec,
    { regs := [ MODE_CMD_STATUS_code, MODE_CMD_STATUS_op, MODE_current] ++ ((List.range 8).map MODE_REGIONS_state), parts :=
      [.hst] }]
/-- OFFLINE -/
def Foot.offline : Foot :=
  .join [footBusEvent, footLogRec,
    { regs := [FYT_DROP_dropped, MODE_CMD_STATUS_code, MODE_CMD_STATUS_op, MODE_current] ++
      ((List.range 8).map MODE_REGIONS_state), tabs := [T_TXF_CNT], parts := [.fyls, .hst, .txFlows] }]
/-- RESUME -/
def Foot.resume : Foot :=
  .join [footBusEvent, footLogRec,
    { regs := [ MODE_CMD_STATUS_code, MODE_CMD_STATUS_op, MODE_current] ++ ((List.range 8).map MODE_REGIONS_state), parts :=
      [.hst] }]
/-- RESET -/
def Foot.reset : Foot := .join [footEnterReset, { parts := [.modeCmd, .slots] }]
/-- RESET_CLEAR -/
def Foot.resetClear : Foot := .join [footEnterReset, { parts := [.modeCmd, .slots] }]
/-- REGION_RESET_DONE -/
def Foot.regionResetDone : Foot :=
  .join [footCtxTick, footEvalNow, footWgEnter, footModeEnd, footShowRegion, footRefreshOtuc, footShowBlock,
    { regs := [ETH_ERR_BLOCKS, ETH_IDLE_INS, ETH_OFFSET_offset, ETH_STATUS_tx_lf, FLT_STATUS_fault_n, FLT_STATUS_isolated,
      FLT_STATUS_l3_regions, FLT_STATUS_max_level, FYT_DROP_dropped, MODE_current] ++ ((List.range 8).map MODE_REGIONS_state),
      tabs := [T_BRG_STATUS, T_FLT_LINK, T_MP_TTI_ACC, T_RXF_STATUS, T_TXF_CNT, T_WFAIL], parts := [.apss, .deferredIso,
      .flowOuts, .freeCtr, .fyls, .gmps, .hbm, .hst, .live, .mem, .txFlows] }]
/-- UPDATE -/
def Foot.update : Foot :=
  .join [footCtxTick, footRestoreLink, footRefreshEth, footLaneStop, footBusEvent, footCoreStop, footModeEnd, footLinkGated,
    footStackFail,
    { regs := [CSU_CMD_STATUS_code, CSU_STATUS_band, CSU_STATUS_gated, CSU_STATUS_locked, CSU_STATUS_margin, CSU_STATUS_no_band,
      CSU_STATUS_reband_busy, LLN_STATUS_sig_det], parts := [.csus, .hst, .upd] }]
/-- STACK_RETRAIN -/
def Foot.stackRetrain : Foot := .join [footBusEvent, footModeEnd, { parts := [.hst] }]
/-- REGION_SRAM -/
def Foot.regionSram : Foot := { regs := [ MODE_AUDIT_STATUS_state, MODE_AUDIT_STATUS_target, MODE_AUDIT_STATUS_test] }
/-- QUEUE_MEM -/
def Foot.queueMem : Foot := { regs := [ MODE_AUDIT_STATUS_state, MODE_AUDIT_STATUS_target, MODE_AUDIT_STATUS_test] }
/-- HBM_ALIGN -/
def Foot.hbmAlign : Foot := { regs := [ MODE_AUDIT_STATUS_state, MODE_AUDIT_STATUS_target, MODE_AUDIT_STATUS_test] }
/-- LOG_BANK -/
def Foot.logBank : Foot := { regs := [ MODE_AUDIT_STATUS_state, MODE_AUDIT_STATUS_target, MODE_AUDIT_STATUS_test] }
/-- FUSE -/
def Foot.fuse : Foot := { regs := [ MODE_AUDIT_STATUS_state, MODE_AUDIT_STATUS_target, MODE_AUDIT_STATUS_test] }
/-- AON_VOTE -/
def Foot.aonVote : Foot := { regs := [ MODE_AUDIT_STATUS_state, MODE_AUDIT_STATUS_target, MODE_AUDIT_STATUS_test] }
/-- AUDIT_DONE -/
def Foot.auditDone : Foot :=
  .join [footEnterReset,
    { parts := [.callStop, .col, .deferredIso, .fallQ, .fltWin, .freeCtr, .hbm, .mem, .modeCmd, .slots] }]
/-- LIFE_COUNTER_TICK -/
def Foot.lifeCounterTick : Foot :=
  { regs := [ MODE_LIFE_HOT, MODE_LIFE_POWERED, MODE_LIFE_STRESS, MODE_LIFE_TMAX], parts := [.freeCtr, .life] }
/-- SUPPLY_UNDERVOLTAGE -/
def Foot.supplyUndervoltage : Foot :=
  .join [footCtxTick, footRestoreLink, footRefreshEth, footEndTrial, footStackFail,
    { regs := [BOX_PM_STATUS_records, BOX_PM_STATUS_stale, BOX_PM_STATUS_state, CHIP_ID_VMON_core_valid, CHIP_ID_VMON_under,
      CHK_STATUS_holder, HST_LINK_drops, HST_LINK_speed, HST_LINK_up, HST_LINK_width, LLN_STATUS_sig_det, PLB_STATUS_state] ++
      ((List.range 4).map HST_DMA_STATUS_done) ++ ((List.range 4).map HST_DMA_STATUS_state), parts := [.coverAt, .fns, .freeCtr,
      .msixTab, .numVfs, .plb, .supplyOff] }]
/-- SUPPLY_OVERVOLTAGE -/
def Foot.supplyOvervoltage : Foot := .join [footPower, { regs := [CHIP_ID_VMON_under], parts := [.supplyOff] }]
/-- CORE_VALID_RETURN -/
def Foot.coreValidReturn : Foot := { regs := [CHIP_ID_VMON_core_valid, CHIP_ID_VMON_under], parts := [.supplyOff] }
/-- THERMAL_SAMPLE -/
def Foot.thermalSample : Foot :=
  .join [footCoreStop,
    { regs := [CHIP_ID_VMON_under] ++ ((List.range 22).map CHIP_ID_TEMP_temp) ++ ((List.range 22).map CHIP_ID_TEMP_valid), parts
      := [.life, .slots, .supplyOff, .thermHot, .thermOff] }]
/-- I2C_ACCESS -/
def Foot.i2cAccess : Foot := { parts := [.freeCtr, .i2cPtr] }
/-- CDR_LOCK -/
def Foot.cdrLock : Foot := { regs := [LLN_STATUS_cdr_lock] }
/-- RESET_N_ASSERT -/
def Foot.resetNAssert : Foot := { anyReg := true, anyTab := true, parts := Part.all }
/-- AON_POWER_UP -/
def Foot.aonPowerUp : Foot := { anyReg := true, anyTab := true, parts := Part.all }
/-- SDP_LINK_CHANGE -/
def Foot.sdpLinkChange : Foot :=
  { regs := [SDP_STATUS_link, SDP_STATUS_local_fault, SDP_STATUS_remote_fault], parts := [.events, .vecs] }
/-- PUSH_TIMEOUT -/
def Foot.pushTimeout : Foot :=
  .join [footPower,
    { regs := [FWM_BOOT_en_reason, FWM_BOOT_sm_reason, FWM_BOOT_state, FWM_PUSH_STATUS_reason, MODE_CALL_reason] }]
/-- PAUSE_IGNORE_END -/
def Foot.pauseIgnoreEnd : Foot := { regs := [SDP_STATUS_wd_ignore] }
/-- STACK_TRAINING_DONE -/
def Foot.stackTrainingDone : Foot :=
  .join [footModeEnd, footStackFail,
    { regs := [ MODE_STACKS_retrained, MODE_STACKS_train_fail] }]
/-- FYBRY_CODEWORD_DECODE -/
def Foot.fybryCodewordDecode : Foot :=
  .join [footRestoreLink,
    { regs := [FYL_CORR_SYM, FYL_CW, FYL_UNCORR_CW], parts := [.coverAt, .freeCtr, .slots] }]
/-- CONFIGURATION_REQUEST -/
def Foot.configurationRequest : Foot := { parts := [.fns, .freeCtr, .msixTab, .numVfs, .vecs] }
/-- JTAG_INSTRUCTION -/
def Foot.jtagInstruction : Foot := {}
/-- ITEM_ERROR_DETECTED -/
def Foot.itemErrorDetected : Foot := { parts := [.caps, .inss, .slots] }

/-- The footprint of a command. -/
def footOf (c : Instr) : Foot :=
  match c with
  | .registerWrite _ => .registerWrite
  | .pageCtrlWrite _ _ => .pageCtrlWrite
  | .pageOwnerWrite _ _ => .pageOwnerWrite
  | .evtStatusRead _ => .evtStatusRead
  | .evtAckWrite _ _ => .evtAckWrite
  | .evtForceWrite _ _ => .evtForceWrite
  | .voteScrub _ => .voteScrub
  | .loRead _ => .loRead
  | .loWrite _ _ => .loWrite
  | .hiWrite _ _ => .hiWrite
  | .indAddrWrite _ _ => .indAddrWrite
  | .indData3Write _ _ => .indData3Write
  | .indData3Read _ => .indData3Read
  | .cueGo _ _ _ => .cueGo
  | .cueRevert _ _ => .cueRevert
  | .cueImageCrc _ => .cueImageCrc
  | .cueCheckEnd _ => .cueCheckEnd
  | .cueRowAdopt _ _ => .cueRowAdopt
  | .blockRestart _ _ => .blockRestart
  | .blockRestartRelease _ => .blockRestartRelease
  | .blockRestartTimeout _ => .blockRestartTimeout
  | .adaptationDone _ => .adaptationDone
  | .llnTxFirWrite _ _ => .llnTxFirWrite
  | .llnRxEqWrite _ _ => .llnRxEqWrite
  | .trialStart _ _ => .trialStart
  | .trialDwellEnd _ => .trialDwellEnd
  | .codewordDecode _ _ _ => .codewordDecode
  | .fecSnap _ => .fecSnap
  | .los _ => .los
  | .signalDetect _ => .signalDetect
  | .cdrUnlock _ => .cdrUnlock
  | .cwLock _ => .cwLock
  | .cwUnlock _ _ => .cwUnlock
  | .deskewMeasure _ _ => .deskewMeasure
  | .prbsLock _ _ => .prbsLock
  | .prbsLockLost _ _ => .prbsLockLost
  | .prbsInject _ => .prbsInject
  | .flexoFrame _ _ => .flexoFrame
  | .otucFrame _ _ => .otucFrame
  | .lofOn _ => .lofOn
  | .lofOff _ => .lofOff
  | .lomOn _ => .lomOn
  | .lomOff _ => .lomOff
  | .dlomCnOn _ => .dlomCnOn
  | .dlomCnOff _ => .dlomCnOff
  | .bondEnter _ => .bondEnter
  | .otucTxFrame _ _ => .otucTxFrame
  | .corruptFas _ => .corruptFas
  | .oduFrameSink _ _ _ => .oduFrameSink
  | .dloflomOn _ _ _ => .dloflomOn
  | .dloflomOff _ _ _ => .dloflomOff
  | .oduFrameSource _ _ _ => .oduFrameSource
  | .contextForcedAis _ _ _ => .contextForcedAis
  | .secondBoundary => .secondBoundary
  | .pmSecond => .pmSecond
  | .episodeChange _ => .episodeChange
  | .aggregatedOff _ => .aggregatedOff
  | .gmpMapPeriod _ _ _ _ => .gmpMapPeriod
  | .gmpDemapPeriod _ _ _ _ => .gmpDemapPeriod
  | .ampJustify _ _ _ => .ampJustify
  | .ampDemuxPeriod _ _ _ _ _ => .ampDemuxPeriod
  | .impBlock _ _ _ => .impBlock
  | .crateOff _ => .crateOff
  | .rateHold _ _ => .rateHold
  | .rateHoldEnd _ _ => .rateHoldEnd
  | .closOn _ => .closOn
  | .closOff _ => .closOff
  | .clfChange _ _ => .clfChange
  | .crfChange _ _ => .crfChange
  | .suspectHoldEnd _ => .suspectHoldEnd
  | .legStatusChange _ _ => .legStatusChange
  | .holdOffExpiry _ _ => .holdOffExpiry
  | .wtrExpiry _ => .wtrExpiry
  | .confirmationExpiry _ => .confirmationExpiry
  | .bridgeChangeApply _ _ => .bridgeChangeApply
  | .clr _ _ => .clr
  | .lo _ _ => .lo
  | .fs _ _ => .fs
  | .ms _ _ => .ms
  | .msW _ _ => .msW
  | .exer _ _ => .exer
  | .setSel _ _ => .setSel
  | .setBridge _ _ => .setBridge
  | .setAps _ _ => .setAps
  | .setAll _ _ => .setAll
  | .ackSfp _ _ => .ackSfp
  | .prtNoteRead _ => .prtNoteRead
  | .apsMessageReceive _ _ => .apsMessageReceive
  | .apsAgeScan => .apsAgeScan
  | .dfopNr _ => .dfopNr
  | .stampInstance _ _ _ => .stampInstance
  | .wingsGroupStart _ _ _ => .wingsGroupStart
  | .playoutAdvance _ _ => .playoutAdvance
  | .slotGrant => .slotGrant
  | .overRecover _ => .overRecover
  | .hbmRetrainPc _ _ => .hbmRetrainPc
  | .stackFail _ _ => .stackFail
  | .groupFallback _ => .groupFallback
  | .hbmRestore _ => .hbmRestore
  | .ackFail _ => .ackFail
  | .fybryAdaptationDone _ => .fybryAdaptationDone
  | .fylTxEqWrite _ _ _ => .fylTxEqWrite
  | .markerLock _ _ _ => .markerLock
  | .markerLockLost _ _ => .markerLockLost
  | .segmentReceive _ _ => .segmentReceive
  | .segmentSlot _ => .segmentSlot
  | .segmentComplete _ _ _ => .segmentComplete
  | .reorderTimeout _ _ => .reorderTimeout
  | .flowAbsent _ _ => .flowAbsent
  | .linkFail _ _ => .linkFail
  | .fylFail _ => .fylFail
  | .fylRestore _ => .fylRestore
  | .ohqRdRead _ _ => .ohqRdRead
  | .ohqWrWrite _ _ _ => .ohqWrWrite
  | .flush _ _ _ _ => .flush
  | .flushApply _ _ _ => .flushApply
  | .dropRest _ _ _ _ => .dropRest
  | .chkStart _ _ => .chkStart
  | .chkDataWrite _ _ _ => .chkDataWrite
  | .chkFinish _ _ => .chkFinish
  | .chkAbort _ _ => .chkAbort
  | .sdpFrameReceive _ => .sdpFrameReceive
  | .sdpRxDescRead _ => .sdpRxDescRead
  | .sdpRxDataRead _ => .sdpRxDataRead
  | .sdpTxStart _ _ _ => .sdpTxStart
  | .sdpTxAbort _ => .sdpTxAbort
  | .sdpTxDataWrite _ _ => .sdpTxDataWrite
  | .sdpTransmit => .sdpTransmit
  | .sdpAgeScan => .sdpAgeScan
  | .pauseExpiry _ => .pauseExpiry
  | .pauseBreak _ => .pauseBreak
  | .sdpStatHalfRead _ => .sdpStatHalfRead
  | .cbbFrameReceive _ => .cbbFrameReceive
  | .cbbTxSend _ _ _ _ => .cbbTxSend
  | .cbbTxAbort _ => .cbbTxAbort
  | .cbbTxTimeout => .cbbTxTimeout
  | .masterLost => .masterLost
  | .tokenRegen _ => .tokenRegen
  | .tokenSuccessorTimeout => .tokenSuccessorTimeout
  | .beaconSend _ => .beaconSend
  | .windowClose => .windowClose
  | .partnerLost => .partnerLost
  | .cbbWakeAck => .cbbWakeAck
  | .darkWake _ => .darkWake
  | .refLost _ _ => .refLost
  | .refBack _ _ _ => .refBack
  | .lockLost _ => .lockLost
  | .relock _ _ => .relock
  | .reband _ _ _ => .reband
  | .rebandDone _ => .rebandDone
  | .bandEdge _ _ => .bandEdge
  | .ppsEdge _ _ => .ppsEdge
  | .ppsLost _ => .ppsLost
  | .todMessage _ _ => .todMessage
  | .slewDone => .slewDone
  | .holdoverExpired => .holdoverExpired
  | .todOutSend => .todOutSend
  | .timNowRead _ => .timNowRead
  | .setSec _ => .setSec
  | .timTsRead _ => .timTsRead
  | .hostLinkDown => .hostLinkDown
  | .hostLinkUp _ _ => .hostLinkUp
  | .vfFlr _ => .vfFlr
  | .hostRequest _ => .hostRequest
  | .busTimeout _ _ _ _ _ => .busTimeout
  | .setPage _ => .setPage
  | .setObj _ => .setObj
  | .setWin _ => .setWin
  | .proxyAccess _ _ _ _ _ => .proxyAccess
  | .boxPxPageWrite _ _ => .boxPxPageWrite
  | .boxNoteRead _ _ => .boxNoteRead
  | .msixSend _ _ => .msixSend
  | .dmaGo _ => .dmaGo
  | .dmaDone _ _ => .dmaDone
  | .pmCopyGo _ _ => .pmCopyGo
  | .pmCopyDone _ _ => .pmCopyDone
  | .fwmRing _ _ => .fwmRing
  | .mailboxResponse _ _ _ => .mailboxResponse
  | .attest _ => .attest
  | .getCert _ => .getCert
  | .debugChallenge => .debugChallenge
  | .debugUnlock => .debugUnlock
  | .commitRollback _ => .commitRollback
  | .revokeSlot => .revokeSlot
  | .updateEn _ => .updateEn
  | .bootInfo => .bootInfo
  | .pushStart _ _ => .pushStart
  | .pushData _ _ => .pushData
  | .pushEnd => .pushEnd
  | .pushAbort => .pushAbort
  | .imageVerified _ _ _ => .imageVerified
  | .fwmWdogKick _ => .fwmWdogKick
  | .enWdogExpiry _ => .enWdogExpiry
  | .smWdogExpiry _ => .smWdogExpiry
  | .devIdentity _ => .devIdentity
  | .devStatus _ => .devStatus
  | .devReset _ _ => .devReset
  | .laneSet _ _ => .laneSet
  | .laneGet _ => .laneGet
  | .ifSet _ _ => .ifSet
  | .loopback _ => .loopback
  | .connAdd _ _ => .connAdd
  | .connModify _ _ => .connModify
  | .connDelete _ _ => .connDelete
  | .connGet _ => .connGet
  | .pmCurrent _ => .pmCurrent
  | .pmHistory _ => .pmHistory
  | .pmThresh _ => .pmThresh
  | .pgAdd _ _ => .pgAdd
  | .pgDelete _ _ => .pgDelete
  | .pgCommand _ _ => .pgCommand
  | .pgStatus _ => .pgStatus
  | .ohOpen _ _ => .ohOpen
  | .ohClose _ _ => .ohClose
  | .ohSend _ => .ohSend
  | .ohReceive _ => .ohReceive
  | .almList _ => .almList
  | .almMask _ => .almMask
  | .timeGet _ => .timeGet
  | .timeSet _ => .timeSet
  | .personalityFrame _ => .personalityFrame
  | .pmbinStatus => .pmbinStatus
  | .pmbinGet => .pmbinGet
  | .housekeepingStatus => .housekeepingStatus
  | .reportWord _ => .reportWord
  | .wireBroken _ => .wireBroken
  | .reportResend _ => .reportResend
  | .fltAgeScan => .fltAgeScan
  | .fltAck _ => .fltAck
  | .fltInject _ => .fltInject
  | .logWrite _ => .logWrite
  | .keyClose _ _ => .keyClose
  | .bankFail _ => .bankFail
  | .ghostClear _ => .ghostClear
  | .playbillGo => .playbillGo
  | .playbillDone => .playbillDone
  | .digestRecompute _ => .digestRecompute
  | .resetNRelease _ => .resetNRelease
  | .callDone => .callDone
  | .service _ _ => .service
  | .rehearse _ => .rehearse
  | .audit _ => .audit
  | .enterSafe _ => .enterSafe
  | .exitSafe _ => .exitSafe
  | .enterDark _ => .enterDark
  | .drain _ _ => .drain
  | .offline _ _ => .offline
  | .resume _ _ => .resume
  | .reset _ _ => .reset
  | .resetClear _ _ => .resetClear
  | .regionResetDone _ => .regionResetDone
  | .update _ _ _ => .update
  | .stackRetrain _ _ => .stackRetrain
  | .regionSram _ => .regionSram
  | .queueMem _ => .queueMem
  | .hbmAlign _ => .hbmAlign
  | .logBank _ => .logBank
  | .fuse _ => .fuse
  | .aonVote _ => .aonVote
  | .auditDone _ => .auditDone
  | .lifeCounterTick _ => .lifeCounterTick
  | .supplyUndervoltage _ _ => .supplyUndervoltage
  | .supplyOvervoltage _ _ => .supplyOvervoltage
  | .coreValidReturn _ => .coreValidReturn
  | .thermalSample _ _ _ => .thermalSample
  | .i2cAccess _ _ _ => .i2cAccess
  | .cdrLock _ => .cdrLock
  | .resetNAssert => .resetNAssert
  | .aonPowerUp => .aonPowerUp
  | .sdpLinkChange _ _ _ => .sdpLinkChange
  | .pushTimeout => .pushTimeout
  | .pauseIgnoreEnd _ => .pauseIgnoreEnd
  | .stackTrainingDone _ _ => .stackTrainingDone
  | .fybryCodewordDecode _ _ _ => .fybryCodewordDecode
  | .configurationRequest _ => .configurationRequest
  | .jtagInstruction _ => .jtagInstruction
  | .itemErrorDetected _ => .itemErrorDetected

end Sys2Proof.Machine
end

