-- ==== Sys2Proof/Machine/Package.lean ====
section
/-! DEFINITION. The ball grid: names, zones, the balls of the lanes and of the corner pins, the rails of the centre, and the balls that an
output of the device drives (file 17, R567 to R572). -/

namespace Sys2Proof.Machine

open Sys2Proof

/-- A ball: row and column, 1 to 136. -/
structure Ball where
  row : Nat
  col : Nat
  deriving DecidableEq, Repr

/-! ### Names (R567) -/

/-- The letter sequence L1 to L19, from index 0. -/
def rowLetters : List String := ["A", "B", "C", "D", "E", "F", "G", "H", "J", "K", "L", "M", "N", "P", "T", "U", "V", "W", "Y"]

def rowName (i : Nat) : String :=
  if i ≤ 19 then rowLetters.getD (i - 1) "" else rowLetters.getD ((i - 20) / 19) "" ++ rowLetters.getD ((i - 20) % 19) ""

/-- The row that a name stands for, if there is one. -/
def rowOfName (x : String) : Option Nat := ((List.range 136).map (· + 1)).find? (fun i => decide (rowName i = x))

/-! ### Zones (R568, Table PKG-1) -/

inductive Zone where
  | northLine | southLine | westFybry | eastFybry
  | nw | ne | sw | se
  | centre
  deriving DecidableEq, Repr

def Ball.zone (b : Ball) : Zone :=
  let inner := decide (25 ≤ b.col ∧ b.col ≤ 112)
  let west := decide (b.col ≤ 24)
  if inner ∧ b.row ≤ 12 then .northLine
  else if inner ∧ 125 ≤ b.row then .southLine
  else if inner then .centre
  else if b.row ≤ 4 then (if west then .nw else .ne)
  else if 133 ≤ b.row then (if west then .sw else .se)
  else if west then .westFybry
  else .eastFybry

/-! ### Lanes (R569, R570) -/

/-- The P and N balls of line lane n: transmit or receive. -/
def lineBalls (n : Nat) (tx : Bool) : Ball × Ball :=
  let k := n % 128 / 22
  let c := n % 128 % 22
  let row := if n < 128 then (if tx then 1 + 2 * k else 2 + 2 * k) else if tx then 136 - 2 * k else 135 - 2 * k
  (⟨row, 26 + 4 * c⟩, ⟨row, 27 + 4 * c⟩)

/-- The P and N balls of Fybry lane q = 8 m + k: transmit or receive. -/
def fybryBalls (q : Nat) (tx : Bool) : Ball × Ball :=
  let k := q % 384 / 32
  let c := q % 384 % 32
  let col := if q < 384 then (if tx then 1 + 2 * k else 2 + 2 * k) else if tx then 136 - 2 * k else 135 - 2 * k
  (⟨6 + 4 * c, col⟩, ⟨7 + 4 * c, col⟩)

/-! ### Corners (R571, Table PKG-2) -/

/-- What a position of a corner carries. -/
inductive CornerPin where
  | pairP (name : String) (i : Nat)
  | pairN (name : String) (i : Nat)
  | single (name : String) (i : Nat)
  | vss
  deriving DecidableEq, Repr

/-- A pair takes three positions: P, N and VSS. -/
def pinPairs (name : String) (first n : Nat) : List CornerPin :=
  (List.range n).flatMap (fun k => [.pairP name (first + k), .pairN name (first + k), .vss])

def pinSingles (name : String) (n : Nat) : List CornerPin := (List.range n).map (.single name ·)

/-- The positions of a corner, from p = 0 on; the rest are VSS. -/
def cornerPins : Zone → List CornerPin
  | .nw => pinPairs "LG_REF" 0 16 ++ pinPairs "FG_REF" 0 8 ++ pinPairs "CORE_REF" 0 1
  | .ne => pinPairs "PCIE_TX" 0 8 ++ pinPairs "PCIE_RX" 0 8 ++ pinPairs "PCIE_REF" 0 1 ++ pinSingles "PERST_N" 1
  | .sw => pinPairs "LG_REF" 16 16 ++ pinPairs "FG_REF" 8 8
  | .se => pinPairs "SDP_TX" 0 1 ++ pinPairs "SDP_RX" 0 1 ++ pinPairs "RCLK_OUT" 0 8 ++ pinPairs "REF_OUT" 0 1 ++ pinPairs "AON_X" 0 1 ++
      pinPairs "THERM" 0 1 ++ pinPairs "VSENSE" 0 1 ++
      pinSingles "CBB_A" 1 ++ pinSingles "CBB_B" 1 ++ pinSingles "CBB_DE" 1 ++ pinSingles "PPS_IN" 2 ++ pinSingles "PPS_OUT" 2 ++
      pinSingles "TOD_IN" 1 ++ pinSingles "TOD_OUT" 1 ++ pinSingles "RESET_N" 1 ++ pinSingles "FAULT_N" 1 ++ pinSingles "INT_N" 1 ++
      pinSingles "WAKE_OUT_N" 1 ++ pinSingles "STRAP" 8 ++ pinSingles "XSPI_CLK" 1 ++ pinSingles "XSPI_CS_N" 1 ++ pinSingles "XSPI_DQS" 1 ++
      pinSingles "XSPI_RST_N" 1 ++ pinSingles "XSPI_DQ" 8 ++ pinSingles "I2C_SCL" 1 ++ pinSingles "I2C_SDA" 1 ++ pinSingles "TCK" 1 ++
      pinSingles "TMS" 1 ++ pinSingles "TDI" 1 ++ pinSingles "TDO" 1 ++ pinSingles "TRST_N" 1
  | _ => []

/-- The ball of position p of a corner. -/
def cornerBall (z : Zone) (p : Nat) : Ball :=
  { row := if z = .nw ∨ z = .ne then 1 + p / 24 else 136 - p / 24, col := if z = .nw ∨ z = .sw then 1 + p % 24 else 136 - p % 24 }

/-- The ball of a pin of a corner, if the corner has it. -/
def pinBall (z : Zone) (x : CornerPin) : Option Ball := ((cornerPins z).findIdx? (fun y => decide (y = x))).map (cornerBall z)

/-! ### The centre (R572, Table PKG-3) -/

inductive Rail where
  | vddCore | vddSram | vddaLn | vddaFy | vddaPcie | vddcHbm | vddqHbm | vppHbm | vddAon | vddaSdp | vddIo | vdd485
  | vss
  deriving DecidableEq, Repr

/-- Rails that share an area take its even balls in this order. -/
def standbyRail (k : Nat) : Rail :=
  if k < 8 then .vddAon else if k < 16 then .vddaSdp else if k < 32 then .vddaPcie else if k < 36 then .vdd485 else .vddIo

/-- What a ball of the centre carries. -/
def Ball.rail (b : Ball) : Rail :=
  let i := b.row
  if (i + b.col) % 2 = 1 then .vss
  else if b.col ≤ 32 ∨ 105 ≤ b.col then .vddaFy
  else if i ≤ 20 ∨ 117 ≤ i then .vddaLn
  else if i ≤ 22 then standbyRail (36 * (i - 21) + (b.col - 33) / 2)
  else if i ≤ 24 then .vppHbm
  else if i ≤ 30 then .vddqHbm
  else if i ≤ 34 then .vddcHbm
  else if i ≤ 40 then .vddSram
  else .vddCore

/-! ### The balls of an output -/

/-- The P and N balls of a pair of a corner. -/
def pairBalls (z : Zone) (name : String) (i : Nat) : List Ball :=
  (pinBall z (.pairP name i)).toList ++ (pinBall z (.pairN name i)).toList

/-- The balls on which an output of the device appears; none for what leaves as part of another one, or inside the device. -/
def Out.balls : Out → List Ball
  | .line n _ => let (p, q) := lineBalls n true; [p, q]
  | .fybryLine m k _ => let (p, q) := fybryBalls (8 * m + k) true; [p, q]
  | .msix _ _ _ _ | .hostWrite _ _ _ => (List.range 8).flatMap (pairBalls .ne "PCIE_TX")
  | .sdpFrame _ => pairBalls .se "SDP_TX" 0
  | .cbbFrame _ => (pinBall .se (.single "CBB_A" 0)).toList ++ (pinBall .se (.single "CBB_B" 0)).toList
  | .ppsOut j _ => (pinBall .se (.single "PPS_OUT" j)).toList
  | .todOut _ => (pinBall .se (.single "TOD_OUT" 0)).toList
  | _ => []

end Sys2Proof.Machine
end

