-- ==== Sys2Proof/Safety.lean ====
section
/-! DEFINITION. What counts as a safe state and a safe queue: the forms that every step keeps, and the one command that can stop the
block. -/

namespace Sys2Proof.Machine

open Sys2Proof

/-- The Hitless Memory's contents have their canonical form. -/
def MemOk (s : State) : Prop := Memory.wf s.mem = true

/-- The time base holds a 48-bit second, nanoseconds below 10^9 and a fraction of a nanosecond (file 12, R423, R424). -/
def TimeBase.ok (x : TimeBase) : Prop := x.sec < 2 ^ 48 ∧ x.ns < 1000000000 ∧ x.frac < 2 ^ 48

/-- The log writer's input queue holds at most 256 entries (file 15, R523). -/
def LogOk (s : State) : Prop := s.logQ.length ≤ 256

/-- The form of a legal state. -/
structure State.Inv (s : State) : Prop where
  mem : MemOk s
  time : s.tb.ok
  log : LogOk s

/-- The three copies of every stored voted field and entry agree (file 02, R61). -/
def State.votesAgree (s : State) : Bool :=
  s.votedKeys.all (fun x => decide (s.regs.get x.2.reset (fkey x.1 x.2) = s.regsB.get x.2.reset (fkey x.1 x.2) ∧
    s.regsB.get x.2.reset (fkey x.1 x.2) = s.regsC.get x.2.reset (fkey x.1 x.2))) &&
  s.votedRows.all (fun x => decide (s.tabs.get (x.2.1.resetEntry x.2.2) (tkey x.1 x.2.1 x.2.2) =
      s.tabsB.get (x.2.1.resetEntry x.2.2) (tkey x.1 x.2.1 x.2.2) ∧
    s.tabsB.get (x.2.1.resetEntry x.2.2) (tkey x.1 x.2.1 x.2.2) = s.tabsC.get (x.2.1.resetEntry x.2.2) (tkey x.1 x.2.1 x.2.2)))

/-- A command that never stops the block: every one but a private JTAG instruction (file 14, R485). -/
def NeverStops (c : Instr) : Prop := c ≠ .jtagInstruction .priv

/-- Every waiting command never stops the block. -/
def SafeQueue (s : State) : Prop := ∀ c ∈ s.pending, NeverStops c

/-- Whether a command leaves every recorded event: all but the acknowledgement, the writes, requests and firmware services that
can carry one, the resets and restarts and what can start one, which clear pages (file 02, R59; file 16, R552), the adoption of a row,
which takes back a defect declared in its own DP cycle (file 04, R139), and the firmware's answers, which a request's undoing can take
back (file 14, R480). -/
def keepsEvents (c : Instr) : Bool :=
  match c with
  | .registerWrite _ | .evtAckWrite _ _ | .loWrite _ _ | .hiWrite _ _ | .cueRowAdopt _ _ | .blockRestart _ _
  | .darkWake _ | .hostRequest _ | .proxyAccess _ _ _ _ _ | .mailboxResponse _ _ _ | .attest _ | .getCert _
  | .debugChallenge | .debugUnlock | .commitRollback _ | .revokeSlot | .updateEn _ | .bootInfo | .imageVerified _ _ _
  | .devIdentity _ | .devStatus _ | .devReset _ _ | .laneSet _ _ | .laneGet _ | .ifSet _ _ | .loopback _
  | .connAdd _ _ | .connModify _ _ | .connDelete _ _ | .connGet _ | .pmCurrent _ | .pmHistory _ | .pmThresh _
  | .pgAdd _ _ | .pgDelete _ _ | .pgCommand _ _ | .pgStatus _ | .ohOpen _ _ | .ohClose _ _ | .ohSend _ | .ohReceive _
  | .almList _ | .almMask _ | .timeGet _ | .timeSet _ | .personalityFrame _ | .pmbinStatus | .pmbinGet
  | .housekeepingStatus | .reportWord _ | .fltAgeScan | .fltAck _ | .logWrite _ | .keyClose _ _ | .bankFail _
  | .exitSafe _ | .enterDark _ | .reset _ _ | .resetClear _ _ | .auditDone _ | .resetNAssert | .aonPowerUp => false
  | _ => true

/-! ### Answers of the firmware mailbox -/

/-- The request of FWM page n has its whole response with a status, and DONE with its event (file 14, R481). -/
def State.answered (s : State) (n status : Nat) : Bool :=
  decide (s.mbState n = mbDone ∧ getBits (s.rd (pgFwm n) (FWM_RSP_word 0)) 15 8 = status) && s.hasEvt (pgFwm n) 0

/-- No ring of page n has been refused in this FAB cycle: none would start anew behind the response (file 14, R500). -/
def State.ringsClear (s : State) (n : Nat) : Bool := s.refusedRings.all (fun x => decide (x.1 ≠ n))

/-- A TRUST request of the host with a payload of the length its operation has waits on page n, no ring of this FAB cycle behind it,
and the stage manager runs (file 14, R482, R500; file 15, R520). -/
def State.trustWaits (s : State) (n op : Nat) : Bool :=
  s.mbWaits n 1 op && s.ringsClear n && !s.smHeld && decide (s.mbWho.get 0 n = Master.host.code ∧ s.mbLen n = trustLen op)

/-- A message of personality p with a body waits on its page, no ring of this FAB cycle behind it, and the personality is presented
(file 14, R480, R493, R500). -/
def State.persWaits (s : State) (p code : Nat) (body : List Nat) : Bool :=
  decide (p < 4) && s.mbWaits (p + 1) (0x10 + p) code && s.ringsClear (p + 1) && s.persUp p && decide (s.mbPayload (p + 1) = body)

/-- The message of personality p is answered with a status (file 14, R496, R497). -/
def State.persAnswered (s : State) (p status : Nat) : Bool :=
  s.answered (p + 1) stOk && decide (s.rd (pgFwm (p + 1)) (FWM_RSP_word 3) % 256 = status)

end Sys2Proof.Machine
end

