-- ==== Sys2Proof/Certificates/Slice0/Obligations.lean ====
section
/-! DEFINITION. The statements for the provers, chapter by chapter of the spec. -/

open Sys2Proof Sys2Proof.Machine

/-! ### The whole machine -/

/-- The queue and the clock. That an empty queue lets one DP cycle pass is the model's choice (log entry 2). -/
def Obligations.StepTakesTheFront : Prop :=
  (∀ c (s : State) rest, step { s with pending := c :: rest } = exec c { s with pending := rest }) ∧
  (∀ s : State, s.pending = [] → s.dom = .run → ∃ t, step s = .next t ∧ t.dpCycle = s.dpCycle + 1 ∧ t.pending = [] ∧ t.mem = s.mem) ∧
  (∀ s : State, s.pending = [] → s.dom ≠ .run → step s = .next s.fresh.aonTick)

/-- What reset leaves. Reset values that the spec does not state are the model's choice (log entry 3). -/
def Obligations.ResetState : Prop :=
  (∀ pg f, State.reset.rd pg f = f.reset) ∧ (∀ pg x e, State.reset.entry pg x e = x.resetEntry e) ∧ State.reset.Inv ∧
  State.reset.votesAgree = true ∧ State.reset.mode = modeCall ∧ (∀ r, r < 8 → State.reset.region r = rgnReset) ∧
  State.reset.dom = .run ∧ State.reset.pending = [] ∧ State.reset.staged = [] ∧ State.reset.events = [] ∧ State.reset.mem = [] ∧
  State.reset.logQ = [] ∧ (∀ a, memRead State.reset.mem a = 0)

/-- R423, R424, R523: the time base stays in range and the log queue in its bound. HBM's canonical form is the model's. -/
def Obligations.StepKeepsTheForm : Prop :=
  ∀ s t : State, s.Inv → step s = .next t → t.Inv

/-- R485: the right that opens the private instructions; the spec gives those no effect, so they stop, and nothing else does. -/
def Obligations.OnlyPrivateJtagStops : Prop :=
  ∀ c s, (∃ t, exec c s = .next t) ∨
    (c = .jtagInstruction .priv ∧ bit s.rights 0 = true ∧ exec c s = .fault .jtagPrivate)

/-- R485: only a private JTAG instruction can stop the block, so the queue drains first in, first out. -/
def Obligations.QueueDrains : Prop :=
  ∀ s k, SafeQueue s → k ≤ s.pending.length → ∃ t, core.run k s = .next t ∧ t.pending = s.pending.drop k

/-- What each command leaves unchanged: everything outside its footprint (footOf). A register is named by its place, so a footprint does
not say on which page of several it is. -/
def Obligations.Frame : Prop :=
  ∀ c s t, exec c s = .next t → t.pending = s.pending ∧
    (∀ pg f, (footOf c).hasReg f = false → t.rd pg f = s.rd pg f ∧ t.regs.get f.reset (fkey pg f) = s.regs.get f.reset (fkey pg f) ∧
      t.regsB.get f.reset (fkey pg f) = s.regsB.get f.reset (fkey pg f) ∧ t.regsC.get f.reset (fkey pg f) = s.regsC.get f.reset (fkey pg f)) ∧
    (∀ pg x e, (footOf c).hasTab x = false → t.entry pg x e = s.entry pg x e) ∧
    (∀ p : Part, p ∉ (footOf c).parts → p.same s t)

/-- R57 to R59: what clears an event. The rollback counter and the revocations are fuses. -/
def Obligations.RecordsStay : Prop :=
  (∀ c s t pg k, exec c s = .next t → keepsEvents c = true → s.hasEvt pg k = true → t.hasEvt pg k = true) ∧
  (∀ c s t, exec c s = .next t → s.rbSteps ≤ t.rbSteps ∧ (∀ x ∈ s.revoked, x ∈ t.revoked) ∧ s.freeCtr ≤ t.freeCtr)

/-- R187, R287, R288, R527: where the writers of HBM store; every other byte reads as before. -/
def Obligations.HbmBytes : Prop :=
  (∀ s : State, s.dom = .run → s.col.bankDue.1 ≠ s.fab → ∃ t, exec (.logWrite false) s = .next t ∧
    (∀ a, (a < s.rd pgLog LOG_MIRROR_BASE_base / 2 ^ 30 * 2 ^ 30 + 32 * (s.rd pgLog LOG_HEAD_seq % 2 ^ 25) ∨
      s.rd pgLog LOG_MIRROR_BASE_base / 2 ^ 30 * 2 ^ 30 + 32 * (s.rd pgLog LOG_HEAD_seq % 2 ^ 25) + 32 ≤ a) → memRead t.mem a = memRead s.mem a)) ∧
  (∀ (s : State) f rest, s.dom = .run → s.pmPend = f :: rest → ∃ t, exec .pmSecond s = .next t ∧ t.pmPend = rest ∧
    (∀ a, (a < s.rd pgWng WNG_PMS_BASE_base / 2 ^ 24 * 2 ^ 24 + f.sec % (s.rd pgWng WNG_PMS_CFG_depth_m1 + 1) * 0x1000000 ∨
      s.rd pgWng WNG_PMS_BASE_base / 2 ^ 24 * 2 ^ 24 + f.sec % (s.rd pgWng WNG_PMS_CFG_depth_m1 + 1) * 0x1000000 + 0x1000000 ≤ a) →
      memRead t.mem a = memRead s.mem a)) ∧
  (∀ (s : State) (x : HbmWr) a, (a < s.wgBlock x.w (8 * (x.key / 239)) ∨ s.wgBlock x.w (8 * (x.key / 239)) + blockBytes ≤ a) →
    memRead (s.ringWrite x).mem a = memRead s.mem a)

/-- R567 to R572: the balls of the package. -/
def Obligations.BallGrid : Prop :=
  (∀ i, 1 ≤ i → i ≤ 136 → rowOfName (rowName i) = some i) ∧
  (∀ n tx, n < 256 → (lineBalls n tx).1.zone = (if n < 128 then Zone.northLine else .southLine) ∧ (lineBalls n tx).2.zone = (lineBalls n tx).1.zone) ∧
  (∀ q tx, q < 768 → (fybryBalls q tx).1.zone = (if q < 384 then Zone.westFybry else .eastFybry) ∧ (fybryBalls q tx).2.zone = (fybryBalls q tx).1.zone) ∧
  (∀ m n d e, m < 256 → n < 256 → (lineBalls m d).1 = (lineBalls n e).1 → m = n ∧ d = e) ∧
  (∀ p q d e, p < 768 → q < 768 → (fybryBalls p d).1 = (fybryBalls q e).1 → p = q ∧ d = e) ∧
  (∀ z ∈ [Zone.nw, .ne, .sw, .se], (cornerPins z).length ≤ 96 ∧ ∀ p, p < 96 → (cornerBall z p).zone = z) ∧
  (∀ b : Ball, (b.row + b.col) % 2 = 1 → b.rail = .vss) ∧
  (∀ n l, Out.balls (.line n l) = [(lineBalls n true).1, (lineBalls n true).2]) ∧
  (∀ m k l, Out.balls (.fybryLine m k l) = [(fybryBalls (8 * m + k) true).1, (fybryBalls (8 * m + k) true).2])

/-! ### Register model (file 02) -/

/-- R56 to R58: the page header. PAGE_CTRL takes run and force_safe; PAGE_OWNER is the stage manager's, and another master's write sets
owner_write and changes no owner; a read of EVT_STATUS answers the event bits and latches the page's sequence number for the reader;
EVT_FORCE records every event kind whose bit is 1. -/
def Obligations.PageHeader : Prop :=
  (∀ s a v, s.dom = .run → s.admitCode a.who a.page true = bsOk → a.be % 16 = 15 → ∃ t, exec (.pageCtrlWrite a v) s = .next t ∧ t.rdb a.page
    PAGE_CTRL_run = bit v 0 ∧ t.rdb a.page PAGE_CTRL_force_safe = bit v 1) ∧
  (∀ s a v, s.dom = .run → s.admitCode a.who a.page true = bsOk → a.be % 16 = 15 → a.who.master = .sm → pageFixed a.page = false → ∃ t, exec
    (.pageOwnerWrite a v) s = .next t ∧ t.rd a.page PAGE_OWNER_box = v % 512) ∧
  (∀ s a v, s.dom = .run → s.admitCode a.who a.page true = bsOk → a.be % 16 = 15 → a.who.master ≠ .sm → ∃ t, exec (.pageOwnerWrite a v) s = .next t ∧
    t.hasErr a.page errOwnerWrite = true ∧ (∀ pg, t.pageOwner pg = s.pageOwner pg)) ∧
  (∀ s a, s.dom = .run → s.admitCode a.who a.page false = bsOk → a.be % 16 ≠ 0 → ∃ t, exec (.evtStatusRead a) s = .next t ∧ t.reply = some ⟨bsOk,
    [s.evtStatus a.page]⟩ ∧ t.rd (reqPage a.page a.who) EVT_SEQ_seq = (s.events.get {} a.page).seq % 2 ^ 32 ∧ (∀ pg, t.evtStatus pg = s.evtStatus pg)) ∧
  (∀ s a v k, s.dom = .run → s.admitCode a.who a.page true = bsOk → a.be % 16 = 15 → k < 31 → bit v k = true → (pageRegion a.page).all s.regionSpeaks
    = true → ∃ t, exec (.evtForceWrite a v) s = .next t ∧ t.hasEvt a.page k = true)

/-- R53, R64, R65: a register access. A write without all four byte enables changes no register and sets partial_write; a whole write of
EVT_MASK stores its 32 bits; a write of a _LO word is held for its requester and changes no register of any page, and the write of the
_HI word then puts both halves into the pair at once; a read of a _LO word answers it and latches the high half of the same instant for
the requester. (Pages whose pairs do more when written or read are left to other statements.) -/
def Obligations.RegisterAccess : Prop :=
  (∀ s x, s.dom = .run → s.admitCode x.acc.who x.acc.page true = bsOk → x.acc.be % 16 ≠ 15 → ∃ t, exec (.registerWrite x) s = .next t ∧ t.hasErr
    x.acc.page errPartialWrite = true ∧ (∀ pg f, t.rd pg f = s.rd pg f)) ∧
  (∀ s x, s.dom = .run → s.admitCode x.acc.who x.acc.page true = bsOk → x.acc.be % 16 = 15 → x.acc.off % 1024 = 0x01C → ∃ t, exec (.registerWrite x) s
    = .next t ∧ t.rd x.acc.page EVT_MASK_mask = x.value % 2 ^ 32) ∧
  (∀ s a v i, s.dom = .run → s.admitCode a.who a.page true = bsOk → a.be % 16 = 15 → pageInfo a.page = some i → i.typ ≠ .box → i.typ ≠ .chk → 0x040 ≤
    regOff a.off → pairWritable a.page (regOff a.off) = true → ∃ t, exec (.loWrite a v) s = .next t ∧ t.rd (reqPage a.page a.who) (shadowF (regOff
    a.off)) = v % 2 ^ 32 ∧ (∀ pg f, pg < 65536 → f.off * 8 + f.lo < 8192 → t.rd pg f = s.rd pg f)) ∧
  (∀ s a v i f, s.dom = .run → s.admitCode a.who a.page true = bsOk → a.be % 16 = 15 → pageInfo a.page = some i → i.typ ≠ .box → i.typ ≠ .chk → i.typ
    ≠ .log → i.typ ≠ .wng → 0x044 ≤ regOff a.off → pairWritable a.page (regOff a.off) = false → pairFields a.page (regOff a.off - 4) = [f] → f.acc =
    .rw → f.perMaster = false → ∃ t, exec (.hiWrite a v) s = .next t ∧ t.rd a.page f = getBits ((v % 2 ^ 32 * 2 ^ 32 + s.rd (reqPage a.page a.who)
    (shadowF (regOff a.off - 4))) / 2 ^ baseLow a.page (regOff a.off - 4) * 2 ^ baseLow a.page (regOff a.off - 4)) f.hi f.lo) ∧
  (∀ s a i f, s.dom = .run → s.admitCode a.who a.page false = bsOk → a.be % 16 ≠ 0 → pageInfo a.page = some i → i.typ ∉ [.ohq, .prt, .box, .sdp, .cbb,
    .tim] → 0x040 ≤ regOff a.off → pairFields a.page (regOff a.off) = [f] → f.acc ≠ .rv → ∃ t, exec (.loRead a) s = .next t ∧ t.reply = some ⟨bsOk,
    [s.word (reqPage a.page a.who) a.page (regOff a.off)]⟩ ∧ t.rd (reqPage a.page a.who) (shadowF (regOff a.off + 4)) = s.word (reqPage a.page a.who)
    a.page (regOff a.off + 4) % 2 ^ 32)

/-- R66 to R71, R73: the indirect tables. A write of IND_ADDR fetches the addressed row into the requester's IND_DATA0–3, from the staged
copy of a staged table unless IND_CTRL.view is 1; an index beyond the table fetches zeros and sets ind_range. A write of IND_DATA3
stores the four words, with reserved bits 0: into the staged copy of a staged table, marked dirty for the writer and leaving the
committed copy, or not at all while a running cue holds the page's staged rows; in place in any other table. A read of IND_DATA3 answers
the word, and without auto_inc changes nothing more. -/
def Obligations.IndirectTables : Prop :=
  (∀ s a v b, s.dom = .run → s.admitCode a.who a.page true = bsOk → a.be % 16 = 15 → a.who.proxy = false → v < 2 ^ 32 → findTab a.page (v / 2 ^ 24) =
    some b → v % 2 ^ 24 < b.size → b.voted = false → ∃ t, exec (.indAddrWrite a v) s = .next t ∧ t.rd (reqPage a.page a.who) IND_ADDR_index = v % 2 ^
    24 ∧ (∀ k, k < 4 → t.rd (reqPage a.page a.who) (IND_DATA_data k) = (if b.staged = true ∧ s.rdb (reqPage a.page a.who) IND_CTRL_view = false then
    s.stagedRow a.page b (v % 2 ^ 24) else s.committedRow a.page b (v % 2 ^ 24)) / 2 ^ (32 * k) % 2 ^ 32)) ∧
  (∀ s a v, s.dom = .run → s.admitCode a.who a.page true = bsOk → a.be % 16 = 15 → v < 2 ^ 32 → ((findTab a.page (v / 2 ^ 24)).any fun b => decide (v
    % 2 ^ 24 < b.size)) = false → ∃ t, exec (.indAddrWrite a v) s = .next t ∧ t.hasErr a.page errIndRange = true ∧ (∀ k, k < 4 → t.rd (reqPage a.page
    a.who) (IND_DATA_data k) = 0)) ∧
  (∀ s a v b row, s.dom = .run → s.admitCode a.who a.page true = bsOk → a.be % 16 = 15 → a.who.proxy = false → v < 2 ^ 32 → s.indTab (reqPage a.page
    a.who) a.page = some b → row = s.rd (reqPage a.page a.who) IND_ADDR_index → b.staged = true → s.stagedLocked a.page = false → ∃ t, exec
    (.indData3Write a v) s = .next t ∧ t.dirty.get 0 (rowKey a.page b row) = requester a.who ∧ t.stagedEntry a.page b (row / b.rows) = putRow b
    (s.stagedEntry a.page b (row / b.rows)) row (assigned a.page b row (s.rd (reqPage a.page a.who) (IND_DATA_data 0) + s.rd (reqPage a.page a.who)
    (IND_DATA_data 1) * 2 ^ 32 + s.rd (reqPage a.page a.who) (IND_DATA_data 2) * 2 ^ 64 + v * 2 ^ 96)) % 2 ^ (128 * b.rows) ∧ (∀ pg b' e, t.entry pg
    b' e = s.entry pg b' e)) ∧
  (∀ s a v b, s.dom = .run → s.admitCode a.who a.page true = bsOk → a.be % 16 = 15 → a.who.proxy = false → s.indTab (reqPage a.page a.who) a.page =
    some b → b.staged = true → s.stagedLocked a.page = true → ∃ t, exec (.indData3Write a v) s = .next t ∧ t.hasErr a.page errStagedLocked = true ∧
    t.staged = s.staged ∧ t.dirty = s.dirty ∧ (∀ pg b' e, t.entry pg b' e = s.entry pg b' e)) ∧
  (∀ s a v b row, s.dom = .run → s.admitCode a.who a.page true = bsOk → a.be % 16 = 15 → a.who.proxy = false → v < 2 ^ 32 → s.indTab (reqPage a.page
    a.who) a.page = some b → row = s.rd (reqPage a.page a.who) IND_ADDR_index → b.staged = false → b.ro = false → smTable a.page b = false → a.page ≠
    pgBxm → a.page ≠ pgSdp → ∃ t, exec (.indData3Write a v) s = .next t ∧ t.entry a.page b (row / b.rows) = putRow b (s.entry a.page b (row / b.rows))
    row (assigned a.page b row (s.rd (reqPage a.page a.who) (IND_DATA_data 0) + s.rd (reqPage a.page a.who) (IND_DATA_data 1) * 2 ^ 32 + s.rd (reqPage
    a.page a.who) (IND_DATA_data 2) * 2 ^ 64 + v * 2 ^ 96)) % 2 ^ (128 * b.rows)) ∧
  (∀ s a, s.dom = .run → s.admitCode a.who a.page false = bsOk → a.be % 16 ≠ 0 → s.rdb (reqPage a.page a.who) IND_CTRL_auto_inc = false → ∃ t, exec
    (.indData3Read a) s = .next t ∧ t.reply = some ⟨bsOk, [s.rd (reqPage a.page a.who) (IND_DATA_data 3)]⟩ ∧ (∀ pg f, t.rd pg f = s.rd pg f) ∧
    t.staged = s.staged)

/-- R61 to R63: a scrub on agreeing copies changes nothing; one odd copy is put right with vote_corrected; a field whose three copies all
differ takes its reset value with vote_lost (the chip mode has an outcome of its own). -/
def Obligations.VoteScrub : Prop :=
  (∀ s, s.dom = .run → s.votesAgree = true → ∃ t, exec (.voteScrub []) s = .next t ∧ (∀ pg f, t.rd pg f = s.rd pg f) ∧ t.events = s.events ∧ t.slots =
    s.slots) ∧
  (∀ s pg f copy v, s.dom = .run → s.votesAgree = true → (pageFields pg).find? (fun g => decide (g.acc = .rv ∧ g.off = f.off ∧ g.lo = f.lo)) = some f
    → copy < 3 → s.rd pg f < 2 ^ f.width → v % 2 ^ f.width ≠ s.rd pg f → ∃ t, exec (.voteScrub [.field pg f.off f.lo copy v]) s = .next t ∧ t.rd pg f
    = s.rd pg f ∧ t.hasErr pg errVoteCorrected = true) ∧
  (∀ s pg f v v', s.dom = .run → s.votesAgree = true → (pageFields pg).find? (fun g => decide (g.acc = .rv ∧ g.off = f.off ∧ g.lo = f.lo)) = some f →
    pg ≠ pgMode → v % 2 ^ f.width ≠ s.rd pg f → v' % 2 ^ f.width ≠ s.rd pg f → v % 2 ^ f.width ≠ v' % 2 ^ f.width → ∃ t, exec (.voteScrub [.field pg
    f.off f.lo 0 v, .field pg f.off f.lo 1 v']) s = .next t ∧ t.rd pg f = f.reset ∧ t.hasErr pg errVoteLost = true)

/-- R72 to R78, R596: cues. CUE_GO on a running cue changes no register and sets staged_locked; it ends REFUSED with the code of the mode
check, and where every check judged at go passes, the cue is CHECKING. CUE_REVERT takes every row of the requester in the cue's scope
off the dirty rows and no other. CUE_IMAGE_CRC refuses with INTEGRITY a cue whose check value differs from BOX_CUE_EXPECT. At the end of
checking a dry run shows CHECKED and commits nothing; otherwise the cue takes the next device generation and its rows enter the
committed copy in one step. The adoption of the last rows makes the cue DONE and records cue_done. -/
def Obligations.Cues : Prop :=
  (∀ s w n bad, s.dom = .run → n < 512 → s.admitCode w (pgBox n) true = bsOk → s.cueRuns n = true → ∃ t, exec (.cueGo w n bad) s = .next t ∧ t.hasErr
    (pgBox n) errStagedLocked = true ∧ (∀ pg f, t.rd pg f = s.rd pg f)) ∧
  (∀ s w n bad code, s.dom = .run → n < 512 → s.admitCode w (pgBox n) true = bsOk → s.cueRuns n = false → s.cueOthers n (requester w) = false →
    s.cueModeCheck n (requester w) = some code → ∃ t, exec (.cueGo w n bad) s = .next t ∧ t.rd (pgBox n) BOX_CUE_STATUS_state = cueRefusedState ∧ t.rd
    (pgBox n) BOX_CUE_STATUS_code = code ∧ t.hasEvt (pgBox n) 1 = true ∧ t.dirty = s.dirty ∧ t.tabs = s.tabs) ∧
  (∀ s w n, s.dom = .run → n < 512 → s.admitCode w (pgBox n) true = bsOk → s.cueRuns n = false → s.cueOthers n (requester w) = false → s.cueModeCheck
    n (requester w) = none → s.cueEarly n (s.cueRows n (requester w)) [] = none → s.rdb (pgBox n) BOX_CUE_CTRL_check_en = true ∨ s.cueLate (s.cueRows
    n (requester w)) = none → ∃ t, exec (.cueGo w n []) s = .next t ∧ t.rd (pgBox n) BOX_CUE_STATUS_state = cueChecking ∧ (t.cues.get {} n).who =
    requester w ∧ (t.cues.get {} n).crc = s.rdb (pgBox n) BOX_CUE_CTRL_check_en) ∧
  (∀ s w n, s.dom = .run → n < 512 → s.admitCode w (pgBox n) true = bsOk → s.cueRuns n = false → ∃ t, exec (.cueRevert w n) s = .next t ∧ t.tabs =
    s.tabs ∧ (∀ k, k ∈ s.cueRows n (requester w) → (dirtyRow k).isSome = true → t.dirty.get 0 k = 0) ∧ (∀ k, k ∉ s.cueRows n (requester w) →
    t.dirty.get 0 k = s.dirty.get 0 k)) ∧
  (∀ s n, s.dom = .run → n < 512 → s.rd (pgBox n) BOX_CUE_STATUS_state = cueChecking → s.cueTurnOf n = true → s.rd (pgChk chkImage) CHK_STATUS_holder
    = holdNone → ∃ t, exec (.cueImageCrc n) s = .next t ∧ (t.cues.get {} n).crc = false ∧ (t.rd (pgChk chkImage) CHK_RESULT_res % 2 ^ 32 ≠ s.rd (pgBox
    n) BOX_CUE_EXPECT_value → t.rd (pgBox n) BOX_CUE_STATUS_state = cueRefusedState ∧ t.rd (pgBox n) BOX_CUE_STATUS_code = cueIntegrity ∧ t.hasEvt
    (pgBox n) 1 = true) ∧ (t.rd (pgChk chkImage) CHK_RESULT_res % 2 ^ 32 = s.rd (pgBox n) BOX_CUE_EXPECT_value → s.cueLate (s.cueRows n (s.cues.get {}
    n).who) = none → t.rd (pgBox n) BOX_CUE_STATUS_state = cueChecking)) ∧
  (∀ s n, s.dom = .run → n < 512 → s.rd (pgBox n) BOX_CUE_STATUS_state = cueChecking → (s.cues.get {} n).crc = false → s.cueModeCheck n (s.cues.get {}
    n).who = none → s.rdb (pgBox n) BOX_CUE_CTRL_dry_run = true → ∃ t, exec (.cueCheckEnd n) s = .next t ∧ t.rd (pgBox n) BOX_CUE_STATUS_state =
    cueChecked ∧ t.hasEvt (pgBox n) 0 = true ∧ t.tabs = s.tabs ∧ t.dirty = s.dirty ∧ t.devGen = s.devGen) ∧
  (∀ s n, s.dom = .run → n < 512 → s.rd (pgBox n) BOX_CUE_STATUS_state = cueChecking → (s.cues.get {} n).crc = false → s.cueModeCheck n (s.cues.get {}
    n).who = none → s.rdb (pgBox n) BOX_CUE_CTRL_dry_run = false → s.cueRows n (s.cues.get {} n).who ≠ [] → ∃ t, exec (.cueCheckEnd n) s = .next t ∧
    t.rd (pgBox n) BOX_CUE_STATUS_state = cuePending ∧ t.rd (pgBox n) BOX_CUE_GEN_gen = (s.devGen + 1) % 2 ^ 32 ∧ t.devGen = (s.devGen + 1) % 2 ^ 32 ∧
    (∀ k, k ∈ s.cueRows n (s.cues.get {} n).who → t.dirty.get 0 k = 0)) ∧
  (∀ s n x, s.dom = .run → n < 512 → s.rd (pgBox n) BOX_CUE_STATUS_state = cuePending → s.rowsAt n x ≠ [] → ((s.cues.get {} n).rows.filter (fun k =>
    !(s.rowsAt n x).contains k)) = [] → ∃ t, exec (.cueRowAdopt n x) s = .next t ∧ t.rd (pgBox n) BOX_CUE_STATUS_state = cueDoneState ∧ t.hasEvt
    (pgBox n) 0 = true ∧ (t.cues.get {} n).rows = []) ∧
  (∀ s n x, s.dom = .run → n < 512 → s.rd (pgBox n) BOX_CUE_STATUS_state = cuePending → s.rowsAt n x ≠ [] → ((s.cues.get {} n).rows.filter (fun k =>
    !(s.rowsAt n x).contains k)) ≠ [] → ∃ t, exec (.cueRowAdopt n x) s = .next t ∧ (t.cues.get {} n).rows = (s.cues.get {} n).rows.filter (fun k =>
    !(s.rowsAt n x).contains k))

/-- R59: EVT_ACK clears each event bit, and each ERR_STATUS bit, with stamp s for which (v − s) mod 2^32 < 2^31; when v lies 1 to 2^31 − 1
ahead of the page's sequence number the write clears nothing and sets ack_ahead. -/
def Obligations.EventAcknowledge : Prop :=
  (∀ s a v, s.dom = .run → s.admitCode a.who a.page true = bsOk → a.be % 16 = 15 → v < 2 ^ 32 → ¬ (1 ≤ (v + 2 ^ 32 - (s.events.get {} a.page).seq % 2
    ^ 32) % 2 ^ 32 ∧ (v + 2 ^ 32 - (s.events.get {} a.page).seq % 2 ^ 32) % 2 ^ 32 < 2 ^ 31) → ∃ t, exec (.evtAckWrite a v) s = .next t ∧ (∀ k n, (k,
    n) ∈ (t.events.get {} a.page).evts ↔ (k, n) ∈ (s.events.get {} a.page).evts ∧ ¬ (v + 2 ^ 32 - n % 2 ^ 32) % 2 ^ 32 < 2 ^ 31) ∧ (∀ k n, (k, n) ∈
    (t.events.get {} a.page).errs ↔ (k, n) ∈ (s.events.get {} a.page).errs ∧ ¬ (v + 2 ^ 32 - n % 2 ^ 32) % 2 ^ 32 < 2 ^ 31) ∧ (∀ pg, pg ≠ a.page →
    t.events.get {} pg = s.events.get {} pg) ∧ (∀ pg f, t.rd pg f = s.rd pg f)) ∧
  (∀ s a v, s.dom = .run → s.admitCode a.who a.page true = bsOk → a.be % 16 = 15 → v < 2 ^ 32 → 1 ≤ (v + 2 ^ 32 - (s.events.get {} a.page).seq % 2 ^
    32) % 2 ^ 32 → (v + 2 ^ 32 - (s.events.get {} a.page).seq % 2 ^ 32) % 2 ^ 32 < 2 ^ 31 → ∃ t, exec (.evtAckWrite a v) s = .next t ∧ t.hasErr a.page
    errAckAhead = true ∧ (t.events.get {} a.page).evts = (s.events.get {} a.page).evts ∧ (∀ k n, k ≠ errAckAhead → ((k, n) ∈ (t.events.get {}
    a.page).errs ↔ (k, n) ∈ (s.events.get {} a.page).errs)) ∧ (∀ pg f, t.rd pg f = s.rd pg f))

/-- R57: the sequence number is 0 after reset, rises by one with every recording and wraps at 2^32, and the recorded bit carries the new
number as its only stamp; so it is for an event, for an ERR_STATUS bit, and through EVT_FORCE. -/
def Obligations.EventStamps : Prop :=
  (∀ pg, (State.reset.events.get {} pg).seq = 0) ∧
  (∀ (s : State) pg k, ((s.record pg k).events.get {} pg).seq = ((s.events.get {} pg).seq + 1) % 2 ^ 32 ∧
    ∀ n, (k, n) ∈ ((s.record pg k).events.get {} pg).evts ↔ n = ((s.events.get {} pg).seq + 1) % 2 ^ 32) ∧
  (∀ (s : State) pg k, ((s.setErr pg k).events.get {} pg).seq = ((s.events.get {} pg).seq + 1) % 2 ^ 32 ∧
    ∀ n, (k, n) ∈ ((s.setErr pg k).events.get {} pg).errs ↔ n = ((s.events.get {} pg).seq + 1) % 2 ^ 32) ∧
  (∀ s a k, s.dom = .run → s.admitCode a.who a.page true = bsOk → a.be % 16 = 15 → k < 31 → (pageRegion a.page).all s.regionSpeaks = true →
    ∃ t, exec (.evtForceWrite a (2 ^ k)) s = .next t ∧
      (t.events.get {} a.page).seq = ((s.events.get {} a.page).seq + 1) % 2 ^ 32 ∧
      ∀ n, (k, n) ∈ (t.events.get {} a.page).evts ↔ n = ((s.events.get {} a.page).seq + 1) % 2 ^ 32)

/-- R61: a write to an RV field writes all three copies, and the field's value is the value that at least two copies hold. -/
def Obligations.VotedFields : Prop :=
  (∀ (s : State) pg f v, f.acc = .rv → (s.wr pg f v).regs.get f.reset (fkey pg f) = v % 2 ^ f.width ∧
    (s.wr pg f v).regsB.get f.reset (fkey pg f) = v % 2 ^ f.width ∧ (s.wr pg f v).regsC.get f.reset (fkey pg f) = v % 2 ^ f.width) ∧
  (∀ (s : State) pg f x, f.acc = .rv →
    (s.regs.get f.reset (fkey pg f) = x ∧ s.regsB.get f.reset (fkey pg f) = x) ∨
    (s.regs.get f.reset (fkey pg f) = x ∧ s.regsC.get f.reset (fkey pg f) = x) ∨
    (s.regsB.get f.reset (fkey pg f) = x ∧ s.regsC.get f.reset (fkey pg f) = x) → s.rd pg f = x)

/-! ### Line lanes (file 03) -/

/-- R95: a write of LLN_TX_FIR1 applies the clamped taps and the swing together, unless the main tap would fall below 64/128, when the
previous set stays and fir_refused shows. R106: LLN_RX_EQ takes a write under freeze and ignores it otherwise. R97: adaptation that
completes shows trained and records it. -/
def Obligations.LaneEqualisers : Prop :=
  (∀ s n v m3 m2 m1 p1 p2, s.dom = .run → m3 = clampInt (-16) 0 (toSigned 8 (s.rd (pgLln n) LLN_TX_FIR0_c_m3)) → m2 = clampInt 0 32 (toSigned 8 (s.rd
    (pgLln n) LLN_TX_FIR0_c_m2)) → m1 = clampInt (-64) 0 (toSigned 8 (s.rd (pgLln n) LLN_TX_FIR0_c_m1)) → p1 = clampInt (-48) 0 (toSigned 8 (getBits v
    7 0)) → p2 = clampInt 0 16 (toSigned 8 (getBits v 15 8)) → 64 ≤ (128 - (m3.natAbs + m2.natAbs + m1.natAbs + p1.natAbs + p2.natAbs) : Int) → ∃ t,
    exec (.llnTxFirWrite n v) s = .next t ∧ (t.lane n).tapM3 = m3 ∧ (t.lane n).tapM2 = m2 ∧ (t.lane n).tapM1 = m1 ∧ (t.lane n).tapP1 = p1 ∧ (t.lane
    n).tapP2 = p2 ∧ (t.lane n).swing = getBits v 27 24 ∧ t.rdb (pgLln n) LLN_STATUS_fir_refused = false) ∧
  (∀ s n v m3 m2 m1 p1 p2, s.dom = .run → m3 = clampInt (-16) 0 (toSigned 8 (s.rd (pgLln n) LLN_TX_FIR0_c_m3)) → m2 = clampInt 0 32 (toSigned 8 (s.rd
    (pgLln n) LLN_TX_FIR0_c_m2)) → m1 = clampInt (-64) 0 (toSigned 8 (s.rd (pgLln n) LLN_TX_FIR0_c_m1)) → p1 = clampInt (-48) 0 (toSigned 8 (getBits v
    7 0)) → p2 = clampInt 0 16 (toSigned 8 (getBits v 15 8)) → (128 - (m3.natAbs + m2.natAbs + m1.natAbs + p1.natAbs + p2.natAbs) : Int) < 64 → ∃ t,
    exec (.llnTxFirWrite n v) s = .next t ∧ t.lane n = s.lane n ∧ t.rdb (pgLln n) LLN_STATUS_fir_refused = true) ∧
  (∀ s n v, s.dom = .run → s.rdb (pgLln n) LLN_ADAPT_CFG_freeze = true → getBits v 14 8 ≤ 63 → ∃ t, exec (.llnRxEqWrite n v) s = .next t ∧ t.rd (pgLln
    n) LLN_RX_EQ_ctle = getBits v 3 0 ∧ t.rd (pgLln n) LLN_RX_EQ_dfe = getBits v 14 8 ∧ t.rd (pgLln n) LLN_RX_EQ_phase = getBits v 21 16 ∧ t.rd (pgLln
    n) LLN_RX_EQ_mlse = getBits v 24 24) ∧
  (∀ s n v, s.dom = .run → s.rdb (pgLln n) LLN_ADAPT_CFG_freeze = false → ∃ t, exec (.llnRxEqWrite n v) s = .next t ∧ (∀ pg f, t.rd pg f = s.rd pg f)) ∧
  (∀ s n, s.dom = .run → n < 256 → s.adaptReady n = true → s.regionSpeaks (laneRegion n) = true → ∃ t, exec (.adaptationDone n) s = .next t ∧ t.rdb
    (pgLln n) LLN_STATUS_trained = true ∧ t.hasEvt (pgLln n) llnTrained = true)

/-- R100: the next ready lane of the block in rotation starts its trial and the other ready lanes wait. R101, R102, R105: after 64
codewords a trial whose corrected symbols, times 16, are at most the baseline is kept, and any other is undone; each is counted. -/
def Obligations.LaneTrials : Prop :=
  (∀ s B elapsed n, s.dom = .run → B < 64 → (List.range 4).all (fun j => !s.rdb (pgLln (4 * B + j)) LLN_ADAPT_STATUS_trial_active) = true →
    ((List.range 4).map (fun i => 4 * B + ((s.blk.get {} B).trialLast + 1 + i) % 4)).find? (fun k => s.trialReady k (bit elapsed (k % 4))) = some n →
    ∃ t, exec (.trialStart B elapsed) s = .next t ∧ t.rdb (pgLln n) LLN_ADAPT_STATUS_trial_active = true ∧ t.rd (pgLln n) (LLN_TRIAL_CNT_count 0) =
    (s.rd (pgLln n) (LLN_TRIAL_CNT_count 0) + 1) % 2 ^ 32 ∧ (t.lane n).savedCtle = s.rd (pgLln n) LLN_RX_EQ_ctle ∧ (t.lane n).savedDfe = s.rd (pgLln
    n) LLN_RX_EQ_dfe ∧ (t.lane n).savedPhase = s.rd (pgLln n) LLN_RX_EQ_phase ∧ (t.lane n).savedMlse = s.rd (pgLln n) LLN_RX_EQ_mlse ∧ (t.blk.get {}
    B).trialLast = n % 4 ∧ (∀ k, k / 4 = B → t.rdb (pgLln k) LLN_ADAPT_STATUS_waiting = (decide (k ≠ n) && s.trialReady k (bit elapsed (k % 4))))) ∧
  (∀ s n, s.dom = .run → n < 256 → s.rdb (pgLln n) LLN_ADAPT_STATUS_trial_active = true → (s.lane n).dwellCw = 64 → 16 * (s.lane n).dwellSyms ≤
    (s.lane n).baseline → ∃ t, exec (.trialDwellEnd n) s = .next t ∧ t.rdb (pgLln n) LLN_ADAPT_STATUS_trial_active = false ∧ t.rd (pgLln n)
    (LLN_TRIAL_CNT_count trialKept) = (s.rd (pgLln n) (LLN_TRIAL_CNT_count trialKept) + 1) % 2 ^ 32 ∧ t.rd (pgLln n) LLN_RX_EQ_ctle = s.rd (pgLln n)
    LLN_RX_EQ_ctle ∧ t.rd (pgLln n) LLN_RX_EQ_dfe = s.rd (pgLln n) LLN_RX_EQ_dfe ∧ t.rd (pgLln n) LLN_RX_EQ_phase = s.rd (pgLln n) LLN_RX_EQ_phase ∧
    t.rd (pgLln n) LLN_RX_EQ_mlse = s.rd (pgLln n) LLN_RX_EQ_mlse) ∧
  (∀ s n, s.dom = .run → n < 256 → s.rdb (pgLln n) LLN_ADAPT_STATUS_trial_active = true → (s.lane n).dwellCw = 64 → (s.lane n).baseline < 16 * (s.lane
    n).dwellSyms → ∃ t, exec (.trialDwellEnd n) s = .next t ∧ t.rdb (pgLln n) LLN_ADAPT_STATUS_trial_active = false ∧ t.rd (pgLln n)
    (LLN_TRIAL_CNT_count trialRate) = (s.rd (pgLln n) (LLN_TRIAL_CNT_count trialRate) + 1) % 2 ^ 32 ∧ t.rd (pgLln n) LLN_RX_EQ_ctle = (s.lane
    n).savedCtle % 2 ^ LLN_RX_EQ_ctle.width ∧ t.rd (pgLln n) LLN_RX_EQ_dfe = (s.lane n).savedDfe % 2 ^ LLN_RX_EQ_dfe.width ∧ t.rd (pgLln n)
    LLN_RX_EQ_phase = (s.lane n).savedPhase % 2 ^ LLN_RX_EQ_phase.width ∧ t.rd (pgLln n) LLN_RX_EQ_mlse = (s.lane n).savedMlse % 2 ^
    LLN_RX_EQ_mlse.width)

/-- R99, R103, R112, R113, R116: what signal detection, the locks, deskew and the PRBS test show on a line lane, and the events they
record. -/
def Obligations.LaneLocks : Prop :=
  (∀ s n, s.dom = .run → n < 256 → s.laneRuns n = true → s.rdb (pgLln n) LLN_STATUS_sig_det = true → s.regionSpeaks (laneRegion n) = true → ∃ t, exec
    (.los (.line n)) s = .next t ∧ t.rdb (pgLln n) LLN_STATUS_sig_det = false ∧ t.hasEvt (pgLln n) llnLos = true ∧ t.rdb (pgLln n)
    LLN_ADAPT_STATUS_trial_active = false) ∧
  (∀ s n, s.dom = .run → s.laneRuns n = true → ∃ t, exec (.signalDetect (.line n)) s = .next t ∧ t.rdb (pgLln n) LLN_STATUS_sig_det = true) ∧
  (∀ s n, s.dom = .run → s.laneRuns n = true → ∃ t, exec (.cdrLock n) s = .next t ∧ t.rdb (pgLln n) LLN_STATUS_cdr_lock = true ∧ (∀ pg f, pg ≠ pgLln n
    → f.off * 8 + f.lo < 8192 → t.rd pg f = s.rd pg f)) ∧
  (∀ s n, s.dom = .run → n < 256 → s.laneRuns n = true → s.rdb (pgLln n) LLN_STATUS_cdr_lock = true → s.regionSpeaks (laneRegion n) = true → ∃ t, exec
    (.cdrUnlock n) s = .next t ∧ t.rdb (pgLln n) LLN_STATUS_cdr_lock = false ∧ t.hasEvt (pgLln n) llnCdrUnlock = true ∧ t.rdb (pgLln n)
    LLN_ADAPT_STATUS_trial_active = false) ∧
  (∀ s n, s.dom = .run → s.laneRuns n = true → s.rdb (pgLln n) LLN_STATUS_trained = true → s.rdb (pgLln n) LLN_STATUS_cw_lock = false → ∃ t, exec
    (.cwLock n) s = .next t ∧ t.rdb (pgLln n) LLN_STATUS_cw_lock = true ∧ t.rd (pgLln n) LLN_ADAPT_STATUS_margin = 0) ∧
  (∀ s n lost i, s.dom = .run → n < 256 → s.laneRuns n = true → i < 4 → bit lost i = true → bit (s.lane n).instLock i = true → s.regionSpeaks
    (laneRegion n) = true → ∃ t, exec (.cwUnlock n lost) s = .next t ∧ t.rdb (pgLln n) LLN_STATUS_cw_lock = false ∧ t.hasEvt (pgLln n) llnCwUnlock =
    true ∧ t.rdb (pgLln n) LLN_ADAPT_STATUS_trial_active = false) ∧
  (∀ s n lag, s.dom = .run → n < 256 → s.laneIf n = [n] → s.laneRuns n = true → s.rdb (pgLln n) LLN_STATUS_cw_lock = true → lag < 2048 →
    s.regionSpeaks (laneRegion n) = true → ∃ t, exec (.deskewMeasure n [lag]) s = .next t ∧ t.rd (pgLln n) LLN_SKEW_lag = lag ∧ t.rdb (pgLln n)
    LLN_SKEW_valid = true ∧ (skewLimit < lag → t.hasEvt (pgLln n) llnSkewExceeded = true)) ∧
  (∀ s n levels, s.dom = .run → s.laneRuns n = true → (s.lane n).chkEff = true → (s.laneCheck n levels).1.locked = true → ∃ t, exec (.prbsLock (.line
    n) levels) s = .next t ∧ t.rdb (pgLln n) LLN_STATUS_prbs_lock = true ∧ t.rd (pgLln n) LLN_PRBS_ERR_errors = (s.rd (pgLln n) LLN_PRBS_ERR_errors +
    (s.laneCheck n levels).2.1) % 2 ^ 64) ∧
  (∀ s n levels, s.dom = .run → n < 256 → s.laneRuns n = true → (s.lane n).chkEff = true → (s.laneCheck n levels).2.2 = true → s.regionSpeaks
    (laneRegion n) = true → ∃ t, exec (.prbsLockLost (.line n) levels) s = .next t ∧ t.rdb (pgLln n) LLN_STATUS_prbs_lock = (s.laneCheck n
    levels).1.locked ∧ t.hasEvt (pgLln n) llnPrbsLockLost = true ∧ t.rd (pgLln n) LLN_PRBS_ERR_errors = (s.rd (pgLln n) LLN_PRBS_ERR_errors +
    (s.laneCheck n levels).2.1) % 2 ^ 64) ∧
  (∀ s n, s.dom = .run → (s.lane n).genEff = true → ∃ t, exec (.prbsInject n) s = .next t ∧ .prbsBitInverted n ∈ t.out ∧ (∀ pg f, t.rd pg f = s.rd pg
    f))

/-- R107, R108: for every codeword FEC_CW rises, and exactly one of the bins FEC_HIST0–15 and FEC_UNCORR_CW, as the lane's decoder finds
(16 stands for a codeword that it cannot correct). R109: FEC_SNAP copies every live counter and bin and counts in FEC_SNAP_SEQ. -/
def Obligations.LaneCodewords : Prop :=
  (∀ s n x m k, s.dom = .run → s.laneDecodes n = true → (s.cwWord n x).length = 544 → (rsDecode (s.cwWord n x)).2 = k → ∃ t, exec (.codewordDecode n x
    m) s = .next t ∧ t.rd (fecLive n) FEC_CW = (s.rd (fecLive n) FEC_CW + 1) % 2 ^ FEC_CW.width ∧ (∀ j, j < 16 → t.rd (fecLive n) (FEC_HIST j) = (s.rd
    (fecLive n) (FEC_HIST j) + (if j = k then 1 else 0)) % 2 ^ (FEC_HIST j).width) ∧ t.rd (fecLive n) FEC_UNCORR_CW = (s.rd (fecLive n) FEC_UNCORR_CW
    + (if k = 16 then 1 else 0)) % 2 ^ FEC_UNCORR_CW.width) ∧
  (∀ s n, s.dom = .run → ∃ t, exec (.fecSnap n) s = .next t ∧ fecCounters.all (fun f => decide (t.rd (pgFec n) f = s.rd (fecLive n) f % 2 ^ f.width))
    = true ∧ t.rd (pgFec n) FEC_SNAP_SEQ_seq = (s.rd (pgFec n) FEC_SNAP_SEQ_seq + 1) % 2 ^ 32)

/-! ### OTU framing (file 04) -/

/-- R131 to R133, R136, R144: one received OTUC frame of a running slice against the frame alignment machine of Table OTU-4, the
multiframe machine and the BIP-8 count. -/
def Obligations.OtuFrameAlignment : Prop :=
  (∀ s d f, s.dom = .run → d < 1024 → s.sliceRuns d = true → s.datapath (sliceRegion d) = true → s.rd (pgOtu d) OTU_STATUS_fstate = fSearch →
    s.sliceHeld d = false → s.sliceBlocked d = false → fasCorrect (s.ifF d OTU_IF.fas_bytes) f.fas = true → 2 ≤ s.ifF d OTU_IF.n_fas → ∃ t, exec
    (.otucFrame d f) s = .next t ∧ t.rd (pgOtu d) OTU_STATUS_fstate = fPresync ∧ (t.slice d).c = 1) ∧
  (∀ s d f, s.dom = .run → d < 1024 → s.sliceRuns d = true → s.datapath (sliceRegion d) = true → s.rd (pgOtu d) OTU_STATUS_fstate = fSearch →
    s.sliceHeld d = false → s.sliceBlocked d = false → fasCorrect (s.ifF d OTU_IF.fas_bytes) f.fas = true → s.ifF d OTU_IF.n_fas ≤ 1 → s.regionSpeaks
    (sliceRegion d) = true → ∃ t, exec (.otucFrame d f) s = .next t ∧ t.rd (pgOtu d) OTU_STATUS_fstate = fSync ∧ t.rdb (pgOtu d) OTU_STATUS_in_frame =
    true ∧ t.hasEvt (pgOtu d) otuInFrame = true) ∧
  (∀ s d f, s.dom = .run → d < 1024 → s.sliceRuns d = true → s.datapath (sliceRegion d) = true → s.rd (pgOtu d) OTU_STATUS_fstate = fSearch →
    fasCorrect (s.ifF d OTU_IF.fas_bytes) f.fas = false → ∃ t, exec (.otucFrame d f) s = .next t ∧ t.rd (pgOtu d) OTU_STATUS_fstate = fSearch) ∧
  (∀ s d f, s.dom = .run → d < 1024 → s.sliceRuns d = true → s.datapath (sliceRegion d) = true → s.rd (pgOtu d) OTU_STATUS_fstate = fPresync →
    fasCorrect (s.ifF d OTU_IF.fas_bytes) f.fas = true → s.ifF d OTU_IF.n_fas ≤ (s.slice d).c + 1 → ∃ t, exec (.otucFrame d f) s = .next t ∧ t.rd
    (pgOtu d) OTU_STATUS_fstate = fSync ∧ t.rdb (pgOtu d) OTU_STATUS_in_frame = true ∧ t.hasEvt (pgOtu d) otuInFrame = true) ∧
  (∀ s d f, s.dom = .run → d < 1024 → s.sliceRuns d = true → s.datapath (sliceRegion d) = true → s.rd (pgOtu d) OTU_STATUS_fstate = fPresync →
    fasCorrect (s.ifF d OTU_IF.fas_bytes) f.fas = false → ∃ t, exec (.otucFrame d f) s = .next t ∧ t.rd (pgOtu d) OTU_STATUS_fstate = fSearch ∧ t.rdb
    (pgOtu d) OTU_STATUS_in_frame = false ∧ t.rdb (pgOtu d) OTU_STATUS_im = false ∧ t.rdb (pgOtu d) OTU_STATUS_bonded = false ∧ t.rd (pgOtu d)
    OTU_OOF_CNT = (s.rd (pgOtu d) OTU_OOF_CNT + 1) % 2 ^ 32 ∧ t.hasEvt (pgOtu d) otuOof = true) ∧
  (∀ s d f, s.dom = .run → d < 1024 → s.sliceRuns d = true → s.datapath (sliceRegion d) = true → s.rd (pgOtu d) OTU_STATUS_fstate = fSync → fasCorrect
    (s.ifF d OTU_IF.fas_bytes) f.fas = false → s.ifF d OTU_IF.m_fas ≤ (s.slice d).e + 1 → ∃ t, exec (.otucFrame d f) s = .next t ∧ t.rd (pgOtu d)
    OTU_STATUS_fstate = fSearch ∧ t.rdb (pgOtu d) OTU_STATUS_in_frame = false ∧ t.rdb (pgOtu d) OTU_STATUS_im = false ∧ t.rdb (pgOtu d)
    OTU_STATUS_bonded = false ∧ t.rd (pgOtu d) OTU_OOF_CNT = (s.rd (pgOtu d) OTU_OOF_CNT + 1) % 2 ^ 32 ∧ t.hasEvt (pgOtu d) otuOof = true ∧ t.rd
    (pgOtu d) OTU_FAS_ERR = (s.rd (pgOtu d) OTU_FAS_ERR + 1) % 2 ^ 32) ∧
  (∀ s d f v, s.dom = .run → d < 1024 → s.sliceRuns d = true → s.datapath (sliceRegion d) = true → s.rd (pgOtu d) OTU_STATUS_fstate = fSync →
    fasCorrect (s.ifF d OTU_IF.fas_bytes) f.fas = true → s.rdb (pgOtu d) OTU_STATUS_im = true → f.mfas = (s.slice d).mfExp → v = bipViolations
    (s.point (secPoint d)).bips [f.bip] → ∃ t, exec (.otucFrame d f) s = .next t ∧ t.rd (pgOtu d) OTU_STATUS_fstate = fSync ∧ t.rdb (pgOtu d)
    OTU_STATUS_im = true ∧ (t.slice d).mfExp = (f.mfas + 1) % 256 ∧ t.rd (pgOtu d) OTU_BIP_BITS = (s.rd (pgOtu d) OTU_BIP_BITS + v) % 2 ^ 64) ∧
  (∀ s d f, s.dom = .run → d < 1024 → s.sliceRuns d = true → s.datapath (sliceRegion d) = true → s.rd (pgOtu d) OTU_STATUS_fstate = fSync → fasCorrect
    (s.ifF d OTU_IF.fas_bytes) f.fas = true → s.rdb (pgOtu d) OTU_STATUS_im = true → f.mfas ≠ (s.slice d).mfExp → s.ifF d OTU_IF.m_mf ≤ (s.slice
    d).mfF + 1 → ∃ t, exec (.otucFrame d f) s = .next t ∧ t.rdb (pgOtu d) OTU_STATUS_im = false ∧ t.rdb (pgOtu d) OTU_STATUS_bonded = false ∧ t.rd
    (pgOtu d) OTU_MFAS_ERR = (s.rd (pgOtu d) OTU_MFAS_ERR + 1) % 2 ^ 32 ∧ t.hasEvt (pgOtu d) otuMf = true) ∧
  (∀ s d f, s.dom = .run → d < 1024 → s.sliceRuns d = true → s.datapath (sliceRegion d) = true → s.rd (pgOtu d) OTU_STATUS_fstate = fSync → fasCorrect
    (s.ifF d OTU_IF.fas_bytes) f.fas = true → s.rdb (pgOtu d) OTU_STATUS_im = false → (s.slice d).mfFirst = false → f.mfas = (s.slice d).mfExp → s.ifF
    d OTU_IF.n_mf ≤ (s.slice d).mfC + 1 → ∃ t, exec (.otucFrame d f) s = .next t ∧ t.rdb (pgOtu d) OTU_STATUS_im = true ∧ t.hasEvt (pgOtu d) otuMf =
    true)

/-- R137, R138, R140, R141, R149: the integrators' ends declare and clear dLOF, dLOM and dLOM_Cn with their events, and a bond-aligned
member enters the bond. -/
def Obligations.OtuIntegrators : Prop :=
  (∀ s d, s.dom = .run → d < 1024 → s.sliceRuns d = true → (s.slice d).chgAt ≠ s.dpCycle + 1 → s.rdb (pgOtu d) OTU_STATUS_in_frame = false → intEnd
    (s.ifF d OTU_IF.lof_ms) ≤ s.rd (pgOtu d) OTU_LOF_INT_dp_cycles + 1 → s.rdb (pgOtu d) OTU_STATUS_dlof = false → s.regionSpeaks (sliceRegion d) =
    true → ∃ t, exec (.lofOn d) s = .next t ∧ t.rdb (pgOtu d) OTU_STATUS_dlof = true ∧ t.hasEvt (pgOtu d) otuLofOn = true ∧ t.rd (pgOtu d)
    OTU_LOF_INT_dp_cycles = intEnd (s.ifF d OTU_IF.lof_ms)) ∧
  (∀ s d, s.dom = .run → d < 1024 → s.sliceRuns d = true → (s.slice d).chgAt ≠ s.dpCycle + 1 → s.rdb (pgOtu d) OTU_STATUS_in_frame = true → intEnd
    (s.ifF d OTU_IF.lof_ms) ≤ (s.slice d).ifRun + 1 → s.rdb (pgOtu d) OTU_STATUS_dlof = true → s.regionSpeaks (sliceRegion d) = true → ∃ t, exec
    (.lofOff d) s = .next t ∧ t.rdb (pgOtu d) OTU_STATUS_dlof = false ∧ t.hasEvt (pgOtu d) otuLofOff = true ∧ t.rd (pgOtu d) OTU_LOF_INT_dp_cycles =
    0) ∧
  (∀ s d, s.dom = .run → d < 1024 → s.sliceRuns d = true → s.rdb (pgOtu d) OTU_STATUS_in_frame = true → s.rdb (pgOtu d) OTU_STATUS_im = false →
    (s.slice d).chgAt ≠ s.dpCycle + 1 → intEnd (s.ifF d OTU_IF.lom_ms) ≤ (s.slice d).lomInt + 1 → s.rdb (pgOtu d) OTU_STATUS_dlom = false →
    s.regionSpeaks (sliceRegion d) = true → ∃ t, exec (.lomOn d) s = .next t ∧ t.rdb (pgOtu d) OTU_STATUS_dlom = true ∧ t.hasEvt (pgOtu d) otuLomOn =
    true) ∧
  (∀ s d, s.dom = .run → d < 1024 → s.sliceRuns d = true → s.rdb (pgOtu d) OTU_STATUS_im = true → (s.slice d).chgAt ≠ s.dpCycle + 1 → intEnd (s.ifF d
    OTU_IF.lom_ms) ≤ (s.slice d).imRun + 1 → s.rdb (pgOtu d) OTU_STATUS_dlom = true → s.regionSpeaks (sliceRegion d) = true → ∃ t, exec (.lomOff d) s
    = .next t ∧ t.rdb (pgOtu d) OTU_STATUS_dlom = false ∧ t.hasEvt (pgOtu d) otuLomOff = true) ∧
  (∀ s d, s.dom = .run → d < 1024 → s.sliceRuns d = true → s.sliceMember d = true → s.sliceLead d = d → (s.slice d).misaligned = true → (s.slice
    d).chgAt ≠ s.dpCycle + 1 → intEnd (s.ifF d OTU_IF.lom_ms) ≤ (s.slice d).bondInt + 1 → s.rdb (pgOtu d) OTU_STATUS_dlom_cn = false → s.regionSpeaks
    (sliceRegion d) = true → ∃ t, exec (.dlomCnOn d) s = .next t ∧ t.rdb (pgOtu d) OTU_STATUS_dlom_cn = true ∧ t.hasEvt (pgOtu d) otuBond = true) ∧
  (∀ s d, s.dom = .run → d < 1024 → s.sliceRuns d = true → s.sliceMember d = true → s.sliceLead d = d → (s.slice d).misaligned = false → (s.slice
    d).chgAt ≠ s.dpCycle + 1 → intEnd (s.ifF d OTU_IF.lom_ms) ≤ (s.slice d).alRun + 1 → s.rdb (pgOtu d) OTU_STATUS_dlom_cn = true → s.regionSpeaks
    (sliceRegion d) = true → ∃ t, exec (.dlomCnOff d) s = .next t ∧ t.rdb (pgOtu d) OTU_STATUS_dlom_cn = false ∧ t.hasEvt (pgOtu d) otuBond = true) ∧
  (∀ s d, s.dom = .run → d < 1024 → s.sliceRuns d = true → s.sliceMember d = true → s.rdb (pgOtu d) OTU_STATUS_im = true → (s.slice d).aligned = true
    → s.rdb (pgOtu d) OTU_STATUS_bonded = false → ∃ t, exec (.bondEnter d) s = .next t ∧ t.rdb (pgOtu d) OTU_STATUS_bonded = true)

/-- R128, R129: a FlexO frame moves dGIDM and dRPF by a persistence of three frames and holds the slice in SEARCH under Table OTU-3. R150
to R152: the OTUCn sends a frame of each member with the MFAS count of the lead, and CORRUPT_FAS arms corrupted frames. -/
def Obligations.OtuFlexoAndTransmit : Prop :=
  (∀ s d f k lock, s.dom = .run → k = (s.findInst d f).streamSlice d → k < 1024 → s.sliceRuns k = true → s.datapath (sliceRegion k) = true → lock =
    (f.omfi && bit (s.lane (sliceLane k)).instLock (k % 4)) → ∃ t, exec (.flexoFrame d f) s = .next t ∧ t.rdb (pgOtu k) OTU_STATUS_flexo_lock = lock ∧
    t.rdb (pgOtu k) OTU_STATUS_dgidm = (if lock = true then (persist 3 (s.rdb (pgOtu k) OTU_STATUS_dgidm) (decide (s.ifF k OTU_IF.gid_chk = 1) &&
    decide (f.gid ≠ s.ifF k OTU_IF.gid)) (s.slice k).gidRun).1 else s.rdb (pgOtu k) OTU_STATUS_dgidm) ∧ t.rdb (pgOtu k) OTU_STATUS_drpf = (if lock =
    true then (persist 3 (s.rdb (pgOtu k) OTU_STATUS_drpf) f.rpf (s.slice k).rpfRun).1 else s.rdb (pgOtu k) OTU_STATUS_drpf) ∧ (t.sliceHeld k = true →
    t.rd (pgOtu k) OTU_STATUS_fstate = fSearch)) ∧
  (∀ s lead x gcc, s.dom = .run → lead < 1024 → s.sliceMember lead = true → s.sliceLead lead = lead → s.region (sliceRegion lead) ≠ rgnReset → s.mode
    ≠ modeCall → s.mode ≠ modeDark → s.otucMembers lead = [lead] → s.rdb (pgOtu lead) PAGE_CTRL_run = true → (s.gccOut lead).1 = gcc → ∃ t, exec
    (.otucTxFrame lead x) s = .next t ∧ t.out.take 1 = [.otucFrame lead (s.slicePos lead + 1) (s.ifF lead OTU_IF.gid) (s.otucRpf lead) (s.otucRow1
    lead (s.slice lead).txMfas (gcc.getD 0 [0, 0])) (s.otucAis lead)] ∧ (t.slice lead).txMfas = ((s.slice lead).txMfas + 1) % 256 ∧ (t.point (secPoint
    lead)).beiPend = 0) ∧
  (∀ s lead x, s.dom = .run → lead < 1024 → s.sliceMember lead = true → s.sliceLead lead = lead → s.region (sliceRegion lead) ≠ rgnReset → s.mode ≠
    modeCall → s.mode ≠ modeDark → (s.otucMembers lead).any (fun d => s.rdb (pgOtu d) PAGE_CTRL_run) = true → ∃ t, exec (.otucTxFrame lead x) s =
    .next t ∧ (t.slice lead).txMfas = ((s.slice lead).txMfas + 1) % 256 ∧ (∀ d, d ∈ s.otucMembers lead → s.rdb (pgOtu d) PAGE_CTRL_run = true → ∃ row,
    .otucFrame d (s.slicePos d + 1) (s.ifF d OTU_IF.gid) (s.otucRpf lead) row (s.otucAis d) ∈ t.out ∧ row.getD 6 256 = (s.slice lead).txMfas) ∧ (∀ d,
    d ∈ s.otucMembers lead → s.rdb (pgOtu d) PAGE_CTRL_run = false → .unusedInstance d (s.slicePos d + 1) (s.ifF d OTU_IF.gid) (s.otucRpf lead) ∈
    t.out)) ∧
  (∀ s lead x, s.dom = .run → lead < 1024 → s.sliceMember lead = true → s.sliceLead lead = lead → s.region (sliceRegion lead) ≠ rgnReset → s.mode ≠
    modeCall → s.mode ≠ modeDark → s.otucMembers lead = [lead] → s.rdb (pgOtu lead) PAGE_CTRL_run = false → ∃ t, exec (.otucTxFrame lead x) s = .next
    t ∧ t.out.take 1 = [.unusedInstance lead (s.slicePos lead + 1) (s.ifF lead OTU_IF.gid) (s.otucRpf lead)]) ∧
  (∀ s d, s.dom = .run → ∃ t, exec (.corruptFas d) s = .next t ∧ (t.slice d).corruptLeft = max 1 (s.rd (pgOtu d) OTU_TX_FORCE_fas) ∧ (∀ pg f, t.rd pg
    f = s.rd pg f))

/-! ### ODU layer (file 05) -/

/-- R17: a block restart forces what the block's OTUCn send and returns its framers to SEARCH; the forcing of an OTUCn ends when every
running member is in frame, or at the timeout. -/
def Obligations.BlockRestarts : Prop :=
  (∀ s B cls, s.dom = .run → B < 64 → s.datapath (B / 8) = true → ∃ t, exec (.blockRestart B cls) s = .next t ∧ (t.blk.get {} B).forcedLeads =
    s.blockLeads B ∧ (List.range 16).all (fun k => decide (t.rd (pgOtu (16 * B + k)) OTU_STATUS_fstate = fSearch) && !t.rdb (pgOtu (16 * B + k))
    OTU_STATUS_in_frame && !t.rdb (pgOtu (16 * B + k)) OTU_STATUS_im) = true ∧ (∀ pg, t.pageOwner pg = s.pageOwner pg)) ∧
  (∀ s lead, s.dom = .run → (s.blk.get {} (lead / 16)).forcedLeads.contains lead = true → (s.runningMembers lead).all (fun d => s.rdb (pgOtu d)
    OTU_STATUS_in_frame) = true → ∃ t, exec (.blockRestartRelease lead) s = .next t ∧ (t.blk.get {} (lead / 16)).forcedLeads = (s.blk.get {} (lead /
    16)).forcedLeads.filter (fun d => decide (d ≠ lead)) ∧ (∀ B, B ≠ lead / 16 → t.blk.get {} B = s.blk.get {} B)) ∧
  (∀ s lead, s.dom = .run → (s.blk.get {} (lead / 16)).forcedLeads.contains lead = true → ∃ t, exec (.blockRestartTimeout lead) s = .next t ∧
    (t.blk.get {} (lead / 16)).forcedLeads = (s.blk.get {} (lead / 16)).forcedLeads.filter (fun d => decide (d ≠ lead)) ∧ (∀ B, B ≠ lead / 16 →
    t.blk.get {} B = s.blk.get {} B))

/-- R172, R176, R179, R184, R185: an ODU frame at an ingress context and from an egress context, and the context defects. -/
def Obligations.OduContexts : Prop :=
  (∀ s B e f p x m pe level mode, s.dom = .run → B < 64 → s.ctxB B 0 e CTX.valid = true → s.datapath (B / 8) = true → s.ctxF B 0 e CTX.stage = 0 →
    (s.ctx B 0 e).fill = false → s.ctxPoints B 0 e = [(m, pe, level, mode)] → f.pos = [p] → x = (s.point m).stats.getD 0 {} → ∃ t, exec (.oduFrameSink
    B e f) s = .next t ∧ t.mpBit B pe MP_STATUS.dais = (persist 3 x.ais (decide ((layerAt p level).stat = 7)) x.rAis).1 ∧ t.mpBit B pe MP_STATUS.doci
    = (persist 3 x.oci (decide ((layerAt p level).stat = 6)) x.rOci).1 ∧ t.mpBit B pe MP_STATUS.dlck = (persist 3 x.lck (decide ((layerAt p
    level).stat = 5)) x.rLck).1) ∧
  (∀ s B e f m pe level mode, s.dom = .run → B < 64 → s.ctxB B 0 e CTX.valid = true → s.datapath (B / 8) = true → (s.ctx B 0 e).fill = true →
    s.ctxPoints B 0 e = [(m, pe, level, mode)] → s.pointSilent B pe = false → ∃ t, exec (.oduFrameSink B e f) s = .next t ∧ (t.point m).neEb = satAdd
    32 (s.point m).neEb 1 ∧ (t.point m).neBip = satAdd 32 (s.point m).neBip 8) ∧
  (∀ s B e, s.dom = .run → B < 64 → s.regionSpeaks (B / 8) = true → s.ctxB B 0 e CTX.valid = true → s.ctxF B 0 e CTX.stage ≠ 0 → (s.ctx B 0 e).fill =
    false → ((s.ctx B 0 e).mfIm = false ∨ (s.ctx B 0 e).fst ≠ 2) → ctxIntEnd ≤ (s.ctx B 0 e).lo.n + 1 → s.mpBit B (s.pmOf B 0 e).2 MP_STATUS.dloflom =
    false → ∃ t, exec (.dloflomOn B e false) s = .next t ∧ t.mpBit B (s.pmOf B 0 e).2 MP_STATUS.dloflom = true ∧ t.hasEvt (pgMpt B) 0 = true ∧
    t.hasEvt (pgOdi B) 3 = true) ∧
  (∀ s B e, s.dom = .run → B < 64 → s.regionSpeaks (B / 8) = true → s.ctxB B 0 e CTX.valid = true → s.ctxF B 0 e CTX.stage ≠ 0 → (s.ctx B 0 e).fill =
    false → (s.ctx B 0 e).fst = 2 → (s.ctx B 0 e).mfIm = true → ctxIntEnd ≤ (s.ctx B 0 e).lo.ok + 1 → s.mpBit B (s.pmOf B 0 e).2 MP_STATUS.dloflom =
    true → ∃ t, exec (.dloflomOff B e false) s = .next t ∧ t.mpBit B (s.pmOf B 0 e).2 MP_STATUS.dloflom = false ∧ t.hasEvt (pgMpt B) 0 = true) ∧
  (∀ s B e x, s.dom = .run → B < 64 → s.ctxB B 1 e CTX.valid = true → s.datapath (B / 8) = true → s.forcedKind B e ≠ 0 → ∃ t, exec (.oduFrameSource B
    e x) s = .next t ∧ (∃ f, t.out = [.oduFrame B e f] ∧ f.opu = s.forcedKind B e ∧ f.mfas = (s.ctx B 1 e).txMfas) ∧ (t.ctx B 1 e).txMfas = ((s.ctx B
    1 e).txMfas + 1) % 256) ∧
  (∀ s B dir e, s.dom = .run → B < 64 → s.regionSpeaks (B / 8) = true → s.ctxB B dir e CTX.valid = true → s.ctxStatusB B dir e CTX_STATUS.forced =
    false → ∃ t, exec (.contextForcedAis B dir e) s = .next t ∧ t.ctxStatusB B dir e CTX_STATUS.forced = true ∧ t.hasEvt (pgOd B dir) 2 = true)

/-- R186, R188, R191, R194, R423: the second boundary, the PM store, and the episode tracker. -/
def Obligations.SecondsAndEpisodes : Prop :=
  (∀ s, s.dom = .run → s.tim.setSec = none → s.tim.stepDue = none → ∃ t, exec (.secondBoundary) s = .next t ∧ t.tb.sec = (s.tb.sec + 1) % 2 ^ 48 ∧
    t.tb.ns = 0 ∧ t.secCount = s.secCount + 1) ∧
  (∀ s f rest, s.dom = .run → s.pmPend = f :: rest → ∃ t, exec (.pmSecond) s = .next t ∧ t.pmPend = rest ∧ t.rd pgWng WNG_PMS_LAST_sec = f.sec % 2 ^
    48 ∧ t.hasEvt pgWng 24 = true) ∧
  (∀ s r c q, s.dom = .run → r < 8 → s.regionSpeaks r = true → (s.epi.get {} r).queue = c :: q → c.on = true → s.epiFind r c = none → (s.epi.get {}
    r).loose.any (fun y => decide (epiKey y = epiKey c)) = false → s.rdb (pgEpi r) EPI_STATUS_aggregated = false → s.epiOcc r + 1 < 8193 → ∃ t, exec
    (.episodeChange r) s = .next t ∧ (t.epi.get {} r).queue = q ∧ t.rd (pgEpi r) EPI_NEXT_ID_id = (s.rd (pgEpi r) EPI_NEXT_ID_id + 1) % 2 ^ 32 ∧ t.rd
    (pgEpi r) EPI_STATUS_tracked = (s.rd (pgEpi r) EPI_STATUS_tracked + 1) % 2 ^ 14 ∧ t.hasEvt (pgEpi r) 0 = true) ∧
  (∀ s r c q e, s.dom = .run → r < 8 → s.regionSpeaks r = true → (s.epi.get {} r).queue = c :: q → c.on = false → s.epiFind r c = some e → ∃ t, exec
    (.episodeChange r) s = .next t ∧ (t.epi.get {} r).queue = q ∧ t.entry (pgEpi r) T_EPI_OPEN e = 0 ∧ t.hasEvt (pgEpi r) 1 = true) ∧
  (∀ s r, s.dom = .run → r < 8 → s.regionSpeaks r = true → s.rdb (pgEpi r) EPI_STATUS_aggregated = true → s.epiOcc r < 7168 → (s.epi.get {} r).queue =
    [] → ∃ t, exec (.aggregatedOff r) s = .next t ∧ t.rdb (pgEpi r) EPI_STATUS_aggregated = false ∧ t.hasEvt (pgEpi r) 3 = true ∧ (t.epi.get {}
    r).loose = [])

/-! ### Client mapping (file 06) -/

/-- R205 to R209: what a GMP or AMP period sends, and which justification a received period uses. -/
def Obligations.MappingPeriods : Prop :=
  (∀ s B e mux data g acc, s.dom = .run → s.gmpMap B 1 e mux = some g → s.datapath (B / 8) = true → s.genRole B e ≠ some mux → acc = (s.gmp (gmpKey B
    1 e mux)).res + ((s.gmp (gmpKey B 1 e mux)).frac + g.bytesQ 0) / 2 ^ 40 → ∃ t, exec (.gmpMapPeriod B e mux data) s = .next t ∧ (∃ words, t.out =
    [.gmpPeriod B e mux (acc / g.w) (acc - g.w * (acc / g.w)) (jcCm (s.gmp (gmpKey B 1 e mux)).cPrev (acc / g.w) ++ jcC8d (acc - g.w * (acc / g.w)))
    words] ∧ (mux = true → words = gmpFill g.w g.pm (acc / g.w) g.pm (data.take (g.w * (acc / g.w))))) ∧ (t.gmp (gmpKey B 1 e mux)).res = acc - g.w *
    (acc / g.w) ∧ (t.gmp (gmpKey B 1 e mux)).cPrev = some (acc / g.w)) ∧
  (∀ s B e mux data g, s.dom = .run → s.gmpMap B 1 e mux = some g → s.datapath (B / 8) = true → 0 < g.w → ∃ t, exec (.gmpMapPeriod B e mux data) s =
    .next t ∧ (∃ cm c8d words, t.out = [.gmpPeriod B e mux cm c8d (jcCm (s.gmp (gmpKey B 1 e mux)).cPrev cm ++ jcC8d c8d) words] ∧ c8d < g.w) ∧ (t.gmp
    (gmpKey B 1 e mux)).frac < 2 ^ 40) ∧
  (∀ s B e mux rx g cm, s.dom = .run → s.gmpMap B 0 e mux = some g → s.datapath (B / 8) = true → readCm (s.gmp (gmpKey B 0 e mux)).cPrev rx.jc = some
    cm → g.lo ≤ cm → cm ≤ g.hi → ∃ t, exec (.gmpDemapPeriod B e mux rx) s = .next t ∧ (t.gmp (gmpKey B 0 e mux)).cPrev = some cm ∧ (mux = true →
    (t.gmp (gmpKey B 0 e mux)).data = gmpTake g.w g.pm cm g.pm rx.words)) ∧
  (∀ s B e rx c g, s.dom = .run → s.gmpMap B 0 e false = some g → s.datapath (B / 8) = true → readCm (s.gmp (gmpKey B 0 e false)).cPrev rx.jc = none →
    (s.gmp (gmpKey B 0 e false)).cPrev = some c → ∃ t, exec (.gmpDemapPeriod B e false rx) s = .next t ∧ (t.gmp (gmpKey B 0 e false)).cPrev = some c ∧
    t.tget (pgDmp B) T_CLI_CNT e CLI_CNT.jc_crc = (s.tget (pgDmp B) T_CLI_CNT e CLI_CNT.jc_crc + 1) % 2 ^ 32) ∧
  (∀ s B e data n num den due dev, s.dom = .run → s.ctxAmp B 1 e = true → s.datapath (B / 8) = true → s.genRole B e ≠ some true → (s.ampRate B 1 e).1
    = n → (s.ampRate B 1 e).2 = (num, den) → due = (s.gmp (gmpKey B 1 e true)).frac + num * 2 ^ 40 / den → dev = (s.gmp (gmpKey B 1 e true)).dev +
    Int.ofNat (due / 2 ^ 40) - Int.ofNat n → ∃ t, exec (.ampJustify B e data) s = .next t ∧ t.out = [.ampJc B e (List.replicate 3 (if dev < -1 then 3
    else if 1 < dev then 1 else 0)) (data.take (Int.ofNat n + ampAdjust (if dev < -1 then 3 else if 1 < dev then 1 else 0)).toNat)] ∧ (t.gmp (gmpKey B
    1 e true)).dev = dev - ampAdjust (if dev < -1 then 3 else if 1 < dev then 1 else 0) ∧ (∀ pg f, t.rd pg f = s.rd pg f)) ∧
  (∀ s B e jc data off a b c, s.dom = .run → s.ctxAmp B 0 e = true → s.datapath (B / 8) = true → a = jc.getD 0 0 % 4 → b = jc.getD 1 0 % 4 → c =
    jc.getD 2 0 % 4 → ¬ (a = b ∧ b = c) → ∃ t, exec (.ampDemuxPeriod B e jc data off) s = .next t ∧ t.tget (pgDmp B) T_DMX_CNT e DMX_CNT.amp_vote =
    (s.tget (pgDmp B) T_DMX_CNT e DMX_CNT.amp_vote + 1) % 2 ^ 32 ∧ (t.gmp (gmpKey B 0 e true)).cPrev = some (ampMajority a b c))

/-- R211 to R213, R218: one block period of an idle-adapting buffer, the end of cRATE, and the holdover of the rate generator. -/
def Obligations.ClientBuffers : Prop :=
  (∀ s B e p m x recv b, s.dom = .run → s.refOn (.ctx B 0 e) = true → s.datapath (B / 8) = true → isImp (s.cliCode B 0 e) = true → x = s.cli (ckey B 0
    e) → x.recv.push p.arrive = (recv, [b]) → p.read = false → x.refusing = false → x.full = false → x.buf.length ≤ 2318 → ∃ t, exec (.impBlock (.ctx
    B 0 e) p m) s = .next t ∧ (t.cli (ckey B 0 e)).buf = x.buf ++ [b] ∧ (t.cli (ckey B 0 e)).recv = recv) ∧
  (∀ s B d e p m, s.dom = .run → s.refOn (.ctx B d e) = true → s.datapath (B / 8) = true → isImp (s.cliCode B d e) = true → p.read = true → (s.cli
    (ckey B d e)).buf = [] → (d = 0 → ((s.cli (ckey B d e)).recv.push p.arrive).2 = []) → ∃ t, exec (.impBlock (.ctx B d e) p m) s = .next t ∧ t.tget
    (pgCli B d) T_CLI_CNT e CLI_CNT.idle_ins = (s.tget (pgCli B d) T_CLI_CNT e CLI_CNT.idle_ins + 1) % 2 ^ 32 ∧ (t.cli (ckey B d e)).buf = [] ∧ t.cliB
    B d e CLI_STATUS.crate = true) ∧
  (∀ s n p, s.dom = .run → s.ethEn n = true → s.datapath (laneRegion n) = true → p.read = true → (s.cli (lineKey n)).buf = [] → ∃ t, exec (.impBlock
    (.line n) p none) s = .next t ∧ t.rd (pgEth n) ETH_IDLE_INS = (s.rd (pgEth n) ETH_IDLE_INS + 1) % 2 ^ 32) ∧
  (∀ s c f, s.dom = .run → s.refOn c = true → f = s.cliLevel c → cliDepth (s.refCode c) ≤ 4 * f → 4 * f ≤ 3 * cliDepth (s.refCode c) → ∃ t, exec
    (.crateOff c) s = .next t ∧ t.cliHas c 29 = false) ∧
  (∀ s B e, s.dom = .run → B < 64 → s.regionSpeaks (B / 8) = true → s.datapath (B / 8) = true → (s.genRole B e).isSome = true → s.rateLost B e = true
    → s.cliB B 1 e CLI_STATUS.gen_hold = false → ∃ t, exec (.rateHold B e) s = .next t ∧ t.cliB B 1 e CLI_STATUS.gen_hold = true ∧ t.hasEvt (pgMap B)
    3 = true) ∧
  (∀ s B e, s.dom = .run → B < 64 → s.datapath (B / 8) = true → s.cliB B 1 e CLI_STATUS.gen_hold = true → 16 ≤ (s.cli (ckey B 1 e)).goodRun → ∃ t,
    exec (.rateHoldEnd B e) s = .next t ∧ t.cliB B 1 e CLI_STATUS.gen_hold = false ∧ (∀ pg f, t.rd pg f = s.rd pg f))

/-- R219, R228: declaring and clearing the client defects of contexts and of line clients. R220, R234: the end of the SUSPECT hold. -/
def Obligations.ClientDefects : Prop :=
  (∀ s B e, s.dom = .run → s.refBlocks (.ctx B 0 e) = true → s.datapath (B / 8) = true → (s.cli (ckey B 0 e)).recv.sync.lock = false → ∃ t, exec
    (.closOn (.ctx B 0 e)) s = .next t ∧ t.cliHas (.ctx B 0 e) 25 = true) ∧
  (∀ s n k, s.dom = .run → s.refBlocks (.line n) = true → s.datapath (laneRegion n) = true → k ∈ s.ethIfLanes n → s.rdb (pgLln k) LLN_STATUS_sig_det =
    false → ∃ t, exec (.closOn (.line n)) s = .next t ∧ t.cliHas (.line n) 25 = true) ∧
  (∀ s B e, s.dom = .run → s.refBlocks (.ctx B 0 e) = true → s.datapath (B / 8) = true → (s.cli (ckey B 0 e)).recv.sync.lock = true → ∃ t, exec
    (.closOff (.ctx B 0 e)) s = .next t ∧ t.cliHas (.ctx B 0 e) 25 = false) ∧
  (∀ s c on, s.dom = .run → s.refBlocks c = true → s.refRuns c = true → ∃ t, exec (.clfChange c on) s = .next t ∧ t.cliHas c 26 = on) ∧
  (∀ s c on, s.dom = .run → s.refBlocks c = true → s.refRuns c = true → ∃ t, exec (.crfChange c on) s = .next t ∧ t.cliHas c 27 = on) ∧
  (∀ s B e, s.dom = .run → s.lastingTrigger B e = false → ∃ t, exec (.suspectHoldEnd (.ctx B 0 e)) s = .next t ∧ (t.ctx B 0 e).trig = false) ∧
  (∀ s n, s.dom = .run → (s.ethIfLanes n).any (fun k => s.rdb (pgLln k) LLN_STATUS_trained && (!s.rdb (pgLln k) LLN_STATUS_sig_det || !s.rdb (pgLln k)
    LLN_STATUS_cw_lock)) = false → ∃ t, exec (.suspectHoldEnd (.line n)) s = .next t ∧ (t.cli (lineKey n)).trig = false)

/-! ### Protection (file 07) -/

/-- R237, R240, R241, R243: each operator command of a hardware group, its request code and selected leg by Table PRT-3 and its status by
Table PRT-5. -/
def Obligations.ProtectionRequests : Prop :=
  (∀ s w G, s.dom = .run → s.admitCode w pgPrt true = bsOk → s.prtAhead = false → s.prtQ = [] → s.grps.all (fun x => !x.2.due && x.2.was.isNone) =
    true → s.gBornNow G = false → G < 2 ^ 15 → s.gValid G = true → s.region (grpRegion G) ≠ rgnReset → (w.master = .host → s.ownBox (ownGroup G) =
    w.box) → s.gArch G = 0 → ∃ t, exec (.lo w G) s = .next t ∧ t.rd (prtRq w) PRT_CMD_STATUS_code = prtDone ∧ t.rdb (prtRq w) PRT_CMD_STATUS_pending =
    false ∧ t.gSt G GRP_STATUS.request = 0xF ∧ t.gSt G GRP_STATUS.sel = 0 ∧ t.gSt G GRP_STATUS.cmd = opLo) ∧
  (∀ s w G, s.dom = .run → s.admitCode w pgPrt true = bsOk → s.prtAhead = false → s.prtQ = [] → s.grps.all (fun x => !x.2.due && x.2.was.isNone) =
    true → s.gBornNow G = false → G < 2 ^ 15 → s.gValid G = true → s.region (grpRegion G) ≠ rgnReset → (w.master = .host → s.ownBox (ownGroup G) =
    w.box) → s.gArch G = 0 → s.gSt G GRP_STATUS.cmd ≠ opLo → (s.grp G).pCond ≠ 2 → ∃ t, exec (.fs w G) s = .next t ∧ t.rd (prtRq w)
    PRT_CMD_STATUS_code = prtDone ∧ t.rdb (prtRq w) PRT_CMD_STATUS_pending = false ∧ t.gSt G GRP_STATUS.request = 0xD ∧ t.gSt G GRP_STATUS.sel = 1 ∧
    t.gSt G GRP_STATUS.cmd = opFs) ∧
  (∀ s w G, s.dom = .run → s.admitCode w pgPrt true = bsOk → s.prtAhead = false → s.prtQ = [] → s.grps.all (fun x => !x.2.due && x.2.was.isNone) =
    true → s.gBornNow G = false → G < 2 ^ 15 → s.gValid G = true → s.region (grpRegion G) ≠ rgnReset → (w.master = .host → s.ownBox (ownGroup G) =
    w.box) → s.gArch G = 0 → s.gSt G GRP_STATUS.cmd = 0 → 6 ≤ (topRequest (s.reqIn G)).1 → ∃ t, exec (.ms w G) s = .next t ∧ t.rd (prtRq w)
    PRT_CMD_STATUS_code = prtDone ∧ t.rdb (prtRq w) PRT_CMD_STATUS_pending = false ∧ t.gSt G GRP_STATUS.request = 0x7 ∧ t.gSt G GRP_STATUS.sel = 1 ∧
    t.gSt G GRP_STATUS.cmd = opMs) ∧
  (∀ s w G, s.dom = .run → s.admitCode w pgPrt true = bsOk → s.prtAhead = false → s.prtQ = [] → s.grps.all (fun x => !x.2.due && x.2.was.isNone) =
    true → s.gBornNow G = false → G < 2 ^ 15 → s.gValid G = true → s.region (grpRegion G) ≠ rgnReset → (w.master = .host → s.ownBox (ownGroup G) =
    w.box) → s.gArch G = 0 → s.gSt G GRP_STATUS.cmd = 0 → 6 ≤ (topRequest (s.reqIn G)).1 → ∃ t, exec (.msW w G) s = .next t ∧ t.rd (prtRq w)
    PRT_CMD_STATUS_code = prtDone ∧ t.rdb (prtRq w) PRT_CMD_STATUS_pending = false ∧ t.gSt G GRP_STATUS.request = 0x7 ∧ t.gSt G GRP_STATUS.sel = 0 ∧
    t.gSt G GRP_STATUS.cmd = opMsW) ∧
  (∀ s w G, s.dom = .run → s.admitCode w pgPrt true = bsOk → s.prtAhead = false → s.prtQ = [] → s.grps.all (fun x => !x.2.due && x.2.was.isNone) =
    true → s.gBornNow G = false → G < 2 ^ 15 → s.gValid G = true → s.region (grpRegion G) ≠ rgnReset → (w.master = .host → s.ownBox (ownGroup G) =
    w.box) → s.gArch G = 0 → s.gSt G GRP_STATUS.cmd = 0 → s.gStB G GRP_STATUS.prov = false → s.gApsEn G = true → 8 ≤ (topRequest (s.reqIn G)).1 → ∃ t,
    exec (.exer w G) s = .next t ∧ t.rd (prtRq w) PRT_CMD_STATUS_code = prtDone ∧ t.rdb (prtRq w) PRT_CMD_STATUS_pending = false ∧ t.gSt G
    GRP_STATUS.request = 0x4 ∧ t.gSt G GRP_STATUS.sel = (s.grp G).base % 2 ∧ t.gSt G GRP_STATUS.cmd = opExer) ∧
  (∀ s w G, s.dom = .run → s.admitCode w pgPrt true = bsOk → s.prtAhead = false → s.prtQ = [] → s.grps.all (fun x => !x.2.due && x.2.was.isNone) =
    true → s.gBornNow G = false → G < 2 ^ 15 → s.gValid G = true → s.region (grpRegion G) ≠ rgnReset → (w.master = .host → s.ownBox (ownGroup G) =
    w.box) → s.gArch G = 0 → s.gStB G GRP_STATUS.prov = false → (s.grp G).wCond = 0 → (s.grp G).pCond = 0 → ∃ t, exec (.clr w G) s = .next t ∧ t.rd
    (prtRq w) PRT_CMD_STATUS_code = prtDone ∧ t.rdb (prtRq w) PRT_CMD_STATUS_pending = false ∧ t.gSt G GRP_STATUS.request = (if s.gRevert G = false ∧
    (s.grp G).base = 1 then 1 else 0) ∧ t.gSt G GRP_STATUS.sel = (if s.gRevert G = false ∧ (s.grp G).base = 1 then 1 else 0) ∧ t.gSt G GRP_STATUS.cmd
    = 0 ∧ t.gStB G GRP_STATUS.wtr_run = false) ∧
  (∀ s w G, s.dom = .run → s.admitCode w pgPrt true = bsOk → s.prtAhead = false → s.prtQ = [] → s.grps.all (fun x => !x.2.due && x.2.was.isNone) =
    true → s.gBornNow G = false → G < 2 ^ 15 → s.gValid G = true → s.region (grpRegion G) ≠ rgnReset → (w.master = .host → s.ownBox (ownGroup G) =
    w.box) → s.gArch G = 0 → s.gSt G GRP_STATUS.cmd = opLo → ∃ t, exec (.ms w G) s = .next t ∧ t.rd (prtRq w) PRT_CMD_STATUS_code = prtSuperseded ∧ (∀
    pg b e, t.entry pg b e = s.entry pg b e))

/-- R243, R244, R246, R248: the SET operations of a software group, ACK_SFP, and reading a notice. -/
def Obligations.SoftwareGroups : Prop :=
  (∀ s w G, s.dom = .run → s.admitCode w pgPrt true = bsOk → s.prtAhead = false → s.prtQ = [] → s.grps.all (fun x => !x.2.due && x.2.was.isNone) =
    true → s.gBornNow G = false → G < 2 ^ 15 → s.gValid G = true → s.region (grpRegion G) ≠ rgnReset → (w.master = .host → s.ownBox (ownGroup G) =
    w.box) → s.gArch G ≠ 0 → s.prtMasterOk G w.master = true → s.gStB G GRP_STATUS.sfp_override = false → s.rd (prtRq w) PRT_CMD_ARG_bridge < 2 → s.rd
    (prtRq w) PRT_CMD_ARG_sel < 2 → s.rd (prtRq w) PRT_CMD_ARG_aps < 2 ^ 24 → ∃ t, exec (.setSel w G) s = .next t ∧ t.rd (prtRq w) PRT_CMD_STATUS_code
    = prtDone ∧ t.rdb (prtRq w) PRT_CMD_STATUS_pending = false ∧ t.gSt G GRP_STATUS.sel = s.rd (prtRq w) PRT_CMD_ARG_sel) ∧
  (∀ s w G, s.dom = .run → s.admitCode w pgPrt true = bsOk → s.prtAhead = false → s.prtQ = [] → s.grps.all (fun x => !x.2.due && x.2.was.isNone) =
    true → s.gBornNow G = false → G < 2 ^ 15 → s.gValid G = true → s.region (grpRegion G) ≠ rgnReset → (w.master = .host → s.ownBox (ownGroup G) =
    w.box) → s.gArch G ≠ 0 → s.prtMasterOk G w.master = true → s.gStB G GRP_STATUS.sfp_override = false → s.rd (prtRq w) PRT_CMD_ARG_bridge < 2 → s.rd
    (prtRq w) PRT_CMD_ARG_sel < 2 → s.rd (prtRq w) PRT_CMD_ARG_aps < 2 ^ 24 → (s.gBridges G).isEmpty = false → ∃ t, exec (.setBridge w G) s = .next t
    ∧ t.rd (prtRq w) PRT_CMD_STATUS_code = prtDone ∧ t.rdb (prtRq w) PRT_CMD_STATUS_pending = false ∧ (t.grp G).bridge = decide (s.rd (prtRq w)
    PRT_CMD_ARG_bridge = 1)) ∧
  (∀ s w G, s.dom = .run → s.admitCode w pgPrt true = bsOk → s.prtAhead = false → s.prtQ = [] → s.grps.all (fun x => !x.2.due && x.2.was.isNone) =
    true → s.gBornNow G = false → G < 2 ^ 15 → s.gValid G = true → s.region (grpRegion G) ≠ rgnReset → (w.master = .host → s.ownBox (ownGroup G) =
    w.box) → s.gArch G ≠ 0 → s.prtMasterOk G w.master = true → s.gStB G GRP_STATUS.sfp_override = false → s.rd (prtRq w) PRT_CMD_ARG_bridge < 2 → s.rd
    (prtRq w) PRT_CMD_ARG_sel < 2 → s.rd (prtRq w) PRT_CMD_ARG_aps < 2 ^ 24 → ∃ t, exec (.setAps w G) s = .next t ∧ t.rd (prtRq w) PRT_CMD_STATUS_code
    = prtDone ∧ t.rdb (prtRq w) PRT_CMD_STATUS_pending = false ∧ (t.grp G).apsTx = some (s.rd (prtRq w) PRT_CMD_ARG_aps)) ∧
  (∀ s w G, s.dom = .run → s.admitCode w pgPrt true = bsOk → s.prtAhead = false → s.prtQ = [] → s.grps.all (fun x => !x.2.due && x.2.was.isNone) =
    true → s.gBornNow G = false → G < 2 ^ 15 → s.gValid G = true → s.region (grpRegion G) ≠ rgnReset → (w.master = .host → s.ownBox (ownGroup G) =
    w.box) → s.gArch G ≠ 0 → s.prtMasterOk G w.master = true → s.gStB G GRP_STATUS.sfp_override = false → s.rd (prtRq w) PRT_CMD_ARG_bridge < 2 → s.rd
    (prtRq w) PRT_CMD_ARG_sel < 2 → s.rd (prtRq w) PRT_CMD_ARG_aps < 2 ^ 24 → (s.gBridges G).isEmpty = false → ∃ t, exec (.setAll w G) s = .next t ∧
    t.rd (prtRq w) PRT_CMD_STATUS_code = prtDone ∧ t.rdb (prtRq w) PRT_CMD_STATUS_pending = false ∧ t.gSt G GRP_STATUS.sel = s.rd (prtRq w)
    PRT_CMD_ARG_sel ∧ (t.grp G).bridge = decide (s.rd (prtRq w) PRT_CMD_ARG_bridge = 1) ∧ (t.grp G).apsTx = some (s.rd (prtRq w) PRT_CMD_ARG_aps)) ∧
  (∀ s w G a, s.dom = .run → s.admitCode w pgPrt true = bsOk → s.prtAhead = false → s.prtQ = [] → s.grps.all (fun x => !x.2.due && x.2.was.isNone) =
    true → s.gBornNow G = false → G < 2 ^ 15 → s.gValid G = true → s.region (grpRegion G) ≠ rgnReset → (w.master = .host → s.ownBox (ownGroup G) =
    w.box) → s.gArch G ≠ 0 → s.prtMasterOk G w.master = true → s.gStB G GRP_STATUS.sfp_override = false → s.gChannel G = some a → ∃ t, exec (.ackSfp w
    G) s = .next t ∧ t.rd (prtRq w) PRT_CMD_STATUS_code = prtDone ∧ t.rdb (prtRq w) PRT_CMD_STATUS_pending = false ∧ t.tgetb pgPrt T_SFP_REC a
    SFP_REC.valid = false) ∧
  (∀ s w q n rest, s.dom = .run → s.admitCode w pgPrt false = bsOk → q = (if w.proxy then w.box else 512) → s.notices.get [] q = n :: rest → ∃ t, exec
    (.prtNoteRead w) s = .next t ∧ t.reply = some ⟨bsOk, [n % 2 ^ 32]⟩ ∧ t.rd (prtRq w) (shadowF 0x054) = n / 2 ^ 32 % 2 ^ 32 ∧ t.notices.get [] q =
    rest)

/-- R232, R233, R238, R239, R252: the timed events of a protection group. -/
def Obligations.ProtectionTimers : Prop :=
  (∀ s G leg, s.dom = .run → s.gActs G = true → s.regionSpeaks (grpRegion G) = true → s.prtAhead = false → s.prtQ = [] → s.grps.all (fun x => !x.2.due
    && x.2.was.isNone) = true → s.gBornNow G = false → leg < 2 → s.legNow G leg ≠ s.legShown G leg → s.legNow G leg < 4 → ∃ t, exec (.legStatusChange
    G leg) s = .next t ∧ t.legShown G leg = s.legNow G leg ∧ t.hasEvt (grpPage G) selLeg = true) ∧
  (∀ s G leg, s.dom = .run → s.gActs G = true → s.prtAhead = false → s.prtQ = [] → s.grps.all (fun x => !x.2.due && x.2.was.isNone) = true →
    s.gBornNow G = false → leg < 2 → (s.grp G).hoEnd = 0 → s.legNow G leg = 2 → s.legShown G leg ≠ 2 → (s.grp G).cond leg ≠ 2 → s.gHoldoff G ≠ 0 →
    s.gStB G (hoField leg) = false → ∃ t, exec (.legStatusChange G leg) s = .next t ∧ t.gStB G (hoField leg) = true ∧ (t.grp G).cond leg = 0) ∧
  (∀ s G leg, s.dom = .run → s.gActs G = true → s.prtAhead = false → s.prtQ = [] → s.grps.all (fun x => !x.2.due && x.2.was.isNone) = true →
    s.gBornNow G = false → leg < 2 → s.gStB G (hoField leg) = true → s.legNow G leg = 2 → ∃ t, exec (.holdOffExpiry G leg) s = .next t ∧ t.gStB G
    (hoField leg) = false ∧ (t.grp G).cond leg = 2) ∧
  (∀ s G, s.dom = .run → s.gActs G = true → s.prtAhead = false → s.prtQ = [] → s.grps.all (fun x => !x.2.due && x.2.was.isNone) = true → s.gBornNow G
    = false → s.legNow G 0 = s.legShown G 0 → s.legNow G 1 = s.legShown G 1 → (s.grp G).hoEnd = 0 → s.gArch G = 0 → s.gStB G GRP_STATUS.wtr_run = true
    → s.gRevert G = true → (s.grp G).wCond = 0 → (s.grp G).pCond = 0 → s.gSt G GRP_STATUS.cmd = 0 → s.gStB G GRP_STATUS.prov = false → ∃ t, exec
    (.wtrExpiry G) s = .next t ∧ t.gStB G GRP_STATUS.wtr_run = false ∧ t.gSt G GRP_STATUS.request = 0 ∧ t.gSt G GRP_STATUS.sel = 0 ∧ t.tget (grpPage
    G) (grpCntT G) (grpIndex G) GRP_CNT.wtr_done = (s.tget (grpPage G) (grpCntT G) (grpIndex G) GRP_CNT.wtr_done + 1) % 2 ^ 32) ∧
  (∀ s G, s.dom = .run → s.gActs G = true → s.prtAhead = false → s.prtQ = [] → s.grps.all (fun x => !x.2.due && x.2.was.isNone) = true → s.gBornNow G
    = false → s.legNow G 0 = s.legShown G 0 → s.legNow G 1 = s.legShown G 1 → (s.grp G).hoEnd = 0 → s.gArch G = 0 → s.gStB G GRP_STATUS.prov = true →
    s.legShown G (1 - s.gSt G GRP_STATUS.sel) ≠ 3 → ∃ t, exec (.confirmationExpiry G) s = .next t ∧ t.gStB G GRP_STATUS.prov = false ∧ (t.grp
    G).confEnd = false) ∧
  (∀ s r i want, s.dom = .run → r < 8 → s.regionSpeaks r = true → s.effB (pgSel r) T_BRG_CFG i BRG_CFG.valid = true → s.effB (pgSel r) T_BRG_CFG i
    BRG_CFG.kind = true → want = (s.grp (s.effF (pgSel r) T_BRG_CFG i BRG_CFG.grp)).bridge → s.tgetb (pgSel r) T_BRG_STATUS i BRG_STATUS.bridged ≠
    want → ∃ t, exec (.bridgeChangeApply r i) s = .next t ∧ t.tgetb (pgSel r) T_BRG_STATUS i BRG_STATUS.bridged = want ∧ t.hasEvt (pgSel r) selBridge
    = true)

/-- R256 to R260: what a received APS message, the age scan and a lasting mismatch do to a channel. -/
def Obligations.ApsChannels : Prop :=
  (∀ s a msg, s.dom = .run → s.apsValid a = true → s.apsF a APS_CFG.guard = 0 → ∃ t, exec (.apsMessageReceive a msg) s = .next t ∧ t.tget pgPrt
    T_APS_CNT a APS_CNT.rx_ok = (s.tget pgPrt T_APS_CNT a APS_CNT.rx_ok + 1) % 2 ^ 32 ∧ t.apsRx a APS_RX.age = 0) ∧
  (∀ s a msg, s.dom = .run → s.apsValid a = true → s.apsF a APS_CFG.guard = 0 → (s.aps a).run = 2 → (s.aps a).cand = getBits msg 31 8 → ∃ t, exec
    (.apsMessageReceive a msg) s = .next t ∧ t.apsRx a APS_RX.accepted = getBits msg 31 8 ∧ t.apsRxB a APS_RX.acc_valid = true) ∧
  (∀ s a msg, s.dom = .run → s.apsValid a = true → s.apsF a APS_CFG.guard ≠ 0 → s.rd (pgChk (s.rd pgPrt PRT_APS_CFG_chk_unit)) CHK_CFG_width = 4 →
    (s.guardValue (getBits msg 31 8) (getBits msg 7 4)).1 ≠ getBits msg 3 0 → ∃ t, exec (.apsMessageReceive a msg) s = .next t ∧ t.tget pgPrt
    T_APS_CNT a APS_CNT.chk_err = (s.tget pgPrt T_APS_CNT a APS_CNT.chk_err + 1) % 2 ^ 32 ∧ (t.aps a).run = 0) ∧
  (∀ s a, s.dom = .run → ((s.effRows pgPrt T_APS_CFG).filter (fun x => efieldb x.2 APS_CFG.valid)).map (fun x => x.1) = [a] → s.apsHit a = false → ∃
    t, exec (.apsAgeScan) s = .next t ∧ t.apsRx a APS_RX.age = min 255 (s.apsRx a APS_RX.age + 1)) ∧
  (∀ s a, s.dom = .run → ((s.effRows pgPrt T_APS_CFG).filter (fun x => efieldb x.2 APS_CFG.valid)).map (fun x => x.1) = [a] → s.apsHit a = false →
    s.apsF a APS_CFG.age_ms ≤ s.apsRx a APS_RX.age → s.apsRx a APS_RX.age ≤ 255 → s.apsRxB a APS_RX.dfop_to = false → ∃ t, exec (.apsAgeScan) s =
    .next t ∧ t.apsRxB a APS_RX.dfop_to = true ∧ t.apsRxB a APS_RX.acc_valid = false ∧ t.tget pgPrt T_APS_CNT a APS_CNT.fop_to = (s.tget pgPrt
    T_APS_CNT a APS_CNT.fop_to + 1) % 2 ^ 32) ∧
  (∀ s a, s.dom = .run → s.apsValid a = true → s.apsNrDiffers a = true → s.apsRxB a APS_RX.dfop_nr = false → ∃ t, exec (.dfopNr a) s = .next t ∧
    t.apsRxB a APS_RX.dfop_nr = true ∧ t.tget pgPrt T_APS_CNT a APS_CNT.fop_nr = (s.tget pgPrt T_APS_CNT a APS_CNT.fop_nr + 1) % 2 ^ 32 ∧ t.hasEvt
    pgPrt 3 = true)

/-! ### Wings (file 08) -/

/-- R269, R272: a received stamp instance moves the stamp lock of its context. -/
def Obligations.AlignmentStamp : Prop :=
  (∀ s B e g count, s.dom = .run → B < 64 → s.ctxB B 0 e CTX.valid = true → s.ctxB B 0 e CTX.stamp_en = true → s.datapath (B / 8) = true → g.inFrame =
    true → s.ctxStatusB B 0 e CTX_STATUS.ssf_in = false → getBits g.format 7 4 = 1 → count = g.exp2.getD 0 0 % 256 * 65536 + g.exp2.getD 1 0 % 256 *
    256 + g.exp2.getD 2 0 % 256 → stampCrc (g.format % 256) count = g.exp2.getD 3 0 % 256 → s.tgetb (pgOdi B) T_STAMP_RX e STAMP_RX.locked = false →
    (s.ctx B 0 e).stRun = 2 → (s.ctx B 0 e).stNext = 256 * count + g.mfas % 256 → ∃ t, exec (.stampInstance B e g) s = .next t ∧ t.tgetb (pgOdi B)
    T_STAMP_RX e STAMP_RX.locked = true ∧ t.tget (pgOdi B) T_STAMP_RX e STAMP_RX.count = count ∧ t.hasEvt (pgOdi B) 5 = true ∧ (t.ctx B 0 e).stNext =
    (256 * count + g.mfas % 256 + 4) % 2 ^ 32) ∧
  (∀ s B e g count, s.dom = .run → B < 64 → s.ctxB B 0 e CTX.valid = true → s.ctxB B 0 e CTX.stamp_en = true → s.datapath (B / 8) = true → g.inFrame =
    true → s.ctxStatusB B 0 e CTX_STATUS.ssf_in = false → getBits g.format 7 4 = 1 → count = g.exp2.getD 0 0 % 256 * 65536 + g.exp2.getD 1 0 % 256 *
    256 + g.exp2.getD 2 0 % 256 → stampCrc (g.format % 256) count ≠ g.exp2.getD 3 0 % 256 → s.tgetb (pgOdi B) T_STAMP_RX e STAMP_RX.locked = true →
    (s.ctx B 0 e).stBad = 2 → ∃ t, exec (.stampInstance B e g) s = .next t ∧ t.tgetb (pgOdi B) T_STAMP_RX e STAMP_RX.locked = false ∧ t.hasEvt (pgOdi
    B) 5 = true ∧ t.tget (pgOdi B) T_STAMP_RX e STAMP_RX.crc_err = (s.tget (pgOdi B) T_STAMP_RX e STAMP_RX.crc_err + 1) % 2 ^ 32) ∧
  (∀ s B e g count, s.dom = .run → B < 64 → s.ctxB B 0 e CTX.valid = true → s.ctxB B 0 e CTX.stamp_en = true → s.datapath (B / 8) = true → g.inFrame =
    true → s.ctxStatusB B 0 e CTX_STATUS.ssf_in = false → getBits g.format 7 4 = 1 → count = g.exp2.getD 0 0 % 256 * 65536 + g.exp2.getD 1 0 % 256 *
    256 + g.exp2.getD 2 0 % 256 → stampCrc (g.format % 256) count ≠ g.exp2.getD 3 0 % 256 → s.tgetb (pgOdi B) T_STAMP_RX e STAMP_RX.locked = false → ∃
    t, exec (.stampInstance B e g) s = .next t ∧ t.tgetb (pgOdi B) T_STAMP_RX e STAMP_RX.locked = false ∧ (t.ctx B 0 e).stRun = 0 ∧ t.tget (pgOdi B)
    T_STAMP_RX e STAMP_RX.crc_err = (s.tget (pgOdi B) T_STAMP_RX e STAMP_RX.crc_err + 1) % 2 ^ 32)

/-- R279, R280, R285, R294, R298: delay samples, playout, slots and OVER. -/
def Obligations.WingsGroups : Prop :=
  (∀ s w F, s.dom = .run → s.wgState w ≠ wgOff → s.wgF w WGRP_CFG.valid ≠ 0 → s.wgBornNow w = false → (s.wg w).seenP.find? (fun y => decide (y.1 = 239
    * (F / 8) % keyMod)) = none → s.wgrps.all (fun y => !y.2.ask) = true → ∃ t, exec (.wingsGroupStart w 0 F) s = .next t ∧ (t.wg w).seenW = (s.wg
    w).seenW ++ [(239 * (F / 8) % keyMod, s.dpCycle)] ∧ (∀ pg f, t.rd pg f = s.rd pg f)) ∧
  (∀ s w F x, s.dom = .run → s.wgState w ≠ wgOff → s.wgF w WGRP_CFG.valid ≠ 0 → s.wgBornNow w = false → (s.wg w).seenP.find? (fun y => decide (y.1 =
    239 * (F / 8) % keyMod)) = some x → ∃ t, exec (.wingsGroupStart w 0 F) s = .next t ∧ (t.wg w).samples = (((x.2 : Int) - s.dpCycle) :: (s.wg
    w).samples).take 16 ∧ (t.wg w).nSamples = (s.wg w).nSamples + 1) ∧
  (∀ s w u K, s.dom = .run → 2 ≤ s.wgState w → s.wgState w ≤ 4 → s.wgBornNow w = false → s.wgF w WGRP_CFG.step = 0 → s.wgSelected w = s.wgEarly w →
    (s.wg w).playout = some K → ∃ t, exec (.playoutAdvance w u) s = .next t ∧ (t.wg w).playout = some (keyNext K) ∧ (((s.hbmRead w K u).hbmErrors
    (s.wgStack w) u).ringRead w K u = none → t.tget pgWng T_WGRP_CNT w WGRP_CNT.rd_miss = (s.tget pgWng T_WGRP_CNT w WGRP_CNT.rd_miss + 1) % 2 ^ 32)) ∧
  (∀ s w rest, s.dom = .run → s.slotQ = w :: rest → s.slotFree w = true → s.stackGone (s.wgStack w) = false → s.wgBornNow w = false → s.wgState w =
    wgSwapWait → ∃ t, exec (.slotGrant) s = .next t ∧ t.wgState w = wgAcquire ∧ t.slotQ = rest.filter (fun v => decide (v ≠ w)) ∧ t.wgSt w
    WGRP_STATUS.queued = 0) ∧
  (∀ s w, s.dom = .run → s.wgState w = wgOver → s.wgBeyond w 100000 = false → s.wgBornNow w = false → ∃ t, exec (.overRecover w) s = .next t ∧
    t.wgState w = wgAcquire ∧ t.tget pgWng T_WGRP_CNT w WGRP_CNT.acquires = (s.tget pgWng T_WGRP_CNT w WGRP_CNT.acquires + 1) % 2 ^ 32)

/-- R295 to R297, R299: stack failure and return. -/
def Obligations.HbmStacks : Prop :=
  (∀ s k clock, s.dom = .run → k < 6 → s.rd (pgHbm k) HBM_STATUS_state ≠ hbmFailed → ∃ t, exec (.stackFail k clock) s = .next t ∧ t.rd (pgHbm k)
    HBM_STATUS_state = hbmFailed ∧ t.hasEvt (pgHbm k) 0 = true) ∧
  (∀ s k v rest, s.dom = .run → s.fallQ.get [] k = v :: rest → s.wgState (v % 4096) ≠ wgOff → (s.wg (v % 4096)).ackAt ≠ s.dpCycle + 1 → ∃ t, exec
    (.groupFallback k) s = .next t ∧ t.fallQ.get [] k = rest ∧ t.wgState (v % 4096) = wgFallback ∧ t.tgetb pgWng T_WFAIL (v % 4096) WFAIL.valid = true
    ∧ t.tget pgWng T_WFAIL (v % 4096) WFAIL.cause = (if v < 4096 then 1 else 2) ∧ t.hasEvt pgWng 2 = true) ∧
  (∀ s k, s.dom = .run → k < 6 → s.rd (pgHbm k) HBM_STATUS_state = hbmFailed → bit (s.rd pgMode MODE_STACKS_retrained) k = true → ∃ t, exec
    (.hbmRestore k) s = .next t ∧ t.rd (pgHbm k) HBM_STATUS_state = hbmService ∧ t.hasEvt (pgHbm k) 1 = true ∧ bit (t.rd pgMode MODE_STACKS_retrained)
    k = false) ∧
  (∀ s k late, s.dom = .run → s.hbmUp k = true → ∃ t, exec (.hbmRetrainPc k late) s = .next t ∧ t.nextPc.get 0 k = (s.nextPc.get 0 k + 1) % 64 ∧ t.rd
    (pgHbm k) HBM_STATUS_retrain_pc = s.nextPc.get 0 k % 256 ∧ t.rd (pgHbm k) HBM_RETRAIN_LATE = (s.rd (pgHbm k) HBM_RETRAIN_LATE + (if late then 1
    else 0)) % 2 ^ 32) ∧
  (∀ s w, s.dom = .run → ∃ t, exec (.ackFail w) s = .next t ∧ t.tgetb pgWng T_WFAIL (w % 4096) WFAIL.valid = false ∧ (∀ pg f, t.rd pg f = s.rd pg f))

/-! ### Fybry (file 09) -/

/-- R308 to R315: the lanes of a Fybry link; file 03, R116, its test pattern. -/
def Obligations.FybryLanes : Prop :=
  (∀ s m k v m1 p1, s.dom = .run → m < 96 → k < 8 → m1 = clampInt (-32) 0 (toSigned 8 (getBits v 7 0)) → p1 = clampInt (-24) 0 (toSigned 8 (getBits v
    15 8)) → 80 ≤ (128 - (m1.natAbs + p1.natAbs) : Int) → ∃ t, exec (.fylTxEqWrite m k v) s = .next t ∧ (t.fyl m).taps.get {} k = FyTap.mk m1 p1 (min
    20 (getBits v 28 24)) (bit v 31) ∧ t.rdb (pgFyl m) FYL_STATUS_fir_refused = false) ∧
  (∀ s m k v m1 p1, s.dom = .run → m < 96 → k < 8 → m1 = clampInt (-32) 0 (toSigned 8 (getBits v 7 0)) → p1 = clampInt (-24) 0 (toSigned 8 (getBits v
    15 8)) → (128 - (m1.natAbs + p1.natAbs) : Int) < 80 → ∃ t, exec (.fylTxEqWrite m k v) s = .next t ∧ (t.fyl m).taps = (s.fyl m).taps ∧ t.rdb (pgFyl
    m) FYL_STATUS_fir_refused = true) ∧
  (∀ s m, s.dom = .run → s.linkRuns m = true → s.linkClock m = true → s.rd (pgFyl m) FYL_STATUS_sig_det = 255 → ∃ t, exec (.fybryAdaptationDone m) s =
    .next t ∧ (t.fyl m).trained = true) ∧
  (∀ s m k x y, s.dom = .run → m < 96 → k < 8 → s.linkRuns m = true → (s.fyl m).trained = true → findMarker (s.fylSeen m k x.levels) = some y → ∃ t,
    exec (.markerLock m k x) s = .next t ∧ bit (t.rd (pgFyl m) FYL_STATUS_lane_lock) k = true ∧ (t.fyl m).logical.get 0 k = y.1.logical + 1) ∧
  (∀ s m k x y, s.dom = .run → m < 96 → k < 8 → s.linkRuns m = true → s.regionSpeaks (fylRegion m) = true → findMarker (s.fylSeen m k x.levels) = some
    y → (s.fyl m).trained = true → s.linkAligned m = false → s.rd (pgFyl m) FYL_STATUS_lane_lock ||| 2 ^ k = 255 → ((List.range 8).all fun i =>
    (List.range 8).any fun j => decide ((if j = k then y.1.logical + 1 else (s.fyl m).logical.get 0 j) = i + 1)) = true → ((List.range 8).all fun j =>
    decide (j = k ∨ (s.fyl m).lags.get 0 j = x.lag)) = true → ∃ t, exec (.markerLock m k x) s = .next t ∧ t.linkAligned m = true ∧ t.linkSync m =
    false ∧ t.rd (pgFyl m) FYL_SKEW_skew = 0 ∧ t.hasEvt (pgFyl m) fylAligned = true) ∧
  (∀ s m k, s.dom = .run → m < 96 → k < 8 → s.regionSpeaks (fylRegion m) = true → bit (s.rd (pgFyl m) FYL_STATUS_lane_lock) k = true → s.linkAligned m
    = true → s.linkRole m ≠ 0 → s.linkFailed m = false → s.leavesUse m = false → ∃ t, exec (.markerLockLost m k) s = .next t ∧ bit (t.rd (pgFyl m)
    FYL_STATUS_lane_lock) k = false ∧ t.linkAligned m = false ∧ t.linkFailed m = true ∧ t.hasEvt (pgFyl m) fylLinkFail = true) ∧
  (∀ s m k levels, s.dom = .run → m < 96 → k < 8 → s.linkRuns m = true → bit (s.rd (pgFyl m) FYL_STATUS_lane_lock) k = true → (levelSymbols
    (s.fylReceived m k levels)).length = 544 → ∃ t, exec (.fybryCodewordDecode m k levels) s = .next t ∧ t.rd (pgFyl m) FYL_CW = (s.rd (pgFyl m)
    FYL_CW + 1) % 2 ^ 64 ∧ t.rd (pgFyl m) FYL_UNCORR_CW = (s.rd (pgFyl m) FYL_UNCORR_CW + (if (s.fyDecode m k levels).2 = 16 then 1 else 0)) % 2 ^ 64) ∧
  (∀ s m k, s.dom = .run → m < 96 → k < 8 → s.linkRuns m = true → s.regionSpeaks (fylRegion m) = true → bit (s.rd (pgFyl m) FYL_STATUS_sig_det) k =
    true → ∃ t, exec (.los (.fybry m k)) s = .next t ∧ bit (t.rd (pgFyl m) FYL_STATUS_sig_det) k = false ∧ t.hasEvt (pgFyl m) fylLos = true) ∧
  (∀ s m k, s.dom = .run → m < 96 → k < 8 → s.linkRuns m = true → ∃ t, exec (.signalDetect (.fybry m k)) s = .next t ∧ bit (t.rd (pgFyl m)
    FYL_STATUS_sig_det) k = true) ∧
  (∀ s m k levels, s.dom = .run → m < 96 → k < 8 → s.linkRuns m = true → bit (s.fyl m).chkEff k = true → (s.fybryCheck m k levels).1.locked = true → ∃
    t, exec (.prbsLock (.fybry m k) levels) s = .next t ∧ bit (t.fyl m).prbsLock k = true ∧ t.rd (pgFyl m) (FYL_PRBS_ERR k) = (s.rd (pgFyl m)
    (FYL_PRBS_ERR k) + (s.fybryCheck m k levels).2.1) % 2 ^ 64) ∧
  (∀ s m k levels, s.dom = .run → m < 96 → k < 8 → s.linkRuns m = true → s.regionSpeaks (fylRegion m) = true → bit (s.fyl m).chkEff k = true →
    (s.fybryCheck m k levels).2.2 = true → ∃ t, exec (.prbsLockLost (.fybry m k) levels) s = .next t ∧ bit (t.fyl m).prbsLock k = (s.fybryCheck m k
    levels).1.locked ∧ t.hasEvt (pgFyl m) fylPrbsLost = true)

/-- R317 to R331: what a received segment and a segment slot do, and how a transmit flow's segments are numbered and placed. -/
def Obligations.FybrySegments : Prop :=
  (∀ s m x, s.dom = .run → m < 96 → s.linkRuns m = true → s.linkAligned m = true → s.regionSpeaks (fylRegion m) = true → x.seg.crc ≠ crc16 (segHeader
    x.seg) → s.linkSync m = true → ∃ t, exec (.segmentReceive m x) s = .next t ∧ t.linkSync m = false ∧ t.rd (pgFyl m) FYL_HDR_CRC = (s.rd (pgFyl m)
    FYL_HDR_CRC + 1) % 2 ^ 64 ∧ t.rd (pgFyl m) FYL_HUNT = (s.rd (pgFyl m) FYL_HUNT + 1) % 2 ^ 64 ∧ t.hasEvt (pgFyl m) fylDelinLost = true) ∧
  (∀ s m x, s.dom = .run → m < 96 → s.linkRuns m = true → s.linkAligned m = true → x.seg.crc = crc16 (segHeader x.seg) → x.seg.typ = 0 → (s.fyl
    m).unalignAt ≠ s.dpCycle + 1 → ∃ t, exec (.segmentReceive m x) s = .next t ∧ t.linkSync m = true ∧ t.rd (pgFyl m) FYL_RX_SEG = (s.rd (pgFyl m)
    FYL_RX_SEG + 1) % 2 ^ 64 ∧ (t.fyl m).lim0 = pay16 x.seg.payload 4 ∧ (t.fyl m).lim1 = pay16 x.seg.payload 6 ∧ t.rdb (pgFyl m)
    FYL_STATUS_credits_valid = true) ∧
  (∀ s m x, s.dom = .run → m < 96 → s.linkRuns m = true → s.linkAligned m = true → x.seg.crc = crc16 (segHeader x.seg) → s.linkFailed m = false → 1 ≤
    x.seg.typ → s.regionOff (fylRegion m) = false → s.datapath (fylRegion m) = true → s.carriesFlows m = true → x.seg.flow < 8192 → s.rxF (fylRegion
    m) x.seg.flow RXF_CFG.valid ≠ 0 → typeForm x.seg.typ = some (s.rxF (fylRegion m) x.seg.flow RXF_CFG.kind, s.rxF (fylRegion m) x.seg.flow
    RXF_CFG.short) → x.seg.off = false → s.rxSt (fylRegion m) x.seg.flow RXF_STATUS.state = rxIdle → ∃ t, exec (.segmentReceive m x) s = .next t ∧
    t.rxSt (fylRegion m) x.seg.flow RXF_STATUS.state = rxRun ∧ t.rxSt (fylRegion m) x.seg.flow RXF_STATUS.e = (x.seg.seq + 1) % 65536 ∧ t.rxSt
    (fylRegion m) x.seg.flow RXF_STATUS.leg = (if x.uncorr = true ∧ x.seg.leg = legOk then legSuspect else x.seg.leg % 4) ∧ t.tget (pgFyr (fylRegion
    m)) T_RXF_CNT x.seg.flow RXF_CNT.segs = (s.tget (pgFyr (fylRegion m)) T_RXF_CNT x.seg.flow RXF_CNT.segs + 1) % 2 ^ 32) ∧
  (∀ s m, s.dom = .run → m < 96 → s.linkRuns m = true → s.linkClock m = true → (s.fyl m).lbEff ≠ 3 → (s.creditAhead m).slotChoice m = none → ∃ t, exec
    (.segmentSlot m) s = .next t ∧ (∃ g, .segment m g ∈ t.out ∧ g.typ = 0 ∧ g.crc = crc16 (segHeader g) ∧ g.lstate = s.lstateOf m) ∧ t.rd (pgFyl m)
    FYL_TX_SEG = (s.rd (pgFyl m) FYL_TX_SEG + 1) % 2 ^ 64 ∧ (t.fyl m).ccls = 1 - (s.fyl m).ccls) ∧
  (∀ s m x, s.dom = .run → m < 96 → s.linkRuns m = true → s.linkClock m = true → (s.fyl m).lbEff ≠ 3 → (s.creditAhead m).slotChoice m = some x →
    x.2.cls = 0 → (s.fyl m).q0 ≠ [] → ∃ t, exec (.segmentSlot m) s = .next t ∧ (∃ g, .segment m g ∈ t.out ∧ g.flow = x.2.flow ∧ g.seq = x.2.seq ∧
    g.payload = x.2.payload ∧ g.crc = crc16 (segHeader g)) ∧ (t.fyl m).q0 = (s.fyl m).q0.drop 1 ∧ (t.fyl m).sent0 = ((s.fyl m).sent0 + segCost
    x.2.typ) % 65536) ∧
  (∀ s r i d src rest m bs, s.dom = .run → s.flowSources r i = src :: rest → s.datapath r = true → s.regionOff r = false → s.srcStamped src = false →
    s.mayCut r i src d = true → (s.srcBytes src (if s.txF r i TXF_CFG.short ≠ 0 then 128 else 512) false d).1 = some bs → (s.positions r).map
    s.posServer = [m] → s.hasRoom m (s.txF r i TXF_CFG.cls) = true → ∃ t, exec (.segmentComplete r i d) s = .next t ∧ (t.txFlow r i).next = ((s.txFlow
    r i).next + 1) % 65536 ∧ (∃ g, (t.fyl m).queue (s.txF r i TXF_CFG.cls) = (s.fyl m).queue (s.txF r i TXF_CFG.cls) ++ [(i, g)] ∧ g.seq = (s.txFlow r
    i).next ∧ g.flow = s.txF r i TXF_CFG.label ∧ g.payload = segPayload (segLen g.typ) bs))

/-- R332, R334, R337 to R340: reorder timeouts, absence, failure and restoration. -/
def Obligations.FybryFlows : Prop :=
  (∀ s r i h d, s.dom = .run → (s.rxo r i).held = [h] → s.rxSt r i RXF_STATUS.state = rxRun → h.seg.seq < 65536 → d = (h.seg.seq + 65536 - s.rxSt r i
    RXF_STATUS.e) % 65536 → s.arrivalAhead r i (fun q => decide (q % 65536 = s.rxSt r i RXF_STATUS.e ∨ (64 ≤ (q + 65536 - s.rxSt r i RXF_STATUS.e) %
    65536 ∧ (q + 65536 - s.rxSt r i RXF_STATUS.e) % 65536 < 32768))) = false → ∃ t, exec (.reorderTimeout r i) s = .next t ∧ t.rxSt r i RXF_STATUS.e =
    (h.seg.seq + 1) % 65536 ∧ (t.rxo r i).held = [] ∧ t.tget (pgFyr r) T_RXF_CNT i RXF_CNT.timeouts = (s.tget (pgFyr r) T_RXF_CNT i RXF_CNT.timeouts +
    d) % 2 ^ 32) ∧
  (∀ s r i, s.dom = .run → r < 8 → s.regionSpeaks r = true → s.rxF r i RXF_CFG.valid ≠ 0 → s.rxSt r i RXF_STATUS.state = rxRun → s.arrivalAhead r i
    (fun _ => true) = false → ∃ t, exec (.flowAbsent r i) s = .next t ∧ t.rxSt r i RXF_STATUS.state = rxAbsent ∧ (t.rxo r i).held = [] ∧ t.hasEvt
    (pgFyr r) 1 = true) ∧
  (∀ s m, s.dom = .run → m < 96 → s.regionSpeaks (fylRegion m) = true → s.linkRole m ≠ 0 → s.linkFailed m = false → s.leavesUse m = false →
    s.linkClock m = false → ∃ t, exec (.linkFail m .clock) s = .next t ∧ t.linkFailed m = true ∧ t.hasEvt (pgFyl m) fylLinkFail = true) ∧
  (∀ s m u, s.dom = .run → m < 96 → s.regionSpeaks (fylRegion m) = true → s.linkRole m = roleWorking → s.linkFailed m = false → s.leavesUse m = false
    → s.understudy (fylRegion m) = some u → s.linkFailed u = false → s.covering (fylRegion m) = 0xF → ∃ t, exec (.fylFail m) s = .next t ∧
    t.linkFailed m = true ∧ t.hasEvt (pgFyl m) fylLinkFail = true ∧ t.covering (fylRegion m) = fylIndex m ∧ t.rdb (pgFyl m) FYL_STATUS_covered = true) ∧
  (∀ s m, s.dom = .run → m < 96 → s.regionSpeaks (fylRegion m) = true → s.linkFailed m = true → s.linkAligned m = true → s.linkSync m = true → s.rd
    (pgFyl m) FYL_STATUS_peer_lstate = lsStandby → (s.fyl m).failAt ≠ s.dpCycle + 1 → s.failAhead m = false → ∃ t, exec (.fylRestore m) s = .next t ∧
    t.linkFailed m = false ∧ t.hasEvt (pgFyl m) fylRestored = true)

/-! ### Overhead queues and check units (file 10) -/

/-- R361, R362, R364, R368: the packet queues as their readers and writers meet them. -/
def Obligations.OverheadQueues : Prop :=
  (∀ s w r i p rest, s.dom = .run → r < 8 → s.admitCode w (pgOhq r) false = bsOk → i = s.rd (reqPage (pgOhq r) w) OHQ_SEL_ch → s.rdb (reqPage (pgOhq
    r) w) OHQ_SEL_dir = false → s.chValid r 0 i = true → s.chOwned w r 0 i = true → (s.cap r i).inside = false → (s.cap r i).flush = none → (s.cap r
    i).done = p :: rest → p.hdrBad = false → ∃ t, exec (.ohqRdRead w r) s = .next t ∧ t.reply = some ⟨bsOk, [2 ^ 28 + b2n (s.cap r i).lostBefore * 2 ^
    23 + p.hdr]⟩ ∧ (t.cap r i).done = rest ∧ (t.cap r i).cur = p.words) ∧
  (∀ s w r i v rest, s.dom = .run → r < 8 → s.admitCode w (pgOhq r) false = bsOk → i = s.rd (reqPage (pgOhq r) w) OHQ_SEL_ch → s.rdb (reqPage (pgOhq
    r) w) OHQ_SEL_dir = false → s.chValid r 0 i = true → s.chOwned w r 0 i = true → (s.cap r i).inside = true → (s.cap r i).cur = (v, false) :: rest →
    ∃ t, exec (.ohqRdRead w r) s = .next t ∧ t.reply = some ⟨bsOk, [v]⟩ ∧ (t.cap r i).cur = rest) ∧
  (∀ s w r i, s.dom = .run → r < 8 → s.admitCode w (pgOhq r) false = bsOk → i = s.rd (reqPage (pgOhq r) w) OHQ_SEL_ch → s.rdb (reqPage (pgOhq r) w)
    OHQ_SEL_dir = false → s.chValid r 0 i = true → s.chOwned w r 0 i = true → (s.cap r i).inside = false → (s.cap r i).flush = none → (s.cap r i).done
    = [] → ∃ t, exec (.ohqRdRead w r) s = .next t ∧ t.reply = some ⟨bsOk, [0x80000000]⟩ ∧ t.caps = s.caps) ∧
  (∀ s w r v i, s.dom = .run → r < 8 → s.admitCode w (pgOhq r) true = bsOk → i = s.rd (reqPage (pgOhq r) w) OHQ_SEL_ch → s.rdb (reqPage (pgOhq r) w)
    OHQ_SEL_dir = true → s.chValid r 1 i = true → s.chOwned w r 1 i = true → bit v 31 = false → bit v 30 = false → bit v 29 = true → (s.ins r
    i).writer = none → (s.ins r i).skip = false → (s.ins r i).wr = [] → (s.ins r i).flushAt ≠ s.dpCycle + 1 → (s.ins r i).wrBytes + getBits v 25 24 ≤
    s.chLen r 1 i → insUsed (s.ins r i) < s.chWords r 1 i → ∃ t, exec (.ohqWrWrite w r v) s = .next t ∧ (t.ins r i).done = (s.ins r i).done ++
    [[(getBits v 25 24 * 2 ^ 24 + v % 2 ^ 24, false)]] ∧ (t.ins r i).writer = none) ∧
  (∀ s w r i, s.dom = .run → r < 8 → s.admitCode w (pgOhq r) true = bsOk → s.ohqJudge w r 0 i 0 = ohqDone → (s.cap r i).inside = false → ∃ t, exec
    (.flush w r 0 i) s = .next t ∧ (t.cap r i).done = [] ∧ t.rd (reqPage (pgOhq r) w) OHQ_CMD_STATUS_code = ohqDone) ∧
  (∀ s w r i, s.dom = .run → r < 8 → s.admitCode w (pgOhq r) true = bsOk → s.ohqJudge w r 0 i 0 = ohqDone → (s.cap r i).inside = true → ∃ t, exec
    (.flush w r 0 i) s = .next t ∧ (t.cap r i).done = (s.cap r i).done ∧ (t.cap r i).flush.isSome = true ∧ t.rd (reqPage (pgOhq r) w)
    OHQ_CMD_STATUS_code = ohqPending) ∧
  (∀ s r i n l, s.dom = .run → (s.cap r i).flush = some (n, l) → (s.cap r i).inside = false → ∃ t, exec (.flushApply r 0 i) s = .next t ∧ (t.cap r
    i).done = (s.cap r i).done.drop n ∧ (t.cap r i).flush = none) ∧
  (∀ s w r i, s.dom = .run → r < 8 → s.admitCode w (pgOhq r) true = bsOk → s.ohqJudge w r 0 i 1 = ohqDone → s.chMode r 0 i ≠ mAps → (s.cap r i).inside
    = true → (s.readSoon r i && decide ((s.cap r i).cur.length ≤ 1)) = false → ∃ t, exec (.dropRest w r 0 i) s = .next t ∧ (t.cap r i).cur = [] ∧
    (t.cap r i).inside = false ∧ t.rd (reqPage (pgOhq r) w) OHQ_CMD_STATUS_code = ohqDone)

/-- R372 to R375: the commands of a check unit. -/
def Obligations.CheckUnits : Prop :=
  (∀ s w u, s.dom = .run → u < 32 → s.admitCode w (pgChk u) true = bsOk → s.chkAllowed u w.master = true → ∃ t, exec (.chkStart w u) s = .next t ∧
    t.chkOpen u = true ∧ t.rd (pgChk u) CHK_STATUS_holder = w.master.code ∧ (t.chk u).reg = s.rd (pgChk u) CHK_INIT_value % 2 ^ s.chkWidth u ∧ (t.chk
    u).n = 0) ∧
  (∀ s w u, s.dom = .run → u < 32 → s.admitCode w (pgChk u) true = bsOk → s.chkAllowed u w.master = false → ∃ t, exec (.chkStart w u) s = .next t ∧
    t.rd (pgChk u) CHK_REFUSED = (s.rd (pgChk u) CHK_REFUSED + 1) % 2 ^ CHK_REFUSED.width ∧ t.chks = s.chks ∧ t.rd (pgChk u) CHK_STATUS_holder = s.rd
    (pgChk u) CHK_STATUS_holder) ∧
  (∀ s w u v bits, s.dom = .run → u < 32 → s.admitCode w (pgChk u) true = bsOk → s.chkAllowed u w.master = true → s.chkOpen u = true → bits = chkOrder
    (s.rdb (pgChk u) CHK_CFG_refin) 4 (feedBits (s.rdb (pgChk u) CHK_FEED_CFG_order) (s.rd (pgChk u) CHK_FEED_CFG_bits) v) → ∃ t, exec (.chkDataWrite
    w u v) s = .next t ∧ (t.chk u).reg = crcBits (s.chkWidth u) (s.rd (pgChk u) CHK_POLY_value % 2 ^ s.chkWidth u) (s.chk u).reg bits ∧ (t.chk u).n =
    (s.chk u).n + bits.length) ∧
  (∀ s w u, s.dom = .run → u < 32 → s.admitCode w (pgChk u) true = bsOk → s.chkAllowed u w.master = true → s.chkOpen u = true → ∃ t, exec (.chkFinish
    w u) s = .next t ∧ t.rd (pgChk u) CHK_RESULT_res = chkRes (s.chkWidth u) (s.rd (pgChk u) CHK_XOR_value) (s.rdb (pgChk u) CHK_CFG_refout) (s.chk
    u).reg % 2 ^ CHK_RESULT_res.width ∧ t.rd (pgChk u) CHK_RUNS = (s.rd (pgChk u) CHK_RUNS + 1) % 2 ^ CHK_RUNS.width ∧ t.hasEvt (pgChk u) chkDone =
    true ∧ t.chkOpen u = false ∧ t.rd (pgChk u) CHK_STATUS_holder = holdNone) ∧
  (∀ s w u, s.dom = .run → u < 32 → s.admitCode w (pgChk u) true = bsOk → s.chkAllowed u w.master = true → ∃ t, exec (.chkAbort w u) s = .next t ∧
    t.chkOpen u = false ∧ t.rd (pgChk u) CHK_STATUS_holder = holdNone ∧ t.rd (pgChk u) CHK_RESULT_res = s.rd (pgChk u) CHK_RESULT_res)

/-! ### Stage Door Port and Call Board Bus (file 11) -/

/-- R382 to R386, R389, R393: frames received by the stage door port. -/
def Obligations.StageDoorReceive : Prop :=
  (∀ s b, s.dom = .run → s.mode ≠ modeDark → s.sdpRuns = true → s.sdpCarries = true → by16 b 12 ≠ 0x8808 → s.addrPass b = true → s.sdpUsed + s.sdpMax
    + 16 ≤ 262144 → 64 ≤ b.length → b.length ≤ s.sdpMax → fcsOk b = true → s.rdb pgSdp SDP_SVC_svc_en = false → ∃ t, exec (.sdpFrameReceive b) s =
    .next t ∧ (∃ f, t.sdpRx0 = s.sdpRx0 ++ [f] ∧ f.bytes = b.take (b.length - 4) ∧ f.trunc = false) ∧ t.tget pgSdp T_SDP_STAT 0 SDP_STAT.count =
    (s.tget pgSdp T_SDP_STAT 0 SDP_STAT.count + 1) % 2 ^ 32 ∧ t.hasEvt pgSdp 1 = true) ∧
  (∀ s b, s.dom = .run → s.mode ≠ modeDark → s.sdpRuns = true → s.sdpCarries = true → by16 b 12 ≠ 0x8808 → s.addrPass b = true → s.sdpUsed + s.sdpMax
    + 16 ≤ 262144 → 64 ≤ b.length → fcsOk b = false → ∃ t, exec (.sdpFrameReceive b) s = .next t ∧ t.tget pgSdp T_SDP_STAT 14 SDP_STAT.count = (s.tget
    pgSdp T_SDP_STAT 14 SDP_STAT.count + 1) % 2 ^ 32 ∧ t.sdpRx0 = s.sdpRx0 ∧ t.sdpRx1 = s.sdpRx1) ∧
  (∀ s b c, s.dom = .run → s.mode ≠ modeDark → s.sdpRuns = true → s.sdpCarries = true → by16 b 12 = 0x8808 → 64 ≤ b.length → fcsOk b = true → by16 b
    14 = 1 → s.rdb pgSdp SDP_CFG_pause_en = true → c < 8 → bit (s.rd pgSdp SDP_STATUS_wd_ignore) c = false → by16 b 16 ≠ 0 → ∃ t, exec
    (.sdpFrameReceive b) s = .next t ∧ bit (t.rd pgSdp SDP_STATUS_paused) c = true ∧ t.sdpQuanta.get 0 c = by16 b 16 ∧ t.tget pgSdp T_SDP_STAT 18
    SDP_STAT.count = (s.tget pgSdp T_SDP_STAT 18 SDP_STAT.count + 1) % 2 ^ 32) ∧
  (∀ s b n rest, s.dom = .dark → s.mode = modeDark → s.wakeMatches b = n :: rest → ∃ t, exec (.sdpFrameReceive b) s = .next t ∧ t.rd pgCbb
    CBB_WAKE_CAUSE_filter = n ∧ t.rdb pgCbb CBB_WAKE_CAUSE_filter_match = true ∧ t.rdb pgCbb CBB_WAKE_CAUSE_wake_out = true) ∧
  (∀ s w rq f rest, s.dom = .run → s.admitCode w pgSdp false = bsOk → rq = reqPage pgSdp w → s.rd rq SDP_RX_SEL_q = 0 → s.sdpRx0 = f :: rest → ∃ t,
    exec (.sdpRxDescRead w) s = .next t ∧ t.reply = some ⟨bsOk, [f.bytes.length + b2n f.stamp.isSome * 2 ^ 29 + b2n f.trunc * 2 ^ 30]⟩ ∧ t.sdpRx0 =
    rest ∧ t.sdpCur.get [] rq = f.bytes) ∧
  (∀ s w rq, s.dom = .run → s.admitCode w pgSdp false = bsOk → rq = reqPage pgSdp w → s.rd rq SDP_RX_SEL_q = 0 → s.sdpRx0 = [] → ∃ t, exec
    (.sdpRxDescRead w) s = .next t ∧ t.reply = some ⟨bsOk, [2 ^ 31]⟩ ∧ t.sdpCur.get [] rq = []) ∧
  (∀ s w rq, s.dom = .run → s.admitCode w pgSdp false = bsOk → rq = reqPage pgSdp w → ∃ t, exec (.sdpRxDataRead w) s = .next t ∧ t.reply = some ⟨bsOk,
    [(takeWord (s.sdpCur.get [] rq)).1]⟩ ∧ t.sdpCur.get [] rq = (s.sdpCur.get [] rq).drop 4)

/-- R387 to R391, R407: the transmit queues, pause and the link of the stage door port. -/
def Obligations.StageDoorTransmit : Prop :=
  (∀ s w q len rq, s.dom = .run → s.admitCode w pgSdp true = bsOk → rq = reqPage pgSdp w → q < 8 → (s.sdpWr.get {} rq).active = false → 14 ≤ len → len
    ≤ s.sdpMax - 4 → len ≤ (s.sdpRow q).2.1 * 4096 → s.sdpWr.any (fun x => x.2.active && decide (x.2.q = q)) = false → ∃ t, exec (.sdpTxStart w q len)
    s = .next t ∧ t.sdpWr.get {} rq = ⟨true, q, len, [], s.sdpStarts + 1⟩ ∧ t.rd rq SDP_TX_STATUS_code = txWriting) ∧
  (∀ s w q len rq, s.dom = .run → s.admitCode w pgSdp true = bsOk → rq = reqPage pgSdp w → (s.sdpWr.get {} rq).active = false → len < 14 ∨ s.sdpMax -
    4 < len → ∃ t, exec (.sdpTxStart w q len) s = .next t ∧ t.rd rq SDP_TX_STATUS_code = txRefLen ∧ t.sdpWr = s.sdpWr ∧ t.sdpTx = s.sdpTx) ∧
  (∀ s w v rq x, s.dom = .run → s.admitCode w pgSdp true = bsOk → rq = reqPage pgSdp w → x = s.sdpWr.get {} rq → x.active = true → x.len ≤
    x.bytes.length + 4 → s.sdpLast.get 0 rq = x.id → ∃ t, exec (.sdpTxDataWrite w v) s = .next t ∧ (∃ f, t.txq x.q = s.txq x.q ++ [f] ∧ f.bytes =
    (x.bytes ++ (List.range 4).map (fun k => v / 256 ^ k % 256)).take x.len) ∧ (t.sdpWr.get {} rq).active = false ∧ t.rd rq SDP_TX_STATUS_code =
    txCommitted) ∧
  (∀ s w rq, s.dom = .run → s.admitCode w pgSdp true = bsOk → rq = reqPage pgSdp w → (s.sdpWr.get {} rq).active = true → s.sdpLast.get 0 rq =
    (s.sdpWr.get {} rq).id → ∃ t, exec (.sdpTxAbort w) s = .next t ∧ (t.sdpWr.get {} rq).active = false ∧ t.rd rq SDP_TX_STATUS_code = txLost ∧
    t.sdpTx = s.sdpTx) ∧
  (∀ s q f rest, s.dom = .run → s.sdpRuns = true → s.sdpCarries = true → (List.range 8).all (fun k => (s.txq k).all (fun g => !s.txAged k g false)) =
    true → (List.range 8).reverse.find? (fun k => !(s.txq k).isEmpty && !bit (s.rd pgSdp SDP_STATUS_paused) k) = some q → s.txq q = f :: rest → ∃ t,
    exec (.sdpTransmit) s = .next t ∧ (∃ b, t.out = [.sdpFrame b]) ∧ t.txq q = rest ∧ t.tget pgSdp T_SDP_STAT 32 SDP_STAT.count = (s.tget pgSdp
    T_SDP_STAT 32 SDP_STAT.count + 1) % 2 ^ 32) ∧
  (∀ s q f, s.dom = .run → q < 8 → s.txq q = [f] → s.txAged q f (s.pending.contains .sdpTransmit) = true → ∃ t, exec (.sdpAgeScan) s = .next t ∧ t.txq
    q = [] ∧ t.tget pgSdp T_SDP_STAT (48 + q) SDP_STAT.count = (s.tget pgSdp T_SDP_STAT (48 + q) SDP_STAT.count + 1) % 2 ^ 32 ∧ t.hasEvt pgSdp 2 =
    true) ∧
  (∀ s c, s.dom = .run → c < 8 → ∃ t, exec (.pauseExpiry c) s = .next t ∧ bit (t.rd pgSdp SDP_STATUS_paused) c = false ∧ t.sdpQuanta.get 0 c = 0 ∧
    t.events = s.events) ∧
  (∀ s c, s.dom = .run → c < 8 → bit (s.rd pgSdp SDP_STATUS_paused) c = true → ∃ t, exec (.pauseBreak c) s = .next t ∧ bit (t.rd pgSdp
    SDP_STATUS_paused) c = false ∧ bit (t.rd pgSdp SDP_STATUS_wd_ignore) c = true ∧ t.tget pgSdp T_SDP_STAT 45 SDP_STAT.count = (s.tget pgSdp
    T_SDP_STAT 45 SDP_STAT.count + 1) % 2 ^ 32 ∧ t.hasEvt pgSdp 4 = true) ∧
  (∀ s c, s.dom = .run → c < 8 → ∃ t, exec (.pauseIgnoreEnd c) s = .next t ∧ bit (t.rd pgSdp SDP_STATUS_wd_ignore) c = false ∧ t.events = s.events) ∧
  (∀ s w rq, s.dom = .run → s.admitCode w pgSdp false = bsOk → rq = reqPage pgSdp w → s.door.halfAt.1 ≠ s.dpCycle + 1 → ∃ t, exec (.sdpStatHalfRead w)
    s = .next t ∧ t.reply = some ⟨bsOk, [s.rd pgSdp SDP_STAT_HALF_half % 2 ^ 32]⟩ ∧ t.rd pgSdp SDP_STAT_HALF_half = 0 ∧ t.rd rq (shadowF 0x0A4) = s.rd
    pgSdp SDP_STAT_HALF_half / 2 ^ 32 % 2 ^ 32) ∧
  (∀ s lock lf rf, s.dom = .run → s.rdb pgSdp PAGE_CTRL_run = true → s.mode ≠ modeDark → ∃ t, exec (.sdpLinkChange lock lf rf) s = .next t ∧ t.rdb
    pgSdp SDP_STATUS_link = (lock && !lf && !rf) ∧ t.rdb pgSdp SDP_STATUS_local_fault = lf ∧ t.rdb pgSdp SDP_STATUS_remote_fault = rf ∧ ((s.rdb pgSdp
    SDP_STATUS_local_fault ≠ lf → t.hasEvt pgSdp 0 = true)))

/-- R395 to R398: the call board bus. -/
def Obligations.CallBoardBus : Prop :=
  (∀ s x, cbbGood ((cbbUnline x.line).getD []) = false → ∃ t, exec (.cbbFrameReceive x) s = .next t ∧ t.rd pgCbb CBB_rx_bad = (s.rd pgCbb CBB_rx_bad +
    1) % 2 ^ 32 ∧ t.out = [] ∧ t.cbbRx = s.cbbRx) ∧
  (∀ s x b, cbbUnline x.line = some b → cbbGood b = true → b.getD 2 0 = cbPoll → b.getD 0 0 % 128 = s.cbbAddr → x.collides = false → s.cbbTx = none →
    ∃ t, exec (.cbbFrameReceive x) s = .next t ∧ t.out = [.cbbFrame (cbbLine (cbbBytes (b.getD 1 0 % 128) s.cbbAddr cbNone s.nonePayload))] ∧
    t.cbbState = busMaster ∧ t.rd pgCbb CBB_rx_frames = (s.rd pgCbb CBB_rx_frames + 1) % 2 ^ 32 ∧ t.rd pgCbb CBB_tx_frames = (s.rd pgCbb CBB_tx_frames
    + 1) % 2 ^ 32) ∧
  (∀ s x b, cbbUnline x.line = some b → cbbGood b = true → b.getD 2 0 = cbData → b.getD 0 0 % 128 = s.cbbAddr → s.mode ≠ modeDark → s.cbbRx.length <
    16 → ∃ t, exec (.cbbFrameReceive x) s = .next t ∧ t.cbbRx = s.cbbRx ++ [⟨(b.getD 1 0 % 128), cbData, (b.drop 5).take (by16 b 3)⟩] ∧ t.hasEvt pgCbb
    0 = true) ∧
  (∀ s w typ dst len rq, s.dom = .run → s.admitCode w pgCbb true = bsOk → rq = reqPage pgCbb w → (typ = cbData ∧ len ≤ 256) ∨ (typ = cbWake ∧ len = 0)
    → s.cbbTx = none → ∃ t, exec (.cbbTxSend w typ dst len) s = .next t ∧ t.cbbTx = some ⟨typ, dst % 128, len, [], rq⟩ ∧ t.rd rq CBB_TX_STATUS_code =
    1) ∧
  (∀ s w typ dst len rq, s.dom = .run → s.admitCode w pgCbb true = bsOk → rq = reqPage pgCbb w → (typ = cbData ∧ len ≤ 256) ∨ (typ = cbWake ∧ len = 0)
    → s.cbbTx ≠ none → ∃ t, exec (.cbbTxSend w typ dst len) s = .next t ∧ t.cbbTx = s.cbbTx ∧ t.rd rq CBB_TX_STATUS_code = 2) ∧
  (∀ s w typ dst len rq, s.dom = .run → s.admitCode w pgCbb true = bsOk → rq = reqPage pgCbb w → 256 < len → ∃ t, exec (.cbbTxSend w typ dst len) s =
    .next t ∧ t.cbbTx = s.cbbTx ∧ t.rd rq CBB_TX_STATUS_code = 3) ∧
  (∀ s w rq x, s.dom = .run → s.admitCode w pgCbb true = bsOk → rq = reqPage pgCbb w → s.cbbTx = some x → x.who = rq → x.bytes.length < x.len → ∃ t,
    exec (.cbbTxAbort w) s = .next t ∧ t.cbbTx = none ∧ t.rd rq CBB_TX_STATUS_code = 0) ∧
  (∀ s x, s.cbbTx = some x → ∃ t, exec (.cbbTxTimeout) s = .next t ∧ t.cbbTx = none ∧ t.rd x.who CBB_TX_STATUS_code = 4 ∧ t.rd pgCbb CBB_tx_dropped =
    (s.rd pgCbb CBB_tx_dropped + 1) % 2 ^ 32) ∧
  (∀ s, s.cbbState = busMaster → s.pollSoon = false → ∃ t, exec (.masterLost) s = .next t ∧ t.cbbState = (if s.rdb pgCbb CBB_CFG_token_en then
    busToken else busSilent) ∧ t.hasEvt pgCbb 5 = true) ∧
  (∀ s col, s.cbbState = busToken → s.mode ≠ modeDark → s.cbbTx = none → s.ringNext s.cbbAddr = none → ∃ t, exec (.tokenRegen col) s = .next t ∧ t.rd
    pgCbb CBB_token_regen = (s.rd pgCbb CBB_token_regen + 1) % 2 ^ 32 ∧ t.rdb pgCbb CBB_BUS_token_held = true ∧ t.out = []) ∧
  (∀ s col a, s.cbbState = busToken → s.mode ≠ modeDark → s.cbbTx = none → s.ringNext s.cbbAddr = some a → ∃ t, exec (.tokenRegen col) s = .next t ∧
    t.rd pgCbb CBB_token_regen = (s.rd pgCbb CBB_token_regen + 1) % 2 ^ 32 ∧ t.rdb pgCbb CBB_BUS_token_held = false ∧ t.out = [.cbbFrame (cbbLine
    (cbbBytes a s.cbbAddr cbToken []))] ∧ t.cbbNext = some a) ∧
  (∀ s a, s.cbbState = busToken → s.cbbNext = some a → ∃ t, exec (.tokenSuccessorTimeout) s = .next t ∧ t.cbbRing = s.cbbRing.filter (fun e => decide
    (e.1 ≠ a)))

/-- R400 to R405: curtain calls. -/
def Obligations.CurtainCalls : Prop :=
  (∀ s, s.rdb pgCbb CBB_CFG_cc_en = true → s.ccLeader = true → ∃ t, exec (.beaconSend false) s = .next t ∧ t.out = [.cbbFrame (cbbLine (cbbBytes
    s.cbbMate s.cbbAddr cbBeacon s.beaconPayload))] ∧ t.cbbSeq = (s.cbbSeq + 1) % 2 ^ 32 ∧ t.rd pgCbb CBB_beacons_tx = (s.rd pgCbb CBB_beacons_tx + 1)
    % 2 ^ 32) ∧
  (∀ s, s.ccState = ccScheduled → s.cbbHeard = false → s.ccSoon = false → s.rd pgCbb CBB_CC_STATUS_misses = 1 → ∃ t, exec (.windowClose) s = .next t ∧
    t.ccState = ccOpenHouse ∧ t.rd pgCbb CBB_CC_STATUS_misses = 2 ∧ t.rd pgCbb CBB_misses = (s.rd pgCbb CBB_misses + 1) % 2 ^ 32 ∧ t.rd pgCbb
    CBB_open_house = (s.rd pgCbb CBB_open_house + 1) % 2 ^ 32 ∧ t.hasEvt pgCbb 3 = true) ∧
  (∀ s, s.ccState = ccScheduled → s.cbbHeard = true → ∃ t, exec (.windowClose) s = .next t ∧ t.cbbHeard = false ∧ (∀ pg f, t.rd pg f = s.rd pg f)) ∧
  (∀ s, s.ccState = ccOpenHouse → s.ccSoon = false → ∃ t, exec (.partnerLost) s = .next t ∧ t.ccState = ccLost ∧ t.hasEvt pgCbb 4 = true ∧ t.rdb pgCbb
    CBB_WAKE_CAUSE_partner_lost = true ∧ t.rdb pgCbb CBB_WAKE_CAUSE_wake_out = true) ∧
  (∀ s, s.dom = .run → s.door.wakeNow = none → ∃ t, exec (.cbbWakeAck) s = .next t ∧ t.rdb pgCbb CBB_WAKE_CAUSE_wake_out = false ∧ t.rdb pgCbb
    CBB_WAKE_CAUSE_cbb_wake = false ∧ t.rd pgSdp SDP_WAKE_STATUS_matched = 0 ∧ t.events = s.events)

/-! ### Timing (file 12) -/

/-- R411 to R419: what each event at a clock synthesis unit does. -/
def Obligations.ClockUnits : Prop :=
  (∀ s u ppm, s.dom = .run → u < csuUnits → s.rdb (pgCsu u) CSU_STATUS_ref_ok = true → ∃ t, exec (.refLost u ppm) s = .next t ∧ t.rdb (pgCsu u)
    CSU_STATUS_ref_ok = false ∧ t.rdb (pgCsu u) CSU_STATUS_locked = false ∧ t.rdb (pgCsu u) CSU_STATUS_gated = true ∧ t.rd (pgCsu u)
    CSU_ref_lost_count = (s.rd (pgCsu u) CSU_ref_lost_count + 1) % 2 ^ 32 ∧ t.hasEvt (pgCsu u) 2 = true) ∧
  (∀ s u ppm t16, s.dom = .run → u < csuUnits → s.rdb (pgCsu u) CSU_STATUS_ref_ok = false → (s.csu u).reband ≠ .held → ∃ t, exec (.refBack u ppm t16)
    s = .next t ∧ t.rdb (pgCsu u) CSU_STATUS_ref_ok = true ∧ t.rd (pgCsu u) CSU_REF_PPM_ppm = ofSigned 16 (clampInt (-32767) 32767 ppm) ∧ t.hasEvt
    (pgCsu u) 3 = true ∧ t.rdb (pgCsu u) CSU_STATUS_gated = s.rdb (pgCsu u) CSU_STATUS_gated ∧ t.rdb (pgCsu u) CSU_STATUS_locked = s.rdb (pgCsu u)
    CSU_STATUS_locked) ∧
  (∀ s u, s.dom = .run → u < csuUnits → s.rdb (pgCsu u) CSU_STATUS_locked = true → ∃ t, exec (.lockLost u) s = .next t ∧ t.rdb (pgCsu u)
    CSU_STATUS_locked = false ∧ t.rdb (pgCsu u) CSU_STATUS_gated = true ∧ t.rd (pgCsu u) CSU_lock_lost_count = (s.rd (pgCsu u) CSU_lock_lost_count +
    1) % 2 ^ 32 ∧ t.hasEvt (pgCsu u) 0 = true) ∧
  (∀ s u, s.dom = .run → u < csuUnits → u ≠ 0 → (s.csu u).banded = true → (s.csu u).reband = .none → s.rdb (pgCsu u) CSU_STATUS_ref_ok = true → s.rdb
    (pgCsu u) CSU_STATUS_locked = false → ∃ t, exec (.relock u true) s = .next t ∧ t.rdb (pgCsu u) CSU_STATUS_locked = true ∧ t.rdb (pgCsu u)
    CSU_STATUS_gated = false ∧ t.rdb (pgCsu u) CSU_STATUS_band_edge = false ∧ t.hasEvt (pgCsu u) 1 = true ∧ t.rd (pgCsu u) CSU_STATUS_band = s.rd
    (pgCsu u) CSU_STATUS_band) ∧
  (∀ s u w t16 rq, s.dom = .run → s.admitCode w (pgCsu u) true = bsOk → u < csuUnits → rq = rqPage (pgCsu u) w.master → s.rebandAllowed u w = false →
    ∃ t, exec (.reband u w t16) s = .next t ∧ t.rd rq CSU_CMD_STATUS_code = 2 ∧ t.csus = s.csus ∧ t.rdb (pgCsu u) CSU_STATUS_locked = s.rdb (pgCsu u)
    CSU_STATUS_locked) ∧
  (∀ s u w t16 rq b, s.dom = .run → s.admitCode w (pgCsu u) true = bsOk → u < csuUnits → rq = rqPage (pgCsu u) w.master → u ≠ 0 → s.rebandAllowed u w
    = true → s.rdb (pgCsu u) CSU_STATUS_ref_ok = true → s.refLostSoon u = false → s.chooseBand u (if isLg u then s.rd (pgCsu u) CSU_CFG_ref_type else
    0) t16 = some b → ∃ t, exec (.reband u w t16) s = .next t ∧ t.rd rq CSU_CMD_STATUS_code = 1 ∧ t.rdb (pgCsu u) CSU_STATUS_gated = true ∧ t.rdb
    (pgCsu u) CSU_STATUS_locked = false ∧ t.rdb (pgCsu u) CSU_STATUS_no_band = false ∧ t.rd (pgCsu u) CSU_STATUS_band = b ∧ (t.csu u).reband =
    .running) ∧
  (∀ s u, s.dom = .run → u < csuUnits → (s.csu u).reband = .running → (s.csu u).waiting.all (fun p => decide (p % 65536 = pgCsu u)) = true → ∃ t, exec
    (.rebandDone u) s = .next t ∧ t.rdb (pgCsu u) CSU_STATUS_locked = true ∧ t.rdb (pgCsu u) CSU_STATUS_gated = false ∧ t.rdb (pgCsu u)
    CSU_STATUS_reband_busy = false ∧ (t.csu u).refType = (s.csu u).selType ∧ (t.csu u).waiting = [] ∧ t.hasEvt (pgCsu u) 5 = true ∧ (s.csu
    u).waiting.all (fun p => decide (t.rd p CSU_CMD_STATUS_code = 0)) = true) ∧
  (∀ s u m, s.dom = .run → u < csuUnits → s.rdb (pgCsu u) CSU_STATUS_locked = true → m < s.rd (pgCsu u) CSU_CFG_edge_pct → s.rdb (pgCsu u)
    CSU_STATUS_band_edge = false → ∃ t, exec (.bandEdge u m) s = .next t ∧ t.rdb (pgCsu u) CSU_STATUS_band_edge = true ∧ t.rd (pgCsu u)
    CSU_STATUS_margin = min 255 m ∧ t.rd (pgCsu u) CSU_band_edge_cnt_count = (s.rd (pgCsu u) CSU_band_edge_cnt_count + 1) % 2 ^ 32 ∧ t.hasEvt (pgCsu
    u) 4 = true ∧ t.rd (pgCsu u) CSU_STATUS_band = s.rd (pgCsu u) CSU_STATUS_band ∧ t.rdb (pgCsu u) CSU_STATUS_locked = true)

/-- R424 to R432, R436: the time base's inputs, outputs and reads. -/
def Obligations.TimeBaseInputs : Prop :=
  (∀ s j (n : Nat) x, s.dom = .run → j < 2 → s.tb.ns ≤ n → n < 1000000000 → s.ppsOk j = false → x = s.pps.get {} j → x.runs = 2 → x.spaced (s.tb.sec *
    secNs + n) = true → ∃ t, exec (.ppsEdge j n) s = .next t ∧ t.ppsOk j = true ∧ t.hasEvt pgTim 1 = true) ∧
  (∀ s (n : Nat) sec th, s.dom = .run → s.tb.ns ≤ n → n < 1000000000 → s.rd pgTim TIM_CFG_pps_sel = 0 → s.ppsOk 0 = true → s.tim.todNext = some sec →
    s.rd pgTim (TIM_PPS_DELAY_delay 0) = 0 → th = sec * secNs - (s.tb.sec * secNs + n) → s.ppsInWindow th = true → th.natAbs < s.rd pgTim
    TIM_STEP_thresh → th ≠ 0 → ∃ t, exec (.ppsEdge 0 n) s = .next t ∧ t.rd pgTim TIM_OFFSET_value = ofSigned 32 (clampSigned 32 th) ∧ t.tim.theta =
    some th ∧ t.tim.sigma = Int.sign th * s.slewPpm ∧ t.rdb pgTim TIM_STATUS_slewing = true ∧ t.tb.sec = s.tb.sec ∧ t.tim.todNext = none) ∧
  (∀ s j, s.dom = .run → j < 2 → s.ppsOk j = true → ∃ t, exec (.ppsLost j) s = .next t ∧ t.ppsOk j = false ∧ t.hasEvt pgTim 0 = true ∧ t.pps.get {} j
    = {} ∧ t.tb = s.tb) ∧
  (∀ s line n b, s.dom = .run → b = (uartChars ((line.length + 9) / 10) line).getD [] → todGood b = true → (s.tbTo n).todInTime = true → ∃ t, exec
    (.todMessage line n) s = .next t ∧ t.tim.todNext = some (by16 b 4 * 2 ^ 32 + by32 b 6) ∧ t.rdb pgTim TIM_STATUS_tod_ok = true ∧ t.tim.todLast =
    (b.drop 10).take 3) ∧
  (∀ s line n, s.dom = .run → (todGood ((uartChars ((line.length + 9) / 10) line).getD []) && (s.tbTo n).todInTime) = false → ∃ t, exec (.todMessage
    line n) s = .next t ∧ t.rd pgTim TIM_tod_err = (s.rd pgTim TIM_tod_err + 1) % 2 ^ 32 ∧ t.tim = s.tim) ∧
  (∀ s, s.dom = .run → s.tim.sigma ≠ 0 → ∃ t, exec (.slewDone) s = .next t ∧ t.tim.sigma = 0 ∧ t.tim.rho = 0 ∧ t.rdb pgTim TIM_STATUS_slewing = false
    ∧ t.tb = s.tb) ∧
  (∀ s, s.dom = .run → s.rd pgTim TIM_CFG_holdover_h ≠ 0 → s.baseQuality = 1 → s.overThresh = false → s.edgeNow = false → ∃ t, exec (.holdoverExpired)
    s = .next t ∧ t.rd pgTim TIM_STATUS_quality = 2 ∧ t.tim.expired = true ∧ t.hasEvt pgTim 6 = true) ∧
  (∀ s, s.dom = .run → s.rdb pgTim TIM_TOD_OUT_en = true → ∃ t, exec (.todOutSend) s = .next t ∧ (∃ b : List Nat, t.out = [.todOut (b.flatMap
    uartChar)] ∧ b.length = 13 + s.tim.todLast.length ∧ b.take 4 = [0xA5, 0x5A, 0x01, 0x0A]) ∧ (∀ pg f, t.rd pg f = s.rd pg f)) ∧
  (∀ s w, s.dom = .run → s.admitCode w pgTim false = bsOk → ∃ t, exec (.timNowRead w) s = .next t ∧ t.reply = some ⟨bsOk, [s.tb.sec % 2 ^ 48 % 2 ^
    32]⟩ ∧ t.tb = s.tb ∧ t.rd (reqPage pgTim w) (TIM_NOW 1) = (s.tb.frac / 2 ^ 32 * 65536 + s.tb.sec % 2 ^ 48 / 2 ^ 32 % 65536) % 2 ^ 32) ∧
  (∀ s w, s.dom = .run → s.admitCode w pgTim true = bsOk → s.ppsAny = true → ∃ t, exec (.setSec w) s = .next t ∧ t.rdb pgTim TIM_STATUS_set_refused =
    true ∧ t.tim = s.tim) ∧
  (∀ s w, s.dom = .run → s.admitCode w pgTim true = bsOk → s.ppsAny = false → s.qualifiesSoon (fun _ => true) = false → ∃ t, exec (.setSec w) s =
    .next t ∧ t.rdb pgTim TIM_STATUS_set_refused = false ∧ t.tim.setSec = some (s.rd pgTim TIM_SET_SEC_sec) ∧ t.tb = s.tb) ∧
  (∀ s w, s.dom = .run → s.admitCode w pgTim false = bsOk → ∃ t, exec (.timTsRead w) s = .next t ∧ t.reply = some ⟨bsOk, [s.tsLog.headD 0 % 2 ^ 32]⟩ ∧
    t.tsLog = s.tsLog.drop 1 ∧ t.rd (reqPage pgTim w) (TIM_TS_entry 3) = s.tsLog.headD 0 / 2 ^ 96 % 2 ^ 32)

/-! ### Host interface and boxes (file 13) -/

/-- R441 to R464: the host link, requests and the DMA master. -/
def Obligations.HostInterface : Prop :=
  (∀ s, s.dom = .run → s.rdb pgHst HST_LINK_up = true → ∃ t, exec (.hostLinkDown) s = .next t ∧ t.rdb pgHst HST_LINK_up = false ∧ t.rd pgHst
    HST_LINK_drops = (s.rd pgHst HST_LINK_drops + 1) % 2 ^ 16 ∧ t.hasEvt pgHst 0 = true ∧ t.numVfs = 0 ∧ (List.range 4).all (fun c => decide (t.rd
    pgHst (HST_DMA_STATUS_state c) ≠ dmaBusy)) = true ∧ t.tabs = s.tabs) ∧
  (∀ s w v, s.dom = .run → s.rdb pgHst HST_LINK_up = false → ∃ t, exec (.hostLinkUp w v) s = .next t ∧ t.rdb pgHst HST_LINK_up = true ∧ t.rd pgHst
    HST_LINK_width = w % 16 ∧ t.rd pgHst HST_LINK_speed = v % 16 ∧ t.hasEvt pgHst 1 = true) ∧
  (∀ s x c, s.dom = .run → 2 ≤ s.rd pgMode MODE_CALL_step → s.rdb pgHst HST_LINK_up = true → c = s.hostAdmit x (s.hostTarget x) → c ≠ bsOk → x.held =
    false → x.late = false → ∃ t, exec (.hostRequest x) s = .next t ∧ t.reply = some ⟨c, []⟩ ∧ t.rd pgBxm (BXM_ERR_CNT c) = (s.rd pgBxm (BXM_ERR_CNT
    c) + 1) % 2 ^ 32 ∧ t.hst.seq = (s.hst.seq + 1) % 2 ^ 32 ∧ t.mem = s.mem) ∧
  (∀ s x a, s.dom = .run → 2 ≤ s.rd pgMode MODE_CALL_step → s.rdb pgHst HST_LINK_up = true → s.hostTarget x = .aperture a → s.hostAdmit x (.aperture
    a) = bsOk → x.op = .read → x.len = 1 → x.poison = false → ∃ t, exec (.hostRequest x) s = .next t ∧ t.reply = some ⟨bsOk, [s.memWord (a / 4 * 4)]⟩
    ∧ t.mem = s.mem ∧ t.hst.seq = (s.hst.seq + 1) % 2 ^ 32) ∧
  (∀ s x a v, s.dom = .run → 2 ≤ s.rd pgMode MODE_CALL_step → s.hostTarget x = .aperture a → s.hostAdmit x (.aperture a) = bsOk → x.op = .write [v] →
    x.len = 1 → x.firstBe = 15 → ∃ t, exec (.hostRequest x) s = .next t ∧ t.memWord (a / 4 * 4) = v % 2 ^ 32 ∧ t.reply = some ⟨bsOk, []⟩ ∧ (∀ b, b < a
    / 4 * 4 ∨ a / 4 * 4 + 4 ≤ b → memRead t.mem b = memRead s.mem b)) ∧
  (∀ s n, s.dom = .run → 2 ≤ s.rd pgMode MODE_CALL_step → s.rdb pgHst HST_LINK_up = true → ∃ t, exec (.configurationRequest (.vfEnable n)) s = .next t
    ∧ t.numVfs = min n 511 ∧ t.reply = some ⟨bsOk, []⟩ ∧ t.regs = s.regs) ∧
  (∀ s n e m, s.dom = .run → 2 ≤ s.rd pgMode MODE_CALL_step → s.rdb pgHst HST_LINK_up = true → s.fnEnabled n = true → ∃ t, exec (.configurationRequest
    (.msix n e m)) s = .next t ∧ t.fns.get {} n = ⟨e, m⟩ ∧ t.reply = some ⟨bsOk, []⟩ ∧ t.vecs = s.vecs) ∧
  (∀ s w pg write, s.dom = .run → s.admitCode w pg write = bsOk → ∃ t, exec (.busTimeout w pg write false none) s = .next t ∧ t.reply = some
    ⟨bsTimeout, []⟩ ∧ t.rd pgBxm (BXM_ERR_CNT bsTimeout) = (s.rd pgBxm (BXM_ERR_CNT bsTimeout) + 1) % 2 ^ 32) ∧
  (∀ s n, s.dom = .run → 1 ≤ n → n < 512 → ∃ t, exec (.vfFlr n) s = .next t ∧ t.notices.get [] n = [] ∧ t.fns.get {} n = {} ∧ t.rd (pgBox n)
    BOX_PM_STATUS_state ≠ pmBusy ∧ (∀ pg f, pg < 65536 → pg ≠ pgBox n → f.off * 8 + f.lo < 8192 → t.rd pg f = s.rd pg f)) ∧
  (∀ s n v, s.dom = .run → s.rdb pgHst HST_LINK_up = true → s.fnEnabled n = true → v < (if n = 0 then 2048 else 8) → (s.vecs.get {} (vecKey n
    v)).pending = true → (s.vecs.get {} (vecKey n v)).masked = false → (s.fns.get {} n).msixEn = true → (s.fns.get {} n).msixMask = false → s.msixDue
    n v = true → ∃ t, exec (.msixSend n v) s = .next t ∧ t.out = [.msix n v (s.msixWord n v 0 + 2 ^ 32 * s.msixWord n v 1) (s.msixWord n v 2)] ∧
    (t.vecs.get {} (vecKey n v)).pending = false) ∧
  (∀ s c, s.dom = .run → s.rdb pgHst HST_LINK_up = true → c < 4 → s.rd pgHst (HST_DMA_STATUS_state c) ≠ dmaBusy → s.rd pgHst (HST_DMA_SRC_addr c) / 2
    ^ 63 % 2 = 0 → 0x2000000000 ≤ s.rd pgHst (HST_DMA_SRC_addr c) → s.rd pgHst (HST_DMA_SRC_addr c) + s.dmaLen c ≤ hbmSize → s.dmaLen c % 4 = 0 →
    s.dmaLen c ≤ 2 ^ 26 → s.rd pgHst (HST_DMA_DST_addr c) % 4 = 0 → ∃ t, exec (.dmaGo c) s = .next t ∧ t.rd pgHst (HST_DMA_STATUS_state c) = dmaBusy ∧
    t.rd pgHst (HST_DMA_STATUS_done c) = 0 ∧ t.out = []) ∧
  (∀ s c, s.dom = .run → c < 4 → s.rd pgHst (HST_DMA_STATUS_state c) ≠ dmaBusy → s.dmaLen c % 4 ≠ 0 → ∃ t, exec (.dmaGo c) s = .next t ∧ t.rd pgHst
    (HST_DMA_STATUS_state c) = dmaRange ∧ t.out = []) ∧
  (∀ s c, s.dom = .run → c < 4 → s.rd pgHst (HST_DMA_STATUS_state c) = dmaBusy → ∃ t, exec (.dmaDone c none) s = .next t ∧ t.out = (tlps (s.rd pgHst
    (HST_DMA_DST_addr c)) (s.dmaRead c (s.dmaLen c)) ((s.dmaRead c (s.dmaLen c)).length / 512 + 2)).map (fun y => .hostWrite 0 y.1 y.2) ∧ t.rd pgHst
    (HST_DMA_STATUS_state c) = dmaOk ∧ t.hasEvt pgHst (2 + c) = true ∧ t.mem = s.mem)

/-- R444 to R457: what the boxes ask of the device. -/
def Obligations.BoxServices : Prop :=
  (∀ s box b pg, s.dom = .run → s.smHeld = false → b = box % 512 → pg = s.rd pgBxm (BXM_REQ_ARG_arg 0) % 65536 → (pageInfo pg).isSome = true →
    pageFixed pg = false → ∃ t, exec (.setPage box) s = .next t ∧ t.rd pg PAGE_OWNER_box = b ∧ ({ t with dpCycle := t.dpCycle + 4 }).pageOwner pg = b
    ∧ t.rd pgBxm BXM_REQ_STATUS_code = rqDone ∧ t.hasEvt pgBxm 0 = true ∧ (∀ p, p ≠ pg → t.pageOwner p = s.pageOwner p)) ∧
  (∀ s box, s.dom = .run → s.smHeld = false → pageInfo (s.rd pgBxm (BXM_REQ_ARG_arg 0) % 65536) = none → ∃ t, exec (.setPage box) s = .next t ∧ t.rd
    pgBxm BXM_REQ_STATUS_code = rqRange ∧ (∀ p, t.pageOwner p = s.pageOwner p)) ∧
  (∀ s box b a0 n, s.dom = .run → s.smHeld = false → b = box % 512 → a0 = s.rd pgBxm (BXM_REQ_ARG_arg 0) → n = s.rd pgBxm (BXM_REQ_ARG_arg 1) % 2 ^ 18
    → a0 < 2 ^ 24 → 0 < n → a0 + n ≤ ownCount → (List.range n).any (fun k => decide (s.ownBox (a0 + k) ≠ b) && s.objBusy (a0 + k)) = false → ∃ t, exec
    (.setObj box) s = .next t ∧ (∀ k, k < n → ({ t with dpCycle := t.dpCycle + 4 }).ownBox (a0 + k) = b) ∧ (∀ k, k < 2 ^ 24 → k < a0 ∨ a0 + n ≤ k →
    t.ownBox k = s.ownBox k) ∧ t.rd pgBxm BXM_REQ_STATUS_code = rqDone ∧ t.hasEvt pgBxm 0 = true) ∧
  (∀ s box b a0 n, s.dom = .run → s.smHeld = false → b = box % 512 → a0 = s.rd pgBxm (BXM_REQ_ARG_arg 0) → n = s.rd pgBxm (BXM_REQ_ARG_arg 1) % 2 ^ 18
    → a0 < 2 ^ 24 → 0 < n → a0 + n ≤ ownCount → (List.range n).any (fun k => decide (s.ownBox (a0 + k) ≠ b) && s.objBusy (a0 + k)) = true → ∃ t, exec
    (.setObj box) s = .next t ∧ t.tabs = s.tabs ∧ t.rd pgBxm BXM_REQ_STATUS_code = rqBusy) ∧
  (∀ s box b a0 w, s.dom = .run → s.smHeld = false → b = box % 512 → a0 = s.rd pgBxm (BXM_REQ_ARG_arg 0) → w = getBits a0 27 24 → 2 ≤ getBits a0 7 0 →
    getBits a0 7 0 + getBits a0 23 16 ≤ 255 → ∃ t, exec (.setWin box) s = .next t ∧ t.rd (pgBox b) (BOX_WIN_en w) = getBits a0 31 31 ∧ t.rd (pgBox b)
    (BOX_WIN_slot w) = getBits a0 7 0 ∧ t.rd (pgBox b) (BOX_WIN_count_m1 w) = getBits a0 23 16 ∧ t.rd (pgBox b) (BOX_WIN_tpage w) = s.rd pgBxm
    (BXM_REQ_ARG_arg 1) % 65536 ∧ t.rd pgBxm BXM_REQ_STATUS_code = rqDone) ∧
  (∀ s box, s.dom = .run → s.smHeld = false → getBits (s.rd pgBxm (BXM_REQ_ARG_arg 0)) 7 0 < 2 → ∃ t, exec (.setWin box) s = .next t ∧ t.rd pgBxm
    BXM_REQ_STATUS_code = rqRange ∧ (∀ b w, b < 512 → w < 16 → t.rd (pgBox b) (BOX_WIN_tpage w) = s.rd (pgBox b) (BOX_WIN_tpage w))) ∧
  (∀ s box, s.dom = .run → s.smHeld = true → ∃ t, exec (.setWin box) s = .next t ∧ t.reqQ = s.reqQ ++ [(3, box % 512, s.rd pgBxm (BXM_REQ_ARG_arg 0),
    s.rd pgBxm (BXM_REQ_ARG_arg 1))] ∧ t.rdb pgBxm BXM_REQ_STATUS_pending = true) ∧
  (∀ s w n, s.dom = .run → n < 512 → s.admitCode w (pgBox n) false = bsOk → ∃ t, exec (.boxNoteRead w n) s = .next t ∧ t.reply = some ⟨bsOk,
    [(s.notices.get [] n).headD 0 % 2 ^ 32]⟩ ∧ t.notices.get [] n = (s.notices.get [] n).drop 1) ∧
  (∀ s n v, s.dom = .run → n < 512 → ∃ t, exec (.boxPxPageWrite n v) s = .next t ∧ t.rd (pgBox n) BOX_PX_PAGE_en = getBits v 31 31 ∧ t.rd (pgBox n)
    BOX_PX_PAGE_tpage = getBits v 15 0 ∧ t.rdb (pgBox n) BOX_PX_STATUS_denied = false ∧ t.events = s.events) ∧
  (∀ s w n x, s.dom = .run → n < 512 → s.admitCode w (pgBox n) false = bsOk → s.rdb (pgBox n) BOX_PX_PAGE_en = false → ∃ t, exec (.proxyAccess w n x
    15 none) s = .next t ∧ t.reply = some ⟨bsOk, [0]⟩ ∧ (∀ pg f, t.rd pg f = s.rd pg f)) ∧
  (∀ s w n x v, s.dom = .run → n < 512 → s.admitCode w (pgBox n) true = bsOk → s.rdb (pgBox n) BOX_PX_PAGE_en = true → proxyAllows (s.rd (pgBox n)
    BOX_PX_PAGE_tpage) (x % 256 / 4 * 4) true = false → ∃ t, exec (.proxyAccess w n x 15 (some v)) s = .next t ∧ t.rdb (pgBox n) BOX_PX_STATUS_denied
    = true ∧ t.hasEvt (pgBox n) 6 = true ∧ t.tabs = s.tabs ∧ t.staged = s.staged) ∧
  (∀ s n m sec, s.dom = .run → n < 512 → s.rdb pgHst HST_LINK_up = true → s.rd (pgBox n) BOX_PM_STATUS_state ≠ pmBusy → sec = s.rd (pgBox n)
    BOX_PM_SEC_value % 2 ^ 48 → sec ≤ s.rd pgWng WNG_PMS_LAST_sec → s.rd pgWng WNG_PMS_LAST_sec < sec + s.rd pgWng WNG_PMS_CFG_depth_m1 + 1 → ∃ t,
    exec (.pmCopyGo n m) s = .next t ∧ t.rd (pgBox n) BOX_PM_STATUS_state = pmBusy ∧ t.rd (pgBox n) BOX_PM_STATUS_records = 0) ∧
  (∀ s n m, s.dom = .run → n < 512 → s.rd (pgBox n) BOX_PM_STATUS_state ≠ pmBusy → s.rd pgWng WNG_PMS_LAST_sec < s.rd (pgBox n) BOX_PM_SEC_value % 2 ^
    48 → ∃ t, exec (.pmCopyGo n m) s = .next t ∧ t.rd (pgBox n) BOX_PM_STATUS_state = pmRange ∧ t.out = []) ∧
  (∀ s n, s.dom = .run → n < 512 → s.rd (pgBox n) BOX_PM_STATUS_state = pmBusy → ∃ t, exec (.pmCopyDone n false) s = .next t ∧ (∃ b, t.out = (tlps
    (s.rd (pgBox n) BOX_PM_DST_value / 32 * 32) b (b.length / 512 + 2)).map (fun y => .hostWrite n y.1 y.2)) ∧ t.rd (pgBox n) BOX_PM_STATUS_state =
    pmDoneState ∧ t.hasEvt (pgBox n) 4 = true ∧ t.mem = s.mem)

/-! ### Firmware and trust (file 14) -/

/-- R477 to R491: the mailbox and the operations of the stage manager. -/
def Obligations.TrustRequests : Prop :=
  (∀ s w n, s.dom = .run → n < 512 → s.admitCode w (pgFwm n) true = bsOk → s.mbState n ≠ mbBusy → ∃ t, exec (.fwmRing w n) s = .next t ∧ t.mbState n =
    mbBusy ∧ t.mbWho.get 0 n = w.master.code ∧ t.events = s.events) ∧
  (∀ s w n, s.dom = .run → n < 512 → s.admitCode w (pgFwm n) true = bsOk → s.mbState n = mbBusy → ∃ t, exec (.fwmRing w n) s = .next t ∧ t.mbState n =
    mbBusy ∧ t.rd (pgFwm n) FWM_MB_STATUS_busy_refused = (s.rd (pgFwm n) FWM_MB_STATUS_busy_refused + 1) % 2 ^ 16 ∧ t.hasEvt (pgFwm n) 1 = true ∧
    t.mbWho = s.mbWho) ∧
  (∀ s n, s.dom = .run → s.trustWaits n 1 = true → ∃ t, exec (.attest n) s = .next t ∧ t.answered n stOk = true ∧ t.rights = s.rights) ∧
  (∀ s n, s.dom = .run → s.trustWaits n 2 = true → (s.mbPayload n).getD 0 0 ≤ 1 → ∃ t, exec (.getCert n) s = .next t ∧ t.answered n stOk = true) ∧
  (∀ s, s.dom = .run → s.trustWaits 0 3 = true → ∃ t, exec (.debugChallenge) s = .next t ∧ t.answered 0 stOk = true ∧ t.challenge.isSome = true ∧
    t.rights = s.rights) ∧
  (∀ s p, s.dom = .run → s.trustWaits 0 4 = true → p = s.mbPayload 0 → ∃ t, exec (.debugUnlock) s = .next t ∧ t.challenge = none ∧ t.rights = (if
    s.tokenOk p then s.rights ||| leNat ((p.drop 4).take 4) % 8 else s.rights) ∧ t.answered 0 stOk = s.tokenOk p ∧ t.mbState 0 = mbDone) ∧
  (∀ s x a b v, s.dom = .run → s.trustWaits 0 5 = true → s.smImg = some a → s.enRunning = some b → v = (s.mbPayload 0).getD 0 0 → v ≤ a.rollback → v ≤
    b.rollback → ∃ t, exec (.commitRollback x) s = .next t ∧ t.rbSteps = s.rbSteps + min (v - s.rollback) x.verified ∧ t.answered 0 stOk = true) ∧
  (∀ s x a v, s.dom = .run → s.trustWaits 0 5 = true → s.smImg = some a → v = (s.mbPayload 0).getD 0 0 → a.rollback < v → ∃ t, exec (.commitRollback
    x) s = .next t ∧ t.rbSteps = s.rbSteps ∧ t.answered 0 stRollback = true) ∧
  (∀ s k, s.dom = .run → s.trustWaits 0 6 = true → k = (s.mbPayload 0).getD 0 0 → k < 4 → s.slotUsed k = false → ∃ t, exec (.revokeSlot) s = .next t ∧
    t.revoked.contains k = true ∧ t.answered 0 stOk = true ∧ s.revoked.all t.revoked.contains = true) ∧
  (∀ s k, s.dom = .run → s.trustWaits 0 6 = true → k = (s.mbPayload 0).getD 0 0 → k < 4 → s.slotUsed k = true → ∃ t, exec (.revokeSlot) s = .next t ∧
    t.revoked = s.revoked ∧ t.answered 0 stInUse = true) ∧
  (∀ s x k, s.dom = .run → s.trustWaits 0 7 = true → s.heldBy 0 < 64 → s.heldBy 1 < 64 → s.heldBy 0 &&& s.heldBy 1 = 0 → s.updateRefusal = none →
    x.ready0 = true → x.ready1 = true → x.expiry = none → k = s.idleSlot → ∃ t, exec (.updateEn x) s = .next t ∧ t.rd (pgFwm 0) FWM_EN_STATUS_slot0 =
    k ∧ t.rd (pgFwm 0) FWM_EN_STATUS_slot1 = k ∧ t.enRuns 0 = true ∧ t.enRuns 1 = true ∧ t.heldBy 0 = s.heldBy 0 ∧ t.heldBy 1 = s.heldBy 1 ∧
    t.answered 0 stOk = true ∧ t.hasEvt (pgFwm 0) 5 = true) ∧
  (∀ s x, s.dom = .run → s.trustWaits 0 7 = true → s.mode = modeSafe → ∃ t, exec (.updateEn x) s = .next t ∧ t.slotA = s.slotA ∧ t.heldBy 0 = s.heldBy
    0 ∧ t.heldBy 1 = s.heldBy 1 ∧ t.answered 0 stMode = true) ∧
  (∀ s, s.dom = .run → s.trustWaits 0 8 = true → ∃ t, exec (.bootInfo) s = .next t ∧ t.answered 0 stOk = true ∧ t.rd (pgFwm 0) (FWM_RSP_word 2) = 10) ∧
  (∀ s n e x, s.dom = .run → n < 512 → s.mbState n = mbBusy → s.mbService n = 0 → s.ringsClear n = true → s.smHeld = false → ∃ t, exec
    (.mailboxResponse n e x) s = .next t ∧ t.answered n stBadOp = true) ∧
  (∀ s e x, s.dom = .run → s.trustWaits 0 8 = true → ∃ t, exec (.mailboxResponse 0 e x) s = .next t ∧ t.answered 0 stOk = true)

/-- R476, R485, R487, R489, R502, R520: the push, the watchdogs and the JTAG port. -/
def Obligations.PushAndWatchdogs : Prop :=
  (∀ s n, s.dom = .run → s.pushState ≠ pushVerifying → ∃ t, exec (.pushStart 2 n) s = .next t ∧ t.push = some ⟨2, n % 2 ^ 24, []⟩ ∧ t.pushState =
    pushReceiving ∧ t.rd (pgFwm 0) FWM_PUSH_STATUS_words = 0) ∧
  (∀ s w v p, s.dom = .run → s.admitCode w (pgFwm 0) true = bsOk → w.master = .host → w.box = 0 → s.pushState = pushReceiving → s.push = some p → ∃ t,
    exec (.pushData w v) s = .next t ∧ t.push = some ⟨p.kind, p.len, p.bytes ++ le 4 v⟩ ∧ t.rd (pgFwm 0) FWM_PUSH_STATUS_words = (s.rd (pgFwm 0)
    FWM_PUSH_STATUS_words + 1) % 2 ^ 16) ∧
  (∀ s, s.dom = .run → s.pushState = pushReceiving → ∃ t, exec (.pushEnd) s = .next t ∧ t.pushState = pushVerifying ∧ t.push = s.push) ∧
  (∀ s, s.dom = .run → s.push.isSome = true → ∃ t, exec (.pushAbort) s = .next t ∧ t.pushState = pushIdle ∧ t.push = none) ∧
  (∀ s p r x, s.dom = .run → s.mode ≠ modeCall → s.push = some p → p.kind = 2 → s.pushState = pushVerifying → r = s.fresh.imageReason 2 ⟨p.bytes.take
    p.len, 2⟩ → r ≠ 0 → ∃ t, exec (.imageVerified 2 none x) s = .next t ∧ t.pushState = pushRejected ∧ t.rd (pgFwm 0) FWM_PUSH_STATUS_reason = r % 256
    ∧ t.slotA = s.slotA ∧ t.slotB = s.slotB ∧ t.push = none ∧ t.hasEvt (pgFwm 0) 3 = true) ∧
  (∀ s, s.dom = .run → s.push = none → s.bootStrap = 1 → s.bootDue 1 = true → ∃ t, exec (.pushTimeout) s = .next t ∧ t.rd (pgFwm 0) FWM_BOOT_sm_reason
    = 0x0A ∧ t.rd (pgFwm 0) FWM_BOOT_state = 3 ∧ t.rd pgMode MODE_CALL_reason = 1 ∧ t.hasEvt (pgFwm 0) 3 = true) ∧
  (∀ s w, s.dom = .run → s.admitCode w (pgFwm 0) true = bsOk → w.master = .en1 → ∃ t, exec (.fwmWdogKick w) s = .next t ∧ t.kickAt.get 0 1 = s.dpCycle
    ∧ t.kickAt.get 0 0 = s.kickAt.get 0 0 ∧ t.regs = s.regs) ∧
  (∀ s i, s.dom = .run → i < 2 → s.enRuns i = true → s.enRuns (1 - i) = true → s.rdb (pgFwm 0) (FWM_WDOG_CFG_en i) = true → s.kickAt.get 0 i +
    s.wdogTime i ≤ s.dpCycle → s.heldBy (1 - i) < 64 → ∃ t, exec (.enWdogExpiry i) s = .next t ∧ t.heldBy i = 0 ∧ t.heldBy (1 - i) = (s.heldBy (1 - i)
    ||| s.heldBy i) % 2 ^ 6 ∧ t.rd (pgFwm 0) FWM_EN_STATUS_expiries = satAdd 4 (s.rd (pgFwm 0) FWM_EN_STATUS_expiries) 1 ∧ t.hasEvt (pgFwm 0) 4 = true
    ∧ t.enRuns (1 - i) = true) ∧
  (∀ s l x, s.dom = .run → x = 32 * reportLink (srcService 8) + (if l then clsLockstep else clsWdogSm) → ∃ t, exec (.smWdogExpiry l) s = .next t ∧ 1 ≤
    (t.slots.get {} x).n ∧ 3 ≤ (t.slots.get {} x).level ∧ t.smHeld = s.smHeld) ∧
  (∀ s, ∃ t, exec (.jtagInstruction .idcode) s = .next t ∧ t.reply = some ⟨0, [0xB102447B]⟩ ∧ (∀ pg f, t.rd pg f = s.rd pg f)) ∧
  (∀ s, bit s.rights 0 = false → ∃ t, exec (.jtagInstruction .priv) s = .next t ∧ t.reply = none ∧ (∀ pg f, t.rd pg f = s.rd pg f) ∧ t.events =
    s.events)

/-- R493 to R498: a message that sets rows issues one cue, and its answer tells how the cue was taken. -/
def Obligations.PersonalityCues : Prop :=
  (∀ s p x b, s.dom = .run → s.persWaits p 0x20 b = true → (s.fresh.laneSet x p b).1 = some (gvOk, cueAccepted, []) → ∃ t, exec (.laneSet p x) s =
    .next t ∧ t.rd (pgBox (p + 1)) BOX_CUE_STATUS_state ≠ cueRefusedState ∧ t.persAnswered p gvOk = true) ∧
  (∀ s p x b, s.dom = .run → s.persWaits p 0x22 b = true → (s.fresh.ifSet x p b).1 = some (gvOk, cueAccepted, []) → ∃ t, exec (.ifSet p x) s = .next t
    ∧ t.rd (pgBox (p + 1)) BOX_CUE_STATUS_state ≠ cueRefusedState ∧ t.persAnswered p gvOk = true) ∧
  (∀ s p x b, s.dom = .run → s.persWaits p 0x30 b = true → (s.fresh.connAddMsg x p b).1 = some (gvOk, cueAccepted, []) → ∃ t, exec (.connAdd p x) s =
    .next t ∧ t.rd (pgBox (p + 1)) BOX_CUE_STATUS_state ≠ cueRefusedState ∧ t.persAnswered p gvOk = true) ∧
  (∀ s p x b, s.dom = .run → s.persWaits p 0x31 b = true → (s.fresh.connModMsg x p b).1 = some (gvOk, cueAccepted, []) → ∃ t, exec (.connModify p x) s
    = .next t ∧ t.rd (pgBox (p + 1)) BOX_CUE_STATUS_state ≠ cueRefusedState ∧ t.persAnswered p gvOk = true) ∧
  (∀ s p x b, s.dom = .run → s.persWaits p 0x32 b = true → (s.fresh.connDelMsg x p b).1 = some (gvOk, cueAccepted, []) → ∃ t, exec (.connDelete p x) s
    = .next t ∧ t.rd (pgBox (p + 1)) BOX_CUE_STATUS_state ≠ cueRefusedState ∧ t.persAnswered p gvOk = true) ∧
  (∀ s p x b, s.dom = .run → s.persWaits p 0x50 b = true → (s.fresh.pgAdd x p b).1 = some (gvOk, cueAccepted, []) → ∃ t, exec (.pgAdd p x) s = .next t
    ∧ t.rd (pgBox (p + 1)) BOX_CUE_STATUS_state ≠ cueRefusedState ∧ t.persAnswered p gvOk = true) ∧
  (∀ s p x b, s.dom = .run → s.persWaits p 0x51 b = true → (s.fresh.pgDelete x p b).1 = some (gvOk, cueAccepted, []) → ∃ t, exec (.pgDelete p x) s =
    .next t ∧ t.rd (pgBox (p + 1)) BOX_CUE_STATUS_state ≠ cueRefusedState ∧ t.persAnswered p gvOk = true) ∧
  (∀ s p x b, s.dom = .run → s.persWaits p 0x60 b = true → (s.fresh.ohOpen x p b).1 = some (gvOk, cueAccepted, []) → ∃ t, exec (.ohOpen p x) s = .next
    t ∧ t.rd (pgBox (p + 1)) BOX_CUE_STATUS_state ≠ cueRefusedState ∧ t.persAnswered p gvOk = true) ∧
  (∀ s p x b, s.dom = .run → s.persWaits p 0x61 b = true → (s.fresh.ohClose x p b).1 = some (gvOk, cueAccepted, []) → ∃ t, exec (.ohClose p x) s =
    .next t ∧ t.rd (pgBox (p + 1)) BOX_CUE_STATUS_state ≠ cueRefusedState ∧ t.persAnswered p gvOk = true) ∧
  (∀ s p x b, s.dom = .run → s.persWaits p 0x20 b = true → b.getD 0 0 ≤ 63 → 4 ≤ b.length → b.getD 1 0 ≤ 1 → b.getD 2 0 ≤ 2 → s.inReset ((64 * p +
    b.getD 0 0) / 32) = false → s.cueRuns (p + 1) = true → ∃ t, exec (.laneSet p x) s = .next t ∧ t.persAnswered p gvBusy = true ∧ t.staged = s.staged
    ∧ t.dirty = s.dirty)

/-- R494 to R499: messages answered without a cue, and the services of page 0. -/
def Obligations.PersonalityQueries : Prop :=
  (∀ s p b, s.dom = .run → s.persWaits p 0x10 b = true → ∃ t, exec (.devIdentity p) s = .next t ∧ t.persAnswered p gvOk = true ∧ t.rd (pgFwm (p + 1))
    (FWM_RSP_word 2) = 21 ∧ t.rd (pgFwm (p + 1)) (FWM_RSP_word 4) % 2 ^ 24 = 0x5602 + 65536 * p) ∧
  (∀ s p b, s.dom = .run → s.persWaits p 0x11 b = true → ∃ t, exec (.devStatus p) s = .next t ∧ t.persAnswered p gvOk = true ∧ t.rd (pgFwm (p + 1))
    (FWM_RSP_word 2) = 9) ∧
  (∀ s p b x, s.dom = .run → s.persWaits p 0x12 b = true → s.persReset.get {} p = {} → s.inReset (2 * p) = false → s.inReset (2 * p + 1) = false → b =
    [0] → s.modeRefusal (s.persWho p) opReset (2 * p) = none → ∃ t, exec (.devReset p x) s = .next t ∧ t.region (2 * p) = rgnReset ∧ t.mbState (p + 1)
    = mbBusy ∧ (t.persReset.get {} p).phase = 2) ∧
  (∀ s p b, s.dom = .run → s.persWaits p 0x21 b = true → 1 ≤ b.length → b.getD 0 0 ≤ 63 → s.inReset ((64 * p + b.getD 0 0) / 32) = false → ∃ t, exec
    (.laneGet p) s = .next t ∧ t.persAnswered p gvOk = true ∧ t.rd (pgFwm (p + 1)) (FWM_RSP_word 2) = 10) ∧
  (∀ s p b n, s.dom = .run → s.persWaits p 0x23 b = true → b.length = 3 → b.getD 0 0 = 0 → n = 64 * p + b.getD 1 0 → b.getD 1 0 ≤ 63 → b.getD 2 0 ≤ 2
    → s.inReset (n / 32) = false → ∃ t, exec (.loopback p) s = .next t ∧ t.rd (pgLln n) LLN_LB_mode = b.getD 2 0 ∧ t.persAnswered p gvOk = true) ∧
  (∀ s p b o, s.dom = .run → s.persWaits p 0x33 b = true → 3 ≤ b.length → by16 b 0 < 8192 → b.getD 2 0 ≤ 1 → s.inReset (2 * p + by16 b 0 / 4096) =
    false → s.connAt p (b.getD 2 0) (by16 b 0) = some o → ∃ t, exec (.connGet p) s = .next t ∧ t.persAnswered p gvOk = true ∧ t.rd (pgFwm (p + 1))
    (FWM_RSP_word 2) = 46) ∧
  (∀ s p b, s.dom = .run → s.persWaits p 0x40 b = true → 4 ≤ b.length → by16 b 0 < 8192 → b.getD 3 0 ≤ 6 → b.getD 2 0 ≤ 1 → s.inReset (2 * p + by16 b
    0 / 4096) = false → ∃ t, exec (.pmCurrent p) s = .next t ∧ t.persAnswered p gvOk = true ∧ t.pmBins = s.pmBins) ∧
  (∀ s p b y, s.dom = .run → s.persWaits p 0x41 b = true → 6 ≤ b.length → by16 b 0 < 8192 → b.getD 3 0 ≤ 6 → b.getD 2 0 ≤ 1 → s.inReset (2 * p + by16
    b 0 / 4096) = false → b.getD 4 0 = 1 → b.getD 5 0 = 1 → (s.binsOf (msgPoint p b)).back 1 1 = some y → ∃ t, exec (.pmHistory p) s = .next t ∧
    t.persAnswered p gvOk = true) ∧
  (∀ s p b, s.dom = .run → s.persWaits p 0x42 b = true → 21 ≤ b.length → by16 b 0 < 8192 → b.getD 3 0 ≤ 6 → b.getD 2 0 ≤ 1 → s.inReset (2 * p + by16 b
    0 / 4096) = false → b.getD 4 0 ≤ 1 → by32 b 5 ≠ 0 → ∃ t, exec (.pmThresh p) s = .next t ∧ t.pmThr.get [] (2 * msgPoint p b + b.getD 4 0) = [by32 b
    5, by32 b 9, by32 b 13, by32 b 17] ∧ t.persAnswered p gvOk = true) ∧
  (∀ s p b x, s.dom = .run → s.persWaits p 0x52 b = true → 4 ≤ b.length → b.getD 2 0 = 0 → by16 b 0 < 4096 → s.inReset (grpRegion (4096 * p + by16 b
    0)) = false → b.getD 3 0 = 1 → ∃ t, exec (.pgCommand p x) s = .next t ∧ t.mbState (p + 1) = mbDone ∧ t.hasEvt (pgFwm (p + 1)) 0 = true) ∧
  (∀ s p b, s.dom = .run → s.persWaits p 0x53 b = true → 3 ≤ b.length → b.getD 2 0 = 0 → by16 b 0 < 4096 → s.inReset (grpRegion (4096 * p + by16 b 0))
    = false → ∃ t, exec (.pgStatus p) s = .next t ∧ t.persAnswered p gvOk = true ∧ t.rd (pgFwm (p + 1)) (FWM_RSP_word 2) = 11) ∧
  (∀ s p b, s.dom = .run → s.persWaits p 0x62 b = true → by16 b 0 < 1024 → s.inReset (ohRegion p (by16 b 0)) = false → 1 ≤ by16 b 2 → by16 b 2 ≤ 240 →
    b.length = 4 + by16 b 2 → s.chValid (ohRegion p (by16 b 0)) 1 (by16 b 0 % 512) = true → ∃ t, exec (.ohSend p) s = .next t ∧ t.persAnswered p gvOk
    = true) ∧
  (∀ s p b, s.dom = .run → s.persWaits p 0x63 b = true → 2 ≤ b.length → by16 b 0 < 1024 → s.inReset (ohRegion p (by16 b 0)) = false → s.chValid
    (ohRegion p (by16 b 0)) 0 (by16 b 0 % 512) = true → ∃ t, exec (.ohReceive p) s = .next t ∧ t.persAnswered p gvOk = true) ∧
  (∀ s p b, s.dom = .run → s.persWaits p 0x70 b = true → 2 ≤ b.length → ∃ t, exec (.almList p) s = .next t ∧ t.persAnswered p gvOk = true) ∧
  (∀ s p b, s.dom = .run → s.persWaits p 0x71 b = true → 7 ≤ b.length → b.getD 0 0 = kindSlice → b.getD 5 0 ≤ 32 → b.getD 6 0 = 1 → ∃ t, exec
    (.almMask p) s = .next t ∧ bit (t.almMask.get 0 (almKey p kindSlice (by32 b 1))) (b.getD 5 0) = true ∧ t.persAnswered p gvOk = true) ∧
  (∀ s p b, s.dom = .run → s.persWaits p 0x80 b = true → ∃ t, exec (.timeGet p) s = .next t ∧ t.persAnswered p gvOk = true ∧ t.rd (pgFwm (p + 1))
    (FWM_RSP_word 2) = 15 ∧ t.tb = s.tb) ∧
  (∀ s p b, s.dom = .run → s.persWaits p 0x81 b = true → ∃ t, exec (.timeSet p) s = .next t ∧ t.persAnswered p gvNotPermitted = true ∧ t.rd (pgFwm (p
    + 1)) (FWM_RSP_word 2) = 4 ∧ t.tb = s.tb) ∧
  (∀ s f rest x, s.dom = .run → s.sdpRx1 = f :: rest → 3 < (f.bytes.drop 14).getD 0 0 → ∃ t, exec (.personalityFrame x) s = .next t ∧ t.sdpRx1 = rest
    ∧ t.sdpBad = (s.sdpBad + 1) % 2 ^ 32) ∧
  (∀ s f rest x b, s.dom = .run → s.sdpRx1 = f :: rest → f.trunc = false → b = f.bytes.drop 14 → b.getD 0 0 ≤ 3 → b.getD 1 0 = 0x80 → 6 ≤ b.length →
    b.length = 6 + by16 b 4 → s.persUp (b.getD 0 0) = true → ∃ t, exec (.personalityFrame x) s = .next t ∧ t.sdpRx1 = rest ∧ t.sdpBad = s.sdpBad) ∧
  (∀ s, s.dom = .run → s.mbWaits 0 0x20 1 = true → s.ringsClear 0 = true → (s.holder svcPmBin).isSome = true → ∃ t, exec (.pmbinStatus) s = .next t ∧
    t.answered 0 stOk = true ∧ t.rd (pgFwm 0) (FWM_RSP_word 2) = 11) ∧
  (∀ s b y, s.dom = .run → s.mbWaits 0 0x20 2 = true → s.ringsClear 0 = true → (s.holder svcPmBin).isSome = true → b = s.mbPayload 0 → b.length = 5 →
    b.getD 0 0 * 65536 + by16 b 1 < 524288 → b.getD 3 0 = 0 → b.getD 4 0 = 0 → (s.binsOf (b.getD 0 0 * 65536 + by16 b 1)).back 0 0 = some y → ∃ t,
    exec (.pmbinGet) s = .next t ∧ t.answered 0 stOk = true) ∧
  (∀ s, s.dom = .run → s.mbWaits 0 0x21 1 = true → s.ringsClear 0 = true → (s.holder svcHouse).isSome = true → ∃ t, exec (.housekeepingStatus) s =
    .next t ∧ t.answered 0 stOk = true)

/-! ### Faults and prompt book (file 15) -/

/-- R505 to R518, R538: reports and what the collector makes of them. -/
def Obligations.FaultCollector : Prop :=
  (∀ s link c x e, s.dom = .run → link < 95 → s.nextSlot link = some c → c < 29 → x = s.slots.get {} (32 * link + c) → e = 32 * scopeOf x.source + c →
    s.linkMasked link = false → wordOk (reportBits c x) = true → x.n < 32768 → x.level < 8 → x.source < 2 ^ 32 → s.col.words = [] → s.fltAhead = false
    → scopeOf x.source ≤ 8 → fltSt e FLT_STATE.unack s = 0 → ((s.win e).add x.n).count < s.thresh c → ∃ t, exec (.reportWord link) s = .next t ∧ t.rd
    pgFlt FLT_WORDS = (s.rd pgFlt FLT_WORDS + 1) % 2 ^ 32 ∧ fltSt e FLT_STATE.active t = 1 ∧ fltSt e FLT_STATE.unack t = 1 ∧ fltSt e FLT_STATE.level t
    = max (fltSt e FLT_STATE.level s) (min 4 x.level)) ∧
  (∀ s link c, s.dom = .run → link < 96 → s.nextSlot link = some c → wordOk (reportBits c (s.slots.get {} (32 * link + c))) = true → s.linkMasked link
    = true → s.col.words = [] → ∃ t, exec (.reportWord link) s = .next t ∧ t.slots = s.slots.erase (32 * link + c) ∧ t.rd pgFlt FLT_MASKED = (s.rd
    pgFlt FLT_MASKED + 1) % 2 ^ 32 ∧ t.hasEvt pgFlt 4 = true ∧ (∀ e f, t.tget pgFlt T_FLT_STATE e f = s.tget pgFlt T_FLT_STATE e f)) ∧
  (∀ s link, s.dom = .run → link < 96 → s.tgetb pgFlt T_FLT_LINK link FLT_LINK.broken = false → ∃ t, exec (.wireBroken link) s = .next t ∧ t.tgetb
    pgFlt T_FLT_LINK link FLT_LINK.broken = true ∧ t.hasEvt pgFlt 2 = true) ∧
  (∀ s link c x, s.dom = .run → link < 96 → s.nextSlot link = some c → x = s.slots.get {} (32 * link + c) → x.resends < 3 → ∃ t, exec (.reportResend
    link) s = .next t ∧ (t.slots.get {} (32 * link + c)).resends = x.resends + 1 ∧ t.rd pgFlt FLT_RETRY = (s.rd pgFlt FLT_RETRY + 1) % 2 ^ 32) ∧
  (∀ s link c x, s.dom = .run → link < 96 → s.nextSlot link = some c → x = s.slots.get {} (32 * link + c) → 3 ≤ x.resends → ∃ t, exec (.reportResend
    link) s = .next t ∧ t.tgetb pgFlt T_FLT_LINK link FLT_LINK.broken = true) ∧
  (∀ s e, s.dom = .run → e < 288 → fltSt e FLT_STATE.active s = 1 → (s.win e).quiet = 1 → s.col.words = [] → s.soonWords.any (fun w => decide
    (wordState w = e)) = false → ∃ t, exec (.fltAgeScan) s = .next t ∧ t.col.ms = s.col.ms + 1 ∧ fltSt e FLT_STATE.active t = 0 ∧ fltSt e
    FLT_STATE.level t = 0 ∧ t.hasEvt pgFlt 3 = true) ∧
  (∀ s v e, s.dom = .run → bit v 31 = true → e < 288 → s.col.words = [] → ∃ t, exec (.fltAck v) s = .next t ∧ fltSt e FLT_STATE.unack t = 0 ∧ fltSt e
    FLT_STATE.active t = fltSt e FLT_STATE.active s) ∧
  (∀ s v, s.dom = .run → bit v 31 = false → getBits v 11 8 ≤ 8 → s.col.words = [] → ∃ t, exec (.fltAck v) s = .next t ∧ fltSt (32 * getBits v 11 8 + v
    % 32) FLT_STATE.unack t = 0) ∧
  (∀ s v x, s.dom = .run → s.injectOk = true → x = 32 * 95 + v % 32 → ∃ t, exec (.fltInject v) s = .next t ∧ 1 ≤ (t.slots.get {} x).n ∧ getBits v 7 5
    ≤ (t.slots.get {} x).level ∧ t.rdb pgFlt FLT_INJECT_STATUS_refused = false) ∧
  (∀ s v, s.dom = .run → s.injectOk = false → ∃ t, exec (.fltInject v) s = .next t ∧ t.slots = s.slots ∧ t.rdb pgFlt FLT_INJECT_STATUS_refused = true) ∧
  (∀ s src, s.dom = .run → srcHier src ≠ 0 → ∃ t, exec (.itemErrorDetected (.sramUe src)) s = .next t ∧ 1 ≤ (t.slots.get {} (32 * reportLink src +
    clsSramUe)).n ∧ 2 ≤ (t.slots.get {} (32 * reportLink src + clsSramUe)).level) ∧
  (∀ s, s.dom = .run → ∃ t, exec (.itemErrorDetected .fuse) s = .next t ∧ 1 ≤ (t.slots.get {} (32 * reportLink (srcService 13) + clsFuse)).n ∧ t.tabs
    = s.tabs)

/-- R521 to R536: the log, the playbill and the configuration digests. -/
def Obligations.PromptBook : Prop :=
  (∀ s r rest q, s.dom = .run → s.logQ = r :: rest → s.bankUp 0 = true → s.bankUp 1 = true → q = s.rd pgLog LOG_HEAD_seq → s.bankDueAt (q % 65536) =
    false → s.col.words = [] → ∃ t, exec (.logWrite false) s = .next t ∧ t.entry pgLog T_LOG_ENTRY (q % 65536) = r.value q ∧ t.rd pgLog LOG_HEAD_seq =
    (q + 1) % 2 ^ 32 ∧ (∀ x, x < 65536 → x ≠ q % 65536 → t.entry pgLog T_LOG_ENTRY x = s.entry pgLog T_LOG_ENTRY x)) ∧
  (∀ s c src k, s.dom = .run → s.coalKeys.find? (fun y => decide (y.cls = c ∧ y.source = src)) = some k → k.n ≠ 0 → k.held = none → s.logQ.length <
    256 → s.logHeld = [] → k.last + 1750000 ≤ s.dpCycle → s.soonWords.any (fun w => decide (wordCls w = c ∧ wordSrc w = src)) = false → s.col.words =
    [] → ∃ t, exec (.keyClose c src) s = .next t ∧ (∃ r, t.logQ = s.logQ ++ [r] ∧ r.typ = 3 ∧ r.source = k.source ∧ r.payload = k.n % 2 ^ 32) ∧
    t.coalKeys.any (fun y => decide (y.cls = c ∧ y.source = src)) = false) ∧
  (∀ s k, s.dom = .run → k < 2 → s.bankFailed k = false → s.bankFailed (1 - k) = false → s.writeSoon k = false → ∃ t, exec (.bankFail k) s = .next t ∧
    t.bankFailed k = true ∧ t.bankFailed (1 - k) = false ∧ t.rdb pgLog LOG_STATUS_ghost_only = false ∧ t.hasEvt pgLog 3 = true) ∧
  (∀ s k, s.dom = .run → k < 2 → s.bankFailed k = false → s.bankFailed (1 - k) = true → s.writeSoon k = false → ∃ t, exec (.bankFail k) s = .next t ∧
    t.bankFailed k = true ∧ t.rdb pgLog LOG_STATUS_ghost_only = true ∧ t.hasEvt pgLog 3 = true) ∧
  (∀ s w, s.dom = .run → s.admitCode w pgLog true = bsOk → w.master = .sm → s.ghostNow = [] → ∃ t, exec (.ghostClear w) s = .next t ∧ t.rd pgLog
    LOG_GHOST_UNREC = 0 ∧ t.rd pgLog LOG_GHOST_INFO_valid = 0 ∧ (List.range 4).all (fun k => decide (t.entry pgLog T_LOG_GHOST k = 0)) = true) ∧
  (∀ s, s.dom = .run → s.rd pgPlb PLB_STATUS_state ≠ plbBusy → s.rdb pgHst HST_LINK_up = true → ∃ t, exec (.playbillGo) s = .next t ∧ t.rd pgPlb
    PLB_STATUS_state = plbBusy ∧ t.plb = s.fresh.playbill.1) ∧
  (∀ s, s.dom = .run → s.rd pgPlb PLB_STATUS_state ≠ plbBusy → s.rdb pgHst HST_LINK_up = false → ∃ t, exec (.playbillGo) s = .next t ∧ t.rd pgPlb
    PLB_STATUS_state = plbLinkDown ∧ t.plb = s.plb) ∧
  (∀ s, s.dom = .run → s.rd pgPlb PLB_STATUS_state = plbBusy → ∃ t, exec (.playbillGo) s = .next t ∧ t.rd pgPlb PLB_STATUS_state = plbBusy ∧ t.rd
    pgPlb PLB_STATUS_refused = (s.rd pgPlb PLB_STATUS_refused + 1) % 2 ^ 16) ∧
  (∀ s, s.dom = .run → s.rd pgPlb PLB_STATUS_state = plbBusy → ∃ t, exec (.playbillDone) s = .next t ∧ t.rd pgPlb PLB_STATUS_state = plbFinished ∧
    t.out = (tlps (s.rd pgPlb PLB_DST_addr / 64 * 64) (s.plb.map (BitVec.ofNat 8)) (s.plb.length / 512 + 2)).map (fun y => .hostWrite 0 y.1 y.2) ∧
    t.rd pgPlb PLB_SEQ_value = (s.rd pgPlb PLB_SEQ_value + 1) % 2 ^ 32 ∧ t.hasEvt pgPlb 0 = true) ∧
  (∀ s j, s.dom = .run → j < 75 → ∃ t, exec (.digestRecompute j) s = .next t ∧ t.digs.get {} j = ⟨sha384 ((s.fresh.digestWords j).flatMap (le 4)),
    s.devGen⟩ ∧ t.digDue.contains j = false)

/-! ### Modes (file 16) -/

/-- R541 to R546, R557, R558, R560: the commands of the chip mode. -/
def Obligations.ChipModes : Prop :=
  (∀ s w, s.dom = .run → s.admitCode w pgMode true = bsOk → s.hst.released ≠ s.fab → s.modeBeaten w = false → s.modeRefusal w opService 0 = none →
    s.soonWords = [] → ∃ t, exec (.service w 0) s = .next t ∧ t.mode = (if s.allActive then modeNative else modeIntermission) ∧ t.rd (rqPage pgMode
    w.master) MODE_CMD_STATUS_code = mcDone ∧ t.hasEvt pgMode 2 = true) ∧
  (∀ s w, s.dom = .run → s.admitCode w pgMode true = bsOk → s.hst.released ≠ s.fab → s.modeBeaten w = false → s.modeRefusal w opRehearse 0 = none → ∃
    t, exec (.rehearse w) s = .next t ∧ t.mode = modeRehearsal ∧ t.rd (rqPage pgMode w.master) MODE_CMD_STATUS_code = mcDone ∧ t.hasEvt pgMode 2 =
    true) ∧
  (∀ s w, s.dom = .run → s.admitCode w pgMode true = bsOk → s.hst.released ≠ s.fab → s.modeBeaten w = false → s.modeRefusal w opAudit 0 = none → ∃ t,
    exec (.audit w) s = .next t ∧ t.mode = modeAudit ∧ t.rd (rqPage pgMode w.master) MODE_CMD_STATUS_code = mcDone ∧ t.hasEvt pgMode 2 = true) ∧
  (∀ s w, s.dom = .run → s.admitCode w pgMode true = bsOk → s.hst.released ≠ s.fab → s.modeBeaten w = false → s.modeRefusal w opEnterSafe 0 = none → ∃
    t, exec (.enterSafe w) s = .next t ∧ t.mode = modeSafe ∧ t.enRuns 0 = false ∧ t.enRuns 1 = false ∧ t.rd (rqPage pgMode w.master)
    MODE_CMD_STATUS_code = mcDone ∧ t.hasEvt pgMode 2 = true) ∧
  (∀ s w, s.dom = .run → s.admitCode w pgMode true = bsOk → s.hst.released ≠ s.fab → s.modeBeaten w = false → s.modeRefusal w opExitSafe 0 = none →
    s.l4Soon = false → s.callStop = false → ∃ t, exec (.exitSafe w) s = .next t ∧ t.mode = modeRehearsal ∧ t.callStop = false ∧ t.rd (rqPage pgMode
    w.master) MODE_CMD_STATUS_code = mcDone ∧ t.hasEvt pgMode 2 = true) ∧
  (∀ s w, s.dom = .run → s.admitCode w pgMode true = bsOk → s.hst.released ≠ s.fab → s.modeBeaten w = false → s.modeRefusal w opEnterDark 0 = none →
    (List.range 8).all (fun r => decide (s.region r ≠ rgnReset)) = true → (List.range 6).all (fun k => decide (s.rd (pgHbm k) HBM_STATUS_state ≠
    hbmTraining)) = true → ∃ t, exec (.enterDark w) s = .next t ∧ t.dom = .dark ∧ t.mode = modeDark ∧ t.pending = s.pending) ∧
  (∀ s w c, s.dom = .run → s.admitCode w pgMode true = bsOk → s.hst.released ≠ s.fab → s.modeBeaten w = false → s.modeRefusal w opAudit 0 = some c → ∃
    t, exec (.audit w) s = .next t ∧ t.rd (rqPage pgMode w.master) MODE_CMD_STATUS_code = c ∧ t.mode = s.mode ∧ (∀ r, t.region r = s.region r) ∧
    t.hasEvt pgMode 2 = true)

/-- R551 to R556: the commands of regions and stacks. -/
def Obligations.RegionCommands : Prop :=
  (∀ s w r, s.dom = .run → s.admitCode w pgMode true = bsOk → s.hst.released ≠ s.fab → s.modeBeaten w = false → s.modeRefusal w opDrain r = none →
    s.region r = rgnActive → ∃ t, exec (.drain w r) s = .next t ∧ t.region r = rgnDraining ∧ t.rd (rqPage pgMode w.master) MODE_CMD_STATUS_code =
    mcDone ∧ t.hasEvt pgMode 2 = true) ∧
  (∀ s w r, s.dom = .run → s.admitCode w pgMode true = bsOk → s.hst.released ≠ s.fab → s.modeBeaten w = false → s.modeRefusal w opOffline r = none →
    s.region r = rgnActive ∨ s.region r = rgnDraining → ∃ t, exec (.offline w r) s = .next t ∧ t.region r = rgnOffline ∧ t.rd (rqPage pgMode w.master)
    MODE_CMD_STATUS_code = mcDone ∧ t.hasEvt pgMode 2 = true) ∧
  (∀ s w r, s.dom = .run → s.admitCode w pgMode true = bsOk → s.hst.released ≠ s.fab → s.modeBeaten w = false → s.modeRefusal w opResume r = none →
    s.region r = rgnDraining → ∃ t, exec (.resume w r) s = .next t ∧ t.region r = rgnActive ∧ t.rd (rqPage pgMode w.master) MODE_CMD_STATUS_code =
    mcDone ∧ t.hasEvt pgMode 2 = true) ∧
  (∀ s w r, s.dom = .run → s.admitCode w pgMode true = bsOk → s.hst.released ≠ s.fab → s.modeBeaten w = false → s.modeRefusal w opResume r = none →
    s.region r = rgnOffline → s.activeL3 r = true → ∃ t, exec (.resume w r) s = .next t ∧ t.region r = rgnOffline ∧ t.rd (rqPage pgMode w.master)
    MODE_CMD_STATUS_code = mcFault ∧ t.hasEvt pgMode 2 = true) ∧
  (∀ s w r, s.dom = .run → s.admitCode w pgMode true = bsOk → s.hst.released ≠ s.fab → s.modeBeaten w = false → s.modeRefusal w opReset r = none →
    s.region r ≠ rgnReset → ∃ t, exec (.reset w r) s = .next t ∧ t.region r = rgnReset ∧ t.rd (rqPage pgMode w.master) MODE_CMD_STATUS_code =
    mcPending ∧ t.modeCmd = some ⟨opReset, r, w.master⟩) ∧
  (∀ s w r, s.dom = .run → s.admitCode w pgMode true = bsOk → s.hst.released ≠ s.fab → s.modeBeaten w = false → s.modeRefusal w opResetClear r = none
    → s.region r ≠ rgnReset → ∃ t, exec (.resetClear w r) s = .next t ∧ t.region r = rgnReset ∧ t.rd (rqPage pgMode w.master) MODE_CMD_STATUS_code =
    mcPending ∧ t.modeCmd = some ⟨opResetClear, r, w.master⟩) ∧
  (∀ s r c, s.dom = .run → r < 8 → s.region r = rgnReset → s.mode ≠ modeCall → s.deferredIso.contains r = false → s.modeCmd = some c → c.op = opReset
    → c.arg = r → ∃ t, exec (.regionResetDone r) s = .next t ∧ t.region r = rgnOffline ∧ t.modeCmd = none ∧ t.rd (rqPage pgMode c.master)
    MODE_CMD_STATUS_code = mcDone ∧ t.hasEvt pgMode 2 = true) ∧
  (∀ s w r temps, s.dom = .run → s.admitCode w pgMode true = bsOk → s.hst.released ≠ s.fab → s.modeBeaten w = false → s.modeRefusal w opUpdate r =
    none → s.region r = rgnOffline → (updUnits r).all (fun u => !s.csuB u CSU_STATUS_ref_ok) = true → ∃ t, exec (.update w r temps) s = .next t ∧
    t.modeCmd = some ⟨opUpdate, r, w.master⟩ ∧ t.rd (rqPage pgMode w.master) MODE_CMD_STATUS_code = mcPending ∧ (updUnits r).all (fun u => decide
    ((t.csu u).reband = .held)) = true ∧ t.region r = rgnOffline) ∧
  (∀ s w k, s.dom = .run → s.admitCode w pgMode true = bsOk → s.hst.released ≠ s.fab → s.modeBeaten w = false → s.modeRefusal w opStackRetrain k =
    none → s.rd (pgHbm k) HBM_STATUS_state = hbmFailed → ∃ t, exec (.stackRetrain w k) s = .next t ∧ t.modeCmd = some ⟨opStackRetrain, k, w.master⟩ ∧
    t.rd (rqPage pgMode w.master) MODE_CMD_STATUS_code = mcPending) ∧
  (∀ s w k, s.dom = .run → s.admitCode w pgMode true = bsOk → s.hst.released ≠ s.fab → s.modeBeaten w = false → s.modeRefusal w opStackRetrain k =
    none → s.rd (pgHbm k) HBM_STATUS_state ≠ hbmFailed → ∃ t, exec (.stackRetrain w k) s = .next t ∧ t.rd (rqPage pgMode w.master)
    MODE_CMD_STATUS_code = mcState ∧ t.modeCmd = s.modeCmd ∧ t.hasEvt pgMode 2 = true) ∧
  (∀ s k c, s.dom = .run → k < 6 → s.mode ≠ modeCall → s.modeCmd = some c → c.op = opStackRetrain → c.arg = k → s.csuB (49 + k) CSU_STATUS_locked =
    true → ∃ t, exec (.stackTrainingDone k true) s = .next t ∧ bit (t.rd pgMode MODE_STACKS_retrained) k = true ∧ t.modeCmd = none ∧ t.rd (rqPage
    pgMode c.master) MODE_CMD_STATUS_code = mcDone ∧ t.hasEvt pgMode 2 = true)

/-- R548, R560 to R564, R573, R578, R581: reset, CALL, DARK, AUDIT and life. -/
def Obligations.ResetCallAndAudit : Prop :=
  (∀ s, ∃ t, exec (.resetNAssert) s = .next t ∧ t.dom = .reset ∧ t.mem = [] ∧ t.rbSteps = s.rbSteps ∧ t.revoked = s.revoked ∧ t.pending = s.pending ∧
    t.staged = []) ∧
  (∀ s v, s.dom = .reset → ∃ t, exec (.resetNRelease v) s = .next t ∧ t.dom = .run ∧ t.rd pgChipId CHIP_ID_STRAP_strap = v % 256 ∧ t.tabs = s.tabs) ∧
  (∀ s, ∃ t, exec (.aonPowerUp) s = .next t ∧ t.dom = .reset ∧ (∀ pg f, t.rd pg f = State.reset.rd pg f) ∧ t.tabs = State.reset.tabs ∧ t.rbSteps =
    s.rbSteps ∧ t.revoked = s.revoked) ∧
  (∀ s v, s.dom = .dark → s.rdb pgCbb CBB_WAKE_CAUSE_wake_out = true → s.rdb pgChipId CHIP_ID_VMON_core_valid = true → ∃ t, exec (.darkWake v) s =
    .next t ∧ t.dom = .run ∧ t.mode = modeCall ∧ t.rd pgChipId CHIP_ID_STRAP_strap = v % 256 ∧ t.hasEvt pgCbb 7 = true) ∧
  (∀ s, s.dom = .run → s.mode = modeCall → s.rd pgMode MODE_CALL_step = 6 → s.callStop = false → ∃ t, exec (.callDone) s = .next t ∧ t.mode =
    modeRehearsal ∧ t.rd pgMode MODE_CALL_step = 7 ∧ t.hasEvt pgMode 5 = true) ∧
  (∀ s c n x, s.dom = .run → (c, n) ∈ [(Instr.regionSram x, 1), (Instr.queueMem x, 2), (Instr.hbmAlign x, 3), (Instr.logBank x, 4), (Instr.fuse x, 5),
    (Instr.aonVote x, 6)] → s.mode = modeAudit → s.auditState ≠ auditBusy → s.auditOk n (x % 256) = true → ∃ t, exec (c) s = .next t ∧ t.auditState =
    auditBusy ∧ t.rd pgMode MODE_AUDIT_STATUS_test = n ∧ t.rd pgMode MODE_AUDIT_STATUS_target = x % 256) ∧
  (∀ s c n x, s.dom = .run → (c, n) ∈ [(Instr.regionSram x, 1), (Instr.queueMem x, 2), (Instr.hbmAlign x, 3), (Instr.logBank x, 4), (Instr.fuse x, 5),
    (Instr.aonVote x, 6)] → s.auditState ≠ auditBusy → s.mode ≠ modeAudit → ∃ t, exec (c) s = .next t ∧ t.auditState = auditRefused ∧ t.mem = s.mem) ∧
  (∀ s, s.dom = .run → s.auditState = auditBusy → s.rd pgMode MODE_AUDIT_STATUS_test ≠ 6 → ∃ t, exec (.auditDone none) s = .next t ∧ t.auditState =
    auditPass ∧ t.hasEvt pgMode 4 = true) ∧
  (∀ s a, s.dom = .run → s.auditState = auditBusy → s.rd pgMode MODE_AUDIT_STATUS_test = 5 → ∃ t, exec (.auditDone (some a)) s = .next t ∧
    t.auditState = auditFail ∧ t.rd pgMode MODE_AUDIT_ADDR_addr = a % 2 ^ 64 ∧ t.hasEvt pgMode 4 = true ∧ t.mem = s.mem) ∧
  (∀ s v x, s.dom ≠ .dark → s.rdb pgChipId CHIP_ID_VMON_core_valid = true → s.lifeTop x = some v → 1680 ≤ v → ∃ t, exec (.lifeCounterTick x) s = .next
    t ∧ t.rd pgMode MODE_LIFE_POWERED = satAdd 32 (s.rd pgMode MODE_LIFE_POWERED) 1 ∧ t.rd pgMode MODE_LIFE_HOT = satAdd 32 (s.rd pgMode
    MODE_LIFE_HOT) 1)

/-! ### Package (file 17) -/

/-- R578 to R590: what the package brings in. -/
def Obligations.PackageInputs : Prop :=
  (∀ s rail v, s.dom = .run → 7 ≤ rail → rail < 10 → bit s.supplyOff rail = false → ∃ t, exec (.supplyUndervoltage rail v) s = .next t ∧ bit (t.rd
    pgChipId CHIP_ID_VMON_under) rail = true ∧ bit t.supplyOff rail = true ∧ t.hasEvt pgChipId 1 = true) ∧
  (∀ s v, ∃ t, exec (.supplyUndervoltage 0 v) s = .next t ∧ t.rdb pgChipId CHIP_ID_VMON_core_valid = false ∧ bit (t.rd pgChipId CHIP_ID_VMON_under) 0
    = true) ∧
  (∀ s rail v, s.dom = .run → rail < 10 → ∃ t, exec (.supplyOvervoltage rail v) s = .next t ∧ t.hasEvt pgChipId 1 = true ∧ t.rd pgChipId
    CHIP_ID_VMON_under = v.under % 1024) ∧
  (∀ s v, ∃ t, exec (.coreValidReturn v) s = .next t ∧ t.rdb pgChipId CHIP_ID_VMON_core_valid = true ∧ t.rd pgChipId CHIP_ID_VMON_under = (v.under &&&
    960) % 1024 ∧ t.dom = s.dom) ∧
  (∀ s i u v, s.dom = .run → i < 16 → u < 2000 → s.thermOff.get 0 i < 8 → bit (s.thermOff.get 0 i) 0 = false → 16 * (s.rd pgChipId
    CHIP_ID_THERM_DIE_warn : Int) ≤ u → ∃ t, exec (.thermalSample i u v) s = .next t ∧ t.rdb pgChipId (CHIP_ID_TEMP_valid i) = true ∧ t.rd pgChipId
    (CHIP_ID_TEMP_temp i) = ofSigned 16 u ∧ t.hasEvt pgChipId 0 = true ∧ t.dom = .run) ∧
  (∀ s i u v, s.dom = .run → i < 16 → 2000 ≤ u → s.thermHot.contains i = true → ∃ t, exec (.thermalSample i u v) s = .next t ∧ t.dom = .stopped ∧
    t.rdb pgHst HST_LINK_up = false) ∧
  (∀ s a, a = 0x40 + getBits (s.rd pgChipId CHIP_ID_STRAP_strap) 4 2 → ∃ t, exec (.i2cAccess a (some 0) 4) s = .next t ∧ t.reply = some ⟨0, [0x10,
    0x24, s.rd pgChipId CHIP_ID_REV_letter, s.mode]⟩ ∧ t.i2cPtr = 4 ∧ t.regs = s.regs) ∧
  (∀ s a p n, a ≠ 0x40 + getBits (s.rd pgChipId CHIP_ID_STRAP_strap) 4 2 → ∃ t, exec (.i2cAccess a p n) s = .next t ∧ t.reply = none ∧ t.i2cPtr =
    s.i2cPtr ∧ t.regs = s.regs)
end

