-- ==== Sys2Proof/Laws/Memory.lean ====
section
/-! SUPPORT. The Hitless Memory's contents: a read after a write, what a write leaves alone, and that every write keeps the canonical
form. -/

namespace Sys2Proof.Machine

open Sys2Proof

set_option Elab.async false
set_option linter.all false

theorem memRead_memInsert_same (m : List Host.Cell) (a : Nat) (b : Byte) (h : ∀ c ∈ m, c.1 ≠ a) : memRead (memInsert a b m) a = b := by
  induction m with
  | nil => simp [memInsert, memRead]
  | cons c m ih =>
    obtain ⟨a', b'⟩ := c
    simp only [memInsert]
    split
    · simp [memRead]
    · have h1 : a' ≠ a := h (a', b') (by simp)
      simp only [memRead, if_neg h1]
      exact ih (fun c hc => h c (by simp [hc]))

theorem memRead_absent (m : List Host.Cell) (a : Nat) (h : ∀ c ∈ m, c.1 ≠ a) : memRead m a = 0 := by
  induction m with
  | nil => rfl
  | cons c m ih =>
    obtain ⟨a', b'⟩ := c
    have h1 : a' ≠ a := h (a', b') (by simp)
    simp only [memRead, if_neg h1]
    exact ih (fun c hc => h c (by simp [hc]))

theorem memRead_memWrite_same (m : List Host.Cell) (a : Nat) (b : Byte) : memRead (memWrite m a b) a = b := by
  have h : ∀ c ∈ m.filter (fun c => decide (c.1 ≠ a)), c.1 ≠ a := fun c hc => by simpa using (List.mem_filter.1 hc).2
  unfold memWrite
  dsimp only
  split
  · rename_i e; rw [memRead_absent _ _ h, e]
  · exact memRead_memInsert_same _ _ _ h

theorem memRead_filter_ne (m : List Host.Cell) (a a' : Nat) (h : a' ≠ a) :
    memRead (m.filter (fun c => decide (c.1 ≠ a))) a' = memRead m a' := by
  induction m with
  | nil => rfl
  | cons c m ih =>
    obtain ⟨x, y⟩ := c
    by_cases hx : x = a
    · subst hx
      simp only [List.filter, ne_eq, not_true_eq_false, decide_false, memRead, if_neg (Ne.symm h)]
      exact ih
    · simp only [List.filter, ne_eq, hx, not_false_eq_true, decide_true, memRead]
      rw [ih]

theorem memRead_memInsert_ne (m : List Host.Cell) (a a' : Nat) (b : Byte) (h : a' ≠ a) : memRead (memInsert a b m) a' = memRead m a' := by
  induction m with
  | nil => simp [memInsert, memRead, Ne.symm h]
  | cons c m ih =>
    obtain ⟨x, y⟩ := c
    simp only [memInsert]
    split
    · simp [memRead, Ne.symm h]
    · simp only [memRead, ih]

theorem memRead_memWrite_ne (m : List Host.Cell) (a a' : Nat) (b : Byte) (h : a' ≠ a) : memRead (memWrite m a b) a' = memRead m a' := by
  unfold memWrite
  dsimp only
  split
  · exact memRead_filter_ne m a a' h
  · rw [memRead_memInsert_ne _ _ _ _ h, memRead_filter_ne _ _ _ h]

theorem sorted_filter {α : Type} (p : Nat × α → Bool) (m : SMap α) (h : SMap.sorted m = true) : SMap.sorted (m.filter p) = true := by
  induction m with
  | nil => rfl
  | cons e m ih =>
    simp only [SMap.sorted, Bool.and_eq_true, List.all_eq_true] at h
    simp only [List.filter]
    split
    · simp only [SMap.sorted, Bool.and_eq_true, List.all_eq_true]
      exact ⟨fun x hx => h.1 x (List.mem_filter.1 hx).1, ih h.2⟩
    · exact ih h.2

theorem wf_filter (p : Host.Cell → Bool) (m : List Host.Cell) (h : Memory.wf m = true) : Memory.wf (m.filter p) = true := by
  unfold Memory.wf SMap.canonical at *
  simp only [Bool.and_eq_true, List.all_eq_true] at *
  exact ⟨sorted_filter p m h.1, fun x hx => h.2 x (List.mem_filter.1 hx).1⟩

theorem mem_memInsert (a : Nat) (b : Byte) (m : List Host.Cell) (x : Host.Cell) (h : x ∈ memInsert a b m) : x = (a, b) ∨ x ∈ m := by
  induction m with
  | nil => simpa [memInsert] using h
  | cons c m ih =>
    obtain ⟨a', b'⟩ := c
    simp only [memInsert] at h
    split at h
    · simpa using h
    · rcases List.mem_cons.1 h with h | h
      · exact .inr (by simp [h])
      · rcases ih h with h | h
        · exact .inl h
        · exact .inr (by simp [h])

theorem sorted_memInsert (a : Nat) (b : Byte) (m : List Host.Cell) (hs : SMap.sorted m = true) (h : ∀ c ∈ m, c.1 ≠ a) :
    SMap.sorted (memInsert a b m) = true := by
  induction m with
  | nil => rfl
  | cons c m ih =>
    obtain ⟨a', b'⟩ := c
    simp only [SMap.sorted, Bool.and_eq_true, List.all_eq_true, decide_eq_true_eq] at hs
    simp only [memInsert]
    split
    · rename_i hlt
      simp only [SMap.sorted, Bool.and_eq_true, List.all_eq_true, decide_eq_true_eq]
      refine ⟨fun x hx => ?_, hs⟩
      rcases List.mem_cons.1 hx with e | e
      · rw [e]; exact hlt
      · exact Nat.lt_trans hlt (hs.1 x e)
    · rename_i hlt
      have hne : a' ≠ a := h (a', b') (by simp)
      simp only [SMap.sorted, Bool.and_eq_true, List.all_eq_true, decide_eq_true_eq]
      refine ⟨fun x hx => ?_, ih hs.2 (fun c hc => h c (by simp [hc]))⟩
      rcases mem_memInsert a b m x hx with e | e
      · rw [e]; show a' < a; omega
      · exact hs.1 x e

theorem wf_memWrite (m : List Host.Cell) (a : Nat) (b : Byte) (h : Memory.wf m = true) : Memory.wf (memWrite m a b) = true := by
  have hf := wf_filter (fun c => decide (c.1 ≠ a)) m h
  unfold memWrite
  dsimp only
  split
  · exact hf
  · rename_i hb
    unfold Memory.wf SMap.canonical at hf ⊢
    simp only [Bool.and_eq_true, List.all_eq_true] at hf ⊢
    refine ⟨sorted_memInsert a b _ hf.1 (fun c hc => by simpa using (List.mem_filter.1 hc).2), fun x hx => ?_⟩
    rcases mem_memInsert a b _ x hx with e | e
    · rw [e]; simpa using hb
    · exact hf.2 x e

theorem wf_memWriteBytes (l : List Byte) (m : List Host.Cell) (a : Nat) (h : Memory.wf m = true) : Memory.wf (memWriteBytes m a l) = true := by
  induction l generalizing m a with
  | nil => exact h
  | cons b l ih => exact ih _ _ (wf_memWrite _ _ _ h)

theorem wf_foldl {α : Type} (f : List Host.Cell → α → List Host.Cell) (l : List α) (m : List Host.Cell) (h : Memory.wf m = true)
    (k : ∀ m x, Memory.wf m = true → Memory.wf (f m x) = true) : Memory.wf (l.foldl f m) = true := by
  induction l generalizing m with
  | nil => exact h
  | cons x l ih => exact ih _ (k _ _ h)

/-- Bytes outside those written read as before. -/
theorem memRead_memWriteBytes (l : List Byte) (m : List Host.Cell) (a x : Nat) (h : x < a ∨ a + l.length ≤ x) :
    memRead (memWriteBytes m a l) x = memRead m x := by
  induction l generalizing m a with
  | nil => rfl
  | cons b l ih =>
    simp only [List.length_cons] at h
    simp only [memWriteBytes]
    rw [ih _ _ (by omega), memRead_memWrite_ne _ _ _ _ (by omega)]

end Sys2Proof.Machine
end

