-- ==== Sys2Proof/Laws/State.lean ====
section
/-! SUPPORT. The laws of state updates. `Fr M s t`: the states agree on everything the mask `M` does not allow; bit `i` below
123 stands for the i-th part of State, bit 128 + c for the entries of tables of code c (on any page), bit 512 + p for the
register fields at position p = 8 × offset + lowest bit (of any page). One law per update of a part says what it leaves alone;
the laws of the operations follow in the Frame files. -/

namespace Sys2Proof.Machine

open Sys2Proof

set_option Elab.async false
set_option linter.all false

/-- Two states agree outside what the mask allows. -/
structure Fr (M : Nat) (s t : State) : Prop where
  pending : M.testBit 0 = false → t.pending = s.pending
  out : M.testBit 1 = false → t.out = s.out
  reply : M.testBit 2 = false → t.reply = s.reply
  freeCtr : M.testBit 3 = false → t.freeCtr = s.freeCtr
  dpCycle : M.testBit 4 = false → t.dpCycle = s.dpCycle
  staged : M.testBit 11 = false → t.staged = s.staged
  dirty : M.testBit 12 = false → t.dirty = s.dirty
  events : M.testBit 13 = false → t.events = s.events
  devGen : M.testBit 14 = false → t.devGen = s.devGen
  mem : M.testBit 15 = false → t.mem = s.mem
  slots : M.testBit 16 = false → t.slots = s.slots
  fltWin : M.testBit 17 = false → t.fltWin = s.fltWin
  col : M.testBit 18 = false → t.col = s.col
  logQ : M.testBit 19 = false → t.logQ = s.logQ
  logHeld : M.testBit 20 = false → t.logHeld = s.logHeld
  coalKeys : M.testBit 21 = false → t.coalKeys = s.coalKeys
  skips : M.testBit 22 = false → t.skips = s.skips
  fns : M.testBit 23 = false → t.fns = s.fns
  numVfs : M.testBit 24 = false → t.numVfs = s.numVfs
  vecs : M.testBit 25 = false → t.vecs = s.vecs
  notices : M.testBit 26 = false → t.notices = s.notices
  modeCmd : M.testBit 27 = false → t.modeCmd = s.modeCmd
  deferredIso : M.testBit 28 = false → t.deferredIso = s.deferredIso
  tb : M.testBit 29 = false → t.tb = s.tb
  blk : M.testBit 30 = false → t.blk = s.blk
  live : M.testBit 31 = false → t.live = s.live
  lanes : M.testBit 32 = false → t.lanes = s.lanes
  prbs : M.testBit 33 = false → t.prbs = s.prbs
  epi : M.testBit 34 = false → t.epi = s.epi
  slices : M.testBit 35 = false → t.slices = s.slices
  points : M.testBit 36 = false → t.points = s.points
  ctxs : M.testBit 37 = false → t.ctxs = s.ctxs
  secCount : M.testBit 38 = false → t.secCount = s.secCount
  pmPend : M.testBit 39 = false → t.pmPend = s.pmPend
  tbStepped : M.testBit 40 = false → t.tbStepped = s.tbStepped
  clis : M.testBit 41 = false → t.clis = s.clis
  gmps : M.testBit 42 = false → t.gmps = s.gmps
  grps : M.testBit 43 = false → t.grps = s.grps
  apss : M.testBit 44 = false → t.apss = s.apss
  prtQ : M.testBit 45 = false → t.prtQ = s.prtQ
  sfpOverwrite : M.testBit 46 = false → t.sfpOverwrite = s.sfpOverwrite
  flowOuts : M.testBit 47 = false → t.flowOuts = s.flowOuts
  wgrps : M.testBit 48 = false → t.wgrps = s.wgrps
  slotQ : M.testBit 49 = false → t.slotQ = s.slotQ
  hbm : M.testBit 50 = false → t.hbm = s.hbm
  fallQ : M.testBit 51 = false → t.fallQ = s.fallQ
  nextPc : M.testBit 52 = false → t.nextPc = s.nextPc
  brgStamp : M.testBit 53 = false → t.brgStamp = s.brgStamp
  fyls : M.testBit 54 = false → t.fyls = s.fyls
  txFlows : M.testBit 55 = false → t.txFlows = s.txFlows
  rxFailTurn : M.testBit 56 = false → t.rxFailTurn = s.rxFailTurn
  coverAt : M.testBit 57 = false → t.coverAt = s.coverAt
  covers : M.testBit 58 = false → t.covers = s.covers
  caps : M.testBit 59 = false → t.caps = s.caps
  inss : M.testBit 60 = false → t.inss = s.inss
  chks : M.testBit 61 = false → t.chks = s.chks
  sdpRx0 : M.testBit 62 = false → t.sdpRx0 = s.sdpRx0
  sdpRx1 : M.testBit 63 = false → t.sdpRx1 = s.sdpRx1
  sdpCur : M.testBit 64 = false → t.sdpCur = s.sdpCur
  sdpTx : M.testBit 65 = false → t.sdpTx = s.sdpTx
  sdpWr : M.testBit 66 = false → t.sdpWr = s.sdpWr
  sdpLast : M.testBit 67 = false → t.sdpLast = s.sdpLast
  sdpStarts : M.testBit 68 = false → t.sdpStarts = s.sdpStarts
  sdpRows : M.testBit 69 = false → t.sdpRows = s.sdpRows
  sdpSpeed : M.testBit 70 = false → t.sdpSpeed = s.sdpSpeed
  sdpQuanta : M.testBit 71 = false → t.sdpQuanta = s.sdpQuanta
  cbbTx : M.testBit 72 = false → t.cbbTx = s.cbbTx
  cbbRx : M.testBit 73 = false → t.cbbRx = s.cbbRx
  cbbCur : M.testBit 74 = false → t.cbbCur = s.cbbCur
  cbbRing : M.testBit 75 = false → t.cbbRing = s.cbbRing
  cbbNext : M.testBit 76 = false → t.cbbNext = s.cbbNext
  cbbSeq : M.testBit 77 = false → t.cbbSeq = s.cbbSeq
  cbbHeard : M.testBit 78 = false → t.cbbHeard = s.cbbHeard
  door : M.testBit 79 = false → t.door = s.door
  tsLog : M.testBit 80 = false → t.tsLog = s.tsLog
  pps : M.testBit 81 = false → t.pps = s.pps
  tim : M.testBit 82 = false → t.tim = s.tim
  ppsOutLast : M.testBit 83 = false → t.ppsOutLast = s.ppsOutLast
  csus : M.testBit 84 = false → t.csus = s.csus
  upd : M.testBit 85 = false → t.upd = s.upd
  msixTab : M.testBit 86 = false → t.msixTab = s.msixTab
  hst : M.testBit 87 = false → t.hst = s.hst
  smHeld : M.testBit 88 = false → t.smHeld = s.smHeld
  reqQ : M.testBit 89 = false → t.reqQ = s.reqQ
  smImg : M.testBit 90 = false → t.smImg = s.smImg
  slotA : M.testBit 91 = false → t.slotA = s.slotA
  slotB : M.testBit 92 = false → t.slotB = s.slotB
  push : M.testBit 93 = false → t.push = s.push
  rbSteps : M.testBit 94 = false → t.rbSteps = s.rbSteps
  revoked : M.testBit 95 = false → t.revoked = s.revoked
  rights : M.testBit 96 = false → t.rights = s.rights
  challenge : M.testBit 97 = false → t.challenge = s.challenge
  wdogTimes : M.testBit 98 = false → t.wdogTimes = s.wdogTimes
  enStart : M.testBit 99 = false → t.enStart = s.enStart
  kickAt : M.testBit 100 = false → t.kickAt = s.kickAt
  mbWho : M.testBit 101 = false → t.mbWho = s.mbWho
  dom : M.testBit 102 = false → t.dom = s.dom
  callStop : M.testBit 103 = false → t.callStop = s.callStop
  supplyOff : M.testBit 104 = false → t.supplyOff = s.supplyOff
  thermOff : M.testBit 105 = false → t.thermOff = s.thermOff
  thermHot : M.testBit 106 = false → t.thermHot = s.thermHot
  life : M.testBit 107 = false → t.life = s.life
  i2cPtr : M.testBit 108 = false → t.i2cPtr = s.i2cPtr
  plb : M.testBit 109 = false → t.plb = s.plb
  digs : M.testBit 110 = false → t.digs = s.digs
  digDue : M.testBit 111 = false → t.digDue = s.digDue
  cues : M.testBit 112 = false → t.cues = s.cues
  cueTurn : M.testBit 113 = false → t.cueTurn = s.cueTurn
  pmBins : M.testBit 114 = false → t.pmBins = s.pmBins
  pmBase : M.testBit 115 = false → t.pmBase = s.pmBase
  pmLastBin : M.testBit 116 = false → t.pmLastBin = s.pmLastBin
  pmMissing : M.testBit 117 = false → t.pmMissing = s.pmMissing
  pmThr : M.testBit 118 = false → t.pmThr = s.pmThr
  tca : M.testBit 119 = false → t.tca = s.tca
  almMask : M.testBit 120 = false → t.almMask = s.almMask
  sdpBad : M.testBit 121 = false → t.sdpBad = s.sdpBad
  persReset : M.testBit 122 = false → t.persReset = s.persReset
  regs : ∀ d k, M.testBit (512 + k % 8192) = false → t.regs.get d k = s.regs.get d k
  regsB : ∀ d k, M.testBit (512 + k % 8192) = false → t.regsB.get d k = s.regsB.get d k
  regsC : ∀ d k, M.testBit (512 + k % 8192) = false → t.regsC.get d k = s.regsC.get d k
  tabs : ∀ d k, M.testBit (128 + k / 2 ^ 24 % 256) = false → t.tabs.get d k = s.tabs.get d k
  tabsB : ∀ d k, M.testBit (128 + k / 2 ^ 24 % 256) = false → t.tabsB.get d k = s.tabsB.get d k
  tabsC : ∀ d k, M.testBit (128 + k / 2 ^ 24 % 256) = false → t.tabsC.get d k = s.tabsC.get d k
  kEvt : M.testBit 400 = false → ∀ pg k, s.hasEvt pg k = true → t.hasEvt pg k = true
  kFuse : M.testBit 401 = false → s.rbSteps ≤ t.rbSteps ∧ ∀ x ∈ s.revoked, x ∈ t.revoked
  kLog : M.testBit 402 = false → LogOk s → LogOk t
  kTb : M.testBit 403 = false → s.tb.ok → t.tb.ok
  kMem : M.testBit 404 = false → MemOk s → MemOk t
  kFree : M.testBit 405 = false → s.freeCtr ≤ t.freeCtr

def mFld (f : Field) : Nat := 2 ^ (512 + (f.off * 8 + f.lo) % 8192)
def mTab (t : Tab) : Nat := 2 ^ (128 + t.code % 256)
def allRegs : Nat := (2 ^ 8192 - 1) * 2 ^ 512
def allTabs : Nat := (2 ^ 256 - 1) * 2 ^ 128
def allMask : Nat := (2 ^ 123 - 1) ||| 2 ^ 400 ||| allRegs ||| allTabs
abbrev MaskLe (a b : Nat) : Prop := a ||| b = b
theorem MaskLe.trans {a b c : Nat} (h1 : MaskLe a b) (h2 : MaskLe b c) : MaskLe a c := by
  unfold MaskLe at *; rw [← h2, ← Nat.lor_assoc, h1]
theorem MaskLe.bit {a b i : Nat} (h : MaskLe a b) (hi : b.testBit i = false) : a.testBit i = false := by
  have := congrArg (·.testBit i) h
  simp [hi] at this; exact this
theorem fr_refl (M : Nat) (s : State) : Fr M s s := by
  constructor <;> intros <;> first | rfl | assumption | exact ⟨Nat.le_refl _, fun x h => h⟩ | exact Nat.le_refl _
theorem fr_cut {M s0} {y : State} (x : State) (k : Fr M s0 x → Fr M s0 y) (h : Fr M s0 x) : Fr M s0 y := k h
theorem fr_ite {M s0} {c : Prop} [Decidable c] {a b : State} (h1 : Fr M s0 a) (h2 : Fr M s0 b) : Fr M s0 (if c then a else b) := by
  split <;> assumption
theorem fr_pair {α : Type} {M s0} {a : α × State} {b : α → State → State} (h : Fr M s0 a.2) (k : ∀ v x, Fr M s0 x → Fr M s0 (b v x)) : Fr M s0 (match a with | (v, x) => b v x) := by
  cases a; exact k _ _ h
theorem fr_each {α : Type} {M s0} {s : State} {l : List α} {f : State → α → State} (h : Fr M s0 s) (k : ∀ s x, Fr M s0 s → Fr M s0 (f s x)) : Fr M s0 (s.each l f) := by
  unfold State.each
  induction l generalizing s with
  | nil => exact h
  | cons a l ih => exact ih (k _ _ h)
theorem fr_when {M s0} {s : State} {c : Bool} {f : State → State} (h : Fr M s0 s) (k : ∀ s, Fr M s0 s → Fr M s0 (f s)) : Fr M s0 (s.when c f) := by
  unfold State.when; split
  · exact k _ h
  · exact h
theorem fr_foldl {β α : Type} {M s0} {l : List α} {f : β × State → α → β × State} {a : β × State} (h : Fr M s0 a.2) (k : ∀ a x, Fr M s0 a.2 → Fr M s0 (f a x).2) : Fr M s0 (List.foldl f a l).2 := by
  induction l generalizing a with
  | nil => exact h
  | cons y l ih => exact ih (k _ _ h)
theorem fr_foldl2 {γ β α : Type} {M s0} {l : List α} {f : γ × β × State → α → γ × β × State} {a : γ × β × State} (h : Fr M s0 a.2.2) (k : ∀ a x, Fr M s0 a.2.2 → Fr M s0 (f a x).2.2) : Fr M s0 (List.foldl f a l).2.2 := by
  induction l generalizing a with
  | nil => exact h
  | cons y l ih => exact ih (k _ _ h)
theorem fr_foldl1 {β α : Type} {M s0} {l : List α} {f : State × β → α → State × β} {a : State × β} (h : Fr M s0 a.1) (k : ∀ a x, Fr M s0 a.1 → Fr M s0 (f a x).1) : Fr M s0 (List.foldl f a l).1 := by
  induction l generalizing a with
  | nil => exact h
  | cons y l ih => exact ih (k _ _ h)
theorem fr2_ite {α : Type} {M s0} {c : Prop} [Decidable c] {a b : α × State} (h1 : Fr M s0 a.2) (h2 : Fr M s0 b.2) : Fr M s0 (if c then a else b).2 := by
  split <;> assumption
theorem fr1_ite {α : Type} {M s0} {c : Prop} [Decidable c] {a b : State × α} (h1 : Fr M s0 a.1) (h2 : Fr M s0 b.1) : Fr M s0 (if c then a else b).1 := by
  split <;> assumption
theorem fr1_pair {α β : Type} {M s0} {a : State × α} {b : State → α → State × β} (h : Fr M s0 a.1) (k : ∀ x v, Fr M s0 x → Fr M s0 (b x v).1) : Fr M s0 (match a with | (x, v) => b x v).1 := by
  cases a; exact k _ _ h
theorem fr1_pair' {α : Type} {M s0} {a : State × α} {b : State → α → State} (h : Fr M s0 a.1) (k : ∀ x v, Fr M s0 x → Fr M s0 (b x v)) : Fr M s0 (match a with | (x, v) => b x v) := by
  cases a; exact k _ _ h
theorem fr2_pair {α β : Type} {M s0} {a : α × State} {b : α → State → β × State} (h : Fr M s0 a.2) (k : ∀ v x, Fr M s0 x → Fr M s0 (b v x).2) : Fr M s0 (match a with | (v, x) => b v x).2 := by
  cases a; exact k _ _ h

theorem SMap.get_filter_ne {α : Type} (d : α) (m : SMap α) (k k' : Nat) (h : k' ≠ k) : SMap.get d (m.erase k) k' = SMap.get d m k' := by
  unfold SMap.erase
  induction m with
  | nil => rfl
  | cons e m ih =>
    obtain ⟨a, v⟩ := e
    by_cases ha : a = k
    · subst ha
      simp only [List.filter, SMap.get, ne_eq, not_true_eq_false, decide_false]
      rw [ih, if_neg (fun e => h e.symm)]
    · simp only [List.filter, SMap.get, ne_eq, ha, not_false_eq_true, decide_true]
      rw [ih]
theorem SMap.get_insert_ne {α : Type} (d : α) (m : SMap α) (k k' : Nat) (v : α) (h : k' ≠ k) : SMap.get d (SMap.insert k v m) k' = SMap.get d m k' := by
  induction m with
  | nil => simp [SMap.insert, SMap.get, Ne.symm h]
  | cons e m ih =>
    obtain ⟨a, w⟩ := e
    simp only [SMap.insert]
    split
    · simp [SMap.get, Ne.symm h]
    · simp only [SMap.get, ih]
theorem SMap.get_set_ne {α : Type} [DecidableEq α] {d' d : α} (m : SMap α) (k k' : Nat) (v : α) (h : k' ≠ k) : SMap.get d (m.set d' k v) k' = SMap.get d m k' := by
  unfold SMap.set
  split
  · exact SMap.get_filter_ne d m k k' h
  · rw [SMap.get_insert_ne _ _ _ _ _ h, SMap.get_filter_ne _ _ _ _ h]
theorem SMap.get_erase_same {α : Type} (d : α) (m : SMap α) (k : Nat) : SMap.get d (m.erase k) k = d := by
  unfold SMap.erase
  induction m with
  | nil => rfl
  | cons e m ih =>
    obtain ⟨a, v⟩ := e
    by_cases ha : a = k
    · subst ha; simp only [List.filter, ne_eq, not_true_eq_false, decide_false]; exact ih
    · simp only [List.filter, SMap.get, ne_eq, ha, not_false_eq_true, decide_true, if_false]; exact ih
theorem SMap.get_insert_same {α : Type} (d : α) (m : SMap α) (k : Nat) (v : α) :
    SMap.get d (SMap.insert k v (m.erase k)) k = v := by
  unfold SMap.erase
  induction m with
  | nil => simp [SMap.insert, SMap.get]
  | cons e m ih =>
    obtain ⟨a, w⟩ := e
    by_cases ha : a = k
    · subst ha; simp only [List.filter, ne_eq, not_true_eq_false, decide_false]; exact ih
    · simp only [List.filter, ne_eq, ha, not_false_eq_true, decide_true, SMap.insert]
      split
      · simp [SMap.get]
      · simp only [SMap.get, if_neg ha]; exact ih
/-- Reading a key just written gives the value written. -/
@[simp] theorem SMap.get_set_same {α : Type} [DecidableEq α] (d : α) (m : SMap α) (k : Nat) (v : α) :
    SMap.get d (m.set d k v) k = v := by
  unfold SMap.set
  split
  · rename_i h; rw [SMap.get_erase_same, h]
  · exact SMap.get_insert_same d m k v
@[simp] theorem SMap.get_upd_same {α : Type} [DecidableEq α] (d : α) (m : SMap α) (k : Nat) (f : α → α) :
    SMap.get d (m.upd d k f) k = f (m.get d k) := SMap.get_set_same d m k _
theorem SMap.get_upd_ne {α : Type} [DecidableEq α] {d' d : α} (m : SMap α) (k k' : Nat) (f : α → α) (h : k' ≠ k) :
    SMap.get d (m.upd d' k f) k' = SMap.get d m k' := SMap.get_set_ne m k k' _ h
theorem bits_range (a b i : Nat) (h1 : b ≤ i) (h2 : i < b + a) : ((2 ^ a - 1) * 2 ^ b).testBit i = true := by
  rw [Nat.testBit_mul_two_pow, Nat.testBit_two_pow_sub_one]
  simp; omega
theorem coarse_r {m : Nat} (h : MaskLe allRegs m) (k : Nat) : ¬ m.testBit (512 + k % 8192) = false := by
  intro c
  have h1 := h.bit c
  have h2 : allRegs.testBit (512 + k % 8192) = true := bits_range 8192 512 _ (by omega) (by omega)
  rw [h1] at h2; cases h2
theorem coarse_t {m : Nat} (h : MaskLe allTabs m) (k : Nat) : ¬ m.testBit (128 + k / 2 ^ 24 % 256) = false := by
  intro c
  have h1 := h.bit c
  have h2 : allTabs.testBit (128 + k / 2 ^ 24 % 256) = true := bits_range 256 128 _ (by omega) (by omega)
  rw [h1] at h2; cases h2

theorem mFld_coarse {m : Nat} (h : MaskLe allRegs m) (f : Field) : MaskLe (mFld f) m := by
  apply Nat.eq_of_testBit_eq; intro i
  simp only [Nat.testBit_or, mFld, Nat.testBit_two_pow]
  by_cases hi : 512 + (f.off * 8 + f.lo) % 8192 = i
  · subst hi
    have := coarse_r h (f.off * 8 + f.lo)
    simp at this; simp [this]
  · simp [hi]
theorem mTab_coarse {m : Nat} (h : MaskLe allTabs m) (t : Tab) : MaskLe (mTab t) m := by
  apply Nat.eq_of_testBit_eq; intro i
  simp only [Nat.testBit_or, mTab, Nat.testBit_two_pow]
  by_cases hi : 128 + t.code % 256 = i
  · subst hi
    have := coarse_t h (t.code * 2 ^ 24)
    simp at this; simp [this]
  · simp [hi]
theorem fr_mk_almMask {M s0 s v_almMask} (hM : MaskLe (2 ^ 120) M) (h : Fr M s0 s) : Fr M s0 { s with almMask := v_almMask } :=
  { h with
    almMask := fun c => absurd (hM.bit c) (by decide +kernel) }
theorem fr_mk_apss {M s0 s v_apss} (hM : MaskLe (2 ^ 44) M) (h : Fr M s0 s) : Fr M s0 { s with apss := v_apss } :=
  { h with
    apss := fun c => absurd (hM.bit c) (by decide +kernel) }
theorem fr_mk_blk {M s0 s v_blk} (hM : MaskLe (2 ^ 30) M) (h : Fr M s0 s) : Fr M s0 { s with blk := v_blk } :=
  { h with
    blk := fun c => absurd (hM.bit c) (by decide +kernel) }
theorem fr_mk_blk_lanes_prbs_epi_slices_points_ctxs_clis_gmps_flowOuts_brgStamp_txFlows {M s0 s v_blk v_lanes v_prbs v_epi v_slices v_points v_ctxs v_clis v_gmps v_flowOuts v_brgStamp v_txFlows} (hM : MaskLe (2 ^ 30 ||| 2 ^ 32 ||| 2 ^ 33 ||| 2 ^ 34 ||| 2 ^ 35 ||| 2 ^ 36 ||| 2 ^ 37 ||| 2 ^ 41 ||| 2 ^ 42 ||| 2 ^ 47 ||| 2 ^ 53 ||| 2 ^ 55) M) (h : Fr M s0 s) : Fr M s0 { s with blk := v_blk, lanes := v_lanes, prbs := v_prbs, epi := v_epi, slices := v_slices, points := v_points, ctxs := v_ctxs, clis := v_clis, gmps := v_gmps, flowOuts := v_flowOuts, brgStamp := v_brgStamp, txFlows := v_txFlows } :=
  { h with
    blk := fun c => absurd (hM.bit c) (by decide +kernel)
    lanes := fun c => absurd (hM.bit c) (by decide +kernel)
    prbs := fun c => absurd (hM.bit c) (by decide +kernel)
    epi := fun c => absurd (hM.bit c) (by decide +kernel)
    slices := fun c => absurd (hM.bit c) (by decide +kernel)
    points := fun c => absurd (hM.bit c) (by decide +kernel)
    ctxs := fun c => absurd (hM.bit c) (by decide +kernel)
    clis := fun c => absurd (hM.bit c) (by decide +kernel)
    gmps := fun c => absurd (hM.bit c) (by decide +kernel)
    flowOuts := fun c => absurd (hM.bit c) (by decide +kernel)
    brgStamp := fun c => absurd (hM.bit c) (by decide +kernel)
    txFlows := fun c => absurd (hM.bit c) (by decide +kernel) }
theorem fr_mk_brgStamp {M s0 s v_brgStamp} (hM : MaskLe (2 ^ 53) M) (h : Fr M s0 s) : Fr M s0 { s with brgStamp := v_brgStamp } :=
  { h with
    brgStamp := fun c => absurd (hM.bit c) (by decide +kernel) }
theorem fr_mk_callStop {M s0 s v_callStop} (hM : MaskLe (2 ^ 103) M) (h : Fr M s0 s) : Fr M s0 { s with callStop := v_callStop } :=
  { h with
    callStop := fun c => absurd (hM.bit c) (by decide +kernel) }
theorem fr_mk_caps {M s0 s v_caps} (hM : MaskLe (2 ^ 59) M) (h : Fr M s0 s) : Fr M s0 { s with caps := v_caps } :=
  { h with
    caps := fun c => absurd (hM.bit c) (by decide +kernel) }
theorem fr_mk_caps_inss {M s0 s v_caps v_inss} (hM : MaskLe (2 ^ 59 ||| 2 ^ 60) M) (h : Fr M s0 s) : Fr M s0 { s with caps := v_caps, inss := v_inss } :=
  { h with
    caps := fun c => absurd (hM.bit c) (by decide +kernel)
    inss := fun c => absurd (hM.bit c) (by decide +kernel) }
theorem fr_mk_cbbCur {M s0 s v_cbbCur} (hM : MaskLe (2 ^ 74) M) (h : Fr M s0 s) : Fr M s0 { s with cbbCur := v_cbbCur } :=
  { h with
    cbbCur := fun c => absurd (hM.bit c) (by decide +kernel) }
theorem fr_mk_cbbHeard_door {M s0 s v_cbbHeard v_door} (hM : MaskLe (2 ^ 78 ||| 2 ^ 79) M) (h : Fr M s0 s) : Fr M s0 { s with cbbHeard := v_cbbHeard, door := v_door } :=
  { h with
    cbbHeard := fun c => absurd (hM.bit c) (by decide +kernel)
    door := fun c => absurd (hM.bit c) (by decide +kernel) }
theorem fr_mk_cbbNext {M s0 s v_cbbNext} (hM : MaskLe (2 ^ 76) M) (h : Fr M s0 s) : Fr M s0 { s with cbbNext := v_cbbNext } :=
  { h with
    cbbNext := fun c => absurd (hM.bit c) (by decide +kernel) }
theorem fr_mk_cbbNext_door {M s0 s v_cbbNext v_door} (hM : MaskLe (2 ^ 76 ||| 2 ^ 79) M) (h : Fr M s0 s) : Fr M s0 { s with cbbNext := v_cbbNext, door := v_door } :=
  { h with
    cbbNext := fun c => absurd (hM.bit c) (by decide +kernel)
    door := fun c => absurd (hM.bit c) (by decide +kernel) }
theorem fr_mk_cbbRing_cbbNext {M s0 s v_cbbRing v_cbbNext} (hM : MaskLe (2 ^ 75 ||| 2 ^ 76) M) (h : Fr M s0 s) : Fr M s0 { s with cbbRing := v_cbbRing, cbbNext := v_cbbNext } :=
  { h with
    cbbRing := fun c => absurd (hM.bit c) (by decide +kernel)
    cbbNext := fun c => absurd (hM.bit c) (by decide +kernel) }
theorem fr_mk_cbbRx {M s0 s v_cbbRx} (hM : MaskLe (2 ^ 73) M) (h : Fr M s0 s) : Fr M s0 { s with cbbRx := v_cbbRx } :=
  { h with
    cbbRx := fun c => absurd (hM.bit c) (by decide +kernel) }
theorem fr_mk_cbbRx_cbbCur {M s0 s v_cbbRx v_cbbCur} (hM : MaskLe (2 ^ 73 ||| 2 ^ 74) M) (h : Fr M s0 s) : Fr M s0 { s with cbbRx := v_cbbRx, cbbCur := v_cbbCur } :=
  { h with
    cbbRx := fun c => absurd (hM.bit c) (by decide +kernel)
    cbbCur := fun c => absurd (hM.bit c) (by decide +kernel) }
theorem fr_mk_cbbSeq {M s0 s v_cbbSeq} (hM : MaskLe (2 ^ 77) M) (h : Fr M s0 s) : Fr M s0 { s with cbbSeq := v_cbbSeq } :=
  { h with
    cbbSeq := fun c => absurd (hM.bit c) (by decide +kernel) }
theorem fr_mk_cbbTx {M s0 s v_cbbTx} (hM : MaskLe (2 ^ 72) M) (h : Fr M s0 s) : Fr M s0 { s with cbbTx := v_cbbTx } :=
  { h with
    cbbTx := fun c => absurd (hM.bit c) (by decide +kernel) }
theorem fr_mk_challenge {M s0 s v_challenge} (hM : MaskLe (2 ^ 97) M) (h : Fr M s0 s) : Fr M s0 { s with challenge := v_challenge } :=
  { h with
    challenge := fun c => absurd (hM.bit c) (by decide +kernel) }
theorem fr_mk_chks {M s0 s v_chks} (hM : MaskLe (2 ^ 61) M) (h : Fr M s0 s) : Fr M s0 { s with chks := v_chks } :=
  { h with
    chks := fun c => absurd (hM.bit c) (by decide +kernel) }
theorem fr_mk_clis {M s0 s v_clis} (hM : MaskLe (2 ^ 41) M) (h : Fr M s0 s) : Fr M s0 { s with clis := v_clis } :=
  { h with
    clis := fun c => absurd (hM.bit c) (by decide +kernel) }
theorem fr_mk_clis_gmps {M s0 s v_clis v_gmps} (hM : MaskLe (2 ^ 41 ||| 2 ^ 42) M) (h : Fr M s0 s) : Fr M s0 { s with clis := v_clis, gmps := v_gmps } :=
  { h with
    clis := fun c => absurd (hM.bit c) (by decide +kernel)
    gmps := fun c => absurd (hM.bit c) (by decide +kernel) }
theorem fr_mk_coalKeys {M s0 s v_coalKeys} (hM : MaskLe (2 ^ 21) M) (h : Fr M s0 s) : Fr M s0 { s with coalKeys := v_coalKeys } :=
  { h with
    coalKeys := fun c => absurd (hM.bit c) (by decide +kernel) }
theorem fr_mk_col {M s0 s v_col} (hM : MaskLe (2 ^ 18) M) (h : Fr M s0 s) : Fr M s0 { s with col := v_col } :=
  { h with
    col := fun c => absurd (hM.bit c) (by decide +kernel) }
theorem fr_mk_coverAt {M s0 s v_coverAt} (hM : MaskLe (2 ^ 57) M) (h : Fr M s0 s) : Fr M s0 { s with coverAt := v_coverAt } :=
  { h with
    coverAt := fun c => absurd (hM.bit c) (by decide +kernel) }
theorem fr_mk_covers {M s0 s v_covers} (hM : MaskLe (2 ^ 58) M) (h : Fr M s0 s) : Fr M s0 { s with covers := v_covers } :=
  { h with
    covers := fun c => absurd (hM.bit c) (by decide +kernel) }
theorem fr_mk_csus {M s0 s v_csus} (hM : MaskLe (2 ^ 84) M) (h : Fr M s0 s) : Fr M s0 { s with csus := v_csus } :=
  { h with
    csus := fun c => absurd (hM.bit c) (by decide +kernel) }
theorem fr_mk_ctxs {M s0 s v_ctxs} (hM : MaskLe (2 ^ 37) M) (h : Fr M s0 s) : Fr M s0 { s with ctxs := v_ctxs } :=
  { h with
    ctxs := fun c => absurd (hM.bit c) (by decide +kernel) }
theorem fr_mk_cues {M s0 s v_cues} (hM : MaskLe (2 ^ 112) M) (h : Fr M s0 s) : Fr M s0 { s with cues := v_cues } :=
  { h with
    cues := fun c => absurd (hM.bit c) (by decide +kernel) }
theorem fr_mk_cues_cueTurn {M s0 s v_cues v_cueTurn} (hM : MaskLe (2 ^ 112 ||| 2 ^ 113) M) (h : Fr M s0 s) : Fr M s0 { s with cues := v_cues, cueTurn := v_cueTurn } :=
  { h with
    cues := fun c => absurd (hM.bit c) (by decide +kernel)
    cueTurn := fun c => absurd (hM.bit c) (by decide +kernel) }
theorem fr_mk_deferredIso {M s0 s v_deferredIso} (hM : MaskLe (2 ^ 28) M) (h : Fr M s0 s) : Fr M s0 { s with deferredIso := v_deferredIso } :=
  { h with
    deferredIso := fun c => absurd (hM.bit c) (by decide +kernel) }
theorem fr_mk_digDue {M s0 s v_digDue} (hM : MaskLe (2 ^ 111) M) (h : Fr M s0 s) : Fr M s0 { s with digDue := v_digDue } :=
  { h with
    digDue := fun c => absurd (hM.bit c) (by decide +kernel) }
theorem fr_mk_digs_digDue {M s0 s v_digs v_digDue} (hM : MaskLe (2 ^ 110 ||| 2 ^ 111) M) (h : Fr M s0 s) : Fr M s0 { s with digs := v_digs, digDue := v_digDue } :=
  { h with
    digs := fun c => absurd (hM.bit c) (by decide +kernel)
    digDue := fun c => absurd (hM.bit c) (by decide +kernel) }
theorem fr_mk_dirty {M s0 s v_dirty} (hM : MaskLe (2 ^ 12) M) (h : Fr M s0 s) : Fr M s0 { s with dirty := v_dirty } :=
  { h with
    dirty := fun c => absurd (hM.bit c) (by decide +kernel) }
theorem fr_mk_dom {M s0 s v_dom} (hM : MaskLe (2 ^ 102) M) (h : Fr M s0 s) : Fr M s0 { s with dom := v_dom } :=
  { h with
    dom := fun c => absurd (hM.bit c) (by decide +kernel) }
theorem fr_mk_door {M s0 s v_door} (hM : MaskLe (2 ^ 79) M) (h : Fr M s0 s) : Fr M s0 { s with door := v_door } :=
  { h with
    door := fun c => absurd (hM.bit c) (by decide +kernel) }
theorem fr_mk_dpCycle {M s0 s v_dpCycle} (hM : MaskLe (2 ^ 4) M) (h : Fr M s0 s) : Fr M s0 { s with dpCycle := v_dpCycle } :=
  { h with
    dpCycle := fun c => absurd (hM.bit c) (by decide +kernel) }
theorem fr_mk_enStart_kickAt {M s0 s v_enStart v_kickAt} (hM : MaskLe (2 ^ 99 ||| 2 ^ 100) M) (h : Fr M s0 s) : Fr M s0 { s with enStart := v_enStart, kickAt := v_kickAt } :=
  { h with
    enStart := fun c => absurd (hM.bit c) (by decide +kernel)
    kickAt := fun c => absurd (hM.bit c) (by decide +kernel) }
theorem fr_mk_epi {M s0 s v_epi} (hM : MaskLe (2 ^ 34) M) (h : Fr M s0 s) : Fr M s0 { s with epi := v_epi } :=
  { h with
    epi := fun c => absurd (hM.bit c) (by decide +kernel) }
theorem fr_mk_events {M s0 s v_events} (hM : MaskLe (2 ^ 13 ||| 2 ^ 400) M) (h : Fr M s0 s) : Fr M s0 { s with events := v_events } :=
  { h with
    events := fun c => absurd (hM.bit c) (by decide +kernel)
    kEvt := fun c => absurd (hM.bit c) (by decide +kernel) }
theorem fr_mk_fallQ {M s0 s v_fallQ} (hM : MaskLe (2 ^ 51) M) (h : Fr M s0 s) : Fr M s0 { s with fallQ := v_fallQ } :=
  { h with
    fallQ := fun c => absurd (hM.bit c) (by decide +kernel) }
theorem fr_mk_flowOuts {M s0 s v_flowOuts} (hM : MaskLe (2 ^ 47) M) (h : Fr M s0 s) : Fr M s0 { s with flowOuts := v_flowOuts } :=
  { h with
    flowOuts := fun c => absurd (hM.bit c) (by decide +kernel) }
theorem fr_mk_fltWin {M s0 s v_fltWin} (hM : MaskLe (2 ^ 17) M) (h : Fr M s0 s) : Fr M s0 { s with fltWin := v_fltWin } :=
  { h with
    fltWin := fun c => absurd (hM.bit c) (by decide +kernel) }
theorem fr_mk_fns {M s0 s v_fns} (hM : MaskLe (2 ^ 23) M) (h : Fr M s0 s) : Fr M s0 { s with fns := v_fns } :=
  { h with
    fns := fun c => absurd (hM.bit c) (by decide +kernel) }
theorem fr_mk_fns_msixTab {M s0 s v_fns v_msixTab} (hM : MaskLe (2 ^ 23 ||| 2 ^ 86) M) (h : Fr M s0 s) : Fr M s0 { s with fns := v_fns, msixTab := v_msixTab } :=
  { h with
    fns := fun c => absurd (hM.bit c) (by decide +kernel)
    msixTab := fun c => absurd (hM.bit c) (by decide +kernel) }
theorem fr_mk_freeCtr {M s0 s v_freeCtr} (hM : MaskLe (2 ^ 3 ||| 2 ^ 405) M) (h : Fr M s0 s) : Fr M s0 { s with freeCtr := v_freeCtr } :=
  { h with
    freeCtr := fun c => absurd (hM.bit c) (by decide +kernel)
    kFree := fun c => absurd (hM.bit c) (by decide +kernel) }
theorem fr_mk_fyls {M s0 s v_fyls} (hM : MaskLe (2 ^ 54) M) (h : Fr M s0 s) : Fr M s0 { s with fyls := v_fyls } :=
  { h with
    fyls := fun c => absurd (hM.bit c) (by decide +kernel) }
theorem fr_mk_gmps {M s0 s v_gmps} (hM : MaskLe (2 ^ 42) M) (h : Fr M s0 s) : Fr M s0 { s with gmps := v_gmps } :=
  { h with
    gmps := fun c => absurd (hM.bit c) (by decide +kernel) }
theorem fr_mk_grps {M s0 s v_grps} (hM : MaskLe (2 ^ 43) M) (h : Fr M s0 s) : Fr M s0 { s with grps := v_grps } :=
  { h with
    grps := fun c => absurd (hM.bit c) (by decide +kernel) }
theorem fr_mk_hbm {M s0 s v_hbm} (hM : MaskLe (2 ^ 50) M) (h : Fr M s0 s) : Fr M s0 { s with hbm := v_hbm } :=
  { h with
    hbm := fun c => absurd (hM.bit c) (by decide +kernel) }
theorem fr_mk_hbm_fallQ {M s0 s v_hbm v_fallQ} (hM : MaskLe (2 ^ 50 ||| 2 ^ 51) M) (h : Fr M s0 s) : Fr M s0 { s with hbm := v_hbm, fallQ := v_fallQ } :=
  { h with
    hbm := fun c => absurd (hM.bit c) (by decide +kernel)
    fallQ := fun c => absurd (hM.bit c) (by decide +kernel) }
theorem fr_mk_hst {M s0 s v_hst} (hM : MaskLe (2 ^ 87) M) (h : Fr M s0 s) : Fr M s0 { s with hst := v_hst } :=
  { h with
    hst := fun c => absurd (hM.bit c) (by decide +kernel) }
theorem fr_mk_hst_dom {M s0 s v_hst v_dom} (hM : MaskLe (2 ^ 87 ||| 2 ^ 102) M) (h : Fr M s0 s) : Fr M s0 { s with hst := v_hst, dom := v_dom } :=
  { h with
    hst := fun c => absurd (hM.bit c) (by decide +kernel)
    dom := fun c => absurd (hM.bit c) (by decide +kernel) }
theorem fr_mk_i2cPtr {M s0 s v_i2cPtr} (hM : MaskLe (2 ^ 108) M) (h : Fr M s0 s) : Fr M s0 { s with i2cPtr := v_i2cPtr } :=
  { h with
    i2cPtr := fun c => absurd (hM.bit c) (by decide +kernel) }
theorem fr_mk_inss {M s0 s v_inss} (hM : MaskLe (2 ^ 60) M) (h : Fr M s0 s) : Fr M s0 { s with inss := v_inss } :=
  { h with
    inss := fun c => absurd (hM.bit c) (by decide +kernel) }
theorem fr_mk_kickAt {M s0 s v_kickAt} (hM : MaskLe (2 ^ 100) M) (h : Fr M s0 s) : Fr M s0 { s with kickAt := v_kickAt } :=
  { h with
    kickAt := fun c => absurd (hM.bit c) (by decide +kernel) }
theorem fr_mk_lanes {M s0 s v_lanes} (hM : MaskLe (2 ^ 32) M) (h : Fr M s0 s) : Fr M s0 { s with lanes := v_lanes } :=
  { h with
    lanes := fun c => absurd (hM.bit c) (by decide +kernel) }
theorem fr_mk_life {M s0 s v_life} (hM : MaskLe (2 ^ 107) M) (h : Fr M s0 s) : Fr M s0 { s with life := v_life } :=
  { h with
    life := fun c => absurd (hM.bit c) (by decide +kernel) }
theorem fr_mk_live {M s0 s v_live} (hM : MaskLe (2 ^ 31) M) (h : Fr M s0 s) : Fr M s0 { s with live := v_live } :=
  { h with
    live := fun c => absurd (hM.bit c) (by decide +kernel) }
theorem fr_mk_logHeld {M s0 s v_logHeld} (hM : MaskLe (2 ^ 20) M) (h : Fr M s0 s) : Fr M s0 { s with logHeld := v_logHeld } :=
  { h with
    logHeld := fun c => absurd (hM.bit c) (by decide +kernel) }
theorem fr_mk_logQ {M s0 s v_logQ} (hM : MaskLe (2 ^ 19 ||| 2 ^ 402) M) (h : Fr M s0 s) : Fr M s0 { s with logQ := v_logQ } :=
  { h with
    logQ := fun c => absurd (hM.bit c) (by decide +kernel)
    kLog := fun c => absurd (hM.bit c) (by decide +kernel) }
theorem fr_mk_logQ_logHeld {M s0 s v_logQ v_logHeld} (hM : MaskLe (2 ^ 19 ||| 2 ^ 20 ||| 2 ^ 402) M) (h : Fr M s0 s) : Fr M s0 { s with logQ := v_logQ, logHeld := v_logHeld } :=
  { h with
    logQ := fun c => absurd (hM.bit c) (by decide +kernel)
    logHeld := fun c => absurd (hM.bit c) (by decide +kernel)
    kLog := fun c => absurd (hM.bit c) (by decide +kernel) }
theorem fr_mk_logQ_skips {M s0 s v_logQ v_skips} (hM : MaskLe (2 ^ 19 ||| 2 ^ 22 ||| 2 ^ 402) M) (h : Fr M s0 s) : Fr M s0 { s with logQ := v_logQ, skips := v_skips } :=
  { h with
    logQ := fun c => absurd (hM.bit c) (by decide +kernel)
    skips := fun c => absurd (hM.bit c) (by decide +kernel)
    kLog := fun c => absurd (hM.bit c) (by decide +kernel) }
theorem fr_mk_mbWho {M s0 s v_mbWho} (hM : MaskLe (2 ^ 101) M) (h : Fr M s0 s) : Fr M s0 { s with mbWho := v_mbWho } :=
  { h with
    mbWho := fun c => absurd (hM.bit c) (by decide +kernel) }
theorem fr_mk_mem {M s0 s v_mem} (hM : MaskLe (2 ^ 15 ||| 2 ^ 404) M) (h : Fr M s0 s) : Fr M s0 { s with mem := v_mem } :=
  { h with
    mem := fun c => absurd (hM.bit c) (by decide +kernel)
    kMem := fun c => absurd (hM.bit c) (by decide +kernel) }
theorem fr_mk_mem_wgrps_slotQ_hbm {M s0 s v_mem v_wgrps v_slotQ v_hbm} (hM : MaskLe (2 ^ 15 ||| 2 ^ 48 ||| 2 ^ 49 ||| 2 ^ 50 ||| 2 ^ 404) M) (h : Fr M s0 s) : Fr M s0 { s with mem := v_mem, wgrps := v_wgrps, slotQ := v_slotQ, hbm := v_hbm } :=
  { h with
    mem := fun c => absurd (hM.bit c) (by decide +kernel)
    wgrps := fun c => absurd (hM.bit c) (by decide +kernel)
    slotQ := fun c => absurd (hM.bit c) (by decide +kernel)
    hbm := fun c => absurd (hM.bit c) (by decide +kernel)
    kMem := fun c => absurd (hM.bit c) (by decide +kernel) }
theorem fr_mk_modeCmd {M s0 s v_modeCmd} (hM : MaskLe (2 ^ 27) M) (h : Fr M s0 s) : Fr M s0 { s with modeCmd := v_modeCmd } :=
  { h with
    modeCmd := fun c => absurd (hM.bit c) (by decide +kernel) }
theorem fr_mk_msixTab {M s0 s v_msixTab} (hM : MaskLe (2 ^ 86) M) (h : Fr M s0 s) : Fr M s0 { s with msixTab := v_msixTab } :=
  { h with
    msixTab := fun c => absurd (hM.bit c) (by decide +kernel) }
theorem fr_mk_nextPc {M s0 s v_nextPc} (hM : MaskLe (2 ^ 52) M) (h : Fr M s0 s) : Fr M s0 { s with nextPc := v_nextPc } :=
  { h with
    nextPc := fun c => absurd (hM.bit c) (by decide +kernel) }
theorem fr_mk_notices {M s0 s v_notices} (hM : MaskLe (2 ^ 26) M) (h : Fr M s0 s) : Fr M s0 { s with notices := v_notices } :=
  { h with
    notices := fun c => absurd (hM.bit c) (by decide +kernel) }
theorem fr_mk_numVfs {M s0 s v_numVfs} (hM : MaskLe (2 ^ 24) M) (h : Fr M s0 s) : Fr M s0 { s with numVfs := v_numVfs } :=
  { h with
    numVfs := fun c => absurd (hM.bit c) (by decide +kernel) }
theorem fr_mk_out {M s0 s v_out} (hM : MaskLe (2 ^ 1) M) (h : Fr M s0 s) : Fr M s0 { s with out := v_out } :=
  { h with
    out := fun c => absurd (hM.bit c) (by decide +kernel) }
theorem fr_mk_out_reply {M s0 s v_out v_reply} (hM : MaskLe (2 ^ 1 ||| 2 ^ 2) M) (h : Fr M s0 s) : Fr M s0 { s with out := v_out, reply := v_reply } :=
  { h with
    out := fun c => absurd (hM.bit c) (by decide +kernel)
    reply := fun c => absurd (hM.bit c) (by decide +kernel) }
theorem fr_mk_persReset {M s0 s v_persReset} (hM : MaskLe (2 ^ 122) M) (h : Fr M s0 s) : Fr M s0 { s with persReset := v_persReset } :=
  { h with
    persReset := fun c => absurd (hM.bit c) (by decide +kernel) }
theorem fr_mk_plb {M s0 s v_plb} (hM : MaskLe (2 ^ 109) M) (h : Fr M s0 s) : Fr M s0 { s with plb := v_plb } :=
  { h with
    plb := fun c => absurd (hM.bit c) (by decide +kernel) }
theorem fr_mk_pmBins_pmBase_pmLastBin_pmMissing {M s0 s v_pmBins v_pmBase v_pmLastBin v_pmMissing} (hM : MaskLe (2 ^ 114 ||| 2 ^ 115 ||| 2 ^ 116 ||| 2 ^ 117) M) (h : Fr M s0 s) : Fr M s0 { s with pmBins := v_pmBins, pmBase := v_pmBase, pmLastBin := v_pmLastBin, pmMissing := v_pmMissing } :=
  { h with
    pmBins := fun c => absurd (hM.bit c) (by decide +kernel)
    pmBase := fun c => absurd (hM.bit c) (by decide +kernel)
    pmLastBin := fun c => absurd (hM.bit c) (by decide +kernel)
    pmMissing := fun c => absurd (hM.bit c) (by decide +kernel) }
theorem fr_mk_pmPend {M s0 s v_pmPend} (hM : MaskLe (2 ^ 39) M) (h : Fr M s0 s) : Fr M s0 { s with pmPend := v_pmPend } :=
  { h with
    pmPend := fun c => absurd (hM.bit c) (by decide +kernel) }
theorem fr_mk_pmThr {M s0 s v_pmThr} (hM : MaskLe (2 ^ 118) M) (h : Fr M s0 s) : Fr M s0 { s with pmThr := v_pmThr } :=
  { h with
    pmThr := fun c => absurd (hM.bit c) (by decide +kernel) }
theorem fr_mk_points {M s0 s v_points} (hM : MaskLe (2 ^ 36) M) (h : Fr M s0 s) : Fr M s0 { s with points := v_points } :=
  { h with
    points := fun c => absurd (hM.bit c) (by decide +kernel) }
theorem fr_mk_pps {M s0 s v_pps} (hM : MaskLe (2 ^ 81) M) (h : Fr M s0 s) : Fr M s0 { s with pps := v_pps } :=
  { h with
    pps := fun c => absurd (hM.bit c) (by decide +kernel) }
theorem fr_mk_ppsOutLast {M s0 s v_ppsOutLast} (hM : MaskLe (2 ^ 83) M) (h : Fr M s0 s) : Fr M s0 { s with ppsOutLast := v_ppsOutLast } :=
  { h with
    ppsOutLast := fun c => absurd (hM.bit c) (by decide +kernel) }
theorem fr_mk_prbs {M s0 s v_prbs} (hM : MaskLe (2 ^ 33) M) (h : Fr M s0 s) : Fr M s0 { s with prbs := v_prbs } :=
  { h with
    prbs := fun c => absurd (hM.bit c) (by decide +kernel) }
theorem fr_mk_prtQ {M s0 s v_prtQ} (hM : MaskLe (2 ^ 45) M) (h : Fr M s0 s) : Fr M s0 { s with prtQ := v_prtQ } :=
  { h with
    prtQ := fun c => absurd (hM.bit c) (by decide +kernel) }
theorem fr_mk_push {M s0 s v_push} (hM : MaskLe (2 ^ 93) M) (h : Fr M s0 s) : Fr M s0 { s with push := v_push } :=
  { h with
    push := fun c => absurd (hM.bit c) (by decide +kernel) }
theorem fr_mk_rbSteps {M s0 s v_rbSteps} (hM : MaskLe (2 ^ 94 ||| 2 ^ 401) M) (h : Fr M s0 s) : Fr M s0 { s with rbSteps := v_rbSteps } :=
  { h with
    rbSteps := fun c => absurd (hM.bit c) (by decide +kernel)
    kFuse := fun c => absurd (hM.bit c) (by decide +kernel) }
theorem fr_mk_regs {M s0 s v_regs} (hM : MaskLe (allRegs) M) (h : Fr M s0 s) : Fr M s0 { s with regs := v_regs } :=
  { h with
    regs := fun d k c => absurd (hM.bit c) (coarse_r (by decide +kernel) _) }
theorem fr_mk_regs_regsB_regsC {M s0 s v_regs v_regsB v_regsC} (hM : MaskLe (allRegs ||| allRegs ||| allRegs) M) (h : Fr M s0 s) : Fr M s0 { s with regs := v_regs, regsB := v_regsB, regsC := v_regsC } :=
  { h with
    regs := fun d k c => absurd (hM.bit c) (coarse_r (by decide +kernel) _)
    regsB := fun d k c => absurd (hM.bit c) (coarse_r (by decide +kernel) _)
    regsC := fun d k c => absurd (hM.bit c) (coarse_r (by decide +kernel) _) }
theorem fr_mk_regs_regsB_regsC_tabs_tabsB_tabsC_dom {M s0 s v_regs v_regsB v_regsC v_tabs v_tabsB v_tabsC v_dom} (hM : MaskLe (allRegs ||| allRegs ||| allRegs ||| allTabs ||| allTabs ||| allTabs ||| 2 ^ 102) M) (h : Fr M s0 s) : Fr M s0 { s with regs := v_regs, regsB := v_regsB, regsC := v_regsC, tabs := v_tabs, tabsB := v_tabsB, tabsC := v_tabsC, dom := v_dom } :=
  { h with
    regs := fun d k c => absurd (hM.bit c) (coarse_r (by decide +kernel) _)
    regsB := fun d k c => absurd (hM.bit c) (coarse_r (by decide +kernel) _)
    regsC := fun d k c => absurd (hM.bit c) (coarse_r (by decide +kernel) _)
    tabs := fun d k c => absurd (hM.bit c) (coarse_t (by decide +kernel) _)
    tabsB := fun d k c => absurd (hM.bit c) (coarse_t (by decide +kernel) _)
    tabsC := fun d k c => absurd (hM.bit c) (coarse_t (by decide +kernel) _)
    dom := fun c => absurd (hM.bit c) (by decide +kernel) }
theorem fr_mk_regs_regsB_regsC_tabs_tabsB_tabsC_events {M s0 s v_regs v_regsB v_regsC v_tabs v_tabsB v_tabsC v_events} (hM : MaskLe (allRegs ||| allRegs ||| allRegs ||| allTabs ||| allTabs ||| allTabs ||| 2 ^ 13 ||| 2 ^ 400) M) (h : Fr M s0 s) : Fr M s0 { s with regs := v_regs, regsB := v_regsB, regsC := v_regsC, tabs := v_tabs, tabsB := v_tabsB, tabsC := v_tabsC, events := v_events } :=
  { h with
    regs := fun d k c => absurd (hM.bit c) (coarse_r (by decide +kernel) _)
    regsB := fun d k c => absurd (hM.bit c) (coarse_r (by decide +kernel) _)
    regsC := fun d k c => absurd (hM.bit c) (coarse_r (by decide +kernel) _)
    tabs := fun d k c => absurd (hM.bit c) (coarse_t (by decide +kernel) _)
    tabsB := fun d k c => absurd (hM.bit c) (coarse_t (by decide +kernel) _)
    tabsC := fun d k c => absurd (hM.bit c) (coarse_t (by decide +kernel) _)
    events := fun c => absurd (hM.bit c) (by decide +kernel)
    kEvt := fun c => absurd (hM.bit c) (by decide +kernel) }
theorem fr_mk_regsB {M s0 s v_regsB} (hM : MaskLe (allRegs) M) (h : Fr M s0 s) : Fr M s0 { s with regsB := v_regsB } :=
  { h with
    regsB := fun d k c => absurd (hM.bit c) (coarse_r (by decide +kernel) _) }
theorem fr_mk_regsC {M s0 s v_regsC} (hM : MaskLe (allRegs) M) (h : Fr M s0 s) : Fr M s0 { s with regsC := v_regsC } :=
  { h with
    regsC := fun d k c => absurd (hM.bit c) (coarse_r (by decide +kernel) _) }
theorem fr_mk_reply {M s0 s v_reply} (hM : MaskLe (2 ^ 2) M) (h : Fr M s0 s) : Fr M s0 { s with reply := v_reply } :=
  { h with
    reply := fun c => absurd (hM.bit c) (by decide +kernel) }
theorem fr_mk_reqQ {M s0 s v_reqQ} (hM : MaskLe (2 ^ 89) M) (h : Fr M s0 s) : Fr M s0 { s with reqQ := v_reqQ } :=
  { h with
    reqQ := fun c => absurd (hM.bit c) (by decide +kernel) }
theorem fr_mk_revoked {M s0 s v_revoked} (hM : MaskLe (2 ^ 95 ||| 2 ^ 401) M) (h : Fr M s0 s) : Fr M s0 { s with revoked := v_revoked } :=
  { h with
    revoked := fun c => absurd (hM.bit c) (by decide +kernel)
    kFuse := fun c => absurd (hM.bit c) (by decide +kernel) }
theorem fr_mk_rights {M s0 s v_rights} (hM : MaskLe (2 ^ 96) M) (h : Fr M s0 s) : Fr M s0 { s with rights := v_rights } :=
  { h with
    rights := fun c => absurd (hM.bit c) (by decide +kernel) }
theorem fr_mk_rxFailTurn {M s0 s v_rxFailTurn} (hM : MaskLe (2 ^ 56) M) (h : Fr M s0 s) : Fr M s0 { s with rxFailTurn := v_rxFailTurn } :=
  { h with
    rxFailTurn := fun c => absurd (hM.bit c) (by decide +kernel) }
theorem fr_mk_sdpBad {M s0 s v_sdpBad} (hM : MaskLe (2 ^ 121) M) (h : Fr M s0 s) : Fr M s0 { s with sdpBad := v_sdpBad } :=
  { h with
    sdpBad := fun c => absurd (hM.bit c) (by decide +kernel) }
theorem fr_mk_sdpCur {M s0 s v_sdpCur} (hM : MaskLe (2 ^ 64) M) (h : Fr M s0 s) : Fr M s0 { s with sdpCur := v_sdpCur } :=
  { h with
    sdpCur := fun c => absurd (hM.bit c) (by decide +kernel) }
theorem fr_mk_sdpQuanta {M s0 s v_sdpQuanta} (hM : MaskLe (2 ^ 71) M) (h : Fr M s0 s) : Fr M s0 { s with sdpQuanta := v_sdpQuanta } :=
  { h with
    sdpQuanta := fun c => absurd (hM.bit c) (by decide +kernel) }
theorem fr_mk_sdpRows_sdpSpeed {M s0 s v_sdpRows v_sdpSpeed} (hM : MaskLe (2 ^ 69 ||| 2 ^ 70) M) (h : Fr M s0 s) : Fr M s0 { s with sdpRows := v_sdpRows, sdpSpeed := v_sdpSpeed } :=
  { h with
    sdpRows := fun c => absurd (hM.bit c) (by decide +kernel)
    sdpSpeed := fun c => absurd (hM.bit c) (by decide +kernel) }
theorem fr_mk_sdpRx0 {M s0 s v_sdpRx0} (hM : MaskLe (2 ^ 62) M) (h : Fr M s0 s) : Fr M s0 { s with sdpRx0 := v_sdpRx0 } :=
  { h with
    sdpRx0 := fun c => absurd (hM.bit c) (by decide +kernel) }
theorem fr_mk_sdpRx1 {M s0 s v_sdpRx1} (hM : MaskLe (2 ^ 63) M) (h : Fr M s0 s) : Fr M s0 { s with sdpRx1 := v_sdpRx1 } :=
  { h with
    sdpRx1 := fun c => absurd (hM.bit c) (by decide +kernel) }
theorem fr_mk_sdpTx {M s0 s v_sdpTx} (hM : MaskLe (2 ^ 65) M) (h : Fr M s0 s) : Fr M s0 { s with sdpTx := v_sdpTx } :=
  { h with
    sdpTx := fun c => absurd (hM.bit c) (by decide +kernel) }
theorem fr_mk_sdpWr {M s0 s v_sdpWr} (hM : MaskLe (2 ^ 66) M) (h : Fr M s0 s) : Fr M s0 { s with sdpWr := v_sdpWr } :=
  { h with
    sdpWr := fun c => absurd (hM.bit c) (by decide +kernel) }
theorem fr_mk_sdpWr_sdpLast_sdpStarts {M s0 s v_sdpWr v_sdpLast v_sdpStarts} (hM : MaskLe (2 ^ 66 ||| 2 ^ 67 ||| 2 ^ 68) M) (h : Fr M s0 s) : Fr M s0 { s with sdpWr := v_sdpWr, sdpLast := v_sdpLast, sdpStarts := v_sdpStarts } :=
  { h with
    sdpWr := fun c => absurd (hM.bit c) (by decide +kernel)
    sdpLast := fun c => absurd (hM.bit c) (by decide +kernel)
    sdpStarts := fun c => absurd (hM.bit c) (by decide +kernel) }
theorem fr_mk_secCount_tbStepped {M s0 s v_secCount v_tbStepped} (hM : MaskLe (2 ^ 38 ||| 2 ^ 40) M) (h : Fr M s0 s) : Fr M s0 { s with secCount := v_secCount, tbStepped := v_tbStepped } :=
  { h with
    secCount := fun c => absurd (hM.bit c) (by decide +kernel)
    tbStepped := fun c => absurd (hM.bit c) (by decide +kernel) }
theorem fr_mk_sfpOverwrite {M s0 s v_sfpOverwrite} (hM : MaskLe (2 ^ 46) M) (h : Fr M s0 s) : Fr M s0 { s with sfpOverwrite := v_sfpOverwrite } :=
  { h with
    sfpOverwrite := fun c => absurd (hM.bit c) (by decide +kernel) }
theorem fr_mk_skips {M s0 s v_skips} (hM : MaskLe (2 ^ 22) M) (h : Fr M s0 s) : Fr M s0 { s with skips := v_skips } :=
  { h with
    skips := fun c => absurd (hM.bit c) (by decide +kernel) }
theorem fr_mk_slices {M s0 s v_slices} (hM : MaskLe (2 ^ 35) M) (h : Fr M s0 s) : Fr M s0 { s with slices := v_slices } :=
  { h with
    slices := fun c => absurd (hM.bit c) (by decide +kernel) }
theorem fr_mk_slotA {M s0 s v_slotA} (hM : MaskLe (2 ^ 91) M) (h : Fr M s0 s) : Fr M s0 { s with slotA := v_slotA } :=
  { h with
    slotA := fun c => absurd (hM.bit c) (by decide +kernel) }
theorem fr_mk_slotA_slotB {M s0 s v_slotA v_slotB} (hM : MaskLe (2 ^ 91 ||| 2 ^ 92) M) (h : Fr M s0 s) : Fr M s0 { s with slotA := v_slotA, slotB := v_slotB } :=
  { h with
    slotA := fun c => absurd (hM.bit c) (by decide +kernel)
    slotB := fun c => absurd (hM.bit c) (by decide +kernel) }
theorem fr_mk_slotB {M s0 s v_slotB} (hM : MaskLe (2 ^ 92) M) (h : Fr M s0 s) : Fr M s0 { s with slotB := v_slotB } :=
  { h with
    slotB := fun c => absurd (hM.bit c) (by decide +kernel) }
theorem fr_mk_slotQ {M s0 s v_slotQ} (hM : MaskLe (2 ^ 49) M) (h : Fr M s0 s) : Fr M s0 { s with slotQ := v_slotQ } :=
  { h with
    slotQ := fun c => absurd (hM.bit c) (by decide +kernel) }
theorem fr_mk_slots {M s0 s v_slots} (hM : MaskLe (2 ^ 16) M) (h : Fr M s0 s) : Fr M s0 { s with slots := v_slots } :=
  { h with
    slots := fun c => absurd (hM.bit c) (by decide +kernel) }
theorem fr_mk_smHeld {M s0 s v_smHeld} (hM : MaskLe (2 ^ 88) M) (h : Fr M s0 s) : Fr M s0 { s with smHeld := v_smHeld } :=
  { h with
    smHeld := fun c => absurd (hM.bit c) (by decide +kernel) }
theorem fr_mk_smHeld_reqQ {M s0 s v_smHeld v_reqQ} (hM : MaskLe (2 ^ 88 ||| 2 ^ 89) M) (h : Fr M s0 s) : Fr M s0 { s with smHeld := v_smHeld, reqQ := v_reqQ } :=
  { h with
    smHeld := fun c => absurd (hM.bit c) (by decide +kernel)
    reqQ := fun c => absurd (hM.bit c) (by decide +kernel) }
theorem fr_mk_smImg {M s0 s v_smImg} (hM : MaskLe (2 ^ 90) M) (h : Fr M s0 s) : Fr M s0 { s with smImg := v_smImg } :=
  { h with
    smImg := fun c => absurd (hM.bit c) (by decide +kernel) }
theorem fr_mk_staged {M s0 s v_staged} (hM : MaskLe (2 ^ 11) M) (h : Fr M s0 s) : Fr M s0 { s with staged := v_staged } :=
  { h with
    staged := fun c => absurd (hM.bit c) (by decide +kernel) }
theorem fr_mk_staged_dirty {M s0 s v_staged v_dirty} (hM : MaskLe (2 ^ 11 ||| 2 ^ 12) M) (h : Fr M s0 s) : Fr M s0 { s with staged := v_staged, dirty := v_dirty } :=
  { h with
    staged := fun c => absurd (hM.bit c) (by decide +kernel)
    dirty := fun c => absurd (hM.bit c) (by decide +kernel) }
theorem fr_mk_supplyOff {M s0 s v_supplyOff} (hM : MaskLe (2 ^ 104) M) (h : Fr M s0 s) : Fr M s0 { s with supplyOff := v_supplyOff } :=
  { h with
    supplyOff := fun c => absurd (hM.bit c) (by decide +kernel) }
theorem fr_mk_tabs {M s0 s v_tabs} (hM : MaskLe (allTabs) M) (h : Fr M s0 s) : Fr M s0 { s with tabs := v_tabs } :=
  { h with
    tabs := fun d k c => absurd (hM.bit c) (coarse_t (by decide +kernel) _) }
theorem fr_mk_tabs_dirty_devGen_cues {M s0 s v_tabs v_dirty v_devGen v_cues} (hM : MaskLe (allTabs ||| 2 ^ 12 ||| 2 ^ 14 ||| 2 ^ 112) M) (h : Fr M s0 s) : Fr M s0 { s with tabs := v_tabs, dirty := v_dirty, devGen := v_devGen, cues := v_cues } :=
  { h with
    tabs := fun d k c => absurd (hM.bit c) (coarse_t (by decide +kernel) _)
    dirty := fun c => absurd (hM.bit c) (by decide +kernel)
    devGen := fun c => absurd (hM.bit c) (by decide +kernel)
    cues := fun c => absurd (hM.bit c) (by decide +kernel) }
theorem fr_mk_tabs_tabsB_tabsC {M s0 s v_tabs v_tabsB v_tabsC} (hM : MaskLe (allTabs ||| allTabs ||| allTabs) M) (h : Fr M s0 s) : Fr M s0 { s with tabs := v_tabs, tabsB := v_tabsB, tabsC := v_tabsC } :=
  { h with
    tabs := fun d k c => absurd (hM.bit c) (coarse_t (by decide +kernel) _)
    tabsB := fun d k c => absurd (hM.bit c) (coarse_t (by decide +kernel) _)
    tabsC := fun d k c => absurd (hM.bit c) (coarse_t (by decide +kernel) _) }
theorem fr_mk_tabsB {M s0 s v_tabsB} (hM : MaskLe (allTabs) M) (h : Fr M s0 s) : Fr M s0 { s with tabsB := v_tabsB } :=
  { h with
    tabsB := fun d k c => absurd (hM.bit c) (coarse_t (by decide +kernel) _) }
theorem fr_mk_tabsC {M s0 s v_tabsC} (hM : MaskLe (allTabs) M) (h : Fr M s0 s) : Fr M s0 { s with tabsC := v_tabsC } :=
  { h with
    tabsC := fun d k c => absurd (hM.bit c) (coarse_t (by decide +kernel) _) }
theorem fr_mk_tb {M s0 s v_tb} (hM : MaskLe (2 ^ 29 ||| 2 ^ 403) M) (h : Fr M s0 s) : Fr M s0 { s with tb := v_tb } :=
  { h with
    tb := fun c => absurd (hM.bit c) (by decide +kernel)
    kTb := fun c => absurd (hM.bit c) (by decide +kernel) }
theorem fr_mk_tbStepped {M s0 s v_tbStepped} (hM : MaskLe (2 ^ 40) M) (h : Fr M s0 s) : Fr M s0 { s with tbStepped := v_tbStepped } :=
  { h with
    tbStepped := fun c => absurd (hM.bit c) (by decide +kernel) }
theorem fr_mk_tca {M s0 s v_tca} (hM : MaskLe (2 ^ 119) M) (h : Fr M s0 s) : Fr M s0 { s with tca := v_tca } :=
  { h with
    tca := fun c => absurd (hM.bit c) (by decide +kernel) }
theorem fr_mk_thermHot {M s0 s v_thermHot} (hM : MaskLe (2 ^ 106) M) (h : Fr M s0 s) : Fr M s0 { s with thermHot := v_thermHot } :=
  { h with
    thermHot := fun c => absurd (hM.bit c) (by decide +kernel) }
theorem fr_mk_thermOff {M s0 s v_thermOff} (hM : MaskLe (2 ^ 105) M) (h : Fr M s0 s) : Fr M s0 { s with thermOff := v_thermOff } :=
  { h with
    thermOff := fun c => absurd (hM.bit c) (by decide +kernel) }
theorem fr_mk_tim {M s0 s v_tim} (hM : MaskLe (2 ^ 82) M) (h : Fr M s0 s) : Fr M s0 { s with tim := v_tim } :=
  { h with
    tim := fun c => absurd (hM.bit c) (by decide +kernel) }
theorem fr_mk_tsLog {M s0 s v_tsLog} (hM : MaskLe (2 ^ 80) M) (h : Fr M s0 s) : Fr M s0 { s with tsLog := v_tsLog } :=
  { h with
    tsLog := fun c => absurd (hM.bit c) (by decide +kernel) }
theorem fr_mk_txFlows {M s0 s v_txFlows} (hM : MaskLe (2 ^ 55) M) (h : Fr M s0 s) : Fr M s0 { s with txFlows := v_txFlows } :=
  { h with
    txFlows := fun c => absurd (hM.bit c) (by decide +kernel) }
theorem fr_mk_upd {M s0 s v_upd} (hM : MaskLe (2 ^ 85) M) (h : Fr M s0 s) : Fr M s0 { s with upd := v_upd } :=
  { h with
    upd := fun c => absurd (hM.bit c) (by decide +kernel) }
theorem fr_mk_vecs {M s0 s v_vecs} (hM : MaskLe (2 ^ 25) M) (h : Fr M s0 s) : Fr M s0 { s with vecs := v_vecs } :=
  { h with
    vecs := fun c => absurd (hM.bit c) (by decide +kernel) }
theorem fr_mk_wdogTimes {M s0 s v_wdogTimes} (hM : MaskLe (2 ^ 98) M) (h : Fr M s0 s) : Fr M s0 { s with wdogTimes := v_wdogTimes } :=
  { h with
    wdogTimes := fun c => absurd (hM.bit c) (by decide +kernel) }
theorem fr_mk_wgrps {M s0 s v_wgrps} (hM : MaskLe (2 ^ 48) M) (h : Fr M s0 s) : Fr M s0 { s with wgrps := v_wgrps } :=
  { h with
    wgrps := fun c => absurd (hM.bit c) (by decide +kernel) }
/-- Every field of the family IND_DATA_data. -/
def mAll_IND_DATA_data : Nat := (List.range 4).foldl (fun a k => a ||| mFld (IND_DATA_data k)) 0
theorem IND_DATA_data_mem (k : Nat) : MaskLe (mFld (IND_DATA_data k)) mAll_IND_DATA_data := by
  have h : ∀ j < 4, MaskLe (mFld (IND_DATA_data j)) mAll_IND_DATA_data := by decide +kernel
  have e : IND_DATA_data k = IND_DATA_data (k % 4) := by simp only [ IND_DATA_data, Nat.mod_mod]
  rw [e]; exact h _ (Nat.mod_lt _ (by decide))
/-- Every field of the family RGN_CUE_GEN_gen. -/
def mAll_RGN_CUE_GEN_gen : Nat := (List.range 8).foldl (fun a k => a ||| mFld (RGN_CUE_GEN_gen k)) 0
theorem RGN_CUE_GEN_gen_mem (k : Nat) : MaskLe (mFld (RGN_CUE_GEN_gen k)) mAll_RGN_CUE_GEN_gen := by
  have h : ∀ j < 8, MaskLe (mFld (RGN_CUE_GEN_gen j)) mAll_RGN_CUE_GEN_gen := by decide +kernel
  have e : RGN_CUE_GEN_gen k = RGN_CUE_GEN_gen (k % 8) := by simp only [ RGN_CUE_GEN_gen, Nat.mod_mod]
  rw [e]; exact h _ (Nat.mod_lt _ (by decide))
/-- Every field of the family LLN_TRIAL_CNT_count. -/
def mAll_LLN_TRIAL_CNT_count : Nat := (List.range 5).foldl (fun a k => a ||| mFld (LLN_TRIAL_CNT_count k)) 0
theorem LLN_TRIAL_CNT_count_mem (k : Nat) : MaskLe (mFld (LLN_TRIAL_CNT_count k)) mAll_LLN_TRIAL_CNT_count := by
  have h : ∀ j < 5, MaskLe (mFld (LLN_TRIAL_CNT_count j)) mAll_LLN_TRIAL_CNT_count := by decide +kernel
  have e : LLN_TRIAL_CNT_count k = LLN_TRIAL_CNT_count (k % 5) := by simp only [ LLN_TRIAL_CNT_count, Nat.mod_mod]
  rw [e]; exact h _ (Nat.mod_lt _ (by decide))
/-- Every field of the family FEC_HIST. -/
def mAll_FEC_HIST : Nat := (List.range 16).foldl (fun a k => a ||| mFld (FEC_HIST k)) 0
theorem FEC_HIST_mem (k : Nat) : MaskLe (mFld (FEC_HIST k)) mAll_FEC_HIST := by
  have h : ∀ j < 16, MaskLe (mFld (FEC_HIST j)) mAll_FEC_HIST := by decide +kernel
  have e : FEC_HIST k = FEC_HIST (k % 16) := by simp only [ FEC_HIST, Nat.mod_mod]
  rw [e]; exact h _ (Nat.mod_lt _ (by decide))
/-- Every field of the family FYL_TX_EQ_tx_inv. -/
def mAll_FYL_TX_EQ_tx_inv : Nat := (List.range 8).foldl (fun a k => a ||| mFld (FYL_TX_EQ_tx_inv k)) 0
theorem FYL_TX_EQ_tx_inv_mem (k : Nat) : MaskLe (mFld (FYL_TX_EQ_tx_inv k)) mAll_FYL_TX_EQ_tx_inv := by
  have h : ∀ j < 8, MaskLe (mFld (FYL_TX_EQ_tx_inv j)) mAll_FYL_TX_EQ_tx_inv := by decide +kernel
  have e : FYL_TX_EQ_tx_inv k = FYL_TX_EQ_tx_inv (k % 8) := by simp only [ FYL_TX_EQ_tx_inv, Nat.mod_mod]
  rw [e]; exact h _ (Nat.mod_lt _ (by decide))
/-- Every field of the family FYL_TX_EQ_swing. -/
def mAll_FYL_TX_EQ_swing : Nat := (List.range 8).foldl (fun a k => a ||| mFld (FYL_TX_EQ_swing k)) 0
theorem FYL_TX_EQ_swing_mem (k : Nat) : MaskLe (mFld (FYL_TX_EQ_swing k)) mAll_FYL_TX_EQ_swing := by
  have h : ∀ j < 8, MaskLe (mFld (FYL_TX_EQ_swing j)) mAll_FYL_TX_EQ_swing := by decide +kernel
  have e : FYL_TX_EQ_swing k = FYL_TX_EQ_swing (k % 8) := by simp only [ FYL_TX_EQ_swing, Nat.mod_mod]
  rw [e]; exact h _ (Nat.mod_lt _ (by decide))
/-- Every field of the family FYL_TX_EQ_c_p1. -/
def mAll_FYL_TX_EQ_c_p1 : Nat := (List.range 8).foldl (fun a k => a ||| mFld (FYL_TX_EQ_c_p1 k)) 0
theorem FYL_TX_EQ_c_p1_mem (k : Nat) : MaskLe (mFld (FYL_TX_EQ_c_p1 k)) mAll_FYL_TX_EQ_c_p1 := by
  have h : ∀ j < 8, MaskLe (mFld (FYL_TX_EQ_c_p1 j)) mAll_FYL_TX_EQ_c_p1 := by decide +kernel
  have e : FYL_TX_EQ_c_p1 k = FYL_TX_EQ_c_p1 (k % 8) := by simp only [ FYL_TX_EQ_c_p1, Nat.mod_mod]
  rw [e]; exact h _ (Nat.mod_lt _ (by decide))
/-- Every field of the family FYL_TX_EQ_c_m1. -/
def mAll_FYL_TX_EQ_c_m1 : Nat := (List.range 8).foldl (fun a k => a ||| mFld (FYL_TX_EQ_c_m1 k)) 0
theorem FYL_TX_EQ_c_m1_mem (k : Nat) : MaskLe (mFld (FYL_TX_EQ_c_m1 k)) mAll_FYL_TX_EQ_c_m1 := by
  have h : ∀ j < 8, MaskLe (mFld (FYL_TX_EQ_c_m1 j)) mAll_FYL_TX_EQ_c_m1 := by decide +kernel
  have e : FYL_TX_EQ_c_m1 k = FYL_TX_EQ_c_m1 (k % 8) := by simp only [ FYL_TX_EQ_c_m1, Nat.mod_mod]
  rw [e]; exact h _ (Nat.mod_lt _ (by decide))
/-- Every field of the family FYL_PRBS_ERR. -/
def mAll_FYL_PRBS_ERR : Nat := (List.range 8).foldl (fun a k => a ||| mFld (FYL_PRBS_ERR k)) 0
theorem FYL_PRBS_ERR_mem (k : Nat) : MaskLe (mFld (FYL_PRBS_ERR k)) mAll_FYL_PRBS_ERR := by
  have h : ∀ j < 8, MaskLe (mFld (FYL_PRBS_ERR j)) mAll_FYL_PRBS_ERR := by decide +kernel
  have e : FYL_PRBS_ERR k = FYL_PRBS_ERR (k % 8) := by simp only [ FYL_PRBS_ERR, Nat.mod_mod]
  rw [e]; exact h _ (Nat.mod_lt _ (by decide))
/-- Every field of the family OHQ_READY_ready. -/
def mAll_OHQ_READY_ready : Nat := (List.range 16).foldl (fun a k => a ||| mFld (OHQ_READY_ready k)) 0
theorem OHQ_READY_ready_mem (k : Nat) : MaskLe (mFld (OHQ_READY_ready k)) mAll_OHQ_READY_ready := by
  have h : ∀ j < 16, MaskLe (mFld (OHQ_READY_ready j)) mAll_OHQ_READY_ready := by decide +kernel
  have e : OHQ_READY_ready k = OHQ_READY_ready (k % 16) := by simp only [ OHQ_READY_ready, Nat.mod_mod]
  rw [e]; exact h _ (Nat.mod_lt _ (by decide))
/-- Every field of the family TIM_TS_entry. -/
def mAll_TIM_TS_entry : Nat := (List.range 4).foldl (fun a k => a ||| mFld (TIM_TS_entry k)) 0
theorem TIM_TS_entry_mem (k : Nat) : MaskLe (mFld (TIM_TS_entry k)) mAll_TIM_TS_entry := by
  have h : ∀ j < 4, MaskLe (mFld (TIM_TS_entry j)) mAll_TIM_TS_entry := by decide +kernel
  have e : TIM_TS_entry k = TIM_TS_entry (k % 4) := by simp only [ TIM_TS_entry, Nat.mod_mod]
  rw [e]; exact h _ (Nat.mod_lt _ (by decide))
/-- Every field of the family BXM_ERR_CNT. -/
def mAll_BXM_ERR_CNT : Nat := (List.range 8).foldl (fun a k => a ||| mFld (BXM_ERR_CNT k)) 0
theorem BXM_ERR_CNT_mem (k : Nat) : MaskLe (mFld (BXM_ERR_CNT k)) mAll_BXM_ERR_CNT := by
  have h : ∀ j < 8, MaskLe (mFld (BXM_ERR_CNT j)) mAll_BXM_ERR_CNT := by decide +kernel
  have e : BXM_ERR_CNT k = BXM_ERR_CNT (k % 8) := by simp only [ BXM_ERR_CNT, Nat.mod_mod]
  rw [e]; exact h _ (Nat.mod_lt _ (by decide))
/-- Every field of the family BXM_LATE. -/
def mAll_BXM_LATE : Nat := (List.range 8).foldl (fun a k => a ||| mFld (BXM_LATE k)) 0
theorem BXM_LATE_mem (k : Nat) : MaskLe (mFld (BXM_LATE k)) mAll_BXM_LATE := by
  have h : ∀ j < 8, MaskLe (mFld (BXM_LATE j)) mAll_BXM_LATE := by decide +kernel
  have e : BXM_LATE k = BXM_LATE (k % 8) := by simp only [ BXM_LATE, Nat.mod_mod]
  rw [e]; exact h _ (Nat.mod_lt _ (by decide))
/-- Every field of the family FWM_RSP_word. -/
def mAll_FWM_RSP_word : Nat := (List.range 128).foldl (fun a k => a ||| mFld (FWM_RSP_word k)) 0
theorem FWM_RSP_word_mem (k : Nat) : MaskLe (mFld (FWM_RSP_word k)) mAll_FWM_RSP_word := by
  have h : ∀ j < 128, MaskLe (mFld (FWM_RSP_word j)) mAll_FWM_RSP_word := by decide +kernel
  have e : FWM_RSP_word k = FWM_RSP_word (k % 128) := by simp only [ FWM_RSP_word, Nat.mod_mod]
  rw [e]; exact h _ (Nat.mod_lt _ (by decide))
/-- Every field of the family CHIP_ID_TEMP_valid. -/
def mAll_CHIP_ID_TEMP_valid : Nat := (List.range 22).foldl (fun a k => a ||| mFld (CHIP_ID_TEMP_valid k)) 0
theorem CHIP_ID_TEMP_valid_mem (k : Nat) : MaskLe (mFld (CHIP_ID_TEMP_valid k)) mAll_CHIP_ID_TEMP_valid := by
  have h : ∀ j < 22, MaskLe (mFld (CHIP_ID_TEMP_valid j)) mAll_CHIP_ID_TEMP_valid := by decide +kernel
  have e : CHIP_ID_TEMP_valid k = CHIP_ID_TEMP_valid (k % 22) := by simp only [ CHIP_ID_TEMP_valid, Nat.mod_mod]
  rw [e]; exact h _ (Nat.mod_lt _ (by decide))
/-- Every field of the family CHIP_ID_TEMP_temp. -/
def mAll_CHIP_ID_TEMP_temp : Nat := (List.range 22).foldl (fun a k => a ||| mFld (CHIP_ID_TEMP_temp k)) 0
theorem CHIP_ID_TEMP_temp_mem (k : Nat) : MaskLe (mFld (CHIP_ID_TEMP_temp k)) mAll_CHIP_ID_TEMP_temp := by
  have h : ∀ j < 22, MaskLe (mFld (CHIP_ID_TEMP_temp j)) mAll_CHIP_ID_TEMP_temp := by decide +kernel
  have e : CHIP_ID_TEMP_temp k = CHIP_ID_TEMP_temp (k % 22) := by simp only [ CHIP_ID_TEMP_temp, Nat.mod_mod]
  rw [e]; exact h _ (Nat.mod_lt _ (by decide))
/-- Every field of the family HST_DMA_STATUS_state. -/
def mAll_HST_DMA_STATUS_state : Nat := (List.range 4).foldl (fun a k => a ||| mFld (HST_DMA_STATUS_state k)) 0
theorem HST_DMA_STATUS_state_mem (k : Nat) : MaskLe (mFld (HST_DMA_STATUS_state k)) mAll_HST_DMA_STATUS_state := by
  have h : ∀ j < 4, MaskLe (mFld (HST_DMA_STATUS_state j)) mAll_HST_DMA_STATUS_state := by decide +kernel
  have e : HST_DMA_STATUS_state k = HST_DMA_STATUS_state (k % 4) := by simp only [ HST_DMA_STATUS_state, Nat.mod_mod]
  rw [e]; exact h _ (Nat.mod_lt _ (by decide))
/-- Every field of the family HST_DMA_STATUS_done. -/
def mAll_HST_DMA_STATUS_done : Nat := (List.range 4).foldl (fun a k => a ||| mFld (HST_DMA_STATUS_done k)) 0
theorem HST_DMA_STATUS_done_mem (k : Nat) : MaskLe (mFld (HST_DMA_STATUS_done k)) mAll_HST_DMA_STATUS_done := by
  have h : ∀ j < 4, MaskLe (mFld (HST_DMA_STATUS_done j)) mAll_HST_DMA_STATUS_done := by decide +kernel
  have e : HST_DMA_STATUS_done k = HST_DMA_STATUS_done (k % 4) := by simp only [ HST_DMA_STATUS_done, Nat.mod_mod]
  rw [e]; exact h _ (Nat.mod_lt _ (by decide))
/-- Every field of the family MODE_REGIONS_state. -/
def mAll_MODE_REGIONS_state : Nat := (List.range 8).foldl (fun a k => a ||| mFld (MODE_REGIONS_state k)) 0
theorem MODE_REGIONS_state_mem (k : Nat) : MaskLe (mFld (MODE_REGIONS_state k)) mAll_MODE_REGIONS_state := by
  have h : ∀ j < 8, MaskLe (mFld (MODE_REGIONS_state j)) mAll_MODE_REGIONS_state := by decide +kernel
  have e : MODE_REGIONS_state k = MODE_REGIONS_state (k % 8) := by simp only [ MODE_REGIONS_state, Nat.mod_mod]
  rw [e]; exact h _ (Nat.mod_lt _ (by decide))
/-- Every field of the family BOX_WIN_en. -/
def mAll_BOX_WIN_en : Nat := (List.range 16).foldl (fun a k => a ||| mFld (BOX_WIN_en k)) 0
theorem BOX_WIN_en_mem (k : Nat) : MaskLe (mFld (BOX_WIN_en k)) mAll_BOX_WIN_en := by
  have h : ∀ j < 16, MaskLe (mFld (BOX_WIN_en j)) mAll_BOX_WIN_en := by decide +kernel
  have e : BOX_WIN_en k = BOX_WIN_en (k % 16) := by simp only [ BOX_WIN_en, Nat.mod_mod]
  rw [e]; exact h _ (Nat.mod_lt _ (by decide))
/-- Every field of the family BOX_WIN_count_m1. -/
def mAll_BOX_WIN_count_m1 : Nat := (List.range 16).foldl (fun a k => a ||| mFld (BOX_WIN_count_m1 k)) 0
theorem BOX_WIN_count_m1_mem (k : Nat) : MaskLe (mFld (BOX_WIN_count_m1 k)) mAll_BOX_WIN_count_m1 := by
  have h : ∀ j < 16, MaskLe (mFld (BOX_WIN_count_m1 j)) mAll_BOX_WIN_count_m1 := by decide +kernel
  have e : BOX_WIN_count_m1 k = BOX_WIN_count_m1 (k % 16) := by simp only [ BOX_WIN_count_m1, Nat.mod_mod]
  rw [e]; exact h _ (Nat.mod_lt _ (by decide))
/-- Every field of the family BOX_WIN_slot. -/
def mAll_BOX_WIN_slot : Nat := (List.range 16).foldl (fun a k => a ||| mFld (BOX_WIN_slot k)) 0
theorem BOX_WIN_slot_mem (k : Nat) : MaskLe (mFld (BOX_WIN_slot k)) mAll_BOX_WIN_slot := by
  have h : ∀ j < 16, MaskLe (mFld (BOX_WIN_slot j)) mAll_BOX_WIN_slot := by decide +kernel
  have e : BOX_WIN_slot k = BOX_WIN_slot (k % 16) := by simp only [ BOX_WIN_slot, Nat.mod_mod]
  rw [e]; exact h _ (Nat.mod_lt _ (by decide))
/-- Every field of the family BOX_WIN_tpage. -/
def mAll_BOX_WIN_tpage : Nat := (List.range 16).foldl (fun a k => a ||| mFld (BOX_WIN_tpage k)) 0
theorem BOX_WIN_tpage_mem (k : Nat) : MaskLe (mFld (BOX_WIN_tpage k)) mAll_BOX_WIN_tpage := by
  have h : ∀ j < 16, MaskLe (mFld (BOX_WIN_tpage j)) mAll_BOX_WIN_tpage := by decide +kernel
  have e : BOX_WIN_tpage k = BOX_WIN_tpage (k % 16) := by simp only [ BOX_WIN_tpage, Nat.mod_mod]
  rw [e]; exact h _ (Nat.mod_lt _ (by decide))
/-- Every shadow. -/
def mAll_shadowF : Nat := (List.range 256).foldl (fun a k => a ||| mFld (shadowF (4 * k))) 0
theorem shadowF_mem (k : Nat) : MaskLe (mFld (shadowF k)) mAll_shadowF := by
  have h : ∀ j < 256, MaskLe (mFld (shadowF (4 * j))) mAll_shadowF := by decide +kernel
  have e : shadowF k = shadowF (4 * (k / 4 % 256)) := by
    simp only [shadowF]; congr 1; omega
  rw [e]; exact h _ (Nat.mod_lt _ (by decide))
theorem fr_each_mem {α : Type} {M s0} {s : State} {l : List α} {f : State → α → State} (h : Fr M s0 s) (k : ∀ s x, x ∈ l → Fr M s0 s → Fr M s0 (f s x)) : Fr M s0 (s.each l f) := by
  unfold State.each
  induction l generalizing s with
  | nil => exact h
  | cons a l ih => exact ih (k _ _ (by simp) h) (fun s x m => k s x (by simp [m]))
theorem Fr.trans {M : Nat} {a b c : State} (h : Fr M a b) (k : Fr M b c) : Fr M a c :=
  { pending := fun m => (k.pending m).trans (h.pending m)
    out := fun m => (k.out m).trans (h.out m)
    reply := fun m => (k.reply m).trans (h.reply m)
    freeCtr := fun m => (k.freeCtr m).trans (h.freeCtr m)
    dpCycle := fun m => (k.dpCycle m).trans (h.dpCycle m)
    staged := fun m => (k.staged m).trans (h.staged m)
    dirty := fun m => (k.dirty m).trans (h.dirty m)
    events := fun m => (k.events m).trans (h.events m)
    devGen := fun m => (k.devGen m).trans (h.devGen m)
    mem := fun m => (k.mem m).trans (h.mem m)
    slots := fun m => (k.slots m).trans (h.slots m)
    fltWin := fun m => (k.fltWin m).trans (h.fltWin m)
    col := fun m => (k.col m).trans (h.col m)
    logQ := fun m => (k.logQ m).trans (h.logQ m)
    logHeld := fun m => (k.logHeld m).trans (h.logHeld m)
    coalKeys := fun m => (k.coalKeys m).trans (h.coalKeys m)
    skips := fun m => (k.skips m).trans (h.skips m)
    fns := fun m => (k.fns m).trans (h.fns m)
    numVfs := fun m => (k.numVfs m).trans (h.numVfs m)
    vecs := fun m => (k.vecs m).trans (h.vecs m)
    notices := fun m => (k.notices m).trans (h.notices m)
    modeCmd := fun m => (k.modeCmd m).trans (h.modeCmd m)
    deferredIso := fun m => (k.deferredIso m).trans (h.deferredIso m)
    tb := fun m => (k.tb m).trans (h.tb m)
    blk := fun m => (k.blk m).trans (h.blk m)
    live := fun m => (k.live m).trans (h.live m)
    lanes := fun m => (k.lanes m).trans (h.lanes m)
    prbs := fun m => (k.prbs m).trans (h.prbs m)
    epi := fun m => (k.epi m).trans (h.epi m)
    slices := fun m => (k.slices m).trans (h.slices m)
    points := fun m => (k.points m).trans (h.points m)
    ctxs := fun m => (k.ctxs m).trans (h.ctxs m)
    secCount := fun m => (k.secCount m).trans (h.secCount m)
    pmPend := fun m => (k.pmPend m).trans (h.pmPend m)
    tbStepped := fun m => (k.tbStepped m).trans (h.tbStepped m)
    clis := fun m => (k.clis m).trans (h.clis m)
    gmps := fun m => (k.gmps m).trans (h.gmps m)
    grps := fun m => (k.grps m).trans (h.grps m)
    apss := fun m => (k.apss m).trans (h.apss m)
    prtQ := fun m => (k.prtQ m).trans (h.prtQ m)
    sfpOverwrite := fun m => (k.sfpOverwrite m).trans (h.sfpOverwrite m)
    flowOuts := fun m => (k.flowOuts m).trans (h.flowOuts m)
    wgrps := fun m => (k.wgrps m).trans (h.wgrps m)
    slotQ := fun m => (k.slotQ m).trans (h.slotQ m)
    hbm := fun m => (k.hbm m).trans (h.hbm m)
    fallQ := fun m => (k.fallQ m).trans (h.fallQ m)
    nextPc := fun m => (k.nextPc m).trans (h.nextPc m)
    brgStamp := fun m => (k.brgStamp m).trans (h.brgStamp m)
    fyls := fun m => (k.fyls m).trans (h.fyls m)
    txFlows := fun m => (k.txFlows m).trans (h.txFlows m)
    rxFailTurn := fun m => (k.rxFailTurn m).trans (h.rxFailTurn m)
    coverAt := fun m => (k.coverAt m).trans (h.coverAt m)
    covers := fun m => (k.covers m).trans (h.covers m)
    caps := fun m => (k.caps m).trans (h.caps m)
    inss := fun m => (k.inss m).trans (h.inss m)
    chks := fun m => (k.chks m).trans (h.chks m)
    sdpRx0 := fun m => (k.sdpRx0 m).trans (h.sdpRx0 m)
    sdpRx1 := fun m => (k.sdpRx1 m).trans (h.sdpRx1 m)
    sdpCur := fun m => (k.sdpCur m).trans (h.sdpCur m)
    sdpTx := fun m => (k.sdpTx m).trans (h.sdpTx m)
    sdpWr := fun m => (k.sdpWr m).trans (h.sdpWr m)
    sdpLast := fun m => (k.sdpLast m).trans (h.sdpLast m)
    sdpStarts := fun m => (k.sdpStarts m).trans (h.sdpStarts m)
    sdpRows := fun m => (k.sdpRows m).trans (h.sdpRows m)
    sdpSpeed := fun m => (k.sdpSpeed m).trans (h.sdpSpeed m)
    sdpQuanta := fun m => (k.sdpQuanta m).trans (h.sdpQuanta m)
    cbbTx := fun m => (k.cbbTx m).trans (h.cbbTx m)
    cbbRx := fun m => (k.cbbRx m).trans (h.cbbRx m)
    cbbCur := fun m => (k.cbbCur m).trans (h.cbbCur m)
    cbbRing := fun m => (k.cbbRing m).trans (h.cbbRing m)
    cbbNext := fun m => (k.cbbNext m).trans (h.cbbNext m)
    cbbSeq := fun m => (k.cbbSeq m).trans (h.cbbSeq m)
    cbbHeard := fun m => (k.cbbHeard m).trans (h.cbbHeard m)
    door := fun m => (k.door m).trans (h.door m)
    tsLog := fun m => (k.tsLog m).trans (h.tsLog m)
    pps := fun m => (k.pps m).trans (h.pps m)
    tim := fun m => (k.tim m).trans (h.tim m)
    ppsOutLast := fun m => (k.ppsOutLast m).trans (h.ppsOutLast m)
    csus := fun m => (k.csus m).trans (h.csus m)
    upd := fun m => (k.upd m).trans (h.upd m)
    msixTab := fun m => (k.msixTab m).trans (h.msixTab m)
    hst := fun m => (k.hst m).trans (h.hst m)
    smHeld := fun m => (k.smHeld m).trans (h.smHeld m)
    reqQ := fun m => (k.reqQ m).trans (h.reqQ m)
    smImg := fun m => (k.smImg m).trans (h.smImg m)
    slotA := fun m => (k.slotA m).trans (h.slotA m)
    slotB := fun m => (k.slotB m).trans (h.slotB m)
    push := fun m => (k.push m).trans (h.push m)
    rbSteps := fun m => (k.rbSteps m).trans (h.rbSteps m)
    revoked := fun m => (k.revoked m).trans (h.revoked m)
    rights := fun m => (k.rights m).trans (h.rights m)
    challenge := fun m => (k.challenge m).trans (h.challenge m)
    wdogTimes := fun m => (k.wdogTimes m).trans (h.wdogTimes m)
    enStart := fun m => (k.enStart m).trans (h.enStart m)
    kickAt := fun m => (k.kickAt m).trans (h.kickAt m)
    mbWho := fun m => (k.mbWho m).trans (h.mbWho m)
    dom := fun m => (k.dom m).trans (h.dom m)
    callStop := fun m => (k.callStop m).trans (h.callStop m)
    supplyOff := fun m => (k.supplyOff m).trans (h.supplyOff m)
    thermOff := fun m => (k.thermOff m).trans (h.thermOff m)
    thermHot := fun m => (k.thermHot m).trans (h.thermHot m)
    life := fun m => (k.life m).trans (h.life m)
    i2cPtr := fun m => (k.i2cPtr m).trans (h.i2cPtr m)
    plb := fun m => (k.plb m).trans (h.plb m)
    digs := fun m => (k.digs m).trans (h.digs m)
    digDue := fun m => (k.digDue m).trans (h.digDue m)
    cues := fun m => (k.cues m).trans (h.cues m)
    cueTurn := fun m => (k.cueTurn m).trans (h.cueTurn m)
    pmBins := fun m => (k.pmBins m).trans (h.pmBins m)
    pmBase := fun m => (k.pmBase m).trans (h.pmBase m)
    pmLastBin := fun m => (k.pmLastBin m).trans (h.pmLastBin m)
    pmMissing := fun m => (k.pmMissing m).trans (h.pmMissing m)
    pmThr := fun m => (k.pmThr m).trans (h.pmThr m)
    tca := fun m => (k.tca m).trans (h.tca m)
    almMask := fun m => (k.almMask m).trans (h.almMask m)
    sdpBad := fun m => (k.sdpBad m).trans (h.sdpBad m)
    persReset := fun m => (k.persReset m).trans (h.persReset m)
    regs := fun d x m => (k.regs d x m).trans (h.regs d x m)
    regsB := fun d x m => (k.regsB d x m).trans (h.regsB d x m)
    regsC := fun d x m => (k.regsC d x m).trans (h.regsC d x m)
    tabs := fun d x m => (k.tabs d x m).trans (h.tabs d x m)
    tabsB := fun d x m => (k.tabsB d x m).trans (h.tabsB d x m)
    tabsC := fun d x m => (k.tabsC d x m).trans (h.tabsC d x m)
    kEvt := fun m pg e x => k.kEvt m pg e (h.kEvt m pg e x)
    kFuse := fun m => ⟨Nat.le_trans (h.kFuse m).1 (k.kFuse m).1, fun x y => (k.kFuse m).2 x ((h.kFuse m).2 x y)⟩
    kLog := fun m x => k.kLog m (h.kLog m x)
    kTb := fun m x => k.kTb m (h.kTb m x)
    kMem := fun m x => k.kMem m (h.kMem m x)
    kFree := fun m => Nat.le_trans (h.kFree m) (k.kFree m) }
theorem fr_pending {M s0} {s t : State} (h : Fr M s0 t) (hs : Fr M s0 s) : Fr M s0 { t with pending := s.pending } :=
  { h with pending := hs.pending }
theorem bits_low (i : Nat) (h : i < 123) : ((2 ^ 123 - 1 : Nat)).testBit i = true := by
  rw [Nat.testBit_two_pow_sub_one]; simpa using h
theorem fr_all {M : Nat} {s0 t : State} (h : MaskLe allMask M) (kFuse : s0.rbSteps ≤ t.rbSteps ∧ ∀ x ∈ s0.revoked, x ∈ t.revoked)
    (kLog : LogOk s0 → LogOk t) (kTb : s0.tb.ok → t.tb.ok) (kMem : MemOk s0 → MemOk t) (kFree : s0.freeCtr ≤ t.freeCtr) : Fr M s0 t := by
  have hr : MaskLe allRegs M := MaskLe.trans (by decide +kernel) h
  have ht : MaskLe allTabs M := MaskLe.trans (by decide +kernel) h
  have hl : MaskLe (2 ^ 123 - 1) M := MaskLe.trans (by decide +kernel) h
  have key : ∀ i, i < 123 → M.testBit i = false → False := fun i hi c => by
    have := hl.bit c
    rw [bits_low i hi] at this; cases this
  exact {
    pending := fun c => (key 0 (by decide) c).elim
    out := fun c => (key 1 (by decide) c).elim
    reply := fun c => (key 2 (by decide) c).elim
    freeCtr := fun c => (key 3 (by decide) c).elim
    dpCycle := fun c => (key 4 (by decide) c).elim
    staged := fun c => (key 11 (by decide) c).elim
    dirty := fun c => (key 12 (by decide) c).elim
    events := fun c => (key 13 (by decide) c).elim
    devGen := fun c => (key 14 (by decide) c).elim
    mem := fun c => (key 15 (by decide) c).elim
    slots := fun c => (key 16 (by decide) c).elim
    fltWin := fun c => (key 17 (by decide) c).elim
    col := fun c => (key 18 (by decide) c).elim
    logQ := fun c => (key 19 (by decide) c).elim
    logHeld := fun c => (key 20 (by decide) c).elim
    coalKeys := fun c => (key 21 (by decide) c).elim
    skips := fun c => (key 22 (by decide) c).elim
    fns := fun c => (key 23 (by decide) c).elim
    numVfs := fun c => (key 24 (by decide) c).elim
    vecs := fun c => (key 25 (by decide) c).elim
    notices := fun c => (key 26 (by decide) c).elim
    modeCmd := fun c => (key 27 (by decide) c).elim
    deferredIso := fun c => (key 28 (by decide) c).elim
    tb := fun c => (key 29 (by decide) c).elim
    blk := fun c => (key 30 (by decide) c).elim
    live := fun c => (key 31 (by decide) c).elim
    lanes := fun c => (key 32 (by decide) c).elim
    prbs := fun c => (key 33 (by decide) c).elim
    epi := fun c => (key 34 (by decide) c).elim
    slices := fun c => (key 35 (by decide) c).elim
    points := fun c => (key 36 (by decide) c).elim
    ctxs := fun c => (key 37 (by decide) c).elim
    secCount := fun c => (key 38 (by decide) c).elim
    pmPend := fun c => (key 39 (by decide) c).elim
    tbStepped := fun c => (key 40 (by decide) c).elim
    clis := fun c => (key 41 (by decide) c).elim
    gmps := fun c => (key 42 (by decide) c).elim
    grps := fun c => (key 43 (by decide) c).elim
    apss := fun c => (key 44 (by decide) c).elim
    prtQ := fun c => (key 45 (by decide) c).elim
    sfpOverwrite := fun c => (key 46 (by decide) c).elim
    flowOuts := fun c => (key 47 (by decide) c).elim
    wgrps := fun c => (key 48 (by decide) c).elim
    slotQ := fun c => (key 49 (by decide) c).elim
    hbm := fun c => (key 50 (by decide) c).elim
    fallQ := fun c => (key 51 (by decide) c).elim
    nextPc := fun c => (key 52 (by decide) c).elim
    brgStamp := fun c => (key 53 (by decide) c).elim
    fyls := fun c => (key 54 (by decide) c).elim
    txFlows := fun c => (key 55 (by decide) c).elim
    rxFailTurn := fun c => (key 56 (by decide) c).elim
    coverAt := fun c => (key 57 (by decide) c).elim
    covers := fun c => (key 58 (by decide) c).elim
    caps := fun c => (key 59 (by decide) c).elim
    inss := fun c => (key 60 (by decide) c).elim
    chks := fun c => (key 61 (by decide) c).elim
    sdpRx0 := fun c => (key 62 (by decide) c).elim
    sdpRx1 := fun c => (key 63 (by decide) c).elim
    sdpCur := fun c => (key 64 (by decide) c).elim
    sdpTx := fun c => (key 65 (by decide) c).elim
    sdpWr := fun c => (key 66 (by decide) c).elim
    sdpLast := fun c => (key 67 (by decide) c).elim
    sdpStarts := fun c => (key 68 (by decide) c).elim
    sdpRows := fun c => (key 69 (by decide) c).elim
    sdpSpeed := fun c => (key 70 (by decide) c).elim
    sdpQuanta := fun c => (key 71 (by decide) c).elim
    cbbTx := fun c => (key 72 (by decide) c).elim
    cbbRx := fun c => (key 73 (by decide) c).elim
    cbbCur := fun c => (key 74 (by decide) c).elim
    cbbRing := fun c => (key 75 (by decide) c).elim
    cbbNext := fun c => (key 76 (by decide) c).elim
    cbbSeq := fun c => (key 77 (by decide) c).elim
    cbbHeard := fun c => (key 78 (by decide) c).elim
    door := fun c => (key 79 (by decide) c).elim
    tsLog := fun c => (key 80 (by decide) c).elim
    pps := fun c => (key 81 (by decide) c).elim
    tim := fun c => (key 82 (by decide) c).elim
    ppsOutLast := fun c => (key 83 (by decide) c).elim
    csus := fun c => (key 84 (by decide) c).elim
    upd := fun c => (key 85 (by decide) c).elim
    msixTab := fun c => (key 86 (by decide) c).elim
    hst := fun c => (key 87 (by decide) c).elim
    smHeld := fun c => (key 88 (by decide) c).elim
    reqQ := fun c => (key 89 (by decide) c).elim
    smImg := fun c => (key 90 (by decide) c).elim
    slotA := fun c => (key 91 (by decide) c).elim
    slotB := fun c => (key 92 (by decide) c).elim
    push := fun c => (key 93 (by decide) c).elim
    rbSteps := fun c => (key 94 (by decide) c).elim
    revoked := fun c => (key 95 (by decide) c).elim
    rights := fun c => (key 96 (by decide) c).elim
    challenge := fun c => (key 97 (by decide) c).elim
    wdogTimes := fun c => (key 98 (by decide) c).elim
    enStart := fun c => (key 99 (by decide) c).elim
    kickAt := fun c => (key 100 (by decide) c).elim
    mbWho := fun c => (key 101 (by decide) c).elim
    dom := fun c => (key 102 (by decide) c).elim
    callStop := fun c => (key 103 (by decide) c).elim
    supplyOff := fun c => (key 104 (by decide) c).elim
    thermOff := fun c => (key 105 (by decide) c).elim
    thermHot := fun c => (key 106 (by decide) c).elim
    life := fun c => (key 107 (by decide) c).elim
    i2cPtr := fun c => (key 108 (by decide) c).elim
    plb := fun c => (key 109 (by decide) c).elim
    digs := fun c => (key 110 (by decide) c).elim
    digDue := fun c => (key 111 (by decide) c).elim
    cues := fun c => (key 112 (by decide) c).elim
    cueTurn := fun c => (key 113 (by decide) c).elim
    pmBins := fun c => (key 114 (by decide) c).elim
    pmBase := fun c => (key 115 (by decide) c).elim
    pmLastBin := fun c => (key 116 (by decide) c).elim
    pmMissing := fun c => (key 117 (by decide) c).elim
    pmThr := fun c => (key 118 (by decide) c).elim
    tca := fun c => (key 119 (by decide) c).elim
    almMask := fun c => (key 120 (by decide) c).elim
    sdpBad := fun c => (key 121 (by decide) c).elim
    persReset := fun c => (key 122 (by decide) c).elim
    regs := fun _ _ c => (coarse_r hr _ c).elim
    regsB := fun _ _ c => (coarse_r hr _ c).elim
    regsC := fun _ _ c => (coarse_r hr _ c).elim
    tabs := fun _ _ c => (coarse_t ht _ c).elim
    tabsB := fun _ _ c => (coarse_t ht _ c).elim
    tabsC := fun _ _ c => (coarse_t ht _ c).elim
    kEvt := fun c => by
      have := (MaskLe.trans (a := 2 ^ 400) (by decide +kernel) h).bit c
      rw [Nat.testBit_two_pow_self] at this; cases this
    kFuse := fun _ => kFuse
    kLog := fun _ => kLog
    kTb := fun _ => kTb
    kMem := fun _ => kMem
    kFree := fun _ => kFree }
theorem stampBit_any (l : List (Nat × Nat)) (k n k' : Nat) (h : l.any (fun e => decide (e.1 = k')) = true) :
    (stampBit l k n).any (fun e => decide (e.1 = k')) = true := by
  by_cases hk : k' = k
  · subst hk; simp [stampBit]
  · simp only [List.any_eq_true, decide_eq_true_eq, stampBit] at *
    obtain ⟨e, he, hk'⟩ := h
    exact ⟨e, by simp [he, hk', hk], hk'⟩
theorem fr_evts {M s0 s pg} {e : PageEvt} (hM : MaskLe (2 ^ 13) M) (h : Fr M s0 s)
    (k : ∀ k', (s.events.get {} pg).evts.any (fun x => decide (x.1 = k')) = true → e.evts.any (fun x => decide (x.1 = k')) = true) :
    Fr M s0 { s with events := s.events.set {} pg e } :=
  { h with
    events := fun c => absurd (hM.bit c) (by decide +kernel)
    kEvt := fun m pg' k' x => by
      have y := h.kEvt m pg' k' x
      unfold State.hasEvt at *
      by_cases hp : pg' = pg
      · subst hp; dsimp only; rw [SMap.get_set_same]; exact k k' y
      · dsimp only; rw [SMap.get_set_ne _ _ _ _ hp]; exact y }
theorem fr_logQ {M s0 s q} (hM : MaskLe (2 ^ 19) M) (h : Fr M s0 s) (k : LogOk s → q.length ≤ 256) : Fr M s0 { s with logQ := q } :=
  { h with
    logQ := fun c => absurd (hM.bit c) (by decide +kernel)
    kLog := fun m x => k (h.kLog m x) }
theorem fr_tb {M s0 s x} (hM : MaskLe (2 ^ 29) M) (h : Fr M s0 s) (k : s.tb.ok → x.ok) : Fr M s0 { s with tb := x } :=
  { h with
    tb := fun c => absurd (hM.bit c) (by decide +kernel)
    kTb := fun m y => k (h.kTb m y) }
theorem fr_mem {M s0 s x} (hM : MaskLe (2 ^ 15) M) (h : Fr M s0 s) (k : MemOk s → Memory.wf x = true) : Fr M s0 { s with mem := x } :=
  { h with
    mem := fun c => absurd (hM.bit c) (by decide +kernel)
    kMem := fun m y => k (h.kMem m y) }

end Sys2Proof.Machine
end

