-- ==== Sys2Proof/Laws/Regs.lean ====
section
/-! SUPPORT. What a read gives after a write, of sparse maps, register fields, table entries and their fields, events, report slots and
records; and how a read passes over a state that agrees outside a mask. -/

namespace Sys2Proof.Machine

open Sys2Proof

set_option Elab.async false
set_option linter.all false

/-! ### Register fields -/

theorem vote_same (r x : Nat) : vote r x x x = x := by simp [vote]

theorem rd_congr {s t : State} (h : t.regs = s.regs) (hB : t.regsB = s.regsB) (hC : t.regsC = s.regsC) (pg : Nat) (f : Field) :
    t.rd pg f = s.rd pg f := by
  unfold State.rd; rw [h, hB, hC]

theorem entry_congr {s t : State} (h : t.tabs = s.tabs) (hB : t.tabsB = s.tabsB) (hC : t.tabsC = s.tabsC) (pg : Nat) (b : Tab) (e : Nat) :
    t.entry pg b e = s.entry pg b e := by
  unfold State.entry; rw [h, hB, hC]

/-- A field just written reads as the value, cut to its width. -/
@[simp] theorem State.rd_wr_same (s : State) (pg : Nat) (f : Field) (v : Nat) : (s.wr pg f v).rd pg f = v % 2 ^ f.width := by
  unfold State.rd State.wr
  by_cases h : f.acc = .rv
  · simp only [h, if_true, SMap.get_set_same, vote_same]
  · simp only [h, if_false, SMap.get_set_same]

/-- A field of another key is left alone. -/
theorem State.rd_wr_key (s : State) (pg pg' : Nat) (f f' : Field) (v : Nat) (h : fkey pg' f' ≠ fkey pg f) :
    (s.wr pg f v).rd pg' f' = s.rd pg' f' := by
  unfold State.rd State.wr
  by_cases h1 : f.acc = .rv <;> by_cases h2 : f'.acc = .rv <;> simp only [h1, h2, if_true, if_false, SMap.get_set_ne _ _ _ _ h]

/-- A field at another place is left alone, whatever the page. -/
theorem State.rd_wr_ne (s : State) (pg pg' : Nat) (f f' : Field) (v : Nat)
    (h : (f'.off * 8 + f'.lo) % 8192 ≠ (f.off * 8 + f.lo) % 8192) : (s.wr pg f v).rd pg' f' = s.rd pg' f' := by
  apply State.rd_wr_key
  unfold fkey
  intro e
  apply h
  have := congrArg (· % 8192) e
  simpa [Nat.add_assoc, Nat.mul_add_mod_self_right] using this

/-- A field of another page is left alone. -/
theorem State.rd_wr_page (s : State) (pg pg' : Nat) (f f' : Field) (v : Nat) (h : pg' ≠ pg) (h1 : f.off * 8 + f.lo < 8192)
    (h2 : f'.off * 8 + f'.lo < 8192) : (s.wr pg f v).rd pg' f' = s.rd pg' f' := by
  apply State.rd_wr_key
  unfold fkey
  omega

/-- A field outside the mask reads as before. -/
theorem Fr.rd {M : Nat} {s t : State} (h : Fr M s t) (pg : Nat) (f : Field)
    (hf : M.testBit (512 + (f.off * 8 + f.lo) % 8192) = false) : t.rd pg f = s.rd pg f := by
  have hk : (fkey pg f) % 8192 = (f.off * 8 + f.lo) % 8192 := by
    unfold fkey; rw [Nat.add_assoc, Nat.mul_add_mod_self_right]
  have a := fun d => h.regs d (fkey pg f) (by rw [hk]; exact hf)
  have b := fun d => h.regsB d (fkey pg f) (by rw [hk]; exact hf)
  have c := fun d => h.regsC d (fkey pg f) (by rw [hk]; exact hf)
  unfold State.rd
  rw [a, b, c]

theorem Fr.rdb {M : Nat} {s t : State} (h : Fr M s t) (pg : Nat) (f : Field)
    (hf : M.testBit (512 + (f.off * 8 + f.lo) % 8192) = false) : t.rdb pg f = s.rdb pg f := by
  unfold State.rdb; rw [h.rd pg f hf]

@[simp] theorem State.rdb_wrb_same (s : State) (pg : Nat) (f : Field) (b : Bool) : (s.wrb pg f b).rdb pg f = b := by
  have h : 1 < 2 ^ f.width := Nat.one_lt_two_pow (by unfold Field.width; omega)
  unfold State.wrb State.rdb
  rw [State.rd_wr_same]
  cases b
  · simp [b2n]
  · simp [b2n, Nat.mod_eq_of_lt h]

/-- What every turn of a loop keeps, the loop keeps. -/
theorem each_keeps {α β : Type} (g : State → β) (s : State) (l : List α) (f : State → α → State) (h : ∀ s x, g (f s x) = g s) :
    g (s.each l f) = g s := by
  unfold State.each
  induction l generalizing s with
  | nil => rfl
  | cons a l ih => exact (ih _).trans (h s a)

@[simp] theorem State.rd_each {α : Type} (s : State) (l : List α) (f : State → α → State) (pg : Nat) (g : Field)
    (h : ∀ s x, (f s x).rd pg g = s.rd pg g) : (s.each l f).rd pg g = s.rd pg g := each_keeps (·.rd pg g) s l f h

@[simp] theorem State.rdb_each {α : Type} (s : State) (l : List α) (f : State → α → State) (pg : Nat) (g : Field)
    (h : ∀ s x, (f s x).rdb pg g = s.rdb pg g) : (s.each l f).rdb pg g = s.rdb pg g := each_keeps (·.rdb pg g) s l f h

@[simp] theorem State.tget_each {α : Type} (s : State) (l : List α) (f : State → α → State) (pg : Nat) (t : Tab) (e : Nat) (g : TField)
    (h : ∀ s x, (f s x).tget pg t e g = s.tget pg t e g) : (s.each l f).tget pg t e g = s.tget pg t e g :=
  each_keeps (·.tget pg t e g) s l f h

/-- The bits of a mask that the region states stand at. -/
def mRegions (M : Nat) : Bool := (List.range 8).all (fun j => !M.testBit (512 + (0x044 * 8 + 4 * j)))

theorem Fr.region {M : Nat} {s t : State} (h : Fr M s t) (hM : mRegions M = true) (r : Nat) : t.region r = s.region r := by
  unfold State.region
  apply h.rd
  have k := List.all_eq_true.1 hM (r % 8) (List.mem_range.2 (Nat.mod_lt _ (by decide)))
  have e : 512 + ((MODE_REGIONS_state r).off * 8 + (MODE_REGIONS_state r).lo) % 8192 = 512 + (0x044 * 8 + 4 * (r % 8)) := by
    have : r % 8 < 8 := Nat.mod_lt _ (by decide)
    simp only [ MODE_REGIONS_state]; omega
  rw [e]
  simpa using k

theorem Fr.regionSpeaks {M : Nat} {s t : State} (h : Fr M s t) (hM : mRegions M = true) (r : Nat) :
    t.regionSpeaks r = s.regionSpeaks r := by
  unfold State.regionSpeaks; rw [h.region hM]

theorem Fr.mode {M : Nat} {s t : State} (h : Fr M s t)
    (hM : M.testBit (512 + (MODE_current.off * 8 + MODE_current.lo) % 8192) = false) : t.mode = s.mode := h.rd _ _ hM

theorem Fr.datapath {M : Nat} {s t : State} (h : Fr M s t) (hM : mRegions M = true)
    (hM' : M.testBit (512 + (MODE_current.off * 8 + MODE_current.lo) % 8192) = false) (r : Nat) : t.datapath r = s.datapath r := by
  unfold State.datapath; rw [h.region hM, h.mode hM']

/-! ### Table entries -/

theorem tkey_code (pg : Nat) (t : Tab) (e : Nat) : tkey pg t e / 2 ^ 24 % 256 = t.code % 256 := by
  unfold tkey
  rw [Nat.mul_comm, Nat.mul_add_div (by decide), Nat.div_eq_of_lt (Nat.mod_lt _ (by decide)), Nat.add_zero, Nat.mul_comm pg,
    Nat.mul_add_mod]

/-- An entry of a table outside the mask reads as before. -/
theorem Fr.entry {M : Nat} {s t : State} (h : Fr M s t) (pg : Nat) (b : Tab) (e : Nat)
    (hf : M.testBit (128 + b.code % 256) = false) : t.entry pg b e = s.entry pg b e := by
  have hk := tkey_code pg b e
  unfold State.entry
  rw [h.tabs _ _ (by rw [hk]; exact hf), h.tabsB _ _ (by rw [hk]; exact hf), h.tabsC _ _ (by rw [hk]; exact hf)]

theorem Fr.tget {M : Nat} {s t : State} (h : Fr M s t) (pg : Nat) (b : Tab) (e : Nat) (f : TField)
    (hf : M.testBit (128 + b.code % 256) = false) : t.tget pg b e f = s.tget pg b e f := by
  unfold State.tget; rw [h.entry pg b e hf]

theorem Fr.tgetb {M : Nat} {s t : State} (h : Fr M s t) (pg : Nat) (b : Tab) (e : Nat) (f : TField)
    (hf : M.testBit (128 + b.code % 256) = false) : t.tgetb pg b e f = s.tgetb pg b e f := by
  unfold State.tgetb; rw [h.tget pg b e f hf]

/-- An entry just written reads as the value, cut to its rows. -/
@[simp] theorem State.entry_setEntry_same (s : State) (pg : Nat) (t : Tab) (e v : Nat) :
    (s.setEntry pg t e v).entry pg t e = v % 2 ^ (128 * t.rows) := by
  unfold State.entry State.setEntry
  cases h : t.voted
  · simp only [Bool.false_eq_true, if_false, SMap.get_set_same]
  · simp only [if_true, SMap.get_set_same, vote_same]

theorem State.entry_setEntry_key (s : State) (pg pg' : Nat) (t t' : Tab) (e e' v : Nat) (h : tkey pg' t' e' ≠ tkey pg t e) :
    (s.setEntry pg t e v).entry pg' t' e' = s.entry pg' t' e' := by
  unfold State.entry State.setEntry
  by_cases h1 : t.voted = true <;> by_cases h2 : t'.voted = true <;> simp [h1, h2, SMap.get_set_ne _ _ _ _ h]

theorem State.entry_setEntry_tab (s : State) (pg pg' : Nat) (t t' : Tab) (e e' v : Nat) (h : t'.code % 256 ≠ t.code % 256) :
    (s.setEntry pg t e v).entry pg' t' e' = s.entry pg' t' e' :=
  s.entry_setEntry_key pg pg' t t' e e' v (fun k => h (by rw [← tkey_code pg' t' e', k, tkey_code]))

theorem getBits_mod (x hi lo w : Nat) (h1 : hi < w) (h2 : lo ≤ hi) : getBits (x % 2 ^ w) hi lo = getBits x hi lo := by
  unfold getBits
  rw [← Nat.shiftRight_eq_div_pow, ← Nat.shiftRight_eq_div_pow]
  apply Nat.eq_of_testBit_eq
  intro i
  simp only [Nat.testBit_mod_two_pow, Nat.testBit_shiftRight]
  by_cases hi' : i < hi - lo + 1
  · simp only [hi', decide_true, Bool.true_and]
    rw [decide_eq_true (by omega : lo + i < w), Bool.true_and]
  · simp [hi']

theorem testBit_putBits (x hi lo v i : Nat) (h : lo ≤ hi) :
    (putBits x hi lo v).testBit i = if lo ≤ i ∧ i ≤ hi then v.testBit (i - lo) else x.testBit i := by
  have e : putBits x hi lo v =
      2 ^ (hi + 1) * (x / 2 ^ (hi + 1)) + (2 ^ lo * (v % 2 ^ (hi - lo + 1)) + x % 2 ^ lo) := by
    unfold putBits; ring
  have hlt : 2 ^ lo * (v % 2 ^ (hi - lo + 1)) + x % 2 ^ lo < 2 ^ (hi + 1) := by
    have h1 : v % 2 ^ (hi - lo + 1) < 2 ^ (hi - lo + 1) := Nat.mod_lt _ (by positivity)
    have h2 : x % 2 ^ lo < 2 ^ lo := Nat.mod_lt _ (by positivity)
    have h3 : 2 ^ (hi + 1) = 2 ^ lo * 2 ^ (hi - lo + 1) := by rw [← pow_add]; congr 1; omega
    rw [h3]
    calc _ < 2 ^ lo * (v % 2 ^ (hi - lo + 1)) + 2 ^ lo := by omega
      _ = 2 ^ lo * (v % 2 ^ (hi - lo + 1) + 1) := by ring
      _ ≤ _ := Nat.mul_le_mul_left _ h1
  rw [e, Nat.testBit_two_pow_mul_add _ hlt, Nat.testBit_two_pow_mul_add _ (Nat.mod_lt _ (by positivity)),
    Nat.testBit_mod_two_pow, Nat.testBit_mod_two_pow, Nat.testBit_div_two_pow]
  by_cases h1 : i < hi + 1 <;> by_cases h2 : i < lo
  · simp [h1, h2, Nat.not_le.2 h2]
  · simp [h1, h2, Nat.le_of_lt_succ h1, Nat.not_lt.1 h2]; omega
  · omega
  · simp [h1, h2]
    rw [if_neg (by omega)]
    congr 1; omega

/-- The field just put reads as the value, cut to its width. -/
theorem getBits_putBits_same (x hi lo v : Nat) (h : lo ≤ hi) : getBits (putBits x hi lo v) hi lo = v % 2 ^ (hi - lo + 1) := by
  apply Nat.eq_of_testBit_eq
  intro i
  unfold getBits
  simp only [Nat.testBit_mod_two_pow, Nat.testBit_div_two_pow, testBit_putBits _ _ _ _ _ h]
  by_cases hi' : i < hi - lo + 1
  · simp only [hi', decide_true, Bool.true_and]
    rw [if_pos (by omega)]; congr 1; omega
  · simp [hi']

/-- A field apart from the one put reads as before. -/
theorem getBits_putBits_ne (x hi lo v hi' lo' : Nat) (h : lo ≤ hi) (h' : lo' ≤ hi') (hd : hi < lo' ∨ hi' < lo) :
    getBits (putBits x hi lo v) hi' lo' = getBits x hi' lo' := by
  apply Nat.eq_of_testBit_eq
  intro i
  unfold getBits
  simp only [Nat.testBit_mod_two_pow, Nat.testBit_div_two_pow, testBit_putBits _ _ _ _ _ h]
  by_cases hi' : i < hi' - lo' + 1
  · simp only [hi', decide_true, Bool.true_and]
    rw [if_neg (by omega)]
  · simp [hi']

theorem State.tget_tput_same (s : State) (pg : Nat) (t : Tab) (e : Nat) (f : TField) (v : Nat) (h : f.lo ≤ f.hi)
    (h2 : f.hi < 128 * t.rows) : (s.tput pg t e f v).tget pg t e f = v % 2 ^ (f.hi - f.lo + 1) := by
  unfold State.tget State.tput
  rw [State.entry_setEntry_same, getBits_mod _ _ _ _ h2 h, getBits_putBits_same _ _ _ _ h]

theorem State.tget_tput_ne (s : State) (pg : Nat) (t : Tab) (e : Nat) (f g : TField) (v : Nat) (h : f.lo ≤ f.hi) (h' : g.lo ≤ g.hi)
    (h2 : g.hi < 128 * t.rows) (hd : f.hi < g.lo ∨ g.hi < f.lo) : (s.tput pg t e f v).tget pg t e g = s.tget pg t e g := by
  unfold State.tget State.tput
  rw [State.entry_setEntry_same, getBits_mod _ _ _ _ h2 h', getBits_putBits_ne _ _ _ _ _ _ h h' hd]

theorem State.tget_tput_tab (s : State) (pg pg' : Nat) (t t' : Tab) (e e' : Nat) (f g : TField) (v : Nat)
    (h : t'.code % 256 ≠ t.code % 256) : (s.tput pg t e f v).tget pg' t' e' g = s.tget pg' t' e' g := by
  unfold State.tget State.tput
  rw [State.entry_setEntry_tab _ _ _ _ _ _ _ _ h]

@[simp] theorem State.rd_setEntry (s : State) (pg pg' : Nat) (t : Tab) (e v : Nat) (f : Field) :
    (s.setEntry pg t e v).rd pg' f = s.rd pg' f := by
  apply rd_congr <;> (unfold State.setEntry; dsimp only; split <;> rfl)

@[simp] theorem State.rd_tput (s : State) (pg pg' : Nat) (t : Tab) (e v : Nat) (g : TField) (f : Field) :
    (s.tput pg t e g v).rd pg' f = s.rd pg' f := State.rd_setEntry ..

@[simp] theorem State.entry_wr (s : State) (pg pg' : Nat) (t : Tab) (e v : Nat) (f : Field) :
    (s.wr pg f v).entry pg' t e = s.entry pg' t e := by
  apply entry_congr <;> (unfold State.wr; dsimp only; split <;> rfl)

@[simp] theorem State.tget_wr (s : State) (pg pg' : Nat) (t : Tab) (e v : Nat) (f : Field) (g : TField) :
    (s.wr pg f v).tget pg' t e g = s.tget pg' t e g := by
  unfold State.tget; rw [State.entry_wr]

/-! ### Events -/

theorem hasEvt_events {s t : State} (h : t.events = s.events) (pg k : Nat) : t.hasEvt pg k = s.hasEvt pg k := by
  unfold State.hasEvt; rw [h]

theorem Fr.hasEvt {M : Nat} {s t : State} (h : Fr M s t) (hM : M.testBit 13 = false) (pg k : Nat) : t.hasEvt pg k = s.hasEvt pg k :=
  hasEvt_events (h.events hM) pg k

theorem setPending_events (s : State) (pg : Nat) : (s.setPending pg).events = s.events := by
  unfold State.setPending
  cases pageInfo pg with
  | none => rfl
  | some i => dsimp only; (repeat' split) <;> rfl

theorem record_events (s : State) (pg k : Nat) : (s.record pg k).events = s.events.set {} pg { s.events.get {} pg with
    seq := ((s.events.get {} pg).seq + 1) % 2 ^ 32, evts := stampBit (s.events.get {} pg).evts k (((s.events.get {} pg).seq + 1) % 2 ^ 32) } := by
  unfold State.record
  dsimp only
  split
  · rfl
  · rw [setPending_events]

/-- The event just recorded stands. -/
@[simp] theorem hasEvt_record_same (s : State) (pg k : Nat) : (s.record pg k).hasEvt pg k = true := by
  unfold State.hasEvt
  rw [record_events, SMap.get_set_same]
  simp [stampBit]

/-- Recording clears no event. -/
theorem hasEvt_record (s : State) (pg k pg' k' : Nat) (h : s.hasEvt pg' k' = true) : (s.record pg k).hasEvt pg' k' = true := by
  unfold State.hasEvt at *
  rw [record_events]
  by_cases hp : pg' = pg
  · subst hp
    rw [SMap.get_set_same]
    by_cases hk : k' = k
    · subst hk; simp [stampBit]
    · simp only [List.any_eq_true, decide_eq_true_eq, stampBit] at *
      obtain ⟨e, he, hk'⟩ := h
      exact ⟨e, by simp [he, hk', hk], hk'⟩
  · rw [SMap.get_set_ne _ _ _ _ hp]; exact h

/-- The sequence number of a page rises by one with each recording (file 02, R57). -/
theorem seq_record (s : State) (pg k : Nat) : ((s.record pg k).events.get {} pg).seq = ((s.events.get {} pg).seq + 1) % 2 ^ 32 := by
  rw [record_events, SMap.get_set_same]

theorem hasEvt_ev (s : State) (pg k pg' k' : Nat) (h : s.hasEvt pg' k' = true) : (s.ev pg k).hasEvt pg' k' = true := by
  unfold State.ev
  split
  · split
    · exact hasEvt_record s pg k pg' k' h
    · exact h
  · exact hasEvt_record s pg k pg' k' h

/-- An event of an item stands on its page unless the page's region sends none. -/
theorem hasEvt_ev_same (s : State) (pg k : Nat) (h : ∀ r, pageRegion pg = some r → s.regionSpeaks r = true) : (s.ev pg k).hasEvt pg k = true := by
  unfold State.ev
  split
  · rename_i r hr; rw [if_pos (h r hr)]; exact hasEvt_record_same s pg k
  · exact hasEvt_record_same s pg k

/-- A page of no region, or of one that may record. -/
theorem hasEvt_ev_in (s : State) (pg k r : Nat) (hp : pageRegion pg = some r) (h : s.regionSpeaks r = true) : (s.ev pg k).hasEvt pg k = true :=
  hasEvt_ev_same s pg k (fun r' h' => by rw [hp] at h'; cases h'; exact h)

theorem hasEvt_ev_chip (s : State) (pg k : Nat) (hp : pageRegion pg = none) : (s.ev pg k).hasEvt pg k = true :=
  hasEvt_ev_same s pg k (fun r' h' => by rw [hp] at h'; cases h')

theorem setPending_rd (s : State) (pg pg' : Nat) (f : Field) : (s.setPending pg).rd pg' f = s.rd pg' f := by
  apply rd_congr <;>
  · unfold State.setPending
    cases pageInfo pg with
    | none => rfl
    | some i => dsimp only; (repeat' split) <;> rfl

@[simp] theorem State.rd_record (s : State) (pg k pg' : Nat) (f : Field) : (s.record pg k).rd pg' f = s.rd pg' f := by
  unfold State.record
  dsimp only
  split
  · rfl
  · rw [setPending_rd]; rfl

@[simp] theorem State.rd_ev (s : State) (pg k pg' : Nat) (f : Field) : (s.ev pg k).rd pg' f = s.rd pg' f := by
  unfold State.ev
  split
  · split
    · exact State.rd_record ..
    · rfl
  · exact State.rd_record ..

/-! ### The region of each page (file 02, R46) -/

theorem pageRegion_lln (n : Nat) (h : n < 256) : pageRegion (pgLln n) = some (laneRegion n) := by
  revert h; revert n; decide +kernel

theorem pageRegion_fec (n : Nat) (h : n < 256) : pageRegion (pgFec n) = some (laneRegion n) := by
  revert h; revert n; decide +kernel

theorem pageRegion_eth (n : Nat) (h : n < 256) : pageRegion (pgEth n) = some (laneRegion n) := by
  revert h; revert n; decide +kernel

theorem pageRegion_otu (d : Nat) (h : d < 1024) : pageRegion (pgOtu d) = some (sliceRegion d) := by
  revert h; revert d; decide +kernel

theorem pageRegion_odi (B : Nat) (h : B < 64) : pageRegion (pgOdi B) = some (B / 8) := by
  revert h; revert B; decide +kernel

theorem pageRegion_ode (B : Nat) (h : B < 64) : pageRegion (pgOde B) = some (B / 8) := by
  revert h; revert B; decide +kernel

theorem pageRegion_mpt (B : Nat) (h : B < 64) : pageRegion (pgMpt B) = some (B / 8) := by
  revert h; revert B; decide +kernel

theorem pageRegion_dmp (B : Nat) (h : B < 64) : pageRegion (pgDmp B) = some (B / 8) := by
  revert h; revert B; decide +kernel

theorem pageRegion_map (B : Nat) (h : B < 64) : pageRegion (pgMap B) = some (B / 8) := by
  revert h; revert B; decide +kernel

theorem pageRegion_rgn (r : Nat) (h : r < 8) : pageRegion (pgRgn r) = some (r) := by
  revert h; revert r; decide +kernel

theorem pageRegion_fyt (r : Nat) (h : r < 8) : pageRegion (pgFyt r) = some (r) := by
  revert h; revert r; decide +kernel

theorem pageRegion_fyr (r : Nat) (h : r < 8) : pageRegion (pgFyr r) = some (r) := by
  revert h; revert r; decide +kernel

theorem pageRegion_fyl (m : Nat) (h : m < 96) : pageRegion (pgFyl m) = some (m / 12) := by
  revert h; revert m; decide +kernel

theorem pageRegion_sel (r : Nat) (h : r < 8) : pageRegion (pgSel r) = some (r) := by
  revert h; revert r; decide +kernel

theorem pageRegion_ohq (r : Nat) (h : r < 8) : pageRegion (pgOhq r) = some (r) := by
  revert h; revert r; decide +kernel

theorem pageRegion_epi (r : Nat) (h : r < 8) : pageRegion (pgEpi r) = some (r) := by
  revert h; revert r; decide +kernel

theorem pageRegion_isl (r : Nat) (h : r < 8) : pageRegion (pgIsl r) = some (r) := by
  revert h; revert r; decide +kernel

/-! ### Reports -/

/-- A report that a unit raises fills its class's slot on its link (file 15, R507). -/
theorem reportOn_slot (s : State) (link cls level src : Nat) :
    ((s.reportOn link cls level src).slots.get {} (32 * link + cls)).n ≠ 0 := by
  unfold State.reportOn
  simp only [SMap.get_upd_same]
  split
  · simp
  · rename_i h; dsimp only; omega

@[simp] theorem State.rd_reportOn (s : State) (link cls level src pg : Nat) (f : Field) :
    (s.reportOn link cls level src).rd pg f = s.rd pg f := rfl

@[simp] theorem State.rd_report (s : State) (cls level src pg : Nat) (f : Field) : (s.report cls level src).rd pg f = s.rd pg f := by
  apply rd_congr <;> (unfold State.report; split <;> rfl)

end Sys2Proof.Machine
end

