-- ==== Sys2Proof/Laws/Answers.lean ====
section
/-! SUPPORT. More laws of registers, answers, outputs and events. -/

open Sys2Proof Sys2Proof.Machine
namespace Sys2Proof.Machine
@[simp] theorem hasErr_setErr (s : State) (pg k : Nat) : (s.setErr pg k).hasErr pg k = true := by
  unfold State.hasErr State.setErr
  dsimp only
  split <;> simp [setPending_events, SMap.get_set_same, stampBit]
theorem setErr_evts (s : State) (pg k : Nat) : ((s.setErr pg k).events.get {} pg).evts = (s.events.get {} pg).evts := by
  unfold State.setErr
  dsimp only
  split <;> simp [setPending_events, SMap.get_set_same]
theorem pageOwner_congr {s t : State} (h : ∀ pg, t.rd pg PAGE_OWNER_box = s.rd pg PAGE_OWNER_box)
    (w : t.wasVal false = s.wasVal false) (pg : Nat) : t.pageOwner pg = s.pageOwner pg := by
  unfold State.pageOwner; split <;> simp [h, w]
@[simp] theorem setErr_rd (s : State) (pg k pg' : Nat) (f : Field) : (s.setErr pg k).rd pg' f = s.rd pg' f := by
  unfold State.setErr
  dsimp only
  split
  · rfl
  · rw [setPending_rd]; rfl
theorem evtStatus_congr {s t : State} (h : t.events = s.events) (pg : Nat) : t.evtStatus pg = s.evtStatus pg := by
  unfold State.evtStatus; rw [h]
@[simp] theorem State.answer_reply (s : State) (c : Nat) (d : List Nat) : (s.answer c d).reply = some ⟨c, d⟩ := rfl
@[simp] theorem State.answer_rd (s : State) (c : Nat) (d : List Nat) (pg : Nat) (f : Field) : (s.answer c d).rd pg f = s.rd pg f := rfl
@[simp] theorem State.answer_rdb (s : State) (c : Nat) (d : List Nat) (pg : Nat) (f : Field) : (s.answer c d).rdb pg f = s.rdb pg f := rfl
@[simp] theorem State.answer_entry (s : State) (c : Nat) (d : List Nat) (pg : Nat) (t : Tab) (e : Nat) : (s.answer c d).entry pg t e = s.entry pg t e := rfl
@[simp] theorem State.answer_tget (s : State) (c : Nat) (d : List Nat) (pg : Nat) (t : Tab) (e : Nat) (f : TField) : (s.answer c d).tget pg t e f = s.tget pg t e f := rfl
@[simp] theorem State.answer_tgetb (s : State) (c : Nat) (d : List Nat) (pg : Nat) (t : Tab) (e : Nat) (f : TField) : (s.answer c d).tgetb pg t e f = s.tgetb pg t e f := rfl
@[simp] theorem State.answer_hasEvt (s : State) (c : Nat) (d : List Nat) (pg k : Nat) : (s.answer c d).hasEvt pg k = s.hasEvt pg k := rfl
@[simp] theorem State.answer_hasErr (s : State) (c : Nat) (d : List Nat) (pg k : Nat) : (s.answer c d).hasErr pg k = s.hasErr pg k := rfl
@[simp] theorem State.answer_pageOwner (s : State) (c : Nat) (d : List Nat) (pg : Nat) : (s.answer c d).pageOwner pg = s.pageOwner pg := rfl
@[simp] theorem State.answer_evtStatus (s : State) (c : Nat) (d : List Nat) (pg : Nat) : (s.answer c d).evtStatus pg = s.evtStatus pg := rfl
@[simp] theorem State.answer_stagedEntry (s : State) (c : Nat) (d : List Nat) (pg : Nat) (t : Tab) (e : Nat) : (s.answer c d).stagedEntry pg t e = s.stagedEntry pg t e := rfl
@[simp] theorem State.answer_region (s : State) (c : Nat) (d : List Nat) (r : Nat) : (s.answer c d).region r = s.region r := rfl
@[simp] theorem State.answer_datapath (s : State) (c : Nat) (d : List Nat) (r : Nat) : (s.answer c d).datapath r = s.datapath r := rfl
@[simp] theorem State.emit_rd (s : State) (o : Out) (pg : Nat) (f : Field) : (s.emit o).rd pg f = s.rd pg f := rfl
@[simp] theorem State.emit_rdb (s : State) (o : Out) (pg : Nat) (f : Field) : (s.emit o).rdb pg f = s.rdb pg f := rfl
@[simp] theorem State.emit_entry (s : State) (o : Out) (pg : Nat) (t : Tab) (e : Nat) : (s.emit o).entry pg t e = s.entry pg t e := rfl
@[simp] theorem State.emit_tget (s : State) (o : Out) (pg : Nat) (t : Tab) (e : Nat) (f : TField) : (s.emit o).tget pg t e f = s.tget pg t e f := rfl
@[simp] theorem State.emit_tgetb (s : State) (o : Out) (pg : Nat) (t : Tab) (e : Nat) (f : TField) : (s.emit o).tgetb pg t e f = s.tgetb pg t e f := rfl
@[simp] theorem State.emit_hasEvt (s : State) (o : Out) (pg k : Nat) : (s.emit o).hasEvt pg k = s.hasEvt pg k := rfl
@[simp] theorem State.emit_hasErr (s : State) (o : Out) (pg k : Nat) : (s.emit o).hasErr pg k = s.hasErr pg k := rfl
@[simp] theorem State.emit_pageOwner (s : State) (o : Out) (pg : Nat) : (s.emit o).pageOwner pg = s.pageOwner pg := rfl
@[simp] theorem State.emit_evtStatus (s : State) (o : Out) (pg : Nat) : (s.emit o).evtStatus pg = s.evtStatus pg := rfl
@[simp] theorem State.emit_stagedEntry (s : State) (o : Out) (pg : Nat) (t : Tab) (e : Nat) : (s.emit o).stagedEntry pg t e = s.stagedEntry pg t e := rfl
@[simp] theorem State.emit_region (s : State) (o : Out) (r : Nat) : (s.emit o).region r = s.region r := rfl
@[simp] theorem State.emit_datapath (s : State) (o : Out) (r : Nat) : (s.emit o).datapath r = s.datapath r := rfl
@[simp] theorem State.emit_out (s : State) (o : Out) : (s.emit o).out = s.out ++ [o] := rfl
@[simp] theorem State.regionSpeaks_ev (s : State) (pg k r : Nat) : (s.ev pg k).regionSpeaks r = s.regionSpeaks r := by
  unfold State.regionSpeaks State.region; rw [State.rd_ev]
/-- EVT_FORCE records every forced event of a page that may record (file 02, R57). -/
theorem forceEvents_has (s : State) (pg v k : Nat) (hk : k < 31) (hb : bit v k = true)
    (h : ∀ r, pageRegion pg = some r → s.regionSpeaks r = true) : (s.forceEvents pg v).hasEvt pg k = true := by
  unfold State.forceEvents
  have hm : k ∈ (List.range 31).filter (bit v) := by simp [hk, hb]
  have gen : ∀ (l : List Nat) (s : State), (∀ r, pageRegion pg = some r → s.regionSpeaks r = true) → (s.hasEvt pg k = true ∨ k ∈ l) →
      (s.each l (fun s k => s.ev pg k)).hasEvt pg k = true := by
    intro l
    induction l with
    | nil => intro s _ h; simpa [State.each] using h
    | cons a l ih =>
      intro s hs h
      show ((s.ev pg a).each l _).hasEvt pg k = true
      apply ih
      · intro r hr; simpa using hs r hr
      · rcases h with h | h
        · exact .inl (hasEvt_ev _ _ _ _ _ h)
        · rcases List.mem_cons.1 h with h | h
          · subst h; exact .inl (hasEvt_ev_same _ _ _ hs)
          · exact .inr h
  exact gen _ _ h (.inr hm)
end Sys2Proof.Machine
end

