-- ==== Sys2Proof/Laws/FrameBase.lean ====
section
/-! SUPPORT. What each operation of Ops, Access, Items, Legs, ModeOps may change: one law per operation, by the masks of Laws/State.lean. -/

namespace Sys2Proof.Machine

open Sys2Proof

set_option Elab.async false
set_option linter.all false

def fm_fresh : Nat := 2 ^ 1 ||| 2 ^ 2
theorem State.fresh_fr {M s0} (s : State) (hM : MaskLe fm_fresh M) (hs : Fr M s0 s) : Fr M s0 (State.fresh s) := by
  unfold State.fresh
  repeat' first
    | with_reducible first | assumption
    | exact MaskLe.trans (by decide +kernel) hM
    | (with_reducible refine fr_mk_out_reply (MaskLe.trans (by decide +kernel) hM) ?_; first | with_reducible assumption)
    | dsimp -zeta only
def fm_emit : Nat := 2 ^ 1
theorem State.emit_fr {M s0} (s : State) (o : Out) (hM : MaskLe fm_emit M) (hs : Fr M s0 s) : Fr M s0 (State.emit s o) := by
  unfold State.emit
  repeat' first
    | with_reducible first | assumption
    | exact MaskLe.trans (by decide +kernel) hM
    | (with_reducible refine fr_mk_out (MaskLe.trans (by decide +kernel) hM) ?_; first | with_reducible assumption)
    | dsimp -zeta only
def fm_answer : Nat := 2 ^ 2
theorem State.answer_fr {M s0} (s : State) (status : Nat) (data : List Nat) (hM : MaskLe fm_answer M) (hs : Fr M s0 s) : Fr M s0 (State.answer s status data) := by
  unfold State.answer
  repeat' first
    | with_reducible first | assumption
    | exact MaskLe.trans (by decide +kernel) hM
    | (with_reducible refine fr_mk_reply (MaskLe.trans (by decide +kernel) hM) ?_; first | with_reducible assumption)
    | dsimp -zeta only
theorem State.wr_fr {M s0} (s : State) (pg : Nat) (f : Field) (v : Nat) (hf_f : MaskLe (mFld f) M) (hs : Fr M s0 s) : Fr M s0 (State.wr s pg f v) := by
  have key : ∀ (m : SMap Nat) (v d k : Nat), M.testBit (512 + k % 8192) = false → (m.set f.reset (fkey pg f) v).get d k = m.get d k := by
    intro m v d k hk
    refine SMap.get_set_ne _ _ _ _ (fun e => ?_)
    subst e
    have e : 512 + fkey pg f % 8192 = 512 + (f.off * 8 + f.lo) % 8192 := by unfold fkey; omega
    rw [e] at hk
    exact absurd (hf_f.bit hk) (by rw [mFld, Nat.testBit_two_pow_self]; decide)
  unfold State.wr
  dsimp only
  split
  · exact { hs with
      regs := fun d k hk => (key _ _ _ _ hk).trans (hs.regs d k hk)
      regsB := fun d k hk => (key _ _ _ _ hk).trans (hs.regsB d k hk)
      regsC := fun d k hk => (key _ _ _ _ hk).trans (hs.regsC d k hk) }
  · exact { hs with regs := fun d k hk => (key _ _ _ _ hk).trans (hs.regs d k hk) }
theorem State.wrb_fr {M s0} (s : State) (pg : Nat) (f : Field) (b : Bool) (hf_f : MaskLe (mFld f) M) (hs : Fr M s0 s) : Fr M s0 (State.wrb s pg f b) := by
  unfold State.wrb
  repeat' first
    | with_reducible first | assumption | apply State.wr_fr
    | dsimp -zeta only
theorem State.count_fr {M s0} (s : State) (pg : Nat) (f : Field) (n : Nat) (hf_f : MaskLe (mFld f) M) (hs : Fr M s0 s) : Fr M s0 (State.count s pg f n) := by
  unfold State.count
  repeat' first
    | with_reducible first | assumption | apply State.wr_fr
    | dsimp -zeta only
theorem State.countSat_fr {M s0} (s : State) (pg : Nat) (f : Field) (n : Nat) (hf_f : MaskLe (mFld f) M) (hs : Fr M s0 s) : Fr M s0 (State.countSat s pg f n) := by
  unfold State.countSat
  repeat' first
    | with_reducible first | assumption | apply State.wr_fr
    | dsimp -zeta only
def fm_latchHi : Nat := mAll_shadowF
theorem State.latchHi_fr {M s0} (s : State) (rq loOff hi : Nat) (hM : MaskLe fm_latchHi M) (hs : Fr M s0 s) : Fr M s0 (State.latchHi s rq loOff hi) := by
  unfold State.latchHi
  repeat' first
    | with_reducible first | assumption | apply State.wr_fr
    | exact MaskLe.trans (by decide +kernel) hM
    | (with_reducible refine MaskLe.trans (shadowF_mem _) ?_; exact MaskLe.trans (by decide +kernel) hM)
    | dsimp -zeta only
theorem State.setEntry_fr {M s0} (s : State) (pg : Nat) (t : Tab) (e v : Nat) (ht_t : MaskLe (mTab t) M) (hs : Fr M s0 s) : Fr M s0 (State.setEntry s pg t e v) := by
  have key : ∀ (m : SMap Nat) (v d k : Nat), M.testBit (128 + k / 2 ^ 24 % 256) = false → (m.set (t.resetEntry e) (tkey pg t e) v).get d k = m.get d k := by
    intro m v d k hk
    refine SMap.get_set_ne _ _ _ _ (fun e' => ?_)
    subst e'
    have e1 : 128 + tkey pg t e / 2 ^ 24 % 256 = 128 + t.code % 256 := by unfold tkey; omega
    rw [e1] at hk
    exact absurd (ht_t.bit hk) (by rw [mTab, Nat.testBit_two_pow_self]; decide)
  unfold State.setEntry
  dsimp only
  split
  · exact { hs with
      tabs := fun d k hk => (key _ _ _ _ hk).trans (hs.tabs d k hk)
      tabsB := fun d k hk => (key _ _ _ _ hk).trans (hs.tabsB d k hk)
      tabsC := fun d k hk => (key _ _ _ _ hk).trans (hs.tabsC d k hk) }
  · exact { hs with tabs := fun d k hk => (key _ _ _ _ hk).trans (hs.tabs d k hk) }
def fm_setStaged : Nat := 2 ^ 11
theorem State.setStaged_fr {M s0} (s : State) (pg : Nat) (t : Tab) (e v : Nat) (hM : MaskLe fm_setStaged M) (hs : Fr M s0 s) : Fr M s0 (State.setStaged s pg t e v) := by
  unfold State.setStaged
  repeat' first
    | with_reducible first | assumption
    | exact MaskLe.trans (by decide +kernel) hM
    | (with_reducible refine fr_mk_staged (MaskLe.trans (by decide +kernel) hM) ?_; first | with_reducible assumption)
    | dsimp -zeta only
theorem State.tput_fr {M s0} (s : State) (pg : Nat) (t : Tab) (e : Nat) (f : TField) (v : Nat) (ht_t : MaskLe (mTab t) M) (hs : Fr M s0 s) : Fr M s0 (State.tput s pg t e f v) := by
  unfold State.tput
  repeat' first
    | with_reducible first | assumption | apply State.setEntry_fr
    | dsimp -zeta only
theorem State.tputb_fr {M s0} (s : State) (pg : Nat) (t : Tab) (e : Nat) (f : TField) (b : Bool) (ht_t : MaskLe (mTab t) M) (hs : Fr M s0 s) : Fr M s0 (State.tputb s pg t e f b) := by
  unfold State.tputb
  repeat' first
    | with_reducible first | assumption | apply State.tput_fr
    | dsimp -zeta only
theorem State.tcount_fr {M s0} (s : State) (pg : Nat) (t : Tab) (e : Nat) (f : TField) (n : Nat) (ht_t : MaskLe (mTab t) M) (hs : Fr M s0 s) : Fr M s0 (State.tcount s pg t e f n) := by
  unfold State.tcount
  repeat' first
    | with_reducible first | assumption | apply State.tput_fr
    | dsimp -zeta only
theorem State.tcountSat_fr {M s0} (s : State) (pg : Nat) (t : Tab) (e : Nat) (f : TField) (n : Nat) (ht_t : MaskLe (mTab t) M) (hs : Fr M s0 s) : Fr M s0 (State.tcountSat s pg t e f n) := by
  unfold State.tcountSat
  repeat' first
    | with_reducible first | assumption | apply State.tput_fr
    | dsimp -zeta only
def fm_free : Nat := 2 ^ 3
theorem State.free_fr {M s0} (s : State) (w : Nat) (hM : MaskLe fm_free M) (hs : Fr M s0 s) : Fr M s0 (State.free s w).2 := by
  exact { hs with
    freeCtr := fun c => absurd (hM.bit c) (by decide +kernel)
    kFree := fun m => Nat.le_trans (hs.kFree m) (Nat.le_succ _) }
def fm_divFree : Nat := fm_free
theorem State.divFree_fr {M s0} (s : State) (a : Int) (b : Nat) (hM : MaskLe fm_divFree M) (hs : Fr M s0 s) : Fr M s0 (State.divFree s a b).2 := by
  unfold State.divFree; by_cases hc : a % b = 0
  · rw [if_pos hc]; exact hs
  · rw [if_neg hc]; exact State.free_fr s 1 hM hs
def fm_keepWas : Nat := 2 ^ 87
theorem State.keepWas_fr {M s0} (s : State) (tab : Bool) (k v : Nat) (hM : MaskLe fm_keepWas M) (hs : Fr M s0 s) : Fr M s0 (State.keepWas s tab k v) := by
  unfold State.keepWas
  repeat' first
    | with_reducible first | assumption | apply fr_ite
    | exact MaskLe.trans (by decide +kernel) hM
    | (with_reducible refine fr_mk_hst (MaskLe.trans (by decide +kernel) hM) ?_; first | with_reducible assumption)
    | split
    | dsimp -zeta only
def fm_setPending : Nat := 2 ^ 25
theorem State.setPending_fr {M s0} (s : State) (pg : Nat) (hM : MaskLe fm_setPending M) (hs : Fr M s0 s) : Fr M s0 (State.setPending s pg) := by
  unfold State.setPending
  cases pageInfo pg with
  | none => exact hs
  | some i => exact fr_ite (fr_mk_vecs hM hs) hs
def fm_record : Nat := 2 ^ 13 ||| fm_setPending
theorem State.record_fr {M s0} (s : State) (pg k : Nat) (hM : MaskLe fm_record M) (hs : Fr M s0 s) : Fr M s0 (State.record s pg k) := by
  unfold State.record
  dsimp only
  have h1 := fr_evts (M := M) (pg := pg) (e := { s.events.get {} pg with seq := ((s.events.get {} pg).seq + 1) % 2 ^ 32, evts := stampBit (s.events.get {} pg).evts k (((s.events.get {} pg).seq + 1) % 2 ^ 32) }) (MaskLe.trans (by decide +kernel) hM) hs (fun k' h => stampBit_any _ _ _ _ h)
  exact fr_ite h1 (State.setPending_fr _ _ (MaskLe.trans (by decide +kernel) hM) h1)
def fm_unrecord : Nat := 2 ^ 13 ||| 2 ^ 400
theorem State.unrecord_fr {M s0} (s : State) (pg k : Nat) (hM : MaskLe fm_unrecord M) (hs : Fr M s0 s) : Fr M s0 (State.unrecord s pg k) := by
  unfold State.unrecord
  repeat' first
    | (intro x)
    | with_reducible first | assumption
    | exact MaskLe.trans (by decide +kernel) hM
    | (with_reducible refine fr_mk_events (MaskLe.trans (by decide +kernel) hM) ?_; first | with_reducible assumption)
    | with_reducible apply fr_pair
    | dsimp -zeta only
def fm_setErr : Nat := 2 ^ 13 ||| fm_setPending
theorem State.setErr_fr {M s0} (s : State) (pg k : Nat) (hM : MaskLe fm_setErr M) (hs : Fr M s0 s) : Fr M s0 (State.setErr s pg k) := by
  unfold State.setErr
  dsimp only
  have h1 := fr_evts (M := M) (pg := pg) (e := { s.events.get {} pg with seq := ((s.events.get {} pg).seq + 1) % 2 ^ 32, errs := stampBit (s.events.get {} pg).errs k (((s.events.get {} pg).seq + 1) % 2 ^ 32) }) (MaskLe.trans (by decide +kernel) hM) hs (fun k' h => h)
  exact fr_ite h1 (State.setPending_fr _ _ (MaskLe.trans (by decide +kernel) hM) h1)
def fm_reportOn : Nat := 2 ^ 16
theorem State.reportOn_fr {M s0} (s : State) (link cls level src : Nat) (hM : MaskLe fm_reportOn M) (hs : Fr M s0 s) : Fr M s0 (State.reportOn s link cls level src) := by
  unfold State.reportOn
  repeat' first
    | (intro x)
    | with_reducible first | assumption | apply fr_ite
    | exact MaskLe.trans (by decide +kernel) hM
    | (with_reducible refine fr_mk_slots (MaskLe.trans (by decide +kernel) hM) ?_; first | with_reducible assumption)
    | with_reducible apply fr_pair
    | split
    | dsimp -zeta only
def fm_report : Nat := fm_reportOn
theorem State.report_fr {M s0} (s : State) (cls level src : Nat) (hM : MaskLe fm_report M) (hs : Fr M s0 s) : Fr M s0 (State.report s cls level src) := by
  unfold State.report
  repeat' first
    | with_reducible first | assumption | apply State.reportOn_fr | apply fr_ite
    | exact MaskLe.trans (by decide +kernel) hM
    | split
    | dsimp -zeta only
def fm_logShow : Nat := mFld LOG_STATUS_queue ||| mFld LOG_STATUS_coalescing ||| fm_record
theorem State.logShow_fr {M s0} (s : State) (hM : MaskLe fm_logShow M) (hs : Fr M s0 s) : Fr M s0 (State.logShow s) := by
  unfold State.logShow
  repeat' first
    | with_reducible first | assumption | apply State.wr_fr | apply State.record_fr | apply State.wrb_fr | apply fr_ite
    | (extract_lets +onlyGivenNames x; refine fr_cut x ?_ ?_; (on_goal 2 => dsimp only [x]); (on_goal 1 => clear_value x; intro hx))
    | (extract_lets +onlyGivenNames x; fail_if_success (have : State := x); clear_value x)
    | exact MaskLe.trans (by decide +kernel) hM
    | split
    | dsimp -zeta only
def fm_logRec : Nat := 2 ^ 19 ||| 2 ^ 20 ||| fm_logShow
theorem State.logRec_fr {M s0} (s : State) (typ cls src payload : Nat) (hM : MaskLe fm_logRec M) (hs : Fr M s0 s) : Fr M s0 (State.logRec s typ cls src payload) := by
  unfold State.logRec
  extract_lets r
  split
  · rename_i c
    exact State.logShow_fr _ (MaskLe.trans (by decide +kernel) hM) (fr_logQ (MaskLe.trans (by decide +kernel) hM) hs (fun _ => by rw [List.length_append]; have := c.1; simp; omega))
  · exact fr_mk_logHeld (MaskLe.trans (by decide +kernel) hM) hs
def fm_busError : Nat := mAll_BXM_ERR_CNT ||| fm_report
theorem State.busError_fr {M s0} (s : State) (w : Who) (code : Nat) (hM : MaskLe fm_busError M) (hs : Fr M s0 s) : Fr M s0 (State.busError s w code) := by
  unfold State.busError
  repeat' first
    | with_reducible first | assumption | apply State.count_fr | apply State.report_fr | apply fr_ite
    | (extract_lets +onlyGivenNames x; refine fr_cut x ?_ ?_; (on_goal 2 => dsimp only [x]); (on_goal 1 => clear_value x; intro hx))
    | (extract_lets +onlyGivenNames x; fail_if_success (have : State := x); clear_value x)
    | exact MaskLe.trans (by decide +kernel) hM
    | (with_reducible refine MaskLe.trans (BXM_ERR_CNT_mem _) ?_; exact MaskLe.trans (by decide +kernel) hM)
    | split
    | dsimp -zeta only
def fm_via : Nat := fm_answer ||| fm_busError
theorem State.via_fr {M s0} (s : State) (w : Who) (pg : Nat) (write : Bool) (f : State → State) (hM : MaskLe fm_via M) (k_f : ∀ s, Fr M s0 s → Fr M s0 (f s)) (hs : Fr M s0 s) : Fr M s0 (State.via s w pg write f) := by
  unfold State.via
  repeat' first
    | with_reducible first | assumption | apply State.answer_fr | apply State.busError_fr | apply k_f | apply fr_ite
    | (extract_lets +onlyGivenNames x; refine fr_cut x ?_ ?_; (on_goal 2 => dsimp only [x]); (on_goal 1 => clear_value x; intro hx))
    | (extract_lets +onlyGivenNames x; fail_if_success (have : State := x); clear_value x)
    | exact MaskLe.trans (by decide +kernel) hM
    | split
    | dsimp -zeta only
def fm_adoptEntry : Nat := 2 ^ 31
theorem State.adoptEntry_fr {M s0} (s : State) (pg : Nat) (t : Tab) (e : Nat) (hM : MaskLe fm_adoptEntry M) (hs : Fr M s0 s) : Fr M s0 (State.adoptEntry s pg t e) := by
  unfold State.adoptEntry
  repeat' first
    | with_reducible first | assumption
    | exact MaskLe.trans (by decide +kernel) hM
    | (with_reducible refine fr_mk_live (MaskLe.trans (by decide +kernel) hM) ?_; first | with_reducible assumption)
    | dsimp -zeta only
def fm_ev : Nat := fm_record
theorem State.ev_fr {M s0} (s : State) (pg k : Nat) (hM : MaskLe fm_ev M) (hs : Fr M s0 s) : Fr M s0 (State.ev s pg k) := by
  unfold State.ev
  repeat' first
    | with_reducible first | assumption | apply State.record_fr | apply fr_ite
    | exact MaskLe.trans (by decide +kernel) hM
    | with_reducible apply fr_pair
    | split
    | dsimp -zeta only
def fm_evWhen : Nat := fm_ev
theorem State.evWhen_fr {M s0} (s : State) (c : Bool) (pg k : Nat) (hM : MaskLe fm_evWhen M) (hs : Fr M s0 s) : Fr M s0 (State.evWhen s c pg k) := by
  unfold State.evWhen
  repeat' first
    | with_reducible first | assumption | apply State.ev_fr | apply fr_ite
    | exact MaskLe.trans (by decide +kernel) hM
    | split
    | dsimp -zeta only
def fm_wrbEv : Nat := fm_ev
theorem State.wrbEv_fr {M s0} (s : State) (pg : Nat) (f : Field) (b : Bool) (k : Nat) (hM : MaskLe fm_wrbEv M) (hf_f : MaskLe (mFld f) M) (hs : Fr M s0 s) : Fr M s0 (State.wrbEv s pg f b k) := by
  unfold State.wrbEv
  repeat' first
    | with_reducible first | assumption | apply State.ev_fr | apply State.wrb_fr | apply fr_ite
    | exact MaskLe.trans (by decide +kernel) hM
    | split
    | dsimp -zeta only
def fm_alarmMoved : Nat := fm_ev
theorem State.alarmMoved_fr {M s0} (s : State) (p : Nat) (point : Bool) (src k : Nat) (hM : MaskLe fm_alarmMoved M) (hs : Fr M s0 s) : Fr M s0 (State.alarmMoved s p point src k) := by
  unfold State.alarmMoved
  repeat' first
    | with_reducible first | assumption | apply State.ev_fr | apply fr_ite
    | exact MaskLe.trans (by decide +kernel) hM
    | split
    | dsimp -zeta only
def fm_epiShow : Nat := mFld EPI_OCC_occupancy
theorem State.epiShow_fr {M s0} (s : State) (r : Nat) (hM : MaskLe fm_epiShow M) (hs : Fr M s0 s) : Fr M s0 (State.epiShow s r) := by
  unfold State.epiShow
  repeat' first
    | with_reducible first | assumption | apply State.wr_fr
    | exact MaskLe.trans (by decide +kernel) hM
    | dsimp -zeta only
def fm_epiOpen : Nat := mTab T_EPI_OPEN ||| mFld EPI_NEXT_ID_id ||| mFld EPI_STATUS_tracked
theorem State.epiOpen_fr {M s0} (s : State) (r : Nat) (c : EpiChange) (t : Stamp) (late : Bool) (hM : MaskLe fm_epiOpen M) (hs : Fr M s0 s) : Fr M s0 (State.epiOpen s r c t late) := by
  unfold State.epiOpen
  repeat' first
    | with_reducible first | assumption | apply State.setEntry_fr | apply State.wr_fr
    | (extract_lets +onlyGivenNames x; refine fr_cut x ?_ ?_; (on_goal 2 => dsimp only [x]); (on_goal 1 => clear_value x; intro hx))
    | (extract_lets +onlyGivenNames x; fail_if_success (have : State := x); clear_value x)
    | exact MaskLe.trans (by decide +kernel) hM
    | dsimp -zeta only
def fm_epiClose : Nat := mTab T_EPI_OPEN ||| mFld EPI_STATUS_tracked ||| fm_logRec
theorem State.epiClose_fr {M s0} (s : State) (r e : Nat) (t : Stamp) (deconf : Bool) (hM : MaskLe fm_epiClose M) (hs : Fr M s0 s) : Fr M s0 (State.epiClose s r e t deconf) := by
  unfold State.epiClose
  repeat' first
    | with_reducible first | assumption | apply State.logRec_fr | apply State.setEntry_fr | apply State.wr_fr
    | (extract_lets +onlyGivenNames x; refine fr_cut x ?_ ?_; (on_goal 2 => dsimp only [x]); (on_goal 1 => clear_value x; intro hx))
    | (extract_lets +onlyGivenNames x; fail_if_success (have : State := x); clear_value x)
    | exact MaskLe.trans (by decide +kernel) hM
    | dsimp -zeta only
def fm_epiLooseOn : Nat := mTab T_EPI_AGG ||| 2 ^ 34
theorem State.epiLooseOn_fr {M s0} (s : State) (r : Nat) (c : EpiChange) (hM : MaskLe fm_epiLooseOn M) (hs : Fr M s0 s) : Fr M s0 (State.epiLooseOn s r c) := by
  unfold State.epiLooseOn
  repeat' first
    | (intro x)
    | with_reducible first | assumption | apply State.tcount_fr
    | (extract_lets +onlyGivenNames x; refine fr_cut x ?_ ?_; (on_goal 2 => dsimp only [x]); (on_goal 1 => clear_value x; intro hx))
    | (extract_lets +onlyGivenNames x; fail_if_success (have : State := x); clear_value x)
    | exact MaskLe.trans (by decide +kernel) hM
    | (with_reducible refine fr_mk_epi (MaskLe.trans (by decide +kernel) hM) ?_; first | with_reducible assumption | with_reducible apply State.tcount_fr)
    | with_reducible apply fr_pair
    | dsimp -zeta only
def fm_epiLooseOff : Nat := mTab T_EPI_AGG ||| 2 ^ 34
theorem State.epiLooseOff_fr {M s0} (s : State) (r : Nat) (c : EpiChange) (hM : MaskLe fm_epiLooseOff M) (hs : Fr M s0 s) : Fr M s0 (State.epiLooseOff s r c) := by
  unfold State.epiLooseOff
  repeat' first
    | (intro x)
    | with_reducible first | assumption | apply State.tput_fr | apply State.tcount_fr
    | (extract_lets +onlyGivenNames x; refine fr_cut x ?_ ?_; (on_goal 2 => dsimp only [x]); (on_goal 1 => clear_value x; intro hx))
    | (extract_lets +onlyGivenNames x; fail_if_success (have : State := x); clear_value x)
    | exact MaskLe.trans (by decide +kernel) hM
    | (with_reducible refine fr_mk_epi (MaskLe.trans (by decide +kernel) hM) ?_; first | with_reducible assumption | with_reducible apply State.tput_fr | with_reducible apply State.tcount_fr)
    | with_reducible apply fr_pair
    | dsimp -zeta only
def fm_epiAggOn : Nat := mFld EPI_STATUS_aggregated ||| mFld EPI_AGG_ENTRIES_count ||| fm_ev ||| fm_logRec
theorem State.epiAggOn_fr {M s0} (s : State) (r : Nat) (hM : MaskLe fm_epiAggOn M) (hs : Fr M s0 s) : Fr M s0 (State.epiAggOn s r) := by
  unfold State.epiAggOn
  repeat' first
    | with_reducible first | assumption | apply State.wrb_fr | apply State.count_fr | apply State.ev_fr | apply State.logRec_fr
    | (extract_lets +onlyGivenNames x; refine fr_cut x ?_ ?_; (on_goal 2 => dsimp only [x]); (on_goal 1 => clear_value x; intro hx))
    | (extract_lets +onlyGivenNames x; fail_if_success (have : State := x); clear_value x)
    | exact MaskLe.trans (by decide +kernel) hM
    | dsimp -zeta only
def fm_epiApply : Nat := fm_alarmMoved ||| fm_epiLooseOn ||| fm_epiAggOn ||| fm_ev ||| fm_epiOpen ||| fm_epiClose ||| fm_epiLooseOff ||| fm_epiShow
theorem State.epiApply_fr {M s0} (s : State) (r : Nat) (c : EpiChange) (hM : MaskLe fm_epiApply M) (hs : Fr M s0 s) : Fr M s0 (State.epiApply s r c) := by
  unfold State.epiApply
  repeat' first
    | (intro x)
    | with_reducible first | assumption | apply State.alarmMoved_fr | apply State.epiLooseOn_fr | apply State.epiAggOn_fr | apply State.ev_fr | apply State.epiOpen_fr | apply State.epiClose_fr | apply State.epiLooseOff_fr | apply State.epiShow_fr | apply fr_ite
    | (extract_lets +onlyGivenNames x; refine fr_cut x ?_ ?_; (on_goal 2 => dsimp only [x]); (on_goal 1 => clear_value x; intro hx))
    | (extract_lets +onlyGivenNames x; fail_if_success (have : State := x); clear_value x)
    | exact MaskLe.trans (by decide +kernel) hM
    | with_reducible apply fr_pair
    | split
    | dsimp -zeta only
def fm_epiDiscard : Nat := 2 ^ 34
theorem State.epiDiscard_fr {M s0} (s : State) (r : Nat) (p : EpiChange → Bool) (hM : MaskLe fm_epiDiscard M) (hs : Fr M s0 s) : Fr M s0 (State.epiDiscard s r p) := by
  unfold State.epiDiscard
  repeat' first
    | (intro x)
    | with_reducible first | assumption
    | exact MaskLe.trans (by decide +kernel) hM
    | (with_reducible refine fr_mk_epi (MaskLe.trans (by decide +kernel) hM) ?_; first | with_reducible assumption)
    | with_reducible apply fr_pair
    | dsimp -zeta only
def fm_epiBoundary : Nat := 2 ^ 34 ||| fm_epiDiscard
theorem State.epiBoundary_fr {M s0} (s : State) (r : Nat) (p : EpiChange → Bool) (hM : MaskLe fm_epiBoundary M) (hs : Fr M s0 s) : Fr M s0 (State.epiBoundary s r p) := by
  unfold State.epiBoundary
  repeat' first
    | (intro x)
    | with_reducible first | assumption | apply State.epiDiscard_fr | apply fr_ite
    | (extract_lets +onlyGivenNames x; refine fr_cut x ?_ ?_; (on_goal 2 => dsimp only [x]); (on_goal 1 => clear_value x; intro hx))
    | (extract_lets +onlyGivenNames x; fail_if_success (have : State := x); clear_value x)
    | exact MaskLe.trans (by decide +kernel) hM
    | (with_reducible refine fr_mk_epi (MaskLe.trans (by decide +kernel) hM) ?_; first | with_reducible assumption | with_reducible apply State.epiDiscard_fr)
    | with_reducible apply fr_pair
    | split
    | dsimp -zeta only
def fm_epiPush : Nat := 2 ^ 34 ||| fm_epiAggOn ||| fm_epiApply
theorem State.epiPush_fr {M s0} (s : State) (r : Nat) (point : Bool) (src kind : Nat) (on deconf : Bool) (hM : MaskLe fm_epiPush M) (hs : Fr M s0 s) : Fr M s0 (State.epiPush s r point src kind on deconf) := by
  unfold State.epiPush
  repeat' first
    | (intro x)
    | with_reducible first | assumption | apply State.epiAggOn_fr | apply State.epiApply_fr | apply fr_ite
    | (extract_lets +onlyGivenNames x; refine fr_cut x ?_ ?_; (on_goal 2 => dsimp only [x]); (on_goal 1 => clear_value x; intro hx))
    | (extract_lets +onlyGivenNames x; fail_if_success (have : State := x); clear_value x)
    | exact MaskLe.trans (by decide +kernel) hM
    | (with_reducible refine fr_mk_epi (MaskLe.trans (by decide +kernel) hM) ?_; first | with_reducible assumption | with_reducible apply State.epiAggOn_fr | with_reducible apply State.epiApply_fr)
    | with_reducible apply fr_pair
    | split
    | dsimp -zeta only
def fm_setSlice : Nat := 2 ^ 35
theorem State.setSlice_fr {M s0} (s : State) (d : Nat) (f : Slice → Slice) (hM : MaskLe fm_setSlice M) (hs : Fr M s0 s) : Fr M s0 (State.setSlice s d f) := by
  unfold State.setSlice
  repeat' first
    | with_reducible first | assumption
    | exact MaskLe.trans (by decide +kernel) hM
    | (with_reducible refine fr_mk_slices (MaskLe.trans (by decide +kernel) hM) ?_; first | with_reducible assumption)
    | dsimp -zeta only
def fm_setPoint : Nat := 2 ^ 36
theorem State.setPoint_fr {M s0} (s : State) (m : Nat) (f : Point → Point) (hM : MaskLe fm_setPoint M) (hs : Fr M s0 s) : Fr M s0 (State.setPoint s m f) := by
  unfold State.setPoint
  repeat' first
    | with_reducible first | assumption
    | exact MaskLe.trans (by decide +kernel) hM
    | (with_reducible refine fr_mk_points (MaskLe.trans (by decide +kernel) hM) ?_; first | with_reducible assumption)
    | dsimp -zeta only
def fm_setCtx : Nat := 2 ^ 37
theorem State.setCtx_fr {M s0} (s : State) (B d e : Nat) (f : Ctx → Ctx) (hM : MaskLe fm_setCtx M) (hs : Fr M s0 s) : Fr M s0 (State.setCtx s B d e f) := by
  unfold State.setCtx
  repeat' first
    | with_reducible first | assumption
    | exact MaskLe.trans (by decide +kernel) hM
    | (with_reducible refine fr_mk_ctxs (MaskLe.trans (by decide +kernel) hM) ?_; first | with_reducible assumption)
    | dsimp -zeta only
def fm_sectionSeen : Nat := fm_setPoint
theorem State.sectionSeen_fr {M s0} (s : State) (d : Nat) (hM : MaskLe fm_sectionSeen M) (hs : Fr M s0 s) : Fr M s0 (State.sectionSeen s d) := by
  unfold State.sectionSeen
  repeat' first
    | (intro x)
    | with_reducible first | assumption | apply State.setPoint_fr
    | exact MaskLe.trans (by decide +kernel) hM
    | with_reducible apply fr_pair
    | split
    | dsimp -zeta only
def fm_sliceDef : Nat := fm_epiPush ||| fm_ev ||| fm_sectionSeen
theorem State.sliceDef_fr {M s0} (s : State) (d : Nat) (f : Field) (ev kind : Nat) (on : Bool) (deconf : Bool) (hM : MaskLe fm_sliceDef M) (hf_f : MaskLe (mFld f) M) (hs : Fr M s0 s) : Fr M s0 (State.sliceDef s d f ev kind on deconf) := by
  unfold State.sliceDef
  repeat' first
    | with_reducible first | assumption | apply State.epiPush_fr | apply State.ev_fr | apply State.sectionSeen_fr | apply State.wrb_fr | apply fr_ite
    | exact MaskLe.trans (by decide +kernel) hM
    | split
    | dsimp -zeta only
def fm_refreshOtuc : Nat := mFld OTU_STATUS_ssd ||| mFld OTU_STATUS_ssf ||| fm_sectionSeen ||| fm_evWhen
theorem State.refreshOtuc_fr {M s0} (s : State) (lead : Nat) (hM : MaskLe fm_refreshOtuc M) (hs : Fr M s0 s) : Fr M s0 (State.refreshOtuc s lead) := by
  unfold State.refreshOtuc
  repeat' first
    | (intro x)
    | with_reducible first | assumption | apply State.sectionSeen_fr | apply State.wrb_fr | apply State.evWhen_fr | apply fr_each
    | (extract_lets +onlyGivenNames x; refine fr_cut x ?_ ?_; (on_goal 2 => dsimp only [x]); (on_goal 1 => clear_value x; intro hx))
    | (extract_lets +onlyGivenNames x; fail_if_success (have : State := x); clear_value x)
    | exact MaskLe.trans (by decide +kernel) hM
    | with_reducible apply fr_pair
    | split
    | dsimp -zeta only
def fm_pointSeen : Nat := fm_setPoint
theorem State.pointSeen_fr {M s0} (s : State) (m flags : Nat) (hM : MaskLe fm_pointSeen M) (hs : Fr M s0 s) : Fr M s0 (State.pointSeen s m flags) := by
  unfold State.pointSeen
  repeat' first
    | (intro x)
    | with_reducible first | assumption | apply State.setPoint_fr
    | exact MaskLe.trans (by decide +kernel) hM
    | with_reducible apply fr_pair
    | split
    | dsimp -zeta only
def fm_pointDef : Nat := mTab T_MP_STATUS ||| fm_ev ||| fm_pointSeen ||| fm_evWhen ||| fm_epiPush
theorem State.pointDef_fr {M s0} (s : State) (B dir m e b : Nat) (on : Bool) (deconf : Bool) (hM : MaskLe fm_pointDef M) (hs : Fr M s0 s) : Fr M s0 (State.pointDef s B dir m e b on deconf) := by
  unfold State.pointDef
  repeat' first
    | with_reducible first | assumption | apply State.ev_fr | apply State.tputb_fr | apply State.pointSeen_fr | apply State.evWhen_fr | apply State.epiPush_fr | apply fr_ite
    | (extract_lets +onlyGivenNames x; refine fr_cut x ?_ ?_; (on_goal 2 => dsimp only [x]); (on_goal 1 => clear_value x; intro hx))
    | (extract_lets +onlyGivenNames x; fail_if_success (have : State := x); clear_value x)
    | exact MaskLe.trans (by decide +kernel) hM
    | split
    | dsimp -zeta only
def fm_refreshPoint : Nat := mTab T_MP_STATUS ||| fm_pointDef ||| fm_setPoint ||| fm_evWhen ||| fm_pointSeen
theorem State.refreshPoint_fr {M s0} (s : State) (B dir m e : Nat) (ssf plm : Bool) (hM : MaskLe fm_refreshPoint M) (hs : Fr M s0 s) : Fr M s0 (State.refreshPoint s B dir m e ssf plm) := by
  unfold State.refreshPoint
  repeat' first
    | (intro x)
    | with_reducible first | assumption | apply State.tputb_fr | apply State.pointDef_fr | apply State.setPoint_fr | apply State.evWhen_fr | apply State.pointSeen_fr | apply fr_ite
    | (extract_lets +onlyGivenNames x; refine fr_cut x ?_ ?_; (on_goal 2 => dsimp only [x]); (on_goal 1 => clear_value x; intro hx))
    | (extract_lets +onlyGivenNames x; fail_if_success (have : State := x); clear_value x)
    | exact MaskLe.trans (by decide +kernel) hM
    | with_reducible apply fr_pair
    | split
    | dsimp -zeta only
def fm_pointHide : Nat := mTab T_MP_TTI_ACC ||| mTab T_MP_STATUS ||| fm_evWhen
theorem State.pointHide_fr {M s0} (s : State) (B e : Nat) (hM : MaskLe fm_pointHide M) (hs : Fr M s0 s) : Fr M s0 (State.pointHide s B e) := by
  unfold State.pointHide
  repeat' first
    | with_reducible first | assumption | apply State.evWhen_fr | apply State.setEntry_fr
    | (extract_lets +onlyGivenNames x; refine fr_cut x ?_ ?_; (on_goal 2 => dsimp only [x]); (on_goal 1 => clear_value x; intro hx))
    | (extract_lets +onlyGivenNames x; fail_if_success (have : State := x); clear_value x)
    | exact MaskLe.trans (by decide +kernel) hM
    | split
    | dsimp -zeta only
def fm_aisFrame : Nat := fm_setCtx
theorem State.aisFrame_fr {M s0} (s : State) (B e : Nat) (hM : MaskLe fm_aisFrame M) (hs : Fr M s0 s) : Fr M s0 (State.aisFrame s B e) := by
  unfold State.aisFrame
  repeat' first
    | (intro x)
    | with_reducible first | assumption | apply State.setCtx_fr
    | exact MaskLe.trans (by decide +kernel) hM
    | with_reducible apply fr_pair
    | dsimp -zeta only
def fm_setCli : Nat := 2 ^ 41
theorem State.setCli_fr {M s0} (s : State) (k : Nat) (f : Cli → Cli) (hM : MaskLe fm_setCli M) (hs : Fr M s0 s) : Fr M s0 (State.setCli s k f) := by
  unfold State.setCli
  repeat' first
    | with_reducible first | assumption
    | exact MaskLe.trans (by decide +kernel) hM
    | (with_reducible refine fr_mk_clis (MaskLe.trans (by decide +kernel) hM) ?_; first | with_reducible assumption)
    | dsimp -zeta only
def fm_setRepl : Nat := mTab T_CLI_STATUS ||| mTab T_CLI_CNT ||| fm_ev
theorem State.setRepl_fr {M s0} (s : State) (B d e : Nat) (on : Bool) (hM : MaskLe fm_setRepl M) (hs : Fr M s0 s) : Fr M s0 (State.setRepl s B d e on) := by
  unfold State.setRepl
  repeat' first
    | with_reducible first | assumption | apply State.ev_fr | apply State.tputb_fr | apply State.tcount_fr | apply fr_ite
    | (extract_lets +onlyGivenNames x; refine fr_cut x ?_ ?_; (on_goal 2 => dsimp only [x]); (on_goal 1 => clear_value x; intro hx))
    | (extract_lets +onlyGivenNames x; fail_if_success (have : State := x); clear_value x)
    | exact MaskLe.trans (by decide +kernel) hM
    | split
    | dsimp -zeta only
def fm_refreshCliIn : Nat := fm_setRepl
theorem State.refreshCliIn_fr {M s0} (s : State) (B e : Nat) (hM : MaskLe fm_refreshCliIn M) (hs : Fr M s0 s) : Fr M s0 (State.refreshCliIn s B e) := by
  unfold State.refreshCliIn
  repeat' first
    | with_reducible first | assumption | apply State.setRepl_fr | apply fr_ite
    | (extract_lets +onlyGivenNames x; refine fr_cut x ?_ ?_; (on_goal 2 => dsimp only [x]); (on_goal 1 => clear_value x; intro hx))
    | (extract_lets +onlyGivenNames x; fail_if_success (have : State := x); clear_value x)
    | exact MaskLe.trans (by decide +kernel) hM
    | split
    | dsimp -zeta only
def fm_refreshEth : Nat := mFld ETH_STATUS_leg ||| mFld ETH_STATUS_aligned ||| mFld ETH_STATUS_replacing ||| mFld ETH_REPL ||| fm_setCli ||| fm_ev
theorem State.refreshEth_fr {M s0} (s : State) (n : Nat) (hM : MaskLe fm_refreshEth M) (hs : Fr M s0 s) : Fr M s0 (State.refreshEth s n) := by
  unfold State.refreshEth
  repeat' first
    | (intro x)
    | with_reducible first | assumption | apply State.wr_fr | apply State.wrb_fr | apply State.setCli_fr | apply State.ev_fr | apply State.count_fr | apply fr_ite
    | (extract_lets +onlyGivenNames x; refine fr_cut x ?_ ?_; (on_goal 2 => dsimp only [x]); (on_goal 1 => clear_value x; intro hx))
    | (extract_lets +onlyGivenNames x; fail_if_success (have : State := x); clear_value x)
    | exact MaskLe.trans (by decide +kernel) hM
    | with_reducible apply fr_pair
    | split
    | dsimp -zeta only
def fm_refreshLine : Nat := fm_refreshEth
theorem State.refreshLine_fr {M s0} (s : State) (n : Nat) (hM : MaskLe fm_refreshLine M) (hs : Fr M s0 s) : Fr M s0 (State.refreshLine s n) := by
  unfold State.refreshLine
  repeat' first
    | with_reducible first | assumption | apply State.refreshEth_fr
    | exact MaskLe.trans (by decide +kernel) hM
    | with_reducible apply fr_pair
    | split
    | dsimp -zeta only
def fm_suspectLine : Nat := fm_refreshEth ||| fm_setCli
theorem State.suspectLine_fr {M s0} (s : State) (n : Nat) (hM : MaskLe fm_suspectLine M) (hs : Fr M s0 s) : Fr M s0 (State.suspectLine s n) := by
  unfold State.suspectLine
  repeat' first
    | (intro x)
    | with_reducible first | assumption | apply State.refreshEth_fr | apply State.setCli_fr
    | exact MaskLe.trans (by decide +kernel) hM
    | with_reducible apply fr_pair
    | split
    | dsimp -zeta only
def fm_stampUnlock : Nat := mTab T_STAMP_RX ||| fm_setCtx ||| fm_ev
theorem State.stampUnlock_fr {M s0} (s : State) (B e : Nat) (hM : MaskLe fm_stampUnlock M) (hs : Fr M s0 s) : Fr M s0 (State.stampUnlock s B e) := by
  unfold State.stampUnlock
  repeat' first
    | (intro x)
    | with_reducible first | assumption | apply State.setCtx_fr | apply State.ev_fr | apply State.tputb_fr | apply fr_ite
    | (extract_lets +onlyGivenNames x; refine fr_cut x ?_ ?_; (on_goal 2 => dsimp only [x]); (on_goal 1 => clear_value x; intro hx))
    | (extract_lets +onlyGivenNames x; fail_if_success (have : State := x); clear_value x)
    | exact MaskLe.trans (by decide +kernel) hM
    | with_reducible apply fr_pair
    | split
    | dsimp -zeta only
def fm_refreshCtx : Nat := mTab T_CTX_STATUS ||| mTab T_MP_STATUS ||| fm_setCtx ||| fm_refreshPoint ||| fm_pointSeen ||| fm_evWhen ||| fm_refreshCliIn ||| fm_stampUnlock
theorem State.refreshCtx_fr {M s0} (s : State) (B e : Nat) (hM : MaskLe fm_refreshCtx M) (hs : Fr M s0 s) : Fr M s0 (State.refreshCtx s B e) := by
  unfold State.refreshCtx
  repeat' first
    | (intro x)
    | with_reducible first | assumption | apply State.setCtx_fr | apply State.tputb_fr | apply State.refreshPoint_fr | apply State.pointSeen_fr | apply State.evWhen_fr | apply State.tput_fr | apply State.refreshCliIn_fr | apply State.stampUnlock_fr | apply fr_ite | apply fr_each
    | (extract_lets +onlyGivenNames x; refine fr_cut x ?_ ?_; (on_goal 2 => dsimp only [x]); (on_goal 1 => clear_value x; intro hx))
    | (extract_lets +onlyGivenNames x; fail_if_success (have : State := x); clear_value x)
    | exact MaskLe.trans (by decide +kernel) hM
    | with_reducible apply fr_pair
    | split
    | dsimp -zeta only
def fm_refreshCtxs : Nat := fm_refreshCtx
theorem State.refreshCtxs_fr {M s0} (s : State) (B : Nat) (hM : MaskLe fm_refreshCtxs M) (hs : Fr M s0 s) : Fr M s0 (State.refreshCtxs s B) := by
  unfold State.refreshCtxs
  repeat' first
    | (intro x)
    | with_reducible first | assumption | apply State.refreshCtx_fr | apply fr_each
    | (extract_lets +onlyGivenNames x; refine fr_cut x ?_ ?_; (on_goal 2 => dsimp only [x]); (on_goal 1 => clear_value x; intro hx))
    | (extract_lets +onlyGivenNames x; fail_if_success (have : State := x); clear_value x)
    | exact MaskLe.trans (by decide +kernel) hM
    | with_reducible apply fr_pair
    | dsimp -zeta only
def fm_refreshBlock : Nat := fm_refreshCtxs ||| fm_refreshOtuc
theorem State.refreshBlock_fr {M s0} (s : State) (B : Nat) (hM : MaskLe fm_refreshBlock M) (hs : Fr M s0 s) : Fr M s0 (State.refreshBlock s B) := by
  unfold State.refreshBlock
  repeat' first
    | (intro x)
    | with_reducible first | assumption | apply State.refreshCtxs_fr | apply State.refreshOtuc_fr | apply fr_each
    | exact MaskLe.trans (by decide +kernel) hM
    | dsimp -zeta only
def fm_raiseSuspect : Nat := fm_refreshCtxs ||| fm_setCtx
theorem State.raiseSuspect_fr {M s0} (s : State) (d : Nat) (hM : MaskLe fm_raiseSuspect M) (hs : Fr M s0 s) : Fr M s0 (State.raiseSuspect s d) := by
  unfold State.raiseSuspect
  repeat' first
    | (intro x)
    | with_reducible first | assumption | apply State.refreshCtxs_fr | apply State.setCtx_fr | apply fr_each
    | (extract_lets +onlyGivenNames x; refine fr_cut x ?_ ?_; (on_goal 2 => dsimp only [x]); (on_goal 1 => clear_value x; intro hx))
    | (extract_lets +onlyGivenNames x; fail_if_success (have : State := x); clear_value x)
    | exact MaskLe.trans (by decide +kernel) hM
    | with_reducible apply fr_pair
    | dsimp -zeta only
def fm_modeStatus : Nat := mFld MODE_CMD_STATUS_code ||| mFld MODE_CMD_STATUS_op
theorem State.modeStatus_fr {M s0} (s : State) (m : Master) (op code : Nat) (hM : MaskLe fm_modeStatus M) (hs : Fr M s0 s) : Fr M s0 (State.modeStatus s m op code) := by
  unfold State.modeStatus
  repeat' first
    | with_reducible first | assumption | apply State.wr_fr
    | exact MaskLe.trans (by decide +kernel) hM
    | dsimp -zeta only
def fm_modeFinish : Nat := fm_ev ||| fm_modeStatus
theorem State.modeFinish_fr {M s0} (s : State) (m : Master) (op code : Nat) (hM : MaskLe fm_modeFinish M) (hs : Fr M s0 s) : Fr M s0 (State.modeFinish s m op code) := by
  unfold State.modeFinish
  repeat' first
    | with_reducible first | assumption | apply State.ev_fr | apply State.modeStatus_fr
    | exact MaskLe.trans (by decide +kernel) hM
    | dsimp -zeta only
def fm_modeEnd : Nat := 2 ^ 27 ||| fm_modeFinish
theorem State.modeEnd_fr {M s0} (s : State) (code : Nat) (hM : MaskLe fm_modeEnd M) (hs : Fr M s0 s) : Fr M s0 (State.modeEnd s code) := by
  unfold State.modeEnd
  repeat' first
    | with_reducible first | assumption | apply State.modeFinish_fr
    | exact MaskLe.trans (by decide +kernel) hM
    | (with_reducible refine fr_mk_modeCmd (MaskLe.trans (by decide +kernel) hM) ?_; first | with_reducible assumption | with_reducible apply State.modeFinish_fr)
    | with_reducible apply fr_pair
    | split
    | dsimp -zeta only
def fm_modePend : Nat := 2 ^ 27 ||| fm_modeStatus
theorem State.modePend_fr {M s0} (s : State) (m : Master) (op arg : Nat) (hM : MaskLe fm_modePend M) (hs : Fr M s0 s) : Fr M s0 (State.modePend s m op arg) := by
  unfold State.modePend
  repeat' first
    | with_reducible first | assumption | apply State.modeStatus_fr
    | exact MaskLe.trans (by decide +kernel) hM
    | (with_reducible refine fr_mk_modeCmd (MaskLe.trans (by decide +kernel) hM) ?_; first | with_reducible assumption | with_reducible apply State.modeStatus_fr)
    | dsimp -zeta only
def fm_setModeFrom : Nat := mFld MODE_current ||| fm_logRec ||| fm_ev
theorem State.setModeFrom_fr {M s0} (s : State) (old new : Nat) (hM : MaskLe fm_setModeFrom M) (hs : Fr M s0 s) : Fr M s0 (State.setModeFrom s old new) := by
  unfold State.setModeFrom
  repeat' first
    | with_reducible first | assumption | apply State.wr_fr | apply State.logRec_fr | apply State.ev_fr
    | (extract_lets +onlyGivenNames x; refine fr_cut x ?_ ?_; (on_goal 2 => dsimp only [x]); (on_goal 1 => clear_value x; intro hx))
    | (extract_lets +onlyGivenNames x; fail_if_success (have : State := x); clear_value x)
    | exact MaskLe.trans (by decide +kernel) hM
    | dsimp -zeta only
def fm_setMode : Nat := fm_setModeFrom
theorem State.setMode_fr {M s0} (s : State) (new : Nat) (hM : MaskLe fm_setMode M) (hs : Fr M s0 s) : Fr M s0 (State.setMode s new) := by
  unfold State.setMode
  repeat' first
    | with_reducible first | assumption | apply State.setModeFrom_fr | apply fr_ite
    | exact MaskLe.trans (by decide +kernel) hM
    | split
    | dsimp -zeta only
def fm_tieMode : Nat := fm_setMode
theorem State.tieMode_fr {M s0} (s : State) (hM : MaskLe fm_tieMode M) (hs : Fr M s0 s) : Fr M s0 (State.tieMode s) := by
  unfold State.tieMode
  repeat' first
    | with_reducible first | assumption | apply State.setMode_fr | apply fr_ite
    | exact MaskLe.trans (by decide +kernel) hM
    | split
    | dsimp -zeta only
def fm_moveRegion : Nat := mAll_MODE_REGIONS_state ||| fm_logRec ||| fm_ev
theorem State.moveRegion_fr {M s0} (s : State) (r new cause : Nat) (hM : MaskLe fm_moveRegion M) (hs : Fr M s0 s) : Fr M s0 (State.moveRegion s r new cause) := by
  unfold State.moveRegion
  repeat' first
    | with_reducible first | assumption | apply State.logRec_fr | apply State.ev_fr | apply State.wr_fr | apply fr_ite
    | exact MaskLe.trans (by decide +kernel) hM
    | (with_reducible refine MaskLe.trans (MODE_REGIONS_state_mem _) ?_; exact MaskLe.trans (by decide +kernel) hM)
    | split
    | dsimp -zeta only
def fm_setRegion : Nat := fm_tieMode ||| fm_moveRegion
theorem State.setRegion_fr {M s0} (s : State) (r new cause : Nat) (hM : MaskLe fm_setRegion M) (hs : Fr M s0 s) : Fr M s0 (State.setRegion s r new cause) := by
  unfold State.setRegion
  repeat' first
    | with_reducible first | assumption | apply State.tieMode_fr | apply State.moveRegion_fr | apply fr_ite
    | exact MaskLe.trans (by decide +kernel) hM
    | split
    | dsimp -zeta only

end Sys2Proof.Machine
end

