-- ==== Sys2Proof/Laws/FrameLine.lean ====
section
/-! SUPPORT. What each operation of Lanes, Otu, Odu, Mapping may change: one law per operation, by the masks of Laws/State.lean. -/

namespace Sys2Proof.Machine

open Sys2Proof

set_option Elab.async false
set_option linter.all false

/-- The defect bits of a slice. -/
def mDefects : Nat := sliceDefects.foldl (fun a x => a ||| mFld x.1) 0
theorem mDefects_mem (x : Field × Nat × Nat) (hx : x ∈ sliceDefects) : MaskLe (mFld x.1) mDefects := by
  revert hx; revert x; decide +kernel
/-- The defect bits of a line client. -/
def mEthDef : Nat := mFld ETH_STATUS_clos ||| mFld ETH_STATUS_clf ||| mFld ETH_STATUS_crf ||| mFld ETH_STATUS_crate
theorem mEthDef_mem {k n : Nat} {f : Field} (h : ethField k = some (f, n)) : MaskLe (mFld f) mEthDef := by
  unfold ethField at h
  generalize k - 25 = j at h
  match j, h with
  | 0, h => cases h; decide +kernel
  | 1, h => cases h; decide +kernel
  | 2, h => cases h; decide +kernel
  | 3, h => cases h
  | 4, h => cases h; decide +kernel
  | j + 5, h => cases h
/-- What a line client's start sets. -/
def mEthStart : Nat := [ETH_STATUS_aligned, ETH_STATUS_clos, ETH_STATUS_clf, ETH_STATUS_crf, ETH_STATUS_crate, ETH_STATUS_replacing, ETH_STATUS_tx_lf,
  ETH_STATUS_leg, ETH_ERR_BLOCKS, ETH_IDLE_INS, ETH_IDLE_DEL, ETH_PKT_DROP, ETH_REPL, ETH_LOST_UNITS].foldl (fun a f => a ||| mFld f) 0
/-- The FEC counters. -/
def mFec : Nat := fecCounters.foldl (fun a f => a ||| mFld f) 0

def fm_setLane : Nat := 2 ^ 32
theorem State.setLane_fr {M s0} (s : State) (n : Nat) (f : Lane → Lane) (hM : MaskLe fm_setLane M) (hs : Fr M s0 s) : Fr M s0 (State.setLane s n f) := by
  unfold State.setLane
  repeat' first
    | with_reducible first | assumption
    | exact MaskLe.trans (by decide +kernel) hM
    | (with_reducible refine fr_mk_lanes (MaskLe.trans (by decide +kernel) hM) ?_; first | with_reducible assumption)
    | dsimp -zeta only
def fm_putLevels : Nat := fm_emit
theorem State.putLevels_fr {M s0} (s : State) (n : Nat) (levels : List Nat) (hM : MaskLe fm_putLevels M) (hs : Fr M s0 s) : Fr M s0 (State.putLevels s n levels) := by
  unfold State.putLevels
  repeat' first
    | with_reducible first | assumption | apply State.emit_fr | apply fr_ite
    | exact MaskLe.trans (by decide +kernel) hM
    | split
    | dsimp -zeta only
def fm_setPrbs : Nat := 2 ^ 33
theorem State.setPrbs_fr {M s0} (s : State) (k : Nat) (f : Prbs → Prbs) (hM : MaskLe fm_setPrbs M) (hs : Fr M s0 s) : Fr M s0 (State.setPrbs s k f) := by
  unfold State.setPrbs
  repeat' first
    | with_reducible first | assumption
    | exact MaskLe.trans (by decide +kernel) hM
    | (with_reducible refine fr_mk_prbs (MaskLe.trans (by decide +kernel) hM) ?_; first | with_reducible assumption)
    | dsimp -zeta only
def fm_genLevels : Nat := fm_setPrbs
theorem State.genLevels_fr {M s0} (s : State) (key code n : Nat) (hM : MaskLe fm_genLevels M) (hs : Fr M s0 s) : Fr M s0 (State.genLevels s key code n).2 := by
  unfold State.genLevels
  repeat' first
    | (intro x)
    | with_reducible first | assumption | apply State.setPrbs_fr | apply fr2_ite
    | (extract_lets +onlyGivenNames x; refine fr_cut x ?_ ?_; (on_goal 2 => dsimp only [x]); (on_goal 1 => clear_value x; intro hx))
    | (extract_lets +onlyGivenNames x; fail_if_success (have : State := x); clear_value x)
    | exact MaskLe.trans (by decide +kernel) hM
    | with_reducible apply fr2_pair
    | split
    | dsimp -zeta only
def fm_sendLane : Nat := fm_genLevels ||| fm_setLane ||| fm_putLevels
theorem State.sendLane_fr {M s0} (s : State) (n : Nat) (own : List Nat) (hM : MaskLe fm_sendLane M) (hs : Fr M s0 s) : Fr M s0 (State.sendLane s n own) := by
  unfold State.sendLane
  repeat' first
    | (intro x)
    | with_reducible first | assumption | apply State.genLevels_fr | apply State.setLane_fr | apply State.putLevels_fr | apply fr_ite
    | (extract_lets +onlyGivenNames x; refine fr_cut x ?_ ?_; (on_goal 2 => dsimp only [x]); (on_goal 1 => clear_value x; intro hx))
    | (extract_lets +onlyGivenNames x; fail_if_success (have : State := x); clear_value x)
    | exact MaskLe.trans (by decide +kernel) hM
    | with_reducible apply fr_pair
    | split
    | dsimp -zeta only
def fm_farLoop : Nat := fm_putLevels
theorem State.farLoop_fr {M s0} (s : State) (n : Nat) (rx : List Nat) (hM : MaskLe fm_farLoop M) (hs : Fr M s0 s) : Fr M s0 (State.farLoop s n rx) := by
  unfold State.farLoop
  repeat' first
    | with_reducible first | assumption | apply State.putLevels_fr | apply fr_ite
    | exact MaskLe.trans (by decide +kernel) hM
    | split
    | dsimp -zeta only
def fm_applyFir : Nat := mFld LLN_STATUS_fir_refused ||| fm_setLane
theorem State.applyFir_fr {M s0} (s : State) (n : Nat) (hM : MaskLe fm_applyFir M) (hs : Fr M s0 s) : Fr M s0 (State.applyFir s n) := by
  unfold State.applyFir
  repeat' first
    | (intro x)
    | with_reducible first | assumption | apply State.wrb_fr | apply State.setLane_fr | apply fr_ite
    | (extract_lets +onlyGivenNames x; refine fr_cut x ?_ ?_; (on_goal 2 => dsimp only [x]); (on_goal 1 => clear_value x; intro hx))
    | (extract_lets +onlyGivenNames x; fail_if_success (have : State := x); clear_value x)
    | exact MaskLe.trans (by decide +kernel) hM
    | with_reducible apply fr_pair
    | split
    | dsimp -zeta only
def fm_writeFir1 : Nat := mFld LLN_TX_FIR1_c_p1 ||| mFld LLN_TX_FIR1_c_p2 ||| mFld LLN_TX_FIR1_swing ||| fm_applyFir
theorem State.writeFir1_fr {M s0} (s : State) (n v : Nat) (hM : MaskLe fm_writeFir1 M) (hs : Fr M s0 s) : Fr M s0 (State.writeFir1 s n v) := by
  unfold State.writeFir1
  repeat' first
    | with_reducible first | assumption | apply State.applyFir_fr | apply State.wr_fr
    | (extract_lets +onlyGivenNames x; refine fr_cut x ?_ ?_; (on_goal 2 => dsimp only [x]); (on_goal 1 => clear_value x; intro hx))
    | (extract_lets +onlyGivenNames x; fail_if_success (have : State := x); clear_value x)
    | exact MaskLe.trans (by decide +kernel) hM
    | dsimp -zeta only
def fm_setEq : Nat := mFld LLN_RX_EQ_mlse ||| mFld LLN_RX_EQ_phase ||| mFld LLN_RX_EQ_dfe ||| mFld LLN_RX_EQ_ctle
theorem State.setEq_fr {M s0} (s : State) (n ctle dfe phase mlse : Nat) (hM : MaskLe fm_setEq M) (hs : Fr M s0 s) : Fr M s0 (State.setEq s n ctle dfe phase mlse) := by
  unfold State.setEq
  repeat' first
    | with_reducible first | assumption | apply State.wr_fr
    | (extract_lets +onlyGivenNames x; refine fr_cut x ?_ ?_; (on_goal 2 => dsimp only [x]); (on_goal 1 => clear_value x; intro hx))
    | (extract_lets +onlyGivenNames x; fail_if_success (have : State := x); clear_value x)
    | exact MaskLe.trans (by decide +kernel) hM
    | dsimp -zeta only
def fm_writeRxEq : Nat := fm_free ||| fm_setEq
theorem State.writeRxEq_fr {M s0} (s : State) (n v : Nat) (hM : MaskLe fm_writeRxEq M) (hs : Fr M s0 s) : Fr M s0 (State.writeRxEq s n v) := by
  unfold State.writeRxEq
  repeat' first
    | with_reducible first | assumption | apply State.free_fr | apply State.setEq_fr | apply fr_ite
    | (extract_lets +onlyGivenNames x; refine fr_cut x ?_ ?_; (on_goal 2 => dsimp only [x]); (on_goal 1 => clear_value x; intro hx))
    | (extract_lets +onlyGivenNames x; fail_if_success (have : State := x); clear_value x)
    | exact MaskLe.trans (by decide +kernel) hM
    | with_reducible apply fr_pair
    | split
    | dsimp -zeta only
def fm_endTrial : Nat := mAll_LLN_TRIAL_CNT_count ||| mFld LLN_ADAPT_STATUS_trial_active ||| mFld LLN_ADAPT_STATUS_waiting ||| fm_setEq
theorem State.endTrial_fr {M s0} (s : State) (n how : Nat) (hM : MaskLe fm_endTrial M) (hs : Fr M s0 s) : Fr M s0 (State.endTrial s n how) := by
  unfold State.endTrial
  repeat' first
    | (intro x)
    | with_reducible first | assumption | apply State.count_fr | apply State.wrb_fr | apply State.setEq_fr | apply fr_ite | apply fr_each
    | (extract_lets +onlyGivenNames x; refine fr_cut x ?_ ?_; (on_goal 2 => dsimp only [x]); (on_goal 1 => clear_value x; intro hx))
    | (extract_lets +onlyGivenNames x; fail_if_success (have : State := x); clear_value x)
    | exact MaskLe.trans (by decide +kernel) hM
    | (with_reducible refine MaskLe.trans (LLN_TRIAL_CNT_count_mem _) ?_; exact MaskLe.trans (by decide +kernel) hM)
    | with_reducible apply fr_pair
    | split
    | dsimp -zeta only
def fm_abortTrial : Nat := fm_endTrial
theorem State.abortTrial_fr {M s0} (s : State) (n : Nat) (hM : MaskLe fm_abortTrial M) (hs : Fr M s0 s) : Fr M s0 (State.abortTrial s n) := by
  unfold State.abortTrial
  repeat' first
    | with_reducible first | assumption | apply State.endTrial_fr
    | exact MaskLe.trans (by decide +kernel) hM
    | dsimp -zeta only
def fm_stepEq : Nat := mFld LLN_RX_EQ_ctle ||| mFld LLN_RX_EQ_dfe ||| mFld LLN_RX_EQ_phase ||| mFld LLN_RX_EQ_mlse ||| fm_free
theorem State.stepEq_fr {M s0} (s : State) (n kind : Nat) (down : Bool) (hM : MaskLe fm_stepEq M) (hs : Fr M s0 s) : Fr M s0 (State.stepEq s n kind down) := by
  unfold State.stepEq
  repeat' first
    | with_reducible first | assumption | apply State.wr_fr | apply State.free_fr | apply fr_ite
    | (extract_lets +onlyGivenNames x; refine fr_cut x ?_ ?_; (on_goal 2 => dsimp only [x]); (on_goal 1 => clear_value x; intro hx))
    | (extract_lets +onlyGivenNames x; fail_if_success (have : State := x); clear_value x)
    | exact MaskLe.trans (by decide +kernel) hM
    | with_reducible apply fr_pair
    | split
    | dsimp -zeta only
def fm_judgeWaiting : Nat := mFld LLN_ADAPT_STATUS_waiting
theorem State.judgeWaiting_fr {M s0} (s : State) (n : Nat) (hM : MaskLe fm_judgeWaiting M) (hs : Fr M s0 s) : Fr M s0 (State.judgeWaiting s n) := by
  unfold State.judgeWaiting
  repeat' first
    | with_reducible first | assumption | apply State.wrb_fr | apply fr_ite
    | exact MaskLe.trans (by decide +kernel) hM
    | split
    | dsimp -zeta only
def fm_beginTrial : Nat := mFld LLN_ADAPT_STATUS_kind ||| mFld LLN_ADAPT_STATUS_trial_active ||| mFld (LLN_TRIAL_CNT_count 0) ||| mFld LLN_ADAPT_STATUS_waiting ||| 2 ^ 30 ||| fm_setLane ||| fm_stepEq
theorem State.beginTrial_fr {M s0} (s : State) (n : Nat) (hM : MaskLe fm_beginTrial M) (hs : Fr M s0 s) : Fr M s0 (State.beginTrial s n) := by
  unfold State.beginTrial
  repeat' first
    | (intro x)
    | with_reducible first | assumption | apply State.setLane_fr | apply State.stepEq_fr | apply State.wr_fr | apply State.wrb_fr | apply State.count_fr
    | (extract_lets +onlyGivenNames x; refine fr_cut x ?_ ?_; (on_goal 2 => dsimp only [x]); (on_goal 1 => clear_value x; intro hx))
    | (extract_lets +onlyGivenNames x; fail_if_success (have : State := x); clear_value x)
    | exact MaskLe.trans (by decide +kernel) hM
    | (with_reducible refine fr_mk_blk (MaskLe.trans (by decide +kernel) hM) ?_; first | with_reducible assumption | with_reducible apply State.setLane_fr | with_reducible apply State.stepEq_fr | with_reducible apply State.wr_fr | with_reducible apply State.wrb_fr | with_reducible apply State.count_fr)
    | with_reducible apply fr_pair
    | dsimp -zeta only
def fm_trialStart : Nat := mFld LLN_ADAPT_STATUS_waiting ||| fm_beginTrial
theorem State.trialStart_fr {M s0} (s : State) (B elapsed : Nat) (hM : MaskLe fm_trialStart M) (hs : Fr M s0 s) : Fr M s0 (State.trialStart s B elapsed) := by
  unfold State.trialStart
  repeat' first
    | (intro x)
    | with_reducible first | assumption | apply State.wrb_fr | apply State.beginTrial_fr | apply fr_ite | apply fr_each
    | (extract_lets +onlyGivenNames x; refine fr_cut x ?_ ?_; (on_goal 2 => dsimp only [x]); (on_goal 1 => clear_value x; intro hx))
    | (extract_lets +onlyGivenNames x; fail_if_success (have : State := x); clear_value x)
    | exact MaskLe.trans (by decide +kernel) hM
    | with_reducible apply fr_pair
    | split
    | dsimp -zeta only
def fm_trialDwellEnd : Nat := fm_endTrial
theorem State.trialDwellEnd_fr {M s0} (s : State) (n : Nat) (hM : MaskLe fm_trialDwellEnd M) (hs : Fr M s0 s) : Fr M s0 (State.trialDwellEnd s n) := by
  unfold State.trialDwellEnd
  repeat' first
    | with_reducible first | assumption | apply State.endTrial_fr | apply fr_ite
    | (extract_lets +onlyGivenNames x; refine fr_cut x ?_ ?_; (on_goal 2 => dsimp only [x]); (on_goal 1 => clear_value x; intro hx))
    | (extract_lets +onlyGivenNames x; fail_if_success (have : State := x); clear_value x)
    | exact MaskLe.trans (by decide +kernel) hM
    | split
    | dsimp -zeta only
def fm_showMargin : Nat := mFld LLN_ADAPT_STATUS_margin ||| fm_judgeWaiting ||| fm_evWhen
theorem State.showMargin_fr {M s0} (s : State) (n : Nat) (hM : MaskLe fm_showMargin M) (hs : Fr M s0 s) : Fr M s0 (State.showMargin s n) := by
  unfold State.showMargin
  repeat' first
    | with_reducible first | assumption | apply State.judgeWaiting_fr | apply State.evWhen_fr | apply State.wr_fr
    | (extract_lets +onlyGivenNames x; refine fr_cut x ?_ ?_; (on_goal 2 => dsimp only [x]); (on_goal 1 => clear_value x; intro hx))
    | (extract_lets +onlyGivenNames x; fail_if_success (have : State := x); clear_value x)
    | exact MaskLe.trans (by decide +kernel) hM
    | dsimp -zeta only
def fm_laneSuspect : Nat := fm_suspectLine ||| fm_raiseSuspect
theorem State.laneSuspect_fr {M s0} (s : State) (n : Nat) (hM : MaskLe fm_laneSuspect M) (hs : Fr M s0 s) : Fr M s0 (State.laneSuspect s n) := by
  unfold State.laneSuspect
  repeat' first
    | (intro x)
    | with_reducible first | assumption | apply State.suspectLine_fr | apply State.raiseSuspect_fr | apply fr_each
    | exact MaskLe.trans (by decide +kernel) hM
    | dsimp -zeta only
def fm_codeword : Nat := mFld FEC_CW ||| mFld FEC_UNCORR_CW ||| mFld FEC_CORR_CW ||| mFld FEC_CORR_SYM ||| mAll_FEC_HIST ||| mFld FEC_TRIAL_UNCORR ||| mFld FEC_TRIAL_SYM ||| mFld FEC_BURSTS ||| fm_ev ||| fm_setLane ||| fm_endTrial ||| fm_showMargin ||| fm_laneSuspect
theorem State.codeword_fr {M s0} (s : State) (n k : Nat) (hM : MaskLe fm_codeword M) (hs : Fr M s0 s) : Fr M s0 (State.codeword s n k) := by
  unfold State.codeword
  repeat' first
    | (intro x)
    | with_reducible first | assumption | apply State.count_fr | apply State.ev_fr | apply State.setLane_fr | apply State.endTrial_fr | apply State.showMargin_fr | apply State.laneSuspect_fr | apply fr_ite | apply fr_each
    | (extract_lets +onlyGivenNames x; refine fr_cut x ?_ ?_; (on_goal 2 => dsimp only [x]); (on_goal 1 => clear_value x; intro hx))
    | (extract_lets +onlyGivenNames x; fail_if_success (have : State := x); clear_value x)
    | exact MaskLe.trans (by decide +kernel) hM
    | (with_reducible refine MaskLe.trans (FEC_HIST_mem _) ?_; exact MaskLe.trans (by decide +kernel) hM)
    | with_reducible apply fr_pair
    | split
    | dsimp -zeta only
def fm_fecSnap : Nat := mFld FEC_SNAP_SEQ_seq ||| mFec
theorem State.fecSnap_fr {M s0} (s : State) (n : Nat) (hM : MaskLe fm_fecSnap M) (hs : Fr M s0 s) : Fr M s0 (State.fecSnap s n) := by
  unfold State.fecSnap
  refine State.count_fr _ _ _ _ (MaskLe.trans (by decide +kernel) hM) (fr_each_mem hs (fun s f hf h => State.wr_fr _ _ _ _ (MaskLe.trans ?_ hM) h))
  revert hf; revert f; decide +kernel
def fm_judgeBond : Nat := fm_setSlice
theorem State.judgeBond_fr {M s0} (s : State) (lead : Nat) (hM : MaskLe fm_judgeBond M) (hs : Fr M s0 s) : Fr M s0 (State.judgeBond s lead) := by
  unfold State.judgeBond
  repeat' first
    | (intro x)
    | with_reducible first | assumption | apply State.setSlice_fr | apply fr_ite | apply fr_each
    | (extract_lets +onlyGivenNames x; refine fr_cut x ?_ ?_; (on_goal 2 => dsimp only [x]); (on_goal 1 => clear_value x; intro hx))
    | (extract_lets +onlyGivenNames x; fail_if_success (have : State := x); clear_value x)
    | exact MaskLe.trans (by decide +kernel) hM
    | with_reducible apply fr_pair
    | split
    | dsimp -zeta only
def fm_enterSearch : Nat := mFld OTU_STATUS_im ||| mFld OTU_STATUS_in_frame ||| mFld OTU_STATUS_fstate ||| mFld OTU_STATUS_bonded ||| mFld OTU_OOF_CNT ||| fm_setSlice ||| fm_setPoint ||| fm_judgeBond ||| fm_ev
theorem State.enterSearch_fr {M s0} (s : State) (d : Nat) (hM : MaskLe fm_enterSearch M) (hs : Fr M s0 s) : Fr M s0 (State.enterSearch s d) := by
  unfold State.enterSearch
  repeat' first
    | (intro x)
    | with_reducible first | assumption | apply State.setSlice_fr | apply State.setPoint_fr | apply State.wrb_fr | apply State.wr_fr | apply State.judgeBond_fr | apply State.ev_fr | apply State.count_fr | apply fr_ite
    | (extract_lets +onlyGivenNames x; refine fr_cut x ?_ ?_; (on_goal 2 => dsimp only [x]); (on_goal 1 => clear_value x; intro hx))
    | (extract_lets +onlyGivenNames x; fail_if_success (have : State := x); clear_value x)
    | exact MaskLe.trans (by decide +kernel) hM
    | with_reducible apply fr_pair
    | split
    | dsimp -zeta only
def fm_realignSlice : Nat := fm_ev ||| fm_enterSearch
theorem State.realignSlice_fr {M s0} (s : State) (d : Nat) (hM : MaskLe fm_realignSlice M) (hs : Fr M s0 s) : Fr M s0 (State.realignSlice s d) := by
  unfold State.realignSlice
  repeat' first
    | with_reducible first | assumption | apply State.ev_fr | apply State.enterSearch_fr | apply fr_ite
    | exact MaskLe.trans (by decide +kernel) hM
    | split
    | dsimp -zeta only
def fm_setFlexoLock : Nat := mFld OTU_STATUS_flexo_lock ||| fm_wrbEv
theorem State.setFlexoLock_fr {M s0} (s : State) (d : Nat) (b : Bool) (hM : MaskLe fm_setFlexoLock M) (hs : Fr M s0 s) : Fr M s0 (State.setFlexoLock s d b) := by
  unfold State.setFlexoLock
  repeat' first
    | with_reducible first | assumption | apply State.wrbEv_fr | apply fr_ite
    | exact MaskLe.trans (by decide +kernel) hM
    | split
    | dsimp -zeta only
def fm_lineLos : Nat := mFld LLN_STATUS_sig_det ||| fm_abortTrial ||| fm_ev ||| fm_laneSuspect
theorem State.lineLos_fr {M s0} (s : State) (n : Nat) (hM : MaskLe fm_lineLos M) (hs : Fr M s0 s) : Fr M s0 (State.lineLos s n) := by
  unfold State.lineLos
  repeat' first
    | with_reducible first | assumption | apply State.abortTrial_fr | apply State.ev_fr | apply State.wrb_fr | apply State.laneSuspect_fr | apply fr_ite
    | (extract_lets +onlyGivenNames x; refine fr_cut x ?_ ?_; (on_goal 2 => dsimp only [x]); (on_goal 1 => clear_value x; intro hx))
    | (extract_lets +onlyGivenNames x; fail_if_success (have : State := x); clear_value x)
    | exact MaskLe.trans (by decide +kernel) hM
    | split
    | dsimp -zeta only
def fm_lineSignal : Nat := mFld LLN_STATUS_sig_det
theorem State.lineSignal_fr {M s0} (s : State) (n : Nat) (hM : MaskLe fm_lineSignal M) (hs : Fr M s0 s) : Fr M s0 (State.lineSignal s n) := by
  unfold State.lineSignal
  repeat' first
    | with_reducible first | assumption | apply State.wrb_fr | apply fr_ite
    | exact MaskLe.trans (by decide +kernel) hM
    | split
    | dsimp -zeta only
def fm_lineCdrLock : Nat := mFld LLN_STATUS_cdr_lock
theorem State.lineCdrLock_fr {M s0} (s : State) (n : Nat) (hM : MaskLe fm_lineCdrLock M) (hs : Fr M s0 s) : Fr M s0 (State.lineCdrLock s n) := by
  unfold State.lineCdrLock
  repeat' first
    | with_reducible first | assumption | apply State.wrb_fr | apply fr_ite
    | exact MaskLe.trans (by decide +kernel) hM
    | split
    | dsimp -zeta only
def fm_lineCdrUnlock : Nat := mFld LLN_STATUS_cdr_lock ||| fm_abortTrial ||| fm_ev
theorem State.lineCdrUnlock_fr {M s0} (s : State) (n : Nat) (hM : MaskLe fm_lineCdrUnlock M) (hs : Fr M s0 s) : Fr M s0 (State.lineCdrUnlock s n) := by
  unfold State.lineCdrUnlock
  repeat' first
    | with_reducible first | assumption | apply State.abortTrial_fr | apply State.ev_fr | apply State.wrb_fr | apply fr_ite
    | exact MaskLe.trans (by decide +kernel) hM
    | split
    | dsimp -zeta only
def fm_skewStale : Nat := mFld LLN_SKEW_valid
theorem State.skewStale_fr {M s0} (s : State) (n : Nat) (hM : MaskLe fm_skewStale M) (hs : Fr M s0 s) : Fr M s0 (State.skewStale s n) := by
  unfold State.skewStale
  repeat' first
    | (intro x)
    | with_reducible first | assumption | apply State.wrb_fr | apply fr_each
    | exact MaskLe.trans (by decide +kernel) hM
    | with_reducible apply fr_pair
    | dsimp -zeta only
def fm_cwLock : Nat := mFld LLN_STATUS_cw_lock ||| fm_setLane ||| fm_refreshLine ||| fm_skewStale ||| fm_showMargin
theorem State.cwLock_fr {M s0} (s : State) (n : Nat) (hM : MaskLe fm_cwLock M) (hs : Fr M s0 s) : Fr M s0 (State.cwLock s n) := by
  unfold State.cwLock
  repeat' first
    | (intro x)
    | with_reducible first | assumption | apply State.wrb_fr | apply State.setLane_fr | apply State.refreshLine_fr | apply State.skewStale_fr | apply State.showMargin_fr | apply fr_ite
    | (extract_lets +onlyGivenNames x; refine fr_cut x ?_ ?_; (on_goal 2 => dsimp only [x]); (on_goal 1 => clear_value x; intro hx))
    | (extract_lets +onlyGivenNames x; fail_if_success (have : State := x); clear_value x)
    | exact MaskLe.trans (by decide +kernel) hM
    | with_reducible apply fr_pair
    | split
    | dsimp -zeta only
def fm_cwUnlock : Nat := mFld LLN_STATUS_cw_lock ||| fm_abortTrial ||| fm_ev ||| fm_setLane ||| fm_showMargin ||| fm_realignSlice ||| fm_setFlexoLock ||| fm_refreshLine ||| fm_refreshBlock ||| fm_laneSuspect
theorem State.cwUnlock_fr {M s0} (s : State) (n lost : Nat) (hM : MaskLe fm_cwUnlock M) (hs : Fr M s0 s) : Fr M s0 (State.cwUnlock s n lost) := by
  unfold State.cwUnlock
  repeat' first
    | (intro x)
    | with_reducible first | assumption | apply State.abortTrial_fr | apply State.ev_fr | apply State.wrb_fr | apply State.setLane_fr | apply State.showMargin_fr | apply State.realignSlice_fr | apply State.setFlexoLock_fr | apply State.refreshLine_fr | apply State.refreshBlock_fr | apply State.laneSuspect_fr | apply fr_ite | apply fr_each
    | (extract_lets +onlyGivenNames x; refine fr_cut x ?_ ?_; (on_goal 2 => dsimp only [x]); (on_goal 1 => clear_value x; intro hx))
    | (extract_lets +onlyGivenNames x; fail_if_success (have : State := x); clear_value x)
    | exact MaskLe.trans (by decide +kernel) hM
    | with_reducible apply fr_pair
    | split
    | dsimp -zeta only
def fm_deskew : Nat := mFld LLN_SKEW_valid ||| mFld LLN_SKEW_lag ||| fm_evWhen ||| fm_setLane ||| fm_refreshLine ||| fm_refreshBlock ||| fm_realignSlice
theorem State.deskew_fr {M s0} (s : State) (n : Nat) (lags : List Nat) (hM : MaskLe fm_deskew M) (hs : Fr M s0 s) : Fr M s0 (State.deskew s n lags) := by
  unfold State.deskew
  repeat' first
    | (intro x)
    | with_reducible first | assumption | apply State.wrb_fr | apply State.wr_fr | apply State.evWhen_fr | apply State.setLane_fr | apply State.refreshLine_fr | apply State.refreshBlock_fr | apply State.realignSlice_fr | apply fr_ite | apply fr_each
    | (extract_lets +onlyGivenNames x; refine fr_cut x ?_ ?_; (on_goal 2 => dsimp only [x]); (on_goal 1 => clear_value x; intro hx))
    | (extract_lets +onlyGivenNames x; fail_if_success (have : State := x); clear_value x)
    | exact MaskLe.trans (by decide +kernel) hM
    | with_reducible apply fr_pair
    | split
    | dsimp -zeta only
def fm_applyTest : Nat := mFld LLN_STATUS_prbs_lock ||| mFld LLN_STATUS_test_refused ||| mFld LLN_STATUS_lb_active ||| fm_abortTrial ||| fm_setPrbs ||| fm_setLane ||| fm_refreshLine ||| fm_judgeWaiting
theorem State.applyTest_fr {M s0} (s : State) (n : Nat) (hM : MaskLe fm_applyTest M) (hs : Fr M s0 s) : Fr M s0 (State.applyTest s n) := by
  unfold State.applyTest
  repeat' first
    | (intro x)
    | with_reducible first | assumption | apply State.abortTrial_fr | apply State.setPrbs_fr | apply State.wrb_fr | apply State.setLane_fr | apply State.refreshLine_fr | apply State.judgeWaiting_fr | apply fr_ite
    | (extract_lets +onlyGivenNames x; refine fr_cut x ?_ ?_; (on_goal 2 => dsimp only [x]); (on_goal 1 => clear_value x; intro hx))
    | (extract_lets +onlyGivenNames x; fail_if_success (have : State := x); clear_value x)
    | exact MaskLe.trans (by decide +kernel) hM
    | with_reducible apply fr_pair
    | split
    | dsimp -zeta only
def fm_applyTests : Nat := fm_applyTest
theorem State.applyTests_fr {M s0} (s : State) (hM : MaskLe fm_applyTests M) (hs : Fr M s0 s) : Fr M s0 (State.applyTests s) := by
  unfold State.applyTests
  repeat' first
    | (intro x)
    | with_reducible first | assumption | apply State.applyTest_fr | apply fr_each
    | exact MaskLe.trans (by decide +kernel) hM
    | dsimp -zeta only
def fm_writeLb : Nat := mFld LLN_LB_mode ||| mFld LLN_LB_near_drive ||| fm_applyTest
theorem State.writeLb_fr {M s0} (s : State) (n v : Nat) (hM : MaskLe fm_writeLb M) (hs : Fr M s0 s) : Fr M s0 (State.writeLb s n v) := by
  unfold State.writeLb
  repeat' first
    | with_reducible first | assumption | apply State.applyTest_fr | apply State.wr_fr
    | exact MaskLe.trans (by decide +kernel) hM
    | dsimp -zeta only
def fm_prbsInject : Nat := fm_genLevels ||| fm_emit ||| fm_setLane ||| fm_putLevels
theorem State.prbsInject_fr {M s0} (s : State) (n : Nat) (hM : MaskLe fm_prbsInject M) (hs : Fr M s0 s) : Fr M s0 (State.prbsInject s n) := by
  unfold State.prbsInject
  repeat' first
    | (intro x)
    | with_reducible first | assumption | apply State.genLevels_fr | apply State.emit_fr | apply State.setLane_fr | apply State.putLevels_fr | apply fr_ite
    | (extract_lets +onlyGivenNames x; refine fr_cut x ?_ ?_; (on_goal 2 => dsimp only [x]); (on_goal 1 => clear_value x; intro hx))
    | (extract_lets +onlyGivenNames x; fail_if_success (have : State := x); clear_value x)
    | exact MaskLe.trans (by decide +kernel) hM
    | with_reducible apply fr_pair
    | split
    | dsimp -zeta only
def fm_writePrbs : Nat := mFld LLN_PRBS_CFG_pattern ||| mFld LLN_PRBS_CFG_gen_en ||| mFld LLN_PRBS_CFG_chk_en ||| mFld LLN_PRBS_ERR_errors ||| fm_applyTest ||| fm_prbsInject
theorem State.writePrbs_fr {M s0} (s : State) (n v : Nat) (hM : MaskLe fm_writePrbs M) (hs : Fr M s0 s) : Fr M s0 (State.writePrbs s n v) := by
  unfold State.writePrbs
  repeat' first
    | with_reducible first | assumption | apply State.wr_fr | apply State.applyTest_fr | apply State.prbsInject_fr | apply fr_ite
    | (extract_lets +onlyGivenNames x; refine fr_cut x ?_ ?_; (on_goal 2 => dsimp only [x]); (on_goal 1 => clear_value x; intro hx))
    | (extract_lets +onlyGivenNames x; fail_if_success (have : State := x); clear_value x)
    | exact MaskLe.trans (by decide +kernel) hM
    | split
    | dsimp -zeta only
def fm_linePrbs : Nat := mFld LLN_PRBS_ERR_errors ||| mFld LLN_STATUS_prbs_lock ||| fm_farLoop ||| fm_setPrbs ||| fm_evWhen
theorem State.linePrbs_fr {M s0} (s : State) (n : Nat) (levels : List Nat) (hM : MaskLe fm_linePrbs M) (hs : Fr M s0 s) : Fr M s0 (State.linePrbs s n levels) := by
  unfold State.linePrbs
  repeat' first
    | (intro x)
    | with_reducible first | assumption | apply State.farLoop_fr | apply State.setPrbs_fr | apply State.evWhen_fr | apply State.count_fr | apply State.wrb_fr | apply fr_ite
    | (extract_lets +onlyGivenNames x; refine fr_cut x ?_ ?_; (on_goal 2 => dsimp only [x]); (on_goal 1 => clear_value x; intro hx))
    | (extract_lets +onlyGivenNames x; fail_if_success (have : State := x); clear_value x)
    | exact MaskLe.trans (by decide +kernel) hM
    | with_reducible apply fr_pair
    | split
    | dsimp -zeta only
def fm_judgeSwap : Nat := mFld LLN_STATUS_swap_conflict
theorem State.judgeSwap_fr {M s0} (s : State) (B : Nat) (hM : MaskLe fm_judgeSwap M) (hs : Fr M s0 s) : Fr M s0 (State.judgeSwap s B) := by
  unfold State.judgeSwap
  repeat' first
    | (intro x)
    | with_reducible first | assumption | apply State.wrb_fr | apply fr_each
    | (extract_lets +onlyGivenNames x; refine fr_cut x ?_ ?_; (on_goal 2 => dsimp only [x]); (on_goal 1 => clear_value x; intro hx))
    | (extract_lets +onlyGivenNames x; fail_if_success (have : State := x); clear_value x)
    | exact MaskLe.trans (by decide +kernel) hM
    | with_reducible apply fr_pair
    | split
    | dsimp -zeta only
def fm_laneStop : Nat := mFld LLN_STATUS_prbs_lock ||| mFld LLN_STATUS_cdr_lock ||| mFld LLN_STATUS_cw_lock ||| mFld LLN_STATUS_trained ||| mFld LLN_SKEW_valid ||| fm_abortTrial ||| fm_evWhen ||| fm_setPrbs ||| fm_setLane ||| fm_showMargin ||| fm_realignSlice ||| fm_setFlexoLock ||| fm_refreshLine ||| fm_refreshBlock
theorem State.laneStop_fr {M s0} (s : State) (n : Nat) (hM : MaskLe fm_laneStop M) (hs : Fr M s0 s) : Fr M s0 (State.laneStop s n) := by
  unfold State.laneStop
  repeat' first
    | (intro x)
    | with_reducible first | assumption | apply State.abortTrial_fr | apply State.evWhen_fr | apply State.setPrbs_fr | apply State.wrb_fr | apply State.setLane_fr | apply State.showMargin_fr | apply State.realignSlice_fr | apply State.setFlexoLock_fr | apply State.refreshLine_fr | apply State.refreshBlock_fr | apply fr_each
    | (extract_lets +onlyGivenNames x; refine fr_cut x ?_ ?_; (on_goal 2 => dsimp only [x]); (on_goal 1 => clear_value x; intro hx))
    | (extract_lets +onlyGivenNames x; fail_if_success (have : State := x); clear_value x)
    | exact MaskLe.trans (by decide +kernel) hM
    | with_reducible apply fr_pair
    | dsimp -zeta only
def fm_laneRunChange : Nat := mFld LLN_STATUS_sig_det ||| fm_setLane ||| fm_judgeSwap ||| fm_laneStop
theorem State.laneRunChange_fr {M s0} (s : State) (n : Nat) (on : Bool) (hM : MaskLe fm_laneRunChange M) (hs : Fr M s0 s) : Fr M s0 (State.laneRunChange s n on) := by
  unfold State.laneRunChange
  repeat' first
    | (intro x)
    | with_reducible first | assumption | apply State.setLane_fr | apply State.judgeSwap_fr | apply State.wrb_fr | apply State.laneStop_fr | apply fr_ite
    | (extract_lets +onlyGivenNames x; refine fr_cut x ?_ ?_; (on_goal 2 => dsimp only [x]); (on_goal 1 => clear_value x; intro hx))
    | (extract_lets +onlyGivenNames x; fail_if_success (have : State := x); clear_value x)
    | exact MaskLe.trans (by decide +kernel) hM
    | with_reducible apply fr_pair
    | split
    | dsimp -zeta only
def fm_frontEnd : Nat := fm_free ||| fm_setLane
theorem State.frontEnd_fr {M s0} (s : State) (n : Nat) (hM : MaskLe fm_frontEnd M) (hs : Fr M s0 s) : Fr M s0 (State.frontEnd s n) := by
  unfold State.frontEnd
  repeat' first
    | (intro x)
    | with_reducible first | assumption | apply State.free_fr | apply State.setLane_fr
    | (extract_lets +onlyGivenNames x; refine fr_cut x ?_ ?_; (on_goal 2 => dsimp only [x]); (on_goal 1 => clear_value x; intro hx))
    | (extract_lets +onlyGivenNames x; fail_if_success (have : State := x); clear_value x)
    | exact MaskLe.trans (by decide +kernel) hM
    | with_reducible apply fr_pair
    | split
    | dsimp -zeta only
def fm_adaptLoops : Nat := fm_frontEnd ||| fm_free ||| fm_setLane
theorem State.adaptLoops_fr {M s0} (s : State) (n : Nat) (hM : MaskLe fm_adaptLoops M) (hs : Fr M s0 s) : Fr M s0 (State.adaptLoops s n) := by
  unfold State.adaptLoops
  repeat' first
    | (intro x)
    | with_reducible first | assumption | apply State.frontEnd_fr | apply State.free_fr | apply State.setLane_fr
    | (extract_lets +onlyGivenNames x; refine fr_cut x ?_ ?_; (on_goal 2 => dsimp only [x]); (on_goal 1 => clear_value x; intro hx))
    | (extract_lets +onlyGivenNames x; fail_if_success (have : State := x); clear_value x)
    | exact MaskLe.trans (by decide +kernel) hM
    | with_reducible apply fr_pair
    | split
    | dsimp -zeta only
def fm_adaptDone : Nat := mFld LLN_STATUS_trained ||| fm_free ||| fm_frontEnd ||| fm_setLane ||| fm_ev ||| fm_setEq
theorem State.adaptDone_fr {M s0} (s : State) (n : Nat) (hM : MaskLe fm_adaptDone M) (hs : Fr M s0 s) : Fr M s0 (State.adaptDone s n) := by
  unfold State.adaptDone
  repeat' first
    | (intro x)
    | with_reducible first | assumption | apply State.free_fr | apply State.frontEnd_fr | apply State.setLane_fr | apply State.ev_fr | apply State.wrb_fr | apply State.setEq_fr | apply fr_ite
    | (extract_lets +onlyGivenNames x; refine fr_cut x ?_ ?_; (on_goal 2 => dsimp only [x]); (on_goal 1 => clear_value x; intro hx))
    | (extract_lets +onlyGivenNames x; fail_if_success (have : State := x); clear_value x)
    | exact MaskLe.trans (by decide +kernel) hM
    | with_reducible apply fr_pair
    | split
    | dsimp -zeta only
def fm_writeAdaptCfg : Nat := mFld LLN_ADAPT_CFG_trial_en ||| mFld LLN_ADAPT_CFG_freeze ||| mFld LLN_ADAPT_CFG_floor ||| mFld LLN_ADAPT_CFG_ceiling ||| mFld LLN_ADAPT_CFG_interval ||| mFld LLN_ADAPT_CFG_kinds ||| fm_judgeWaiting ||| fm_abortTrial
theorem State.writeAdaptCfg_fr {M s0} (s : State) (n v : Nat) (hM : MaskLe fm_writeAdaptCfg M) (hs : Fr M s0 s) : Fr M s0 (State.writeAdaptCfg s n v) := by
  unfold State.writeAdaptCfg
  repeat' first
    | with_reducible first | assumption | apply State.wr_fr | apply State.judgeWaiting_fr | apply State.abortTrial_fr | apply fr_ite
    | (extract_lets +onlyGivenNames x; refine fr_cut x ?_ ?_; (on_goal 2 => dsimp only [x]); (on_goal 1 => clear_value x; intro hx))
    | (extract_lets +onlyGivenNames x; fail_if_success (have : State := x); clear_value x)
    | exact MaskLe.trans (by decide +kernel) hM
    | split
    | dsimp -zeta only
def fm_laneCfgChange : Nat := fm_abortTrial ||| fm_setLane ||| fm_laneStop
theorem State.laneCfgChange_fr {M s0} (s : State) (n : Nat) (hM : MaskLe fm_laneCfgChange M) (hs : Fr M s0 s) : Fr M s0 (State.laneCfgChange s n) := by
  unfold State.laneCfgChange
  repeat' first
    | (intro x)
    | with_reducible first | assumption | apply State.abortTrial_fr | apply State.setLane_fr | apply State.laneStop_fr | apply fr_ite
    | (extract_lets +onlyGivenNames x; refine fr_cut x ?_ ?_; (on_goal 2 => dsimp only [x]); (on_goal 1 => clear_value x; intro hx))
    | (extract_lets +onlyGivenNames x; fail_if_success (have : State := x); clear_value x)
    | exact MaskLe.trans (by decide +kernel) hM
    | with_reducible apply fr_pair
    | split
    | dsimp -zeta only
def fm_holdSlice : Nat := fm_enterSearch
theorem State.holdSlice_fr {M s0} (s : State) (d : Nat) (hM : MaskLe fm_holdSlice M) (hs : Fr M s0 s) : Fr M s0 (State.holdSlice s d) := by
  unfold State.holdSlice
  repeat' first
    | with_reducible first | assumption | apply State.enterSearch_fr | apply fr_ite
    | exact MaskLe.trans (by decide +kernel) hM
    | split
    | dsimp -zeta only
def fm_findInst : Nat := fm_setLane
theorem State.findInst_fr {M s0} (s : State) (d : Nat) (f : FlexoFrame) (hM : MaskLe fm_findInst M) (hs : Fr M s0 s) : Fr M s0 (State.findInst s d f) := by
  unfold State.findInst
  repeat' first
    | (intro x)
    | with_reducible first | assumption | apply State.setLane_fr | apply fr_ite
    | exact MaskLe.trans (by decide +kernel) hM
    | with_reducible apply fr_pair
    | split
    | dsimp -zeta only
def fm_judgeFlexo : Nat := mFld OTU_STATUS_drpf ||| mFld OTU_STATUS_dgidm ||| fm_setSlice ||| fm_sliceDef
theorem State.judgeFlexo_fr {M s0} (s : State) (d : Nat) (f : FlexoFrame) (hM : MaskLe fm_judgeFlexo M) (hs : Fr M s0 s) : Fr M s0 (State.judgeFlexo s d f) := by
  unfold State.judgeFlexo
  repeat' first
    | (intro x)
    | with_reducible first | assumption | apply State.setSlice_fr | apply State.sliceDef_fr | apply fr_ite
    | (extract_lets +onlyGivenNames x; refine fr_cut x ?_ ?_; (on_goal 2 => dsimp only [x]); (on_goal 1 => clear_value x; intro hx))
    | (extract_lets +onlyGivenNames x; fail_if_success (have : State := x); clear_value x)
    | exact MaskLe.trans (by decide +kernel) hM
    | with_reducible apply fr_pair
    | split
    | dsimp -zeta only
def fm_flexoFrame : Nat := mFld OTU_STATUS_dpmm ||| fm_findInst ||| fm_setFlexoLock ||| fm_judgeFlexo ||| fm_sliceDef ||| fm_refreshBlock ||| fm_holdSlice
theorem State.flexoFrame_fr {M s0} (s : State) (d : Nat) (f : FlexoFrame) (hM : MaskLe fm_flexoFrame M) (hs : Fr M s0 s) : Fr M s0 (State.flexoFrame s d f) := by
  unfold State.flexoFrame
  repeat' first
    | (intro x)
    | with_reducible first | assumption | apply State.findInst_fr | apply State.setFlexoLock_fr | apply State.judgeFlexo_fr | apply State.sliceDef_fr | apply State.refreshBlock_fr | apply State.holdSlice_fr | apply fr_ite | apply fr_each
    | (extract_lets +onlyGivenNames x; refine fr_cut x ?_ ?_; (on_goal 2 => dsimp only [x]); (on_goal 1 => clear_value x; intro hx))
    | (extract_lets +onlyGivenNames x; fail_if_success (have : State := x); clear_value x)
    | exact MaskLe.trans (by decide +kernel) hM
    | with_reducible apply fr_pair
    | split
    | dsimp -zeta only
def fm_enterSync : Nat := mFld OTU_STATUS_im ||| mFld OTU_STATUS_in_frame ||| mFld OTU_STATUS_fstate ||| fm_ev ||| fm_setSlice
theorem State.enterSync_fr {M s0} (s : State) (d : Nat) (hM : MaskLe fm_enterSync M) (hs : Fr M s0 s) : Fr M s0 (State.enterSync s d) := by
  unfold State.enterSync
  repeat' first
    | (intro x)
    | with_reducible first | assumption | apply State.ev_fr | apply State.wrb_fr | apply State.wr_fr | apply State.setSlice_fr
    | (extract_lets +onlyGivenNames x; refine fr_cut x ?_ ?_; (on_goal 2 => dsimp only [x]); (on_goal 1 => clear_value x; intro hx))
    | (extract_lets +onlyGivenNames x; fail_if_success (have : State := x); clear_value x)
    | exact MaskLe.trans (by decide +kernel) hM
    | with_reducible apply fr_pair
    | dsimp -zeta only
def fm_judgeFas : Nat := mFld OTU_STATUS_fstate ||| mFld OTU_FAS_ERR ||| fm_setSlice ||| fm_enterSync ||| fm_enterSearch ||| fm_raiseSuspect
theorem State.judgeFas_fr {M s0} (s : State) (d : Nat) (ok : Bool) (hM : MaskLe fm_judgeFas M) (hs : Fr M s0 s) : Fr M s0 (State.judgeFas s d ok) := by
  unfold State.judgeFas
  repeat' first
    | (intro x)
    | with_reducible first | assumption | apply State.setSlice_fr | apply State.enterSync_fr | apply State.wr_fr | apply State.enterSearch_fr | apply State.count_fr | apply State.raiseSuspect_fr | apply fr_ite
    | (extract_lets +onlyGivenNames x; refine fr_cut x ?_ ?_; (on_goal 2 => dsimp only [x]); (on_goal 1 => clear_value x; intro hx))
    | (extract_lets +onlyGivenNames x; fail_if_success (have : State := x); clear_value x)
    | exact MaskLe.trans (by decide +kernel) hM
    | with_reducible apply fr_pair
    | split
    | dsimp -zeta only
def fm_judgeMfas : Nat := mFld OTU_MFAS_ERR ||| mFld OTU_STATUS_bonded ||| mFld OTU_STATUS_im ||| fm_setSlice ||| fm_ev
theorem State.judgeMfas_fr {M s0} (s : State) (d mfas : Nat) (hM : MaskLe fm_judgeMfas M) (hs : Fr M s0 s) : Fr M s0 (State.judgeMfas s d mfas) := by
  unfold State.judgeMfas
  repeat' first
    | (intro x)
    | with_reducible first | assumption | apply State.setSlice_fr | apply State.count_fr | apply State.ev_fr | apply State.wrb_fr | apply fr_ite
    | (extract_lets +onlyGivenNames x; refine fr_cut x ?_ ?_; (on_goal 2 => dsimp only [x]); (on_goal 1 => clear_value x; intro hx))
    | (extract_lets +onlyGivenNames x; fail_if_success (have : State := x); clear_value x)
    | exact MaskLe.trans (by decide +kernel) hM
    | with_reducible apply fr_pair
    | split
    | dsimp -zeta only
def fm_evalTim : Nat := mFld OTU_STATUS_dtim ||| fm_sliceDef
theorem State.evalTim_fr {M s0} (s : State) (d : Nat) (hM : MaskLe fm_evalTim M) (hs : Fr M s0 s) : Fr M s0 (State.evalTim s d) := by
  unfold State.evalTim
  repeat' first
    | with_reducible first | assumption | apply State.sliceDef_fr | apply fr_ite
    | (extract_lets +onlyGivenNames x; refine fr_cut x ?_ ?_; (on_goal 2 => dsimp only [x]); (on_goal 1 => clear_value x; intro hx))
    | (extract_lets +onlyGivenNames x; fail_if_success (have : State := x); clear_value x)
    | exact MaskLe.trans (by decide +kernel) hM
    | split
    | dsimp -zeta only
def fm_sliceTti : Nat := mTab T_OTU_TTI_ACC ||| fm_setPoint ||| fm_evalTim ||| fm_evWhen
theorem State.sliceTti_fr {M s0} (s : State) (d pos byte : Nat) (hM : MaskLe fm_sliceTti M) (hs : Fr M s0 s) : Fr M s0 (State.sliceTti s d pos byte) := by
  unfold State.sliceTti
  repeat' first
    | (intro x)
    | with_reducible first | assumption | apply State.setPoint_fr | apply State.evalTim_fr | apply State.evWhen_fr | apply State.setEntry_fr
    | (extract_lets +onlyGivenNames x; refine fr_cut x ?_ ?_; (on_goal 2 => dsimp only [x]); (on_goal 1 => clear_value x; intro hx))
    | (extract_lets +onlyGivenNames x; fail_if_success (have : State := x); clear_value x)
    | exact MaskLe.trans (by decide +kernel) hM
    | with_reducible apply fr_pair
    | split
    | dsimp -zeta only
def fm_judgeSm : Nat := mFld OTU_BIP_BLK ||| mFld OTU_BIP_BITS ||| mFld OTU_STATUS_dbdi ||| mFld OTU_STATUS_diae ||| mFld OTU_STATUS_dbiae ||| mFld OTU_BEI_BLK ||| mFld OTU_BEI_BITS ||| fm_setPoint ||| fm_sliceDef
theorem State.judgeSm_fr {M s0} (s : State) (d : Nat) (f : OtucFrame) (hM : MaskLe fm_judgeSm M) (hs : Fr M s0 s) : Fr M s0 (State.judgeSm s d f) := by
  unfold State.judgeSm
  repeat' first
    | (intro x)
    | with_reducible first | assumption | apply State.count_fr | apply State.setPoint_fr | apply State.sliceDef_fr | apply fr_ite
    | (extract_lets +onlyGivenNames x; refine fr_cut x ?_ ?_; (on_goal 2 => dsimp only [x]); (on_goal 1 => clear_value x; intro hx))
    | (extract_lets +onlyGivenNames x; fail_if_success (have : State := x); clear_value x)
    | exact MaskLe.trans (by decide +kernel) hM
    | with_reducible apply fr_pair
    | split
    | dsimp -zeta only
def fm_otucFrameIn : Nat := fm_judgeFas ||| fm_judgeMfas ||| fm_judgeSm ||| fm_setSlice ||| fm_sliceTti ||| fm_setPoint ||| fm_judgeBond ||| fm_refreshBlock
theorem State.otucFrameIn_fr {M s0} (s : State) (d : Nat) (f : OtucFrame) (hM : MaskLe fm_otucFrameIn M) (hs : Fr M s0 s) : Fr M s0 (State.otucFrameIn s d f) := by
  unfold State.otucFrameIn
  repeat' first
    | (intro x)
    | with_reducible first | assumption | apply State.judgeFas_fr | apply State.judgeMfas_fr | apply State.judgeSm_fr | apply State.setSlice_fr | apply State.sliceTti_fr | apply State.setPoint_fr | apply State.judgeBond_fr | apply State.refreshBlock_fr | apply fr_ite
    | (extract_lets +onlyGivenNames x; refine fr_cut x ?_ ?_; (on_goal 2 => dsimp only [x]); (on_goal 1 => clear_value x; intro hx))
    | (extract_lets +onlyGivenNames x; fail_if_success (have : State := x); clear_value x)
    | exact MaskLe.trans (by decide +kernel) hM
    | with_reducible apply fr_pair
    | split
    | dsimp -zeta only
def fm_lofOn : Nat := mFld OTU_STATUS_dlof ||| mFld OTU_LOF_INT_dp_cycles ||| fm_setSlice ||| fm_refreshBlock ||| fm_sliceDef
theorem State.lofOn_fr {M s0} (s : State) (d : Nat) (hM : MaskLe fm_lofOn M) (hs : Fr M s0 s) : Fr M s0 (State.lofOn s d) := by
  unfold State.lofOn
  repeat' first
    | (intro x)
    | with_reducible first | assumption | apply State.setSlice_fr | apply State.refreshBlock_fr | apply State.sliceDef_fr | apply State.wr_fr | apply fr_ite
    | (extract_lets +onlyGivenNames x; refine fr_cut x ?_ ?_; (on_goal 2 => dsimp only [x]); (on_goal 1 => clear_value x; intro hx))
    | (extract_lets +onlyGivenNames x; fail_if_success (have : State := x); clear_value x)
    | exact MaskLe.trans (by decide +kernel) hM
    | with_reducible apply fr_pair
    | split
    | dsimp -zeta only
def fm_lofOff : Nat := mFld OTU_STATUS_dlof ||| mFld OTU_LOF_INT_dp_cycles ||| fm_refreshBlock ||| fm_sliceDef ||| fm_setSlice
theorem State.lofOff_fr {M s0} (s : State) (d : Nat) (hM : MaskLe fm_lofOff M) (hs : Fr M s0 s) : Fr M s0 (State.lofOff s d) := by
  unfold State.lofOff
  repeat' first
    | (intro x)
    | with_reducible first | assumption | apply State.refreshBlock_fr | apply State.sliceDef_fr | apply State.wr_fr | apply State.setSlice_fr | apply fr_ite
    | exact MaskLe.trans (by decide +kernel) hM
    | with_reducible apply fr_pair
    | split
    | dsimp -zeta only
def fm_lomOn : Nat := mFld OTU_STATUS_dlom ||| fm_setSlice ||| fm_refreshBlock ||| fm_sliceDef
theorem State.lomOn_fr {M s0} (s : State) (d : Nat) (hM : MaskLe fm_lomOn M) (hs : Fr M s0 s) : Fr M s0 (State.lomOn s d) := by
  unfold State.lomOn
  repeat' first
    | (intro x)
    | with_reducible first | assumption | apply State.setSlice_fr | apply State.refreshBlock_fr | apply State.sliceDef_fr | apply fr_ite
    | (extract_lets +onlyGivenNames x; refine fr_cut x ?_ ?_; (on_goal 2 => dsimp only [x]); (on_goal 1 => clear_value x; intro hx))
    | (extract_lets +onlyGivenNames x; fail_if_success (have : State := x); clear_value x)
    | exact MaskLe.trans (by decide +kernel) hM
    | with_reducible apply fr_pair
    | split
    | dsimp -zeta only
def fm_lomOff : Nat := mFld OTU_STATUS_dlom ||| fm_refreshBlock ||| fm_sliceDef ||| fm_setSlice
theorem State.lomOff_fr {M s0} (s : State) (d : Nat) (hM : MaskLe fm_lomOff M) (hs : Fr M s0 s) : Fr M s0 (State.lomOff s d) := by
  unfold State.lomOff
  repeat' first
    | (intro x)
    | with_reducible first | assumption | apply State.refreshBlock_fr | apply State.sliceDef_fr | apply State.setSlice_fr | apply fr_ite
    | exact MaskLe.trans (by decide +kernel) hM
    | with_reducible apply fr_pair
    | split
    | dsimp -zeta only
def fm_dlomCnOn : Nat := mFld OTU_STATUS_dlom_cn ||| fm_setSlice ||| fm_refreshBlock ||| fm_sliceDef
theorem State.dlomCnOn_fr {M s0} (s : State) (lead : Nat) (hM : MaskLe fm_dlomCnOn M) (hs : Fr M s0 s) : Fr M s0 (State.dlomCnOn s lead) := by
  unfold State.dlomCnOn
  repeat' first
    | (intro x)
    | with_reducible first | assumption | apply State.setSlice_fr | apply State.refreshBlock_fr | apply State.sliceDef_fr | apply fr_ite
    | (extract_lets +onlyGivenNames x; refine fr_cut x ?_ ?_; (on_goal 2 => dsimp only [x]); (on_goal 1 => clear_value x; intro hx))
    | (extract_lets +onlyGivenNames x; fail_if_success (have : State := x); clear_value x)
    | exact MaskLe.trans (by decide +kernel) hM
    | with_reducible apply fr_pair
    | split
    | dsimp -zeta only
def fm_dlomCnOff : Nat := mFld OTU_STATUS_dlom_cn ||| fm_refreshBlock ||| fm_sliceDef ||| fm_setSlice
theorem State.dlomCnOff_fr {M s0} (s : State) (lead : Nat) (hM : MaskLe fm_dlomCnOff M) (hs : Fr M s0 s) : Fr M s0 (State.dlomCnOff s lead) := by
  unfold State.dlomCnOff
  repeat' first
    | (intro x)
    | with_reducible first | assumption | apply State.refreshBlock_fr | apply State.sliceDef_fr | apply State.setSlice_fr | apply fr_ite
    | exact MaskLe.trans (by decide +kernel) hM
    | with_reducible apply fr_pair
    | split
    | dsimp -zeta only
def fm_bondEnter : Nat := mFld OTU_STATUS_bonded ||| fm_refreshBlock ||| fm_judgeBond
theorem State.bondEnter_fr {M s0} (s : State) (d : Nat) (hM : MaskLe fm_bondEnter M) (hs : Fr M s0 s) : Fr M s0 (State.bondEnter s d) := by
  unfold State.bondEnter
  repeat' first
    | with_reducible first | assumption | apply State.refreshBlock_fr | apply State.judgeBond_fr | apply State.wrb_fr | apply fr_ite
    | exact MaskLe.trans (by decide +kernel) hM
    | split
    | dsimp -zeta only
def fm_lofTick : Nat := mFld OTU_LOF_INT_dp_cycles ||| fm_lofOn ||| fm_setSlice ||| fm_lofOff
theorem State.lofTick_fr {M s0} (s : State) (d : Nat) (hM : MaskLe fm_lofTick M) (hs : Fr M s0 s) : Fr M s0 (State.lofTick s d) := by
  unfold State.lofTick
  repeat' first
    | (intro x)
    | with_reducible first | assumption | apply State.wr_fr | apply State.lofOn_fr | apply State.setSlice_fr | apply State.lofOff_fr | apply fr_ite
    | (extract_lets +onlyGivenNames x; refine fr_cut x ?_ ?_; (on_goal 2 => dsimp only [x]); (on_goal 1 => clear_value x; intro hx))
    | (extract_lets +onlyGivenNames x; fail_if_success (have : State := x); clear_value x)
    | exact MaskLe.trans (by decide +kernel) hM
    | with_reducible apply fr_pair
    | split
    | dsimp -zeta only
def fm_lomTick : Nat := fm_setSlice ||| fm_lomOn ||| fm_lomOff
theorem State.lomTick_fr {M s0} (s : State) (d : Nat) (hM : MaskLe fm_lomTick M) (hs : Fr M s0 s) : Fr M s0 (State.lomTick s d) := by
  unfold State.lomTick
  repeat' first
    | (intro x)
    | with_reducible first | assumption | apply State.setSlice_fr | apply State.lomOn_fr | apply State.lomOff_fr | apply fr_ite
    | (extract_lets +onlyGivenNames x; refine fr_cut x ?_ ?_; (on_goal 2 => dsimp only [x]); (on_goal 1 => clear_value x; intro hx))
    | (extract_lets +onlyGivenNames x; fail_if_success (have : State := x); clear_value x)
    | exact MaskLe.trans (by decide +kernel) hM
    | with_reducible apply fr_pair
    | split
    | dsimp -zeta only
def fm_bondTick : Nat := fm_setSlice ||| fm_dlomCnOn ||| fm_dlomCnOff
theorem State.bondTick_fr {M s0} (s : State) (d : Nat) (hM : MaskLe fm_bondTick M) (hs : Fr M s0 s) : Fr M s0 (State.bondTick s d) := by
  unfold State.bondTick
  repeat' first
    | (intro x)
    | with_reducible first | assumption | apply State.setSlice_fr | apply State.dlomCnOn_fr | apply State.dlomCnOff_fr | apply fr_ite
    | (extract_lets +onlyGivenNames x; refine fr_cut x ?_ ?_; (on_goal 2 => dsimp only [x]); (on_goal 1 => clear_value x; intro hx))
    | (extract_lets +onlyGivenNames x; fail_if_success (have : State := x); clear_value x)
    | exact MaskLe.trans (by decide +kernel) hM
    | with_reducible apply fr_pair
    | split
    | dsimp -zeta only
def fm_sliceTick : Nat := fm_lomTick ||| fm_lofTick ||| fm_bondTick
theorem State.sliceTick_fr {M s0} (s : State) (d : Nat) (hM : MaskLe fm_sliceTick M) (hs : Fr M s0 s) : Fr M s0 (State.sliceTick s d) := by
  unfold State.sliceTick
  repeat' first
    | with_reducible first | assumption | apply State.lomTick_fr | apply State.lofTick_fr | apply State.bondTick_fr | apply fr_ite
    | (extract_lets +onlyGivenNames x; refine fr_cut x ?_ ?_; (on_goal 2 => dsimp only [x]); (on_goal 1 => clear_value x; intro hx))
    | (extract_lets +onlyGivenNames x; fail_if_success (have : State := x); clear_value x)
    | exact MaskLe.trans (by decide +kernel) hM
    | split
    | dsimp -zeta only
def fm_undeclare : Nat := fm_epiDiscard ||| fm_unrecord
theorem State.undeclare_fr {M s0} (s : State) (d : Nat) (f : Field) (ev kind : Nat) (at_ : Option (Nat × Bool)) (hM : MaskLe fm_undeclare M) (hf_f : MaskLe (mFld f) M) (hs : Fr M s0 s) : Fr M s0 (State.undeclare s d f ev kind at_) := by
  unfold State.undeclare
  repeat' first
    | (intro x)
    | with_reducible first | assumption | apply State.epiDiscard_fr | apply State.wrb_fr | apply State.unrecord_fr | apply fr_ite
    | (extract_lets +onlyGivenNames x; refine fr_cut x ?_ ?_; (on_goal 2 => dsimp only [x]); (on_goal 1 => clear_value x; intro hx))
    | (extract_lets +onlyGivenNames x; fail_if_success (have : State := x); clear_value x)
    | exact MaskLe.trans (by decide +kernel) hM
    | with_reducible apply fr_pair
    | split
    | dsimp -zeta only
def fm_undeclareInts : Nat := mFld OTU_STATUS_dlom_cn ||| mFld OTU_STATUS_dlom ||| mFld OTU_STATUS_dlof ||| fm_undeclare
theorem State.undeclareInts_fr {M s0} (s : State) (d : Nat) (hM : MaskLe fm_undeclareInts M) (hs : Fr M s0 s) : Fr M s0 (State.undeclareInts s d) := by
  unfold State.undeclareInts
  repeat' first
    | with_reducible first | assumption | apply State.undeclare_fr
    | (extract_lets +onlyGivenNames x; refine fr_cut x ?_ ?_; (on_goal 2 => dsimp only [x]); (on_goal 1 => clear_value x; intro hx))
    | (extract_lets +onlyGivenNames x; fail_if_success (have : State := x); clear_value x)
    | exact MaskLe.trans (by decide +kernel) hM
    | dsimp -zeta only
def fm_clearSlice : Nat := mDefects ||| mFld OTU_LOF_INT_dp_cycles ||| fm_enterSearch ||| fm_undeclareInts ||| fm_sliceDef ||| fm_setSlice ||| fm_setPoint
theorem State.clearSlice_fr {M s0} (s : State) (d : Nat) (hM : MaskLe fm_clearSlice M) (hs : Fr M s0 s) : Fr M s0 (State.clearSlice s d) := by
  unfold State.clearSlice
  extract_lets s1 s2 s3 s4
  have h1 : Fr M s0 s1 := State.enterSearch_fr _ _ (MaskLe.trans (by decide +kernel) hM) (State.undeclareInts_fr _ _ (MaskLe.trans (by decide +kernel) hM) hs)
  clear_value s1
  have h2 : Fr M s0 s2 := fr_each_mem h1 (fun s x hx h => State.sliceDef_fr _ _ _ _ _ _ _ (MaskLe.trans (by decide +kernel) hM) (MaskLe.trans (mDefects_mem _ hx) (MaskLe.trans (by decide +kernel) hM)) h)
  clear_value s2
  have h3 : Fr M s0 s3 := State.setSlice_fr _ _ _ (MaskLe.trans (by decide +kernel) hM) h2
  clear_value s3
  exact State.setPoint_fr _ _ _ (MaskLe.trans (by decide +kernel) hM) (State.wr_fr _ _ _ _ (MaskLe.trans (by decide +kernel) hM) h3)
def fm_showMember : Nat := mFld OTU_STATUS_position ||| mFld OTU_STATUS_member
theorem State.showMember_fr {M s0} (s : State) (d : Nat) (hM : MaskLe fm_showMember M) (hs : Fr M s0 s) : Fr M s0 (State.showMember s d) := by
  unfold State.showMember
  repeat' first
    | with_reducible first | assumption | apply State.wr_fr | apply State.wrb_fr
    | exact MaskLe.trans (by decide +kernel) hM
    | dsimp -zeta only
def fm_otuIfChange : Nat := fm_showMember ||| fm_clearSlice
theorem State.otuIfChange_fr {M s0} (s : State) (d : Nat) (hM : MaskLe fm_otuIfChange M) (hs : Fr M s0 s) : Fr M s0 (State.otuIfChange s d) := by
  unfold State.otuIfChange
  repeat' first
    | with_reducible first | assumption | apply State.showMember_fr | apply State.clearSlice_fr
    | exact MaskLe.trans (by decide +kernel) hM
    | dsimp -zeta only
def fm_otuRunChange : Nat := mDefects ||| mFld OTU_STATUS_im ||| mFld OTU_STATUS_in_frame ||| mFld OTU_STATUS_fstate ||| mFld OTU_LOF_INT_dp_cycles ||| mFld OTU_STATUS_flexo_lock ||| mFld OTU_STATUS_bonded ||| fm_setSlice ||| fm_refreshBlock ||| fm_epiPush ||| fm_setPoint ||| fm_judgeBond
theorem State.otuRunChange_fr {M s0} (s : State) (d : Nat) (on : Bool) (hM : MaskLe fm_otuRunChange M) (hs : Fr M s0 s) : Fr M s0 (State.otuRunChange s d on) := by
  unfold State.otuRunChange
  refine fr_ite ?_ ?_
  · extract_lets lead s1
    have h1 : Fr M s0 s1 := fr_ite (State.setSlice_fr _ _ _ (MaskLe.trans (by decide +kernel) hM) hs) hs
    clear_value s1
    exact State.refreshBlock_fr _ _ (MaskLe.trans (by decide +kernel) hM) h1
  · extract_lets pg s1 s2 s3 s4 s5
    have h1 : Fr M s0 s1 := by
      refine fr_each_mem hs (fun s x hx h => ?_)
      refine fr_ite (State.epiPush_fr _ _ _ _ _ _ _ (MaskLe.trans (by decide +kernel) hM) ?_) h
      exact State.wrb_fr _ _ _ _ (MaskLe.trans (mDefects_mem _ hx) (MaskLe.trans (by decide +kernel) hM)) h
    clear_value s1
    have h2 : Fr M s0 s2 := State.wrb_fr _ _ _ _ (MaskLe.trans (by decide +kernel) hM) (State.wrb_fr _ _ _ _ (MaskLe.trans (by decide +kernel) hM) (State.wr_fr _ _ _ _ (MaskLe.trans (by decide +kernel) hM) h1))
    clear_value s2
    have h3 : Fr M s0 s3 := State.wr_fr _ _ _ _ (MaskLe.trans (by decide +kernel) hM) (State.wrb_fr _ _ _ _ (MaskLe.trans (by decide +kernel) hM) (State.wrb_fr _ _ _ _ (MaskLe.trans (by decide +kernel) hM) h2))
    clear_value s3
    have h5 : Fr M s0 s5 := State.setPoint_fr _ _ _ (MaskLe.trans (by decide +kernel) hM) (State.setSlice_fr _ _ _ (MaskLe.trans (by decide +kernel) hM) h3)
    clear_value s5
    exact State.refreshBlock_fr _ _ (MaskLe.trans (by decide +kernel) hM) (fr_ite (State.judgeBond_fr _ _ (MaskLe.trans (by decide +kernel) hM) h5) h5)
def fm_otucSend : Nat := mFld OTU_BEI_CLIP ||| fm_setPoint ||| fm_setSlice ||| fm_emit
theorem State.otucSend_fr {M s0} (s : State) (d mfas : Nat) (gcc0 : List Nat) (computed : Nat) (rpf : Bool) (hM : MaskLe fm_otucSend M) (hs : Fr M s0 s) : Fr M s0 (State.otucSend s d mfas gcc0 computed rpf) := by
  unfold State.otucSend
  repeat' first
    | (intro x)
    | with_reducible first | assumption | apply State.count_fr | apply State.setPoint_fr | apply State.setSlice_fr | apply State.emit_fr | apply fr_ite
    | (extract_lets +onlyGivenNames x; refine fr_cut x ?_ ?_; (on_goal 2 => dsimp only [x]); (on_goal 1 => clear_value x; intro hx))
    | (extract_lets +onlyGivenNames x; fail_if_success (have : State := x); clear_value x)
    | exact MaskLe.trans (by decide +kernel) hM
    | with_reducible apply fr_pair
    | split
    | dsimp -zeta only
def fm_otucLine : Nat := fm_sendLane
theorem State.otucLine_fr {M s0} (s : State) (lead : Nat) (words : List (List Nat)) (hM : MaskLe fm_otucLine M) (hs : Fr M s0 s) : Fr M s0 (State.otucLine s lead words) := by
  unfold State.otucLine
  exact fr_each hs (fun s x h => fr_ite (State.sendLane_fr _ _ _ (MaskLe.trans (by decide +kernel) hM) h) h)
def fm_corruptFas : Nat := fm_setSlice
theorem State.corruptFas_fr {M s0} (s : State) (d : Nat) (hM : MaskLe fm_corruptFas M) (hs : Fr M s0 s) : Fr M s0 (State.corruptFas s d) := by
  unfold State.corruptFas
  repeat' first
    | (intro x)
    | with_reducible first | assumption | apply State.setSlice_fr
    | exact MaskLe.trans (by decide +kernel) hM
    | with_reducible apply fr_pair
    | dsimp -zeta only
def fm_writeTxForce : Nat := mFld OTU_TX_FORCE_force_bdi ||| mFld OTU_TX_FORCE_force_iae ||| mFld OTU_TX_FORCE_inv_bip ||| mFld OTU_TX_FORCE_fas ||| fm_corruptFas
theorem State.writeTxForce_fr {M s0} (s : State) (d v : Nat) (hM : MaskLe fm_writeTxForce M) (hs : Fr M s0 s) : Fr M s0 (State.writeTxForce s d v) := by
  unfold State.writeTxForce
  repeat' first
    | with_reducible first | assumption | apply State.wr_fr | apply State.corruptFas_fr | apply fr_ite
    | (extract_lets +onlyGivenNames x; refine fr_cut x ?_ ?_; (on_goal 2 => dsimp only [x]); (on_goal 1 => clear_value x; intro hx))
    | (extract_lets +onlyGivenNames x; fail_if_success (have : State := x); clear_value x)
    | exact MaskLe.trans (by decide +kernel) hM
    | split
    | dsimp -zeta only
def fm_evalPointTim : Nat := fm_pointDef
theorem State.evalPointTim_fr {M s0} (s : State) (B dir m e : Nat) (hM : MaskLe fm_evalPointTim M) (hs : Fr M s0 s) : Fr M s0 (State.evalPointTim s B dir m e) := by
  unfold State.evalPointTim
  repeat' first
    | with_reducible first | assumption | apply State.pointDef_fr | apply fr_ite
    | (extract_lets +onlyGivenNames x; refine fr_cut x ?_ ?_; (on_goal 2 => dsimp only [x]); (on_goal 1 => clear_value x; intro hx))
    | (extract_lets +onlyGivenNames x; fail_if_success (have : State := x); clear_value x)
    | exact MaskLe.trans (by decide +kernel) hM
    | split
    | dsimp -zeta only
def fm_judgeStat : Nat := fm_setPoint ||| fm_pointDef
theorem State.judgeStat_fr {M s0} (s : State) (B dir m e level : Nat) (f : OduFrame) (hM : MaskLe fm_judgeStat M) (hs : Fr M s0 s) : Fr M s0 (State.judgeStat s B dir m e level f) := by
  unfold State.judgeStat
  repeat' first
    | (intro x)
    | with_reducible first | assumption | apply State.setPoint_fr | apply State.pointDef_fr
    | (extract_lets +onlyGivenNames x; refine fr_cut x ?_ ?_; (on_goal 2 => dsimp only [x]); (on_goal 1 => clear_value x; intro hx))
    | (extract_lets +onlyGivenNames x; fail_if_success (have : State := x); clear_value x)
    | exact MaskLe.trans (by decide +kernel) hM
    | with_reducible apply fr_pair
    | dsimp -zeta only
def fm_judgeField : Nat := mTab T_MP_TTI_ACC ||| fm_setPoint ||| fm_pointDef ||| fm_evalPointTim ||| fm_evWhen
theorem State.judgeField_fr {M s0} (s : State) (B dir m e level : Nat) (f : OduFrame) (inMf : Bool) (hM : MaskLe fm_judgeField M) (hs : Fr M s0 s) : Fr M s0 (State.judgeField s B dir m e level f inMf) := by
  unfold State.judgeField
  repeat' first
    | (intro x)
    | with_reducible first | assumption | apply State.setPoint_fr | apply State.pointDef_fr | apply State.evalPointTim_fr | apply State.evWhen_fr | apply State.setEntry_fr | apply fr_ite
    | (extract_lets +onlyGivenNames x; refine fr_cut x ?_ ?_; (on_goal 2 => dsimp only [x]); (on_goal 1 => clear_value x; intro hx))
    | (extract_lets +onlyGivenNames x; fail_if_success (have : State := x); clear_value x)
    | exact MaskLe.trans (by decide +kernel) hM
    | with_reducible apply fr_pair
    | split
    | dsimp -zeta only
def fm_judgePoint : Nat := fm_judgeStat ||| fm_setPoint ||| fm_judgeField
theorem State.judgePoint_fr {M s0} (s : State) (B dir : Nat) (p : Nat × Nat × Nat × Nat) (f : OduFrame) (inMf : Bool) (hM : MaskLe fm_judgePoint M) (hs : Fr M s0 s) : Fr M s0 (State.judgePoint s B dir p f inMf) := by
  unfold State.judgePoint
  repeat' first
    | (intro x)
    | with_reducible first | assumption | apply State.judgeStat_fr | apply State.setPoint_fr | apply State.judgeField_fr | apply fr_ite
    | (extract_lets +onlyGivenNames x; refine fr_cut x ?_ ?_; (on_goal 2 => dsimp only [x]); (on_goal 1 => clear_value x; intro hx))
    | (extract_lets +onlyGivenNames x; fail_if_success (have : State := x); clear_value x)
    | exact MaskLe.trans (by decide +kernel) hM
    | with_reducible apply fr_pair
    | split
    | dsimp -zeta only
def fm_judgePt : Nat := mTab T_MP_STATUS ||| fm_setCtx ||| fm_pointDef
theorem State.judgePt_fr {M s0} (s : State) (B dir e m pe : Nat) (c : Ctx) (f : OduFrame) (hM : MaskLe fm_judgePt M) (hs : Fr M s0 s) : Fr M s0 (State.judgePt s B dir e m pe c f) := by
  unfold State.judgePt
  repeat' first
    | (intro x)
    | with_reducible first | assumption | apply State.setCtx_fr | apply State.tput_fr | apply State.pointDef_fr | apply fr_ite
    | (extract_lets +onlyGivenNames x; refine fr_cut x ?_ ?_; (on_goal 2 => dsimp only [x]); (on_goal 1 => clear_value x; intro hx))
    | (extract_lets +onlyGivenNames x; fail_if_success (have : State := x); clear_value x)
    | exact MaskLe.trans (by decide +kernel) hM
    | with_reducible apply fr_pair
    | split
    | dsimp -zeta only
def fm_judgeCsf : Nat := fm_pointDef ||| fm_setCtx
theorem State.judgeCsf_fr {M s0} (s : State) (B e m pe : Nat) (c : Ctx) (f : OduFrame) (hM : MaskLe fm_judgeCsf M) (hs : Fr M s0 s) : Fr M s0 (State.judgeCsf s B e m pe c f) := by
  unfold State.judgeCsf
  repeat' first
    | (intro x)
    | with_reducible first | assumption | apply State.pointDef_fr | apply State.setCtx_fr | apply fr_ite
    | (extract_lets +onlyGivenNames x; refine fr_cut x ?_ ?_; (on_goal 2 => dsimp only [x]); (on_goal 1 => clear_value x; intro hx))
    | (extract_lets +onlyGivenNames x; fail_if_success (have : State := x); clear_value x)
    | exact MaskLe.trans (by decide +kernel) hM
    | with_reducible apply fr_pair
    | split
    | dsimp -zeta only
def fm_judgeMsi : Nat := fm_setCtx ||| fm_pointDef
theorem State.judgeMsi_fr {M s0} (s : State) (B e m pe : Nat) (c : Ctx) (f : OduFrame) (hM : MaskLe fm_judgeMsi M) (hs : Fr M s0 s) : Fr M s0 (State.judgeMsi s B e m pe c f) := by
  unfold State.judgeMsi
  repeat' first
    | (intro x)
    | with_reducible first | assumption | apply State.setCtx_fr | apply State.pointDef_fr | apply fr_ite
    | (extract_lets +onlyGivenNames x; refine fr_cut x ?_ ?_; (on_goal 2 => dsimp only [x]); (on_goal 1 => clear_value x; intro hx))
    | (extract_lets +onlyGivenNames x; fail_if_success (have : State := x); clear_value x)
    | exact MaskLe.trans (by decide +kernel) hM
    | with_reducible apply fr_pair
    | split
    | dsimp -zeta only
def fm_judgePayload : Nat := fm_judgeMsi ||| fm_judgeCsf ||| fm_judgePt
theorem State.judgePayload_fr {M s0} (s : State) (B e : Nat) (f : OduFrame) (hM : MaskLe fm_judgePayload M) (hs : Fr M s0 s) : Fr M s0 (State.judgePayload s B e f) := by
  unfold State.judgePayload
  repeat' first
    | with_reducible first | assumption | apply State.judgeMsi_fr | apply State.judgeCsf_fr | apply State.judgePt_fr
    | (extract_lets +onlyGivenNames x; refine fr_cut x ?_ ?_; (on_goal 2 => dsimp only [x]); (on_goal 1 => clear_value x; intro hx))
    | (extract_lets +onlyGivenNames x; fail_if_success (have : State := x); clear_value x)
    | exact MaskLe.trans (by decide +kernel) hM
    | dsimp -zeta only
def fm_oduFrameIn : Nat := fm_aisFrame ||| fm_setPoint ||| fm_setCtx ||| fm_judgePoint ||| fm_judgePayload ||| fm_refreshCtxs
theorem State.oduFrameIn_fr {M s0} (s : State) (B e : Nat) (f : OduFrame) (hM : MaskLe fm_oduFrameIn M) (hs : Fr M s0 s) : Fr M s0 (State.oduFrameIn s B e f) := by
  unfold State.oduFrameIn
  repeat' first
    | (intro x)
    | with_reducible first | assumption | apply State.aisFrame_fr | apply State.setPoint_fr | apply State.setCtx_fr | apply State.judgePoint_fr | apply State.judgePayload_fr | apply State.refreshCtxs_fr | apply fr_ite | apply fr_each
    | (extract_lets +onlyGivenNames x; refine fr_cut x ?_ ?_; (on_goal 2 => dsimp only [x]); (on_goal 1 => clear_value x; intro hx))
    | (extract_lets +onlyGivenNames x; fail_if_success (have : State := x); clear_value x)
    | exact MaskLe.trans (by decide +kernel) hM
    | with_reducible apply fr_pair
    | split
    | dsimp -zeta only
def fm_dloflomOn : Nat := fm_refreshCtxs ||| fm_pointDef ||| fm_setCtx
theorem State.dloflomOn_fr {M s0} (s : State) (B e : Nat) (omfi : Bool) (hM : MaskLe fm_dloflomOn M) (hs : Fr M s0 s) : Fr M s0 (State.dloflomOn s B e omfi) := by
  unfold State.dloflomOn
  repeat' first
    | (intro x)
    | with_reducible first | assumption | apply State.refreshCtxs_fr | apply State.pointDef_fr | apply State.setCtx_fr | apply fr_ite
    | (extract_lets +onlyGivenNames x; refine fr_cut x ?_ ?_; (on_goal 2 => dsimp only [x]); (on_goal 1 => clear_value x; intro hx))
    | (extract_lets +onlyGivenNames x; fail_if_success (have : State := x); clear_value x)
    | exact MaskLe.trans (by decide +kernel) hM
    | with_reducible apply fr_pair
    | split
    | dsimp -zeta only
def fm_dloflomOff : Nat := fm_refreshCtxs ||| fm_pointDef ||| fm_setCtx
theorem State.dloflomOff_fr {M s0} (s : State) (B e : Nat) (omfi : Bool) (hM : MaskLe fm_dloflomOff M) (hs : Fr M s0 s) : Fr M s0 (State.dloflomOff s B e omfi) := by
  unfold State.dloflomOff
  repeat' first
    | (intro x)
    | with_reducible first | assumption | apply State.refreshCtxs_fr | apply State.pointDef_fr | apply State.setCtx_fr | apply fr_ite
    | (extract_lets +onlyGivenNames x; refine fr_cut x ?_ ?_; (on_goal 2 => dsimp only [x]); (on_goal 1 => clear_value x; intro hx))
    | (extract_lets +onlyGivenNames x; fail_if_success (have : State := x); clear_value x)
    | exact MaskLe.trans (by decide +kernel) hM
    | with_reducible apply fr_pair
    | split
    | dsimp -zeta only
theorem State.integTick_fr {M s0} (s : State) (x : Integ) (bad : Bool) (put : Integ → State → State) (on off : State → State) (k_put : ∀ x s, Fr M s0 s → Fr M s0 (put x s)) (k_on : ∀ s, Fr M s0 s → Fr M s0 (on s)) (k_off : ∀ s, Fr M s0 s → Fr M s0 (off s)) (hs : Fr M s0 s) : Fr M s0 (State.integTick s x bad put on off) := by
  unfold State.integTick
  repeat' first
    | with_reducible first | assumption | apply k_put | apply k_on | apply k_off | apply fr_ite
    | split
    | dsimp -zeta only
def fm_ctxTick : Nat := fm_setCtx ||| fm_dloflomOn ||| fm_dloflomOff
theorem State.ctxTick_fr {M s0} (s : State) (B e : Nat) (hM : MaskLe fm_ctxTick M) (hs : Fr M s0 s) : Fr M s0 (State.ctxTick s B e) := by
  unfold State.ctxTick
  repeat' first
    | (intro x)
    | with_reducible first | assumption | apply State.integTick_fr | apply State.setCtx_fr | apply State.dloflomOn_fr | apply State.dloflomOff_fr | apply fr_ite
    | (extract_lets +onlyGivenNames x; refine fr_cut x ?_ ?_; (on_goal 2 => dsimp only [x]); (on_goal 1 => clear_value x; intro hx))
    | (extract_lets +onlyGivenNames x; fail_if_success (have : State := x); clear_value x)
    | exact MaskLe.trans (by decide +kernel) hM
    | with_reducible apply fr_pair
    | split
    | dsimp -zeta only
def fm_forcedAis : Nat := mTab T_CTX_STATUS ||| fm_ev ||| fm_report ||| fm_refreshCtxs
theorem State.forcedAis_fr {M s0} (s : State) (B dir e : Nat) (hM : MaskLe fm_forcedAis M) (hs : Fr M s0 s) : Fr M s0 (State.forcedAis s B dir e) := by
  unfold State.forcedAis
  repeat' first
    | with_reducible first | assumption | apply State.ev_fr | apply State.tputb_fr | apply State.report_fr | apply State.refreshCtxs_fr | apply fr_ite
    | (extract_lets +onlyGivenNames x; refine fr_cut x ?_ ?_; (on_goal 2 => dsimp only [x]); (on_goal 1 => clear_value x; intro hx))
    | (extract_lets +onlyGivenNames x; fail_if_success (have : State := x); clear_value x)
    | exact MaskLe.trans (by decide +kernel) hM
    | split
    | dsimp -zeta only
def fm_takeBack : Nat := fm_setPoint
theorem State.takeBack_fr {M s0} (s : State) (B e t : Nat) (hM : MaskLe fm_takeBack M) (hs : Fr M s0 s) : Fr M s0 (State.takeBack s B e t).2 := by
  unfold State.takeBack
  repeat' first
    | (intro x)
    | with_reducible first | assumption | apply State.setPoint_fr | apply fr2_ite
    | (extract_lets +onlyGivenNames x; refine fr_cut x ?_ ?_; (on_goal 2 => dsimp only [x]); (on_goal 1 => clear_value x; intro hx))
    | (extract_lets +onlyGivenNames x; fail_if_success (have : State := x); clear_value x)
    | exact MaskLe.trans (by decide +kernel) hM
    | with_reducible apply fr2_pair
    | split
    | dsimp -zeta only
def fm_ctxClose : Nat := fm_epiBoundary ||| fm_pointDef
theorem State.ctxClose_fr {M s0} (s : State) (B dir e : Nat) (deconf : Bool) (hM : MaskLe fm_ctxClose M) (hs : Fr M s0 s) : Fr M s0 (State.ctxClose s B dir e deconf) := by
  unfold State.ctxClose
  repeat' first
    | (intro x)
    | with_reducible first | assumption | apply State.epiBoundary_fr | apply State.pointDef_fr | apply fr_ite | apply fr_each
    | (extract_lets +onlyGivenNames x; refine fr_cut x ?_ ?_; (on_goal 2 => dsimp only [x]); (on_goal 1 => clear_value x; intro hx))
    | (extract_lets +onlyGivenNames x; fail_if_success (have : State := x); clear_value x)
    | exact MaskLe.trans (by decide +kernel) hM
    | with_reducible apply fr_pair
    | split
    | dsimp -zeta only
def fm_pointStart : Nat := fm_pointHide ||| fm_setPoint
theorem State.pointStart_fr {M s0} (s : State) (B m e gen : Nat) (hM : MaskLe fm_pointStart M) (hs : Fr M s0 s) : Fr M s0 (State.pointStart s B m e gen) := by
  unfold State.pointStart
  repeat' first
    | (intro x)
    | with_reducible first | assumption | apply State.pointHide_fr | apply State.setPoint_fr
    | (extract_lets +onlyGivenNames x; refine fr_cut x ?_ ?_; (on_goal 2 => dsimp only [x]); (on_goal 1 => clear_value x; intro hx))
    | (extract_lets +onlyGivenNames x; fail_if_success (have : State := x); clear_value x)
    | exact MaskLe.trans (by decide +kernel) hM
    | with_reducible apply fr_pair
    | dsimp -zeta only
def fm_pointStop : Nat := fm_setPoint ||| fm_pointHide
theorem State.pointStop_fr {M s0} (s : State) (B m e : Nat) (hM : MaskLe fm_pointStop M) (hs : Fr M s0 s) : Fr M s0 (State.pointStop s B m e) := by
  unfold State.pointStop
  repeat' first
    | with_reducible first | assumption | apply State.setPoint_fr | apply State.pointHide_fr
    | exact MaskLe.trans (by decide +kernel) hM
    | dsimp -zeta only
def fm_ctxStart : Nat := 2 ^ 37 ||| mTab T_CTX_STATUS ||| fm_pointStart
theorem State.ctxStart_fr {M s0} (s : State) (B dir e gen : Nat) (own : Bool) (hM : MaskLe fm_ctxStart M) (hs : Fr M s0 s) : Fr M s0 (State.ctxStart s B dir e gen own) := by
  unfold State.ctxStart
  repeat' first
    | (intro x)
    | with_reducible first | assumption | apply State.setEntry_fr | apply State.pointStart_fr | apply fr_each
    | (extract_lets +onlyGivenNames x; refine fr_cut x ?_ ?_; (on_goal 2 => dsimp only [x]); (on_goal 1 => clear_value x; intro hx))
    | (extract_lets +onlyGivenNames x; fail_if_success (have : State := x); clear_value x)
    | exact MaskLe.trans (by decide +kernel) hM
    | (with_reducible refine fr_mk_ctxs (MaskLe.trans (by decide +kernel) hM) ?_; first | with_reducible assumption | with_reducible apply State.setEntry_fr | with_reducible apply State.pointStart_fr)
    | with_reducible apply fr_pair
    | dsimp -zeta only
def fm_ctxStop : Nat := 2 ^ 37 ||| mTab T_CTX_STATUS ||| fm_ctxClose ||| fm_pointStop
theorem State.ctxStop_fr {M s0} (s : State) (B dir e : Nat) (hM : MaskLe fm_ctxStop M) (hs : Fr M s0 s) : Fr M s0 (State.ctxStop s B dir e) := by
  unfold State.ctxStop
  repeat' first
    | (intro x)
    | with_reducible first | assumption | apply State.ctxClose_fr | apply State.setEntry_fr | apply State.pointStop_fr | apply fr_each
    | (extract_lets +onlyGivenNames x; refine fr_cut x ?_ ?_; (on_goal 2 => dsimp only [x]); (on_goal 1 => clear_value x; intro hx))
    | (extract_lets +onlyGivenNames x; fail_if_success (have : State := x); clear_value x)
    | exact MaskLe.trans (by decide +kernel) hM
    | (with_reducible refine fr_mk_ctxs (MaskLe.trans (by decide +kernel) hM) ?_; first | with_reducible assumption | with_reducible apply State.ctxClose_fr | with_reducible apply State.setEntry_fr | with_reducible apply State.pointStop_fr)
    | with_reducible apply fr_pair
    | dsimp -zeta only
def fm_closePoint : Nat := fm_pointDef ||| fm_setPoint
theorem State.closePoint_fr {M s0} (s : State) (f : PmFrame) (B dir e : Nat) (m pe level mode : Nat) (spot : Bool) (hM : MaskLe fm_closePoint M) (hs : Fr M s0 s) : Fr M s0 (State.closePoint s f B dir e m pe level mode spot).1 := by
  unfold State.closePoint
  repeat' first
    | (intro x)
    | with_reducible first | assumption | apply State.pointDef_fr | apply State.setPoint_fr | apply fr1_ite
    | (extract_lets +onlyGivenNames x; refine fr_cut x ?_ ?_; (on_goal 2 => dsimp only [x]); (on_goal 1 => clear_value x; intro hx))
    | (extract_lets +onlyGivenNames x; fail_if_success (have : State := x); clear_value x)
    | exact MaskLe.trans (by decide +kernel) hM
    | with_reducible apply fr1_pair
    | split
    | dsimp -zeta only
def fm_closeCtx : Nat := fm_closePoint
theorem State.closeCtx_fr {M s0} (s : State) (f : PmFrame) (B dir e : Nat) (hM : MaskLe fm_closeCtx M) (hs : Fr M s0 s) : Fr M s0 (State.closeCtx s f B dir e).1 := by
  unfold State.closeCtx
  repeat' first
    | (intro x)
    | with_reducible first | assumption | apply State.closePoint_fr | apply fr_foldl | apply fr_foldl2 | apply fr_foldl1
    | (extract_lets +onlyGivenNames x; refine fr_cut x ?_ ?_; (on_goal 2 => dsimp only [x]); (on_goal 1 => clear_value x; intro hx))
    | (extract_lets +onlyGivenNames x; fail_if_success (have : State := x); clear_value x)
    | exact MaskLe.trans (by decide +kernel) hM
    | with_reducible apply fr1_pair
    | with_reducible apply fr1_pair'
    | split
    | dsimp -zeta only
def fm_closeSection : Nat := mFld OTU_STATUS_ddeg ||| fm_setPoint ||| fm_sliceDef
theorem State.closeSection_fr {M s0} (s : State) (f : PmFrame) (d : Nat) (hM : MaskLe fm_closeSection M) (hs : Fr M s0 s) : Fr M s0 (State.closeSection s f d).1 := by
  unfold State.closeSection
  repeat' first
    | (intro x)
    | with_reducible first | assumption | apply State.setPoint_fr | apply State.sliceDef_fr | apply fr1_ite
    | (extract_lets +onlyGivenNames x; refine fr_cut x ?_ ?_; (on_goal 2 => dsimp only [x]); (on_goal 1 => clear_value x; intro hx))
    | (extract_lets +onlyGivenNames x; fail_if_success (have : State := x); clear_value x)
    | exact MaskLe.trans (by decide +kernel) hM
    | with_reducible apply fr1_pair
    | split
    | dsimp -zeta only
def fm_closeRest : Nat := fm_setPoint
theorem State.closeRest_fr {M s0} (s : State) (f : PmFrame) (m : Nat) (hM : MaskLe fm_closeRest M) (hs : Fr M s0 s) : Fr M s0 (State.closeRest s f m).1 := by
  unfold State.closeRest
  repeat' first
    | (intro x)
    | with_reducible first | assumption | apply State.setPoint_fr | apply fr1_ite
    | (extract_lets +onlyGivenNames x; refine fr_cut x ?_ ?_; (on_goal 2 => dsimp only [x]); (on_goal 1 => clear_value x; intro hx))
    | (extract_lets +onlyGivenNames x; fail_if_success (have : State := x); clear_value x)
    | exact MaskLe.trans (by decide +kernel) hM
    | with_reducible apply fr1_pair
    | split
    | dsimp -zeta only
theorem State.closeAll_fr {M s0} {α : Type} (s : State) (recs : List (Nat × Nat)) (l : List α) (f : State → α → State × List (Nat × Nat)) (k_f : ∀ s x, Fr M s0 s → Fr M s0 (f s x).1) (hs : Fr M s0 s) : Fr M s0 (State.closeAll s recs l f).1 := by
  unfold State.closeAll
  exact fr_foldl1 hs (fun a x h => k_f _ x h)
def fm_closeSecond : Nat := 2 ^ 38 ||| 2 ^ 40 ||| mFld WNG_PMS_STATUS_overrun ||| 2 ^ 39 ||| fm_closeCtx ||| fm_closeSection ||| fm_closeRest ||| fm_refreshBlock ||| fm_ev
theorem State.closeSecond_fr {M s0} (s : State) (sec quality : Nat) (hM : MaskLe fm_closeSecond M) (hs : Fr M s0 s) : Fr M s0 (State.closeSecond s sec quality) := by
  unfold State.closeSecond
  extract_lets f up
  clear_value up
  split
  rename_i s1 recs e1
  have h1 : Fr M s0 s1 := by
    rw [show s1 = _ from (congrArg Prod.fst e1).symm]
    exact State.closeAll_fr _ _ _ _ (fun s x h => State.closeCtx_fr _ _ _ _ _ (MaskLe.trans (by decide +kernel) hM) h) hs
  clear e1
  split
  rename_i s2 recs2 e2
  have h2 : Fr M s0 s2 := by
    rw [show s2 = _ from (congrArg Prod.fst e2).symm]
    exact State.closeAll_fr _ _ _ _ (fun s d h => State.closeSection_fr s f d (MaskLe.trans (by decide +kernel) hM) h) h1
  clear e2
  split
  rename_i s3 recs3 e3
  have h3 : Fr M s0 s3 := by
    rw [show s3 = _ from (congrArg Prod.fst e3).symm]
    exact State.closeAll_fr _ _ _ _ (fun s m h => State.closeRest_fr s f m (MaskLe.trans (by decide +kernel) hM) h) h2
  clear e3
  extract_lets s4 s5 s6
  have h4 : Fr M s0 s4 := fr_each h3 (fun s c h => State.refreshBlock_fr _ _ (MaskLe.trans (by decide +kernel) hM) h)
  clear_value s4
  have h5 : Fr M s0 s5 := fr_mk_secCount_tbStepped (MaskLe.trans (by decide +kernel) hM) h4
  clear_value s5
  refine fr_ite ?_ h5
  have h6 : Fr M s0 s6 := fr_ite h5 (State.ev_fr _ _ _ (MaskLe.trans (by decide +kernel) hM) (State.countSat_fr _ _ _ _ (MaskLe.trans (by decide +kernel) hM) h5))
  clear_value s6
  exact fr_mk_pmPend (MaskLe.trans (by decide +kernel) hM) h6
def fm_pmWrite : Nat := 2 ^ 15
theorem State.pmWrite_fr {M s0} (s : State) (f : PmFrame) (hM : MaskLe fm_pmWrite M) (hs : Fr M s0 s) : Fr M s0 (State.pmWrite s f) := by
  unfold State.pmWrite
  extract_lets base
  refine fr_mem (MaskLe.trans (by decide +kernel) hM) hs (fun k => ?_)
  generalize List.range 524288 = l
  exact wf_foldl _ _ _ k (fun m x h => wf_memWriteBytes _ _ _ h)
def fm_episodeChange : Nat := 2 ^ 34 ||| fm_epiApply
theorem State.episodeChange_fr {M s0} (s : State) (r : Nat) (hM : MaskLe fm_episodeChange M) (hs : Fr M s0 s) : Fr M s0 (State.episodeChange s r) := by
  unfold State.episodeChange
  repeat' first
    | (intro x)
    | with_reducible first | assumption | apply State.epiApply_fr
    | exact MaskLe.trans (by decide +kernel) hM
    | (with_reducible refine fr_mk_epi (MaskLe.trans (by decide +kernel) hM) ?_; first | with_reducible assumption | with_reducible apply State.epiApply_fr)
    | with_reducible apply fr_pair
    | split
    | dsimp -zeta only
def fm_aggregatedOff : Nat := mTab T_EPI_AGG ||| 2 ^ 34 ||| mFld EPI_STATUS_aggregated ||| fm_epiOpen ||| fm_evWhen ||| fm_epiShow ||| fm_ev ||| fm_logRec
theorem State.aggregatedOff_fr {M s0} (s : State) (r : Nat) (hM : MaskLe fm_aggregatedOff M) (hs : Fr M s0 s) : Fr M s0 (State.aggregatedOff s r) := by
  unfold State.aggregatedOff
  extract_lets pg t loose s1 s2 s3 s4
  refine fr_ite ?_ hs
  have h1 : Fr M s0 s1 := fr_each hs (fun s c h => State.epiOpen_fr _ _ _ _ _ (MaskLe.trans (by decide +kernel) hM) (State.tput_fr _ _ _ _ _ _ (MaskLe.trans (by decide +kernel) hM) h))
  clear_value s1
  have h2 : Fr M s0 s2 := fr_mk_epi (MaskLe.trans (by decide +kernel) hM) h1
  clear_value s2
  have h3 : Fr M s0 s3 := State.evWhen_fr _ _ _ _ (MaskLe.trans (by decide +kernel) hM) h2
  clear_value s3
  have h4 : Fr M s0 s4 := State.epiShow_fr _ _ (MaskLe.trans (by decide +kernel) hM) (State.ev_fr _ _ _ (MaskLe.trans (by decide +kernel) hM) (State.wrb_fr _ _ _ _ (MaskLe.trans (by decide +kernel) hM) h3))
  clear_value s4
  exact State.logRec_fr _ _ _ _ _ (MaskLe.trans (by decide +kernel) hM) h4
def fm_setGmp : Nat := 2 ^ 42
theorem State.setGmp_fr {M s0} (s : State) (k : Nat) (f : Gmp → Gmp) (hM : MaskLe fm_setGmp M) (hs : Fr M s0 s) : Fr M s0 (State.setGmp s k f) := by
  unfold State.setGmp
  repeat' first
    | with_reducible first | assumption
    | exact MaskLe.trans (by decide +kernel) hM
    | (with_reducible refine fr_mk_gmps (MaskLe.trans (by decide +kernel) hM) ?_; first | with_reducible assumption)
    | dsimp -zeta only
def fm_showLevel : Nat := mTab T_CLI_STATUS
theorem State.showLevel_fr {M s0} (s : State) (c : CliRef) (hM : MaskLe fm_showLevel M) (hs : Fr M s0 s) : Fr M s0 (State.showLevel s c) := by
  unfold State.showLevel
  repeat' first
    | with_reducible first | assumption | apply State.tput_fr | apply fr_ite
    | (extract_lets +onlyGivenNames x; refine fr_cut x ?_ ?_; (on_goal 2 => dsimp only [x]); (on_goal 1 => clear_value x; intro hx))
    | (extract_lets +onlyGivenNames x; fail_if_success (have : State := x); clear_value x)
    | exact MaskLe.trans (by decide +kernel) hM
    | with_reducible apply fr_pair
    | split
    | dsimp -zeta only
def fm_openBytes : Nat := fm_free
theorem State.openBytes_fr {M s0} (s : State) (n : Nat) (hM : MaskLe fm_openBytes M) (hs : Fr M s0 s) : Fr M s0 (State.openBytes s n).2 := by
  unfold State.openBytes
  repeat' first
    | (intro x)
    | with_reducible first | assumption | apply State.free_fr
    | (extract_lets +onlyGivenNames x; refine fr_cut x ?_ ?_; (on_goal 2 => dsimp only [x]); (on_goal 1 => clear_value x; intro hx))
    | (extract_lets +onlyGivenNames x; fail_if_success (have : State := x); clear_value x)
    | exact MaskLe.trans (by decide +kernel) hM
    | with_reducible apply fr2_pair
    | split
    | dsimp -zeta only
def fm_openBlks : Nat := fm_free
theorem State.openBlks_fr {M s0} (s : State) (n : Nat) (hM : MaskLe fm_openBlks M) (hs : Fr M s0 s) : Fr M s0 (State.openBlks s n).2 := by
  unfold State.openBlks
  repeat' first
    | (intro x)
    | with_reducible first | assumption | apply State.free_fr
    | (extract_lets +onlyGivenNames x; refine fr_cut x ?_ ?_; (on_goal 2 => dsimp only [x]); (on_goal 1 => clear_value x; intro hx))
    | (extract_lets +onlyGivenNames x; fail_if_success (have : State := x); clear_value x)
    | exact MaskLe.trans (by decide +kernel) hM
    | with_reducible apply fr2_pair
    | split
    | dsimp -zeta only
def fm_cliDef : Nat := mTab T_CLI_STATUS ||| mEthDef ||| fm_ev ||| fm_epiPush ||| fm_refreshCtxs ||| fm_refreshEth
theorem State.cliDef_fr {M s0} (s : State) (c : CliRef) (kind : Nat) (on : Bool) (deconf : Bool) (hM : MaskLe fm_cliDef M) (hs : Fr M s0 s) : Fr M s0 (State.cliDef s c kind on deconf) := by
  unfold State.cliDef
  split
  · refine fr_ite hs ?_
    extract_lets s1 s2
    have h1 : Fr M s0 s1 := State.ev_fr _ _ _ (MaskLe.trans (by decide +kernel) hM) (State.tputb_fr _ _ _ _ _ _ (MaskLe.trans (by decide +kernel) hM) hs)
    clear_value s1
    have h2 : Fr M s0 s2 := State.epiPush_fr _ _ _ _ _ _ _ (MaskLe.trans (by decide +kernel) hM) h1
    clear_value s2
    exact fr_ite (State.refreshCtxs_fr _ _ (MaskLe.trans (by decide +kernel) hM) h2) h2
  · split
    · rename_i e
      refine fr_ite hs ?_
      exact State.refreshEth_fr _ _ (MaskLe.trans (by decide +kernel) hM) (State.epiPush_fr _ _ _ _ _ _ _ (MaskLe.trans (by decide +kernel) hM) (State.ev_fr _ _ _ (MaskLe.trans (by decide +kernel) hM) (State.wrb_fr _ _ _ _ (MaskLe.trans (mEthDef_mem e) (MaskLe.trans (by decide +kernel) hM)) hs)))
    · exact hs
def fm_judgeFill : Nat := fm_cliDef
theorem State.judgeFill_fr {M s0} (s : State) (c : CliRef) (hM : MaskLe fm_judgeFill M) (hs : Fr M s0 s) : Fr M s0 (State.judgeFill s c) := by
  unfold State.judgeFill
  repeat' first
    | with_reducible first | assumption | apply State.cliDef_fr | apply fr_ite
    | (extract_lets +onlyGivenNames x; refine fr_cut x ?_ ?_; (on_goal 2 => dsimp only [x]); (on_goal 1 => clear_value x; intro hx))
    | (extract_lets +onlyGivenNames x; fail_if_success (have : State := x); clear_value x)
    | exact MaskLe.trans (by decide +kernel) hM
    | split
    | dsimp -zeta only
def fm_closOn : Nat := fm_cliDef
theorem State.closOn_fr {M s0} (s : State) (c : CliRef) (hM : MaskLe fm_closOn M) (hs : Fr M s0 s) : Fr M s0 (State.closOn s c) := by
  unfold State.closOn
  repeat' first
    | (intro x)
    | with_reducible first | assumption | apply State.cliDef_fr | apply fr_ite
    | exact MaskLe.trans (by decide +kernel) hM
    | with_reducible apply fr_pair
    | split
    | dsimp -zeta only
def fm_closOff : Nat := fm_cliDef
theorem State.closOff_fr {M s0} (s : State) (c : CliRef) (hM : MaskLe fm_closOff M) (hs : Fr M s0 s) : Fr M s0 (State.closOff s c) := by
  unfold State.closOff
  repeat' first
    | (intro x)
    | with_reducible first | assumption | apply State.cliDef_fr | apply fr_ite
    | exact MaskLe.trans (by decide +kernel) hM
    | with_reducible apply fr_pair
    | split
    | dsimp -zeta only
def fm_clfChange : Nat := fm_cliDef
theorem State.clfChange_fr {M s0} (s : State) (c : CliRef) (on : Bool) (hM : MaskLe fm_clfChange M) (hs : Fr M s0 s) : Fr M s0 (State.clfChange s c on) := by
  unfold State.clfChange
  repeat' first
    | with_reducible first | assumption | apply State.cliDef_fr | apply fr_ite
    | exact MaskLe.trans (by decide +kernel) hM
    | split
    | dsimp -zeta only
def fm_crfChange : Nat := fm_cliDef
theorem State.crfChange_fr {M s0} (s : State) (c : CliRef) (on : Bool) (hM : MaskLe fm_crfChange M) (hs : Fr M s0 s) : Fr M s0 (State.crfChange s c on) := by
  unfold State.crfChange
  repeat' first
    | with_reducible first | assumption | apply State.cliDef_fr | apply fr_ite
    | exact MaskLe.trans (by decide +kernel) hM
    | split
    | dsimp -zeta only
def fm_crateOff : Nat := fm_cliDef
theorem State.crateOff_fr {M s0} (s : State) (c : CliRef) (hM : MaskLe fm_crateOff M) (hs : Fr M s0 s) : Fr M s0 (State.crateOff s c) := by
  unfold State.crateOff
  repeat' first
    | with_reducible first | assumption | apply State.cliDef_fr | apply fr_ite
    | (extract_lets +onlyGivenNames x; refine fr_cut x ?_ ?_; (on_goal 2 => dsimp only [x]); (on_goal 1 => clear_value x; intro hx))
    | (extract_lets +onlyGivenNames x; fail_if_success (have : State := x); clear_value x)
    | exact MaskLe.trans (by decide +kernel) hM
    | split
    | dsimp -zeta only
def fm_toward : Nat := fm_free
theorem State.toward_fr {M s0} (s : State) (a b : Int) (hM : MaskLe fm_toward M) (hs : Fr M s0 s) : Fr M s0 (State.toward s a b).2 := by
  unfold State.toward
  repeat' first
    | with_reducible first | assumption | apply State.free_fr | apply fr2_ite
    | (extract_lets +onlyGivenNames x; refine fr_cut x ?_ ?_; (on_goal 2 => dsimp only [x]); (on_goal 1 => clear_value x; intro hx))
    | (extract_lets +onlyGivenNames x; fail_if_success (have : State := x); clear_value x)
    | exact MaskLe.trans (by decide +kernel) hM
    | with_reducible apply fr2_pair
    | split
    | dsimp -zeta only
def fm_fillStep : Nat := fm_free
theorem State.fillStep_fr {M s0} (s : State) (x : Cli) (fill depth : Nat) (hold : Bool) (hM : MaskLe fm_fillStep M) (hs : Fr M s0 s) : Fr M s0 (State.fillStep s x fill depth hold).2 := by
  unfold State.fillStep
  repeat' first
    | with_reducible first | assumption | apply State.free_fr | apply fr2_ite
    | (extract_lets +onlyGivenNames x; refine fr_cut x ?_ ?_; (on_goal 2 => dsimp only [x]); (on_goal 1 => clear_value x; intro hx))
    | (extract_lets +onlyGivenNames x; fail_if_success (have : State := x); clear_value x)
    | exact MaskLe.trans (by decide +kernel) hM
    | with_reducible apply fr2_pair
    | split
    | dsimp -zeta only
def fm_genStep : Nat := mTab T_CLI_STATUS ||| fm_toward ||| fm_fillStep ||| fm_setCli
theorem State.genStep_fr {M s0} (s : State) (B e : Nat) (hM : MaskLe fm_genStep M) (hs : Fr M s0 s) : Fr M s0 (State.genStep s B e).2 := by
  unfold State.genStep
  extract_lets k x hold
  have h1 : Fr M s0 (if hold = true then (x.oSnap, s) else s.toward x.oSnap x.snap).2 := fr2_ite hs (State.toward_fr _ _ _ (MaskLe.trans (by decide +kernel) hM) hs)
  generalize (if hold = true then (x.oSnap, s) else s.toward x.oSnap x.snap) = p at h1 ⊢
  obtain ⟨a, s1⟩ := p
  dsimp -zeta only at h1 ⊢
  have h2 := State.fillStep_fr s1 x (x.level (s1.cliCode B 1 e)) (cliDepth (s1.cliCode B 1 e)) hold (MaskLe.trans (by decide +kernel) hM) h1
  generalize (s1.fillStep x (x.level (s1.cliCode B 1 e)) (cliDepth (s1.cliCode B 1 e)) hold) = p at h2 ⊢
  obtain ⟨b, s2⟩ := p
  dsimp -zeta only at h2 ⊢
  extract_lets s3 o s4
  have h3 : Fr M s0 s3 := State.setCli_fr _ _ _ (MaskLe.trans (by decide +kernel) hM) h2
  clear_value s3
  have h4 : Fr M s0 s4 := fr_ite (State.tput_fr _ _ _ _ _ _ (MaskLe.trans (by decide +kernel) hM) h3) h3
  exact h4
def fm_giveClient : Nat := fm_judgeFill ||| fm_showLevel ||| fm_setCli
theorem State.giveClient_fr {M s0} (s : State) (B e n : Nat) (hM : MaskLe fm_giveClient M) (hs : Fr M s0 s) : Fr M s0 (State.giveClient s B e n).2 := by
  unfold State.giveClient
  repeat' first
    | (intro x)
    | with_reducible first | assumption | apply State.judgeFill_fr | apply State.showLevel_fr | apply State.setCli_fr
    | (extract_lets +onlyGivenNames x; refine fr_cut x ?_ ?_; (on_goal 2 => dsimp only [x]); (on_goal 1 => clear_value x; intro hx))
    | (extract_lets +onlyGivenNames x; fail_if_success (have : State := x); clear_value x)
    | exact MaskLe.trans (by decide +kernel) hM
    | with_reducible apply fr2_pair
    | split
    | dsimp -zeta only
def fm_takeClient : Nat := fm_judgeFill ||| fm_showLevel ||| fm_setCli
theorem State.takeClient_fr {M s0} (s : State) (B e : Nat) (bs : List Nat) (hM : MaskLe fm_takeClient M) (hs : Fr M s0 s) : Fr M s0 (State.takeClient s B e bs) := by
  unfold State.takeClient
  repeat' first
    | (intro x)
    | with_reducible first | assumption | apply State.judgeFill_fr | apply State.showLevel_fr | apply State.setCli_fr | apply fr_ite
    | (extract_lets +onlyGivenNames x; refine fr_cut x ?_ ?_; (on_goal 2 => dsimp only [x]); (on_goal 1 => clear_value x; intro hx))
    | (extract_lets +onlyGivenNames x; fail_if_success (have : State := x); clear_value x)
    | exact MaskLe.trans (by decide +kernel) hM
    | with_reducible apply fr_pair
    | split
    | dsimp -zeta only
def fm_gmpMapPeriod : Nat := mTab T_CLI_STATUS ||| fm_genStep ||| fm_setGmp ||| fm_giveClient ||| fm_emit
theorem State.gmpMapPeriod_fr {M s0} (s : State) (B e : Nat) (mux : Bool) (data : List Nat) (hM : MaskLe fm_gmpMapPeriod M) (hs : Fr M s0 s) : Fr M s0 (State.gmpMapPeriod s B e mux data) := by
  unfold State.gmpMapPeriod
  repeat' first
    | (intro x)
    | with_reducible first | assumption | apply State.genStep_fr | apply State.setGmp_fr | apply State.giveClient_fr | apply State.tput_fr | apply State.emit_fr | apply fr_ite
    | (extract_lets +onlyGivenNames x; refine fr_cut x ?_ ?_; (on_goal 2 => dsimp only [x]); (on_goal 1 => clear_value x; intro hx))
    | (extract_lets +onlyGivenNames x; fail_if_success (have : State := x); clear_value x)
    | exact MaskLe.trans (by decide +kernel) hM
    | with_reducible apply fr_pair
    | split
    | dsimp -zeta only
def fm_offsetOf : Nat := fm_divFree
theorem State.offsetOf_fr {M s0} (s : State) (num den : Nat) (hist : List Nat) (serverOff : Option Int) (hM : MaskLe fm_offsetOf M) (hs : Fr M s0 s) : Fr M s0 (State.offsetOf s num den hist serverOff).2 := by
  unfold State.offsetOf
  repeat' first
    | with_reducible first | assumption | apply State.divFree_fr | apply fr2_ite
    | (extract_lets +onlyGivenNames x; refine fr_cut x ?_ ?_; (on_goal 2 => dsimp only [x]); (on_goal 1 => clear_value x; intro hx))
    | (extract_lets +onlyGivenNames x; fail_if_success (have : State := x); clear_value x)
    | exact MaskLe.trans (by decide +kernel) hM
    | with_reducible apply fr2_pair
    | split
    | dsimp -zeta only
def fm_showMuxOffset : Nat := mTab T_CLI_STATUS
theorem State.showMuxOffset_fr {M s0} (s : State) (B e off : Nat) (hM : MaskLe fm_showMuxOffset M) (hs : Fr M s0 s) : Fr M s0 (State.showMuxOffset s B e off) := by
  unfold State.showMuxOffset
  repeat' first
    | with_reducible first | assumption | apply State.tput_fr | apply fr_ite
    | exact MaskLe.trans (by decide +kernel) hM
    | split
    | dsimp -zeta only
def fm_judgeCjc : Nat := fm_setCli ||| fm_cliDef
theorem State.judgeCjc_fr {M s0} (s : State) (B e : Nat) (usedPrev : Bool) (hM : MaskLe fm_judgeCjc M) (hs : Fr M s0 s) : Fr M s0 (State.judgeCjc s B e usedPrev) := by
  unfold State.judgeCjc
  repeat' first
    | (intro x)
    | with_reducible first | assumption | apply State.setCli_fr | apply State.cliDef_fr | apply fr_ite
    | (extract_lets +onlyGivenNames x; refine fr_cut x ?_ ?_; (on_goal 2 => dsimp only [x]); (on_goal 1 => clear_value x; intro hx))
    | (extract_lets +onlyGivenNames x; fail_if_success (have : State := x); clear_value x)
    | exact MaskLe.trans (by decide +kernel) hM
    | with_reducible apply fr_pair
    | split
    | dsimp -zeta only
def fm_gmpClient : Nat := mTab T_CLI_CNT ||| mTab T_CLI_STATUS ||| fm_judgeCjc ||| fm_takeClient ||| fm_setRepl
theorem State.gmpClient_fr {M s0} (s : State) (B e ch cm c8d off : Nat) (data : List Nat) (hM : MaskLe fm_gmpClient M) (hs : Fr M s0 s) : Fr M s0 (State.gmpClient s B e ch cm c8d off data) := by
  unfold State.gmpClient
  repeat' first
    | with_reducible first | assumption | apply State.tcount_fr | apply State.tput_fr | apply State.judgeCjc_fr | apply State.takeClient_fr | apply State.setRepl_fr | apply fr_ite
    | (extract_lets +onlyGivenNames x; refine fr_cut x ?_ ?_; (on_goal 2 => dsimp only [x]); (on_goal 1 => clear_value x; intro hx))
    | (extract_lets +onlyGivenNames x; fail_if_success (have : State := x); clear_value x)
    | exact MaskLe.trans (by decide +kernel) hM
    | split
    | dsimp -zeta only
def fm_gmpDemapPeriod : Nat := mTab T_DMX_CNT ||| fm_free ||| fm_offsetOf ||| fm_setGmp ||| fm_showMuxOffset ||| fm_gmpClient
theorem State.gmpDemapPeriod_fr {M s0} (s : State) (B e : Nat) (mux : Bool) (rx : GmpRx) (hM : MaskLe fm_gmpDemapPeriod M) (hs : Fr M s0 s) : Fr M s0 (State.gmpDemapPeriod s B e mux rx) := by
  unfold State.gmpDemapPeriod
  repeat' first
    | (intro x)
    | with_reducible first | assumption | apply State.free_fr | apply State.offsetOf_fr | apply State.setGmp_fr | apply State.tcount_fr | apply State.showMuxOffset_fr | apply State.gmpClient_fr | apply fr_ite
    | (extract_lets +onlyGivenNames x; refine fr_cut x ?_ ?_; (on_goal 2 => dsimp only [x]); (on_goal 1 => clear_value x; intro hx))
    | (extract_lets +onlyGivenNames x; fail_if_success (have : State := x); clear_value x)
    | exact MaskLe.trans (by decide +kernel) hM
    | with_reducible apply fr_pair
    | split
    | dsimp -zeta only
def fm_ampJustify : Nat := fm_genStep ||| fm_emit ||| fm_setGmp
theorem State.ampJustify_fr {M s0} (s : State) (B e : Nat) (data : List Nat) (hM : MaskLe fm_ampJustify M) (hs : Fr M s0 s) : Fr M s0 (State.ampJustify s B e data) := by
  unfold State.ampJustify
  repeat' first
    | (intro x)
    | with_reducible first | assumption | apply State.genStep_fr | apply State.emit_fr | apply State.setGmp_fr | apply fr_ite
    | (extract_lets +onlyGivenNames x; refine fr_cut x ?_ ?_; (on_goal 2 => dsimp only [x]); (on_goal 1 => clear_value x; intro hx))
    | (extract_lets +onlyGivenNames x; fail_if_success (have : State := x); clear_value x)
    | exact MaskLe.trans (by decide +kernel) hM
    | with_reducible apply fr_pair
    | split
    | dsimp -zeta only
def fm_ampDemux : Nat := mTab T_DMX_CNT ||| fm_offsetOf ||| fm_setGmp
theorem State.ampDemux_fr {M s0} (s : State) (B e : Nat) (jc data : List Nat) (serverOff : Int) (hM : MaskLe fm_ampDemux M) (hs : Fr M s0 s) : Fr M s0 (State.ampDemux s B e jc data serverOff) := by
  unfold State.ampDemux
  repeat' first
    | (intro x)
    | with_reducible first | assumption | apply State.offsetOf_fr | apply State.setGmp_fr | apply State.tcount_fr | apply fr_ite
    | (extract_lets +onlyGivenNames x; refine fr_cut x ?_ ?_; (on_goal 2 => dsimp only [x]); (on_goal 1 => clear_value x; intro hx))
    | (extract_lets +onlyGivenNames x; fail_if_success (have : State := x); clear_value x)
    | exact MaskLe.trans (by decide +kernel) hM
    | with_reducible apply fr_pair
    | split
    | dsimp -zeta only
def fm_countIns : Nat := mTab T_CLI_CNT ||| mFld ETH_IDLE_INS
theorem State.countIns_fr {M s0} (s : State) (arg : CliRef) (hM : MaskLe fm_countIns M) (hs : Fr M s0 s) : Fr M s0 (State.countIns s arg) := by
  unfold State.countIns
  repeat' first
    | with_reducible first | assumption | apply State.tcount_fr | apply State.count_fr
    | exact MaskLe.trans (by decide +kernel) hM
    | split
    | dsimp -zeta only
def fm_countDel : Nat := mTab T_CLI_CNT ||| mFld ETH_IDLE_DEL
theorem State.countDel_fr {M s0} (s : State) (arg : CliRef) (hM : MaskLe fm_countDel M) (hs : Fr M s0 s) : Fr M s0 (State.countDel s arg) := by
  unfold State.countDel
  repeat' first
    | with_reducible first | assumption | apply State.tcount_fr | apply State.count_fr
    | exact MaskLe.trans (by decide +kernel) hM
    | split
    | dsimp -zeta only
def fm_countDrop : Nat := mTab T_CLI_CNT ||| mFld ETH_PKT_DROP
theorem State.countDrop_fr {M s0} (s : State) (arg : CliRef) (hM : MaskLe fm_countDrop M) (hs : Fr M s0 s) : Fr M s0 (State.countDrop s arg) := by
  unfold State.countDrop
  repeat' first
    | with_reducible first | assumption | apply State.tcount_fr | apply State.count_fr
    | exact MaskLe.trans (by decide +kernel) hM
    | split
    | dsimp -zeta only
def fm_impTake : Nat := fm_countDel ||| fm_countDrop ||| fm_judgeFill ||| fm_setCli
theorem State.impTake_fr {M s0} (s : State) (c : CliRef) (b : B66) (hM : MaskLe fm_impTake M) (hs : Fr M s0 s) : Fr M s0 (State.impTake s c b) := by
  unfold State.impTake
  repeat' first
    | (intro x)
    | with_reducible first | assumption | apply State.countDel_fr | apply State.countDrop_fr | apply State.judgeFill_fr | apply State.setCli_fr | apply fr_ite
    | (extract_lets +onlyGivenNames x; refine fr_cut x ?_ ?_; (on_goal 2 => dsimp only [x]); (on_goal 1 => clear_value x; intro hx))
    | (extract_lets +onlyGivenNames x; fail_if_success (have : State := x); clear_value x)
    | exact MaskLe.trans (by decide +kernel) hM
    | with_reducible apply fr_pair
    | split
    | dsimp -zeta only
def fm_impGive : Nat := fm_countIns ||| fm_setCli
theorem State.impGive_fr {M s0} (s : State) (c : CliRef) (hM : MaskLe fm_impGive M) (hs : Fr M s0 s) : Fr M s0 (State.impGive s c).2 := by
  unfold State.impGive
  repeat' first
    | (intro x)
    | with_reducible first | assumption | apply State.countIns_fr | apply State.setCli_fr | apply fr2_ite
    | (extract_lets +onlyGivenNames x; refine fr_cut x ?_ ?_; (on_goal 2 => dsimp only [x]); (on_goal 1 => clear_value x; intro hx))
    | (extract_lets +onlyGivenNames x; fail_if_success (have : State := x); clear_value x)
    | exact MaskLe.trans (by decide +kernel) hM
    | with_reducible apply fr2_pair
    | split
    | dsimp -zeta only
def fm_pcsBlocks : Nat := fm_setLane ||| fm_setCli
theorem State.pcsBlocks_fr {M s0} (s : State) (l : Nat) (hM : MaskLe fm_pcsBlocks M) (hs : Fr M s0 s) : Fr M s0 (State.pcsBlocks s l) := by
  unfold State.pcsBlocks
  repeat' first
    | (intro x)
    | with_reducible first | assumption | apply State.setLane_fr | apply State.setCli_fr | apply fr_ite | apply fr_each
    | (extract_lets +onlyGivenNames x; refine fr_cut x ?_ ?_; (on_goal 2 => dsimp only [x]); (on_goal 1 => clear_value x; intro hx))
    | (extract_lets +onlyGivenNames x; fail_if_success (have : State := x); clear_value x)
    | exact MaskLe.trans (by decide +kernel) hM
    | with_reducible apply fr_pair
    | split
    | dsimp -zeta only
def fm_pcsReceive : Nat := fm_pcsBlocks ||| fm_setLane
theorem State.pcsReceive_fr {M s0} (s : State) (n : Nat) (word : List Nat) (bad : Bool) (hM : MaskLe fm_pcsReceive M) (hs : Fr M s0 s) : Fr M s0 (State.pcsReceive s n word bad) := by
  unfold State.pcsReceive
  repeat' first
    | (intro x)
    | with_reducible first | assumption | apply State.pcsBlocks_fr | apply State.setLane_fr
    | (extract_lets +onlyGivenNames x; refine fr_cut x ?_ ?_; (on_goal 2 => dsimp only [x]); (on_goal 1 => clear_value x; intro hx))
    | (extract_lets +onlyGivenNames x; fail_if_success (have : State := x); clear_value x)
    | exact MaskLe.trans (by decide +kernel) hM
    | with_reducible apply fr_pair
    | split
    | dsimp -zeta only
def fm_pcsSend : Nat := fm_setCli ||| fm_sendLane
theorem State.pcsSend_fr {M s0} (s : State) (l : Nat) (hM : MaskLe fm_pcsSend M) (hs : Fr M s0 s) : Fr M s0 (State.pcsSend s l) := by
  unfold State.pcsSend
  repeat' first
    | (intro x)
    | with_reducible first | assumption | apply State.setCli_fr | apply State.sendLane_fr | apply fr_ite | apply fr_each
    | (extract_lets +onlyGivenNames x; refine fr_cut x ?_ ?_; (on_goal 2 => dsimp only [x]); (on_goal 1 => clear_value x; intro hx))
    | (extract_lets +onlyGivenNames x; fail_if_success (have : State := x); clear_value x)
    | exact MaskLe.trans (by decide +kernel) hM
    | with_reducible apply fr_pair
    | split
    | dsimp -zeta only
def fm_impOut : Nat := fm_impGive ||| fm_setCli ||| fm_emit ||| fm_pcsSend
theorem State.impOut_fr {M s0} (s : State) (c : CliRef) (hM : MaskLe fm_impOut M) (hs : Fr M s0 s) : Fr M s0 (State.impOut s c) := by
  unfold State.impOut
  have h1 := State.impGive_fr s c (MaskLe.trans (by decide +kernel) hM) hs
  generalize s.impGive c = p at h1 ⊢
  obtain ⟨b, s1⟩ := p
  dsimp -zeta only at h1 ⊢
  split
  · refine fr_ite (State.setCli_fr _ _ _ (MaskLe.trans (by decide +kernel) hM) h1) ?_
    exact State.emit_fr _ _ (MaskLe.trans (by decide +kernel) hM) (State.setCli_fr _ _ _ (MaskLe.trans (by decide +kernel) hM) h1)
  · exact State.pcsSend_fr _ _ (MaskLe.trans (by decide +kernel) hM) (State.setCli_fr _ _ _ (MaskLe.trans (by decide +kernel) hM) h1)
def fm_impBlock : Nat := fm_setCli ||| fm_impTake ||| fm_impOut ||| fm_judgeFill ||| fm_showLevel
theorem State.impBlock_fr {M s0} (s : State) (c : CliRef) (p : ImpPeriod) (hM : MaskLe fm_impBlock M) (hs : Fr M s0 s) : Fr M s0 (State.impBlock s c p) := by
  unfold State.impBlock
  repeat' first
    | (intro x)
    | with_reducible first | assumption | apply State.setCli_fr | apply State.impTake_fr | apply State.impOut_fr | apply State.judgeFill_fr | apply State.showLevel_fr | apply fr_ite | apply fr_each
    | (extract_lets +onlyGivenNames x; refine fr_cut x ?_ ?_; (on_goal 2 => dsimp only [x]); (on_goal 1 => clear_value x; intro hx))
    | (extract_lets +onlyGivenNames x; fail_if_success (have : State := x); clear_value x)
    | exact MaskLe.trans (by decide +kernel) hM
    | with_reducible apply fr_pair
    | split
    | dsimp -zeta only
def fm_clientIn : Nat := fm_setCli ||| fm_impTake ||| fm_judgeFill ||| fm_showLevel
theorem State.clientIn_fr {M s0} (s : State) (c : CliRef) (blks : List B66) (bytes : List Nat) (hM : MaskLe fm_clientIn M) (hs : Fr M s0 s) : Fr M s0 (State.clientIn s c blks bytes) := by
  unfold State.clientIn
  repeat' first
    | (intro x)
    | with_reducible first | assumption | apply State.setCli_fr | apply State.impTake_fr | apply State.judgeFill_fr | apply State.showLevel_fr | apply fr_ite | apply fr_each
    | (extract_lets +onlyGivenNames x; refine fr_cut x ?_ ?_; (on_goal 2 => dsimp only [x]); (on_goal 1 => clear_value x; intro hx))
    | (extract_lets +onlyGivenNames x; fail_if_success (have : State := x); clear_value x)
    | exact MaskLe.trans (by decide +kernel) hM
    | with_reducible apply fr_pair
    | split
    | dsimp -zeta only
def fm_clientBack : Nat := fm_setCli
theorem State.clientBack_fr {M s0} (s : State) (c : CliRef) (hM : MaskLe fm_clientBack M) (hs : Fr M s0 s) : Fr M s0 (State.clientBack s c) := by
  unfold State.clientBack
  repeat' first
    | (intro x)
    | with_reducible first | assumption | apply State.setCli_fr | apply fr_ite
    | exact MaskLe.trans (by decide +kernel) hM
    | with_reducible apply fr_pair
    | split
    | dsimp -zeta only
def fm_clientGap : Nat := fm_clientIn ||| fm_setCli
theorem State.clientGap_fr {M s0} (s : State) (c : CliRef) (n : Nat) (hM : MaskLe fm_clientGap M) (hs : Fr M s0 s) : Fr M s0 (State.clientGap s c n) := by
  unfold State.clientGap
  repeat' first
    | (intro x)
    | with_reducible first | assumption | apply State.clientIn_fr | apply State.setCli_fr | apply fr_ite
    | (extract_lets +onlyGivenNames x; refine fr_cut x ?_ ?_; (on_goal 2 => dsimp only [x]); (on_goal 1 => clear_value x; intro hx))
    | (extract_lets +onlyGivenNames x; fail_if_success (have : State := x); clear_value x)
    | exact MaskLe.trans (by decide +kernel) hM
    | with_reducible apply fr_pair
    | split
    | dsimp -zeta only
def fm_cliClose : Nat := fm_cliDef
theorem State.cliClose_fr {M s0} (s : State) (c : CliRef) (deconf : Bool) (hM : MaskLe fm_cliClose M) (hs : Fr M s0 s) : Fr M s0 (State.cliClose s c deconf) := by
  unfold State.cliClose
  repeat' first
    | (intro x)
    | with_reducible first | assumption | apply State.cliDef_fr | apply fr_each
    | exact MaskLe.trans (by decide +kernel) hM
    | with_reducible apply fr_pair
    | dsimp -zeta only
def fm_halfFill : Nat := fm_openBlks ||| fm_setCli ||| fm_openBytes
theorem State.halfFill_fr {M s0} (s : State) (c : CliRef) (hM : MaskLe fm_halfFill M) (hs : Fr M s0 s) : Fr M s0 (State.halfFill s c) := by
  unfold State.halfFill
  repeat' first
    | (intro x)
    | with_reducible first | assumption | apply State.openBlks_fr | apply State.setCli_fr | apply State.openBytes_fr | apply fr_ite
    | (extract_lets +onlyGivenNames x; refine fr_cut x ?_ ?_; (on_goal 2 => dsimp only [x]); (on_goal 1 => clear_value x; intro hx))
    | (extract_lets +onlyGivenNames x; fail_if_success (have : State := x); clear_value x)
    | exact MaskLe.trans (by decide +kernel) hM
    | with_reducible apply fr_pair
    | split
    | dsimp -zeta only
def fm_cliStart : Nat := 2 ^ 41 ||| 2 ^ 42 ||| mTab T_CLI_STATUS ||| mEthStart ||| mFld ETH_OFFSET_offset ||| fm_showLevel ||| fm_halfFill ||| fm_refreshEth
theorem State.cliStart_fr {M s0} (s : State) (c : CliRef) (hM : MaskLe fm_cliStart M) (hs : Fr M s0 s) : Fr M s0 (State.cliStart s c) := by
  unfold State.cliStart
  split
  · extract_lets s1 s2
    have h1 : Fr M s0 s1 := fr_mk_clis_gmps (MaskLe.trans (by decide +kernel) hM) hs
    clear_value s1
    have h2 : Fr M s0 s2 := State.setEntry_fr _ _ _ _ _ (MaskLe.trans (by decide +kernel) hM) h1
    clear_value s2
    exact fr_ite (State.showLevel_fr _ _ (MaskLe.trans (by decide +kernel) hM) (State.halfFill_fr _ _ (MaskLe.trans (by decide +kernel) hM) (State.tput_fr _ _ _ _ _ _ (MaskLe.trans (by decide +kernel) hM) h2))) h2
  · extract_lets s1 pg s2 s3
    have h1 : Fr M s0 s1 := fr_mk_clis (MaskLe.trans (by decide +kernel) hM) hs
    clear_value s1
    have h2 : Fr M s0 s2 := fr_each_mem h1 (fun s f hf h => State.wr_fr _ _ _ _ (MaskLe.trans (by revert hf; revert f; decide +kernel) hM) h)
    clear_value s2
    have h3 : Fr M s0 s3 := State.wr_fr _ _ _ _ (MaskLe.trans (by decide +kernel) hM) h2
    clear_value s3
    refine fr_ite (State.refreshEth_fr _ _ (MaskLe.trans (by decide +kernel) hM) (State.halfFill_fr _ _ (MaskLe.trans (by decide +kernel) hM) h3)) ?_
    exact fr_each_mem h3 (fun s f hf h => State.wr_fr _ _ _ _ (MaskLe.trans (by revert hf; revert f; decide +kernel) hM) h)
def fm_showUsed : Nat := mFld MAP_USED_used ||| mFld DMP_USED_used
theorem State.showUsed_fr {M s0} (s : State) (B : Nat) (hM : MaskLe fm_showUsed M) (hs : Fr M s0 s) : Fr M s0 (State.showUsed s B) := by
  unfold State.showUsed
  repeat' first
    | (intro x)
    | with_reducible first | assumption | apply State.wr_fr
    | (extract_lets +onlyGivenNames x; refine fr_cut x ?_ ?_; (on_goal 2 => dsimp only [x]); (on_goal 1 => clear_value x; intro hx))
    | (extract_lets +onlyGivenNames x; fail_if_success (have : State := x); clear_value x)
    | exact MaskLe.trans (by decide +kernel) hM
    | with_reducible apply fr_pair
    | dsimp -zeta only

end Sys2Proof.Machine
end

