-- ==== Sys2Proof/Laws/FramePath.lean ====
section
/-! SUPPORT. What each operation of Prt, Wings, Fybry may change: one law per operation, by the masks of Laws/State.lean. -/

namespace Sys2Proof.Machine

open Sys2Proof

set_option Elab.async false
set_option linter.all false

def fm_setGrp : Nat := 2 ^ 43
theorem State.setGrp_fr {M s0} (s : State) (G : Nat) (f : Grp → Grp) (hM : MaskLe fm_setGrp M) (hs : Fr M s0 s) : Fr M s0 (State.setGrp s G f) := by
  unfold State.setGrp
  repeat' first
    | with_reducible first | assumption
    | exact MaskLe.trans (by decide +kernel) hM
    | (with_reducible refine fr_mk_grps (MaskLe.trans (by decide +kernel) hM) ?_; first | with_reducible assumption)
    | dsimp -zeta only
def fm_gPut : Nat := mTab T_SEL_GRP_STATUS ||| mTab T_ISL_GRP_STATUS
theorem State.gPut_fr {M s0} (s : State) (G : Nat) (f : TField) (v : Nat) (hM : MaskLe fm_gPut M) (hs : Fr M s0 s) : Fr M s0 (State.gPut s G f v) := by
  unfold State.gPut
  repeat' first
    | with_reducible first | assumption | apply State.tput_fr
    | exact MaskLe.trans (by decide +kernel) hM
    | (with_reducible show MaskLe (mTab (grpStat _)) _; unfold grpStat; split <;> exact MaskLe.trans (by decide +kernel) hM)
    | dsimp -zeta only
def fm_gPutB : Nat := fm_gPut
theorem State.gPutB_fr {M s0} (s : State) (G : Nat) (f : TField) (b : Bool) (hM : MaskLe fm_gPutB M) (hs : Fr M s0 s) : Fr M s0 (State.gPutB s G f b) := by
  unfold State.gPutB
  repeat' first
    | with_reducible first | assumption | apply State.gPut_fr
    | exact MaskLe.trans (by decide +kernel) hM
    | dsimp -zeta only
def fm_gCount : Nat := mTab T_SEL_GRP_CNT ||| mTab T_ISL_GRP_CNT
theorem State.gCount_fr {M s0} (s : State) (G : Nat) (f : TField) (hM : MaskLe fm_gCount M) (hs : Fr M s0 s) : Fr M s0 (State.gCount s G f) := by
  unfold State.gCount
  repeat' first
    | with_reducible first | assumption | apply State.tcount_fr
    | exact MaskLe.trans (by decide +kernel) hM
    | (with_reducible show MaskLe (mTab (grpCntT _)) _; unfold grpCntT; split <;> exact MaskLe.trans (by decide +kernel) hM)
    | dsimp -zeta only
def fm_notice : Nat := 2 ^ 26 ||| mFld PRT_NOTE_LOST_lost ||| mFld BOX_NOTE_LOST ||| fm_evWhen ||| fm_ev
theorem State.notice_fr {M s0} (s : State) (G kind data : Nat) (hM : MaskLe fm_notice M) (hs : Fr M s0 s) : Fr M s0 (State.notice s G kind data) := by
  unfold State.notice
  repeat' first
    | with_reducible first | assumption | apply State.evWhen_fr | apply State.ev_fr | apply State.count_fr | apply fr_ite
    | (extract_lets +onlyGivenNames x; refine fr_cut x ?_ ?_; (on_goal 2 => dsimp only [x]); (on_goal 1 => clear_value x; intro hx))
    | (extract_lets +onlyGivenNames x; fail_if_success (have : State := x); clear_value x)
    | exact MaskLe.trans (by decide +kernel) hM
    | (with_reducible refine fr_mk_notices (MaskLe.trans (by decide +kernel) hM) ?_; first | with_reducible assumption | with_reducible apply State.evWhen_fr | with_reducible apply State.ev_fr | with_reducible apply State.count_fr)
    | split
    | dsimp -zeta only
def fm_feed : Nat := fm_clientIn ||| fm_setCli
theorem State.feed_fr {M s0} (s : State) (r : Nat) (group : Bool) (i kind client snap : Nat) (payload : List Byte) (hM : MaskLe fm_feed M) (hs : Fr M s0 s) : Fr M s0 (State.feed s r group i kind client snap payload) := by
  unfold State.feed
  repeat' first
    | (intro x)
    | with_reducible first | assumption | apply State.clientIn_fr | apply State.setCli_fr | apply fr_ite | apply fr_each
    | (extract_lets +onlyGivenNames x; refine fr_cut x ?_ ?_; (on_goal 2 => dsimp only [x]); (on_goal 1 => clear_value x; intro hx))
    | (extract_lets +onlyGivenNames x; fail_if_success (have : State := x); clear_value x)
    | exact MaskLe.trans (by decide +kernel) hM
    | with_reducible apply fr_pair
    | split
    | dsimp -zeta only
def fm_feedGap : Nat := mTab T_CLI_CNT ||| mFld ETH_LOST_UNITS ||| fm_clientGap
theorem State.feedGap_fr {M s0} (s : State) (r : Nat) (group : Bool) (i kind client : Nat) (short : Bool) (hM : MaskLe fm_feedGap M) (hs : Fr M s0 s) : Fr M s0 (State.feedGap s r group i kind client short) := by
  unfold State.feedGap
  repeat' first
    | (intro x)
    | with_reducible first | assumption | apply State.clientGap_fr | apply State.tcount_fr | apply State.count_fr | apply fr_ite | apply fr_each
    | (extract_lets +onlyGivenNames x; refine fr_cut x ?_ ?_; (on_goal 2 => dsimp only [x]); (on_goal 1 => clear_value x; intro hx))
    | (extract_lets +onlyGivenNames x; fail_if_success (have : State := x); clear_value x)
    | exact MaskLe.trans (by decide +kernel) hM
    | with_reducible apply fr_pair
    | split
    | dsimp -zeta only
def fm_groupBack : Nat := fm_clientBack ||| fm_feed
theorem State.groupBack_fr {M s0} (s : State) (G : Nat) (hM : MaskLe fm_groupBack M) (hs : Fr M s0 s) : Fr M s0 (State.groupBack s G) := by
  unfold State.groupBack
  repeat' first
    | (intro x)
    | with_reducible first | assumption | apply State.clientBack_fr | apply State.feed_fr | apply fr_ite | apply fr_each
    | (extract_lets +onlyGivenNames x; refine fr_cut x ?_ ?_; (on_goal 2 => dsimp only [x]); (on_goal 1 => clear_value x; intro hx))
    | (extract_lets +onlyGivenNames x; fail_if_success (have : State := x); clear_value x)
    | exact MaskLe.trans (by decide +kernel) hM
    | with_reducible apply fr_pair
    | split
    | dsimp -zeta only
def fm_setAps : Nat := 2 ^ 44
theorem State.setAps_fr {M s0} (s : State) (a : Nat) (f : Aps → Aps) (hM : MaskLe fm_setAps M) (hs : Fr M s0 s) : Fr M s0 (State.setAps s a f) := by
  unfold State.setAps
  repeat' first
    | with_reducible first | assumption
    | exact MaskLe.trans (by decide +kernel) hM
    | (with_reducible refine fr_mk_apss (MaskLe.trans (by decide +kernel) hM) ?_; first | with_reducible assumption)
    | dsimp -zeta only
def fm_setFop : Nat := mTab T_APS_RX ||| mTab T_APS_CNT ||| fm_notice ||| fm_ev
theorem State.setFop_fr {M s0} (s : State) (a : Nat) (f cnt : TField) (on : Bool) (hM : MaskLe fm_setFop M) (hs : Fr M s0 s) : Fr M s0 (State.setFop s a f cnt on) := by
  unfold State.setFop
  repeat' first
    | with_reducible first | assumption | apply State.tputb_fr | apply State.tcount_fr | apply State.notice_fr | apply State.ev_fr | apply fr_ite
    | (extract_lets +onlyGivenNames x; refine fr_cut x ?_ ?_; (on_goal 2 => dsimp only [x]); (on_goal 1 => clear_value x; intro hx))
    | (extract_lets +onlyGivenNames x; fail_if_success (have : State := x); clear_value x)
    | exact MaskLe.trans (by decide +kernel) hM
    | split
    | dsimp -zeta only
def fm_apsRefresh : Nat := mTab T_APS_RX ||| fm_setFop
theorem State.apsRefresh_fr {M s0} (s : State) (a : Nat) (hM : MaskLe fm_apsRefresh M) (hs : Fr M s0 s) : Fr M s0 (State.apsRefresh s a) := by
  unfold State.apsRefresh
  repeat' first
    | with_reducible first | assumption | apply State.tputb_fr | apply State.setFop_fr | apply fr_ite
    | (extract_lets +onlyGivenNames x; refine fr_cut x ?_ ?_; (on_goal 2 => dsimp only [x]); (on_goal 1 => clear_value x; intro hx))
    | (extract_lets +onlyGivenNames x; fail_if_success (have : State := x); clear_value x)
    | exact MaskLe.trans (by decide +kernel) hM
    | split
    | dsimp -zeta only
def fm_gApsRefresh : Nat := fm_apsRefresh
theorem State.gApsRefresh_fr {M s0} (s : State) (G : Nat) (hM : MaskLe fm_gApsRefresh M) (hs : Fr M s0 s) : Fr M s0 (State.gApsRefresh s G) := by
  unfold State.gApsRefresh
  repeat' first
    | with_reducible first | assumption | apply State.apsRefresh_fr
    | exact MaskLe.trans (by decide +kernel) hM
    | with_reducible apply fr_pair
    | split
    | dsimp -zeta only
def fm_setSel : Nat := fm_setGrp ||| fm_ev ||| fm_gCount ||| fm_gPut
theorem State.setSel_fr {M s0} (s : State) (G leg : Nat) (hM : MaskLe fm_setSel M) (hs : Fr M s0 s) : Fr M s0 (State.setSel s G leg) := by
  unfold State.setSel
  repeat' first
    | (intro x)
    | with_reducible first | assumption | apply State.setGrp_fr | apply State.ev_fr | apply State.gCount_fr | apply State.gPut_fr | apply fr_ite
    | (extract_lets +onlyGivenNames x; refine fr_cut x ?_ ?_; (on_goal 2 => dsimp only [x]); (on_goal 1 => clear_value x; intro hx))
    | (extract_lets +onlyGivenNames x; fail_if_success (have : State := x); clear_value x)
    | exact MaskLe.trans (by decide +kernel) hM
    | with_reducible apply fr_pair
    | split
    | dsimp -zeta only
def fm_setBridge : Nat := fm_setGrp
theorem State.setBridge_fr {M s0} (s : State) (G : Nat) (on : Bool) (hM : MaskLe fm_setBridge M) (hs : Fr M s0 s) : Fr M s0 (State.setBridge s G on) := by
  unfold State.setBridge
  repeat' first
    | (intro x)
    | with_reducible first | assumption | apply State.setGrp_fr
    | exact MaskLe.trans (by decide +kernel) hM
    | with_reducible apply fr_pair
    | dsimp -zeta only
def fm_bridgeApply : Nat := mTab T_BRG_STATUS ||| fm_ev
theorem State.bridgeApply_fr {M s0} (s : State) (r i : Nat) (hM : MaskLe fm_bridgeApply M) (hs : Fr M s0 s) : Fr M s0 (State.bridgeApply s r i) := by
  unfold State.bridgeApply
  repeat' first
    | with_reducible first | assumption | apply State.ev_fr | apply State.tputb_fr | apply fr_ite
    | (extract_lets +onlyGivenNames x; refine fr_cut x ?_ ?_; (on_goal 2 => dsimp only [x]); (on_goal 1 => clear_value x; intro hx))
    | (extract_lets +onlyGivenNames x; fail_if_success (have : State := x); clear_value x)
    | exact MaskLe.trans (by decide +kernel) hM
    | split
    | dsimp -zeta only
def fm_provEnd : Nat := fm_setGrp ||| fm_gPutB ||| fm_notice ||| fm_gCount ||| fm_gPut ||| fm_ev
theorem State.provEnd_fr {M s0} (s : State) (G leg : Nat) (hM : MaskLe fm_provEnd M) (hs : Fr M s0 s) : Fr M s0 (State.provEnd s G leg) := by
  unfold State.provEnd
  repeat' first
    | (intro x)
    | with_reducible first | assumption | apply State.setGrp_fr | apply State.gPutB_fr | apply State.notice_fr | apply State.gCount_fr | apply State.gPut_fr | apply State.ev_fr | apply fr_ite
    | (extract_lets +onlyGivenNames x; refine fr_cut x ?_ ?_; (on_goal 2 => dsimp only [x]); (on_goal 1 => clear_value x; intro hx))
    | (extract_lets +onlyGivenNames x; fail_if_success (have : State := x); clear_value x)
    | exact MaskLe.trans (by decide +kernel) hM
    | with_reducible apply fr_pair
    | split
    | dsimp -zeta only
def fm_provJudge : Nat := fm_provEnd
theorem State.provJudge_fr {M s0} (s : State) (G rank leg : Nat) (hM : MaskLe fm_provJudge M) (hs : Fr M s0 s) : Fr M s0 (State.provJudge s G rank leg) := by
  unfold State.provJudge
  repeat' first
    | with_reducible first | assumption | apply State.provEnd_fr | apply fr_ite
    | (extract_lets +onlyGivenNames x; refine fr_cut x ?_ ?_; (on_goal 2 => dsimp only [x]); (on_goal 1 => clear_value x; intro hx))
    | (extract_lets +onlyGivenNames x; fail_if_success (have : State := x); clear_value x)
    | exact MaskLe.trans (by decide +kernel) hM
    | split
    | dsimp -zeta only
def fm_provStart : Nat := fm_setGrp ||| fm_gPutB ||| fm_gPut ||| fm_ev ||| fm_notice ||| fm_gCount
theorem State.provStart_fr {M s0} (s : State) (G : Nat) (hM : MaskLe fm_provStart M) (hs : Fr M s0 s) : Fr M s0 (State.provStart s G) := by
  unfold State.provStart
  repeat' first
    | (intro x)
    | with_reducible first | assumption | apply State.setGrp_fr | apply State.gPutB_fr | apply State.gPut_fr | apply State.ev_fr | apply State.notice_fr | apply State.gCount_fr
    | (extract_lets +onlyGivenNames x; refine fr_cut x ?_ ?_; (on_goal 2 => dsimp only [x]); (on_goal 1 => clear_value x; intro hx))
    | (extract_lets +onlyGivenNames x; fail_if_success (have : State := x); clear_value x)
    | exact MaskLe.trans (by decide +kernel) hM
    | with_reducible apply fr_pair
    | dsimp -zeta only
def fm_setWtr : Nat := fm_gPut ||| fm_gPutB
theorem State.setWtr_fr {M s0} (s : State) (G : Nat) (on : Bool) (hM : MaskLe fm_setWtr M) (hs : Fr M s0 s) : Fr M s0 (State.setWtr s G on) := by
  unfold State.setWtr
  repeat' first
    | with_reducible first | assumption | apply State.gPut_fr | apply State.gPutB_fr | apply fr_ite
    | exact MaskLe.trans (by decide +kernel) hM
    | split
    | dsimp -zeta only
def fm_withdraw : Nat := fm_notice ||| fm_gCount ||| fm_gPut
theorem State.withdraw_fr {M s0} (s : State) (G : Nat) (hM : MaskLe fm_withdraw M) (hs : Fr M s0 s) : Fr M s0 (State.withdraw s G) := by
  unfold State.withdraw
  repeat' first
    | with_reducible first | assumption | apply State.notice_fr | apply State.gCount_fr | apply State.gPut_fr | apply fr_ite
    | (extract_lets +onlyGivenNames x; refine fr_cut x ?_ ?_; (on_goal 2 => dsimp only [x]); (on_goal 1 => clear_value x; intro hx))
    | (extract_lets +onlyGivenNames x; fail_if_success (have : State := x); clear_value x)
    | exact MaskLe.trans (by decide +kernel) hM
    | with_reducible apply fr_pair
    | split
    | dsimp -zeta only
def fm_evalHw : Nat := fm_withdraw ||| fm_setWtr ||| fm_notice ||| fm_gPut ||| fm_provJudge ||| fm_setGrp ||| fm_setSel ||| fm_provStart ||| fm_gApsRefresh
theorem State.evalHw_fr {M s0} (s : State) (G : Nat) (cleared susp : Bool) (hM : MaskLe fm_evalHw M) (hs : Fr M s0 s) : Fr M s0 (State.evalHw s G cleared susp) := by
  unfold State.evalHw
  repeat' first
    | (intro x)
    | with_reducible first | assumption | apply State.withdraw_fr | apply State.setWtr_fr | apply State.notice_fr | apply State.gPut_fr | apply State.provJudge_fr | apply State.setGrp_fr | apply State.setSel_fr | apply State.provStart_fr | apply State.gApsRefresh_fr | apply fr_ite
    | (extract_lets +onlyGivenNames x; refine fr_cut x ?_ ?_; (on_goal 2 => dsimp only [x]); (on_goal 1 => clear_value x; intro hx))
    | (extract_lets +onlyGivenNames x; fail_if_success (have : State := x); clear_value x)
    | exact MaskLe.trans (by decide +kernel) hM
    | with_reducible apply fr_pair
    | split
    | dsimp -zeta only
def fm_overrideOn : Nat := 2 ^ 46 ||| mTab T_SFP_REC ||| fm_gPutB ||| fm_setBridge ||| fm_setSel ||| fm_logRec ||| fm_setGrp ||| fm_gApsRefresh ||| fm_ev ||| fm_notice
theorem State.overrideOn_fr {M s0} (s : State) (G : Nat) (hM : MaskLe fm_overrideOn M) (hs : Fr M s0 s) : Fr M s0 (State.overrideOn s G) := by
  unfold State.overrideOn
  repeat' first
    | (intro x)
    | with_reducible first | assumption | apply State.gPutB_fr | apply State.setBridge_fr | apply State.setSel_fr | apply State.logRec_fr | apply State.setEntry_fr | apply State.setGrp_fr | apply State.gApsRefresh_fr | apply State.ev_fr | apply State.notice_fr | apply fr_ite
    | (extract_lets +onlyGivenNames x; refine fr_cut x ?_ ?_; (on_goal 2 => dsimp only [x]); (on_goal 1 => clear_value x; intro hx))
    | (extract_lets +onlyGivenNames x; fail_if_success (have : State := x); clear_value x)
    | exact MaskLe.trans (by decide +kernel) hM
    | (with_reducible refine fr_mk_sfpOverwrite (MaskLe.trans (by decide +kernel) hM) ?_; first | with_reducible assumption | with_reducible apply State.gPutB_fr | with_reducible apply State.setBridge_fr | with_reducible apply State.setSel_fr | with_reducible apply State.logRec_fr | with_reducible apply State.setEntry_fr | with_reducible apply State.setGrp_fr | with_reducible apply State.gApsRefresh_fr | with_reducible apply State.ev_fr | with_reducible apply State.notice_fr)
    | with_reducible apply fr_pair
    | split
    | dsimp -zeta only
def fm_overrideOff : Nat := fm_setGrp ||| fm_gPutB ||| fm_gApsRefresh ||| fm_ev ||| fm_notice
theorem State.overrideOff_fr {M s0} (s : State) (G : Nat) (hM : MaskLe fm_overrideOff M) (hs : Fr M s0 s) : Fr M s0 (State.overrideOff s G) := by
  unfold State.overrideOff
  repeat' first
    | (intro x)
    | with_reducible first | assumption | apply State.setGrp_fr | apply State.gPutB_fr | apply State.gApsRefresh_fr | apply State.ev_fr | apply State.notice_fr
    | (extract_lets +onlyGivenNames x; refine fr_cut x ?_ ?_; (on_goal 2 => dsimp only [x]); (on_goal 1 => clear_value x; intro hx))
    | (extract_lets +onlyGivenNames x; fail_if_success (have : State := x); clear_value x)
    | exact MaskLe.trans (by decide +kernel) hM
    | with_reducible apply fr_pair
    | dsimp -zeta only
def fm_evalSw : Nat := fm_notice ||| fm_overrideOn ||| fm_overrideOff
theorem State.evalSw_fr {M s0} (s : State) (G oldW oldP : Nat) (hM : MaskLe fm_evalSw M) (hs : Fr M s0 s) : Fr M s0 (State.evalSw s G oldW oldP) := by
  unfold State.evalSw
  repeat' first
    | with_reducible first | assumption | apply State.notice_fr | apply State.overrideOn_fr | apply State.overrideOff_fr | apply fr_ite
    | (extract_lets +onlyGivenNames x; refine fr_cut x ?_ ?_; (on_goal 2 => dsimp only [x]); (on_goal 1 => clear_value x; intro hx))
    | (extract_lets +onlyGivenNames x; fail_if_success (have : State := x); clear_value x)
    | exact MaskLe.trans (by decide +kernel) hM
    | split
    | dsimp -zeta only
def fm_evalGrp : Nat := fm_evalHw ||| fm_evalSw
theorem State.evalGrp_fr {M s0} (s : State) (G oldW oldP : Nat) (susp : Bool) (hM : MaskLe fm_evalGrp M) (hs : Fr M s0 s) : Fr M s0 (State.evalGrp s G oldW oldP susp) := by
  unfold State.evalGrp
  repeat' first
    | with_reducible first | assumption | apply State.evalHw_fr | apply State.evalSw_fr | apply fr_ite
    | exact MaskLe.trans (by decide +kernel) hM
    | split
    | dsimp -zeta only
def fm_takeLeg : Nat := fm_gPut ||| fm_evWhen ||| fm_setGrp ||| fm_gPutB
theorem State.takeLeg_fr {M s0} (s : State) (G leg st : Nat) (hM : MaskLe fm_takeLeg M) (hs : Fr M s0 s) : Fr M s0 (State.takeLeg s G leg st) := by
  unfold State.takeLeg
  repeat' first
    | (intro x)
    | with_reducible first | assumption | apply State.gPut_fr | apply State.evWhen_fr | apply State.setGrp_fr | apply State.gPutB_fr | apply fr_ite
    | (extract_lets +onlyGivenNames x; refine fr_cut x ?_ ?_; (on_goal 2 => dsimp only [x]); (on_goal 1 => clear_value x; intro hx))
    | (extract_lets +onlyGivenNames x; fail_if_success (have : State := x); clear_value x)
    | exact MaskLe.trans (by decide +kernel) hM
    | with_reducible apply fr_pair
    | split
    | dsimp -zeta only
def fm_noteGrp : Nat := fm_setGrp
theorem State.noteGrp_fr {M s0} (s : State) (G : Nat) (c : Bool) (f : Grp → Grp) (hM : MaskLe fm_noteGrp M) (hs : Fr M s0 s) : Fr M s0 (State.noteGrp s G c f) := by
  unfold State.noteGrp
  repeat' first
    | (intro x)
    | with_reducible first | assumption | apply State.setGrp_fr | apply fr_ite
    | exact MaskLe.trans (by decide +kernel) hM
    | with_reducible apply fr_pair
    | split
    | dsimp -zeta only
def fm_legChange : Nat := fm_noteGrp
theorem State.legChange_fr {M s0} (s : State) (G leg : Nat) (hM : MaskLe fm_legChange M) (hs : Fr M s0 s) : Fr M s0 (State.legChange s G leg) := by
  unfold State.legChange
  repeat' first
    | with_reducible first | assumption | apply State.noteGrp_fr
    | exact MaskLe.trans (by decide +kernel) hM
    | dsimp -zeta only
def fm_holdOffExpiry : Nat := fm_noteGrp
theorem State.holdOffExpiry_fr {M s0} (s : State) (G leg : Nat) (hM : MaskLe fm_holdOffExpiry M) (hs : Fr M s0 s) : Fr M s0 (State.holdOffExpiry s G leg) := by
  unfold State.holdOffExpiry
  repeat' first
    | (intro x)
    | with_reducible first | assumption | apply State.noteGrp_fr
    | exact MaskLe.trans (by decide +kernel) hM
    | with_reducible apply fr_pair
    | split
    | dsimp -zeta only
def fm_wtrExpiry : Nat := fm_noteGrp
theorem State.wtrExpiry_fr {M s0} (s : State) (G : Nat) (hM : MaskLe fm_wtrExpiry M) (hs : Fr M s0 s) : Fr M s0 (State.wtrExpiry s G) := by
  unfold State.wtrExpiry
  repeat' first
    | (intro x)
    | with_reducible first | assumption | apply State.noteGrp_fr
    | exact MaskLe.trans (by decide +kernel) hM
    | with_reducible apply fr_pair
    | dsimp -zeta only
def fm_confirmExpiry : Nat := fm_noteGrp
theorem State.confirmExpiry_fr {M s0} (s : State) (G : Nat) (hM : MaskLe fm_confirmExpiry M) (hs : Fr M s0 s) : Fr M s0 (State.confirmExpiry s G) := by
  unfold State.confirmExpiry
  repeat' first
    | (intro x)
    | with_reducible first | assumption | apply State.noteGrp_fr
    | exact MaskLe.trans (by decide +kernel) hM
    | with_reducible apply fr_pair
    | dsimp -zeta only
def fm_holdEnd : Nat := fm_gPutB ||| fm_setGrp ||| fm_gCount
theorem State.holdEnd_fr {M s0} (s : State) (G leg : Nat) (hM : MaskLe fm_holdEnd M) (hs : Fr M s0 s) : Fr M s0 (State.holdEnd s G leg) := by
  unfold State.holdEnd
  repeat' first
    | (intro x)
    | with_reducible first | assumption | apply State.gPutB_fr | apply State.setGrp_fr | apply State.gCount_fr | apply fr_ite
    | (extract_lets +onlyGivenNames x; refine fr_cut x ?_ ?_; (on_goal 2 => dsimp only [x]); (on_goal 1 => clear_value x; intro hx))
    | (extract_lets +onlyGivenNames x; fail_if_success (have : State := x); clear_value x)
    | exact MaskLe.trans (by decide +kernel) hM
    | with_reducible apply fr_pair
    | split
    | dsimp -zeta only
def fm_retakeLeg : Nat := fm_takeLeg
theorem State.retakeLeg_fr {M s0} (s : State) (G leg : Nat) (hM : MaskLe fm_retakeLeg M) (hs : Fr M s0 s) : Fr M s0 (State.retakeLeg s G leg) := by
  unfold State.retakeLeg
  repeat' first
    | with_reducible first | assumption | apply State.takeLeg_fr | apply fr_ite
    | exact MaskLe.trans (by decide +kernel) hM
    | split
    | dsimp -zeta only
def fm_takeNotes : Nat := fm_retakeLeg ||| fm_holdEnd ||| fm_setGrp
theorem State.takeNotes_fr {M s0} (s : State) (G : Nat) (hM : MaskLe fm_takeNotes M) (hs : Fr M s0 s) : Fr M s0 (State.takeNotes s G) := by
  unfold State.takeNotes
  repeat' first
    | (intro x)
    | with_reducible first | assumption | apply State.retakeLeg_fr | apply State.holdEnd_fr | apply State.setGrp_fr | apply fr_ite | apply fr_each
    | (extract_lets +onlyGivenNames x; refine fr_cut x ?_ ?_; (on_goal 2 => dsimp only [x]); (on_goal 1 => clear_value x; intro hx))
    | (extract_lets +onlyGivenNames x; fail_if_success (have : State := x); clear_value x)
    | exact MaskLe.trans (by decide +kernel) hM
    | with_reducible apply fr_pair
    | split
    | dsimp -zeta only
def fm_evalNow : Nat := fm_setGrp ||| fm_gCount ||| fm_setWtr ||| fm_evalGrp ||| fm_groupBack
theorem State.evalNow_fr {M s0} (s : State) (G : Nat) (hM : MaskLe fm_evalNow M) (hs : Fr M s0 s) : Fr M s0 (State.evalNow s G) := by
  unfold State.evalNow
  repeat' first
    | (intro x)
    | with_reducible first | assumption | apply State.setGrp_fr | apply State.gCount_fr | apply State.setWtr_fr | apply State.evalGrp_fr | apply State.groupBack_fr | apply fr_ite
    | (extract_lets +onlyGivenNames x; refine fr_cut x ?_ ?_; (on_goal 2 => dsimp only [x]); (on_goal 1 => clear_value x; intro hx))
    | (extract_lets +onlyGivenNames x; fail_if_success (have : State := x); clear_value x)
    | exact MaskLe.trans (by decide +kernel) hM
    | with_reducible apply fr_pair
    | split
    | dsimp -zeta only
def fm_apsStart : Nat := 2 ^ 44 ||| mTab T_APS_RX ||| fm_apsRefresh
theorem State.apsStart_fr {M s0} (s : State) (a : Nat) (hM : MaskLe fm_apsStart M) (hs : Fr M s0 s) : Fr M s0 (State.apsStart s a) := by
  unfold State.apsStart
  repeat' first
    | with_reducible first | assumption | apply State.setEntry_fr | apply State.apsRefresh_fr | apply fr_ite
    | (extract_lets +onlyGivenNames x; refine fr_cut x ?_ ?_; (on_goal 2 => dsimp only [x]); (on_goal 1 => clear_value x; intro hx))
    | (extract_lets +onlyGivenNames x; fail_if_success (have : State := x); clear_value x)
    | exact MaskLe.trans (by decide +kernel) hM
    | (with_reducible refine fr_mk_apss (MaskLe.trans (by decide +kernel) hM) ?_; first | with_reducible assumption | with_reducible apply State.setEntry_fr | with_reducible apply State.apsRefresh_fr)
    | split
    | dsimp -zeta only
def fm_grpBegin : Nat := fm_evalGrp ||| fm_takeLeg ||| fm_gPut
theorem State.grpBegin_fr {M s0} (s : State) (G : Nat) (hM : MaskLe fm_grpBegin M) (hs : Fr M s0 s) : Fr M s0 (State.grpBegin s G) := by
  unfold State.grpBegin
  repeat' first
    | with_reducible first | assumption | apply State.evalGrp_fr | apply State.takeLeg_fr | apply State.gPut_fr | apply fr_ite
    | exact MaskLe.trans (by decide +kernel) hM
    | split
    | dsimp -zeta only
def fm_showModels : Nat := fm_gPut
theorem State.showModels_fr {M s0} (s : State) (hM : MaskLe fm_showModels M) (hs : Fr M s0 s) : Fr M s0 (State.showModels s) := by
  unfold State.showModels
  repeat' first
    | (intro x)
    | with_reducible first | assumption | apply State.gPut_fr | apply fr_ite | apply fr_each
    | exact MaskLe.trans (by decide +kernel) hM
    | with_reducible apply fr_pair
    | split
    | dsimp -zeta only
def fm_grpStart : Nat := 2 ^ 43 ||| mTab T_SEL_GRP_STATUS ||| mTab T_ISL_GRP_STATUS ||| mTab T_SFP_REC ||| mTab T_BRG_STATUS ||| fm_apsStart ||| fm_grpBegin
theorem State.grpStart_fr {M s0} (s : State) (G : Nat) (hM : MaskLe fm_grpStart M) (hs : Fr M s0 s) : Fr M s0 (State.grpStart s G) := by
  unfold State.grpStart
  repeat' first
    | (intro x)
    | with_reducible first | assumption | apply State.setEntry_fr | apply State.apsStart_fr | apply State.tputb_fr | apply State.grpBegin_fr | apply fr_each
    | (extract_lets +onlyGivenNames x; refine fr_cut x ?_ ?_; (on_goal 2 => dsimp only [x]); (on_goal 1 => clear_value x; intro hx))
    | (extract_lets +onlyGivenNames x; fail_if_success (have : State := x); clear_value x)
    | exact MaskLe.trans (by decide +kernel) hM
    | (with_reducible show MaskLe (mTab (grpStat _)) _; unfold grpStat; split <;> exact MaskLe.trans (by decide +kernel) hM)
    | (with_reducible refine fr_mk_grps (MaskLe.trans (by decide +kernel) hM) ?_; first | with_reducible assumption | with_reducible apply State.setEntry_fr | with_reducible apply State.apsStart_fr | with_reducible apply State.tputb_fr | with_reducible apply State.grpBegin_fr)
    | with_reducible apply fr_pair
    | split
    | dsimp -zeta only
def fm_sfpForget : Nat := mTab T_SFP_REC
theorem State.sfpForget_fr {M s0} (s : State) (en : Bool) (a : Nat) (hM : MaskLe fm_sfpForget M) (hs : Fr M s0 s) : Fr M s0 (State.sfpForget s en a) := by
  unfold State.sfpForget
  repeat' first
    | with_reducible first | assumption | apply State.setEntry_fr | apply fr_ite
    | exact MaskLe.trans (by decide +kernel) hM
    | split
    | dsimp -zeta only
def fm_grpKeep : Nat := fm_setGrp ||| fm_takeLeg ||| fm_setWtr ||| fm_evalGrp
theorem State.grpKeep_fr {M s0} (s : State) (G : Nat) (sdOld revOld : Bool) (hM : MaskLe fm_grpKeep M) (hs : Fr M s0 s) : Fr M s0 (State.grpKeep s G sdOld revOld) := by
  unfold State.grpKeep
  repeat' first
    | (intro x)
    | with_reducible first | assumption | apply State.setGrp_fr | apply State.takeLeg_fr | apply State.setWtr_fr | apply State.evalGrp_fr | apply fr_ite
    | (extract_lets +onlyGivenNames x; refine fr_cut x ?_ ?_; (on_goal 2 => dsimp only [x]); (on_goal 1 => clear_value x; intro hx))
    | (extract_lets +onlyGivenNames x; fail_if_success (have : State := x); clear_value x)
    | exact MaskLe.trans (by decide +kernel) hM
    | with_reducible apply fr_pair
    | split
    | dsimp -zeta only
def fm_prtRegionReset : Nat := fm_notice ||| fm_grpStart
theorem State.prtRegionReset_fr {M s0} (s : State) (r : Nat) (hM : MaskLe fm_prtRegionReset M) (hs : Fr M s0 s) : Fr M s0 (State.prtRegionReset s r) := by
  unfold State.prtRegionReset
  repeat' first
    | (intro x)
    | with_reducible first | assumption | apply State.notice_fr | apply State.grpStart_fr | apply fr_each
    | exact MaskLe.trans (by decide +kernel) hM
    | with_reducible apply fr_pair
    | dsimp -zeta only
def fm_brgStart : Nat := mTab T_BRG_STATUS
theorem State.brgStart_fr {M s0} (s : State) (r i : Nat) (hM : MaskLe fm_brgStart M) (hs : Fr M s0 s) : Fr M s0 (State.brgStart s r i) := by
  unfold State.brgStart
  repeat' first
    | with_reducible first | assumption | apply State.tputb_fr
    | (extract_lets +onlyGivenNames x; refine fr_cut x ?_ ?_; (on_goal 2 => dsimp only [x]); (on_goal 1 => clear_value x; intro hx))
    | (extract_lets +onlyGivenNames x; fail_if_success (have : State := x); clear_value x)
    | exact MaskLe.trans (by decide +kernel) hM
    | dsimp -zeta only
def fm_replaceCmd : Nat := fm_gPut ||| fm_notice ||| fm_gCount
theorem State.replaceCmd_fr {M s0} (s : State) (G op : Nat) (hM : MaskLe fm_replaceCmd M) (hs : Fr M s0 s) : Fr M s0 (State.replaceCmd s G op) := by
  unfold State.replaceCmd
  repeat' first
    | with_reducible first | assumption | apply State.gPut_fr | apply State.notice_fr | apply State.gCount_fr | apply fr_ite
    | (extract_lets +onlyGivenNames x; refine fr_cut x ?_ ?_; (on_goal 2 => dsimp only [x]); (on_goal 1 => clear_value x; intro hx))
    | (extract_lets +onlyGivenNames x; fail_if_success (have : State := x); clear_value x)
    | exact MaskLe.trans (by decide +kernel) hM
    | split
    | dsimp -zeta only
def fm_operate : Nat := fm_evalNow ||| fm_setWtr ||| fm_gPut ||| fm_replaceCmd
theorem State.operate_fr {M s0} (s : State) (G op : Nat) (hM : MaskLe fm_operate M) (hs : Fr M s0 s) : Fr M s0 (State.operate s G op).1 := by
  unfold State.operate
  repeat' first
    | with_reducible first | assumption | apply State.evalNow_fr | apply State.setWtr_fr | apply State.gPut_fr | apply State.replaceCmd_fr | apply fr1_ite
    | (extract_lets +onlyGivenNames x; refine fr_cut x ?_ ?_; (on_goal 2 => dsimp only [x]); (on_goal 1 => clear_value x; intro hx))
    | (extract_lets +onlyGivenNames x; fail_if_success (have : State := x); clear_value x)
    | exact MaskLe.trans (by decide +kernel) hM
    | with_reducible apply fr1_pair
    | split
    | dsimp -zeta only
def fm_setOp : Nat := fm_setSel ||| fm_setBridge ||| fm_setGrp ||| fm_gApsRefresh
theorem State.setOp_fr {M s0} (s : State) (G op arg : Nat) (hM : MaskLe fm_setOp M) (hs : Fr M s0 s) : Fr M s0 (State.setOp s G op arg).1 := by
  unfold State.setOp
  repeat' first
    | (intro x)
    | with_reducible first | assumption | apply State.setSel_fr | apply State.setBridge_fr | apply State.setGrp_fr | apply State.gApsRefresh_fr | apply fr1_ite
    | (extract_lets +onlyGivenNames x; refine fr_cut x ?_ ?_; (on_goal 2 => dsimp only [x]); (on_goal 1 => clear_value x; intro hx))
    | (extract_lets +onlyGivenNames x; fail_if_success (have : State := x); clear_value x)
    | exact MaskLe.trans (by decide +kernel) hM
    | with_reducible apply fr1_pair
    | split
    | dsimp -zeta only
def fm_prtJudge : Nat := mTab T_SFP_REC ||| fm_operate ||| fm_setOp
theorem State.prtJudge_fr {M s0} (s : State) (q : PrtReq) (hM : MaskLe fm_prtJudge M) (hs : Fr M s0 s) : Fr M s0 (State.prtJudge s q).1 := by
  unfold State.prtJudge
  repeat' first
    | with_reducible first | assumption | apply State.operate_fr | apply State.setOp_fr | apply State.tputb_fr | apply fr1_ite
    | (extract_lets +onlyGivenNames x; refine fr_cut x ?_ ?_; (on_goal 2 => dsimp only [x]); (on_goal 1 => clear_value x; intro hx))
    | (extract_lets +onlyGivenNames x; fail_if_success (have : State := x); clear_value x)
    | exact MaskLe.trans (by decide +kernel) hM
    | with_reducible apply fr1_pair
    | with_reducible apply fr1_pair'
    | split
    | dsimp -zeta only
def fm_prtStatus : Nat := mFld PRT_CMD_STATUS_code ||| mFld PRT_CMD_STATUS_pending
theorem State.prtStatus_fr {M s0} (s : State) (w : Who) (pend : Bool) (code : Nat) (hM : MaskLe fm_prtStatus M) (hs : Fr M s0 s) : Fr M s0 (State.prtStatus s w pend code) := by
  unfold State.prtStatus
  repeat' first
    | with_reducible first | assumption | apply State.wr_fr | apply State.wrb_fr
    | exact MaskLe.trans (by decide +kernel) hM
    | dsimp -zeta only
def fm_prtIssue : Nat := 2 ^ 45 ||| fm_ev ||| fm_prtStatus
theorem State.prtIssue_fr {M s0} (s : State) (w : Who) (op G : Nat) (hM : MaskLe fm_prtIssue M) (hs : Fr M s0 s) : Fr M s0 (State.prtIssue s w op G) := by
  unfold State.prtIssue
  repeat' first
    | with_reducible first | assumption | apply State.ev_fr | apply State.prtStatus_fr | apply fr_ite
    | (extract_lets +onlyGivenNames x; refine fr_cut x ?_ ?_; (on_goal 2 => dsimp only [x]); (on_goal 1 => clear_value x; intro hx))
    | (extract_lets +onlyGivenNames x; fail_if_success (have : State := x); clear_value x)
    | exact MaskLe.trans (by decide +kernel) hM
    | (with_reducible refine fr_mk_prtQ (MaskLe.trans (by decide +kernel) hM) ?_; first | with_reducible assumption | with_reducible apply State.ev_fr | with_reducible apply State.prtStatus_fr)
    | split
    | dsimp -zeta only
def fm_prtExec1 : Nat := 2 ^ 45 ||| fm_prtJudge ||| fm_ev ||| fm_prtStatus
theorem State.prtExec1_fr {M s0} (s : State) (hM : MaskLe fm_prtExec1 M) (hs : Fr M s0 s) : Fr M s0 (State.prtExec1 s) := by
  unfold State.prtExec1
  repeat' first
    | with_reducible first | assumption | apply State.prtJudge_fr | apply State.ev_fr | apply State.prtStatus_fr
    | (extract_lets +onlyGivenNames x; refine fr_cut x ?_ ?_; (on_goal 2 => dsimp only [x]); (on_goal 1 => clear_value x; intro hx))
    | (extract_lets +onlyGivenNames x; fail_if_success (have : State := x); clear_value x)
    | exact MaskLe.trans (by decide +kernel) hM
    | (with_reducible refine fr_mk_prtQ (MaskLe.trans (by decide +kernel) hM) ?_; first | with_reducible assumption | with_reducible apply State.prtJudge_fr | with_reducible apply State.ev_fr | with_reducible apply State.prtStatus_fr)
    | with_reducible apply fr_pair
    | with_reducible apply fr1_pair'
    | split
    | dsimp -zeta only
def fm_prtDrain : Nat := fm_prtExec1
theorem State.prtDrain_fr {M s0} (s : State) (hM : MaskLe fm_prtDrain M) (hs : Fr M s0 s) : Fr M s0 (State.prtDrain s) := by
  unfold State.prtDrain
  repeat' first
    | (intro x)
    | with_reducible first | assumption | apply State.prtExec1_fr | apply fr_each
    | exact MaskLe.trans (by decide +kernel) hM
    | with_reducible apply fr_pair
    | dsimp -zeta only
def fm_prtSettleNow : Nat := fm_takeNotes ||| fm_evalNow ||| fm_prtDrain
theorem State.prtSettleNow_fr {M s0} (s : State) (hM : MaskLe fm_prtSettleNow M) (hs : Fr M s0 s) : Fr M s0 (State.prtSettleNow s) := by
  unfold State.prtSettleNow
  repeat' first
    | (intro x)
    | with_reducible first | assumption | apply State.takeNotes_fr | apply State.evalNow_fr | apply State.prtDrain_fr | apply fr_each
    | (extract_lets +onlyGivenNames x; refine fr_cut x ?_ ?_; (on_goal 2 => dsimp only [x]); (on_goal 1 => clear_value x; intro hx))
    | (extract_lets +onlyGivenNames x; fail_if_success (have : State := x); clear_value x)
    | exact MaskLe.trans (by decide +kernel) hM
    | with_reducible apply fr_pair
    | dsimp -zeta only
def fm_prtSettle : Nat := fm_prtSettleNow
theorem State.prtSettle_fr {M s0} (s : State) (hM : MaskLe fm_prtSettle M) (hs : Fr M s0 s) : Fr M s0 (State.prtSettle s) := by
  unfold State.prtSettle
  repeat' first
    | with_reducible first | assumption | apply State.prtSettleNow_fr | apply fr_ite
    | exact MaskLe.trans (by decide +kernel) hM
    | split
    | dsimp -zeta only
def fm_prtCommand : Nat := fm_prtSettle ||| fm_prtIssue
theorem State.prtCommand_fr {M s0} (s : State) (w : Who) (op G : Nat) (hM : MaskLe fm_prtCommand M) (hs : Fr M s0 s) : Fr M s0 (State.prtCommand s w op G) := by
  unfold State.prtCommand
  repeat' first
    | with_reducible first | assumption | apply State.prtSettle_fr | apply State.prtIssue_fr
    | exact MaskLe.trans (by decide +kernel) hM
    | dsimp -zeta only
def fm_takeNotice : Nat := 2 ^ 26
theorem State.takeNotice_fr {M s0} (s : State) (q : Nat) (hM : MaskLe fm_takeNotice M) (hs : Fr M s0 s) : Fr M s0 (State.takeNotice s q).2 := by
  unfold State.takeNotice
  repeat' first
    | with_reducible first | assumption
    | exact MaskLe.trans (by decide +kernel) hM
    | (with_reducible refine fr_mk_notices (MaskLe.trans (by decide +kernel) hM) ?_; first | with_reducible assumption)
    | with_reducible apply fr2_pair
    | split
    | dsimp -zeta only
def fm_guardValue : Nat := fm_free
theorem State.guardValue_fr {M s0} (s : State) (bytes alive : Nat) (hM : MaskLe fm_guardValue M) (hs : Fr M s0 s) : Fr M s0 (State.guardValue s bytes alive).2 := by
  unfold State.guardValue
  repeat' first
    | with_reducible first | assumption | apply State.free_fr | apply fr2_ite
    | (extract_lets +onlyGivenNames x; refine fr_cut x ?_ ?_; (on_goal 2 => dsimp only [x]); (on_goal 1 => clear_value x; intro hx))
    | (extract_lets +onlyGivenNames x; fail_if_success (have : State := x); clear_value x)
    | exact MaskLe.trans (by decide +kernel) hM
    | split
    | dsimp -zeta only
def fm_apsAccept : Nat := mTab T_APS_RX ||| fm_setAps ||| fm_notice ||| fm_apsRefresh ||| fm_setFop
theorem State.apsAccept_fr {M s0} (s : State) (a bytes : Nat) (hM : MaskLe fm_apsAccept M) (hs : Fr M s0 s) : Fr M s0 (State.apsAccept s a bytes) := by
  unfold State.apsAccept
  repeat' first
    | (intro x)
    | with_reducible first | assumption | apply State.tputb_fr | apply State.tput_fr | apply State.setAps_fr | apply State.notice_fr | apply State.apsRefresh_fr | apply State.setFop_fr | apply fr_ite
    | (extract_lets +onlyGivenNames x; refine fr_cut x ?_ ?_; (on_goal 2 => dsimp only [x]); (on_goal 1 => clear_value x; intro hx))
    | (extract_lets +onlyGivenNames x; fail_if_success (have : State := x); clear_value x)
    | exact MaskLe.trans (by decide +kernel) hM
    | with_reducible apply fr_pair
    | split
    | dsimp -zeta only
def fm_apsValidMsg : Nat := mTab T_APS_RX ||| mTab T_APS_CNT ||| fm_setAps ||| fm_setFop ||| fm_apsAccept
theorem State.apsValidMsg_fr {M s0} (s : State) (a bytes alive : Nat) (hM : MaskLe fm_apsValidMsg M) (hs : Fr M s0 s) : Fr M s0 (State.apsValidMsg s a bytes alive) := by
  unfold State.apsValidMsg
  repeat' first
    | (intro x)
    | with_reducible first | assumption | apply State.setAps_fr | apply State.tput_fr | apply State.tcount_fr | apply State.setFop_fr | apply State.apsAccept_fr | apply fr_ite
    | (extract_lets +onlyGivenNames x; refine fr_cut x ?_ ?_; (on_goal 2 => dsimp only [x]); (on_goal 1 => clear_value x; intro hx))
    | (extract_lets +onlyGivenNames x; fail_if_success (have : State := x); clear_value x)
    | exact MaskLe.trans (by decide +kernel) hM
    | with_reducible apply fr_pair
    | split
    | dsimp -zeta only
def fm_apsReceive : Nat := mTab T_APS_CNT ||| fm_apsValidMsg ||| fm_guardValue ||| fm_setAps
theorem State.apsReceive_fr {M s0} (s : State) (a msg : Nat) (hM : MaskLe fm_apsReceive M) (hs : Fr M s0 s) : Fr M s0 (State.apsReceive s a msg) := by
  unfold State.apsReceive
  repeat' first
    | (intro x)
    | with_reducible first | assumption | apply State.apsValidMsg_fr | apply State.guardValue_fr | apply State.setAps_fr | apply State.tcount_fr | apply fr_ite
    | (extract_lets +onlyGivenNames x; refine fr_cut x ?_ ?_; (on_goal 2 => dsimp only [x]); (on_goal 1 => clear_value x; intro hx))
    | (extract_lets +onlyGivenNames x; fail_if_success (have : State := x); clear_value x)
    | exact MaskLe.trans (by decide +kernel) hM
    | with_reducible apply fr_pair
    | split
    | dsimp -zeta only
def fm_apsSend : Nat := mTab T_APS_CNT ||| fm_guardValue ||| fm_setAps
theorem State.apsSend_fr {M s0} (s : State) (a : Nat) (hM : MaskLe fm_apsSend M) (hs : Fr M s0 s) : Fr M s0 (State.apsSend s a).2 := by
  unfold State.apsSend
  repeat' first
    | (intro x)
    | with_reducible first | assumption | apply State.guardValue_fr | apply State.setAps_fr | apply State.tcount_fr | apply fr2_ite
    | (extract_lets +onlyGivenNames x; refine fr_cut x ?_ ?_; (on_goal 2 => dsimp only [x]); (on_goal 1 => clear_value x; intro hx))
    | (extract_lets +onlyGivenNames x; fail_if_success (have : State := x); clear_value x)
    | exact MaskLe.trans (by decide +kernel) hM
    | with_reducible apply fr2_pair
    | split
    | dsimp -zeta only
def fm_apsAge : Nat := mTab T_APS_RX ||| fm_setAps ||| fm_setFop
theorem State.apsAge_fr {M s0} (s : State) (a : Nat) (hM : MaskLe fm_apsAge M) (hs : Fr M s0 s) : Fr M s0 (State.apsAge s a) := by
  unfold State.apsAge
  repeat' first
    | (intro x)
    | with_reducible first | assumption | apply State.tput_fr | apply State.setAps_fr | apply State.tputb_fr | apply State.setFop_fr | apply fr_ite
    | (extract_lets +onlyGivenNames x; refine fr_cut x ?_ ?_; (on_goal 2 => dsimp only [x]); (on_goal 1 => clear_value x; intro hx))
    | (extract_lets +onlyGivenNames x; fail_if_success (have : State := x); clear_value x)
    | exact MaskLe.trans (by decide +kernel) hM
    | with_reducible apply fr_pair
    | split
    | dsimp -zeta only
def fm_apsAgeScan : Nat := fm_apsAge
theorem State.apsAgeScan_fr {M s0} (s : State) (hM : MaskLe fm_apsAgeScan M) (hs : Fr M s0 s) : Fr M s0 (State.apsAgeScan s) := by
  unfold State.apsAgeScan
  repeat' first
    | (intro x)
    | with_reducible first | assumption | apply State.apsAge_fr | apply fr_each
    | exact MaskLe.trans (by decide +kernel) hM
    | with_reducible apply fr_pair
    | dsimp -zeta only
def fm_dfopNr : Nat := fm_setFop
theorem State.dfopNr_fr {M s0} (s : State) (a : Nat) (hM : MaskLe fm_dfopNr M) (hs : Fr M s0 s) : Fr M s0 (State.dfopNr s a) := by
  unfold State.dfopNr
  repeat' first
    | with_reducible first | assumption | apply State.setFop_fr | apply fr_ite
    | exact MaskLe.trans (by decide +kernel) hM
    | split
    | dsimp -zeta only
def fm_suspectHoldEnd : Nat := fm_refreshCtxs ||| fm_setCtx ||| fm_refreshEth ||| fm_setCli
theorem State.suspectHoldEnd_fr {M s0} (s : State) (c : CliRef) (hM : MaskLe fm_suspectHoldEnd M) (hs : Fr M s0 s) : Fr M s0 (State.suspectHoldEnd s c) := by
  unfold State.suspectHoldEnd
  repeat' first
    | (intro x)
    | with_reducible first | assumption | apply State.refreshCtxs_fr | apply State.setCtx_fr | apply State.refreshEth_fr | apply State.setCli_fr | apply fr_ite
    | exact MaskLe.trans (by decide +kernel) hM
    | with_reducible apply fr_pair
    | split
    | dsimp -zeta only
def fm_prtOp : Nat := fm_prtSettle ||| fm_via ||| fm_prtIssue
theorem State.prtOp_fr {M s0} (s : State) (w : Who) (op G : Nat) (hM : MaskLe fm_prtOp M) (hs : Fr M s0 s) : Fr M s0 (State.prtOp s w op G) := by
  unfold State.prtOp
  repeat' first
    | (intro x)
    | with_reducible first | assumption | apply State.prtSettle_fr | apply State.via_fr | apply State.prtIssue_fr
    | exact MaskLe.trans (by decide +kernel) hM
    | with_reducible apply fr_pair
    | dsimp -zeta only
def fm_stampInstance : Nat := mTab T_STAMP_RX ||| fm_setCtx ||| fm_stampUnlock ||| fm_ev
theorem State.stampInstance_fr {M s0} (s : State) (B e : Nat) (g : StampGroup) (hM : MaskLe fm_stampInstance M) (hs : Fr M s0 s) : Fr M s0 (State.stampInstance s B e g) := by
  unfold State.stampInstance
  repeat' first
    | (intro x)
    | with_reducible first | assumption | apply State.tcount_fr | apply State.setCtx_fr | apply State.tput_fr | apply State.stampUnlock_fr | apply State.ev_fr | apply State.tputb_fr | apply fr_ite
    | (extract_lets +onlyGivenNames x; refine fr_cut x ?_ ?_; (on_goal 2 => dsimp only [x]); (on_goal 1 => clear_value x; intro hx))
    | (extract_lets +onlyGivenNames x; fail_if_success (have : State := x); clear_value x)
    | exact MaskLe.trans (by decide +kernel) hM
    | with_reducible apply fr_pair
    | split
    | dsimp -zeta only
def fm_setWg : Nat := 2 ^ 48
theorem State.setWg_fr {M s0} (s : State) (w : Nat) (f : Wgrp → Wgrp) (hM : MaskLe fm_setWg M) (hs : Fr M s0 s) : Fr M s0 (State.setWg s w f) := by
  unfold State.setWg
  repeat' first
    | with_reducible first | assumption
    | exact MaskLe.trans (by decide +kernel) hM
    | (with_reducible refine fr_mk_wgrps (MaskLe.trans (by decide +kernel) hM) ?_; first | with_reducible assumption)
    | dsimp -zeta only
def fm_wgPut : Nat := mTab T_WGRP_STATUS
theorem State.wgPut_fr {M s0} (s : State) (w : Nat) (f : TField) (v : Nat) (hM : MaskLe fm_wgPut M) (hs : Fr M s0 s) : Fr M s0 (State.wgPut s w f v) := by
  unfold State.wgPut
  repeat' first
    | with_reducible first | assumption | apply State.tput_fr
    | exact MaskLe.trans (by decide +kernel) hM
    | dsimp -zeta only
def fm_wgCount : Nat := mTab T_WGRP_CNT
theorem State.wgCount_fr {M s0} (s : State) (w : Nat) (f : TField) (hM : MaskLe fm_wgCount M) (hs : Fr M s0 s) : Fr M s0 (State.wgCount s w f) := by
  unfold State.wgCount
  repeat' first
    | with_reducible first | assumption | apply State.tcount_fr
    | exact MaskLe.trans (by decide +kernel) hM
    | dsimp -zeta only
def fm_wgPlay : Nat := fm_feed ||| fm_feedGap
theorem State.wgPlay_fr {M s0} (s : State) (w : Nat) (x : Option (Nat × List Byte)) (hM : MaskLe fm_wgPlay M) (hs : Fr M s0 s) : Fr M s0 (State.wgPlay s w x) := by
  unfold State.wgPlay
  repeat' first
    | with_reducible first | assumption | apply State.feed_fr | apply State.feedGap_fr
    | exact MaskLe.trans (by decide +kernel) hM
    | with_reducible apply fr_pair
    | split
    | dsimp -zeta only
def fm_flushStaged : Nat := fm_wgPlay ||| fm_setWg
theorem State.flushStaged_fr {M s0} (s : State) (w : Nat) (hM : MaskLe fm_flushStaged M) (hs : Fr M s0 s) : Fr M s0 (State.flushStaged s w) := by
  unfold State.flushStaged
  repeat' first
    | (intro x)
    | with_reducible first | assumption | apply State.wgPlay_fr | apply State.setWg_fr | apply fr_ite | apply fr_each
    | (extract_lets +onlyGivenNames x; refine fr_cut x ?_ ?_; (on_goal 2 => dsimp only [x]); (on_goal 1 => clear_value x; intro hx))
    | (extract_lets +onlyGivenNames x; fail_if_success (have : State := x); clear_value x)
    | exact MaskLe.trans (by decide +kernel) hM
    | with_reducible apply fr_pair
    | split
    | dsimp -zeta only
def fm_showSlots : Nat := mFld WNG_STATUS_queued ||| mFld WNG_STATUS_slots
theorem State.showSlots_fr {M s0} (s : State) (hM : MaskLe fm_showSlots M) (hs : Fr M s0 s) : Fr M s0 (State.showSlots s) := by
  unfold State.showSlots
  repeat' first
    | (intro x)
    | with_reducible first | assumption | apply State.wr_fr
    | (extract_lets +onlyGivenNames x; refine fr_cut x ?_ ?_; (on_goal 2 => dsimp only [x]); (on_goal 1 => clear_value x; intro hx))
    | (extract_lets +onlyGivenNames x; fail_if_success (have : State := x); clear_value x)
    | exact MaskLe.trans (by decide +kernel) hM
    | with_reducible apply fr_pair
    | dsimp -zeta only
def fm_unqueue : Nat := 2 ^ 49 ||| fm_wgPut
theorem State.unqueue_fr {M s0} (s : State) (w : Nat) (hM : MaskLe fm_unqueue M) (hs : Fr M s0 s) : Fr M s0 (State.unqueue s w) := by
  unfold State.unqueue
  repeat' first
    | (intro x)
    | with_reducible first | assumption | apply State.wgPut_fr
    | exact MaskLe.trans (by decide +kernel) hM
    | (with_reducible refine fr_mk_slotQ (MaskLe.trans (by decide +kernel) hM) ?_; first | with_reducible assumption | with_reducible apply State.wgPut_fr)
    | with_reducible apply fr_pair
    | dsimp -zeta only
def fm_wgEnter : Nat := 2 ^ 49 ||| fm_flushStaged ||| fm_ev ||| fm_wgPut ||| fm_evWhen ||| fm_unqueue ||| fm_setWg ||| fm_wgCount ||| fm_showSlots
theorem State.wgEnter_fr {M s0} (s : State) (w st : Nat) (hM : MaskLe fm_wgEnter M) (hs : Fr M s0 s) : Fr M s0 (State.wgEnter s w st) := by
  unfold State.wgEnter
  repeat' first
    | (intro x)
    | with_reducible first | assumption | apply State.flushStaged_fr | apply State.ev_fr | apply State.wgPut_fr | apply State.evWhen_fr | apply State.unqueue_fr | apply State.setWg_fr | apply State.wgCount_fr | apply State.showSlots_fr | apply fr_ite
    | (extract_lets +onlyGivenNames x; refine fr_cut x ?_ ?_; (on_goal 2 => dsimp only [x]); (on_goal 1 => clear_value x; intro hx))
    | (extract_lets +onlyGivenNames x; fail_if_success (have : State := x); clear_value x)
    | exact MaskLe.trans (by decide +kernel) hM
    | (with_reducible refine fr_mk_slotQ (MaskLe.trans (by decide +kernel) hM) ?_; first | with_reducible assumption | with_reducible apply State.flushStaged_fr | with_reducible apply State.ev_fr | with_reducible apply State.wgPut_fr | with_reducible apply State.evWhen_fr | with_reducible apply State.unqueue_fr | with_reducible apply State.setWg_fr | with_reducible apply State.wgCount_fr | with_reducible apply State.showSlots_fr)
    | with_reducible apply fr_pair
    | split
    | dsimp -zeta only
def fm_wfail : Nat := mTab T_WFAIL ||| fm_ev ||| fm_logRec
theorem State.wfail_fr {M s0} (s : State) (w cause : Nat) (keys : Option (Nat × Nat)) (hM : MaskLe fm_wfail M) (hs : Fr M s0 s) : Fr M s0 (State.wfail s w cause keys) := by
  unfold State.wfail
  repeat' first
    | with_reducible first | assumption | apply State.ev_fr | apply State.setEntry_fr | apply State.logRec_fr
    | (extract_lets +onlyGivenNames x; refine fr_cut x ?_ ?_; (on_goal 2 => dsimp only [x]); (on_goal 1 => clear_value x; intro hx))
    | (extract_lets +onlyGivenNames x; fail_if_success (have : State := x); clear_value x)
    | exact MaskLe.trans (by decide +kernel) hM
    | with_reducible apply fr_pair
    | split
    | dsimp -zeta only
def fm_wgGoOver : Nat := fm_wgEnter ||| fm_wfail
theorem State.wgGoOver_fr {M s0} (s : State) (w : Nat) (hM : MaskLe fm_wgGoOver M) (hs : Fr M s0 s) : Fr M s0 (State.wgGoOver s w) := by
  unfold State.wgGoOver
  repeat' first
    | with_reducible first | assumption | apply State.wgEnter_fr | apply State.wfail_fr | apply fr_ite
    | (extract_lets +onlyGivenNames x; refine fr_cut x ?_ ?_; (on_goal 2 => dsimp only [x]); (on_goal 1 => clear_value x; intro hx))
    | (extract_lets +onlyGivenNames x; fail_if_success (have : State := x); clear_value x)
    | exact MaskLe.trans (by decide +kernel) hM
    | split
    | dsimp -zeta only
def fm_askSlot : Nat := fm_setWg
theorem State.askSlot_fr {M s0} (s : State) (w : Nat) (hM : MaskLe fm_askSlot M) (hs : Fr M s0 s) : Fr M s0 (State.askSlot s w) := by
  unfold State.askSlot
  repeat' first
    | (intro x)
    | with_reducible first | assumption | apply State.setWg_fr
    | exact MaskLe.trans (by decide +kernel) hM
    | with_reducible apply fr_pair
    | dsimp -zeta only
def fm_slotAnswer : Nat := fm_setWg ||| fm_wgEnter
theorem State.slotAnswer_fr {M s0} (s : State) (w : Nat) (hM : MaskLe fm_slotAnswer M) (hs : Fr M s0 s) : Fr M s0 (State.slotAnswer s w) := by
  unfold State.slotAnswer
  repeat' first
    | (intro x)
    | with_reducible first | assumption | apply State.setWg_fr | apply State.wgEnter_fr | apply fr_ite
    | (extract_lets +onlyGivenNames x; refine fr_cut x ?_ ?_; (on_goal 2 => dsimp only [x]); (on_goal 1 => clear_value x; intro hx))
    | (extract_lets +onlyGivenNames x; fail_if_success (have : State := x); clear_value x)
    | exact MaskLe.trans (by decide +kernel) hM
    | with_reducible apply fr_pair
    | split
    | dsimp -zeta only
def fm_wingsSettle : Nat := fm_slotAnswer
theorem State.wingsSettle_fr {M s0} (s : State) (hM : MaskLe fm_wingsSettle M) (hs : Fr M s0 s) : Fr M s0 (State.wingsSettle s) := by
  unfold State.wingsSettle
  repeat' first
    | (intro x)
    | with_reducible first | assumption | apply State.slotAnswer_fr | apply fr_ite | apply fr_each
    | exact MaskLe.trans (by decide +kernel) hM
    | with_reducible apply fr_pair
    | split
    | dsimp -zeta only
def fm_showCovered : Nat := fm_wgPut
theorem State.showCovered_fr {M s0} (s : State) (w : Nat) (hM : MaskLe fm_showCovered M) (hs : Fr M s0 s) : Fr M s0 (State.showCovered s w) := by
  unfold State.showCovered
  repeat' first
    | with_reducible first | assumption | apply State.wgPut_fr | apply fr_ite
    | exact MaskLe.trans (by decide +kernel) hM
    | with_reducible apply fr_pair
    | split
    | dsimp -zeta only
def fm_wgEngage : Nat := fm_wgPut ||| fm_setWg ||| fm_wgEnter
theorem State.wgEngage_fr {M s0} (s : State) (w : Nat) (hM : MaskLe fm_wgEngage M) (hs : Fr M s0 s) : Fr M s0 (State.wgEngage s w) := by
  unfold State.wgEngage
  repeat' first
    | (intro x)
    | with_reducible first | assumption | apply State.wgPut_fr | apply State.setWg_fr | apply State.wgEnter_fr | apply fr_ite
    | (extract_lets +onlyGivenNames x; refine fr_cut x ?_ ?_; (on_goal 2 => dsimp only [x]); (on_goal 1 => clear_value x; intro hx))
    | (extract_lets +onlyGivenNames x; fail_if_success (have : State := x); clear_value x)
    | exact MaskLe.trans (by decide +kernel) hM
    | with_reducible apply fr_pair
    | split
    | dsimp -zeta only
def fm_wgJudge : Nat := fm_wgGoOver ||| fm_wgEngage ||| fm_wgEnter ||| fm_askSlot ||| fm_setWg
theorem State.wgJudge_fr {M s0} (s : State) (w : Nat) (hM : MaskLe fm_wgJudge M) (hs : Fr M s0 s) : Fr M s0 (State.wgJudge s w) := by
  unfold State.wgJudge
  repeat' first
    | (intro x)
    | with_reducible first | assumption | apply State.wgGoOver_fr | apply State.wgEngage_fr | apply State.wgEnter_fr | apply State.askSlot_fr | apply State.setWg_fr | apply fr_ite
    | (extract_lets +onlyGivenNames x; refine fr_cut x ?_ ?_; (on_goal 2 => dsimp only [x]); (on_goal 1 => clear_value x; intro hx))
    | (extract_lets +onlyGivenNames x; fail_if_success (have : State := x); clear_value x)
    | exact MaskLe.trans (by decide +kernel) hM
    | with_reducible apply fr_pair
    | split
    | dsimp -zeta only
def fm_wingsGroupStart : Nat := fm_setWg ||| fm_divFree ||| fm_wgPut ||| fm_wgJudge
theorem State.wingsGroupStart_fr {M s0} (s : State) (w leg F : Nat) (hM : MaskLe fm_wingsGroupStart M) (hs : Fr M s0 s) : Fr M s0 (State.wingsGroupStart s w leg F) := by
  unfold State.wingsGroupStart
  repeat' first
    | (intro x)
    | with_reducible first | assumption | apply State.setWg_fr | apply State.divFree_fr | apply State.wgPut_fr | apply State.wgJudge_fr | apply fr_ite
    | (extract_lets +onlyGivenNames x; refine fr_cut x ?_ ?_; (on_goal 2 => dsimp only [x]); (on_goal 1 => clear_value x; intro hx))
    | (extract_lets +onlyGivenNames x; fail_if_success (have : State := x); clear_value x)
    | exact MaskLe.trans (by decide +kernel) hM
    | with_reducible apply fr_pair
    | split
    | dsimp -zeta only
def fm_showTrack : Nat := mFld WNG_TRACK_peak ||| mFld WNG_TRACK_now
theorem State.showTrack_fr {M s0} (s : State) (hM : MaskLe fm_showTrack M) (hs : Fr M s0 s) : Fr M s0 (State.showTrack s) := by
  unfold State.showTrack
  repeat' first
    | with_reducible first | assumption | apply State.wr_fr
    | exact MaskLe.trans (by decide +kernel) hM
    | dsimp -zeta only
def fm_trackRead : Nat := mFld WNG_TRACK_peak
theorem State.trackRead_fr {M s0} (s : State) (hM : MaskLe fm_trackRead M) (hs : Fr M s0 s) : Fr M s0 (State.trackRead s) := by
  unfold State.trackRead
  repeat' first
    | with_reducible first | assumption | apply State.wr_fr
    | exact MaskLe.trans (by decide +kernel) hM
    | dsimp -zeta only
def fm_ringWrite : Nat := 2 ^ 15
theorem State.ringWrite_fr {M s0} (s : State) (x : HbmWr) (hM : MaskLe fm_ringWrite M) (hs : Fr M s0 s) : Fr M s0 (State.ringWrite s x) := by
  unfold State.ringWrite
  extract_lets a i fg m1 m2 m3 m4 m5 m6
  refine fr_mem (MaskLe.trans (by decide +kernel) hM) hs (fun k => ?_)
  have h2 : Memory.wf m2 = true := by
    unfold m2
    split
    · exact k
    · exact wf_memWriteBytes _ _ _ k
  have h5 : Memory.wf m5 = true := wf_memWriteBytes _ _ _ (wf_memWrite _ _ _ (wf_memWriteBytes _ _ _ h2))
  show Memory.wf m6 = true
  unfold m6
  split
  · exact wf_memWriteBytes _ _ _ h5
  · exact h5
def fm_hbmDone : Nat := 2 ^ 50 ||| fm_ringWrite
theorem State.hbmDone_fr {M s0} (s : State) (n : Nat) (hM : MaskLe fm_hbmDone M) (hs : Fr M s0 s) : Fr M s0 (State.hbmDone s n) := by
  unfold State.hbmDone
  repeat' first
    | (intro x)
    | with_reducible first | assumption | apply State.ringWrite_fr | apply fr_each
    | (extract_lets +onlyGivenNames x; refine fr_cut x ?_ ?_; (on_goal 2 => dsimp only [x]); (on_goal 1 => clear_value x; intro hx))
    | (extract_lets +onlyGivenNames x; fail_if_success (have : State := x); clear_value x)
    | exact MaskLe.trans (by decide +kernel) hM
    | (with_reducible refine fr_mk_hbm (MaskLe.trans (by decide +kernel) hM) ?_; first | with_reducible assumption | with_reducible apply State.ringWrite_fr)
    | with_reducible apply fr_pair
    | split
    | dsimp -zeta only
def fm_hbmHeld : Nat := mFld WNG_TRACK_HELD_held ||| fm_ev
theorem State.hbmHeld_fr {M s0} (s : State) (hM : MaskLe fm_hbmHeld M) (hs : Fr M s0 s) : Fr M s0 (State.hbmHeld s) := by
  unfold State.hbmHeld
  repeat' first
    | with_reducible first | assumption | apply State.ev_fr | apply State.count_fr
    | exact MaskLe.trans (by decide +kernel) hM
    | dsimp -zeta only
def fm_hbmRead : Nat := 2 ^ 50 ||| fm_hbmDone ||| fm_hbmHeld ||| fm_showTrack
theorem State.hbmRead_fr {M s0} (s : State) (w K : Nat) (u : HbmUse) (hM : MaskLe fm_hbmRead M) (hs : Fr M s0 s) : Fr M s0 (State.hbmRead s w K u) := by
  unfold State.hbmRead
  repeat' first
    | with_reducible first | assumption | apply State.hbmDone_fr | apply State.hbmHeld_fr | apply State.showTrack_fr | apply fr_ite
    | (extract_lets +onlyGivenNames x; refine fr_cut x ?_ ?_; (on_goal 2 => dsimp only [x]); (on_goal 1 => clear_value x; intro hx))
    | (extract_lets +onlyGivenNames x; fail_if_success (have : State := x); clear_value x)
    | exact MaskLe.trans (by decide +kernel) hM
    | (with_reducible refine fr_mk_hbm (MaskLe.trans (by decide +kernel) hM) ?_; first | with_reducible assumption | with_reducible apply State.hbmDone_fr | with_reducible apply State.hbmHeld_fr | with_reducible apply State.showTrack_fr)
    | split
    | dsimp -zeta only
def fm_hbmWrite : Nat := 2 ^ 50 ||| fm_hbmDone ||| fm_showTrack ||| fm_ringWrite ||| fm_hbmHeld
theorem State.hbmWrite_fr {M s0} (s : State) (x : HbmWr) (u : HbmUse) (hM : MaskLe fm_hbmWrite M) (hs : Fr M s0 s) : Fr M s0 (State.hbmWrite s x u).1 := by
  unfold State.hbmWrite
  repeat' first
    | (intro x)
    | with_reducible first | assumption | apply State.hbmDone_fr | apply State.showTrack_fr | apply State.ringWrite_fr | apply State.hbmHeld_fr | apply fr1_ite
    | (extract_lets +onlyGivenNames x; refine fr_cut x ?_ ?_; (on_goal 2 => dsimp only [x]); (on_goal 1 => clear_value x; intro hx))
    | (extract_lets +onlyGivenNames x; fail_if_success (have : State := x); clear_value x)
    | exact MaskLe.trans (by decide +kernel) hM
    | (with_reducible refine fr_mk_hbm (MaskLe.trans (by decide +kernel) hM) ?_; first | with_reducible assumption | with_reducible apply State.hbmDone_fr | with_reducible apply State.showTrack_fr | with_reducible apply State.ringWrite_fr | with_reducible apply State.hbmHeld_fr)
    | with_reducible apply fr1_pair
    | split
    | dsimp -zeta only
def fm_wgHole : Nat := mFld HBM_WBUF_DROP ||| fm_ev ||| fm_setWg ||| fm_wgEnter
theorem State.wgHole_fr {M s0} (s : State) (w K : Nat) (hM : MaskLe fm_wgHole M) (hs : Fr M s0 s) : Fr M s0 (State.wgHole s w K) := by
  unfold State.wgHole
  repeat' first
    | (intro x)
    | with_reducible first | assumption | apply State.ev_fr | apply State.count_fr | apply State.setWg_fr | apply State.wgEnter_fr
    | (extract_lets +onlyGivenNames x; refine fr_cut x ?_ ?_; (on_goal 2 => dsimp only [x]); (on_goal 1 => clear_value x; intro hx))
    | (extract_lets +onlyGivenNames x; fail_if_success (have : State := x); clear_value x)
    | exact MaskLe.trans (by decide +kernel) hM
    | with_reducible apply fr_pair
    | split
    | dsimp -zeta only
def fm_wgArrive : Nat := fm_setWg
theorem State.wgArrive_fr {M s0} (s : State) (w leg : Nat) (e : Wseg) (hM : MaskLe fm_wgArrive M) (hs : Fr M s0 s) : Fr M s0 (State.wgArrive s w leg e) := by
  unfold State.wgArrive
  repeat' first
    | (intro x)
    | with_reducible first | assumption | apply State.setWg_fr | apply fr_ite
    | (extract_lets +onlyGivenNames x; refine fr_cut x ?_ ?_; (on_goal 2 => dsimp only [x]); (on_goal 1 => clear_value x; intro hx))
    | (extract_lets +onlyGivenNames x; fail_if_success (have : State := x); clear_value x)
    | exact MaskLe.trans (by decide +kernel) hM
    | with_reducible apply fr_pair
    | split
    | dsimp -zeta only
def fm_wgFollow : Nat := fm_setWg ||| fm_wgCount
theorem State.wgFollow_fr {M s0} (s : State) (w leg K : Nat) (inRing : Bool) (hM : MaskLe fm_wgFollow M) (hs : Fr M s0 s) : Fr M s0 (State.wgFollow s w leg K inRing) := by
  unfold State.wgFollow
  repeat' first
    | (intro x)
    | with_reducible first | assumption | apply State.setWg_fr | apply State.wgCount_fr | apply fr_ite
    | (extract_lets +onlyGivenNames x; refine fr_cut x ?_ ?_; (on_goal 2 => dsimp only [x]); (on_goal 1 => clear_value x; intro hx))
    | (extract_lets +onlyGivenNames x; fail_if_success (have : State := x); clear_value x)
    | exact MaskLe.trans (by decide +kernel) hM
    | with_reducible apply fr_pair
    | split
    | dsimp -zeta only
def fm_wingsSegment : Nat := fm_wgCount ||| fm_wgPut ||| fm_setWg ||| fm_hbmWrite ||| fm_wgArrive ||| fm_wgFollow ||| fm_showCovered ||| fm_wgHole
theorem State.wingsSegment_fr {M s0} (s : State) (w leg typ stamp status snap : Nat) (present : Bool) (payload : List Byte) (u : HbmUse) (hM : MaskLe fm_wingsSegment M) (hs : Fr M s0 s) : Fr M s0 (State.wingsSegment s w leg typ stamp status snap present payload u) := by
  unfold State.wingsSegment
  repeat' first
    | (intro x)
    | with_reducible first | assumption | apply State.wgCount_fr | apply State.wgPut_fr | apply State.setWg_fr | apply State.hbmWrite_fr | apply State.wgArrive_fr | apply State.wgFollow_fr | apply State.showCovered_fr | apply State.wgHole_fr | apply fr_ite
    | (extract_lets +onlyGivenNames x; refine fr_cut x ?_ ?_; (on_goal 2 => dsimp only [x]); (on_goal 1 => clear_value x; intro hx))
    | (extract_lets +onlyGivenNames x; fail_if_success (have : State := x); clear_value x)
    | exact MaskLe.trans (by decide +kernel) hM
    | with_reducible apply fr_pair
    | with_reducible apply fr1_pair'
    | split
    | dsimp -zeta only
def fm_hbmErrors : Nat := mFld HBM_CE ||| mFld HBM_UE ||| fm_report ||| fm_ev
theorem State.hbmErrors_fr {M s0} (s : State) (k : Nat) (u : HbmUse) (hM : MaskLe fm_hbmErrors M) (hs : Fr M s0 s) : Fr M s0 (State.hbmErrors s k u) := by
  unfold State.hbmErrors
  repeat' first
    | with_reducible first | assumption | apply State.report_fr | apply State.count_fr | apply State.ev_fr | apply fr_ite
    | exact MaskLe.trans (by decide +kernel) hM
    | split
    | dsimp -zeta only
def fm_slewLag : Nat := fm_wgPut ||| fm_setWg
theorem State.slewLag_fr {M s0} (s : State) (w : Nat) (hM : MaskLe fm_slewLag M) (hs : Fr M s0 s) : Fr M s0 (State.slewLag s w) := by
  unfold State.slewLag
  repeat' first
    | (intro x)
    | with_reducible first | assumption | apply State.wgPut_fr | apply State.setWg_fr | apply fr_ite
    | (extract_lets +onlyGivenNames x; refine fr_cut x ?_ ?_; (on_goal 2 => dsimp only [x]); (on_goal 1 => clear_value x; intro hx))
    | (extract_lets +onlyGivenNames x; fail_if_success (have : State := x); clear_value x)
    | exact MaskLe.trans (by decide +kernel) hM
    | with_reducible apply fr_pair
    | split
    | dsimp -zeta only
def fm_recentre : Nat := fm_setWg ||| fm_divFree ||| fm_wgPut ||| fm_wgCount
theorem State.recentre_fr {M s0} (s : State) (w : Nat) (hM : MaskLe fm_recentre M) (hs : Fr M s0 s) : Fr M s0 (State.recentre s w) := by
  unfold State.recentre
  repeat' first
    | (intro x)
    | with_reducible first | assumption | apply State.setWg_fr | apply State.divFree_fr | apply State.wgPut_fr | apply State.wgCount_fr | apply fr_ite
    | (extract_lets +onlyGivenNames x; refine fr_cut x ?_ ?_; (on_goal 2 => dsimp only [x]); (on_goal 1 => clear_value x; intro hx))
    | (extract_lets +onlyGivenNames x; fail_if_success (have : State := x); clear_value x)
    | exact MaskLe.trans (by decide +kernel) hM
    | with_reducible apply fr_pair
    | split
    | dsimp -zeta only
def fm_wgPass : Nat := fm_setWg
theorem State.wgPass_fr {M s0} (s : State) (w K : Nat) (e l : Option (Nat × Nat × List Byte)) (lSt : Nat) (hM : MaskLe fm_wgPass M) (hs : Fr M s0 s) : Fr M s0 (State.wgPass s w K e l lSt) := by
  unfold State.wgPass
  repeat' first
    | (intro x)
    | with_reducible first | assumption | apply State.setWg_fr | apply fr_ite
    | (extract_lets +onlyGivenNames x; refine fr_cut x ?_ ?_; (on_goal 2 => dsimp only [x]); (on_goal 1 => clear_value x; intro hx))
    | (extract_lets +onlyGivenNames x; fail_if_success (have : State := x); clear_value x)
    | exact MaskLe.trans (by decide +kernel) hM
    | with_reducible apply fr_pair
    | split
    | dsimp -zeta only
def fm_playBoth : Nat := fm_hbmErrors ||| fm_hbmRead ||| fm_wgCount ||| fm_setWg ||| fm_wgPlay ||| fm_wgPass ||| fm_divFree ||| fm_wgPut ||| fm_slewLag ||| fm_wgJudge ||| fm_showCovered ||| fm_recentre
theorem State.playBoth_fr {M s0} (s : State) (w K : Nat) (u : HbmUse) (hM : MaskLe fm_playBoth M) (hs : Fr M s0 s) : Fr M s0 (State.playBoth s w K u) := by
  unfold State.playBoth
  repeat' first
    | (intro x)
    | with_reducible first | assumption | apply State.hbmErrors_fr | apply State.hbmRead_fr | apply State.wgCount_fr | apply State.setWg_fr | apply State.wgPlay_fr | apply State.wgPass_fr | apply State.divFree_fr | apply State.wgPut_fr | apply State.slewLag_fr | apply State.wgJudge_fr | apply State.showCovered_fr | apply State.recentre_fr | apply fr_ite
    | (extract_lets +onlyGivenNames x; refine fr_cut x ?_ ?_; (on_goal 2 => dsimp only [x]); (on_goal 1 => clear_value x; intro hx))
    | (extract_lets +onlyGivenNames x; fail_if_success (have : State := x); clear_value x)
    | exact MaskLe.trans (by decide +kernel) hM
    | with_reducible apply fr_pair
    | split
    | dsimp -zeta only
def fm_playRing : Nat := fm_hbmErrors ||| fm_hbmRead ||| fm_wgCount ||| fm_setWg ||| fm_wgJudge ||| fm_wgPlay
theorem State.playRing_fr {M s0} (s : State) (w K : Nat) (u : HbmUse) (hM : MaskLe fm_playRing M) (hs : Fr M s0 s) : Fr M s0 (State.playRing s w K u) := by
  unfold State.playRing
  repeat' first
    | (intro x)
    | with_reducible first | assumption | apply State.hbmErrors_fr | apply State.hbmRead_fr | apply State.wgCount_fr | apply State.setWg_fr | apply State.wgJudge_fr | apply State.wgPlay_fr | apply fr_ite
    | (extract_lets +onlyGivenNames x; refine fr_cut x ?_ ?_; (on_goal 2 => dsimp only [x]); (on_goal 1 => clear_value x; intro hx))
    | (extract_lets +onlyGivenNames x; fail_if_success (have : State := x); clear_value x)
    | exact MaskLe.trans (by decide +kernel) hM
    | with_reducible apply fr_pair
    | split
    | dsimp -zeta only
def fm_playoutAdvance : Nat := fm_playBoth ||| fm_playRing
theorem State.playoutAdvance_fr {M s0} (s : State) (w : Nat) (u : HbmUse) (hM : MaskLe fm_playoutAdvance M) (hs : Fr M s0 s) : Fr M s0 (State.playoutAdvance s w u) := by
  unfold State.playoutAdvance
  repeat' first
    | with_reducible first | assumption | apply State.playBoth_fr | apply State.playRing_fr | apply fr_ite
    | (extract_lets +onlyGivenNames x; refine fr_cut x ?_ ?_; (on_goal 2 => dsimp only [x]); (on_goal 1 => clear_value x; intro hx))
    | (extract_lets +onlyGivenNames x; fail_if_success (have : State := x); clear_value x)
    | exact MaskLe.trans (by decide +kernel) hM
    | with_reducible apply fr_pair
    | split
    | dsimp -zeta only
def fm_slotGrant : Nat := fm_wgEnter
theorem State.slotGrant_fr {M s0} (s : State) (hM : MaskLe fm_slotGrant M) (hs : Fr M s0 s) : Fr M s0 (State.slotGrant s) := by
  unfold State.slotGrant
  repeat' first
    | with_reducible first | assumption | apply State.wgEnter_fr | apply fr_ite
    | exact MaskLe.trans (by decide +kernel) hM
    | with_reducible apply fr_pair
    | split
    | dsimp -zeta only
def fm_overRecover : Nat := fm_wgEnter
theorem State.overRecover_fr {M s0} (s : State) (w : Nat) (hM : MaskLe fm_overRecover M) (hs : Fr M s0 s) : Fr M s0 (State.overRecover s w) := by
  unfold State.overRecover
  repeat' first
    | with_reducible first | assumption | apply State.wgEnter_fr | apply fr_ite
    | exact MaskLe.trans (by decide +kernel) hM
    | split
    | dsimp -zeta only
def fm_showHbm : Nat := mFld HBM_LOAD_gbps ||| mFld HBM_LOAD_mib ||| mFld HBM_STATUS_groups
theorem State.showHbm_fr {M s0} (s : State) (hM : MaskLe fm_showHbm M) (hs : Fr M s0 s) : Fr M s0 (State.showHbm s) := by
  unfold State.showHbm
  repeat' first
    | (intro x)
    | with_reducible first | assumption | apply State.wr_fr | apply fr_each
    | (extract_lets +onlyGivenNames x; refine fr_cut x ?_ ?_; (on_goal 2 => dsimp only [x]); (on_goal 1 => clear_value x; intro hx))
    | (extract_lets +onlyGivenNames x; fail_if_success (have : State := x); clear_value x)
    | exact MaskLe.trans (by decide +kernel) hM
    | with_reducible apply fr_pair
    | dsimp -zeta only
def fm_wgStart : Nat := 2 ^ 15 ||| 2 ^ 404 ||| 2 ^ 48 ||| 2 ^ 49 ||| 2 ^ 50 ||| mTab T_WGRP_STATUS ||| fm_wfail ||| fm_wgEnter ||| fm_wgPut ||| fm_showSlots
theorem State.wgStart_fr {M s0} (s : State) (w : Nat) (hM : MaskLe fm_wgStart M) (hs : Fr M s0 s) : Fr M s0 (State.wgStart s w) := by
  unfold State.wgStart
  repeat' first
    | (intro x)
    | with_reducible first | assumption | apply State.wfail_fr | apply State.wgEnter_fr | apply State.setEntry_fr | apply State.wgPut_fr | apply State.showSlots_fr | apply fr_ite
    | (extract_lets +onlyGivenNames x; refine fr_cut x ?_ ?_; (on_goal 2 => dsimp only [x]); (on_goal 1 => clear_value x; intro hx))
    | (extract_lets +onlyGivenNames x; fail_if_success (have : State := x); clear_value x)
    | exact MaskLe.trans (by decide +kernel) hM
    | (with_reducible refine fr_mk_mem_wgrps_slotQ_hbm (MaskLe.trans (by decide +kernel) hM) ?_; first | with_reducible assumption | with_reducible apply State.wfail_fr | with_reducible apply State.wgEnter_fr | with_reducible apply State.setEntry_fr | with_reducible apply State.wgPut_fr | with_reducible apply State.showSlots_fr)
    | with_reducible apply fr_pair
    | split
    | dsimp -zeta only
def fm_wingsRegionReset : Nat := 2 ^ 48 ||| fm_showSlots ||| fm_wgEnter
theorem State.wingsRegionReset_fr {M s0} (s : State) (r : Nat) (hM : MaskLe fm_wingsRegionReset M) (hs : Fr M s0 s) : Fr M s0 (State.wingsRegionReset s r) := by
  unfold State.wingsRegionReset
  repeat' first
    | (intro x)
    | with_reducible first | assumption | apply State.showSlots_fr | apply State.wgEnter_fr | apply fr_each
    | (extract_lets +onlyGivenNames x; refine fr_cut x ?_ ?_; (on_goal 2 => dsimp only [x]); (on_goal 1 => clear_value x; intro hx))
    | (extract_lets +onlyGivenNames x; fail_if_success (have : State := x); clear_value x)
    | exact MaskLe.trans (by decide +kernel) hM
    | (with_reducible refine fr_mk_wgrps (MaskLe.trans (by decide +kernel) hM) ?_; first | with_reducible assumption | with_reducible apply State.showSlots_fr | with_reducible apply State.wgEnter_fr)
    | with_reducible apply fr_pair
    | dsimp -zeta only
def fm_stackFail : Nat := mFld HBM_STATUS_state ||| 2 ^ 50 ||| 2 ^ 51 ||| fm_report ||| fm_ev
theorem State.stackFail_fr {M s0} (s : State) (k : Nat) (clock : Bool) (hM : MaskLe fm_stackFail M) (hs : Fr M s0 s) : Fr M s0 (State.stackFail s k clock) := by
  unfold State.stackFail
  repeat' first
    | (intro x)
    | with_reducible first | assumption | apply State.report_fr | apply State.ev_fr | apply State.wr_fr | apply fr_ite
    | (extract_lets +onlyGivenNames x; refine fr_cut x ?_ ?_; (on_goal 2 => dsimp only [x]); (on_goal 1 => clear_value x; intro hx))
    | (extract_lets +onlyGivenNames x; fail_if_success (have : State := x); clear_value x)
    | exact MaskLe.trans (by decide +kernel) hM
    | (with_reducible refine fr_mk_hbm_fallQ (MaskLe.trans (by decide +kernel) hM) ?_; first | with_reducible assumption | with_reducible apply State.report_fr | with_reducible apply State.ev_fr | with_reducible apply State.wr_fr)
    | with_reducible apply fr_pair
    | split
    | dsimp -zeta only
def fm_groupFallback : Nat := 2 ^ 51 ||| fm_wfail ||| fm_wgEnter ||| fm_setWg
theorem State.groupFallback_fr {M s0} (s : State) (k : Nat) (hM : MaskLe fm_groupFallback M) (hs : Fr M s0 s) : Fr M s0 (State.groupFallback s k) := by
  unfold State.groupFallback
  repeat' first
    | (intro x)
    | with_reducible first | assumption | apply State.wfail_fr | apply State.wgEnter_fr | apply State.setWg_fr | apply fr_ite
    | (extract_lets +onlyGivenNames x; refine fr_cut x ?_ ?_; (on_goal 2 => dsimp only [x]); (on_goal 1 => clear_value x; intro hx))
    | (extract_lets +onlyGivenNames x; fail_if_success (have : State := x); clear_value x)
    | exact MaskLe.trans (by decide +kernel) hM
    | (with_reducible refine fr_mk_fallQ (MaskLe.trans (by decide +kernel) hM) ?_; first | with_reducible assumption | with_reducible apply State.wfail_fr | with_reducible apply State.wgEnter_fr | with_reducible apply State.setWg_fr)
    | with_reducible apply fr_pair
    | split
    | dsimp -zeta only
def fm_hbmRestore : Nat := mFld HBM_STATUS_state ||| mFld MODE_STACKS_retrained ||| fm_ev ||| fm_wgEnter
theorem State.hbmRestore_fr {M s0} (s : State) (k : Nat) (hM : MaskLe fm_hbmRestore M) (hs : Fr M s0 s) : Fr M s0 (State.hbmRestore s k) := by
  unfold State.hbmRestore
  repeat' first
    | (intro x)
    | with_reducible first | assumption | apply State.ev_fr | apply State.wr_fr | apply State.wgEnter_fr | apply fr_ite | apply fr_each
    | (extract_lets +onlyGivenNames x; refine fr_cut x ?_ ?_; (on_goal 2 => dsimp only [x]); (on_goal 1 => clear_value x; intro hx))
    | (extract_lets +onlyGivenNames x; fail_if_success (have : State := x); clear_value x)
    | exact MaskLe.trans (by decide +kernel) hM
    | with_reducible apply fr_pair
    | split
    | dsimp -zeta only
def fm_retrainPc : Nat := mFld HBM_STATUS_retrain_pc ||| 2 ^ 52 ||| mFld HBM_RETRAIN_LATE ||| fm_ev
theorem State.retrainPc_fr {M s0} (s : State) (k : Nat) (late : Bool) (hM : MaskLe fm_retrainPc M) (hs : Fr M s0 s) : Fr M s0 (State.retrainPc s k late) := by
  unfold State.retrainPc
  repeat' first
    | with_reducible first | assumption | apply State.wr_fr | apply State.ev_fr | apply State.count_fr | apply fr_ite
    | (extract_lets +onlyGivenNames x; refine fr_cut x ?_ ?_; (on_goal 2 => dsimp only [x]); (on_goal 1 => clear_value x; intro hx))
    | (extract_lets +onlyGivenNames x; fail_if_success (have : State := x); clear_value x)
    | exact MaskLe.trans (by decide +kernel) hM
    | (with_reducible refine fr_mk_nextPc (MaskLe.trans (by decide +kernel) hM) ?_; first | with_reducible assumption | with_reducible apply State.wr_fr | with_reducible apply State.ev_fr | with_reducible apply State.count_fr)
    | split
    | dsimp -zeta only
def fm_retrainEnd : Nat := mFld HBM_STATUS_retrain_pc
theorem State.retrainEnd_fr {M s0} (s : State) (hM : MaskLe fm_retrainEnd M) (hs : Fr M s0 s) : Fr M s0 (State.retrainEnd s) := by
  unfold State.retrainEnd
  repeat' first
    | (intro x)
    | with_reducible first | assumption | apply State.wr_fr | apply fr_ite | apply fr_each
    | exact MaskLe.trans (by decide +kernel) hM
    | with_reducible apply fr_pair
    | split
    | dsimp -zeta only
def fm_ackFail : Nat := mTab T_WFAIL ||| fm_setWg
theorem State.ackFail_fr {M s0} (s : State) (w : Nat) (hM : MaskLe fm_ackFail M) (hs : Fr M s0 s) : Fr M s0 (State.ackFail s w) := by
  unfold State.ackFail
  repeat' first
    | (intro x)
    | with_reducible first | assumption | apply State.setWg_fr | apply State.tputb_fr
    | exact MaskLe.trans (by decide +kernel) hM
    | with_reducible apply fr_pair
    | dsimp -zeta only
def fm_setFyl : Nat := 2 ^ 54
theorem State.setFyl_fr {M s0} (s : State) (m : Nat) (f : Fyl → Fyl) (hM : MaskLe fm_setFyl M) (hs : Fr M s0 s) : Fr M s0 (State.setFyl s m f) := by
  unfold State.setFyl
  repeat' first
    | with_reducible first | assumption
    | exact MaskLe.trans (by decide +kernel) hM
    | (with_reducible refine fr_mk_fyls (MaskLe.trans (by decide +kernel) hM) ?_; first | with_reducible assumption)
    | dsimp -zeta only
def fm_setCovering : Nat := mFld FYT_STATUS_covering ||| 2 ^ 58
theorem State.setCovering_fr {M s0} (s : State) (r c : Nat) (hM : MaskLe fm_setCovering M) (hs : Fr M s0 s) : Fr M s0 (State.setCovering s r c) := by
  unfold State.setCovering
  repeat' first
    | with_reducible first | assumption | apply State.wr_fr | apply fr_ite
    | exact MaskLe.trans (by decide +kernel) hM
    | (with_reducible refine fr_mk_covers (MaskLe.trans (by decide +kernel) hM) ?_; first | with_reducible assumption | with_reducible apply State.wr_fr)
    | split
    | dsimp -zeta only
def fm_showFyt : Nat := mFld FYT_STATUS_no_cover ||| mFld FYT_STATUS_active ||| mFld FYT_STATUS_working ||| mFld FYT_STATUS_covering
theorem State.showFyt_fr {M s0} (s : State) (r : Nat) (hM : MaskLe fm_showFyt M) (hs : Fr M s0 s) : Fr M s0 (State.showFyt s r) := by
  unfold State.showFyt
  repeat' first
    | (intro x)
    | with_reducible first | assumption | apply State.wrb_fr | apply State.wr_fr
    | (extract_lets +onlyGivenNames x; refine fr_cut x ?_ ?_; (on_goal 2 => dsimp only [x]); (on_goal 1 => clear_value x; intro hx))
    | (extract_lets +onlyGivenNames x; fail_if_success (have : State := x); clear_value x)
    | exact MaskLe.trans (by decide +kernel) hM
    | with_reducible apply fr_pair
    | split
    | dsimp -zeta only
def fm_pushSeg : Nat := fm_setFyl
theorem State.pushSeg_fr {M s0} (s : State) (m : Nat) (x : Nat × Seg) (hM : MaskLe fm_pushSeg M) (hs : Fr M s0 s) : Fr M s0 (State.pushSeg s m x) := by
  unfold State.pushSeg
  repeat' first
    | (intro x)
    | with_reducible first | assumption | apply State.setFyl_fr
    | exact MaskLe.trans (by decide +kernel) hM
    | with_reducible apply fr_pair
    | dsimp -zeta only
def fm_dropSeg : Nat := mFld FYT_DROP_dropped ||| mTab T_TXF_CNT ||| fm_ev
theorem State.dropSeg_fr {M s0} (s : State) (r i : Nat) (hM : MaskLe fm_dropSeg M) (hs : Fr M s0 s) : Fr M s0 (State.dropSeg s r i) := by
  unfold State.dropSeg
  repeat' first
    | with_reducible first | assumption | apply State.ev_fr | apply State.count_fr | apply State.tcount_fr
    | exact MaskLe.trans (by decide +kernel) hM
    | dsimp -zeta only
theorem State.divertSeg_fr {M s0} (s : State) (r : Nat) (order : List Nat) (x : Nat × Seg) (t : State) (e : s.divertSeg r order x = some t)
    (ht : MaskLe (mTab T_TXF_CNT) M) (hM : MaskLe fm_pushSeg M) (hs : Fr M s0 s) : Fr M s0 t := by
  unfold State.divertSeg at e
  cases h : order.find? (fun m => s.hasRoom m x.2.cls) with
  | none => rw [h] at e; cases e
  | some m =>
    rw [h] at e
    cases e
    exact State.pushSeg_fr _ _ _ hM (State.tcount_fr _ _ _ _ _ _ ht hs)


def fm_placeSeg : Nat := fm_dropSeg ||| fm_pushSeg ||| fm_setFyl
theorem State.placeSeg_fr {M s0} (s : State) (r i : Nat) (seg : Seg) (hM : MaskLe fm_placeSeg M) (hs : Fr M s0 s) : Fr M s0 (State.placeSeg s r i seg) := by
  unfold State.placeSeg
  extract_lets q k m s1
  refine fr_ite (State.dropSeg_fr _ _ _ (MaskLe.trans (by decide +kernel) hM) hs) (fr_ite (State.pushSeg_fr _ _ _ (MaskLe.trans (by decide +kernel) hM) hs) ?_)
  split
  · rename_i h
    exact State.divertSeg_fr _ _ _ _ _ h (MaskLe.trans (by decide +kernel) hM) (MaskLe.trans (by decide +kernel) hM) hs
  · refine State.pushSeg_fr _ _ _ (MaskLe.trans (by decide +kernel) hM) ?_
    unfold s1
    split
    · exact State.setFyl_fr _ _ _ (MaskLe.trans (by decide +kernel) hM) (State.dropSeg_fr _ _ _ (MaskLe.trans (by decide +kernel) hM) hs)
    · exact hs
def fm_replaceQueue : Nat := fm_setFyl ||| fm_dropSeg
theorem State.replaceQueue_fr {M s0} (s : State) (r from_ l : Nat) (hM : MaskLe fm_replaceQueue M) (hs : Fr M s0 s) : Fr M s0 (State.replaceQueue s r from_ l) := by
  unfold State.replaceQueue
  extract_lets x s1 ps order s2
  have h1 : Fr M s0 s1 := State.setFyl_fr _ _ _ (MaskLe.trans (by decide +kernel) hM) hs
  clear_value s1
  have h2 : Fr M s0 s2 := by
    refine fr_each h1 (fun s y h => ?_)
    split
    · rename_i h'
      exact State.divertSeg_fr _ _ _ _ _ h' (MaskLe.trans (by decide +kernel) hM) (MaskLe.trans (by decide +kernel) hM) h
    · exact State.dropSeg_fr _ _ _ (MaskLe.trans (by decide +kernel) hM) h
  clear_value s2 order
  cases order with
  | cons m l => exact State.setFyl_fr _ _ _ (MaskLe.trans (by decide +kernel) hM) h2
  | nil =>
  · exact fr_each h2 (fun s y h => State.dropSeg_fr _ _ _ (MaskLe.trans (by decide +kernel) hM) h)
def fm_coverWith : Nat := 2 ^ 57 ||| mFld FYL_STATUS_covered ||| fm_setFyl ||| fm_ev ||| fm_setCovering
theorem State.coverWith_fr {M s0} (s : State) (u m : Nat) (hM : MaskLe fm_coverWith M) (hs : Fr M s0 s) : Fr M s0 (State.coverWith s u m) := by
  unfold State.coverWith
  repeat' first
    | (intro x)
    | with_reducible first | assumption | apply State.setFyl_fr | apply State.ev_fr | apply State.wrb_fr | apply State.setCovering_fr
    | (extract_lets +onlyGivenNames x; refine fr_cut x ?_ ?_; (on_goal 2 => dsimp only [x]); (on_goal 1 => clear_value x; intro hx))
    | (extract_lets +onlyGivenNames x; fail_if_success (have : State := x); clear_value x)
    | exact MaskLe.trans (by decide +kernel) hM
    | (with_reducible refine fr_mk_coverAt (MaskLe.trans (by decide +kernel) hM) ?_; first | with_reducible assumption | with_reducible apply State.setFyl_fr | with_reducible apply State.ev_fr | with_reducible apply State.wrb_fr | with_reducible apply State.setCovering_fr)
    | with_reducible apply fr_pair
    | dsimp -zeta only
def fm_uncover : Nat := mFld FYL_STATUS_covered ||| fm_setCovering ||| fm_setFyl ||| fm_replaceQueue
theorem State.uncover_fr {M s0} (s : State) (r from_ : Nat) (hM : MaskLe fm_uncover M) (hs : Fr M s0 s) : Fr M s0 (State.uncover s r from_) := by
  unfold State.uncover
  repeat' first
    | (intro x)
    | with_reducible first | assumption | apply State.setCovering_fr | apply State.wrb_fr | apply State.setFyl_fr | apply State.replaceQueue_fr
    | (extract_lets +onlyGivenNames x; refine fr_cut x ?_ ?_; (on_goal 2 => dsimp only [x]); (on_goal 1 => clear_value x; intro hx))
    | (extract_lets +onlyGivenNames x; fail_if_success (have : State := x); clear_value x)
    | exact MaskLe.trans (by decide +kernel) hM
    | with_reducible apply fr_pair
    | dsimp -zeta only
def fm_failLink : Nat := mFld FYL_STATUS_failed ||| fm_setFyl ||| fm_ev ||| fm_report ||| fm_coverWith ||| fm_uncover ||| fm_replaceQueue ||| fm_showFyt
theorem State.failLink_fr {M s0} (s : State) (m : Nat) (hM : MaskLe fm_failLink M) (hs : Fr M s0 s) : Fr M s0 (State.failLink s m) := by
  unfold State.failLink
  repeat' first
    | (intro x)
    | with_reducible first | assumption | apply State.setFyl_fr | apply State.ev_fr | apply State.wrb_fr | apply State.report_fr | apply State.coverWith_fr | apply State.uncover_fr | apply State.replaceQueue_fr | apply State.showFyt_fr | apply fr_ite | apply fr_when
    | (extract_lets +onlyGivenNames x; refine fr_cut x ?_ ?_; (on_goal 2 => dsimp only [x]); (on_goal 1 => clear_value x; intro hx))
    | (extract_lets +onlyGivenNames x; fail_if_success (have : State := x); clear_value x)
    | exact MaskLe.trans (by decide +kernel) hM
    | with_reducible apply fr_pair
    | split
    | dsimp -zeta only
def fm_takeBackQueue : Nat := fm_setFyl ||| fm_pushSeg ||| fm_dropSeg
theorem State.takeBackQueue_fr {M s0} (s : State) (r u m : Nat) (hM : MaskLe fm_takeBackQueue M) (hs : Fr M s0 s) : Fr M s0 (State.takeBackQueue s r u m) := by
  unfold State.takeBackQueue
  repeat' first
    | (intro x)
    | with_reducible first | assumption | apply State.setFyl_fr | apply State.pushSeg_fr | apply State.dropSeg_fr | apply fr_ite | apply fr_each
    | (extract_lets +onlyGivenNames x; refine fr_cut x ?_ ?_; (on_goal 2 => dsimp only [x]); (on_goal 1 => clear_value x; intro hx))
    | (extract_lets +onlyGivenNames x; fail_if_success (have : State := x); clear_value x)
    | exact MaskLe.trans (by decide +kernel) hM
    | with_reducible apply fr_pair
    | split
    | dsimp -zeta only
def fm_unfail : Nat := mFld FYL_STATUS_failed ||| mFld FYL_STATUS_covered ||| fm_takeBackQueue ||| fm_setCovering ||| fm_setFyl
theorem State.unfail_fr {M s0} (s : State) (m : Nat) (hM : MaskLe fm_unfail M) (hs : Fr M s0 s) : Fr M s0 (State.unfail s m) := by
  unfold State.unfail
  repeat' first
    | (intro x)
    | with_reducible first | assumption | apply State.wrb_fr | apply State.takeBackQueue_fr | apply State.setCovering_fr | apply State.setFyl_fr | apply fr_ite
    | (extract_lets +onlyGivenNames x; refine fr_cut x ?_ ?_; (on_goal 2 => dsimp only [x]); (on_goal 1 => clear_value x; intro hx))
    | (extract_lets +onlyGivenNames x; fail_if_success (have : State := x); clear_value x)
    | exact MaskLe.trans (by decide +kernel) hM
    | with_reducible apply fr_pair
    | split
    | dsimp -zeta only
def fm_restoreLink : Nat := fm_showFyt ||| fm_ev ||| fm_unfail
theorem State.restoreLink_fr {M s0} (s : State) (m : Nat) (hM : MaskLe fm_restoreLink M) (hs : Fr M s0 s) : Fr M s0 (State.restoreLink s m) := by
  unfold State.restoreLink
  repeat' first
    | with_reducible first | assumption | apply State.showFyt_fr | apply State.ev_fr | apply State.unfail_fr | apply fr_ite
    | (extract_lets +onlyGivenNames x; refine fr_cut x ?_ ?_; (on_goal 2 => dsimp only [x]); (on_goal 1 => clear_value x; intro hx))
    | (extract_lets +onlyGivenNames x; fail_if_success (have : State := x); clear_value x)
    | exact MaskLe.trans (by decide +kernel) hM
    | split
    | dsimp -zeta only
def fm_roleChange : Nat := mFld FYL_STATUS_covered ||| mFld FYL_STATUS_failed ||| fm_setCovering ||| fm_setFyl ||| fm_showFyt
theorem State.roleChange_fr {M s0} (s : State) (m oldRole : Nat) (hM : MaskLe fm_roleChange M) (hs : Fr M s0 s) : Fr M s0 (State.roleChange s m oldRole) := by
  unfold State.roleChange
  repeat' first
    | (intro x)
    | with_reducible first | assumption | apply State.setCovering_fr | apply State.wrb_fr | apply State.setFyl_fr | apply State.showFyt_fr | apply fr_ite
    | (extract_lets +onlyGivenNames x; refine fr_cut x ?_ ?_; (on_goal 2 => dsimp only [x]); (on_goal 1 => clear_value x; intro hx))
    | (extract_lets +onlyGivenNames x; fail_if_success (have : State := x); clear_value x)
    | exact MaskLe.trans (by decide +kernel) hM
    | with_reducible apply fr_pair
    | split
    | dsimp -zeta only
def fm_showCredit : Nat := mFld FYL_PEER_LIMIT_limit1 ||| mFld FYL_PEER_LIMIT_limit0 ||| mFld FYL_CREDIT_avail1 ||| mFld FYL_CREDIT_avail0
theorem State.showCredit_fr {M s0} (s : State) (m : Nat) (hM : MaskLe fm_showCredit M) (hs : Fr M s0 s) : Fr M s0 (State.showCredit s m) := by
  unfold State.showCredit
  repeat' first
    | with_reducible first | assumption | apply State.wr_fr
    | (extract_lets +onlyGivenNames x; refine fr_cut x ?_ ?_; (on_goal 2 => dsimp only [x]); (on_goal 1 => clear_value x; intro hx))
    | (extract_lets +onlyGivenNames x; fail_if_success (have : State := x); clear_value x)
    | exact MaskLe.trans (by decide +kernel) hM
    | dsimp -zeta only
def fm_rxFailOf : Nat := 2 ^ 56
theorem State.rxFailOf_fr {M s0} (s : State) (m : Nat) (hM : MaskLe fm_rxFailOf M) (hs : Fr M s0 s) : Fr M s0 (State.rxFailOf s m).2 := by
  unfold State.rxFailOf
  repeat' first
    | (intro x)
    | with_reducible first | assumption | apply fr2_ite
    | (extract_lets +onlyGivenNames x; refine fr_cut x ?_ ?_; (on_goal 2 => dsimp only [x]); (on_goal 1 => clear_value x; intro hx))
    | (extract_lets +onlyGivenNames x; fail_if_success (have : State := x); clear_value x)
    | exact MaskLe.trans (by decide +kernel) hM
    | (with_reducible refine fr_mk_rxFailTurn (MaskLe.trans (by decide +kernel) hM) ?_; first | with_reducible assumption)
    | with_reducible apply fr2_pair
    | split
    | dsimp -zeta only
def fm_setFyTx : Nat := fm_setFyl
theorem State.setFyTx_fr {M s0} (s : State) (m k : Nat) (f : FyTx → FyTx) (hM : MaskLe fm_setFyTx M) (hs : Fr M s0 s) : Fr M s0 (State.setFyTx s m k f) := by
  unfold State.setFyTx
  repeat' first
    | (intro x)
    | with_reducible first | assumption | apply State.setFyl_fr
    | exact MaskLe.trans (by decide +kernel) hM
    | with_reducible apply fr_pair
    | dsimp -zeta only
def fm_setFyRx : Nat := fm_setFyl
theorem State.setFyRx_fr {M s0} (s : State) (m k : Nat) (f : FyRx → FyRx) (hM : MaskLe fm_setFyRx M) (hs : Fr M s0 s) : Fr M s0 (State.setFyRx s m k f) := by
  unfold State.setFyRx
  repeat' first
    | (intro x)
    | with_reducible first | assumption | apply State.setFyl_fr
    | exact MaskLe.trans (by decide +kernel) hM
    | with_reducible apply fr_pair
    | dsimp -zeta only
def fm_fylSend : Nat := fm_genLevels ||| fm_setFyl ||| fm_emit
theorem State.fylSend_fr {M s0} (s : State) (m k : Nat) (own : List Nat) (hM : MaskLe fm_fylSend M) (hs : Fr M s0 s) : Fr M s0 (State.fylSend s m k own) := by
  unfold State.fylSend
  repeat' first
    | (intro x)
    | with_reducible first | assumption | apply State.genLevels_fr | apply State.setFyl_fr | apply State.emit_fr | apply fr_ite
    | (extract_lets +onlyGivenNames x; refine fr_cut x ?_ ?_; (on_goal 2 => dsimp only [x]); (on_goal 1 => clear_value x; intro hx))
    | (extract_lets +onlyGivenNames x; fail_if_success (have : State := x); clear_value x)
    | exact MaskLe.trans (by decide +kernel) hM
    | with_reducible apply fr_pair
    | split
    | dsimp -zeta only
def fm_fylCodeword : Nat := fm_setFyTx ||| fm_fylSend
theorem State.fylCodeword_fr {M s0} (s : State) (m k : Nat) (hM : MaskLe fm_fylCodeword M) (hs : Fr M s0 s) : Fr M s0 (State.fylCodeword s m k) := by
  unfold State.fylCodeword
  repeat' first
    | (intro x)
    | with_reducible first | assumption | apply State.setFyTx_fr | apply State.fylSend_fr | apply fr_ite
    | (extract_lets +onlyGivenNames x; refine fr_cut x ?_ ?_; (on_goal 2 => dsimp only [x]); (on_goal 1 => clear_value x; intro hx))
    | (extract_lets +onlyGivenNames x; fail_if_success (have : State := x); clear_value x)
    | exact MaskLe.trans (by decide +kernel) hM
    | with_reducible apply fr_pair
    | split
    | dsimp -zeta only
def fm_fylBlock : Nat := fm_fylCodeword ||| fm_setFyTx
theorem State.fylBlock_fr {M s0} (s : State) (m k : Nat) (h : Bool) (bytes : List Nat) (hM : MaskLe fm_fylBlock M) (hs : Fr M s0 s) : Fr M s0 (State.fylBlock s m k h bytes) := by
  unfold State.fylBlock
  repeat' first
    | (intro x)
    | with_reducible first | assumption | apply State.fylCodeword_fr | apply State.setFyTx_fr | apply fr_ite
    | (extract_lets +onlyGivenNames x; refine fr_cut x ?_ ?_; (on_goal 2 => dsimp only [x]); (on_goal 1 => clear_value x; intro hx))
    | (extract_lets +onlyGivenNames x; fail_if_success (have : State := x); clear_value x)
    | exact MaskLe.trans (by decide +kernel) hM
    | with_reducible apply fr_pair
    | split
    | dsimp -zeta only
def fm_fylBlocks : Nat := fm_setFyl ||| fm_fylBlock
theorem State.fylBlocks_fr {M s0} (s : State) (m : Nat) (n : Nat) (hM : MaskLe fm_fylBlocks M) (hs : Fr M s0 s) : Fr M s0 (State.fylBlocks s m n) := by
  induction n generalizing s with
  | zero => exact hs
  | succ n ih =>
  unfold State.fylBlocks
  try dsimp -zeta only
  repeat' first
    | (intro x)
    | with_reducible first | assumption | apply State.setFyl_fr | apply State.fylBlock_fr | apply ih | apply fr_ite
    | (extract_lets +onlyGivenNames x; refine fr_cut x ?_ ?_; (on_goal 2 => dsimp only [x]); (on_goal 1 => clear_value x; intro hx))
    | (extract_lets +onlyGivenNames x; fail_if_success (have : State := x); clear_value x)
    | exact MaskLe.trans (by decide +kernel) hM
    | with_reducible apply fr_pair
    | split
    | dsimp -zeta only
def fm_fylStream : Nat := fm_setFyl ||| fm_fylBlocks
theorem State.fylStream_fr {M s0} (s : State) (m : Nat) (g : Seg) (hM : MaskLe fm_fylStream M) (hs : Fr M s0 s) : Fr M s0 (State.fylStream s m g) := by
  unfold State.fylStream
  repeat' first
    | (intro x)
    | with_reducible first | assumption | apply State.setFyl_fr | apply State.fylBlocks_fr
    | (extract_lets +onlyGivenNames x; refine fr_cut x ?_ ?_; (on_goal 2 => dsimp only [x]); (on_goal 1 => clear_value x; intro hx))
    | (extract_lets +onlyGivenNames x; fail_if_success (have : State := x); clear_value x)
    | exact MaskLe.trans (by decide +kernel) hM
    | with_reducible apply fr_pair
    | dsimp -zeta only
def fm_sendSeg : Nat := mFld FYL_TX_SEG ||| fm_rxFailOf ||| fm_setFyl ||| fm_fylStream ||| fm_emit
theorem State.sendSeg_fr {M s0} (s : State) (m : Nat) (g : Seg) (hM : MaskLe fm_sendSeg M) (hs : Fr M s0 s) : Fr M s0 (State.sendSeg s m g).2 := by
  unfold State.sendSeg
  repeat' first
    | (intro x)
    | with_reducible first | assumption | apply State.rxFailOf_fr | apply State.setFyl_fr | apply State.fylStream_fr | apply State.emit_fr | apply State.count_fr | apply fr2_ite
    | (extract_lets +onlyGivenNames x; refine fr_cut x ?_ ?_; (on_goal 2 => dsimp only [x]); (on_goal 1 => clear_value x; intro hx))
    | (extract_lets +onlyGivenNames x; fail_if_success (have : State := x); clear_value x)
    | exact MaskLe.trans (by decide +kernel) hM
    | with_reducible apply fr2_pair
    | split
    | dsimp -zeta only
def fm_sendFlow : Nat := mTab T_TXF_CNT ||| fm_setFyl ||| fm_sendSeg ||| fm_showCredit
theorem State.sendFlow_fr {M s0} (s : State) (m : Nat) (x : Nat × Seg) (hM : MaskLe fm_sendFlow M) (hs : Fr M s0 s) : Fr M s0 (State.sendFlow s m x).2 := by
  unfold State.sendFlow
  repeat' first
    | (intro x)
    | with_reducible first | assumption | apply State.setFyl_fr | apply State.tcount_fr | apply State.sendSeg_fr | apply State.showCredit_fr | apply fr2_ite
    | (extract_lets +onlyGivenNames x; refine fr_cut x ?_ ?_; (on_goal 2 => dsimp only [x]); (on_goal 1 => clear_value x; intro hx))
    | (extract_lets +onlyGivenNames x; fail_if_success (have : State := x); clear_value x)
    | exact MaskLe.trans (by decide +kernel) hM
    | with_reducible apply fr2_pair
    | split
    | dsimp -zeta only
def fm_srcLeg : Nat := fm_setCli ||| fm_setCtx
theorem State.srcLeg_fr {M s0} (s : State) (x : FlowSrc) (hM : MaskLe fm_srcLeg M) (hs : Fr M s0 s) : Fr M s0 (State.srcLeg s x).2 := by
  unfold State.srcLeg
  repeat' first
    | (intro x)
    | with_reducible first | assumption | apply State.setCli_fr | apply State.setCtx_fr
    | (extract_lets +onlyGivenNames x; refine fr_cut x ?_ ?_; (on_goal 2 => dsimp only [x]); (on_goal 1 => clear_value x; intro hx))
    | (extract_lets +onlyGivenNames x; fail_if_success (have : State := x); clear_value x)
    | exact MaskLe.trans (by decide +kernel) hM
    | with_reducible apply fr2_pair
    | split
    | dsimp -zeta only
def fm_srcSnap : Nat := mFld ETH_OFFSET_offset
theorem State.srcSnap_fr {M s0} (s : State) (x : FlowSrc) (leg lineOff : Nat) (hM : MaskLe fm_srcSnap M) (hs : Fr M s0 s) : Fr M s0 (State.srcSnap s x leg lineOff).2 := by
  unfold State.srcSnap
  repeat' first
    | with_reducible first | assumption | apply State.wr_fr | apply fr2_ite
    | (extract_lets +onlyGivenNames x; refine fr_cut x ?_ ?_; (on_goal 2 => dsimp only [x]); (on_goal 1 => clear_value x; intro hx))
    | (extract_lets +onlyGivenNames x; fail_if_success (have : State := x); clear_value x)
    | exact MaskLe.trans (by decide +kernel) hM
    | with_reducible apply fr2_pair
    | split
    | dsimp -zeta only
def fm_countErrBlocks : Nat := mFld ETH_ERR_BLOCKS ||| mTab T_CLI_CNT
theorem State.countErrBlocks_fr {M s0} (s : State) (c : CliRef) (n : Nat) (hM : MaskLe fm_countErrBlocks M) (hs : Fr M s0 s) : Fr M s0 (State.countErrBlocks s c n) := by
  unfold State.countErrBlocks
  repeat' first
    | with_reducible first | assumption | apply State.count_fr | apply State.tcount_fr
    | exact MaskLe.trans (by decide +kernel) hM
    | with_reducible apply fr_pair
    | split
    | dsimp -zeta only
def fm_setTxFlow : Nat := 2 ^ 55
theorem State.setTxFlow_fr {M s0} (s : State) (r i : Nat) (f : TxFlow → TxFlow) (hM : MaskLe fm_setTxFlow M) (hs : Fr M s0 s) : Fr M s0 (State.setTxFlow s r i f) := by
  unfold State.setTxFlow
  repeat' first
    | with_reducible first | assumption
    | exact MaskLe.trans (by decide +kernel) hM
    | (with_reducible refine fr_mk_txFlows (MaskLe.trans (by decide +kernel) hM) ?_; first | with_reducible assumption)
    | dsimp -zeta only
def fm_clientCut : Nat := fm_setCli
theorem State.clientCut_fr {M s0} (s : State) (c : CliRef) (n : Nat) (repl : Bool) (hM : MaskLe fm_clientCut M) (hs : Fr M s0 s) : Fr M s0 (State.clientCut s c n repl).2 := by
  unfold State.clientCut
  repeat' first
    | (intro x)
    | with_reducible first | assumption | apply State.setCli_fr | apply fr2_ite
    | (extract_lets +onlyGivenNames x; refine fr_cut x ?_ ?_; (on_goal 2 => dsimp only [x]); (on_goal 1 => clear_value x; intro hx))
    | (extract_lets +onlyGivenNames x; fail_if_success (have : State := x); clear_value x)
    | exact MaskLe.trans (by decide +kernel) hM
    | with_reducible apply fr2_pair
    | split
    | dsimp -zeta only
def fm_srcBytes : Nat := fm_clientCut ||| fm_judgeFill ||| fm_showLevel ||| fm_countErrBlocks
theorem State.srcBytes_fr {M s0} (s : State) (x : FlowSrc) (n : Nat) (stamped : Bool) (d : SegDone) (hM : MaskLe fm_srcBytes M) (hs : Fr M s0 s) : Fr M s0 (State.srcBytes s x n stamped d).2 := by
  unfold State.srcBytes
  split
  · rename_i c repl _
    have h1 := State.clientCut_fr s c n repl (MaskLe.trans (by decide +kernel) hM) hs
    generalize s.clientCut c n repl = p at h1 ⊢
    obtain ⟨o, s1⟩ := p
    dsimp -zeta only at h1 ⊢
    split
    · exact State.judgeFill_fr _ _ (MaskLe.trans (by decide +kernel) hM) (State.showLevel_fr _ _ (MaskLe.trans (by decide +kernel) hM) (State.countErrBlocks_fr _ _ _ (MaskLe.trans (by decide +kernel) hM) h1))
    · exact h1
  · split <;> exact hs
def fm_cutSeg : Nat := fm_srcLeg ||| fm_srcSnap
theorem State.cutSeg_fr {M s0} (s : State) (r i : Nat) (x : FlowSrc) (d : SegDone) (bs : List Nat) (brk : Bool) (hM : MaskLe fm_cutSeg M) (hs : Fr M s0 s) : Fr M s0 (State.cutSeg s r i x d bs brk).2 := by
  unfold State.cutSeg
  repeat' first
    | with_reducible first | assumption | apply State.srcLeg_fr | apply State.srcSnap_fr | apply fr2_ite
    | (extract_lets +onlyGivenNames x; refine fr_cut x ?_ ?_; (on_goal 2 => dsimp only [x]); (on_goal 1 => clear_value x; intro hx))
    | (extract_lets +onlyGivenNames x; fail_if_success (have : State := x); clear_value x)
    | exact MaskLe.trans (by decide +kernel) hM
    | with_reducible apply fr2_pair
    | split
    | dsimp -zeta only
def fm_cutFlow : Nat := fm_srcBytes ||| fm_cutSeg ||| fm_placeSeg ||| fm_setTxFlow
theorem State.cutFlow_fr {M s0} (s : State) (r i : Nat) (d : SegDone) (hM : MaskLe fm_cutFlow M) (hs : Fr M s0 s) : Fr M s0 (State.cutFlow s r i d) := by
  unfold State.cutFlow
  split
  · rename_i x _ _
    extract_lets stamped n
    refine fr_ite ?_ (fr_when hs (fun s h => State.setTxFlow_fr _ _ _ _ (MaskLe.trans (by decide +kernel) hM) h))
    have h1 := State.srcBytes_fr s x n stamped d (MaskLe.trans (by decide +kernel) hM) hs
    generalize s.srcBytes x n stamped d = p at h1 ⊢
    obtain ⟨o, s1⟩ := p
    dsimp -zeta only at h1 ⊢
    split
    · rename_i bs
      extract_lets brk
      have h2 := State.cutSeg_fr s1 r i x d bs brk (MaskLe.trans (by decide +kernel) hM) h1
      generalize s1.cutSeg r i x d bs brk = p at h2 ⊢
      obtain ⟨g, s2⟩ := p
      exact State.placeSeg_fr _ _ _ _ (MaskLe.trans (by decide +kernel) hM) (State.setTxFlow_fr _ _ _ _ (MaskLe.trans (by decide +kernel) hM) h2)
    · exact h1
  · exact hs
def fm_segmentComplete : Nat := fm_cutFlow
theorem State.segmentComplete_fr {M s0} (s : State) (r i : Nat) (d : SegDone) (hM : MaskLe fm_segmentComplete M) (hs : Fr M s0 s) : Fr M s0 (State.segmentComplete s r i d) := by
  unfold State.segmentComplete
  repeat' first
    | (intro x)
    | with_reducible first | assumption | apply State.cutFlow_fr | apply fr_when
    | exact MaskLe.trans (by decide +kernel) hM
    | with_reducible apply fr_pair
    | dsimp -zeta only
def fm_lastSegments : Nat := fm_segmentComplete
theorem State.lastSegments_fr {M s0} (s : State) (r : Nat) (hM : MaskLe fm_lastSegments M) (hs : Fr M s0 s) : Fr M s0 (State.lastSegments s r) := by
  unfold State.lastSegments
  repeat' first
    | (intro x)
    | with_reducible first | assumption | apply State.segmentComplete_fr | apply fr_ite | apply fr_each
    | exact MaskLe.trans (by decide +kernel) hM
    | with_reducible apply fr_pair
    | split
    | dsimp -zeta only
def fm_placeOff : Nat := fm_dropSeg ||| fm_setFyl
theorem State.placeOff_fr {M s0} (s : State) (r i : Nat) (seg : Seg) (hM : MaskLe fm_placeOff M) (hs : Fr M s0 s) : Fr M s0 (State.placeOff s r i seg) := by
  unfold State.placeOff
  repeat' first
    | (intro x)
    | with_reducible first | assumption | apply State.dropSeg_fr | apply State.setFyl_fr | apply fr_ite
    | (extract_lets +onlyGivenNames x; refine fr_cut x ?_ ?_; (on_goal 2 => dsimp only [x]); (on_goal 1 => clear_value x; intro hx))
    | (extract_lets +onlyGivenNames x; fail_if_success (have : State := x); clear_value x)
    | exact MaskLe.trans (by decide +kernel) hM
    | with_reducible apply fr_pair
    | split
    | dsimp -zeta only
def fm_sendOffline : Nat := fm_placeOff ||| fm_setTxFlow ||| fm_ev
theorem State.sendOffline_fr {M s0} (s : State) (r : Nat) (hM : MaskLe fm_sendOffline M) (hs : Fr M s0 s) : Fr M s0 (State.sendOffline s r) := by
  unfold State.sendOffline
  repeat' first
    | (intro x)
    | with_reducible first | assumption | apply State.placeOff_fr | apply State.setTxFlow_fr | apply State.ev_fr | apply fr_ite | apply fr_each
    | (extract_lets +onlyGivenNames x; refine fr_cut x ?_ ?_; (on_goal 2 => dsimp only [x]); (on_goal 1 => clear_value x; intro hx))
    | (extract_lets +onlyGivenNames x; fail_if_success (have : State := x); clear_value x)
    | exact MaskLe.trans (by decide +kernel) hM
    | with_reducible apply fr_pair
    | split
    | dsimp -zeta only
def fm_txStart : Nat := 2 ^ 55
theorem State.txStart_fr {M s0} (s : State) (r i : Nat) (hM : MaskLe fm_txStart M) (hs : Fr M s0 s) : Fr M s0 (State.txStart s r i) := by
  unfold State.txStart
  repeat' first
    | with_reducible first | assumption
    | exact MaskLe.trans (by decide +kernel) hM
    | (with_reducible refine fr_mk_txFlows (MaskLe.trans (by decide +kernel) hM) ?_; first | with_reducible assumption)
    | dsimp -zeta only
def fm_setRxo : Nat := 2 ^ 47
theorem State.setRxo_fr {M s0} (s : State) (r i : Nat) (f : FlowOut → FlowOut) (hM : MaskLe fm_setRxo M) (hs : Fr M s0 s) : Fr M s0 (State.setRxo s r i f) := by
  unfold State.setRxo
  repeat' first
    | with_reducible first | assumption
    | exact MaskLe.trans (by decide +kernel) hM
    | (with_reducible refine fr_mk_flowOuts (MaskLe.trans (by decide +kernel) hM) ?_; first | with_reducible assumption)
    | dsimp -zeta only
def fm_rxPut : Nat := mTab T_RXF_STATUS
theorem State.rxPut_fr {M s0} (s : State) (r i : Nat) (f : TField) (v : Nat) (hM : MaskLe fm_rxPut M) (hs : Fr M s0 s) : Fr M s0 (State.rxPut s r i f v) := by
  unfold State.rxPut
  repeat' first
    | with_reducible first | assumption | apply State.tput_fr
    | exact MaskLe.trans (by decide +kernel) hM
    | dsimp -zeta only
def fm_rxCount : Nat := mTab T_RXF_CNT
theorem State.rxCount_fr {M s0} (s : State) (r i : Nat) (f : TField) (n : Nat) (hM : MaskLe fm_rxCount M) (hs : Fr M s0 s) : Fr M s0 (State.rxCount s r i f n) := by
  unfold State.rxCount
  repeat' first
    | with_reducible first | assumption | apply State.tcount_fr
    | exact MaskLe.trans (by decide +kernel) hM
    | dsimp -zeta only
def fm_refreshTxLf : Nat := mFld ETH_STATUS_tx_lf ||| mFld ETH_REPL ||| fm_ev
theorem State.refreshTxLf_fr {M s0} (s : State) (n : Nat) (hM : MaskLe fm_refreshTxLf M) (hs : Fr M s0 s) : Fr M s0 (State.refreshTxLf s n) := by
  unfold State.refreshTxLf
  repeat' first
    | with_reducible first | assumption | apply State.ev_fr | apply State.wrb_fr | apply State.count_fr | apply fr_ite
    | (extract_lets +onlyGivenNames x; refine fr_cut x ?_ ?_; (on_goal 2 => dsimp only [x]); (on_goal 1 => clear_value x; intro hx))
    | (extract_lets +onlyGivenNames x; fail_if_success (have : State := x); clear_value x)
    | exact MaskLe.trans (by decide +kernel) hM
    | split
    | dsimp -zeta only
def fm_flowOn : Nat := fm_feed
theorem State.flowOn_fr {M s0} (s : State) (r i : Nat) (g : Seg) (hM : MaskLe fm_flowOn M) (hs : Fr M s0 s) : Fr M s0 (State.flowOn s r i g) := by
  unfold State.flowOn
  repeat' first
    | (intro x)
    | with_reducible first | assumption | apply State.feed_fr | apply fr_each
    | (extract_lets +onlyGivenNames x; refine fr_cut x ?_ ?_; (on_goal 2 => dsimp only [x]); (on_goal 1 => clear_value x; intro hx))
    | (extract_lets +onlyGivenNames x; fail_if_success (have : State := x); clear_value x)
    | exact MaskLe.trans (by decide +kernel) hM
    | with_reducible apply fr_pair
    | dsimp -zeta only
def fm_flowGap : Nat := fm_feedGap
theorem State.flowGap_fr {M s0} (s : State) (r i : Nat) (hM : MaskLe fm_flowGap M) (hs : Fr M s0 s) : Fr M s0 (State.flowGap s r i) := by
  unfold State.flowGap
  repeat' first
    | (intro x)
    | with_reducible first | assumption | apply State.feedGap_fr | apply fr_each
    | (extract_lets +onlyGivenNames x; refine fr_cut x ?_ ?_; (on_goal 2 => dsimp only [x]); (on_goal 1 => clear_value x; intro hx))
    | (extract_lets +onlyGivenNames x; fail_if_success (have : State := x); clear_value x)
    | exact MaskLe.trans (by decide +kernel) hM
    | with_reducible apply fr_pair
    | dsimp -zeta only
def fm_feedWings : Nat := fm_wingsSegment
theorem State.feedWings_fr {M s0} (s : State) (r i typ stamp status snap : Nat) (present : Bool) (payload : List Byte) (u : HbmUse) (hM : MaskLe fm_feedWings M) (hs : Fr M s0 s) : Fr M s0 (State.feedWings s r i typ stamp status snap present payload u) := by
  unfold State.feedWings
  repeat' first
    | (intro x)
    | with_reducible first | assumption | apply State.wingsSegment_fr | apply fr_each
    | exact MaskLe.trans (by decide +kernel) hM
    | with_reducible apply fr_pair
    | split
    | dsimp -zeta only
def fm_releaseLost : Nat := fm_rxCount ||| fm_rxPut ||| fm_ev ||| fm_setRxo ||| fm_flowGap ||| fm_feedWings
theorem State.releaseLost_fr {M s0} (s : State) (r i q : Nat) (f : TField) (hM : MaskLe fm_releaseLost M) (hs : Fr M s0 s) : Fr M s0 (State.releaseLost s r i q f) := by
  unfold State.releaseLost
  repeat' first
    | (intro x)
    | with_reducible first | assumption | apply State.rxCount_fr | apply State.rxPut_fr | apply State.ev_fr | apply State.setRxo_fr | apply State.flowGap_fr | apply State.feedWings_fr | apply fr_ite
    | (extract_lets +onlyGivenNames x; refine fr_cut x ?_ ?_; (on_goal 2 => dsimp only [x]); (on_goal 1 => clear_value x; intro hx))
    | (extract_lets +onlyGivenNames x; fail_if_success (have : State := x); clear_value x)
    | exact MaskLe.trans (by decide +kernel) hM
    | with_reducible apply fr_pair
    | split
    | dsimp -zeta only
def fm_releaseSeg : Nat := fm_rxPut ||| fm_rxCount ||| fm_setRxo ||| fm_feedWings ||| fm_flowOn ||| fm_ev
theorem State.releaseSeg_fr {M s0} (s : State) (r i : Nat) (h : RxHeld) (hM : MaskLe fm_releaseSeg M) (hs : Fr M s0 s) : Fr M s0 (State.releaseSeg s r i h) := by
  unfold State.releaseSeg
  repeat' first
    | (intro x)
    | with_reducible first | assumption | apply State.rxPut_fr | apply State.rxCount_fr | apply State.setRxo_fr | apply State.feedWings_fr | apply State.flowOn_fr | apply State.ev_fr | apply fr_ite | apply fr_when
    | (extract_lets +onlyGivenNames x; refine fr_cut x ?_ ?_; (on_goal 2 => dsimp only [x]); (on_goal 1 => clear_value x; intro hx))
    | (extract_lets +onlyGivenNames x; fail_if_success (have : State := x); clear_value x)
    | exact MaskLe.trans (by decide +kernel) hM
    | with_reducible apply fr_pair
    | split
    | dsimp -zeta only
def fm_releaseNext : Nat := fm_releaseSeg ||| fm_setRxo ||| fm_releaseLost ||| fm_rxPut
theorem State.releaseNext_fr {M s0} (s : State) (r i : Nat) (f : TField) (hM : MaskLe fm_releaseNext M) (hs : Fr M s0 s) : Fr M s0 (State.releaseNext s r i f) := by
  unfold State.releaseNext
  repeat' first
    | (intro x)
    | with_reducible first | assumption | apply State.releaseSeg_fr | apply State.setRxo_fr | apply State.releaseLost_fr | apply State.rxPut_fr
    | (extract_lets +onlyGivenNames x; refine fr_cut x ?_ ?_; (on_goal 2 => dsimp only [x]); (on_goal 1 => clear_value x; intro hx))
    | (extract_lets +onlyGivenNames x; fail_if_success (have : State := x); clear_value x)
    | exact MaskLe.trans (by decide +kernel) hM
    | with_reducible apply fr_pair
    | split
    | dsimp -zeta only
def fm_releaseMany : Nat := fm_releaseNext
theorem State.releaseMany_fr {M s0} (s : State) (r i : Nat) (f : TField) (n : Nat) (hM : MaskLe fm_releaseMany M) (hs : Fr M s0 s) : Fr M s0 (State.releaseMany s r i f n) := by
  induction n generalizing s with
  | zero => exact hs
  | succ n ih =>
  unfold State.releaseMany
  try dsimp -zeta only
  repeat' first
    | with_reducible first | assumption | apply State.releaseNext_fr | apply ih
    | exact MaskLe.trans (by decide +kernel) hM
    | split
    | dsimp -zeta only
def fm_releaseHeld : Nat := fm_releaseNext
theorem State.releaseHeld_fr {M s0} (s : State) (r i : Nat) (n : Nat) (hM : MaskLe fm_releaseHeld M) (hs : Fr M s0 s) : Fr M s0 (State.releaseHeld s r i n) := by
  induction n generalizing s with
  | zero => exact hs
  | succ n ih =>
  unfold State.releaseHeld
  try dsimp -zeta only
  repeat' first
    | with_reducible first | assumption | apply State.releaseNext_fr | apply ih | apply fr_ite
    | exact MaskLe.trans (by decide +kernel) hM
    | split
    | dsimp -zeta only
def fm_showHeld : Nat := fm_rxPut
theorem State.showHeld_fr {M s0} (s : State) (r i : Nat) (hM : MaskLe fm_showHeld M) (hs : Fr M s0 s) : Fr M s0 (State.showHeld s r i) := by
  unfold State.showHeld
  repeat' first
    | with_reducible first | assumption | apply State.rxPut_fr
    | exact MaskLe.trans (by decide +kernel) hM
    | dsimp -zeta only
def fm_enterWindow : Nat := fm_setRxo ||| fm_rxPut ||| fm_rxCount ||| fm_releaseMany ||| fm_showHeld ||| fm_releaseHeld
theorem State.enterWindow_fr {M s0} (s : State) (r i : Nat) (h : RxHeld) (hM : MaskLe fm_enterWindow M) (hs : Fr M s0 s) : Fr M s0 (State.enterWindow s r i h) := by
  unfold State.enterWindow
  repeat' first
    | (intro x)
    | with_reducible first | assumption | apply State.setRxo_fr | apply State.rxPut_fr | apply State.rxCount_fr | apply State.releaseMany_fr | apply State.showHeld_fr | apply State.releaseHeld_fr | apply fr_ite
    | (extract_lets +onlyGivenNames x; refine fr_cut x ?_ ?_; (on_goal 2 => dsimp only [x]); (on_goal 1 => clear_value x; intro hx))
    | (extract_lets +onlyGivenNames x; fail_if_success (have : State := x); clear_value x)
    | exact MaskLe.trans (by decide +kernel) hM
    | with_reducible apply fr_pair
    | split
    | dsimp -zeta only
def fm_reorderTimeout : Nat := fm_showHeld ||| fm_releaseHeld ||| fm_releaseMany
theorem State.reorderTimeout_fr {M s0} (s : State) (r i : Nat) (hM : MaskLe fm_reorderTimeout M) (hs : Fr M s0 s) : Fr M s0 (State.reorderTimeout s r i) := by
  unfold State.reorderTimeout
  dsimp only
  split
  · exact fr_ite (State.showHeld_fr _ _ _ (MaskLe.trans (by decide +kernel) hM) (State.releaseHeld_fr _ _ _ _ (MaskLe.trans (by decide +kernel) hM) (State.releaseMany_fr _ _ _ _ _ (MaskLe.trans (by decide +kernel) hM) hs))) hs
  · exact hs
def fm_flowAbsent : Nat := fm_ev ||| fm_showHeld ||| fm_setRxo ||| fm_rxPut
theorem State.flowAbsent_fr {M s0} (s : State) (r i : Nat) (hM : MaskLe fm_flowAbsent M) (hs : Fr M s0 s) : Fr M s0 (State.flowAbsent s r i) := by
  unfold State.flowAbsent
  repeat' first
    | (intro x)
    | with_reducible first | assumption | apply State.ev_fr | apply State.showHeld_fr | apply State.setRxo_fr | apply State.rxPut_fr | apply fr_ite
    | exact MaskLe.trans (by decide +kernel) hM
    | with_reducible apply fr_pair
    | split
    | dsimp -zeta only
def fm_rxStart : Nat := mTab T_RXF_STATUS ||| 2 ^ 47
theorem State.rxStart_fr {M s0} (s : State) (r i : Nat) (hM : MaskLe fm_rxStart M) (hs : Fr M s0 s) : Fr M s0 (State.rxStart s r i) := by
  unfold State.rxStart
  repeat' first
    | with_reducible first | assumption | apply State.setEntry_fr
    | exact MaskLe.trans (by decide +kernel) hM
    | (with_reducible refine fr_mk_flowOuts (MaskLe.trans (by decide +kernel) hM) ?_; first | with_reducible assumption | with_reducible apply State.setEntry_fr)
    | dsimp -zeta only
def fm_freeUnits : Nat := fm_setFyl
theorem State.freeUnits_fr {M s0} (s : State) (m cls typ : Nat) (hM : MaskLe fm_freeUnits M) (hs : Fr M s0 s) : Fr M s0 (State.freeUnits s m cls typ) := by
  unfold State.freeUnits
  repeat' first
    | (intro x)
    | with_reducible first | assumption | apply State.setFyl_fr | apply fr_ite
    | exact MaskLe.trans (by decide +kernel) hM
    | with_reducible apply fr_pair
    | split
    | dsimp -zeta only
def fm_takeSegment : Nat := mFld FYL_TYPE_ERR ||| mFld FYR_LAST_UNKNOWN_flow ||| mFld FYR_LAST_UNKNOWN_link ||| mFld FYR_UNKNOWN_count ||| fm_freeUnits ||| fm_ev ||| fm_rxCount ||| fm_enterWindow
theorem State.takeSegment_fr {M s0} (s : State) (m : Nat) (x : SegRx) (hM : MaskLe fm_takeSegment M) (hs : Fr M s0 s) : Fr M s0 (State.takeSegment s m x) := by
  unfold State.takeSegment
  repeat' first
    | with_reducible first | assumption | apply State.freeUnits_fr | apply State.count_fr | apply State.ev_fr | apply State.wr_fr | apply State.rxCount_fr | apply State.enterWindow_fr | apply fr_ite
    | (extract_lets +onlyGivenNames x; refine fr_cut x ?_ ?_; (on_goal 2 => dsimp only [x]); (on_goal 1 => clear_value x; intro hx))
    | (extract_lets +onlyGivenNames x; fail_if_success (have : State := x); clear_value x)
    | exact MaskLe.trans (by decide +kernel) hM
    | split
    | dsimp -zeta only
def fm_judgeId : Nat := mFld FYL_STATUS_id_mismatch ||| fm_evWhen
theorem State.judgeId_fr {M s0} (s : State) (m id : Nat) (hM : MaskLe fm_judgeId M) (hs : Fr M s0 s) : Fr M s0 (State.judgeId s m id) := by
  unfold State.judgeId
  repeat' first
    | with_reducible first | assumption | apply State.evWhen_fr | apply State.wrb_fr
    | (extract_lets +onlyGivenNames x; refine fr_cut x ?_ ?_; (on_goal 2 => dsimp only [x]); (on_goal 1 => clear_value x; intro hx))
    | (extract_lets +onlyGivenNames x; fail_if_success (have : State := x); clear_value x)
    | exact MaskLe.trans (by decide +kernel) hM
    | with_reducible apply fr_pair
    | split
    | dsimp -zeta only
def fm_peerState : Nat := mFld FYL_STATUS_peer_lstate ||| fm_failLink
theorem State.peerState_fr {M s0} (s : State) (m lstate : Nat) (hM : MaskLe fm_peerState M) (hs : Fr M s0 s) : Fr M s0 (State.peerState s m lstate) := by
  unfold State.peerState
  repeat' first
    | with_reducible first | assumption | apply State.wr_fr | apply State.failLink_fr | apply fr_ite
    | (extract_lets +onlyGivenNames x; refine fr_cut x ?_ ?_; (on_goal 2 => dsimp only [x]); (on_goal 1 => clear_value x; intro hx))
    | (extract_lets +onlyGivenNames x; fail_if_success (have : State := x); clear_value x)
    | exact MaskLe.trans (by decide +kernel) hM
    | split
    | dsimp -zeta only
def fm_peerReport : Nat := mFld FYL_STATUS_peer_fail ||| fm_failLink ||| fm_evWhen
theorem State.peerReport_fr {M s0} (s : State) (m rf : Nat) (hM : MaskLe fm_peerReport M) (hs : Fr M s0 s) : Fr M s0 (State.peerReport s m rf) := by
  unfold State.peerReport
  repeat' first
    | (intro x)
    | with_reducible first | assumption | apply State.failLink_fr | apply State.evWhen_fr | apply State.wrb_fr | apply fr_ite | apply fr_each
    | (extract_lets +onlyGivenNames x; refine fr_cut x ?_ ?_; (on_goal 2 => dsimp only [x]); (on_goal 1 => clear_value x; intro hx))
    | (extract_lets +onlyGivenNames x; fail_if_success (have : State := x); clear_value x)
    | exact MaskLe.trans (by decide +kernel) hM
    | with_reducible apply fr_pair
    | split
    | dsimp -zeta only
def fm_takeIdle : Nat := mFld FYL_STATUS_credits_valid ||| fm_setFyl ||| fm_judgeId
theorem State.takeIdle_fr {M s0} (s : State) (m : Nat) (p : List Byte) (hM : MaskLe fm_takeIdle M) (hs : Fr M s0 s) : Fr M s0 (State.takeIdle s m p) := by
  unfold State.takeIdle
  repeat' first
    | (intro x)
    | with_reducible first | assumption | apply State.setFyl_fr | apply State.judgeId_fr | apply State.wrb_fr
    | (extract_lets +onlyGivenNames x; refine fr_cut x ?_ ?_; (on_goal 2 => dsimp only [x]); (on_goal 1 => clear_value x; intro hx))
    | (extract_lets +onlyGivenNames x; fail_if_success (have : State := x); clear_value x)
    | exact MaskLe.trans (by decide +kernel) hM
    | with_reducible apply fr_pair
    | dsimp -zeta only
def fm_segmentReceive : Nat := mFld FYL_HUNT ||| mFld FYL_HDR_CRC ||| mFld FYL_STATUS_sync ||| mFld FYL_RX_SEG ||| fm_ev ||| fm_setFyl ||| fm_takeIdle ||| fm_freeUnits ||| fm_takeSegment ||| fm_showCredit ||| fm_peerReport ||| fm_peerState
theorem State.segmentReceive_fr {M s0} (s : State) (m : Nat) (x : SegRx) (hM : MaskLe fm_segmentReceive M) (hs : Fr M s0 s) : Fr M s0 (State.segmentReceive s m x) := by
  unfold State.segmentReceive
  repeat' first
    | (intro x)
    | with_reducible first | assumption | apply State.ev_fr | apply State.count_fr | apply State.wrb_fr | apply State.setFyl_fr | apply State.takeIdle_fr | apply State.freeUnits_fr | apply State.takeSegment_fr | apply State.showCredit_fr | apply State.peerReport_fr | apply State.peerState_fr | apply fr_ite
    | (extract_lets +onlyGivenNames x; refine fr_cut x ?_ ?_; (on_goal 2 => dsimp only [x]); (on_goal 1 => clear_value x; intro hx))
    | (extract_lets +onlyGivenNames x; fail_if_success (have : State := x); clear_value x)
    | exact MaskLe.trans (by decide +kernel) hM
    | with_reducible apply fr_pair
    | split
    | dsimp -zeta only
def fm_creditAhead : Nat := fm_setFyl
theorem State.creditAhead_fr {M s0} (s : State) (m : Nat) (hM : MaskLe fm_creditAhead M) (hs : Fr M s0 s) : Fr M s0 (State.creditAhead s m) := by
  unfold State.creditAhead
  repeat' first
    | (intro x)
    | with_reducible first | assumption | apply State.setFyl_fr | apply fr_ite | apply fr_each
    | exact MaskLe.trans (by decide +kernel) hM
    | with_reducible apply fr_pair
    | split
    | dsimp -zeta only
def fm_segmentSlot : Nat := fm_creditAhead ||| fm_sendFlow ||| fm_sendSeg ||| fm_free ||| fm_segmentReceive
theorem State.segmentSlot_fr {M s0} (s : State) (m : Nat) (hM : MaskLe fm_segmentSlot M) (hs : Fr M s0 s) : Fr M s0 (State.segmentSlot s m) := by
  unfold State.segmentSlot
  repeat' first
    | with_reducible first | assumption | apply State.creditAhead_fr | apply State.sendFlow_fr | apply State.sendSeg_fr | apply State.free_fr | apply State.segmentReceive_fr | apply fr_ite
    | (extract_lets +onlyGivenNames x; refine fr_cut x ?_ ?_; (on_goal 2 => dsimp only [x]); (on_goal 1 => clear_value x; intro hx))
    | (extract_lets +onlyGivenNames x; fail_if_success (have : State := x); clear_value x)
    | exact MaskLe.trans (by decide +kernel) hM
    | with_reducible apply fr_pair
    | split
    | dsimp -zeta only
def fm_applyFyTap : Nat := mFld FYL_STATUS_fir_refused ||| fm_setFyl
theorem State.applyFyTap_fr {M s0} (s : State) (m k : Nat) (hM : MaskLe fm_applyFyTap M) (hs : Fr M s0 s) : Fr M s0 (State.applyFyTap s m k) := by
  unfold State.applyFyTap
  repeat' first
    | (intro x)
    | with_reducible first | assumption | apply State.wrb_fr | apply State.setFyl_fr | apply fr_ite
    | (extract_lets +onlyGivenNames x; refine fr_cut x ?_ ?_; (on_goal 2 => dsimp only [x]); (on_goal 1 => clear_value x; intro hx))
    | (extract_lets +onlyGivenNames x; fail_if_success (have : State := x); clear_value x)
    | exact MaskLe.trans (by decide +kernel) hM
    | with_reducible apply fr_pair
    | split
    | dsimp -zeta only
def fm_writeFyTap : Nat := mAll_FYL_TX_EQ_c_m1 ||| mAll_FYL_TX_EQ_c_p1 ||| mAll_FYL_TX_EQ_swing ||| mAll_FYL_TX_EQ_tx_inv ||| fm_applyFyTap
theorem State.writeFyTap_fr {M s0} (s : State) (m k v : Nat) (hM : MaskLe fm_writeFyTap M) (hs : Fr M s0 s) : Fr M s0 (State.writeFyTap s m k v) := by
  unfold State.writeFyTap
  extract_lets pg
  exact State.applyFyTap_fr _ _ _ (MaskLe.trans (by decide +kernel) hM) (State.wr_fr _ _ (FYL_TX_EQ_c_m1 k) _ (MaskLe.trans (FYL_TX_EQ_c_m1_mem k) (MaskLe.trans (by decide +kernel) hM))
    (State.wr_fr _ _ (FYL_TX_EQ_c_p1 k) _ (MaskLe.trans (FYL_TX_EQ_c_p1_mem k) (MaskLe.trans (by decide +kernel) hM))
    (State.wr_fr _ _ (FYL_TX_EQ_swing k) _ (MaskLe.trans (FYL_TX_EQ_swing_mem k) (MaskLe.trans (by decide +kernel) hM))
    (State.wr_fr _ _ (FYL_TX_EQ_tx_inv k) _ (MaskLe.trans (FYL_TX_EQ_tx_inv_mem k) (MaskLe.trans (by decide +kernel) hM)) hs))))
theorem State.laneBit_fr {M s0} (s : State) (m : Nat) (f : Field) (k : Nat) (b : Bool) (hf_f : MaskLe (mFld f) M) (hs : Fr M s0 s) : Fr M s0 (State.laneBit s m f k b) := by
  unfold State.laneBit
  repeat' first
    | with_reducible first | assumption | apply State.wr_fr | apply fr_ite
    | (extract_lets +onlyGivenNames x; refine fr_cut x ?_ ?_; (on_goal 2 => dsimp only [x]); (on_goal 1 => clear_value x; intro hx))
    | (extract_lets +onlyGivenNames x; fail_if_success (have : State := x); clear_value x)
    | split
    | dsimp -zeta only
def fm_fylFront : Nat := fm_free ||| fm_setFyRx
theorem State.fylFront_fr {M s0} (s : State) (m k : Nat) (hM : MaskLe fm_fylFront M) (hs : Fr M s0 s) : Fr M s0 (State.fylFront s m k) := by
  unfold State.fylFront
  repeat' first
    | (intro x)
    | with_reducible first | assumption | apply State.free_fr | apply State.setFyRx_fr
    | (extract_lets +onlyGivenNames x; refine fr_cut x ?_ ?_; (on_goal 2 => dsimp only [x]); (on_goal 1 => clear_value x; intro hx))
    | (extract_lets +onlyGivenNames x; fail_if_success (have : State := x); clear_value x)
    | exact MaskLe.trans (by decide +kernel) hM
    | with_reducible apply fr_pair
    | split
    | dsimp -zeta only
def fm_fylTrain : Nat := fm_free ||| fm_fylFront ||| fm_setFyRx
theorem State.fylTrain_fr {M s0} (s : State) (m k : Nat) (hM : MaskLe fm_fylTrain M) (hs : Fr M s0 s) : Fr M s0 (State.fylTrain s m k) := by
  unfold State.fylTrain
  repeat' first
    | (intro x)
    | with_reducible first | assumption | apply State.free_fr | apply State.fylFront_fr | apply State.setFyRx_fr
    | (extract_lets +onlyGivenNames x; refine fr_cut x ?_ ?_; (on_goal 2 => dsimp only [x]); (on_goal 1 => clear_value x; intro hx))
    | (extract_lets +onlyGivenNames x; fail_if_success (have : State := x); clear_value x)
    | exact MaskLe.trans (by decide +kernel) hM
    | with_reducible apply fr_pair
    | split
    | dsimp -zeta only
def fm_fylAdaptDone : Nat := fm_setFyl ||| fm_fylTrain
theorem State.fylAdaptDone_fr {M s0} (s : State) (m : Nat) (hM : MaskLe fm_fylAdaptDone M) (hs : Fr M s0 s) : Fr M s0 (State.fylAdaptDone s m) := by
  unfold State.fylAdaptDone
  repeat' first
    | (intro x)
    | with_reducible first | assumption | apply State.setFyl_fr | apply State.fylTrain_fr | apply fr_ite | apply fr_each
    | exact MaskLe.trans (by decide +kernel) hM
    | with_reducible apply fr_pair
    | split
    | dsimp -zeta only
def fm_fybryLos : Nat := mFld FYL_STATUS_sig_det ||| fm_failLink ||| fm_ev
theorem State.fybryLos_fr {M s0} (s : State) (m k : Nat) (hM : MaskLe fm_fybryLos M) (hs : Fr M s0 s) : Fr M s0 (State.fybryLos s m k) := by
  unfold State.fybryLos
  repeat' first
    | with_reducible first | assumption | apply State.failLink_fr | apply State.ev_fr | apply State.laneBit_fr | apply fr_ite
    | exact MaskLe.trans (by decide +kernel) hM
    | split
    | dsimp -zeta only
def fm_fybrySignal : Nat := mFld FYL_STATUS_sig_det
theorem State.fybrySignal_fr {M s0} (s : State) (m k : Nat) (hM : MaskLe fm_fybrySignal M) (hs : Fr M s0 s) : Fr M s0 (State.fybrySignal s m k) := by
  unfold State.fybrySignal
  repeat' first
    | with_reducible first | assumption | apply State.laneBit_fr | apply fr_ite
    | exact MaskLe.trans (by decide +kernel) hM
    | split
    | dsimp -zeta only
def fm_unalign : Nat := mFld FYL_SKEW_valid ||| mFld FYL_STATUS_sync ||| mFld FYL_STATUS_aligned ||| fm_ev ||| fm_setFyl
theorem State.unalign_fr {M s0} (s : State) (m : Nat) (hM : MaskLe fm_unalign M) (hs : Fr M s0 s) : Fr M s0 (State.unalign s m) := by
  unfold State.unalign
  repeat' first
    | (intro x)
    | with_reducible first | assumption | apply State.ev_fr | apply State.setFyl_fr | apply State.wrb_fr | apply fr_ite
    | (extract_lets +onlyGivenNames x; refine fr_cut x ?_ ?_; (on_goal 2 => dsimp only [x]); (on_goal 1 => clear_value x; intro hx))
    | (extract_lets +onlyGivenNames x; fail_if_success (have : State := x); clear_value x)
    | exact MaskLe.trans (by decide +kernel) hM
    | with_reducible apply fr_pair
    | split
    | dsimp -zeta only
def fm_judgeAlign : Nat := mFld FYL_SKEW_valid ||| mFld FYL_SKEW_skew ||| mFld FYL_STATUS_credits_valid ||| mFld FYL_STATUS_sync ||| mFld FYL_STATUS_aligned ||| fm_failLink ||| fm_ev ||| fm_unalign ||| fm_showCredit ||| fm_setFyl
theorem State.judgeAlign_fr {M s0} (s : State) (m : Nat) (hM : MaskLe fm_judgeAlign M) (hs : Fr M s0 s) : Fr M s0 (State.judgeAlign s m) := by
  unfold State.judgeAlign
  repeat' first
    | (intro x)
    | with_reducible first | assumption | apply State.failLink_fr | apply State.ev_fr | apply State.unalign_fr | apply State.wrb_fr | apply State.wr_fr | apply State.showCredit_fr | apply State.setFyl_fr | apply fr_ite | apply fr_foldl | apply fr_foldl2 | apply fr_foldl1
    | (extract_lets +onlyGivenNames x; refine fr_cut x ?_ ?_; (on_goal 2 => dsimp only [x]); (on_goal 1 => clear_value x; intro hx))
    | (extract_lets +onlyGivenNames x; fail_if_success (have : State := x); clear_value x)
    | exact MaskLe.trans (by decide +kernel) hM
    | with_reducible apply fr_pair
    | split
    | dsimp -zeta only
def fm_markerLock : Nat := mFld FYL_STATUS_lane_lock ||| fm_setFyl ||| fm_setFyRx ||| fm_peerState ||| fm_judgeAlign ||| fm_judgeId
theorem State.markerLock_fr {M s0} (s : State) (m k : Nat) (x : Marker) (hM : MaskLe fm_markerLock M) (hs : Fr M s0 s) : Fr M s0 (State.markerLock s m k x) := by
  unfold State.markerLock
  repeat' first
    | (intro x)
    | with_reducible first | assumption | apply State.setFyl_fr | apply State.laneBit_fr | apply State.setFyRx_fr | apply State.peerState_fr | apply State.judgeAlign_fr | apply State.judgeId_fr | apply fr_ite
    | (extract_lets +onlyGivenNames x; refine fr_cut x ?_ ?_; (on_goal 2 => dsimp only [x]); (on_goal 1 => clear_value x; intro hx))
    | (extract_lets +onlyGivenNames x; fail_if_success (have : State := x); clear_value x)
    | exact MaskLe.trans (by decide +kernel) hM
    | with_reducible apply fr_pair
    | split
    | dsimp -zeta only
def fm_markerLost : Nat := mFld FYL_STATUS_lane_lock ||| fm_failLink ||| fm_unalign ||| fm_setFyl
theorem State.markerLost_fr {M s0} (s : State) (m k : Nat) (hM : MaskLe fm_markerLost M) (hs : Fr M s0 s) : Fr M s0 (State.markerLost s m k) := by
  unfold State.markerLost
  repeat' first
    | (intro x)
    | with_reducible first | assumption | apply State.failLink_fr | apply State.unalign_fr | apply State.setFyl_fr | apply State.laneBit_fr | apply fr_ite
    | exact MaskLe.trans (by decide +kernel) hM
    | with_reducible apply fr_pair
    | split
    | dsimp -zeta only
def fm_fyPass : Nat := fm_fylFront ||| fm_setFyRx
theorem State.fyPass_fr {M s0} (s : State) (m k : Nat) (word : List Nat) (bad : Bool) (hM : MaskLe fm_fyPass M) (hs : Fr M s0 s) : Fr M s0 (State.fyPass s m k word bad) := by
  unfold State.fyPass
  repeat' first
    | (intro x)
    | with_reducible first | assumption | apply State.fylFront_fr | apply State.setFyRx_fr | apply fr_ite
    | (extract_lets +onlyGivenNames x; refine fr_cut x ?_ ?_; (on_goal 2 => dsimp only [x]); (on_goal 1 => clear_value x; intro hx))
    | (extract_lets +onlyGivenNames x; fail_if_success (have : State := x); clear_value x)
    | exact MaskLe.trans (by decide +kernel) hM
    | with_reducible apply fr_pair
    | split
    | dsimp -zeta only
def fm_fybryCodeword : Nat := mFld FYL_CW ||| mFld FYL_UNCORR_CW ||| mFld FYL_CORR_SYM ||| fm_emit ||| fm_fyPass ||| fm_setFyl ||| fm_failLink
theorem State.fybryCodeword_fr {M s0} (s : State) (m k : Nat) (levels : List Nat) (hM : MaskLe fm_fybryCodeword M) (hs : Fr M s0 s) : Fr M s0 (State.fybryCodeword s m k levels) := by
  unfold State.fybryCodeword
  repeat' first
    | (intro x)
    | with_reducible first | assumption | apply State.emit_fr | apply State.fyPass_fr | apply State.count_fr | apply State.setFyl_fr | apply State.failLink_fr | apply fr_ite
    | (extract_lets +onlyGivenNames x; refine fr_cut x ?_ ?_; (on_goal 2 => dsimp only [x]); (on_goal 1 => clear_value x; intro hx))
    | (extract_lets +onlyGivenNames x; fail_if_success (have : State := x); clear_value x)
    | exact MaskLe.trans (by decide +kernel) hM
    | with_reducible apply fr_pair
    | split
    | dsimp -zeta only
def fm_linkFail : Nat := fm_failLink
theorem State.linkFail_fr {M s0} (s : State) (m : Nat) (c : FailCause) (hM : MaskLe fm_linkFail M) (hs : Fr M s0 s) : Fr M s0 (State.linkFail s m c) := by
  unfold State.linkFail
  repeat' first
    | with_reducible first | assumption | apply State.failLink_fr | apply fr_ite
    | (extract_lets +onlyGivenNames x; refine fr_cut x ?_ ?_; (on_goal 2 => dsimp only [x]); (on_goal 1 => clear_value x; intro hx))
    | (extract_lets +onlyGivenNames x; fail_if_success (have : State := x); clear_value x)
    | exact MaskLe.trans (by decide +kernel) hM
    | with_reducible apply fr_pair
    | split
    | dsimp -zeta only
def fm_failClock : Nat := fm_failLink
theorem State.failClock_fr {M s0} (s : State) (g : Nat) (hM : MaskLe fm_failClock M) (hs : Fr M s0 s) : Fr M s0 (State.failClock s g) := by
  unfold State.failClock
  repeat' first
    | (intro x)
    | with_reducible first | assumption | apply State.failLink_fr | apply fr_each
    | exact MaskLe.trans (by decide +kernel) hM
    | dsimp -zeta only
def fm_fylRunChange : Nat := mFld FYL_STATUS_sig_det ||| mFld FYL_STATUS_lane_lock ||| fm_unalign ||| fm_setFyl ||| fm_failLink
theorem State.fylRunChange_fr {M s0} (s : State) (m : Nat) (on : Bool) (hM : MaskLe fm_fylRunChange M) (hs : Fr M s0 s) : Fr M s0 (State.fylRunChange s m on) := by
  unfold State.fylRunChange
  repeat' first
    | (intro x)
    | with_reducible first | assumption | apply State.wr_fr | apply State.unalign_fr | apply State.setFyl_fr | apply State.failLink_fr | apply fr_ite
    | (extract_lets +onlyGivenNames x; refine fr_cut x ?_ ?_; (on_goal 2 => dsimp only [x]); (on_goal 1 => clear_value x; intro hx))
    | (extract_lets +onlyGivenNames x; fail_if_success (have : State := x); clear_value x)
    | exact MaskLe.trans (by decide +kernel) hM
    | with_reducible apply fr_pair
    | split
    | dsimp -zeta only
def fm_applyFylTest : Nat := mFld FYL_STATUS_test_refused ||| fm_setFyl ||| fm_setPrbs ||| fm_showFyt
theorem State.applyFylTest_fr {M s0} (s : State) (m : Nat) (hM : MaskLe fm_applyFylTest M) (hs : Fr M s0 s) : Fr M s0 (State.applyFylTest s m) := by
  unfold State.applyFylTest
  repeat' first
    | (intro x)
    | with_reducible first | assumption | apply State.setFyl_fr | apply State.setPrbs_fr | apply State.showFyt_fr | apply State.wrb_fr | apply fr_ite | apply fr_each
    | (extract_lets +onlyGivenNames x; refine fr_cut x ?_ ?_; (on_goal 2 => dsimp only [x]); (on_goal 1 => clear_value x; intro hx))
    | (extract_lets +onlyGivenNames x; fail_if_success (have : State := x); clear_value x)
    | exact MaskLe.trans (by decide +kernel) hM
    | with_reducible apply fr_pair
    | split
    | dsimp -zeta only
def fm_applyFylTests : Nat := fm_applyFylTest
theorem State.applyFylTests_fr {M s0} (s : State) (hM : MaskLe fm_applyFylTests M) (hs : Fr M s0 s) : Fr M s0 (State.applyFylTests s) := by
  unfold State.applyFylTests
  repeat' first
    | (intro x)
    | with_reducible first | assumption | apply State.applyFylTest_fr | apply fr_each
    | exact MaskLe.trans (by decide +kernel) hM
    | dsimp -zeta only
def fm_writeFylTest : Nat := mFld FYL_TEST_pattern ||| mFld FYL_TEST_gen_en ||| mFld FYL_TEST_chk_en ||| mFld FYL_TEST_lb ||| mFld FYL_TEST_lanes ||| mAll_FYL_PRBS_ERR ||| fm_applyFylTest ||| fm_genLevels ||| fm_emit ||| fm_setFyl
theorem State.writeFylTest_fr {M s0} (s : State) (m v : Nat) (hM : MaskLe fm_writeFylTest M) (hs : Fr M s0 s) : Fr M s0 (State.writeFylTest s m v) := by
  unfold State.writeFylTest
  repeat' first
    | (intro x)
    | with_reducible first | assumption | apply State.wr_fr | apply State.applyFylTest_fr | apply State.genLevels_fr | apply State.emit_fr | apply State.setFyl_fr | apply fr_ite | apply fr_each
    | (extract_lets +onlyGivenNames x; refine fr_cut x ?_ ?_; (on_goal 2 => dsimp only [x]); (on_goal 1 => clear_value x; intro hx))
    | (extract_lets +onlyGivenNames x; fail_if_success (have : State := x); clear_value x)
    | exact MaskLe.trans (by decide +kernel) hM
    | (with_reducible refine MaskLe.trans (FYL_PRBS_ERR_mem _) ?_; exact MaskLe.trans (by decide +kernel) hM)
    | with_reducible apply fr_pair
    | split
    | dsimp -zeta only
def fm_fybryPrbs : Nat := mAll_FYL_PRBS_ERR ||| fm_setPrbs ||| fm_setFyl ||| fm_evWhen
theorem State.fybryPrbs_fr {M s0} (s : State) (m k : Nat) (levels : List Nat) (hM : MaskLe fm_fybryPrbs M) (hs : Fr M s0 s) : Fr M s0 (State.fybryPrbs s m k levels) := by
  unfold State.fybryPrbs
  repeat' first
    | (intro x)
    | with_reducible first | assumption | apply State.setPrbs_fr | apply State.setFyl_fr | apply State.evWhen_fr | apply State.count_fr | apply fr_ite
    | (extract_lets +onlyGivenNames x; refine fr_cut x ?_ ?_; (on_goal 2 => dsimp only [x]); (on_goal 1 => clear_value x; intro hx))
    | (extract_lets +onlyGivenNames x; fail_if_success (have : State := x); clear_value x)
    | exact MaskLe.trans (by decide +kernel) hM
    | (with_reducible refine MaskLe.trans (FYL_PRBS_ERR_mem _) ?_; exact MaskLe.trans (by decide +kernel) hM)
    | with_reducible apply fr_pair
    | split
    | dsimp -zeta only

end Sys2Proof.Machine
end

