-- ==== Sys2Proof/Laws/FrameMgmt.lean ====
section
/-! SUPPORT. What each operation of Ohq, Sdp, Cbb, Tim, Own may change: one law per operation, by the masks of Laws/State.lean. -/

namespace Sys2Proof.Machine

open Sys2Proof

set_option Elab.async false
set_option linter.all false

/-- What a wake acknowledgement clears. -/
def mWake : Nat := [CBB_WAKE_CAUSE_filter, CBB_WAKE_CAUSE_partner_lost, CBB_WAKE_CAUSE_cbb_wake, CBB_WAKE_CAUSE_filter_match, CBB_WAKE_CAUSE_wake_out,
  SDP_WAKE_STATUS_dark_rx, SDP_WAKE_STATUS_matched].foldl (fun a f => a ||| mFld f) 0

def fm_setCap : Nat := 2 ^ 59
theorem State.setCap_fr {M s0} (s : State) (r i : Nat) (f : CapQ → CapQ) (hM : MaskLe fm_setCap M) (hs : Fr M s0 s) : Fr M s0 (State.setCap s r i f) := by
  unfold State.setCap
  repeat' first
    | with_reducible first | assumption
    | exact MaskLe.trans (by decide +kernel) hM
    | (with_reducible refine fr_mk_caps (MaskLe.trans (by decide +kernel) hM) ?_; first | with_reducible assumption)
    | dsimp -zeta only
def fm_setIns : Nat := 2 ^ 60
theorem State.setIns_fr {M s0} (s : State) (r i : Nat) (f : InsQ → InsQ) (hM : MaskLe fm_setIns M) (hs : Fr M s0 s) : Fr M s0 (State.setIns s r i f) := by
  unfold State.setIns
  repeat' first
    | with_reducible first | assumption
    | exact MaskLe.trans (by decide +kernel) hM
    | (with_reducible refine fr_mk_inss (MaskLe.trans (by decide +kernel) hM) ?_; first | with_reducible assumption)
    | dsimp -zeta only
def fm_capCount : Nat := mTab T_CAP_CNT
theorem State.capCount_fr {M s0} (s : State) (r i : Nat) (f : TField) (n : Nat) (hM : MaskLe fm_capCount M) (hs : Fr M s0 s) : Fr M s0 (State.capCount s r i f n) := by
  unfold State.capCount
  repeat' first
    | with_reducible first | assumption | apply State.tcount_fr
    | exact MaskLe.trans (by decide +kernel) hM
    | dsimp -zeta only
def fm_insCount : Nat := mTab T_INS_CNT
theorem State.insCount_fr {M s0} (s : State) (r i : Nat) (f : TField) (n : Nat) (hM : MaskLe fm_insCount M) (hs : Fr M s0 s) : Fr M s0 (State.insCount s r i f n) := by
  unfold State.insCount
  repeat' first
    | with_reducible first | assumption | apply State.tcount_fr
    | exact MaskLe.trans (by decide +kernel) hM
    | dsimp -zeta only
def fm_showCap : Nat := mTab T_CAP_STATUS ||| mAll_OHQ_READY_ready
theorem State.showCap_fr {M s0} (s : State) (r i : Nat) (hM : MaskLe fm_showCap M) (hs : Fr M s0 s) : Fr M s0 (State.showCap s r i) := by
  unfold State.showCap
  repeat' first
    | with_reducible first | assumption | apply State.setEntry_fr | apply State.wr_fr | apply fr_ite
    | (extract_lets +onlyGivenNames x; refine fr_cut x ?_ ?_; (on_goal 2 => dsimp only [x]); (on_goal 1 => clear_value x; intro hx))
    | (extract_lets +onlyGivenNames x; fail_if_success (have : State := x); clear_value x)
    | exact MaskLe.trans (by decide +kernel) hM
    | (with_reducible refine MaskLe.trans (OHQ_READY_ready_mem _) ?_; exact MaskLe.trans (by decide +kernel) hM)
    | split
    | dsimp -zeta only
def fm_showIns : Nat := mTab T_INS_STATUS
theorem State.showIns_fr {M s0} (s : State) (r i : Nat) (hM : MaskLe fm_showIns M) (hs : Fr M s0 s) : Fr M s0 (State.showIns s r i) := by
  unfold State.showIns
  repeat' first
    | with_reducible first | assumption | apply State.setEntry_fr
    | (extract_lets +onlyGivenNames x; refine fr_cut x ?_ ?_; (on_goal 2 => dsimp only [x]); (on_goal 1 => clear_value x; intro hx))
    | (extract_lets +onlyGivenNames x; fail_if_success (have : State := x); clear_value x)
    | exact MaskLe.trans (by decide +kernel) hM
    | dsimp -zeta only
def fm_ohqLost : Nat := mFld OHQ_LOST ||| fm_ev
theorem State.ohqLost_fr {M s0} (s : State) (r : Nat) (hM : MaskLe fm_ohqLost M) (hs : Fr M s0 s) : Fr M s0 (State.ohqLost s r) := by
  unfold State.ohqLost
  repeat' first
    | with_reducible first | assumption | apply State.ev_fr | apply State.count_fr
    | exact MaskLe.trans (by decide +kernel) hM
    | dsimp -zeta only
def fm_poisonMet : Nat := fm_capCount ||| fm_insCount ||| fm_report ||| fm_ev
theorem State.poisonMet_fr {M s0} (s : State) (r dir i : Nat) (hM : MaskLe fm_poisonMet M) (hs : Fr M s0 s) : Fr M s0 (State.poisonMet s r dir i) := by
  unfold State.poisonMet
  repeat' first
    | with_reducible first | assumption | apply State.capCount_fr | apply State.insCount_fr | apply State.report_fr | apply State.ev_fr | apply fr_ite
    | (extract_lets +onlyGivenNames x; refine fr_cut x ?_ ?_; (on_goal 2 => dsimp only [x]); (on_goal 1 => clear_value x; intro hx))
    | (extract_lets +onlyGivenNames x; fail_if_success (have : State := x); clear_value x)
    | exact MaskLe.trans (by decide +kernel) hM
    | split
    | dsimp -zeta only
def fm_freeCap : Nat := fm_ohqLost ||| fm_capCount ||| fm_setCap
theorem State.freeCap_fr {M s0} (s : State) (r i : Nat) (hM : MaskLe fm_freeCap M) (hs : Fr M s0 s) : Fr M s0 (State.freeCap s r i) := by
  unfold State.freeCap
  repeat' first
    | (intro x)
    | with_reducible first | assumption | apply State.ohqLost_fr | apply State.capCount_fr | apply State.setCap_fr
    | (extract_lets +onlyGivenNames x; refine fr_cut x ?_ ?_; (on_goal 2 => dsimp only [x]); (on_goal 1 => clear_value x; intro hx))
    | (extract_lets +onlyGivenNames x; fail_if_success (have : State := x); clear_value x)
    | exact MaskLe.trans (by decide +kernel) hM
    | with_reducible apply fr_pair
    | dsimp -zeta only
def fm_makeRoom : Nat := fm_setCap ||| fm_ohqLost ||| fm_capCount ||| fm_freeCap
theorem State.makeRoom_fr {M s0} (s : State) (r i : Nat) (n : Nat) (hM : MaskLe fm_makeRoom M) (hs : Fr M s0 s) : Fr M s0 (State.makeRoom s r i n) := by
  induction n generalizing s with
  | zero => exact hs
  | succ n ih =>
  unfold State.makeRoom
  try dsimp -zeta only
  repeat' first
    | (intro x)
    | with_reducible first | assumption | apply State.setCap_fr | apply State.ohqLost_fr | apply State.capCount_fr | apply State.freeCap_fr | apply ih | apply fr_ite
    | (extract_lets +onlyGivenNames x; refine fr_cut x ?_ ?_; (on_goal 2 => dsimp only [x]); (on_goal 1 => clear_value x; intro hx))
    | (extract_lets +onlyGivenNames x; fail_if_success (have : State := x); clear_value x)
    | exact MaskLe.trans (by decide +kernel) hM
    | with_reducible apply fr_pair
    | split
    | dsimp -zeta only
def fm_flushJoinsCap : Nat := fm_setCap ||| fm_capCount
theorem State.flushJoinsCap_fr {M s0} (s : State) (r i : Nat) (hM : MaskLe fm_flushJoinsCap M) (hs : Fr M s0 s) : Fr M s0 (State.flushJoinsCap s r i) := by
  unfold State.flushJoinsCap
  repeat' first
    | (intro x)
    | with_reducible first | assumption | apply State.setCap_fr | apply State.capCount_fr | apply fr_ite
    | (extract_lets +onlyGivenNames x; refine fr_cut x ?_ ?_; (on_goal 2 => dsimp only [x]); (on_goal 1 => clear_value x; intro hx))
    | (extract_lets +onlyGivenNames x; fail_if_success (have : State := x); clear_value x)
    | exact MaskLe.trans (by decide +kernel) hM
    | with_reducible apply fr_pair
    | split
    | dsimp -zeta only
def fm_deliver : Nat := fm_setCap ||| fm_evWhen ||| fm_capCount ||| fm_flushJoinsCap
theorem State.deliver_fr {M s0} (s : State) (r i : Nat) (payload : List Nat) (trunc abort bad : Bool) (hM : MaskLe fm_deliver M) (hs : Fr M s0 s) : Fr M s0 (State.deliver s r i payload trunc abort bad) := by
  unfold State.deliver
  repeat' first
    | (intro x)
    | with_reducible first | assumption | apply State.setCap_fr | apply State.evWhen_fr | apply State.capCount_fr | apply State.flushJoinsCap_fr
    | (extract_lets +onlyGivenNames x; refine fr_cut x ?_ ?_; (on_goal 2 => dsimp only [x]); (on_goal 1 => clear_value x; intro hx))
    | (extract_lets +onlyGivenNames x; fail_if_success (have : State := x); clear_value x)
    | exact MaskLe.trans (by decide +kernel) hM
    | with_reducible apply fr_pair
    | dsimp -zeta only
def fm_endFrame : Nat := fm_setCap ||| fm_capCount ||| fm_deliver
theorem State.endFrame_fr {M s0} (s : State) (r i : Nat) (aborted : Bool) (hM : MaskLe fm_endFrame M) (hs : Fr M s0 s) : Fr M s0 (State.endFrame s r i aborted) := by
  unfold State.endFrame
  repeat' first
    | (intro x)
    | with_reducible first | assumption | apply State.setCap_fr | apply State.capCount_fr | apply State.deliver_fr | apply fr_ite | apply fr_when
    | (extract_lets +onlyGivenNames x; refine fr_cut x ?_ ?_; (on_goal 2 => dsimp only [x]); (on_goal 1 => clear_value x; intro hx))
    | (extract_lets +onlyGivenNames x; fail_if_success (have : State := x); clear_value x)
    | exact MaskLe.trans (by decide +kernel) hM
    | with_reducible apply fr_pair
    | split
    | dsimp -zeta only
def fm_capAppend : Nat := fm_makeRoom ||| fm_setCap
theorem State.capAppend_fr {M s0} (s : State) (r i b : Nat) (hM : MaskLe fm_capAppend M) (hs : Fr M s0 s) : Fr M s0 (State.capAppend s r i b) := by
  unfold State.capAppend
  repeat' first
    | (intro x)
    | with_reducible first | assumption | apply State.makeRoom_fr | apply State.setCap_fr
    | exact MaskLe.trans (by decide +kernel) hM
    | with_reducible apply fr_pair
    | dsimp -zeta only
def fm_capHdlc : Nat := fm_endFrame ||| fm_setCap ||| fm_capAppend
theorem State.capHdlc_fr {M s0} (s : State) (r i b : Nat) (hM : MaskLe fm_capHdlc M) (hs : Fr M s0 s) : Fr M s0 (State.capHdlc s r i b) := by
  unfold State.capHdlc
  repeat' first
    | (intro x)
    | with_reducible first | assumption | apply State.endFrame_fr | apply State.setCap_fr | apply State.capAppend_fr | apply fr_ite
    | (extract_lets +onlyGivenNames x; refine fr_cut x ?_ ?_; (on_goal 2 => dsimp only [x]); (on_goal 1 => clear_value x; intro hx))
    | (extract_lets +onlyGivenNames x; fail_if_success (have : State := x); clear_value x)
    | exact MaskLe.trans (by decide +kernel) hM
    | with_reducible apply fr_pair
    | split
    | dsimp -zeta only
def fm_capRaw : Nat := fm_setCap ||| fm_capAppend ||| fm_deliver
theorem State.capRaw_fr {M s0} (s : State) (r i b : Nat) (hM : MaskLe fm_capRaw M) (hs : Fr M s0 s) : Fr M s0 (State.capRaw s r i b) := by
  unfold State.capRaw
  repeat' first
    | (intro x)
    | with_reducible first | assumption | apply State.setCap_fr | apply State.capAppend_fr | apply State.deliver_fr | apply fr_ite
    | (extract_lets +onlyGivenNames x; refine fr_cut x ?_ ?_; (on_goal 2 => dsimp only [x]); (on_goal 1 => clear_value x; intro hx))
    | (extract_lets +onlyGivenNames x; fail_if_success (have : State := x); clear_value x)
    | exact MaskLe.trans (by decide +kernel) hM
    | with_reducible apply fr_pair
    | split
    | dsimp -zeta only
def fm_capAps : Nat := fm_setCap ||| fm_makeRoom ||| fm_deliver
theorem State.capAps_fr {M s0} (s : State) (r i : Nat) (msg : List Nat) (hM : MaskLe fm_capAps M) (hs : Fr M s0 s) : Fr M s0 (State.capAps s r i msg) := by
  unfold State.capAps
  repeat' first
    | (intro x)
    | with_reducible first | assumption | apply State.setCap_fr | apply State.makeRoom_fr | apply State.deliver_fr | apply fr_ite
    | (extract_lets +onlyGivenNames x; refine fr_cut x ?_ ?_; (on_goal 2 => dsimp only [x]); (on_goal 1 => clear_value x; intro hx))
    | (extract_lets +onlyGivenNames x; fail_if_success (have : State := x); clear_value x)
    | exact MaskLe.trans (by decide +kernel) hM
    | with_reducible apply fr_pair
    | split
    | dsimp -zeta only
def fm_capBytes : Nat := fm_capHdlc ||| fm_capRaw ||| fm_capAps ||| fm_showCap
theorem State.capBytes_fr {M s0} (s : State) (r i : Nat) (bytes : List Nat) (hM : MaskLe fm_capBytes M) (hs : Fr M s0 s) : Fr M s0 (State.capBytes s r i bytes) := by
  unfold State.capBytes
  repeat' first
    | (intro x)
    | with_reducible first | assumption | apply State.capHdlc_fr | apply State.capRaw_fr | apply State.capAps_fr | apply State.showCap_fr | apply fr_ite | apply fr_each
    | (extract_lets +onlyGivenNames x; refine fr_cut x ?_ ?_; (on_goal 2 => dsimp only [x]); (on_goal 1 => clear_value x; intro hx))
    | (extract_lets +onlyGivenNames x; fail_if_success (have : State := x); clear_value x)
    | exact MaskLe.trans (by decide +kernel) hM
    | with_reducible apply fr_pair
    | split
    | dsimp -zeta only
def fm_capBreak : Nat := fm_endFrame ||| fm_capCount ||| fm_showCap ||| fm_setCap
theorem State.capBreak_fr {M s0} (s : State) (r i : Nat) (hM : MaskLe fm_capBreak M) (hs : Fr M s0 s) : Fr M s0 (State.capBreak s r i) := by
  unfold State.capBreak
  repeat' first
    | (intro x)
    | with_reducible first | assumption | apply State.endFrame_fr | apply State.capCount_fr | apply State.showCap_fr | apply State.setCap_fr | apply fr_ite
    | (extract_lets +onlyGivenNames x; refine fr_cut x ?_ ?_; (on_goal 2 => dsimp only [x]); (on_goal 1 => clear_value x; intro hx))
    | (extract_lets +onlyGivenNames x; fail_if_success (have : State := x); clear_value x)
    | exact MaskLe.trans (by decide +kernel) hM
    | with_reducible apply fr_pair
    | split
    | dsimp -zeta only
def fm_flushDone : Nat := mFld OHQ_CMD_STATUS_code ||| fm_ev
theorem State.flushDone_fr {M s0} (s : State) (r : Nat) (who : List Nat) (hM : MaskLe fm_flushDone M) (hs : Fr M s0 s) : Fr M s0 (State.flushDone s r who) := by
  unfold State.flushDone
  repeat' first
    | (intro x)
    | with_reducible first | assumption | apply State.ev_fr | apply State.wr_fr | apply fr_each
    | exact MaskLe.trans (by decide +kernel) hM
    | with_reducible apply fr_pair
    | dsimp -zeta only
def fm_applyFlush : Nat := fm_showCap ||| fm_flushDone ||| fm_capCount ||| fm_setCap ||| fm_showIns ||| fm_insCount ||| fm_setIns
theorem State.applyFlush_fr {M s0} (s : State) (r dir i : Nat) (hM : MaskLe fm_applyFlush M) (hs : Fr M s0 s) : Fr M s0 (State.applyFlush s r dir i) := by
  unfold State.applyFlush
  repeat' first
    | (intro x)
    | with_reducible first | assumption | apply State.showCap_fr | apply State.flushDone_fr | apply State.capCount_fr | apply State.setCap_fr | apply State.showIns_fr | apply State.insCount_fr | apply State.setIns_fr | apply fr_ite
    | (extract_lets +onlyGivenNames x; refine fr_cut x ?_ ?_; (on_goal 2 => dsimp only [x]); (on_goal 1 => clear_value x; intro hx))
    | (extract_lets +onlyGivenNames x; fail_if_success (have : State := x); clear_value x)
    | exact MaskLe.trans (by decide +kernel) hM
    | with_reducible apply fr_pair
    | split
    | dsimp -zeta only
def fm_ohqRead : Nat := fm_poisonMet ||| fm_showCap ||| fm_setCap ||| fm_applyFlush
theorem State.ohqRead_fr {M s0} (s : State) (w : Who) (r : Nat) (hM : MaskLe fm_ohqRead M) (hs : Fr M s0 s) : Fr M s0 (State.ohqRead s w r).2 := by
  unfold State.ohqRead
  repeat' first
    | (intro x)
    | with_reducible first | assumption | apply State.poisonMet_fr | apply State.showCap_fr | apply State.setCap_fr | apply State.applyFlush_fr | apply fr2_ite
    | (extract_lets +onlyGivenNames x; refine fr_cut x ?_ ?_; (on_goal 2 => dsimp only [x]); (on_goal 1 => clear_value x; intro hx))
    | (extract_lets +onlyGivenNames x; fail_if_success (have : State := x); clear_value x)
    | exact MaskLe.trans (by decide +kernel) hM
    | with_reducible apply fr2_pair
    | split
    | dsimp -zeta only
def fm_ohqStatus : Nat := mFld OHQ_CMD_STATUS_code
theorem State.ohqStatus_fr {M s0} (s : State) (w : Who) (r code : Nat) (hM : MaskLe fm_ohqStatus M) (hs : Fr M s0 s) : Fr M s0 (State.ohqStatus s w r code) := by
  unfold State.ohqStatus
  repeat' first
    | with_reducible first | assumption | apply State.wr_fr
    | exact MaskLe.trans (by decide +kernel) hM
    | dsimp -zeta only
def fm_ohqFlush : Nat := fm_ohqStatus ||| fm_showCap ||| fm_setCap ||| fm_showIns ||| fm_setIns ||| fm_applyFlush
theorem State.ohqFlush_fr {M s0} (s : State) (w : Who) (r dir i : Nat) (hM : MaskLe fm_ohqFlush M) (hs : Fr M s0 s) : Fr M s0 (State.ohqFlush s w r dir i) := by
  unfold State.ohqFlush
  repeat' first
    | (intro x)
    | with_reducible first | assumption | apply State.ohqStatus_fr | apply State.showCap_fr | apply State.setCap_fr | apply State.showIns_fr | apply State.setIns_fr | apply State.applyFlush_fr | apply fr_ite
    | (extract_lets +onlyGivenNames x; refine fr_cut x ?_ ?_; (on_goal 2 => dsimp only [x]); (on_goal 1 => clear_value x; intro hx))
    | (extract_lets +onlyGivenNames x; fail_if_success (have : State := x); clear_value x)
    | exact MaskLe.trans (by decide +kernel) hM
    | with_reducible apply fr_pair
    | split
    | dsimp -zeta only
def fm_dropRest : Nat := fm_ohqStatus ||| fm_showCap ||| fm_capCount ||| fm_setCap ||| fm_insCount ||| fm_showIns ||| fm_setIns ||| fm_ev
theorem State.dropRest_fr {M s0} (s : State) (w : Who) (r dir i : Nat) (hM : MaskLe fm_dropRest M) (hs : Fr M s0 s) : Fr M s0 (State.dropRest s w r dir i) := by
  unfold State.dropRest
  repeat' first
    | (intro x)
    | with_reducible first | assumption | apply State.ohqStatus_fr | apply State.showCap_fr | apply State.capCount_fr | apply State.setCap_fr | apply State.insCount_fr | apply State.showIns_fr | apply State.setIns_fr | apply State.ev_fr | apply fr_ite
    | (extract_lets +onlyGivenNames x; refine fr_cut x ?_ ?_; (on_goal 2 => dsimp only [x]); (on_goal 1 => clear_value x; intro hx))
    | (extract_lets +onlyGivenNames x; fail_if_success (have : State := x); clear_value x)
    | exact MaskLe.trans (by decide +kernel) hM
    | with_reducible apply fr_pair
    | split
    | dsimp -zeta only
def fm_insSent : Nat := fm_setIns ||| fm_evWhen ||| fm_insCount
theorem State.insSent_fr {M s0} (s : State) (r i : Nat) (hM : MaskLe fm_insSent M) (hs : Fr M s0 s) : Fr M s0 (State.insSent s r i) := by
  unfold State.insSent
  repeat' first
    | (intro x)
    | with_reducible first | assumption | apply State.setIns_fr | apply State.evWhen_fr | apply State.insCount_fr
    | (extract_lets +onlyGivenNames x; refine fr_cut x ?_ ?_; (on_goal 2 => dsimp only [x]); (on_goal 1 => clear_value x; intro hx))
    | (extract_lets +onlyGivenNames x; fail_if_success (have : State := x); clear_value x)
    | exact MaskLe.trans (by decide +kernel) hM
    | with_reducible apply fr_pair
    | dsimp -zeta only
def fm_insBegin : Nat := fm_applyFlush ||| fm_setIns
theorem State.insBegin_fr {M s0} (s : State) (r i : Nat) (hM : MaskLe fm_insBegin M) (hs : Fr M s0 s) : Fr M s0 (State.insBegin s r i) := by
  unfold State.insBegin
  repeat' first
    | (intro x)
    | with_reducible first | assumption | apply State.applyFlush_fr | apply State.setIns_fr
    | (extract_lets +onlyGivenNames x; refine fr_cut x ?_ ?_; (on_goal 2 => dsimp only [x]); (on_goal 1 => clear_value x; intro hx))
    | (extract_lets +onlyGivenNames x; fail_if_success (have : State := x); clear_value x)
    | exact MaskLe.trans (by decide +kernel) hM
    | with_reducible apply fr_pair
    | split
    | dsimp -zeta only
def fm_hdlcByte : Nat := fm_setIns ||| fm_insCount ||| fm_poisonMet ||| fm_insSent ||| fm_applyFlush ||| fm_insBegin
theorem State.hdlcByte_fr {M s0} (s : State) (r i : Nat) (n : Nat) (hM : MaskLe fm_hdlcByte M) (hs : Fr M s0 s) : Fr M s0 (State.hdlcByte s r i n).2 := by
  induction n generalizing s with
  | zero => exact hs
  | succ n ih =>
  unfold State.hdlcByte
  try dsimp -zeta only
  repeat' first
    | (intro x)
    | with_reducible first | assumption | apply State.setIns_fr | apply State.insCount_fr | apply State.poisonMet_fr | apply State.insSent_fr | apply State.applyFlush_fr | apply State.insBegin_fr | apply ih | apply fr2_ite
    | (extract_lets +onlyGivenNames x; refine fr_cut x ?_ ?_; (on_goal 2 => dsimp only [x]); (on_goal 1 => clear_value x; intro hx))
    | (extract_lets +onlyGivenNames x; fail_if_success (have : State := x); clear_value x)
    | exact MaskLe.trans (by decide +kernel) hM
    | with_reducible apply fr2_pair
    | split
    | dsimp -zeta only
def fm_rawByte : Nat := fm_setIns ||| fm_insSent ||| fm_poisonMet ||| fm_applyFlush ||| fm_insBegin
theorem State.rawByte_fr {M s0} (s : State) (r i : Nat) (n : Nat) (hM : MaskLe fm_rawByte M) (hs : Fr M s0 s) : Fr M s0 (State.rawByte s r i n).2 := by
  induction n generalizing s with
  | zero => exact hs
  | succ n ih =>
  unfold State.rawByte
  try dsimp -zeta only
  repeat' first
    | (intro x)
    | with_reducible first | assumption | apply State.setIns_fr | apply State.insSent_fr | apply State.poisonMet_fr | apply State.applyFlush_fr | apply State.insBegin_fr | apply ih | apply fr2_ite
    | (extract_lets +onlyGivenNames x; refine fr_cut x ?_ ?_; (on_goal 2 => dsimp only [x]); (on_goal 1 => clear_value x; intro hx))
    | (extract_lets +onlyGivenNames x; fail_if_success (have : State := x); clear_value x)
    | exact MaskLe.trans (by decide +kernel) hM
    | with_reducible apply fr2_pair
    | split
    | dsimp -zeta only
def fm_apsBytes : Nat := fm_applyFlush ||| fm_setIns ||| fm_poisonMet ||| fm_insCount ||| fm_insSent
theorem State.apsBytes_fr {M s0} (s : State) (r i : Nat) (hM : MaskLe fm_apsBytes M) (hs : Fr M s0 s) : Fr M s0 (State.apsBytes s r i).2 := by
  unfold State.apsBytes
  repeat' first
    | (intro x)
    | with_reducible first | assumption | apply State.applyFlush_fr | apply State.setIns_fr | apply State.poisonMet_fr | apply State.insCount_fr | apply State.insSent_fr | apply fr2_ite
    | (extract_lets +onlyGivenNames x; refine fr_cut x ?_ ?_; (on_goal 2 => dsimp only [x]); (on_goal 1 => clear_value x; intro hx))
    | (extract_lets +onlyGivenNames x; fail_if_success (have : State := x); clear_value x)
    | exact MaskLe.trans (by decide +kernel) hM
    | with_reducible apply fr2_pair
    | split
    | dsimp -zeta only
def fm_takeBytes : Nat := fm_hdlcByte ||| fm_rawByte
theorem State.takeBytes_fr {M s0} (s : State) (r i : Nat) (n : Nat) (hM : MaskLe fm_takeBytes M) (hs : Fr M s0 s) : Fr M s0 (State.takeBytes s r i n).2 := by
  induction n generalizing s with
  | zero => exact hs
  | succ n ih =>
  unfold State.takeBytes
  try dsimp -zeta only
  repeat' first
    | with_reducible first | assumption | apply State.hdlcByte_fr | apply State.rawByte_fr | apply ih | apply fr2_ite
    | (extract_lets +onlyGivenNames x; refine fr_cut x ?_ ?_; (on_goal 2 => dsimp only [x]); (on_goal 1 => clear_value x; intro hx))
    | (extract_lets +onlyGivenNames x; fail_if_success (have : State := x); clear_value x)
    | exact MaskLe.trans (by decide +kernel) hM
    | with_reducible apply fr2_pair
    | split
    | dsimp -zeta only
def fm_insBytes : Nat := fm_apsBytes ||| fm_takeBytes ||| fm_showIns
theorem State.insBytes_fr {M s0} (s : State) (r i n : Nat) (hM : MaskLe fm_insBytes M) (hs : Fr M s0 s) : Fr M s0 (State.insBytes s r i n).2 := by
  unfold State.insBytes
  repeat' first
    | with_reducible first | assumption | apply State.apsBytes_fr | apply State.takeBytes_fr | apply State.showIns_fr | apply fr2_ite
    | (extract_lets +onlyGivenNames x; refine fr_cut x ?_ ?_; (on_goal 2 => dsimp only [x]); (on_goal 1 => clear_value x; intro hx))
    | (extract_lets +onlyGivenNames x; fail_if_success (have : State := x); clear_value x)
    | exact MaskLe.trans (by decide +kernel) hM
    | with_reducible apply fr2_pair
    | split
    | dsimp -zeta only
def fm_dropWrite : Nat := fm_setIns
theorem State.dropWrite_fr {M s0} (s : State) (r i : Nat) (ended : Bool) (hM : MaskLe fm_dropWrite M) (hs : Fr M s0 s) : Fr M s0 (State.dropWrite s r i ended) := by
  unfold State.dropWrite
  repeat' first
    | (intro x)
    | with_reducible first | assumption | apply State.setIns_fr | apply fr_ite
    | exact MaskLe.trans (by decide +kernel) hM
    | with_reducible apply fr_pair
    | split
    | dsimp -zeta only
def fm_freeIns : Nat := fm_ohqLost ||| fm_insCount ||| fm_setIns
theorem State.freeIns_fr {M s0} (s : State) (r i : Nat) (hM : MaskLe fm_freeIns M) (hs : Fr M s0 s) : Fr M s0 (State.freeIns s r i) := by
  unfold State.freeIns
  repeat' first
    | (intro x)
    | with_reducible first | assumption | apply State.ohqLost_fr | apply State.insCount_fr | apply State.setIns_fr
    | (extract_lets +onlyGivenNames x; refine fr_cut x ?_ ?_; (on_goal 2 => dsimp only [x]); (on_goal 1 => clear_value x; intro hx))
    | (extract_lets +onlyGivenNames x; fail_if_success (have : State := x); clear_value x)
    | exact MaskLe.trans (by decide +kernel) hM
    | with_reducible apply fr_pair
    | dsimp -zeta only
def fm_flushJoinsIns : Nat := fm_setIns ||| fm_insCount
theorem State.flushJoinsIns_fr {M s0} (s : State) (r i : Nat) (hM : MaskLe fm_flushJoinsIns M) (hs : Fr M s0 s) : Fr M s0 (State.flushJoinsIns s r i) := by
  unfold State.flushJoinsIns
  repeat' first
    | (intro x)
    | with_reducible first | assumption | apply State.setIns_fr | apply State.insCount_fr | apply fr_ite
    | (extract_lets +onlyGivenNames x; refine fr_cut x ?_ ?_; (on_goal 2 => dsimp only [x]); (on_goal 1 => clear_value x; intro hx))
    | (extract_lets +onlyGivenNames x; fail_if_success (have : State := x); clear_value x)
    | exact MaskLe.trans (by decide +kernel) hM
    | with_reducible apply fr_pair
    | split
    | dsimp -zeta only
def fm_storeWord : Nat := fm_setIns ||| fm_flushJoinsIns
theorem State.storeWord_fr {M s0} (s : State) (r i v : Nat) (hM : MaskLe fm_storeWord M) (hs : Fr M s0 s) : Fr M s0 (State.storeWord s r i v) := by
  unfold State.storeWord
  repeat' first
    | (intro x)
    | with_reducible first | assumption | apply State.setIns_fr | apply State.flushJoinsIns_fr | apply fr_ite | apply fr_when
    | (extract_lets +onlyGivenNames x; refine fr_cut x ?_ ?_; (on_goal 2 => dsimp only [x]); (on_goal 1 => clear_value x; intro hx))
    | (extract_lets +onlyGivenNames x; fail_if_success (have : State := x); clear_value x)
    | exact MaskLe.trans (by decide +kernel) hM
    | with_reducible apply fr_pair
    | split
    | dsimp -zeta only
def fm_ohqWrite : Nat := fm_insCount ||| fm_dropWrite ||| fm_setIns ||| fm_storeWord ||| fm_ohqLost ||| fm_freeIns ||| fm_showIns
theorem State.ohqWrite_fr {M s0} (s : State) (w : Who) (r v : Nat) (hM : MaskLe fm_ohqWrite M) (hs : Fr M s0 s) : Fr M s0 (State.ohqWrite s w r v) := by
  unfold State.ohqWrite
  repeat' first
    | (intro x)
    | with_reducible first | assumption | apply State.insCount_fr | apply State.dropWrite_fr | apply State.setIns_fr | apply State.storeWord_fr | apply State.ohqLost_fr | apply State.freeIns_fr | apply State.showIns_fr | apply fr_ite
    | (extract_lets +onlyGivenNames x; refine fr_cut x ?_ ?_; (on_goal 2 => dsimp only [x]); (on_goal 1 => clear_value x; intro hx))
    | (extract_lets +onlyGivenNames x; fail_if_success (have : State := x); clear_value x)
    | exact MaskLe.trans (by decide +kernel) hM
    | with_reducible apply fr_pair
    | split
    | dsimp -zeta only
def fm_gccCapture : Nat := mFld OHQ_MISROUTE ||| fm_capBytes ||| fm_ev
theorem State.gccCapture_fr {M s0} (s : State) (d : Nat) (bytes : List Nat) (hM : MaskLe fm_gccCapture M) (hs : Fr M s0 s) : Fr M s0 (State.gccCapture s d bytes) := by
  unfold State.gccCapture
  repeat' first
    | with_reducible first | assumption | apply State.capBytes_fr | apply State.ev_fr | apply State.count_fr | apply fr_ite
    | (extract_lets +onlyGivenNames x; refine fr_cut x ?_ ?_; (on_goal 2 => dsimp only [x]); (on_goal 1 => clear_value x; intro hx))
    | (extract_lets +onlyGivenNames x; fail_if_success (have : State := x); clear_value x)
    | exact MaskLe.trans (by decide +kernel) hM
    | with_reducible apply fr_pair
    | split
    | dsimp -zeta only
def fm_gccBreak : Nat := fm_capBreak
theorem State.gccBreak_fr {M s0} (s : State) (d : Nat) (hM : MaskLe fm_gccBreak M) (hs : Fr M s0 s) : Fr M s0 (State.gccBreak s d) := by
  unfold State.gccBreak
  repeat' first
    | with_reducible first | assumption | apply State.capBreak_fr
    | exact MaskLe.trans (by decide +kernel) hM
    | with_reducible apply fr_pair
    | split
    | dsimp -zeta only
def fm_gccIn : Nat := fm_setSlice ||| fm_gccCapture ||| fm_gccBreak
theorem State.gccIn_fr {M s0} (s : State) (d : Nat) (bytes : List Nat) (hM : MaskLe fm_gccIn M) (hs : Fr M s0 s) : Fr M s0 (State.gccIn s d bytes) := by
  unfold State.gccIn
  repeat' first
    | (intro x)
    | with_reducible first | assumption | apply State.setSlice_fr | apply State.gccCapture_fr | apply State.gccBreak_fr | apply fr_ite
    | (extract_lets +onlyGivenNames x; refine fr_cut x ?_ ?_; (on_goal 2 => dsimp only [x]); (on_goal 1 => clear_value x; intro hx))
    | (extract_lets +onlyGivenNames x; fail_if_success (have : State := x); clear_value x)
    | exact MaskLe.trans (by decide +kernel) hM
    | with_reducible apply fr_pair
    | split
    | dsimp -zeta only
def fm_gccOut : Nat := fm_insBytes
theorem State.gccOut_fr {M s0} (s : State) (lead : Nat) (hM : MaskLe fm_gccOut M) (hs : Fr M s0 s) : Fr M s0 (State.gccOut s lead).2 := by
  unfold State.gccOut
  repeat' first
    | (intro x)
    | with_reducible first | assumption | apply State.insBytes_fr | apply fr2_ite | apply fr_foldl | apply fr_foldl2 | apply fr_foldl1
    | (extract_lets +onlyGivenNames x; refine fr_cut x ?_ ?_; (on_goal 2 => dsimp only [x]); (on_goal 1 => clear_value x; intro hx))
    | (extract_lets +onlyGivenNames x; fail_if_success (have : State := x); clear_value x)
    | exact MaskLe.trans (by decide +kernel) hM
    | with_reducible apply fr2_pair
    | split
    | dsimp -zeta only
def fm_ohCapture : Nat := fm_capBytes ||| fm_capBreak
theorem State.ohCapture_fr {M s0} (s : State) (B e : Nat) (f : OduFrame) (ok : Bool) (hM : MaskLe fm_ohCapture M) (hs : Fr M s0 s) : Fr M s0 (State.ohCapture s B e f ok) := by
  unfold State.ohCapture
  repeat' first
    | (intro x)
    | with_reducible first | assumption | apply State.capBytes_fr | apply State.capBreak_fr | apply fr_ite | apply fr_each
    | (extract_lets +onlyGivenNames x; refine fr_cut x ?_ ?_; (on_goal 2 => dsimp only [x]); (on_goal 1 => clear_value x; intro hx))
    | (extract_lets +onlyGivenNames x; fail_if_success (have : State := x); clear_value x)
    | exact MaskLe.trans (by decide +kernel) hM
    | with_reducible apply fr_pair
    | split
    | dsimp -zeta only
def fm_ohInsert : Nat := fm_insBytes
theorem State.ohInsert_fr {M s0} (s : State) (B e mfas : Nat) (hM : MaskLe fm_ohInsert M) (hs : Fr M s0 s) : Fr M s0 (State.ohInsert s B e mfas).2 := by
  unfold State.ohInsert
  repeat' first
    | (intro x)
    | with_reducible first | assumption | apply State.insBytes_fr | apply fr2_ite | apply fr_foldl | apply fr_foldl2 | apply fr_foldl1
    | (extract_lets +onlyGivenNames x; refine fr_cut x ?_ ?_; (on_goal 2 => dsimp only [x]); (on_goal 1 => clear_value x; intro hx))
    | (extract_lets +onlyGivenNames x; fail_if_success (have : State := x); clear_value x)
    | exact MaskLe.trans (by decide +kernel) hM
    | with_reducible apply fr2_pair
    | split
    | dsimp -zeta only
def fm_chAdopt : Nat := fm_flushDone ||| fm_showCap ||| fm_setCap ||| fm_capCount ||| fm_showIns ||| fm_setIns ||| fm_insCount
theorem State.chAdopt_fr {M s0} (s : State) (r dir i : Nat) (empties : Bool) (hM : MaskLe fm_chAdopt M) (hs : Fr M s0 s) : Fr M s0 (State.chAdopt s r dir i empties) := by
  unfold State.chAdopt
  repeat' first
    | (intro x)
    | with_reducible first | assumption | apply State.flushDone_fr | apply State.showCap_fr | apply State.setCap_fr | apply State.capCount_fr | apply State.showIns_fr | apply State.setIns_fr | apply State.insCount_fr | apply fr_ite
    | (extract_lets +onlyGivenNames x; refine fr_cut x ?_ ?_; (on_goal 2 => dsimp only [x]); (on_goal 1 => clear_value x; intro hx))
    | (extract_lets +onlyGivenNames x; fail_if_success (have : State := x); clear_value x)
    | exact MaskLe.trans (by decide +kernel) hM
    | with_reducible apply fr_pair
    | split
    | dsimp -zeta only
def fm_showOhqMem : Nat := mFld OHQ_MEM_units
theorem State.showOhqMem_fr {M s0} (s : State) (r : Nat) (hM : MaskLe fm_showOhqMem M) (hs : Fr M s0 s) : Fr M s0 (State.showOhqMem s r) := by
  unfold State.showOhqMem
  repeat' first
    | (intro x)
    | with_reducible first | assumption | apply State.wr_fr
    | (extract_lets +onlyGivenNames x; refine fr_cut x ?_ ?_; (on_goal 2 => dsimp only [x]); (on_goal 1 => clear_value x; intro hx))
    | (extract_lets +onlyGivenNames x; fail_if_success (have : State := x); clear_value x)
    | exact MaskLe.trans (by decide +kernel) hM
    | with_reducible apply fr_pair
    | dsimp -zeta only
def fm_ohqRegionReset : Nat := 2 ^ 59 ||| 2 ^ 60 ||| fm_showIns ||| fm_showCap
theorem State.ohqRegionReset_fr {M s0} (s : State) (r : Nat) (hM : MaskLe fm_ohqRegionReset M) (hs : Fr M s0 s) : Fr M s0 (State.ohqRegionReset s r) := by
  unfold State.ohqRegionReset
  repeat' first
    | (intro x)
    | with_reducible first | assumption | apply State.showIns_fr | apply State.showCap_fr | apply fr_each
    | (extract_lets +onlyGivenNames x; refine fr_cut x ?_ ?_; (on_goal 2 => dsimp only [x]); (on_goal 1 => clear_value x; intro hx))
    | (extract_lets +onlyGivenNames x; fail_if_success (have : State := x); clear_value x)
    | exact MaskLe.trans (by decide +kernel) hM
    | (with_reducible refine fr_mk_caps_inss (MaskLe.trans (by decide +kernel) hM) ?_; first | with_reducible assumption | with_reducible apply State.showIns_fr | with_reducible apply State.showCap_fr)
    | with_reducible apply fr_pair
    | dsimp -zeta only
def fm_poisonWord : Nat := fm_setCap ||| fm_setIns
theorem State.poisonWord_fr {M s0} (s : State) (r dir i k : Nat) (hM : MaskLe fm_poisonWord M) (hs : Fr M s0 s) : Fr M s0 (State.poisonWord s r dir i k) := by
  unfold State.poisonWord
  repeat' first
    | (intro x)
    | with_reducible first | assumption | apply State.setCap_fr | apply State.setIns_fr | apply fr_ite
    | (extract_lets +onlyGivenNames x; refine fr_cut x ?_ ?_; (on_goal 2 => dsimp only [x]); (on_goal 1 => clear_value x; intro hx))
    | (extract_lets +onlyGivenNames x; fail_if_success (have : State := x); clear_value x)
    | exact MaskLe.trans (by decide +kernel) hM
    | with_reducible apply fr_pair
    | split
    | dsimp -zeta only
def fm_setChk : Nat := 2 ^ 61
theorem State.setChk_fr {M s0} (s : State) (u : Nat) (f : ChkUnit → ChkUnit) (hM : MaskLe fm_setChk M) (hs : Fr M s0 s) : Fr M s0 (State.setChk s u f) := by
  unfold State.setChk
  repeat' first
    | with_reducible first | assumption
    | exact MaskLe.trans (by decide +kernel) hM
    | (with_reducible refine fr_mk_chks (MaskLe.trans (by decide +kernel) hM) ?_; first | with_reducible assumption)
    | dsimp -zeta only
def fm_chkRefuse : Nat := mFld CHK_REFUSED
theorem State.chkRefuse_fr {M s0} (s : State) (u : Nat) (hM : MaskLe fm_chkRefuse M) (hs : Fr M s0 s) : Fr M s0 (State.chkRefuse s u) := by
  unfold State.chkRefuse
  repeat' first
    | with_reducible first | assumption | apply State.count_fr
    | exact MaskLe.trans (by decide +kernel) hM
    | dsimp -zeta only
def fm_chkBegin : Nat := mFld CHK_STATUS_open ||| mFld CHK_STATUS_holder ||| fm_setChk
theorem State.chkBegin_fr {M s0} (s : State) (u holder : Nat) (hM : MaskLe fm_chkBegin M) (hs : Fr M s0 s) : Fr M s0 (State.chkBegin s u holder) := by
  unfold State.chkBegin
  repeat' first
    | (intro x)
    | with_reducible first | assumption | apply State.setChk_fr | apply State.wrb_fr | apply State.wr_fr
    | (extract_lets +onlyGivenNames x; refine fr_cut x ?_ ?_; (on_goal 2 => dsimp only [x]); (on_goal 1 => clear_value x; intro hx))
    | (extract_lets +onlyGivenNames x; fail_if_success (have : State := x); clear_value x)
    | exact MaskLe.trans (by decide +kernel) hM
    | with_reducible apply fr_pair
    | dsimp -zeta only
def fm_chkClose : Nat := mFld CHK_STATUS_open ||| mFld CHK_STATUS_holder
theorem State.chkClose_fr {M s0} (s : State) (u : Nat) (hM : MaskLe fm_chkClose M) (hs : Fr M s0 s) : Fr M s0 (State.chkClose s u) := by
  unfold State.chkClose
  repeat' first
    | with_reducible first | assumption | apply State.wrb_fr | apply State.wr_fr
    | exact MaskLe.trans (by decide +kernel) hM
    | dsimp -zeta only
def fm_chkFeed : Nat := fm_setChk
theorem State.chkFeed_fr {M s0} (s : State) (u : Nat) (bits : List Bool) (hM : MaskLe fm_chkFeed M) (hs : Fr M s0 s) : Fr M s0 (State.chkFeed s u bits) := by
  unfold State.chkFeed
  repeat' first
    | (intro x)
    | with_reducible first | assumption | apply State.setChk_fr | apply fr_ite | apply fr_foldl | apply fr_foldl2 | apply fr_foldl1
    | (extract_lets +onlyGivenNames x; refine fr_cut x ?_ ?_; (on_goal 2 => dsimp only [x]); (on_goal 1 => clear_value x; intro hx))
    | (extract_lets +onlyGivenNames x; fail_if_success (have : State := x); clear_value x)
    | exact MaskLe.trans (by decide +kernel) hM
    | with_reducible apply fr_pair
    | split
    | dsimp -zeta only
def fm_chkData : Nat := fm_chkFeed
theorem State.chkData_fr {M s0} (s : State) (u v : Nat) (hM : MaskLe fm_chkData M) (hs : Fr M s0 s) : Fr M s0 (State.chkData s u v) := by
  unfold State.chkData
  repeat' first
    | with_reducible first | assumption | apply State.chkFeed_fr | apply fr_ite
    | (extract_lets +onlyGivenNames x; refine fr_cut x ?_ ?_; (on_goal 2 => dsimp only [x]); (on_goal 1 => clear_value x; intro hx))
    | (extract_lets +onlyGivenNames x; fail_if_success (have : State := x); clear_value x)
    | exact MaskLe.trans (by decide +kernel) hM
    | split
    | dsimp -zeta only
def fm_chkAlive : Nat := mFld CHK_STATUS_alive_valid ||| mFld CHK_ALIVE_NEXT_next ||| mFld CHK_REPEAT ||| mFld CHK_GAP_MSGS ||| mFld CHK_STATUS_alive ||| fm_evWhen ||| fm_ev ||| fm_setChk
theorem State.chkAlive_fr {M s0} (s : State) (u : Nat) (ok : Bool) (hM : MaskLe fm_chkAlive M) (hs : Fr M s0 s) : Fr M s0 (State.chkAlive s u ok) := by
  unfold State.chkAlive
  repeat' first
    | (intro x)
    | with_reducible first | assumption | apply State.wrb_fr | apply State.wr_fr | apply State.evWhen_fr | apply State.count_fr | apply State.ev_fr | apply State.setChk_fr | apply fr_ite
    | (extract_lets +onlyGivenNames x; refine fr_cut x ?_ ?_; (on_goal 2 => dsimp only [x]); (on_goal 1 => clear_value x; intro hx))
    | (extract_lets +onlyGivenNames x; fail_if_success (have : State := x); clear_value x)
    | exact MaskLe.trans (by decide +kernel) hM
    | with_reducible apply fr_pair
    | split
    | dsimp -zeta only
def fm_chkEnd : Nat := mFld CHK_RUNS ||| mFld CHK_RESULT_res ||| mFld CHK_STATUS_compared ||| mFld CHK_STATUS_match ||| mFld CHK_MISMATCH ||| fm_ev ||| fm_chkClose ||| fm_chkAlive
theorem State.chkEnd_fr {M s0} (s : State) (u : Nat) (hM : MaskLe fm_chkEnd M) (hs : Fr M s0 s) : Fr M s0 (State.chkEnd s u) := by
  unfold State.chkEnd
  repeat' first
    | with_reducible first | assumption | apply State.ev_fr | apply State.count_fr | apply State.wr_fr | apply State.wrb_fr | apply State.chkClose_fr | apply State.chkAlive_fr | apply fr_ite
    | (extract_lets +onlyGivenNames x; refine fr_cut x ?_ ?_; (on_goal 2 => dsimp only [x]); (on_goal 1 => clear_value x; intro hx))
    | (extract_lets +onlyGivenNames x; fail_if_success (have : State := x); clear_value x)
    | exact MaskLe.trans (by decide +kernel) hM
    | with_reducible apply fr_pair
    | split
    | dsimp -zeta only
def fm_chkBy : Nat := fm_chkRefuse
theorem State.chkBy_fr {M s0} (s : State) (u : Nat) (m : Master) (f : State → State) (hM : MaskLe fm_chkBy M) (k_f : ∀ s, Fr M s0 s → Fr M s0 (f s)) (hs : Fr M s0 s) : Fr M s0 (State.chkBy s u m f) := by
  unfold State.chkBy
  repeat' first
    | with_reducible first | assumption | apply State.chkRefuse_fr | apply k_f | apply fr_ite
    | exact MaskLe.trans (by decide +kernel) hM
    | split
    | dsimp -zeta only
def fm_chkAliveWritten : Nat := mFld CHK_ALIVE_NEXT_next ||| fm_setChk
theorem State.chkAliveWritten_fr {M s0} (s : State) (u : Nat) (hM : MaskLe fm_chkAliveWritten M) (hs : Fr M s0 s) : Fr M s0 (State.chkAliveWritten s u) := by
  unfold State.chkAliveWritten
  repeat' first
    | (intro x)
    | with_reducible first | assumption | apply State.wr_fr | apply State.setChk_fr
    | exact MaskLe.trans (by decide +kernel) hM
    | with_reducible apply fr_pair
    | dsimp -zeta only
def fm_setWake : Nat := mFld CBB_WAKE_CAUSE_wake_out
theorem State.setWake_fr {M s0} (s : State) (f : Field) (hM : MaskLe fm_setWake M) (hf_f : MaskLe (mFld f) M) (hs : Fr M s0 s) : Fr M s0 (State.setWake s f) := by
  unfold State.setWake
  repeat' first
    | with_reducible first | assumption | apply State.wrb_fr
    | exact MaskLe.trans (by decide +kernel) hM
    | dsimp -zeta only
def fm_wakeAck : Nat := mWake ||| mFld CBB_WAKE_CAUSE_filter_match ||| mFld CBB_WAKE_CAUSE_filter ||| fm_setWake
theorem State.wakeAck_fr {M s0} (s : State) (hM : MaskLe fm_wakeAck M) (hs : Fr M s0 s) : Fr M s0 (State.wakeAck s) := by
  unfold State.wakeAck
  extract_lets s1
  have h1 : Fr M s0 s1 := by
    refine fr_each_mem hs (fun s x hx h => State.wr_fr _ _ _ _ (MaskLe.trans ?_ hM) h)
    revert hx; revert x
    decide +kernel
  clear_value s1
  split
  · exact State.setWake_fr _ _ (MaskLe.trans (by decide +kernel) hM) (MaskLe.trans (by decide +kernel) hM) (State.wr_fr _ _ _ _ (MaskLe.trans (by decide +kernel) hM) h1)
  · exact h1
def fm_tsPush : Nat := 2 ^ 80 ||| mFld TIM_TS_LOST ||| fm_ev ||| fm_evWhen
theorem State.tsPush_fr {M s0} (s : State) (e : Nat) (hM : MaskLe fm_tsPush M) (hs : Fr M s0 s) : Fr M s0 (State.tsPush s e) := by
  unfold State.tsPush
  repeat' first
    | with_reducible first | assumption | apply State.ev_fr | apply State.count_fr | apply State.evWhen_fr | apply fr_ite
    | (extract_lets +onlyGivenNames x; refine fr_cut x ?_ ?_; (on_goal 2 => dsimp only [x]); (on_goal 1 => clear_value x; intro hx))
    | (extract_lets +onlyGivenNames x; fail_if_success (have : State := x); clear_value x)
    | exact MaskLe.trans (by decide +kernel) hM
    | (with_reducible refine fr_mk_tsLog (MaskLe.trans (by decide +kernel) hM) ?_; first | with_reducible assumption | with_reducible apply State.ev_fr | with_reducible apply State.count_fr | with_reducible apply State.evWhen_fr)
    | split
    | dsimp -zeta only
def fm_stampTx : Nat := fm_tsPush
theorem State.stampTx_fr {M s0} (s : State) (b : List Nat) (hM : MaskLe fm_stampTx M) (hs : Fr M s0 s) : Fr M s0 (State.stampTx s b).2 := by
  unfold State.stampTx
  repeat' first
    | with_reducible first | assumption | apply State.tsPush_fr | apply fr2_ite
    | (extract_lets +onlyGivenNames x; refine fr_cut x ?_ ?_; (on_goal 2 => dsimp only [x]); (on_goal 1 => clear_value x; intro hx))
    | (extract_lets +onlyGivenNames x; fail_if_success (have : State := x); clear_value x)
    | exact MaskLe.trans (by decide +kernel) hM
    | with_reducible apply fr2_pair
    | split
    | dsimp -zeta only
def fm_linePtp : Nat := fm_tsPush ||| fm_emit
theorem State.linePtp_fr {M s0} (s : State) (n : Nat) (p : LinePtp) (hM : MaskLe fm_linePtp M) (hs : Fr M s0 s) : Fr M s0 (State.linePtp s n p) := by
  unfold State.linePtp
  repeat' first
    | with_reducible first | assumption | apply State.tsPush_fr | apply State.emit_fr | apply fr_ite
    | (extract_lets +onlyGivenNames x; refine fr_cut x ?_ ?_; (on_goal 2 => dsimp only [x]); (on_goal 1 => clear_value x; intro hx))
    | (extract_lets +onlyGivenNames x; fail_if_success (have : State := x); clear_value x)
    | exact MaskLe.trans (by decide +kernel) hM
    | split
    | dsimp -zeta only
def fm_sdpStat : Nat := mTab T_SDP_STAT ||| mFld SDP_STAT_HALF_half ||| 2 ^ 79 ||| fm_ev
theorem State.sdpStat_fr {M s0} (s : State) (i : Nat) (hM : MaskLe fm_sdpStat M) (hs : Fr M s0 s) : Fr M s0 (State.sdpStat s i) := by
  unfold State.sdpStat
  repeat' first
    | with_reducible first | assumption | apply State.tcount_fr | apply State.ev_fr | apply State.wr_fr | apply fr_ite
    | (extract_lets +onlyGivenNames x; refine fr_cut x ?_ ?_; (on_goal 2 => dsimp only [x]); (on_goal 1 => clear_value x; intro hx))
    | (extract_lets +onlyGivenNames x; fail_if_success (have : State := x); clear_value x)
    | exact MaskLe.trans (by decide +kernel) hM
    | (with_reducible refine fr_mk_door (MaskLe.trans (by decide +kernel) hM) ?_; first | with_reducible assumption | with_reducible apply State.tcount_fr | with_reducible apply State.ev_fr | with_reducible apply State.wr_fr)
    | split
    | dsimp -zeta only
def fm_sdpGood : Nat := fm_sdpStat
theorem State.sdpGood_fr {M s0} (s : State) (base : Nat) (b : List Nat) (n : Nat) (hM : MaskLe fm_sdpGood M) (hs : Fr M s0 s) : Fr M s0 (State.sdpGood s base b n) := by
  unfold State.sdpGood
  repeat' first
    | with_reducible first | assumption | apply State.sdpStat_fr | apply fr_ite
    | exact MaskLe.trans (by decide +kernel) hM
    | split
    | dsimp -zeta only
def fm_sdpDark : Nat := mFld SDP_WAKE_STATUS_matched ||| mFld CBB_WAKE_CAUSE_filter_match ||| mFld CBB_WAKE_CAUSE_filter ||| 2 ^ 79 ||| mFld SDP_WAKE_STATUS_dark_rx ||| fm_setWake
theorem State.sdpDark_fr {M s0} (s : State) (b : List Nat) (hM : MaskLe fm_sdpDark M) (hs : Fr M s0 s) : Fr M s0 (State.sdpDark s b) := by
  unfold State.sdpDark
  repeat' first
    | (intro x)
    | with_reducible first | assumption | apply State.wr_fr | apply State.setWake_fr | apply State.countSat_fr | apply fr_ite | apply fr_foldl | apply fr_foldl2 | apply fr_foldl1
    | (extract_lets +onlyGivenNames x; refine fr_cut x ?_ ?_; (on_goal 2 => dsimp only [x]); (on_goal 1 => clear_value x; intro hx))
    | (extract_lets +onlyGivenNames x; fail_if_success (have : State := x); clear_value x)
    | exact MaskLe.trans (by decide +kernel) hM
    | (with_reducible refine fr_mk_door (MaskLe.trans (by decide +kernel) hM) ?_; first | with_reducible assumption | with_reducible apply State.wr_fr | with_reducible apply State.setWake_fr | with_reducible apply State.countSat_fr)
    | with_reducible apply fr_pair
    | split
    | dsimp -zeta only
def fm_hold : Nat := mFld SDP_STATUS_paused ||| 2 ^ 71
theorem State.hold_fr {M s0} (s : State) (c quanta : Nat) (hM : MaskLe fm_hold M) (hs : Fr M s0 s) : Fr M s0 (State.hold s c quanta) := by
  unfold State.hold
  repeat' first
    | with_reducible first | assumption | apply State.wr_fr | apply fr_ite
    | (extract_lets +onlyGivenNames x; refine fr_cut x ?_ ?_; (on_goal 2 => dsimp only [x]); (on_goal 1 => clear_value x; intro hx))
    | (extract_lets +onlyGivenNames x; fail_if_success (have : State := x); clear_value x)
    | exact MaskLe.trans (by decide +kernel) hM
    | (with_reducible refine fr_mk_sdpQuanta (MaskLe.trans (by decide +kernel) hM) ?_; first | with_reducible assumption | with_reducible apply State.wr_fr)
    | split
    | dsimp -zeta only
def fm_macControl : Nat := fm_sdpStat ||| fm_hold
theorem State.macControl_fr {M s0} (s : State) (b : List Nat) (hM : MaskLe fm_macControl M) (hs : Fr M s0 s) : Fr M s0 (State.macControl s b) := by
  unfold State.macControl
  repeat' first
    | (intro x)
    | with_reducible first | assumption | apply State.sdpStat_fr | apply State.hold_fr | apply fr_ite | apply fr_each
    | (extract_lets +onlyGivenNames x; refine fr_cut x ?_ ?_; (on_goal 2 => dsimp only [x]); (on_goal 1 => clear_value x; intro hx))
    | (extract_lets +onlyGivenNames x; fail_if_success (have : State := x); clear_value x)
    | exact MaskLe.trans (by decide +kernel) hM
    | with_reducible apply fr_pair
    | split
    | dsimp -zeta only
def fm_sdpDeliver : Nat := 2 ^ 63 ||| 2 ^ 62 ||| fm_sdpStat ||| fm_sdpGood ||| fm_ev
theorem State.sdpDeliver_fr {M s0} (s : State) (b : List Nat) (hM : MaskLe fm_sdpDeliver M) (hs : Fr M s0 s) : Fr M s0 (State.sdpDeliver s b) := by
  unfold State.sdpDeliver
  repeat' first
    | with_reducible first | assumption | apply State.sdpStat_fr | apply State.sdpGood_fr | apply State.ev_fr | apply fr_ite
    | (extract_lets +onlyGivenNames x; refine fr_cut x ?_ ?_; (on_goal 2 => dsimp only [x]); (on_goal 1 => clear_value x; intro hx))
    | (extract_lets +onlyGivenNames x; fail_if_success (have : State := x); clear_value x)
    | exact MaskLe.trans (by decide +kernel) hM
    | (with_reducible refine fr_mk_sdpRx1 (MaskLe.trans (by decide +kernel) hM) ?_; first | with_reducible assumption | with_reducible apply State.sdpStat_fr | with_reducible apply State.sdpGood_fr | with_reducible apply State.ev_fr)
    | (with_reducible refine fr_mk_sdpRx0 (MaskLe.trans (by decide +kernel) hM) ?_; first | with_reducible assumption | with_reducible apply State.sdpStat_fr | with_reducible apply State.sdpGood_fr | with_reducible apply State.ev_fr)
    | split
    | dsimp -zeta only
def fm_sdpReceive : Nat := fm_sdpDark ||| fm_evWhen ||| fm_sdpStat ||| fm_ev ||| fm_macControl ||| fm_sdpDeliver
theorem State.sdpReceive_fr {M s0} (s : State) (b : List Nat) (hM : MaskLe fm_sdpReceive M) (hs : Fr M s0 s) : Fr M s0 (State.sdpReceive s b) := by
  unfold State.sdpReceive
  repeat' first
    | with_reducible first | assumption | apply State.sdpDark_fr | apply State.evWhen_fr | apply State.sdpStat_fr | apply State.ev_fr | apply State.macControl_fr | apply State.sdpDeliver_fr | apply fr_ite
    | (extract_lets +onlyGivenNames x; refine fr_cut x ?_ ?_; (on_goal 2 => dsimp only [x]); (on_goal 1 => clear_value x; intro hx))
    | (extract_lets +onlyGivenNames x; fail_if_success (have : State := x); clear_value x)
    | exact MaskLe.trans (by decide +kernel) hM
    | split
    | dsimp -zeta only
def fm_sdpRxDesc : Nat := 2 ^ 62 ||| 2 ^ 63 ||| 2 ^ 64 ||| mFld SDP_RX_TS_sec ||| mFld SDP_RX_TS_ns ||| mFld SDP_RX_TS_quality
theorem State.sdpRxDesc_fr {M s0} (s : State) (w : Who) (hM : MaskLe fm_sdpRxDesc M) (hs : Fr M s0 s) : Fr M s0 (State.sdpRxDesc s w).2 := by
  unfold State.sdpRxDesc
  extract_lets rq q s1
  split
  · rename_i f rest e
    have h1 : Fr M s0 (if q = 0 then { s with sdpRx0 := rest } else { s with sdpRx1 := rest }) := fr_ite (fr_mk_sdpRx0 (MaskLe.trans (by decide +kernel) hM) hs) (fr_mk_sdpRx1 (MaskLe.trans (by decide +kernel) hM) hs)
    generalize (if q = 0 then { s with sdpRx0 := rest } else { s with sdpRx1 := rest } : State) = s2 at h1 ⊢
    extract_lets s3 s4 t s5
    have h4 : Fr M s0 s4 := fr_mk_sdpCur (MaskLe.trans (by decide +kernel) hM) h1
    clear_value s4
    have h5 : Fr M s0 s5 := State.wr_fr _ _ _ _ (MaskLe.trans (by decide +kernel) hM) (State.wr_fr _ _ _ _ (MaskLe.trans (by decide +kernel) hM) (State.wr_fr _ _ _ _ (MaskLe.trans (by decide +kernel) hM) h4))
    exact h5
  · exact fr_mk_sdpCur (MaskLe.trans (by decide +kernel) hM) hs
def fm_sdpRxData : Nat := 2 ^ 64
theorem State.sdpRxData_fr {M s0} (s : State) (w : Who) (hM : MaskLe fm_sdpRxData M) (hs : Fr M s0 s) : Fr M s0 (State.sdpRxData s w).2 := by
  unfold State.sdpRxData
  repeat' first
    | with_reducible first | assumption
    | (extract_lets +onlyGivenNames x; refine fr_cut x ?_ ?_; (on_goal 2 => dsimp only [x]); (on_goal 1 => clear_value x; intro hx))
    | (extract_lets +onlyGivenNames x; fail_if_success (have : State := x); clear_value x)
    | exact MaskLe.trans (by decide +kernel) hM
    | (with_reducible refine fr_mk_sdpCur (MaskLe.trans (by decide +kernel) hM) ?_; first | with_reducible assumption)
    | with_reducible apply fr2_pair
    | split
    | dsimp -zeta only
def fm_setTxq : Nat := 2 ^ 65
theorem State.setTxq_fr {M s0} (s : State) (q : Nat) (l : List TxFrame) (hM : MaskLe fm_setTxq M) (hs : Fr M s0 s) : Fr M s0 (State.setTxq s q l) := by
  unfold State.setTxq
  repeat' first
    | with_reducible first | assumption
    | exact MaskLe.trans (by decide +kernel) hM
    | (with_reducible refine fr_mk_sdpTx (MaskLe.trans (by decide +kernel) hM) ?_; first | with_reducible assumption)
    | dsimp -zeta only
def fm_txStatus : Nat := mFld SDP_TX_STATUS_code
theorem State.txStatus_fr {M s0} (s : State) (rq code : Nat) (hM : MaskLe fm_txStatus M) (hs : Fr M s0 s) : Fr M s0 (State.txStatus s rq code) := by
  unfold State.txStatus
  repeat' first
    | with_reducible first | assumption | apply State.wr_fr
    | exact MaskLe.trans (by decide +kernel) hM
    | dsimp -zeta only
def fm_txStatusOf : Nat := fm_txStatus
theorem State.txStatusOf_fr {M s0} (s : State) (rq id code : Nat) (hM : MaskLe fm_txStatusOf M) (hs : Fr M s0 s) : Fr M s0 (State.txStatusOf s rq id code) := by
  unfold State.txStatusOf
  repeat' first
    | with_reducible first | assumption | apply State.txStatus_fr | apply fr_ite
    | exact MaskLe.trans (by decide +kernel) hM
    | split
    | dsimp -zeta only
def fm_txFree : Nat := fm_ev ||| fm_sdpStat ||| fm_txStatusOf ||| fm_setTxq
theorem State.txFree_fr {M s0} (s : State) (q base k : Nat) (hM : MaskLe fm_txFree M) (hs : Fr M s0 s) : Fr M s0 (State.txFree s q base k) := by
  unfold State.txFree
  repeat' first
    | with_reducible first | assumption | apply State.ev_fr | apply State.sdpStat_fr | apply State.txStatusOf_fr | apply State.setTxq_fr
    | exact MaskLe.trans (by decide +kernel) hM
    | with_reducible apply fr_pair
    | split
    | dsimp -zeta only
def fm_txMakeRoom : Nat := fm_txFree
theorem State.txMakeRoom_fr {M s0} (s : State) (q need room : Nat) (n : Nat) (hM : MaskLe fm_txMakeRoom M) (hs : Fr M s0 s) : Fr M s0 (State.txMakeRoom s q need room n) := by
  induction n generalizing s with
  | zero => exact hs
  | succ n ih =>
  unfold State.txMakeRoom
  try dsimp -zeta only
  repeat' first
    | (intro x)
    | with_reducible first | assumption | apply State.txFree_fr | apply ih | apply fr_ite
    | exact MaskLe.trans (by decide +kernel) hM
    | with_reducible apply fr_pair
    | split
    | dsimp -zeta only
def fm_txAbort : Nat := 2 ^ 66 ||| fm_txStatusOf
theorem State.txAbort_fr {M s0} (s : State) (rq : Nat) (hM : MaskLe fm_txAbort M) (hs : Fr M s0 s) : Fr M s0 (State.txAbort s rq) := by
  unfold State.txAbort
  repeat' first
    | with_reducible first | assumption | apply State.txStatusOf_fr | apply fr_ite
    | (extract_lets +onlyGivenNames x; refine fr_cut x ?_ ?_; (on_goal 2 => dsimp only [x]); (on_goal 1 => clear_value x; intro hx))
    | (extract_lets +onlyGivenNames x; fail_if_success (have : State := x); clear_value x)
    | exact MaskLe.trans (by decide +kernel) hM
    | (with_reducible refine fr_mk_sdpWr (MaskLe.trans (by decide +kernel) hM) ?_; first | with_reducible assumption | with_reducible apply State.txStatusOf_fr)
    | split
    | dsimp -zeta only
def fm_txStart_ : Nat := 2 ^ 66 ||| 2 ^ 67 ||| 2 ^ 68 ||| fm_txAbort ||| fm_txStatus ||| fm_txMakeRoom ||| fm_setTxq
theorem State.txStart__fr {M s0} (s : State) (w : Who) (q len : Nat) (hM : MaskLe fm_txStart_ M) (hs : Fr M s0 s) : Fr M s0 (State.txStart_ s w q len) := by
  unfold State.txStart_
  repeat' first
    | (intro x)
    | with_reducible first | assumption | apply State.txAbort_fr | apply State.txStatus_fr | apply State.txMakeRoom_fr | apply State.setTxq_fr | apply fr_ite
    | (extract_lets +onlyGivenNames x; refine fr_cut x ?_ ?_; (on_goal 2 => dsimp only [x]); (on_goal 1 => clear_value x; intro hx))
    | (extract_lets +onlyGivenNames x; fail_if_success (have : State := x); clear_value x)
    | exact MaskLe.trans (by decide +kernel) hM
    | (with_reducible refine fr_mk_sdpWr_sdpLast_sdpStarts (MaskLe.trans (by decide +kernel) hM) ?_; first | with_reducible assumption | with_reducible apply State.txAbort_fr | with_reducible apply State.txStatus_fr | with_reducible apply State.txMakeRoom_fr | with_reducible apply State.setTxq_fr)
    | with_reducible apply fr_pair
    | split
    | dsimp -zeta only
def fm_txData : Nat := 2 ^ 66 ||| fm_txStatusOf ||| fm_setTxq
theorem State.txData_fr {M s0} (s : State) (w : Who) (v : Nat) (hM : MaskLe fm_txData M) (hs : Fr M s0 s) : Fr M s0 (State.txData s w v) := by
  unfold State.txData
  repeat' first
    | (intro x)
    | with_reducible first | assumption | apply State.txStatusOf_fr | apply State.setTxq_fr | apply fr_ite
    | (extract_lets +onlyGivenNames x; refine fr_cut x ?_ ?_; (on_goal 2 => dsimp only [x]); (on_goal 1 => clear_value x; intro hx))
    | (extract_lets +onlyGivenNames x; fail_if_success (have : State := x); clear_value x)
    | exact MaskLe.trans (by decide +kernel) hM
    | (with_reducible refine fr_mk_sdpWr (MaskLe.trans (by decide +kernel) hM) ?_; first | with_reducible assumption | with_reducible apply State.txStatusOf_fr | with_reducible apply State.setTxq_fr)
    | with_reducible apply fr_pair
    | split
    | dsimp -zeta only
def fm_ageHead : Nat := fm_txFree
theorem State.ageHead_fr {M s0} (s : State) (q : Nat) (spare : Bool) (n : Nat) (hM : MaskLe fm_ageHead M) (hs : Fr M s0 s) : Fr M s0 (State.ageHead s q spare n) := by
  induction n generalizing s with
  | zero => exact hs
  | succ n ih =>
  unfold State.ageHead
  try dsimp -zeta only
  repeat' first
    | with_reducible first | assumption | apply State.txFree_fr | apply ih | apply fr_ite
    | exact MaskLe.trans (by decide +kernel) hM
    | with_reducible apply fr_pair
    | split
    | dsimp -zeta only
def fm_ageHeads : Nat := fm_ageHead
theorem State.ageHeads_fr {M s0} (s : State) (spare : Bool) (hM : MaskLe fm_ageHeads M) (hs : Fr M s0 s) : Fr M s0 (State.ageHeads s spare) := by
  unfold State.ageHeads
  repeat' first
    | (intro x)
    | with_reducible first | assumption | apply State.ageHead_fr | apply fr_each
    | exact MaskLe.trans (by decide +kernel) hM
    | with_reducible apply fr_pair
    | dsimp -zeta only
def fm_sdpAgeScan : Nat := fm_ageHeads
theorem State.sdpAgeScan_fr {M s0} (s : State) (hM : MaskLe fm_sdpAgeScan M) (hs : Fr M s0 s) : Fr M s0 (State.sdpAgeScan s) := by
  unfold State.sdpAgeScan
  repeat' first
    | with_reducible first | assumption | apply State.ageHeads_fr
    | exact MaskLe.trans (by decide +kernel) hM
    | dsimp -zeta only
def fm_sdpTransmit : Nat := fm_ageHeads ||| fm_setTxq ||| fm_stampTx ||| fm_emit ||| fm_sdpGood
theorem State.sdpTransmit_fr {M s0} (s : State) (hM : MaskLe fm_sdpTransmit M) (hs : Fr M s0 s) : Fr M s0 (State.sdpTransmit s) := by
  unfold State.sdpTransmit
  repeat' first
    | with_reducible first | assumption | apply State.ageHeads_fr | apply State.setTxq_fr | apply State.stampTx_fr | apply State.emit_fr | apply State.sdpGood_fr | apply fr_ite
    | (extract_lets +onlyGivenNames x; refine fr_cut x ?_ ?_; (on_goal 2 => dsimp only [x]); (on_goal 1 => clear_value x; intro hx))
    | (extract_lets +onlyGivenNames x; fail_if_success (have : State := x); clear_value x)
    | exact MaskLe.trans (by decide +kernel) hM
    | with_reducible apply fr_pair
    | split
    | dsimp -zeta only
def fm_pauseExpiry : Nat := mFld SDP_STATUS_paused ||| 2 ^ 71
theorem State.pauseExpiry_fr {M s0} (s : State) (c : Nat) (hM : MaskLe fm_pauseExpiry M) (hs : Fr M s0 s) : Fr M s0 (State.pauseExpiry s c) := by
  unfold State.pauseExpiry
  repeat' first
    | with_reducible first | assumption | apply State.wr_fr
    | exact MaskLe.trans (by decide +kernel) hM
    | (with_reducible refine fr_mk_sdpQuanta (MaskLe.trans (by decide +kernel) hM) ?_; first | with_reducible assumption | with_reducible apply State.wr_fr)
    | dsimp -zeta only
def fm_pauseBreak : Nat := mFld SDP_STATUS_wd_ignore ||| fm_ev ||| fm_sdpStat ||| fm_pauseExpiry
theorem State.pauseBreak_fr {M s0} (s : State) (c : Nat) (hM : MaskLe fm_pauseBreak M) (hs : Fr M s0 s) : Fr M s0 (State.pauseBreak s c) := by
  unfold State.pauseBreak
  repeat' first
    | with_reducible first | assumption | apply State.ev_fr | apply State.sdpStat_fr | apply State.pauseExpiry_fr | apply State.wr_fr | apply fr_ite
    | (extract_lets +onlyGivenNames x; refine fr_cut x ?_ ?_; (on_goal 2 => dsimp only [x]); (on_goal 1 => clear_value x; intro hx))
    | (extract_lets +onlyGivenNames x; fail_if_success (have : State := x); clear_value x)
    | exact MaskLe.trans (by decide +kernel) hM
    | split
    | dsimp -zeta only
def fm_pauseIgnoreEnd : Nat := mFld SDP_STATUS_wd_ignore
theorem State.pauseIgnoreEnd_fr {M s0} (s : State) (c : Nat) (hM : MaskLe fm_pauseIgnoreEnd M) (hs : Fr M s0 s) : Fr M s0 (State.pauseIgnoreEnd s c) := by
  unfold State.pauseIgnoreEnd
  repeat' first
    | with_reducible first | assumption | apply State.wr_fr
    | exact MaskLe.trans (by decide +kernel) hM
    | dsimp -zeta only
def fm_halfRead : Nat := mFld SDP_STAT_HALF_half ||| fm_latchHi
theorem State.halfRead_fr {M s0} (s : State) (w : Who) (hM : MaskLe fm_halfRead M) (hs : Fr M s0 s) : Fr M s0 (State.halfRead s w).2 := by
  unfold State.halfRead
  repeat' first
    | with_reducible first | assumption | apply State.latchHi_fr | apply State.wr_fr | apply fr2_ite
    | (extract_lets +onlyGivenNames x; refine fr_cut x ?_ ?_; (on_goal 2 => dsimp only [x]); (on_goal 1 => clear_value x; intro hx))
    | (extract_lets +onlyGivenNames x; fail_if_success (have : State := x); clear_value x)
    | exact MaskLe.trans (by decide +kernel) hM
    | split
    | dsimp -zeta only
def fm_sdpLink : Nat := mFld SDP_STATUS_remote_fault ||| mFld SDP_STATUS_local_fault ||| mFld SDP_STATUS_link ||| fm_evWhen
theorem State.sdpLink_fr {M s0} (s : State) (lock local_ remote : Bool) (hM : MaskLe fm_sdpLink M) (hs : Fr M s0 s) : Fr M s0 (State.sdpLink s lock local_ remote) := by
  unfold State.sdpLink
  repeat' first
    | with_reducible first | assumption | apply State.evWhen_fr | apply State.wrb_fr | apply fr_ite
    | (extract_lets +onlyGivenNames x; refine fr_cut x ?_ ?_; (on_goal 2 => dsimp only [x]); (on_goal 1 => clear_value x; intro hx))
    | (extract_lets +onlyGivenNames x; fail_if_success (have : State := x); clear_value x)
    | exact MaskLe.trans (by decide +kernel) hM
    | split
    | dsimp -zeta only
def fm_sdpRunChange : Nat := mFld SDP_STATUS_cfg_err ||| 2 ^ 69 ||| 2 ^ 70 ||| mFld SDP_STATUS_link ||| fm_evWhen
theorem State.sdpRunChange_fr {M s0} (s : State) (on : Bool) (hM : MaskLe fm_sdpRunChange M) (hs : Fr M s0 s) : Fr M s0 (State.sdpRunChange s on) := by
  unfold State.sdpRunChange
  repeat' first
    | (intro x)
    | with_reducible first | assumption | apply State.wrb_fr | apply State.evWhen_fr | apply fr_ite
    | (extract_lets +onlyGivenNames x; refine fr_cut x ?_ ?_; (on_goal 2 => dsimp only [x]); (on_goal 1 => clear_value x; intro hx))
    | (extract_lets +onlyGivenNames x; fail_if_success (have : State := x); clear_value x)
    | exact MaskLe.trans (by decide +kernel) hM
    | (with_reducible refine fr_mk_sdpRows_sdpSpeed (MaskLe.trans (by decide +kernel) hM) ?_; first | with_reducible assumption | with_reducible apply State.wrb_fr | with_reducible apply State.evWhen_fr)
    | with_reducible apply fr_pair
    | split
    | dsimp -zeta only
def fm_cbbDrive : Nat := mFld CBB_collisions ||| mFld CBB_tx_frames ||| fm_emit
theorem State.cbbDrive_fr {M s0} (s : State) (dst typ : Nat) (payload : List Nat) (collides : Bool) (hM : MaskLe fm_cbbDrive M) (hs : Fr M s0 s) : Fr M s0 (State.cbbDrive s dst typ payload collides).2 := by
  unfold State.cbbDrive
  repeat' first
    | with_reducible first | assumption | apply State.count_fr | apply State.emit_fr | apply fr2_ite
    | exact MaskLe.trans (by decide +kernel) hM
    | split
    | dsimp -zeta only
def fm_cbbSendWaiting : Nat := mFld CBB_TX_STATUS_code ||| 2 ^ 72 ||| fm_cbbDrive ||| fm_ev
theorem State.cbbSendWaiting_fr {M s0} (s : State) (collides : Bool) (hM : MaskLe fm_cbbSendWaiting M) (hs : Fr M s0 s) : Fr M s0 (State.cbbSendWaiting s collides) := by
  unfold State.cbbSendWaiting
  repeat' first
    | with_reducible first | assumption | apply State.cbbDrive_fr | apply State.ev_fr | apply State.wr_fr | apply fr_ite
    | (extract_lets +onlyGivenNames x; refine fr_cut x ?_ ?_; (on_goal 2 => dsimp only [x]); (on_goal 1 => clear_value x; intro hx))
    | (extract_lets +onlyGivenNames x; fail_if_success (have : State := x); clear_value x)
    | exact MaskLe.trans (by decide +kernel) hM
    | (with_reducible refine fr_mk_cbbTx (MaskLe.trans (by decide +kernel) hM) ?_; first | with_reducible assumption | with_reducible apply State.cbbDrive_fr | with_reducible apply State.ev_fr | with_reducible apply State.wr_fr)
    | with_reducible apply fr_pair
    | split
    | dsimp -zeta only
def fm_cbbReply : Nat := fm_cbbSendWaiting ||| fm_cbbDrive
theorem State.cbbReply_fr {M s0} (s : State) (src : Nat) (collides : Bool) (hM : MaskLe fm_cbbReply M) (hs : Fr M s0 s) : Fr M s0 (State.cbbReply s src collides) := by
  unfold State.cbbReply
  repeat' first
    | with_reducible first | assumption | apply State.cbbSendWaiting_fr | apply State.cbbDrive_fr | apply fr_ite
    | exact MaskLe.trans (by decide +kernel) hM
    | split
    | dsimp -zeta only
def fm_passToken : Nat := mFld CBB_BUS_token_held ||| 2 ^ 76 ||| fm_cbbDrive
theorem State.passToken_fr {M s0} (s : State) (from_ : Nat) (hM : MaskLe fm_passToken M) (hs : Fr M s0 s) : Fr M s0 (State.passToken s from_) := by
  unfold State.passToken
  repeat' first
    | with_reducible first | assumption | apply State.cbbDrive_fr | apply State.wrb_fr
    | (extract_lets +onlyGivenNames x; refine fr_cut x ?_ ?_; (on_goal 2 => dsimp only [x]); (on_goal 1 => clear_value x; intro hx))
    | (extract_lets +onlyGivenNames x; fail_if_success (have : State := x); clear_value x)
    | exact MaskLe.trans (by decide +kernel) hM
    | (with_reducible refine fr_mk_cbbNext (MaskLe.trans (by decide +kernel) hM) ?_; first | with_reducible assumption | with_reducible apply State.cbbDrive_fr | with_reducible apply State.wrb_fr)
    | with_reducible apply fr_pair
    | split
    | dsimp -zeta only
def fm_holdToken : Nat := mFld CBB_BUS_token_held ||| fm_passToken ||| fm_cbbSendWaiting
theorem State.holdToken_fr {M s0} (s : State) (collides : Bool) (hM : MaskLe fm_holdToken M) (hs : Fr M s0 s) : Fr M s0 (State.holdToken s collides) := by
  unfold State.holdToken
  repeat' first
    | with_reducible first | assumption | apply State.passToken_fr | apply State.cbbSendWaiting_fr | apply State.wrb_fr
    | exact MaskLe.trans (by decide +kernel) hM
    | dsimp -zeta only
def fm_sendBeacon : Nat := 2 ^ 79 ||| mFld CBB_beacons_tx ||| 2 ^ 77 ||| fm_cbbDrive
theorem State.sendBeacon_fr {M s0} (s : State) (collides : Bool) (hM : MaskLe fm_sendBeacon M) (hs : Fr M s0 s) : Fr M s0 (State.sendBeacon s collides) := by
  unfold State.sendBeacon
  have h1 := State.cbbDrive_fr s s.cbbMate cbBeacon s.beaconPayload collides (MaskLe.trans (by decide +kernel) hM) hs
  generalize s.cbbDrive s.cbbMate cbBeacon s.beaconPayload collides = p at h1 ⊢
  obtain ⟨ok, s1⟩ := p
  dsimp -zeta only at h1 ⊢
  extract_lets x s2
  have h2 : Fr M s0 s2 := fr_mk_door (MaskLe.trans (by decide +kernel) hM) h1
  clear_value s2
  exact fr_ite (State.count_fr _ _ _ _ (MaskLe.trans (by decide +kernel) hM) (fr_mk_cbbSeq (MaskLe.trans (by decide +kernel) hM) h2)) h2
def fm_beaconSend : Nat := fm_sendBeacon
theorem State.beaconSend_fr {M s0} (s : State) (collides : Bool) (hM : MaskLe fm_beaconSend M) (hs : Fr M s0 s) : Fr M s0 (State.beaconSend s collides) := by
  unfold State.beaconSend
  repeat' first
    | with_reducible first | assumption | apply State.sendBeacon_fr | apply fr_ite
    | exact MaskLe.trans (by decide +kernel) hM
    | split
    | dsimp -zeta only
def fm_beaconHeard : Nat := mFld CBB_beacons_rx ||| 2 ^ 78 ||| 2 ^ 79 ||| mFld CBB_CC_STATUS_state ||| mFld CBB_CC_STATUS_offset ||| mFld CBB_CC_STATUS_misses ||| fm_sendBeacon ||| fm_evWhen
theorem State.beaconHeard_fr {M s0} (s : State) (x : CbbRx) (hM : MaskLe fm_beaconHeard M) (hs : Fr M s0 s) : Fr M s0 (State.beaconHeard s x) := by
  unfold State.beaconHeard
  repeat' first
    | with_reducible first | assumption | apply State.count_fr | apply State.wr_fr | apply State.sendBeacon_fr | apply State.evWhen_fr | apply fr_ite
    | (extract_lets +onlyGivenNames x; refine fr_cut x ?_ ?_; (on_goal 2 => dsimp only [x]); (on_goal 1 => clear_value x; intro hx))
    | (extract_lets +onlyGivenNames x; fail_if_success (have : State := x); clear_value x)
    | exact MaskLe.trans (by decide +kernel) hM
    | (with_reducible refine fr_mk_cbbHeard_door (MaskLe.trans (by decide +kernel) hM) ?_; first | with_reducible assumption | with_reducible apply State.count_fr | with_reducible apply State.wr_fr | with_reducible apply State.sendBeacon_fr | with_reducible apply State.evWhen_fr)
    | split
    | dsimp -zeta only
def fm_windowClose : Nat := 2 ^ 79 ||| 2 ^ 78 ||| mFld CBB_misses ||| mFld CBB_CC_STATUS_misses ||| mFld CBB_open_house ||| mFld CBB_CC_STATUS_state ||| fm_ev
theorem State.windowClose_fr {M s0} (s : State) (hM : MaskLe fm_windowClose M) (hs : Fr M s0 s) : Fr M s0 (State.windowClose s) := by
  unfold State.windowClose
  repeat' first
    | with_reducible first | assumption | apply State.count_fr | apply State.wr_fr | apply State.ev_fr | apply fr_ite
    | (extract_lets +onlyGivenNames x; refine fr_cut x ?_ ?_; (on_goal 2 => dsimp only [x]); (on_goal 1 => clear_value x; intro hx))
    | (extract_lets +onlyGivenNames x; fail_if_success (have : State := x); clear_value x)
    | exact MaskLe.trans (by decide +kernel) hM
    | (with_reducible refine fr_mk_door (MaskLe.trans (by decide +kernel) hM) ?_; first | with_reducible assumption | with_reducible apply State.count_fr | with_reducible apply State.wr_fr | with_reducible apply State.ev_fr)
    | (with_reducible refine fr_mk_cbbHeard_door (MaskLe.trans (by decide +kernel) hM) ?_; first | with_reducible assumption | with_reducible apply State.count_fr | with_reducible apply State.wr_fr | with_reducible apply State.ev_fr)
    | split
    | dsimp -zeta only
def fm_partnerLost : Nat := mFld CBB_WAKE_CAUSE_partner_lost ||| mFld CBB_lost ||| mFld CBB_CC_STATUS_state ||| fm_setWake ||| fm_ev
theorem State.partnerLost_fr {M s0} (s : State) (hM : MaskLe fm_partnerLost M) (hs : Fr M s0 s) : Fr M s0 (State.partnerLost s) := by
  unfold State.partnerLost
  repeat' first
    | with_reducible first | assumption | apply State.setWake_fr | apply State.ev_fr | apply State.count_fr | apply State.wr_fr | apply fr_ite
    | exact MaskLe.trans (by decide +kernel) hM
    | split
    | dsimp -zeta only
def fm_ccConfig : Nat := mFld CBB_CC_STATUS_leader ||| mFld CBB_CC_STATUS_misses ||| mFld CBB_CC_STATUS_state ||| 2 ^ 78 ||| 2 ^ 79
theorem State.ccConfig_fr {M s0} (s : State) (hM : MaskLe fm_ccConfig M) (hs : Fr M s0 s) : Fr M s0 (State.ccConfig s) := by
  unfold State.ccConfig
  repeat' first
    | with_reducible first | assumption | apply State.wrb_fr | apply State.wr_fr | apply fr_ite
    | (extract_lets +onlyGivenNames x; refine fr_cut x ?_ ?_; (on_goal 2 => dsimp only [x]); (on_goal 1 => clear_value x; intro hx))
    | (extract_lets +onlyGivenNames x; fail_if_success (have : State := x); clear_value x)
    | exact MaskLe.trans (by decide +kernel) hM
    | (with_reducible refine fr_mk_cbbHeard_door (MaskLe.trans (by decide +kernel) hM) ?_; first | with_reducible assumption | with_reducible apply State.wrb_fr | with_reducible apply State.wr_fr)
    | split
    | dsimp -zeta only
def fm_cbbQueue : Nat := 2 ^ 73 ||| mFld CBB_rx_lost ||| fm_ev
theorem State.cbbQueue_fr {M s0} (s : State) (f : CbbFrame) (hM : MaskLe fm_cbbQueue M) (hs : Fr M s0 s) : Fr M s0 (State.cbbQueue s f) := by
  unfold State.cbbQueue
  repeat' first
    | with_reducible first | assumption | apply State.ev_fr | apply State.count_fr | apply fr_ite
    | (extract_lets +onlyGivenNames x; refine fr_cut x ?_ ?_; (on_goal 2 => dsimp only [x]); (on_goal 1 => clear_value x; intro hx))
    | (extract_lets +onlyGivenNames x; fail_if_success (have : State := x); clear_value x)
    | exact MaskLe.trans (by decide +kernel) hM
    | (with_reducible refine fr_mk_cbbRx (MaskLe.trans (by decide +kernel) hM) ?_; first | with_reducible assumption | with_reducible apply State.ev_fr | with_reducible apply State.count_fr)
    | split
    | dsimp -zeta only
def fm_heardPoll : Nat := mFld CBB_BUS_token_held ||| mFld CBB_BUS_state ||| 2 ^ 76 ||| 2 ^ 79 ||| fm_evWhen
theorem State.heardPoll_fr {M s0} (s : State) (hM : MaskLe fm_heardPoll M) (hs : Fr M s0 s) : Fr M s0 (State.heardPoll s) := by
  unfold State.heardPoll
  repeat' first
    | with_reducible first | assumption | apply State.evWhen_fr | apply State.wrb_fr | apply State.wr_fr
    | (extract_lets +onlyGivenNames x; refine fr_cut x ?_ ?_; (on_goal 2 => dsimp only [x]); (on_goal 1 => clear_value x; intro hx))
    | (extract_lets +onlyGivenNames x; fail_if_success (have : State := x); clear_value x)
    | exact MaskLe.trans (by decide +kernel) hM
    | (with_reducible refine fr_mk_cbbNext_door (MaskLe.trans (by decide +kernel) hM) ?_; first | with_reducible assumption | with_reducible apply State.evWhen_fr | with_reducible apply State.wrb_fr | with_reducible apply State.wr_fr)
    | dsimp -zeta only
def fm_cbbReceive : Nat := mFld CBB_rx_bad ||| mFld CBB_rx_frames ||| 2 ^ 75 ||| 2 ^ 76 ||| mFld CBB_WAKE_CAUSE_cbb_wake ||| fm_heardPoll ||| fm_cbbReply ||| fm_cbbQueue ||| fm_holdToken ||| fm_beaconHeard ||| fm_setWake
theorem State.cbbReceive_fr {M s0} (s : State) (x : CbbRx) (hM : MaskLe fm_cbbReceive M) (hs : Fr M s0 s) : Fr M s0 (State.cbbReceive s x) := by
  unfold State.cbbReceive
  repeat' first
    | (intro x)
    | with_reducible first | assumption | apply State.count_fr | apply State.heardPoll_fr | apply State.cbbReply_fr | apply State.cbbQueue_fr | apply State.holdToken_fr | apply State.beaconHeard_fr | apply State.setWake_fr | apply fr_ite
    | (extract_lets +onlyGivenNames x; refine fr_cut x ?_ ?_; (on_goal 2 => dsimp only [x]); (on_goal 1 => clear_value x; intro hx))
    | (extract_lets +onlyGivenNames x; fail_if_success (have : State := x); clear_value x)
    | exact MaskLe.trans (by decide +kernel) hM
    | (with_reducible refine fr_mk_cbbRing_cbbNext (MaskLe.trans (by decide +kernel) hM) ?_; first | with_reducible assumption | with_reducible apply State.count_fr | with_reducible apply State.heardPoll_fr | with_reducible apply State.cbbReply_fr | with_reducible apply State.cbbQueue_fr | with_reducible apply State.holdToken_fr | with_reducible apply State.beaconHeard_fr | with_reducible apply State.setWake_fr)
    | with_reducible apply fr_pair
    | split
    | dsimp -zeta only
def fm_cbbSend : Nat := mFld CBB_TX_STATUS_code ||| 2 ^ 72
theorem State.cbbSend_fr {M s0} (s : State) (w : Who) (typ dst len : Nat) (hM : MaskLe fm_cbbSend M) (hs : Fr M s0 s) : Fr M s0 (State.cbbSend s w typ dst len) := by
  unfold State.cbbSend
  repeat' first
    | with_reducible first | assumption | apply State.wr_fr | apply fr_ite
    | (extract_lets +onlyGivenNames x; refine fr_cut x ?_ ?_; (on_goal 2 => dsimp only [x]); (on_goal 1 => clear_value x; intro hx))
    | (extract_lets +onlyGivenNames x; fail_if_success (have : State := x); clear_value x)
    | exact MaskLe.trans (by decide +kernel) hM
    | (with_reducible refine fr_mk_cbbTx (MaskLe.trans (by decide +kernel) hM) ?_; first | with_reducible assumption | with_reducible apply State.wr_fr)
    | split
    | dsimp -zeta only
def fm_cbbData : Nat := 2 ^ 72
theorem State.cbbData_fr {M s0} (s : State) (w : Who) (v : Nat) (hM : MaskLe fm_cbbData M) (hs : Fr M s0 s) : Fr M s0 (State.cbbData s w v) := by
  unfold State.cbbData
  repeat' first
    | (intro x)
    | with_reducible first | assumption | apply fr_ite
    | (extract_lets +onlyGivenNames x; refine fr_cut x ?_ ?_; (on_goal 2 => dsimp only [x]); (on_goal 1 => clear_value x; intro hx))
    | (extract_lets +onlyGivenNames x; fail_if_success (have : State := x); clear_value x)
    | exact MaskLe.trans (by decide +kernel) hM
    | (with_reducible refine fr_mk_cbbTx (MaskLe.trans (by decide +kernel) hM) ?_; first | with_reducible assumption)
    | with_reducible apply fr_pair
    | split
    | dsimp -zeta only
def fm_cbbAbort : Nat := mFld CBB_TX_STATUS_code ||| 2 ^ 72
theorem State.cbbAbort_fr {M s0} (s : State) (w : Who) (hM : MaskLe fm_cbbAbort M) (hs : Fr M s0 s) : Fr M s0 (State.cbbAbort s w) := by
  unfold State.cbbAbort
  repeat' first
    | with_reducible first | assumption | apply State.wr_fr | apply fr_ite
    | (extract_lets +onlyGivenNames x; refine fr_cut x ?_ ?_; (on_goal 2 => dsimp only [x]); (on_goal 1 => clear_value x; intro hx))
    | (extract_lets +onlyGivenNames x; fail_if_success (have : State := x); clear_value x)
    | exact MaskLe.trans (by decide +kernel) hM
    | (with_reducible refine fr_mk_cbbTx (MaskLe.trans (by decide +kernel) hM) ?_; first | with_reducible assumption | with_reducible apply State.wr_fr)
    | with_reducible apply fr_pair
    | split
    | dsimp -zeta only
def fm_cbbTimeout : Nat := mFld CBB_tx_dropped ||| mFld CBB_TX_STATUS_code ||| 2 ^ 72
theorem State.cbbTimeout_fr {M s0} (s : State) (hM : MaskLe fm_cbbTimeout M) (hs : Fr M s0 s) : Fr M s0 (State.cbbTimeout s) := by
  unfold State.cbbTimeout
  repeat' first
    | with_reducible first | assumption | apply State.count_fr | apply State.wr_fr
    | exact MaskLe.trans (by decide +kernel) hM
    | (with_reducible refine fr_mk_cbbTx (MaskLe.trans (by decide +kernel) hM) ?_; first | with_reducible assumption | with_reducible apply State.count_fr | with_reducible apply State.wr_fr)
    | with_reducible apply fr_pair
    | split
    | dsimp -zeta only
def fm_cbbRxDesc : Nat := 2 ^ 73 ||| 2 ^ 74
theorem State.cbbRxDesc_fr {M s0} (s : State) (w : Who) (hM : MaskLe fm_cbbRxDesc M) (hs : Fr M s0 s) : Fr M s0 (State.cbbRxDesc s w).2 := by
  unfold State.cbbRxDesc
  repeat' first
    | with_reducible first | assumption
    | (extract_lets +onlyGivenNames x; refine fr_cut x ?_ ?_; (on_goal 2 => dsimp only [x]); (on_goal 1 => clear_value x; intro hx))
    | (extract_lets +onlyGivenNames x; fail_if_success (have : State := x); clear_value x)
    | exact MaskLe.trans (by decide +kernel) hM
    | (with_reducible refine fr_mk_cbbRx_cbbCur (MaskLe.trans (by decide +kernel) hM) ?_; first | with_reducible assumption)
    | (with_reducible refine fr_mk_cbbCur (MaskLe.trans (by decide +kernel) hM) ?_; first | with_reducible assumption)
    | with_reducible apply fr2_pair
    | split
    | dsimp -zeta only
def fm_cbbRxData : Nat := 2 ^ 74
theorem State.cbbRxData_fr {M s0} (s : State) (w : Who) (hM : MaskLe fm_cbbRxData M) (hs : Fr M s0 s) : Fr M s0 (State.cbbRxData s w).2 := by
  unfold State.cbbRxData
  repeat' first
    | with_reducible first | assumption
    | (extract_lets +onlyGivenNames x; refine fr_cut x ?_ ?_; (on_goal 2 => dsimp only [x]); (on_goal 1 => clear_value x; intro hx))
    | (extract_lets +onlyGivenNames x; fail_if_success (have : State := x); clear_value x)
    | exact MaskLe.trans (by decide +kernel) hM
    | (with_reducible refine fr_mk_cbbCur (MaskLe.trans (by decide +kernel) hM) ?_; first | with_reducible assumption)
    | with_reducible apply fr2_pair
    | split
    | dsimp -zeta only
def fm_masterLost : Nat := mFld CBB_BUS_state ||| fm_ev
theorem State.masterLost_fr {M s0} (s : State) (hM : MaskLe fm_masterLost M) (hs : Fr M s0 s) : Fr M s0 (State.masterLost s) := by
  unfold State.masterLost
  repeat' first
    | with_reducible first | assumption | apply State.ev_fr | apply State.wr_fr | apply fr_ite
    | exact MaskLe.trans (by decide +kernel) hM
    | split
    | dsimp -zeta only
def fm_tokenRegen : Nat := mFld CBB_token_regen ||| fm_holdToken
theorem State.tokenRegen_fr {M s0} (s : State) (collides : Bool) (hM : MaskLe fm_tokenRegen M) (hs : Fr M s0 s) : Fr M s0 (State.tokenRegen s collides) := by
  unfold State.tokenRegen
  repeat' first
    | with_reducible first | assumption | apply State.holdToken_fr | apply State.count_fr | apply fr_ite
    | exact MaskLe.trans (by decide +kernel) hM
    | split
    | dsimp -zeta only
def fm_successorLost : Nat := 2 ^ 75 ||| 2 ^ 76 ||| fm_passToken
theorem State.successorLost_fr {M s0} (s : State) (hM : MaskLe fm_successorLost M) (hs : Fr M s0 s) : Fr M s0 (State.successorLost s) := by
  unfold State.successorLost
  repeat' first
    | (intro x)
    | with_reducible first | assumption | apply State.passToken_fr | apply fr_ite
    | exact MaskLe.trans (by decide +kernel) hM
    | (with_reducible refine fr_mk_cbbRing_cbbNext (MaskLe.trans (by decide +kernel) hM) ?_; first | with_reducible assumption | with_reducible apply State.passToken_fr)
    | with_reducible apply fr_pair
    | split
    | dsimp -zeta only
def fm_tbTo : Nat := 2 ^ 29
theorem State.tbTo_fr {M s0} (s : State) (ns : Nat) (hM : MaskLe fm_tbTo M) (hs : Fr M s0 s) : Fr M s0 (State.tbTo s ns) := by
  unfold State.tbTo
  split
  · rename_i c; exact fr_tb (MaskLe.trans (by decide +kernel) hM) hs (fun k => ⟨k.1, c.2, k.2.2⟩)
  · exact hs
def fm_tbIncr : Nat := fm_divFree ||| fm_free
theorem State.tbIncr_fr {M s0} (s : State) (hM : MaskLe fm_tbIncr M) (hs : Fr M s0 s) : Fr M s0 (State.tbIncr s).2 := by
  unfold State.tbIncr
  repeat' first
    | with_reducible first | assumption | apply State.divFree_fr | apply State.free_fr | apply fr2_ite
    | (extract_lets +onlyGivenNames x; refine fr_cut x ?_ ?_; (on_goal 2 => dsimp only [x]); (on_goal 1 => clear_value x; intro hx))
    | (extract_lets +onlyGivenNames x; fail_if_success (have : State := x); clear_value x)
    | exact MaskLe.trans (by decide +kernel) hM
    | with_reducible apply fr2_pair
    | split
    | dsimp -zeta only
def fm_timRefresh : Nat := mFld TIM_STATUS_active ||| 2 ^ 82 ||| mFld TIM_STATUS_quality ||| fm_ev
theorem State.timRefresh_fr {M s0} (s : State) (hM : MaskLe fm_timRefresh M) (hs : Fr M s0 s) : Fr M s0 (State.timRefresh s) := by
  unfold State.timRefresh
  repeat' first
    | with_reducible first | assumption | apply State.wr_fr | apply State.ev_fr | apply fr_ite
    | (extract_lets +onlyGivenNames x; refine fr_cut x ?_ ?_; (on_goal 2 => dsimp only [x]); (on_goal 1 => clear_value x; intro hx))
    | (extract_lets +onlyGivenNames x; fail_if_success (have : State := x); clear_value x)
    | exact MaskLe.trans (by decide +kernel) hM
    | (with_reducible refine fr_mk_tim (MaskLe.trans (by decide +kernel) hM) ?_; first | with_reducible assumption | with_reducible apply State.wr_fr | with_reducible apply State.ev_fr)
    | split
    | dsimp -zeta only
def fm_setSigma : Nat := mFld TIM_STATUS_slewing ||| 2 ^ 82
theorem State.setSigma_fr {M s0} (s : State) (rho sigma : Int) (hM : MaskLe fm_setSigma M) (hs : Fr M s0 s) : Fr M s0 (State.setSigma s rho sigma) := by
  unfold State.setSigma
  repeat' first
    | with_reducible first | assumption | apply State.wrb_fr
    | exact MaskLe.trans (by decide +kernel) hM
    | (with_reducible refine fr_mk_tim (MaskLe.trans (by decide +kernel) hM) ?_; first | with_reducible assumption | with_reducible apply State.wrb_fr)
    | dsimp -zeta only
def fm_shiftTime : Nat := 2 ^ 29 ||| 2 ^ 81 ||| 2 ^ 83
theorem State.shiftTime_fr {M s0} (s : State) (d : Int) (hM : MaskLe fm_shiftTime M) (hs : Fr M s0 s) : Fr M s0 (State.shiftTime s d) := by
  unfold State.shiftTime
  extract_lets t mv x s1 s2
  have h1 : Fr M s0 s1 := by
    refine fr_tb (MaskLe.trans (by decide +kernel) hM) hs (fun k => ⟨?_, ?_, k.2.2⟩)
    · show t / 1000000000 < 2 ^ 48
      have : (s.tbNs + d) % (2 ^ 48 * secNs) < 2 ^ 48 * secNs := Int.emod_lt_of_pos _ (by decide)
      have h0 : 0 ≤ (s.tbNs + d) % (2 ^ 48 * secNs) := Int.emod_nonneg _ (by decide)
      have e : (2 ^ 48 * secNs : Int) = 281474976710656000000000 := by decide
      unfold t; omega
    · exact Nat.mod_lt _ (by decide)
  clear_value s1
  exact fr_mk_ppsOutLast (MaskLe.trans (by decide +kernel) hM) (fr_mk_pps (MaskLe.trans (by decide +kernel) hM) h1)
def fm_stepTime : Nat := 2 ^ 40 ||| mFld TIM_STATUS_time_set ||| mFld TIM_STEPS ||| fm_shiftTime ||| fm_ev
theorem State.stepTime_fr {M s0} (s : State) (d : Int) (hM : MaskLe fm_stepTime M) (hs : Fr M s0 s) : Fr M s0 (State.stepTime s d) := by
  unfold State.stepTime
  repeat' first
    | with_reducible first | assumption | apply State.shiftTime_fr | apply State.ev_fr | apply State.wrb_fr | apply State.count_fr
    | (extract_lets +onlyGivenNames x; refine fr_cut x ?_ ?_; (on_goal 2 => dsimp only [x]); (on_goal 1 => clear_value x; intro hx))
    | (extract_lets +onlyGivenNames x; fail_if_success (have : State := x); clear_value x)
    | exact MaskLe.trans (by decide +kernel) hM
    | (with_reducible refine fr_mk_tbStepped (MaskLe.trans (by decide +kernel) hM) ?_; first | with_reducible assumption | with_reducible apply State.shiftTime_fr | with_reducible apply State.ev_fr | with_reducible apply State.wrb_fr | with_reducible apply State.count_fr)
    | dsimp -zeta only
def fm_stepSoon : Nat := 2 ^ 82 ||| fm_stepTime
theorem State.stepSoon_fr {M s0} (s : State) (d : Int) (hM : MaskLe fm_stepSoon M) (hs : Fr M s0 s) : Fr M s0 (State.stepSoon s d) := by
  unfold State.stepSoon
  repeat' first
    | with_reducible first | assumption | apply State.stepTime_fr | apply fr_ite
    | exact MaskLe.trans (by decide +kernel) hM
    | (with_reducible refine fr_mk_tim (MaskLe.trans (by decide +kernel) hM) ?_; first | with_reducible assumption | with_reducible apply State.stepTime_fr)
    | split
    | dsimp -zeta only
def fm_stepNow : Nat := 2 ^ 82 ||| fm_stepTime
theorem State.stepNow_fr {M s0} (s : State) (hM : MaskLe fm_stepNow M) (hs : Fr M s0 s) : Fr M s0 (State.stepNow s) := by
  unfold State.stepNow
  repeat' first
    | with_reducible first | assumption | apply State.stepTime_fr
    | exact MaskLe.trans (by decide +kernel) hM
    | (with_reducible refine fr_mk_tim (MaskLe.trans (by decide +kernel) hM) ?_; first | with_reducible assumption | with_reducible apply State.stepTime_fr)
    | with_reducible apply fr_pair
    | split
    | dsimp -zeta only
def fm_slewTick : Nat := 2 ^ 82 ||| fm_setSigma
theorem State.slewTick_fr {M s0} (s : State) (hM : MaskLe fm_slewTick M) (hs : Fr M s0 s) : Fr M s0 (State.slewTick s) := by
  unfold State.slewTick
  repeat' first
    | with_reducible first | assumption | apply State.setSigma_fr | apply fr_ite
    | (extract_lets +onlyGivenNames x; refine fr_cut x ?_ ?_; (on_goal 2 => dsimp only [x]); (on_goal 1 => clear_value x; intro hx))
    | (extract_lets +onlyGivenNames x; fail_if_success (have : State := x); clear_value x)
    | exact MaskLe.trans (by decide +kernel) hM
    | (with_reducible refine fr_mk_tim (MaskLe.trans (by decide +kernel) hM) ?_; first | with_reducible assumption | with_reducible apply State.setSigma_fr)
    | split
    | dsimp -zeta only
def fm_newPhi : Nat := mFld TIM_STATUS_freq_limit ||| mFld TIM_FREQ_value ||| 2 ^ 82 ||| mFld TIM_FREQ_AVG_value ||| fm_free ||| fm_evWhen ||| fm_divFree
theorem State.newPhi_fr {M s0} (s : State) (hM : MaskLe fm_newPhi M) (hs : Fr M s0 s) : Fr M s0 (State.newPhi s) := by
  unfold State.newPhi
  repeat' first
    | with_reducible first | assumption | apply State.free_fr | apply State.wrb_fr | apply State.wr_fr | apply State.evWhen_fr | apply State.divFree_fr | apply fr_foldl | apply fr_foldl2 | apply fr_foldl1
    | (extract_lets +onlyGivenNames x; refine fr_cut x ?_ ?_; (on_goal 2 => dsimp only [x]); (on_goal 1 => clear_value x; intro hx))
    | (extract_lets +onlyGivenNames x; fail_if_success (have : State := x); clear_value x)
    | exact MaskLe.trans (by decide +kernel) hM
    | (with_reducible refine fr_mk_tim (MaskLe.trans (by decide +kernel) hM) ?_; first | with_reducible assumption | with_reducible apply State.free_fr | with_reducible apply State.wrb_fr | with_reducible apply State.wr_fr | with_reducible apply State.evWhen_fr | with_reducible apply State.divFree_fr)
    | with_reducible apply fr_pair
    | split
    | dsimp -zeta only
def fm_discipline : Nat := mFld TIM_OFFSET_value ||| 2 ^ 82 ||| fm_newPhi ||| fm_stepSoon ||| fm_setSigma ||| fm_timRefresh
theorem State.discipline_fr {M s0} (s : State) (theta : Int) (hM : MaskLe fm_discipline M) (hs : Fr M s0 s) : Fr M s0 (State.discipline s theta) := by
  unfold State.discipline
  extract_lets s1 s2 run t s3 s4 src s5
  have h1 : Fr M s0 s1 := State.wr_fr _ _ _ _ (MaskLe.trans (by decide +kernel) hM) hs
  clear_value s1
  have h2 : Fr M s0 s2 := State.newPhi_fr _ (MaskLe.trans (by decide +kernel) hM) h1
  clear_value s2
  have h3 : Fr M s0 s3 := fr_mk_tim (MaskLe.trans (by decide +kernel) hM) h2
  clear_value s3
  have h4 : Fr M s0 s4 := State.stepSoon_fr _ _ (MaskLe.trans (by decide +kernel) hM) (State.setSigma_fr _ _ _ (MaskLe.trans (by decide +kernel) hM) h3)
  clear_value src
  clear_value s4
  have h5 : Fr M s0 s5 := fr_ite (fr_mk_tim (MaskLe.trans (by decide +kernel) hM) h4) (State.setSigma_fr _ _ _ (MaskLe.trans (by decide +kernel) hM) h3)
  clear_value s5
  exact State.timRefresh_fr _ (MaskLe.trans (by decide +kernel) hM) h5
def fm_todEdge : Nat := 2 ^ 82 ||| mFld TIM_STATUS_tod_ok ||| fm_ev
theorem State.todEdge_fr {M s0} (s : State) (hM : MaskLe fm_todEdge M) (hs : Fr M s0 s) : Fr M s0 (State.todEdge s) := by
  unfold State.todEdge
  repeat' first
    | with_reducible first | assumption | apply State.ev_fr | apply State.wrb_fr | apply fr_ite
    | (extract_lets +onlyGivenNames x; refine fr_cut x ?_ ?_; (on_goal 2 => dsimp only [x]); (on_goal 1 => clear_value x; intro hx))
    | (extract_lets +onlyGivenNames x; fail_if_success (have : State := x); clear_value x)
    | exact MaskLe.trans (by decide +kernel) hM
    | (with_reducible refine fr_mk_tim (MaskLe.trans (by decide +kernel) hM) ?_; first | with_reducible assumption | with_reducible apply State.ev_fr | with_reducible apply State.wrb_fr)
    | split
    | dsimp -zeta only
def fm_ppsQualify : Nat := 2 ^ 81 ||| mFld TIM_STATUS_pps0_ok ||| mFld TIM_STATUS_pps1_ok ||| fm_timRefresh ||| fm_ev
theorem State.ppsQualify_fr {M s0} (s : State) (j : Nat) (te : Int) (hM : MaskLe fm_ppsQualify M) (hs : Fr M s0 s) : Fr M s0 (State.ppsQualify s j te) := by
  unfold State.ppsQualify
  repeat' first
    | with_reducible first | assumption | apply State.timRefresh_fr | apply State.ev_fr | apply State.wrb_fr | apply fr_ite
    | (extract_lets +onlyGivenNames x; refine fr_cut x ?_ ?_; (on_goal 2 => dsimp only [x]); (on_goal 1 => clear_value x; intro hx))
    | (extract_lets +onlyGivenNames x; fail_if_success (have : State := x); clear_value x)
    | exact MaskLe.trans (by decide +kernel) hM
    | (with_reducible show MaskLe (mFld (ppsOkF _)) _; unfold ppsOkF; split <;> exact MaskLe.trans (by decide +kernel) hM)
    | (with_reducible refine fr_mk_pps (MaskLe.trans (by decide +kernel) hM) ?_; first | with_reducible assumption | with_reducible apply State.timRefresh_fr | with_reducible apply State.ev_fr | with_reducible apply State.wrb_fr)
    | split
    | dsimp -zeta only
def fm_ppsTake : Nat := mFld TIM_pps_missed0 ||| mFld TIM_pps_missed1 ||| 2 ^ 81
theorem State.ppsTake_fr {M s0} (s : State) (j : Nat) (te : Int) (hM : MaskLe fm_ppsTake M) (hs : Fr M s0 s) : Fr M s0 (State.ppsTake s j te) := by
  unfold State.ppsTake
  repeat' first
    | (intro x)
    | with_reducible first | assumption | apply State.count_fr
    | (extract_lets +onlyGivenNames x; refine fr_cut x ?_ ?_; (on_goal 2 => dsimp only [x]); (on_goal 1 => clear_value x; intro hx))
    | (extract_lets +onlyGivenNames x; fail_if_success (have : State := x); clear_value x)
    | exact MaskLe.trans (by decide +kernel) hM
    | (with_reducible show MaskLe (mFld (ppsMissed _)) _; unfold ppsMissed; split <;> exact MaskLe.trans (by decide +kernel) hM)
    | (with_reducible refine fr_mk_pps (MaskLe.trans (by decide +kernel) hM) ?_; first | with_reducible assumption | with_reducible apply State.count_fr)
    | with_reducible apply fr_pair
    | dsimp -zeta only
def fm_ppsEdge : Nat := 2 ^ 82 ||| fm_tbTo ||| fm_ppsQualify ||| fm_ppsTake ||| fm_discipline ||| fm_todEdge
theorem State.ppsEdge_fr {M s0} (s : State) (j ns : Nat) (hM : MaskLe fm_ppsEdge M) (hs : Fr M s0 s) : Fr M s0 (State.ppsEdge s j ns) := by
  unfold State.ppsEdge
  repeat' first
    | (intro x)
    | with_reducible first | assumption | apply State.tbTo_fr | apply State.ppsQualify_fr | apply State.ppsTake_fr | apply State.discipline_fr | apply State.todEdge_fr | apply fr_ite
    | (extract_lets +onlyGivenNames x; refine fr_cut x ?_ ?_; (on_goal 2 => dsimp only [x]); (on_goal 1 => clear_value x; intro hx))
    | (extract_lets +onlyGivenNames x; fail_if_success (have : State := x); clear_value x)
    | exact MaskLe.trans (by decide +kernel) hM
    | (with_reducible refine fr_mk_tim (MaskLe.trans (by decide +kernel) hM) ?_; first | with_reducible assumption | with_reducible apply State.tbTo_fr | with_reducible apply State.ppsQualify_fr | with_reducible apply State.ppsTake_fr | with_reducible apply State.discipline_fr | with_reducible apply State.todEdge_fr)
    | with_reducible apply fr_pair
    | split
    | dsimp -zeta only
def fm_ppsLose : Nat := mFld TIM_pps_missed0 ||| mFld TIM_pps_missed1 ||| mFld TIM_STATUS_pps0_ok ||| mFld TIM_STATUS_pps1_ok ||| 2 ^ 81 ||| 2 ^ 82 ||| mFld TIM_FREQ_value ||| fm_ev ||| fm_setSigma ||| fm_timRefresh
theorem State.ppsLose_fr {M s0} (s : State) (j : Nat) (hM : MaskLe fm_ppsLose M) (hs : Fr M s0 s) : Fr M s0 (State.ppsLose s j) := by
  unfold State.ppsLose
  repeat' first
    | with_reducible first | assumption | apply State.count_fr | apply State.wrb_fr | apply State.ev_fr | apply State.setSigma_fr | apply State.wr_fr | apply State.timRefresh_fr | apply fr_ite
    | (extract_lets +onlyGivenNames x; refine fr_cut x ?_ ?_; (on_goal 2 => dsimp only [x]); (on_goal 1 => clear_value x; intro hx))
    | (extract_lets +onlyGivenNames x; fail_if_success (have : State := x); clear_value x)
    | exact MaskLe.trans (by decide +kernel) hM
    | (with_reducible show MaskLe (mFld (ppsMissed _)) _; unfold ppsMissed; split <;> exact MaskLe.trans (by decide +kernel) hM)
    | (with_reducible show MaskLe (mFld (ppsOkF _)) _; unfold ppsOkF; split <;> exact MaskLe.trans (by decide +kernel) hM)
    | (with_reducible refine fr_mk_pps (MaskLe.trans (by decide +kernel) hM) ?_; first | with_reducible assumption | with_reducible apply State.count_fr | with_reducible apply State.wrb_fr | with_reducible apply State.ev_fr | with_reducible apply State.setSigma_fr | with_reducible apply State.wr_fr | with_reducible apply State.timRefresh_fr)
    | (with_reducible refine fr_mk_tim (MaskLe.trans (by decide +kernel) hM) ?_; first | with_reducible assumption | with_reducible apply State.count_fr | with_reducible apply State.wrb_fr | with_reducible apply State.ev_fr | with_reducible apply State.setSigma_fr | with_reducible apply State.wr_fr | with_reducible apply State.timRefresh_fr)
    | split
    | dsimp -zeta only
def fm_todMessage : Nat := 2 ^ 82 ||| mFld TIM_STATUS_tod_ok ||| mFld TIM_tod_err ||| fm_tbTo
theorem State.todMessage_fr {M s0} (s : State) (line : List Bool) (ns : Nat) (hM : MaskLe fm_todMessage M) (hs : Fr M s0 s) : Fr M s0 (State.todMessage s line ns) := by
  unfold State.todMessage
  repeat' first
    | with_reducible first | assumption | apply State.tbTo_fr | apply State.wrb_fr | apply State.count_fr | apply fr_ite
    | (extract_lets +onlyGivenNames x; refine fr_cut x ?_ ?_; (on_goal 2 => dsimp only [x]); (on_goal 1 => clear_value x; intro hx))
    | (extract_lets +onlyGivenNames x; fail_if_success (have : State := x); clear_value x)
    | exact MaskLe.trans (by decide +kernel) hM
    | (with_reducible refine fr_mk_tim (MaskLe.trans (by decide +kernel) hM) ?_; first | with_reducible assumption | with_reducible apply State.tbTo_fr | with_reducible apply State.wrb_fr | with_reducible apply State.count_fr)
    | split
    | dsimp -zeta only
def fm_slewDone : Nat := fm_setSigma
theorem State.slewDone_fr {M s0} (s : State) (hM : MaskLe fm_slewDone M) (hs : Fr M s0 s) : Fr M s0 (State.slewDone s) := by
  unfold State.slewDone
  repeat' first
    | with_reducible first | assumption | apply State.setSigma_fr | apply fr_ite
    | exact MaskLe.trans (by decide +kernel) hM
    | split
    | dsimp -zeta only
def fm_holdoverExpired : Nat := 2 ^ 82 ||| fm_timRefresh ||| fm_ev
theorem State.holdoverExpired_fr {M s0} (s : State) (hM : MaskLe fm_holdoverExpired M) (hs : Fr M s0 s) : Fr M s0 (State.holdoverExpired s) := by
  unfold State.holdoverExpired
  repeat' first
    | with_reducible first | assumption | apply State.timRefresh_fr | apply State.ev_fr | apply fr_ite
    | exact MaskLe.trans (by decide +kernel) hM
    | (with_reducible refine fr_mk_tim (MaskLe.trans (by decide +kernel) hM) ?_; first | with_reducible assumption | with_reducible apply State.timRefresh_fr | with_reducible apply State.ev_fr)
    | split
    | dsimp -zeta only
def fm_clockPins : Nat := 2 ^ 82
theorem State.clockPins_fr {M s0} (s : State) (hM : MaskLe fm_clockPins M) (hs : Fr M s0 s) : Fr M s0 (State.clockPins s) := by
  unfold State.clockPins
  repeat' first
    | with_reducible first | assumption
    | exact MaskLe.trans (by decide +kernel) hM
    | (with_reducible refine fr_mk_tim (MaskLe.trans (by decide +kernel) hM) ?_; first | with_reducible assumption)
    | dsimp -zeta only
def fm_ppsOutEdge : Nat := 2 ^ 83 ||| fm_emit
theorem State.ppsOutEdge_fr {M s0} (s : State) (j : Nat) (hM : MaskLe fm_ppsOutEdge M) (hs : Fr M s0 s) : Fr M s0 (State.ppsOutEdge s j) := by
  unfold State.ppsOutEdge
  repeat' first
    | with_reducible first | assumption | apply State.emit_fr | apply fr_ite
    | (extract_lets +onlyGivenNames x; refine fr_cut x ?_ ?_; (on_goal 2 => dsimp only [x]); (on_goal 1 => clear_value x; intro hx))
    | (extract_lets +onlyGivenNames x; fail_if_success (have : State := x); clear_value x)
    | exact MaskLe.trans (by decide +kernel) hM
    | (with_reducible refine fr_mk_ppsOutLast (MaskLe.trans (by decide +kernel) hM) ?_; first | with_reducible assumption | with_reducible apply State.emit_fr)
    | with_reducible apply fr_pair
    | split
    | dsimp -zeta only
def fm_todOutSend : Nat := fm_emit
theorem State.todOutSend_fr {M s0} (s : State) (hM : MaskLe fm_todOutSend M) (hs : Fr M s0 s) : Fr M s0 (State.todOutSend s) := by
  unfold State.todOutSend
  repeat' first
    | (intro x)
    | with_reducible first | assumption | apply State.emit_fr | apply fr_ite
    | (extract_lets +onlyGivenNames x; refine fr_cut x ?_ ?_; (on_goal 2 => dsimp only [x]); (on_goal 1 => clear_value x; intro hx))
    | (extract_lets +onlyGivenNames x; fail_if_success (have : State := x); clear_value x)
    | exact MaskLe.trans (by decide +kernel) hM
    | with_reducible apply fr_pair
    | split
    | dsimp -zeta only
def fm_setSecCmd : Nat := mFld TIM_STATUS_set_refused ||| 2 ^ 82
theorem State.setSecCmd_fr {M s0} (s : State) (w : Who) (hM : MaskLe fm_setSecCmd M) (hs : Fr M s0 s) : Fr M s0 (State.setSecCmd s w) := by
  unfold State.setSecCmd
  repeat' first
    | (intro x)
    | with_reducible first | assumption | apply State.wrb_fr | apply fr_ite
    | exact MaskLe.trans (by decide +kernel) hM
    | (with_reducible refine fr_mk_tim (MaskLe.trans (by decide +kernel) hM) ?_; first | with_reducible assumption | with_reducible apply State.wrb_fr)
    | with_reducible apply fr_pair
    | split
    | dsimp -zeta only
theorem State.wtrTable_fr {M s0} (s : State) (pg : Nat) (t : Tab) (ht_t : MaskLe (mTab t) M) (hs : Fr M s0 s) : Fr M s0 (State.wtrTable s pg t) := by
  unfold State.wtrTable
  repeat' first
    | (intro x)
    | with_reducible first | assumption | apply State.tput_fr | apply fr_each
    | with_reducible apply fr_pair
    | dsimp -zeta only
def fm_wtrSecond : Nat := mTab T_ISL_GRP_STATUS ||| mTab T_SEL_GRP_STATUS
theorem State.wtrSecond_fr {M s0} (s : State) (hM : MaskLe fm_wtrSecond M) (hs : Fr M s0 s) : Fr M s0 (State.wtrSecond s) := by
  unfold State.wtrSecond
  repeat' first
    | (intro x)
    | with_reducible first | assumption | apply State.wtrTable_fr | apply fr_each
    | exact MaskLe.trans (by decide +kernel) hM
    | with_reducible apply fr_pair
    | dsimp -zeta only
def fm_atSecond : Nat := 2 ^ 82 ||| fm_wtrSecond ||| fm_closeSecond ||| fm_stepTime ||| fm_ppsOutEdge
theorem State.atSecond_fr {M s0} (s : State) (sec quality : Nat) (hM : MaskLe fm_atSecond M) (hs : Fr M s0 s) : Fr M s0 (State.atSecond s sec quality) := by
  unfold State.atSecond
  repeat' first
    | with_reducible first | assumption | apply State.wtrSecond_fr | apply State.closeSecond_fr | apply State.stepTime_fr | apply State.ppsOutEdge_fr
    | (extract_lets +onlyGivenNames x; refine fr_cut x ?_ ?_; (on_goal 2 => dsimp only [x]); (on_goal 1 => clear_value x; intro hx))
    | (extract_lets +onlyGivenNames x; fail_if_success (have : State := x); clear_value x)
    | exact MaskLe.trans (by decide +kernel) hM
    | (with_reducible refine fr_mk_tim (MaskLe.trans (by decide +kernel) hM) ?_; first | with_reducible assumption | with_reducible apply State.wtrSecond_fr | with_reducible apply State.closeSecond_fr | with_reducible apply State.stepTime_fr | with_reducible apply State.ppsOutEdge_fr)
    | with_reducible apply fr_pair
    | split
    | dsimp -zeta only
def fm_secondBoundary : Nat := 2 ^ 29 ||| fm_free ||| fm_stepNow ||| fm_atSecond
theorem State.secondBoundary_fr {M s0} (s : State) (hM : MaskLe fm_secondBoundary M) (hs : Fr M s0 s) : Fr M s0 (State.secondBoundary s) := by
  unfold State.secondBoundary
  have h0 := State.free_fr s 48 (MaskLe.trans (by decide +kernel) hM) hs
  generalize s.free 48 = p at h0 ⊢
  obtain ⟨u, s1⟩ := p
  dsimp -zeta only at h0 ⊢
  extract_lets sec q
  refine State.stepNow_fr _ (MaskLe.trans (by decide +kernel) hM) (State.atSecond_fr _ _ _ (MaskLe.trans (by decide +kernel) hM) (fr_tb (MaskLe.trans (by decide +kernel) hM) h0 (fun k => ⟨Nat.mod_lt _ (by decide), (by decide : 0 < 1000000000), ?_⟩)))
  exact Nat.lt_trans (Nat.mod_lt _ (by decide)) (by decide : incrNom < 2 ^ 48)
def fm_tbTick : Nat := 2 ^ 29 ||| fm_tbIncr ||| fm_slewTick ||| fm_stepNow ||| fm_atSecond
theorem State.tbTick_fr {M s0} (s : State) (hM : MaskLe fm_tbTick M) (hs : Fr M s0 s) : Fr M s0 (State.tbTick s) := by
  unfold State.tbTick
  have h0 := State.tbIncr_fr s (MaskLe.trans (by decide +kernel) hM) hs
  generalize s.tbIncr = p at h0 ⊢
  obtain ⟨a, s1⟩ := p
  dsimp only at h0 ⊢
  have h2 := State.slewTick_fr s1 (MaskLe.trans (by decide +kernel) hM) h0
  generalize s1.slewTick = s2 at h2 ⊢
  split
  · rename_i c
    exact State.stepNow_fr _ (MaskLe.trans (by decide +kernel) hM) (fr_tb (MaskLe.trans (by decide +kernel) hM) h2 (fun k => ⟨k.1, c, Nat.mod_lt _ (by decide)⟩))
  · exact State.stepNow_fr _ (MaskLe.trans (by decide +kernel) hM) (State.atSecond_fr _ _ _ (MaskLe.trans (by decide +kernel) hM) (fr_tb (MaskLe.trans (by decide +kernel) hM) h2 (fun k => ⟨Nat.mod_lt _ (by decide), Nat.mod_lt _ (by decide), Nat.mod_lt _ (by decide)⟩)))
def fm_nowRead : Nat := mFld (TIM_NOW 1) ||| mFld (TIM_NOW 2)
theorem State.nowRead_fr {M s0} (s : State) (w : Who) (hM : MaskLe fm_nowRead M) (hs : Fr M s0 s) : Fr M s0 (State.nowRead s w).2 := by
  unfold State.nowRead
  repeat' first
    | with_reducible first | assumption | apply State.wr_fr
    | (extract_lets +onlyGivenNames x; refine fr_cut x ?_ ?_; (on_goal 2 => dsimp only [x]); (on_goal 1 => clear_value x; intro hx))
    | (extract_lets +onlyGivenNames x; fail_if_success (have : State := x); clear_value x)
    | exact MaskLe.trans (by decide +kernel) hM
    | dsimp -zeta only
def fm_tsRead : Nat := 2 ^ 80 ||| mAll_TIM_TS_entry
theorem State.tsRead_fr {M s0} (s : State) (w : Who) (hM : MaskLe fm_tsRead M) (hs : Fr M s0 s) : Fr M s0 (State.tsRead s w).2 := by
  unfold State.tsRead
  repeat' first
    | (intro x)
    | with_reducible first | assumption | apply State.wr_fr | apply fr_each
    | (extract_lets +onlyGivenNames x; refine fr_cut x ?_ ?_; (on_goal 2 => dsimp only [x]); (on_goal 1 => clear_value x; intro hx))
    | (extract_lets +onlyGivenNames x; fail_if_success (have : State := x); clear_value x)
    | exact MaskLe.trans (by decide +kernel) hM
    | (with_reducible refine MaskLe.trans (TIM_TS_entry_mem _) ?_; exact MaskLe.trans (by decide +kernel) hM)
    | (with_reducible refine fr_mk_tsLog (MaskLe.trans (by decide +kernel) hM) ?_; first | with_reducible assumption | with_reducible apply State.wr_fr)
    | with_reducible apply fr2_pair
    | dsimp -zeta only
def fm_cueFinish : Nat := mFld BOX_CUE_STATUS_state ||| 2 ^ 112 ||| fm_ev
theorem State.cueFinish_fr {M s0} (s : State) (n : Nat) (hM : MaskLe fm_cueFinish M) (hs : Fr M s0 s) : Fr M s0 (State.cueFinish s n) := by
  unfold State.cueFinish
  repeat' first
    | with_reducible first | assumption | apply State.ev_fr | apply State.wr_fr
    | exact MaskLe.trans (by decide +kernel) hM
    | (with_reducible refine fr_mk_cues (MaskLe.trans (by decide +kernel) hM) ?_; first | with_reducible assumption | with_reducible apply State.ev_fr | with_reducible apply State.wr_fr)
    | dsimp -zeta only
def fm_cueForget : Nat := 2 ^ 112 ||| fm_cueFinish
theorem State.cueForget_fr {M s0} (s : State) (r : Nat) (hM : MaskLe fm_cueForget M) (hs : Fr M s0 s) : Fr M s0 (State.cueForget s r) := by
  unfold State.cueForget
  repeat' first
    | (intro x)
    | with_reducible first | assumption | apply State.cueFinish_fr | apply fr_ite | apply fr_each
    | (extract_lets +onlyGivenNames x; refine fr_cut x ?_ ?_; (on_goal 2 => dsimp only [x]); (on_goal 1 => clear_value x; intro hx))
    | (extract_lets +onlyGivenNames x; fail_if_success (have : State := x); clear_value x)
    | exact MaskLe.trans (by decide +kernel) hM
    | (with_reducible refine fr_mk_cues (MaskLe.trans (by decide +kernel) hM) ?_; first | with_reducible assumption | with_reducible apply State.cueFinish_fr)
    | with_reducible apply fr_pair
    | split
    | dsimp -zeta only
def fm_ownerMoved : Nat := fm_record
theorem State.ownerMoved_fr {M s0} (s : State) (old new : Nat) (hM : MaskLe fm_ownerMoved M) (hs : Fr M s0 s) : Fr M s0 (State.ownerMoved s old new) := by
  unfold State.ownerMoved
  repeat' first
    | with_reducible first | assumption | apply State.record_fr | apply fr_ite
    | exact MaskLe.trans (by decide +kernel) hM
    | split
    | dsimp -zeta only
def fm_digTouch : Nat := 2 ^ 111
theorem State.digTouch_fr {M s0} (s : State) (j : Nat) (hM : MaskLe fm_digTouch M) (hs : Fr M s0 s) : Fr M s0 (State.digTouch s j) := by
  unfold State.digTouch
  repeat' first
    | with_reducible first | assumption | apply fr_ite
    | exact MaskLe.trans (by decide +kernel) hM
    | (with_reducible refine fr_mk_digDue (MaskLe.trans (by decide +kernel) hM) ?_; first | with_reducible assumption)
    | split
    | dsimp -zeta only
def fm_givePage : Nat := mFld PAGE_OWNER_box ||| fm_digTouch ||| fm_ownerMoved ||| fm_keepWas
theorem State.givePage_fr {M s0} (s : State) (pg box : Nat) (hM : MaskLe fm_givePage M) (hs : Fr M s0 s) : Fr M s0 (State.givePage s pg box) := by
  unfold State.givePage
  repeat' first
    | with_reducible first | assumption | apply State.digTouch_fr | apply State.ownerMoved_fr | apply State.wr_fr | apply State.keepWas_fr
    | (extract_lets +onlyGivenNames x; refine fr_cut x ?_ ?_; (on_goal 2 => dsimp only [x]); (on_goal 1 => clear_value x; intro hx))
    | (extract_lets +onlyGivenNames x; fail_if_success (have : State := x); clear_value x)
    | exact MaskLe.trans (by decide +kernel) hM
    | dsimp -zeta only
def fm_giveObj : Nat := mTab T_OWN ||| fm_digTouch ||| fm_ownerMoved ||| fm_keepWas
theorem State.giveObj_fr {M s0} (s : State) (i box : Nat) (hM : MaskLe fm_giveObj M) (hs : Fr M s0 s) : Fr M s0 (State.giveObj s i box) := by
  unfold State.giveObj
  repeat' first
    | with_reducible first | assumption | apply State.digTouch_fr | apply State.ownerMoved_fr | apply State.tput_fr | apply State.keepWas_fr
    | (extract_lets +onlyGivenNames x; refine fr_cut x ?_ ?_; (on_goal 2 => dsimp only [x]); (on_goal 1 => clear_value x; intro hx))
    | (extract_lets +onlyGivenNames x; fail_if_success (have : State := x); clear_value x)
    | exact MaskLe.trans (by decide +kernel) hM
    | dsimp -zeta only
def fm_reqEnd : Nat := mFld BXM_REQ_STATUS_pending ||| mFld BXM_REQ_STATUS_code ||| fm_record
theorem State.reqEnd_fr {M s0} (s : State) (code : Nat) (hM : MaskLe fm_reqEnd M) (hs : Fr M s0 s) : Fr M s0 (State.reqEnd s code) := by
  unfold State.reqEnd
  repeat' first
    | with_reducible first | assumption | apply State.record_fr | apply State.wrb_fr | apply State.wr_fr
    | exact MaskLe.trans (by decide +kernel) hM
    | dsimp -zeta only
def fm_setPage : Nat := fm_reqEnd ||| fm_givePage
theorem State.setPage_fr {M s0} (s : State) (box a0 : Nat) (hM : MaskLe fm_setPage M) (hs : Fr M s0 s) : Fr M s0 (State.setPage s box a0) := by
  unfold State.setPage
  repeat' first
    | with_reducible first | assumption | apply State.reqEnd_fr | apply State.givePage_fr | apply fr_ite
    | (extract_lets +onlyGivenNames x; refine fr_cut x ?_ ?_; (on_goal 2 => dsimp only [x]); (on_goal 1 => clear_value x; intro hx))
    | (extract_lets +onlyGivenNames x; fail_if_success (have : State := x); clear_value x)
    | exact MaskLe.trans (by decide +kernel) hM
    | split
    | dsimp -zeta only
def fm_setObj : Nat := fm_reqEnd ||| fm_giveObj
theorem State.setObj_fr {M s0} (s : State) (box a0 a1 : Nat) (hM : MaskLe fm_setObj M) (hs : Fr M s0 s) : Fr M s0 (State.setObj s box a0 a1) := by
  unfold State.setObj
  repeat' first
    | (intro x)
    | with_reducible first | assumption | apply State.reqEnd_fr | apply State.giveObj_fr | apply fr_ite | apply fr_each
    | (extract_lets +onlyGivenNames x; refine fr_cut x ?_ ?_; (on_goal 2 => dsimp only [x]); (on_goal 1 => clear_value x; intro hx))
    | (extract_lets +onlyGivenNames x; fail_if_success (have : State := x); clear_value x)
    | exact MaskLe.trans (by decide +kernel) hM
    | with_reducible apply fr_pair
    | split
    | dsimp -zeta only
def fm_keepWin : Nat := fm_keepWas
theorem State.keepWin_fr {M s0} (s : State) (box w : Nat) (hM : MaskLe fm_keepWin M) (hs : Fr M s0 s) : Fr M s0 (State.keepWin s box w) := by
  unfold State.keepWin
  repeat' first
    | (intro x)
    | with_reducible first | assumption | apply State.keepWas_fr | apply fr_each
    | exact MaskLe.trans (by decide +kernel) hM
    | with_reducible apply fr_pair
    | dsimp -zeta only
def fm_setWin : Nat := mAll_BOX_WIN_slot ||| mAll_BOX_WIN_count_m1 ||| mAll_BOX_WIN_en ||| mAll_BOX_WIN_tpage ||| fm_reqEnd ||| fm_keepWin ||| fm_digTouch
theorem State.setWin_fr {M s0} (s : State) (box a0 a1 : Nat) (hM : MaskLe fm_setWin M) (hs : Fr M s0 s) : Fr M s0 (State.setWin s box a0 a1) := by
  unfold State.setWin
  extract_lets w cnt slot pg s1 s2
  refine fr_ite (State.reqEnd_fr _ _ (MaskLe.trans (by decide +kernel) hM) hs) ?_
  have hs : Fr M s0 s1 := State.keepWin_fr _ _ _ (MaskLe.trans (by decide +kernel) hM) hs
  clear_value s1
  exact State.reqEnd_fr _ _ (MaskLe.trans (by decide +kernel) hM) (State.digTouch_fr _ _ (MaskLe.trans (by decide +kernel) hM) (State.wr_fr _ _ (BOX_WIN_tpage w) _ (MaskLe.trans (BOX_WIN_tpage_mem _) (MaskLe.trans (by decide +kernel) hM)) (State.wr_fr _ _ (BOX_WIN_slot w) _ (MaskLe.trans (BOX_WIN_slot_mem _) (MaskLe.trans (by decide +kernel) hM)) (State.wr_fr _ _ (BOX_WIN_count_m1 w) _ (MaskLe.trans (BOX_WIN_count_m1_mem _) (MaskLe.trans (by decide +kernel) hM)) (State.wr_fr _ _ (BOX_WIN_en w) _ (MaskLe.trans (BOX_WIN_en_mem _) (MaskLe.trans (by decide +kernel) hM)) hs)))))
def fm_serveReq : Nat := fm_setPage ||| fm_setObj ||| fm_setWin ||| fm_reqEnd
theorem State.serveReq_fr {M s0} (s : State) (q : Nat × Nat × Nat × Nat) (hM : MaskLe fm_serveReq M) (hs : Fr M s0 s) : Fr M s0 (State.serveReq s q) := by
  unfold State.serveReq
  repeat' first
    | with_reducible first | assumption | apply State.setPage_fr | apply State.setObj_fr | apply State.setWin_fr | apply State.reqEnd_fr | apply fr_ite
    | (extract_lets +onlyGivenNames x; refine fr_cut x ?_ ?_; (on_goal 2 => dsimp only [x]); (on_goal 1 => clear_value x; intro hx))
    | (extract_lets +onlyGivenNames x; fail_if_success (have : State := x); clear_value x)
    | exact MaskLe.trans (by decide +kernel) hM
    | with_reducible apply fr_pair
    | split
    | dsimp -zeta only
def fm_ownReq : Nat := mFld BXM_REQ_STATUS_pending ||| 2 ^ 89 ||| fm_serveReq
theorem State.ownReq_fr {M s0} (s : State) (op box : Nat) (hM : MaskLe fm_ownReq M) (hs : Fr M s0 s) : Fr M s0 (State.ownReq s op box) := by
  unfold State.ownReq
  repeat' first
    | with_reducible first | assumption | apply State.wrb_fr | apply State.serveReq_fr | apply fr_ite
    | (extract_lets +onlyGivenNames x; refine fr_cut x ?_ ?_; (on_goal 2 => dsimp only [x]); (on_goal 1 => clear_value x; intro hx))
    | (extract_lets +onlyGivenNames x; fail_if_success (have : State := x); clear_value x)
    | exact MaskLe.trans (by decide +kernel) hM
    | (with_reducible refine fr_mk_reqQ (MaskLe.trans (by decide +kernel) hM) ?_; first | with_reducible assumption | with_reducible apply State.wrb_fr | with_reducible apply State.serveReq_fr)
    | split
    | dsimp -zeta only
def fm_smResume : Nat := 2 ^ 88 ||| 2 ^ 89 ||| fm_serveReq
theorem State.smResume_fr {M s0} (s : State) (hM : MaskLe fm_smResume M) (hs : Fr M s0 s) : Fr M s0 (State.smResume s) := by
  unfold State.smResume
  repeat' first
    | (intro x)
    | with_reducible first | assumption | apply State.serveReq_fr | apply fr_each
    | (extract_lets +onlyGivenNames x; refine fr_cut x ?_ ?_; (on_goal 2 => dsimp only [x]); (on_goal 1 => clear_value x; intro hx))
    | (extract_lets +onlyGivenNames x; fail_if_success (have : State := x); clear_value x)
    | exact MaskLe.trans (by decide +kernel) hM
    | (with_reducible refine fr_mk_smHeld_reqQ (MaskLe.trans (by decide +kernel) hM) ?_; first | with_reducible assumption | with_reducible apply State.serveReq_fr)
    | dsimp -zeta only
def fm_msixSend : Nat := 2 ^ 25 ||| fm_emit
theorem State.msixSend_fr {M s0} (s : State) (n v : Nat) (hM : MaskLe fm_msixSend M) (hs : Fr M s0 s) : Fr M s0 (State.msixSend s n v) := by
  unfold State.msixSend
  repeat' first
    | (intro x)
    | with_reducible first | assumption | apply State.emit_fr | apply fr_ite
    | (extract_lets +onlyGivenNames x; refine fr_cut x ?_ ?_; (on_goal 2 => dsimp only [x]); (on_goal 1 => clear_value x; intro hx))
    | (extract_lets +onlyGivenNames x; fail_if_success (have : State := x); clear_value x)
    | exact MaskLe.trans (by decide +kernel) hM
    | (with_reducible refine fr_mk_vecs (MaskLe.trans (by decide +kernel) hM) ?_; first | with_reducible assumption | with_reducible apply State.emit_fr)
    | with_reducible apply fr_pair
    | split
    | dsimp -zeta only
def fm_intPin : Nat := 2 ^ 87
theorem State.intPin_fr {M s0} (s : State) (hM : MaskLe fm_intPin M) (hs : Fr M s0 s) : Fr M s0 (State.intPin s) := by
  unfold State.intPin
  repeat' first
    | with_reducible first | assumption
    | exact MaskLe.trans (by decide +kernel) hM
    | (with_reducible refine fr_mk_hst (MaskLe.trans (by decide +kernel) hM) ?_; first | with_reducible assumption)
    | dsimp -zeta only
def fm_pmCopyGo : Nat := mFld BOX_PM_CTRL_max_rec ||| mFld BOX_PM_STATUS_records ||| mFld BOX_PM_STATUS_stale ||| mFld BOX_PM_STATUS_state
theorem State.pmCopyGo_fr {M s0} (s : State) (n max : Nat) (hM : MaskLe fm_pmCopyGo M) (hs : Fr M s0 s) : Fr M s0 (State.pmCopyGo s n max) := by
  unfold State.pmCopyGo
  repeat' first
    | with_reducible first | assumption | apply State.wr_fr | apply fr_ite
    | (extract_lets +onlyGivenNames x; refine fr_cut x ?_ ?_; (on_goal 2 => dsimp only [x]); (on_goal 1 => clear_value x; intro hx))
    | (extract_lets +onlyGivenNames x; fail_if_success (have : State := x); clear_value x)
    | exact MaskLe.trans (by decide +kernel) hM
    | split
    | dsimp -zeta only
def fm_hostBytes : Nat := fm_emit
theorem State.hostBytes_fr {M s0} (s : State) (box a : Nat) (l : List Byte) (hM : MaskLe fm_hostBytes M) (hs : Fr M s0 s) : Fr M s0 (State.hostBytes s box a l) := by
  unfold State.hostBytes
  repeat' first
    | (intro x)
    | with_reducible first | assumption | apply State.emit_fr | apply fr_each
    | exact MaskLe.trans (by decide +kernel) hM
    | with_reducible apply fr_pair
    | dsimp -zeta only
def fm_pmCopy : Nat := mFld BOX_PM_STATUS_stale ||| mFld BOX_PM_STATUS_records ||| fm_hostBytes
theorem State.pmCopy_fr {M s0} (s : State) (n max : Nat) (hM : MaskLe fm_pmCopy M) (hs : Fr M s0 s) : Fr M s0 (State.pmCopy s n max) := by
  unfold State.pmCopy
  repeat' first
    | (intro x)
    | with_reducible first | assumption | apply State.hostBytes_fr | apply State.wr_fr
    | (extract_lets +onlyGivenNames x; refine fr_cut x ?_ ?_; (on_goal 2 => dsimp only [x]); (on_goal 1 => clear_value x; intro hx))
    | (extract_lets +onlyGivenNames x; fail_if_success (have : State := x); clear_value x)
    | exact MaskLe.trans (by decide +kernel) hM
    | with_reducible apply fr_pair
    | split
    | dsimp -zeta only
def fm_pmCopyDone : Nat := mFld BOX_PM_STATUS_state ||| fm_record ||| fm_pmCopy ||| fm_report
theorem State.pmCopyDone_fr {M s0} (s : State) (n : Nat) (bad : Bool) (hM : MaskLe fm_pmCopyDone M) (hs : Fr M s0 s) : Fr M s0 (State.pmCopyDone s n bad) := by
  unfold State.pmCopyDone
  repeat' first
    | with_reducible first | assumption | apply State.record_fr | apply State.wr_fr | apply State.pmCopy_fr | apply State.report_fr | apply fr_ite
    | (extract_lets +onlyGivenNames x; refine fr_cut x ?_ ?_; (on_goal 2 => dsimp only [x]); (on_goal 1 => clear_value x; intro hx))
    | (extract_lets +onlyGivenNames x; fail_if_success (have : State := x); clear_value x)
    | exact MaskLe.trans (by decide +kernel) hM
    | split
    | dsimp -zeta only
def fm_pmCut : Nat := mFld BOX_PM_STATUS_state ||| fm_free ||| fm_pmCopy
theorem State.pmCut_fr {M s0} (s : State) (n state : Nat) (hM : MaskLe fm_pmCut M) (hs : Fr M s0 s) : Fr M s0 (State.pmCut s n state) := by
  unfold State.pmCut
  repeat' first
    | with_reducible first | assumption | apply State.free_fr | apply State.wr_fr | apply State.pmCopy_fr | apply fr_ite
    | (extract_lets +onlyGivenNames x; refine fr_cut x ?_ ?_; (on_goal 2 => dsimp only [x]); (on_goal 1 => clear_value x; intro hx))
    | (extract_lets +onlyGivenNames x; fail_if_success (have : State := x); clear_value x)
    | exact MaskLe.trans (by decide +kernel) hM
    | with_reducible apply fr_pair
    | split
    | dsimp -zeta only
def fm_dropRq : Nat := allRegs
theorem State.dropRq_fr {M s0} (s : State) (rq : Nat) (hM : MaskLe fm_dropRq M) (hs : Fr M s0 s) : Fr M s0 (State.dropRq s rq) := by
  unfold State.dropRq
  repeat' first
    | (intro x)
    | with_reducible first | assumption
    | (extract_lets +onlyGivenNames x; refine fr_cut x ?_ ?_; (on_goal 2 => dsimp only [x]); (on_goal 1 => clear_value x; intro hx))
    | (extract_lets +onlyGivenNames x; fail_if_success (have : State := x); clear_value x)
    | exact MaskLe.trans (by decide +kernel) hM
    | exact mFld_coarse (MaskLe.trans (by decide +kernel) hM) _
    | (with_reducible refine fr_mk_regs_regsB_regsC (MaskLe.trans (by decide +kernel) hM) ?_; first | with_reducible assumption)
    | with_reducible apply fr_pair
    | dsimp -zeta only
def fm_dropProxy : Nat := allRegs
theorem State.dropProxy_fr {M s0} (s : State) (n : Nat) (hM : MaskLe fm_dropProxy M) (hs : Fr M s0 s) : Fr M s0 (State.dropProxy s n) := by
  unfold State.dropProxy
  repeat' first
    | (intro x)
    | with_reducible first | assumption
    | (extract_lets +onlyGivenNames x; refine fr_cut x ?_ ?_; (on_goal 2 => dsimp only [x]); (on_goal 1 => clear_value x; intro hx))
    | (extract_lets +onlyGivenNames x; fail_if_success (have : State := x); clear_value x)
    | exact MaskLe.trans (by decide +kernel) hM
    | exact mFld_coarse (MaskLe.trans (by decide +kernel) hM) _
    | (with_reducible refine fr_mk_regs_regsB_regsC (MaskLe.trans (by decide +kernel) hM) ?_; first | with_reducible assumption)
    | with_reducible apply fr_pair
    | dsimp -zeta only
def fm_fnReset : Nat := 2 ^ 23 ||| 2 ^ 86 ||| 2 ^ 25
theorem State.fnReset_fr {M s0} (s : State) (n : Nat) (pending : Bool) (hM : MaskLe fm_fnReset M) (hs : Fr M s0 s) : Fr M s0 (State.fnReset s n pending) := by
  unfold State.fnReset
  repeat' first
    | (intro x)
    | with_reducible first | assumption | apply fr_ite | apply fr_foldl | apply fr_foldl2 | apply fr_foldl1
    | (extract_lets +onlyGivenNames x; refine fr_cut x ?_ ?_; (on_goal 2 => dsimp only [x]); (on_goal 1 => clear_value x; intro hx))
    | (extract_lets +onlyGivenNames x; fail_if_success (have : State := x); clear_value x)
    | exact MaskLe.trans (by decide +kernel) hM
    | (with_reducible refine fr_mk_fns_msixTab (MaskLe.trans (by decide +kernel) hM) ?_; first | with_reducible assumption)
    | (with_reducible refine fr_mk_vecs (MaskLe.trans (by decide +kernel) hM) ?_; first | with_reducible assumption)
    | with_reducible apply fr_pair
    | split
    | dsimp -zeta only
def fm_vfFlr : Nat := 2 ^ 26 ||| fm_fnReset ||| fm_pmCut ||| fm_dropProxy ||| fm_dropRq
theorem State.vfFlr_fr {M s0} (s : State) (n : Nat) (hM : MaskLe fm_vfFlr M) (hs : Fr M s0 s) : Fr M s0 (State.vfFlr s n) := by
  unfold State.vfFlr
  repeat' first
    | with_reducible first | assumption | apply State.fnReset_fr | apply State.pmCut_fr | apply State.dropProxy_fr | apply State.dropRq_fr | apply fr_ite
    | (extract_lets +onlyGivenNames x; refine fr_cut x ?_ ?_; (on_goal 2 => dsimp only [x]); (on_goal 1 => clear_value x; intro hx))
    | (extract_lets +onlyGivenNames x; fail_if_success (have : State := x); clear_value x)
    | exact MaskLe.trans (by decide +kernel) hM
    | (with_reducible refine fr_mk_notices (MaskLe.trans (by decide +kernel) hM) ?_; first | with_reducible assumption | with_reducible apply State.fnReset_fr | with_reducible apply State.pmCut_fr | with_reducible apply State.dropProxy_fr | with_reducible apply State.dropRq_fr)
    | split
    | dsimp -zeta only
def fm_dmaWrite : Nat := mAll_HST_DMA_STATUS_done ||| fm_hostBytes
theorem State.dmaWrite_fr {M s0} (s : State) (c n : Nat) (hM : MaskLe fm_dmaWrite M) (hs : Fr M s0 s) : Fr M s0 (State.dmaWrite s c n) := by
  unfold State.dmaWrite
  repeat' first
    | with_reducible first | assumption | apply State.wr_fr | apply State.hostBytes_fr
    | exact MaskLe.trans (by decide +kernel) hM
    | (with_reducible refine MaskLe.trans (HST_DMA_STATUS_done_mem _) ?_; exact MaskLe.trans (by decide +kernel) hM)
    | dsimp -zeta only
def fm_dmaGo : Nat := mAll_HST_DMA_STATUS_done ||| mAll_HST_DMA_STATUS_state
theorem State.dmaGo_fr {M s0} (s : State) (c : Nat) (hM : MaskLe fm_dmaGo M) (hs : Fr M s0 s) : Fr M s0 (State.dmaGo s c) := by
  unfold State.dmaGo
  refine fr_ite hs ?_
  extract_lets a n inside ok s1
  have h1 : Fr M s0 s1 := State.wr_fr _ _ (HST_DMA_STATUS_done c) _ (MaskLe.trans (HST_DMA_STATUS_done_mem _) (MaskLe.trans (by decide +kernel) hM)) hs
  clear_value s1
  exact State.wr_fr _ _ (HST_DMA_STATUS_state c) _ (MaskLe.trans (HST_DMA_STATUS_state_mem _) (MaskLe.trans (by decide +kernel) hM)) h1
def fm_dmaDone : Nat := mAll_HST_DMA_STATUS_state ||| fm_report ||| fm_dmaWrite ||| fm_record
theorem State.dmaDone_fr {M s0} (s : State) (c : Nat) (bad : Option Nat) (hM : MaskLe fm_dmaDone M) (hs : Fr M s0 s) : Fr M s0 (State.dmaDone s c bad) := by
  unfold State.dmaDone
  refine fr_ite ?_ hs
  split
  · exact State.report_fr _ _ _ _ (MaskLe.trans (by decide +kernel) hM) (State.wr_fr _ _ (HST_DMA_STATUS_state c) _ (MaskLe.trans (HST_DMA_STATUS_state_mem _) (MaskLe.trans (by decide +kernel) hM)) (State.dmaWrite_fr _ _ _ (MaskLe.trans (by decide +kernel) hM) hs))
  · exact State.record_fr _ _ _ (MaskLe.trans (by decide +kernel) hM) (State.wr_fr _ _ (HST_DMA_STATUS_state c) _ (MaskLe.trans (HST_DMA_STATUS_state_mem _) (MaskLe.trans (by decide +kernel) hM)) (State.dmaWrite_fr _ _ _ (MaskLe.trans (by decide +kernel) hM) hs))
def fm_plbCut : Nat := mFld CHK_STATUS_holder ||| mFld PLB_STATUS_state ||| 2 ^ 109 ||| fm_free ||| fm_hostBytes
theorem State.plbCut_fr {M s0} (s : State) (hM : MaskLe fm_plbCut M) (hs : Fr M s0 s) : Fr M s0 (State.plbCut s) := by
  unfold State.plbCut
  repeat' first
    | with_reducible first | assumption | apply State.free_fr | apply State.hostBytes_fr | apply State.wr_fr | apply fr_ite
    | (extract_lets +onlyGivenNames x; refine fr_cut x ?_ ?_; (on_goal 2 => dsimp only [x]); (on_goal 1 => clear_value x; intro hx))
    | (extract_lets +onlyGivenNames x; fail_if_success (have : State := x); clear_value x)
    | exact MaskLe.trans (by decide +kernel) hM
    | (with_reducible refine fr_mk_plb (MaskLe.trans (by decide +kernel) hM) ?_; first | with_reducible assumption | with_reducible apply State.free_fr | with_reducible apply State.hostBytes_fr | with_reducible apply State.wr_fr)
    | with_reducible apply fr_pair
    | split
    | dsimp -zeta only
def fm_linkDown : Nat := mFld HST_LINK_speed ||| mFld HST_LINK_width ||| mFld HST_LINK_up ||| mFld HST_LINK_drops ||| mAll_HST_DMA_STATUS_state ||| 2 ^ 24 ||| fm_record ||| fm_free ||| fm_dmaWrite ||| fm_pmCut ||| fm_plbCut ||| fm_fnReset ||| fm_report
theorem State.linkDown_fr {M s0} (s : State) (hM : MaskLe fm_linkDown M) (hs : Fr M s0 s) : Fr M s0 (State.linkDown s) := by
  unfold State.linkDown
  refine fr_ite ?_ hs
  extract_lets s1 s2 s3 s4 s5 s6
  have h1 : Fr M s0 s1 := State.wr_fr _ _ _ _ (MaskLe.trans (by decide +kernel) hM) (State.wr_fr _ _ _ _ (MaskLe.trans (by decide +kernel) hM) (State.wrb_fr _ _ _ _ (MaskLe.trans (by decide +kernel) hM) hs))
  clear_value s1
  have h2 : Fr M s0 s2 := State.record_fr _ _ _ (MaskLe.trans (by decide +kernel) hM) (State.count_fr _ _ _ _ (MaskLe.trans (by decide +kernel) hM) h1)
  clear_value s2
  have h3 : Fr M s0 s3 := by
    refine fr_each h2 (fun s c h => fr_ite ?_ h)
    exact State.wr_fr _ _ _ _ (MaskLe.trans (HST_DMA_STATUS_state_mem _) (MaskLe.trans (by decide +kernel) hM)) (State.dmaWrite_fr _ _ _ (MaskLe.trans (by decide +kernel) hM) (State.free_fr _ 26 (MaskLe.trans (by decide +kernel) hM) h))
  clear_value s3
  have h4 : Fr M s0 s4 := fr_each h3 (fun s c h => State.pmCut_fr _ _ _ (MaskLe.trans (by decide +kernel) hM) h)
  clear_value s4
  have h5 : Fr M s0 s5 := State.plbCut_fr _ (MaskLe.trans (by decide +kernel) hM) h4
  clear_value s5
  have h6 : Fr M s0 s6 := fr_each h5 (fun s c h => State.fnReset_fr _ _ _ (MaskLe.trans (by decide +kernel) hM) h)
  clear_value s6
  exact State.report_fr _ _ _ _ (MaskLe.trans (by decide +kernel) hM) (fr_mk_numVfs (MaskLe.trans (by decide +kernel) hM) h6)
def fm_linkUp : Nat := mFld HST_LINK_speed ||| mFld HST_LINK_width ||| mFld HST_LINK_up ||| fm_record
theorem State.linkUp_fr {M s0} (s : State) (width speed : Nat) (hM : MaskLe fm_linkUp M) (hs : Fr M s0 s) : Fr M s0 (State.linkUp s width speed) := by
  unfold State.linkUp
  repeat' first
    | with_reducible first | assumption | apply State.record_fr | apply State.wr_fr | apply State.wrb_fr | apply fr_ite
    | exact MaskLe.trans (by decide +kernel) hM
    | split
    | dsimp -zeta only
def fm_boxNote : Nat := fm_takeNotice ||| fm_latchHi
theorem State.boxNote_fr {M s0} (s : State) (n rq : Nat) (hM : MaskLe fm_boxNote M) (hs : Fr M s0 s) : Fr M s0 (State.boxNote s n rq).2 := by
  unfold State.boxNote
  repeat' first
    | with_reducible first | assumption | apply State.takeNotice_fr | apply State.latchHi_fr
    | (extract_lets +onlyGivenNames x; refine fr_cut x ?_ ?_; (on_goal 2 => dsimp only [x]); (on_goal 1 => clear_value x; intro hx))
    | (extract_lets +onlyGivenNames x; fail_if_success (have : State := x); clear_value x)
    | exact MaskLe.trans (by decide +kernel) hM
    | with_reducible apply fr2_pair
    | split
    | dsimp -zeta only
def fm_pxPageWrite : Nat := mFld BOX_PX_PAGE_tpage ||| mFld BOX_PX_PAGE_en ||| mFld BOX_PX_STATUS_row_owner ||| mFld BOX_PX_STATUS_denied ||| fm_dropProxy
theorem State.pxPageWrite_fr {M s0} (s : State) (n v : Nat) (hM : MaskLe fm_pxPageWrite M) (hs : Fr M s0 s) : Fr M s0 (State.pxPageWrite s n v) := by
  unfold State.pxPageWrite
  repeat' first
    | with_reducible first | assumption | apply State.wr_fr | apply State.wrb_fr | apply State.dropProxy_fr
    | (extract_lets +onlyGivenNames x; refine fr_cut x ?_ ?_; (on_goal 2 => dsimp only [x]); (on_goal 1 => clear_value x; intro hx))
    | (extract_lets +onlyGivenNames x; fail_if_success (have : State := x); clear_value x)
    | exact MaskLe.trans (by decide +kernel) hM
    | dsimp -zeta only

end Sys2Proof.Machine
end

