-- ==== Sys2Proof/Laws/FrameChip.lean ====
section
/-! SUPPORT. What each operation of Log, Region, Flt, Csu, Modes, Pkg, Sha, Words, Plb, Fwt may change: one law per operation, by the masks of Laws/State.lean. -/

namespace Sys2Proof.Machine

open Sys2Proof

set_option Elab.async false
set_option linter.all false

def fm_ghostWrite : Nat := mTab T_LOG_GHOST ||| mFld LOG_GHOST_UNREC ||| mFld LOG_GHOST_INFO_valid ||| 2 ^ 18 ||| mFld LOG_GHOST_INFO_cause ||| fm_record
theorem State.ghostWrite_fr {M s0} (s : State) (v n cause : Nat) (hM : MaskLe fm_ghostWrite M) (hs : Fr M s0 s) : Fr M s0 (State.ghostWrite s v n cause) := by
  unfold State.ghostWrite
  repeat' first
    | with_reducible first | assumption | apply State.setEntry_fr | apply State.countSat_fr | apply State.wr_fr | apply State.record_fr
    | (extract_lets +onlyGivenNames x; refine fr_cut x ?_ ?_; (on_goal 2 => dsimp only [x]); (on_goal 1 => clear_value x; intro hx))
    | (extract_lets +onlyGivenNames x; fail_if_success (have : State := x); clear_value x)
    | exact MaskLe.trans (by decide +kernel) hM
    | (with_reducible refine fr_mk_col (MaskLe.trans (by decide +kernel) hM) ?_; first | with_reducible assumption | with_reducible apply State.setEntry_fr | with_reducible apply State.countSat_fr | with_reducible apply State.wr_fr | with_reducible apply State.record_fr)
    | dsimp -zeta only
def fm_ghostClear : Nat := mTab T_LOG_GHOST ||| mFld LOG_GHOST_INFO_valid ||| mFld LOG_GHOST_UNREC ||| mFld LOG_GHOST_INFO_cause
theorem State.ghostClear_fr {M s0} (s : State) (w : Who) (hM : MaskLe fm_ghostClear M) (hs : Fr M s0 s) : Fr M s0 (State.ghostClear s w) := by
  unfold State.ghostClear
  repeat' first
    | (intro x)
    | with_reducible first | assumption | apply State.setEntry_fr | apply State.wr_fr | apply fr_ite | apply fr_each
    | (extract_lets +onlyGivenNames x; refine fr_cut x ?_ ?_; (on_goal 2 => dsimp only [x]); (on_goal 1 => clear_value x; intro hx))
    | (extract_lets +onlyGivenNames x; fail_if_success (have : State := x); clear_value x)
    | exact MaskLe.trans (by decide +kernel) hM
    | with_reducible apply fr_pair
    | split
    | dsimp -zeta only
def fm_mirrorWrite : Nat := mFld LOG_MIRROR_HEAD_seq ||| mFld LOG_MIRROR_DROP ||| 2 ^ 15 ||| fm_record
theorem State.mirrorWrite_fr {M s0} (s : State) (q v : Nat) (hM : MaskLe fm_mirrorWrite M) (hs : Fr M s0 s) : Fr M s0 (State.mirrorWrite s q v) := by
  unfold State.mirrorWrite
  refine fr_ite ?_ hs
  extract_lets a s1
  have h1 : Fr M s0 s1 := State.wr_fr _ _ _ _ (MaskLe.trans (by decide +kernel) hM) hs
  clear_value s1
  exact fr_ite (State.record_fr _ _ _ (MaskLe.trans (by decide +kernel) hM) (State.count_fr _ _ _ _ (MaskLe.trans (by decide +kernel) hM) h1)) (fr_mem (MaskLe.trans (by decide +kernel) hM) h1 (fun k => wf_memWriteBytes _ _ _ k))
def fm_logStore : Nat := mTab T_LOG_ENTRY ||| fm_mirrorWrite ||| fm_ghostWrite
theorem State.logStore_fr {M s0} (s : State) (q v n : Nat) (hM : MaskLe fm_logStore M) (hs : Fr M s0 s) : Fr M s0 (State.logStore s q v n) := by
  unfold State.logStore
  repeat' first
    | with_reducible first | assumption | apply State.mirrorWrite_fr | apply State.setEntry_fr | apply State.ghostWrite_fr
    | exact MaskLe.trans (by decide +kernel) hM
    | with_reducible apply fr_pair
    | split
    | dsimp -zeta only
def fm_logPut : Nat := mFld LOG_HEAD_seq ||| fm_logStore
theorem State.logPut_fr {M s0} (s : State) (r : LogRec) (hM : MaskLe fm_logPut M) (hs : Fr M s0 s) : Fr M s0 (State.logPut s r) := by
  unfold State.logPut
  repeat' first
    | with_reducible first | assumption | apply State.wr_fr | apply State.logStore_fr
    | (extract_lets +onlyGivenNames x; refine fr_cut x ?_ ?_; (on_goal 2 => dsimp only [x]); (on_goal 1 => clear_value x; intro hx))
    | (extract_lets +onlyGivenNames x; fail_if_success (have : State := x); clear_value x)
    | exact MaskLe.trans (by decide +kernel) hM
    | dsimp -zeta only
def fm_showMirror : Nat := mFld LOG_STATUS_mirror_active
theorem State.showMirror_fr {M s0} (s : State) (hM : MaskLe fm_showMirror M) (hs : Fr M s0 s) : Fr M s0 (State.showMirror s) := by
  unfold State.showMirror
  repeat' first
    | with_reducible first | assumption | apply State.wrb_fr
    | exact MaskLe.trans (by decide +kernel) hM
    | dsimp -zeta only
def fm_bankFail : Nat := mFld LOG_STATUS_bank0_failed ||| mFld LOG_STATUS_bank1_failed ||| mFld LOG_STATUS_ghost_only ||| mTab T_LOG_ENTRY ||| fm_showMirror ||| fm_ghostWrite ||| fm_logPut ||| fm_report ||| fm_record
theorem State.bankFail_fr {M s0} (s : State) (k : Nat) (entry : Option (Nat × Nat)) (hM : MaskLe fm_bankFail M) (hs : Fr M s0 s) : Fr M s0 (State.bankFail s k entry) := by
  unfold State.bankFail
  repeat' first
    | with_reducible first | assumption | apply State.wrb_fr | apply State.showMirror_fr | apply State.ghostWrite_fr | apply State.setEntry_fr | apply State.logPut_fr | apply State.report_fr | apply State.record_fr | apply fr_ite
    | (extract_lets +onlyGivenNames x; refine fr_cut x ?_ ?_; (on_goal 2 => dsimp only [x]); (on_goal 1 => clear_value x; intro hx))
    | (extract_lets +onlyGivenNames x; fail_if_success (have : State := x); clear_value x)
    | exact MaskLe.trans (by decide +kernel) hM
    | (with_reducible show MaskLe (_ (ite _ _ _)) _; split <;> exact MaskLe.trans (by decide +kernel) hM)
    | with_reducible apply fr_pair
    | split
    | dsimp -zeta only
def fm_mirrorCheck : Nat := mFld LOG_CFG_mirror_en ||| fm_setErr ||| fm_showMirror
theorem State.mirrorCheck_fr {M s0} (s : State) (hM : MaskLe fm_mirrorCheck M) (hs : Fr M s0 s) : Fr M s0 (State.mirrorCheck s) := by
  unfold State.mirrorCheck
  repeat' first
    | with_reducible first | assumption | apply State.setErr_fr | apply State.wrb_fr | apply State.showMirror_fr | apply fr_ite
    | (extract_lets +onlyGivenNames x; refine fr_cut x ?_ ?_; (on_goal 2 => dsimp only [x]); (on_goal 1 => clear_value x; intro hx))
    | (extract_lets +onlyGivenNames x; fail_if_success (have : State := x); clear_value x)
    | exact MaskLe.trans (by decide +kernel) hM
    | split
    | dsimp -zeta only
def fm_pmsCheck : Nat := mFld WNG_PMS_CFG_en ||| fm_setErr
theorem State.pmsCheck_fr {M s0} (s : State) (hM : MaskLe fm_pmsCheck M) (hs : Fr M s0 s) : Fr M s0 (State.pmsCheck s) := by
  unfold State.pmsCheck
  repeat' first
    | with_reducible first | assumption | apply State.setErr_fr | apply State.wrb_fr | apply fr_ite
    | (extract_lets +onlyGivenNames x; refine fr_cut x ?_ ?_; (on_goal 2 => dsimp only [x]); (on_goal 1 => clear_value x; intro hx))
    | (extract_lets +onlyGivenNames x; fail_if_success (have : State := x); clear_value x)
    | exact MaskLe.trans (by decide +kernel) hM
    | split
    | dsimp -zeta only
def fm_skipReport : Nat := 2 ^ 22 ||| mFld LOG_SKIPPED ||| fm_record
theorem State.skipReport_fr {M s0} (s : State) (cls n : Nat) (hM : MaskLe fm_skipReport M) (hs : Fr M s0 s) : Fr M s0 (State.skipReport s cls n) := by
  unfold State.skipReport
  repeat' first
    | with_reducible first | assumption | apply State.record_fr | apply State.count_fr
    | (extract_lets +onlyGivenNames x; refine fr_cut x ?_ ?_; (on_goal 2 => dsimp only [x]); (on_goal 1 => clear_value x; intro hx))
    | (extract_lets +onlyGivenNames x; fail_if_success (have : State := x); clear_value x)
    | exact MaskLe.trans (by decide +kernel) hM
    | (with_reducible refine fr_mk_skips (MaskLe.trans (by decide +kernel) hM) ?_; first | with_reducible assumption | with_reducible apply State.record_fr | with_reducible apply State.count_fr)
    | dsimp -zeta only
def fm_queueReport : Nat := 2 ^ 19 ||| fm_logShow ||| fm_skipReport
theorem State.queueReport_fr {M s0} (s : State) (r : LogRec) (hM : MaskLe fm_queueReport M) (hs : Fr M s0 s) : Fr M s0 (State.queueReport s r) := by
  unfold State.queueReport
  split
  · rename_i c
    exact State.logShow_fr _ (MaskLe.trans (by decide +kernel) hM) (fr_logQ (MaskLe.trans (by decide +kernel) hM) hs (fun _ => by rw [List.length_append]; have := c.1; simp; omega))
  · exact State.skipReport_fr _ _ _ (MaskLe.trans (by decide +kernel) hM) hs
def fm_closeKey : Nat := fm_queueReport
theorem State.closeKey_fr {M s0} (s : State) (k : CoalKey) (hM : MaskLe fm_closeKey M) (hs : Fr M s0 s) : Fr M s0 (State.closeKey s k) := by
  unfold State.closeKey
  repeat' first
    | with_reducible first | assumption | apply State.queueReport_fr | apply fr_ite
    | (extract_lets +onlyGivenNames x; refine fr_cut x ?_ ?_; (on_goal 2 => dsimp only [x]); (on_goal 1 => clear_value x; intro hx))
    | (extract_lets +onlyGivenNames x; fail_if_success (have : State := x); clear_value x)
    | exact MaskLe.trans (by decide +kernel) hM
    | with_reducible apply fr_pair
    | split
    | dsimp -zeta only
def fm_showKeys : Nat := mFld LOG_STATUS_keys
theorem State.showKeys_fr {M s0} (s : State) (hM : MaskLe fm_showKeys M) (hs : Fr M s0 s) : Fr M s0 (State.showKeys s) := by
  unfold State.showKeys
  repeat' first
    | with_reducible first | assumption | apply State.wr_fr
    | exact MaskLe.trans (by decide +kernel) hM
    | dsimp -zeta only
def fm_logReport : Nat := mFld LOG_COALESCED ||| 2 ^ 21 ||| fm_closeKey ||| fm_queueReport ||| fm_showKeys
theorem State.logReport_fr {M s0} (s : State) (r : LogRec) (hM : MaskLe fm_logReport M) (hs : Fr M s0 s) : Fr M s0 (State.logReport s r) := by
  unfold State.logReport
  extract_lets cls rest s1 s2
  refine fr_ite ?_ (State.queueReport_fr _ _ (MaskLe.trans (by decide +kernel) hM) hs)
  have h1 : Fr M s0 s1 := by
    refine fr_ite hs ?_
    split
    · exact State.closeKey_fr _ _ (MaskLe.trans (by decide +kernel) hM) (fr_mk_coalKeys (MaskLe.trans (by decide +kernel) hM) hs)
    · exact hs
  clear_value s1
  have h2 : Fr M s0 s2 := State.queueReport_fr _ _ (MaskLe.trans (by decide +kernel) hM) h1
  clear_value s2
  split
  · exact State.count_fr _ _ _ _ (MaskLe.trans (by decide +kernel) hM) (fr_mk_coalKeys (MaskLe.trans (by decide +kernel) hM) hs)
  · exact State.showKeys_fr _ (MaskLe.trans (by decide +kernel) hM) (fr_mk_coalKeys (MaskLe.trans (by decide +kernel) hM) h2)
def fm_keyClose : Nat := 2 ^ 21 ||| fm_closeKey ||| fm_showKeys
theorem State.keyClose_fr {M s0} (s : State) (cls source : Nat) (hM : MaskLe fm_keyClose M) (hs : Fr M s0 s) : Fr M s0 (State.keyClose s cls source) := by
  unfold State.keyClose
  repeat' first
    | (intro x)
    | with_reducible first | assumption | apply State.closeKey_fr | apply State.showKeys_fr | apply fr_ite
    | exact MaskLe.trans (by decide +kernel) hM
    | (with_reducible refine fr_mk_coalKeys (MaskLe.trans (by decide +kernel) hM) ?_; first | with_reducible assumption | with_reducible apply State.closeKey_fr | with_reducible apply State.showKeys_fr)
    | with_reducible apply fr_pair
    | split
    | dsimp -zeta only
def fm_fillPlaces : Nat := 2 ^ 19 ||| 2 ^ 20 ||| 2 ^ 22 ||| fm_logShow
theorem State.fillPlaces_fr {M s0} (s : State) (hM : MaskLe fm_fillPlaces M) (hs : Fr M s0 s) : Fr M s0 (State.fillPlaces s) := by
  unfold State.fillPlaces
  extract_lets n s1 l recs
  have h1 : Fr M s0 s1 := by
    refine { fr_logQ (q := s.logQ ++ s.logHeld.take n) (MaskLe.trans (by decide +kernel) hM) hs (fun k => ?_) with logHeld := fun c => absurd (hM.bit c) (by decide +kernel) }
    have k' : s.logQ.length ≤ 256 := k
    have : (s.logHeld.take n).length ≤ n := by rw [List.length_take]; exact Nat.min_le_left _ _
    have : n = 256 - s.logQ.length := rfl
    rw [List.length_append]; omega
  have hl : recs.length = l.length := List.length_map _
  have hl2 : l.length ≤ 256 - s1.logQ.length := by unfold l; rw [List.length_take]; exact Nat.min_le_left _ _
  clear_value recs s1 l
  refine State.logShow_fr _ (MaskLe.trans (by decide +kernel) hM) { fr_logQ (q := s1.logQ ++ recs) (MaskLe.trans (by decide +kernel) hM) h1 (fun k => ?_) with skips := fun c => absurd (hM.bit c) (by decide +kernel) }
  have k' : s1.logQ.length ≤ 256 := k
  rw [List.length_append]; omega
def fm_coalEnd : Nat := mFld LOG_STATUS_coalescing ||| 2 ^ 21 ||| fm_showKeys ||| fm_record ||| fm_closeKey
theorem State.coalEnd_fr {M s0} (s : State) (hM : MaskLe fm_coalEnd M) (hs : Fr M s0 s) : Fr M s0 (State.coalEnd s) := by
  unfold State.coalEnd
  repeat' first
    | (intro x)
    | with_reducible first | assumption | apply State.wrb_fr | apply State.showKeys_fr | apply State.record_fr | apply State.closeKey_fr | apply fr_ite | apply fr_each
    | (extract_lets +onlyGivenNames x; refine fr_cut x ?_ ?_; (on_goal 2 => dsimp only [x]); (on_goal 1 => clear_value x; intro hx))
    | (extract_lets +onlyGivenNames x; fail_if_success (have : State := x); clear_value x)
    | exact MaskLe.trans (by decide +kernel) hM
    | (with_reducible refine fr_mk_coalKeys (MaskLe.trans (by decide +kernel) hM) ?_; first | with_reducible assumption | with_reducible apply State.wrb_fr | with_reducible apply State.showKeys_fr | with_reducible apply State.record_fr | with_reducible apply State.closeKey_fr)
    | split
    | dsimp -zeta only
def fm_noteWritten : Nat := 2 ^ 18
theorem State.noteWritten_fr {M s0} (s : State) (slot : Option Nat) (v n : Nat) (hM : MaskLe fm_noteWritten M) (hs : Fr M s0 s) : Fr M s0 (State.noteWritten s slot v n) := by
  unfold State.noteWritten
  repeat' first
    | with_reducible first | assumption
    | exact MaskLe.trans (by decide +kernel) hM
    | (with_reducible refine fr_mk_col (MaskLe.trans (by decide +kernel) hM) ?_; first | with_reducible assumption)
    | with_reducible apply fr_pair
    | split
    | dsimp -zeta only
def fm_logWrite : Nat := 2 ^ 19 ||| mFld LOG_HEAD_seq ||| fm_mirrorWrite ||| fm_bankFail ||| fm_noteWritten ||| fm_logPut ||| fm_coalEnd ||| fm_fillPlaces
theorem State.logWrite_fr {M s0} (s : State) (bad : Bool) (hM : MaskLe fm_logWrite M) (hs : Fr M s0 s) : Fr M s0 (State.logWrite s bad) := by
  unfold State.logWrite
  split
  · exact hs
  · rename_i e
    extract_lets q s1 s2 s3
    have h1 : Fr M s0 s1 := fr_logQ (MaskLe.trans (by decide +kernel) hM) hs (fun k => by
      have k' : s.logQ.length ≤ 256 := k
      rw [e] at k'; simp at k'; omega)
    clear_value s1
    have h2 : Fr M s0 s2 := State.mirrorWrite_fr _ _ _ (MaskLe.trans (by decide +kernel) hM) (State.wr_fr _ _ _ _ (MaskLe.trans (by decide +kernel) hM) h1)
    clear_value s2
    have h3 : Fr M s0 s3 := by
      unfold s3
      split
      · exact fr_ite (State.bankFail_fr _ _ _ (MaskLe.trans (by decide +kernel) hM) h2) (State.noteWritten_fr _ _ _ _ (MaskLe.trans (by decide +kernel) hM) (State.logPut_fr _ _ (MaskLe.trans (by decide +kernel) hM) h1))
      · exact State.logPut_fr _ _ (MaskLe.trans (by decide +kernel) hM) h1
    clear_value s3
    exact State.coalEnd_fr _ (MaskLe.trans (by decide +kernel) hM) (State.fillPlaces_fr _ (MaskLe.trans (by decide +kernel) hM) h3)
def fm_reload : Nat := 2 ^ 31
theorem State.reload_fr {M s0} (s : State) (p : Nat → Bool) (hM : MaskLe fm_reload M) (hs : Fr M s0 s) : Fr M s0 (State.reload s p) := by
  unfold State.reload
  repeat' first
    | with_reducible first | assumption
    | exact MaskLe.trans (by decide +kernel) hM
    | (with_reducible refine fr_mk_live (MaskLe.trans (by decide +kernel) hM) ?_; first | with_reducible assumption)
    | dsimp -zeta only
def fm_pointRenew : Nat := fm_pointStart
theorem State.pointRenew_fr {M s0} (s : State) (B m e : Nat) (hM : MaskLe fm_pointRenew M) (hs : Fr M s0 s) : Fr M s0 (State.pointRenew s B m e) := by
  unfold State.pointRenew
  repeat' first
    | with_reducible first | assumption | apply State.pointStart_fr
    | exact MaskLe.trans (by decide +kernel) hM
    | dsimp -zeta only
def fm_sectionRenew : Nat := mTab T_OTU_TTI_ACC ||| 2 ^ 36
theorem State.sectionRenew_fr {M s0} (s : State) (d : Nat) (hM : MaskLe fm_sectionRenew M) (hs : Fr M s0 s) : Fr M s0 (State.sectionRenew s d) := by
  unfold State.sectionRenew
  repeat' first
    | (intro x)
    | with_reducible first | assumption | apply State.setEntry_fr
    | (extract_lets +onlyGivenNames x; refine fr_cut x ?_ ?_; (on_goal 2 => dsimp only [x]); (on_goal 1 => clear_value x; intro hx))
    | (extract_lets +onlyGivenNames x; fail_if_success (have : State := x); clear_value x)
    | exact MaskLe.trans (by decide +kernel) hM
    | (with_reducible refine fr_mk_points (MaskLe.trans (by decide +kernel) hM) ?_; first | with_reducible assumption | with_reducible apply State.setEntry_fr)
    | with_reducible apply fr_pair
    | dsimp -zeta only
def fm_ctxRenew : Nat := 2 ^ 37 ||| mTab T_CTX_STATUS ||| fm_pointRenew
theorem State.ctxRenew_fr {M s0} (s : State) (B dir e : Nat) (hM : MaskLe fm_ctxRenew M) (hs : Fr M s0 s) : Fr M s0 (State.ctxRenew s B dir e) := by
  unfold State.ctxRenew
  repeat' first
    | (intro x)
    | with_reducible first | assumption | apply State.setEntry_fr | apply State.pointRenew_fr | apply fr_each
    | (extract_lets +onlyGivenNames x; refine fr_cut x ?_ ?_; (on_goal 2 => dsimp only [x]); (on_goal 1 => clear_value x; intro hx))
    | (extract_lets +onlyGivenNames x; fail_if_success (have : State := x); clear_value x)
    | exact MaskLe.trans (by decide +kernel) hM
    | (with_reducible refine fr_mk_ctxs (MaskLe.trans (by decide +kernel) hM) ?_; first | with_reducible assumption | with_reducible apply State.setEntry_fr | with_reducible apply State.pointRenew_fr)
    | with_reducible apply fr_pair
    | dsimp -zeta only
def fm_blockClients : Nat := fm_cliStart
theorem State.blockClients_fr {M s0} (s : State) (B : Nat) (hM : MaskLe fm_blockClients M) (hs : Fr M s0 s) : Fr M s0 (State.blockClients s B) := by
  unfold State.blockClients
  repeat' first
    | (intro x)
    | with_reducible first | assumption | apply State.cliStart_fr | apply fr_each
    | (extract_lets +onlyGivenNames x; refine fr_cut x ?_ ?_; (on_goal 2 => dsimp only [x]); (on_goal 1 => clear_value x; intro hx))
    | (extract_lets +onlyGivenNames x; fail_if_success (have : State := x); clear_value x)
    | exact MaskLe.trans (by decide +kernel) hM
    | with_reducible apply fr_pair
    | dsimp -zeta only
def fm_blockClear : Nat := fm_clearSlice ||| fm_cliClose ||| fm_ctxClose
theorem State.blockClear_fr {M s0} (s : State) (B : Nat) (hM : MaskLe fm_blockClear M) (hs : Fr M s0 s) : Fr M s0 (State.blockClear s B) := by
  unfold State.blockClear
  repeat' first
    | (intro x)
    | with_reducible first | assumption | apply State.clearSlice_fr | apply State.cliClose_fr | apply State.ctxClose_fr | apply fr_each
    | (extract_lets +onlyGivenNames x; refine fr_cut x ?_ ?_; (on_goal 2 => dsimp only [x]); (on_goal 1 => clear_value x; intro hx))
    | (extract_lets +onlyGivenNames x; fail_if_success (have : State := x); clear_value x)
    | exact MaskLe.trans (by decide +kernel) hM
    | with_reducible apply fr_pair
    | dsimp -zeta only
def fm_blockRegs : Nat := allRegs ||| 2 ^ 11 ||| 2 ^ 12
theorem State.blockRegs_fr {M s0} (s : State) (B : Nat) (hM : MaskLe fm_blockRegs M) (hs : Fr M s0 s) : Fr M s0 (State.blockRegs s B) := by
  unfold State.blockRegs
  repeat' first
    | (intro x)
    | with_reducible first | assumption
    | (extract_lets +onlyGivenNames x; refine fr_cut x ?_ ?_; (on_goal 2 => dsimp only [x]); (on_goal 1 => clear_value x; intro hx))
    | (extract_lets +onlyGivenNames x; fail_if_success (have : State := x); clear_value x)
    | exact MaskLe.trans (by decide +kernel) hM
    | exact mFld_coarse (MaskLe.trans (by decide +kernel) hM) _
    | (with_reducible refine fr_mk_regs (MaskLe.trans (by decide +kernel) hM) ?_; first | with_reducible assumption)
    | (with_reducible refine fr_mk_staged_dirty (MaskLe.trans (by decide +kernel) hM) ?_; first | with_reducible assumption)
    | with_reducible apply fr_pair
    | dsimp -zeta only
def fm_blockRestart : Nat := 2 ^ 30 ||| fm_reload ||| fm_blockRegs ||| fm_blockClear ||| fm_sectionRenew ||| fm_ctxRenew ||| fm_refreshBlock ||| fm_blockClients
theorem State.blockRestart_fr {M s0} (s : State) (B : Nat) (hM : MaskLe fm_blockRestart M) (hs : Fr M s0 s) : Fr M s0 (State.blockRestart s B) := by
  unfold State.blockRestart
  repeat' first
    | (intro x)
    | with_reducible first | assumption | apply State.reload_fr | apply State.blockRegs_fr | apply State.blockClear_fr | apply State.sectionRenew_fr | apply State.ctxRenew_fr | apply State.refreshBlock_fr | apply State.blockClients_fr | apply fr_ite | apply fr_each
    | (extract_lets +onlyGivenNames x; refine fr_cut x ?_ ?_; (on_goal 2 => dsimp only [x]); (on_goal 1 => clear_value x; intro hx))
    | (extract_lets +onlyGivenNames x; fail_if_success (have : State := x); clear_value x)
    | exact MaskLe.trans (by decide +kernel) hM
    | (with_reducible refine fr_mk_blk (MaskLe.trans (by decide +kernel) hM) ?_; first | with_reducible assumption | with_reducible apply State.reload_fr | with_reducible apply State.blockRegs_fr | with_reducible apply State.blockClear_fr | with_reducible apply State.sectionRenew_fr | with_reducible apply State.ctxRenew_fr | with_reducible apply State.refreshBlock_fr | with_reducible apply State.blockClients_fr)
    | with_reducible apply fr_pair
    | split
    | dsimp -zeta only
def fm_restartRelease : Nat := 2 ^ 30 ||| fm_refreshBlock
theorem State.restartRelease_fr {M s0} (s : State) (lead : Nat) (hM : MaskLe fm_restartRelease M) (hs : Fr M s0 s) : Fr M s0 (State.restartRelease s lead) := by
  unfold State.restartRelease
  repeat' first
    | (intro x)
    | with_reducible first | assumption | apply State.refreshBlock_fr
    | (extract_lets +onlyGivenNames x; refine fr_cut x ?_ ?_; (on_goal 2 => dsimp only [x]); (on_goal 1 => clear_value x; intro hx))
    | (extract_lets +onlyGivenNames x; fail_if_success (have : State := x); clear_value x)
    | exact MaskLe.trans (by decide +kernel) hM
    | (with_reducible refine fr_mk_blk (MaskLe.trans (by decide +kernel) hM) ?_; first | with_reducible assumption | with_reducible apply State.refreshBlock_fr)
    | with_reducible apply fr_pair
    | dsimp -zeta only
def fm_restartInFrame : Nat := fm_restartRelease
theorem State.restartInFrame_fr {M s0} (s : State) (lead : Nat) (hM : MaskLe fm_restartInFrame M) (hs : Fr M s0 s) : Fr M s0 (State.restartInFrame s lead) := by
  unfold State.restartInFrame
  repeat' first
    | (intro x)
    | with_reducible first | assumption | apply State.restartRelease_fr | apply fr_ite
    | exact MaskLe.trans (by decide +kernel) hM
    | with_reducible apply fr_pair
    | split
    | dsimp -zeta only
def fm_restartTimeout : Nat := fm_restartRelease
theorem State.restartTimeout_fr {M s0} (s : State) (lead : Nat) (hM : MaskLe fm_restartTimeout M) (hs : Fr M s0 s) : Fr M s0 (State.restartTimeout s lead) := by
  unfold State.restartTimeout
  repeat' first
    | with_reducible first | assumption | apply State.restartRelease_fr | apply fr_ite
    | exact MaskLe.trans (by decide +kernel) hM
    | split
    | dsimp -zeta only
def fm_showBlock : Nat := mFld ODI_POOL_parents ||| mFld ODI_POOL_used ||| mFld MPT_SHP_USED_used ||| fm_showUsed ||| fm_showMember
theorem State.showBlock_fr {M s0} (s : State) (B : Nat) (hM : MaskLe fm_showBlock M) (hs : Fr M s0 s) : Fr M s0 (State.showBlock s B) := by
  unfold State.showBlock
  repeat' first
    | (intro x)
    | with_reducible first | assumption | apply State.wr_fr | apply State.showUsed_fr | apply State.showMember_fr | apply fr_each
    | (extract_lets +onlyGivenNames x; refine fr_cut x ?_ ?_; (on_goal 2 => dsimp only [x]); (on_goal 1 => clear_value x; intro hx))
    | (extract_lets +onlyGivenNames x; fail_if_success (have : State := x); clear_value x)
    | exact MaskLe.trans (by decide +kernel) hM
    | with_reducible apply fr_pair
    | dsimp -zeta only
def fm_showRegion : Nat := mFld RGN_POOL_egress ||| mFld RGN_POOL_ingress ||| mFld SEL_USED_bridges ||| mFld SEL_USED_groups ||| mFld ISL_USED_groups ||| fm_showFyt ||| fm_showOhqMem
theorem State.showRegion_fr {M s0} (s : State) (r : Nat) (hM : MaskLe fm_showRegion M) (hs : Fr M s0 s) : Fr M s0 (State.showRegion s r) := by
  unfold State.showRegion
  repeat' first
    | (intro x)
    | with_reducible first | assumption | apply State.wr_fr | apply State.showFyt_fr | apply State.showOhqMem_fr
    | (extract_lets +onlyGivenNames x; refine fr_cut x ?_ ?_; (on_goal 2 => dsimp only [x]); (on_goal 1 => clear_value x; intro hx))
    | (extract_lets +onlyGivenNames x; fail_if_success (have : State := x); clear_value x)
    | exact MaskLe.trans (by decide +kernel) hM
    | with_reducible apply fr_pair
    | dsimp -zeta only
def fm_showFault : Nat := mFld FLT_STATUS_fault_n ||| mFld FLT_STATUS_l3_regions ||| mFld FLT_STATUS_max_level
theorem State.showFault_fr {M s0} (s : State) (hM : MaskLe fm_showFault M) (hs : Fr M s0 s) : Fr M s0 (State.showFault s) := by
  unfold State.showFault
  repeat' first
    | (intro x)
    | with_reducible first | assumption | apply State.wrb_fr | apply State.wr_fr | apply fr_ite | apply fr_foldl | apply fr_foldl2 | apply fr_foldl1
    | (extract_lets +onlyGivenNames x; refine fr_cut x ?_ ?_; (on_goal 2 => dsimp only [x]); (on_goal 1 => clear_value x; intro hx))
    | (extract_lets +onlyGivenNames x; fail_if_success (have : State := x); clear_value x)
    | exact MaskLe.trans (by decide +kernel) hM
    | with_reducible apply fr_pair
    | split
    | dsimp -zeta only
def fm_maskLinks : Nat := mTab T_FLT_LINK ||| fm_keepWas
theorem State.maskLinks_fr {M s0} (s : State) (r : Nat) (on : Bool) (hM : MaskLe fm_maskLinks M) (hs : Fr M s0 s) : Fr M s0 (State.maskLinks s r on) := by
  unfold State.maskLinks
  repeat' first
    | (intro x)
    | with_reducible first | assumption | apply State.tputb_fr | apply State.keepWas_fr | apply fr_each | apply fr_when
    | exact MaskLe.trans (by decide +kernel) hM
    | with_reducible apply fr_pair
    | dsimp -zeta only
def fm_isolatedBit : Nat := mFld FLT_STATUS_isolated
theorem State.isolatedBit_fr {M s0} (s : State) (r : Nat) (on : Bool) (hM : MaskLe fm_isolatedBit M) (hs : Fr M s0 s) : Fr M s0 (State.isolatedBit s r on) := by
  unfold State.isolatedBit
  repeat' first
    | with_reducible first | assumption | apply State.wr_fr | apply fr_ite
    | (extract_lets +onlyGivenNames x; refine fr_cut x ?_ ?_; (on_goal 2 => dsimp only [x]); (on_goal 1 => clear_value x; intro hx))
    | (extract_lets +onlyGivenNames x; fail_if_success (have : State := x); clear_value x)
    | exact MaskLe.trans (by decide +kernel) hM
    | split
    | dsimp -zeta only
def fm_goIsolated : Nat := fm_maskLinks ||| fm_isolatedBit ||| fm_setRegion ||| fm_showFault ||| fm_sendOffline
theorem State.goIsolated_fr {M s0} (s : State) (r : Nat) (markers : Bool) (hM : MaskLe fm_goIsolated M) (hs : Fr M s0 s) : Fr M s0 (State.goIsolated s r markers) := by
  unfold State.goIsolated
  repeat' first
    | (intro x)
    | with_reducible first | assumption | apply State.maskLinks_fr | apply State.isolatedBit_fr | apply State.setRegion_fr | apply State.showFault_fr | apply State.sendOffline_fr | apply fr_when
    | (extract_lets +onlyGivenNames x; refine fr_cut x ?_ ?_; (on_goal 2 => dsimp only [x]); (on_goal 1 => clear_value x; intro hx))
    | (extract_lets +onlyGivenNames x; fail_if_success (have : State := x); clear_value x)
    | exact MaskLe.trans (by decide +kernel) hM
    | with_reducible apply fr_pair
    | dsimp -zeta only
def fm_isolate : Nat := 2 ^ 28 ||| fm_goIsolated
theorem State.isolate_fr {M s0} (s : State) (r : Nat) (hM : MaskLe fm_isolate M) (hs : Fr M s0 s) : Fr M s0 (State.isolate s r) := by
  unfold State.isolate
  repeat' first
    | with_reducible first | assumption | apply State.goIsolated_fr | apply fr_ite
    | exact MaskLe.trans (by decide +kernel) hM
    | (with_reducible refine fr_mk_deferredIso (MaskLe.trans (by decide +kernel) hM) ?_; first | with_reducible assumption | with_reducible apply State.goIsolated_fr)
    | split
    | dsimp -zeta only
def fm_wipeRegs : Nat := allRegs ||| allTabs ||| 2 ^ 13 ||| 2 ^ 400 ||| 2 ^ 11 ||| 2 ^ 12
theorem State.wipeRegs_fr {M s0} (s : State) (r : Nat) (clear : Bool) (hM : MaskLe fm_wipeRegs M) (hs : Fr M s0 s) : Fr M s0 (State.wipeRegs s r clear) := by
  unfold State.wipeRegs
  extract_lets gone goneT s1
  clear_value gone goneT
  have h1 : Fr M s0 s1 := fr_mk_regs_regsB_regsC_tabs_tabsB_tabsC_events (MaskLe.trans (by decide +kernel) hM) hs
  clear_value s1
  exact fr_mk_staged_dirty (MaskLe.trans (by decide +kernel) hM) h1
def fm_wipeCells : Nat := 2 ^ 30 ||| 2 ^ 32 ||| 2 ^ 33 ||| 2 ^ 34 ||| 2 ^ 35 ||| 2 ^ 36 ||| 2 ^ 37 ||| 2 ^ 41 ||| 2 ^ 42 ||| 2 ^ 47 ||| 2 ^ 53 ||| 2 ^ 55
theorem State.wipeCells_fr {M s0} (s : State) (r : Nat) (hM : MaskLe fm_wipeCells M) (hs : Fr M s0 s) : Fr M s0 (State.wipeCells s r) := by
  unfold State.wipeCells
  repeat' first
    | (intro x)
    | with_reducible first | assumption | apply fr_ite
    | exact MaskLe.trans (by decide +kernel) hM
    | (with_reducible refine fr_mk_blk_lanes_prbs_epi_slices_points_ctxs_clis_gmps_flowOuts_brgStamp_txFlows (MaskLe.trans (by decide +kernel) hM) ?_; first | with_reducible assumption)
    | with_reducible apply fr_pair
    | split
    | dsimp -zeta only
def fm_clearLinks : Nat := fm_roleChange ||| fm_reload
theorem State.clearLinks_fr {M s0} (s : State) (r : Nat) (hM : MaskLe fm_clearLinks M) (hs : Fr M s0 s) : Fr M s0 (State.clearLinks s r) := by
  unfold State.clearLinks
  repeat' first
    | (intro x)
    | with_reducible first | assumption | apply State.roleChange_fr | apply State.reload_fr | apply fr_each
    | (extract_lets +onlyGivenNames x; refine fr_cut x ?_ ?_; (on_goal 2 => dsimp only [x]); (on_goal 1 => clear_value x; intro hx))
    | (extract_lets +onlyGivenNames x; fail_if_success (have : State := x); clear_value x)
    | exact MaskLe.trans (by decide +kernel) hM
    | with_reducible apply fr_pair
    | dsimp -zeta only
def fm_resetRegion : Nat := fm_wingsRegionReset ||| fm_wipeCells ||| fm_wipeRegs ||| fm_ohqRegionReset ||| fm_cueForget ||| fm_clearLinks ||| fm_prtRegionReset
theorem State.resetRegion_fr {M s0} (s : State) (r : Nat) (clear : Bool) (hM : MaskLe fm_resetRegion M) (hs : Fr M s0 s) : Fr M s0 (State.resetRegion s r clear) := by
  unfold State.resetRegion
  repeat' first
    | (intro x)
    | with_reducible first | assumption | apply State.wingsRegionReset_fr | apply State.wipeCells_fr | apply State.wipeRegs_fr | apply State.ohqRegionReset_fr | apply State.cueForget_fr | apply State.clearLinks_fr | apply State.prtRegionReset_fr | apply fr_when
    | (extract_lets +onlyGivenNames x; refine fr_cut x ?_ ?_; (on_goal 2 => dsimp only [x]); (on_goal 1 => clear_value x; intro hx))
    | (extract_lets +onlyGivenNames x; fail_if_success (have : State := x); clear_value x)
    | exact MaskLe.trans (by decide +kernel) hM
    | with_reducible apply fr_pair
    | dsimp -zeta only
def fm_enterReset : Nat := fm_lastSegments ||| fm_maskLinks ||| fm_showFault ||| fm_resetRegion ||| fm_sendOffline ||| fm_setRegion
theorem State.enterReset_fr {M s0} (s : State) (r : Nat) (clear : Bool) (hM : MaskLe fm_enterReset M) (hs : Fr M s0 s) : Fr M s0 (State.enterReset s r clear) := by
  unfold State.enterReset
  repeat' first
    | (intro x)
    | with_reducible first | assumption | apply State.lastSegments_fr | apply State.maskLinks_fr | apply State.showFault_fr | apply State.resetRegion_fr | apply State.sendOffline_fr | apply State.setRegion_fr | apply fr_when
    | (extract_lets +onlyGivenNames x; refine fr_cut x ?_ ?_; (on_goal 2 => dsimp only [x]); (on_goal 1 => clear_value x; intro hx))
    | (extract_lets +onlyGivenNames x; fail_if_success (have : State := x); clear_value x)
    | exact MaskLe.trans (by decide +kernel) hM
    | with_reducible apply fr_pair
    | dsimp -zeta only
def fm_adoptRegion : Nat := fm_reload ||| fm_showBlock ||| fm_blockClients ||| fm_ctxRenew ||| fm_txStart ||| fm_rxStart ||| fm_brgStart ||| fm_wgStart ||| fm_showRegion ||| fm_grpStart ||| fm_refreshBlock
theorem State.adoptRegion_fr {M s0} (s : State) (r : Nat) (hM : MaskLe fm_adoptRegion M) (hs : Fr M s0 s) : Fr M s0 (State.adoptRegion s r) := by
  unfold State.adoptRegion
  repeat' first
    | (intro x)
    | with_reducible first | assumption | apply State.reload_fr | apply State.showBlock_fr | apply State.blockClients_fr | apply State.ctxRenew_fr | apply State.txStart_fr | apply State.rxStart_fr | apply State.brgStart_fr | apply State.wgStart_fr | apply State.showRegion_fr | apply State.grpStart_fr | apply State.refreshBlock_fr | apply fr_each
    | (extract_lets +onlyGivenNames x; refine fr_cut x ?_ ?_; (on_goal 2 => dsimp only [x]); (on_goal 1 => clear_value x; intro hx))
    | (extract_lets +onlyGivenNames x; fail_if_success (have : State := x); clear_value x)
    | exact MaskLe.trans (by decide +kernel) hM
    | with_reducible apply fr_pair
    | dsimp -zeta only
def fm_leaveReset : Nat := 2 ^ 28 ||| fm_isolatedBit ||| fm_goIsolated ||| fm_showFault ||| fm_setRegion ||| fm_adoptRegion
theorem State.leaveReset_fr {M s0} (s : State) (r dst : Nat) (hM : MaskLe fm_leaveReset M) (hs : Fr M s0 s) : Fr M s0 (State.leaveReset s r dst) := by
  unfold State.leaveReset
  repeat' first
    | (intro x)
    | with_reducible first | assumption | apply State.isolatedBit_fr | apply State.goIsolated_fr | apply State.showFault_fr | apply State.setRegion_fr | apply State.adoptRegion_fr | apply fr_ite
    | (extract_lets +onlyGivenNames x; refine fr_cut x ?_ ?_; (on_goal 2 => dsimp only [x]); (on_goal 1 => clear_value x; intro hx))
    | (extract_lets +onlyGivenNames x; fail_if_success (have : State := x); clear_value x)
    | exact MaskLe.trans (by decide +kernel) hM
    | (with_reducible refine fr_mk_deferredIso (MaskLe.trans (by decide +kernel) hM) ?_; first | with_reducible assumption | with_reducible apply State.isolatedBit_fr | with_reducible apply State.goIsolated_fr | with_reducible apply State.showFault_fr | with_reducible apply State.setRegion_fr | with_reducible apply State.adoptRegion_fr)
    | with_reducible apply fr_pair
    | split
    | dsimp -zeta only
def fm_regionResetDone : Nat := fm_leaveReset ||| fm_modeEnd
theorem State.regionResetDone_fr {M s0} (s : State) (r : Nat) (hM : MaskLe fm_regionResetDone M) (hs : Fr M s0 s) : Fr M s0 (State.regionResetDone s r) := by
  unfold State.regionResetDone
  repeat' first
    | with_reducible first | assumption | apply State.leaveReset_fr | apply State.modeEnd_fr | apply fr_ite
    | (extract_lets +onlyGivenNames x; refine fr_cut x ?_ ?_; (on_goal 2 => dsimp only [x]); (on_goal 1 => clear_value x; intro hx))
    | (extract_lets +onlyGivenNames x; fail_if_success (have : State := x); clear_value x)
    | exact MaskLe.trans (by decide +kernel) hM
    | with_reducible apply fr_pair
    | split
    | dsimp -zeta only
def fm_holdEnsemble : Nat := mFld (enRunF 1) ||| mFld (enRunF 0)
theorem State.holdEnsemble_fr {M s0} (s : State) (hM : MaskLe fm_holdEnsemble M) (hs : Fr M s0 s) : Fr M s0 (State.holdEnsemble s) := by
  unfold State.holdEnsemble
  repeat' first
    | with_reducible first | assumption | apply State.wr_fr
    | exact MaskLe.trans (by decide +kernel) hM
    | dsimp -zeta only
def fm_startCore : Nat := mFld FWM_EN_STATUS_run0 ||| mFld FWM_EN_STATUS_run1 ||| 2 ^ 99 ||| 2 ^ 100
theorem State.startCore_fr {M s0} (s : State) (i : Nat) (hM : MaskLe fm_startCore M) (hs : Fr M s0 s) : Fr M s0 (State.startCore s i) := by
  unfold State.startCore
  repeat' first
    | with_reducible first | assumption | apply State.wr_fr | apply fr_ite
    | exact MaskLe.trans (by decide +kernel) hM
    | (with_reducible show MaskLe (mFld (enRunF _)) _; unfold enRunF; split <;> exact MaskLe.trans (by decide +kernel) hM)
    | (with_reducible refine fr_mk_enStart_kickAt (MaskLe.trans (by decide +kernel) hM) ?_; first | with_reducible assumption | with_reducible apply State.wr_fr)
    | split
    | dsimp -zeta only
def fm_safeEffects : Nat := fm_showFault ||| fm_holdEnsemble ||| fm_sendOffline ||| fm_modeEnd ||| fm_applyFylTests ||| fm_applyTests
theorem State.safeEffects_fr {M s0} (s : State) (hM : MaskLe fm_safeEffects M) (hs : Fr M s0 s) : Fr M s0 (State.safeEffects s) := by
  unfold State.safeEffects
  repeat' first
    | (intro x)
    | with_reducible first | assumption | apply State.showFault_fr | apply State.holdEnsemble_fr | apply State.sendOffline_fr | apply State.modeEnd_fr | apply State.applyFylTests_fr | apply State.applyTests_fr | apply fr_ite | apply fr_each
    | (extract_lets +onlyGivenNames x; refine fr_cut x ?_ ?_; (on_goal 2 => dsimp only [x]); (on_goal 1 => clear_value x; intro hx))
    | (extract_lets +onlyGivenNames x; fail_if_success (have : State := x); clear_value x)
    | exact MaskLe.trans (by decide +kernel) hM
    | with_reducible apply fr_pair
    | split
    | dsimp -zeta only
def fm_enterSafe : Nat := 2 ^ 103 ||| mFld FLT_STATUS_safe ||| fm_safeEffects ||| fm_setMode
theorem State.enterSafe_fr {M s0} (s : State) (fault : Bool) (hM : MaskLe fm_enterSafe M) (hs : Fr M s0 s) : Fr M s0 (State.enterSafe s fault) := by
  unfold State.enterSafe
  repeat' first
    | (intro x)
    | with_reducible first | assumption | apply State.safeEffects_fr | apply State.setMode_fr | apply State.wrb_fr | apply fr_ite | apply fr_when
    | (extract_lets +onlyGivenNames x; refine fr_cut x ?_ ?_; (on_goal 2 => dsimp only [x]); (on_goal 1 => clear_value x; intro hx))
    | (extract_lets +onlyGivenNames x; fail_if_success (have : State := x); clear_value x)
    | exact MaskLe.trans (by decide +kernel) hM
    | (with_reducible refine fr_mk_callStop (MaskLe.trans (by decide +kernel) hM) ?_; first | with_reducible assumption | with_reducible apply State.safeEffects_fr | with_reducible apply State.setMode_fr | with_reducible apply State.wrb_fr)
    | with_reducible apply fr_pair
    | split
    | dsimp -zeta only
def fm_modeLost : Nat := mFld MODE_model ||| mFld MODE_service ||| mFld MODE_current ||| mFld FLT_STATUS_safe ||| fm_logRec ||| fm_ev ||| fm_safeEffects ||| fm_report ||| fm_setErr
theorem State.modeLost_fr {M s0} (s : State) (hM : MaskLe fm_modeLost M) (hs : Fr M s0 s) : Fr M s0 (State.modeLost s) := by
  unfold State.modeLost
  repeat' first
    | with_reducible first | assumption | apply State.wr_fr | apply State.logRec_fr | apply State.ev_fr | apply State.safeEffects_fr | apply State.wrb_fr | apply State.report_fr | apply State.setErr_fr
    | (extract_lets +onlyGivenNames x; refine fr_cut x ?_ ?_; (on_goal 2 => dsimp only [x]); (on_goal 1 => clear_value x; intro hx))
    | (extract_lets +onlyGivenNames x; fail_if_success (have : State := x); clear_value x)
    | exact MaskLe.trans (by decide +kernel) hM
    | dsimp -zeta only
def fm_showState : Nat := mTab T_FLT_STATE
theorem State.showState_fr {M s0} (s : State) (e : Nat) (hM : MaskLe fm_showState M) (hs : Fr M s0 s) : Fr M s0 (State.showState s e) := by
  unfold State.showState
  repeat' first
    | with_reducible first | assumption | apply State.tput_fr
    | exact MaskLe.trans (by decide +kernel) hM
    | dsimp -zeta only
def fm_levelAction : Nat := fm_blockRestart ||| fm_isolate ||| fm_enterSafe
theorem State.levelAction_fr {M s0} (s : State) (a sent src sc : Nat) (hM : MaskLe fm_levelAction M) (hs : Fr M s0 s) : Fr M s0 (State.levelAction s a sent src sc) := by
  unfold State.levelAction
  repeat' first
    | with_reducible first | assumption | apply State.blockRestart_fr | apply State.isolate_fr | apply State.enterSafe_fr | apply fr_ite
    | exact MaskLe.trans (by decide +kernel) hM
    | with_reducible apply fr_pair
    | split
    | dsimp -zeta only
def fm_levelEntry : Nat := fm_logRec ||| fm_ev
theorem State.levelEntry_fr {M s0} (s : State) (e old new cause src : Nat) (hM : MaskLe fm_levelEntry M) (hs : Fr M s0 s) : Fr M s0 (State.levelEntry s e old new cause src) := by
  unfold State.levelEntry
  repeat' first
    | with_reducible first | assumption | apply State.logRec_fr | apply State.ev_fr | apply fr_ite
    | (extract_lets +onlyGivenNames x; refine fr_cut x ?_ ?_; (on_goal 2 => dsimp only [x]); (on_goal 1 => clear_value x; intro hx))
    | (extract_lets +onlyGivenNames x; fail_if_success (have : State := x); clear_value x)
    | exact MaskLe.trans (by decide +kernel) hM
    | split
    | dsimp -zeta only
def fm_raiseLevel : Nat := mTab T_FLT_CNT ||| mTab T_FLT_STATE ||| fm_levelEntry ||| fm_levelAction
theorem State.raiseLevel_fr {M s0} (s : State) (e new cause sent src : Nat) (hM : MaskLe fm_raiseLevel M) (hs : Fr M s0 s) : Fr M s0 (State.raiseLevel s e new cause sent src) := by
  unfold State.raiseLevel
  repeat' first
    | (intro x)
    | with_reducible first | assumption | apply State.levelEntry_fr | apply State.tcountSat_fr | apply State.tput_fr | apply State.levelAction_fr | apply fr_ite | apply fr_each
    | (extract_lets +onlyGivenNames x; refine fr_cut x ?_ ?_; (on_goal 2 => dsimp only [x]); (on_goal 1 => clear_value x; intro hx))
    | (extract_lets +onlyGivenNames x; fail_if_success (have : State := x); clear_value x)
    | exact MaskLe.trans (by decide +kernel) hM
    | with_reducible apply fr_pair
    | split
    | dsimp -zeta only
def fm_smAction : Nat := 2 ^ 88
theorem State.smAction_fr {M s0} (s : State) (c : Nat) (hM : MaskLe fm_smAction M) (hs : Fr M s0 s) : Fr M s0 (State.smAction s c) := by
  unfold State.smAction
  repeat' first
    | with_reducible first | assumption | apply fr_ite
    | exact MaskLe.trans (by decide +kernel) hM
    | (with_reducible refine fr_mk_smHeld (MaskLe.trans (by decide +kernel) hM) ?_; first | with_reducible assumption)
    | split
    | dsimp -zeta only
def fm_judge : Nat := mTab T_FLT_CNT ||| 2 ^ 17 ||| mTab T_FLT_STATE ||| fm_raiseLevel ||| fm_logReport ||| fm_showFault ||| fm_smAction ||| fm_showState
theorem State.judge_fr {M s0} (s : State) (c0 l0 src n : Nat) (mixed : Bool) (hM : MaskLe fm_judge M) (hs : Fr M s0 s) : Fr M s0 (State.judge s c0 l0 src n mixed) := by
  unfold State.judge
  repeat' first
    | (intro x)
    | with_reducible first | assumption | apply State.tcount_fr | apply State.tput_fr | apply State.tputb_fr | apply State.raiseLevel_fr | apply State.logReport_fr | apply State.showFault_fr | apply State.smAction_fr | apply State.showState_fr | apply fr_ite
    | (extract_lets +onlyGivenNames x; refine fr_cut x ?_ ?_; (on_goal 2 => dsimp only [x]); (on_goal 1 => clear_value x; intro hx))
    | (extract_lets +onlyGivenNames x; fail_if_success (have : State := x); clear_value x)
    | exact MaskLe.trans (by decide +kernel) hM
    | (with_reducible refine fr_mk_fltWin (MaskLe.trans (by decide +kernel) hM) ?_; first | with_reducible assumption | with_reducible apply State.tcount_fr | with_reducible apply State.tput_fr | with_reducible apply State.tputb_fr | with_reducible apply State.raiseLevel_fr | with_reducible apply State.logReport_fr | with_reducible apply State.showFault_fr | with_reducible apply State.smAction_fr | with_reducible apply State.showState_fr)
    | with_reducible apply fr_pair
    | split
    | dsimp -zeta only
def fm_judgeWord : Nat := fm_judge
theorem State.judgeWord_fr {M s0} (s : State) (w : Nat) (hM : MaskLe fm_judgeWord M) (hs : Fr M s0 s) : Fr M s0 (State.judgeWord s w) := by
  unfold State.judgeWord
  repeat' first
    | with_reducible first | assumption | apply State.judge_fr
    | exact MaskLe.trans (by decide +kernel) hM
    | dsimp -zeta only
def fm_fltSettle : Nat := 2 ^ 18 ||| fm_judgeWord
theorem State.fltSettle_fr {M s0} (s : State) (hM : MaskLe fm_fltSettle M) (hs : Fr M s0 s) : Fr M s0 (State.fltSettle s) := by
  unfold State.fltSettle
  repeat' first
    | (intro x)
    | with_reducible first | assumption | apply State.judgeWord_fr | apply fr_ite | apply fr_each
    | exact MaskLe.trans (by decide +kernel) hM
    | (with_reducible refine fr_mk_col (MaskLe.trans (by decide +kernel) hM) ?_; first | with_reducible assumption | with_reducible apply State.judgeWord_fr)
    | with_reducible apply fr_pair
    | split
    | dsimp -zeta only
def fm_fltEnd : Nat := fm_fltSettle
theorem State.fltEnd_fr {M s0} (s : State) (hM : MaskLe fm_fltEnd M) (hs : Fr M s0 s) : Fr M s0 (State.fltEnd s) := by
  unfold State.fltEnd
  repeat' first
    | with_reducible first | assumption | apply State.fltSettle_fr | apply fr_ite
    | exact MaskLe.trans (by decide +kernel) hM
    | split
    | dsimp -zeta only
def fm_reportWord : Nat := 2 ^ 16 ||| mTab T_FLT_LINK ||| mFld FLT_WORDS ||| mFld FLT_MASKED ||| mFld FLT_INJECT_STATUS_refused ||| 2 ^ 18 ||| fm_ev
theorem State.reportWord_fr {M s0} (s : State) (link : Nat) (hM : MaskLe fm_reportWord M) (hs : Fr M s0 s) : Fr M s0 (State.reportWord s link) := by
  unfold State.reportWord
  repeat' first
    | with_reducible first | assumption | apply State.tcount_fr | apply State.count_fr | apply State.ev_fr | apply State.wrb_fr | apply fr_ite
    | (extract_lets +onlyGivenNames x; refine fr_cut x ?_ ?_; (on_goal 2 => dsimp only [x]); (on_goal 1 => clear_value x; intro hx))
    | (extract_lets +onlyGivenNames x; fail_if_success (have : State := x); clear_value x)
    | exact MaskLe.trans (by decide +kernel) hM
    | (with_reducible refine fr_mk_slots (MaskLe.trans (by decide +kernel) hM) ?_; first | with_reducible assumption | with_reducible apply State.tcount_fr | with_reducible apply State.count_fr | with_reducible apply State.ev_fr | with_reducible apply State.wrb_fr)
    | (with_reducible refine fr_mk_col (MaskLe.trans (by decide +kernel) hM) ?_; first | with_reducible assumption | with_reducible apply State.tcount_fr | with_reducible apply State.count_fr | with_reducible apply State.ev_fr | with_reducible apply State.wrb_fr)
    | with_reducible apply fr_pair
    | split
    | dsimp -zeta only
def fm_breakLink : Nat := mTab T_FLT_LINK ||| fm_report ||| fm_ev
theorem State.breakLink_fr {M s0} (s : State) (link : Nat) (hM : MaskLe fm_breakLink M) (hs : Fr M s0 s) : Fr M s0 (State.breakLink s link) := by
  unfold State.breakLink
  repeat' first
    | with_reducible first | assumption | apply State.report_fr | apply State.ev_fr | apply State.tputb_fr | apply fr_ite
    | exact MaskLe.trans (by decide +kernel) hM
    | split
    | dsimp -zeta only
def fm_reportResend : Nat := mFld FLT_RETRY ||| 2 ^ 16 ||| fm_breakLink
theorem State.reportResend_fr {M s0} (s : State) (link : Nat) (hM : MaskLe fm_reportResend M) (hs : Fr M s0 s) : Fr M s0 (State.reportResend s link) := by
  unfold State.reportResend
  repeat' first
    | (intro x)
    | with_reducible first | assumption | apply State.count_fr | apply State.breakLink_fr | apply fr_ite
    | (extract_lets +onlyGivenNames x; refine fr_cut x ?_ ?_; (on_goal 2 => dsimp only [x]); (on_goal 1 => clear_value x; intro hx))
    | (extract_lets +onlyGivenNames x; fail_if_success (have : State := x); clear_value x)
    | exact MaskLe.trans (by decide +kernel) hM
    | (with_reducible refine fr_mk_slots (MaskLe.trans (by decide +kernel) hM) ?_; first | with_reducible assumption | with_reducible apply State.count_fr | with_reducible apply State.breakLink_fr)
    | with_reducible apply fr_pair
    | split
    | dsimp -zeta only
def fm_leaveFault : Nat := mTab T_FLT_CNT ||| mTab T_FLT_STATE ||| fm_ev ||| fm_levelEntry
theorem State.leaveFault_fr {M s0} (s : State) (e : Nat) (hM : MaskLe fm_leaveFault M) (hs : Fr M s0 s) : Fr M s0 (State.leaveFault s e) := by
  unfold State.leaveFault
  repeat' first
    | (intro x)
    | with_reducible first | assumption | apply State.tcountSat_fr | apply State.tput_fr | apply State.ev_fr | apply State.levelEntry_fr | apply fr_ite | apply fr_each
    | (extract_lets +onlyGivenNames x; refine fr_cut x ?_ ?_; (on_goal 2 => dsimp only [x]); (on_goal 1 => clear_value x; intro hx))
    | (extract_lets +onlyGivenNames x; fail_if_success (have : State := x); clear_value x)
    | exact MaskLe.trans (by decide +kernel) hM
    | with_reducible apply fr_pair
    | split
    | dsimp -zeta only
def fm_ageState : Nat := 2 ^ 17 ||| fm_leaveFault ||| fm_showState
theorem State.ageState_fr {M s0} (s : State) (e : Nat) (hM : MaskLe fm_ageState M) (hs : Fr M s0 s) : Fr M s0 (State.ageState s e) := by
  unfold State.ageState
  repeat' first
    | (intro x)
    | with_reducible first | assumption | apply State.leaveFault_fr | apply State.showState_fr | apply fr_ite
    | (extract_lets +onlyGivenNames x; refine fr_cut x ?_ ?_; (on_goal 2 => dsimp only [x]); (on_goal 1 => clear_value x; intro hx))
    | (extract_lets +onlyGivenNames x; fail_if_success (have : State := x); clear_value x)
    | exact MaskLe.trans (by decide +kernel) hM
    | (with_reducible refine fr_mk_fltWin (MaskLe.trans (by decide +kernel) hM) ?_; first | with_reducible assumption | with_reducible apply State.leaveFault_fr | with_reducible apply State.showState_fr)
    | with_reducible apply fr_pair
    | split
    | dsimp -zeta only
def fm_ageScan : Nat := 2 ^ 18 ||| fm_showFault ||| fm_ageState
theorem State.ageScan_fr {M s0} (s : State) (hM : MaskLe fm_ageScan M) (hs : Fr M s0 s) : Fr M s0 (State.ageScan s) := by
  unfold State.ageScan
  repeat' first
    | (intro x)
    | with_reducible first | assumption | apply State.showFault_fr | apply State.ageState_fr | apply fr_each
    | exact MaskLe.trans (by decide +kernel) hM
    | (with_reducible refine fr_mk_col (MaskLe.trans (by decide +kernel) hM) ?_; first | with_reducible assumption | with_reducible apply State.showFault_fr | with_reducible apply State.ageState_fr)
    | dsimp -zeta only
def fm_fltAck : Nat := mTab T_FLT_STATE
theorem State.fltAck_fr {M s0} (s : State) (v : Nat) (hM : MaskLe fm_fltAck M) (hs : Fr M s0 s) : Fr M s0 (State.fltAck s v) := by
  unfold State.fltAck
  repeat' first
    | (intro x)
    | with_reducible first | assumption | apply State.tput_fr | apply fr_ite | apply fr_each
    | (extract_lets +onlyGivenNames x; refine fr_cut x ?_ ?_; (on_goal 2 => dsimp only [x]); (on_goal 1 => clear_value x; intro hx))
    | (extract_lets +onlyGivenNames x; fail_if_success (have : State := x); clear_value x)
    | exact MaskLe.trans (by decide +kernel) hM
    | with_reducible apply fr_pair
    | split
    | dsimp -zeta only
def fm_fltInject : Nat := mFld FLT_INJECT_STATUS_refused ||| fm_reportOn
theorem State.fltInject_fr {M s0} (s : State) (v : Nat) (hM : MaskLe fm_fltInject M) (hs : Fr M s0 s) : Fr M s0 (State.fltInject s v) := by
  unfold State.fltInject
  repeat' first
    | with_reducible first | assumption | apply State.reportOn_fr | apply State.wrb_fr | apply fr_ite
    | exact MaskLe.trans (by decide +kernel) hM
    | split
    | dsimp -zeta only
def fm_bankRaise : Nat := mTab T_FLT_STATE ||| 2 ^ 17 ||| fm_raiseLevel ||| fm_showFault ||| fm_showState
theorem State.bankRaise_fr {M s0} (s : State) (wasOnly : Bool) (hM : MaskLe fm_bankRaise M) (hs : Fr M s0 s) : Fr M s0 (State.bankRaise s wasOnly) := by
  unfold State.bankRaise
  repeat' first
    | (intro x)
    | with_reducible first | assumption | apply State.tput_fr | apply State.tputb_fr | apply State.raiseLevel_fr | apply State.showFault_fr | apply State.showState_fr | apply fr_ite
    | (extract_lets +onlyGivenNames x; refine fr_cut x ?_ ?_; (on_goal 2 => dsimp only [x]); (on_goal 1 => clear_value x; intro hx))
    | (extract_lets +onlyGivenNames x; fail_if_success (have : State := x); clear_value x)
    | exact MaskLe.trans (by decide +kernel) hM
    | (with_reducible refine fr_mk_fltWin (MaskLe.trans (by decide +kernel) hM) ?_; first | with_reducible assumption | with_reducible apply State.tput_fr | with_reducible apply State.tputb_fr | with_reducible apply State.raiseLevel_fr | with_reducible apply State.showFault_fr | with_reducible apply State.showState_fr)
    | with_reducible apply fr_pair
    | split
    | dsimp -zeta only
def fm_logWriteStep : Nat := fm_bankRaise ||| fm_logWrite
theorem State.logWriteStep_fr {M s0} (s : State) (bad : Bool) (hM : MaskLe fm_logWriteStep M) (hs : Fr M s0 s) : Fr M s0 (State.logWriteStep s bad) := by
  unfold State.logWriteStep
  repeat' first
    | with_reducible first | assumption | apply State.bankRaise_fr | apply State.logWrite_fr
    | exact MaskLe.trans (by decide +kernel) hM
    | dsimp -zeta only
def fm_bankFailStep : Nat := fm_bankRaise ||| fm_bankFail
theorem State.bankFailStep_fr {M s0} (s : State) (k : Nat) (hM : MaskLe fm_bankFailStep M) (hs : Fr M s0 s) : Fr M s0 (State.bankFailStep s k) := by
  unfold State.bankFailStep
  repeat' first
    | with_reducible first | assumption | apply State.bankRaise_fr | apply State.bankFail_fr
    | exact MaskLe.trans (by decide +kernel) hM
    | dsimp -zeta only
def fm_bankFailAt : Nat := 2 ^ 18 ||| fm_bankRaise ||| fm_bankFail ||| fm_bankFailStep
theorem State.bankFailAt_fr {M s0} (s : State) (k : Nat) (hM : MaskLe fm_bankFailAt M) (hs : Fr M s0 s) : Fr M s0 (State.bankFailAt s k) := by
  unfold State.bankFailAt
  repeat' first
    | with_reducible first | assumption | apply State.bankRaise_fr | apply State.bankFail_fr | apply State.bankFailStep_fr | apply fr_ite
    | (extract_lets +onlyGivenNames x; refine fr_cut x ?_ ?_; (on_goal 2 => dsimp only [x]); (on_goal 1 => clear_value x; intro hx))
    | (extract_lets +onlyGivenNames x; fail_if_success (have : State := x); clear_value x)
    | exact MaskLe.trans (by decide +kernel) hM
    | (with_reducible refine fr_mk_col (MaskLe.trans (by decide +kernel) hM) ?_; first | with_reducible assumption | with_reducible apply State.bankRaise_fr | with_reducible apply State.bankFail_fr | with_reducible apply State.bankFailStep_fr)
    | with_reducible apply fr_pair
    | split
    | dsimp -zeta only
def fm_itemError : Nat := fm_report ||| fm_poisonWord
theorem State.itemError_fr {M s0} (s : State) (x : ItemError) (hM : MaskLe fm_itemError M) (hs : Fr M s0 s) : Fr M s0 (State.itemError s x) := by
  unfold State.itemError
  repeat' first
    | with_reducible first | assumption | apply State.report_fr | apply State.poisonWord_fr | apply fr_ite
    | exact MaskLe.trans (by decide +kernel) hM
    | with_reducible apply fr_pair
    | split
    | dsimp -zeta only
def fm_smExpiry : Nat := fm_report
theorem State.smExpiry_fr {M s0} (s : State) (lockstep : Bool) (hM : MaskLe fm_smExpiry M) (hs : Fr M s0 s) : Fr M s0 (State.smExpiry s lockstep) := by
  unfold State.smExpiry
  repeat' first
    | with_reducible first | assumption | apply State.report_fr | apply fr_ite
    | exact MaskLe.trans (by decide +kernel) hM
    | split
    | dsimp -zeta only
def fm_setCsu : Nat := 2 ^ 84
theorem State.setCsu_fr {M s0} (s : State) (u : Nat) (f : Csu → Csu) (hM : MaskLe fm_setCsu M) (hs : Fr M s0 s) : Fr M s0 (State.setCsu s u f) := by
  unfold State.setCsu
  repeat' first
    | with_reducible first | assumption
    | exact MaskLe.trans (by decide +kernel) hM
    | (with_reducible refine fr_mk_csus (MaskLe.trans (by decide +kernel) hM) ?_; first | with_reducible assumption)
    | dsimp -zeta only
def fm_lastGasp : Nat := mFld LOG_HEAD_seq ||| fm_ghostWrite
theorem State.lastGasp_fr {M s0} (s : State) (cls src : Nat) (hM : MaskLe fm_lastGasp M) (hs : Fr M s0 s) : Fr M s0 (State.lastGasp s cls src) := by
  unfold State.lastGasp
  repeat' first
    | with_reducible first | assumption | apply State.wr_fr | apply State.ghostWrite_fr
    | (extract_lets +onlyGivenNames x; refine fr_cut x ?_ ?_; (on_goal 2 => dsimp only [x]); (on_goal 1 => clear_value x; intro hx))
    | (extract_lets +onlyGivenNames x; fail_if_success (have : State := x); clear_value x)
    | exact MaskLe.trans (by decide +kernel) hM
    | dsimp -zeta only
def fm_coreStop : Nat := mFld HST_LINK_up ||| mFld FLT_STATUS_fault_n ||| 2 ^ 102 ||| fm_lastGasp
theorem State.coreStop_fr {M s0} (s : State) (cls src : Nat) (hM : MaskLe fm_coreStop M) (hs : Fr M s0 s) : Fr M s0 (State.coreStop s cls src) := by
  unfold State.coreStop
  repeat' first
    | with_reducible first | assumption | apply State.wrb_fr | apply State.lastGasp_fr
    | (extract_lets +onlyGivenNames x; refine fr_cut x ?_ ?_; (on_goal 2 => dsimp only [x]); (on_goal 1 => clear_value x; intro hx))
    | (extract_lets +onlyGivenNames x; fail_if_success (have : State := x); clear_value x)
    | exact MaskLe.trans (by decide +kernel) hM
    | (with_reducible refine fr_mk_dom (MaskLe.trans (by decide +kernel) hM) ?_; first | with_reducible assumption | with_reducible apply State.wrb_fr | with_reducible apply State.lastGasp_fr)
    | dsimp -zeta only
def fm_linkGated : Nat := mFld FYL_STATUS_lane_lock ||| fm_failLink ||| fm_unalign ||| fm_setFyl
theorem State.linkGated_fr {M s0} (s : State) (m : Nat) (hM : MaskLe fm_linkGated M) (hs : Fr M s0 s) : Fr M s0 (State.linkGated s m) := by
  unfold State.linkGated
  repeat' first
    | (intro x)
    | with_reducible first | assumption | apply State.wr_fr | apply State.failLink_fr | apply State.unalign_fr | apply State.setFyl_fr
    | (extract_lets +onlyGivenNames x; refine fr_cut x ?_ ?_; (on_goal 2 => dsimp only [x]); (on_goal 1 => clear_value x; intro hx))
    | (extract_lets +onlyGivenNames x; fail_if_success (have : State := x); clear_value x)
    | exact MaskLe.trans (by decide +kernel) hM
    | with_reducible apply fr_pair
    | dsimp -zeta only
def fm_gateEffects : Nat := fm_laneStop ||| fm_lineLos ||| fm_linkGated ||| fm_stackFail
theorem State.gateEffects_fr {M s0} (s : State) (u : Nat) (hM : MaskLe fm_gateEffects M) (hs : Fr M s0 s) : Fr M s0 (State.gateEffects s u) := by
  unfold State.gateEffects
  repeat' first
    | (intro x)
    | with_reducible first | assumption | apply State.laneStop_fr | apply State.lineLos_fr | apply State.linkGated_fr | apply State.stackFail_fr | apply fr_ite | apply fr_each
    | exact MaskLe.trans (by decide +kernel) hM
    | with_reducible apply fr_pair
    | split
    | dsimp -zeta only
def fm_gate : Nat := mFld CSU_STATUS_margin ||| mFld CSU_STATUS_locked ||| mFld CSU_STATUS_gated ||| fm_gateEffects
theorem State.gate_fr {M s0} (s : State) (u : Nat) (hM : MaskLe fm_gate M) (hs : Fr M s0 s) : Fr M s0 (State.gate s u) := by
  unfold State.gate
  repeat' first
    | (intro x)
    | with_reducible first | assumption | apply State.wr_fr | apply State.wrb_fr | apply State.gateEffects_fr | apply fr_when
    | (extract_lets +onlyGivenNames x; refine fr_cut x ?_ ?_; (on_goal 2 => dsimp only [x]); (on_goal 1 => clear_value x; intro hx))
    | (extract_lets +onlyGivenNames x; fail_if_success (have : State := x); clear_value x)
    | exact MaskLe.trans (by decide +kernel) hM
    | with_reducible apply fr_pair
    | dsimp -zeta only
def fm_csuLock : Nat := mFld CSU_STATUS_margin ||| mFld CSU_STATUS_band_edge ||| mFld CSU_STATUS_locked ||| mFld CSU_STATUS_gated ||| fm_free ||| fm_ev
theorem State.csuLock_fr {M s0} (s : State) (u : Nat) (hM : MaskLe fm_csuLock M) (hs : Fr M s0 s) : Fr M s0 (State.csuLock s u) := by
  unfold State.csuLock
  repeat' first
    | with_reducible first | assumption | apply State.free_fr | apply State.ev_fr | apply State.wr_fr | apply State.wrb_fr
    | (extract_lets +onlyGivenNames x; refine fr_cut x ?_ ?_; (on_goal 2 => dsimp only [x]); (on_goal 1 => clear_value x; intro hx))
    | (extract_lets +onlyGivenNames x; fail_if_success (have : State := x); clear_value x)
    | exact MaskLe.trans (by decide +kernel) hM
    | with_reducible apply fr_pair
    | split
    | dsimp -zeta only
def fm_updCheck : Nat := 2 ^ 85 ||| fm_showFyt ||| fm_unfail ||| fm_modeEnd ||| fm_ev
theorem State.updCheck_fr {M s0} (s : State) (r : Nat) (hM : MaskLe fm_updCheck M) (hs : Fr M s0 s) : Fr M s0 (State.updCheck s r) := by
  unfold State.updCheck
  repeat' first
    | (intro x)
    | with_reducible first | assumption | apply State.showFyt_fr | apply State.unfail_fr | apply State.modeEnd_fr | apply State.ev_fr | apply fr_ite | apply fr_each
    | (extract_lets +onlyGivenNames x; refine fr_cut x ?_ ?_; (on_goal 2 => dsimp only [x]); (on_goal 1 => clear_value x; intro hx))
    | (extract_lets +onlyGivenNames x; fail_if_success (have : State := x); clear_value x)
    | exact MaskLe.trans (by decide +kernel) hM
    | (with_reducible refine fr_mk_upd (MaskLe.trans (by decide +kernel) hM) ?_; first | with_reducible assumption | with_reducible apply State.showFyt_fr | with_reducible apply State.unfail_fr | with_reducible apply State.modeEnd_fr | with_reducible apply State.ev_fr)
    | with_reducible apply fr_pair
    | split
    | dsimp -zeta only
def fm_callClocks : Nat := mFld CHIP_ID_AVS_ready ||| mFld MODE_CALL_step
theorem State.callClocks_fr {M s0} (s : State) (hM : MaskLe fm_callClocks M) (hs : Fr M s0 s) : Fr M s0 (State.callClocks s) := by
  unfold State.callClocks
  repeat' first
    | with_reducible first | assumption | apply State.wrb_fr | apply State.wr_fr | apply fr_ite
    | (extract_lets +onlyGivenNames x; refine fr_cut x ?_ ?_; (on_goal 2 => dsimp only [x]); (on_goal 1 => clear_value x; intro hx))
    | (extract_lets +onlyGivenNames x; fail_if_success (have : State := x); clear_value x)
    | exact MaskLe.trans (by decide +kernel) hM
    | split
    | dsimp -zeta only
def fm_rebandAnswer : Nat := mFld CSU_CMD_STATUS_code ||| mFld CSU_STATUS_reband_busy ||| fm_setCsu
theorem State.rebandAnswer_fr {M s0} (s : State) (u : Nat) (hM : MaskLe fm_rebandAnswer M) (hs : Fr M s0 s) : Fr M s0 (State.rebandAnswer s u) := by
  unfold State.rebandAnswer
  repeat' first
    | (intro x)
    | with_reducible first | assumption | apply State.wr_fr | apply State.wrb_fr | apply State.setCsu_fr | apply fr_each
    | (extract_lets +onlyGivenNames x; refine fr_cut x ?_ ?_; (on_goal 2 => dsimp only [x]); (on_goal 1 => clear_value x; intro hx))
    | (extract_lets +onlyGivenNames x; fail_if_success (have : State := x); clear_value x)
    | exact MaskLe.trans (by decide +kernel) hM
    | with_reducible apply fr_pair
    | dsimp -zeta only
def fm_noBand : Nat := mFld CSU_STATUS_no_band ||| fm_rebandAnswer ||| fm_setCsu ||| fm_coreStop ||| fm_report
theorem State.noBand_fr {M s0} (s : State) (u : Nat) (hM : MaskLe fm_noBand M) (hs : Fr M s0 s) : Fr M s0 (State.noBand s u) := by
  unfold State.noBand
  repeat' first
    | (intro x)
    | with_reducible first | assumption | apply State.rebandAnswer_fr | apply State.setCsu_fr | apply State.wrb_fr | apply State.coreStop_fr | apply State.report_fr | apply fr_ite | apply fr_when
    | (extract_lets +onlyGivenNames x; refine fr_cut x ?_ ?_; (on_goal 2 => dsimp only [x]); (on_goal 1 => clear_value x; intro hx))
    | (extract_lets +onlyGivenNames x; fail_if_success (have : State := x); clear_value x)
    | exact MaskLe.trans (by decide +kernel) hM
    | with_reducible apply fr_pair
    | split
    | dsimp -zeta only
def fm_rebandRun : Nat := mFld CSU_STATUS_no_band ||| mFld CSU_STATUS_band ||| fm_gate ||| fm_noBand ||| fm_setCsu
theorem State.rebandRun_fr {M s0} (s : State) (u : Nat) (t16 : Int) (hM : MaskLe fm_rebandRun M) (hs : Fr M s0 s) : Fr M s0 (State.rebandRun s u t16) := by
  unfold State.rebandRun
  repeat' first
    | (intro x)
    | with_reducible first | assumption | apply State.gate_fr | apply State.noBand_fr | apply State.setCsu_fr | apply State.wrb_fr | apply State.wr_fr | apply fr_ite
    | (extract_lets +onlyGivenNames x; refine fr_cut x ?_ ?_; (on_goal 2 => dsimp only [x]); (on_goal 1 => clear_value x; intro hx))
    | (extract_lets +onlyGivenNames x; fail_if_success (have : State := x); clear_value x)
    | exact MaskLe.trans (by decide +kernel) hM
    | with_reducible apply fr_pair
    | split
    | dsimp -zeta only
def fm_rebandStart : Nat := mFld CSU_STATUS_reband_busy ||| fm_rebandRun ||| fm_setCsu
theorem State.rebandStart_fr {M s0} (s : State) (u : Nat) (t16 : Int) (hM : MaskLe fm_rebandStart M) (hs : Fr M s0 s) : Fr M s0 (State.rebandStart s u t16) := by
  unfold State.rebandStart
  repeat' first
    | (intro x)
    | with_reducible first | assumption | apply State.wrb_fr | apply State.rebandRun_fr | apply State.setCsu_fr | apply fr_ite
    | (extract_lets +onlyGivenNames x; refine fr_cut x ?_ ?_; (on_goal 2 => dsimp only [x]); (on_goal 1 => clear_value x; intro hx))
    | (extract_lets +onlyGivenNames x; fail_if_success (have : State := x); clear_value x)
    | exact MaskLe.trans (by decide +kernel) hM
    | with_reducible apply fr_pair
    | split
    | dsimp -zeta only
def fm_rebandDone : Nat := fm_setCsu ||| fm_ev ||| fm_rebandAnswer ||| fm_csuLock
theorem State.rebandDone_fr {M s0} (s : State) (u : Nat) (hM : MaskLe fm_rebandDone M) (hs : Fr M s0 s) : Fr M s0 (State.rebandDone s u) := by
  unfold State.rebandDone
  repeat' first
    | (intro x)
    | with_reducible first | assumption | apply State.setCsu_fr | apply State.ev_fr | apply State.rebandAnswer_fr | apply State.csuLock_fr | apply fr_ite
    | (extract_lets +onlyGivenNames x; refine fr_cut x ?_ ?_; (on_goal 2 => dsimp only [x]); (on_goal 1 => clear_value x; intro hx))
    | (extract_lets +onlyGivenNames x; fail_if_success (have : State := x); clear_value x)
    | exact MaskLe.trans (by decide +kernel) hM
    | with_reducible apply fr_pair
    | split
    | dsimp -zeta only
def fm_rebandCmd : Nat := mFld CSU_CMD_STATUS_code ||| fm_setCsu ||| fm_rebandStart
theorem State.rebandCmd_fr {M s0} (s : State) (u : Nat) (w : Who) (t16 : Int) (hM : MaskLe fm_rebandCmd M) (hs : Fr M s0 s) : Fr M s0 (State.rebandCmd s u w t16) := by
  unfold State.rebandCmd
  repeat' first
    | (intro x)
    | with_reducible first | assumption | apply State.setCsu_fr | apply State.wr_fr | apply State.rebandStart_fr | apply fr_ite
    | (extract_lets +onlyGivenNames x; refine fr_cut x ?_ ?_; (on_goal 2 => dsimp only [x]); (on_goal 1 => clear_value x; intro hx))
    | (extract_lets +onlyGivenNames x; fail_if_success (have : State := x); clear_value x)
    | exact MaskLe.trans (by decide +kernel) hM
    | with_reducible apply fr_pair
    | split
    | dsimp -zeta only
def fm_csuProgress : Nat := fm_updCheck ||| fm_callClocks
theorem State.csuProgress_fr {M s0} (s : State) (u : Nat) (hM : MaskLe fm_csuProgress M) (hs : Fr M s0 s) : Fr M s0 (State.csuProgress s u) := by
  unfold State.csuProgress
  repeat' first
    | with_reducible first | assumption | apply State.updCheck_fr | apply State.callClocks_fr | apply fr_ite
    | exact MaskLe.trans (by decide +kernel) hM
    | split
    | dsimp -zeta only
def fm_rebandHold : Nat := fm_setCsu
theorem State.rebandHold_fr {M s0} (s : State) (u : Nat) (hM : MaskLe fm_rebandHold M) (hs : Fr M s0 s) : Fr M s0 (State.rebandHold s u) := by
  unfold State.rebandHold
  repeat' first
    | (intro x)
    | with_reducible first | assumption | apply State.setCsu_fr | apply fr_ite
    | exact MaskLe.trans (by decide +kernel) hM
    | with_reducible apply fr_pair
    | split
    | dsimp -zeta only
def fm_showPpm : Nat := mFld CSU_REF_PPM_ppm
theorem State.showPpm_fr {M s0} (s : State) (u : Nat) (ppm : Int) (hM : MaskLe fm_showPpm M) (hs : Fr M s0 s) : Fr M s0 (State.showPpm s u ppm) := by
  unfold State.showPpm
  repeat' first
    | with_reducible first | assumption | apply State.wr_fr
    | exact MaskLe.trans (by decide +kernel) hM
    | dsimp -zeta only
def fm_refLost : Nat := mFld CSU_ref_lost_count ||| mFld CSU_STATUS_ref_ok ||| fm_ev ||| fm_setCsu ||| fm_showPpm ||| fm_gate ||| fm_rebandHold ||| fm_coreStop ||| fm_report
theorem State.refLost_fr {M s0} (s : State) (u : Nat) (ppm : Option Int) (hM : MaskLe fm_refLost M) (hs : Fr M s0 s) : Fr M s0 (State.refLost s u ppm) := by
  unfold State.refLost
  repeat' first
    | (intro x)
    | with_reducible first | assumption | apply State.ev_fr | apply State.count_fr | apply State.wrb_fr | apply State.setCsu_fr | apply State.showPpm_fr | apply State.gate_fr | apply State.rebandHold_fr | apply State.coreStop_fr | apply State.report_fr | apply fr_ite
    | (extract_lets +onlyGivenNames x; refine fr_cut x ?_ ?_; (on_goal 2 => dsimp only [x]); (on_goal 1 => clear_value x; intro hx))
    | (extract_lets +onlyGivenNames x; fail_if_success (have : State := x); clear_value x)
    | exact MaskLe.trans (by decide +kernel) hM
    | with_reducible apply fr_pair
    | split
    | dsimp -zeta only
def fm_refBack : Nat := mFld CSU_STATUS_ref_ok ||| fm_showPpm ||| fm_setCsu ||| fm_ev ||| fm_rebandRun
theorem State.refBack_fr {M s0} (s : State) (u : Nat) (ppm t16 : Int) (hM : MaskLe fm_refBack M) (hs : Fr M s0 s) : Fr M s0 (State.refBack s u ppm t16) := by
  unfold State.refBack
  repeat' first
    | (intro x)
    | with_reducible first | assumption | apply State.showPpm_fr | apply State.setCsu_fr | apply State.ev_fr | apply State.wrb_fr | apply State.rebandRun_fr | apply fr_ite
    | (extract_lets +onlyGivenNames x; refine fr_cut x ?_ ?_; (on_goal 2 => dsimp only [x]); (on_goal 1 => clear_value x; intro hx))
    | (extract_lets +onlyGivenNames x; fail_if_success (have : State := x); clear_value x)
    | exact MaskLe.trans (by decide +kernel) hM
    | with_reducible apply fr_pair
    | split
    | dsimp -zeta only
def fm_lockLost : Nat := mFld CSU_lock_lost_count ||| fm_gate ||| fm_ev ||| fm_coreStop ||| fm_report
theorem State.lockLost_fr {M s0} (s : State) (u : Nat) (hM : MaskLe fm_lockLost M) (hs : Fr M s0 s) : Fr M s0 (State.lockLost s u) := by
  unfold State.lockLost
  repeat' first
    | (intro x)
    | with_reducible first | assumption | apply State.gate_fr | apply State.ev_fr | apply State.count_fr | apply State.coreStop_fr | apply State.report_fr | apply fr_ite | apply fr_when
    | (extract_lets +onlyGivenNames x; refine fr_cut x ?_ ?_; (on_goal 2 => dsimp only [x]); (on_goal 1 => clear_value x; intro hx))
    | (extract_lets +onlyGivenNames x; fail_if_success (have : State := x); clear_value x)
    | exact MaskLe.trans (by decide +kernel) hM
    | with_reducible apply fr_pair
    | split
    | dsimp -zeta only
def fm_relock : Nat := fm_csuLock
theorem State.relock_fr {M s0} (s : State) (u : Nat) (ok : Bool) (hM : MaskLe fm_relock M) (hs : Fr M s0 s) : Fr M s0 (State.relock s u ok) := by
  unfold State.relock
  repeat' first
    | with_reducible first | assumption | apply State.csuLock_fr | apply fr_ite
    | exact MaskLe.trans (by decide +kernel) hM
    | split
    | dsimp -zeta only
def fm_bandEdge : Nat := mFld CSU_STATUS_margin ||| mFld CSU_band_edge_cnt_count ||| mFld CSU_STATUS_band_edge ||| fm_report ||| fm_ev
theorem State.bandEdge_fr {M s0} (s : State) (u margin : Nat) (hM : MaskLe fm_bandEdge M) (hs : Fr M s0 s) : Fr M s0 (State.bandEdge s u margin) := by
  unfold State.bandEdge
  repeat' first
    | with_reducible first | assumption | apply State.wr_fr | apply State.report_fr | apply State.ev_fr | apply State.count_fr | apply State.wrb_fr | apply fr_ite
    | (extract_lets +onlyGivenNames x; refine fr_cut x ?_ ?_; (on_goal 2 => dsimp only [x]); (on_goal 1 => clear_value x; intro hx))
    | (extract_lets +onlyGivenNames x; fail_if_success (have : State := x); clear_value x)
    | exact MaskLe.trans (by decide +kernel) hM
    | split
    | dsimp -zeta only
def fm_domainReset : Nat := allMask
theorem State.domainReset_fr {M s0} (s : State) (d : Dom) (hM : MaskLe fm_domainReset M) (hs : Fr M s0 s) : Fr M s0 (State.domainReset s d) := by
  refine Fr.trans hs (fr_all (MaskLe.trans (by decide +kernel) hM) ⟨Nat.le_refl _, fun x h => h⟩ (fun _ => Nat.zero_le _) (fun _ => (⟨by decide, by decide, by decide⟩ : TimeBase.ok {})) (fun _ => (by decide : Memory.wf [] = true)) (Nat.le_refl _))
def fm_resetAssert : Nat := fm_domainReset
theorem State.resetAssert_fr {M s0} (s : State) (hM : MaskLe fm_resetAssert M) (hs : Fr M s0 s) : Fr M s0 (State.resetAssert s) := by
  unfold State.resetAssert
  repeat' first
    | with_reducible first | assumption | apply State.domainReset_fr
    | exact MaskLe.trans (by decide +kernel) hM
    | dsimp -zeta only
def fm_resetRelease : Nat := mFld CHIP_ID_STRAP_strap ||| 2 ^ 87 ||| 2 ^ 102
theorem State.resetRelease_fr {M s0} (s : State) (strap : Nat) (hM : MaskLe fm_resetRelease M) (hs : Fr M s0 s) : Fr M s0 (State.resetRelease s strap) := by
  unfold State.resetRelease
  repeat' first
    | with_reducible first | assumption | apply State.wr_fr | apply fr_ite
    | exact MaskLe.trans (by decide +kernel) hM
    | (with_reducible refine fr_mk_hst_dom (MaskLe.trans (by decide +kernel) hM) ?_; first | with_reducible assumption | with_reducible apply State.wr_fr)
    | split
    | dsimp -zeta only
def fm_aonUp : Nat := allMask
theorem State.aonUp_fr {M s0} (s : State) (hM : MaskLe fm_aonUp M) (hs : Fr M s0 s) : Fr M s0 (State.aonUp s) := by
  refine Fr.trans hs (fr_all (MaskLe.trans (by decide +kernel) hM) ⟨Nat.le_refl _, fun x h => h⟩ (fun _ => Nat.zero_le _) (fun _ => (⟨by decide, by decide, by decide⟩ : TimeBase.ok {})) (fun _ => (by decide : Memory.wf [] = true)) (Nat.le_refl _))
def fm_darkWake : Nat := mFld CHIP_ID_STRAP_strap ||| fm_domainReset ||| fm_setModeFrom ||| fm_evWhen ||| fm_ev
theorem State.darkWake_fr {M s0} (s : State) (strap : Nat) (hM : MaskLe fm_darkWake M) (hs : Fr M s0 s) : Fr M s0 (State.darkWake s strap) := by
  unfold State.darkWake
  repeat' first
    | with_reducible first | assumption | apply State.wr_fr | apply State.domainReset_fr | apply State.setModeFrom_fr | apply State.evWhen_fr | apply State.ev_fr | apply fr_ite
    | (extract_lets +onlyGivenNames x; refine fr_cut x ?_ ?_; (on_goal 2 => dsimp only [x]); (on_goal 1 => clear_value x; intro hx))
    | (extract_lets +onlyGivenNames x; fail_if_success (have : State := x); clear_value x)
    | exact MaskLe.trans (by decide +kernel) hM
    | split
    | dsimp -zeta only
def fm_modeIssue : Nat := 2 ^ 87 ||| fm_modeFinish
theorem State.modeIssue_fr {M s0} (s : State) (w : Who) (op arg : Nat) (f : State → State) (hM : MaskLe fm_modeIssue M) (k_f : ∀ s, Fr M s0 s → Fr M s0 (f s)) (hs : Fr M s0 s) : Fr M s0 (State.modeIssue s w op arg f) := by
  unfold State.modeIssue
  repeat' first
    | with_reducible first | assumption | apply State.modeFinish_fr | apply k_f | apply fr_ite
    | (extract_lets +onlyGivenNames x; refine fr_cut x ?_ ?_; (on_goal 2 => dsimp only [x]); (on_goal 1 => clear_value x; intro hx))
    | (extract_lets +onlyGivenNames x; fail_if_success (have : State := x); clear_value x)
    | exact MaskLe.trans (by decide +kernel) hM
    | (with_reducible refine fr_mk_hst (MaskLe.trans (by decide +kernel) hM) ?_; first | with_reducible assumption | with_reducible apply State.modeFinish_fr | with_reducible apply k_f)
    | with_reducible apply fr_pair
    | split
    | dsimp -zeta only
def fm_enterMode : Nat := fm_applyFylTests ||| fm_applyTests ||| fm_setMode ||| fm_grpBegin ||| fm_showModels
theorem State.enterMode_fr {M s0} (s : State) (m : Nat) (hM : MaskLe fm_enterMode M) (hs : Fr M s0 s) : Fr M s0 (State.enterMode s m) := by
  unfold State.enterMode
  repeat' first
    | (intro x)
    | with_reducible first | assumption | apply State.applyFylTests_fr | apply State.applyTests_fr | apply State.setMode_fr | apply State.grpBegin_fr | apply State.showModels_fr | apply fr_ite | apply fr_each
    | (extract_lets +onlyGivenNames x; refine fr_cut x ?_ ?_; (on_goal 2 => dsimp only [x]); (on_goal 1 => clear_value x; intro hx))
    | (extract_lets +onlyGivenNames x; fail_if_success (have : State := x); clear_value x)
    | exact MaskLe.trans (by decide +kernel) hM
    | split
    | dsimp -zeta only
def fm_compatGive : Nat := fm_givePage ||| fm_giveObj
theorem State.compatGive_fr {M s0} (s : State) (hM : MaskLe fm_compatGive M) (hs : Fr M s0 s) : Fr M s0 (State.compatGive s) := by
  unfold State.compatGive
  repeat' first
    | (intro x)
    | with_reducible first | assumption | apply State.givePage_fr | apply State.giveObj_fr | apply fr_each
    | exact MaskLe.trans (by decide +kernel) hM
    | with_reducible apply fr_pair
    | dsimp -zeta only
def fm_judged : Nat := fm_judgeWord
theorem State.judged_fr {M s0} (s : State) (hM : MaskLe fm_judged M) (hs : Fr M s0 s) : Fr M s0 (State.judged s) := by
  unfold State.judged
  repeat' first
    | (intro x)
    | with_reducible first | assumption | apply State.judgeWord_fr | apply fr_each
    | exact MaskLe.trans (by decide +kernel) hM
    | dsimp -zeta only
def fm_opService_ : Nat := mFld MODE_service ||| mFld MODE_model ||| fm_modeFinish ||| fm_compatGive ||| fm_enterMode
theorem State.opService__fr {M s0} (s : State) (w : Who) (arg : Nat) (hM : MaskLe fm_opService_ M) (hs : Fr M s0 s) : Fr M s0 (State.opService_ s w arg) := by
  unfold State.opService_
  repeat' first
    | (intro x)
    | with_reducible first | assumption | apply State.modeFinish_fr | apply State.compatGive_fr | apply State.wr_fr | apply State.enterMode_fr | apply fr_ite | apply fr_when
    | (extract_lets +onlyGivenNames x; refine fr_cut x ?_ ?_; (on_goal 2 => dsimp only [x]); (on_goal 1 => clear_value x; intro hx))
    | (extract_lets +onlyGivenNames x; fail_if_success (have : State := x); clear_value x)
    | exact MaskLe.trans (by decide +kernel) hM
    | split
    | dsimp -zeta only
def fm_opRehearse_ : Nat := mFld MODE_service ||| fm_modeFinish ||| fm_enterMode
theorem State.opRehearse__fr {M s0} (s : State) (w : Who) (hM : MaskLe fm_opRehearse_ M) (hs : Fr M s0 s) : Fr M s0 (State.opRehearse_ s w) := by
  unfold State.opRehearse_
  repeat' first
    | with_reducible first | assumption | apply State.modeFinish_fr | apply State.enterMode_fr | apply State.wr_fr
    | exact MaskLe.trans (by decide +kernel) hM
    | dsimp -zeta only
def fm_opAudit_ : Nat := fm_modeFinish ||| fm_enterMode
theorem State.opAudit__fr {M s0} (s : State) (w : Who) (hM : MaskLe fm_opAudit_ M) (hs : Fr M s0 s) : Fr M s0 (State.opAudit_ s w) := by
  unfold State.opAudit_
  repeat' first
    | with_reducible first | assumption | apply State.modeFinish_fr | apply State.enterMode_fr
    | exact MaskLe.trans (by decide +kernel) hM
    | dsimp -zeta only
def fm_opEnterSafe_ : Nat := fm_modeFinish ||| fm_enterSafe
theorem State.opEnterSafe__fr {M s0} (s : State) (w : Who) (hM : MaskLe fm_opEnterSafe_ M) (hs : Fr M s0 s) : Fr M s0 (State.opEnterSafe_ s w) := by
  unfold State.opEnterSafe_
  repeat' first
    | with_reducible first | assumption | apply State.modeFinish_fr | apply State.enterSafe_fr
    | exact MaskLe.trans (by decide +kernel) hM
    | dsimp -zeta only
def fm_opExitSafe_ : Nat := mFld FLT_STATUS_safe ||| mFld MODE_service ||| 2 ^ 103 ||| fm_modeFinish ||| fm_enterReset ||| fm_leaveReset ||| fm_startCore ||| fm_enterMode ||| fm_showFault
theorem State.opExitSafe__fr {M s0} (s : State) (w : Who) (hM : MaskLe fm_opExitSafe_ M) (hs : Fr M s0 s) : Fr M s0 (State.opExitSafe_ s w) := by
  unfold State.opExitSafe_
  repeat' first
    | (intro x)
    | with_reducible first | assumption | apply State.modeFinish_fr | apply State.enterReset_fr | apply State.leaveReset_fr | apply State.wrb_fr | apply State.startCore_fr | apply State.enterMode_fr | apply State.wr_fr | apply State.showFault_fr | apply fr_ite | apply fr_each
    | (extract_lets +onlyGivenNames x; refine fr_cut x ?_ ?_; (on_goal 2 => dsimp only [x]); (on_goal 1 => clear_value x; intro hx))
    | (extract_lets +onlyGivenNames x; fail_if_success (have : State := x); clear_value x)
    | exact MaskLe.trans (by decide +kernel) hM
    | (with_reducible refine fr_mk_callStop (MaskLe.trans (by decide +kernel) hM) ?_; first | with_reducible assumption | with_reducible apply State.modeFinish_fr | with_reducible apply State.enterReset_fr | with_reducible apply State.leaveReset_fr | with_reducible apply State.wrb_fr | with_reducible apply State.startCore_fr | with_reducible apply State.enterMode_fr | with_reducible apply State.wr_fr | with_reducible apply State.showFault_fr)
    | with_reducible apply fr_pair
    | split
    | dsimp -zeta only
def fm_goDark : Nat := mFld MODE_current ||| 2 ^ 79 ||| fm_domainReset ||| fm_setMode ||| fm_linkDown
theorem State.goDark_fr {M s0} (s : State) (hM : MaskLe fm_goDark M) (hs : Fr M s0 s) : Fr M s0 (State.goDark s) := by
  unfold State.goDark
  repeat' first
    | with_reducible first | assumption | apply State.wr_fr | apply State.domainReset_fr | apply State.setMode_fr | apply State.linkDown_fr
    | exact MaskLe.trans (by decide +kernel) hM
    | (with_reducible refine fr_mk_door (MaskLe.trans (by decide +kernel) hM) ?_; first | with_reducible assumption | with_reducible apply State.wr_fr | with_reducible apply State.domainReset_fr | with_reducible apply State.setMode_fr | with_reducible apply State.linkDown_fr)
    | dsimp -zeta only
def fm_opEnterDark_ : Nat := fm_modeFinish ||| fm_goDark
theorem State.opEnterDark__fr {M s0} (s : State) (w : Who) (hM : MaskLe fm_opEnterDark_ M) (hs : Fr M s0 s) : Fr M s0 (State.opEnterDark_ s w) := by
  unfold State.opEnterDark_
  repeat' first
    | (intro x)
    | with_reducible first | assumption | apply State.modeFinish_fr | apply State.goDark_fr | apply fr_ite
    | exact MaskLe.trans (by decide +kernel) hM
    | with_reducible apply fr_pair
    | split
    | dsimp -zeta only
def fm_opDrain_ : Nat := fm_modeFinish ||| fm_setRegion
theorem State.opDrain__fr {M s0} (s : State) (w : Who) (r : Nat) (hM : MaskLe fm_opDrain_ M) (hs : Fr M s0 s) : Fr M s0 (State.opDrain_ s w r) := by
  unfold State.opDrain_
  repeat' first
    | with_reducible first | assumption | apply State.modeFinish_fr | apply State.setRegion_fr | apply fr_ite
    | exact MaskLe.trans (by decide +kernel) hM
    | split
    | dsimp -zeta only
def fm_opOffline_ : Nat := fm_modeFinish ||| fm_sendOffline ||| fm_setRegion
theorem State.opOffline__fr {M s0} (s : State) (w : Who) (r : Nat) (hM : MaskLe fm_opOffline_ M) (hs : Fr M s0 s) : Fr M s0 (State.opOffline_ s w r) := by
  unfold State.opOffline_
  repeat' first
    | with_reducible first | assumption | apply State.modeFinish_fr | apply State.sendOffline_fr | apply State.setRegion_fr | apply fr_ite
    | exact MaskLe.trans (by decide +kernel) hM
    | split
    | dsimp -zeta only
def fm_resumeRegion : Nat := fm_moveRegion ||| fm_tieMode
theorem State.resumeRegion_fr {M s0} (s : State) (r : Nat) (hM : MaskLe fm_resumeRegion M) (hs : Fr M s0 s) : Fr M s0 (State.resumeRegion s r) := by
  unfold State.resumeRegion
  repeat' first
    | with_reducible first | assumption | apply State.moveRegion_fr | apply State.tieMode_fr | apply fr_ite
    | (extract_lets +onlyGivenNames x; refine fr_cut x ?_ ?_; (on_goal 2 => dsimp only [x]); (on_goal 1 => clear_value x; intro hx))
    | (extract_lets +onlyGivenNames x; fail_if_success (have : State := x); clear_value x)
    | exact MaskLe.trans (by decide +kernel) hM
    | split
    | dsimp -zeta only
def fm_opResume_ : Nat := fm_modeFinish ||| fm_resumeRegion
theorem State.opResume__fr {M s0} (s : State) (w : Who) (r : Nat) (hM : MaskLe fm_opResume_ M) (hs : Fr M s0 s) : Fr M s0 (State.opResume_ s w r) := by
  unfold State.opResume_
  repeat' first
    | with_reducible first | assumption | apply State.modeFinish_fr | apply State.resumeRegion_fr | apply fr_ite
    | exact MaskLe.trans (by decide +kernel) hM
    | split
    | dsimp -zeta only
def fm_opReset_ : Nat := fm_modeFinish ||| fm_enterReset ||| fm_modePend
theorem State.opReset__fr {M s0} (s : State) (w : Who) (r : Nat) (clear : Bool) (hM : MaskLe fm_opReset_ M) (hs : Fr M s0 s) : Fr M s0 (State.opReset_ s w r clear) := by
  unfold State.opReset_
  repeat' first
    | with_reducible first | assumption | apply State.modeFinish_fr | apply State.enterReset_fr | apply State.modePend_fr | apply fr_ite
    | (extract_lets +onlyGivenNames x; refine fr_cut x ?_ ?_; (on_goal 2 => dsimp only [x]); (on_goal 1 => clear_value x; intro hx))
    | (extract_lets +onlyGivenNames x; fail_if_success (have : State := x); clear_value x)
    | exact MaskLe.trans (by decide +kernel) hM
    | split
    | dsimp -zeta only
def fm_opUpdate_ : Nat := 2 ^ 85 ||| fm_modeFinish ||| fm_modePend ||| fm_updCheck ||| fm_rebandStart
theorem State.opUpdate__fr {M s0} (s : State) (w : Who) (r : Nat) (temps : List Int) (hM : MaskLe fm_opUpdate_ M) (hs : Fr M s0 s) : Fr M s0 (State.opUpdate_ s w r temps) := by
  unfold State.opUpdate_
  repeat' first
    | (intro x)
    | with_reducible first | assumption | apply State.modeFinish_fr | apply State.modePend_fr | apply State.updCheck_fr | apply State.rebandStart_fr | apply fr_ite | apply fr_each
    | (extract_lets +onlyGivenNames x; refine fr_cut x ?_ ?_; (on_goal 2 => dsimp only [x]); (on_goal 1 => clear_value x; intro hx))
    | (extract_lets +onlyGivenNames x; fail_if_success (have : State := x); clear_value x)
    | exact MaskLe.trans (by decide +kernel) hM
    | (with_reducible refine fr_mk_upd (MaskLe.trans (by decide +kernel) hM) ?_; first | with_reducible assumption | with_reducible apply State.modeFinish_fr | with_reducible apply State.modePend_fr | with_reducible apply State.updCheck_fr | with_reducible apply State.rebandStart_fr)
    | with_reducible apply fr_pair
    | split
    | dsimp -zeta only
def fm_opStackRetrain_ : Nat := fm_modePend ||| fm_modeFinish
theorem State.opStackRetrain__fr {M s0} (s : State) (w : Who) (k : Nat) (hM : MaskLe fm_opStackRetrain_ M) (hs : Fr M s0 s) : Fr M s0 (State.opStackRetrain_ s w k) := by
  unfold State.opStackRetrain_
  repeat' first
    | with_reducible first | assumption | apply State.modePend_fr | apply State.modeFinish_fr | apply fr_ite
    | exact MaskLe.trans (by decide +kernel) hM
    | split
    | dsimp -zeta only
def fm_callStack : Nat := mFld HBM_STATUS_state ||| fm_stackFail
theorem State.callStack_fr {M s0} (s : State) (k : Nat) (ok : Bool) (hM : MaskLe fm_callStack M) (hs : Fr M s0 s) : Fr M s0 (State.callStack s k ok) := by
  unfold State.callStack
  repeat' first
    | with_reducible first | assumption | apply State.wr_fr | apply State.stackFail_fr | apply fr_ite
    | exact MaskLe.trans (by decide +kernel) hM
    | split
    | dsimp -zeta only
def fm_stackTrained : Nat := mFld MODE_STACKS_train_fail ||| mFld MODE_STACKS_retrained ||| fm_callStack ||| fm_modeEnd
theorem State.stackTrained_fr {M s0} (s : State) (k : Nat) (ok : Bool) (hM : MaskLe fm_stackTrained M) (hs : Fr M s0 s) : Fr M s0 (State.stackTrained s k ok) := by
  unfold State.stackTrained
  repeat' first
    | with_reducible first | assumption | apply State.callStack_fr | apply State.wr_fr | apply State.modeEnd_fr | apply fr_ite
    | (extract_lets +onlyGivenNames x; refine fr_cut x ?_ ?_; (on_goal 2 => dsimp only [x]); (on_goal 1 => clear_value x; intro hx))
    | (extract_lets +onlyGivenNames x; fail_if_success (have : State := x); clear_value x)
    | exact MaskLe.trans (by decide +kernel) hM
    | with_reducible apply fr_pair
    | split
    | dsimp -zeta only
def fm_writeModeCmd : Nat := fm_modeIssue ||| fm_opService_ ||| fm_opRehearse_ ||| fm_opAudit_ ||| fm_opEnterSafe_ ||| fm_opExitSafe_ ||| fm_opEnterDark_ ||| fm_opDrain_ ||| fm_opOffline_ ||| fm_opResume_ ||| fm_opReset_ ||| fm_opUpdate_ ||| fm_opStackRetrain_
theorem State.writeModeCmd_fr {M s0} (s : State) (w : Who) (v : Nat) (temps : List Int) (hM : MaskLe fm_writeModeCmd M) (hs : Fr M s0 s) : Fr M s0 (State.writeModeCmd s w v temps) := by
  unfold State.writeModeCmd
  repeat' first
    | (intro x)
    | with_reducible first | assumption | apply State.modeIssue_fr | apply State.opService__fr | apply State.opRehearse__fr | apply State.opAudit__fr | apply State.opEnterSafe__fr | apply State.opExitSafe__fr | apply State.opEnterDark__fr | apply State.opDrain__fr | apply State.opOffline__fr | apply State.opResume__fr | apply State.opReset__fr | apply State.opUpdate__fr | apply State.opStackRetrain__fr | apply fr_ite
    | (extract_lets +onlyGivenNames x; refine fr_cut x ?_ ?_; (on_goal 2 => dsimp only [x]); (on_goal 1 => clear_value x; intro hx))
    | (extract_lets +onlyGivenNames x; fail_if_success (have : State := x); clear_value x)
    | exact MaskLe.trans (by decide +kernel) hM
    | with_reducible apply fr_pair
    | split
    | dsimp -zeta only
def fm_callStep5 : Nat := mFld CHIP_ID_AVS_met ||| mFld MODE_CALL_step ||| fm_report ||| fm_bankFailStep ||| fm_callStack ||| fm_ev
theorem State.callStep5_fr {M s0} (s : State) (x : CallTests) (hM : MaskLe fm_callStep5 M) (hs : Fr M s0 s) : Fr M s0 (State.callStep5 s x) := by
  unfold State.callStep5
  repeat' first
    | (intro x)
    | with_reducible first | assumption | apply State.report_fr | apply State.bankFailStep_fr | apply State.callStack_fr | apply State.wrb_fr | apply State.ev_fr | apply State.wr_fr | apply fr_ite | apply fr_each | apply fr_when
    | (extract_lets +onlyGivenNames x; refine fr_cut x ?_ ?_; (on_goal 2 => dsimp only [x]); (on_goal 1 => clear_value x; intro hx))
    | (extract_lets +onlyGivenNames x; fail_if_success (have : State := x); clear_value x)
    | exact MaskLe.trans (by decide +kernel) hM
    | with_reducible apply fr_pair
    | split
    | dsimp -zeta only
def fm_callEnd : Nat := mFld MODE_CALL_step ||| fm_leaveReset ||| fm_enterMode ||| fm_ev
theorem State.callEnd_fr {M s0} (s : State) (hM : MaskLe fm_callEnd M) (hs : Fr M s0 s) : Fr M s0 (State.callEnd s) := by
  unfold State.callEnd
  repeat' first
    | (intro x)
    | with_reducible first | assumption | apply State.wr_fr | apply State.leaveReset_fr | apply State.enterMode_fr | apply State.ev_fr | apply fr_ite | apply fr_each
    | (extract_lets +onlyGivenNames x; refine fr_cut x ?_ ?_; (on_goal 2 => dsimp only [x]); (on_goal 1 => clear_value x; intro hx))
    | (extract_lets +onlyGivenNames x; fail_if_success (have : State := x); clear_value x)
    | exact MaskLe.trans (by decide +kernel) hM
    | with_reducible apply fr_pair
    | split
    | dsimp -zeta only
def fm_auditStart : Nat := mFld MODE_AUDIT_STATUS_target ||| mFld MODE_AUDIT_STATUS_test ||| mFld MODE_AUDIT_STATUS_state
theorem State.auditStart_fr {M s0} (s : State) (test x : Nat) (hM : MaskLe fm_auditStart M) (hs : Fr M s0 s) : Fr M s0 (State.auditStart s test x) := by
  unfold State.auditStart
  repeat' first
    | with_reducible first | assumption | apply State.wr_fr | apply fr_ite
    | (extract_lets +onlyGivenNames x; refine fr_cut x ?_ ?_; (on_goal 2 => dsimp only [x]); (on_goal 1 => clear_value x; intro hx))
    | (extract_lets +onlyGivenNames x; fail_if_success (have : State := x); clear_value x)
    | exact MaskLe.trans (by decide +kernel) hM
    | split
    | dsimp -zeta only
def fm_auditDestroy : Nat := 2 ^ 15 ||| mTab T_LOG_ENTRY ||| fm_enterReset ||| fm_ohqRegionReset
theorem State.auditDestroy_fr {M s0} (s : State) (test x : Nat) (hM : MaskLe fm_auditDestroy M) (hs : Fr M s0 s) : Fr M s0 (State.auditDestroy s test x) := by
  unfold State.auditDestroy
  refine fr_ite (State.enterReset_fr _ _ _ (MaskLe.trans (by decide +kernel) hM) hs) (fr_ite (State.ohqRegionReset_fr _ _ (MaskLe.trans (by decide +kernel) hM) hs) (fr_ite ?_ (fr_ite ?_ hs)))
  · exact fr_mem (MaskLe.trans (by decide +kernel) hM) hs (fun k => wf_filter _ _ k)
  · exact fr_each hs (fun s x h => State.setEntry_fr _ _ _ _ _ (MaskLe.trans (by decide +kernel) hM) h)
def fm_auditFailed : Nat := fm_report ||| fm_stackFail ||| fm_bankFailStep
theorem State.auditFailed_fr {M s0} (s : State) (test x : Nat) (hM : MaskLe fm_auditFailed M) (hs : Fr M s0 s) : Fr M s0 (State.auditFailed s test x) := by
  unfold State.auditFailed
  repeat' first
    | with_reducible first | assumption | apply State.report_fr | apply State.stackFail_fr | apply State.bankFailStep_fr | apply fr_ite
    | exact MaskLe.trans (by decide +kernel) hM
    | split
    | dsimp -zeta only
def fm_auditEnd : Nat := mFld MODE_AUDIT_STATUS_state ||| mFld MODE_AUDIT_ADDR_addr ||| fm_free ||| fm_auditDestroy ||| fm_auditFailed ||| fm_ev
theorem State.auditEnd_fr {M s0} (s : State) (fail : Option Nat) (hM : MaskLe fm_auditEnd M) (hs : Fr M s0 s) : Fr M s0 (State.auditEnd s fail) := by
  unfold State.auditEnd
  repeat' first
    | with_reducible first | assumption | apply State.free_fr | apply State.wr_fr | apply State.auditDestroy_fr | apply State.auditFailed_fr | apply State.ev_fr | apply fr_ite
    | (extract_lets +onlyGivenNames x; refine fr_cut x ?_ ?_; (on_goal 2 => dsimp only [x]); (on_goal 1 => clear_value x; intro hx))
    | (extract_lets +onlyGivenNames x; fail_if_success (have : State := x); clear_value x)
    | exact MaskLe.trans (by decide +kernel) hM
    | with_reducible apply fr_pair
    | split
    | dsimp -zeta only
def fm_stressInc : Nat := fm_free
theorem State.stressInc_fr {M s0} (s : State) (t16 : Int) (hM : MaskLe fm_stressInc M) (hs : Fr M s0 s) : Fr M s0 (State.stressInc s t16).2 := by
  unfold State.stressInc
  repeat' first
    | with_reducible first | assumption | apply State.free_fr | apply fr2_ite
    | (extract_lets +onlyGivenNames x; refine fr_cut x ?_ ?_; (on_goal 2 => dsimp only [x]); (on_goal 1 => clear_value x; intro hx))
    | (extract_lets +onlyGivenNames x; fail_if_success (have : State := x); clear_value x)
    | exact MaskLe.trans (by decide +kernel) hM
    | with_reducible apply fr2_pair
    | split
    | dsimp -zeta only
def fm_lifeHeat : Nat := mFld MODE_LIFE_STRESS ||| 2 ^ 107 ||| mFld MODE_LIFE_HOT ||| mFld MODE_LIFE_TMAX ||| fm_stressInc ||| fm_divFree
theorem State.lifeHeat_fr {M s0} (s : State) (t16 : Int) (hM : MaskLe fm_lifeHeat M) (hs : Fr M s0 s) : Fr M s0 (State.lifeHeat s t16) := by
  unfold State.lifeHeat
  repeat' first
    | (intro x)
    | with_reducible first | assumption | apply State.stressInc_fr | apply State.countSat_fr | apply State.divFree_fr | apply State.wr_fr | apply fr_when
    | (extract_lets +onlyGivenNames x; refine fr_cut x ?_ ?_; (on_goal 2 => dsimp only [x]); (on_goal 1 => clear_value x; intro hx))
    | (extract_lets +onlyGivenNames x; fail_if_success (have : State := x); clear_value x)
    | exact MaskLe.trans (by decide +kernel) hM
    | (with_reducible refine fr_mk_life (MaskLe.trans (by decide +kernel) hM) ?_; first | with_reducible assumption | with_reducible apply State.stressInc_fr | with_reducible apply State.countSat_fr | with_reducible apply State.divFree_fr | with_reducible apply State.wr_fr)
    | with_reducible apply fr_pair
    | split
    | dsimp -zeta only
def fm_lifeTick : Nat := 2 ^ 107 ||| mFld MODE_LIFE_POWERED ||| fm_lifeHeat
theorem State.lifeTick_fr {M s0} (s : State) (t16 : Option Int) (hM : MaskLe fm_lifeTick M) (hs : Fr M s0 s) : Fr M s0 (State.lifeTick s t16) := by
  unfold State.lifeTick
  refine fr_ite hs ?_
  dsimp only
  split
  · exact State.lifeHeat_fr _ _ (MaskLe.trans (by decide +kernel) hM) (fr_when (fr_mk_life (MaskLe.trans (by decide +kernel) hM) hs) (fun s h => State.countSat_fr _ _ _ _ (MaskLe.trans (by decide +kernel) hM) h))
  · exact fr_when (fr_mk_life (MaskLe.trans (by decide +kernel) hM) hs) (fun s h => State.countSat_fr _ _ _ _ (MaskLe.trans (by decide +kernel) hM) h)
def fm_rails : Nat := mFld CHIP_ID_VMON_under ||| 2 ^ 104
theorem State.rails_fr {M s0} (s : State) (v : Rails) (hM : MaskLe fm_rails M) (hs : Fr M s0 s) : Fr M s0 (State.rails s v) := by
  unfold State.rails
  repeat' first
    | with_reducible first | assumption | apply State.wr_fr
    | exact MaskLe.trans (by decide +kernel) hM
    | (with_reducible refine fr_mk_supplyOff (MaskLe.trans (by decide +kernel) hM) ?_; first | with_reducible assumption | with_reducible apply State.wr_fr)
    | dsimp -zeta only
def fm_power : Nat := fm_report ||| fm_ev
theorem State.power_fr {M s0} (s : State) (level : Nat) (hM : MaskLe fm_power M) (hs : Fr M s0 s) : Fr M s0 (State.power s level) := by
  unfold State.power
  repeat' first
    | with_reducible first | assumption | apply State.report_fr | apply State.ev_fr | apply fr_ite
    | exact MaskLe.trans (by decide +kernel) hM
    | split
    | dsimp -zeta only
def fm_railEffect : Nat := mFld CHIP_ID_VMON_core_valid ||| fm_lineLos ||| fm_failLink ||| fm_linkDown ||| fm_stackFail
theorem State.railEffect_fr {M s0} (s : State) (rail : Nat) (hM : MaskLe fm_railEffect M) (hs : Fr M s0 s) : Fr M s0 (State.railEffect s rail) := by
  unfold State.railEffect
  repeat' first
    | (intro x)
    | with_reducible first | assumption | apply State.wrb_fr | apply State.lineLos_fr | apply State.failLink_fr | apply State.linkDown_fr | apply State.stackFail_fr | apply fr_ite | apply fr_each
    | exact MaskLe.trans (by decide +kernel) hM
    | with_reducible apply fr_pair
    | split
    | dsimp -zeta only
def fm_undervoltage : Nat := 2 ^ 104 ||| fm_rails ||| fm_power ||| fm_railEffect
theorem State.undervoltage_fr {M s0} (s : State) (rail : Nat) (v : Rails) (hM : MaskLe fm_undervoltage M) (hs : Fr M s0 s) : Fr M s0 (State.undervoltage s rail v) := by
  unfold State.undervoltage
  repeat' first
    | (intro x)
    | with_reducible first | assumption | apply State.rails_fr | apply State.power_fr | apply State.railEffect_fr | apply fr_when
    | (extract_lets +onlyGivenNames x; refine fr_cut x ?_ ?_; (on_goal 2 => dsimp only [x]); (on_goal 1 => clear_value x; intro hx))
    | (extract_lets +onlyGivenNames x; fail_if_success (have : State := x); clear_value x)
    | exact MaskLe.trans (by decide +kernel) hM
    | (with_reducible refine fr_mk_supplyOff (MaskLe.trans (by decide +kernel) hM) ?_; first | with_reducible assumption | with_reducible apply State.rails_fr | with_reducible apply State.power_fr | with_reducible apply State.railEffect_fr)
    | with_reducible apply fr_pair
    | split
    | dsimp -zeta only
def fm_coreValid : Nat := mFld CHIP_ID_VMON_core_valid ||| fm_rails
theorem State.coreValid_fr {M s0} (s : State) (v : Rails) (hM : MaskLe fm_coreValid M) (hs : Fr M s0 s) : Fr M s0 (State.coreValid s v) := by
  unfold State.coreValid
  repeat' first
    | with_reducible first | assumption | apply State.wrb_fr | apply State.rails_fr
    | exact MaskLe.trans (by decide +kernel) hM
    | dsimp -zeta only
def fm_thermTrip : Nat := 2 ^ 106 ||| fm_coreStop
theorem State.thermTrip_fr {M s0} (s : State) (i : Nat) (t16 : Int) (hM : MaskLe fm_thermTrip M) (hs : Fr M s0 s) : Fr M s0 (State.thermTrip s i t16) := by
  unfold State.thermTrip
  repeat' first
    | (intro x)
    | with_reducible first | assumption | apply State.coreStop_fr | apply fr_ite
    | exact MaskLe.trans (by decide +kernel) hM
    | (with_reducible refine fr_mk_thermHot (MaskLe.trans (by decide +kernel) hM) ?_; first | with_reducible assumption | with_reducible apply State.coreStop_fr)
    | with_reducible apply fr_pair
    | split
    | dsimp -zeta only
def fm_thermal : Nat := mAll_CHIP_ID_TEMP_temp ||| mAll_CHIP_ID_TEMP_valid ||| 2 ^ 107 ||| 2 ^ 105 ||| fm_report ||| fm_ev ||| fm_thermTrip
theorem State.thermal_fr {M s0} (s : State) (i : Nat) (t16 : Int) (hM : MaskLe fm_thermal M) (hs : Fr M s0 s) : Fr M s0 (State.thermal s i t16) := by
  unfold State.thermal
  extract_lets s0' lf s1 l off hit back s2 s3
  have h1 : Fr M s0 s0' := State.wr_fr _ _ (CHIP_ID_TEMP_temp i) _ (MaskLe.trans (CHIP_ID_TEMP_temp_mem _) (MaskLe.trans (by decide +kernel) hM)) (State.wrb_fr _ _ (CHIP_ID_TEMP_valid i) _ (MaskLe.trans (CHIP_ID_TEMP_valid_mem _) (MaskLe.trans (by decide +kernel) hM)) hs)
  clear_value s0'
  have h1 : Fr M s0 s1 := fr_mk_life (MaskLe.trans (by decide +kernel) hM) h1
  clear_value s1
  have h2 : Fr M s0 s2 := fr_mk_thermOff (MaskLe.trans (by decide +kernel) hM) h1
  clear_value s2
  have h3 : Fr M s0 s3 := fr_ite h2 (State.report_fr _ _ _ _ (MaskLe.trans (by decide +kernel) hM) (State.ev_fr _ _ _ (MaskLe.trans (by decide +kernel) hM) h2))
  clear_value s3
  exact State.thermTrip_fr _ _ _ (MaskLe.trans (by decide +kernel) hM) h3
def fm_celsius : Nat := fm_divFree
theorem State.celsius_fr {M s0} (s : State) (t16 : Int) (hM : MaskLe fm_celsius M) (hs : Fr M s0 s) : Fr M s0 (State.celsius s t16).2 := by
  unfold State.celsius
  repeat' first
    | with_reducible first | assumption | apply State.divFree_fr
    | (extract_lets +onlyGivenNames x; refine fr_cut x ?_ ?_; (on_goal 2 => dsimp only [x]); (on_goal 1 => clear_value x; intro hx))
    | (extract_lets +onlyGivenNames x; fail_if_success (have : State := x); clear_value x)
    | exact MaskLe.trans (by decide +kernel) hM
    | with_reducible apply fr2_pair
    | split
    | dsimp -zeta only
def fm_i2cByte : Nat := fm_celsius
theorem State.i2cByte_fr {M s0} (s : State) (p : Nat) (hM : MaskLe fm_i2cByte M) (hs : Fr M s0 s) : Fr M s0 (State.i2cByte s p).2 := by
  unfold State.i2cByte
  repeat' first
    | with_reducible first | assumption | apply State.celsius_fr | apply fr2_ite | apply fr_foldl | apply fr_foldl2 | apply fr_foldl1
    | exact MaskLe.trans (by decide +kernel) hM
    | with_reducible apply fr2_pair
    | split
    | dsimp -zeta only
def fm_i2cRead : Nat := 2 ^ 108 ||| fm_i2cByte
theorem State.i2cRead_fr {M s0} (s : State) (n : Nat) (hM : MaskLe fm_i2cRead M) (hs : Fr M s0 s) : Fr M s0 (State.i2cRead s n).2 := by
  induction n generalizing s with
  | zero => exact hs
  | succ n ih =>
  unfold State.i2cRead
  try dsimp -zeta only
  repeat' first
    | with_reducible first | assumption | apply State.i2cByte_fr | apply ih
    | (extract_lets +onlyGivenNames x; refine fr_cut x ?_ ?_; (on_goal 2 => dsimp only [x]); (on_goal 1 => clear_value x; intro hx))
    | (extract_lets +onlyGivenNames x; fail_if_success (have : State := x); clear_value x)
    | exact MaskLe.trans (by decide +kernel) hM
    | (with_reducible refine fr_mk_i2cPtr (MaskLe.trans (by decide +kernel) hM) ?_; first | with_reducible assumption | with_reducible apply State.i2cByte_fr)
    | with_reducible apply fr2_pair
    | split
    | dsimp -zeta only
def fm_i2c : Nat := 2 ^ 108 ||| fm_i2cRead ||| fm_answer
theorem State.i2c_fr {M s0} (s : State) (addr : Nat) (ptr : Option Nat) (n : Nat) (hM : MaskLe fm_i2c M) (hs : Fr M s0 s) : Fr M s0 (State.i2c s addr ptr n) := by
  unfold State.i2c
  repeat' first
    | with_reducible first | assumption | apply State.i2cRead_fr | apply State.answer_fr | apply fr_ite
    | (extract_lets +onlyGivenNames x; refine fr_cut x ?_ ?_; (on_goal 2 => dsimp only [x]); (on_goal 1 => clear_value x; intro hx))
    | (extract_lets +onlyGivenNames x; fail_if_success (have : State := x); clear_value x)
    | exact MaskLe.trans (by decide +kernel) hM
    | (with_reducible refine fr_mk_i2cPtr (MaskLe.trans (by decide +kernel) hM) ?_; first | with_reducible assumption | with_reducible apply State.i2cRead_fr | with_reducible apply State.answer_fr)
    | with_reducible apply fr_pair
    | split
    | dsimp -zeta only
def fm_jtag : Nat := fm_answer
theorem State.jtag_fr {M s0} (s : State) (x : JtagInstr) (hM : MaskLe fm_jtag M) (hs : Fr M s0 s) : Fr M s0 (State.jtag s x) := by
  unfold State.jtag
  repeat' first
    | with_reducible first | assumption | apply State.answer_fr
    | exact MaskLe.trans (by decide +kernel) hM
    | with_reducible apply fr_pair
    | split
    | dsimp -zeta only
def fm_digestRun : Nat := 2 ^ 110 ||| 2 ^ 111 ||| fm_report
theorem State.digestRun_fr {M s0} (s : State) (j : Nat) (hM : MaskLe fm_digestRun M) (hs : Fr M s0 s) : Fr M s0 (State.digestRun s j) := by
  unfold State.digestRun
  repeat' first
    | (intro x)
    | with_reducible first | assumption | apply State.report_fr | apply fr_when
    | (extract_lets +onlyGivenNames x; refine fr_cut x ?_ ?_; (on_goal 2 => dsimp only [x]); (on_goal 1 => clear_value x; intro hx))
    | (extract_lets +onlyGivenNames x; fail_if_success (have : State := x); clear_value x)
    | exact MaskLe.trans (by decide +kernel) hM
    | (with_reducible refine fr_mk_digs_digDue (MaskLe.trans (by decide +kernel) hM) ?_; first | with_reducible assumption | with_reducible apply State.report_fr)
    | with_reducible apply fr_pair
    | dsimp -zeta only
def fm_plbGo : Nat := mFld PLB_STATUS_refused ||| mFld CHK_STATUS_holder ||| mFld PLB_CRC_value ||| mFld PLB_STATUS_state ||| 2 ^ 109
theorem State.plbGo_fr {M s0} (s : State) (hM : MaskLe fm_plbGo M) (hs : Fr M s0 s) : Fr M s0 (State.plbGo s) := by
  unfold State.plbGo
  repeat' first
    | with_reducible first | assumption | apply State.count_fr | apply State.wr_fr | apply fr_ite
    | (extract_lets +onlyGivenNames x; refine fr_cut x ?_ ?_; (on_goal 2 => dsimp only [x]); (on_goal 1 => clear_value x; intro hx))
    | (extract_lets +onlyGivenNames x; fail_if_success (have : State := x); clear_value x)
    | exact MaskLe.trans (by decide +kernel) hM
    | (with_reducible refine fr_mk_plb (MaskLe.trans (by decide +kernel) hM) ?_; first | with_reducible assumption | with_reducible apply State.count_fr | with_reducible apply State.wr_fr)
    | with_reducible apply fr_pair
    | split
    | dsimp -zeta only
def fm_plbDone : Nat := mFld CHK_RUNS ||| mFld CHK_RESULT_res ||| mFld PLB_STATUS_state ||| mFld CHK_STATUS_holder ||| 2 ^ 109 ||| mFld PLB_SEQ_value ||| fm_hostBytes ||| fm_ev ||| fm_logRec
theorem State.plbDone_fr {M s0} (s : State) (hM : MaskLe fm_plbDone M) (hs : Fr M s0 s) : Fr M s0 (State.plbDone s) := by
  unfold State.plbDone
  repeat' first
    | with_reducible first | assumption | apply State.hostBytes_fr | apply State.ev_fr | apply State.count_fr | apply State.wr_fr | apply State.logRec_fr | apply fr_ite
    | (extract_lets +onlyGivenNames x; refine fr_cut x ?_ ?_; (on_goal 2 => dsimp only [x]); (on_goal 1 => clear_value x; intro hx))
    | (extract_lets +onlyGivenNames x; fail_if_success (have : State := x); clear_value x)
    | exact MaskLe.trans (by decide +kernel) hM
    | (with_reducible refine fr_mk_plb (MaskLe.trans (by decide +kernel) hM) ?_; first | with_reducible assumption | with_reducible apply State.hostBytes_fr | with_reducible apply State.ev_fr | with_reducible apply State.count_fr | with_reducible apply State.wr_fr | with_reducible apply State.logRec_fr)
    | split
    | dsimp -zeta only
def fm_loadChk : Nat := mFld CHK_CFG_refout ||| mFld CHK_CFG_refin ||| mFld CHK_CFG_width ||| mFld CHK_CFG_lock ||| mFld CHK_XOR_value ||| mFld CHK_INIT_value ||| mFld CHK_POLY_value
theorem State.loadChk_fr {M s0} (s : State) (u width poly init xor : Nat) (refl : Bool) (hM : MaskLe fm_loadChk M) (hs : Fr M s0 s) : Fr M s0 (State.loadChk s u width poly init xor refl) := by
  unfold State.loadChk
  repeat' first
    | with_reducible first | assumption | apply State.wrb_fr | apply State.wr_fr
    | (extract_lets +onlyGivenNames x; refine fr_cut x ?_ ?_; (on_goal 2 => dsimp only [x]); (on_goal 1 => clear_value x; intro hx))
    | (extract_lets +onlyGivenNames x; fail_if_success (have : State := x); clear_value x)
    | exact MaskLe.trans (by decide +kernel) hM
    | dsimp -zeta only
def fm_loadFcs32 : Nat := fm_loadChk
theorem State.loadFcs32_fr {M s0} (s : State) (u : Nat) (hM : MaskLe fm_loadFcs32 M) (hs : Fr M s0 s) : Fr M s0 (State.loadFcs32 s u) := by
  unfold State.loadFcs32
  repeat' first
    | with_reducible first | assumption | apply State.loadChk_fr
    | exact MaskLe.trans (by decide +kernel) hM
    | dsimp -zeta only
def fm_imageRejected : Nat := mFld FWM_BOOT_sm_reason ||| mFld FWM_BOOT_en_reason ||| fm_report ||| fm_ev
theorem State.imageRejected_fr {M s0} (s : State) (kind reason : Nat) (hM : MaskLe fm_imageRejected M) (hs : Fr M s0 s) : Fr M s0 (State.imageRejected s kind reason) := by
  unfold State.imageRejected
  repeat' first
    | with_reducible first | assumption | apply State.wr_fr | apply State.report_fr | apply State.ev_fr | apply fr_ite
    | (extract_lets +onlyGivenNames x; refine fr_cut x ?_ ?_; (on_goal 2 => dsimp only [x]); (on_goal 1 => clear_value x; intro hx))
    | (extract_lets +onlyGivenNames x; fail_if_success (have : State := x); clear_value x)
    | exact MaskLe.trans (by decide +kernel) hM
    | (with_reducible show MaskLe (_ (ite _ _ _)) _; split <;> exact MaskLe.trans (by decide +kernel) hM)
    | split
    | dsimp -zeta only
def fm_bootWait : Nat := mFld MODE_CALL_reason ||| mFld FWM_BOOT_state
theorem State.bootWait_fr {M s0} (s : State) (kind : Nat) (hM : MaskLe fm_bootWait M) (hs : Fr M s0 s) : Fr M s0 (State.bootWait s kind) := by
  unfold State.bootWait
  repeat' first
    | with_reducible first | assumption | apply State.wr_fr | apply fr_ite
    | exact MaskLe.trans (by decide +kernel) hM
    | split
    | dsimp -zeta only
def fm_bootSource : Nat := mFld FWM_BOOT_source
theorem State.bootSource_fr {M s0} (s : State) (kind src : Nat) (hM : MaskLe fm_bootSource M) (hs : Fr M s0 s) : Fr M s0 (State.bootSource s kind src) := by
  unfold State.bootSource
  repeat' first
    | with_reducible first | assumption | apply State.wr_fr | apply fr_ite
    | (extract_lets +onlyGivenNames x; refine fr_cut x ?_ ?_; (on_goal 2 => dsimp only [x]); (on_goal 1 => clear_value x; intro hx))
    | (extract_lets +onlyGivenNames x; fail_if_success (have : State := x); clear_value x)
    | exact MaskLe.trans (by decide +kernel) hM
    | split
    | dsimp -zeta only
def fm_smAccepted : Nat := 2 ^ 90 ||| mFld FWM_ROLLBACK_sm ||| mFld FWM_BOOT_sm_reason ||| mFld MODE_CALL_reason ||| mFld MODE_CALL_step ||| mFld FWM_BOOT_state ||| fm_bootSource ||| fm_smResume ||| fm_callClocks ||| fm_loadFcs32 ||| fm_loadChk
theorem State.smAccepted_fr {M s0} (s : State) (x : Image) (hM : MaskLe fm_smAccepted M) (hs : Fr M s0 s) : Fr M s0 (State.smAccepted s x) := by
  unfold State.smAccepted
  repeat' first
    | with_reducible first | assumption | apply State.bootSource_fr | apply State.wr_fr | apply State.smResume_fr | apply State.callClocks_fr | apply State.loadFcs32_fr | apply State.loadChk_fr | apply fr_ite
    | (extract_lets +onlyGivenNames x; refine fr_cut x ?_ ?_; (on_goal 2 => dsimp only [x]); (on_goal 1 => clear_value x; intro hx))
    | (extract_lets +onlyGivenNames x; fail_if_success (have : State := x); clear_value x)
    | exact MaskLe.trans (by decide +kernel) hM
    | (with_reducible refine fr_mk_smImg (MaskLe.trans (by decide +kernel) hM) ?_; first | with_reducible assumption | with_reducible apply State.bootSource_fr | with_reducible apply State.wr_fr | with_reducible apply State.smResume_fr | with_reducible apply State.callClocks_fr | with_reducible apply State.loadFcs32_fr | with_reducible apply State.loadChk_fr)
    | split
    | dsimp -zeta only
def fm_enAccepted : Nat := 2 ^ 91 ||| 2 ^ 92 ||| mFld FWM_ROLLBACK_en ||| mFld FWM_BOOT_en_reason ||| mFld FWM_EN_STATUS_held1 ||| mFld FWM_EN_STATUS_held0 ||| mFld FWM_EN_STATUS_slot1 ||| mFld FWM_EN_STATUS_slot0 ||| mFld FWM_BOOT_state ||| mFld MODE_CALL_reason ||| mFld MODE_CALL_step ||| fm_bootSource ||| fm_startCore ||| fm_ev
theorem State.enAccepted_fr {M s0} (s : State) (x : Image) (hM : MaskLe fm_enAccepted M) (hs : Fr M s0 s) : Fr M s0 (State.enAccepted s x) := by
  unfold State.enAccepted
  repeat' first
    | with_reducible first | assumption | apply State.bootSource_fr | apply State.wr_fr | apply State.startCore_fr | apply State.ev_fr
    | (extract_lets +onlyGivenNames x; refine fr_cut x ?_ ?_; (on_goal 2 => dsimp only [x]); (on_goal 1 => clear_value x; intro hx))
    | (extract_lets +onlyGivenNames x; fail_if_success (have : State := x); clear_value x)
    | exact MaskLe.trans (by decide +kernel) hM
    | (with_reducible refine fr_mk_slotA_slotB (MaskLe.trans (by decide +kernel) hM) ?_; first | with_reducible assumption | with_reducible apply State.bootSource_fr | with_reducible apply State.wr_fr | with_reducible apply State.startCore_fr | with_reducible apply State.ev_fr)
    | dsimp -zeta only
def fm_bootJudge : Nat := fm_smAccepted ||| fm_enAccepted ||| fm_imageRejected ||| fm_bootWait
theorem State.bootJudge_fr {M s0} (s : State) (kind : Nat) (x : Image) (hM : MaskLe fm_bootJudge M) (hs : Fr M s0 s) : Fr M s0 (State.bootJudge s kind x) := by
  unfold State.bootJudge
  repeat' first
    | with_reducible first | assumption | apply State.smAccepted_fr | apply State.enAccepted_fr | apply State.imageRejected_fr | apply State.bootWait_fr | apply fr_ite
    | (extract_lets +onlyGivenNames x; refine fr_cut x ?_ ?_; (on_goal 2 => dsimp only [x]); (on_goal 1 => clear_value x; intro hx))
    | (extract_lets +onlyGivenNames x; fail_if_success (have : State := x); clear_value x)
    | exact MaskLe.trans (by decide +kernel) hM
    | split
    | dsimp -zeta only
def fm_smRejudge : Nat := fm_smAccepted ||| fm_imageRejected ||| fm_report
theorem State.smRejudge_fr {M s0} (s : State) (x : Image) (hM : MaskLe fm_smRejudge M) (hs : Fr M s0 s) : Fr M s0 (State.smRejudge s x) := by
  unfold State.smRejudge
  repeat' first
    | with_reducible first | assumption | apply State.smAccepted_fr | apply State.imageRejected_fr | apply State.report_fr | apply fr_ite
    | (extract_lets +onlyGivenNames x; refine fr_cut x ?_ ?_; (on_goal 2 => dsimp only [x]); (on_goal 1 => clear_value x; intro hx))
    | (extract_lets +onlyGivenNames x; fail_if_success (have : State := x); clear_value x)
    | exact MaskLe.trans (by decide +kernel) hM
    | split
    | dsimp -zeta only
def fm_pushJudge : Nat := mFld FWM_PUSH_STATUS_reason ||| mFld FWM_PUSH_STATUS_state ||| 2 ^ 93 ||| 2 ^ 91 ||| 2 ^ 92 ||| fm_bootJudge ||| fm_imageRejected
theorem State.pushJudge_fr {M s0} (s : State) (p : Push) (hM : MaskLe fm_pushJudge M) (hs : Fr M s0 s) : Fr M s0 (State.pushJudge s p) := by
  unfold State.pushJudge
  repeat' first
    | with_reducible first | assumption | apply State.wr_fr | apply State.bootJudge_fr | apply State.imageRejected_fr | apply fr_ite
    | (extract_lets +onlyGivenNames x; refine fr_cut x ?_ ?_; (on_goal 2 => dsimp only [x]); (on_goal 1 => clear_value x; intro hx))
    | (extract_lets +onlyGivenNames x; fail_if_success (have : State := x); clear_value x)
    | exact MaskLe.trans (by decide +kernel) hM
    | (with_reducible refine fr_mk_push (MaskLe.trans (by decide +kernel) hM) ?_; first | with_reducible assumption | with_reducible apply State.wr_fr | with_reducible apply State.bootJudge_fr | with_reducible apply State.imageRejected_fr)
    | (with_reducible refine fr_mk_slotA (MaskLe.trans (by decide +kernel) hM) ?_; first | with_reducible assumption | with_reducible apply State.wr_fr | with_reducible apply State.bootJudge_fr | with_reducible apply State.imageRejected_fr)
    | (with_reducible refine fr_mk_slotB (MaskLe.trans (by decide +kernel) hM) ?_; first | with_reducible assumption | with_reducible apply State.wr_fr | with_reducible apply State.bootJudge_fr | with_reducible apply State.imageRejected_fr)
    | split
    | dsimp -zeta only
def fm_imageVerified : Nat := fm_callStep5 ||| fm_smRejudge ||| fm_bootJudge ||| fm_pushJudge
theorem State.imageVerified_fr {M s0} (s : State) (kind : Nat) (flash : Option FlashImage) (t : CallTests) (hM : MaskLe fm_imageVerified M) (hs : Fr M s0 s) : Fr M s0 (State.imageVerified s kind flash t) := by
  unfold State.imageVerified
  repeat' first
    | with_reducible first | assumption | apply State.callStep5_fr | apply State.smRejudge_fr | apply State.bootJudge_fr | apply State.pushJudge_fr | apply fr_ite
    | (extract_lets +onlyGivenNames x; refine fr_cut x ?_ ?_; (on_goal 2 => dsimp only [x]); (on_goal 1 => clear_value x; intro hx))
    | (extract_lets +onlyGivenNames x; fail_if_success (have : State := x); clear_value x)
    | exact MaskLe.trans (by decide +kernel) hM
    | with_reducible apply fr_pair
    | split
    | dsimp -zeta only
def fm_pushStart : Nat := 2 ^ 93 ||| mFld FWM_PUSH_STATUS_state ||| mFld FWM_PUSH_STATUS_reason ||| mFld FWM_PUSH_STATUS_words
theorem State.pushStart_fr {M s0} (s : State) (kind len : Nat) (hM : MaskLe fm_pushStart M) (hs : Fr M s0 s) : Fr M s0 (State.pushStart s kind len) := by
  unfold State.pushStart
  repeat' first
    | with_reducible first | assumption | apply State.wr_fr | apply fr_ite
    | (extract_lets +onlyGivenNames x; refine fr_cut x ?_ ?_; (on_goal 2 => dsimp only [x]); (on_goal 1 => clear_value x; intro hx))
    | (extract_lets +onlyGivenNames x; fail_if_success (have : State := x); clear_value x)
    | exact MaskLe.trans (by decide +kernel) hM
    | (with_reducible refine fr_mk_push (MaskLe.trans (by decide +kernel) hM) ?_; first | with_reducible assumption | with_reducible apply State.wr_fr)
    | split
    | dsimp -zeta only
def fm_pushData : Nat := mFld FWM_PUSH_STATUS_words ||| 2 ^ 93
theorem State.pushData_fr {M s0} (s : State) (w : Who) (v : Nat) (hM : MaskLe fm_pushData M) (hs : Fr M s0 s) : Fr M s0 (State.pushData s w v) := by
  unfold State.pushData
  repeat' first
    | with_reducible first | assumption | apply State.count_fr | apply fr_ite
    | exact MaskLe.trans (by decide +kernel) hM
    | (with_reducible refine fr_mk_push (MaskLe.trans (by decide +kernel) hM) ?_; first | with_reducible assumption | with_reducible apply State.count_fr)
    | with_reducible apply fr_pair
    | split
    | dsimp -zeta only
def fm_pushEnd : Nat := mFld FWM_PUSH_STATUS_state
theorem State.pushEnd_fr {M s0} (s : State) (hM : MaskLe fm_pushEnd M) (hs : Fr M s0 s) : Fr M s0 (State.pushEnd s) := by
  unfold State.pushEnd
  repeat' first
    | with_reducible first | assumption | apply State.wr_fr | apply fr_ite
    | exact MaskLe.trans (by decide +kernel) hM
    | split
    | dsimp -zeta only
def fm_pushAbort : Nat := mFld FWM_PUSH_STATUS_state ||| 2 ^ 93
theorem State.pushAbort_fr {M s0} (s : State) (hM : MaskLe fm_pushAbort M) (hs : Fr M s0 s) : Fr M s0 (State.pushAbort s) := by
  unfold State.pushAbort
  repeat' first
    | with_reducible first | assumption | apply State.wr_fr | apply fr_ite
    | exact MaskLe.trans (by decide +kernel) hM
    | (with_reducible refine fr_mk_push (MaskLe.trans (by decide +kernel) hM) ?_; first | with_reducible assumption | with_reducible apply State.wr_fr)
    | split
    | dsimp -zeta only
def fm_writePushCtrl : Nat := fm_pushStart ||| fm_pushEnd ||| fm_pushAbort
theorem State.writePushCtrl_fr {M s0} (s : State) (v : Nat) (hM : MaskLe fm_writePushCtrl M) (hs : Fr M s0 s) : Fr M s0 (State.writePushCtrl s v) := by
  unfold State.writePushCtrl
  repeat' first
    | with_reducible first | assumption | apply State.pushStart_fr | apply State.pushEnd_fr | apply State.pushAbort_fr | apply fr_ite
    | (extract_lets +onlyGivenNames x; refine fr_cut x ?_ ?_; (on_goal 2 => dsimp only [x]); (on_goal 1 => clear_value x; intro hx))
    | (extract_lets +onlyGivenNames x; fail_if_success (have : State := x); clear_value x)
    | exact MaskLe.trans (by decide +kernel) hM
    | split
    | dsimp -zeta only
def fm_pushTimeout : Nat := mFld FWM_PUSH_STATUS_reason ||| fm_bootWait ||| fm_imageRejected
theorem State.pushTimeout_fr {M s0} (s : State) (hM : MaskLe fm_pushTimeout M) (hs : Fr M s0 s) : Fr M s0 (State.pushTimeout s) := by
  unfold State.pushTimeout
  repeat' first
    | with_reducible first | assumption | apply State.wr_fr | apply State.bootWait_fr | apply State.imageRejected_fr | apply fr_ite
    | (extract_lets +onlyGivenNames x; refine fr_cut x ?_ ?_; (on_goal 2 => dsimp only [x]); (on_goal 1 => clear_value x; intro hx))
    | (extract_lets +onlyGivenNames x; fail_if_success (have : State := x); clear_value x)
    | exact MaskLe.trans (by decide +kernel) hM
    | split
    | dsimp -zeta only
def fm_mbStart : Nat := mFld FWM_MB_STATUS_state ||| 2 ^ 101
theorem State.mbStart_fr {M s0} (s : State) (n who : Nat) (hM : MaskLe fm_mbStart M) (hs : Fr M s0 s) : Fr M s0 (State.mbStart s n who) := by
  unfold State.mbStart
  repeat' first
    | with_reducible first | assumption | apply State.wr_fr
    | exact MaskLe.trans (by decide +kernel) hM
    | (with_reducible refine fr_mk_mbWho (MaskLe.trans (by decide +kernel) hM) ?_; first | with_reducible assumption | with_reducible apply State.wr_fr)
    | dsimp -zeta only
def fm_mbRing : Nat := 2 ^ 87 ||| mFld FWM_MB_STATUS_busy_refused ||| fm_ev ||| fm_mbStart
theorem State.mbRing_fr {M s0} (s : State) (w : Who) (n : Nat) (hM : MaskLe fm_mbRing M) (hs : Fr M s0 s) : Fr M s0 (State.mbRing s w n) := by
  unfold State.mbRing
  repeat' first
    | with_reducible first | assumption | apply State.ev_fr | apply State.count_fr | apply State.mbStart_fr | apply fr_ite
    | (extract_lets +onlyGivenNames x; refine fr_cut x ?_ ?_; (on_goal 2 => dsimp only [x]); (on_goal 1 => clear_value x; intro hx))
    | (extract_lets +onlyGivenNames x; fail_if_success (have : State := x); clear_value x)
    | exact MaskLe.trans (by decide +kernel) hM
    | (with_reducible refine fr_mk_hst (MaskLe.trans (by decide +kernel) hM) ?_; first | with_reducible assumption | with_reducible apply State.ev_fr | with_reducible apply State.count_fr | with_reducible apply State.mbStart_fr)
    | split
    | dsimp -zeta only
def fm_mbRingAgain : Nat := 2 ^ 87 ||| mFld FWM_MB_STATUS_busy_refused ||| fm_mbStart ||| fm_unrecord
theorem State.mbRingAgain_fr {M s0} (s : State) (n : Nat) (hM : MaskLe fm_mbRingAgain M) (hs : Fr M s0 s) : Fr M s0 (State.mbRingAgain s n) := by
  unfold State.mbRingAgain
  repeat' first
    | (intro x)
    | with_reducible first | assumption | apply State.wr_fr | apply State.mbStart_fr | apply State.unrecord_fr | apply fr_when
    | (extract_lets +onlyGivenNames x; refine fr_cut x ?_ ?_; (on_goal 2 => dsimp only [x]); (on_goal 1 => clear_value x; intro hx))
    | (extract_lets +onlyGivenNames x; fail_if_success (have : State := x); clear_value x)
    | exact MaskLe.trans (by decide +kernel) hM
    | (with_reducible refine fr_mk_hst (MaskLe.trans (by decide +kernel) hM) ?_; first | with_reducible assumption | with_reducible apply State.wr_fr | with_reducible apply State.mbStart_fr | with_reducible apply State.unrecord_fr)
    | with_reducible apply fr_pair
    | split
    | dsimp -zeta only
def fm_mbRespond : Nat := mFld (FWM_RSP_word 1) ||| mFld (FWM_RSP_word 0) ||| mFld (FWM_RSP_word 2) ||| mAll_FWM_RSP_word ||| mFld FWM_MB_STATUS_state ||| fm_mbRingAgain ||| fm_ev
theorem State.mbRespond_fr {M s0} (s : State) (n status : Nat) (payload : List Nat) (hM : MaskLe fm_mbRespond M) (hs : Fr M s0 s) : Fr M s0 (State.mbRespond s n status payload) := by
  unfold State.mbRespond
  repeat' first
    | (intro x)
    | with_reducible first | assumption | apply State.wr_fr | apply State.mbRingAgain_fr | apply State.ev_fr | apply fr_each
    | (extract_lets +onlyGivenNames x; refine fr_cut x ?_ ?_; (on_goal 2 => dsimp only [x]); (on_goal 1 => clear_value x; intro hx))
    | (extract_lets +onlyGivenNames x; fail_if_success (have : State := x); clear_value x)
    | exact MaskLe.trans (by decide +kernel) hM
    | (with_reducible refine MaskLe.trans (FWM_RSP_word_mem _) ?_; exact MaskLe.trans (by decide +kernel) hM)
    | with_reducible apply fr_pair
    | dsimp -zeta only
def fm_freeBytes : Nat := fm_free
theorem State.freeBytes_fr {M s0} (s : State) (n : Nat) (hM : MaskLe fm_freeBytes M) (hs : Fr M s0 s) : Fr M s0 (State.freeBytes s n).2 := by
  induction n generalizing s with
  | zero => exact hs
  | succ n ih =>
  unfold State.freeBytes
  try dsimp -zeta only
  repeat' first
    | with_reducible first | assumption | apply State.free_fr | apply ih
    | (extract_lets +onlyGivenNames x; refine fr_cut x ?_ ?_; (on_goal 2 => dsimp only [x]); (on_goal 1 => clear_value x; intro hx))
    | (extract_lets +onlyGivenNames x; fail_if_success (have : State := x); clear_value x)
    | exact MaskLe.trans (by decide +kernel) hM
    | with_reducible apply fr2_pair
    | split
    | dsimp -zeta only
def fm_trustAttest : Nat := fm_freeBytes ||| fm_mbRespond
theorem State.trustAttest_fr {M s0} (s : State) (n : Nat) (hM : MaskLe fm_trustAttest M) (hs : Fr M s0 s) : Fr M s0 (State.trustAttest s n) := by
  unfold State.trustAttest
  repeat' first
    | with_reducible first | assumption | apply State.freeBytes_fr | apply State.mbRespond_fr
    | (extract_lets +onlyGivenNames x; refine fr_cut x ?_ ?_; (on_goal 2 => dsimp only [x]); (on_goal 1 => clear_value x; intro hx))
    | (extract_lets +onlyGivenNames x; fail_if_success (have : State := x); clear_value x)
    | exact MaskLe.trans (by decide +kernel) hM
    | with_reducible apply fr_pair
    | split
    | dsimp -zeta only
def fm_trustCert : Nat := fm_mbRespond
theorem State.trustCert_fr {M s0} (s : State) (n : Nat) (hM : MaskLe fm_trustCert M) (hs : Fr M s0 s) : Fr M s0 (State.trustCert s n) := by
  unfold State.trustCert
  repeat' first
    | with_reducible first | assumption | apply State.mbRespond_fr | apply fr_ite
    | (extract_lets +onlyGivenNames x; refine fr_cut x ?_ ?_; (on_goal 2 => dsimp only [x]); (on_goal 1 => clear_value x; intro hx))
    | (extract_lets +onlyGivenNames x; fail_if_success (have : State := x); clear_value x)
    | exact MaskLe.trans (by decide +kernel) hM
    | split
    | dsimp -zeta only
def fm_trustChallenge : Nat := 2 ^ 97 ||| fm_freeBytes ||| fm_mbRespond
theorem State.trustChallenge_fr {M s0} (s : State) (hM : MaskLe fm_trustChallenge M) (hs : Fr M s0 s) : Fr M s0 (State.trustChallenge s) := by
  unfold State.trustChallenge
  repeat' first
    | with_reducible first | assumption | apply State.freeBytes_fr | apply State.mbRespond_fr
    | (extract_lets +onlyGivenNames x; refine fr_cut x ?_ ?_; (on_goal 2 => dsimp only [x]); (on_goal 1 => clear_value x; intro hx))
    | (extract_lets +onlyGivenNames x; fail_if_success (have : State := x); clear_value x)
    | exact MaskLe.trans (by decide +kernel) hM
    | (with_reducible refine fr_mk_challenge (MaskLe.trans (by decide +kernel) hM) ?_; first | with_reducible assumption | with_reducible apply State.freeBytes_fr | with_reducible apply State.mbRespond_fr)
    | with_reducible apply fr_pair
    | split
    | dsimp -zeta only
def fm_trustUnlock : Nat := 2 ^ 97 ||| 2 ^ 96 ||| fm_mbRespond ||| fm_logRec ||| fm_report
theorem State.trustUnlock_fr {M s0} (s : State) (hM : MaskLe fm_trustUnlock M) (hs : Fr M s0 s) : Fr M s0 (State.trustUnlock s) := by
  unfold State.trustUnlock
  extract_lets p ok s1 r
  have h1 : Fr M s0 s1 := fr_mk_challenge (MaskLe.trans (by decide +kernel) hM) hs
  clear_value s1
  exact fr_ite (State.mbRespond_fr _ _ _ _ (MaskLe.trans (by decide +kernel) hM) (State.logRec_fr _ _ _ _ _ (MaskLe.trans (by decide +kernel) hM) (fr_mk_rights (MaskLe.trans (by decide +kernel) hM) h1)))
    (State.mbRespond_fr _ _ _ _ (MaskLe.trans (by decide +kernel) hM) (State.report_fr _ _ _ _ (MaskLe.trans (by decide +kernel) hM) h1))
def fm_trustCommit : Nat := 2 ^ 94 ||| fm_report ||| fm_mbRespond
theorem State.trustCommit_fr {M s0} (s : State) (verified : Nat) (hM : MaskLe fm_trustCommit M) (hs : Fr M s0 s) : Fr M s0 (State.trustCommit s verified) := by
  unfold State.trustCommit
  extract_lets v
  split
  · refine fr_ite ?_ (State.mbRespond_fr _ _ _ _ (MaskLe.trans (by decide +kernel) hM) hs)
    refine State.mbRespond_fr _ _ _ _ (MaskLe.trans (by decide +kernel) hM) (fr_when ?_ (fun s h => State.report_fr _ _ _ _ (MaskLe.trans (by decide +kernel) hM) h))
    exact { hs with
      rbSteps := fun c => absurd (hM.bit c) (by decide +kernel)
      kFuse := fun m => ⟨Nat.le_trans (hs.kFuse m).1 (Nat.le_add_right _ _), (hs.kFuse m).2⟩ }
  · exact State.mbRespond_fr _ _ _ _ (MaskLe.trans (by decide +kernel) hM) hs
def fm_trustRevoke : Nat := 2 ^ 95 ||| fm_mbRespond
theorem State.trustRevoke_fr {M s0} (s : State) (hM : MaskLe fm_trustRevoke M) (hs : Fr M s0 s) : Fr M s0 (State.trustRevoke s) := by
  unfold State.trustRevoke
  extract_lets k
  refine fr_ite (State.mbRespond_fr _ _ _ _ (MaskLe.trans (by decide +kernel) hM) hs) (fr_ite (State.mbRespond_fr _ _ _ _ (MaskLe.trans (by decide +kernel) hM) hs) (State.mbRespond_fr _ _ _ _ (MaskLe.trans (by decide +kernel) hM) { hs with
    revoked := fun c => absurd (hM.bit c) (by decide +kernel)
    kFuse := fun m => ⟨(hs.kFuse m).1, fun x y => ?_⟩ }))
  dsimp only
  split
  · exact (hs.kFuse m).2 x y
  · exact List.mem_append_left _ ((hs.kFuse m).2 x y)
def fm_trustInfo : Nat := fm_mbRespond
theorem State.trustInfo_fr {M s0} (s : State) (hM : MaskLe fm_trustInfo M) (hs : Fr M s0 s) : Fr M s0 (State.trustInfo s) := by
  unfold State.trustInfo
  repeat' first
    | with_reducible first | assumption | apply State.mbRespond_fr
    | exact MaskLe.trans (by decide +kernel) hM
    | dsimp -zeta only
def fm_handover : Nat := mFld FWM_EN_STATUS_held0 ||| mFld FWM_EN_STATUS_held1 ||| fm_ev
theorem State.handover_fr {M s0} (s : State) (i set : Nat) (hM : MaskLe fm_handover M) (hs : Fr M s0 s) : Fr M s0 (State.handover s i set) := by
  unfold State.handover
  repeat' first
    | with_reducible first | assumption | apply State.wr_fr | apply State.ev_fr
    | (extract_lets +onlyGivenNames x; refine fr_cut x ?_ ?_; (on_goal 2 => dsimp only [x]); (on_goal 1 => clear_value x; intro hx))
    | (extract_lets +onlyGivenNames x; fail_if_success (have : State := x); clear_value x)
    | exact MaskLe.trans (by decide +kernel) hM
    | (with_reducible show MaskLe (mFld (enHeldF _)) _; unfold enHeldF; split <;> exact MaskLe.trans (by decide +kernel) hM)
    | split
    | dsimp -zeta only
def fm_restartAt : Nat := mFld FWM_EN_STATUS_slot0 ||| mFld FWM_EN_STATUS_slot1 ||| fm_startCore
theorem State.restartAt_fr {M s0} (s : State) (i slot : Nat) (hM : MaskLe fm_restartAt M) (hs : Fr M s0 s) : Fr M s0 (State.restartAt s i slot) := by
  unfold State.restartAt
  repeat' first
    | with_reducible first | assumption | apply State.startCore_fr | apply State.wr_fr
    | exact MaskLe.trans (by decide +kernel) hM
    | (with_reducible show MaskLe (mFld (enSlotF _)) _; unfold enSlotF; split <;> exact MaskLe.trans (by decide +kernel) hM)
    | dsimp -zeta only
def fm_wdogFire : Nat := mFld FWM_EN_STATUS_expiries ||| mFld FWM_EN_STATUS_run0 ||| mFld FWM_EN_STATUS_run1 ||| 2 ^ 98 ||| fm_report ||| fm_handover ||| fm_ev ||| fm_startCore
theorem State.wdogFire_fr {M s0} (s : State) (i : Nat) (hM : MaskLe fm_wdogFire M) (hs : Fr M s0 s) : Fr M s0 (State.wdogFire s i) := by
  unfold State.wdogFire
  repeat' first
    | (intro x)
    | with_reducible first | assumption | apply State.report_fr | apply State.countSat_fr | apply State.wr_fr | apply State.handover_fr | apply State.ev_fr | apply State.startCore_fr | apply fr_ite | apply fr_when
    | (extract_lets +onlyGivenNames x; refine fr_cut x ?_ ?_; (on_goal 2 => dsimp only [x]); (on_goal 1 => clear_value x; intro hx))
    | (extract_lets +onlyGivenNames x; fail_if_success (have : State := x); clear_value x)
    | exact MaskLe.trans (by decide +kernel) hM
    | (with_reducible show MaskLe (mFld (enRunF _)) _; unfold enRunF; split <;> exact MaskLe.trans (by decide +kernel) hM)
    | (with_reducible refine fr_mk_wdogTimes (MaskLe.trans (by decide +kernel) hM) ?_; first | with_reducible assumption | with_reducible apply State.report_fr | with_reducible apply State.countSat_fr | with_reducible apply State.wr_fr | with_reducible apply State.handover_fr | with_reducible apply State.ev_fr | with_reducible apply State.startCore_fr)
    | with_reducible apply fr_pair
    | split
    | dsimp -zeta only
def fm_updateExpired : Nat := fm_wdogFire ||| fm_handover ||| fm_mbRespond
theorem State.updateExpired_fr {M s0} (s : State) (i h0 h1 : Nat) (hM : MaskLe fm_updateExpired M) (hs : Fr M s0 s) : Fr M s0 (State.updateExpired s i h0 h1) := by
  unfold State.updateExpired
  repeat' first
    | (intro x)
    | with_reducible first | assumption | apply State.wdogFire_fr | apply State.handover_fr | apply State.mbRespond_fr | apply fr_when
    | (extract_lets +onlyGivenNames x; refine fr_cut x ?_ ?_; (on_goal 2 => dsimp only [x]); (on_goal 1 => clear_value x; intro hx))
    | (extract_lets +onlyGivenNames x; fail_if_success (have : State := x); clear_value x)
    | exact MaskLe.trans (by decide +kernel) hM
    | with_reducible apply fr_pair
    | dsimp -zeta only
def fm_updateStep : Nat := fm_updateExpired
theorem State.updateStep_fr {M s0} (s : State) (x : TrustEnv) (k h0 h1 : Nat) (f : State → State) (hM : MaskLe fm_updateStep M) (k_f : ∀ s, Fr M s0 s → Fr M s0 (f s)) (hs : Fr M s0 s) : Fr M s0 (State.updateStep s x k h0 h1 f) := by
  unfold State.updateStep
  repeat' first
    | with_reducible first | assumption | apply State.updateExpired_fr | apply k_f
    | exact MaskLe.trans (by decide +kernel) hM
    | with_reducible apply fr_pair
    | split
    | dsimp -zeta only
def fm_updateRun : Nat := mFld FWM_ROLLBACK_en ||| fm_updateStep ||| fm_handover ||| fm_mbRespond ||| fm_restartAt
theorem State.updateRun_fr {M s0} (s : State) (x : TrustEnv) (hM : MaskLe fm_updateRun M) (hs : Fr M s0 s) : Fr M s0 (State.updateRun s x) := by
  unfold State.updateRun
  repeat' first
    | (intro x)
    | with_reducible first | assumption | apply State.updateStep_fr | apply State.handover_fr | apply State.mbRespond_fr | apply State.restartAt_fr | apply State.wr_fr | apply fr_ite
    | (extract_lets +onlyGivenNames x; refine fr_cut x ?_ ?_; (on_goal 2 => dsimp only [x]); (on_goal 1 => clear_value x; intro hx))
    | (extract_lets +onlyGivenNames x; fail_if_success (have : State := x); clear_value x)
    | exact MaskLe.trans (by decide +kernel) hM
    | with_reducible apply fr_pair
    | split
    | dsimp -zeta only
def fm_trustUpdate : Nat := fm_mbRespond ||| fm_updateRun
theorem State.trustUpdate_fr {M s0} (s : State) (x : TrustEnv) (hM : MaskLe fm_trustUpdate M) (hs : Fr M s0 s) : Fr M s0 (State.trustUpdate s x) := by
  unfold State.trustUpdate
  repeat' first
    | with_reducible first | assumption | apply State.mbRespond_fr | apply State.updateRun_fr
    | exact MaskLe.trans (by decide +kernel) hM
    | with_reducible apply fr_pair
    | split
    | dsimp -zeta only
def fm_serveTrust : Nat := fm_mbRespond ||| fm_trustAttest ||| fm_trustCert ||| fm_trustChallenge ||| fm_trustUnlock ||| fm_trustCommit ||| fm_trustRevoke ||| fm_trustUpdate ||| fm_trustInfo
theorem State.serveTrust_fr {M s0} (s : State) (n : Nat) (x : TrustEnv) (hM : MaskLe fm_serveTrust M) (hs : Fr M s0 s) : Fr M s0 (State.serveTrust s n x) := by
  unfold State.serveTrust
  repeat' first
    | with_reducible first | assumption | apply State.mbRespond_fr | apply State.trustAttest_fr | apply State.trustCert_fr | apply State.trustChallenge_fr | apply State.trustUnlock_fr | apply State.trustCommit_fr | apply State.trustRevoke_fr | apply State.trustUpdate_fr | apply State.trustInfo_fr | apply fr_ite
    | (extract_lets +onlyGivenNames x; refine fr_cut x ?_ ?_; (on_goal 2 => dsimp only [x]); (on_goal 1 => clear_value x; intro hx))
    | (extract_lets +onlyGivenNames x; fail_if_success (have : State := x); clear_value x)
    | exact MaskLe.trans (by decide +kernel) hM
    | split
    | dsimp -zeta only
def fm_trustOp : Nat := fm_serveTrust
theorem State.trustOp_fr {M s0} (s : State) (n op : Nat) (x : TrustEnv) (hM : MaskLe fm_trustOp M) (hs : Fr M s0 s) : Fr M s0 (State.trustOp s n op x) := by
  unfold State.trustOp
  repeat' first
    | with_reducible first | assumption | apply State.serveTrust_fr | apply fr_ite
    | exact MaskLe.trans (by decide +kernel) hM
    | split
    | dsimp -zeta only
def fm_wdogKick : Nat := 2 ^ 100
theorem State.wdogKick_fr {M s0} (s : State) (w : Who) (hM : MaskLe fm_wdogKick M) (hs : Fr M s0 s) : Fr M s0 (State.wdogKick s w) := by
  unfold State.wdogKick
  repeat' first
    | with_reducible first | assumption | apply fr_ite
    | exact MaskLe.trans (by decide +kernel) hM
    | (with_reducible refine fr_mk_kickAt (MaskLe.trans (by decide +kernel) hM) ?_; first | with_reducible assumption)
    | split
    | dsimp -zeta only
def fm_wdogExpire : Nat := fm_wdogFire
theorem State.wdogExpire_fr {M s0} (s : State) (i : Nat) (hM : MaskLe fm_wdogExpire M) (hs : Fr M s0 s) : Fr M s0 (State.wdogExpire s i) := by
  unfold State.wdogExpire
  repeat' first
    | with_reducible first | assumption | apply State.wdogFire_fr | apply fr_ite
    | exact MaskLe.trans (by decide +kernel) hM
    | split
    | dsimp -zeta only

end Sys2Proof.Machine
end

