-- ==== Sys2Proof/Laws/FrameHost.lean ====
section
/-! SUPPORT. What each operation of RegModel, CueCheck, Cue, RegWrite, HostIf may change: one law per operation, by the masks of Laws/State.lean. -/

namespace Sys2Proof.Machine

open Sys2Proof

set_option Elab.async false
set_option linter.all false

def fm_voteField : Nat := fm_report ||| fm_setErr ||| fm_modeLost
theorem State.voteField_fr {M s0} (s : State) (pg : Nat) (f : Field) (hM : MaskLe fm_voteField M) (hf_f : MaskLe (mFld f) M) (hs : Fr M s0 s) : Fr M s0 (State.voteField s pg f) := by
  unfold State.voteField
  repeat' first
    | with_reducible first | assumption | apply State.report_fr | apply State.setErr_fr | apply State.wr_fr | apply State.modeLost_fr | apply fr_ite
    | (extract_lets +onlyGivenNames x; refine fr_cut x ?_ ?_; (on_goal 2 => dsimp only [x]); (on_goal 1 => clear_value x; intro hx))
    | (extract_lets +onlyGivenNames x; fail_if_success (have : State := x); clear_value x)
    | exact MaskLe.trans (by decide +kernel) hM
    | split
    | dsimp -zeta only
def fm_voteEntry : Nat := fm_report ||| fm_setErr
theorem State.voteEntry_fr {M s0} (s : State) (pg : Nat) (t : Tab) (e : Nat) (hM : MaskLe fm_voteEntry M) (ht_t : MaskLe (mTab t) M) (hs : Fr M s0 s) : Fr M s0 (State.voteEntry s pg t e) := by
  unfold State.voteEntry
  repeat' first
    | with_reducible first | assumption | apply State.report_fr | apply State.setErr_fr | apply State.setEntry_fr | apply fr_ite
    | (extract_lets +onlyGivenNames x; refine fr_cut x ?_ ?_; (on_goal 2 => dsimp only [x]); (on_goal 1 => clear_value x; intro hx))
    | (extract_lets +onlyGivenNames x; fail_if_success (have : State := x); clear_value x)
    | exact MaskLe.trans (by decide +kernel) hM
    | split
    | dsimp -zeta only
def fm_upset : Nat := allRegs ||| allTabs
theorem State.upset_fr {M s0} (s : State) (arg : Upset) (hM : MaskLe fm_upset M) (hs : Fr M s0 s) : Fr M s0 (State.upset s arg) := by
  unfold State.upset
  repeat' first
    | (intro x)
    | with_reducible first | assumption | apply fr_ite
    | (extract_lets +onlyGivenNames x; refine fr_cut x ?_ ?_; (on_goal 2 => dsimp only [x]); (on_goal 1 => clear_value x; intro hx))
    | (extract_lets +onlyGivenNames x; fail_if_success (have : State := x); clear_value x)
    | exact MaskLe.trans (by decide +kernel) hM
    | exact mFld_coarse (MaskLe.trans (by decide +kernel) hM) _
    | exact mTab_coarse (MaskLe.trans (by decide +kernel) hM) _
    | (with_reducible refine fr_mk_regs (MaskLe.trans (by decide +kernel) hM) ?_; first | with_reducible assumption)
    | (with_reducible refine fr_mk_regsB (MaskLe.trans (by decide +kernel) hM) ?_; first | with_reducible assumption)
    | (with_reducible refine fr_mk_regsC (MaskLe.trans (by decide +kernel) hM) ?_; first | with_reducible assumption)
    | (with_reducible refine fr_mk_tabs (MaskLe.trans (by decide +kernel) hM) ?_; first | with_reducible assumption)
    | (with_reducible refine fr_mk_tabsB (MaskLe.trans (by decide +kernel) hM) ?_; first | with_reducible assumption)
    | (with_reducible refine fr_mk_tabsC (MaskLe.trans (by decide +kernel) hM) ?_; first | with_reducible assumption)
    | with_reducible apply fr_pair
    | split
    | dsimp -zeta only
def fm_scrub : Nat := allRegs ||| allTabs ||| fm_upset ||| fm_voteField ||| fm_voteEntry
theorem State.scrub_fr {M s0} (s : State) (u : List Upset) (hM : MaskLe fm_scrub M) (hs : Fr M s0 s) : Fr M s0 (State.scrub s u) := by
  unfold State.scrub
  extract_lets s1 s2
  have h1 : Fr M s0 s1 := fr_each hs (fun s x h => State.upset_fr _ _ (MaskLe.trans (by decide +kernel) hM) h)
  clear_value s1
  have h2 : Fr M s0 s2 := fr_each h1 (fun s x h => State.voteField_fr _ _ _ (MaskLe.trans (by decide +kernel) hM) (mFld_coarse (MaskLe.trans (by decide +kernel) hM) _) h)
  clear_value s2
  exact fr_each h2 (fun s x h => State.voteEntry_fr _ _ _ _ (MaskLe.trans (by decide +kernel) hM) (mTab_coarse (MaskLe.trans (by decide +kernel) hM) _) h)
def fm_voteAt : Nat := allRegs ||| fm_voteField
theorem State.voteAt_fr {M s0} (s : State) (pg off : Nat) (hM : MaskLe fm_voteAt M) (hs : Fr M s0 s) : Fr M s0 (State.voteAt s pg off) := by
  unfold State.voteAt
  repeat' first
    | (intro x)
    | with_reducible first | assumption | apply State.voteField_fr | apply fr_each
    | exact MaskLe.trans (by decide +kernel) hM
    | exact mFld_coarse (MaskLe.trans (by decide +kernel) hM) _
    | with_reducible apply fr_pair
    | dsimp -zeta only
def fm_readEvents : Nat := mFld EVT_SEQ_seq
theorem State.readEvents_fr {M s0} (s : State) (rq pg : Nat) (hM : MaskLe fm_readEvents M) (hs : Fr M s0 s) : Fr M s0 (State.readEvents s rq pg).2 := by
  unfold State.readEvents
  repeat' first
    | with_reducible first | assumption | apply State.wr_fr
    | exact MaskLe.trans (by decide +kernel) hM
    | dsimp -zeta only
def fm_ackEvents : Nat := 2 ^ 13 ||| 2 ^ 400 ||| fm_setErr
theorem State.ackEvents_fr {M s0} (s : State) (pg v : Nat) (hM : MaskLe fm_ackEvents M) (hs : Fr M s0 s) : Fr M s0 (State.ackEvents s pg v) := by
  unfold State.ackEvents
  repeat' first
    | (intro x)
    | with_reducible first | assumption | apply State.setErr_fr | apply fr_ite
    | (extract_lets +onlyGivenNames x; refine fr_cut x ?_ ?_; (on_goal 2 => dsimp only [x]); (on_goal 1 => clear_value x; intro hx))
    | (extract_lets +onlyGivenNames x; fail_if_success (have : State := x); clear_value x)
    | exact MaskLe.trans (by decide +kernel) hM
    | (with_reducible refine fr_mk_events (MaskLe.trans (by decide +kernel) hM) ?_; first | with_reducible assumption | with_reducible apply State.setErr_fr)
    | with_reducible apply fr_pair
    | split
    | dsimp -zeta only
def fm_forceEvents : Nat := fm_ev
theorem State.forceEvents_fr {M s0} (s : State) (pg v : Nat) (hM : MaskLe fm_forceEvents M) (hs : Fr M s0 s) : Fr M s0 (State.forceEvents s pg v) := by
  unfold State.forceEvents
  repeat' first
    | (intro x)
    | with_reducible first | assumption | apply State.ev_fr | apply fr_each
    | exact MaskLe.trans (by decide +kernel) hM
    | with_reducible apply fr_pair
    | dsimp -zeta only
def fm_writeOwner : Nat := fm_setErr ||| fm_givePage
theorem State.writeOwner_fr {M s0} (s : State) (w : Who) (pg v : Nat) (hM : MaskLe fm_writeOwner M) (hs : Fr M s0 s) : Fr M s0 (State.writeOwner s w pg v) := by
  unfold State.writeOwner
  repeat' first
    | with_reducible first | assumption | apply State.setErr_fr | apply State.givePage_fr | apply fr_ite
    | exact MaskLe.trans (by decide +kernel) hM
    | split
    | dsimp -zeta only
def fm_ctrlChange : Nat := fm_laneRunChange ||| fm_otuRunChange ||| fm_refreshBlock ||| fm_fylRunChange ||| fm_sdpRunChange
theorem State.ctrlChange_fr {M s0} (s : State) (pg : Nat) (runChanged run : Bool) (hM : MaskLe fm_ctrlChange M) (hs : Fr M s0 s) : Fr M s0 (State.ctrlChange s pg runChanged run) := by
  unfold State.ctrlChange
  repeat' first
    | with_reducible first | assumption | apply State.laneRunChange_fr | apply State.otuRunChange_fr | apply State.refreshBlock_fr | apply State.fylRunChange_fr | apply State.sdpRunChange_fr | apply fr_ite
    | (extract_lets +onlyGivenNames x; refine fr_cut x ?_ ?_; (on_goal 2 => dsimp only [x]); (on_goal 1 => clear_value x; intro hx))
    | (extract_lets +onlyGivenNames x; fail_if_success (have : State := x); clear_value x)
    | exact MaskLe.trans (by decide +kernel) hM
    | with_reducible apply fr_pair
    | split
    | dsimp -zeta only
def fm_writeCtrl : Nat := mFld PAGE_CTRL_force_safe ||| mFld PAGE_CTRL_run ||| fm_ctrlChange
theorem State.writeCtrl_fr {M s0} (s : State) (pg v : Nat) (hM : MaskLe fm_writeCtrl M) (hs : Fr M s0 s) : Fr M s0 (State.writeCtrl s pg v) := by
  unfold State.writeCtrl
  repeat' first
    | with_reducible first | assumption | apply State.wrb_fr | apply State.ctrlChange_fr | apply fr_ite
    | (extract_lets +onlyGivenNames x; refine fr_cut x ?_ ?_; (on_goal 2 => dsimp only [x]); (on_goal 1 => clear_value x; intro hx))
    | (extract_lets +onlyGivenNames x; fail_if_success (have : State := x); clear_value x)
    | exact MaskLe.trans (by decide +kernel) hM
    | split
    | dsimp -zeta only
def fm_readLo : Nat := fm_latchHi
theorem State.readLo_fr {M s0} (s : State) (rq pg off : Nat) (hM : MaskLe fm_readLo M) (hs : Fr M s0 s) : Fr M s0 (State.readLo s rq pg off).2 := by
  unfold State.readLo
  repeat' first
    | with_reducible first | assumption | apply State.latchHi_fr
    | exact MaskLe.trans (by decide +kernel) hM
    | dsimp -zeta only
def fm_holdLo : Nat := mAll_shadowF
theorem State.holdLo_fr {M s0} (s : State) (rq off v : Nat) (hM : MaskLe fm_holdLo M) (hs : Fr M s0 s) : Fr M s0 (State.holdLo s rq off v) := by
  unfold State.holdLo
  repeat' first
    | with_reducible first | assumption | apply State.wr_fr
    | exact MaskLe.trans (by decide +kernel) hM
    | (with_reducible refine MaskLe.trans (shadowF_mem _) ?_; exact MaskLe.trans (by decide +kernel) hM)
    | dsimp -zeta only
def fm_putPair : Nat := mAll_shadowF ||| allRegs
theorem State.putPair_fr {M s0} (s : State) (rq pg off v : Nat) (hM : MaskLe fm_putPair M) (hs : Fr M s0 s) : Fr M s0 (State.putPair s rq pg off v) := by
  unfold State.putPair
  repeat' first
    | (intro x)
    | with_reducible first | assumption | apply State.wr_fr | apply fr_ite | apply fr_each
    | (extract_lets +onlyGivenNames x; refine fr_cut x ?_ ?_; (on_goal 2 => dsimp only [x]); (on_goal 1 => clear_value x; intro hx))
    | (extract_lets +onlyGivenNames x; fail_if_success (have : State := x); clear_value x)
    | exact MaskLe.trans (by decide +kernel) hM
    | exact mFld_coarse (MaskLe.trans (by decide +kernel) hM) _
    | (with_reducible refine MaskLe.trans (shadowF_mem _) ?_; exact MaskLe.trans (by decide +kernel) hM)
    | with_reducible apply fr_pair
    | split
    | dsimp -zeta only
def fm_rowOwnerErr : Nat := mFld BOX_PX_STATUS_row_owner
theorem State.rowOwnerErr_fr {M s0} (s : State) (w : Who) (hM : MaskLe fm_rowOwnerErr M) (hs : Fr M s0 s) : Fr M s0 (State.rowOwnerErr s w) := by
  unfold State.rowOwnerErr
  repeat' first
    | with_reducible first | assumption | apply State.wrb_fr
    | exact MaskLe.trans (by decide +kernel) hM
    | dsimp -zeta only
def fm_putData : Nat := mAll_IND_DATA_data
theorem State.putData_fr {M s0} (s : State) (rq x : Nat) (hM : MaskLe fm_putData M) (hs : Fr M s0 s) : Fr M s0 (State.putData s rq x) := by
  unfold State.putData
  repeat' first
    | (intro x)
    | with_reducible first | assumption | apply State.wr_fr | apply fr_each
    | exact MaskLe.trans (by decide +kernel) hM
    | (with_reducible refine MaskLe.trans (IND_DATA_data_mem _) ?_; exact MaskLe.trans (by decide +kernel) hM)
    | with_reducible apply fr_pair
    | dsimp -zeta only
def fm_indFetch : Nat := allTabs ||| fm_setErr ||| fm_putData ||| fm_rowOwnerErr ||| fm_voteEntry
theorem State.indFetch_fr {M s0} (s : State) (w : Who) (pg : Nat) (hM : MaskLe fm_indFetch M) (hs : Fr M s0 s) : Fr M s0 (State.indFetch s w pg) := by
  unfold State.indFetch
  repeat' first
    | with_reducible first | assumption | apply State.setErr_fr | apply State.putData_fr | apply State.rowOwnerErr_fr | apply State.voteEntry_fr | apply fr_ite
    | (extract_lets +onlyGivenNames x; refine fr_cut x ?_ ?_; (on_goal 2 => dsimp only [x]); (on_goal 1 => clear_value x; intro hx))
    | (extract_lets +onlyGivenNames x; fail_if_success (have : State := x); clear_value x)
    | exact MaskLe.trans (by decide +kernel) hM
    | exact mTab_coarse (MaskLe.trans (by decide +kernel) hM) _
    | with_reducible apply fr_pair
    | split
    | dsimp -zeta only
def fm_indAddr : Nat := mFld IND_ADDR_index ||| mFld IND_ADDR_table ||| fm_indFetch
theorem State.indAddr_fr {M s0} (s : State) (w : Who) (pg v : Nat) (hM : MaskLe fm_indAddr M) (hs : Fr M s0 s) : Fr M s0 (State.indAddr s w pg v) := by
  unfold State.indAddr
  repeat' first
    | with_reducible first | assumption | apply State.indFetch_fr | apply State.wr_fr
    | (extract_lets +onlyGivenNames x; refine fr_cut x ?_ ?_; (on_goal 2 => dsimp only [x]); (on_goal 1 => clear_value x; intro hx))
    | (extract_lets +onlyGivenNames x; fail_if_success (have : State := x); clear_value x)
    | exact MaskLe.trans (by decide +kernel) hM
    | dsimp -zeta only
def fm_indStep : Nat := mFld IND_ADDR_index
theorem State.indStep_fr {M s0} (s : State) (rq : Nat) (hM : MaskLe fm_indStep M) (hs : Fr M s0 s) : Fr M s0 (State.indStep s rq) := by
  unfold State.indStep
  repeat' first
    | with_reducible first | assumption | apply State.wr_fr | apply fr_ite
    | exact MaskLe.trans (by decide +kernel) hM
    | split
    | dsimp -zeta only
def fm_writeSingle : Nat := fm_giveObj ||| fm_keepWas ||| fm_digTouch
theorem State.writeSingle_fr {M s0} (s : State) (w : Who) (pg : Nat) (t : Tab) (row x : Nat) (hM : MaskLe fm_writeSingle M) (ht_t : MaskLe (mTab t) M) (hs : Fr M s0 s) : Fr M s0 (State.writeSingle s w pg t row x) := by
  unfold State.writeSingle
  repeat' first
    | (intro x)
    | with_reducible first | assumption | apply State.giveObj_fr | apply State.keepWas_fr | apply State.setEntry_fr | apply State.digTouch_fr | apply fr_ite | apply fr_when
    | (extract_lets +onlyGivenNames x; refine fr_cut x ?_ ?_; (on_goal 2 => dsimp only [x]); (on_goal 1 => clear_value x; intro hx))
    | (extract_lets +onlyGivenNames x; fail_if_success (have : State := x); clear_value x)
    | exact MaskLe.trans (by decide +kernel) hM
    | with_reducible apply fr_pair
    | split
    | dsimp -zeta only
def fm_writeStaged : Nat := 2 ^ 12 ||| fm_setErr ||| fm_setStaged
theorem State.writeStaged_fr {M s0} (s : State) (w : Who) (pg : Nat) (t : Tab) (row x : Nat) (hM : MaskLe fm_writeStaged M) (ht_t : MaskLe (mTab t) M) (hs : Fr M s0 s) : Fr M s0 (State.writeStaged s w pg t row x) := by
  unfold State.writeStaged
  repeat' first
    | with_reducible first | assumption | apply State.setErr_fr | apply State.setStaged_fr | apply fr_ite
    | (extract_lets +onlyGivenNames x; refine fr_cut x ?_ ?_; (on_goal 2 => dsimp only [x]); (on_goal 1 => clear_value x; intro hx))
    | (extract_lets +onlyGivenNames x; fail_if_success (have : State := x); clear_value x)
    | exact MaskLe.trans (by decide +kernel) hM
    | (with_reducible refine fr_mk_dirty (MaskLe.trans (by decide +kernel) hM) ?_; first | with_reducible assumption | with_reducible apply State.setErr_fr | with_reducible apply State.setStaged_fr)
    | split
    | dsimp -zeta only
def fm_indStore : Nat := mFld (IND_DATA_data 3) ||| allTabs ||| fm_setErr ||| fm_rowOwnerErr ||| fm_writeStaged ||| fm_writeSingle ||| fm_indStep
theorem State.indStore_fr {M s0} (s : State) (w : Who) (pg v : Nat) (hM : MaskLe fm_indStore M) (hs : Fr M s0 s) : Fr M s0 (State.indStore s w pg v) := by
  unfold State.indStore
  repeat' first
    | (intro x)
    | with_reducible first | assumption | apply State.wr_fr | apply State.setErr_fr | apply State.rowOwnerErr_fr | apply State.writeStaged_fr | apply State.writeSingle_fr | apply State.indStep_fr | apply fr_ite | apply fr_foldl | apply fr_foldl2 | apply fr_foldl1
    | (extract_lets +onlyGivenNames x; refine fr_cut x ?_ ?_; (on_goal 2 => dsimp only [x]); (on_goal 1 => clear_value x; intro hx))
    | (extract_lets +onlyGivenNames x; fail_if_success (have : State := x); clear_value x)
    | exact MaskLe.trans (by decide +kernel) hM
    | exact mTab_coarse (MaskLe.trans (by decide +kernel) hM) _
    | with_reducible apply fr_pair
    | split
    | dsimp -zeta only
def fm_indRead : Nat := fm_indFetch ||| fm_indStep
theorem State.indRead_fr {M s0} (s : State) (w : Who) (pg : Nat) (hM : MaskLe fm_indRead M) (hs : Fr M s0 s) : Fr M s0 (State.indRead s w pg).2 := by
  unfold State.indRead
  repeat' first
    | with_reducible first | assumption | apply State.indFetch_fr | apply State.indStep_fr | apply fr2_ite
    | (extract_lets +onlyGivenNames x; refine fr_cut x ?_ ?_; (on_goal 2 => dsimp only [x]); (on_goal 1 => clear_value x; intro hx))
    | (extract_lets +onlyGivenNames x; fail_if_success (have : State := x); clear_value x)
    | exact MaskLe.trans (by decide +kernel) hM
    | split
    | dsimp -zeta only
def fm_readReg : Nat := fm_voteAt ||| fm_readEvents ||| fm_indRead ||| fm_ohqRead ||| fm_takeNotice ||| fm_latchHi ||| fm_trackRead ||| fm_boxNote ||| fm_sdpRxDesc ||| fm_sdpRxData ||| fm_halfRead ||| fm_cbbRxDesc ||| fm_cbbRxData ||| fm_nowRead ||| fm_tsRead ||| fm_readLo
theorem State.readReg_fr {M s0} (s : State) (w : Who) (pg off : Nat) (hM : MaskLe fm_readReg M) (hs : Fr M s0 s) : Fr M s0 (State.readReg s w pg off).2 := by
  unfold State.readReg
  repeat' first
    | with_reducible first | assumption | apply State.voteAt_fr | apply State.readEvents_fr | apply State.indRead_fr | apply State.ohqRead_fr | apply State.takeNotice_fr | apply State.latchHi_fr | apply State.trackRead_fr | apply State.boxNote_fr | apply State.sdpRxDesc_fr | apply State.sdpRxData_fr | apply State.halfRead_fr | apply State.cbbRxDesc_fr | apply State.cbbRxData_fr | apply State.nowRead_fr | apply State.tsRead_fr | apply State.readLo_fr | apply fr2_ite
    | (extract_lets +onlyGivenNames x; refine fr_cut x ?_ ?_; (on_goal 2 => dsimp only [x]); (on_goal 1 => clear_value x; intro hx))
    | (extract_lets +onlyGivenNames x; fail_if_success (have : State := x); clear_value x)
    | exact MaskLe.trans (by decide +kernel) hM
    | with_reducible apply fr2_pair
    | split
    | dsimp -zeta only
def fm_busRead : Nat := fm_readReg
theorem State.busRead_fr {M s0} (s : State) (w : Who) (pg off be : Nat) (hM : MaskLe fm_busRead M) (hs : Fr M s0 s) : Fr M s0 (State.busRead s w pg off be).2 := by
  unfold State.busRead
  repeat' first
    | with_reducible first | assumption | apply State.readReg_fr | apply fr2_ite
    | exact MaskLe.trans (by decide +kernel) hM
    | split
    | dsimp -zeta only
def fm_fullWrite : Nat := fm_setErr
theorem State.fullWrite_fr {M s0} (s : State) (pg be : Nat) (f : State → State) (hM : MaskLe fm_fullWrite M) (k_f : ∀ s, Fr M s0 s → Fr M s0 (f s)) (hs : Fr M s0 s) : Fr M s0 (State.fullWrite s pg be f) := by
  unfold State.fullWrite
  repeat' first
    | with_reducible first | assumption | apply State.setErr_fr | apply k_f | apply fr_ite
    | exact MaskLe.trans (by decide +kernel) hM
    | split
    | dsimp -zeta only
def fm_cueShow : Nat := mFld BOX_CUE_STATUS_code ||| mFld BOX_CUE_STATUS_state
theorem State.cueShow_fr {M s0} (s : State) (n state code : Nat) (hM : MaskLe fm_cueShow M) (hs : Fr M s0 s) : Fr M s0 (State.cueShow s n state code) := by
  unfold State.cueShow
  repeat' first
    | with_reducible first | assumption | apply State.wr_fr
    | exact MaskLe.trans (by decide +kernel) hM
    | dsimp -zeta only
def fm_cueWhere : Nat := mFld BOX_CUE_INDEX_index ||| mFld BOX_CUE_INDEX_table ||| mFld BOX_CUE_WHERE_instance ||| mFld BOX_CUE_WHERE_block ||| mFld BOX_CUE_WHERE_region ||| mFld BOX_CUE_WHERE_typ
theorem State.cueWhere_fr {M s0} (s : State) (n : Nat) (k : Option Nat) (hM : MaskLe fm_cueWhere M) (hs : Fr M s0 s) : Fr M s0 (State.cueWhere s n k) := by
  unfold State.cueWhere
  repeat' first
    | (intro x)
    | with_reducible first | assumption | apply State.wr_fr
    | (extract_lets +onlyGivenNames x; refine fr_cut x ?_ ?_; (on_goal 2 => dsimp only [x]); (on_goal 1 => clear_value x; intro hx))
    | (extract_lets +onlyGivenNames x; fail_if_success (have : State := x); clear_value x)
    | exact MaskLe.trans (by decide +kernel) hM
    | with_reducible apply fr_pair
    | dsimp -zeta only
def fm_cueRefuse : Nat := 2 ^ 112 ||| fm_cueShow ||| fm_ev ||| fm_cueWhere
theorem State.cueRefuse_fr {M s0} (s : State) (n code : Nat) (k : Option Nat) (hM : MaskLe fm_cueRefuse M) (hs : Fr M s0 s) : Fr M s0 (State.cueRefuse s n code k) := by
  unfold State.cueRefuse
  repeat' first
    | with_reducible first | assumption | apply State.cueShow_fr | apply State.ev_fr | apply State.cueWhere_fr
    | (extract_lets +onlyGivenNames x; refine fr_cut x ?_ ?_; (on_goal 2 => dsimp only [x]); (on_goal 1 => clear_value x; intro hx))
    | (extract_lets +onlyGivenNames x; fail_if_success (have : State := x); clear_value x)
    | exact MaskLe.trans (by decide +kernel) hM
    | (with_reducible refine fr_mk_cues (MaskLe.trans (by decide +kernel) hM) ?_; first | with_reducible assumption | with_reducible apply State.cueShow_fr | with_reducible apply State.ev_fr | with_reducible apply State.cueWhere_fr)
    | dsimp -zeta only
def fm_cueJudge : Nat := fm_cueRefuse
theorem State.cueJudge_fr {M s0} (s : State) (n : Nat) (x : Option (Nat × Option Nat)) (hM : MaskLe fm_cueJudge M) (hs : Fr M s0 s) : Fr M s0 (State.cueJudge s n x) := by
  unfold State.cueJudge
  repeat' first
    | with_reducible first | assumption | apply State.cueRefuse_fr
    | exact MaskLe.trans (by decide +kernel) hM
    | with_reducible apply fr_pair
    | split
    | dsimp -zeta only
def fm_cueGo : Nat := 2 ^ 112 ||| 2 ^ 113 ||| fm_setErr ||| fm_cueWhere ||| fm_cueShow ||| fm_cueRefuse ||| fm_cueJudge
theorem State.cueGo_fr {M s0} (s : State) (w : Who) (n : Nat) (bad : List (Nat × Nat × Nat)) (hM : MaskLe fm_cueGo M) (hs : Fr M s0 s) : Fr M s0 (State.cueGo s w n bad) := by
  unfold State.cueGo
  repeat' first
    | (intro x)
    | with_reducible first | assumption | apply State.setErr_fr | apply State.cueWhere_fr | apply State.cueShow_fr | apply State.cueRefuse_fr | apply State.cueJudge_fr | apply fr_ite
    | (extract_lets +onlyGivenNames x; refine fr_cut x ?_ ?_; (on_goal 2 => dsimp only [x]); (on_goal 1 => clear_value x; intro hx))
    | (extract_lets +onlyGivenNames x; fail_if_success (have : State := x); clear_value x)
    | exact MaskLe.trans (by decide +kernel) hM
    | (with_reducible refine fr_mk_cues_cueTurn (MaskLe.trans (by decide +kernel) hM) ?_; first | with_reducible assumption | with_reducible apply State.setErr_fr | with_reducible apply State.cueWhere_fr | with_reducible apply State.cueShow_fr | with_reducible apply State.cueRefuse_fr | with_reducible apply State.cueJudge_fr)
    | with_reducible apply fr_pair
    | split
    | dsimp -zeta only
def fm_cueRevert : Nat := allTabs ||| 2 ^ 12 ||| fm_setErr ||| fm_setStaged
theorem State.cueRevert_fr {M s0} (s : State) (w : Who) (n : Nat) (hM : MaskLe fm_cueRevert M) (hs : Fr M s0 s) : Fr M s0 (State.cueRevert s w n) := by
  unfold State.cueRevert
  repeat' first
    | (intro x)
    | with_reducible first | assumption | apply State.setErr_fr | apply State.setStaged_fr | apply fr_ite | apply fr_each
    | (extract_lets +onlyGivenNames x; refine fr_cut x ?_ ?_; (on_goal 2 => dsimp only [x]); (on_goal 1 => clear_value x; intro hx))
    | (extract_lets +onlyGivenNames x; fail_if_success (have : State := x); clear_value x)
    | exact MaskLe.trans (by decide +kernel) hM
    | exact mTab_coarse (MaskLe.trans (by decide +kernel) hM) _
    | (with_reducible refine fr_mk_dirty (MaskLe.trans (by decide +kernel) hM) ?_; first | with_reducible assumption | with_reducible apply State.setErr_fr | with_reducible apply State.setStaged_fr)
    | with_reducible apply fr_pair
    | split
    | dsimp -zeta only
def fm_cueImageCrc : Nat := 2 ^ 112 ||| fm_chkBegin ||| fm_chkFeed ||| fm_chkEnd ||| fm_cueJudge ||| fm_cueRefuse
theorem State.cueImageCrc_fr {M s0} (s : State) (n : Nat) (hM : MaskLe fm_cueImageCrc M) (hs : Fr M s0 s) : Fr M s0 (State.cueImageCrc s n) := by
  unfold State.cueImageCrc
  repeat' first
    | (intro x)
    | with_reducible first | assumption | apply State.chkBegin_fr | apply State.chkFeed_fr | apply State.chkEnd_fr | apply State.cueJudge_fr | apply State.cueRefuse_fr | apply fr_ite | apply fr_each
    | (extract_lets +onlyGivenNames x; refine fr_cut x ?_ ?_; (on_goal 2 => dsimp only [x]); (on_goal 1 => clear_value x; intro hx))
    | (extract_lets +onlyGivenNames x; fail_if_success (have : State := x); clear_value x)
    | exact MaskLe.trans (by decide +kernel) hM
    | (with_reducible refine fr_mk_cues (MaskLe.trans (by decide +kernel) hM) ?_; first | with_reducible assumption | with_reducible apply State.chkBegin_fr | with_reducible apply State.chkFeed_fr | with_reducible apply State.chkEnd_fr | with_reducible apply State.cueJudge_fr | with_reducible apply State.cueRefuse_fr)
    | with_reducible apply fr_pair
    | split
    | dsimp -zeta only
def fm_showPlace : Nat := fm_showRegion ||| fm_showBlock ||| fm_showHbm
theorem State.showPlace_fr {M s0} (s : State) (j : Nat) (hM : MaskLe fm_showPlace M) (hs : Fr M s0 s) : Fr M s0 (State.showPlace s j) := by
  unfold State.showPlace
  repeat' first
    | with_reducible first | assumption | apply State.showRegion_fr | apply State.showBlock_fr | apply State.showHbm_fr | apply fr_ite
    | exact MaskLe.trans (by decide +kernel) hM
    | split
    | dsimp -zeta only
def fm_cueAccept : Nat := allTabs ||| 2 ^ 12 ||| 2 ^ 14 ||| 2 ^ 112 ||| mFld BOX_CUE_GEN_gen ||| fm_cueShow ||| fm_showPlace ||| fm_digTouch ||| fm_cueFinish
theorem State.cueAccept_fr {M s0} (s : State) (n : Nat) (hM : MaskLe fm_cueAccept M) (hs : Fr M s0 s) : Fr M s0 (State.cueAccept s n) := by
  unfold State.cueAccept
  repeat' first
    | (intro x)
    | with_reducible first | assumption | apply State.cueShow_fr | apply State.wr_fr | apply State.showPlace_fr | apply State.digTouch_fr | apply State.cueFinish_fr | apply fr_ite | apply fr_each | apply fr_foldl | apply fr_foldl2 | apply fr_foldl1
    | (extract_lets +onlyGivenNames x; refine fr_cut x ?_ ?_; (on_goal 2 => dsimp only [x]); (on_goal 1 => clear_value x; intro hx))
    | (extract_lets +onlyGivenNames x; fail_if_success (have : State := x); clear_value x)
    | exact MaskLe.trans (by decide +kernel) hM
    | exact mTab_coarse (MaskLe.trans (by decide +kernel) hM) _
    | (with_reducible refine fr_mk_tabs_dirty_devGen_cues (MaskLe.trans (by decide +kernel) hM) ?_; first | with_reducible assumption | with_reducible apply State.cueShow_fr | with_reducible apply State.wr_fr | with_reducible apply State.showPlace_fr | with_reducible apply State.digTouch_fr | with_reducible apply State.cueFinish_fr)
    | with_reducible apply fr_pair
    | split
    | dsimp -zeta only
def fm_cueCheckEnd : Nat := 2 ^ 112 ||| fm_cueRefuse ||| fm_ev ||| fm_cueShow ||| fm_cueAccept
theorem State.cueCheckEnd_fr {M s0} (s : State) (n : Nat) (hM : MaskLe fm_cueCheckEnd M) (hs : Fr M s0 s) : Fr M s0 (State.cueCheckEnd s n) := by
  unfold State.cueCheckEnd
  repeat' first
    | with_reducible first | assumption | apply State.cueRefuse_fr | apply State.ev_fr | apply State.cueShow_fr | apply State.cueAccept_fr | apply fr_ite
    | (extract_lets +onlyGivenNames x; refine fr_cut x ?_ ?_; (on_goal 2 => dsimp only [x]); (on_goal 1 => clear_value x; intro hx))
    | (extract_lets +onlyGivenNames x; fail_if_success (have : State := x); clear_value x)
    | exact MaskLe.trans (by decide +kernel) hM
    | (with_reducible refine fr_mk_cues (MaskLe.trans (by decide +kernel) hM) ?_; first | with_reducible assumption | with_reducible apply State.cueRefuse_fr | with_reducible apply State.ev_fr | with_reducible apply State.cueShow_fr | with_reducible apply State.cueAccept_fr)
    | with_reducible apply fr_pair
    | split
    | dsimp -zeta only
def fm_rowLive : Nat := 2 ^ 31
theorem State.rowLive_fr {M s0} (s : State) (k : Nat) (hM : MaskLe fm_rowLive M) (hs : Fr M s0 s) : Fr M s0 (State.rowLive s k) := by
  unfold State.rowLive
  repeat' first
    | with_reducible first | assumption
    | (extract_lets +onlyGivenNames x; refine fr_cut x ?_ ?_; (on_goal 2 => dsimp only [x]); (on_goal 1 => clear_value x; intro hx))
    | (extract_lets +onlyGivenNames x; fail_if_success (have : State := x); clear_value x)
    | exact MaskLe.trans (by decide +kernel) hM
    | (with_reducible refine fr_mk_live (MaskLe.trans (by decide +kernel) hM) ?_; first | with_reducible assumption)
    | with_reducible apply fr_pair
    | split
    | dsimp -zeta only
def fm_ctxLeave : Nat := fm_cliClose ||| fm_stampUnlock ||| fm_ctxClose ||| fm_ctxStop
theorem State.ctxLeave_fr {M s0} (s : State) (B d e : Nat) (hM : MaskLe fm_ctxLeave M) (hs : Fr M s0 s) : Fr M s0 (State.ctxLeave s B d e) := by
  unfold State.ctxLeave
  repeat' first
    | (intro x)
    | with_reducible first | assumption | apply State.cliClose_fr | apply State.stampUnlock_fr | apply State.ctxClose_fr | apply State.ctxStop_fr | apply fr_ite | apply fr_when
    | (extract_lets +onlyGivenNames x; refine fr_cut x ?_ ?_; (on_goal 2 => dsimp only [x]); (on_goal 1 => clear_value x; intro hx))
    | (extract_lets +onlyGivenNames x; fail_if_success (have : State := x); clear_value x)
    | exact MaskLe.trans (by decide +kernel) hM
    | with_reducible apply fr_pair
    | split
    | dsimp -zeta only
def fm_ctxEnter : Nat := fm_ctxStart ||| fm_ev ||| fm_cliStart
theorem State.ctxEnter_fr {M s0} (s : State) (gen B d e : Nat) (own : Bool) (hM : MaskLe fm_ctxEnter M) (hs : Fr M s0 s) : Fr M s0 (State.ctxEnter s gen B d e own) := by
  unfold State.ctxEnter
  repeat' first
    | (intro x)
    | with_reducible first | assumption | apply State.ctxStart_fr | apply State.ev_fr | apply State.cliStart_fr | apply fr_when
    | (extract_lets +onlyGivenNames x; refine fr_cut x ?_ ?_; (on_goal 2 => dsimp only [x]); (on_goal 1 => clear_value x; intro hx))
    | (extract_lets +onlyGivenNames x; fail_if_success (have : State := x); clear_value x)
    | exact MaskLe.trans (by decide +kernel) hM
    | with_reducible apply fr_pair
    | dsimp -zeta only
def fm_shpLeave : Nat := fm_epiBoundary ||| fm_pointDef
theorem State.shpLeave_fr {M s0} (s : State) (B q : Nat) (hM : MaskLe fm_shpLeave M) (hs : Fr M s0 s) : Fr M s0 (State.shpLeave s B q) := by
  unfold State.shpLeave
  repeat' first
    | (intro x)
    | with_reducible first | assumption | apply State.epiBoundary_fr | apply State.pointDef_fr | apply fr_each
    | (extract_lets +onlyGivenNames x; refine fr_cut x ?_ ?_; (on_goal 2 => dsimp only [x]); (on_goal 1 => clear_value x; intro hx))
    | (extract_lets +onlyGivenNames x; fail_if_success (have : State := x); clear_value x)
    | exact MaskLe.trans (by decide +kernel) hM
    | with_reducible apply fr_pair
    | split
    | dsimp -zeta only
def fm_shpEnter : Nat := fm_pointStart ||| fm_pointStop
theorem State.shpEnter_fr {M s0} (s : State) (gen B q : Nat) (hM : MaskLe fm_shpEnter M) (hs : Fr M s0 s) : Fr M s0 (State.shpEnter s gen B q) := by
  unfold State.shpEnter
  repeat' first
    | with_reducible first | assumption | apply State.pointStart_fr | apply State.pointStop_fr | apply fr_ite
    | exact MaskLe.trans (by decide +kernel) hM
    | split
    | dsimp -zeta only
def fm_pointMarked : Nat := fm_setPoint
theorem State.pointMarked_fr {M s0} (s : State) (m gen : Nat) (hM : MaskLe fm_pointMarked M) (hs : Fr M s0 s) : Fr M s0 (State.pointMarked s m gen) := by
  unfold State.pointMarked
  repeat' first
    | (intro x)
    | with_reducible first | assumption | apply State.setPoint_fr
    | exact MaskLe.trans (by decide +kernel) hM
    | with_reducible apply fr_pair
    | split
    | dsimp -zeta only
def fm_shpRows : Nat := fm_evalPointTim ||| fm_pointMarked
theorem State.shpRows_fr {M s0} (s : State) (gen B q : Nat) (hM : MaskLe fm_shpRows M) (hs : Fr M s0 s) : Fr M s0 (State.shpRows s gen B q) := by
  unfold State.shpRows
  repeat' first
    | with_reducible first | assumption | apply State.evalPointTim_fr | apply State.pointMarked_fr
    | exact MaskLe.trans (by decide +kernel) hM
    | with_reducible apply fr_pair
    | split
    | dsimp -zeta only
def fm_esgChange : Nat := fm_grpStart ||| fm_sfpForget ||| fm_wgStart ||| fm_grpKeep
theorem State.esgChange_fr {M s0} (s : State) (r i old new : Nat) (hM : MaskLe fm_esgChange M) (hs : Fr M s0 s) : Fr M s0 (State.esgChange s r i old new) := by
  unfold State.esgChange
  repeat' first
    | (intro x)
    | with_reducible first | assumption | apply State.grpStart_fr | apply State.sfpForget_fr | apply State.wgStart_fr | apply State.grpKeep_fr | apply fr_ite | apply fr_each
    | (extract_lets +onlyGivenNames x; refine fr_cut x ?_ ?_; (on_goal 2 => dsimp only [x]); (on_goal 1 => clear_value x; intro hx))
    | (extract_lets +onlyGivenNames x; fail_if_success (have : State := x); clear_value x)
    | exact MaskLe.trans (by decide +kernel) hM
    | split
    | dsimp -zeta only
def fm_isgChange : Nat := fm_grpStart ||| fm_sfpForget ||| fm_grpKeep
theorem State.isgChange_fr {M s0} (s : State) (r i old new : Nat) (hM : MaskLe fm_isgChange M) (hs : Fr M s0 s) : Fr M s0 (State.isgChange s r i old new) := by
  unfold State.isgChange
  repeat' first
    | with_reducible first | assumption | apply State.grpStart_fr | apply State.sfpForget_fr | apply State.grpKeep_fr | apply fr_ite
    | (extract_lets +onlyGivenNames x; refine fr_cut x ?_ ?_; (on_goal 2 => dsimp only [x]); (on_goal 1 => clear_value x; intro hx))
    | (extract_lets +onlyGivenNames x; fail_if_success (have : State := x); clear_value x)
    | exact MaskLe.trans (by decide +kernel) hM
    | split
    | dsimp -zeta only
def fm_brgChange : Nat := 2 ^ 53 ||| fm_brgStart
theorem State.brgChange_fr {M s0} (s : State) (r i old new : Nat) (hM : MaskLe fm_brgChange M) (hs : Fr M s0 s) : Fr M s0 (State.brgChange s r i old new) := by
  unfold State.brgChange
  repeat' first
    | with_reducible first | assumption | apply State.brgStart_fr | apply fr_ite
    | (extract_lets +onlyGivenNames x; refine fr_cut x ?_ ?_; (on_goal 2 => dsimp only [x]); (on_goal 1 => clear_value x; intro hx))
    | (extract_lets +onlyGivenNames x; fail_if_success (have : State := x); clear_value x)
    | exact MaskLe.trans (by decide +kernel) hM
    | (with_reducible refine fr_mk_brgStamp (MaskLe.trans (by decide +kernel) hM) ?_; first | with_reducible assumption | with_reducible apply State.brgStart_fr)
    | split
    | dsimp -zeta only
def fm_wgrpChange : Nat := fm_wgStart
theorem State.wgrpChange_fr {M s0} (s : State) (w old new : Nat) (hM : MaskLe fm_wgrpChange M) (hs : Fr M s0 s) : Fr M s0 (State.wgrpChange s w old new) := by
  unfold State.wgrpChange
  repeat' first
    | with_reducible first | assumption | apply State.wgStart_fr | apply fr_ite
    | exact MaskLe.trans (by decide +kernel) hM
    | split
    | dsimp -zeta only
def fm_linkChange : Nat := fm_applyFylTest ||| fm_showFyt ||| fm_roleChange
theorem State.linkChange_fr {M s0} (s : State) (m old : Nat) (hM : MaskLe fm_linkChange M) (hs : Fr M s0 s) : Fr M s0 (State.linkChange s m old) := by
  unfold State.linkChange
  repeat' first
    | with_reducible first | assumption | apply State.applyFylTest_fr | apply State.showFyt_fr | apply State.roleChange_fr
    | exact MaskLe.trans (by decide +kernel) hM
    | dsimp -zeta only
def fm_rowTaken : Nat := fm_laneCfgChange ||| fm_otuIfChange ||| fm_evalTim ||| fm_pointMarked ||| fm_cliStart ||| fm_shpRows ||| fm_brgChange ||| fm_esgChange ||| fm_isgChange ||| fm_linkChange ||| fm_txStart ||| fm_rxStart ||| fm_chAdopt ||| fm_apsStart ||| fm_wgrpChange
theorem State.rowTaken_fr {M s0} (s : State) (gen k old : Nat) (hM : MaskLe fm_rowTaken M) (hs : Fr M s0 s) : Fr M s0 (State.rowTaken s gen k old) := by
  unfold State.rowTaken
  repeat' first
    | (intro x)
    | with_reducible first | assumption | apply State.laneCfgChange_fr | apply State.otuIfChange_fr | apply State.evalTim_fr | apply State.pointMarked_fr | apply State.cliStart_fr | apply State.shpRows_fr | apply State.brgChange_fr | apply State.esgChange_fr | apply State.isgChange_fr | apply State.linkChange_fr | apply State.txStart_fr | apply State.rxStart_fr | apply State.chAdopt_fr | apply State.apsStart_fr | apply State.wgrpChange_fr | apply fr_ite | apply fr_when
    | (extract_lets +onlyGivenNames x; refine fr_cut x ?_ ?_; (on_goal 2 => dsimp only [x]); (on_goal 1 => clear_value x; intro hx))
    | (extract_lets +onlyGivenNames x; fail_if_success (have : State := x); clear_value x)
    | exact MaskLe.trans (by decide +kernel) hM
    | with_reducible apply fr_pair
    | split
    | dsimp -zeta only
def fm_rowGen : Nat := fm_setPoint
theorem State.rowGen_fr {M s0} (s : State) (gen k : Nat) (hM : MaskLe fm_rowGen M) (hs : Fr M s0 s) : Fr M s0 (State.rowGen s gen k) := by
  unfold State.rowGen
  extract_lets set s1
  have hset : ∀ s m, Fr M s0 s → Fr M s0 (set s m) := fun s m h => State.setPoint_fr _ _ _ (MaskLe.trans (by decide +kernel) hM) h
  clear_value set
  have h1 : Fr M s0 s1 := by
    refine fr_each hs (fun s x h => fr_ite ?_ h)
    exact fr_each h (fun s y h => hset _ _ h)
  clear_value s1
  split
  · exact fr_ite (hset _ _ hs) hs
  · split
    · exact hset _ _ h1
    · exact h1
def fm_blockDerive : Nat := fm_refreshBlock ||| fm_applyTest ||| fm_refreshEth
theorem State.blockDerive_fr {M s0} (s : State) (B : Nat) (hM : MaskLe fm_blockDerive M) (hs : Fr M s0 s) : Fr M s0 (State.blockDerive s B) := by
  unfold State.blockDerive
  repeat' first
    | (intro x)
    | with_reducible first | assumption | apply State.refreshBlock_fr | apply State.applyTest_fr | apply State.refreshEth_fr | apply fr_each
    | (extract_lets +onlyGivenNames x; refine fr_cut x ?_ ?_; (on_goal 2 => dsimp only [x]); (on_goal 1 => clear_value x; intro hx))
    | (extract_lets +onlyGivenNames x; fail_if_success (have : State := x); clear_value x)
    | exact MaskLe.trans (by decide +kernel) hM
    | with_reducible apply fr_pair
    | dsimp -zeta only
def fm_adoptRows : Nat := fm_ctxLeave ||| fm_shpLeave ||| fm_cliClose ||| fm_rowLive ||| fm_ctxEnter ||| fm_shpEnter ||| fm_rowTaken ||| fm_rowGen ||| fm_blockDerive ||| fm_showMember
theorem State.adoptRows_fr {M s0} (s : State) (gen : Nat) (l : List (Nat × Bool)) (hM : MaskLe fm_adoptRows M) (hs : Fr M s0 s) : Fr M s0 (State.adoptRows s gen l) := by
  unfold State.adoptRows
  repeat' first
    | (intro x)
    | with_reducible first | assumption | apply State.ctxLeave_fr | apply State.shpLeave_fr | apply State.cliClose_fr | apply State.rowLive_fr | apply State.ctxEnter_fr | apply State.shpEnter_fr | apply State.rowTaken_fr | apply State.rowGen_fr | apply State.blockDerive_fr | apply State.showMember_fr | apply fr_each
    | (extract_lets +onlyGivenNames x; refine fr_cut x ?_ ?_; (on_goal 2 => dsimp only [x]); (on_goal 1 => clear_value x; intro hx))
    | (extract_lets +onlyGivenNames x; fail_if_success (have : State := x); clear_value x)
    | exact MaskLe.trans (by decide +kernel) hM
    | with_reducible apply fr_pair
    | split
    | dsimp -zeta only
def fm_placeGen : Nat := mAll_RGN_CUE_GEN_gen ||| mFld RGN_CUE_GEN_COM_gen ||| mFld PRT_CUE_GEN_gen ||| mFld WNG_CUE_GEN_gen
theorem State.placeGen_fr {M s0} (s : State) (j gen : Nat) (hM : MaskLe fm_placeGen M) (hs : Fr M s0 s) : Fr M s0 (State.placeGen s j gen) := by
  unfold State.placeGen
  repeat' first
    | with_reducible first | assumption | apply State.wr_fr | apply fr_ite
    | exact MaskLe.trans (by decide +kernel) hM
    | (with_reducible refine MaskLe.trans (RGN_CUE_GEN_gen_mem _) ?_; exact MaskLe.trans (by decide +kernel) hM)
    | split
    | dsimp -zeta only
def fm_cueRowAdopt : Nat := 2 ^ 112 ||| fm_adoptRows ||| fm_placeGen ||| fm_cueFinish
theorem State.cueRowAdopt_fr {M s0} (s : State) (n : Nat) (x : AdoptRef) (hM : MaskLe fm_cueRowAdopt M) (hs : Fr M s0 s) : Fr M s0 (State.cueRowAdopt s n x) := by
  unfold State.cueRowAdopt
  extract_lets c take gen rest s1 left s2
  refine fr_ite hs ?_
  have h1 : Fr M s0 s1 := State.adoptRows_fr _ _ _ (MaskLe.trans (by decide +kernel) hM) hs
  clear_value s1
  have h2 : Fr M s0 s2 := fr_each h1 (fun s c h => State.placeGen_fr _ _ _ (MaskLe.trans (by decide +kernel) hM) h)
  clear_value s2
  exact fr_ite (State.cueFinish_fr _ _ (MaskLe.trans (by decide +kernel) hM) h2) (fr_mk_cues (MaskLe.trans (by decide +kernel) hM) h2)
def fm_plainWrite : Nat := allRegs
theorem State.plainWrite_fr {M s0} (s : State) (w : Who) (pg off v : Nat) (hM : MaskLe fm_plainWrite M) (hs : Fr M s0 s) : Fr M s0 (State.plainWrite s w pg off v) := by
  unfold State.plainWrite
  repeat' first
    | (intro x)
    | with_reducible first | assumption | apply State.wr_fr | apply fr_ite | apply fr_each
    | exact MaskLe.trans (by decide +kernel) hM
    | exact mFld_coarse (MaskLe.trans (by decide +kernel) hM) _
    | with_reducible apply fr_pair
    | split
    | dsimp -zeta only
def fm_writeCueCtrl : Nat := fm_setErr ||| fm_plainWrite ||| fm_cueRevert ||| fm_cueGo
theorem State.writeCueCtrl_fr {M s0} (s : State) (x : RegWrite) (n v : Nat) (hM : MaskLe fm_writeCueCtrl M) (hs : Fr M s0 s) : Fr M s0 (State.writeCueCtrl s x n v) := by
  unfold State.writeCueCtrl
  repeat' first
    | (intro x)
    | with_reducible first | assumption | apply State.setErr_fr | apply State.plainWrite_fr | apply State.cueRevert_fr | apply State.cueGo_fr | apply fr_ite | apply fr_when
    | (extract_lets +onlyGivenNames x; refine fr_cut x ?_ ?_; (on_goal 2 => dsimp only [x]); (on_goal 1 => clear_value x; intro hx))
    | (extract_lets +onlyGivenNames x; fail_if_success (have : State := x); clear_value x)
    | exact MaskLe.trans (by decide +kernel) hM
    | with_reducible apply fr_pair
    | split
    | dsimp -zeta only
def fm_writeBox : Nat := fm_plainWrite ||| fm_writeCueCtrl ||| fm_setErr ||| fm_pxPageWrite ||| fm_pmCopyGo ||| fm_digTouch ||| fm_keepWin
theorem State.writeBox_fr {M s0} (s : State) (x : RegWrite) (n off v : Nat) (hM : MaskLe fm_writeBox M) (hs : Fr M s0 s) : Fr M s0 (State.writeBox s x n off v) := by
  unfold State.writeBox
  repeat' first
    | with_reducible first | assumption | apply State.plainWrite_fr | apply State.writeCueCtrl_fr | apply State.setErr_fr | apply State.pxPageWrite_fr | apply State.pmCopyGo_fr | apply State.digTouch_fr | apply State.keepWin_fr | apply fr_ite
    | (extract_lets +onlyGivenNames x; refine fr_cut x ?_ ?_; (on_goal 2 => dsimp only [x]); (on_goal 1 => clear_value x; intro hx))
    | (extract_lets +onlyGivenNames x; fail_if_success (have : State := x); clear_value x)
    | exact MaskLe.trans (by decide +kernel) hM
    | split
    | dsimp -zeta only
def fm_writeLine : Nat := fm_plainWrite ||| fm_writeFir1 ||| fm_writeLb ||| fm_writePrbs ||| fm_writeAdaptCfg ||| fm_writeRxEq ||| fm_fecSnap ||| fm_refreshBlock ||| fm_writeTxForce
theorem State.writeLine_fr {M s0} (s : State) (x : RegWrite) (typ : PageType) (c off v : Nat) (hM : MaskLe fm_writeLine M) (hs : Fr M s0 s) : Fr M s0 (State.writeLine s x typ c off v) := by
  unfold State.writeLine
  repeat' first
    | (intro x)
    | with_reducible first | assumption | apply State.plainWrite_fr | apply State.writeFir1_fr | apply State.writeLb_fr | apply State.writePrbs_fr | apply State.writeAdaptCfg_fr | apply State.writeRxEq_fr | apply State.fecSnap_fr | apply State.refreshBlock_fr | apply State.writeTxForce_fr | apply fr_ite | apply fr_when
    | (extract_lets +onlyGivenNames x; refine fr_cut x ?_ ?_; (on_goal 2 => dsimp only [x]); (on_goal 1 => clear_value x; intro hx))
    | (extract_lets +onlyGivenNames x; fail_if_success (have : State := x); clear_value x)
    | exact MaskLe.trans (by decide +kernel) hM
    | with_reducible apply fr_pair
    | split
    | dsimp -zeta only
def fm_writeFyl : Nat := fm_failLink ||| fm_restoreLink ||| fm_writeFyTap ||| fm_writeFylTest ||| fm_plainWrite
theorem State.writeFyl_fr {M s0} (s : State) (x : RegWrite) (m off v : Nat) (hM : MaskLe fm_writeFyl M) (hs : Fr M s0 s) : Fr M s0 (State.writeFyl s x m off v) := by
  unfold State.writeFyl
  repeat' first
    | with_reducible first | assumption | apply State.failLink_fr | apply State.restoreLink_fr | apply State.writeFyTap_fr | apply State.writeFylTest_fr | apply State.plainWrite_fr | apply fr_ite
    | exact MaskLe.trans (by decide +kernel) hM
    | split
    | dsimp -zeta only
def fm_writeOhq : Nat := fm_ohqWrite ||| fm_ohqFlush ||| fm_dropRest ||| fm_ohqStatus ||| fm_plainWrite
theorem State.writeOhq_fr {M s0} (s : State) (x : RegWrite) (r off v : Nat) (hM : MaskLe fm_writeOhq M) (hs : Fr M s0 s) : Fr M s0 (State.writeOhq s x r off v) := by
  unfold State.writeOhq
  repeat' first
    | with_reducible first | assumption | apply State.ohqWrite_fr | apply State.ohqFlush_fr | apply State.dropRest_fr | apply State.ohqStatus_fr | apply State.plainWrite_fr | apply fr_ite
    | (extract_lets +onlyGivenNames x; refine fr_cut x ?_ ?_; (on_goal 2 => dsimp only [x]); (on_goal 1 => clear_value x; intro hx))
    | (extract_lets +onlyGivenNames x; fail_if_success (have : State := x); clear_value x)
    | exact MaskLe.trans (by decide +kernel) hM
    | split
    | dsimp -zeta only
def fm_writeChk : Nat := mFld CHK_CFG_lock ||| fm_chkBy ||| fm_chkBegin ||| fm_chkEnd ||| fm_chkClose ||| fm_chkData ||| fm_plainWrite ||| fm_chkAliveWritten
theorem State.writeChk_fr {M s0} (s : State) (x : RegWrite) (u off v : Nat) (hM : MaskLe fm_writeChk M) (hs : Fr M s0 s) : Fr M s0 (State.writeChk s x u off v) := by
  unfold State.writeChk
  repeat' first
    | (intro x)
    | with_reducible first | assumption | apply State.chkBy_fr | apply State.chkBegin_fr | apply State.chkEnd_fr | apply State.chkClose_fr | apply State.chkData_fr | apply State.plainWrite_fr | apply State.wr_fr | apply State.chkAliveWritten_fr | apply fr_ite | apply fr_when
    | (extract_lets +onlyGivenNames x; refine fr_cut x ?_ ?_; (on_goal 2 => dsimp only [x]); (on_goal 1 => clear_value x; intro hx))
    | (extract_lets +onlyGivenNames x; fail_if_success (have : State := x); clear_value x)
    | exact MaskLe.trans (by decide +kernel) hM
    | with_reducible apply fr_pair
    | split
    | dsimp -zeta only
def fm_writePrtWng : Nat := fm_plainWrite ||| fm_prtCommand ||| fm_ackFail ||| fm_pmsCheck ||| fm_hbmRestore
theorem State.writePrtWng_fr {M s0} (s : State) (x : RegWrite) (typ : PageType) (i off v : Nat) (hM : MaskLe fm_writePrtWng M) (hs : Fr M s0 s) : Fr M s0 (State.writePrtWng s x typ i off v) := by
  unfold State.writePrtWng
  repeat' first
    | (intro x)
    | with_reducible first | assumption | apply State.plainWrite_fr | apply State.prtCommand_fr | apply State.ackFail_fr | apply State.pmsCheck_fr | apply State.hbmRestore_fr | apply fr_ite | apply fr_when
    | (extract_lets +onlyGivenNames x; refine fr_cut x ?_ ?_; (on_goal 2 => dsimp only [x]); (on_goal 1 => clear_value x; intro hx))
    | (extract_lets +onlyGivenNames x; fail_if_success (have : State := x); clear_value x)
    | exact MaskLe.trans (by decide +kernel) hM
    | with_reducible apply fr_pair
    | split
    | dsimp -zeta only
def fm_writeTime : Nat := fm_plainWrite ||| fm_txStart_ ||| fm_txAbort ||| fm_txData ||| fm_ccConfig ||| fm_cbbSend ||| fm_cbbAbort ||| fm_cbbData ||| fm_wakeAck ||| fm_csuProgress ||| fm_rebandCmd ||| fm_timRefresh ||| fm_setSecCmd
theorem State.writeTime_fr {M s0} (s : State) (x : RegWrite) (typ : PageType) (i off v : Nat) (hM : MaskLe fm_writeTime M) (hs : Fr M s0 s) : Fr M s0 (State.writeTime s x typ i off v) := by
  unfold State.writeTime
  repeat' first
    | (intro x)
    | with_reducible first | assumption | apply State.plainWrite_fr | apply State.txStart__fr | apply State.txAbort_fr | apply State.txData_fr | apply State.ccConfig_fr | apply State.cbbSend_fr | apply State.cbbAbort_fr | apply State.cbbData_fr | apply State.wakeAck_fr | apply State.csuProgress_fr | apply State.rebandCmd_fr | apply State.timRefresh_fr | apply State.setSecCmd_fr | apply fr_ite | apply fr_when
    | (extract_lets +onlyGivenNames x; refine fr_cut x ?_ ?_; (on_goal 2 => dsimp only [x]); (on_goal 1 => clear_value x; intro hx))
    | (extract_lets +onlyGivenNames x; fail_if_success (have : State := x); clear_value x)
    | exact MaskLe.trans (by decide +kernel) hM
    | with_reducible apply fr_pair
    | split
    | dsimp -zeta only
def fm_writeFwm : Nat := mAll_FWM_RSP_word ||| fm_plainWrite ||| fm_mbRing ||| fm_writePushCtrl ||| fm_pushData ||| fm_wdogKick
theorem State.writeFwm_fr {M s0} (s : State) (x : RegWrite) (n off v : Nat) (hM : MaskLe fm_writeFwm M) (hs : Fr M s0 s) : Fr M s0 (State.writeFwm s x n off v) := by
  unfold State.writeFwm
  repeat' first
    | (intro x)
    | with_reducible first | assumption | apply State.plainWrite_fr | apply State.mbRing_fr | apply State.wr_fr | apply State.writePushCtrl_fr | apply State.pushData_fr | apply State.wdogKick_fr | apply fr_ite | apply fr_when
    | (extract_lets +onlyGivenNames x; refine fr_cut x ?_ ?_; (on_goal 2 => dsimp only [x]); (on_goal 1 => clear_value x; intro hx))
    | (extract_lets +onlyGivenNames x; fail_if_success (have : State := x); clear_value x)
    | exact MaskLe.trans (by decide +kernel) hM
    | (with_reducible refine MaskLe.trans (FWM_RSP_word_mem _) ?_; exact MaskLe.trans (by decide +kernel) hM)
    | with_reducible apply fr_pair
    | split
    | dsimp -zeta only
def fm_writeChip : Nat := fm_plainWrite ||| fm_dmaGo ||| fm_ownReq ||| fm_digTouch ||| fm_fltAck ||| fm_fltInject ||| fm_mirrorCheck ||| fm_ghostClear ||| fm_plbGo ||| fm_writeModeCmd ||| fm_auditStart
theorem State.writeChip_fr {M s0} (s : State) (x : RegWrite) (typ : PageType) (off v : Nat) (hM : MaskLe fm_writeChip M) (hs : Fr M s0 s) : Fr M s0 (State.writeChip s x typ off v) := by
  unfold State.writeChip
  repeat' first
    | (intro x)
    | with_reducible first | assumption | apply State.plainWrite_fr | apply State.dmaGo_fr | apply State.ownReq_fr | apply State.digTouch_fr | apply State.fltAck_fr | apply State.fltInject_fr | apply State.mirrorCheck_fr | apply State.ghostClear_fr | apply State.plbGo_fr | apply State.writeModeCmd_fr | apply State.auditStart_fr | apply fr_ite | apply fr_when
    | (extract_lets +onlyGivenNames x; refine fr_cut x ?_ ?_; (on_goal 2 => dsimp only [x]); (on_goal 1 => clear_value x; intro hx))
    | (extract_lets +onlyGivenNames x; fail_if_success (have : State := x); clear_value x)
    | exact MaskLe.trans (by decide +kernel) hM
    | with_reducible apply fr_pair
    | split
    | dsimp -zeta only
def fm_writeBody : Nat := fm_writeBox ||| fm_writeLine ||| fm_writeFyl ||| fm_writeOhq ||| fm_writeChk ||| fm_writePrtWng ||| fm_writeTime ||| fm_writeFwm ||| fm_writeChip
theorem State.writeBody_fr {M s0} (s : State) (x : RegWrite) (i : PageInfo) (off v : Nat) (hM : MaskLe fm_writeBody M) (hs : Fr M s0 s) : Fr M s0 (State.writeBody s x i off v) := by
  unfold State.writeBody
  repeat' first
    | with_reducible first | assumption | apply State.writeBox_fr | apply State.writeLine_fr | apply State.writeFyl_fr | apply State.writeOhq_fr | apply State.writeChk_fr | apply State.writePrtWng_fr | apply State.writeTime_fr | apply State.writeFwm_fr | apply State.writeChip_fr
    | (extract_lets +onlyGivenNames x; refine fr_cut x ?_ ?_; (on_goal 2 => dsimp only [x]); (on_goal 1 => clear_value x; intro hx))
    | (extract_lets +onlyGivenNames x; fail_if_success (have : State := x); clear_value x)
    | exact MaskLe.trans (by decide +kernel) hM
    | with_reducible apply fr_pair
    | split
    | dsimp -zeta only
def fm_writeLo : Nat := fm_setErr ||| fm_holdLo ||| fm_chkBy
theorem State.writeLo_fr {M s0} (s : State) (w : Who) (pg off v : Nat) (hM : MaskLe fm_writeLo M) (hs : Fr M s0 s) : Fr M s0 (State.writeLo s w pg off v) := by
  unfold State.writeLo
  repeat' first
    | (intro x)
    | with_reducible first | assumption | apply State.setErr_fr | apply State.holdLo_fr | apply State.chkBy_fr | apply fr_ite
    | exact MaskLe.trans (by decide +kernel) hM
    | with_reducible apply fr_pair
    | split
    | dsimp -zeta only
def fm_writeHi : Nat := fm_putPair ||| fm_setErr ||| fm_chkBy ||| fm_mirrorCheck ||| fm_pmsCheck
theorem State.writeHi_fr {M s0} (s : State) (w : Who) (pg off v : Nat) (hM : MaskLe fm_writeHi M) (hs : Fr M s0 s) : Fr M s0 (State.writeHi s w pg off v) := by
  unfold State.writeHi
  extract_lets put
  have hput : ∀ s, Fr M s0 s → Fr M s0 (put s) := fun s h => State.putPair_fr _ _ _ _ _ (MaskLe.trans (by decide +kernel) hM) h
  clear_value put
  split
  · exact fr_ite (State.setErr_fr _ _ _ (MaskLe.trans (by decide +kernel) hM) hs) (hput _ hs)
  · exact State.chkBy_fr _ _ _ _ (MaskLe.trans (by decide +kernel) hM) hput hs
  · exact fr_ite (State.mirrorCheck_fr _ (MaskLe.trans (by decide +kernel) hM) (hput _ hs)) (hput _ hs)
  · exact fr_ite (State.pmsCheck_fr _ (MaskLe.trans (by decide +kernel) hM) (hput _ hs)) (hput _ hs)
  · exact hput _ hs
def fm_writeHeader : Nat := mFld IND_CTRL_stride ||| mFld IND_CTRL_auto_inc ||| mFld IND_CTRL_view ||| mAll_IND_DATA_data ||| fm_writeCtrl ||| fm_writeOwner ||| fm_ackEvents ||| fm_forceEvents ||| fm_indAddr ||| fm_indStore ||| fm_plainWrite
theorem State.writeHeader_fr {M s0} (s : State) (w : Who) (pg off v : Nat) (hM : MaskLe fm_writeHeader M) (hs : Fr M s0 s) : Fr M s0 (State.writeHeader s w pg off v) := by
  unfold State.writeHeader
  repeat' first
    | with_reducible first | assumption | apply State.writeCtrl_fr | apply State.writeOwner_fr | apply State.ackEvents_fr | apply State.forceEvents_fr | apply State.indAddr_fr | apply State.wr_fr | apply State.indStore_fr | apply State.plainWrite_fr | apply fr_ite
    | (extract_lets +onlyGivenNames x; refine fr_cut x ?_ ?_; (on_goal 2 => dsimp only [x]); (on_goal 1 => clear_value x; intro hx))
    | (extract_lets +onlyGivenNames x; fail_if_success (have : State := x); clear_value x)
    | exact MaskLe.trans (by decide +kernel) hM
    | (with_reducible refine MaskLe.trans (IND_DATA_data_mem _) ?_; exact MaskLe.trans (by decide +kernel) hM)
    | split
    | dsimp -zeta only
def fm_writeReg : Nat := fm_writeHeader ||| fm_writeLo ||| fm_writeHi ||| fm_writeBody
theorem State.writeReg_fr {M s0} (s : State) (x : RegWrite) (hM : MaskLe fm_writeReg M) (hs : Fr M s0 s) : Fr M s0 (State.writeReg s x) := by
  unfold State.writeReg
  repeat' first
    | with_reducible first | assumption | apply State.writeHeader_fr | apply State.writeLo_fr | apply State.writeHi_fr | apply State.writeBody_fr | apply fr_ite
    | (extract_lets +onlyGivenNames x; refine fr_cut x ?_ ?_; (on_goal 2 => dsimp only [x]); (on_goal 1 => clear_value x; intro hx))
    | (extract_lets +onlyGivenNames x; fail_if_success (have : State := x); clear_value x)
    | exact MaskLe.trans (by decide +kernel) hM
    | with_reducible apply fr_pair
    | split
    | dsimp -zeta only
def fm_proxyDenied : Nat := mFld BOX_PX_STATUS_denied ||| fm_ev
theorem State.proxyDenied_fr {M s0} (s : State) (n : Nat) (hM : MaskLe fm_proxyDenied M) (hs : Fr M s0 s) : Fr M s0 (State.proxyDenied s n) := by
  unfold State.proxyDenied
  repeat' first
    | with_reducible first | assumption | apply State.ev_fr | apply State.wrb_fr
    | exact MaskLe.trans (by decide +kernel) hM
    | dsimp -zeta only
def fm_proxyRead : Nat := fm_proxyDenied ||| fm_readReg
theorem State.proxyRead_fr {M s0} (s : State) (n x : Nat) (hM : MaskLe fm_proxyRead M) (hs : Fr M s0 s) : Fr M s0 (State.proxyRead s n x).2.2 := by
  unfold State.proxyRead
  repeat' first
    | with_reducible first | assumption | apply State.proxyDenied_fr | apply State.readReg_fr | apply fr2_ite
    | (extract_lets +onlyGivenNames x; refine fr_cut x ?_ ?_; (on_goal 2 => dsimp only [x]); (on_goal 1 => clear_value x; intro hx))
    | (extract_lets +onlyGivenNames x; fail_if_success (have : State := x); clear_value x)
    | exact MaskLe.trans (by decide +kernel) hM
    | with_reducible apply fr2_pair
    | split
    | dsimp -zeta only
def fm_proxyWrite : Nat := fm_proxyDenied ||| fm_writeReg
theorem State.proxyWrite_fr {M s0} (s : State) (n x v : Nat) (hM : MaskLe fm_proxyWrite M) (hs : Fr M s0 s) : Fr M s0 (State.proxyWrite s n x v).2 := by
  unfold State.proxyWrite
  repeat' first
    | with_reducible first | assumption | apply State.proxyDenied_fr | apply State.writeReg_fr | apply fr2_ite
    | exact MaskLe.trans (by decide +kernel) hM
    | with_reducible apply fr2_pair
    | split
    | dsimp -zeta only
def fm_accessRead : Nat := fm_proxyRead ||| fm_readReg
theorem State.accessRead_fr {M s0} (s : State) (w : Who) (pg off be : Nat) (hM : MaskLe fm_accessRead M) (hs : Fr M s0 s) : Fr M s0 (State.accessRead s w pg off be).2.2 := by
  unfold State.accessRead
  repeat' first
    | with_reducible first | assumption | apply State.proxyRead_fr | apply State.readReg_fr | apply fr2_ite
    | (extract_lets +onlyGivenNames x; refine fr_cut x ?_ ?_; (on_goal 2 => dsimp only [x]); (on_goal 1 => clear_value x; intro hx))
    | (extract_lets +onlyGivenNames x; fail_if_success (have : State := x); clear_value x)
    | exact MaskLe.trans (by decide +kernel) hM
    | with_reducible apply fr2_pair
    | split
    | dsimp -zeta only
def fm_accessWrite : Nat := fm_setErr ||| fm_proxyWrite ||| fm_writeReg
theorem State.accessWrite_fr {M s0} (s : State) (x : RegWrite) (hM : MaskLe fm_accessWrite M) (hs : Fr M s0 s) : Fr M s0 (State.accessWrite s x).2 := by
  unfold State.accessWrite
  repeat' first
    | with_reducible first | assumption | apply State.setErr_fr | apply State.proxyWrite_fr | apply State.writeReg_fr | apply fr2_ite
    | (extract_lets +onlyGivenNames x; refine fr_cut x ?_ ?_; (on_goal 2 => dsimp only [x]); (on_goal 1 => clear_value x; intro hx))
    | (extract_lets +onlyGivenNames x; fail_if_success (have : State := x); clear_value x)
    | exact MaskLe.trans (by decide +kernel) hM
    | with_reducible apply fr2_pair
    | split
    | dsimp -zeta only
def fm_putMemWord : Nat := 2 ^ 15
theorem State.putMemWord_fr {M s0} (s : State) (a be v : Nat) (hM : MaskLe fm_putMemWord M) (hs : Fr M s0 s) : Fr M s0 (State.putMemWord s a be v) := by
  unfold State.putMemWord
  exact fr_each hs (fun s x h => fr_mem (MaskLe.trans (by decide +kernel) hM) h (fun k => wf_memWrite _ _ _ k))
def fm_msixWrite : Nat := 2 ^ 25 ||| 2 ^ 86
theorem State.msixWrite_fr {M s0} (s : State) (n o be v : Nat) (hM : MaskLe fm_msixWrite M) (hs : Fr M s0 s) : Fr M s0 (State.msixWrite s n o be v) := by
  unfold State.msixWrite
  repeat' first
    | (intro x)
    | with_reducible first | assumption | apply fr_ite
    | (extract_lets +onlyGivenNames x; refine fr_cut x ?_ ?_; (on_goal 2 => dsimp only [x]); (on_goal 1 => clear_value x; intro hx))
    | (extract_lets +onlyGivenNames x; fail_if_success (have : State := x); clear_value x)
    | exact MaskLe.trans (by decide +kernel) hM
    | (with_reducible refine fr_mk_vecs (MaskLe.trans (by decide +kernel) hM) ?_; first | with_reducible assumption)
    | (with_reducible refine fr_mk_msixTab (MaskLe.trans (by decide +kernel) hM) ?_; first | with_reducible assumption)
    | with_reducible apply fr_pair
    | split
    | dsimp -zeta only
def fm_hostReadWords : Nat := fm_accessRead
theorem State.hostReadWords_fr {M s0} (s : State) (x : HostReq) (t : HostTarget) (hM : MaskLe fm_hostReadWords M) (hs : Fr M s0 s) : Fr M s0 (State.hostReadWords s x t).2.2 := by
  unfold State.hostReadWords
  repeat' first
    | (intro x)
    | with_reducible first | assumption | apply State.accessRead_fr | apply fr_foldl | apply fr_foldl2 | apply fr_foldl1
    | (extract_lets +onlyGivenNames x; refine fr_cut x ?_ ?_; (on_goal 2 => dsimp only [x]); (on_goal 1 => clear_value x; intro hx))
    | (extract_lets +onlyGivenNames x; fail_if_success (have : State := x); clear_value x)
    | exact MaskLe.trans (by decide +kernel) hM
    | with_reducible apply fr2_pair
    | split
    | dsimp -zeta only
def fm_hostWriteWords : Nat := fm_accessWrite ||| fm_putMemWord ||| fm_msixWrite
theorem State.hostWriteWords_fr {M s0} (s : State) (x : HostReq) (t : HostTarget) (data : List Nat) (hM : MaskLe fm_hostWriteWords M) (hs : Fr M s0 s) : Fr M s0 (State.hostWriteWords s x t data).2 := by
  unfold State.hostWriteWords
  repeat' first
    | (intro x)
    | with_reducible first | assumption | apply State.accessWrite_fr | apply State.putMemWord_fr | apply State.msixWrite_fr | apply fr_foldl | apply fr_foldl2 | apply fr_foldl1
    | (extract_lets +onlyGivenNames x; refine fr_cut x ?_ ?_; (on_goal 2 => dsimp only [x]); (on_goal 1 => clear_value x; intro hx))
    | (extract_lets +onlyGivenNames x; fail_if_success (have : State := x); clear_value x)
    | exact MaskLe.trans (by decide +kernel) hM
    | with_reducible apply fr2_pair
    | split
    | dsimp -zeta only
def fm_txnLog : Nat := mTab T_HST_TXN ||| 2 ^ 87
theorem State.txnLog_fr {M s0} (s : State) (x : HostReq) (status data : Nat) (hM : MaskLe fm_txnLog M) (hs : Fr M s0 s) : Fr M s0 (State.txnLog s x status data) := by
  unfold State.txnLog
  extract_lets s1
  have h1 : Fr M s0 s1 := fr_each hs (fun s c h => State.setEntry_fr _ _ _ _ _ (MaskLe.trans (by decide +kernel) hM) h)
  clear_value s1
  split
  exact State.setEntry_fr _ _ _ _ _ (MaskLe.trans (by decide +kernel) hM) (fr_mk_hst (MaskLe.trans (by decide +kernel) hM) h1)
def fm_lateReply : Nat := mAll_BXM_LATE ||| fm_ev
theorem State.lateReply_fr {M s0} (s : State) (pg : Nat) (hM : MaskLe fm_lateReply M) (hs : Fr M s0 s) : Fr M s0 (State.lateReply s pg) := by
  unfold State.lateReply
  repeat' first
    | with_reducible first | assumption | apply State.ev_fr | apply State.count_fr
    | exact MaskLe.trans (by decide +kernel) hM
    | (with_reducible refine MaskLe.trans (BXM_LATE_mem _) ?_; exact MaskLe.trans (by decide +kernel) hM)
    | with_reducible apply fr_pair
    | split
    | dsimp -zeta only
def fm_hostEnd : Nat := fm_busError ||| fm_answer ||| fm_txnLog
theorem State.hostEnd_fr {M s0} (s : State) (x : HostReq) (status : Nat) (data : List Nat) (hM : MaskLe fm_hostEnd M) (hs : Fr M s0 s) : Fr M s0 (State.hostEnd s x status data) := by
  unfold State.hostEnd
  repeat' first
    | (intro x)
    | with_reducible first | assumption | apply State.busError_fr | apply State.answer_fr | apply State.txnLog_fr | apply fr_when
    | (extract_lets +onlyGivenNames x; refine fr_cut x ?_ ?_; (on_goal 2 => dsimp only [x]); (on_goal 1 => clear_value x; intro hx))
    | (extract_lets +onlyGivenNames x; fail_if_success (have : State := x); clear_value x)
    | exact MaskLe.trans (by decide +kernel) hM
    | with_reducible apply fr_pair
    | split
    | dsimp -zeta only
def fm_carry : Nat := mFld BXM_HELD ||| 2 ^ 87
theorem State.carry_fr {M s0} (s : State) (x : HostReq) (hM : MaskLe fm_carry M) (hs : Fr M s0 s) : Fr M s0 (State.carry s x) := by
  unfold State.carry
  repeat' first
    | (intro x)
    | with_reducible first | assumption | apply State.count_fr | apply fr_when
    | (extract_lets +onlyGivenNames x; refine fr_cut x ?_ ?_; (on_goal 2 => dsimp only [x]); (on_goal 1 => clear_value x; intro hx))
    | (extract_lets +onlyGivenNames x; fail_if_success (have : State := x); clear_value x)
    | exact MaskLe.trans (by decide +kernel) hM
    | (with_reducible refine fr_mk_hst (MaskLe.trans (by decide +kernel) hM) ?_; first | with_reducible assumption | with_reducible apply State.count_fr)
    | with_reducible apply fr_pair
    | dsimp -zeta only
def fm_hostRequest : Nat := fm_carry ||| fm_lateReply ||| fm_hostEnd ||| fm_hostWriteWords ||| fm_hostReadWords
theorem State.hostRequest_fr {M s0} (s : State) (x : HostReq) (hM : MaskLe fm_hostRequest M) (hs : Fr M s0 s) : Fr M s0 (State.hostRequest s x) := by
  unfold State.hostRequest
  repeat' first
    | (intro x)
    | with_reducible first | assumption | apply State.carry_fr | apply State.lateReply_fr | apply State.hostEnd_fr | apply State.hostWriteWords_fr | apply State.hostReadWords_fr | apply fr_ite | apply fr_when
    | (extract_lets +onlyGivenNames x; refine fr_cut x ?_ ?_; (on_goal 2 => dsimp only [x]); (on_goal 1 => clear_value x; intro hx))
    | (extract_lets +onlyGivenNames x; fail_if_success (have : State := x); clear_value x)
    | exact MaskLe.trans (by decide +kernel) hM
    | with_reducible apply fr_pair
    | split
    | dsimp -zeta only
def fm_busTimeoutEnd : Nat := fm_report ||| fm_lateReply ||| fm_hostEnd ||| fm_answer ||| fm_busError
theorem State.busTimeoutEnd_fr {M s0} (s : State) (w : Who) (pg : Nat) (write late : Bool) (h : Option HostReq) (hM : MaskLe fm_busTimeoutEnd M) (hs : Fr M s0 s) : Fr M s0 (State.busTimeoutEnd s w pg write late h) := by
  unfold State.busTimeoutEnd
  repeat' first
    | (intro x)
    | with_reducible first | assumption | apply State.report_fr | apply State.lateReply_fr | apply State.hostEnd_fr | apply State.answer_fr | apply State.busError_fr | apply fr_ite | apply fr_when
    | (extract_lets +onlyGivenNames x; refine fr_cut x ?_ ?_; (on_goal 2 => dsimp only [x]); (on_goal 1 => clear_value x; intro hx))
    | (extract_lets +onlyGivenNames x; fail_if_success (have : State := x); clear_value x)
    | exact MaskLe.trans (by decide +kernel) hM
    | with_reducible apply fr_pair
    | split
    | dsimp -zeta only
def fm_proxyStep : Nat := fm_proxyWrite ||| fm_answer ||| fm_setErr ||| fm_proxyRead
theorem State.proxyStep_fr {M s0} (s : State) (n x be : Nat) (v : Option Nat) (hM : MaskLe fm_proxyStep M) (hs : Fr M s0 s) : Fr M s0 (State.proxyStep s n x be v) := by
  unfold State.proxyStep
  repeat' first
    | with_reducible first | assumption | apply State.proxyWrite_fr | apply State.answer_fr | apply State.setErr_fr | apply State.proxyRead_fr | apply fr_ite
    | (extract_lets +onlyGivenNames x; refine fr_cut x ?_ ?_; (on_goal 2 => dsimp only [x]); (on_goal 1 => clear_value x; intro hx))
    | (extract_lets +onlyGivenNames x; fail_if_success (have : State := x); clear_value x)
    | exact MaskLe.trans (by decide +kernel) hM
    | with_reducible apply fr_pair
    | split
    | dsimp -zeta only
def fm_cfgWord : Nat := fm_free
theorem State.cfgWord_fr {M s0} (s : State) (fn off : Nat) (hM : MaskLe fm_cfgWord M) (hs : Fr M s0 s) : Fr M s0 (State.cfgWord s fn off).2 := by
  unfold State.cfgWord
  repeat' first
    | with_reducible first | assumption | apply State.free_fr | apply fr2_ite
    | exact MaskLe.trans (by decide +kernel) hM
    | split
    | dsimp -zeta only
def fm_configuration : Nat := 2 ^ 24 ||| 2 ^ 23 ||| fm_answer ||| fm_cfgWord ||| fm_fnReset
theorem State.configuration_fr {M s0} (s : State) (x : CfgReq) (hM : MaskLe fm_configuration M) (hs : Fr M s0 s) : Fr M s0 (State.configuration s x) := by
  unfold State.configuration
  refine fr_ite hs (fr_ite (State.answer_fr _ _ _ (MaskLe.trans (by decide +kernel) hM) hs) ?_)
  split
  · rename_i fn off
    refine fr_ite ?_ (State.answer_fr _ _ _ (MaskLe.trans (by decide +kernel) hM) hs)
    have h1 := State.cfgWord_fr s fn off (MaskLe.trans (by decide +kernel) hM) hs
    generalize s.cfgWord fn off = p at h1 ⊢
    obtain ⟨v, s1⟩ := p
    exact State.answer_fr _ _ _ (MaskLe.trans (by decide +kernel) hM) h1
  · exact State.answer_fr _ _ _ (MaskLe.trans (by decide +kernel) hM) (fr_mk_numVfs (MaskLe.trans (by decide +kernel) hM) (fr_each hs (fun s k h => State.fnReset_fr _ _ _ (MaskLe.trans (by decide +kernel) hM) h)))
  · exact State.answer_fr _ _ _ (MaskLe.trans (by decide +kernel) hM) (fr_ite (fr_mk_fns (MaskLe.trans (by decide +kernel) hM) hs) hs)
  · exact State.answer_fr _ _ _ (MaskLe.trans (by decide +kernel) hM) hs

end Sys2Proof.Machine
end

