-- ==== Sys2Proof/Laws/FramePers.lean ====
section
/-! SUPPORT. What each operation of Frames, PmBins, Pers, PersMsg, Clock may change: one law per operation, by the masks of Laws/State.lean. -/

namespace Sys2Proof.Machine

open Sys2Proof

set_option Elab.async false
set_option linter.all false

def fm_passWord : Nat := fm_setLane ||| fm_adaptLoops ||| fm_farLoop
theorem State.passWord_fr {M s0} (s : State) (n : Nat) (x : CwRx) (hM : MaskLe fm_passWord M) (hs : Fr M s0 s) : Fr M s0 (State.passWord s n x) := by
  unfold State.passWord
  repeat' first
    | (intro x)
    | with_reducible first | assumption | apply State.setLane_fr | apply State.adaptLoops_fr | apply State.farLoop_fr
    | (extract_lets +onlyGivenNames x; refine fr_cut x ?_ ?_; (on_goal 2 => dsimp only [x]); (on_goal 1 => clear_value x; intro hx))
    | (extract_lets +onlyGivenNames x; fail_if_success (have : State := x); clear_value x)
    | exact MaskLe.trans (by decide +kernel) hM
    | with_reducible apply fr_pair
    | dsimp -zeta only
def fm_codewordDecode : Nat := fm_pcsReceive ||| fm_codeword ||| fm_passWord ||| fm_linePtp
theorem State.codewordDecode_fr {M s0} (s : State) (n : Nat) (x : CwRx) (m : Option LinePtp) (hM : MaskLe fm_codewordDecode M) (hs : Fr M s0 s) : Fr M s0 (State.codewordDecode s n x m) := by
  unfold State.codewordDecode
  repeat' first
    | with_reducible first | assumption | apply State.pcsReceive_fr | apply State.codeword_fr | apply State.passWord_fr | apply State.linePtp_fr | apply fr_ite
    | (extract_lets +onlyGivenNames x; refine fr_cut x ?_ ?_; (on_goal 2 => dsimp only [x]); (on_goal 1 => clear_value x; intro hx))
    | (extract_lets +onlyGivenNames x; fail_if_success (have : State := x); clear_value x)
    | exact MaskLe.trans (by decide +kernel) hM
    | with_reducible apply fr_pair
    | split
    | dsimp -zeta only
def fm_otucFrame : Nat := fm_gccIn ||| fm_otucFrameIn
theorem State.otucFrame_fr {M s0} (s : State) (d : Nat) (f : OtucFrame) (hM : MaskLe fm_otucFrame M) (hs : Fr M s0 s) : Fr M s0 (State.otucFrame s d f) := by
  unfold State.otucFrame
  repeat' first
    | with_reducible first | assumption | apply State.gccIn_fr | apply State.otucFrameIn_fr | apply fr_ite
    | exact MaskLe.trans (by decide +kernel) hM
    | split
    | dsimp -zeta only
def fm_otucTxFrame : Nat := fm_gccOut ||| fm_otucSend ||| fm_emit ||| fm_otucLine ||| fm_setSlice
theorem State.otucTxFrame_fr {M s0} (s : State) (lead : Nat) (x : OtucTx) (hM : MaskLe fm_otucTxFrame M) (hs : Fr M s0 s) : Fr M s0 (State.otucTxFrame s lead x) := by
  unfold State.otucTxFrame
  repeat' first
    | (intro x)
    | with_reducible first | assumption | apply State.gccOut_fr | apply State.otucSend_fr | apply State.emit_fr | apply State.otucLine_fr | apply State.setSlice_fr | apply fr_ite | apply fr_each
    | (extract_lets +onlyGivenNames x; refine fr_cut x ?_ ?_; (on_goal 2 => dsimp only [x]); (on_goal 1 => clear_value x; intro hx))
    | (extract_lets +onlyGivenNames x; fail_if_success (have : State := x); clear_value x)
    | exact MaskLe.trans (by decide +kernel) hM
    | with_reducible apply fr_pair
    | split
    | dsimp -zeta only
def fm_apsExtract : Nat := fm_apsReceive
theorem State.apsExtract_fr {M s0} (s : State) (B e : Nat) (f : OduFrame) (hM : MaskLe fm_apsExtract M) (hs : Fr M s0 s) : Fr M s0 (State.apsExtract s B e f) := by
  unfold State.apsExtract
  repeat' first
    | (intro x)
    | with_reducible first | assumption | apply State.apsReceive_fr | apply fr_ite | apply fr_foldl | apply fr_foldl2 | apply fr_foldl1
    | exact MaskLe.trans (by decide +kernel) hM
    | with_reducible apply fr_pair
    | split
    | dsimp -zeta only
def fm_oduFrameSink : Nat := fm_oduFrameIn ||| fm_apsExtract ||| fm_takeClient ||| fm_ohCapture
theorem State.oduFrameSink_fr {M s0} (s : State) (B e : Nat) (f : OduFrame) (hM : MaskLe fm_oduFrameSink M) (hs : Fr M s0 s) : Fr M s0 (State.oduFrameSink s B e f) := by
  unfold State.oduFrameSink
  repeat' first
    | with_reducible first | assumption | apply State.oduFrameIn_fr | apply State.apsExtract_fr | apply State.takeClient_fr | apply State.ohCapture_fr | apply fr_ite
    | (extract_lets +onlyGivenNames x; refine fr_cut x ?_ ?_; (on_goal 2 => dsimp only [x]); (on_goal 1 => clear_value x; intro hx))
    | (extract_lets +onlyGivenNames x; fail_if_success (have : State := x); clear_value x)
    | exact MaskLe.trans (by decide +kernel) hM
    | split
    | dsimp -zeta only
def fm_takeBackShared : Nat := fm_setPoint
theorem State.takeBackShared_fr {M s0} (s : State) (B e level : Nat) (hM : MaskLe fm_takeBackShared M) (hs : Fr M s0 s) : Fr M s0 (State.takeBackShared s B e level).2 := by
  unfold State.takeBackShared
  repeat' first
    | (intro x)
    | with_reducible first | assumption | apply State.setPoint_fr
    | (extract_lets +onlyGivenNames x; refine fr_cut x ?_ ?_; (on_goal 2 => dsimp only [x]); (on_goal 1 => clear_value x; intro hx))
    | (extract_lets +onlyGivenNames x; fail_if_success (have : State := x); clear_value x)
    | exact MaskLe.trans (by decide +kernel) hM
    | with_reducible apply fr2_pair
    | split
    | dsimp -zeta only
def fm_sourceBack : Nat := fm_takeBack ||| fm_takeBackShared
theorem State.sourceBack_fr {M s0} (s : State) (B e level pe : Nat) (hM : MaskLe fm_sourceBack M) (hs : Fr M s0 s) : Fr M s0 (State.sourceBack s B e level pe).2 := by
  unfold State.sourceBack
  repeat' first
    | with_reducible first | assumption | apply State.takeBack_fr | apply State.takeBackShared_fr | apply fr2_ite
    | exact MaskLe.trans (by decide +kernel) hM
    | split
    | dsimp -zeta only
def fm_sourceFields : Nat := fm_sourceBack
theorem State.sourceFields_fr {M s0} (s : State) (B e mfas n : Nat) (hM : MaskLe fm_sourceFields M) (hs : Fr M s0 s) : Fr M s0 (State.sourceFields s B e mfas n).2 := by
  unfold State.sourceFields
  repeat' first
    | (intro x)
    | with_reducible first | assumption | apply State.sourceBack_fr | apply fr2_ite | apply fr_foldl | apply fr_foldl2 | apply fr_foldl1
    | (extract_lets +onlyGivenNames x; refine fr_cut x ?_ ?_; (on_goal 2 => dsimp only [x]); (on_goal 1 => clear_value x; intro hx))
    | (extract_lets +onlyGivenNames x; fail_if_success (have : State := x); clear_value x)
    | exact MaskLe.trans (by decide +kernel) hM
    | with_reducible apply fr2_pair
    | split
    | dsimp -zeta only
def fm_refreshCliOut : Nat := fm_setRepl
theorem State.refreshCliOut_fr {M s0} (s : State) (B e : Nat) (hM : MaskLe fm_refreshCliOut M) (hs : Fr M s0 s) : Fr M s0 (State.refreshCliOut s B e) := by
  unfold State.refreshCliOut
  repeat' first
    | with_reducible first | assumption | apply State.setRepl_fr
    | exact MaskLe.trans (by decide +kernel) hM
    | split
    | dsimp -zeta only
def fm_stampCount : Nat := 2 ^ 53 ||| fm_setCtx
theorem State.stampCount_fr {M s0} (s : State) (B e mfas : Nat) (hM : MaskLe fm_stampCount M) (hs : Fr M s0 s) : Fr M s0 (State.stampCount s B e mfas).2 := by
  unfold State.stampCount
  repeat' first
    | (intro x)
    | with_reducible first | assumption | apply State.setCtx_fr | apply fr2_ite
    | (extract_lets +onlyGivenNames x; refine fr_cut x ?_ ?_; (on_goal 2 => dsimp only [x]); (on_goal 1 => clear_value x; intro hx))
    | (extract_lets +onlyGivenNames x; fail_if_success (have : State := x); clear_value x)
    | exact MaskLe.trans (by decide +kernel) hM
    | (with_reducible refine fr_mk_brgStamp (MaskLe.trans (by decide +kernel) hM) ?_; first | with_reducible assumption | with_reducible apply State.setCtx_fr)
    | with_reducible apply fr2_pair
    | split
    | dsimp -zeta only
def fm_expBytes : Nat := fm_stampCount
theorem State.expBytes_fr {M s0} (s : State) (B e mfas : Nat) (x : OduTx) (passes : Bool) (hM : MaskLe fm_expBytes M) (hs : Fr M s0 s) : Fr M s0 (State.expBytes s B e mfas x passes).2 := by
  unfold State.expBytes
  repeat' first
    | with_reducible first | assumption | apply State.stampCount_fr | apply fr2_ite
    | (extract_lets +onlyGivenNames x; refine fr_cut x ?_ ?_; (on_goal 2 => dsimp only [x]); (on_goal 1 => clear_value x; intro hx))
    | (extract_lets +onlyGivenNames x; fail_if_success (have : State := x); clear_value x)
    | exact MaskLe.trans (by decide +kernel) hM
    | with_reducible apply fr2_pair
    | split
    | dsimp -zeta only
def fm_apsInsert : Nat := fm_apsSend
theorem State.apsInsert_fr {M s0} (s : State) (B e mfas : Nat) (hM : MaskLe fm_apsInsert M) (hs : Fr M s0 s) : Fr M s0 (State.apsInsert s B e mfas).2 := by
  unfold State.apsInsert
  repeat' first
    | with_reducible first | assumption | apply State.apsSend_fr | apply fr2_ite
    | (extract_lets +onlyGivenNames x; refine fr_cut x ?_ ?_; (on_goal 2 => dsimp only [x]); (on_goal 1 => clear_value x; intro hx))
    | (extract_lets +onlyGivenNames x; fail_if_success (have : State := x); clear_value x)
    | exact MaskLe.trans (by decide +kernel) hM
    | with_reducible apply fr2_pair
    | split
    | dsimp -zeta only
def fm_psiSent : Nat := mTab T_CLI_STATUS ||| fm_ev
theorem State.psiSent_fr {M s0} (s : State) (B e mfas opu : Nat) (rx : Option OduFrame) (hM : MaskLe fm_psiSent M) (hs : Fr M s0 s) : Fr M s0 (State.psiSent s B e mfas opu rx).2 := by
  unfold State.psiSent
  repeat' first
    | with_reducible first | assumption | apply State.ev_fr | apply State.tputb_fr | apply fr2_ite
    | (extract_lets +onlyGivenNames x; refine fr_cut x ?_ ?_; (on_goal 2 => dsimp only [x]); (on_goal 1 => clear_value x; intro hx))
    | (extract_lets +onlyGivenNames x; fail_if_success (have : State := x); clear_value x)
    | exact MaskLe.trans (by decide +kernel) hM
    | split
    | dsimp -zeta only
def fm_egressMonitors : Nat := fm_refreshPoint ||| fm_judgePoint
theorem State.egressMonitors_fr {M s0} (s : State) (B e : Nat) (f : OduFrame) (sent inMf : Bool) (hM : MaskLe fm_egressMonitors M) (hs : Fr M s0 s) : Fr M s0 (State.egressMonitors s B e f sent inMf) := by
  unfold State.egressMonitors
  repeat' first
    | (intro x)
    | with_reducible first | assumption | apply State.refreshPoint_fr | apply State.judgePoint_fr | apply fr_each
    | (extract_lets +onlyGivenNames x; refine fr_cut x ?_ ?_; (on_goal 2 => dsimp only [x]); (on_goal 1 => clear_value x; intro hx))
    | (extract_lets +onlyGivenNames x; fail_if_success (have : State := x); clear_value x)
    | exact MaskLe.trans (by decide +kernel) hM
    | with_reducible apply fr_pair
    | dsimp -zeta only
def fm_egressMachine : Nat := fm_setCtx
theorem State.egressMachine_fr {M s0} (s : State) (B e : Nat) (x : OduTx) (hM : MaskLe fm_egressMachine M) (hs : Fr M s0 s) : Fr M s0 (State.egressMachine s B e x) := by
  unfold State.egressMachine
  repeat' first
    | (intro x)
    | with_reducible first | assumption | apply State.setCtx_fr
    | exact MaskLe.trans (by decide +kernel) hM
    | with_reducible apply fr_pair
    | split
    | dsimp -zeta only
def fm_egressSpot : Nat := fm_egressMonitors ||| fm_judgePt
theorem State.egressSpot_fr {M s0} (s : State) (B e : Nat) (x : OduTx) (rx : Option OduFrame) (hM : MaskLe fm_egressSpot M) (hs : Fr M s0 s) : Fr M s0 (State.egressSpot s B e x rx) := by
  unfold State.egressSpot
  repeat' first
    | with_reducible first | assumption | apply State.egressMonitors_fr | apply State.judgePt_fr | apply fr_ite
    | (extract_lets +onlyGivenNames x; refine fr_cut x ?_ ?_; (on_goal 2 => dsimp only [x]); (on_goal 1 => clear_value x; intro hx))
    | (extract_lets +onlyGivenNames x; fail_if_success (have : State := x); clear_value x)
    | exact MaskLe.trans (by decide +kernel) hM
    | with_reducible apply fr_pair
    | split
    | dsimp -zeta only
def fm_oduPayload : Nat := fm_giveClient ||| fm_setCli
theorem State.oduPayload_fr {M s0} (s : State) (B e opu : Nat) (hM : MaskLe fm_oduPayload M) (hs : Fr M s0 s) : Fr M s0 (State.oduPayload s B e opu).2.2 := by
  unfold State.oduPayload
  repeat' first
    | (intro x)
    | with_reducible first | assumption | apply State.giveClient_fr | apply State.setCli_fr | apply fr2_ite
    | (extract_lets +onlyGivenNames x; refine fr_cut x ?_ ?_; (on_goal 2 => dsimp only [x]); (on_goal 1 => clear_value x; intro hx))
    | (extract_lets +onlyGivenNames x; fail_if_success (have : State := x); clear_value x)
    | exact MaskLe.trans (by decide +kernel) hM
    | with_reducible apply fr2_pair
    | split
    | dsimp -zeta only
def fm_omfiSent : Nat := fm_setCtx
theorem State.omfiSent_fr {M s0} (s : State) (B e opu : Nat) (hM : MaskLe fm_omfiSent M) (hs : Fr M s0 s) : Fr M s0 (State.omfiSent s B e opu).2 := by
  unfold State.omfiSent
  repeat' first
    | (intro x)
    | with_reducible first | assumption | apply State.setCtx_fr | apply fr2_ite
    | exact MaskLe.trans (by decide +kernel) hM
    | with_reducible apply fr2_pair
    | split
    | dsimp -zeta only
def fm_oduOverhead : Nat := fm_sourceFields ||| fm_expBytes ||| fm_apsInsert ||| fm_ohInsert ||| fm_psiSent ||| fm_omfiSent ||| fm_oduPayload
theorem State.oduOverhead_fr {M s0} (s : State) (B e : Nat) (x : OduTx) (mfas opu : Nat) (held : Bool) (pass : Option OduFrame) (hM : MaskLe fm_oduOverhead M) (hs : Fr M s0 s) : Fr M s0 (State.oduOverhead s B e x mfas opu held pass).2 := by
  unfold State.oduOverhead
  repeat' first
    | (intro x)
    | with_reducible first | assumption | apply State.sourceFields_fr | apply State.expBytes_fr | apply State.apsInsert_fr | apply State.ohInsert_fr | apply State.psiSent_fr | apply State.omfiSent_fr | apply State.oduPayload_fr | apply fr2_ite
    | (extract_lets +onlyGivenNames x; refine fr_cut x ?_ ?_; (on_goal 2 => dsimp only [x]); (on_goal 1 => clear_value x; intro hx))
    | (extract_lets +onlyGivenNames x; fail_if_success (have : State := x); clear_value x)
    | exact MaskLe.trans (by decide +kernel) hM
    | with_reducible apply fr2_pair
    | split
    | dsimp -zeta only
def fm_oduSend : Nat := fm_setCtx ||| fm_egressMonitors ||| fm_emit
theorem State.oduSend_fr {M s0} (s : State) (B e : Nat) (x : OduTx) (f : OduSent) (pass : Option OduFrame) (hM : MaskLe fm_oduSend M) (hs : Fr M s0 s) : Fr M s0 (State.oduSend s B e x f pass) := by
  unfold State.oduSend
  repeat' first
    | (intro x)
    | with_reducible first | assumption | apply State.setCtx_fr | apply State.egressMonitors_fr | apply State.emit_fr | apply fr_ite
    | (extract_lets +onlyGivenNames x; refine fr_cut x ?_ ?_; (on_goal 2 => dsimp only [x]); (on_goal 1 => clear_value x; intro hx))
    | (extract_lets +onlyGivenNames x; fail_if_success (have : State := x); clear_value x)
    | exact MaskLe.trans (by decide +kernel) hM
    | with_reducible apply fr_pair
    | split
    | dsimp -zeta only
def fm_oduFrameSource : Nat := mTab T_CTX_STATUS ||| fm_egressMachine ||| fm_egressSpot ||| fm_evWhen ||| fm_refreshCliOut ||| fm_oduOverhead ||| fm_oduSend
theorem State.oduFrameSource_fr {M s0} (s : State) (B e : Nat) (x : OduTx) (hM : MaskLe fm_oduFrameSource M) (hs : Fr M s0 s) : Fr M s0 (State.oduFrameSource s B e x) := by
  unfold State.oduFrameSource
  repeat' first
    | with_reducible first | assumption | apply State.egressMachine_fr | apply State.egressSpot_fr | apply State.tputb_fr | apply State.evWhen_fr | apply State.tput_fr | apply State.refreshCliOut_fr | apply State.oduOverhead_fr | apply State.oduSend_fr | apply fr_ite
    | (extract_lets +onlyGivenNames x; refine fr_cut x ?_ ?_; (on_goal 2 => dsimp only [x]); (on_goal 1 => clear_value x; intro hx))
    | (extract_lets +onlyGivenNames x; fail_if_success (have : State := x); clear_value x)
    | exact MaskLe.trans (by decide +kernel) hM
    | with_reducible apply fr_pair
    | split
    | dsimp -zeta only
def fm_rateHold : Nat := mTab T_CLI_STATUS ||| fm_ev ||| fm_setCli
theorem State.rateHold_fr {M s0} (s : State) (B e : Nat) (hM : MaskLe fm_rateHold M) (hs : Fr M s0 s) : Fr M s0 (State.rateHold s B e) := by
  unfold State.rateHold
  repeat' first
    | (intro x)
    | with_reducible first | assumption | apply State.ev_fr | apply State.tputb_fr | apply State.setCli_fr | apply fr_ite
    | exact MaskLe.trans (by decide +kernel) hM
    | with_reducible apply fr_pair
    | split
    | dsimp -zeta only
def fm_rateHoldEnd : Nat := mTab T_CLI_STATUS
theorem State.rateHoldEnd_fr {M s0} (s : State) (B e : Nat) (hM : MaskLe fm_rateHoldEnd M) (hs : Fr M s0 s) : Fr M s0 (State.rateHoldEnd s B e) := by
  unfold State.rateHoldEnd
  repeat' first
    | with_reducible first | assumption | apply State.tputb_fr | apply fr_ite
    | exact MaskLe.trans (by decide +kernel) hM
    | split
    | dsimp -zeta only
def fm_tcaJudge : Nat := 2 ^ 119 ||| fm_alarmMoved
theorem State.tcaJudge_fr {M s0} (s : State) (m : Nat) (hM : MaskLe fm_tcaJudge M) (hs : Fr M s0 s) : Fr M s0 (State.tcaJudge s m) := by
  unfold State.tcaJudge
  repeat' first
    | (intro x)
    | with_reducible first | assumption | apply State.alarmMoved_fr | apply fr_ite | apply fr_each
    | (extract_lets +onlyGivenNames x; refine fr_cut x ?_ ?_; (on_goal 2 => dsimp only [x]); (on_goal 1 => clear_value x; intro hx))
    | (extract_lets +onlyGivenNames x; fail_if_success (have : State := x); clear_value x)
    | exact MaskLe.trans (by decide +kernel) hM
    | (with_reducible refine fr_mk_tca (MaskLe.trans (by decide +kernel) hM) ?_; first | with_reducible assumption | with_reducible apply State.alarmMoved_fr)
    | split
    | dsimp -zeta only
def fm_binSecond : Nat := 2 ^ 114 ||| 2 ^ 115 ||| 2 ^ 116 ||| 2 ^ 117 ||| fm_tcaJudge
theorem State.binSecond_fr {M s0} (s : State) (f : PmFrame) (hM : MaskLe fm_binSecond M) (hs : Fr M s0 s) : Fr M s0 (State.binSecond s f) := by
  unfold State.binSecond
  repeat' first
    | (intro x)
    | with_reducible first | assumption | apply State.tcaJudge_fr | apply fr_ite | apply fr_each | apply fr_foldl | apply fr_foldl2 | apply fr_foldl1
    | (extract_lets +onlyGivenNames x; refine fr_cut x ?_ ?_; (on_goal 2 => dsimp only [x]); (on_goal 1 => clear_value x; intro hx))
    | (extract_lets +onlyGivenNames x; fail_if_success (have : State := x); clear_value x)
    | exact MaskLe.trans (by decide +kernel) hM
    | (with_reducible refine fr_mk_pmBins_pmBase_pmLastBin_pmMissing (MaskLe.trans (by decide +kernel) hM) ?_; first | with_reducible assumption | with_reducible apply State.tcaJudge_fr)
    | with_reducible apply fr_pair
    | split
    | dsimp -zeta only
def fm_pmSecond : Nat := 2 ^ 39 ||| mFld WNG_PMS_LAST_sec ||| fm_binSecond ||| fm_ev ||| fm_pmWrite
theorem State.pmSecond_fr {M s0} (s : State) (hM : MaskLe fm_pmSecond M) (hs : Fr M s0 s) : Fr M s0 (State.pmSecond s) := by
  unfold State.pmSecond
  repeat' first
    | with_reducible first | assumption | apply State.binSecond_fr | apply State.ev_fr | apply State.wr_fr | apply State.pmWrite_fr
    | (extract_lets +onlyGivenNames x; refine fr_cut x ?_ ?_; (on_goal 2 => dsimp only [x]); (on_goal 1 => clear_value x; intro hx))
    | (extract_lets +onlyGivenNames x; fail_if_success (have : State := x); clear_value x)
    | exact MaskLe.trans (by decide +kernel) hM
    | (with_reducible refine fr_mk_pmPend (MaskLe.trans (by decide +kernel) hM) ?_; first | with_reducible assumption | with_reducible apply State.binSecond_fr | with_reducible apply State.ev_fr | with_reducible apply State.wr_fr | with_reducible apply State.pmWrite_fr)
    | with_reducible apply fr_pair
    | split
    | dsimp -zeta only
def fm_gv : Nat := fm_free
theorem State.gv_fr {M s0} (s : State) (code : Nat) (body : List Nat) (hM : MaskLe fm_gv M) (hs : Fr M s0 s) : Fr M s0 (State.gv s code body).2 := by
  unfold State.gv
  repeat' first
    | with_reducible first | assumption | apply State.free_fr | apply fr2_ite
    | (extract_lets +onlyGivenNames x; refine fr_cut x ?_ ?_; (on_goal 2 => dsimp only [x]); (on_goal 1 => clear_value x; intro hx))
    | (extract_lets +onlyGivenNames x; fail_if_success (have : State := x); clear_value x)
    | exact MaskLe.trans (by decide +kernel) hM
    | with_reducible apply fr2_pair
    | split
    | dsimp -zeta only
def fm_stageEdit : Nat := allTabs ||| fm_writeStaged
theorem State.stageEdit_fr {M s0} (s : State) (w : Who) (x : Edit) (hM : MaskLe fm_stageEdit M) (hs : Fr M s0 s) : Fr M s0 (State.stageEdit s w x) := by
  unfold State.stageEdit
  repeat' first
    | (intro x)
    | with_reducible first | assumption | apply State.writeStaged_fr | apply fr_each
    | (extract_lets +onlyGivenNames x; refine fr_cut x ?_ ?_; (on_goal 2 => dsimp only [x]); (on_goal 1 => clear_value x; intro hx))
    | (extract_lets +onlyGivenNames x; fail_if_success (have : State := x); clear_value x)
    | exact MaskLe.trans (by decide +kernel) hM
    | exact mTab_coarse (MaskLe.trans (by decide +kernel) hM) _
    | with_reducible apply fr_pair
    | dsimp -zeta only
def fm_setScope : Nat := mFld BOX_CUE_SCOPE_EXT_region ||| mFld BOX_CUE_SCOPE_blocks ||| mFld BOX_CUE_SCOPE_EXT_wng ||| mFld BOX_CUE_SCOPE_EXT_prt ||| mFld BOX_CUE_CTRL_immediate ||| mFld BOX_CUE_CTRL_dry_run ||| mFld BOX_CUE_CTRL_check_en
theorem State.setScope_fr {M s0} (s : State) (n : Nat) (pgs : List Nat) (hM : MaskLe fm_setScope M) (hs : Fr M s0 s) : Fr M s0 (State.setScope s n pgs) := by
  unfold State.setScope
  repeat' first
    | with_reducible first | assumption | apply State.wr_fr | apply State.wrb_fr
    | (extract_lets +onlyGivenNames x; refine fr_cut x ?_ ?_; (on_goal 2 => dsimp only [x]); (on_goal 1 => clear_value x; intro hx))
    | (extract_lets +onlyGivenNames x; fail_if_success (have : State := x); clear_value x)
    | exact MaskLe.trans (by decide +kernel) hM
    | dsimp -zeta only
def fm_persCue : Nat := fm_gv ||| fm_setScope ||| fm_stageEdit ||| fm_cueCheckEnd ||| fm_cueGo ||| fm_cueRevert
theorem State.persCue_fr {M s0} (s : State) (x : PersEnv) (p : Nat) (es : List Edit) (after : State → State) (hM : MaskLe fm_persCue M) (k_after : ∀ s, Fr M s0 s → Fr M s0 (after s)) (hs : Fr M s0 s) : Fr M s0 (State.persCue s x p es after).2 := by
  unfold State.persCue
  repeat' first
    | (intro x)
    | with_reducible first | assumption | apply State.gv_fr | apply State.setScope_fr | apply State.stageEdit_fr | apply State.cueCheckEnd_fr | apply State.cueGo_fr | apply State.cueRevert_fr | apply k_after | apply fr2_ite | apply fr_each
    | (extract_lets +onlyGivenNames x; refine fr_cut x ?_ ?_; (on_goal 2 => dsimp only [x]); (on_goal 1 => clear_value x; intro hx))
    | (extract_lets +onlyGivenNames x; fail_if_success (have : State := x); clear_value x)
    | exact MaskLe.trans (by decide +kernel) hM
    | with_reducible apply fr2_pair
    | split
    | dsimp -zeta only
def fm_cueOr : Nat := fm_persCue ||| fm_gv
theorem State.cueOr_fr {M s0} (s : State) (x : PersEnv) (p : Nat) (es : Edits) (after : State → State) (hM : MaskLe fm_cueOr M) (k_after : ∀ s, Fr M s0 s → Fr M s0 (after s)) (hs : Fr M s0 s) : Fr M s0 (State.cueOr s x p es after).2 := by
  unfold State.cueOr
  repeat' first
    | (intro x)
    | with_reducible first | assumption | apply State.persCue_fr | apply State.gv_fr | apply k_after
    | exact MaskLe.trans (by decide +kernel) hM
    | with_reducible apply fr2_pair
    | split
    | dsimp -zeta only
def fm_unless_ : Nat := fm_gv
theorem State.unless__fr {M s0} (s : State) (l : List (Bool × Nat)) (f : Unit → PersAns × State) (hM : MaskLe fm_unless_ M) (k_f : Fr M s0 (f ()).2) (hs : Fr M s0 s) : Fr M s0 (State.unless_ s l f).2 := by
  unfold State.unless_
  repeat' first
    | with_reducible first | assumption | apply State.gv_fr | apply k_f
    | exact MaskLe.trans (by decide +kernel) hM
    | with_reducible apply fr2_pair
    | split
    | dsimp -zeta only
def fm_devIdentity : Nat := fm_gv
theorem State.devIdentity_fr {M s0} (s : State) (p : Nat) (hM : MaskLe fm_devIdentity M) (hs : Fr M s0 s) : Fr M s0 (State.devIdentity s p).2 := by
  unfold State.devIdentity
  repeat' first
    | with_reducible first | assumption | apply State.gv_fr
    | exact MaskLe.trans (by decide +kernel) hM
    | dsimp -zeta only
def fm_devStatus : Nat := fm_gv
theorem State.devStatus_fr {M s0} (s : State) (p : Nat) (hM : MaskLe fm_devStatus M) (hs : Fr M s0 s) : Fr M s0 (State.devStatus s p).2 := by
  unfold State.devStatus
  repeat' first
    | with_reducible first | assumption | apply State.gv_fr | apply fr2_ite
    | (extract_lets +onlyGivenNames x; refine fr_cut x ?_ ?_; (on_goal 2 => dsimp only [x]); (on_goal 1 => clear_value x; intro hx))
    | (extract_lets +onlyGivenNames x; fail_if_success (have : State := x); clear_value x)
    | exact MaskLe.trans (by decide +kernel) hM
    | split
    | dsimp -zeta only
def fm_askReset : Nat := fm_modeFinish ||| fm_opReset_
theorem State.askReset_fr {M s0} (s : State) (p r : Nat) (clear : Bool) (hM : MaskLe fm_askReset M) (hs : Fr M s0 s) : Fr M s0 (State.askReset s p r clear).1 := by
  unfold State.askReset
  repeat' first
    | with_reducible first | assumption | apply State.modeFinish_fr | apply State.opReset__fr | apply fr1_ite
    | (extract_lets +onlyGivenNames x; refine fr_cut x ?_ ?_; (on_goal 2 => dsimp only [x]); (on_goal 1 => clear_value x; intro hx))
    | (extract_lets +onlyGivenNames x; fail_if_success (have : State := x); clear_value x)
    | exact MaskLe.trans (by decide +kernel) hM
    | with_reducible apply fr1_pair
    | split
    | dsimp -zeta only
def fm_setPersReset : Nat := 2 ^ 122
theorem State.setPersReset_fr {M s0} (s : State) (p : Nat) (x : PersReset) (hM : MaskLe fm_setPersReset M) (hs : Fr M s0 s) : Fr M s0 (State.setPersReset s p x) := by
  unfold State.setPersReset
  repeat' first
    | with_reducible first | assumption
    | exact MaskLe.trans (by decide +kernel) hM
    | (with_reducible refine fr_mk_persReset (MaskLe.trans (by decide +kernel) hM) ?_; first | with_reducible assumption)
    | dsimp -zeta only
def fm_resetAsk : Nat := fm_askReset ||| fm_setPersReset ||| fm_gv
theorem State.resetAsk_fr {M s0} (s : State) (p k r : Nat) (x : PersReset) (hM : MaskLe fm_resetAsk M) (hs : Fr M s0 s) : Fr M s0 (State.resetAsk s p k r x).2 := by
  unfold State.resetAsk
  split
  rename_i s1 c e
  have h1 := State.askReset_fr s p r x.clear (MaskLe.trans (by decide +kernel) hM) hs
  rw [e] at h1
  split
  · exact State.setPersReset_fr _ _ _ (MaskLe.trans (by decide +kernel) hM) h1
  · exact fr2_ite (State.setPersReset_fr _ _ _ (MaskLe.trans (by decide +kernel) hM) h1) (State.gv_fr _ _ _ (MaskLe.trans (by decide +kernel) hM) (State.setPersReset_fr _ _ _ (MaskLe.trans (by decide +kernel) hM) h1))
def fm_resetStep : Nat := fm_resetAsk ||| fm_gv ||| fm_setPersReset
theorem State.resetStep_fr {M s0} (s : State) (p : Nat) (hM : MaskLe fm_resetStep M) (hs : Fr M s0 s) : Fr M s0 (State.resetStep s p).2 := by
  unfold State.resetStep
  repeat' first
    | with_reducible first | assumption | apply State.resetAsk_fr | apply State.gv_fr | apply State.setPersReset_fr | apply fr2_ite
    | (extract_lets +onlyGivenNames x; refine fr_cut x ?_ ?_; (on_goal 2 => dsimp only [x]); (on_goal 1 => clear_value x; intro hx))
    | (extract_lets +onlyGivenNames x; fail_if_success (have : State := x); clear_value x)
    | exact MaskLe.trans (by decide +kernel) hM
    | split
    | dsimp -zeta only
def fm_devReset : Nat := fm_unless_ ||| fm_resetStep ||| fm_setPersReset ||| fm_gv
theorem State.devReset_fr {M s0} (s : State) (p : Nat) (body : List Nat) (frame : Option (List Nat × Nat)) (hM : MaskLe fm_devReset M) (hs : Fr M s0 s) : Fr M s0 (State.devReset s p body frame).2 := by
  unfold State.devReset
  repeat' first
    | (intro x)
    | with_reducible first | assumption | apply State.unless__fr | apply State.resetStep_fr | apply State.setPersReset_fr | apply State.gv_fr | apply fr2_ite
    | (extract_lets +onlyGivenNames x; refine fr_cut x ?_ ?_; (on_goal 2 => dsimp only [x]); (on_goal 1 => clear_value x; intro hx))
    | (extract_lets +onlyGivenNames x; fail_if_success (have : State := x); clear_value x)
    | exact MaskLe.trans (by decide +kernel) hM
    | with_reducible apply fr2_pair
    | split
    | dsimp -zeta only
def fm_laneSet : Nat := fm_unless_ ||| fm_persCue ||| fm_writeCtrl
theorem State.laneSet_fr {M s0} (s : State) (x : PersEnv) (p : Nat) (b : List Nat) (hM : MaskLe fm_laneSet M) (hs : Fr M s0 s) : Fr M s0 (State.laneSet s x p b).2 := by
  unfold State.laneSet
  repeat' first
    | (intro x)
    | with_reducible first | assumption | apply State.unless__fr | apply State.persCue_fr | apply State.writeCtrl_fr
    | (extract_lets +onlyGivenNames x; refine fr_cut x ?_ ?_; (on_goal 2 => dsimp only [x]); (on_goal 1 => clear_value x; intro hx))
    | (extract_lets +onlyGivenNames x; fail_if_success (have : State := x); clear_value x)
    | exact MaskLe.trans (by decide +kernel) hM
    | with_reducible apply fr2_pair
    | dsimp -zeta only
def fm_laneGet : Nat := fm_unless_ ||| fm_gv
theorem State.laneGet_fr {M s0} (s : State) (p : Nat) (b : List Nat) (hM : MaskLe fm_laneGet M) (hs : Fr M s0 s) : Fr M s0 (State.laneGet s p b).2 := by
  unfold State.laneGet
  repeat' first
    | (intro x)
    | with_reducible first | assumption | apply State.unless__fr | apply State.gv_fr
    | (extract_lets +onlyGivenNames x; refine fr_cut x ?_ ?_; (on_goal 2 => dsimp only [x]); (on_goal 1 => clear_value x; intro hx))
    | (extract_lets +onlyGivenNames x; fail_if_success (have : State := x); clear_value x)
    | exact MaskLe.trans (by decide +kernel) hM
    | with_reducible apply fr2_pair
    | dsimp -zeta only
def fm_ifSet : Nat := fm_unless_ ||| fm_cueOr
theorem State.ifSet_fr {M s0} (s : State) (x : PersEnv) (p : Nat) (b : List Nat) (hM : MaskLe fm_ifSet M) (hs : Fr M s0 s) : Fr M s0 (State.ifSet s x p b).2 := by
  unfold State.ifSet
  repeat' first
    | (intro x)
    | with_reducible first | assumption | apply State.unless__fr | apply State.cueOr_fr
    | (extract_lets +onlyGivenNames x; refine fr_cut x ?_ ?_; (on_goal 2 => dsimp only [x]); (on_goal 1 => clear_value x; intro hx))
    | (extract_lets +onlyGivenNames x; fail_if_success (have : State := x); clear_value x)
    | exact MaskLe.trans (by decide +kernel) hM
    | with_reducible apply fr2_pair
    | dsimp -zeta only
def fm_loopback : Nat := fm_unless_ ||| fm_gv ||| fm_writeLb ||| fm_writeFylTest
theorem State.loopback_fr {M s0} (s : State) (p : Nat) (b : List Nat) (hM : MaskLe fm_loopback M) (hs : Fr M s0 s) : Fr M s0 (State.loopback s p b).2 := by
  unfold State.loopback
  repeat' first
    | (intro x)
    | with_reducible first | assumption | apply State.unless__fr | apply State.gv_fr | apply State.writeLb_fr | apply State.writeFylTest_fr | apply fr2_ite
    | (extract_lets +onlyGivenNames x; refine fr_cut x ?_ ?_; (on_goal 2 => dsimp only [x]); (on_goal 1 => clear_value x; intro hx))
    | (extract_lets +onlyGivenNames x; fail_if_success (have : State := x); clear_value x)
    | exact MaskLe.trans (by decide +kernel) hM
    | with_reducible apply fr2_pair
    | split
    | dsimp -zeta only
def fm_connAddMsg : Nat := fm_unless_ ||| fm_cueOr
theorem State.connAddMsg_fr {M s0} (s : State) (x : PersEnv) (p : Nat) (b : List Nat) (hM : MaskLe fm_connAddMsg M) (hs : Fr M s0 s) : Fr M s0 (State.connAddMsg s x p b).2 := by
  unfold State.connAddMsg
  repeat' first
    | (intro x)
    | with_reducible first | assumption | apply State.unless__fr | apply State.cueOr_fr
    | (extract_lets +onlyGivenNames x; refine fr_cut x ?_ ?_; (on_goal 2 => dsimp only [x]); (on_goal 1 => clear_value x; intro hx))
    | (extract_lets +onlyGivenNames x; fail_if_success (have : State := x); clear_value x)
    | exact MaskLe.trans (by decide +kernel) hM
    | with_reducible apply fr2_pair
    | dsimp -zeta only
def fm_connModMsg : Nat := fm_unless_ ||| fm_cueOr
theorem State.connModMsg_fr {M s0} (s : State) (x : PersEnv) (p : Nat) (b : List Nat) (hM : MaskLe fm_connModMsg M) (hs : Fr M s0 s) : Fr M s0 (State.connModMsg s x p b).2 := by
  unfold State.connModMsg
  repeat' first
    | (intro x)
    | with_reducible first | assumption | apply State.unless__fr | apply State.cueOr_fr
    | exact MaskLe.trans (by decide +kernel) hM
    | with_reducible apply fr2_pair
    | dsimp -zeta only
def fm_connDelMsg : Nat := fm_unless_ ||| fm_cueOr
theorem State.connDelMsg_fr {M s0} (s : State) (x : PersEnv) (p : Nat) (b : List Nat) (hM : MaskLe fm_connDelMsg M) (hs : Fr M s0 s) : Fr M s0 (State.connDelMsg s x p b).2 := by
  unfold State.connDelMsg
  repeat' first
    | (intro x)
    | with_reducible first | assumption | apply State.unless__fr | apply State.cueOr_fr
    | exact MaskLe.trans (by decide +kernel) hM
    | with_reducible apply fr2_pair
    | split
    | dsimp -zeta only
def fm_connGetMsg : Nat := fm_unless_ ||| fm_gv
theorem State.connGetMsg_fr {M s0} (s : State) (p : Nat) (b : List Nat) (hM : MaskLe fm_connGetMsg M) (hs : Fr M s0 s) : Fr M s0 (State.connGetMsg s p b).2 := by
  unfold State.connGetMsg
  repeat' first
    | (intro x)
    | with_reducible first | assumption | apply State.unless__fr | apply State.gv_fr
    | (extract_lets +onlyGivenNames x; refine fr_cut x ?_ ?_; (on_goal 2 => dsimp only [x]); (on_goal 1 => clear_value x; intro hx))
    | (extract_lets +onlyGivenNames x; fail_if_success (have : State := x); clear_value x)
    | exact MaskLe.trans (by decide +kernel) hM
    | with_reducible apply fr2_pair
    | split
    | dsimp -zeta only
def fm_pmCurrent : Nat := fm_unless_ ||| fm_gv
theorem State.pmCurrent_fr {M s0} (s : State) (p : Nat) (b : List Nat) (hM : MaskLe fm_pmCurrent M) (hs : Fr M s0 s) : Fr M s0 (State.pmCurrent s p b).2 := by
  unfold State.pmCurrent
  repeat' first
    | (intro x)
    | with_reducible first | assumption | apply State.unless__fr | apply State.gv_fr
    | (extract_lets +onlyGivenNames x; refine fr_cut x ?_ ?_; (on_goal 2 => dsimp only [x]); (on_goal 1 => clear_value x; intro hx))
    | (extract_lets +onlyGivenNames x; fail_if_success (have : State := x); clear_value x)
    | exact MaskLe.trans (by decide +kernel) hM
    | with_reducible apply fr2_pair
    | dsimp -zeta only
def fm_pmHistory : Nat := fm_unless_ ||| fm_gv
theorem State.pmHistory_fr {M s0} (s : State) (p : Nat) (b : List Nat) (hM : MaskLe fm_pmHistory M) (hs : Fr M s0 s) : Fr M s0 (State.pmHistory s p b).2 := by
  unfold State.pmHistory
  repeat' first
    | (intro x)
    | with_reducible first | assumption | apply State.unless__fr | apply State.gv_fr
    | exact MaskLe.trans (by decide +kernel) hM
    | with_reducible apply fr2_pair
    | split
    | dsimp -zeta only
def fm_pmThresh : Nat := 2 ^ 118 ||| fm_unless_ ||| fm_gv
theorem State.pmThresh_fr {M s0} (s : State) (p : Nat) (b : List Nat) (hM : MaskLe fm_pmThresh M) (hs : Fr M s0 s) : Fr M s0 (State.pmThresh s p b).2 := by
  unfold State.pmThresh
  repeat' first
    | (intro x)
    | with_reducible first | assumption | apply State.unless__fr | apply State.gv_fr | apply fr2_ite
    | (extract_lets +onlyGivenNames x; refine fr_cut x ?_ ?_; (on_goal 2 => dsimp only [x]); (on_goal 1 => clear_value x; intro hx))
    | (extract_lets +onlyGivenNames x; fail_if_success (have : State := x); clear_value x)
    | exact MaskLe.trans (by decide +kernel) hM
    | (with_reducible refine fr_mk_pmThr (MaskLe.trans (by decide +kernel) hM) ?_; first | with_reducible assumption | with_reducible apply State.unless__fr | with_reducible apply State.gv_fr)
    | with_reducible apply fr2_pair
    | split
    | dsimp -zeta only
def fm_pgAdd : Nat := fm_unless_ ||| fm_cueOr
theorem State.pgAdd_fr {M s0} (s : State) (x : PersEnv) (p : Nat) (b : List Nat) (hM : MaskLe fm_pgAdd M) (hs : Fr M s0 s) : Fr M s0 (State.pgAdd s x p b).2 := by
  unfold State.pgAdd
  repeat' first
    | (intro x)
    | with_reducible first | assumption | apply State.unless__fr | apply State.cueOr_fr | apply fr2_ite
    | (extract_lets +onlyGivenNames x; refine fr_cut x ?_ ?_; (on_goal 2 => dsimp only [x]); (on_goal 1 => clear_value x; intro hx))
    | (extract_lets +onlyGivenNames x; fail_if_success (have : State := x); clear_value x)
    | exact MaskLe.trans (by decide +kernel) hM
    | with_reducible apply fr2_pair
    | split
    | dsimp -zeta only
def fm_pgDelete : Nat := fm_unless_ ||| fm_persCue
theorem State.pgDelete_fr {M s0} (s : State) (x : PersEnv) (p : Nat) (b : List Nat) (hM : MaskLe fm_pgDelete M) (hs : Fr M s0 s) : Fr M s0 (State.pgDelete s x p b).2 := by
  unfold State.pgDelete
  repeat' first
    | (intro x)
    | with_reducible first | assumption | apply State.unless__fr | apply State.persCue_fr | apply fr2_ite
    | (extract_lets +onlyGivenNames x; refine fr_cut x ?_ ?_; (on_goal 2 => dsimp only [x]); (on_goal 1 => clear_value x; intro hx))
    | (extract_lets +onlyGivenNames x; fail_if_success (have : State := x); clear_value x)
    | exact MaskLe.trans (by decide +kernel) hM
    | with_reducible apply fr2_pair
    | split
    | dsimp -zeta only
def fm_pgCommand : Nat := mFld PRT_CMD_ARG_aps ||| mFld PRT_CMD_ARG_sel ||| mFld PRT_CMD_ARG_bridge ||| fm_unless_ ||| fm_prtSettleNow ||| fm_prtIssue ||| fm_gv
theorem State.pgCommand_fr {M s0} (s : State) (x : PersEnv) (p : Nat) (b : List Nat) (hM : MaskLe fm_pgCommand M) (hs : Fr M s0 s) : Fr M s0 (State.pgCommand s x p b).2 := by
  unfold State.pgCommand
  repeat' first
    | (intro x)
    | with_reducible first | assumption | apply State.unless__fr | apply State.prtSettleNow_fr | apply State.prtIssue_fr | apply State.wr_fr | apply State.gv_fr | apply fr2_ite
    | (extract_lets +onlyGivenNames x; refine fr_cut x ?_ ?_; (on_goal 2 => dsimp only [x]); (on_goal 1 => clear_value x; intro hx))
    | (extract_lets +onlyGivenNames x; fail_if_success (have : State := x); clear_value x)
    | exact MaskLe.trans (by decide +kernel) hM
    | with_reducible apply fr2_pair
    | split
    | dsimp -zeta only
def fm_pgStatus : Nat := fm_unless_ ||| fm_gv
theorem State.pgStatus_fr {M s0} (s : State) (p : Nat) (b : List Nat) (hM : MaskLe fm_pgStatus M) (hs : Fr M s0 s) : Fr M s0 (State.pgStatus s p b).2 := by
  unfold State.pgStatus
  repeat' first
    | (intro x)
    | with_reducible first | assumption | apply State.unless__fr | apply State.gv_fr
    | (extract_lets +onlyGivenNames x; refine fr_cut x ?_ ?_; (on_goal 2 => dsimp only [x]); (on_goal 1 => clear_value x; intro hx))
    | (extract_lets +onlyGivenNames x; fail_if_success (have : State := x); clear_value x)
    | exact MaskLe.trans (by decide +kernel) hM
    | with_reducible apply fr2_pair
    | split
    | dsimp -zeta only
def fm_gccName : Nat := mFld OTU_GCC0_CFG_cap_ch ||| mFld OTU_GCC0_CFG_ins_ch ||| mFld OTU_GCC0_CFG_cap_en ||| mFld OTU_GCC0_CFG_ins_en
theorem State.gccName_fr {M s0} (s : State) (d dir : Nat) (ch : Option Nat) (hM : MaskLe fm_gccName M) (hs : Fr M s0 s) : Fr M s0 (State.gccName s d dir ch) := by
  unfold State.gccName
  extract_lets pg en f
  have he : MaskLe (mFld en) M := by unfold en; split <;> exact MaskLe.trans (by decide +kernel) hM
  have hf : MaskLe (mFld f) M := by unfold f; split <;> exact MaskLe.trans (by decide +kernel) hM
  clear_value en f
  split
  · exact State.wr_fr _ _ _ _ hf (State.wrb_fr _ _ _ _ he hs)
  · exact State.wrb_fr _ _ _ _ he hs
def fm_ohOpen : Nat := fm_unless_ ||| fm_cueOr ||| fm_gccName
theorem State.ohOpen_fr {M s0} (s : State) (x : PersEnv) (p : Nat) (b : List Nat) (hM : MaskLe fm_ohOpen M) (hs : Fr M s0 s) : Fr M s0 (State.ohOpen s x p b).2 := by
  unfold State.ohOpen
  repeat' first
    | (intro x)
    | with_reducible first | assumption | apply State.unless__fr | apply State.cueOr_fr | apply State.gccName_fr | apply fr2_ite | apply fr_each
    | (extract_lets +onlyGivenNames x; refine fr_cut x ?_ ?_; (on_goal 2 => dsimp only [x]); (on_goal 1 => clear_value x; intro hx))
    | (extract_lets +onlyGivenNames x; fail_if_success (have : State := x); clear_value x)
    | exact MaskLe.trans (by decide +kernel) hM
    | with_reducible apply fr2_pair
    | split
    | dsimp -zeta only
def fm_ohClose : Nat := fm_unless_ ||| fm_persCue ||| fm_gccName
theorem State.ohClose_fr {M s0} (s : State) (x : PersEnv) (p : Nat) (b : List Nat) (hM : MaskLe fm_ohClose M) (hs : Fr M s0 s) : Fr M s0 (State.ohClose s x p b).2 := by
  unfold State.ohClose
  repeat' first
    | (intro x)
    | with_reducible first | assumption | apply State.unless__fr | apply State.persCue_fr | apply State.gccName_fr | apply fr2_ite | apply fr_each
    | (extract_lets +onlyGivenNames x; refine fr_cut x ?_ ?_; (on_goal 2 => dsimp only [x]); (on_goal 1 => clear_value x; intro hx))
    | (extract_lets +onlyGivenNames x; fail_if_success (have : State := x); clear_value x)
    | exact MaskLe.trans (by decide +kernel) hM
    | with_reducible apply fr2_pair
    | split
    | dsimp -zeta only
def fm_ohSelect : Nat := mFld OHQ_SEL_ch ||| mFld OHQ_SEL_dir
theorem State.ohSelect_fr {M s0} (s : State) (w : Who) (r dir i : Nat) (hM : MaskLe fm_ohSelect M) (hs : Fr M s0 s) : Fr M s0 (State.ohSelect s w r dir i) := by
  unfold State.ohSelect
  repeat' first
    | with_reducible first | assumption | apply State.wr_fr
    | (extract_lets +onlyGivenNames x; refine fr_cut x ?_ ?_; (on_goal 2 => dsimp only [x]); (on_goal 1 => clear_value x; intro hx))
    | (extract_lets +onlyGivenNames x; fail_if_success (have : State := x); clear_value x)
    | exact MaskLe.trans (by decide +kernel) hM
    | dsimp -zeta only
def fm_ohSend : Nat := fm_unless_ ||| fm_gv ||| fm_ohSelect ||| fm_ohqWrite
theorem State.ohSend_fr {M s0} (s : State) (p : Nat) (b : List Nat) (hM : MaskLe fm_ohSend M) (hs : Fr M s0 s) : Fr M s0 (State.ohSend s p b).2 := by
  unfold State.ohSend
  repeat' first
    | (intro x)
    | with_reducible first | assumption | apply State.unless__fr | apply State.gv_fr | apply State.ohSelect_fr | apply State.ohqWrite_fr | apply fr_each
    | (extract_lets +onlyGivenNames x; refine fr_cut x ?_ ?_; (on_goal 2 => dsimp only [x]); (on_goal 1 => clear_value x; intro hx))
    | (extract_lets +onlyGivenNames x; fail_if_success (have : State := x); clear_value x)
    | exact MaskLe.trans (by decide +kernel) hM
    | with_reducible apply fr2_pair
    | dsimp -zeta only
def fm_ohHeader : Nat := fm_ohqRead
theorem State.ohHeader_fr {M s0} (s : State) (w : Who) (r : Nat) (n : Nat) (hM : MaskLe fm_ohHeader M) (hs : Fr M s0 s) : Fr M s0 (State.ohHeader s w r n).2 := by
  induction n generalizing s with
  | zero => exact hs
  | succ n ih =>
  unfold State.ohHeader
  try dsimp -zeta only
  repeat' first
    | with_reducible first | assumption | apply State.ohqRead_fr | apply ih | apply fr2_ite
    | (extract_lets +onlyGivenNames x; refine fr_cut x ?_ ?_; (on_goal 2 => dsimp only [x]); (on_goal 1 => clear_value x; intro hx))
    | (extract_lets +onlyGivenNames x; fail_if_success (have : State := x); clear_value x)
    | exact MaskLe.trans (by decide +kernel) hM
    | with_reducible apply fr2_pair
    | split
    | dsimp -zeta only
def fm_ohData : Nat := fm_ohqRead
theorem State.ohData_fr {M s0} (s : State) (w : Who) (r : Nat) (n : Nat) (hM : MaskLe fm_ohData M) (hs : Fr M s0 s) : Fr M s0 (State.ohData s w r n).2 := by
  induction n generalizing s with
  | zero => exact hs
  | succ n ih =>
  unfold State.ohData
  try dsimp -zeta only
  repeat' first
    | with_reducible first | assumption | apply State.ohqRead_fr | apply ih
    | (extract_lets +onlyGivenNames x; refine fr_cut x ?_ ?_; (on_goal 2 => dsimp only [x]); (on_goal 1 => clear_value x; intro hx))
    | (extract_lets +onlyGivenNames x; fail_if_success (have : State := x); clear_value x)
    | exact MaskLe.trans (by decide +kernel) hM
    | with_reducible apply fr2_pair
    | split
    | dsimp -zeta only
def fm_ohReceive : Nat := fm_unless_ ||| fm_ohSelect ||| fm_ohHeader ||| fm_ohData ||| fm_gv
theorem State.ohReceive_fr {M s0} (s : State) (p : Nat) (b : List Nat) (hM : MaskLe fm_ohReceive M) (hs : Fr M s0 s) : Fr M s0 (State.ohReceive s p b).2 := by
  unfold State.ohReceive
  repeat' first
    | (intro x)
    | with_reducible first | assumption | apply State.unless__fr | apply State.ohSelect_fr | apply State.ohHeader_fr | apply State.ohData_fr | apply State.gv_fr
    | (extract_lets +onlyGivenNames x; refine fr_cut x ?_ ?_; (on_goal 2 => dsimp only [x]); (on_goal 1 => clear_value x; intro hx))
    | (extract_lets +onlyGivenNames x; fail_if_success (have : State := x); clear_value x)
    | exact MaskLe.trans (by decide +kernel) hM
    | with_reducible apply fr2_pair
    | split
    | dsimp -zeta only
def fm_almEntry : Nat := fm_free
theorem State.almEntry_fr {M s0} (s : State) (x : Nat × Nat × Nat × Option Nat) (hM : MaskLe fm_almEntry M) (hs : Fr M s0 s) : Fr M s0 (State.almEntry s x).2 := by
  unfold State.almEntry
  split
  rename_i t s1 h
  split at h
  · cases h; exact hs
  · have := State.free_fr s 48 (MaskLe.trans (by decide +kernel) hM) hs
    rw [h] at this; exact this
def fm_almList : Nat := fm_unless_ ||| fm_almEntry ||| fm_gv
theorem State.almList_fr {M s0} (s : State) (p : Nat) (b : List Nat) (hM : MaskLe fm_almList M) (hs : Fr M s0 s) : Fr M s0 (State.almList s p b).2 := by
  unfold State.almList
  repeat' first
    | (intro x)
    | with_reducible first | assumption | apply State.unless__fr | apply State.almEntry_fr | apply State.gv_fr | apply fr_foldl | apply fr_foldl2 | apply fr_foldl1
    | (extract_lets +onlyGivenNames x; refine fr_cut x ?_ ?_; (on_goal 2 => dsimp only [x]); (on_goal 1 => clear_value x; intro hx))
    | (extract_lets +onlyGivenNames x; fail_if_success (have : State := x); clear_value x)
    | exact MaskLe.trans (by decide +kernel) hM
    | with_reducible apply fr2_pair
    | split
    | dsimp -zeta only
def fm_almMaskSet : Nat := 2 ^ 120 ||| fm_unless_ ||| fm_gv
theorem State.almMaskSet_fr {M s0} (s : State) (p : Nat) (b : List Nat) (hM : MaskLe fm_almMaskSet M) (hs : Fr M s0 s) : Fr M s0 (State.almMaskSet s p b).2 := by
  unfold State.almMaskSet
  repeat' first
    | (intro x)
    | with_reducible first | assumption | apply State.unless__fr | apply State.gv_fr | apply fr2_ite
    | (extract_lets +onlyGivenNames x; refine fr_cut x ?_ ?_; (on_goal 2 => dsimp only [x]); (on_goal 1 => clear_value x; intro hx))
    | (extract_lets +onlyGivenNames x; fail_if_success (have : State := x); clear_value x)
    | exact MaskLe.trans (by decide +kernel) hM
    | (with_reducible refine fr_mk_almMask (MaskLe.trans (by decide +kernel) hM) ?_; first | with_reducible assumption | with_reducible apply State.unless__fr | with_reducible apply State.gv_fr)
    | with_reducible apply fr2_pair
    | split
    | dsimp -zeta only
def fm_timeGet : Nat := fm_gv
theorem State.timeGet_fr {M s0} (s : State) (hM : MaskLe fm_timeGet M) (hs : Fr M s0 s) : Fr M s0 (State.timeGet s).2 := by
  unfold State.timeGet
  repeat' first
    | with_reducible first | assumption | apply State.gv_fr
    | exact MaskLe.trans (by decide +kernel) hM
    | dsimp -zeta only
def fm_persServe : Nat := fm_devIdentity ||| fm_devStatus ||| fm_devReset ||| fm_laneSet ||| fm_laneGet ||| fm_ifSet ||| fm_loopback ||| fm_connAddMsg ||| fm_connModMsg ||| fm_connDelMsg ||| fm_connGetMsg ||| fm_pmCurrent ||| fm_pmHistory ||| fm_pmThresh ||| fm_pgAdd ||| fm_pgDelete ||| fm_pgCommand ||| fm_pgStatus ||| fm_ohOpen ||| fm_ohClose ||| fm_ohSend ||| fm_ohReceive ||| fm_almList ||| fm_almMaskSet ||| fm_timeGet ||| fm_gv
theorem State.persServe_fr {M s0} (s : State) (x : PersEnv) (p code : Nat) (b : List Nat) (frame : Option (List Nat × Nat)) (hM : MaskLe fm_persServe M) (hs : Fr M s0 s) : Fr M s0 (State.persServe s x p code b frame).2 := by
  unfold State.persServe
  repeat' first
    | with_reducible first | assumption | apply State.devIdentity_fr | apply State.devStatus_fr | apply State.devReset_fr | apply State.laneSet_fr | apply State.laneGet_fr | apply State.ifSet_fr | apply State.loopback_fr | apply State.connAddMsg_fr | apply State.connModMsg_fr | apply State.connDelMsg_fr | apply State.connGetMsg_fr | apply State.pmCurrent_fr | apply State.pmHistory_fr | apply State.pmThresh_fr | apply State.pgAdd_fr | apply State.pgDelete_fr | apply State.pgCommand_fr | apply State.pgStatus_fr | apply State.ohOpen_fr | apply State.ohClose_fr | apply State.ohSend_fr | apply State.ohReceive_fr | apply State.almList_fr | apply State.almMaskSet_fr | apply State.timeGet_fr | apply State.gv_fr
    | exact MaskLe.trans (by decide +kernel) hM
    | with_reducible apply fr2_pair
    | split
    | dsimp -zeta only
def fm_mailAnswer : Nat := fm_mbRespond
theorem State.mailAnswer_fr {M s0} (s : State) (n : Nat) (a : PersAns) (hM : MaskLe fm_mailAnswer M) (hs : Fr M s0 s) : Fr M s0 (State.mailAnswer s n a) := by
  unfold State.mailAnswer
  repeat' first
    | with_reducible first | assumption | apply State.mbRespond_fr
    | (extract_lets +onlyGivenNames x; refine fr_cut x ?_ ?_; (on_goal 2 => dsimp only [x]); (on_goal 1 => clear_value x; intro hx))
    | (extract_lets +onlyGivenNames x; fail_if_success (have : State := x); clear_value x)
    | exact MaskLe.trans (by decide +kernel) hM
    | with_reducible apply fr_pair
    | split
    | dsimp -zeta only
def fm_frameAnswer : Nat := fm_txStart_ ||| fm_txData
theorem State.frameAnswer_fr {M s0} (s : State) (q p code : Nat) (dst : List Nat × Nat) (a : PersAns) (hM : MaskLe fm_frameAnswer M) (hs : Fr M s0 s) : Fr M s0 (State.frameAnswer s q p code dst a) := by
  unfold State.frameAnswer
  repeat' first
    | (intro x)
    | with_reducible first | assumption | apply State.txStart__fr | apply State.txData_fr | apply fr_each
    | (extract_lets +onlyGivenNames x; refine fr_cut x ?_ ?_; (on_goal 2 => dsimp only [x]); (on_goal 1 => clear_value x; intro hx))
    | (extract_lets +onlyGivenNames x; fail_if_success (have : State := x); clear_value x)
    | exact MaskLe.trans (by decide +kernel) hM
    | with_reducible apply fr_pair
    | split
    | dsimp -zeta only
def fm_persMail : Nat := fm_persServe ||| fm_mailAnswer
theorem State.persMail_fr {M s0} (s : State) (x : PersEnv) (p code : Nat) (hM : MaskLe fm_persMail M) (hs : Fr M s0 s) : Fr M s0 (State.persMail s x p code) := by
  unfold State.persMail
  repeat' first
    | with_reducible first | assumption | apply State.persServe_fr | apply State.mailAnswer_fr | apply fr_ite
    | (extract_lets +onlyGivenNames x; refine fr_cut x ?_ ?_; (on_goal 2 => dsimp only [x]); (on_goal 1 => clear_value x; intro hx))
    | (extract_lets +onlyGivenNames x; fail_if_success (have : State := x); clear_value x)
    | exact MaskLe.trans (by decide +kernel) hM
    | with_reducible apply fr_pair
    | split
    | dsimp -zeta only
def fm_persFrame : Nat := 2 ^ 63 ||| 2 ^ 121 ||| fm_persServe ||| fm_frameAnswer
theorem State.persFrame_fr {M s0} (s : State) (x : PersEnv) (hM : MaskLe fm_persFrame M) (hs : Fr M s0 s) : Fr M s0 (State.persFrame s x) := by
  unfold State.persFrame
  split
  · exact hs
  · rename_i f rest e
    extract_lets b p code n s' dst
    have h1 : Fr M s0 s' := fr_mk_sdpRx1 (MaskLe.trans (by decide +kernel) hM) hs
    clear_value s'
    refine fr_ite (fr_mk_sdpBad (MaskLe.trans (by decide +kernel) hM) h1) (fr_ite ?_ hs)
    split
    rename_i a s2 h2
    have h3 := State.persServe_fr s' x p code ((List.drop 6 b).take n) (some dst) (MaskLe.trans (by decide +kernel) hM) h1
    rw [h2] at h3
    exact State.frameAnswer_fr _ _ _ _ _ _ (MaskLe.trans (by decide +kernel) hM) h3
def fm_persResetGo : Nat := fm_resetStep ||| fm_frameAnswer ||| fm_persMail
theorem State.persResetGo_fr {M s0} (s : State) (x : PersEnv) (p : Nat) (hM : MaskLe fm_persResetGo M) (hs : Fr M s0 s) : Fr M s0 (State.persResetGo s x p) := by
  unfold State.persResetGo
  repeat' first
    | with_reducible first | assumption | apply State.resetStep_fr | apply State.frameAnswer_fr | apply State.persMail_fr | apply fr_ite
    | (extract_lets +onlyGivenNames x; refine fr_cut x ?_ ?_; (on_goal 2 => dsimp only [x]); (on_goal 1 => clear_value x; intro hx))
    | (extract_lets +onlyGivenNames x; fail_if_success (have : State := x); clear_value x)
    | exact MaskLe.trans (by decide +kernel) hM
    | with_reducible apply fr_pair
    | split
    | dsimp -zeta only
def fm_pmBinServe : Nat := fm_mbRespond ||| fm_free
theorem State.pmBinServe_fr {M s0} (s : State) (op : Nat) (hM : MaskLe fm_pmBinServe M) (hs : Fr M s0 s) : Fr M s0 (State.pmBinServe s op) := by
  unfold State.pmBinServe
  repeat' first
    | with_reducible first | assumption | apply State.mbRespond_fr | apply State.free_fr | apply fr_ite
    | (extract_lets +onlyGivenNames x; refine fr_cut x ?_ ?_; (on_goal 2 => dsimp only [x]); (on_goal 1 => clear_value x; intro hx))
    | (extract_lets +onlyGivenNames x; fail_if_success (have : State := x); clear_value x)
    | exact MaskLe.trans (by decide +kernel) hM
    | with_reducible apply fr_pair
    | split
    | dsimp -zeta only
def fm_houseServe : Nat := fm_mbRespond
theorem State.houseServe_fr {M s0} (s : State) (op : Nat) (hM : MaskLe fm_houseServe M) (hs : Fr M s0 s) : Fr M s0 (State.houseServe s op) := by
  unfold State.houseServe
  repeat' first
    | with_reducible first | assumption | apply State.mbRespond_fr | apply fr_ite
    | exact MaskLe.trans (by decide +kernel) hM
    | split
    | dsimp -zeta only
theorem State.pageZero_fr {M s0} (s : State) (service op bit : Nat) (f : State → State) (k_f : ∀ s, Fr M s0 s → Fr M s0 (f s)) (hs : Fr M s0 s) : Fr M s0 (State.pageZero s service op bit f) := by
  unfold State.pageZero
  repeat' first
    | with_reducible first | assumption | apply k_f | apply fr_ite
    | split
    | dsimp -zeta only
def fm_mailServe : Nat := fm_serveTrust ||| fm_mbRespond ||| fm_pmBinServe ||| fm_houseServe ||| fm_persMail
theorem State.mailServe_fr {M s0} (s : State) (n : Nat) (t : TrustEnv) (x : PersEnv) (hM : MaskLe fm_mailServe M) (hs : Fr M s0 s) : Fr M s0 (State.mailServe s n t x) := by
  unfold State.mailServe
  repeat' first
    | with_reducible first | assumption | apply State.serveTrust_fr | apply State.mbRespond_fr | apply State.pmBinServe_fr | apply State.houseServe_fr | apply State.persMail_fr | apply fr_ite
    | (extract_lets +onlyGivenNames x; refine fr_cut x ?_ ?_; (on_goal 2 => dsimp only [x]); (on_goal 1 => clear_value x; intro hx))
    | (extract_lets +onlyGivenNames x; fail_if_success (have : State := x); clear_value x)
    | exact MaskLe.trans (by decide +kernel) hM
    | with_reducible apply fr_pair
    | split
    | dsimp -zeta only
def fm_tickRun : Nat := 2 ^ 4 ||| fm_sliceTick ||| fm_ctxTick ||| fm_intPin ||| fm_clockPins ||| fm_retrainEnd ||| fm_wingsSettle ||| fm_prtSettle ||| fm_fltSettle ||| fm_tbTick
theorem State.tickRun_fr {M s0} (s : State) (hM : MaskLe fm_tickRun M) (hs : Fr M s0 s) : Fr M s0 (State.tickRun s) := by
  unfold State.tickRun
  repeat' first
    | (intro x)
    | with_reducible first | assumption | apply State.sliceTick_fr | apply State.ctxTick_fr | apply State.intPin_fr | apply State.clockPins_fr | apply State.retrainEnd_fr | apply State.wingsSettle_fr | apply State.prtSettle_fr | apply State.fltSettle_fr | apply State.tbTick_fr | apply fr_each
    | (extract_lets +onlyGivenNames x; refine fr_cut x ?_ ?_; (on_goal 2 => dsimp only [x]); (on_goal 1 => clear_value x; intro hx))
    | (extract_lets +onlyGivenNames x; fail_if_success (have : State := x); clear_value x)
    | exact MaskLe.trans (by decide +kernel) hM
    | (with_reducible refine fr_mk_dpCycle (MaskLe.trans (by decide +kernel) hM) ?_; first | with_reducible assumption | with_reducible apply State.sliceTick_fr | with_reducible apply State.ctxTick_fr | with_reducible apply State.intPin_fr | with_reducible apply State.clockPins_fr | with_reducible apply State.retrainEnd_fr | with_reducible apply State.wingsSettle_fr | with_reducible apply State.prtSettle_fr | with_reducible apply State.fltSettle_fr | with_reducible apply State.tbTick_fr)
    | with_reducible apply fr_pair
    | dsimp -zeta only
def fm_aonTick : Nat := 2 ^ 79
theorem State.aonTick_fr {M s0} (s : State) (hM : MaskLe fm_aonTick M) (hs : Fr M s0 s) : Fr M s0 (State.aonTick s) := by
  unfold State.aonTick
  repeat' first
    | with_reducible first | assumption
    | exact MaskLe.trans (by decide +kernel) hM
    | (with_reducible refine fr_mk_door (MaskLe.trans (by decide +kernel) hM) ?_; first | with_reducible assumption)
    | dsimp -zeta only
def fm_tick : Nat := fm_aonTick ||| fm_tickRun ||| fm_fresh
theorem State.tick_fr {M s0} (s : State) (hM : MaskLe fm_tick M) (hs : Fr M s0 s) : Fr M s0 (State.tick s) := by
  unfold State.tick
  have h := State.fresh_fr s (MaskLe.trans (by decide +kernel) hM) hs
  refine fr_ite (State.aonTick_fr _ (MaskLe.trans (by decide +kernel) hM) (fr_pending (State.tickRun_fr _ (MaskLe.trans (by decide +kernel) hM) h) hs)) (State.aonTick_fr _ (MaskLe.trans (by decide +kernel) hM) h)

end Sys2Proof.Machine
end

