-- ==== Sys2Proof/Laws/Exec.lean ====
section
/-! SUPPORT. What each command may change: one law per command, and one for all (exec_fr). -/

namespace Sys2Proof.Machine

open Sys2Proof

set_option Elab.async false
set_option linter.all false

theorem MaskLe.refl (a : Nat) : MaskLe a a := Nat.or_self a

theorem done_fr {M s u t} (h : s.done u = .next t) (k : Fr M s u) : Fr M s t := by
  unfold State.done at h
  cases h
  exact fr_pending k (fr_refl M s)

theorem fresh_fr' {M} (s : State) (hM : MaskLe (2 ^ 1 ||| 2 ^ 2) M) : Fr M s s.fresh :=
  State.fresh_fr s hM (fr_refl M s)

theorem run_fr {M s t f} (hM : MaskLe (2 ^ 1 ||| 2 ^ 2) M) (k : ∀ x, Fr M s x → Fr M s (f x)) (h : run f s = .next t) : Fr M s t :=
  done_fr h (fr_ite (k _ (fresh_fr' s hM)) (fresh_fr' s hM))

theorem runAon_fr {M s t f} (hM : MaskLe (2 ^ 1 ||| 2 ^ 2) M) (k : ∀ x, Fr M s x → Fr M s (f x)) (h : runAon f s = .next t) : Fr M s t :=
  done_fr h (k _ (fresh_fr' s hM))

theorem runDark_fr {M s t f} (hM : MaskLe (2 ^ 1 ||| 2 ^ 2) M) (k : ∀ x, Fr M s x → Fr M s (f x)) (h : runDark f s = .next t) : Fr M s t :=
  done_fr h (fr_ite (k _ (fresh_fr' s hM)) (fresh_fr' s hM))

theorem runBus_fr {M s t f w pg b} (hM : MaskLe (2 ^ 1 ||| 2 ^ 2 ||| fm_via) M) (k : ∀ x, Fr M s x → Fr M s (f x))
    (h : runBus w pg b f s = .next t) : Fr M s t :=
  run_fr (MaskLe.trans (by decide +kernel) hM) (fun x hx => State.via_fr x w pg b f (MaskLe.trans (by decide +kernel) hM) k hx) h

theorem runRead_fr {M s t a f} (hM : MaskLe (2 ^ 1 ||| 2 ^ 2 ||| fm_via ||| fm_answer) M) (k : ∀ x, Fr M s x → Fr M s (f x).2)
    (h : runRead a f s = .next t) : Fr M s t := by
  refine runBus_fr (MaskLe.trans (by decide +kernel) hM) (fun x hx => ?_) h
  exact fr_ite (State.answer_fr _ _ _ (MaskLe.trans (by decide +kernel) hM) hx)
    (State.answer_fr _ _ _ (MaskLe.trans (by decide +kernel) hM) (k _ hx))

theorem runWrite_fr {M s t a f} (hM : MaskLe (2 ^ 1 ||| 2 ^ 2 ||| fm_via ||| fm_fullWrite) M) (k : ∀ x, Fr M s x → Fr M s (f x))
    (h : runWrite a f s = .next t) : Fr M s t :=
  runBus_fr (MaskLe.trans (by decide +kernel) hM)
    (fun x hx => State.fullWrite_fr x _ _ f (MaskLe.trans (by decide +kernel) hM) k hx) h

theorem runReg_fr {M s t x} (hM : MaskLe (2 ^ 1 ||| 2 ^ 2 ||| fm_via ||| fm_accessWrite ||| fm_answer) M)
    (h : runReg x s = .next t) : Fr M s t := by
  refine runBus_fr (MaskLe.trans (by decide +kernel) hM) (fun y hy => ?_) h
  exact State.answer_fr _ _ _ (MaskLe.trans (by decide +kernel) hM) (State.accessWrite_fr _ _ (MaskLe.trans (by decide +kernel) hM) hy)

def fm_execRegisterWrite : Nat := 2 ^ 1 ||| 2 ^ 2 ||| fm_via ||| fm_accessWrite ||| fm_answer
theorem execRegisterWrite_fr {M} (x : RegWrite) (s t' : State) (hM : MaskLe fm_execRegisterWrite M) (ht : execRegisterWrite x s = .next t') : Fr M s t' := by
  unfold execRegisterWrite at ht
  exact runReg_fr (MaskLe.trans (by decide +kernel) hM) ht
def fm_execPageCtrlWrite : Nat := 2 ^ 1 ||| 2 ^ 2 ||| fm_via ||| fm_fullWrite ||| fm_writeCtrl
theorem execPageCtrlWrite_fr {M} (a : RegAcc) (v : Nat) (s t' : State) (hM : MaskLe fm_execPageCtrlWrite M) (ht : execPageCtrlWrite a v s = .next t') : Fr M s t' := by
  unfold execPageCtrlWrite at ht
  refine runWrite_fr (MaskLe.trans (by decide +kernel) hM) (fun x hs => ?_) ht
  repeat' first
    | with_reducible first | assumption | apply State.writeCtrl_fr
    | exact MaskLe.trans (by decide +kernel) hM
    | dsimp -zeta only
def fm_execPageOwnerWrite : Nat := 2 ^ 1 ||| 2 ^ 2 ||| fm_via ||| fm_fullWrite ||| fm_writeOwner
theorem execPageOwnerWrite_fr {M} (a : RegAcc) (v : Nat) (s t' : State) (hM : MaskLe fm_execPageOwnerWrite M) (ht : execPageOwnerWrite a v s = .next t') : Fr M s t' := by
  unfold execPageOwnerWrite at ht
  refine runWrite_fr (MaskLe.trans (by decide +kernel) hM) (fun x hs => ?_) ht
  repeat' first
    | with_reducible first | assumption | apply State.writeOwner_fr
    | exact MaskLe.trans (by decide +kernel) hM
    | dsimp -zeta only
def fm_execEvtStatusRead : Nat := 2 ^ 1 ||| 2 ^ 2 ||| fm_via ||| fm_answer ||| fm_readEvents
theorem execEvtStatusRead_fr {M} (a : RegAcc) (s t' : State) (hM : MaskLe fm_execEvtStatusRead M) (ht : execEvtStatusRead a s = .next t') : Fr M s t' := by
  unfold execEvtStatusRead at ht
  refine runRead_fr (MaskLe.trans (by decide +kernel) hM) (fun x hs => ?_) ht
  repeat' first
    | with_reducible first | assumption | apply State.readEvents_fr
    | exact MaskLe.trans (by decide +kernel) hM
    | dsimp -zeta only
def fm_execEvtAckWrite : Nat := 2 ^ 1 ||| 2 ^ 2 ||| fm_via ||| fm_fullWrite ||| fm_ackEvents
theorem execEvtAckWrite_fr {M} (a : RegAcc) (v : Nat) (s t' : State) (hM : MaskLe fm_execEvtAckWrite M) (ht : execEvtAckWrite a v s = .next t') : Fr M s t' := by
  unfold execEvtAckWrite at ht
  refine runWrite_fr (MaskLe.trans (by decide +kernel) hM) (fun x hs => ?_) ht
  repeat' first
    | with_reducible first | assumption | apply State.ackEvents_fr
    | exact MaskLe.trans (by decide +kernel) hM
    | dsimp -zeta only
def fm_execEvtForceWrite : Nat := 2 ^ 1 ||| 2 ^ 2 ||| fm_via ||| fm_fullWrite ||| fm_forceEvents
theorem execEvtForceWrite_fr {M} (a : RegAcc) (v : Nat) (s t' : State) (hM : MaskLe fm_execEvtForceWrite M) (ht : execEvtForceWrite a v s = .next t') : Fr M s t' := by
  unfold execEvtForceWrite at ht
  refine runWrite_fr (MaskLe.trans (by decide +kernel) hM) (fun x hs => ?_) ht
  repeat' first
    | with_reducible first | assumption | apply State.forceEvents_fr
    | exact MaskLe.trans (by decide +kernel) hM
    | dsimp -zeta only
def fm_execVoteScrub : Nat := 2 ^ 1 ||| 2 ^ 2 ||| fm_scrub
theorem execVoteScrub_fr {M} (u : List Upset) (s t' : State) (hM : MaskLe fm_execVoteScrub M) (ht : execVoteScrub u s = .next t') : Fr M s t' := by
  unfold execVoteScrub at ht
  refine run_fr (MaskLe.trans (by decide +kernel) hM) (fun x hs => ?_) ht
  repeat' first
    | with_reducible first | assumption | apply State.scrub_fr
    | exact MaskLe.trans (by decide +kernel) hM
    | dsimp -zeta only
def fm_execLoRead : Nat := 2 ^ 1 ||| 2 ^ 2 ||| fm_via ||| fm_answer ||| fm_readReg
theorem execLoRead_fr {M} (a : RegAcc) (s t' : State) (hM : MaskLe fm_execLoRead M) (ht : execLoRead a s = .next t') : Fr M s t' := by
  unfold execLoRead at ht
  refine runRead_fr (MaskLe.trans (by decide +kernel) hM) (fun x hs => ?_) ht
  repeat' first
    | with_reducible first | assumption | apply State.readReg_fr
    | exact MaskLe.trans (by decide +kernel) hM
    | dsimp -zeta only
def fm_execLoWrite : Nat := 2 ^ 1 ||| 2 ^ 2 ||| fm_via ||| fm_accessWrite ||| fm_answer
theorem execLoWrite_fr {M} (a : RegAcc) (v : Nat) (s t' : State) (hM : MaskLe fm_execLoWrite M) (ht : execLoWrite a v s = .next t') : Fr M s t' := by
  unfold execLoWrite at ht
  exact runReg_fr (MaskLe.trans (by decide +kernel) hM) ht
def fm_execHiWrite : Nat := 2 ^ 1 ||| 2 ^ 2 ||| fm_via ||| fm_accessWrite ||| fm_answer
theorem execHiWrite_fr {M} (a : RegAcc) (v : Nat) (s t' : State) (hM : MaskLe fm_execHiWrite M) (ht : execHiWrite a v s = .next t') : Fr M s t' := by
  unfold execHiWrite at ht
  exact runReg_fr (MaskLe.trans (by decide +kernel) hM) ht
def fm_execIndAddrWrite : Nat := 2 ^ 1 ||| 2 ^ 2 ||| fm_via ||| fm_fullWrite ||| fm_indAddr
theorem execIndAddrWrite_fr {M} (a : RegAcc) (v : Nat) (s t' : State) (hM : MaskLe fm_execIndAddrWrite M) (ht : execIndAddrWrite a v s = .next t') : Fr M s t' := by
  unfold execIndAddrWrite at ht
  refine runWrite_fr (MaskLe.trans (by decide +kernel) hM) (fun x hs => ?_) ht
  repeat' first
    | with_reducible first | assumption | apply State.indAddr_fr
    | exact MaskLe.trans (by decide +kernel) hM
    | dsimp -zeta only
def fm_execIndData3Write : Nat := 2 ^ 1 ||| 2 ^ 2 ||| fm_via ||| fm_fullWrite ||| fm_indStore
theorem execIndData3Write_fr {M} (a : RegAcc) (v : Nat) (s t' : State) (hM : MaskLe fm_execIndData3Write M) (ht : execIndData3Write a v s = .next t') : Fr M s t' := by
  unfold execIndData3Write at ht
  refine runWrite_fr (MaskLe.trans (by decide +kernel) hM) (fun x hs => ?_) ht
  repeat' first
    | with_reducible first | assumption | apply State.indStore_fr
    | exact MaskLe.trans (by decide +kernel) hM
    | dsimp -zeta only
def fm_execIndData3Read : Nat := 2 ^ 1 ||| 2 ^ 2 ||| fm_via ||| fm_answer ||| fm_indRead
theorem execIndData3Read_fr {M} (a : RegAcc) (s t' : State) (hM : MaskLe fm_execIndData3Read M) (ht : execIndData3Read a s = .next t') : Fr M s t' := by
  unfold execIndData3Read at ht
  refine runRead_fr (MaskLe.trans (by decide +kernel) hM) (fun x hs => ?_) ht
  repeat' first
    | with_reducible first | assumption | apply State.indRead_fr
    | exact MaskLe.trans (by decide +kernel) hM
    | dsimp -zeta only
def fm_execCueGo : Nat := 2 ^ 1 ||| 2 ^ 2 ||| fm_via ||| fm_cueGo
theorem execCueGo_fr {M} (w : Who) (n : Nat) (bad : List (Nat × Nat × Nat)) (s t' : State) (hM : MaskLe fm_execCueGo M) (ht : execCueGo w n bad s = .next t') : Fr M s t' := by
  unfold execCueGo at ht
  refine runBus_fr (MaskLe.trans (by decide +kernel) hM) (fun x hs => ?_) ht
  repeat' first
    | with_reducible first | assumption | apply State.cueGo_fr
    | exact MaskLe.trans (by decide +kernel) hM
    | dsimp -zeta only
def fm_execCueRevert : Nat := 2 ^ 1 ||| 2 ^ 2 ||| fm_via ||| fm_cueRevert
theorem execCueRevert_fr {M} (w : Who) (n : Nat) (s t' : State) (hM : MaskLe fm_execCueRevert M) (ht : execCueRevert w n s = .next t') : Fr M s t' := by
  unfold execCueRevert at ht
  refine runBus_fr (MaskLe.trans (by decide +kernel) hM) (fun x hs => ?_) ht
  repeat' first
    | with_reducible first | assumption | apply State.cueRevert_fr
    | exact MaskLe.trans (by decide +kernel) hM
    | dsimp -zeta only
def fm_execCueImageCrc : Nat := 2 ^ 1 ||| 2 ^ 2 ||| fm_cueImageCrc
theorem execCueImageCrc_fr {M} (n : Nat) (s t' : State) (hM : MaskLe fm_execCueImageCrc M) (ht : execCueImageCrc n s = .next t') : Fr M s t' := by
  unfold execCueImageCrc at ht
  refine run_fr (MaskLe.trans (by decide +kernel) hM) (fun x hs => ?_) ht
  repeat' first
    | with_reducible first | assumption | apply State.cueImageCrc_fr
    | exact MaskLe.trans (by decide +kernel) hM
    | dsimp -zeta only
def fm_execCueCheckEnd : Nat := 2 ^ 1 ||| 2 ^ 2 ||| fm_cueCheckEnd
theorem execCueCheckEnd_fr {M} (n : Nat) (s t' : State) (hM : MaskLe fm_execCueCheckEnd M) (ht : execCueCheckEnd n s = .next t') : Fr M s t' := by
  unfold execCueCheckEnd at ht
  refine run_fr (MaskLe.trans (by decide +kernel) hM) (fun x hs => ?_) ht
  repeat' first
    | with_reducible first | assumption | apply State.cueCheckEnd_fr
    | exact MaskLe.trans (by decide +kernel) hM
    | dsimp -zeta only
def fm_execCueRowAdopt : Nat := 2 ^ 1 ||| 2 ^ 2 ||| fm_cueRowAdopt
theorem execCueRowAdopt_fr {M} (n : Nat) (x : AdoptRef) (s t' : State) (hM : MaskLe fm_execCueRowAdopt M) (ht : execCueRowAdopt n x s = .next t') : Fr M s t' := by
  unfold execCueRowAdopt at ht
  refine run_fr (MaskLe.trans (by decide +kernel) hM) (fun x hs => ?_) ht
  repeat' first
    | with_reducible first | assumption | apply State.cueRowAdopt_fr
    | exact MaskLe.trans (by decide +kernel) hM
    | dsimp -zeta only
def fm_execBlockRestart : Nat := 2 ^ 1 ||| 2 ^ 2 ||| fm_blockRestart ||| fm_report
theorem execBlockRestart_fr {M} (B : Nat) (cls : Nat) (s t' : State) (hM : MaskLe fm_execBlockRestart M) (ht : execBlockRestart B cls s = .next t') : Fr M s t' := by
  unfold execBlockRestart at ht
  refine run_fr (MaskLe.trans (by decide +kernel) hM) (fun x hs => ?_) ht
  repeat' first
    | with_reducible first | assumption | apply State.blockRestart_fr | apply State.report_fr | apply fr_ite | apply fr2_ite
    | exact MaskLe.trans (by decide +kernel) hM
    | split
    | dsimp -zeta only
def fm_execBlockRestartRelease : Nat := 2 ^ 1 ||| 2 ^ 2 ||| fm_restartInFrame
theorem execBlockRestartRelease_fr {M} (lead : Nat) (s t' : State) (hM : MaskLe fm_execBlockRestartRelease M) (ht : execBlockRestartRelease lead s = .next t') : Fr M s t' := by
  unfold execBlockRestartRelease at ht
  refine run_fr (MaskLe.trans (by decide +kernel) hM) (fun x hs => ?_) ht
  repeat' first
    | with_reducible first | assumption | apply State.restartInFrame_fr
    | exact MaskLe.trans (by decide +kernel) hM
    | dsimp -zeta only
def fm_execBlockRestartTimeout : Nat := 2 ^ 1 ||| 2 ^ 2 ||| fm_restartTimeout
theorem execBlockRestartTimeout_fr {M} (lead : Nat) (s t' : State) (hM : MaskLe fm_execBlockRestartTimeout M) (ht : execBlockRestartTimeout lead s = .next t') : Fr M s t' := by
  unfold execBlockRestartTimeout at ht
  refine run_fr (MaskLe.trans (by decide +kernel) hM) (fun x hs => ?_) ht
  repeat' first
    | with_reducible first | assumption | apply State.restartTimeout_fr
    | exact MaskLe.trans (by decide +kernel) hM
    | dsimp -zeta only
def fm_execAdaptationDone : Nat := 2 ^ 1 ||| 2 ^ 2 ||| fm_updCheck ||| fm_adaptDone
theorem execAdaptationDone_fr {M} (n : Nat) (s t' : State) (hM : MaskLe fm_execAdaptationDone M) (ht : execAdaptationDone n s = .next t') : Fr M s t' := by
  unfold execAdaptationDone at ht
  refine run_fr (MaskLe.trans (by decide +kernel) hM) (fun x hs => ?_) ht
  repeat' first
    | with_reducible first | assumption | apply State.updCheck_fr | apply State.adaptDone_fr
    | exact MaskLe.trans (by decide +kernel) hM
    | dsimp -zeta only
def fm_execLlnTxFirWrite : Nat := 2 ^ 1 ||| 2 ^ 2 ||| fm_writeFir1
theorem execLlnTxFirWrite_fr {M} (n : Nat) (v : Nat) (s t' : State) (hM : MaskLe fm_execLlnTxFirWrite M) (ht : execLlnTxFirWrite n v s = .next t') : Fr M s t' := by
  unfold execLlnTxFirWrite at ht
  refine run_fr (MaskLe.trans (by decide +kernel) hM) (fun x hs => ?_) ht
  repeat' first
    | with_reducible first | assumption | apply State.writeFir1_fr
    | exact MaskLe.trans (by decide +kernel) hM
    | dsimp -zeta only
def fm_execLlnRxEqWrite : Nat := 2 ^ 1 ||| 2 ^ 2 ||| fm_writeRxEq
theorem execLlnRxEqWrite_fr {M} (n : Nat) (v : Nat) (s t' : State) (hM : MaskLe fm_execLlnRxEqWrite M) (ht : execLlnRxEqWrite n v s = .next t') : Fr M s t' := by
  unfold execLlnRxEqWrite at ht
  refine run_fr (MaskLe.trans (by decide +kernel) hM) (fun x hs => ?_) ht
  repeat' first
    | with_reducible first | assumption | apply State.writeRxEq_fr
    | exact MaskLe.trans (by decide +kernel) hM
    | dsimp -zeta only
def fm_execTrialStart : Nat := 2 ^ 1 ||| 2 ^ 2 ||| fm_trialStart
theorem execTrialStart_fr {M} (B : Nat) (elapsed : Nat) (s t' : State) (hM : MaskLe fm_execTrialStart M) (ht : execTrialStart B elapsed s = .next t') : Fr M s t' := by
  unfold execTrialStart at ht
  refine run_fr (MaskLe.trans (by decide +kernel) hM) (fun x hs => ?_) ht
  repeat' first
    | with_reducible first | assumption | apply State.trialStart_fr
    | exact MaskLe.trans (by decide +kernel) hM
    | dsimp -zeta only
def fm_execTrialDwellEnd : Nat := 2 ^ 1 ||| 2 ^ 2 ||| fm_trialDwellEnd
theorem execTrialDwellEnd_fr {M} (n : Nat) (s t' : State) (hM : MaskLe fm_execTrialDwellEnd M) (ht : execTrialDwellEnd n s = .next t') : Fr M s t' := by
  unfold execTrialDwellEnd at ht
  refine run_fr (MaskLe.trans (by decide +kernel) hM) (fun x hs => ?_) ht
  repeat' first
    | with_reducible first | assumption | apply State.trialDwellEnd_fr
    | exact MaskLe.trans (by decide +kernel) hM
    | dsimp -zeta only
def fm_execCodewordDecode : Nat := 2 ^ 1 ||| 2 ^ 2 ||| fm_codewordDecode
theorem execCodewordDecode_fr {M} (n : Nat) (x : CwRx) (m : Option LinePtp) (s t' : State) (hM : MaskLe fm_execCodewordDecode M) (ht : execCodewordDecode n x m s = .next t') : Fr M s t' := by
  unfold execCodewordDecode at ht
  refine run_fr (MaskLe.trans (by decide +kernel) hM) (fun x hs => ?_) ht
  repeat' first
    | with_reducible first | assumption | apply State.codewordDecode_fr
    | exact MaskLe.trans (by decide +kernel) hM
    | dsimp -zeta only
def fm_execFecSnap : Nat := 2 ^ 1 ||| 2 ^ 2 ||| fm_fecSnap
theorem execFecSnap_fr {M} (n : Nat) (s t' : State) (hM : MaskLe fm_execFecSnap M) (ht : execFecSnap n s = .next t') : Fr M s t' := by
  unfold execFecSnap at ht
  refine run_fr (MaskLe.trans (by decide +kernel) hM) (fun x hs => ?_) ht
  repeat' first
    | with_reducible first | assumption | apply State.fecSnap_fr
    | exact MaskLe.trans (by decide +kernel) hM
    | dsimp -zeta only
def fm_execLos : Nat := 2 ^ 1 ||| 2 ^ 2 ||| fm_lineLos ||| fm_fybryLos
theorem execLos_fr {M} (l : LaneRef) (s t' : State) (hM : MaskLe fm_execLos M) (ht : execLos l s = .next t') : Fr M s t' := by
  unfold execLos at ht
  refine run_fr (MaskLe.trans (by decide +kernel) hM) (fun x hs => ?_) ht
  repeat' first
    | with_reducible first | assumption | apply State.lineLos_fr | apply State.fybryLos_fr
    | exact MaskLe.trans (by decide +kernel) hM
    | split
    | dsimp -zeta only
def fm_execSignalDetect : Nat := 2 ^ 1 ||| 2 ^ 2 ||| fm_lineSignal ||| fm_fybrySignal
theorem execSignalDetect_fr {M} (l : LaneRef) (s t' : State) (hM : MaskLe fm_execSignalDetect M) (ht : execSignalDetect l s = .next t') : Fr M s t' := by
  unfold execSignalDetect at ht
  refine run_fr (MaskLe.trans (by decide +kernel) hM) (fun x hs => ?_) ht
  repeat' first
    | with_reducible first | assumption | apply State.lineSignal_fr | apply State.fybrySignal_fr
    | exact MaskLe.trans (by decide +kernel) hM
    | split
    | dsimp -zeta only
def fm_execCdrUnlock : Nat := 2 ^ 1 ||| 2 ^ 2 ||| fm_lineCdrUnlock
theorem execCdrUnlock_fr {M} (n : Nat) (s t' : State) (hM : MaskLe fm_execCdrUnlock M) (ht : execCdrUnlock n s = .next t') : Fr M s t' := by
  unfold execCdrUnlock at ht
  refine run_fr (MaskLe.trans (by decide +kernel) hM) (fun x hs => ?_) ht
  repeat' first
    | with_reducible first | assumption | apply State.lineCdrUnlock_fr
    | exact MaskLe.trans (by decide +kernel) hM
    | dsimp -zeta only
def fm_execCwLock : Nat := 2 ^ 1 ||| 2 ^ 2 ||| fm_cwLock
theorem execCwLock_fr {M} (n : Nat) (s t' : State) (hM : MaskLe fm_execCwLock M) (ht : execCwLock n s = .next t') : Fr M s t' := by
  unfold execCwLock at ht
  refine run_fr (MaskLe.trans (by decide +kernel) hM) (fun x hs => ?_) ht
  repeat' first
    | with_reducible first | assumption | apply State.cwLock_fr
    | exact MaskLe.trans (by decide +kernel) hM
    | dsimp -zeta only
def fm_execCwUnlock : Nat := 2 ^ 1 ||| 2 ^ 2 ||| fm_cwUnlock
theorem execCwUnlock_fr {M} (n : Nat) (lost : Nat) (s t' : State) (hM : MaskLe fm_execCwUnlock M) (ht : execCwUnlock n lost s = .next t') : Fr M s t' := by
  unfold execCwUnlock at ht
  refine run_fr (MaskLe.trans (by decide +kernel) hM) (fun x hs => ?_) ht
  repeat' first
    | with_reducible first | assumption | apply State.cwUnlock_fr
    | exact MaskLe.trans (by decide +kernel) hM
    | dsimp -zeta only
def fm_execDeskewMeasure : Nat := 2 ^ 1 ||| 2 ^ 2 ||| fm_deskew
theorem execDeskewMeasure_fr {M} (n : Nat) (lags : List Nat) (s t' : State) (hM : MaskLe fm_execDeskewMeasure M) (ht : execDeskewMeasure n lags s = .next t') : Fr M s t' := by
  unfold execDeskewMeasure at ht
  refine run_fr (MaskLe.trans (by decide +kernel) hM) (fun x hs => ?_) ht
  repeat' first
    | with_reducible first | assumption | apply State.deskew_fr
    | exact MaskLe.trans (by decide +kernel) hM
    | dsimp -zeta only
def fm_execPrbsLock : Nat := 2 ^ 1 ||| 2 ^ 2 ||| fm_linePrbs ||| fm_fybryPrbs
theorem execPrbsLock_fr {M} (l : LaneRef) (levels : List Nat) (s t' : State) (hM : MaskLe fm_execPrbsLock M) (ht : execPrbsLock l levels s = .next t') : Fr M s t' := by
  unfold execPrbsLock at ht
  refine run_fr (MaskLe.trans (by decide +kernel) hM) (fun x hs => ?_) ht
  repeat' first
    | with_reducible first | assumption | apply State.linePrbs_fr | apply State.fybryPrbs_fr
    | exact MaskLe.trans (by decide +kernel) hM
    | split
    | dsimp -zeta only
def fm_execPrbsLockLost : Nat := 2 ^ 1 ||| 2 ^ 2 ||| fm_linePrbs ||| fm_fybryPrbs
theorem execPrbsLockLost_fr {M} (l : LaneRef) (levels : List Nat) (s t' : State) (hM : MaskLe fm_execPrbsLockLost M) (ht : execPrbsLockLost l levels s = .next t') : Fr M s t' := by
  unfold execPrbsLockLost at ht
  refine run_fr (MaskLe.trans (by decide +kernel) hM) (fun x hs => ?_) ht
  repeat' first
    | with_reducible first | assumption | apply State.linePrbs_fr | apply State.fybryPrbs_fr
    | exact MaskLe.trans (by decide +kernel) hM
    | split
    | dsimp -zeta only
def fm_execPrbsInject : Nat := 2 ^ 1 ||| 2 ^ 2 ||| fm_prbsInject
theorem execPrbsInject_fr {M} (n : Nat) (s t' : State) (hM : MaskLe fm_execPrbsInject M) (ht : execPrbsInject n s = .next t') : Fr M s t' := by
  unfold execPrbsInject at ht
  refine run_fr (MaskLe.trans (by decide +kernel) hM) (fun x hs => ?_) ht
  repeat' first
    | with_reducible first | assumption | apply State.prbsInject_fr
    | exact MaskLe.trans (by decide +kernel) hM
    | dsimp -zeta only
def fm_execFlexoFrame : Nat := 2 ^ 1 ||| 2 ^ 2 ||| fm_flexoFrame
theorem execFlexoFrame_fr {M} (d : Nat) (f : FlexoFrame) (s t' : State) (hM : MaskLe fm_execFlexoFrame M) (ht : execFlexoFrame d f s = .next t') : Fr M s t' := by
  unfold execFlexoFrame at ht
  refine run_fr (MaskLe.trans (by decide +kernel) hM) (fun x hs => ?_) ht
  repeat' first
    | with_reducible first | assumption | apply State.flexoFrame_fr
    | exact MaskLe.trans (by decide +kernel) hM
    | dsimp -zeta only
def fm_execOtucFrame : Nat := 2 ^ 1 ||| 2 ^ 2 ||| fm_otucFrame
theorem execOtucFrame_fr {M} (d : Nat) (f : OtucFrame) (s t' : State) (hM : MaskLe fm_execOtucFrame M) (ht : execOtucFrame d f s = .next t') : Fr M s t' := by
  unfold execOtucFrame at ht
  refine run_fr (MaskLe.trans (by decide +kernel) hM) (fun x hs => ?_) ht
  repeat' first
    | with_reducible first | assumption | apply State.otucFrame_fr
    | exact MaskLe.trans (by decide +kernel) hM
    | dsimp -zeta only
def fm_execLofOn : Nat := 2 ^ 1 ||| 2 ^ 2 ||| fm_lofOn
theorem execLofOn_fr {M} (d : Nat) (s t' : State) (hM : MaskLe fm_execLofOn M) (ht : execLofOn d s = .next t') : Fr M s t' := by
  unfold execLofOn at ht
  refine run_fr (MaskLe.trans (by decide +kernel) hM) (fun x hs => ?_) ht
  repeat' first
    | with_reducible first | assumption | apply State.lofOn_fr
    | exact MaskLe.trans (by decide +kernel) hM
    | dsimp -zeta only
def fm_execLofOff : Nat := 2 ^ 1 ||| 2 ^ 2 ||| fm_lofOff
theorem execLofOff_fr {M} (d : Nat) (s t' : State) (hM : MaskLe fm_execLofOff M) (ht : execLofOff d s = .next t') : Fr M s t' := by
  unfold execLofOff at ht
  refine run_fr (MaskLe.trans (by decide +kernel) hM) (fun x hs => ?_) ht
  repeat' first
    | with_reducible first | assumption | apply State.lofOff_fr
    | exact MaskLe.trans (by decide +kernel) hM
    | dsimp -zeta only
def fm_execLomOn : Nat := 2 ^ 1 ||| 2 ^ 2 ||| fm_lomOn
theorem execLomOn_fr {M} (d : Nat) (s t' : State) (hM : MaskLe fm_execLomOn M) (ht : execLomOn d s = .next t') : Fr M s t' := by
  unfold execLomOn at ht
  refine run_fr (MaskLe.trans (by decide +kernel) hM) (fun x hs => ?_) ht
  repeat' first
    | with_reducible first | assumption | apply State.lomOn_fr
    | exact MaskLe.trans (by decide +kernel) hM
    | dsimp -zeta only
def fm_execLomOff : Nat := 2 ^ 1 ||| 2 ^ 2 ||| fm_lomOff
theorem execLomOff_fr {M} (d : Nat) (s t' : State) (hM : MaskLe fm_execLomOff M) (ht : execLomOff d s = .next t') : Fr M s t' := by
  unfold execLomOff at ht
  refine run_fr (MaskLe.trans (by decide +kernel) hM) (fun x hs => ?_) ht
  repeat' first
    | with_reducible first | assumption | apply State.lomOff_fr
    | exact MaskLe.trans (by decide +kernel) hM
    | dsimp -zeta only
def fm_execDlomCnOn : Nat := 2 ^ 1 ||| 2 ^ 2 ||| fm_dlomCnOn
theorem execDlomCnOn_fr {M} (lead : Nat) (s t' : State) (hM : MaskLe fm_execDlomCnOn M) (ht : execDlomCnOn lead s = .next t') : Fr M s t' := by
  unfold execDlomCnOn at ht
  refine run_fr (MaskLe.trans (by decide +kernel) hM) (fun x hs => ?_) ht
  repeat' first
    | with_reducible first | assumption | apply State.dlomCnOn_fr
    | exact MaskLe.trans (by decide +kernel) hM
    | dsimp -zeta only
def fm_execDlomCnOff : Nat := 2 ^ 1 ||| 2 ^ 2 ||| fm_dlomCnOff
theorem execDlomCnOff_fr {M} (lead : Nat) (s t' : State) (hM : MaskLe fm_execDlomCnOff M) (ht : execDlomCnOff lead s = .next t') : Fr M s t' := by
  unfold execDlomCnOff at ht
  refine run_fr (MaskLe.trans (by decide +kernel) hM) (fun x hs => ?_) ht
  repeat' first
    | with_reducible first | assumption | apply State.dlomCnOff_fr
    | exact MaskLe.trans (by decide +kernel) hM
    | dsimp -zeta only
def fm_execBondEnter : Nat := 2 ^ 1 ||| 2 ^ 2 ||| fm_bondEnter
theorem execBondEnter_fr {M} (d : Nat) (s t' : State) (hM : MaskLe fm_execBondEnter M) (ht : execBondEnter d s = .next t') : Fr M s t' := by
  unfold execBondEnter at ht
  refine run_fr (MaskLe.trans (by decide +kernel) hM) (fun x hs => ?_) ht
  repeat' first
    | with_reducible first | assumption | apply State.bondEnter_fr
    | exact MaskLe.trans (by decide +kernel) hM
    | dsimp -zeta only
def fm_execOtucTxFrame : Nat := 2 ^ 1 ||| 2 ^ 2 ||| fm_otucTxFrame
theorem execOtucTxFrame_fr {M} (lead : Nat) (x : OtucTx) (s t' : State) (hM : MaskLe fm_execOtucTxFrame M) (ht : execOtucTxFrame lead x s = .next t') : Fr M s t' := by
  unfold execOtucTxFrame at ht
  refine run_fr (MaskLe.trans (by decide +kernel) hM) (fun x hs => ?_) ht
  repeat' first
    | with_reducible first | assumption | apply State.otucTxFrame_fr
    | exact MaskLe.trans (by decide +kernel) hM
    | dsimp -zeta only
def fm_execCorruptFas : Nat := 2 ^ 1 ||| 2 ^ 2 ||| fm_corruptFas
theorem execCorruptFas_fr {M} (d : Nat) (s t' : State) (hM : MaskLe fm_execCorruptFas M) (ht : execCorruptFas d s = .next t') : Fr M s t' := by
  unfold execCorruptFas at ht
  refine run_fr (MaskLe.trans (by decide +kernel) hM) (fun x hs => ?_) ht
  repeat' first
    | with_reducible first | assumption | apply State.corruptFas_fr
    | exact MaskLe.trans (by decide +kernel) hM
    | dsimp -zeta only
def fm_execOduFrameSink : Nat := 2 ^ 1 ||| 2 ^ 2 ||| fm_oduFrameSink
theorem execOduFrameSink_fr {M} (B : Nat) (e : Nat) (f : OduFrame) (s t' : State) (hM : MaskLe fm_execOduFrameSink M) (ht : execOduFrameSink B e f s = .next t') : Fr M s t' := by
  unfold execOduFrameSink at ht
  refine run_fr (MaskLe.trans (by decide +kernel) hM) (fun x hs => ?_) ht
  repeat' first
    | with_reducible first | assumption | apply State.oduFrameSink_fr
    | exact MaskLe.trans (by decide +kernel) hM
    | dsimp -zeta only
def fm_execDloflomOn : Nat := 2 ^ 1 ||| 2 ^ 2 ||| fm_dloflomOn
theorem execDloflomOn_fr {M} (B : Nat) (e : Nat) (omfi : Bool) (s t' : State) (hM : MaskLe fm_execDloflomOn M) (ht : execDloflomOn B e omfi s = .next t') : Fr M s t' := by
  unfold execDloflomOn at ht
  refine run_fr (MaskLe.trans (by decide +kernel) hM) (fun x hs => ?_) ht
  repeat' first
    | with_reducible first | assumption | apply State.dloflomOn_fr
    | exact MaskLe.trans (by decide +kernel) hM
    | dsimp -zeta only
def fm_execDloflomOff : Nat := 2 ^ 1 ||| 2 ^ 2 ||| fm_dloflomOff
theorem execDloflomOff_fr {M} (B : Nat) (e : Nat) (omfi : Bool) (s t' : State) (hM : MaskLe fm_execDloflomOff M) (ht : execDloflomOff B e omfi s = .next t') : Fr M s t' := by
  unfold execDloflomOff at ht
  refine run_fr (MaskLe.trans (by decide +kernel) hM) (fun x hs => ?_) ht
  repeat' first
    | with_reducible first | assumption | apply State.dloflomOff_fr
    | exact MaskLe.trans (by decide +kernel) hM
    | dsimp -zeta only
def fm_execOduFrameSource : Nat := 2 ^ 1 ||| 2 ^ 2 ||| fm_oduFrameSource
theorem execOduFrameSource_fr {M} (B : Nat) (e : Nat) (x : OduTx) (s t' : State) (hM : MaskLe fm_execOduFrameSource M) (ht : execOduFrameSource B e x s = .next t') : Fr M s t' := by
  unfold execOduFrameSource at ht
  refine run_fr (MaskLe.trans (by decide +kernel) hM) (fun x hs => ?_) ht
  repeat' first
    | with_reducible first | assumption | apply State.oduFrameSource_fr
    | exact MaskLe.trans (by decide +kernel) hM
    | dsimp -zeta only
def fm_execContextForcedAis : Nat := 2 ^ 1 ||| 2 ^ 2 ||| fm_forcedAis
theorem execContextForcedAis_fr {M} (B : Nat) (dir : Nat) (e : Nat) (s t' : State) (hM : MaskLe fm_execContextForcedAis M) (ht : execContextForcedAis B dir e s = .next t') : Fr M s t' := by
  unfold execContextForcedAis at ht
  refine run_fr (MaskLe.trans (by decide +kernel) hM) (fun x hs => ?_) ht
  repeat' first
    | with_reducible first | assumption | apply State.forcedAis_fr
    | exact MaskLe.trans (by decide +kernel) hM
    | dsimp -zeta only
def fm_execSecondBoundary : Nat := 2 ^ 1 ||| 2 ^ 2 ||| fm_secondBoundary
theorem execSecondBoundary_fr {M}  (s t' : State) (hM : MaskLe fm_execSecondBoundary M) (ht : execSecondBoundary  s = .next t') : Fr M s t' := by
  unfold execSecondBoundary at ht
  refine run_fr (MaskLe.trans (by decide +kernel) hM) (fun x hs => ?_) ht
  repeat' first
    | with_reducible first | assumption | apply State.secondBoundary_fr
    | exact MaskLe.trans (by decide +kernel) hM
    | dsimp -zeta only
def fm_execPmSecond : Nat := 2 ^ 1 ||| 2 ^ 2 ||| fm_pmSecond
theorem execPmSecond_fr {M}  (s t' : State) (hM : MaskLe fm_execPmSecond M) (ht : execPmSecond  s = .next t') : Fr M s t' := by
  unfold execPmSecond at ht
  refine run_fr (MaskLe.trans (by decide +kernel) hM) (fun x hs => ?_) ht
  repeat' first
    | with_reducible first | assumption | apply State.pmSecond_fr
    | exact MaskLe.trans (by decide +kernel) hM
    | dsimp -zeta only
def fm_execEpisodeChange : Nat := 2 ^ 1 ||| 2 ^ 2 ||| fm_episodeChange
theorem execEpisodeChange_fr {M} (r : Nat) (s t' : State) (hM : MaskLe fm_execEpisodeChange M) (ht : execEpisodeChange r s = .next t') : Fr M s t' := by
  unfold execEpisodeChange at ht
  refine run_fr (MaskLe.trans (by decide +kernel) hM) (fun x hs => ?_) ht
  repeat' first
    | with_reducible first | assumption | apply State.episodeChange_fr
    | exact MaskLe.trans (by decide +kernel) hM
    | dsimp -zeta only
def fm_execAggregatedOff : Nat := 2 ^ 1 ||| 2 ^ 2 ||| fm_aggregatedOff
theorem execAggregatedOff_fr {M} (r : Nat) (s t' : State) (hM : MaskLe fm_execAggregatedOff M) (ht : execAggregatedOff r s = .next t') : Fr M s t' := by
  unfold execAggregatedOff at ht
  refine run_fr (MaskLe.trans (by decide +kernel) hM) (fun x hs => ?_) ht
  repeat' first
    | with_reducible first | assumption | apply State.aggregatedOff_fr
    | exact MaskLe.trans (by decide +kernel) hM
    | dsimp -zeta only
def fm_execGmpMapPeriod : Nat := 2 ^ 1 ||| 2 ^ 2 ||| fm_gmpMapPeriod
theorem execGmpMapPeriod_fr {M} (B : Nat) (e : Nat) (mux : Bool) (data : List Nat) (s t' : State) (hM : MaskLe fm_execGmpMapPeriod M) (ht : execGmpMapPeriod B e mux data s = .next t') : Fr M s t' := by
  unfold execGmpMapPeriod at ht
  refine run_fr (MaskLe.trans (by decide +kernel) hM) (fun x hs => ?_) ht
  repeat' first
    | with_reducible first | assumption | apply State.gmpMapPeriod_fr
    | exact MaskLe.trans (by decide +kernel) hM
    | dsimp -zeta only
def fm_execGmpDemapPeriod : Nat := 2 ^ 1 ||| 2 ^ 2 ||| fm_gmpDemapPeriod
theorem execGmpDemapPeriod_fr {M} (B : Nat) (e : Nat) (mux : Bool) (rx : GmpRx) (s t' : State) (hM : MaskLe fm_execGmpDemapPeriod M) (ht : execGmpDemapPeriod B e mux rx s = .next t') : Fr M s t' := by
  unfold execGmpDemapPeriod at ht
  refine run_fr (MaskLe.trans (by decide +kernel) hM) (fun x hs => ?_) ht
  repeat' first
    | with_reducible first | assumption | apply State.gmpDemapPeriod_fr
    | exact MaskLe.trans (by decide +kernel) hM
    | dsimp -zeta only
def fm_execAmpJustify : Nat := 2 ^ 1 ||| 2 ^ 2 ||| fm_ampJustify
theorem execAmpJustify_fr {M} (B : Nat) (e : Nat) (data : List Nat) (s t' : State) (hM : MaskLe fm_execAmpJustify M) (ht : execAmpJustify B e data s = .next t') : Fr M s t' := by
  unfold execAmpJustify at ht
  refine run_fr (MaskLe.trans (by decide +kernel) hM) (fun x hs => ?_) ht
  repeat' first
    | with_reducible first | assumption | apply State.ampJustify_fr
    | exact MaskLe.trans (by decide +kernel) hM
    | dsimp -zeta only
def fm_execAmpDemuxPeriod : Nat := 2 ^ 1 ||| 2 ^ 2 ||| fm_ampDemux
theorem execAmpDemuxPeriod_fr {M} (B : Nat) (e : Nat) (jc : List Nat) (data : List Nat) (serverOff : Int) (s t' : State) (hM : MaskLe fm_execAmpDemuxPeriod M) (ht : execAmpDemuxPeriod B e jc data serverOff s = .next t') : Fr M s t' := by
  unfold execAmpDemuxPeriod at ht
  refine run_fr (MaskLe.trans (by decide +kernel) hM) (fun x hs => ?_) ht
  repeat' first
    | with_reducible first | assumption | apply State.ampDemux_fr
    | exact MaskLe.trans (by decide +kernel) hM
    | dsimp -zeta only
def fm_execImpBlock : Nat := 2 ^ 1 ||| 2 ^ 2 ||| fm_impBlock ||| fm_refreshTxLf ||| fm_linePtp
theorem execImpBlock_fr {M} (c : CliRef) (p : ImpPeriod) (m : Option LinePtp) (s t' : State) (hM : MaskLe fm_execImpBlock M) (ht : execImpBlock c p m s = .next t') : Fr M s t' := by
  unfold execImpBlock at ht
  refine run_fr (MaskLe.trans (by decide +kernel) hM) (fun x hs => ?_) ht
  repeat' first
    | with_reducible first | assumption | apply State.impBlock_fr | apply State.refreshTxLf_fr | apply State.linePtp_fr | apply fr_ite | apply fr2_ite
    | exact MaskLe.trans (by decide +kernel) hM
    | (extract_lets +onlyGivenNames x; refine fr_cut x ?_ ?_; (on_goal 2 => dsimp only [x]); (on_goal 1 => clear_value x; intro hx))
    | (extract_lets +onlyGivenNames x; fail_if_success (have : State := x); clear_value x)
    | with_reducible apply fr2_pair
    | with_reducible apply fr_pair
    | split
    | dsimp -zeta only
def fm_execCrateOff : Nat := 2 ^ 1 ||| 2 ^ 2 ||| fm_crateOff
theorem execCrateOff_fr {M} (c : CliRef) (s t' : State) (hM : MaskLe fm_execCrateOff M) (ht : execCrateOff c s = .next t') : Fr M s t' := by
  unfold execCrateOff at ht
  refine run_fr (MaskLe.trans (by decide +kernel) hM) (fun x hs => ?_) ht
  repeat' first
    | with_reducible first | assumption | apply State.crateOff_fr
    | exact MaskLe.trans (by decide +kernel) hM
    | dsimp -zeta only
def fm_execRateHold : Nat := 2 ^ 1 ||| 2 ^ 2 ||| fm_rateHold
theorem execRateHold_fr {M} (B : Nat) (e : Nat) (s t' : State) (hM : MaskLe fm_execRateHold M) (ht : execRateHold B e s = .next t') : Fr M s t' := by
  unfold execRateHold at ht
  refine run_fr (MaskLe.trans (by decide +kernel) hM) (fun x hs => ?_) ht
  repeat' first
    | with_reducible first | assumption | apply State.rateHold_fr
    | exact MaskLe.trans (by decide +kernel) hM
    | dsimp -zeta only
def fm_execRateHoldEnd : Nat := 2 ^ 1 ||| 2 ^ 2 ||| fm_rateHoldEnd
theorem execRateHoldEnd_fr {M} (B : Nat) (e : Nat) (s t' : State) (hM : MaskLe fm_execRateHoldEnd M) (ht : execRateHoldEnd B e s = .next t') : Fr M s t' := by
  unfold execRateHoldEnd at ht
  refine run_fr (MaskLe.trans (by decide +kernel) hM) (fun x hs => ?_) ht
  repeat' first
    | with_reducible first | assumption | apply State.rateHoldEnd_fr
    | exact MaskLe.trans (by decide +kernel) hM
    | dsimp -zeta only
def fm_execClosOn : Nat := 2 ^ 1 ||| 2 ^ 2 ||| fm_closOn
theorem execClosOn_fr {M} (c : CliRef) (s t' : State) (hM : MaskLe fm_execClosOn M) (ht : execClosOn c s = .next t') : Fr M s t' := by
  unfold execClosOn at ht
  refine run_fr (MaskLe.trans (by decide +kernel) hM) (fun x hs => ?_) ht
  repeat' first
    | with_reducible first | assumption | apply State.closOn_fr
    | exact MaskLe.trans (by decide +kernel) hM
    | dsimp -zeta only
def fm_execClosOff : Nat := 2 ^ 1 ||| 2 ^ 2 ||| fm_closOff
theorem execClosOff_fr {M} (c : CliRef) (s t' : State) (hM : MaskLe fm_execClosOff M) (ht : execClosOff c s = .next t') : Fr M s t' := by
  unfold execClosOff at ht
  refine run_fr (MaskLe.trans (by decide +kernel) hM) (fun x hs => ?_) ht
  repeat' first
    | with_reducible first | assumption | apply State.closOff_fr
    | exact MaskLe.trans (by decide +kernel) hM
    | dsimp -zeta only
def fm_execClfChange : Nat := 2 ^ 1 ||| 2 ^ 2 ||| fm_clfChange
theorem execClfChange_fr {M} (c : CliRef) (on : Bool) (s t' : State) (hM : MaskLe fm_execClfChange M) (ht : execClfChange c on s = .next t') : Fr M s t' := by
  unfold execClfChange at ht
  refine run_fr (MaskLe.trans (by decide +kernel) hM) (fun x hs => ?_) ht
  repeat' first
    | with_reducible first | assumption | apply State.clfChange_fr
    | exact MaskLe.trans (by decide +kernel) hM
    | dsimp -zeta only
def fm_execCrfChange : Nat := 2 ^ 1 ||| 2 ^ 2 ||| fm_crfChange
theorem execCrfChange_fr {M} (c : CliRef) (on : Bool) (s t' : State) (hM : MaskLe fm_execCrfChange M) (ht : execCrfChange c on s = .next t') : Fr M s t' := by
  unfold execCrfChange at ht
  refine run_fr (MaskLe.trans (by decide +kernel) hM) (fun x hs => ?_) ht
  repeat' first
    | with_reducible first | assumption | apply State.crfChange_fr
    | exact MaskLe.trans (by decide +kernel) hM
    | dsimp -zeta only
def fm_execSuspectHoldEnd : Nat := 2 ^ 1 ||| 2 ^ 2 ||| fm_suspectHoldEnd
theorem execSuspectHoldEnd_fr {M} (c : CliRef) (s t' : State) (hM : MaskLe fm_execSuspectHoldEnd M) (ht : execSuspectHoldEnd c s = .next t') : Fr M s t' := by
  unfold execSuspectHoldEnd at ht
  refine run_fr (MaskLe.trans (by decide +kernel) hM) (fun x hs => ?_) ht
  repeat' first
    | with_reducible first | assumption | apply State.suspectHoldEnd_fr
    | exact MaskLe.trans (by decide +kernel) hM
    | dsimp -zeta only
def fm_execLegStatusChange : Nat := 2 ^ 1 ||| 2 ^ 2 ||| fm_prtSettle ||| fm_legChange
theorem execLegStatusChange_fr {M} (G : Nat) (leg : Nat) (s t' : State) (hM : MaskLe fm_execLegStatusChange M) (ht : execLegStatusChange G leg s = .next t') : Fr M s t' := by
  unfold execLegStatusChange at ht
  refine run_fr (MaskLe.trans (by decide +kernel) hM) (fun x hs => ?_) ht
  repeat' first
    | with_reducible first | assumption | apply State.prtSettle_fr | apply State.legChange_fr
    | exact MaskLe.trans (by decide +kernel) hM
    | dsimp -zeta only
def fm_execHoldOffExpiry : Nat := 2 ^ 1 ||| 2 ^ 2 ||| fm_prtSettle ||| fm_holdOffExpiry
theorem execHoldOffExpiry_fr {M} (G : Nat) (leg : Nat) (s t' : State) (hM : MaskLe fm_execHoldOffExpiry M) (ht : execHoldOffExpiry G leg s = .next t') : Fr M s t' := by
  unfold execHoldOffExpiry at ht
  refine run_fr (MaskLe.trans (by decide +kernel) hM) (fun x hs => ?_) ht
  repeat' first
    | with_reducible first | assumption | apply State.prtSettle_fr | apply State.holdOffExpiry_fr
    | exact MaskLe.trans (by decide +kernel) hM
    | dsimp -zeta only
def fm_execWtrExpiry : Nat := 2 ^ 1 ||| 2 ^ 2 ||| fm_prtSettle ||| fm_wtrExpiry
theorem execWtrExpiry_fr {M} (G : Nat) (s t' : State) (hM : MaskLe fm_execWtrExpiry M) (ht : execWtrExpiry G s = .next t') : Fr M s t' := by
  unfold execWtrExpiry at ht
  refine run_fr (MaskLe.trans (by decide +kernel) hM) (fun x hs => ?_) ht
  repeat' first
    | with_reducible first | assumption | apply State.prtSettle_fr | apply State.wtrExpiry_fr
    | exact MaskLe.trans (by decide +kernel) hM
    | dsimp -zeta only
def fm_execConfirmationExpiry : Nat := 2 ^ 1 ||| 2 ^ 2 ||| fm_prtSettle ||| fm_confirmExpiry
theorem execConfirmationExpiry_fr {M} (G : Nat) (s t' : State) (hM : MaskLe fm_execConfirmationExpiry M) (ht : execConfirmationExpiry G s = .next t') : Fr M s t' := by
  unfold execConfirmationExpiry at ht
  refine run_fr (MaskLe.trans (by decide +kernel) hM) (fun x hs => ?_) ht
  repeat' first
    | with_reducible first | assumption | apply State.prtSettle_fr | apply State.confirmExpiry_fr
    | exact MaskLe.trans (by decide +kernel) hM
    | dsimp -zeta only
def fm_execBridgeChangeApply : Nat := 2 ^ 1 ||| 2 ^ 2 ||| fm_bridgeApply
theorem execBridgeChangeApply_fr {M} (r : Nat) (i : Nat) (s t' : State) (hM : MaskLe fm_execBridgeChangeApply M) (ht : execBridgeChangeApply r i s = .next t') : Fr M s t' := by
  unfold execBridgeChangeApply at ht
  refine run_fr (MaskLe.trans (by decide +kernel) hM) (fun x hs => ?_) ht
  repeat' first
    | with_reducible first | assumption | apply State.bridgeApply_fr
    | exact MaskLe.trans (by decide +kernel) hM
    | dsimp -zeta only
def fm_execClr : Nat := 2 ^ 1 ||| 2 ^ 2 ||| fm_prtOp
theorem execClr_fr {M} (w : Who) (G : Nat) (s t' : State) (hM : MaskLe fm_execClr M) (ht : execClr w G s = .next t') : Fr M s t' := by
  unfold execClr at ht
  refine run_fr (MaskLe.trans (by decide +kernel) hM) (fun x hs => ?_) ht
  repeat' first
    | with_reducible first | assumption | apply State.prtOp_fr
    | exact MaskLe.trans (by decide +kernel) hM
    | dsimp -zeta only
def fm_execLo : Nat := 2 ^ 1 ||| 2 ^ 2 ||| fm_prtOp
theorem execLo_fr {M} (w : Who) (G : Nat) (s t' : State) (hM : MaskLe fm_execLo M) (ht : execLo w G s = .next t') : Fr M s t' := by
  unfold execLo at ht
  refine run_fr (MaskLe.trans (by decide +kernel) hM) (fun x hs => ?_) ht
  repeat' first
    | with_reducible first | assumption | apply State.prtOp_fr
    | exact MaskLe.trans (by decide +kernel) hM
    | dsimp -zeta only
def fm_execFs : Nat := 2 ^ 1 ||| 2 ^ 2 ||| fm_prtOp
theorem execFs_fr {M} (w : Who) (G : Nat) (s t' : State) (hM : MaskLe fm_execFs M) (ht : execFs w G s = .next t') : Fr M s t' := by
  unfold execFs at ht
  refine run_fr (MaskLe.trans (by decide +kernel) hM) (fun x hs => ?_) ht
  repeat' first
    | with_reducible first | assumption | apply State.prtOp_fr
    | exact MaskLe.trans (by decide +kernel) hM
    | dsimp -zeta only
def fm_execMs : Nat := 2 ^ 1 ||| 2 ^ 2 ||| fm_prtOp
theorem execMs_fr {M} (w : Who) (G : Nat) (s t' : State) (hM : MaskLe fm_execMs M) (ht : execMs w G s = .next t') : Fr M s t' := by
  unfold execMs at ht
  refine run_fr (MaskLe.trans (by decide +kernel) hM) (fun x hs => ?_) ht
  repeat' first
    | with_reducible first | assumption | apply State.prtOp_fr
    | exact MaskLe.trans (by decide +kernel) hM
    | dsimp -zeta only
def fm_execMsW : Nat := 2 ^ 1 ||| 2 ^ 2 ||| fm_prtOp
theorem execMsW_fr {M} (w : Who) (G : Nat) (s t' : State) (hM : MaskLe fm_execMsW M) (ht : execMsW w G s = .next t') : Fr M s t' := by
  unfold execMsW at ht
  refine run_fr (MaskLe.trans (by decide +kernel) hM) (fun x hs => ?_) ht
  repeat' first
    | with_reducible first | assumption | apply State.prtOp_fr
    | exact MaskLe.trans (by decide +kernel) hM
    | dsimp -zeta only
def fm_execExer : Nat := 2 ^ 1 ||| 2 ^ 2 ||| fm_prtOp
theorem execExer_fr {M} (w : Who) (G : Nat) (s t' : State) (hM : MaskLe fm_execExer M) (ht : execExer w G s = .next t') : Fr M s t' := by
  unfold execExer at ht
  refine run_fr (MaskLe.trans (by decide +kernel) hM) (fun x hs => ?_) ht
  repeat' first
    | with_reducible first | assumption | apply State.prtOp_fr
    | exact MaskLe.trans (by decide +kernel) hM
    | dsimp -zeta only
def fm_execSetSel : Nat := 2 ^ 1 ||| 2 ^ 2 ||| fm_prtOp
theorem execSetSel_fr {M} (w : Who) (G : Nat) (s t' : State) (hM : MaskLe fm_execSetSel M) (ht : execSetSel w G s = .next t') : Fr M s t' := by
  unfold execSetSel at ht
  refine run_fr (MaskLe.trans (by decide +kernel) hM) (fun x hs => ?_) ht
  repeat' first
    | with_reducible first | assumption | apply State.prtOp_fr
    | exact MaskLe.trans (by decide +kernel) hM
    | dsimp -zeta only
def fm_execSetBridge : Nat := 2 ^ 1 ||| 2 ^ 2 ||| fm_prtOp
theorem execSetBridge_fr {M} (w : Who) (G : Nat) (s t' : State) (hM : MaskLe fm_execSetBridge M) (ht : execSetBridge w G s = .next t') : Fr M s t' := by
  unfold execSetBridge at ht
  refine run_fr (MaskLe.trans (by decide +kernel) hM) (fun x hs => ?_) ht
  repeat' first
    | with_reducible first | assumption | apply State.prtOp_fr
    | exact MaskLe.trans (by decide +kernel) hM
    | dsimp -zeta only
def fm_execSetAps : Nat := 2 ^ 1 ||| 2 ^ 2 ||| fm_prtOp
theorem execSetAps_fr {M} (w : Who) (G : Nat) (s t' : State) (hM : MaskLe fm_execSetAps M) (ht : execSetAps w G s = .next t') : Fr M s t' := by
  unfold execSetAps at ht
  refine run_fr (MaskLe.trans (by decide +kernel) hM) (fun x hs => ?_) ht
  repeat' first
    | with_reducible first | assumption | apply State.prtOp_fr
    | exact MaskLe.trans (by decide +kernel) hM
    | dsimp -zeta only
def fm_execSetAll : Nat := 2 ^ 1 ||| 2 ^ 2 ||| fm_prtOp
theorem execSetAll_fr {M} (w : Who) (G : Nat) (s t' : State) (hM : MaskLe fm_execSetAll M) (ht : execSetAll w G s = .next t') : Fr M s t' := by
  unfold execSetAll at ht
  refine run_fr (MaskLe.trans (by decide +kernel) hM) (fun x hs => ?_) ht
  repeat' first
    | with_reducible first | assumption | apply State.prtOp_fr
    | exact MaskLe.trans (by decide +kernel) hM
    | dsimp -zeta only
def fm_execAckSfp : Nat := 2 ^ 1 ||| 2 ^ 2 ||| fm_prtOp
theorem execAckSfp_fr {M} (w : Who) (G : Nat) (s t' : State) (hM : MaskLe fm_execAckSfp M) (ht : execAckSfp w G s = .next t') : Fr M s t' := by
  unfold execAckSfp at ht
  refine run_fr (MaskLe.trans (by decide +kernel) hM) (fun x hs => ?_) ht
  repeat' first
    | with_reducible first | assumption | apply State.prtOp_fr
    | exact MaskLe.trans (by decide +kernel) hM
    | dsimp -zeta only
def fm_execPrtNoteRead : Nat := 2 ^ 1 ||| 2 ^ 2 ||| fm_via ||| fm_takeNotice ||| fm_answer ||| fm_latchHi
theorem execPrtNoteRead_fr {M} (w : Who) (s t' : State) (hM : MaskLe fm_execPrtNoteRead M) (ht : execPrtNoteRead w s = .next t') : Fr M s t' := by
  unfold execPrtNoteRead at ht
  refine runBus_fr (MaskLe.trans (by decide +kernel) hM) (fun x hs => ?_) ht
  repeat' first
    | with_reducible first | assumption | apply State.takeNotice_fr | apply State.answer_fr | apply State.latchHi_fr | apply fr_ite | apply fr2_ite
    | exact MaskLe.trans (by decide +kernel) hM
    | (intro x)
    | (extract_lets +onlyGivenNames x; refine fr_cut x ?_ ?_; (on_goal 2 => dsimp only [x]); (on_goal 1 => clear_value x; intro hx))
    | (extract_lets +onlyGivenNames x; fail_if_success (have : State := x); clear_value x)
    | with_reducible apply fr2_pair
    | with_reducible apply fr_pair
    | split
    | dsimp -zeta only
def fm_execApsMessageReceive : Nat := 2 ^ 1 ||| 2 ^ 2 ||| fm_apsReceive
theorem execApsMessageReceive_fr {M} (a : Nat) (msg : Nat) (s t' : State) (hM : MaskLe fm_execApsMessageReceive M) (ht : execApsMessageReceive a msg s = .next t') : Fr M s t' := by
  unfold execApsMessageReceive at ht
  refine run_fr (MaskLe.trans (by decide +kernel) hM) (fun x hs => ?_) ht
  repeat' first
    | with_reducible first | assumption | apply State.apsReceive_fr
    | exact MaskLe.trans (by decide +kernel) hM
    | dsimp -zeta only
def fm_execApsAgeScan : Nat := 2 ^ 1 ||| 2 ^ 2 ||| fm_apsAgeScan
theorem execApsAgeScan_fr {M}  (s t' : State) (hM : MaskLe fm_execApsAgeScan M) (ht : execApsAgeScan  s = .next t') : Fr M s t' := by
  unfold execApsAgeScan at ht
  refine run_fr (MaskLe.trans (by decide +kernel) hM) (fun x hs => ?_) ht
  repeat' first
    | with_reducible first | assumption | apply State.apsAgeScan_fr
    | exact MaskLe.trans (by decide +kernel) hM
    | dsimp -zeta only
def fm_execDfopNr : Nat := 2 ^ 1 ||| 2 ^ 2 ||| fm_dfopNr
theorem execDfopNr_fr {M} (a : Nat) (s t' : State) (hM : MaskLe fm_execDfopNr M) (ht : execDfopNr a s = .next t') : Fr M s t' := by
  unfold execDfopNr at ht
  refine run_fr (MaskLe.trans (by decide +kernel) hM) (fun x hs => ?_) ht
  repeat' first
    | with_reducible first | assumption | apply State.dfopNr_fr
    | exact MaskLe.trans (by decide +kernel) hM
    | dsimp -zeta only
def fm_execStampInstance : Nat := 2 ^ 1 ||| 2 ^ 2 ||| fm_stampInstance
theorem execStampInstance_fr {M} (B : Nat) (e : Nat) (g : StampGroup) (s t' : State) (hM : MaskLe fm_execStampInstance M) (ht : execStampInstance B e g s = .next t') : Fr M s t' := by
  unfold execStampInstance at ht
  refine run_fr (MaskLe.trans (by decide +kernel) hM) (fun x hs => ?_) ht
  repeat' first
    | with_reducible first | assumption | apply State.stampInstance_fr
    | exact MaskLe.trans (by decide +kernel) hM
    | dsimp -zeta only
def fm_execWingsGroupStart : Nat := 2 ^ 1 ||| 2 ^ 2 ||| fm_wingsSettle ||| fm_wingsGroupStart
theorem execWingsGroupStart_fr {M} (w : Nat) (leg : Nat) (F : Nat) (s t' : State) (hM : MaskLe fm_execWingsGroupStart M) (ht : execWingsGroupStart w leg F s = .next t') : Fr M s t' := by
  unfold execWingsGroupStart at ht
  refine run_fr (MaskLe.trans (by decide +kernel) hM) (fun x hs => ?_) ht
  repeat' first
    | with_reducible first | assumption | apply State.wingsSettle_fr | apply State.wingsGroupStart_fr
    | exact MaskLe.trans (by decide +kernel) hM
    | dsimp -zeta only
def fm_execPlayoutAdvance : Nat := 2 ^ 1 ||| 2 ^ 2 ||| fm_wingsSettle ||| fm_playoutAdvance
theorem execPlayoutAdvance_fr {M} (w : Nat) (u : HbmUse) (s t' : State) (hM : MaskLe fm_execPlayoutAdvance M) (ht : execPlayoutAdvance w u s = .next t') : Fr M s t' := by
  unfold execPlayoutAdvance at ht
  refine run_fr (MaskLe.trans (by decide +kernel) hM) (fun x hs => ?_) ht
  repeat' first
    | with_reducible first | assumption | apply State.wingsSettle_fr | apply State.playoutAdvance_fr
    | exact MaskLe.trans (by decide +kernel) hM
    | dsimp -zeta only
def fm_execSlotGrant : Nat := 2 ^ 1 ||| 2 ^ 2 ||| fm_slotGrant
theorem execSlotGrant_fr {M}  (s t' : State) (hM : MaskLe fm_execSlotGrant M) (ht : execSlotGrant  s = .next t') : Fr M s t' := by
  unfold execSlotGrant at ht
  refine run_fr (MaskLe.trans (by decide +kernel) hM) (fun x hs => ?_) ht
  repeat' first
    | with_reducible first | assumption | apply State.slotGrant_fr
    | exact MaskLe.trans (by decide +kernel) hM
    | dsimp -zeta only
def fm_execOverRecover : Nat := 2 ^ 1 ||| 2 ^ 2 ||| fm_overRecover
theorem execOverRecover_fr {M} (w : Nat) (s t' : State) (hM : MaskLe fm_execOverRecover M) (ht : execOverRecover w s = .next t') : Fr M s t' := by
  unfold execOverRecover at ht
  refine run_fr (MaskLe.trans (by decide +kernel) hM) (fun x hs => ?_) ht
  repeat' first
    | with_reducible first | assumption | apply State.overRecover_fr
    | exact MaskLe.trans (by decide +kernel) hM
    | dsimp -zeta only
def fm_execHbmRetrainPc : Nat := 2 ^ 1 ||| 2 ^ 2 ||| fm_retrainPc
theorem execHbmRetrainPc_fr {M} (k : Nat) (late : Bool) (s t' : State) (hM : MaskLe fm_execHbmRetrainPc M) (ht : execHbmRetrainPc k late s = .next t') : Fr M s t' := by
  unfold execHbmRetrainPc at ht
  refine run_fr (MaskLe.trans (by decide +kernel) hM) (fun x hs => ?_) ht
  repeat' first
    | with_reducible first | assumption | apply State.retrainPc_fr
    | exact MaskLe.trans (by decide +kernel) hM
    | dsimp -zeta only
def fm_execStackFail : Nat := 2 ^ 1 ||| 2 ^ 2 ||| fm_stackFail
theorem execStackFail_fr {M} (k : Nat) (clock : Bool) (s t' : State) (hM : MaskLe fm_execStackFail M) (ht : execStackFail k clock s = .next t') : Fr M s t' := by
  unfold execStackFail at ht
  refine run_fr (MaskLe.trans (by decide +kernel) hM) (fun x hs => ?_) ht
  repeat' first
    | with_reducible first | assumption | apply State.stackFail_fr
    | exact MaskLe.trans (by decide +kernel) hM
    | dsimp -zeta only
def fm_execGroupFallback : Nat := 2 ^ 1 ||| 2 ^ 2 ||| fm_groupFallback
theorem execGroupFallback_fr {M} (k : Nat) (s t' : State) (hM : MaskLe fm_execGroupFallback M) (ht : execGroupFallback k s = .next t') : Fr M s t' := by
  unfold execGroupFallback at ht
  refine run_fr (MaskLe.trans (by decide +kernel) hM) (fun x hs => ?_) ht
  repeat' first
    | with_reducible first | assumption | apply State.groupFallback_fr
    | exact MaskLe.trans (by decide +kernel) hM
    | dsimp -zeta only
def fm_execHbmRestore : Nat := 2 ^ 1 ||| 2 ^ 2 ||| fm_hbmRestore
theorem execHbmRestore_fr {M} (k : Nat) (s t' : State) (hM : MaskLe fm_execHbmRestore M) (ht : execHbmRestore k s = .next t') : Fr M s t' := by
  unfold execHbmRestore at ht
  refine run_fr (MaskLe.trans (by decide +kernel) hM) (fun x hs => ?_) ht
  repeat' first
    | with_reducible first | assumption | apply State.hbmRestore_fr
    | exact MaskLe.trans (by decide +kernel) hM
    | dsimp -zeta only
def fm_execAckFail : Nat := 2 ^ 1 ||| 2 ^ 2 ||| fm_ackFail
theorem execAckFail_fr {M} (w : Nat) (s t' : State) (hM : MaskLe fm_execAckFail M) (ht : execAckFail w s = .next t') : Fr M s t' := by
  unfold execAckFail at ht
  refine run_fr (MaskLe.trans (by decide +kernel) hM) (fun x hs => ?_) ht
  repeat' first
    | with_reducible first | assumption | apply State.ackFail_fr
    | exact MaskLe.trans (by decide +kernel) hM
    | dsimp -zeta only
def fm_execFybryAdaptationDone : Nat := 2 ^ 1 ||| 2 ^ 2 ||| fm_updCheck ||| fm_fylAdaptDone
theorem execFybryAdaptationDone_fr {M} (m : Nat) (s t' : State) (hM : MaskLe fm_execFybryAdaptationDone M) (ht : execFybryAdaptationDone m s = .next t') : Fr M s t' := by
  unfold execFybryAdaptationDone at ht
  refine run_fr (MaskLe.trans (by decide +kernel) hM) (fun x hs => ?_) ht
  repeat' first
    | with_reducible first | assumption | apply State.updCheck_fr | apply State.fylAdaptDone_fr
    | exact MaskLe.trans (by decide +kernel) hM
    | dsimp -zeta only
def fm_execFylTxEqWrite : Nat := 2 ^ 1 ||| 2 ^ 2 ||| fm_writeFyTap
theorem execFylTxEqWrite_fr {M} (m : Nat) (k : Nat) (v : Nat) (s t' : State) (hM : MaskLe fm_execFylTxEqWrite M) (ht : execFylTxEqWrite m k v s = .next t') : Fr M s t' := by
  unfold execFylTxEqWrite at ht
  refine run_fr (MaskLe.trans (by decide +kernel) hM) (fun x hs => ?_) ht
  repeat' first
    | with_reducible first | assumption | apply State.writeFyTap_fr
    | exact MaskLe.trans (by decide +kernel) hM
    | dsimp -zeta only
def fm_execMarkerLock : Nat := 2 ^ 1 ||| 2 ^ 2 ||| fm_updCheck ||| fm_markerLock
theorem execMarkerLock_fr {M} (m : Nat) (k : Nat) (x : Marker) (s t' : State) (hM : MaskLe fm_execMarkerLock M) (ht : execMarkerLock m k x s = .next t') : Fr M s t' := by
  unfold execMarkerLock at ht
  refine run_fr (MaskLe.trans (by decide +kernel) hM) (fun x hs => ?_) ht
  repeat' first
    | with_reducible first | assumption | apply State.updCheck_fr | apply State.markerLock_fr
    | exact MaskLe.trans (by decide +kernel) hM
    | dsimp -zeta only
def fm_execMarkerLockLost : Nat := 2 ^ 1 ||| 2 ^ 2 ||| fm_markerLost
theorem execMarkerLockLost_fr {M} (m : Nat) (k : Nat) (s t' : State) (hM : MaskLe fm_execMarkerLockLost M) (ht : execMarkerLockLost m k s = .next t') : Fr M s t' := by
  unfold execMarkerLockLost at ht
  refine run_fr (MaskLe.trans (by decide +kernel) hM) (fun x hs => ?_) ht
  repeat' first
    | with_reducible first | assumption | apply State.markerLost_fr
    | exact MaskLe.trans (by decide +kernel) hM
    | dsimp -zeta only
def fm_execSegmentReceive : Nat := 2 ^ 1 ||| 2 ^ 2 ||| fm_segmentReceive
theorem execSegmentReceive_fr {M} (m : Nat) (x : SegRx) (s t' : State) (hM : MaskLe fm_execSegmentReceive M) (ht : execSegmentReceive m x s = .next t') : Fr M s t' := by
  unfold execSegmentReceive at ht
  refine run_fr (MaskLe.trans (by decide +kernel) hM) (fun x hs => ?_) ht
  repeat' first
    | with_reducible first | assumption | apply State.segmentReceive_fr
    | exact MaskLe.trans (by decide +kernel) hM
    | dsimp -zeta only
def fm_execSegmentSlot : Nat := 2 ^ 1 ||| 2 ^ 2 ||| fm_segmentSlot
theorem execSegmentSlot_fr {M} (m : Nat) (s t' : State) (hM : MaskLe fm_execSegmentSlot M) (ht : execSegmentSlot m s = .next t') : Fr M s t' := by
  unfold execSegmentSlot at ht
  refine run_fr (MaskLe.trans (by decide +kernel) hM) (fun x hs => ?_) ht
  repeat' first
    | with_reducible first | assumption | apply State.segmentSlot_fr
    | exact MaskLe.trans (by decide +kernel) hM
    | dsimp -zeta only
def fm_execSegmentComplete : Nat := 2 ^ 1 ||| 2 ^ 2 ||| fm_segmentComplete
theorem execSegmentComplete_fr {M} (r : Nat) (i : Nat) (d : SegDone) (s t' : State) (hM : MaskLe fm_execSegmentComplete M) (ht : execSegmentComplete r i d s = .next t') : Fr M s t' := by
  unfold execSegmentComplete at ht
  refine run_fr (MaskLe.trans (by decide +kernel) hM) (fun x hs => ?_) ht
  repeat' first
    | with_reducible first | assumption | apply State.segmentComplete_fr
    | exact MaskLe.trans (by decide +kernel) hM
    | dsimp -zeta only
def fm_execReorderTimeout : Nat := 2 ^ 1 ||| 2 ^ 2 ||| fm_reorderTimeout
theorem execReorderTimeout_fr {M} (r : Nat) (i : Nat) (s t' : State) (hM : MaskLe fm_execReorderTimeout M) (ht : execReorderTimeout r i s = .next t') : Fr M s t' := by
  unfold execReorderTimeout at ht
  refine run_fr (MaskLe.trans (by decide +kernel) hM) (fun x hs => ?_) ht
  repeat' first
    | with_reducible first | assumption | apply State.reorderTimeout_fr
    | exact MaskLe.trans (by decide +kernel) hM
    | dsimp -zeta only
def fm_execFlowAbsent : Nat := 2 ^ 1 ||| 2 ^ 2 ||| fm_flowAbsent
theorem execFlowAbsent_fr {M} (r : Nat) (i : Nat) (s t' : State) (hM : MaskLe fm_execFlowAbsent M) (ht : execFlowAbsent r i s = .next t') : Fr M s t' := by
  unfold execFlowAbsent at ht
  refine run_fr (MaskLe.trans (by decide +kernel) hM) (fun x hs => ?_) ht
  repeat' first
    | with_reducible first | assumption | apply State.flowAbsent_fr
    | exact MaskLe.trans (by decide +kernel) hM
    | dsimp -zeta only
def fm_execLinkFail : Nat := 2 ^ 1 ||| 2 ^ 2 ||| fm_linkFail
theorem execLinkFail_fr {M} (m : Nat) (c : FailCause) (s t' : State) (hM : MaskLe fm_execLinkFail M) (ht : execLinkFail m c s = .next t') : Fr M s t' := by
  unfold execLinkFail at ht
  refine run_fr (MaskLe.trans (by decide +kernel) hM) (fun x hs => ?_) ht
  repeat' first
    | with_reducible first | assumption | apply State.linkFail_fr
    | exact MaskLe.trans (by decide +kernel) hM
    | dsimp -zeta only
def fm_execFylFail : Nat := 2 ^ 1 ||| 2 ^ 2 ||| fm_failLink
theorem execFylFail_fr {M} (m : Nat) (s t' : State) (hM : MaskLe fm_execFylFail M) (ht : execFylFail m s = .next t') : Fr M s t' := by
  unfold execFylFail at ht
  refine run_fr (MaskLe.trans (by decide +kernel) hM) (fun x hs => ?_) ht
  repeat' first
    | with_reducible first | assumption | apply State.failLink_fr
    | exact MaskLe.trans (by decide +kernel) hM
    | dsimp -zeta only
def fm_execFylRestore : Nat := 2 ^ 1 ||| 2 ^ 2 ||| fm_restoreLink
theorem execFylRestore_fr {M} (m : Nat) (s t' : State) (hM : MaskLe fm_execFylRestore M) (ht : execFylRestore m s = .next t') : Fr M s t' := by
  unfold execFylRestore at ht
  refine run_fr (MaskLe.trans (by decide +kernel) hM) (fun x hs => ?_) ht
  repeat' first
    | with_reducible first | assumption | apply State.restoreLink_fr
    | exact MaskLe.trans (by decide +kernel) hM
    | dsimp -zeta only
def fm_execOhqRdRead : Nat := 2 ^ 1 ||| 2 ^ 2 ||| fm_via ||| fm_ohqRead ||| fm_answer
theorem execOhqRdRead_fr {M} (w : Who) (r : Nat) (s t' : State) (hM : MaskLe fm_execOhqRdRead M) (ht : execOhqRdRead w r s = .next t') : Fr M s t' := by
  unfold execOhqRdRead at ht
  refine runBus_fr (MaskLe.trans (by decide +kernel) hM) (fun x hs => ?_) ht
  repeat' first
    | with_reducible first | assumption | apply State.ohqRead_fr | apply State.answer_fr
    | exact MaskLe.trans (by decide +kernel) hM
    | (intro x)
    | (extract_lets +onlyGivenNames x; refine fr_cut x ?_ ?_; (on_goal 2 => dsimp only [x]); (on_goal 1 => clear_value x; intro hx))
    | (extract_lets +onlyGivenNames x; fail_if_success (have : State := x); clear_value x)
    | with_reducible apply fr2_pair
    | with_reducible apply fr_pair
    | dsimp -zeta only
def fm_execOhqWrWrite : Nat := 2 ^ 1 ||| 2 ^ 2 ||| fm_via ||| fm_ohqWrite
theorem execOhqWrWrite_fr {M} (w : Who) (r : Nat) (v : Nat) (s t' : State) (hM : MaskLe fm_execOhqWrWrite M) (ht : execOhqWrWrite w r v s = .next t') : Fr M s t' := by
  unfold execOhqWrWrite at ht
  refine runBus_fr (MaskLe.trans (by decide +kernel) hM) (fun x hs => ?_) ht
  repeat' first
    | with_reducible first | assumption | apply State.ohqWrite_fr
    | exact MaskLe.trans (by decide +kernel) hM
    | dsimp -zeta only
def fm_execFlush : Nat := 2 ^ 1 ||| 2 ^ 2 ||| fm_via ||| fm_ohqFlush
theorem execFlush_fr {M} (w : Who) (r : Nat) (dir : Nat) (ch : Nat) (s t' : State) (hM : MaskLe fm_execFlush M) (ht : execFlush w r dir ch s = .next t') : Fr M s t' := by
  unfold execFlush at ht
  refine runBus_fr (MaskLe.trans (by decide +kernel) hM) (fun x hs => ?_) ht
  repeat' first
    | with_reducible first | assumption | apply State.ohqFlush_fr
    | exact MaskLe.trans (by decide +kernel) hM
    | dsimp -zeta only
def fm_execFlushApply : Nat := 2 ^ 1 ||| 2 ^ 2 ||| fm_applyFlush
theorem execFlushApply_fr {M} (r : Nat) (dir : Nat) (ch : Nat) (s t' : State) (hM : MaskLe fm_execFlushApply M) (ht : execFlushApply r dir ch s = .next t') : Fr M s t' := by
  unfold execFlushApply at ht
  refine run_fr (MaskLe.trans (by decide +kernel) hM) (fun x hs => ?_) ht
  repeat' first
    | with_reducible first | assumption | apply State.applyFlush_fr
    | exact MaskLe.trans (by decide +kernel) hM
    | dsimp -zeta only
def fm_execDropRest : Nat := 2 ^ 1 ||| 2 ^ 2 ||| fm_via ||| fm_dropRest
theorem execDropRest_fr {M} (w : Who) (r : Nat) (dir : Nat) (ch : Nat) (s t' : State) (hM : MaskLe fm_execDropRest M) (ht : execDropRest w r dir ch s = .next t') : Fr M s t' := by
  unfold execDropRest at ht
  refine runBus_fr (MaskLe.trans (by decide +kernel) hM) (fun x hs => ?_) ht
  repeat' first
    | with_reducible first | assumption | apply State.dropRest_fr
    | exact MaskLe.trans (by decide +kernel) hM
    | dsimp -zeta only
def fm_execChkStart : Nat := 2 ^ 1 ||| 2 ^ 2 ||| fm_via ||| fm_chkBy ||| fm_chkBegin
theorem execChkStart_fr {M} (w : Who) (u : Nat) (s t' : State) (hM : MaskLe fm_execChkStart M) (ht : execChkStart w u s = .next t') : Fr M s t' := by
  unfold execChkStart at ht
  refine runBus_fr (MaskLe.trans (by decide +kernel) hM) (fun x hs => ?_) ht
  repeat' first
    | with_reducible first | assumption | apply State.chkBy_fr | apply State.chkBegin_fr
    | exact MaskLe.trans (by decide +kernel) hM
    | (intro x)
    | dsimp -zeta only
def fm_execChkDataWrite : Nat := 2 ^ 1 ||| 2 ^ 2 ||| fm_via ||| fm_chkBy ||| fm_chkData
theorem execChkDataWrite_fr {M} (w : Who) (u : Nat) (v : Nat) (s t' : State) (hM : MaskLe fm_execChkDataWrite M) (ht : execChkDataWrite w u v s = .next t') : Fr M s t' := by
  unfold execChkDataWrite at ht
  refine runBus_fr (MaskLe.trans (by decide +kernel) hM) (fun x hs => ?_) ht
  repeat' first
    | with_reducible first | assumption | apply State.chkBy_fr | apply State.chkData_fr
    | exact MaskLe.trans (by decide +kernel) hM
    | (intro x)
    | dsimp -zeta only
def fm_execChkFinish : Nat := 2 ^ 1 ||| 2 ^ 2 ||| fm_via ||| fm_chkBy ||| fm_chkEnd
theorem execChkFinish_fr {M} (w : Who) (u : Nat) (s t' : State) (hM : MaskLe fm_execChkFinish M) (ht : execChkFinish w u s = .next t') : Fr M s t' := by
  unfold execChkFinish at ht
  refine runBus_fr (MaskLe.trans (by decide +kernel) hM) (fun x hs => ?_) ht
  repeat' first
    | with_reducible first | assumption | apply State.chkBy_fr | apply State.chkEnd_fr
    | exact MaskLe.trans (by decide +kernel) hM
    | (intro x)
    | dsimp -zeta only
def fm_execChkAbort : Nat := 2 ^ 1 ||| 2 ^ 2 ||| fm_via ||| fm_chkBy ||| fm_chkClose
theorem execChkAbort_fr {M} (w : Who) (u : Nat) (s t' : State) (hM : MaskLe fm_execChkAbort M) (ht : execChkAbort w u s = .next t') : Fr M s t' := by
  unfold execChkAbort at ht
  refine runBus_fr (MaskLe.trans (by decide +kernel) hM) (fun x hs => ?_) ht
  repeat' first
    | with_reducible first | assumption | apply State.chkBy_fr | apply State.chkClose_fr
    | exact MaskLe.trans (by decide +kernel) hM
    | (intro x)
    | dsimp -zeta only
def fm_execSdpFrameReceive : Nat := 2 ^ 1 ||| 2 ^ 2 ||| fm_sdpReceive
theorem execSdpFrameReceive_fr {M} (b : List Nat) (s t' : State) (hM : MaskLe fm_execSdpFrameReceive M) (ht : execSdpFrameReceive b s = .next t') : Fr M s t' := by
  unfold execSdpFrameReceive at ht
  refine runDark_fr (MaskLe.trans (by decide +kernel) hM) (fun x hs => ?_) ht
  repeat' first
    | with_reducible first | assumption | apply State.sdpReceive_fr
    | exact MaskLe.trans (by decide +kernel) hM
    | dsimp -zeta only
def fm_execSdpRxDescRead : Nat := 2 ^ 1 ||| 2 ^ 2 ||| fm_via ||| fm_sdpRxDesc ||| fm_answer
theorem execSdpRxDescRead_fr {M} (w : Who) (s t' : State) (hM : MaskLe fm_execSdpRxDescRead M) (ht : execSdpRxDescRead w s = .next t') : Fr M s t' := by
  unfold execSdpRxDescRead at ht
  refine runBus_fr (MaskLe.trans (by decide +kernel) hM) (fun x hs => ?_) ht
  repeat' first
    | with_reducible first | assumption | apply State.sdpRxDesc_fr | apply State.answer_fr
    | exact MaskLe.trans (by decide +kernel) hM
    | (intro x)
    | (extract_lets +onlyGivenNames x; refine fr_cut x ?_ ?_; (on_goal 2 => dsimp only [x]); (on_goal 1 => clear_value x; intro hx))
    | (extract_lets +onlyGivenNames x; fail_if_success (have : State := x); clear_value x)
    | with_reducible apply fr2_pair
    | with_reducible apply fr_pair
    | dsimp -zeta only
def fm_execSdpRxDataRead : Nat := 2 ^ 1 ||| 2 ^ 2 ||| fm_via ||| fm_sdpRxData ||| fm_answer
theorem execSdpRxDataRead_fr {M} (w : Who) (s t' : State) (hM : MaskLe fm_execSdpRxDataRead M) (ht : execSdpRxDataRead w s = .next t') : Fr M s t' := by
  unfold execSdpRxDataRead at ht
  refine runBus_fr (MaskLe.trans (by decide +kernel) hM) (fun x hs => ?_) ht
  repeat' first
    | with_reducible first | assumption | apply State.sdpRxData_fr | apply State.answer_fr
    | exact MaskLe.trans (by decide +kernel) hM
    | (intro x)
    | (extract_lets +onlyGivenNames x; refine fr_cut x ?_ ?_; (on_goal 2 => dsimp only [x]); (on_goal 1 => clear_value x; intro hx))
    | (extract_lets +onlyGivenNames x; fail_if_success (have : State := x); clear_value x)
    | with_reducible apply fr2_pair
    | with_reducible apply fr_pair
    | dsimp -zeta only
def fm_execSdpTxStart : Nat := 2 ^ 1 ||| 2 ^ 2 ||| fm_via ||| fm_txStart_
theorem execSdpTxStart_fr {M} (w : Who) (q : Nat) (len : Nat) (s t' : State) (hM : MaskLe fm_execSdpTxStart M) (ht : execSdpTxStart w q len s = .next t') : Fr M s t' := by
  unfold execSdpTxStart at ht
  refine runBus_fr (MaskLe.trans (by decide +kernel) hM) (fun x hs => ?_) ht
  repeat' first
    | with_reducible first | assumption | apply State.txStart__fr
    | exact MaskLe.trans (by decide +kernel) hM
    | dsimp -zeta only
def fm_execSdpTxAbort : Nat := 2 ^ 1 ||| 2 ^ 2 ||| fm_via ||| fm_txAbort
theorem execSdpTxAbort_fr {M} (w : Who) (s t' : State) (hM : MaskLe fm_execSdpTxAbort M) (ht : execSdpTxAbort w s = .next t') : Fr M s t' := by
  unfold execSdpTxAbort at ht
  refine runBus_fr (MaskLe.trans (by decide +kernel) hM) (fun x hs => ?_) ht
  repeat' first
    | with_reducible first | assumption | apply State.txAbort_fr
    | exact MaskLe.trans (by decide +kernel) hM
    | dsimp -zeta only
def fm_execSdpTxDataWrite : Nat := 2 ^ 1 ||| 2 ^ 2 ||| fm_via ||| fm_txData
theorem execSdpTxDataWrite_fr {M} (w : Who) (v : Nat) (s t' : State) (hM : MaskLe fm_execSdpTxDataWrite M) (ht : execSdpTxDataWrite w v s = .next t') : Fr M s t' := by
  unfold execSdpTxDataWrite at ht
  refine runBus_fr (MaskLe.trans (by decide +kernel) hM) (fun x hs => ?_) ht
  repeat' first
    | with_reducible first | assumption | apply State.txData_fr
    | exact MaskLe.trans (by decide +kernel) hM
    | dsimp -zeta only
def fm_execSdpTransmit : Nat := 2 ^ 1 ||| 2 ^ 2 ||| fm_sdpTransmit
theorem execSdpTransmit_fr {M}  (s t' : State) (hM : MaskLe fm_execSdpTransmit M) (ht : execSdpTransmit  s = .next t') : Fr M s t' := by
  unfold execSdpTransmit at ht
  refine run_fr (MaskLe.trans (by decide +kernel) hM) (fun x hs => ?_) ht
  repeat' first
    | with_reducible first | assumption | apply State.sdpTransmit_fr
    | exact MaskLe.trans (by decide +kernel) hM
    | dsimp -zeta only
def fm_execSdpAgeScan : Nat := 2 ^ 1 ||| 2 ^ 2 ||| fm_sdpAgeScan
theorem execSdpAgeScan_fr {M}  (s t' : State) (hM : MaskLe fm_execSdpAgeScan M) (ht : execSdpAgeScan  s = .next t') : Fr M s t' := by
  unfold execSdpAgeScan at ht
  refine run_fr (MaskLe.trans (by decide +kernel) hM) (fun x hs => ?_) ht
  repeat' first
    | with_reducible first | assumption | apply State.sdpAgeScan_fr
    | exact MaskLe.trans (by decide +kernel) hM
    | dsimp -zeta only
def fm_execPauseExpiry : Nat := 2 ^ 1 ||| 2 ^ 2 ||| fm_pauseExpiry
theorem execPauseExpiry_fr {M} (c : Nat) (s t' : State) (hM : MaskLe fm_execPauseExpiry M) (ht : execPauseExpiry c s = .next t') : Fr M s t' := by
  unfold execPauseExpiry at ht
  refine run_fr (MaskLe.trans (by decide +kernel) hM) (fun x hs => ?_) ht
  repeat' first
    | with_reducible first | assumption | apply State.pauseExpiry_fr
    | exact MaskLe.trans (by decide +kernel) hM
    | dsimp -zeta only
def fm_execPauseBreak : Nat := 2 ^ 1 ||| 2 ^ 2 ||| fm_pauseBreak
theorem execPauseBreak_fr {M} (c : Nat) (s t' : State) (hM : MaskLe fm_execPauseBreak M) (ht : execPauseBreak c s = .next t') : Fr M s t' := by
  unfold execPauseBreak at ht
  refine run_fr (MaskLe.trans (by decide +kernel) hM) (fun x hs => ?_) ht
  repeat' first
    | with_reducible first | assumption | apply State.pauseBreak_fr
    | exact MaskLe.trans (by decide +kernel) hM
    | dsimp -zeta only
def fm_execSdpStatHalfRead : Nat := 2 ^ 1 ||| 2 ^ 2 ||| fm_via ||| fm_halfRead ||| fm_answer
theorem execSdpStatHalfRead_fr {M} (w : Who) (s t' : State) (hM : MaskLe fm_execSdpStatHalfRead M) (ht : execSdpStatHalfRead w s = .next t') : Fr M s t' := by
  unfold execSdpStatHalfRead at ht
  refine runBus_fr (MaskLe.trans (by decide +kernel) hM) (fun x hs => ?_) ht
  repeat' first
    | with_reducible first | assumption | apply State.halfRead_fr | apply State.answer_fr
    | exact MaskLe.trans (by decide +kernel) hM
    | (intro x)
    | (extract_lets +onlyGivenNames x; refine fr_cut x ?_ ?_; (on_goal 2 => dsimp only [x]); (on_goal 1 => clear_value x; intro hx))
    | (extract_lets +onlyGivenNames x; fail_if_success (have : State := x); clear_value x)
    | with_reducible apply fr2_pair
    | with_reducible apply fr_pair
    | dsimp -zeta only
def fm_execCbbFrameReceive : Nat := 2 ^ 1 ||| 2 ^ 2 ||| fm_cbbReceive
theorem execCbbFrameReceive_fr {M} (x : CbbRx) (s t' : State) (hM : MaskLe fm_execCbbFrameReceive M) (ht : execCbbFrameReceive x s = .next t') : Fr M s t' := by
  unfold execCbbFrameReceive at ht
  refine runAon_fr (MaskLe.trans (by decide +kernel) hM) (fun x hs => ?_) ht
  repeat' first
    | with_reducible first | assumption | apply State.cbbReceive_fr
    | exact MaskLe.trans (by decide +kernel) hM
    | dsimp -zeta only
def fm_execCbbTxSend : Nat := 2 ^ 1 ||| 2 ^ 2 ||| fm_via ||| fm_cbbSend
theorem execCbbTxSend_fr {M} (w : Who) (typ : Nat) (dst : Nat) (len : Nat) (s t' : State) (hM : MaskLe fm_execCbbTxSend M) (ht : execCbbTxSend w typ dst len s = .next t') : Fr M s t' := by
  unfold execCbbTxSend at ht
  refine runBus_fr (MaskLe.trans (by decide +kernel) hM) (fun x hs => ?_) ht
  repeat' first
    | with_reducible first | assumption | apply State.cbbSend_fr
    | exact MaskLe.trans (by decide +kernel) hM
    | dsimp -zeta only
def fm_execCbbTxAbort : Nat := 2 ^ 1 ||| 2 ^ 2 ||| fm_via ||| fm_cbbAbort
theorem execCbbTxAbort_fr {M} (w : Who) (s t' : State) (hM : MaskLe fm_execCbbTxAbort M) (ht : execCbbTxAbort w s = .next t') : Fr M s t' := by
  unfold execCbbTxAbort at ht
  refine runBus_fr (MaskLe.trans (by decide +kernel) hM) (fun x hs => ?_) ht
  repeat' first
    | with_reducible first | assumption | apply State.cbbAbort_fr
    | exact MaskLe.trans (by decide +kernel) hM
    | dsimp -zeta only
def fm_execCbbTxTimeout : Nat := 2 ^ 1 ||| 2 ^ 2 ||| fm_cbbTimeout
theorem execCbbTxTimeout_fr {M}  (s t' : State) (hM : MaskLe fm_execCbbTxTimeout M) (ht : execCbbTxTimeout  s = .next t') : Fr M s t' := by
  unfold execCbbTxTimeout at ht
  refine runAon_fr (MaskLe.trans (by decide +kernel) hM) (fun x hs => ?_) ht
  repeat' first
    | with_reducible first | assumption | apply State.cbbTimeout_fr
    | exact MaskLe.trans (by decide +kernel) hM
    | dsimp -zeta only
def fm_execMasterLost : Nat := 2 ^ 1 ||| 2 ^ 2 ||| fm_masterLost
theorem execMasterLost_fr {M}  (s t' : State) (hM : MaskLe fm_execMasterLost M) (ht : execMasterLost  s = .next t') : Fr M s t' := by
  unfold execMasterLost at ht
  refine runAon_fr (MaskLe.trans (by decide +kernel) hM) (fun x hs => ?_) ht
  repeat' first
    | with_reducible first | assumption | apply State.masterLost_fr
    | exact MaskLe.trans (by decide +kernel) hM
    | dsimp -zeta only
def fm_execTokenRegen : Nat := 2 ^ 1 ||| 2 ^ 2 ||| fm_tokenRegen
theorem execTokenRegen_fr {M} (collides : Bool) (s t' : State) (hM : MaskLe fm_execTokenRegen M) (ht : execTokenRegen collides s = .next t') : Fr M s t' := by
  unfold execTokenRegen at ht
  refine runAon_fr (MaskLe.trans (by decide +kernel) hM) (fun x hs => ?_) ht
  repeat' first
    | with_reducible first | assumption | apply State.tokenRegen_fr
    | exact MaskLe.trans (by decide +kernel) hM
    | dsimp -zeta only
def fm_execTokenSuccessorTimeout : Nat := 2 ^ 1 ||| 2 ^ 2 ||| fm_successorLost
theorem execTokenSuccessorTimeout_fr {M}  (s t' : State) (hM : MaskLe fm_execTokenSuccessorTimeout M) (ht : execTokenSuccessorTimeout  s = .next t') : Fr M s t' := by
  unfold execTokenSuccessorTimeout at ht
  refine runAon_fr (MaskLe.trans (by decide +kernel) hM) (fun x hs => ?_) ht
  repeat' first
    | with_reducible first | assumption | apply State.successorLost_fr
    | exact MaskLe.trans (by decide +kernel) hM
    | dsimp -zeta only
def fm_execBeaconSend : Nat := 2 ^ 1 ||| 2 ^ 2 ||| fm_beaconSend
theorem execBeaconSend_fr {M} (collides : Bool) (s t' : State) (hM : MaskLe fm_execBeaconSend M) (ht : execBeaconSend collides s = .next t') : Fr M s t' := by
  unfold execBeaconSend at ht
  refine runAon_fr (MaskLe.trans (by decide +kernel) hM) (fun x hs => ?_) ht
  repeat' first
    | with_reducible first | assumption | apply State.beaconSend_fr
    | exact MaskLe.trans (by decide +kernel) hM
    | dsimp -zeta only
def fm_execWindowClose : Nat := 2 ^ 1 ||| 2 ^ 2 ||| fm_windowClose
theorem execWindowClose_fr {M}  (s t' : State) (hM : MaskLe fm_execWindowClose M) (ht : execWindowClose  s = .next t') : Fr M s t' := by
  unfold execWindowClose at ht
  refine runAon_fr (MaskLe.trans (by decide +kernel) hM) (fun x hs => ?_) ht
  repeat' first
    | with_reducible first | assumption | apply State.windowClose_fr
    | exact MaskLe.trans (by decide +kernel) hM
    | dsimp -zeta only
def fm_execPartnerLost : Nat := 2 ^ 1 ||| 2 ^ 2 ||| fm_partnerLost
theorem execPartnerLost_fr {M}  (s t' : State) (hM : MaskLe fm_execPartnerLost M) (ht : execPartnerLost  s = .next t') : Fr M s t' := by
  unfold execPartnerLost at ht
  refine runAon_fr (MaskLe.trans (by decide +kernel) hM) (fun x hs => ?_) ht
  repeat' first
    | with_reducible first | assumption | apply State.partnerLost_fr
    | exact MaskLe.trans (by decide +kernel) hM
    | dsimp -zeta only
def fm_execCbbWakeAck : Nat := 2 ^ 1 ||| 2 ^ 2 ||| fm_wakeAck
theorem execCbbWakeAck_fr {M}  (s t' : State) (hM : MaskLe fm_execCbbWakeAck M) (ht : execCbbWakeAck  s = .next t') : Fr M s t' := by
  unfold execCbbWakeAck at ht
  refine run_fr (MaskLe.trans (by decide +kernel) hM) (fun x hs => ?_) ht
  repeat' first
    | with_reducible first | assumption | apply State.wakeAck_fr
    | exact MaskLe.trans (by decide +kernel) hM
    | dsimp -zeta only
def fm_execDarkWake : Nat := 2 ^ 1 ||| 2 ^ 2 ||| fm_darkWake
theorem execDarkWake_fr {M} (strap : Nat) (s t' : State) (hM : MaskLe fm_execDarkWake M) (ht : execDarkWake strap s = .next t') : Fr M s t' := by
  unfold execDarkWake at ht
  refine runAon_fr (MaskLe.trans (by decide +kernel) hM) (fun x hs => ?_) ht
  repeat' first
    | with_reducible first | assumption | apply State.darkWake_fr
    | exact MaskLe.trans (by decide +kernel) hM
    | dsimp -zeta only
def fm_execRefLost : Nat := 2 ^ 1 ||| 2 ^ 2 ||| fm_csuProgress ||| fm_refLost
theorem execRefLost_fr {M} (u : Nat) (ppm : Option Int) (s t' : State) (hM : MaskLe fm_execRefLost M) (ht : execRefLost u ppm s = .next t') : Fr M s t' := by
  unfold execRefLost at ht
  refine run_fr (MaskLe.trans (by decide +kernel) hM) (fun x hs => ?_) ht
  repeat' first
    | with_reducible first | assumption | apply State.csuProgress_fr | apply State.refLost_fr | apply fr_ite | apply fr2_ite
    | exact MaskLe.trans (by decide +kernel) hM
    | split
    | dsimp -zeta only
def fm_execRefBack : Nat := 2 ^ 1 ||| 2 ^ 2 ||| fm_csuProgress ||| fm_refBack
theorem execRefBack_fr {M} (u : Nat) (ppm : Int) (t16 : Int) (s t' : State) (hM : MaskLe fm_execRefBack M) (ht : execRefBack u ppm t16 s = .next t') : Fr M s t' := by
  unfold execRefBack at ht
  refine run_fr (MaskLe.trans (by decide +kernel) hM) (fun x hs => ?_) ht
  repeat' first
    | with_reducible first | assumption | apply State.csuProgress_fr | apply State.refBack_fr | apply fr_ite | apply fr2_ite
    | exact MaskLe.trans (by decide +kernel) hM
    | split
    | dsimp -zeta only
def fm_execLockLost : Nat := 2 ^ 1 ||| 2 ^ 2 ||| fm_csuProgress ||| fm_lockLost
theorem execLockLost_fr {M} (u : Nat) (s t' : State) (hM : MaskLe fm_execLockLost M) (ht : execLockLost u s = .next t') : Fr M s t' := by
  unfold execLockLost at ht
  refine run_fr (MaskLe.trans (by decide +kernel) hM) (fun x hs => ?_) ht
  repeat' first
    | with_reducible first | assumption | apply State.csuProgress_fr | apply State.lockLost_fr | apply fr_ite | apply fr2_ite
    | exact MaskLe.trans (by decide +kernel) hM
    | split
    | dsimp -zeta only
def fm_execRelock : Nat := 2 ^ 1 ||| 2 ^ 2 ||| fm_csuProgress ||| fm_relock
theorem execRelock_fr {M} (u : Nat) (ok : Bool) (s t' : State) (hM : MaskLe fm_execRelock M) (ht : execRelock u ok s = .next t') : Fr M s t' := by
  unfold execRelock at ht
  refine run_fr (MaskLe.trans (by decide +kernel) hM) (fun x hs => ?_) ht
  repeat' first
    | with_reducible first | assumption | apply State.csuProgress_fr | apply State.relock_fr | apply fr_ite | apply fr2_ite
    | exact MaskLe.trans (by decide +kernel) hM
    | split
    | dsimp -zeta only
def fm_execReband : Nat := 2 ^ 1 ||| 2 ^ 2 ||| fm_via ||| fm_csuProgress ||| fm_rebandCmd
theorem execReband_fr {M} (u : Nat) (w : Who) (t16 : Int) (s t' : State) (hM : MaskLe fm_execReband M) (ht : execReband u w t16 s = .next t') : Fr M s t' := by
  unfold execReband at ht
  refine runBus_fr (MaskLe.trans (by decide +kernel) hM) (fun x hs => ?_) ht
  repeat' first
    | with_reducible first | assumption | apply State.csuProgress_fr | apply State.rebandCmd_fr | apply fr_ite | apply fr2_ite
    | exact MaskLe.trans (by decide +kernel) hM
    | split
    | dsimp -zeta only
def fm_execRebandDone : Nat := 2 ^ 1 ||| 2 ^ 2 ||| fm_csuProgress ||| fm_rebandDone
theorem execRebandDone_fr {M} (u : Nat) (s t' : State) (hM : MaskLe fm_execRebandDone M) (ht : execRebandDone u s = .next t') : Fr M s t' := by
  unfold execRebandDone at ht
  refine run_fr (MaskLe.trans (by decide +kernel) hM) (fun x hs => ?_) ht
  repeat' first
    | with_reducible first | assumption | apply State.csuProgress_fr | apply State.rebandDone_fr | apply fr_ite | apply fr2_ite
    | exact MaskLe.trans (by decide +kernel) hM
    | split
    | dsimp -zeta only
def fm_execBandEdge : Nat := 2 ^ 1 ||| 2 ^ 2 ||| fm_bandEdge
theorem execBandEdge_fr {M} (u : Nat) (margin : Nat) (s t' : State) (hM : MaskLe fm_execBandEdge M) (ht : execBandEdge u margin s = .next t') : Fr M s t' := by
  unfold execBandEdge at ht
  refine run_fr (MaskLe.trans (by decide +kernel) hM) (fun x hs => ?_) ht
  repeat' first
    | with_reducible first | assumption | apply State.bandEdge_fr | apply fr_ite | apply fr2_ite
    | exact MaskLe.trans (by decide +kernel) hM
    | split
    | dsimp -zeta only
def fm_execPpsEdge : Nat := 2 ^ 1 ||| 2 ^ 2 ||| fm_ppsEdge
theorem execPpsEdge_fr {M} (j : Nat) (ns : Nat) (s t' : State) (hM : MaskLe fm_execPpsEdge M) (ht : execPpsEdge j ns s = .next t') : Fr M s t' := by
  unfold execPpsEdge at ht
  refine run_fr (MaskLe.trans (by decide +kernel) hM) (fun x hs => ?_) ht
  repeat' first
    | with_reducible first | assumption | apply State.ppsEdge_fr
    | exact MaskLe.trans (by decide +kernel) hM
    | dsimp -zeta only
def fm_execPpsLost : Nat := 2 ^ 1 ||| 2 ^ 2 ||| fm_ppsLose
theorem execPpsLost_fr {M} (j : Nat) (s t' : State) (hM : MaskLe fm_execPpsLost M) (ht : execPpsLost j s = .next t') : Fr M s t' := by
  unfold execPpsLost at ht
  refine run_fr (MaskLe.trans (by decide +kernel) hM) (fun x hs => ?_) ht
  repeat' first
    | with_reducible first | assumption | apply State.ppsLose_fr
    | exact MaskLe.trans (by decide +kernel) hM
    | dsimp -zeta only
def fm_execTodMessage : Nat := 2 ^ 1 ||| 2 ^ 2 ||| fm_todMessage
theorem execTodMessage_fr {M} (line : List Bool) (ns : Nat) (s t' : State) (hM : MaskLe fm_execTodMessage M) (ht : execTodMessage line ns s = .next t') : Fr M s t' := by
  unfold execTodMessage at ht
  refine run_fr (MaskLe.trans (by decide +kernel) hM) (fun x hs => ?_) ht
  repeat' first
    | with_reducible first | assumption | apply State.todMessage_fr
    | exact MaskLe.trans (by decide +kernel) hM
    | dsimp -zeta only
def fm_execSlewDone : Nat := 2 ^ 1 ||| 2 ^ 2 ||| fm_slewDone
theorem execSlewDone_fr {M}  (s t' : State) (hM : MaskLe fm_execSlewDone M) (ht : execSlewDone  s = .next t') : Fr M s t' := by
  unfold execSlewDone at ht
  refine run_fr (MaskLe.trans (by decide +kernel) hM) (fun x hs => ?_) ht
  repeat' first
    | with_reducible first | assumption | apply State.slewDone_fr
    | exact MaskLe.trans (by decide +kernel) hM
    | dsimp -zeta only
def fm_execHoldoverExpired : Nat := 2 ^ 1 ||| 2 ^ 2 ||| fm_holdoverExpired
theorem execHoldoverExpired_fr {M}  (s t' : State) (hM : MaskLe fm_execHoldoverExpired M) (ht : execHoldoverExpired  s = .next t') : Fr M s t' := by
  unfold execHoldoverExpired at ht
  refine run_fr (MaskLe.trans (by decide +kernel) hM) (fun x hs => ?_) ht
  repeat' first
    | with_reducible first | assumption | apply State.holdoverExpired_fr
    | exact MaskLe.trans (by decide +kernel) hM
    | dsimp -zeta only
def fm_execTodOutSend : Nat := 2 ^ 1 ||| 2 ^ 2 ||| fm_todOutSend
theorem execTodOutSend_fr {M}  (s t' : State) (hM : MaskLe fm_execTodOutSend M) (ht : execTodOutSend  s = .next t') : Fr M s t' := by
  unfold execTodOutSend at ht
  refine run_fr (MaskLe.trans (by decide +kernel) hM) (fun x hs => ?_) ht
  repeat' first
    | with_reducible first | assumption | apply State.todOutSend_fr
    | exact MaskLe.trans (by decide +kernel) hM
    | dsimp -zeta only
def fm_execTimNowRead : Nat := 2 ^ 1 ||| 2 ^ 2 ||| fm_via ||| fm_nowRead ||| fm_answer
theorem execTimNowRead_fr {M} (w : Who) (s t' : State) (hM : MaskLe fm_execTimNowRead M) (ht : execTimNowRead w s = .next t') : Fr M s t' := by
  unfold execTimNowRead at ht
  refine runBus_fr (MaskLe.trans (by decide +kernel) hM) (fun x hs => ?_) ht
  repeat' first
    | with_reducible first | assumption | apply State.nowRead_fr | apply State.answer_fr
    | exact MaskLe.trans (by decide +kernel) hM
    | (intro x)
    | (extract_lets +onlyGivenNames x; refine fr_cut x ?_ ?_; (on_goal 2 => dsimp only [x]); (on_goal 1 => clear_value x; intro hx))
    | (extract_lets +onlyGivenNames x; fail_if_success (have : State := x); clear_value x)
    | with_reducible apply fr2_pair
    | with_reducible apply fr_pair
    | dsimp -zeta only
def fm_execSetSec : Nat := 2 ^ 1 ||| 2 ^ 2 ||| fm_via ||| fm_setSecCmd
theorem execSetSec_fr {M} (w : Who) (s t' : State) (hM : MaskLe fm_execSetSec M) (ht : execSetSec w s = .next t') : Fr M s t' := by
  unfold execSetSec at ht
  refine runBus_fr (MaskLe.trans (by decide +kernel) hM) (fun x hs => ?_) ht
  repeat' first
    | with_reducible first | assumption | apply State.setSecCmd_fr
    | exact MaskLe.trans (by decide +kernel) hM
    | dsimp -zeta only
def fm_execTimTsRead : Nat := 2 ^ 1 ||| 2 ^ 2 ||| fm_via ||| fm_tsRead ||| fm_answer
theorem execTimTsRead_fr {M} (w : Who) (s t' : State) (hM : MaskLe fm_execTimTsRead M) (ht : execTimTsRead w s = .next t') : Fr M s t' := by
  unfold execTimTsRead at ht
  refine runBus_fr (MaskLe.trans (by decide +kernel) hM) (fun x hs => ?_) ht
  repeat' first
    | with_reducible first | assumption | apply State.tsRead_fr | apply State.answer_fr
    | exact MaskLe.trans (by decide +kernel) hM
    | (intro x)
    | (extract_lets +onlyGivenNames x; refine fr_cut x ?_ ?_; (on_goal 2 => dsimp only [x]); (on_goal 1 => clear_value x; intro hx))
    | (extract_lets +onlyGivenNames x; fail_if_success (have : State := x); clear_value x)
    | with_reducible apply fr2_pair
    | with_reducible apply fr_pair
    | dsimp -zeta only
def fm_execHostLinkDown : Nat := 2 ^ 1 ||| 2 ^ 2 ||| fm_linkDown
theorem execHostLinkDown_fr {M}  (s t' : State) (hM : MaskLe fm_execHostLinkDown M) (ht : execHostLinkDown  s = .next t') : Fr M s t' := by
  unfold execHostLinkDown at ht
  refine run_fr (MaskLe.trans (by decide +kernel) hM) (fun x hs => ?_) ht
  repeat' first
    | with_reducible first | assumption | apply State.linkDown_fr
    | exact MaskLe.trans (by decide +kernel) hM
    | dsimp -zeta only
def fm_execHostLinkUp : Nat := 2 ^ 1 ||| 2 ^ 2 ||| fm_linkUp
theorem execHostLinkUp_fr {M} (width : Nat) (speed : Nat) (s t' : State) (hM : MaskLe fm_execHostLinkUp M) (ht : execHostLinkUp width speed s = .next t') : Fr M s t' := by
  unfold execHostLinkUp at ht
  refine run_fr (MaskLe.trans (by decide +kernel) hM) (fun x hs => ?_) ht
  repeat' first
    | with_reducible first | assumption | apply State.linkUp_fr
    | exact MaskLe.trans (by decide +kernel) hM
    | dsimp -zeta only
def fm_execVfFlr : Nat := 2 ^ 1 ||| 2 ^ 2 ||| fm_vfFlr
theorem execVfFlr_fr {M} (n : Nat) (s t' : State) (hM : MaskLe fm_execVfFlr M) (ht : execVfFlr n s = .next t') : Fr M s t' := by
  unfold execVfFlr at ht
  refine run_fr (MaskLe.trans (by decide +kernel) hM) (fun x hs => ?_) ht
  repeat' first
    | with_reducible first | assumption | apply State.vfFlr_fr
    | exact MaskLe.trans (by decide +kernel) hM
    | dsimp -zeta only
def fm_execHostRequest : Nat := 2 ^ 1 ||| 2 ^ 2 ||| fm_hostRequest
theorem execHostRequest_fr {M} (x : HostReq) (s t' : State) (hM : MaskLe fm_execHostRequest M) (ht : execHostRequest x s = .next t') : Fr M s t' := by
  unfold execHostRequest at ht
  refine run_fr (MaskLe.trans (by decide +kernel) hM) (fun x hs => ?_) ht
  repeat' first
    | with_reducible first | assumption | apply State.hostRequest_fr
    | exact MaskLe.trans (by decide +kernel) hM
    | dsimp -zeta only
def fm_execBusTimeout : Nat := 2 ^ 1 ||| 2 ^ 2 ||| fm_busTimeoutEnd
theorem execBusTimeout_fr {M} (w : Who) (pg : Nat) (write : Bool) (late : Bool) (h : Option HostReq) (s t' : State) (hM : MaskLe fm_execBusTimeout M) (ht : execBusTimeout w pg write late h s = .next t') : Fr M s t' := by
  unfold execBusTimeout at ht
  refine run_fr (MaskLe.trans (by decide +kernel) hM) (fun x hs => ?_) ht
  repeat' first
    | with_reducible first | assumption | apply State.busTimeoutEnd_fr
    | exact MaskLe.trans (by decide +kernel) hM
    | dsimp -zeta only
def fm_execSetPage : Nat := 2 ^ 1 ||| 2 ^ 2 ||| fm_ownReq
theorem execSetPage_fr {M} (box : Nat) (s t' : State) (hM : MaskLe fm_execSetPage M) (ht : execSetPage box s = .next t') : Fr M s t' := by
  unfold execSetPage at ht
  refine run_fr (MaskLe.trans (by decide +kernel) hM) (fun x hs => ?_) ht
  repeat' first
    | with_reducible first | assumption | apply State.ownReq_fr
    | exact MaskLe.trans (by decide +kernel) hM
    | dsimp -zeta only
def fm_execSetObj : Nat := 2 ^ 1 ||| 2 ^ 2 ||| fm_ownReq
theorem execSetObj_fr {M} (box : Nat) (s t' : State) (hM : MaskLe fm_execSetObj M) (ht : execSetObj box s = .next t') : Fr M s t' := by
  unfold execSetObj at ht
  refine run_fr (MaskLe.trans (by decide +kernel) hM) (fun x hs => ?_) ht
  repeat' first
    | with_reducible first | assumption | apply State.ownReq_fr
    | exact MaskLe.trans (by decide +kernel) hM
    | dsimp -zeta only
def fm_execSetWin : Nat := 2 ^ 1 ||| 2 ^ 2 ||| fm_ownReq
theorem execSetWin_fr {M} (box : Nat) (s t' : State) (hM : MaskLe fm_execSetWin M) (ht : execSetWin box s = .next t') : Fr M s t' := by
  unfold execSetWin at ht
  refine run_fr (MaskLe.trans (by decide +kernel) hM) (fun x hs => ?_) ht
  repeat' first
    | with_reducible first | assumption | apply State.ownReq_fr
    | exact MaskLe.trans (by decide +kernel) hM
    | dsimp -zeta only
def fm_execProxyAccess : Nat := 2 ^ 1 ||| 2 ^ 2 ||| fm_via ||| fm_proxyStep
theorem execProxyAccess_fr {M} (w : Who) (n : Nat) (off : Nat) (be : Nat) (v : Option Nat) (s t' : State) (hM : MaskLe fm_execProxyAccess M) (ht : execProxyAccess w n off be v s = .next t') : Fr M s t' := by
  unfold execProxyAccess at ht
  refine runBus_fr (MaskLe.trans (by decide +kernel) hM) (fun x hs => ?_) ht
  repeat' first
    | with_reducible first | assumption | apply State.proxyStep_fr
    | exact MaskLe.trans (by decide +kernel) hM
    | dsimp -zeta only
def fm_execBoxPxPageWrite : Nat := 2 ^ 1 ||| 2 ^ 2 ||| fm_pxPageWrite
theorem execBoxPxPageWrite_fr {M} (n : Nat) (v : Nat) (s t' : State) (hM : MaskLe fm_execBoxPxPageWrite M) (ht : execBoxPxPageWrite n v s = .next t') : Fr M s t' := by
  unfold execBoxPxPageWrite at ht
  refine run_fr (MaskLe.trans (by decide +kernel) hM) (fun x hs => ?_) ht
  repeat' first
    | with_reducible first | assumption | apply State.pxPageWrite_fr
    | exact MaskLe.trans (by decide +kernel) hM
    | dsimp -zeta only
def fm_execBoxNoteRead : Nat := 2 ^ 1 ||| 2 ^ 2 ||| fm_via ||| fm_boxNote ||| fm_answer
theorem execBoxNoteRead_fr {M} (w : Who) (n : Nat) (s t' : State) (hM : MaskLe fm_execBoxNoteRead M) (ht : execBoxNoteRead w n s = .next t') : Fr M s t' := by
  unfold execBoxNoteRead at ht
  refine runBus_fr (MaskLe.trans (by decide +kernel) hM) (fun x hs => ?_) ht
  repeat' first
    | with_reducible first | assumption | apply State.boxNote_fr | apply State.answer_fr
    | exact MaskLe.trans (by decide +kernel) hM
    | (intro x)
    | (extract_lets +onlyGivenNames x; refine fr_cut x ?_ ?_; (on_goal 2 => dsimp only [x]); (on_goal 1 => clear_value x; intro hx))
    | (extract_lets +onlyGivenNames x; fail_if_success (have : State := x); clear_value x)
    | with_reducible apply fr2_pair
    | with_reducible apply fr_pair
    | dsimp -zeta only
def fm_execMsixSend : Nat := 2 ^ 1 ||| 2 ^ 2 ||| fm_msixSend
theorem execMsixSend_fr {M} (n : Nat) (v : Nat) (s t' : State) (hM : MaskLe fm_execMsixSend M) (ht : execMsixSend n v s = .next t') : Fr M s t' := by
  unfold execMsixSend at ht
  refine run_fr (MaskLe.trans (by decide +kernel) hM) (fun x hs => ?_) ht
  repeat' first
    | with_reducible first | assumption | apply State.msixSend_fr
    | exact MaskLe.trans (by decide +kernel) hM
    | dsimp -zeta only
def fm_execDmaGo : Nat := 2 ^ 1 ||| 2 ^ 2 ||| fm_dmaGo
theorem execDmaGo_fr {M} (c : Nat) (s t' : State) (hM : MaskLe fm_execDmaGo M) (ht : execDmaGo c s = .next t') : Fr M s t' := by
  unfold execDmaGo at ht
  refine run_fr (MaskLe.trans (by decide +kernel) hM) (fun x hs => ?_) ht
  repeat' first
    | with_reducible first | assumption | apply State.dmaGo_fr
    | exact MaskLe.trans (by decide +kernel) hM
    | dsimp -zeta only
def fm_execDmaDone : Nat := 2 ^ 1 ||| 2 ^ 2 ||| fm_dmaDone
theorem execDmaDone_fr {M} (c : Nat) (bad : Option Nat) (s t' : State) (hM : MaskLe fm_execDmaDone M) (ht : execDmaDone c bad s = .next t') : Fr M s t' := by
  unfold execDmaDone at ht
  refine run_fr (MaskLe.trans (by decide +kernel) hM) (fun x hs => ?_) ht
  repeat' first
    | with_reducible first | assumption | apply State.dmaDone_fr
    | exact MaskLe.trans (by decide +kernel) hM
    | dsimp -zeta only
def fm_execPmCopyGo : Nat := 2 ^ 1 ||| 2 ^ 2 ||| fm_pmCopyGo
theorem execPmCopyGo_fr {M} (n : Nat) (max : Nat) (s t' : State) (hM : MaskLe fm_execPmCopyGo M) (ht : execPmCopyGo n max s = .next t') : Fr M s t' := by
  unfold execPmCopyGo at ht
  refine run_fr (MaskLe.trans (by decide +kernel) hM) (fun x hs => ?_) ht
  repeat' first
    | with_reducible first | assumption | apply State.pmCopyGo_fr
    | exact MaskLe.trans (by decide +kernel) hM
    | dsimp -zeta only
def fm_execPmCopyDone : Nat := 2 ^ 1 ||| 2 ^ 2 ||| fm_pmCopyDone
theorem execPmCopyDone_fr {M} (n : Nat) (bad : Bool) (s t' : State) (hM : MaskLe fm_execPmCopyDone M) (ht : execPmCopyDone n bad s = .next t') : Fr M s t' := by
  unfold execPmCopyDone at ht
  refine run_fr (MaskLe.trans (by decide +kernel) hM) (fun x hs => ?_) ht
  repeat' first
    | with_reducible first | assumption | apply State.pmCopyDone_fr
    | exact MaskLe.trans (by decide +kernel) hM
    | dsimp -zeta only
def fm_execFwmRing : Nat := 2 ^ 1 ||| 2 ^ 2 ||| fm_via ||| fm_mbRing
theorem execFwmRing_fr {M} (w : Who) (n : Nat) (s t' : State) (hM : MaskLe fm_execFwmRing M) (ht : execFwmRing w n s = .next t') : Fr M s t' := by
  unfold execFwmRing at ht
  refine runBus_fr (MaskLe.trans (by decide +kernel) hM) (fun x hs => ?_) ht
  repeat' first
    | with_reducible first | assumption | apply State.mbRing_fr
    | exact MaskLe.trans (by decide +kernel) hM
    | dsimp -zeta only
def fm_execMailboxResponse : Nat := 2 ^ 1 ||| 2 ^ 2 ||| fm_mailServe
theorem execMailboxResponse_fr {M} (n : Nat) (t : TrustEnv) (x : PersEnv) (s t' : State) (hM : MaskLe fm_execMailboxResponse M) (ht : execMailboxResponse n t x s = .next t') : Fr M s t' := by
  unfold execMailboxResponse at ht
  refine run_fr (MaskLe.trans (by decide +kernel) hM) (fun x hs => ?_) ht
  repeat' first
    | with_reducible first | assumption | apply State.mailServe_fr | apply fr_ite | apply fr2_ite
    | exact MaskLe.trans (by decide +kernel) hM
    | split
    | dsimp -zeta only
def fm_execAttest : Nat := 2 ^ 1 ||| 2 ^ 2 ||| fm_trustOp
theorem execAttest_fr {M} (n : Nat) (s t' : State) (hM : MaskLe fm_execAttest M) (ht : execAttest n s = .next t') : Fr M s t' := by
  unfold execAttest at ht
  refine run_fr (MaskLe.trans (by decide +kernel) hM) (fun x hs => ?_) ht
  repeat' first
    | with_reducible first | assumption | apply State.trustOp_fr
    | exact MaskLe.trans (by decide +kernel) hM
    | dsimp -zeta only
def fm_execGetCert : Nat := 2 ^ 1 ||| 2 ^ 2 ||| fm_trustOp
theorem execGetCert_fr {M} (n : Nat) (s t' : State) (hM : MaskLe fm_execGetCert M) (ht : execGetCert n s = .next t') : Fr M s t' := by
  unfold execGetCert at ht
  refine run_fr (MaskLe.trans (by decide +kernel) hM) (fun x hs => ?_) ht
  repeat' first
    | with_reducible first | assumption | apply State.trustOp_fr
    | exact MaskLe.trans (by decide +kernel) hM
    | dsimp -zeta only
def fm_execDebugChallenge : Nat := 2 ^ 1 ||| 2 ^ 2 ||| fm_trustOp
theorem execDebugChallenge_fr {M}  (s t' : State) (hM : MaskLe fm_execDebugChallenge M) (ht : execDebugChallenge  s = .next t') : Fr M s t' := by
  unfold execDebugChallenge at ht
  refine run_fr (MaskLe.trans (by decide +kernel) hM) (fun x hs => ?_) ht
  repeat' first
    | with_reducible first | assumption | apply State.trustOp_fr
    | exact MaskLe.trans (by decide +kernel) hM
    | dsimp -zeta only
def fm_execDebugUnlock : Nat := 2 ^ 1 ||| 2 ^ 2 ||| fm_trustOp
theorem execDebugUnlock_fr {M}  (s t' : State) (hM : MaskLe fm_execDebugUnlock M) (ht : execDebugUnlock  s = .next t') : Fr M s t' := by
  unfold execDebugUnlock at ht
  refine run_fr (MaskLe.trans (by decide +kernel) hM) (fun x hs => ?_) ht
  repeat' first
    | with_reducible first | assumption | apply State.trustOp_fr
    | exact MaskLe.trans (by decide +kernel) hM
    | dsimp -zeta only
def fm_execCommitRollback : Nat := 2 ^ 1 ||| 2 ^ 2 ||| fm_trustOp
theorem execCommitRollback_fr {M} (x : TrustEnv) (s t' : State) (hM : MaskLe fm_execCommitRollback M) (ht : execCommitRollback x s = .next t') : Fr M s t' := by
  unfold execCommitRollback at ht
  refine run_fr (MaskLe.trans (by decide +kernel) hM) (fun x hs => ?_) ht
  repeat' first
    | with_reducible first | assumption | apply State.trustOp_fr
    | exact MaskLe.trans (by decide +kernel) hM
    | dsimp -zeta only
def fm_execRevokeSlot : Nat := 2 ^ 1 ||| 2 ^ 2 ||| fm_trustOp
theorem execRevokeSlot_fr {M}  (s t' : State) (hM : MaskLe fm_execRevokeSlot M) (ht : execRevokeSlot  s = .next t') : Fr M s t' := by
  unfold execRevokeSlot at ht
  refine run_fr (MaskLe.trans (by decide +kernel) hM) (fun x hs => ?_) ht
  repeat' first
    | with_reducible first | assumption | apply State.trustOp_fr
    | exact MaskLe.trans (by decide +kernel) hM
    | dsimp -zeta only
def fm_execUpdateEn : Nat := 2 ^ 1 ||| 2 ^ 2 ||| fm_trustOp
theorem execUpdateEn_fr {M} (x : TrustEnv) (s t' : State) (hM : MaskLe fm_execUpdateEn M) (ht : execUpdateEn x s = .next t') : Fr M s t' := by
  unfold execUpdateEn at ht
  refine run_fr (MaskLe.trans (by decide +kernel) hM) (fun x hs => ?_) ht
  repeat' first
    | with_reducible first | assumption | apply State.trustOp_fr
    | exact MaskLe.trans (by decide +kernel) hM
    | dsimp -zeta only
def fm_execBootInfo : Nat := 2 ^ 1 ||| 2 ^ 2 ||| fm_trustOp
theorem execBootInfo_fr {M}  (s t' : State) (hM : MaskLe fm_execBootInfo M) (ht : execBootInfo  s = .next t') : Fr M s t' := by
  unfold execBootInfo at ht
  refine run_fr (MaskLe.trans (by decide +kernel) hM) (fun x hs => ?_) ht
  repeat' first
    | with_reducible first | assumption | apply State.trustOp_fr
    | exact MaskLe.trans (by decide +kernel) hM
    | dsimp -zeta only
def fm_execPushStart : Nat := 2 ^ 1 ||| 2 ^ 2 ||| fm_pushStart
theorem execPushStart_fr {M} (kind : Nat) (len : Nat) (s t' : State) (hM : MaskLe fm_execPushStart M) (ht : execPushStart kind len s = .next t') : Fr M s t' := by
  unfold execPushStart at ht
  refine run_fr (MaskLe.trans (by decide +kernel) hM) (fun x hs => ?_) ht
  repeat' first
    | with_reducible first | assumption | apply State.pushStart_fr
    | exact MaskLe.trans (by decide +kernel) hM
    | dsimp -zeta only
def fm_execPushData : Nat := 2 ^ 1 ||| 2 ^ 2 ||| fm_via ||| fm_pushData
theorem execPushData_fr {M} (w : Who) (v : Nat) (s t' : State) (hM : MaskLe fm_execPushData M) (ht : execPushData w v s = .next t') : Fr M s t' := by
  unfold execPushData at ht
  refine runBus_fr (MaskLe.trans (by decide +kernel) hM) (fun x hs => ?_) ht
  repeat' first
    | with_reducible first | assumption | apply State.pushData_fr
    | exact MaskLe.trans (by decide +kernel) hM
    | dsimp -zeta only
def fm_execPushEnd : Nat := 2 ^ 1 ||| 2 ^ 2 ||| fm_pushEnd
theorem execPushEnd_fr {M}  (s t' : State) (hM : MaskLe fm_execPushEnd M) (ht : execPushEnd  s = .next t') : Fr M s t' := by
  unfold execPushEnd at ht
  refine run_fr (MaskLe.trans (by decide +kernel) hM) (fun x hs => ?_) ht
  repeat' first
    | with_reducible first | assumption | apply State.pushEnd_fr
    | exact MaskLe.trans (by decide +kernel) hM
    | dsimp -zeta only
def fm_execPushAbort : Nat := 2 ^ 1 ||| 2 ^ 2 ||| fm_pushAbort
theorem execPushAbort_fr {M}  (s t' : State) (hM : MaskLe fm_execPushAbort M) (ht : execPushAbort  s = .next t') : Fr M s t' := by
  unfold execPushAbort at ht
  refine run_fr (MaskLe.trans (by decide +kernel) hM) (fun x hs => ?_) ht
  repeat' first
    | with_reducible first | assumption | apply State.pushAbort_fr
    | exact MaskLe.trans (by decide +kernel) hM
    | dsimp -zeta only
def fm_execImageVerified : Nat := 2 ^ 1 ||| 2 ^ 2 ||| fm_imageVerified
theorem execImageVerified_fr {M} (kind : Nat) (flash : Option FlashImage) (x : CallTests) (s t' : State) (hM : MaskLe fm_execImageVerified M) (ht : execImageVerified kind flash x s = .next t') : Fr M s t' := by
  unfold execImageVerified at ht
  refine run_fr (MaskLe.trans (by decide +kernel) hM) (fun x hs => ?_) ht
  repeat' first
    | with_reducible first | assumption | apply State.imageVerified_fr | apply fr_ite | apply fr2_ite
    | exact MaskLe.trans (by decide +kernel) hM
    | split
    | dsimp -zeta only
def fm_execFwmWdogKick : Nat := 2 ^ 1 ||| 2 ^ 2 ||| fm_via ||| fm_wdogKick
theorem execFwmWdogKick_fr {M} (w : Who) (s t' : State) (hM : MaskLe fm_execFwmWdogKick M) (ht : execFwmWdogKick w s = .next t') : Fr M s t' := by
  unfold execFwmWdogKick at ht
  refine runBus_fr (MaskLe.trans (by decide +kernel) hM) (fun x hs => ?_) ht
  repeat' first
    | with_reducible first | assumption | apply State.wdogKick_fr
    | exact MaskLe.trans (by decide +kernel) hM
    | dsimp -zeta only
def fm_execEnWdogExpiry : Nat := 2 ^ 1 ||| 2 ^ 2 ||| fm_wdogExpire
theorem execEnWdogExpiry_fr {M} (i : Nat) (s t' : State) (hM : MaskLe fm_execEnWdogExpiry M) (ht : execEnWdogExpiry i s = .next t') : Fr M s t' := by
  unfold execEnWdogExpiry at ht
  refine run_fr (MaskLe.trans (by decide +kernel) hM) (fun x hs => ?_) ht
  repeat' first
    | with_reducible first | assumption | apply State.wdogExpire_fr
    | exact MaskLe.trans (by decide +kernel) hM
    | dsimp -zeta only
def fm_execSmWdogExpiry : Nat := 2 ^ 1 ||| 2 ^ 2 ||| fm_smExpiry
theorem execSmWdogExpiry_fr {M} (lockstep : Bool) (s t' : State) (hM : MaskLe fm_execSmWdogExpiry M) (ht : execSmWdogExpiry lockstep s = .next t') : Fr M s t' := by
  unfold execSmWdogExpiry at ht
  refine run_fr (MaskLe.trans (by decide +kernel) hM) (fun x hs => ?_) ht
  repeat' first
    | with_reducible first | assumption | apply State.smExpiry_fr
    | exact MaskLe.trans (by decide +kernel) hM
    | dsimp -zeta only
def fm_execDevIdentity : Nat := 2 ^ 1 ||| 2 ^ 2 ||| fm_persMail
theorem execDevIdentity_fr {M} (p : Nat) (s t' : State) (hM : MaskLe fm_execDevIdentity M) (ht : execDevIdentity p s = .next t') : Fr M s t' := by
  unfold execDevIdentity at ht
  refine run_fr (MaskLe.trans (by decide +kernel) hM) (fun x hs => ?_) ht
  repeat' first
    | with_reducible first | assumption | apply State.persMail_fr
    | exact MaskLe.trans (by decide +kernel) hM
    | dsimp -zeta only
def fm_execDevStatus : Nat := 2 ^ 1 ||| 2 ^ 2 ||| fm_persMail
theorem execDevStatus_fr {M} (p : Nat) (s t' : State) (hM : MaskLe fm_execDevStatus M) (ht : execDevStatus p s = .next t') : Fr M s t' := by
  unfold execDevStatus at ht
  refine run_fr (MaskLe.trans (by decide +kernel) hM) (fun x hs => ?_) ht
  repeat' first
    | with_reducible first | assumption | apply State.persMail_fr
    | exact MaskLe.trans (by decide +kernel) hM
    | dsimp -zeta only
def fm_execDevReset : Nat := 2 ^ 1 ||| 2 ^ 2 ||| fm_persResetGo
theorem execDevReset_fr {M} (p : Nat) (x : PersEnv) (s t' : State) (hM : MaskLe fm_execDevReset M) (ht : execDevReset p x s = .next t') : Fr M s t' := by
  unfold execDevReset at ht
  refine run_fr (MaskLe.trans (by decide +kernel) hM) (fun x hs => ?_) ht
  repeat' first
    | with_reducible first | assumption | apply State.persResetGo_fr
    | exact MaskLe.trans (by decide +kernel) hM
    | dsimp -zeta only
def fm_execLaneSet : Nat := 2 ^ 1 ||| 2 ^ 2 ||| fm_persMail
theorem execLaneSet_fr {M} (p : Nat) (x : PersEnv) (s t' : State) (hM : MaskLe fm_execLaneSet M) (ht : execLaneSet p x s = .next t') : Fr M s t' := by
  unfold execLaneSet at ht
  refine run_fr (MaskLe.trans (by decide +kernel) hM) (fun x hs => ?_) ht
  repeat' first
    | with_reducible first | assumption | apply State.persMail_fr
    | exact MaskLe.trans (by decide +kernel) hM
    | dsimp -zeta only
def fm_execLaneGet : Nat := 2 ^ 1 ||| 2 ^ 2 ||| fm_persMail
theorem execLaneGet_fr {M} (p : Nat) (s t' : State) (hM : MaskLe fm_execLaneGet M) (ht : execLaneGet p s = .next t') : Fr M s t' := by
  unfold execLaneGet at ht
  refine run_fr (MaskLe.trans (by decide +kernel) hM) (fun x hs => ?_) ht
  repeat' first
    | with_reducible first | assumption | apply State.persMail_fr
    | exact MaskLe.trans (by decide +kernel) hM
    | dsimp -zeta only
def fm_execIfSet : Nat := 2 ^ 1 ||| 2 ^ 2 ||| fm_persMail
theorem execIfSet_fr {M} (p : Nat) (x : PersEnv) (s t' : State) (hM : MaskLe fm_execIfSet M) (ht : execIfSet p x s = .next t') : Fr M s t' := by
  unfold execIfSet at ht
  refine run_fr (MaskLe.trans (by decide +kernel) hM) (fun x hs => ?_) ht
  repeat' first
    | with_reducible first | assumption | apply State.persMail_fr
    | exact MaskLe.trans (by decide +kernel) hM
    | dsimp -zeta only
def fm_execLoopback : Nat := 2 ^ 1 ||| 2 ^ 2 ||| fm_persMail
theorem execLoopback_fr {M} (p : Nat) (s t' : State) (hM : MaskLe fm_execLoopback M) (ht : execLoopback p s = .next t') : Fr M s t' := by
  unfold execLoopback at ht
  refine run_fr (MaskLe.trans (by decide +kernel) hM) (fun x hs => ?_) ht
  repeat' first
    | with_reducible first | assumption | apply State.persMail_fr
    | exact MaskLe.trans (by decide +kernel) hM
    | dsimp -zeta only
def fm_execConnAdd : Nat := 2 ^ 1 ||| 2 ^ 2 ||| fm_persMail
theorem execConnAdd_fr {M} (p : Nat) (x : PersEnv) (s t' : State) (hM : MaskLe fm_execConnAdd M) (ht : execConnAdd p x s = .next t') : Fr M s t' := by
  unfold execConnAdd at ht
  refine run_fr (MaskLe.trans (by decide +kernel) hM) (fun x hs => ?_) ht
  repeat' first
    | with_reducible first | assumption | apply State.persMail_fr
    | exact MaskLe.trans (by decide +kernel) hM
    | dsimp -zeta only
def fm_execConnModify : Nat := 2 ^ 1 ||| 2 ^ 2 ||| fm_persMail
theorem execConnModify_fr {M} (p : Nat) (x : PersEnv) (s t' : State) (hM : MaskLe fm_execConnModify M) (ht : execConnModify p x s = .next t') : Fr M s t' := by
  unfold execConnModify at ht
  refine run_fr (MaskLe.trans (by decide +kernel) hM) (fun x hs => ?_) ht
  repeat' first
    | with_reducible first | assumption | apply State.persMail_fr
    | exact MaskLe.trans (by decide +kernel) hM
    | dsimp -zeta only
def fm_execConnDelete : Nat := 2 ^ 1 ||| 2 ^ 2 ||| fm_persMail
theorem execConnDelete_fr {M} (p : Nat) (x : PersEnv) (s t' : State) (hM : MaskLe fm_execConnDelete M) (ht : execConnDelete p x s = .next t') : Fr M s t' := by
  unfold execConnDelete at ht
  refine run_fr (MaskLe.trans (by decide +kernel) hM) (fun x hs => ?_) ht
  repeat' first
    | with_reducible first | assumption | apply State.persMail_fr
    | exact MaskLe.trans (by decide +kernel) hM
    | dsimp -zeta only
def fm_execConnGet : Nat := 2 ^ 1 ||| 2 ^ 2 ||| fm_persMail
theorem execConnGet_fr {M} (p : Nat) (s t' : State) (hM : MaskLe fm_execConnGet M) (ht : execConnGet p s = .next t') : Fr M s t' := by
  unfold execConnGet at ht
  refine run_fr (MaskLe.trans (by decide +kernel) hM) (fun x hs => ?_) ht
  repeat' first
    | with_reducible first | assumption | apply State.persMail_fr
    | exact MaskLe.trans (by decide +kernel) hM
    | dsimp -zeta only
def fm_execPmCurrent : Nat := 2 ^ 1 ||| 2 ^ 2 ||| fm_persMail
theorem execPmCurrent_fr {M} (p : Nat) (s t' : State) (hM : MaskLe fm_execPmCurrent M) (ht : execPmCurrent p s = .next t') : Fr M s t' := by
  unfold execPmCurrent at ht
  refine run_fr (MaskLe.trans (by decide +kernel) hM) (fun x hs => ?_) ht
  repeat' first
    | with_reducible first | assumption | apply State.persMail_fr
    | exact MaskLe.trans (by decide +kernel) hM
    | dsimp -zeta only
def fm_execPmHistory : Nat := 2 ^ 1 ||| 2 ^ 2 ||| fm_persMail
theorem execPmHistory_fr {M} (p : Nat) (s t' : State) (hM : MaskLe fm_execPmHistory M) (ht : execPmHistory p s = .next t') : Fr M s t' := by
  unfold execPmHistory at ht
  refine run_fr (MaskLe.trans (by decide +kernel) hM) (fun x hs => ?_) ht
  repeat' first
    | with_reducible first | assumption | apply State.persMail_fr
    | exact MaskLe.trans (by decide +kernel) hM
    | dsimp -zeta only
def fm_execPmThresh : Nat := 2 ^ 1 ||| 2 ^ 2 ||| fm_persMail
theorem execPmThresh_fr {M} (p : Nat) (s t' : State) (hM : MaskLe fm_execPmThresh M) (ht : execPmThresh p s = .next t') : Fr M s t' := by
  unfold execPmThresh at ht
  refine run_fr (MaskLe.trans (by decide +kernel) hM) (fun x hs => ?_) ht
  repeat' first
    | with_reducible first | assumption | apply State.persMail_fr
    | exact MaskLe.trans (by decide +kernel) hM
    | dsimp -zeta only
def fm_execPgAdd : Nat := 2 ^ 1 ||| 2 ^ 2 ||| fm_persMail
theorem execPgAdd_fr {M} (p : Nat) (x : PersEnv) (s t' : State) (hM : MaskLe fm_execPgAdd M) (ht : execPgAdd p x s = .next t') : Fr M s t' := by
  unfold execPgAdd at ht
  refine run_fr (MaskLe.trans (by decide +kernel) hM) (fun x hs => ?_) ht
  repeat' first
    | with_reducible first | assumption | apply State.persMail_fr
    | exact MaskLe.trans (by decide +kernel) hM
    | dsimp -zeta only
def fm_execPgDelete : Nat := 2 ^ 1 ||| 2 ^ 2 ||| fm_persMail
theorem execPgDelete_fr {M} (p : Nat) (x : PersEnv) (s t' : State) (hM : MaskLe fm_execPgDelete M) (ht : execPgDelete p x s = .next t') : Fr M s t' := by
  unfold execPgDelete at ht
  refine run_fr (MaskLe.trans (by decide +kernel) hM) (fun x hs => ?_) ht
  repeat' first
    | with_reducible first | assumption | apply State.persMail_fr
    | exact MaskLe.trans (by decide +kernel) hM
    | dsimp -zeta only
def fm_execPgCommand : Nat := 2 ^ 1 ||| 2 ^ 2 ||| fm_persMail
theorem execPgCommand_fr {M} (p : Nat) (x : PersEnv) (s t' : State) (hM : MaskLe fm_execPgCommand M) (ht : execPgCommand p x s = .next t') : Fr M s t' := by
  unfold execPgCommand at ht
  refine run_fr (MaskLe.trans (by decide +kernel) hM) (fun x hs => ?_) ht
  repeat' first
    | with_reducible first | assumption | apply State.persMail_fr
    | exact MaskLe.trans (by decide +kernel) hM
    | dsimp -zeta only
def fm_execPgStatus : Nat := 2 ^ 1 ||| 2 ^ 2 ||| fm_persMail
theorem execPgStatus_fr {M} (p : Nat) (s t' : State) (hM : MaskLe fm_execPgStatus M) (ht : execPgStatus p s = .next t') : Fr M s t' := by
  unfold execPgStatus at ht
  refine run_fr (MaskLe.trans (by decide +kernel) hM) (fun x hs => ?_) ht
  repeat' first
    | with_reducible first | assumption | apply State.persMail_fr
    | exact MaskLe.trans (by decide +kernel) hM
    | dsimp -zeta only
def fm_execOhOpen : Nat := 2 ^ 1 ||| 2 ^ 2 ||| fm_persMail
theorem execOhOpen_fr {M} (p : Nat) (x : PersEnv) (s t' : State) (hM : MaskLe fm_execOhOpen M) (ht : execOhOpen p x s = .next t') : Fr M s t' := by
  unfold execOhOpen at ht
  refine run_fr (MaskLe.trans (by decide +kernel) hM) (fun x hs => ?_) ht
  repeat' first
    | with_reducible first | assumption | apply State.persMail_fr
    | exact MaskLe.trans (by decide +kernel) hM
    | dsimp -zeta only
def fm_execOhClose : Nat := 2 ^ 1 ||| 2 ^ 2 ||| fm_persMail
theorem execOhClose_fr {M} (p : Nat) (x : PersEnv) (s t' : State) (hM : MaskLe fm_execOhClose M) (ht : execOhClose p x s = .next t') : Fr M s t' := by
  unfold execOhClose at ht
  refine run_fr (MaskLe.trans (by decide +kernel) hM) (fun x hs => ?_) ht
  repeat' first
    | with_reducible first | assumption | apply State.persMail_fr
    | exact MaskLe.trans (by decide +kernel) hM
    | dsimp -zeta only
def fm_execOhSend : Nat := 2 ^ 1 ||| 2 ^ 2 ||| fm_persMail
theorem execOhSend_fr {M} (p : Nat) (s t' : State) (hM : MaskLe fm_execOhSend M) (ht : execOhSend p s = .next t') : Fr M s t' := by
  unfold execOhSend at ht
  refine run_fr (MaskLe.trans (by decide +kernel) hM) (fun x hs => ?_) ht
  repeat' first
    | with_reducible first | assumption | apply State.persMail_fr
    | exact MaskLe.trans (by decide +kernel) hM
    | dsimp -zeta only
def fm_execOhReceive : Nat := 2 ^ 1 ||| 2 ^ 2 ||| fm_persMail
theorem execOhReceive_fr {M} (p : Nat) (s t' : State) (hM : MaskLe fm_execOhReceive M) (ht : execOhReceive p s = .next t') : Fr M s t' := by
  unfold execOhReceive at ht
  refine run_fr (MaskLe.trans (by decide +kernel) hM) (fun x hs => ?_) ht
  repeat' first
    | with_reducible first | assumption | apply State.persMail_fr
    | exact MaskLe.trans (by decide +kernel) hM
    | dsimp -zeta only
def fm_execAlmList : Nat := 2 ^ 1 ||| 2 ^ 2 ||| fm_persMail
theorem execAlmList_fr {M} (p : Nat) (s t' : State) (hM : MaskLe fm_execAlmList M) (ht : execAlmList p s = .next t') : Fr M s t' := by
  unfold execAlmList at ht
  refine run_fr (MaskLe.trans (by decide +kernel) hM) (fun x hs => ?_) ht
  repeat' first
    | with_reducible first | assumption | apply State.persMail_fr
    | exact MaskLe.trans (by decide +kernel) hM
    | dsimp -zeta only
def fm_execAlmMask : Nat := 2 ^ 1 ||| 2 ^ 2 ||| fm_persMail
theorem execAlmMask_fr {M} (p : Nat) (s t' : State) (hM : MaskLe fm_execAlmMask M) (ht : execAlmMask p s = .next t') : Fr M s t' := by
  unfold execAlmMask at ht
  refine run_fr (MaskLe.trans (by decide +kernel) hM) (fun x hs => ?_) ht
  repeat' first
    | with_reducible first | assumption | apply State.persMail_fr
    | exact MaskLe.trans (by decide +kernel) hM
    | dsimp -zeta only
def fm_execTimeGet : Nat := 2 ^ 1 ||| 2 ^ 2 ||| fm_persMail
theorem execTimeGet_fr {M} (p : Nat) (s t' : State) (hM : MaskLe fm_execTimeGet M) (ht : execTimeGet p s = .next t') : Fr M s t' := by
  unfold execTimeGet at ht
  refine run_fr (MaskLe.trans (by decide +kernel) hM) (fun x hs => ?_) ht
  repeat' first
    | with_reducible first | assumption | apply State.persMail_fr
    | exact MaskLe.trans (by decide +kernel) hM
    | dsimp -zeta only
def fm_execTimeSet : Nat := 2 ^ 1 ||| 2 ^ 2 ||| fm_persMail
theorem execTimeSet_fr {M} (p : Nat) (s t' : State) (hM : MaskLe fm_execTimeSet M) (ht : execTimeSet p s = .next t') : Fr M s t' := by
  unfold execTimeSet at ht
  refine run_fr (MaskLe.trans (by decide +kernel) hM) (fun x hs => ?_) ht
  repeat' first
    | with_reducible first | assumption | apply State.persMail_fr
    | exact MaskLe.trans (by decide +kernel) hM
    | dsimp -zeta only
def fm_execPersonalityFrame : Nat := 2 ^ 1 ||| 2 ^ 2 ||| fm_persFrame
theorem execPersonalityFrame_fr {M} (x : PersEnv) (s t' : State) (hM : MaskLe fm_execPersonalityFrame M) (ht : execPersonalityFrame x s = .next t') : Fr M s t' := by
  unfold execPersonalityFrame at ht
  refine run_fr (MaskLe.trans (by decide +kernel) hM) (fun x hs => ?_) ht
  repeat' first
    | with_reducible first | assumption | apply State.persFrame_fr
    | exact MaskLe.trans (by decide +kernel) hM
    | dsimp -zeta only
def fm_execPmbinStatus : Nat := 2 ^ 1 ||| 2 ^ 2 ||| fm_pmBinServe
theorem execPmbinStatus_fr {M}  (s t' : State) (hM : MaskLe fm_execPmbinStatus M) (ht : execPmbinStatus  s = .next t') : Fr M s t' := by
  unfold execPmbinStatus at ht
  refine run_fr (MaskLe.trans (by decide +kernel) hM) (fun x hs => ?_) ht
  repeat' first
    | with_reducible first | assumption | apply State.pageZero_fr | apply State.pmBinServe_fr
    | exact MaskLe.trans (by decide +kernel) hM
    | (intro x)
    | dsimp -zeta only
def fm_execPmbinGet : Nat := 2 ^ 1 ||| 2 ^ 2 ||| fm_pmBinServe
theorem execPmbinGet_fr {M}  (s t' : State) (hM : MaskLe fm_execPmbinGet M) (ht : execPmbinGet  s = .next t') : Fr M s t' := by
  unfold execPmbinGet at ht
  refine run_fr (MaskLe.trans (by decide +kernel) hM) (fun x hs => ?_) ht
  repeat' first
    | with_reducible first | assumption | apply State.pageZero_fr | apply State.pmBinServe_fr
    | exact MaskLe.trans (by decide +kernel) hM
    | (intro x)
    | dsimp -zeta only
def fm_execHousekeepingStatus : Nat := 2 ^ 1 ||| 2 ^ 2 ||| fm_houseServe
theorem execHousekeepingStatus_fr {M}  (s t' : State) (hM : MaskLe fm_execHousekeepingStatus M) (ht : execHousekeepingStatus  s = .next t') : Fr M s t' := by
  unfold execHousekeepingStatus at ht
  refine run_fr (MaskLe.trans (by decide +kernel) hM) (fun x hs => ?_) ht
  repeat' first
    | with_reducible first | assumption | apply State.pageZero_fr | apply State.houseServe_fr
    | exact MaskLe.trans (by decide +kernel) hM
    | (intro x)
    | dsimp -zeta only
def fm_execReportWord : Nat := 2 ^ 1 ||| 2 ^ 2 ||| fm_fltEnd ||| fm_reportWord
theorem execReportWord_fr {M} (link : Nat) (s t' : State) (hM : MaskLe fm_execReportWord M) (ht : execReportWord link s = .next t') : Fr M s t' := by
  unfold execReportWord at ht
  refine run_fr (MaskLe.trans (by decide +kernel) hM) (fun x hs => ?_) ht
  repeat' first
    | with_reducible first | assumption | apply State.fltEnd_fr | apply State.reportWord_fr | apply fr_ite | apply fr2_ite
    | exact MaskLe.trans (by decide +kernel) hM
    | split
    | dsimp -zeta only
def fm_execWireBroken : Nat := 2 ^ 1 ||| 2 ^ 2 ||| fm_breakLink
theorem execWireBroken_fr {M} (link : Nat) (s t' : State) (hM : MaskLe fm_execWireBroken M) (ht : execWireBroken link s = .next t') : Fr M s t' := by
  unfold execWireBroken at ht
  refine run_fr (MaskLe.trans (by decide +kernel) hM) (fun x hs => ?_) ht
  repeat' first
    | with_reducible first | assumption | apply State.breakLink_fr | apply fr_ite | apply fr2_ite
    | exact MaskLe.trans (by decide +kernel) hM
    | split
    | dsimp -zeta only
def fm_execReportResend : Nat := 2 ^ 1 ||| 2 ^ 2 ||| fm_reportResend
theorem execReportResend_fr {M} (link : Nat) (s t' : State) (hM : MaskLe fm_execReportResend M) (ht : execReportResend link s = .next t') : Fr M s t' := by
  unfold execReportResend at ht
  refine run_fr (MaskLe.trans (by decide +kernel) hM) (fun x hs => ?_) ht
  repeat' first
    | with_reducible first | assumption | apply State.reportResend_fr | apply fr_ite | apply fr2_ite
    | exact MaskLe.trans (by decide +kernel) hM
    | split
    | dsimp -zeta only
def fm_execFltAgeScan : Nat := 2 ^ 1 ||| 2 ^ 2 ||| fm_fltEnd ||| fm_ageScan
theorem execFltAgeScan_fr {M}  (s t' : State) (hM : MaskLe fm_execFltAgeScan M) (ht : execFltAgeScan  s = .next t') : Fr M s t' := by
  unfold execFltAgeScan at ht
  refine run_fr (MaskLe.trans (by decide +kernel) hM) (fun x hs => ?_) ht
  repeat' first
    | with_reducible first | assumption | apply State.fltEnd_fr | apply State.ageScan_fr
    | exact MaskLe.trans (by decide +kernel) hM
    | dsimp -zeta only
def fm_execFltAck : Nat := 2 ^ 1 ||| 2 ^ 2 ||| fm_fltEnd ||| fm_fltAck
theorem execFltAck_fr {M} (v : Nat) (s t' : State) (hM : MaskLe fm_execFltAck M) (ht : execFltAck v s = .next t') : Fr M s t' := by
  unfold execFltAck at ht
  refine run_fr (MaskLe.trans (by decide +kernel) hM) (fun x hs => ?_) ht
  repeat' first
    | with_reducible first | assumption | apply State.fltEnd_fr | apply State.fltAck_fr
    | exact MaskLe.trans (by decide +kernel) hM
    | dsimp -zeta only
def fm_execFltInject : Nat := 2 ^ 1 ||| 2 ^ 2 ||| fm_fltInject
theorem execFltInject_fr {M} (v : Nat) (s t' : State) (hM : MaskLe fm_execFltInject M) (ht : execFltInject v s = .next t') : Fr M s t' := by
  unfold execFltInject at ht
  refine run_fr (MaskLe.trans (by decide +kernel) hM) (fun x hs => ?_) ht
  repeat' first
    | with_reducible first | assumption | apply State.fltInject_fr
    | exact MaskLe.trans (by decide +kernel) hM
    | dsimp -zeta only
def fm_execLogWrite : Nat := 2 ^ 1 ||| 2 ^ 2 ||| fm_fltEnd ||| fm_logWriteStep
theorem execLogWrite_fr {M} (bad : Bool) (s t' : State) (hM : MaskLe fm_execLogWrite M) (ht : execLogWrite bad s = .next t') : Fr M s t' := by
  unfold execLogWrite at ht
  refine run_fr (MaskLe.trans (by decide +kernel) hM) (fun x hs => ?_) ht
  repeat' first
    | with_reducible first | assumption | apply State.fltEnd_fr | apply State.logWriteStep_fr
    | exact MaskLe.trans (by decide +kernel) hM
    | dsimp -zeta only
def fm_execKeyClose : Nat := 2 ^ 1 ||| 2 ^ 2 ||| fm_fltEnd ||| fm_keyClose
theorem execKeyClose_fr {M} (cls : Nat) (source : Nat) (s t' : State) (hM : MaskLe fm_execKeyClose M) (ht : execKeyClose cls source s = .next t') : Fr M s t' := by
  unfold execKeyClose at ht
  refine run_fr (MaskLe.trans (by decide +kernel) hM) (fun x hs => ?_) ht
  repeat' first
    | with_reducible first | assumption | apply State.fltEnd_fr | apply State.keyClose_fr
    | exact MaskLe.trans (by decide +kernel) hM
    | dsimp -zeta only
def fm_execBankFail : Nat := 2 ^ 1 ||| 2 ^ 2 ||| fm_bankFailAt
theorem execBankFail_fr {M} (k : Nat) (s t' : State) (hM : MaskLe fm_execBankFail M) (ht : execBankFail k s = .next t') : Fr M s t' := by
  unfold execBankFail at ht
  refine run_fr (MaskLe.trans (by decide +kernel) hM) (fun x hs => ?_) ht
  repeat' first
    | with_reducible first | assumption | apply State.bankFailAt_fr
    | exact MaskLe.trans (by decide +kernel) hM
    | dsimp -zeta only
def fm_execGhostClear : Nat := 2 ^ 1 ||| 2 ^ 2 ||| fm_via ||| fm_ghostClear
theorem execGhostClear_fr {M} (w : Who) (s t' : State) (hM : MaskLe fm_execGhostClear M) (ht : execGhostClear w s = .next t') : Fr M s t' := by
  unfold execGhostClear at ht
  refine runBus_fr (MaskLe.trans (by decide +kernel) hM) (fun x hs => ?_) ht
  repeat' first
    | with_reducible first | assumption | apply State.ghostClear_fr
    | exact MaskLe.trans (by decide +kernel) hM
    | dsimp -zeta only
def fm_execPlaybillGo : Nat := 2 ^ 1 ||| 2 ^ 2 ||| fm_plbGo
theorem execPlaybillGo_fr {M}  (s t' : State) (hM : MaskLe fm_execPlaybillGo M) (ht : execPlaybillGo  s = .next t') : Fr M s t' := by
  unfold execPlaybillGo at ht
  refine run_fr (MaskLe.trans (by decide +kernel) hM) (fun x hs => ?_) ht
  repeat' first
    | with_reducible first | assumption | apply State.plbGo_fr
    | exact MaskLe.trans (by decide +kernel) hM
    | dsimp -zeta only
def fm_execPlaybillDone : Nat := 2 ^ 1 ||| 2 ^ 2 ||| fm_plbDone
theorem execPlaybillDone_fr {M}  (s t' : State) (hM : MaskLe fm_execPlaybillDone M) (ht : execPlaybillDone  s = .next t') : Fr M s t' := by
  unfold execPlaybillDone at ht
  refine run_fr (MaskLe.trans (by decide +kernel) hM) (fun x hs => ?_) ht
  repeat' first
    | with_reducible first | assumption | apply State.plbDone_fr
    | exact MaskLe.trans (by decide +kernel) hM
    | dsimp -zeta only
def fm_execDigestRecompute : Nat := 2 ^ 1 ||| 2 ^ 2 ||| fm_digestRun
theorem execDigestRecompute_fr {M} (j : Nat) (s t' : State) (hM : MaskLe fm_execDigestRecompute M) (ht : execDigestRecompute j s = .next t') : Fr M s t' := by
  unfold execDigestRecompute at ht
  refine run_fr (MaskLe.trans (by decide +kernel) hM) (fun x hs => ?_) ht
  repeat' first
    | with_reducible first | assumption | apply State.digestRun_fr | apply fr_ite | apply fr2_ite
    | exact MaskLe.trans (by decide +kernel) hM
    | split
    | dsimp -zeta only
def fm_execResetNRelease : Nat := 2 ^ 1 ||| 2 ^ 2 ||| fm_resetRelease
theorem execResetNRelease_fr {M} (strap : Nat) (s t' : State) (hM : MaskLe fm_execResetNRelease M) (ht : execResetNRelease strap s = .next t') : Fr M s t' := by
  unfold execResetNRelease at ht
  refine runAon_fr (MaskLe.trans (by decide +kernel) hM) (fun x hs => ?_) ht
  repeat' first
    | with_reducible first | assumption | apply State.resetRelease_fr
    | exact MaskLe.trans (by decide +kernel) hM
    | dsimp -zeta only
def fm_execCallDone : Nat := 2 ^ 1 ||| 2 ^ 2 ||| fm_callEnd
theorem execCallDone_fr {M}  (s t' : State) (hM : MaskLe fm_execCallDone M) (ht : execCallDone  s = .next t') : Fr M s t' := by
  unfold execCallDone at ht
  refine run_fr (MaskLe.trans (by decide +kernel) hM) (fun x hs => ?_) ht
  repeat' first
    | with_reducible first | assumption | apply State.callEnd_fr
    | exact MaskLe.trans (by decide +kernel) hM
    | dsimp -zeta only
def fm_execService : Nat := 2 ^ 1 ||| 2 ^ 2 ||| fm_via ||| fm_modeIssue ||| fm_opService_
theorem execService_fr {M} (w : Who) (arg : Nat) (s t' : State) (hM : MaskLe fm_execService M) (ht : execService w arg s = .next t') : Fr M s t' := by
  unfold execService at ht
  refine runBus_fr (MaskLe.trans (by decide +kernel) hM) (fun x hs => ?_) ht
  repeat' first
    | with_reducible first | assumption | apply State.modeIssue_fr | apply State.opService__fr
    | exact MaskLe.trans (by decide +kernel) hM
    | (intro x)
    | dsimp -zeta only
def fm_execRehearse : Nat := 2 ^ 1 ||| 2 ^ 2 ||| fm_via ||| fm_modeIssue ||| fm_opRehearse_
theorem execRehearse_fr {M} (w : Who) (s t' : State) (hM : MaskLe fm_execRehearse M) (ht : execRehearse w s = .next t') : Fr M s t' := by
  unfold execRehearse at ht
  refine runBus_fr (MaskLe.trans (by decide +kernel) hM) (fun x hs => ?_) ht
  repeat' first
    | with_reducible first | assumption | apply State.modeIssue_fr | apply State.opRehearse__fr
    | exact MaskLe.trans (by decide +kernel) hM
    | (intro x)
    | dsimp -zeta only
def fm_execAudit : Nat := 2 ^ 1 ||| 2 ^ 2 ||| fm_via ||| fm_modeIssue ||| fm_opAudit_
theorem execAudit_fr {M} (w : Who) (s t' : State) (hM : MaskLe fm_execAudit M) (ht : execAudit w s = .next t') : Fr M s t' := by
  unfold execAudit at ht
  refine runBus_fr (MaskLe.trans (by decide +kernel) hM) (fun x hs => ?_) ht
  repeat' first
    | with_reducible first | assumption | apply State.modeIssue_fr | apply State.opAudit__fr
    | exact MaskLe.trans (by decide +kernel) hM
    | (intro x)
    | dsimp -zeta only
def fm_execEnterSafe : Nat := 2 ^ 1 ||| 2 ^ 2 ||| fm_via ||| fm_modeIssue ||| fm_opEnterSafe_
theorem execEnterSafe_fr {M} (w : Who) (s t' : State) (hM : MaskLe fm_execEnterSafe M) (ht : execEnterSafe w s = .next t') : Fr M s t' := by
  unfold execEnterSafe at ht
  refine runBus_fr (MaskLe.trans (by decide +kernel) hM) (fun x hs => ?_) ht
  repeat' first
    | with_reducible first | assumption | apply State.modeIssue_fr | apply State.opEnterSafe__fr
    | exact MaskLe.trans (by decide +kernel) hM
    | (intro x)
    | dsimp -zeta only
def fm_execExitSafe : Nat := 2 ^ 1 ||| 2 ^ 2 ||| fm_via ||| fm_modeIssue ||| fm_opExitSafe_
theorem execExitSafe_fr {M} (w : Who) (s t' : State) (hM : MaskLe fm_execExitSafe M) (ht : execExitSafe w s = .next t') : Fr M s t' := by
  unfold execExitSafe at ht
  refine runBus_fr (MaskLe.trans (by decide +kernel) hM) (fun x hs => ?_) ht
  repeat' first
    | with_reducible first | assumption | apply State.modeIssue_fr | apply State.opExitSafe__fr
    | exact MaskLe.trans (by decide +kernel) hM
    | (intro x)
    | dsimp -zeta only
def fm_execEnterDark : Nat := 2 ^ 1 ||| 2 ^ 2 ||| fm_via ||| fm_modeIssue ||| fm_opEnterDark_
theorem execEnterDark_fr {M} (w : Who) (s t' : State) (hM : MaskLe fm_execEnterDark M) (ht : execEnterDark w s = .next t') : Fr M s t' := by
  unfold execEnterDark at ht
  refine runBus_fr (MaskLe.trans (by decide +kernel) hM) (fun x hs => ?_) ht
  repeat' first
    | with_reducible first | assumption | apply State.modeIssue_fr | apply State.opEnterDark__fr
    | exact MaskLe.trans (by decide +kernel) hM
    | (intro x)
    | dsimp -zeta only
def fm_execDrain : Nat := 2 ^ 1 ||| 2 ^ 2 ||| fm_via ||| fm_modeIssue ||| fm_opDrain_
theorem execDrain_fr {M} (w : Who) (r : Nat) (s t' : State) (hM : MaskLe fm_execDrain M) (ht : execDrain w r s = .next t') : Fr M s t' := by
  unfold execDrain at ht
  refine runBus_fr (MaskLe.trans (by decide +kernel) hM) (fun x hs => ?_) ht
  repeat' first
    | with_reducible first | assumption | apply State.modeIssue_fr | apply State.opDrain__fr
    | exact MaskLe.trans (by decide +kernel) hM
    | (intro x)
    | dsimp -zeta only
def fm_execOffline : Nat := 2 ^ 1 ||| 2 ^ 2 ||| fm_via ||| fm_modeIssue ||| fm_opOffline_
theorem execOffline_fr {M} (w : Who) (r : Nat) (s t' : State) (hM : MaskLe fm_execOffline M) (ht : execOffline w r s = .next t') : Fr M s t' := by
  unfold execOffline at ht
  refine runBus_fr (MaskLe.trans (by decide +kernel) hM) (fun x hs => ?_) ht
  repeat' first
    | with_reducible first | assumption | apply State.modeIssue_fr | apply State.opOffline__fr
    | exact MaskLe.trans (by decide +kernel) hM
    | (intro x)
    | dsimp -zeta only
def fm_execResume : Nat := 2 ^ 1 ||| 2 ^ 2 ||| fm_via ||| fm_modeIssue ||| fm_opResume_
theorem execResume_fr {M} (w : Who) (r : Nat) (s t' : State) (hM : MaskLe fm_execResume M) (ht : execResume w r s = .next t') : Fr M s t' := by
  unfold execResume at ht
  refine runBus_fr (MaskLe.trans (by decide +kernel) hM) (fun x hs => ?_) ht
  repeat' first
    | with_reducible first | assumption | apply State.modeIssue_fr | apply State.opResume__fr
    | exact MaskLe.trans (by decide +kernel) hM
    | (intro x)
    | dsimp -zeta only
def fm_execReset : Nat := 2 ^ 1 ||| 2 ^ 2 ||| fm_via ||| fm_modeIssue ||| fm_opReset_
theorem execReset_fr {M} (w : Who) (r : Nat) (s t' : State) (hM : MaskLe fm_execReset M) (ht : execReset w r s = .next t') : Fr M s t' := by
  unfold execReset at ht
  refine runBus_fr (MaskLe.trans (by decide +kernel) hM) (fun x hs => ?_) ht
  repeat' first
    | with_reducible first | assumption | apply State.modeIssue_fr | apply State.opReset__fr
    | exact MaskLe.trans (by decide +kernel) hM
    | (intro x)
    | dsimp -zeta only
def fm_execResetClear : Nat := 2 ^ 1 ||| 2 ^ 2 ||| fm_via ||| fm_modeIssue ||| fm_opReset_
theorem execResetClear_fr {M} (w : Who) (r : Nat) (s t' : State) (hM : MaskLe fm_execResetClear M) (ht : execResetClear w r s = .next t') : Fr M s t' := by
  unfold execResetClear at ht
  refine runBus_fr (MaskLe.trans (by decide +kernel) hM) (fun x hs => ?_) ht
  repeat' first
    | with_reducible first | assumption | apply State.modeIssue_fr | apply State.opReset__fr
    | exact MaskLe.trans (by decide +kernel) hM
    | (intro x)
    | dsimp -zeta only
def fm_execRegionResetDone : Nat := 2 ^ 1 ||| 2 ^ 2 ||| fm_regionResetDone
theorem execRegionResetDone_fr {M} (r : Nat) (s t' : State) (hM : MaskLe fm_execRegionResetDone M) (ht : execRegionResetDone r s = .next t') : Fr M s t' := by
  unfold execRegionResetDone at ht
  refine run_fr (MaskLe.trans (by decide +kernel) hM) (fun x hs => ?_) ht
  repeat' first
    | with_reducible first | assumption | apply State.regionResetDone_fr
    | exact MaskLe.trans (by decide +kernel) hM
    | dsimp -zeta only
def fm_execUpdate : Nat := 2 ^ 1 ||| 2 ^ 2 ||| fm_via ||| fm_modeIssue ||| fm_opUpdate_
theorem execUpdate_fr {M} (w : Who) (r : Nat) (temps : List Int) (s t' : State) (hM : MaskLe fm_execUpdate M) (ht : execUpdate w r temps s = .next t') : Fr M s t' := by
  unfold execUpdate at ht
  refine runBus_fr (MaskLe.trans (by decide +kernel) hM) (fun x hs => ?_) ht
  repeat' first
    | with_reducible first | assumption | apply State.modeIssue_fr | apply State.opUpdate__fr
    | exact MaskLe.trans (by decide +kernel) hM
    | (intro x)
    | dsimp -zeta only
def fm_execStackRetrain : Nat := 2 ^ 1 ||| 2 ^ 2 ||| fm_via ||| fm_modeIssue ||| fm_opStackRetrain_
theorem execStackRetrain_fr {M} (w : Who) (k : Nat) (s t' : State) (hM : MaskLe fm_execStackRetrain M) (ht : execStackRetrain w k s = .next t') : Fr M s t' := by
  unfold execStackRetrain at ht
  refine runBus_fr (MaskLe.trans (by decide +kernel) hM) (fun x hs => ?_) ht
  repeat' first
    | with_reducible first | assumption | apply State.modeIssue_fr | apply State.opStackRetrain__fr
    | exact MaskLe.trans (by decide +kernel) hM
    | (intro x)
    | dsimp -zeta only
def fm_execRegionSram : Nat := 2 ^ 1 ||| 2 ^ 2 ||| fm_auditStart
theorem execRegionSram_fr {M} (target : Nat) (s t' : State) (hM : MaskLe fm_execRegionSram M) (ht : execRegionSram target s = .next t') : Fr M s t' := by
  unfold execRegionSram at ht
  refine run_fr (MaskLe.trans (by decide +kernel) hM) (fun x hs => ?_) ht
  repeat' first
    | with_reducible first | assumption | apply State.auditStart_fr
    | exact MaskLe.trans (by decide +kernel) hM
    | dsimp -zeta only
def fm_execQueueMem : Nat := 2 ^ 1 ||| 2 ^ 2 ||| fm_auditStart
theorem execQueueMem_fr {M} (target : Nat) (s t' : State) (hM : MaskLe fm_execQueueMem M) (ht : execQueueMem target s = .next t') : Fr M s t' := by
  unfold execQueueMem at ht
  refine run_fr (MaskLe.trans (by decide +kernel) hM) (fun x hs => ?_) ht
  repeat' first
    | with_reducible first | assumption | apply State.auditStart_fr
    | exact MaskLe.trans (by decide +kernel) hM
    | dsimp -zeta only
def fm_execHbmAlign : Nat := 2 ^ 1 ||| 2 ^ 2 ||| fm_auditStart
theorem execHbmAlign_fr {M} (target : Nat) (s t' : State) (hM : MaskLe fm_execHbmAlign M) (ht : execHbmAlign target s = .next t') : Fr M s t' := by
  unfold execHbmAlign at ht
  refine run_fr (MaskLe.trans (by decide +kernel) hM) (fun x hs => ?_) ht
  repeat' first
    | with_reducible first | assumption | apply State.auditStart_fr
    | exact MaskLe.trans (by decide +kernel) hM
    | dsimp -zeta only
def fm_execLogBank : Nat := 2 ^ 1 ||| 2 ^ 2 ||| fm_auditStart
theorem execLogBank_fr {M} (target : Nat) (s t' : State) (hM : MaskLe fm_execLogBank M) (ht : execLogBank target s = .next t') : Fr M s t' := by
  unfold execLogBank at ht
  refine run_fr (MaskLe.trans (by decide +kernel) hM) (fun x hs => ?_) ht
  repeat' first
    | with_reducible first | assumption | apply State.auditStart_fr
    | exact MaskLe.trans (by decide +kernel) hM
    | dsimp -zeta only
def fm_execFuse : Nat := 2 ^ 1 ||| 2 ^ 2 ||| fm_auditStart
theorem execFuse_fr {M} (target : Nat) (s t' : State) (hM : MaskLe fm_execFuse M) (ht : execFuse target s = .next t') : Fr M s t' := by
  unfold execFuse at ht
  refine run_fr (MaskLe.trans (by decide +kernel) hM) (fun x hs => ?_) ht
  repeat' first
    | with_reducible first | assumption | apply State.auditStart_fr
    | exact MaskLe.trans (by decide +kernel) hM
    | dsimp -zeta only
def fm_execAonVote : Nat := 2 ^ 1 ||| 2 ^ 2 ||| fm_auditStart
theorem execAonVote_fr {M} (target : Nat) (s t' : State) (hM : MaskLe fm_execAonVote M) (ht : execAonVote target s = .next t') : Fr M s t' := by
  unfold execAonVote at ht
  refine run_fr (MaskLe.trans (by decide +kernel) hM) (fun x hs => ?_) ht
  repeat' first
    | with_reducible first | assumption | apply State.auditStart_fr
    | exact MaskLe.trans (by decide +kernel) hM
    | dsimp -zeta only
def fm_execAuditDone : Nat := 2 ^ 1 ||| 2 ^ 2 ||| fm_auditEnd
theorem execAuditDone_fr {M} (fail : Option Nat) (s t' : State) (hM : MaskLe fm_execAuditDone M) (ht : execAuditDone fail s = .next t') : Fr M s t' := by
  unfold execAuditDone at ht
  refine run_fr (MaskLe.trans (by decide +kernel) hM) (fun x hs => ?_) ht
  repeat' first
    | with_reducible first | assumption | apply State.auditEnd_fr
    | exact MaskLe.trans (by decide +kernel) hM
    | dsimp -zeta only
def fm_execLifeCounterTick : Nat := 2 ^ 1 ||| 2 ^ 2 ||| fm_lifeTick
theorem execLifeCounterTick_fr {M} (t16 : Option Int) (s t' : State) (hM : MaskLe fm_execLifeCounterTick M) (ht : execLifeCounterTick t16 s = .next t') : Fr M s t' := by
  unfold execLifeCounterTick at ht
  refine runAon_fr (MaskLe.trans (by decide +kernel) hM) (fun x hs => ?_) ht
  repeat' first
    | with_reducible first | assumption | apply State.lifeTick_fr
    | exact MaskLe.trans (by decide +kernel) hM
    | dsimp -zeta only
def fm_execSupplyUndervoltage : Nat := 2 ^ 1 ||| 2 ^ 2 ||| fm_undervoltage
theorem execSupplyUndervoltage_fr {M} (rail : Nat) (v : Rails) (s t' : State) (hM : MaskLe fm_execSupplyUndervoltage M) (ht : execSupplyUndervoltage rail v s = .next t') : Fr M s t' := by
  unfold execSupplyUndervoltage at ht
  refine runAon_fr (MaskLe.trans (by decide +kernel) hM) (fun x hs => ?_) ht
  repeat' first
    | with_reducible first | assumption | apply State.undervoltage_fr | apply fr_ite | apply fr2_ite
    | exact MaskLe.trans (by decide +kernel) hM
    | split
    | dsimp -zeta only
def fm_execSupplyOvervoltage : Nat := 2 ^ 1 ||| 2 ^ 2 ||| fm_power ||| fm_rails
theorem execSupplyOvervoltage_fr {M} (rail : Nat) (v : Rails) (s t' : State) (hM : MaskLe fm_execSupplyOvervoltage M) (ht : execSupplyOvervoltage rail v s = .next t') : Fr M s t' := by
  unfold execSupplyOvervoltage at ht
  refine runAon_fr (MaskLe.trans (by decide +kernel) hM) (fun x hs => ?_) ht
  repeat' first
    | with_reducible first | assumption | apply State.power_fr | apply State.rails_fr | apply fr_ite | apply fr2_ite
    | exact MaskLe.trans (by decide +kernel) hM
    | split
    | dsimp -zeta only
def fm_execCoreValidReturn : Nat := 2 ^ 1 ||| 2 ^ 2 ||| fm_coreValid
theorem execCoreValidReturn_fr {M} (v : Rails) (s t' : State) (hM : MaskLe fm_execCoreValidReturn M) (ht : execCoreValidReturn v s = .next t') : Fr M s t' := by
  unfold execCoreValidReturn at ht
  refine runAon_fr (MaskLe.trans (by decide +kernel) hM) (fun x hs => ?_) ht
  repeat' first
    | with_reducible first | assumption | apply State.coreValid_fr
    | exact MaskLe.trans (by decide +kernel) hM
    | dsimp -zeta only
def fm_execThermalSample : Nat := 2 ^ 1 ||| 2 ^ 2 ||| fm_thermal ||| fm_rails
theorem execThermalSample_fr {M} (i : Nat) (t16 : Int) (v : Rails) (s t' : State) (hM : MaskLe fm_execThermalSample M) (ht : execThermalSample i t16 v s = .next t') : Fr M s t' := by
  unfold execThermalSample at ht
  refine run_fr (MaskLe.trans (by decide +kernel) hM) (fun x hs => ?_) ht
  repeat' first
    | with_reducible first | assumption | apply State.thermal_fr | apply State.rails_fr | apply fr_ite | apply fr2_ite
    | exact MaskLe.trans (by decide +kernel) hM
    | split
    | dsimp -zeta only
def fm_execI2cAccess : Nat := 2 ^ 1 ||| 2 ^ 2 ||| fm_i2c
theorem execI2cAccess_fr {M} (addr : Nat) (ptr : Option Nat) (n : Nat) (s t' : State) (hM : MaskLe fm_execI2cAccess M) (ht : execI2cAccess addr ptr n s = .next t') : Fr M s t' := by
  unfold execI2cAccess at ht
  refine runAon_fr (MaskLe.trans (by decide +kernel) hM) (fun x hs => ?_) ht
  repeat' first
    | with_reducible first | assumption | apply State.i2c_fr
    | exact MaskLe.trans (by decide +kernel) hM
    | dsimp -zeta only
def fm_execCdrLock : Nat := 2 ^ 1 ||| 2 ^ 2 ||| fm_lineCdrLock
theorem execCdrLock_fr {M} (n : Nat) (s t' : State) (hM : MaskLe fm_execCdrLock M) (ht : execCdrLock n s = .next t') : Fr M s t' := by
  unfold execCdrLock at ht
  refine run_fr (MaskLe.trans (by decide +kernel) hM) (fun x hs => ?_) ht
  repeat' first
    | with_reducible first | assumption | apply State.lineCdrLock_fr
    | exact MaskLe.trans (by decide +kernel) hM
    | dsimp -zeta only
def fm_execResetNAssert : Nat := 2 ^ 1 ||| 2 ^ 2 ||| fm_resetAssert
theorem execResetNAssert_fr {M}  (s t' : State) (hM : MaskLe fm_execResetNAssert M) (ht : execResetNAssert  s = .next t') : Fr M s t' := by
  unfold execResetNAssert at ht
  refine runAon_fr (MaskLe.trans (by decide +kernel) hM) (fun x hs => ?_) ht
  repeat' first
    | with_reducible first | assumption | apply State.resetAssert_fr
    | exact MaskLe.trans (by decide +kernel) hM
    | dsimp -zeta only
def fm_execAonPowerUp : Nat := 2 ^ 1 ||| 2 ^ 2 ||| fm_aonUp
theorem execAonPowerUp_fr {M}  (s t' : State) (hM : MaskLe fm_execAonPowerUp M) (ht : execAonPowerUp  s = .next t') : Fr M s t' := by
  unfold execAonPowerUp at ht
  refine runAon_fr (MaskLe.trans (by decide +kernel) hM) (fun x hs => ?_) ht
  repeat' first
    | with_reducible first | assumption | apply State.aonUp_fr
    | exact MaskLe.trans (by decide +kernel) hM
    | dsimp -zeta only
def fm_execSdpLinkChange : Nat := 2 ^ 1 ||| 2 ^ 2 ||| fm_sdpLink
theorem execSdpLinkChange_fr {M} (lock : Bool) (lf : Bool) (rf : Bool) (s t' : State) (hM : MaskLe fm_execSdpLinkChange M) (ht : execSdpLinkChange lock lf rf s = .next t') : Fr M s t' := by
  unfold execSdpLinkChange at ht
  refine run_fr (MaskLe.trans (by decide +kernel) hM) (fun x hs => ?_) ht
  repeat' first
    | with_reducible first | assumption | apply State.sdpLink_fr
    | exact MaskLe.trans (by decide +kernel) hM
    | dsimp -zeta only
def fm_execPushTimeout : Nat := 2 ^ 1 ||| 2 ^ 2 ||| fm_pushTimeout
theorem execPushTimeout_fr {M}  (s t' : State) (hM : MaskLe fm_execPushTimeout M) (ht : execPushTimeout  s = .next t') : Fr M s t' := by
  unfold execPushTimeout at ht
  refine run_fr (MaskLe.trans (by decide +kernel) hM) (fun x hs => ?_) ht
  repeat' first
    | with_reducible first | assumption | apply State.pushTimeout_fr
    | exact MaskLe.trans (by decide +kernel) hM
    | dsimp -zeta only
def fm_execPauseIgnoreEnd : Nat := 2 ^ 1 ||| 2 ^ 2 ||| fm_pauseIgnoreEnd
theorem execPauseIgnoreEnd_fr {M} (c : Nat) (s t' : State) (hM : MaskLe fm_execPauseIgnoreEnd M) (ht : execPauseIgnoreEnd c s = .next t') : Fr M s t' := by
  unfold execPauseIgnoreEnd at ht
  refine run_fr (MaskLe.trans (by decide +kernel) hM) (fun x hs => ?_) ht
  repeat' first
    | with_reducible first | assumption | apply State.pauseIgnoreEnd_fr
    | exact MaskLe.trans (by decide +kernel) hM
    | dsimp -zeta only
def fm_execStackTrainingDone : Nat := 2 ^ 1 ||| 2 ^ 2 ||| fm_stackTrained
theorem execStackTrainingDone_fr {M} (k : Nat) (ok : Bool) (s t' : State) (hM : MaskLe fm_execStackTrainingDone M) (ht : execStackTrainingDone k ok s = .next t') : Fr M s t' := by
  unfold execStackTrainingDone at ht
  refine run_fr (MaskLe.trans (by decide +kernel) hM) (fun x hs => ?_) ht
  repeat' first
    | with_reducible first | assumption | apply State.stackTrained_fr | apply fr_ite | apply fr2_ite
    | exact MaskLe.trans (by decide +kernel) hM
    | split
    | dsimp -zeta only
def fm_execFybryCodewordDecode : Nat := 2 ^ 1 ||| 2 ^ 2 ||| fm_fybryCodeword
theorem execFybryCodewordDecode_fr {M} (m : Nat) (k : Nat) (levels : List Nat) (s t' : State) (hM : MaskLe fm_execFybryCodewordDecode M) (ht : execFybryCodewordDecode m k levels s = .next t') : Fr M s t' := by
  unfold execFybryCodewordDecode at ht
  refine run_fr (MaskLe.trans (by decide +kernel) hM) (fun x hs => ?_) ht
  repeat' first
    | with_reducible first | assumption | apply State.fybryCodeword_fr
    | exact MaskLe.trans (by decide +kernel) hM
    | dsimp -zeta only
def fm_execConfigurationRequest : Nat := 2 ^ 1 ||| 2 ^ 2 ||| fm_configuration
theorem execConfigurationRequest_fr {M} (x : CfgReq) (s t' : State) (hM : MaskLe fm_execConfigurationRequest M) (ht : execConfigurationRequest x s = .next t') : Fr M s t' := by
  unfold execConfigurationRequest at ht
  refine run_fr (MaskLe.trans (by decide +kernel) hM) (fun x hs => ?_) ht
  repeat' first
    | with_reducible first | assumption | apply State.configuration_fr
    | exact MaskLe.trans (by decide +kernel) hM
    | dsimp -zeta only
def fm_execItemErrorDetected : Nat := 2 ^ 1 ||| 2 ^ 2 ||| fm_itemError
theorem execItemErrorDetected_fr {M} (x : ItemError) (s t' : State) (hM : MaskLe fm_execItemErrorDetected M) (ht : execItemErrorDetected x s = .next t') : Fr M s t' := by
  unfold execItemErrorDetected at ht
  refine run_fr (MaskLe.trans (by decide +kernel) hM) (fun x hs => ?_) ht
  repeat' first
    | with_reducible first | assumption | apply State.itemError_fr
    | exact MaskLe.trans (by decide +kernel) hM
    | dsimp -zeta only

theorem execJtag_fr (x : JtagInstr) (s t : State) (h : execJtagInstruction x s = .next t) : Fr (2 ^ 1 ||| 2 ^ 2) s t := by
  unfold execJtagInstruction at h
  split at h
  · cases h
  · refine runAon_fr (MaskLe.refl _) (fun y hy => ?_) h
    exact State.jtag_fr y x (by decide +kernel) hy
/-- What each command may change. -/
def execMask : Instr → Nat
  | .registerWrite _ => fm_execRegisterWrite
  | .pageCtrlWrite _ _ => fm_execPageCtrlWrite
  | .pageOwnerWrite _ _ => fm_execPageOwnerWrite
  | .evtStatusRead _ => fm_execEvtStatusRead
  | .evtAckWrite _ _ => fm_execEvtAckWrite
  | .evtForceWrite _ _ => fm_execEvtForceWrite
  | .voteScrub _ => fm_execVoteScrub
  | .loRead _ => fm_execLoRead
  | .loWrite _ _ => fm_execLoWrite
  | .hiWrite _ _ => fm_execHiWrite
  | .indAddrWrite _ _ => fm_execIndAddrWrite
  | .indData3Write _ _ => fm_execIndData3Write
  | .indData3Read _ => fm_execIndData3Read
  | .cueGo _ _ _ => fm_execCueGo
  | .cueRevert _ _ => fm_execCueRevert
  | .cueImageCrc _ => fm_execCueImageCrc
  | .cueCheckEnd _ => fm_execCueCheckEnd
  | .cueRowAdopt _ _ => fm_execCueRowAdopt
  | .blockRestart _ _ => fm_execBlockRestart
  | .blockRestartRelease _ => fm_execBlockRestartRelease
  | .blockRestartTimeout _ => fm_execBlockRestartTimeout
  | .adaptationDone _ => fm_execAdaptationDone
  | .llnTxFirWrite _ _ => fm_execLlnTxFirWrite
  | .llnRxEqWrite _ _ => fm_execLlnRxEqWrite
  | .trialStart _ _ => fm_execTrialStart
  | .trialDwellEnd _ => fm_execTrialDwellEnd
  | .codewordDecode _ _ _ => fm_execCodewordDecode
  | .fecSnap _ => fm_execFecSnap
  | .los _ => fm_execLos
  | .signalDetect _ => fm_execSignalDetect
  | .cdrUnlock _ => fm_execCdrUnlock
  | .cwLock _ => fm_execCwLock
  | .cwUnlock _ _ => fm_execCwUnlock
  | .deskewMeasure _ _ => fm_execDeskewMeasure
  | .prbsLock _ _ => fm_execPrbsLock
  | .prbsLockLost _ _ => fm_execPrbsLockLost
  | .prbsInject _ => fm_execPrbsInject
  | .flexoFrame _ _ => fm_execFlexoFrame
  | .otucFrame _ _ => fm_execOtucFrame
  | .lofOn _ => fm_execLofOn
  | .lofOff _ => fm_execLofOff
  | .lomOn _ => fm_execLomOn
  | .lomOff _ => fm_execLomOff
  | .dlomCnOn _ => fm_execDlomCnOn
  | .dlomCnOff _ => fm_execDlomCnOff
  | .bondEnter _ => fm_execBondEnter
  | .otucTxFrame _ _ => fm_execOtucTxFrame
  | .corruptFas _ => fm_execCorruptFas
  | .oduFrameSink _ _ _ => fm_execOduFrameSink
  | .dloflomOn _ _ _ => fm_execDloflomOn
  | .dloflomOff _ _ _ => fm_execDloflomOff
  | .oduFrameSource _ _ _ => fm_execOduFrameSource
  | .contextForcedAis _ _ _ => fm_execContextForcedAis
  | .secondBoundary => fm_execSecondBoundary
  | .pmSecond => fm_execPmSecond
  | .episodeChange _ => fm_execEpisodeChange
  | .aggregatedOff _ => fm_execAggregatedOff
  | .gmpMapPeriod _ _ _ _ => fm_execGmpMapPeriod
  | .gmpDemapPeriod _ _ _ _ => fm_execGmpDemapPeriod
  | .ampJustify _ _ _ => fm_execAmpJustify
  | .ampDemuxPeriod _ _ _ _ _ => fm_execAmpDemuxPeriod
  | .impBlock _ _ _ => fm_execImpBlock
  | .crateOff _ => fm_execCrateOff
  | .rateHold _ _ => fm_execRateHold
  | .rateHoldEnd _ _ => fm_execRateHoldEnd
  | .closOn _ => fm_execClosOn
  | .closOff _ => fm_execClosOff
  | .clfChange _ _ => fm_execClfChange
  | .crfChange _ _ => fm_execCrfChange
  | .suspectHoldEnd _ => fm_execSuspectHoldEnd
  | .legStatusChange _ _ => fm_execLegStatusChange
  | .holdOffExpiry _ _ => fm_execHoldOffExpiry
  | .wtrExpiry _ => fm_execWtrExpiry
  | .confirmationExpiry _ => fm_execConfirmationExpiry
  | .bridgeChangeApply _ _ => fm_execBridgeChangeApply
  | .clr _ _ => fm_execClr
  | .lo _ _ => fm_execLo
  | .fs _ _ => fm_execFs
  | .ms _ _ => fm_execMs
  | .msW _ _ => fm_execMsW
  | .exer _ _ => fm_execExer
  | .setSel _ _ => fm_execSetSel
  | .setBridge _ _ => fm_execSetBridge
  | .setAps _ _ => fm_execSetAps
  | .setAll _ _ => fm_execSetAll
  | .ackSfp _ _ => fm_execAckSfp
  | .prtNoteRead _ => fm_execPrtNoteRead
  | .apsMessageReceive _ _ => fm_execApsMessageReceive
  | .apsAgeScan => fm_execApsAgeScan
  | .dfopNr _ => fm_execDfopNr
  | .stampInstance _ _ _ => fm_execStampInstance
  | .wingsGroupStart _ _ _ => fm_execWingsGroupStart
  | .playoutAdvance _ _ => fm_execPlayoutAdvance
  | .slotGrant => fm_execSlotGrant
  | .overRecover _ => fm_execOverRecover
  | .hbmRetrainPc _ _ => fm_execHbmRetrainPc
  | .stackFail _ _ => fm_execStackFail
  | .groupFallback _ => fm_execGroupFallback
  | .hbmRestore _ => fm_execHbmRestore
  | .ackFail _ => fm_execAckFail
  | .fybryAdaptationDone _ => fm_execFybryAdaptationDone
  | .fylTxEqWrite _ _ _ => fm_execFylTxEqWrite
  | .markerLock _ _ _ => fm_execMarkerLock
  | .markerLockLost _ _ => fm_execMarkerLockLost
  | .segmentReceive _ _ => fm_execSegmentReceive
  | .segmentSlot _ => fm_execSegmentSlot
  | .segmentComplete _ _ _ => fm_execSegmentComplete
  | .reorderTimeout _ _ => fm_execReorderTimeout
  | .flowAbsent _ _ => fm_execFlowAbsent
  | .linkFail _ _ => fm_execLinkFail
  | .fylFail _ => fm_execFylFail
  | .fylRestore _ => fm_execFylRestore
  | .ohqRdRead _ _ => fm_execOhqRdRead
  | .ohqWrWrite _ _ _ => fm_execOhqWrWrite
  | .flush _ _ _ _ => fm_execFlush
  | .flushApply _ _ _ => fm_execFlushApply
  | .dropRest _ _ _ _ => fm_execDropRest
  | .chkStart _ _ => fm_execChkStart
  | .chkDataWrite _ _ _ => fm_execChkDataWrite
  | .chkFinish _ _ => fm_execChkFinish
  | .chkAbort _ _ => fm_execChkAbort
  | .sdpFrameReceive _ => fm_execSdpFrameReceive
  | .sdpRxDescRead _ => fm_execSdpRxDescRead
  | .sdpRxDataRead _ => fm_execSdpRxDataRead
  | .sdpTxStart _ _ _ => fm_execSdpTxStart
  | .sdpTxAbort _ => fm_execSdpTxAbort
  | .sdpTxDataWrite _ _ => fm_execSdpTxDataWrite
  | .sdpTransmit => fm_execSdpTransmit
  | .sdpAgeScan => fm_execSdpAgeScan
  | .pauseExpiry _ => fm_execPauseExpiry
  | .pauseBreak _ => fm_execPauseBreak
  | .sdpStatHalfRead _ => fm_execSdpStatHalfRead
  | .cbbFrameReceive _ => fm_execCbbFrameReceive
  | .cbbTxSend _ _ _ _ => fm_execCbbTxSend
  | .cbbTxAbort _ => fm_execCbbTxAbort
  | .cbbTxTimeout => fm_execCbbTxTimeout
  | .masterLost => fm_execMasterLost
  | .tokenRegen _ => fm_execTokenRegen
  | .tokenSuccessorTimeout => fm_execTokenSuccessorTimeout
  | .beaconSend _ => fm_execBeaconSend
  | .windowClose => fm_execWindowClose
  | .partnerLost => fm_execPartnerLost
  | .cbbWakeAck => fm_execCbbWakeAck
  | .darkWake _ => fm_execDarkWake
  | .refLost _ _ => fm_execRefLost
  | .refBack _ _ _ => fm_execRefBack
  | .lockLost _ => fm_execLockLost
  | .relock _ _ => fm_execRelock
  | .reband _ _ _ => fm_execReband
  | .rebandDone _ => fm_execRebandDone
  | .bandEdge _ _ => fm_execBandEdge
  | .ppsEdge _ _ => fm_execPpsEdge
  | .ppsLost _ => fm_execPpsLost
  | .todMessage _ _ => fm_execTodMessage
  | .slewDone => fm_execSlewDone
  | .holdoverExpired => fm_execHoldoverExpired
  | .todOutSend => fm_execTodOutSend
  | .timNowRead _ => fm_execTimNowRead
  | .setSec _ => fm_execSetSec
  | .timTsRead _ => fm_execTimTsRead
  | .hostLinkDown => fm_execHostLinkDown
  | .hostLinkUp _ _ => fm_execHostLinkUp
  | .vfFlr _ => fm_execVfFlr
  | .hostRequest _ => fm_execHostRequest
  | .busTimeout _ _ _ _ _ => fm_execBusTimeout
  | .setPage _ => fm_execSetPage
  | .setObj _ => fm_execSetObj
  | .setWin _ => fm_execSetWin
  | .proxyAccess _ _ _ _ _ => fm_execProxyAccess
  | .boxPxPageWrite _ _ => fm_execBoxPxPageWrite
  | .boxNoteRead _ _ => fm_execBoxNoteRead
  | .msixSend _ _ => fm_execMsixSend
  | .dmaGo _ => fm_execDmaGo
  | .dmaDone _ _ => fm_execDmaDone
  | .pmCopyGo _ _ => fm_execPmCopyGo
  | .pmCopyDone _ _ => fm_execPmCopyDone
  | .fwmRing _ _ => fm_execFwmRing
  | .mailboxResponse _ _ _ => fm_execMailboxResponse
  | .attest _ => fm_execAttest
  | .getCert _ => fm_execGetCert
  | .debugChallenge => fm_execDebugChallenge
  | .debugUnlock => fm_execDebugUnlock
  | .commitRollback _ => fm_execCommitRollback
  | .revokeSlot => fm_execRevokeSlot
  | .updateEn _ => fm_execUpdateEn
  | .bootInfo => fm_execBootInfo
  | .pushStart _ _ => fm_execPushStart
  | .pushData _ _ => fm_execPushData
  | .pushEnd => fm_execPushEnd
  | .pushAbort => fm_execPushAbort
  | .imageVerified _ _ _ => fm_execImageVerified
  | .fwmWdogKick _ => fm_execFwmWdogKick
  | .enWdogExpiry _ => fm_execEnWdogExpiry
  | .smWdogExpiry _ => fm_execSmWdogExpiry
  | .devIdentity _ => fm_execDevIdentity
  | .devStatus _ => fm_execDevStatus
  | .devReset _ _ => fm_execDevReset
  | .laneSet _ _ => fm_execLaneSet
  | .laneGet _ => fm_execLaneGet
  | .ifSet _ _ => fm_execIfSet
  | .loopback _ => fm_execLoopback
  | .connAdd _ _ => fm_execConnAdd
  | .connModify _ _ => fm_execConnModify
  | .connDelete _ _ => fm_execConnDelete
  | .connGet _ => fm_execConnGet
  | .pmCurrent _ => fm_execPmCurrent
  | .pmHistory _ => fm_execPmHistory
  | .pmThresh _ => fm_execPmThresh
  | .pgAdd _ _ => fm_execPgAdd
  | .pgDelete _ _ => fm_execPgDelete
  | .pgCommand _ _ => fm_execPgCommand
  | .pgStatus _ => fm_execPgStatus
  | .ohOpen _ _ => fm_execOhOpen
  | .ohClose _ _ => fm_execOhClose
  | .ohSend _ => fm_execOhSend
  | .ohReceive _ => fm_execOhReceive
  | .almList _ => fm_execAlmList
  | .almMask _ => fm_execAlmMask
  | .timeGet _ => fm_execTimeGet
  | .timeSet _ => fm_execTimeSet
  | .personalityFrame _ => fm_execPersonalityFrame
  | .pmbinStatus => fm_execPmbinStatus
  | .pmbinGet => fm_execPmbinGet
  | .housekeepingStatus => fm_execHousekeepingStatus
  | .reportWord _ => fm_execReportWord
  | .wireBroken _ => fm_execWireBroken
  | .reportResend _ => fm_execReportResend
  | .fltAgeScan => fm_execFltAgeScan
  | .fltAck _ => fm_execFltAck
  | .fltInject _ => fm_execFltInject
  | .logWrite _ => fm_execLogWrite
  | .keyClose _ _ => fm_execKeyClose
  | .bankFail _ => fm_execBankFail
  | .ghostClear _ => fm_execGhostClear
  | .playbillGo => fm_execPlaybillGo
  | .playbillDone => fm_execPlaybillDone
  | .digestRecompute _ => fm_execDigestRecompute
  | .resetNRelease _ => fm_execResetNRelease
  | .callDone => fm_execCallDone
  | .service _ _ => fm_execService
  | .rehearse _ => fm_execRehearse
  | .audit _ => fm_execAudit
  | .enterSafe _ => fm_execEnterSafe
  | .exitSafe _ => fm_execExitSafe
  | .enterDark _ => fm_execEnterDark
  | .drain _ _ => fm_execDrain
  | .offline _ _ => fm_execOffline
  | .resume _ _ => fm_execResume
  | .reset _ _ => fm_execReset
  | .resetClear _ _ => fm_execResetClear
  | .regionResetDone _ => fm_execRegionResetDone
  | .update _ _ _ => fm_execUpdate
  | .stackRetrain _ _ => fm_execStackRetrain
  | .regionSram _ => fm_execRegionSram
  | .queueMem _ => fm_execQueueMem
  | .hbmAlign _ => fm_execHbmAlign
  | .logBank _ => fm_execLogBank
  | .fuse _ => fm_execFuse
  | .aonVote _ => fm_execAonVote
  | .auditDone _ => fm_execAuditDone
  | .lifeCounterTick _ => fm_execLifeCounterTick
  | .supplyUndervoltage _ _ => fm_execSupplyUndervoltage
  | .supplyOvervoltage _ _ => fm_execSupplyOvervoltage
  | .coreValidReturn _ => fm_execCoreValidReturn
  | .thermalSample _ _ _ => fm_execThermalSample
  | .i2cAccess _ _ _ => fm_execI2cAccess
  | .cdrLock _ => fm_execCdrLock
  | .resetNAssert => fm_execResetNAssert
  | .aonPowerUp => fm_execAonPowerUp
  | .sdpLinkChange _ _ _ => fm_execSdpLinkChange
  | .pushTimeout => fm_execPushTimeout
  | .pauseIgnoreEnd _ => fm_execPauseIgnoreEnd
  | .stackTrainingDone _ _ => fm_execStackTrainingDone
  | .fybryCodewordDecode _ _ _ => fm_execFybryCodewordDecode
  | .configurationRequest _ => fm_execConfigurationRequest
  | .jtagInstruction _ => 2 ^ 1 ||| 2 ^ 2
  | .itemErrorDetected _ => fm_execItemErrorDetected

theorem exec_fr (i : Instr) (s t : State) (h : exec i s = .next t) : Fr (execMask i) s t := by
  cases i with
  | registerWrite a0 => exact show Fr fm_execRegisterWrite s t from execRegisterWrite_fr _ s t (MaskLe.refl _) h
  | pageCtrlWrite a0 a1 => exact show Fr fm_execPageCtrlWrite s t from execPageCtrlWrite_fr _ _ s t (MaskLe.refl _) h
  | pageOwnerWrite a0 a1 => exact show Fr fm_execPageOwnerWrite s t from execPageOwnerWrite_fr _ _ s t (MaskLe.refl _) h
  | evtStatusRead a0 => exact show Fr fm_execEvtStatusRead s t from execEvtStatusRead_fr _ s t (MaskLe.refl _) h
  | evtAckWrite a0 a1 => exact show Fr fm_execEvtAckWrite s t from execEvtAckWrite_fr _ _ s t (MaskLe.refl _) h
  | evtForceWrite a0 a1 => exact show Fr fm_execEvtForceWrite s t from execEvtForceWrite_fr _ _ s t (MaskLe.refl _) h
  | voteScrub a0 => exact show Fr fm_execVoteScrub s t from execVoteScrub_fr _ s t (MaskLe.refl _) h
  | loRead a0 => exact show Fr fm_execLoRead s t from execLoRead_fr _ s t (MaskLe.refl _) h
  | loWrite a0 a1 => exact show Fr fm_execLoWrite s t from execLoWrite_fr _ _ s t (MaskLe.refl _) h
  | hiWrite a0 a1 => exact show Fr fm_execHiWrite s t from execHiWrite_fr _ _ s t (MaskLe.refl _) h
  | indAddrWrite a0 a1 => exact show Fr fm_execIndAddrWrite s t from execIndAddrWrite_fr _ _ s t (MaskLe.refl _) h
  | indData3Write a0 a1 => exact show Fr fm_execIndData3Write s t from execIndData3Write_fr _ _ s t (MaskLe.refl _) h
  | indData3Read a0 => exact show Fr fm_execIndData3Read s t from execIndData3Read_fr _ s t (MaskLe.refl _) h
  | cueGo a0 a1 a2 => exact show Fr fm_execCueGo s t from execCueGo_fr _ _ _ s t (MaskLe.refl _) h
  | cueRevert a0 a1 => exact show Fr fm_execCueRevert s t from execCueRevert_fr _ _ s t (MaskLe.refl _) h
  | cueImageCrc a0 => exact show Fr fm_execCueImageCrc s t from execCueImageCrc_fr _ s t (MaskLe.refl _) h
  | cueCheckEnd a0 => exact show Fr fm_execCueCheckEnd s t from execCueCheckEnd_fr _ s t (MaskLe.refl _) h
  | cueRowAdopt a0 a1 => exact show Fr fm_execCueRowAdopt s t from execCueRowAdopt_fr _ _ s t (MaskLe.refl _) h
  | blockRestart a0 a1 => exact show Fr fm_execBlockRestart s t from execBlockRestart_fr _ _ s t (MaskLe.refl _) h
  | blockRestartRelease a0 => exact show Fr fm_execBlockRestartRelease s t from execBlockRestartRelease_fr _ s t (MaskLe.refl _) h
  | blockRestartTimeout a0 => exact show Fr fm_execBlockRestartTimeout s t from execBlockRestartTimeout_fr _ s t (MaskLe.refl _) h
  | adaptationDone a0 => exact show Fr fm_execAdaptationDone s t from execAdaptationDone_fr _ s t (MaskLe.refl _) h
  | llnTxFirWrite a0 a1 => exact show Fr fm_execLlnTxFirWrite s t from execLlnTxFirWrite_fr _ _ s t (MaskLe.refl _) h
  | llnRxEqWrite a0 a1 => exact show Fr fm_execLlnRxEqWrite s t from execLlnRxEqWrite_fr _ _ s t (MaskLe.refl _) h
  | trialStart a0 a1 => exact show Fr fm_execTrialStart s t from execTrialStart_fr _ _ s t (MaskLe.refl _) h
  | trialDwellEnd a0 => exact show Fr fm_execTrialDwellEnd s t from execTrialDwellEnd_fr _ s t (MaskLe.refl _) h
  | codewordDecode a0 a1 a2 => exact show Fr fm_execCodewordDecode s t from execCodewordDecode_fr _ _ _ s t (MaskLe.refl _) h
  | fecSnap a0 => exact show Fr fm_execFecSnap s t from execFecSnap_fr _ s t (MaskLe.refl _) h
  | los a0 => exact show Fr fm_execLos s t from execLos_fr _ s t (MaskLe.refl _) h
  | signalDetect a0 => exact show Fr fm_execSignalDetect s t from execSignalDetect_fr _ s t (MaskLe.refl _) h
  | cdrUnlock a0 => exact show Fr fm_execCdrUnlock s t from execCdrUnlock_fr _ s t (MaskLe.refl _) h
  | cwLock a0 => exact show Fr fm_execCwLock s t from execCwLock_fr _ s t (MaskLe.refl _) h
  | cwUnlock a0 a1 => exact show Fr fm_execCwUnlock s t from execCwUnlock_fr _ _ s t (MaskLe.refl _) h
  | deskewMeasure a0 a1 => exact show Fr fm_execDeskewMeasure s t from execDeskewMeasure_fr _ _ s t (MaskLe.refl _) h
  | prbsLock a0 a1 => exact show Fr fm_execPrbsLock s t from execPrbsLock_fr _ _ s t (MaskLe.refl _) h
  | prbsLockLost a0 a1 => exact show Fr fm_execPrbsLockLost s t from execPrbsLockLost_fr _ _ s t (MaskLe.refl _) h
  | prbsInject a0 => exact show Fr fm_execPrbsInject s t from execPrbsInject_fr _ s t (MaskLe.refl _) h
  | flexoFrame a0 a1 => exact show Fr fm_execFlexoFrame s t from execFlexoFrame_fr _ _ s t (MaskLe.refl _) h
  | otucFrame a0 a1 => exact show Fr fm_execOtucFrame s t from execOtucFrame_fr _ _ s t (MaskLe.refl _) h
  | lofOn a0 => exact show Fr fm_execLofOn s t from execLofOn_fr _ s t (MaskLe.refl _) h
  | lofOff a0 => exact show Fr fm_execLofOff s t from execLofOff_fr _ s t (MaskLe.refl _) h
  | lomOn a0 => exact show Fr fm_execLomOn s t from execLomOn_fr _ s t (MaskLe.refl _) h
  | lomOff a0 => exact show Fr fm_execLomOff s t from execLomOff_fr _ s t (MaskLe.refl _) h
  | dlomCnOn a0 => exact show Fr fm_execDlomCnOn s t from execDlomCnOn_fr _ s t (MaskLe.refl _) h
  | dlomCnOff a0 => exact show Fr fm_execDlomCnOff s t from execDlomCnOff_fr _ s t (MaskLe.refl _) h
  | bondEnter a0 => exact show Fr fm_execBondEnter s t from execBondEnter_fr _ s t (MaskLe.refl _) h
  | otucTxFrame a0 a1 => exact show Fr fm_execOtucTxFrame s t from execOtucTxFrame_fr _ _ s t (MaskLe.refl _) h
  | corruptFas a0 => exact show Fr fm_execCorruptFas s t from execCorruptFas_fr _ s t (MaskLe.refl _) h
  | oduFrameSink a0 a1 a2 => exact show Fr fm_execOduFrameSink s t from execOduFrameSink_fr _ _ _ s t (MaskLe.refl _) h
  | dloflomOn a0 a1 a2 => exact show Fr fm_execDloflomOn s t from execDloflomOn_fr _ _ _ s t (MaskLe.refl _) h
  | dloflomOff a0 a1 a2 => exact show Fr fm_execDloflomOff s t from execDloflomOff_fr _ _ _ s t (MaskLe.refl _) h
  | oduFrameSource a0 a1 a2 => exact show Fr fm_execOduFrameSource s t from execOduFrameSource_fr _ _ _ s t (MaskLe.refl _) h
  | contextForcedAis a0 a1 a2 => exact show Fr fm_execContextForcedAis s t from execContextForcedAis_fr _ _ _ s t (MaskLe.refl _) h
  | secondBoundary => exact show Fr fm_execSecondBoundary s t from execSecondBoundary_fr s t (MaskLe.refl _) h
  | pmSecond => exact show Fr fm_execPmSecond s t from execPmSecond_fr s t (MaskLe.refl _) h
  | episodeChange a0 => exact show Fr fm_execEpisodeChange s t from execEpisodeChange_fr _ s t (MaskLe.refl _) h
  | aggregatedOff a0 => exact show Fr fm_execAggregatedOff s t from execAggregatedOff_fr _ s t (MaskLe.refl _) h
  | gmpMapPeriod a0 a1 a2 a3 => exact show Fr fm_execGmpMapPeriod s t from execGmpMapPeriod_fr _ _ _ _ s t (MaskLe.refl _) h
  | gmpDemapPeriod a0 a1 a2 a3 => exact show Fr fm_execGmpDemapPeriod s t from execGmpDemapPeriod_fr _ _ _ _ s t (MaskLe.refl _) h
  | ampJustify a0 a1 a2 => exact show Fr fm_execAmpJustify s t from execAmpJustify_fr _ _ _ s t (MaskLe.refl _) h
  | ampDemuxPeriod a0 a1 a2 a3 a4 => exact show Fr fm_execAmpDemuxPeriod s t from execAmpDemuxPeriod_fr _ _ _ _ _ s t (MaskLe.refl _) h
  | impBlock a0 a1 a2 => exact show Fr fm_execImpBlock s t from execImpBlock_fr _ _ _ s t (MaskLe.refl _) h
  | crateOff a0 => exact show Fr fm_execCrateOff s t from execCrateOff_fr _ s t (MaskLe.refl _) h
  | rateHold a0 a1 => exact show Fr fm_execRateHold s t from execRateHold_fr _ _ s t (MaskLe.refl _) h
  | rateHoldEnd a0 a1 => exact show Fr fm_execRateHoldEnd s t from execRateHoldEnd_fr _ _ s t (MaskLe.refl _) h
  | closOn a0 => exact show Fr fm_execClosOn s t from execClosOn_fr _ s t (MaskLe.refl _) h
  | closOff a0 => exact show Fr fm_execClosOff s t from execClosOff_fr _ s t (MaskLe.refl _) h
  | clfChange a0 a1 => exact show Fr fm_execClfChange s t from execClfChange_fr _ _ s t (MaskLe.refl _) h
  | crfChange a0 a1 => exact show Fr fm_execCrfChange s t from execCrfChange_fr _ _ s t (MaskLe.refl _) h
  | suspectHoldEnd a0 => exact show Fr fm_execSuspectHoldEnd s t from execSuspectHoldEnd_fr _ s t (MaskLe.refl _) h
  | legStatusChange a0 a1 => exact show Fr fm_execLegStatusChange s t from execLegStatusChange_fr _ _ s t (MaskLe.refl _) h
  | holdOffExpiry a0 a1 => exact show Fr fm_execHoldOffExpiry s t from execHoldOffExpiry_fr _ _ s t (MaskLe.refl _) h
  | wtrExpiry a0 => exact show Fr fm_execWtrExpiry s t from execWtrExpiry_fr _ s t (MaskLe.refl _) h
  | confirmationExpiry a0 => exact show Fr fm_execConfirmationExpiry s t from execConfirmationExpiry_fr _ s t (MaskLe.refl _) h
  | bridgeChangeApply a0 a1 => exact show Fr fm_execBridgeChangeApply s t from execBridgeChangeApply_fr _ _ s t (MaskLe.refl _) h
  | clr a0 a1 => exact show Fr fm_execClr s t from execClr_fr _ _ s t (MaskLe.refl _) h
  | lo a0 a1 => exact show Fr fm_execLo s t from execLo_fr _ _ s t (MaskLe.refl _) h
  | fs a0 a1 => exact show Fr fm_execFs s t from execFs_fr _ _ s t (MaskLe.refl _) h
  | ms a0 a1 => exact show Fr fm_execMs s t from execMs_fr _ _ s t (MaskLe.refl _) h
  | msW a0 a1 => exact show Fr fm_execMsW s t from execMsW_fr _ _ s t (MaskLe.refl _) h
  | exer a0 a1 => exact show Fr fm_execExer s t from execExer_fr _ _ s t (MaskLe.refl _) h
  | setSel a0 a1 => exact show Fr fm_execSetSel s t from execSetSel_fr _ _ s t (MaskLe.refl _) h
  | setBridge a0 a1 => exact show Fr fm_execSetBridge s t from execSetBridge_fr _ _ s t (MaskLe.refl _) h
  | setAps a0 a1 => exact show Fr fm_execSetAps s t from execSetAps_fr _ _ s t (MaskLe.refl _) h
  | setAll a0 a1 => exact show Fr fm_execSetAll s t from execSetAll_fr _ _ s t (MaskLe.refl _) h
  | ackSfp a0 a1 => exact show Fr fm_execAckSfp s t from execAckSfp_fr _ _ s t (MaskLe.refl _) h
  | prtNoteRead a0 => exact show Fr fm_execPrtNoteRead s t from execPrtNoteRead_fr _ s t (MaskLe.refl _) h
  | apsMessageReceive a0 a1 => exact show Fr fm_execApsMessageReceive s t from execApsMessageReceive_fr _ _ s t (MaskLe.refl _) h
  | apsAgeScan => exact show Fr fm_execApsAgeScan s t from execApsAgeScan_fr s t (MaskLe.refl _) h
  | dfopNr a0 => exact show Fr fm_execDfopNr s t from execDfopNr_fr _ s t (MaskLe.refl _) h
  | stampInstance a0 a1 a2 => exact show Fr fm_execStampInstance s t from execStampInstance_fr _ _ _ s t (MaskLe.refl _) h
  | wingsGroupStart a0 a1 a2 => exact show Fr fm_execWingsGroupStart s t from execWingsGroupStart_fr _ _ _ s t (MaskLe.refl _) h
  | playoutAdvance a0 a1 => exact show Fr fm_execPlayoutAdvance s t from execPlayoutAdvance_fr _ _ s t (MaskLe.refl _) h
  | slotGrant => exact show Fr fm_execSlotGrant s t from execSlotGrant_fr s t (MaskLe.refl _) h
  | overRecover a0 => exact show Fr fm_execOverRecover s t from execOverRecover_fr _ s t (MaskLe.refl _) h
  | hbmRetrainPc a0 a1 => exact show Fr fm_execHbmRetrainPc s t from execHbmRetrainPc_fr _ _ s t (MaskLe.refl _) h
  | stackFail a0 a1 => exact show Fr fm_execStackFail s t from execStackFail_fr _ _ s t (MaskLe.refl _) h
  | groupFallback a0 => exact show Fr fm_execGroupFallback s t from execGroupFallback_fr _ s t (MaskLe.refl _) h
  | hbmRestore a0 => exact show Fr fm_execHbmRestore s t from execHbmRestore_fr _ s t (MaskLe.refl _) h
  | ackFail a0 => exact show Fr fm_execAckFail s t from execAckFail_fr _ s t (MaskLe.refl _) h
  | fybryAdaptationDone a0 => exact show Fr fm_execFybryAdaptationDone s t from execFybryAdaptationDone_fr _ s t (MaskLe.refl _) h
  | fylTxEqWrite a0 a1 a2 => exact show Fr fm_execFylTxEqWrite s t from execFylTxEqWrite_fr _ _ _ s t (MaskLe.refl _) h
  | markerLock a0 a1 a2 => exact show Fr fm_execMarkerLock s t from execMarkerLock_fr _ _ _ s t (MaskLe.refl _) h
  | markerLockLost a0 a1 => exact show Fr fm_execMarkerLockLost s t from execMarkerLockLost_fr _ _ s t (MaskLe.refl _) h
  | segmentReceive a0 a1 => exact show Fr fm_execSegmentReceive s t from execSegmentReceive_fr _ _ s t (MaskLe.refl _) h
  | segmentSlot a0 => exact show Fr fm_execSegmentSlot s t from execSegmentSlot_fr _ s t (MaskLe.refl _) h
  | segmentComplete a0 a1 a2 => exact show Fr fm_execSegmentComplete s t from execSegmentComplete_fr _ _ _ s t (MaskLe.refl _) h
  | reorderTimeout a0 a1 => exact show Fr fm_execReorderTimeout s t from execReorderTimeout_fr _ _ s t (MaskLe.refl _) h
  | flowAbsent a0 a1 => exact show Fr fm_execFlowAbsent s t from execFlowAbsent_fr _ _ s t (MaskLe.refl _) h
  | linkFail a0 a1 => exact show Fr fm_execLinkFail s t from execLinkFail_fr _ _ s t (MaskLe.refl _) h
  | fylFail a0 => exact show Fr fm_execFylFail s t from execFylFail_fr _ s t (MaskLe.refl _) h
  | fylRestore a0 => exact show Fr fm_execFylRestore s t from execFylRestore_fr _ s t (MaskLe.refl _) h
  | ohqRdRead a0 a1 => exact show Fr fm_execOhqRdRead s t from execOhqRdRead_fr _ _ s t (MaskLe.refl _) h
  | ohqWrWrite a0 a1 a2 => exact show Fr fm_execOhqWrWrite s t from execOhqWrWrite_fr _ _ _ s t (MaskLe.refl _) h
  | flush a0 a1 a2 a3 => exact show Fr fm_execFlush s t from execFlush_fr _ _ _ _ s t (MaskLe.refl _) h
  | flushApply a0 a1 a2 => exact show Fr fm_execFlushApply s t from execFlushApply_fr _ _ _ s t (MaskLe.refl _) h
  | dropRest a0 a1 a2 a3 => exact show Fr fm_execDropRest s t from execDropRest_fr _ _ _ _ s t (MaskLe.refl _) h
  | chkStart a0 a1 => exact show Fr fm_execChkStart s t from execChkStart_fr _ _ s t (MaskLe.refl _) h
  | chkDataWrite a0 a1 a2 => exact show Fr fm_execChkDataWrite s t from execChkDataWrite_fr _ _ _ s t (MaskLe.refl _) h
  | chkFinish a0 a1 => exact show Fr fm_execChkFinish s t from execChkFinish_fr _ _ s t (MaskLe.refl _) h
  | chkAbort a0 a1 => exact show Fr fm_execChkAbort s t from execChkAbort_fr _ _ s t (MaskLe.refl _) h
  | sdpFrameReceive a0 => exact show Fr fm_execSdpFrameReceive s t from execSdpFrameReceive_fr _ s t (MaskLe.refl _) h
  | sdpRxDescRead a0 => exact show Fr fm_execSdpRxDescRead s t from execSdpRxDescRead_fr _ s t (MaskLe.refl _) h
  | sdpRxDataRead a0 => exact show Fr fm_execSdpRxDataRead s t from execSdpRxDataRead_fr _ s t (MaskLe.refl _) h
  | sdpTxStart a0 a1 a2 => exact show Fr fm_execSdpTxStart s t from execSdpTxStart_fr _ _ _ s t (MaskLe.refl _) h
  | sdpTxAbort a0 => exact show Fr fm_execSdpTxAbort s t from execSdpTxAbort_fr _ s t (MaskLe.refl _) h
  | sdpTxDataWrite a0 a1 => exact show Fr fm_execSdpTxDataWrite s t from execSdpTxDataWrite_fr _ _ s t (MaskLe.refl _) h
  | sdpTransmit => exact show Fr fm_execSdpTransmit s t from execSdpTransmit_fr s t (MaskLe.refl _) h
  | sdpAgeScan => exact show Fr fm_execSdpAgeScan s t from execSdpAgeScan_fr s t (MaskLe.refl _) h
  | pauseExpiry a0 => exact show Fr fm_execPauseExpiry s t from execPauseExpiry_fr _ s t (MaskLe.refl _) h
  | pauseBreak a0 => exact show Fr fm_execPauseBreak s t from execPauseBreak_fr _ s t (MaskLe.refl _) h
  | sdpStatHalfRead a0 => exact show Fr fm_execSdpStatHalfRead s t from execSdpStatHalfRead_fr _ s t (MaskLe.refl _) h
  | cbbFrameReceive a0 => exact show Fr fm_execCbbFrameReceive s t from execCbbFrameReceive_fr _ s t (MaskLe.refl _) h
  | cbbTxSend a0 a1 a2 a3 => exact show Fr fm_execCbbTxSend s t from execCbbTxSend_fr _ _ _ _ s t (MaskLe.refl _) h
  | cbbTxAbort a0 => exact show Fr fm_execCbbTxAbort s t from execCbbTxAbort_fr _ s t (MaskLe.refl _) h
  | cbbTxTimeout => exact show Fr fm_execCbbTxTimeout s t from execCbbTxTimeout_fr s t (MaskLe.refl _) h
  | masterLost => exact show Fr fm_execMasterLost s t from execMasterLost_fr s t (MaskLe.refl _) h
  | tokenRegen a0 => exact show Fr fm_execTokenRegen s t from execTokenRegen_fr _ s t (MaskLe.refl _) h
  | tokenSuccessorTimeout => exact show Fr fm_execTokenSuccessorTimeout s t from execTokenSuccessorTimeout_fr s t (MaskLe.refl _) h
  | beaconSend a0 => exact show Fr fm_execBeaconSend s t from execBeaconSend_fr _ s t (MaskLe.refl _) h
  | windowClose => exact show Fr fm_execWindowClose s t from execWindowClose_fr s t (MaskLe.refl _) h
  | partnerLost => exact show Fr fm_execPartnerLost s t from execPartnerLost_fr s t (MaskLe.refl _) h
  | cbbWakeAck => exact show Fr fm_execCbbWakeAck s t from execCbbWakeAck_fr s t (MaskLe.refl _) h
  | darkWake a0 => exact show Fr fm_execDarkWake s t from execDarkWake_fr _ s t (MaskLe.refl _) h
  | refLost a0 a1 => exact show Fr fm_execRefLost s t from execRefLost_fr _ _ s t (MaskLe.refl _) h
  | refBack a0 a1 a2 => exact show Fr fm_execRefBack s t from execRefBack_fr _ _ _ s t (MaskLe.refl _) h
  | lockLost a0 => exact show Fr fm_execLockLost s t from execLockLost_fr _ s t (MaskLe.refl _) h
  | relock a0 a1 => exact show Fr fm_execRelock s t from execRelock_fr _ _ s t (MaskLe.refl _) h
  | reband a0 a1 a2 => exact show Fr fm_execReband s t from execReband_fr _ _ _ s t (MaskLe.refl _) h
  | rebandDone a0 => exact show Fr fm_execRebandDone s t from execRebandDone_fr _ s t (MaskLe.refl _) h
  | bandEdge a0 a1 => exact show Fr fm_execBandEdge s t from execBandEdge_fr _ _ s t (MaskLe.refl _) h
  | ppsEdge a0 a1 => exact show Fr fm_execPpsEdge s t from execPpsEdge_fr _ _ s t (MaskLe.refl _) h
  | ppsLost a0 => exact show Fr fm_execPpsLost s t from execPpsLost_fr _ s t (MaskLe.refl _) h
  | todMessage a0 a1 => exact show Fr fm_execTodMessage s t from execTodMessage_fr _ _ s t (MaskLe.refl _) h
  | slewDone => exact show Fr fm_execSlewDone s t from execSlewDone_fr s t (MaskLe.refl _) h
  | holdoverExpired => exact show Fr fm_execHoldoverExpired s t from execHoldoverExpired_fr s t (MaskLe.refl _) h
  | todOutSend => exact show Fr fm_execTodOutSend s t from execTodOutSend_fr s t (MaskLe.refl _) h
  | timNowRead a0 => exact show Fr fm_execTimNowRead s t from execTimNowRead_fr _ s t (MaskLe.refl _) h
  | setSec a0 => exact show Fr fm_execSetSec s t from execSetSec_fr _ s t (MaskLe.refl _) h
  | timTsRead a0 => exact show Fr fm_execTimTsRead s t from execTimTsRead_fr _ s t (MaskLe.refl _) h
  | hostLinkDown => exact show Fr fm_execHostLinkDown s t from execHostLinkDown_fr s t (MaskLe.refl _) h
  | hostLinkUp a0 a1 => exact show Fr fm_execHostLinkUp s t from execHostLinkUp_fr _ _ s t (MaskLe.refl _) h
  | vfFlr a0 => exact show Fr fm_execVfFlr s t from execVfFlr_fr _ s t (MaskLe.refl _) h
  | hostRequest a0 => exact show Fr fm_execHostRequest s t from execHostRequest_fr _ s t (MaskLe.refl _) h
  | busTimeout a0 a1 a2 a3 a4 => exact show Fr fm_execBusTimeout s t from execBusTimeout_fr _ _ _ _ _ s t (MaskLe.refl _) h
  | setPage a0 => exact show Fr fm_execSetPage s t from execSetPage_fr _ s t (MaskLe.refl _) h
  | setObj a0 => exact show Fr fm_execSetObj s t from execSetObj_fr _ s t (MaskLe.refl _) h
  | setWin a0 => exact show Fr fm_execSetWin s t from execSetWin_fr _ s t (MaskLe.refl _) h
  | proxyAccess a0 a1 a2 a3 a4 => exact show Fr fm_execProxyAccess s t from execProxyAccess_fr _ _ _ _ _ s t (MaskLe.refl _) h
  | boxPxPageWrite a0 a1 => exact show Fr fm_execBoxPxPageWrite s t from execBoxPxPageWrite_fr _ _ s t (MaskLe.refl _) h
  | boxNoteRead a0 a1 => exact show Fr fm_execBoxNoteRead s t from execBoxNoteRead_fr _ _ s t (MaskLe.refl _) h
  | msixSend a0 a1 => exact show Fr fm_execMsixSend s t from execMsixSend_fr _ _ s t (MaskLe.refl _) h
  | dmaGo a0 => exact show Fr fm_execDmaGo s t from execDmaGo_fr _ s t (MaskLe.refl _) h
  | dmaDone a0 a1 => exact show Fr fm_execDmaDone s t from execDmaDone_fr _ _ s t (MaskLe.refl _) h
  | pmCopyGo a0 a1 => exact show Fr fm_execPmCopyGo s t from execPmCopyGo_fr _ _ s t (MaskLe.refl _) h
  | pmCopyDone a0 a1 => exact show Fr fm_execPmCopyDone s t from execPmCopyDone_fr _ _ s t (MaskLe.refl _) h
  | fwmRing a0 a1 => exact show Fr fm_execFwmRing s t from execFwmRing_fr _ _ s t (MaskLe.refl _) h
  | mailboxResponse a0 a1 a2 => exact show Fr fm_execMailboxResponse s t from execMailboxResponse_fr _ _ _ s t (MaskLe.refl _) h
  | attest a0 => exact show Fr fm_execAttest s t from execAttest_fr _ s t (MaskLe.refl _) h
  | getCert a0 => exact show Fr fm_execGetCert s t from execGetCert_fr _ s t (MaskLe.refl _) h
  | debugChallenge => exact show Fr fm_execDebugChallenge s t from execDebugChallenge_fr s t (MaskLe.refl _) h
  | debugUnlock => exact show Fr fm_execDebugUnlock s t from execDebugUnlock_fr s t (MaskLe.refl _) h
  | commitRollback a0 => exact show Fr fm_execCommitRollback s t from execCommitRollback_fr _ s t (MaskLe.refl _) h
  | revokeSlot => exact show Fr fm_execRevokeSlot s t from execRevokeSlot_fr s t (MaskLe.refl _) h
  | updateEn a0 => exact show Fr fm_execUpdateEn s t from execUpdateEn_fr _ s t (MaskLe.refl _) h
  | bootInfo => exact show Fr fm_execBootInfo s t from execBootInfo_fr s t (MaskLe.refl _) h
  | pushStart a0 a1 => exact show Fr fm_execPushStart s t from execPushStart_fr _ _ s t (MaskLe.refl _) h
  | pushData a0 a1 => exact show Fr fm_execPushData s t from execPushData_fr _ _ s t (MaskLe.refl _) h
  | pushEnd => exact show Fr fm_execPushEnd s t from execPushEnd_fr s t (MaskLe.refl _) h
  | pushAbort => exact show Fr fm_execPushAbort s t from execPushAbort_fr s t (MaskLe.refl _) h
  | imageVerified a0 a1 a2 => exact show Fr fm_execImageVerified s t from execImageVerified_fr _ _ _ s t (MaskLe.refl _) h
  | fwmWdogKick a0 => exact show Fr fm_execFwmWdogKick s t from execFwmWdogKick_fr _ s t (MaskLe.refl _) h
  | enWdogExpiry a0 => exact show Fr fm_execEnWdogExpiry s t from execEnWdogExpiry_fr _ s t (MaskLe.refl _) h
  | smWdogExpiry a0 => exact show Fr fm_execSmWdogExpiry s t from execSmWdogExpiry_fr _ s t (MaskLe.refl _) h
  | devIdentity a0 => exact show Fr fm_execDevIdentity s t from execDevIdentity_fr _ s t (MaskLe.refl _) h
  | devStatus a0 => exact show Fr fm_execDevStatus s t from execDevStatus_fr _ s t (MaskLe.refl _) h
  | devReset a0 a1 => exact show Fr fm_execDevReset s t from execDevReset_fr _ _ s t (MaskLe.refl _) h
  | laneSet a0 a1 => exact show Fr fm_execLaneSet s t from execLaneSet_fr _ _ s t (MaskLe.refl _) h
  | laneGet a0 => exact show Fr fm_execLaneGet s t from execLaneGet_fr _ s t (MaskLe.refl _) h
  | ifSet a0 a1 => exact show Fr fm_execIfSet s t from execIfSet_fr _ _ s t (MaskLe.refl _) h
  | loopback a0 => exact show Fr fm_execLoopback s t from execLoopback_fr _ s t (MaskLe.refl _) h
  | connAdd a0 a1 => exact show Fr fm_execConnAdd s t from execConnAdd_fr _ _ s t (MaskLe.refl _) h
  | connModify a0 a1 => exact show Fr fm_execConnModify s t from execConnModify_fr _ _ s t (MaskLe.refl _) h
  | connDelete a0 a1 => exact show Fr fm_execConnDelete s t from execConnDelete_fr _ _ s t (MaskLe.refl _) h
  | connGet a0 => exact show Fr fm_execConnGet s t from execConnGet_fr _ s t (MaskLe.refl _) h
  | pmCurrent a0 => exact show Fr fm_execPmCurrent s t from execPmCurrent_fr _ s t (MaskLe.refl _) h
  | pmHistory a0 => exact show Fr fm_execPmHistory s t from execPmHistory_fr _ s t (MaskLe.refl _) h
  | pmThresh a0 => exact show Fr fm_execPmThresh s t from execPmThresh_fr _ s t (MaskLe.refl _) h
  | pgAdd a0 a1 => exact show Fr fm_execPgAdd s t from execPgAdd_fr _ _ s t (MaskLe.refl _) h
  | pgDelete a0 a1 => exact show Fr fm_execPgDelete s t from execPgDelete_fr _ _ s t (MaskLe.refl _) h
  | pgCommand a0 a1 => exact show Fr fm_execPgCommand s t from execPgCommand_fr _ _ s t (MaskLe.refl _) h
  | pgStatus a0 => exact show Fr fm_execPgStatus s t from execPgStatus_fr _ s t (MaskLe.refl _) h
  | ohOpen a0 a1 => exact show Fr fm_execOhOpen s t from execOhOpen_fr _ _ s t (MaskLe.refl _) h
  | ohClose a0 a1 => exact show Fr fm_execOhClose s t from execOhClose_fr _ _ s t (MaskLe.refl _) h
  | ohSend a0 => exact show Fr fm_execOhSend s t from execOhSend_fr _ s t (MaskLe.refl _) h
  | ohReceive a0 => exact show Fr fm_execOhReceive s t from execOhReceive_fr _ s t (MaskLe.refl _) h
  | almList a0 => exact show Fr fm_execAlmList s t from execAlmList_fr _ s t (MaskLe.refl _) h
  | almMask a0 => exact show Fr fm_execAlmMask s t from execAlmMask_fr _ s t (MaskLe.refl _) h
  | timeGet a0 => exact show Fr fm_execTimeGet s t from execTimeGet_fr _ s t (MaskLe.refl _) h
  | timeSet a0 => exact show Fr fm_execTimeSet s t from execTimeSet_fr _ s t (MaskLe.refl _) h
  | personalityFrame a0 => exact show Fr fm_execPersonalityFrame s t from execPersonalityFrame_fr _ s t (MaskLe.refl _) h
  | pmbinStatus => exact show Fr fm_execPmbinStatus s t from execPmbinStatus_fr s t (MaskLe.refl _) h
  | pmbinGet => exact show Fr fm_execPmbinGet s t from execPmbinGet_fr s t (MaskLe.refl _) h
  | housekeepingStatus => exact show Fr fm_execHousekeepingStatus s t from execHousekeepingStatus_fr s t (MaskLe.refl _) h
  | reportWord a0 => exact show Fr fm_execReportWord s t from execReportWord_fr _ s t (MaskLe.refl _) h
  | wireBroken a0 => exact show Fr fm_execWireBroken s t from execWireBroken_fr _ s t (MaskLe.refl _) h
  | reportResend a0 => exact show Fr fm_execReportResend s t from execReportResend_fr _ s t (MaskLe.refl _) h
  | fltAgeScan => exact show Fr fm_execFltAgeScan s t from execFltAgeScan_fr s t (MaskLe.refl _) h
  | fltAck a0 => exact show Fr fm_execFltAck s t from execFltAck_fr _ s t (MaskLe.refl _) h
  | fltInject a0 => exact show Fr fm_execFltInject s t from execFltInject_fr _ s t (MaskLe.refl _) h
  | logWrite a0 => exact show Fr fm_execLogWrite s t from execLogWrite_fr _ s t (MaskLe.refl _) h
  | keyClose a0 a1 => exact show Fr fm_execKeyClose s t from execKeyClose_fr _ _ s t (MaskLe.refl _) h
  | bankFail a0 => exact show Fr fm_execBankFail s t from execBankFail_fr _ s t (MaskLe.refl _) h
  | ghostClear a0 => exact show Fr fm_execGhostClear s t from execGhostClear_fr _ s t (MaskLe.refl _) h
  | playbillGo => exact show Fr fm_execPlaybillGo s t from execPlaybillGo_fr s t (MaskLe.refl _) h
  | playbillDone => exact show Fr fm_execPlaybillDone s t from execPlaybillDone_fr s t (MaskLe.refl _) h
  | digestRecompute a0 => exact show Fr fm_execDigestRecompute s t from execDigestRecompute_fr _ s t (MaskLe.refl _) h
  | resetNRelease a0 => exact show Fr fm_execResetNRelease s t from execResetNRelease_fr _ s t (MaskLe.refl _) h
  | callDone => exact show Fr fm_execCallDone s t from execCallDone_fr s t (MaskLe.refl _) h
  | service a0 a1 => exact show Fr fm_execService s t from execService_fr _ _ s t (MaskLe.refl _) h
  | rehearse a0 => exact show Fr fm_execRehearse s t from execRehearse_fr _ s t (MaskLe.refl _) h
  | audit a0 => exact show Fr fm_execAudit s t from execAudit_fr _ s t (MaskLe.refl _) h
  | enterSafe a0 => exact show Fr fm_execEnterSafe s t from execEnterSafe_fr _ s t (MaskLe.refl _) h
  | exitSafe a0 => exact show Fr fm_execExitSafe s t from execExitSafe_fr _ s t (MaskLe.refl _) h
  | enterDark a0 => exact show Fr fm_execEnterDark s t from execEnterDark_fr _ s t (MaskLe.refl _) h
  | drain a0 a1 => exact show Fr fm_execDrain s t from execDrain_fr _ _ s t (MaskLe.refl _) h
  | offline a0 a1 => exact show Fr fm_execOffline s t from execOffline_fr _ _ s t (MaskLe.refl _) h
  | resume a0 a1 => exact show Fr fm_execResume s t from execResume_fr _ _ s t (MaskLe.refl _) h
  | reset a0 a1 => exact show Fr fm_execReset s t from execReset_fr _ _ s t (MaskLe.refl _) h
  | resetClear a0 a1 => exact show Fr fm_execResetClear s t from execResetClear_fr _ _ s t (MaskLe.refl _) h
  | regionResetDone a0 => exact show Fr fm_execRegionResetDone s t from execRegionResetDone_fr _ s t (MaskLe.refl _) h
  | update a0 a1 a2 => exact show Fr fm_execUpdate s t from execUpdate_fr _ _ _ s t (MaskLe.refl _) h
  | stackRetrain a0 a1 => exact show Fr fm_execStackRetrain s t from execStackRetrain_fr _ _ s t (MaskLe.refl _) h
  | regionSram a0 => exact show Fr fm_execRegionSram s t from execRegionSram_fr _ s t (MaskLe.refl _) h
  | queueMem a0 => exact show Fr fm_execQueueMem s t from execQueueMem_fr _ s t (MaskLe.refl _) h
  | hbmAlign a0 => exact show Fr fm_execHbmAlign s t from execHbmAlign_fr _ s t (MaskLe.refl _) h
  | logBank a0 => exact show Fr fm_execLogBank s t from execLogBank_fr _ s t (MaskLe.refl _) h
  | fuse a0 => exact show Fr fm_execFuse s t from execFuse_fr _ s t (MaskLe.refl _) h
  | aonVote a0 => exact show Fr fm_execAonVote s t from execAonVote_fr _ s t (MaskLe.refl _) h
  | auditDone a0 => exact show Fr fm_execAuditDone s t from execAuditDone_fr _ s t (MaskLe.refl _) h
  | lifeCounterTick a0 => exact show Fr fm_execLifeCounterTick s t from execLifeCounterTick_fr _ s t (MaskLe.refl _) h
  | supplyUndervoltage a0 a1 => exact show Fr fm_execSupplyUndervoltage s t from execSupplyUndervoltage_fr _ _ s t (MaskLe.refl _) h
  | supplyOvervoltage a0 a1 => exact show Fr fm_execSupplyOvervoltage s t from execSupplyOvervoltage_fr _ _ s t (MaskLe.refl _) h
  | coreValidReturn a0 => exact show Fr fm_execCoreValidReturn s t from execCoreValidReturn_fr _ s t (MaskLe.refl _) h
  | thermalSample a0 a1 a2 => exact show Fr fm_execThermalSample s t from execThermalSample_fr _ _ _ s t (MaskLe.refl _) h
  | i2cAccess a0 a1 a2 => exact show Fr fm_execI2cAccess s t from execI2cAccess_fr _ _ _ s t (MaskLe.refl _) h
  | cdrLock a0 => exact show Fr fm_execCdrLock s t from execCdrLock_fr _ s t (MaskLe.refl _) h
  | resetNAssert => exact show Fr fm_execResetNAssert s t from execResetNAssert_fr s t (MaskLe.refl _) h
  | aonPowerUp => exact show Fr fm_execAonPowerUp s t from execAonPowerUp_fr s t (MaskLe.refl _) h
  | sdpLinkChange a0 a1 a2 => exact show Fr fm_execSdpLinkChange s t from execSdpLinkChange_fr _ _ _ s t (MaskLe.refl _) h
  | pushTimeout => exact show Fr fm_execPushTimeout s t from execPushTimeout_fr s t (MaskLe.refl _) h
  | pauseIgnoreEnd a0 => exact show Fr fm_execPauseIgnoreEnd s t from execPauseIgnoreEnd_fr _ s t (MaskLe.refl _) h
  | stackTrainingDone a0 a1 => exact show Fr fm_execStackTrainingDone s t from execStackTrainingDone_fr _ _ s t (MaskLe.refl _) h
  | fybryCodewordDecode a0 a1 a2 => exact show Fr fm_execFybryCodewordDecode s t from execFybryCodewordDecode_fr _ _ _ s t (MaskLe.refl _) h
  | configurationRequest a0 => exact show Fr fm_execConfigurationRequest s t from execConfigurationRequest_fr _ s t (MaskLe.refl _) h
  | jtagInstruction a0 => exact execJtag_fr _ s t h
  | itemErrorDetected a0 => exact show Fr fm_execItemErrorDetected s t from execItemErrorDetected_fr _ s t (MaskLe.refl _) h

end Sys2Proof.Machine
end

