-- ==== Sys2Proof/Laws/Footprint.lean ====
section
/-! SUPPORT. The masks of the laws are inside the footprints: what a mask allows, the footprint has. -/

namespace Sys2Proof.Machine

open Sys2Proof

set_option Elab.async false
set_option linter.all false

/-- The bit of a part in a mask. -/
def Part.bit (p : Part) : Nat :=
  match p with
  | .freeCtr => 3
  | .dpCycle => 4
  | .staged => 11
  | .dirty => 12
  | .events => 13
  | .devGen => 14
  | .mem => 15
  | .slots => 16
  | .fltWin => 17
  | .col => 18
  | .logQ => 19
  | .logHeld => 20
  | .coalKeys => 21
  | .skips => 22
  | .fns => 23
  | .numVfs => 24
  | .vecs => 25
  | .notices => 26
  | .modeCmd => 27
  | .deferredIso => 28
  | .tb => 29
  | .blk => 30
  | .live => 31
  | .lanes => 32
  | .prbs => 33
  | .epi => 34
  | .slices => 35
  | .points => 36
  | .ctxs => 37
  | .secCount => 38
  | .pmPend => 39
  | .tbStepped => 40
  | .clis => 41
  | .gmps => 42
  | .grps => 43
  | .apss => 44
  | .prtQ => 45
  | .sfpOverwrite => 46
  | .flowOuts => 47
  | .wgrps => 48
  | .slotQ => 49
  | .hbm => 50
  | .fallQ => 51
  | .nextPc => 52
  | .brgStamp => 53
  | .fyls => 54
  | .txFlows => 55
  | .rxFailTurn => 56
  | .coverAt => 57
  | .covers => 58
  | .caps => 59
  | .inss => 60
  | .chks => 61
  | .sdpRx0 => 62
  | .sdpRx1 => 63
  | .sdpCur => 64
  | .sdpTx => 65
  | .sdpWr => 66
  | .sdpLast => 67
  | .sdpStarts => 68
  | .sdpRows => 69
  | .sdpSpeed => 70
  | .sdpQuanta => 71
  | .cbbTx => 72
  | .cbbRx => 73
  | .cbbCur => 74
  | .cbbRing => 75
  | .cbbNext => 76
  | .cbbSeq => 77
  | .cbbHeard => 78
  | .door => 79
  | .tsLog => 80
  | .pps => 81
  | .tim => 82
  | .ppsOutLast => 83
  | .csus => 84
  | .upd => 85
  | .msixTab => 86
  | .hst => 87
  | .smHeld => 88
  | .reqQ => 89
  | .smImg => 90
  | .slotA => 91
  | .slotB => 92
  | .push => 93
  | .rbSteps => 94
  | .revoked => 95
  | .rights => 96
  | .challenge => 97
  | .wdogTimes => 98
  | .enStart => 99
  | .kickAt => 100
  | .mbWho => 101
  | .dom => 102
  | .callStop => 103
  | .supplyOff => 104
  | .thermOff => 105
  | .thermHot => 106
  | .life => 107
  | .i2cPtr => 108
  | .plb => 109
  | .digs => 110
  | .digDue => 111
  | .cues => 112
  | .cueTurn => 113
  | .pmBins => 114
  | .pmBase => 115
  | .pmLastBin => 116
  | .pmMissing => 117
  | .pmThr => 118
  | .tca => 119
  | .almMask => 120
  | .sdpBad => 121
  | .persReset => 122

/-- The mask of a footprint: its registers, tables and parts, the queue and the two outputs of a command, and the kept facts. -/
def Foot.mask (a : Foot) : Nat :=
  (if a.anyReg then allRegs else a.regs.foldl (fun m f => m ||| mFld f) 0) |||
  (if a.anyTab then allTabs else a.tabs.foldl (fun m f => m ||| mTab f) 0) |||
  a.parts.foldl (fun m p => m ||| 2 ^ p.bit) (2 ^ 0 ||| 2 ^ 1 ||| 2 ^ 2 ||| 2 ^ 5 ||| 2 ^ 6 ||| 2 ^ 7 ||| 2 ^ 8 ||| 2 ^ 9 ||| 2 ^ 10 ||| 63 * 2 ^ 400)

theorem foot_registerWrite : MaskLe fm_execRegisterWrite Foot.registerWrite.mask := by decide +kernel
theorem foot_pageCtrlWrite : MaskLe fm_execPageCtrlWrite Foot.pageCtrlWrite.mask := by decide +kernel
theorem foot_pageOwnerWrite : MaskLe fm_execPageOwnerWrite Foot.pageOwnerWrite.mask := by decide +kernel
theorem foot_evtStatusRead : MaskLe fm_execEvtStatusRead Foot.evtStatusRead.mask := by decide +kernel
theorem foot_evtAckWrite : MaskLe fm_execEvtAckWrite Foot.evtAckWrite.mask := by decide +kernel
theorem foot_evtForceWrite : MaskLe fm_execEvtForceWrite Foot.evtForceWrite.mask := by decide +kernel
theorem foot_voteScrub : MaskLe fm_execVoteScrub Foot.voteScrub.mask := by decide +kernel
theorem foot_loRead : MaskLe fm_execLoRead Foot.loRead.mask := by decide +kernel
theorem foot_loWrite : MaskLe fm_execLoWrite Foot.loWrite.mask := by decide +kernel
theorem foot_hiWrite : MaskLe fm_execHiWrite Foot.hiWrite.mask := by decide +kernel
theorem foot_indAddrWrite : MaskLe fm_execIndAddrWrite Foot.indAddrWrite.mask := by decide +kernel
theorem foot_indData3Write : MaskLe fm_execIndData3Write Foot.indData3Write.mask := by decide +kernel
theorem foot_indData3Read : MaskLe fm_execIndData3Read Foot.indData3Read.mask := by decide +kernel
theorem foot_cueGo : MaskLe fm_execCueGo Foot.cueGo.mask := by decide +kernel
theorem foot_cueRevert : MaskLe fm_execCueRevert Foot.cueRevert.mask := by decide +kernel
theorem foot_cueImageCrc : MaskLe fm_execCueImageCrc Foot.cueImageCrc.mask := by decide +kernel
theorem foot_cueCheckEnd : MaskLe fm_execCueCheckEnd Foot.cueCheckEnd.mask := by decide +kernel
theorem foot_cueRowAdopt : MaskLe fm_execCueRowAdopt Foot.cueRowAdopt.mask := by decide +kernel
theorem foot_blockRestart : MaskLe fm_execBlockRestart Foot.blockRestart.mask := by decide +kernel
theorem foot_blockRestartRelease : MaskLe fm_execBlockRestartRelease Foot.blockRestartRelease.mask := by decide +kernel
theorem foot_blockRestartTimeout : MaskLe fm_execBlockRestartTimeout Foot.blockRestartTimeout.mask := by decide +kernel
theorem foot_adaptationDone : MaskLe fm_execAdaptationDone Foot.adaptationDone.mask := by decide +kernel
theorem foot_llnTxFirWrite : MaskLe fm_execLlnTxFirWrite Foot.llnTxFirWrite.mask := by decide +kernel
theorem foot_llnRxEqWrite : MaskLe fm_execLlnRxEqWrite Foot.llnRxEqWrite.mask := by decide +kernel
theorem foot_trialStart : MaskLe fm_execTrialStart Foot.trialStart.mask := by decide +kernel
theorem foot_trialDwellEnd : MaskLe fm_execTrialDwellEnd Foot.trialDwellEnd.mask := by decide +kernel
theorem foot_codewordDecode : MaskLe fm_execCodewordDecode Foot.codewordDecode.mask := by decide +kernel
theorem foot_fecSnap : MaskLe fm_execFecSnap Foot.fecSnap.mask := by decide +kernel
theorem foot_los : MaskLe fm_execLos Foot.los.mask := by decide +kernel
theorem foot_signalDetect : MaskLe fm_execSignalDetect Foot.signalDetect.mask := by decide +kernel
theorem foot_cdrUnlock : MaskLe fm_execCdrUnlock Foot.cdrUnlock.mask := by decide +kernel
theorem foot_cwLock : MaskLe fm_execCwLock Foot.cwLock.mask := by decide +kernel
theorem foot_cwUnlock : MaskLe fm_execCwUnlock Foot.cwUnlock.mask := by decide +kernel
theorem foot_deskewMeasure : MaskLe fm_execDeskewMeasure Foot.deskewMeasure.mask := by decide +kernel
theorem foot_prbsLock : MaskLe fm_execPrbsLock Foot.prbsLock.mask := by decide +kernel
theorem foot_prbsLockLost : MaskLe fm_execPrbsLockLost Foot.prbsLockLost.mask := by decide +kernel
theorem foot_prbsInject : MaskLe fm_execPrbsInject Foot.prbsInject.mask := by decide +kernel
theorem foot_flexoFrame : MaskLe fm_execFlexoFrame Foot.flexoFrame.mask := by decide +kernel
theorem foot_otucFrame : MaskLe fm_execOtucFrame Foot.otucFrame.mask := by decide +kernel
theorem foot_lofOn : MaskLe fm_execLofOn Foot.lofOn.mask := by decide +kernel
theorem foot_lofOff : MaskLe fm_execLofOff Foot.lofOff.mask := by decide +kernel
theorem foot_lomOn : MaskLe fm_execLomOn Foot.lomOn.mask := by decide +kernel
theorem foot_lomOff : MaskLe fm_execLomOff Foot.lomOff.mask := by decide +kernel
theorem foot_dlomCnOn : MaskLe fm_execDlomCnOn Foot.dlomCnOn.mask := by decide +kernel
theorem foot_dlomCnOff : MaskLe fm_execDlomCnOff Foot.dlomCnOff.mask := by decide +kernel
theorem foot_bondEnter : MaskLe fm_execBondEnter Foot.bondEnter.mask := by decide +kernel
theorem foot_otucTxFrame : MaskLe fm_execOtucTxFrame Foot.otucTxFrame.mask := by decide +kernel
theorem foot_corruptFas : MaskLe fm_execCorruptFas Foot.corruptFas.mask := by decide +kernel
theorem foot_oduFrameSink : MaskLe fm_execOduFrameSink Foot.oduFrameSink.mask := by decide +kernel
theorem foot_dloflomOn : MaskLe fm_execDloflomOn Foot.dloflomOn.mask := by decide +kernel
theorem foot_dloflomOff : MaskLe fm_execDloflomOff Foot.dloflomOff.mask := by decide +kernel
theorem foot_oduFrameSource : MaskLe fm_execOduFrameSource Foot.oduFrameSource.mask := by decide +kernel
theorem foot_contextForcedAis : MaskLe fm_execContextForcedAis Foot.contextForcedAis.mask := by decide +kernel
theorem foot_secondBoundary : MaskLe fm_execSecondBoundary Foot.secondBoundary.mask := by decide +kernel
theorem foot_pmSecond : MaskLe fm_execPmSecond Foot.pmSecond.mask := by decide +kernel
theorem foot_episodeChange : MaskLe fm_execEpisodeChange Foot.episodeChange.mask := by decide +kernel
theorem foot_aggregatedOff : MaskLe fm_execAggregatedOff Foot.aggregatedOff.mask := by decide +kernel
theorem foot_gmpMapPeriod : MaskLe fm_execGmpMapPeriod Foot.gmpMapPeriod.mask := by decide +kernel
theorem foot_gmpDemapPeriod : MaskLe fm_execGmpDemapPeriod Foot.gmpDemapPeriod.mask := by decide +kernel
theorem foot_ampJustify : MaskLe fm_execAmpJustify Foot.ampJustify.mask := by decide +kernel
theorem foot_ampDemuxPeriod : MaskLe fm_execAmpDemuxPeriod Foot.ampDemuxPeriod.mask := by decide +kernel
theorem foot_impBlock : MaskLe fm_execImpBlock Foot.impBlock.mask := by decide +kernel
theorem foot_crateOff : MaskLe fm_execCrateOff Foot.crateOff.mask := by decide +kernel
theorem foot_rateHold : MaskLe fm_execRateHold Foot.rateHold.mask := by decide +kernel
theorem foot_rateHoldEnd : MaskLe fm_execRateHoldEnd Foot.rateHoldEnd.mask := by decide +kernel
theorem foot_closOn : MaskLe fm_execClosOn Foot.closOn.mask := by decide +kernel
theorem foot_closOff : MaskLe fm_execClosOff Foot.closOff.mask := by decide +kernel
theorem foot_clfChange : MaskLe fm_execClfChange Foot.clfChange.mask := by decide +kernel
theorem foot_crfChange : MaskLe fm_execCrfChange Foot.crfChange.mask := by decide +kernel
theorem foot_suspectHoldEnd : MaskLe fm_execSuspectHoldEnd Foot.suspectHoldEnd.mask := by decide +kernel
theorem foot_legStatusChange : MaskLe fm_execLegStatusChange Foot.legStatusChange.mask := by decide +kernel
theorem foot_holdOffExpiry : MaskLe fm_execHoldOffExpiry Foot.holdOffExpiry.mask := by decide +kernel
theorem foot_wtrExpiry : MaskLe fm_execWtrExpiry Foot.wtrExpiry.mask := by decide +kernel
theorem foot_confirmationExpiry : MaskLe fm_execConfirmationExpiry Foot.confirmationExpiry.mask := by decide +kernel
theorem foot_bridgeChangeApply : MaskLe fm_execBridgeChangeApply Foot.bridgeChangeApply.mask := by decide +kernel
theorem foot_clr : MaskLe fm_execClr Foot.clr.mask := by decide +kernel
theorem foot_lo : MaskLe fm_execLo Foot.lo.mask := by decide +kernel
theorem foot_fs : MaskLe fm_execFs Foot.fs.mask := by decide +kernel
theorem foot_ms : MaskLe fm_execMs Foot.ms.mask := by decide +kernel
theorem foot_msW : MaskLe fm_execMsW Foot.msW.mask := by decide +kernel
theorem foot_exer : MaskLe fm_execExer Foot.exer.mask := by decide +kernel
theorem foot_setSel : MaskLe fm_execSetSel Foot.setSel.mask := by decide +kernel
theorem foot_setBridge : MaskLe fm_execSetBridge Foot.setBridge.mask := by decide +kernel
theorem foot_setAps : MaskLe fm_execSetAps Foot.setAps.mask := by decide +kernel
theorem foot_setAll : MaskLe fm_execSetAll Foot.setAll.mask := by decide +kernel
theorem foot_ackSfp : MaskLe fm_execAckSfp Foot.ackSfp.mask := by decide +kernel
theorem foot_prtNoteRead : MaskLe fm_execPrtNoteRead Foot.prtNoteRead.mask := by decide +kernel
theorem foot_apsMessageReceive : MaskLe fm_execApsMessageReceive Foot.apsMessageReceive.mask := by decide +kernel
theorem foot_apsAgeScan : MaskLe fm_execApsAgeScan Foot.apsAgeScan.mask := by decide +kernel
theorem foot_dfopNr : MaskLe fm_execDfopNr Foot.dfopNr.mask := by decide +kernel
theorem foot_stampInstance : MaskLe fm_execStampInstance Foot.stampInstance.mask := by decide +kernel
theorem foot_wingsGroupStart : MaskLe fm_execWingsGroupStart Foot.wingsGroupStart.mask := by decide +kernel
theorem foot_playoutAdvance : MaskLe fm_execPlayoutAdvance Foot.playoutAdvance.mask := by decide +kernel
theorem foot_slotGrant : MaskLe fm_execSlotGrant Foot.slotGrant.mask := by decide +kernel
theorem foot_overRecover : MaskLe fm_execOverRecover Foot.overRecover.mask := by decide +kernel
theorem foot_hbmRetrainPc : MaskLe fm_execHbmRetrainPc Foot.hbmRetrainPc.mask := by decide +kernel
theorem foot_stackFail : MaskLe fm_execStackFail Foot.stackFail.mask := by decide +kernel
theorem foot_groupFallback : MaskLe fm_execGroupFallback Foot.groupFallback.mask := by decide +kernel
theorem foot_hbmRestore : MaskLe fm_execHbmRestore Foot.hbmRestore.mask := by decide +kernel
theorem foot_ackFail : MaskLe fm_execAckFail Foot.ackFail.mask := by decide +kernel
theorem foot_fybryAdaptationDone : MaskLe fm_execFybryAdaptationDone Foot.fybryAdaptationDone.mask := by decide +kernel
theorem foot_fylTxEqWrite : MaskLe fm_execFylTxEqWrite Foot.fylTxEqWrite.mask := by decide +kernel
theorem foot_markerLock : MaskLe fm_execMarkerLock Foot.markerLock.mask := by decide +kernel
theorem foot_markerLockLost : MaskLe fm_execMarkerLockLost Foot.markerLockLost.mask := by decide +kernel
theorem foot_segmentReceive : MaskLe fm_execSegmentReceive Foot.segmentReceive.mask := by decide +kernel
theorem foot_segmentSlot : MaskLe fm_execSegmentSlot Foot.segmentSlot.mask := by decide +kernel
theorem foot_segmentComplete : MaskLe fm_execSegmentComplete Foot.segmentComplete.mask := by decide +kernel
theorem foot_reorderTimeout : MaskLe fm_execReorderTimeout Foot.reorderTimeout.mask := by decide +kernel
theorem foot_flowAbsent : MaskLe fm_execFlowAbsent Foot.flowAbsent.mask := by decide +kernel
theorem foot_linkFail : MaskLe fm_execLinkFail Foot.linkFail.mask := by decide +kernel
theorem foot_fylFail : MaskLe fm_execFylFail Foot.fylFail.mask := by decide +kernel
theorem foot_fylRestore : MaskLe fm_execFylRestore Foot.fylRestore.mask := by decide +kernel
theorem foot_ohqRdRead : MaskLe fm_execOhqRdRead Foot.ohqRdRead.mask := by decide +kernel
theorem foot_ohqWrWrite : MaskLe fm_execOhqWrWrite Foot.ohqWrWrite.mask := by decide +kernel
theorem foot_flush : MaskLe fm_execFlush Foot.flush.mask := by decide +kernel
theorem foot_flushApply : MaskLe fm_execFlushApply Foot.flushApply.mask := by decide +kernel
theorem foot_dropRest : MaskLe fm_execDropRest Foot.dropRest.mask := by decide +kernel
theorem foot_chkStart : MaskLe fm_execChkStart Foot.chkStart.mask := by decide +kernel
theorem foot_chkDataWrite : MaskLe fm_execChkDataWrite Foot.chkDataWrite.mask := by decide +kernel
theorem foot_chkFinish : MaskLe fm_execChkFinish Foot.chkFinish.mask := by decide +kernel
theorem foot_chkAbort : MaskLe fm_execChkAbort Foot.chkAbort.mask := by decide +kernel
theorem foot_sdpFrameReceive : MaskLe fm_execSdpFrameReceive Foot.sdpFrameReceive.mask := by decide +kernel
theorem foot_sdpRxDescRead : MaskLe fm_execSdpRxDescRead Foot.sdpRxDescRead.mask := by decide +kernel
theorem foot_sdpRxDataRead : MaskLe fm_execSdpRxDataRead Foot.sdpRxDataRead.mask := by decide +kernel
theorem foot_sdpTxStart : MaskLe fm_execSdpTxStart Foot.sdpTxStart.mask := by decide +kernel
theorem foot_sdpTxAbort : MaskLe fm_execSdpTxAbort Foot.sdpTxAbort.mask := by decide +kernel
theorem foot_sdpTxDataWrite : MaskLe fm_execSdpTxDataWrite Foot.sdpTxDataWrite.mask := by decide +kernel
theorem foot_sdpTransmit : MaskLe fm_execSdpTransmit Foot.sdpTransmit.mask := by decide +kernel
theorem foot_sdpAgeScan : MaskLe fm_execSdpAgeScan Foot.sdpAgeScan.mask := by decide +kernel
theorem foot_pauseExpiry : MaskLe fm_execPauseExpiry Foot.pauseExpiry.mask := by decide +kernel
theorem foot_pauseBreak : MaskLe fm_execPauseBreak Foot.pauseBreak.mask := by decide +kernel
theorem foot_sdpStatHalfRead : MaskLe fm_execSdpStatHalfRead Foot.sdpStatHalfRead.mask := by decide +kernel
theorem foot_cbbFrameReceive : MaskLe fm_execCbbFrameReceive Foot.cbbFrameReceive.mask := by decide +kernel
theorem foot_cbbTxSend : MaskLe fm_execCbbTxSend Foot.cbbTxSend.mask := by decide +kernel
theorem foot_cbbTxAbort : MaskLe fm_execCbbTxAbort Foot.cbbTxAbort.mask := by decide +kernel
theorem foot_cbbTxTimeout : MaskLe fm_execCbbTxTimeout Foot.cbbTxTimeout.mask := by decide +kernel
theorem foot_masterLost : MaskLe fm_execMasterLost Foot.masterLost.mask := by decide +kernel
theorem foot_tokenRegen : MaskLe fm_execTokenRegen Foot.tokenRegen.mask := by decide +kernel
theorem foot_tokenSuccessorTimeout : MaskLe fm_execTokenSuccessorTimeout Foot.tokenSuccessorTimeout.mask := by decide +kernel
theorem foot_beaconSend : MaskLe fm_execBeaconSend Foot.beaconSend.mask := by decide +kernel
theorem foot_windowClose : MaskLe fm_execWindowClose Foot.windowClose.mask := by decide +kernel
theorem foot_partnerLost : MaskLe fm_execPartnerLost Foot.partnerLost.mask := by decide +kernel
theorem foot_cbbWakeAck : MaskLe fm_execCbbWakeAck Foot.cbbWakeAck.mask := by decide +kernel
theorem foot_darkWake : MaskLe fm_execDarkWake Foot.darkWake.mask := by decide +kernel
theorem foot_refLost : MaskLe fm_execRefLost Foot.refLost.mask := by decide +kernel
theorem foot_refBack : MaskLe fm_execRefBack Foot.refBack.mask := by decide +kernel
theorem foot_lockLost : MaskLe fm_execLockLost Foot.lockLost.mask := by decide +kernel
theorem foot_relock : MaskLe fm_execRelock Foot.relock.mask := by decide +kernel
theorem foot_reband : MaskLe fm_execReband Foot.reband.mask := by decide +kernel
theorem foot_rebandDone : MaskLe fm_execRebandDone Foot.rebandDone.mask := by decide +kernel
theorem foot_bandEdge : MaskLe fm_execBandEdge Foot.bandEdge.mask := by decide +kernel
theorem foot_ppsEdge : MaskLe fm_execPpsEdge Foot.ppsEdge.mask := by decide +kernel
theorem foot_ppsLost : MaskLe fm_execPpsLost Foot.ppsLost.mask := by decide +kernel
theorem foot_todMessage : MaskLe fm_execTodMessage Foot.todMessage.mask := by decide +kernel
theorem foot_slewDone : MaskLe fm_execSlewDone Foot.slewDone.mask := by decide +kernel
theorem foot_holdoverExpired : MaskLe fm_execHoldoverExpired Foot.holdoverExpired.mask := by decide +kernel
theorem foot_todOutSend : MaskLe fm_execTodOutSend Foot.todOutSend.mask := by decide +kernel
theorem foot_timNowRead : MaskLe fm_execTimNowRead Foot.timNowRead.mask := by decide +kernel
theorem foot_setSec : MaskLe fm_execSetSec Foot.setSec.mask := by decide +kernel
theorem foot_timTsRead : MaskLe fm_execTimTsRead Foot.timTsRead.mask := by decide +kernel
theorem foot_hostLinkDown : MaskLe fm_execHostLinkDown Foot.hostLinkDown.mask := by decide +kernel
theorem foot_hostLinkUp : MaskLe fm_execHostLinkUp Foot.hostLinkUp.mask := by decide +kernel
theorem foot_vfFlr : MaskLe fm_execVfFlr Foot.vfFlr.mask := by decide +kernel
theorem foot_hostRequest : MaskLe fm_execHostRequest Foot.hostRequest.mask := by decide +kernel
theorem foot_busTimeout : MaskLe fm_execBusTimeout Foot.busTimeout.mask := by decide +kernel
theorem foot_setPage : MaskLe fm_execSetPage Foot.setPage.mask := by decide +kernel
theorem foot_setObj : MaskLe fm_execSetObj Foot.setObj.mask := by decide +kernel
theorem foot_setWin : MaskLe fm_execSetWin Foot.setWin.mask := by decide +kernel
theorem foot_proxyAccess : MaskLe fm_execProxyAccess Foot.proxyAccess.mask := by decide +kernel
theorem foot_boxPxPageWrite : MaskLe fm_execBoxPxPageWrite Foot.boxPxPageWrite.mask := by decide +kernel
theorem foot_boxNoteRead : MaskLe fm_execBoxNoteRead Foot.boxNoteRead.mask := by decide +kernel
theorem foot_msixSend : MaskLe fm_execMsixSend Foot.msixSend.mask := by decide +kernel
theorem foot_dmaGo : MaskLe fm_execDmaGo Foot.dmaGo.mask := by decide +kernel
theorem foot_dmaDone : MaskLe fm_execDmaDone Foot.dmaDone.mask := by decide +kernel
theorem foot_pmCopyGo : MaskLe fm_execPmCopyGo Foot.pmCopyGo.mask := by decide +kernel
theorem foot_pmCopyDone : MaskLe fm_execPmCopyDone Foot.pmCopyDone.mask := by decide +kernel
theorem foot_fwmRing : MaskLe fm_execFwmRing Foot.fwmRing.mask := by decide +kernel
theorem foot_mailboxResponse : MaskLe fm_execMailboxResponse Foot.mailboxResponse.mask := by decide +kernel
theorem foot_attest : MaskLe fm_execAttest Foot.attest.mask := by decide +kernel
theorem foot_getCert : MaskLe fm_execGetCert Foot.getCert.mask := by decide +kernel
theorem foot_debugChallenge : MaskLe fm_execDebugChallenge Foot.debugChallenge.mask := by decide +kernel
theorem foot_debugUnlock : MaskLe fm_execDebugUnlock Foot.debugUnlock.mask := by decide +kernel
theorem foot_commitRollback : MaskLe fm_execCommitRollback Foot.commitRollback.mask := by decide +kernel
theorem foot_revokeSlot : MaskLe fm_execRevokeSlot Foot.revokeSlot.mask := by decide +kernel
theorem foot_updateEn : MaskLe fm_execUpdateEn Foot.updateEn.mask := by decide +kernel
theorem foot_bootInfo : MaskLe fm_execBootInfo Foot.bootInfo.mask := by decide +kernel
theorem foot_pushStart : MaskLe fm_execPushStart Foot.pushStart.mask := by decide +kernel
theorem foot_pushData : MaskLe fm_execPushData Foot.pushData.mask := by decide +kernel
theorem foot_pushEnd : MaskLe fm_execPushEnd Foot.pushEnd.mask := by decide +kernel
theorem foot_pushAbort : MaskLe fm_execPushAbort Foot.pushAbort.mask := by decide +kernel
theorem foot_imageVerified : MaskLe fm_execImageVerified Foot.imageVerified.mask := by decide +kernel
theorem foot_fwmWdogKick : MaskLe fm_execFwmWdogKick Foot.fwmWdogKick.mask := by decide +kernel
theorem foot_enWdogExpiry : MaskLe fm_execEnWdogExpiry Foot.enWdogExpiry.mask := by decide +kernel
theorem foot_smWdogExpiry : MaskLe fm_execSmWdogExpiry Foot.smWdogExpiry.mask := by decide +kernel
theorem foot_devIdentity : MaskLe fm_execDevIdentity Foot.devIdentity.mask := by decide +kernel
theorem foot_devStatus : MaskLe fm_execDevStatus Foot.devStatus.mask := by decide +kernel
theorem foot_devReset : MaskLe fm_execDevReset Foot.devReset.mask := by decide +kernel
theorem foot_laneSet : MaskLe fm_execLaneSet Foot.laneSet.mask := by decide +kernel
theorem foot_laneGet : MaskLe fm_execLaneGet Foot.laneGet.mask := by decide +kernel
theorem foot_ifSet : MaskLe fm_execIfSet Foot.ifSet.mask := by decide +kernel
theorem foot_loopback : MaskLe fm_execLoopback Foot.loopback.mask := by decide +kernel
theorem foot_connAdd : MaskLe fm_execConnAdd Foot.connAdd.mask := by decide +kernel
theorem foot_connModify : MaskLe fm_execConnModify Foot.connModify.mask := by decide +kernel
theorem foot_connDelete : MaskLe fm_execConnDelete Foot.connDelete.mask := by decide +kernel
theorem foot_connGet : MaskLe fm_execConnGet Foot.connGet.mask := by decide +kernel
theorem foot_pmCurrent : MaskLe fm_execPmCurrent Foot.pmCurrent.mask := by decide +kernel
theorem foot_pmHistory : MaskLe fm_execPmHistory Foot.pmHistory.mask := by decide +kernel
theorem foot_pmThresh : MaskLe fm_execPmThresh Foot.pmThresh.mask := by decide +kernel
theorem foot_pgAdd : MaskLe fm_execPgAdd Foot.pgAdd.mask := by decide +kernel
theorem foot_pgDelete : MaskLe fm_execPgDelete Foot.pgDelete.mask := by decide +kernel
theorem foot_pgCommand : MaskLe fm_execPgCommand Foot.pgCommand.mask := by decide +kernel
theorem foot_pgStatus : MaskLe fm_execPgStatus Foot.pgStatus.mask := by decide +kernel
theorem foot_ohOpen : MaskLe fm_execOhOpen Foot.ohOpen.mask := by decide +kernel
theorem foot_ohClose : MaskLe fm_execOhClose Foot.ohClose.mask := by decide +kernel
theorem foot_ohSend : MaskLe fm_execOhSend Foot.ohSend.mask := by decide +kernel
theorem foot_ohReceive : MaskLe fm_execOhReceive Foot.ohReceive.mask := by decide +kernel
theorem foot_almList : MaskLe fm_execAlmList Foot.almList.mask := by decide +kernel
theorem foot_almMask : MaskLe fm_execAlmMask Foot.almMask.mask := by decide +kernel
theorem foot_timeGet : MaskLe fm_execTimeGet Foot.timeGet.mask := by decide +kernel
theorem foot_timeSet : MaskLe fm_execTimeSet Foot.timeSet.mask := by decide +kernel
theorem foot_personalityFrame : MaskLe fm_execPersonalityFrame Foot.personalityFrame.mask := by decide +kernel
theorem foot_pmbinStatus : MaskLe fm_execPmbinStatus Foot.pmbinStatus.mask := by decide +kernel
theorem foot_pmbinGet : MaskLe fm_execPmbinGet Foot.pmbinGet.mask := by decide +kernel
theorem foot_housekeepingStatus : MaskLe fm_execHousekeepingStatus Foot.housekeepingStatus.mask := by decide +kernel
theorem foot_reportWord : MaskLe fm_execReportWord Foot.reportWord.mask := by decide +kernel
theorem foot_wireBroken : MaskLe fm_execWireBroken Foot.wireBroken.mask := by decide +kernel
theorem foot_reportResend : MaskLe fm_execReportResend Foot.reportResend.mask := by decide +kernel
theorem foot_fltAgeScan : MaskLe fm_execFltAgeScan Foot.fltAgeScan.mask := by decide +kernel
theorem foot_fltAck : MaskLe fm_execFltAck Foot.fltAck.mask := by decide +kernel
theorem foot_fltInject : MaskLe fm_execFltInject Foot.fltInject.mask := by decide +kernel
theorem foot_logWrite : MaskLe fm_execLogWrite Foot.logWrite.mask := by decide +kernel
theorem foot_keyClose : MaskLe fm_execKeyClose Foot.keyClose.mask := by decide +kernel
theorem foot_bankFail : MaskLe fm_execBankFail Foot.bankFail.mask := by decide +kernel
theorem foot_ghostClear : MaskLe fm_execGhostClear Foot.ghostClear.mask := by decide +kernel
theorem foot_playbillGo : MaskLe fm_execPlaybillGo Foot.playbillGo.mask := by decide +kernel
theorem foot_playbillDone : MaskLe fm_execPlaybillDone Foot.playbillDone.mask := by decide +kernel
theorem foot_digestRecompute : MaskLe fm_execDigestRecompute Foot.digestRecompute.mask := by decide +kernel
theorem foot_resetNRelease : MaskLe fm_execResetNRelease Foot.resetNRelease.mask := by decide +kernel
theorem foot_callDone : MaskLe fm_execCallDone Foot.callDone.mask := by decide +kernel
theorem foot_service : MaskLe fm_execService Foot.service.mask := by decide +kernel
theorem foot_rehearse : MaskLe fm_execRehearse Foot.rehearse.mask := by decide +kernel
theorem foot_audit : MaskLe fm_execAudit Foot.audit.mask := by decide +kernel
theorem foot_enterSafe : MaskLe fm_execEnterSafe Foot.enterSafe.mask := by decide +kernel
theorem foot_exitSafe : MaskLe fm_execExitSafe Foot.exitSafe.mask := by decide +kernel
theorem foot_enterDark : MaskLe fm_execEnterDark Foot.enterDark.mask := by decide +kernel
theorem foot_drain : MaskLe fm_execDrain Foot.drain.mask := by decide +kernel
theorem foot_offline : MaskLe fm_execOffline Foot.offline.mask := by decide +kernel
theorem foot_resume : MaskLe fm_execResume Foot.resume.mask := by decide +kernel
theorem foot_reset : MaskLe fm_execReset Foot.reset.mask := by decide +kernel
theorem foot_resetClear : MaskLe fm_execResetClear Foot.resetClear.mask := by decide +kernel
theorem foot_regionResetDone : MaskLe fm_execRegionResetDone Foot.regionResetDone.mask := by decide +kernel
theorem foot_update : MaskLe fm_execUpdate Foot.update.mask := by decide +kernel
theorem foot_stackRetrain : MaskLe fm_execStackRetrain Foot.stackRetrain.mask := by decide +kernel
theorem foot_regionSram : MaskLe fm_execRegionSram Foot.regionSram.mask := by decide +kernel
theorem foot_queueMem : MaskLe fm_execQueueMem Foot.queueMem.mask := by decide +kernel
theorem foot_hbmAlign : MaskLe fm_execHbmAlign Foot.hbmAlign.mask := by decide +kernel
theorem foot_logBank : MaskLe fm_execLogBank Foot.logBank.mask := by decide +kernel
theorem foot_fuse : MaskLe fm_execFuse Foot.fuse.mask := by decide +kernel
theorem foot_aonVote : MaskLe fm_execAonVote Foot.aonVote.mask := by decide +kernel
theorem foot_auditDone : MaskLe fm_execAuditDone Foot.auditDone.mask := by decide +kernel
theorem foot_lifeCounterTick : MaskLe fm_execLifeCounterTick Foot.lifeCounterTick.mask := by decide +kernel
theorem foot_supplyUndervoltage : MaskLe fm_execSupplyUndervoltage Foot.supplyUndervoltage.mask := by decide +kernel
theorem foot_supplyOvervoltage : MaskLe fm_execSupplyOvervoltage Foot.supplyOvervoltage.mask := by decide +kernel
theorem foot_coreValidReturn : MaskLe fm_execCoreValidReturn Foot.coreValidReturn.mask := by decide +kernel
theorem foot_thermalSample : MaskLe fm_execThermalSample Foot.thermalSample.mask := by decide +kernel
theorem foot_i2cAccess : MaskLe fm_execI2cAccess Foot.i2cAccess.mask := by decide +kernel
theorem foot_cdrLock : MaskLe fm_execCdrLock Foot.cdrLock.mask := by decide +kernel
theorem foot_resetNAssert : MaskLe fm_execResetNAssert Foot.resetNAssert.mask := by decide +kernel
theorem foot_aonPowerUp : MaskLe fm_execAonPowerUp Foot.aonPowerUp.mask := by decide +kernel
theorem foot_sdpLinkChange : MaskLe fm_execSdpLinkChange Foot.sdpLinkChange.mask := by decide +kernel
theorem foot_pushTimeout : MaskLe fm_execPushTimeout Foot.pushTimeout.mask := by decide +kernel
theorem foot_pauseIgnoreEnd : MaskLe fm_execPauseIgnoreEnd Foot.pauseIgnoreEnd.mask := by decide +kernel
theorem foot_stackTrainingDone : MaskLe fm_execStackTrainingDone Foot.stackTrainingDone.mask := by decide +kernel
theorem foot_fybryCodewordDecode : MaskLe fm_execFybryCodewordDecode Foot.fybryCodewordDecode.mask := by decide +kernel
theorem foot_configurationRequest : MaskLe fm_execConfigurationRequest Foot.configurationRequest.mask := by decide +kernel
theorem foot_jtagInstruction : MaskLe (2 ^ 1 ||| 2 ^ 2) Foot.jtagInstruction.mask := by decide +kernel
theorem foot_itemErrorDetected : MaskLe fm_execItemErrorDetected Foot.itemErrorDetected.mask := by decide +kernel

end Sys2Proof.Machine
end

