-- ==== Sys2Proof/WellFormed.lean ====
section
/-! DEFINITION. Which commands are well formed: every item they name exists on the device, and every value fits the width the spec
gives it. Nothing else is asked of a command: a value that a register, a message or a frame may carry but that the spec refuses,
ignores or counts is well formed, and its meaning says what happens. -/

namespace Sys2Proof

/-- A number below a bound. -/
def below (x bound : Nat) : Bool := decide (x < bound)

/-- A 32-bit word. -/
def word (x : Nat) : Bool := decide (x < 2 ^ 32)

/-- Bytes. -/
def octets (l : List Nat) : Bool := l.all (fun b => decide (b < 256))

/-- A requester: a host access names one of 512 boxes, and only a host access comes through a proxy (file 13, R451). -/
def Who.wf (w : Who) : Bool := decide (w.box < 512) && (decide (w.master = .host) || (decide (w.box = 0) && !w.proxy))

/-- A register access: a page of the 16-bit page index, an offset in its 4 KiB, four byte enables (file 02, R52, R53). -/
def RegAcc.wf (a : RegAcc) : Bool := a.who.wf && below a.page 65536 && below a.off 4096 && below a.be 16

def RegWrite.wf (x : RegWrite) : Bool := x.acc.wf && word x.value

/-- A disturbed copy is one of three (file 02, R61). -/
def Upset.wf : Upset → Bool
  | .field page off lo copy _ => below page 65536 && below off 1024 && below lo 64 && below copy 3
  | .entry page code e copy _ => below page 65536 && below code 256 && below e (2 ^ 24) && below copy 3

def AdoptRef.wf : AdoptRef → Bool
  | .free => true
  | .odu B dir e => below B 64 && below dir 2 && below e 1024

/-- 256 line lanes; 96 Fybry links of 8 lanes (files 03 and 09). -/
def LaneRef.wf : LaneRef → Bool
  | .line n => below n 256
  | .fybry m k => below m 96 && below k 8

def CliRef.wf : CliRef → Bool
  | .ctx B dir e => below B 64 && below dir 2 && below e 1024
  | .line n => below n 256

/-- The fields of a segment header (file 09, Tables FYB-4 and FYB-5). -/
def Seg.wf (x : Seg) : Bool :=
  below x.typ 16 && below x.leg 4 && below x.cls 2 && below x.flow 65536 && below x.seq 65536 && below x.stamp (2 ^ 32) && below x.snap 65536 &&
  below x.ccls 2 && below x.lstate 4 && below x.rxFail 16 && below x.credit 65536 && below x.crc 65536

/-- An OTUC frame's overhead bytes (file 04, Table OTU-5). -/
def OtucFrame.wf (f : OtucFrame) : Bool :=
  octets f.fas && below f.mfas 256 && below f.tti 256 && below f.bip 256 && below f.computed 256 && below f.byte10 256 && octets f.gcc0

/-- The fields of a PM or TCM layer (file 05, R172). -/
def LayerOh.wf (x : LayerOh) : Bool := below x.stat 8 && below x.tti 256 && below x.bip 256 && below x.bei 16

def OduFrame.wf (f : OduFrame) : Bool :=
  below f.mfas 256 && below f.psi 256 && f.pos.all (fun p => below p.computed 256 && p.layers.all LayerOh.wf) && octets f.gcc1 && octets f.gcc2 &&
  octets f.aps && below f.omfi 256 && octets f.opu

/-- PAM4 levels (file 03, R90). -/
def levelsOk (l : List Nat) : Bool := l.all (fun x => decide (x < 4))

/-- JC1 to JC6 and the words of a GMP period (file 06, R204 to R206). -/
def GmpRx.wf (x : GmpRx) : Bool := decide (x.jc.length = 6) && octets x.jc && octets x.words

/-- The three JC copies of an AMP period (file 06, R209). -/
def ampCopies (jc : List Nat) : Bool := decide (jc.length = 3) && jc.all (below · 4)

/-- A stamp group's bytes (file 08, R272), and what a stack did (R295). -/
def StampGroup.wf (g : StampGroup) : Bool := below g.mfas 256 && below g.format 256 && octets g.exp2
def HbmUse.wf (u : HbmUse) : Bool := below u.done 16385 && below u.err 3

/-- What completes a segment (file 09, R325). -/
def SegDone.wf (d : SegDone) : Bool := octets d.payload && below d.mfas 256 && below d.lineOff 65536

/-- A host request: one of 512 functions, four BARs, byte enables of four bits (file 13, R461). -/
def HostReq.wf (x : HostReq) : Bool :=
  below x.fn 512 && below x.bar 4 && below x.firstBe 16 && below x.lastBe 16 && (match x.op with
    | .write data => data.all word
    | _ => true)

def CfgReq.wf : CfgReq → Bool
  | .read fn off => below fn 512 && below off 4096
  | .vfEnable n => below n 512
  | .msix fn _ _ => below fn 512
  | .other => true

/-- A detected error's source is a 32-bit source field (file 15, Table FLT-2). -/
def ItemError.wf : ItemError → Bool
  | .sramCe src => word src
  | .sramUe src => word src
  | .parity src => word src
  | .lane l => l.wf
  | .datapath src => word src
  | .row src => word src
  | .queueWord r dir i _ => below r 8 && below dir 2 && below i 512
  | .selfTest r => below r 8
  | .fuse => true
  | .collector => true

/-- A command is well formed. -/
def Instr.wf : Instr → Bool
  | .registerWrite x => x.wf
  | .pageCtrlWrite a v => a.wf && word v
  | .pageOwnerWrite a v => a.wf && word v
  | .evtStatusRead a => a.wf
  | .evtAckWrite a v => a.wf && word v
  | .evtForceWrite a v => a.wf && word v
  | .voteScrub u => u.all Upset.wf
  | .loRead a => a.wf
  | .loWrite a v => a.wf && word v
  | .hiWrite a v => a.wf && word v
  | .indAddrWrite a v => a.wf && word v
  | .indData3Write a v => a.wf && word v
  | .indData3Read a => a.wf
  | .cueGo w n _ => w.wf && below n 512
  | .cueRevert w n => w.wf && below n 512
  | .cueImageCrc n => below n 512
  | .cueCheckEnd n => below n 512
  | .cueRowAdopt n x => below n 512 && x.wf
  | .blockRestart B cls => below B 64 && below cls 32
  | .blockRestartRelease lead => below lead 1024
  | .blockRestartTimeout lead => below lead 1024
  | .adaptationDone n => below n 256
  | .llnTxFirWrite n v => below n 256 && word v
  | .llnRxEqWrite n v => below n 256 && word v
  | .trialStart B _ => below B 64
  | .trialDwellEnd n => below n 256
  | .codewordDecode n x _ => below n 256 && below x.inst 4 && levelsOk x.levels
  | .fecSnap n => below n 256
  | .los l => l.wf
  | .signalDetect l => l.wf
  | .cdrUnlock n => below n 256
  | .cwLock n => below n 256
  | .cwUnlock n _ => below n 256
  | .deskewMeasure n lags => below n 256 && lags.all (fun x => below x 2048)
  | .prbsLock l levels => l.wf && levelsOk levels
  | .prbsLockLost l levels => l.wf && levelsOk levels
  | .prbsInject n => below n 256
  | .flexoFrame d _ => below d 1024
  | .otucFrame d f => below d 1024 && f.wf
  | .lofOn d => below d 1024
  | .lofOff d => below d 1024
  | .lomOn d => below d 1024
  | .lomOff d => below d 1024
  | .dlomCnOn lead => below lead 1024
  | .dlomCnOff lead => below lead 1024
  | .bondEnter d => below d 1024
  | .otucTxFrame lead x => below lead 1024 && octets x.computed && x.words.all (fun w => w.all (below · 1024))
  | .corruptFas d => below d 1024
  | .oduFrameSink B e f => below B 64 && below e 1024 && f.wf
  | .dloflomOn B e _ => below B 64 && below e 1024
  | .dloflomOff B e _ => below B 64 && below e 1024
  | .oduFrameSource B e x => below B 64 && below e 1024 && octets x.computed
  | .contextForcedAis B dir e => below B 64 && below dir 2 && below e 1024
  | .secondBoundary => true
  | .pmSecond => true
  | .episodeChange r => below r 8
  | .aggregatedOff r => below r 8
  | .gmpMapPeriod B e _ data => below B 64 && below e 1024 && octets data
  | .gmpDemapPeriod B e _ rx => below B 64 && below e 1024 && rx.wf
  | .ampJustify B e data => below B 64 && below e 1024 && octets data
  | .ampDemuxPeriod B e jc data _ => below B 64 && below e 1024 && ampCopies jc && octets data
  | .impBlock c p _ => c.wf && decide (p.arrive.length ≤ 66)
  | .crateOff c => c.wf
  | .rateHold B e => below B 64 && below e 1024
  | .rateHoldEnd B e => below B 64 && below e 1024
  | .closOn c => c.wf
  | .closOff c => c.wf
  | .clfChange c _ => c.wf
  | .crfChange c _ => c.wf
  | .suspectHoldEnd c => c.wf
  | .legStatusChange G leg => below G 24576 && below leg 2
  | .holdOffExpiry G leg => below G 24576 && below leg 2
  | .wtrExpiry G => below G 24576
  | .confirmationExpiry G => below G 24576
  | .bridgeChangeApply r j => below r 8 && below j 2048
  | .clr w G => w.wf && below G 32768
  | .lo w G => w.wf && below G 32768
  | .fs w G => w.wf && below G 32768
  | .ms w G => w.wf && below G 32768
  | .msW w G => w.wf && below G 32768
  | .exer w G => w.wf && below G 32768
  | .setSel w G => w.wf && below G 32768
  | .setBridge w G => w.wf && below G 32768
  | .setAps w G => w.wf && below G 32768
  | .setAll w G => w.wf && below G 32768
  | .ackSfp w G => w.wf && below G 32768
  | .prtNoteRead w => w.wf
  | .apsMessageReceive a msg => below a 16384 && word msg
  | .apsAgeScan => true
  | .dfopNr a => below a 16384
  | .stampInstance B e g => below B 64 && below e 1024 && g.wf
  | .wingsGroupStart w leg F => below w 4096 && below leg 2 && word F
  | .playoutAdvance w u => below w 4096 && u.wf
  | .slotGrant => true
  | .overRecover w => below w 4096
  | .hbmRetrainPc k _ => below k 6
  | .stackFail k _ => below k 6
  | .groupFallback k => below k 6
  | .hbmRestore k => below k 6
  | .ackFail w => below w 4096
  | .fybryAdaptationDone m => below m 96
  | .fylTxEqWrite m k v => below m 96 && below k 8 && word v
  | .markerLock m k x => below m 96 && below k 8 && levelsOk x.levels
  | .markerLockLost m k => below m 96 && below k 8
  | .segmentReceive m x => below m 96 && x.seg.wf && x.use.wf
  | .segmentSlot m => below m 96
  | .segmentComplete r j d => below r 8 && below j 4096 && d.wf
  | .reorderTimeout r j => below r 8 && below j 8192
  | .flowAbsent r j => below r 8 && below j 8192
  | .linkFail m _ => below m 96
  | .fylFail m => below m 96
  | .fylRestore m => below m 96
  | .ohqRdRead w r => w.wf && below r 8
  | .ohqWrWrite w r v => w.wf && below r 8 && word v
  | .flush w r dir ch => w.wf && below r 8 && below dir 2 && below ch 512
  | .flushApply r dir ch => below r 8 && below dir 2 && below ch 512
  | .dropRest w r dir ch => w.wf && below r 8 && below dir 2 && below ch 512
  | .chkStart w u => w.wf && below u 32
  | .chkDataWrite w u v => w.wf && below u 32 && word v
  | .chkFinish w u => w.wf && below u 32
  | .chkAbort w u => w.wf && below u 32
  | .sdpFrameReceive b => octets b
  | .sdpRxDescRead w => w.wf
  | .sdpRxDataRead w => w.wf
  | .sdpTxStart w q len => w.wf && below q 8 && below len 16384
  | .sdpTxAbort w => w.wf
  | .sdpTxDataWrite w v => w.wf && word v
  | .sdpTransmit => true
  | .sdpAgeScan => true
  | .pauseExpiry c => below c 8
  | .pauseBreak c => below c 8
  | .sdpStatHalfRead w => w.wf
  | .cbbFrameReceive x => below x.start (2 ^ 64)
  | .cbbTxSend w typ dst len => w.wf && below typ 256 && below dst 128 && below len 512
  | .cbbTxAbort w => w.wf
  | .cbbTxTimeout => true
  | .masterLost => true
  | .tokenRegen _ => true
  | .tokenSuccessorTimeout => true
  | .beaconSend _ => true
  | .windowClose => true
  | .partnerLost => true
  | .cbbWakeAck => true
  | .darkWake strap => below strap 256
  | .refLost u _ => below u 55
  | .refBack u _ _ => below u 55
  | .lockLost u => below u 55
  | .relock u _ => below u 55
  | .reband u w _ => below u 55 && w.wf
  | .rebandDone u => below u 55
  | .bandEdge u _ => below u 55
  | .ppsEdge j ns => below j 2 && below ns 1000000000
  | .ppsLost j => below j 2
  | .todMessage _ ns => below ns 1000000000
  | .slewDone => true
  | .holdoverExpired => true
  | .todOutSend => true
  | .timNowRead w => w.wf
  | .setSec w => w.wf
  | .timTsRead w => w.wf
  | .hostLinkDown => true
  | .hostLinkUp width speed => below width 64 && below speed 16
  | .vfFlr n => below n 512
  | .hostRequest x => x.wf
  | .busTimeout w pg _ _ _ => w.wf && below pg 65536
  | .setPage box => below box 512
  | .setObj box => below box 512
  | .setWin box => below box 512
  | .proxyAccess w n off be _ => w.wf && below n 512 && below off 256 && below be 16
  | .boxPxPageWrite n v => below n 512 && word v
  | .boxNoteRead w n => w.wf && below n 512
  | .msixSend n v => below n 512 && below v 2048
  | .dmaGo c => below c 4
  | .dmaDone c _ => below c 4
  | .pmCopyGo n max => below n 512 && below max 1048576
  | .pmCopyDone n _ => below n 512
  | .fwmRing w n => w.wf && below n 512
  | .mailboxResponse n _ _ => below n 512
  | .attest n => below n 512
  | .getCert n => below n 512
  | .debugChallenge => true
  | .debugUnlock => true
  | .commitRollback _ => true
  | .revokeSlot => true
  | .updateEn _ => true
  | .bootInfo => true
  | .pushStart kind len => below kind 4 && below len 16777216
  | .pushData w v => w.wf && word v
  | .pushEnd => true
  | .pushAbort => true
  | .imageVerified kind _ _ => below kind 4
  | .fwmWdogKick w => w.wf
  | .enWdogExpiry i => below i 2
  | .smWdogExpiry _ => true
  | .devIdentity p => below p 4
  | .devStatus p => below p 4
  | .devReset p _ => below p 4
  | .laneSet p _ => below p 4
  | .laneGet p => below p 4
  | .ifSet p _ => below p 4
  | .loopback p => below p 4
  | .connAdd p _ => below p 4
  | .connModify p _ => below p 4
  | .connDelete p _ => below p 4
  | .connGet p => below p 4
  | .pmCurrent p => below p 4
  | .pmHistory p => below p 4
  | .pmThresh p => below p 4
  | .pgAdd p _ => below p 4
  | .pgDelete p _ => below p 4
  | .pgCommand p _ => below p 4
  | .pgStatus p => below p 4
  | .ohOpen p _ => below p 4
  | .ohClose p _ => below p 4
  | .ohSend p => below p 4
  | .ohReceive p => below p 4
  | .almList p => below p 4
  | .almMask p => below p 4
  | .timeGet p => below p 4
  | .timeSet p => below p 4
  | .personalityFrame x => below x.queue 8
  | .pmbinStatus => true
  | .pmbinGet => true
  | .housekeepingStatus => true
  | .reportWord link => below link 96
  | .wireBroken link => below link 96
  | .reportResend link => below link 96
  | .fltAgeScan => true
  | .fltAck v => word v
  | .fltInject v => word v
  | .logWrite _ => true
  | .keyClose cls source => below cls 32 && word source
  | .bankFail k => below k 2
  | .ghostClear w => w.wf
  | .playbillGo => true
  | .playbillDone => true
  | .digestRecompute j => below j 75
  | .resetNRelease strap => below strap 256
  | .callDone => true
  | .service w arg => w.wf && below arg 256
  | .rehearse w => w.wf
  | .audit w => w.wf
  | .enterSafe w => w.wf
  | .exitSafe w => w.wf
  | .enterDark w => w.wf
  | .drain w r => w.wf && below r 256
  | .offline w r => w.wf && below r 256
  | .resume w r => w.wf && below r 256
  | .reset w r => w.wf && below r 256
  | .resetClear w r => w.wf && below r 256
  | .regionResetDone r => below r 8
  | .update w r _ => w.wf && below r 256
  | .stackRetrain w k => w.wf && below k 256
  | .regionSram target => below target 256
  | .queueMem target => below target 256
  | .hbmAlign target => below target 256
  | .logBank target => below target 256
  | .fuse target => below target 256
  | .aonVote target => below target 256
  | .auditDone _ => true
  | .lifeCounterTick _ => true
  | .supplyUndervoltage rail _ => below rail 16
  | .supplyOvervoltage rail _ => below rail 16
  | .coreValidReturn _ => true
  | .thermalSample i _ _ => below i 32
  | .i2cAccess addr _ _ => below addr 128
  | .cdrLock n => below n 256
  | .resetNAssert => true
  | .aonPowerUp => true
  | .sdpLinkChange _ _ _ => true
  | .pushTimeout => true
  | .pauseIgnoreEnd c => below c 8
  | .stackTrainingDone k _ => below k 6
  | .fybryCodewordDecode m k levels => below m 96 && below k 8 && levelsOk levels
  | .configurationRequest x => x.wf
  | .jtagInstruction _ => true
  | .itemErrorDetected x => x.wf

end Sys2Proof
end

