-- ==== Sys2Proof/Tests/Slice0.lean ====
section
/-! SUPPORT. Tests: what WellFormed refuses, small steps, and states that meet the hypotheses of every statement. -/

set_option Elab.async false
set_option linter.all false
set_option maxRecDepth 100000

namespace Sys2Proof.Machine

open Sys2Proof

/-! ### What WellFormed refuses: an ill-formed term for each check -/

def badWho : Who := { master := .host, box := 512, proxy := false }
def badAcc : RegAcc := { who := { master := .sm, box := 0, proxy := false }, page := 65536, off := 0, be := 15 }
def okAcc : RegAcc := { badAcc with page := 1 }
def badWrite : RegWrite := { acc := okAcc, value := 0, temps := [], t16 := 0, bad := [] }
def badOtuc : OtucFrame := { fas := [256], mfas := 0, tti := 0, bip := 0, computed := 0, byte10 := 0, gcc0 := [], start := 0 }
def badOdu : OduFrame := { fasOk := true, mfas := 256, pos := [], psi := 0, msi := none, gcc1 := [], gcc2 := [], aps := [] }
def badReq : HostReq :=
  { fn := 512, bar := 0, offset := 0, op := .read, tag := 0, firstBe := 15, lastBe := 0, len := 1, held := false, poison := false, late := false
    temps := [], t16 := 0, bad := [] }
def badGmp : GmpRx := { jc := [0], words := [], serverOff := 0 }
def badStamp : StampGroup := { inFrame := true, mfas := 256, format := 0, exp2 := [] }
def badUse : HbmUse := { done := 16385, late := false, err := 0 }
def badSeg : SegDone := { payload := [256], mfas := 0, first := 0, lineOff := 0 }
theorem badWho_wf : badWho.wf = false := by decide
theorem badAcc_wf : badAcc.wf = false := by decide
theorem badLine_wf : (LaneRef.line 256).wf = false := by decide
theorem badCli_wf : (CliRef.line 256).wf = false := by decide
theorem badOtuc_wf : badOtuc.wf = false := by decide
theorem badOdu_wf : badOdu.wf = false := by decide
theorem badReq_wf : badReq.wf = false := by decide
theorem badGmp_wf : badGmp.wf = false := by decide
theorem badStamp_wf : badStamp.wf = false := by decide
theorem badUse_wf : badUse.wf = false := by decide
theorem badSeg_wf : badSeg.wf = false := by decide

theorem smoke_operands :
    Who.wf { master := .sm, box := 1, proxy := false } = false ∧ Who.wf { master := .sm, box := 0, proxy := true } = false ∧
    RegAcc.wf { okAcc with who := badWho } = false ∧ RegAcc.wf { okAcc with page := 65536 } = false ∧ RegAcc.wf { okAcc with off := 4096 } = false ∧
    RegAcc.wf { okAcc with be := 16 } = false ∧ RegWrite.wf { badWrite with value := 2 ^ 32 } = false ∧
    Upset.wf (.field 65536 0 0 0 0) = false ∧ Upset.wf (.field 0 1024 0 0 0) = false ∧ Upset.wf (.field 0 0 64 0 0) = false ∧
    Upset.wf (.field 0 0 0 3 0) = false ∧ Upset.wf (.entry 65536 0 0 0 0) = false ∧ Upset.wf (.entry 0 256 0 0 0) = false ∧
    Upset.wf (.entry 0 0 (2 ^ 24) 0 0) = false ∧ Upset.wf (.entry 0 0 0 3 0) = false ∧
    AdoptRef.wf (.odu 64 0 0) = false ∧ AdoptRef.wf (.odu 0 2 0) = false ∧ AdoptRef.wf (.odu 0 0 1024) = false ∧
    LaneRef.wf (.fybry 96 0) = false ∧ LaneRef.wf (.fybry 0 8) = false ∧
    CliRef.wf (.ctx 64 0 0) = false ∧ CliRef.wf (.ctx 0 2 0) = false ∧ CliRef.wf (.ctx 0 0 1024) = false := by
  decide

theorem smoke_frames (x : Seg) (f : OtucFrame) (o : OduFrame) (l : LayerOh) (r : HostReq) :
    Seg.wf { x with typ := 16 } = false ∧ Seg.wf { x with leg := 4 } = false ∧ Seg.wf { x with cls := 2 } = false ∧
    Seg.wf { x with flow := 65536 } = false ∧ Seg.wf { x with seq := 65536 } = false ∧ Seg.wf { x with stamp := 2 ^ 32 } = false ∧
    Seg.wf { x with snap := 65536 } = false ∧ Seg.wf { x with ccls := 2 } = false ∧ Seg.wf { x with lstate := 4 } = false ∧
    Seg.wf { x with rxFail := 16 } = false ∧ Seg.wf { x with credit := 65536 } = false ∧ Seg.wf { x with crc := 65536 } = false ∧
    OtucFrame.wf { f with fas := [256] } = false ∧ OtucFrame.wf { f with mfas := 256 } = false ∧ OtucFrame.wf { f with tti := 256 } = false ∧
    OtucFrame.wf { f with bip := 256 } = false ∧ OtucFrame.wf { f with computed := 256 } = false ∧
    OtucFrame.wf { f with byte10 := 256 } = false ∧ OtucFrame.wf { f with gcc0 := [256] } = false ∧
    LayerOh.wf { l with stat := 8 } = false ∧ LayerOh.wf { l with tti := 256 } = false ∧ LayerOh.wf { l with bip := 256 } = false ∧
    LayerOh.wf { l with bei := 16 } = false ∧
    OduFrame.wf { o with mfas := 256 } = false ∧ OduFrame.wf { o with psi := 256 } = false ∧
    OduFrame.wf { o with pos := [{ computed := 256, layers := [] }] } = false ∧
    OduFrame.wf { o with pos := [{ computed := 0, layers := [{ l with stat := 8 }] }] } = false ∧
    OduFrame.wf { o with gcc1 := [256] } = false ∧ OduFrame.wf { o with gcc2 := [256] } = false ∧ OduFrame.wf { o with aps := [256] } = false ∧
    OduFrame.wf { o with omfi := 256 } = false ∧ OduFrame.wf { o with opu := [256] } = false ∧
    HostReq.wf { r with fn := 512 } = false ∧ HostReq.wf { r with bar := 4 } = false ∧ HostReq.wf { r with firstBe := 16 } = false ∧
    HostReq.wf { r with lastBe := 16 } = false ∧ HostReq.wf { r with op := .write [2 ^ 32] } = false ∧
    CfgReq.wf (.vfEnable 512) = false ∧ CfgReq.wf (.read 512 0) = false ∧ CfgReq.wf (.read 0 4096) = false ∧ CfgReq.wf (.msix 512 true true) = false := by
  simp [Seg.wf, OtucFrame.wf, LayerOh.wf, OduFrame.wf, HostReq.wf, CfgReq.wf, below, octets, word]

theorem smoke_mapping (g : GmpRx) (x : StampGroup) (u : HbmUse) (d : SegDone) :
    GmpRx.wf { g with jc := [0] } = false ∧ GmpRx.wf { g with jc := [256, 0, 0, 0, 0, 0] } = false ∧ GmpRx.wf { g with words := [256] } = false ∧
    ampCopies [0] = false ∧ ampCopies [4, 0, 0] = false ∧ StampGroup.wf { x with mfas := 256 } = false ∧
    StampGroup.wf { x with format := 256 } = false ∧ StampGroup.wf { x with exp2 := [256] } = false ∧ HbmUse.wf { u with done := 16385 } = false ∧
    HbmUse.wf { u with err := 3 } = false ∧ SegDone.wf { d with payload := [256] } = false ∧ SegDone.wf { d with mfas := 256 } = false ∧
    SegDone.wf { d with lineOff := 65536 } = false := by
  simp [GmpRx.wf, ampCopies, StampGroup.wf, HbmUse.wf, SegDone.wf, below, octets]

theorem smoke_items :
    [ItemError.sramCe (2 ^ 32), .sramUe (2 ^ 32), .parity (2 ^ 32), .lane (.line 256), .datapath (2 ^ 32), .row (2 ^ 32), .selfTest 8].all
      (fun x => !x.wf) = true := by
  decide

theorem smoke_lists (x : SegRx) (g : CbbRx) (o : OduTx) (e : PersEnv) :
    [Instr.voteScrub [.field 65536 0 0 0 0], .deskewMeasure 0 [2048], .oduFrameSource 0 0 { o with computed := [256] }, .codewordDecode 0 { inst := 4, levels := [] } none,
      .codewordDecode 0 { inst := 0, levels := [4] } none, .prbsLock (.line 0) [4], .prbsLockLost (.line 0) [4],
      .otucTxFrame 0 { computed := [256], words := [] }, .otucTxFrame 0 { computed := [], words := [[1024]] },
      .segmentReceive 0 { x with use := badUse },
      .impBlock (.line 0) { arrive := List.replicate 67 true, read := false } none, .markerLock 0 0 { levels := [4], lag := 0 }, .ampDemuxPeriod 0 0 [4, 0, 0] [] 0,
      .fybryCodewordDecode 0 0 [4],
      .segmentReceive 0 { x with seg := { x.seg with typ := 16 } }, .cbbFrameReceive { g with start := 2 ^ 64 },
      .personalityFrame { e with queue := 8 }].all (fun c => !c.wf) = true := by
  simp [Instr.wf, Upset.wf, Seg.wf, LaneRef.wf, levelsOk, ampCopies, below, octets, badUse_wf]

theorem smoke_commands_1 (v1 : RegAcc) (v2 : List (Nat × Nat × Nat)) (v3 : Who) (v4 : AdoptRef) (v5 : CwRx) (v6 : Option LinePtp) (v7 : List Nat) (v8 : FlexoFrame) (v9 : OtucFrame) :
    [.registerWrite { badWrite with acc := badAcc }, .pageCtrlWrite badAcc 0, .pageCtrlWrite v1 (2 ^ 32), .pageOwnerWrite badAcc 0,
      .pageOwnerWrite v1 (2 ^ 32), .evtStatusRead badAcc, .evtAckWrite badAcc 0, .evtAckWrite v1 (2 ^ 32), .evtForceWrite badAcc 0,
      .evtForceWrite v1 (2 ^ 32), .loRead badAcc, .loWrite badAcc 0, .loWrite v1 (2 ^ 32), .hiWrite badAcc 0, .hiWrite v1 (2 ^ 32),
      .indAddrWrite badAcc 0, .indAddrWrite v1 (2 ^ 32), .indData3Write badAcc 0, .indData3Write v1 (2 ^ 32), .indData3Read badAcc,
      .cueGo badWho 0 v2, .cueGo v3 512 v2, .cueRevert badWho 0, .cueRevert v3 512, .cueImageCrc 512, .cueCheckEnd 512,
      .cueRowAdopt 512 v4, .cueRowAdopt 0 (.odu 64 0 0), .blockRestart 64 0, .blockRestart 0 32, .blockRestartRelease 1024,
      .blockRestartTimeout 1024, .adaptationDone 256, .llnTxFirWrite 256 0, .llnTxFirWrite 0 (2 ^ 32), .llnRxEqWrite 256 0,
      .llnRxEqWrite 0 (2 ^ 32), .trialStart 64 0, .trialDwellEnd 256, .codewordDecode 256 v5 v6, .fecSnap 256, .los (.line 256),
      .signalDetect (.line 256), .cdrUnlock 256, .cwLock 256, .cwUnlock 256 0, .deskewMeasure 256 v7, .prbsLock (.line 256) v7,
      .prbsLockLost (.line 256) v7, .prbsInject 256, .flexoFrame 1024 v8, .otucFrame 1024 v9, .otucFrame 0 badOtuc, .lofOn 1024,
      .lofOff 1024, .lomOn 1024].all (fun c : Instr => !c.wf) = true := by
  simp [Instr.wf, below, word, octets, List.all_cons, badWho_wf, badAcc_wf, badLine_wf, badCli_wf, badOtuc_wf, badOdu_wf,
    AdoptRef.wf, RegWrite.wf, badReq_wf, badGmp_wf, badStamp_wf, badUse_wf, badSeg_wf, CfgReq.wf, ItemError.wf]

theorem smoke_commands_2 (v3 : Who) (v6 : Option LinePtp) (v7 : List Nat) (v10 : OtucTx) (v11 : OduFrame) (v12 : Bool) (v13 : OduTx) (v14 : GmpRx) (v15 : Int) (v16 : ImpPeriod) :
    [.lomOff 1024, .dlomCnOn 1024, .dlomCnOff 1024, .bondEnter 1024, .otucTxFrame 1024 v10, .corruptFas 1024, .oduFrameSink 64 0 v11,
      .oduFrameSink 0 1024 v11, .oduFrameSink 0 0 badOdu, .dloflomOn 64 0 v12, .dloflomOn 0 1024 v12, .dloflomOff 64 0 v12,
      .dloflomOff 0 1024 v12, .oduFrameSource 64 0 v13, .oduFrameSource 0 1024 v13, .contextForcedAis 64 0 0, .contextForcedAis 0 2 0,
      .contextForcedAis 0 0 1024, .episodeChange 8, .aggregatedOff 8, .gmpMapPeriod 64 0 v12 v7, .gmpMapPeriod 0 1024 v12 v7,
      .gmpMapPeriod 0 0 v12 [256], .gmpDemapPeriod 64 0 v12 v14, .gmpDemapPeriod 0 1024 v12 v14, .gmpDemapPeriod 0 0 v12 badGmp,
      .ampJustify 64 0 v7, .ampJustify 0 1024 v7, .ampJustify 0 0 [256], .ampDemuxPeriod 64 0 v7 v7 v15,
      .ampDemuxPeriod 0 1024 v7 v7 v15, .ampDemuxPeriod 0 0 v7 [256] v15, .impBlock (.line 256) v16 v6, .crateOff (.line 256),
      .rateHold 64 0, .rateHold 0 1024, .rateHoldEnd 64 0, .rateHoldEnd 0 1024, .closOn (.line 256), .closOff (.line 256),
      .clfChange (.line 256) v12, .crfChange (.line 256) v12, .suspectHoldEnd (.line 256), .legStatusChange 24576 0,
      .legStatusChange 0 2, .holdOffExpiry 24576 0, .holdOffExpiry 0 2, .wtrExpiry 24576, .confirmationExpiry 24576,
      .bridgeChangeApply 8 0, .bridgeChangeApply 0 2048, .clr badWho 0, .clr v3 32768, .lo badWho 0, .lo v3 32768,
      .fs badWho 0].all (fun c : Instr => !c.wf) = true := by
  simp [Instr.wf, below, word, octets, List.all_cons, badWho_wf, badAcc_wf, badLine_wf, badCli_wf, badOtuc_wf, badOdu_wf,
    AdoptRef.wf, RegWrite.wf, badReq_wf, badGmp_wf, badStamp_wf, badUse_wf, badSeg_wf, CfgReq.wf, ItemError.wf]

theorem smoke_commands_3 (v3 : Who) (v12 : Bool) (v17 : StampGroup) (v18 : HbmUse) (v19 : Marker) (v20 : SegRx) (v21 : SegDone) (v22 : FailCause) :
    [.fs v3 32768, .ms badWho 0, .ms v3 32768, .msW badWho 0, .msW v3 32768, .exer badWho 0, .exer v3 32768, .setSel badWho 0,
      .setSel v3 32768, .setBridge badWho 0, .setBridge v3 32768, .setAps badWho 0, .setAps v3 32768, .setAll badWho 0,
      .setAll v3 32768, .ackSfp badWho 0, .ackSfp v3 32768, .prtNoteRead badWho, .apsMessageReceive 16384 0,
      .apsMessageReceive 0 (2 ^ 32), .dfopNr 16384, .stampInstance 64 0 v17, .stampInstance 0 1024 v17, .stampInstance 0 0 badStamp,
      .wingsGroupStart 4096 0 0, .wingsGroupStart 0 2 0, .wingsGroupStart 0 0 (2 ^ 32), .playoutAdvance 4096 v18,
      .playoutAdvance 0 badUse, .overRecover 4096, .hbmRetrainPc 6 v12, .stackFail 6 v12, .groupFallback 6, .hbmRestore 6,
      .ackFail 4096, .fybryAdaptationDone 96, .fylTxEqWrite 96 0 0, .fylTxEqWrite 0 8 0, .fylTxEqWrite 0 0 (2 ^ 32),
      .markerLock 96 0 v19, .markerLock 0 8 v19, .markerLockLost 96 0, .markerLockLost 0 8, .segmentReceive 96 v20, .segmentSlot 96,
      .segmentComplete 8 0 v21, .segmentComplete 0 4096 v21, .segmentComplete 0 0 badSeg, .reorderTimeout 8 0, .reorderTimeout 0 8192,
      .flowAbsent 8 0, .flowAbsent 0 8192, .linkFail 96 v22, .fylFail 96, .fylRestore 96,
      .ohqRdRead badWho 0].all (fun c : Instr => !c.wf) = true := by
  simp [Instr.wf, below, word, octets, List.all_cons, badWho_wf, badAcc_wf, badLine_wf, badCli_wf, badOtuc_wf, badOdu_wf,
    AdoptRef.wf, RegWrite.wf, badReq_wf, badGmp_wf, badStamp_wf, badUse_wf, badSeg_wf, CfgReq.wf, ItemError.wf]

theorem smoke_commands_4 (v3 : Who) (v12 : Bool) (v15 : Int) (v23 : Option Int) (v24 : List Bool) :
    [.ohqRdRead v3 8, .ohqWrWrite badWho 0 0, .ohqWrWrite v3 8 0, .ohqWrWrite v3 0 (2 ^ 32), .flush badWho 0 0 0, .flush v3 8 0 0,
      .flush v3 0 2 0, .flush v3 0 0 512, .flushApply 8 0 0, .flushApply 0 2 0, .flushApply 0 0 512, .dropRest badWho 0 0 0,
      .dropRest v3 8 0 0, .dropRest v3 0 2 0, .dropRest v3 0 0 512, .chkStart badWho 0, .chkStart v3 32, .chkDataWrite badWho 0 0,
      .chkDataWrite v3 32 0, .chkDataWrite v3 0 (2 ^ 32), .chkFinish badWho 0, .chkFinish v3 32, .chkAbort badWho 0, .chkAbort v3 32,
      .sdpFrameReceive [256], .sdpRxDescRead badWho, .sdpRxDataRead badWho, .sdpTxStart badWho 0 0, .sdpTxStart v3 8 0,
      .sdpTxStart v3 0 16384, .sdpTxAbort badWho, .sdpTxDataWrite badWho 0, .sdpTxDataWrite v3 (2 ^ 32), .pauseExpiry 8,
      .pauseBreak 8, .sdpStatHalfRead badWho, .cbbTxSend badWho 0 0 0, .cbbTxSend v3 256 0 0, .cbbTxSend v3 0 128 0,
      .cbbTxSend v3 0 0 512, .cbbTxAbort badWho, .darkWake 256, .refLost 55 v23, .refBack 55 v15 v15, .lockLost 55, .relock 55 v12,
      .reband 55 v3 v15, .reband 0 badWho v15, .rebandDone 55, .bandEdge 55 0, .ppsEdge 2 0, .ppsEdge 0 1000000000, .ppsLost 2,
      .todMessage v24 1000000000, .timNowRead badWho, .setSec badWho].all (fun c : Instr => !c.wf) = true := by
  simp [Instr.wf, below, word, octets, List.all_cons, badWho_wf, badAcc_wf, badLine_wf, badCli_wf, badOtuc_wf, badOdu_wf,
    AdoptRef.wf, RegWrite.wf, badReq_wf, badGmp_wf, badStamp_wf, badUse_wf, badSeg_wf, CfgReq.wf, ItemError.wf]

theorem smoke_commands_5 (v3 : Who) (v12 : Bool) (v25 : Option HostReq) (v26 : Option Nat) (v27 : TrustEnv) (v28 : PersEnv) (v29 : Option FlashImage) (v30 : CallTests) :
    [.timTsRead badWho, .hostLinkUp 64 0, .hostLinkUp 0 16, .vfFlr 512, .hostRequest badReq, .busTimeout badWho 0 v12 v12 v25,
      .busTimeout v3 65536 v12 v12 v25, .setPage 512, .setObj 512, .setWin 512, .proxyAccess badWho 0 0 0 v26,
      .proxyAccess v3 512 0 0 v26, .proxyAccess v3 0 256 0 v26, .proxyAccess v3 0 0 16 v26, .boxPxPageWrite 512 0,
      .boxPxPageWrite 0 (2 ^ 32), .boxNoteRead badWho 0, .boxNoteRead v3 512, .msixSend 512 0, .msixSend 0 2048, .dmaGo 4,
      .dmaDone 4 v26, .pmCopyGo 512 0, .pmCopyGo 0 1048576, .pmCopyDone 512 v12, .fwmRing badWho 0, .fwmRing v3 512,
      .mailboxResponse 512 v27 v28, .attest 512, .getCert 512, .pushStart 4 0, .pushStart 0 16777216, .pushData badWho 0,
      .pushData v3 (2 ^ 32), .imageVerified 4 v29 v30, .fwmWdogKick badWho, .enWdogExpiry 2, .devIdentity 4, .devStatus 4,
      .devReset 4 v28, .laneSet 4 v28, .laneGet 4, .ifSet 4 v28, .loopback 4, .connAdd 4 v28, .connModify 4 v28, .connDelete 4 v28,
      .connGet 4, .pmCurrent 4, .pmHistory 4, .pmThresh 4, .pgAdd 4 v28, .pgDelete 4 v28, .pgCommand 4 v28, .pgStatus 4,
      .ohOpen 4 v28].all (fun c : Instr => !c.wf) = true := by
  simp [Instr.wf, below, word, octets, List.all_cons, badWho_wf, badAcc_wf, badLine_wf, badCli_wf, badOtuc_wf, badOdu_wf,
    AdoptRef.wf, RegWrite.wf, badReq_wf, badGmp_wf, badStamp_wf, badUse_wf, badSeg_wf, CfgReq.wf, ItemError.wf]

theorem smoke_commands_6 (v3 : Who) (v7 : List Nat) (v12 : Bool) (v15 : Int) (v26 : Option Nat) (v28 : PersEnv) (v31 : List Int) (v32 : Rails) :
    [.ohClose 4 v28, .ohSend 4, .ohReceive 4, .almList 4, .almMask 4, .timeGet 4, .timeSet 4, .reportWord 96, .wireBroken 96,
      .reportResend 96, .fltAck (2 ^ 32), .fltInject (2 ^ 32), .keyClose 32 0, .keyClose 0 (2 ^ 32), .bankFail 2, .ghostClear badWho,
      .digestRecompute 75, .resetNRelease 256, .service badWho 0, .service v3 256, .rehearse badWho, .audit badWho, .enterSafe badWho,
      .exitSafe badWho, .enterDark badWho, .drain badWho 0, .drain v3 256, .offline badWho 0, .offline v3 256, .resume badWho 0,
      .resume v3 256, .reset badWho 0, .reset v3 256, .resetClear badWho 0, .resetClear v3 256, .regionResetDone 8,
      .update badWho 0 v31, .update v3 256 v31, .stackRetrain badWho 0, .stackRetrain v3 256, .regionSram 256, .queueMem 256,
      .hbmAlign 256, .logBank 256, .fuse 256, .aonVote 256, .supplyUndervoltage 16 v32, .supplyOvervoltage 16 v32,
      .thermalSample 32 v15 v32, .i2cAccess 128 v26 0, .cdrLock 256, .pauseIgnoreEnd 8, .stackTrainingDone 6 v12,
      .fybryCodewordDecode 96 0 v7, .fybryCodewordDecode 0 8 v7,
      .configurationRequest (.vfEnable 512)].all (fun c : Instr => !c.wf) = true := by
  simp [Instr.wf, below, word, octets, List.all_cons, badWho_wf, badAcc_wf, badLine_wf, badCli_wf, badOtuc_wf, badOdu_wf,
    AdoptRef.wf, RegWrite.wf, badReq_wf, badGmp_wf, badStamp_wf, badUse_wf, badSeg_wf, CfgReq.wf, ItemError.wf]

theorem smoke_commands_7 :
    [.itemErrorDetected (.sramCe (2 ^ 32))].all (fun c : Instr => !c.wf) = true := by
  simp [Instr.wf, below, word, octets, List.all_cons, badWho_wf, badAcc_wf, badLine_wf, badCli_wf, badOtuc_wf, badOdu_wf,
    AdoptRef.wf, RegWrite.wf, badReq_wf, badGmp_wf, badStamp_wf, badUse_wf, badSeg_wf, CfgReq.wf, ItemError.wf]

/-! ### Worked examples of the spec -/

/-- File 02, after R51: the OTU page of slice 9 of block 5 of region 2, which is device slice 345. -/
theorem test_page_otu : pgOtu 345 = 0x3511 ∧ 345 / 16 = 8 * 2 + 5 := by decide

/-- File 08, Table WNG-2: the stamp of count 1. -/
theorem test_stamp : (List.range 4).map (stampBytes 1) = [(0x10, 0x00), (0x00, 0x00), (0x00, 0x01), (0x00, 0x60)] := by decide

/-- File 07, the example of R256: bytes 0x0F 0x00 0x00 with alive counter 1 have the check value 0xF. -/
theorem test_aps_check : crcBits 4 0x3 0 (bitsMsb 28 0x0F00001) = 0xF := by decide

/-- File 10, CRC-32 of the string 123456789. -/
theorem test_crc32 : chkRes 32 0xFFFFFFFF true (crcBits 32 0x04C11DB7 0xFFFFFFFF (chkOrder true 9 (bitsMsb 72 0x313233343536373839))) =
    0xCBF43926 := by decide +kernel

/-- File 17, the examples after R572: line lane 72 on G50, G51, H50 and H51, Fybry lane 327 on AT22 and AU22. -/
theorem test_lane_balls : (lineBalls 72 true = (⟨7, 50⟩, ⟨7, 51⟩) ∧ lineBalls 72 false = (⟨8, 50⟩, ⟨8, 51⟩) ∧
    rowName 7 = "G" ∧ rowName 8 = "H") ∧ fybryBalls 327 false = (⟨34, 22⟩, ⟨35, 22⟩) ∧ rowName 34 = "AT" ∧ rowName 35 = "AU" := by
  decide +kernel

/-- The corner pins of the same example: CORE_REF_P on D1, PERST_N on C133, RESET_N on GA133. -/
theorem test_corner_balls : pinBall .nw (.pairP "CORE_REF" 0) = some ⟨4, 1⟩ ∧ pinBall .ne (.single "PERST_N" 0) = some ⟨3, 133⟩ ∧
    pinBall .se (.single "RESET_N" 0) = some ⟨134, 133⟩ ∧ rowName 134 = "GA" := by
  decide +kernel


/-! ### Register model (file 02) -/

/-- A state in NATIVE mode with every region active. -/
def wOn : State := (List.range 8).foldl (fun s r => s.wr pgMode (MODE_REGIONS_state r) rgnActive)
  (({ State.reset with dom := .run } : State).wr pgMode MODE_current modeNative)
/-- Commit an entry and bring it into effect. -/
def State.wRow (s : State) (pg : Nat) (b : Tab) (e : Nat) (l : List (TField × Nat)) : State :=
  (s.setEntry pg b e (l.foldl (fun v x => putBits v x.1.hi x.1.lo x.2) (b.resetEntry e))).adoptEntry pg b e
/-- Requesters. -/
def whoSm : Who := { master := .sm, box := 0, proxy := false }
def whoHost : Who := { master := .host, box := 0, proxy := false }
def accSm (pg off : Nat) : RegAcc := { who := whoSm, page := pg, off := off, be := 15 }
def accHost (pg off : Nat) : RegAcc := { who := whoHost, page := pg, off := off, be := 15 }
def wEvt : State := (wOn.ev (pgLln 3) 2).ev (pgLln 3) 5
def wInd : State := ((wOn.wr (rqPage (pgLln 3) .sm) IND_ADDR_table 1).wr (rqPage (pgLln 3) .sm) IND_ADDR_index 0).wr (rqPage (pgLln 3) .sm) (IND_DATA_data 0) 5
def wLock : State := (wInd.wr (pgBox 0) BOX_CUE_STATUS_state cueChecking).wr (pgBox 0) BOX_CUE_SCOPE_blocks 1
def wVec : State := ((wOn.wr (rqPage pgHst .sm) IND_ADDR_table 1).wr (rqPage pgHst .sm) IND_ADDR_index 3).wr (rqPage pgHst .sm) (IND_DATA_data 0) 0x8005
def wCue : State := (wInd.writeStaged whoHost (pgOtu 3) T_OTU_TTI_EXP 0 7).wr (pgBox 0) BOX_CUE_SCOPE_blocks 1
def wVote : State := wOn.wr pgHst HST_MSIX_HOLDOFF_us 0
def wCue1 : State := (wCue.wrb (pgBox 0) BOX_CUE_CTRL_check_en true)
def wCueGoing : State := match exec (.cueGo whoHost 0 []) wCue with | .next t => t | _ => wCue
def wCueCrc : State := match exec (.cueGo whoHost 0 []) (wCue1.wr (pgBox 0) BOX_CUE_EXPECT_value 1) with | .next t => t | _ => wCue
def wCueDry : State := wCueGoing.wrb (pgBox 0) BOX_CUE_CTRL_dry_run true
def wCuePend : State := match exec (.cueCheckEnd 0) wCueGoing with | .next t => t | _ => wCue
def wCueTwo : State := ({ wCuePend with cues := wCuePend.cues.set {} 0 { wCuePend.cues.get {} 0 with rows := (wCuePend.cues.get {} 0).rows ++ [(rowKey (pgOtu 128) T_OTU_TTI_EXP 0, true)] } } : State).wr pgMode (MODE_REGIONS_state 1) rgnReset

theorem wit_PageHeader_1 :
    wOn.dom = .run ∧ wOn.admitCode (accSm (pgOtu 5) 8).who (accSm (pgOtu 5) 8).page true = bsOk ∧ (accSm (pgOtu 5) 8).be % 16 = 15 := by
  decide +kernel

theorem wit_PageHeader_2 :
    wOn.dom = .run ∧ wOn.admitCode (accSm (pgOtu 5) 12).who (accSm (pgOtu 5) 12).page true = bsOk ∧ (accSm (pgOtu 5) 12).be % 16 = 15 ∧ (accSm (pgOtu
      5) 12).who.master = .sm ∧ pageFixed (accSm (pgOtu 5) 12).page = false := by
  decide +kernel

theorem wit_PageHeader_3 :
    wOn.dom = .run ∧ wOn.admitCode (accHost (pgOtu 5) 12).who (accHost (pgOtu 5) 12).page true = bsOk ∧ (accHost (pgOtu 5) 12).be % 16 = 15 ∧ (accHost
      (pgOtu 5) 12).who.master ≠ .sm := by
  decide +kernel

theorem wit_PageHeader_4 :
    wEvt.dom = .run ∧ wEvt.admitCode (accHost (pgLln 3) 16).who (accHost (pgLln 3) 16).page false = bsOk ∧ (accHost (pgLln 3) 16).be % 16 ≠ 0 := by
  decide +kernel

theorem wit_PageHeader_5 :
    wOn.dom = .run ∧ wOn.admitCode (accSm (pgOtu 5) 32).who (accSm (pgOtu 5) 32).page true = bsOk ∧ (accSm (pgOtu 5) 32).be % 16 = 15 ∧ 3 < 31 ∧ bit
      12 3 = true ∧ (pageRegion (accSm (pgOtu 5) 32).page).all wOn.regionSpeaks = true := by
  decide +kernel

theorem wit_RegisterAccess_1 :
    wOn.dom = .run ∧ wOn.admitCode ({ acc := { accSm (pgOtu 5) 0x1C with be := 7 }, value := 1, temps := [], t16 := 0, bad := [] } : RegWrite).acc.who
      ({ acc := { accSm (pgOtu 5) 0x1C with be := 7 }, value := 1, temps := [], t16 := 0, bad := [] } : RegWrite).acc.page true = bsOk ∧
      ({ acc := { accSm (pgOtu 5) 0x1C with be := 7 }, value := 1, temps := [], t16 := 0, bad := [] } : RegWrite).acc.be % 16 ≠ 15 := by
  decide +kernel

theorem wit_RegisterAccess_2 :
    wOn.dom = .run ∧ wOn.admitCode ({ acc := accSm (pgOtu 5) 0x1C, value := 2 ^ 32 + 1, temps := [], t16 := 0, bad := [] } : RegWrite).acc.who
      ({ acc := accSm (pgOtu 5) 0x1C, value := 2 ^ 32 + 1, temps := [], t16 := 0, bad := [] } : RegWrite).acc.page true = bsOk ∧
      ({ acc := accSm (pgOtu 5) 0x1C, value := 2 ^ 32 + 1, temps := [], t16 := 0, bad := [] } : RegWrite).acc.be % 16 = 15 ∧
      ({ acc := accSm (pgOtu 5) 0x1C, value := 2 ^ 32 + 1, temps := [], t16 := 0, bad := [] } : RegWrite).acc.off % 1024 = 0x01C := by
  decide +kernel

theorem wit_RegisterAccess_3 :
    wOn.dom = .run ∧ wOn.admitCode (accSm pgSdp 0x048).who (accSm pgSdp 0x048).page true = bsOk ∧ (accSm pgSdp 0x048).be % 16 = 15 ∧ pageInfo (accSm
      pgSdp 0x048).page = some (⟨.sdp, 0, none, none⟩ : PageInfo) ∧ (⟨.sdp, 0, none, none⟩ : PageInfo).typ ≠ .box ∧ (⟨.sdp, 0, none, none⟩ :
      PageInfo).typ ≠ .chk ∧ 0x040 ≤ regOff (accSm pgSdp 0x048).off ∧ pairWritable (accSm pgSdp 0x048).page (regOff (accSm pgSdp 0x048).off) = true := by
  decide +kernel

theorem wit_RegisterAccess_4 :
    wOn.dom = .run ∧ wOn.admitCode (accSm pgSdp 0x04C).who (accSm pgSdp 0x04C).page true = bsOk ∧ (accSm pgSdp 0x04C).be % 16 = 15 ∧ pageInfo (accSm
      pgSdp 0x04C).page = some (⟨.sdp, 0, none, none⟩ : PageInfo) ∧ (⟨.sdp, 0, none, none⟩ : PageInfo).typ ≠ .box ∧ (⟨.sdp, 0, none, none⟩ :
      PageInfo).typ ≠ .chk ∧ (⟨.sdp, 0, none, none⟩ : PageInfo).typ ≠ .log ∧ (⟨.sdp, 0, none, none⟩ : PageInfo).typ ≠ .wng ∧ 0x044 ≤ regOff (accSm
      pgSdp 0x04C).off ∧ pairWritable (accSm pgSdp 0x04C).page (regOff (accSm pgSdp 0x04C).off) = false ∧ pairFields (accSm pgSdp 0x04C).page (regOff
      (accSm pgSdp 0x04C).off - 4) = [SDP_MAC_addr] ∧ SDP_MAC_addr.acc = .rw ∧ SDP_MAC_addr.perMaster = false := by
  decide +kernel

theorem wit_RegisterAccess_5 :
    wOn.dom = .run ∧ wOn.admitCode (accSm pgLog 0x048).who (accSm pgLog 0x048).page false = bsOk ∧ (accSm pgLog 0x048).be % 16 ≠ 0 ∧ pageInfo (accSm
      pgLog 0x048).page = some (⟨.log, 0, none, none⟩ : PageInfo) ∧ (⟨.log, 0, none, none⟩ : PageInfo).typ ∉ [.ohq, .prt, .box, .sdp, .cbb, .tim] ∧
      0x040 ≤ regOff (accSm pgLog 0x048).off ∧ pairFields (accSm pgLog 0x048).page (regOff (accSm pgLog 0x048).off) = [LOG_MIRROR_BASE_base] ∧
      LOG_MIRROR_BASE_base.acc ≠ .rv := by
  decide +kernel

theorem wit_IndirectTables_1 :
    wCue.dom = .run ∧ wCue.admitCode (accSm (pgLln 3) 40).who (accSm (pgLln 3) 40).page true = bsOk ∧ (accSm (pgLln 3) 40).be % 16 = 15 ∧ (accSm
      (pgLln 3) 40).who.proxy = false ∧ (2 ^ 24) < 2 ^ 32 ∧ findTab (accSm (pgLln 3) 40).page ((2 ^ 24) / 2 ^ 24) = some T_LANE_CFG ∧ (2 ^ 24) % 2 ^
      24 < T_LANE_CFG.size ∧ T_LANE_CFG.voted = false := by
  decide +kernel

theorem wit_IndirectTables_2 :
    wCue.dom = .run ∧ wCue.admitCode (accSm (pgLln 3) 40).who (accSm (pgLln 3) 40).page true = bsOk ∧ (accSm (pgLln 3) 40).be % 16 = 15 ∧ (2 ^ 24 + 1)
      < 2 ^ 32 ∧ ((findTab (accSm (pgLln 3) 40).page ((2 ^ 24 + 1) / 2 ^ 24)).any fun b => decide ((2 ^ 24 + 1) % 2 ^ 24 < b.size)) = false := by
  decide +kernel

theorem wit_IndirectTables_3 :
    wInd.dom = .run ∧ wInd.admitCode (accSm (pgLln 3) 60).who (accSm (pgLln 3) 60).page true = bsOk ∧ (accSm (pgLln 3) 60).be % 16 = 15 ∧ (accSm
      (pgLln 3) 60).who.proxy = false ∧ 0 < 2 ^ 32 ∧ wInd.indTab (reqPage (accSm (pgLln 3) 60).page (accSm (pgLln 3) 60).who) (accSm (pgLln 3)
      60).page = some T_LANE_CFG ∧ 0 = wInd.rd (reqPage (accSm (pgLln 3) 60).page (accSm (pgLln 3) 60).who) IND_ADDR_index ∧ T_LANE_CFG.staged = true
      ∧ wInd.stagedLocked (accSm (pgLln 3) 60).page = false := by
  decide +kernel

theorem wit_IndirectTables_4 :
    wLock.dom = .run ∧ wLock.admitCode (accSm (pgLln 3) 60).who (accSm (pgLln 3) 60).page true = bsOk ∧ (accSm (pgLln 3) 60).be % 16 = 15 ∧ (accSm
      (pgLln 3) 60).who.proxy = false ∧ wLock.indTab (reqPage (accSm (pgLln 3) 60).page (accSm (pgLln 3) 60).who) (accSm (pgLln 3) 60).page = some
      T_LANE_CFG ∧ T_LANE_CFG.staged = true ∧ wLock.stagedLocked (accSm (pgLln 3) 60).page = true := by
  decide +kernel

theorem wit_IndirectTables_5 :
    wVec.dom = .run ∧ wVec.admitCode (accSm pgHst 60).who (accSm pgHst 60).page true = bsOk ∧ (accSm pgHst 60).be % 16 = 15 ∧ (accSm pgHst
      60).who.proxy = false ∧ 0 < 2 ^ 32 ∧ wVec.indTab (reqPage (accSm pgHst 60).page (accSm pgHst 60).who) (accSm pgHst 60).page = some T_HST_VECMAP
      ∧ 3 = wVec.rd (reqPage (accSm pgHst 60).page (accSm pgHst 60).who) IND_ADDR_index ∧ T_HST_VECMAP.staged = false ∧ T_HST_VECMAP.ro = false ∧
      smTable (accSm pgHst 60).page T_HST_VECMAP = false ∧ (accSm pgHst 60).page ≠ pgBxm ∧ (accSm pgHst 60).page ≠ pgSdp := by
  decide +kernel

theorem wit_IndirectTables_6 :
    wInd.dom = .run ∧ wInd.admitCode (accSm (pgLln 3) 60).who (accSm (pgLln 3) 60).page false = bsOk ∧ (accSm (pgLln 3) 60).be % 16 ≠ 0 ∧ wInd.rdb
      (reqPage (accSm (pgLln 3) 60).page (accSm (pgLln 3) 60).who) IND_CTRL_auto_inc = false := by
  decide +kernel

theorem wit_VoteScrub_1 :
    wVote.dom = .run ∧ wVote.votesAgree = true := by
  decide +kernel

theorem wit_VoteScrub_2 :
    wVote.dom = .run ∧ wVote.votesAgree = true ∧ (pageFields pgBxm).find? (fun g => decide (g.acc = .rv ∧ g.off = BXM_QOS_qos.off ∧ g.lo =
      BXM_QOS_qos.lo)) = some BXM_QOS_qos ∧ 1 < 3 ∧ wVote.rd pgBxm BXM_QOS_qos < 2 ^ BXM_QOS_qos.width ∧ 1 % 2 ^ BXM_QOS_qos.width ≠ wVote.rd pgBxm
      BXM_QOS_qos := by
  decide +kernel

theorem wit_VoteScrub_3 :
    wVote.dom = .run ∧ wVote.votesAgree = true ∧ (pageFields pgBxm).find? (fun g => decide (g.acc = .rv ∧ g.off = BXM_QOS_qos.off ∧ g.lo =
      BXM_QOS_qos.lo)) = some BXM_QOS_qos ∧ pgBxm ≠ pgMode ∧ 1 % 2 ^ BXM_QOS_qos.width ≠ wVote.rd pgBxm BXM_QOS_qos ∧ 2 % 2 ^ BXM_QOS_qos.width ≠
      wVote.rd pgBxm BXM_QOS_qos ∧ 1 % 2 ^ BXM_QOS_qos.width ≠ 2 % 2 ^ BXM_QOS_qos.width := by
  decide +kernel

theorem wit_Cues_1 :
    wCueGoing.dom = .run ∧ 0 < 512 ∧ wCueGoing.admitCode whoHost (pgBox 0) true = bsOk ∧ wCueGoing.cueRuns 0 = true := by
  decide +kernel

theorem wit_Cues_2 :
    (wCue.wr pgMode MODE_current modeCall).dom = .run ∧ 0 < 512 ∧ (wCue.wr pgMode MODE_current modeCall).admitCode whoHost (pgBox 0) true = bsOk ∧
      (wCue.wr pgMode MODE_current modeCall).cueRuns 0 = false ∧ (wCue.wr pgMode MODE_current modeCall).cueOthers 0 (requester whoHost) = false ∧
      (wCue.wr pgMode MODE_current modeCall).cueModeCheck 0 (requester whoHost) = some cueMode := by
  decide +kernel

theorem wit_Cues_3 :
    wCue.dom = .run ∧ 0 < 512 ∧ wCue.admitCode whoHost (pgBox 0) true = bsOk ∧ wCue.cueRuns 0 = false ∧ wCue.cueOthers 0 (requester whoHost) = false ∧
      wCue.cueModeCheck 0 (requester whoHost) = none ∧ wCue.cueEarly 0 (wCue.cueRows 0 (requester whoHost)) [] = none ∧ (wCue.rdb (pgBox 0)
      BOX_CUE_CTRL_check_en = true ∨ wCue.cueLate (wCue.cueRows 0 (requester whoHost)) = none) := by
  decide +kernel

theorem wit_Cues_4 :
    wCue.dom = .run ∧ 0 < 512 ∧ wCue.admitCode whoHost (pgBox 0) true = bsOk ∧ wCue.cueRuns 0 = false := by
  decide +kernel

theorem wit_Cues_5 :
    wCueCrc.dom = .run ∧ 0 < 512 ∧ wCueCrc.rd (pgBox 0) BOX_CUE_STATUS_state = cueChecking ∧ wCueCrc.cueTurnOf 0 = true ∧ wCueCrc.rd (pgChk chkImage)
      CHK_STATUS_holder = holdNone := by
  decide +kernel

theorem wit_Cues_6 :
    wCueDry.dom = .run ∧ 0 < 512 ∧ wCueDry.rd (pgBox 0) BOX_CUE_STATUS_state = cueChecking ∧ (wCueDry.cues.get {} 0).crc = false ∧
      wCueDry.cueModeCheck 0 (wCueDry.cues.get {} 0).who = none ∧ wCueDry.rdb (pgBox 0) BOX_CUE_CTRL_dry_run = true := by
  decide +kernel

theorem wit_Cues_7 :
    wCueGoing.dom = .run ∧ 0 < 512 ∧ wCueGoing.rd (pgBox 0) BOX_CUE_STATUS_state = cueChecking ∧ (wCueGoing.cues.get {} 0).crc = false ∧
      wCueGoing.cueModeCheck 0 (wCueGoing.cues.get {} 0).who = none ∧ wCueGoing.rdb (pgBox 0) BOX_CUE_CTRL_dry_run = false ∧ wCueGoing.cueRows 0
      (wCueGoing.cues.get {} 0).who ≠ [] := by
  decide +kernel

theorem wit_Cues_8 :
    wCuePend.dom = .run ∧ 0 < 512 ∧ wCuePend.rd (pgBox 0) BOX_CUE_STATUS_state = cuePending ∧ wCuePend.rowsAt 0 .free ≠ [] ∧ ((wCuePend.cues.get {}
      0).rows.filter (fun k => !(wCuePend.rowsAt 0 .free).contains k)) = [] := by
  decide +kernel

theorem wit_Cues_9 :
    wCueTwo.dom = .run ∧ 0 < 512 ∧ wCueTwo.rd (pgBox 0) BOX_CUE_STATUS_state = cuePending ∧ wCueTwo.rowsAt 0 .free ≠ [] ∧ ((wCueTwo.cues.get {}
      0).rows.filter (fun k => !(wCueTwo.rowsAt 0 .free).contains k)) ≠ [] := by
  decide +kernel

theorem wit_EventAcknowledge_1 :
    wEvt.dom = .run ∧ wEvt.admitCode (accHost (pgLln 3) 24).who (accHost (pgLln 3) 24).page true = bsOk ∧ (accHost (pgLln 3) 24).be % 16 = 15 ∧ 1 < 2
      ^ 32 ∧ ¬ (1 ≤ (1 + 2 ^ 32 - (wEvt.events.get {} (accHost (pgLln 3) 24).page).seq % 2 ^ 32) % 2 ^ 32 ∧ (1 + 2 ^ 32 - (wEvt.events.get {} (accHost
      (pgLln 3) 24).page).seq % 2 ^ 32) % 2 ^ 32 < 2 ^ 31) := by
  decide +kernel

theorem wit_EventAcknowledge_2 :
    wEvt.dom = .run ∧ wEvt.admitCode (accHost (pgLln 3) 24).who (accHost (pgLln 3) 24).page true = bsOk ∧ (accHost (pgLln 3) 24).be % 16 = 15 ∧ 9 < 2
      ^ 32 ∧ 1 ≤ (9 + 2 ^ 32 - (wEvt.events.get {} (accHost (pgLln 3) 24).page).seq % 2 ^ 32) % 2 ^ 32 ∧ (9 + 2 ^ 32 - (wEvt.events.get {} (accHost
      (pgLln 3) 24).page).seq % 2 ^ 32) % 2 ^ 32 < 2 ^ 31 := by
  decide +kernel

/-! ### Line lanes (file 03) -/

def wLane : State := ((wOn.wrb (pgLln 3) PAGE_CTRL_run true).wrb (pgLln 3) LLN_STATUS_sig_det true).wrb (pgLln 3) LLN_STATUS_cdr_lock true
def wFrozen : State := wLane.wrb (pgLln 3) LLN_ADAPT_CFG_freeze true
def wAdapt : State := (wLane.wrb (pgCsu 1) CSU_STATUS_locked true).wrb (pgCsu 1) CSU_STATUS_gated false
def wTrial : State := (((((wLane.wrb (pgLln 3) LLN_STATUS_trained true).wrb (pgLln 3) LLN_STATUS_cw_lock true).wrb (pgLln 3) LLN_ADAPT_CFG_trial_en true).wr
  (pgLln 3) LLN_ADAPT_CFG_kinds 15).wr (pgLln 3) LLN_ADAPT_CFG_floor 2).wr (pgLln 3) LLN_ADAPT_STATUS_margin 9
def wTrialOn : State := match exec (.trialStart 0 8) wTrial with | .next t => t | _ => wTrial
def wDwellGood : State := wTrialOn.setLane 3 (fun l => { l with dwellCw := 64 })
def wDwellBad : State := wTrialOn.setLane 3 (fun l => { l with dwellCw := 64, dwellSyms := 5 })
def wTrained : State := wLane.wrb (pgLln 3) LLN_STATUS_trained true
def wLocked : State := (wTrained.wrb (pgLln 3) LLN_STATUS_cw_lock true).setLane 3 (fun l => { l with instLock := 3 })
def wPrbs : State := wLane.setLane 3 (fun l => { l with chkEff := true, genEff := true })
def wPrbsOn : State := (wPrbs.wrb (pgLln 3) LLN_STATUS_prbs_lock true).setPrbs 3 (fun x => { x with chk := { reg := 127, locked := true } })
def wPattern : List Nat := (wPrbs.genLevels 3 0 80).1
/-- An OTUC1 on lane 0 of block 0 with codeword lock. -/
def wIf : State := ((((wOn.wRow (pgOtu 0) T_OTU_IF 0 [(OTU_IF.member, 1)]).wrb (pgLln 0) PAGE_CTRL_run true).wrb (pgLln 0) LLN_STATUS_cw_lock true).wrb (pgOtu 0) PAGE_CTRL_run true)

theorem wit_LaneEqualisers_1 :
    wLane.dom = .run ∧ (0 : Int) = clampInt (-16) 0 (toSigned 8 (wLane.rd (pgLln 3) LLN_TX_FIR0_c_m3)) ∧ (0 : Int) = clampInt 0 32 (toSigned 8
      (wLane.rd (pgLln 3) LLN_TX_FIR0_c_m2)) ∧ (0 : Int) = clampInt (-64) 0 (toSigned 8 (wLane.rd (pgLln 3) LLN_TX_FIR0_c_m1)) ∧ (-16 : Int) =
      clampInt (-48) 0 (toSigned 8 (getBits 0x0A0000F0 7 0)) ∧ (0 : Int) = clampInt 0 16 (toSigned 8 (getBits 0x0A0000F0 15 8)) ∧ 64 ≤ (128 - ((0 :
      Int).natAbs + (0 : Int).natAbs + (0 : Int).natAbs + (-16 : Int).natAbs + (0 : Int).natAbs) : Int) := by
  decide +kernel

theorem wit_LaneEqualisers_2 :
    (wLane.wr (pgLln 3) LLN_TX_FIR0_c_m1 0xC0).dom = .run ∧ (0 : Int) = clampInt (-16) 0 (toSigned 8 ((wLane.wr (pgLln 3) LLN_TX_FIR0_c_m1 0xC0).rd
      (pgLln 3) LLN_TX_FIR0_c_m3)) ∧ (0 : Int) = clampInt 0 32 (toSigned 8 ((wLane.wr (pgLln 3) LLN_TX_FIR0_c_m1 0xC0).rd (pgLln 3) LLN_TX_FIR0_c_m2))
      ∧ (-64 : Int) = clampInt (-64) 0 (toSigned 8 ((wLane.wr (pgLln 3) LLN_TX_FIR0_c_m1 0xC0).rd (pgLln 3) LLN_TX_FIR0_c_m1)) ∧ (-16 : Int) =
      clampInt (-48) 0 (toSigned 8 (getBits 0x0A0000F0 7 0)) ∧ (0 : Int) = clampInt 0 16 (toSigned 8 (getBits 0x0A0000F0 15 8)) ∧ (128 - ((0 :
      Int).natAbs + (0 : Int).natAbs + (-64 : Int).natAbs + (-16 : Int).natAbs + (0 : Int).natAbs) : Int) < 64 := by
  decide +kernel

theorem wit_LaneEqualisers_3 :
    wFrozen.dom = .run ∧ wFrozen.rdb (pgLln 3) LLN_ADAPT_CFG_freeze = true ∧ getBits 0x01213F05 14 8 ≤ 63 := by
  decide +kernel

theorem wit_LaneEqualisers_4 :
    wLane.dom = .run ∧ wLane.rdb (pgLln 3) LLN_ADAPT_CFG_freeze = false := by
  decide +kernel

theorem wit_LaneEqualisers_5 :
    wAdapt.dom = .run ∧ 3 < 256 ∧ wAdapt.adaptReady 3 = true ∧ wAdapt.regionSpeaks (laneRegion 3) = true := by
  decide +kernel

theorem wit_LaneTrials_1 :
    wTrial.dom = .run ∧ 0 < 64 ∧ (List.range 4).all (fun j => !wTrial.rdb (pgLln (4 * 0 + j)) LLN_ADAPT_STATUS_trial_active) = true ∧ ((List.range
      4).map (fun i => 4 * 0 + ((wTrial.blk.get {} 0).trialLast + 1 + i) % 4)).find? (fun k => wTrial.trialReady k (bit 8 (k % 4))) = some 3 := by
  decide +kernel

theorem wit_LaneTrials_2 :
    wDwellGood.dom = .run ∧ 3 < 256 ∧ wDwellGood.rdb (pgLln 3) LLN_ADAPT_STATUS_trial_active = true ∧ (wDwellGood.lane 3).dwellCw = 64 ∧ 16 *
      (wDwellGood.lane 3).dwellSyms ≤ (wDwellGood.lane 3).baseline := by
  decide +kernel

theorem wit_LaneTrials_3 :
    wDwellBad.dom = .run ∧ 3 < 256 ∧ wDwellBad.rdb (pgLln 3) LLN_ADAPT_STATUS_trial_active = true ∧ (wDwellBad.lane 3).dwellCw = 64 ∧ (wDwellBad.lane
      3).baseline < 16 * (wDwellBad.lane 3).dwellSyms := by
  decide +kernel

theorem wit_LaneLocks_1 :
    wLane.dom = .run ∧ 3 < 256 ∧ wLane.laneRuns 3 = true ∧ wLane.rdb (pgLln 3) LLN_STATUS_sig_det = true ∧ wLane.regionSpeaks (laneRegion 3) = true := by
  decide +kernel

theorem wit_LaneLocks_2 :
    wLane.dom = .run ∧ wLane.laneRuns 3 = true := by
  decide +kernel

theorem wit_LaneLocks_3 :
    wLane.dom = .run ∧ wLane.laneRuns 3 = true := by
  decide +kernel

theorem wit_LaneLocks_4 :
    wLane.dom = .run ∧ 3 < 256 ∧ wLane.laneRuns 3 = true ∧ wLane.rdb (pgLln 3) LLN_STATUS_cdr_lock = true ∧ wLane.regionSpeaks (laneRegion 3) = true := by
  decide +kernel

theorem wit_LaneLocks_5 :
    wTrained.dom = .run ∧ wTrained.laneRuns 3 = true ∧ wTrained.rdb (pgLln 3) LLN_STATUS_trained = true ∧ wTrained.rdb (pgLln 3) LLN_STATUS_cw_lock =
      false := by
  decide +kernel

theorem wit_LaneLocks_6 :
    wLocked.dom = .run ∧ 3 < 256 ∧ wLocked.laneRuns 3 = true ∧ 1 < 4 ∧ bit 2 1 = true ∧ bit (wLocked.lane 3).instLock 1 = true ∧ wLocked.regionSpeaks
      (laneRegion 3) = true := by
  decide +kernel

theorem wit_LaneLocks_7 :
    wIf.dom = .run ∧ 0 < 256 ∧ wIf.laneIf 0 = [0] ∧ wIf.laneRuns 0 = true ∧ wIf.rdb (pgLln 0) LLN_STATUS_cw_lock = true ∧ 1000 < 2048 ∧
      wIf.regionSpeaks (laneRegion 0) = true := by
  decide +kernel

theorem wit_LaneLocks_8 :
    wPrbs.dom = .run ∧ wPrbs.laneRuns 3 = true ∧ (wPrbs.lane 3).chkEff = true ∧ (wPrbs.laneCheck 3 wPattern).1.locked = true := by
  decide +kernel

theorem wit_LaneLocks_9 :
    wPrbsOn.dom = .run ∧ 3 < 256 ∧ wPrbsOn.laneRuns 3 = true ∧ (wPrbsOn.lane 3).chkEff = true ∧ (wPrbsOn.laneCheck 3 (List.replicate 80 0)).2.2 = true
      ∧ wPrbsOn.regionSpeaks (laneRegion 3) = true := by
  decide +kernel

theorem wit_LaneLocks_10 :
    wPrbs.dom = .run ∧ (wPrbs.lane 3).genEff = true := by
  decide +kernel

theorem wit_LaneCodewords_1 :
    wLocked.dom = .run ∧ wLocked.laneDecodes 3 = true ∧ (wLocked.cwWord 3 (⟨0, List.replicate 2720 0⟩ : CwRx)).length = 544 ∧ (rsDecode
      (wLocked.cwWord 3 (⟨0, List.replicate 2720 0⟩ : CwRx))).2 = ((rsDecode (wLocked.cwWord 3 (⟨0, List.replicate 2720 0⟩ : CwRx))).2) := by
  exact ⟨by decide +kernel, by decide +kernel, by decide +kernel, rfl⟩

theorem wit_LaneCodewords_2 :
    (wLocked.wr (fecLive 3) FEC_CW 7).dom = .run := by
  decide +kernel

/-! ### OTU framing (file 04) -/

/-- The OTUC1 of slice 0, running, with FlexO lock. -/
def wSlice : State := ((wIf.wrb (pgOtu 0) OTU_STATUS_flexo_lock true).setLane 0 (fun l => { l with instLock := 1 })).wrb (pgOtu 0) OTU_STATUS_member true
def wPre : State := (wSlice.wr (pgOtu 0) OTU_STATUS_fstate fPresync).setSlice 0 (fun x => { x with c := 1 })
def wSync : State := (((wSlice.wr (pgOtu 0) OTU_STATUS_fstate fSync).wrb (pgOtu 0) OTU_STATUS_in_frame true).wrb (pgOtu 0) OTU_STATUS_im true).setSlice 0
  (fun x => { x with mfExp := 7 })
def wSyncBad : State := wSync.setSlice 0 (fun x => { x with e := 4 })
def wMfBad : State := wSync.setSlice 0 (fun x => { x with mfF := 4 })
def wMfNear : State := (wSync.wrb (pgOtu 0) OTU_STATUS_im false).setSlice 0 (fun x => { x with mfFirst := false, mfExp := 9, mfC := 2 })
def wRuns : State := wSync.setSlice 0 (fun x => { x with ifRun := 10 ^ 9, imRun := 10 ^ 9, lomInt := 10 ^ 9, bondInt := 10 ^ 9, alRun := 10 ^ 9 })
def wAligned : State := wSync.setSlice 0 (fun x => { x with aligned := true })
def wMis : State := wRuns.setSlice 0 (fun x => { x with misaligned := true })
def wGid : State := (wSlice.wRow (pgOtu 0) T_OTU_IF 0 [(OTU_IF.member, 1), (OTU_IF.gid_chk, 1), (OTU_IF.gid, 5)]).setSlice 0 (fun x => { x with gidRun := 2 })
def frGood (mfas : Nat) : OtucFrame := { fas := [0xF6, 0xF6, 0xF6, 0x28, 0x28, 0x28], mfas := mfas, tti := 0, bip := 0, computed := 0, byte10 := 0, gcc0 := [0, 0], start := 0 }
def frBad (mfas : Nat) : OtucFrame := { frGood mfas with fas := [0, 0, 0, 0, 0, 0] }

theorem wit_OtuFrameAlignment_1 :
    wSlice.dom = .run ∧ 0 < 1024 ∧ wSlice.sliceRuns 0 = true ∧ wSlice.datapath (sliceRegion 0) = true ∧ wSlice.rd (pgOtu 0) OTU_STATUS_fstate =
      fSearch ∧ wSlice.sliceHeld 0 = false ∧ wSlice.sliceBlocked 0 = false ∧ fasCorrect (wSlice.ifF 0 OTU_IF.fas_bytes) (frGood 0).fas = true ∧ 2 ≤
      wSlice.ifF 0 OTU_IF.n_fas := by
  decide +kernel

theorem wit_OtuFrameAlignment_2 :
    (wSlice.wRow (pgOtu 0) T_OTU_IF 0 [(OTU_IF.member, 1), (OTU_IF.n_fas, 1)]).dom = .run ∧ 0 < 1024 ∧ (wSlice.wRow (pgOtu 0) T_OTU_IF 0
      [(OTU_IF.member, 1), (OTU_IF.n_fas, 1)]).sliceRuns 0 = true ∧ (wSlice.wRow (pgOtu 0) T_OTU_IF 0 [(OTU_IF.member, 1), (OTU_IF.n_fas,
      1)]).datapath (sliceRegion 0) = true ∧ (wSlice.wRow (pgOtu 0) T_OTU_IF 0 [(OTU_IF.member, 1), (OTU_IF.n_fas, 1)]).rd (pgOtu 0) OTU_STATUS_fstate
      = fSearch ∧ (wSlice.wRow (pgOtu 0) T_OTU_IF 0 [(OTU_IF.member, 1), (OTU_IF.n_fas, 1)]).sliceHeld 0 = false ∧ (wSlice.wRow (pgOtu 0) T_OTU_IF 0
      [(OTU_IF.member, 1), (OTU_IF.n_fas, 1)]).sliceBlocked 0 = false ∧ fasCorrect ((wSlice.wRow (pgOtu 0) T_OTU_IF 0 [(OTU_IF.member, 1),
      (OTU_IF.n_fas, 1)]).ifF 0 OTU_IF.fas_bytes) (frGood 0).fas = true ∧ (wSlice.wRow (pgOtu 0) T_OTU_IF 0 [(OTU_IF.member, 1), (OTU_IF.n_fas,
      1)]).ifF 0 OTU_IF.n_fas ≤ 1 ∧ (wSlice.wRow (pgOtu 0) T_OTU_IF 0 [(OTU_IF.member, 1), (OTU_IF.n_fas, 1)]).regionSpeaks (sliceRegion 0) = true := by
  decide +kernel

theorem wit_OtuFrameAlignment_3 :
    wSlice.dom = .run ∧ 0 < 1024 ∧ wSlice.sliceRuns 0 = true ∧ wSlice.datapath (sliceRegion 0) = true ∧ wSlice.rd (pgOtu 0) OTU_STATUS_fstate =
      fSearch ∧ fasCorrect (wSlice.ifF 0 OTU_IF.fas_bytes) (frBad 0).fas = false := by
  decide +kernel

theorem wit_OtuFrameAlignment_4 :
    wPre.dom = .run ∧ 0 < 1024 ∧ wPre.sliceRuns 0 = true ∧ wPre.datapath (sliceRegion 0) = true ∧ wPre.rd (pgOtu 0) OTU_STATUS_fstate = fPresync ∧
      fasCorrect (wPre.ifF 0 OTU_IF.fas_bytes) (frGood 0).fas = true ∧ wPre.ifF 0 OTU_IF.n_fas ≤ (wPre.slice 0).c + 1 := by
  decide +kernel

theorem wit_OtuFrameAlignment_5 :
    wPre.dom = .run ∧ 0 < 1024 ∧ wPre.sliceRuns 0 = true ∧ wPre.datapath (sliceRegion 0) = true ∧ wPre.rd (pgOtu 0) OTU_STATUS_fstate = fPresync ∧
      fasCorrect (wPre.ifF 0 OTU_IF.fas_bytes) (frBad 0).fas = false := by
  decide +kernel

theorem wit_OtuFrameAlignment_6 :
    wSyncBad.dom = .run ∧ 0 < 1024 ∧ wSyncBad.sliceRuns 0 = true ∧ wSyncBad.datapath (sliceRegion 0) = true ∧ wSyncBad.rd (pgOtu 0) OTU_STATUS_fstate
      = fSync ∧ fasCorrect (wSyncBad.ifF 0 OTU_IF.fas_bytes) (frBad 0).fas = false ∧ wSyncBad.ifF 0 OTU_IF.m_fas ≤ (wSyncBad.slice 0).e + 1 := by
  decide +kernel

theorem wit_OtuFrameAlignment_7 :
    wSync.dom = .run ∧ 0 < 1024 ∧ wSync.sliceRuns 0 = true ∧ wSync.datapath (sliceRegion 0) = true ∧ wSync.rd (pgOtu 0) OTU_STATUS_fstate = fSync ∧
      fasCorrect (wSync.ifF 0 OTU_IF.fas_bytes) (frGood 7).fas = true ∧ wSync.rdb (pgOtu 0) OTU_STATUS_im = true ∧ (frGood 7).mfas = (wSync.slice
      0).mfExp ∧ 0 = bipViolations (wSync.point (secPoint 0)).bips [(frGood 7).bip] := by
  decide +kernel

theorem wit_OtuFrameAlignment_8 :
    wMfBad.dom = .run ∧ 0 < 1024 ∧ wMfBad.sliceRuns 0 = true ∧ wMfBad.datapath (sliceRegion 0) = true ∧ wMfBad.rd (pgOtu 0) OTU_STATUS_fstate = fSync
      ∧ fasCorrect (wMfBad.ifF 0 OTU_IF.fas_bytes) (frGood 8).fas = true ∧ wMfBad.rdb (pgOtu 0) OTU_STATUS_im = true ∧ (frGood 8).mfas ≠ (wMfBad.slice
      0).mfExp ∧ wMfBad.ifF 0 OTU_IF.m_mf ≤ (wMfBad.slice 0).mfF + 1 := by
  decide +kernel

theorem wit_OtuFrameAlignment_9 :
    wMfNear.dom = .run ∧ 0 < 1024 ∧ wMfNear.sliceRuns 0 = true ∧ wMfNear.datapath (sliceRegion 0) = true ∧ wMfNear.rd (pgOtu 0) OTU_STATUS_fstate =
      fSync ∧ fasCorrect (wMfNear.ifF 0 OTU_IF.fas_bytes) (frGood 9).fas = true ∧ wMfNear.rdb (pgOtu 0) OTU_STATUS_im = false ∧ (wMfNear.slice
      0).mfFirst = false ∧ (frGood 9).mfas = (wMfNear.slice 0).mfExp ∧ wMfNear.ifF 0 OTU_IF.n_mf ≤ (wMfNear.slice 0).mfC + 1 := by
  decide +kernel

theorem wit_OtuIntegrators_1 :
    (wSlice.wr (pgOtu 0) OTU_LOF_INT_dp_cycles (10 ^ 9)).dom = .run ∧ 0 < 1024 ∧ (wSlice.wr (pgOtu 0) OTU_LOF_INT_dp_cycles (10 ^ 9)).sliceRuns 0 =
      true ∧ ((wSlice.wr (pgOtu 0) OTU_LOF_INT_dp_cycles (10 ^ 9)).slice 0).chgAt ≠ (wSlice.wr (pgOtu 0) OTU_LOF_INT_dp_cycles (10 ^ 9)).dpCycle + 1 ∧
      (wSlice.wr (pgOtu 0) OTU_LOF_INT_dp_cycles (10 ^ 9)).rdb (pgOtu 0) OTU_STATUS_in_frame = false ∧ intEnd ((wSlice.wr (pgOtu 0)
      OTU_LOF_INT_dp_cycles (10 ^ 9)).ifF 0 OTU_IF.lof_ms) ≤ (wSlice.wr (pgOtu 0) OTU_LOF_INT_dp_cycles (10 ^ 9)).rd (pgOtu 0) OTU_LOF_INT_dp_cycles +
      1 ∧ (wSlice.wr (pgOtu 0) OTU_LOF_INT_dp_cycles (10 ^ 9)).rdb (pgOtu 0) OTU_STATUS_dlof = false ∧ (wSlice.wr (pgOtu 0) OTU_LOF_INT_dp_cycles (10
      ^ 9)).regionSpeaks (sliceRegion 0) = true := by
  decide +kernel

theorem wit_OtuIntegrators_2 :
    (wRuns.wrb (pgOtu 0) OTU_STATUS_dlof true).dom = .run ∧ 0 < 1024 ∧ (wRuns.wrb (pgOtu 0) OTU_STATUS_dlof true).sliceRuns 0 = true ∧ ((wRuns.wrb
      (pgOtu 0) OTU_STATUS_dlof true).slice 0).chgAt ≠ (wRuns.wrb (pgOtu 0) OTU_STATUS_dlof true).dpCycle + 1 ∧ (wRuns.wrb (pgOtu 0) OTU_STATUS_dlof
      true).rdb (pgOtu 0) OTU_STATUS_in_frame = true ∧ intEnd ((wRuns.wrb (pgOtu 0) OTU_STATUS_dlof true).ifF 0 OTU_IF.lof_ms) ≤ ((wRuns.wrb (pgOtu 0)
      OTU_STATUS_dlof true).slice 0).ifRun + 1 ∧ (wRuns.wrb (pgOtu 0) OTU_STATUS_dlof true).rdb (pgOtu 0) OTU_STATUS_dlof = true ∧ (wRuns.wrb (pgOtu
      0) OTU_STATUS_dlof true).regionSpeaks (sliceRegion 0) = true := by
  decide +kernel

theorem wit_OtuIntegrators_3 :
    (wRuns.wrb (pgOtu 0) OTU_STATUS_im false).dom = .run ∧ 0 < 1024 ∧ (wRuns.wrb (pgOtu 0) OTU_STATUS_im false).sliceRuns 0 = true ∧ (wRuns.wrb (pgOtu
      0) OTU_STATUS_im false).rdb (pgOtu 0) OTU_STATUS_in_frame = true ∧ (wRuns.wrb (pgOtu 0) OTU_STATUS_im false).rdb (pgOtu 0) OTU_STATUS_im = false
      ∧ ((wRuns.wrb (pgOtu 0) OTU_STATUS_im false).slice 0).chgAt ≠ (wRuns.wrb (pgOtu 0) OTU_STATUS_im false).dpCycle + 1 ∧ intEnd ((wRuns.wrb (pgOtu
      0) OTU_STATUS_im false).ifF 0 OTU_IF.lom_ms) ≤ ((wRuns.wrb (pgOtu 0) OTU_STATUS_im false).slice 0).lomInt + 1 ∧ (wRuns.wrb (pgOtu 0)
      OTU_STATUS_im false).rdb (pgOtu 0) OTU_STATUS_dlom = false ∧ (wRuns.wrb (pgOtu 0) OTU_STATUS_im false).regionSpeaks (sliceRegion 0) = true := by
  decide +kernel

theorem wit_OtuIntegrators_4 :
    (wRuns.wrb (pgOtu 0) OTU_STATUS_dlom true).dom = .run ∧ 0 < 1024 ∧ (wRuns.wrb (pgOtu 0) OTU_STATUS_dlom true).sliceRuns 0 = true ∧ (wRuns.wrb
      (pgOtu 0) OTU_STATUS_dlom true).rdb (pgOtu 0) OTU_STATUS_im = true ∧ ((wRuns.wrb (pgOtu 0) OTU_STATUS_dlom true).slice 0).chgAt ≠ (wRuns.wrb
      (pgOtu 0) OTU_STATUS_dlom true).dpCycle + 1 ∧ intEnd ((wRuns.wrb (pgOtu 0) OTU_STATUS_dlom true).ifF 0 OTU_IF.lom_ms) ≤ ((wRuns.wrb (pgOtu 0)
      OTU_STATUS_dlom true).slice 0).imRun + 1 ∧ (wRuns.wrb (pgOtu 0) OTU_STATUS_dlom true).rdb (pgOtu 0) OTU_STATUS_dlom = true ∧ (wRuns.wrb (pgOtu
      0) OTU_STATUS_dlom true).regionSpeaks (sliceRegion 0) = true := by
  decide +kernel

theorem wit_OtuIntegrators_5 :
    wMis.dom = .run ∧ 0 < 1024 ∧ wMis.sliceRuns 0 = true ∧ wMis.sliceMember 0 = true ∧ wMis.sliceLead 0 = 0 ∧ (wMis.slice 0).misaligned = true ∧
      (wMis.slice 0).chgAt ≠ wMis.dpCycle + 1 ∧ intEnd (wMis.ifF 0 OTU_IF.lom_ms) ≤ (wMis.slice 0).bondInt + 1 ∧ wMis.rdb (pgOtu 0) OTU_STATUS_dlom_cn
      = false ∧ wMis.regionSpeaks (sliceRegion 0) = true := by
  decide +kernel

theorem wit_OtuIntegrators_6 :
    (wRuns.wrb (pgOtu 0) OTU_STATUS_dlom_cn true).dom = .run ∧ 0 < 1024 ∧ (wRuns.wrb (pgOtu 0) OTU_STATUS_dlom_cn true).sliceRuns 0 = true ∧
      (wRuns.wrb (pgOtu 0) OTU_STATUS_dlom_cn true).sliceMember 0 = true ∧ (wRuns.wrb (pgOtu 0) OTU_STATUS_dlom_cn true).sliceLead 0 = 0 ∧ ((wRuns.wrb
      (pgOtu 0) OTU_STATUS_dlom_cn true).slice 0).misaligned = false ∧ ((wRuns.wrb (pgOtu 0) OTU_STATUS_dlom_cn true).slice 0).chgAt ≠ (wRuns.wrb
      (pgOtu 0) OTU_STATUS_dlom_cn true).dpCycle + 1 ∧ intEnd ((wRuns.wrb (pgOtu 0) OTU_STATUS_dlom_cn true).ifF 0 OTU_IF.lom_ms) ≤ ((wRuns.wrb (pgOtu
      0) OTU_STATUS_dlom_cn true).slice 0).alRun + 1 ∧ (wRuns.wrb (pgOtu 0) OTU_STATUS_dlom_cn true).rdb (pgOtu 0) OTU_STATUS_dlom_cn = true ∧
      (wRuns.wrb (pgOtu 0) OTU_STATUS_dlom_cn true).regionSpeaks (sliceRegion 0) = true := by
  decide +kernel

theorem wit_OtuIntegrators_7 :
    wAligned.dom = .run ∧ 0 < 1024 ∧ wAligned.sliceRuns 0 = true ∧ wAligned.sliceMember 0 = true ∧ wAligned.rdb (pgOtu 0) OTU_STATUS_im = true ∧
      (wAligned.slice 0).aligned = true ∧ wAligned.rdb (pgOtu 0) OTU_STATUS_bonded = false := by
  decide +kernel

theorem wit_OtuFlexoAndTransmit_1 :
    wGid.dom = .run ∧ 0 = (wGid.findInst 0 ({ omfi := true, pid := 1, gid := 9, rpf := false } : FlexoFrame)).streamSlice 0 ∧ 0 < 1024 ∧
      wGid.sliceRuns 0 = true ∧ wGid.datapath (sliceRegion 0) = true ∧ true = (({ omfi := true, pid := 1, gid := 9, rpf := false } : FlexoFrame).omfi
      && bit (wGid.lane (sliceLane 0)).instLock (0 % 4)) := by
  decide +kernel

theorem wit_OtuFlexoAndTransmit_2 :
    wSync.dom = .run ∧ 0 < 1024 ∧ wSync.sliceMember 0 = true ∧ wSync.sliceLead 0 = 0 ∧ wSync.region (sliceRegion 0) ≠ rgnReset ∧ wSync.mode ≠ modeCall
      ∧ wSync.mode ≠ modeDark ∧ wSync.otucMembers 0 = [0] ∧ wSync.rdb (pgOtu 0) PAGE_CTRL_run = true ∧ (wSync.gccOut 0).1 = ([[0, 0]]) := by
  decide +kernel

theorem wit_OtuFlexoAndTransmit_3 :
    wSync.dom = .run ∧ 0 < 1024 ∧ wSync.sliceMember 0 = true ∧ wSync.sliceLead 0 = 0 ∧ wSync.region (sliceRegion 0) ≠ rgnReset ∧ wSync.mode ≠ modeCall
      ∧ wSync.mode ≠ modeDark ∧ (wSync.otucMembers 0).any (fun d => wSync.rdb (pgOtu d) PAGE_CTRL_run) = true := by
  decide +kernel

theorem wit_OtuFlexoAndTransmit_4 :
    (wSync.wrb (pgOtu 0) PAGE_CTRL_run false).dom = .run ∧ 0 < 1024 ∧ (wSync.wrb (pgOtu 0) PAGE_CTRL_run false).sliceMember 0 = true ∧ (wSync.wrb
      (pgOtu 0) PAGE_CTRL_run false).sliceLead 0 = 0 ∧ (wSync.wrb (pgOtu 0) PAGE_CTRL_run false).region (sliceRegion 0) ≠ rgnReset ∧ (wSync.wrb (pgOtu
      0) PAGE_CTRL_run false).mode ≠ modeCall ∧ (wSync.wrb (pgOtu 0) PAGE_CTRL_run false).mode ≠ modeDark ∧ (wSync.wrb (pgOtu 0) PAGE_CTRL_run
      false).otucMembers 0 = [0] ∧ (wSync.wrb (pgOtu 0) PAGE_CTRL_run false).rdb (pgOtu 0) PAGE_CTRL_run = false := by
  decide +kernel

theorem wit_OtuFlexoAndTransmit_5 :
    wSync.dom = .run := by
  decide +kernel

/-! ### ODU layer (file 05) -/

/-- An ODUC1 context on the OTUC1 of slice 0 (slot 0, monitored PM point), an ODU4 context in its tributary slots (slot 1) and their egress contexts. -/
def wCtx : State := ((((wSync.wrb (pgOtu 0) OTU_STATUS_bonded true).wRow (pgOdi 0) T_CTX 0 [(CTX.valid, 1), (CTX.odu_type, 8), (CTX.mp_mode, 2)]).wRow
  (pgOdi 0) T_CTX 1 [(CTX.valid, 1), (CTX.ctx, 1), (CTX.odu_type, 5), (CTX.stage, 1), (CTX.n_ts, 20)]).wRow
  (pgOde 0) T_CTX 0 [(CTX.valid, 1), (CTX.odu_type, 8)]).wRow (pgOde 0) T_CTX 1 [(CTX.valid, 1), (CTX.ctx, 1), (CTX.odu_type, 5), (CTX.stage, 1), (CTX.n_ts, 20), (CTX.force_lck, 1)]
def wFill : State := wCtx.setCtx 0 0 0 (fun c => { c with fill := true })
def wStat : State := wCtx.setPoint 0 (fun p => { p with stats := [{ rAis := 2 }] })
def wLom : State := wCtx.tputb (pgMpt 0) T_MP_STATUS 8 MP_STATUS.dloflom true
def wLomIn : State := wLom.setCtx 0 0 1 (fun c => { c with fst := 2, mfIm := true, lo := { n := 10 ^ 7, ok := 10 ^ 7 } })
def wLomOut : State := wCtx.setCtx 0 0 1 (fun c => { c with lo := { n := 10 ^ 7 } })
def frOdu (stat : Nat) : OduFrame := { fasOk := true, mfas := 3, pos := [⟨0, [⟨stat, 0, 0, 0, false⟩]⟩], psi := 0, msi := none, gcc1 := [0, 0], gcc2 := [0, 0], aps := [0, 0, 0, 0] }
def txOdu : OduTx := { rx := none, exp := (0, 0), stamped := false, computed := [0] }
def wForced : State := { wCtx with blk := wCtx.blk.upd {} 0 (fun b => { b with forcedLeads := [0] }) }
def chgOn : EpiChange := { stamp := 0, point := false, src := 0, kind := 1, on := true }
def wEpi : State := { wOn with epi := wOn.epi.upd {} 0 (fun x => { x with queue := [chgOn] }) }
def wEpiOff : State := { (wOn.epiOpen 0 chgOn {} false) with epi := wOn.epi.upd {} 0 (fun x => { x with queue := [{ chgOn with on := false }] }) }
def wAgg : State := wOn.wrb (pgEpi 0) EPI_STATUS_aggregated true
def wPms : State := { wOn with pmPend := [{ sec := 5, quality := 0, count := 0, stepped := false, resetRegions := [], recs := [] }] }

theorem wit_BlockRestarts_1 :
    wCtx.dom = .run ∧ 0 < 64 ∧ wCtx.datapath (0 / 8) = true := by
  decide +kernel

theorem wit_BlockRestarts_2 :
    wForced.dom = .run ∧ (wForced.blk.get {} (0 / 16)).forcedLeads.contains 0 = true ∧ (wForced.runningMembers 0).all (fun d => wForced.rdb (pgOtu d)
      OTU_STATUS_in_frame) = true := by
  decide +kernel

theorem wit_BlockRestarts_3 :
    (wForced.wrb (pgOtu 0) OTU_STATUS_in_frame false).dom = .run ∧ ((wForced.wrb (pgOtu 0) OTU_STATUS_in_frame false).blk.get {} (0 /
      16)).forcedLeads.contains 0 = true := by
  decide +kernel

theorem wit_OduContexts_1 :
    wStat.dom = .run ∧ 0 < 64 ∧ wStat.ctxB 0 0 0 CTX.valid = true ∧ wStat.datapath (0 / 8) = true ∧ wStat.ctxF 0 0 0 CTX.stage = 0 ∧ (wStat.ctx 0 0
      0).fill = false ∧ wStat.ctxPoints 0 0 0 = [(0, 0, 0, 2)] ∧ (frOdu 7).pos = [(⟨0, [⟨7, 0, 0, 0, false⟩]⟩ : OduPos)] ∧ ({ rAis := 2 } : Stat) =
      (wStat.point 0).stats.getD 0 {} := by
  decide +kernel

theorem wit_OduContexts_2 :
    wFill.dom = .run ∧ 0 < 64 ∧ wFill.ctxB 0 0 0 CTX.valid = true ∧ wFill.datapath (0 / 8) = true ∧ (wFill.ctx 0 0 0).fill = true ∧ wFill.ctxPoints 0
      0 0 = [(0, 0, 0, 2)] ∧ wFill.pointSilent 0 0 = false := by
  decide +kernel

theorem wit_OduContexts_3 :
    wLomOut.dom = .run ∧ 0 < 64 ∧ wLomOut.regionSpeaks (0 / 8) = true ∧ wLomOut.ctxB 0 0 1 CTX.valid = true ∧ wLomOut.ctxF 0 0 1 CTX.stage ≠ 0 ∧
      (wLomOut.ctx 0 0 1).fill = false ∧ (((wLomOut.ctx 0 0 1).mfIm = false ∨ (wLomOut.ctx 0 0 1).fst ≠ 2)) ∧ ctxIntEnd ≤ (wLomOut.ctx 0 0 1).lo.n + 1
      ∧ wLomOut.mpBit 0 (wLomOut.pmOf 0 0 1).2 MP_STATUS.dloflom = false := by
  decide +kernel

theorem wit_OduContexts_4 :
    wLomIn.dom = .run ∧ 0 < 64 ∧ wLomIn.regionSpeaks (0 / 8) = true ∧ wLomIn.ctxB 0 0 1 CTX.valid = true ∧ wLomIn.ctxF 0 0 1 CTX.stage ≠ 0 ∧
      (wLomIn.ctx 0 0 1).fill = false ∧ (wLomIn.ctx 0 0 1).fst = 2 ∧ (wLomIn.ctx 0 0 1).mfIm = true ∧ ctxIntEnd ≤ (wLomIn.ctx 0 0 1).lo.ok + 1 ∧
      wLomIn.mpBit 0 (wLomIn.pmOf 0 0 1).2 MP_STATUS.dloflom = true := by
  decide +kernel

theorem wit_OduContexts_5 :
    wCtx.dom = .run ∧ 0 < 64 ∧ wCtx.ctxB 0 1 1 CTX.valid = true ∧ wCtx.datapath (0 / 8) = true ∧ wCtx.forcedKind 0 1 ≠ 0 := by
  decide +kernel

theorem wit_OduContexts_6 :
    wCtx.dom = .run ∧ 0 < 64 ∧ wCtx.regionSpeaks (0 / 8) = true ∧ wCtx.ctxB 0 0 1 CTX.valid = true ∧ wCtx.ctxStatusB 0 0 1 CTX_STATUS.forced = false := by
  decide +kernel

theorem wit_SecondsAndEpisodes_1 :
    wOn.dom = .run ∧ wOn.tim.setSec = none ∧ wOn.tim.stepDue = none := by
  decide +kernel

theorem wit_SecondsAndEpisodes_2 :
    wPms.dom = .run ∧ wPms.pmPend = ({ sec := 5, quality := 0, count := 0, stepped := false, resetRegions := [], recs := [] } : PmFrame) :: ([] : List
      PmFrame) := by
  decide +kernel

theorem wit_SecondsAndEpisodes_3 :
    wEpi.dom = .run ∧ 0 < 8 ∧ wEpi.regionSpeaks 0 = true ∧ (wEpi.epi.get {} 0).queue = chgOn :: ([] : List EpiChange) ∧ chgOn.on = true ∧ wEpi.epiFind
      0 chgOn = none ∧ (wEpi.epi.get {} 0).loose.any (fun y => decide (epiKey y = epiKey chgOn)) = false ∧ wEpi.rdb (pgEpi 0) EPI_STATUS_aggregated =
      false ∧ wEpi.epiOcc 0 + 1 < 8193 := by
  decide +kernel

theorem wit_SecondsAndEpisodes_4 :
    wEpiOff.dom = .run ∧ 0 < 8 ∧ wEpiOff.regionSpeaks 0 = true ∧ (wEpiOff.epi.get {} 0).queue = ({ chgOn with on := false } : EpiChange) :: ([] : List
      EpiChange) ∧ ({ chgOn with on := false } : EpiChange).on = false ∧ wEpiOff.epiFind 0 ({ chgOn with on := false } : EpiChange) = some 0 := by
  decide +kernel

theorem wit_SecondsAndEpisodes_5 :
    wAgg.dom = .run ∧ 0 < 8 ∧ wAgg.regionSpeaks 0 = true ∧ wAgg.rdb (pgEpi 0) EPI_STATUS_aggregated = true ∧ wAgg.epiOcc 0 < 7168 ∧ (wAgg.epi.get {}
      0).queue = [] := by
  decide +kernel

/-! ### Client mapping (file 06) -/

/-- An ODU4 with a 100GbE client by GMP in slot 1, both directions, and an ODUflex with an IMP client in slot 2. -/
def wCli : State := (((((((((wCtx.wRow (pgOdi 0) T_CTX 1 [(CTX.valid, 1), (CTX.ctx, 1), (CTX.odu_type, 5), (CTX.stage, 1), (CTX.n_ts, 20), (CTX.client, 1)]).wRow
  (pgOde 0) T_CTX 1 [(CTX.valid, 1), (CTX.ctx, 1), (CTX.odu_type, 5), (CTX.stage, 1), (CTX.n_ts, 20), (CTX.client, 1)]).wRow
  (pgDmp 0) T_CLI_CFG 1 [(CLI_CFG.en, 1), (CLI_CFG.client, 1)]).wRow (pgMap 0) T_CLI_CFG 1 [(CLI_CFG.en, 1), (CLI_CFG.client, 1)]).wRow
  (pgOdi 0) T_CTX 2 [(CTX.valid, 1), (CTX.ctx, 2), (CTX.odu_type, 6), (CTX.stage, 1), (CTX.n_ts, 20), (CTX.client, 1)]).wRow
  (pgDmp 0) T_CLI_CFG 2 [(CLI_CFG.en, 1), (CLI_CFG.client, 2)]).wRow (pgOdi 0) T_CTX 3 [(CTX.valid, 1), (CTX.ctx, 3), (CTX.odu_type, 2), (CTX.stage, 2), (CTX.parent, 4)]).wRow
  (pgOdi 0) T_CTX 4 [(CTX.valid, 1), (CTX.ctx, 4), (CTX.odu_type, 4), (CTX.stage, 1), (CTX.ho, 1)]).wRow
  (pgOde 0) T_CTX 3 [(CTX.valid, 1), (CTX.ctx, 3), (CTX.odu_type, 2), (CTX.stage, 2), (CTX.parent, 4)]).wRow (pgOde 0) T_CTX 4 [(CTX.valid, 1), (CTX.ctx, 4), (CTX.odu_type, 4), (CTX.stage, 1), (CTX.ho, 1)]
def wCm : State := wCli.setGmp (gmpKey 0 0 1 false) (fun x => { x with cPrev := some 900 })
def wImp : State := wCli.setCli (ckey 0 0 2) (fun x => { x with buf := [idleBlk], recv := { sync := { lock := true } } })
def wCode : List Bool := [false, true] ++ List.replicate 64 false
def wHold : State := wCli.setCli (ckey 0 1 1) (fun x => { x with badRun := 16 })
def wHeld : State := (wCli.setCli (ckey 0 1 1) (fun x => { x with goodRun := 16 })).tputb (pgMap 0) T_CLI_STATUS 1 CLI_STATUS.gen_hold true
def wClos : State := wCli.tputb (pgDmp 0) T_CLI_STATUS 2 CLI_STATUS.clos true
def wLock6 : State := wClos.setCli (ckey 0 0 2) (fun x => { x with recv := { sync := { lock := true } } })
def wTrig : State := (wCli.wrb (pgOtu 0) OTU_STATUS_bonded true).setCtx 0 0 0 (fun c => { c with trig := true })
def wHalf : State := (wCli.setCli (ckey 0 0 2) (fun x => { x with buf := List.replicate (cliDepth 2 / 2) idleBlk })).tputb (pgDmp 0) T_CLI_STATUS 2 CLI_STATUS.crate true
/-- A 100GbE line client on lane 0. -/
def wEth : State := ((wOn.wRow (pgLln 0) T_LANE_CFG 0 [(LANE_CFG.typ, 1)]).wRow (pgEth 0) T_ETH_CFG 0 [(ETH_CFG.en, 1)]).wrb (pgLln 0) PAGE_CTRL_run true
def wEthTrig : State := wEth.setCli (lineKey 0) (fun x => { x with trig := true })

theorem wit_MappingPeriods_1 :
    wCli.dom = .run ∧ wCli.gmpMap 0 1 1 true = some ((wCli.gmpMap 0 1 1 true).getD ⟨0, 0, (0, 0), (0, 0), 0⟩) ∧ wCli.datapath (0 / 8) = true ∧
      wCli.genRole 0 1 ≠ some true ∧ ((wCli.gmp (gmpKey 0 1 1 true)).res + ((wCli.gmp (gmpKey 0 1 1 true)).frac + ((wCli.gmpMap 0 1 1 true).getD ⟨0,
      0, (0, 0), (0, 0), 0⟩).bytesQ 0) / 2 ^ 40) = (wCli.gmp (gmpKey 0 1 1 true)).res + ((wCli.gmp (gmpKey 0 1 1 true)).frac + ((wCli.gmpMap 0 1 1
      true).getD ⟨0, 0, (0, 0), (0, 0), 0⟩).bytesQ 0) / 2 ^ 40 := by
  decide +kernel

theorem wit_MappingPeriods_2 :
    wCli.dom = .run ∧ wCli.gmpMap 0 1 1 false = some ((wCli.gmpMap 0 1 1 false).getD ⟨0, 0, (0, 0), (0, 0), 0⟩) ∧ wCli.datapath (0 / 8) = true ∧ 0 <
      ((wCli.gmpMap 0 1 1 false).getD ⟨0, 0, (0, 0), (0, 0), 0⟩).w := by
  decide +kernel

theorem wit_MappingPeriods_3 :
    wCm.dom = .run ∧ wCm.gmpMap 0 0 1 false = some ((wCm.gmpMap 0 0 1 false).getD ⟨0, 0, (0, 0), (0, 0), 0⟩) ∧ wCm.datapath (0 / 8) = true ∧ readCm
      (wCm.gmp (gmpKey 0 0 1 false)).cPrev (⟨jcCm (some 900) ((wCm.gmpMap 0 0 1 false).getD ⟨0, 0, (0, 0), (0, 0), 0⟩).lo ++ jcC8d 0, [], 0⟩ :
      GmpRx).jc = some (((wCm.gmpMap 0 0 1 false).getD ⟨0, 0, (0, 0), (0, 0), 0⟩).lo) ∧ ((wCm.gmpMap 0 0 1 false).getD ⟨0, 0, (0, 0), (0, 0), 0⟩).lo ≤
      (((wCm.gmpMap 0 0 1 false).getD ⟨0, 0, (0, 0), (0, 0), 0⟩).lo) ∧ (((wCm.gmpMap 0 0 1 false).getD ⟨0, 0, (0, 0), (0, 0), 0⟩).lo) ≤ ((wCm.gmpMap 0
      0 1 false).getD ⟨0, 0, (0, 0), (0, 0), 0⟩).hi := by
  decide +kernel

theorem wit_MappingPeriods_4 :
    wCm.dom = .run ∧ wCm.gmpMap 0 0 1 false = some ((wCm.gmpMap 0 0 1 false).getD ⟨0, 0, (0, 0), (0, 0), 0⟩) ∧ wCm.datapath (0 / 8) = true ∧ readCm
      (wCm.gmp (gmpKey 0 0 1 false)).cPrev (⟨[0, 0, 1], [], 0⟩ : GmpRx).jc = none ∧ (wCm.gmp (gmpKey 0 0 1 false)).cPrev = some 900 := by
  decide +kernel

theorem wit_MappingPeriods_5 :
    wCli.dom = .run ∧ wCli.ctxAmp 0 1 3 = true ∧ wCli.datapath (0 / 8) = true ∧ wCli.genRole 0 3 ≠ some true ∧ (wCli.ampRate 0 1 3).1 = ((wCli.ampRate
      0 1 3).1) ∧ (wCli.ampRate 0 1 3).2 = (((wCli.ampRate 0 1 3).2.1), ((wCli.ampRate 0 1 3).2.2)) ∧ ((wCli.ampRate 0 1 3).2.1 * 2 ^ 40 /
      (wCli.ampRate 0 1 3).2.2) = (wCli.gmp (gmpKey 0 1 3 true)).frac + ((wCli.ampRate 0 1 3).2.1) * 2 ^ 40 / ((wCli.ampRate 0 1 3).2.2) ∧ (Int.ofNat
      ((wCli.ampRate 0 1 3).2.1 * 2 ^ 40 / (wCli.ampRate 0 1 3).2.2 / 2 ^ 40) - Int.ofNat (wCli.ampRate 0 1 3).1) = (wCli.gmp (gmpKey 0 1 3 true)).dev
      + Int.ofNat (((wCli.ampRate 0 1 3).2.1 * 2 ^ 40 / (wCli.ampRate 0 1 3).2.2) / 2 ^ 40) - Int.ofNat ((wCli.ampRate 0 1 3).1) := by
  decide +kernel

theorem wit_MappingPeriods_6 :
    wCli.dom = .run ∧ wCli.ctxAmp 0 0 3 = true ∧ wCli.datapath (0 / 8) = true ∧ 3 = ([3, 1, 3]).getD 0 0 % 4 ∧ 1 = ([3, 1, 3]).getD 1 0 % 4 ∧ 3 = ([3,
      1, 3]).getD 2 0 % 4 ∧ ¬ (3 = 1 ∧ 1 = 3) := by
  decide +kernel

theorem wit_ClientBuffers_1 :
    wImp.dom = .run ∧ wImp.refOn (.ctx 0 0 2) = true ∧ wImp.datapath (0 / 8) = true ∧ isImp (wImp.cliCode 0 0 2) = true ∧ (wImp.cli (ckey 0 0 2)) =
      wImp.cli (ckey 0 0 2) ∧ (wImp.cli (ckey 0 0 2)).recv.push (⟨wCode, false⟩ : ImpPeriod).arrive = ((((wImp.cli (ckey 0 0 2)).recv.push wCode).1),
      [(((wImp.cli (ckey 0 0 2)).recv.push wCode).2.headD idleBlk)]) ∧ (⟨wCode, false⟩ : ImpPeriod).read = false ∧ (wImp.cli (ckey 0 0 2)).refusing =
      false ∧ (wImp.cli (ckey 0 0 2)).full = false ∧ (wImp.cli (ckey 0 0 2)).buf.length ≤ 2318 := by
  decide +kernel

theorem wit_ClientBuffers_2 :
    wCli.dom = .run ∧ wCli.refOn (.ctx 0 0 2) = true ∧ wCli.datapath (0 / 8) = true ∧ isImp (wCli.cliCode 0 0 2) = true ∧ (⟨[], true⟩ :
      ImpPeriod).read = true ∧ (wCli.cli (ckey 0 0 2)).buf = [] ∧ (0 = 0 → ((wCli.cli (ckey 0 0 2)).recv.push (⟨[], true⟩ : ImpPeriod).arrive).2 = []) := by
  decide +kernel

theorem wit_ClientBuffers_3 :
    wEth.dom = .run ∧ wEth.ethEn 0 = true ∧ wEth.datapath (laneRegion 0) = true ∧ (⟨[], true⟩ : ImpPeriod).read = true ∧ (wEth.cli (lineKey 0)).buf =
      [] := by
  decide +kernel

theorem wit_ClientBuffers_5 :
    wHold.dom = .run ∧ 0 < 64 ∧ wHold.regionSpeaks (0 / 8) = true ∧ wHold.datapath (0 / 8) = true ∧ (wHold.genRole 0 1).isSome = true ∧ wHold.rateLost
      0 1 = true ∧ wHold.cliB 0 1 1 CLI_STATUS.gen_hold = false := by
  decide +kernel

theorem wit_ClientBuffers_6 :
    wHeld.dom = .run ∧ 0 < 64 ∧ wHeld.datapath (0 / 8) = true ∧ wHeld.cliB 0 1 1 CLI_STATUS.gen_hold = true ∧ 16 ≤ (wHeld.cli (ckey 0 1 1)).goodRun := by
  decide +kernel

theorem wit_ClientDefects_1 :
    wCli.dom = .run ∧ wCli.refBlocks (.ctx 0 0 2) = true ∧ wCli.datapath (0 / 8) = true ∧ (wCli.cli (ckey 0 0 2)).recv.sync.lock = false := by
  decide +kernel

theorem wit_ClientDefects_2 :
    wEth.dom = .run ∧ wEth.refBlocks (.line 0) = true ∧ wEth.datapath (laneRegion 0) = true ∧ 0 ∈ wEth.ethIfLanes 0 ∧ wEth.rdb (pgLln 0)
      LLN_STATUS_sig_det = false := by
  decide +kernel

theorem wit_ClientDefects_3 :
    wLock6.dom = .run ∧ wLock6.refBlocks (.ctx 0 0 2) = true ∧ wLock6.datapath (0 / 8) = true ∧ (wLock6.cli (ckey 0 0 2)).recv.sync.lock = true := by
  decide +kernel

theorem wit_ClientDefects_4 :
    wCli.dom = .run ∧ wCli.refBlocks (.ctx 0 0 2 : CliRef) = true ∧ wCli.refRuns (.ctx 0 0 2 : CliRef) = true := by
  decide +kernel

theorem wit_ClientDefects_5 :
    wEth.dom = .run ∧ wEth.refBlocks (.line 0 : CliRef) = true ∧ wEth.refRuns (.line 0 : CliRef) = true := by
  decide +kernel

theorem wit_ClientDefects_6 :
    wTrig.dom = .run ∧ wTrig.lastingTrigger 0 0 = false := by
  decide +kernel

theorem wit_ClientDefects_7 :
    wEthTrig.dom = .run ∧ (wEthTrig.ethIfLanes 0).any (fun k => wEthTrig.rdb (pgLln k) LLN_STATUS_trained && (!wEthTrig.rdb (pgLln k)
      LLN_STATUS_sig_det || !wEthTrig.rdb (pgLln k) LLN_STATUS_cw_lock)) = false := by
  decide +kernel

/-! ### Protection (file 07) -/

/-- Hardware group 0 and software group 1 of region 0's egress selectors, with APS channel 2 and switched bridge 5 of group 1. -/
def wGrp : State := ((((wOn.wRow (pgSel 0) T_ESG_CFG 0 [(ESG_CFG.valid, 1), (ESG_CFG.revert, 1), (ESG_CFG.aps_en, 1)]).wRow
  (pgSel 0) T_ESG_CFG 1 [(ESG_CFG.valid, 1), (ESG_CFG.arch, 1), (ESG_CFG.aps_en, 1), (ESG_CFG.aps_ch, 2), (ESG_CFG.w_flow, 1)]).wRow
  pgPrt T_APS_CFG 2 [(APS_CFG.valid, 1), (APS_CFG.grp, 1), (APS_CFG.age_ms, 50)]).wRow
  (pgSel 0) T_BRG_CFG 5 [(BRG_CFG.valid, 1), (BRG_CFG.kind, 1), (BRG_CFG.grp, 1)])
def wArg : State := ((wGrp.wr (rqPage pgPrt .sm) PRT_CMD_ARG_bridge 1).wr (rqPage pgPrt .sm) PRT_CMD_ARG_sel 1).wr (rqPage pgPrt .sm) PRT_CMD_ARG_aps 0xB00100
def wLockout : State := (wGrp.gPut 0 GRP_STATUS.cmd opLo).gPut 0 GRP_STATUS.request 0xF
def wHo : State := wGrp.gPutB 0 GRP_STATUS.ho_w true
def wWtr : State := ((wGrp.setWtr 0 true).gPut 0 GRP_STATUS.sel 1).setGrp 0 (fun x => { x with base := 1 })
def wWtrLegs : State := (wWtr.gPut 0 GRP_STATUS.w_leg (wWtr.legNow 0 0)).gPut 0 GRP_STATUS.p_leg (wWtr.legNow 0 1)
def wProv : State := (((wGrp.gPut 0 GRP_STATUS.sel 1).gPutB 0 GRP_STATUS.prov true).gPut 0 GRP_STATUS.w_leg (wGrp.legNow 0 0)).gPut 0 GRP_STATUS.p_leg (wGrp.legNow 0 1)
def wBrg : State := wGrp.setGrp 1 (fun x => { x with bridge := true })
def wNote : State := wGrp.notice 1 0 2
def wRun2 : State := wGrp.setAps 2 (fun x => { x with cand := 0x0F0001, run := 2 })
def wAged : State := wGrp.tput pgPrt T_APS_RX 2 APS_RX.age 60
def wGuard : State := (wGrp.wRow pgPrt T_APS_CFG 2 [(APS_CFG.valid, 1), (APS_CFG.grp, 1), (APS_CFG.guard, 1)]).wr (pgChk 0x1E) CHK_CFG_width 4
def wNr : State := (wGrp.setAps 2 (fun x => { x with accEver := true })).tput pgPrt T_APS_RX 2 APS_RX.accepted 0x0F0105

theorem wit_ProtectionRequests_1 :
    wGrp.dom = .run ∧ wGrp.admitCode whoSm pgPrt true = bsOk ∧ wGrp.prtAhead = false ∧ wGrp.prtQ = [] ∧ wGrp.grps.all (fun x => !x.2.due &&
      x.2.was.isNone) = true ∧ wGrp.gBornNow 0 = false ∧ 0 < 2 ^ 15 ∧ wGrp.gValid 0 = true ∧ wGrp.region (grpRegion 0) ≠ rgnReset ∧ ((whoSm.master =
      .host → wGrp.ownBox (ownGroup 0) = whoSm.box)) ∧ wGrp.gArch 0 = 0 := by
  decide +kernel

theorem wit_ProtectionRequests_2 :
    wGrp.dom = .run ∧ wGrp.admitCode whoSm pgPrt true = bsOk ∧ wGrp.prtAhead = false ∧ wGrp.prtQ = [] ∧ wGrp.grps.all (fun x => !x.2.due &&
      x.2.was.isNone) = true ∧ wGrp.gBornNow 0 = false ∧ 0 < 2 ^ 15 ∧ wGrp.gValid 0 = true ∧ wGrp.region (grpRegion 0) ≠ rgnReset ∧ ((whoSm.master =
      .host → wGrp.ownBox (ownGroup 0) = whoSm.box)) ∧ wGrp.gArch 0 = 0 ∧ wGrp.gSt 0 GRP_STATUS.cmd ≠ opLo ∧ (wGrp.grp 0).pCond ≠ 2 := by
  decide +kernel

theorem wit_ProtectionRequests_3 :
    wGrp.dom = .run ∧ wGrp.admitCode whoSm pgPrt true = bsOk ∧ wGrp.prtAhead = false ∧ wGrp.prtQ = [] ∧ wGrp.grps.all (fun x => !x.2.due &&
      x.2.was.isNone) = true ∧ wGrp.gBornNow 0 = false ∧ 0 < 2 ^ 15 ∧ wGrp.gValid 0 = true ∧ wGrp.region (grpRegion 0) ≠ rgnReset ∧ ((whoSm.master =
      .host → wGrp.ownBox (ownGroup 0) = whoSm.box)) ∧ wGrp.gArch 0 = 0 ∧ wGrp.gSt 0 GRP_STATUS.cmd = 0 ∧ 6 ≤ (topRequest (wGrp.reqIn 0)).1 := by
  decide +kernel

theorem wit_ProtectionRequests_4 :
    wGrp.dom = .run ∧ wGrp.admitCode whoSm pgPrt true = bsOk ∧ wGrp.prtAhead = false ∧ wGrp.prtQ = [] ∧ wGrp.grps.all (fun x => !x.2.due &&
      x.2.was.isNone) = true ∧ wGrp.gBornNow 0 = false ∧ 0 < 2 ^ 15 ∧ wGrp.gValid 0 = true ∧ wGrp.region (grpRegion 0) ≠ rgnReset ∧ ((whoSm.master =
      .host → wGrp.ownBox (ownGroup 0) = whoSm.box)) ∧ wGrp.gArch 0 = 0 ∧ wGrp.gSt 0 GRP_STATUS.cmd = 0 ∧ 6 ≤ (topRequest (wGrp.reqIn 0)).1 := by
  decide +kernel

theorem wit_ProtectionRequests_5 :
    wGrp.dom = .run ∧ wGrp.admitCode whoSm pgPrt true = bsOk ∧ wGrp.prtAhead = false ∧ wGrp.prtQ = [] ∧ wGrp.grps.all (fun x => !x.2.due &&
      x.2.was.isNone) = true ∧ wGrp.gBornNow 0 = false ∧ 0 < 2 ^ 15 ∧ wGrp.gValid 0 = true ∧ wGrp.region (grpRegion 0) ≠ rgnReset ∧ ((whoSm.master =
      .host → wGrp.ownBox (ownGroup 0) = whoSm.box)) ∧ wGrp.gArch 0 = 0 ∧ wGrp.gSt 0 GRP_STATUS.cmd = 0 ∧ wGrp.gStB 0 GRP_STATUS.prov = false ∧
      wGrp.gApsEn 0 = true ∧ 8 ≤ (topRequest (wGrp.reqIn 0)).1 := by
  decide +kernel

theorem wit_ProtectionRequests_6 :
    wWtr.dom = .run ∧ wWtr.admitCode whoSm pgPrt true = bsOk ∧ wWtr.prtAhead = false ∧ wWtr.prtQ = [] ∧ wWtr.grps.all (fun x => !x.2.due &&
      x.2.was.isNone) = true ∧ wWtr.gBornNow 0 = false ∧ 0 < 2 ^ 15 ∧ wWtr.gValid 0 = true ∧ wWtr.region (grpRegion 0) ≠ rgnReset ∧ ((whoSm.master =
      .host → wWtr.ownBox (ownGroup 0) = whoSm.box)) ∧ wWtr.gArch 0 = 0 ∧ wWtr.gStB 0 GRP_STATUS.prov = false ∧ (wWtr.grp 0).wCond = 0 ∧ (wWtr.grp
      0).pCond = 0 := by
  decide +kernel

theorem wit_ProtectionRequests_7 :
    wLockout.dom = .run ∧ wLockout.admitCode whoSm pgPrt true = bsOk ∧ wLockout.prtAhead = false ∧ wLockout.prtQ = [] ∧ wLockout.grps.all (fun x =>
      !x.2.due && x.2.was.isNone) = true ∧ wLockout.gBornNow 0 = false ∧ 0 < 2 ^ 15 ∧ wLockout.gValid 0 = true ∧ wLockout.region (grpRegion 0) ≠
      rgnReset ∧ ((whoSm.master = .host → wLockout.ownBox (ownGroup 0) = whoSm.box)) ∧ wLockout.gArch 0 = 0 ∧ wLockout.gSt 0 GRP_STATUS.cmd = opLo := by
  decide +kernel

theorem wit_SoftwareGroups_1 :
    wArg.dom = .run ∧ wArg.admitCode whoSm pgPrt true = bsOk ∧ wArg.prtAhead = false ∧ wArg.prtQ = [] ∧ wArg.grps.all (fun x => !x.2.due &&
      x.2.was.isNone) = true ∧ wArg.gBornNow 1 = false ∧ 1 < 2 ^ 15 ∧ wArg.gValid 1 = true ∧ wArg.region (grpRegion 1) ≠ rgnReset ∧ ((whoSm.master =
      .host → wArg.ownBox (ownGroup 1) = whoSm.box)) ∧ wArg.gArch 1 ≠ 0 ∧ wArg.prtMasterOk 1 whoSm.master = true ∧ wArg.gStB 1 GRP_STATUS.sfp_override
      = false ∧ wArg.rd (prtRq whoSm) PRT_CMD_ARG_bridge < 2 ∧ wArg.rd (prtRq whoSm) PRT_CMD_ARG_sel < 2 ∧ wArg.rd (prtRq whoSm) PRT_CMD_ARG_aps < 2 ^
      24 := by
  decide +kernel

theorem wit_SoftwareGroups_2 :
    wArg.dom = .run ∧ wArg.admitCode whoSm pgPrt true = bsOk ∧ wArg.prtAhead = false ∧ wArg.prtQ = [] ∧ wArg.grps.all (fun x => !x.2.due &&
      x.2.was.isNone) = true ∧ wArg.gBornNow 1 = false ∧ 1 < 2 ^ 15 ∧ wArg.gValid 1 = true ∧ wArg.region (grpRegion 1) ≠ rgnReset ∧ ((whoSm.master =
      .host → wArg.ownBox (ownGroup 1) = whoSm.box)) ∧ wArg.gArch 1 ≠ 0 ∧ wArg.prtMasterOk 1 whoSm.master = true ∧ wArg.gStB 1 GRP_STATUS.sfp_override
      = false ∧ wArg.rd (prtRq whoSm) PRT_CMD_ARG_bridge < 2 ∧ wArg.rd (prtRq whoSm) PRT_CMD_ARG_sel < 2 ∧ wArg.rd (prtRq whoSm) PRT_CMD_ARG_aps < 2 ^
      24 ∧ (wArg.gBridges 1).isEmpty = false := by
  decide +kernel

theorem wit_SoftwareGroups_3 :
    wArg.dom = .run ∧ wArg.admitCode whoSm pgPrt true = bsOk ∧ wArg.prtAhead = false ∧ wArg.prtQ = [] ∧ wArg.grps.all (fun x => !x.2.due &&
      x.2.was.isNone) = true ∧ wArg.gBornNow 1 = false ∧ 1 < 2 ^ 15 ∧ wArg.gValid 1 = true ∧ wArg.region (grpRegion 1) ≠ rgnReset ∧ ((whoSm.master =
      .host → wArg.ownBox (ownGroup 1) = whoSm.box)) ∧ wArg.gArch 1 ≠ 0 ∧ wArg.prtMasterOk 1 whoSm.master = true ∧ wArg.gStB 1 GRP_STATUS.sfp_override
      = false ∧ wArg.rd (prtRq whoSm) PRT_CMD_ARG_bridge < 2 ∧ wArg.rd (prtRq whoSm) PRT_CMD_ARG_sel < 2 ∧ wArg.rd (prtRq whoSm) PRT_CMD_ARG_aps < 2 ^
      24 := by
  decide +kernel

theorem wit_SoftwareGroups_4 :
    wArg.dom = .run ∧ wArg.admitCode whoSm pgPrt true = bsOk ∧ wArg.prtAhead = false ∧ wArg.prtQ = [] ∧ wArg.grps.all (fun x => !x.2.due &&
      x.2.was.isNone) = true ∧ wArg.gBornNow 1 = false ∧ 1 < 2 ^ 15 ∧ wArg.gValid 1 = true ∧ wArg.region (grpRegion 1) ≠ rgnReset ∧ ((whoSm.master =
      .host → wArg.ownBox (ownGroup 1) = whoSm.box)) ∧ wArg.gArch 1 ≠ 0 ∧ wArg.prtMasterOk 1 whoSm.master = true ∧ wArg.gStB 1 GRP_STATUS.sfp_override
      = false ∧ wArg.rd (prtRq whoSm) PRT_CMD_ARG_bridge < 2 ∧ wArg.rd (prtRq whoSm) PRT_CMD_ARG_sel < 2 ∧ wArg.rd (prtRq whoSm) PRT_CMD_ARG_aps < 2 ^
      24 ∧ (wArg.gBridges 1).isEmpty = false := by
  decide +kernel

theorem wit_SoftwareGroups_5 :
    (wArg.tputb pgPrt T_SFP_REC 2 SFP_REC.valid true).dom = .run ∧ (wArg.tputb pgPrt T_SFP_REC 2 SFP_REC.valid true).admitCode whoSm pgPrt true = bsOk
      ∧ (wArg.tputb pgPrt T_SFP_REC 2 SFP_REC.valid true).prtAhead = false ∧ (wArg.tputb pgPrt T_SFP_REC 2 SFP_REC.valid true).prtQ = [] ∧ (wArg.tputb
      pgPrt T_SFP_REC 2 SFP_REC.valid true).grps.all (fun x => !x.2.due && x.2.was.isNone) = true ∧ (wArg.tputb pgPrt T_SFP_REC 2 SFP_REC.valid
      true).gBornNow 1 = false ∧ 1 < 2 ^ 15 ∧ (wArg.tputb pgPrt T_SFP_REC 2 SFP_REC.valid true).gValid 1 = true ∧ (wArg.tputb pgPrt T_SFP_REC 2
      SFP_REC.valid true).region (grpRegion 1) ≠ rgnReset ∧ ((whoSm.master = .host → (wArg.tputb pgPrt T_SFP_REC 2 SFP_REC.valid true).ownBox
      (ownGroup 1) = whoSm.box)) ∧ (wArg.tputb pgPrt T_SFP_REC 2 SFP_REC.valid true).gArch 1 ≠ 0 ∧ (wArg.tputb pgPrt T_SFP_REC 2 SFP_REC.valid
      true).prtMasterOk 1 whoSm.master = true ∧ (wArg.tputb pgPrt T_SFP_REC 2 SFP_REC.valid true).gStB 1 GRP_STATUS.sfp_override = false ∧ (wArg.tputb
      pgPrt T_SFP_REC 2 SFP_REC.valid true).gChannel 1 = some 2 := by
  decide +kernel

theorem wit_SoftwareGroups_6 :
    wNote.dom = .run ∧ wNote.admitCode whoSm pgPrt false = bsOk ∧ 512 = (if whoSm.proxy then whoSm.box else 512) ∧ wNote.notices.get [] 512 =
      ((wNote.notices.get [] 512).headD 0) :: ([] : List Notice) := by
  decide +kernel

theorem wit_ProtectionTimers_1 :
    wGrp.dom = .run ∧ wGrp.gActs 0 = true ∧ wGrp.regionSpeaks (grpRegion 0) = true ∧ wGrp.prtAhead = false ∧ wGrp.prtQ = [] ∧ wGrp.grps.all (fun x =>
      !x.2.due && x.2.was.isNone) = true ∧ wGrp.gBornNow 0 = false ∧ 0 < 2 ∧ wGrp.legNow 0 0 ≠ wGrp.legShown 0 0 ∧ wGrp.legNow 0 0 < 4 := by
  decide +kernel

theorem wit_ProtectionTimers_2 :
    (wOn.wRow (pgSel 0) T_ESG_CFG 0 [(ESG_CFG.valid, 1), (ESG_CFG.holdoff, 5)]).dom = .run ∧ (wOn.wRow (pgSel 0) T_ESG_CFG 0 [(ESG_CFG.valid, 1),
      (ESG_CFG.holdoff, 5)]).gActs 0 = true ∧ (wOn.wRow (pgSel 0) T_ESG_CFG 0 [(ESG_CFG.valid, 1), (ESG_CFG.holdoff, 5)]).prtAhead = false ∧ (wOn.wRow
      (pgSel 0) T_ESG_CFG 0 [(ESG_CFG.valid, 1), (ESG_CFG.holdoff, 5)]).prtQ = [] ∧ (wOn.wRow (pgSel 0) T_ESG_CFG 0 [(ESG_CFG.valid, 1),
      (ESG_CFG.holdoff, 5)]).grps.all (fun x => !x.2.due && x.2.was.isNone) = true ∧ (wOn.wRow (pgSel 0) T_ESG_CFG 0 [(ESG_CFG.valid, 1),
      (ESG_CFG.holdoff, 5)]).gBornNow 0 = false ∧ 1 < 2 ∧ ((wOn.wRow (pgSel 0) T_ESG_CFG 0 [(ESG_CFG.valid, 1), (ESG_CFG.holdoff, 5)]).grp 0).hoEnd =
      0 ∧ (wOn.wRow (pgSel 0) T_ESG_CFG 0 [(ESG_CFG.valid, 1), (ESG_CFG.holdoff, 5)]).legNow 0 1 = 2 ∧ (wOn.wRow (pgSel 0) T_ESG_CFG 0
      [(ESG_CFG.valid, 1), (ESG_CFG.holdoff, 5)]).legShown 0 1 ≠ 2 ∧ ((wOn.wRow (pgSel 0) T_ESG_CFG 0 [(ESG_CFG.valid, 1), (ESG_CFG.holdoff, 5)]).grp
      0).cond 1 ≠ 2 ∧ (wOn.wRow (pgSel 0) T_ESG_CFG 0 [(ESG_CFG.valid, 1), (ESG_CFG.holdoff, 5)]).gHoldoff 0 ≠ 0 ∧ (wOn.wRow (pgSel 0) T_ESG_CFG 0
      [(ESG_CFG.valid, 1), (ESG_CFG.holdoff, 5)]).gStB 0 (hoField 1) = false := by
  decide +kernel

theorem wit_ProtectionTimers_3 :
    wHo.dom = .run ∧ wHo.gActs 0 = true ∧ wHo.prtAhead = false ∧ wHo.prtQ = [] ∧ wHo.grps.all (fun x => !x.2.due && x.2.was.isNone) = true ∧
      wHo.gBornNow 0 = false ∧ 0 < 2 ∧ wHo.gStB 0 (hoField 0) = true ∧ wHo.legNow 0 0 = 2 := by
  decide +kernel

theorem wit_ProtectionTimers_4 :
    wWtrLegs.dom = .run ∧ wWtrLegs.gActs 0 = true ∧ wWtrLegs.prtAhead = false ∧ wWtrLegs.prtQ = [] ∧ wWtrLegs.grps.all (fun x => !x.2.due &&
      x.2.was.isNone) = true ∧ wWtrLegs.gBornNow 0 = false ∧ wWtrLegs.legNow 0 0 = wWtrLegs.legShown 0 0 ∧ wWtrLegs.legNow 0 1 = wWtrLegs.legShown 0 1
      ∧ (wWtrLegs.grp 0).hoEnd = 0 ∧ wWtrLegs.gArch 0 = 0 ∧ wWtrLegs.gStB 0 GRP_STATUS.wtr_run = true ∧ wWtrLegs.gRevert 0 = true ∧ (wWtrLegs.grp
      0).wCond = 0 ∧ (wWtrLegs.grp 0).pCond = 0 ∧ wWtrLegs.gSt 0 GRP_STATUS.cmd = 0 ∧ wWtrLegs.gStB 0 GRP_STATUS.prov = false := by
  decide +kernel

theorem wit_ProtectionTimers_5 :
    wProv.dom = .run ∧ wProv.gActs 0 = true ∧ wProv.prtAhead = false ∧ wProv.prtQ = [] ∧ wProv.grps.all (fun x => !x.2.due && x.2.was.isNone) = true ∧
      wProv.gBornNow 0 = false ∧ wProv.legNow 0 0 = wProv.legShown 0 0 ∧ wProv.legNow 0 1 = wProv.legShown 0 1 ∧ (wProv.grp 0).hoEnd = 0 ∧ wProv.gArch
      0 = 0 ∧ wProv.gStB 0 GRP_STATUS.prov = true ∧ wProv.legShown 0 (1 - wProv.gSt 0 GRP_STATUS.sel) ≠ 3 := by
  decide +kernel

theorem wit_ProtectionTimers_6 :
    wBrg.dom = .run ∧ 0 < 8 ∧ wBrg.regionSpeaks 0 = true ∧ wBrg.effB (pgSel 0) T_BRG_CFG 5 BRG_CFG.valid = true ∧ wBrg.effB (pgSel 0) T_BRG_CFG 5
      BRG_CFG.kind = true ∧ true = (wBrg.grp (wBrg.effF (pgSel 0) T_BRG_CFG 5 BRG_CFG.grp)).bridge ∧ wBrg.tgetb (pgSel 0) T_BRG_STATUS 5
      BRG_STATUS.bridged ≠ true := by
  decide +kernel

theorem wit_ApsChannels_1 :
    wAged.dom = .run ∧ wAged.apsValid 2 = true ∧ wAged.apsF 2 APS_CFG.guard = 0 := by
  decide +kernel

theorem wit_ApsChannels_2 :
    wRun2.dom = .run ∧ wRun2.apsValid 2 = true ∧ wRun2.apsF 2 APS_CFG.guard = 0 ∧ (wRun2.aps 2).run = 2 ∧ (wRun2.aps 2).cand = getBits 0x0F000100 31 8 := by
  decide +kernel

theorem wit_ApsChannels_3 :
    wGuard.dom = .run ∧ wGuard.apsValid 2 = true ∧ wGuard.apsF 2 APS_CFG.guard ≠ 0 ∧ wGuard.rd (pgChk (wGuard.rd pgPrt PRT_APS_CFG_chk_unit))
      CHK_CFG_width = 4 ∧ (wGuard.guardValue (getBits 0x0F00010F 31 8) (getBits 0x0F00010F 7 4)).1 ≠ getBits 0x0F00010F 3 0 := by
  decide +kernel

theorem wit_ApsChannels_4 :
    wGrp.dom = .run ∧ ((wGrp.effRows pgPrt T_APS_CFG).filter (fun x => efieldb x.2 APS_CFG.valid)).map (fun x => x.1) = [2] ∧ wGrp.apsHit 2 = false := by
  decide +kernel

theorem wit_ApsChannels_5 :
    wAged.dom = .run ∧ ((wAged.effRows pgPrt T_APS_CFG).filter (fun x => efieldb x.2 APS_CFG.valid)).map (fun x => x.1) = [2] ∧ wAged.apsHit 2 = false
      ∧ wAged.apsF 2 APS_CFG.age_ms ≤ wAged.apsRx 2 APS_RX.age ∧ wAged.apsRx 2 APS_RX.age ≤ 255 ∧ wAged.apsRxB 2 APS_RX.dfop_to = false := by
  decide +kernel

theorem wit_ApsChannels_6 :
    wNr.dom = .run ∧ wNr.apsValid 2 = true ∧ wNr.apsNrDiffers 2 = true ∧ wNr.apsRxB 2 APS_RX.dfop_nr = false := by
  decide +kernel

/-! ### Wings (file 08) -/

def wStamp : State := (wOn.wRow (pgOdi 0) T_CTX 0 [(CTX.valid, 1), (CTX.odu_type, 8), (CTX.stamp_en, 1)]).setCtx 0 0 0 (fun c => { c with stRun := 2, stNext := 256 * 5 + 4 })
def wStamped : State := ((wStamp.tputb (pgOdi 0) T_STAMP_RX 0 STAMP_RX.locked true).setCtx 0 0 0 (fun c => { c with stBad := 2 }))
def grpGood : StampGroup := { inFrame := true, mfas := 4, format := 16, exp2 := [0, 0, 5, stampCrc 16 5] }
def grpBad : StampGroup := { grpGood with exp2 := [0, 0, 5, stampCrc 16 5 + 1] }
/-- Wings group 0 of stack 0 in ACQUIRE, stack 0 in service. -/
def wWng : State := ((wOn.wRow pgWng T_WGRP_CFG 0 [(WGRP_CFG.valid, 1), (WGRP_CFG.rate_kbps, 100000000), (WGRP_CFG.max_delay, 10)]).wr (pgHbm 0) HBM_STATUS_state 1).wgPut 0 WGRP_STATUS.state 1
def wSeen : State := wWng.setWg 0 (fun x => { x with seenP := [(239, 0)] })
def wPlay : State := (wWng.wgPut 0 WGRP_STATUS.state 2).setWg 0 (fun x => { x with playout := some 300 })
def wSwap : State := { wWng.wgPut 0 WGRP_STATUS.state 5 with slotQ := [0, 7] }
def wOver : State := wWng.wgPut 0 WGRP_STATUS.state 6
def wFallQ : State := { wPlay with fallQ := wPlay.fallQ.set [] 0 [4096, 3] }
def wRetrained : State := (wWng.wr (pgHbm 0) HBM_STATUS_state hbmFailed).wr pgMode MODE_STACKS_retrained 3

theorem wit_AlignmentStamp_1 :
    wStamp.dom = .run ∧ 0 < 64 ∧ wStamp.ctxB 0 0 0 CTX.valid = true ∧ wStamp.ctxB 0 0 0 CTX.stamp_en = true ∧ wStamp.datapath (0 / 8) = true ∧
      grpGood.inFrame = true ∧ wStamp.ctxStatusB 0 0 0 CTX_STATUS.ssf_in = false ∧ getBits grpGood.format 7 4 = 1 ∧ 5 = grpGood.exp2.getD 0 0 % 256 *
      65536 + grpGood.exp2.getD 1 0 % 256 * 256 + grpGood.exp2.getD 2 0 % 256 ∧ stampCrc (grpGood.format % 256) 5 = grpGood.exp2.getD 3 0 % 256 ∧
      wStamp.tgetb (pgOdi 0) T_STAMP_RX 0 STAMP_RX.locked = false ∧ (wStamp.ctx 0 0 0).stRun = 2 ∧ (wStamp.ctx 0 0 0).stNext = 256 * 5 + grpGood.mfas
      % 256 := by
  decide +kernel

theorem wit_AlignmentStamp_2 :
    wStamped.dom = .run ∧ 0 < 64 ∧ wStamped.ctxB 0 0 0 CTX.valid = true ∧ wStamped.ctxB 0 0 0 CTX.stamp_en = true ∧ wStamped.datapath (0 / 8) = true ∧
      grpBad.inFrame = true ∧ wStamped.ctxStatusB 0 0 0 CTX_STATUS.ssf_in = false ∧ getBits grpBad.format 7 4 = 1 ∧ 5 = grpBad.exp2.getD 0 0 % 256 *
      65536 + grpBad.exp2.getD 1 0 % 256 * 256 + grpBad.exp2.getD 2 0 % 256 ∧ stampCrc (grpBad.format % 256) 5 ≠ grpBad.exp2.getD 3 0 % 256 ∧
      wStamped.tgetb (pgOdi 0) T_STAMP_RX 0 STAMP_RX.locked = true ∧ (wStamped.ctx 0 0 0).stBad = 2 := by
  decide +kernel

theorem wit_AlignmentStamp_3 :
    wStamp.dom = .run ∧ 0 < 64 ∧ wStamp.ctxB 0 0 0 CTX.valid = true ∧ wStamp.ctxB 0 0 0 CTX.stamp_en = true ∧ wStamp.datapath (0 / 8) = true ∧
      grpBad.inFrame = true ∧ wStamp.ctxStatusB 0 0 0 CTX_STATUS.ssf_in = false ∧ getBits grpBad.format 7 4 = 1 ∧ 5 = grpBad.exp2.getD 0 0 % 256 *
      65536 + grpBad.exp2.getD 1 0 % 256 * 256 + grpBad.exp2.getD 2 0 % 256 ∧ stampCrc (grpBad.format % 256) 5 ≠ grpBad.exp2.getD 3 0 % 256 ∧
      wStamp.tgetb (pgOdi 0) T_STAMP_RX 0 STAMP_RX.locked = false := by
  decide +kernel

theorem wit_WingsGroups_1 :
    wSeen.dom = .run ∧ wSeen.wgState 0 ≠ wgOff ∧ wSeen.wgF 0 WGRP_CFG.valid ≠ 0 ∧ wSeen.wgBornNow 0 = false ∧ (wSeen.wg 0).seenP.find? (fun y =>
      decide (y.1 = 239 * (16 / 8) % keyMod)) = none ∧ wSeen.wgrps.all (fun y => !y.2.ask) = true := by
  decide +kernel

theorem wit_WingsGroups_2 :
    wSeen.dom = .run ∧ wSeen.wgState 0 ≠ wgOff ∧ wSeen.wgF 0 WGRP_CFG.valid ≠ 0 ∧ wSeen.wgBornNow 0 = false ∧ (wSeen.wg 0).seenP.find? (fun y =>
      decide (y.1 = 239 * (8 / 8) % keyMod)) = some ((239, 0) : Nat × Nat) := by
  decide +kernel

theorem wit_WingsGroups_3 :
    wPlay.dom = .run ∧ 2 ≤ wPlay.wgState 0 ∧ wPlay.wgState 0 ≤ 4 ∧ wPlay.wgBornNow 0 = false ∧ wPlay.wgF 0 WGRP_CFG.step = 0 ∧ wPlay.wgSelected 0 =
      wPlay.wgEarly 0 ∧ (wPlay.wg 0).playout = some 300 := by
  decide +kernel

theorem wit_WingsGroups_4 :
    wSwap.dom = .run ∧ wSwap.slotQ = 0 :: ([7]) ∧ wSwap.slotFree 0 = true ∧ wSwap.stackGone (wSwap.wgStack 0) = false ∧ wSwap.wgBornNow 0 = false ∧
      wSwap.wgState 0 = wgSwapWait := by
  decide +kernel

theorem wit_WingsGroups_5 :
    wOver.dom = .run ∧ wOver.wgState 0 = wgOver ∧ wOver.wgBeyond 0 100000 = false ∧ wOver.wgBornNow 0 = false := by
  decide +kernel

theorem wit_HbmStacks_1 :
    wPlay.dom = .run ∧ 0 < 6 ∧ wPlay.rd (pgHbm 0) HBM_STATUS_state ≠ hbmFailed := by
  decide +kernel

theorem wit_HbmStacks_2 :
    wFallQ.dom = .run ∧ wFallQ.fallQ.get [] 0 = 4096 :: ([3]) ∧ wFallQ.wgState (4096 % 4096) ≠ wgOff ∧ (wFallQ.wg (4096 % 4096)).ackAt ≠
      wFallQ.dpCycle + 1 := by
  decide +kernel

theorem wit_HbmStacks_3 :
    wRetrained.dom = .run ∧ 0 < 6 ∧ wRetrained.rd (pgHbm 0) HBM_STATUS_state = hbmFailed ∧ bit (wRetrained.rd pgMode MODE_STACKS_retrained) 0 = true := by
  decide +kernel

theorem wit_HbmStacks_4 :
    wWng.dom = .run ∧ wWng.hbmUp 0 = true := by
  decide +kernel

theorem wit_HbmStacks_5 :
    (wWng.wfail 0 1 none).dom = .run := by
  decide +kernel

/-! ### Fybry (file 09) -/

/-- Fybry link 0 working and link 1 understudy of region 0, lanes running, clock locked, adapted and aligned in SYNC; flow 3 each way. -/
def wFyl : State := ((((((((((((wOn.wRow (pgFyl 0) T_LINK_CFG 0 [(LINK_CFG.role, 1), (LINK_CFG.fail_cnt, 1)]).wRow (pgFyl 1) T_LINK_CFG 0 [(LINK_CFG.role, 2)]).wrb (pgFyl 0) PAGE_CTRL_run true).wrb
  (fylCsu 0) CSU_STATUS_locked true).wrb (fylCsu 0) CSU_STATUS_gated false).wr (pgFyl 0) FYL_STATUS_sig_det 255).wr (pgFyl 0) FYL_STATUS_lane_lock 255).wrb
  (pgFyl 0) FYL_STATUS_aligned true).wrb (pgFyl 0) FYL_STATUS_sync true).wr (pgFyt 0) FYT_STATUS_covering 15).setFyl 0 (fun x => { x with trained := true })).wRow
  (pgFyr 0) T_RXF_CFG 3 [(RXF_CFG.valid, 1)]).wRow (pgFyt 0) T_TXF_CFG 3 [(TXF_CFG.valid, 1), (TXF_CFG.label, 9)]
def wMark : State := (((wFyl.wrb (pgFyl 0) FYL_STATUS_aligned false).wr (pgFyl 0) FYL_STATUS_lane_lock 127).setFyl 0 (fun x => { x with
  logical := (List.range 7).foldl (fun l j => l.set 0 j (j + 1)) [], lags := (List.range 7).foldl (fun l j => l.set 0 j 10) [] }))
def segFlow : Seg := { typ := 1, leg := 0, off := false, cls := 0, flow := 3, seq := 40, stamp := 0, snap := 0x8000, ccls := 0, lstate := 2, rxFail := 15, credit := 0, crc := 0, payload := [] }
def segSealed (g : Seg) : Seg := { g with crc := crc16 (segHeader g) }
def rxOf (g : Seg) : SegRx := { seg := segSealed g, uncorr := false, repl := false, use := ⟨0, false, 0⟩ }
def wQueue : State := (wFyl.wrb (pgFyl 0) FYL_STATUS_credits_valid true).setFyl 0 (fun x => { x with lim0 := 100, q0 := [(3, segFlow)] })
def wSrc : State := wFyl.wRow (pgOdi 0) T_CTX 0 [(CTX.valid, 1), (CTX.odu_type, 8), (CTX.flow_en, 1), (CTX.flow, 3)]
def wWin : State := ((wFyl.rxPut 0 3 RXF_STATUS.state 1).rxPut 0 3 RXF_STATUS.e 38).setRxo 0 3 (fun o => { o with held := [⟨segFlow, false, ⟨0, false, 0⟩⟩] })
def wFailed : State := ((wFyl.wrb (pgFyl 0) FYL_STATUS_failed true).wr (pgFyl 0) FYL_STATUS_peer_lstate 1)
def wNoClk : State := wFyl.wrb (fylCsu 0) CSU_STATUS_locked false
def wFyChk : State := (wFyl.setFyl 0 (fun x => { x with chkEff := 255, patEff := 5, prbsLock := 4 })).setPrbs (fyPrbs 0 2) (fun x => { x with chk := { reg := 127, locked := true } })
def segDone : SegDone := { payload := List.replicate 512 7, mfas := 0, first := 0, lineOff := 0x8000 }
/-- The marker of logical lane 7 of link 0, ACTIVE, as it stands on the lane. -/
def markLevels : List Nat := pam4 (blockBits false (markerBytes 7 0 2) ++ [false])
def fyPattern : List Nat := ((wFyChk.setFyl 0 (fun x => { x with genEff := 255 })).genLevels (fyPrbs 0 1) 5 80).1

theorem wit_FybryLanes_1 :
    wFyl.dom = .run ∧ 0 < 96 ∧ 2 < 8 ∧ (-16 : Int) = clampInt (-32) 0 (toSigned 8 (getBits 0x1F0000F0 7 0)) ∧ (0 : Int) = clampInt (-24) 0 (toSigned 8
      (getBits 0x1F0000F0 15 8)) ∧ 80 ≤ (128 - ((-16 : Int).natAbs + (0 : Int).natAbs) : Int) := by
  decide +kernel

theorem wit_FybryLanes_2 :
    wFyl.dom = .run ∧ 0 < 96 ∧ 2 < 8 ∧ (-32 : Int) = clampInt (-32) 0 (toSigned 8 (getBits 0x0A00E8E0 7 0)) ∧ (-24 : Int) = clampInt (-24) 0 (toSigned
      8 (getBits 0x0A00E8E0 15 8)) ∧ (128 - ((-32 : Int).natAbs + (-24 : Int).natAbs) : Int) < 80 := by
  decide +kernel

theorem wit_FybryLanes_3 :
    (wFyl.setFyl 0 (fun x => { x with trained := false })).dom = .run ∧ (wFyl.setFyl 0 (fun x => { x with trained := false })).linkRuns 0 = true ∧
      (wFyl.setFyl 0 (fun x => { x with trained := false })).linkClock 0 = true ∧ (wFyl.setFyl 0 (fun x => { x with trained := false })).rd (pgFyl 0)
      FYL_STATUS_sig_det = 255 := by
  decide +kernel

theorem wit_FybryLanes_4 :
    wMark.dom = .run ∧ 0 < 96 ∧ 7 < 8 ∧ wMark.linkRuns 0 = true ∧ (wMark.fyl 0).trained = true ∧ findMarker (wMark.fylSeen 0 7
      ({ levels := markLevels, lag := 10 } : Marker).levels) = some ((⟨7, 0, 2⟩, false) : MarkerFields × Bool) := by
  decide +kernel

theorem wit_FybryLanes_5 :
    wMark.dom = .run ∧ 0 < 96 ∧ 7 < 8 ∧ wMark.linkRuns 0 = true ∧ wMark.regionSpeaks (fylRegion 0) = true ∧ findMarker (wMark.fylSeen 0 7
      ({ levels := markLevels, lag := 10 } : Marker).levels) = some ((⟨7, 0, 2⟩, false) : MarkerFields × Bool) ∧ (wMark.fyl 0).trained = true ∧
      wMark.linkAligned 0 = false ∧ wMark.rd (pgFyl 0) FYL_STATUS_lane_lock ||| 2 ^ 7 = 255 ∧ ((List.range 8).all fun i => (List.range 8).any fun j =>
      decide ((if j = 7 then ((⟨7, 0, 2⟩, false) : MarkerFields × Bool).1.logical + 1 else (wMark.fyl 0).logical.get 0 j) = i + 1)) = true ∧
      (((List.range 8).all fun j => decide (j = 7 ∨ (wMark.fyl 0).lags.get 0 j = ({ levels := markLevels, lag := 10 } : Marker).lag)) = true) := by
  decide +kernel

theorem wit_FybryLanes_6 :
    wFyl.dom = .run ∧ 0 < 96 ∧ 3 < 8 ∧ wFyl.regionSpeaks (fylRegion 0) = true ∧ bit (wFyl.rd (pgFyl 0) FYL_STATUS_lane_lock) 3 = true ∧
      wFyl.linkAligned 0 = true ∧ wFyl.linkRole 0 ≠ 0 ∧ wFyl.linkFailed 0 = false ∧ wFyl.leavesUse 0 = false := by
  decide +kernel

theorem wit_FybryLanes_7 :
    wFyl.dom = .run ∧ 0 < 96 ∧ 1 < 8 ∧ wFyl.linkRuns 0 = true ∧ bit (wFyl.rd (pgFyl 0) FYL_STATUS_lane_lock) 1 = true ∧ (levelSymbols
      (wFyl.fylReceived 0 1 (List.replicate 2720 1))).length = 544 := by
  decide +kernel

theorem wit_FybryLanes_8 :
    wFyl.dom = .run ∧ 0 < 96 ∧ 1 < 8 ∧ wFyl.linkRuns 0 = true ∧ wFyl.regionSpeaks (fylRegion 0) = true ∧ bit (wFyl.rd (pgFyl 0) FYL_STATUS_sig_det) 1
      = true := by
  decide +kernel

theorem wit_FybryLanes_9 :
    wFyl.dom = .run ∧ 0 < 96 ∧ 1 < 8 ∧ wFyl.linkRuns 0 = true := by
  decide +kernel

theorem wit_FybryLanes_10 :
    wFyChk.dom = .run ∧ 0 < 96 ∧ 1 < 8 ∧ wFyChk.linkRuns 0 = true ∧ bit (wFyChk.fyl 0).chkEff 1 = true ∧ (wFyChk.fybryCheck 0 1 fyPattern).1.locked =
      true := by
  decide +kernel

theorem wit_FybryLanes_11 :
    wFyChk.dom = .run ∧ 0 < 96 ∧ 2 < 8 ∧ wFyChk.linkRuns 0 = true ∧ wFyChk.regionSpeaks (fylRegion 0) = true ∧ bit (wFyChk.fyl 0).chkEff 2 = true ∧
      (wFyChk.fybryCheck 0 2 (List.replicate 80 0)).2.2 = true := by
  decide +kernel

theorem wit_FybrySegments_1 :
    wFyl.dom = .run ∧ 0 < 96 ∧ wFyl.linkRuns 0 = true ∧ wFyl.linkAligned 0 = true ∧ wFyl.regionSpeaks (fylRegion 0) = true ∧
      ({ rxOf segFlow with seg := { segFlow with crc := 1 } } : SegRx).seg.crc ≠ crc16 (segHeader
      ({ rxOf segFlow with seg := { segFlow with crc := 1 } } : SegRx).seg) ∧ wFyl.linkSync 0 = true := by
  decide +kernel

theorem wit_FybrySegments_2 :
    wFyl.dom = .run ∧ 0 < 96 ∧ wFyl.linkRuns 0 = true ∧ wFyl.linkAligned 0 = true ∧ (rxOf
      { segFlow with typ := 0, flow := 0, payload := List.replicate 128 1 }).seg.crc = crc16 (segHeader (rxOf
      { segFlow with typ := 0, flow := 0, payload := List.replicate 128 1 }).seg) ∧ (rxOf
      { segFlow with typ := 0, flow := 0, payload := List.replicate 128 1 }).seg.typ = 0 ∧ (wFyl.fyl 0).unalignAt ≠ wFyl.dpCycle + 1 := by
  decide +kernel

theorem wit_FybrySegments_3 :
    wFyl.dom = .run ∧ 0 < 96 ∧ wFyl.linkRuns 0 = true ∧ wFyl.linkAligned 0 = true ∧ (rxOf segFlow).seg.crc = crc16 (segHeader (rxOf segFlow).seg) ∧
      wFyl.linkFailed 0 = false ∧ 1 ≤ (rxOf segFlow).seg.typ ∧ wFyl.regionOff (fylRegion 0) = false ∧ wFyl.datapath (fylRegion 0) = true ∧
      wFyl.carriesFlows 0 = true ∧ (rxOf segFlow).seg.flow < 8192 ∧ wFyl.rxF (fylRegion 0) (rxOf segFlow).seg.flow RXF_CFG.valid ≠ 0 ∧ typeForm (rxOf
      segFlow).seg.typ = some (wFyl.rxF (fylRegion 0) (rxOf segFlow).seg.flow RXF_CFG.kind, wFyl.rxF (fylRegion 0) (rxOf segFlow).seg.flow
      RXF_CFG.short) ∧ (rxOf segFlow).seg.off = false ∧ wFyl.rxSt (fylRegion 0) (rxOf segFlow).seg.flow RXF_STATUS.state = rxIdle := by
  decide +kernel

theorem wit_FybrySegments_4 :
    wFyl.dom = .run ∧ 0 < 96 ∧ wFyl.linkRuns 0 = true ∧ wFyl.linkClock 0 = true ∧ (wFyl.fyl 0).lbEff ≠ 3 ∧ (wFyl.creditAhead 0).slotChoice 0 = none := by
  decide +kernel

theorem wit_FybrySegments_5 :
    wQueue.dom = .run ∧ 0 < 96 ∧ wQueue.linkRuns 0 = true ∧ wQueue.linkClock 0 = true ∧ (wQueue.fyl 0).lbEff ≠ 3 ∧ (wQueue.creditAhead 0).slotChoice 0
      = some ((3, segFlow) : Nat × Seg) ∧ ((3, segFlow) : Nat × Seg).2.cls = 0 ∧ (wQueue.fyl 0).q0 ≠ [] := by
  decide +kernel

theorem wit_FybrySegments_6 :
    wSrc.dom = .run ∧ wSrc.flowSources 0 3 = (FlowSrc.ctx 0 0) :: ([] : List FlowSrc) ∧ wSrc.datapath 0 = true ∧ wSrc.regionOff 0 = false ∧
      wSrc.srcStamped (FlowSrc.ctx 0 0) = false ∧ wSrc.mayCut 0 3 (FlowSrc.ctx 0 0) segDone = true ∧ (wSrc.srcBytes (FlowSrc.ctx 0 0) (if wSrc.txF 0 3
      TXF_CFG.short ≠ 0 then 128 else 512) false segDone).1 = some (List.replicate 512 7) ∧ (wSrc.positions 0).map wSrc.posServer = [0] ∧ wSrc.hasRoom
      0 (wSrc.txF 0 3 TXF_CFG.cls) = true := by
  decide +kernel

theorem wit_FybryFlows_1 :
    wWin.dom = .run ∧ (wWin.rxo 0 3).held = [(⟨segFlow, false, ⟨0, false, 0⟩⟩ : RxHeld)] ∧ wWin.rxSt 0 3 RXF_STATUS.state = rxRun ∧ (⟨segFlow, false,
      ⟨0, false, 0⟩⟩ : RxHeld).seg.seq < 65536 ∧ 2 = ((⟨segFlow, false, ⟨0, false, 0⟩⟩ : RxHeld).seg.seq + 65536 - wWin.rxSt 0 3 RXF_STATUS.e) % 65536
      ∧ (wWin.arrivalAhead 0 3 (fun q => decide (q % 65536 = wWin.rxSt 0 3 RXF_STATUS.e ∨ (64 ≤ (q + 65536 - wWin.rxSt 0 3 RXF_STATUS.e) % 65536 ∧ (q
      + 65536 - wWin.rxSt 0 3 RXF_STATUS.e) % 65536 < 32768))) = false) := by
  decide +kernel

theorem wit_FybryFlows_2 :
    wWin.dom = .run ∧ 0 < 8 ∧ wWin.regionSpeaks 0 = true ∧ wWin.rxF 0 3 RXF_CFG.valid ≠ 0 ∧ wWin.rxSt 0 3 RXF_STATUS.state = rxRun ∧ wWin.arrivalAhead
      0 3 (fun _ => true) = false := by
  decide +kernel

theorem wit_FybryFlows_3 :
    wNoClk.dom = .run ∧ 0 < 96 ∧ wNoClk.regionSpeaks (fylRegion 0) = true ∧ wNoClk.linkRole 0 ≠ 0 ∧ wNoClk.linkFailed 0 = false ∧ wNoClk.leavesUse 0 =
      false ∧ wNoClk.linkClock 0 = false := by
  decide +kernel

theorem wit_FybryFlows_4 :
    wFyl.dom = .run ∧ 0 < 96 ∧ wFyl.regionSpeaks (fylRegion 0) = true ∧ wFyl.linkRole 0 = roleWorking ∧ wFyl.linkFailed 0 = false ∧ wFyl.leavesUse 0 =
      false ∧ wFyl.understudy (fylRegion 0) = some 1 ∧ wFyl.linkFailed 1 = false ∧ wFyl.covering (fylRegion 0) = 0xF := by
  decide +kernel

theorem wit_FybryFlows_5 :
    wFailed.dom = .run ∧ 0 < 96 ∧ wFailed.regionSpeaks (fylRegion 0) = true ∧ wFailed.linkFailed 0 = true ∧ wFailed.linkAligned 0 = true ∧
      wFailed.linkSync 0 = true ∧ wFailed.rd (pgFyl 0) FYL_STATUS_peer_lstate = lsStandby ∧ (wFailed.fyl 0).failAt ≠ wFailed.dpCycle + 1 ∧
      wFailed.failAhead 0 = false := by
  decide +kernel

/-! ### Overhead queues and check units (file 10) -/

/-- Capture channel 4 and insertion channel 6 of region 0, raw of 8 bytes on GCC0 of slice 0, owned by box 0. -/
def wOhq : State := ((wOn.wRow (pgOhq 0) T_CAP_CFG 4 [(CHN.valid, 1), (CHN.mode, 1), (CHN.raw_len_m1, 7), (CHN.size, 1)]).wRow
  (pgOhq 0) T_INS_CFG 6 [(CHN.valid, 1), (CHN.mode, 1), (CHN.raw_len_m1, 7), (CHN.size, 1)])
def wOhqCut : State := (wOhq.wRow (pgOhq 0) T_CAP_CFG 4 [(CHN.valid, 1), (CHN.mode, 1), (CHN.raw_len_m1, 7), (CHN.size, 1), (CHN.cut, 1)]).setCap 0 4
  (fun x => { x with inside := true, cur := [(2 ^ 24, false)] })
def pkt0 : Pkt := { hdr := 3, words := [(3 * 2 ^ 24 + 7, false)] }
def wCapSel : State := (wOhq.wr (rqPage (pgOhq 0) .sm) OHQ_SEL_ch 4).setCap 0 4 (fun x => { x with done := [pkt0] })
def wCapIn : State := wCapSel.setCap 0 4 (fun x => { x with inside := true, cur := [(3 * 2 ^ 24 + 7, false)], flush := none })
def wCapEmpty : State := wCapSel.setCap 0 4 (fun x => { x with done := [] })
def wInsSel : State := (wOhq.wr (rqPage (pgOhq 0) .sm) OHQ_SEL_ch 6).wrb (rqPage (pgOhq 0) .sm) OHQ_SEL_dir true
def wCapFlush : State := wCapSel.setCap 0 4 (fun x => { x with flush := some (1, []) })
def wChk : State := (wOn.wr (pgChk 3) CHK_CFG_width 16).wr (pgChk 3) CHK_INIT_value 0xFFFF
def wChkOpen : State := wChk.chkBegin 3 1
def wChkHeld : State := wChk.chkBegin 3 0

theorem wit_OverheadQueues_1 :
    wCapSel.dom = .run ∧ 0 < 8 ∧ wCapSel.admitCode whoSm (pgOhq 0) false = bsOk ∧ 4 = wCapSel.rd (reqPage (pgOhq 0) whoSm) OHQ_SEL_ch ∧ wCapSel.rdb
      (reqPage (pgOhq 0) whoSm) OHQ_SEL_dir = false ∧ wCapSel.chValid 0 0 4 = true ∧ wCapSel.chOwned whoSm 0 0 4 = true ∧ (wCapSel.cap 0 4).inside =
      false ∧ (wCapSel.cap 0 4).flush = none ∧ (wCapSel.cap 0 4).done = pkt0 :: ([] : List Pkt) ∧ pkt0.hdrBad = false := by
  decide +kernel

theorem wit_OverheadQueues_2 :
    wCapIn.dom = .run ∧ 0 < 8 ∧ wCapIn.admitCode whoSm (pgOhq 0) false = bsOk ∧ 4 = wCapIn.rd (reqPage (pgOhq 0) whoSm) OHQ_SEL_ch ∧ wCapIn.rdb
      (reqPage (pgOhq 0) whoSm) OHQ_SEL_dir = false ∧ wCapIn.chValid 0 0 4 = true ∧ wCapIn.chOwned whoSm 0 0 4 = true ∧ (wCapIn.cap 0 4).inside = true
      ∧ (wCapIn.cap 0 4).cur = ((3 * 2 ^ 24 + 7), false) :: ([] : List (Nat × Bool)) := by
  decide +kernel

theorem wit_OverheadQueues_3 :
    wCapEmpty.dom = .run ∧ 0 < 8 ∧ wCapEmpty.admitCode whoSm (pgOhq 0) false = bsOk ∧ 4 = wCapEmpty.rd (reqPage (pgOhq 0) whoSm) OHQ_SEL_ch ∧
      wCapEmpty.rdb (reqPage (pgOhq 0) whoSm) OHQ_SEL_dir = false ∧ wCapEmpty.chValid 0 0 4 = true ∧ wCapEmpty.chOwned whoSm 0 0 4 = true ∧
      (wCapEmpty.cap 0 4).inside = false ∧ (wCapEmpty.cap 0 4).flush = none ∧ (wCapEmpty.cap 0 4).done = [] := by
  decide +kernel

theorem wit_OverheadQueues_4 :
    wInsSel.dom = .run ∧ 0 < 8 ∧ wInsSel.admitCode whoSm (pgOhq 0) true = bsOk ∧ 6 = wInsSel.rd (reqPage (pgOhq 0) whoSm) OHQ_SEL_ch ∧ wInsSel.rdb
      (reqPage (pgOhq 0) whoSm) OHQ_SEL_dir = true ∧ wInsSel.chValid 0 1 6 = true ∧ wInsSel.chOwned whoSm 0 1 6 = true ∧ bit 0x23000102 31 = false ∧
      bit 0x23000102 30 = false ∧ bit 0x23000102 29 = true ∧ (wInsSel.ins 0 6).writer = none ∧ (wInsSel.ins 0 6).skip = false ∧ (wInsSel.ins 0 6).wr =
      [] ∧ (wInsSel.ins 0 6).flushAt ≠ wInsSel.dpCycle + 1 ∧ (wInsSel.ins 0 6).wrBytes + getBits 0x23000102 25 24 ≤ wInsSel.chLen 0 1 6 ∧ insUsed
      (wInsSel.ins 0 6) < wInsSel.chWords 0 1 6 := by
  decide +kernel

theorem wit_OverheadQueues_5 :
    wCapSel.dom = .run ∧ 0 < 8 ∧ wCapSel.admitCode whoSm (pgOhq 0) true = bsOk ∧ wCapSel.ohqJudge whoSm 0 0 4 0 = ohqDone ∧ (wCapSel.cap 0 4).inside =
      false := by
  decide +kernel

theorem wit_OverheadQueues_6 :
    wCapIn.dom = .run ∧ 0 < 8 ∧ wCapIn.admitCode whoSm (pgOhq 0) true = bsOk ∧ wCapIn.ohqJudge whoSm 0 0 4 0 = ohqDone ∧ (wCapIn.cap 0 4).inside =
      true := by
  decide +kernel

theorem wit_OverheadQueues_7 :
    wCapFlush.dom = .run ∧ (wCapFlush.cap 0 4).flush = some (1, ([] : List Nat)) ∧ (wCapFlush.cap 0 4).inside = false := by
  decide +kernel

theorem wit_OverheadQueues_8 :
    wOhqCut.dom = .run ∧ 0 < 8 ∧ wOhqCut.admitCode whoSm (pgOhq 0) true = bsOk ∧ wOhqCut.ohqJudge whoSm 0 0 4 1 = ohqDone ∧ wOhqCut.chMode 0 0 4 ≠
      mAps ∧ (wOhqCut.cap 0 4).inside = true ∧ (wOhqCut.readSoon 0 4 && decide ((wOhqCut.cap 0 4).cur.length ≤ 1)) = false := by
  decide +kernel

theorem wit_CheckUnits_1 :
    wChk.dom = .run ∧ 3 < 32 ∧ wChk.admitCode whoSm (pgChk 3) true = bsOk ∧ wChk.chkAllowed 3 whoSm.master = true := by
  decide +kernel

theorem wit_CheckUnits_2 :
    wChkHeld.dom = .run ∧ 3 < 32 ∧ wChkHeld.admitCode whoSm (pgChk 3) true = bsOk ∧ wChkHeld.chkAllowed 3 whoSm.master = false := by
  decide +kernel

theorem wit_CheckUnits_3 :
    wChkOpen.dom = .run ∧ 3 < 32 ∧ wChkOpen.admitCode whoSm (pgChk 3) true = bsOk ∧ wChkOpen.chkAllowed 3 whoSm.master = true ∧ wChkOpen.chkOpen 3 =
      true ∧ (chkOrder (wChkOpen.rdb (pgChk 3) CHK_CFG_refin) 4 (feedBits (wChkOpen.rdb (pgChk 3) CHK_FEED_CFG_order) (wChkOpen.rd (pgChk 3)
      CHK_FEED_CFG_bits) 0x12345678)) = chkOrder (wChkOpen.rdb (pgChk 3) CHK_CFG_refin) 4 (feedBits (wChkOpen.rdb (pgChk 3) CHK_FEED_CFG_order)
      (wChkOpen.rd (pgChk 3) CHK_FEED_CFG_bits) 0x12345678) := by
  decide +kernel

theorem wit_CheckUnits_4 :
    wChkOpen.dom = .run ∧ 3 < 32 ∧ wChkOpen.admitCode whoSm (pgChk 3) true = bsOk ∧ wChkOpen.chkAllowed 3 whoSm.master = true ∧ wChkOpen.chkOpen 3 =
      true := by
  decide +kernel

theorem wit_CheckUnits_5 :
    wChkOpen.dom = .run ∧ 3 < 32 ∧ wChkOpen.admitCode whoSm (pgChk 3) true = bsOk ∧ wChkOpen.chkAllowed 3 whoSm.master = true := by
  decide +kernel

/-! ### Stage Door Port and Call Board Bus (file 11) -/

/-- The stage door port running, with a frame waiting in receive queue 0 and one in transmit queue 7. -/
def wSdp : State := ((wOn.wrb pgSdp PAGE_CTRL_run true).wr pgSdp SDP_MAC_addr 0x060504030201)
def wFcs (b : List Nat) : List Nat := b ++ fcsBytes 1 (fcsFeed 1 (fcsInit 1) b)
def frMine : List Nat := wFcs ([1, 2, 3, 4, 5, 6, 9, 9, 9, 9, 9, 9, 8, 0] ++ List.replicate 46 0)
def frPause : List Nat := wFcs ([1, 0x80, 0xC2, 0, 0, 1, 9, 9, 9, 9, 9, 9, 0x88, 8, 0, 1, 0, 5] ++ List.replicate 42 0)
def frPoison : List Nat := frMine.set 20 1
def wSdpPause : State := wSdp.wrb pgSdp SDP_CFG_pause_en true
def wSdpRx : State := { wSdp with sdpRx0 := [{ bytes := [1, 2, 3, 4, 5, 6, 7], trunc := false, stamp := none }] }
def wSdpCur : State := { wSdp with sdpCur := wSdp.sdpCur.set [] (rqPage pgSdp .sm) [1, 2, 3, 4, 5] }
def wSdpWr : State := { wSdp with sdpWr := wSdp.sdpWr.set {} (rqPage pgSdp .sm) { active := true, q := 3, len := 16, bytes := List.replicate 12 7, id := 1 }, sdpStarts := 1, sdpLast := wSdp.sdpLast.set 0 (rqPage pgSdp .sm) 1 }
def wSdpTx : State := wSdp.setTxq 7 [{ bytes := List.replicate 20 1, commit := 0, who := rqPage pgSdp .sm, id := 1 }]
def wSdpAged : State := { wSdpTx with dpCycle := 1000000, sdpRows := [(0, 8, 0), (8, 8, 0), (16, 8, 0), (24, 8, 0), (32, 8, 0), (40, 8, 0), (48, 8, 0), (56, 8, 1)] }
def wSdpHeld : State := wSdp.wr pgSdp SDP_STATUS_paused 8
def wDark : State := { (State.reset.wr pgMode MODE_current modeDark) with dom := .dark }
def wWake : State := (((wDark.wr pgSdp SDP_MAC_addr 0x060504030201).wrb pgSdp (SDP_WAKE_CFG_en 2) true).setEntry pgSdp T_WAKE_MASK 2 1).wr pgSdp (SDP_WAKE_CFG_crc 2) (crc16 [1])
def wCbb : State := (((wOn.wr pgCbb CBB_CFG_addr 4).wr pgCbb CBB_CFG_mate 9).wrb pgCbb CBB_CFG_cc_en true).wr pgCbb CBB_BUS_state busToken
def cbbPoll : CbbRx := { line := cbbLine (cbbBytes 4 7 cbPoll []), start := 0, collides := false }
def cbbDatum : CbbRx := { cbbPoll with line := cbbLine (cbbBytes 4 7 cbData [1, 2]) }
def wCbbTx : State := { wCbb with cbbTx := some { typ := cbData, dst := 9, len := 8, bytes := [], who := rqPage pgCbb .sm } }
def wCbbMaster : State := wCbb.wr pgCbb CBB_BUS_state busMaster
def wCbbNext : State := { wCbb with cbbNext := some 7, cbbRing := [(7, 0)] }
def wCbbMiss : State := (wCbb.wr pgCbb CBB_CC_STATUS_state ccScheduled).wr pgCbb CBB_CC_STATUS_misses 1
def wCbbOpen : State := wCbb.wr pgCbb CBB_CC_STATUS_state ccOpenHouse

theorem wit_StageDoorReceive_1 :
    wSdp.dom = .run ∧ wSdp.mode ≠ modeDark ∧ wSdp.sdpRuns = true ∧ wSdp.sdpCarries = true ∧ by16 frMine 12 ≠ 0x8808 ∧ wSdp.addrPass frMine = true ∧
      wSdp.sdpUsed + wSdp.sdpMax + 16 ≤ 262144 ∧ 64 ≤ frMine.length ∧ frMine.length ≤ wSdp.sdpMax ∧ fcsOk frMine = true ∧ wSdp.rdb pgSdp
      SDP_SVC_svc_en = false := by
  decide +kernel

theorem wit_StageDoorReceive_2 :
    wSdp.dom = .run ∧ wSdp.mode ≠ modeDark ∧ wSdp.sdpRuns = true ∧ wSdp.sdpCarries = true ∧ by16 frPoison 12 ≠ 0x8808 ∧ wSdp.addrPass frPoison = true
      ∧ wSdp.sdpUsed + wSdp.sdpMax + 16 ≤ 262144 ∧ 64 ≤ frPoison.length ∧ fcsOk frPoison = false := by
  decide +kernel

theorem wit_StageDoorReceive_3 :
    wSdpPause.dom = .run ∧ wSdpPause.mode ≠ modeDark ∧ wSdpPause.sdpRuns = true ∧ wSdpPause.sdpCarries = true ∧ by16 frPause 12 = 0x8808 ∧ 64 ≤
      frPause.length ∧ fcsOk frPause = true ∧ by16 frPause 14 = 1 ∧ wSdpPause.rdb pgSdp SDP_CFG_pause_en = true ∧ 3 < 8 ∧ bit (wSdpPause.rd pgSdp
      SDP_STATUS_wd_ignore) 3 = false ∧ by16 frPause 16 ≠ 0 := by
  decide +kernel

theorem wit_StageDoorReceive_4 :
    wWake.dom = .dark ∧ wWake.mode = modeDark ∧ wWake.wakeMatches frMine = 2 :: ([] : List Nat) := by
  decide +kernel

theorem wit_StageDoorReceive_5 :
    wSdpRx.dom = .run ∧ wSdpRx.admitCode whoSm pgSdp false = bsOk ∧ (rqPage pgSdp .sm) = reqPage pgSdp whoSm ∧ wSdpRx.rd (rqPage pgSdp .sm)
      SDP_RX_SEL_q = 0 ∧ wSdpRx.sdpRx0 = ({ bytes := [1, 2, 3, 4, 5, 6, 7], trunc := false, stamp := none } : RxFrame) :: ([] : List RxFrame) := by
  decide +kernel

theorem wit_StageDoorReceive_6 :
    wSdp.dom = .run ∧ wSdp.admitCode whoSm pgSdp false = bsOk ∧ (rqPage pgSdp .sm) = reqPage pgSdp whoSm ∧ wSdp.rd (rqPage pgSdp .sm) SDP_RX_SEL_q = 0
      ∧ wSdp.sdpRx0 = [] := by
  decide +kernel

theorem wit_StageDoorReceive_7 :
    wSdpCur.dom = .run ∧ wSdpCur.admitCode whoSm pgSdp false = bsOk ∧ (rqPage pgSdp .sm) = reqPage pgSdp whoSm := by
  decide +kernel

theorem wit_StageDoorTransmit_1 :
    wSdp.dom = .run ∧ wSdp.admitCode whoSm pgSdp true = bsOk ∧ (rqPage pgSdp .sm) = reqPage pgSdp whoSm ∧ 7 < 8 ∧ (wSdp.sdpWr.get {} (rqPage pgSdp
      .sm)).active = false ∧ 14 ≤ 20 ∧ 20 ≤ wSdp.sdpMax - 4 ∧ 20 ≤ (wSdp.sdpRow 7).2.1 * 4096 ∧ wSdp.sdpWr.any (fun x => x.2.active && decide (x.2.q =
      7)) = false := by
  decide +kernel

theorem wit_StageDoorTransmit_2 :
    wSdp.dom = .run ∧ wSdp.admitCode whoSm pgSdp true = bsOk ∧ (rqPage pgSdp .sm) = reqPage pgSdp whoSm ∧ (wSdp.sdpWr.get {} (rqPage pgSdp
      .sm)).active = false ∧ (13 < 14 ∨ wSdp.sdpMax - 4 < 13) := by
  decide +kernel

theorem wit_StageDoorTransmit_3 :
    wSdpWr.dom = .run ∧ wSdpWr.admitCode whoSm pgSdp true = bsOk ∧ (rqPage pgSdp .sm) = reqPage pgSdp whoSm ∧ (wSdpWr.sdpWr.get {} (rqPage pgSdp .sm))
      = wSdpWr.sdpWr.get {} (rqPage pgSdp .sm) ∧ (wSdpWr.sdpWr.get {} (rqPage pgSdp .sm)).active = true ∧ (wSdpWr.sdpWr.get {} (rqPage pgSdp .sm)).len
      ≤ (wSdpWr.sdpWr.get {} (rqPage pgSdp .sm)).bytes.length + 4 ∧ wSdpWr.sdpLast.get 0 (rqPage pgSdp .sm) = (wSdpWr.sdpWr.get {} (rqPage pgSdp
      .sm)).id := by
  decide +kernel

theorem wit_StageDoorTransmit_4 :
    wSdpWr.dom = .run ∧ wSdpWr.admitCode whoSm pgSdp true = bsOk ∧ (rqPage pgSdp .sm) = reqPage pgSdp whoSm ∧ (wSdpWr.sdpWr.get {} (rqPage pgSdp
      .sm)).active = true ∧ wSdpWr.sdpLast.get 0 (rqPage pgSdp .sm) = (wSdpWr.sdpWr.get {} (rqPage pgSdp .sm)).id := by
  decide +kernel

theorem wit_StageDoorTransmit_5 :
    wSdpTx.dom = .run ∧ wSdpTx.sdpRuns = true ∧ wSdpTx.sdpCarries = true ∧ (List.range 8).all (fun k => (wSdpTx.txq k).all (fun g => !wSdpTx.txAged k
      g false)) = true ∧ (List.range 8).reverse.find? (fun k => !(wSdpTx.txq k).isEmpty && !bit (wSdpTx.rd pgSdp SDP_STATUS_paused) k) = some 7 ∧
      wSdpTx.txq 7 = ({ bytes := List.replicate 20 1, commit := 0, who := rqPage pgSdp .sm, id := 1 } : TxFrame) :: ([] : List TxFrame) := by
  decide +kernel

theorem wit_StageDoorTransmit_6 :
    wSdpAged.dom = .run ∧ 7 < 8 ∧ wSdpAged.txq 7 = [({ bytes := List.replicate 20 1, commit := 0, who := rqPage pgSdp .sm, id := 1 } : TxFrame)] ∧
      wSdpAged.txAged 7 ({ bytes := List.replicate 20 1, commit := 0, who := rqPage pgSdp .sm, id := 1 } : TxFrame) (wSdpAged.pending.contains
      .sdpTransmit) = true := by
  decide +kernel

theorem wit_StageDoorTransmit_7 :
    wSdpHeld.dom = .run ∧ 3 < 8 := by
  decide +kernel

theorem wit_StageDoorTransmit_8 :
    wSdpHeld.dom = .run ∧ 3 < 8 ∧ bit (wSdpHeld.rd pgSdp SDP_STATUS_paused) 3 = true := by
  decide +kernel

theorem wit_StageDoorTransmit_9 :
    (wSdp.wr pgSdp SDP_STATUS_wd_ignore 8).dom = .run ∧ 3 < 8 := by
  decide +kernel

theorem wit_StageDoorTransmit_10 :
    (wSdp.wr pgSdp SDP_STAT_HALF_half (2 ^ 40 + 1)).dom = .run ∧ (wSdp.wr pgSdp SDP_STAT_HALF_half (2 ^ 40 + 1)).admitCode whoSm pgSdp false = bsOk ∧
      (rqPage pgSdp .sm) = reqPage pgSdp whoSm ∧ (wSdp.wr pgSdp SDP_STAT_HALF_half (2 ^ 40 + 1)).door.halfAt.1 ≠ (wSdp.wr pgSdp SDP_STAT_HALF_half (2
      ^ 40 + 1)).dpCycle + 1 := by
  decide +kernel

theorem wit_StageDoorTransmit_11 :
    wSdp.dom = .run ∧ wSdp.rdb pgSdp PAGE_CTRL_run = true ∧ wSdp.mode ≠ modeDark := by
  decide +kernel

theorem wit_CallBoardBus_1 :
    cbbGood ((cbbUnline ({ cbbPoll with line := cbbLine [1, 2, 3] } : CbbRx).line).getD []) = false := by
  decide +kernel

theorem wit_CallBoardBus_2 :
    cbbUnline cbbPoll.line = some (cbbBytes 4 7 cbPoll []) ∧ cbbGood (cbbBytes 4 7 cbPoll []) = true ∧ (cbbBytes 4 7 cbPoll []).getD 2 0 = cbPoll ∧
      (cbbBytes 4 7 cbPoll []).getD 0 0 % 128 = wCbb.cbbAddr ∧ cbbPoll.collides = false ∧ wCbb.cbbTx = none := by
  decide +kernel

theorem wit_CallBoardBus_3 :
    cbbUnline cbbDatum.line = some (cbbBytes 4 7 cbData [1, 2]) ∧ cbbGood (cbbBytes 4 7 cbData [1, 2]) = true ∧ (cbbBytes 4 7 cbData [1, 2]).getD 2 0
      = cbData ∧ (cbbBytes 4 7 cbData [1, 2]).getD 0 0 % 128 = wCbb.cbbAddr ∧ wCbb.mode ≠ modeDark ∧ wCbb.cbbRx.length < 16 := by
  decide +kernel

theorem wit_CallBoardBus_4 :
    wCbb.dom = .run ∧ wCbb.admitCode whoSm pgCbb true = bsOk ∧ (rqPage pgCbb .sm) = reqPage pgCbb whoSm ∧ ((cbData = cbData ∧ 8 ≤ 256) ∨ (cbData =
      cbWake ∧ 8 = 0)) ∧ wCbb.cbbTx = none := by
  decide +kernel

theorem wit_CallBoardBus_5 :
    wCbbTx.dom = .run ∧ wCbbTx.admitCode whoSm pgCbb true = bsOk ∧ (rqPage pgCbb .sm) = reqPage pgCbb whoSm ∧ ((cbWake = cbData ∧ 0 ≤ 256) ∨ (cbWake =
      cbWake ∧ 0 = 0)) ∧ wCbbTx.cbbTx ≠ none := by
  decide +kernel

theorem wit_CallBoardBus_6 :
    wCbb.dom = .run ∧ wCbb.admitCode whoSm pgCbb true = bsOk ∧ (rqPage pgCbb .sm) = reqPage pgCbb whoSm ∧ 256 < 257 := by
  decide +kernel

theorem wit_CallBoardBus_7 :
    wCbbTx.dom = .run ∧ wCbbTx.admitCode whoSm pgCbb true = bsOk ∧ (rqPage pgCbb .sm) = reqPage pgCbb whoSm ∧ wCbbTx.cbbTx = some (wCbbTx.cbbTx.getD
      ⟨0, 0, 0, [], 0⟩) ∧ (wCbbTx.cbbTx.getD ⟨0, 0, 0, [], 0⟩).who = (rqPage pgCbb .sm) ∧ (wCbbTx.cbbTx.getD ⟨0, 0, 0, [], 0⟩).bytes.length <
      (wCbbTx.cbbTx.getD ⟨0, 0, 0, [], 0⟩).len := by
  decide +kernel

theorem wit_CallBoardBus_8 :
    wCbbTx.cbbTx = some (wCbbTx.cbbTx.getD ⟨0, 0, 0, [], 0⟩) := by
  decide +kernel

theorem wit_CallBoardBus_9 :
    wCbbMaster.cbbState = busMaster ∧ wCbbMaster.pollSoon = false := by
  decide +kernel

theorem wit_CallBoardBus_10 :
    wCbb.cbbState = busToken ∧ wCbb.mode ≠ modeDark ∧ wCbb.cbbTx = none ∧ wCbb.ringNext wCbb.cbbAddr = none := by
  decide +kernel

theorem wit_CallBoardBus_11 :
    wCbbNext.cbbState = busToken ∧ wCbbNext.mode ≠ modeDark ∧ wCbbNext.cbbTx = none ∧ wCbbNext.ringNext wCbbNext.cbbAddr = some 7 := by
  decide +kernel

theorem wit_CallBoardBus_12 :
    wCbbNext.cbbState = busToken ∧ wCbbNext.cbbNext = some 7 := by
  decide +kernel

theorem wit_CurtainCalls_1 :
    wCbb.rdb pgCbb CBB_CFG_cc_en = true ∧ wCbb.ccLeader = true := by
  decide +kernel

theorem wit_CurtainCalls_2 :
    wCbbMiss.ccState = ccScheduled ∧ wCbbMiss.cbbHeard = false ∧ wCbbMiss.ccSoon = false ∧ wCbbMiss.rd pgCbb CBB_CC_STATUS_misses = 1 := by
  decide +kernel

theorem wit_CurtainCalls_3 :
    ({ wCbbMiss with cbbHeard := true } : State).ccState = ccScheduled ∧ ({ wCbbMiss with cbbHeard := true } : State).cbbHeard = true := by
  decide +kernel

theorem wit_CurtainCalls_4 :
    wCbbOpen.ccState = ccOpenHouse ∧ wCbbOpen.ccSoon = false := by
  decide +kernel

theorem wit_CurtainCalls_5 :
    (wOn.setWake CBB_WAKE_CAUSE_cbb_wake).dom = .run ∧ (wOn.setWake CBB_WAKE_CAUSE_cbb_wake).door.wakeNow = none := by
  decide +kernel

/-! ### Timing (file 12) -/

/-- A clock unit (LG 1) with a reference and a lock; the same after a lost reference, and after a lost lock. -/
def wCsu : State := ((wOn.wrb (pgCsu 1) CSU_STATUS_ref_ok true).wrb (pgCsu 1) CSU_STATUS_locked true).wrb (pgCsu 1) CSU_STATUS_gated false
def wCsuNoRef : State := ((wOn.wrb (pgCsu 1) CSU_STATUS_ref_ok false).wr pgMode MODE_current modeIntermission).setCsu 1 (fun c => { c with banded := true })
def wCsuFell : State := (wOn.wrb (pgCsu 1) CSU_STATUS_ref_ok true).setCsu 1 (fun c => { c with banded := true })
def wCsuBand : State := (wCsu.wr pgMode MODE_current modeAudit).wRow (pgCsu 1) T_CSU_BAND 3 [(CSU_BAND.valid, 1), (CSU_BAND.f_lo, 50000), (CSU_BAND.f_hi, 60000), (CSU_BAND.tc, 100)]
def wCsuRun : State := (wOn.wrb (pgCsu 1) CSU_STATUS_ref_ok true).setCsu 1 (fun c => { c with reband := .running, waiting := [rqPage (pgCsu 1) .sm], selType := 1 })
/-- Both PPS inputs lost but one edge short of a qualified input 0; the input qualified; and locked on it. -/
def wPps : State := { wOn with tb := { sec := 9, ns := 0, frac := 0 }, pps := wOn.pps.set {} 0 { runs := 2, last := some 8000000000, lastAcc := none } }
def wPpsOk : State := { ((wOn.wrb pgTim TIM_STATUS_pps0_ok true).wr pgTim TIM_STEP_thresh 2000).wr pgTim TIM_CFG_pps_sel 0 with tb := { sec := 8, ns := 999999000, frac := 0 }, tim := { wOn.tim with todNext := some 9 } }
def wPpsLock : State := { ((wPpsOk.wr pgTim TIM_STATUS_quality 0).wrb pgTim TIM_STATUS_time_set true) with tim := { wOn.tim with everLocked := true, lockRun := 2, theta := some 5 } }
def wHoldover : State := (wPpsLock.wrb pgTim TIM_STATUS_pps0_ok false).wr pgTim TIM_CFG_holdover_h 24
def wTod : List Nat := [0xA5, 0x5A, 1, 10, 0, 0, 0, 0, 1, 2, 3, 4, 5, 6]
def wTodWait : State := { wPps with pps := wPps.pps.set {} wPps.ppsActive { runs := 2, last := some 8500000000, lastAcc := none } }
def wTodMsg : List Nat := wTod ++ [crc16 (wTod.drop 2) / 256, crc16 (wTod.drop 2) % 256]
def wTs : State := { wOn with tsLog := [2 ^ 100 + 7, 9] }

theorem wit_ClockUnits_1 :
    wCsu.dom = .run ∧ 1 < csuUnits ∧ wCsu.rdb (pgCsu 1) CSU_STATUS_ref_ok = true := by
  decide +kernel

theorem wit_ClockUnits_2 :
    wCsuNoRef.dom = .run ∧ 1 < csuUnits ∧ wCsuNoRef.rdb (pgCsu 1) CSU_STATUS_ref_ok = false ∧ (wCsuNoRef.csu 1).reband ≠ .held := by
  decide +kernel

theorem wit_ClockUnits_3 :
    wCsu.dom = .run ∧ 1 < csuUnits ∧ wCsu.rdb (pgCsu 1) CSU_STATUS_locked = true := by
  decide +kernel

theorem wit_ClockUnits_4 :
    wCsuFell.dom = .run ∧ 1 < csuUnits ∧ 1 ≠ 0 ∧ (wCsuFell.csu 1).banded = true ∧ (wCsuFell.csu 1).reband = .none ∧ wCsuFell.rdb (pgCsu 1)
      CSU_STATUS_ref_ok = true ∧ wCsuFell.rdb (pgCsu 1) CSU_STATUS_locked = false := by
  decide +kernel

theorem wit_ClockUnits_5 :
    wCsu.dom = .run ∧ wCsu.admitCode whoSm (pgCsu 1) true = bsOk ∧ 1 < csuUnits ∧ (rqPage (pgCsu 1) .sm) = rqPage (pgCsu 1) whoSm.master ∧
      wCsu.rebandAllowed 1 whoSm = false := by
  decide +kernel

theorem wit_ClockUnits_6 :
    wCsuBand.dom = .run ∧ wCsuBand.admitCode whoSm (pgCsu 1) true = bsOk ∧ 1 < csuUnits ∧ (rqPage (pgCsu 1) .sm) = rqPage (pgCsu 1) whoSm.master ∧ 1 ≠
      0 ∧ wCsuBand.rebandAllowed 1 whoSm = true ∧ wCsuBand.rdb (pgCsu 1) CSU_STATUS_ref_ok = true ∧ wCsuBand.refLostSoon 1 = false ∧
      wCsuBand.chooseBand 1 (if isLg 1 then wCsuBand.rd (pgCsu 1) CSU_CFG_ref_type else 0) (560 : Int) = some 3 := by
  decide +kernel

theorem wit_ClockUnits_7 :
    wCsuRun.dom = .run ∧ 1 < csuUnits ∧ (wCsuRun.csu 1).reband = .running ∧ (wCsuRun.csu 1).waiting.all (fun p => decide (p % 65536 = pgCsu 1)) = true := by
  decide +kernel

theorem wit_ClockUnits_8 :
    wCsu.dom = .run ∧ 1 < csuUnits ∧ wCsu.rdb (pgCsu 1) CSU_STATUS_locked = true ∧ 3 < wCsu.rd (pgCsu 1) CSU_CFG_edge_pct ∧ wCsu.rdb (pgCsu 1)
      CSU_STATUS_band_edge = false := by
  decide +kernel

theorem wit_TimeBaseInputs_1 :
    wPps.dom = .run ∧ 0 < 2 ∧ wPps.tb.ns ≤ 800 ∧ 800 < 1000000000 ∧ wPps.ppsOk 0 = false ∧ (PpsIn.mk 2 (some 8000000000) none) = wPps.pps.get {} 0 ∧
      (PpsIn.mk 2 (some 8000000000) none).runs = 2 ∧ (PpsIn.mk 2 (some 8000000000) none).spaced (wPps.tb.sec * secNs + 800) = true := by
  decide +kernel

theorem wit_TimeBaseInputs_2 :
    wPpsOk.dom = .run ∧ wPpsOk.tb.ns ≤ 999999500 ∧ 999999500 < 1000000000 ∧ wPpsOk.rd pgTim TIM_CFG_pps_sel = 0 ∧ wPpsOk.ppsOk 0 = true ∧
      wPpsOk.tim.todNext = some 9 ∧ wPpsOk.rd pgTim (TIM_PPS_DELAY_delay 0) = 0 ∧ (500 : Int) = 9 * secNs - (wPpsOk.tb.sec * secNs + 999999500) ∧
      wPpsOk.ppsInWindow (500 : Int) = true ∧ (500 : Int).natAbs < wPpsOk.rd pgTim TIM_STEP_thresh ∧ (500 : Int) ≠ 0 := by
  decide +kernel

theorem wit_TimeBaseInputs_3 :
    wPpsLock.dom = .run ∧ 0 < 2 ∧ wPpsLock.ppsOk 0 = true := by
  decide +kernel

theorem wit_TimeBaseInputs_4 :
    wTodWait.dom = .run ∧ wTodMsg = (uartChars (((wTodMsg.flatMap uartChar).length + 9) / 10) (wTodMsg.flatMap uartChar)).getD [] ∧ todGood wTodMsg =
      true ∧ (wTodWait.tbTo 5).todInTime = true := by
  decide +kernel

theorem wit_TimeBaseInputs_5 :
    wPps.dom = .run ∧ (todGood ((uartChars (((wTodMsg.flatMap uartChar).length + 9) / 10) (wTodMsg.flatMap uartChar)).getD []) && (wPps.tbTo
      5).todInTime) = false := by
  decide +kernel

theorem wit_TimeBaseInputs_6 :
    ({ wPpsOk with tim := { wPpsOk.tim with sigma := 10, rho := 400 } } : State).dom = .run ∧
      ({ wPpsOk with tim := { wPpsOk.tim with sigma := 10, rho := 400 } } : State).tim.sigma ≠ 0 := by
  decide +kernel

theorem wit_TimeBaseInputs_7 :
    wHoldover.dom = .run ∧ wHoldover.rd pgTim TIM_CFG_holdover_h ≠ 0 ∧ wHoldover.baseQuality = 1 ∧ wHoldover.overThresh = false ∧ wHoldover.edgeNow =
      false := by
  decide +kernel

theorem wit_TimeBaseInputs_8 :
    (wPps.wrb pgTim TIM_TOD_OUT_en true).dom = .run ∧ (wPps.wrb pgTim TIM_TOD_OUT_en true).rdb pgTim TIM_TOD_OUT_en = true := by
  decide +kernel

theorem wit_TimeBaseInputs_9 :
    wPps.dom = .run ∧ wPps.admitCode whoSm pgTim false = bsOk := by
  decide +kernel

theorem wit_TimeBaseInputs_10 :
    wPpsOk.dom = .run ∧ wPpsOk.admitCode whoSm pgTim true = bsOk ∧ wPpsOk.ppsAny = true := by
  decide +kernel

theorem wit_TimeBaseInputs_11 :
    wPps.dom = .run ∧ wPps.admitCode whoSm pgTim true = bsOk ∧ wPps.ppsAny = false ∧ wPps.qualifiesSoon (fun _ => true) = false := by
  decide +kernel

theorem wit_TimeBaseInputs_12 :
    wTs.dom = .run ∧ wTs.admitCode whoSm pgTim false = bsOk := by
  decide +kernel

/-! ### Host interface and boxes (file 13) -/

/-- The host link up, the CALL sequence past step 2, one VF. -/
def wHst : State := { ((wOn.wrb pgHst HST_LINK_up true).wr pgMode MODE_CALL_step 7) with numVfs := 1 }
def wApt : State := (wHst.wrb pgHst HST_APT_CFG_en true).wrb pgHst HST_APT_CFG_wr_en true |>.wr pgHst HST_APT_BASE_base 0x2000000000
def rqRead : HostReq := ⟨0, 0, 0x10000000, .read, 5, 15, 0, 1, false, false, false, [], 0, []⟩
def rqWrite : HostReq := ⟨0, 0, 0x10000004, .write [0xA1B2C3D4], 0, 15, 0, 1, false, false, false, [], 0, []⟩
def rqBad : HostReq := ⟨2, 2, 0, .read, 5, 15, 0, 1, false, false, false, [], 0, []⟩
def wVec13 : State := { wHst with vecs := wHst.vecs.set {} (vecKey 1 3) { pending := true, masked := false }, fns := wHst.fns.set {} 1 { msixEn := true, msixMask := false } }
def wFlr : State := { wHst.wr (pgBox 1) BOX_PM_STATUS_state 4 with notices := wHst.notices.set [] 1 [7] }
def wDma : State := (wHst.wr pgHst (HST_DMA_SRC_addr 2) 0x2000000000).wr pgHst (HST_DMA_LEN_len 2) 8
def wDmaBusy : State := wDma.wr pgHst (HST_DMA_STATUS_state 2) 1
def wDmaBad : State := wHst.wr pgHst (HST_DMA_LEN_len 2) 6
def wPmSec : State := (wHst.wr (pgBox 1) BOX_PM_SEC_value 4).wr pgWng WNG_PMS_LAST_sec 4
def wPmBusy : State := wPmSec.wr (pgBox 1) BOX_PM_STATUS_state 1
def wReqPage : State := wOn.wr pgBxm (BXM_REQ_ARG_arg 0) (pgOtu 5)
def wReqObj : State := (wOn.wr pgBxm (BXM_REQ_ARG_arg 0) 0x10005).wr pgBxm (BXM_REQ_ARG_arg 1) 2
def wReqBusy : State := wReqObj.wRow (pgSel 0) T_ESG_CFG 6 [(ESG_CFG.valid, 1)]
def wReqWin : State := (wOn.wr pgBxm (BXM_REQ_ARG_arg 0) 0x83010004).wr pgBxm (BXM_REQ_ARG_arg 1) 0x123
def wBoxNote : State := { wOn with notices := wOn.notices.set [] 6 [2 ^ 40 + 9, 8] }
def wPx : State := (wOn.wrb (pgBox 6) BOX_PX_PAGE_en true).wr (pgBox 6) BOX_PX_PAGE_tpage pgPrt

theorem wit_HostInterface_1 :
    wHst.dom = .run ∧ wHst.rdb pgHst HST_LINK_up = true := by
  decide +kernel

theorem wit_HostInterface_2 :
    wOn.dom = .run ∧ wOn.rdb pgHst HST_LINK_up = false := by
  decide +kernel

theorem wit_HostInterface_3 :
    wHst.dom = .run ∧ 2 ≤ wHst.rd pgMode MODE_CALL_step ∧ wHst.rdb pgHst HST_LINK_up = true ∧ bsUnsupported = wHst.hostAdmit rqBad (wHst.hostTarget
      rqBad) ∧ bsUnsupported ≠ bsOk ∧ rqBad.held = false ∧ rqBad.late = false := by
  decide +kernel

theorem wit_HostInterface_4 :
    wApt.dom = .run ∧ 2 ≤ wApt.rd pgMode MODE_CALL_step ∧ wApt.rdb pgHst HST_LINK_up = true ∧ wApt.hostTarget rqRead = .aperture 0x2000000000 ∧
      wApt.hostAdmit rqRead (.aperture 0x2000000000) = bsOk ∧ rqRead.op = .read ∧ rqRead.len = 1 ∧ rqRead.poison = false := by
  decide +kernel

theorem wit_HostInterface_5 :
    wApt.dom = .run ∧ 2 ≤ wApt.rd pgMode MODE_CALL_step ∧ wApt.hostTarget rqWrite = .aperture 0x2000000004 ∧ wApt.hostAdmit rqWrite (.aperture
      0x2000000004) = bsOk ∧ rqWrite.op = .write [0xA1B2C3D4] ∧ rqWrite.len = 1 ∧ rqWrite.firstBe = 15 := by
  decide +kernel

theorem wit_HostInterface_6 :
    wHst.dom = .run ∧ 2 ≤ wHst.rd pgMode MODE_CALL_step ∧ wHst.rdb pgHst HST_LINK_up = true := by
  decide +kernel

theorem wit_HostInterface_7 :
    wHst.dom = .run ∧ 2 ≤ wHst.rd pgMode MODE_CALL_step ∧ wHst.rdb pgHst HST_LINK_up = true ∧ wHst.fnEnabled 1 = true := by
  decide +kernel

theorem wit_HostInterface_8 :
    wOn.dom = .run ∧ wOn.admitCode whoSm pgSdp true = bsOk := by
  decide +kernel

theorem wit_HostInterface_9 :
    wFlr.dom = .run ∧ 1 ≤ 1 ∧ 1 < 512 := by
  decide +kernel

theorem wit_HostInterface_10 :
    wVec13.dom = .run ∧ wVec13.rdb pgHst HST_LINK_up = true ∧ wVec13.fnEnabled 1 = true ∧ 3 < (if 1 = 0 then 2048 else 8) ∧ (wVec13.vecs.get {}
      (vecKey 1 3)).pending = true ∧ (wVec13.vecs.get {} (vecKey 1 3)).masked = false ∧ (wVec13.fns.get {} 1).msixEn = true ∧ (wVec13.fns.get {}
      1).msixMask = false ∧ wVec13.msixDue 1 3 = true := by
  decide +kernel

theorem wit_HostInterface_11 :
    wDma.dom = .run ∧ wDma.rdb pgHst HST_LINK_up = true ∧ 2 < 4 ∧ wDma.rd pgHst (HST_DMA_STATUS_state 2) ≠ dmaBusy ∧ wDma.rd pgHst (HST_DMA_SRC_addr
      2) / 2 ^ 63 % 2 = 0 ∧ 0x2000000000 ≤ wDma.rd pgHst (HST_DMA_SRC_addr 2) ∧ wDma.rd pgHst (HST_DMA_SRC_addr 2) + wDma.dmaLen 2 ≤ hbmSize ∧
      wDma.dmaLen 2 % 4 = 0 ∧ wDma.dmaLen 2 ≤ 2 ^ 26 ∧ wDma.rd pgHst (HST_DMA_DST_addr 2) % 4 = 0 := by
  decide +kernel

theorem wit_HostInterface_12 :
    wDmaBad.dom = .run ∧ 2 < 4 ∧ wDmaBad.rd pgHst (HST_DMA_STATUS_state 2) ≠ dmaBusy ∧ wDmaBad.dmaLen 2 % 4 ≠ 0 := by
  decide +kernel

theorem wit_HostInterface_13 :
    wDmaBusy.dom = .run ∧ 2 < 4 ∧ wDmaBusy.rd pgHst (HST_DMA_STATUS_state 2) = dmaBusy := by
  decide +kernel

theorem wit_BoxServices_1 :
    wReqPage.dom = .run ∧ wReqPage.smHeld = false ∧ 88 = 600 % 512 ∧ (pgOtu 5) = wReqPage.rd pgBxm (BXM_REQ_ARG_arg 0) % 65536 ∧ (pageInfo (pgOtu
      5)).isSome = true ∧ pageFixed (pgOtu 5) = false := by
  decide +kernel

theorem wit_BoxServices_2 :
    (wOn.wr pgBxm (BXM_REQ_ARG_arg 0) 0xFFFF).dom = .run ∧ (wOn.wr pgBxm (BXM_REQ_ARG_arg 0) 0xFFFF).smHeld = false ∧ pageInfo ((wOn.wr pgBxm
      (BXM_REQ_ARG_arg 0) 0xFFFF).rd pgBxm (BXM_REQ_ARG_arg 0) % 65536) = none := by
  decide +kernel

theorem wit_BoxServices_3 :
    wReqObj.dom = .run ∧ wReqObj.smHeld = false ∧ 9 = 9 % 512 ∧ 0x10005 = wReqObj.rd pgBxm (BXM_REQ_ARG_arg 0) ∧ 2 = wReqObj.rd pgBxm (BXM_REQ_ARG_arg
      1) % 2 ^ 18 ∧ 0x10005 < 2 ^ 24 ∧ 0 < 2 ∧ 0x10005 + 2 ≤ ownCount ∧ (List.range 2).any (fun k => decide (wReqObj.ownBox (0x10005 + k) ≠ 9) &&
      wReqObj.objBusy (0x10005 + k)) = false := by
  decide +kernel

theorem wit_BoxServices_4 :
    wReqBusy.dom = .run ∧ wReqBusy.smHeld = false ∧ 9 = 9 % 512 ∧ 0x10005 = wReqBusy.rd pgBxm (BXM_REQ_ARG_arg 0) ∧ 2 = wReqBusy.rd pgBxm
      (BXM_REQ_ARG_arg 1) % 2 ^ 18 ∧ 0x10005 < 2 ^ 24 ∧ 0 < 2 ∧ 0x10005 + 2 ≤ ownCount ∧ (List.range 2).any (fun k => decide (wReqBusy.ownBox (0x10005
      + k) ≠ 9) && wReqBusy.objBusy (0x10005 + k)) = true := by
  decide +kernel

theorem wit_BoxServices_5 :
    wReqWin.dom = .run ∧ wReqWin.smHeld = false ∧ 9 = 9 % 512 ∧ 0x83010004 = wReqWin.rd pgBxm (BXM_REQ_ARG_arg 0) ∧ 3 = getBits 0x83010004 27 24 ∧ 2 ≤
      getBits 0x83010004 7 0 ∧ getBits 0x83010004 7 0 + getBits 0x83010004 23 16 ≤ 255 := by
  decide +kernel

theorem wit_BoxServices_6 :
    wOn.dom = .run ∧ wOn.smHeld = false ∧ getBits (wOn.rd pgBxm (BXM_REQ_ARG_arg 0)) 7 0 < 2 := by
  decide +kernel

theorem wit_BoxServices_7 :
    ({ wReqWin with smHeld := true } : State).dom = .run ∧ ({ wReqWin with smHeld := true } : State).smHeld = true := by
  decide +kernel

theorem wit_BoxServices_8 :
    wBoxNote.dom = .run ∧ 6 < 512 ∧ wBoxNote.admitCode whoSm (pgBox 6) false = bsOk := by
  decide +kernel

theorem wit_BoxServices_9 :
    wPx.dom = .run ∧ 6 < 512 := by
  decide +kernel

theorem wit_BoxServices_10 :
    wOn.dom = .run ∧ 6 < 512 ∧ wOn.admitCode whoSm (pgBox 6) false = bsOk ∧ wOn.rdb (pgBox 6) BOX_PX_PAGE_en = false := by
  decide +kernel

theorem wit_BoxServices_11 :
    wPx.dom = .run ∧ 6 < 512 ∧ wPx.admitCode whoSm (pgBox 6) true = bsOk ∧ wPx.rdb (pgBox 6) BOX_PX_PAGE_en = true ∧ proxyAllows (wPx.rd (pgBox 6)
      BOX_PX_PAGE_tpage) (0x50 % 256 / 4 * 4) true = false := by
  decide +kernel

theorem wit_BoxServices_12 :
    wPmSec.dom = .run ∧ 1 < 512 ∧ wPmSec.rdb pgHst HST_LINK_up = true ∧ wPmSec.rd (pgBox 1) BOX_PM_STATUS_state ≠ pmBusy ∧ 4 = wPmSec.rd (pgBox 1)
      BOX_PM_SEC_value % 2 ^ 48 ∧ 4 ≤ wPmSec.rd pgWng WNG_PMS_LAST_sec ∧ wPmSec.rd pgWng WNG_PMS_LAST_sec < 4 + wPmSec.rd pgWng WNG_PMS_CFG_depth_m1 +
      1 := by
  decide +kernel

theorem wit_BoxServices_13 :
    (wPmSec.wr pgWng WNG_PMS_LAST_sec 3).dom = .run ∧ 1 < 512 ∧ (wPmSec.wr pgWng WNG_PMS_LAST_sec 3).rd (pgBox 1) BOX_PM_STATUS_state ≠ pmBusy ∧
      (wPmSec.wr pgWng WNG_PMS_LAST_sec 3).rd pgWng WNG_PMS_LAST_sec < (wPmSec.wr pgWng WNG_PMS_LAST_sec 3).rd (pgBox 1) BOX_PM_SEC_value % 2 ^ 48 := by
  decide +kernel

theorem wit_BoxServices_14 :
    wPmBusy.dom = .run ∧ 1 < 512 ∧ wPmBusy.rd (pgBox 1) BOX_PM_STATUS_state = pmBusy := by
  decide +kernel

/-! ### Firmware and trust (file 14) -/

/-- A request on FWM page n: service, operation, payload. -/
def wReq (s : State) (n service op : Nat) (b : List Nat) : State :=
  let s := (s.wr (pgFwm n) FWM_MB_STATUS_state 1).wr (pgFwm n) (FWM_REQ_word 0) (service * 2 ^ 24 + op * 2 ^ 16 + b.length)
  (List.range 62).foldl (fun s i => s.wr (pgFwm n) (FWM_REQ_word (i + 2)) (leNat ((b.drop (4 * i)).take 4))) s
/-- Both cores run a COMPAT image of slot A, core 0 holding every service; the stage manager runs an image. -/
def imgEn : Image := { bytes := [0, 0, 0, 0, 0, 0, 0, 0, 1, 2, 2], source := 0 }
def wEn : State := { ((((wOn.wr (pgFwm 0) FWM_EN_STATUS_run0 2).wr (pgFwm 0) FWM_EN_STATUS_run1 2).wr (pgFwm 0) FWM_EN_STATUS_held0 0x13).wr (pgFwm 0) FWM_EN_STATUS_held1 0x2C).wr pgMode MODE_current modeIntermission with
  slotA := some imgEn, slotB := some imgEn, smImg := some imgEn }
/-- Box 1 owns the pages and objects of the tests below. -/
def wOwn1 : State :=
  let s := [pgLln 0, pgEth 0, pgOtu 0, pgOd 0 1, pgOhq 0, pgSel 0].foldl (fun s pg => s.wr pg PAGE_OWNER_box 1) wEn
  [32768 + 5, 32768 + 9, ownGroup 7].foldl (fun s i => s.wRow pgBxm T_OWN i [(OWN.box, 1)]) s
def wPushing : State := { (wOn.wr (pgFwm 0) FWM_PUSH_STATUS_state 1) with push := some { kind := 2, len := 8 } }
def wPushed : State := { (wEn.wr (pgFwm 0) FWM_PUSH_STATUS_state 2) with push := some { kind := 2, len := 8, bytes := [1, 2, 3, 4, 5, 6, 7, 8] } }
def wPushCall : State := ((wOn.wr pgMode MODE_CALL_step 2).wr pgMode MODE_current modeCall).wr pgChipId CHIP_ID_STRAP_strap 1
/-- Personality 0 with a connection 5 in slot 3 of block 0, egress, and a software group 7. -/
def wOtn : State := wOwn1.wRow (pgOtu 0) T_OTU_IF 0 [(OTU_IF.member, 1)]
def wPers : State := (wOtn.wRow (pgOde 0) T_CTX 3 [(CTX.valid, 1), (CTX.ctx, 5), (CTX.odu_type, 8)])
def wOh : State := (wOwn1.wRow (pgOhq 0) T_INS_CFG 4 [(CHN.valid, 1), (CHN.size, 4)]).wRow (pgOhq 0) T_CAP_CFG 4 [(CHN.valid, 1), (CHN.size, 4)]
def wGrp7 : State := wOwn1.wRow (pgSel 0) T_ESG_CFG 7 [(ESG_CFG.valid, 1)]
def wFlows : State := [1, 2].foldl (fun s i => s.wRow (pgFyr 0) T_RXF_CFG i [(RXF_CFG.valid, 1), (RXF_CFG.kind, 0), (RXF_CFG.rate_kbps, 1000)]) wOwn1
def envGrp : PersEnv := { noPers with grp := setF (T_ESG_CFG.resetEntry 7) ESG_CFG.conf 20 }
def wFrame : State := { wEn with sdpRx1 := [{ bytes := List.replicate 14 0 ++ [0, 0x80, 0, 1, 0, 0], trunc := false, stamp := none }] }
def wFrameBad : State := { wEn with sdpRx1 := [{ bytes := List.replicate 14 0 ++ [9, 0x80, 0, 1, 0, 0], trunc := false, stamp := none }] }

theorem wit_TrustRequests_1 :
    wOn.dom = .run ∧ 0 < 512 ∧ wOn.admitCode whoHost (pgFwm 0) true = bsOk ∧ wOn.mbState 0 ≠ mbBusy := by
  decide +kernel

theorem wit_TrustRequests_2 :
    (wOn.wr (pgFwm 0) FWM_MB_STATUS_state 1).dom = .run ∧ 0 < 512 ∧ (wOn.wr (pgFwm 0) FWM_MB_STATUS_state 1).admitCode whoHost (pgFwm 0) true = bsOk ∧
      (wOn.wr (pgFwm 0) FWM_MB_STATUS_state 1).mbState 0 = mbBusy := by
  decide +kernel

theorem wit_TrustRequests_3 :
    (wReq wEn 3 1 1 (List.replicate 32 0)).dom = .run ∧ (wReq wEn 3 1 1 (List.replicate 32 0)).trustWaits 3 1 = true := by
  decide +kernel

theorem wit_TrustRequests_4 :
    (wReq wEn 3 1 2 [1, 0, 0, 0]).dom = .run ∧ (wReq wEn 3 1 2 [1, 0, 0, 0]).trustWaits 3 2 = true ∧ ((wReq wEn 3 1 2 [1, 0, 0, 0]).mbPayload 3).getD
      0 0 ≤ 1 := by
  decide +kernel

theorem wit_TrustRequests_5 :
    (wReq wEn 0 1 3 []).dom = .run ∧ (wReq wEn 0 1 3 []).trustWaits 0 3 = true := by
  decide +kernel

theorem wit_TrustRequests_6 :
    (wReq wEn 0 1 4 (List.replicate 160 0)).dom = .run ∧ (wReq wEn 0 1 4 (List.replicate 160 0)).trustWaits 0 4 = true ∧ (List.replicate 160 0) =
      (wReq wEn 0 1 4 (List.replicate 160 0)).mbPayload 0 := by
  decide +kernel

theorem wit_TrustRequests_7 :
    (wReq wEn 0 1 5 [1]).dom = .run ∧ (wReq wEn 0 1 5 [1]).trustWaits 0 5 = true ∧ (wReq wEn 0 1 5 [1]).smImg = some imgEn ∧ (wReq wEn 0 1 5
      [1]).enRunning = some imgEn ∧ 1 = ((wReq wEn 0 1 5 [1]).mbPayload 0).getD 0 0 ∧ 1 ≤ imgEn.rollback ∧ 1 ≤ imgEn.rollback := by
  decide +kernel

theorem wit_TrustRequests_8 :
    (wReq wEn 0 1 5 [2]).dom = .run ∧ (wReq wEn 0 1 5 [2]).trustWaits 0 5 = true ∧ (wReq wEn 0 1 5 [2]).smImg = some imgEn ∧ 2 = ((wReq wEn 0 1 5
      [2]).mbPayload 0).getD 0 0 ∧ imgEn.rollback < 2 := by
  decide +kernel

theorem wit_TrustRequests_9 :
    (wReq wEn 0 1 6 [3]).dom = .run ∧ (wReq wEn 0 1 6 [3]).trustWaits 0 6 = true ∧ 3 = ((wReq wEn 0 1 6 [3]).mbPayload 0).getD 0 0 ∧ 3 < 4 ∧ (wReq wEn
      0 1 6 [3]).slotUsed 3 = false := by
  decide +kernel

theorem wit_TrustRequests_10 :
    (wReq wEn 0 1 6 [2]).dom = .run ∧ (wReq wEn 0 1 6 [2]).trustWaits 0 6 = true ∧ 2 = ((wReq wEn 0 1 6 [2]).mbPayload 0).getD 0 0 ∧ 2 < 4 ∧ (wReq wEn
      0 1 6 [2]).slotUsed 2 = true := by
  decide +kernel

theorem wit_TrustRequests_11 :
    (wReq wEn 0 1 7 []).dom = .run ∧ (wReq wEn 0 1 7 []).trustWaits 0 7 = true ∧ (wReq wEn 0 1 7 []).heldBy 0 < 64 ∧ (wReq wEn 0 1 7 []).heldBy 1 < 64
      ∧ (wReq wEn 0 1 7 []).heldBy 0 &&& (wReq wEn 0 1 7 []).heldBy 1 = 0 ∧ (wReq wEn 0 1 7 []).updateRefusal = none ∧ (⟨0, true, true, 9, none⟩ :
      TrustEnv).ready0 = true ∧ (⟨0, true, true, 9, none⟩ : TrustEnv).ready1 = true ∧ (⟨0, true, true, 9, none⟩ : TrustEnv).expiry = none ∧ 1 = (wReq
      wEn 0 1 7 []).idleSlot := by
  decide +kernel

theorem wit_TrustRequests_12 :
    ((wReq wEn 0 1 7 []).wr pgMode MODE_current modeSafe).dom = .run ∧ ((wReq wEn 0 1 7 []).wr pgMode MODE_current modeSafe).trustWaits 0 7 = true ∧
      ((wReq wEn 0 1 7 []).wr pgMode MODE_current modeSafe).mode = modeSafe := by
  decide +kernel

theorem wit_TrustRequests_13 :
    (wReq wEn 0 1 8 []).dom = .run ∧ (wReq wEn 0 1 8 []).trustWaits 0 8 = true := by
  decide +kernel

theorem wit_TrustRequests_14 :
    (wReq wEn 9 0 1 []).dom = .run ∧ 9 < 512 ∧ (wReq wEn 9 0 1 []).mbState 9 = mbBusy ∧ (wReq wEn 9 0 1 []).mbService 9 = 0 ∧ (wReq wEn 9 0 1
      []).ringsClear 9 = true ∧ (wReq wEn 9 0 1 []).smHeld = false := by
  decide +kernel

theorem wit_TrustRequests_15 :
    (wReq wEn 0 1 8 []).dom = .run ∧ (wReq wEn 0 1 8 []).trustWaits 0 8 = true := by
  decide +kernel

theorem wit_PushAndWatchdogs_1 :
    wOn.dom = .run ∧ wOn.pushState ≠ pushVerifying := by
  decide +kernel

theorem wit_PushAndWatchdogs_2 :
    wPushing.dom = .run ∧ wPushing.admitCode whoHost (pgFwm 0) true = bsOk ∧ whoHost.master = .host ∧ whoHost.box = 0 ∧ wPushing.pushState =
      pushReceiving ∧ wPushing.push = some (Push.mk 2 8 []) := by
  decide +kernel

theorem wit_PushAndWatchdogs_3 :
    wPushing.dom = .run ∧ wPushing.pushState = pushReceiving := by
  decide +kernel

theorem wit_PushAndWatchdogs_4 :
    wPushing.dom = .run ∧ wPushing.push.isSome = true := by
  decide +kernel

theorem wit_PushAndWatchdogs_5 :
    wPushed.dom = .run ∧ wPushed.mode ≠ modeCall ∧ wPushed.push = some (Push.mk 2 8 [1, 2, 3, 4, 5, 6, 7, 8]) ∧ (Push.mk 2 8 [1, 2, 3, 4, 5, 6, 7,
      8]).kind = 2 ∧ wPushed.pushState = pushVerifying ∧ 2 = wPushed.fresh.imageReason 2 ⟨(Push.mk 2 8 [1, 2, 3, 4, 5, 6, 7, 8]).bytes.take (Push.mk 2
      8 [1, 2, 3, 4, 5, 6, 7, 8]).len, 2⟩ ∧ 2 ≠ 0 := by
  decide +kernel

theorem wit_PushAndWatchdogs_6 :
    wPushCall.dom = .run ∧ wPushCall.push = none ∧ wPushCall.bootStrap = 1 ∧ wPushCall.bootDue 1 = true := by
  decide +kernel

theorem wit_PushAndWatchdogs_7 :
    wOn.dom = .run ∧ wOn.admitCode (⟨.en1, 0, false⟩ : Who) (pgFwm 0) true = bsOk ∧ (⟨.en1, 0, false⟩ : Who).master = .en1 := by
  decide +kernel

theorem wit_PushAndWatchdogs_8 :
    ({ wEn with dpCycle := 10 ^ 12 } : State).dom = .run ∧ 0 < 2 ∧ ({ wEn with dpCycle := 10 ^ 12 } : State).enRuns 0 = true ∧
      ({ wEn with dpCycle := 10 ^ 12 } : State).enRuns (1 - 0) = true ∧ ({ wEn with dpCycle := 10 ^ 12 } : State).rdb (pgFwm 0) (FWM_WDOG_CFG_en 0) =
      true ∧ ({ wEn with dpCycle := 10 ^ 12 } : State).kickAt.get 0 0 + ({ wEn with dpCycle := 10 ^ 12 } : State).wdogTime 0 ≤
      ({ wEn with dpCycle := 10 ^ 12 } : State).dpCycle ∧ ({ wEn with dpCycle := 10 ^ 12 } : State).heldBy (1 - 0) < 64 := by
  decide +kernel

theorem wit_PushAndWatchdogs_9 :
    wOn.dom = .run ∧ (32 * reportLink (srcService 8) + clsLockstep) = 32 * reportLink (srcService 8) + (if true then clsLockstep else clsWdogSm) := by
  decide +kernel

theorem wit_PushAndWatchdogs_11 :
    bit wOn.rights 0 = false := by
  decide +kernel

theorem wit_PersonalityCues_1 :
    (wReq wOwn1 1 0x10 0x20 [0, 0, 0, 1]).dom = .run ∧ (wReq wOwn1 1 0x10 0x20 [0, 0, 0, 1]).persWaits 0 0x20 ([0, 0, 0, 1]) = true ∧ ((wReq wOwn1 1
      0x10 0x20 [0, 0, 0, 1]).fresh.laneSet noPers 0 ([0, 0, 0, 1])).1 = some (gvOk, cueAccepted, []) := by
  decide +kernel

theorem wit_PersonalityCues_2 :
    (wReq wOwn1 1 0x10 0x22 [0, 0xFF, 0, 0]).dom = .run ∧ (wReq wOwn1 1 0x10 0x22 [0, 0xFF, 0, 0]).persWaits 0 0x22 ([0, 0xFF, 0, 0]) = true ∧ ((wReq
      wOwn1 1 0x10 0x22 [0, 0xFF, 0, 0]).fresh.ifSet noPers 0 ([0, 0xFF, 0, 0])).1 = some (gvOk, cueAccepted, []) := by
  decide +kernel

theorem wit_PersonalityCues_3 :
    (wReq wOtn 1 0x10 0x30 [0, 9, 1, 8, 0x80, 0, 0, 0, 0, 0, 0, 0, 0, 0, 0, 0, 0, 0, 0, 0, 0, 0, 0, 0, 0, 0, 0, 0, 0, 0, 0, 0, 0xFF, 0, 0, 0, 0xFF,
      0xFF, 0xFF, 0xFF]).dom = .run ∧ (wReq wOtn 1 0x10 0x30 [0, 9, 1, 8, 0x80, 0, 0, 0, 0, 0, 0, 0, 0, 0, 0, 0, 0, 0, 0, 0, 0, 0, 0, 0, 0, 0, 0, 0,
      0, 0, 0, 0, 0xFF, 0, 0, 0, 0xFF, 0xFF, 0xFF, 0xFF]).persWaits 0 0x30 ([0, 9, 1, 8, 0x80, 0, 0, 0, 0, 0, 0, 0, 0, 0, 0, 0, 0, 0, 0, 0, 0, 0, 0,
      0, 0, 0, 0, 0, 0, 0, 0, 0, 0xFF, 0, 0, 0, 0xFF, 0xFF, 0xFF, 0xFF]) = true ∧ ((wReq wOtn 1 0x10 0x30 [0, 9, 1, 8, 0x80, 0, 0, 0, 0, 0, 0, 0, 0,
      0, 0, 0, 0, 0, 0, 0, 0, 0, 0, 0, 0, 0, 0, 0, 0, 0, 0, 0, 0xFF, 0, 0, 0, 0xFF, 0xFF, 0xFF, 0xFF]).fresh.connAddMsg noPers 0 ([0, 9, 1, 8, 0x80,
      0, 0, 0, 0, 0, 0, 0, 0, 0, 0, 0, 0, 0, 0, 0, 0, 0, 0, 0, 0, 0, 0, 0, 0, 0, 0, 0, 0xFF, 0, 0, 0, 0xFF, 0xFF, 0xFF, 0xFF])).1 = some (gvOk,
      cueAccepted, []) := by
  decide +kernel

theorem wit_PersonalityCues_4 :
    (wReq wPers 1 0x10 0x31 [0, 5, 1, 0xFF, 0xFF, 0xFF, 0xFF, 0xFF, 0xFF, 0xFF, 0xFF, 0xFF, 0xFF, 0xFF, 0xFF, 0xFF, 0xFF, 0xFF, 0xFF, 0xFF, 0xFF,
      0xFF, 0xFF, 0xFF, 0xFF, 0xFF, 0xFF, 0xFF, 0xFF, 0xFF, 0xFF, 0xFF, 0xFF, 0xFF, 0xFF, 3, 0xFF, 0xFF, 0xFF, 0xFF]).dom = .run ∧ (wReq wPers 1 0x10
      0x31 [0, 5, 1, 0xFF, 0xFF, 0xFF, 0xFF, 0xFF, 0xFF, 0xFF, 0xFF, 0xFF, 0xFF, 0xFF, 0xFF, 0xFF, 0xFF, 0xFF, 0xFF, 0xFF, 0xFF, 0xFF, 0xFF, 0xFF,
      0xFF, 0xFF, 0xFF, 0xFF, 0xFF, 0xFF, 0xFF, 0xFF, 0xFF, 0xFF, 0xFF, 3, 0xFF, 0xFF, 0xFF, 0xFF]).persWaits 0 0x31 ([0, 5, 1, 0xFF, 0xFF, 0xFF,
      0xFF, 0xFF, 0xFF, 0xFF, 0xFF, 0xFF, 0xFF, 0xFF, 0xFF, 0xFF, 0xFF, 0xFF, 0xFF, 0xFF, 0xFF, 0xFF, 0xFF, 0xFF, 0xFF, 0xFF, 0xFF, 0xFF, 0xFF, 0xFF,
      0xFF, 0xFF, 0xFF, 0xFF, 0xFF, 3, 0xFF, 0xFF, 0xFF, 0xFF]) = true ∧ ((wReq wPers 1 0x10 0x31 [0, 5, 1, 0xFF, 0xFF, 0xFF, 0xFF, 0xFF, 0xFF, 0xFF,
      0xFF, 0xFF, 0xFF, 0xFF, 0xFF, 0xFF, 0xFF, 0xFF, 0xFF, 0xFF, 0xFF, 0xFF, 0xFF, 0xFF, 0xFF, 0xFF, 0xFF, 0xFF, 0xFF, 0xFF, 0xFF, 0xFF, 0xFF, 0xFF,
      0xFF, 3, 0xFF, 0xFF, 0xFF, 0xFF]).fresh.connModMsg noPers 0 ([0, 5, 1, 0xFF, 0xFF, 0xFF, 0xFF, 0xFF, 0xFF, 0xFF, 0xFF, 0xFF, 0xFF, 0xFF, 0xFF,
      0xFF, 0xFF, 0xFF, 0xFF, 0xFF, 0xFF, 0xFF, 0xFF, 0xFF, 0xFF, 0xFF, 0xFF, 0xFF, 0xFF, 0xFF, 0xFF, 0xFF, 0xFF, 0xFF, 0xFF, 3, 0xFF, 0xFF, 0xFF,
      0xFF])).1 = some (gvOk, cueAccepted, []) := by
  decide +kernel

theorem wit_PersonalityCues_5 :
    (wReq wPers 1 0x10 0x32 [0, 5, 1]).dom = .run ∧ (wReq wPers 1 0x10 0x32 [0, 5, 1]).persWaits 0 0x32 ([0, 5, 1]) = true ∧ ((wReq wPers 1 0x10 0x32
      [0, 5, 1]).fresh.connDelMsg noPers 0 ([0, 5, 1])).1 = some (gvOk, cueAccepted, []) := by
  decide +kernel

theorem wit_PersonalityCues_6 :
    (wReq wFlows 1 0x10 0x50 [0, 7, 0, 0, 0, 0, 0, 1, 0, 2, 0xFF, 0xFF, 0, 0, 1, 0xFF, 0xFF]).dom = .run ∧ (wReq wFlows 1 0x10 0x50 [0, 7, 0, 0, 0, 0,
      0, 1, 0, 2, 0xFF, 0xFF, 0, 0, 1, 0xFF, 0xFF]).persWaits 0 0x50 ([0, 7, 0, 0, 0, 0, 0, 1, 0, 2, 0xFF, 0xFF, 0, 0, 1, 0xFF, 0xFF]) = true ∧ ((wReq
      wFlows 1 0x10 0x50 [0, 7, 0, 0, 0, 0, 0, 1, 0, 2, 0xFF, 0xFF, 0, 0, 1, 0xFF, 0xFF]).fresh.pgAdd envGrp 0 ([0, 7, 0, 0, 0, 0, 0, 1, 0, 2, 0xFF,
      0xFF, 0, 0, 1, 0xFF, 0xFF])).1 = some (gvOk, cueAccepted, []) := by
  decide +kernel

theorem wit_PersonalityCues_7 :
    (wReq wGrp7 1 0x10 0x51 [0, 7, 0]).dom = .run ∧ (wReq wGrp7 1 0x10 0x51 [0, 7, 0]).persWaits 0 0x51 ([0, 7, 0]) = true ∧ ((wReq wGrp7 1 0x10 0x51
      [0, 7, 0]).fresh.pgDelete noPers 0 ([0, 7, 0])).1 = some (gvOk, cueAccepted, []) := by
  decide +kernel

theorem wit_PersonalityCues_8 :
    (wReq wOwn1 1 0x10 0x60 [0, 4, 0, 0, 0, 0, 0, 0, 0, 1, 0, 0, 4]).dom = .run ∧ (wReq wOwn1 1 0x10 0x60 [0, 4, 0, 0, 0, 0, 0, 0, 0, 1, 0, 0,
      4]).persWaits 0 0x60 ([0, 4, 0, 0, 0, 0, 0, 0, 0, 1, 0, 0, 4]) = true ∧ ((wReq wOwn1 1 0x10 0x60 [0, 4, 0, 0, 0, 0, 0, 0, 0, 1, 0, 0,
      4]).fresh.ohOpen noPers 0 ([0, 4, 0, 0, 0, 0, 0, 0, 0, 1, 0, 0, 4])).1 = some (gvOk, cueAccepted, []) := by
  decide +kernel

theorem wit_PersonalityCues_9 :
    (wReq wOh 1 0x10 0x61 [0, 4, 0]).dom = .run ∧ (wReq wOh 1 0x10 0x61 [0, 4, 0]).persWaits 0 0x61 ([0, 4, 0]) = true ∧ ((wReq wOh 1 0x10 0x61 [0, 4,
      0]).fresh.ohClose noPers 0 ([0, 4, 0])).1 = some (gvOk, cueAccepted, []) := by
  decide +kernel

theorem wit_PersonalityCues_10 :
    ((wReq wEn 1 0x10 0x20 [0, 0, 0, 1]).wr (pgBox 1) BOX_CUE_STATUS_state cuePending).dom = .run ∧ ((wReq wEn 1 0x10 0x20 [0, 0, 0, 1]).wr (pgBox 1)
      BOX_CUE_STATUS_state cuePending).persWaits 0 0x20 ([0, 0, 0, 1]) = true ∧ ([0, 0, 0, 1]).getD 0 0 ≤ 63 ∧ 4 ≤ ([0, 0, 0, 1]).length ∧ ([0, 0, 0,
      1]).getD 1 0 ≤ 1 ∧ ([0, 0, 0, 1]).getD 2 0 ≤ 2 ∧ ((wReq wEn 1 0x10 0x20 [0, 0, 0, 1]).wr (pgBox 1) BOX_CUE_STATUS_state cuePending).inReset ((64
      * 0 + ([0, 0, 0, 1]).getD 0 0) / 32) = false ∧ ((wReq wEn 1 0x10 0x20 [0, 0, 0, 1]).wr (pgBox 1) BOX_CUE_STATUS_state cuePending).cueRuns (0 +
      1) = true := by
  decide +kernel

theorem wit_PersonalityQueries_1 :
    (wReq wEn 1 0x10 0x10 []).dom = .run ∧ (wReq wEn 1 0x10 0x10 []).persWaits 0 0x10 ([] : List Nat) = true := by
  decide +kernel

theorem wit_PersonalityQueries_2 :
    (wReq wEn 1 0x10 0x11 []).dom = .run ∧ (wReq wEn 1 0x10 0x11 []).persWaits 0 0x11 ([] : List Nat) = true := by
  decide +kernel

theorem wit_PersonalityQueries_3 :
    (wReq (wEn.wRow (pgFwm 0) T_EN_GRANT 0 [(EN_GRANT.valid, 1), (EN_GRANT.en0, 1), (EN_GRANT.write, 1), (EN_GRANT.first, pgMode)]) 1 0x10 0x12
      [0]).dom = .run ∧ (wReq (wEn.wRow (pgFwm 0) T_EN_GRANT 0 [(EN_GRANT.valid, 1), (EN_GRANT.en0, 1), (EN_GRANT.write, 1), (EN_GRANT.first,
      pgMode)]) 1 0x10 0x12 [0]).persWaits 0 0x12 ([0]) = true ∧ (wReq (wEn.wRow (pgFwm 0) T_EN_GRANT 0 [(EN_GRANT.valid, 1), (EN_GRANT.en0, 1),
      (EN_GRANT.write, 1), (EN_GRANT.first, pgMode)]) 1 0x10 0x12 [0]).persReset.get {} 0 = {} ∧ (wReq (wEn.wRow (pgFwm 0) T_EN_GRANT 0
      [(EN_GRANT.valid, 1), (EN_GRANT.en0, 1), (EN_GRANT.write, 1), (EN_GRANT.first, pgMode)]) 1 0x10 0x12 [0]).inReset (2 * 0) = false ∧ (wReq
      (wEn.wRow (pgFwm 0) T_EN_GRANT 0 [(EN_GRANT.valid, 1), (EN_GRANT.en0, 1), (EN_GRANT.write, 1), (EN_GRANT.first, pgMode)]) 1 0x10 0x12
      [0]).inReset (2 * 0 + 1) = false ∧ ([0]) = [0] ∧ (wReq (wEn.wRow (pgFwm 0) T_EN_GRANT 0 [(EN_GRANT.valid, 1), (EN_GRANT.en0, 1),
      (EN_GRANT.write, 1), (EN_GRANT.first, pgMode)]) 1 0x10 0x12 [0]).modeRefusal ((wReq (wEn.wRow (pgFwm 0) T_EN_GRANT 0 [(EN_GRANT.valid, 1),
      (EN_GRANT.en0, 1), (EN_GRANT.write, 1), (EN_GRANT.first, pgMode)]) 1 0x10 0x12 [0]).persWho 0) opReset (2 * 0) = none := by
  decide +kernel

theorem wit_PersonalityQueries_4 :
    (wReq wEn 1 0x10 0x21 [2]).dom = .run ∧ (wReq wEn 1 0x10 0x21 [2]).persWaits 0 0x21 ([2]) = true ∧ 1 ≤ ([2]).length ∧ ([2]).getD 0 0 ≤ 63 ∧ (wReq
      wEn 1 0x10 0x21 [2]).inReset ((64 * 0 + ([2]).getD 0 0) / 32) = false := by
  decide +kernel

theorem wit_PersonalityQueries_5 :
    (wReq wEn 1 0x10 0x23 [0, 2, 1]).dom = .run ∧ (wReq wEn 1 0x10 0x23 [0, 2, 1]).persWaits 0 0x23 ([0, 2, 1]) = true ∧ ([0, 2, 1]).length = 3 ∧ ([0,
      2, 1]).getD 0 0 = 0 ∧ 2 = 64 * 0 + ([0, 2, 1]).getD 1 0 ∧ ([0, 2, 1]).getD 1 0 ≤ 63 ∧ ([0, 2, 1]).getD 2 0 ≤ 2 ∧ (wReq wEn 1 0x10 0x23 [0, 2,
      1]).inReset (2 / 32) = false := by
  decide +kernel

theorem wit_PersonalityQueries_6 :
    (wReq wPers 1 0x10 0x33 [0, 5, 1]).dom = .run ∧ (wReq wPers 1 0x10 0x33 [0, 5, 1]).persWaits 0 0x33 ([0, 5, 1]) = true ∧ 3 ≤ ([0, 5, 1]).length ∧
      by16 ([0, 5, 1]) 0 < 8192 ∧ ([0, 5, 1]).getD 2 0 ≤ 1 ∧ (wReq wPers 1 0x10 0x33 [0, 5, 1]).inReset (2 * 0 + by16 ([0, 5, 1]) 0 / 4096) = false ∧
      (wReq wPers 1 0x10 0x33 [0, 5, 1]).connAt 0 (([0, 5, 1]).getD 2 0) (by16 ([0, 5, 1]) 0) = some ((0, 3) : Nat × Nat) := by
  decide +kernel

theorem wit_PersonalityQueries_7 :
    (wReq wEn 1 0x10 0x40 [0, 5, 1, 0]).dom = .run ∧ (wReq wEn 1 0x10 0x40 [0, 5, 1, 0]).persWaits 0 0x40 ([0, 5, 1, 0]) = true ∧ 4 ≤ ([0, 5, 1,
      0]).length ∧ by16 ([0, 5, 1, 0]) 0 < 8192 ∧ ([0, 5, 1, 0]).getD 3 0 ≤ 6 ∧ ([0, 5, 1, 0]).getD 2 0 ≤ 1 ∧ (wReq wEn 1 0x10 0x40 [0, 5, 1,
      0]).inReset (2 * 0 + by16 ([0, 5, 1, 0]) 0 / 4096) = false := by
  decide +kernel

theorem wit_PersonalityQueries_8 :
    (wReq ({ wEn with pmBins := wEn.pmBins.set {} (msgPoint 0 [0, 5, 1, 0, 1, 1]) { on := true, past24 := [{}] } } : State) 1 0x10 0x41 [0, 5, 1, 0,
      1, 1]).dom = .run ∧ (wReq ({ wEn with pmBins := wEn.pmBins.set {} (msgPoint 0 [0, 5, 1, 0, 1, 1]) { on := true, past24 := [{}] } } : State) 1
      0x10 0x41 [0, 5, 1, 0, 1, 1]).persWaits 0 0x41 ([0, 5, 1, 0, 1, 1]) = true ∧ 6 ≤ ([0, 5, 1, 0, 1, 1]).length ∧ by16 ([0, 5, 1, 0, 1, 1]) 0 <
      8192 ∧ ([0, 5, 1, 0, 1, 1]).getD 3 0 ≤ 6 ∧ ([0, 5, 1, 0, 1, 1]).getD 2 0 ≤ 1 ∧ (wReq
      ({ wEn with pmBins := wEn.pmBins.set {} (msgPoint 0 [0, 5, 1, 0, 1, 1]) { on := true, past24 := [{}] } } : State) 1 0x10 0x41 [0, 5, 1, 0, 1,
      1]).inReset (2 * 0 + by16 ([0, 5, 1, 0, 1, 1]) 0 / 4096) = false ∧ ([0, 5, 1, 0, 1, 1]).getD 4 0 = 1 ∧ ([0, 5, 1, 0, 1, 1]).getD 5 0 = 1 ∧
      ((wReq ({ wEn with pmBins := wEn.pmBins.set {} (msgPoint 0 [0, 5, 1, 0, 1, 1]) { on := true, past24 := [{}] } } : State) 1 0x10 0x41 [0, 5, 1,
      0, 1, 1]).binsOf (msgPoint 0 ([0, 5, 1, 0, 1, 1]))).back 1 1 = some ({} : PmBin) := by
  decide +kernel

theorem wit_PersonalityQueries_9 :
    (wReq wEn 1 0x10 0x42 ([0, 5, 1, 0, 0, 0, 0, 0, 9] ++ List.replicate 12 1)).dom = .run ∧ (wReq wEn 1 0x10 0x42 ([0, 5, 1, 0, 0, 0, 0, 0, 9] ++
      List.replicate 12 1)).persWaits 0 0x42 ([0, 5, 1, 0, 0, 0, 0, 0, 9] ++ List.replicate 12 1) = true ∧ 21 ≤ ([0, 5, 1, 0, 0, 0, 0, 0, 9] ++
      List.replicate 12 1).length ∧ by16 ([0, 5, 1, 0, 0, 0, 0, 0, 9] ++ List.replicate 12 1) 0 < 8192 ∧ ([0, 5, 1, 0, 0, 0, 0, 0, 9] ++
      List.replicate 12 1).getD 3 0 ≤ 6 ∧ ([0, 5, 1, 0, 0, 0, 0, 0, 9] ++ List.replicate 12 1).getD 2 0 ≤ 1 ∧ (wReq wEn 1 0x10 0x42 ([0, 5, 1, 0, 0,
      0, 0, 0, 9] ++ List.replicate 12 1)).inReset (2 * 0 + by16 ([0, 5, 1, 0, 0, 0, 0, 0, 9] ++ List.replicate 12 1) 0 / 4096) = false ∧ ([0, 5, 1,
      0, 0, 0, 0, 0, 9] ++ List.replicate 12 1).getD 4 0 ≤ 1 ∧ by32 ([0, 5, 1, 0, 0, 0, 0, 0, 9] ++ List.replicate 12 1) 5 ≠ 0 := by
  decide +kernel

theorem wit_PersonalityQueries_10 :
    (wReq wGrp7 1 0x10 0x52 [0, 7, 0, 1]).dom = .run ∧ (wReq wGrp7 1 0x10 0x52 [0, 7, 0, 1]).persWaits 0 0x52 ([0, 7, 0, 1]) = true ∧ 4 ≤ ([0, 7, 0,
      1]).length ∧ ([0, 7, 0, 1]).getD 2 0 = 0 ∧ by16 ([0, 7, 0, 1]) 0 < 4096 ∧ (wReq wGrp7 1 0x10 0x52 [0, 7, 0, 1]).inReset (grpRegion (4096 * 0 +
      by16 ([0, 7, 0, 1]) 0)) = false ∧ ([0, 7, 0, 1]).getD 3 0 = 1 := by
  decide +kernel

theorem wit_PersonalityQueries_11 :
    (wReq wGrp7 1 0x10 0x53 [0, 7, 0]).dom = .run ∧ (wReq wGrp7 1 0x10 0x53 [0, 7, 0]).persWaits 0 0x53 ([0, 7, 0]) = true ∧ 3 ≤ ([0, 7, 0]).length ∧
      ([0, 7, 0]).getD 2 0 = 0 ∧ by16 ([0, 7, 0]) 0 < 4096 ∧ (wReq wGrp7 1 0x10 0x53 [0, 7, 0]).inReset (grpRegion (4096 * 0 + by16 ([0, 7, 0]) 0)) =
      false := by
  decide +kernel

theorem wit_PersonalityQueries_12 :
    (wReq wOh 1 0x10 0x62 [0, 4, 0, 3, 1, 2, 3]).dom = .run ∧ (wReq wOh 1 0x10 0x62 [0, 4, 0, 3, 1, 2, 3]).persWaits 0 0x62 ([0, 4, 0, 3, 1, 2, 3]) =
      true ∧ by16 ([0, 4, 0, 3, 1, 2, 3]) 0 < 1024 ∧ (wReq wOh 1 0x10 0x62 [0, 4, 0, 3, 1, 2, 3]).inReset (ohRegion 0 (by16 ([0, 4, 0, 3, 1, 2, 3])
      0)) = false ∧ 1 ≤ by16 ([0, 4, 0, 3, 1, 2, 3]) 2 ∧ by16 ([0, 4, 0, 3, 1, 2, 3]) 2 ≤ 240 ∧ ([0, 4, 0, 3, 1, 2, 3]).length = 4 + by16 ([0, 4, 0,
      3, 1, 2, 3]) 2 ∧ (wReq wOh 1 0x10 0x62 [0, 4, 0, 3, 1, 2, 3]).chValid (ohRegion 0 (by16 ([0, 4, 0, 3, 1, 2, 3]) 0)) 1 (by16 ([0, 4, 0, 3, 1, 2,
      3]) 0 % 512) = true := by
  decide +kernel

theorem wit_PersonalityQueries_13 :
    (wReq wOh 1 0x10 0x63 [0, 4]).dom = .run ∧ (wReq wOh 1 0x10 0x63 [0, 4]).persWaits 0 0x63 ([0, 4]) = true ∧ 2 ≤ ([0, 4]).length ∧ by16 ([0, 4]) 0
      < 1024 ∧ (wReq wOh 1 0x10 0x63 [0, 4]).inReset (ohRegion 0 (by16 ([0, 4]) 0)) = false ∧ (wReq wOh 1 0x10 0x63 [0, 4]).chValid (ohRegion 0 (by16
      ([0, 4]) 0)) 0 (by16 ([0, 4]) 0 % 512) = true := by
  decide +kernel

theorem wit_PersonalityQueries_14 :
    (wReq wEn 1 0x10 0x70 [0, 0]).dom = .run ∧ (wReq wEn 1 0x10 0x70 [0, 0]).persWaits 0 0x70 ([0, 0]) = true ∧ 2 ≤ ([0, 0]).length := by
  decide +kernel

theorem wit_PersonalityQueries_15 :
    (wReq wEn 1 0x10 0x71 [kindSlice, 0, 0, 0, 3, 4, 1]).dom = .run ∧ (wReq wEn 1 0x10 0x71 [kindSlice, 0, 0, 0, 3, 4, 1]).persWaits 0 0x71
      ([kindSlice, 0, 0, 0, 3, 4, 1]) = true ∧ 7 ≤ ([kindSlice, 0, 0, 0, 3, 4, 1]).length ∧ ([kindSlice, 0, 0, 0, 3, 4, 1]).getD 0 0 = kindSlice ∧
      ([kindSlice, 0, 0, 0, 3, 4, 1]).getD 5 0 ≤ 32 ∧ ([kindSlice, 0, 0, 0, 3, 4, 1]).getD 6 0 = 1 := by
  decide +kernel

theorem wit_PersonalityQueries_16 :
    (wReq wEn 1 0x10 0x80 []).dom = .run ∧ (wReq wEn 1 0x10 0x80 []).persWaits 0 0x80 ([] : List Nat) = true := by
  decide +kernel

theorem wit_PersonalityQueries_17 :
    (wReq wEn 1 0x10 0x81 [1]).dom = .run ∧ (wReq wEn 1 0x10 0x81 [1]).persWaits 0 0x81 ([1]) = true := by
  decide +kernel

theorem wit_PersonalityQueries_18 :
    wFrameBad.dom = .run ∧ wFrameBad.sdpRx1 = ({ bytes := List.replicate 14 0 ++ [9, 0x80, 0, 1, 0, 0], trunc := false, stamp := none } : RxFrame) ::
      ([] : List RxFrame) ∧ 3 < (({ bytes := List.replicate 14 0 ++ [9, 0x80, 0, 1, 0, 0], trunc := false, stamp := none } : RxFrame).bytes.drop
      14).getD 0 0 := by
  decide +kernel

theorem wit_PersonalityQueries_19 :
    wFrame.dom = .run ∧ wFrame.sdpRx1 = ({ bytes := List.replicate 14 0 ++ [0, 0x80, 0, 1, 0, 0], trunc := false, stamp := none } : RxFrame) :: ([] :
      List RxFrame) ∧ ({ bytes := List.replicate 14 0 ++ [0, 0x80, 0, 1, 0, 0], trunc := false, stamp := none } : RxFrame).trunc = false ∧ ([0, 0x80,
      0, 1, 0, 0]) = ({ bytes := List.replicate 14 0 ++ [0, 0x80, 0, 1, 0, 0], trunc := false, stamp := none } : RxFrame).bytes.drop 14 ∧ ([0, 0x80,
      0, 1, 0, 0]).getD 0 0 ≤ 3 ∧ ([0, 0x80, 0, 1, 0, 0]).getD 1 0 = 0x80 ∧ 6 ≤ ([0, 0x80, 0, 1, 0, 0]).length ∧ ([0, 0x80, 0, 1, 0, 0]).length = 6 +
      by16 ([0, 0x80, 0, 1, 0, 0]) 4 ∧ wFrame.persUp (([0, 0x80, 0, 1, 0, 0]).getD 0 0) = true := by
  decide +kernel

theorem wit_PersonalityQueries_20 :
    (wReq wEn 0 0x20 1 []).dom = .run ∧ (wReq wEn 0 0x20 1 []).mbWaits 0 0x20 1 = true ∧ (wReq wEn 0 0x20 1 []).ringsClear 0 = true ∧ ((wReq wEn 0
      0x20 1 []).holder svcPmBin).isSome = true := by
  decide +kernel

theorem wit_PersonalityQueries_21 :
    (wReq ({ wEn with pmBins := wEn.pmBins.set {} 5 { on := true } } : State) 0 0x20 2 [0, 0, 5, 0, 0]).dom = .run ∧ (wReq
      ({ wEn with pmBins := wEn.pmBins.set {} 5 { on := true } } : State) 0 0x20 2 [0, 0, 5, 0, 0]).mbWaits 0 0x20 2 = true ∧ (wReq
      ({ wEn with pmBins := wEn.pmBins.set {} 5 { on := true } } : State) 0 0x20 2 [0, 0, 5, 0, 0]).ringsClear 0 = true ∧ ((wReq
      ({ wEn with pmBins := wEn.pmBins.set {} 5 { on := true } } : State) 0 0x20 2 [0, 0, 5, 0, 0]).holder svcPmBin).isSome = true ∧ ([0, 0, 5, 0, 0])
      = (wReq ({ wEn with pmBins := wEn.pmBins.set {} 5 { on := true } } : State) 0 0x20 2 [0, 0, 5, 0, 0]).mbPayload 0 ∧ ([0, 0, 5, 0, 0]).length = 5
      ∧ ([0, 0, 5, 0, 0]).getD 0 0 * 65536 + by16 ([0, 0, 5, 0, 0]) 1 < 524288 ∧ ([0, 0, 5, 0, 0]).getD 3 0 = 0 ∧ ([0, 0, 5, 0, 0]).getD 4 0 = 0 ∧
      ((wReq ({ wEn with pmBins := wEn.pmBins.set {} 5 { on := true } } : State) 0 0x20 2 [0, 0, 5, 0, 0]).binsOf (([0, 0, 5, 0, 0]).getD 0 0 * 65536
      + by16 ([0, 0, 5, 0, 0]) 1)).back 0 0 = some ({} : PmBin) := by
  decide +kernel

theorem wit_PersonalityQueries_22 :
    (wReq wEn 0 0x21 1 []).dom = .run ∧ (wReq wEn 0 0x21 1 []).mbWaits 0 0x21 1 = true ∧ (wReq wEn 0 0x21 1 []).ringsClear 0 = true ∧ ((wReq wEn 0
      0x21 1 []).holder svcHouse).isSome = true := by
  decide +kernel

/-! ### Faults and prompt book (file 15) -/

/-- Link 5 (unit 5) has a report of class 4 at level 2 waiting, from block 5 (region 0); link 95 has one too. -/
def wSlot : State := { wOn with slots := (wOn.slots.set {} (32 * 5 + 4) { n := 3, level := 2, source := srcRegion 0, mixed := false, resends := 0 }).set {} (32 * 6 + 4) { n := 3, level := 2, source := srcRegion 0, mixed := false, resends := 3 } }
def wAge : State := { (wOn.wRow pgFlt T_FLT_STATE 4 [(FLT_STATE.active, 1), (FLT_STATE.level, 2), (FLT_STATE.unack, 1)]) with fltWin := wOn.fltWin.set {} 4 { quiet := 1 } }
def wLogQ : State := { wOn with logQ := [{ time := ⟨1, 2, 0⟩, typ := 1, cls := 4, source := 5, payload := 6 }] }
def wKey : State := { wOn with coalKeys := [{ cls := 4, source := 5, n := 7, level := 2 }], dpCycle := 1750000 }
def wPlb : State := wHst.wr pgPlb PLB_STATUS_state 1

theorem wit_FaultCollector_1 :
    wSlot.dom = .run ∧ 5 < 95 ∧ wSlot.nextSlot 5 = some 4 ∧ 4 < 29 ∧ (⟨3, 2, srcRegion 0, false, 0⟩ : Slot) = wSlot.slots.get {} (32 * 5 + 4) ∧ 4 = 32
      * scopeOf (⟨3, 2, srcRegion 0, false, 0⟩ : Slot).source + 4 ∧ wSlot.linkMasked 5 = false ∧ wordOk (reportBits 4 (⟨3, 2, srcRegion 0, false, 0⟩ :
      Slot)) = true ∧ (⟨3, 2, srcRegion 0, false, 0⟩ : Slot).n < 32768 ∧ (⟨3, 2, srcRegion 0, false, 0⟩ : Slot).level < 8 ∧ (⟨3, 2, srcRegion 0,
      false, 0⟩ : Slot).source < 2 ^ 32 ∧ wSlot.col.words = [] ∧ wSlot.fltAhead = false ∧ scopeOf (⟨3, 2, srcRegion 0, false, 0⟩ : Slot).source ≤ 8 ∧
      fltSt 4 FLT_STATE.unack wSlot = 0 ∧ ((wSlot.win 4).add (⟨3, 2, srcRegion 0, false, 0⟩ : Slot).n).count < wSlot.thresh 4 := by
  decide +kernel

theorem wit_FaultCollector_2 :
    (wSlot.tputb pgFlt T_FLT_LINK 5 FLT_LINK.masked true).dom = .run ∧ 5 < 96 ∧ (wSlot.tputb pgFlt T_FLT_LINK 5 FLT_LINK.masked true).nextSlot 5 =
      some 4 ∧ wordOk (reportBits 4 ((wSlot.tputb pgFlt T_FLT_LINK 5 FLT_LINK.masked true).slots.get {} (32 * 5 + 4))) = true ∧ (wSlot.tputb pgFlt
      T_FLT_LINK 5 FLT_LINK.masked true).linkMasked 5 = true ∧ (wSlot.tputb pgFlt T_FLT_LINK 5 FLT_LINK.masked true).col.words = [] := by
  decide +kernel

theorem wit_FaultCollector_3 :
    wOn.dom = .run ∧ 5 < 96 ∧ wOn.tgetb pgFlt T_FLT_LINK 5 FLT_LINK.broken = false := by
  decide +kernel

theorem wit_FaultCollector_4 :
    wSlot.dom = .run ∧ 5 < 96 ∧ wSlot.nextSlot 5 = some 4 ∧ (⟨3, 2, srcRegion 0, false, 0⟩ : Slot) = wSlot.slots.get {} (32 * 5 + 4) ∧ (⟨3, 2,
      srcRegion 0, false, 0⟩ : Slot).resends < 3 := by
  decide +kernel

theorem wit_FaultCollector_5 :
    wSlot.dom = .run ∧ 6 < 96 ∧ wSlot.nextSlot 6 = some 4 ∧ (⟨3, 2, srcRegion 0, false, 3⟩ : Slot) = wSlot.slots.get {} (32 * 6 + 4) ∧ 3 ≤ (⟨3, 2,
      srcRegion 0, false, 3⟩ : Slot).resends := by
  decide +kernel

theorem wit_FaultCollector_6 :
    wAge.dom = .run ∧ 4 < 288 ∧ fltSt 4 FLT_STATE.active wAge = 1 ∧ (wAge.win 4).quiet = 1 ∧ wAge.col.words = [] ∧ wAge.soonWords.any (fun w => decide
      (wordState w = 4)) = false := by
  decide +kernel

theorem wit_FaultCollector_7 :
    wAge.dom = .run ∧ bit 0x80000000 31 = true ∧ 4 < 288 ∧ wAge.col.words = [] := by
  decide +kernel

theorem wit_FaultCollector_8 :
    wAge.dom = .run ∧ bit 4 31 = false ∧ getBits 4 11 8 ≤ 8 ∧ wAge.col.words = [] := by
  decide +kernel

theorem wit_FaultCollector_9 :
    (wOn.wr pgMode MODE_current modeAudit).dom = .run ∧ (wOn.wr pgMode MODE_current modeAudit).injectOk = true ∧ (32 * 95 + 4) = 32 * 95 + 0x44 % 32 := by
  decide +kernel

theorem wit_FaultCollector_10 :
    (wOn.wr pgMode MODE_current modeIntermission).dom = .run ∧ (wOn.wr pgMode MODE_current modeIntermission).injectOk = false := by
  decide +kernel

theorem wit_FaultCollector_11 :
    wOn.dom = .run ∧ srcHier (srcRegion 3) ≠ 0 := by
  decide +kernel

theorem wit_FaultCollector_12 :
    wOn.dom = .run := by
  decide +kernel

theorem wit_PromptBook_1 :
    wLogQ.dom = .run ∧ wLogQ.logQ = (⟨⟨1, 2, 0⟩, 1, 4, 5, 6⟩ : LogRec) :: ([] : List LogRec) ∧ wLogQ.bankUp 0 = true ∧ wLogQ.bankUp 1 = true ∧ 0 =
      wLogQ.rd pgLog LOG_HEAD_seq ∧ wLogQ.bankDueAt (0 % 65536) = false ∧ wLogQ.col.words = [] := by
  decide +kernel

theorem wit_PromptBook_2 :
    wKey.dom = .run ∧ wKey.coalKeys.find? (fun y => decide (y.cls = 4 ∧ y.source = 5)) = some ({ cls := 4, source := 5, n := 7, level := 2 } :
      CoalKey) ∧ ({ cls := 4, source := 5, n := 7, level := 2 } : CoalKey).n ≠ 0 ∧ ({ cls := 4, source := 5, n := 7, level := 2 } : CoalKey).held =
      none ∧ wKey.logQ.length < 256 ∧ wKey.logHeld = [] ∧ ({ cls := 4, source := 5, n := 7, level := 2 } : CoalKey).last + 1750000 ≤ wKey.dpCycle ∧
      wKey.soonWords.any (fun w => decide (wordCls w = 4 ∧ wordSrc w = 5)) = false ∧ wKey.col.words = [] := by
  decide +kernel

theorem wit_PromptBook_3 :
    wOn.dom = .run ∧ 1 < 2 ∧ wOn.bankFailed 1 = false ∧ wOn.bankFailed (1 - 1) = false ∧ wOn.writeSoon 1 = false := by
  decide +kernel

theorem wit_PromptBook_4 :
    (wOn.wrb pgLog LOG_STATUS_bank0_failed true).dom = .run ∧ 1 < 2 ∧ (wOn.wrb pgLog LOG_STATUS_bank0_failed true).bankFailed 1 = false ∧ (wOn.wrb
      pgLog LOG_STATUS_bank0_failed true).bankFailed (1 - 1) = true ∧ (wOn.wrb pgLog LOG_STATUS_bank0_failed true).writeSoon 1 = false := by
  decide +kernel

theorem wit_PromptBook_5 :
    ({ wOn.ghostWrite 5 1 ghostOne with dpCycle := 100 } : State).dom = .run ∧ ({ wOn.ghostWrite 5 1 ghostOne with dpCycle := 100 } : State).admitCode
      whoSm pgLog true = bsOk ∧ whoSm.master = .sm ∧ ({ wOn.ghostWrite 5 1 ghostOne with dpCycle := 100 } : State).ghostNow = [] := by
  decide +kernel

theorem wit_PromptBook_6 :
    wHst.dom = .run ∧ wHst.rd pgPlb PLB_STATUS_state ≠ plbBusy ∧ wHst.rdb pgHst HST_LINK_up = true := by
  decide +kernel

theorem wit_PromptBook_7 :
    wOn.dom = .run ∧ wOn.rd pgPlb PLB_STATUS_state ≠ plbBusy ∧ wOn.rdb pgHst HST_LINK_up = false := by
  decide +kernel

theorem wit_PromptBook_8 :
    wPlb.dom = .run ∧ wPlb.rd pgPlb PLB_STATUS_state = plbBusy := by
  decide +kernel

theorem wit_PromptBook_9 :
    wPlb.dom = .run ∧ wPlb.rd pgPlb PLB_STATUS_state = plbBusy := by
  decide +kernel

theorem wit_PromptBook_10 :
    wOn.dom = .run ∧ 72 < 75 := by
  decide +kernel

/-! ### Modes (file 16) -/

/-- NATIVE service with region 3 draining; INTERMISSION with region 3 offline, in RESET; SAFE; AUDIT. -/
def wNat : State := (wOn.wr pgMode MODE_current modeNative).wr pgMode MODE_service modeNative
def wReh : State := wOn.wr pgMode MODE_current modeRehearsal
def wInt (st : Nat) : State := ((wOn.wr pgMode MODE_current modeIntermission).wr pgMode MODE_service modeNative).wr pgMode (MODE_REGIONS_state 3) st
def wSafe : State := wOn.wr pgMode MODE_current modeSafe
def wAudit : State := (wOn.wr pgMode MODE_current modeAudit).wr pgMode (MODE_REGIONS_state 3) rgnOffline
def wAuditBusy : State := ((wAudit.wr pgMode MODE_AUDIT_STATUS_state 1).wr pgMode MODE_AUDIT_STATUS_test 3).wr pgMode MODE_AUDIT_STATUS_target 2
def wRetrain : State := { ((wInt 2).wr (pgHbm 2) HBM_STATUS_state hbmFailed).wrb (pgCsu 51) CSU_STATUS_locked true with modeCmd := some { op := opStackRetrain, arg := 2, master := .sm } }
def wCall6 : State := ((State.reset.wr pgMode MODE_current modeCall).wr pgMode MODE_CALL_step 6)
def wResetDom : State := { State.reset with dom := .reset }
def wDarkWake : State := { ((State.reset.wr pgMode MODE_current modeDark).wrb pgCbb CBB_WAKE_CAUSE_wake_out true).wrb pgChipId CHIP_ID_VMON_core_valid true with dom := .dark }

theorem wit_ChipModes_1 :
    wReh.dom = .run ∧ wReh.admitCode whoSm pgMode true = bsOk ∧ wReh.hst.released ≠ wReh.fab ∧ wReh.modeBeaten whoSm = false ∧ wReh.modeRefusal whoSm
      opService 0 = none ∧ wReh.soonWords = [] := by
  decide +kernel

theorem wit_ChipModes_2 :
    wNat.dom = .run ∧ wNat.admitCode whoSm pgMode true = bsOk ∧ wNat.hst.released ≠ wNat.fab ∧ wNat.modeBeaten whoSm = false ∧ wNat.modeRefusal whoSm
      opRehearse 0 = none := by
  decide +kernel

theorem wit_ChipModes_3 :
    wReh.dom = .run ∧ wReh.admitCode whoSm pgMode true = bsOk ∧ wReh.hst.released ≠ wReh.fab ∧ wReh.modeBeaten whoSm = false ∧ wReh.modeRefusal whoSm
      opAudit 0 = none := by
  decide +kernel

theorem wit_ChipModes_4 :
    wNat.dom = .run ∧ wNat.admitCode whoSm pgMode true = bsOk ∧ wNat.hst.released ≠ wNat.fab ∧ wNat.modeBeaten whoSm = false ∧ wNat.modeRefusal whoSm
      opEnterSafe 0 = none := by
  decide +kernel

theorem wit_ChipModes_5 :
    wSafe.dom = .run ∧ wSafe.admitCode whoSm pgMode true = bsOk ∧ wSafe.hst.released ≠ wSafe.fab ∧ wSafe.modeBeaten whoSm = false ∧ wSafe.modeRefusal
      whoSm opExitSafe 0 = none ∧ wSafe.l4Soon = false ∧ wSafe.callStop = false := by
  decide +kernel

theorem wit_ChipModes_6 :
    ((List.range 6).foldl (fun s k => s.wr (pgHbm k) HBM_STATUS_state hbmService) wReh).dom = .run ∧ ((List.range 6).foldl (fun s k => s.wr (pgHbm k)
      HBM_STATUS_state hbmService) wReh).admitCode whoSm pgMode true = bsOk ∧ ((List.range 6).foldl (fun s k => s.wr (pgHbm k) HBM_STATUS_state
      hbmService) wReh).hst.released ≠ ((List.range 6).foldl (fun s k => s.wr (pgHbm k) HBM_STATUS_state hbmService) wReh).fab ∧ ((List.range 6).foldl
      (fun s k => s.wr (pgHbm k) HBM_STATUS_state hbmService) wReh).modeBeaten whoSm = false ∧ ((List.range 6).foldl (fun s k => s.wr (pgHbm k)
      HBM_STATUS_state hbmService) wReh).modeRefusal whoSm opEnterDark 0 = none ∧ (List.range 8).all (fun r => decide (((List.range 6).foldl (fun s k
      => s.wr (pgHbm k) HBM_STATUS_state hbmService) wReh).region r ≠ rgnReset)) = true ∧ (List.range 6).all (fun k => decide (((List.range 6).foldl
      (fun s k => s.wr (pgHbm k) HBM_STATUS_state hbmService) wReh).rd (pgHbm k) HBM_STATUS_state ≠ hbmTraining)) = true := by
  decide +kernel

theorem wit_ChipModes_7 :
    wNat.dom = .run ∧ wNat.admitCode whoSm pgMode true = bsOk ∧ wNat.hst.released ≠ wNat.fab ∧ wNat.modeBeaten whoSm = false ∧ wNat.modeRefusal whoSm
      opAudit 0 = some mcMode := by
  decide +kernel

theorem wit_RegionCommands_1 :
    wNat.dom = .run ∧ wNat.admitCode whoSm pgMode true = bsOk ∧ wNat.hst.released ≠ wNat.fab ∧ wNat.modeBeaten whoSm = false ∧ wNat.modeRefusal whoSm
      opDrain 3 = none ∧ wNat.region 3 = rgnActive := by
  decide +kernel

theorem wit_RegionCommands_2 :
    wNat.dom = .run ∧ wNat.admitCode whoSm pgMode true = bsOk ∧ wNat.hst.released ≠ wNat.fab ∧ wNat.modeBeaten whoSm = false ∧ wNat.modeRefusal whoSm
      opOffline 3 = none ∧ (wNat.region 3 = rgnActive ∨ wNat.region 3 = rgnDraining) := by
  decide +kernel

theorem wit_RegionCommands_3 :
    (wInt rgnDraining).dom = .run ∧ (wInt rgnDraining).admitCode whoSm pgMode true = bsOk ∧ (wInt rgnDraining).hst.released ≠ (wInt rgnDraining).fab ∧
      (wInt rgnDraining).modeBeaten whoSm = false ∧ (wInt rgnDraining).modeRefusal whoSm opResume 3 = none ∧ (wInt rgnDraining).region 3 = rgnDraining := by
  decide +kernel

theorem wit_RegionCommands_4 :
    ((wInt rgnOffline).wRow pgFlt T_FLT_STATE (32 * 3 + 4) [(FLT_STATE.active, 1), (FLT_STATE.level, 3)]).dom = .run ∧ ((wInt rgnOffline).wRow pgFlt
      T_FLT_STATE (32 * 3 + 4) [(FLT_STATE.active, 1), (FLT_STATE.level, 3)]).admitCode whoSm pgMode true = bsOk ∧ ((wInt rgnOffline).wRow pgFlt
      T_FLT_STATE (32 * 3 + 4) [(FLT_STATE.active, 1), (FLT_STATE.level, 3)]).hst.released ≠ ((wInt rgnOffline).wRow pgFlt T_FLT_STATE (32 * 3 + 4)
      [(FLT_STATE.active, 1), (FLT_STATE.level, 3)]).fab ∧ ((wInt rgnOffline).wRow pgFlt T_FLT_STATE (32 * 3 + 4) [(FLT_STATE.active, 1),
      (FLT_STATE.level, 3)]).modeBeaten whoSm = false ∧ ((wInt rgnOffline).wRow pgFlt T_FLT_STATE (32 * 3 + 4) [(FLT_STATE.active, 1),
      (FLT_STATE.level, 3)]).modeRefusal whoSm opResume 3 = none ∧ ((wInt rgnOffline).wRow pgFlt T_FLT_STATE (32 * 3 + 4) [(FLT_STATE.active, 1),
      (FLT_STATE.level, 3)]).region 3 = rgnOffline ∧ ((wInt rgnOffline).wRow pgFlt T_FLT_STATE (32 * 3 + 4) [(FLT_STATE.active, 1), (FLT_STATE.level,
      3)]).activeL3 3 = true := by
  decide +kernel

theorem wit_RegionCommands_5 :
    (wInt rgnOffline).dom = .run ∧ (wInt rgnOffline).admitCode whoSm pgMode true = bsOk ∧ (wInt rgnOffline).hst.released ≠ (wInt rgnOffline).fab ∧
      (wInt rgnOffline).modeBeaten whoSm = false ∧ (wInt rgnOffline).modeRefusal whoSm opReset 3 = none ∧ (wInt rgnOffline).region 3 ≠ rgnReset := by
  decide +kernel

theorem wit_RegionCommands_6 :
    (wInt rgnOffline).dom = .run ∧ (wInt rgnOffline).admitCode whoSm pgMode true = bsOk ∧ (wInt rgnOffline).hst.released ≠ (wInt rgnOffline).fab ∧
      (wInt rgnOffline).modeBeaten whoSm = false ∧ (wInt rgnOffline).modeRefusal whoSm opResetClear 3 = none ∧ (wInt rgnOffline).region 3 ≠ rgnReset := by
  decide +kernel

theorem wit_RegionCommands_7 :
    ({ wInt rgnReset with modeCmd := some ⟨opReset, 3, .sm⟩ } : State).dom = .run ∧ 3 < 8 ∧ ({ wInt rgnReset with modeCmd := some ⟨opReset, 3, .sm⟩ }
      : State).region 3 = rgnReset ∧ ({ wInt rgnReset with modeCmd := some ⟨opReset, 3, .sm⟩ } : State).mode ≠ modeCall ∧
      ({ wInt rgnReset with modeCmd := some ⟨opReset, 3, .sm⟩ } : State).deferredIso.contains 3 = false ∧
      ({ wInt rgnReset with modeCmd := some ⟨opReset, 3, .sm⟩ } : State).modeCmd = some (⟨opReset, 3, .sm⟩ : ModeCmd) ∧ (⟨opReset, 3, .sm⟩ :
      ModeCmd).op = opReset ∧ (⟨opReset, 3, .sm⟩ : ModeCmd).arg = 3 := by
  decide +kernel

theorem wit_RegionCommands_8 :
    (wInt rgnOffline).dom = .run ∧ (wInt rgnOffline).admitCode whoSm pgMode true = bsOk ∧ (wInt rgnOffline).hst.released ≠ (wInt rgnOffline).fab ∧
      (wInt rgnOffline).modeBeaten whoSm = false ∧ (wInt rgnOffline).modeRefusal whoSm opUpdate 3 = none ∧ (wInt rgnOffline).region 3 = rgnOffline ∧
      (updUnits 3).all (fun u => !(wInt rgnOffline).csuB u CSU_STATUS_ref_ok) = true := by
  decide +kernel

theorem wit_RegionCommands_9 :
    ({ wRetrain with modeCmd := none } : State).dom = .run ∧ ({ wRetrain with modeCmd := none } : State).admitCode whoSm pgMode true = bsOk ∧
      ({ wRetrain with modeCmd := none } : State).hst.released ≠ ({ wRetrain with modeCmd := none } : State).fab ∧ ({ wRetrain with modeCmd := none }
      : State).modeBeaten whoSm = false ∧ ({ wRetrain with modeCmd := none } : State).modeRefusal whoSm opStackRetrain 2 = none ∧
      ({ wRetrain with modeCmd := none } : State).rd (pgHbm 2) HBM_STATUS_state = hbmFailed := by
  decide +kernel

theorem wit_RegionCommands_10 :
    (wInt rgnOffline).dom = .run ∧ (wInt rgnOffline).admitCode whoSm pgMode true = bsOk ∧ (wInt rgnOffline).hst.released ≠ (wInt rgnOffline).fab ∧
      (wInt rgnOffline).modeBeaten whoSm = false ∧ (wInt rgnOffline).modeRefusal whoSm opStackRetrain 2 = none ∧ (wInt rgnOffline).rd (pgHbm 2)
      HBM_STATUS_state ≠ hbmFailed := by
  decide +kernel

theorem wit_RegionCommands_11 :
    wRetrain.dom = .run ∧ 2 < 6 ∧ wRetrain.mode ≠ modeCall ∧ wRetrain.modeCmd = some (⟨opStackRetrain, 2, .sm⟩ : ModeCmd) ∧ (⟨opStackRetrain, 2, .sm⟩
      : ModeCmd).op = opStackRetrain ∧ (⟨opStackRetrain, 2, .sm⟩ : ModeCmd).arg = 2 ∧ wRetrain.csuB (49 + 2) CSU_STATUS_locked = true := by
  decide +kernel

theorem wit_ResetCallAndAudit_2 :
    wResetDom.dom = .reset := by
  decide +kernel

theorem wit_ResetCallAndAudit_4 :
    wDarkWake.dom = .dark ∧ wDarkWake.rdb pgCbb CBB_WAKE_CAUSE_wake_out = true ∧ wDarkWake.rdb pgChipId CHIP_ID_VMON_core_valid = true := by
  decide +kernel

theorem wit_ResetCallAndAudit_5 :
    wCall6.dom = .run ∧ wCall6.mode = modeCall ∧ wCall6.rd pgMode MODE_CALL_step = 6 ∧ wCall6.callStop = false := by
  decide +kernel

theorem wit_ResetCallAndAudit_6 :
    wAudit.dom = .run ∧ ((Instr.queueMem 3), 2) ∈ [(Instr.regionSram 3, 1), (Instr.queueMem 3, 2), (Instr.hbmAlign 3, 3), (Instr.logBank 3, 4),
      (Instr.fuse 3, 5), (Instr.aonVote 3, 6)] ∧ wAudit.mode = modeAudit ∧ wAudit.auditState ≠ auditBusy ∧ wAudit.auditOk 2 (3 % 256) = true := by
  decide +kernel

theorem wit_ResetCallAndAudit_7 :
    wReh.dom = .run ∧ ((Instr.aonVote 0), 6) ∈ [(Instr.regionSram 0, 1), (Instr.queueMem 0, 2), (Instr.hbmAlign 0, 3), (Instr.logBank 0, 4),
      (Instr.fuse 0, 5), (Instr.aonVote 0, 6)] ∧ wReh.auditState ≠ auditBusy ∧ wReh.mode ≠ modeAudit := by
  decide +kernel

theorem wit_ResetCallAndAudit_8 :
    wAuditBusy.dom = .run ∧ wAuditBusy.auditState = auditBusy ∧ wAuditBusy.rd pgMode MODE_AUDIT_STATUS_test ≠ 6 := by
  decide +kernel

theorem wit_ResetCallAndAudit_9 :
    (wAuditBusy.wr pgMode MODE_AUDIT_STATUS_test 5).dom = .run ∧ (wAuditBusy.wr pgMode MODE_AUDIT_STATUS_test 5).auditState = auditBusy ∧
      (wAuditBusy.wr pgMode MODE_AUDIT_STATUS_test 5).rd pgMode MODE_AUDIT_STATUS_test = 5 := by
  decide +kernel

theorem wit_ResetCallAndAudit_10 :
    ({ (wOn.wrb pgChipId CHIP_ID_VMON_core_valid true) with life := { wOn.life with top := some 1700 } }).dom ≠ .dark ∧
      ({ (wOn.wrb pgChipId CHIP_ID_VMON_core_valid true) with life := { wOn.life with top := some 1700 } }).rdb pgChipId CHIP_ID_VMON_core_valid =
      true ∧ ({ (wOn.wrb pgChipId CHIP_ID_VMON_core_valid true) with life := { wOn.life with top := some 1700 } }).lifeTop (none : Option Int) = some
      (1700 : Int) ∧ 1680 ≤ (1700 : Int) := by
  decide +kernel

/-! ### Package (file 17) -/

def wVmon : State := wOn.wrb pgChipId CHIP_ID_VMON_core_valid true
def wHot : State := { wOn with thermHot := [3] }

theorem wit_PackageInputs_1 :
    wVmon.dom = .run ∧ 7 ≤ 7 ∧ 7 < 10 ∧ bit wVmon.supplyOff 7 = false := by
  decide +kernel

theorem wit_PackageInputs_3 :
    wVmon.dom = .run ∧ 9 < 10 := by
  decide +kernel

theorem wit_PackageInputs_5 :
    wOn.dom = .run ∧ 3 < 16 ∧ (1980 : Int) < 2000 ∧ wOn.thermOff.get 0 3 < 8 ∧ bit (wOn.thermOff.get 0 3) 0 = false ∧ 16 * (wOn.rd pgChipId
      CHIP_ID_THERM_DIE_warn : Int) ≤ (1980 : Int) := by
  decide +kernel

theorem wit_PackageInputs_6 :
    wHot.dom = .run ∧ 3 < 16 ∧ 2000 ≤ (2001 : Int) ∧ wHot.thermHot.contains 3 = true := by
  decide +kernel

theorem wit_PackageInputs_7 :
    0x40 = 0x40 + getBits (wOn.rd pgChipId CHIP_ID_STRAP_strap) 4 2 := by
  decide +kernel

theorem wit_PackageInputs_8 :
    0x41 ≠ 0x40 + getBits (wOn.rd pgChipId CHIP_ID_STRAP_strap) 4 2 := by
  decide +kernel

/-! ### The whole machine -/

/-- A state with two commands waiting. -/
def wQueued : State := { wEvt with pending := [.los (.line 3), .slewDone] }
/-- A closed second waits for its records. -/
def wPend : State := { wOn with pmPend := [{ sec := 7, quality := 0, count := 1, stepped := false, resetRegions := [], recs := [] }] }

theorem wit_StepTakesTheFront : (wOn.pending = [] ∧ wOn.dom = .run) ∧ (({ wOn with dom := .dark } : State).pending = [] ∧
    ({ wOn with dom := .dark } : State).dom ≠ .run) := by
  decide +kernel

theorem wit_ResetState : (3 : Nat) < 8 := by
  decide

theorem wit_StepKeepsTheForm : State.reset.mem = [] ∧ State.reset.tb = {} ∧ State.reset.logQ = [] ∧
    (step State.reset matches .next _) = true := by
  decide +kernel

theorem wit_OnlyPrivateJtagStops : bit ({ State.reset with rights := 1 } : State).rights 0 = true ∧ bit State.reset.rights 0 = false := by
  decide +kernel

theorem wit_QueueDrains : (∀ c ∈ wQueued.pending, c ≠ Instr.jtagInstruction .priv) ∧ 2 ≤ wQueued.pending.length := by
  decide +kernel

theorem wit_Frame : (exec (.cdrLock 3) wOn matches .next _) = true ∧ (footOf (.cdrLock 3)).hasReg LLN_STATUS_trained = false ∧
    (footOf (.cdrLock 3)).hasTab T_LOG_ENTRY = false ∧ Part.mem ∉ (footOf (.cdrLock 3)).parts := by
  decide +kernel

theorem wit_RecordsStay : (exec (.cdrLock 3) wEvt matches .next _) = true ∧ keepsEvents (.cdrLock 3) = true ∧
    wEvt.hasEvt (pgLln 3) 5 = true := by
  decide +kernel

theorem wit_HbmBytes : (wOn.dom = .run ∧ wOn.col.bankDue.1 ≠ wOn.fab ∧ wOn.rd pgLog LOG_MIRROR_BASE_base / 2 ^ 30 * 2 ^ 30 + 32 * (wOn.rd pgLog LOG_HEAD_seq % 2 ^ 25) + 32 ≤ 2 ^ 40) ∧
    (wPend.dom = .run ∧ wPend.pmPend.length = 1 ∧
      wPend.rd pgWng WNG_PMS_BASE_base / 2 ^ 24 * 2 ^ 24 + 7 % (wPend.rd pgWng WNG_PMS_CFG_depth_m1 + 1) * 0x1000000 + 0x1000000 ≤ 2 ^ 40) ∧
    wOn.wgBlock 0 0 + blockBytes ≤ 2 ^ 40 := by
  decide +kernel

theorem wit_BallGrid : (1 ≤ 136 ∧ 136 ≤ 136) ∧ (255 : Nat) < 256 ∧ (767 : Nat) < 768 ∧ Zone.se ∈ [Zone.nw, .ne, .sw, .se] ∧ (95 : Nat) < 96 ∧
    ((⟨13, 26⟩ : Ball).row + (⟨13, 26⟩ : Ball).col) % 2 = 1 := by
  decide

theorem wHalf_level : wHalf.cliLevel (.ctx 0 0 2) = cliDepth 2 / 2 := by
  have hc : wHalf.refCode (.ctx 0 0 2) = 2 := by decide +kernel
  unfold State.cliLevel
  rw [hc]
  show (((wCli.clis.set {} (ckey 0 0 2) { wCli.cli (ckey 0 0 2) with buf := List.replicate (cliDepth 2 / 2) idleBlk }).get {}
    (ckey 0 0 2)).level 2) = _
  rw [SMap.get_set_same]
  show (List.replicate (cliDepth 2 / 2) idleBlk).length = _
  rw [List.length_replicate]

theorem wit_ClientBuffers_4 : wHalf.dom = .run ∧ wHalf.refOn (.ctx 0 0 2) = true ∧
    cliDepth (wHalf.refCode (.ctx 0 0 2)) ≤ 4 * wHalf.cliLevel (.ctx 0 0 2) ∧
    4 * wHalf.cliLevel (.ctx 0 0 2) ≤ 3 * cliDepth (wHalf.refCode (.ctx 0 0 2)) := by
  have hc : wHalf.refCode (.ctx 0 0 2) = 2 := by decide +kernel
  have hd : 2 ≤ cliDepth 2 := by unfold cliDepth; split <;> omega
  refine ⟨by decide +kernel, by decide +kernel, ?_, ?_⟩ <;> rw [hc, wHalf_level] <;> omega

theorem wit_EventStamps : wOn.dom = .run ∧ wOn.admitCode (accSm (pgOtu 5) 32).who (accSm (pgOtu 5) 32).page true = bsOk ∧
    (accSm (pgOtu 5) 32).be % 16 = 15 ∧ (5 : Nat) < 31 ∧ (pageRegion (accSm (pgOtu 5) 32).page).all wOn.regionSpeaks = true := by
  decide +kernel

theorem wit_VotedFields : MODE_model.acc = .rv ∧ wOn.regs.get MODE_model.reset (fkey pgMode MODE_model) = 0 ∧
    wOn.regsC.get MODE_model.reset (fkey pgMode MODE_model) = 0 := by
  decide +kernel

end Sys2Proof.Machine
end

namespace Sys2Proof.Machine

open Sys2Proof

/-! ### The bits of a footprint's mask -/

theorem testBit_foldl_lor {α : Type} (g : α → Nat) (l : List α) (m i : Nat) :
    (l.foldl (fun m x => m ||| g x) m).testBit i = (m.testBit i || l.any (fun x => (g x).testBit i)) := by
  induction l generalizing m with
  | nil => simp
  | cons x l ih => rw [List.foldl_cons, ih, Nat.testBit_or, List.any_cons, Bool.or_assoc]

/-- The bits that stand in every footprint's mask: the queue, the two outputs, the register and table stores as wholes (which the bits
by place and by code take the place of), and the kept facts. -/
def maskBase : Nat :=
  2 ^ 0 ||| 2 ^ 1 ||| 2 ^ 2 ||| 2 ^ 5 ||| 2 ^ 6 ||| 2 ^ 7 ||| 2 ^ 8 ||| 2 ^ 9 ||| 2 ^ 10 ||| 63 * 2 ^ 400

theorem Foot.testBit_mask (a : Foot) (i : Nat) :
    a.mask.testBit i =
      (((if a.anyReg then allRegs.testBit i else a.regs.any (fun f => (mFld f).testBit i)) ||
        (if a.anyTab then allTabs.testBit i else a.tabs.any (fun x => (mTab x).testBit i))) ||
        (maskBase.testBit i || a.parts.any (fun p => (2 ^ p.bit).testBit i))) := by
  show ((if a.anyReg then allRegs else a.regs.foldl (fun m f => m ||| mFld f) 0) |||
    (if a.anyTab then allTabs else a.tabs.foldl (fun m f => m ||| mTab f) 0) |||
    a.parts.foldl (fun m p => m ||| 2 ^ p.bit) maskBase).testBit i = _
  rw [Nat.testBit_or, Nat.testBit_or, testBit_foldl_lor]
  cases a.anyReg <;> cases a.anyTab <;> simp [testBit_foldl_lor]

theorem testBit_mFld (f : Field) (i : Nat) : (mFld f).testBit i = decide (512 + f.place = i) := Nat.testBit_two_pow

theorem testBit_mTab (x : Tab) (i : Nat) : (mTab x).testBit i = decide (128 + x.code % 256 = i) := Nat.testBit_two_pow

theorem testBit_mFld_below {i : Nat} (h : i < 512) (f : Field) : (mFld f).testBit i = false := by
  rw [testBit_mFld, decide_eq_false (by omega)]

theorem testBit_mTab_outside {i : Nat} (h : i < 128 ∨ 384 ≤ i) (x : Tab) : (mTab x).testBit i = false := by
  rw [testBit_mTab, decide_eq_false (by omega)]

theorem testBit_allRegs_below {i : Nat} (h : i < 512) : allRegs.testBit i = false := by
  rw [allRegs, Nat.testBit_mul_two_pow, decide_eq_false (by omega), Bool.false_and]

theorem testBit_allTabs_outside {i : Nat} (h : i < 128 ∨ 384 ≤ i) : allTabs.testBit i = false := by
  rw [allTabs, Nat.testBit_mul_two_pow, Nat.testBit_two_pow_sub_one]
  simp
  omega

theorem fkey_mod_place (pg : Nat) (f : Field) : fkey pg f % 8192 = f.place := by
  unfold fkey Field.place
  omega

theorem Part.bit_eq_ctorIdx (p : Part) : p.bit = if p.ctorIdx < 2 then p.ctorIdx + 3 else p.ctorIdx + 9 := by
  cases p <;> rfl

/-- Different parts have different bits. -/
theorem Part.bit_inj {p q : Part} (h : p.bit = q.bit) : p = q := by
  rw [Part.bit_eq_ctorIdx, Part.bit_eq_ctorIdx] at h
  have hIdx : p.ctorIdx = q.ctorIdx := by split at h <;> split at h <;> omega
  rw [← Part.ofNat_ctorIdx p, hIdx, Part.ofNat_ctorIdx]

/-- The bits of the parts lie below those of the tables and the registers. -/
theorem Part.bit_lt (p : Part) : p.bit < 123 := by cases p <;> decide

theorem testBit_partBit_above {i : Nat} (h : 123 ≤ i) (p : Part) : (2 ^ p.bit).testBit i = false := by
  have hBit := p.bit_lt
  rw [Nat.testBit_two_pow, decide_eq_false (by omega)]

theorem testBit_maskBase_part (p : Part) : maskBase.testBit p.bit = false := by cases p <;> decide +kernel

theorem testBit_maskBase_tab {c : Nat} (h : c < 256) : maskBase.testBit (128 + c) = false :=
  (by decide +kernel : ∀ c < 256, maskBase.testBit (128 + c) = false) c h

theorem testBit_maskBase_reg (k : Nat) : maskBase.testBit (512 + k) = false := by
  have hHigh : maskBase >>> 512 = 0 := by decide +kernel
  rw [← Nat.testBit_shiftRight, hHigh, Nat.zero_testBit]

/-- A register that a footprint lacks stands at a clear bit of its mask. -/
theorem Foot.testBit_mask_of_hasReg {a : Foot} {f : Field} (h : a.hasReg f = false) : a.mask.testBit (512 + f.place) = false := by
  simp only [Foot.hasReg, Bool.or_eq_false_iff, List.any_eq_false, decide_eq_true_eq] at h
  obtain ⟨hAny, hRegs⟩ := h
  have hReg : a.regs.any (fun g => (mFld g).testBit (512 + f.place)) = false := by simpa [testBit_mFld] using hRegs
  have hHigh : 384 ≤ 512 + f.place := by omega
  simp [Foot.testBit_mask, hAny, hReg, testBit_maskBase_reg, testBit_mTab_outside (.inr hHigh), testBit_allTabs_outside (.inr hHigh),
    testBit_partBit_above (show 123 ≤ 512 + f.place by omega)]

/-- A table that a footprint lacks stands at a clear bit of its mask. -/
theorem Foot.testBit_mask_of_hasTab {a : Foot} {x : Tab} (h : a.hasTab x = false) : a.mask.testBit (128 + x.code % 256) = false := by
  simp only [Foot.hasTab, Bool.or_eq_false_iff, List.any_eq_false, decide_eq_true_eq] at h
  obtain ⟨hAny, hTabs⟩ := h
  have hCode : x.code % 256 < 256 := Nat.mod_lt _ (by decide)
  have hTab : a.tabs.any (fun y => (mTab y).testBit (128 + x.code % 256)) = false := by simpa [testBit_mTab] using hTabs
  have hLow : 128 + x.code % 256 < 512 := by omega
  simp [Foot.testBit_mask, hAny, hTab, testBit_maskBase_tab hCode, testBit_mFld_below hLow, testBit_allRegs_below hLow,
    testBit_partBit_above (show 123 ≤ 128 + x.code % 256 by omega)]

/-- A part that a footprint lacks stands at a clear bit of its mask. -/
theorem Foot.testBit_mask_of_not_mem {a : Foot} {p : Part} (h : p ∉ a.parts) : a.mask.testBit p.bit = false := by
  have hBit := p.bit_lt
  have hPart : a.parts.any (fun q => (2 ^ q.bit).testBit p.bit) = false := by
    simp only [List.any_eq_false, Nat.testBit_two_pow, decide_eq_true_eq]
    intro q hq hEq
    exact h (Part.bit_inj hEq ▸ hq)
  have hReg : p.bit < 512 := by omega
  have hTab : p.bit < 128 := by omega
  simp [Foot.testBit_mask, hPart, testBit_maskBase_part, testBit_mFld_below hReg, testBit_allRegs_below hReg,
    testBit_mTab_outside (.inl hTab), testBit_allTabs_outside (.inl hTab)]

/-! ### The frame of a command -/

/-- A command either goes to a next state that `State.done` builds, or is the one form of JTAG_INSTRUCTION that stops. -/
theorem exec_eq_done_or_fault (c : Instr) (s : State) : (∃ u, exec c s = s.done u) ∨ exec c s = .fault .jtagPrivate := by
  cases c
  case jtagInstruction x =>
    show (∃ u, execJtagInstruction x s = s.done u) ∨ execJtagInstruction x s = .fault .jtagPrivate
    unfold execJtagInstruction
    split
    · exact .inr rfl
    · exact .inl ⟨_, rfl⟩
  all_goals exact .inl ⟨_, rfl⟩

/-- No command touches the queue. -/
theorem exec_pending {c : Instr} {s t : State} (h : exec c s = .next t) : t.pending = s.pending := by
  obtain ⟨u, hu⟩ | hFault := exec_eq_done_or_fault c s
  · rw [hu] at h
    cases h
    rfl
  · rw [hFault] at h
    cases h

/-- A part at a clear bit of the mask is the same in both states: each part has its field in `Fr`. -/
theorem Fr.same {M : Nat} {s t : State} (h : Fr M s t) (p : Part) (hp : M.testBit p.bit = false) : p.same s t := by
  cases h
  cases p <;> (dsimp only [Part.bit, Part.same] at hp ⊢; solve_by_elim)

/-- Everything that the mask allows lies in the footprint. -/
def Foot.Covers (a : Foot) (M : Nat) : Prop := ∀ i, a.mask.testBit i = false → M.testBit i = false

theorem MaskLe.covers {M : Nat} {a : Foot} (h : MaskLe M a.mask) : a.Covers M := fun _ hi => h.bit hi

/-- The footprint of a command covers the mask of its law. -/
theorem footOf_covers_execMask (c : Instr) : (footOf c).Covers (execMask c) := by
  cases c with
  | registerWrite _ => exact foot_registerWrite.covers
  | pageCtrlWrite _ _ => exact foot_pageCtrlWrite.covers
  | pageOwnerWrite _ _ => exact foot_pageOwnerWrite.covers
  | evtStatusRead _ => exact foot_evtStatusRead.covers
  | evtAckWrite _ _ => exact foot_evtAckWrite.covers
  | evtForceWrite _ _ => exact foot_evtForceWrite.covers
  | voteScrub _ => exact foot_voteScrub.covers
  | loRead _ => exact foot_loRead.covers
  | loWrite _ _ => exact foot_loWrite.covers
  | hiWrite _ _ => exact foot_hiWrite.covers
  | indAddrWrite _ _ => exact foot_indAddrWrite.covers
  | indData3Write _ _ => exact foot_indData3Write.covers
  | indData3Read _ => exact foot_indData3Read.covers
  | cueGo _ _ _ => exact foot_cueGo.covers
  | cueRevert _ _ => exact foot_cueRevert.covers
  | cueImageCrc _ => exact foot_cueImageCrc.covers
  | cueCheckEnd _ => exact foot_cueCheckEnd.covers
  | cueRowAdopt _ _ => exact foot_cueRowAdopt.covers
  | blockRestart _ _ => exact foot_blockRestart.covers
  | blockRestartRelease _ => exact foot_blockRestartRelease.covers
  | blockRestartTimeout _ => exact foot_blockRestartTimeout.covers
  | adaptationDone _ => exact foot_adaptationDone.covers
  | llnTxFirWrite _ _ => exact foot_llnTxFirWrite.covers
  | llnRxEqWrite _ _ => exact foot_llnRxEqWrite.covers
  | trialStart _ _ => exact foot_trialStart.covers
  | trialDwellEnd _ => exact foot_trialDwellEnd.covers
  | codewordDecode _ _ _ => exact foot_codewordDecode.covers
  | fecSnap _ => exact foot_fecSnap.covers
  | los _ => exact foot_los.covers
  | signalDetect _ => exact foot_signalDetect.covers
  | cdrUnlock _ => exact foot_cdrUnlock.covers
  | cwLock _ => exact foot_cwLock.covers
  | cwUnlock _ _ => exact foot_cwUnlock.covers
  | deskewMeasure _ _ => exact foot_deskewMeasure.covers
  | prbsLock _ _ => exact foot_prbsLock.covers
  | prbsLockLost _ _ => exact foot_prbsLockLost.covers
  | prbsInject _ => exact foot_prbsInject.covers
  | flexoFrame _ _ => exact foot_flexoFrame.covers
  | otucFrame _ _ => exact foot_otucFrame.covers
  | lofOn _ => exact foot_lofOn.covers
  | lofOff _ => exact foot_lofOff.covers
  | lomOn _ => exact foot_lomOn.covers
  | lomOff _ => exact foot_lomOff.covers
  | dlomCnOn _ => exact foot_dlomCnOn.covers
  | dlomCnOff _ => exact foot_dlomCnOff.covers
  | bondEnter _ => exact foot_bondEnter.covers
  | otucTxFrame _ _ => exact foot_otucTxFrame.covers
  | corruptFas _ => exact foot_corruptFas.covers
  | oduFrameSink _ _ _ => exact foot_oduFrameSink.covers
  | dloflomOn _ _ _ => exact foot_dloflomOn.covers
  | dloflomOff _ _ _ => exact foot_dloflomOff.covers
  | oduFrameSource _ _ _ => exact foot_oduFrameSource.covers
  | contextForcedAis _ _ _ => exact foot_contextForcedAis.covers
  | secondBoundary => exact foot_secondBoundary.covers
  | pmSecond => exact foot_pmSecond.covers
  | episodeChange _ => exact foot_episodeChange.covers
  | aggregatedOff _ => exact foot_aggregatedOff.covers
  | gmpMapPeriod _ _ _ _ => exact foot_gmpMapPeriod.covers
  | gmpDemapPeriod _ _ _ _ => exact foot_gmpDemapPeriod.covers
  | ampJustify _ _ _ => exact foot_ampJustify.covers
  | ampDemuxPeriod _ _ _ _ _ => exact foot_ampDemuxPeriod.covers
  | impBlock _ _ _ => exact foot_impBlock.covers
  | crateOff _ => exact foot_crateOff.covers
  | rateHold _ _ => exact foot_rateHold.covers
  | rateHoldEnd _ _ => exact foot_rateHoldEnd.covers
  | closOn _ => exact foot_closOn.covers
  | closOff _ => exact foot_closOff.covers
  | clfChange _ _ => exact foot_clfChange.covers
  | crfChange _ _ => exact foot_crfChange.covers
  | suspectHoldEnd _ => exact foot_suspectHoldEnd.covers
  | legStatusChange _ _ => exact foot_legStatusChange.covers
  | holdOffExpiry _ _ => exact foot_holdOffExpiry.covers
  | wtrExpiry _ => exact foot_wtrExpiry.covers
  | confirmationExpiry _ => exact foot_confirmationExpiry.covers
  | bridgeChangeApply _ _ => exact foot_bridgeChangeApply.covers
  | clr _ _ => exact foot_clr.covers
  | lo _ _ => exact foot_lo.covers
  | fs _ _ => exact foot_fs.covers
  | ms _ _ => exact foot_ms.covers
  | msW _ _ => exact foot_msW.covers
  | exer _ _ => exact foot_exer.covers
  | setSel _ _ => exact foot_setSel.covers
  | setBridge _ _ => exact foot_setBridge.covers
  | setAps _ _ => exact foot_setAps.covers
  | setAll _ _ => exact foot_setAll.covers
  | ackSfp _ _ => exact foot_ackSfp.covers
  | prtNoteRead _ => exact foot_prtNoteRead.covers
  | apsMessageReceive _ _ => exact foot_apsMessageReceive.covers
  | apsAgeScan => exact foot_apsAgeScan.covers
  | dfopNr _ => exact foot_dfopNr.covers
  | stampInstance _ _ _ => exact foot_stampInstance.covers
  | wingsGroupStart _ _ _ => exact foot_wingsGroupStart.covers
  | playoutAdvance _ _ => exact foot_playoutAdvance.covers
  | slotGrant => exact foot_slotGrant.covers
  | overRecover _ => exact foot_overRecover.covers
  | hbmRetrainPc _ _ => exact foot_hbmRetrainPc.covers
  | stackFail _ _ => exact foot_stackFail.covers
  | groupFallback _ => exact foot_groupFallback.covers
  | hbmRestore _ => exact foot_hbmRestore.covers
  | ackFail _ => exact foot_ackFail.covers
  | fybryAdaptationDone _ => exact foot_fybryAdaptationDone.covers
  | fylTxEqWrite _ _ _ => exact foot_fylTxEqWrite.covers
  | markerLock _ _ _ => exact foot_markerLock.covers
  | markerLockLost _ _ => exact foot_markerLockLost.covers
  | segmentReceive _ _ => exact foot_segmentReceive.covers
  | segmentSlot _ => exact foot_segmentSlot.covers
  | segmentComplete _ _ _ => exact foot_segmentComplete.covers
  | reorderTimeout _ _ => exact foot_reorderTimeout.covers
  | flowAbsent _ _ => exact foot_flowAbsent.covers
  | linkFail _ _ => exact foot_linkFail.covers
  | fylFail _ => exact foot_fylFail.covers
  | fylRestore _ => exact foot_fylRestore.covers
  | ohqRdRead _ _ => exact foot_ohqRdRead.covers
  | ohqWrWrite _ _ _ => exact foot_ohqWrWrite.covers
  | flush _ _ _ _ => exact foot_flush.covers
  | flushApply _ _ _ => exact foot_flushApply.covers
  | dropRest _ _ _ _ => exact foot_dropRest.covers
  | chkStart _ _ => exact foot_chkStart.covers
  | chkDataWrite _ _ _ => exact foot_chkDataWrite.covers
  | chkFinish _ _ => exact foot_chkFinish.covers
  | chkAbort _ _ => exact foot_chkAbort.covers
  | sdpFrameReceive _ => exact foot_sdpFrameReceive.covers
  | sdpRxDescRead _ => exact foot_sdpRxDescRead.covers
  | sdpRxDataRead _ => exact foot_sdpRxDataRead.covers
  | sdpTxStart _ _ _ => exact foot_sdpTxStart.covers
  | sdpTxAbort _ => exact foot_sdpTxAbort.covers
  | sdpTxDataWrite _ _ => exact foot_sdpTxDataWrite.covers
  | sdpTransmit => exact foot_sdpTransmit.covers
  | sdpAgeScan => exact foot_sdpAgeScan.covers
  | pauseExpiry _ => exact foot_pauseExpiry.covers
  | pauseBreak _ => exact foot_pauseBreak.covers
  | sdpStatHalfRead _ => exact foot_sdpStatHalfRead.covers
  | cbbFrameReceive _ => exact foot_cbbFrameReceive.covers
  | cbbTxSend _ _ _ _ => exact foot_cbbTxSend.covers
  | cbbTxAbort _ => exact foot_cbbTxAbort.covers
  | cbbTxTimeout => exact foot_cbbTxTimeout.covers
  | masterLost => exact foot_masterLost.covers
  | tokenRegen _ => exact foot_tokenRegen.covers
  | tokenSuccessorTimeout => exact foot_tokenSuccessorTimeout.covers
  | beaconSend _ => exact foot_beaconSend.covers
  | windowClose => exact foot_windowClose.covers
  | partnerLost => exact foot_partnerLost.covers
  | cbbWakeAck => exact foot_cbbWakeAck.covers
  | darkWake _ => exact foot_darkWake.covers
  | refLost _ _ => exact foot_refLost.covers
  | refBack _ _ _ => exact foot_refBack.covers
  | lockLost _ => exact foot_lockLost.covers
  | relock _ _ => exact foot_relock.covers
  | reband _ _ _ => exact foot_reband.covers
  | rebandDone _ => exact foot_rebandDone.covers
  | bandEdge _ _ => exact foot_bandEdge.covers
  | ppsEdge _ _ => exact foot_ppsEdge.covers
  | ppsLost _ => exact foot_ppsLost.covers
  | todMessage _ _ => exact foot_todMessage.covers
  | slewDone => exact foot_slewDone.covers
  | holdoverExpired => exact foot_holdoverExpired.covers
  | todOutSend => exact foot_todOutSend.covers
  | timNowRead _ => exact foot_timNowRead.covers
  | setSec _ => exact foot_setSec.covers
  | timTsRead _ => exact foot_timTsRead.covers
  | hostLinkDown => exact foot_hostLinkDown.covers
  | hostLinkUp _ _ => exact foot_hostLinkUp.covers
  | vfFlr _ => exact foot_vfFlr.covers
  | hostRequest _ => exact foot_hostRequest.covers
  | busTimeout _ _ _ _ _ => exact foot_busTimeout.covers
  | setPage _ => exact foot_setPage.covers
  | setObj _ => exact foot_setObj.covers
  | setWin _ => exact foot_setWin.covers
  | proxyAccess _ _ _ _ _ => exact foot_proxyAccess.covers
  | boxPxPageWrite _ _ => exact foot_boxPxPageWrite.covers
  | boxNoteRead _ _ => exact foot_boxNoteRead.covers
  | msixSend _ _ => exact foot_msixSend.covers
  | dmaGo _ => exact foot_dmaGo.covers
  | dmaDone _ _ => exact foot_dmaDone.covers
  | pmCopyGo _ _ => exact foot_pmCopyGo.covers
  | pmCopyDone _ _ => exact foot_pmCopyDone.covers
  | fwmRing _ _ => exact foot_fwmRing.covers
  | mailboxResponse _ _ _ => exact foot_mailboxResponse.covers
  | attest _ => exact foot_attest.covers
  | getCert _ => exact foot_getCert.covers
  | debugChallenge => exact foot_debugChallenge.covers
  | debugUnlock => exact foot_debugUnlock.covers
  | commitRollback _ => exact foot_commitRollback.covers
  | revokeSlot => exact foot_revokeSlot.covers
  | updateEn _ => exact foot_updateEn.covers
  | bootInfo => exact foot_bootInfo.covers
  | pushStart _ _ => exact foot_pushStart.covers
  | pushData _ _ => exact foot_pushData.covers
  | pushEnd => exact foot_pushEnd.covers
  | pushAbort => exact foot_pushAbort.covers
  | imageVerified _ _ _ => exact foot_imageVerified.covers
  | fwmWdogKick _ => exact foot_fwmWdogKick.covers
  | enWdogExpiry _ => exact foot_enWdogExpiry.covers
  | smWdogExpiry _ => exact foot_smWdogExpiry.covers
  | devIdentity _ => exact foot_devIdentity.covers
  | devStatus _ => exact foot_devStatus.covers
  | devReset _ _ => exact foot_devReset.covers
  | laneSet _ _ => exact foot_laneSet.covers
  | laneGet _ => exact foot_laneGet.covers
  | ifSet _ _ => exact foot_ifSet.covers
  | loopback _ => exact foot_loopback.covers
  | connAdd _ _ => exact foot_connAdd.covers
  | connModify _ _ => exact foot_connModify.covers
  | connDelete _ _ => exact foot_connDelete.covers
  | connGet _ => exact foot_connGet.covers
  | pmCurrent _ => exact foot_pmCurrent.covers
  | pmHistory _ => exact foot_pmHistory.covers
  | pmThresh _ => exact foot_pmThresh.covers
  | pgAdd _ _ => exact foot_pgAdd.covers
  | pgDelete _ _ => exact foot_pgDelete.covers
  | pgCommand _ _ => exact foot_pgCommand.covers
  | pgStatus _ => exact foot_pgStatus.covers
  | ohOpen _ _ => exact foot_ohOpen.covers
  | ohClose _ _ => exact foot_ohClose.covers
  | ohSend _ => exact foot_ohSend.covers
  | ohReceive _ => exact foot_ohReceive.covers
  | almList _ => exact foot_almList.covers
  | almMask _ => exact foot_almMask.covers
  | timeGet _ => exact foot_timeGet.covers
  | timeSet _ => exact foot_timeSet.covers
  | personalityFrame _ => exact foot_personalityFrame.covers
  | pmbinStatus => exact foot_pmbinStatus.covers
  | pmbinGet => exact foot_pmbinGet.covers
  | housekeepingStatus => exact foot_housekeepingStatus.covers
  | reportWord _ => exact foot_reportWord.covers
  | wireBroken _ => exact foot_wireBroken.covers
  | reportResend _ => exact foot_reportResend.covers
  | fltAgeScan => exact foot_fltAgeScan.covers
  | fltAck _ => exact foot_fltAck.covers
  | fltInject _ => exact foot_fltInject.covers
  | logWrite _ => exact foot_logWrite.covers
  | keyClose _ _ => exact foot_keyClose.covers
  | bankFail _ => exact foot_bankFail.covers
  | ghostClear _ => exact foot_ghostClear.covers
  | playbillGo => exact foot_playbillGo.covers
  | playbillDone => exact foot_playbillDone.covers
  | digestRecompute _ => exact foot_digestRecompute.covers
  | resetNRelease _ => exact foot_resetNRelease.covers
  | callDone => exact foot_callDone.covers
  | service _ _ => exact foot_service.covers
  | rehearse _ => exact foot_rehearse.covers
  | audit _ => exact foot_audit.covers
  | enterSafe _ => exact foot_enterSafe.covers
  | exitSafe _ => exact foot_exitSafe.covers
  | enterDark _ => exact foot_enterDark.covers
  | drain _ _ => exact foot_drain.covers
  | offline _ _ => exact foot_offline.covers
  | resume _ _ => exact foot_resume.covers
  | reset _ _ => exact foot_reset.covers
  | resetClear _ _ => exact foot_resetClear.covers
  | regionResetDone _ => exact foot_regionResetDone.covers
  | update _ _ _ => exact foot_update.covers
  | stackRetrain _ _ => exact foot_stackRetrain.covers
  | regionSram _ => exact foot_regionSram.covers
  | queueMem _ => exact foot_queueMem.covers
  | hbmAlign _ => exact foot_hbmAlign.covers
  | logBank _ => exact foot_logBank.covers
  | fuse _ => exact foot_fuse.covers
  | aonVote _ => exact foot_aonVote.covers
  | auditDone _ => exact foot_auditDone.covers
  | lifeCounterTick _ => exact foot_lifeCounterTick.covers
  | supplyUndervoltage _ _ => exact foot_supplyUndervoltage.covers
  | supplyOvervoltage _ _ => exact foot_supplyOvervoltage.covers
  | coreValidReturn _ => exact foot_coreValidReturn.covers
  | thermalSample _ _ _ => exact foot_thermalSample.covers
  | i2cAccess _ _ _ => exact foot_i2cAccess.covers
  | cdrLock _ => exact foot_cdrLock.covers
  | resetNAssert => exact foot_resetNAssert.covers
  | aonPowerUp => exact foot_aonPowerUp.covers
  | sdpLinkChange _ _ _ => exact foot_sdpLinkChange.covers
  | pushTimeout => exact foot_pushTimeout.covers
  | pauseIgnoreEnd _ => exact foot_pauseIgnoreEnd.covers
  | stackTrainingDone _ _ => exact foot_stackTrainingDone.covers
  | fybryCodewordDecode _ _ _ => exact foot_fybryCodewordDecode.covers
  | configurationRequest _ => exact foot_configurationRequest.covers
  | jtagInstruction _ => exact foot_jtagInstruction.covers
  | itemErrorDetected _ => exact foot_itemErrorDetected.covers

/-- Settles O6: the law of a command (`exec_fr`) leaves alone what its mask does not allow, its footprint covers that mask, and what a
footprint lacks stands at clear bits. -/
theorem frame : Obligations.Frame := by
  unfold Obligations.Frame
  intro c s t h
  have hFr := exec_fr c s t h
  have hCov := footOf_covers_execMask c
  refine ⟨exec_pending h, fun pg f hf => ?_, fun pg x e hx => ?_, fun p hp => ?_⟩
  · have hBit := hCov _ (Foot.testBit_mask_of_hasReg hf)
    have hKey : (execMask c).testBit (512 + fkey pg f % 8192) = false := by rw [fkey_mod_place]; exact hBit
    exact ⟨hFr.rd pg f hBit, hFr.regs _ _ hKey, hFr.regsB _ _ hKey, hFr.regsC _ _ hKey⟩
  · exact hFr.entry pg x e (hCov _ (Foot.testBit_mask_of_hasTab hx))
  · exact hFr.same p (hCov _ (Foot.testBit_mask_of_not_mem hp))

/-! ### Block restart and the page owner -/

theorem SMap.get_dropWhere_of_kept {α : Type} (d : α) (m : SMap α) {p : Nat → Bool} {k : Nat} (h : p k = false) :
    SMap.get d (m.dropWhere p) k = SMap.get d m k := by
  unfold SMap.dropWhere
  induction m with
  | nil => rfl
  | cons e m ih =>
    obtain ⟨a, v⟩ := e
    by_cases ha : p a = true
    · have hNe : a ≠ k := fun hEq => by rw [hEq, h] at ha; cases ha
      rw [List.filter_cons_of_neg (by simp [ha]), ih, SMap.get, if_neg hNe]
    · rw [List.filter_cons_of_pos (by simp [ha]), SMap.get, SMap.get, ih]

theorem typeFields_offs_inst (t : PageType) (inst : Nat) : (typeFields t inst).map Field.off = (typeFields t 0).map Field.off := by
  cases t <;> rfl

/-- The fields that a page type adds lie beyond the header. -/
theorem typeFields_beyond_header {t : PageType} {inst : Nat} {f : Field} (h : f ∈ typeFields t inst) : 0x40 ≤ f.off := by
  have hFirst : ((typeFields t 0).map Field.off).all (fun o => decide (0x40 ≤ o)) = true := by cases t <;> decide +kernel
  rw [← typeFields_offs_inst t inst] at hFirst
  simpa using List.all_eq_true.1 hFirst f.off (List.mem_map_of_mem h)

/-- PAGE_OWNER is no register that a block restart puts to its reset value, on any page number of 16 bits. -/
theorem blockResets_pageOwner {pg : Nat} (h : pg < 65536) : blockResets (fkey pg PAGE_OWNER_box) = false := by
  have hPage : keyPage (fkey pg PAGE_OWNER_box) = pg := by simp only [keyPage, fkey, PAGE_OWNER_box]; omega
  have hLow : ¬ 65536 ≤ fkey pg PAGE_OWNER_box / 8192 := by simp only [fkey, PAGE_OWNER_box]; omega
  have hHeader : ∀ f ∈ headerFields, f.off * 8 + f.lo = 0x00C * 8 → f.acc ≠ .rw := by decide
  have hNone : ∀ f ∈ pageFields pg, fkey pg f = fkey pg PAGE_OWNER_box → f.acc ≠ .rw := by
    intro f hf hKey
    have hPlace : f.off * 8 + f.lo = 0x00C * 8 := by simp only [fkey, PAGE_OWNER_box] at hKey; omega
    unfold pageFields at hf
    split at hf
    · rcases List.mem_append.1 hf with hIn | hIn
      · exact hHeader f hIn hPlace
      · have hOff := typeFields_beyond_header hIn
        omega
    · cases hf
  unfold blockResets
  rw [hPage, decide_eq_false hLow, Bool.false_or]
  split
  · rw [Bool.and_eq_false_iff]
    right
    simpa [List.any_eq_false] using hNone
  · rfl

theorem State.blockRegs_pageOwner_rd (s : State) (B : Nat) {pg : Nat} (h : pg < 65536) :
    (s.blockRegs B).rd pg PAGE_OWNER_box = s.rd pg PAGE_OWNER_box := by
  have hKept := SMap.get_dropWhere_of_kept PAGE_OWNER_box.reset s.regs (p := fun k => inBlock B (keyPage k) && blockResets k)
    (k := fkey pg PAGE_OWNER_box) (by rw [blockResets_pageOwner h, Bool.and_false])
  unfold State.rd
  rw [show (s.blockRegs B).regs = s.regs.dropWhere (fun k => inBlock B (keyPage k) && blockResets k) from rfl, hKept]
  rfl

/-- What a block restart does after it has put the block's registers to their reset values: the rows in effect come back, the slices'
points and the contexts start afresh, and the signals follow. -/
def State.restartRebuild (s : State) (B : Nat) : State :=
  let s := s.reload (inBlock B)
  let s := s.each ((List.range 16).map (16 * B + ·)) State.sectionRenew
  let s := s.each (s.blockCtxs B) (fun s x => s.ctxRenew B x.1 x.2)
  (s.blockClients B).refreshBlock B

theorem State.blockRestart_eq (s : State) {B : Nat} (hB : B < 64) (hRuns : s.datapath (B / 8) = true) :
    s.blockRestart B =
      ((({ s with blk := s.blk.upd {} B (fun b => { b with forcedLeads := s.blockLeads B }) }).blockClear B).blockRegs B).restartRebuild B :=
  if_pos ⟨hB, hRuns⟩

def fm_restartRebuild : Nat := fm_reload ||| fm_sectionRenew ||| fm_ctxRenew ||| fm_blockClients ||| fm_refreshBlock

theorem State.restartRebuild_fr {M : Nat} {s0 : State} (s : State) (B : Nat) (hM : MaskLe fm_restartRebuild M) (hs : Fr M s0 s) :
    Fr M s0 (s.restartRebuild B) := by
  have hReload := State.reload_fr s (inBlock B) (MaskLe.trans (by decide +kernel) hM) hs
  have hSections := fr_each (l := (List.range 16).map (16 * B + ·)) hReload
    (fun s d h => State.sectionRenew_fr s d (MaskLe.trans (by decide +kernel) hM) h)
  exact State.refreshBlock_fr _ B (MaskLe.trans (by decide +kernel) hM) (State.blockClients_fr _ B (MaskLe.trans (by decide +kernel) hM)
    (fr_each hSections (fun s x h => State.ctxRenew_fr s B x.1 x.2 (MaskLe.trans (by decide +kernel) hM) h)))

/-- The owner of a page rests on its PAGE_OWNER, what this FAB cycle has changed, and the clock. -/
theorem pageOwner_of_page {s t : State} {pg : Nat} (hReg : t.rd pg PAGE_OWNER_box = s.rd pg PAGE_OWNER_box) (hHst : t.hst = s.hst)
    (hClock : t.dpCycle = s.dpCycle) : t.pageOwner pg = s.pageOwner pg := by
  have hWas : ∀ k, t.wasVal false k = s.wasVal false k := fun k => by
    unfold State.wasVal State.fab
    rw [hHst, hClock]
  unfold State.pageOwner
  rw [hWas, hReg]

theorem Fr.pageOwner {M : Nat} {s t : State} (h : Fr M s t) (hReg : M.testBit (512 + PAGE_OWNER_box.place) = false)
    (hHst : M.testBit 87 = false) (hClock : M.testBit 4 = false) (pg : Nat) : t.pageOwner pg = s.pageOwner pg :=
  pageOwner_of_page (h.rd pg _ hReg) (h.hst hHst) (h.dpCycle hClock)

theorem State.blockRestart_pageOwner (s : State) {B pg : Nat} (hB : B < 64) (hRuns : s.datapath (B / 8) = true) (hPg : pg < 65536) :
    (s.blockRestart B).pageOwner pg = s.pageOwner pg := by
  have hFr := State.blockRestart_fr s B (MaskLe.refl _) (fr_refl fm_blockRestart s)
  refine pageOwner_of_page ?_ (hFr.hst (by decide +kernel)) (hFr.dpCycle (by decide +kernel))
  rw [State.blockRestart_eq s hB hRuns,
    (State.restartRebuild_fr _ B (MaskLe.refl _) (fr_refl fm_restartRebuild _)).rd pg PAGE_OWNER_box (by decide +kernel),
    State.blockRegs_pageOwner_rd _ B hPg,
    (State.blockClear_fr _ B (MaskLe.refl _) (fr_refl fm_blockClear _)).rd pg PAGE_OWNER_box (by decide +kernel)]
  rfl

/-- A block restart leaves the owner of every page of the address map (R46: 16 bits) as it is. -/
theorem execBlockRestart_pageOwner {B cls pg : Nat} {s t : State} (h : execBlockRestart B cls s = .next t) (hPg : pg < 65536) :
    t.pageOwner pg = s.pageOwner pg := by
  unfold execBlockRestart run State.done at h
  cases h
  have hFresh : s.fresh.pageOwner pg = s.pageOwner pg := rfl
  have hReport := State.report_fr s.fresh (cls % 32) 2 (srcBlock B) (MaskLe.refl _) (fr_refl fm_report s.fresh)
  show State.pageOwner (if s.dom = .run then _ else s.fresh) pg = _
  rw [← hFresh]
  split
  · dsimp only
    split
    next hBlock =>
      rw [State.blockRestart_pageOwner _ hBlock.1 ((hReport.datapath (by decide +kernel) (by decide +kernel) _).trans hBlock.2) hPg]
      exact hReport.pageOwner (by decide +kernel) (by decide +kernel) (by decide +kernel) pg
    next => rfl
  · rfl

/-- The number under which the model keeps the host's requester state of slice 0's OTU page (R55): its low 16 bits are those of the OTU
page, and it is no page of the address map. -/
def hostOtuPage : Nat := rqPage (pgOtu 0) .host

/-- The chip in NATIVE with region 0 ACTIVE, and two of the three copies of PAGE_OWNER at `hostOtuPage` hold box 1. -/
def splitOwnerState : State :=
  let s := (State.reset.wr pgMode MODE_current modeNative).wr pgMode (MODE_REGIONS_state 0) rgnActive
  { s with regs := s.regs.set 0 (fkey hostOtuPage PAGE_OWNER_box) 1, regsB := s.regsB.set 0 (fkey hostOtuPage PAGE_OWNER_box) 1 }

/-- Refutes O25: the first clause speaks of every number `pg`, also of those beyond the 16 bits of a page number. The restart of block 0
puts what is kept under its pages' requester numbers to reset values (`blockResets`), in one of the three copies. With PAGE_OWNER held
as (1, 1, 0) under `hostOtuPage`, the vote says 1 before the restart and 0 after it. Of the pages of the address map the owner stays
(`execBlockRestart_pageOwner`). -/
theorem not_blockRestarts : ¬ Obligations.BlockRestarts := by
  unfold Obligations.BlockRestarts
  rintro ⟨hRestart, -, -⟩
  have hRuns : splitOwnerState.datapath (0 / 8) = true := by decide +kernel
  obtain ⟨t, hExec, -, -, hOwner⟩ := hRestart splitOwnerState 0 0 rfl (by decide) hRuns
  have hBefore : splitOwnerState.pageOwner hostOtuPage = 1 := by decide +kernel
  have hAfter : t.pageOwner hostOtuPage = 0 := by
    cases hExec
    decide +kernel
  have hSame := hOwner hostOtuPage
  rw [hBefore, hAfter] at hSame
  exact absurd hSame (by decide)

end Sys2Proof.Machine

namespace Sys2Proof.Machine

open Sys2Proof

/-! ### What every command keeps (file 02, R57 to R59; file 14, R477, R478) -/

/-- No command's mask lets a fuse be taken back or the count of free values fall, and only the masks of the commands that `keepsEvents`
leaves out let an event be cleared. -/
theorem execMask_keeps (c : Instr) : (execMask c).testBit 401 = false ∧ (execMask c).testBit 405 = false ∧
    (keepsEvents c = true → (execMask c).testBit 400 = false) := by
  cases c <;> (dsimp only [execMask, keepsEvents]; decide +kernel)

/-- Settles O7: the law of a command (`exec_fr`) keeps what its mask does not allow to be lost (`execMask_keeps`). -/
theorem recordsStay : Obligations.RecordsStay := by
  unfold Obligations.RecordsStay
  refine ⟨fun c s t pg k hExec hKeeps hEvt => ?_, fun c s t hExec => ?_⟩
  · obtain ⟨-, -, hMask⟩ := execMask_keeps c
    exact (exec_fr c s t hExec).kEvt (hMask hKeeps) pg k hEvt
  · obtain ⟨hFuse, hFree, -⟩ := execMask_keeps c
    obtain ⟨hSteps, hRevoked⟩ := (exec_fr c s t hExec).kFuse hFuse
    exact ⟨hSteps, hRevoked, (exec_fr c s t hExec).kFree hFree⟩

/-! ### How an admitted access becomes a step (file 02, R53; file 13, R449) -/

/-- The state that a command leaves whose effect has led from `s` to `u`: the queue is that of `s`. -/
def State.after (s u : State) : State := { u with pending := s.pending }

theorem State.done_eq (s u : State) : s.done u = .next (s.after u) := rfl

@[simp] theorem State.rd_after (s u : State) (pg : Nat) (f : Field) : (s.after u).rd pg f = u.rd pg f := rfl
@[simp] theorem State.events_after (s u : State) : (s.after u).events = u.events := rfl
@[simp] theorem State.hasErr_after (s u : State) (pg k : Nat) : (s.after u).hasErr pg k = u.hasErr pg k := rfl
@[simp] theorem State.evtStatus_after (s u : State) (pg : Nat) : (s.after u).evtStatus pg = u.evtStatus pg := rfl
@[simp] theorem State.pageOwner_after (s u : State) (pg : Nat) : (s.after u).pageOwner pg = u.pageOwner pg := rfl

@[simp] theorem State.rd_fresh (s : State) (pg : Nat) (f : Field) : s.fresh.rd pg f = s.rd pg f := rfl
@[simp] theorem State.events_fresh (s : State) : s.fresh.events = s.events := rfl
@[simp] theorem State.evtStatus_fresh (s : State) (pg : Nat) : s.fresh.evtStatus pg = s.evtStatus pg := rfl
@[simp] theorem State.pageOwner_fresh (s : State) (pg : Nat) : s.fresh.pageOwner pg = s.pageOwner pg := rfl
@[simp] theorem State.regionSpeaks_fresh (s : State) (r : Nat) : s.fresh.regionSpeaks r = s.regionSpeaks r := rfl

theorem run_eq_next (f : State → State) {s : State} (hRun : s.dom = .run) : run f s = .next (s.after (f s.fresh)) := by
  unfold run
  rw [if_pos hRun, State.done_eq]

theorem runBus_eq_next {w : Who} {pg : Nat} {write : Bool} (f : State → State) {s : State} (hRun : s.dom = .run)
    (hAdmit : s.admitCode w pg write = bsOk) : runBus w pg write f s = .next (s.after (f s.fresh)) := by
  have hFresh : s.fresh.admitCode w pg write = bsOk := hAdmit
  unfold runBus
  rw [run_eq_next _ hRun]
  unfold State.via
  rw [if_pos hFresh]

theorem runWrite_eq_next {a : RegAcc} (f : State → State) {s : State} (hRun : s.dom = .run)
    (hAdmit : s.admitCode a.who a.page true = bsOk) (hBe : a.be % 16 = 15) : runWrite a f s = .next (s.after (f s.fresh)) := by
  unfold runWrite
  rw [runBus_eq_next _ hRun hAdmit]
  unfold State.fullWrite
  rw [if_pos hBe]

theorem runRead_eq_next {a : RegAcc} (f : State → Nat × State) {s : State} (hRun : s.dom = .run)
    (hAdmit : s.admitCode a.who a.page false = bsOk) (hBe : a.be % 16 ≠ 0) :
    runRead a f s = .next (s.after ((f s.fresh).2.answer bsOk [(f s.fresh).1])) := by
  unfold runRead
  rw [runBus_eq_next _ hRun hAdmit, if_neg hBe]

theorem runReg_eq_next {x : RegWrite} {s : State} (hRun : s.dom = .run)
    (hAdmit : s.admitCode x.acc.who x.acc.page true = bsOk) :
    runReg x s = .next (s.after ((s.fresh.accessWrite x).2.answer (s.fresh.accessWrite x).1 [])) := by
  unfold runReg
  rw [runBus_eq_next _ hRun hAdmit]

/-! ### What a recording leaves in a page's lists (file 02, R57) -/

theorem mem_stampBit {l : List (Nat × Nat)} {k n k' n' : Nat} :
    (k', n') ∈ stampBit l k n ↔ (k' = k ∧ n' = n) ∨ (k' ≠ k ∧ (k', n') ∈ l) := by
  simp [stampBit, and_comm]

/-- The bit just stamped carries the new stamp alone. -/
theorem mem_stampBit_same {l : List (Nat × Nat)} {k n n' : Nat} : (k, n') ∈ stampBit l k n ↔ n' = n := by
  simp [mem_stampBit]

theorem setErr_events (s : State) (pg k : Nat) : (s.setErr pg k).events = s.events.set {} pg { s.events.get {} pg with
    seq := ((s.events.get {} pg).seq + 1) % 2 ^ 32, errs := stampBit (s.events.get {} pg).errs k (((s.events.get {} pg).seq + 1) % 2 ^ 32) } := by
  unfold State.setErr
  dsimp only
  split
  · rfl
  · rw [setPending_events]

/-- Of a page without region, or of one whose region may record, an item's event is recorded. -/
theorem ev_eq_record {s : State} {pg : Nat} (k : Nat) (h : (pageRegion pg).all s.regionSpeaks = true) : s.ev pg k = s.record pg k := by
  unfold State.ev
  cases hRegion : pageRegion pg with
  | none => rfl
  | some r => exact if_pos (by simpa [hRegion] using h)

/-- EVT_FORCE with one bit 1 records that event alone. -/
theorem forceEvents_single {s : State} {pg k : Nat} (hk : k < 31) (h : (pageRegion pg).all s.regionSpeaks = true) :
    s.forceEvents pg (2 ^ k) = s.record pg k := by
  have hBits : (List.range 31).filter (bit (2 ^ k)) = [k] := by
    revert hk; revert k; decide
  unfold State.forceEvents
  rw [hBits]
  exact ev_eq_record k h

/-- Settles O16: every recording puts the raised sequence number and the stamped list in place (`record_events`, `setErr_events`), and
EVT_FORCE with one bit is one recording (`forceEvents_single`). -/
theorem eventStamps : Obligations.EventStamps := by
  unfold Obligations.EventStamps
  refine ⟨fun _ => rfl, fun s pg k => ?_, fun s pg k => ?_, fun s a k hRun hAdmit hBe hk hSpeaks => ?_⟩
  · rw [record_events, SMap.get_set_same]
    exact ⟨rfl, fun _ => mem_stampBit_same⟩
  · rw [setErr_events, SMap.get_set_same]
    exact ⟨rfl, fun _ => mem_stampBit_same⟩
  · refine ⟨_, runWrite_eq_next _ hRun hAdmit hBe, ?_⟩
    rw [State.events_after, forceEvents_single (s := s.fresh) hk hSpeaks, record_events, SMap.get_set_same]
    exact ⟨rfl, fun _ => mem_stampBit_same⟩

/-! ### Acknowledgement (file 02, R59) -/

/-- A value written to EVT_ACK lies ahead of a page's sequence number. -/
def ackAhead (v seq : Nat) : Prop :=
  1 ≤ (v + 2 ^ 32 - seq % 2 ^ 32) % 2 ^ 32 ∧ (v + 2 ^ 32 - seq % 2 ^ 32) % 2 ^ 32 < 2 ^ 31

/-- A page's recordings that an acknowledgement of `v` leaves. -/
def PageEvt.ack (e : PageEvt) (v : Nat) : PageEvt :=
  { e with evts := e.evts.filter (fun x => !acked v x.2), errs := e.errs.filter (fun x => !acked v x.2) }

theorem ackEvents_ahead {s : State} {pg v : Nat} (h : ackAhead v (s.events.get {} pg).seq) :
    s.ackEvents pg v = s.setErr pg errAckAhead := if_pos h

theorem ackEvents_notAhead {s : State} {pg v : Nat} (h : ¬ ackAhead v (s.events.get {} pg).seq) :
    s.ackEvents pg v = { s with events := s.events.set {} pg ((s.events.get {} pg).ack v) } := if_neg h

theorem mem_filter_notAcked {l : List (Nat × Nat)} {v k n : Nat} :
    (k, n) ∈ l.filter (fun x => !acked v x.2) ↔ (k, n) ∈ l ∧ ¬ (v + 2 ^ 32 - n % 2 ^ 32) % 2 ^ 32 < 2 ^ 31 := by
  simp [acked]

/-- Settles O15: a value ahead of the page only sets ack_ahead (`ackEvents_ahead`), and any other filters the page's two lists
(`ackEvents_notAhead`). -/
theorem eventAcknowledge : Obligations.EventAcknowledge := by
  unfold Obligations.EventAcknowledge
  refine ⟨fun s a v hRun hAdmit hBe hv hNot => ?_, fun s a v hRun hAdmit hBe hv hLow hHigh => ?_⟩
  · refine ⟨_, runWrite_eq_next _ hRun hAdmit hBe, ?_⟩
    rw [Nat.mod_eq_of_lt hv, ackEvents_notAhead (s := s.fresh) hNot]
    dsimp only [State.events_after, State.events_fresh]
    rw [SMap.get_set_same]
    exact ⟨fun _ _ => mem_filter_notAcked, fun _ _ => mem_filter_notAcked, fun pg hpg => SMap.get_set_ne _ _ _ _ hpg, fun _ _ => rfl⟩
  · refine ⟨_, runWrite_eq_next _ hRun hAdmit hBe, ?_⟩
    rw [Nat.mod_eq_of_lt hv, ackEvents_ahead (s := s.fresh) ⟨hLow, hHigh⟩]
    refine ⟨by simp, by simp [setErr_evts], fun k n hk => ?_, by simp⟩
    rw [State.events_after, setErr_events, SMap.get_set_same]
    simp [mem_stampBit, hk]

/-! ### Voted fields (file 02, R61) -/

theorem vote_of_two {r a b c x : Nat} (h : (a = x ∧ b = x) ∨ (a = x ∧ c = x) ∨ (b = x ∧ c = x)) : vote r a b c = x := by
  unfold vote
  rcases h with ⟨hA, hB⟩ | ⟨hA, hC⟩ | ⟨hB, hC⟩
  · rw [if_pos (.inl (hA.trans hB.symm)), hA]
  · rw [if_pos (.inr (hA.trans hC.symm)), hA]
  · rw [if_pos (hB.trans hC.symm), hB, hC]
    exact ite_eq_right_iff.2 (Or.elim · id id)

/-- Settles O17: `wr` puts one value into the three copies, and a vote takes what two of them hold (`vote_of_two`). -/
theorem votedFields : Obligations.VotedFields := by
  unfold Obligations.VotedFields
  refine ⟨fun s pg f v hRv => ?_, fun s pg f x hRv hTwo => ?_⟩
  · unfold State.wr
    rw [if_pos hRv]
    exact ⟨SMap.get_set_same .., SMap.get_set_same .., SMap.get_set_same ..⟩
  · unfold State.rd
    rw [if_pos hRv]
    exact vote_of_two hTwo

/-! ### The page header (file 02, R56 to R58) -/

/-- A write of PAGE_CTRL leaves run and force_safe as its two low bits, whatever the change does to the page's item. -/
theorem writeCtrl_fields (s : State) (pg v : Nat) :
    (s.writeCtrl pg v).rdb pg PAGE_CTRL_run = bit v 0 ∧ (s.writeCtrl pg v).rdb pg PAGE_CTRL_force_safe = bit v 1 := by
  let u := (s.wrb pg PAGE_CTRL_run (bit v 0)).wrb pg PAGE_CTRL_force_safe (bit v 1)
  have hRun : u.rdb pg PAGE_CTRL_run = bit v 0 := by
    have hKept : u.rd pg PAGE_CTRL_run = (s.wrb pg PAGE_CTRL_run (bit v 0)).rd pg PAGE_CTRL_run := State.rd_wr_ne _ _ _ _ _ _ (by decide)
    unfold State.rdb
    rw [hKept]
    exact State.rdb_wrb_same s pg PAGE_CTRL_run (bit v 0)
  have hSafe : u.rdb pg PAGE_CTRL_force_safe = bit v 1 := State.rdb_wrb_same _ _ _ _
  unfold State.writeCtrl
  dsimp only
  split
  · exact ⟨hRun, hSafe⟩
  · have hFr := State.ctrlChange_fr u pg (s.rdb pg PAGE_CTRL_run != bit v 0) (bit v 0) (MaskLe.refl _) (fr_refl fm_ctrlChange u)
    exact ⟨(hFr.rdb pg _ (by decide +kernel)).trans hRun, (hFr.rdb pg _ (by decide +kernel)).trans hSafe⟩

/-- The owner given to a page stands in its PAGE_OWNER. -/
theorem givePage_owner (s : State) (pg box : Nat) : (s.givePage pg box).rd pg PAGE_OWNER_box = box % 512 := by
  let u := (s.keepWas false (fkey pg PAGE_OWNER_box) (s.rd pg PAGE_OWNER_box)).wr pg PAGE_OWNER_box box
  have hMoved := State.ownerMoved_fr u (s.rd pg PAGE_OWNER_box) box (M := fm_ownerMoved ||| fm_digTouch) (by decide +kernel) (fr_refl _ u)
  have hFr := State.digTouch_fr _ 74 (by decide +kernel) hMoved
  exact (hFr.rd pg _ (by decide +kernel)).trans (State.rd_wr_same _ _ _ _)

theorem writeOwner_sm {s : State} {w : Who} {pg v : Nat} (hSm : w.master = .sm) (hFree : pageFixed pg = false) :
    s.writeOwner w pg v = s.givePage pg (v % 512) := by
  unfold State.writeOwner
  rw [if_neg (not_not.2 hSm), hFree, if_neg Bool.false_ne_true]

theorem writeOwner_other {s : State} {w : Who} {pg v : Nat} (hOther : w.master ≠ .sm) :
    s.writeOwner w pg v = s.setErr pg errOwnerWrite := if_pos hOther

@[simp] theorem pageOwner_setErr (s : State) (pg k pg' : Nat) : (s.setErr pg k).pageOwner pg' = s.pageOwner pg' := by
  have hFr := State.setErr_fr s pg k (MaskLe.refl _) (fr_refl fm_setErr s)
  exact hFr.pageOwner (by decide +kernel) (by decide +kernel) (by decide +kernel) pg'

@[simp] theorem evtStatus_wr (s : State) (pg : Nat) (f : Field) (v pg' : Nat) : (s.wr pg f v).evtStatus pg' = s.evtStatus pg' :=
  evtStatus_congr (by unfold State.wr; dsimp only; split <;> rfl) pg'

/-- Settles O10, clause by clause: what a write of PAGE_CTRL and of PAGE_OWNER, a read of EVT_STATUS and a write of EVT_FORCE leave. -/
theorem pageHeader : Obligations.PageHeader := by
  unfold Obligations.PageHeader
  refine ⟨fun s a v hRun hAdmit hBe => ?_, fun s a v hRun hAdmit hBe hSm hFree => ?_, fun s a v hRun hAdmit hBe hOther => ?_,
    fun s a hRun hAdmit hBe => ?_, fun s a v k hRun hAdmit hBe hk hBit hSpeaks => ?_⟩
  · exact ⟨_, runWrite_eq_next _ hRun hAdmit hBe, writeCtrl_fields _ _ _⟩
  · refine ⟨_, runWrite_eq_next _ hRun hAdmit hBe, ?_⟩
    rw [writeOwner_sm hSm hFree, State.rd_after, givePage_owner, Nat.mod_mod]
  · refine ⟨_, runWrite_eq_next _ hRun hAdmit hBe, ?_⟩
    rw [writeOwner_other hOther]
    simp
  · refine ⟨_, runRead_eq_next (fun s => s.readEvents (reqPage a.page a.who) a.page) hRun hAdmit hBe, ?_⟩
    unfold State.readEvents
    refine ⟨rfl, ?_, fun pg => ?_⟩
    · exact State.rd_wr_same _ _ _ _
    · simp
  · refine ⟨_, runWrite_eq_next _ hRun hAdmit hBe, ?_⟩
    exact forceEvents_has _ _ _ _ hk hBit (fun r hr => by simpa [hr] using hSpeaks)


/-! ### Register accesses (file 02, R53, R64, R65) -/

theorem admitted_page {s : State} {w : Who} {pg : Nat} {write : Bool} (h : s.admitCode w pg write = bsOk) : ∃ i, pageInfo pg = some i := by
  unfold State.admitCode at h
  cases hPage : pageInfo pg with
  | none => rw [hPage] at h; exact absurd h (by simp [bsUnmapped, bsOk])
  | some i => exact ⟨i, rfl⟩

/-- Of the register pages only a BOX page, and only from offset 0x200 on, is a window onto another page. -/
theorem proxyAt_low {pg off : Nat} (h : regOff off < 0x200) : proxyAt pg off = none := by
  unfold proxyAt
  split
  · rw [if_neg (by omega)]
  · rfl

theorem proxyAt_notBox {pg off : Nat} {i : PageInfo} (hPage : pageInfo pg = some i) (h : i.typ ≠ .box) : proxyAt pg off = none := by
  unfold proxyAt
  split
  next hBox => rw [hPage] at hBox; cases hBox; exact absurd rfl h
  next => rfl

theorem accessWrite_partial {s : State} {x : RegWrite} (h : x.acc.be % 16 ≠ 15) :
    s.accessWrite x = (bsOk, s.setErr x.acc.page errPartialWrite) := if_pos h

theorem accessWrite_whole {s : State} {x : RegWrite} (hBe : x.acc.be % 16 = 15) (hProxy : proxyAt x.acc.page x.acc.off = none) :
    s.accessWrite x = (bsOk, s.writeReg x) := by
  unfold State.accessWrite
  rw [if_neg (not_not.2 hBe), hProxy]

/-- The fields of EVT_MASK's offset on any page are EVT_MASK's one field. -/
theorem pageFields_evtMask {pg : Nat} {i : PageInfo} (hPage : pageInfo pg = some i) (p : Field → Bool)
    (hp : ∀ f, p f = true → f.off = 0x01C) (hMask : p EVT_MASK_mask = true) : (pageFields pg).filter p = [EVT_MASK_mask] := by
  have hType : (typeFields i.typ i.inst).filter p = [] := by
    rw [List.filter_eq_nil_iff]
    intro f hf hOff
    have := typeFields_beyond_header hf
    have := hp f hOff
    omega
  have hOther : ∀ f, f.off ≠ 0x01C → p f = false := fun f hf => Bool.eq_false_iff.2 (fun h => hf (hp f h))
  unfold pageFields
  rw [hPage]
  dsimp only
  rw [List.filter_append, hType, List.append_nil, headerFields]
  simp only [List.filter_cons, List.filter_nil, hMask, hOther PAGE_CTRL_force_safe (by decide), hOther PAGE_CTRL_run (by decide),
    hOther PAGE_OWNER_box (by decide), if_true, Bool.false_eq_true, if_false]

/-- A whole write of a register of an assigned page goes to its header, to a pair, or to the rest of the page. -/
theorem writeReg_of_page {s : State} {x : RegWrite} {i : PageInfo} (hPage : pageInfo x.acc.page = some i) :
    s.writeReg x =
      if regOff x.acc.off < 0x040 then s.writeHeader x.acc.who x.acc.page (regOff x.acc.off) (x.value % 2 ^ 32)
      else if pairWritable x.acc.page (regOff x.acc.off) then s.writeLo x.acc.who x.acc.page (regOff x.acc.off) (x.value % 2 ^ 32)
      else if 0x044 ≤ regOff x.acc.off ∧ pairWritable x.acc.page (regOff x.acc.off - 4) then
        s.writeHi x.acc.who x.acc.page (regOff x.acc.off - 4) (x.value % 2 ^ 32)
      else s.writeBody x i (regOff x.acc.off) (x.value % 2 ^ 32) := by
  unfold State.writeReg
  dsimp only
  rw [hPage]

theorem writeReg_evtMask {s : State} {x : RegWrite} {i : PageInfo} (hPage : pageInfo x.acc.page = some i) (hOff : regOff x.acc.off = 0x01C) :
    s.writeReg x = s.wr x.acc.page EVT_MASK_mask (getBits (x.value % 2 ^ 32) 31 0) := by
  rw [writeReg_of_page hPage, hOff, if_pos (by decide)]
  show s.plainWrite x.acc.who x.acc.page 0x01C (x.value % 2 ^ 32) = _
  unfold State.plainWrite
  rw [pageFields_evtMask hPage _ (by simp; tauto) rfl]
  rfl

theorem writeReg_lo {s : State} {x : RegWrite} {i : PageInfo} (hPage : pageInfo x.acc.page = some i) (hBox : i.typ ≠ .box) (hChk : i.typ ≠ .chk)
    (hOff : 0x040 ≤ regOff x.acc.off) (hPair : pairWritable x.acc.page (regOff x.acc.off) = true) :
    s.writeReg x = s.holdLo (reqPage x.acc.page x.acc.who) (regOff x.acc.off) (x.value % 2 ^ 32) := by
  rw [writeReg_of_page hPage, if_neg (by omega), if_pos hPair]
  unfold State.writeLo
  split
  next hTyp => rw [hPage] at hTyp; cases hTyp; exact absurd rfl hBox
  next hTyp => rw [hPage] at hTyp; cases hTyp; exact absurd rfl hChk
  next => rfl

theorem writeReg_hi {s : State} {x : RegWrite} {i : PageInfo} (hPage : pageInfo x.acc.page = some i) (hBox : i.typ ≠ .box) (hChk : i.typ ≠ .chk)
    (hLog : i.typ ≠ .log) (hWng : i.typ ≠ .wng) (hOff : 0x044 ≤ regOff x.acc.off) (hLo : pairWritable x.acc.page (regOff x.acc.off) = false)
    (hPair : pairWritable x.acc.page (regOff x.acc.off - 4) = true) :
    s.writeReg x = s.putPair (reqPage x.acc.page x.acc.who) x.acc.page (regOff x.acc.off - 4) (x.value % 2 ^ 32) := by
  rw [writeReg_of_page hPage, if_neg (by omega), if_neg (by simp [hLo]), if_pos ⟨hOff, hPair⟩]
  unfold State.writeHi
  dsimp only
  split
  next hTyp => rw [hPage] at hTyp; cases hTyp; exact absurd rfl hBox
  next hTyp => rw [hPage] at hTyp; cases hTyp; exact absurd rfl hChk
  next hTyp => rw [hPage] at hTyp; cases hTyp; exact absurd rfl hLog
  next hTyp => rw [hPage] at hTyp; cases hTyp; exact absurd rfl hWng
  next => rfl

theorem reqPage_ge (pg : Nat) (w : Who) : 65536 ≤ reqPage pg w := by
  unfold reqPage pxPage rqPage
  split <;> omega

/-- A requester's state is kept under no page of the address map. -/
theorem fkey_reqPage_ne {pg pg' : Nat} {f f' : Field} (w : Who) (hPg : pg' < 65536) (hf : f'.off * 8 + f'.lo < 8192) :
    fkey pg' f' ≠ fkey (reqPage pg w) f := by
  have := reqPage_ge pg w
  unfold fkey
  omega

/-- A pair of one writable field takes the held low word and the word written, cut at the low bits that read 0. -/
theorem putPair_single {s : State} {rq pg off v : Nat} {f : Field} (hPair : pairFields pg off = [f]) (hAcc : f.acc = .rw)
    (hPage : f.perMaster = false) : (s.putPair rq pg off v).rd pg f =
      getBits ((v % 2 ^ 32 * 2 ^ 32 + s.rd rq (shadowF off)) / 2 ^ baseLow pg off * 2 ^ baseLow pg off) f.hi f.lo := by
  unfold State.putPair
  simp only [hPair, List.filter_cons, List.filter_nil, hAcc, decide_true, if_true, State.each, List.foldl_cons, List.foldl_nil, hPage,
    Bool.false_eq_true, if_false, State.rd_wr_same]
  exact Nat.mod_mod _ _

theorem pairFields_eq_filter {pg off : Nat} {f : Field} (h : pairFields pg off = [f]) :
    (pageFields pg).filter (fun g => decide (g.off = off)) = [f] := by
  unfold pairFields at h
  dsimp only at h
  split at h
  · exact h
  · cases h

/-- A read of a pair of one field that is not held three times puts nothing right. -/
theorem voteAt_pair {s : State} {pg off : Nat} {f : Field} (hPair : pairFields pg off = [f]) (hAcc : f.acc ≠ .rv) : s.voteAt pg off = s := by
  have hNone : (pageFields pg).filter (fun g => decide (g.off = off ∧ g.acc = .rv)) = [] := by
    rw [List.filter_eq_nil_iff]
    intro g hg hRv
    obtain ⟨hOff, hgAcc⟩ := of_decide_eq_true hRv
    have hMem : g ∈ [f] := pairFields_eq_filter hPair ▸ List.mem_filter.2 ⟨hg, decide_eq_true hOff⟩
    exact hAcc (List.mem_singleton.1 hMem ▸ hgAcc)
  unfold State.voteAt
  rw [hNone]
  rfl

/-- WNG_TRACK, whose read starts the peak anew, is no pair. -/
theorem pairFields_wngTrack {pg : Nat} {i : PageInfo} (hPage : pageInfo pg = some i) (h : i.typ = .wng) : pairFields pg 0x048 = [] := by
  unfold pairFields pageFields
  rw [hPage]
  dsimp only
  rw [h]
  rfl

theorem readReg_lo {s : State} {w : Who} {pg off : Nat} {i : PageInfo} {f : Field} (hPage : pageInfo pg = some i)
    (hTyp : i.typ ∉ [PageType.ohq, .prt, .box, .sdp, .cbb, .tim]) (hOff : 0x040 ≤ off) (hPair : pairFields pg off = [f]) (hAcc : f.acc ≠ .rv) :
    s.readReg w pg off = s.readLo (reqPage pg w) pg off := by
  simp only [List.mem_cons, List.not_mem_nil, or_false, not_or] at hTyp
  obtain ⟨hOhq, hPrt, hBox, hSdp, hCbb, hTim⟩ := hTyp
  have hTrack : ¬ (i.typ = .wng ∧ off = 0x048) := by
    rintro ⟨hWng, rfl⟩
    rw [pairFields_wngTrack hPage hWng] at hPair
    cases hPair
  unfold State.readReg
  dsimp only
  rw [voteAt_pair hPair hAcc, hPage]
  have hSome : pairFields pg off ≠ [] := by rw [hPair]; exact List.cons_ne_nil _ _
  simp only [hOhq, hPrt, hBox, hSdp, hCbb, hTim, hTrack, false_and, if_false]
  rw [if_neg (by omega), if_neg (by omega), if_pos ⟨hOff, hSome⟩]

theorem regOff_header {off : Nat} (h : off % 1024 = 0x01C) : regOff off = 0x01C := by
  unfold regOff
  rw [h]

/-- Settles O11: an incomplete write only sets its error bit (`accessWrite_partial`); a whole write of EVT_MASK, of a _LO word and of a _HI
word goes where `writeReg_evtMask`, `writeReg_lo` and `writeReg_hi` say; a read of a _LO word is `readLo` (`readReg_lo`). -/
theorem registerAccess : Obligations.RegisterAccess := by
  unfold Obligations.RegisterAccess
  refine ⟨fun s x hRun hAdmit hBe => ?_, fun s x hRun hAdmit hBe hOff => ?_,
    fun s a v i hRun hAdmit hBe hPage hBox hChk hOff hPair => ?_,
    fun s a v i f hRun hAdmit hBe hPage hBox hChk hLog hWng hOff hLo hPair hAcc hPer => ?_,
    fun s a i f hRun hAdmit hBe hPage hTyp hOff hPair hAcc => ?_⟩
  · refine ⟨_, runReg_eq_next hRun hAdmit, ?_⟩
    rw [accessWrite_partial hBe]
    simp
  · obtain ⟨i, hPage⟩ := admitted_page hAdmit
    have hReg := regOff_header hOff
    refine ⟨_, runReg_eq_next hRun hAdmit, ?_⟩
    rw [accessWrite_whole hBe (proxyAt_low (by omega)), writeReg_evtMask hPage hReg]
    simp [getBits, Field.width, EVT_MASK_mask]
  · refine ⟨_, runReg_eq_next (x := pairWrite a v) hRun hAdmit, ?_⟩
    rw [accessWrite_whole (x := pairWrite a v) hBe (proxyAt_notBox hPage hBox), writeReg_lo (x := pairWrite a v) hPage hBox hChk hOff hPair]
    refine ⟨?_, fun pg g hPg hg => ?_⟩
    · exact (State.rd_wr_same _ _ _ _).trans (Nat.mod_mod _ _)
    · exact State.rd_wr_key _ _ _ _ _ _ (fkey_reqPage_ne a.who hPg hg)
  · have hWritable : pairWritable a.page (regOff a.off - 4) = true := by simp [pairWritable, hPair, hAcc]
    refine ⟨_, runReg_eq_next (x := pairWrite a v) hRun hAdmit, ?_⟩
    rw [accessWrite_whole (x := pairWrite a v) hBe (proxyAt_notBox hPage hBox),
      writeReg_hi (x := pairWrite a v) hPage hBox hChk hLog hWng hOff hLo hWritable]
    refine (putPair_single hPair hAcc hPer).trans ?_
    rw [show (pairWrite a v).value = v from rfl, Nat.mod_mod]
    rfl
  · refine ⟨_, runRead_eq_next (fun s => s.readReg a.who a.page (regOff a.off)) hRun hAdmit hBe, ?_⟩
    rw [readReg_lo hPage hTyp hOff hPair hAcc]
    exact ⟨rfl, State.rd_wr_same _ _ _ _⟩

/-! ### Indirect tables: an entry of a failed bank (file 02, R66; file 15, R528) -/

/-- Bank 0 of the prompt book has failed, and its slot 0 still holds an entry. -/
def failedBankState : State := (State.reset.wrb pgLog LOG_STATUS_bank0_failed true).setEntry pgLog T_LOG_ENTRY 0 1

/-- The stage manager's access to IND_ADDR of the LOG page. -/
def logIndAddr : RegAcc := { who := { master := .sm, box := 0, proxy := false }, page := pgLog, off := 0x028, be := 15 }

/-- Refutes O12: the first clause says of every table with a single copy that the fetched row is the committed one. The prompt book's
entries in a failed bank read as zeros with ind_range (R528): in `failedBankState` row 0 of the book holds 1, and a write of IND_ADDR
with table 1, index 0 fetches 0. -/
theorem not_indirectTables : ¬ Obligations.IndirectTables := by
  unfold Obligations.IndirectTables
  rintro ⟨hFetch, -⟩
  obtain ⟨t, hExec, -, hData⟩ := hFetch failedBankState logIndAddr (2 ^ 24) T_LOG_ENTRY (by decide +kernel) (by decide +kernel)
    (by decide) rfl (by decide) (by decide +kernel) (by decide +kernel) rfl
  have hFetched : t.rd (reqPage logIndAddr.page logIndAddr.who) (IND_DATA_data 0) = 0 := by
    cases hExec
    decide +kernel
  have hHeld : failedBankState.committedRow logIndAddr.page T_LOG_ENTRY (2 ^ 24 % 2 ^ 24) / 2 ^ (32 * 0) % 2 ^ 32 = 1 := by decide +kernel
  have hClaim := hData 0 (by decide)
  rw [if_neg (by decide), hFetched, hHeld] at hClaim
  exact absurd hClaim (by decide)

/-! ### The vote scrub (file 02, R61 to R63) -/

/-- The three copies of a field, in the order in which the model keeps them. -/
def State.Copies (s : State) (pg : Nat) (f : Field) (a b c : Nat) : Prop :=
  s.regs.get f.reset (fkey pg f) = a ∧ s.regsB.get f.reset (fkey pg f) = b ∧ s.regsC.get f.reset (fkey pg f) = c

theorem State.Copies.rd {s : State} {pg a b c : Nat} {f : Field} (h : s.Copies pg f a b c) (hRv : f.acc = .rv) :
    s.rd pg f = vote f.reset a b c := by
  obtain ⟨rfl, rfl, rfl⟩ := h
  exact if_pos hRv

theorem State.copies_wr (s : State) (pg v : Nat) {f : Field} (hRv : f.acc = .rv) :
    (s.wr pg f v).Copies pg f (v % 2 ^ f.width) (v % 2 ^ f.width) (v % 2 ^ f.width) := by
  unfold State.wr
  rw [if_pos hRv]
  exact ⟨SMap.get_set_same .., SMap.get_set_same .., SMap.get_set_same ..⟩

theorem State.Copies.voteField_agree {s : State} {pg x : Nat} {f : Field} (h : s.Copies pg f x x x) : s.voteField pg f = s := by
  obtain ⟨hA, hB, hC⟩ := h
  unfold State.voteField
  dsimp only
  rw [hA, hB, hC]
  exact if_pos (.inr ⟨rfl, rfl⟩)

theorem State.Copies.voteField_corrected {s : State} {pg a b c : Nat} {f : Field} (h : s.Copies pg f a b c) (hRv : f.acc = .rv)
    (hOdd : ¬ (a = b ∧ b = c)) (hTwo : a = b ∨ a = c ∨ b = c) :
    s.voteField pg f = ((s.wr pg f (s.rd pg f)).setErr pg errVoteCorrected).report clsVote 1 (pageItem pg) := by
  obtain ⟨rfl, rfl, rfl⟩ := h
  unfold State.voteField
  dsimp only
  rw [if_neg (by rintro (hNot | hAll); exacts [hNot hRv, hOdd hAll]), if_pos hTwo]

theorem State.Copies.voteField_lost {s : State} {pg a b c : Nat} {f : Field} (h : s.Copies pg f a b c) (hRv : f.acc = .rv)
    (hThree : ¬ (a = b ∨ a = c ∨ b = c)) (hMode : pg ≠ pgMode) :
    s.voteField pg f = ((s.wr pg f f.reset).setErr pg errVoteLost).report clsVote 3 (pageItem pg) := by
  obtain ⟨rfl, rfl, rfl⟩ := h
  unfold State.voteField
  dsimp only
  rw [if_neg (by rintro (hNot | ⟨hAll, -⟩); exacts [hNot hRv, hThree (.inl hAll)]), if_neg hThree, if_neg (fun hAt => hMode hAt.1)]

/-! #### The fields that the scrub visits -/

/-- The RV field kept under a key, with its page. -/
def fieldAt (k : Nat) : Option (Nat × Field) :=
  ((pageFields (k / 8192)).find? (fun f => decide (f.acc = .rv ∧ fkey (k / 8192) f = k))).map (fun f => (k / 8192, f))

theorem votedKeys_eq (s : State) : s.votedKeys = (s.regs ++ s.regsB ++ s.regsC).filterMap (fun x => fieldAt x.1) := rfl

theorem fieldAt_some {k pg : Nat} {f : Field} (h : fieldAt k = some (pg, f)) : f.acc = .rv ∧ fkey pg f = k := by
  unfold fieldAt at h
  obtain ⟨g, hFind, hEq⟩ := Option.map_eq_some_iff.1 h
  cases hEq
  simpa using List.find?_some hFind

theorem typeFields_rv_inst (t : PageType) (inst : Nat) :
    (typeFields t inst).filter (fun f => decide (f.acc = .rv)) = (typeFields t 0).filter (fun f => decide (f.acc = .rv)) := by
  cases t <;> rfl

/-- Where an RV field stands: in one 32-bit register of the page; and its reset value fits it. -/
def rvWellPlaced (f : Field) : Bool := decide (f.off % 4 = 0 ∧ f.off < 1024 ∧ f.lo < 32 ∧ f.reset < 2 ^ f.width)

theorem rvWellPlaced_of_mem {pg : Nat} {f : Field} (hf : f ∈ pageFields pg) (hRv : f.acc = .rv) : rvWellPlaced f = true := by
  have hHeader : ∀ g ∈ headerFields, g.acc = .rv → rvWellPlaced g = true := by decide
  have hTypes : ∀ t : PageType, ((typeFields t 0).filter (fun f => decide (f.acc = .rv))).all rvWellPlaced = true := by
    intro t; cases t <;> decide +kernel
  unfold pageFields at hf
  split at hf
  next i _ =>
    rcases List.mem_append.1 hf with hIn | hIn
    · exact hHeader f hIn hRv
    · refine List.all_eq_true.1 (hTypes i.typ) f ?_
      rw [← typeFields_rv_inst i.typ i.inst]
      exact List.mem_filter.2 ⟨hIn, decide_eq_true hRv⟩
  next => cases hf

theorem rv_of_find? {pg : Nat} {f : Field}
    (hFind : (pageFields pg).find? (fun g => decide (g.acc = .rv ∧ g.off = f.off ∧ g.lo = f.lo)) = some f) : f.acc = .rv := by
  simpa using List.find?_some hFind

/-- Under an RV field's key the scrub finds the field that an upset finds by its place. -/
theorem fieldAt_fkey {pg : Nat} {f : Field}
    (hFind : (pageFields pg).find? (fun g => decide (g.acc = .rv ∧ g.off = f.off ∧ g.lo = f.lo)) = some f) :
    fieldAt (fkey pg f) = some (pg, f) := by
  have hRv := rv_of_find? hFind
  obtain ⟨hOff, hMax, hLo, -⟩ := of_decide_eq_true (rvWellPlaced_of_mem (List.mem_of_find?_eq_some hFind) hRv)
  have hPage : fkey pg f / 8192 = pg := by unfold fkey; omega
  have hSame : ∀ g ∈ pageFields pg, decide (g.acc = .rv ∧ fkey pg g = fkey pg f) = decide (g.acc = .rv ∧ g.off = f.off ∧ g.lo = f.lo) := by
    intro g hg
    refine decide_eq_decide.2 (and_congr_right fun hgRv => ?_)
    obtain ⟨hgOff, -, hgLo, -⟩ := of_decide_eq_true (rvWellPlaced_of_mem hg hgRv)
    unfold fkey
    omega
  unfold fieldAt
  rw [hPage, List.find?_congr hSame, hFind]
  rfl

theorem SMap.get_of_absent {α : Type} {d : α} {m : SMap α} {k : Nat} (h : ∀ x ∈ m, x.1 ≠ k) : SMap.get d m k = d := by
  induction m with
  | nil => rfl
  | cons x m ih =>
    rw [SMap.get, if_neg (h x (by simp)), ih (fun y hy => h y (by simp [hy]))]

/-- A field whose copies do not all hold its reset value is stored, so the scrub visits it. -/
theorem mem_votedKeys {s : State} {pg : Nat} {f : Field} (hAt : fieldAt (fkey pg f) = some (pg, f))
    (hStored : ¬ s.Copies pg f f.reset f.reset f.reset) : (pg, f) ∈ s.votedKeys := by
  by_contra hNot
  have hAbsent : ∀ x ∈ s.regs ++ s.regsB ++ s.regsC, x.1 ≠ fkey pg f := fun x hx hKey =>
    hNot (by rw [votedKeys_eq]; exact List.mem_filterMap.2 ⟨x, hx, by rw [hKey, hAt]⟩)
  simp only [List.mem_append, or_imp, forall_and] at hAbsent
  obtain ⟨⟨hA, hB⟩, hC⟩ := hAbsent
  exact hStored ⟨SMap.get_of_absent hA, SMap.get_of_absent hB, SMap.get_of_absent hC⟩

/-- The copies of every voted entry that a store lists agree. -/
def State.RowsAgree (s : State) : Prop := ∀ x ∈ s.votedRows,
  s.tabs.get (x.2.1.resetEntry x.2.2) (tkey x.1 x.2.1 x.2.2) = s.tabsB.get (x.2.1.resetEntry x.2.2) (tkey x.1 x.2.1 x.2.2) ∧
  s.tabsB.get (x.2.1.resetEntry x.2.2) (tkey x.1 x.2.1 x.2.2) = s.tabsC.get (x.2.1.resetEntry x.2.2) (tkey x.1 x.2.1 x.2.2)

/-- The copies of every RV field agree. -/
def State.FieldsAgree (s : State) : Prop := ∀ pg f, fieldAt (fkey pg f) = some (pg, f) → ∃ x, s.Copies pg f x x x

theorem votesAgree_rows {s : State} (h : s.votesAgree = true) : s.RowsAgree := by
  unfold State.votesAgree at h
  intro x hx
  exact of_decide_eq_true (List.all_eq_true.1 (Bool.and_eq_true_iff.1 h).2 x hx)

theorem votesAgree_fields {s : State} (h : s.votesAgree = true) : s.FieldsAgree := by
  intro pg f hAt
  by_cases hReset : s.Copies pg f f.reset f.reset f.reset
  · exact ⟨_, hReset⟩
  · unfold State.votesAgree at h
    obtain ⟨hAB, hBC⟩ := of_decide_eq_true (List.all_eq_true.1 (Bool.and_eq_true_iff.1 h).1 _ (mem_votedKeys hAt hReset))
    exact ⟨_, rfl, hAB.symm, (hAB.trans hBC).symm⟩

theorem mem_votedKeys_fieldAt {s : State} {pg : Nat} {f : Field} (h : (pg, f) ∈ s.votedKeys) : fieldAt (fkey pg f) = some (pg, f) := by
  rw [votedKeys_eq] at h
  obtain ⟨x, -, hx⟩ := List.mem_filterMap.1 h
  rw [(fieldAt_some hx).2, hx]

/-! #### The scrub's two passes -/

/-- A pass that changes nothing at any of its turns changes nothing. -/
theorem each_eq_self {α : Type} {s : State} {l : List α} {g : State → α → State} (h : ∀ x ∈ l, g s x = s) : s.each l g = s := by
  unfold State.each
  induction l with
  | nil => rfl
  | cons x l ih => rw [List.foldl_cons, h x (by simp), ih (fun y hy => h y (by simp [hy]))]

/-- A pass in which one item alone changes something, once. -/
theorem each_eq_once {α : Type} {s t : State} {l : List α} {g : State → α → State} {x : α} (hx : x ∈ l) (hOnce : g s x = t)
    (hOthers : ∀ y ∈ l, y ≠ x → g s y = s) (hAfter : ∀ y ∈ l, g t y = t) : s.each l g = t := by
  induction l with
  | nil => cases hx
  | cons y l ih =>
    show (g s y).each l g = t
    by_cases hy : y = x
    · rw [hy, hOnce]
      exact each_eq_self (fun z hz => hAfter z (by simp [hz]))
    · rw [hOthers y (by simp) hy]
      exact ih ((List.mem_cons.1 hx).resolve_left (fun h => hy h.symm)) (fun z hz => hOthers z (by simp [hz])) (fun z hz => hAfter z (by simp [hz]))

theorem State.RowsAgree.pass {s : State} (h : s.RowsAgree) : s.each s.votedRows (fun s x => s.voteEntry x.1 x.2.1 x.2.2) = s :=
  each_eq_self (fun x hx => by
    unfold State.voteEntry
    exact if_pos (.inr (h x hx)))

theorem State.FieldsAgree.pass {s : State} (h : s.FieldsAgree) : s.each s.votedKeys (fun s x => s.voteField x.1 x.2) = s :=
  each_eq_self (fun _ hx => (h _ _ (mem_votedKeys_fieldAt hx)).choose_spec.voteField_agree)

/-- Two states whose register copies differ at most under one key, and whose tables are the same. -/
structure SameBut (k : Nat) (s t : State) : Prop where
  regs : ∀ d k', k' ≠ k → t.regs.get d k' = s.regs.get d k'
  regsB : ∀ d k', k' ≠ k → t.regsB.get d k' = s.regsB.get d k'
  regsC : ∀ d k', k' ≠ k → t.regsC.get d k' = s.regsC.get d k'
  tabs : t.tabs = s.tabs
  tabsB : t.tabsB = s.tabsB
  tabsC : t.tabsC = s.tabsC

theorem SameBut.trans {k : Nat} {s t u : State} (h : SameBut k s t) (h' : SameBut k t u) : SameBut k s u where
  regs d k' hk := (h'.regs d k' hk).trans (h.regs d k' hk)
  regsB d k' hk := (h'.regsB d k' hk).trans (h.regsB d k' hk)
  regsC d k' hk := (h'.regsC d k' hk).trans (h.regsC d k' hk)
  tabs := h'.tabs.trans h.tabs
  tabsB := h'.tabsB.trans h.tabsB
  tabsC := h'.tabsC.trans h.tabsC

theorem SameBut.copies {k : Nat} {s t : State} (h : SameBut k s t) {pg a b c : Nat} {f : Field} (hk : fkey pg f ≠ k)
    (hs : s.Copies pg f a b c) : t.Copies pg f a b c := by
  obtain ⟨hA, hB, hC⟩ := hs
  exact ⟨(h.regs _ _ hk).trans hA, (h.regsB _ _ hk).trans hB, (h.regsC _ _ hk).trans hC⟩

theorem SameBut.rowsAgree {k : Nat} {s t : State} (h : SameBut k s t) (hs : s.RowsAgree) : t.RowsAgree := by
  have hRows : t.votedRows = s.votedRows := by
    unfold State.votedRows
    rw [h.tabs, h.tabsB, h.tabsC]
  unfold State.RowsAgree
  rw [hRows, h.tabs, h.tabsB, h.tabsC]
  exact hs

theorem sameBut_wr (s : State) (pg : Nat) (f : Field) (v : Nat) : SameBut (fkey pg f) s (s.wr pg f v) := by
  unfold State.wr
  dsimp only
  split
  · exact ⟨fun _ _ hk => SMap.get_set_ne _ _ _ _ hk, fun _ _ hk => SMap.get_set_ne _ _ _ _ hk, fun _ _ hk => SMap.get_set_ne _ _ _ _ hk,
      rfl, rfl, rfl⟩
  · exact ⟨fun _ _ hk => SMap.get_set_ne _ _ _ _ hk, fun _ _ _ => rfl, fun _ _ _ => rfl, rfl, rfl, rfl⟩

/-- Two states that hold the same registers and tables, in every copy. -/
def SameStores (s t : State) : Prop :=
  t.regs = s.regs ∧ t.regsB = s.regsB ∧ t.regsC = s.regsC ∧ t.tabs = s.tabs ∧ t.tabsB = s.tabsB ∧ t.tabsC = s.tabsC

theorem setPending_sameStores (s : State) (pg : Nat) : SameStores s (s.setPending pg) := by
  unfold State.setPending
  cases pageInfo pg with
  | none => exact ⟨rfl, rfl, rfl, rfl, rfl, rfl⟩
  | some i => dsimp only; (repeat' split) <;> exact ⟨rfl, rfl, rfl, rfl, rfl, rfl⟩

theorem setErr_sameStores (s : State) (pg k : Nat) : SameStores s (s.setErr pg k) := by
  unfold State.setErr
  dsimp only
  split
  · exact ⟨rfl, rfl, rfl, rfl, rfl, rfl⟩
  · exact setPending_sameStores _ _

theorem report_sameStores (s : State) (cls level src : Nat) : SameStores s (s.report cls level src) := by
  unfold State.report
  split <;> exact ⟨rfl, rfl, rfl, rfl, rfl, rfl⟩

theorem SameStores.trans {s t u : State} (h : SameStores s t) (h' : SameStores t u) : SameStores s u := by
  obtain ⟨hA, hB, hC, hTA, hTB, hTC⟩ := h
  obtain ⟨hA', hB', hC', hTA', hTB', hTC'⟩ := h'
  exact ⟨hA'.trans hA, hB'.trans hB, hC'.trans hC, hTA'.trans hTA, hTB'.trans hTB, hTC'.trans hTC⟩

theorem SameStores.sameBut {s t : State} (h : SameStores s t) (k : Nat) : SameBut k s t := by
  obtain ⟨hA, hB, hC, hTA, hTB, hTC⟩ := h
  exact ⟨fun _ _ _ => by rw [hA], fun _ _ _ => by rw [hB], fun _ _ _ => by rw [hC], hTA, hTB, hTC⟩

theorem SameStores.copies {s t : State} (h : SameStores s t) {pg a b c : Nat} {f : Field} (hs : s.Copies pg f a b c) :
    t.Copies pg f a b c := by
  obtain ⟨hA, hB, hC, -⟩ := h
  unfold State.Copies
  rw [hA, hB, hC]
  exact hs

/-- What a vote that finds a field's copies at odds leaves: the field rewritten, an error bit and a report. -/
def State.voteRepaired (s : State) (pg : Nat) (f : Field) (v err level : Nat) : State :=
  ((s.wr pg f v).setErr pg err).report clsVote level (pageItem pg)

theorem voteRepaired_stores (s : State) (pg : Nat) (f : Field) (v err level : Nat) :
    SameStores (s.wr pg f v) (s.voteRepaired pg f v err level) :=
  (setErr_sameStores _ _ _).trans (report_sameStores _ _ _ _)

@[simp] theorem hasErr_report (s : State) (cls level src pg k : Nat) : (s.report cls level src).hasErr pg k = s.hasErr pg k := by
  unfold State.report
  split <;> rfl

theorem voteRepaired_rd (s : State) (pg : Nat) (f : Field) (v err level : Nat) :
    (s.voteRepaired pg f v err level).rd pg f = v % 2 ^ f.width := by
  unfold State.voteRepaired
  simp

theorem voteRepaired_hasErr (s : State) (pg : Nat) (f : Field) (v err level : Nat) :
    (s.voteRepaired pg f v err level).hasErr pg err = true := by
  unfold State.voteRepaired
  simp

/-- On a state whose copies agree but for those of one field, the scrub does what the vote of that field does. -/
theorem scrub_eq_voteRepaired {s : State} {us : List Upset} {pg a b c v err level : Nat} {f : Field} (hAgree : s.votesAgree = true)
    (hAt : fieldAt (fkey pg f) = some (pg, f)) (hUpset : SameBut (fkey pg f) s (s.each us State.upset))
    (hCopies : (s.each us State.upset).Copies pg f a b c) (hOdd : ¬ (a = b ∧ b = c))
    (hVote : (s.each us State.upset).voteField pg f = (s.each us State.upset).voteRepaired pg f v err level) :
    s.scrub us = (s.each us State.upset).voteRepaired pg f v err level := by
  obtain ⟨hRv, -⟩ := fieldAt_some hAt
  generalize hU : s.each us State.upset = u at *
  have hStored : ¬ u.Copies pg f f.reset f.reset f.reset := by
    rintro ⟨hA, hB, hC⟩
    obtain ⟨rfl, rfl, rfl⟩ := hCopies
    exact hOdd ⟨hA.trans hB.symm, hB.trans hC.symm⟩
  have hRepaired := voteRepaired_stores u pg f v err level
  have hSame : SameBut (fkey pg f) u (u.voteRepaired pg f v err level) := (sameBut_wr u pg f v).trans (hRepaired.sameBut _)
  have hOther : ∀ y ∈ u.votedKeys, y ≠ (pg, f) → ∃ x, u.Copies y.1 y.2 x x x := by
    intro y hy hNe
    have hyAt := mem_votedKeys_fieldAt hy
    obtain ⟨x, hx⟩ := votesAgree_fields hAgree _ _ hyAt
    exact ⟨x, hUpset.copies (fun hKey => hNe (Option.some.inj (by rw [← hAt, ← hKey, hyAt]))) hx⟩
  have hPass : u.each u.votedKeys (fun s x => s.voteField x.1 x.2) = u.voteRepaired pg f v err level := by
    refine each_eq_once (mem_votedKeys hAt hStored) hVote (fun y hy hNe => ?_) (fun y hy => ?_)
    · obtain ⟨x, hx⟩ := hOther y hy hNe
      exact hx.voteField_agree
    · by_cases hNe : y = (pg, f)
      · rw [hNe]
        exact (hRepaired.copies (u.copies_wr pg v hRv)).voteField_agree
      · obtain ⟨x, hx⟩ := hOther y hy hNe
        have hKey : fkey y.1 y.2 ≠ fkey pg f := fun hKey =>
          hNe (Option.some.inj (by rw [← hAt, ← hKey, mem_votedKeys_fieldAt hy]))
        exact (hSame.copies hKey hx).voteField_agree
  unfold State.scrub
  dsimp only
  rw [hU, hPass]
  exact (hSame.rowsAgree (hUpset.rowsAgree (votesAgree_rows hAgree))).pass

/-! #### Disturbed copies -/

/-- The field named by an upset is found: its copy takes the value, cut to the width. -/
theorem upset_field {s : State} {pg copy v : Nat} {f : Field}
    (hFind : (pageFields pg).find? (fun g => decide (g.acc = .rv ∧ g.off = f.off ∧ g.lo = f.lo)) = some f) :
    s.upset (.field pg f.off f.lo copy v) =
      if copy = 0 then { s with regs := s.regs.set f.reset (fkey pg f) (v % 2 ^ f.width) }
      else if copy = 1 then { s with regsB := s.regsB.set f.reset (fkey pg f) (v % 2 ^ f.width) }
      else { s with regsC := s.regsC.set f.reset (fkey pg f) (v % 2 ^ f.width) } := by
  unfold State.upset
  dsimp only
  rw [hFind]

theorem upset_sameBut {s : State} {pg copy v : Nat} {f : Field}
    (hFind : (pageFields pg).find? (fun g => decide (g.acc = .rv ∧ g.off = f.off ∧ g.lo = f.lo)) = some f) :
    SameBut (fkey pg f) s (s.upset (.field pg f.off f.lo copy v)) := by
  rw [upset_field hFind]
  split
  · exact ⟨fun _ _ hk => SMap.get_set_ne _ _ _ _ hk, fun _ _ _ => rfl, fun _ _ _ => rfl, rfl, rfl, rfl⟩
  · split
    · exact ⟨fun _ _ _ => rfl, fun _ _ hk => SMap.get_set_ne _ _ _ _ hk, fun _ _ _ => rfl, rfl, rfl, rfl⟩
    · exact ⟨fun _ _ _ => rfl, fun _ _ _ => rfl, fun _ _ hk => SMap.get_set_ne _ _ _ _ hk, rfl, rfl, rfl⟩

/-- The copies after one of them was disturbed. -/
theorem upset_copies {s : State} {pg copy v a b c : Nat} {f : Field}
    (hFind : (pageFields pg).find? (fun g => decide (g.acc = .rv ∧ g.off = f.off ∧ g.lo = f.lo)) = some f) (h : s.Copies pg f a b c) :
    (s.upset (.field pg f.off f.lo copy v)).Copies pg f (if copy = 0 then v % 2 ^ f.width else a)
      (if copy = 1 then v % 2 ^ f.width else b) (if copy = 0 ∨ copy = 1 then c else v % 2 ^ f.width) := by
  obtain ⟨hA, hB, hC⟩ := h
  rw [upset_field hFind]
  by_cases h0 : copy = 0
  · simpa [h0] using ⟨SMap.get_set_same .., hB, hC⟩
  · by_cases h1 : copy = 1
    · simpa [h0, h1] using ⟨hA, SMap.get_set_same .., hC⟩
    · simpa [h0, h1] using ⟨hA, hB, SMap.get_set_same ..⟩

/-- Of a state whose copies agree, each copy of an RV field holds what the field reads. -/
theorem votesAgree_copies {s : State} {pg : Nat} {f : Field} (h : s.votesAgree = true) (hAt : fieldAt (fkey pg f) = some (pg, f)) :
    s.Copies pg f (s.rd pg f) (s.rd pg f) (s.rd pg f) := by
  obtain ⟨x, hx⟩ := votesAgree_fields h pg f hAt
  rw [hx.rd (fieldAt_some hAt).1, vote_same]
  exact hx

/-- With one of three agreeing copies disturbed, two still hold the value and one does not. -/
theorem upset_oneOdd {s : State} {pg v x : Nat} {f : Field} (copy : Nat)
    (hFind : (pageFields pg).find? (fun g => decide (g.acc = .rv ∧ g.off = f.off ∧ g.lo = f.lo)) = some f) (h : s.Copies pg f x x x)
    (hNe : v % 2 ^ f.width ≠ x) : ∃ a b c, (s.upset (.field pg f.off f.lo copy v)).Copies pg f a b c ∧ ¬ (a = b ∧ b = c) ∧
      ((a = x ∧ b = x) ∨ (a = x ∧ c = x) ∨ (b = x ∧ c = x)) := by
  refine ⟨_, _, _, upset_copies hFind h, ?_⟩
  by_cases h0 : copy = 0
  · simp [h0, hNe]
  · by_cases h1 : copy = 1
    · simp [h1, hNe, hNe.symm]
    · simp [h0, h1, hNe.symm]

/-- With one copy disturbed, the scrub rewrites the field with what it read before. -/
theorem scrub_oneUpset {s : State} {pg v : Nat} {f : Field} (copy : Nat) (hAgree : s.votesAgree = true)
    (hFind : (pageFields pg).find? (fun g => decide (g.acc = .rv ∧ g.off = f.off ∧ g.lo = f.lo)) = some f)
    (hNe : v % 2 ^ f.width ≠ s.rd pg f) : s.scrub [.field pg f.off f.lo copy v] =
      (s.upset (.field pg f.off f.lo copy v)).voteRepaired pg f (s.rd pg f) errVoteCorrected 1 := by
  have hAt := fieldAt_fkey hFind
  have hRv := rv_of_find? hFind
  obtain ⟨a, b, c, hCopies, hOdd, hTwo⟩ := upset_oneOdd copy hFind (votesAgree_copies hAgree hAt) hNe
  refine scrub_eq_voteRepaired (us := [_]) hAgree hAt (upset_sameBut hFind) hCopies hOdd ?_
  have hRd : (s.upset (.field pg f.off f.lo copy v)).rd pg f = s.rd pg f := (hCopies.rd hRv).trans (vote_of_two hTwo)
  have hPair : a = b ∨ a = c ∨ b = c := by
    rcases hTwo with ⟨hA, hB⟩ | ⟨hA, hC⟩ | ⟨hB, hC⟩
    · exact .inl (hA.trans hB.symm)
    · exact .inr (.inl (hA.trans hC.symm))
    · exact .inr (.inr (hB.trans hC.symm))
  rw [← hRd]
  exact hCopies.voteField_corrected hRv hOdd hPair

/-- With two copies disturbed so that all three differ, the scrub puts the field to its reset value. -/
theorem scrub_twoUpsets {s : State} {pg v v' : Nat} {f : Field} (hAgree : s.votesAgree = true)
    (hFind : (pageFields pg).find? (fun g => decide (g.acc = .rv ∧ g.off = f.off ∧ g.lo = f.lo)) = some f) (hMode : pg ≠ pgMode)
    (hNe : v % 2 ^ f.width ≠ s.rd pg f) (hNe' : v' % 2 ^ f.width ≠ s.rd pg f) (hDiffer : v % 2 ^ f.width ≠ v' % 2 ^ f.width) :
    s.scrub [.field pg f.off f.lo 0 v, .field pg f.off f.lo 1 v'] =
      ((s.upset (.field pg f.off f.lo 0 v)).upset (.field pg f.off f.lo 1 v')).voteRepaired pg f f.reset errVoteLost 3 := by
  have hAt := fieldAt_fkey hFind
  have hFirst := upset_copies (copy := 0) (v := v) hFind (votesAgree_copies hAgree hAt)
  have hCopies : ((s.upset (.field pg f.off f.lo 0 v)).upset (.field pg f.off f.lo 1 v')).Copies pg f (v % 2 ^ f.width) (v' % 2 ^ f.width)
      (s.rd pg f) := upset_copies (copy := 1) hFind hFirst
  have hThree : ¬ (v % 2 ^ f.width = v' % 2 ^ f.width ∨ v % 2 ^ f.width = s.rd pg f ∨ v' % 2 ^ f.width = s.rd pg f) := by
    rintro (h | h | h)
    exacts [hDiffer h, hNe h, hNe' h]
  exact scrub_eq_voteRepaired (us := [_, _]) hAgree hAt ((upset_sameBut hFind).trans (upset_sameBut hFind)) hCopies
    (fun hAll => hDiffer hAll.1) (hCopies.voteField_lost (rv_of_find? hFind) hThree hMode)

/-- A scrub without a disturbance leaves agreeing copies alone. -/
theorem scrub_nil {s : State} (hAgree : s.votesAgree = true) : s.scrub [] = s := by
  have hFields := (votesAgree_fields hAgree).pass
  unfold State.scrub
  show State.each (s.each s.votedKeys _) (State.votedRows (s.each s.votedKeys _)) _ = s
  rw [hFields]
  exact (votesAgree_rows hAgree).pass

theorem exec_voteScrub (us : List Upset) {s : State} (hRun : s.dom = .run) :
    exec (.voteScrub us) s = .next (s.after (s.fresh.scrub us)) := run_eq_next (fun s => s.scrub us) hRun

/-- Settles O13: on agreeing copies both passes of the scrub change nothing (`scrub_nil`), and where one field's copies are at odds the
scrub does what the vote of that field does (`scrub_oneUpset`, `scrub_twoUpsets`). -/
theorem voteScrub : Obligations.VoteScrub := by
  unfold Obligations.VoteScrub
  refine ⟨fun s hRun hAgree => ?_, fun s pg f copy v hRun hAgree hFind _ hWidth hNe => ?_,
    fun s pg f v v' hRun hAgree hFind hMode hNe hNe' hDiffer => ?_⟩
  · refine ⟨_, exec_voteScrub _ hRun, ?_⟩
    rw [scrub_nil (s := s.fresh) hAgree]
    exact ⟨fun _ _ => rfl, rfl, rfl⟩
  · refine ⟨_, exec_voteScrub _ hRun, ?_⟩
    rw [scrub_oneUpset (s := s.fresh) copy hAgree hFind hNe, State.rd_after, State.hasErr_after, voteRepaired_rd]
    exact ⟨Nat.mod_eq_of_lt hWidth, voteRepaired_hasErr _ _ _ _ _ _⟩
  · obtain ⟨-, -, -, hReset⟩ := of_decide_eq_true (rvWellPlaced_of_mem (List.mem_of_find?_eq_some hFind) (rv_of_find? hFind))
    refine ⟨_, exec_voteScrub _ hRun, ?_⟩
    rw [scrub_twoUpsets (s := s.fresh) hAgree hFind hMode hNe hNe' hDiffer, State.rd_after, State.hasErr_after, voteRepaired_rd]
    exact ⟨Nat.mod_eq_of_lt hReset, voteRepaired_hasErr _ _ _ _ _ _⟩

end Sys2Proof.Machine

namespace Sys2Proof.Machine

open Sys2Proof

/-! ### Registers and lanes under the operations of a lane (file 03) -/

theorem getBits_mod_width (v hi lo : Nat) : getBits v hi lo % 2 ^ (hi - lo + 1) = getBits v hi lo := Nat.mod_mod _ _

theorem State.rd_wr_place {pg pg' v : Nat} {f g : Field} (s : State) (h : g.place ≠ f.place) : (s.wr pg f v).rd pg' g = s.rd pg' g :=
  s.rd_wr_ne pg pg' f g v h

theorem State.rd_wrb_place {pg pg' : Nat} {f g : Field} {b : Bool} (s : State) (h : g.place ≠ f.place) :
    (s.wrb pg f b).rd pg' g = s.rd pg' g := s.rd_wr_place h

theorem State.rd_count_place {pg pg' k : Nat} {f g : Field} (s : State) (h : g.place ≠ f.place) :
    (s.count pg f k).rd pg' g = s.rd pg' g := s.rd_wr_place h

theorem State.rdb_wr_place {pg pg' v : Nat} {f g : Field} (s : State) (h : g.place ≠ f.place) : (s.wr pg f v).rdb pg' g = s.rdb pg' g := by
  unfold State.rdb
  rw [s.rd_wr_place h]

theorem State.rdb_wrb_place {pg pg' : Nat} {f g : Field} {b : Bool} (s : State) (h : g.place ≠ f.place) :
    (s.wrb pg f b).rdb pg' g = s.rdb pg' g := s.rdb_wr_place h

theorem State.rdb_count_place {pg pg' k : Nat} {f g : Field} (s : State) (h : g.place ≠ f.place) :
    (s.count pg f k).rdb pg' g = s.rdb pg' g := s.rdb_wr_place h

@[simp] theorem State.rd_count_same (s : State) (pg : Nat) (f : Field) (k : Nat) :
    (s.count pg f k).rd pg f = (s.rd pg f + k) % 2 ^ f.width := State.rd_wr_same ..

@[simp] theorem State.rdb_setLane (s : State) (n : Nat) (u : Lane → Lane) (pg : Nat) (f : Field) : (s.setLane n u).rdb pg f = s.rdb pg f := rfl
@[simp] theorem State.lane_setLane (s : State) (n : Nat) (u : Lane → Lane) : (s.setLane n u).lane n = u (s.lane n) := SMap.get_upd_same ..

@[simp] theorem State.lane_wr (s : State) (pg : Nat) (f : Field) (v n : Nat) : (s.wr pg f v).lane n = s.lane n := by
  unfold State.lane State.wr
  dsimp only
  split <;> rfl

@[simp] theorem State.lane_wrb (s : State) (pg : Nat) (f : Field) (b : Bool) (n : Nat) : (s.wrb pg f b).lane n = s.lane n := s.lane_wr ..
@[simp] theorem State.lane_count (s : State) (pg : Nat) (f : Field) (k n : Nat) : (s.count pg f k).lane n = s.lane n := s.lane_wr ..

@[simp] theorem State.lane_fresh (s : State) (n : Nat) : s.fresh.lane n = s.lane n := rfl
@[simp] theorem State.lane_after (s u : State) (n : Nat) : (s.after u).lane n = u.lane n := rfl
@[simp] theorem State.rdb_fresh (s : State) (pg : Nat) (f : Field) : s.fresh.rdb pg f = s.rdb pg f := rfl
@[simp] theorem State.rdb_after (s u : State) (pg : Nat) (f : Field) : (s.after u).rdb pg f = u.rdb pg f := rfl

@[simp] theorem State.rdb_ev (s : State) (pg k pg' : Nat) (f : Field) : (s.ev pg k).rdb pg' f = s.rdb pg' f := by
  unfold State.rdb
  rw [State.rd_ev]

/-! ### Transmit taps (R95) -/

/-- The five taps, each clamped to its range, that the registers LLN_TX_FIR0 and LLN_TX_FIR1 of a lane hold. -/
def State.FirTaps (s : State) (n : Nat) (m3 m2 m1 p1 p2 : Int) : Prop :=
  m3 = clampInt (-16) 0 (toSigned 8 (s.rd (pgLln n) LLN_TX_FIR0_c_m3)) ∧ m2 = clampInt 0 32 (toSigned 8 (s.rd (pgLln n) LLN_TX_FIR0_c_m2)) ∧
  m1 = clampInt (-64) 0 (toSigned 8 (s.rd (pgLln n) LLN_TX_FIR0_c_m1)) ∧ p1 = clampInt (-48) 0 (toSigned 8 (s.rd (pgLln n) LLN_TX_FIR1_c_p1)) ∧
  p2 = clampInt 0 16 (toSigned 8 (s.rd (pgLln n) LLN_TX_FIR1_c_p2))

/-- The main tap that a set of the others leaves, in 1/128. -/
def mainTap (m3 m2 m1 p1 p2 : Int) : Int := 128 - (m3.natAbs + m2.natAbs + m1.natAbs + p1.natAbs + p2.natAbs)

theorem applyFir_of_mainTap {s : State} {n : Nat} {m3 m2 m1 p1 p2 : Int} (hTaps : s.FirTaps n m3 m2 m1 p1 p2) (h : 64 ≤ mainTap m3 m2 m1 p1 p2) :
    s.applyFir n = (s.wrb (pgLln n) LLN_STATUS_fir_refused false).setLane n (fun l => { l with
      tapM3 := m3, tapM2 := m2, tapM1 := m1, tapP1 := p1, tapP2 := p2, swing := s.rd (pgLln n) LLN_TX_FIR1_swing }) := by
  obtain ⟨rfl, rfl, rfl, rfl, rfl⟩ := hTaps
  exact if_neg (not_lt.2 h)

theorem applyFir_refused {s : State} {n : Nat} {m3 m2 m1 p1 p2 : Int} (hTaps : s.FirTaps n m3 m2 m1 p1 p2) (h : mainTap m3 m2 m1 p1 p2 < 64) :
    s.applyFir n = s.wrb (pgLln n) LLN_STATUS_fir_refused true := by
  obtain ⟨rfl, rfl, rfl, rfl, rfl⟩ := hTaps
  exact if_pos h

/-- The register LLN_TX_FIR1 with a word written to it. -/
def State.putFir1 (s : State) (n v : Nat) : State :=
  ((s.wr (pgLln n) LLN_TX_FIR1_swing (getBits v 27 24)).wr (pgLln n) LLN_TX_FIR1_c_p2 (getBits v 15 8)).wr (pgLln n) LLN_TX_FIR1_c_p1 (getBits v 7 0)

theorem writeFir1_eq (s : State) (n v : Nat) : s.writeFir1 n v = (s.putFir1 n v).applyFir n := rfl

@[simp] theorem lane_putFir1 (s : State) (n v : Nat) : (s.putFir1 n v).lane n = s.lane n := by
  simp [State.putFir1]

theorem putFir1_rd (s : State) (n v : Nat) : (s.putFir1 n v).rd (pgLln n) LLN_TX_FIR1_c_p1 = getBits v 7 0 ∧
    (s.putFir1 n v).rd (pgLln n) LLN_TX_FIR1_c_p2 = getBits v 15 8 ∧ (s.putFir1 n v).rd (pgLln n) LLN_TX_FIR1_swing = getBits v 27 24 := by
  unfold State.putFir1
  refine ⟨?_, ?_, ?_⟩ <;> simp (disch := decide) only [State.rd_wr_place, State.rd_wr_same] <;> exact getBits_mod_width ..

theorem putFir1_rd_place {s : State} {n v : Nat} {f : Field} (hSwing : f.place ≠ LLN_TX_FIR1_swing.place)
    (hP2 : f.place ≠ LLN_TX_FIR1_c_p2.place) (hP1 : f.place ≠ LLN_TX_FIR1_c_p1.place) (pg : Nat) :
    (s.putFir1 n v).rd pg f = s.rd pg f := by
  unfold State.putFir1
  rw [State.rd_wr_place _ hP1, State.rd_wr_place _ hP2, State.rd_wr_place _ hSwing]

/-- After a write of LLN_TX_FIR1 the taps are those of LLN_TX_FIR0 and of the word written. -/
theorem putFir1_taps {s : State} {n v : Nat} {m3 m2 m1 p1 p2 : Int}
    (h3 : m3 = clampInt (-16) 0 (toSigned 8 (s.rd (pgLln n) LLN_TX_FIR0_c_m3)))
    (h2 : m2 = clampInt 0 32 (toSigned 8 (s.rd (pgLln n) LLN_TX_FIR0_c_m2)))
    (h1 : m1 = clampInt (-64) 0 (toSigned 8 (s.rd (pgLln n) LLN_TX_FIR0_c_m1)))
    (hP1 : p1 = clampInt (-48) 0 (toSigned 8 (getBits v 7 0))) (hP2 : p2 = clampInt 0 16 (toSigned 8 (getBits v 15 8))) :
    (s.putFir1 n v).FirTaps n m3 m2 m1 p1 p2 := by
  obtain ⟨hRd1, hRd2, -⟩ := putFir1_rd s n v
  unfold State.FirTaps
  rw [hRd1, hRd2, putFir1_rd_place (f := LLN_TX_FIR0_c_m3) (by decide) (by decide) (by decide),
    putFir1_rd_place (f := LLN_TX_FIR0_c_m2) (by decide) (by decide) (by decide),
    putFir1_rd_place (f := LLN_TX_FIR0_c_m1) (by decide) (by decide) (by decide)]
  exact ⟨h3, h2, h1, hP1, hP2⟩

theorem exec_llnTxFirWrite (n v : Nat) {s : State} (hRun : s.dom = .run) :
    exec (.llnTxFirWrite n v) s = .next (s.after (s.fresh.writeFir1 n v)) := run_eq_next (fun s => s.writeFir1 n v) hRun

/-! ### Receiver settings (R96, R97, R106) -/

/-- Receiver settings put in use are what LLN_RX_EQ shows, cut to the fields. -/
theorem setEq_rd (s : State) (n ctle dfe phase mlse : Nat) :
    (s.setEq n ctle dfe phase mlse).rd (pgLln n) LLN_RX_EQ_ctle = ctle % 2 ^ LLN_RX_EQ_ctle.width ∧
    (s.setEq n ctle dfe phase mlse).rd (pgLln n) LLN_RX_EQ_dfe = dfe % 2 ^ LLN_RX_EQ_dfe.width ∧
    (s.setEq n ctle dfe phase mlse).rd (pgLln n) LLN_RX_EQ_phase = phase % 2 ^ LLN_RX_EQ_phase.width ∧
    (s.setEq n ctle dfe phase mlse).rd (pgLln n) LLN_RX_EQ_mlse = mlse % 2 ^ LLN_RX_EQ_mlse.width := by
  unfold State.setEq
  refine ⟨?_, ?_, ?_, ?_⟩ <;> simp (disch := decide) only [State.rd_wr_place, State.rd_wr_same]

theorem writeRxEq_frozen {s : State} {n v : Nat} (hFreeze : s.rdb (pgLln n) LLN_ADAPT_CFG_freeze = true) (hDfe : getBits v 14 8 ≤ 63) :
    s.writeRxEq n v = s.setEq n (getBits v 3 0) (getBits v 14 8) (getBits v 21 16) (getBits v 24 24) := by
  unfold State.writeRxEq
  rw [if_pos hFreeze]
  dsimp only
  rw [if_pos hDfe]

theorem writeRxEq_adapting {s : State} {n v : Nat} (hFreeze : s.rdb (pgLln n) LLN_ADAPT_CFG_freeze = false) : s.writeRxEq n v = s := by
  unfold State.writeRxEq
  rw [hFreeze]
  rfl

theorem exec_llnRxEqWrite (n v : Nat) {s : State} (hRun : s.dom = .run) :
    exec (.llnRxEqWrite n v) s = .next (s.after (s.fresh.writeRxEq n v)) := run_eq_next (fun s => s.writeRxEq n v) hRun

/-- Adaptation that completes ends by showing and recording that the lane is trained, and nothing of it reaches the region states. -/
theorem adaptDone_of_ready {s : State} {n : Nat} (h : s.adaptReady n = true) : ∃ u : State, (∀ r, u.regionSpeaks r = s.regionSpeaks r) ∧
    s.adaptDone n = (u.wrb (pgLln n) LLN_STATUS_trained true).ev (pgLln n) llnTrained := by
  unfold State.adaptDone
  rw [if_pos h]
  refine ⟨_, fun r => ?_, rfl⟩
  refine Fr.regionSpeaks (M := fm_adaptDone) ?_ (by decide +kernel) r
  have hFree (w : Nat) {t : State} (hFr : Fr fm_adaptDone s t) : Fr fm_adaptDone s (t.free w).2 :=
    State.free_fr t w (by decide +kernel) hFr
  exact State.setEq_fr _ _ _ _ _ _ (by decide +kernel) (State.setLane_fr _ _ _ (by decide +kernel)
    (hFree 372 (State.frontEnd_fr _ _ (by decide +kernel) (hFree 1 (hFree 6 (hFree 6 (hFree 4 (fr_refl _ s))))))))

theorem adaptDone_trained {s : State} {n : Nat} (h : s.adaptReady n = true) : (s.adaptDone n).rdb (pgLln n) LLN_STATUS_trained = true := by
  obtain ⟨u, -, hDone⟩ := adaptDone_of_ready h
  simp [hDone]

theorem regionSpeaks_wrb_place {s : State} {pg : Nat} {f : Field} {b : Bool} (h : mRegions (mFld f) = true) (r : Nat) :
    (s.wrb pg f b).regionSpeaks r = s.regionSpeaks r :=
  (State.wrb_fr s pg f b (MaskLe.refl _) (fr_refl (mFld f) s)).regionSpeaks h r

theorem adaptDone_recorded {s : State} {n : Nat} (hn : n < 256) (h : s.adaptReady n = true) (hSpeaks : s.regionSpeaks (laneRegion n) = true) :
    (s.adaptDone n).hasEvt (pgLln n) llnTrained = true := by
  obtain ⟨u, hRegions, hDone⟩ := adaptDone_of_ready h
  rw [hDone]
  refine hasEvt_ev_in _ _ _ _ (pageRegion_lln n hn) ?_
  rw [regionSpeaks_wrb_place (by decide +kernel), hRegions, hSpeaks]

theorem exec_adaptationDone (n : Nat) {s : State} (hRun : s.dom = .run) :
    exec (.adaptationDone n) s = .next (s.after ((s.fresh.adaptDone n).updCheck (laneRegion n))) :=
  run_eq_next (fun s => (s.adaptDone n).updCheck (laneRegion n)) hRun

/-- Settles O18: a write of LLN_TX_FIR1 finds in the registers the taps of the statement (`putFir1_taps`) and takes or refuses them by the
main tap they leave; LLN_RX_EQ takes its write under freeze alone; adaptation ends with the event (`adaptDone_of_ready`), which the check
of a PENDING UPDATE that follows keeps. -/
theorem laneEqualisers : Obligations.LaneEqualisers := by
  unfold Obligations.LaneEqualisers
  refine ⟨fun s n v m3 m2 m1 p1 p2 hRun h3 h2 h1 hP1 hP2 hMain => ?_, fun s n v m3 m2 m1 p1 p2 hRun h3 h2 h1 hP1 hP2 hMain => ?_,
    fun s n v hRun hFreeze hDfe => ?_, fun s n v hRun hFreeze => ?_, fun s n hRun hn hReady hSpeaks => ?_⟩
  · refine ⟨_, exec_llnTxFirWrite n v hRun, ?_⟩
    have hTaps : (s.fresh.putFir1 n v).FirTaps n m3 m2 m1 p1 p2 := putFir1_taps h3 h2 h1 hP1 hP2
    obtain ⟨-, -, hSwing⟩ := putFir1_rd s.fresh n v
    rw [writeFir1_eq, applyFir_of_mainTap hTaps hMain, hSwing]
    simp
  · refine ⟨_, exec_llnTxFirWrite n v hRun, ?_⟩
    have hTaps : (s.fresh.putFir1 n v).FirTaps n m3 m2 m1 p1 p2 := putFir1_taps h3 h2 h1 hP1 hP2
    rw [writeFir1_eq, applyFir_refused hTaps hMain]
    simp
  · refine ⟨_, exec_llnRxEqWrite n v hRun, ?_⟩
    obtain ⟨hCtle, hDfeRd, hPhase, hMlse⟩ := setEq_rd s.fresh n (getBits v 3 0) (getBits v 14 8) (getBits v 21 16) (getBits v 24 24)
    rw [writeRxEq_frozen (s := s.fresh) hFreeze hDfe]
    exact ⟨hCtle.trans (getBits_mod_width ..), hDfeRd.trans (getBits_mod_width ..), hPhase.trans (getBits_mod_width ..),
      hMlse.trans (getBits_mod_width ..)⟩
  · refine ⟨_, exec_llnRxEqWrite n v hRun, fun _ _ => ?_⟩
    rw [writeRxEq_adapting (s := s.fresh) hFreeze]
    rfl
  · have hCheck := State.updCheck_fr (s.fresh.adaptDone n) (laneRegion n) (MaskLe.refl _) (fr_refl fm_updCheck _)
    refine ⟨_, exec_adaptationDone n hRun, ?_, ?_⟩
    · rw [State.rdb_after, hCheck.rdb _ _ (by decide +kernel)]
      exact adaptDone_trained hReady
    · exact hCheck.kEvt (by decide +kernel) _ _ (adaptDone_recorded hn hReady hSpeaks)

end Sys2Proof.Machine

namespace Sys2Proof.Machine

open Sys2Proof

/-! ### A pass over the lanes of a block -/

/-- What a pass leaves under each item of its list, when a turn settles its own item and leaves the others alone; `I` is what every turn
keeps. -/
theorem each_reads {α β : Type} {I : State → Prop} {read : State → α → β} {val : α → β} {g : State → α → State} {l : List α}
    (hStep : ∀ s, ∀ x ∈ l, I s → I (g s x)) (hSet : ∀ s, ∀ x ∈ l, I s → read (g s x) x = val x)
    (hKeep : ∀ s, ∀ x ∈ l, ∀ y ∈ l, x ≠ y → read (g s y) x = read s x) {s : State} (hI : I s) :
    I (s.each l g) ∧ ∀ x ∈ l, read (s.each l g) x = val x := by
  unfold State.each
  induction l using List.reverseRecOn with
  | nil => exact ⟨hI, fun _ hx => absurd hx List.not_mem_nil⟩
  | append_singleton l y ih =>
    have hIn : ∀ {x}, x ∈ l → x ∈ l ++ [y] := fun h => List.mem_append_left _ h
    have hLast : y ∈ l ++ [y] := by simp
    obtain ⟨hBefore, hReads⟩ := ih (fun s x hx => hStep s x (hIn hx)) (fun s x hx => hSet s x (hIn hx))
      (fun s x hx z hz => hKeep s x (hIn hx) z (hIn hz))
    rw [List.foldl_append]
    refine ⟨hStep _ y hLast hBefore, fun x hx => ?_⟩
    by_cases hEq : x = y
    · rw [hEq]
      exact hSet _ y hLast hBefore
    · have hx' : x ∈ l := by simpa [hEq] using hx
      exact (hKeep _ x hx y hLast hEq).trans (hReads x hx')

theorem pgLln_inj {k n : Nat} (h : pgLln k = pgLln n) : k = n := by
  unfold pgLln blkPg at h
  omega

theorem rdb_waiting_of_other_lane {s : State} {k n : Nat} {b : Bool} (h : k ≠ n) :
    (s.wrb (pgLln n) LLN_ADAPT_STATUS_waiting b).rdb (pgLln k) LLN_ADAPT_STATUS_waiting = s.rdb (pgLln k) LLN_ADAPT_STATUS_waiting := by
  unfold State.rdb State.wrb
  rw [State.rd_wr_page _ _ _ _ _ _ (fun hPg => h (pgLln_inj hPg)) (by decide) (by decide)]

/-- The lanes of a block. -/
def blockLanes (B : Nat) : List Nat := (List.range 4).map (4 * B + ·)

theorem mem_blockLanes {B k : Nat} : k ∈ blockLanes B ↔ k / 4 = B := by
  simp only [blockLanes, List.mem_map, List.mem_range]
  exact ⟨fun ⟨j, hj, hk⟩ => by omega, fun h => ⟨k % 4, by omega, by omega⟩⟩

/-- Each lane of a block shows whether it waits for a trial. -/
def State.showWaiting (s : State) (B : Nat) (waits : Nat → Bool) : State :=
  s.each (blockLanes B) (fun s n => s.wrb (pgLln n) LLN_ADAPT_STATUS_waiting (waits n))

theorem showWaiting_waiting (s : State) {B k : Nat} (waits : Nat → Bool) (h : k / 4 = B) :
    (s.showWaiting B waits).rdb (pgLln k) LLN_ADAPT_STATUS_waiting = waits k := by
  have hPass := each_reads (I := fun _ => True) (read := fun s k => s.rdb (pgLln k) LLN_ADAPT_STATUS_waiting) (val := waits)
    (g := fun s n => s.wrb (pgLln n) LLN_ADAPT_STATUS_waiting (waits n)) (l := blockLanes B) (s := s)
    (fun _ _ _ _ => trivial) (fun _ _ _ _ => State.rdb_wrb_same ..) (fun _ _ _ _ _ hNe => rdb_waiting_of_other_lane hNe) trivial
  exact hPass.2 k (mem_blockLanes.2 h)

theorem showWaiting_rd {s : State} {B : Nat} {waits : Nat → Bool} {f : Field} (h : f.place ≠ LLN_ADAPT_STATUS_waiting.place) (pg : Nat) :
    (s.showWaiting B waits).rd pg f = s.rd pg f :=
  State.rd_each _ _ _ _ _ (fun s _ => s.rd_wrb_place h)

theorem showWaiting_rdb {s : State} {B : Nat} {waits : Nat → Bool} {f : Field} (h : f.place ≠ LLN_ADAPT_STATUS_waiting.place) (pg : Nat) :
    (s.showWaiting B waits).rdb pg f = s.rdb pg f := by
  unfold State.rdb
  rw [showWaiting_rd h]

/-! ### The start of a trial (R100, R101) -/

/-- The lanes of a block that are ready for a trial. -/
def State.readyLanes (s : State) (B elapsed : Nat) : List Nat := (blockLanes B).filter (fun k => s.trialReady k (bit elapsed (k % 4)))

/-- The lanes of a block in the order of their turns, from the lane after the last that had one. -/
def turnsAfter (B last : Nat) : List Nat := (List.range 4).map (fun i => 4 * B + (last + 1 + i) % 4)

theorem readyLanes_contains (s : State) {B elapsed k : Nat} (h : k / 4 = B) :
    (s.readyLanes B elapsed).contains k = s.trialReady k (bit elapsed (k % 4)) := by
  rw [Bool.eq_iff_iff, List.contains_iff_mem, State.readyLanes, List.mem_filter, mem_blockLanes]
  exact and_iff_right h

theorem div_of_mem_turnsAfter {B last k : Nat} (h : k ∈ turnsAfter B last) : k / 4 = B := by
  obtain ⟨i, -, rfl⟩ := List.mem_map.1 h
  omega

theorem showWaiting_blk (s : State) (B : Nat) (waits : Nat → Bool) : (s.showWaiting B waits).blk = s.blk :=
  each_keeps State.blk _ _ _ (fun s k =>
    (State.wrb_fr s (pgLln k) LLN_ADAPT_STATUS_waiting (waits k) (MaskLe.refl _) (fr_refl _ s)).blk (by decide +kernel))

/-- TRIAL_START on a block without a trial: the lanes that are ready wait, and the next of them in rotation begins. -/
theorem trialStart_begins {s : State} {B elapsed n : Nat}
    (hIdle : (blockLanes B).any (fun k => s.rdb (pgLln k) LLN_ADAPT_STATUS_trial_active) = false)
    (hNext : (turnsAfter B (s.blk.get {} B).trialLast).find? (s.readyLanes B elapsed).contains = some n) :
    s.trialStart B elapsed = (s.showWaiting B (s.readyLanes B elapsed).contains).beginTrial n := by
  rw [← showWaiting_blk s B (s.readyLanes B elapsed).contains] at hNext
  unfold State.trialStart
  dsimp only
  split
  next hBusy => exact absurd (hIdle.symm.trans hBusy) Bool.false_ne_true
  · split
    next m hFound =>
      obtain rfl : m = n := Option.some.inj (hFound.symm.trans hNext)
      rfl
    next hNone => exact absurd (hNone.symm.trans hNext) (by simp)

theorem lane_stepEq (s : State) (n kind : Nat) (down : Bool) (m : Nat) : (s.stepEq n kind down).lane m = s.lane m := by
  unfold State.lane
  rw [(State.stepEq_fr s n kind down (MaskLe.refl _) (fr_refl fm_stepEq s)).lanes (by decide +kernel)]

/-- What a trial's start shows of lane n: the trial with the element that it steps, which waits no longer, and one more trial started. -/
def State.showTrial (s : State) (n kind : Nat) : State :=
  (((s.wrb (pgLln n) LLN_ADAPT_STATUS_trial_active true).wr (pgLln n) LLN_ADAPT_STATUS_kind kind).wrb (pgLln n) LLN_ADAPT_STATUS_waiting
    false).count (pgLln n) (LLN_TRIAL_CNT_count 0)

/-- The turn of a lane in its block's rotation. -/
def State.takeTurn (s : State) (n : Nat) : State := { s with blk := s.blk.upd {} (n / 4) (fun b => { b with trialLast := n % 4 }) }

/-- The receiver settings that a lane remembers are those that LLN_RX_EQ shows in `s`. -/
def Lane.remembers (l : Lane) (s : State) (n : Nat) : Prop :=
  l.savedCtle = s.rd (pgLln n) LLN_RX_EQ_ctle ∧ l.savedDfe = s.rd (pgLln n) LLN_RX_EQ_dfe ∧ l.savedPhase = s.rd (pgLln n) LLN_RX_EQ_phase ∧
  l.savedMlse = s.rd (pgLln n) LLN_RX_EQ_mlse

/-- A trial's start remembers the settings in use and steps one of them, then shows the trial. -/
theorem beginTrial_eq (s : State) (n : Nat) : ∃ u kind, Fr (fm_setLane ||| fm_stepEq) s u ∧ (u.lane n).remembers s n ∧
    s.beginTrial n = (u.showTrial n kind).takeTurn n := by
  refine ⟨_, _, State.stepEq_fr _ n _ _ (by decide +kernel) (State.setLane_fr s n _ (by decide +kernel) (fr_refl _ s)), ?_, rfl⟩
  rw [lane_stepEq, State.lane_setLane]
  exact ⟨rfl, rfl, rfl, rfl⟩

theorem showTrial_active (s : State) (n kind : Nat) : (s.showTrial n kind).rdb (pgLln n) LLN_ADAPT_STATUS_trial_active = true := by
  unfold State.showTrial
  simp (disch := decide) only [State.rdb_count_place, State.rdb_wrb_place, State.rdb_wr_place, State.rdb_wrb_same]

theorem showTrial_waiting (s : State) (n kind : Nat) : (s.showTrial n kind).rdb (pgLln n) LLN_ADAPT_STATUS_waiting = false := by
  unfold State.showTrial
  simp (disch := decide) only [State.rdb_count_place, State.rdb_wrb_same]

theorem showTrial_waiting_other {s : State} {k n kind : Nat} (h : k ≠ n) :
    (s.showTrial n kind).rdb (pgLln k) LLN_ADAPT_STATUS_waiting = s.rdb (pgLln k) LLN_ADAPT_STATUS_waiting := by
  unfold State.showTrial
  simp (disch := decide) only [State.rdb_count_place, rdb_waiting_of_other_lane h, State.rdb_wrb_place, State.rdb_wr_place]

theorem showTrial_started (s : State) (n kind : Nat) : (s.showTrial n kind).rd (pgLln n) (LLN_TRIAL_CNT_count 0) =
    (s.rd (pgLln n) (LLN_TRIAL_CNT_count 0) + 1) % 2 ^ 32 := by
  unfold State.showTrial
  simp (disch := decide) only [State.rd_count_same, State.rd_wrb_place, State.rd_wr_place]
  rfl

@[simp] theorem showTrial_lane (s : State) (n kind m : Nat) : (s.showTrial n kind).lane m = s.lane m := by
  simp [State.showTrial]

@[simp] theorem takeTurn_rd (s : State) (n pg : Nat) (f : Field) : (s.takeTurn n).rd pg f = s.rd pg f := rfl
@[simp] theorem takeTurn_rdb (s : State) (n pg : Nat) (f : Field) : (s.takeTurn n).rdb pg f = s.rdb pg f := rfl
@[simp] theorem takeTurn_lane (s : State) (n m : Nat) : (s.takeTurn n).lane m = s.lane m := rfl

theorem takeTurn_last (s : State) (n : Nat) : ((s.takeTurn n).blk.get {} (n / 4)).trialLast = n % 4 := by
  unfold State.takeTurn
  rw [SMap.get_upd_same]

theorem beginTrial_shows (s : State) (n : Nat) : (s.beginTrial n).rdb (pgLln n) LLN_ADAPT_STATUS_trial_active = true ∧
    (s.beginTrial n).rd (pgLln n) (LLN_TRIAL_CNT_count 0) = (s.rd (pgLln n) (LLN_TRIAL_CNT_count 0) + 1) % 2 ^ 32 ∧
    ((s.beginTrial n).lane n).remembers s n ∧ ((s.beginTrial n).blk.get {} (n / 4)).trialLast = n % 4 := by
  obtain ⟨u, kind, hFr, hSaved, hEq⟩ := beginTrial_eq s n
  rw [hEq]
  refine ⟨showTrial_active u n kind, ?_, ?_, takeTurn_last _ n⟩
  · rw [takeTurn_rd, showTrial_started, hFr.rd _ _ (by decide +kernel)]
  · rw [takeTurn_lane, showTrial_lane]
    exact hSaved

/-- Of the lanes of the block, only the one that begins stops waiting. -/
theorem beginTrial_waiting (s : State) (k n : Nat) : (s.beginTrial n).rdb (pgLln k) LLN_ADAPT_STATUS_waiting =
    (decide (k ≠ n) && s.rdb (pgLln k) LLN_ADAPT_STATUS_waiting) := by
  obtain ⟨u, kind, hFr, -, hEq⟩ := beginTrial_eq s n
  rw [hEq, takeTurn_rdb]
  by_cases h : k = n
  · simp [h, showTrial_waiting]
  · simp [h, showTrial_waiting_other h, hFr.rdb _ LLN_ADAPT_STATUS_waiting (by decide +kernel)]

theorem exec_trialStart (B elapsed : Nat) {s : State} (hRun : s.dom = .run) :
    exec (.trialStart B elapsed) s = .next (s.after (s.fresh.trialStart B elapsed)) := run_eq_next (fun s => s.trialStart B elapsed) hRun

/-- TRIAL_START as a step, by the rotation of the lanes that are ready. -/
theorem exec_trialStart_begins {s : State} {B elapsed n : Nat} (hRun : s.dom = .run)
    (hIdle : (List.range 4).all (fun j => !s.rdb (pgLln (4 * B + j)) LLN_ADAPT_STATUS_trial_active) = true)
    (hNext : (turnsAfter B (s.blk.get {} B).trialLast).find? (fun k => s.trialReady k (bit elapsed (k % 4))) = some n) :
    exec (.trialStart B elapsed) s = .next (s.after ((s.fresh.showWaiting B (s.readyLanes B elapsed).contains).beginTrial n)) := by
  rw [exec_trialStart B elapsed hRun, trialStart_begins (s := s.fresh) (n := n)]
  · rfl
  · simpa [blockLanes] using hIdle
  · rw [← hNext]
    exact List.find?_congr (fun k hk => readyLanes_contains s (div_of_mem_turnsAfter hk))

/-! ### The end of a dwell (R101, R102, R105) -/

/-- The end of a trial on lane n as shown: no trial, one more that ended so. -/
def State.showEnd (s : State) (n how : Nat) : State :=
  (s.wrb (pgLln n) LLN_ADAPT_STATUS_trial_active false).count (pgLln n) (LLN_TRIAL_CNT_count how)

theorem endTrial_kept {s : State} {n : Nat} (h : s.rdb (pgLln n) LLN_ADAPT_STATUS_trial_active = true) :
    s.endTrial n trialKept = (s.showEnd n trialKept).showWaiting (n / 4) (fun _ => false) := by
  unfold State.endTrial
  rw [if_pos h]
  rfl

theorem endTrial_restored {s : State} {n how : Nat} (h : s.rdb (pgLln n) LLN_ADAPT_STATUS_trial_active = true) (hHow : how ≠ trialKept) :
    s.endTrial n how = ((s.showEnd n how).setEq n (s.lane n).savedCtle (s.lane n).savedDfe (s.lane n).savedPhase
      (s.lane n).savedMlse).showWaiting (n / 4) (fun _ => false) := by
  unfold State.endTrial
  rw [if_pos h]
  dsimp only
  rw [if_neg hHow]
  rfl

theorem trialDwellEnd_kept {s : State} {n : Nat} (hDwell : (s.lane n).dwellCw = 64) (hGood : 16 * (s.lane n).dwellSyms ≤ (s.lane n).baseline) :
    s.trialDwellEnd n = s.endTrial n trialKept := by
  unfold State.trialDwellEnd Lane.trialGood
  simp [hDwell, hGood]

theorem trialDwellEnd_undone {s : State} {n : Nat} (hDwell : (s.lane n).dwellCw = 64)
    (hBad : (s.lane n).baseline < 16 * (s.lane n).dwellSyms) : s.trialDwellEnd n = s.endTrial n trialRate := by
  unfold State.trialDwellEnd Lane.trialGood
  simp [hDwell, Nat.not_le.2 hBad]

theorem endTrial_kept_shows {s : State} {n : Nat} (h : s.rdb (pgLln n) LLN_ADAPT_STATUS_trial_active = true) :
    (s.endTrial n trialKept).rdb (pgLln n) LLN_ADAPT_STATUS_trial_active = false ∧
    (s.endTrial n trialKept).rd (pgLln n) (LLN_TRIAL_CNT_count trialKept) = (s.rd (pgLln n) (LLN_TRIAL_CNT_count trialKept) + 1) % 2 ^ 32 ∧
    (s.endTrial n trialKept).rd (pgLln n) LLN_RX_EQ_ctle = s.rd (pgLln n) LLN_RX_EQ_ctle ∧
    (s.endTrial n trialKept).rd (pgLln n) LLN_RX_EQ_dfe = s.rd (pgLln n) LLN_RX_EQ_dfe ∧
    (s.endTrial n trialKept).rd (pgLln n) LLN_RX_EQ_phase = s.rd (pgLln n) LLN_RX_EQ_phase ∧
    (s.endTrial n trialKept).rd (pgLln n) LLN_RX_EQ_mlse = s.rd (pgLln n) LLN_RX_EQ_mlse := by
  rw [endTrial_kept h]
  unfold State.showEnd
  simp (disch := decide) only [showWaiting_rdb, showWaiting_rd, State.rdb_count_place, State.rd_count_place, State.rd_count_same,
    State.rdb_wrb_same, State.rd_wrb_place, true_and, and_true]
  rfl

theorem setEq_rd_other {s : State} {n ctle dfe phase mlse : Nat} {f : Field} (h : fm_setEq.testBit (512 + f.place) = false) (pg : Nat) :
    (s.setEq n ctle dfe phase mlse).rd pg f = s.rd pg f :=
  (State.setEq_fr s n ctle dfe phase mlse (MaskLe.refl _) (fr_refl fm_setEq s)).rd pg f h

theorem endTrial_rate_shows {s : State} {n : Nat} (h : s.rdb (pgLln n) LLN_ADAPT_STATUS_trial_active = true) :
    (s.endTrial n trialRate).rdb (pgLln n) LLN_ADAPT_STATUS_trial_active = false ∧
    (s.endTrial n trialRate).rd (pgLln n) (LLN_TRIAL_CNT_count trialRate) = (s.rd (pgLln n) (LLN_TRIAL_CNT_count trialRate) + 1) % 2 ^ 32 ∧
    (s.endTrial n trialRate).rd (pgLln n) LLN_RX_EQ_ctle = (s.lane n).savedCtle % 2 ^ LLN_RX_EQ_ctle.width ∧
    (s.endTrial n trialRate).rd (pgLln n) LLN_RX_EQ_dfe = (s.lane n).savedDfe % 2 ^ LLN_RX_EQ_dfe.width ∧
    (s.endTrial n trialRate).rd (pgLln n) LLN_RX_EQ_phase = (s.lane n).savedPhase % 2 ^ LLN_RX_EQ_phase.width ∧
    (s.endTrial n trialRate).rd (pgLln n) LLN_RX_EQ_mlse = (s.lane n).savedMlse % 2 ^ LLN_RX_EQ_mlse.width := by
  obtain ⟨hCtle, hDfe, hPhase, hMlse⟩ := setEq_rd (s.showEnd n trialRate) n (s.lane n).savedCtle (s.lane n).savedDfe (s.lane n).savedPhase
    (s.lane n).savedMlse
  have hActive : (s.showEnd n trialRate).rdb (pgLln n) LLN_ADAPT_STATUS_trial_active = false := by
    unfold State.showEnd
    simp (disch := decide) only [State.rdb_count_place, State.rdb_wrb_same]
  have hCount : (s.showEnd n trialRate).rd (pgLln n) (LLN_TRIAL_CNT_count trialRate) =
      (s.rd (pgLln n) (LLN_TRIAL_CNT_count trialRate) + 1) % 2 ^ 32 := by
    unfold State.showEnd
    simp (disch := decide) only [State.rd_count_same, State.rd_wrb_place]
    rfl
  rw [endTrial_restored h (by decide)]
  simp (disch := decide) only [showWaiting_rdb, showWaiting_rd]
  refine ⟨?_, ?_, hCtle, hDfe, hPhase, hMlse⟩
  · unfold State.rdb at hActive ⊢
    rw [setEq_rd_other (by decide +kernel), hActive]
  · rw [setEq_rd_other (by decide +kernel), hCount]

theorem exec_trialDwellEnd (n : Nat) {s : State} (hRun : s.dom = .run) :
    exec (.trialDwellEnd n) s = .next (s.after (s.fresh.trialDwellEnd n)) := run_eq_next (fun s => s.trialDwellEnd n) hRun

/-- Settles O19: on a block without a trial the lanes that are ready are shown waiting and the next in rotation begins
(`exec_trialStart_begins`); at the end of a dwell the lane's settings stay or those that it remembers return (`endTrial_kept`,
`endTrial_restored`). -/
theorem laneTrials : Obligations.LaneTrials := by
  unfold Obligations.LaneTrials
  refine ⟨fun s B elapsed n hRun _ hIdle hNext => ?_, fun s n hRun _ hActive hDwell hGood => ?_, fun s n hRun _ hActive hDwell hBad => ?_⟩
  · refine ⟨_, exec_trialStart_begins hRun hIdle hNext, ?_⟩
    have hBlock : n / 4 = B := div_of_mem_turnsAfter (List.mem_of_find?_eq_some hNext)
    obtain ⟨hActive, hCount, ⟨hCtle, hDfe, hPhase, hMlse⟩, hLast⟩ :=
      beginTrial_shows (s.fresh.showWaiting B (s.readyLanes B elapsed).contains) n
    simp (disch := decide) only [showWaiting_rd] at hCount hCtle hDfe hPhase hMlse
    rw [hBlock] at hLast
    refine ⟨hActive, hCount, hCtle, hDfe, hPhase, hMlse, hLast, fun k hk => ?_⟩
    rw [State.rdb_after, beginTrial_waiting, showWaiting_waiting _ _ hk, readyLanes_contains s hk]
  · refine ⟨_, exec_trialDwellEnd n hRun, ?_⟩
    rw [trialDwellEnd_kept (s := s.fresh) hDwell hGood]
    exact endTrial_kept_shows (s := s.fresh) hActive
  · refine ⟨_, exec_trialDwellEnd n hRun, ?_⟩
    rw [trialDwellEnd_undone (s := s.fresh) hDwell hBad]
    exact endTrial_rate_shows (s := s.fresh) hActive

end Sys2Proof.Machine

namespace Sys2Proof.Machine

open Sys2Proof

/-! ### The snapshot of the FEC counters (R109) -/

theorem fecCounters_inPage : ∀ f ∈ fecCounters, f.off * 8 + f.lo < 8192 := by decide +kernel

theorem fecCounters_apart : ∀ f ∈ fecCounters, ∀ g ∈ fecCounters, f ≠ g → f.place ≠ g.place := by decide +kernel

theorem fecCounters_beside_seq : ∀ f ∈ fecCounters, FEC_SNAP_SEQ_seq.place ≠ f.place := by decide +kernel

theorem fecLive_ne_pgFec (n : Nat) : fecLive n ≠ pgFec n := by
  unfold fecLive
  omega

/-- The live counters are what they were, and so is the sequence number. -/
def State.SnapSource (s u : State) (n : Nat) : Prop :=
  (∀ f ∈ fecCounters, u.rd (fecLive n) f = s.rd (fecLive n) f) ∧ u.rd (pgFec n) FEC_SNAP_SEQ_seq = s.rd (pgFec n) FEC_SNAP_SEQ_seq

/-- FEC_SNAP copies every live counter and counts once. -/
theorem fecSnap_shows (s : State) (n : Nat) : (∀ f ∈ fecCounters, (s.fecSnap n).rd (pgFec n) f = s.rd (fecLive n) f % 2 ^ f.width) ∧
    (s.fecSnap n).rd (pgFec n) FEC_SNAP_SEQ_seq = (s.rd (pgFec n) FEC_SNAP_SEQ_seq + 1) % 2 ^ 32 := by
  obtain ⟨⟨-, hSeq⟩, hCopied⟩ := each_reads (I := fun u => s.SnapSource u n) (read := fun u f => u.rd (pgFec n) f)
    (val := fun f => s.rd (fecLive n) f % 2 ^ f.width) (g := fun u f => u.wr (pgFec n) f (u.rd (fecLive n) f)) (l := fecCounters) (s := s)
    (fun u f hf ⟨hLive, hSeq⟩ => ⟨fun g hg => (State.rd_wr_page _ _ _ _ _ _ (fecLive_ne_pgFec n) (fecCounters_inPage f hf)
        (fecCounters_inPage g hg)).trans (hLive g hg), (State.rd_wr_place _ (fecCounters_beside_seq f hf)).trans hSeq⟩)
    (fun u f hf ⟨hLive, _⟩ => by rw [State.rd_wr_same, hLive f hf])
    (fun u f hf g hg hNe => State.rd_wr_place _ (fecCounters_apart f hf g hg hNe)) ⟨fun _ _ => rfl, rfl⟩
  unfold State.fecSnap
  refine ⟨fun f hf => ?_, ?_⟩
  · rw [State.rd_count_place _ (fecCounters_beside_seq f hf).symm]
    exact hCopied f hf
  · rw [State.rd_count_same, hSeq]
    rfl

/-! ### A codeword's count (R107, R108) -/

theorem hist_place (k : Nat) : (FEC_HIST k).place = 2048 + 64 * (k % 16) := by
  unfold Field.place FEC_HIST
  dsimp only
  omega

/-- The count of a codeword with k corrected symbols, 16 for one that could not be corrected. -/
def State.countWord (s : State) (n k : Nat) : State :=
  let s := s.count (fecLive n) FEC_CW
  if k = 16 then (s.count (fecLive n) FEC_UNCORR_CW).ev (pgFec n) 1
  else ((s.count (fecLive n) (FEC_HIST k)).count (fecLive n) FEC_CORR_SYM k).count (fecLive n) FEC_CORR_CW (if k = 0 then 0 else 1)

theorem countWord_cw (s : State) (n k : Nat) : (s.countWord n k).rd (fecLive n) FEC_CW = (s.rd (fecLive n) FEC_CW + 1) % 2 ^ FEC_CW.width := by
  have hHist : FEC_CW.place ≠ (FEC_HIST k).place := by
    rw [hist_place, show FEC_CW.place = 640 from rfl]
    omega
  unfold State.countWord
  dsimp only
  split
  · simp (disch := decide) only [State.rd_ev, State.rd_count_place, State.rd_count_same]
  · simp (disch := decide) only [State.rd_count_place, State.rd_count_place _ hHist, State.rd_count_same]

theorem countWord_uncorr (s : State) (n k : Nat) : (s.countWord n k).rd (fecLive n) FEC_UNCORR_CW =
    if k = 16 then (s.rd (fecLive n) FEC_UNCORR_CW + 1) % 2 ^ FEC_UNCORR_CW.width else s.rd (fecLive n) FEC_UNCORR_CW := by
  have hHist : FEC_UNCORR_CW.place ≠ (FEC_HIST k).place := by
    rw [hist_place, show FEC_UNCORR_CW.place = 832 from rfl]
    omega
  unfold State.countWord
  dsimp only
  split
  · simp (disch := decide) only [State.rd_ev, State.rd_count_place, State.rd_count_same]
  · simp (disch := decide) only [State.rd_count_place, State.rd_count_place _ hHist]

/-- A bin lies apart from a counter below 0x100. -/
theorem rd_count_hist {s : State} {pg pg' j i : Nat} {f : Field} (h : f.place < 2048) :
    (s.count pg f i).rd pg' (FEC_HIST j) = s.rd pg' (FEC_HIST j) :=
  State.rd_count_place _ (by rw [hist_place]; omega)

theorem countWord_hist {s : State} {n k j : Nat} (hk : k ≤ 16) (hj : j < 16) : (s.countWord n k).rd (fecLive n) (FEC_HIST j) =
    if j = k then (s.rd (fecLive n) (FEC_HIST j) + 1) % 2 ^ (FEC_HIST j).width else s.rd (fecLive n) (FEC_HIST j) := by
  unfold State.countWord
  dsimp only
  split
  next hUncorr => simp (disch := decide) only [State.rd_ev, rd_count_hist, if_neg (show j ≠ k by omega)]
  next hCorr =>
    simp (disch := decide) only [rd_count_hist]
    split
    next hSame => rw [← hSame, State.rd_count_same, rd_count_hist (by decide)]
    next hOther =>
      rw [State.rd_count_place _ (by rw [hist_place, hist_place]; omega), rd_count_hist (by decide)]

/-! ### What follows the count leaves the counters alone (R99 to R104, R110, R111) -/

def fm_ceiling : Nat := mFld (LLN_TRIAL_CNT_count trialCeiling) ||| mFld LLN_ADAPT_STATUS_trial_active ||| mFld LLN_ADAPT_STATUS_waiting |||
  fm_setEq

/-- A trial that ends at the ceiling counts in its own counter alone. -/
theorem endTrial_ceiling_fr {M : Nat} {s0 s : State} (n : Nat) (hM : MaskLe fm_ceiling M) (hs : Fr M s0 s) : Fr M s0 (s.endTrial n trialCeiling) := by
  cases hActive : s.rdb (pgLln n) LLN_ADAPT_STATUS_trial_active with
  | false =>
    unfold State.endTrial
    rw [if_neg (by simp [hActive])]
    exact hs
  | true =>
    rw [endTrial_restored hActive (by decide)]
    have hShown : Fr M s0 (s.showEnd n trialCeiling) :=
      State.count_fr _ _ _ _ (MaskLe.trans (by decide +kernel) hM) (State.wrb_fr _ _ _ _ (MaskLe.trans (by decide +kernel) hM) hs)
    exact fr_each (State.setEq_fr _ _ _ _ _ _ (MaskLe.trans (by decide +kernel) hM) hShown)
      (fun _ _ h => State.wrb_fr _ _ _ _ (MaskLe.trans (by decide +kernel) hM) h)

def fm_wordCounted : Nat := mFld FEC_TRIAL_UNCORR ||| mFld FEC_TRIAL_SYM ||| mFld FEC_BURSTS ||| fm_ceiling ||| fm_ev ||| fm_setLane |||
  fm_showMargin ||| fm_laneSuspect

/-- After its count a codeword moves the trial's counters, the margin and the burst trigger. -/
theorem codeword_fr_counted (s : State) (n k : Nat) : Fr fm_wordCounted (s.countWord n k) (s.codeword n k) := by
  unfold State.codeword
  extract_lets pg fp lp sCw sCounted sRecent trial dwell sTried sDwell sJudged sMargin
  have hRecent : Fr fm_wordCounted (s.countWord n k) sRecent := State.setLane_fr _ _ _ (by decide +kernel) (fr_refl _ _)
  have hTried : Fr fm_wordCounted (s.countWord n k) sTried :=
    fr_ite (State.ev_fr _ _ _ (by decide +kernel) (State.count_fr _ _ _ _ (by decide +kernel) hRecent))
      (State.count_fr _ _ _ _ (by decide +kernel) hRecent)
  have hDwell : Fr fm_wordCounted (s.countWord n k) sDwell := State.setLane_fr _ _ _ (by decide +kernel) hTried
  have hCeiling : Fr fm_wordCounted (s.countWord n k) ((sDwell.endTrial n trialCeiling).ev pg llnTrialCeiling) :=
    State.ev_fr _ _ _ (by decide +kernel) (endTrial_ceiling_fr n (by decide +kernel) hDwell)
  have hJudged : Fr fm_wordCounted (s.countWord n k) sJudged := fr_ite (fr_ite (fr_ite hCeiling hDwell) hTried) hRecent
  have hMargin : Fr fm_wordCounted (s.countWord n k) sMargin := State.showMargin_fr _ _ (by decide +kernel) hJudged
  have hBurst := State.setLane_fr _ n (fun l => { l with burstHold := 65 }) (by decide +kernel)
    (State.ev_fr _ fp 0 (by decide +kernel) (State.count_fr _ lp FEC_BURSTS 1 (by decide +kernel) hMargin))
  exact fr_ite (State.laneSuspect_fr _ _ (by decide +kernel) hBurst) hMargin

/-- The places of the counters that a codeword's count moves, and that nothing else of CODEWORD_DECODE does. -/
def wordCounter (f : Field) : Bool :=
  !(fm_wordCounted ||| fm_passWord ||| fm_pcsReceive ||| fm_linePtp).testBit (512 + f.place)

/-- CODEWORD_DECODE of a lane that decodes moves a codeword's counters by its count alone. -/
theorem codewordDecode_rd_counted {s : State} {n : Nat} {x : CwRx} (m : Option LinePtp) (hDecodes : s.laneDecodes n = true)
    (hLen : (s.cwWord n x).length = 544) {f : Field} (hf : wordCounter f = true) (pg : Nat) :
    (s.codewordDecode n x m).rd pg f = ((s.passWord n x).countWord n (rsDecode (s.cwWord n x)).2).rd pg f ∧
    (s.passWord n x).rd pg f = s.rd pg f := by
  simp only [wordCounter, Nat.testBit_or, Bool.not_eq_true', Bool.or_eq_false_iff] at hf
  obtain ⟨⟨⟨hCounted, hPassed⟩, hPcs⟩, hPtp⟩ := hf
  refine ⟨?_, (State.passWord_fr s n x (MaskLe.refl _) (fr_refl _ s)).rd pg f hPassed⟩
  rw [← (codeword_fr_counted (s.passWord n x) n _).rd pg f hCounted]
  have hReceived : ∀ word bad, (((s.passWord n x).codeword n (rsDecode (s.cwWord n x)).2).pcsReceive n word bad).rd pg f =
      ((s.passWord n x).codeword n (rsDecode (s.cwWord n x)).2).rd pg f :=
    fun word bad => (State.pcsReceive_fr _ n word bad (MaskLe.refl _) (fr_refl _ _)).rd pg f hPcs
  unfold State.codewordDecode
  rw [if_pos ⟨hDecodes, hLen⟩]
  dsimp only
  split
  next l p _ => rw [(State.linePtp_fr _ l p (MaskLe.refl _) (fr_refl _ _)).rd pg f hPtp, hReceived]
  next => exact hReceived _ _

theorem rsDecode_le (w : List Nat) : (rsDecode w).2 ≤ 16 := by
  unfold rsDecode
  extract_lets syn x roots eval
  clear_value x roots eval
  split
  · exact Nat.zero_le _
  · split
    · exact le_refl _
    next hFound =>
      obtain ⟨hErrs, -⟩ := not_or.1 hFound
      exact Nat.le_succ_of_le (not_lt.1 hErrs)

/-- What a codeword of a lane that decodes adds, in any state: one codeword, and one in its bin or among the uncorrectable. -/
theorem codewordDecode_counts {s : State} {n : Nat} {x : CwRx} (m : Option LinePtp) (hDecodes : s.laneDecodes n = true)
    (hLen : (s.cwWord n x).length = 544) {k : Nat} (hk : (rsDecode (s.cwWord n x)).2 = k) :
    (s.codewordDecode n x m).rd (fecLive n) FEC_CW = (s.rd (fecLive n) FEC_CW + 1) % 2 ^ FEC_CW.width ∧
    (∀ j, j < 16 → (s.codewordDecode n x m).rd (fecLive n) (FEC_HIST j) =
      if j = k then (s.rd (fecLive n) (FEC_HIST j) + 1) % 2 ^ (FEC_HIST j).width else s.rd (fecLive n) (FEC_HIST j)) ∧
    (s.codewordDecode n x m).rd (fecLive n) FEC_UNCORR_CW =
      if k = 16 then (s.rd (fecLive n) FEC_UNCORR_CW + 1) % 2 ^ FEC_UNCORR_CW.width else s.rd (fecLive n) FEC_UNCORR_CW := by
  subst hk
  have hHist : ∀ j < 16, wordCounter (FEC_HIST j) = true := by decide +kernel
  obtain ⟨hCw, hCwBefore⟩ := codewordDecode_rd_counted m hDecodes hLen (f := FEC_CW) (by decide +kernel) (fecLive n)
  obtain ⟨hUncorr, hUncorrBefore⟩ := codewordDecode_rd_counted m hDecodes hLen (f := FEC_UNCORR_CW) (by decide +kernel) (fecLive n)
  refine ⟨?_, fun j hj => ?_, ?_⟩
  · rw [hCw, countWord_cw, hCwBefore]
  · obtain ⟨hBin, hBinBefore⟩ := codewordDecode_rd_counted m hDecodes hLen (hHist j hj) (fecLive n)
    rw [hBin, countWord_hist (rsDecode_le _) hj, hBinBefore]
  · rw [hUncorr, countWord_uncorr, hUncorrBefore]

theorem exec_codewordDecode (n : Nat) (x : CwRx) (m : Option LinePtp) {s : State} (hRun : s.dom = .run) :
    exec (.codewordDecode n x m) s = .next (s.after (s.fresh.codewordDecode n x m)) := run_eq_next (fun s => s.codewordDecode n x m) hRun

theorem exec_fecSnap (n : Nat) {s : State} (hRun : s.dom = .run) :
    exec (.fecSnap n) s = .next (s.after (s.fresh.fecSnap n)) := run_eq_next (fun s => s.fecSnap n) hRun

/-- CODEWORD_DECODE as a step: what it adds to the live counters, in any state. -/
theorem exec_codewordDecode_counts {s : State} {n : Nat} {x : CwRx} (m : Option LinePtp) (hRun : s.dom = .run)
    (hDecodes : s.laneDecodes n = true) (hLen : (s.cwWord n x).length = 544) {k : Nat} (hk : (rsDecode (s.cwWord n x)).2 = k) :
    ∃ t, exec (.codewordDecode n x m) s = .next t ∧ t.rd (fecLive n) FEC_CW = (s.rd (fecLive n) FEC_CW + 1) % 2 ^ FEC_CW.width ∧
      (∀ j, j < 16 → t.rd (fecLive n) (FEC_HIST j) =
        if j = k then (s.rd (fecLive n) (FEC_HIST j) + 1) % 2 ^ (FEC_HIST j).width else s.rd (fecLive n) (FEC_HIST j)) ∧
      t.rd (fecLive n) FEC_UNCORR_CW =
        if k = 16 then (s.rd (fecLive n) FEC_UNCORR_CW + 1) % 2 ^ FEC_UNCORR_CW.width else s.rd (fecLive n) FEC_UNCORR_CW :=
  ⟨_, exec_codewordDecode n x m hRun, codewordDecode_counts (s := s.fresh) m hDecodes hLen hk⟩

theorem hist_mem_fecCounters {j : Nat} (hj : j < 16) : FEC_HIST j ∈ fecCounters :=
  List.mem_append_right _ (List.mem_map_of_mem (List.mem_range.2 hj))

/-- A counter that fits its width, counted where a condition holds. -/
theorem ite_count_of_fit {v w : Nat} {c : Prop} [Decidable c] (h : v < 2 ^ w) :
    (if c then (v + 1) % 2 ^ w else v) = (v + if c then 1 else 0) % 2 ^ w := by
  split
  · rfl
  · exact (Nat.mod_eq_of_lt h).symm

/-- Of the states in which the lane's live counters fit their widths, as every write leaves them (`State.wr`), O21's first clause holds. -/
theorem exec_codewordDecode_counts_of_fit {s : State} {n : Nat} {x : CwRx} (m : Option LinePtp) (hRun : s.dom = .run)
    (hFit : ∀ f ∈ fecCounters, s.rd (fecLive n) f < 2 ^ f.width) (hDecodes : s.laneDecodes n = true) (hLen : (s.cwWord n x).length = 544)
    {k : Nat} (hk : (rsDecode (s.cwWord n x)).2 = k) : ∃ t, exec (.codewordDecode n x m) s = .next t ∧
      t.rd (fecLive n) FEC_CW = (s.rd (fecLive n) FEC_CW + 1) % 2 ^ FEC_CW.width ∧
      (∀ j, j < 16 → t.rd (fecLive n) (FEC_HIST j) = (s.rd (fecLive n) (FEC_HIST j) + (if j = k then 1 else 0)) % 2 ^ (FEC_HIST j).width) ∧
      t.rd (fecLive n) FEC_UNCORR_CW = (s.rd (fecLive n) FEC_UNCORR_CW + (if k = 16 then 1 else 0)) % 2 ^ FEC_UNCORR_CW.width := by
  obtain ⟨t, hExec, hCw, hHist, hUncorr⟩ := exec_codewordDecode_counts m hRun hDecodes hLen hk
  exact ⟨t, hExec, hCw, fun j hj => (hHist j hj).trans (ite_count_of_fit (hFit _ (hist_mem_fecCounters hj))),
    hUncorr.trans (ite_count_of_fit (hFit _ (by simp [fecCounters])))⟩

/-- O21's second clause holds as stated. -/
theorem exec_fecSnap_shows {s : State} (n : Nat) (hRun : s.dom = .run) : ∃ t, exec (.fecSnap n) s = .next t ∧
    fecCounters.all (fun f => decide (t.rd (pgFec n) f = s.rd (fecLive n) f % 2 ^ f.width)) = true ∧
    t.rd (pgFec n) FEC_SNAP_SEQ_seq = (s.rd (pgFec n) FEC_SNAP_SEQ_seq + 1) % 2 ^ 32 := by
  obtain ⟨hCopied, hSeq⟩ := fecSnap_shows s.fresh n
  refine ⟨_, exec_fecSnap n hRun, List.all_eq_true.2 (fun f hf => decide_eq_true ?_), ?_⟩
  · rw [State.rd_after, hCopied f hf, State.rd_fresh]
  · rw [State.rd_after, hSeq, State.rd_fresh]

/-! ### The word of zeros, and a counter beyond its width -/

theorem gfMul_zero (b : Nat) : gfMul 0 b = 0 := by
  unfold gfMul
  generalize (List.range 10).reverse = l
  induction l with
  | nil => rfl
  | cons i l ih => simpa using ih

theorem gfEval_zeros (m x : Nat) : gfEval (List.replicate m 0) x = 0 := by
  unfold gfEval
  induction m with
  | zero => rfl
  | succ m ih => simpa [List.replicate_succ, gfMul_zero] using ih

theorem rsDecode_zeros (m : Nat) : (rsDecode (List.replicate m 0)).2 = 0 := by
  have hClean : (rsSyndromes (List.replicate m 0)).all (· = 0) = true := by
    simp [rsSyndromes, gfEval_zeros]
  unfold rsDecode
  dsimp only
  rw [if_pos hClean]

/-- The chip in NATIVE, region 0 ACTIVE, lane 3 running, trained and with codeword lock, and in the place of its live FEC_UNCORR_CW, of 64
bits, the number 2^64. -/
def overfullState : State :=
  let s := (State.reset.wr pgMode MODE_current modeNative).wr pgMode (MODE_REGIONS_state 0) rgnActive
  let s := ((s.wrb (pgLln 3) PAGE_CTRL_run true).wrb (pgLln 3) LLN_STATUS_trained true).wrb (pgLln 3) LLN_STATUS_cw_lock true
  { s with regs := s.regs.set 0 (fkey (fecLive 3) FEC_UNCORR_CW) (2 ^ 64) }

/-- The levels of a codeword of zeros. -/
def zeroLevels : CwRx := { inst := 0, levels := List.replicate 2720 0 }

theorem overfullState_cwWord : overfullState.cwWord 3 zeroLevels = List.replicate 544 0 := by decide +kernel

/-- Refutes O21: the first clause says of every state that a counter which a codeword does not move is cut to its width. In
`overfullState` the live FEC_UNCORR_CW holds 2^64, more than its 64 bits, and a codeword without an error leaves it so, where the clause
wants 0. Where the counters fit their widths the clause holds (`exec_codewordDecode_counts_of_fit`), and FEC_SNAP does what the second
clause says in every state (`exec_fecSnap_shows`). -/
theorem not_laneCodewords : ¬ Obligations.LaneCodewords := by
  unfold Obligations.LaneCodewords
  rintro ⟨hDecode, -⟩
  have hDecodes : overfullState.laneDecodes 3 = true := by decide +kernel
  have hLen : (overfullState.cwWord 3 zeroLevels).length = 544 := by rw [overfullState_cwWord, List.length_replicate]
  have hClean : (rsDecode (overfullState.cwWord 3 zeroLevels)).2 = 0 := by rw [overfullState_cwWord, rsDecode_zeros]
  have hRun : overfullState.dom = .run := by decide +kernel
  have hBefore : overfullState.rd (fecLive 3) FEC_UNCORR_CW = 2 ^ 64 := by decide +kernel
  obtain ⟨t, hExec, -, -, hClaimed⟩ := hDecode overfullState 3 zeroLevels none 0 hRun hDecodes hLen hClean
  obtain ⟨t', hExec', -, -, hKept⟩ := exec_codewordDecode_counts none hRun hDecodes hLen hClean
  obtain rfl : t = t' := Host.Outcome.next.inj (hExec.symm.trans hExec')
  rw [hKept, hBefore] at hClaimed
  exact absurd hClaimed (by decide)

end Sys2Proof.Machine

namespace Sys2Proof.Machine

open Sys2Proof

set_option exponentiation.threshold 16384

/-! ### Registers beside the episode tracker (file 05, R190 to R193) -/

/-- A field that the episode trackers do not write: its page is no EPI page, and the prompt book's fields stand elsewhere. -/
def BesideEpi (pg : Nat) (f : Field) : Prop :=
  (∀ r, pg ≠ pgEpi r) ∧ f.off * 8 + f.lo < 8192 ∧ fm_logRec.testBit (512 + f.place) = false

theorem BesideEpi.page {pg : Nat} {f : Field} (h : BesideEpi pg f) (r : Nat) : pg ≠ pgEpi r := h.1 r
theorem BesideEpi.inPage {pg : Nat} {f : Field} (h : BesideEpi pg f) : f.off * 8 + f.lo < 8192 := h.2.1
theorem BesideEpi.log {pg : Nat} {f : Field} (h : BesideEpi pg f) : fm_logRec.testBit (512 + f.place) = false := h.2.2

theorem pgOtu_ne_pgEpi (d r : Nat) : pgOtu d ≠ pgEpi r := by
  unfold pgOtu pgEpi rgnPg blkPg
  omega

theorem pgMode_ne_pgEpi (r : Nat) : pgMode ≠ pgEpi r := by
  unfold pgMode pgEpi rgnPg
  omega

theorem besideEpi_inFrame (d : Nat) : BesideEpi (pgOtu d) OTU_STATUS_in_frame :=
  ⟨pgOtu_ne_pgEpi d, by decide, by decide⟩

theorem MODE_REGIONS_state_mod (r : Nat) : MODE_REGIONS_state r = MODE_REGIONS_state (r % 8) := by
  simp only [ MODE_REGIONS_state, Nat.mod_mod]

theorem besideEpi_region (r : Nat) : BesideEpi pgMode (MODE_REGIONS_state r) := by
  have hAll : ∀ k < 8, (MODE_REGIONS_state k).off * 8 + (MODE_REGIONS_state k).lo < 8192 ∧
      fm_logRec.testBit (512 + (MODE_REGIONS_state k).place) = false := by decide
  rw [ MODE_REGIONS_state_mod]
  obtain ⟨hIn, hLog⟩ := hAll (r % 8) (Nat.mod_lt _ (by decide))
  exact ⟨pgMode_ne_pgEpi, hIn, hLog⟩

theorem rd_epi (s : State) (m : SMap Epi) (pg : Nat) (f : Field) : State.rd { s with epi := m } pg f = s.rd pg f := rfl

theorem State.rd_setSlice (s : State) (d : Nat) (u : Slice → Slice) (pg : Nat) (f : Field) : (s.setSlice d u).rd pg f = s.rd pg f := rfl
theorem State.rd_setPoint (s : State) (m : Nat) (u : Point → Point) (pg : Nat) (f : Field) : (s.setPoint m u).rd pg f = s.rd pg f := rfl
theorem State.rd_setCtx (s : State) (B d e : Nat) (u : Ctx → Ctx) (pg : Nat) (f : Field) : (s.setCtx B d e u).rd pg f = s.rd pg f := rfl

theorem State.rd_evWhen (s : State) (c : Bool) (pg' k pg : Nat) (f : Field) : (s.evWhen c pg' k).rd pg f = s.rd pg f := by
  unfold State.evWhen
  rw [apply_ite (fun t : State => t.rd pg f), State.rd_ev, ite_self]

theorem State.rd_pointSeen (s : State) (m flags pg : Nat) (f : Field) : (s.pointSeen m flags).rd pg f = s.rd pg f := rfl

theorem State.rd_tputb (s : State) (pg' : Nat) (t : Tab) (e : Nat) (g : TField) (b : Bool) (pg : Nat) (f : Field) :
    (s.tputb pg' t e g b).rd pg f = s.rd pg f := State.rd_tput ..

theorem State.rd_setRepl (s : State) (B d e : Nat) (on : Bool) (pg : Nat) (f : Field) : (s.setRepl B d e on).rd pg f = s.rd pg f := by
  unfold State.setRepl State.tcount
  dsimp only
  (repeat' split) <;> simp only [State.rd_tput, State.rd_ev, State.rd_tputb]

theorem State.rd_refreshCliIn (s : State) (B e pg : Nat) (f : Field) : (s.refreshCliIn B e).rd pg f = s.rd pg f := by
  unfold State.refreshCliIn
  dsimp only
  (repeat' split) <;> simp only [State.rd_setRepl]

theorem State.rd_stampUnlock (s : State) (B e pg : Nat) (f : Field) : (s.stampUnlock B e).rd pg f = s.rd pg f := by
  unfold State.stampUnlock
  dsimp only
  split <;> simp only [State.rd_ev, State.rd_tputb, State.rd_setCtx]

theorem rd_alarmMoved (s : State) (p : Nat) (point : Bool) (src k pg : Nat) (f : Field) :
    (s.alarmMoved p point src k).rd pg f = s.rd pg f := by
  unfold State.alarmMoved
  rw [apply_ite (fun t : State => t.rd pg f), State.rd_ev, ite_self]

theorem rd_epiLooseOn (s : State) (r : Nat) (c : EpiChange) (pg : Nat) (f : Field) : (s.epiLooseOn r c).rd pg f = s.rd pg f := by
  unfold State.epiLooseOn State.tcount
  rw [rd_epi, State.rd_tput, State.rd_tput]

theorem rd_epiLooseOff (s : State) (r : Nat) (c : EpiChange) (pg : Nat) (f : Field) : (s.epiLooseOff r c).rd pg f = s.rd pg f := by
  unfold State.epiLooseOff State.tcount
  rw [rd_epi, State.rd_tput, State.rd_tput]

section
variable {pg : Nat} {f : Field} (h : BesideEpi pg f)
include h

theorem BesideEpi.wr {r v : Nat} {g : Field} (s : State) (hg : g.off * 8 + g.lo < 8192) : (s.wr (pgEpi r) g v).rd pg f = s.rd pg f :=
  State.rd_wr_page _ _ _ _ _ _ (h.page r) hg h.inPage

theorem BesideEpi.logRec (s : State) (typ cls src payload : Nat) : (s.logRec typ cls src payload).rd pg f = s.rd pg f :=
  (State.logRec_fr s typ cls src payload (MaskLe.refl _) (fr_refl fm_logRec s)).rd pg f h.log

theorem BesideEpi.epiAggOn (s : State) (r : Nat) : (s.epiAggOn r).rd pg f = s.rd pg f := by
  unfold State.epiAggOn State.count State.wrb
  simp (disch := decide) only [h.logRec, State.rd_ev, h.wr]

theorem BesideEpi.epiOpen (s : State) (r : Nat) (c : EpiChange) (t : Stamp) (late : Bool) :
    (s.epiOpen r c t late).rd pg f = s.rd pg f := by
  unfold State.epiOpen
  simp (disch := decide) only [h.wr, State.rd_setEntry]

theorem BesideEpi.epiClose (s : State) (r e : Nat) (t : Stamp) (deconf : Bool) : (s.epiClose r e t deconf).rd pg f = s.rd pg f := by
  unfold State.epiClose
  simp (disch := decide) only [h.wr, State.rd_setEntry, h.logRec]

theorem BesideEpi.epiApply (s : State) (r : Nat) (c : EpiChange) : (s.epiApply r c).rd pg f = s.rd pg f := by
  unfold State.epiApply State.epiShow
  simp (disch := decide) only [h.wr]
  (repeat' split) <;>
    simp only [rd_alarmMoved, rd_epiLooseOn, rd_epiLooseOff, h.epiAggOn, h.epiOpen, h.epiClose, State.rd_ev]

theorem BesideEpi.epiPush (s : State) (r : Nat) (point : Bool) (src kind : Nat) (on deconf : Bool) :
    (s.epiPush r point src kind on deconf).rd pg f = s.rd pg f := by
  unfold State.epiPush
  dsimp only
  split
  · split
    · rw [rd_epi]
    · rw [h.epiApply, rd_epi]
      split
      · rfl
      · exact h.epiAggOn s r
  · rfl

/-! ### What follows a defect: points, contexts, blocks -/

theorem BesideEpi.pointDef (s : State) (B dir m e b : Nat) (on deconf : Bool) :
    (s.pointDef B dir m e b on deconf).rd pg f = s.rd pg f := by
  unfold State.pointDef
  dsimp only
  split
  · rfl
  · rw [h.epiPush, State.rd_evWhen]
    split <;> simp only [State.rd_pointSeen, State.rd_ev, State.rd_tputb]

theorem BesideEpi.refreshPoint (s : State) (B dir m e : Nat) (ssf plm : Bool) :
    (s.refreshPoint B dir m e ssf plm).rd pg f = s.rd pg f := by
  unfold State.refreshPoint
  extract_lets pg' s1 quiet s2 tsf tsd changed s3
  have hQuiet : quiet.rd pg f = s1.rd pg f := by simp only [quiet, h.pointDef]
  have hSilent : s2.rd pg f = s1.rd pg f := by
    unfold s2
    split
    · exact (State.rd_setPoint ..).trans hQuiet
    · rfl
  calc ((s3.pointSeen m _).evWhen changed pg' 2).rd pg f
    _ = s3.rd pg f := by rw [State.rd_evWhen, State.rd_pointSeen]
    _ = s2.rd pg f := (State.rd_tputb ..).trans (State.rd_tputb ..)
    _ = s.rd pg f := hSilent.trans (State.rd_tputb ..)

theorem BesideEpi.refreshCtx (s : State) (B e : Nat) : (s.refreshCtx B e).rd pg f = s.rd pg f := by
  unfold State.refreshCtx
  extract_lets ssf fill s1 s2 s3 pts s4 s5 sf sfOld s6 leg legOld s7 s8 s9 s10 seen
  have hUnlock : s10.rd pg f = s9.rd pg f := by
    unfold s10
    split
    · exact State.rd_stampUnlock ..
    · rfl
  calc (s10.each _ _).rd pg f
    _ = s10.rd pg f := State.rd_each _ _ _ _ _ (fun s m => State.rd_pointSeen s m _ pg f)
    _ = s8.rd pg f := hUnlock.trans (State.rd_refreshCliIn ..)
    _ = s6.rd pg f := (State.rd_setCtx ..).trans ((State.rd_evWhen ..).trans (State.rd_tput ..))
    _ = s5.rd pg f := (State.rd_evWhen ..).trans (State.rd_tputb ..)
    _ = s4.rd pg f := State.rd_each _ _ _ _ _ (fun s t => (State.rd_pointSeen ..).trans (State.rd_tputb ..))
    _ = s3.rd pg f := State.rd_each _ _ _ _ _ (fun s p => h.refreshPoint ..)
    _ = s.rd pg f := (State.rd_tputb ..).trans ((State.rd_tputb ..).trans (State.rd_setCtx ..))

theorem BesideEpi.refreshCtxs (s : State) (B : Nat) : (s.refreshCtxs B).rd pg f = s.rd pg f :=
  State.rd_each _ _ _ _ _ (fun s e => h.refreshCtx s B e)
end

end Sys2Proof.Machine

namespace Sys2Proof.Machine

open Sys2Proof

set_option exponentiation.threshold 16384

section
variable {pg : Nat} {f : Field} (h : BesideEpi pg f)
include h

theorem BesideEpi.raiseSuspect (s : State) (d : Nat) : (s.raiseSuspect d).rd pg f = s.rd pg f := by
  unfold State.raiseSuspect
  rw [h.refreshCtxs]
  exact State.rd_each _ _ _ _ _ (fun s e => State.rd_setCtx s _ _ e _ pg f)

theorem BesideEpi.refreshBlock (s : State) (B : Nat) (hOtuc : fm_refreshOtuc.testBit (512 + f.place) = false) :
    (s.refreshBlock B).rd pg f = s.rd pg f := by
  unfold State.refreshBlock
  rw [h.refreshCtxs]
  exact State.rd_each _ _ _ _ _ (fun s l => (State.refreshOtuc_fr s l (MaskLe.refl _) (fr_refl fm_refreshOtuc s)).rd pg f hOtuc)

/-- A slice's defect writes one bit of its page. -/
theorem BesideEpi.sliceDef {g : Field} (s : State) (d ev kind : Nat) (on deconf : Bool) (hPlace : f.place ≠ g.place) :
    (s.sliceDef d g ev kind on deconf).rd pg f = s.rd pg f := by
  unfold State.sliceDef
  split
  · rfl
  · rw [h.epiPush, State.rd_ev]
    exact State.rd_wrb_place s hPlace

end

/-! ### Slices, points and rows in effect -/

theorem State.slice_setSlice (s : State) (k d : Nat) (u : Slice → Slice) :
    (s.setSlice k u).slice d = if d = k then u (s.slice k) else s.slice d := by
  unfold State.slice State.setSlice
  split
  next h => rw [h, SMap.get_upd_same]
  next h => exact SMap.get_upd_ne _ _ _ _ h

theorem State.slice_setSlice_same (s : State) (d : Nat) (u : Slice → Slice) : (s.setSlice d u).slice d = u (s.slice d) := by
  rw [State.slice_setSlice, if_pos rfl]

theorem State.slice_setPoint (s : State) (m : Nat) (u : Point → Point) (d : Nat) : (s.setPoint m u).slice d = s.slice d := rfl
theorem State.point_setSlice (s : State) (d : Nat) (u : Slice → Slice) (m : Nat) : (s.setSlice d u).point m = s.point m := rfl

theorem State.point_setPoint_same (s : State) (m : Nat) (u : Point → Point) : (s.setPoint m u).point m = u (s.point m) :=
  SMap.get_upd_same ..

theorem Fr.slice {M : Nat} {s t : State} (h : Fr M s t) (hM : M.testBit 35 = false) (d : Nat) : t.slice d = s.slice d := by
  unfold State.slice
  rw [h.slices hM]

theorem Fr.point {M : Nat} {s t : State} (h : Fr M s t) (hM : M.testBit 36 = false) (m : Nat) : t.point m = s.point m := by
  unfold State.point
  rw [h.points hM]

/-- The rows of OTU_IF in effect stand in the store of adopted rows. -/
theorem Fr.ifF {M : Nat} {s t : State} (h : Fr M s t) (hM : M.testBit 31 = false) (d : Nat) (f : TField) : t.ifF d f = s.ifF d f := by
  show getBits (SMap.get _ t.live _) _ _ = getBits (SMap.get _ s.live _) _ _
  rw [h.live hM]

/-- What a slice holds beside the state of its bond and its GCC0 bytes. -/
def Slice.framing (x : Slice) : Slice := { x with aligned := false, misaligned := false, alRun := 0, misEnd := 0, gcc := [] }

/-- What a change leaves of every slice, it leaves of each slice of the state. -/
theorem setSlice_keeps {α : Type} (p : Slice → α) {u : Slice → Slice} (s : State) (k d : Nat) (hu : ∀ x, p (u x) = p x) :
    p ((s.setSlice k u).slice d) = p (s.slice d) := by
  rw [State.slice_setSlice]
  split
  next h => rw [hu, h]
  next => rfl

theorem setSlice_framing {u : Slice → Slice} (s : State) (k d : Nat) (hu : ∀ x, (u x).framing = x.framing) :
    ((s.setSlice k u).slice d).framing = (s.slice d).framing := setSlice_keeps Slice.framing s k d hu

theorem judgeBond_framing (s : State) (lead d : Nat) : ((s.judgeBond lead).slice d).framing = (s.slice d).framing := by
  unfold State.judgeBond
  refine (setSlice_framing _ _ _ (by intro _; rfl)).trans ?_
  exact each_keeps (fun t => (t.slice d).framing) _ _ _ (fun s k => setSlice_framing s k d (fun _ => rfl))

theorem gccIn_framing (s : State) (d k : Nat) (bytes : List Nat) : ((s.gccIn d bytes).slice k).framing = (s.slice k).framing := by
  have hCapture (s : State) (d : Nat) (bytes : List Nat) : (s.gccCapture d bytes).slice k = s.slice k :=
    (State.gccCapture_fr s d bytes (MaskLe.refl _) (fr_refl fm_gccCapture s)).slice (by decide) k
  have hBreak (s : State) (d : Nat) : (s.gccBreak d).slice k = s.slice k :=
    (State.gccBreak_fr s d (MaskLe.refl _) (fr_refl fm_gccBreak s)).slice (by decide) k
  unfold State.gccIn
  dsimp only
  split
  · split
    · split
      · rw [hCapture]
        exact (setSlice_framing _ _ _ (by intro _; rfl)).trans (setSlice_framing _ _ _ (by intro _; rfl))
      · exact setSlice_framing _ _ _ (by intro _; rfl)
    · rw [hBreak]
      exact setSlice_framing _ _ _ (by intro _; rfl)
  · split
    · rw [hCapture]
    · rw [hBreak]

end Sys2Proof.Machine

namespace Sys2Proof.Machine

open Sys2Proof

set_option exponentiation.threshold 16384

/-! ### Reads and events of a slice's page -/

theorem State.rd_judgeBond (s : State) (lead pg : Nat) (f : Field) : (s.judgeBond lead).rd pg f = s.rd pg f :=
  (State.rd_setSlice ..).trans (State.rd_each _ _ _ _ _ (fun s d => State.rd_setSlice s d _ pg f))

theorem State.rdb_judgeBond (s : State) (lead pg : Nat) (f : Field) : (s.judgeBond lead).rdb pg f = s.rdb pg f := by
  unfold State.rdb
  rw [State.rd_judgeBond]

theorem State.rdb_setSlice (s : State) (d : Nat) (u : Slice → Slice) (pg : Nat) (f : Field) :
    (s.setSlice d u).rdb pg f = s.rdb pg f := rfl

theorem State.rdb_setPoint (s : State) (m : Nat) (u : Point → Point) (pg : Nat) (f : Field) :
    (s.setPoint m u).rdb pg f = s.rdb pg f := rfl

theorem regionSpeaks_of_rd {s t : State} (h : ∀ r, t.rd pgMode (MODE_REGIONS_state r) = s.rd pgMode (MODE_REGIONS_state r)) (r : Nat) :
    t.regionSpeaks r = s.regionSpeaks r := by
  unfold State.regionSpeaks State.region
  rw [h]

theorem regionSpeaks_wr_place {s : State} {pg v : Nat} {f : Field} (h : mRegions (mFld f) = true) (r : Nat) :
    (s.wr pg f v).regionSpeaks r = s.regionSpeaks r :=
  (State.wr_fr s pg f v (MaskLe.refl _) (fr_refl (mFld f) s)).regionSpeaks h r

theorem regionSpeaks_count_place {s : State} {pg k : Nat} {f : Field} (h : mRegions (mFld f) = true) (r : Nat) :
    (s.count pg f k).regionSpeaks r = s.regionSpeaks r := regionSpeaks_wr_place h r

theorem regionSpeaks_setSlice (s : State) (d : Nat) (u : Slice → Slice) (r : Nat) :
    (s.setSlice d u).regionSpeaks r = s.regionSpeaks r := rfl

theorem regionSpeaks_setPoint (s : State) (m : Nat) (u : Point → Point) (r : Nat) :
    (s.setPoint m u).regionSpeaks r = s.regionSpeaks r := rfl

theorem regionSpeaks_judgeBond (s : State) (lead r : Nat) : (s.judgeBond lead).regionSpeaks r = s.regionSpeaks r :=
  regionSpeaks_of_rd (fun _ => State.rd_judgeBond ..) r

theorem regionSpeaks_raiseSuspect (s : State) (d r : Nat) : (s.raiseSuspect d).regionSpeaks r = s.regionSpeaks r :=
  regionSpeaks_of_rd (fun k => (besideEpi_region k).raiseSuspect s d) r

/-- A region whose datapath works records events. -/
theorem regionSpeaks_of_datapath {s : State} {r : Nat} (h : s.datapath r = true) : s.regionSpeaks r = true := by
  obtain ⟨-, -, -, hReset, hIsolated⟩ := of_decide_eq_true h
  exact decide_eq_true ⟨hReset, hIsolated⟩

/-- An event of a slice whose region records stands on its page. -/
theorem hasEvt_ev_otu {s : State} {d : Nat} (k : Nat) (hd : d < 1024) (h : s.regionSpeaks (sliceRegion d) = true) :
    (s.ev (pgOtu d) k).hasEvt (pgOtu d) k = true := hasEvt_ev_in _ _ _ _ (pageRegion_otu d hd) h

/-- The bond of the OTUCn that a slice belongs to is judged. -/
def State.judgeBondOf (s : State) (d : Nat) : State := if s.sliceMember d then s.judgeBond (s.sliceLead d) else s

theorem State.rd_judgeBondOf (s : State) (d pg : Nat) (f : Field) : (s.judgeBondOf d).rd pg f = s.rd pg f := by
  delta State.judgeBondOf
  rw [apply_ite (fun t : State => t.rd pg f), State.rd_judgeBond, ite_self]

theorem State.rdb_judgeBondOf (s : State) (d pg : Nat) (f : Field) : (s.judgeBondOf d).rdb pg f = s.rdb pg f := by
  unfold State.rdb
  rw [State.rd_judgeBondOf]

theorem regionSpeaks_judgeBondOf (s : State) (d r : Nat) : (s.judgeBondOf d).regionSpeaks r = s.regionSpeaks r :=
  regionSpeaks_of_rd (fun _ => State.rd_judgeBondOf ..) r

theorem judgeBondOf_framing (s : State) (d k : Nat) : ((s.judgeBondOf d).slice k).framing = (s.slice k).framing := by
  delta State.judgeBondOf
  split
  · exact judgeBond_framing _ _ _
  · rfl

theorem judgeBondOf_fr {M : Nat} {s0 s : State} (d : Nat) (hM : MaskLe fm_judgeBond M) (hs : Fr M s0 s) : Fr M s0 (s.judgeBondOf d) := by
  delta State.judgeBondOf
  exact fr_ite (State.judgeBond_fr _ _ hM hs) hs

/-! ### Entry to SEARCH and to SYNC (Table OTU-4) -/

/-- A slice out of frame: what an entry to SEARCH does before it is counted and recorded. -/
def State.leaveFrame (s : State) (d : Nat) : State :=
  let pg := pgOtu d
  let oom := s.rdb pg OTU_STATUS_in_frame && !s.rdb pg OTU_STATUS_im
  let s := (s.setSlice d (fun x => { x with
    c := 0, e := 0, mfC := 0, mfF := 0, mfFirst := true, ifRun := 0, imRun := 0, oomEnd := if oom then s.dpCycle + 1 else x.oomEnd }))
  let s := s.setPoint (secPoint d) (fun p => { p with neutral := true })
  ((((s.wr pg OTU_STATUS_fstate fSearch).wrb pg OTU_STATUS_in_frame false).wrb pg OTU_STATUS_im false).wrb pg OTU_STATUS_bonded
    false).judgeBondOf d

theorem enterSearch_eq (s : State) (d : Nat) : s.enterSearch d =
    if s.rd (pgOtu d) OTU_STATUS_fstate = fSearch then s.leaveFrame d
    else ((s.leaveFrame d).count (pgOtu d) OTU_OOF_CNT).ev (pgOtu d) otuOof := rfl

theorem leaveFrame_shows (s : State) (d : Nat) : (s.leaveFrame d).rd (pgOtu d) OTU_STATUS_fstate = fSearch ∧
    (s.leaveFrame d).rdb (pgOtu d) OTU_STATUS_in_frame = false ∧ (s.leaveFrame d).rdb (pgOtu d) OTU_STATUS_im = false ∧
    (s.leaveFrame d).rdb (pgOtu d) OTU_STATUS_bonded = false := by
  delta State.leaveFrame
  simp (disch := decide) only [State.rd_judgeBondOf, State.rdb_judgeBondOf, State.rd_wrb_place, State.rdb_wrb_place, State.rd_wr_same,
    State.rdb_wrb_same, and_self, and_true]
  rfl

/-- An entry to SEARCH writes the four fields of the frame state alone. -/
theorem leaveFrame_rd_place {s : State} {d pg : Nat} {f : Field}
    (h : ∀ g ∈ [OTU_STATUS_fstate, OTU_STATUS_in_frame, OTU_STATUS_im, OTU_STATUS_bonded], f.place ≠ g.place) :
    (s.leaveFrame d).rd pg f = s.rd pg f := by
  simp only [List.forall_mem_cons] at h
  obtain ⟨hState, hIn, hIm, hBonded, -⟩ := h
  delta State.leaveFrame
  simp only [State.rd_judgeBondOf, State.rd_wrb_place _ hBonded, State.rd_wrb_place _ hIm, State.rd_wrb_place _ hIn,
    State.rd_wr_place _ hState, State.rd_setPoint, State.rd_setSlice]

theorem leaveFrame_regionSpeaks (s : State) (d r : Nat) : (s.leaveFrame d).regionSpeaks r = s.regionSpeaks r := by
  delta State.leaveFrame
  simp (disch := decide) only [regionSpeaks_judgeBondOf, regionSpeaks_wrb_place, regionSpeaks_wr_place, regionSpeaks_setPoint,
    regionSpeaks_setSlice]

/-- What an entry to SEARCH shows of its slice, wherever it comes from. -/
theorem enterSearch_shows (s : State) (d : Nat) : (s.enterSearch d).rd (pgOtu d) OTU_STATUS_fstate = fSearch ∧
    (s.enterSearch d).rdb (pgOtu d) OTU_STATUS_in_frame = false ∧ (s.enterSearch d).rdb (pgOtu d) OTU_STATUS_im = false ∧
    (s.enterSearch d).rdb (pgOtu d) OTU_STATUS_bonded = false := by
  rw [enterSearch_eq]
  split
  · exact leaveFrame_shows s d
  · simp (disch := decide) only [State.rd_ev, State.rdb_ev, State.rd_count_place, State.rdb_count_place]
    exact leaveFrame_shows s d

/-- An entry to SEARCH from another state is counted and recorded (R132). -/
theorem enterSearch_oof {s : State} {d : Nat} (hd : d < 1024) (hFrom : s.rd (pgOtu d) OTU_STATUS_fstate ≠ fSearch)
    (hSpeaks : s.regionSpeaks (sliceRegion d) = true) :
    (s.enterSearch d).rd (pgOtu d) OTU_OOF_CNT = (s.rd (pgOtu d) OTU_OOF_CNT + 1) % 2 ^ 32 ∧
    (s.enterSearch d).hasEvt (pgOtu d) otuOof = true := by
  rw [enterSearch_eq, if_neg hFrom]
  constructor
  · rw [State.rd_ev, State.rd_count_same, leaveFrame_rd_place (by decide)]
    rfl
  · refine hasEvt_ev_otu _ hd ?_
    rw [regionSpeaks_count_place (by decide), leaveFrame_regionSpeaks, hSpeaks]

theorem enterSync_shows (s : State) (d : Nat) : (s.enterSync d).rd (pgOtu d) OTU_STATUS_fstate = fSync ∧
    (s.enterSync d).rdb (pgOtu d) OTU_STATUS_in_frame = true := by
  unfold State.enterSync
  simp (disch := decide) only [State.rd_ev, State.rdb_ev, State.rd_wrb_place, State.rdb_wrb_place, State.rd_wr_same, State.rdb_wrb_same,
    and_true]
  rfl

theorem enterSync_recorded {s : State} {d : Nat} (hd : d < 1024) (hSpeaks : s.regionSpeaks (sliceRegion d) = true) :
    (s.enterSync d).hasEvt (pgOtu d) otuInFrame = true := by
  unfold State.enterSync
  refine hasEvt_ev_otu _ hd ?_
  simp (disch := decide) only [regionSpeaks_wrb_place, regionSpeaks_wr_place, regionSpeaks_setSlice, hSpeaks]

/-! ### One FAS: the rows of Table OTU-4 (R132, R133) -/

section
variable {s : State} {d : Nat}

theorem judgeFas_search_presync (hState : s.rd (pgOtu d) OTU_STATUS_fstate = fSearch) (hHeld : s.sliceHeld d = false)
    (hBlocked : s.sliceBlocked d = false) (hMany : 2 ≤ s.ifF d OTU_IF.n_fas) :
    s.judgeFas d true = (s.setSlice d (fun x => { x with c := 1 })).wr (pgOtu d) OTU_STATUS_fstate fPresync := by
  unfold State.judgeFas
  simp [hState, hHeld, hBlocked, Nat.not_le.2 hMany]

theorem judgeFas_search_sync (hState : s.rd (pgOtu d) OTU_STATUS_fstate = fSearch) (hHeld : s.sliceHeld d = false)
    (hBlocked : s.sliceBlocked d = false) (hFew : s.ifF d OTU_IF.n_fas ≤ 1) :
    s.judgeFas d true = (s.setSlice d (fun x => { x with c := 1 })).enterSync d := by
  unfold State.judgeFas
  simp [hState, hHeld, hBlocked, hFew]

theorem judgeFas_search_wrong (hState : s.rd (pgOtu d) OTU_STATUS_fstate = fSearch) : s.judgeFas d false = s := by
  unfold State.judgeFas
  simp [hState]

theorem judgeFas_presync_sync (hState : s.rd (pgOtu d) OTU_STATUS_fstate = fPresync) (hEnough : s.ifF d OTU_IF.n_fas ≤ (s.slice d).c + 1) :
    s.judgeFas d true = (s.setSlice d (fun x => { x with c := x.c + 1 })).enterSync d := by
  unfold State.judgeFas
  simp [hState, hEnough, fPresync, fSearch, State.slice_setSlice_same]

theorem judgeFas_presync_wrong (hState : s.rd (pgOtu d) OTU_STATUS_fstate = fPresync) :
    s.judgeFas d false = (s.setSlice d (fun x => { x with c := 0 })).enterSearch d := by
  unfold State.judgeFas
  simp [hState, fPresync, fSearch]

theorem judgeFas_sync_right (hState : s.rd (pgOtu d) OTU_STATUS_fstate = fSync) :
    s.judgeFas d true = s.setSlice d (fun x => { x with e := 0 }) := by
  unfold State.judgeFas
  simp [hState, fSync, fPresync, fSearch]

/-- A wrong FAS in SYNC is counted, and the first of a run raises SUSPECT (R133). -/
def State.missFas (s : State) (d : Nat) : State :=
  let e := (s.slice d).e + 1
  let s := (s.setSlice d (fun x => { x with e := e })).count (pgOtu d) OTU_FAS_ERR
  if e = 1 then s.raiseSuspect d else s

theorem missFas_regionSpeaks (s : State) (d r : Nat) : (s.missFas d).regionSpeaks r = s.regionSpeaks r := by
  have hCounted (u : Slice → Slice) : ((s.setSlice d u).count (pgOtu d) OTU_FAS_ERR).regionSpeaks r = s.regionSpeaks r :=
    regionSpeaks_count_place (by decide) r
  delta State.missFas
  dsimp only
  split
  · rw [regionSpeaks_raiseSuspect, hCounted]
  · rw [hCounted]

/-- A wrong FAS in SYNC moves one register of its slice. -/
theorem missFas_rd {pg : Nat} {f : Field} (hPlace : f.place ≠ OTU_FAS_ERR.place) (hFree : fm_raiseSuspect.testBit (512 + f.place) = false) :
    (s.missFas d).rd pg f = s.rd pg f := by
  delta State.missFas
  dsimp only
  rw [apply_ite (fun t : State => t.rd pg f), (State.raiseSuspect_fr _ d (MaskLe.refl _) (fr_refl _ _)).rd pg f hFree, ite_self,
    State.rd_count_place _ hPlace, State.rd_setSlice]

theorem missFas_counts (s : State) (d : Nat) : (s.missFas d).rd (pgOtu d) OTU_FAS_ERR = (s.rd (pgOtu d) OTU_FAS_ERR + 1) % 2 ^ 32 := by
  delta State.missFas
  dsimp only
  rw [apply_ite (fun t : State => t.rd (pgOtu d) OTU_FAS_ERR),
    (State.raiseSuspect_fr _ d (MaskLe.refl _) (fr_refl _ _)).rd _ OTU_FAS_ERR (by decide), ite_self, State.rd_count_same,
    State.rd_setSlice]
  rfl

theorem judgeFas_sync_lost (hState : s.rd (pgOtu d) OTU_STATUS_fstate = fSync) (hEnough : s.ifF d OTU_IF.m_fas ≤ (s.slice d).e + 1) :
    s.judgeFas d false = (s.missFas d).enterSearch d := by
  have hRow : (s.missFas d).ifF d OTU_IF.m_fas = s.ifF d OTU_IF.m_fas := by
    delta State.missFas
    dsimp only
    split
    · exact (State.raiseSuspect_fr _ d (MaskLe.refl _) (fr_refl _ _)).ifF (by decide) d _
    · rfl
  have hUnfold : s.judgeFas d false =
      if (s.missFas d).ifF d OTU_IF.m_fas ≤ (s.slice d).e + 1 then (s.missFas d).enterSearch d else s.missFas d := by
    unfold State.judgeFas
    delta State.missFas
    simp [hState, fSync, fPresync, fSearch]
  rw [hUnfold, hRow, if_pos hEnough]

end

end Sys2Proof.Machine

namespace Sys2Proof.Machine

open Sys2Proof

set_option exponentiation.threshold 16384

/-! ### One frame of a slice in SYNC against the multiframe (R136) -/

section
variable {s : State} {d mfas : Nat}

theorem judgeMfas_expected (hIm : s.rdb (pgOtu d) OTU_STATUS_im = true) (hMfas : mfas = (s.slice d).mfExp) :
    s.judgeMfas d mfas = s.setSlice d (fun x => { x with mfF := 0, mfExp := (x.mfExp + 1) % 256 }) := by
  unfold State.judgeMfas
  simp only [hIm, if_true, if_pos hMfas]

/-- The m_mf-th unexpected MFAS in a row: the multiframe is lost, with it the place in the bond. -/
theorem judgeMfas_lost (hd : d < 1024) (hIm : s.rdb (pgOtu d) OTU_STATUS_im = true) (hMfas : mfas ≠ (s.slice d).mfExp)
    (hEnough : s.ifF d OTU_IF.m_mf ≤ (s.slice d).mfF + 1) (hSpeaks : s.regionSpeaks (sliceRegion d) = true) :
    (s.judgeMfas d mfas).rdb (pgOtu d) OTU_STATUS_im = false ∧ (s.judgeMfas d mfas).rdb (pgOtu d) OTU_STATUS_bonded = false ∧
    (s.judgeMfas d mfas).rd (pgOtu d) OTU_MFAS_ERR = (s.rd (pgOtu d) OTU_MFAS_ERR + 1) % 2 ^ 32 ∧
    (s.judgeMfas d mfas).hasEvt (pgOtu d) otuMf = true := by
  have hRow (u : Slice → Slice) : ((s.setSlice d u).count (pgOtu d) OTU_MFAS_ERR).ifF d OTU_IF.m_mf = s.ifF d OTU_IF.m_mf :=
    (State.count_fr _ _ _ _ (MaskLe.refl (mFld OTU_MFAS_ERR)) (fr_refl _ _)).ifF (by decide) d _
  unfold State.judgeMfas
  simp only [hIm, if_true, if_neg hMfas, hRow, if_pos hEnough]
  refine ⟨?_, ?_, ?_, hasEvt_ev_otu _ hd ?_⟩
  · simp (disch := decide) only [State.rdb_ev, State.rdb_wrb_place, State.rdb_wrb_same]
  · simp only [State.rdb_ev, State.rdb_wrb_same]
  · simp (disch := decide) only [State.rd_ev, State.rd_wrb_place, State.rd_setSlice, State.rd_count_same]
    rfl
  · simp (disch := decide) only [regionSpeaks_wrb_place, regionSpeaks_count_place, regionSpeaks_setSlice, hSpeaks]

/-- The n_mf-th rising MFAS in a row: the slice enters the multiframe. -/
theorem judgeMfas_found (hd : d < 1024) (hIm : s.rdb (pgOtu d) OTU_STATUS_im = false) (hFirst : (s.slice d).mfFirst = false)
    (hMfas : mfas = (s.slice d).mfExp) (hEnough : s.ifF d OTU_IF.n_mf ≤ (s.slice d).mfC + 1)
    (hSpeaks : s.regionSpeaks (sliceRegion d) = true) :
    (s.judgeMfas d mfas).rdb (pgOtu d) OTU_STATUS_im = true ∧ (s.judgeMfas d mfas).hasEvt (pgOtu d) otuMf = true := by
  have hGo : ¬ ((s.slice d).mfFirst = true ∨ mfas ≠ (s.slice d).mfExp) := by simp [hFirst, hMfas]
  have hRow (u : Slice → Slice) : (s.setSlice d u).ifF d OTU_IF.n_mf = s.ifF d OTU_IF.n_mf := rfl
  unfold State.judgeMfas
  simp only [hIm, Bool.false_eq_true, if_false, if_neg hGo, hRow, if_pos hEnough]
  refine ⟨?_, hasEvt_ev_otu _ hd ?_⟩
  · simp only [State.rdb_ev, State.rdb_wrb_same]
  · simp (disch := decide) only [regionSpeaks_wrb_place, regionSpeaks_setSlice, hSpeaks]

end

/-! ### The section overhead of a frame in SYNC (R142 to R146) -/

/-- The position in the multiframe of a frame. -/
def State.framePos (s : State) (d : Nat) (f : OtucFrame) : Nat := if s.rdb (pgOtu d) OTU_STATUS_im then (s.slice d).mfExp else f.mfas

/-- What a frame in SYNC does beyond the two alignment machines: its SM overhead, its phase, its TTI byte. -/
def State.readOverhead (s : State) (d : Nat) (f : OtucFrame) (pos : Nat) : State :=
  let s := s.judgeSm d f
  let s := s.setSlice d (fun x => { x with phase := (f.start + mfBytes - 15296 * (pos % 256)) % mfBytes })
  if s.rdb (pgOtu d) OTU_STATUS_im then s.sliceTti d (pos % 64) f.tti else s.setPoint (secPoint d) ttiBreak

def fm_readOverhead : Nat := fm_judgeSm ||| fm_setSlice ||| fm_sliceTti ||| fm_setPoint

theorem readOverhead_fr {M : Nat} {s0 s : State} (d : Nat) (f : OtucFrame) (pos : Nat) (hM : MaskLe fm_readOverhead M) (hs : Fr M s0 s) :
    Fr M s0 (s.readOverhead d f pos) := by
  have hPhase (u : Slice → Slice) : Fr M s0 ((s.judgeSm d f).setSlice d u) :=
    State.setSlice_fr _ _ _ (MaskLe.trans (by decide) hM) (State.judgeSm_fr _ _ _ (MaskLe.trans (by decide) hM) hs)
  delta State.readOverhead
  exact fr_ite (State.sliceTti_fr _ _ _ _ (MaskLe.trans (by decide) hM) (hPhase _))
    (State.setPoint_fr _ _ _ (MaskLe.trans (by decide) hM) (hPhase _))

theorem readOverhead_mfExp (s : State) (d : Nat) (f : OtucFrame) (pos : Nat) :
    ((s.readOverhead d f pos).slice d).mfExp = (s.slice d).mfExp := by
  have hSm : (s.judgeSm d f).slice d = s.slice d := (State.judgeSm_fr s d f (MaskLe.refl _) (fr_refl _ s)).slice (by decide) d
  delta State.readOverhead
  extract_lets s1 s2
  have hPhase : (s2.slice d).mfExp = (s.slice d).mfExp := by rw [State.slice_setSlice_same, hSm]
  split
  · rw [(State.sliceTti_fr s2 d _ _ (MaskLe.refl _) (fr_refl _ _)).slice (by decide) d, hPhase]
  · rw [State.slice_setPoint, hPhase]

theorem BesideEpi.sliceTti {pg : Nat} {g : Field} (h : BesideEpi pg g) (hTim : g.place ≠ OTU_STATUS_dtim.place) (s : State)
    (d pos byte : Nat) : (s.sliceTti d pos byte).rd pg g = s.rd pg g := by
  unfold State.sliceTti State.evalTim
  dsimp only
  split
  · split
    · rw [h.sliceDef _ _ _ _ _ _ hTim, State.rd_evWhen, State.rd_setEntry, State.rd_setPoint]
    · rw [State.rd_evWhen, State.rd_setEntry, State.rd_setPoint]
  · rw [State.rd_setPoint]

/-- A frame's overhead leaves a field alone that the trackers do not write and that is none of its own. -/
theorem BesideEpi.readOverhead {pg : Nat} {g : Field} (h : BesideEpi pg g) (s : State) (d : Nat) (f : OtucFrame) (pos : Nat)
    (hPlace : ∀ x ∈ [OTU_BIP_BITS, OTU_BIP_BLK, OTU_STATUS_dbdi, OTU_STATUS_diae, OTU_STATUS_dbiae, OTU_BEI_BITS, OTU_BEI_BLK,
      OTU_STATUS_dtim], g.place ≠ x.place) : (s.readOverhead d f pos).rd pg g = s.rd pg g := by
  simp only [List.forall_mem_cons] at hPlace
  obtain ⟨hBits, hBlk, hBdi, hIae, hBiae, hBeiBits, hBeiBlk, hTim, -⟩ := hPlace
  have hSm : (s.judgeSm d f).rd pg g = s.rd pg g := by
    unfold State.judgeSm
    simp only [State.rd_setPoint, State.rd_count_place _ hBeiBlk, State.rd_count_place _ hBeiBits, h.sliceDef _ _ _ _ _ _ hBiae,
      h.sliceDef _ _ _ _ _ _ hIae, h.sliceDef _ _ _ _ _ _ hBdi, State.rd_count_place _ hBlk, State.rd_count_place _ hBits]
  delta State.readOverhead
  extract_lets s1 s2
  have hPhase : s2.rd pg g = _ := (State.rd_setSlice ..).trans hSm
  split
  · rw [h.sliceTti hTim, hPhase]
  · rw [State.rd_setPoint, hPhase]

/-- The BIP-8 violations of a frame in SYNC are counted (R144). -/
theorem readOverhead_bip (s : State) (d : Nat) (f : OtucFrame) (pos : Nat) : (s.readOverhead d f pos).rd (pgOtu d) OTU_BIP_BITS =
    (s.rd (pgOtu d) OTU_BIP_BITS + bipViolations (s.point (secPoint d)).bips [f.bip]) % 2 ^ 64 := by
  have h : BesideEpi (pgOtu d) OTU_BIP_BITS := ⟨pgOtu_ne_pgEpi d, by decide, by decide⟩
  have hSm : (s.judgeSm d f).rd (pgOtu d) OTU_BIP_BITS =
      (s.rd (pgOtu d) OTU_BIP_BITS + bipViolations (s.point (secPoint d)).bips [f.bip]) % 2 ^ 64 := by
    unfold State.judgeSm
    simp (disch := decide) only [State.rd_setPoint, State.rd_count_place, h.sliceDef, State.rd_count_same]
    rfl
  delta State.readOverhead
  extract_lets s1 s2
  have hPhase : s2.rd (pgOtu d) OTU_BIP_BITS = _ := (State.rd_setSlice ..).trans hSm
  split
  · rw [h.sliceTti (by decide), hPhase]
  · rw [State.rd_setPoint, hPhase]

/-! ### The end of a frame -/

/-- The bond of the slice's OTUCn is judged, its block brought up to date, the GCC0 bytes captured. -/
def State.finishFrame (s : State) (d : Nat) (gcc0 : List Nat) : State := ((s.judgeBondOf d).refreshBlock (d / 16)).gccIn d gcc0

def fm_finishFrame : Nat := fm_judgeBond ||| fm_refreshBlock ||| fm_gccIn

theorem finishFrame_fr {M : Nat} {s0 s : State} (d : Nat) (gcc0 : List Nat) (hM : MaskLe fm_finishFrame M) (hs : Fr M s0 s) :
    Fr M s0 (s.finishFrame d gcc0) :=
  State.gccIn_fr _ _ _ (MaskLe.trans (by decide) hM) (State.refreshBlock_fr _ _ (MaskLe.trans (by decide) hM)
    (judgeBondOf_fr _ (MaskLe.trans (by decide) hM) hs))

theorem finishFrame_framing (s : State) (d k : Nat) (gcc0 : List Nat) : ((s.finishFrame d gcc0).slice k).framing = (s.slice k).framing := by
  delta State.finishFrame
  rw [gccIn_framing, (State.refreshBlock_fr _ _ (MaskLe.refl _) (fr_refl _ _)).slice (by decide), judgeBondOf_framing]

theorem finishFrame_inFrame (s : State) (d : Nat) (gcc0 : List Nat) :
    (s.finishFrame d gcc0).rdb (pgOtu d) OTU_STATUS_in_frame = s.rdb (pgOtu d) OTU_STATUS_in_frame := by
  delta State.finishFrame
  unfold State.rdb
  rw [(State.gccIn_fr _ d gcc0 (MaskLe.refl _) (fr_refl _ _)).rd _ _ (by decide),
    (besideEpi_inFrame d).refreshBlock _ _ (by decide), State.rd_judgeBondOf]

def fm_gccSkip : Nat := fm_setSlice ||| fm_gccBreak

/-- Outside SYNC no GCC0 byte is captured, so that nothing is lost or misrouted (R355). -/
theorem gccIn_unsynced_fr {M : Nat} {s0 s : State} {d : Nat} (gcc0 : List Nat) (h : s.rd (pgOtu d) OTU_STATUS_fstate ≠ fSync)
    (hM : MaskLe fm_gccSkip M) (hs : Fr M s0 s) : Fr M s0 (s.gccIn d gcc0) := by
  have hBreak : MaskLe fm_gccBreak M := MaskLe.trans (by decide) hM
  have hSlice : MaskLe fm_setSlice M := MaskLe.trans (by decide) hM
  unfold State.gccIn
  simp only [h, decide_false, Bool.false_eq_true, if_false]
  exact fr_ite (State.gccBreak_fr _ _ hBreak (State.setSlice_fr _ _ _ hSlice hs)) (State.gccBreak_fr _ _ hBreak hs)

def fm_finishSearch : Nat := fm_judgeBond ||| fm_refreshBlock ||| fm_gccSkip

theorem finishFrame_unsynced_fr {M : Nat} {s0 s : State} {d : Nat} (gcc0 : List Nat) (h : s.rd (pgOtu d) OTU_STATUS_fstate ≠ fSync)
    (hM : MaskLe fm_finishSearch M) (hs : Fr M s0 s) : Fr M s0 (s.finishFrame d gcc0) := by
  have hState : ((s.judgeBondOf d).refreshBlock (d / 16)).rd (pgOtu d) OTU_STATUS_fstate = s.rd (pgOtu d) OTU_STATUS_fstate :=
    ((State.refreshBlock_fr _ _ (MaskLe.refl _) (fr_refl _ _)).rd _ _ (by decide)).trans (State.rd_judgeBondOf ..)
  delta State.finishFrame
  exact gccIn_unsynced_fr gcc0 (by rwa [hState]) (MaskLe.trans (by decide) hM)
    (State.refreshBlock_fr _ _ (MaskLe.trans (by decide) hM) (judgeBondOf_fr _ (MaskLe.trans (by decide) hM) hs))

/-! ### A frame as a whole -/

theorem otucFrame_sync {s u : State} {d : Nat} {f : OtucFrame} (hd : d < 1024) (hRuns : s.sliceRuns d = true)
    (hPath : s.datapath (sliceRegion d) = true) (hFas : s.judgeFas d (fasCorrect (s.ifF d OTU_IF.fas_bytes) f.fas) = u)
    (hState : u.rd (pgOtu d) OTU_STATUS_fstate = fSync) :
    s.otucFrame d f = ((u.judgeMfas d f.mfas).readOverhead d f (u.framePos d f)).finishFrame d f.gcc0 := by
  unfold State.otucFrame State.otucFrameIn
  rw [if_pos ⟨hd, hRuns, hPath⟩]
  dsimp only
  rw [hFas, if_pos hState]
  rfl

theorem otucFrame_noSync {s u : State} {d : Nat} {f : OtucFrame} (hd : d < 1024) (hRuns : s.sliceRuns d = true)
    (hPath : s.datapath (sliceRegion d) = true) (hFas : s.judgeFas d (fasCorrect (s.ifF d OTU_IF.fas_bytes) f.fas) = u)
    (hState : u.rd (pgOtu d) OTU_STATUS_fstate ≠ fSync) :
    s.otucFrame d f = (u.setPoint (secPoint d) (fun p => { ttiBreak p with bips := [], neutral := true })).finishFrame d f.gcc0 := by
  unfold State.otucFrame State.otucFrameIn
  rw [if_pos ⟨hd, hRuns, hPath⟩]
  dsimp only
  rw [hFas, if_neg hState]
  rfl

end Sys2Proof.Machine

namespace Sys2Proof.Machine

open Sys2Proof

set_option exponentiation.threshold 16384

def fm_unsynced : Nat := fm_setPoint ||| fm_finishSearch
def fm_synced : Nat := fm_readOverhead ||| fm_finishFrame

section
variable {s u : State} {d : Nat} {f : OtucFrame} (hd : d < 1024) (hRuns : s.sliceRuns d = true)
  (hPath : s.datapath (sliceRegion d) = true) (hFas : s.judgeFas d (fasCorrect (s.ifF d OTU_IF.fas_bytes) f.fas) = u)
include hd hRuns hPath hFas

/-- After a frame that leaves the frame machine outside SYNC its slice shows what the machine shows. -/
theorem otucFrame_unsynced (hState : u.rd (pgOtu d) OTU_STATUS_fstate ≠ fSync) : Fr fm_unsynced u (s.otucFrame d f) ∧
    (s.otucFrame d f).rdb (pgOtu d) OTU_STATUS_in_frame = u.rdb (pgOtu d) OTU_STATUS_in_frame ∧
    ((s.otucFrame d f).slice d).framing = (u.slice d).framing := by
  rw [otucFrame_noSync hd hRuns hPath hFas hState]
  exact ⟨finishFrame_unsynced_fr _ (by rwa [State.rd_setPoint]) (by decide) (State.setPoint_fr _ _ _ (by decide) (fr_refl _ u)),
    (finishFrame_inFrame _ _ _).trans (State.rdb_setPoint ..),
    (finishFrame_framing _ _ _ _).trans (congrArg Slice.framing (State.slice_setPoint ..))⟩

/-- After a frame in SYNC its slice shows what the multiframe machine shows, and its BIP-8 violations are counted. -/
theorem otucFrame_synced (hState : u.rd (pgOtu d) OTU_STATUS_fstate = fSync) : Fr fm_synced (u.judgeMfas d f.mfas) (s.otucFrame d f) ∧
    (s.otucFrame d f).rd (pgOtu d) OTU_STATUS_fstate = fSync ∧
    (s.otucFrame d f).rdb (pgOtu d) OTU_STATUS_in_frame = u.rdb (pgOtu d) OTU_STATUS_in_frame ∧
    ((s.otucFrame d f).slice d).mfExp = ((u.judgeMfas d f.mfas).slice d).mfExp ∧
    (s.otucFrame d f).rd (pgOtu d) OTU_BIP_BITS =
      (u.rd (pgOtu d) OTU_BIP_BITS + bipViolations (u.point (secPoint d)).bips [f.bip]) % 2 ^ 64 := by
  have hMfas := State.judgeMfas_fr u d f.mfas (MaskLe.refl _) (fr_refl _ u)
  rw [otucFrame_sync hd hRuns hPath hFas hState]
  have hRest : Fr fm_synced (u.judgeMfas d f.mfas)
      (((u.judgeMfas d f.mfas).readOverhead d f (u.framePos d f)).finishFrame d f.gcc0) :=
    finishFrame_fr _ _ (by decide) (readOverhead_fr _ _ _ (by decide) (fr_refl _ _))
  refine ⟨hRest, ?_, ?_, ?_, ?_⟩
  · rw [hRest.rd _ _ (by decide), hMfas.rd _ _ (by decide), hState]
  · rw [finishFrame_inFrame, State.rdb, (besideEpi_inFrame d).readOverhead _ _ _ _ (by decide)]
    exact hMfas.rdb _ _ (by decide)
  · exact (congrArg Slice.mfExp (finishFrame_framing _ d d f.gcc0)).trans (readOverhead_mfExp _ _ _ _)
  · rw [(finishFrame_fr d f.gcc0 (MaskLe.refl _) (fr_refl _ _)).rd _ _ (by decide), readOverhead_bip,
      hMfas.rd _ _ (by decide), hMfas.point (by decide)]

end

theorem exec_otucFrame (d : Nat) (f : OtucFrame) {s : State} (hRun : s.dom = .run) :
    exec (.otucFrame d f) s = .next (s.after (s.fresh.otucFrame d f)) := run_eq_next (fun s => s.otucFrame d f) hRun

theorem State.hasEvt_after (s u : State) (pg k : Nat) : (s.after u).hasEvt pg k = u.hasEvt pg k := rfl
theorem State.slice_after (s u : State) (d : Nat) : (s.after u).slice d = u.slice d := rfl
theorem State.point_after (s u : State) (m : Nat) : (s.after u).point m = u.point m := rfl

/-- A frame that brings its slice to SYNC. -/
theorem otucFrame_entersSync {s v : State} {d : Nat} {f : OtucFrame} (hd : d < 1024) (hRuns : s.sliceRuns d = true)
    (hPath : s.datapath (sliceRegion d) = true) (hFas : s.judgeFas d (fasCorrect (s.ifF d OTU_IF.fas_bytes) f.fas) = v.enterSync d)
    (hSpeaks : v.regionSpeaks (sliceRegion d) = true) :
    (s.otucFrame d f).rd (pgOtu d) OTU_STATUS_fstate = fSync ∧ (s.otucFrame d f).rdb (pgOtu d) OTU_STATUS_in_frame = true ∧
    (s.otucFrame d f).hasEvt (pgOtu d) otuInFrame = true := by
  obtain ⟨hSync, hIn⟩ := enterSync_shows v d
  obtain ⟨hRest, hState, hInFrame, -, -⟩ := otucFrame_synced hd hRuns hPath hFas hSync
  refine ⟨hState, hInFrame.trans hIn, hRest.kEvt (by decide) _ _ ?_⟩
  exact (State.judgeMfas_fr _ d f.mfas (MaskLe.refl _) (fr_refl _ _)).kEvt (by decide) _ _ (enterSync_recorded hd hSpeaks)

/-- A frame that sends its slice from another state to SEARCH. -/
theorem otucFrame_entersSearch {s v : State} {d : Nat} {f : OtucFrame} (hd : d < 1024) (hRuns : s.sliceRuns d = true)
    (hPath : s.datapath (sliceRegion d) = true) (hFas : s.judgeFas d (fasCorrect (s.ifF d OTU_IF.fas_bytes) f.fas) = v.enterSearch d)
    (hFrom : v.rd (pgOtu d) OTU_STATUS_fstate ≠ fSearch) (hSpeaks : v.regionSpeaks (sliceRegion d) = true) :
    Fr fm_unsynced (v.enterSearch d) (s.otucFrame d f) ∧
    (s.otucFrame d f).rd (pgOtu d) OTU_STATUS_fstate = fSearch ∧ (s.otucFrame d f).rdb (pgOtu d) OTU_STATUS_in_frame = false ∧
    (s.otucFrame d f).rdb (pgOtu d) OTU_STATUS_im = false ∧ (s.otucFrame d f).rdb (pgOtu d) OTU_STATUS_bonded = false ∧
    (s.otucFrame d f).rd (pgOtu d) OTU_OOF_CNT = (v.rd (pgOtu d) OTU_OOF_CNT + 1) % 2 ^ 32 ∧
    (s.otucFrame d f).hasEvt (pgOtu d) otuOof = true := by
  obtain ⟨hState, hIn, hIm, hBonded⟩ := enterSearch_shows v d
  obtain ⟨hCount, hEvt⟩ := enterSearch_oof hd hFrom hSpeaks
  obtain ⟨hRest, hInFrame, -⟩ := otucFrame_unsynced hd hRuns hPath hFas (by rw [hState]; decide)
  refine ⟨hRest, ?_, hInFrame.trans hIn, ?_, ?_, ?_, hRest.kEvt (by decide) _ _ hEvt⟩
  · rw [hRest.rd _ _ (by decide), hState]
  · rw [hRest.rdb _ _ (by decide), hIm]
  · rw [hRest.rdb _ _ (by decide), hBonded]
  · rw [hRest.rd _ _ (by decide), hCount]

theorem State.slice_wr (s : State) (pg : Nat) (f : Field) (v d : Nat) : (s.wr pg f v).slice d = s.slice d := by
  unfold State.wr
  dsimp only
  split <;> rfl

/-! ### The rows of Table OTU-4 and of the multiframe machine as steps of a frame -/

section
variable {s : State} {d : Nat} {f : OtucFrame} (hd : d < 1024) (hRuns : s.sliceRuns d = true) (hPath : s.datapath (sliceRegion d) = true)
include hd hRuns hPath

theorem otucFrame_search_presync (hState : s.rd (pgOtu d) OTU_STATUS_fstate = fSearch) (hHeld : s.sliceHeld d = false)
    (hBlocked : s.sliceBlocked d = false) (hOk : fasCorrect (s.ifF d OTU_IF.fas_bytes) f.fas = true) (hMany : 2 ≤ s.ifF d OTU_IF.n_fas) :
    (s.otucFrame d f).rd (pgOtu d) OTU_STATUS_fstate = fPresync ∧ ((s.otucFrame d f).slice d).c = 1 := by
  have hFas := judgeFas_search_presync hState hHeld hBlocked hMany
  rw [← hOk] at hFas
  obtain ⟨hRest, -, hFraming⟩ := otucFrame_unsynced hd hRuns hPath hFas (by rw [State.rd_wr_same]; decide)
  constructor
  · rw [hRest.rd _ _ (by decide), State.rd_wr_same]
    rfl
  · rw [State.slice_wr, State.slice_setSlice_same] at hFraming
    exact congrArg Slice.c hFraming

theorem otucFrame_search_wrong (hState : s.rd (pgOtu d) OTU_STATUS_fstate = fSearch)
    (hBad : fasCorrect (s.ifF d OTU_IF.fas_bytes) f.fas = false) : (s.otucFrame d f).rd (pgOtu d) OTU_STATUS_fstate = fSearch := by
  have hFas := judgeFas_search_wrong hState
  rw [← hBad] at hFas
  obtain ⟨hRest, -, -⟩ := otucFrame_unsynced hd hRuns hPath hFas (by rw [hState]; decide)
  rw [hRest.rd _ _ (by decide), hState]

theorem otucFrame_search_sync (hState : s.rd (pgOtu d) OTU_STATUS_fstate = fSearch) (hHeld : s.sliceHeld d = false)
    (hBlocked : s.sliceBlocked d = false) (hOk : fasCorrect (s.ifF d OTU_IF.fas_bytes) f.fas = true) (hFew : s.ifF d OTU_IF.n_fas ≤ 1) :
    (s.otucFrame d f).rd (pgOtu d) OTU_STATUS_fstate = fSync ∧ (s.otucFrame d f).rdb (pgOtu d) OTU_STATUS_in_frame = true ∧
    (s.otucFrame d f).hasEvt (pgOtu d) otuInFrame = true := by
  have hFas := judgeFas_search_sync hState hHeld hBlocked hFew
  rw [← hOk] at hFas
  exact otucFrame_entersSync hd hRuns hPath hFas (regionSpeaks_of_datapath hPath)

theorem otucFrame_presync_sync (hState : s.rd (pgOtu d) OTU_STATUS_fstate = fPresync)
    (hOk : fasCorrect (s.ifF d OTU_IF.fas_bytes) f.fas = true) (hEnough : s.ifF d OTU_IF.n_fas ≤ (s.slice d).c + 1) :
    (s.otucFrame d f).rd (pgOtu d) OTU_STATUS_fstate = fSync ∧ (s.otucFrame d f).rdb (pgOtu d) OTU_STATUS_in_frame = true ∧
    (s.otucFrame d f).hasEvt (pgOtu d) otuInFrame = true := by
  have hFas := judgeFas_presync_sync hState hEnough
  rw [← hOk] at hFas
  exact otucFrame_entersSync hd hRuns hPath hFas (regionSpeaks_of_datapath hPath)

theorem otucFrame_presync_wrong (hState : s.rd (pgOtu d) OTU_STATUS_fstate = fPresync)
    (hBad : fasCorrect (s.ifF d OTU_IF.fas_bytes) f.fas = false) :
    (s.otucFrame d f).rd (pgOtu d) OTU_STATUS_fstate = fSearch ∧ (s.otucFrame d f).rdb (pgOtu d) OTU_STATUS_in_frame = false ∧
    (s.otucFrame d f).rdb (pgOtu d) OTU_STATUS_im = false ∧ (s.otucFrame d f).rdb (pgOtu d) OTU_STATUS_bonded = false ∧
    (s.otucFrame d f).rd (pgOtu d) OTU_OOF_CNT = (s.rd (pgOtu d) OTU_OOF_CNT + 1) % 2 ^ 32 ∧
    (s.otucFrame d f).hasEvt (pgOtu d) otuOof = true := by
  have hFas := judgeFas_presync_wrong hState
  rw [← hBad] at hFas
  have hFrom : s.rd (pgOtu d) OTU_STATUS_fstate ≠ fSearch := by rw [hState]; decide
  obtain ⟨-, hShown⟩ := otucFrame_entersSearch hd hRuns hPath hFas hFrom (regionSpeaks_of_datapath hPath)
  exact hShown

/-- The m_fas-th wrong FAS in a row is counted as a wrong FAS and as an OOF. -/
theorem otucFrame_sync_lost (hState : s.rd (pgOtu d) OTU_STATUS_fstate = fSync)
    (hBad : fasCorrect (s.ifF d OTU_IF.fas_bytes) f.fas = false) (hEnough : s.ifF d OTU_IF.m_fas ≤ (s.slice d).e + 1) :
    (s.otucFrame d f).rd (pgOtu d) OTU_STATUS_fstate = fSearch ∧ (s.otucFrame d f).rdb (pgOtu d) OTU_STATUS_in_frame = false ∧
    (s.otucFrame d f).rdb (pgOtu d) OTU_STATUS_im = false ∧ (s.otucFrame d f).rdb (pgOtu d) OTU_STATUS_bonded = false ∧
    (s.otucFrame d f).rd (pgOtu d) OTU_OOF_CNT = (s.rd (pgOtu d) OTU_OOF_CNT + 1) % 2 ^ 32 ∧
    (s.otucFrame d f).hasEvt (pgOtu d) otuOof = true ∧
    (s.otucFrame d f).rd (pgOtu d) OTU_FAS_ERR = (s.rd (pgOtu d) OTU_FAS_ERR + 1) % 2 ^ 32 := by
  have hFas := judgeFas_sync_lost hState hEnough
  rw [← hBad] at hFas
  have hSpeaks : (s.missFas d).regionSpeaks (sliceRegion d) = true := by
    rw [missFas_regionSpeaks, regionSpeaks_of_datapath hPath]
  have hFrom : (s.missFas d).rd (pgOtu d) OTU_STATUS_fstate ≠ fSearch := by
    rw [missFas_rd (by decide) (by decide), hState]
    decide
  obtain ⟨hRest, hSearch, hIn, hIm, hBonded, hOof, hEvt⟩ := otucFrame_entersSearch hd hRuns hPath hFas hFrom hSpeaks
  refine ⟨hSearch, hIn, hIm, hBonded, ?_, hEvt, ?_⟩
  · rw [hOof, missFas_rd (by decide) (by decide)]
  · rw [hRest.rd _ _ (by decide),
      (State.enterSearch_fr _ d (MaskLe.refl _) (fr_refl _ _)).rd _ OTU_FAS_ERR (by decide), missFas_counts]

theorem otucFrame_mfas_expected (hState : s.rd (pgOtu d) OTU_STATUS_fstate = fSync)
    (hOk : fasCorrect (s.ifF d OTU_IF.fas_bytes) f.fas = true) (hIm : s.rdb (pgOtu d) OTU_STATUS_im = true)
    (hMfas : f.mfas = (s.slice d).mfExp) :
    (s.otucFrame d f).rd (pgOtu d) OTU_STATUS_fstate = fSync ∧ (s.otucFrame d f).rdb (pgOtu d) OTU_STATUS_im = true ∧
    ((s.otucFrame d f).slice d).mfExp = (f.mfas + 1) % 256 ∧ (s.otucFrame d f).rd (pgOtu d) OTU_BIP_BITS =
      (s.rd (pgOtu d) OTU_BIP_BITS + bipViolations (s.point (secPoint d)).bips [f.bip]) % 2 ^ 64 := by
  have hFas := judgeFas_sync_right hState
  rw [← hOk] at hFas
  obtain ⟨hRest, hSync, -, hExp, hBip⟩ := otucFrame_synced hd hRuns hPath hFas (by rwa [State.rd_setSlice])
  have hMfas' : f.mfas = ((s.setSlice d (fun x => { x with e := 0 })).slice d).mfExp := by
    rw [State.slice_setSlice_same, hMfas]
  have hStep := judgeMfas_expected (s := s.setSlice d (fun x => { x with e := 0 })) hIm hMfas'
  rw [hStep] at hRest hExp
  rw [State.rd_setSlice, State.point_setSlice] at hBip
  refine ⟨hSync, ?_, ?_, hBip⟩
  · rw [hRest.rdb _ _ (by decide), State.rdb_setSlice, State.rdb_setSlice, hIm]
  · rw [hExp, State.slice_setSlice_same, State.slice_setSlice_same, hMfas]

theorem otucFrame_mfas_lost (hState : s.rd (pgOtu d) OTU_STATUS_fstate = fSync)
    (hOk : fasCorrect (s.ifF d OTU_IF.fas_bytes) f.fas = true) (hIm : s.rdb (pgOtu d) OTU_STATUS_im = true)
    (hMfas : f.mfas ≠ (s.slice d).mfExp) (hEnough : s.ifF d OTU_IF.m_mf ≤ (s.slice d).mfF + 1) :
    (s.otucFrame d f).rdb (pgOtu d) OTU_STATUS_im = false ∧ (s.otucFrame d f).rdb (pgOtu d) OTU_STATUS_bonded = false ∧
    (s.otucFrame d f).rd (pgOtu d) OTU_MFAS_ERR = (s.rd (pgOtu d) OTU_MFAS_ERR + 1) % 2 ^ 32 ∧
    (s.otucFrame d f).hasEvt (pgOtu d) otuMf = true := by
  have hFas := judgeFas_sync_right hState
  rw [← hOk] at hFas
  obtain ⟨hRest, -⟩ := otucFrame_synced hd hRuns hPath hFas hState
  have hSlice := State.slice_setSlice_same s d (fun x => { x with e := 0 })
  obtain ⟨hNotIm, hNotBonded, hCount, hEvt⟩ := judgeMfas_lost (s := s.setSlice d (fun x => { x with e := 0 })) (mfas := f.mfas) hd hIm
    (by rwa [hSlice]) (by rwa [hSlice]) (regionSpeaks_of_datapath hPath)
  refine ⟨?_, ?_, ?_, hRest.kEvt (by decide) _ _ hEvt⟩
  · rw [hRest.rdb _ _ (by decide), hNotIm]
  · rw [hRest.rdb _ _ (by decide), hNotBonded]
  · rw [hRest.rd _ _ (by decide), hCount, State.rd_setSlice]

theorem otucFrame_mfas_found (hState : s.rd (pgOtu d) OTU_STATUS_fstate = fSync)
    (hOk : fasCorrect (s.ifF d OTU_IF.fas_bytes) f.fas = true) (hIm : s.rdb (pgOtu d) OTU_STATUS_im = false)
    (hFirst : (s.slice d).mfFirst = false) (hMfas : f.mfas = (s.slice d).mfExp) (hEnough : s.ifF d OTU_IF.n_mf ≤ (s.slice d).mfC + 1) :
    (s.otucFrame d f).rdb (pgOtu d) OTU_STATUS_im = true ∧ (s.otucFrame d f).hasEvt (pgOtu d) otuMf = true := by
  have hFas := judgeFas_sync_right hState
  rw [← hOk] at hFas
  obtain ⟨hRest, -⟩ := otucFrame_synced hd hRuns hPath hFas hState
  have hSlice := State.slice_setSlice_same s d (fun x => { x with e := 0 })
  obtain ⟨hNowIm, hEvt⟩ := judgeMfas_found (s := s.setSlice d (fun x => { x with e := 0 })) (mfas := f.mfas) hd hIm (by rwa [hSlice])
    (by rwa [hSlice]) (by rwa [hSlice]) (regionSpeaks_of_datapath hPath)
  refine ⟨?_, hRest.kEvt (by decide) _ _ hEvt⟩
  rw [hRest.rdb _ _ (by decide), hNowIm]

end

/-- Settles O22, clause by clause: the row of Table OTU-4 or of the multiframe machine that the frame meets (`judgeFas_…`, `judgeMfas_…`),
of which the rest of the frame leaves what it shows (`otucFrame_unsynced`, `otucFrame_synced`). -/
theorem otuFrameAlignment : Obligations.OtuFrameAlignment := by
  unfold Obligations.OtuFrameAlignment
  refine ⟨fun s d f hRun hd hRuns hPath hState hHeld hBlocked hOk hMany => ?_,
    fun s d f hRun hd hRuns hPath hState hHeld hBlocked hOk hFew _ => ?_,
    fun s d f hRun hd hRuns hPath hState hBad => ?_,
    fun s d f hRun hd hRuns hPath hState hOk hEnough => ?_,
    fun s d f hRun hd hRuns hPath hState hBad => ?_,
    fun s d f hRun hd hRuns hPath hState hBad hEnough => ?_,
    fun s d f v hRun hd hRuns hPath hState hOk hIm hMfas hBip => ?_,
    fun s d f hRun hd hRuns hPath hState hOk hIm hMfas hEnough => ?_,
    fun s d f hRun hd hRuns hPath hState hOk hIm hFirst hMfas hEnough => ?_⟩ <;>
  refine ⟨_, exec_otucFrame d f hRun, ?_⟩
  · exact otucFrame_search_presync (s := s.fresh) hd hRuns hPath hState hHeld hBlocked hOk hMany
  · exact otucFrame_search_sync (s := s.fresh) hd hRuns hPath hState hHeld hBlocked hOk hFew
  · exact otucFrame_search_wrong (s := s.fresh) hd hRuns hPath hState hBad
  · exact otucFrame_presync_sync (s := s.fresh) hd hRuns hPath hState hOk hEnough
  · exact otucFrame_presync_wrong (s := s.fresh) hd hRuns hPath hState hBad
  · exact otucFrame_sync_lost (s := s.fresh) hd hRuns hPath hState hBad hEnough
  · rw [hBip]
    exact otucFrame_mfas_expected (s := s.fresh) hd hRuns hPath hState hOk hIm hMfas
  · exact otucFrame_mfas_lost (s := s.fresh) hd hRuns hPath hState hOk hIm hMfas hEnough
  · exact otucFrame_mfas_found (s := s.fresh) hd hRuns hPath hState hOk hIm hFirst hMfas hEnough

end Sys2Proof.Machine

namespace Sys2Proof.Machine

open Sys2Proof

set_option exponentiation.threshold 16384

/-! ### A defect of a slice (file 04, R149) -/

theorem State.rd_sectionSeen (s : State) (d pg : Nat) (f : Field) : (s.sectionSeen d).rd pg f = s.rd pg f := rfl
theorem State.rdb_sectionSeen (s : State) (d pg : Nat) (f : Field) : (s.sectionSeen d).rdb pg f = s.rdb pg f := rfl

theorem sliceDef_shows (s : State) (d ev kind : Nat) (on deconf : Bool) {f : Field} (hFree : fm_epiPush.testBit (512 + f.place) = false) :
    (s.sliceDef d f ev kind on deconf).rdb (pgOtu d) f = on := by
  unfold State.sliceDef
  split
  next h => exact h
  next =>
    rw [(State.epiPush_fr _ _ _ _ _ _ _ (MaskLe.refl _) (fr_refl _ _)).rdb _ f hFree, State.rdb_ev, State.rdb_sectionSeen,
      State.rdb_wrb_same]

theorem sliceDef_rd_place (s : State) (d ev kind : Nat) (on deconf : Bool) {pg : Nat} {f g : Field} (hPlace : g.place ≠ f.place)
    (hFree : fm_epiPush.testBit (512 + g.place) = false) : (s.sliceDef d f ev kind on deconf).rd pg g = s.rd pg g := by
  unfold State.sliceDef
  split
  · rfl
  · rw [(State.epiPush_fr _ _ _ _ _ _ _ (MaskLe.refl _) (fr_refl _ _)).rd _ g hFree, State.rd_ev, State.rd_sectionSeen,
      State.rd_wrb_place _ hPlace]

/-- A change of a defect is recorded on the slice's page. -/
theorem sliceDef_recorded {s : State} {d ev kind : Nat} {on deconf : Bool} {f : Field} (hd : d < 1024)
    (hChange : s.rdb (pgOtu d) f = !on) (hRegions : mRegions (mFld f) = true) (hSpeaks : s.regionSpeaks (sliceRegion d) = true) :
    (s.sliceDef d f ev kind on deconf).hasEvt (pgOtu d) ev = true := by
  unfold State.sliceDef
  rw [if_neg (by simp [hChange])]
  refine (State.epiPush_fr _ _ _ _ _ _ _ (MaskLe.refl _) (fr_refl _ _)).kEvt (by decide) _ _ (hasEvt_ev_otu ev hd ?_)
  exact (regionSpeaks_wrb_place hRegions _).trans hSpeaks

/-- A defect that changes: its bit, its event, and what the block's signals make of it. -/
theorem sliceDef_refreshed {s : State} {d ev kind B : Nat} {on : Bool} {f : Field} (hd : d < 1024)
    (hChange : s.rdb (pgOtu d) f = !on) (hSpeaks : s.regionSpeaks (sliceRegion d) = true) (hRegions : mRegions (mFld f) = true)
    (hPush : fm_epiPush.testBit (512 + f.place) = false) (hBlock : fm_refreshBlock.testBit (512 + f.place) = false) :
    ((s.sliceDef d f ev kind on).refreshBlock B).rdb (pgOtu d) f = on ∧
    ((s.sliceDef d f ev kind on).refreshBlock B).hasEvt (pgOtu d) ev = true := by
  have hRest := State.refreshBlock_fr (s.sliceDef d f ev kind on) B (MaskLe.refl _) (fr_refl _ _)
  exact ⟨(hRest.rdb _ f hBlock).trans (sliceDef_shows _ _ _ _ _ _ hPush),
    hRest.kEvt (by decide) _ _ (sliceDef_recorded hd hChange hRegions hSpeaks)⟩

/-! ### The integrators (R137 to R141) -/

theorem intRuns_iff {s : State} {d : Nat} : s.intRuns d = true ↔ s.sliceRuns d = true ∧ (s.slice d).chgAt ≠ s.dpCycle + 1 := by
  unfold State.intRuns
  rw [Bool.and_eq_true, decide_eq_true_iff]

/-- The end of an integrator fits OTU_LOF_INT. -/
theorem lofLimit_lt (s : State) (d : Nat) : s.lofLimit d < 2 ^ OTU_LOF_INT_dp_cycles.width := by
  have hMs : s.ifF d OTU_IF.lof_ms < 8 := Nat.mod_lt _ (by decide)
  unfold State.lofLimit intEnd
  show _ < 16777216
  omega

/-- A defect that changes after its integrator was set: its bit, its event, and what the block's signals make of it. -/
theorem sliceDef_integrated {s : State} {d ev kind B : Nat} {on : Bool} {f : Field} (u : Slice → Slice) (hd : d < 1024)
    (hChange : s.rdb (pgOtu d) f = !on) (hSpeaks : s.regionSpeaks (sliceRegion d) = true) (hRegions : mRegions (mFld f) = true)
    (hPush : fm_epiPush.testBit (512 + f.place) = false) (hBlock : fm_refreshBlock.testBit (512 + f.place) = false) :
    (((s.setSlice d u).sliceDef d f ev kind on).refreshBlock B).rdb (pgOtu d) f = on ∧
    (((s.setSlice d u).sliceDef d f ev kind on).refreshBlock B).hasEvt (pgOtu d) ev = true :=
  sliceDef_refreshed (s := s.setSlice d u) hd hChange hSpeaks hRegions hPush hBlock

section
variable {s : State} {d : Nat} (hd : d < 1024) (hRuns : s.sliceRuns d = true) (hRow : (s.slice d).chgAt ≠ s.dpCycle + 1)
  (hSpeaks : s.regionSpeaks (sliceRegion d) = true)
include hRuns hRow

theorem lofOn_of_end (hOut : s.rdb (pgOtu d) OTU_STATUS_in_frame = false)
    (hEnd : s.lofLimit d ≤ s.rd (pgOtu d) OTU_LOF_INT_dp_cycles + 1) :
    ∃ u, s.lofOn d = (((s.setSlice d u).wr (pgOtu d) OTU_LOF_INT_dp_cycles (s.lofLimit d)).sliceDef d OTU_STATUS_dlof otuLofOn 0
      true).refreshBlock (d / 16) :=
  ⟨_, if_pos (by simp [intRuns_iff.2 ⟨hRuns, hRow⟩, State.lofNow, State.heldNow, hOut, hEnd])⟩

theorem lofOff_of_end (hIn : s.rdb (pgOtu d) OTU_STATUS_in_frame = true) (hEnd : s.lofLimit d ≤ (s.slice d).ifRun + 1) :
    ∃ u, s.lofOff d = (((s.setSlice d u).wr (pgOtu d) OTU_LOF_INT_dp_cycles 0).sliceDef d OTU_STATUS_dlof otuLofOff 0
      false).refreshBlock (d / 16) :=
  ⟨_, if_pos (by simp [intRuns_iff.2 ⟨hRuns, hRow⟩, hIn, hEnd])⟩

theorem lomOn_of_end (hIn : s.rdb (pgOtu d) OTU_STATUS_in_frame = true) (hOut : s.rdb (pgOtu d) OTU_STATUS_im = false)
    (hEnd : s.lomLimit d ≤ (s.slice d).lomInt + 1) :
    ∃ u, s.lomOn d = ((s.setSlice d u).sliceDef d OTU_STATUS_dlom otuLomOn 1 true).refreshBlock (d / 16) :=
  ⟨_, if_pos (by simp [intRuns_iff.2 ⟨hRuns, hRow⟩, State.lomNow, State.heldNow, hIn, hOut, hEnd])⟩

theorem lomOff_of_end (hIm : s.rdb (pgOtu d) OTU_STATUS_im = true) (hEnd : s.lomLimit d ≤ (s.slice d).imRun + 1) :
    ∃ u, s.lomOff d = ((s.setSlice d u).sliceDef d OTU_STATUS_dlom otuLomOff 1 false).refreshBlock (d / 16) :=
  ⟨_, if_pos (by simp [intRuns_iff.2 ⟨hRuns, hRow⟩, hIm, hEnd])⟩

theorem dlomCnOn_of_end (hLead : s.isLead d = true) (hMis : (s.slice d).misaligned = true)
    (hEnd : s.lomLimit d ≤ (s.slice d).bondInt + 1) :
    ∃ u, s.dlomCnOn d = ((s.setSlice d u).sliceDef d OTU_STATUS_dlom_cn otuBond 2 true).refreshBlock (d / 16) :=
  ⟨_, if_pos (by simp [intRuns_iff.2 ⟨hRuns, hRow⟩, State.bondNow, State.heldNow, hLead, hMis, hEnd])⟩

theorem dlomCnOff_of_end (hLead : s.isLead d = true) (hAligned : (s.slice d).misaligned = false)
    (hEnd : s.lomLimit d ≤ (s.slice d).alRun + 1) :
    ∃ u, s.dlomCnOff d = ((s.setSlice d u).sliceDef d OTU_STATUS_dlom_cn otuBond 2 false).refreshBlock (d / 16) :=
  ⟨_, if_pos (by simp [intRuns_iff.2 ⟨hRuns, hRow⟩, hLead, hAligned, hEnd])⟩

end

/-- dLOF declared or cleared, with the integrator put at `n`. -/
theorem dlof_integrated {s : State} {d ev n : Nat} {on : Bool} (u : Slice → Slice) (hd : d < 1024)
    (hFit : n < 2 ^ OTU_LOF_INT_dp_cycles.width) (hChange : s.rdb (pgOtu d) OTU_STATUS_dlof = !on)
    (hSpeaks : s.regionSpeaks (sliceRegion d) = true) :
    let t := (((s.setSlice d u).wr (pgOtu d) OTU_LOF_INT_dp_cycles n).sliceDef d OTU_STATUS_dlof ev 0 on).refreshBlock (d / 16)
    t.rdb (pgOtu d) OTU_STATUS_dlof = on ∧ t.hasEvt (pgOtu d) ev = true ∧ t.rd (pgOtu d) OTU_LOF_INT_dp_cycles = n := by
  intro t
  have hChange' : ((s.setSlice d u).wr (pgOtu d) OTU_LOF_INT_dp_cycles n).rdb (pgOtu d) OTU_STATUS_dlof = !on := by
    rw [State.rdb_wr_place _ (by decide), State.rdb_setSlice, hChange]
  have hSpeaks' : ((s.setSlice d u).wr (pgOtu d) OTU_LOF_INT_dp_cycles n).regionSpeaks (sliceRegion d) = true := by
    rw [regionSpeaks_wr_place (by decide), regionSpeaks_setSlice, hSpeaks]
  obtain ⟨hShown, hEvt⟩ := sliceDef_refreshed (ev := ev) (kind := 0) (B := d / 16) hd hChange' hSpeaks' (by decide) (by decide)
    (by decide)
  refine ⟨hShown, hEvt, ?_⟩
  rw [(State.refreshBlock_fr _ _ (MaskLe.refl _) (fr_refl _ _)).rd _ _ (by decide),
    sliceDef_rd_place _ _ _ _ _ _ (by decide) (by decide), State.rd_wr_same, Nat.mod_eq_of_lt hFit]

/-- A bond-aligned member in multiframe enters the bond. -/
theorem bondEnter_bonded {s : State} {d : Nat} (hRuns : s.sliceRuns d = true) (hMember : s.sliceMember d = true)
    (hIm : s.rdb (pgOtu d) OTU_STATUS_im = true) (hAligned : (s.slice d).aligned = true)
    (hOut : s.rdb (pgOtu d) OTU_STATUS_bonded = false) : (s.bondEnter d).rdb (pgOtu d) OTU_STATUS_bonded = true := by
  unfold State.bondEnter
  rw [if_pos (by simp [hRuns, hMember, hIm, hAligned, hOut]),
    (State.refreshBlock_fr _ _ (MaskLe.refl _) (fr_refl _ _)).rdb _ _ (by decide), State.rdb_judgeBond, State.rdb_wrb_same]

theorem isLead_of {s : State} {d : Nat} (hMember : s.sliceMember d = true) (hLead : s.sliceLead d = d) : s.isLead d = true := by
  simp [State.isLead, hMember, hLead]

/-! ### The ends of the integrators -/

section
variable {s : State} {d : Nat} (hd : d < 1024) (hRuns : s.sliceRuns d = true) (hRow : (s.slice d).chgAt ≠ s.dpCycle + 1)
  (hSpeaks : s.regionSpeaks (sliceRegion d) = true)
include hd hRuns hRow hSpeaks

theorem lofOn_declares (hOut : s.rdb (pgOtu d) OTU_STATUS_in_frame = false)
    (hEnd : s.lofLimit d ≤ s.rd (pgOtu d) OTU_LOF_INT_dp_cycles + 1) (hDef : s.rdb (pgOtu d) OTU_STATUS_dlof = false) :
    (s.lofOn d).rdb (pgOtu d) OTU_STATUS_dlof = true ∧ (s.lofOn d).hasEvt (pgOtu d) otuLofOn = true ∧
    (s.lofOn d).rd (pgOtu d) OTU_LOF_INT_dp_cycles = s.lofLimit d := by
  obtain ⟨u, hEq⟩ := lofOn_of_end hRuns hRow hOut hEnd
  rw [hEq]
  exact dlof_integrated u hd (lofLimit_lt s d) hDef hSpeaks

theorem lofOff_clears (hIn : s.rdb (pgOtu d) OTU_STATUS_in_frame = true) (hEnd : s.lofLimit d ≤ (s.slice d).ifRun + 1)
    (hDef : s.rdb (pgOtu d) OTU_STATUS_dlof = true) :
    (s.lofOff d).rdb (pgOtu d) OTU_STATUS_dlof = false ∧ (s.lofOff d).hasEvt (pgOtu d) otuLofOff = true ∧
    (s.lofOff d).rd (pgOtu d) OTU_LOF_INT_dp_cycles = 0 := by
  obtain ⟨u, hEq⟩ := lofOff_of_end hRuns hRow hIn hEnd
  rw [hEq]
  exact dlof_integrated u hd (by decide) hDef hSpeaks

theorem lomOn_declares (hIn : s.rdb (pgOtu d) OTU_STATUS_in_frame = true) (hOut : s.rdb (pgOtu d) OTU_STATUS_im = false)
    (hEnd : s.lomLimit d ≤ (s.slice d).lomInt + 1) (hDef : s.rdb (pgOtu d) OTU_STATUS_dlom = false) :
    (s.lomOn d).rdb (pgOtu d) OTU_STATUS_dlom = true ∧ (s.lomOn d).hasEvt (pgOtu d) otuLomOn = true := by
  obtain ⟨u, hEq⟩ := lomOn_of_end hRuns hRow hIn hOut hEnd
  rw [hEq]
  exact sliceDef_integrated u hd hDef hSpeaks (by decide) (by decide) (by decide)

theorem lomOff_clears (hIm : s.rdb (pgOtu d) OTU_STATUS_im = true) (hEnd : s.lomLimit d ≤ (s.slice d).imRun + 1)
    (hDef : s.rdb (pgOtu d) OTU_STATUS_dlom = true) :
    (s.lomOff d).rdb (pgOtu d) OTU_STATUS_dlom = false ∧ (s.lomOff d).hasEvt (pgOtu d) otuLomOff = true := by
  obtain ⟨u, hEq⟩ := lomOff_of_end hRuns hRow hIm hEnd
  rw [hEq]
  exact sliceDef_integrated u hd hDef hSpeaks (by decide) (by decide) (by decide)

theorem dlomCnOn_declares (hLead : s.isLead d = true) (hMis : (s.slice d).misaligned = true)
    (hEnd : s.lomLimit d ≤ (s.slice d).bondInt + 1) (hDef : s.rdb (pgOtu d) OTU_STATUS_dlom_cn = false) :
    (s.dlomCnOn d).rdb (pgOtu d) OTU_STATUS_dlom_cn = true ∧ (s.dlomCnOn d).hasEvt (pgOtu d) otuBond = true := by
  obtain ⟨u, hEq⟩ := dlomCnOn_of_end hRuns hRow hLead hMis hEnd
  rw [hEq]
  exact sliceDef_integrated u hd hDef hSpeaks (by decide) (by decide) (by decide)

theorem dlomCnOff_clears (hLead : s.isLead d = true) (hAligned : (s.slice d).misaligned = false)
    (hEnd : s.lomLimit d ≤ (s.slice d).alRun + 1) (hDef : s.rdb (pgOtu d) OTU_STATUS_dlom_cn = true) :
    (s.dlomCnOff d).rdb (pgOtu d) OTU_STATUS_dlom_cn = false ∧ (s.dlomCnOff d).hasEvt (pgOtu d) otuBond = true := by
  obtain ⟨u, hEq⟩ := dlomCnOff_of_end hRuns hRow hLead hAligned hEnd
  rw [hEq]
  exact sliceDef_integrated u hd hDef hSpeaks (by decide) (by decide) (by decide)

end

/-- Settles O23: at its end each integrator sets its slice's record and its defect (`lofOn_of_end` and its kin), which shows the bit and
the event (`sliceDef_integrated`, `dlof_integrated`). -/
theorem otuIntegrators : Obligations.OtuIntegrators := by
  unfold Obligations.OtuIntegrators
  refine ⟨fun s d hRun hd hRuns hRow hOut hEnd hDef hSpeaks => ?_, fun s d hRun hd hRuns hRow hIn hEnd hDef hSpeaks => ?_,
    fun s d hRun hd hRuns hIn hOut hRow hEnd hDef hSpeaks => ?_, fun s d hRun hd hRuns hIm hRow hEnd hDef hSpeaks => ?_,
    fun s d hRun hd hRuns hMember hLead hMis hRow hEnd hDef hSpeaks => ?_,
    fun s d hRun hd hRuns hMember hLead hMis hRow hEnd hDef hSpeaks => ?_,
    fun s d hRun hd hRuns hMember hIm hAligned hOut => ?_⟩
  · exact ⟨_, run_eq_next (fun s => s.lofOn d) hRun, lofOn_declares (s := s.fresh) hd hRuns hRow hSpeaks hOut hEnd hDef⟩
  · exact ⟨_, run_eq_next (fun s => s.lofOff d) hRun, lofOff_clears (s := s.fresh) hd hRuns hRow hSpeaks hIn hEnd hDef⟩
  · exact ⟨_, run_eq_next (fun s => s.lomOn d) hRun, lomOn_declares (s := s.fresh) hd hRuns hRow hSpeaks hIn hOut hEnd hDef⟩
  · exact ⟨_, run_eq_next (fun s => s.lomOff d) hRun, lomOff_clears (s := s.fresh) hd hRuns hRow hSpeaks hIm hEnd hDef⟩
  · exact ⟨_, run_eq_next (fun s => s.dlomCnOn d) hRun,
      dlomCnOn_declares (s := s.fresh) hd hRuns hRow hSpeaks (isLead_of hMember hLead) hMis hEnd hDef⟩
  · exact ⟨_, run_eq_next (fun s => s.dlomCnOff d) hRun,
      dlomCnOff_clears (s := s.fresh) hd hRuns hRow hSpeaks (isLead_of hMember hLead) hMis hEnd hDef⟩
  · exact ⟨_, run_eq_next (fun s => s.bondEnter d) hRun, bondEnter_bonded (s := s.fresh) hRuns hMember hIm hAligned hOut⟩

end Sys2Proof.Machine

namespace Sys2Proof.Machine

open Sys2Proof

set_option exponentiation.threshold 16384

/-! ### What the rows in effect say -/

section
variable {s t : State} (h : t.live = s.live)
include h

theorem eff_of_live {T : Tab} (hStaged : T.staged = true) (pg e : Nat) : t.eff pg T e = s.eff pg T e := by
  unfold State.eff
  rw [if_pos hStaged, if_pos hStaged, h]

theorem effF_of_live {T : Tab} (hStaged : T.staged = true) (pg e : Nat) (f : TField) : t.effF pg T e f = s.effF pg T e f :=
  congrArg (fun v => getBits v f.hi f.lo) (eff_of_live h hStaged pg e)

theorem ifF_of_live (d : Nat) (f : TField) : t.ifF d f = s.ifF d f := effF_of_live h rfl _ _ f

theorem laneType_of_live (n : Nat) : t.laneType n = s.laneType n := effF_of_live h rfl _ _ _

theorem laneInst_of_live (n : Nat) : t.laneInst n = s.laneInst n := by
  unfold State.laneInst State.laneRate
  rw [laneType_of_live h, effF_of_live h rfl]

theorem sliceMember_of_live (d : Nat) : t.sliceMember d = s.sliceMember d := by
  unfold State.sliceMember
  rw [ifF_of_live h]

theorem sliceLead_of_live (d : Nat) : t.sliceLead d = s.sliceLead d := by
  unfold State.sliceLead
  rw [ifF_of_live h]

theorem slicePos_of_live (d : Nat) : t.slicePos d = s.slicePos d := by
  unfold State.slicePos
  rw [sliceMember_of_live h, laneInst_of_live h, ifF_of_live h]

theorem otucMembers_of_live (d : Nat) : t.otucMembers d = s.otucMembers d := by
  unfold State.otucMembers
  rw [laneInst_of_live h, ifF_of_live h]

theorem otucLanes_of_live (d : Nat) : t.otucLanes d = s.otucLanes d := by
  unfold State.otucLanes
  rw [laneInst_of_live h, ifF_of_live h]

theorem blockLeads_of_live (B : Nat) : t.blockLeads B = s.blockLeads B := by
  unfold State.blockLeads
  simp only [sliceMember_of_live h, sliceLead_of_live h]

theorem sliceRuns_of_live {d : Nat} (hRun : t.rdb (pgOtu d) PAGE_CTRL_run = s.rdb (pgOtu d) PAGE_CTRL_run) :
    t.sliceRuns d = s.sliceRuns d := by
  unfold State.sliceRuns State.sliceExists State.sliceUnused
  simp only [laneType_of_live h, laneInst_of_live h, sliceMember_of_live h, blockLeads_of_live h, otucLanes_of_live h, hRun]

end

theorem Fr.sliceRuns {M : Nat} {s t : State} (h : Fr M s t) (hLive : M.testBit 31 = false)
    (hRun : M.testBit (512 + PAGE_CTRL_run.place) = false) (d : Nat) : t.sliceRuns d = s.sliceRuns d :=
  sliceRuns_of_live (h.live hLive) (h.rdb _ _ hRun)

/-! ### A slice held in SEARCH by Table OTU-3 -/

theorem Fr.sliceHeld {M : Nat} {s t : State} (h : Fr M s t) (hLock : M.testBit (512 + OTU_STATUS_flexo_lock.place) = false)
    (hGidm : M.testBit (512 + OTU_STATUS_dgidm.place) = false) (hPmm : M.testBit (512 + OTU_STATUS_dpmm.place) = false) (d : Nat) :
    t.sliceHeld d = s.sliceHeld d := by
  unfold State.sliceHeld
  rw [h.rdb _ _ hLock, h.rdb _ _ hGidm, h.rdb _ _ hPmm]

/-- An entry to SEARCH of any slice leaves a slice in SEARCH there. -/
theorem enterSearch_keeps_search {s : State} {k : Nat} (j : Nat) (h : s.rd (pgOtu k) OTU_STATUS_fstate = fSearch) :
    (s.enterSearch j).rd (pgOtu k) OTU_STATUS_fstate = fSearch := by
  by_cases hPage : pgOtu k = pgOtu j
  · rw [hPage]
    exact (enterSearch_shows s j).1
  · have hLeave : (s.leaveFrame j).rd (pgOtu k) OTU_STATUS_fstate = fSearch := by
      delta State.leaveFrame
      unfold State.wrb
      simp (disch := first | exact hPage | decide) only [State.rd_judgeBondOf, State.rd_wr_page, State.rd_setPoint, State.rd_setSlice, h]
    rw [enterSearch_eq]
    split
    · exact hLeave
    · rw [State.rd_ev, State.rd_count_place _ (by decide), hLeave]

theorem holdSlice_keeps_search {s : State} {k : Nat} (j : Nat) (h : s.rd (pgOtu k) OTU_STATUS_fstate = fSearch) :
    (s.holdSlice j).rd (pgOtu k) OTU_STATUS_fstate = fSearch := by
  unfold State.holdSlice
  split
  · exact enterSearch_keeps_search j h
  · exact h

/-- A held slice that runs is in SEARCH once it and others have been held there. -/
theorem each_holdSlice_search {s : State} {k : Nat} (ks : List Nat) (hRuns : s.sliceRuns k = true) (hHeld : s.sliceHeld k = true) :
    (s.each (k :: ks) State.holdSlice).rd (pgOtu k) OTU_STATUS_fstate = fSearch := by
  have hFirst : (s.holdSlice k).rd (pgOtu k) OTU_STATUS_fstate = fSearch := by
    unfold State.holdSlice
    rw [if_pos (by rw [hRuns, hHeld]; rfl)]
    exact (enterSearch_shows s k).1
  exact List.foldlRecOn ks State.holdSlice (motive := fun t => t.rd (pgOtu k) OTU_STATUS_fstate = fSearch) hFirst
    (fun t h j _ => holdSlice_keeps_search j h)

theorem setLane_keeps {α : Type} (p : Lane → α) (s : State) (n m : Nat) (u : Lane → Lane) (hu : ∀ x, p (u x) = p x) :
    p ((s.setLane n u).lane m) = p (s.lane m) := by
  unfold State.setLane State.lane
  by_cases h : m = n
  · rw [h, SMap.get_upd_same, hu]
  · rw [SMap.get_upd_ne _ _ _ _ h]

/-! ### A received FlexO frame (R128, R129) -/

/-- The slices of a lane after one of their frames was judged: dPMM of those that run, SEARCH for those held, and what the block's
signals make of it. -/
def State.spreadFlexo (s : State) (k : Nat) : State :=
  let g := s.pmmGroup k
  let pmm := g.any (fun k => (s.slice k).pmmOwn)
  let s := s.each (g.filter s.sliceRuns) (fun s k => s.sliceDef k OTU_STATUS_dpmm otuFlexo 9 pmm)
  (s.each (k :: g) State.holdSlice).refreshBlock (k / 16)

theorem flexoFrame_of_runs {s u : State} {d k : Nat} {f : FlexoFrame} (hFound : s.findInst d f = u) (hk : k = u.streamSlice d)
    (hRuns : u.sliceRuns k = true) (hPath : u.datapath (sliceRegion k) = true) :
    s.flexoFrame d f =
      let lock := f.omfi && bit (u.lane (sliceLane k)).instLock (k % 4)
      (if lock then (u.setFlexoLock k lock).judgeFlexo k f else u.setFlexoLock k lock).spreadFlexo k := by
  unfold State.flexoFrame
  dsimp only
  rw [hFound, ← hk, if_pos (by rw [hRuns, hPath]; rfl)]
  rfl

def fm_spreadFlexo : Nat := fm_sliceDef ||| mFld OTU_STATUS_dpmm ||| fm_holdSlice ||| fm_refreshBlock

theorem spreadFlexo_fr {M : Nat} {s0 s : State} (k : Nat) (hM : MaskLe fm_spreadFlexo M) (hs : Fr M s0 s) : Fr M s0 (s.spreadFlexo k) :=
  State.refreshBlock_fr _ _ (MaskLe.trans (by decide) hM)
    (fr_each (fr_each hs (fun s k h => State.sliceDef_fr s k _ _ _ _ _ (MaskLe.trans (by decide) hM)
      (MaskLe.trans (by decide) hM) h)) (fun s k h => State.holdSlice_fr s k (MaskLe.trans (by decide) hM) h))

/-- A slice that is held once its lane was judged is in SEARCH. -/
theorem spreadFlexo_search {s : State} {k : Nat} (hRuns : s.sliceRuns k = true) (hHeld : (s.spreadFlexo k).sliceHeld k = true) :
    (s.spreadFlexo k).rd (pgOtu k) OTU_STATUS_fstate = fSearch := by
  delta State.spreadFlexo at hHeld ⊢
  dsimp only at hHeld ⊢
  generalize hPmm : s.each _ _ = u at hHeld ⊢
  have hU : Fr (fm_sliceDef ||| mFld OTU_STATUS_dpmm) s u := hPmm ▸ fr_each (fr_refl _ s) (fun s j h =>
    State.sliceDef_fr s j _ _ _ _ _ (by decide) (by decide) h)
  have hHold : Fr fm_holdSlice u (u.each (k :: s.pmmGroup k) State.holdSlice) :=
    fr_each (fr_refl _ u) (fun s j h => State.holdSlice_fr s j (MaskLe.refl _) h)
  have hBlock (v : State) := State.refreshBlock_fr v (k / 16) (MaskLe.refl _) (fr_refl _ v)
  rw [(hBlock _).sliceHeld (by decide) (by decide) (by decide),
    hHold.sliceHeld (by decide) (by decide) (by decide)] at hHeld
  rw [(hBlock _).rd _ _ (by decide)]
  exact each_holdSlice_search _ ((hU.sliceRuns (by decide) (by decide) k).trans hRuns) hHeld

theorem setFlexoLock_shows {s : State} {k : Nat} (lock : Bool) (hRuns : s.sliceRuns k = true) :
    (s.setFlexoLock k lock).rdb (pgOtu k) OTU_STATUS_flexo_lock = lock := by
  unfold State.setFlexoLock State.wrbEv
  rw [if_pos hRuns]
  split
  next h => exact h
  next => rw [State.rdb_ev, State.rdb_wrb_same]

/-- dGIDM and dRPF of a running slice move by a persistence of three frames (R129). -/
theorem judgeFlexo_shows {s : State} {k : Nat} (f : FlexoFrame) (hRuns : s.sliceRuns k = true) :
    (s.judgeFlexo k f).rdb (pgOtu k) OTU_STATUS_flexo_lock = s.rdb (pgOtu k) OTU_STATUS_flexo_lock ∧
    (s.judgeFlexo k f).rdb (pgOtu k) OTU_STATUS_dgidm = (persist 3 (s.rdb (pgOtu k) OTU_STATUS_dgidm)
      (decide (s.ifF k OTU_IF.gid_chk = 1) && decide (f.gid ≠ s.ifF k OTU_IF.gid)) (s.slice k).gidRun).1 ∧
    (s.judgeFlexo k f).rdb (pgOtu k) OTU_STATUS_drpf =
      (persist 3 (s.rdb (pgOtu k) OTU_STATUS_drpf) f.rpf (s.slice k).rpfRun).1 := by
  have hRuns' (u : Slice → Slice) : (s.setSlice k u).sliceRuns k = true :=
    ((State.setSlice_fr s k u (MaskLe.refl _) (fr_refl _ s)).sliceRuns (by decide) (by decide) k).trans hRuns
  unfold State.judgeFlexo
  dsimp only
  rw [if_pos (hRuns' _)]
  refine ⟨?_, ?_, sliceDef_shows _ _ _ _ _ _ (by decide)⟩
  · unfold State.rdb
    rw [sliceDef_rd_place _ _ _ _ _ _ (by decide) (by decide), sliceDef_rd_place _ _ _ _ _ _ (by decide) (by decide),
      State.rd_setSlice]
  · unfold State.rdb
    rw [sliceDef_rd_place _ _ _ _ _ _ (by decide) (by decide)]
    exact sliceDef_shows _ _ _ _ _ _ (by decide)

/-- What one FlexO frame of a running slice shows. -/
theorem flexoFrame_shows {s : State} {d k : Nat} {f : FlexoFrame} {lock : Bool} (hk : k = (s.findInst d f).streamSlice d)
    (hRuns : s.sliceRuns k = true) (hPath : s.datapath (sliceRegion k) = true)
    (hLock : lock = (f.omfi && bit (s.lane (sliceLane k)).instLock (k % 4))) :
    (s.flexoFrame d f).rdb (pgOtu k) OTU_STATUS_flexo_lock = lock ∧
    (s.flexoFrame d f).rdb (pgOtu k) OTU_STATUS_dgidm = (if lock = true then (persist 3 (s.rdb (pgOtu k) OTU_STATUS_dgidm)
      (decide (s.ifF k OTU_IF.gid_chk = 1) && decide (f.gid ≠ s.ifF k OTU_IF.gid)) (s.slice k).gidRun).1
      else s.rdb (pgOtu k) OTU_STATUS_dgidm) ∧
    (s.flexoFrame d f).rdb (pgOtu k) OTU_STATUS_drpf = (if lock = true then
      (persist 3 (s.rdb (pgOtu k) OTU_STATUS_drpf) f.rpf (s.slice k).rpfRun).1 else s.rdb (pgOtu k) OTU_STATUS_drpf) ∧
    ((s.flexoFrame d f).sliceHeld k = true → (s.flexoFrame d f).rd (pgOtu k) OTU_STATUS_fstate = fSearch) := by
  have hFound : Fr fm_findInst s (s.findInst d f) := State.findInst_fr s d f (MaskLe.refl _) (fr_refl _ s)
  have hInst : ((s.findInst d f).lane (sliceLane k)).instLock = (s.lane (sliceLane k)).instLock := by
    unfold State.findInst
    split
    · exact setLane_keeps Lane.instLock s _ _ _ (fun _ => rfl)
    · rfl
  rw [flexoFrame_of_runs rfl hk ((hFound.sliceRuns (by decide) (by decide) k).trans hRuns)
    ((hFound.datapath (by decide) (by decide) _).trans hPath), hInst, ← hLock]
  dsimp only
  have hBoth : Fr (fm_findInst ||| fm_setFlexoLock) s ((s.findInst d f).setFlexoLock k lock) :=
    State.setFlexoLock_fr _ _ _ (by decide) (State.findInst_fr s d f (by decide) (fr_refl _ s))
  have hRuns' := (hBoth.sliceRuns (by decide) (by decide) k).trans hRuns
  have hShows := setFlexoLock_shows lock ((hFound.sliceRuns (by decide) (by decide) k).trans hRuns)
  generalize (s.findInst d f).setFlexoLock k lock = u at hBoth hRuns' hShows ⊢
  have hSpread (v : State) := spreadFlexo_fr k (MaskLe.refl _) (fr_refl _ v)
  have hGidm := hBoth.rdb (pgOtu k) OTU_STATUS_dgidm (by decide)
  have hRpf := hBoth.rdb (pgOtu k) OTU_STATUS_drpf (by decide)
  split
  · obtain ⟨hFlexo, hG, hR⟩ := judgeFlexo_shows f hRuns'
    refine ⟨?_, ?_, ?_, spreadFlexo_search ?_⟩
    · rw [(hSpread _).rdb _ _ (by decide), hFlexo, hShows]
    · rw [(hSpread _).rdb _ _ (by decide), hG, hGidm, hBoth.ifF (by decide), hBoth.ifF (by decide),
        hBoth.slice (by decide)]
    · rw [(hSpread _).rdb _ _ (by decide), hR, hRpf, hBoth.slice (by decide)]
    · exact ((State.judgeFlexo_fr u k f (MaskLe.refl _) (fr_refl _ u)).sliceRuns (by decide) (by decide) k).trans hRuns'
  · exact ⟨((hSpread u).rdb _ _ (by decide)).trans hShows, ((hSpread u).rdb _ _ (by decide)).trans hGidm,
      ((hSpread u).rdb _ _ (by decide)).trans hRpf, spreadFlexo_search hRuns'⟩

end Sys2Proof.Machine

namespace Sys2Proof.Machine

open Sys2Proof

/-! ### The outputs and the reply of the command before, which no insertion channel reads -/

theorem State.setEntry_fresh (s : State) (pg : Nat) (t : Tab) (e v : Nat) : s.fresh.setEntry pg t e v = (s.setEntry pg t e v).fresh := by
  unfold State.setEntry
  dsimp only
  split <;> rfl

theorem State.wr_fresh (s : State) (pg : Nat) (f : Field) (v : Nat) : s.fresh.wr pg f v = (s.wr pg f v).fresh := by
  unfold State.wr
  dsimp only
  split <;> rfl

theorem State.setPending_fresh (s : State) (pg : Nat) : s.fresh.setPending pg = (s.setPending pg).fresh := by
  unfold State.setPending
  split
  · rfl
  · dsimp only
    rw [State.pageOwner_fresh, apply_ite State.fresh]
    rfl

theorem State.record_fresh (s : State) (pg k : Nat) : s.fresh.record pg k = (s.record pg k).fresh := by
  unfold State.record
  dsimp only
  rw [apply_ite State.fresh, ← State.setPending_fresh]
  rfl

theorem State.ev_fresh (s : State) (pg k : Nat) : s.fresh.ev pg k = (s.ev pg k).fresh := by
  unfold State.ev
  split
  · rw [State.regionSpeaks_fresh, State.record_fresh, apply_ite State.fresh]
  · exact State.record_fresh s pg k

theorem State.report_fresh (s : State) (cls level src : Nat) : s.fresh.report cls level src = (s.report cls level src).fresh := by
  unfold State.report
  rw [apply_ite State.fresh]
  rfl

theorem State.tcount_fresh (s : State) (pg : Nat) (t : Tab) (e : Nat) (f : TField) (n : Nat) :
    s.fresh.tcount pg t e f n = (s.tcount pg t e f n).fresh := State.setEntry_fresh ..

theorem State.insCount_fresh (s : State) (r i : Nat) (f : TField) (n : Nat) : s.fresh.insCount r i f n = (s.insCount r i f n).fresh :=
  State.tcount_fresh ..

theorem State.setIns_fresh (s : State) (r i : Nat) (u : InsQ → InsQ) : s.fresh.setIns r i u = (s.setIns r i u).fresh := (rfl)
theorem State.ins_fresh (s : State) (r i : Nat) : s.fresh.ins r i = s.ins r i := (rfl)
theorem State.chF_fresh (s : State) (r dir i : Nat) (f : TField) : s.fresh.chF r dir i f = s.chF r dir i f := (rfl)

theorem State.showIns_fresh (s : State) (r i : Nat) : s.fresh.showIns r i = (s.showIns r i).fresh := by
  unfold State.showIns
  dsimp only
  rw [State.setEntry_fresh, State.ins_fresh]

theorem State.flushDone_fresh (s : State) (r : Nat) (who : List Nat) : s.fresh.flushDone r who = (s.flushDone r who).fresh := by
  have hEach : s.fresh.each who (fun s p => s.wr p OHQ_CMD_STATUS_code 0) =
      (s.each who (fun s p => s.wr p OHQ_CMD_STATUS_code 0)).fresh := List.foldl_hom State.fresh (fun s p => State.wr_fresh s p _ 0)
  unfold State.flushDone
  rw [hEach, State.ev_fresh]

theorem State.poisonMet_fresh (s : State) (r i : Nat) : s.fresh.poisonMet r 1 i = (s.poisonMet r 1 i).fresh := by
  unfold State.poisonMet
  simp only [if_neg Nat.one_ne_zero, State.insCount_fresh, State.ev_fresh, State.report_fresh]

theorem State.applyFlush_fresh (s : State) (r i : Nat) : s.fresh.applyFlush r 1 i = (s.applyFlush r 1 i).fresh := by
  unfold State.applyFlush
  simp only [if_neg Nat.one_ne_zero, State.ins_fresh]
  split
  · simp only [State.setIns_fresh, State.insCount_fresh, State.flushDone_fresh, State.showIns_fresh, apply_ite State.fresh]
  · rfl

theorem State.insSent_fresh (s : State) (r i : Nat) : s.fresh.insSent r i = (s.insSent r i).fresh := by
  unfold State.insSent State.evWhen
  simp only [State.setIns_fresh, State.insCount_fresh, State.ins_fresh, State.ev_fresh, apply_ite State.fresh]

theorem State.insBegin_fresh (s : State) (r i : Nat) : s.fresh.insBegin r i = (s.insBegin r i).fresh := by
  unfold State.insBegin
  rw [State.applyFlush_fresh]
  rfl

/-- A value with the state it leaves, the outputs and the reply of the command before gone. -/
def freshen {α : Type} (p : α × State) : α × State := (p.1, p.2.fresh)

theorem freshen_mk {α : Type} (a : α) (s : State) : freshen (a, s) = (a, s.fresh) := rfl
theorem freshen_fst {α : Type} (p : α × State) : (freshen p).1 = p.1 := rfl
theorem freshen_snd {α : Type} (p : α × State) : (freshen p).2 = p.2.fresh := rfl

theorem freshen_ite {α : Type} (c : Prop) [Decidable c] (p q : α × State) :
    freshen (if c then p else q) = if c then freshen p else freshen q := apply_ite ..

theorem State.hdlcByte_fresh (r i n : Nat) : ∀ s : State, s.fresh.hdlcByte r i n = freshen (s.hdlcByte r i n) := by
  induction n with
  | zero => exact fun _ => rfl
  | succ n ih =>
    intro s
    unfold State.hdlcByte
    simp only [State.ins_fresh, State.chF_fresh]
    split
    · simp only [freshen_mk, State.setIns_fresh]
    · simp only [State.setIns_fresh, State.applyFlush_fresh, State.ins_fresh, State.insBegin_fresh, State.insSent_fresh,
        State.poisonMet_fresh, State.insCount_fresh, ih, freshen_ite]
      split
      · split
        · simp only [freshen_ite]
        · simp only [freshen_ite]
      · simp only [freshen_mk]

theorem State.rawByte_fresh (r i n : Nat) : ∀ s : State, s.fresh.rawByte r i n = freshen (s.rawByte r i n) := by
  induction n with
  | zero => exact fun _ => rfl
  | succ n ih =>
    intro s
    unfold State.rawByte
    simp only [State.ins_fresh, State.chF_fresh]
    split
    · simp only [State.setIns_fresh, State.insSent_fresh, ← apply_ite State.fresh, freshen]
    · simp only [State.setIns_fresh, State.applyFlush_fresh, State.ins_fresh, State.insBegin_fresh, State.insSent_fresh,
        State.poisonMet_fresh, ← apply_ite State.fresh, ih, freshen_ite]
      split
      · split
        · rfl
        · rfl
      · simp only [freshen_mk]

theorem State.apsBytes_fresh (s : State) (r i : Nat) : s.fresh.apsBytes r i = freshen (s.apsBytes r i) := by
  unfold State.apsBytes
  simp only [State.applyFlush_fresh, State.ins_fresh]
  split
  · simp only [State.setIns_fresh, State.insSent_fresh, State.poisonMet_fresh, State.insCount_fresh, State.ins_fresh, freshen_ite]
    simp only [freshen_mk]
  · rfl

theorem State.takeBytes_fresh (r i n : Nat) : ∀ s : State, s.fresh.takeBytes r i n = freshen (s.takeBytes r i n) := by
  induction n with
  | zero => exact fun _ => rfl
  | succ n ih =>
    intro s
    have hMode : s.fresh.chMode r 1 i = s.chMode r 1 i := State.chF_fresh ..
    unfold State.takeBytes
    simp only [hMode, State.ins_fresh, State.hdlcByte_fresh, State.rawByte_fresh, ← freshen_ite]
    generalize (if s.chMode r 1 i = mHdlc then _ else _) = p
    simp only [freshen_mk, freshen_fst, freshen_snd, ih]

theorem State.insBytes_fresh (s : State) (r i n : Nat) : s.fresh.insBytes r i n = freshen (s.insBytes r i n) := by
  have hMode : s.fresh.chMode r 1 i = s.chMode r 1 i := State.chF_fresh ..
  unfold State.insBytes
  simp only [hMode, State.apsBytes_fresh, State.takeBytes_fresh, ← freshen_ite]
  generalize (if s.chMode r 1 i = mAps then _ else _) = p
  simp only [freshen_mk, freshen_fst, freshen_snd, State.showIns_fresh]

theorem State.gccChannel_fresh (s : State) (d dir : Nat) : s.fresh.gccChannel d dir = s.gccChannel d dir := by
  have hValid (r i : Nat) : s.fresh.chValid r dir i = s.chValid r dir i := by
    unfold State.chValid State.chB
    rw [State.chF_fresh]
  unfold State.gccChannel
  simp only [State.rdb_fresh, State.rd_fresh, hValid, State.chF_fresh]

theorem otucMembers_fresh (s : State) (lead : Nat) : s.fresh.otucMembers lead = s.otucMembers lead := otucMembers_of_live rfl lead

theorem gccConcat_fresh (s : State) (d : Nat) : s.fresh.gccConcat d = s.gccConcat d := by
  have hLive : s.fresh.live = s.live := rfl
  unfold State.gccConcat
  rw [sliceMember_of_live hLive, ifF_of_live hLive]

theorem freshen_map {α β : Type} (g : α → β) (p : α × State) : Prod.map g id (freshen p) = freshen (Prod.map g id p) := rfl

/-- GCC0 bytes that one channel of an OTUCn gives, placed among those of its members. -/
def State.gccGiven (s : State) (d : Nat) (i : Option Nat) (place : List Nat → List (List Nat)) : List (List Nat) × State :=
  match i with
  | some i => Prod.map place id (s.insBytes (d / 128) i 2)
  | none => (place [0, 0], s)

theorem gccGiven_none (s : State) (d : Nat) (place : List Nat → List (List Nat)) : s.gccGiven d none place = (place [0, 0], s) := rfl

theorem gccGiven_fresh (s : State) (d : Nat) (i : Option Nat) (place : List Nat → List (List Nat)) :
    s.fresh.gccGiven d i place = freshen (s.gccGiven d i place) := by
  cases i with
  | none => rfl
  | some i => exact (congrArg (Prod.map place id) (State.insBytes_fresh ..)).trans (freshen_map place _)

theorem gccOut_eq (s : State) (lead : Nat) : s.gccOut lead =
    if s.gccConcat lead = true then
      s.gccGiven lead (s.gccChannel lead 1) (fun l => (s.otucMembers lead).map (fun d => if d = lead then l else [0, 0]))
    else (s.otucMembers lead).foldl (fun a d => a.2.gccGiven d (a.2.gccChannel d 1) (fun l => a.1 ++ [l])) ([], s) := by
  unfold State.gccOut
  extract_lets ms
  refine if_congr Iff.rfl ?_ ?_
  · cases s.gccChannel lead 1 with
    | none => simp only [gccGiven_none, ite_self, ms]
    | some i => rfl
  · refine congrArg (fun f => List.foldl f _ _) (funext fun a => funext fun d => ?_)
    cases a.2.gccChannel d 1 with
    | none => rfl
    | some i => rfl

/-- The GCC0 bytes of a frame do not depend on what the command before put out. -/
theorem State.gccOut_fresh (s : State) (lead : Nat) : s.fresh.gccOut lead = freshen (s.gccOut lead) := by
  rw [gccOut_eq, gccOut_eq, gccConcat_fresh, otucMembers_fresh, State.gccChannel_fresh, gccGiven_fresh, freshen_ite]
  refine if_congr Iff.rfl rfl (List.foldl_hom (init := ([], s)) freshen (fun a d => ?_))
  rw [← gccGiven_fresh, ← State.gccChannel_fresh]
  rfl

end Sys2Proof.Machine

namespace Sys2Proof.Machine

open Sys2Proof

set_option exponentiation.threshold 16384

/-! ### What a frame of an OTUCn is made of (R150 to R154) -/

section
variable {M : Nat} {s t : State} (h : Fr M s t) (hLive : M.testBit 31 = false)
include h hLive

theorem Fr.otucRpf (hHeld : ∀ f ∈ [OTU_STATUS_flexo_lock, OTU_STATUS_dgidm, OTU_STATUS_dpmm], M.testBit (512 + f.place) = false)
    (lead : Nat) : t.otucRpf lead = s.otucRpf lead := by
  simp only [List.forall_mem_cons] at hHeld
  obtain ⟨hLock, hGidm, hPmm, -⟩ := hHeld
  unfold State.otucRpf
  rw [otucMembers_of_live (h.live hLive), funext (h.sliceHeld hLock hGidm hPmm)]

theorem Fr.otucAis (hBlk : M.testBit 30 = false) (hForce : M.testBit (512 + PAGE_CTRL_force_safe.place) = false)
    (hRegions : mRegions M = true) (hMode : M.testBit (512 + MODE_current.place) = false) (d : Nat) : t.otucAis d = s.otucAis d := by
  unfold State.otucAis
  rw [h.rdb _ _ hForce, h.rdb _ _ hForce, h.blk hBlk, sliceLead_of_live (h.live hLive), h.region hRegions, h.mode hMode]

theorem Fr.otucRow1 (hSlices : M.testBit 35 = false) (hPoints : M.testBit 36 = false)
    (hBits : ∀ f ∈ [OTU_TX_FORCE_inv_bip, OTU_STATUS_diae, OTU_STATUS_ssf, OTU_TX_FORCE_force_bdi, OTU_TX_FORCE_force_iae],
      M.testBit (512 + f.place) = false) (d mfas : Nat) (gcc0 : List Nat) : t.otucRow1 d mfas gcc0 = s.otucRow1 d mfas gcc0 := by
  simp only [List.forall_mem_cons] at hBits
  obtain ⟨hBip, hIae, hSsf, hBdi, hForceIae, -⟩ := hBits
  have hTti : t.eff (pgOtu d) T_OTU_TTI_TX 0 = s.eff (pgOtu d) T_OTU_TTI_TX 0 := eff_of_live (h.live hLive) rfl _ _
  unfold State.otucRow1
  simp only [h.slice hSlices, h.point hPoints, hTti, h.rdb _ _ hBip, h.rdb _ _ hIae, h.rdb _ _ hSsf, h.rdb _ _ hBdi, h.rdb _ _ hForceIae]

end

/-! ### The frame of one member -/

/-- Before its frame leaves, a member uses up its pending BEI and moves its record. -/
def fm_otucMember : Nat := mFld OTU_BEI_CLIP ||| fm_setPoint ||| fm_setSlice

section
variable {s : State} {d : Nat} (mfas : Nat) (gcc0 : List Nat) (computed : Nat) (rpf : Bool)

theorem otucSend_of_run (hRun : s.rdb (pgOtu d) PAGE_CTRL_run = true) : ∃ u, Fr fm_otucMember s u ∧
    (∀ k, (u.slice k).txMfas = (s.slice k).txMfas) ∧ (u.point (secPoint d)).beiPend = 0 ∧ s.otucSend d mfas gcc0 computed rpf =
      u.emit (.otucFrame d (u.slicePos d + 1) (u.ifF d OTU_IF.gid) rpf (s.otucRow1 d mfas gcc0) (u.otucAis d)) := by
  unfold State.otucSend
  rw [if_pos hRun]
  refine ⟨_, State.setSlice_fr _ _ _ (by decide) (State.setPoint_fr _ _ _ (by decide)
    (State.count_fr _ _ _ _ (by decide) (fr_refl _ s))), fun k => ?_, ?_, rfl⟩
  · exact (setSlice_keeps Slice.txMfas _ _ _ (by intro _; rfl)).trans (congrArg Slice.txMfas (State.slice_wr ..))
  · rw [State.point_setSlice, State.point_setPoint_same]

theorem otucSend_out_frame (hRun : s.rdb (pgOtu d) PAGE_CTRL_run = true) : (s.otucSend d mfas gcc0 computed rpf).out =
    s.out ++ [.otucFrame d (s.slicePos d + 1) (s.ifF d OTU_IF.gid) rpf (s.otucRow1 d mfas gcc0) (s.otucAis d)] := by
  obtain ⟨u, hU, -, -, hEq⟩ := otucSend_of_run mfas gcc0 computed rpf hRun
  rw [hEq, State.emit_out, hU.out (by decide), slicePos_of_live (hU.live (by decide)), hU.ifF (by decide),
    hU.otucAis (by decide) (by decide) (by decide) (by decide) (by decide)]

theorem otucSend_of_idle (hRun : s.rdb (pgOtu d) PAGE_CTRL_run = false) : s.otucSend d mfas gcc0 computed rpf =
    s.emit (.unusedInstance d (s.slicePos d + 1) (s.ifF d OTU_IF.gid) rpf) := by
  unfold State.otucSend
  rw [if_neg (by simp [hRun])]

theorem otucSend_out_prefix : s.out <+: (s.otucSend d mfas gcc0 computed rpf).out := by
  cases hRun : s.rdb (pgOtu d) PAGE_CTRL_run
  · rw [otucSend_of_idle _ _ _ _ hRun, State.emit_out]
    exact List.prefix_append _ _
  · rw [otucSend_out_frame _ _ _ _ hRun]
    exact List.prefix_append _ _

theorem otucSend_txMfas (k : Nat) : ((s.otucSend d mfas gcc0 computed rpf).slice k).txMfas = (s.slice k).txMfas := by
  cases hRun : s.rdb (pgOtu d) PAGE_CTRL_run
  · rw [otucSend_of_idle _ _ _ _ hRun]
    rfl
  · obtain ⟨u, -, hMfas, -, hEq⟩ := otucSend_of_run mfas gcc0 computed rpf hRun
    rw [hEq]
    exact hMfas k

theorem otucSend_beiPend (hRun : s.rdb (pgOtu d) PAGE_CTRL_run = true) :
    ((s.otucSend d mfas gcc0 computed rpf).point (secPoint d)).beiPend = 0 := by
  obtain ⟨u, -, -, hBei, hEq⟩ := otucSend_of_run mfas gcc0 computed rpf hRun
  rw [hEq]
  exact hBei

end

/-! ### The frames of all members -/

theorem each_out_prefix {α : Type} {f : State → α → State} (h : ∀ s x, s.out <+: (f s x).out) (s : State) (l : List α) :
    s.out <+: (s.each l f).out :=
  List.foldlRecOn l f (motive := fun t => s.out <+: t.out) (List.prefix_refl _) (fun t ht x _ => ht.trans (h t x))

/-- The turn of one member, with its position counted from 0. -/
def State.memberTurn (mfas : Nat) (gcc : List (List Nat)) (computed : List Nat) (rpf : Bool) (s : State) (y : Nat × Nat) : State :=
  s.otucSend y.2 mfas (gcc.getD y.1 [0, 0]) (computed.getD y.1 0 % 256) rpf

/-- The members of an OTUCn send their frames, in position order. -/
def State.sendMembers (s : State) (ms : List Nat) (mfas : Nat) (gcc : List (List Nat)) (computed : List Nat) (rpf : Bool) : State :=
  s.each ((List.range ms.length).zip ms) (State.memberTurn mfas gcc computed rpf)

section
variable {s : State} {ms : List Nat} (mfas : Nat) (gcc : List (List Nat)) (computed : List Nat) (rpf : Bool)

theorem sendMembers_txMfas (k : Nat) : ((s.sendMembers ms mfas gcc computed rpf).slice k).txMfas = (s.slice k).txMfas :=
  each_keeps (fun t => (t.slice k).txMfas) _ _ _ (fun _ _ => otucSend_txMfas _ _ _ _ k)

/-- Each member's turn comes in a state that has kept what a frame is made of, and what it puts out stays. -/
theorem sendMembers_turn {d : Nat} (hd : d ∈ ms) : ∃ u i, Fr fm_otucSend s u ∧
    (u.otucSend d mfas (gcc.getD i [0, 0]) (computed.getD i 0 % 256) rpf).out <+: (s.sendMembers ms mfas gcc computed rpf).out := by
  obtain ⟨⟨i, k⟩, hTurn, rfl⟩ : ∃ y ∈ (List.range ms.length).zip ms, y.2 = d := by
    rw [← List.mem_map, List.map_snd_zip (by simp)]
    exact hd
  obtain ⟨pre, post, hSplit⟩ := List.append_of_mem hTurn
  refine ⟨s.each pre (State.memberTurn mfas gcc computed rpf), i, fr_each (fr_refl _ s) (fun s y h => State.otucSend_fr s y.2 _ _ _ _ (MaskLe.refl _) h), ?_⟩
  delta State.sendMembers
  rw [hSplit]
  unfold State.each
  rw [List.foldl_append, List.foldl_cons]
  exact each_out_prefix (fun _ _ => otucSend_out_prefix _ _ _ _) _ _

theorem sendMembers_frame {d : Nat} (hd : d ∈ ms) (hRun : s.rdb (pgOtu d) PAGE_CTRL_run = true) : ∃ row,
    .otucFrame d (s.slicePos d + 1) (s.ifF d OTU_IF.gid) rpf row (s.otucAis d) ∈ (s.sendMembers ms mfas gcc computed rpf).out ∧
    row.getD 6 256 = mfas := by
  obtain ⟨u, i, hU, hOut⟩ := sendMembers_turn mfas gcc computed rpf hd
  refine ⟨u.otucRow1 d mfas (gcc.getD i [0, 0]), hOut.subset ?_, rfl⟩
  rw [otucSend_out_frame _ _ _ _ ((hU.rdb _ _ (by decide)).trans hRun), slicePos_of_live (hU.live (by decide)),
    hU.ifF (by decide),
    hU.otucAis (by decide) (by decide) (by decide) (by decide) (by decide)]
  exact List.mem_append_right _ (List.mem_singleton_self _)

theorem sendMembers_unused {d : Nat} (hd : d ∈ ms) (hRun : s.rdb (pgOtu d) PAGE_CTRL_run = false) :
    .unusedInstance d (s.slicePos d + 1) (s.ifF d OTU_IF.gid) rpf ∈ (s.sendMembers ms mfas gcc computed rpf).out := by
  obtain ⟨u, i, hU, hOut⟩ := sendMembers_turn mfas gcc computed rpf hd
  refine hOut.subset ?_
  rw [otucSend_of_idle _ _ _ _ ((hU.rdb _ _ (by decide)).trans hRun), State.emit_out,
    slicePos_of_live (hU.live (by decide)), hU.ifF (by decide)]
  exact List.mem_append_right _ (List.mem_singleton_self _)

end

/-! ### The slices beyond position n, and the lanes -/

theorem putLevels_out_prefix (s : State) (n : Nat) (levels : List Nat) : s.out <+: (s.putLevels n levels).out := by
  unfold State.putLevels
  split
  · exact List.prefix_append _ _
  · exact List.prefix_refl _

theorem sendLane_out_prefix (s : State) (n : Nat) (own : List Nat) : s.out <+: (s.sendLane n own).out := by
  unfold State.sendLane
  extract_lets l
  generalize hData : (if l.genEff then _ else _) = p
  have hOut : p.2.out = s.out := by
    rw [← hData]
    split <;> rfl
  obtain ⟨data, t⟩ := p
  dsimp only at hOut ⊢
  rw [← hOut]
  split
  · split
    · exact putLevels_out_prefix (t.setLane n _) _ _
    · exact List.prefix_refl _
  · split
    · exact List.prefix_refl _
    · exact putLevels_out_prefix _ _ _

theorem otucLine_out_prefix (s : State) (lead : Nat) (words : List (List Nat)) : s.out <+: (s.otucLine lead words).out := by
  refine each_out_prefix (fun s x => ?_) s _
  dsimp only
  split
  · exact sendLane_out_prefix _ _ _
  · exact List.prefix_refl _

/-- After the members' frames an OTUCn sends the unused ones of its lanes, and its lanes their codewords (R125). -/
def State.finishTx (s : State) (lead : Nat) (words : List (List Nat)) (rpf : Bool) : State :=
  (s.each (s.otucUnused lead) (fun s d => s.emit (.unusedInstance d 0 (s.ifF lead OTU_IF.gid) rpf))).otucLine lead words

def fm_finishTx : Nat := fm_emit ||| fm_otucLine

theorem finishTx_fr {M : Nat} {s0 s : State} (lead : Nat) (words : List (List Nat)) (rpf : Bool) (hM : MaskLe fm_finishTx M)
    (hs : Fr M s0 s) : Fr M s0 (s.finishTx lead words rpf) :=
  State.otucLine_fr _ _ _ (MaskLe.trans (by decide) hM)
    (fr_each hs (fun s _ h => State.emit_fr s _ (MaskLe.trans (by decide) hM) h))

theorem finishTx_out_prefix (s : State) (lead : Nat) (words : List (List Nat)) (rpf : Bool) : s.out <+: (s.finishTx lead words rpf).out :=
  (each_out_prefix (fun _ _ => List.prefix_append _ _) s _).trans (otucLine_out_prefix _ _ _)

end Sys2Proof.Machine

namespace Sys2Proof.Machine

open Sys2Proof

set_option exponentiation.threshold 16384

/-! ### OTUC_TX_FRAME (R151) -/

/-- `lead` leads an OTUCn, and its block and the chip let it send. -/
abbrev State.mayTransmit (s : State) (lead : Nat) : Prop :=
  lead < 1024 ∧ s.sliceMember lead = true ∧ s.sliceLead lead = lead ∧ s.region (sliceRegion lead) ≠ rgnReset ∧ s.mode ≠ modeCall ∧
    s.mode ≠ modeDark

/-- The state in which an OTUCn with a running member sends: its GCC0 bytes have been taken. -/
def State.gccTaken (s : State) (lead : Nat) : State := (s.gccOut lead).2.fresh

def fm_gccTaken : Nat := fm_gccOut ||| fm_fresh

theorem gccTaken_fr (s : State) (lead : Nat) : Fr fm_gccTaken s (s.gccTaken lead) :=
  State.fresh_fr _ (by decide) (State.gccOut_fr s lead (by decide) (fr_refl _ s))

theorem gccTaken_otucRpf (s : State) (lead : Nat) : (s.gccTaken lead).otucRpf lead = s.otucRpf lead :=
  (gccTaken_fr s lead).otucRpf (by decide) (by decide) lead

theorem fresh_otucRpf (s : State) (lead : Nat) : s.fresh.otucRpf lead = s.otucRpf lead :=
  (State.fresh_fr s (MaskLe.refl _) (fr_refl _ s)).otucRpf (by decide) (by decide) lead

section
variable {s : State} {lead : Nat} (x : OtucTx) (hMay : s.mayTransmit lead)
include hMay

theorem mayTransmit_fresh : s.fresh.mayTransmit lead := by
  obtain ⟨hLt, hMember, hLead, hRegion, hCall, hDark⟩ := hMay
  have hLive : s.fresh.live = s.live := rfl
  exact ⟨hLt, (sliceMember_of_live hLive lead).trans hMember, (sliceLead_of_live hLive lead).trans hLead, hRegion, hCall, hDark⟩

theorem otucTxFrame_runs (hRuns : (s.otucMembers lead).any (fun d => s.rdb (pgOtu d) PAGE_CTRL_run) = true) :
    s.fresh.otucTxFrame lead x = (((s.gccTaken lead).sendMembers (s.otucMembers lead) (s.slice lead).txMfas (s.gccOut lead).1 x.computed
      (s.otucRpf lead)).finishTx lead x.words (s.otucRpf lead)).setSlice lead (fun x => { x with txMfas := (x.txMfas + 1) % 256 }) := by
  unfold State.otucTxFrame
  rw [if_pos (mayTransmit_fresh hMay), otucMembers_fresh]
  extract_lets runs mfas
  have hOn : runs = true := hRuns
  have hTaken : (if runs then s.fresh.gccOut lead else ([], s.fresh)) = ((s.gccOut lead).1, s.gccTaken lead) := by
    rw [if_pos hOn, State.gccOut_fresh]
    rfl
  rw [hTaken]
  dsimp only
  rw [if_pos hOn, gccTaken_otucRpf]
  rfl

theorem otucTxFrame_idle (hRuns : (s.otucMembers lead).any (fun d => s.rdb (pgOtu d) PAGE_CTRL_run) = false) :
    s.fresh.otucTxFrame lead x = (s.fresh.sendMembers (s.otucMembers lead) (s.slice lead).txMfas [] x.computed (s.otucRpf lead)).finishTx
      lead x.words (s.otucRpf lead) := by
  unfold State.otucTxFrame
  rw [if_pos (mayTransmit_fresh hMay), otucMembers_fresh]
  extract_lets runs mfas
  have hOff : ¬ runs = true := Bool.eq_false_iff.1 hRuns
  rw [if_neg hOff]
  dsimp only
  rw [if_neg hOff, fresh_otucRpf]
  rfl

/-- The count of an OTUCn with a running member advances by one. -/
theorem otucTxFrame_counts (hRuns : (s.otucMembers lead).any (fun d => s.rdb (pgOtu d) PAGE_CTRL_run) = true) :
    ((s.fresh.otucTxFrame lead x).slice lead).txMfas = ((s.slice lead).txMfas + 1) % 256 := by
  have hFinish (t : State) (words : List (List Nat)) (rpf : Bool) : (t.finishTx lead words rpf).slice lead = t.slice lead :=
    (finishTx_fr lead words rpf (MaskLe.refl _) (fr_refl _ t)).slice (by decide) lead
  rw [otucTxFrame_runs x hMay hRuns, State.slice_setSlice_same, hFinish, sendMembers_txMfas,
    (gccTaken_fr s lead).slice (by decide)]

/-- Every running member sends a frame with the lead's count, every other member one marked unused (R125). -/
theorem otucTxFrame_members (hRuns : (s.otucMembers lead).any (fun d => s.rdb (pgOtu d) PAGE_CTRL_run) = true) :
    (∀ d, d ∈ s.otucMembers lead → s.rdb (pgOtu d) PAGE_CTRL_run = true → ∃ row, .otucFrame d (s.slicePos d + 1) (s.ifF d OTU_IF.gid)
      (s.otucRpf lead) row (s.otucAis d) ∈ (s.fresh.otucTxFrame lead x).out ∧ row.getD 6 256 = (s.slice lead).txMfas) ∧
    (∀ d, d ∈ s.otucMembers lead → s.rdb (pgOtu d) PAGE_CTRL_run = false → .unusedInstance d (s.slicePos d + 1) (s.ifF d OTU_IF.gid)
      (s.otucRpf lead) ∈ (s.fresh.otucTxFrame lead x).out) := by
  have hG := gccTaken_fr s lead
  have hRun (d : Nat) := hG.rdb (pgOtu d) PAGE_CTRL_run (by decide)
  have hPos (d : Nat) := slicePos_of_live (hG.live (by decide)) d
  have hGid (d : Nat) := hG.ifF (by decide) d OTU_IF.gid
  have hAis (d : Nat) := hG.otucAis (by decide) (by decide) (by decide) (by decide) (by decide) d
  have hStays := (finishTx_out_prefix ((s.gccTaken lead).sendMembers (s.otucMembers lead) (s.slice lead).txMfas (s.gccOut lead).1 x.computed
      (s.otucRpf lead)) lead x.words (s.otucRpf lead)).subset
  rw [otucTxFrame_runs x hMay hRuns]
  refine ⟨fun d hd hOn => ?_, fun d hd hOff => ?_⟩
  · obtain ⟨row, hOut, hMfas⟩ := sendMembers_frame (s.slice lead).txMfas (s.gccOut lead).1 x.computed (s.otucRpf lead) hd
      ((hRun d).trans hOn)
    rw [hPos, hGid, hAis] at hOut
    exact ⟨row, hStays hOut, hMfas⟩
  · have hOut := sendMembers_unused (s.slice lead).txMfas (s.gccOut lead).1 x.computed (s.otucRpf lead) hd ((hRun d).trans hOff)
    rw [hPos, hGid] at hOut
    exact hStays hOut

end

/-! ### An OTUC1 -/

theorem sendMembers_lone (s : State) (d mfas : Nat) (gcc : List (List Nat)) (computed : List Nat) (rpf : Bool) :
    s.sendMembers [d] mfas gcc computed rpf = s.otucSend d mfas (gcc.getD 0 [0, 0]) (computed.getD 0 0 % 256) rpf := rfl

theorem take_one_of_prefix {α : Type} {a : α} {l : List α} (h : [a] <+: l) : l.take 1 = [a] := (List.prefix_iff_eq_take.1 h).symm

section
variable {s : State} {lead : Nat} (x : OtucTx) (hMay : s.mayTransmit lead) (hLone : s.otucMembers lead = [lead])
include hMay hLone

/-- The one member of a running OTUC1 sends its frame first, and uses up its pending BEI. -/
theorem otucTxFrame_lone_frame (hRun : s.rdb (pgOtu lead) PAGE_CTRL_run = true) :
    (s.fresh.otucTxFrame lead x).out.take 1 = [.otucFrame lead (s.slicePos lead + 1) (s.ifF lead OTU_IF.gid) (s.otucRpf lead)
      (s.otucRow1 lead (s.slice lead).txMfas ((s.gccOut lead).1.getD 0 [0, 0])) (s.otucAis lead)] ∧
    ((s.fresh.otucTxFrame lead x).slice lead).txMfas = ((s.slice lead).txMfas + 1) % 256 ∧
    ((s.fresh.otucTxFrame lead x).point (secPoint lead)).beiPend = 0 := by
  have hRuns : (s.otucMembers lead).any (fun d => s.rdb (pgOtu d) PAGE_CTRL_run) = true := by simp [hLone, hRun]
  have hG := gccTaken_fr s lead
  have hRun' := (hG.rdb (pgOtu lead) PAGE_CTRL_run (by decide)).trans hRun
  refine ⟨take_one_of_prefix ?_, otucTxFrame_counts x hMay hRuns, ?_⟩ <;> rw [otucTxFrame_runs x hMay hRuns, hLone, sendMembers_lone]
  · have hOut := otucSend_out_frame (s.slice lead).txMfas ((s.gccOut lead).1.getD 0 [0, 0]) (x.computed.getD 0 0 % 256) (s.otucRpf lead) hRun'
    have hNone : (s.gccTaken lead).out = [] := rfl
    rw [hNone, List.nil_append, slicePos_of_live (hG.live (by decide)), hG.ifF (by decide),
      hG.otucRow1 (by decide) (by decide) (by decide) (by decide),
      hG.otucAis (by decide) (by decide) (by decide) (by decide) (by decide)] at hOut
    rw [← hOut]
    exact finishTx_out_prefix _ _ _ _
  · exact (congrArg Point.beiPend ((finishTx_fr _ _ _ (MaskLe.refl _) (fr_refl _ _)).point (by decide) _)).trans
      (otucSend_beiPend _ _ _ _ hRun')

/-- The one member of an OTUC1 that does not run puts out first that it is unused. -/
theorem otucTxFrame_lone_unused (hRun : s.rdb (pgOtu lead) PAGE_CTRL_run = false) : (s.fresh.otucTxFrame lead x).out.take 1 =
    [.unusedInstance lead (s.slicePos lead + 1) (s.ifF lead OTU_IF.gid) (s.otucRpf lead)] := by
  have hRuns : (s.otucMembers lead).any (fun d => s.rdb (pgOtu d) PAGE_CTRL_run) = false := by simp [hLone, hRun]
  have hLive : s.fresh.live = s.live := rfl
  have hOut := congrArg State.out (otucSend_of_idle (s.slice lead).txMfas (([] : List (List Nat)).getD 0 [0, 0])
    (x.computed.getD 0 0 % 256) (s.otucRpf lead) (s := s.fresh) (d := lead) hRun)
  have hNone : s.fresh.out = [] := rfl
  rw [State.emit_out, hNone, List.nil_append, slicePos_of_live hLive, ifF_of_live hLive] at hOut
  refine take_one_of_prefix ?_
  rw [otucTxFrame_idle x hMay hRuns, hLone, sendMembers_lone, ← hOut]
  exact finishTx_out_prefix _ _ _ _

end

/-- CORRUPT_FAS arms at least one corrupted FAS, and writes no register (R152). -/
theorem corruptFas_arms (s : State) (d : Nat) : ((s.corruptFas d).slice d).corruptLeft = max 1 (s.rd (pgOtu d) OTU_TX_FORCE_fas) ∧
    ∀ pg f, (s.corruptFas d).rd pg f = s.rd pg f :=
  ⟨congrArg Slice.corruptLeft (State.slice_setSlice_same ..), fun _ _ => State.rd_setSlice ..⟩

/-- The slice that a stream belongs to does not depend on what the command before put out. -/
theorem streamSlice_findInst_fresh (s : State) (d : Nat) (f : FlexoFrame) :
    (s.fresh.findInst d f).streamSlice d = (s.findInst d f).streamSlice d := by
  have hFound : s.fresh.findInst d f = (s.findInst d f).fresh := by
    unfold State.findInst
    rw [apply_ite State.fresh]
    rfl
  rw [hFound]
  rfl

/-- Settles O24: a FlexO frame by what its judgement shows (`flexoFrame_shows`); OTUC_TX_FRAME by the state in which each
member's turn comes, and by what is put out staying (`otucTxFrame_members`, `otucTxFrame_lone_frame`, `otucTxFrame_lone_unused`). -/
theorem otuFlexoAndTransmit : Obligations.OtuFlexoAndTransmit := by
  unfold Obligations.OtuFlexoAndTransmit
  refine ⟨fun s d f k lock hRun hk _ hRuns hPath hLock => ?_, fun s lead x gcc hRun hd hMember hLead hRegion hCall hDark hLone hOn hGcc => ?_,
    fun s lead x hRun hd hMember hLead hRegion hCall hDark hRuns => ?_,
    fun s lead x hRun hd hMember hLead hRegion hCall hDark hLone hOff => ?_, fun s d hRun => ?_⟩
  · exact ⟨_, run_eq_next (fun s => s.flexoFrame d f) hRun, flexoFrame_shows (s := s.fresh)
      (hk.trans (streamSlice_findInst_fresh s d f).symm) hRuns hPath hLock⟩
  · subst hGcc
    exact ⟨_, run_eq_next (fun s => s.otucTxFrame lead x) hRun,
      otucTxFrame_lone_frame x ⟨hd, hMember, hLead, hRegion, hCall, hDark⟩ hLone hOn⟩
  · exact ⟨_, run_eq_next (fun s => s.otucTxFrame lead x) hRun, otucTxFrame_counts x ⟨hd, hMember, hLead, hRegion, hCall, hDark⟩ hRuns,
      otucTxFrame_members x ⟨hd, hMember, hLead, hRegion, hCall, hDark⟩ hRuns⟩
  · exact ⟨_, run_eq_next (fun s => s.otucTxFrame lead x) hRun,
      otucTxFrame_lone_unused x ⟨hd, hMember, hLead, hRegion, hCall, hDark⟩ hLone hOff⟩
  · exact ⟨_, run_eq_next (fun s => s.corruptFas d) hRun, corruptFas_arms s.fresh d⟩

end Sys2Proof.Machine

namespace Sys2Proof.Machine

open Sys2Proof

-- One declaration after another, as in the laws: more threads would not fit into the check's memory.
set_option Elab.async false

/-! ### Two memories that agree outside a range of addresses -/

/-- Two memories hold the same byte at every address but those of the `n` bytes from `a` on. -/
def SameOutside (a n : Nat) (m m' : List Host.Cell) : Prop := ∀ x, (x < a ∨ a + n ≤ x) → memRead m' x = memRead m x

section
variable {a n : Nat} {m m' : List Host.Cell}

theorem SameOutside.refl : SameOutside a n m m := fun _ _ => rfl

theorem SameOutside.write {b : Nat} {v : Byte} (h : SameOutside a n m m') (hLow : a ≤ b) (hHigh : b < a + n) :
    SameOutside a n m (memWrite m' b v) :=
  fun x hx => (memRead_memWrite_ne m' b x v (by omega)).trans (h x hx)

theorem SameOutside.writeBytes {b : Nat} {l : List Byte} (h : SameOutside a n m m') (hLow : a ≤ b) (hHigh : b + l.length ≤ a + n) :
    SameOutside a n m (memWriteBytes m' b l) :=
  fun x hx => (memRead_memWriteBytes l m' b x (by omega)).trans (h x hx)

theorem SameOutside.ite {m₁ m₂ : List Host.Cell} {c : Prop} [Decidable c] (h₁ : SameOutside a n m m₁) (h₂ : SameOutside a n m m₂) :
    SameOutside a n m (if c then m₁ else m₂) := by
  split
  · exact h₁
  · exact h₂

theorem SameOutside.foldl {α : Type} {l : List α} {g : List Host.Cell → α → List Host.Cell} (h : SameOutside a n m m')
    (hStep : ∀ u, SameOutside a n m u → ∀ x ∈ l, SameOutside a n m (g u x)) : SameOutside a n m (l.foldl g m') :=
  List.foldlRecOn l g h hStep

end

theorem length_bytesLe (n v : Nat) : (bytesLe n v).length = n := by rw [bytesLe, List.length_map, List.length_range]

/-! ### The rings (file 08, R287, R288) -/

/-- What is written lies in the ring block of the segment's group: the cleared tail, the 512 bytes of the segment's place, its status
byte, the group's start and its snapshot. -/
theorem ringWrite_sameOutside (s : State) (x : HbmWr) :
    SameOutside (s.wgBlock x.w (8 * (x.key / 239))) blockBytes s.mem (s.ringWrite x).mem := by
  have hSize : blockBytes = 0x1DF00 := rfl
  have hPlace : x.key % 239 < 239 := Nat.mod_lt _ (by decide)
  have hPayload : (if x.ok then x.payload.take 512 else []).length ≤ 512 := by
    split
    · exact List.length_take_le _ _
    · exact Nat.zero_le _
  unfold State.ringWrite
  extract_lets a i fg m₀ m₁ m₂ m₃ m₄ m₅
  have hCleared : SameOutside a blockBytes m₀ m₁ :=
    .ite .refl (SameOutside.refl.writeBytes (by omega) (by rw [List.length_replicate]; omega))
  have hSegment : SameOutside a blockBytes m₀ m₂ := hCleared.writeBytes (by omega) (by omega)
  have hStatus : SameOutside a blockBytes m₀ m₃ := hSegment.write (by omega) (by omega)
  have hStart : SameOutside a blockBytes m₀ m₄ := hStatus.writeBytes (by omega) (by rw [length_bytesLe]; omega)
  exact .ite (hStart.writeBytes (by omega) (by rw [length_bytesLe]; omega)) hStart

/-! ### The PM store (file 05, R187, R188) -/

/-- The address of the record area of second `sec` in the PM store. -/
def State.recordArea (s : State) (sec : Nat) : Nat :=
  s.rd pgWng WNG_PMS_BASE_base / 2 ^ 24 * 2 ^ 24 + sec % (s.rd pgWng WNG_PMS_CFG_depth_m1 + 1) * 0x1000000

/-- The records of the 524,288 points, of 32 bytes each, fill the 16 MiB of the area. -/
theorem pmWrite_sameOutside (s : State) (f : PmFrame) : SameOutside (s.recordArea f.sec) 0x1000000 s.mem (s.pmWrite f).mem := by
  unfold State.pmWrite
  dsimp only
  refine SameOutside.foldl .refl (fun u hu m hm => hu.writeBytes (Nat.le_add_right ..) ?_)
  have hPoint := List.mem_range.1 hm
  rw [length_bytesLe]
  show s.recordArea f.sec + 32 * m + 32 ≤ _
  omega

/-- What PM_SECOND does with the oldest closed second before the bins take it: it leaves the queue, and its records, its number and
pm_second stand. -/
def State.storeSecond (s : State) (f : PmFrame) (rest : List PmFrame) : State :=
  ((State.pmWrite { s with pmPend := rest } f).wr pgWng WNG_PMS_LAST_sec f.sec).ev pgWng 24

theorem pmSecond_of_waiting {s : State} {f : PmFrame} {rest : List PmFrame} (h : s.pmPend = f :: rest) :
    s.pmSecond = (s.storeSecond f rest).binSecond f := by
  unfold State.pmSecond
  rw [h]
  rfl

/-- The rest of PM_SECOND after the records are written. -/
theorem pmSecond_fr {s : State} {f : PmFrame} {rest : List PmFrame} (h : s.pmPend = f :: rest) :
    Fr (fm_binSecond ||| fm_ev ||| mFld WNG_PMS_LAST_sec) (State.pmWrite { s with pmPend := rest } f) s.pmSecond := by
  rw [pmSecond_of_waiting h]
  exact State.binSecond_fr _ f (by decide +kernel) (State.ev_fr _ _ _ (by decide +kernel)
    (State.wr_fr _ _ _ _ (by decide +kernel) (fr_refl _ _)))

theorem pmSecond_pmPend {s : State} {f : PmFrame} {rest : List PmFrame} (h : s.pmPend = f :: rest) : s.pmSecond.pmPend = rest :=
  (pmSecond_fr h).pmPend (by decide +kernel)

theorem pmSecond_sameOutside {s : State} {f : PmFrame} {rest : List PmFrame} (h : s.pmPend = f :: rest) :
    SameOutside (s.recordArea f.sec) 0x1000000 s.mem s.pmSecond.mem := by
  rw [(pmSecond_fr h).mem (by decide +kernel)]
  exact pmWrite_sameOutside { s with pmPend := rest } f

/-! ### The log mirror (file 15, R523, R527) -/

/-- The address of the mirror line of sequence number `q`. -/
def State.mirrorLine (s : State) (q : Nat) : Nat := s.rd pgLog LOG_MIRROR_BASE_base / 2 ^ 30 * 2 ^ 30 + 32 * (q % 2 ^ 25)

theorem mirrorWrite_sameOutside (s : State) (q v : Nat) : SameOutside (s.mirrorLine q) 32 s.mem (s.mirrorWrite q v).mem := by
  unfold State.mirrorWrite
  split
  · extract_lets a u
    have hHead : u.mem = s.mem := (State.wr_fr s _ _ _ (MaskLe.refl _) (fr_refl _ s)).mem (by decide +kernel)
    split
    · have hDrop := State.record_fr (M := fm_record ||| mFld LOG_MIRROR_DROP) _ pgLog 5 (by decide +kernel)
        (State.count_fr u pgLog LOG_MIRROR_DROP 1 (by decide +kernel) (fr_refl _ u))
      rw [hDrop.mem (by decide +kernel), hHead]
      exact .refl
    · rw [← hHead]
      exact SameOutside.refl.writeBytes (Nat.le_refl _) (by rw [length_bytesLe]; exact Nat.le_refl _)
  · exact .refl

theorem logStore_sameOutside (s : State) (q v n : Nat) : SameOutside (s.mirrorLine q) 32 s.mem (s.logStore q v n).mem := by
  unfold State.logStore
  split
  next x _ =>
    have hFr := State.setEntry_fr s pgLog T_LOG_ENTRY x v (MaskLe.refl _) (fr_refl _ s)
    have hLine : (s.setEntry pgLog T_LOG_ENTRY x v).mirrorLine q = s.mirrorLine q := by unfold State.mirrorLine; rw [State.rd_setEntry]
    rw [← hFr.mem (by decide +kernel), ← hLine]
    exact mirrorWrite_sameOutside _ q v
  next _ =>
    rw [(State.ghostWrite_fr s v n ghostBoth (MaskLe.refl _) (fr_refl _ s)).mem (by decide +kernel)]
    exact .refl

theorem logPut_sameOutside (s : State) (r : LogRec) :
    SameOutside (s.mirrorLine (s.rd pgLog LOG_HEAD_seq)) 32 s.mem (s.logPut r).mem := by
  unfold State.logPut
  extract_lets q
  rw [(State.wr_fr _ pgLog LOG_HEAD_seq (q + 1) (MaskLe.refl _) (fr_refl _ _)).mem (by decide +kernel)]
  exact logStore_sameOutside s q _ _

theorem bankDueAt_of_otherCycle {s : State} (h : s.col.bankDue.1 ≠ s.fab) (slot : Nat) : s.bankDueAt slot = false :=
  decide_eq_false (fun hDue => h (congrArg Prod.fst hDue))

/-- An entry whose access does not fail is stored once, by `logPut`; what follows it touches no memory. -/
theorem logWrite_sameOutside {s : State} (h : s.col.bankDue.1 ≠ s.fab) :
    SameOutside (s.mirrorLine (s.rd pgLog LOG_HEAD_seq)) 32 s.mem (s.logWrite false).mem := by
  unfold State.logWrite
  split
  next => exact .refl
  next r rest _ =>
    extract_lets q u spoilt v
    have hStored : SameOutside (s.mirrorLine q) 32 s.mem v.mem := by
      have hPut : SameOutside (s.mirrorLine q) 32 s.mem (u.logPut r).mem := logPut_sameOutside u r
      dsimp only [v]
      split
      next x _ =>
        rw [if_neg (by rw [bankDueAt_of_otherCycle (s := u) h]; decide)]
        exact hPut
      next => exact hPut
    have hTail := State.coalEnd_fr (M := fm_coalEnd ||| fm_fillPlaces) _ (by decide +kernel)
      (State.fillPlaces_fr v (by decide +kernel) (fr_refl _ v))
    rw [hTail.mem (by decide +kernel)]
    exact hStored

theorem logWriteStep_sameOutside {s : State} (h : s.col.bankDue.1 ≠ s.fab) :
    SameOutside (s.mirrorLine (s.rd pgLog LOG_HEAD_seq)) 32 s.mem ((s.logWriteStep false).fltEnd).mem := by
  have hTail := State.fltEnd_fr (M := fm_fltEnd ||| fm_bankRaise) _ (by decide +kernel)
    (State.bankRaise_fr (s.logWrite false) (s.rdb pgLog LOG_STATUS_ghost_only) (by decide +kernel) (fr_refl _ _))
  unfold State.logWriteStep
  rw [hTail.mem (by decide +kernel)]
  exact logWrite_sameOutside h

/-- Settles O8, each clause by what its writer touches: LOG_WRITE the mirror line (`logWriteStep_sameOutside`), PM_SECOND the record area
(`pmSecond_sameOutside`), a segment its ring block (`ringWrite_sameOutside`). -/
theorem hbmBytes : Obligations.HbmBytes := by
  unfold Obligations.HbmBytes
  refine ⟨fun s hRun hBank => ?_, fun s f rest hRun hWaits => ?_, ringWrite_sameOutside⟩
  · exact ⟨_, run_eq_next (fun s => (s.logWriteStep false).fltEnd) hRun, logWriteStep_sameOutside (s := s.fresh) hBank⟩
  · exact ⟨_, run_eq_next State.pmSecond hRun, pmSecond_pmPend (s := s.fresh) hWaits, pmSecond_sameOutside (s := s.fresh) hWaits⟩

end Sys2Proof.Machine

namespace Sys2Proof.Machine

open Sys2Proof

-- One declaration after another, as in the laws: more threads would not fit into the check's memory.
set_option Elab.async false

/-! ### The defects of a point in the cycle of its adoption (file 05, R168, R176) -/

/-- The row of an ODUC1 context on the OTUC1 of slice 0 with a monitored PM point. -/
def oduc1Row : Nat := putBits (putBits (putBits 0 CTX.valid.hi CTX.valid.lo 1) CTX.odu_type.hi CTX.odu_type.lo 8) CTX.mp_mode.hi CTX.mp_mode.lo 2

/-- The chip in NATIVE with region 0 ACTIVE; the context of `oduc1Row` is in effect, and its PM point starts in this DP cycle. -/
def justAdoptedState : State :=
  let s := (State.reset.wr pgMode MODE_current modeNative).wr pgMode (MODE_REGIONS_state 0) rgnActive
  ((s.setEntry (pgOdi 0) T_CTX 0 oduc1Row).adoptEntry (pgOdi 0) T_CTX 0).pointStart 0 0 0 1

/-- A frame whose STAT says AIS. -/
def aisFrame : OduFrame :=
  { fasOk := true, mfas := 3, pos := [⟨0, [⟨7, 0, 0, 0, false⟩]⟩], psi := 0, msi := none, gcc1 := [0, 0], gcc2 := [0, 0], aps := [0, 0, 0, 0] }

/-- Two frames with AIS have come in that cycle. -/
def twoAisState : State := (justAdoptedState.oduFrameSink 0 0 aisFrame).oduFrameSink 0 0 aisFrame

/-- Refutes O26: the first clause says of every ODUCn context that a frame moves dAIS by the persistence. In the DP cycle of a point's
adoption a defect change is discarded (R168): in `twoAisState` the third AIS frame of that cycle completes the run, and dAIS stays 0. -/
theorem not_oduContexts : ¬ Obligations.OduContexts := by
  unfold Obligations.OduContexts
  rintro ⟨hPersist, -⟩
  have hRun : twoAisState.dom = .run := by decide +kernel
  obtain ⟨t, hExec, hAis, -⟩ := hPersist twoAisState 0 0 aisFrame ⟨0, [⟨7, 0, 0, 0, false⟩]⟩ { rAis := 2 } 0 0 0 2 hRun
    (by decide) (by decide +kernel) (by decide +kernel) (by decide +kernel) (by decide +kernel) (by decide +kernel) rfl (by decide +kernel)
  have hClear : t.mpBit 0 0 MP_STATUS.dais = false := by
    rw [Host.Outcome.next.inj (hExec.symm.trans (run_eq_next (fun s => s.oduFrameSink 0 0 aisFrame) hRun))]
    decide +kernel
  rw [hClear] at hAis
  exact absurd hAis (by decide +kernel)

end Sys2Proof.Machine

namespace Sys2Proof.Machine

open Sys2Proof

-- One declaration after another, as in the laws: more threads would not fit into the check's memory.
set_option Elab.async false

/-! ### The second boundary (file 05, R186; file 12, R423) -/

/-- What the closing of the points' records may change. -/
def fm_closePoints : Nat := fm_closeCtx ||| fm_closeSection ||| fm_closeRest ||| fm_refreshBlock

/-- The points close their records, which leaves the count of the seconds alone; then it rises. -/
theorem closeSecond_secCount (s : State) (sec quality : Nat) : (s.closeSecond sec quality).secCount = s.secCount + 1 := by
  unfold State.closeSecond
  extract_lets f up
  split
  next s₁ recs₁ h₁ =>
  split
  next s₂ recs₂ h₂ =>
  split
  next s₃ recs₃ h₃ =>
  extract_lets s₄ s₅ s₆
  have hCtxs : Fr fm_closePoints s s₁ := by
    rw [show s₁ = _ from (congrArg Prod.fst h₁).symm]
    exact State.closeAll_fr _ _ _ _ (fun s x h => State.closeCtx_fr s f _ _ _ (by decide +kernel) h) (fr_refl _ s)
  have hSections : Fr fm_closePoints s s₂ := by
    rw [show s₂ = _ from (congrArg Prod.fst h₂).symm]
    exact State.closeAll_fr _ _ _ _ (fun s d h => State.closeSection_fr s f d (by decide +kernel) h) hCtxs
  have hRest : Fr fm_closePoints s s₃ := by
    rw [show s₃ = _ from (congrArg Prod.fst h₃).symm]
    exact State.closeAll_fr _ _ _ _ (fun s m h => State.closeRest_fr s f m (by decide +kernel) h) hSections
  have hPoints : Fr fm_closePoints s s₄ := fr_each hRest (fun s B h => State.refreshBlock_fr s B (by decide +kernel) h)
  have hCount : s₅.secCount = s.secCount + 1 := congrArg (· + 1) (hPoints.secCount (by decide +kernel))
  have hOverrun : Fr (fm_ev ||| mFld WNG_PMS_STATUS_overrun) s₅ s₆ :=
    fr_ite (fr_refl _ _) (State.ev_fr _ _ _ (by decide +kernel) (State.countSat_fr _ _ _ _ (by decide +kernel) (fr_refl _ _)))
  split
  · exact (hOverrun.secCount (by decide +kernel)).trans hCount
  · exact hCount

/-- The time base at the boundary: the next second, 0 ns, and a free fraction. -/
def State.enterSecond (s : State) : State :=
  { (s.free 48).2 with tb := { sec := (s.tb.sec + 1) % 2 ^ 48, ns := 0, frac := (s.free 48).1 % incrNom } }

/-- What follows at a boundary at which no set_sec waits. -/
def State.plainSecond (s : State) (sec quality : Nat) : State := (((s.closeSecond sec quality).wtrSecond).ppsOutEdge 0).ppsOutEdge 1

/-- What a boundary without a set_sec may change. -/
def fm_plainSecond : Nat := fm_closeSecond ||| fm_wtrSecond ||| fm_ppsOutEdge

theorem plainSecond_fr (s : State) (sec quality : Nat) : Fr fm_plainSecond s (s.plainSecond sec quality) :=
  State.ppsOutEdge_fr _ 1 (by decide +kernel) (State.ppsOutEdge_fr _ 0 (by decide +kernel) (State.wtrSecond_fr _ (by decide +kernel)
    (State.closeSecond_fr s sec quality (by decide +kernel) (fr_refl _ s))))

theorem plainSecond_secCount (s : State) (sec quality : Nat) : (s.plainSecond sec quality).secCount = s.secCount + 1 := by
  have hFr := State.ppsOutEdge_fr (M := fm_wtrSecond ||| fm_ppsOutEdge) _ 1 (by decide +kernel) (State.ppsOutEdge_fr _ 0 (by decide +kernel)
    (State.wtrSecond_fr (s.closeSecond sec quality) (by decide +kernel) (fr_refl _ _)))
  exact (hFr.secCount (by decide +kernel)).trans (closeSecond_secCount s sec quality)

theorem atSecond_of_noSet {s : State} (sec quality : Nat) (h : s.tim.setSec = none) :
    s.atSecond sec quality = s.plainSecond sec quality := by
  have hFr := State.wtrSecond_fr (M := fm_plainSecond) _ (by decide +kernel)
    (State.closeSecond_fr s sec quality (by decide +kernel) (fr_refl _ s))
  have hTim : ((s.closeSecond sec quality).wtrSecond).tim.setSec = none := by rw [hFr.tim (by decide +kernel), h]
  unfold State.atSecond
  dsimp only
  rw [hTim]
  rfl

theorem stepNow_of_noStep {s : State} (h : s.tim.stepDue = none) : s.stepNow = s := by
  unfold State.stepNow
  rw [h]

theorem secondBoundary_of_noStep {s : State} (hSet : s.tim.setSec = none) (hStep : s.tim.stepDue = none) :
    s.secondBoundary = s.enterSecond.plainSecond s.tb.sec (s.rd pgTim TIM_STATUS_quality) := by
  have hTim : (s.enterSecond.plainSecond s.tb.sec (s.rd pgTim TIM_STATUS_quality)).tim.stepDue = none := by
    rw [(plainSecond_fr ..).tim (by decide +kernel)]
    exact hStep
  show (s.enterSecond.atSecond s.tb.sec (s.rd pgTim TIM_STATUS_quality)).stepNow = _
  rw [atSecond_of_noSet (s := s.enterSecond) _ _ hSet, stepNow_of_noStep hTim]

theorem secondBoundary_shows {s : State} (hSet : s.tim.setSec = none) (hStep : s.tim.stepDue = none) :
    s.secondBoundary.tb.sec = (s.tb.sec + 1) % 2 ^ 48 ∧ s.secondBoundary.tb.ns = 0 ∧ s.secondBoundary.secCount = s.secCount + 1 := by
  rw [secondBoundary_of_noStep hSet hStep, (plainSecond_fr ..).tb (by decide +kernel)]
  exact ⟨rfl, rfl, plainSecond_secCount ..⟩

/-! ### A second in the PM store (file 05, R188) -/

theorem pmSecond_shows {s : State} {f : PmFrame} {rest : List PmFrame} (h : s.pmPend = f :: rest) :
    s.pmSecond.rd pgWng WNG_PMS_LAST_sec = f.sec % 2 ^ 48 ∧ s.pmSecond.hasEvt pgWng 24 = true := by
  have hBins := State.binSecond_fr (s.storeSecond f rest) f (MaskLe.refl _) (fr_refl fm_binSecond _)
  rw [pmSecond_of_waiting h]
  refine ⟨?_, hBins.kEvt (by decide +kernel) _ _ (hasEvt_ev_chip _ _ _ rfl)⟩
  rw [hBins.rd pgWng WNG_PMS_LAST_sec (by decide +kernel)]
  exact (State.rd_ev ..).trans (State.rd_wr_same ..)

/-! ### The tracker takes a change (file 05, R191) -/

/-- What ends every change of the tracker's state: its event, the alarm of the region's personality, and the occupancy shown. -/
def State.epiNote (s : State) (r : Nat) (c : EpiChange) (k : Nat) : State :=
  ((s.ev (pgEpi r) k).alarmMoved (r / 2) c.point c.src c.kind).epiShow r

/-- What the end of a change may alter. -/
def fm_epiNote : Nat := fm_ev ||| fm_epiShow

theorem epiNote_fr (s : State) (r : Nat) (c : EpiChange) (k : Nat) : Fr fm_epiNote s (s.epiNote r c k) :=
  State.epiShow_fr _ r (by decide +kernel) (State.alarmMoved_fr _ _ _ _ _ (by decide +kernel)
    (State.ev_fr s _ k (by decide +kernel) (fr_refl _ s)))

theorem epiNote_recorded {s : State} {r : Nat} (c : EpiChange) (k : Nat) (hr : r < 8) (hSpeaks : s.regionSpeaks r = true) :
    (s.epiNote r c k).hasEvt (pgEpi r) k = true := by
  have hFr := State.epiShow_fr (M := fm_epiNote) _ r (by decide +kernel) (State.alarmMoved_fr _ (r / 2) c.point c.src c.kind (by decide +kernel)
    (fr_refl _ (s.ev (pgEpi r) k)))
  exact hFr.kEvt (by decide +kernel) _ _ (hasEvt_ev_in _ _ _ r (pageRegion_epi r hr) hSpeaks)

/-- The tracker's queue without the change at its front. -/
def State.dropChange (s : State) (r : Nat) (q : List EpiChange) : State := { s with epi := s.epi.upd {} r (fun x => { x with queue := q }) }

theorem episodeChange_of_queue {s : State} {r : Nat} {c : EpiChange} {q : List EpiChange} (h : (s.epi.get {} r).queue = c :: q) :
    s.episodeChange r = (s.dropChange r q).epiApply r c := by
  unfold State.episodeChange
  rw [h]
  rfl

theorem dropChange_tracker (s : State) (r : Nat) (q : List EpiChange) : (s.dropChange r q).epi.get {} r = { s.epi.get {} r with queue := q } := by
  unfold State.dropChange
  rw [SMap.get_upd_same]

theorem dropChange_epiOcc (s : State) (r : Nat) (q : List EpiChange) : (s.dropChange r q).epiOcc r = s.epiOcc r := by
  unfold State.epiOcc
  rw [dropChange_tracker]
  rfl

/-- A declared defect without an episode opens one while the tracker has room (R191). -/
theorem epiApply_opens {s : State} {r : Nat} {c : EpiChange} (hOn : c.on = true) (hNew : s.epiFind r c = none)
    (hLoose : (s.epi.get {} r).loose.any (fun y => decide (epiKey y = epiKey c)) = false)
    (hAgg : s.rdb (pgEpi r) EPI_STATUS_aggregated = false) (hRoom : s.epiOcc r + 1 < 8193) :
    s.epiApply r c = (s.epiOpen r c c.time false).epiNote r c 0 := by
  unfold State.epiApply
  dsimp only
  rw [if_pos hOn, hNew, hLoose, hAgg, if_neg (by decide), if_neg (by decide), if_neg (by omega)]
  rfl

/-- A cleared defect closes its episode (R191). -/
theorem epiApply_closes {s : State} {r e : Nat} {c : EpiChange} (hOff : c.on = false) (hOpen : s.epiFind r c = some e) :
    s.epiApply r c = (s.epiClose r e c.time c.deconf).epiNote r c 1 := by
  unfold State.epiApply
  dsimp only
  rw [if_neg (by rw [hOff]; decide), hOpen]
  rfl

theorem epiOpen_counts (s : State) (r : Nat) (c : EpiChange) (t : Stamp) (late : Bool) :
    (s.epiOpen r c t late).rd (pgEpi r) EPI_NEXT_ID_id = (s.rd (pgEpi r) EPI_NEXT_ID_id + 1) % 2 ^ 32 ∧
    (s.epiOpen r c t late).rd (pgEpi r) EPI_STATUS_tracked = (s.rd (pgEpi r) EPI_STATUS_tracked + 1) % 2 ^ 14 := by
  unfold State.epiOpen
  dsimp only
  constructor
  · rw [State.rd_wr_place _ (by decide), State.rd_wr_same]
    rfl
  · rw [State.rd_wr_same, State.rd_wr_place _ (by decide), State.rd_setEntry]
    rfl

theorem epiClose_frees (s : State) (r e : Nat) (t : Stamp) (deconf : Bool) : (s.epiClose r e t deconf).entry (pgEpi r) T_EPI_OPEN e = 0 := by
  unfold State.epiClose
  dsimp only
  rw [State.entry_wr, State.entry_setEntry_same, Nat.zero_mod]

theorem episodeChange_opens {s : State} {r : Nat} {c : EpiChange} {q : List EpiChange} (hr : r < 8) (hSpeaks : s.regionSpeaks r = true)
    (hQueue : (s.epi.get {} r).queue = c :: q) (hOn : c.on = true) (hNew : s.epiFind r c = none)
    (hLoose : (s.epi.get {} r).loose.any (fun y => decide (epiKey y = epiKey c)) = false)
    (hAgg : s.rdb (pgEpi r) EPI_STATUS_aggregated = false) (hRoom : s.epiOcc r + 1 < 8193) :
    ((s.episodeChange r).epi.get {} r).queue = q ∧
    (s.episodeChange r).rd (pgEpi r) EPI_NEXT_ID_id = (s.rd (pgEpi r) EPI_NEXT_ID_id + 1) % 2 ^ 32 ∧
    (s.episodeChange r).rd (pgEpi r) EPI_STATUS_tracked = (s.rd (pgEpi r) EPI_STATUS_tracked + 1) % 2 ^ 14 ∧
    (s.episodeChange r).hasEvt (pgEpi r) 0 = true := by
  let u := s.dropChange r q
  have hOpened : s.episodeChange r = (u.epiOpen r c c.time false).epiNote r c 0 := by
    rw [episodeChange_of_queue hQueue]
    exact epiApply_opens hOn hNew (by rw [dropChange_tracker]; exact hLoose) hAgg (by rw [dropChange_epiOcc]; exact hRoom)
  have hNote := epiNote_fr (u.epiOpen r c c.time false) r c 0
  have hOpen := State.epiOpen_fr u r c c.time false (MaskLe.refl _) (fr_refl fm_epiOpen u)
  obtain ⟨hId, hTracked⟩ := epiOpen_counts u r c c.time false
  rw [hOpened]
  refine ⟨?_, (hNote.rd _ _ (by decide +kernel)).trans hId, (hNote.rd _ _ (by decide +kernel)).trans hTracked, ?_⟩
  · rw [hNote.epi (by decide +kernel), hOpen.epi (by decide +kernel), dropChange_tracker]
  · exact epiNote_recorded c 0 hr ((hOpen.regionSpeaks (by decide +kernel) r).trans hSpeaks)

theorem episodeChange_closes {s : State} {r e : Nat} {c : EpiChange} {q : List EpiChange} (hr : r < 8) (hSpeaks : s.regionSpeaks r = true)
    (hQueue : (s.epi.get {} r).queue = c :: q) (hOff : c.on = false) (hOpen : s.epiFind r c = some e) :
    ((s.episodeChange r).epi.get {} r).queue = q ∧ (s.episodeChange r).entry (pgEpi r) T_EPI_OPEN e = 0 ∧
    (s.episodeChange r).hasEvt (pgEpi r) 1 = true := by
  let u := s.dropChange r q
  have hClosed : s.episodeChange r = (u.epiClose r e c.time c.deconf).epiNote r c 1 := by
    rw [episodeChange_of_queue hQueue]
    exact epiApply_closes hOff hOpen
  have hNote := epiNote_fr (u.epiClose r e c.time c.deconf) r c 1
  have hClose := State.epiClose_fr u r e c.time c.deconf (MaskLe.refl _) (fr_refl fm_epiClose u)
  rw [hClosed]
  refine ⟨?_, (hNote.entry _ _ _ (by decide +kernel)).trans (epiClose_frees ..), ?_⟩
  · rw [hNote.epi (by decide +kernel), hClose.epi (by decide +kernel), dropChange_tracker]
  · exact epiNote_recorded c 1 hr ((hClose.regionSpeaks (by decide +kernel) r).trans hSpeaks)

/-! ### The end of aggregation (file 05, R194) -/

/-- A defect present without an episode gets one at `t`. -/
def State.openLoose (r : Nat) (t : Stamp) (s : State) (c : EpiChange) : State :=
  (s.tput (pgEpi r) T_EPI_AGG c.kind EPI_AGG.present (s.tget (pgEpi r) T_EPI_AGG c.kind EPI_AGG.present - 1)).epiOpen r c t true

/-- Every defect of the region present without an episode has got one, with its event. -/
def State.looseOpened (s : State) (r : Nat) : State :=
  let loose := (s.epi.get {} r).loose
  let u := s.each loose (State.openLoose r s.now)
  State.evWhen { u with epi := u.epi.upd {} r (fun x => { x with loose := [] }) } (!loose.isEmpty) (pgEpi r) 4

/-- What the opening of the loose defects' episodes may change. -/
def fm_looseOpened : Nat := mTab T_EPI_AGG ||| fm_epiOpen ||| fm_ev ||| 2 ^ 34

theorem looseOpened_fr (s : State) (r : Nat) : Fr fm_looseOpened s (s.looseOpened r) :=
  State.evWhen_fr _ _ _ _ (by decide +kernel) (fr_mk_epi (by decide +kernel) (fr_each (fr_refl _ s)
    (fun s c h => State.epiOpen_fr _ r c _ true (by decide +kernel) (State.tput_fr s _ _ _ _ _ (by decide +kernel) h))))

theorem looseOpened_loose (s : State) (r : Nat) : ((s.looseOpened r).epi.get {} r).loose = [] := by
  unfold State.looseOpened
  extract_lets loose u
  rw [(State.evWhen_fr _ _ _ _ (MaskLe.refl _) (fr_refl fm_evWhen _)).epi (by decide +kernel)]
  dsimp only
  rw [SMap.get_upd_same]

/-- Aggregation is over: the flag falls, with its event, the occupancy and the record of it. -/
def State.leaveAggregation (s : State) (r : Nat) : State :=
  let s := ((s.wrb (pgEpi r) EPI_STATUS_aggregated false).ev (pgEpi r) 3).epiShow r
  s.logRec 0x06 0 (srcRegion r) (s.epiOcc r)

theorem aggregatedOff_of_low {s : State} {r : Nat} (hAgg : s.rdb (pgEpi r) EPI_STATUS_aggregated = true) (hLow : s.epiOcc r < 7168)
    (hQueue : (s.epi.get {} r).queue = []) : s.aggregatedOff r = (s.looseOpened r).leaveAggregation r := by
  unfold State.aggregatedOff
  dsimp only
  rw [if_pos (by simp [hAgg, hLow, hQueue])]
  rfl

theorem leaveAggregation_fr (s : State) (r : Nat) :
    Fr (fm_epiShow ||| fm_logRec) ((s.wrb (pgEpi r) EPI_STATUS_aggregated false).ev (pgEpi r) 3) (s.leaveAggregation r) :=
  State.logRec_fr _ _ _ _ _ (by decide +kernel) (State.epiShow_fr _ r (by decide +kernel) (fr_refl _ _))

theorem leaveAggregation_shows {s : State} {r : Nat} (hr : r < 8) (hSpeaks : s.regionSpeaks r = true) :
    (s.leaveAggregation r).rdb (pgEpi r) EPI_STATUS_aggregated = false ∧ (s.leaveAggregation r).hasEvt (pgEpi r) 3 = true ∧
    (s.leaveAggregation r).epi = s.epi := by
  have hFr := leaveAggregation_fr s r
  have hFlag := State.ev_fr (M := fm_ev ||| mFld EPI_STATUS_aggregated) _ (pgEpi r) 3 (by decide +kernel)
    (State.wrb_fr s (pgEpi r) EPI_STATUS_aggregated false (by decide +kernel) (fr_refl _ s))
  have hMay : (s.wrb (pgEpi r) EPI_STATUS_aggregated false).regionSpeaks r = true := by
    rw [regionSpeaks_wrb_place (by decide +kernel), hSpeaks]
  refine ⟨?_, hFr.kEvt (by decide +kernel) _ _ (hasEvt_ev_in _ _ _ r (pageRegion_epi r hr) hMay),
    (hFr.epi (by decide +kernel)).trans (hFlag.epi (by decide +kernel))⟩
  rw [hFr.rdb _ _ (by decide +kernel), State.rdb_ev, State.rdb_wrb_same]

theorem aggregatedOff_shows {s : State} {r : Nat} (hr : r < 8) (hSpeaks : s.regionSpeaks r = true)
    (hAgg : s.rdb (pgEpi r) EPI_STATUS_aggregated = true) (hLow : s.epiOcc r < 7168) (hQueue : (s.epi.get {} r).queue = []) :
    (s.aggregatedOff r).rdb (pgEpi r) EPI_STATUS_aggregated = false ∧ (s.aggregatedOff r).hasEvt (pgEpi r) 3 = true ∧
    ((s.aggregatedOff r).epi.get {} r).loose = [] := by
  have hOpened := looseOpened_fr s r
  obtain ⟨hFlag, hEvent, hEpi⟩ := leaveAggregation_shows hr ((hOpened.regionSpeaks (by decide +kernel) r).trans hSpeaks)
  rw [aggregatedOff_of_low hAgg hLow hQueue]
  exact ⟨hFlag, hEvent, by rw [hEpi, looseOpened_loose]⟩

theorem State.tb_after (s u : State) : (s.after u).tb = u.tb := rfl
theorem State.secCount_after (s u : State) : (s.after u).secCount = u.secCount := rfl
theorem State.pmPend_after (s u : State) : (s.after u).pmPend = u.pmPend := rfl
theorem State.epi_after (s u : State) : (s.after u).epi = u.epi := rfl
theorem State.entry_after (s u : State) (pg : Nat) (b : Tab) (e : Nat) : (s.after u).entry pg b e = u.entry pg b e := rfl

/-- Settles O27, clause by clause: the boundary (`secondBoundary_shows`), a stored second (`pmSecond_pmPend`, `pmSecond_shows`), a change
that opens or closes an episode (`episodeChange_opens`, `episodeChange_closes`), and the end of aggregation (`aggregatedOff_shows`). -/
theorem secondsAndEpisodes : Obligations.SecondsAndEpisodes := by
  unfold Obligations.SecondsAndEpisodes
  refine ⟨fun s hRun hSet hStep => ⟨_, run_eq_next State.secondBoundary hRun, ?_⟩,
    fun s f rest hRun hWaits => ⟨_, run_eq_next State.pmSecond hRun, ?_⟩,
    fun s r c q hRun hr hSpeaks hQueue hOn hNew hLoose hAgg hRoom => ⟨_, run_eq_next (fun s => s.episodeChange r) hRun, ?_⟩,
    fun s r c q e hRun hr hSpeaks hQueue hOff hOpen => ⟨_, run_eq_next (fun s => s.episodeChange r) hRun, ?_⟩,
    fun s r hRun hr hSpeaks hAgg hLow hQueue => ⟨_, run_eq_next (fun s => s.aggregatedOff r) hRun, ?_⟩⟩
  · rw [State.tb_after, State.secCount_after]
    exact secondBoundary_shows (s := s.fresh) hSet hStep
  · rw [State.pmPend_after, State.rd_after, State.hasEvt_after]
    exact ⟨pmSecond_pmPend (s := s.fresh) hWaits, pmSecond_shows (s := s.fresh) hWaits⟩
  · rw [State.epi_after, State.rd_after, State.rd_after, State.hasEvt_after]
    exact episodeChange_opens (s := s.fresh) hr hSpeaks hQueue hOn hNew hLoose hAgg hRoom
  · rw [State.epi_after, State.entry_after, State.hasEvt_after]
    exact episodeChange_closes (s := s.fresh) hr hSpeaks hQueue hOff hOpen
  · rw [State.epi_after, State.rdb_after, State.hasEvt_after]
    exact aggregatedOff_shows (s := s.fresh) hr hSpeaks hAgg hLow hQueue

end Sys2Proof.Machine

namespace Sys2Proof.Machine

open Sys2Proof

set_option exponentiation.threshold 16384
set_option Elab.async false

/-! ### A field of a table under writes elsewhere in its table -/

theorem State.entry_of_key {pg pg' e e' : Nat} {T : Tab} (hReset : T.resets = []) (h : tkey pg T e = tkey pg' T e') (s : State) :
    s.entry pg T e = s.entry pg' T e' := by
  simp [State.entry, Tab.resetEntry, hReset, h]

/-- A put into one field of a table leaves every field apart from it alone, in every row of every page. -/
theorem State.tget_tput_apart {T : Tab} {f g : TField} (s : State) (pg pg' e e' v : Nat) (hReset : T.resets = []) (hf : f.lo ≤ f.hi)
    (hg : g.lo ≤ g.hi) (hRow : g.hi < 128 * T.rows) (hApart : f.hi < g.lo ∨ g.hi < f.lo) :
    (s.tput pg' T e' f v).tget pg T e g = s.tget pg T e g := by
  by_cases hKey : tkey pg T e = tkey pg' T e'
  · have hSame (u : State) : u.tget pg T e g = u.tget pg' T e' g :=
      congrArg (fun x => getBits x g.hi g.lo) (State.entry_of_key hReset hKey u)
    rw [hSame, hSame, State.tget_tput_ne s pg' T e' f g v hf hg hRow hApart]
  · unfold State.tget State.tput
    rw [State.entry_setEntry_key _ _ _ _ _ _ _ _ hKey]

theorem State.tgetb_tputb_same (s : State) (pg : Nat) (T : Tab) (e : Nat) (f : TField) (b : Bool) (h : f.lo ≤ f.hi)
    (hRow : f.hi < 128 * T.rows) : (s.tputb pg T e f b).tgetb pg T e f = b := by
  have hWide : 1 < 2 ^ (f.hi - f.lo + 1) := Nat.one_lt_two_pow (by omega)
  unfold State.tputb State.tgetb
  rw [State.tget_tput_same _ _ _ _ _ _ h hRow]
  cases b <;> simp [b2n, Nat.mod_eq_of_lt hWide]

theorem tget_epi (s : State) (m : SMap Epi) (pg : Nat) (T : Tab) (e : Nat) (g : TField) :
    State.tget { s with epi := m } pg T e g = s.tget pg T e g := rfl

theorem State.tget_setCtx (s : State) (B d k : Nat) (u : Ctx → Ctx) (pg : Nat) (T : Tab) (e : Nat) (g : TField) :
    (s.setCtx B d k u).tget pg T e g = s.tget pg T e g := rfl

theorem State.tget_pointSeen (s : State) (m flags pg : Nat) (T : Tab) (e : Nat) (g : TField) :
    (s.pointSeen m flags).tget pg T e g = s.tget pg T e g := rfl

/-! ### What follows a defect leaves a client's row alone but for its replacement (file 06, R221, R227) -/

/-- A field of the clients' status or counts on a page that is no tracker's, apart from what a replacement writes. -/
structure ClientField (pg : Nat) (T : Tab) (g : TField) : Prop where
  page : ∀ r, pg ≠ pgEpi r
  table : T = T_CLI_STATUS ∧ (CLI_STATUS.replacing.hi < g.lo ∨ g.hi < CLI_STATUS.replacing.lo) ∨
    T = T_CLI_CNT ∧ (CLI_CNT.repl.hi < g.lo ∨ g.hi < CLI_CNT.repl.lo)
  bits : g.lo ≤ g.hi
  inRow : g.hi < 128 * T.rows

theorem pgCli_ne_pgEpi (B d r : Nat) : pgCli B d ≠ pgEpi r := by
  unfold pgCli pgDmp pgMap pgEpi rgnPg blkPg
  split <;> omega

theorem clientField_cliField (B d k : Nat) : ClientField (pgCli B d) T_CLI_STATUS (cliField k) := by
  have hField : cliField k ∈ [CLI_STATUS.clos, CLI_STATUS.clf, CLI_STATUS.crf, CLI_STATUS.cjc, CLI_STATUS.crate] := by
    unfold cliField
    match k - 25 with
    | 0 | 1 | 2 | 3 | 4 | _ + 5 => simp
  have hAll : ∀ g ∈ [CLI_STATUS.clos, CLI_STATUS.clf, CLI_STATUS.crf, CLI_STATUS.cjc, CLI_STATUS.crate],
      (CLI_STATUS.replacing.hi < g.lo ∨ g.hi < CLI_STATUS.replacing.lo) ∧ g.lo ≤ g.hi ∧ g.hi < 128 * T_CLI_STATUS.rows := by decide
  obtain ⟨hApart, hBits, hRow⟩ := hAll _ hField
  exact ⟨pgCli_ne_pgEpi B d, .inl ⟨rfl, hApart⟩, hBits, hRow⟩

theorem clientField_jcCrc (B d : Nat) : ClientField (pgCli B d) T_CLI_CNT CLI_CNT.jc_crc :=
  ⟨pgCli_ne_pgEpi B d, .inr ⟨rfl, by decide⟩, by decide, by decide⟩

theorem clientField_idleIns (B d : Nat) : ClientField (pgCli B d) T_CLI_CNT CLI_CNT.idle_ins :=
  ⟨pgCli_ne_pgEpi B d, .inr ⟨rfl, by decide⟩, by decide, by decide⟩

section
variable {pg e : Nat} {T : Tab} {g : TField} (h : ClientField pg T g)
include h

theorem ClientField.code : T.code = 2 ∨ T.code = 3 := by
  obtain ⟨hT, -⟩ | ⟨hT, -⟩ := h.table <;> rw [hT]
  · exact .inl rfl
  · exact .inr rfl

/-- An operation whose mask holds neither of the two tables. -/
theorem ClientField.fr {M : Nat} {s t : State} (hFr : Fr M s t) (hStatus : M.testBit 130 = false) (hCounts : M.testBit 131 = false) :
    t.tget pg T e g = s.tget pg T e g := by
  refine hFr.tget pg T e g ?_
  obtain hT | hT := h.code <;> rw [hT]
  · exact hStatus
  · exact hCounts

theorem ClientField.tput_other (s : State) (pg' : Nat) (T' : Tab) (e' : Nat) (f : TField) (v : Nat) (hStatus : T'.code % 256 ≠ 2)
    (hCounts : T'.code % 256 ≠ 3) : (s.tput pg' T' e' f v).tget pg T e g = s.tget pg T e g := by
  refine State.tget_tput_tab _ _ _ _ _ _ _ _ _ _ ?_
  obtain hT | hT := h.code <;> rw [hT]
  · exact hStatus.symm
  · exact hCounts.symm

/-- A tracker's tables stand on its own page. -/
theorem ClientField.tput_epi (s : State) (r : Nat) (T' : Tab) (e' : Nat) (f : TField) (v : Nat) (hCode : T'.code < 256) :
    (s.tput (pgEpi r) T' e' f v).tget pg T e g = s.tget pg T e g := by
  unfold State.tget State.tput
  rw [State.entry_setEntry_key]
  have hPage := h.page r
  have hClient : T.code < 256 := by obtain hT | hT := h.code <;> omega
  have hRow : e % 2 ^ 24 < 2 ^ 24 := Nat.mod_lt _ (by decide)
  have hRow' : e' % 2 ^ 24 < 2 ^ 24 := Nat.mod_lt _ (by decide)
  unfold tkey
  omega

theorem ClientField.ev (s : State) (pg' k : Nat) : (s.ev pg' k).tget pg T e g = s.tget pg T e g :=
  h.fr (State.ev_fr s pg' k (MaskLe.refl _) (fr_refl fm_ev s)) (by decide) (by decide)

theorem ClientField.evWhen (s : State) (c : Bool) (pg' k : Nat) : (s.evWhen c pg' k).tget pg T e g = s.tget pg T e g :=
  h.fr (State.evWhen_fr s c pg' k (MaskLe.refl _) (fr_refl fm_evWhen s)) (by decide) (by decide)

theorem ClientField.alarmMoved (s : State) (p : Nat) (point : Bool) (src k : Nat) :
    (s.alarmMoved p point src k).tget pg T e g = s.tget pg T e g :=
  h.fr (State.alarmMoved_fr s p point src k (MaskLe.refl _) (fr_refl fm_alarmMoved s)) (by decide) (by decide)

theorem ClientField.epiAggOn (s : State) (r : Nat) : (s.epiAggOn r).tget pg T e g = s.tget pg T e g :=
  h.fr (State.epiAggOn_fr s r (MaskLe.refl _) (fr_refl fm_epiAggOn s)) (by decide) (by decide)

theorem ClientField.epiOpen (s : State) (r : Nat) (c : EpiChange) (t : Stamp) (late : Bool) :
    (s.epiOpen r c t late).tget pg T e g = s.tget pg T e g :=
  h.fr (State.epiOpen_fr s r c t late (MaskLe.refl _) (fr_refl fm_epiOpen s)) (by decide) (by decide)

theorem ClientField.epiClose (s : State) (r e' : Nat) (t : Stamp) (deconf : Bool) :
    (s.epiClose r e' t deconf).tget pg T e g = s.tget pg T e g :=
  h.fr (State.epiClose_fr s r e' t deconf (MaskLe.refl _) (fr_refl fm_epiClose s)) (by decide) (by decide)

theorem ClientField.epiLooseOn (s : State) (r : Nat) (c : EpiChange) : (s.epiLooseOn r c).tget pg T e g = s.tget pg T e g := by
  unfold State.epiLooseOn State.tcount
  rw [tget_epi, h.tput_epi _ _ _ _ _ _ (by decide), h.tput_epi _ _ _ _ _ _ (by decide)]

theorem ClientField.epiLooseOff (s : State) (r : Nat) (c : EpiChange) : (s.epiLooseOff r c).tget pg T e g = s.tget pg T e g := by
  unfold State.epiLooseOff State.tcount
  rw [tget_epi, h.tput_epi _ _ _ _ _ _ (by decide), h.tput_epi _ _ _ _ _ _ (by decide)]

theorem ClientField.epiApply (s : State) (r : Nat) (c : EpiChange) : (s.epiApply r c).tget pg T e g = s.tget pg T e g := by
  unfold State.epiApply
  extract_lets pg' isLoose moved u
  refine (h.fr (State.epiShow_fr u r (MaskLe.refl _) (fr_refl fm_epiShow u)) (by decide) (by decide)).trans ?_
  have hMoved (v : State) : (moved v).tget pg T e g = v.tget pg T e g := h.alarmMoved v _ _ _ _
  unfold u
  (repeat' split) <;>
    simp only [hMoved, h.ev, h.epiLooseOn, h.epiLooseOff, h.epiAggOn, h.epiOpen, h.epiClose]

theorem ClientField.epiPush (s : State) (r : Nat) (point : Bool) (src kind : Nat) (on deconf : Bool) :
    (s.epiPush r point src kind on deconf).tget pg T e g = s.tget pg T e g := by
  unfold State.epiPush
  dsimp only
  split
  · split
    · rw [tget_epi]
    · rw [h.epiApply, tget_epi]
      split
      · rfl
      · exact h.epiAggOn s r
  · rfl

theorem ClientField.pointDef (s : State) (B dir m e' b : Nat) (on deconf : Bool) :
    (s.pointDef B dir m e' b on deconf).tget pg T e g = s.tget pg T e g := by
  unfold State.pointDef
  extract_lets f s1 s2 s3
  have hShown : s1.tget pg T e g = s.tget pg T e g :=
    (h.ev ..).trans (h.tput_other s (pgMpt B) T_MP_STATUS e' f _ (by decide) (by decide))
  have hSeen : s2.tget pg T e g = s1.tget pg T e g := by
    unfold s2
    split <;> rfl
  split
  · rfl
  · exact (h.epiPush ..).trans ((h.evWhen ..).trans (hSeen.trans hShown))

theorem ClientField.tputb_point (s : State) (B e' : Nat) (f : TField) (b : Bool) :
    (s.tputb (pgMpt B) T_MP_STATUS e' f b).tget pg T e g = s.tget pg T e g :=
  h.tput_other s (pgMpt B) T_MP_STATUS e' f (b2n b) (by decide) (by decide)

theorem ClientField.tput_ctxStatus (s : State) (B e' : Nat) (f : TField) (v : Nat) :
    (s.tput (pgOdi B) T_CTX_STATUS e' f v).tget pg T e g = s.tget pg T e g :=
  h.tput_other s (pgOdi B) T_CTX_STATUS e' f v (by decide) (by decide)

theorem ClientField.refreshPoint (s : State) (B dir m e' : Nat) (ssf plm : Bool) :
    (s.refreshPoint B dir m e' ssf plm).tget pg T e g = s.tget pg T e g := by
  unfold State.refreshPoint
  extract_lets pg' s1 quiet s2 tsf tsd changed s3
  have hQuiet : quiet.tget pg T e g = s1.tget pg T e g := by simp only [quiet, h.pointDef]
  have hSilent : s2.tget pg T e g = s1.tget pg T e g := by
    unfold s2
    split
    · exact hQuiet
    · rfl
  calc ((s3.pointSeen m _).evWhen changed pg' 2).tget pg T e g
    _ = s3.tget pg T e g := h.evWhen ..
    _ = s2.tget pg T e g := (h.tputb_point ..).trans (h.tputb_point ..)
    _ = s.tget pg T e g := hSilent.trans (h.tputb_point ..)

/-- A replacement writes its own bit and its own counter. -/
theorem ClientField.setRepl (s : State) (B d e' : Nat) (on : Bool) : (s.setRepl B d e' on).tget pg T e g = s.tget pg T e g := by
  have hShown : ((s.tputb (pgCli B d) T_CLI_STATUS e' CLI_STATUS.replacing on).ev (pgCli B d) 1).tget pg T e g = s.tget pg T e g := by
    refine (h.ev ..).trans ?_
    obtain ⟨rfl, hApart⟩ | ⟨rfl, -⟩ := h.table
    · exact State.tget_tput_apart _ _ _ _ _ _ rfl (by decide) h.bits h.inRow hApart
    · exact State.tget_tput_tab _ _ _ _ _ _ _ _ _ _ (by decide)
  have hCounted (u : State) : (u.tcount (pgCli B d) T_CLI_CNT e' CLI_CNT.repl).tget pg T e g = u.tget pg T e g := by
    obtain ⟨rfl, -⟩ | ⟨rfl, hApart⟩ := h.table
    · exact State.tget_tput_tab _ _ _ _ _ _ _ _ _ _ (by decide)
    · exact State.tget_tput_apart _ _ _ _ _ _ rfl (by decide) h.bits h.inRow hApart
  unfold State.setRepl
  dsimp only
  split
  · rfl
  · split
    · exact (hCounted _).trans hShown
    · exact hShown

theorem ClientField.refreshCliIn (s : State) (B e' : Nat) : (s.refreshCliIn B e').tget pg T e g = s.tget pg T e g := by
  unfold State.refreshCliIn
  dsimp only
  (repeat' split) <;> simp only [h.setRepl]

theorem ClientField.refreshCtx (s : State) (B e' : Nat) : (s.refreshCtx B e').tget pg T e g = s.tget pg T e g := by
  unfold State.refreshCtx
  extract_lets ssf fill s1 s2 s3 pts s4 s5 sf sfOld s6 leg legOld s7 s8 s9 s10 seen
  have hUnlock : s10.tget pg T e g = s9.tget pg T e g := by
    unfold s10
    split
    · exact h.fr (State.stampUnlock_fr s9 B e' (MaskLe.refl _) (fr_refl fm_stampUnlock s9)) (by decide) (by decide)
    · rfl
  calc (s10.each _ _).tget pg T e g
    _ = s10.tget pg T e g := State.tget_each _ _ _ _ _ _ _ (fun s m => State.tget_pointSeen ..)
    _ = s8.tget pg T e g := hUnlock.trans (h.refreshCliIn ..)
    _ = s7.tget pg T e g := State.tget_setCtx ..
    _ = s6.tget pg T e g := (h.evWhen ..).trans (h.tput_ctxStatus ..)
    _ = s5.tget pg T e g := (h.evWhen ..).trans (h.tput_ctxStatus ..)
    _ = s4.tget pg T e g := State.tget_each _ _ _ _ _ _ _ (fun s t => (State.tget_pointSeen ..).trans (h.tputb_point ..))
    _ = s3.tget pg T e g := State.tget_each _ _ _ _ _ _ _ (fun s p => h.refreshPoint ..)
    _ = s1.tget pg T e g := (h.tput_ctxStatus ..).trans (h.tput_ctxStatus ..)
    _ = s.tget pg T e g := State.tget_setCtx ..

theorem ClientField.refreshCtxs (s : State) (B : Nat) : (s.refreshCtxs B).tget pg T e g = s.tget pg T e g :=
  State.tget_each _ _ _ _ _ _ _ (fun s e' => h.refreshCtx s B e')

end

end Sys2Proof.Machine

namespace Sys2Proof.Machine

open Sys2Proof

set_option exponentiation.threshold 16384
set_option Elab.async false

/-! ### A client's defect declared or cleared (file 06, R219, R228) -/

/-- What follows when a context's defect changes: no client's record, no row in effect. -/
def fm_cliDefCtx : Nat := mTab T_CLI_STATUS ||| fm_ev ||| fm_epiPush ||| fm_refreshCtxs

theorem cliDef_ctx_fr {M : Nat} {s0 s : State} (B d e kind : Nat) (on deconf : Bool) (hM : MaskLe fm_cliDefCtx M) (hs : Fr M s0 s) :
    Fr M s0 (s.cliDef (.ctx B d e) kind on deconf) := by
  unfold State.cliDef
  dsimp -zeta only
  extract_lets s1 s2
  have hPushed : Fr M s0 s2 := State.epiPush_fr _ (B / 8) true _ kind on deconf (MaskLe.trans (by decide +kernel) hM)
    (State.ev_fr _ (pgCli B d) 0 (MaskLe.trans (by decide +kernel) hM)
      (State.tputb_fr s (pgCli B d) T_CLI_STATUS e (cliField kind) on (MaskLe.trans (by decide +kernel) hM) hs))
  exact fr_ite hs (fr_ite (State.refreshCtxs_fr s2 B (MaskLe.trans (by decide +kernel) hM) hPushed) hPushed)

theorem cliDef_ctx_shows (s : State) (B d e kind : Nat) (on deconf : Bool) :
    (s.cliDef (.ctx B d e) kind on deconf).cliHas (.ctx B d e) kind = on := by
  have hField := clientField_cliField B d kind
  show (s.cliDef (.ctx B d e) kind on deconf).cliB B d e (cliField kind) = on
  unfold State.cliDef
  dsimp -zeta only
  extract_lets s1 s2
  split
  · assumption
  · have hPut : s1.cliB B d e (cliField kind) = on := by
      unfold State.cliB State.tgetb
      rw [hField.ev]
      exact State.tgetb_tputb_same _ _ _ _ _ _ hField.bits hField.inRow
    have hPushed : s2.cliB B d e (cliField kind) = on := by
      unfold State.cliB State.tgetb
      rw [hField.epiPush]
      exact hPut
    split
    · unfold State.cliB State.tgetb
      rw [hField.refreshCtxs]
      exact hPushed
    · exact hPushed

/-- What follows when a line client's defect changes. -/
def fm_cliDefLine : Nat := fm_ev ||| fm_epiPush ||| fm_refreshEth

theorem cliDef_line_shows (s : State) {n kind k : Nat} {f : Field} (on deconf : Bool) (hField : ethField kind = some (f, k))
    (hBeyond : fm_cliDefLine.testBit (512 + f.place) = false) : (s.cliDef (.line n) kind on deconf).rdb (pgEth n) f = on := by
  unfold State.cliDef
  rw [hField]
  dsimp only
  split
  · assumption
  · have hFr := State.refreshEth_fr (M := fm_cliDefLine) _ n (by decide +kernel) (State.epiPush_fr _ (n / 32) false
      (16 * (n / 4) + 4 * (n % 4)) kind on deconf (by decide +kernel) (State.ev_fr _ (pgEth n) k (by decide +kernel)
      (fr_refl _ (s.wrb (pgEth n) f on))))
    rw [hFr.rdb _ _ hBeyond, State.rdb_wrb_same]

/-- The defects that a line client has too. -/
theorem ethField_of_mem {kind : Nat} (h : kind ∈ [25, 26, 27, 29]) :
    ∃ f k, ethField kind = some (f, k) ∧ fm_cliDefLine.testBit (512 + f.place) = false := by
  simp only [List.mem_cons, List.not_mem_nil, or_false] at h
  obtain rfl | rfl | rfl | rfl := h
  · exact ⟨ETH_STATUS_clos, 0, rfl, by decide +kernel⟩
  · exact ⟨ETH_STATUS_clf, 1, rfl, by decide +kernel⟩
  · exact ⟨ETH_STATUS_crf, 2, rfl, by decide +kernel⟩
  · exact ⟨ETH_STATUS_crate, 3, rfl, by decide +kernel⟩

/-- A change of a defect leaves it as the change says, for a context and for a line client. -/
theorem cliDef_shows (s : State) (c : CliRef) {kind : Nat} (on deconf : Bool) (h : kind ∈ [25, 26, 27, 29]) :
    (s.cliDef c kind on deconf).cliHas c kind = on := by
  cases c with
  | ctx B d e => exact cliDef_ctx_shows s B d e kind on deconf
  | line n =>
    obtain ⟨f, k, hField, hBeyond⟩ := ethField_of_mem h
    unfold State.cliHas
    rw [hField]
    exact cliDef_line_shows s on deconf hField hBeyond

theorem closOn_ctx_of_noLock {s : State} {B e : Nat} (hBlocks : s.refBlocks (.ctx B 0 e) = true) (hRuns : s.datapath (B / 8) = true)
    (hLock : (s.cli (ckey B 0 e)).recv.sync.lock = false) : s.closOn (.ctx B 0 e) = s.cliDef (.ctx B 0 e) 25 true := by
  unfold State.closOn
  rw [if_pos (by rw [hBlocks, State.refRuns, State.refRegion, hRuns]; rfl)]
  exact if_pos ⟨rfl, hLock⟩

theorem closOff_ctx_of_lock {s : State} {B e : Nat} (hBlocks : s.refBlocks (.ctx B 0 e) = true) (hRuns : s.datapath (B / 8) = true)
    (hLock : (s.cli (ckey B 0 e)).recv.sync.lock = true) : s.closOff (.ctx B 0 e) = s.cliDef (.ctx B 0 e) 25 false := by
  unfold State.closOff
  rw [if_pos (by rw [hBlocks, State.refRuns, State.refRegion, hRuns]; rfl)]
  exact if_pos ⟨rfl, hLock⟩

theorem closOn_line_of_noSignal {s : State} {n k : Nat} (hBlocks : s.refBlocks (.line n) = true)
    (hRuns : s.datapath (laneRegion n) = true) (hLane : k ∈ s.ethIfLanes n) (hSignal : s.rdb (pgLln k) LLN_STATUS_sig_det = false) :
    s.closOn (.line n) = s.cliDef (.line n) 25 true := by
  have hLost : (s.ethIfLanes n).any (fun k => !s.rdb (pgLln k) LLN_STATUS_sig_det) = true :=
    List.any_eq_true.2 ⟨k, hLane, by rw [hSignal]; rfl⟩
  have hRef : s.refRuns (.line n) = true := hRuns
  unfold State.closOn
  rw [if_pos (by rw [hBlocks, hRef]; rfl)]
  exact if_pos (by rw [hLost, Bool.or_true])

theorem clfChange_of_runs {s : State} {c : CliRef} (on : Bool) (hBlocks : s.refBlocks c = true) (hRuns : s.refRuns c = true) :
    s.clfChange c on = s.cliDef c 26 on := by
  unfold State.clfChange
  rw [hBlocks, hRuns]
  rfl

theorem crfChange_of_runs {s : State} {c : CliRef} (on : Bool) (hBlocks : s.refBlocks c = true) (hRuns : s.refRuns c = true) :
    s.crfChange c on = s.cliDef c 27 on := by
  unfold State.crfChange
  rw [hBlocks, hRuns]
  rfl

/-! ### The SUSPECT hold of a context (file 07, R234) -/

/-- What of a context starts its SUSPECT hold: the hold itself, and whether the all-ones fill replaces it. -/
def Ctx.hold (c : Ctx) : Bool × Bool := (c.trig, c.fill)

theorem ckey_slot_inj {B d e e' : Nat} (h : ckey B d e = ckey B d e') : e = e' := by
  unfold ckey at h
  omega

theorem setCtx_hold {u : Ctx → Ctx} (hu : ∀ c, (u c).hold = c.hold) (s : State) (B d k e : Nat) :
    ((s.setCtx B d k u).ctx B d e).hold = (s.ctx B d e).hold := by
  unfold State.ctx State.setCtx
  by_cases hKey : ckey B d e = ckey B d k
  · rw [hKey, SMap.get_upd_same, hu]
  · rw [SMap.get_upd_ne _ _ _ _ hKey]

theorem Fr.ctx {M : Nat} {s t : State} (h : Fr M s t) (hM : M.testBit 37 = false) (B d e : Nat) : t.ctx B d e = s.ctx B d e := by
  unfold State.ctx
  rw [h.ctxs hM]

theorem State.ctx_pointSeen (s : State) (m flags B d e : Nat) : (s.pointSeen m flags).ctx B d e = s.ctx B d e := rfl

theorem stampUnlock_hold (s : State) (B k e : Nat) : ((s.stampUnlock B k).ctx B 0 e).hold = (s.ctx B 0 e).hold := by
  unfold State.stampUnlock
  extract_lets s1
  have hReset : (s1.ctx B 0 e).hold = (s.ctx B 0 e).hold := setCtx_hold (by intro _; rfl) s B 0 k e
  split
  · have hFr := State.ev_fr (M := mTab T_STAMP_RX ||| fm_ev) _ (pgOdi B) 5 (by decide +kernel)
      (State.tputb_fr s1 (pgOdi B) T_STAMP_RX k STAMP_RX.locked false (by decide +kernel) (fr_refl _ s1))
    rw [hFr.ctx (by decide +kernel), hReset]
  · exact hReset

/-- The records of a context's points and its status before its replacement is judged: no context's own record. -/
def fm_ctxPoints : Nat := mTab T_CTX_STATUS ||| mTab T_MP_STATUS ||| fm_refreshPoint ||| fm_pointSeen ||| fm_evWhen

/-- A refreshed context is held where its fill has just ended; the others stay as they are. -/
theorem refreshCtx_hold (s : State) (B k e : Nat) : ((s.refreshCtx B k).ctx B 0 e).hold =
    if e = k then ((s.ctx B 0 e).trig || ((s.ctx B 0 e).fill && !s.ctxFill B e), s.ctxFill B e) else (s.ctx B 0 e).hold := by
  unfold State.refreshCtx
  extract_lets ssf fill s1 s2 s3 pts s4 s5 sf sfOld s6 leg legOld s7 s8 s9 s10 seen
  have hUnlock : (s10.ctx B 0 e).hold = (s9.ctx B 0 e).hold := by
    unfold s10
    split
    · exact stampUnlock_hold s9 B k e
    · rfl
  have hFr : Fr fm_ctxPoints s1 s7 := by
    refine State.evWhen_fr _ _ _ _ (by decide +kernel) (State.tput_fr _ _ _ _ _ _ (by decide +kernel)
      (State.evWhen_fr _ _ _ _ (by decide +kernel) (State.tputb_fr _ _ _ _ _ _ (by decide +kernel) (fr_each (fr_each
      (State.tputb_fr _ _ _ _ _ _ (by decide +kernel) (State.tputb_fr _ _ _ _ _ _ (by decide +kernel) (fr_refl _ s1)))
      (fun u p h => ?_)) (fun u t h => ?_)))))
    · exact State.refreshPoint_fr _ _ _ _ _ _ _ (by decide +kernel) h
    · exact State.pointSeen_fr _ _ _ (by decide +kernel) (State.tputb_fr _ _ _ _ _ _ (by decide +kernel) h)
  have hFirst : (s1.ctx B 0 e).hold =
      if e = k then ((s.ctx B 0 e).trig || ((s.ctx B 0 e).fill && !s.ctxFill B e), s.ctxFill B e) else (s.ctx B 0 e).hold := by
    unfold s1 State.setCtx State.ctx
    split
    next hEq => rw [hEq, SMap.get_upd_same]; rfl
    next hNe => rw [SMap.get_upd_ne _ _ _ _ (fun hKey => hNe (ckey_slot_inj hKey))]
  calc ((s10.each _ _).ctx B 0 e).hold
    _ = (s10.ctx B 0 e).hold := congrArg Ctx.hold (each_keeps (·.ctx B 0 e) _ _ _ (fun s m => s.ctx_pointSeen m _ B 0 e))
    _ = (s8.ctx B 0 e).hold :=
      hUnlock.trans (congrArg Ctx.hold ((State.refreshCliIn_fr s8 B k (MaskLe.refl _) (fr_refl fm_refreshCliIn s8)).ctx (by decide +kernel) B 0 e))
    _ = (s7.ctx B 0 e).hold := setCtx_hold (by intro _; rfl) s7 B 0 k e
    _ = (s1.ctx B 0 e).hold := congrArg Ctx.hold (hFr.ctx (by decide +kernel) B 0 e)
    _ = _ := hFirst

theorem ctxSlices_of_live {s t : State} (h : t.live = s.live) (B d e : Nat) : t.ctxSlices B d e = s.ctxSlices B d e := by
  unfold State.ctxSlices State.ts1Of State.effRows State.ctxF
  simp only [otucMembers_of_live h, effF_of_live h (T := T_CTX) rfl, h]

theorem refreshCtx_sliceFill (s : State) (B k d : Nat) : (s.refreshCtx B k).sliceFill d = s.sliceFill d := by
  have hFr := State.refreshCtx_fr s B k (MaskLe.refl _) (fr_refl fm_refreshCtx s)
  have hInFrame : (s.refreshCtx B k).rdb (pgOtu d) OTU_STATUS_in_frame = s.rdb (pgOtu d) OTU_STATUS_in_frame := by
    unfold State.rdb
    rw [(besideEpi_inFrame d).refreshCtx]
  unfold State.sliceFill
  rw [hFr.rdb _ OTU_STATUS_bonded (by decide +kernel), hInFrame, hFr.rdb _ PAGE_CTRL_run (by decide +kernel),
    hFr.rdb _ PAGE_CTRL_force_safe (by decide +kernel)]

theorem refreshCtx_ctxFill (s : State) (B k e : Nat) : (s.refreshCtx B k).ctxFill B e = s.ctxFill B e := by
  have hFr := State.refreshCtx_fr s B k (MaskLe.refl _) (fr_refl fm_refreshCtx s)
  have hLive := hFr.live (by decide +kernel)
  unfold State.ctxFill State.blkForced State.ctxF
  simp only [ctxSlices_of_live hLive, effF_of_live hLive (T := T_CTX) rfl, hFr.blk (by decide +kernel), sliceLead_of_live hLive,
    funext (refreshCtx_sliceFill s B k)]

/-- No hold of a context stands, and none begins as long as its slices carry what they carry. -/
def State.holdOver (s : State) (B e : Nat) : Prop :=
  (s.ctx B 0 e).trig = false ∧ ((s.ctx B 0 e).fill = true → s.ctxFill B e = true)

theorem State.holdOver.refreshCtx {s : State} {B e : Nat} (h : s.holdOver B e) (k : Nat) : (s.refreshCtx B k).holdOver B e := by
  obtain ⟨hTrig, hFill⟩ := h
  have hHold := refreshCtx_hold s B k e
  have hTrig' := congrArg Prod.fst hHold
  have hFill' := congrArg Prod.snd hHold
  unfold State.holdOver
  rw [refreshCtx_ctxFill]
  split at hTrig'
  next hEq =>
    rw [if_pos hEq] at hFill'
    refine ⟨hTrig'.trans ?_, fun hNow => hFill'.symm.trans hNow⟩
    rw [hTrig]
    cases hWas : (s.ctx B 0 e).fill with
    | false => rfl
    | true => rw [hFill hWas]; rfl
  next hNe =>
    rw [if_neg hNe] at hFill'
    exact ⟨hTrig'.trans hTrig, fun hNow => hFill (hFill'.symm.trans hNow)⟩

theorem State.holdOver.refreshCtxs {s : State} {B e : Nat} (h : s.holdOver B e) : (s.refreshCtxs B).holdOver B e :=
  List.foldlRecOn (motive := fun u : State => u.holdOver B e) _ _ h (fun _ hu k _ => State.holdOver.refreshCtx hu k)

theorem suspectHoldEnd_ctx {s : State} {B e : Nat} (h : s.lastingTrigger B e = false) :
    ((s.suspectHoldEnd (.ctx B 0 e)).ctx B 0 e).trig = false := by
  have hFill : (s.ctx B 0 e).fill = false := by
    unfold State.lastingTrigger at h
    exact (Bool.or_eq_false_iff.1 h).1
  have hEnded : (s.setCtx B 0 e (fun x => { x with trig := false })).ctx B 0 e = { s.ctx B 0 e with trig := false } := by
    unfold State.ctx State.setCtx
    rw [SMap.get_upd_same]
  have hOver : (s.setCtx B 0 e (fun x => { x with trig := false })).holdOver B e := by
    unfold State.holdOver
    rw [hEnded]
    exact ⟨rfl, fun hNow => absurd (hFill.symm.trans hNow) (by decide)⟩
  unfold State.suspectHoldEnd
  dsimp only
  rw [if_pos ⟨rfl, by rw [h]; rfl⟩]
  exact hOver.refreshCtxs.1

/-! ### The SUSPECT hold of a line client (file 06, R220) -/

theorem State.cli_setCli_same (s : State) (k : Nat) (u : Cli → Cli) : (s.setCli k u).cli k = u (s.cli k) := SMap.get_upd_same ..

theorem Fr.cli {M : Nat} {s t : State} (h : Fr M s t) (hM : M.testBit 41 = false) (k : Nat) : t.cli k = s.cli k := by
  unfold State.cli
  rw [h.clis hM]

/-- What a line client's status shows besides its record. -/
def fm_ethShown : Nat := mFld ETH_STATUS_leg ||| mFld ETH_STATUS_aligned ||| mFld ETH_STATUS_replacing ||| mFld ETH_REPL ||| fm_ev

theorem refreshEth_trig (s : State) (n : Nat) : ((s.refreshEth n).cli (lineKey n)).trig = (s.cli (lineKey n)).trig := by
  unfold State.refreshEth
  extract_lets pg s1 s2 on s3
  have hShown : Fr fm_ethShown s s1 :=
    State.wr_fr _ _ _ _ (by decide +kernel) (State.wrb_fr s pg _ _ (by decide +kernel) (fr_refl _ s))
  have hWorst : (s2.cli (lineKey n)).trig = (s.cli (lineKey n)).trig := by
    unfold s2
    rw [State.cli_setCli_same, hShown.cli (by decide +kernel)]
  have hReplaced : Fr fm_ethShown s2 s3 :=
    State.ev_fr _ _ _ (by decide +kernel) (State.wrb_fr _ _ _ _ (by decide +kernel) (fr_refl _ s2))
  have hCounted : Fr fm_ethShown s2 (if on then s3.count pg ETH_REPL else s3) :=
    fr_ite (State.count_fr _ _ _ _ (by decide +kernel) hReplaced) hReplaced
  split
  · split
    · exact hWorst
    · rw [hCounted.cli (by decide +kernel), hWorst]
  · rfl

theorem suspectHoldEnd_line {s : State} {n : Nat} (h : (s.ethIfLanes n).any (fun k => s.rdb (pgLln k) LLN_STATUS_trained &&
    (!s.rdb (pgLln k) LLN_STATUS_sig_det || !s.rdb (pgLln k) LLN_STATUS_cw_lock)) = false) :
    ((s.suspectHoldEnd (.line n)).cli (lineKey n)).trig = false := by
  unfold State.suspectHoldEnd
  dsimp only
  rw [h, if_neg (by decide), refreshEth_trig, State.cli_setCli_same]

theorem State.cliHas_after (s u : State) (c : CliRef) (kind : Nat) : (s.after u).cliHas c kind = u.cliHas c kind := by
  cases c with
  | ctx B d e => rfl
  | line n =>
    unfold State.cliHas
    dsimp only
    cases ethField kind <;> rfl

theorem State.ctx_after (s u : State) (B d e : Nat) : (s.after u).ctx B d e = u.ctx B d e := rfl
theorem State.cli_after (s u : State) (k : Nat) : (s.after u).cli k = u.cli k := rfl

/-- Settles O30: where its condition stands, each command is a change of the client's defect (`closOn_ctx_of_noLock` and its kin), which
leaves it as the change says (`cliDef_shows`); the end of a hold outlasts what follows it (`State.holdOver.refreshCtxs`,
`refreshEth_trig`). -/
theorem clientDefects : Obligations.ClientDefects := by
  unfold Obligations.ClientDefects
  refine ⟨fun s B e hRun hBlocks hRuns hLock => ⟨_, run_eq_next (fun s => s.closOn (.ctx B 0 e)) hRun, ?_⟩,
    fun s n k hRun hBlocks hRuns hLane hSignal => ⟨_, run_eq_next (fun s => s.closOn (.line n)) hRun, ?_⟩,
    fun s B e hRun hBlocks hRuns hLock => ⟨_, run_eq_next (fun s => s.closOff (.ctx B 0 e)) hRun, ?_⟩,
    fun s c on hRun hBlocks hRuns => ⟨_, run_eq_next (fun s => s.clfChange c on) hRun, ?_⟩,
    fun s c on hRun hBlocks hRuns => ⟨_, run_eq_next (fun s => s.crfChange c on) hRun, ?_⟩,
    fun s B e hRun hOver => ⟨_, run_eq_next (fun s => s.suspectHoldEnd (.ctx B 0 e)) hRun, ?_⟩,
    fun s n hRun hOver => ⟨_, run_eq_next (fun s => s.suspectHoldEnd (.line n)) hRun, ?_⟩⟩
  · rw [State.cliHas_after, closOn_ctx_of_noLock (s := s.fresh) hBlocks hRuns hLock]
    exact cliDef_shows _ _ _ _ (by decide)
  · rw [State.cliHas_after, closOn_line_of_noSignal (s := s.fresh) hBlocks hRuns hLane hSignal]
    exact cliDef_shows _ _ _ _ (by decide)
  · rw [State.cliHas_after, closOff_ctx_of_lock (s := s.fresh) hBlocks hRuns hLock]
    exact cliDef_shows _ _ _ _ (by decide)
  · rw [State.cliHas_after, clfChange_of_runs (s := s.fresh) on hBlocks hRuns]
    exact cliDef_shows _ _ _ _ (by decide)
  · rw [State.cliHas_after, crfChange_of_runs (s := s.fresh) on hBlocks hRuns]
    exact cliDef_shows _ _ _ _ (by decide)
  · rw [State.ctx_after]
    exact suspectHoldEnd_ctx (s := s.fresh) hOver
  · rw [State.cli_after]
    exact suspectHoldEnd_line (s := s.fresh) hOver

end Sys2Proof.Machine

namespace Sys2Proof.Machine

open Sys2Proof

set_option exponentiation.threshold 16384
set_option Elab.async false

/-! ### A GMP period sent (file 06, R204 to R206) -/

/-- The client bytes due in a period at offset `o`, in 2^-40 byte with the fraction left by the last one. -/
def Gmp.due (x : Gmp) (g : GmpMap) (o : Int) : Nat := x.frac + g.bytesQ o

/-- The whole bytes to send, with the residue of the last period. -/
def Gmp.acc (x : Gmp) (g : GmpMap) (o : Int) : Nat := x.res + x.due g o / 2 ^ 40

/-- The Cm of a period, and the residue that it leaves. -/
def Gmp.cm (x : Gmp) (g : GmpMap) (o : Int) : Nat := x.acc g o / g.w
def Gmp.rest (x : Gmp) (g : GmpMap) (o : Int) : Nat := x.acc g o - g.w * x.cm g o

theorem Gmp.rest_lt (x : Gmp) {g : GmpMap} (o : Int) (h : 0 < g.w) : x.rest g o < g.w := by
  have hDiv := Nat.div_add_mod (x.acc g o) g.w
  have hMod := Nat.mod_lt (x.acc g o) h
  unfold Gmp.rest Gmp.cm
  omega

/-- The process after the period. -/
def Gmp.sent (x : Gmp) (g : GmpMap) (o : Int) : Gmp :=
  { x with frac := x.due g o % 2 ^ 40, res := x.rest g o, cPrev := some (x.cm g o), c8d := x.rest g o }

theorem State.gmp_setGmp_same (s : State) (k : Nat) (f : Gmp → Gmp) : (s.setGmp k f).gmp k = f (s.gmp k) := SMap.get_upd_same ..

theorem State.out_setGmp (s : State) (k : Nat) (f : Gmp → Gmp) : (s.setGmp k f).out = s.out := rfl

theorem State.gmp_emit (s : State) (o : Out) (k : Nat) : (s.emit o).gmp k = s.gmp k := rfl

theorem Fr.gmp {M : Nat} {s t : State} (h : Fr M s t) (hM : M.testBit 42 = false) (k : Nat) : t.gmp k = s.gmp k := by
  unfold State.gmp
  rw [h.gmps hM]

/-- What the client of a period gives, and what its status shows of it. -/
def fm_gmpGiven : Nat := fm_giveClient ||| mTab T_CLI_STATUS

/-- A period is that of its process at some offset, and at none where the generator does not set it. -/
theorem gmpMapPeriod_sends {s : State} {B e : Nat} {mux : Bool} {g : GmpMap} (data : List Nat) (hMap : s.gmpMap B 1 e mux = some g)
    (hRuns : s.datapath (B / 8) = true) : ∃ o, (s.genRole B e ≠ some mux → o = 0) ∧
    (∃ words, (s.gmpMapPeriod B e mux data).out = s.out ++ [.gmpPeriod B e mux ((s.gmp (gmpKey B 1 e mux)).cm g o)
        ((s.gmp (gmpKey B 1 e mux)).rest g o) (jcCm (s.gmp (gmpKey B 1 e mux)).cPrev ((s.gmp (gmpKey B 1 e mux)).cm g o) ++
        jcC8d ((s.gmp (gmpKey B 1 e mux)).rest g o)) words] ∧
      (mux = true → words = gmpFill g.w g.pm ((s.gmp (gmpKey B 1 e mux)).cm g o) g.pm
        (data.take (g.w * (s.gmp (gmpKey B 1 e mux)).cm g o)))) ∧
    (s.gmpMapPeriod B e mux data).gmp (gmpKey B 1 e mux) = (s.gmp (gmpKey B 1 e mux)).sent g o := by
  unfold State.gmpMapPeriod
  rw [hMap]
  dsimp -zeta only
  rw [if_pos hRuns]
  extract_lets +onlyGivenNames k gen
  have hRate : Fr fm_genStep s (if gen = true then s.genStep B e else (0, s)).2 :=
    fr2_ite (State.genStep_fr s B e (MaskLe.refl _) (fr_refl _ s)) (fr_refl _ s)
  have hNone : s.genRole B e ≠ some mux → (if gen = true then s.genStep B e else (0, s)).1 = 0 := fun h => by
    rw [if_neg (by unfold gen; rw [decide_eq_false h]; decide)]
  generalize (if gen = true then s.genStep B e else (0, s)) = p at hRate hNone
  obtain ⟨o, u⟩ := p
  have hGmp : u.gmp k = s.gmp k := hRate.gmp (by decide +kernel) k
  have hOut : u.out = s.out := hRate.out (by decide +kernel)
  dsimp -zeta only
  extract_lets +onlyGivenNames x due acc cm res s1
  have hGiven : Fr fm_gmpGiven s1 (if mux = true then (data.take (g.w * cm), s1) else s1.giveClient B e (g.w * cm)).2 :=
    fr2_ite (fr_refl _ s1) (State.giveClient_fr s1 B e _ (by decide +kernel) (fr_refl _ s1))
  have hBytes : mux = true → (if mux = true then (data.take (g.w * cm), s1) else s1.giveClient B e (g.w * cm)).1 = data.take (g.w * cm) :=
    fun h => by rw [if_pos h]
  generalize (if mux = true then (data.take (g.w * cm), s1) else s1.giveClient B e (g.w * cm)) = q at hGiven hBytes
  obtain ⟨bytes, s2⟩ := q
  dsimp -zeta only
  extract_lets s3
  have hShown : Fr fm_gmpGiven s1 s3 :=
    fr_ite hGiven (State.tput_fr _ _ _ _ _ _ (by decide +kernel) (State.tput_fr _ _ _ _ _ _ (by decide +kernel) hGiven))
  have hx : x = s.gmp k := hGmp
  rw [← hx]
  have hCm : cm = x.cm g o := rfl
  have hRest : res = x.rest g o := rfl
  have hOut1 : s1.out = s.out := (State.out_setGmp ..).trans hOut
  have hSent : s1.gmp k = x.sent g o := State.gmp_setGmp_same ..
  clear_value s3 s1 res cm x
  refine ⟨o, hNone, ⟨gmpFill g.w g.pm cm g.pm bytes, ?_, fun h => ?_⟩, ?_⟩
  · rw [State.emit_out, hShown.out (by decide +kernel), hOut1, hCm, hRest]
  · rw [← hCm]
    exact congrArg _ (hBytes h)
  · calc (s3.emit _).gmp k
      _ = s3.gmp k := State.gmp_emit ..
      _ = s1.gmp k := hShown.gmp (by decide +kernel) k
      _ = x.sent g o := hSent

/-! ### A GMP period received (file 06, R206, R207) -/

theorem cmChoice_of_window {g : GmpMap} {cm : Nat} (hLo : g.lo ≤ cm) (hHi : cm ≤ g.hi) : cmChoice g (some cm) = 0 :=
  if_neg (by omega)

/-- The Cm that a period uses: the received one, or the one before. -/
def Gmp.uses (x : Gmp) (g : GmpMap) (jc : List Nat) (cm : Nat) : Prop :=
  cmChoice g (readCm x.cPrev jc) = 0 ∧ readCm x.cPrev jc = some cm ∨ cmChoice g (readCm x.cPrev jc) ≠ 0 ∧ x.cPrev = some cm

/-- What a received period shows once its measurement is made. -/
def State.demapShown (s : State) (B e : Nat) (mux : Bool) (ch cm c8d off : Nat) (data : List Nat) : State :=
  if mux then
    let s := if ch = 1 then s.tcount (pgDmp B) T_DMX_CNT e DMX_CNT.jc_crc
      else if ch = 2 then s.tcount (pgDmp B) T_DMX_CNT e DMX_CNT.jc_range else s
    s.showMuxOffset B e off
  else s.gmpClient B e ch cm c8d off data

/-- What of the state that may change. -/
def fm_demapShown : Nat := mTab T_DMX_CNT ||| fm_showMuxOffset ||| fm_gmpClient

theorem demapShown_fr (s : State) (B e : Nat) (mux : Bool) (ch cm c8d off : Nat) (data : List Nat) :
    Fr fm_demapShown s (s.demapShown B e mux ch cm c8d off data) := by
  unfold State.demapShown
  refine fr_ite (State.showMuxOffset_fr _ _ _ _ (by decide +kernel) (fr_ite ?_ (fr_ite ?_ (fr_refl _ s))))
    (State.gmpClient_fr _ _ _ _ _ _ _ _ (by decide +kernel) (fr_refl _ s))
  · exact State.tcount_fr _ _ _ _ _ _ (by decide +kernel) (fr_refl _ s)
  · exact State.tcount_fr _ _ _ _ _ _ (by decide +kernel) (fr_refl _ s)

/-- The process after a received period of Cm `cm` that measures `off`. -/
def Gmp.received (x : Gmp) (g : GmpMap) (mux : Bool) (rx : GmpRx) (cm off : Nat) : Gmp :=
  let c8d := (readC8d rx.jc).getD x.c8d
  { x with
    cPrev := some cm, c8d := c8d, hist := (((g.w * cm : Nat) + (c8d : Int) - x.c8d).toNat :: x.hist).take 1024, offset := off
    data := if mux then gmpTake g.w g.pm cm g.pm rx.words else [] }

/-- The offset that it measures. -/
def State.demapOffset (s : State) (B e : Nat) (mux : Bool) (rx : GmpRx) (g : GmpMap) (cm : Nat) : Nat × State :=
  s.offsetOf (g.w * g.nom.1) g.nom.2 ((s.gmp (gmpKey B 0 e mux)).received g mux rx cm 0).hist (s.serverOff B e mux rx.serverOff)

theorem demapOffset_fr (s : State) (B e : Nat) (mux : Bool) (rx : GmpRx) (g : GmpMap) (cm : Nat) :
    Fr fm_offsetOf s (s.demapOffset B e mux rx g cm).2 :=
  State.offsetOf_fr _ _ _ _ _ (MaskLe.refl _) (fr_refl _ s)

/-- A period does with the Cm that it uses what a period does: it is measured, kept and shown. -/
theorem gmpDemapPeriod_uses {s : State} {B e cm : Nat} {mux : Bool} {rx : GmpRx} {g : GmpMap} (hMap : s.gmpMap B 0 e mux = some g)
    (hRuns : s.datapath (B / 8) = true) (hCm : (s.gmp (gmpKey B 0 e mux)).uses g rx.jc cm) :
    s.gmpDemapPeriod B e mux rx =
      ((s.demapOffset B e mux rx g cm).2.setGmp (gmpKey B 0 e mux) (fun y =>
        let x := (s.gmp (gmpKey B 0 e mux)).received g mux rx cm (s.demapOffset B e mux rx g cm).1
        { y with cPrev := x.cPrev, c8d := x.c8d, hist := x.hist, offset := x.offset, data := x.data })).demapShown B e mux
      (cmChoice g (readCm (s.gmp (gmpKey B 0 e mux)).cPrev rx.jc)) cm ((readC8d rx.jc).getD (s.gmp (gmpKey B 0 e mux)).c8d)
      (s.demapOffset B e mux rx g cm).1 (gmpTake g.w g.pm cm g.pm rx.words) := by
  unfold State.gmpDemapPeriod
  rw [hMap]
  dsimp only
  rw [if_pos hRuns]
  obtain ⟨hRange, hGot⟩ | ⟨hOut, hKept⟩ := hCm
  · rw [hGot] at hRange ⊢
    cases hPrev : (s.gmp (gmpKey B 0 e mux)).cPrev <;> (dsimp only; simp only [if_pos hRange]; rfl)
  · rw [hKept] at hOut ⊢
    simp only [if_neg hOut]
    rfl

/-- A received period keeps the Cm that it uses, and the data of its words. -/
theorem gmpDemapPeriod_keeps {s : State} {B e cm : Nat} {mux : Bool} {rx : GmpRx} {g : GmpMap} (hMap : s.gmpMap B 0 e mux = some g)
    (hRuns : s.datapath (B / 8) = true) (hCm : (s.gmp (gmpKey B 0 e mux)).uses g rx.jc cm) :
    ((s.gmpDemapPeriod B e mux rx).gmp (gmpKey B 0 e mux)).cPrev = some cm ∧
    (mux = true → ((s.gmpDemapPeriod B e mux rx).gmp (gmpKey B 0 e mux)).data = gmpTake g.w g.pm cm g.pm rx.words) := by
  rw [gmpDemapPeriod_uses hMap hRuns hCm, (demapShown_fr ..).gmp (by decide +kernel), State.gmp_setGmp_same]
  exact ⟨rfl, fun hMux => if_pos hMux⟩

/-- A change of a client's defect keeps what the client has counted. -/
theorem cliDef_keeps_count {pg : Nat} {g : TField} (h : ClientField pg T_CLI_CNT g) (s : State) (B d e' e kind : Nat) (on deconf : Bool) :
    (s.cliDef (.ctx B d e') kind on deconf).tget pg T_CLI_CNT e g = s.tget pg T_CLI_CNT e g := by
  unfold State.cliDef
  dsimp -zeta only
  extract_lets s1 s2
  have hPushed : s2.tget pg T_CLI_CNT e g = s.tget pg T_CLI_CNT e g :=
    (h.epiPush ..).trans ((h.ev ..).trans (State.tget_tput_tab _ _ _ _ _ _ _ _ _ _ (by decide)))
  split
  · rfl
  · split
    · exact (h.refreshCtxs ..).trans hPushed
    · exact hPushed

theorem judgeFill_keeps_count {pg : Nat} {g : TField} (h : ClientField pg T_CLI_CNT g) (s : State) (B d e' e : Nat) :
    (s.judgeFill (.ctx B d e')).tget pg T_CLI_CNT e g = s.tget pg T_CLI_CNT e g := by
  unfold State.judgeFill
  dsimp only
  split
  · exact cliDef_keeps_count h s B d e' e 29 true false
  · rfl

/-- A shown value of a client's status is no count. -/
theorem tput_cliStatus_keeps_count (s : State) (pg' pg e' e v : Nat) (f g : TField) :
    (s.tput pg' T_CLI_STATUS e' f v).tget pg T_CLI_CNT e g = s.tget pg T_CLI_CNT e g :=
  State.tget_tput_tab _ _ _ _ _ _ _ _ _ _ (by decide)

theorem State.tget_setCli (s : State) (k : Nat) (u : Cli → Cli) (pg : Nat) (T : Tab) (e : Nat) (g : TField) :
    (s.setCli k u).tget pg T e g = s.tget pg T e g := rfl

theorem State.tget_setGmp (s : State) (k : Nat) (u : Gmp → Gmp) (pg : Nat) (T : Tab) (e : Nat) (g : TField) :
    (s.setGmp k u).tget pg T e g = s.tget pg T e g := rfl

theorem showLevel_keeps_count (s : State) (B d e' pg e : Nat) (g : TField) :
    (s.showLevel (.ctx B d e')).tget pg T_CLI_CNT e g = s.tget pg T_CLI_CNT e g := by
  unfold State.showLevel
  dsimp only
  rw [tput_cliStatus_keeps_count]

theorem takeClient_eq (s : State) (B e : Nat) (bs : List Nat) :
    ∃ x, s.takeClient B e bs = ((s.setCli (ckey B 0 e) (fun _ => x)).showLevel (.ctx B 0 e)).judgeFill (.ctx B 0 e) := ⟨_, rfl⟩

theorem takeClient_keeps_count {pg : Nat} {g : TField} (h : ClientField pg T_CLI_CNT g) (s : State) (B e' e : Nat) (bs : List Nat) :
    (s.takeClient B e' bs).tget pg T_CLI_CNT e g = s.tget pg T_CLI_CNT e g := by
  obtain ⟨x, hEq⟩ := takeClient_eq s B e' bs
  rw [hEq, judgeFill_keeps_count h, showLevel_keeps_count, State.tget_setCli]

theorem judgeCjc_keeps_count {pg : Nat} {g : TField} (h : ClientField pg T_CLI_CNT g) (s : State) (B e' e : Nat) (usedPrev : Bool) :
    (s.judgeCjc B e' usedPrev).tget pg T_CLI_CNT e g = s.tget pg T_CLI_CNT e g := by
  unfold State.judgeCjc
  extract_lets k x p r s1
  have hRuns : s1.tget pg T_CLI_CNT e g = s.tget pg T_CLI_CNT e g := by
    unfold s1
    rw [State.tget_setCli]
  split
  · exact (cliDef_keeps_count h ..).trans hRuns
  · split
    · exact (cliDef_keeps_count h ..).trans hRuns
    · exact hRuns

/-- A client's period without a Cm is counted once (R207). -/
theorem gmpClient_counts_crc (s : State) (B e cm c8d off : Nat) (data : List Nat) :
    (s.gmpClient B e 1 cm c8d off data).tget (pgDmp B) T_CLI_CNT e CLI_CNT.jc_crc =
      (s.tget (pgDmp B) T_CLI_CNT e CLI_CNT.jc_crc + 1) % 2 ^ 32 := by
  have hField : ClientField (pgDmp B) T_CLI_CNT CLI_CNT.jc_crc := clientField_jcCrc B 0
  unfold State.gmpClient
  extract_lets pg s1 s2 s3
  have hCount : s1.tget pg T_CLI_CNT e CLI_CNT.jc_crc = (s.tget pg T_CLI_CNT e CLI_CNT.jc_crc + 1) % 2 ^ 32 := by
    unfold s1
    rw [if_pos rfl]
    exact State.tget_tput_same _ _ _ _ _ _ (by decide) (by decide)
  have hShown : s2.tget pg T_CLI_CNT e CLI_CNT.jc_crc = s1.tget pg T_CLI_CNT e CLI_CNT.jc_crc := by
    unfold s2
    simp only [tput_cliStatus_keeps_count]
  have hTaken : s3.tget pg T_CLI_CNT e CLI_CNT.jc_crc = s2.tget pg T_CLI_CNT e CLI_CNT.jc_crc :=
    (judgeCjc_keeps_count hField ..).trans (takeClient_keeps_count hField ..)
  have hKept := hTaken.trans (hShown.trans hCount)
  split
  · exact hKept
  · exact (hField.setRepl ..).trans hKept

/-! ### AMP (file 06, R208, R209) -/

/-- At no offset a period is due its nominal bytes. -/
theorem ampDue_nominal (num den : Nat) : num * (128000000 + (0 : Int)).toNat * 2 ^ 40 / (den * 128000000) = num * 2 ^ 40 / den := by
  rw [show (128000000 + (0 : Int)).toNat = 128000000 from rfl, Nat.mul_right_comm, Nat.mul_div_mul_right _ _ (by decide)]

/-- The child's fill against its centre once a period's due bytes have come in and its nominal ones gone out. -/
def State.ampDev (s : State) (B e due : Nat) : Int :=
  (s.gmp (gmpKey B 1 e true)).dev + (due / 2 ^ 40 : Nat) - (s.ampRate B 1 e).1

/-- What an AMP period at no offset sends: the code of the fill, and the bytes that it moves. -/
theorem ampJustify_nominal {s : State} {B e n num den due : Nat} (data : List Nat) (hAmp : s.ctxAmp B 1 e = true)
    (hRuns : s.datapath (B / 8) = true) (hGen : s.genRole B e ≠ some true) (hRate : s.ampRate B 1 e = (n, num, den))
    (hDue : due = (s.gmp (gmpKey B 1 e true)).frac + num * 2 ^ 40 / den) :
    s.ampJustify B e data = (s.setGmp (gmpKey B 1 e true) (fun x => { x with
        frac := due % 2 ^ 40, dev := s.ampDev B e due - ampAdjust (ampCode (s.ampDev B e due)), cPrev := some (ampCode (s.ampDev B e due)) })).emit
      (.ampJc B e (List.replicate 3 (ampCode (s.ampDev B e due))) (data.take ((n : Int) + ampAdjust (ampCode (s.ampDev B e due))).toNat)) := by
  have hCame : (s.gmp (gmpKey B 1 e true)).frac + num * (128000000 + (0 : Int)).toNat * 2 ^ 40 / (den * 128000000) = due := by
    rw [ampDue_nominal, hDue]
  unfold State.ampDev
  rw [hRate]
  unfold State.ampJustify
  rw [if_pos (by rw [hAmp, hRuns]; rfl), if_neg hGen]
  dsimp only
  rw [hRate]
  dsimp only
  rw [hCame]
  rfl

/-- Copies that disagree are counted; the majority is used all the same. -/
theorem ampDemux_disagree {s : State} {B e : Nat} {jc : List Nat} (data : List Nat) (off : Int) (hAmp : s.ctxAmp B 0 e = true)
    (hRuns : s.datapath (B / 8) = true)
    (hVote : ¬ (jc.getD 0 0 % 4 = jc.getD 1 0 % 4 ∧ jc.getD 1 0 % 4 = jc.getD 2 0 % 4)) :
    (s.ampDemux B e jc data off).tget (pgDmp B) T_DMX_CNT e DMX_CNT.amp_vote =
      (s.tget (pgDmp B) T_DMX_CNT e DMX_CNT.amp_vote + 1) % 2 ^ 32 ∧
    ((s.ampDemux B e jc data off).gmp (gmpKey B 0 e true)).cPrev =
      some (ampMajority (jc.getD 0 0 % 4) (jc.getD 1 0 % 4) (jc.getD 2 0 % 4)) := by
  unfold State.ampDemux
  rw [if_pos (by rw [hAmp, hRuns]; rfl)]
  extract_lets +onlyGivenNames k
  dsimp -zeta only
  extract_lets +onlyGivenNames code
  generalize s.ampRate B 0 e = rate
  obtain ⟨n, num, den⟩ := rate
  dsimp -zeta only
  extract_lets +onlyGivenNames n' hist
  have hMeasured := State.offsetOf_fr s num den hist (s.serverOff B e true off) (MaskLe.refl _) (fr_refl fm_offsetOf s)
  generalize s.offsetOf num den hist (s.serverOff B e true off) = m at hMeasured
  obtain ⟨o, u⟩ := m
  dsimp -zeta only
  extract_lets s1
  rw [if_neg hVote]
  constructor
  · refine (State.tget_tput_same _ _ _ _ _ _ (by decide) (by decide)).trans ?_
    have hCount : s1.tget (pgDmp B) T_DMX_CNT e DMX_CNT.amp_vote = s.tget (pgDmp B) T_DMX_CNT e DMX_CNT.amp_vote :=
      (State.tget_setGmp ..).trans (hMeasured.tget _ _ _ _ (by decide +kernel))
    rw [hCount]
    rfl
  · have hFr := State.tcount_fr s1 (pgDmp B) T_DMX_CNT e DMX_CNT.amp_vote 1 (MaskLe.refl _) (fr_refl (mTab T_DMX_CNT) s1)
    rw [hFr.gmp (by decide +kernel)]
    unfold s1
    rw [State.gmp_setGmp_same]

theorem State.gmp_after (s u : State) (k : Nat) : (s.after u).gmp k = u.gmp k := rfl
theorem State.out_after (s u : State) : (s.after u).out = u.out := rfl
theorem State.tget_after (s u : State) (pg : Nat) (T : Tab) (e : Nat) (f : TField) : (s.after u).tget pg T e f = u.tget pg T e f := rfl

/-- Settles O28: a sent period is that of its process (`gmpMapPeriod_sends`), a received one keeps the Cm it uses
(`gmpDemapPeriod_uses`) and counts one without (`gmpClient_counts_crc`); AMP sends the code of the child's fill
(`ampJustify_nominal`) and takes the majority bit by bit, the notes' log 71 (`ampDemux_disagree`). -/
theorem mappingPeriods : Obligations.MappingPeriods := by
  unfold Obligations.MappingPeriods
  refine ⟨fun s B e mux data g acc hRun hMap hRuns hGen hAcc => ⟨_, run_eq_next (fun s => s.gmpMapPeriod B e mux data) hRun, ?_⟩,
    fun s B e mux data g hRun hMap hRuns hWord => ⟨_, run_eq_next (fun s => s.gmpMapPeriod B e mux data) hRun, ?_⟩,
    fun s B e mux rx g cm hRun hMap hRuns hGot hLo hHi => ⟨_, run_eq_next (fun s => s.gmpDemapPeriod B e mux rx) hRun, ?_⟩,
    fun s B e rx c g hRun hMap hRuns hGot hPrev => ⟨_, run_eq_next (fun s => s.gmpDemapPeriod B e false rx) hRun, ?_⟩,
    fun s B e data n num den due dev hRun hAmp hRuns hGen hBytes hRate hDue hDev =>
      ⟨_, run_eq_next (fun s => s.ampJustify B e data) hRun, ?_⟩,
    fun s B e jc data off a b c hRun hAmp hRuns ha hb hc hVote => ⟨_, run_eq_next (fun s => s.ampDemux B e jc data off) hRun, ?_⟩⟩
  · obtain ⟨o, hNone, ⟨words, hOut, hWords⟩, hSent⟩ := gmpMapPeriod_sends (s := s.fresh) data hMap hRuns
    have hZero := hNone hGen
    subst hZero hAcc
    rw [State.out_after, State.gmp_after, hSent]
    exact ⟨⟨words, hOut, hWords⟩, rfl, rfl⟩
  · obtain ⟨o, -, ⟨words, hOut, -⟩, hSent⟩ := gmpMapPeriod_sends (s := s.fresh) data hMap hRuns
    rw [State.out_after, State.gmp_after, hSent]
    exact ⟨⟨_, _, words, hOut, Gmp.rest_lt _ o hWord⟩, Nat.mod_lt _ (by decide)⟩
  · have hUses : (s.fresh.gmp (gmpKey B 0 e mux)).uses g rx.jc cm :=
      .inl ⟨(congrArg (cmChoice g) hGot).trans (cmChoice_of_window hLo hHi), hGot⟩
    rw [State.gmp_after]
    exact gmpDemapPeriod_keeps (s := s.fresh) hMap hRuns hUses
  · have hNone : cmChoice g (readCm (s.fresh.gmp (gmpKey B 0 e false)).cPrev rx.jc) = 1 := congrArg (cmChoice g) hGot
    have hUses : (s.fresh.gmp (gmpKey B 0 e false)).uses g rx.jc c := .inr ⟨by rw [hNone]; decide, hPrev⟩
    rw [State.gmp_after, State.tget_after]
    refine ⟨(gmpDemapPeriod_keeps (s := s.fresh) hMap hRuns hUses).1, ?_⟩
    rw [gmpDemapPeriod_uses (s := s.fresh) hMap hRuns hUses, hNone]
    refine (gmpClient_counts_crc ..).trans ?_
    rw [State.tget_setGmp, (demapOffset_fr ..).tget _ _ _ _ (by decide +kernel)]
    rfl
  · have hAt : s.fresh.ampRate B 1 e = (n, num, den) := Prod.ext hBytes hRate
    subst hDev hBytes
    rw [State.out_after, State.gmp_after, ampJustify_nominal (s := s.fresh) data hAmp hRuns hGen hAt hDue]
    refine ⟨rfl, ?_, fun pg f => rfl⟩
    have hGmp (f : Gmp → Gmp) (o : Out) : ((s.fresh.setGmp (gmpKey B 1 e true) f).emit o).gmp (gmpKey B 1 e true) =
      f (s.gmp (gmpKey B 1 e true)) := State.gmp_setGmp_same ..
    rw [hGmp]
    rfl
  · subst ha hb hc
    rw [State.gmp_after, State.tget_after]
    exact ampDemux_disagree (s := s.fresh) data off hAmp hRuns hVote

end Sys2Proof.Machine

namespace Sys2Proof.Machine

open Sys2Proof

set_option exponentiation.threshold 16384
set_option Elab.async false

/-! ### An idle-adapting buffer between its ends (file 06, R211 to R213) -/

theorem refCode_of_live {s t : State} (h : t.live = s.live) (c : CliRef) : t.refCode c = s.refCode c := by
  cases c with
  | ctx B d e => exact effF_of_live h (T := T_CLI_CFG) rfl _ _ _
  | line n => rfl

theorem State.setCli_refCode (s : State) (k : Nat) (u : Cli → Cli) (c : CliRef) : (s.setCli k u).refCode c = s.refCode c :=
  refCode_of_live rfl c

theorem refKey_ctx (B d e : Nat) : refKey (.ctx B d e) = ckey B d e := rfl

/-- An IMP buffer holds at least two ODUflex frames of blocks (R211). -/
theorem le_cliDepth {code : Nat} (h : isImp code = true) : 3709 ≤ cliDepth code := by
  unfold cliDepth
  rw [if_pos h]
  exact Nat.le_max_left ..

theorem State.cliLevel_imp {s : State} {c : CliRef} (h : isImp (s.refCode c) = true) : s.cliLevel c = (s.cli (refKey c)).buf.length :=
  if_pos h

/-- A buffer neither empty nor full has no cRATE to declare. -/
theorem judgeFill_of_between {s : State} {c : CliRef} (hImp : isImp (s.refCode c) = true) (hLo : 0 < (s.cli (refKey c)).buf.length)
    (hHi : (s.cli (refKey c)).buf.length < 3709) : s.judgeFill c = s := by
  have hDepth := le_cliDepth hImp
  unfold State.judgeFill
  rw [State.cliLevel_imp hImp]
  exact if_neg (by omega)

/-- An empty one has. -/
theorem judgeFill_of_empty {s : State} {c : CliRef} (hImp : isImp (s.refCode c) = true) (hEmpty : (s.cli (refKey c)).buf = []) :
    s.judgeFill c = s.cliDef c 29 true := by
  unfold State.judgeFill
  rw [State.cliLevel_imp hImp, hEmpty]
  exact if_pos (.inl rfl)

/-- The level shown moves neither a buffer nor the rows in effect. -/
theorem showLevel_cli (s : State) (c : CliRef) (k : Nat) : (s.showLevel c).cli k = s.cli k :=
  (State.showLevel_fr s c (MaskLe.refl _) (fr_refl fm_showLevel s)).cli (by decide +kernel) k

theorem showLevel_refCode (s : State) (c : CliRef) : (s.showLevel c).refCode c = s.refCode c :=
  refCode_of_live ((State.showLevel_fr s c (MaskLe.refl _) (fr_refl fm_showLevel s)).live (by decide +kernel)) c

/-! ### A block arrives -/

/-- The client with a block behind what its buffer holds. -/
def Cli.behind (x : Cli) (b : B66) : Cli := { x with buf := x.buf ++ [b] }

theorem Cli.behind_length (x : Cli) (b : B66) : (x.behind b).buf.length = x.buf.length + 1 := by
  unfold Cli.behind
  simp

/-- Below five eighths of its depth a buffer takes what comes. -/
theorem impArrive_of_room {x : Cli} {depth : Nat} (b : B66) (hTakes : x.refusing = false) (hFull : x.full = false)
    (hDepth : 3709 ≤ depth) (hRoom : x.buf.length ≤ 2318) : impArrive x depth b = (x.behind b, false, false) := by
  have hLow : ¬ depth ≤ (x.behind b).buf.length := by
    rw [x.behind_length]
    omega
  have hMark : (x.full || decide (depth ≤ (x.behind b).buf.length)) = x.full := by
    rw [decide_eq_false hLow, Bool.or_false]
  unfold impArrive
  dsimp only
  rw [if_neg (by rw [hTakes]; decide), if_neg (by rw [hFull]; simp), if_neg (by omega)]
  exact congrArg (fun full => ({ x.behind b with full := full }, false, false)) hMark

theorem impTake_of_room {s : State} {c : CliRef} (b : B66) (hImp : isImp (s.refCode c) = true)
    (hTakes : (s.cli (refKey c)).refusing = false) (hFull : (s.cli (refKey c)).full = false)
    (hRoom : (s.cli (refKey c)).buf.length ≤ 2318) :
    s.impTake c b = s.setCli (refKey c) (fun _ => (s.cli (refKey c)).behind b) := by
  have hLength := (s.cli (refKey c)).behind_length b
  unfold State.impTake
  rw [impArrive_of_room b hTakes hFull (le_cliDepth hImp) hRoom]
  refine judgeFill_of_between ((congrArg isImp (State.setCli_refCode ..)).trans hImp) ?_ ?_ <;> rw [State.cli_setCli_same] <;> omega

/-- The client whose line has been read up to `recv`. -/
def Cli.synced (x : Cli) (recv : BlkRx) : Cli := { x with recv := recv }

/-- A block period of an ingress context that brings one block and reads none takes it, and shows and judges the fill. -/
theorem impBlock_of_one {s : State} {B e : Nat} {p : ImpPeriod} {recv : BlkRx} {b : B66} (hOn : s.refOn (.ctx B 0 e) = true)
    (hRuns : s.datapath (B / 8) = true) (hImp : isImp (s.cliCode B 0 e) = true)
    (hLine : (s.cli (ckey B 0 e)).recv.push p.arrive = (recv, [b])) (hRead : p.read = false) :
    s.impBlock (.ctx B 0 e) p =
      (((s.setCli (ckey B 0 e) (fun x => x.synced recv)).impTake (.ctx B 0 e) b).showLevel (.ctx B 0 e)).judgeFill (.ctx B 0 e) := by
  have hRef : s.refRuns (.ctx B 0 e) = true := hRuns
  have hCode : isImp (s.refCode (.ctx B 0 e)) = true := hImp
  unfold State.impBlock
  rw [if_pos (by rw [hOn, hRef, hCode]; rfl)]
  dsimp only
  rw [refKey_ctx, hLine, if_neg (by rw [hRead]; decide)]
  rfl

/-- With room in its buffer, the block goes behind what that holds. -/
theorem impBlock_takes {s : State} {B e : Nat} {p : ImpPeriod} {recv : BlkRx} {b : B66} (hOn : s.refOn (.ctx B 0 e) = true)
    (hRuns : s.datapath (B / 8) = true) (hImp : isImp (s.cliCode B 0 e) = true)
    (hLine : (s.cli (ckey B 0 e)).recv.push p.arrive = (recv, [b])) (hRead : p.read = false)
    (hTakes : (s.cli (ckey B 0 e)).refusing = false) (hFull : (s.cli (ckey B 0 e)).full = false)
    (hRoom : (s.cli (ckey B 0 e)).buf.length ≤ 2318) :
    (s.impBlock (.ctx B 0 e) p).cli (ckey B 0 e) = ((s.cli (ckey B 0 e)).synced recv).behind b := by
  rw [impBlock_of_one hOn hRuns hImp hLine hRead]
  have hSynced : (s.setCli (ckey B 0 e) (fun x => x.synced recv)).cli (ckey B 0 e) = (s.cli (ckey B 0 e)).synced recv :=
    State.cli_setCli_same ..
  have hCode : isImp ((s.setCli (ckey B 0 e) (fun x => x.synced recv)).refCode (.ctx B 0 e)) = true :=
    (congrArg isImp (State.setCli_refCode ..)).trans hImp
  generalize s.setCli (ckey B 0 e) (fun x => x.synced recv) = u at hSynced hCode
  have hTaken : u.impTake (.ctx B 0 e) b = u.setCli (ckey B 0 e) (fun _ => ((s.cli (ckey B 0 e)).synced recv).behind b) := by
    rw [← hSynced]
    exact impTake_of_room b hCode (by rwa [refKey_ctx, hSynced]) (by rwa [refKey_ctx, hSynced]) (by rwa [refKey_ctx, hSynced])
  have hHeld : (u.impTake (.ctx B 0 e) b).cli (ckey B 0 e) = ((s.cli (ckey B 0 e)).synced recv).behind b := by
    rw [hTaken, State.cli_setCli_same]
  have hLength := ((s.cli (ckey B 0 e)).synced recv).behind_length b
  have hRoom' : ((s.cli (ckey B 0 e)).synced recv).buf.length ≤ 2318 := hRoom
  rw [judgeFill_of_between, showLevel_cli, hHeld]
  · rw [showLevel_refCode, hTaken, State.setCli_refCode, hCode]
  · rw [showLevel_cli, refKey_ctx, hHeld]
    omega
  · rw [showLevel_cli, refKey_ctx, hHeld]
    omega

theorem State.cli_emit (s : State) (o : Out) (k : Nat) : (s.emit o).cli k = s.cli k := rfl

/-! ### A read from an empty buffer -/

/-- The client whose last block out was an idle one, so that idles may go behind it. -/
def Cli.idled (x : Cli) : Cli := { x with lastSep := true }

theorem impRead_of_empty {x : Cli} (depth : Nat) (h : x.buf = []) : impRead x depth = (idleBlk, x.idled, true) := by
  unfold impRead
  dsimp only
  split
  · rfl
  · split
    next hSome => exact absurd (h.symm.trans hSome) (List.cons_ne_nil _ _).symm
    next => rfl

/-- An empty buffer gives an idle block, which is counted. -/
theorem impGive_of_empty {s : State} {c : CliRef} (hEmpty : (s.cli (refKey c)).buf = []) :
    s.impGive c = (idleBlk, (s.countIns c).setCli (refKey c) (fun _ => (s.cli (refKey c)).idled)) := by
  unfold State.impGive
  rw [impRead_of_empty _ hEmpty]
  rfl

theorem State.countIns_ctx (s : State) (B d e : Nat) : s.countIns (.ctx B d e) = s.tcount (pgCli B d) T_CLI_CNT e CLI_CNT.idle_ins := rfl
theorem State.countIns_line (s : State) (n : Nat) : s.countIns (.line n) = s.count (pgEth n) ETH_IDLE_INS := rfl

/-- A block that leaves a context's buffer goes to its segments or out: neither the buffer nor a count moves again. -/
theorem impOut_ctx_eq (s : State) (B d e : Nat) : ∃ u : Cli → Cli, (∀ y, (u y).buf = y.buf) ∧
    (s.impOut (.ctx B d e) = (s.impGive (.ctx B d e)).2.setCli (ckey B d e) u ∨
      ∃ o, s.impOut (.ctx B d e) = ((s.impGive (.ctx B d e)).2.setCli (ckey B d e) u).emit o) := by
  unfold State.impOut
  generalize s.impGive (.ctx B d e) = p
  obtain ⟨b, v⟩ := p
  dsimp only
  split
  · exact ⟨fun x => { x with rx := x.rx ++ [b] }, fun _ => rfl, .inl rfl⟩
  · refine ⟨_, ?_, .inr ⟨_, rfl⟩⟩
    exact fun _ => rfl

theorem impOut_ctx_keeps {P : State → Prop} {s : State} {B d e : Nat}
    (hSet : ∀ u : Cli → Cli, (∀ y, (u y).buf = y.buf) → P ((s.impGive (.ctx B d e)).2.setCli (ckey B d e) u))
    (hEmit : ∀ v o, P v → P (v.emit o)) : P (s.impOut (.ctx B d e)) := by
  obtain ⟨u, hBuf, hOut | ⟨o, hOut⟩⟩ := impOut_ctx_eq s B d e <;> rw [hOut]
  · exact hSet u hBuf
  · exact hEmit _ o (hSet u hBuf)

theorem impOut_ctx_of_empty {s : State} {B d e : Nat} (hEmpty : (s.cli (ckey B d e)).buf = []) :
    ((s.impOut (.ctx B d e)).cli (ckey B d e)).buf = [] ∧ (s.impOut (.ctx B d e)).tget (pgCli B d) T_CLI_CNT e CLI_CNT.idle_ins =
      (s.tget (pgCli B d) T_CLI_CNT e CLI_CNT.idle_ins + 1) % 2 ^ 32 := by
  have hCount : (s.countIns (.ctx B d e)).tget (pgCli B d) T_CLI_CNT e CLI_CNT.idle_ins =
      (s.tget (pgCli B d) T_CLI_CNT e CLI_CNT.idle_ins + 1) % 2 ^ 32 := by
    rw [State.countIns_ctx]
    exact State.tget_tput_same _ _ _ _ _ _ (by decide) (by decide)
  have hGive := impGive_of_empty (s := s) (c := .ctx B d e) hEmpty
  constructor
  · refine impOut_ctx_keeps (P := fun v => (v.cli (ckey B d e)).buf = []) (fun u hBuf => ?_) (fun v o h => ?_)
    · rw [State.cli_setCli_same, hBuf, hGive, refKey_ctx, State.cli_setCli_same]
      exact hEmpty
    · rwa [State.cli_emit]
  · refine impOut_ctx_keeps (P := fun v => v.tget (pgCli B d) T_CLI_CNT e CLI_CNT.idle_ins =
      (s.tget (pgCli B d) T_CLI_CNT e CLI_CNT.idle_ins + 1) % 2 ^ 32) (fun u _ => ?_) (fun v o h => ?_)
    · rw [State.tget_setCli, hGive, State.tget_setCli, hCount]
    · rwa [State.emit_tget]

/-- A block period of a context that brings no block and reads one: what it has received of its line aside, it reads, shows and
judges. -/
theorem impBlock_of_none {s : State} {B d e : Nat} {p : ImpPeriod} (hOn : s.refOn (.ctx B d e) = true)
    (hRuns : s.datapath (B / 8) = true) (hImp : isImp (s.cliCode B d e) = true) (hRead : p.read = true)
    (hLine : d = 0 → ((s.cli (ckey B d e)).recv.push p.arrive).2 = []) :
    ∃ u, Fr fm_setCli s u ∧ (u.cli (ckey B d e)).buf = (s.cli (ckey B d e)).buf ∧
      s.impBlock (.ctx B d e) p = ((u.impOut (.ctx B d e)).showLevel (.ctx B d e)).judgeFill (.ctx B d e) := by
  have hRef : s.refRuns (.ctx B d e) = true := hRuns
  have hCode : isImp (s.refCode (.ctx B d e)) = true := hImp
  unfold State.impBlock
  rw [if_pos (by rw [hOn, hRef, hCode]; rfl)]
  dsimp only
  cases d with
  | succ d => exact ⟨s, fr_refl _ s, rfl, by rw [if_pos hRead]; rfl⟩
  | zero =>
    refine ⟨s.setCli (ckey B 0 e) (fun x => x.synced ((s.cli (ckey B 0 e)).recv.push p.arrive).1),
      State.setCli_fr s _ _ (MaskLe.refl _) (fr_refl _ s), by rw [State.cli_setCli_same]; rfl, ?_⟩
    rw [refKey_ctx, hLine rfl, if_pos hRead]
    rfl

theorem impBlock_inserts {s : State} {B d e : Nat} {p : ImpPeriod} (hOn : s.refOn (.ctx B d e) = true)
    (hRuns : s.datapath (B / 8) = true) (hImp : isImp (s.cliCode B d e) = true) (hRead : p.read = true)
    (hEmpty : (s.cli (ckey B d e)).buf = []) (hLine : d = 0 → ((s.cli (ckey B d e)).recv.push p.arrive).2 = []) :
    (s.impBlock (.ctx B d e) p).tget (pgCli B d) T_CLI_CNT e CLI_CNT.idle_ins =
      (s.tget (pgCli B d) T_CLI_CNT e CLI_CNT.idle_ins + 1) % 2 ^ 32 ∧
    ((s.impBlock (.ctx B d e) p).cli (ckey B d e)).buf = [] ∧ (s.impBlock (.ctx B d e) p).cliB B d e CLI_STATUS.crate = true := by
  obtain ⟨u, hFr, hBuf, hBlock⟩ := impBlock_of_none hOn hRuns hImp hRead hLine
  obtain ⟨hOut, hCount⟩ := impOut_ctx_of_empty (hBuf.trans hEmpty)
  have hLive : (u.impOut (.ctx B d e)).live = s.live :=
    (State.impOut_fr u (.ctx B d e) (MaskLe.refl fm_impOut) (fr_refl _ u)).live (by decide +kernel) |>.trans (hFr.live (by decide +kernel))
  have hHeld : (((u.impOut (.ctx B d e)).showLevel (.ctx B d e)).cli (ckey B d e)).buf = [] := by
    rw [showLevel_cli, hOut]
  have hCode : isImp (((u.impOut (.ctx B d e)).showLevel (.ctx B d e)).refCode (.ctx B d e)) = true := by
    rw [showLevel_refCode, refCode_of_live hLive]
    exact hImp
  rw [hBlock, judgeFill_of_empty hCode hHeld]
  refine ⟨?_, ?_, cliDef_ctx_shows _ B d e 29 true false⟩
  · rw [cliDef_keeps_count (clientField_idleIns B d), showLevel_keeps_count, hCount, hFr.tget _ _ _ _ (by decide +kernel)]
  · rw [(cliDef_ctx_fr B d e 29 true false (MaskLe.refl _) (fr_refl _ _)).cli (by decide +kernel), hHeld]

/-! ### A line client's insertions (R212) -/

theorem pgEth_ne_pgEpi (n r : Nat) : pgEth n ≠ pgEpi r := by
  unfold pgEth pgEpi rgnPg blkPg
  omega

theorem besideEpi_ethIdleIns (n : Nat) : BesideEpi (pgEth n) ETH_IDLE_INS :=
  ⟨pgEth_ne_pgEpi n, by decide, by decide +kernel⟩

theorem ethField_place_ne_idleIns {kind k : Nat} {f : Field} (h : ethField kind = some (f, k)) : ETH_IDLE_INS.place ≠ f.place := by
  unfold ethField at h
  match kind - 25, h with
  | 0, rfl | 1, rfl | 2, rfl | 4, rfl => decide

/-- A defect of a line client counts no idle block. -/
theorem cliDef_line_keeps_idleIns (s : State) (n kind : Nat) (on deconf : Bool) :
    (s.cliDef (.line n) kind on deconf).rd (pgEth n) ETH_IDLE_INS = s.rd (pgEth n) ETH_IDLE_INS := by
  unfold State.cliDef
  dsimp only
  cases hField : ethField kind with
  | none => rfl
  | some fk =>
    obtain ⟨f, k⟩ := fk
    dsimp only
    split
    · rfl
    · have hShown := State.refreshEth_fr (M := fm_refreshEth) _ n (MaskLe.refl _) (fr_refl _ (((s.wrb (pgEth n) f on).ev (pgEth n)
        k).epiPush (n / 32) false (16 * (n / 4) + 4 * (n % 4)) kind on deconf))
      rw [hShown.rd _ _ (by decide +kernel), (besideEpi_ethIdleIns n).epiPush, State.rd_ev,
        State.rd_wrb_place _ (ethField_place_ne_idleIns hField)]

theorem judgeFill_line_keeps_idleIns (s : State) (n : Nat) :
    (s.judgeFill (.line n)).rd (pgEth n) ETH_IDLE_INS = s.rd (pgEth n) ETH_IDLE_INS := by
  unfold State.judgeFill
  dsimp only
  split
  · exact cliDef_line_keeps_idleIns s n 29 true false
  · rfl

theorem impOut_line_of_empty {s : State} {n : Nat} (hEmpty : (s.cli (lineKey n)).buf = []) :
    (s.impOut (.line n)).rd (pgEth n) ETH_IDLE_INS = (s.rd (pgEth n) ETH_IDLE_INS + 1) % 2 ^ 32 := by
  have hGive := impGive_of_empty (s := s) (c := .line n) hEmpty
  have hSent (u : Cli → Cli) : Fr fm_pcsSend (s.impGive (.line n)).2 (((s.impGive (.line n)).2.setCli (lineKey n) u).pcsSend n) :=
    State.pcsSend_fr _ n (MaskLe.refl _) (State.setCli_fr _ _ u (by decide +kernel) (fr_refl _ _))
  have hIns : (s.impGive (.line n)).2.rd (pgEth n) ETH_IDLE_INS = (s.rd (pgEth n) ETH_IDLE_INS + 1) % 2 ^ 32 := by
    rw [hGive, State.countIns_line]
    exact State.rd_count_same ..
  exact ((hSent _).rd _ _ (by decide +kernel)).trans hIns

theorem impBlock_line_inserts {s : State} {n : Nat} {p : ImpPeriod} (hOn : s.ethEn n = true) (hRuns : s.datapath (laneRegion n) = true)
    (hRead : p.read = true) (hEmpty : (s.cli (lineKey n)).buf = []) :
    (s.impBlock (.line n) p).rd (pgEth n) ETH_IDLE_INS = (s.rd (pgEth n) ETH_IDLE_INS + 1) % 2 ^ 32 := by
  have hLine : s.refOn (.line n) = true := hOn
  have hRef : s.refRuns (.line n) = true := hRuns
  unfold State.impBlock
  rw [if_pos (by rw [hLine, hRef]; rfl)]
  dsimp only
  rw [if_pos hRead, judgeFill_line_keeps_idleIns]
  exact impOut_line_of_empty hEmpty

/-! ### Holdover of the rate generator (R218) -/

theorem rateHold_holds {s : State} {B e : Nat} (hB : B < 64) (hSpeaks : s.regionSpeaks (B / 8) = true) (hRuns : s.datapath (B / 8) = true)
    (hGen : (s.genRole B e).isSome = true) (hLost : s.rateLost B e = true) (hFree : s.cliB B 1 e CLI_STATUS.gen_hold = false) :
    (s.rateHold B e).cliB B 1 e CLI_STATUS.gen_hold = true ∧ (s.rateHold B e).hasEvt (pgMap B) 3 = true := by
  unfold State.rateHold
  rw [if_pos ⟨hB, hRuns, hGen, hLost, by rw [hFree]; rfl⟩]
  generalize hSet : s.setCli (ckey B 1 e) (fun c => { c with goodRun := 0 }) = u
  have hFr := State.tputb_fr u (pgMap B) T_CLI_STATUS e CLI_STATUS.gen_hold true (MaskLe.refl _) (fr_refl (mTab T_CLI_STATUS) u)
  have hReset : Fr fm_setCli s u := hSet ▸ State.setCli_fr s _ _ (MaskLe.refl _) (fr_refl _ s)
  constructor
  · refine ((State.ev_fr _ (pgMap B) 3 (MaskLe.refl _) (fr_refl fm_ev _)).tgetb (pgMap B) T_CLI_STATUS e CLI_STATUS.gen_hold
      (by decide +kernel)).trans ?_
    exact State.tgetb_tputb_same _ _ _ _ _ _ (by decide) (by decide)
  · refine hasEvt_ev_in _ _ _ _ (pageRegion_map B hB) ?_
    rw [hFr.regionSpeaks (by decide +kernel), hReset.regionSpeaks (by decide +kernel), hSpeaks]

theorem rateHoldEnd_ends {s : State} {B e : Nat} (hB : B < 64) (hRuns : s.datapath (B / 8) = true)
    (hHold : s.cliB B 1 e CLI_STATUS.gen_hold = true) (hGood : 16 ≤ (s.cli (ckey B 1 e)).goodRun) :
    (s.rateHoldEnd B e).cliB B 1 e CLI_STATUS.gen_hold = false ∧ ∀ pg f, (s.rateHoldEnd B e).rd pg f = s.rd pg f := by
  unfold State.rateHoldEnd
  rw [if_pos ⟨hB, hRuns, hHold, hGood⟩]
  exact ⟨State.tgetb_tputb_same _ _ _ _ _ _ (by decide) (by decide), fun pg f => State.rd_tputb ..⟩

/-! ### The end of cRATE (R213) -/

theorem crateOff_of_level {s : State} {c : CliRef} (hOn : s.refOn c = true) (hLo : cliDepth (s.refCode c) ≤ 4 * s.cliLevel c)
    (hHi : 4 * s.cliLevel c ≤ 3 * cliDepth (s.refCode c)) : s.crateOff c = s.cliDef c 29 false := by
  unfold State.crateOff
  exact if_pos (by rw [hOn, decide_eq_true ⟨hLo, hHi⟩]; rfl)

theorem State.cliB_after (s u : State) (B d e : Nat) (f : TField) : (s.after u).cliB B d e f = u.cliB B d e f := rfl

/-- Settles O29: an arriving block goes behind the others where there is room (`impBlock_takes`), a read of an empty buffer is counted
(`impBlock_inserts`, `impBlock_line_inserts`); the end of cRATE (R219) is a change of the client's defect (`cliDef_shows`), and the
holdover is one bit of the context's status (`rateHold_holds`, `rateHoldEnd_ends`). -/
theorem clientBuffers : Obligations.ClientBuffers := by
  unfold Obligations.ClientBuffers
  refine ⟨fun s B e p m x recv b hRun hOn hRuns hImp hx hLine hRead hTakes hFull hRoom =>
      ⟨_, run_eq_next (fun s => s.impBlock (.ctx B 0 e) p) hRun, ?_⟩,
    fun s B d e p m hRun hOn hRuns hImp hRead hEmpty hLine => ⟨_, run_eq_next (fun s => s.impBlock (.ctx B d e) p) hRun, ?_⟩,
    fun s n p hRun hOn hRuns hRead hEmpty => ⟨_, run_eq_next (fun s => if (s.impBlock (.line n) p).refRuns (.line n) then
      (s.impBlock (.line n) p).refreshTxLf n else s.impBlock (.line n) p) hRun, ?_⟩,
    fun s c f hRun hOn hLevel hLo hHi => ⟨_, run_eq_next (fun s => s.crateOff c) hRun, ?_⟩,
    fun s B e hRun hB hSpeaks hRuns hGen hLost hFree => ⟨_, run_eq_next (fun s => s.rateHold B e) hRun, ?_⟩,
    fun s B e hRun hB hRuns hHold hGood => ⟨_, run_eq_next (fun s => s.rateHoldEnd B e) hRun, ?_⟩⟩
  · subst hx
    rw [State.cli_after, impBlock_takes (s := s.fresh) hOn hRuns hImp hLine hRead hTakes hFull hRoom]
    exact ⟨rfl, rfl⟩
  · rw [State.tget_after, State.cli_after, State.cliB_after]
    exact impBlock_inserts (s := s.fresh) hOn hRuns hImp hRead hEmpty hLine
  · rw [State.rd_after]
    have hTxLf := fr_ite (c := (s.fresh.impBlock (.line n) p).refRuns (.line n) = true)
      (State.refreshTxLf_fr _ n (MaskLe.refl _) (fr_refl fm_refreshTxLf (s.fresh.impBlock (.line n) p))) (fr_refl _ _)
    rw [hTxLf.rd _ _ (by decide +kernel)]
    exact impBlock_line_inserts (s := s.fresh) hOn hRuns hRead hEmpty
  · subst hLevel
    rw [State.cliHas_after, crateOff_of_level (s := s.fresh) hOn hLo hHi]
    exact cliDef_shows _ _ _ _ (by decide)
  · rw [State.cliB_after, State.hasEvt_after]
    exact rateHold_holds (s := s.fresh) hB hSpeaks hRuns hGen hLost hFree
  · rw [State.cliB_after]
    exact rateHoldEnd_ends (s := s.fresh) hB hRuns hHold hGood

end Sys2Proof.Machine

namespace Sys2Proof.Machine

open Sys2Proof

set_option exponentiation.threshold 16384
set_option Elab.async false

/-! ### The rows of a selector page (file 07, R265) -/

/-- An operation whose mask holds no table leaves every row alone. -/
theorem Fr.entry_of_noTable {M : Nat} {s t : State} (h : Fr M s t) (hM : M / 2 ^ 128 % 2 ^ 256 = 0) (pg : Nat) (T : Tab) (e : Nat) :
    t.entry pg T e = s.entry pg T e := by
  refine h.entry pg T e ?_
  have hBit : (M / 2 ^ 128 % 2 ^ 256).testBit (T.code % 256) = false := by rw [hM, Nat.zero_testBit]
  rwa [Nat.testBit_mod_two_pow, decide_eq_true (Nat.mod_lt _ (by decide)), Bool.true_and, Nat.testBit_div_two_pow, Nat.add_comm] at hBit

/-- A page of the selectors: SEL or ISL of some region. -/
def GroupPage (pg : Nat) : Prop := ∃ r, pg = pgSel r ∨ pg = pgIsl r

theorem groupPage_grpPage (G : Nat) : GroupPage (grpPage G) := by
  unfold grpPage
  split
  · exact ⟨_, .inl rfl⟩
  · exact ⟨_, .inr rfl⟩

theorem GroupPage.place {pg : Nat} (h : GroupPage pg) : 4096 ≤ pg ∧ (pg % 4096 = 0x80F ∨ pg % 4096 = 0x812) := by
  obtain ⟨r, rfl | rfl⟩ := h <;> simp only [pgSel, pgIsl, rgnPg] <;> omega

theorem GroupPage.ne_pgPrt {pg : Nat} (h : GroupPage pg) : pg ≠ pgPrt := by
  have := h.place
  unfold pgPrt
  omega

theorem GroupPage.ne_pgWng {pg : Nat} (h : GroupPage pg) : pg ≠ pgWng := by
  have := h.place
  unfold pgWng
  omega

theorem GroupPage.ne_pgEpi {pg : Nat} (h : GroupPage pg) (r : Nat) : pg ≠ pgEpi r := by
  have := h.place
  unfold pgEpi rgnPg
  omega

theorem GroupPage.ne_pgFyr {pg : Nat} (h : GroupPage pg) (r : Nat) : pg ≠ pgFyr r := by
  have := h.place
  unfold pgFyr rgnPg
  omega

theorem GroupPage.ne_pgOdi {pg : Nat} (h : GroupPage pg) (B : Nat) : pg ≠ pgOdi B := by
  have := h.place
  unfold pgOdi blkPg
  omega

theorem GroupPage.ne_pgMpt {pg : Nat} (h : GroupPage pg) (B : Nat) : pg ≠ pgMpt B := by
  have := h.place
  unfold pgMpt blkPg
  omega

theorem GroupPage.ne_pgCli {pg : Nat} (h : GroupPage pg) (B d : Nat) : pg ≠ pgCli B d := by
  have := h.place
  unfold pgCli pgDmp pgMap blkPg
  split <;> omega

/-- Rows of different pages are different rows. -/
theorem State.entry_setEntry_page (s : State) {pg pg' : Nat} {T T' : Tab} (e e' v : Nat) (hPage : pg ≠ pg') (hT : T.code < 256)
    (hT' : T'.code < 256) : (s.setEntry pg' T' e' v).entry pg T e = s.entry pg T e := by
  rw [State.entry_setEntry_key]
  have hRow : e % 2 ^ 24 < 2 ^ 24 := Nat.mod_lt _ (by decide)
  have hRow' : e' % 2 ^ 24 < 2 ^ 24 := Nat.mod_lt _ (by decide)
  unfold tkey
  omega

theorem State.entry_tput_page (s : State) {pg pg' : Nat} {T T' : Tab} (e e' : Nat) (f : TField) (v : Nat) (hPage : pg ≠ pg')
    (hT : T.code < 256) (hT' : T'.code < 256) : (s.tput pg' T' e' f v).entry pg T e = s.entry pg T e := by
  unfold State.tput
  exact s.entry_setEntry_page _ _ _ hPage hT hT'

theorem State.entry_each {α : Type} (s : State) (l : List α) {f : State → α → State} {pg e : Nat} {T : Tab}
    (h : ∀ s x, (f s x).entry pg T e = s.entry pg T e) : (s.each l f).entry pg T e = s.entry pg T e :=
  each_keeps (·.entry pg T e) s l f h

theorem State.entry_epi (s : State) (m : SMap Epi) (pg : Nat) (T : Tab) (e : Nat) :
    State.entry { s with epi := m } pg T e = s.entry pg T e := rfl

theorem State.entry_setCli (s : State) (k : Nat) (u : Cli → Cli) (pg : Nat) (T : Tab) (e : Nat) :
    (s.setCli k u).entry pg T e = s.entry pg T e := rfl

theorem State.entry_setCtx (s : State) (B d k : Nat) (u : Ctx → Ctx) (pg : Nat) (T : Tab) (e : Nat) :
    (s.setCtx B d k u).entry pg T e = s.entry pg T e := rfl

theorem State.entry_pointSeen (s : State) (m flags pg : Nat) (T : Tab) (e : Nat) :
    (s.pointSeen m flags).entry pg T e = s.entry pg T e := rfl

theorem State.entry_clientBack (s : State) (c : CliRef) (pg : Nat) (T : Tab) (e : Nat) :
    (s.clientBack c).entry pg T e = s.entry pg T e := rfl

theorem State.entry_ev (s : State) (pg' k pg : Nat) (T : Tab) (e : Nat) : (s.ev pg' k).entry pg T e = s.entry pg T e :=
  (State.ev_fr s pg' k (MaskLe.refl _) (fr_refl fm_ev s)).entry_of_noTable (by decide +kernel) _ _ _

theorem State.entry_evWhen (s : State) (c : Bool) (pg' k pg : Nat) (T : Tab) (e : Nat) :
    (s.evWhen c pg' k).entry pg T e = s.entry pg T e :=
  (State.evWhen_fr s c pg' k (MaskLe.refl _) (fr_refl fm_evWhen s)).entry_of_noTable (by decide +kernel) _ _ _

theorem State.entry_notice (s : State) (G kind data pg : Nat) (T : Tab) (e : Nat) :
    (s.notice G kind data).entry pg T e = s.entry pg T e :=
  (State.notice_fr s G kind data (MaskLe.refl _) (fr_refl fm_notice s)).entry_of_noTable (by decide +kernel) _ _ _

theorem State.entry_alarmMoved (s : State) (p : Nat) (point : Bool) (src k pg : Nat) (T : Tab) (e : Nat) :
    (s.alarmMoved p point src k).entry pg T e = s.entry pg T e :=
  (State.alarmMoved_fr s p point src k (MaskLe.refl _) (fr_refl fm_alarmMoved s)).entry_of_noTable (by decide +kernel) _ _ _

theorem State.entry_logRec (s : State) (typ cls src payload pg : Nat) (T : Tab) (e : Nat) :
    (s.logRec typ cls src payload).entry pg T e = s.entry pg T e :=
  (State.logRec_fr s typ cls src payload (MaskLe.refl _) (fr_refl fm_logRec s)).entry_of_noTable (by decide +kernel) _ _ _

theorem State.entry_epiAggOn (s : State) (r pg : Nat) (T : Tab) (e : Nat) : (s.epiAggOn r).entry pg T e = s.entry pg T e :=
  (State.epiAggOn_fr s r (MaskLe.refl _) (fr_refl fm_epiAggOn s)).entry_of_noTable (by decide +kernel) _ _ _

theorem State.entry_epiShow (s : State) (r pg : Nat) (T : Tab) (e : Nat) : (s.epiShow r).entry pg T e = s.entry pg T e :=
  State.entry_wr ..

theorem State.entry_refreshEth (s : State) (n pg : Nat) (T : Tab) (e : Nat) : (s.refreshEth n).entry pg T e = s.entry pg T e :=
  (State.refreshEth_fr s n (MaskLe.refl _) (fr_refl fm_refreshEth s)).entry_of_noTable (by decide +kernel) _ _ _

/-! ### What a client's data does leaves the selectors alone (R231) -/

/-- A table of a selector page. -/
structure GroupTab (pg : Nat) (T : Tab) : Prop where
  page : GroupPage pg
  code : T.code < 256

section
variable {pg e : Nat} {T : Tab} (h : GroupTab pg T)
include h

theorem GroupTab.setEntry_epi (s : State) {T' : Tab} (r e' v : Nat) (hT' : T'.code < 256) :
    (s.setEntry (pgEpi r) T' e' v).entry pg T e = s.entry pg T e :=
  s.entry_setEntry_page _ _ _ (h.page.ne_pgEpi r) h.code hT'

theorem GroupTab.epiOpen (s : State) (r : Nat) (c : EpiChange) (t : Stamp) (late : Bool) :
    (s.epiOpen r c t late).entry pg T e = s.entry pg T e := by
  unfold State.epiOpen
  dsimp only
  rw [State.entry_wr, State.entry_wr, h.setEntry_epi _ _ _ _ (by decide)]

theorem GroupTab.epiClose (s : State) (r e' : Nat) (t : Stamp) (deconf : Bool) :
    (s.epiClose r e' t deconf).entry pg T e = s.entry pg T e := by
  unfold State.epiClose
  dsimp only
  rw [State.entry_wr, h.setEntry_epi _ _ _ _ (by decide), State.entry_logRec]

theorem GroupTab.tput_epi (s : State) {T' : Tab} (r e' : Nat) (f : TField) (v : Nat) (hT' : T'.code < 256) :
    (s.tput (pgEpi r) T' e' f v).entry pg T e = s.entry pg T e :=
  s.entry_tput_page _ _ _ _ (h.page.ne_pgEpi r) h.code hT'

theorem GroupTab.epiLooseOn (s : State) (r : Nat) (c : EpiChange) : (s.epiLooseOn r c).entry pg T e = s.entry pg T e := by
  unfold State.epiLooseOn State.tcount
  rw [State.entry_epi, h.tput_epi _ _ _ _ _ (by decide), h.tput_epi _ _ _ _ _ (by decide)]

theorem GroupTab.epiLooseOff (s : State) (r : Nat) (c : EpiChange) : (s.epiLooseOff r c).entry pg T e = s.entry pg T e := by
  unfold State.epiLooseOff State.tcount
  rw [State.entry_epi, h.tput_epi _ _ _ _ _ (by decide), h.tput_epi _ _ _ _ _ (by decide)]

theorem GroupTab.epiApply (s : State) (r : Nat) (c : EpiChange) : (s.epiApply r c).entry pg T e = s.entry pg T e := by
  unfold State.epiApply
  extract_lets pg' isLoose moved u
  refine (State.entry_epiShow u r _ _ _).trans ?_
  have hMoved (v : State) : (moved v).entry pg T e = v.entry pg T e := State.entry_alarmMoved v _ _ _ _ _ _ _
  unfold u
  (repeat' split) <;>
    simp only [hMoved, State.entry_ev, h.epiLooseOn, h.epiLooseOff, State.entry_epiAggOn, h.epiOpen, h.epiClose]

theorem GroupTab.epiPush (s : State) (r : Nat) (point : Bool) (src kind : Nat) (on deconf : Bool) :
    (s.epiPush r point src kind on deconf).entry pg T e = s.entry pg T e := by
  unfold State.epiPush
  dsimp only
  split
  · split
    · rw [State.entry_epi]
    · rw [h.epiApply, State.entry_epi]
      split
      · rfl
      · exact State.entry_epiAggOn ..
  · rfl

theorem GroupTab.tput_mpt (s : State) (B e' : Nat) (f : TField) (v : Nat) :
    (s.tput (pgMpt B) T_MP_STATUS e' f v).entry pg T e = s.entry pg T e :=
  s.entry_tput_page _ _ _ _ (h.page.ne_pgMpt B) h.code (by decide)

theorem GroupTab.tput_odi (s : State) {T' : Tab} (B e' : Nat) (f : TField) (v : Nat) (hT' : T'.code < 256) :
    (s.tput (pgOdi B) T' e' f v).entry pg T e = s.entry pg T e :=
  s.entry_tput_page _ _ _ _ (h.page.ne_pgOdi B) h.code hT'

theorem GroupTab.tput_cli (s : State) {T' : Tab} (B d e' : Nat) (f : TField) (v : Nat) (hT' : T'.code < 256) :
    (s.tput (pgCli B d) T' e' f v).entry pg T e = s.entry pg T e :=
  s.entry_tput_page _ _ _ _ (h.page.ne_pgCli B d) h.code hT'

theorem GroupTab.pointDef (s : State) (B dir m e' b : Nat) (on deconf : Bool) :
    (s.pointDef B dir m e' b on deconf).entry pg T e = s.entry pg T e := by
  unfold State.pointDef
  extract_lets f s1 s2 s3
  have hSeen : s2.entry pg T e = s1.entry pg T e := by
    unfold s2
    split <;> rfl
  split
  · rfl
  · exact (h.epiPush ..).trans ((State.entry_evWhen ..).trans (hSeen.trans ((State.entry_ev ..).trans (h.tput_mpt ..))))

theorem GroupTab.refreshPoint (s : State) (B dir m e' : Nat) (ssf plm : Bool) :
    (s.refreshPoint B dir m e' ssf plm).entry pg T e = s.entry pg T e := by
  unfold State.refreshPoint
  extract_lets pg' s1 quiet s2 tsf tsd changed s3
  have hQuiet : quiet.entry pg T e = s1.entry pg T e := by simp only [quiet, h.pointDef]
  have hSilent : s2.entry pg T e = s1.entry pg T e := by
    unfold s2
    split
    · exact hQuiet
    · rfl
  calc ((s3.pointSeen m _).evWhen changed pg' 2).entry pg T e
    _ = s3.entry pg T e := State.entry_evWhen ..
    _ = s2.entry pg T e := (h.tput_mpt ..).trans (h.tput_mpt ..)
    _ = s.entry pg T e := hSilent.trans (h.tput_mpt ..)

theorem GroupTab.setRepl (s : State) (B d e' : Nat) (on : Bool) : (s.setRepl B d e' on).entry pg T e = s.entry pg T e := by
  have hShown : ((s.tputb (pgCli B d) T_CLI_STATUS e' CLI_STATUS.replacing on).ev (pgCli B d) 1).entry pg T e = s.entry pg T e :=
    (State.entry_ev ..).trans (h.tput_cli _ _ _ _ _ _ (by decide))
  unfold State.setRepl
  dsimp only
  split
  · rfl
  · split
    · exact (h.tput_cli _ _ _ _ _ _ (by decide)).trans hShown
    · exact hShown

theorem GroupTab.refreshCliIn (s : State) (B e' : Nat) : (s.refreshCliIn B e').entry pg T e = s.entry pg T e := by
  unfold State.refreshCliIn
  dsimp only
  (repeat' split) <;> simp only [h.setRepl]

theorem GroupTab.stampUnlock (s : State) (B e' : Nat) : (s.stampUnlock B e').entry pg T e = s.entry pg T e := by
  unfold State.stampUnlock
  dsimp only
  split
  · exact (State.entry_ev ..).trans (h.tput_odi _ _ _ _ _ (by decide))
  · rfl

theorem GroupTab.refreshCtx (s : State) (B e' : Nat) : (s.refreshCtx B e').entry pg T e = s.entry pg T e := by
  unfold State.refreshCtx
  extract_lets ssf fill s1 s2 s3 pts s4 s5 sf sfOld s6 leg legOld s7 s8 s9 s10 seen
  have hUnlock : s10.entry pg T e = s9.entry pg T e := by
    unfold s10
    split
    · exact h.stampUnlock ..
    · rfl
  have hStatus (u : State) (f : TField) (v : Nat) : (u.tput (pgOdi B) T_CTX_STATUS e' f v).entry pg T e = u.entry pg T e :=
    h.tput_odi _ _ _ _ _ (by decide)
  calc (s10.each _ _).entry pg T e
    _ = s10.entry pg T e := State.entry_each _ _ (fun _ _ => State.entry_pointSeen ..)
    _ = s8.entry pg T e := hUnlock.trans (h.refreshCliIn ..)
    _ = s7.entry pg T e := State.entry_setCtx ..
    _ = s6.entry pg T e := (State.entry_evWhen ..).trans (hStatus ..)
    _ = s5.entry pg T e := (State.entry_evWhen ..).trans (hStatus ..)
    _ = s4.entry pg T e := State.entry_each _ _ (fun u t => (State.entry_pointSeen ..).trans (h.tput_mpt ..))
    _ = s3.entry pg T e := State.entry_each _ _ (fun u p => h.refreshPoint ..)
    _ = s1.entry pg T e := (hStatus ..).trans (hStatus ..)
    _ = s.entry pg T e := State.entry_setCtx ..

theorem GroupTab.cliDef (s : State) (c : CliRef) (kind : Nat) (on deconf : Bool) :
    (s.cliDef c kind on deconf).entry pg T e = s.entry pg T e := by
  cases c with
  | ctx B d e' =>
    have hPushed (u : State) (m : Nat) : (((u.tputb (pgCli B d) T_CLI_STATUS e' (cliField kind) on).ev (pgCli B d) 0).epiPush (B / 8)
        true m kind on deconf).entry pg T e = u.entry pg T e :=
      (h.epiPush ..).trans ((State.entry_ev ..).trans (h.tput_cli _ _ _ _ _ _ (by decide)))
    unfold State.cliDef
    dsimp only
    split
    · rfl
    · split
      · exact (State.entry_each _ _ (fun u k => h.refreshCtx u B k)).trans (hPushed ..)
      · exact hPushed ..
  | line n =>
    unfold State.cliDef
    dsimp only
    (repeat' split) <;> simp only [State.entry_refreshEth, h.epiPush, State.entry_ev, State.wrb, State.entry_wr]

theorem GroupTab.judgeFill (s : State) (c : CliRef) : (s.judgeFill c).entry pg T e = s.entry pg T e := by
  unfold State.judgeFill
  dsimp only
  split
  · exact h.cliDef ..
  · rfl

theorem GroupTab.impTake (s : State) (c : CliRef) (b : B66) : (s.impTake c b).entry pg T e = s.entry pg T e := by
  have hCount (u : State) : (u.countDel c).entry pg T e = u.entry pg T e ∧ (u.countDrop c).entry pg T e = u.entry pg T e := by
    cases c with
    | ctx B d e' => exact ⟨h.tput_cli _ _ _ _ _ _ (by decide), h.tput_cli _ _ _ _ _ _ (by decide)⟩
    | line n => exact ⟨State.entry_wr .., State.entry_wr ..⟩
  unfold State.impTake
  generalize impArrive _ _ b = x
  obtain ⟨x, del, drop⟩ := x
  dsimp -zeta only
  extract_lets s1 s2
  have hDel : s1.entry pg T e = s.entry pg T e := by
    unfold s1
    split
    · exact (hCount s).1
    · rfl
  have hDrop : s2.entry pg T e = s1.entry pg T e := by
    unfold s2
    split
    · exact (hCount s1).2
    · rfl
  exact (h.judgeFill ..).trans (hDrop.trans hDel)

theorem GroupTab.clientIn (s : State) (c : CliRef) (blks : List B66) (bytes : List Nat) :
    (s.clientIn c blks bytes).entry pg T e = s.entry pg T e := by
  have hShow (u : State) : (u.showLevel c).entry pg T e = u.entry pg T e := by
    unfold State.showLevel
    cases c with
    | ctx B d e' => exact h.tput_cli _ _ _ _ _ _ (by decide)
    | line n => rfl
  unfold State.clientIn
  extract_lets code s1
  have hTaken : s1.entry pg T e = s.entry pg T e := by
    unfold s1
    split
    · exact State.entry_each _ _ (fun u b => h.impTake u c b)
    · split <;> rfl
  split
  · exact (h.judgeFill ..).trans ((hShow s1).trans hTaken)
  · exact hTaken

theorem GroupTab.feed (s : State) (r : Nat) (group : Bool) (i kind client snap : Nat) (payload : List Byte) :
    (s.feed r group i kind client snap payload).entry pg T e = s.entry pg T e := by
  unfold State.feed
  dsimp only
  exact (State.entry_each _ _ (fun u n => h.clientIn ..)).trans
    (State.entry_each _ _ (fun u p => (h.clientIn ..).trans (State.entry_setCli ..)))

/-- What is taken back of a group's input is data of clients (R231). -/
theorem GroupTab.groupBack (s : State) (G : Nat) : (s.groupBack G).entry pg T e = s.entry pg T e := by
  unfold State.groupBack
  extract_lets r i s1 s2
  have hBack : s2.entry pg T e = s.entry pg T e :=
    (State.entry_each _ _ (fun _ _ => State.entry_clientBack ..)).trans (State.entry_each _ _ (fun _ _ => State.entry_clientBack ..))
  split
  · dsimp only
    generalize (if s2.gSt G GRP_STATUS.sel = 0 then _ else _ : Option (Nat × List Byte)) = o
    cases o with
    | none => exact hBack
    | some x => exact (h.feed ..).trans hBack
  · exact hBack

/-- An APS channel stands on the page PRT (R254). -/
theorem GroupTab.tput_prt (s : State) {T' : Tab} (e' : Nat) (f : TField) (v : Nat) (hT' : T'.code < 256) :
    (s.tput pgPrt T' e' f v).entry pg T e = s.entry pg T e :=
  s.entry_tput_page _ _ _ _ h.page.ne_pgPrt h.code hT'

theorem GroupTab.setFop (s : State) (a : Nat) (f cnt : TField) (on : Bool) : (s.setFop a f cnt on).entry pg T e = s.entry pg T e := by
  unfold State.setFop
  extract_lets s1 s2 s3
  have hShown : s1.entry pg T e = s.entry pg T e := h.tput_prt _ _ _ _ (by decide)
  have hCounted : s2.entry pg T e = s1.entry pg T e := by
    unfold s2
    split
    · exact h.tput_prt _ _ _ _ (by decide)
    · rfl
  have hTold : s3.entry pg T e = s2.entry pg T e := by
    unfold s3
    split <;> exact State.entry_notice ..
  split
  · rfl
  · exact (State.entry_ev ..).trans (hTold.trans (hCounted.trans hShown))

theorem GroupTab.apsRefresh (s : State) (a : Nat) : (s.apsRefresh a).entry pg T e = s.entry pg T e := by
  have hShown (u : State) (b : Bool) : (u.tputb pgPrt T_APS_RX a APS_RX.outstanding b).entry pg T e = u.entry pg T e :=
    h.tput_prt _ _ _ _ (by decide)
  unfold State.apsRefresh
  dsimp only
  (repeat' split) <;> simp only [h.setFop, hShown]

theorem GroupTab.gApsRefresh (s : State) (G : Nat) : (s.gApsRefresh G).entry pg T e = s.entry pg T e := by
  unfold State.gApsRefresh
  split
  · exact h.apsRefresh ..
  · rfl

end

/-! ### A group's status entry and record (file 07, R231, R239, R265) -/

theorem groupTab_grpStat (G : Nat) : GroupTab (grpPage G) (grpStat G) :=
  ⟨groupPage_grpPage G, by unfold grpStat; split <;> decide⟩

theorem groupTab_grpCntT (G : Nat) : GroupTab (grpPage G) (grpCntT G) :=
  ⟨groupPage_grpPage G, by unfold grpCntT; split <;> decide⟩

theorem grpStat_ne_grpCntT (G : Nat) : (grpStat G).code % 256 ≠ (grpCntT G).code % 256 := by
  unfold grpStat grpCntT
  split <;> decide

theorem grpStat_rows (G : Nat) : (grpStat G).rows = 1 := by
  unfold grpStat
  split <;> rfl

theorem grpCntT_rows (G : Nat) : (grpCntT G).rows = 2 := by
  unfold grpCntT
  split <;> rfl

/-- Two fields of a status entry share no bit. -/
abbrev StatusApart (f g : TField) : Prop := f.lo ≤ f.hi ∧ g.lo ≤ g.hi ∧ g.hi < 128 ∧ (f.hi < g.lo ∨ g.hi < f.lo)

theorem gSt_gPut_same (s : State) (G : Nat) (f : TField) (v : Nat) (hBits : f.lo ≤ f.hi) (hRow : f.hi < 128) :
    (s.gPut G f v).gSt G f = v % 2 ^ (f.hi - f.lo + 1) :=
  State.tget_tput_same _ _ _ _ _ _ hBits (by rw [grpStat_rows]; exact hRow)

theorem gSt_gPut_sel (s : State) (G leg : Nat) : (s.gPut G GRP_STATUS.sel leg).gSt G GRP_STATUS.sel = leg % 2 :=
  gSt_gPut_same s G _ leg (by decide) (by decide)

theorem gSt_gPut_apart (s : State) (G : Nat) {f g : TField} (v : Nat) (h : StatusApart f g) : (s.gPut G f v).gSt G g = s.gSt G g := by
  obtain ⟨hf, hg, hRow, hApart⟩ := h
  exact State.tget_tput_ne _ _ _ _ _ _ _ hf hg (by rw [grpStat_rows]; exact hRow) hApart

theorem gStB_gPutB_same (s : State) (G : Nat) (f : TField) (b : Bool) (hBits : f.lo ≤ f.hi) (hRow : f.hi < 128) :
    (s.gPutB G f b).gStB G f = b :=
  State.tgetb_tputb_same _ _ _ _ _ _ hBits (by rw [grpStat_rows]; exact hRow)

theorem gStB_congr {s t : State} {G : Nat} {f : TField} (h : t.gSt G f = s.gSt G f) : t.gStB G f = s.gStB G f := by
  unfold State.gStB
  rw [h]

theorem gSt_of_entry {s t : State} {G : Nat} (h : t.entry (grpPage G) (grpStat G) (grpIndex G) = s.entry (grpPage G) (grpStat G) (grpIndex G))
    (g : TField) : t.gSt G g = s.gSt G g := congrArg (fun v => getBits v g.hi g.lo) h

theorem gSt_setGrp (s : State) (G : Nat) (u : Grp → Grp) (G' : Nat) (g : TField) : (s.setGrp G u).gSt G' g = s.gSt G' g := rfl

theorem gSt_ev (s : State) (pg k G : Nat) (g : TField) : (s.ev pg k).gSt G g = s.gSt G g := gSt_of_entry (State.entry_ev ..) g

theorem gSt_notice (s : State) (G' kind data G : Nat) (g : TField) : (s.notice G' kind data).gSt G g = s.gSt G g :=
  gSt_of_entry (State.entry_notice ..) g

theorem gSt_gApsRefresh (s : State) (G' G : Nat) (g : TField) : (s.gApsRefresh G').gSt G g = s.gSt G g :=
  gSt_of_entry ((groupTab_grpStat G).gApsRefresh ..) g

theorem entry_gCount (s : State) (G : Nat) (f : TField) :
    (s.gCount G f).entry (grpPage G) (grpStat G) (grpIndex G) = s.entry (grpPage G) (grpStat G) (grpIndex G) := by
  unfold State.gCount State.tcount State.tput
  rw [State.entry_setEntry_tab _ _ _ _ _ _ _ _ (grpStat_ne_grpCntT G)]

theorem gSt_gCount (s : State) (G : Nat) (f g : TField) : (s.gCount G f).gSt G g = s.gSt G g := gSt_of_entry (entry_gCount ..) g

theorem grps_gPut (s : State) (G : Nat) (f : TField) (v : Nat) : (s.gPut G f v).grps = s.grps :=
  (State.gPut_fr s G f v (MaskLe.refl _) (fr_refl fm_gPut s)).grps (by decide +kernel)

theorem grps_gCount (s : State) (G : Nat) (f : TField) : (s.gCount G f).grps = s.grps :=
  (State.gCount_fr s G f (MaskLe.refl _) (fr_refl fm_gCount s)).grps (by decide +kernel)

theorem grps_ev (s : State) (pg k : Nat) : (s.ev pg k).grps = s.grps :=
  (State.ev_fr s pg k (MaskLe.refl _) (fr_refl fm_ev s)).grps (by decide +kernel)

theorem grps_notice (s : State) (G kind data : Nat) : (s.notice G kind data).grps = s.grps :=
  (State.notice_fr s G kind data (MaskLe.refl _) (fr_refl fm_notice s)).grps (by decide +kernel)

theorem grps_gApsRefresh (s : State) (G : Nat) : (s.gApsRefresh G).grps = s.grps :=
  (State.gApsRefresh_fr s G (MaskLe.refl _) (fr_refl fm_gApsRefresh s)).grps (by decide +kernel)

theorem grps_groupBack (s : State) (G : Nat) : (s.groupBack G).grps = s.grps :=
  (State.groupBack_fr s G (MaskLe.refl _) (fr_refl fm_groupBack s)).grps (by decide +kernel)

theorem grp_of_grps {s t : State} (h : t.grps = s.grps) (G : Nat) : t.grp G = s.grp G := by
  unfold State.grp
  rw [h]

theorem grp_setGrp (s : State) (G : Nat) (u : Grp → Grp) : (s.setGrp G u).grp G = u (s.grp G) := SMap.get_upd_same ..

theorem grp_gPut (s : State) (G : Nat) (f : TField) (v G' : Nat) : (s.gPut G f v).grp G' = s.grp G' := grp_of_grps (grps_gPut ..) G'

theorem grp_gCount (s : State) (G : Nat) (f : TField) (G' : Nat) : (s.gCount G f).grp G' = s.grp G' := grp_of_grps (grps_gCount ..) G'

theorem grp_ev (s : State) (pg k G : Nat) : (s.ev pg k).grp G = s.grp G := grp_of_grps (grps_ev ..) G

theorem grp_notice (s : State) (G' kind data G : Nat) : (s.notice G' kind data).grp G = s.grp G := grp_of_grps (grps_notice ..) G

theorem grp_gApsRefresh (s : State) (G' G : Nat) : (s.gApsRefresh G').grp G = s.grp G := grp_of_grps (grps_gApsRefresh ..) G

theorem live_gPut (s : State) (G : Nat) (f : TField) (v : Nat) : (s.gPut G f v).live = s.live :=
  (State.gPut_fr s G f v (MaskLe.refl _) (fr_refl fm_gPut s)).live (by decide +kernel)

/-- The row of a group is a row in effect. -/
theorem gF_of_live {s t : State} (h : t.live = s.live) (G : Nat) (e i : TField) : t.gF G e i = s.gF G e i := by
  unfold State.gF
  rw [effF_of_live h rfl, effF_of_live h rfl]

theorem gArch_of_live {s t : State} (h : t.live = s.live) (G : Nat) : t.gArch G = s.gArch G := gF_of_live h ..

theorem gRevert_of_live {s t : State} (h : t.live = s.live) (G : Nat) : t.gRevert G = s.gRevert G := by
  unfold State.gRevert
  rw [gF_of_live h]

/-! ### Which groups wait for an evaluation (R31, R261) -/

theorem SMap.get_eq_or_mem {α : Type} (d : α) (m : SMap α) (k : Nat) : m.get d k = d ∨ (k, m.get d k) ∈ m := by
  induction m with
  | nil => exact .inl rfl
  | cons x m ih =>
    obtain ⟨k', v⟩ := x
    unfold SMap.get
    split
    · next h => exact .inr (by rw [h]; exact List.mem_cons_self)
    · exact ih.imp_right (List.mem_cons_of_mem _)

theorem SMap.filter_insert_of_none {α : Type} {p : Nat × α → Bool} {m : SMap α} (k : Nat) (v : α) (h : m.filter p = []) :
    (SMap.insert k v m).filter p = if p (k, v) then [(k, v)] else [] := by
  induction m with
  | nil => simp [SMap.insert, List.filter_cons]
  | cons x m ih =>
    obtain ⟨k', v'⟩ := x
    obtain ⟨hx, hm⟩ : p (k', v') = false ∧ m.filter p = [] := by
      rw [List.filter_cons] at h
      split at h
      · simp at h
      · next hx => exact ⟨by simpa using hx, h⟩
    unfold SMap.insert
    split
    · rw [List.filter_cons, h]
    · rw [List.filter_cons, hx]
      exact ih hm

/-- No group but G has anything that comes in at the end of the DP cycle, nor anything to be evaluated: a search of the groups for
such things finds G alone, if it has them. -/
def State.OnlyWaits (s : State) (G : Nat) : Prop :=
  ∀ p : Grp → Bool, (∀ x, p x = true → x.due = true ∨ x.was.isSome = true) →
    (s.grps.filter (fun e => p e.2)).map (·.1) = if p (s.grp G) then [G] else []

theorem State.OnlyWaits.of_grps {s t : State} {G : Nat} (h : s.OnlyWaits G) (hGrps : t.grps = s.grps) : t.OnlyWaits G := by
  unfold State.OnlyWaits
  rw [hGrps, grp_of_grps hGrps]
  exact h

theorem State.OnlyWaits.setGrp {s : State} {G : Nat} (h : s.OnlyWaits G) (u : Grp → Grp) : (s.setGrp G u).OnlyWaits G := by
  intro p hp
  have hRest : (s.grps.erase G).filter (fun e => p e.2) = [] := by
    rw [List.filter_eq_nil_iff]
    intro e he
    obtain ⟨hMem, hKey⟩ := List.mem_filter.1 he
    intro hpe
    have hIn : e.1 ∈ (s.grps.filter (fun e => p e.2)).map (·.1) := List.mem_map_of_mem (List.mem_filter.2 ⟨hMem, hpe⟩)
    rw [h p hp] at hIn
    split at hIn
    · exact (of_decide_eq_true hKey) (List.mem_singleton.1 hIn)
    · exact List.not_mem_nil hIn
  rw [grp_setGrp]
  show ((SMap.upd {} s.grps G u).filter _).map _ = _
  unfold SMap.upd SMap.set
  split
  · next hDefault =>
    have hQuiet : p {} = false := by
      by_contra hp'
      obtain hDue | hWas := hp {} (by simpa using hp')
      · cases hDue
      · cases hWas
    have hGrp : u (s.grp G) = {} := hDefault
    rw [hRest, hGrp, hQuiet]
    rfl
  · rw [SMap.filter_insert_of_none _ _ hRest]
    show List.map _ (if p (u (s.grp G)) = true then _ else _) = _
    split <;> rfl

/-- With nothing noted and nothing to be evaluated, every group may be the one. -/
theorem quiet_onlyWaits {s : State} (h : s.grps.all (fun x => !x.2.due && x.2.was.isNone) = true) (G : Nat) :
    s.OnlyWaits G ∧ (s.grp G).due = false ∧ (s.grp G).was = none := by
  have hAll : ∀ x ∈ s.grps, x.2.due = false ∧ x.2.was = none := by simpa using h
  have hGrp : (s.grp G).due = false ∧ (s.grp G).was = none := by
    obtain hGet | hMem := SMap.get_eq_or_mem ({} : Grp) s.grps G
    · unfold State.grp
      rw [hGet]
      exact ⟨rfl, rfl⟩
    · exact hAll _ hMem
  refine ⟨fun p hp => ?_, hGrp⟩
  have hNot (x : Grp) (hx : x.due = false ∧ x.was = none) : p x = false := by
    by_contra hpx
    simpa [hx.1, hx.2] using hp x (by simpa using hpx)
  rw [hNot _ hGrp, List.filter_eq_nil_iff.2 (fun e he => by rw [hNot _ (hAll e he)]; decide)]
  rfl

theorem State.OnlyWaits.waiting {s : State} {G : Nat} (h : s.OnlyWaits G) :
    s.waiting = if (s.grp G).was.isSome then [G] else [] := h (fun x => x.was.isSome) (fun _ hx => .inr hx)

theorem State.OnlyWaits.due {s : State} {G : Nat} (h : s.OnlyWaits G) :
    (s.grps.filter (fun x => x.2.due)).map (·.1) = if (s.grp G).due then [G] else [] := h (fun x => x.due) (fun _ hx => .inl hx)

/-! ### The count of ended wait-to-restores (R239) -/

/-- How often wait-to-restore of a group has ended by itself. -/
def State.wtrDone (s : State) (G : Nat) : Nat := s.tget (grpPage G) (grpCntT G) (grpIndex G) GRP_CNT.wtr_done

/-- A counter of a group that is not that of the ended wait-to-restores. -/
abbrev OtherCount (f : TField) : Prop := f.lo ≤ f.hi ∧ (f.hi < GRP_CNT.wtr_done.lo ∨ GRP_CNT.wtr_done.hi < f.lo)

theorem wtrDone_of_entry {s t : State} {G : Nat}
    (h : t.entry (grpPage G) (grpCntT G) (grpIndex G) = s.entry (grpPage G) (grpCntT G) (grpIndex G)) : t.wtrDone G = s.wtrDone G :=
  congrArg (fun v => getBits v GRP_CNT.wtr_done.hi GRP_CNT.wtr_done.lo) h

theorem wtrDone_gPut (s : State) (G : Nat) (f : TField) (v : Nat) : (s.gPut G f v).wtrDone G = s.wtrDone G :=
  State.tget_tput_tab _ _ _ _ _ _ _ _ _ _ (grpStat_ne_grpCntT G).symm

theorem wtrDone_setGrp (s : State) (G : Nat) (u : Grp → Grp) (G' : Nat) : (s.setGrp G u).wtrDone G' = s.wtrDone G' := rfl

theorem wtrDone_gCount_other (s : State) (G : Nat) {f : TField} (h : OtherCount f) : (s.gCount G f).wtrDone G = s.wtrDone G :=
  State.tget_tput_ne _ _ _ _ _ _ _ h.1 (by decide) (by rw [grpCntT_rows]; decide) h.2

theorem wtrDone_gCount_same (s : State) (G : Nat) : (s.gCount G GRP_CNT.wtr_done).wtrDone G = (s.wtrDone G + 1) % 2 ^ 32 :=
  State.tget_tput_same _ _ _ _ _ _ (by decide) (by rw [grpCntT_rows]; decide)

/-! ### What an evaluation may change of a group -/

/-- What of a group's record an evaluation only reads: the conditions, and what waits. -/
def Grp.inputs (x : Grp) : Nat × Nat × Bool × Option GrpWas := (x.wCond, x.pCond, x.due, x.was)

/-- From s to t nothing of group G changes but the status fields W, no condition, no wait-to-restore ends by itself, and nothing comes
to wait. -/
structure GroupFr (G : Nat) (W : List TField) (s t : State) : Prop where
  st : ∀ g, (∀ f ∈ W, StatusApart f g) → t.gSt G g = s.gSt G g
  done : t.wtrDone G = s.wtrDone G
  inputs : (t.grp G).inputs = (s.grp G).inputs
  waits : s.OnlyWaits G → t.OnlyWaits G

theorem GroupFr.refl (G : Nat) (W : List TField) (s : State) : GroupFr G W s s := ⟨fun _ _ => rfl, rfl, rfl, id⟩

section
variable {G : Nat} {W : List TField} {s0 s : State} (hs : GroupFr G W s0 s)
include hs

theorem GroupFr.beside {t : State}
    (hEntry : ∀ T, GroupTab (grpPage G) T → t.entry (grpPage G) T (grpIndex G) = s.entry (grpPage G) T (grpIndex G))
    (hGrps : t.grps = s.grps) : GroupFr G W s0 t :=
  ⟨fun g hg => (gSt_of_entry (hEntry _ (groupTab_grpStat G)) g).trans (hs.st g hg),
    (wtrDone_of_entry (hEntry _ (groupTab_grpCntT G))).trans hs.done,
    (congrArg Grp.inputs (grp_of_grps hGrps G)).trans hs.inputs, fun h => (hs.waits h).of_grps hGrps⟩

theorem GroupFr.gPut {f : TField} (hf : f ∈ W) (v : Nat) : GroupFr G W s0 (s.gPut G f v) :=
  ⟨fun g hg => (gSt_gPut_apart s G v (hg f hf)).trans (hs.st g hg), (wtrDone_gPut ..).trans hs.done,
    (congrArg Grp.inputs (grp_gPut ..)).trans hs.inputs, fun h => (hs.waits h).of_grps (grps_gPut ..)⟩

theorem GroupFr.setGrp (u : Grp → Grp) (hu : ∀ x, (u x).inputs = x.inputs := by intro; rfl) :
    GroupFr G W s0 (s.setGrp G u) :=
  ⟨fun g hg => (gSt_setGrp ..).trans (hs.st g hg), (wtrDone_setGrp ..).trans hs.done, by rw [grp_setGrp, hu]; exact hs.inputs,
    fun h => (hs.waits h).setGrp u⟩

theorem GroupFr.gCount (f : TField) (hf : OtherCount f := by decide) : GroupFr G W s0 (s.gCount G f) :=
  ⟨fun g hg => (gSt_gCount ..).trans (hs.st g hg), (wtrDone_gCount_other s G hf).trans hs.done,
    (congrArg Grp.inputs (grp_gCount ..)).trans hs.inputs, fun h => (hs.waits h).of_grps (grps_gCount ..)⟩

theorem GroupFr.ev (pg k : Nat) : GroupFr G W s0 (s.ev pg k) := hs.beside (fun _ _ => State.entry_ev ..) (grps_ev ..)

theorem GroupFr.notice (G' kind data : Nat) : GroupFr G W s0 (s.notice G' kind data) :=
  hs.beside (fun _ _ => State.entry_notice ..) (grps_notice ..)

theorem GroupFr.gApsRefresh (G' : Nat) : GroupFr G W s0 (s.gApsRefresh G') :=
  hs.beside (fun _ h => h.gApsRefresh ..) (grps_gApsRefresh ..)

theorem GroupFr.groupBack (G' : Nat) : GroupFr G W s0 (s.groupBack G') :=
  hs.beside (fun _ h => h.groupBack ..) (grps_groupBack ..)

omit hs in
theorem GroupFr.ite {c : Prop} [Decidable c] {a b : State} (ha : GroupFr G W s0 a) (hb : GroupFr G W s0 b) :
    GroupFr G W s0 (if c then a else b) := by
  split
  · exact ha
  · exact hb

theorem GroupFr.setSel (hSel : GRP_STATUS.sel ∈ W) (leg : Nat) : GroupFr G W s0 (s.setSel G leg) := by
  have hBase := hs.setGrp (fun x => { x with base := leg })
  exact .ite hBase (((hBase.gPut hSel leg).gCount _).ev _ _)

theorem GroupFr.provEnd (hSel : GRP_STATUS.sel ∈ W) (hProv : GRP_STATUS.prov ∈ W) (leg : Nat) : GroupFr G W s0 (s.provEnd G leg) := by
  unfold State.provEnd
  extract_lets stays s1 s2 s3
  have hBase : GroupFr G W s0 s1 := (hs.gPut hProv _).setGrp _
  have hMoved : GroupFr G W s0 s2 := ((hBase.gPut hSel leg).gCount _).notice _ _ _
  have hLeg : GroupFr G W s0 s3 := .ite ((hBase.gCount _).notice _ _ _) (.ite hMoved (hMoved.gCount _))
  exact hLeg.ev _ _

theorem GroupFr.provJudge (hSel : GRP_STATUS.sel ∈ W) (hProv : GRP_STATUS.prov ∈ W) (rank leg : Nat) :
    GroupFr G W s0 (s.provJudge G rank leg) := .ite (hs.provEnd hSel hProv leg) hs

theorem GroupFr.provStart (hSel : GRP_STATUS.sel ∈ W) (hProv : GRP_STATUS.prov ∈ W) : GroupFr G W s0 (s.provStart G) :=
  (((((hs.gPut hSel _).gPut hProv _).setGrp _).gCount _).notice _ _ _).ev _ _

theorem GroupFr.setWtr (hRun : GRP_STATUS.wtr_run ∈ W) (hLeft : GRP_STATUS.wtr_left ∈ W) (on : Bool) : GroupFr G W s0 (s.setWtr G on) :=
  (hs.gPut hRun _).gPut hLeft _

theorem GroupFr.withdraw (hCmd : GRP_STATUS.cmd ∈ W) : GroupFr G W s0 (s.withdraw G) :=
  .ite (((hs.gPut hCmd 0).gCount _).notice _ _ _) hs

end

/-! ### The top request (Table PRT-3) -/

/-- The request without an operator command: what stands above or below one. -/
def ReqIn.others (x : ReqIn) : ReqIn := { x with cmd := 0 }

/-- A command that a higher request withdraws: MS, MS_W or EXER below it (R240). -/
def ReqIn.Withdrawn (x : ReqIn) : Prop :=
  (x.cmd = opMs ∨ x.cmd = opMsW ∨ x.cmd = opExer) ∧ (topRequest x.others).1 < cmdRank x.cmd

theorem topRequest_lo {x : ReqIn} (h : x.cmd = opLo) : topRequest x = (1, 0xF, 0) := by
  unfold topRequest
  rw [if_pos h]

theorem topRequest_fs {x : ReqIn} (h : x.cmd = opFs) (hP : x.pCond ≠ 2) : topRequest x = (3, 0xD, 1) := by
  unfold topRequest
  rw [if_neg (by rw [h]; decide), if_neg hP, if_pos h]

/-- No leg is at SD or SF. -/
def ReqIn.LegsClear (x : ReqIn) : Prop := x.wCond ≠ 1 ∧ x.wCond ≠ 2 ∧ x.pCond ≠ 1 ∧ x.pCond ≠ 2

/-- What Table PRT-3 gives below the conditions of the legs. -/
theorem topRequest_of_clear {x : ReqIn} (hClear : x.LegsClear) (hLo : x.cmd ≠ opLo) (hFs : x.cmd ≠ opFs) :
    topRequest x = if x.cmd = opMs then (6, 0x7, 1) else if x.cmd = opMsW then (6, 0x7, 0) else if x.wtr then (7, 0x5, 1)
      else if x.cmd = opExer then (8, 0x4, x.base) else if !x.revert ∧ x.base = 1 then (9, 0x1, 1) else (10, 0x0, 0) := by
  obtain ⟨hW1, hW2, hP1, hP2⟩ := hClear
  simp [topRequest, hLo, hFs, hW1, hW2, hP1, hP2]

theorem topRequest_ms {x : ReqIn} (hClear : x.LegsClear) (h : x.cmd = opMs) : topRequest x = (6, 0x7, 1) := by
  rw [topRequest_of_clear hClear (by rw [h]; decide) (by rw [h]; decide), if_pos h]

theorem topRequest_msW {x : ReqIn} (hClear : x.LegsClear) (h : x.cmd = opMsW) : topRequest x = (6, 0x7, 0) := by
  rw [topRequest_of_clear hClear (by rw [h]; decide) (by rw [h]; decide), if_neg (by rw [h]; decide), if_pos h]

theorem topRequest_exer {x : ReqIn} (hClear : x.LegsClear) (h : x.cmd = opExer) (hWtr : x.wtr = false) :
    topRequest x = (8, 0x4, x.base) := by
  rw [topRequest_of_clear hClear (by rw [h]; decide) (by rw [h]; decide), if_neg (by rw [h]; decide), if_neg (by rw [h]; decide),
    if_neg (by rw [hWtr]; decide), if_pos h]

/-- With nothing requested a group that does not revert stays on P (R239). -/
theorem topRequest_idle {x : ReqIn} (hClear : x.LegsClear) (h : x.cmd = 0) (hWtr : x.wtr = false) :
    topRequest x = if !x.revert ∧ x.base = 1 then (9, 0x1, 1) else (10, 0x0, 0) := by
  rw [topRequest_of_clear hClear (by rw [h]; decide) (by rw [h]; decide), if_neg (by rw [h]; decide), if_neg (by rw [h]; decide),
    if_neg (by rw [hWtr]; decide), if_neg (by rw [h]; decide)]

/-- Only the three lower commands are withdrawn. -/
theorem not_withdrawn {x : ReqIn} (h : x.cmd = 0 ∨ x.cmd = opLo ∨ x.cmd = opFs) : ¬ x.Withdrawn := by
  rintro ⟨hCmd, -⟩
  obtain h | h | h := h <;> rw [h] at hCmd <;> exact absurd hCmd (by decide)

/-- Without a command, the legs are clear where the top request is of rank 6 or below. -/
theorem legsClear_of_rank {x : ReqIn} (hCmd : x.cmd = 0) (h : 6 ≤ (topRequest x).1) : x.LegsClear := by
  unfold topRequest at h
  rw [hCmd, if_neg (by decide : ¬ 0 = opLo), if_neg (by decide : ¬ 0 = opFs)] at h
  refine ⟨fun c => ?_, fun c => ?_, fun c => ?_, fun c => ?_⟩
  · by_cases hP : x.pCond = 1 <;> by_cases hP2 : x.pCond = 2 <;> simp [c, hP, hP2] at h
  · by_cases hP2 : x.pCond = 2 <;> simp [c, hP2] at h
  · by_cases hW : x.wCond = 1 <;> by_cases hW2 : x.wCond = 2 <;> simp [c, hW, hW2] at h
  · simp [c] at h

theorem rank_of_clear {x : ReqIn} (hClear : x.LegsClear) (hCmd : x.cmd = 0) :
    (topRequest x).1 = 7 ∧ x.wtr = true ∨ 8 ≤ (topRequest x).1 ∧ x.wtr = false := by
  rw [topRequest_of_clear hClear (by rw [hCmd]; decide) (by rw [hCmd]; decide), hCmd, if_neg (by decide), if_neg (by decide)]
  cases x.wtr with
  | true => exact .inl ⟨rfl, rfl⟩
  | false =>
    refine .inr ⟨?_, rfl⟩
    rw [if_neg (by decide), if_neg (by decide)]
    split <;> decide

/-! ### One evaluation of a hardware group (R237, R239, R241) -/

/-- Wait-to-restore in an evaluation (R239). -/
def State.evalWtr (s : State) (G : Nat) (cleared : Bool) : State :=
  if (s.grp G).wCond ≠ 0 ∨ (topRequest { s.reqIn G with wtr := false }).1 < 7 then
    (if s.gStB G GRP_STATUS.wtr_run then s.setWtr G false else s)
  else if cleared ∧ s.gRevert G ∧ (s.grp G).base = 1 ∧ !s.gStB G GRP_STATUS.wtr_run then s.setWtr G true
  else s

/-- The request that a group shows. -/
def State.showRequest (s : State) (G code : Nat) : State :=
  if s.gSt G GRP_STATUS.request = code then s else (s.gPut G GRP_STATUS.request code).notice G 7 code

/-- The selector follows a request, or a provisional switch is judged against it or starts (R241, R250, R252). -/
def State.followRequest (s : State) (G rank leg : Nat) (susp : Bool) : State :=
  if s.gStB G GRP_STATUS.prov then (s.setGrp G (fun x => { x with base := leg })).provJudge G rank leg
  else
    let s := s.setSel G leg
    if susp ∧ s.provOk G ∧ 7 ≤ rank ∧ s.legShown G (s.gSt G GRP_STATUS.sel) = 3 ∧ s.legShown G (1 - s.gSt G GRP_STATUS.sel) = 0 then
      s.provStart G
    else s

theorem evalHw_eq (s : State) (G : Nat) (cleared susp : Bool) {u : State} (hu : ((s.withdraw G).evalWtr G cleared).withdraw G = u) :
    s.evalHw G cleared susp =
      ((u.showRequest G (topRequest (u.reqIn G)).2.1).followRequest G (topRequest (u.reqIn G)).1 (topRequest (u.reqIn G)).2.2
        susp).gApsRefresh G := by
  rw [← hu]
  rfl

theorem withdraw_of_not {s : State} {G : Nat} (h : ¬ (s.reqIn G).Withdrawn) : s.withdraw G = s := if_neg h

section
variable {G : Nat} {W : List TField} {s0 s : State} (hs : GroupFr G W s0 s)
include hs

theorem GroupFr.evalWtr (hRun : GRP_STATUS.wtr_run ∈ W) (hLeft : GRP_STATUS.wtr_left ∈ W) (cleared : Bool) :
    GroupFr G W s0 (s.evalWtr G cleared) :=
  .ite (.ite (hs.setWtr hRun hLeft _) hs) (.ite (hs.setWtr hRun hLeft _) hs)

theorem GroupFr.showRequest (hRequest : GRP_STATUS.request ∈ W) (code : Nat) : GroupFr G W s0 (s.showRequest G code) :=
  .ite hs ((hs.gPut hRequest code).notice _ _ _)

theorem GroupFr.followRequest (hSel : GRP_STATUS.sel ∈ W) (hProv : GRP_STATUS.prov ∈ W) (rank leg : Nat) (susp : Bool) :
    GroupFr G W s0 (s.followRequest G rank leg susp) :=
  .ite ((hs.setGrp _).provJudge hSel hProv _ _) (.ite ((hs.setSel hSel leg).provStart hSel hProv) (hs.setSel hSel leg))

end

/-- The status fields that an evaluation writes. -/
def evalFields : List TField := [GRP_STATUS.sel, GRP_STATUS.prov, GRP_STATUS.request, GRP_STATUS.cmd, GRP_STATUS.wtr_run,
  GRP_STATUS.wtr_left, GRP_STATUS.sfp_override]

theorem GroupFr.evalHw {G : Nat} {s0 s : State} (hs : GroupFr G evalFields s0 s) (cleared susp : Bool) :
    GroupFr G evalFields s0 (s.evalHw G cleared susp) := by
  have hCmd : GRP_STATUS.cmd ∈ evalFields := by decide
  have hInputs := ((hs.withdraw hCmd).evalWtr (by decide) (by decide) cleared).withdraw hCmd
  rw [evalHw_eq s G cleared susp rfl]
  exact ((hInputs.showRequest (by decide) _).followRequest (by decide) (by decide) _ _ _).gApsRefresh G

/-! ### What the selector and the request show after it -/

theorem gSt_lt (s : State) (G : Nat) (f : TField) : s.gSt G f < 2 ^ (f.hi - f.lo + 1) := Nat.mod_lt _ (by positivity)

theorem setSel_sel (s : State) (G leg : Nat) : (s.setSel G leg).gSt G GRP_STATUS.sel = leg % 2 := by
  unfold State.setSel
  extract_lets s1
  split
  · next h =>
    have hLt : s1.gSt G GRP_STATUS.sel < 2 := gSt_lt ..
    omega
  · rw [gSt_ev, gSt_gCount, gSt_gPut_sel]

theorem provEnd_shows (s : State) (G leg : Nat) :
    (s.provEnd G leg).gSt G GRP_STATUS.sel = leg % 2 ∧ (s.provEnd G leg).gStB G GRP_STATUS.prov = false ∧
      ((s.provEnd G leg).grp G).confEnd = false := by
  unfold State.provEnd
  extract_lets stays s1 s2 s3
  have hProv1 : s1.gStB G GRP_STATUS.prov = false := gStB_gPutB_same s G _ false (by decide) (by decide)
  have hConf1 : (s1.grp G).confEnd = false := by
    unfold s1
    rw [grp_setGrp]
  have hSel1 : s1.gSt G GRP_STATUS.sel = s.gSt G GRP_STATUS.sel := gSt_gPut_apart _ _ _ (by decide)
  have hSel2 : s2.gSt G GRP_STATUS.sel = leg % 2 := by
    unfold s2
    rw [gSt_notice, gSt_gCount, gSt_gPut_sel]
  have hProv2 : s2.gStB G GRP_STATUS.prov = false := by
    refine (gStB_congr ?_).trans hProv1
    unfold s2
    rw [gSt_notice, gSt_gCount, gSt_gPut_apart _ _ _ (by decide)]
  have hConf2 : (s2.grp G).confEnd = false := by
    unfold s2
    rw [grp_notice, grp_gCount, grp_gPut, hConf1]
  have hLt : s.gSt G GRP_STATUS.sel < 2 := gSt_lt ..
  have h3 : s3.gSt G GRP_STATUS.sel = leg % 2 ∧ s3.gStB G GRP_STATUS.prov = false ∧ (s3.grp G).confEnd = false := by
    unfold s3
    split
    · next hStays =>
      have hLeg : s.gSt G GRP_STATUS.sel = leg := of_decide_eq_true hStays
      rw [gStB_congr (gSt_notice ..), gSt_notice, grp_notice, gStB_congr (gSt_gCount ..), gSt_gCount, grp_gCount]
      exact ⟨by omega, hProv1, hConf1⟩
    · split
      · exact ⟨hSel2, hProv2, hConf2⟩
      · rw [gStB_congr (gSt_gCount ..), gSt_gCount, grp_gCount]
        exact ⟨hSel2, hProv2, hConf2⟩
  rw [gStB_congr (gSt_ev ..), gSt_ev, grp_ev]
  exact h3

theorem showRequest_request (s : State) (G code : Nat) (h : code < 16) : (s.showRequest G code).gSt G GRP_STATUS.request = code := by
  unfold State.showRequest
  split
  · assumption
  · rw [gSt_notice, gSt_gPut_same _ _ _ _ (by decide) (by decide)]
    exact Nat.mod_eq_of_lt h

/-- Where no provisional switch stays or starts, the selector takes the request's leg. -/
theorem followRequest_sel {s : State} {G rank leg : Nat} (hProv : s.gStB G GRP_STATUS.prov = true → rank < 7) :
    (s.followRequest G rank leg false).gSt G GRP_STATUS.sel = leg % 2 := by
  unfold State.followRequest State.provJudge
  split
  · next h =>
    rw [if_pos (.inr (.inl (hProv h)))]
    exact (provEnd_shows ..).1
  · exact setSel_sel ..

theorem evalWtr_uncleared (s : State) (G : Nat) : s.evalWtr G false = s ∨
    s.gStB G GRP_STATUS.wtr_run = true ∧ s.evalWtr G false = s.setWtr G false := by
  unfold State.evalWtr
  split
  · split
    · exact .inr ⟨by assumption, rfl⟩
    · exact .inl rfl
  · exact .inl rfl

theorem setWtr_run (s : State) (G : Nat) (on : Bool) : (s.setWtr G on).gStB G GRP_STATUS.wtr_run = on :=
  (gStB_congr (gSt_gPut_apart _ _ _ (by decide))).trans (gStB_gPutB_same s G _ on (by decide) (by decide))

theorem setWtr_fr (s : State) (G : Nat) (on : Bool) : GroupFr G [GRP_STATUS.wtr_run, GRP_STATUS.wtr_left] s (s.setWtr G on) :=
  (GroupFr.refl ..).setWtr (by decide) (by decide) on

theorem grp_setWtr (s : State) (G : Nat) (on : Bool) (G' : Nat) : (s.setWtr G on).grp G' = s.grp G' := (grp_gPut ..).trans (grp_gPut ..)

theorem reqIn_setWtr (s : State) (G : Nat) (on : Bool) : (s.setWtr G on).reqIn G = { s.reqIn G with wtr := on } := by
  have hCmd : (s.setWtr G on).gSt G GRP_STATUS.cmd = s.gSt G GRP_STATUS.cmd := (setWtr_fr s G on).st _ (by decide)
  unfold State.reqIn
  have hRow : (s.setWtr G on).gRevert G = s.gRevert G := gRevert_of_live ((live_gPut ..).trans (live_gPut ..)) G
  rw [hCmd, grp_setWtr, setWtr_run, hRow]

/-- What an evaluation shows of a command that no request withdraws: Table PRT-3's request and its leg. `r` is the top request whether
wait-to-restore runs on or not. -/
theorem evalHw_shows {s : State} {G : Nat} {r : Nat × Nat × Nat}
    (hHeld : ∀ b, (b = true → s.gStB G GRP_STATUS.wtr_run = true) → ¬ ReqIn.Withdrawn { s.reqIn G with wtr := b })
    (hTop : ∀ b, (b = true → s.gStB G GRP_STATUS.wtr_run = true) → topRequest { s.reqIn G with wtr := b } = r)
    (hCode : r.2.1 < 16) (hProv : s.gStB G GRP_STATUS.prov = true → r.1 < 7) :
    (s.evalHw G false false).gSt G GRP_STATUS.request = r.2.1 ∧ (s.evalHw G false false).gSt G GRP_STATUS.sel = r.2.2 % 2 ∧
      (s.evalHw G false false).gSt G GRP_STATUS.cmd = s.gSt G GRP_STATUS.cmd ∧
      (s.gStB G GRP_STATUS.wtr_run = false → (s.evalHw G false false).gStB G GRP_STATUS.wtr_run = false) := by
  obtain ⟨u, hu, hFr, hRun, hReq⟩ : ∃ u, ((s.withdraw G).evalWtr G false).withdraw G = u ∧
      GroupFr G [GRP_STATUS.wtr_run, GRP_STATUS.wtr_left] s u ∧
      (u.gStB G GRP_STATUS.wtr_run = true → s.gStB G GRP_STATUS.wtr_run = true) ∧
      u.reqIn G = { s.reqIn G with wtr := u.gStB G GRP_STATUS.wtr_run } := by
    rw [withdraw_of_not (hHeld (s.gStB G GRP_STATUS.wtr_run) id)]
    obtain hSame | ⟨hOn, hOff⟩ := evalWtr_uncleared s G
    · rw [hSame, withdraw_of_not (hHeld (s.gStB G GRP_STATUS.wtr_run) id)]
      exact ⟨s, rfl, GroupFr.refl .., id, rfl⟩
    · rw [hOff, withdraw_of_not (by rw [reqIn_setWtr]; exact hHeld false (fun h => nomatch h))]
      exact ⟨_, rfl, setWtr_fr .., fun _ => hOn, by rw [reqIn_setWtr, setWtr_run]⟩
  have hTopU : topRequest (u.reqIn G) = r := by rw [hReq]; exact hTop _ hRun
  rw [evalHw_eq s G false false hu, hTopU]
  generalize hv : u.showRequest G r.2.1 = v
  have hShow : GroupFr G [GRP_STATUS.request] u v := hv ▸ (GroupFr.refl ..).showRequest (by decide) _
  have hRequest : v.gSt G GRP_STATUS.request = r.2.1 := hv ▸ showRequest_request u G _ hCode
  have hProvV : v.gStB G GRP_STATUS.prov = true → r.1 < 7 := fun h => hProv (by
    rwa [gStB_congr ((hShow.st _ (by decide)).trans (hFr.st _ (by decide)))] at h)
  have hFollow : GroupFr G [GRP_STATUS.sel, GRP_STATUS.prov] v (v.followRequest G r.1 r.2.2 false) :=
    (GroupFr.refl ..).followRequest (by decide) (by decide) _ _ _
  rw [gSt_gApsRefresh, gSt_gApsRefresh, gSt_gApsRefresh, gStB_congr (gSt_gApsRefresh ..)]
  refine ⟨(hFollow.st _ (by decide)).trans hRequest, followRequest_sel hProvV,
    (hFollow.st _ (by decide)).trans ((hShow.st _ (by decide)).trans (hFr.st _ (by decide))), fun hOff => ?_⟩
  rw [gStB_congr ((hFollow.st _ (by decide)).trans (hShow.st _ (by decide)))]
  by_contra hOn
  rw [hRun (by simpa using hOn)] at hOff
  cases hOff

/-! ### The evaluation that a command brings -/

/-- The record of a group whose events have been evaluated. -/
def Grp.evaluated (x : Grp) : Grp := { x with was := none }

theorem evalNow_of_none {s : State} {G : Nat} (hWas : (s.grp G).was = none) :
    s.evalNow G = (s.setGrp G Grp.evaluated).evalGrp G (s.grp G).wCond (s.grp G).pCond false := by
  unfold State.evalNow
  dsimp only
  rw [hWas]
  rfl

theorem evalGrp_hw {s : State} {G w p : Nat} (susp : Bool) (hArch : s.gArch G = 0) (hW : (s.grp G).wCond = w) :
    s.evalGrp G w p susp = s.evalHw G false susp := by
  have hKept : decide (w ≠ 0 ∧ (s.grp G).wCond = 0) = false := by
    rw [hW]
    exact decide_eq_false (fun h => h.1 h.2)
  unfold State.evalGrp
  rw [if_pos hArch, hKept]

theorem reqIn_evaluated (s : State) (G : Nat) : (s.setGrp G Grp.evaluated).reqIn G = s.reqIn G := by
  unfold State.reqIn
  rw [grp_setGrp]
  rfl

/-- What an operator command shows of a hardware group in which nothing waits (`evalHw_shows`). -/
theorem evalNow_shows {s : State} {G : Nat} {r : Nat × Nat × Nat} (hWas : (s.grp G).was = none) (hArch : s.gArch G = 0)
    (hHeld : ∀ b, (b = true → s.gStB G GRP_STATUS.wtr_run = true) → ¬ ReqIn.Withdrawn { s.reqIn G with wtr := b })
    (hTop : ∀ b, (b = true → s.gStB G GRP_STATUS.wtr_run = true) → topRequest { s.reqIn G with wtr := b } = r)
    (hCode : r.2.1 < 16) (hProv : s.gStB G GRP_STATUS.prov = true → r.1 < 7) :
    (s.evalNow G).gSt G GRP_STATUS.request = r.2.1 ∧ (s.evalNow G).gSt G GRP_STATUS.sel = r.2.2 % 2 ∧
      (s.evalNow G).gSt G GRP_STATUS.cmd = s.gSt G GRP_STATUS.cmd ∧
      (s.gStB G GRP_STATUS.wtr_run = false → (s.evalNow G).gStB G GRP_STATUS.wtr_run = false) := by
  have hStarted : (s.setGrp G Grp.evaluated).gArch G = 0 := hArch
  rw [evalNow_of_none hWas, evalGrp_hw false hStarted (by rw [grp_setGrp]; rfl)]
  exact evalHw_shows (s := s.setGrp G Grp.evaluated) (by rw [reqIn_evaluated]; exact hHeld) (by rw [reqIn_evaluated]; exact hTop) hCode hProv

theorem evalHw_fr (s : State) (G : Nat) (cleared susp : Bool) : GroupFr G evalFields s (s.evalHw G cleared susp) :=
  (GroupFr.refl ..).evalHw cleared susp

/-- An evaluation leaves nothing waiting. -/
theorem evalNow_done {s : State} {G : Nat} (hWas : (s.grp G).was = none) (hArch : s.gArch G = 0) (hWaits : s.OnlyWaits G) :
    (s.evalNow G).OnlyWaits G ∧ ((s.evalNow G).grp G).was = none := by
  have hStarted : (s.setGrp G Grp.evaluated).gArch G = 0 := hArch
  rw [evalNow_of_none hWas, evalGrp_hw false hStarted (by rw [grp_setGrp]; rfl)]
  have hFr := evalHw_fr (s.setGrp G Grp.evaluated) G false false
  refine ⟨hFr.waits (hWaits.setGrp _), ?_⟩
  have hInputs := congrArg (fun x => x.2.2.2) hFr.inputs
  rw [grp_setGrp] at hInputs
  exact hInputs

/-! ### The command queue of the engine (R243) -/

/-- The argument that a requester has left for its command. -/
def State.prtArg (s : State) (w : Who) : Nat :=
  s.rd (prtRq w) PRT_CMD_ARG_bridge * 2 ^ 29 + s.rd (prtRq w) PRT_CMD_ARG_sel * 2 ^ 28 + s.rd (prtRq w) PRT_CMD_ARG_aps

/-- A requester's command has come to the engine, in whose queue `qs` stands. -/
def State.queued (s : State) (w : Who) (qs : List PrtReq) : State := { s.fresh.prtStatus w true prtDone with prtQ := qs }

/-- The state in which a command is judged that has come alone. -/
def State.placed (s : State) (w : Who) : State := s.queued w []

/-- What a command's way to the engine changes. -/
def fm_queued : Nat := fm_fresh ||| fm_prtStatus ||| 2 ^ 45

theorem queued_fr (s : State) (w : Who) (qs : List PrtReq) : Fr fm_queued s (s.queued w qs) :=
  fr_mk_prtQ (by decide +kernel) (State.prtStatus_fr _ w true prtDone (by decide +kernel)
    (State.fresh_fr s (by decide +kernel) (fr_refl fm_queued s)))

theorem grps_queued (s : State) (w : Who) (qs : List PrtReq) : (s.queued w qs).grps = s.grps := (queued_fr s w qs).grps (by decide +kernel)

theorem gSt_placed (s : State) (w : Who) (G : Nat) (f : TField) : (s.placed w).gSt G f = s.gSt G f :=
  gSt_of_entry ((queued_fr s w []).entry_of_noTable (by decide +kernel) _ _ _) f

theorem grp_placed (s : State) (w : Who) (G : Nat) : (s.placed w).grp G = s.grp G := grp_of_grps (grps_queued s w []) G

theorem live_placed (s : State) (w : Who) : (s.placed w).live = s.live := (queued_fr s w []).live (by decide +kernel)

theorem reqIn_placed (s : State) (w : Who) (G : Nat) : (s.placed w).reqIn G = s.reqIn G := by
  unfold State.reqIn
  rw [gSt_placed, grp_placed, gStB_congr (gSt_placed ..), gRevert_of_live (live_placed s w)]

theorem gValid_placed (s : State) (w : Who) (G : Nat) : (s.placed w).gValid G = s.gValid G := by
  unfold State.gValid
  rw [gF_of_live (live_placed s w)]

theorem gArch_placed (s : State) (w : Who) (G : Nat) : (s.placed w).gArch G = s.gArch G := gArch_of_live (live_placed s w) G

theorem region_placed (s : State) (w : Who) (r : Nat) : (s.placed w).region r = s.region r :=
  (queued_fr s w []).region (by decide +kernel) r

theorem ownBox_placed (s : State) (w : Who) (k : Nat) : (s.placed w).ownBox k = s.ownBox k := by
  have hFr := queued_fr s w []
  have hEntry : (s.placed w).entry pgBxm T_OWN k = s.entry pgBxm T_OWN k := hFr.entry_of_noTable (by decide +kernel) _ _ _
  have hWas : (s.placed w).wasVal true = s.wasVal true := by
    funext k
    have hHst : (s.placed w).hst = s.hst := hFr.hst (by decide +kernel)
    have hCycle : (s.placed w).dpCycle = s.dpCycle := hFr.dpCycle (by decide +kernel)
    unfold State.wasVal State.fab
    rw [hHst, hCycle]
  unfold State.ownBox
  rw [hEntry, hWas]

theorem gBornNow_placed (s : State) (w : Who) (G : Nat) : (s.placed w).gBornNow G = s.gBornNow G := by
  have hCycle : (s.placed w).dpCycle = s.dpCycle := (queued_fr s w []).dpCycle (by decide +kernel)
  unfold State.gBornNow
  rw [grp_placed, hCycle]

theorem prtMasterOk_placed (s : State) (w : Who) (G : Nat) (m : Master) : (s.placed w).prtMasterOk G m = s.prtMasterOk G m := by
  have hMode : (s.placed w).mode = s.mode := (queued_fr s w []).mode (by decide +kernel)
  have hService : (s.placed w).rd pgMode MODE_service = s.rd pgMode MODE_service := (queued_fr s w []).rd _ _ (by decide +kernel)
  have hModel : (s.placed w).gModel G = s.gModel G := by
    unfold State.gModel State.compatModel
    rw [gArch_placed, hMode, hService]
  unfold State.prtMasterOk
  rw [hModel]

theorem gChannel_of_live {s t : State} (h : t.live = s.live) (G : Nat) : t.gChannel G = s.gChannel G := by
  have hCh : t.gApsCh G = s.gApsCh G := gF_of_live h ..
  unfold State.gChannel State.gApsEn State.apsValid State.apsF
  rw [gF_of_live h, hCh, effF_of_live h rfl]

/-- ACK_SFP of a group frees the record of its channel (R247). -/
def State.freeSfp (s : State) (G : Nat) : State :=
  match s.gChannel G with
  | some a => s.tputb pgPrt T_SFP_REC a SFP_REC.valid false
  | none => s

theorem prtDrain_of_one {s : State} {q : PrtReq} (h : s.prtQ = [q]) : s.prtDrain = s.prtExec1 := by
  unfold State.prtDrain
  rw [h]
  rfl

theorem prtExec1_queued {s v : State} {w : Who} {q : PrtReq} {code : Nat} (h : (s.placed w).prtJudge q = (v, code)) :
    (s.queued w [q]).prtExec1 = (v.prtStatus q.who false code).ev pgPrt 4 := by
  have hRest : (s.queued w [q]).prtExec1 =
      (((s.placed w).prtJudge q).1.prtStatus q.who false ((s.placed w).prtJudge q).2).ev pgPrt 4 := rfl
  rw [hRest, h]

/-- A command of an allowed requester to a group of its own, with nothing waiting in the engine, no other protection event left in the
DP cycle, and the group not adopted in it. -/
structure CmdReady (s : State) (w : Who) (G : Nat) : Prop where
  runs : s.dom = .run
  admitted : s.admitCode w pgPrt true = bsOk
  last : s.prtAhead = false
  alone : s.prtQ = []
  quiet : s.grps.all (fun x => !x.2.due && x.2.was.isNone) = true
  settled : s.gBornNow G = false
  number : G < 2 ^ 15
  valid : s.gValid G = true
  region : s.region (grpRegion G) ≠ rgnReset
  owner : w.master = .host → s.ownBox (ownGroup G) = w.box

section
variable {s : State} {w : Who} {G : Nat} (h : CmdReady s w G)
include h

theorem CmdReady.onlyWaits (qs : List PrtReq) : (s.queued w qs).OnlyWaits G ∧ ((s.queued w qs).grp G).due = false ∧
    ((s.queued w qs).grp G).was = none := by
  obtain ⟨hWaits, hDue, hWas⟩ := quiet_onlyWaits h.quiet G
  rw [grp_of_grps (grps_queued s w qs)]
  exact ⟨hWaits.of_grps (grps_queued s w qs), hDue, hWas⟩

theorem CmdReady.prtIssue_eq {op : Nat} (hOp : op ≠ 0) :
    s.fresh.prtIssue w op (G % 2 ^ 15) = s.queued w [{ who := w, op := op, grp := G, arg := s.prtArg w }] := by
  have hAlone : s.fresh.prtQ = [] := h.alone
  unfold State.prtIssue
  rw [if_neg hOp, hAlone, if_neg (by decide), Nat.mod_eq_of_lt h.number]
  rfl

/-- The engine judges such a command at once, and its status is the answer. -/
theorem CmdReady.prtOp_eq {op code : Nat} {v : State} (hOp : op ≠ 0)
    (hJudge : (s.placed w).prtJudge { who := w, op := op, grp := G, arg := s.prtArg w } = (v, code)) (hWaits : v.OnlyWaits G)
    (hWas : (v.grp G).was = none) : s.fresh.prtOp w op G = (v.prtStatus w false code).ev pgPrt 4 := by
  have hAdmit : s.fresh.admitCode w pgPrt true = bsOk := h.admitted
  have hVia : s.fresh.via w pgPrt true (fun s => s.prtIssue w op (G % 2 ^ 15)) = s.fresh.prtIssue w op (G % 2 ^ 15) := if_pos hAdmit
  have hDrain : (s.queued w [{ who := w, op := op, grp := G, arg := s.prtArg w }]).prtDrain = (v.prtStatus w false code).ev pgPrt 4 :=
    (prtDrain_of_one rfl).trans (prtExec1_queued hJudge)
  generalize hq : ({ who := w, op := op, grp := G, arg := s.prtArg w } : PrtReq) = q at hDrain
  obtain ⟨hOnly, hDue, hNone⟩ := h.onlyWaits [q]
  have hLast : (s.queued w [q]).prtAhead = false := by
    unfold State.prtAhead
    rw [(queued_fr s w [q]).pending (by decide +kernel)]
    exact h.last
  generalize hu : s.queued w [q] = u at *
  have hAfter : ((v.prtStatus w false code).ev pgPrt 4).grps = v.grps := (grps_ev ..).trans
    ((State.prtStatus_fr v w false code (MaskLe.refl _) (fr_refl fm_prtStatus v)).grps (by decide +kernel))
  have hSettle : u.prtSettleNow = u.prtDrain.each u.prtDrain.waiting State.evalNow := by
    unfold State.prtSettleNow
    dsimp only
    rw [hOnly.due, hDue, show u.each (if false = true then [G] else []) State.takeNotes = u from rfl, hOnly.waiting, hNone]
    rfl
  unfold State.prtOp State.prtSettle
  rw [hVia, h.prtIssue_eq hOp, hq, hu, hLast, hSettle, hDrain, (hWaits.of_grps hAfter).waiting, grp_of_grps hAfter, hWas]
  rfl

/-- What is read after such a command: its status, and the tables and groups as it has left them. -/
theorem CmdReady.answered {op code : Nat} {v : State} (hOp : op ≠ 0) (hCode : code < 16)
    (hJudge : (s.placed w).prtJudge { who := w, op := op, grp := G, arg := s.prtArg w } = (v, code)) (hWaits : v.OnlyWaits G)
    (hWas : (v.grp G).was = none) :
    ∃ t, run (fun s => s.prtOp w op G) s = .next t ∧ t.rd (prtRq w) PRT_CMD_STATUS_code = code ∧
      t.rdb (prtRq w) PRT_CMD_STATUS_pending = false ∧ (∀ pg T e, t.entry pg T e = v.entry pg T e) ∧ t.grps = v.grps := by
  refine ⟨_, run_eq_next (fun s => s.prtOp w op G) h.runs, ?_⟩
  rw [h.prtOp_eq hOp hJudge hWaits hWas, State.rd_after, State.rdb_after, State.rd_ev, State.rdb_ev]
  have hFr := State.ev_fr _ pgPrt 4 (MaskLe.trans (by decide +kernel) (MaskLe.refl (fm_ev ||| fm_prtStatus)))
    (State.prtStatus_fr v w false code (MaskLe.trans (by decide +kernel) (MaskLe.refl (fm_ev ||| fm_prtStatus))) (fr_refl _ v))
  unfold State.prtStatus
  refine ⟨?_, ?_, fun pg T e => hFr.entry_of_noTable (by decide +kernel) pg T e, hFr.grps (by decide +kernel)⟩
  · rw [State.rd_wr_same]
    exact Nat.mod_eq_of_lt hCode
  · rw [State.rdb_wr_place _ (by decide), State.rdb_wrb_same]

/-- The checks that an operator command of a hardware group passes. -/
theorem CmdReady.judge_operate {op : Nat} (hOp : 1 ≤ op ∧ op ≤ 6) (hArch : s.gArch G = 0) :
    (s.placed w).prtJudge { who := w, op := op, grp := G, arg := s.prtArg w } = (s.placed w).operate G op := by
  unfold State.prtJudge
  dsimp only
  rw [gValid_placed, h.valid, region_placed, if_neg (by simp [hOp]), if_neg h.region, ownBox_placed,
    if_neg (fun hOwner => hOwner.2 (h.owner hOwner.1)), gBornNow_placed, h.settled, gArch_placed, hArch]
  simp [hOp]

/-- The checks that an operation of a software group passes. -/
theorem CmdReady.judge_software {op : Nat} (hOp : 8 ≤ op ∧ op ≤ opAckSfp) (hArch : s.gArch G ≠ 0)
    (hMaster : s.prtMasterOk G w.master = true) :
    (s.placed w).prtJudge { who := w, op := op, grp := G, arg := s.prtArg w } =
      if op ≤ 0xB then (s.placed w).setOp G op (s.prtArg w)
      else ((s.placed w).freeSfp G, prtDone) := by
  obtain ⟨hLo, hHi⟩ := hOp
  have hOper : ¬ (1 ≤ op ∧ op ≤ 6) := by omega
  have hLast : op ≤ 0xB ∨ op = opAckSfp := by unfold opAckSfp at *; omega
  unfold State.prtJudge
  dsimp only
  rw [gValid_placed, h.valid, region_placed, if_neg (by obtain hSet | hAck := hLast <;> simp [*]), if_neg h.region, ownBox_placed,
    if_neg (fun hOwner => hOwner.2 (h.owner hOwner.1)), gBornNow_placed, h.settled, gArch_placed, prtMasterOk_placed, hMaster]
  simp only [hOper, hArch, hLo, decide_false, Bool.not_true, true_and, decide_eq_true_eq, Bool.false_eq_true, if_false,
    or_self]
  rfl

end

/-! ### The operator commands of a hardware group (Table PRT-5, R240) -/

theorem operate_clr (s : State) (G : Nat) :
    s.operate G opClr = (((s.gPut G GRP_STATUS.cmd 0).setWtr G false).evalNow G, prtDone) := rfl

/-- A command below the one in force, or below the top request if it is one of the lower three. -/
theorem operate_superseded {s : State} {G op : Nat} (hOp : op ≠ opClr) (hExer : op = opExer → s.gApsEn G = true)
    (hCmd : s.gSt G GRP_STATUS.cmd ≠ 0) (hBelow : cmdRank (s.gSt G GRP_STATUS.cmd) < cmdRank op) :
    s.operate G op = (s, prtSuperseded) := by
  unfold State.operate
  dsimp only
  rw [if_neg (fun h => by simp [hExer h.1] at h), if_neg hOp, if_pos ⟨hCmd, hBelow⟩]

theorem operate_accepts {s : State} {G op : Nat} (hOp : op ≠ opClr) (hExer : op = opExer → s.gApsEn G = true)
    (hCmd : s.gSt G GRP_STATUS.cmd = 0 ∨ cmdRank op ≤ cmdRank (s.gSt G GRP_STATUS.cmd))
    (hTop : op = opMs ∨ op = opMsW ∨ op = opExer → cmdRank op ≤ (topRequest (s.reqIn G)).1) :
    s.operate G op = ((s.replaceCmd G op).evalNow G, prtDone) := by
  unfold State.operate
  dsimp only
  rw [if_neg (fun h => by simp [hExer h.1] at h), if_neg hOp,
    if_neg (fun h => hCmd.elim h.1 (fun hRank => absurd h.2 (by omega))),
    if_neg (fun h => absurd h.2 (Nat.not_lt.2 (hTop h.1)))]

theorem replaceCmd_fr (s : State) (G op : Nat) : GroupFr G [GRP_STATUS.cmd] s (s.replaceCmd G op) := by
  have hPut : GroupFr G [GRP_STATUS.cmd] s (s.gPut G GRP_STATUS.cmd op) := (GroupFr.refl ..).gPut (by decide) op
  exact .ite ((hPut.gCount _).notice _ _ _) hPut

theorem replaceCmd_cmd (s : State) (G : Nat) {op : Nat} (h : op < 16) : (s.replaceCmd G op).gSt G GRP_STATUS.cmd = op := by
  have hPut : (s.gPut G GRP_STATUS.cmd op).gSt G GRP_STATUS.cmd = op :=
    (gSt_gPut_same _ _ _ _ (by decide) (by decide)).trans (Nat.mod_eq_of_lt h)
  unfold State.replaceCmd
  dsimp only
  split
  · rw [gSt_notice, gSt_gCount, hPut]
  · exact hPut

theorem replaceCmd_grps (s : State) (G op : Nat) : (s.replaceCmd G op).grps = s.grps :=
  (State.replaceCmd_fr s G op (MaskLe.refl _) (fr_refl fm_replaceCmd s)).grps (by decide +kernel)

theorem replaceCmd_live (s : State) (G op : Nat) : (s.replaceCmd G op).live = s.live :=
  (State.replaceCmd_fr s G op (MaskLe.refl _) (fr_refl fm_replaceCmd s)).live (by decide +kernel)

theorem reqIn_gPut_cmd (s : State) (G : Nat) {op : Nat} (h : op < 16) :
    (s.gPut G GRP_STATUS.cmd op).reqIn G = { s.reqIn G with cmd := op } := by
  have hCmd : (s.gPut G GRP_STATUS.cmd op).gSt G GRP_STATUS.cmd = op :=
    (gSt_gPut_same _ _ _ _ (by decide) (by decide)).trans (Nat.mod_eq_of_lt h)
  unfold State.reqIn
  rw [hCmd, grp_gPut, gStB_congr (gSt_gPut_apart _ _ _ (by decide)), gRevert_of_live (live_gPut ..)]

theorem reqIn_replaceCmd (s : State) (G : Nat) {op : Nat} (h : op < 16) : (s.replaceCmd G op).reqIn G = { s.reqIn G with cmd := op } := by
  have hWtr : (s.replaceCmd G op).gStB G GRP_STATUS.wtr_run = s.gStB G GRP_STATUS.wtr_run :=
    gStB_congr ((replaceCmd_fr s G op).st _ (by decide))
  unfold State.reqIn
  rw [replaceCmd_cmd s G h, grp_of_grps (replaceCmd_grps s G op), hWtr, gRevert_of_live (replaceCmd_live s G op)]

theorem three_le_cmdRank {op : Nat} (h : op ≠ opLo) : 3 ≤ cmdRank op := by
  unfold cmdRank
  rw [if_neg h]
  (repeat' split) <;> decide

theorem one_le_cmdRank (op : Nat) : 1 ≤ cmdRank op := by
  by_cases h : op = opLo
  · rw [h]
    decide
  · exact (three_le_cmdRank h).trans' (by decide)

section
variable {s : State} {w : Who} {G : Nat} (h : CmdReady s w G) (hArch : s.gArch G = 0)
include h hArch

/-- An accepted command shows the request and the leg that Table PRT-3 gives with it. -/
theorem CmdReady.operate_shows {op : Nat} {r : Nat × Nat × Nat} (hOp : 2 ≤ op ∧ op ≤ 6) (hExer : op = opExer → s.gApsEn G = true)
    (hCmd : s.gSt G GRP_STATUS.cmd = 0 ∨ cmdRank op ≤ cmdRank (s.gSt G GRP_STATUS.cmd))
    (hRank : op = opMs ∨ op = opMsW ∨ op = opExer → cmdRank op ≤ (topRequest (s.reqIn G)).1)
    (hHeld : ∀ b, (b = true → s.gStB G GRP_STATUS.wtr_run = true) → ¬ ReqIn.Withdrawn { s.reqIn G with cmd := op, wtr := b })
    (hTop : ∀ b, (b = true → s.gStB G GRP_STATUS.wtr_run = true) → topRequest { s.reqIn G with cmd := op, wtr := b } = r)
    (hCode : r.2.1 < 16) (hProv : s.gStB G GRP_STATUS.prov = true → r.1 < 7) :
    ∃ t, run (fun s => s.prtOp w op G) s = .next t ∧ t.rd (prtRq w) PRT_CMD_STATUS_code = prtDone ∧
      t.rdb (prtRq w) PRT_CMD_STATUS_pending = false ∧ t.gSt G GRP_STATUS.request = r.2.1 ∧ t.gSt G GRP_STATUS.sel = r.2.2 % 2 ∧
      t.gSt G GRP_STATUS.cmd = op := by
  have hApsEn : (s.placed w).gApsEn G = s.gApsEn G := congrArg (fun v => decide (v ≠ 0)) (gF_of_live (live_placed s w) ..)
  have hLt : op < 16 := by omega
  have hAccept : (s.placed w).operate G op = (((s.placed w).replaceCmd G op).evalNow G, prtDone) :=
    operate_accepts (by unfold opClr; omega) (by rw [hApsEn]; exact hExer) (by rw [gSt_placed]; exact hCmd)
      (by rw [reqIn_placed]; exact hRank)
  generalize hu : (s.placed w).replaceCmd G op = u at hAccept
  obtain ⟨hWaits, -, hWas⟩ := h.onlyWaits []
  have hGrps : u.grps = (s.placed w).grps := hu ▸ replaceCmd_grps ..
  have hWasU : (u.grp G).was = none := by rw [grp_of_grps hGrps]; exact hWas
  have hArchU : u.gArch G = 0 := by
    rw [← hu, gArch_of_live (replaceCmd_live ..), gArch_placed, hArch]
  have hReq : u.reqIn G = { s.reqIn G with cmd := op } := by rw [← hu, reqIn_replaceCmd _ _ hLt, reqIn_placed]
  have hKept (f : TField) (hf : ∀ g ∈ [GRP_STATUS.cmd], StatusApart g f) : u.gSt G f = s.gSt G f :=
    (hu ▸ (replaceCmd_fr ..).st f hf : u.gSt G f = (s.placed w).gSt G f).trans (gSt_placed ..)
  obtain ⟨hRequest, hSel, hCmdU, -⟩ := evalNow_shows hWasU hArchU (by rw [hReq, gStB_congr (hKept _ (by decide))]; exact hHeld)
    (by rw [hReq, gStB_congr (hKept _ (by decide))]; exact hTop) hCode (by rw [gStB_congr (hKept _ (by decide))]; exact hProv)
  obtain ⟨hDoneWaits, hDoneWas⟩ := evalNow_done hWasU hArchU (hWaits.of_grps hGrps)
  obtain ⟨t, hRun, hStatus, hPending, hEntry, -⟩ := h.answered (by omega) (by decide)
    ((h.judge_operate (by omega) hArch).trans hAccept) hDoneWaits hDoneWas
  refine ⟨t, hRun, hStatus, hPending, ?_, ?_, ?_⟩ <;> rw [gSt_of_entry (hEntry ..)]
  · exact hRequest
  · exact hSel
  · rw [hCmdU, ← hu, replaceCmd_cmd _ _ hLt]

theorem CmdReady.lo_shows : ∃ t, run (fun s => s.prtOp w opLo G) s = .next t ∧ t.rd (prtRq w) PRT_CMD_STATUS_code = prtDone ∧
    t.rdb (prtRq w) PRT_CMD_STATUS_pending = false ∧ t.gSt G GRP_STATUS.request = 0xF ∧ t.gSt G GRP_STATUS.sel = 0 ∧
      t.gSt G GRP_STATUS.cmd = opLo :=
  h.operate_shows hArch (r := (1, 0xF, 0)) (by decide) (fun c => absurd c (by decide)) (.inr (one_le_cmdRank _))
    (fun c => absurd c (by decide)) (fun b _ => not_withdrawn (.inr (.inl rfl))) (fun b _ => topRequest_lo rfl) (by decide) (fun _ => by decide)

theorem CmdReady.fs_shows (hCmd : s.gSt G GRP_STATUS.cmd ≠ opLo) (hP : (s.grp G).pCond ≠ 2) :
    ∃ t, run (fun s => s.prtOp w opFs G) s = .next t ∧ t.rd (prtRq w) PRT_CMD_STATUS_code = prtDone ∧
      t.rdb (prtRq w) PRT_CMD_STATUS_pending = false ∧ t.gSt G GRP_STATUS.request = 0xD ∧ t.gSt G GRP_STATUS.sel = 1 ∧
        t.gSt G GRP_STATUS.cmd = opFs :=
  h.operate_shows hArch (r := (3, 0xD, 1)) (by decide) (fun c => absurd c (by decide)) (.inr (three_le_cmdRank hCmd))
    (fun c => absurd c (by decide)) (fun b _ => not_withdrawn (.inr (.inr rfl))) (fun b _ => topRequest_fs rfl hP) (by decide) (fun _ => by decide)

/-- MS and MS_W stand where no request is above them. -/
theorem CmdReady.manual_shows {op leg : Nat} (hOp : op = opMs ∧ leg = 1 ∨ op = opMsW ∧ leg = 0) (hCmd : s.gSt G GRP_STATUS.cmd = 0)
    (hRank : 6 ≤ (topRequest (s.reqIn G)).1) :
    ∃ t, run (fun s => s.prtOp w op G) s = .next t ∧ t.rd (prtRq w) PRT_CMD_STATUS_code = prtDone ∧
      t.rdb (prtRq w) PRT_CMD_STATUS_pending = false ∧ t.gSt G GRP_STATUS.request = 0x7 ∧ t.gSt G GRP_STATUS.sel = leg ∧
        t.gSt G GRP_STATUS.cmd = op := by
  have hClear : (s.reqIn G).LegsClear := legsClear_of_rank hCmd hRank
  have hHeld (op : Nat) (hOp : cmdRank op = 6) (b : Bool) : ¬ ReqIn.Withdrawn { s.reqIn G with cmd := op, wtr := b } := fun hBelow => by
    have hOthers := rank_of_clear (x := { s.reqIn G with cmd := 0, wtr := b }) hClear rfl
    have hLt : (topRequest { s.reqIn G with cmd := 0, wtr := b }).1 < cmdRank op := hBelow.2
    omega
  obtain ⟨rfl, rfl⟩ | ⟨rfl, rfl⟩ := hOp
  · exact h.operate_shows hArch (r := (6, 0x7, 1)) (by decide) (fun c => absurd c (by decide)) (.inl hCmd) (fun _ => hRank)
      (fun b _ => hHeld opMs rfl b) (fun b _ => topRequest_ms (x := { s.reqIn G with cmd := opMs, wtr := b }) hClear rfl)
      (by decide) (fun _ => by decide)
  · exact h.operate_shows hArch (r := (6, 0x7, 0)) (by decide) (fun c => absurd c (by decide)) (.inl hCmd) (fun _ => hRank)
      (fun b _ => hHeld opMsW rfl b) (fun b _ => topRequest_msW (x := { s.reqIn G with cmd := opMsW, wtr := b }) hClear rfl)
      (by decide) (fun _ => by decide)

theorem CmdReady.exer_shows (hCmd : s.gSt G GRP_STATUS.cmd = 0) (hProv : s.gStB G GRP_STATUS.prov = false) (hAps : s.gApsEn G = true)
    (hRank : 8 ≤ (topRequest (s.reqIn G)).1) :
    ∃ t, run (fun s => s.prtOp w opExer G) s = .next t ∧ t.rd (prtRq w) PRT_CMD_STATUS_code = prtDone ∧
      t.rdb (prtRq w) PRT_CMD_STATUS_pending = false ∧ t.gSt G GRP_STATUS.request = 0x4 ∧
        t.gSt G GRP_STATUS.sel = (s.grp G).base % 2 ∧ t.gSt G GRP_STATUS.cmd = opExer := by
  have hClear : (s.reqIn G).LegsClear := legsClear_of_rank hCmd (by omega)
  have hOff : s.gStB G GRP_STATUS.wtr_run = false := by
    obtain ⟨hSeven, -⟩ | ⟨-, hWtr⟩ := rank_of_clear hClear hCmd
    · omega
    · exact hWtr
  have hNone (b : Bool) (hb : b = true → s.gStB G GRP_STATUS.wtr_run = true) : b = false := by
    cases b with
    | false => rfl
    | true => exact absurd (hb rfl) (by rw [hOff]; decide)
  refine h.operate_shows hArch (r := (8, 0x4, (s.grp G).base)) (by decide) (fun _ => hAps) (.inl hCmd) (fun _ => hRank)
    (fun b hb hBelow => ?_) (fun b hb => ?_) (by decide : 4 < 16) (fun hOn => absurd hOn (by rw [hProv]; decide))
  · have hLt : (topRequest { s.reqIn G with cmd := 0, wtr := b }).1 < 8 := hBelow.2
    obtain ⟨-, hWtr⟩ | ⟨hEight, -⟩ := rank_of_clear (x := { s.reqIn G with cmd := 0, wtr := b }) hClear rfl
    · have hOn : b = true := hWtr
      rw [hNone b hb] at hOn
      cases hOn
    · omega
  · rw [hNone b hb]
    exact topRequest_exer (x := { s.reqIn G with cmd := opExer, wtr := false }) hClear rfl rfl

theorem CmdReady.clr_shows (hProv : s.gStB G GRP_STATUS.prov = false) (hW : (s.grp G).wCond = 0) (hP : (s.grp G).pCond = 0) :
    ∃ t, run (fun s => s.prtOp w opClr G) s = .next t ∧ t.rd (prtRq w) PRT_CMD_STATUS_code = prtDone ∧
      t.rdb (prtRq w) PRT_CMD_STATUS_pending = false ∧
        t.gSt G GRP_STATUS.request = (if s.gRevert G = false ∧ (s.grp G).base = 1 then 1 else 0) ∧
        t.gSt G GRP_STATUS.sel = (if s.gRevert G = false ∧ (s.grp G).base = 1 then 1 else 0) ∧ t.gSt G GRP_STATUS.cmd = 0 ∧
        t.gStB G GRP_STATUS.wtr_run = false := by
  have hClear : (s.reqIn G).LegsClear := by
    unfold ReqIn.LegsClear State.reqIn
    dsimp only
    rw [hW, hP]
    decide
  generalize hr : (if s.gRevert G = false ∧ (s.grp G).base = 1 then 1 else 0 : Nat) = leg
  have hLeg : leg = 0 ∨ leg = 1 := by
    rw [← hr]
    split
    · exact .inr rfl
    · exact .inl rfl
  have hTop : topRequest { s.reqIn G with cmd := 0, wtr := false } = (10 - leg, leg, leg) := by
    rw [topRequest_idle (x := { s.reqIn G with cmd := 0, wtr := false }) hClear rfl rfl, ← hr]
    unfold State.reqIn
    simp only [Bool.not_eq_true']
    split <;> rfl
  have hCleared := operate_clr (s.placed w) G
  generalize hu : ((s.placed w).gPut G GRP_STATUS.cmd 0).setWtr G false = u at hCleared
  obtain ⟨hWaits, -, hWas⟩ := h.onlyWaits []
  have hGrps : u.grps = (s.placed w).grps := hu ▸ (grps_gPut ..).trans ((grps_gPut ..).trans (grps_gPut ..))
  have hWasU : (u.grp G).was = none := by rw [grp_of_grps hGrps]; exact hWas
  have hArchU : u.gArch G = 0 := by
    have hLive : u.live = (s.placed w).live := hu ▸ (live_gPut ..).trans ((live_gPut ..).trans (live_gPut ..))
    rw [gArch_of_live hLive, gArch_placed, hArch]
  have hReq : u.reqIn G = { s.reqIn G with cmd := 0, wtr := false } := by
    rw [← hu, reqIn_setWtr, reqIn_gPut_cmd _ _ (by decide), reqIn_placed]
  have hOff : u.gStB G GRP_STATUS.wtr_run = false := hu ▸ setWtr_run ..
  have hCmdU : u.gSt G GRP_STATUS.cmd = 0 := congrArg ReqIn.cmd hReq
  have hProvU : u.gStB G GRP_STATUS.prov = false := by
    rw [← hProv, ← hu, gStB_congr ((setWtr_fr ..).st _ (by decide)), gStB_congr (gSt_gPut_apart _ _ _ (by decide)),
      gStB_congr (gSt_placed ..)]
  obtain ⟨hRequest, hSel, hCmd, hRun⟩ := evalNow_shows hWasU hArchU (r := (10 - leg, leg, leg))
    (fun b _ => not_withdrawn (.inl hCmdU))
    (fun b hb => by
      cases b with
      | false => rw [hReq]; exact hTop
      | true => exact absurd (hb rfl) (by rw [hOff]; decide))
    (by show leg < 16; omega) (fun hOn => absurd hOn (by rw [hProvU]; decide))
  obtain ⟨hDoneWaits, hDoneWas⟩ := evalNow_done hWasU hArchU (hWaits.of_grps hGrps)
  obtain ⟨t, hExec, hStatus, hPending, hEntry, -⟩ := h.answered (by decide) (by decide)
    ((h.judge_operate (by decide) hArch).trans hCleared) hDoneWaits hDoneWas
  refine ⟨t, hExec, hStatus, hPending, ?_, ?_, ?_, ?_⟩
  · exact (gSt_of_entry (hEntry ..) _).trans hRequest
  · refine (gSt_of_entry (hEntry ..) _).trans (hSel.trans ?_)
    show leg % 2 = leg
    omega
  · exact (gSt_of_entry (hEntry ..) _).trans (hCmd.trans hCmdU)
  · exact (gStB_congr (gSt_of_entry (hEntry ..) _)).trans (hRun hOff)

/-- MS under LO (Table PRT-5). -/
theorem CmdReady.ms_superseded (hCmd : s.gSt G GRP_STATUS.cmd = opLo) :
    ∃ t, run (fun s => s.prtOp w opMs G) s = .next t ∧ t.rd (prtRq w) PRT_CMD_STATUS_code = prtSuperseded ∧
      ∀ pg b e, t.entry pg b e = s.entry pg b e := by
  have hRefuse : (s.placed w).operate G opMs = (s.placed w, prtSuperseded) :=
    operate_superseded (by decide) (fun c => absurd c (by decide)) (by rw [gSt_placed, hCmd]; decide) (by rw [gSt_placed, hCmd]; decide)
  obtain ⟨hWaits, -, hWas⟩ := h.onlyWaits []
  obtain ⟨t, hRun, hStatus, -, hEntry, -⟩ := h.answered (by decide) (by decide) ((h.judge_operate (by decide) hArch).trans hRefuse)
    hWaits hWas
  exact ⟨t, hRun, hStatus, fun pg b e => (hEntry pg b e).trans ((queued_fr s w []).entry_of_noTable (by decide +kernel) _ _ _)⟩

end

/-- Settles O31, command by command: a command that is let in stands when the request logic runs, and Table PRT-3 then gives its request
and its leg; MS under LO is turned away before anything is written. -/
theorem protectionRequests : Obligations.ProtectionRequests := by
  unfold Obligations.ProtectionRequests
  refine ⟨?_, ?_, ?_, ?_, ?_, ?_, ?_⟩ <;> intro s w G runs admitted last alone quiet settled number valid region owner hArch <;>
    have h : CmdReady s w G := ⟨runs, admitted, last, alone, quiet, settled, number, valid, region, owner⟩
  · exact h.lo_shows hArch
  · exact h.fs_shows hArch
  · exact h.manual_shows hArch (.inl ⟨rfl, rfl⟩)
  · exact h.manual_shows hArch (.inr ⟨rfl, rfl⟩)
  · exact h.exer_shows hArch
  · exact h.clr_shows hArch
  · exact h.ms_superseded hArch

/-! ### The operations of a software group (R244, R246) -/

/-- SET_APS gives the bytes that a group sends. -/
def State.sendAps (s : State) (G aps : Nat) : State :=
  s.setGrp G (fun x => { x with apsTx := some aps, apsOld := some (s.apsSent G), apsAt := s.dpCycle + 1 })

theorem grp_sendAps (s : State) (G aps : Nat) :
    (s.sendAps G aps).grp G = { s.grp G with apsTx := some aps, apsOld := some (s.apsSent G), apsAt := s.dpCycle + 1 } := grp_setGrp ..

theorem grp_setBridge (s : State) (G : Nat) (on : Bool) : (s.setBridge G on).grp G = { s.grp G with bridge := on } := grp_setGrp ..

theorem gSt_sendAps (s : State) (G aps : Nat) (f : TField) : (s.sendAps G aps).gSt G f = s.gSt G f := rfl

theorem gSt_setBridge (s : State) (G : Nat) (on : Bool) (f : TField) : (s.setBridge G on).gSt G f = s.gSt G f := rfl

theorem GroupFr.setBridge {G : Nat} {W : List TField} {s0 s : State} (hs : GroupFr G W s0 s) (on : Bool) :
    GroupFr G W s0 (s.setBridge G on) := hs.setGrp (fun x => { x with bridge := on })

theorem GroupFr.sendAps {G : Nat} {W : List TField} {s0 s : State} (hs : GroupFr G W s0 s) (aps : Nat) :
    GroupFr G W s0 (s.sendAps G aps) :=
  hs.setGrp (fun x => { x with apsTx := some aps, apsOld := some (s.apsSent G), apsAt := s.dpCycle + 1 })

theorem gBridges_of_live {s t : State} (h : t.live = s.live) (G : Nat) : t.gBridges G = s.gBridges G := by
  unfold State.gBridges State.effRows
  rw [h]

section
variable {s : State} {G : Nat} (hFree : s.gStB G GRP_STATUS.sfp_override = false) (arg : Nat)
include hFree

theorem setOp_sel : s.setOp G opSetSel arg = ((s.setSel G (getBits arg 28 28)).gApsRefresh G, prtDone) := by
  unfold State.setOp
  rw [hFree, if_neg (by decide), if_neg (fun h => absurd h.1 (by simp [opSetSel, opSetBridge, opSetAll]))]
  rfl

theorem setOp_aps : s.setOp G opSetAps arg = ((s.sendAps G (arg % 2 ^ 24)).gApsRefresh G, prtDone) := by
  unfold State.setOp
  rw [hFree, if_neg (by decide), if_neg (fun h => absurd h.1 (by simp [opSetAps, opSetBridge, opSetAll]))]
  rfl

variable (hBridges : (s.gBridges G).isEmpty = false)
include hBridges

theorem setOp_bridge : s.setOp G opSetBridge arg = ((s.setBridge G (bit arg 29)).gApsRefresh G, prtDone) := by
  unfold State.setOp
  rw [hFree, if_neg (by decide), hBridges, if_neg (fun h => absurd h.2 (by decide))]
  rfl

theorem setOp_all : s.setOp G opSetAll arg =
    ((((s.setSel G (getBits arg 28 28)).setBridge G (bit arg 29)).sendAps G (arg % 2 ^ 24)).gApsRefresh G, prtDone) := by
  unfold State.setOp
  rw [hFree, if_neg (by decide), hBridges, if_neg (fun h => absurd h.2 (by decide))]
  rfl

end

section
variable {s : State} {w : Who} (hBridge : s.rd (prtRq w) PRT_CMD_ARG_bridge < 2) (hSel : s.rd (prtRq w) PRT_CMD_ARG_sel < 2)
  (hAps : s.rd (prtRq w) PRT_CMD_ARG_aps < 2 ^ 24)
include hAps

theorem prtArg_aps : s.prtArg w % 2 ^ 24 = s.rd (prtRq w) PRT_CMD_ARG_aps := by
  unfold State.prtArg
  omega

include hSel

theorem prtArg_sel : getBits (s.prtArg w) 28 28 = s.rd (prtRq w) PRT_CMD_ARG_sel := by
  unfold State.prtArg getBits
  omega

include hBridge

theorem prtArg_bridge : bit (s.prtArg w) 29 = decide (s.rd (prtRq w) PRT_CMD_ARG_bridge = 1) := by
  unfold State.prtArg bit
  rw [Nat.testBit_eq_decide_div_mod_eq]
  congr 1
  apply propext
  omega

end

theorem sfpFree_placed {s : State} (w : Who) {G : Nat} (hFree : s.gStB G GRP_STATUS.sfp_override = false) :
    (s.placed w).gStB G GRP_STATUS.sfp_override = false := by rw [gStB_congr (gSt_placed ..), hFree]

section
variable {s : State} {w : Who} {G : Nat} (h : CmdReady s w G) (hArch : s.gArch G ≠ 0) (hMaster : s.prtMasterOk G w.master = true)
include h hArch hMaster

/-- What is read after an operation that has changed the group from the state in which it was judged to `u`. -/
theorem CmdReady.set_shows {op : Nat} {u : State} (hOp : 8 ≤ op ∧ op ≤ 0xB)
    (hSet : (s.placed w).setOp G op (s.prtArg w) = (u.gApsRefresh G, prtDone)) (hFr : GroupFr G [GRP_STATUS.sel] (s.placed w) u) :
    ∃ t, run (fun s => s.prtOp w op G) s = .next t ∧ t.rd (prtRq w) PRT_CMD_STATUS_code = prtDone ∧
      t.rdb (prtRq w) PRT_CMD_STATUS_pending = false ∧ (∀ f, t.gSt G f = u.gSt G f) ∧ t.grp G = u.grp G := by
  have hJudge := h.judge_software (op := op) (by unfold opAckSfp; omega) hArch hMaster
  rw [if_pos hOp.2, hSet] at hJudge
  obtain ⟨hWaits, -, hWas⟩ := h.onlyWaits []
  have hDone := hFr.gApsRefresh G
  have hInputs := congrArg (fun x => x.2.2.2) hDone.inputs
  obtain ⟨t, hRun, hStatus, hPending, hEntry, hGrps⟩ := h.answered (by omega) (by decide) hJudge (hDone.waits hWaits)
    (hInputs.trans hWas)
  exact ⟨t, hRun, hStatus, hPending, fun f => (gSt_of_entry (hEntry ..) f).trans (gSt_gApsRefresh ..),
    (grp_of_grps hGrps G).trans (grp_gApsRefresh ..)⟩

/-- ACK_SFP frees the record of the group's channel (R247). -/
theorem CmdReady.ackSfp_frees {a : Nat} (hChannel : s.gChannel G = some a) :
    ∃ t, run (fun s => s.prtOp w opAckSfp G) s = .next t ∧ t.rd (prtRq w) PRT_CMD_STATUS_code = prtDone ∧
      t.rdb (prtRq w) PRT_CMD_STATUS_pending = false ∧ t.tgetb pgPrt T_SFP_REC a SFP_REC.valid = false := by
  have hJudge := h.judge_software (op := opAckSfp) (by decide) hArch hMaster
  rw [if_neg (by decide)] at hJudge
  have hFreed : (s.placed w).freeSfp G = (s.placed w).tputb pgPrt T_SFP_REC a SFP_REC.valid false := by
    unfold State.freeSfp
    rw [gChannel_of_live (live_placed s w), hChannel]
  rw [hFreed] at hJudge
  obtain ⟨hWaits, -, hWas⟩ := h.onlyWaits []
  have hGrps : ((s.placed w).tputb pgPrt T_SFP_REC a SFP_REC.valid false).grps = (s.placed w).grps := rfl
  obtain ⟨t, hRun, hStatus, hPending, hEntry, -⟩ := h.answered (by decide) (by decide) hJudge (hWaits.of_grps hGrps)
    (by rw [grp_of_grps hGrps]; exact hWas)
  refine ⟨t, hRun, hStatus, hPending, ?_⟩
  have hFree := State.tgetb_tputb_same (s.placed w) pgPrt T_SFP_REC a SFP_REC.valid false (by decide) (by decide)
  unfold State.tgetb State.tget at hFree ⊢
  rw [hEntry]
  exact hFree

variable (hFree : s.gStB G GRP_STATUS.sfp_override = false)
include hFree

theorem CmdReady.setSel_shows (hSel : s.rd (prtRq w) PRT_CMD_ARG_sel < 2) (hAps : s.rd (prtRq w) PRT_CMD_ARG_aps < 2 ^ 24) :
    ∃ t, run (fun s => s.prtOp w opSetSel G) s = .next t ∧ t.rd (prtRq w) PRT_CMD_STATUS_code = prtDone ∧
      t.rdb (prtRq w) PRT_CMD_STATUS_pending = false ∧ t.gSt G GRP_STATUS.sel = s.rd (prtRq w) PRT_CMD_ARG_sel := by
  obtain ⟨t, hRun, hStatus, hPending, hSt, -⟩ := h.set_shows hArch hMaster (by decide) (setOp_sel (sfpFree_placed w hFree) _)
    ((GroupFr.refl G [GRP_STATUS.sel] _).setSel (by decide) _)
  refine ⟨t, hRun, hStatus, hPending, ?_⟩
  rw [hSt, setSel_sel, prtArg_sel hSel hAps]
  omega

theorem CmdReady.setAps_shows (hAps : s.rd (prtRq w) PRT_CMD_ARG_aps < 2 ^ 24) :
    ∃ t, run (fun s => s.prtOp w opSetAps G) s = .next t ∧ t.rd (prtRq w) PRT_CMD_STATUS_code = prtDone ∧
      t.rdb (prtRq w) PRT_CMD_STATUS_pending = false ∧ (t.grp G).apsTx = some (s.rd (prtRq w) PRT_CMD_ARG_aps) := by
  obtain ⟨t, hRun, hStatus, hPending, -, hGrp⟩ := h.set_shows hArch hMaster (by decide) (setOp_aps (sfpFree_placed w hFree) _)
    ((GroupFr.refl ..).sendAps _)
  refine ⟨t, hRun, hStatus, hPending, ?_⟩
  rw [hGrp, prtArg_aps hAps, grp_sendAps]

variable (hBridge : s.rd (prtRq w) PRT_CMD_ARG_bridge < 2) (hSel : s.rd (prtRq w) PRT_CMD_ARG_sel < 2)
  (hAps : s.rd (prtRq w) PRT_CMD_ARG_aps < 2 ^ 24) (hBridges : (s.gBridges G).isEmpty = false)
include hBridge hSel hAps hBridges

theorem CmdReady.setBridge_shows :
    ∃ t, run (fun s => s.prtOp w opSetBridge G) s = .next t ∧ t.rd (prtRq w) PRT_CMD_STATUS_code = prtDone ∧
      t.rdb (prtRq w) PRT_CMD_STATUS_pending = false ∧ (t.grp G).bridge = decide (s.rd (prtRq w) PRT_CMD_ARG_bridge = 1) := by
  obtain ⟨t, hRun, hStatus, hPending, -, hGrp⟩ := h.set_shows hArch hMaster (by decide)
    (setOp_bridge (sfpFree_placed w hFree) _ (by rw [gBridges_of_live (live_placed s w), hBridges])) ((GroupFr.refl ..).setBridge _)
  refine ⟨t, hRun, hStatus, hPending, ?_⟩
  rw [hGrp, prtArg_bridge hBridge hSel hAps, grp_setBridge]

theorem CmdReady.setAll_shows :
    ∃ t, run (fun s => s.prtOp w opSetAll G) s = .next t ∧ t.rd (prtRq w) PRT_CMD_STATUS_code = prtDone ∧
      t.rdb (prtRq w) PRT_CMD_STATUS_pending = false ∧ t.gSt G GRP_STATUS.sel = s.rd (prtRq w) PRT_CMD_ARG_sel ∧
      (t.grp G).bridge = decide (s.rd (prtRq w) PRT_CMD_ARG_bridge = 1) ∧ (t.grp G).apsTx = some (s.rd (prtRq w) PRT_CMD_ARG_aps) := by
  obtain ⟨t, hRun, hStatus, hPending, hSt, hGrp⟩ := h.set_shows hArch hMaster (by decide)
    (setOp_all (sfpFree_placed w hFree) _ (by rw [gBridges_of_live (live_placed s w), hBridges]))
    ((((GroupFr.refl G [GRP_STATUS.sel] _).setSel (by decide) _).setBridge _).sendAps _)
  refine ⟨t, hRun, hStatus, hPending, ?_⟩
  rw [hSt, hGrp, gSt_sendAps, gSt_setBridge, setSel_sel, grp_sendAps, grp_setBridge, prtArg_sel hSel hAps,
    prtArg_bridge hBridge hSel hAps, prtArg_aps hAps]
  exact ⟨by omega, rfl, rfl⟩

end

/-! ### The notice queue (R248) -/

/-- The oldest notice of a queue is taken off it. -/
theorem takeNotice_eq {s : State} {q n : Nat} {rest : List Notice} (h : s.notices.get [] q = n :: rest) :
    s.takeNotice q = (n, { s with notices := s.notices.set [] q rest }) := by
  unfold State.takeNotice
  rw [h]

/-- A read of PRT_NOTE_LO answers the low word of the oldest notice and latches its high word for the reader. -/
theorem prtNoteRead_takes {s : State} {w : Who} {n : Nat} {rest : List Notice} (hRun : s.dom = .run)
    (hAdmit : s.admitCode w pgPrt false = bsOk) (hQueue : s.notices.get [] (if w.proxy then w.box else 512) = n :: rest) :
    ∃ t, execPrtNoteRead w s = .next t ∧ t.reply = some ⟨bsOk, [n % 2 ^ 32]⟩ ∧
      t.rd (prtRq w) (shadowF 0x054) = n / 2 ^ 32 % 2 ^ 32 ∧ t.notices.get [] (if w.proxy then w.box else 512) = rest := by
  have hTake := takeNotice_eq (s := s.fresh) hQueue
  refine ⟨_, runBus_eq_next _ hRun hAdmit, ?_, ?_, ?_⟩ <;> rw [hTake]
  · rfl
  · exact State.rd_wr_same ..
  · exact SMap.get_set_same ..

/-- Settles O32, operation by operation: the checks of the engine let each through to `setOp`, or to the channel's record, and what that
has set is not touched by the answer. -/
theorem softwareGroups : Obligations.SoftwareGroups := by
  unfold Obligations.SoftwareGroups
  refine ⟨?_, ?_, ?_, ?_, ?_, ?_⟩
  case refine_6 =>
    intro s w q n rest hRun hAdmit hq hQueue
    subst hq
    exact prtNoteRead_takes hRun hAdmit hQueue
  case refine_5 =>
    intro s w G a runs admitted last alone quiet settled number valid region owner hArch hMaster _ hChannel
    exact CmdReady.ackSfp_frees ⟨runs, admitted, last, alone, quiet, settled, number, valid, region, owner⟩ hArch hMaster hChannel
  all_goals
    intro s w G runs admitted last alone quiet settled number valid region owner hArch hMaster hFree hBridge hSel hAps
    have h : CmdReady s w G := ⟨runs, admitted, last, alone, quiet, settled, number, valid, region, owner⟩
  · exact h.setSel_shows hArch hMaster hFree hSel hAps
  · exact h.setBridge_shows hArch hMaster hFree hBridge hSel hAps
  · exact h.setAps_shows hArch hMaster hFree hAps
  · exact h.setAll_shows hArch hMaster hFree hBridge hSel hAps

/-! ### What a leg is now (R231, R232) -/

theorem gWings_of_live {s t : State} (h : t.live = s.live) (G : Nat) : t.gWings G = s.gWings G := by
  unfold State.gWings State.effB
  rw [effF_of_live h rfl, effF_of_live h rfl]

theorem gHoldoff_of_live {s t : State} (h : t.live = s.live) (G : Nat) : t.gHoldoff G = s.gHoldoff G := gF_of_live h ..

theorem legFlow_of_live {s t : State} (h : t.live = s.live) (G leg : Nat) : t.legFlow G leg = s.legFlow G leg := effF_of_live h rfl ..

theorem legCtx_of_live {s t : State} (h : t.live = s.live) (G leg : Nat) : t.legCtx G leg = s.legCtx G leg := effF_of_live h rfl ..

theorem ctxPlace_of_live {s t : State} (h : t.live = s.live) (d c : Nat) : t.ctxPlace d c = s.ctxPlace d c := by
  have hSlots : t.ctxSlots = s.ctxSlots := by
    unfold State.ctxSlots State.effRows
    rw [h]
  have hCtx (B e : Nat) : t.ctxF B d e CTX.ctx = s.ctxF B d e CTX.ctx := effF_of_live h rfl ..
  unfold State.ctxPlace
  simp only [hSlots, hCtx]

/-! ### One leg's events (R232, R233) -/

/-- A table of a page that is not the group's. -/
def OtherPage (G pg : Nat) (T : Tab) : Prop := grpPage G ≠ pg ∧ T.code < 256

/-- From s to t nothing of group G changes but one leg: its status, its hold-off and its condition. -/
structure LegFr (G leg : Nat) (s t : State) : Prop where
  st : ∀ g, StatusApart (legField leg) g → StatusApart (hoField leg) g → t.gSt G g = s.gSt G g
  cond : ∀ k, k < 2 → k ≠ leg → (t.grp G).cond k = (s.grp G).cond k
  waits : s.OnlyWaits G → t.OnlyWaits G
  tabs : ∀ pg T e, OtherPage G pg T → t.entry pg T e = s.entry pg T e
  fr : Fr fm_takeNotes s t

theorem LegFr.refl (G leg : Nat) (s : State) : LegFr G leg s s :=
  ⟨fun _ _ _ => rfl, fun _ _ _ => rfl, id, fun _ _ _ _ => rfl, fr_refl _ s⟩

theorem entry_setGrp (s : State) (G : Nat) (u : Grp → Grp) (pg : Nat) (T : Tab) (e : Nat) :
    (s.setGrp G u).entry pg T e = s.entry pg T e := rfl

theorem OtherPage.gPut {G pg : Nat} {T : Tab} (h : OtherPage G pg T) (s : State) (f : TField) (v e : Nat) :
    (s.gPut G f v).entry pg T e = s.entry pg T e := s.entry_tput_page _ _ _ _ h.1.symm h.2 (groupTab_grpStat G).code

theorem OtherPage.gCount {G pg : Nat} {T : Tab} (h : OtherPage G pg T) (s : State) (f : TField) (e : Nat) :
    (s.gCount G f).entry pg T e = s.entry pg T e := s.entry_tput_page _ _ _ _ h.1.symm h.2 (groupTab_grpCntT G).code

theorem Grp.cond_setCond_same (x : Grp) (leg c : Nat) : (x.setCond leg c).cond leg = c := by
  unfold Grp.setCond Grp.cond
  by_cases h : leg = 0 <;> simp [h]

theorem Grp.cond_setCond_other (x : Grp) {leg k : Nat} (c : Nat) (hLeg : leg < 2) (hk : k < 2) (h : k ≠ leg) :
    (x.setCond leg c).cond k = x.cond k := by
  unfold Grp.setCond Grp.cond
  obtain ⟨rfl, rfl⟩ | ⟨rfl, rfl⟩ : leg = 0 ∧ k = 1 ∨ leg = 1 ∧ k = 0 := by omega
  · rfl
  · rfl

theorem grps_evWhen (s : State) (c : Bool) (pg k : Nat) : (s.evWhen c pg k).grps = s.grps :=
  (State.evWhen_fr s c pg k (MaskLe.refl _) (fr_refl fm_evWhen s)).grps (by decide +kernel)

section
variable {G leg : Nat} {s0 s : State} (hs : LegFr G leg s0 s)
include hs

theorem LegFr.beside {t : State} (hEntry : t.entry (grpPage G) (grpStat G) (grpIndex G) = s.entry (grpPage G) (grpStat G) (grpIndex G))
    (hGrps : t.grps = s.grps) (hTabs : ∀ pg T e, OtherPage G pg T → t.entry pg T e = s.entry pg T e) (hFr : Fr fm_takeNotes s0 t) :
    LegFr G leg s0 t :=
  ⟨fun g h1 h2 => (gSt_of_entry hEntry g).trans (hs.st g h1 h2), fun k hk hne => by rw [grp_of_grps hGrps]; exact hs.cond k hk hne,
    fun h => (hs.waits h).of_grps hGrps, fun pg T e hT => (hTabs pg T e hT).trans (hs.tabs pg T e hT), hFr⟩

theorem LegFr.gPut {f : TField} (hf : f = legField leg ∨ f = hoField leg) (v : Nat) : LegFr G leg s0 (s.gPut G f v) := by
  refine ⟨fun g h1 h2 => (gSt_gPut_apart _ _ _ ?_).trans (hs.st g h1 h2), fun k hk hne => by rw [grp_gPut]; exact hs.cond k hk hne,
    fun h => (hs.waits h).of_grps (grps_gPut ..), fun pg T e hT => (hT.gPut s f v e).trans (hs.tabs pg T e hT),
    State.gPut_fr s G f v (by decide +kernel) hs.fr⟩
  obtain rfl | rfl := hf
  · exact h1
  · exact h2

theorem LegFr.setCond (hLeg : leg < 2) (c : Nat) : LegFr G leg s0 (s.setGrp G (fun x => x.setCond leg c)) :=
  ⟨fun g h1 h2 => (gSt_setGrp ..).trans (hs.st g h1 h2),
    fun k hk hne => by rw [grp_setGrp, Grp.cond_setCond_other _ _ hLeg hk hne]; exact hs.cond k hk hne,
    fun h => (hs.waits h).setGrp _, fun pg T e hT => (entry_setGrp ..).trans (hs.tabs pg T e hT),
    State.setGrp_fr s G _ (by decide +kernel) hs.fr⟩

theorem LegFr.evWhen (c : Bool) (pg k : Nat) : LegFr G leg s0 (s.evWhen c pg k) :=
  hs.beside (State.entry_evWhen ..) (grps_evWhen ..) (fun pg' T e _ => State.entry_evWhen s c pg k pg' T e)
    (State.evWhen_fr s c pg k (by decide +kernel) hs.fr)

theorem LegFr.gCount (f : TField) : LegFr G leg s0 (s.gCount G f) :=
  hs.beside (entry_gCount ..) (grps_gCount ..) (fun pg T e hT => hT.gCount s f e) (State.gCount_fr s G f (by decide +kernel) hs.fr)

omit hs in
theorem LegFr.ite {c : Prop} [Decidable c] {a b : State} (ha : LegFr G leg s0 a) (hb : LegFr G leg s0 b) :
    LegFr G leg s0 (if c then a else b) := by
  split
  · exact ha
  · exact hb

end

/-- A leg shows a status. -/
def State.showLeg (s : State) (G leg st : Nat) : State :=
  (s.gPut G (legField leg) st).evWhen (decide (s.legShown G leg ≠ st)) (grpPage G) selLeg

/-- A condition that has passed is taken back at once (R233). -/
def State.dropCond (s : State) (G leg want : Nat) : State :=
  if (s.grp G).cond leg ≠ 0 ∧ (s.grp G).cond leg ≠ want then s.setGrp G (fun x => x.setCond leg 0) else s

/-- A new condition waits for the hold-off, if the group has one (R233). -/
def State.raiseCond (s : State) (G leg want : Nat) : State :=
  if want ≠ 0 ∧ (s.grp G).cond leg = 0 ∧ !s.gStB G (hoField leg) then
    if s.gHoldoff G = 0 then s.setGrp G (fun x => x.setCond leg want) else s.gPutB G (hoField leg) true
  else s

theorem takeLeg_eq (s : State) (G leg st : Nat) :
    s.takeLeg G leg st = ((s.showLeg G leg st).dropCond G leg ((s.showLeg G leg st).condOf G st)).raiseCond G leg
      ((s.showLeg G leg st).condOf G st) := rfl

section
variable {G leg : Nat} {s0 s : State} (hs : LegFr G leg s0 s)
include hs

theorem LegFr.showLeg (st : Nat) : LegFr G leg s0 (s.showLeg G leg st) := (hs.gPut (.inl rfl) st).evWhen _ _ _

variable (hLeg : leg < 2)
include hLeg

theorem LegFr.dropCond (want : Nat) : LegFr G leg s0 (s.dropCond G leg want) := .ite (hs.setCond hLeg 0) hs

theorem LegFr.raiseCond (want : Nat) : LegFr G leg s0 (s.raiseCond G leg want) :=
  .ite (.ite (hs.setCond hLeg want) (hs.gPut (.inr rfl) _)) hs

theorem LegFr.takeLeg (st : Nat) : LegFr G leg s0 (s.takeLeg G leg st) := by
  rw [takeLeg_eq]
  exact ((hs.showLeg st).dropCond hLeg _).raiseCond hLeg _

theorem LegFr.retakeLeg : LegFr G leg s0 (s.retakeLeg G leg) := .ite (hs.takeLeg hLeg _) hs

theorem LegFr.holdEnd : LegFr G leg s0 (s.holdEnd G leg) := by
  have hOff := hs.gPut (.inr rfl) (b2n false)
  exact .ite ((hOff.gCount _).setCond hLeg 0) (hOff.setCond hLeg _)

end

/-! ### A leg's status does not depend on the group's own entry (R231) -/

theorem wings_other (G : Nat) : OtherPage G pgWng T_WGRP_STATUS := ⟨(groupPage_grpPage G).ne_pgWng, by decide⟩

theorem flow_other (G r : Nat) : OtherPage G (pgFyr r) T_RXF_STATUS := ⟨(groupPage_grpPage G).ne_pgFyr r, by decide⟩

theorem ctx_other (G B : Nat) : OtherPage G (pgOd B 0) T_CTX_STATUS := ⟨(groupPage_grpPage G).ne_pgOdi B, by decide⟩

section
variable {G leg : Nat} {s t : State} (h : LegFr G leg s t)
include h

theorem LegFr.live : t.live = s.live := h.fr.live (by decide +kernel)

theorem LegFr.wgrps : t.wgrps = s.wgrps := h.fr.wgrps (by decide +kernel)

theorem LegFr.tget {pg : Nat} {T : Tab} (hT : OtherPage G pg T) (e : Nat) (f : TField) : t.tget pg T e f = s.tget pg T e f :=
  congrArg (fun v => getBits v f.hi f.lo) (h.tabs pg T e hT)

theorem LegFr.sel : t.gSt G GRP_STATUS.sel = s.gSt G GRP_STATUS.sel := by
  refine h.st _ ?_ ?_
  · unfold legField
    split <;> decide
  · unfold hoField
    split <;> decide

theorem LegFr.gPlayed : t.gPlayed G = s.gPlayed G := by
  unfold State.gPlayed
  simp only [gWings_of_live h.live, h.tget (wings_other G)]

theorem LegFr.ringPlays (w sel : Nat) : t.ringPlays w sel = s.ringPlays w sel := by
  unfold State.ringPlays
  rw [h.tget (wings_other G), h.wgrps]

theorem LegFr.legPlayed (k : Nat) : t.legPlayed G k = s.legPlayed G k := by
  unfold State.legPlayed
  simp only [h.gPlayed, gWings_of_live h.live, h.sel, h.ringPlays]

theorem LegFr.flowLeg (r i : Nat) : t.flowLeg r i = s.flowLeg r i := by
  have hOuts : t.flowOuts = s.flowOuts := h.fr.flowOuts (by decide +kernel)
  unfold State.flowLeg
  rw [h.tget (flow_other G r), h.tget (flow_other G r), hOuts]

theorem LegFr.legNow (k : Nat) : t.legNow G k = s.legNow G k := by
  have hCtx (B e : Nat) : t.ctxStatus B 0 e CTX_STATUS.leg = s.ctxStatus B 0 e CTX_STATUS.leg := h.tget (ctx_other G B) _ _
  unfold State.legNow
  simp only [h.legPlayed, h.wgrps, h.flowLeg, legFlow_of_live h.live, legCtx_of_live h.live, ctxPlace_of_live h.live, hCtx]

end

/-! ### What a leg shows once its events are taken (R232, R233) -/

theorem legField_apart_legField {leg k : Nat} (h : leg < 2) (hk : k < 2) (hne : k ≠ leg) : StatusApart (legField leg) (legField k) := by
  obtain ⟨rfl, rfl⟩ | ⟨rfl, rfl⟩ : leg = 0 ∧ k = 1 ∨ leg = 1 ∧ k = 0 := by omega
  · decide
  · decide

theorem hoField_apart_hoField {leg k : Nat} (h : leg < 2) (hk : k < 2) (hne : k ≠ leg) : StatusApart (hoField leg) (hoField k) := by
  obtain ⟨rfl, rfl⟩ | ⟨rfl, rfl⟩ : leg = 0 ∧ k = 1 ∨ leg = 1 ∧ k = 0 := by omega
  · decide
  · decide

theorem hoField_apart_legField (leg k : Nat) : StatusApart (hoField leg) (legField k) := by
  unfold hoField legField
  split <;> split <;> decide

theorem legField_apart_hoField (leg k : Nat) : StatusApart (legField leg) (hoField k) := by
  unfold hoField legField
  split <;> split <;> decide

/-- The other leg's events leave a leg alone. -/
structure SameLeg (G leg : Nat) (s t : State) : Prop where
  shown : t.legShown G leg = s.legShown G leg
  hold : t.gStB G (hoField leg) = s.gStB G (hoField leg)
  cond : (t.grp G).cond leg = (s.grp G).cond leg
  now : t.legNow G leg = s.legNow G leg
  live : t.live = s.live

theorem LegFr.sameLeg {G leg k : Nat} {s t : State} (h : LegFr G k s t) (hk : k < 2) (hLeg : leg < 2) (hne : leg ≠ k) : SameLeg G leg s t :=
  ⟨h.st _ (legField_apart_legField hk hLeg hne) (hoField_apart_legField ..),
    gStB_congr (h.st _ (legField_apart_hoField ..) (hoField_apart_hoField hk hLeg hne)), h.cond _ hLeg hne, h.legNow leg, h.live⟩

section
variable (s : State) (G leg : Nat)

theorem legShown_lt : s.legShown G leg < 4 := by
  refine (gSt_lt s G (legField leg)).trans_le ?_
  unfold legField
  split <;> decide

theorem gStB_hold (b : Bool) : (s.gPutB G (hoField leg) b).gStB G (hoField leg) = b := by
  refine gStB_gPutB_same s G _ b ?_ ?_ <;> unfold hoField <;> split <;> decide

theorem showLeg_shown (st : Nat) : (s.showLeg G leg st).legShown G leg = st % 4 := by
  have hPut : (s.gPut G (legField leg) st).legShown G leg = st % 4 := by
    unfold State.legShown legField
    split <;> exact gSt_gPut_same _ _ _ _ (by decide) (by decide)
  exact (gSt_of_entry (State.entry_evWhen ..) _).trans hPut

theorem showLeg_hold (st : Nat) : (s.showLeg G leg st).gStB G (hoField leg) = s.gStB G (hoField leg) :=
  gStB_congr ((gSt_of_entry (State.entry_evWhen ..) _).trans (gSt_gPut_apart _ _ _ (legField_apart_hoField ..)))

theorem showLeg_grp (st : Nat) : (s.showLeg G leg st).grp G = s.grp G := (grp_of_grps (grps_evWhen ..) G).trans (grp_gPut ..)

theorem dropCond_gSt (want : Nat) (g : TField) : (s.dropCond G leg want).gSt G g = s.gSt G g := by
  unfold State.dropCond
  split <;> rfl

theorem raiseCond_shown (want k : Nat) : (s.raiseCond G leg want).legShown G k = s.legShown G k := by
  unfold State.raiseCond
  split
  · split
    · rfl
    · exact gSt_gPut_apart _ _ _ (hoField_apart_legField ..)
  · rfl

theorem takeLeg_shown (st : Nat) : (s.takeLeg G leg st).legShown G leg = st % 4 := by
  rw [takeLeg_eq, raiseCond_shown]
  exact (dropCond_gSt ..).trans (showLeg_shown ..)

theorem retakeLeg_shown : (s.retakeLeg G leg).legShown G leg = s.legNow G leg % 4 := by
  unfold State.retakeLeg
  split
  · exact takeLeg_shown ..
  · next h =>
    have hLt := legShown_lt s G leg
    omega

theorem holdEnd_shown (k : Nat) : (s.holdEnd G leg).legShown G k = s.legShown G k := by
  have hOff : (s.gPutB G (hoField leg) false).legShown G k = s.legShown G k := gSt_gPut_apart _ _ _ (hoField_apart_legField ..)
  unfold State.holdEnd
  dsimp only
  split
  · exact (gSt_gCount ..).trans hOff
  · exact hOff

variable {s G leg}

/-- A hold-off that runs goes on when the leg's status is taken. -/
theorem raiseCond_hold {want : Nat} (hHold : s.gStB G (hoField leg) = true) : s.raiseCond G leg want = s := by
  unfold State.raiseCond
  rw [if_neg (by simp [hHold])]

theorem takeLeg_hold {st : Nat} (hHold : s.gStB G (hoField leg) = true) : (s.takeLeg G leg st).gStB G (hoField leg) = true := by
  have hShown : ((s.showLeg G leg st).dropCond G leg ((s.showLeg G leg st).condOf G st)).gStB G (hoField leg) = true := by
    rw [gStB_congr (dropCond_gSt ..), showLeg_hold, hHold]
  rw [takeLeg_eq, raiseCond_hold hShown, hShown]

theorem retakeLeg_hold (hHold : s.gStB G (hoField leg) = true) : (s.retakeLeg G leg).gStB G (hoField leg) = true := by
  unfold State.retakeLeg
  split
  · exact takeLeg_hold hHold
  · exact hHold

theorem condOf_sf (s : State) (G : Nat) : s.condOf G 2 = 2 := rfl

/-- A leg that becomes SF in a group with a hold-off starts it, and has no condition while it runs (R233). -/
theorem takeLeg_starts_hold (hCond : (s.grp G).cond leg ≠ 2) (hHoldoff : s.gHoldoff G ≠ 0) (hIdle : s.gStB G (hoField leg) = false) :
    (s.takeLeg G leg 2).gStB G (hoField leg) = true ∧ ((s.takeLeg G leg 2).grp G).cond leg = 0 := by
  have hFr : LegFr G leg s (s.showLeg G leg 2) := (LegFr.refl ..).showLeg 2
  rw [takeLeg_eq, condOf_sf]
  generalize hu : (s.showLeg G leg 2).dropCond G leg 2 = u
  have hCondU : (u.grp G).cond leg = 0 := by
    rw [← hu]
    unfold State.dropCond
    rw [showLeg_grp]
    split
    · rw [grp_setGrp, Grp.cond_setCond_same]
    · next h =>
      rw [showLeg_grp]
      by_contra hOld
      exact h ⟨hOld, hCond⟩
  have hIdleU : u.gStB G (hoField leg) = false := by rw [← hu, gStB_congr (dropCond_gSt ..), showLeg_hold, hIdle]
  have hLiveU : u.live = s.live := by
    rw [← hu, ← hFr.live]
    unfold State.dropCond
    split <;> rfl
  unfold State.raiseCond
  rw [hCondU, hIdleU, gHoldoff_of_live hLiveU, if_pos (by decide), if_neg hHoldoff]
  exact ⟨gStB_hold .., by rw [State.gPutB, grp_gPut, hCondU]⟩

/-- The end of a hold-off passes a condition that has lasted on. -/
theorem holdEnd_passes (hShown : s.legShown G leg = 2) :
    (s.holdEnd G leg).gStB G (hoField leg) = false ∧ ((s.holdEnd G leg).grp G).cond leg = 2 := by
  have hOff : (s.gPutB G (hoField leg) false).legShown G leg = 2 := (gSt_gPut_apart _ _ _ (hoField_apart_legField ..)).trans hShown
  unfold State.holdEnd
  dsimp only
  rw [hOff, condOf_sf, if_neg (by decide), grp_setGrp]
  exact ⟨gStB_hold .., Grp.cond_setCond_same ..⟩

/-- A new status is an event of the group's page. -/
theorem takeLeg_event {st : Nat} (hLeg : leg < 2) (hNew : s.legShown G leg ≠ st) (hG : G < 24576)
    (hSpeaks : s.regionSpeaks (grpRegion G) = true) : (s.takeLeg G leg st).hasEvt (grpPage G) selLeg = true := by
  have hPage : pageRegion (grpPage G) = some (grpRegion G) := by
    unfold grpPage grpRegion
    split
    · exact pageRegion_sel _ (by omega)
    · exact pageRegion_isl _ (by omega)
  have hPut : (s.gPut G (legField leg) st).regionSpeaks (grpRegion G) = true := by
    rw [(State.gPut_fr s G (legField leg) st (MaskLe.refl _) (fr_refl fm_gPut s)).regionSpeaks (by decide +kernel), hSpeaks]
  have hShown : (s.showLeg G leg st).hasEvt (grpPage G) selLeg = true := by
    unfold State.showLeg State.evWhen
    rw [decide_eq_true hNew, if_pos rfl]
    exact hasEvt_ev_in _ _ _ _ hPage hPut
  have hRest : LegFr G leg (s.showLeg G leg st) (s.takeLeg G leg st) := by
    rw [takeLeg_eq]
    exact ((LegFr.refl ..).dropCond hLeg _).raiseCond hLeg _
  exact hRest.fr.kEvt (by decide +kernel) _ _ hShown

end

/-! ### The events that a DP cycle has brought a group (R31, R261) -/

/-- The end of a leg's hold-off, if it has come. -/
def State.endHold (s : State) (G hoEnd leg : Nat) : State := if bit hoEnd leg && s.gStB G (hoField leg) then s.holdEnd G leg else s

/-- Both legs' events. -/
def State.legsTaken (s : State) (G : Nat) : State :=
  ((((s.retakeLeg G 0).retakeLeg G 1).endHold G (s.grp G).hoEnd 0).endHold G (s.grp G).hoEnd 1)

/-- What the evaluation is to know of the time before the events (`State.takeNotes`). -/
def State.wasBefore (s t : State) (G : Nat) : GrpWas :=
  ⟨(s.grp G).wCond, (s.grp G).pCond,
    decide (s.legShown G (s.gSt G GRP_STATUS.sel) ≠ 3 ∧ t.legShown G (s.gSt G GRP_STATUS.sel) = 3), (s.grp G).wtrEnd,
    decide (s.legShown G (s.gSt G GRP_STATUS.sel) ≠ t.legShown G (s.gSt G GRP_STATUS.sel))⟩

/-- The record of a group whose events are taken. -/
def Grp.taken (x : Grp) (e : GrpWas) : Grp := { x with due := false, hoEnd := 0, wtrEnd := false, was := some e }

theorem takeNotes_eq (s : State) (G : Nat) :
    s.takeNotes G = (s.legsTaken G).setGrp G (fun y => y.taken (s.wasBefore (s.legsTaken G) G)) := rfl

theorem LegFr.endHold {G leg : Nat} {s0 s : State} (hs : LegFr G leg s0 s) (hLeg : leg < 2) (hoEnd : Nat) :
    LegFr G leg s0 (s.endHold G hoEnd leg) := .ite (hs.holdEnd hLeg) hs

section
variable {s : State} {G leg : Nat}

/-- A leg's own part in it stands among events of the other leg. -/
theorem legsTaken_split (hLeg : leg < 2) : ∃ v w, LegFr G (1 - leg) s v ∧ LegFr G (1 - leg) (v.retakeLeg G leg) w ∧
    LegFr G (1 - leg) (w.endHold G (s.grp G).hoEnd leg) (s.legsTaken G) := by
  obtain rfl | rfl : leg = 0 ∨ leg = 1 := by omega
  · exact ⟨s, _, .refl .., (LegFr.refl ..).retakeLeg (by decide), (LegFr.refl ..).endHold (by decide) _⟩
  · exact ⟨_, _, (LegFr.refl ..).retakeLeg (by decide), (LegFr.refl ..).endHold (by decide) _, .refl ..⟩

theorem endHold_shown (s : State) (G hoEnd leg : Nat) : (s.endHold G hoEnd leg).legShown G leg = s.legShown G leg := by
  unfold State.endHold
  split
  · exact holdEnd_shown ..
  · rfl

theorem legsTaken_shown (hLeg : leg < 2) : (s.legsTaken G).legShown G leg = s.legNow G leg % 4 := by
  obtain ⟨v, w, hv, hw, hu⟩ := legsTaken_split (s := s) (G := G) hLeg
  rw [(hu.sameLeg (by omega) hLeg (by omega)).shown, endHold_shown, (hw.sameLeg (by omega) hLeg (by omega)).shown, retakeLeg_shown,
    (hv.sameLeg (by omega) hLeg (by omega)).now]

theorem legsTaken_event (hLeg : leg < 2) (hNew : s.legNow G leg ≠ s.legShown G leg) (hG : G < 24576)
    (hSpeaks : s.regionSpeaks (grpRegion G) = true) : (s.legsTaken G).hasEvt (grpPage G) selLeg = true := by
  obtain ⟨v, w, hv, hw, hu⟩ := legsTaken_split (s := s) (G := G) hLeg
  obtain ⟨hShown, -, -, hNow, -⟩ := hv.sameLeg (leg := leg) (by omega) hLeg (by omega)
  have hSpeaksV : v.regionSpeaks (grpRegion G) = true := by rw [hv.fr.regionSpeaks (by decide +kernel), hSpeaks]
  have hTaken : (v.retakeLeg G leg).hasEvt (grpPage G) selLeg = true := by
    unfold State.retakeLeg
    rw [if_pos (by rw [hNow, hShown]; exact hNew)]
    exact takeLeg_event hLeg (by rw [hNow, hShown]; exact hNew.symm) hG hSpeaksV
  have hEnded : LegFr G leg w (w.endHold G (s.grp G).hoEnd leg) := (LegFr.refl ..).endHold hLeg _
  exact (hw.fr.trans (hEnded.fr.trans hu.fr)).kEvt (by decide +kernel) _ _ hTaken

theorem legsTaken_starts_hold (hLeg : leg < 2) (hEnd : (s.grp G).hoEnd = 0) (hNow : s.legNow G leg = 2) (hShown : s.legShown G leg ≠ 2)
    (hCond : (s.grp G).cond leg ≠ 2) (hHoldoff : s.gHoldoff G ≠ 0) (hIdle : s.gStB G (hoField leg) = false) :
    (s.legsTaken G).gStB G (hoField leg) = true ∧ ((s.legsTaken G).grp G).cond leg = 0 := by
  obtain ⟨v, w, hv, hw, hu⟩ := legsTaken_split (s := s) (G := G) hLeg
  obtain ⟨hShownV, hHoldV, hCondV, hNowV, hLiveV⟩ := hv.sameLeg (leg := leg) (by omega) hLeg (by omega)
  have hw' := hw.sameLeg (leg := leg) (by omega) hLeg (by omega)
  have hu' := hu.sameLeg (leg := leg) (by omega) hLeg (by omega)
  have hTake : v.retakeLeg G leg = v.takeLeg G leg 2 := by
    unfold State.retakeLeg
    rw [hNowV, hNow, hShownV, if_pos hShown.symm]
  have hNoEnd : w.endHold G (s.grp G).hoEnd leg = w := by
    unfold State.endHold bit
    rw [hEnd, Nat.zero_testBit]
    rfl
  rw [hNoEnd] at hu'
  rw [hu'.hold, hu'.cond, hw'.hold, hw'.cond, hTake]
  exact takeLeg_starts_hold (by rw [hCondV]; exact hCond) (by rw [gHoldoff_of_live hLiveV]; exact hHoldoff) (by rw [hHoldV, hIdle])

theorem legsTaken_ends_hold (hLeg : leg < 2) (hEnd : bit (s.grp G).hoEnd leg = true) (hNow : s.legNow G leg = 2)
    (hHold : s.gStB G (hoField leg) = true) :
    (s.legsTaken G).gStB G (hoField leg) = false ∧ ((s.legsTaken G).grp G).cond leg = 2 := by
  obtain ⟨v, w, hv, hw, hu⟩ := legsTaken_split (s := s) (G := G) hLeg
  obtain ⟨-, hHoldV, -, hNowV, -⟩ := hv.sameLeg (leg := leg) (by omega) hLeg (by omega)
  have hw' := hw.sameLeg (leg := leg) (by omega) hLeg (by omega)
  have hu' := hu.sameLeg (leg := leg) (by omega) hLeg (by omega)
  have hHoldW : w.gStB G (hoField leg) = true := hw'.hold.trans (retakeLeg_hold (hHoldV.trans hHold))
  have hShownW : w.legShown G leg = 2 := by rw [hw'.shown, retakeLeg_shown, hNowV, hNow]
  have hEnds : w.endHold G (s.grp G).hoEnd leg = w.holdEnd G leg := by
    unfold State.endHold
    rw [hEnd, hHoldW]
    rfl
  rw [hEnds] at hu'
  rw [hu'.hold, hu'.cond]
  exact holdEnd_passes hShownW

/-- With neither leg changed and no hold-off ended there is nothing to take. -/
theorem legsTaken_of_same (h0 : s.legNow G 0 = s.legShown G 0) (h1 : s.legNow G 1 = s.legShown G 1) (hEnd : (s.grp G).hoEnd = 0) :
    s.legsTaken G = s := by
  have hRetake0 : s.retakeLeg G 0 = s := if_neg (fun h => h h0)
  have hRetake1 : s.retakeLeg G 1 = s := if_neg (fun h => h h1)
  have hEndHold (leg : Nat) : s.endHold G 0 leg = s := by
    unfold State.endHold bit
    rw [Nat.zero_testBit]
    rfl
  unfold State.legsTaken
  rw [hRetake0, hRetake1, hEnd, hEndHold, hEndHold]

end

/-! ### The evaluation of a group that has waited -/

section
variable {G : Nat} {s0 s : State} (hs : GroupFr G evalFields s0 s)
include hs

theorem GroupFr.setEntry_prt {T : Tab} (e v : Nat) (hT : T.code < 256) : GroupFr G evalFields s0 (s.setEntry pgPrt T e v) :=
  hs.beside (fun _ h => s.entry_setEntry_page _ _ _ h.page.ne_pgPrt h.code hT)
    (by unfold State.setEntry; split <;> rfl)

theorem GroupFr.logRec (typ cls src payload : Nat) : GroupFr G evalFields s0 (s.logRec typ cls src payload) :=
  hs.beside (fun _ _ => State.entry_logRec ..)
    ((State.logRec_fr s typ cls src payload (MaskLe.refl _) (fr_refl fm_logRec s)).grps (by decide +kernel))

theorem GroupFr.sfpOverwrite (n : Nat) : GroupFr G evalFields s0 { s with sfpOverwrite := n } := hs.beside (fun _ _ => rfl) rfl

theorem GroupFr.gPutB {f : TField} (hf : f ∈ evalFields) (b : Bool) : GroupFr G evalFields s0 (s.gPutB G f b) := hs.gPut hf _

/-- The bytes that an override sends. -/
theorem GroupFr.sendOverride (tx : Nat) :
    GroupFr G evalFields s0 (s.setGrp G (fun x => { x with apsTx := some tx, apsOld := none })) := hs.setGrp _

/-- The bytes that a group sends when an override ends. -/
theorem GroupFr.sendIdle (tx : Nat) : GroupFr G evalFields s0 (s.setGrp G (fun x => { x with apsTx := some tx })) := hs.setGrp _

theorem GroupFr.overrideOn : GroupFr G evalFields s0 (s.overrideOn G) := by
  unfold State.overrideOn
  extract_lets t s1 old out v s2 s3
  have hMoved : GroupFr G evalFields s0 s1 := ((hs.setSel (by decide) 0).setBridge false).gPutB (by decide) true
  have hRecord : GroupFr G evalFields s0 s2 := by
    unfold s2
    split
    · exact .ite (((GroupFr.ite (hMoved.sfpOverwrite _) hMoved).setEntry_prt _ _ (by decide)).logRec _ _ _ _) hMoved
    · exact hMoved
  have hSent : GroupFr G evalFields s0 s3 := hRecord.sendOverride _
  exact ((hSent.notice _ _ _).ev _ _).gApsRefresh _

theorem GroupFr.overrideOff : GroupFr G evalFields s0 (s.overrideOff G) := by
  unfold State.overrideOff
  extract_lets s1
  have hOff : GroupFr G evalFields s0 s1 := (hs.gPutB (f := GRP_STATUS.sfp_override) (by decide) false).sendIdle _
  exact ((hOff.notice _ _ _).ev _ _).gApsRefresh _

theorem GroupFr.evalSw (oldW oldP : Nat) : GroupFr G evalFields s0 (s.evalSw G oldW oldP) := by
  unfold State.evalSw
  extract_lets x s1
  have hTold : GroupFr G evalFields s0 s1 := .ite hs (hs.notice _ _ _)
  exact .ite hTold.overrideOn (.ite hTold.overrideOff hTold)

theorem GroupFr.evalGrp (oldW oldP : Nat) (susp : Bool) : GroupFr G evalFields s0 (s.evalGrp G oldW oldP susp) :=
  .ite (hs.evalHw _ _) (hs.evalSw _ _)

end

/-- The evaluation that follows the end of wait-to-restore. -/
def State.wtrEnded (s : State) (G : Nat) (e : GrpWas) : State :=
  if e.wtrEnd && s.gStB G GRP_STATUS.wtr_run && decide ((s.grp G).wCond = 0) then (s.setWtr G false).gCount G GRP_CNT.wtr_done else s

/-- Nothing but wait-to-restore and its count. -/
theorem wtrEnded_keeps (s : State) (G : Nat) (e : GrpWas) :
    (∀ g, StatusApart GRP_STATUS.wtr_run g → StatusApart GRP_STATUS.wtr_left g → (s.wtrEnded G e).gSt G g = s.gSt G g) ∧
      (s.wtrEnded G e).grps = s.grps ∧ (s.wtrEnded G e).live = s.live := by
  unfold State.wtrEnded
  split
  · have hStopped := setWtr_fr s G false
    refine ⟨fun g hRun hLeft => (gSt_gCount ..).trans (hStopped.st g
      (List.forall_mem_cons.2 ⟨hRun, List.forall_mem_singleton.2 hLeft⟩)), ?_, ?_⟩
    · exact (grps_gCount ..).trans ((grps_gPut ..).trans (grps_gPut ..))
    · exact ((State.gCount_fr _ G GRP_CNT.wtr_done (MaskLe.refl _) (fr_refl fm_gCount _)).live (by decide +kernel)).trans
        ((live_gPut ..).trans (live_gPut ..))
  · exact ⟨fun _ _ _ => rfl, rfl, rfl⟩

/-- The data of a group come from where they did, or from elsewhere if its selector has moved (R231). -/
def State.dataBack (s : State) (G : Nat) (moved : Bool) (sel : Nat) : State :=
  if moved ∧ G < 16384 ∧ s.gSt G GRP_STATUS.sel ≠ sel then s.groupBack G else s

theorem evalNow_of_some {s : State} {G : Nat} {e : GrpWas} (h : (s.grp G).was = some e) :
    s.evalNow G =
      (((s.setGrp G Grp.evaluated).wtrEnded G e).evalGrp G e.w e.p e.susp).dataBack G e.moved (s.gSt G GRP_STATUS.sel) := by
  have hCond : ((s.setGrp G Grp.evaluated).grp G).wCond = (s.grp G).wCond := by
    rw [grp_setGrp]
    rfl
  unfold State.evalNow State.wtrEnded
  dsimp only
  rw [h, hCond]
  rfl

/-- What follows the end of wait-to-restore. -/
theorem evalNow_fr {s : State} {G : Nat} {e : GrpWas} (h : (s.grp G).was = some e) :
    GroupFr G evalFields ((s.setGrp G Grp.evaluated).wtrEnded G e) (s.evalNow G) := by
  rw [evalNow_of_some h]
  have hEval := (GroupFr.refl G evalFields ((s.setGrp G Grp.evaluated).wtrEnded G e)).evalGrp e.w e.p e.susp
  exact .ite (hEval.groupBack G) hEval

theorem evalNow_inputs {s : State} {G : Nat} {e : GrpWas} (h : (s.grp G).was = some e) :
    ((s.evalNow G).grp G).inputs = (s.grp G).evaluated.inputs := by
  have hInputs := (evalNow_fr h).inputs
  rw [grp_of_grps (wtrEnded_keeps ..).2.1, grp_setGrp] at hInputs
  exact hInputs

theorem evalNow_was {s : State} {G : Nat} {e : GrpWas} (h : (s.grp G).was = some e) : ((s.evalNow G).grp G).was = none :=
  congrArg (fun x => x.2.2.2) (evalNow_inputs h)

theorem evalNow_waits {s : State} {G : Nat} {e : GrpWas} (h : (s.grp G).was = some e) (hWaits : s.OnlyWaits G) :
    (s.evalNow G).OnlyWaits G := (evalNow_fr h).waits ((hWaits.setGrp _).of_grps (wtrEnded_keeps ..).2.1)

/-- An evaluation reads a group's conditions and does not write them. -/
theorem evalNow_cond {s : State} {G : Nat} {e : GrpWas} (h : (s.grp G).was = some e) (leg : Nat) :
    ((s.evalNow G).grp G).cond leg = (s.grp G).cond leg := by
  have hW : ((s.evalNow G).grp G).wCond = (s.grp G).wCond := congrArg (·.1) (evalNow_inputs h)
  have hP : ((s.evalNow G).grp G).pCond = (s.grp G).pCond := congrArg (·.2.1) (evalNow_inputs h)
  unfold Grp.cond
  rw [hW, hP]

/-- Nor the legs' status and hold-off. -/
theorem evalNow_gSt {s : State} {G : Nat} {e : GrpWas} (h : (s.grp G).was = some e) {g : TField}
    (hg : ∀ f ∈ evalFields, StatusApart f g) : (s.evalNow G).gSt G g = s.gSt G g :=
  ((evalNow_fr h).st g hg).trans (((wtrEnded_keeps ..).1 g (hg _ (by decide)) (hg _ (by decide))).trans (gSt_setGrp ..))

theorem legField_of_eval (leg : Nat) : ∀ f ∈ evalFields, StatusApart f (legField leg) := by
  unfold legField
  split <;> decide

theorem hoField_of_eval (leg : Nat) : ∀ f ∈ evalFields, StatusApart f (hoField leg) := by
  unfold hoField
  split <;> decide

/-! ### The end of a DP cycle in which one group had protection events (R31, R261) -/

theorem legsTaken_waits {s : State} {G : Nat} (h : s.OnlyWaits G) : (s.legsTaken G).OnlyWaits G := by
  have hLeg0 : LegFr G 0 s (s.retakeLeg G 0) := (LegFr.refl ..).retakeLeg (by decide)
  have hLeg1 : LegFr G 1 (s.retakeLeg G 0) ((s.retakeLeg G 0).retakeLeg G 1) := (LegFr.refl ..).retakeLeg (by decide)
  have hEnd0 : LegFr G 0 ((s.retakeLeg G 0).retakeLeg G 1) (((s.retakeLeg G 0).retakeLeg G 1).endHold G (s.grp G).hoEnd 0) :=
    (LegFr.refl ..).endHold (by decide) _
  have hEnd1 : LegFr G 1 (((s.retakeLeg G 0).retakeLeg G 1).endHold G (s.grp G).hoEnd 0) (s.legsTaken G) :=
    (LegFr.refl ..).endHold (by decide) _
  exact hEnd1.waits (hEnd0.waits (hLeg1.waits (hLeg0.waits h)))

theorem takeNotes_waits {s : State} {G : Nat} (h : s.OnlyWaits G) : (s.takeNotes G).OnlyWaits G := by
  rw [takeNotes_eq]
  exact (legsTaken_waits h).setGrp _

theorem takeNotes_grp (s : State) (G : Nat) :
    (s.takeNotes G).grp G = ((s.legsTaken G).grp G).taken (s.wasBefore (s.legsTaken G) G) := by
  rw [takeNotes_eq, grp_setGrp]

theorem takeNotes_was (s : State) (G : Nat) : ((s.takeNotes G).grp G).was = some (s.wasBefore (s.legsTaken G) G) := by
  rw [takeNotes_grp]
  rfl

theorem prtDrain_of_nil {s : State} (h : s.prtQ = []) : s.prtDrain = s := by
  unfold State.prtDrain
  rw [h]
  rfl

/-- The noted group alone is evaluated. -/
theorem prtSettle_of_noted {s : State} {G : Nat} (hLast : s.prtAhead = false) (hQueue : s.prtQ = []) (hWaits : s.OnlyWaits G)
    (hDue : (s.grp G).due = true) : s.prtSettle = (s.takeNotes G).evalNow G := by
  have hTake : s.each ((s.grps.filter (fun x => x.2.due)).map (·.1)) State.takeNotes = s.takeNotes G := by
    rw [hWaits.due, hDue]
    rfl
  have hTaken := takeNotes_waits hWaits
  have hWas := takeNotes_was s G
  have hWaiting : (s.takeNotes G).waiting = [G] := by
    rw [hTaken.waiting, hWas]
    rfl
  have hQueueV : (s.takeNotes G).prtQ = [] :=
    ((State.takeNotes_fr s G (MaskLe.refl _) (fr_refl fm_takeNotes s)).prtQ (by decide +kernel)).trans hQueue
  unfold State.prtSettle State.prtSettleNow
  rw [hLast, hTake]
  generalize s.takeNotes G = v at hTaken hWas hWaiting hQueueV
  have hQueueU : (v.evalNow G).prtQ = [] :=
    ((State.evalNow_fr v G (MaskLe.refl _) (fr_refl fm_evalNow v)).prtQ (by decide +kernel)).trans hQueueV
  have hDone : (v.evalNow G).waiting = [] := by
    rw [(evalNow_waits hWas hTaken).waiting, evalNow_was hWas]
    rfl
  dsimp only
  rw [hWaiting]
  by_cases hArch : v.gArch G = 0
  · have hNone : v.each ([G].filter (fun G => decide (v.gArch G ≠ 0))) State.evalNow = v := by
      rw [List.filter_cons, decide_eq_false (not_not.2 hArch)]
      rfl
    rw [hNone, prtDrain_of_nil hQueueV, hWaiting]
    rfl
  · have hOne : v.each ([G].filter (fun G => decide (v.gArch G ≠ 0))) State.evalNow = v.evalNow G := by
      rw [List.filter_cons, decide_eq_true hArch]
      rfl
    rw [hOne, prtDrain_of_nil hQueueU, hDone]
    rfl

/-- The last protection event of a DP cycle, of a group that acts, that is not adopted in the cycle and with nothing waiting. -/
structure EventReady (s : State) (G : Nat) : Prop where
  runs : s.dom = .run
  acts : s.gActs G = true
  last : s.prtAhead = false
  alone : s.prtQ = []
  quiet : s.grps.all (fun x => !x.2.due && x.2.was.isNone) = true
  settled : s.gBornNow G = false

/-- A group's record with an event noted. -/
def State.noted (s : State) (G : Nat) (f : Grp → Grp) : State := s.fresh.setGrp G (fun x => { f x with due := true })

/-- What an event of a group's leads to. -/
theorem EventReady.settles {s : State} {G : Nat} (h : EventReady s G) {f : Grp → Grp} {c : Bool} (hNote : c = true) :
    (s.fresh.noteGrp G c f).prtSettle = ((s.noted G f).takeNotes G).evalNow G := by
  have hActs : s.fresh.gActs G = true := h.acts
  have hBorn : s.fresh.gBornNow G = false := h.settled
  have hNoted : s.fresh.noteGrp G c f = s.noted G f := by
    unfold State.noteGrp
    rw [hActs, hNote, hBorn]
    rfl
  have hWaits : (s.noted G f).OnlyWaits G := by
    have hFresh : s.fresh.OnlyWaits G := (quiet_onlyWaits h.quiet G).1
    exact hFresh.setGrp _
  rw [hNoted]
  exact prtSettle_of_noted h.last h.alone hWaits (by unfold State.noted; rw [grp_setGrp])

/-! ### What an event of a group's leads to (R232, R233, R238, R239) -/

/-- The group's events of a DP cycle, the last of which `f` notes, are taken and evaluated. -/
def State.outcome (s : State) (G : Nat) (f : Grp → Grp) : State := ((s.noted G f).takeNotes G).evalNow G

theorem gSt_after (s u : State) (G : Nat) (g : TField) : (s.after u).gSt G g = u.gSt G g := rfl

theorem grp_after (s u : State) (G : Nat) : (s.after u).grp G = u.grp G := rfl

theorem legNow_noted (s : State) (G : Nat) (f : Grp → Grp) (leg : Nat) : (s.noted G f).legNow G leg = s.legNow G leg := rfl

theorem grp_noted (s : State) (G : Nat) (f : Grp → Grp) : (s.noted G f).grp G = { f (s.grp G) with due := true } := grp_setGrp ..

theorem EventReady.run_eq {s : State} {G : Nat} (h : EventReady s G) {f : Grp → Grp} {c : State → Bool} (hNote : c s.fresh = true) :
    run (fun s => (s.noteGrp G (c s) f).prtSettle) s = .next (s.after (s.outcome G f)) := by
  rw [run_eq_next _ h.runs, h.settles hNote]
  rfl

section
variable (s : State) (G : Nat) (f : Grp → Grp)

theorem outcome_gSt {g : TField} (hg : ∀ f ∈ evalFields, StatusApart f g) :
    (s.outcome G f).gSt G g = ((s.noted G f).legsTaken G).gSt G g :=
  (evalNow_gSt (takeNotes_was ..) hg).trans (by rw [takeNotes_eq, gSt_setGrp])

theorem outcome_cond (leg : Nat) : ((s.outcome G f).grp G).cond leg = (((s.noted G f).legsTaken G).grp G).cond leg :=
  (evalNow_cond (takeNotes_was ..) leg).trans (by rw [takeNotes_grp]; rfl)

theorem outcome_event {pg k : Nat} (h : ((s.noted G f).legsTaken G).hasEvt pg k = true) : (s.outcome G f).hasEvt pg k = true := by
  have hTaken : ((s.noted G f).takeNotes G).hasEvt pg k = true := by
    rw [takeNotes_eq]
    exact h
  exact (State.evalNow_fr _ G (MaskLe.refl _) (fr_refl fm_evalNow _)).kEvt (by decide +kernel) pg k hTaken

end

/-! ### A leg's status and its hold-off (R232, R233) -/

section
variable {s : State} {G leg : Nat} (h : EventReady s G) (hLeg : leg < 2)
include h hLeg

theorem EventReady.legChange_eq (hNew : s.legNow G leg ≠ s.legShown G leg) :
    execLegStatusChange G leg s = .next (s.after (s.outcome G id)) := by
  have hMod : leg % 2 = leg := Nat.mod_eq_of_lt hLeg
  exact h.run_eq (c := fun s => decide (s.legNow G (leg % 2) ≠ s.legShown G (leg % 2))) (decide_eq_true (by rw [hMod]; exact hNew))

theorem EventReady.legChange_shows (hSpeaks : s.regionSpeaks (grpRegion G) = true) (hNew : s.legNow G leg ≠ s.legShown G leg)
    (hWidth : s.legNow G leg < 4) :
    ∃ t, execLegStatusChange G leg s = .next t ∧ t.legShown G leg = s.legNow G leg ∧ t.hasEvt (grpPage G) selLeg = true := by
  have hG : G < 24576 := by
    have hActs := h.acts
    unfold State.gActs State.gValid at hActs
    simp only [Bool.and_eq_true, decide_eq_true_eq] at hActs
    exact hActs.1.1
  refine ⟨_, h.legChange_eq hLeg hNew, ?_, ?_⟩
  · have hTaken := legsTaken_shown (s := s.noted G id) (G := G) hLeg
    rw [legNow_noted, Nat.mod_eq_of_lt hWidth] at hTaken
    exact (gSt_after ..).trans ((outcome_gSt s G id (legField_of_eval leg)).trans hTaken)
  · rw [State.hasEvt_after]
    exact outcome_event s G id (legsTaken_event hLeg hNew hG hSpeaks)

theorem EventReady.legChange_holds (hEnd : (s.grp G).hoEnd = 0) (hNow : s.legNow G leg = 2) (hShown : s.legShown G leg ≠ 2)
    (hCond : (s.grp G).cond leg ≠ 2) (hHoldoff : s.gHoldoff G ≠ 0) (hIdle : s.gStB G (hoField leg) = false) :
    ∃ t, execLegStatusChange G leg s = .next t ∧ t.gStB G (hoField leg) = true ∧ (t.grp G).cond leg = 0 := by
  obtain ⟨hStarts, hNone⟩ := legsTaken_starts_hold (s := s.noted G id) hLeg (by rw [grp_noted]; exact hEnd) hNow hShown
    (by rw [grp_noted]; exact hCond) hHoldoff hIdle
  refine ⟨_, h.legChange_eq hLeg (by rw [hNow]; exact hShown.symm), ?_, ?_⟩
  · rw [gStB_congr (gSt_after ..), gStB_congr (outcome_gSt s G id (hoField_of_eval leg)), hStarts]
  · rw [grp_after, outcome_cond, hNone]

/-- The end of a hold-off is noted for its leg. -/
def Grp.holdEnded (leg : Nat) (x : Grp) : Grp := { x with hoEnd := x.hoEnd ||| 2 ^ leg }

theorem EventReady.holdOffExpiry_passes (hHold : s.gStB G (hoField leg) = true) (hNow : s.legNow G leg = 2) :
    ∃ t, execHoldOffExpiry G leg s = .next t ∧ t.gStB G (hoField leg) = false ∧ (t.grp G).cond leg = 2 := by
  have hMod : leg % 2 = leg := Nat.mod_eq_of_lt hLeg
  have hRun : execHoldOffExpiry G leg s = .next (s.after (s.outcome G (Grp.holdEnded (leg % 2)))) :=
    h.run_eq (c := fun s => s.gStB G (hoField (leg % 2))) (by rw [hMod]; exact hHold)
  rw [hMod] at hRun
  obtain ⟨hEnds, hPassed⟩ := legsTaken_ends_hold (s := s.noted G (Grp.holdEnded leg)) hLeg
    (by rw [grp_noted]; exact (Nat.testBit_or ..).trans (by rw [Nat.testBit_two_pow_self, Bool.or_true])) hNow hHold
  refine ⟨_, hRun, ?_, ?_⟩
  · rw [gStB_congr (gSt_after ..), gStB_congr (outcome_gSt s G _ (hoField_of_eval leg)), hEnds]
  · rw [grp_after, outcome_cond, hPassed]

end

/-! ### Wait-to-restore and confirmation, with no change of a leg (R239, R252) -/

/-- What an evaluation is to know where neither leg has changed. -/
def Grp.unmoved (x : Grp) : GrpWas := ⟨x.wCond, x.pCond, false, x.wtrEnd, false⟩

/-- The state in which a hardware group is evaluated where neither leg has changed. -/
def State.unmoved (s : State) (G : Nat) (f : Grp → Grp) : State :=
  ((s.noted G f).setGrp G (fun y => y.taken (f (s.grp G)).unmoved)).setGrp G Grp.evaluated

theorem gSt_unmoved (s : State) (G : Nat) (f : Grp → Grp) (g : TField) : (s.unmoved G f).gSt G g = s.gSt G g := rfl

theorem live_unmoved (s : State) (G : Nat) (f : Grp → Grp) : (s.unmoved G f).live = s.live := rfl

theorem wtrDone_unmoved (s : State) (G : Nat) (f : Grp → Grp) : (s.unmoved G f).wtrDone G = s.wtrDone G := rfl

theorem grp_unmoved (s : State) (G : Nat) (f : Grp → Grp) :
    (s.unmoved G f).grp G = { f (s.grp G) with due := false, hoEnd := 0, wtrEnd := false, was := none } := by
  unfold State.unmoved
  rw [grp_setGrp, grp_setGrp, grp_noted]
  rfl

/-- Neither leg of a hardware group has changed, nor has a hold-off ended. -/
structure LegsSame (s : State) (G : Nat) : Prop where
  working : s.legNow G 0 = s.legShown G 0
  protection : s.legNow G 1 = s.legShown G 1
  held : (s.grp G).hoEnd = 0
  hardware : s.gArch G = 0

theorem outcome_of_same {s : State} {G : Nat} (h : LegsSame s G) {f : Grp → Grp} (hf : (f (s.grp G)).hoEnd = (s.grp G).hoEnd) :
    s.outcome G f = ((s.unmoved G f).wtrEnded G (f (s.grp G)).unmoved).evalHw G false false := by
  have hEnd : ((s.noted G f).grp G).hoEnd = 0 := by
    rw [grp_noted]
    exact hf.trans h.held
  have hWas : (s.noted G f).wasBefore (s.noted G f) G = (f (s.grp G)).unmoved := by
    unfold State.wasBefore Grp.unmoved
    rw [grp_noted]
    simp
  have hTaken : (s.noted G f).takeNotes G = (s.noted G f).setGrp G (fun y => y.taken (f (s.grp G)).unmoved) := by
    rw [takeNotes_eq, legsTaken_of_same (s := s.noted G f) h.working h.protection hEnd, hWas]
  obtain ⟨-, hGrps, hLive⟩ := wtrEnded_keeps (s.unmoved G f) G (f (s.grp G)).unmoved
  unfold State.outcome
  rw [hTaken, evalNow_of_some (e := (f (s.grp G)).unmoved) (by rw [grp_setGrp]; rfl)]
  have hHw : ((s.unmoved G f).wtrEnded G (f (s.grp G)).unmoved).evalGrp G (f (s.grp G)).unmoved.w (f (s.grp G)).unmoved.p false =
      ((s.unmoved G f).wtrEnded G (f (s.grp G)).unmoved).evalHw G false false :=
    evalGrp_hw false (by rw [gArch_of_live hLive, gArch_of_live (live_unmoved s G f), h.hardware])
      (by rw [grp_of_grps hGrps, grp_unmoved]; rfl)
  have hStays (u : State) (sel : Nat) : u.dataBack G false sel = u := if_neg (fun hMoved => absurd hMoved.1 (by decide))
  exact (hStays _ _).trans hHw

theorem grps_withdraw (s : State) (G : Nat) : (s.withdraw G).grps = s.grps :=
  (State.withdraw_fr s G (MaskLe.refl _) (fr_refl fm_withdraw s)).grps (by decide +kernel)

theorem grps_setWtr (s : State) (G : Nat) (on : Bool) : (s.setWtr G on).grps = s.grps := (grps_gPut ..).trans (grps_gPut ..)

theorem grps_evalWtr (s : State) (G : Nat) (cleared : Bool) : (s.evalWtr G cleared).grps = s.grps := by
  unfold State.evalWtr
  split
  · split
    · exact grps_setWtr ..
    · rfl
  · split
    · exact grps_setWtr ..
    · rfl

theorem grps_showRequest (s : State) (G code : Nat) : (s.showRequest G code).grps = s.grps := by
  unfold State.showRequest
  split
  · rfl
  · exact (grps_notice ..).trans (grps_gPut ..)

/-- A confirmed provisional switch ends whatever the request, unless the departed leg is SUSPECT (R252). -/
theorem followRequest_confirmed {s : State} {G : Nat} (rank leg : Nat) (susp : Bool) (hProv : s.gStB G GRP_STATUS.prov = true)
    (hConf : (s.grp G).confEnd = true) (hSuspect : s.legShown G (1 - s.gSt G GRP_STATUS.sel) ≠ 3) :
    (s.followRequest G rank leg susp).gStB G GRP_STATUS.prov = false ∧ ((s.followRequest G rank leg susp).grp G).confEnd = false := by
  have hConfBase : ((s.setGrp G (fun x => { x with base := leg })).grp G).confEnd = true := by rw [grp_setGrp]; exact hConf
  unfold State.followRequest
  rw [if_pos hProv]
  unfold State.provJudge
  dsimp only
  rw [if_pos (.inr (.inr (.inr ⟨hConfBase, hSuspect⟩)))]
  exact (provEnd_shows ..).2

theorem evalHw_confirmed {s : State} {G : Nat} (cleared susp : Bool) (hProv : s.gStB G GRP_STATUS.prov = true)
    (hConf : (s.grp G).confEnd = true) (hSuspect : s.legShown G (1 - s.gSt G GRP_STATUS.sel) ≠ 3) :
    (s.evalHw G cleared susp).gStB G GRP_STATUS.prov = false ∧ ((s.evalHw G cleared susp).grp G).confEnd = false := by
  rw [evalHw_eq s G cleared susp rfl]
  generalize hu : ((s.withdraw G).evalWtr G cleared).withdraw G = u
  generalize topRequest (u.reqIn G) = r
  generalize hv : u.showRequest G r.2.1 = v
  have hFr : GroupFr G [GRP_STATUS.cmd, GRP_STATUS.wtr_run, GRP_STATUS.wtr_left, GRP_STATUS.request] s v := by
    rw [← hv, ← hu]
    exact ((((GroupFr.refl ..).withdraw (by decide)).evalWtr (by decide) (by decide) cleared).withdraw (by decide)).showRequest
      (by decide) _
  have hGrps : v.grps = s.grps := by
    rw [← hv, ← hu, grps_showRequest, grps_withdraw, grps_evalWtr, grps_withdraw]
  have hShown (leg : Nat) : v.legShown G leg = s.legShown G leg := hFr.st _ (by unfold legField; split <;> decide)
  rw [gStB_congr (gSt_gApsRefresh ..), grp_gApsRefresh]
  exact followRequest_confirmed _ _ _ (by rw [gStB_congr (hFr.st _ (by decide)), hProv]) (by rw [grp_of_grps hGrps, hConf])
    (by rw [hShown, hFr.st _ (by decide)]; exact hSuspect)

section
variable {s : State} {G : Nat} (h : EventReady s G) (hSame : LegsSame s G)
include h hSame

/-- The end of wait-to-restore is noted. -/
def Grp.wtrEnds (x : Grp) : Grp := { x with wtrEnd := true }

/-- The end of a confirmation is noted. -/
def Grp.confEnds (x : Grp) : Grp := { x with confEnd := true }

theorem EventReady.wtrExpiry_shows (hRun : s.gStB G GRP_STATUS.wtr_run = true) (hRevert : s.gRevert G = true)
    (hW : (s.grp G).wCond = 0) (hP : (s.grp G).pCond = 0) (hCmd : s.gSt G GRP_STATUS.cmd = 0) (hProv : s.gStB G GRP_STATUS.prov = false) :
    ∃ t, execWtrExpiry G s = .next t ∧ t.gStB G GRP_STATUS.wtr_run = false ∧ t.gSt G GRP_STATUS.request = 0 ∧
      t.gSt G GRP_STATUS.sel = 0 ∧ t.wtrDone G = (s.wtrDone G + 1) % 2 ^ 32 := by
  have hNext : execWtrExpiry G s = .next (s.after (s.outcome G Grp.wtrEnds)) :=
    h.run_eq (c := fun s => s.gStB G GRP_STATUS.wtr_run) hRun
  generalize hz : s.unmoved G Grp.wtrEnds = z at *
  have hGrpZ : z.grp G = { (s.grp G).wtrEnds with due := false, hoEnd := 0, wtrEnd := false, was := none } := hz ▸ grp_unmoved ..
  have hRunZ : z.gStB G GRP_STATUS.wtr_run = true := by rw [← hz, gStB_congr (gSt_unmoved ..), hRun]
  have hWZ : (z.grp G).wCond = 0 := by rw [hGrpZ]; exact hW
  have hEnded : z.wtrEnded G (s.grp G).wtrEnds.unmoved = (z.setWtr G false).gCount G GRP_CNT.wtr_done := by
    unfold State.wtrEnded
    rw [hRunZ, hWZ]
    rfl
  have hOutcome := outcome_of_same hSame (f := Grp.wtrEnds) rfl
  rw [hz, hEnded] at hOutcome
  generalize hy : (z.setWtr G false).gCount G GRP_CNT.wtr_done = y at hOutcome
  have hStopped := setWtr_fr z G false
  have hRunY : y.gStB G GRP_STATUS.wtr_run = false := by rw [← hy, gStB_congr (gSt_gCount ..), setWtr_run]
  have hCmdY : y.gSt G GRP_STATUS.cmd = 0 := by
    rw [← hy, gSt_gCount, hStopped.st _ (by decide), ← hz, gSt_unmoved, hCmd]
  have hProvY : y.gStB G GRP_STATUS.prov = false := by
    rw [← hy, gStB_congr (gSt_gCount ..), gStB_congr (hStopped.st _ (by decide)), ← hz, gStB_congr (gSt_unmoved ..), hProv]
  have hGrpY : y.grp G = z.grp G := by rw [← hy, grp_gCount, grp_setWtr]
  have hLiveY : y.live = s.live := by
    rw [← hy, (State.gCount_fr _ G GRP_CNT.wtr_done (MaskLe.refl _) (fr_refl fm_gCount _)).live (by decide +kernel)]
    exact (live_gPut ..).trans ((live_gPut ..).trans (hz ▸ live_unmoved ..))
  have hDoneY : y.wtrDone G = (s.wtrDone G + 1) % 2 ^ 32 := by
    rw [← hy, wtrDone_gCount_same, hStopped.done, ← hz, wtrDone_unmoved]
  have hClear : ReqIn.LegsClear { y.reqIn G with wtr := false } := by
    have hPY : (y.grp G).pCond = 0 := by rw [hGrpY, hGrpZ]; exact hP
    have hWY : (y.grp G).wCond = 0 := by rw [hGrpY, hWZ]
    unfold ReqIn.LegsClear State.reqIn
    dsimp only
    rw [hPY, hWY]
    decide
  obtain ⟨hRequest, hSel, -, hOff⟩ := evalHw_shows (s := y) (r := (10, 0, 0)) (fun b _ => not_withdrawn (.inl hCmdY))
    (fun b hb => by
      cases b with
      | false =>
        have hRevertY : (y.reqIn G).revert = true := (gRevert_of_live hLiveY G).trans hRevert
        rw [topRequest_idle hClear hCmdY rfl, if_neg (by simp [hRevertY])]
      | true => exact absurd (hb rfl) (by rw [hRunY]; decide))
    (by decide) (fun hOn => absurd hOn (by rw [hProvY]; decide))
  refine ⟨_, hNext, ?_, ?_, ?_, ?_⟩ <;> rw [hOutcome]
  · exact hOff hRunY
  · exact hRequest
  · exact hSel
  · exact (evalHw_fr y G false false).done.trans hDoneY

theorem EventReady.confirmationExpiry_ends (hProv : s.gStB G GRP_STATUS.prov = true)
    (hSuspect : s.legShown G (1 - s.gSt G GRP_STATUS.sel) ≠ 3) :
    ∃ t, execConfirmationExpiry G s = .next t ∧ t.gStB G GRP_STATUS.prov = false ∧ (t.grp G).confEnd = false := by
  have hNext : execConfirmationExpiry G s = .next (s.after (s.outcome G Grp.confEnds)) :=
    h.run_eq (c := fun s => s.gStB G GRP_STATUS.prov) hProv
  have hOutcome := outcome_of_same hSame (f := Grp.confEnds) rfl
  obtain ⟨hSt, hGrps, -⟩ := wtrEnded_keeps (s.unmoved G Grp.confEnds) G (s.grp G).confEnds.unmoved
  generalize (s.unmoved G Grp.confEnds).wtrEnded G (s.grp G).confEnds.unmoved = z at *
  have hConf : (z.grp G).confEnd = true := by rw [grp_of_grps hGrps, grp_unmoved]; rfl
  have hShown (leg : Nat) : z.legShown G leg = s.legShown G leg :=
    (hSt _ (legField_of_eval _ _ (by decide)) (legField_of_eval _ _ (by decide))).trans (gSt_unmoved ..)
  have hProvZ : z.gStB G GRP_STATUS.prov = true := by
    rw [gStB_congr (hSt _ (by decide) (by decide)), gStB_congr (gSt_unmoved ..), hProv]
  rw [hOutcome] at hNext
  exact ⟨_, hNext, evalHw_confirmed false false hProvZ hConf (by rw [hShown, hSt _ (by decide) (by decide), gSt_unmoved]; exact hSuspect)⟩

end

/-! ### The position of a switched bridge -/

theorem bridgeApply_moves {s : State} {r i : Nat} {want : Bool} (hRun : s.dom = .run) (hr : r < 8) (hSpeaks : s.regionSpeaks r = true)
    (hValid : s.effB (pgSel r) T_BRG_CFG i BRG_CFG.valid = true) (hKind : s.effB (pgSel r) T_BRG_CFG i BRG_CFG.kind = true)
    (hWant : want = (s.grp (s.effF (pgSel r) T_BRG_CFG i BRG_CFG.grp)).bridge)
    (hNew : s.tgetb (pgSel r) T_BRG_STATUS i BRG_STATUS.bridged ≠ want) :
    ∃ t, execBridgeChangeApply r i s = .next t ∧ t.tgetb (pgSel r) T_BRG_STATUS i BRG_STATUS.bridged = want ∧
      t.hasEvt (pgSel r) selBridge = true := by
  have hMove : s.fresh.bridgeApply r i =
      (s.fresh.tputb (pgSel r) T_BRG_STATUS i BRG_STATUS.bridged want).ev (pgSel r) selBridge := by
    have hValidF : s.fresh.effB (pgSel r) T_BRG_CFG i BRG_CFG.valid = true := hValid
    have hKindF : s.fresh.effB (pgSel r) T_BRG_CFG i BRG_CFG.kind = true := hKind
    have hWantF : (s.fresh.grp (s.fresh.effF (pgSel r) T_BRG_CFG i BRG_CFG.grp)).bridge = want := hWant.symm
    have hNewF : s.fresh.tgetb (pgSel r) T_BRG_STATUS i BRG_STATUS.bridged ≠ want := hNew
    unfold State.bridgeApply
    dsimp only
    rw [hValidF, hKindF, hWantF, if_pos (by decide), if_neg hNewF]
  refine ⟨_, run_eq_next _ hRun, ?_, ?_⟩ <;> rw [hMove]
  · have hShown := State.tgetb_tputb_same s.fresh (pgSel r) T_BRG_STATUS i BRG_STATUS.bridged want (by decide) (by decide)
    unfold State.tgetb at hShown ⊢
    rw [State.tget_after]
    unfold State.tget at hShown ⊢
    rw [State.entry_ev]
    exact hShown
  · rw [State.hasEvt_after]
    refine hasEvt_ev_in _ _ _ r (pageRegion_sel r hr) ?_
    rw [(State.tputb_fr s.fresh (pgSel r) T_BRG_STATUS i BRG_STATUS.bridged want (MaskLe.refl _) (fr_refl _ _)).regionSpeaks
      (by decide +kernel)]
    exact hSpeaks

/-- Settles O33, clause by clause: the noted group alone is evaluated at the end of the cycle (`prtSettle_of_noted`); what its legs show
then is what the taking of their events has left (`legsTaken_split`), and without a change of a leg only the request logic moves
(`outcome_of_same`). -/
theorem protectionTimers : Obligations.ProtectionTimers := by
  unfold Obligations.ProtectionTimers
  refine ⟨?_, ?_, ?_, ?_, ?_, ?_⟩
  · intro s G leg runs acts hSpeaks last alone quiet settled hLeg
    exact EventReady.legChange_shows ⟨runs, acts, last, alone, quiet, settled⟩ hLeg hSpeaks
  · intro s G leg runs acts last alone quiet settled hLeg
    exact EventReady.legChange_holds ⟨runs, acts, last, alone, quiet, settled⟩ hLeg
  · intro s G leg runs acts last alone quiet settled hLeg
    exact EventReady.holdOffExpiry_passes ⟨runs, acts, last, alone, quiet, settled⟩ hLeg
  · intro s G runs acts last alone quiet settled h0 h1 hEnd hArch
    exact EventReady.wtrExpiry_shows ⟨runs, acts, last, alone, quiet, settled⟩ ⟨h0, h1, hEnd, hArch⟩
  · intro s G runs acts last alone quiet settled h0 h1 hEnd hArch
    exact EventReady.confirmationExpiry_ends ⟨runs, acts, last, alone, quiet, settled⟩ ⟨h0, h1, hEnd, hArch⟩
  · intro s r i want hRun hr hSpeaks hValid hKind hWant hNew
    exact bridgeApply_moves hRun hr hSpeaks hValid hKind hWant hNew

end Sys2Proof.Machine

namespace Sys2Proof.Machine

open Sys2Proof

set_option Elab.async false

/-! ### The form of a legal state (file 08, R287; file 12, R423, R424; file 15, R523)

The law of a command keeps the time base in range and the log queue in its bound, and HBM canonical for every command that cannot start a
wings group anew, which is the one operation whose law gives the form of HBM away. It empties the group's ring by a filter, so that the
form stays all the same; the laws of the operations that can lead to it are proved again here under the mask that keeps HBM's form. -/

/-- Every bit of a mask but that of HBM's form: a law under this mask keeps the form and allows everything else. -/
def memFormMask : Nat := (2 ^ 8704 - 1) ^^^ 2 ^ 404

theorem wf_memClear {m : List Host.Cell} (a n : Nat) (h : Memory.wf m = true) : Memory.wf (memClear m a n) = true := wf_filter _ m h

/-- A wings group that starts anew forgets what it held, in the queues and in its ring (R291). -/
theorem fr_ringForgotten {s0 s : State} {g q b m} (hs : Fr memFormMask s0 s) (hm : MemOk s → Memory.wf m = true) :
    Fr memFormMask s0 { s with wgrps := g, slotQ := q, hbm := b, mem := m } :=
  fr_mk_wgrps (s := { s with slotQ := q, hbm := b, mem := m }) (by decide +kernel)
    (fr_mk_slotQ (s := { s with hbm := b, mem := m }) (by decide +kernel)
      (fr_mk_hbm (s := { s with mem := m }) (by decide +kernel) (fr_mem (by decide +kernel) hs hm)))

theorem State.wgStart_memForm {s0 : State} (s : State) (w : Nat) (hs : Fr memFormMask s0 s) : Fr memFormMask s0 (s.wgStart w) := by
  unfold State.wgStart
  extract_lets keys failed off on hbm forgotten cleared put started
  have hFailed : Fr memFormMask s0 failed := fr_ite (State.wfail_fr _ _ _ _ (by decide +kernel) hs) hs
  have hOff : Fr memFormMask s0 off := State.wgEnter_fr _ _ _ (by decide +kernel) hFailed
  have hForgotten : Fr memFormMask s0 forgotten := by
    refine fr_ringForgotten hOff fun hOk => ?_
    split
    · exact wf_memClear _ _ hOk
    · exact hOk
  have hCleared : Fr memFormMask s0 cleared := State.setEntry_fr _ _ _ _ _ (by decide +kernel) hForgotten
  have hPut : Fr memFormMask s0 put := State.wgPut_fr _ _ _ _ (by decide +kernel) hCleared
  exact State.showSlots_fr started (by decide +kernel)
    (fr_ite hCleared (fr_ite hPut (State.wgEnter_fr _ _ _ (by decide +kernel) hPut)))

theorem State.adoptRegion_memForm {s0 : State} (s : State) (r : Nat) (hs : Fr memFormMask s0 s) : Fr memFormMask s0 (s.adoptRegion r) := by
  unfold State.adoptRegion
  refine State.showRegion_fr _ _ (by decide +kernel) (fr_each (fr_each (fr_each (fr_each (fr_each (fr_each (fr_each
    (State.reload_fr _ _ (by decide +kernel) hs) fun s B hs => ?_) fun s i hs => ?_) fun s i hs => ?_) fun s i hs => ?_)
    fun s w hs => ?_) fun s G hs => ?_) fun s B hs => ?_)
  · exact State.showBlock_fr _ _ (by decide +kernel) (State.blockClients_fr _ _ (by decide +kernel)
      (fr_each hs fun s x hs => State.ctxRenew_fr _ _ _ _ (by decide +kernel) hs))
  · exact State.txStart_fr _ _ _ (by decide +kernel) hs
  · exact State.rxStart_fr _ _ _ (by decide +kernel) hs
  · exact State.brgStart_fr _ _ _ (by decide +kernel) hs
  · exact State.wgStart_memForm s w hs
  · exact State.grpStart_fr _ _ (by decide +kernel) hs
  · exact State.refreshBlock_fr _ _ (by decide +kernel) hs

theorem State.leaveReset_memForm {s0 : State} (s : State) (r dst : Nat) (hs : Fr memFormMask s0 s) :
    Fr memFormMask s0 (s.leaveReset r dst) := by
  have hBit := State.isolatedBit_fr _ r false (by decide +kernel)
    (fr_mk_deferredIso (v_deferredIso := s.deferredIso.filter (fun x => decide (x ≠ r))) (by decide +kernel) hs)
  exact State.adoptRegion_memForm _ r (fr_ite (State.goIsolated_fr _ _ _ (by decide +kernel) hBit)
    (State.showFault_fr _ (by decide +kernel) (State.setRegion_fr _ _ _ _ (by decide +kernel) hBit)))

theorem State.regionResetDone_memForm {s0 : State} (s : State) (r : Nat) (hs : Fr memFormMask s0 s) :
    Fr memFormMask s0 (s.regionResetDone r) := by
  have hLeft := State.leaveReset_memForm s r rgnOffline hs
  unfold State.regionResetDone
  refine fr_ite ?_ hs
  dsimp only
  split
  · exact fr_ite (State.modeEnd_fr _ _ (by decide +kernel) hLeft) hLeft
  · exact hLeft

theorem State.callEnd_memForm {s0 : State} (s : State) (hs : Fr memFormMask s0 s) : Fr memFormMask s0 s.callEnd :=
  fr_ite (State.enterMode_fr _ _ (by decide +kernel) (State.ev_fr _ _ _ (by decide +kernel)
    (fr_each (State.wr_fr _ _ _ _ (by decide +kernel) hs) fun s r hs => State.leaveReset_memForm s r rgnActive hs))) hs

theorem State.opExitSafe_memForm {s0 : State} (s : State) (w : Who) (hs : Fr memFormMask s0 s) : Fr memFormMask s0 (s.opExitSafe_ w) := by
  have hEnd := fun s (hs : Fr memFormMask s0 s) code => State.modeFinish_fr s w.master opExitSafe code (by decide +kernel) hs
  unfold State.opExitSafe_
  refine fr_ite (hEnd _ hs _) (fr_ite (hEnd _ hs _) (hEnd _ (State.showFault_fr _ (by decide +kernel) ?_) _))
  refine State.enterMode_fr _ _ (by decide +kernel) (State.wr_fr _ _ _ _ (by decide +kernel)
    (fr_mk_callStop (by decide +kernel) (State.wrb_fr _ _ _ _ (by decide +kernel)
    (State.startCore_fr _ _ (by decide +kernel) (State.startCore_fr _ _ (by decide +kernel) (fr_each (fr_each hs ?_) ?_))))))
  · exact fun s r hs => State.enterReset_fr _ _ _ (by decide +kernel) hs
  · exact fun s r hs => State.leaveReset_memForm s r rgnOffline hs

/-! #### Adoption of rows (R78, R291) -/

theorem State.esgChange_memForm {s0 : State} (s : State) (r i old new : Nat) (hs : Fr memFormMask s0 s) :
    Fr memFormMask s0 (s.esgChange r i old new) :=
  fr_ite (State.grpStart_fr _ _ (by decide +kernel) (State.sfpForget_fr _ _ _ (by decide +kernel)
      (fr_each hs fun s w hs => State.wgStart_memForm s w hs)))
    (State.grpKeep_fr _ _ _ _ (by decide +kernel) hs)

theorem State.wgrpChange_memForm {s0 : State} (s : State) (w old new : Nat) (hs : Fr memFormMask s0 s) :
    Fr memFormMask s0 (s.wgrpChange w old new) :=
  fr_ite (State.wgStart_memForm s w hs) hs

theorem State.rowTaken_memForm {s0 : State} (s : State) (gen k old : Nat) (hs : Fr memFormMask s0 s) :
    Fr memFormMask s0 (s.rowTaken gen k old) := by
  unfold State.rowTaken
  split
  · exact hs
  extract_lets e new
  split
  · extract_lets B d ifTaken
    split
    · exact fr_when hs fun s hs => State.laneCfgChange_fr _ _ (by decide +kernel) hs
    · exact State.pointMarked_fr _ _ _ (by decide +kernel) (fr_ite (State.otuIfChange_fr _ _ (by decide +kernel) hs)
        (fr_ite (State.evalTim_fr _ _ (by decide +kernel) hs) hs))
    · exact State.cliStart_fr _ _ (by decide +kernel) hs
    · refine fr_ite hs ?_
      split
      · exact State.shpRows_fr _ _ _ _ (by decide +kernel) hs
      · exact hs
    · exact hs
  · split
    · exact fr_ite (State.brgChange_fr _ _ _ _ _ (by decide +kernel) hs) (State.esgChange_memForm _ _ _ _ _ hs)
    · exact State.isgChange_fr _ _ _ _ _ (by decide +kernel) hs
    · exact State.linkChange_fr _ _ _ (by decide +kernel) hs
    · exact State.txStart_fr _ _ _ (by decide +kernel) hs
    · exact State.rxStart_fr _ _ _ (by decide +kernel) hs
    · exact State.chAdopt_fr _ _ _ _ _ (by decide +kernel) hs
    · exact hs
  · exact State.apsStart_fr _ _ (by decide +kernel) hs
  · exact State.wgrpChange_memForm _ _ _ _ hs
  · exact hs

theorem State.adoptRows_memForm {s0 : State} (s : State) (gen : Nat) (l : List (Nat × Bool)) (hs : Fr memFormMask s0 s) :
    Fr memFormMask s0 (s.adoptRows gen l) := by
  unfold State.adoptRows
  refine fr_each (fr_each (fr_each (fr_each (fr_each (fr_each (fr_each (fr_each (fr_each hs ?ctxLeave) ?shpLeave) ?cliClose) ?rowLive)
    ?ctxEnter) ?shpEnter) ?rowTaken) ?rowGen) ?derive
  case ctxLeave => exact fun s x hs => State.ctxLeave_fr _ _ _ _ (by decide +kernel) hs
  case shpLeave => exact fun s x hs => State.shpLeave_fr _ _ _ (by decide +kernel) hs
  case cliClose => exact fun s n hs => State.cliClose_fr _ _ _ (by decide +kernel) hs
  case rowLive => exact fun s k hs => State.rowLive_fr _ _ (by decide +kernel) hs
  case ctxEnter => exact fun s x hs => State.ctxEnter_fr _ _ _ _ _ _ (by decide +kernel) hs
  case shpEnter => exact fun s x hs => State.shpEnter_fr _ _ _ _ (by decide +kernel) hs
  case rowTaken => exact fun s k hs => State.rowTaken_memForm _ _ _ _ hs
  case rowGen => exact fun s k hs => State.rowGen_fr _ _ _ (by decide +kernel) hs
  case derive =>
    exact fun s B hs => fr_each (State.blockDerive_fr _ _ (by decide +kernel) hs) fun s d hs =>
      State.showMember_fr _ _ (by decide +kernel) hs

theorem State.cueRowAdopt_memForm {s0 : State} (s : State) (n : Nat) (x : AdoptRef) (hs : Fr memFormMask s0 s) :
    Fr memFormMask s0 (s.cueRowAdopt n x) := by
  unfold State.cueRowAdopt
  extract_lets c take gen rest adopted left placed
  have hPlaced : Fr memFormMask s0 placed := fr_each (State.adoptRows_memForm _ _ _ hs) fun s j hs =>
    State.placeGen_fr _ _ _ (by decide +kernel) hs
  exact fr_ite hs (fr_ite (State.cueFinish_fr _ _ (by decide +kernel) hPlaced) (fr_mk_cues (by decide +kernel) hPlaced))

/-! #### Writes of MODE_CMD, which can carry EXIT_SAFE (file 16, R558) -/

theorem State.writeModeCmd_memForm {s0 : State} (s : State) (w : Who) (v : Nat) (temps : List Int) (hs : Fr memFormMask s0 s) :
    Fr memFormMask s0 (s.writeModeCmd w v temps) := by
  refine fr_ite hs (State.modeIssue_fr _ _ _ _ _ (by decide +kernel) (fun s hs => ?_) hs)
  exact fr_ite (State.opService__fr _ _ _ (by decide +kernel) hs) <|
    fr_ite (State.opRehearse__fr _ _ (by decide +kernel) hs) <|
    fr_ite (State.opAudit__fr _ _ (by decide +kernel) hs) <|
    fr_ite (State.opEnterSafe__fr _ _ (by decide +kernel) hs) <|
    fr_ite (State.opExitSafe_memForm _ _ hs) <|
    fr_ite (State.opEnterDark__fr _ _ (by decide +kernel) hs) <|
    fr_ite (State.opDrain__fr _ _ _ (by decide +kernel) hs) <|
    fr_ite (State.opOffline__fr _ _ _ (by decide +kernel) hs) <|
    fr_ite (State.opResume__fr _ _ _ (by decide +kernel) hs) <|
    fr_ite (State.opReset__fr _ _ _ _ (by decide +kernel) hs) <|
    fr_ite (State.opReset__fr _ _ _ _ (by decide +kernel) hs) <|
    fr_ite (State.opUpdate__fr _ _ _ _ (by decide +kernel) hs)
    (State.opStackRetrain__fr _ _ _ (by decide +kernel) hs)

theorem State.writeChip_memForm {s0 : State} (s : State) (x : RegWrite) (typ : PageType) (off v : Nat) (hs : Fr memFormMask s0 s) :
    Fr memFormMask s0 (s.writeChip x typ off v) := by
  have hPlain := State.plainWrite_fr s x.acc.who x.acc.page off v (by decide +kernel) hs
  unfold State.writeChip
  extract_lets w p
  split
  · exact fr_ite (fr_when hs fun s hs => State.dmaGo_fr _ _ (by decide +kernel) hs) hPlain
  · exact fr_ite (State.ownReq_fr _ _ _ (by decide +kernel) hs)
      (fr_ite (fr_ite (State.digTouch_fr _ _ (by decide +kernel) hPlain) hs) hPlain)
  · exact fr_ite (State.fltAck_fr _ _ (by decide +kernel) hs) (fr_ite (State.fltInject_fr _ _ (by decide +kernel) hs) hPlain)
  · exact fr_ite (State.mirrorCheck_fr _ (by decide +kernel) hPlain)
      (fr_ite (fr_when hs fun s hs => State.ghostClear_fr _ _ (by decide +kernel) hs) hPlain)
  · exact fr_ite (fr_when hs fun s hs => State.plbGo_fr _ (by decide +kernel) hs) hPlain
  · exact fr_ite (State.writeModeCmd_memForm _ _ _ _ hs) (fr_ite (State.auditStart_fr _ _ _ (by decide +kernel) hs) hPlain)
  · exact fr_ite (fr_ite hPlain hs) hPlain
  · exact hPlain

theorem State.writeBody_memForm {s0 : State} (s : State) (x : RegWrite) (i : PageInfo) (off v : Nat) (hs : Fr memFormMask s0 s) :
    Fr memFormMask s0 (s.writeBody x i off v) := by
  unfold State.writeBody
  extract_lets r B
  split
  · exact State.writeBox_fr _ _ _ _ _ (by decide +kernel) hs
  · exact State.writeLine_fr _ _ _ _ _ _ (by decide +kernel) hs
  · exact State.writeLine_fr _ _ _ _ _ _ (by decide +kernel) hs
  · exact State.writeLine_fr _ _ _ _ _ _ (by decide +kernel) hs
  · exact State.writeFyl_fr _ _ _ _ _ (by decide +kernel) hs
  · exact State.writeOhq_fr _ _ _ _ _ (by decide +kernel) hs
  · exact State.writeChk_fr _ _ _ _ _ (by decide +kernel) hs
  · exact State.writePrtWng_fr _ _ _ _ _ _ (by decide +kernel) hs
  · exact State.writePrtWng_fr _ _ _ _ _ _ (by decide +kernel) hs
  · exact State.writePrtWng_fr _ _ _ _ _ _ (by decide +kernel) hs
  · exact State.writeTime_fr _ _ _ _ _ _ (by decide +kernel) hs
  · exact State.writeTime_fr _ _ _ _ _ _ (by decide +kernel) hs
  · exact State.writeTime_fr _ _ _ _ _ _ (by decide +kernel) hs
  · exact State.writeTime_fr _ _ _ _ _ _ (by decide +kernel) hs
  · exact State.writeFwm_fr _ _ _ _ _ (by decide +kernel) hs
  · exact State.writeChip_memForm _ _ _ _ _ hs

theorem State.writeReg_memForm {s0 : State} (s : State) (x : RegWrite) (hs : Fr memFormMask s0 s) :
    Fr memFormMask s0 (s.writeReg x) := by
  unfold State.writeReg
  extract_lets pg off v
  split
  · exact hs
  · exact fr_ite (State.writeHeader_fr _ _ _ _ _ (by decide +kernel) hs)
      (fr_ite (State.writeLo_fr _ _ _ _ _ (by decide +kernel) hs)
        (fr_ite (State.writeHi_fr _ _ _ _ _ (by decide +kernel) hs) (State.writeBody_memForm _ _ _ _ _ hs)))

theorem State.proxyWrite_memForm {s0 : State} (s : State) (n x v : Nat) (hs : Fr memFormMask s0 s) :
    Fr memFormMask s0 (s.proxyWrite n x v).2 := by
  unfold State.proxyWrite
  split
  · exact hs
  · exact fr2_ite (State.proxyDenied_fr _ _ (by decide +kernel) hs) (fr2_ite hs (State.writeReg_memForm _ _ hs))

theorem State.accessWrite_memForm {s0 : State} (s : State) (x : RegWrite) (hs : Fr memFormMask s0 s) :
    Fr memFormMask s0 (s.accessWrite x).2 := by
  refine fr2_ite (State.setErr_fr _ _ _ (by decide +kernel) hs) ?_
  split
  · exact State.proxyWrite_memForm _ _ _ _ hs
  · exact State.writeReg_memForm _ _ hs

theorem State.proxyStep_memForm {s0 : State} (s : State) (n x be : Nat) (v : Option Nat) (hs : Fr memFormMask s0 s) :
    Fr memFormMask s0 (s.proxyStep n x be v) := by
  have hEnd := fun s (hs : Fr memFormMask s0 s) code l => State.answer_fr s code l (by decide +kernel) hs
  unfold State.proxyStep
  extract_lets o
  split
  · exact fr_ite (hEnd _ (State.proxyWrite_memForm _ _ _ _ hs) _ _) (hEnd _ (State.setErr_fr _ _ _ (by decide +kernel) hs) _ _)
  · exact fr_ite (hEnd _ hs _ _) (hEnd _ (State.proxyRead_fr _ _ _ (by decide +kernel) hs) _ _)

theorem State.hostWriteWords_memForm {s0 : State} (s : State) (x : HostReq) (t : HostTarget) (data : List Nat) (hs : Fr memFormMask s0 s) :
    Fr memFormMask s0 (s.hostWriteWords x t data).2 := by
  refine fr_foldl hs fun a k ha => ?_
  obtain ⟨code, s⟩ := a
  dsimp only
  split
  · exact State.accessWrite_memForm _ _ ha
  · exact State.putMemWord_fr _ _ _ _ (by decide +kernel) ha
  · exact State.msixWrite_fr _ _ _ _ _ (by decide +kernel) ha
  · exact ha

theorem State.hostRequest_memForm {s0 : State} (s : State) (x : HostReq) (hs : Fr memFormMask s0 s) :
    Fr memFormMask s0 (s.hostRequest x) := by
  have hEnd := fun s (hs : Fr memFormMask s0 s) code l => State.hostEnd_fr s x code l (by decide +kernel) hs
  have hCarried := State.carry_fr s x (by decide +kernel) hs
  refine fr_ite hs (fr_ite (hEnd _ ?_ _ _) ?_)
  · split
    · exact fr_when hCarried fun s hs => State.lateReply_fr _ _ (by decide +kernel) hs
    · exact hCarried
  · split
    · exact hEnd _ (State.hostWriteWords_memForm _ _ _ _ hCarried) _ _
    · exact hEnd _ (State.hostReadWords_fr _ _ _ (by decide +kernel) hCarried) _ _

theorem runReg_memForm {x : RegWrite} {s t : State} (h : runReg x s = .next t) : Fr memFormMask s t :=
  runBus_fr (by decide +kernel) (fun _ hs => State.answer_fr _ _ _ (by decide +kernel) (State.accessWrite_memForm _ x hs)) h

/-! #### Every command -/

theorem memFormMask_keeps : memFormMask.testBit 404 = false := by decide +kernel

/-- The commands that can start a wings group anew. -/
def mayRestartGroup : Instr → Bool
  | .registerWrite _ | .loWrite _ _ | .hiWrite _ _ | .cueRowAdopt _ _ | .hostRequest _ | .proxyAccess _ _ _ _ _ | .callDone
  | .exitSafe _ | .regionResetDone _ => true
  | _ => false

theorem execMask_keepsForm (c : Instr) : (execMask c).testBit 402 = false ∧ (execMask c).testBit 403 = false ∧
    (mayRestartGroup c = false → (execMask c).testBit 404 = false) := by
  cases c <;> (dsimp only [execMask, mayRestartGroup]; decide +kernel)

theorem exec_memForm (c : Instr) {s t : State} (hc : mayRestartGroup c = true) (h : exec c s = .next t) : Fr memFormMask s t := by
  cases c
  case registerWrite x => exact runReg_memForm h
  case loWrite a v => exact runReg_memForm h
  case hiWrite a v => exact runReg_memForm h
  case cueRowAdopt n x => exact run_fr (by decide +kernel) (fun s hs => State.cueRowAdopt_memForm s _ x hs) h
  case hostRequest x => exact run_fr (by decide +kernel) (fun s hs => State.hostRequest_memForm s x hs) h
  case proxyAccess w n off be v => exact runBus_fr (by decide +kernel) (fun s hs => State.proxyStep_memForm s _ off be v hs) h
  case callDone => exact run_fr (by decide +kernel) State.callEnd_memForm h
  case exitSafe w =>
    exact runBus_fr (by decide +kernel) (fun s hs => State.modeIssue_fr _ _ _ _ _ (by decide +kernel)
      (fun s hs => State.opExitSafe_memForm s w hs) hs) h
  case regionResetDone r => exact run_fr (by decide +kernel) (fun s hs => State.regionResetDone_memForm s r hs) h
  all_goals cases hc

theorem exec_memOk {c : Instr} {s t : State} (h : exec c s = .next t) (hOk : MemOk s) : MemOk t := by
  obtain ⟨-, -, hMem⟩ := execMask_keepsForm c
  cases hc : mayRestartGroup c with
  | true => exact (exec_memForm c hc h).kMem memFormMask_keeps hOk
  | false => exact (exec_fr c s t h).kMem (hMem hc) hOk

theorem State.Inv.of_fr {M : Nat} {s t : State} (hs : s.Inv) (hFr : Fr M s t) (hMem : MemOk s → MemOk t)
    (hLog : M.testBit 402 = false) (hTb : M.testBit 403 = false) : t.Inv :=
  ⟨hMem hs.mem, hFr.kTb hTb hs.time, hFr.kLog hLog hs.log⟩

theorem exec_inv {c : Instr} {s t : State} (h : exec c s = .next t) (hs : s.Inv) : t.Inv := by
  obtain ⟨hLog, hTb, -⟩ := execMask_keepsForm c
  exact hs.of_fr (exec_fr c s t h) (exec_memOk h) hLog hTb

theorem State.tick_inv {s : State} (hs : s.Inv) : s.tick.Inv := by
  have hFr : Fr fm_tick s s.tick := State.tick_fr s (MaskLe.refl _) (fr_refl _ s)
  exact hs.of_fr hFr (hFr.kMem (by decide +kernel)) (by decide +kernel) (by decide +kernel)

/-- Settles O3: a step runs the front command, which keeps the form with the rest of the queue (`exec_inv`), or lets a DP cycle pass
(`State.tick_inv`). -/
theorem stepKeepsTheForm : Obligations.StepKeepsTheForm := by
  unfold Obligations.StepKeepsTheForm
  intro s t hs hStep
  unfold step at hStep
  split at hStep
  · exact exec_inv hStep ⟨hs.mem, hs.time, hs.log⟩
  · cases hStep
    exact State.tick_inv hs

end Sys2Proof.Machine

namespace Sys2Proof.Machine

open Sys2Proof

set_option Elab.async false

/-! ### The counter of late retrainings (file 08, R295, R302) -/

/-- A late retraining counts in the 64 bits of HBM_RETRAIN_LATE. -/
theorem retrainPc_late {s : State} {k : Nat} (hUp : s.hbmUp k = true) :
    (s.retrainPc k true).rd (pgHbm k) HBM_RETRAIN_LATE = (s.rd (pgHbm k) HBM_RETRAIN_LATE + 1) % 2 ^ 64 := by
  unfold State.retrainPc
  rw [if_pos hUp]
  dsimp only
  rw [if_pos rfl, State.rd_ev, State.count, State.rd_wr_same, State.rd_wr_ne _ _ _ _ _ _ (by decide)]
  rfl

/-- Stack 0 in service after 2^32 - 1 late retrainings. -/
def manyLateState : State := (State.reset.wr (pgHbm 0) HBM_STATUS_state hbmService).wr (pgHbm 0) HBM_RETRAIN_LATE (2 ^ 32 - 1)

/-- Refutes O37: the fourth clause lets HBM_RETRAIN_LATE wrap at 2^32, but the counter has 64 bits. In `manyLateState` it holds 2^32 - 1,
and one more late retraining makes it 2^32 (`retrainPc_late`), where the clause wants 0. -/
theorem not_hbmStacks : ¬ Obligations.HbmStacks := by
  unfold Obligations.HbmStacks
  rintro ⟨-, -, -, hRetrain, -⟩
  have hRun : manyLateState.dom = .run := by decide +kernel
  have hUp : manyLateState.hbmUp 0 = true := by decide +kernel
  have hBefore : manyLateState.rd (pgHbm 0) HBM_RETRAIN_LATE = 2 ^ 32 - 1 := by decide +kernel
  obtain ⟨t, hExec, -, -, hClaimed⟩ := hRetrain manyLateState 0 true hRun hUp
  have hNext : exec (.hbmRetrainPc 0 true) manyLateState = .next (manyLateState.after (manyLateState.fresh.retrainPc 0 true)) :=
    run_eq_next (fun s => s.retrainPc 0 true) hRun
  obtain rfl := Host.Outcome.next.inj (hExec.symm.trans hNext)
  rw [State.rd_after, retrainPc_late (s := manyLateState.fresh) hUp, State.rd_fresh, hBefore] at hClaimed
  exact absurd hClaimed (by decide)

end Sys2Proof.Machine

namespace Sys2Proof.Machine

open Sys2Proof

set_option Elab.async false

/-! ### One received stamp (file 08, R269, R272) -/

/-- A stamp in frame of the known format reaches an ingress context with stamps whose region carries data, and gives a count. -/
structure StampHeard (s : State) (B e : Nat) (g : StampGroup) (count : Nat) : Prop where
  valid : s.ctxB B 0 e CTX.valid = true
  enabled : s.ctxB B 0 e CTX.stamp_en = true
  carries : s.datapath (B / 8) = true
  inFrame : g.inFrame = true
  noSsf : s.ctxStatusB B 0 e CTX_STATUS.ssf_in = false
  format : getBits g.format 7 4 = 1
  count : count = g.exp2.getD 0 0 % 256 * 65536 + g.exp2.getD 1 0 % 256 * 256 + g.exp2.getD 2 0 % 256

theorem State.ctx_setCtx_same (s : State) (B d e : Nat) (u : Ctx → Ctx) : (s.setCtx B d e u).ctx B d e = u (s.ctx B d e) :=
  SMap.get_upd_same ..

theorem State.ctx_ev (s : State) (pg k B d e : Nat) : (s.ev pg k).ctx B d e = s.ctx B d e := by
  unfold State.ctx
  rw [(State.ev_fr s pg k (MaskLe.refl _) (fr_refl fm_ev s)).ctxs (by decide +kernel)]

theorem State.ctx_setEntry (s : State) (pg : Nat) (T : Tab) (k v B d e : Nat) : (s.setEntry pg T k v).ctx B d e = s.ctx B d e := by
  unfold State.setEntry
  dsimp only
  split <;> rfl

theorem State.tget_ev (s : State) (pg' k pg : Nat) (T : Tab) (e : Nat) (g : TField) : (s.ev pg' k).tget pg T e g = s.tget pg T e g :=
  congrArg (fun x => getBits x g.hi g.lo) (State.entry_ev s pg' k pg T e)

theorem StampHeard.count_lt {s : State} {B e count : Nat} {g : StampGroup} (h : StampHeard s B e g count) : count < 2 ^ 24 := by
  have hCount := h.count
  omega

/-- An event of the page ODI of a block whose region carries data is recorded. -/
theorem hasEvt_ev_odi {s : State} {B : Nat} (hB : B < 64) (hSpeaks : s.regionSpeaks (B / 8) = true) (k : Nat) :
    (s.ev (pgOdi B) k).hasEvt (pgOdi B) k = true :=
  hasEvt_ev_in _ _ _ _ (pageRegion_odi B hB) hSpeaks

theorem regionSpeaks_tput (s : State) (pg : Nat) (T : Tab) (e : Nat) (f : TField) (v r : Nat) :
    (s.tput pg T e f v).regionSpeaks r = s.regionSpeaks r := by
  unfold State.regionSpeaks State.region
  rw [State.rd_tput]

theorem regionSpeaks_tputb (s : State) (pg : Nat) (T : Tab) (e : Nat) (f : TField) (b : Bool) (r : Nat) :
    (s.tputb pg T e f b).regionSpeaks r = s.regionSpeaks r := regionSpeaks_tput ..

theorem regionSpeaks_setCtx (s : State) (B d e : Nat) (u : Ctx → Ctx) (r : Nat) :
    (s.setCtx B d e u).regionSpeaks r = s.regionSpeaks r := rfl

theorem regionSpeaks_tcount (s : State) (pg : Nat) (T : Tab) (e : Nat) (f : TField) (n r : Nat) :
    (s.tcount pg T e f n).regionSpeaks r = s.regionSpeaks r := regionSpeaks_tput ..

/-- The field just put, with its width as a number. -/
theorem State.tget_tput_width {f : TField} {n : Nat} (hWidth : f.hi - f.lo + 1 = n) (s : State) (pg : Nat) (T : Tab) (e v : Nat)
    (h : f.lo ≤ f.hi) (hRow : f.hi < 128 * T.rows) : (s.tput pg T e f v).tget pg T e f = v % 2 ^ n := by
  rw [State.tget_tput_same _ _ _ _ _ _ h hRow, hWidth]

/-- The table counter just moved, with its width as a number. -/
theorem State.tget_tcount_width {f : TField} {n : Nat} (hWidth : f.hi - f.lo + 1 = n) (s : State) (pg : Nat) (T : Tab) (e k : Nat)
    (h : f.lo ≤ f.hi) (hRow : f.hi < 128 * T.rows) : (s.tcount pg T e f k).tget pg T e f = (s.tget pg T e f + k) % 2 ^ n :=
  State.tget_tput_width hWidth s pg T e _ h hRow

theorem State.tget_tcount_ne (s : State) (pg : Nat) (T : Tab) (e : Nat) (f g : TField) (k : Nat) (h : f.lo ≤ f.hi) (h' : g.lo ≤ g.hi)
    (hRow : g.hi < 128 * T.rows) (hApart : f.hi < g.lo ∨ g.hi < f.lo) : (s.tcount pg T e f k).tget pg T e g = s.tget pg T e g :=
  State.tget_tput_ne s pg T e f g _ h h' hRow hApart

theorem tget_tcount_crcErr (s : State) (B e : Nat) : (s.tcount (pgOdi B) T_STAMP_RX e STAMP_RX.crc_err).tget (pgOdi B) T_STAMP_RX e
    STAMP_RX.crc_err = (s.tget (pgOdi B) T_STAMP_RX e STAMP_RX.crc_err + 1) % 2 ^ 32 :=
  State.tget_tcount_width (by decide) _ _ _ _ _ (by decide) (by decide)

theorem tgetb_tcount_crcErr (s : State) (B e : Nat) : (s.tcount (pgOdi B) T_STAMP_RX e STAMP_RX.crc_err).tgetb (pgOdi B) T_STAMP_RX e
    STAMP_RX.locked = s.tgetb (pgOdi B) T_STAMP_RX e STAMP_RX.locked := by
  unfold State.tgetb
  rw [State.tget_tcount_ne _ _ _ _ _ _ _ (by decide) (by decide) (by decide) (by decide)]

section
variable {s : State} {B e count : Nat} {g : StampGroup} (h : StampHeard s B e g count)
include h

/-- The third valid stamp in a row that follows on locks an unlocked context (R272). -/
theorem StampHeard.stampInstance_of_third (hCrc : stampCrc (g.format % 256) count = g.exp2.getD 3 0 % 256)
    (hUnlocked : s.tgetb (pgOdi B) T_STAMP_RX e STAMP_RX.locked = false) (hRun : (s.ctx B 0 e).stRun = 2)
    (hNext : (s.ctx B 0 e).stNext = 256 * count + g.mfas % 256) :
    s.stampInstance B e g = ((((s.setCtx B 0 e (fun c => { c with
        stRun := 3, stNext := stampNext (256 * count + g.mfas % 256), stBad := 0 })).tputb (pgOdi B) T_STAMP_RX e STAMP_RX.locked
      true).tput (pgOdi B) T_STAMP_RX e STAMP_RX.count count).setCtx B 0 e (fun c => { c with stRun := 0 })).ev (pgOdi B) 5 := by
  unfold State.stampInstance
  simp [-List.getD_eq_getElem?_getD, h.valid, h.enabled, h.carries, h.inFrame, h.noSsf, h.format, ← h.count, hCrc, hUnlocked, hRun, hNext]

/-- A stamp whose CRC-8 fails counts in crc_err; unlocked, it ends the run. -/
theorem StampHeard.stampInstance_of_badCrc_unlocked (hCrc : stampCrc (g.format % 256) count ≠ g.exp2.getD 3 0 % 256)
    (hUnlocked : s.tgetb (pgOdi B) T_STAMP_RX e STAMP_RX.locked = false) :
    s.stampInstance B e g =
      (s.tcount (pgOdi B) T_STAMP_RX e STAMP_RX.crc_err).setCtx B 0 e (fun c => { c with stRun := 0 }) := by
  have hStill : (s.tcount (pgOdi B) T_STAMP_RX e STAMP_RX.crc_err).tgetb (pgOdi B) T_STAMP_RX e STAMP_RX.locked = false := by
    rw [tgetb_tcount_crcErr, hUnlocked]
  unfold State.stampInstance
  simp [-List.getD_eq_getElem?_getD, h.valid, h.enabled, h.carries, h.inFrame, h.noSsf, h.format, ← h.count, hCrc, hStill]

/-- The third stamp in a row that is not valid or does not agree takes the lock away (R272). -/
theorem StampHeard.stampInstance_of_badCrc_locked (hCrc : stampCrc (g.format % 256) count ≠ g.exp2.getD 3 0 % 256)
    (hLocked : s.tgetb (pgOdi B) T_STAMP_RX e STAMP_RX.locked = true) (hBad : (s.ctx B 0 e).stBad = 2) :
    ∃ n u, s.stampInstance B e g = (((s.tcount (pgOdi B) T_STAMP_RX e STAMP_RX.crc_err).setCtx B 0 e u).tput (pgOdi B) T_STAMP_RX e
      STAMP_RX.count n).stampUnlock B e := by
  have hStill : (s.tcount (pgOdi B) T_STAMP_RX e STAMP_RX.crc_err).tgetb (pgOdi B) T_STAMP_RX e STAMP_RX.locked = true := by
    rw [tgetb_tcount_crcErr, hLocked]
  have hCtx : (s.tcount (pgOdi B) T_STAMP_RX e STAMP_RX.crc_err).ctx B 0 e = s.ctx B 0 e := State.ctx_setEntry ..
  refine ⟨(s.ctx B 0 e).stNext / 256, fun c => { c with stNext := stampNext c.stNext, stBad := c.stBad + 1 }, ?_⟩
  unfold State.stampInstance
  simp [-List.getD_eq_getElem?_getD, h.valid, h.enabled, h.carries, h.inFrame, h.noSsf, h.format, ← h.count, hCrc, hStill, hCtx,
    State.tput, State.ctx_setEntry, State.ctx_setCtx_same, hBad]

end

theorem State.tgetb_setCtx (s : State) (B d k : Nat) (u : Ctx → Ctx) (pg : Nat) (T : Tab) (e : Nat) (g : TField) :
    (s.setCtx B d k u).tgetb pg T e g = s.tgetb pg T e g := rfl

section
variable {s : State} {B e : Nat}

/-- A loss of stamp lock shows with its event and leaves the counters alone. -/
theorem stampUnlock_shows (hB : B < 64) (hSpeaks : s.regionSpeaks (B / 8) = true)
    (hLocked : s.tgetb (pgOdi B) T_STAMP_RX e STAMP_RX.locked = true) :
    (s.stampUnlock B e).tgetb (pgOdi B) T_STAMP_RX e STAMP_RX.locked = false ∧ (s.stampUnlock B e).hasEvt (pgOdi B) 5 = true ∧
    (s.stampUnlock B e).tget (pgOdi B) T_STAMP_RX e STAMP_RX.crc_err = s.tget (pgOdi B) T_STAMP_RX e STAMP_RX.crc_err := by
  have hStill (u : Ctx → Ctx) : (s.setCtx B 0 e u).tgetb (pgOdi B) T_STAMP_RX e STAMP_RX.locked = true := hLocked
  unfold State.stampUnlock
  dsimp only
  rw [if_pos (hStill _)]
  refine ⟨?_, hasEvt_ev_odi hB (by rw [regionSpeaks_tputb, regionSpeaks_setCtx, hSpeaks]) 5, ?_⟩
  · unfold State.tgetb
    rw [State.tget_ev]
    exact State.tgetb_tputb_same _ _ _ _ _ false (by decide) (by decide)
  · rw [State.tget_ev, State.tputb, State.tget_tput_ne _ _ _ _ _ _ _ (by decide) (by decide) (by decide) (by decide), State.tget_setCtx]

end

section
variable {s : State} {B e count : Nat} {g : StampGroup} (h : StampHeard s B e g count) (hB : B < 64)
include h hB

theorem StampHeard.locks_of_third (hCrc : stampCrc (g.format % 256) count = g.exp2.getD 3 0 % 256)
    (hUnlocked : s.tgetb (pgOdi B) T_STAMP_RX e STAMP_RX.locked = false) (hRun : (s.ctx B 0 e).stRun = 2)
    (hNext : (s.ctx B 0 e).stNext = 256 * count + g.mfas % 256) :
    (s.stampInstance B e g).tgetb (pgOdi B) T_STAMP_RX e STAMP_RX.locked = true ∧
    (s.stampInstance B e g).tget (pgOdi B) T_STAMP_RX e STAMP_RX.count = count ∧ (s.stampInstance B e g).hasEvt (pgOdi B) 5 = true ∧
    ((s.stampInstance B e g).ctx B 0 e).stNext = (256 * count + g.mfas % 256 + 4) % 2 ^ 32 := by
  rw [h.stampInstance_of_third hCrc hUnlocked hRun hNext]
  refine ⟨?_, ?_, hasEvt_ev_odi hB ?_ 5, ?_⟩
  · unfold State.tgetb
    rw [State.tget_ev, State.tget_setCtx, State.tget_tput_ne _ _ _ _ _ _ _ (by decide) (by decide) (by decide) (by decide)]
    exact State.tgetb_tputb_same _ _ _ _ _ true (by decide) (by decide)
  · rw [State.tget_ev, State.tget_setCtx, State.tget_tput_width (n := 24) (by decide) _ _ _ _ _ (by decide) (by decide),
      Nat.mod_eq_of_lt h.count_lt]
  · rw [regionSpeaks_setCtx, regionSpeaks_tput, regionSpeaks_tputb, regionSpeaks_setCtx, regionSpeaks_of_datapath h.carries]
  · rw [State.ctx_ev, State.ctx_setCtx_same, State.tput, State.ctx_setEntry, State.tputb, State.tput, State.ctx_setEntry,
      State.ctx_setCtx_same, stampNext]

theorem StampHeard.unlocks_of_badCrc (hCrc : stampCrc (g.format % 256) count ≠ g.exp2.getD 3 0 % 256)
    (hLocked : s.tgetb (pgOdi B) T_STAMP_RX e STAMP_RX.locked = true) (hBad : (s.ctx B 0 e).stBad = 2) :
    (s.stampInstance B e g).tgetb (pgOdi B) T_STAMP_RX e STAMP_RX.locked = false ∧
    (s.stampInstance B e g).hasEvt (pgOdi B) 5 = true ∧ (s.stampInstance B e g).tget (pgOdi B) T_STAMP_RX e STAMP_RX.crc_err =
      (s.tget (pgOdi B) T_STAMP_RX e STAMP_RX.crc_err + 1) % 2 ^ 32 := by
  obtain ⟨n, u, hLoss⟩ := h.stampInstance_of_badCrc_locked hCrc hLocked hBad
  have hSpeaks : (((s.tcount (pgOdi B) T_STAMP_RX e STAMP_RX.crc_err).setCtx B 0 e u).tput (pgOdi B) T_STAMP_RX e STAMP_RX.count
      n).regionSpeaks (B / 8) = true := by
    rw [regionSpeaks_tput, regionSpeaks_setCtx, regionSpeaks_tcount, regionSpeaks_of_datapath h.carries]
  have hStill : (((s.tcount (pgOdi B) T_STAMP_RX e STAMP_RX.crc_err).setCtx B 0 e u).tput (pgOdi B) T_STAMP_RX e STAMP_RX.count
      n).tgetb (pgOdi B) T_STAMP_RX e STAMP_RX.locked = true := by
    rw [← hLocked, ← tgetb_tcount_crcErr s B e]
    unfold State.tgetb
    rw [State.tget_tput_ne _ _ _ _ _ _ _ (by decide) (by decide) (by decide) (by decide), State.tget_setCtx]
  obtain ⟨hOff, hEvt, hCnt⟩ := stampUnlock_shows hB hSpeaks hStill
  rw [hLoss]
  refine ⟨hOff, hEvt, hCnt.trans ?_⟩
  rw [State.tget_tput_ne _ _ _ _ _ _ _ (by decide) (by decide) (by decide) (by decide), State.tget_setCtx, tget_tcount_crcErr]

omit hB in
theorem StampHeard.endsRun_of_badCrc (hCrc : stampCrc (g.format % 256) count ≠ g.exp2.getD 3 0 % 256)
    (hUnlocked : s.tgetb (pgOdi B) T_STAMP_RX e STAMP_RX.locked = false) :
    (s.stampInstance B e g).tgetb (pgOdi B) T_STAMP_RX e STAMP_RX.locked = false ∧ ((s.stampInstance B e g).ctx B 0 e).stRun = 0 ∧
    (s.stampInstance B e g).tget (pgOdi B) T_STAMP_RX e STAMP_RX.crc_err =
      (s.tget (pgOdi B) T_STAMP_RX e STAMP_RX.crc_err + 1) % 2 ^ 32 := by
  rw [h.stampInstance_of_badCrc_unlocked hCrc hUnlocked]
  refine ⟨?_, ?_, ?_⟩
  · rw [State.tgetb_setCtx, tgetb_tcount_crcErr, hUnlocked]
  · rw [State.ctx_setCtx_same]
  · rw [State.tget_setCtx, tget_tcount_crcErr]

end

theorem State.tgetb_after (s u : State) (pg : Nat) (T : Tab) (e : Nat) (f : TField) : (s.after u).tgetb pg T e f = u.tgetb pg T e f := rfl
theorem State.tget_fresh (s : State) (pg : Nat) (T : Tab) (e : Nat) (f : TField) : s.fresh.tget pg T e f = s.tget pg T e f := rfl

/-- Settles O35, each clause by what a stamp heard by the context does: `StampHeard.locks_of_third`, `StampHeard.unlocks_of_badCrc`,
`StampHeard.endsRun_of_badCrc`. -/
theorem alignmentStamp : Obligations.AlignmentStamp := by
  unfold Obligations.AlignmentStamp
  refine ⟨fun s B e g count hRun hB hValid hEn hData hFrame hSsf hFmt hCount hCrc hLock hStRun hStNext =>
      ⟨_, run_eq_next (fun s => s.stampInstance B e g) hRun, ?_⟩,
    fun s B e g count hRun hB hValid hEn hData hFrame hSsf hFmt hCount hCrc hLock hBad =>
      ⟨_, run_eq_next (fun s => s.stampInstance B e g) hRun, ?_⟩,
    fun s B e g count hRun hB hValid hEn hData hFrame hSsf hFmt hCount hCrc hLock =>
      ⟨_, run_eq_next (fun s => s.stampInstance B e g) hRun, ?_⟩⟩ <;>
  have hHeard : StampHeard s.fresh B e g count := ⟨hValid, hEn, hData, hFrame, hSsf, hFmt, hCount⟩
  · rw [State.tgetb_after, State.tget_after, State.hasEvt_after, State.ctx_after]
    exact hHeard.locks_of_third hB hCrc hLock hStRun hStNext
  · rw [State.tgetb_after, State.tget_after, State.hasEvt_after, ← State.tget_fresh s]
    exact hHeard.unlocks_of_badCrc hB hCrc hLock hBad
  · rw [State.tgetb_after, State.tget_after, State.ctx_after, ← State.tget_fresh s]
    exact hHeard.endsRun_of_badCrc hCrc hLock

end Sys2Proof.Machine

namespace Sys2Proof.Machine

open Sys2Proof

set_option Elab.async false

/-! ### Rows that a client's data never writes (file 08, R280; file 07, R231)

What leaves stage 3 of a wings group feeds clients, whose defects reach points, contexts and episode trackers. All of these write on pages
of their own, so the rows of the wings and of the selectors keep what they hold. -/

/-- The pages that a client's data may write: trackers, ingress contexts, points and the clients' own. -/
inductive ClientPage : Nat → Prop where
  | epi (r : Nat) : ClientPage (pgEpi r)
  | odi (B : Nat) : ClientPage (pgOdi B)
  | mpt (B : Nat) : ClientPage (pgMpt B)
  | cli (B d : Nat) : ClientPage (pgCli B d)

/-- A table on another page. -/
structure FarRow (pg : Nat) (T : Tab) : Prop where
  page : ∀ {pg'}, ClientPage pg' → pg ≠ pg'
  code : T.code < 256

theorem clientPage_ne_pgWng {pg : Nat} (h : ClientPage pg) : pgWng ≠ pg := by
  cases h with
  | epi r => unfold pgWng pgEpi rgnPg; omega
  | odi B => unfold pgWng pgOdi blkPg; omega
  | mpt B => unfold pgWng pgMpt blkPg; omega
  | cli B d => unfold pgWng pgCli pgDmp pgMap blkPg; split <;> omega

theorem farRow_wings {T : Tab} (hCode : T.code < 256) : FarRow pgWng T := ⟨clientPage_ne_pgWng, hCode⟩

theorem farRow_group (G : Nat) : FarRow (grpPage G) (grpStat G) := by
  obtain ⟨hPage, hCode⟩ := groupTab_grpStat G
  refine ⟨fun hClient => ?_, hCode⟩
  cases hClient with
  | epi r => exact hPage.ne_pgEpi r
  | odi B => exact hPage.ne_pgOdi B
  | mpt B => exact hPage.ne_pgMpt B
  | cli B d => exact hPage.ne_pgCli B d

theorem State.entry_ite (c : Prop) [Decidable c] (a b : State) (pg : Nat) (T : Tab) (e : Nat) :
    (if c then a else b).entry pg T e = if c then a.entry pg T e else b.entry pg T e := apply_ite (State.entry · pg T e) c a b

section
variable {pg e : Nat} {T : Tab} (h : FarRow pg T)
include h

theorem FarRow.setEntry (s : State) {pg' : Nat} (hp : ClientPage pg') {T' : Tab} (hT' : T'.code < 256) (e' v : Nat) :
    (s.setEntry pg' T' e' v).entry pg T e = s.entry pg T e :=
  s.entry_setEntry_page _ _ _ (h.page hp) h.code hT'

theorem FarRow.tput (s : State) {pg' : Nat} (hp : ClientPage pg') {T' : Tab} (hT' : T'.code < 256) (e' : Nat) (f : TField) (v : Nat) :
    (s.tput pg' T' e' f v).entry pg T e = s.entry pg T e := h.setEntry s hp hT' _ _

theorem FarRow.tputb (s : State) {pg' : Nat} (hp : ClientPage pg') {T' : Tab} (hT' : T'.code < 256) (e' : Nat) (f : TField) (b : Bool) :
    (s.tputb pg' T' e' f b).entry pg T e = s.entry pg T e := h.setEntry s hp hT' _ _

theorem FarRow.tcount (s : State) {pg' : Nat} (hp : ClientPage pg') {T' : Tab} (hT' : T'.code < 256) (e' : Nat) (f : TField) (n : Nat) :
    (s.tcount pg' T' e' f n).entry pg T e = s.entry pg T e := by
  rw [State.tcount, h.tput s hp hT']

theorem FarRow.epiOpen (s : State) (r : Nat) (c : EpiChange) (t : Stamp) (late : Bool) :
    (s.epiOpen r c t late).entry pg T e = s.entry pg T e := by
  unfold State.epiOpen
  dsimp only
  rw [State.entry_wr, State.entry_wr, h.setEntry s (.epi r) (by decide)]

theorem FarRow.epiClose (s : State) (r k : Nat) (t : Stamp) (deconf : Bool) :
    (s.epiClose r k t deconf).entry pg T e = s.entry pg T e := by
  unfold State.epiClose
  dsimp only
  rw [State.entry_wr, h.setEntry _ (.epi r) (by decide), State.entry_logRec]

theorem FarRow.epiApply (s : State) (r : Nat) (c : EpiChange) : (s.epiApply r c).entry pg T e = s.entry pg T e := by
  have hCount := fun u => h.tcount (e := e) u (.epi r) (T' := T_EPI_AGG) (by decide)
  have hPut := fun u => h.tput (e := e) u (.epi r) (T' := T_EPI_AGG) (by decide)
  have hLooseOn (u : State) : (u.epiLooseOn r c).entry pg T e = u.entry pg T e := by
    rw [State.epiLooseOn, State.entry_epi, hCount, hCount]
  have hLooseOff (u : State) : (u.epiLooseOff r c).entry pg T e = u.entry pg T e := by
    rw [State.epiLooseOff, State.entry_epi, hCount, hPut]
  unfold State.epiApply
  extract_lets pg' isLoose moved applied
  have hMoved (u : State) : (moved u).entry pg T e = u.entry pg T e := State.entry_alarmMoved ..
  rw [State.entry_epiShow]
  unfold applied
  cases s.epiFind r c <;>
    simp only [State.entry_ite, hMoved, State.entry_ev, h.epiOpen, h.epiClose, hLooseOn, hLooseOff, State.entry_epiAggOn, ite_self]

theorem FarRow.epiPush (s : State) (r : Nat) (point : Bool) (src kind : Nat) (on deconf : Bool) :
    (s.epiPush r point src kind on deconf).entry pg T e = s.entry pg T e := by
  simp only [State.epiPush, State.entry_ite, State.entry_epi, h.epiApply, State.entry_epiAggOn, ite_self]

theorem FarRow.pointDef (s : State) (B dir m e' b : Nat) (on deconf : Bool) :
    (s.pointDef B dir m e' b on deconf).entry pg T e = s.entry pg T e := by
  simp only [State.pointDef, State.entry_ite, h.epiPush, State.entry_evWhen, State.entry_pointSeen, State.entry_ev,
    h.tputb _ (.mpt B) (T' := T_MP_STATUS) (by decide), ite_self]

theorem FarRow.refreshPoint (s : State) (B dir m e' : Nat) (ssf plm : Bool) :
    (s.refreshPoint B dir m e' ssf plm).entry pg T e = s.entry pg T e := by
  have hPut := fun u => h.tputb (e := e) u (.mpt B) (T' := T_MP_STATUS) (by decide)
  unfold State.refreshPoint
  extract_lets pg' shown quiet silent tsf tsd changed moved
  have hQuiet : quiet.entry pg T e = shown.entry pg T e := by simp only [quiet, h.pointDef]
  have hSilent : silent.entry pg T e = shown.entry pg T e := by
    unfold silent
    split
    · exact hQuiet
    · rfl
  rw [State.entry_evWhen, State.entry_pointSeen, hPut, hPut, hSilent, hPut]

theorem FarRow.setRepl (s : State) (B d e' : Nat) (on : Bool) : (s.setRepl B d e' on).entry pg T e = s.entry pg T e := by
  simp only [State.setRepl, State.entry_ite, State.entry_ev, h.tputb _ (.cli B d) (T' := T_CLI_STATUS) (by decide),
    h.tcount _ (.cli B d) (T' := T_CLI_CNT) (by decide), ite_self]

theorem FarRow.refreshCliIn (s : State) (B e' : Nat) : (s.refreshCliIn B e').entry pg T e = s.entry pg T e := by
  simp only [State.refreshCliIn, State.entry_ite, h.setRepl, ite_self]

theorem FarRow.stampUnlock (s : State) (B e' : Nat) : (s.stampUnlock B e').entry pg T e = s.entry pg T e := by
  simp only [State.stampUnlock, State.entry_ite, State.entry_ev, h.tputb _ (.odi B) (T' := T_STAMP_RX) (by decide), State.entry_setCtx,
    ite_self]

theorem FarRow.refreshCtx (s : State) (B e' : Nat) : (s.refreshCtx B e').entry pg T e = s.entry pg T e := by
  have hStatus := fun u => h.tput (e := e) u (.odi B) (T' := T_CTX_STATUS) (by decide)
  have hStatusB := fun u => h.tputb (e := e) u (.odi B) (T' := T_CTX_STATUS) (by decide)
  unfold State.refreshCtx
  extract_lets ssf fill marked inShown shown pts judged bare sf sfOld outShown leg legOld legShown worst fed unlocked seen
  have hBare : bare.entry pg T e = shown.entry pg T e :=
    (State.entry_each _ _ fun u k => (State.entry_pointSeen ..).trans (h.tputb u (.mpt B) (by decide) ..)).trans
      (State.entry_each _ _ fun u p => h.refreshPoint u ..)
  have hUnlocked : unlocked.entry pg T e = fed.entry pg T e := by
    unfold unlocked
    split
    · exact h.stampUnlock ..
    · rfl
  rw [State.entry_each _ _ fun u m => State.entry_pointSeen .., hUnlocked, h.refreshCliIn, State.entry_setCtx, State.entry_evWhen,
    hStatus, State.entry_evWhen, hStatusB, hBare, hStatusB, hStatusB, State.entry_setCtx]

theorem FarRow.cliDef (s : State) (c : CliRef) (kind : Nat) (on deconf : Bool) :
    (s.cliDef c kind on deconf).entry pg T e = s.entry pg T e := by
  unfold State.cliDef
  cases c with
  | ctx B d e' =>
    have hCtxs (u : State) : (u.refreshCtxs B).entry pg T e = u.entry pg T e := State.entry_each _ _ fun u k => h.refreshCtx u B k
    simp only [State.entry_ite, hCtxs, h.epiPush, State.entry_ev, h.tputb _ (.cli B d) (T' := T_CLI_STATUS) (by decide), ite_self]
  | line n =>
    cases ethField kind with
    | none => rfl
    | some x => simp only [State.entry_ite, State.entry_refreshEth, h.epiPush, State.entry_ev, State.wrb, State.entry_wr, ite_self]

theorem FarRow.judgeFill (s : State) (c : CliRef) : (s.judgeFill c).entry pg T e = s.entry pg T e := by
  simp only [State.judgeFill, State.entry_ite, h.cliDef, ite_self]

theorem FarRow.impTake (s : State) (c : CliRef) (b : B66) : (s.impTake c b).entry pg T e = s.entry pg T e := by
  have hDel (u : State) : (u.countDel c).entry pg T e = u.entry pg T e := by
    cases c with
    | ctx B d e' => exact h.tcount u (.cli B d) (by decide) ..
    | line n => exact State.entry_wr ..
  have hDrop (u : State) : (u.countDrop c).entry pg T e = u.entry pg T e := by
    cases c with
    | ctx B d e' => exact h.tcount u (.cli B d) (by decide) ..
    | line n => exact State.entry_wr ..
  simp only [State.impTake, h.judgeFill, State.entry_setCli, State.entry_ite, hDel, hDrop, ite_self]

theorem FarRow.clientIn (s : State) (c : CliRef) (blks : List B66) (bytes : List Nat) :
    (s.clientIn c blks bytes).entry pg T e = s.entry pg T e := by
  have hLevel (u : State) : (u.showLevel c).entry pg T e = u.entry pg T e := by
    cases c with
    | ctx B d e' => exact h.tput u (.cli B d) (by decide) ..
    | line n => rfl
  have hTaken (u : State) : (u.each blks (fun s b => s.impTake c b)).entry pg T e = u.entry pg T e :=
    State.entry_each _ _ fun u b => h.impTake u c b
  simp only [State.clientIn, State.entry_ite, h.judgeFill, hLevel, hTaken, State.entry_setCli, ite_self]

theorem FarRow.clientGap (s : State) (c : CliRef) (n : Nat) : (s.clientGap c n).entry pg T e = s.entry pg T e := by
  simp only [State.clientGap, State.entry_ite, h.clientIn, State.entry_setCli, ite_self]

theorem FarRow.feed (s : State) (r : Nat) (group : Bool) (i kind client snap : Nat) (payload : List Byte) :
    (s.feed r group i kind client snap payload).entry pg T e = s.entry pg T e :=
  (State.entry_each _ _ fun _ _ => h.clientIn ..).trans
    (State.entry_each _ _ fun _ _ => (h.clientIn ..).trans (State.entry_setCli ..))

/-- A lost segment of kind 0 counts no lost units (R333). -/
theorem FarRow.feedGap (s : State) (r : Nat) (group : Bool) (i client : Nat) (short : Bool) :
    (s.feedGap r group i 0 client short).entry pg T e = s.entry pg T e :=
  (State.entry_each _ _ fun _ _ => h.clientGap ..).trans (State.entry_each _ _ fun _ _ => h.clientGap ..)

end


/-! ### What leaves the groups as they are (file 08, Table WNG-3) -/

/-- The group records, the rows in effect, the groups' status and counts, and what the selectors show are the same. -/
structure WingsSame (s t : State) : Prop where
  wgrps : t.wgrps = s.wgrps
  live : t.live = s.live
  status : ∀ w, t.entry pgWng T_WGRP_STATUS w = s.entry pgWng T_WGRP_STATUS w
  counts : ∀ w, t.entry pgWng T_WGRP_CNT w = s.entry pgWng T_WGRP_CNT w
  shown : ∀ G, t.entry (grpPage G) (grpStat G) (grpIndex G) = s.entry (grpPage G) (grpStat G) (grpIndex G)

theorem WingsSame.refl (s : State) : WingsSame s s := ⟨rfl, rfl, fun _ => rfl, fun _ => rfl, fun _ => rfl⟩

theorem WingsSame.trans {s t u : State} (h : WingsSame s t) (k : WingsSame t u) : WingsSame s u :=
  ⟨k.wgrps.trans h.wgrps, k.live.trans h.live, fun w => (k.status w).trans (h.status w), fun w => (k.counts w).trans (h.counts w),
    fun G => (k.shown G).trans (h.shown G)⟩

theorem grpStat_code (G : Nat) : (grpStat G).code = 2 ∨ (grpStat G).code = 3 := by
  unfold grpStat
  split
  · exact .inr rfl
  · exact .inl rfl

/-- An operation whose mask holds neither the groups, nor the rows in effect, nor a table of code 2 or 3. -/
theorem Fr.wingsSame {M : Nat} {s t : State} (h : Fr M s t) (hGroups : M.testBit 48 = false) (hLive : M.testBit 31 = false)
    (hStatus : M.testBit 130 = false) (hCounts : M.testBit 131 = false) : WingsSame s t := by
  refine ⟨h.wgrps hGroups, h.live hLive, fun w => h.entry _ _ _ hStatus, fun w => h.entry _ _ _ hCounts, fun G => h.entry _ _ _ ?_⟩
  obtain hCode | hCode := grpStat_code G <;> rw [hCode]
  · exact hStatus
  · exact hCounts

theorem wingsSame_wgPlay (s : State) (w : Nat) (x : Option (Nat × List Byte)) : WingsSame s (s.wgPlay w x) := by
  have hFr := State.wgPlay_fr s w x (MaskLe.refl _) (fr_refl fm_wgPlay s)
  have hFar {pg : Nat} {T : Tab} {e : Nat} (h : FarRow pg T) : (s.wgPlay w x).entry pg T e = s.entry pg T e := by
    unfold State.wgPlay
    split
    · exact h.feed ..
    · exact h.feedGap ..
    · rfl
  exact ⟨hFr.wgrps (by decide +kernel), hFr.live (by decide +kernel), fun w => hFar (farRow_wings (by decide)),
    fun w => hFar (farRow_wings (by decide)), fun G => hFar (farRow_group G)⟩

theorem wingsSame_each {α : Type} (s : State) (l : List α) {f : State → α → State} (h : ∀ s x, WingsSame s (f s x)) :
    WingsSame s (s.each l f) := by
  induction l generalizing s with
  | nil => exact .refl s
  | cons x l ih => exact (h s x).trans (ih _)

theorem wingsSame_ev (s : State) (pg k : Nat) : WingsSame s (s.ev pg k) :=
  (State.ev_fr s pg k (MaskLe.refl _) (fr_refl fm_ev s)).wingsSame (by decide +kernel) (by decide +kernel) (by decide +kernel)
    (by decide +kernel)

theorem wingsSame_evWhen (s : State) (c : Bool) (pg k : Nat) : WingsSame s (s.evWhen c pg k) :=
  (State.evWhen_fr s c pg k (MaskLe.refl _) (fr_refl fm_evWhen s)).wingsSame (by decide +kernel) (by decide +kernel) (by decide +kernel)
    (by decide +kernel)

theorem wingsSame_wfail (s : State) (w cause : Nat) (keys : Option (Nat × Nat)) : WingsSame s (s.wfail w cause keys) :=
  (State.wfail_fr s w cause keys (MaskLe.refl _) (fr_refl fm_wfail s)).wingsSame (by decide +kernel) (by decide +kernel)
    (by decide +kernel) (by decide +kernel)

theorem wingsSame_divFree (s : State) (a : Int) (b : Nat) : WingsSame s (s.divFree a b).2 :=
  (State.divFree_fr s a b (MaskLe.refl _) (fr_refl fm_divFree s)).wingsSame (by decide +kernel) (by decide +kernel) (by decide +kernel)
    (by decide +kernel)

theorem wingsSame_showSlots (s : State) : WingsSame s s.showSlots :=
  (State.showSlots_fr s (MaskLe.refl _) (fr_refl fm_showSlots s)).wingsSame (by decide +kernel) (by decide +kernel) (by decide +kernel)
    (by decide +kernel)

theorem wingsSame_hbmRead (s : State) (w K : Nat) (u : HbmUse) : WingsSame s (s.hbmRead w K u) :=
  (State.hbmRead_fr s w K u (MaskLe.refl _) (fr_refl fm_hbmRead s)).wingsSame (by decide +kernel) (by decide +kernel) (by decide +kernel)
    (by decide +kernel)

theorem wingsSame_hbmErrors (s : State) (k : Nat) (u : HbmUse) : WingsSame s (s.hbmErrors k u) :=
  (State.hbmErrors_fr s k u (MaskLe.refl _) (fr_refl fm_hbmErrors s)).wingsSame (by decide +kernel) (by decide +kernel)
    (by decide +kernel) (by decide +kernel)

theorem wingsSame_slotQ (s : State) (q : List Nat) : WingsSame s { s with slotQ := q } :=
  ⟨rfl, rfl, fun _ => rfl, fun _ => rfl, fun _ => rfl⟩

/-! ### What keeps a group's side (file 08, R280) -/

/-- What decides whether group w plays its early leg is the same, and a group past ACQUIRE is still past it. -/
structure SameSide (w : Nat) (s t : State) : Prop where
  live : t.live = s.live
  grp : (t.wg w).grp = (s.wg w).grp
  shown : ∀ G, t.entry (grpPage G) (grpStat G) (grpIndex G) = s.entry (grpPage G) (grpStat G) (grpIndex G)
  early : t.wgEarly w = s.wgEarly w
  past : s.wgState w ≠ wgAcquire → t.wgState w ≠ wgAcquire

/-- Besides, group w keeps its samples and its count of missing data, and its playout point while it plays its early leg. -/
structure Plays (w : Nat) (s t : State) : Prop extends SameSide w s t where
  misses : t.tget pgWng T_WGRP_CNT w WGRP_CNT.rd_miss = s.tget pgWng T_WGRP_CNT w WGRP_CNT.rd_miss
  samples : (t.wg w).samples = (s.wg w).samples
  nSamples : (t.wg w).nSamples = (s.wg w).nSamples
  playout : s.wgSelected w = s.wgEarly w → (t.wg w).playout = (s.wg w).playout

section
variable {w : Nat} {s0 s t u : State}

theorem WingsSame.wg (h : WingsSame s t) (w : Nat) : t.wg w = s.wg w := by unfold State.wg; rw [h.wgrps]

theorem WingsSame.wgSt (h : WingsSame s t) (w : Nat) (f : TField) : t.wgSt w f = s.wgSt w f := by
  unfold State.wgSt State.tget
  rw [h.status]

theorem WingsSame.tgetCount (h : WingsSame s t) (w : Nat) (f : TField) : t.tget pgWng T_WGRP_CNT w f = s.tget pgWng T_WGRP_CNT w f := by
  unfold State.tget
  rw [h.counts]

theorem WingsSame.sameSide (h : WingsSame s t) : SameSide w s t :=
  ⟨h.live, by rw [h.wg], h.shown, h.wgSt _ _, by unfold State.wgState; rw [h.wgSt]; exact id⟩

theorem WingsSame.plays (h : WingsSame s t) : Plays w s t where
  toSameSide := h.sameSide
  misses := h.tgetCount _ _
  samples := by rw [h.wg]
  nSamples := by rw [h.wg]
  playout := fun _ => by rw [h.wg]

theorem SameSide.selected (h : SameSide w s t) : t.wgSelected w = s.wgSelected w := by
  have hGroup : t.wgGroup w = s.wgGroup w := by unfold State.wgGroup State.effRows; rw [h.live]
  have hFor : t.wgFor w = s.wgFor w := by unfold State.wgFor; rw [h.grp, hGroup]
  unfold State.wgSelected
  rw [hFor]
  cases s.wgFor w with
  | none => rfl
  | some G => exact congrArg (fun x => getBits x GRP_STATUS.sel.hi GRP_STATUS.sel.lo) (h.shown G)

theorem SameSide.wgF (h : SameSide w s t) (v : Nat) (f : TField) : t.wgF v f = s.wgF v f := by
  unfold State.wgF State.effF State.eff
  rw [h.live]
  rfl

theorem SameSide.trans (h : SameSide w s t) (k : SameSide w t u) : SameSide w s u :=
  ⟨k.live.trans h.live, k.grp.trans h.grp, fun G => (k.shown G).trans (h.shown G), k.early.trans h.early, fun hs => k.past (h.past hs)⟩

theorem Plays.refl (w : Nat) (s : State) : Plays w s s := (WingsSame.refl s).plays

theorem Plays.trans (h : Plays w s t) (k : Plays w t u) : Plays w s u where
  toSameSide := h.toSameSide.trans k.toSameSide
  misses := k.misses.trans h.misses
  samples := k.samples.trans h.samples
  nSamples := k.nSamples.trans h.nSamples
  playout := fun hs => (k.playout (by rw [h.selected, h.early, hs])).trans (h.playout hs)

theorem Plays.same (h : Plays w s0 s) (k : WingsSame s t) : Plays w s0 t := h.trans k.plays

theorem Plays.ite {c : Prop} [Decidable c] {a b : State} (ha : Plays w s0 a) (hb : Plays w s0 b) : Plays w s0 (if c then a else b) := by
  split
  · exact ha
  · exact hb

theorem plays_each {α : Type} (s : State) (l : List α) {f : State → α → State} (h : ∀ s x, Plays w s (f s x)) : Plays w s (s.each l f) := by
  induction l generalizing s with
  | nil => exact .refl w s
  | cons x l ih => exact (h s x).trans (ih _)

/-! ### Puts into the groups' rows and records -/

theorem State.wg_setWg_same (s : State) (v : Nat) (f : Wgrp → Wgrp) : (s.setWg v f).wg v = f (s.wg v) := SMap.get_upd_same ..

theorem State.wg_setWg_ne (s : State) {v w : Nat} (f : Wgrp → Wgrp) (h : w ≠ v) : (s.setWg v f).wg w = s.wg w := SMap.get_upd_ne _ _ _ _ h

/-- A record's change that keeps the group it is for, and its samples; `hPlay` says when the playout point may move. -/
theorem plays_setWg {v : Nat} {f : Wgrp → Wgrp} (hKept : ∀ x, (f x).grp = x.grp ∧ (f x).samples = x.samples ∧ (f x).nSamples = x.nSamples)
    (hPlay : v = w → s.wgSelected w = s.wgEarly w → (f (s.wg w)).playout = (s.wg w).playout) : Plays w s (s.setWg v f) := by
  by_cases hv : v = w
  · subst hv
    obtain ⟨hGrp, hSamples, hCount⟩ := hKept (s.wg v)
    have hWg := s.wg_setWg_same v f
    exact ⟨⟨rfl, by rw [hWg, hGrp], fun _ => rfl, rfl, id⟩, rfl, by rw [hWg, hSamples], by rw [hWg, hCount],
      fun hs => by rw [hWg, hPlay rfl hs]⟩
  · have hWg := s.wg_setWg_ne f (Ne.symm hv)
    exact ⟨⟨rfl, by rw [hWg], fun _ => rfl, rfl, id⟩, rfl, by rw [hWg], by rw [hWg], fun _ => by rw [hWg]⟩

theorem sameSide_wgCount (s : State) (v : Nat) (f : TField) : SameSide w s (s.wgCount v f) := by
  have hStatus (g : TField) : (s.wgCount v f).wgSt w g = s.wgSt w g := State.tget_tput_tab _ _ _ _ _ _ _ _ _ _ (by decide)
  exact ⟨rfl, rfl, fun G => s.entry_tput_page _ _ _ _ (groupPage_grpPage G).ne_pgWng (groupTab_grpStat G).code (by decide), hStatus _,
    by unfold State.wgState; rw [hStatus]; exact id⟩

theorem plays_wgCount {v : Nat} {f : TField} (hf : f.lo ≤ f.hi) (hApart : f.hi < WGRP_CNT.rd_miss.lo ∨ WGRP_CNT.rd_miss.hi < f.lo) :
    Plays w s (s.wgCount v f) where
  toSameSide := sameSide_wgCount s v f
  misses := State.tget_tput_apart _ _ _ _ _ _ rfl hf (by decide) (by decide) hApart
  samples := rfl
  nSamples := rfl
  playout := fun _ => rfl

/-- A put into a status row, but of the early leg or of ACQUIRE. -/
theorem plays_wgPut {v x : Nat} {f : TField} (hf : f.lo ≤ f.hi) (hEarly : f.hi < WGRP_STATUS.early.lo ∨ WGRP_STATUS.early.hi < f.lo)
    (hPast : s.wgState w ≠ wgAcquire → (s.wgPut v f x).wgState w ≠ wgAcquire) : Plays w s (s.wgPut v f x) where
  live := rfl
  grp := rfl
  shown := fun G => s.entry_tput_page _ _ _ _ (groupPage_grpPage G).ne_pgWng (groupTab_grpStat G).code (by decide)
  early := State.tget_tput_apart _ _ _ _ _ _ rfl hf (by decide) (by decide) hEarly
  past := hPast
  misses := State.tget_tput_tab _ _ _ _ _ _ _ _ _ _ (by decide)
  samples := rfl
  nSamples := rfl
  playout := fun _ => rfl

/-- A put of a field behind the early leg's. -/
theorem plays_wgPut_high {v x : Nat} {f : TField} (hf : f.lo ≤ f.hi) (hHigh : 3 < f.lo) : Plays w s (s.wgPut v f x) := by
  refine plays_wgPut hf (.inr hHigh) fun hs => ?_
  have hState : (s.wgPut v f x).wgState w = s.wgState w :=
    State.tget_tput_apart _ _ _ _ _ _ rfl hf (by decide) (by decide) (.inr (Nat.lt_trans (by decide) hHigh))
  rwa [hState]

/-- A new state other than ACQUIRE. -/
theorem plays_wgPut_state {v st : Nat} (hst : st % 8 ≠ wgAcquire) : Plays w s (s.wgPut v WGRP_STATUS.state st) := by
  refine plays_wgPut (by decide) (by decide) fun hs => ?_
  by_cases hKey : tkey pgWng T_WGRP_STATUS w = tkey pgWng T_WGRP_STATUS v
  · have hSame (t : State) : t.wgState w = t.tget pgWng T_WGRP_STATUS v WGRP_STATUS.state :=
      congrArg (fun x => getBits x WGRP_STATUS.state.hi WGRP_STATUS.state.lo) (State.entry_of_key rfl hKey t)
    rw [hSame, State.wgPut, State.tget_tput_width (n := 3) (by decide) _ _ _ _ _ (by decide) (by decide)]
    exact hst
  · have hOther : (s.wgPut v WGRP_STATUS.state st).wgState w = s.wgState w := by
      unfold State.wgState State.wgSt State.wgPut State.tget State.tput
      rw [State.entry_setEntry_key _ _ _ _ _ _ _ _ hKey]
    rwa [hOther]

/-! ### A group changes state -/

theorem plays_flushStaged (s : State) (v : Nat) : Plays w s (s.flushStaged v) := by
  unfold State.flushStaged
  extract_lets x sel l out
  split
  · exact .refl w s
  next hNotEarly =>
    have hOut : WingsSame s out := wingsSame_each _ _ fun u e => wingsSame_wgPlay u v _
    split
    · refine hOut.plays.trans (plays_setWg (fun _ => ⟨rfl, rfl, rfl⟩) fun hv hs => absurd ?_ hNotEarly)
      subst hv
      rw [hOut.sameSide.selected, hOut.sameSide.early] at hs
      exact hs
    · exact hOut.plays

theorem plays_unqueue (s : State) (v : Nat) : Plays w s (s.unqueue v) := by
  unfold State.unqueue
  exact (wingsSame_slotQ s _).plays.trans (plays_wgPut_high (f := WGRP_STATUS.queued) (by decide) (by decide))

/-- A group that enters another state than ACQUIRE plays on. -/
theorem plays_wgEnter (s : State) (v : Nat) {st : Nat} (hSt : st % 8 ≠ wgAcquire) : Plays w s (s.wgEnter v st) := by
  have hCount {f : TField} (t : State) (hf : f.lo ≤ f.hi) (hApart : f.hi < WGRP_CNT.rd_miss.lo ∨ WGRP_CNT.rd_miss.hi < f.lo) :
    Plays w t (t.wgCount v f) := plays_wgCount hf hApart
  unfold State.wgEnter
  extract_lets old inPlay ring flushed entered moved left counted shown
  split
  · exact .refl w s
  have hFlushed : Plays w s flushed := .ite (plays_flushStaged s v) (.refl w s)
  have hMoved : Plays w s moved :=
    ((hFlushed.trans (plays_wgPut_state hSt)).same (wingsSame_ev ..)).same (wingsSame_evWhen ..)
  have hLeft : Plays w s left := .ite (hMoved.trans (plays_unqueue moved v)) hMoved
  have hCounted : Plays w s counted := by
    refine hLeft.trans ?_
    unfold counted
    rw [if_neg (fun h => hSt (by rw [h]; rfl))]
    refine .ite (hCount (f := WGRP_CNT.swaps) _ (by decide) (by decide)) (.ite ?_ (.ite ?_
      (.ite (hCount (f := WGRP_CNT.fallbacks) _ (by decide) (by decide)) (.refl w left))))
    · have hQueued := (wingsSame_slotQ left (left.slotQ ++ [v])).plays.trans
        (hCount (f := WGRP_CNT.swap_queued) { left with slotQ := left.slotQ ++ [v] } (by decide) (by decide))
      exact (hQueued.trans (plays_wgPut_high (f := WGRP_STATUS.queued) (by decide) (by decide))).trans
        (plays_setWg (fun _ => ⟨rfl, rfl, rfl⟩) fun _ _ => rfl)
    · exact (hCount (f := WGRP_CNT.over) _ (by decide) (by decide)).same (wingsSame_ev ..)
  have hShown : Plays w s shown := .ite hCounted (hCounted.trans (plays_wgPut_high (f := WGRP_STATUS.covered) (by decide) (by decide)))
  exact hShown.same (wingsSame_showSlots shown)

theorem plays_slotAnswer (s : State) (v : Nat) : Plays w s (s.slotAnswer v) := by
  have hAsked : Plays w s (s.setWg v (fun x => { x with ask := false })) := plays_setWg (fun _ => ⟨rfl, rfl, rfl⟩) fun _ _ => rfl
  unfold State.slotAnswer
  exact .ite hAsked (.ite (hAsked.trans (plays_wgEnter _ v (by decide))) (hAsked.trans (plays_wgEnter _ v (by decide))))

theorem plays_wingsSettle (s : State) : Plays w s s.wingsSettle := by
  unfold State.wingsSettle
  exact .ite (.refl w s) (plays_each s _ plays_slotAnswer)

theorem plays_wgGoOver (s : State) (v : Nat) : Plays w s (s.wgGoOver v) := by
  have hOver : Plays w s (s.wgEnter v wgOver) := plays_wgEnter s v (by decide)
  unfold State.wgGoOver
  exact .ite (hOver.same (wingsSame_wfail ..)) hOver

theorem plays_askSlot (s : State) (v : Nat) : Plays w s (s.askSlot v) := plays_setWg (fun _ => ⟨rfl, rfl, rfl⟩) fun _ _ => rfl

/-- A group past ACQUIRE plays on whatever its delay and lag make of its state (R285, Table WNG-3). -/
theorem plays_wgJudge (s : State) (v : Nat) (hPast : s.wgState v ≠ wgAcquire) : Plays w s (s.wgJudge v) := by
  have hRole : Plays w s (s.setWg v (fun x => { x with wrRole := s.wgEarly v })) := plays_setWg (fun _ => ⟨rfl, rfl, rfl⟩) fun _ _ => rfl
  unfold State.wgJudge
  dsimp only
  rw [if_neg hPast]
  exact .ite (plays_wgGoOver s v) <| .ite (.ite (plays_wgEnter s v (by decide)) (.refl w s)) <|
    .ite (.ite (plays_askSlot s v) (.refl w s)) <| .ite (.ite (hRole.trans (plays_wgEnter _ v (by decide))) (.refl w s)) (.refl w s)

theorem plays_slewLag (s : State) (v : Nat) : Plays w s (s.slewLag v) := by
  unfold State.slewLag
  extract_lets x rate acc
  split
  · exact .refl w s
  · have hSlewed : Plays w s (s.setWg v (fun x => { x with slewAcc := acc % rate })) := plays_setWg (fun _ => ⟨rfl, rfl, rfl⟩) fun _ _ => rfl
    exact hSlewed.trans (plays_wgPut_high (f := WGRP_STATUS.lag) (by decide) (by decide))

/-- A group without the step form comes back to its middle point by slewing (R285). -/
theorem plays_recentre (s : State) (v : Nat) (hSlew : s.wgF v WGRP_CFG.step = 0) : Plays w s (s.recentre v) := by
  have hSlewed (n : Int) : Plays w s (s.setWg v (fun x => { x with slew := n })) := plays_setWg (fun _ => ⟨rfl, rfl, rfl⟩) fun _ _ => rfl
  unfold State.recentre
  dsimp only
  rw [if_pos hSlew]
  exact .ite (hSlewed _) (.ite (hSlewed _) (.refl w s))

theorem plays_showCovered (s : State) (v : Nat) : Plays w s (s.showCovered v) := by
  have hPut (x : Nat) : Plays w s (s.wgPut v WGRP_STATUS.covered x) := plays_wgPut_high (by decide) (by decide)
  unfold State.showCovered
  split
  · split
    · exact hPut _
    · exact hPut _
  · exact .refl w s

/-! ### A group start on W (R279) -/

/-- What a group keeps of its delay's samples. -/
structure SamplesKept (w : Nat) (s t : State) : Prop where
  samples : (t.wg w).samples = (s.wg w).samples
  nSamples : (t.wg w).nSamples = (s.wg w).nSamples

theorem Plays.samplesKept (h : Plays w s t) : SamplesKept w s t := ⟨h.samples, h.nSamples⟩

theorem SamplesKept.trans (h : SamplesKept w s t) (k : SamplesKept w t u) : SamplesKept w s u :=
  ⟨k.samples.trans h.samples, k.nSamples.trans h.nSamples⟩

theorem samplesKept_wgPut (s : State) (v : Nat) (f : TField) (x : Nat) : SamplesKept w s (s.wgPut v f x) := ⟨rfl, rfl⟩

theorem samplesKept_setWg (s : State) (v : Nat) {f : Wgrp → Wgrp} (hKept : ∀ x, (f x).samples = x.samples ∧ (f x).nSamples = x.nSamples) :
    SamplesKept w s (s.setWg v f) := by
  by_cases hv : w = v
  · subst hv
    exact ⟨by rw [State.wg_setWg_same, (hKept _).1], by rw [State.wg_setWg_same, (hKept _).2]⟩
  · exact ⟨by rw [State.wg_setWg_ne _ _ hv], by rw [State.wg_setWg_ne _ _ hv]⟩

theorem samplesKept_wgEngage (s : State) (w : Nat) : SamplesKept w s (s.wgEngage w) := by
  unfold State.wgEngage
  extract_lets sel late put begun
  have hBegun : SamplesKept w s begun := (samplesKept_wgPut ..).trans (samplesKept_setWg put w fun _ => ⟨rfl, rfl⟩)
  exact (hBegun.trans (plays_wgEnter begun w (by decide)).samplesKept).trans (samplesKept_wgPut ..)

/-- A group in ACQUIRE keeps its samples too, be it engaged or over (R283). -/
theorem samplesKept_wgJudge (s : State) (w : Nat) : SamplesKept w s (s.wgJudge w) := by
  by_cases hPast : s.wgState w = wgAcquire
  · unfold State.wgJudge
    dsimp only
    rw [if_pos hPast]
    split
    · split
      · exact (plays_wgGoOver s w).samplesKept
      · exact samplesKept_wgEngage s w
    · exact ⟨rfl, rfl⟩
  · exact (plays_wgJudge s w hPast).samplesKept

/-- The group start of a group that is in use, not adopted in this DP cycle. -/
structure StartsHere (s : State) (w : Nat) : Prop where
  used : s.wgState w ≠ wgOff
  valid : s.wgF w WGRP_CFG.valid ≠ 0
  notBorn : s.wgBornNow w = false

theorem StartsHere.wingsGroupStart_unseen (h : StartsHere s w) {F : Nat}
    (hKey : (s.wg w).seenP.find? (fun y => decide (y.1 = 239 * (F / 8) % keyMod)) = none) :
    s.wingsGroupStart w 0 F = s.setWg w (fun x => { x with seenW := x.seenW ++ [(239 * (F / 8) % keyMod, s.dpCycle)] }) := by
  unfold State.wingsGroupStart
  rw [if_pos ⟨h.used, h.valid, by rw [h.notBorn]; rfl⟩]
  simp only [if_true, hKey]

/-- A key that P has shown gives a sample, put before the last 15. -/
theorem StartsHere.wingsGroupStart_seen (h : StartsHere s w) {F : Nat} {x : Nat × Nat}
    (hKey : (s.wg w).seenP.find? (fun y => decide (y.1 = 239 * (F / 8) % keyMod)) = some x) :
    ((s.wingsGroupStart w 0 F).wg w).samples = (((x.2 : Int) - s.dpCycle) :: (s.wg w).samples).take 16 ∧
    ((s.wingsGroupStart w 0 F).wg w).nSamples = (s.wg w).nSamples + 1 := by
  obtain ⟨k, t⟩ := x
  unfold State.wingsGroupStart
  rw [if_pos ⟨h.used, h.valid, by rw [h.notBorn]; rfl⟩]
  extract_lets K now y other
  rw [show other.find? (fun e => decide (e.1 = K)) = some (k, t) from hKey]
  dsimp -zeta only
  extract_lets d smp sampled shown early
  have hSampled : (sampled.wg w).samples = smp ∧ (sampled.wg w).nSamples = (s.wg w).nSamples + 1 :=
    ⟨by rw [State.wg_setWg_same], by rw [State.wg_setWg_same]⟩
  have hDelayed : SamplesKept w sampled shown := (wingsSame_divFree ..).plays.samplesKept.trans (samplesKept_wgPut ..)
  have hEarly : SamplesKept w shown early := by
    unfold early
    split
    · exact samplesKept_wgPut ..
    · split
      · exact samplesKept_wgPut ..
      · exact ⟨rfl, rfl⟩
  have hKept := (hDelayed.trans hEarly).trans (samplesKept_wgJudge early w)
  exact ⟨hKept.samples.trans hSampled.1, hKept.nSamples.trans hSampled.2⟩

/-! ### Where no group asks for a slot -/

theorem SMap.filter_upd_of_none {α : Type} [DecidableEq α] {p : Nat × α → Bool} {d : α} {m : SMap α} (k : Nat) (f : α → α)
    (h : m.filter p = []) (hNew : p (k, f (m.get d k)) = false) : (m.upd d k f).filter p = [] := by
  have hRest : (m.erase k).filter p = [] :=
    List.filter_eq_nil_iff.2 fun e he => List.filter_eq_nil_iff.1 h e (List.mem_of_mem_filter he)
  unfold SMap.upd SMap.set
  split
  · exact hRest
  · rw [SMap.filter_insert_of_none _ _ hRest, hNew]
    rfl

theorem noneAsks_wg (hNone : s.wgrps.filter (fun x => x.2.ask) = []) (w : Nat) : (s.wg w).ask = false := by
  obtain hDefault | hMem := SMap.get_eq_or_mem {} s.wgrps w
  · unfold State.wg
    rw [hDefault]
  · exact Bool.eq_false_iff.2 (List.filter_eq_nil_iff.1 hNone _ hMem)

theorem noneAsks_setWg (hNone : s.wgrps.filter (fun x => x.2.ask) = []) (w : Nat) {f : Wgrp → Wgrp} (hAsk : ∀ x, (f x).ask = x.ask) :
    (s.setWg w f).wgrps.filter (fun x => x.2.ask) = [] :=
  SMap.filter_upd_of_none w f hNone ((hAsk _).trans (noneAsks_wg hNone w))

theorem wingsSettle_of_noneAsks (hNone : s.wgrps.filter (fun x => x.2.ask) = []) : s.wingsSettle = s := by
  unfold State.wingsSettle
  rw [hNone]
  exact ite_self s

theorem StartsHere.noted (h : StartsHere s w) {F : Nat}
    (hKey : (s.wg w).seenP.find? (fun y => decide (y.1 = 239 * (F / 8) % keyMod)) = none)
    (hNone : s.wgrps.all (fun y => !y.2.ask) = true) :
    (s.wingsGroupStart w 0 F).wingsSettle =
      s.setWg w (fun x => { x with seenW := x.seenW ++ [(239 * (F / 8) % keyMod, s.dpCycle)] }) := by
  have hQuiet : s.wgrps.filter (fun x => x.2.ask) = [] :=
    List.filter_eq_nil_iff.2 fun y hy => by simpa using List.all_eq_true.1 hNone y hy
  rw [h.wingsGroupStart_unseen hKey]
  exact wingsSettle_of_noneAsks (noneAsks_setWg hQuiet w fun _ => rfl)

/-! ### The playout point of a group that plays its early leg (R280) -/

theorem sameSide_setWg (s : State) (w : Nat) {f : Wgrp → Wgrp} (hGrp : ∀ x, (f x).grp = x.grp) : SameSide w s (s.setWg w f) :=
  ⟨rfl, by rw [State.wg_setWg_same, hGrp], fun _ => rfl, rfl, id⟩

theorem sameSide_wgPass (s : State) (w K : Nat) (e l : Option (Nat × Nat × List Byte)) (lSt : Nat) : SameSide w s (s.wgPass w K e l lSt) :=
  sameSide_setWg s w fun _ => rfl

theorem playout_wgPass (s : State) (w K : Nat) (e l : Option (Nat × Nat × List Byte)) (lSt : Nat) :
    ((s.wgPass w K e l lSt).wg w).playout = some (keyNext K) := by
  unfold State.wgPass
  dsimp only
  rw [State.wg_setWg_same]

theorem tget_setWg (s : State) (w : Nat) (f : Wgrp → Wgrp) (pg : Nat) (T : Tab) (e : Nat) (g : TField) :
    (s.setWg w f).tget pg T e g = s.tget pg T e g := rfl

theorem tget_wgPass (s : State) (w K : Nat) (x l : Option (Nat × Nat × List Byte)) (lSt pg : Nat) (T : Tab) (e : Nat) (g : TField) :
    (s.wgPass w K x l lSt).tget pg T e g = s.tget pg T e g := tget_setWg ..

theorem tget_wgCount_misses (s : State) (w : Nat) : (s.wgCount w WGRP_CNT.rd_miss).tget pgWng T_WGRP_CNT w WGRP_CNT.rd_miss =
    (s.tget pgWng T_WGRP_CNT w WGRP_CNT.rd_miss + 1) % 2 ^ 32 := by
  unfold State.wgCount
  exact State.tget_tcount_width (by decide) _ _ _ _ _ (by decide) (by decide)

/-- The playout point moves on whatever the ring gives, and data missing from the ring counts once. -/
theorem playBoth_early {K : Nat} {use : HbmUse} (hSlew : s.wgF w WGRP_CFG.step = 0) (hSel : s.wgSelected w = s.wgEarly w)
    (hPast : s.wgState w ≠ wgAcquire) :
    SameSide w s (s.playBoth w K use) ∧ ((s.playBoth w K use).wg w).playout = some (keyNext K) ∧
    (((s.hbmRead w K use).hbmErrors (s.wgStack w) use).ringRead w K use = none →
      (s.playBoth w K use).tget pgWng T_WGRP_CNT w WGRP_CNT.rd_miss = (s.tget pgWng T_WGRP_CNT w WGRP_CNT.rd_miss + 1) % 2 ^ 32) := by
  unfold State.playBoth
  extract_lets early sel k late come read rd counted missed lOut lSt played lagged
  rw [if_neg (fun h => h.1 hSel)]
  have hRead : WingsSame s read := (wingsSame_hbmRead s w K use).trans (wingsSame_hbmErrors ..)
  have hCounted : SameSide w read counted := sameSide_wgCount ..
  have hMissed : SameSide w read missed ∧
      (rd = none → missed.tget pgWng T_WGRP_CNT w WGRP_CNT.rd_miss = counted.tget pgWng T_WGRP_CNT w WGRP_CNT.rd_miss) := by
    unfold missed
    cases rd with
    | some x => exact ⟨(WingsSame.refl read).sameSide, nofun⟩
    | none =>
      dsimp only
      split
      · exact ⟨hCounted, fun _ => rfl⟩
      · exact ⟨hCounted.trans (sameSide_setWg counted w fun _ => rfl), fun _ => tget_setWg ..⟩
  have hPassed := hRead.sameSide.trans (hMissed.1.trans (sameSide_wgPass missed w K rd lOut lSt))
  have hLagged : Plays w played lagged := by
    unfold lagged
    cases late with
    | some e => exact (wingsSame_divFree ..).plays.trans (plays_wgPut_high (f := WGRP_STATUS.lag) (by decide) (by decide))
    | none => exact plays_slewLag played w
  have hBefore : Plays w (missed.wgPass w K rd lOut lSt) lagged := (wingsSame_wgPlay ..).plays.trans hLagged
  have hCentred : Plays w (missed.wgPass w K rd lOut lSt) ((lagged.recentre w).showCovered w) :=
    (hBefore.trans (plays_recentre lagged w (by rw [(hPassed.trans hBefore.toSameSide).wgF, hSlew]))).trans (plays_showCovered _ w)
  have hEnd := hCentred.trans (plays_wgJudge _ w ((hPassed.trans hCentred.toSameSide).past hPast))
  refine ⟨hPassed.trans hEnd.toSameSide, (hEnd.playout (by rw [hPassed.selected, hPassed.early, hSel])).trans (playout_wgPass ..),
    fun hNone => ?_⟩
  rw [hEnd.misses, tget_wgPass, hMissed.2 hNone, tget_wgCount_misses, hRead.plays.misses]

/-! ### The outputs and the reply of the command before, which no memory use reads -/

theorem State.count_fresh (s : State) (pg : Nat) (f : Field) (n : Nat) : s.fresh.count pg f n = (s.count pg f n).fresh := State.wr_fresh ..

theorem State.hbmDone_fresh (s : State) (n : Nat) : s.fresh.hbmDone n = (s.hbmDone n).fresh := by
  have hWrites (t : State) (l : List HbmWr) : t.fresh.each l State.ringWrite = (t.each l State.ringWrite).fresh :=
    List.foldl_hom State.fresh fun _ _ => rfl
  unfold State.hbmDone
  dsimp only
  rw [← hWrites]
  rfl

theorem State.hbmHeld_fresh (s : State) : s.fresh.hbmHeld = s.hbmHeld.fresh := by
  unfold State.hbmHeld
  rw [State.count_fresh, State.ev_fresh]

theorem State.showTrack_fresh (s : State) : s.fresh.showTrack = s.showTrack.fresh := by
  unfold State.showTrack
  rw [State.wr_fresh, State.wr_fresh]
  rfl

theorem State.hbmRead_fresh (s : State) (w K : Nat) (use : HbmUse) : s.fresh.hbmRead w K use = (s.hbmRead w K use).fresh := by
  unfold State.hbmRead
  rw [State.hbmDone_fresh]
  extract_lets done' h' held' done h held
  have hHeld : held' = held.fresh := by
    unfold held held'
    rw [apply_ite State.fresh, ← State.hbmHeld_fresh]
    rfl
  rw [hHeld, State.showTrack_fresh]

theorem State.hbmErrors_fresh (s : State) (k : Nat) (use : HbmUse) : s.fresh.hbmErrors k use = (s.hbmErrors k use).fresh := by
  unfold State.hbmErrors
  rw [apply_ite State.fresh, apply_ite State.fresh, State.count_fresh, State.count_fresh, State.ev_fresh, State.report_fresh,
    State.report_fresh]

theorem State.ringRead_fresh (s : State) (w K : Nat) (use : HbmUse) : s.fresh.ringRead w K use = s.ringRead w K use := rfl

/-- A group in play moves on to the next key in its turn. -/
theorem playoutAdvance_early {K : Nat} {use : HbmUse} (hLow : 2 ≤ s.wgState w) (hHigh : s.wgState w ≤ 4) (hBorn : s.wgBornNow w = false)
    (hSlew : s.wgF w WGRP_CFG.step = 0) (hSel : s.wgSelected w = s.wgEarly w) (hKey : (s.wg w).playout = some K) :
    (((s.playoutAdvance w use).wingsSettle).wg w).playout = some (keyNext K) ∧
    (((s.hbmRead w K use).hbmErrors (s.wgStack w) use).ringRead w K use = none →
      ((s.playoutAdvance w use).wingsSettle).tget pgWng T_WGRP_CNT w WGRP_CNT.rd_miss =
        (s.tget pgWng T_WGRP_CNT w WGRP_CNT.rd_miss + 1) % 2 ^ 32) := by
  have hTurn : s.playoutAdvance w use = s.playBoth w K use := by
    unfold State.playoutAdvance
    simp only [hKey, hBorn, Bool.false_eq_true, if_false, hLow, hHigh, and_self, if_true]
  have hPast : s.wgState w ≠ wgAcquire := by rw [wgAcquire]; omega
  obtain ⟨hSide, hPlayout, hMisses⟩ := playBoth_early (use := use) hSlew hSel hPast (K := K)
  have hSettled : Plays w (s.playBoth w K use) (s.playBoth w K use).wingsSettle := plays_wingsSettle _
  rw [hTurn]
  exact ⟨(hSettled.playout (by rw [hSide.selected, hSide.early, hSel])).trans hPlayout, fun hNone => hSettled.misses.trans (hMisses hNone)⟩

/-! ### Into ACQUIRE (R282, R294) -/

theorem State.slotQ_showSlots (s : State) : s.showSlots.slotQ = s.slotQ :=
  (State.showSlots_fr s (MaskLe.refl _) (fr_refl fm_showSlots s)).slotQ (by decide +kernel)

theorem State.slotQ_ev (s : State) (pg k : Nat) : (s.ev pg k).slotQ = s.slotQ :=
  (State.ev_fr s pg k (MaskLe.refl _) (fr_refl fm_ev s)).slotQ (by decide +kernel)

theorem State.slotQ_evWhen (s : State) (c : Bool) (pg k : Nat) : (s.evWhen c pg k).slotQ = s.slotQ :=
  (State.evWhen_fr s c pg k (MaskLe.refl _) (fr_refl fm_evWhen s)).slotQ (by decide +kernel)

theorem State.wgSt_wgPut_ne (s : State) (w : Nat) {f g : TField} (x : Nat) (hf : f.lo ≤ f.hi) (hg : g.lo ≤ g.hi)
    (hRow : g.hi < 128 * T_WGRP_STATUS.rows) (hApart : f.hi < g.lo ∨ g.hi < f.lo) : (s.wgPut w f x).wgSt w g = s.wgSt w g :=
  State.tget_tput_ne s _ _ _ f g _ hf hg hRow hApart

theorem State.wgSt_wgPut_same (s : State) (w : Nat) {f : TField} {n : Nat} (x : Nat) (hWidth : f.hi - f.lo + 1 = n) (hf : f.lo ≤ f.hi)
    (hRow : f.hi < 128 * T_WGRP_STATUS.rows) : (s.wgPut w f x).wgSt w f = x % 2 ^ n :=
  State.tget_tput_width hWidth s _ _ _ _ hf hRow

theorem State.wgSt_wgCount (s : State) (v w : Nat) (f g : TField) : (s.wgCount v f).wgSt w g = s.wgSt w g :=
  State.tget_tput_tab _ _ _ _ _ _ _ _ _ _ (by decide)

theorem State.wgSt_setWg (s : State) (v w : Nat) (f : Wgrp → Wgrp) (g : TField) : (s.setWg v f).wgSt w g = s.wgSt w g := rfl

theorem wgSt_unqueue_state (s : State) (w : Nat) : (s.unqueue w).wgSt w WGRP_STATUS.state = s.wgSt w WGRP_STATUS.state := by
  unfold State.unqueue
  rw [State.wgSt_wgPut_ne _ _ _ (by decide) (by decide) (by decide) (by decide)]
  rfl

theorem wgSt_unqueue_queued (s : State) (w : Nat) : (s.unqueue w).wgSt w WGRP_STATUS.queued = 0 := by
  unfold State.unqueue
  rw [State.wgSt_wgPut_same (n := 1) _ _ _ (by decide) (by decide) (by decide), Nat.zero_mod]

theorem State.tget_wgPut_count (s : State) (v w x : Nat) (f g : TField) :
    (s.wgPut v f x).tget pgWng T_WGRP_CNT w g = s.tget pgWng T_WGRP_CNT w g := State.tget_tput_tab _ _ _ _ _ _ _ _ _ _ (by decide)

theorem State.tget_unqueue_count (s : State) (w : Nat) (g : TField) :
    (s.unqueue w).tget pgWng T_WGRP_CNT w g = s.tget pgWng T_WGRP_CNT w g := by
  unfold State.unqueue
  rw [State.tget_wgPut_count]
  rfl

theorem State.slotQ_wgPut (s : State) (w x : Nat) (f : TField) : (s.wgPut w f x).slotQ = s.slotQ := rfl
theorem State.slotQ_wgCount (s : State) (w : Nat) (f : TField) : (s.wgCount w f).slotQ = s.slotQ := rfl
theorem State.slotQ_setWg (s : State) (w : Nat) (f : Wgrp → Wgrp) : (s.setWg w f).slotQ = s.slotQ := rfl
theorem slotQ_unqueue (s : State) (w : Nat) : (s.unqueue w).slotQ = s.slotQ.filter (fun v => decide (v ≠ w)) := rfl

/-- A record whose group starts to acquire: its samples are gone. -/
def Wgrp.reacquiring (x : Wgrp) : Wgrp := { x with nSamples := 0, samples := [], live := false, slew := 0, slewAcc := 0 }

/-- Group w, its new state put and recorded in `moved`, leaves the slot queue if it waits there. -/
def State.acquireLeft (s : State) (w : Nat) (moved : State) : State := if s.wgState w = wgSwapWait then moved.unqueue w else moved

/-- The entry into ACQUIRE of a group that is not in play, step by step. -/
theorem wgEnter_acquire (hOut : ¬(2 ≤ s.wgState w ∧ s.wgState w ≤ 4)) (hNew : s.wgState w ≠ wgAcquire) :
    ∃ moved, WingsSame (s.wgPut w WGRP_STATUS.state wgAcquire) moved ∧ moved.slotQ = s.slotQ ∧ s.wgEnter w wgAcquire =
      ((((s.acquireLeft w moved).wgCount w WGRP_CNT.acquires).setWg w Wgrp.reacquiring).wgPut w WGRP_STATUS.covered 0).showSlots := by
  unfold State.wgEnter
  extract_lets old inPlay ring flushed entered moved left counted shown
  have hFlushed : flushed = s := by
    unfold flushed inPlay old
    rw [decide_eq_false hOut]
    rfl
  have hCounted : counted = (left.wgCount w WGRP_CNT.acquires).setWg w Wgrp.reacquiring := if_pos rfl
  have hShown : shown = counted.wgPut w WGRP_STATUS.covered 0 := if_neg (by decide)
  refine ⟨moved, ?_, ?_, by rw [if_neg hNew, hShown, hCounted]; rfl⟩
  · unfold moved entered
    rw [hFlushed]
    exact (wingsSame_ev ..).trans (wingsSame_evWhen ..)
  · unfold moved entered
    rw [hFlushed, State.slotQ_evWhen, State.slotQ_ev, State.slotQ_wgPut]

/-- What stands of a status field other than covered when the entry into ACQUIRE ends. -/
theorem wgSt_acquireEnd (t : State) (w : Nat) {f : TField} (hf : f.lo ≤ f.hi) (hRow : f.hi < 128 * T_WGRP_STATUS.rows)
    (hApart : WGRP_STATUS.covered.hi < f.lo ∨ f.hi < WGRP_STATUS.covered.lo) :
    ((((t.wgCount w WGRP_CNT.acquires).setWg w Wgrp.reacquiring).wgPut w WGRP_STATUS.covered 0).showSlots).wgSt w f = t.wgSt w f := by
  rw [(wingsSame_showSlots _).wgSt, State.wgSt_wgPut_ne _ _ _ (by decide) hf hRow hApart, State.wgSt_setWg, State.wgSt_wgCount]

theorem wgState_wgEnter_acquire (hOut : ¬(2 ≤ s.wgState w ∧ s.wgState w ≤ 4)) (hNew : s.wgState w ≠ wgAcquire) :
    (s.wgEnter w wgAcquire).wgState w = wgAcquire := by
  obtain ⟨moved, hMoved, -, hEnter⟩ := wgEnter_acquire hOut hNew
  have hHere : moved.wgSt w WGRP_STATUS.state = wgAcquire := by
    rw [hMoved.wgSt, State.wgSt_wgPut_same (n := 3) _ _ _ (by decide) (by decide) (by decide)]
    rfl
  rw [hEnter, State.wgState, wgSt_acquireEnd _ _ (by decide) (by decide) (by decide), ← hHere]
  unfold State.acquireLeft
  split
  · exact wgSt_unqueue_state moved w
  · rfl

theorem acquires_wgEnter_acquire (hOut : ¬(2 ≤ s.wgState w ∧ s.wgState w ≤ 4)) (hNew : s.wgState w ≠ wgAcquire) :
    (s.wgEnter w wgAcquire).tget pgWng T_WGRP_CNT w WGRP_CNT.acquires = (s.tget pgWng T_WGRP_CNT w WGRP_CNT.acquires + 1) % 2 ^ 32 := by
  obtain ⟨moved, hMoved, -, hEnter⟩ := wgEnter_acquire hOut hNew
  have hBefore : moved.tget pgWng T_WGRP_CNT w WGRP_CNT.acquires = s.tget pgWng T_WGRP_CNT w WGRP_CNT.acquires := by
    rw [hMoved.tgetCount, State.tget_wgPut_count]
  have hLeft : (s.acquireLeft w moved).tget pgWng T_WGRP_CNT w WGRP_CNT.acquires = s.tget pgWng T_WGRP_CNT w WGRP_CNT.acquires := by
    unfold State.acquireLeft
    split
    · rw [State.tget_unqueue_count, hBefore]
    · exact hBefore
  rw [hEnter, (wingsSame_showSlots _).tgetCount, State.tget_wgPut_count, tget_setWg, State.wgCount,
    State.tget_tcount_width (n := 32) (by decide) _ _ _ _ _ (by decide) (by decide), hLeft]

/-- A group that waits for a slot leaves the queue. -/
theorem leaves_wgEnter_acquire (hWaits : s.wgState w = wgSwapWait) :
    (s.wgEnter w wgAcquire).slotQ = s.slotQ.filter (fun v => decide (v ≠ w)) ∧ (s.wgEnter w wgAcquire).wgSt w WGRP_STATUS.queued = 0 := by
  obtain ⟨moved, -, hMovedQ, hEnter⟩ := wgEnter_acquire (s := s) (w := w) (by rw [hWaits]; decide) (by rw [hWaits]; decide)
  have hLeft : s.acquireLeft w moved = moved.unqueue w := if_pos hWaits
  rw [hEnter, hLeft, wgSt_acquireEnd _ _ (by decide) (by decide) (by decide), wgSt_unqueue_queued, State.slotQ_showSlots, State.slotQ_wgPut,
    State.slotQ_setWg, State.slotQ_wgCount, slotQ_unqueue, hMovedQ]
  exact ⟨rfl, rfl⟩

end

theorem slotGrant_head {s : State} {w : Nat} {rest : List Nat} (hQueue : s.slotQ = w :: rest) (hFree : s.slotFree w = true)
    (hServes : s.stackGone (s.wgStack w) = false) (hBorn : s.wgBornNow w = false) : s.slotGrant = s.wgEnter w wgAcquire := by
  unfold State.slotGrant
  rw [hQueue]
  exact if_pos ⟨hFree, by rw [hServes]; rfl, by rw [hBorn]; rfl⟩

theorem overRecover_within {s : State} {w : Nat} (hOver : s.wgState w = wgOver) (hWithin : s.wgBeyond w 100000 = false)
    (hBorn : s.wgBornNow w = false) : s.overRecover w = s.wgEnter w wgAcquire :=
  if_pos ⟨hOver, by rw [hWithin]; rfl, by rw [hBorn]; rfl⟩

theorem State.wg_after (s u : State) (w : Nat) : (s.after u).wg w = u.wg w := rfl
theorem State.wgSt_after (s u : State) (w : Nat) (f : TField) : (s.after u).wgSt w f = u.wgSt w f := rfl
theorem State.wgState_after (s u : State) (w : Nat) : (s.after u).wgState w = u.wgState w := rfl
theorem State.slotQ_after (s u : State) : (s.after u).slotQ = u.slotQ := rfl
theorem State.wgState_fresh (s : State) (w : Nat) : s.fresh.wgState w = s.wgState w := rfl

/-- Settles O36. A group start: `StartsHere.noted` and `StartsHere.wingsGroupStart_seen`, whose sample outlives the settling of the slots;
the playout point: `playoutAdvance_early`; a grant and a return from OVER: the entry into ACQUIRE, `wgEnter_acquire`. -/
theorem wingsGroups : Obligations.WingsGroups := by
  unfold Obligations.WingsGroups
  refine ⟨fun s w F hRun hUsed hValid hBorn hKey hNone =>
      ⟨_, run_eq_next (fun s => (s.wingsGroupStart w 0 F).wingsSettle) hRun, ?_⟩,
    fun s w F x hRun hUsed hValid hBorn hKey => ⟨_, run_eq_next (fun s => (s.wingsGroupStart w 0 F).wingsSettle) hRun, ?_⟩,
    fun s w u K hRun hLow hHigh hBorn hSlew hSel hKey => ⟨_, run_eq_next (fun s => (s.playoutAdvance w u).wingsSettle) hRun, ?_⟩,
    fun s w rest hRun hQueue hFree hServes hBorn hWaits => ⟨_, run_eq_next State.slotGrant hRun, ?_⟩,
    fun s w hRun hOver hWithin hBorn => ⟨_, run_eq_next (fun s => s.overRecover w) hRun, ?_⟩⟩
  · have hStarts : StartsHere s.fresh w := ⟨hUsed, hValid, hBorn⟩
    rw [State.wg_after, hStarts.noted hKey hNone, State.wg_setWg_same]
    exact ⟨rfl, fun _ _ => rfl⟩
  · have hStarts : StartsHere s.fresh w := ⟨hUsed, hValid, hBorn⟩
    have hSettled := (plays_wingsSettle (w := w) (s.fresh.wingsGroupStart w 0 F)).samplesKept
    obtain ⟨hSamples, hCount⟩ := hStarts.wingsGroupStart_seen hKey
    rw [State.wg_after]
    exact ⟨hSettled.samples.trans hSamples, hSettled.nSamples.trans hCount⟩
  · obtain ⟨hPlayout, hMisses⟩ := playoutAdvance_early (s := s.fresh) (use := u) hLow hHigh hBorn hSlew hSel hKey
    rw [State.hbmRead_fresh, State.hbmErrors_fresh, State.ringRead_fresh] at hMisses
    rw [State.wg_after, State.tget_after]
    exact ⟨hPlayout, hMisses⟩
  · obtain ⟨hGone, hQueued⟩ := leaves_wgEnter_acquire (s := s.fresh) hWaits
    have hState := wgState_wgEnter_acquire (s := s.fresh) (w := w) (by rw [State.wgState_fresh, hWaits]; decide)
      (by rw [State.wgState_fresh, hWaits]; decide)
    rw [State.wgState_after, State.slotQ_after, State.wgSt_after, slotGrant_head (s := s.fresh) hQueue hFree hServes hBorn]
    refine ⟨hState, hGone.trans ?_, hQueued⟩
    rw [show s.fresh.slotQ = w :: rest from hQueue]
    exact List.filter_cons_of_neg (by simp)
  · have hOut : ¬(2 ≤ s.fresh.wgState w ∧ s.fresh.wgState w ≤ 4) := by rw [State.wgState_fresh, hOver]; decide
    have hNew : s.fresh.wgState w ≠ wgAcquire := by rw [State.wgState_fresh, hOver]; decide
    rw [State.wgState_after, State.tget_after, overRecover_within (s := s.fresh) hOver hWithin hBorn, ← State.tget_fresh s]
    exact ⟨wgState_wgEnter_acquire hOut hNew, acquires_wgEnter_acquire hOut hNew⟩

end Sys2Proof.Machine
